-- ==== Sys2Proof/Word.lean ====
section
/-! DEFINITION. Sys2Proof/Word.lean: the word types of the M9, what a field of a register is, and what an
access code is (R8, R10). -/

namespace Sys2Proof

/-- One byte. -/
abbrev Byte := BitVec 8

/-- A hub register (R8: registers are 32 bits wide). -/
abbrev Word := BitVec 32

/-- A boundary word, a bundle's data, FIG_COUNT. -/
abbrev DWord := BitVec 64

/-- An internal address or a round number (R5, R21: 48 bits). -/
abbrev Addr48 := BitVec 48

/-- A field of a hub register: the register's offset from the hub base, and the field's highest and lowest bit. -/
structure Fld where
  addr : Nat
  hi : Nat
  lo : Nat
deriving DecidableEq, Repr

/-- The access codes of R10. -/
inductive Access where
  /-- read and write -/
  | rw
  /-- read only: a write is ignored -/
  | ro
  /-- write only: reads 0, acts on the write -/
  | wo
  /-- a written 1 clears the bit -/
  | w1c
  /-- a written 1 sets the bit -/
  | w1s
  /-- a read returns the field and then clears it -/
  | rc
  /-- a read removes the head of a queue -/
  | pop
deriving DecidableEq, Repr

/-- One field of a register as its table gives it. -/
structure FieldSpec where
  hi : Nat
  lo : Nat
  acc : Access
  /-- the value of the Reset column -/
  rst : Nat
deriving DecidableEq, Repr

/-- One register, or an array of registers, as its introductory line gives it. -/
structure RegSpec where
  /-- offset of the first register from the hub base -/
  base : Nat
  /-- for each index: how many values it takes and the stride -/
  dims : List (Nat × Nat)
  /-- lattice reset acts on the register -/
  lat : Bool
  /-- core reset acts on the register -/
  core : Bool
  /-- hot reset acts on the register -/
  hot : Bool
  /-- a log register: writing 1 to its bit 31 clears bits 31 and 30 (OVF) -/
  log : Bool
  fields : List FieldSpec
deriving DecidableEq, Repr

end Sys2Proof
end

