-- ==== Sys2Proof/Config.lean ====
section
/-! DEFINITION. Sys2Proof/Config.lean: what an implementation fixes and the spec does not, as constants without a body. Nothing
can evaluate them: a claim that holds, holds whatever their values are. -/

namespace Sys2Proof

/-- The free value number `n` (log entry 4): where the spec says that a value is undefined and the machine goes on, the step takes
`Config.freeNat` of the state's counter of free values and advances the counter. -/
opaque Config.freeNat : Nat → Nat

/-- The value of a combinational path that never settles (a loop of LUTs): R82 gives no value (log entry 5). -/
opaque Config.loopBit : Bool

/-- The 32 check bits of the SEC-DED code over the 5,120 data bits of a frame (R168), for data that is not 0: the rule gives their number
and not the code (log entry 7). -/
opaque Config.frameCheck : Nat → BitVec 32

end Sys2Proof
end

