-- ==== Sys2Proof/Machine/Map.lean ====
section
/-! DEFINITION. Sys2Proof/Machine/Map.lean: sparse tables as plain data. A table is a list of (key, value) pairs in one
canonical form: keys strictly rising, and no entry equal to what an unlisted key reads as. -/

namespace Sys2Proof.Machine

/-- The value of key `k`, or `d` where the table lists none. -/
def mget {α : Type} (m : List (Nat × α)) (d : α) (k : Nat) : α :=
  match m with
  | [] => d
  | (k', v) :: t => if k' = k then v else mget t d k

/-- Insert a pair before the first larger key. -/
def minsert {α : Type} (m : List (Nat × α)) (k : Nat) (v : α) : List (Nat × α) :=
  match m with
  | [] => [(k, v)]
  | (k', v') :: t => if k < k' then (k, v) :: (k', v') :: t else (k', v') :: minsert t k v

/-- Remove key `k`. -/
def merase {α : Type} (m : List (Nat × α)) (k : Nat) : List (Nat × α) :=
  m.filter (fun e => e.1 != k)

/-- Give key `k` the value `v`, where an unlisted `k` reads as `d`: writing `d` removes the entry. -/
def mset {α : Type} [DecidableEq α] (m : List (Nat × α)) (d : α) (k : Nat) (v : α) : List (Nat × α) :=
  if v = d then merase m k else minsert (merase m k) k v

/-- The canonical form: keys strictly rising, no entry equal to what its key reads as when unlisted. -/
abbrev mwf {α : Type} [DecidableEq α] (m : List (Nat × α)) (d : Nat → α) : Prop :=
  (m.map Prod.fst).Pairwise (· < ·) ∧ ∀ e ∈ m, e.2 ≠ d e.1

/-- Write `vs` at the keys `k`, `k + 1`, … -/
def msetList {α : Type} [DecidableEq α] (m : List (Nat × α)) (d : α) (k : Nat) : List α → List (Nat × α)
  | [] => m
  | v :: vs => msetList (mset m d k v) d (k + 1) vs

/-- The values of the keys `k` to `k + n - 1`. -/
def mgetList {α : Type} (m : List (Nat × α)) (d : α) (k : Nat) : Nat → List α
  | 0 => []
  | n + 1 => mget m d k :: mgetList m d (k + 1) n

/-- Remove every key in `k` to `k + n - 1`. -/
def meraseRange {α : Type} (m : List (Nat × α)) (k n : Nat) : List (Nat × α) :=
  m.filter (fun e => !(k ≤ e.1 && e.1 < k + n))

/-- Add `v` to a list without repeats. -/
def ladd {α : Type} [DecidableEq α] (l : List α) (v : α) : List α :=
  if v ∈ l then l else l ++ [v]

/-- Take `v` out of a list. -/
def ldel {α : Type} [DecidableEq α] (l : List α) (v : α) : List α :=
  l.filter (fun x => !decide (x = v))

/-- Bit `i` of a natural number. -/
def bitOf (n i : Nat) : Bool := n.testBit i

/-- The bits `lo` to `hi` of a natural number. -/
def bitsOf (n hi lo : Nat) : Nat := (n >>> lo) % 2 ^ (hi + 1 - lo)

/-- 1 for true, 0 for false. -/
def b2n (b : Bool) : Nat := if b then 1 else 0

/-- The positions of the bits of `n` that are 1, below `w`. -/
def bitList (n w : Nat) : List Nat := (List.range w).filter (fun i => n.testBit i)

/-- `v` moved into `lo` to `hi`. -/
def clamp (lo hi v : Nat) : Nat := if v < lo then lo else if hi < v then hi else v

/-- The two's complement value of the low `w` bits of `n`. -/
def sext (w n : Nat) : Int :=
  let m := n % 2 ^ w
  if m < 2 ^ (w - 1) then (m : Int) else (m : Int) - 2 ^ w

/-- The low `w` bits of an integer, as a natural number. -/
def wrap (w : Nat) (i : Int) : Nat := (i % (2 ^ w : Nat)).toNat

/-- The number whose bit `i` is element `i` of the list. -/
def packBits : List Bool → Nat
  | [] => 0
  | b :: t => b2n b + 2 * packBits t

/-- Apply `f` for each element of a list, from the first to the last. -/
def foldS {α σ : Type} (l : List α) (f : α → σ → σ) (s : σ) : σ :=
  match l with
  | [] => s
  | x :: t => foldS t f (f x s)

end Sys2Proof.Machine
end

