-- ==== Sys2Proof/Machine/RegTable.lean ====
section
/-! DEFINITION. Sys2Proof/Machine/RegTable.lean: the hub registers of the M9 as the register tables of spec/ give them:
the offset of every register from the hub base 0x0200_0000_0000 (R22), the bits of every field, its access code (R10) and its reset
value, and which reset domains act on it (R7). A name is the register's own name; REGISTER_FIELD is the field. The registers of core
c (0 to 15 = ST0 to ST15, 16 = STW) lie at 0x100_0000 + c * 0x1_0000 (R22).

A field whose Reset column says "fuse", "strap" or a dash has 0 here (log entries 2 and 3); the ones that depend on the index are in
`resetSpecial` of Machine/State.lean. -/

namespace Sys2Proof.Machine

/-- 01_architecture R25. -/
abbrev DEV_CODE : Nat := 0x0
abbrev DEV_CODE_CODE : Fld := ⟨DEV_CODE, 31, 0⟩
/-- 01_architecture R25. -/
abbrev DEV_REV : Nat := 0x4
abbrev DEV_REV_GRADE : Fld := ⟨DEV_REV, 7, 4⟩
abbrev DEV_REV_STEPPING : Fld := ⟨DEV_REV, 3, 0⟩
/-- 01_architecture R25. -/
abbrev DEV_UNMAPPED_INFO : Nat := 0x4800
abbrev DEV_UNMAPPED_INFO_VALID : Fld := ⟨DEV_UNMAPPED_INFO, 31, 31⟩
abbrev DEV_UNMAPPED_INFO_OVF : Fld := ⟨DEV_UNMAPPED_INFO, 30, 30⟩
abbrev DEV_UNMAPPED_INFO_WRITE : Fld := ⟨DEV_UNMAPPED_INFO, 29, 29⟩
abbrev DEV_UNMAPPED_INFO_SRC : Fld := ⟨DEV_UNMAPPED_INFO, 21, 16⟩
abbrev DEV_UNMAPPED_INFO_ADDR_HI : Fld := ⟨DEV_UNMAPPED_INFO, 15, 0⟩
/-- 01_architecture R25. -/
abbrev DEV_UNMAPPED_ADDR : Nat := 0x4804
abbrev DEV_UNMAPPED_ADDR_ADDR_LO : Fld := ⟨DEV_UNMAPPED_ADDR, 31, 0⟩
/-- 01_architecture R37. -/
abbrev DEV_ORD_FENCE (s : Nat) : Nat := 0x4000 + s * 0x20
abbrev DEV_ORD_FENCE_GO (s : Nat) : Fld := ⟨DEV_ORD_FENCE s, 0, 0⟩
/-- 01_architecture R37. -/
abbrev DEV_ORD_ISSUED (s : Nat) : Nat := 0x4004 + s * 0x20
abbrev DEV_ORD_ISSUED_COUNT (s : Nat) : Fld := ⟨DEV_ORD_ISSUED s, 31, 0⟩
/-- 01_architecture R37. -/
abbrev DEV_ORD_DONE (s : Nat) : Nat := 0x4008 + s * 0x20
abbrev DEV_ORD_DONE_COUNT (s : Nat) : Fld := ⟨DEV_ORD_DONE s, 31, 0⟩
/-- 01_architecture R37. -/
abbrev DEV_ORD_WAIT (s : Nat) : Nat := 0x400c + s * 0x20
abbrev DEV_ORD_WAIT_TARGET (s : Nat) : Fld := ⟨DEV_ORD_WAIT s, 31, 0⟩
/-- 01_architecture R37. -/
abbrev DEV_ORD_STATUS (s : Nat) : Nat := 0x4010 + s * 0x20
abbrev DEV_ORD_STATUS_ERR (s : Nat) : Fld := ⟨DEV_ORD_STATUS s, 31, 31⟩
abbrev DEV_ORD_STATUS_IRQ_EN (s : Nat) : Fld := ⟨DEV_ORD_STATUS s, 30, 30⟩
abbrev DEV_ORD_STATUS_EVT (s : Nat) : Fld := ⟨DEV_ORD_STATUS s, 29, 29⟩
abbrev DEV_ORD_STATUS_PENDING (s : Nat) : Fld := ⟨DEV_ORD_STATUS s, 4, 0⟩
/-- 04_clocks R133. -/
abbrev CLK_OSC_TRIM_CTRL : Nat := 0x100000
abbrev CLK_OSC_TRIM_CTRL_EN : Fld := ⟨CLK_OSC_TRIM_CTRL, 31, 31⟩
abbrev CLK_OSC_TRIM_CTRL_SRC : Fld := ⟨CLK_OSC_TRIM_CTRL, 29, 28⟩
abbrev CLK_OSC_TRIM_CTRL_PORT : Fld := ⟨CLK_OSC_TRIM_CTRL, 27, 24⟩
abbrev CLK_OSC_TRIM_CTRL_WINDOW : Fld := ⟨CLK_OSC_TRIM_CTRL, 20, 16⟩
abbrev CLK_OSC_TRIM_CTRL_DEADBAND : Fld := ⟨CLK_OSC_TRIM_CTRL, 15, 12⟩
abbrev CLK_OSC_TRIM_CTRL_CODE : Fld := ⟨CLK_OSC_TRIM_CTRL, 11, 0⟩
/-- 04_clocks R133. -/
abbrev CLK_OSC_TRIM_EXP : Nat := 0x100004
abbrev CLK_OSC_TRIM_EXP_EXP : Fld := ⟨CLK_OSC_TRIM_EXP, 31, 0⟩
/-- 04_clocks R133. -/
abbrev CLK_OSC_TRIM_STAT : Nat := 0x100008
abbrev CLK_OSC_TRIM_STAT_LOCKED : Fld := ⟨CLK_OSC_TRIM_STAT, 31, 31⟩
abbrev CLK_OSC_TRIM_STAT_REF_MISSING : Fld := ⟨CLK_OSC_TRIM_STAT, 30, 30⟩
abbrev CLK_OSC_TRIM_STAT_RAIL : Fld := ⟨CLK_OSC_TRIM_STAT, 29, 29⟩
abbrev CLK_OSC_TRIM_STAT_LAST_DIFF : Fld := ⟨CLK_OSC_TRIM_STAT, 15, 0⟩
/-- 04_clocks R138. -/
abbrev CLK_PLL_CTRL (p : Nat) : Nat := 0x100100 + p * 0x10
abbrev CLK_PLL_CTRL_EN (p : Nat) : Fld := ⟨CLK_PLL_CTRL p, 31, 31⟩
abbrev CLK_PLL_CTRL_REF_SEL (p : Nat) : Fld := ⟨CLK_PLL_CTRL p, 30, 30⟩
abbrev CLK_PLL_CTRL_FBDIV (p : Nat) : Fld := ⟨CLK_PLL_CTRL p, 23, 16⟩
abbrev CLK_PLL_CTRL_REFDIV (p : Nat) : Fld := ⟨CLK_PLL_CTRL p, 1, 0⟩
/-- 04_clocks R138. -/
abbrev CLK_PLL_OUT (p : Nat) : Nat := 0x100104 + p * 0x10
abbrev CLK_PLL_OUT_OUTDIV3 (p : Nat) : Fld := ⟨CLK_PLL_OUT p, 31, 24⟩
abbrev CLK_PLL_OUT_OUTDIV2 (p : Nat) : Fld := ⟨CLK_PLL_OUT p, 23, 16⟩
abbrev CLK_PLL_OUT_OUTDIV1 (p : Nat) : Fld := ⟨CLK_PLL_OUT p, 15, 8⟩
abbrev CLK_PLL_OUT_OUTDIV0 (p : Nat) : Fld := ⟨CLK_PLL_OUT p, 7, 0⟩
/-- 04_clocks R138. -/
abbrev CLK_PLL_STAT (p : Nat) : Nat := 0x100108 + p * 0x10
abbrev CLK_PLL_STAT_LOCK (p : Nat) : Fld := ⟨CLK_PLL_STAT p, 31, 31⟩
abbrev CLK_PLL_STAT_UNLOCK (p : Nat) : Fld := ⟨CLK_PLL_STAT p, 30, 30⟩
abbrev CLK_PLL_STAT_ERR_CFG (p : Nat) : Fld := ⟨CLK_PLL_STAT p, 29, 29⟩
abbrev CLK_PLL_STAT_TMO (p : Nat) : Fld := ⟨CLK_PLL_STAT p, 28, 28⟩
/-- 04_clocks R141. -/
abbrev CLK_HUB_SEL : Nat := 0x100300
abbrev CLK_HUB_SEL_AUTO : Fld := ⟨CLK_HUB_SEL, 31, 31⟩
abbrev CLK_HUB_SEL_MESH_BUSY : Fld := ⟨CLK_HUB_SEL, 5, 5⟩
abbrev CLK_HUB_SEL_FIG_BUSY : Fld := ⟨CLK_HUB_SEL, 4, 4⟩
abbrev CLK_HUB_SEL_MESH_SRC : Fld := ⟨CLK_HUB_SEL, 1, 1⟩
abbrev CLK_HUB_SEL_FIG_SRC : Fld := ⟨CLK_HUB_SEL, 0, 0⟩
/-- 04_clocks R152. -/
abbrev CLK_GCLK_CFG (g : Nat) : Nat := 0x101000 + g * 0x10
abbrev CLK_GCLK_CFG_EN (g : Nat) : Fld := ⟨CLK_GCLK_CFG g, 31, 31⟩
abbrev CLK_GCLK_CFG_MODE (g : Nat) : Fld := ⟨CLK_GCLK_CFG g, 30, 30⟩
abbrev CLK_GCLK_CFG_BUSY (g : Nat) : Fld := ⟨CLK_GCLK_CFG g, 29, 29⟩
abbrev CLK_GCLK_CFG_DIV (g : Nat) : Fld := ⟨CLK_GCLK_CFG g, 23, 16⟩
abbrev CLK_GCLK_CFG_ALT_SRC (g : Nat) : Fld := ⟨CLK_GCLK_CFG g, 13, 8⟩
abbrev CLK_GCLK_CFG_SRC (g : Nat) : Fld := ⟨CLK_GCLK_CFG g, 5, 0⟩
/-- 04_clocks R152. -/
abbrev CLK_GCLK_RND (g : Nat) : Nat := 0x101004 + g * 0x10
abbrev CLK_GCLK_RND_EN_MODE (g : Nat) : Fld := ⟨CLK_GCLK_RND g, 31, 30⟩
abbrev CLK_GCLK_RND_PHASE (g : Nat) : Fld := ⟨CLK_GCLK_RND g, 15, 8⟩
abbrev CLK_GCLK_RND_PERIOD (g : Nat) : Fld := ⟨CLK_GCLK_RND g, 7, 0⟩
/-- 04_clocks R152. -/
abbrev CLK_RND_REQ : Nat := 0x101400
abbrev CLK_RND_REQ_REQ : Fld := ⟨CLK_RND_REQ, 31, 0⟩
/-- 04_clocks R152. -/
abbrev CLK_RCLK_CFG (n : Nat) (r : Nat) : Nat := 0x102000 + n * 0x80 + r * 0x4
abbrev CLK_RCLK_CFG_EN (n : Nat) (r : Nat) : Fld := ⟨CLK_RCLK_CFG n r, 31, 31⟩
abbrev CLK_RCLK_CFG_BUSY (n : Nat) (r : Nat) : Fld := ⟨CLK_RCLK_CFG n r, 29, 29⟩
abbrev CLK_RCLK_CFG_DIV (n : Nat) (r : Nat) : Fld := ⟨CLK_RCLK_CFG n r, 23, 16⟩
abbrev CLK_RCLK_CFG_SRC (n : Nat) (r : Nat) : Fld := ⟨CLK_RCLK_CFG n r, 6, 0⟩
/-- 04_clocks R157. -/
abbrev CLK_SW_STAT : Nat := 0x103000
abbrev CLK_SW_STAT_CLK_SW_DEAD : Fld := ⟨CLK_SW_STAT, 31, 31⟩
abbrev CLK_SW_STAT_OVF : Fld := ⟨CLK_SW_STAT, 30, 30⟩
abbrev CLK_SW_STAT_MUX : Fld := ⟨CLK_SW_STAT, 8, 0⟩
/-- 04_clocks R163. -/
abbrev CLK_GATE_EN0 : Nat := 0x104000
abbrev CLK_GATE_EN0_PORT : Fld := ⟨CLK_GATE_EN0, 31, 16⟩
abbrev CLK_GATE_EN0_CORE : Fld := ⟨CLK_GATE_EN0, 15, 0⟩
/-- 04_clocks R163. -/
abbrev CLK_GATE_EN1 : Nat := 0x104004
abbrev CLK_GATE_EN1_PERIPH : Fld := ⟨CLK_GATE_EN1, 6, 6⟩
abbrev CLK_GATE_EN1_TETHER : Fld := ⟨CLK_GATE_EN1, 5, 5⟩
abbrev CLK_GATE_EN1_TAIL : Fld := ⟨CLK_GATE_EN1, 4, 4⟩
abbrev CLK_GATE_EN1_HBM : Fld := ⟨CLK_GATE_EN1, 3, 0⟩
/-- 04_clocks R163. -/
abbrev CLK_GATE_STAT : Nat := 0x104008
abbrev CLK_GATE_STAT_CLK_GATE_FORCED : Fld := ⟨CLK_GATE_STAT, 31, 31⟩
abbrev CLK_GATE_STAT_OVF : Fld := ⟨CLK_GATE_STAT, 30, 30⟩
abbrev CLK_GATE_STAT_BLOCK : Fld := ⟨CLK_GATE_STAT, 5, 0⟩
/-- 04_clocks R166. -/
abbrev CLK_MON_CFG (m : Nat) : Nat := 0x105000 + m * 0x10
abbrev CLK_MON_CFG_EN (m : Nat) : Fld := ⟨CLK_MON_CFG m, 31, 31⟩
abbrev CLK_MON_CFG_ACTION (m : Nat) : Fld := ⟨CLK_MON_CFG m, 30, 30⟩
abbrev CLK_MON_CFG_WINDOW (m : Nat) : Fld := ⟨CLK_MON_CFG m, 19, 16⟩
/-- 04_clocks R166. -/
abbrev CLK_MON_LIM (m : Nat) : Nat := 0x105004 + m * 0x10
abbrev CLK_MON_LIM_HI (m : Nat) : Fld := ⟨CLK_MON_LIM m, 31, 16⟩
abbrev CLK_MON_LIM_LO (m : Nat) : Fld := ⟨CLK_MON_LIM m, 15, 0⟩
/-- 04_clocks R166. -/
abbrev CLK_MON_STAT (m : Nat) : Nat := 0x105008 + m * 0x10
abbrev CLK_MON_STAT_ABSENT (m : Nat) : Fld := ⟨CLK_MON_STAT m, 31, 31⟩
abbrev CLK_MON_STAT_HIGH (m : Nat) : Fld := ⟨CLK_MON_STAT m, 30, 30⟩
abbrev CLK_MON_STAT_LOW (m : Nat) : Fld := ⟨CLK_MON_STAT m, 29, 29⟩
abbrev CLK_MON_STAT_COUNT (m : Nat) : Fld := ⟨CLK_MON_STAT m, 15, 0⟩
/-- 05_configuration R207. -/
abbrev CFG_STRAP : Nat := 0x200000
abbrev CFG_STRAP_PULL_DEFAULT : Fld := ⟨CFG_STRAP, 3, 2⟩
abbrev CFG_STRAP_BOOT_SRC : Fld := ⟨CFG_STRAP, 1, 0⟩
/-- 05_configuration R207. -/
abbrev CFG_LOAD_CTRL : Nat := 0x200010
abbrev CFG_LOAD_CTRL_GO : Fld := ⟨CFG_LOAD_CTRL, 31, 31⟩
abbrev CFG_LOAD_CTRL_OP : Fld := ⟨CFG_LOAD_CTRL, 30, 28⟩
abbrev CFG_LOAD_CTRL_SRC : Fld := ⟨CFG_LOAD_CTRL, 27, 26⟩
abbrev CFG_LOAD_CTRL_AUTO_START : Fld := ⟨CFG_LOAD_CTRL, 25, 25⟩
abbrev CFG_LOAD_CTRL_ABORT : Fld := ⟨CFG_LOAD_CTRL, 24, 24⟩
/-- 05_configuration R207. -/
abbrev CFG_SRC_ADDR_LO : Nat := 0x200014
abbrev CFG_SRC_ADDR_LO_ADDR_LO : Fld := ⟨CFG_SRC_ADDR_LO, 31, 0⟩
/-- 05_configuration R207. -/
abbrev CFG_SRC_ADDR_HI : Nat := 0x200018
abbrev CFG_SRC_ADDR_HI_ADDR_HI : Fld := ⟨CFG_SRC_ADDR_HI, 31, 0⟩
/-- 05_configuration R207. -/
abbrev CFG_SRC_LEN : Nat := 0x20001c
abbrev CFG_SRC_LEN_LEN : Fld := ⟨CFG_SRC_LEN, 31, 0⟩
/-- 05_configuration R207. -/
abbrev CFG_STAT : Nat := 0x200020
abbrev CFG_STAT_BUSY : Fld := ⟨CFG_STAT, 31, 31⟩
abbrev CFG_STAT_DONE : Fld := ⟨CFG_STAT, 30, 30⟩
abbrev CFG_STAT_FAIL : Fld := ⟨CFG_STAT, 29, 29⟩
abbrev CFG_STAT_STARTED : Fld := ⟨CFG_STAT, 28, 28⟩
abbrev CFG_STAT_PHASE : Fld := ⟨CFG_STAT, 27, 24⟩
abbrev CFG_STAT_SECT : Fld := ⟨CFG_STAT, 7, 0⟩
/-- 05_configuration R207. -/
abbrev CFG_ERR_CAUSE : Nat := 0x200024
abbrev CFG_ERR_CAUSE_VALID : Fld := ⟨CFG_ERR_CAUSE, 31, 31⟩
abbrev CFG_ERR_CAUSE_OVF : Fld := ⟨CFG_ERR_CAUSE, 30, 30⟩
abbrev CFG_ERR_CAUSE_BAY : Fld := ⟨CFG_ERR_CAUSE, 27, 21⟩
abbrev CFG_ERR_CAUSE_FRAME : Fld := ⟨CFG_ERR_CAUSE, 20, 8⟩
abbrev CFG_ERR_CAUSE_CAUSE : Fld := ⟨CFG_ERR_CAUSE, 7, 0⟩
/-- 05_configuration R207. -/
abbrev CFG_PR_CTRL : Nat := 0x200100
abbrev CFG_PR_CTRL_ARM : Fld := ⟨CFG_PR_CTRL, 31, 31⟩
abbrev CFG_PR_CTRL_CANCEL : Fld := ⟨CFG_PR_CTRL, 30, 30⟩
abbrev CFG_PR_CTRL_ARMED : Fld := ⟨CFG_PR_CTRL, 29, 29⟩
abbrev CFG_PR_CTRL_MODE : Fld := ⟨CFG_PR_CTRL, 28, 27⟩
abbrev CFG_PR_CTRL_REL_MODE : Fld := ⟨CFG_PR_CTRL, 26, 26⟩
abbrev CFG_PR_CTRL_BAY : Fld := ⟨CFG_PR_CTRL, 6, 0⟩
/-- 05_configuration R207. -/
abbrev CFG_PR_FREEZE_LO : Nat := 0x200104
abbrev CFG_PR_FREEZE_LO_ROUND_LO : Fld := ⟨CFG_PR_FREEZE_LO, 31, 0⟩
/-- 05_configuration R207. -/
abbrev CFG_PR_FREEZE_HI : Nat := 0x200108
abbrev CFG_PR_FREEZE_HI_ROUND_HI : Fld := ⟨CFG_PR_FREEZE_HI, 15, 0⟩
/-- 05_configuration R207. -/
abbrev CFG_PR_RELEASE_LO : Nat := 0x20010c
abbrev CFG_PR_RELEASE_LO_ROUND_LO : Fld := ⟨CFG_PR_RELEASE_LO, 31, 0⟩
/-- 05_configuration R207. -/
abbrev CFG_PR_RELEASE_HI : Nat := 0x200110
abbrev CFG_PR_RELEASE_HI_ROUND_HI : Fld := ⟨CFG_PR_RELEASE_HI, 15, 0⟩
/-- 05_configuration R207. -/
abbrev CFG_SCRUB_CTRL : Nat := 0x200200
abbrev CFG_SCRUB_CTRL_EN : Fld := ⟨CFG_SCRUB_CTRL, 31, 31⟩
abbrev CFG_SCRUB_CTRL_POLICY : Fld := ⟨CFG_SCRUB_CTRL, 30, 29⟩
abbrev CFG_SCRUB_CTRL_INTERVAL : Fld := ⟨CFG_SCRUB_CTRL, 15, 0⟩
/-- 05_configuration R207. -/
abbrev CFG_SCRUB_STAT : Nat := 0x200204
abbrev CFG_SCRUB_STAT_PASS : Fld := ⟨CFG_SCRUB_STAT, 31, 16⟩
abbrev CFG_SCRUB_STAT_PAUSED : Fld := ⟨CFG_SCRUB_STAT, 7, 7⟩
abbrev CFG_SCRUB_STAT_BAY : Fld := ⟨CFG_SCRUB_STAT, 6, 0⟩
/-- 05_configuration R207. -/
abbrev CFG_SCRUB_LOG : Nat := 0x200208
abbrev CFG_SCRUB_LOG_VALID : Fld := ⟨CFG_SCRUB_LOG, 31, 31⟩
abbrev CFG_SCRUB_LOG_OVF : Fld := ⟨CFG_SCRUB_LOG, 30, 30⟩
abbrev CFG_SCRUB_LOG_KIND : Fld := ⟨CFG_SCRUB_LOG, 29, 29⟩
abbrev CFG_SCRUB_LOG_REPAIRED : Fld := ⟨CFG_SCRUB_LOG, 28, 28⟩
abbrev CFG_SCRUB_LOG_BAY : Fld := ⟨CFG_SCRUB_LOG, 27, 21⟩
abbrev CFG_SCRUB_LOG_FRAME : Fld := ⟨CFG_SCRUB_LOG, 20, 8⟩
/-- 05_configuration R207. -/
abbrev CFG_STORE_CTRL : Nat := 0x200300
abbrev CFG_STORE_CTRL_GUARD : Fld := ⟨CFG_STORE_CTRL, 31, 31⟩
abbrev CFG_STORE_CTRL_STAGING_OK : Fld := ⟨CFG_STORE_CTRL, 2, 2⟩
abbrev CFG_STORE_CTRL_MIRROR_OK : Fld := ⟨CFG_STORE_CTRL, 1, 1⟩
abbrev CFG_STORE_CTRL_GOLDEN_OK : Fld := ⟨CFG_STORE_CTRL, 0, 0⟩
/-- 05_configuration R207. -/
abbrev CFG_BAY_STAT (k : Nat) : Nat := 0x201000 + k * 0x10
abbrev CFG_BAY_STAT_STATE (k : Nat) : Fld := ⟨CFG_BAY_STAT k, 31, 29⟩
abbrev CFG_BAY_STAT_SUSPECT (k : Nat) : Fld := ⟨CFG_BAY_STAT k, 28, 28⟩
abbrev CFG_BAY_STAT_CE_COUNT (k : Nat) : Fld := ⟨CFG_BAY_STAT k, 15, 0⟩
/-- 05_configuration R207. -/
abbrev CFG_BAY_CRC (k : Nat) : Nat := 0x201004 + k * 0x10
abbrev CFG_BAY_CRC_CRC (k : Nat) : Fld := ⟨CFG_BAY_CRC k, 31, 0⟩
/-- 06_caller R251. -/
abbrev CALLER_CTRL : Nat := 0x600000
abbrev CALLER_CTRL_EN : Fld := ⟨CALLER_CTRL, 31, 31⟩
abbrev CALLER_CTRL_FAULT_POL : Fld := ⟨CALLER_CTRL, 30, 30⟩
abbrev CALLER_CTRL_SPILL_EN : Fld := ⟨CALLER_CTRL, 29, 29⟩
/-- 06_caller R251. -/
abbrev CALLER_STAT : Nat := 0x600004
abbrev CALLER_STAT_DONE : Fld := ⟨CALLER_STAT, 31, 31⟩
abbrev CALLER_STAT_STALL : Fld := ⟨CALLER_STAT, 30, 30⟩
abbrev CALLER_STAT_HOLD : Fld := ⟨CALLER_STAT, 29, 29⟩
abbrev CALLER_STAT_BUSY : Fld := ⟨CALLER_STAT, 26, 24⟩
abbrev CALLER_STAT_SUSP : Fld := ⟨CALLER_STAT, 22, 20⟩
abbrev CALLER_STAT_LAST_DONE : Fld := ⟨CALLER_STAT, 15, 0⟩
/-- 06_caller R251. -/
abbrev CALLER_SWAP : Nat := 0x600010
abbrev CALLER_SWAP_GO : Fld := ⟨CALLER_SWAP, 31, 31⟩
abbrev CALLER_SWAP_SYNC : Fld := ⟨CALLER_SWAP, 30, 30⟩
abbrev CALLER_SWAP_PENDING : Fld := ⟨CALLER_SWAP, 29, 29⟩
abbrev CALLER_SWAP_SYNC_BUSY : Fld := ⟨CALLER_SWAP, 28, 28⟩
abbrev CALLER_SWAP_REFUSED : Fld := ⟨CALLER_SWAP, 27, 27⟩
abbrev CALLER_SWAP_MODE : Fld := ⟨CALLER_SWAP, 26, 25⟩
/-- 06_caller R251. -/
abbrev CALLER_SWAP_ROUND_LO : Nat := 0x600014
abbrev CALLER_SWAP_ROUND_LO_ROUND_LO : Fld := ⟨CALLER_SWAP_ROUND_LO, 31, 0⟩
/-- 06_caller R251. -/
abbrev CALLER_SWAP_ROUND_HI : Nat := 0x600018
abbrev CALLER_SWAP_ROUND_HI_ROUND_HI : Fld := ⟨CALLER_SWAP_ROUND_HI, 15, 0⟩
/-- 06_caller R251. -/
abbrev CALLER_SPILL_BASE : Nat := 0x600020
abbrev CALLER_SPILL_BASE_BASE : Fld := ⟨CALLER_SPILL_BASE, 24, 0⟩
/-- 06_caller R251. -/
abbrev CALLER_TRACE_BASE_LO : Nat := 0x600030
abbrev CALLER_TRACE_BASE_LO_BASE_LO : Fld := ⟨CALLER_TRACE_BASE_LO, 31, 12⟩
/-- 06_caller R251. -/
abbrev CALLER_TRACE_BASE_HI : Nat := 0x600034
abbrev CALLER_TRACE_BASE_HI_BASE_HI : Fld := ⟨CALLER_TRACE_BASE_HI, 15, 0⟩
/-- 06_caller R251. -/
abbrev CALLER_TRACE_CFG : Nat := 0x600038
abbrev CALLER_TRACE_CFG_EN : Fld := ⟨CALLER_TRACE_CFG, 31, 31⟩
abbrev CALLER_TRACE_CFG_RING_POL : Fld := ⟨CALLER_TRACE_CFG, 30, 30⟩
abbrev CALLER_TRACE_CFG_FULL_POL : Fld := ⟨CALLER_TRACE_CFG, 29, 29⟩
abbrev CALLER_TRACE_CFG_SIZE : Fld := ⟨CALLER_TRACE_CFG, 4, 0⟩
/-- 06_caller R251. -/
abbrev CALLER_TRACE_WR : Nat := 0x60003c
abbrev CALLER_TRACE_WR_INDEX : Fld := ⟨CALLER_TRACE_WR, 31, 0⟩
/-- 06_caller R251. -/
abbrev CALLER_TRACE_RD : Nat := 0x600040
abbrev CALLER_TRACE_RD_INDEX : Fld := ⟨CALLER_TRACE_RD, 31, 0⟩
/-- 06_caller R251. -/
abbrev CALLER_TRACE_LOST : Nat := 0x600044
abbrev CALLER_TRACE_LOST_COUNT : Fld := ⟨CALLER_TRACE_LOST, 31, 0⟩
/-- 06_caller R251. -/
abbrev CALLER_STALL_LIMIT : Nat := 0x600050
abbrev CALLER_STALL_LIMIT_LIMIT : Fld := ⟨CALLER_STALL_LIMIT, 23, 0⟩
/-- 06_caller R251. -/
abbrev CALLER_FAULT_LOG : Nat := 0x600060
abbrev CALLER_FAULT_LOG_VALID : Fld := ⟨CALLER_FAULT_LOG, 31, 31⟩
abbrev CALLER_FAULT_LOG_OVF : Fld := ⟨CALLER_FAULT_LOG, 30, 30⟩
abbrev CALLER_FAULT_LOG_CAUSE : Fld := ⟨CALLER_FAULT_LOG, 23, 16⟩
abbrev CALLER_FAULT_LOG_INDEX : Fld := ⟨CALLER_FAULT_LOG, 13, 0⟩
/-- 06_caller R251. -/
abbrev CALLER_ERR_LOG : Nat := 0x600064
abbrev CALLER_ERR_LOG_VALID : Fld := ⟨CALLER_ERR_LOG, 31, 31⟩
abbrev CALLER_ERR_LOG_OVF : Fld := ⟨CALLER_ERR_LOG, 30, 30⟩
abbrev CALLER_ERR_LOG_KIND : Fld := ⟨CALLER_ERR_LOG, 29, 28⟩
abbrev CALLER_ERR_LOG_INDEX : Fld := ⟨CALLER_ERR_LOG, 13, 0⟩
/-- 06_caller R251. -/
abbrev CALLER_QPORT_SEL : Nat := 0x600080
abbrev CALLER_QPORT_SEL_QUEUE : Fld := ⟨CALLER_QPORT_SEL, 13, 0⟩
/-- 06_caller R251. -/
abbrev CALLER_QPORT_DATA_LO : Nat := 0x600084
abbrev CALLER_QPORT_DATA_LO_DATA_LO : Fld := ⟨CALLER_QPORT_DATA_LO, 31, 0⟩
/-- 06_caller R251. -/
abbrev CALLER_QPORT_DATA_HI : Nat := 0x600088
abbrev CALLER_QPORT_DATA_HI_DATA_HI : Fld := ⟨CALLER_QPORT_DATA_HI, 31, 0⟩
/-- 06_caller R251. -/
abbrev CALLER_QPORT_PUSH : Nat := 0x60008c
abbrev CALLER_QPORT_PUSH_POISON : Fld := ⟨CALLER_QPORT_PUSH, 0, 0⟩
/-- 06_caller R251. -/
abbrev CALLER_QPORT_POP : Nat := 0x600090
abbrev CALLER_QPORT_POP_VALID : Fld := ⟨CALLER_QPORT_POP, 31, 31⟩
abbrev CALLER_QPORT_POP_POISON : Fld := ⟨CALLER_QPORT_POP, 0, 0⟩
/-- 06_caller R251. -/
abbrev CALLER_DLIST_CFG (l : Nat) : Nat := 0x600100 + l * 0x10
abbrev CALLER_DLIST_CFG_KIND (l : Nat) : Fld := ⟨CALLER_DLIST_CFG l, 31, 31⟩
/-- 06_caller R251. -/
abbrev CALLER_DLIST_STAT (l : Nat) : Nat := 0x600104 + l * 0x10
abbrev CALLER_DLIST_STAT_FULL_HIT (l : Nat) : Fld := ⟨CALLER_DLIST_STAT l, 31, 31⟩
abbrev CALLER_DLIST_STAT_PEAK (l : Nat) : Fld := ⟨CALLER_DLIST_STAT l, 26, 16⟩
abbrev CALLER_DLIST_STAT_COUNT (l : Nat) : Fld := ⟨CALLER_DLIST_STAT l, 10, 0⟩
/-- 06_caller R251. -/
abbrev CALLER_TASK_DESC (t : Nat) (i : Nat) : Nat := 0x620000 + t * 0x20 + i * 0x4
abbrev CALLER_TASK_DESC_WORD (t : Nat) (i : Nat) : Fld := ⟨CALLER_TASK_DESC t i, 31, 0⟩
/-- 06_caller R251. -/
abbrev CALLER_TASK_ACT (t : Nat) (i : Nat) : Nat := 0x640000 + t * 0x20 + i * 0x4
abbrev CALLER_TASK_ACT_WORD (t : Nat) (i : Nat) : Fld := ⟨CALLER_TASK_ACT t i, 31, 0⟩
/-- 06_caller R251. -/
abbrev CALLER_TASK_FLAGS_LO (t : Nat) : Nat := 0x660000 + t * 0x10
abbrev CALLER_TASK_FLAGS_LO_FLAGS (t : Nat) : Fld := ⟨CALLER_TASK_FLAGS_LO t, 31, 0⟩
/-- 06_caller R251. -/
abbrev CALLER_TASK_FLAGS_HI (t : Nat) : Nat := 0x660004 + t * 0x10
abbrev CALLER_TASK_FLAGS_HI_FLAGS (t : Nat) : Fld := ⟨CALLER_TASK_FLAGS_HI t, 31, 0⟩
/-- 06_caller R251. -/
abbrev CALLER_TASK_STATE (t : Nat) : Nat := 0x660008 + t * 0x10
abbrev CALLER_TASK_STATE_CLR_FAULT (t : Nat) : Fld := ⟨CALLER_TASK_STATE t, 31, 31⟩
abbrev CALLER_TASK_STATE_RAN (t : Nat) : Fld := ⟨CALLER_TASK_STATE t, 30, 30⟩
abbrev CALLER_TASK_STATE_FCAUSE (t : Nat) : Fld := ⟨CALLER_TASK_STATE t, 15, 8⟩
abbrev CALLER_TASK_STATE_STATE (t : Nat) : Fld := ⟨CALLER_TASK_STATE t, 2, 0⟩
/-- 06_caller R251. -/
abbrev CALLER_QUEUE_STAT (q : Nat) : Nat := 0x670000 + q * 0x4
abbrev CALLER_QUEUE_STAT_ERR (q : Nat) : Fld := ⟨CALLER_QUEUE_STAT q, 31, 31⟩
abbrev CALLER_QUEUE_STAT_PEAK (q : Nat) : Fld := ⟨CALLER_QUEUE_STAT q, 21, 16⟩
abbrev CALLER_QUEUE_STAT_SPILLED (q : Nat) : Fld := ⟨CALLER_QUEUE_STAT q, 13, 8⟩
abbrev CALLER_QUEUE_STAT_COUNT (q : Nat) : Fld := ⟨CALLER_QUEUE_STAT q, 5, 0⟩
/-- 06_caller R251. -/
abbrev CALLER_SIG (i : Nat) : Nat := 0x680000 + i * 0x4
abbrev CALLER_SIG_ENTRY (i : Nat) : Fld := ⟨CALLER_SIG i, 31, 0⟩
/-- 06_caller R251. -/
abbrev CALLER_SIG_ACT (i : Nat) : Nat := 0x6a0000 + i * 0x4
abbrev CALLER_SIG_ACT_ENTRY (i : Nat) : Fld := ⟨CALLER_SIG_ACT i, 31, 0⟩
/-- 06_caller R251. -/
abbrev CALLER_QUEUE_CFG (q : Nat) (i : Nat) : Nat := 0x6c0000 + q * 0x8 + i * 0x4
abbrev CALLER_QUEUE_CFG_WORD (q : Nat) (i : Nat) : Fld := ⟨CALLER_QUEUE_CFG q i, 31, 0⟩
/-- 06_caller R251. -/
abbrev CALLER_QUEUE_ACT (q : Nat) (i : Nat) : Nat := 0x6e0000 + q * 0x8 + i * 0x4
abbrev CALLER_QUEUE_ACT_WORD (q : Nat) (i : Nat) : Fld := ⟨CALLER_QUEUE_ACT q i, 31, 0⟩
/-- 07_lattice_rounds R287. -/
abbrev LAT_NODE : Nat := 0x700000
abbrev LAT_NODE_VALID : Fld := ⟨LAT_NODE, 31, 31⟩
abbrev LAT_NODE_NODE : Fld := ⟨LAT_NODE, 11, 0⟩
/-- 07_lattice_rounds R287. -/
abbrev LAT_CTRL : Nat := 0x700004
abbrev LAT_CTRL_BEAT_MASTER : Fld := ⟨LAT_CTRL, 31, 31⟩
abbrev LAT_CTRL_UP_PORT : Fld := ⟨LAT_CTRL, 27, 24⟩
abbrev LAT_CTRL_MIN_ROUND : Fld := ⟨LAT_CTRL, 16, 0⟩
/-- 07_lattice_rounds R287. -/
abbrev LAT_CMD : Nat := 0x700008
abbrev LAT_CMD_OP : Fld := ⟨LAT_CMD, 31, 28⟩
abbrev LAT_CMD_STEPS : Fld := ⟨LAT_CMD, 15, 0⟩
/-- 07_lattice_rounds R287. -/
abbrev LAT_STAT : Nat := 0x70000c
abbrev LAT_STAT_STATE : Fld := ⟨LAT_STAT, 31, 29⟩
abbrev LAT_STAT_TARGET_VALID : Fld := ⟨LAT_STAT, 28, 28⟩
abbrev LAT_STAT_STOP_NOW : Fld := ⟨LAT_STAT, 27, 27⟩
abbrev LAT_STAT_START_LATE : Fld := ⟨LAT_STAT, 26, 26⟩
abbrev LAT_STAT_STOP_LATE : Fld := ⟨LAT_STAT, 25, 25⟩
abbrev LAT_STAT_FIG_LOST : Fld := ⟨LAT_STAT, 24, 24⟩
abbrev LAT_STAT_BEAT_COUNT : Fld := ⟨LAT_STAT, 15, 0⟩
/-- 07_lattice_rounds R287. -/
abbrev LAT_ROUND_LO : Nat := 0x700010
abbrev LAT_ROUND_LO_ROUND_LO : Fld := ⟨LAT_ROUND_LO, 31, 0⟩
/-- 07_lattice_rounds R287. -/
abbrev LAT_ROUND_HI : Nat := 0x700014
abbrev LAT_ROUND_HI_ROUND_HI : Fld := ⟨LAT_ROUND_HI, 15, 0⟩
/-- 07_lattice_rounds R287. -/
abbrev LAT_STOP_LO : Nat := 0x700018
abbrev LAT_STOP_LO_TARGET_LO : Fld := ⟨LAT_STOP_LO, 31, 0⟩
/-- 07_lattice_rounds R287. -/
abbrev LAT_STOP_HI : Nat := 0x70001c
abbrev LAT_STOP_HI_TARGET_HI : Fld := ⟨LAT_STOP_HI, 15, 0⟩
/-- 07_lattice_rounds R287. -/
abbrev LAT_LEAD : Nat := 0x700020
abbrev LAT_LEAD_START_LEAD : Fld := ⟨LAT_LEAD, 31, 16⟩
abbrev LAT_LEAD_STOP_LEAD : Fld := ⟨LAT_LEAD, 15, 0⟩
/-- 07_lattice_rounds R287. -/
abbrev LAT_LOSS_TMO : Nat := 0x700024
abbrev LAT_LOSS_TMO_TMO : Fld := ⟨LAT_LOSS_TMO, 15, 0⟩
/-- 07_lattice_rounds R287. -/
abbrev LAT_BOW_FENCE_LO : Nat := 0x700028
abbrev LAT_BOW_FENCE_LO_SRC_LO : Fld := ⟨LAT_BOW_FENCE_LO, 31, 0⟩
/-- 07_lattice_rounds R287. -/
abbrev LAT_BOW_FENCE_HI : Nat := 0x70002c
abbrev LAT_BOW_FENCE_HI_SRC_HI : Fld := ⟨LAT_BOW_FENCE_HI, 15, 0⟩
/-- 07_lattice_rounds R287. -/
abbrev LAT_SECTOR_RST : Nat := 0x700030
abbrev LAT_SECTOR_RST_REQ : Fld := ⟨LAT_SECTOR_RST, 15, 0⟩
/-- 07_lattice_rounds R287. -/
abbrev LAT_LAST_LEN : Nat := 0x700034
abbrev LAT_LAST_LEN_LEN : Fld := ⟨LAT_LAST_LEN, 16, 0⟩
/-- 07_lattice_rounds R287. -/
abbrev LAT_MAX_LEN : Nat := 0x700038
abbrev LAT_MAX_LEN_LEN : Fld := ⟨LAT_MAX_LEN, 16, 0⟩
/-- 07_lattice_rounds R287. -/
abbrev LAT_ERR_LOG : Nat := 0x700040
abbrev LAT_ERR_LOG_VALID : Fld := ⟨LAT_ERR_LOG, 31, 31⟩
abbrev LAT_ERR_LOG_OVF : Fld := ⟨LAT_ERR_LOG, 30, 30⟩
abbrev LAT_ERR_LOG_LOCAL : Fld := ⟨LAT_ERR_LOG, 24, 24⟩
abbrev LAT_ERR_LOG_CAUSE : Fld := ⟨LAT_ERR_LOG, 23, 16⟩
abbrev LAT_ERR_LOG_PORT : Fld := ⟨LAT_ERR_LOG, 15, 12⟩
abbrev LAT_ERR_LOG_NODE : Fld := ⟨LAT_ERR_LOG, 11, 0⟩
/-- 07_lattice_rounds R287. -/
abbrev LAT_PEER (i : Nat) : Nat := 0x701000 + i * 0x8
abbrev LAT_PEER_VALID (i : Nat) : Fld := ⟨LAT_PEER i, 31, 31⟩
abbrev LAT_PEER_NODE (i : Nat) : Fld := ⟨LAT_PEER i, 11, 0⟩
/-- 07_lattice_rounds R287. -/
abbrev LAT_PEER_STAT (i : Nat) : Nat := 0x701004 + i * 0x8
abbrev LAT_PEER_STAT_LOST (i : Nat) : Fld := ⟨LAT_PEER_STAT i, 31, 31⟩
abbrev LAT_PEER_STAT_DOWN (i : Nat) : Fld := ⟨LAT_PEER_STAT i, 30, 30⟩
abbrev LAT_PEER_STAT_HOLDING (i : Nat) : Fld := ⟨LAT_PEER_STAT i, 29, 29⟩
abbrev LAT_PEER_STAT_HOLDER (i : Nat) : Fld := ⟨LAT_PEER_STAT i, 28, 28⟩
abbrev LAT_PEER_STAT_LAST_TYPE (i : Nat) : Fld := ⟨LAT_PEER_STAT i, 23, 22⟩
abbrev LAT_PEER_STAT_LAST_ROUND (i : Nat) : Fld := ⟨LAT_PEER_STAT i, 21, 16⟩
abbrev LAT_PEER_STAT_PENDING (i : Nat) : Fld := ⟨LAT_PEER_STAT i, 1, 0⟩
/-- 07_lattice_rounds R287. -/
abbrev LAT_ROUTE (n : Nat) : Nat := 0x704000 + n * 0x4
abbrev LAT_ROUTE_VALID (n : Nat) : Fld := ⟨LAT_ROUTE n, 31, 31⟩
abbrev LAT_ROUTE_PORT (n : Nat) : Fld := ⟨LAT_ROUTE n, 3, 0⟩
/-- 08_gleis_lanes R326. -/
abbrev GLS_BEAT_CFG : Nat := 0x800000
abbrev GLS_BEAT_CFG_INTERVAL : Fld := ⟨GLS_BEAT_CFG, 19, 0⟩
/-- 08_gleis_lanes R326. -/
abbrev GLS_UP : Nat := 0x800004
abbrev GLS_UP_SPARE : Fld := ⟨GLS_UP, 31, 16⟩
abbrev GLS_UP_UP : Fld := ⟨GLS_UP, 15, 0⟩
/-- 08_gleis_lanes R326. -/
abbrev GLS_CTRL (n : Nat) : Nat := 0x810000 + n * 0x1000
abbrev GLS_CTRL_EN (n : Nat) : Fld := ⟨GLS_CTRL n, 31, 31⟩
abbrev GLS_CTRL_AUTO_SPARE (n : Nat) : Fld := ⟨GLS_CTRL n, 30, 30⟩
abbrev GLS_CTRL_DATELINE (n : Nat) : Fld := ⟨GLS_CTRL n, 29, 29⟩
abbrev GLS_CTRL_RETRAIN (n : Nat) : Fld := ⟨GLS_CTRL n, 28, 28⟩
abbrev GLS_CTRL_RESTART (n : Nat) : Fld := ⟨GLS_CTRL n, 27, 27⟩
abbrev GLS_CTRL_SPARE_GO (n : Nat) : Fld := ⟨GLS_CTRL n, 26, 26⟩
abbrev GLS_CTRL_SPARE_LANE (n : Nat) : Fld := ⟨GLS_CTRL n, 3, 0⟩
/-- 08_gleis_lanes R326. -/
abbrev GLS_STAT (n : Nat) : Nat := 0x810004 + n * 0x1000
abbrev GLS_STAT_UP (n : Nat) : Fld := ⟨GLS_STAT n, 31, 31⟩
abbrev GLS_STAT_STATE (n : Nat) : Fld := ⟨GLS_STAT n, 30, 27⟩
abbrev GLS_STAT_REVERSED (n : Nat) : Fld := ⟨GLS_STAT n, 26, 26⟩
abbrev GLS_STAT_RESUMED (n : Nat) : Fld := ⟨GLS_STAT n, 25, 25⟩
abbrev GLS_STAT_RX_SPARE (n : Nat) : Fld := ⟨GLS_STAT n, 23, 20⟩
abbrev GLS_STAT_TX_SPARE (n : Nat) : Fld := ⟨GLS_STAT n, 19, 16⟩
abbrev GLS_STAT_FAIL_CAUSE (n : Nat) : Fld := ⟨GLS_STAT n, 15, 8⟩
abbrev GLS_STAT_ATTEMPTS (n : Nat) : Fld := ⟨GLS_STAT n, 7, 0⟩
/-- 08_gleis_lanes R326. -/
abbrev GLS_PEER_ID (n : Nat) : Nat := 0x810008 + n * 0x1000
abbrev GLS_PEER_ID_VALID (n : Nat) : Fld := ⟨GLS_PEER_ID n, 31, 31⟩
abbrev GLS_PEER_ID_PORT (n : Nat) : Fld := ⟨GLS_PEER_ID n, 19, 16⟩
abbrev GLS_PEER_ID_NODE (n : Nat) : Fld := ⟨GLS_PEER_ID n, 11, 0⟩
/-- 08_gleis_lanes R326. -/
abbrev GLS_LINK_CFG (n : Nat) : Nat := 0x81000c + n * 0x1000
abbrev GLS_LINK_CFG_RETRY_LIMIT (n : Nat) : Fld := ⟨GLS_LINK_CFG n, 31, 24⟩
abbrev GLS_LINK_CFG_STATUS_INT (n : Nat) : Fld := ⟨GLS_LINK_CFG n, 23, 16⟩
abbrev GLS_LINK_CFG_SKIP_INT (n : Nat) : Fld := ⟨GLS_LINK_CFG n, 15, 8⟩
abbrev GLS_LINK_CFG_REQ_TMO (n : Nat) : Fld := ⟨GLS_LINK_CFG n, 7, 0⟩
/-- 08_gleis_lanes R326. -/
abbrev GLS_DEGRADE (n : Nat) : Nat := 0x810010 + n * 0x1000
abbrev GLS_DEGRADE_THR (n : Nat) : Fld := ⟨GLS_DEGRADE n, 15, 0⟩
/-- 08_gleis_lanes R326. -/
abbrev GLS_EVT (n : Nat) : Nat := 0x810014 + n * 0x1000
abbrev GLS_EVT_EYE_DONE (n : Nat) : Fld := ⟨GLS_EVT n, 8, 8⟩
abbrev GLS_EVT_ERR (n : Nat) : Fld := ⟨GLS_EVT n, 7, 7⟩
abbrev GLS_EVT_CE (n : Nat) : Fld := ⟨GLS_EVT n, 6, 6⟩
abbrev GLS_EVT_FLUSH (n : Nat) : Fld := ⟨GLS_EVT n, 5, 5⟩
abbrev GLS_EVT_SPARE (n : Nat) : Fld := ⟨GLS_EVT n, 4, 4⟩
abbrev GLS_EVT_DEGRADE (n : Nat) : Fld := ⟨GLS_EVT n, 3, 3⟩
abbrev GLS_EVT_TRAIN_FAIL (n : Nat) : Fld := ⟨GLS_EVT n, 2, 2⟩
abbrev GLS_EVT_DOWN (n : Nat) : Fld := ⟨GLS_EVT n, 1, 1⟩
abbrev GLS_EVT_UP (n : Nat) : Fld := ⟨GLS_EVT n, 0, 0⟩
/-- 08_gleis_lanes R326. -/
abbrev GLS_SEQ (n : Nat) : Nat := 0x810018 + n * 0x1000
abbrev GLS_SEQ_TX_NEXT (n : Nat) : Fld := ⟨GLS_SEQ n, 31, 24⟩
abbrev GLS_SEQ_ACKED (n : Nat) : Fld := ⟨GLS_SEQ n, 23, 16⟩
abbrev GLS_SEQ_RX_EXPECT (n : Nat) : Fld := ⟨GLS_SEQ n, 15, 8⟩
/-- 08_gleis_lanes R326. -/
abbrev GLS_POOL (n : Nat) : Nat := 0x81001c + n * 0x1000
abbrev GLS_POOL_LOCAL (n : Nat) : Fld := ⟨GLS_POOL n, 31, 24⟩
abbrev GLS_POOL_T0 (n : Nat) : Fld := ⟨GLS_POOL n, 23, 17⟩
abbrev GLS_POOL_T1 (n : Nat) : Fld := ⟨GLS_POOL n, 16, 10⟩
abbrev GLS_POOL_UL (n : Nat) : Fld := ⟨GLS_POOL n, 9, 6⟩
abbrev GLS_POOL_UT0 (n : Nat) : Fld := ⟨GLS_POOL n, 5, 3⟩
abbrev GLS_POOL_UT1 (n : Nat) : Fld := ⟨GLS_POOL n, 2, 0⟩
/-- 08_gleis_lanes R326. -/
abbrev GLS_CNT_RETRY (n : Nat) : Nat := 0x810020 + n * 0x1000
abbrev GLS_CNT_RETRY_COUNT (n : Nat) : Fld := ⟨GLS_CNT_RETRY n, 31, 0⟩
/-- 08_gleis_lanes R326. -/
abbrev GLS_CNT_DISCARD (n : Nat) : Nat := 0x810024 + n * 0x1000
abbrev GLS_CNT_DISCARD_COUNT (n : Nat) : Fld := ⟨GLS_CNT_DISCARD n, 31, 0⟩
/-- 08_gleis_lanes R326. -/
abbrev GLS_CNT_FLUSH (n : Nat) : Nat := 0x810028 + n * 0x1000
abbrev GLS_CNT_FLUSH_COUNT (n : Nat) : Fld := ⟨GLS_CNT_FLUSH n, 31, 0⟩
/-- 08_gleis_lanes R326. -/
abbrev GLS_EYE_CTRL (n : Nat) : Nat := 0x810040 + n * 0x1000
abbrev GLS_EYE_CTRL_GO (n : Nat) : Fld := ⟨GLS_EYE_CTRL n, 31, 31⟩
abbrev GLS_EYE_CTRL_LANE (n : Nat) : Fld := ⟨GLS_EYE_CTRL n, 27, 24⟩
abbrev GLS_EYE_CTRL_DWELL (n : Nat) : Fld := ⟨GLS_EYE_CTRL n, 20, 16⟩
abbrev GLS_EYE_CTRL_VOFF (n : Nat) : Fld := ⟨GLS_EYE_CTRL n, 13, 8⟩
abbrev GLS_EYE_CTRL_PHASE (n : Nat) : Fld := ⟨GLS_EYE_CTRL n, 6, 0⟩
/-- 08_gleis_lanes R326. -/
abbrev GLS_EYE_STAT (n : Nat) : Nat := 0x810044 + n * 0x1000
abbrev GLS_EYE_STAT_BUSY (n : Nat) : Fld := ⟨GLS_EYE_STAT n, 31, 31⟩
abbrev GLS_EYE_STAT_DONE (n : Nat) : Fld := ⟨GLS_EYE_STAT n, 30, 30⟩
abbrev GLS_EYE_STAT_ABORT (n : Nat) : Fld := ⟨GLS_EYE_STAT n, 29, 29⟩
abbrev GLS_EYE_STAT_ERRS (n : Nat) : Fld := ⟨GLS_EYE_STAT n, 23, 0⟩
/-- 08_gleis_lanes R326. -/
abbrev GLS_LANE_STAT (n : Nat) (k : Nat) : Nat := 0x810100 + n * 0x1000 + k * 0x20
abbrev GLS_LANE_STAT_LOS (n : Nat) (k : Nat) : Fld := ⟨GLS_LANE_STAT n k, 31, 31⟩
abbrev GLS_LANE_STAT_CDR_LOCK (n : Nat) (k : Nat) : Fld := ⟨GLS_LANE_STAT n k, 30, 30⟩
abbrev GLS_LANE_STAT_ALIGNED (n : Nat) (k : Nat) : Fld := ⟨GLS_LANE_STAT n k, 29, 29⟩
abbrev GLS_LANE_STAT_POL_INV (n : Nat) (k : Nat) : Fld := ⟨GLS_LANE_STAT n k, 28, 28⟩
abbrev GLS_LANE_STAT_FIT (n : Nat) (k : Nat) : Fld := ⟨GLS_LANE_STAT n k, 27, 27⟩
abbrev GLS_LANE_STAT_ROLE (n : Nat) (k : Nat) : Fld := ⟨GLS_LANE_STAT n k, 26, 24⟩
abbrev GLS_LANE_STAT_CARRY (n : Nat) (k : Nat) : Fld := ⟨GLS_LANE_STAT n k, 23, 20⟩
abbrev GLS_LANE_STAT_CTLE (n : Nat) (k : Nat) : Fld := ⟨GLS_LANE_STAT n k, 19, 16⟩
abbrev GLS_LANE_STAT_SKEW (n : Nat) (k : Nat) : Fld := ⟨GLS_LANE_STAT n k, 3, 0⟩
/-- 08_gleis_lanes R326. -/
abbrev GLS_LANE_CTRL (n : Nat) (k : Nat) : Nat := 0x810104 + n * 0x1000 + k * 0x20
abbrev GLS_LANE_CTRL_RECAL (n : Nat) (k : Nat) : Fld := ⟨GLS_LANE_CTRL n k, 31, 31⟩
abbrev GLS_LANE_CTRL_DFE_FREEZE (n : Nat) (k : Nat) : Fld := ⟨GLS_LANE_CTRL n k, 30, 30⟩
abbrev GLS_LANE_CTRL_CTLE_OVR (n : Nat) (k : Nat) : Fld := ⟨GLS_LANE_CTRL n k, 29, 29⟩
abbrev GLS_LANE_CTRL_TX_POL_INV (n : Nat) (k : Nat) : Fld := ⟨GLS_LANE_CTRL n k, 28, 28⟩
abbrev GLS_LANE_CTRL_CTLE_VAL (n : Nat) (k : Nat) : Fld := ⟨GLS_LANE_CTRL n k, 27, 24⟩
abbrev GLS_LANE_CTRL_TX_SWING (n : Nat) (k : Nat) : Fld := ⟨GLS_LANE_CTRL n k, 13, 10⟩
abbrev GLS_LANE_CTRL_TX_POST (n : Nat) (k : Nat) : Fld := ⟨GLS_LANE_CTRL n k, 9, 5⟩
abbrev GLS_LANE_CTRL_TX_PRE (n : Nat) (k : Nat) : Fld := ⟨GLS_LANE_CTRL n k, 4, 0⟩
/-- 08_gleis_lanes R326. -/
abbrev GLS_LANE_DFE (n : Nat) (k : Nat) (j : Nat) : Nat := 0x810108 + n * 0x1000 + k * 0x20 + j * 0x4
abbrev GLS_LANE_DFE_TAP3 (n : Nat) (k : Nat) (j : Nat) : Fld := ⟨GLS_LANE_DFE n k j, 31, 24⟩
abbrev GLS_LANE_DFE_TAP2 (n : Nat) (k : Nat) (j : Nat) : Fld := ⟨GLS_LANE_DFE n k j, 23, 16⟩
abbrev GLS_LANE_DFE_TAP1 (n : Nat) (k : Nat) (j : Nat) : Fld := ⟨GLS_LANE_DFE n k j, 15, 8⟩
abbrev GLS_LANE_DFE_TAP0 (n : Nat) (k : Nat) (j : Nat) : Fld := ⟨GLS_LANE_DFE n k j, 7, 0⟩
/-- 08_gleis_lanes R326. -/
abbrev GLS_LANE_ERR (n : Nat) (k : Nat) : Nat := 0x810114 + n * 0x1000 + k * 0x20
abbrev GLS_LANE_ERR_CODE (n : Nat) (k : Nat) : Fld := ⟨GLS_LANE_ERR n k, 31, 16⟩
abbrev GLS_LANE_ERR_DISP (n : Nat) (k : Nat) : Fld := ⟨GLS_LANE_ERR n k, 15, 0⟩
/-- 09_tail_spool_reelin R363. -/
abbrev TAIL_CTRL : Nat := 0x900000
abbrev TAIL_CTRL_EN : Fld := ⟨TAIL_CTRL, 31, 31⟩
abbrev TAIL_CTRL_RETAIN : Fld := ⟨TAIL_CTRL, 30, 30⟩
abbrev TAIL_CTRL_WALK_DIV : Fld := ⟨TAIL_CTRL, 15, 12⟩
abbrev TAIL_CTRL_DRAIN_DIV : Fld := ⟨TAIL_CTRL, 7, 0⟩
/-- 09_tail_spool_reelin R363. -/
abbrev TAIL_SPOOL_BASE : Nat := 0x900004
abbrev TAIL_SPOOL_BASE_BASE : Fld := ⟨TAIL_SPOOL_BASE, 23, 0⟩
/-- 09_tail_spool_reelin R363. -/
abbrev TAIL_SPOOL_SLOTS : Nat := 0x900008
abbrev TAIL_SPOOL_SLOTS_NSLOTS : Fld := ⟨TAIL_SPOOL_SLOTS, 8, 0⟩
/-- 09_tail_spool_reelin R363. -/
abbrev TAIL_CAP_CTRL : Nat := 0x900010
abbrev TAIL_CAP_CTRL_GO : Fld := ⟨TAIL_CAP_CTRL, 31, 31⟩
abbrev TAIL_CAP_CTRL_MODE : Fld := ⟨TAIL_CAP_CTRL, 30, 29⟩
/-- 09_tail_spool_reelin R363. -/
abbrev TAIL_CAP_ROUND_LO : Nat := 0x900014
abbrev TAIL_CAP_ROUND_LO_ROUND_LO : Fld := ⟨TAIL_CAP_ROUND_LO, 31, 0⟩
/-- 09_tail_spool_reelin R363. -/
abbrev TAIL_CAP_ROUND_HI : Nat := 0x900018
abbrev TAIL_CAP_ROUND_HI_ROUND_HI : Fld := ⟨TAIL_CAP_ROUND_HI, 15, 0⟩
/-- 09_tail_spool_reelin R363. -/
abbrev TAIL_CAP_PERIOD : Nat := 0x90001c
abbrev TAIL_CAP_PERIOD_PERIOD : Fld := ⟨TAIL_CAP_PERIOD, 31, 0⟩
/-- 09_tail_spool_reelin R363. -/
abbrev TAIL_CAP_STAT : Nat := 0x900020
abbrev TAIL_CAP_STAT_BUSY : Fld := ⟨TAIL_CAP_STAT, 31, 31⟩
abbrev TAIL_CAP_STAT_PENDING : Fld := ⟨TAIL_CAP_STAT, 30, 30⟩
abbrev TAIL_CAP_STAT_REFUSED : Fld := ⟨TAIL_CAP_STAT, 29, 29⟩
abbrev TAIL_CAP_STAT_BUILD : Fld := ⟨TAIL_CAP_STAT, 28, 28⟩
abbrev TAIL_CAP_STAT_CAUSE : Fld := ⟨TAIL_CAP_STAT, 23, 16⟩
abbrev TAIL_CAP_STAT_LAST_SLOT : Fld := ⟨TAIL_CAP_STAT, 15, 8⟩
abbrev TAIL_CAP_STAT_SLOT : Fld := ⟨TAIL_CAP_STAT, 7, 0⟩
/-- 09_tail_spool_reelin R363. -/
abbrev TAIL_REEL_CTRL : Nat := 0x900040
abbrev TAIL_REEL_CTRL_GO : Fld := ⟨TAIL_REEL_CTRL, 31, 31⟩
abbrev TAIL_REEL_CTRL_ABORT : Fld := ⟨TAIL_REEL_CTRL, 30, 30⟩
abbrev TAIL_REEL_CTRL_SLOT : Fld := ⟨TAIL_REEL_CTRL, 7, 0⟩
/-- 09_tail_spool_reelin R363. -/
abbrev TAIL_REEL_STAT : Nat := 0x900044
abbrev TAIL_REEL_STAT_STATE : Fld := ⟨TAIL_REEL_STAT, 31, 29⟩
abbrev TAIL_REEL_STAT_CAUSE : Fld := ⟨TAIL_REEL_STAT, 23, 16⟩
abbrev TAIL_REEL_STAT_LATE_POISON : Fld := ⟨TAIL_REEL_STAT, 15, 0⟩
/-- 09_tail_spool_reelin R363. -/
abbrev TAIL_ERR_LOG : Nat := 0x900050
abbrev TAIL_ERR_LOG_VALID : Fld := ⟨TAIL_ERR_LOG, 31, 31⟩
abbrev TAIL_ERR_LOG_OVF : Fld := ⟨TAIL_ERR_LOG, 30, 30⟩
abbrev TAIL_ERR_LOG_KIND : Fld := ⟨TAIL_ERR_LOG, 29, 28⟩
abbrev TAIL_ERR_LOG_ADDR_HI : Fld := ⟨TAIL_ERR_LOG, 15, 0⟩
/-- 09_tail_spool_reelin R363. -/
abbrev TAIL_ERR_ADDR : Nat := 0x900054
abbrev TAIL_ERR_ADDR_ADDR_LO : Fld := ⟨TAIL_ERR_ADDR, 31, 0⟩
/-- 09_tail_spool_reelin R363. -/
abbrev TAIL_EXP_CTRL : Nat := 0x900060
abbrev TAIL_EXP_CTRL_GO : Fld := ⟨TAIL_EXP_CTRL, 31, 31⟩
abbrev TAIL_EXP_CTRL_DIR : Fld := ⟨TAIL_EXP_CTRL, 30, 30⟩
abbrev TAIL_EXP_CTRL_ABORT : Fld := ⟨TAIL_EXP_CTRL, 29, 29⟩
abbrev TAIL_EXP_CTRL_KEY_SLOT : Fld := ⟨TAIL_EXP_CTRL, 15, 8⟩
abbrev TAIL_EXP_CTRL_SLOT : Fld := ⟨TAIL_EXP_CTRL, 7, 0⟩
/-- 09_tail_spool_reelin R363. -/
abbrev TAIL_EXP_ADDR : Nat := 0x900064
abbrev TAIL_EXP_ADDR_ADDR4K : Fld := ⟨TAIL_EXP_ADDR, 31, 0⟩
/-- 09_tail_spool_reelin R363. -/
abbrev TAIL_EXP_STAT : Nat := 0x900068
abbrev TAIL_EXP_STAT_BUSY : Fld := ⟨TAIL_EXP_STAT, 31, 31⟩
abbrev TAIL_EXP_STAT_DONE : Fld := ⟨TAIL_EXP_STAT, 30, 30⟩
abbrev TAIL_EXP_STAT_FAIL : Fld := ⟨TAIL_EXP_STAT, 29, 29⟩
abbrev TAIL_EXP_STAT_SLOT : Fld := ⟨TAIL_EXP_STAT, 15, 8⟩
abbrev TAIL_EXP_STAT_CAUSE : Fld := ⟨TAIL_EXP_STAT, 7, 0⟩
/-- 09_tail_spool_reelin R363. -/
abbrev TAIL_CAT_STAT (i : Nat) : Nat := 0x910000 + i * 0x10
abbrev TAIL_CAT_STAT_STATE (i : Nat) : Fld := ⟨TAIL_CAT_STAT i, 31, 29⟩
abbrev TAIL_CAT_STAT_PIN (i : Nat) : Fld := ⟨TAIL_CAT_STAT i, 28, 28⟩
abbrev TAIL_CAT_STAT_DISCARD (i : Nat) : Fld := ⟨TAIL_CAT_STAT i, 27, 27⟩
abbrev TAIL_CAT_STAT_IN_USE (i : Nat) : Fld := ⟨TAIL_CAT_STAT i, 26, 26⟩
abbrev TAIL_CAT_STAT_FROZEN (i : Nat) : Fld := ⟨TAIL_CAT_STAT i, 25, 25⟩
abbrev TAIL_CAT_STAT_MAP (i : Nat) : Fld := ⟨TAIL_CAT_STAT i, 24, 22⟩
/-- 09_tail_spool_reelin R363. -/
abbrev TAIL_CAT_ROUND_LO (i : Nat) : Nat := 0x910004 + i * 0x10
abbrev TAIL_CAT_ROUND_LO_ROUND_LO (i : Nat) : Fld := ⟨TAIL_CAT_ROUND_LO i, 31, 0⟩
/-- 09_tail_spool_reelin R363. -/
abbrev TAIL_CAT_ROUND_HI (i : Nat) : Nat := 0x910008 + i * 0x10
abbrev TAIL_CAT_ROUND_HI_ROUND_HI (i : Nat) : Fld := ⟨TAIL_CAT_ROUND_HI i, 15, 0⟩
/-- 09_tail_spool_reelin R363. -/
abbrev TAIL_CAT_SEQ (i : Nat) : Nat := 0x91000c + i * 0x10
abbrev TAIL_CAT_SEQ_SEQ (i : Nat) : Fld := ⟨TAIL_CAT_SEQ i, 31, 0⟩
/-- 09_tail_spool_reelin R363. -/
abbrev TAIL_TRG_CFG (u : Nat) : Nat := 0x920000 + u * 0x40
abbrev TAIL_TRG_CFG_EN (u : Nat) : Fld := ⟨TAIL_TRG_CFG u, 31, 31⟩
abbrev TAIL_TRG_CFG_REARM (u : Nat) : Fld := ⟨TAIL_TRG_CFG u, 30, 30⟩
abbrev TAIL_TRG_CFG_AUTO (u : Nat) : Fld := ⟨TAIL_TRG_CFG u, 29, 29⟩
abbrev TAIL_TRG_CFG_OP (u : Nat) : Fld := ⟨TAIL_TRG_CFG u, 28, 27⟩
abbrev TAIL_TRG_CFG_SAMPLE (u : Nat) : Fld := ⟨TAIL_TRG_CFG u, 26, 26⟩
abbrev TAIL_TRG_CFG_WIN (u : Nat) : Fld := ⟨TAIL_TRG_CFG u, 25, 24⟩
abbrev TAIL_TRG_CFG_ARM_SRC (u : Nat) : Fld := ⟨TAIL_TRG_CFG u, 23, 22⟩
abbrev TAIL_TRG_CFG_ARM_UNIT (u : Nat) : Fld := ⟨TAIL_TRG_CFG u, 21, 16⟩
abbrev TAIL_TRG_CFG_COUNT (u : Nat) : Fld := ⟨TAIL_TRG_CFG u, 15, 8⟩
abbrev TAIL_TRG_CFG_ACT_IRQ (u : Nat) : Fld := ⟨TAIL_TRG_CFG u, 7, 7⟩
abbrev TAIL_TRG_CFG_ACT_CAPTURE (u : Nat) : Fld := ⟨TAIL_TRG_CFG u, 6, 6⟩
abbrev TAIL_TRG_CFG_ACT_STOP (u : Nat) : Fld := ⟨TAIL_TRG_CFG u, 5, 5⟩
abbrev TAIL_TRG_CFG_ACT_PIN (u : Nat) : Fld := ⟨TAIL_TRG_CFG u, 4, 4⟩
abbrev TAIL_TRG_CFG_ACT_RING (u : Nat) : Fld := ⟨TAIL_TRG_CFG u, 3, 3⟩
abbrev TAIL_TRG_CFG_RING (u : Nat) : Fld := ⟨TAIL_TRG_CFG u, 2, 0⟩
/-- 09_tail_spool_reelin R363. -/
abbrev TAIL_TRG_SEL (u : Nat) : Nat := 0x920004 + u * 0x40
abbrev TAIL_TRG_SEL_TYPE (u : Nat) : Fld := ⟨TAIL_TRG_SEL u, 31, 29⟩
abbrev TAIL_TRG_SEL_INDEX (u : Nat) : Fld := ⟨TAIL_TRG_SEL u, 12, 0⟩
/-- 09_tail_spool_reelin R363. -/
abbrev TAIL_TRG_MASK_LO (u : Nat) : Nat := 0x920008 + u * 0x40
abbrev TAIL_TRG_MASK_LO_MASK_LO (u : Nat) : Fld := ⟨TAIL_TRG_MASK_LO u, 31, 0⟩
/-- 09_tail_spool_reelin R363. -/
abbrev TAIL_TRG_MASK_HI (u : Nat) : Nat := 0x92000c + u * 0x40
abbrev TAIL_TRG_MASK_HI_MASK_HI (u : Nat) : Fld := ⟨TAIL_TRG_MASK_HI u, 31, 0⟩
/-- 09_tail_spool_reelin R363. -/
abbrev TAIL_TRG_VAL_LO (u : Nat) : Nat := 0x920010 + u * 0x40
abbrev TAIL_TRG_VAL_LO_VALUE_LO (u : Nat) : Fld := ⟨TAIL_TRG_VAL_LO u, 31, 0⟩
/-- 09_tail_spool_reelin R363. -/
abbrev TAIL_TRG_VAL_HI (u : Nat) : Nat := 0x920014 + u * 0x40
abbrev TAIL_TRG_VAL_HI_VALUE_HI (u : Nat) : Fld := ⟨TAIL_TRG_VAL_HI u, 31, 0⟩
/-- 09_tail_spool_reelin R363. -/
abbrev TAIL_TRG_WIN_START_LO (u : Nat) : Nat := 0x920018 + u * 0x40
abbrev TAIL_TRG_WIN_START_LO_START_LO (u : Nat) : Fld := ⟨TAIL_TRG_WIN_START_LO u, 31, 0⟩
/-- 09_tail_spool_reelin R363. -/
abbrev TAIL_TRG_WIN_END_LO (u : Nat) : Nat := 0x92001c + u * 0x40
abbrev TAIL_TRG_WIN_END_LO_END_LO (u : Nat) : Fld := ⟨TAIL_TRG_WIN_END_LO u, 31, 0⟩
/-- 09_tail_spool_reelin R363. -/
abbrev TAIL_TRG_WIN_HI (u : Nat) : Nat := 0x920020 + u * 0x40
abbrev TAIL_TRG_WIN_HI_END_HI (u : Nat) : Fld := ⟨TAIL_TRG_WIN_HI u, 31, 16⟩
abbrev TAIL_TRG_WIN_HI_START_HI (u : Nat) : Fld := ⟨TAIL_TRG_WIN_HI u, 15, 0⟩
/-- 09_tail_spool_reelin R363. -/
abbrev TAIL_TRG_STAT (u : Nat) : Nat := 0x920024 + u * 0x40
abbrev TAIL_TRG_STAT_FIRED (u : Nat) : Fld := ⟨TAIL_TRG_STAT u, 31, 31⟩
abbrev TAIL_TRG_STAT_ARMED (u : Nat) : Fld := ⟨TAIL_TRG_STAT u, 30, 30⟩
abbrev TAIL_TRG_STAT_HITS (u : Nat) : Fld := ⟨TAIL_TRG_STAT u, 15, 0⟩
/-- 09_tail_spool_reelin R363. -/
abbrev TAIL_RING_CFG (k : Nat) : Nat := 0x930000 + k * 0x20
abbrev TAIL_RING_CFG_EN (k : Nat) : Fld := ⟨TAIL_RING_CFG k, 31, 31⟩
abbrev TAIL_RING_CFG_MODE (k : Nat) : Fld := ⟨TAIL_RING_CFG k, 30, 30⟩
abbrev TAIL_RING_CFG_RING_POL (k : Nat) : Fld := ⟨TAIL_RING_CFG k, 29, 29⟩
abbrev TAIL_RING_CFG_SAMPLE (k : Nat) : Fld := ⟨TAIL_RING_CFG k, 28, 27⟩
abbrev TAIL_RING_CFG_STOPPED (k : Nat) : Fld := ⟨TAIL_RING_CFG k, 26, 26⟩
abbrev TAIL_RING_CFG_POST (k : Nat) : Fld := ⟨TAIL_RING_CFG k, 25, 16⟩
abbrev TAIL_RING_CFG_SIZE (k : Nat) : Fld := ⟨TAIL_RING_CFG k, 4, 0⟩
/-- 09_tail_spool_reelin R363. -/
abbrev TAIL_RING_SEL (k : Nat) : Nat := 0x930004 + k * 0x20
abbrev TAIL_RING_SEL_TYPE (k : Nat) : Fld := ⟨TAIL_RING_SEL k, 31, 29⟩
abbrev TAIL_RING_SEL_INDEX (k : Nat) : Fld := ⟨TAIL_RING_SEL k, 12, 0⟩
/-- 09_tail_spool_reelin R363. -/
abbrev TAIL_RING_BASE_LO (k : Nat) : Nat := 0x930008 + k * 0x20
abbrev TAIL_RING_BASE_LO_BASE_LO (k : Nat) : Fld := ⟨TAIL_RING_BASE_LO k, 31, 12⟩
/-- 09_tail_spool_reelin R363. -/
abbrev TAIL_RING_BASE_HI (k : Nat) : Nat := 0x93000c + k * 0x20
abbrev TAIL_RING_BASE_HI_BASE_HI (k : Nat) : Fld := ⟨TAIL_RING_BASE_HI k, 15, 0⟩
/-- 09_tail_spool_reelin R363. -/
abbrev TAIL_RING_WR (k : Nat) : Nat := 0x930010 + k * 0x20
abbrev TAIL_RING_WR_INDEX (k : Nat) : Fld := ⟨TAIL_RING_WR k, 31, 0⟩
/-- 09_tail_spool_reelin R363. -/
abbrev TAIL_RING_RD (k : Nat) : Nat := 0x930014 + k * 0x20
abbrev TAIL_RING_RD_INDEX (k : Nat) : Fld := ⟨TAIL_RING_RD k, 31, 0⟩
/-- 09_tail_spool_reelin R363. -/
abbrev TAIL_RING_LOST (k : Nat) : Nat := 0x930018 + k * 0x20
abbrev TAIL_RING_LOST_COUNT (k : Nat) : Fld := ⟨TAIL_RING_LOST k, 31, 0⟩
/-- 10_mesh R392. -/
abbrev MESH_CTRL : Nat := 0x500000
abbrev MESH_CTRL_W2 : Fld := ⟨MESH_CTRL, 7, 4⟩
abbrev MESH_CTRL_W0 : Fld := ⟨MESH_CTRL, 3, 0⟩
/-- 10_mesh R392. -/
abbrev MESH_INI_TMO : Nat := 0x500004
abbrev MESH_INI_TMO_TMO : Fld := ⟨MESH_INI_TMO, 27, 0⟩
/-- 10_mesh R392. -/
abbrev MESH_MON_CTRL : Nat := 0x500008
abbrev MESH_MON_CTRL_CLR_HIST : Fld := ⟨MESH_MON_CTRL, 31, 31⟩
abbrev MESH_MON_CTRL_WIN : Fld := ⟨MESH_MON_CTRL, 4, 0⟩
/-- 10_mesh R392. -/
abbrev MESH_ERR_LOG : Nat := 0x500010
abbrev MESH_ERR_LOG_VALID : Fld := ⟨MESH_ERR_LOG, 31, 31⟩
abbrev MESH_ERR_LOG_OVF : Fld := ⟨MESH_ERR_LOG, 30, 30⟩
abbrev MESH_ERR_LOG_KIND : Fld := ⟨MESH_ERR_LOG, 29, 27⟩
abbrev MESH_ERR_LOG_ROUTER : Fld := ⟨MESH_ERR_LOG, 26, 22⟩
abbrev MESH_ERR_LOG_INPUT : Fld := ⟨MESH_ERR_LOG, 21, 19⟩
abbrev MESH_ERR_LOG_SRC : Fld := ⟨MESH_ERR_LOG, 17, 12⟩
abbrev MESH_ERR_LOG_TAG : Fld := ⟨MESH_ERR_LOG, 11, 6⟩
/-- 10_mesh R392. -/
abbrev MESH_TGT_CFG (t : Nat) : Nat := 0x501000 + t * 0x10
abbrev MESH_TGT_CFG_EXEMPT (t : Nat) : Fld := ⟨MESH_TGT_CFG t, 31, 31⟩
abbrev MESH_TGT_CFG_PRESENT (t : Nat) : Fld := ⟨MESH_TGT_CFG t, 30, 30⟩
abbrev MESH_TGT_CFG_TMO (t : Nat) : Fld := ⟨MESH_TGT_CFG t, 23, 0⟩
/-- 10_mesh R392. -/
abbrev MESH_TGT_STAT (t : Nat) : Nat := 0x501004 + t * 0x10
abbrev MESH_TGT_STAT_RESUME (t : Nat) : Fld := ⟨MESH_TGT_STAT t, 31, 31⟩
abbrev MESH_TGT_STAT_STATE (t : Nat) : Fld := ⟨MESH_TGT_STAT t, 30, 30⟩
abbrev MESH_TGT_STAT_STALE (t : Nat) : Fld := ⟨MESH_TGT_STAT t, 27, 16⟩
abbrev MESH_TGT_STAT_ABSORBED (t : Nat) : Fld := ⟨MESH_TGT_STAT t, 15, 0⟩
/-- 10_mesh R392. -/
abbrev MESH_INI_STAT (s : Nat) : Nat := 0x502000 + s * 0x40
abbrev MESH_INI_STAT_PEAK (s : Nat) : Fld := ⟨MESH_INI_STAT s, 22, 16⟩
abbrev MESH_INI_STAT_QUAR (s : Nat) : Fld := ⟨MESH_INI_STAT s, 14, 8⟩
abbrev MESH_INI_STAT_OUT (s : Nat) : Fld := ⟨MESH_INI_STAT s, 6, 0⟩
/-- 10_mesh R392. -/
abbrev MESH_INI_RDB (s : Nat) : Nat := 0x502004 + s * 0x40
abbrev MESH_INI_RDB_COUNT (s : Nat) : Fld := ⟨MESH_INI_RDB s, 31, 0⟩
/-- 10_mesh R392. -/
abbrev MESH_INI_WRB (s : Nat) : Nat := 0x502008 + s * 0x40
abbrev MESH_INI_WRB_COUNT (s : Nat) : Fld := ⟨MESH_INI_WRB s, 31, 0⟩
/-- 10_mesh R392. -/
abbrev MESH_INI_HIST (s : Nat) (i : Nat) : Nat := 0x504000 + s * 0x40 + i * 0x4
abbrev MESH_INI_HIST_COUNT (s : Nat) (i : Nat) : Fld := ⟨MESH_INI_HIST s i, 31, 0⟩
/-- 11_memory_integrity R429. -/
abbrev MEM_CTRL : Nat := 0x400000
abbrev MEM_CTRL_INIT : Fld := ⟨MEM_CTRL, 31, 31⟩
abbrev MEM_CTRL_REKEY : Fld := ⟨MEM_CTRL, 30, 30⟩
abbrev MEM_CTRL_SWEEP_DIV : Fld := ⟨MEM_CTRL, 15, 8⟩
/-- 11_memory_integrity R429. -/
abbrev MEM_STAT : Nat := 0x400004
abbrev MEM_STAT_KEYS : Fld := ⟨MEM_STAT, 31, 30⟩
abbrev MEM_STAT_INIT_BUSY : Fld := ⟨MEM_STAT, 29, 29⟩
abbrev MEM_STAT_REFUSED : Fld := ⟨MEM_STAT, 28, 28⟩
/-- 11_memory_integrity R429. -/
abbrev MEM_REKEY_PTR (k : Nat) : Nat := 0x400010 + k * 0x4
abbrev MEM_REKEY_PTR_PTR (k : Nat) : Fld := ⟨MEM_REKEY_PTR k, 28, 0⟩
/-- 11_memory_integrity R429. -/
abbrev MEM_STACK_CFG (k : Nat) : Nat := 0x400100 + k * 0x10
abbrev MEM_STACK_CFG_ALERT_C (k : Nat) : Fld := ⟨MEM_STACK_CFG k, 31, 24⟩
abbrev MEM_STACK_CFG_HOT_C (k : Nat) : Fld := ⟨MEM_STACK_CFG k, 23, 16⟩
abbrev MEM_STACK_CFG_AGE_MAX (k : Nat) : Fld := ⟨MEM_STACK_CFG k, 15, 0⟩
/-- 11_memory_integrity R429. -/
abbrev MEM_STACK_STAT (k : Nat) : Nat := 0x400104 + k * 0x10
abbrev MEM_STACK_STAT_STATE (k : Nat) : Fld := ⟨MEM_STACK_STAT k, 31, 29⟩
abbrev MEM_STACK_STAT_HOT (k : Nat) : Fld := ⟨MEM_STACK_STAT k, 28, 28⟩
abbrev MEM_STACK_STAT_QUEUE (k : Nat) : Fld := ⟨MEM_STACK_STAT k, 24, 16⟩
abbrev MEM_STACK_STAT_TEMP (k : Nat) : Fld := ⟨MEM_STACK_STAT k, 7, 0⟩
/-- 11_memory_integrity R429. -/
abbrev MEM_STACK_CNT (k : Nat) : Nat := 0x400108 + k * 0x10
abbrev MEM_STACK_CNT_CE (k : Nat) : Fld := ⟨MEM_STACK_CNT k, 31, 16⟩
abbrev MEM_STACK_CNT_UE (k : Nat) : Fld := ⟨MEM_STACK_CNT k, 15, 0⟩
/-- 11_memory_integrity R429. -/
abbrev MEM_UE_LOG : Nat := 0x400200
abbrev MEM_UE_LOG_VALID : Fld := ⟨MEM_UE_LOG, 31, 31⟩
abbrev MEM_UE_LOG_OVF : Fld := ⟨MEM_UE_LOG, 30, 30⟩
abbrev MEM_UE_LOG_KIND : Fld := ⟨MEM_UE_LOG, 29, 28⟩
abbrev MEM_UE_LOG_ADDR_HI : Fld := ⟨MEM_UE_LOG, 15, 0⟩
/-- 11_memory_integrity R429. -/
abbrev MEM_UE_ADDR : Nat := 0x400204
abbrev MEM_UE_ADDR_ADDR_LO : Fld := ⟨MEM_UE_ADDR, 31, 6⟩
/-- 11_memory_integrity R429. -/
abbrev MEM_TAG_LOG : Nat := 0x400210
abbrev MEM_TAG_LOG_VALID : Fld := ⟨MEM_TAG_LOG, 31, 31⟩
abbrev MEM_TAG_LOG_OVF : Fld := ⟨MEM_TAG_LOG, 30, 30⟩
abbrev MEM_TAG_LOG_WRITE : Fld := ⟨MEM_TAG_LOG, 29, 29⟩
abbrev MEM_TAG_LOG_SRC : Fld := ⟨MEM_TAG_LOG, 21, 16⟩
abbrev MEM_TAG_LOG_ADDR_HI : Fld := ⟨MEM_TAG_LOG, 15, 0⟩
/-- 11_memory_integrity R429. -/
abbrev MEM_TAG_ADDR : Nat := 0x400214
abbrev MEM_TAG_ADDR_ADDR_LO : Fld := ⟨MEM_TAG_ADDR, 31, 6⟩
/-- 11_memory_integrity R429. -/
abbrev INT_LOG_POP : Nat := 0x300000
abbrev INT_LOG_POP_VALID : Fld := ⟨INT_LOG_POP, 31, 31⟩
abbrev INT_LOG_POP_LEVEL : Fld := ⟨INT_LOG_POP, 30, 29⟩
abbrev INT_LOG_POP_CAUSE : Fld := ⟨INT_LOG_POP, 28, 28⟩
abbrev INT_LOG_POP_NODE : Fld := ⟨INT_LOG_POP, 9, 0⟩
/-- 11_memory_integrity R429. -/
abbrev INT_LOG_STAMP_LO : Nat := 0x300004
abbrev INT_LOG_STAMP_LO_STAMP_LO : Fld := ⟨INT_LOG_STAMP_LO, 31, 0⟩
/-- 11_memory_integrity R429. -/
abbrev INT_LOG_STAMP_HI : Nat := 0x300008
abbrev INT_LOG_STAMP_HI_STAMP_HI : Fld := ⟨INT_LOG_STAMP_HI, 15, 0⟩
/-- 11_memory_integrity R429. -/
abbrev INT_LOG_LOST : Nat := 0x30000c
abbrev INT_LOG_LOST_COUNT : Fld := ⟨INT_LOG_LOST, 31, 0⟩
/-- 11_memory_integrity R429. -/
abbrev INT_BKT_CFG (b : Nat) : Nat := 0x300100 + b * 0x10
abbrev INT_BKT_CFG_EN (b : Nat) : Fld := ⟨INT_BKT_CFG b, 31, 31⟩
abbrev INT_BKT_CFG_LEAK_EXP (b : Nat) : Fld := ⟨INT_BKT_CFG b, 20, 16⟩
abbrev INT_BKT_CFG_THR (b : Nat) : Fld := ⟨INT_BKT_CFG b, 15, 0⟩
/-- 11_memory_integrity R429. -/
abbrev INT_BKT_STAT (b : Nat) : Nat := 0x300104 + b * 0x10
abbrev INT_BKT_STAT_FAULT (b : Nat) : Fld := ⟨INT_BKT_STAT b, 31, 31⟩
abbrev INT_BKT_STAT_OVF_CNT (b : Nat) : Fld := ⟨INT_BKT_STAT b, 23, 16⟩
abbrev INT_BKT_STAT_COUNT (b : Nat) : Fld := ⟨INT_BKT_STAT b, 15, 0⟩
/-- 11_memory_integrity R429. -/
abbrev INT_LEAF_CFG (l : Nat) : Nat := 0x301000 + l * 0x10
abbrev INT_LEAF_CFG_EN (l : Nat) : Fld := ⟨INT_LEAF_CFG l, 31, 31⟩
abbrev INT_LEAF_CFG_LEAK_EXP (l : Nat) : Fld := ⟨INT_LEAF_CFG l, 28, 24⟩
abbrev INT_LEAF_CFG_W_UE (l : Nat) : Fld := ⟨INT_LEAF_CFG l, 23, 16⟩
abbrev INT_LEAF_CFG_THR (l : Nat) : Fld := ⟨INT_LEAF_CFG l, 15, 0⟩
/-- 11_memory_integrity R429. -/
abbrev INT_LEAF_STAT (l : Nat) : Nat := 0x301004 + l * 0x10
abbrev INT_LEAF_STAT_FAULT (l : Nat) : Fld := ⟨INT_LEAF_STAT l, 31, 31⟩
abbrev INT_LEAF_STAT_OVF_CNT (l : Nat) : Fld := ⟨INT_LEAF_STAT l, 23, 16⟩
abbrev INT_LEAF_STAT_COUNT (l : Nat) : Fld := ⟨INT_LEAF_STAT l, 15, 0⟩
/-- 11_memory_integrity R429. -/
abbrev INT_LEAF_LAST (l : Nat) : Nat := 0x301008 + l * 0x10
abbrev INT_LEAF_LAST_VALID (l : Nat) : Fld := ⟨INT_LEAF_LAST l, 31, 31⟩
abbrev INT_LEAF_LAST_UE (l : Nat) : Fld := ⟨INT_LEAF_LAST l, 30, 30⟩
abbrev INT_LEAF_LAST_INDEX (l : Nat) : Fld := ⟨INT_LEAF_LAST l, 19, 0⟩
/-- 12_station_cores R470. -/
abbrev ST_CTRL (c : Nat) : Nat := 0x1000000 + c * 0x10000
abbrev ST_CTRL_RESET (c : Nat) : Fld := ⟨ST_CTRL c, 31, 31⟩
abbrev ST_CTRL_HOLD_ON_RESET (c : Nat) : Fld := ⟨ST_CTRL c, 30, 30⟩
abbrev ST_CTRL_BOOT (c : Nat) : Fld := ⟨ST_CTRL c, 29, 29⟩
abbrev ST_CTRL_SELF_RESET (c : Nat) : Fld := ⟨ST_CTRL c, 28, 28⟩
/-- 12_station_cores R470. -/
abbrev ST_STAT (c : Nat) : Nat := 0x1000004 + c * 0x10000
abbrev ST_STAT_STATE (c : Nat) : Fld := ⟨ST_STAT c, 31, 29⟩
abbrev ST_STAT_PCR (c : Nat) : Fld := ⟨ST_STAT c, 16, 16⟩
abbrev ST_STAT_PC (c : Nat) : Fld := ⟨ST_STAT c, 15, 0⟩
/-- 12_station_cores R470. -/
abbrev ST_RESET_CAUSE (c : Nat) : Nat := 0x1000008 + c * 0x10000
abbrev ST_RESET_CAUSE_CAUSE (c : Nat) : Fld := ⟨ST_RESET_CAUSE c, 26, 24⟩
abbrev ST_RESET_CAUSE_COUNT (c : Nat) : Fld := ⟨ST_RESET_CAUSE c, 15, 0⟩
/-- 12_station_cores R470. -/
abbrev ST_MEM_ADDR (c : Nat) : Nat := 0x1000010 + c * 0x10000
abbrev ST_MEM_ADDR_AUTO_INC (c : Nat) : Fld := ⟨ST_MEM_ADDR c, 31, 31⟩
abbrev ST_MEM_ADDR_ADDR (c : Nat) : Fld := ⟨ST_MEM_ADDR c, 15, 0⟩
/-- 12_station_cores R470. -/
abbrev ST_MEM_DATA (c : Nat) : Nat := 0x1000014 + c * 0x10000
abbrev ST_MEM_DATA_DATA (c : Nat) : Fld := ⟨ST_MEM_DATA c, 31, 0⟩
/-- 12_station_cores R470. -/
abbrev ST_EXC_LOG (c : Nat) : Nat := 0x1000020 + c * 0x10000
abbrev ST_EXC_LOG_VALID (c : Nat) : Fld := ⟨ST_EXC_LOG c, 31, 31⟩
abbrev ST_EXC_LOG_DOUBLE (c : Nat) : Fld := ⟨ST_EXC_LOG c, 30, 30⟩
abbrev ST_EXC_LOG_PCR (c : Nat) : Fld := ⟨ST_EXC_LOG c, 20, 20⟩
abbrev ST_EXC_LOG_CAUSE (c : Nat) : Fld := ⟨ST_EXC_LOG c, 19, 16⟩
abbrev ST_EXC_LOG_EPC (c : Nat) : Fld := ⟨ST_EXC_LOG c, 15, 0⟩
/-- 12_station_cores R470. -/
abbrev ST_EXC_ADDR (c : Nat) : Nat := 0x1000024 + c * 0x10000
abbrev ST_EXC_ADDR_EADDR (c : Nat) : Fld := ⟨ST_EXC_ADDR c, 31, 0⟩
/-- 12_station_cores R470. -/
abbrev ST_BUS_LOG (c : Nat) : Nat := 0x1000028 + c * 0x10000
abbrev ST_BUS_LOG_VALID (c : Nat) : Fld := ⟨ST_BUS_LOG c, 31, 31⟩
abbrev ST_BUS_LOG_OVF (c : Nat) : Fld := ⟨ST_BUS_LOG c, 30, 30⟩
abbrev ST_BUS_LOG_WRITE (c : Nat) : Fld := ⟨ST_BUS_LOG c, 29, 29⟩
abbrev ST_BUS_LOG_STATUS (c : Nat) : Fld := ⟨ST_BUS_LOG c, 27, 24⟩
abbrev ST_BUS_LOG_CAUSE (c : Nat) : Fld := ⟨ST_BUS_LOG c, 23, 16⟩
abbrev ST_BUS_LOG_ADDR_HI (c : Nat) : Fld := ⟨ST_BUS_LOG c, 15, 0⟩
/-- 12_station_cores R470. -/
abbrev ST_BUS_ADDR (c : Nat) : Nat := 0x100002c + c * 0x10000
abbrev ST_BUS_ADDR_ADDR_LO (c : Nat) : Fld := ⟨ST_BUS_ADDR c, 31, 0⟩
/-- 12_station_cores R470. -/
abbrev ST_MEM_ERR (c : Nat) : Nat := 0x1000030 + c * 0x10000
abbrev ST_MEM_ERR_VALID (c : Nat) : Fld := ⟨ST_MEM_ERR c, 31, 31⟩
abbrev ST_MEM_ERR_OVF (c : Nat) : Fld := ⟨ST_MEM_ERR c, 30, 30⟩
abbrev ST_MEM_ERR_UE (c : Nat) : Fld := ⟨ST_MEM_ERR c, 29, 29⟩
abbrev ST_MEM_ERR_MEM (c : Nat) : Fld := ⟨ST_MEM_ERR c, 27, 26⟩
abbrev ST_MEM_ERR_WORD (c : Nat) : Fld := ⟨ST_MEM_ERR c, 13, 0⟩
/-- 12_station_cores R470. -/
abbrev ST_DOORBELL (c : Nat) : Nat := 0x1000040 + c * 0x10000
abbrev ST_DOORBELL_RING (c : Nat) : Fld := ⟨ST_DOORBELL c, 3, 0⟩
/-- 12_station_cores R470. -/
abbrev ST_SWIRQ (c : Nat) : Nat := 0x1000044 + c * 0x10000
abbrev ST_SWIRQ_GO (c : Nat) : Fld := ⟨ST_SWIRQ c, 31, 31⟩
abbrev ST_SWIRQ_MSG (c : Nat) : Fld := ⟨ST_SWIRQ c, 15, 0⟩
/-- 12_station_cores R470. -/
abbrev ST_TMR_CTRL (c : Nat) (i : Nat) : Nat := 0x1000100 + c * 0x10000 + i * 0x10
abbrev ST_TMR_CTRL_EN (c : Nat) (i : Nat) : Fld := ⟨ST_TMR_CTRL c i, 31, 31⟩
abbrev ST_TMR_CTRL_AUTO (c : Nat) (i : Nat) : Fld := ⟨ST_TMR_CTRL c i, 30, 30⟩
abbrev ST_TMR_CTRL_PRESCALE (c : Nat) (i : Nat) : Fld := ⟨ST_TMR_CTRL c i, 23, 16⟩
/-- 12_station_cores R470. -/
abbrev ST_TMR_LOAD (c : Nat) (i : Nat) : Nat := 0x1000104 + c * 0x10000 + i * 0x10
abbrev ST_TMR_LOAD_LOAD (c : Nat) (i : Nat) : Fld := ⟨ST_TMR_LOAD c i, 31, 0⟩
/-- 12_station_cores R470. -/
abbrev ST_TMR_CNT (c : Nat) (i : Nat) : Nat := 0x1000108 + c * 0x10000 + i * 0x10
abbrev ST_TMR_CNT_CNT (c : Nat) (i : Nat) : Fld := ⟨ST_TMR_CNT c i, 31, 0⟩
/-- 12_station_cores R470. -/
abbrev ST_WDT_CTRL (c : Nat) : Nat := 0x1000200 + c * 0x10000
abbrev ST_WDT_CTRL_EN (c : Nat) : Fld := ⟨ST_WDT_CTRL c, 31, 31⟩
abbrev ST_WDT_CTRL_LOCK (c : Nat) : Fld := ⟨ST_WDT_CTRL c, 30, 30⟩
abbrev ST_WDT_CTRL_RESET_EN (c : Nat) : Fld := ⟨ST_WDT_CTRL c, 29, 29⟩
/-- 12_station_cores R470. -/
abbrev ST_WDT_LOAD (c : Nat) : Nat := 0x1000204 + c * 0x10000
abbrev ST_WDT_LOAD_LOAD (c : Nat) : Fld := ⟨ST_WDT_LOAD c, 31, 0⟩
/-- 12_station_cores R470. -/
abbrev ST_WDT_OPEN (c : Nat) : Nat := 0x1000208 + c * 0x10000
abbrev ST_WDT_OPEN_OPEN (c : Nat) : Fld := ⟨ST_WDT_OPEN c, 31, 0⟩
/-- 12_station_cores R470. -/
abbrev ST_WDT_CNT (c : Nat) : Nat := 0x100020c + c * 0x10000
abbrev ST_WDT_CNT_CNT (c : Nat) : Fld := ⟨ST_WDT_CNT c, 31, 0⟩
/-- 12_station_cores R470. -/
abbrev ST_WDT_KICK (c : Nat) : Nat := 0x1000210 + c * 0x10000
abbrev ST_WDT_KICK_KEY (c : Nat) : Fld := ⟨ST_WDT_KICK c, 31, 0⟩
/-- 12_station_cores R470. -/
abbrev ST_WDT_STAT (c : Nat) : Nat := 0x1000214 + c * 0x10000
abbrev ST_WDT_STAT_BITE (c : Nat) : Fld := ⟨ST_WDT_STAT c, 31, 31⟩
abbrev ST_WDT_STAT_OPENED (c : Nat) : Fld := ⟨ST_WDT_STAT c, 30, 30⟩
abbrev ST_WDT_STAT_WHY (c : Nat) : Fld := ⟨ST_WDT_STAT c, 29, 28⟩
/-- 12_station_cores R470. -/
abbrev ST_WDT_RESUME (c : Nat) : Nat := 0x1000218 + c * 0x10000
abbrev ST_WDT_RESUME_WDT_RESUME_MIN (c : Nat) : Fld := ⟨ST_WDT_RESUME c, 23, 0⟩
/-- 12_station_cores R470. -/
abbrev ST_IRQ_CFG (c : Nat) (j : Nat) : Nat := 0x1000400 + c * 0x10000 + j * 0x4
abbrev ST_IRQ_CFG_PRIO (c : Nat) (j : Nat) : Fld := ⟨ST_IRQ_CFG c j, 31, 30⟩
abbrev ST_IRQ_CFG_ROUTE (c : Nat) (j : Nat) : Fld := ⟨ST_IRQ_CFG c j, 29, 29⟩
abbrev ST_IRQ_CFG_SEL (c : Nat) (j : Nat) : Fld := ⟨ST_IRQ_CFG c j, 8, 0⟩
/-- 12_station_cores R470. -/
abbrev ST_IRQ_PEND_LO (c : Nat) : Nat := 0x1000500 + c * 0x10000
abbrev ST_IRQ_PEND_LO_PEND (c : Nat) : Fld := ⟨ST_IRQ_PEND_LO c, 31, 0⟩
/-- 12_station_cores R470. -/
abbrev ST_IRQ_PEND_HI (c : Nat) : Nat := 0x1000504 + c * 0x10000
abbrev ST_IRQ_PEND_HI_PEND (c : Nat) : Fld := ⟨ST_IRQ_PEND_HI c, 31, 0⟩
/-- 12_station_cores R470. -/
abbrev STW_SEM (i : Nat) : Nat := 0x1180000 + i * 0x4
abbrev STW_SEM_VALUE (i : Nat) : Fld := ⟨STW_SEM i, 31, 0⟩
/-- 12_station_cores R470. -/
abbrev STW_SEM_SC (i : Nat) : Nat := 0x1180400 + i * 0x4
abbrev STW_SEM_SC_VALUE (i : Nat) : Fld := ⟨STW_SEM_SC i, 31, 0⟩
/-- 12_station_cores R470. -/
abbrev STW_SEM_LR (i : Nat) : Nat := 0x1180800 + i * 0x4
abbrev STW_SEM_LR_VALUE (i : Nat) : Fld := ⟨STW_SEM_LR i, 31, 0⟩
/-- 13_debug_run_control R502. -/
abbrev DBG_CTRL : Nat := 0xf00000
abbrev DBG_CTRL_ATTACH : Fld := ⟨DBG_CTRL, 31, 31⟩
abbrev DBG_CTRL_DETACH : Fld := ⟨DBG_CTRL, 30, 30⟩
abbrev DBG_CTRL_ATTACHED : Fld := ⟨DBG_CTRL, 29, 29⟩
abbrev DBG_CTRL_SYS_EN : Fld := ⟨DBG_CTRL, 28, 28⟩
abbrev DBG_CTRL_AUTHED : Fld := ⟨DBG_CTRL, 27, 27⟩
/-- 13_debug_run_control R502. -/
abbrev DBG_STAT : Nat := 0xf00004
abbrev DBG_STAT_REFUSED : Fld := ⟨DBG_STAT, 31, 31⟩
abbrev DBG_STAT_CAUSE : Fld := ⟨DBG_STAT, 23, 17⟩
abbrev DBG_STAT_HALTED : Fld := ⟨DBG_STAT, 16, 0⟩
/-- 13_debug_run_control R502. -/
abbrev DBG_XTRIG : Nat := 0xf00008
abbrev DBG_XTRIG_LAT_ON_HALT : Fld := ⟨DBG_XTRIG, 31, 31⟩
abbrev DBG_XTRIG_HALT_ON_STOP : Fld := ⟨DBG_XTRIG, 30, 30⟩
abbrev DBG_XTRIG_GROUP_HALT : Fld := ⟨DBG_XTRIG, 29, 29⟩
abbrev DBG_XTRIG_MEMBERS : Fld := ⟨DBG_XTRIG, 16, 0⟩
/-- 13_debug_run_control R502. -/
abbrev DBG_CORE_CTRL (c : Nat) : Nat := 0xf01000 + c * 0x100
abbrev DBG_CORE_CTRL_HALT (c : Nat) : Fld := ⟨DBG_CORE_CTRL c, 31, 31⟩
abbrev DBG_CORE_CTRL_RESUME (c : Nat) : Fld := ⟨DBG_CORE_CTRL c, 30, 30⟩
abbrev DBG_CORE_CTRL_STEP (c : Nat) : Fld := ⟨DBG_CORE_CTRL c, 29, 29⟩
abbrev DBG_CORE_CTRL_HALT_ON_RELEASE (c : Nat) : Fld := ⟨DBG_CORE_CTRL c, 28, 28⟩
abbrev DBG_CORE_CTRL_TRAP_HALT (c : Nat) : Fld := ⟨DBG_CORE_CTRL c, 27, 27⟩
abbrev DBG_CORE_CTRL_STEP_IRQ (c : Nat) : Fld := ⟨DBG_CORE_CTRL c, 26, 26⟩
/-- 13_debug_run_control R502. -/
abbrev DBG_CORE_STAT (c : Nat) : Nat := 0xf01004 + c * 0x100
abbrev DBG_CORE_STAT_HALTED (c : Nat) : Fld := ⟨DBG_CORE_STAT c, 31, 31⟩
abbrev DBG_CORE_STAT_LOCKSEQ_ABORT (c : Nat) : Fld := ⟨DBG_CORE_STAT c, 30, 30⟩
abbrev DBG_CORE_STAT_RSV_LOST (c : Nat) : Fld := ⟨DBG_CORE_STAT c, 29, 29⟩
abbrev DBG_CORE_STAT_FEXC (c : Nat) : Fld := ⟨DBG_CORE_STAT c, 28, 28⟩
abbrev DBG_CORE_STAT_FCAUSE (c : Nat) : Fld := ⟨DBG_CORE_STAT c, 27, 24⟩
abbrev DBG_CORE_STAT_WHY (c : Nat) : Fld := ⟨DBG_CORE_STAT c, 23, 21⟩
abbrev DBG_CORE_STAT_GATED (c : Nat) : Fld := ⟨DBG_CORE_STAT c, 20, 20⟩
abbrev DBG_CORE_STAT_UNIT (c : Nat) : Fld := ⟨DBG_CORE_STAT c, 19, 16⟩
abbrev DBG_CORE_STAT_PC (c : Nat) : Fld := ⟨DBG_CORE_STAT c, 15, 0⟩
/-- 13_debug_run_control R502. -/
abbrev DBG_CORE_PC (c : Nat) : Nat := 0xf01008 + c * 0x100
abbrev DBG_CORE_PC_PCR (c : Nat) : Fld := ⟨DBG_CORE_PC c, 16, 16⟩
abbrev DBG_CORE_PC_PC (c : Nat) : Fld := ⟨DBG_CORE_PC c, 15, 0⟩
/-- 13_debug_run_control R502. -/
abbrev DBG_CORE_INSN (c : Nat) : Nat := 0xf0100c + c * 0x100
abbrev DBG_CORE_INSN_INSN (c : Nat) : Fld := ⟨DBG_CORE_INSN c, 31, 0⟩
/-- 13_debug_run_control R502. -/
abbrev DBG_CORE_RSEL (c : Nat) : Nat := 0xf01010 + c * 0x100
abbrev DBG_CORE_RSEL_CLS (c : Nat) : Fld := ⟨DBG_CORE_RSEL c, 7, 5⟩
abbrev DBG_CORE_RSEL_IDX (c : Nat) : Fld := ⟨DBG_CORE_RSEL c, 4, 0⟩
/-- 13_debug_run_control R502. -/
abbrev DBG_CORE_RDATA (c : Nat) : Nat := 0xf01014 + c * 0x100
abbrev DBG_CORE_RDATA_DATA (c : Nat) : Fld := ⟨DBG_CORE_RDATA c, 31, 0⟩
/-- 13_debug_run_control R502. -/
abbrev DBG_CORE_BP (c : Nat) (i : Nat) : Nat := 0xf01020 + c * 0x100 + i * 0x4
abbrev DBG_CORE_BP_EN (c : Nat) (i : Nat) : Fld := ⟨DBG_CORE_BP c i, 31, 31⟩
abbrev DBG_CORE_BP_PCR (c : Nat) (i : Nat) : Fld := ⟨DBG_CORE_BP c i, 16, 16⟩
abbrev DBG_CORE_BP_PC (c : Nat) (i : Nat) : Fld := ⟨DBG_CORE_BP c i, 15, 0⟩
/-- 13_debug_run_control R502. -/
abbrev DBG_CORE_WP_ADDR (c : Nat) (i : Nat) : Nat := 0xf01040 + c * 0x100 + i * 0x8
abbrev DBG_CORE_WP_ADDR_ADDR (c : Nat) (i : Nat) : Fld := ⟨DBG_CORE_WP_ADDR c i, 31, 0⟩
/-- 13_debug_run_control R502. -/
abbrev DBG_CORE_WP_CFG (c : Nat) (i : Nat) : Nat := 0xf01044 + c * 0x100 + i * 0x8
abbrev DBG_CORE_WP_CFG_EN (c : Nat) (i : Nat) : Fld := ⟨DBG_CORE_WP_CFG c i, 31, 31⟩
abbrev DBG_CORE_WP_CFG_RD (c : Nat) (i : Nat) : Fld := ⟨DBG_CORE_WP_CFG c i, 30, 30⟩
abbrev DBG_CORE_WP_CFG_WR (c : Nat) (i : Nat) : Fld := ⟨DBG_CORE_WP_CFG c i, 29, 29⟩
abbrev DBG_CORE_WP_CFG_MASKBITS (c : Nat) (i : Nat) : Fld := ⟨DBG_CORE_WP_CFG c i, 4, 0⟩
/-- 14_power_ballast R529. -/
abbrev BAL_CTRL : Nat := 0xa00000
abbrev BAL_CTRL_EN : Fld := ⟨BAL_CTRL, 31, 31⟩
abbrev BAL_CTRL_DROOP_EN : Fld := ⟨BAL_CTRL, 30, 30⟩
abbrev BAL_CTRL_DEBT_MAX : Fld := ⟨BAL_CTRL, 24, 16⟩
abbrev BAL_CTRL_BUDGET : Fld := ⟨BAL_CTRL, 8, 0⟩
/-- 14_power_ballast R529. -/
abbrev BAL_STAT : Nat := 0xa00004
abbrev BAL_STAT_HOLD : Fld := ⟨BAL_STAT, 31, 31⟩
abbrev BAL_STAT_CLAMP : Fld := ⟨BAL_STAT, 30, 30⟩
abbrev BAL_STAT_TRIP : Fld := ⟨BAL_STAT, 29, 29⟩
abbrev BAL_STAT_OVER : Fld := ⟨BAL_STAT, 28, 28⟩
abbrev BAL_STAT_DEBT : Fld := ⟨BAL_STAT, 27, 27⟩
abbrev BAL_STAT_EFF_BUDGET : Fld := ⟨BAL_STAT, 17, 9⟩
/-- 14_power_ballast R529. -/
abbrev BAL_RSV : Nat := 0xa00008
abbrev BAL_RSV_LANE_RSV : Fld := ⟨BAL_RSV, 24, 16⟩
abbrev BAL_RSV_HUB_RSV : Fld := ⟨BAL_RSV, 8, 0⟩
/-- 14_power_ballast R529. -/
abbrev BAL_DROOP_CFG : Nat := 0xa0000c
abbrev BAL_DROOP_CFG_CLAMP_MIN : Fld := ⟨BAL_DROOP_CFG, 23, 16⟩
abbrev BAL_DROOP_CFG_HYST_MV : Fld := ⟨BAL_DROOP_CFG, 15, 8⟩
abbrev BAL_DROOP_CFG_DROOP_MV : Fld := ⟨BAL_DROOP_CFG, 7, 0⟩
/-- 14_power_ballast R529. -/
abbrev BAL_DROOP_STAT : Nat := 0xa00010
abbrev BAL_DROOP_STAT_COUNT : Fld := ⟨BAL_DROOP_STAT, 31, 16⟩
abbrev BAL_DROOP_STAT_SOURCE : Fld := ⟨BAL_DROOP_STAT, 2, 0⟩
/-- 14_power_ballast R529. -/
abbrev BAL_THERM_CFG : Nat := 0xa00014
abbrev BAL_THERM_CFG_TRIP_C : Fld := ⟨BAL_THERM_CFG, 31, 24⟩
abbrev BAL_THERM_CFG_DERATE_C : Fld := ⟨BAL_THERM_CFG, 23, 16⟩
abbrev BAL_THERM_CFG_DSTEP : Fld := ⟨BAL_THERM_CFG, 7, 0⟩
/-- 14_power_ballast R529. -/
abbrev BAL_THERM_STAT : Nat := 0xa00018
abbrev BAL_THERM_STAT_TJ : Fld := ⟨BAL_THERM_STAT, 31, 24⟩
abbrev BAL_THERM_STAT_HBM_MAX : Fld := ⟨BAL_THERM_STAT, 23, 16⟩
abbrev BAL_THERM_STAT_SENSOR : Fld := ⟨BAL_THERM_STAT, 2, 0⟩
/-- 14_power_ballast R529. -/
abbrev BAL_CON_CFG (i : Nat) : Nat := 0xa01000 + i * 0x20
abbrev BAL_CON_CFG_FLOOR (i : Nat) : Fld := ⟨BAL_CON_CFG i, 24, 16⟩
abbrev BAL_CON_CFG_WEIGHT (i : Nat) : Fld := ⟨BAL_CON_CFG i, 15, 12⟩
abbrev BAL_CON_CFG_STEP (i : Nat) : Fld := ⟨BAL_CON_CFG i, 7, 0⟩
/-- 14_power_ballast R529. -/
abbrev BAL_CON_RES (i : Nat) : Nat := 0xa01004 + i * 0x20
abbrev BAL_CON_RES_BOW_RES (i : Nat) : Fld := ⟨BAL_CON_RES i, 23, 0⟩
/-- 14_power_ballast R529. -/
abbrev BAL_CON_GRANT (i : Nat) : Nat := 0xa01008 + i * 0x20
abbrev BAL_CON_GRANT_REQ (i : Nat) : Fld := ⟨BAL_CON_GRANT i, 24, 16⟩
abbrev BAL_CON_GRANT_GRANT (i : Nat) : Fld := ⟨BAL_CON_GRANT i, 8, 0⟩
/-- 14_power_ballast R529. -/
abbrev BAL_CON_ALLOW (i : Nat) : Nat := 0xa0100c + i * 0x20
abbrev BAL_CON_ALLOW_A (i : Nat) : Fld := ⟨BAL_CON_ALLOW i, 31, 0⟩
/-- 14_power_ballast R529. -/
abbrev BAL_CON_USED (i : Nat) : Nat := 0xa01010 + i * 0x20
abbrev BAL_CON_USED_USED (i : Nat) : Fld := ⟨BAL_CON_USED i, 31, 0⟩
/-- 14_power_ballast R529. -/
abbrev BAL_CON_STAT (i : Nat) : Nat := 0xa01014 + i * 0x20
abbrev BAL_CON_STAT_HELD (i : Nat) : Fld := ⟨BAL_CON_STAT i, 31, 31⟩
abbrev BAL_CON_STAT_OVER (i : Nat) : Fld := ⟨BAL_CON_STAT i, 30, 30⟩
abbrev BAL_CON_STAT_HOLD_WIN (i : Nat) : Fld := ⟨BAL_CON_STAT i, 15, 0⟩
/-- 14_power_ballast R529. -/
abbrev BAL_PWR_REQ : Nat := 0xa00100
abbrev BAL_PWR_REQ_WAKE : Fld := ⟨BAL_PWR_REQ, 31, 31⟩
abbrev BAL_PWR_REQ_STATE : Fld := ⟨BAL_PWR_REQ, 1, 0⟩
/-- 14_power_ballast R529. -/
abbrev BAL_PWR_STAT : Nat := 0xa00104
abbrev BAL_PWR_STAT_BUSY : Fld := ⟨BAL_PWR_STAT, 31, 31⟩
abbrev BAL_PWR_STAT_EMULATED : Fld := ⟨BAL_PWR_STAT, 30, 30⟩
abbrev BAL_PWR_STAT_STATE : Fld := ⟨BAL_PWR_STAT, 29, 28⟩
abbrev BAL_PWR_STAT_TARGET : Fld := ⟨BAL_PWR_STAT, 27, 26⟩
abbrev BAL_PWR_STAT_ELIGIBLE : Fld := ⟨BAL_PWR_STAT, 25, 24⟩
abbrev BAL_PWR_STAT_REFUSED : Fld := ⟨BAL_PWR_STAT, 23, 23⟩
abbrev BAL_PWR_STAT_BLOCK : Fld := ⟨BAL_PWR_STAT, 11, 8⟩
abbrev BAL_PWR_STAT_WAKE_CAUSE : Fld := ⟨BAL_PWR_STAT, 2, 0⟩
/-- 14_power_ballast R529. -/
abbrev BAL_LAT_TOL : Nat := 0xa00108
abbrev BAL_LAT_TOL_LAT_TOL : Fld := ⟨BAL_LAT_TOL, 19, 0⟩
/-- 14_power_ballast R529. -/
abbrev BAL_LTR : Nat := 0xa0010c
abbrev BAL_LTR_VALID : Fld := ⟨BAL_LTR, 31, 31⟩
abbrev BAL_LTR_TOL : Fld := ⟨BAL_LTR, 19, 0⟩
/-- 14_power_ballast R529. -/
abbrev BAL_PWR_CFG : Nat := 0xa00110
abbrev BAL_PWR_CFG_MARGIN : Fld := ⟨BAL_PWR_CFG, 15, 0⟩
/-- 14_power_ballast R529. -/
abbrev BAL_KEEP : Nat := 0xa00114
abbrev BAL_KEEP_TETHER : Fld := ⟨BAL_KEEP, 16, 16⟩
abbrev BAL_KEEP_CORES : Fld := ⟨BAL_KEEP, 15, 0⟩
/-- 15_host_security R554. -/
abbrev HIF_LINK_STAT : Nat := 0xc00000
abbrev HIF_LINK_STAT_UP : Fld := ⟨HIF_LINK_STAT, 31, 31⟩
abbrev HIF_LINK_STAT_HOT_RESET : Fld := ⟨HIF_LINK_STAT, 30, 30⟩
abbrev HIF_LINK_STAT_SPEED : Fld := ⟨HIF_LINK_STAT, 23, 20⟩
abbrev HIF_LINK_STAT_WIDTH : Fld := ⟨HIF_LINK_STAT, 19, 15⟩
/-- 15_host_security R554. -/
abbrev HIF_ERR_LOG : Nat := 0xc00010
abbrev HIF_ERR_LOG_VALID : Fld := ⟨HIF_ERR_LOG, 31, 31⟩
abbrev HIF_ERR_LOG_OVF : Fld := ⟨HIF_ERR_LOG, 30, 30⟩
abbrev HIF_ERR_LOG_WRITE : Fld := ⟨HIF_ERR_LOG, 29, 29⟩
abbrev HIF_ERR_LOG_BAR2 : Fld := ⟨HIF_ERR_LOG, 28, 28⟩
abbrev HIF_ERR_LOG_STATUS : Fld := ⟨HIF_ERR_LOG, 27, 24⟩
abbrev HIF_ERR_LOG_CAUSE : Fld := ⟨HIF_ERR_LOG, 23, 16⟩
abbrev HIF_ERR_LOG_ADDR_HI : Fld := ⟨HIF_ERR_LOG, 15, 0⟩
/-- 15_host_security R554. -/
abbrev HIF_ERR_ADDR : Nat := 0xc00014
abbrev HIF_ERR_ADDR_ADDR_LO : Fld := ⟨HIF_ERR_ADDR, 31, 0⟩
/-- 15_host_security R554. -/
abbrev HIF_IRQ_STAT (j : Nat) : Nat := 0xc00100 + j * 0x4
abbrev HIF_IRQ_STAT_RAISED (j : Nat) : Fld := ⟨HIF_IRQ_STAT j, 31, 0⟩
/-- 15_host_security R554. -/
abbrev HIF_IRQ_ROUTE (i : Nat) : Nat := 0xc01000 + i * 0x4
abbrev HIF_IRQ_ROUTE_EN (i : Nat) : Fld := ⟨HIF_IRQ_ROUTE i, 31, 31⟩
abbrev HIF_IRQ_ROUTE_VECTOR (i : Nat) : Fld := ⟨HIF_IRQ_ROUTE i, 10, 0⟩
/-- 15_host_security R554. -/
abbrev HIF_RING_CFG (r : Nat) : Nat := 0xc20000 + r * 0x20
abbrev HIF_RING_CFG_EN (r : Nat) : Fld := ⟨HIF_RING_CFG r, 31, 31⟩
abbrev HIF_RING_CFG_VECTOR (r : Nat) : Fld := ⟨HIF_RING_CFG r, 26, 16⟩
abbrev HIF_RING_CFG_SIZE (r : Nat) : Fld := ⟨HIF_RING_CFG r, 4, 0⟩
/-- 15_host_security R554. -/
abbrev HIF_RING_BASE_LO (r : Nat) : Nat := 0xc20004 + r * 0x20
abbrev HIF_RING_BASE_LO_BASE_LO (r : Nat) : Fld := ⟨HIF_RING_BASE_LO r, 31, 12⟩
/-- 15_host_security R554. -/
abbrev HIF_RING_BASE_HI (r : Nat) : Nat := 0xc20008 + r * 0x20
abbrev HIF_RING_BASE_HI_BASE_HI (r : Nat) : Fld := ⟨HIF_RING_BASE_HI r, 31, 0⟩
/-- 15_host_security R554. -/
abbrev HIF_RING_WB_LO (r : Nat) : Nat := 0xc2000c + r * 0x20
abbrev HIF_RING_WB_LO_WB_LO (r : Nat) : Fld := ⟨HIF_RING_WB_LO r, 31, 2⟩
/-- 15_host_security R554. -/
abbrev HIF_RING_WB_HI (r : Nat) : Nat := 0xc20010 + r * 0x20
abbrev HIF_RING_WB_HI_WB_HI (r : Nat) : Fld := ⟨HIF_RING_WB_HI r, 31, 0⟩
/-- 15_host_security R554. -/
abbrev HIF_RING_PTR (r : Nat) : Nat := 0xc20014 + r * 0x20
abbrev HIF_RING_PTR_TAIL (r : Nat) : Fld := ⟨HIF_RING_PTR r, 31, 16⟩
abbrev HIF_RING_PTR_HEAD (r : Nat) : Fld := ⟨HIF_RING_PTR r, 15, 0⟩
/-- 15_host_security R554. -/
abbrev HIF_RING_STAT (r : Nat) : Nat := 0xc20018 + r * 0x20
abbrev HIF_RING_STAT_ERROR (r : Nat) : Fld := ⟨HIF_RING_STAT r, 31, 31⟩
abbrev HIF_RING_STAT_POISON (r : Nat) : Fld := ⟨HIF_RING_STAT r, 30, 30⟩
abbrev HIF_RING_STAT_CAUSE (r : Nat) : Fld := ⟨HIF_RING_STAT r, 27, 24⟩
/-- 15_host_security R554. -/
abbrev HIF_DOORBELL (r : Nat) : Nat := 0xc40000 + r * 0x4
abbrev HIF_DOORBELL_TAIL (r : Nat) : Fld := ⟨HIF_DOORBELL r, 15, 0⟩
/-- 15_host_security R554. -/
abbrev SEC_STATE : Nat := 0xb00000
abbrev SEC_STATE_STATE : Fld := ⟨SEC_STATE, 31, 30⟩
abbrev SEC_STATE_ALARMED : Fld := ⟨SEC_STATE, 29, 29⟩
abbrev SEC_STATE_PENDING : Fld := ⟨SEC_STATE, 28, 27⟩
/-- 15_host_security R554. -/
abbrev SEC_ALARM : Nat := 0xb00004
abbrev SEC_ALARM_RAISE : Fld := ⟨SEC_ALARM, 31, 31⟩
abbrev SEC_ALARM_AL : Fld := ⟨SEC_ALARM, 6, 0⟩
/-- 15_host_security R554. -/
abbrev SEC_ALARM_CFG : Nat := 0xb00008
abbrev SEC_ALARM_CFG_ACTION : Fld := ⟨SEC_ALARM_CFG, 6, 0⟩
/-- 15_host_security R554. -/
abbrev SEC_LOCK_STAT : Nat := 0xb00010
abbrev SEC_LOCK_STAT_LOCK_FAIL : Fld := ⟨SEC_LOCK_STAT, 31, 31⟩
abbrev SEC_LOCK_STAT_SRC : Fld := ⟨SEC_LOCK_STAT, 13, 8⟩
abbrev SEC_LOCK_STAT_REG : Fld := ⟨SEC_LOCK_STAT, 1, 0⟩
/-- 15_host_security R554. -/
abbrev SEC_FUSE_CMD : Nat := 0xb00020
abbrev SEC_FUSE_CMD_OP : Fld := ⟨SEC_FUSE_CMD, 31, 28⟩
abbrev SEC_FUSE_CMD_SLOT : Fld := ⟨SEC_FUSE_CMD, 1, 0⟩
/-- 15_host_security R554. -/
abbrev SEC_FUSE_STAT : Nat := 0xb00024
abbrev SEC_FUSE_STAT_BUSY : Fld := ⟨SEC_FUSE_STAT, 31, 31⟩
abbrev SEC_FUSE_STAT_ERR : Fld := ⟨SEC_FUSE_STAT, 30, 30⟩
abbrev SEC_FUSE_STAT_CAUSE : Fld := ⟨SEC_FUSE_STAT, 29, 27⟩
abbrev SEC_FUSE_STAT_VERSION : Fld := ⟨SEC_FUSE_STAT, 26, 20⟩
abbrev SEC_FUSE_STAT_SK_PROG : Fld := ⟨SEC_FUSE_STAT, 19, 16⟩
abbrev SEC_FUSE_STAT_SK_REVOKED : Fld := ⟨SEC_FUSE_STAT, 15, 12⟩
abbrev SEC_FUSE_STAT_DBG_PROG : Fld := ⟨SEC_FUSE_STAT, 11, 11⟩
abbrev SEC_FUSE_STAT_KEY_PROG : Fld := ⟨SEC_FUSE_STAT, 10, 8⟩
/-- 15_host_security R554. -/
abbrev SEC_KEY_CMD : Nat := 0xb00030
abbrev SEC_KEY_CMD_OP : Fld := ⟨SEC_KEY_CMD, 31, 28⟩
abbrev SEC_KEY_CMD_SLOT : Fld := ⟨SEC_KEY_CMD, 2, 0⟩
/-- 15_host_security R554. -/
abbrev SEC_KEY_DATA (w : Nat) : Nat := 0xb00040 + w * 0x4
abbrev SEC_KEY_DATA_WORD (w : Nat) : Fld := ⟨SEC_KEY_DATA w, 31, 0⟩
/-- 15_host_security R554. -/
abbrev SEC_AUTH_STAT : Nat := 0xb00080
abbrev SEC_AUTH_STAT_BUSY : Fld := ⟨SEC_AUTH_STAT, 31, 31⟩
abbrev SEC_AUTH_STAT_LOCKED_OUT : Fld := ⟨SEC_AUTH_STAT, 30, 30⟩
abbrev SEC_AUTH_STAT_PERMS : Fld := ⟨SEC_AUTH_STAT, 29, 27⟩
abbrev SEC_AUTH_STAT_FAILS : Fld := ⟨SEC_AUTH_STAT, 3, 0⟩
/-- 16_pins_tether R578. -/
abbrev PIN_GPIO_OUT (b : Nat) : Nat := 0xd00000 + b * 0x10
abbrev PIN_GPIO_OUT_OUT (b : Nat) : Fld := ⟨PIN_GPIO_OUT b, 31, 0⟩
/-- 16_pins_tether R578. -/
abbrev PIN_GPIO_SET (b : Nat) : Nat := 0xd00004 + b * 0x10
abbrev PIN_GPIO_SET_SET (b : Nat) : Fld := ⟨PIN_GPIO_SET b, 31, 0⟩
/-- 16_pins_tether R578. -/
abbrev PIN_GPIO_CLR (b : Nat) : Nat := 0xd00008 + b * 0x10
abbrev PIN_GPIO_CLR_CLR (b : Nat) : Fld := ⟨PIN_GPIO_CLR b, 31, 0⟩
/-- 16_pins_tether R578. -/
abbrev PIN_GPIO_IN (b : Nat) : Nat := 0xd0000c + b * 0x10
abbrev PIN_GPIO_IN_IN (b : Nat) : Fld := ⟨PIN_GPIO_IN b, 31, 0⟩
/-- 16_pins_tether R578. -/
abbrev PIN_GPIO_OE (b : Nat) : Nat := 0xd00080 + b * 0x4
abbrev PIN_GPIO_OE_OE (b : Nat) : Fld := ⟨PIN_GPIO_OE b, 31, 0⟩
/-- 16_pins_tether R578. -/
abbrev PIN_PERIPH_EN : Nat := 0xd00100
abbrev PIN_PERIPH_EN_TRIG : Fld := ⟨PIN_PERIPH_EN, 8, 5⟩
abbrev PIN_PERIPH_EN_SPI : Fld := ⟨PIN_PERIPH_EN, 4, 4⟩
abbrev PIN_PERIPH_EN_I2C1 : Fld := ⟨PIN_PERIPH_EN, 3, 3⟩
abbrev PIN_PERIPH_EN_I2C0 : Fld := ⟨PIN_PERIPH_EN, 2, 2⟩
abbrev PIN_PERIPH_EN_UART1 : Fld := ⟨PIN_PERIPH_EN, 1, 1⟩
abbrev PIN_PERIPH_EN_UART0 : Fld := ⟨PIN_PERIPH_EN, 0, 0⟩
/-- 16_pins_tether R578. -/
abbrev PIN_BANK_STAT : Nat := 0xd00104
abbrev PIN_BANK_STAT_ABSENT : Fld := ⟨PIN_BANK_STAT, 9, 5⟩
abbrev PIN_BANK_STAT_V33 : Fld := ⟨PIN_BANK_STAT, 4, 0⟩
/-- 16_pins_tether R578. -/
abbrev PIN_CFG (i : Nat) : Nat := 0xd01000 + i * 0x4
abbrev PIN_CFG_FAB (i : Nat) : Fld := ⟨PIN_CFG i, 31, 31⟩
abbrev PIN_CFG_OWNER (i : Nat) : Fld := ⟨PIN_CFG i, 30, 28⟩
abbrev PIN_CFG_IE (i : Nat) : Fld := ⟨PIN_CFG i, 9, 9⟩
abbrev PIN_CFG_OD (i : Nat) : Fld := ⟨PIN_CFG i, 8, 8⟩
abbrev PIN_CFG_PULL (i : Nat) : Fld := ⟨PIN_CFG i, 7, 6⟩
abbrev PIN_CFG_DRIVE (i : Nat) : Fld := ⟨PIN_CFG i, 5, 4⟩
abbrev PIN_CFG_SLEW (i : Nat) : Fld := ⟨PIN_CFG i, 3, 3⟩
/-- 16_pins_tether R578. -/
abbrev UART_CTRL (u : Nat) : Nat := 0xd02000 + u * 0x10
abbrev UART_CTRL_ERR (u : Nat) : Fld := ⟨UART_CTRL u, 31, 31⟩
abbrev UART_CTRL_TX_EMPTY (u : Nat) : Fld := ⟨UART_CTRL u, 30, 30⟩
abbrev UART_CTRL_RX_COUNT (u : Nat) : Fld := ⟨UART_CTRL u, 29, 25⟩
abbrev UART_CTRL_STOP2 (u : Nat) : Fld := ⟨UART_CTRL u, 20, 20⟩
abbrev UART_CTRL_PARITY (u : Nat) : Fld := ⟨UART_CTRL u, 19, 18⟩
abbrev UART_CTRL_RX_IRQ (u : Nat) : Fld := ⟨UART_CTRL u, 17, 17⟩
abbrev UART_CTRL_TX_IRQ (u : Nat) : Fld := ⟨UART_CTRL u, 16, 16⟩
abbrev UART_CTRL_DIV (u : Nat) : Fld := ⟨UART_CTRL u, 15, 0⟩
/-- 16_pins_tether R578. -/
abbrev UART_DATA (u : Nat) : Nat := 0xd02004 + u * 0x10
abbrev UART_DATA_VALID (u : Nat) : Fld := ⟨UART_DATA u, 31, 31⟩
abbrev UART_DATA_ERR (u : Nat) : Fld := ⟨UART_DATA u, 30, 30⟩
abbrev UART_DATA_DATA (u : Nat) : Fld := ⟨UART_DATA u, 7, 0⟩
/-- 16_pins_tether R578. -/
abbrev UART_TX (u : Nat) : Nat := 0xd02008 + u * 0x10
abbrev UART_TX_DATA (u : Nat) : Fld := ⟨UART_TX u, 7, 0⟩
/-- 16_pins_tether R578. -/
abbrev I2C_CMD (c : Nat) : Nat := 0xd02100 + c * 0x10
abbrev I2C_CMD_BUSY (c : Nat) : Fld := ⟨I2C_CMD c, 31, 31⟩
abbrev I2C_CMD_NACK (c : Nat) : Fld := ⟨I2C_CMD c, 30, 30⟩
abbrev I2C_CMD_ARB_LOST (c : Nat) : Fld := ⟨I2C_CMD c, 29, 29⟩
abbrev I2C_CMD_TIMEOUT (c : Nat) : Fld := ⟨I2C_CMD c, 28, 28⟩
abbrev I2C_CMD_FAST (c : Nat) : Fld := ⟨I2C_CMD c, 27, 27⟩
abbrev I2C_CMD_OP (c : Nat) : Fld := ⟨I2C_CMD c, 26, 24⟩
abbrev I2C_CMD_DATA (c : Nat) : Fld := ⟨I2C_CMD c, 7, 0⟩
/-- 16_pins_tether R578. -/
abbrev SPI_CTRL : Nat := 0xd02200
abbrev SPI_CTRL_BUSY : Fld := ⟨SPI_CTRL, 31, 31⟩
abbrev SPI_CTRL_RX_COUNT : Fld := ⟨SPI_CTRL, 30, 26⟩
abbrev SPI_CTRL_NCS : Fld := ⟨SPI_CTRL, 25, 24⟩
abbrev SPI_CTRL_CS : Fld := ⟨SPI_CTRL, 23, 22⟩
abbrev SPI_CTRL_CPOL : Fld := ⟨SPI_CTRL, 21, 21⟩
abbrev SPI_CTRL_CPHA : Fld := ⟨SPI_CTRL, 20, 20⟩
abbrev SPI_CTRL_IRQ : Fld := ⟨SPI_CTRL, 19, 19⟩
abbrev SPI_CTRL_DIV : Fld := ⟨SPI_CTRL, 7, 0⟩
/-- 16_pins_tether R578. -/
abbrev SPI_DATA : Nat := 0xd02204
abbrev SPI_DATA_VALID : Fld := ⟨SPI_DATA, 31, 31⟩
abbrev SPI_DATA_DATA : Fld := ⟨SPI_DATA, 7, 0⟩
/-- 16_pins_tether R578. -/
abbrev SPI_TX : Nat := 0xd02208
abbrev SPI_TX_DATA : Fld := ⟨SPI_TX, 7, 0⟩
/-- 16_pins_tether R578. -/
abbrev TRIG_CFG (k : Nat) : Nat := 0xd02300 + k * 0x4
abbrev TRIG_CFG_OUT (k : Nat) : Fld := ⟨TRIG_CFG k, 31, 31⟩
abbrev TRIG_CFG_EDGE (k : Nat) : Fld := ⟨TRIG_CFG k, 30, 29⟩
abbrev TRIG_CFG_WIDTH (k : Nat) : Fld := ⟨TRIG_CFG k, 23, 16⟩
/-- 16_pins_tether R578. -/
abbrev TRIG_UNITS_LO (k : Nat) : Nat := 0xd02310 + k * 0x8
abbrev TRIG_UNITS_LO_UNITS_LO (k : Nat) : Fld := ⟨TRIG_UNITS_LO k, 31, 0⟩
/-- 16_pins_tether R578. -/
abbrev TRIG_UNITS_HI (k : Nat) : Nat := 0xd02314 + k * 0x8
abbrev TRIG_UNITS_HI_UNITS_HI (k : Nat) : Fld := ⟨TRIG_UNITS_HI k, 31, 0⟩
/-- 16_pins_tether R578. -/
abbrev GDL_STAT : Nat := 0xd04000
abbrev GDL_STAT_PRESENT : Fld := ⟨GDL_STAT, 31, 31⟩
abbrev GDL_STAT_BUSY : Fld := ⟨GDL_STAT, 30, 30⟩
abbrev GDL_STAT_DONE : Fld := ⟨GDL_STAT, 29, 29⟩
abbrev GDL_STAT_FAIL : Fld := ⟨GDL_STAT, 28, 28⟩
abbrev GDL_STAT_LOW_LIFE : Fld := ⟨GDL_STAT, 27, 27⟩
abbrev GDL_STAT_CAUSE : Fld := ⟨GDL_STAT, 23, 16⟩
/-- 16_pins_tether R578. -/
abbrev GDL_LIFE : Nat := 0xd04004
abbrev GDL_LIFE_LIFE : Fld := ⟨GDL_LIFE, 31, 16⟩
abbrev GDL_LIFE_RESERVE : Fld := ⟨GDL_LIFE, 15, 0⟩
/-- 16_pins_tether R578. -/
abbrev GDL_XFER_CTRL : Nat := 0xd04010
abbrev GDL_XFER_CTRL_GO : Fld := ⟨GDL_XFER_CTRL, 31, 31⟩
abbrev GDL_XFER_CTRL_DIR : Fld := ⟨GDL_XFER_CTRL, 30, 30⟩
abbrev GDL_XFER_CTRL_ABORT : Fld := ⟨GDL_XFER_CTRL, 29, 29⟩
abbrev GDL_XFER_CTRL_LEN : Fld := ⟨GDL_XFER_CTRL, 23, 0⟩
/-- 16_pins_tether R578. -/
abbrev GDL_XFER_GADDR : Nat := 0xd04014
abbrev GDL_XFER_GADDR_ADDR4K : Fld := ⟨GDL_XFER_GADDR, 31, 0⟩
/-- 16_pins_tether R578. -/
abbrev GDL_XFER_HBM : Nat := 0xd04018
abbrev GDL_XFER_HBM_ADDR64K : Fld := ⟨GDL_XFER_HBM, 31, 0⟩
/-- 16_pins_tether R578. -/
abbrev GDL_ID (w : Nat) : Nat := 0xd04040 + w * 0x4
abbrev GDL_ID_WORD (w : Nat) : Fld := ⟨GDL_ID w, 31, 0⟩
/-- 16_pins_tether R578. -/
abbrev TET_CTRL : Nat := 0xe00000
abbrev TET_CTRL_EN : Fld := ⟨TET_CTRL, 31, 31⟩
abbrev TET_CTRL_STOP_POL : Fld := ⟨TET_CTRL, 30, 30⟩
abbrev TET_CTRL_VT_MIN : Fld := ⟨TET_CTRL, 27, 16⟩
abbrev TET_CTRL_LOSS_TMO : Fld := ⟨TET_CTRL, 7, 0⟩
/-- 16_pins_tether R578. -/
abbrev TET_STAT : Nat := 0xe00004
abbrev TET_STAT_STATE : Fld := ⟨TET_STAT, 31, 30⟩
abbrev TET_STAT_CAUSE : Fld := ⟨TET_STAT, 29, 28⟩
abbrev TET_STAT_VT : Fld := ⟨TET_STAT, 23, 12⟩
abbrev TET_STAT_CRC_ERRS : Fld := ⟨TET_STAT, 7, 0⟩
/-- 16_pins_tether R578. -/
abbrev TET_CKOUT (j : Nat) : Nat := 0xe00010 + j * 0x4
abbrev TET_CKOUT_MODE (j : Nat) : Fld := ⟨TET_CKOUT j, 31, 30⟩
abbrev TET_CKOUT_DIV (j : Nat) : Fld := ⟨TET_CKOUT j, 15, 0⟩
/-- 16_pins_tether R578. -/
abbrev TET_CKIN (j : Nat) : Nat := 0xe00020 + j * 0x4
abbrev TET_CKIN_KHZ (j : Nat) : Fld := ⟨TET_CKIN j, 17, 0⟩
/-- 16_pins_tether R578. -/
abbrev TET_IN_LO : Nat := 0xe80000
abbrev TET_IN_LO_IN : Fld := ⟨TET_IN_LO, 31, 0⟩
/-- 16_pins_tether R578. -/
abbrev TET_IN_HI : Nat := 0xe80004
abbrev TET_IN_HI_IN : Fld := ⟨TET_IN_HI, 31, 0⟩
/-- 16_pins_tether R578. -/
abbrev TET_OUT_LO : Nat := 0xe80008
abbrev TET_OUT_LO_OUT : Fld := ⟨TET_OUT_LO, 31, 0⟩
/-- 16_pins_tether R578. -/
abbrev TET_OUT_HI : Nat := 0xe8000c
abbrev TET_OUT_HI_OUT : Fld := ⟨TET_OUT_HI, 31, 0⟩
/-- 16_pins_tether R578. -/
abbrev TET_OE_LO : Nat := 0xe80010
abbrev TET_OE_LO_OE : Fld := ⟨TET_OE_LO, 31, 0⟩
/-- 16_pins_tether R578. -/
abbrev TET_OE_HI : Nat := 0xe80014
abbrev TET_OE_HI_OE : Fld := ⟨TET_OE_HI, 31, 0⟩

/-- The registers of block DEVICE (R22). -/
def regsDevice : List RegSpec := [
  -- DEV_CODE
  ⟨0x0, [], false, false, false, false, [⟨31, 0, .ro, 610692⟩]⟩,
  -- DEV_REV
  ⟨0x4, [], false, false, false, false, [⟨7, 4, .ro, 0⟩, ⟨3, 0, .ro, 0⟩]⟩,
  -- DEV_ORD_FENCE
  ⟨0x4000, [(48, 0x20)], false, false, false, false, [⟨0, 0, .wo, 0⟩]⟩,
  -- DEV_ORD_ISSUED
  ⟨0x4004, [(48, 0x20)], false, false, false, false, [⟨31, 0, .ro, 0⟩]⟩,
  -- DEV_ORD_DONE
  ⟨0x4008, [(48, 0x20)], false, false, false, false, [⟨31, 0, .ro, 0⟩]⟩,
  -- DEV_ORD_WAIT
  ⟨0x400c, [(48, 0x20)], false, false, false, false, [⟨31, 0, .rw, 0⟩]⟩,
  -- DEV_ORD_STATUS
  ⟨0x4010, [(48, 0x20)], false, false, false, false, [⟨31, 31, .w1c, 0⟩, ⟨30, 30, .rw, 0⟩, ⟨29, 29, .w1c, 0⟩, ⟨4, 0, .ro, 0⟩]⟩,
  -- DEV_UNMAPPED_INFO
  ⟨0x4800, [], false, false, false, true, [⟨31, 31, .w1c, 0⟩, ⟨30, 30, .ro, 0⟩, ⟨29, 29, .ro, 0⟩, ⟨21, 16, .ro, 0⟩, ⟨15, 0, .ro, 0⟩]⟩,
  -- DEV_UNMAPPED_ADDR
  ⟨0x4804, [], false, false, false, false, [⟨31, 0, .ro, 0⟩]⟩]

/-- The registers of block CLOCK (R22). -/
def regsClock : List RegSpec := [
  -- CLK_OSC_TRIM_CTRL
  ⟨0x100000, [], false, false, false, false, [⟨31, 31, .rw, 1⟩, ⟨29, 28, .rw, 0⟩, ⟨27, 24, .rw, 0⟩, ⟨20, 16, .rw, 16⟩, ⟨15, 12, .rw, 4⟩, ⟨11, 0, .rw, 0⟩]⟩,
  -- CLK_OSC_TRIM_EXP
  ⟨0x100004, [], false, false, false, false, [⟨31, 0, .rw, 131072⟩]⟩,
  -- CLK_OSC_TRIM_STAT
  ⟨0x100008, [], false, false, false, false, [⟨31, 31, .ro, 0⟩, ⟨30, 30, .ro, 0⟩, ⟨29, 29, .w1c, 0⟩, ⟨15, 0, .ro, 0⟩]⟩,
  -- CLK_PLL_CTRL
  ⟨0x100100, [(16, 0x10)], false, false, false, false, [⟨31, 31, .rw, 0⟩, ⟨30, 30, .rw, 0⟩, ⟨23, 16, .rw, 0⟩, ⟨1, 0, .rw, 0⟩]⟩,
  -- CLK_PLL_OUT
  ⟨0x100104, [(16, 0x10)], false, false, false, false, [⟨31, 24, .rw, 0⟩, ⟨23, 16, .rw, 0⟩, ⟨15, 8, .rw, 0⟩, ⟨7, 0, .rw, 0⟩]⟩,
  -- CLK_PLL_STAT
  ⟨0x100108, [(16, 0x10)], false, false, false, false, [⟨31, 31, .ro, 0⟩, ⟨30, 30, .w1c, 0⟩, ⟨29, 29, .ro, 0⟩, ⟨28, 28, .ro, 0⟩]⟩,
  -- CLK_HUB_SEL
  ⟨0x100300, [], false, false, false, false, [⟨31, 31, .rw, 1⟩, ⟨5, 5, .ro, 0⟩, ⟨4, 4, .ro, 0⟩, ⟨1, 1, .rw, 0⟩, ⟨0, 0, .rw, 0⟩]⟩,
  -- CLK_GCLK_CFG
  ⟨0x101000, [(32, 0x10)], false, false, false, false, [⟨31, 31, .rw, 0⟩, ⟨30, 30, .rw, 0⟩, ⟨29, 29, .ro, 0⟩, ⟨23, 16, .rw, 0⟩, ⟨13, 8, .rw, 63⟩, ⟨5, 0, .rw, 63⟩]⟩,
  -- CLK_GCLK_RND
  ⟨0x101004, [(32, 0x10)], false, false, false, false, [⟨31, 30, .rw, 0⟩, ⟨15, 8, .rw, 0⟩, ⟨7, 0, .rw, 0⟩]⟩,
  -- CLK_RND_REQ
  ⟨0x101400, [], true, false, false, false, [⟨31, 0, .w1s, 0⟩]⟩,
  -- CLK_RCLK_CFG
  ⟨0x102000, [(16, 0x80), (24, 0x4)], false, false, false, false, [⟨31, 31, .rw, 0⟩, ⟨29, 29, .ro, 0⟩, ⟨23, 16, .rw, 0⟩, ⟨6, 0, .rw, 127⟩]⟩,
  -- CLK_SW_STAT
  ⟨0x103000, [], false, false, false, true, [⟨31, 31, .w1c, 0⟩, ⟨30, 30, .ro, 0⟩, ⟨8, 0, .ro, 0⟩]⟩,
  -- CLK_GATE_EN0
  ⟨0x104000, [], false, false, false, false, [⟨31, 16, .rw, 65535⟩, ⟨15, 0, .rw, 65535⟩]⟩,
  -- CLK_GATE_EN1
  ⟨0x104004, [], false, false, false, false, [⟨6, 6, .rw, 1⟩, ⟨5, 5, .rw, 1⟩, ⟨4, 4, .rw, 1⟩, ⟨3, 0, .rw, 15⟩]⟩,
  -- CLK_GATE_STAT
  ⟨0x104008, [], false, false, false, true, [⟨31, 31, .w1c, 0⟩, ⟨30, 30, .ro, 0⟩, ⟨5, 0, .ro, 0⟩]⟩,
  -- CLK_MON_CFG
  ⟨0x105000, [(48, 0x10)], false, false, false, false, [⟨31, 31, .rw, 0⟩, ⟨30, 30, .rw, 0⟩, ⟨19, 16, .rw, 12⟩]⟩,
  -- CLK_MON_LIM
  ⟨0x105004, [(48, 0x10)], false, false, false, false, [⟨31, 16, .rw, 65535⟩, ⟨15, 0, .rw, 0⟩]⟩,
  -- CLK_MON_STAT
  ⟨0x105008, [(48, 0x10)], false, false, false, false, [⟨31, 31, .w1c, 0⟩, ⟨30, 30, .w1c, 0⟩, ⟨29, 29, .w1c, 0⟩, ⟨15, 0, .ro, 0⟩]⟩]

/-- The registers of block CONFIG (R22). -/
def regsConfig : List RegSpec := [
  -- CFG_STRAP
  ⟨0x200000, [], false, false, false, false, [⟨3, 2, .ro, 0⟩, ⟨1, 0, .ro, 0⟩]⟩,
  -- CFG_LOAD_CTRL
  ⟨0x200010, [], false, false, false, false, [⟨31, 31, .wo, 0⟩, ⟨30, 28, .rw, 0⟩, ⟨27, 26, .rw, 0⟩, ⟨25, 25, .rw, 0⟩, ⟨24, 24, .wo, 0⟩]⟩,
  -- CFG_SRC_ADDR_LO
  ⟨0x200014, [], false, false, false, false, [⟨31, 0, .rw, 0⟩]⟩,
  -- CFG_SRC_ADDR_HI
  ⟨0x200018, [], false, false, false, false, [⟨31, 0, .rw, 0⟩]⟩,
  -- CFG_SRC_LEN
  ⟨0x20001c, [], false, false, false, false, [⟨31, 0, .rw, 0⟩]⟩,
  -- CFG_STAT
  ⟨0x200020, [], false, false, false, false, [⟨31, 31, .ro, 0⟩, ⟨30, 30, .w1c, 0⟩, ⟨29, 29, .w1c, 0⟩, ⟨28, 28, .ro, 0⟩, ⟨27, 24, .ro, 0⟩, ⟨7, 0, .ro, 0⟩]⟩,
  -- CFG_ERR_CAUSE
  ⟨0x200024, [], false, false, false, true, [⟨31, 31, .w1c, 0⟩, ⟨30, 30, .ro, 0⟩, ⟨27, 21, .ro, 0⟩, ⟨20, 8, .ro, 0⟩, ⟨7, 0, .ro, 0⟩]⟩,
  -- CFG_PR_CTRL
  ⟨0x200100, [], false, false, false, false, [⟨31, 31, .wo, 0⟩, ⟨30, 30, .wo, 0⟩, ⟨29, 29, .ro, 0⟩, ⟨28, 27, .rw, 0⟩, ⟨26, 26, .rw, 0⟩, ⟨6, 0, .rw, 0⟩]⟩,
  -- CFG_PR_FREEZE_LO
  ⟨0x200104, [], false, false, false, false, [⟨31, 0, .rw, 0⟩]⟩,
  -- CFG_PR_FREEZE_HI
  ⟨0x200108, [], false, false, false, false, [⟨15, 0, .rw, 0⟩]⟩,
  -- CFG_PR_RELEASE_LO
  ⟨0x20010c, [], false, false, false, false, [⟨31, 0, .rw, 0⟩]⟩,
  -- CFG_PR_RELEASE_HI
  ⟨0x200110, [], false, false, false, false, [⟨15, 0, .rw, 0⟩]⟩,
  -- CFG_SCRUB_CTRL
  ⟨0x200200, [], false, false, false, false, [⟨31, 31, .rw, 1⟩, ⟨30, 29, .rw, 1⟩, ⟨15, 0, .rw, 38⟩]⟩,
  -- CFG_SCRUB_STAT
  ⟨0x200204, [], false, false, false, false, [⟨31, 16, .ro, 0⟩, ⟨7, 7, .ro, 0⟩, ⟨6, 0, .ro, 0⟩]⟩,
  -- CFG_SCRUB_LOG
  ⟨0x200208, [], false, false, false, true, [⟨31, 31, .w1c, 0⟩, ⟨30, 30, .ro, 0⟩, ⟨29, 29, .ro, 0⟩, ⟨28, 28, .ro, 0⟩, ⟨27, 21, .ro, 0⟩, ⟨20, 8, .ro, 0⟩]⟩,
  -- CFG_STORE_CTRL
  ⟨0x200300, [], false, false, false, false, [⟨31, 31, .rw, 1⟩, ⟨2, 2, .ro, 0⟩, ⟨1, 1, .ro, 0⟩, ⟨0, 0, .ro, 0⟩]⟩,
  -- CFG_BAY_STAT
  ⟨0x201000, [(128, 0x10)], false, false, false, false, [⟨31, 29, .ro, 0⟩, ⟨28, 28, .w1c, 0⟩, ⟨15, 0, .ro, 0⟩]⟩,
  -- CFG_BAY_CRC
  ⟨0x201004, [(128, 0x10)], false, false, false, false, [⟨31, 0, .ro, 0⟩]⟩]

/-- The registers of block INTEGRITY (R22). -/
def regsIntegrity : List RegSpec := [
  -- INT_LOG_POP
  ⟨0x300000, [], false, false, false, false, [⟨31, 31, .pop, 0⟩, ⟨30, 29, .pop, 0⟩, ⟨28, 28, .pop, 0⟩, ⟨9, 0, .pop, 0⟩]⟩,
  -- INT_LOG_STAMP_LO
  ⟨0x300004, [], false, false, false, false, [⟨31, 0, .ro, 0⟩]⟩,
  -- INT_LOG_STAMP_HI
  ⟨0x300008, [], false, false, false, false, [⟨15, 0, .ro, 0⟩]⟩,
  -- INT_LOG_LOST
  ⟨0x30000c, [], false, false, false, false, [⟨31, 0, .rc, 0⟩]⟩,
  -- INT_BKT_CFG
  ⟨0x300100, [(18, 0x10)], false, false, false, false, [⟨31, 31, .rw, 1⟩, ⟨20, 16, .rw, 24⟩, ⟨15, 0, .rw, 16⟩]⟩,
  -- INT_BKT_STAT
  ⟨0x300104, [(18, 0x10)], false, false, false, false, [⟨31, 31, .w1c, 0⟩, ⟨23, 16, .ro, 0⟩, ⟨15, 0, .ro, 0⟩]⟩,
  -- INT_LEAF_CFG
  ⟨0x301000, [(544, 0x10)], false, false, false, false, [⟨31, 31, .rw, 1⟩, ⟨28, 24, .rw, 20⟩, ⟨23, 16, .rw, 8⟩, ⟨15, 0, .rw, 8⟩]⟩,
  -- INT_LEAF_STAT
  ⟨0x301004, [(544, 0x10)], false, false, false, false, [⟨31, 31, .w1c, 0⟩, ⟨23, 16, .ro, 0⟩, ⟨15, 0, .ro, 0⟩]⟩,
  -- INT_LEAF_LAST
  ⟨0x301008, [(544, 0x10)], false, false, false, false, [⟨31, 31, .w1c, 0⟩, ⟨30, 30, .ro, 0⟩, ⟨19, 0, .ro, 0⟩]⟩]

/-- The registers of block SCRAMBLE (R22). -/
def regsScramble : List RegSpec := [
  -- MEM_CTRL
  ⟨0x400000, [], false, false, false, false, [⟨31, 31, .wo, 0⟩, ⟨30, 30, .wo, 0⟩, ⟨15, 8, .rw, 32⟩]⟩,
  -- MEM_STAT
  ⟨0x400004, [], false, false, false, false, [⟨31, 30, .ro, 0⟩, ⟨29, 29, .ro, 0⟩, ⟨28, 28, .w1c, 0⟩]⟩,
  -- MEM_REKEY_PTR
  ⟨0x400010, [(4, 0x4)], false, false, false, false, [⟨28, 0, .ro, 0⟩]⟩,
  -- MEM_STACK_CFG
  ⟨0x400100, [(4, 0x10)], false, false, false, false, [⟨31, 24, .rw, 95⟩, ⟨23, 16, .rw, 85⟩, ⟨15, 0, .rw, 1024⟩]⟩,
  -- MEM_STACK_STAT
  ⟨0x400104, [(4, 0x10)], false, false, false, false, [⟨31, 29, .ro, 0⟩, ⟨28, 28, .ro, 0⟩, ⟨24, 16, .ro, 0⟩, ⟨7, 0, .ro, 0⟩]⟩,
  -- MEM_STACK_CNT
  ⟨0x400108, [(4, 0x10)], false, false, false, false, [⟨31, 16, .rc, 0⟩, ⟨15, 0, .rc, 0⟩]⟩,
  -- MEM_UE_LOG
  ⟨0x400200, [], false, false, false, true, [⟨31, 31, .w1c, 0⟩, ⟨30, 30, .ro, 0⟩, ⟨29, 28, .ro, 0⟩, ⟨15, 0, .ro, 0⟩]⟩,
  -- MEM_UE_ADDR
  ⟨0x400204, [], false, false, false, false, [⟨31, 6, .ro, 0⟩]⟩,
  -- MEM_TAG_LOG
  ⟨0x400210, [], false, false, false, true, [⟨31, 31, .w1c, 0⟩, ⟨30, 30, .ro, 0⟩, ⟨29, 29, .ro, 0⟩, ⟨21, 16, .ro, 0⟩, ⟨15, 0, .ro, 0⟩]⟩,
  -- MEM_TAG_ADDR
  ⟨0x400214, [], false, false, false, false, [⟨31, 6, .ro, 0⟩]⟩]

/-- The registers of block MESH (R22). -/
def regsMesh : List RegSpec := [
  -- MESH_CTRL
  ⟨0x500000, [], false, false, false, false, [⟨7, 4, .rw, 0⟩, ⟨3, 0, .rw, 0⟩]⟩,
  -- MESH_INI_TMO
  ⟨0x500004, [], false, false, false, false, [⟨27, 0, .rw, 1048576⟩]⟩,
  -- MESH_MON_CTRL
  ⟨0x500008, [], false, false, false, false, [⟨31, 31, .wo, 0⟩, ⟨4, 0, .rw, 20⟩]⟩,
  -- MESH_ERR_LOG
  ⟨0x500010, [], false, false, false, true, [⟨31, 31, .w1c, 0⟩, ⟨30, 30, .ro, 0⟩, ⟨29, 27, .ro, 0⟩, ⟨26, 22, .ro, 0⟩, ⟨21, 19, .ro, 0⟩, ⟨17, 12, .ro, 0⟩, ⟨11, 6, .ro, 0⟩]⟩,
  -- MESH_TGT_CFG
  ⟨0x501000, [(96, 0x10)], false, false, false, false, [⟨31, 31, .ro, 0⟩, ⟨30, 30, .ro, 0⟩, ⟨23, 0, .rw, 65536⟩]⟩,
  -- MESH_TGT_STAT
  ⟨0x501004, [(96, 0x10)], false, false, false, false, [⟨31, 31, .wo, 0⟩, ⟨30, 30, .ro, 0⟩, ⟨27, 16, .ro, 0⟩, ⟨15, 0, .rc, 0⟩]⟩,
  -- MESH_INI_STAT
  ⟨0x502000, [(48, 0x40)], false, false, false, false, [⟨22, 16, .rc, 0⟩, ⟨14, 8, .ro, 0⟩, ⟨6, 0, .ro, 0⟩]⟩,
  -- MESH_INI_RDB
  ⟨0x502004, [(48, 0x40)], false, false, false, false, [⟨31, 0, .ro, 0⟩]⟩,
  -- MESH_INI_WRB
  ⟨0x502008, [(48, 0x40)], false, false, false, false, [⟨31, 0, .ro, 0⟩]⟩,
  -- MESH_INI_HIST
  ⟨0x504000, [(48, 0x40), (16, 0x4)], false, false, false, false, [⟨31, 0, .ro, 0⟩]⟩]

/-- The registers of block CALLER (R22). -/
def regsCaller : List RegSpec := [
  -- CALLER_CTRL
  ⟨0x600000, [], false, false, false, false, [⟨31, 31, .rw, 0⟩, ⟨30, 30, .rw, 0⟩, ⟨29, 29, .rw, 0⟩]⟩,
  -- CALLER_STAT
  ⟨0x600004, [], true, false, false, false, [⟨31, 31, .ro, 0⟩, ⟨30, 30, .w1c, 0⟩, ⟨29, 29, .ro, 1⟩, ⟨26, 24, .ro, 0⟩, ⟨22, 20, .ro, 0⟩, ⟨15, 0, .ro, 0⟩]⟩,
  -- CALLER_SWAP
  ⟨0x600010, [], false, false, false, false, [⟨31, 31, .wo, 0⟩, ⟨30, 30, .wo, 0⟩, ⟨29, 29, .ro, 0⟩, ⟨28, 28, .ro, 0⟩, ⟨27, 27, .w1c, 0⟩, ⟨26, 25, .rw, 0⟩]⟩,
  -- CALLER_SWAP_ROUND_LO
  ⟨0x600014, [], false, false, false, false, [⟨31, 0, .rw, 0⟩]⟩,
  -- CALLER_SWAP_ROUND_HI
  ⟨0x600018, [], false, false, false, false, [⟨15, 0, .rw, 0⟩]⟩,
  -- CALLER_SPILL_BASE
  ⟨0x600020, [], false, false, false, false, [⟨24, 0, .rw, 0⟩]⟩,
  -- CALLER_TRACE_BASE_LO
  ⟨0x600030, [], false, false, false, false, [⟨31, 12, .rw, 0⟩]⟩,
  -- CALLER_TRACE_BASE_HI
  ⟨0x600034, [], false, false, false, false, [⟨15, 0, .rw, 0⟩]⟩,
  -- CALLER_TRACE_CFG
  ⟨0x600038, [], false, false, false, false, [⟨31, 31, .rw, 0⟩, ⟨30, 30, .rw, 0⟩, ⟨29, 29, .rw, 0⟩, ⟨4, 0, .rw, 16⟩]⟩,
  -- CALLER_TRACE_WR
  ⟨0x60003c, [], false, false, false, false, [⟨31, 0, .ro, 0⟩]⟩,
  -- CALLER_TRACE_RD
  ⟨0x600040, [], false, false, false, false, [⟨31, 0, .rw, 0⟩]⟩,
  -- CALLER_TRACE_LOST
  ⟨0x600044, [], false, false, false, false, [⟨31, 0, .rc, 0⟩]⟩,
  -- CALLER_STALL_LIMIT
  ⟨0x600050, [], false, false, false, false, [⟨23, 0, .rw, 16384⟩]⟩,
  -- CALLER_FAULT_LOG
  ⟨0x600060, [], true, false, false, true, [⟨31, 31, .w1c, 0⟩, ⟨30, 30, .ro, 0⟩, ⟨23, 16, .ro, 0⟩, ⟨13, 0, .ro, 0⟩]⟩,
  -- CALLER_ERR_LOG
  ⟨0x600064, [], true, false, false, true, [⟨31, 31, .w1c, 0⟩, ⟨30, 30, .ro, 0⟩, ⟨29, 28, .ro, 0⟩, ⟨13, 0, .ro, 0⟩]⟩,
  -- CALLER_QPORT_SEL
  ⟨0x600080, [], false, false, false, false, [⟨13, 0, .rw, 0⟩]⟩,
  -- CALLER_QPORT_DATA_LO
  ⟨0x600084, [], false, false, false, false, [⟨31, 0, .rw, 0⟩]⟩,
  -- CALLER_QPORT_DATA_HI
  ⟨0x600088, [], false, false, false, false, [⟨31, 0, .rw, 0⟩]⟩,
  -- CALLER_QPORT_PUSH
  ⟨0x60008c, [], false, false, false, false, [⟨0, 0, .wo, 0⟩]⟩,
  -- CALLER_QPORT_POP
  ⟨0x600090, [], false, false, false, false, [⟨31, 31, .pop, 0⟩, ⟨0, 0, .pop, 0⟩]⟩,
  -- CALLER_DLIST_CFG
  ⟨0x600100, [(8, 0x10)], false, false, false, false, [⟨31, 31, .rw, 0⟩]⟩,
  -- CALLER_DLIST_STAT
  ⟨0x600104, [(8, 0x10)], true, false, false, false, [⟨31, 31, .w1c, 0⟩, ⟨26, 16, .ro, 0⟩, ⟨10, 0, .ro, 0⟩]⟩,
  -- CALLER_TASK_DESC
  ⟨0x620000, [(4096, 0x20), (8, 0x4)], false, false, false, false, [⟨31, 0, .rw, 0⟩]⟩,
  -- CALLER_TASK_ACT
  ⟨0x640000, [(4096, 0x20), (8, 0x4)], false, false, false, false, [⟨31, 0, .ro, 0⟩]⟩,
  -- CALLER_TASK_FLAGS_LO
  ⟨0x660000, [(4096, 0x10)], true, false, false, false, [⟨31, 0, .w1s, 0⟩]⟩,
  -- CALLER_TASK_FLAGS_HI
  ⟨0x660004, [(4096, 0x10)], true, false, false, false, [⟨31, 0, .w1s, 0⟩]⟩,
  -- CALLER_TASK_STATE
  ⟨0x660008, [(4096, 0x10)], true, false, false, false, [⟨31, 31, .wo, 0⟩, ⟨30, 30, .ro, 0⟩, ⟨15, 8, .ro, 0⟩, ⟨2, 0, .ro, 0⟩]⟩,
  -- CALLER_QUEUE_STAT
  ⟨0x670000, [(16384, 0x4)], true, false, false, false, [⟨31, 31, .w1c, 0⟩, ⟨21, 16, .ro, 0⟩, ⟨13, 8, .ro, 0⟩, ⟨5, 0, .ro, 0⟩]⟩,
  -- CALLER_SIG
  ⟨0x680000, [(32768, 0x4)], false, false, false, false, [⟨31, 0, .rw, 0⟩]⟩,
  -- CALLER_SIG_ACT
  ⟨0x6a0000, [(32768, 0x4)], false, false, false, false, [⟨31, 0, .ro, 0⟩]⟩,
  -- CALLER_QUEUE_CFG
  ⟨0x6c0000, [(16384, 0x8), (2, 0x4)], false, false, false, false, [⟨31, 0, .rw, 0⟩]⟩,
  -- CALLER_QUEUE_ACT
  ⟨0x6e0000, [(16384, 0x8), (2, 0x4)], false, false, false, false, [⟨31, 0, .ro, 0⟩]⟩]

/-- The registers of block LATTICE (R22). -/
def regsLattice : List RegSpec := [
  -- LAT_NODE
  ⟨0x700000, [], false, false, false, false, [⟨31, 31, .rw, 0⟩, ⟨11, 0, .rw, 0⟩]⟩,
  -- LAT_CTRL
  ⟨0x700004, [], false, false, false, false, [⟨31, 31, .rw, 0⟩, ⟨27, 24, .rw, 0⟩, ⟨16, 0, .rw, 16⟩]⟩,
  -- LAT_CMD
  ⟨0x700008, [], false, false, false, false, [⟨31, 28, .wo, 0⟩, ⟨15, 0, .wo, 0⟩]⟩,
  -- LAT_STAT
  ⟨0x70000c, [], false, false, false, false, [⟨31, 29, .ro, 0⟩, ⟨28, 28, .ro, 0⟩, ⟨27, 27, .ro, 0⟩, ⟨26, 26, .w1c, 0⟩, ⟨25, 25, .w1c, 0⟩, ⟨24, 24, .ro, 0⟩, ⟨15, 0, .ro, 0⟩]⟩,
  -- LAT_ROUND_LO
  ⟨0x700010, [], true, false, false, false, [⟨31, 0, .rw, 0⟩]⟩,
  -- LAT_ROUND_HI
  ⟨0x700014, [], true, false, false, false, [⟨15, 0, .rw, 0⟩]⟩,
  -- LAT_STOP_LO
  ⟨0x700018, [], true, false, false, false, [⟨31, 0, .rw, 0⟩]⟩,
  -- LAT_STOP_HI
  ⟨0x70001c, [], true, false, false, false, [⟨15, 0, .rw, 0⟩]⟩,
  -- LAT_LEAD
  ⟨0x700020, [], false, false, false, false, [⟨31, 16, .rw, 64⟩, ⟨15, 0, .rw, 74⟩]⟩,
  -- LAT_LOSS_TMO
  ⟨0x700024, [], false, false, false, false, [⟨15, 0, .rw, 10000⟩]⟩,
  -- LAT_BOW_FENCE_LO
  ⟨0x700028, [], false, false, false, false, [⟨31, 0, .rw, 0⟩]⟩,
  -- LAT_BOW_FENCE_HI
  ⟨0x70002c, [], false, false, false, false, [⟨15, 0, .rw, 0⟩]⟩,
  -- LAT_SECTOR_RST
  ⟨0x700030, [], true, false, false, false, [⟨15, 0, .w1s, 0⟩]⟩,
  -- LAT_LAST_LEN
  ⟨0x700034, [], true, false, false, false, [⟨16, 0, .ro, 0⟩]⟩,
  -- LAT_MAX_LEN
  ⟨0x700038, [], true, false, false, false, [⟨16, 0, .rc, 0⟩]⟩,
  -- LAT_ERR_LOG
  ⟨0x700040, [], true, false, false, true, [⟨31, 31, .w1c, 0⟩, ⟨30, 30, .ro, 0⟩, ⟨24, 24, .ro, 0⟩, ⟨23, 16, .ro, 0⟩, ⟨15, 12, .ro, 0⟩, ⟨11, 0, .ro, 0⟩]⟩,
  -- LAT_PEER
  ⟨0x701000, [(64, 0x8)], false, false, false, false, [⟨31, 31, .rw, 0⟩, ⟨11, 0, .rw, 0⟩]⟩,
  -- LAT_PEER_STAT
  ⟨0x701004, [(64, 0x8)], true, false, false, false, [⟨31, 31, .w1c, 0⟩, ⟨30, 30, .ro, 0⟩, ⟨29, 29, .ro, 0⟩, ⟨28, 28, .ro, 0⟩, ⟨23, 22, .ro, 0⟩, ⟨21, 16, .ro, 0⟩, ⟨1, 0, .ro, 0⟩]⟩,
  -- LAT_ROUTE
  ⟨0x704000, [(4096, 0x4)], false, false, false, false, [⟨31, 31, .rw, 0⟩, ⟨3, 0, .rw, 0⟩]⟩]

/-- The registers of block GLEIS (R22). -/
def regsGleis : List RegSpec := [
  -- GLS_BEAT_CFG
  ⟨0x800000, [], false, false, false, false, [⟨19, 0, .rw, 15000⟩]⟩,
  -- GLS_UP
  ⟨0x800004, [], false, false, false, false, [⟨31, 16, .ro, 0⟩, ⟨15, 0, .ro, 0⟩]⟩,
  -- GLS_CTRL
  ⟨0x810000, [(16, 0x1000)], false, false, false, false, [⟨31, 31, .rw, 0⟩, ⟨30, 30, .rw, 1⟩, ⟨29, 29, .rw, 0⟩, ⟨28, 28, .wo, 0⟩, ⟨27, 27, .wo, 0⟩, ⟨26, 26, .wo, 0⟩, ⟨3, 0, .rw, 0⟩]⟩,
  -- GLS_STAT
  ⟨0x810004, [(16, 0x1000)], false, false, false, false, [⟨31, 31, .ro, 0⟩, ⟨30, 27, .ro, 0⟩, ⟨26, 26, .ro, 0⟩, ⟨25, 25, .ro, 0⟩, ⟨23, 20, .ro, 15⟩, ⟨19, 16, .ro, 15⟩, ⟨15, 8, .ro, 0⟩, ⟨7, 0, .ro, 0⟩]⟩,
  -- GLS_PEER_ID
  ⟨0x810008, [(16, 0x1000)], false, false, false, false, [⟨31, 31, .ro, 0⟩, ⟨19, 16, .ro, 0⟩, ⟨11, 0, .ro, 0⟩]⟩,
  -- GLS_LINK_CFG
  ⟨0x81000c, [(16, 0x1000)], false, false, false, false, [⟨31, 24, .rw, 8⟩, ⟨23, 16, .rw, 32⟩, ⟨15, 8, .rw, 16⟩, ⟨7, 0, .rw, 16⟩]⟩,
  -- GLS_DEGRADE
  ⟨0x810010, [(16, 0x1000)], false, false, false, false, [⟨15, 0, .rw, 16⟩]⟩,
  -- GLS_EVT
  ⟨0x810014, [(16, 0x1000)], false, false, false, false, [⟨8, 8, .w1c, 0⟩, ⟨7, 7, .w1c, 0⟩, ⟨6, 6, .w1c, 0⟩, ⟨5, 5, .w1c, 0⟩, ⟨4, 4, .w1c, 0⟩, ⟨3, 3, .w1c, 0⟩, ⟨2, 2, .w1c, 0⟩, ⟨1, 1, .w1c, 0⟩, ⟨0, 0, .w1c, 0⟩]⟩,
  -- GLS_SEQ
  ⟨0x810018, [(16, 0x1000)], false, false, false, false, [⟨31, 24, .ro, 0⟩, ⟨23, 16, .ro, 0⟩, ⟨15, 8, .ro, 0⟩]⟩,
  -- GLS_POOL
  ⟨0x81001c, [(16, 0x1000)], false, false, false, false, [⟨31, 24, .ro, 0⟩, ⟨23, 17, .ro, 0⟩, ⟨16, 10, .ro, 0⟩, ⟨9, 6, .ro, 0⟩, ⟨5, 3, .ro, 0⟩, ⟨2, 0, .ro, 0⟩]⟩,
  -- GLS_CNT_RETRY
  ⟨0x810020, [(16, 0x1000)], false, false, false, false, [⟨31, 0, .rc, 0⟩]⟩,
  -- GLS_CNT_DISCARD
  ⟨0x810024, [(16, 0x1000)], false, false, false, false, [⟨31, 0, .rc, 0⟩]⟩,
  -- GLS_CNT_FLUSH
  ⟨0x810028, [(16, 0x1000)], false, false, false, false, [⟨31, 0, .rc, 0⟩]⟩,
  -- GLS_EYE_CTRL
  ⟨0x810040, [(16, 0x1000)], false, false, false, false, [⟨31, 31, .wo, 0⟩, ⟨27, 24, .rw, 0⟩, ⟨20, 16, .rw, 20⟩, ⟨13, 8, .rw, 32⟩, ⟨6, 0, .rw, 64⟩]⟩,
  -- GLS_EYE_STAT
  ⟨0x810044, [(16, 0x1000)], false, false, false, false, [⟨31, 31, .ro, 0⟩, ⟨30, 30, .w1c, 0⟩, ⟨29, 29, .w1c, 0⟩, ⟨23, 0, .ro, 0⟩]⟩,
  -- GLS_LANE_STAT
  ⟨0x810100, [(16, 0x1000), (9, 0x20)], false, false, false, false, [⟨31, 31, .ro, 1⟩, ⟨30, 30, .ro, 0⟩, ⟨29, 29, .ro, 0⟩, ⟨28, 28, .ro, 0⟩, ⟨27, 27, .ro, 0⟩, ⟨26, 24, .ro, 0⟩, ⟨23, 20, .ro, 0⟩, ⟨19, 16, .ro, 0⟩, ⟨3, 0, .ro, 0⟩]⟩,
  -- GLS_LANE_CTRL
  ⟨0x810104, [(16, 0x1000), (9, 0x20)], false, false, false, false, [⟨31, 31, .wo, 0⟩, ⟨30, 30, .rw, 0⟩, ⟨29, 29, .rw, 0⟩, ⟨28, 28, .rw, 0⟩, ⟨27, 24, .rw, 0⟩, ⟨13, 10, .rw, 8⟩, ⟨9, 5, .rw, 6⟩, ⟨4, 0, .rw, 2⟩]⟩,
  -- GLS_LANE_DFE
  ⟨0x810108, [(16, 0x1000), (9, 0x20), (3, 0x4)], false, false, false, false, [⟨31, 24, .rw, 0⟩, ⟨23, 16, .rw, 0⟩, ⟨15, 8, .rw, 0⟩, ⟨7, 0, .rw, 0⟩]⟩,
  -- GLS_LANE_ERR
  ⟨0x810114, [(16, 0x1000), (9, 0x20)], false, false, false, false, [⟨31, 16, .rc, 0⟩, ⟨15, 0, .rc, 0⟩]⟩]

/-- The registers of block TAIL (R22). -/
def regsTail : List RegSpec := [
  -- TAIL_CTRL
  ⟨0x900000, [], false, false, false, false, [⟨31, 31, .rw, 0⟩, ⟨30, 30, .rw, 0⟩, ⟨15, 12, .rw, 2⟩, ⟨7, 0, .rw, 4⟩]⟩,
  -- TAIL_SPOOL_BASE
  ⟨0x900004, [], false, false, false, false, [⟨23, 0, .rw, 0⟩]⟩,
  -- TAIL_SPOOL_SLOTS
  ⟨0x900008, [], false, false, false, false, [⟨8, 0, .rw, 0⟩]⟩,
  -- TAIL_CAP_CTRL
  ⟨0x900010, [], false, false, false, false, [⟨31, 31, .wo, 0⟩, ⟨30, 29, .rw, 0⟩]⟩,
  -- TAIL_CAP_ROUND_LO
  ⟨0x900014, [], false, false, false, false, [⟨31, 0, .rw, 0⟩]⟩,
  -- TAIL_CAP_ROUND_HI
  ⟨0x900018, [], false, false, false, false, [⟨15, 0, .rw, 0⟩]⟩,
  -- TAIL_CAP_PERIOD
  ⟨0x90001c, [], false, false, false, false, [⟨31, 0, .rw, 0⟩]⟩,
  -- TAIL_CAP_STAT
  ⟨0x900020, [], false, false, false, false, [⟨31, 31, .ro, 0⟩, ⟨30, 30, .ro, 0⟩, ⟨29, 29, .w1c, 0⟩, ⟨28, 28, .ro, 0⟩, ⟨23, 16, .ro, 0⟩, ⟨15, 8, .ro, 0⟩, ⟨7, 0, .ro, 0⟩]⟩,
  -- TAIL_REEL_CTRL
  ⟨0x900040, [], false, false, false, false, [⟨31, 31, .wo, 0⟩, ⟨30, 30, .wo, 0⟩, ⟨7, 0, .rw, 0⟩]⟩,
  -- TAIL_REEL_STAT
  ⟨0x900044, [], false, false, false, false, [⟨31, 29, .ro, 0⟩, ⟨23, 16, .ro, 0⟩, ⟨15, 0, .ro, 0⟩]⟩,
  -- TAIL_ERR_LOG
  ⟨0x900050, [], false, false, false, true, [⟨31, 31, .w1c, 0⟩, ⟨30, 30, .ro, 0⟩, ⟨29, 28, .ro, 0⟩, ⟨15, 0, .ro, 0⟩]⟩,
  -- TAIL_ERR_ADDR
  ⟨0x900054, [], false, false, false, false, [⟨31, 0, .ro, 0⟩]⟩,
  -- TAIL_EXP_CTRL
  ⟨0x900060, [], false, false, false, false, [⟨31, 31, .wo, 0⟩, ⟨30, 30, .rw, 0⟩, ⟨29, 29, .wo, 0⟩, ⟨15, 8, .rw, 0⟩, ⟨7, 0, .rw, 0⟩]⟩,
  -- TAIL_EXP_ADDR
  ⟨0x900064, [], false, false, false, false, [⟨31, 0, .rw, 0⟩]⟩,
  -- TAIL_EXP_STAT
  ⟨0x900068, [], false, false, false, false, [⟨31, 31, .ro, 0⟩, ⟨30, 30, .w1c, 0⟩, ⟨29, 29, .w1c, 0⟩, ⟨15, 8, .ro, 0⟩, ⟨7, 0, .ro, 0⟩]⟩,
  -- TAIL_CAT_STAT
  ⟨0x910000, [(256, 0x10)], false, false, false, false, [⟨31, 29, .ro, 0⟩, ⟨28, 28, .rw, 0⟩, ⟨27, 27, .wo, 0⟩, ⟨26, 26, .ro, 0⟩, ⟨25, 25, .ro, 0⟩, ⟨24, 22, .ro, 0⟩]⟩,
  -- TAIL_CAT_ROUND_LO
  ⟨0x910004, [(256, 0x10)], false, false, false, false, [⟨31, 0, .ro, 0⟩]⟩,
  -- TAIL_CAT_ROUND_HI
  ⟨0x910008, [(256, 0x10)], false, false, false, false, [⟨15, 0, .ro, 0⟩]⟩,
  -- TAIL_CAT_SEQ
  ⟨0x91000c, [(256, 0x10)], false, false, false, false, [⟨31, 0, .ro, 0⟩]⟩,
  -- TAIL_TRG_CFG
  ⟨0x920000, [(64, 0x40)], false, false, false, false, [⟨31, 31, .rw, 0⟩, ⟨30, 30, .wo, 0⟩, ⟨29, 29, .rw, 0⟩, ⟨28, 27, .rw, 0⟩, ⟨26, 26, .rw, 0⟩, ⟨25, 24, .rw, 0⟩, ⟨23, 22, .rw, 0⟩, ⟨21, 16, .rw, 0⟩, ⟨15, 8, .rw, 1⟩, ⟨7, 7, .rw, 0⟩, ⟨6, 6, .rw, 0⟩, ⟨5, 5, .rw, 0⟩, ⟨4, 4, .rw, 0⟩, ⟨3, 3, .rw, 0⟩, ⟨2, 0, .rw, 0⟩]⟩,
  -- TAIL_TRG_SEL
  ⟨0x920004, [(64, 0x40)], false, false, false, false, [⟨31, 29, .rw, 0⟩, ⟨12, 0, .rw, 0⟩]⟩,
  -- TAIL_TRG_MASK_LO
  ⟨0x920008, [(64, 0x40)], false, false, false, false, [⟨31, 0, .rw, 0⟩]⟩,
  -- TAIL_TRG_MASK_HI
  ⟨0x92000c, [(64, 0x40)], false, false, false, false, [⟨31, 0, .rw, 0⟩]⟩,
  -- TAIL_TRG_VAL_LO
  ⟨0x920010, [(64, 0x40)], false, false, false, false, [⟨31, 0, .rw, 0⟩]⟩,
  -- TAIL_TRG_VAL_HI
  ⟨0x920014, [(64, 0x40)], false, false, false, false, [⟨31, 0, .rw, 0⟩]⟩,
  -- TAIL_TRG_WIN_START_LO
  ⟨0x920018, [(64, 0x40)], false, false, false, false, [⟨31, 0, .rw, 0⟩]⟩,
  -- TAIL_TRG_WIN_END_LO
  ⟨0x92001c, [(64, 0x40)], false, false, false, false, [⟨31, 0, .rw, 0⟩]⟩,
  -- TAIL_TRG_WIN_HI
  ⟨0x920020, [(64, 0x40)], false, false, false, false, [⟨31, 16, .rw, 0⟩, ⟨15, 0, .rw, 0⟩]⟩,
  -- TAIL_TRG_STAT
  ⟨0x920024, [(64, 0x40)], false, false, false, false, [⟨31, 31, .w1c, 0⟩, ⟨30, 30, .ro, 0⟩, ⟨15, 0, .ro, 0⟩]⟩,
  -- TAIL_RING_CFG
  ⟨0x930000, [(8, 0x20)], false, false, false, false, [⟨31, 31, .rw, 0⟩, ⟨30, 30, .rw, 0⟩, ⟨29, 29, .rw, 0⟩, ⟨28, 27, .rw, 0⟩, ⟨26, 26, .ro, 0⟩, ⟨25, 16, .rw, 0⟩, ⟨4, 0, .rw, 16⟩]⟩,
  -- TAIL_RING_SEL
  ⟨0x930004, [(8, 0x20)], false, false, false, false, [⟨31, 29, .rw, 0⟩, ⟨12, 0, .rw, 0⟩]⟩,
  -- TAIL_RING_BASE_LO
  ⟨0x930008, [(8, 0x20)], false, false, false, false, [⟨31, 12, .rw, 0⟩]⟩,
  -- TAIL_RING_BASE_HI
  ⟨0x93000c, [(8, 0x20)], false, false, false, false, [⟨15, 0, .rw, 0⟩]⟩,
  -- TAIL_RING_WR
  ⟨0x930010, [(8, 0x20)], false, false, false, false, [⟨31, 0, .ro, 0⟩]⟩,
  -- TAIL_RING_RD
  ⟨0x930014, [(8, 0x20)], false, false, false, false, [⟨31, 0, .rw, 0⟩]⟩,
  -- TAIL_RING_LOST
  ⟨0x930018, [(8, 0x20)], false, false, false, false, [⟨31, 0, .rc, 0⟩]⟩]

/-- The registers of block BALLAST (R22). -/
def regsBallast : List RegSpec := [
  -- BAL_CTRL
  ⟨0xa00000, [], false, false, false, false, [⟨31, 31, .rw, 1⟩, ⟨30, 30, .rw, 1⟩, ⟨24, 16, .rw, 480⟩, ⟨8, 0, .rw, 480⟩]⟩,
  -- BAL_STAT
  ⟨0xa00004, [], false, false, false, false, [⟨31, 31, .ro, 0⟩, ⟨30, 30, .ro, 0⟩, ⟨29, 29, .ro, 0⟩, ⟨28, 28, .w1c, 0⟩, ⟨27, 27, .w1c, 0⟩, ⟨17, 9, .ro, 480⟩]⟩,
  -- BAL_RSV
  ⟨0xa00008, [], false, false, false, false, [⟨24, 16, .rw, 8⟩, ⟨8, 0, .rw, 48⟩]⟩,
  -- BAL_DROOP_CFG
  ⟨0xa0000c, [], false, false, false, false, [⟨23, 16, .rw, 64⟩, ⟨15, 8, .rw, 15⟩, ⟨7, 0, .rw, 45⟩]⟩,
  -- BAL_DROOP_STAT
  ⟨0xa00010, [], false, false, false, false, [⟨31, 16, .rc, 0⟩, ⟨2, 0, .ro, 0⟩]⟩,
  -- BAL_THERM_CFG
  ⟨0xa00014, [], false, false, false, false, [⟨31, 24, .rw, 0⟩, ⟨23, 16, .rw, 0⟩, ⟨7, 0, .rw, 16⟩]⟩,
  -- BAL_THERM_STAT
  ⟨0xa00018, [], false, false, false, false, [⟨31, 24, .ro, 0⟩, ⟨23, 16, .ro, 0⟩, ⟨2, 0, .ro, 0⟩]⟩,
  -- BAL_PWR_REQ
  ⟨0xa00100, [], false, false, false, false, [⟨31, 31, .wo, 0⟩, ⟨1, 0, .rw, 0⟩]⟩,
  -- BAL_PWR_STAT
  ⟨0xa00104, [], false, false, false, false, [⟨31, 31, .ro, 0⟩, ⟨30, 30, .ro, 0⟩, ⟨29, 28, .ro, 0⟩, ⟨27, 26, .ro, 0⟩, ⟨25, 24, .ro, 0⟩, ⟨23, 23, .w1c, 0⟩, ⟨11, 8, .ro, 0⟩, ⟨2, 0, .ro, 0⟩]⟩,
  -- BAL_LAT_TOL
  ⟨0xa00108, [], false, false, false, false, [⟨19, 0, .rw, 0⟩]⟩,
  -- BAL_LTR
  ⟨0xa0010c, [], false, false, true, false, [⟨31, 31, .ro, 0⟩, ⟨19, 0, .ro, 0⟩]⟩,
  -- BAL_PWR_CFG
  ⟨0xa00110, [], false, false, false, false, [⟨15, 0, .rw, 8⟩]⟩,
  -- BAL_KEEP
  ⟨0xa00114, [], false, false, false, false, [⟨16, 16, .rw, 1⟩, ⟨15, 0, .rw, 0⟩]⟩,
  -- BAL_CON_CFG
  ⟨0xa01000, [(19, 0x20)], false, false, false, false, [⟨24, 16, .rw, 8⟩, ⟨15, 12, .rw, 1⟩, ⟨7, 0, .rw, 4⟩]⟩,
  -- BAL_CON_RES
  ⟨0xa01004, [(19, 0x20)], false, false, false, false, [⟨23, 0, .rw, 0⟩]⟩,
  -- BAL_CON_GRANT
  ⟨0xa01008, [(19, 0x20)], false, false, false, false, [⟨24, 16, .ro, 0⟩, ⟨8, 0, .ro, 0⟩]⟩,
  -- BAL_CON_ALLOW
  ⟨0xa0100c, [(19, 0x20)], false, false, false, false, [⟨31, 0, .ro, 0⟩]⟩,
  -- BAL_CON_USED
  ⟨0xa01010, [(19, 0x20)], false, false, false, false, [⟨31, 0, .ro, 0⟩]⟩,
  -- BAL_CON_STAT
  ⟨0xa01014, [(19, 0x20)], false, false, false, false, [⟨31, 31, .w1c, 0⟩, ⟨30, 30, .w1c, 0⟩, ⟨15, 0, .rc, 0⟩]⟩]

/-- The registers of block SECURITY (R22). -/
def regsSecurity : List RegSpec := [
  -- SEC_STATE
  ⟨0xb00000, [], false, false, false, false, [⟨31, 30, .ro, 0⟩, ⟨29, 29, .ro, 0⟩, ⟨28, 27, .ro, 0⟩]⟩,
  -- SEC_ALARM
  ⟨0xb00004, [], false, false, false, false, [⟨31, 31, .wo, 0⟩, ⟨6, 0, .w1c, 0⟩]⟩,
  -- SEC_ALARM_CFG
  ⟨0xb00008, [], false, false, false, false, [⟨6, 0, .rw, 127⟩]⟩,
  -- SEC_LOCK_STAT
  ⟨0xb00010, [], false, false, false, false, [⟨31, 31, .w1c, 0⟩, ⟨13, 8, .ro, 0⟩, ⟨1, 0, .ro, 0⟩]⟩,
  -- SEC_FUSE_CMD
  ⟨0xb00020, [], false, false, false, false, [⟨31, 28, .wo, 0⟩, ⟨1, 0, .wo, 0⟩]⟩,
  -- SEC_FUSE_STAT
  ⟨0xb00024, [], false, false, false, false, [⟨31, 31, .ro, 0⟩, ⟨30, 30, .w1c, 0⟩, ⟨29, 27, .ro, 0⟩, ⟨26, 20, .ro, 0⟩, ⟨19, 16, .ro, 0⟩, ⟨15, 12, .ro, 0⟩, ⟨11, 11, .ro, 0⟩, ⟨10, 8, .ro, 0⟩]⟩,
  -- SEC_KEY_CMD
  ⟨0xb00030, [], false, false, false, false, [⟨31, 28, .wo, 0⟩, ⟨2, 0, .wo, 0⟩]⟩,
  -- SEC_KEY_DATA
  ⟨0xb00040, [(12, 0x4)], false, false, false, false, [⟨31, 0, .wo, 0⟩]⟩,
  -- SEC_AUTH_STAT
  ⟨0xb00080, [], false, false, false, false, [⟨31, 31, .ro, 0⟩, ⟨30, 30, .ro, 0⟩, ⟨29, 27, .ro, 0⟩, ⟨3, 0, .ro, 0⟩]⟩]

/-- The registers of block HOSTIF (R22). -/
def regsHostif : List RegSpec := [
  -- HIF_LINK_STAT
  ⟨0xc00000, [], false, false, false, false, [⟨31, 31, .ro, 0⟩, ⟨30, 30, .w1c, 0⟩, ⟨23, 20, .ro, 0⟩, ⟨19, 15, .ro, 0⟩]⟩,
  -- HIF_ERR_LOG
  ⟨0xc00010, [], false, false, false, true, [⟨31, 31, .w1c, 0⟩, ⟨30, 30, .ro, 0⟩, ⟨29, 29, .ro, 0⟩, ⟨28, 28, .ro, 0⟩, ⟨27, 24, .ro, 0⟩, ⟨23, 16, .ro, 0⟩, ⟨15, 0, .ro, 0⟩]⟩,
  -- HIF_ERR_ADDR
  ⟨0xc00014, [], false, false, false, false, [⟨31, 0, .ro, 0⟩]⟩,
  -- HIF_IRQ_STAT
  ⟨0xc00100, [(16, 0x4)], false, false, false, false, [⟨31, 0, .w1c, 0⟩]⟩,
  -- HIF_IRQ_ROUTE
  ⟨0xc01000, [(512, 0x4)], false, false, false, false, [⟨31, 31, .rw, 0⟩, ⟨10, 0, .rw, 0⟩]⟩,
  -- HIF_RING_CFG
  ⟨0xc20000, [(1024, 0x20)], false, false, true, false, [⟨31, 31, .rw, 0⟩, ⟨26, 16, .rw, 0⟩, ⟨4, 0, .rw, 4⟩]⟩,
  -- HIF_RING_BASE_LO
  ⟨0xc20004, [(1024, 0x20)], false, false, true, false, [⟨31, 12, .rw, 0⟩]⟩,
  -- HIF_RING_BASE_HI
  ⟨0xc20008, [(1024, 0x20)], false, false, true, false, [⟨31, 0, .rw, 0⟩]⟩,
  -- HIF_RING_WB_LO
  ⟨0xc2000c, [(1024, 0x20)], false, false, true, false, [⟨31, 2, .rw, 0⟩]⟩,
  -- HIF_RING_WB_HI
  ⟨0xc20010, [(1024, 0x20)], false, false, true, false, [⟨31, 0, .rw, 0⟩]⟩,
  -- HIF_RING_PTR
  ⟨0xc20014, [(1024, 0x20)], false, false, true, false, [⟨31, 16, .ro, 0⟩, ⟨15, 0, .ro, 0⟩]⟩,
  -- HIF_RING_STAT
  ⟨0xc20018, [(1024, 0x20)], false, false, true, false, [⟨31, 31, .ro, 0⟩, ⟨30, 30, .w1c, 0⟩, ⟨27, 24, .ro, 0⟩]⟩,
  -- HIF_DOORBELL
  ⟨0xc40000, [(1024, 0x4)], false, false, true, false, [⟨15, 0, .wo, 0⟩]⟩]

/-- The registers of block PINS (R22). -/
def regsPins : List RegSpec := [
  -- PIN_GPIO_OUT
  ⟨0xd00000, [(5, 0x10)], false, false, false, false, [⟨31, 0, .rw, 0⟩]⟩,
  -- PIN_GPIO_SET
  ⟨0xd00004, [(5, 0x10)], false, false, false, false, [⟨31, 0, .wo, 0⟩]⟩,
  -- PIN_GPIO_CLR
  ⟨0xd00008, [(5, 0x10)], false, false, false, false, [⟨31, 0, .wo, 0⟩]⟩,
  -- PIN_GPIO_IN
  ⟨0xd0000c, [(5, 0x10)], false, false, false, false, [⟨31, 0, .ro, 0⟩]⟩,
  -- PIN_GPIO_OE
  ⟨0xd00080, [(5, 0x4)], false, false, false, false, [⟨31, 0, .rw, 0⟩]⟩,
  -- PIN_PERIPH_EN
  ⟨0xd00100, [], false, false, false, false, [⟨8, 5, .rw, 0⟩, ⟨4, 4, .rw, 0⟩, ⟨3, 3, .rw, 0⟩, ⟨2, 2, .rw, 0⟩, ⟨1, 1, .rw, 0⟩, ⟨0, 0, .rw, 0⟩]⟩,
  -- PIN_BANK_STAT
  ⟨0xd00104, [], false, false, false, false, [⟨9, 5, .ro, 0⟩, ⟨4, 0, .ro, 0⟩]⟩,
  -- PIN_CFG
  ⟨0xd01000, [(160, 0x4)], false, false, false, false, [⟨31, 31, .rw, 0⟩, ⟨30, 28, .ro, 0⟩, ⟨9, 9, .rw, 1⟩, ⟨8, 8, .rw, 0⟩, ⟨7, 6, .rw, 0⟩, ⟨5, 4, .rw, 1⟩, ⟨3, 3, .rw, 0⟩]⟩,
  -- UART_CTRL
  ⟨0xd02000, [(2, 0x10)], false, false, false, false, [⟨31, 31, .w1c, 0⟩, ⟨30, 30, .ro, 1⟩, ⟨29, 25, .ro, 0⟩, ⟨20, 20, .rw, 0⟩, ⟨19, 18, .rw, 0⟩, ⟨17, 17, .rw, 0⟩, ⟨16, 16, .rw, 0⟩, ⟨15, 0, .rw, 53⟩]⟩,
  -- UART_DATA
  ⟨0xd02004, [(2, 0x10)], false, false, false, false, [⟨31, 31, .pop, 0⟩, ⟨30, 30, .pop, 0⟩, ⟨7, 0, .pop, 0⟩]⟩,
  -- UART_TX
  ⟨0xd02008, [(2, 0x10)], false, false, false, false, [⟨7, 0, .wo, 0⟩]⟩,
  -- I2C_CMD
  ⟨0xd02100, [(2, 0x10)], false, false, false, false, [⟨31, 31, .ro, 0⟩, ⟨30, 30, .ro, 0⟩, ⟨29, 29, .w1c, 0⟩, ⟨28, 28, .w1c, 0⟩, ⟨27, 27, .rw, 0⟩, ⟨26, 24, .wo, 0⟩, ⟨7, 0, .rw, 0⟩]⟩,
  -- SPI_CTRL
  ⟨0xd02200, [], false, false, false, false, [⟨31, 31, .ro, 0⟩, ⟨30, 26, .ro, 0⟩, ⟨25, 24, .rw, 0⟩, ⟨23, 22, .rw, 0⟩, ⟨21, 21, .rw, 0⟩, ⟨20, 20, .rw, 0⟩, ⟨19, 19, .rw, 0⟩, ⟨7, 0, .rw, 0⟩]⟩,
  -- SPI_DATA
  ⟨0xd02204, [], false, false, false, false, [⟨31, 31, .pop, 0⟩, ⟨7, 0, .pop, 0⟩]⟩,
  -- SPI_TX
  ⟨0xd02208, [], false, false, false, false, [⟨7, 0, .wo, 0⟩]⟩,
  -- TRIG_CFG
  ⟨0xd02300, [(4, 0x4)], false, false, false, false, [⟨31, 31, .rw, 0⟩, ⟨30, 29, .rw, 0⟩, ⟨23, 16, .rw, 9⟩]⟩,
  -- TRIG_UNITS_LO
  ⟨0xd02310, [(4, 0x8)], false, false, false, false, [⟨31, 0, .rw, 0⟩]⟩,
  -- TRIG_UNITS_HI
  ⟨0xd02314, [(4, 0x8)], false, false, false, false, [⟨31, 0, .rw, 0⟩]⟩,
  -- GDL_STAT
  ⟨0xd04000, [], false, false, false, false, [⟨31, 31, .ro, 0⟩, ⟨30, 30, .ro, 0⟩, ⟨29, 29, .w1c, 0⟩, ⟨28, 28, .w1c, 0⟩, ⟨27, 27, .ro, 0⟩, ⟨23, 16, .ro, 0⟩]⟩,
  -- GDL_LIFE
  ⟨0xd04004, [], false, false, false, false, [⟨31, 16, .ro, 0⟩, ⟨15, 0, .ro, 0⟩]⟩,
  -- GDL_XFER_CTRL
  ⟨0xd04010, [], false, false, false, false, [⟨31, 31, .wo, 0⟩, ⟨30, 30, .rw, 0⟩, ⟨29, 29, .wo, 0⟩, ⟨23, 0, .rw, 0⟩]⟩,
  -- GDL_XFER_GADDR
  ⟨0xd04014, [], false, false, false, false, [⟨31, 0, .rw, 0⟩]⟩,
  -- GDL_XFER_HBM
  ⟨0xd04018, [], false, false, false, false, [⟨31, 0, .rw, 0⟩]⟩,
  -- GDL_ID
  ⟨0xd04040, [(16, 0x4)], false, false, false, false, [⟨31, 0, .ro, 0⟩]⟩]

/-- The registers of block TETHER (R22). -/
def regsTether : List RegSpec := [
  -- TET_CTRL
  ⟨0xe00000, [], false, false, false, false, [⟨31, 31, .rw, 0⟩, ⟨30, 30, .rw, 0⟩, ⟨27, 16, .rw, 1080⟩, ⟨7, 0, .rw, 20⟩]⟩,
  -- TET_STAT
  ⟨0xe00004, [], false, false, false, false, [⟨31, 30, .ro, 0⟩, ⟨29, 28, .ro, 0⟩, ⟨23, 12, .ro, 0⟩, ⟨7, 0, .rc, 0⟩]⟩,
  -- TET_CKOUT
  ⟨0xe00010, [(2, 0x4)], false, false, false, false, [⟨31, 30, .rw, 0⟩, ⟨15, 0, .rw, 2⟩]⟩,
  -- TET_CKIN
  ⟨0xe00020, [(2, 0x4)], false, false, false, false, [⟨17, 0, .ro, 0⟩]⟩,
  -- TET_IN_LO
  ⟨0xe80000, [], false, false, false, false, [⟨31, 0, .ro, 0⟩]⟩,
  -- TET_IN_HI
  ⟨0xe80004, [], false, false, false, false, [⟨31, 0, .ro, 0⟩]⟩,
  -- TET_OUT_LO
  ⟨0xe80008, [], false, false, false, false, [⟨31, 0, .rw, 0⟩]⟩,
  -- TET_OUT_HI
  ⟨0xe8000c, [], false, false, false, false, [⟨31, 0, .rw, 0⟩]⟩,
  -- TET_OE_LO
  ⟨0xe80010, [], false, false, false, false, [⟨31, 0, .rw, 0⟩]⟩,
  -- TET_OE_HI
  ⟨0xe80014, [], false, false, false, false, [⟨31, 0, .rw, 0⟩]⟩]

/-- The registers of block DEBUG (R22). -/
def regsDebug : List RegSpec := [
  -- DBG_CTRL
  ⟨0xf00000, [], false, false, false, false, [⟨31, 31, .wo, 0⟩, ⟨30, 30, .wo, 0⟩, ⟨29, 29, .ro, 0⟩, ⟨28, 28, .rw, 0⟩, ⟨27, 27, .ro, 0⟩]⟩,
  -- DBG_STAT
  ⟨0xf00004, [], false, false, false, false, [⟨31, 31, .w1c, 0⟩, ⟨23, 17, .ro, 0⟩, ⟨16, 0, .ro, 0⟩]⟩,
  -- DBG_XTRIG
  ⟨0xf00008, [], false, false, false, false, [⟨31, 31, .rw, 0⟩, ⟨30, 30, .rw, 0⟩, ⟨29, 29, .rw, 0⟩, ⟨16, 0, .rw, 0⟩]⟩,
  -- DBG_CORE_CTRL
  ⟨0xf01000, [(17, 0x100)], false, false, false, false, [⟨31, 31, .wo, 0⟩, ⟨30, 30, .wo, 0⟩, ⟨29, 29, .wo, 0⟩, ⟨28, 28, .rw, 0⟩, ⟨27, 27, .rw, 0⟩, ⟨26, 26, .rw, 0⟩]⟩,
  -- DBG_CORE_STAT
  ⟨0xf01004, [(17, 0x100)], false, false, false, false, [⟨31, 31, .ro, 0⟩, ⟨30, 30, .w1c, 0⟩, ⟨29, 29, .w1c, 0⟩, ⟨28, 28, .w1c, 0⟩, ⟨27, 24, .ro, 0⟩, ⟨23, 21, .ro, 0⟩, ⟨20, 20, .ro, 0⟩, ⟨19, 16, .ro, 0⟩, ⟨15, 0, .ro, 0⟩]⟩,
  -- DBG_CORE_PC
  ⟨0xf01008, [(17, 0x100)], false, false, false, false, [⟨16, 16, .rw, 0⟩, ⟨15, 0, .rw, 0⟩]⟩,
  -- DBG_CORE_INSN
  ⟨0xf0100c, [(17, 0x100)], false, false, false, false, [⟨31, 0, .wo, 0⟩]⟩,
  -- DBG_CORE_RSEL
  ⟨0xf01010, [(17, 0x100)], false, false, false, false, [⟨7, 5, .rw, 0⟩, ⟨4, 0, .rw, 0⟩]⟩,
  -- DBG_CORE_RDATA
  ⟨0xf01014, [(17, 0x100)], false, false, false, false, [⟨31, 0, .rw, 0⟩]⟩,
  -- DBG_CORE_BP
  ⟨0xf01020, [(17, 0x100), (4, 0x4)], false, false, false, false, [⟨31, 31, .rw, 0⟩, ⟨16, 16, .rw, 0⟩, ⟨15, 0, .rw, 0⟩]⟩,
  -- DBG_CORE_WP_ADDR
  ⟨0xf01040, [(17, 0x100), (2, 0x8)], false, false, false, false, [⟨31, 0, .rw, 0⟩]⟩,
  -- DBG_CORE_WP_CFG
  ⟨0xf01044, [(17, 0x100), (2, 0x8)], false, false, false, false, [⟨31, 31, .rw, 0⟩, ⟨30, 30, .rw, 0⟩, ⟨29, 29, .rw, 0⟩, ⟨4, 0, .rw, 0⟩]⟩]

/-- The registers of block CORE (R22). -/
def regsCore : List RegSpec := [
  -- ST_CTRL
  ⟨0x1000000, [(17, 0x10000)], false, false, false, false, [⟨31, 31, .rw, 0⟩, ⟨30, 30, .rw, 0⟩, ⟨29, 29, .ro, 0⟩, ⟨28, 28, .wo, 0⟩]⟩,
  -- ST_STAT
  ⟨0x1000004, [(17, 0x10000)], false, true, false, false, [⟨31, 29, .ro, 0⟩, ⟨16, 16, .ro, 0⟩, ⟨15, 0, .ro, 0⟩]⟩,
  -- ST_RESET_CAUSE
  ⟨0x1000008, [(17, 0x10000)], false, false, false, false, [⟨26, 24, .ro, 0⟩, ⟨15, 0, .ro, 0⟩]⟩,
  -- ST_MEM_ADDR
  ⟨0x1000010, [(17, 0x10000)], false, false, false, false, [⟨31, 31, .rw, 1⟩, ⟨15, 0, .rw, 0⟩]⟩,
  -- ST_MEM_DATA
  ⟨0x1000014, [(17, 0x10000)], false, false, false, false, [⟨31, 0, .rw, 0⟩]⟩,
  -- ST_EXC_LOG
  ⟨0x1000020, [(17, 0x10000)], false, true, false, false, [⟨31, 31, .w1c, 0⟩, ⟨30, 30, .ro, 0⟩, ⟨20, 20, .ro, 0⟩, ⟨19, 16, .ro, 0⟩, ⟨15, 0, .ro, 0⟩]⟩,
  -- ST_EXC_ADDR
  ⟨0x1000024, [(17, 0x10000)], false, true, false, false, [⟨31, 0, .ro, 0⟩]⟩,
  -- ST_BUS_LOG
  ⟨0x1000028, [(17, 0x10000)], false, true, false, true, [⟨31, 31, .w1c, 0⟩, ⟨30, 30, .ro, 0⟩, ⟨29, 29, .ro, 0⟩, ⟨27, 24, .ro, 0⟩, ⟨23, 16, .ro, 0⟩, ⟨15, 0, .ro, 0⟩]⟩,
  -- ST_BUS_ADDR
  ⟨0x100002c, [(17, 0x10000)], false, true, false, false, [⟨31, 0, .ro, 0⟩]⟩,
  -- ST_MEM_ERR
  ⟨0x1000030, [(17, 0x10000)], false, false, false, true, [⟨31, 31, .w1c, 0⟩, ⟨30, 30, .ro, 0⟩, ⟨29, 29, .ro, 0⟩, ⟨27, 26, .ro, 0⟩, ⟨13, 0, .ro, 0⟩]⟩,
  -- ST_DOORBELL
  ⟨0x1000040, [(17, 0x10000)], false, true, false, false, [⟨3, 0, .w1s, 0⟩]⟩,
  -- ST_SWIRQ
  ⟨0x1000044, [(17, 0x10000)], false, true, false, false, [⟨31, 31, .wo, 0⟩, ⟨15, 0, .rw, 0⟩]⟩,
  -- ST_TMR_CTRL
  ⟨0x1000100, [(17, 0x10000), (2, 0x10)], false, true, false, false, [⟨31, 31, .rw, 0⟩, ⟨30, 30, .rw, 0⟩, ⟨23, 16, .rw, 0⟩]⟩,
  -- ST_TMR_LOAD
  ⟨0x1000104, [(17, 0x10000), (2, 0x10)], false, true, false, false, [⟨31, 0, .rw, 0⟩]⟩,
  -- ST_TMR_CNT
  ⟨0x1000108, [(17, 0x10000), (2, 0x10)], false, true, false, false, [⟨31, 0, .rw, 0⟩]⟩,
  -- ST_WDT_CTRL
  ⟨0x1000200, [(17, 0x10000)], false, true, false, false, [⟨31, 31, .rw, 0⟩, ⟨30, 30, .w1s, 0⟩, ⟨29, 29, .rw, 0⟩]⟩,
  -- ST_WDT_LOAD
  ⟨0x1000204, [(17, 0x10000)], false, true, false, false, [⟨31, 0, .rw, 16777216⟩]⟩,
  -- ST_WDT_OPEN
  ⟨0x1000208, [(17, 0x10000)], false, true, false, false, [⟨31, 0, .rw, 4294967295⟩]⟩,
  -- ST_WDT_CNT
  ⟨0x100020c, [(17, 0x10000)], false, true, false, false, [⟨31, 0, .ro, 0⟩]⟩,
  -- ST_WDT_KICK
  ⟨0x1000210, [(17, 0x10000)], false, true, false, false, [⟨31, 0, .wo, 0⟩]⟩,
  -- ST_WDT_STAT
  ⟨0x1000214, [(17, 0x10000)], false, true, false, false, [⟨31, 31, .w1c, 0⟩, ⟨30, 30, .ro, 0⟩, ⟨29, 28, .ro, 0⟩]⟩,
  -- ST_WDT_RESUME
  ⟨0x1000218, [(17, 0x10000)], false, true, false, false, [⟨23, 0, .rw, 4096⟩]⟩,
  -- ST_IRQ_CFG
  ⟨0x1000400, [(17, 0x10000), (64, 0x4)], false, true, false, false, [⟨31, 30, .rw, 0⟩, ⟨29, 29, .rw, 0⟩, ⟨8, 0, .rw, 0⟩]⟩,
  -- ST_IRQ_PEND_LO
  ⟨0x1000500, [(17, 0x10000)], false, true, false, false, [⟨31, 0, .w1c, 0⟩]⟩,
  -- ST_IRQ_PEND_HI
  ⟨0x1000504, [(17, 0x10000)], false, true, false, false, [⟨31, 0, .w1c, 0⟩]⟩]

/-- The registers of block STW (R22). -/
def regsStw : List RegSpec := [
  -- STW_SEM
  ⟨0x1180000, [(256, 0x4)], false, false, false, false, [⟨31, 0, .rw, 0⟩]⟩,
  -- STW_SEM_SC
  ⟨0x1180400, [(256, 0x4)], false, false, false, false, [⟨31, 0, .wo, 0⟩]⟩,
  -- STW_SEM_LR
  ⟨0x1180800, [(256, 0x4)], false, false, false, false, [⟨31, 0, .ro, 0⟩]⟩]

/-- The rows of the register table that may hold offset `a`: those of its block (R22). The registers of the cores, STW among them, lie in one array. -/
def regBlock (a : Nat) : List RegSpec :=
  if 0x1118000 ≤ a then regsStw else if 0x1000000 ≤ a then regsCore else
  match a / 0x100000 with
  | 0 => regsDevice
  | 1 => regsClock
  | 2 => regsConfig
  | 3 => regsIntegrity
  | 4 => regsScramble
  | 5 => regsMesh
  | 6 => regsCaller
  | 7 => regsLattice
  | 8 => regsGleis
  | 9 => regsTail
  | 10 => regsBallast
  | 11 => regsSecurity
  | 12 => regsHostif
  | 13 => regsPins
  | 14 => regsTether
  | 15 => regsDebug
  | _ => []

/-- The whole register table, by offset. -/
def regTable : List RegSpec :=
  regsDevice ++ regsClock ++ regsConfig ++ regsIntegrity ++ regsScramble ++ regsMesh ++ regsCaller ++ regsLattice ++ regsGleis ++ regsTail ++ regsBallast ++ regsSecurity ++ regsHostif ++ regsPins ++ regsTether ++ regsDebug ++ regsCore ++ regsStw

/-- Where `off` bytes above the first register of an array lies: the indexes, outermost first, or none. -/
def dimIdx : List (Nat × Nat) → Nat → Option (List Nat)
  | [], off => if off = 0 then some [] else none
  | (n, st) :: t, off => if off / st < n then (dimIdx t (off % st)).map (off / st :: ·) else none

/-- The register at offset `a`, where the row `r` holds it. -/
def regHit (r : RegSpec) (a : Nat) : Option (List Nat) :=
  if a < r.base then none else dimIdx r.dims (a - r.base)

/-- The row of the register table that holds offset `a`. -/
def regAt (a : Nat) : Option RegSpec := (regBlock a).find? (fun r => (regHit r a).isSome)

/-- The part of a word that a list of fields' reset values makes. -/
def resetBits : List FieldSpec → Nat
  | [] => 0
  | f :: t => f.rst * 2 ^ f.lo + resetBits t

end Sys2Proof.Machine
end

