-- ==== Sys2Proof/Machine/Types.lean ====
section
/-! DEFINITION. Sys2Proof/Machine/Types.lean: the data types that the state and the commands are made of, subsystem by subsystem, and for
each part of the state the value that State.reset or an unlisted key of a table holds (`X.init`). Plain data throughout. -/

namespace Sys2Proof.Machine

/-! ## The fabric (files 02 and 03) -/

/-- A signal of the mesh ports of a sector (R87, R90). The port drives the first group; the fabric drives the second. -/
inductive PortSig where
  | mReqReady
  | mRspValid
  | mRspTag
  | mRspStatus
  | mRspCause
  | mRspData
  | mRspPoison
  | mFenceAck
  | mFenceErr
  | tReqValid
  | tReqWrite
  | tReqAddr
  | tReqSize
  | tReqId
  | tReqBe
  | tReqData
  | tReqPoison
  | tRspReady
  | mReqValid
  | mReqWrite
  | mReqAddr
  | mReqSize
  | mReqTag
  | mReqBe
  | mReqData
  | mReqPoison
  | mRspReady
  | mFenceReq
  | tReqReady
  | tRspValid
  | tRspId
  | tRspErr
  | tRspData
  | tRspPoison
deriving DecidableEq, Repr

/-- A net of the fabric: what an input pin, a wire tap or an outbound word may be driven from. Cells, memories, slices and boundary
words carry device-wide numbers: cell ((384 n + c) 256 + y) 16 + m for Sn.Xc.Yy.Cm (R46), memory 128 k + 64 j + m and slice
96 k + 32 j + m for bay number k (R48, R92), boundary word 512 n + w (R78). -/
inductive Net where
  /-- a constant -/
  | const (b : Bool)
  /-- output OA (false) or OB (true) of a cell -/
  | cellOut (cell : Nat) (ob : Bool)
  /-- output QA (false) or QB (true) of a cell -/
  | ffOut (cell : Nat) (qb : Bool)
  /-- a routing wire of a class with a claim (R74) -/
  | wire (w : Nat)
  /-- bit 0 to 63 of the fabric side of an inbound word, or its poison (bit 64) -/
  | bndIn (w : Nat) (bit : Nat)
  /-- DOUT bit (0 to 71) or POUT (72) of port A (false) or B (true) of a block memory -/
  | memOut (m : Nat) (portB : Bool) (bit : Nat)
  /-- P bit (0 to 63), PO (64), OVF (65) or PRE_OVF (66) of a slice -/
  | sliceOut (sl : Nat) (bit : Nat)
  /-- the input side of general-purpose pin i -/
  | pinIn (i : Nat)
  /-- bit `bit` of a signal that the mesh ports of sector n drive (R87, R90) -/
  | portOut (n : Nat) (sig : PortSig) (bit : Nat)
deriving DecidableEq, Repr

/-- The LUT modes of R51. -/
inductive LutMode where
  /-- one function of six inputs -/
  | l6
  /-- two functions of five inputs -/
  | l5d
  /-- propagate and generate -/
  | carry
deriving DecidableEq, Repr

/-- The configuration of one flip-flop (R57). A one-hot select is the list of its set bits (R73): one element unless an upset set more. -/
structure FfCfg where
  /-- 0: O6 or O5, 1: S or CO, 2: XA or XB -/
  dSel : List Nat
  /-- cluster clocks CK0, CK1 -/
  clk : List Nat
  /-- clock enables CE0 to CE3, or 4 for ON -/
  ce : List Nat
  /-- SR0, SR1, or none -/
  sr : List Nat
  srVal : Bool
  init : Bool
deriving DecidableEq, Repr

/-- The configuration of one cell (R50 to R57). -/
structure CellCfg where
  cell : Nat
  mode : LutMode
  table : BitVec 64
  /-- OA presents S instead of O6 -/
  oaS : Bool
  /-- OB presents CO instead of O5 -/
  obCo : Bool
  /-- sources of A1 to A6, XA and XB, in this order; an input is the OR of its selected sources -/
  ins : List (List Net)
  ffa : FfCfg
  ffb : FfCfg
deriving DecidableEq, Repr

/-- CIN_SEL of a cluster (R54). -/
inductive CinSel where
  /-- CO of C15 of the cluster to the south -/
  | chain
  /-- constant 0 -/
  | zero
  /-- constant 1 -/
  | one
  /-- the XA input of C0 -/
  | bypass
deriving DecidableEq, Repr

/-- The configuration of one cluster (R54, R56). Spines: 0 to 31 the global clocks, 32 + r the regional clocks. -/
structure ClusterCfg where
  cluster : Nat
  cin : CinSel
  /-- for CK0 and CK1: the spine, and inversion -/
  ck : List (Nat × Bool)
  /-- CE0 to CE3 -/
  ce : List (List Net)
  /-- SR0 and SR1, and whether each is asynchronous -/
  sr : List (List Net × Bool)
deriving DecidableEq, Repr

/-- WR_MODE of a memory port (R95). -/
inductive WrMode where
  /-- DOUT shows the word before the write -/
  | readFirst
  /-- DOUT shows the word after the write -/
  | writeFirst
  /-- DOUT is unchanged -/
  | noChange
deriving DecidableEq, Repr

/-- The configuration of one memory port (R95), with the sources of its inputs. -/
structure PortCfg where
  width : Nat
  /-- the spine of the port clock, and inversion -/
  clk : Nat
  inv : Bool
  wrEn : Bool
  wrMode : WrMode
  outReg : Bool
  /-- the set/reset net; no source: NONE -/
  sr : List Net
  addr : List (List Net)
  din : List (List Net)
  /-- byte-lane write enables -/
  bwe : List (List Net)
  en : List Net
  pin : List Net
deriving DecidableEq, Repr

/-- The configuration of one block memory (R95). -/
structure MemCfg where
  mem : Nat
  ecc : Bool
  /-- COLL_PRI names port B -/
  collB : Bool
  a : PortCfg
  b : PortCfg
deriving DecidableEq, Repr

/-- PRE_MODE of a slice (R117). -/
inductive PreMode where
  /-- A -/
  | pass
  /-- D + A -/
  | add
  /-- D - A -/
  | sub
deriving DecidableEq, Repr

/-- OP_MODE of a slice (R117). -/
inductive OpMode where
  /-- M -/
  | mul
  /-- C + M -/
  | muladd
  /-- C - M -/
  | mulsub
  /-- P + M -/
  | mac
  /-- P - M -/
  | macsub
  /-- PCI + M -/
  | casc
  /-- (PCI shifted right by 24) + M -/
  | cascShift
deriving DecidableEq, Repr

/-- The configuration of one arithmetic slice (R119). -/
structure SliceCfg where
  slice : Nat
  pre : PreMode
  op : OpMode
  aSigned : Bool
  bSigned : Bool
  areg : Bool
  breg : Bool
  creg : Bool
  dreg : Bool
  mreg : Bool
  preg : Bool
  clk : Nat
  inv : Bool
  /-- clock enables of the input, product and result stages; no source: ON -/
  ceIn : List Net
  ceM : List Net
  ceP : List Net
  /-- the set/reset net; no source: NONE -/
  sr : List Net
  cascIn : Bool
  a : List (List Net)
  b : List (List Net)
  c : List (List Net)
  d : List (List Net)
  pi : List Net
deriving DecidableEq, Repr

/-- What the bits of one frame configure. The bit layout inside a frame is not in the spec, so a frame carries its meaning beside its
bits (log entry 7). -/
inductive CfgItem where
  /-- a cell -/
  | cell (c : CellCfg)
  /-- a cluster's controls -/
  | cluster (c : ClusterCfg)
  /-- the set select bits of a claimed wire's multiplexer that lie in this frame -/
  | sel (wire : Nat) (taps : List Net)
  /-- more than one set select bit of another (one-hot) multiplexer -/
  | multi
  /-- the sources of the 64 data nets and the poison net of an outbound word -/
  | bndOut (w : Nat) (bits : List (List Net)) (poison : List Net)
  /-- the image routes inbound (false) or outbound (true) word w -/
  | bndUsed (w : Nat) (out : Bool)
  /-- the freeze selection of a net that leaves the bay: a constant; a net not named is HOLD (R191) -/
  | freezeConst (n : Net) (v : Bool)
  /-- a block memory -/
  | mem (c : MemCfg)
  /-- an arithmetic slice -/
  | slice (c : SliceCfg)
  /-- region i of the sector target port: base (offset bits 31:12), log2 of its size, its enable bit (R89) -/
  | region (i : Nat) (base : Nat) (log2 : Nat) (en : Bool)
  /-- BCLK of the frame's bay: a global clock (R79) -/
  | bclk (g : Nat)
  /-- PCLK of the mesh ports of the frame's sector: a global clock; it lies in a frame of bay b0 -/
  | pclk (g : Nat)
  /-- the sources of the bits of a signal that the fabric drives into the mesh ports of the frame's sector (R87, R90) -/
  | portIn (sig : PortSig) (bits : List (List Net))
  /-- the source of the fabric entry CKIN that lies in the frame's bay (R144) -/
  | ckin (src : List Net)
  /-- the output and output-enable sources of fabric-owned pin i -/
  | pin (i : Nat) (out : List Net) (oe : List Net)
  /-- the source of probe net PRBi of sector n (R346) -/
  | probe (n : Nat) (i : Nat) (src : List Net)
deriving DecidableEq, Repr

/-- One frame of configuration memory (R168): its 5,120 data bits, what they configure, the 32 check bits stored with them, and the bits of
this code word, data bits first, that upsets have flipped since the engine wrote it. -/
structure Frame where
  data : Nat
  items : List CfgItem
  check : BitVec 32
  flip : Nat
deriving DecidableEq, Repr

/-- The Frame that an unlisted key or State.reset holds. -/
def Frame.init : Frame where
  data := 0
  items := []
  check := 0
  flip := 0

/-- A boundary word's one side: 64 data bits and a poison bit. -/
structure BWord where
  data : DWord
  poison : Bool
deriving DecidableEq, Repr

/-- The BWord that an unlisted key or State.reset holds. -/
def BWord.init : BWord where
  data := 0
  poison := false

/-- The aperture hold register of a sector (R86): which word it holds (0 to 511 inbound, 512 + w outbound), its HI and STAT. -/
structure ApHold where
  word : Option Nat
  hi : Word
  stat : Word
deriving DecidableEq, Repr

/-- The ApHold that an unlisted key or State.reset holds. -/
def ApHold.init : ApHold where
  word := none
  hi := 0
  stat := 0

/-- The registers of one memory port: DOUT with POUT as bit 72, and the stage before the output register. -/
structure PortReg where
  dout : BitVec 73
  stage : BitVec 73
deriving DecidableEq, Repr

/-- The PortReg that an unlisted key or State.reset holds. -/
def PortReg.init : PortReg where
  dout := 0
  stage := 0

/-- A slice register: its value, its residue (3 bits) and its poison bit. -/
structure SReg where
  v : DWord
  r : BitVec 3
  p : Bool
deriving DecidableEq, Repr

/-- The SReg that an unlisted key or State.reset holds. -/
def SReg.init : SReg where
  v := 0
  r := 0
  p := false

/-- The registers of one slice (R119, R123). -/
structure SliceReg where
  a : SReg
  b : SReg
  c : SReg
  d : SReg
  m : SReg
  p : SReg
  ovf : Bool
  preOvf : Bool
deriving DecidableEq, Repr

/-- The SliceReg that an unlisted key or State.reset holds. -/
def SliceReg.init : SliceReg where
  a := SReg.init
  b := SReg.init
  c := SReg.init
  d := SReg.init
  m := SReg.init
  p := SReg.init
  ovf := false
  preOvf := false

/-- A mesh response waiting in a fabric master port (R88). -/
structure MRsp where
  tag : Nat
  status : Nat
  cause : Nat
  data : Nat
  poison : Nat
deriving DecidableEq, Repr

/-- A request as the target port presents it (R90): T_REQ_ID, and the other signals of T_REQ. -/
structure TReq where
  id : Nat
  write : Bool
  addr : Nat
  size : Nat
  be : Nat
  data : Nat
  poison : Nat
deriving DecidableEq, Repr

/-- What the mesh ports of a sector drive into the fabric since the last edge of PCLK (R87, R90): the response, the fence acknowledge with
M_FENCE_ERR, the request. -/
structure PortView where
  rsp : Option MRsp
  ack : Option Bool
  req : Option TReq
deriving DecidableEq, Repr

/-- The PortView that an unlisted key or State.reset holds. -/
def PortView.init : PortView where
  rsp := none
  ack := none
  req := none

/-- The fabric. Tables read as 0 (no configuration, an empty register) where they list nothing. -/
structure Fabric where
  /-- configuration memory, by 4,608 k + index (R168) -/
  frames : List (Nat × Frame)
  /-- the claim map (R74): wire to claiming frame + 1, 0 unclaimed -/
  claims : List (Nat × Nat)
  /-- flip-flop values, by 2 cell (FFA) and 2 cell + 1 (FFB) -/
  ff : List (Nat × Bool)
  /-- shadow latches of the flip-flops -/
  shadow : List (Nat × Bool)
  inFig : List (Nat × BWord)
  inFab : List (Nat × BWord)
  outFab : List (Nat × BWord)
  outFig : List (Nat × BWord)
  /-- inbound words whose FIG side has been written and has not crossed -/
  inDue : List Nat
  /-- USED of SEC_BND_IN_STAT (key w) and SEC_BND_OUT_STAT (key 8,192 + w) -/
  used : List (Nat × Bool)
  apHold : List (Nat × ApHold)
  /-- raw rows, by 512 m + row -/
  rows : List (Nat × BitVec 72)
  /-- copied maps (R111): the copied rows of memory m -/
  copied : List (Nat × List Nat)
  /-- copy-out registers, by 2 m (A) and 2 m + 1 (B): row number and old row (R112) -/
  copyOut : List (Nat × Option (Nat × BitVec 72))
  /-- port registers, by 2 m and 2 m + 1 -/
  portReg : List (Nat × PortReg)
  /-- their shadow latches (R110) -/
  portShadow : List (Nat × PortReg)
  slice : List (Nat × SliceReg)
  sliceShadow : List (Nat × SliceReg)
  /-- bays whose hold of R192 stands -/
  held : List Nat
  /-- bays whose outgoing nets are latched (R190), with the values -/
  latched : List (Nat × List (Net × Bool))
  /-- the global hold (R186) -/
  hold : Bool
  /-- the sector-entry gates are open (R185, R188) -/
  gatesOpen : Bool
  /-- fabric-owned pins and TP outputs are enabled (R188 step 4) -/
  outputsOn : Bool
  /-- SEC_TGT_REGION words, by 32 n + 2 i and 32 n + 2 i + 1 (R89) -/
  region : List (Nat × Word)
  /-- master port n: buffered responses, first in first out (R88) -/
  mRsp : List (Nat × List MRsp)
  /-- master port n: fences issued through M_FENCE_REQ and not acknowledged -/
  mFence : List (Nat × List Nat)
  /-- master port n: completed fences that M_FENCE_ACK has yet to show, in fence order, with M_FENCE_ERR -/
  mAck : List (Nat × List Bool)
  /-- target port n: outstanding requests as ID and transaction key (R90) -/
  tReq : List (Nat × List (Nat × Nat))
  /-- target port n: the request presented and not yet accepted, as ID and transaction key -/
  tShow : List (Nat × Option (Nat × Nat))
  /-- what the ports of sector n drive -/
  portView : List (Nat × PortView)
  /-- channels of sector n's ports that have moved at the present edge of PCLK: 0 M_REQ, 1 M_RSP, 2 M_FENCE, 3 T_REQ, 4 T_RSP -/
  served : List (Nat × List Nat)
deriving DecidableEq, Repr

/-- The Fabric that an unlisted key or State.reset holds. -/
def Fabric.init : Fabric where
  frames := []
  claims := []
  ff := []
  shadow := []
  inFig := []
  inFab := []
  outFab := []
  outFig := []
  inDue := []
  used := []
  apHold := []
  rows := []
  copied := []
  copyOut := []
  portReg := []
  portShadow := []
  slice := []
  sliceShadow := []
  held := []
  latched := []
  hold := false
  gatesOpen := true
  outputsOn := true
  region := []
  mRsp := []
  mFence := []
  mAck := []
  tReq := []
  tShow := []
  portView := []
  served := []

/-! ## Clocks (file 04) -/

/-- The state of a block gate (R159 to R162). -/
inductive Gate where
  /-- the clock runs -/
  | opened
  /-- software wrote 0; the clock still runs -/
  | closing
  /-- the clock is stopped -/
  | closed
  /-- software wrote 1; the clock has not restarted -/
  | opening
deriving DecidableEq, Repr

/-- The clock system. Multiplexers: 0 FIG, 1 MESH, 16 + g GCLKg, 64 + 24 n + r regional clock r of Sn (CLK_SW_STAT). -/
structure Clk where
  /-- the source a multiplexer drives -/
  muxCur : List (Nat × Nat)
  /-- the source a switch in progress goes to -/
  muxNew : List (Nat × Option Nat)
  /-- the latest source requested while a switch is in progress (R157) -/
  muxHeld : List (Nat × Option Nat)
  /-- DIV, OUTDIV and EN settings in effect, by register offset (R145, R146): the register's word when they last took effect -/
  applied : List (Nat × Word)
  /-- PLLs whose outputs are stopped at their low phase until lock (R137, R138) -/
  stopped : List Nat
  /-- multiplexers of fabric clocks whose output is high -/
  high : List Nat
  /-- rising edges that the divider of a fabric clock has counted in its output period, by multiplexer (R145) -/
  phase : List (Nat × Nat)
  /-- hub domains (0 FIG, 1 MESH) that have switched to their PLL at its first lock (R139) -/
  autoDone : List Nat
  /-- block gates, by the index of R158 -/
  gate : List (Nat × Gate)
  /-- how many trim windows in a row ended within DEADBAND, up to 4 -/
  trimOk : Nat
  /-- beat marks received since the trim window began (R131) -/
  trimBeats : Nat
  /-- the bits of CLK_RND_REQ that were visible when the bow was announced (R149) -/
  rndSeen : Word
deriving DecidableEq, Repr

/-- The Clk that an unlisted key or State.reset holds. -/
def Clk.init : Clk where
  muxCur := []
  muxNew := []
  muxHeld := []
  applied := []
  stopped := []
  high := []
  phase := []
  autoDone := []
  gate := []
  trimOk := 0
  trimBeats := 0
  rndSeen := 0

/-! ## The configuration engine (file 05) -/

/-- A section entry of an image header (R172): its index in the table and its fields. -/
structure Sec where
  index : Nat
  ty : Nat
  target : Nat
  off : Nat
  slen : Nat
  digest : Nat
  tag : Nat
deriving DecidableEq, Repr

/-- What the source of a load holds: `size` bytes from byte address `base` on, byte i in bits 8i + 7 to 8i of `data`. -/
structure Image where
  base : Nat
  size : Nat
  data : Nat
deriving DecidableEq, Repr

/-- An armed freeze, or one in effect (R189). -/
structure Arm where
  mode : Nat
  bay : Nat
  freeze : Nat
  /-- REL_MODE: release at the first bow after LOADED -/
  relFirst : Bool
  rel : Nat
deriving DecidableEq, Repr

/-- A section that has passed its checks and is being applied: its `slen` bytes in the clear, the place of the next record, the frames and
memories that its records have named. -/
structure Sect where
  sec : Sec
  plain : Nat
  pos : Nat
  frames : List Nat
  mems : List Nat
deriving DecidableEq, Repr

/-- A load in progress (R187, R193). -/
structure Load where
  /-- OP of CFG_LOAD_CTRL: 0 FULL, 1 PARTIAL, 2 FIRMWARE, 3 TABLES -/
  op : Nat
  /-- SRC of CFG_LOAD_CTRL -/
  src : Nat
  /-- BAY of CFG_PR_CTRL when the load began -/
  bay : Nat
  /-- the number of its image -/
  id : Nat
  /-- the bytes that the source has given so far -/
  size : Nat
  data : Nat
  /-- the header, once its checks have passed -/
  head : Option Nat
  /-- the sections not yet taken up, in the order of R174; those of a load that checks all of them first with their bytes -/
  todo : List (Sec × Option Nat)
  /-- the section in progress -/
  cur : Option Sect
  /-- the bay whose readback is due -/
  readback : Option Nat
deriving DecidableEq, Repr

/-- A load in progress still reads its source. -/
def Load.reads (l : Load) : Bool := l.head.isNone || (l.op == 0 && !l.todo.isEmpty)

/-- The configuration engine. -/
structure Cfg where
  arm : Option Arm
  /-- the freeze in effect, whose release is pending -/
  rel : Option Arm
  /-- the bay reached LOADED after the announcement of the present bow: its release misses it (R194) -/
  relLate : Bool
  load : Option Load
  /-- how many images have begun to stream into the store since POR, and the numbers of those in the golden and the staging slot -/
  seq : Nat
  goldenId : Nat
  stagingId : Nat
  /-- DESIGN_ID of the loaded full image -/
  design : Nat
  /-- a full image has been loaded since POR -/
  loaded : Bool
  /-- a design has been started since POR -/
  everStarted : Bool
  /-- the last FULL load failed -/
  failed : Bool
  /-- a BLANK of this bay waits until the device is Aloft (R525) -/
  blankDue : Option Nat
  /-- the last START_UP_STEP taken plus 1, 0 when no start-up is in progress (R188) -/
  startStep : Nat
  /-- the start-up belongs to a FULL load with AUTO_START -/
  autoStart : Bool
  scrubFrame : Nat
  /-- bays skipped by the scrubber (R201) -/
  skipped : List Nat
  /-- where the pass goes on after a skipped bay is scrubbed: bay and frame -/
  scrubBack : Option (Nat × Nat)
  /-- the claim map is being rebuilt (R199) -/
  rebuilding : Bool
  /-- the number of the image that last loaded a bay (R205), 0 for none -/
  bayImage : List (Nat × Nat)
  /-- the step of R182 that the boot ROM has reached: 1 it waits for the PLLs, 2 for HBM, 3 for a FULL load, 0 it is done -/
  boot : Nat
deriving DecidableEq, Repr

/-- The Cfg that an unlisted key or State.reset holds. -/
def Cfg.init : Cfg where
  arm := none
  rel := none
  relLate := false
  load := none
  seq := 0
  goldenId := 0
  stagingId := 0
  design := 0
  loaded := false
  everStarted := false
  failed := false
  blankDue := none
  startStep := 0
  autoStart := false
  scrubFrame := 0
  skipped := []
  scrubBack := none
  rebuilding := false
  bayImage := []
  boot := 1

/-! ## The Caller (file 06) -/

/-- A bundle: 64 data bits and a poison bit (R228). -/
structure Bundle where
  data : DWord
  poison : Bool
deriving DecidableEq, Repr

/-- How the SEC-DED check of a stored item comes out when it is read. -/
inductive Ecc where
  /-- no error -/
  | ok
  /-- a single-bit error, corrected -/
  | ce
  /-- an uncorrectable error -/
  | ue
deriving DecidableEq, Repr

/-- One bank of the three tables (R243, R221, R229): descriptor words by 8 t + i, signal entries, queue words by 2 q + i. -/
structure Bank where
  task : List (Nat × Word)
  sig : List (Nat × Word)
  queue : List (Nat × Word)
deriving DecidableEq, Repr

/-- The Bank that an unlisted key or State.reset holds. -/
def Bank.init : Bank where
  task := []
  sig := []
  queue := []

/-- What a task is doing (R209). WAIT and READY differ only by the flags, so `idle` stands for both. -/
inductive TaskSt where
  /-- WAIT, or READY when R213 holds -/
  | idle
  /-- RUN -/
  | run
  /-- SUSPENDED -/
  | suspended
  /-- DONE -/
  | done
  /-- FAULT -/
  | fault
deriving DecidableEq, Repr

/-- A task beside its descriptor and flags. -/
structure CTask where
  st : TaskSt
  /-- completed in this round -/
  ran : Bool
  /-- FCAUSE -/
  cause : Nat
  /-- FIG_COUNT of the edge at which it became READY -/
  since : Option Nat
deriving DecidableEq, Repr

/-- The CTask that an unlisted key or State.reset holds. -/
def CTask.init : CTask where
  st := .idle
  ran := false
  cause := 0
  since := none

/-- A step on a unit, or suspended (R216, R225). -/
structure CStep where
  task : Nat
  /-- micro-ops performed -/
  uop : Nat
  /-- the bundle captured, popped or returned -/
  data : Option Bundle
  /-- the key of a DELAY -/
  key : Nat
  /-- FIG_COUNT of the completion edge, once the last micro-op is performed; its signals are being placed, from index `sig` (R221) -/
  ended : Option Nat
  sig : Nat
  /-- FIG_COUNT of the first micro-op -/
  start : Option Nat
  /-- FIG_COUNT at which the present wait began, and figures waited before it -/
  waitFrom : Option Nat
  waited : Nat
  /-- the mesh tag of its access -/
  tag : Option Nat
  /-- a mesh response kept with the step: STATUS, data, poison -/
  rsp : Option (Nat × Nat × Bool)
  /-- the number of its fence -/
  fence : Option Nat
  /-- the port that its hand-off waits for, and whether as a cut-in (R300) -/
  port : Option (Nat × Bool)
deriving DecidableEq, Repr

/-- A bundle queue (R228, R234): entries on chip, oldest first, entries in the spill area, the next push sequence number. -/
structure CQueue where
  chip : List Bundle
  spilled : Nat
  seq : Nat
deriving DecidableEq, Repr

/-- The CQueue that an unlisted key or State.reset holds. -/
def CQueue.init : CQueue where
  chip := []
  spilled := 0
  seq := 0

/-- A delay-list entry: key, target task and flag, the edge of insertion, and the round it was inserted in (R335). -/
structure DEntry where
  key : Nat
  task : Nat
  flag : Nat
  /-- the insertion edge, the step unit and the signal index, which order entries with equal keys (R222) -/
  edge : Nat
  unit : Nat
  sig : Nat
  /-- the round of its insertion, which a capture reads (R335) -/
  round : Nat
deriving DecidableEq, Repr

/-- The Caller. Tables that list nothing read 0 (VALID = 0), no flags, an idle task, an empty queue. -/
structure Caller where
  active : Bank
  shadow : Bank
  /-- latched flags by task -/
  flags : List (Nat × DWord)
  task : List (Nat × CTask)
  queue : List (Nat × CQueue)
  /-- queues whose configuration is uncorrectable: VALID = 0 until a swap (R239) -/
  queueUe : List Nat
  /-- delay lists, in expiry order -/
  dlist : List (Nat × List DEntry)
  /-- step units U0 to U3 -/
  units : List (Nat × Option CStep)
  /-- suspended steps, earliest first -/
  susp : List CStep
  /-- the rotating pointers of the classes -/
  ptr : List (Nat × Nat)
  /-- a pending swap: MODE and SWAP_ROUND as latched, and for NEXT_BOW whether the bow now announced is the one that takes it (R244) -/
  swap : Option (Nat × Nat × Bool)
  /-- writes to the shadow window held by a swap or a copy: offset and value, oldest first -/
  heldWr : List (Nat × Word)
  /-- trace records that wait for the ring, oldest first (R248) -/
  trace : List Nat
  /-- EV_CALLER_TRACE has been raised for the full ring -/
  traceHalt : Bool
  /-- figures without progress (R242), and whether EV_CALLER_STALL was raised in this round -/
  quiet : Nat
  stallSaid : Bool
deriving DecidableEq, Repr

/-- The Caller that an unlisted key or State.reset holds. -/
def Caller.init : Caller where
  active := Bank.init
  shadow := Bank.init
  flags := []
  task := []
  queue := []
  queueUe := []
  dlist := []
  units := []
  susp := []
  ptr := []
  swap := none
  heldWr := []
  trace := []
  traceHalt := false
  quiet := 0
  stallSaid := false

/-! ## Lattice control (file 07) and the Gleis ports (file 08) -/

/-- A symbol of the 8b/10b code (R291): a special one or data, with its byte. -/
structure Sym where
  k : Bool
  b : Nat
deriving DecidableEq, Repr

/-- A bundle as a frame carries it (R295, R296): destination, queue, data, poison, RPAR, TC, class. -/
structure Entry where
  dest : Nat
  queue : Nat
  data : DWord
  poison : Bool
  rpar : Bool
  tc : Bool
  cls : Nat
deriving DecidableEq, Repr

/-- A lattice control message (R270): TYPE 1 START, 2 STOP, 3 RESET. -/
structure Msg where
  type : Nat
  origin : Nat
  seq : Nat
  round : Nat
  target : Nat
  beat : Nat
  isMatch : Bool
  hasTarget : Bool
deriving DecidableEq, Repr

/-- What an urgent queue or pool holds: a class-0 bundle, a control message, a token (TYPE of R260: 0 BOW, 1 HOLD, 2 RUN, 3 RELAY). -/
inductive Urgent where
  /-- a cut-in with a bundle -/
  | bundle (e : Entry)
  /-- a cut-in with a control message for a destination node -/
  | ctrl (dest : Nat) (tc : Bool) (m : Msg)
  /-- a token from ORIGIN for DEST about a round modulo 64 -/
  | token (dest : Nat) (origin : Nat) (tc : Bool) (type : Nat) (round : Nat)
deriving DecidableEq, Repr

/-- A sequenced frame. -/
inductive Frm where
  /-- a bulk frame -/
  | bulk (es : List Entry)
  /-- a cut-in or a token -/
  | urgent (u : Urgent)
deriving DecidableEq, Repr

/-- A bulk frame on its way to the line (R294, R299): its bundles and the pools that they take, the LSEQ of one that is replayed, the slots
that have been sent. -/
structure TxBulk where
  es : List Entry
  pools : List Nat
  lseq : Option Nat
  sent : Nat
deriving DecidableEq, Repr

/-- A bulk frame on its way in (R294, R298): L1 to L7 of its header, payload slots still to come, payload bytes, whether a slot showed an
error. -/
structure RxBulk where
  head : List Nat
  need : Nat
  body : List Nat
  err : Bool
deriving DecidableEq, Repr

/-- A cut-in or token on its way in (R296, R297): L1 to L7 of its header, slots still to come, their bytes, whether a slot showed an
error. -/
structure RxIns where
  token : Bool
  h : List Nat
  need : Nat
  body : List Nat
  err : Bool
deriving DecidableEq, Repr

/-- A training sequence as the lanes together give it (R312 to R315): its type, the physical positions on which it arrived whole, the lane
map (0 straight, 1 reversed, 2 another), the sender's port, node, flags, RX_EXPECT and TX_NEXT, the place of its K28.5 on each lane, the
positions whose groups showed an error. -/
structure TrainSeq where
  type : Nat
  lanes : List Nat
  map : Nat
  port : Nat
  node : Nat
  ready : Bool
  resume : Bool
  checked : Bool
  rxExpect : Nat
  txNext : Nat
  place : List Nat
  errs : List Nat
deriving DecidableEq, Repr

/-- A bundle in a bulk pool, and FIG_COUNT of the edge at which it was accepted (R300). -/
structure PoolEntry where
  at_ : Nat
  e : Entry
deriving DecidableEq, Repr

/-- A cut-in or token in an urgent pool: FIG_COUNT of its acceptance; what the check of its pool entry finds when lattice control takes it
(R302): its data words, and whether a header word is uncorrectable. -/
structure PoolUrgent where
  at_ : Nat
  u : Urgent
  ecc : Ecc
  hdr : Bool
deriving DecidableEq, Repr

/-- A Gleis port beside its registers. Pools are numbered 0 LOCAL, 1 T0, 2 T1, 3 UL, 4 UT0, 5 UT1; tables by lane give physical lanes. -/
structure Port where
  urgQ : List Urgent
  bulkQ : List Entry
  /-- FIG_COUNT of the edge at which the urgent queue, and the bulk queue, last accepted an entry (R300) -/
  urgEdge : Option Nat
  bulkEdge : Option Nat
  /-- unacknowledged frames in LSEQ order: LSEQ, frame, how many times replayed -/
  retry : List (Nat × Frm × Nat)
  /-- the LSEQ that the replay has reached (R308) -/
  rep : Option Nat
  /-- FIG_COUNT at which ACK last advanced, the buffer began to hold a frame, or a replay began (R309) -/
  ackFig : Nat
  /-- entries sent into each pool of the peer since the link started -/
  sent : List Nat
  /-- the freed counts last received -/
  credit : List Nat
  /-- entries this receiver has freed from each pool -/
  freed : List Nat
  bulk : List (Nat × List PoolEntry)
  urg : List (Nat × List PoolUrgent)
  /-- FIG_COUNT of the edge at which the port last presented an entry (R306) -/
  turn : Option Nat
  /-- the E for which a retry request was made, and FIG_COUNT of the last one -/
  asked : Option Nat
  askFig : Nat
  /-- FIG_COUNT of the last status slot received, or of entry to UP (R317) -/
  statFig : Nat
  /-- a retry request that is due, with its LSEQ -/
  retryDue : Option Nat
  /-- beat marks that are due -/
  beatDue : List Nat
  statusDue : Bool
  skipDue : Bool
  /-- slots sent since the last status slot, and since the last skip -/
  sinceStatus : Nat
  sinceSkip : Nat
  /-- the rest of the insertion on the line -/
  ins : List (List Sym)
  /-- the bulk frame in progress -/
  cur : Option TxBulk
  /-- the next symbol of the training sequences that are sent, and slots of them sent in the present state -/
  phase : Nat
  trained : Nat
  /-- lanes whose transmitter is at positive running disparity (R291) -/
  txRd : List (Nat × Bool)
  /-- the running disparity of each lane's receiver, once known -/
  rxRd : List (Nat × Option Bool)
  /-- the slots put on the line at the present FIG edge, oldest first: 10-bit groups of L0 to L7 and LS -/
  line : List (List Nat)
  rxBulk : Option RxBulk
  rxIns : Option RxIns
  /-- the receiver awaits a new point of synchronisation (R298) -/
  rxLost : Bool
  /-- code and disparity errors of each lane in the present degrade window (R320) -/
  winCode : List (Nat × Nat)
  winDisp : List (Nat × Nat)
  /-- a restart is required at the next IDENT (R316) -/
  restart : Bool
  /-- the link has been up before, so it may resume -/
  known : Bool
  /-- TS2 has arrived on 8 lanes, and TS3 without an error: READY and CHECKED of the sequences sent (R312) -/
  ready : Bool
  checked : Bool
  /-- an active lane has shown an error in CHECK -/
  chkErr : Bool
  /-- the active lane that failed to train (R311) -/
  bad : Option Nat
  /-- what IDENT decided: the link resumes, with the peer's RX_EXPECT -/
  resume : Option Nat
  /-- a step of R321 that the receiving end awaits: MIRROR for a lane, or RET_MIRROR -/
  rxStep : Option (Nat × Bool)
  /-- a step of R321 of the transmitting end: lane, whether back home, whether both lanes carry it -/
  txStep : Option (Nat × Bool × Bool)
  /-- SPARE statuses that are due: SPARE_OP and lane -/
  spareOut : List (Nat × Nat)
  /-- lanes that showed no code error in the last whole degrade window, or were just trained (R320) -/
  clean : List Nat
deriving DecidableEq, Repr

/-- The Port that an unlisted key or State.reset holds. -/
def Port.init : Port where
  urgQ := []
  bulkQ := []
  urgEdge := none
  bulkEdge := none
  retry := []
  rep := none
  ackFig := 0
  sent := [0, 0, 0, 0, 0, 0]
  credit := [0, 0, 0, 0, 0, 0]
  freed := [0, 0, 0, 0, 0, 0]
  bulk := []
  urg := []
  turn := none
  asked := none
  askFig := 0
  statFig := 0
  retryDue := none
  beatDue := []
  statusDue := false
  skipDue := false
  sinceStatus := 0
  sinceSkip := 0
  ins := []
  cur := none
  phase := 0
  trained := 0
  txRd := []
  rxRd := []
  line := []
  rxBulk := none
  rxIns := none
  rxLost := false
  winCode := []
  winDisp := []
  restart := false
  known := false
  ready := false
  checked := false
  chkErr := false
  bad := none
  resume := none
  rxStep := none
  txStep := none
  spareOut := []
  clean := []

/-- Lattice control beside its registers. -/
structure Lat where
  /-- figures counted in the round (R268) -/
  count : Nat
  /-- FIG_COUNT of the bow or start edge that began the round -/
  bowFig : Nat
  /-- the stop target (R272) -/
  target : Option Nat
  /-- FIG_COUNT of the announcement edge x (R261) -/
  annFig : Nat
  /-- the stop-now request was made after the announcement: it acts at the following bow -/
  stopLate : Bool
  /-- the local readiness of the round is complete -/
  ready : Bool
  /-- bow fences issued: source and fence number (R279) -/
  bowFence : List (Nat × Nat)
  /-- readiness has reached the fences -/
  fenced : Bool
  /-- OFFLINE since POR -/
  offPor : Bool
  /-- MIN_ROUND in effect -/
  minRound : Nat
  /-- kept BOW tokens by peer: rounds modulo 64 -/
  bows : List (Nat × List Nat)
  /-- peers whose latest RELAY arrived while the node was not HELD -/
  relay : List Nat
  /-- the BEAT that a START awaits -/
  beat : Option Nat
  /-- FIG_COUNT at which BEAT_COUNT last changed -/
  beatFig : Nat
  /-- the start edge is due, and FIG_COUNT of that edge (R271) -/
  startDue : Bool
  startFig : Nat
  /-- last SEQ accepted, by ORIGIN; none before the first -/
  seen : List (Nat × Option Nat)
  /-- SEQ of the last message originated -/
  seq : Nat
  /-- tokens and messages that wait for a port, oldest first -/
  out : List (Nat × Urgent)
  /-- ROUTE_INVALID was logged in this round -/
  routeSaid : Bool
  /-- a lattice reset edge is due, and FIG_COUNT of that edge (R281) -/
  resetDue : Bool
  resetFig : Nat
  /-- FIG_COUNT of the latest request of each sector's reset (R282) -/
  rstFig : List (Nat × Nat)
  /-- FIG_COUNT of the edge at which the rounds last stopped (R356) -/
  stopFig : Nat
  /-- sector resets requested after the announcement -/
  rstLate : List Nat
  /-- peers that were DOWN when last examined -/
  down : List Nat
deriving DecidableEq, Repr

/-- The Lat that an unlisted key or State.reset holds. -/
def Lat.init : Lat where
  count := 0
  bowFig := 0
  target := none
  annFig := 0
  stopLate := false
  ready := false
  bowFence := []
  fenced := false
  offPor := false
  minRound := 0
  bows := []
  relay := []
  beat := none
  beatFig := 0
  startDue := false
  startFig := 0
  seen := []
  seq := 0
  out := []
  routeSaid := false
  resetDue := false
  resetFig := 0
  rstFig := []
  stopFig := 0
  rstLate := []
  down := []

/-! ## The Tail (file 09) -/

/-- The positions of the shadow chains that hold design state (R343): flip-flops, memory ports and slices, by the keys of Fabric. -/
structure DMap where
  ff : List Nat
  port : List Nat
  slice : List Nat
deriving DecidableEq, Repr

/-- A capture in progress (R334). -/
structure Capture where
  slot : Nat
  /-- S -/
  round : Nat
  /-- the next drain step; 8,192 when the drain is done -/
  step : Nat
  /-- it ends BAD (R337) -/
  bad : Bool
  /-- round-keyed entries that are yet to be copied, list and entry, and the lines of the list section written (R335) -/
  lists : List (Nat × DEntry)
  lines : Nat
deriving DecidableEq, Repr

/-- A Reel-in in progress (R355). -/
structure Reel where
  slot : Nat
  /-- S -/
  round : Nat
  /-- the staged list entries: list and entry, in their stored order -/
  lists : List (Nat × DEntry)
  /-- the next load step; 8,192 when the chains hold the capture section -/
  step : Nat
  /-- ARMED became visible after the announcement: it acts at a later bow -/
  late : Bool
  /-- it was started in PARTIAL, and a refusal leads back there -/
  back : Bool
  /-- FIG_COUNT of the edge at which ARMED became visible -/
  armFig : Nat
deriving DecidableEq, Repr

/-- An export or import in progress (R359, R360). -/
structure Transfer where
  imp : Bool
  slot : Nat
  keySlot : Nat
  addr : Nat
  /-- transfers of the transfer engine that were requested before it and have not ended (R570) -/
  wait : Nat
deriving DecidableEq, Repr

/-- The Tail beside its registers. -/
structure Tail where
  cap : Option Capture
  /-- a pending GO: MODE and CAP_ROUND, and whether it misses the bow already announced -/
  req : Option (Nat × Nat × Bool)
  /-- a pending capture request of a trigger -/
  trig : Option Bool
  /-- capture sequence number -/
  seq : Nat
  /-- the map versions written, as their lines that are not zero, and the newest -/
  maps : List (Nat × Option (List (Nat × Nat)))
  newest : Option Nat
  /-- bays that entered RUN and whose part of the live map is yet to be rebuilt, and is being rebuilt (R343) -/
  mapDue : List Nat
  build : List Nat
  reel : Option Reel
  xfer : Option Transfer
  /-- playback index P of a ring, none before its first record (R353) -/
  play : List (Nat × Option Nat)
  /-- records that wait in the buffers of the rings, oldest first (R352) -/
  ringBuf : List (Nat × List (Nat × Nat))
  /-- records still to be written after ACT_RING (R350) -/
  post : List (Nat × Option Nat)
  /-- EV_TAIL_RING was raised for the full ring -/
  ringSaid : List Nat
  /-- previous masked sample of a unit, for CHANGE, 0 before the first -/
  prev : List (Nat × Nat)
  /-- tasks that completed (t) and events stamped (4,096 + IRQ) at this FIG edge -/
  taskHit : List Nat
  /-- trigger units (u) and rings (64 + k) that have sampled at this FIG edge (R347) -/
  sampled : List Nat
  /-- trigger units that are armed at the next FIG edge (R349) -/
  armDue : List Nat
  /-- the FIG edge from which on a paced step may be taken: the walk of sector n (n), its copy-out drain (16 + n), the drain (32) (R331,
  R336) -/
  paced : List (Nat × Nat)
  /-- FIG_COUNT of the bow edge at which the last capture latched (R62), none before the first -/
  strobe : Option Nat
deriving DecidableEq, Repr

/-- The Tail that an unlisted key or State.reset holds. -/
def Tail.init : Tail where
  cap := none
  req := none
  trig := none
  seq := 0
  maps := []
  newest := none
  mapDue := []
  build := []
  reel := none
  xfer := none
  play := []
  ringBuf := []
  post := []
  ringSaid := []
  prev := []
  taskHit := []
  sampled := []
  armDue := []
  paced := []
  strobe := none

/-! ## The mesh (file 10) -/

/-- A request on the mesh: source, tag, direction, internal address, size in bytes, byte enables of the line, data at its byte
positions within the line, poisoned words of the line, and the requester's own reference. -/
structure Acc where
  src : Nat
  tag : Nat
  write : Bool
  addr : Nat
  size : Nat
  be : Nat
  data : Nat
  poison : Nat
  ref : Nat
deriving DecidableEq, Repr

/-- A response: STATUS and CAUSE of R375, data at its byte positions within the line, poisoned words. -/
structure Rsp where
  status : Nat
  cause : Nat
  data : Nat
  poison : Nat
deriving DecidableEq, Repr

/-- The state of one tag of one initiator (R378, R383). -/
inductive Tag where
  /-- free -/
  | idle
  /-- given to an access that waits at its initiator port -/
  | queued (a : Acc)
  /-- sent, the response has not arrived; `drop`: the response is discarded when it arrives (R391) -/
  | busy (a : Acc) (drop : Bool)
  /-- timed out: the tag waits for the late response (R383) -/
  | quarantined
deriving DecidableEq, Repr

/-- What the routers find in the flits of one packet (R381, R382): a corrected bit, a head flit that is uncorrectable with the router and
input that found it, the words of the line that are uncorrectable. -/
structure Flit where
  ce : Bool
  hdr : Option (Nat × Nat)
  ue : Nat
deriving DecidableEq, Repr

/-- A flit (R372): the sideband's VC, KIND (0 BODY, 1 HEAD, 2 TAIL, 3 SINGLE), POISON and ECC, and the 256 payload bits. -/
structure NFlit where
  vc : Nat
  kind : Nat
  poison : Nat
  ecc : Nat
  data : Nat
deriving DecidableEq, Repr

/-- A request that a target holds; `ghost`: the router has answered it in ABSORB (R385). -/
structure Wait where
  acc : Acc
  ghost : Bool
  /-- FIG_COUNT when it was accepted (R397) -/
  at_ : Nat
deriving DecidableEq, Repr

/-- The mesh. Transactions are named by their key 64 s + tag. -/
structure Mesh where
  tags : List (Nat × Tag)
  /-- keys of the accesses that wait at their initiator ports, oldest first -/
  out : List Nat
  /-- the input buffers (R370), oldest flit first, by 4 (8 router + input) + VC: inputs 0 to 3 local ports, 4 N, 5 E, 6 S, 7 W -/
  buf : List (Nat × List NFlit)
  /-- output VCs held by a packet (R370): the input that sends it, by 4 (8 router + output) + VC -/
  grant : List (Nat × Option Nat)
  /-- the input served last in each output VC, and the grants of the present turn of each output (R371) -/
  lastIn : List (Nat × Nat)
  turn : List (Nat × Nat)
  /-- flits of a packet that has been ejected in part, by 4 port + VC, and the VC3 requests that a target holds in its queue (R380) -/
  part : List (Nat × List NFlit)
  vc3 : List (Nat × List Acc)
  /-- requests delivered to target port t and not yet answered, oldest first -/
  waiting : List (Nat × List Wait)
  /-- responses on their way, oldest first: the flits of each (R373) -/
  rsps : List (List NFlit)
  /-- responses that arrived at an initiator and wait for it, oldest first, by source -/
  inbox : List (Nat × List (Acc × Rsp))
  /-- the stale maps (R386): port t and key -/
  stale : List (Nat × Nat)
  /-- bytes of the open monitor window, by 2 s (reads) and 2 s + 1 (writes) -/
  monBytes : List (Nat × Nat)
  /-- IRQ_MSG packets on their way: core and IRQ number (R458) -/
  irqMsgs : List (Nat × Nat)
  /-- fences pending on source s, oldest first: number, and the transaction keys it covers with those not yet visible; and whether a
  covered operation failed (R31 to R35) -/
  fences : List (Nat × List (Nat × List Nat × Bool))
  /-- register writes that their target cannot accept yet, oldest first: source, offset, value (R35, R520) -/
  heldWr : List (Nat × Nat × Word)
deriving DecidableEq, Repr

/-- The Mesh that an unlisted key or State.reset holds. -/
def Mesh.init : Mesh where
  tags := []
  out := []
  buf := []
  grant := []
  lastIn := []
  turn := []
  part := []
  vc3 := []
  waiting := []
  rsps := []
  inbox := []
  stale := []
  monBytes := []
  irqMsgs := []
  fences := []
  heldWr := []

/-! ## In-package memory (file 11) -/

/-- A key pair of one epoch (R405): K_S for scrambling and K_T for tags, byte i of a key in bits 8i + 7 to 8i. -/
structure KeyPair where
  ks : Nat
  kt : Nat
deriving DecidableEq, Repr

/-- A tag line in a controller's cache (R407): its eight words with their check bytes. -/
structure TagLine where
  words : Vector (BitVec 72) 8
  /-- HBM does not hold it yet -/
  dirty : Bool
deriving DecidableEq, Repr

/-- HBM and its keys beside the registers. -/
structure Hbm where
  /-- the stored 72-bit words of data and tag regions, by internal address / 8; unlisted words are 0 with check byte 0 -/
  words : List (Nat × BitVec 72)
  /-- the key pair of ACTIVE, the new pair of REKEY -/
  keys : Option KeyPair
  /-- the old pair of REKEY -/
  old : Option KeyPair
  /-- the tag lines that the controllers cache (R407), by internal address / 64 -/
  cache : List (Nat × Option TagLine)
  /-- the least FIG_COUNT of the next line of each stack's sweep (R415) -/
  swept : List (Nat × Nat)
deriving DecidableEq, Repr

/-- The Hbm that an unlisted key or State.reset holds. -/
def Hbm.init : Hbm where
  words := []
  keys := none
  old := none
  cache := []
  swept := []

/-! ## The counter tree (file 11) -/

/-- One overflow record of the counter tree's log (R424, R426). -/
structure IntRec where
  /-- 0 leaf, 1 bucket, 2 device -/
  level : Nat
  /-- CNT_FAULT -/
  fault : Bool
  node : Nat
  /-- FIG_COUNT bits 47:0 -/
  stamp : Nat
deriving DecidableEq, Repr

/-- The counter tree beside its registers. A counter's number: leaf L, bucket 1,000 + b, device bucket 1,017. -/
structure Integ where
  /-- the log, oldest first, at most 64 once an edge is over -/
  log : List IntRec
  /-- parent buckets (17 for the device bucket) that add 1 at the next edge, each with the edge of the overflow -/
  due : List (Nat × Nat)
  /-- counters that an event has overflowed at this edge (R423) -/
  overs : List Nat
  /-- counters whose leak at this edge is done (R423) -/
  leaked : List Nat
  /-- counters whose parity is wrong -/
  bad : List Nat
deriving DecidableEq, Repr

/-- The Integ that an unlisted key or State.reset holds. -/
def Integ.init : Integ where
  log := []
  due := []
  overs := []
  leaked := []
  bad := []

/-! ## Station cores (file 12) -/

/-- An accumulator (R433): 40 bits, the residue modulo 3, the poison bit. -/
structure AccReg where
  v : BitVec 40
  r : BitVec 2
  p : Bool
deriving DecidableEq, Repr

/-- The AccReg that an unlisted key or State.reset holds. -/
def AccReg.init : AccReg where
  v := 0
  r := 0
  p := false

/-- What a core's reservation names (R452). -/
inductive Resv where
  /-- a word of X (false) or Y (true) -/
  | word (y : Bool) (i : Nat)
  /-- a hub semaphore -/
  | sem (i : Nat)
deriving DecidableEq, Repr

/-- The window access whose response a stalled core awaits (R436): the instruction's word, its local address, whether a debugger fed it. -/
structure Stall where
  insn : Word
  addr : Nat
  fed : Bool
deriving DecidableEq, Repr

/-- A core beside its register block (R433). Tables list what is not 0. PC and PCR are in ST_STAT. -/
structure Core where
  d : List (Nat × BitVec 16)
  v : List (Nat × BitVec 16)
  p : List (Nat × Word)
  n : List (Nat × BitVec 16)
  a0 : AccReg
  a1 : AccReg
  /-- control registers by their index in class 5 (R470); SR holds bits 7:0 -/
  ctl : List (Nat × Word)
  /-- call stack, latest first: PC with PCR as bit 16 -/
  calls : List Nat
  /-- interrupt stack, latest first: PC with PCR as bit 16, and SR -/
  ints : List (Nat × Word)
  resv : Option Resv
  stall : Option Stall
  /-- P, X and Y memory as 39-bit words (R437) -/
  pm : List (Nat × BitVec 39)
  xm : List (Nat × BitVec 39)
  ym : List (Nat × BitVec 39)
  /-- prescale counters of the timers -/
  pre : List (Nat × Nat)
  /-- a halt cause that is visible: WHY and UNIT (R493, R495) -/
  halt : Option (Nat × Nat)
  /-- the core steps: it halts after one instruction (R499) -/
  stepping : Bool
  /-- the first instruction after RESUME or STEP matches no breakpoint (R499) -/
  skipBp : Bool
  /-- a watchdog reset is due at the next CORE edge (R463) -/
  wdtDue : Bool
  /-- counts that writes of ST_TMR_CNT bring at the next CORE edge: timer and value (R460) -/
  cntDue : List (Nat × Nat)
  /-- counters whose next CORE edge a command has already brought: 0 and 1 the timers, 2 the watchdog -/
  early : List Nat
  /-- the FIG edge at which CNT of the watchdog last became 0 (R462) -/
  expired : Option Nat
deriving DecidableEq, Repr

/-- The Core that an unlisted key or State.reset holds. -/
def Core.init : Core where
  d := []
  v := []
  p := []
  n := []
  a0 := AccReg.init
  a1 := AccReg.init
  ctl := []
  calls := []
  ints := []
  resv := none
  stall := none
  pm := []
  xm := []
  ym := []
  pre := []
  halt := none
  stepping := false
  skipBp := false
  wdtDue := false
  cntDue := []
  early := []
  expired := none

/-! ## The scan port (file 13) -/

/-- The scan port and the debug port beside their registers. -/
structure Scan where
  /-- the current instruction (R474) -/
  ir : Nat
  /-- the update stage of the boundary register, bit p for position p (R477) -/
  bsr : Nat
  /-- what the instruction register captured last (R474) -/
  irCap : Nat
  /-- what the selected data register captured last -/
  dr : Nat
  /-- a debug access is in progress (R483) -/
  busy : Bool
  /-- ACK, read data and STATUS of the last completed access (R482) -/
  ack : Nat
  rdata : Word
  status : Nat
  /-- the access that waits for its tag (R383) -/
  held : Option Acc
  /-- the input buffer of a scan-port load, oldest word first, and OVERRUN (R489) -/
  buf : List Word
  overrun : Bool
deriving DecidableEq, Repr

/-- The Scan that an unlisted key or State.reset holds. -/
def Scan.init : Scan where
  ir := 2
  bsr := 0
  irCap := 1
  dr := 0
  busy := false
  ack := 0
  rdata := 0
  status := 0
  held := none
  buf := []
  overrun := false

/-! ## Ballast and power states (file 14) -/

/-- The Ballast arbiter beside its registers. Consumers by their number in R506. -/
structure Ballast where
  /-- the round hold (R511) -/
  hold : Bool
  /-- charge metered in the window so far -/
  sum : List (Nat × Nat)
  /-- consumers that held rounds or stopped ports at an edge of the window (R508) -/
  held : List Nat
  /-- reservations already exceeded in the window (R506) -/
  exceeded : List Nat
  /-- the stack controllers' ports accept no request until the next window (R512) -/
  portStop : Bool
  /-- the FIG edge whose window has been opened (R505) -/
  served : Option Nat
  /-- the FIG edge at which the droop clamp became visible (R513) -/
  clampFig : Nat
  /-- the grants that take effect at the next window (R508) -/
  next : List (Nat × Nat)
  /-- a request of a state made while a transition is in progress (R523) -/
  req : Option Nat
deriving DecidableEq, Repr

/-- The Ballast that an unlisted key or State.reset holds. -/
def Ballast.init : Ballast where
  hold := false
  sum := []
  held := []
  exceeded := []
  portStop := false
  served := none
  clampFig := 0
  next := []
  req := none

/-! ## The host interface and security (file 15) -/

/-- One MSI-X table entry (R532, PCI Express format). -/
structure Msix where
  addr : Nat
  data : Nat
  masked : Bool
deriving DecidableEq, Repr

/-- The Msix that an unlisted key or State.reset holds. -/
def Msix.init : Msix where
  addr := 0
  data := 0
  masked := true

/-- A ring descriptor in progress (R541, R542). -/
structure Desc where
  ring : Nat
  index : Nat
  d2h : Bool
  irq : Bool
  fence : Bool
  len : Nat
  host : Nat
  dev : Nat
  /-- the number that its accesses carry as their reference -/
  id : Nat
  /-- its data: H2D what the host delivered, D2H what its reads have brought so far; and whether it is poisoned -/
  data : Nat
  poison : Bool
  /-- H2D: the host has delivered the data; D2H: the data has been written to the host -/
  moved : Bool
  /-- device accesses that have not completed -/
  left : Nat
  /-- its last operation on host memory -/
  op : Nat
  /-- it is complete -/
  done : Bool
deriving DecidableEq, Repr

/-- An inbound memory TLP whose mesh accesses are in progress (R533): their number still to complete, the worst outcome, the data so far. -/
structure Tlp where
  id : Nat
  write : Bool
  bar2 : Bool
  addr : Nat
  bytes : Nat
  left : Nat
  status : Nat
  cause : Nat
  ep : Bool
  data : Nat
  /-- a read: the dwords of its completion that are uncorrectable in the endpoint's buffers (R536) -/
  ue : Nat
deriving DecidableEq, Repr

/-- An inbound TLP (R533, R534, R536): a memory read or write of `bytes` bytes at offset `off` of BAR0 or BAR2, with byte enables, data,
EP, and the words of the endpoint's buffers found correctable or uncorrectable; or an access to the configuration space (R532). -/
inductive HostTlp where
  /-- a memory read or write: `be` and `data` count from the byte at `off`; `ce`: a corrected word; `hdr`: an uncorrectable header word;
  `ue`: the uncorrectable data words, bit k for dword k of the payload, of a read's completion -/
  | mem (write bar2 : Bool) (off bytes be data : Nat) (ep ce hdr : Bool) (ue : Nat)
  /-- Bus Master Enable, MSI-X Enable and Function Mask -/
  | config (busMaster msixEnable funcMask : Bool)
  /-- a write of BAR `i` -/
  | bar (i : Nat) (v : Word)
  /-- a read of dword `i` of the configuration header -/
  | header (i : Nat)
  /-- a write of PowerState: D3hot or D0 -/
  | power (d3 : Bool)
deriving DecidableEq, Repr

/-- What the endpoint's buffers find in a TLP (R536): a corrected word, an uncorrectable header word, the uncorrectable data words (bit
k for dword k of the payload). -/
structure HifUp where
  ce : Bool
  hdr : Bool
  ue : Nat
deriving DecidableEq, Repr

/-- What a completion from the host, or its timeout, finishes (R535). -/
inductive HostWait where
  /-- a read of a host image load -/
  | image
  /-- the data read of descriptor `index` of a ring -/
  | data (ring index : Nat)
  /-- the zero-length read of a descriptor -/
  | zero (ring index : Nat)
  /-- the oldest zero-length read that a fence on source 0 has the hub issue (R32) -/
  | flush
deriving DecidableEq, Repr

/-- The PCIe endpoint. -/
structure HostIf where
  msix : List (Nat × Msix)
  /-- pending bits of the vectors -/
  pend : List Nat
  msixEnable : Bool
  funcMask : Bool
  busMaster : Bool
  /-- BAR0 to BAR3 as the host has written them (R532) -/
  bars : List (Nat × Word)
  /-- the function is in D3hot (R531, R532) -/
  d3 : Bool
  ltrEnable : Bool
  ltrSnoop : Nat
  ltrNoSnoop : Nat
  /-- LTR messages sent (R538) -/
  ltrSent : Nat
  /-- messages sent to the host, latest first: vector numbers -/
  sent : List Nat
  /-- descriptors in progress, in the order they started -/
  descs : List Desc
  /-- the ring that the DMA engine served last (R542) -/
  lastRing : Nat
  /-- inbound TLPs in progress, oldest first, the next number, and their accesses that wait for a tag -/
  tlps : List Tlp
  tlpSeq : Nat
  todo : List Acc
  /-- AER errors signalled, latest first: 0 Unsupported Request, 1 Completer Abort, 2 Uncorrectable Internal, 3 Poisoned TLP -/
  aer : List Nat
  /-- the AER header log (R533): of each access with an outcome other than OK whether its TLP is a write and for BAR2, the TLP's address and
  bytes; latest first -/
  hdrLog : List (Bool × Bool × Nat × Nat)
  /-- completions given to the host, latest first: 0 Successful, 1 Successful with EP, 2 Unsupported Request, 3 Completer Abort; and the
  data -/
  cpl : List (Nat × Nat)
  /-- writes of the rings to host memory, latest first: address, bytes, data, EP -/
  hostWr : List (Nat × Nat × Nat × Bool)
  /-- the next number of an operation of source 0 on host memory, and the ones not yet visible (R32): reads of data, and writes -/
  opSeq : Nat
  ops : List Nat
  /-- zero-length reads on their way for fences, oldest first: the last write that each follows -/
  flush : List Nat
deriving DecidableEq, Repr

/-- The HostIf that an unlisted key or State.reset holds. -/
def HostIf.init : HostIf where
  msix := []
  pend := []
  msixEnable := false
  funcMask := false
  busMaster := false
  bars := []
  d3 := false
  ltrEnable := false
  ltrSnoop := 0
  ltrNoSnoop := 0
  ltrSent := 0
  sent := []
  descs := []
  lastRing := 1023
  tlps := []
  tlpSeq := 0
  todo := []
  aer := []
  hdrLog := []
  cpl := []
  hostWr := []
  opSeq := 0
  ops := []
  flush := []

/-- An open unlock sequence of a protected register (R548): the source and the MESH time of its first write. -/
structure Unlock where
  src : Nat
  time : Nat
deriving DecidableEq, Repr

/-- Fuses (R544) and the other values sampled at POR. Digests and keys are numbers; none where the fuse is empty. -/
structure Fuses where
  bound : Bool
  sealed : Bool
  sk : List (Nat × Option Nat)
  revoked : List Nat
  dbg : Option Nat
  version : Nat
  key : List (Nat × Option Nat)
  uid : Nat
  /-- Tiwyn's vendor identifier (R532) -/
  vendor : Nat
  grade : Nat
  stepping : Nat
  oscCode : Nat
  tripC : Nat
  derateC : Nat
deriving DecidableEq, Repr

/-- The Fuses that an unlisted key or State.reset holds. -/
def Fuses.init : Fuses where
  bound := false
  sealed := false
  sk := []
  revoked := []
  dbg := none
  version := 0
  key := []
  uid := 0
  vendor := 0
  grade := 0
  stepping := 0
  oscCode := 0
  tripC := 0
  derateC := 0

/-- Security. -/
structure Security where
  fuses : Fuses
  /-- volatile key slots 4 to 7 (R546) -/
  slots : List (Nat × Option Nat)
  /-- open unlock sequences: 0 SEC_FUSE_CMD, 1 SEC_KEY_CMD, 2 SEC_ALARM_CFG -/
  unlock : List (Nat × Option Unlock)
  /-- the fuse command that runs: OP and SLOT -/
  fuseCmd : Option (Nat × Nat)
  /-- SEC_KEY_DATA words 0 to 11 as the running command took them -/
  fuseData : Nat
  /-- SEC_KEY_DATA: written words, which read 0 -/
  keyData : List (Nat × Word)
  /-- the nonce of the challenge given, none when consumed or none given -/
  nonce : Option Nat
  /-- the word of the challenge that the next Capture-DR of AUTH returns (R488) -/
  authWord : Nat
  used : List Nat
  /-- response words so far -/
  resp : List Word
  /-- an alarm with action ALARM has been raised and its effects of R551 are due -/
  alarmDue : Bool
  /-- the fuse array reads with an error, which lasts until POR reads it again (R544, R553) -/
  fuseBad : Bool
deriving DecidableEq, Repr

/-- The Security that an unlisted key or State.reset holds. -/
def Security.init : Security where
  fuses := Fuses.init
  slots := []
  unlock := []
  fuseCmd := none
  fuseData := 0
  keyData := []
  nonce := none
  authWord := 0
  used := []
  resp := []
  alarmDue := false
  fuseBad := false

/-! ## Pins, the Gondola and the Tether (file 16) -/

/-- A transfer that the transfer engine of the Gondola has to do (R570). -/
structure Gdl where
  /-- HBM to Gondola -/
  out : Bool
  len : Nat
  gaddr : Nat
  hbm : Nat
deriving DecidableEq, Repr

/-- A message of channel 1 of the Tether (R572). -/
inductive TetMsg where
  /-- CFG: PULL_DEFAULT on every pin while outputs are off, none: the ordinary settings, which no register of the spec holds -/
  | cfg (pull : Option Nat)
  /-- CLK: TET_CKOUT(0) and TET_CKOUT(1) -/
  | clk (a b : Word)
  /-- PULSE: the clock outputs to pulse -/
  | pulse (mask : Nat)
deriving DecidableEq, Repr

/-- The Tether: the messages to the target, and the target side. -/
structure Tether where
  /-- the OUT message in progress on channel 0: values and output enables; another is due when it ends -/
  msg0 : Option (Nat × Nat)
  due0 : Bool
  /-- the message in progress on channel 1, and those that wait -/
  msg1 : Option TetMsg
  due1 : List TetMsg
  /-- the target side: TP output values and enables, the pull of the last CFG, the settings of the clock outputs, the outputs that the last
  PULSE pulsed -/
  out : Nat
  oe : Nat
  pull : Option Nat
  ckA : Word
  ckB : Word
  pulse : Nat
  /-- SEQ of the next message of channels 0 to 3 (R572) -/
  seq0 : Nat
  seq1 : Nat
  seq2 : Nat
  seq3 : Nat
  /-- CFG, CLK and OUT are still to be sent after the entry to UP, and then EV_TETHER_UP (R576) -/
  telling : Bool
  /-- the outputs are released and the clock outputs low (R577) -/
  silent : Bool
  /-- the clock inputs as last measured, in kHz -/
  khz0 : Nat
  khz1 : Nat
deriving DecidableEq, Repr

/-- The Tether that an unlisted key or State.reset holds. -/
def Tether.init : Tether where
  msg0 := none
  due0 := false
  msg1 := none
  due1 := []
  out := 0
  oe := 0
  pull := none
  ckA := 0
  ckB := 0
  pulse := 0
  seq0 := 0
  seq1 := 0
  seq2 := 0
  seq3 := 0
  telling := false
  silent := true
  khz0 := 0
  khz1 := 0

/-- The pins beside their registers. -/
structure Pins where
  /-- TRIG lines whose pulse requests are on their way (R565) -/
  trigReq : List Nat
  /-- what the board drives onto the balls: a level, or none for a ball that nothing outside drives -/
  ext : List (Nat × Option Bool)
  /-- the boundary register drives the balls (R479): its cells, with no output enabled for HIGHZ -/
  bs : Option Nat
  /-- transmit and receive FIFOs of the UARTs, oldest first; a received byte with its error flag as bit 8 -/
  utx : List (Nat × List Nat)
  urx : List (Nat × List Nat)
  /-- OP of the command that an I2C controller runs -/
  i2cOp : List (Nat × Nat)
  spiTx : List Nat
  spiRx : List Nat
  /-- TRIG lines whose pulse is being driven -/
  pulse : List Nat
  /-- the level each TRIG line saw last in input mode -/
  trigIn : List (Nat × Bool)
  /-- the last poll of the Gondola's EEPROM was acknowledged; none before the first -/
  poll : Option Bool
  /-- transfers of the transfer engine, oldest first -/
  gdl : List Gdl
  /-- the identity record fails its MAGIC or CRC (R569) -/
  idBad : Bool
  /-- the record is to be read again after a write (R569) -/
  reread : Bool
  tet : Tether
  /-- what was last written to the Gondola: byte address, bytes (R359, R570) -/
  sent : Option (Nat × Nat)
deriving DecidableEq, Repr

/-- The Pins that an unlisted key or State.reset holds. -/
def Pins.init : Pins where
  trigReq := []
  ext := []
  bs := none
  utx := []
  urx := []
  i2cOp := []
  spiTx := []
  spiRx := []
  pulse := []
  trigIn := []
  poll := none
  gdl := []
  idBad := false
  reread := false
  tet := Tether.init
  sent := none


end Sys2Proof.Machine
end

