-- ==== Sys2Proof/Syntax.lean ====
section
/-! DEFINITION. Sys2Proof/Syntax.lean: the commands of the M9, one constructor per row of spec/opcode_table.json, in its order. The
operands are what the row's rule needs beside the state: an index, a written value, or a value that the spec leaves to the world outside
the block (a measured count, an arriving frame, the outcome of a cryptographic check; log entry 6). -/

namespace Sys2Proof

open Sys2Proof.Machine

/-- A command of the M9. -/
inductive Instr where
  /-- REGISTER_WRITE (R10): A write to a register or field with no row of its own takes effect according to its access code. -/
  | registerWrite (src : Nat) (off : Nat) (v : Word)
  /-- POR (R13): Power-on reset or POR_N low resets the whole device and samples straps and fuses. -/
  | por (boot : Nat) (pull : Nat) (fuseErr : Bool)
  /-- GLITCH_DETECT (R585): A short VCC_CORE excursion or clock glitch raises AL_GLITCH. -/
  | glitchDetect
  /-- DEV_ORD_FENCE (R31): A write of GO to DEV_ORD_FENCE(s) issues a numbered fence on source s. -/
  | devOrdFence (src : Nat)
  /-- FENCE_COMPLETE (R34): A pending fence completes once all covered operations are visible, incrementing DEV_ORD_DONE and setting EVT
  or ERR. -/
  | fenceComplete (src : Nat)
  /-- BOW (R262): At the bow edge design state commits, ROUND_COUNT increments and due resets, restores, freezes, releases and stops act. -/
  | bow (up : List (Nat × Nat)) (flips : List (Nat × Nat))
  /-- INBOUND_CROSSING (R80): A value written to the FIG side of an inbound word reaches its fabric side through the two-flop handshake. -/
  | inboundCrossing (g : Nat)
  /-- OUTBOUND_CROSSING (R81): A sampled outbound word value reaches its FIG side through the three-flop handshake. -/
  | outboundCrossing (g : Nat)
  /-- APERTURE_INBOUND_WRITE (R85): A write to an inbound word through the boundary aperture is accepted only while rounds are stopped
  and the hold is released. -/
  | apertureInboundWrite (n : Nat) (w : Nat) (r : Nat) (v : Word)
  /-- APERTURE_LO_READ (R86): A read of SEC_BND_IN_LO or SEC_BND_OUT_LO copies the word's HI and STAT into the aperture hold register. -/
  | apertureLoRead (n : Nat) (w : Nat) (out : Bool)
  /-- MASTER_REQUEST (R88): A request accepted on the fabric master port is checked and sent into the mesh on VC0. -/
  | masterRequest (n : Nat)
  /-- MASTER_FENCE (R87): M_FENCE_REQ issues a fence on source 32 + n. -/
  | masterFence (n : Nat)
  /-- MASTER_RESPONSE (R88): A mesh response for the master port is buffered and presented to the fabric. -/
  | masterResponse (n : Nat)
  /-- TARGET_REQUEST (R90): A mesh request to the user sector window is presented to the fabric target port. -/
  | targetRequest (n : Nat) (id : Nat)
  /-- TARGET_RESPONSE (R90): The fabric answers a target-port request by ID, completing it or discarding a stray. -/
  | targetResponse (n : Nat)
  /-- BRAM_PORT_ACCESS (R98): A block-memory port with EN captures its address and reads or writes the row with ECC and poison handling. -/
  | bramPortAccess (m : Nat) (a : Bool) (b : Bool) (up : List (Nat × Nat))
  /-- SLICE_UPDATE (R117): An arithmetic slice computes its result with residue check and poison at its active edge. -/
  | sliceUpdate (sls : List (Nat × Nat))
  /-- WALK_ROW (R113): The Tail walker reads one uncopied design-memory row through the snapshot port and sets its copied bit. -/
  | walkRow (n : Nat) (up : List (Nat × Nat))
  /-- COPYOUT_DRAIN (R336): The Tail drains a full copy-out register to the Spool. -/
  | copyoutDrain (i : Nat) (up : List (Nat × Nat))
  /-- TRIM_WINDOW_END (R130): At the end of a trim window the engine compares the OSC count with EXP and steps CODE. -/
  | trimWindowEnd (c : Nat)
  /-- TRIM_REF_MISSING (R132): A trim window that has not ended after 4 x EXP OSC cycles sets REF_MISSING and freezes CODE. -/
  | trimRefMissing
  /-- PLL_SETTING_CHANGE (R137): A change of FBDIV, REFDIV or REF_SEL stops the PLL outputs low and starts a relock. -/
  | pllSettingChange (p : Nat) (w : Word)
  /-- PLL_LOCK (R135): A PLL reports LOCK and, under AUTO, its domain switches to it. -/
  | pllLock (p : Nat)
  /-- PLL_LOCK_TIMEOUT (R135): A PLL not locked 200 us after enable or change sets TMO. -/
  | pllLockTimeout (p : Nat)
  /-- PLL_UNLOCK (R138): A locked PLL loses lock, sets UNLOCK and raises EV_CLK_PLL_UNLOCK. -/
  | pllUnlock (p : Nat)
  /-- DIVIDER_CHANGE (R145): A change of DIV, OUTDIV or EN takes effect at the end of the current output period or low phase. -/
  | dividerChange (a : Nat)
  /-- CLOCK_SWITCH_REQUEST (R153): A write to a source field or a failover requests a glitch-free switch and stops the old clock low. -/
  | clockSwitchRequest (m : Nat) (src : Nat)
  /-- CLOCK_SWITCH_DONE (R153): After the acknowledgement and withheld cycles the multiplexer restarts on the new source. -/
  | clockSwitchDone (m : Nat)
  /-- CLOCK_SWITCH_FORCED (R154): No acknowledgement by the 16th new-source edge forces the switch and sets CLK_SW_DEAD. -/
  | clockSwitchForced (m : Nat)
  /-- GATE_CLOSE (R159): A write of 0 to a gate bit starts closing the block's clock gate. -/
  | gateClose (i : Nat)
  /-- GATE_STOP (R159): The gated block's clock stops at its low phase once its interface reports idle. -/
  | gateStop (i : Nat)
  /-- GATE_TIMEOUT (R160): After 64 block-clock cycles the gate closes by force and sets CLK_GATE_FORCED. -/
  | gateTimeout (i : Nat)
  /-- GATE_OPEN (R162): A write of 1 to a gate bit restarts the block clock at its next low phase. -/
  | gateOpen (i : Nat)
  /-- CLOCK_MONITOR_WINDOW (R165): At the end of a monitor window the count is compared with LO and HI and flags are set. -/
  | clockMonitorWindow (m : Nat) (c : Nat)
  /-- CLOCK_ABSENT (R165): 64 OSC cycles without an edge of the monitored clock set ABSENT. -/
  | clockAbsent (m : Nat)
  /-- FULL_LOAD (R185): GO with OP FULL asserts the global hold and loads a full image from the selected source. -/
  | fullLoad (src : Nat) (auto : Bool) (img : Image)
  /-- PARTIAL_LOAD (R193): GO with OP PARTIAL checks a partial image and reloads the armed bay. -/
  | partialLoad (src : Nat) (img : Image)
  /-- FIRMWARE_LOAD (R206): GO with OP FIRMWARE checks an image and rewrites the memories of the named cores. -/
  | firmwareLoad (src : Nat) (img : Image)
  /-- TABLES_LOAD (R207): GO with OP TABLES checks an image and applies its register-write records. -/
  | tablesLoad (src : Nat) (img : Image)
  /-- BLANK (R195): GO with OP BLANK writes zeros to every frame and memory of the bay and brings it to LOADED. -/
  | blank
  /-- CFG_START (R188): GO with OP START begins the start-up sequence at FIG edge s. -/
  | cfgStart
  /-- START_UP_STEP (R188): At s+16, s+80, s+96 and s+112 the start-up sequence opens clocks, releases the hold, enables outputs and
  sets STARTED. -/
  | startUpStep
  /-- CFG_ABORT (R195): A write of ABORT ends the current configuration operation with ABORTED. -/
  | cfgAbort
  /-- SOURCE_TIMEOUT (R184): No byte from the load source for 100 ms ends the load with SOURCE_TIMEOUT. -/
  | sourceTimeout
  /-- FRAMES (R175): A FRAMES record writes COUNT frames from its data. -/
  | framesRecord
  /-- REPEAT (R175): A REPEAT record writes one frame to COUNT frame indices. -/
  | repeatRecord
  /-- ZERO (R175): A ZERO record writes COUNT frames as zeros. -/
  | zeroRecord
  /-- CONTENT (R175): A CONTENT record writes the contents of COUNT block memories. -/
  | contentRecord
  /-- CONTENT_ZERO (R175): A CONTENT_ZERO record fills COUNT block memories with zeros. -/
  | contentZeroRecord
  /-- FENCE_RECORD (R175): A FENCE record issues a fence on source 20. -/
  | fenceRecord
  /-- END (R175): An END record ends a bay or table section. -/
  | endRecord
  /-- WRITE (R177): A table WRITE record writes COUNT value words to consecutive hub registers as source 20. -/
  | writeRecord
  /-- BAY_READBACK (R187): After writing a bay the engine reads it back and compares the bay CRC. -/
  | bayReadback (up : List (Nat × Nat))
  /-- PR_ARM (R189): A write of ARM arms a freeze of the bay in the selected MODE and REL_MODE. -/
  | prArm (mode : Nat) (relFirst : Bool) (bay : Nat)
  /-- PR_CANCEL (R195): A write of CANCEL disarms a pending freeze, or acts as ABORT after it. -/
  | prCancel
  /-- CLAIM_MAP_REBUILD (R199): An uncorrectable claim-map entry makes the engine rebuild the map from the frame mirror. -/
  | claimMapRebuild
  /-- SCRUB_FRAME_READ (R200): Every INTERVAL CORE cycles the scrubber reads one frame and corrects or repairs it by POLICY. -/
  | scrubFrameRead (up : List (Nat × Nat)) (see : Nat)
  /-- TASK_DISPATCH (R224): The arbiter fills free step units with ready or suspended tasks, checking descriptors and preempting for
  class 0. -/
  | taskDispatch (ues : List Nat) (qs : List Nat)
  /-- NOP (R216): Caller step NOP performs no action and sends its signals. -/
  | callerNop (u : Nat) (ue : Option Nat)
  /-- CAPTURE (R216): Caller step CAPTURE reads an outbound word and pushes the bundle into a queue. -/
  | callerCapture (u : Nat) (ue : Option Nat)
  /-- DELIVER (R216): Caller step DELIVER pops a bundle and writes it to an inbound word. -/
  | callerDeliver (u : Nat) (e : Ecc) (ue : Option Nat)
  /-- CAPSEND (R216): Caller step CAPSEND captures an outbound word and hands the bundle off to a node. -/
  | capsend (u : Nat) (ue : Option Nat)
  /-- SEND (R216): Caller step SEND pops a bundle and hands it off to a node. -/
  | callerSend (u : Nat) (e : Ecc) (ue : Option Nat)
  /-- COPY (R216): Caller step COPY moves the head of one queue into another. -/
  | callerCopy (u : Nat) (e : Ecc) (ue : Option Nat)
  /-- LOAD (R216): Caller step LOAD issues a 64-bit mesh read whose result is pushed into a queue. -/
  | callerLoad (u : Nat) (ue : Option Nat)
  /-- STORE (R216): Caller step STORE pops a bundle and writes it to the mesh. -/
  | callerStore (u : Nat) (e : Ecc) (ue : Option Nat)
  /-- DELAY (R222): Caller step DELAY forms a key and inserts an entry into a delay list. -/
  | callerDelay (u : Nat) (ue : Option Nat)
  /-- SETCLK (R220): Caller step SETCLK sets bits of CLK_RND_REQ. -/
  | setclk (u : Nat) (ue : Option Nat)
  /-- FENCE (R220): Caller step FENCE issues a fence on source 18 and waits for it. -/
  | callerFence (u : Nat) (ue : Option Nat)
  /-- CALLER_MESH_RESPONSE (R219): The mesh response to a Caller LOAD or STORE returns and completes the step. -/
  | callerMeshResponse (t : Nat) (ue : Option Nat)
  /-- DLIST_EXPIRY (R223): A figure-keyed delay-list entry expires and sets its task flag. -/
  | dlistExpiry (l : Nat)
  /-- BUNDLE_ARRIVAL (R232): A port presents an arriving bundle to the Caller, which pushes it into its queue. -/
  | bundleArrival (n : Nat) (ecc : Ecc) (hdr : Bool)
  /-- SPILL_READBACK (R236): A spilled queue entry read back from HBM is checked and placed on chip. -/
  | spillReadback (q : Nat) (up : List (Nat × Nat))
  /-- CALLER_DONE (R237): DONE becomes 1 when every required task has run and queues and lists are empty. -/
  | callerDone
  /-- CALLER_STALL (R242): LIMIT figures without progress set STALL and raise EV_CALLER_STALL. -/
  | callerStall
  /-- CLR_FAULT (R210): A write of CLR_FAULT moves a faulted task to WAIT. -/
  | clrFault (t : Nat)
  /-- TASK_FLAG_WRITE (R215): A software write to CALLER_TASK_FLAGS sets latched flags at the next edge. -/
  | taskFlagWrite (t : Nat) (hi : Bool) (v : Word)
  /-- GO (R244): A write of GO to CALLER_SWAP requests a table swap in the latched MODE. -/
  | swapGo (mode : Nat)
  /-- SYNC (R245): A write of SYNC starts copying the active banks into the shadow banks. -/
  | syncGo
  /-- SYNC_DONE (R245): The bank copy ends and held shadow writes land. -/
  | syncDone
  /-- QPORT_PUSH (R251): A write to CALLER_QPORT_PUSH pushes a bundle into the selected queue while rounds are stopped. -/
  | qportPush (poison : Bool)
  /-- QPORT_POP (R251): A read of CALLER_QPORT_POP pops the head of the selected queue while rounds are stopped. -/
  | qportPop (e : Ecc) (up : List (Nat × Nat))
  /-- LOCAL_READY (R260): When all readiness conditions hold the node sends BOW tokens to every valid peer. -/
  | localReady
  /-- BOW_ANNOUNCE (R261): With local readiness, all peer BOW tokens and no hold, the bow is announced for edge x+2. -/
  | bowAnnounce
  /-- ROUND_OVERRUN (R268): A round not ready at count 65,534 enters ABORTED and sends HOLD. -/
  | roundOverrun
  /-- LAT_START (R272): LAT_CMD OP START originates a START message with MATCH and an optional stop target. -/
  | latStart (steps : Nat)
  /-- LAT_RESUME (R272): LAT_CMD OP RESUME originates a START message with MATCH = 0. -/
  | latResume (steps : Nat)
  /-- STOP_ABS (R272): LAT_CMD OP STOP_ABS originates a STOP message with the target in LAT_STOP. -/
  | stopAbs
  /-- STOP_REL (R272): LAT_CMD OP STOP_REL originates a STOP message with ROUND_COUNT + STOP_LEAD. -/
  | stopRel
  /-- STOP_NOW (R274): LAT_CMD OP STOP_NOW makes a local stop-now request that stops the node at its next bow. -/
  | stopNow
  /-- RESET_LOCAL (R281): LAT_CMD OP RESET_LOCAL makes a local lattice reset. -/
  | resetLocal
  /-- RESET_LATTICE (R281): LAT_CMD OP RESET_LATTICE originates a RESET message and makes a local lattice reset. -/
  | resetLattice
  /-- RESET_EDGE (R280): A reset edge passes round-mode edges to the affected sectors without commit, applying lattice or sector reset. -/
  | resetEdge
  /-- SECTOR_RESET_REQUEST (R282): A write to LAT_SECTOR_RST requests a sector reset at the next bow or a reset edge 16 f later. -/
  | sectorResetRequest (mask : Nat)
  /-- START_MESSAGE (R271): A received START message is accepted, refused or ignored by state and forwarded to peers. -/
  | startMessage (n : Nat) (slots : List (List Nat)) (e : Ecc) (hdr : Bool)
  /-- STOP_MESSAGE (R272): A received STOP message sets the stop target and is forwarded. -/
  | stopMessage (n : Nat) (slots : List (List Nat)) (e : Ecc) (hdr : Bool)
  /-- RESET_MESSAGE (R281): A received RESET message performs a lattice reset and is forwarded. -/
  | resetMessage (n : Nat) (slots : List (List Nat)) (e : Ecc) (hdr : Bool)
  /-- START_EDGE (R271): Two figures after the start beat the node enters RUN, sets the round flag and sends RUN. -/
  | startEdge
  /-- BOW_TOKEN (R265): A BOW token from a peer is kept, or discarded and logged. -/
  | bowToken (n : Nat) (slots : List (List Nat)) (e : Ecc) (hdr : Bool)
  /-- HOLD_TOKEN (R274): A HOLD token makes its sender a holder and may put the node into HELD. -/
  | holdToken (n : Nat) (slots : List (List Nat)) (e : Ecc) (hdr : Bool)
  /-- RELAY_TOKEN (R274): A RELAY token is kept and makes its sender a holder only if the node is not HELD. -/
  | relayToken (n : Nat) (slots : List (List Nat)) (e : Ecc) (hdr : Bool)
  /-- RUN_TOKEN (R274): A RUN token replaces a peer's hold and may release the node from HELD. -/
  | runToken (n : Nat) (slots : List (List Nat)) (e : Ecc) (hdr : Bool)
  /-- PEER_LOST (R283): A peer DOWN for LOSS_TMO is marked LOST. -/
  | peerLost (i : Nat)
  /-- NODE_ONLINE (R267): An OFFLINE node after POR enters STOPPED once VALID, FIG on PLL and STARTED hold. -/
  | nodeOnline
  /-- BEAT_FORM (R325): The beat master forms a beat mark at each multiple of INTERVAL. -/
  | beatForm
  /-- BEAT_MARK (R269): A received beat mark updates BEAT_COUNT, is relayed, and counts for the trim engine. -/
  | beatMark (n : Nat) (slots : List (List Nat))
  /-- BULK_FRAME_BUILD (R301): The transmitter builds a bulk frame from credited bundles of the bulk queue. -/
  | bulkFrameBuild (n : Nat)
  /-- BULK_FRAME (R294): A received bulk frame is checked and its bundles accepted into their pools, or a retry is requested. -/
  | bulkFrame (n : Nat) (slots : List (List Nat))
  /-- CUT_IN (R296): A received cut-in bundle is checked and accepted into its urgent pool. -/
  | cutIn (n : Nat) (slots : List (List Nat))
  /-- TRANSIT_FORWARD (R306): A transit-pool entry moves to the transmit queue of its route port and its credit frees. -/
  | transitForward (n : Nat) (p : Nat) (e : Ecc) (hdr : Bool)
  /-- RETRY_REQUEST (R308): A received retry request replays every unacknowledged frame from the named LSEQ. -/
  | retryRequest (n : Nat) (slots : List (List Nat)) (ue : List Nat) (hdr : Bool)
  /-- RETRY_TIMEOUT (R309): E not advancing for REQ_TMO resends the retry request. -/
  | retryTimeout (n : Nat)
  /-- REPLAY_TIMEOUT (R309): ACK not advancing for 4 x REQ_TMO replays from the oldest unacknowledged frame. -/
  | replayTimeout (n : Nat) (ue : List Nat) (hdr : Bool)
  /-- CREDIT (R305): A CREDIT status slot updates the pool credits and the acknowledgement. -/
  | creditSlot (n : Nat) (slots : List (List Nat))
  /-- REQ (R321): SPARE_OP REQ asks the transmitting end to mirror lane k onto LS. -/
  | spareReq (n : Nat) (slots : List (List Nat))
  /-- MIRROR (R321): SPARE_OP MIRROR makes the receiver take LS as lane k and answer ACK. -/
  | spareMirror (n : Nat) (slots : List (List Nat))
  /-- ACK (R321): SPARE_OP ACK makes the transmitter retire lane k. -/
  | spareAck (n : Nat) (slots : List (List Nat))
  /-- RET_REQ (R321): SPARE_OP RET_REQ asks to move the spared lane back home. -/
  | spareRetReq (n : Nat) (slots : List (List Nat))
  /-- RET_MIRROR (R321): SPARE_OP RET_MIRROR makes the receiver take the home lane back. -/
  | spareRetMirror (n : Nat) (slots : List (List Nat))
  /-- RET_ACK (R321): SPARE_OP RET_ACK frees LS. -/
  | spareRetAck (n : Nat) (slots : List (List Nat))
  /-- SKIP (R324): A received skip slot is deleted before deskew. -/
  | skipSlot (n : Nat) (slots : List (List Nat))
  /-- SIGNAL_DETECT (R311): Signal on 8 of 9 receivers moves the port from DETECT to LOCK. -/
  | signalDetect (n : Nat) (mask : Nat)
  /-- TRAINING_SEQUENCE (R312): A received TS1, TS2 or TS3 advances training, or takes an UP port down. -/
  | trainingSequence (n : Nat) (lanes : List (List Nat))
  /-- ADAPT_DONE (R311): After 50 us of ADAPT the port enters IDENT. -/
  | adaptDone (n : Nat) (codes : List Nat)
  /-- TRAINING_TIMEOUT (R311): A training state timeout sets FAIL_CAUSE and enters BACKOFF. -/
  | trainingTimeout (n : Nat)
  /-- BACKOFF_END (R311): After 1 ms in BACKOFF the port returns to DETECT. -/
  | backoffEnd (n : Nat)
  /-- LOSS_OF_SIGNAL (R317): An active lane losing signal moves to LS or takes the port down. -/
  | lossOfSignal (n : Nat) (l : Nat)
  /-- LINK_TMO (R317): No status slot for 4,096 slots takes the port down. -/
  | linkTmo (n : Nat)
  /-- RETRAIN (R317): A write of RETRAIN takes the port down for retraining. -/
  | retrain (n : Nat)
  /-- RESTART (R316): A write of RESTART takes the port down and restarts the link with its peer. -/
  | restart (n : Nat)
  /-- SPARE_GO (R322): A write of SPARE_GO requests a move of a lane onto LS or back home. -/
  | spareGo (n : Nat) (lane : Nat)
  /-- RECAL (R322): A write of RECAL reruns LOCK and ADAPT on a lane that carries no data. -/
  | recal (n : Nat) (l : Nat)
  /-- DEGRADE_WINDOW (R320): At each degrade window end lanes whose errors reach THR degrade and may be spared. -/
  | degradeWindow (n : Nat)
  /-- EYE_SCAN_GO (R319): A write of GO to GLS_EYE_CTRL starts measuring one eye point. -/
  | eyeScanGo (n : Nat) (w : Word)
  /-- EYE_SCAN_DONE (R319): An eye point completes or aborts and raises EV_GLS_EYE_DONE. -/
  | eyeScanDone (n : Nat) (errs : Nat) (abort : Bool)
  /-- TAIL_CAPTURE_GO (R332): A write of GO to TAIL_CAP_CTRL requests a capture in the selected mode. -/
  | tailCaptureGo (mode : Nat)
  /-- DRAIN_STEP (R331): Every DRAIN_DIV figures one drain or load step shifts every shadow chain by one line. -/
  | drainStep (up : List (Nat × Nat))
  /-- CAPTURE_COMPLETE (R337): A capture whose drain, walk, list copy and writes are done becomes COMPLETE or BAD. -/
  | captureComplete
  /-- MAP_REBUILD (R343): A bay entering RUN has its part of the live map rebuilt from the frame mirror. -/
  | mapRebuild (k : Nat)
  /-- DISCARD (R344): A write of DISCARD frees a COMPLETE or BAD slot that is not pinned or in use. -/
  | tailDiscard (i : Nat)
  /-- TRIGGER_FIRE (R349): An armed trigger unit reaching COUNT hits fires and takes its actions. -/
  | triggerFire (u : Nat)
  /-- TRIGGER_REARM (R349): A write of REARM arms a trigger unit and clears HITS. -/
  | triggerRearm (u : Nat)
  /-- RING_RECORD (R351): A trace ring writes one record of its probe sample. -/
  | ringRecord (k : Nat) (up : List (Nat × Nat))
  /-- REELIN_GO (R354): A write of GO to TAIL_REEL_CTRL checks and starts a Reel-in of a slot. -/
  | reelinGo (slot : Nat)
  /-- REELIN_ABORT (R354): A write of ABORT ends the Reel-in with ABORTED. -/
  | reelinAbort
  /-- REELIN_ARMED (R355): VERIFY completes and the Reel-in enters ARMED after rechecking. -/
  | reelinArmed
  /-- RESTORE_EDGE (R356): At the restore edge registers reload their shadow latches, ROUND_COUNT loads S and the node stops. -/
  | restoreEdge
  /-- REELIN_DONE (R357): The last MEMWRITE completes, pools are discarded and EV_REELIN_DONE is raised. -/
  | reelinDone
  /-- EXPORT (R359): GO with DIR 0 exports a COMPLETE slot to the Gondola as an encrypted container. -/
  | exportSlot (keySlot : Nat) (slot : Nat)
  /-- IMPORT (R360): GO with DIR 1 imports a container from the Gondola into a slot. -/
  | importSlot (keySlot : Nat)
  /-- TRANSFER_ABORT (R361): A write of ABORT to TAIL_EXP_CTRL ends the transfer with ABORTED. -/
  | transferAbort
  /-- TRANSFER_END (R361): An export or import ends with its cause and raises EV_TAIL_EXPORT. -/
  | transferEnd (gdl : Nat) (box : Nat)
  /-- MESH_REQUEST (R376): An initiator port decodes an access and sends it on the mesh or answers it locally. -/
  | meshRequest (src : Nat) (fl : Flit) (stuck : Bool)
  /-- MESH_RESPONSE (R378): A response arrives at its initiator and frees or discards its tag. -/
  | meshResponse (src : Nat) (tag : Nat) (lat : Nat) (fl : Flit)
  /-- INI_TMO (R383): A tag busy for INI_TMO completes with TIMEOUT and is quarantined. -/
  | iniTmo (src : Nat) (tag : Nat)
  /-- ABSORB (R384): A target's progress timer reaching TMO isolates the port in ABSORB. -/
  | absorb (t : Nat)
  /-- MESH_RESUME (R387): A write of RESUME returns an absorbed port to NORMAL. -/
  | meshResume (t : Nat)
  /-- MESH_MONITOR_WINDOW (R389): At each monitor window end the read and write byte counts are latched. -/
  | meshMonitorWindow
  /-- CLR_HIST (R390): A write of CLR_HIST clears every latency histogram bin. -/
  | clrHist
  /-- IRQ_MSG (R458): An IRQ_MSG packet arriving at a core sets PEND of matching inputs. -/
  | irqMsg (c : Nat) (i : Nat) (fl : Flit)
  /-- HBM_READ (R408): A stack controller reads a line, decodes ECC and verifies its tag. -/
  | hbmRead (k : Nat) (i : Nat) (up : List (Nat × Nat)) (par : Bool)
  /-- FULL_LINE_WRITE (R409): A full-line write stores the scrambled line with a fresh tag. -/
  | fullLineWrite (k : Nat) (i : Nat) (par : Bool)
  /-- PARTIAL_WRITE (R410): A partial write reads, merges and rewrites the line under the tag rules. -/
  | partialWrite (k : Nat) (i : Nat) (up : List (Nat × Nat)) (par : Bool)
  /-- TEMP_READ (R399): Every 1 ms the controller reads the stack temperature and adjusts refresh. -/
  | tempRead (k : Nat) (temp : Nat)
  /-- SELF_REFRESH_EXIT (R400): Self-refresh exit completes and held requests are served. -/
  | selfRefreshExit (k : Nat)
  /-- INIT (R412): A write of INIT trains the stacks, makes keys and clears every tag region. -/
  | memInit
  /-- INIT_DONE (R412): INIT ends, the scrambler enters ACTIVE and EV_MEM_INIT_DONE is raised. -/
  | initDone (keys : KeyPair) (fail : Nat)
  /-- REKEY (R414): A write of REKEY makes a new key pair and starts the re-key sweep. -/
  | memRekey (keys : KeyPair)
  /-- SWEEP_LINE (R415): Every SWEEP_DIV HBM cycles the controller rewrites one line under the new keys. -/
  | sweepLine (k : Nat) (up : List (Nat × Nat))
  /-- LEAK_WINDOW (R423): At each leak window start a counter decreases by 1. -/
  | leakWindow (n : Nat) (bad : Bool)
  /-- COUNTER_PROPAGATE (R424): A child overflow adds 1 to its parent bucket at the next edge. -/
  | counterPropagate
  /-- INT_LOG_POP (R426): A read of INT_LOG_POP removes the head overflow record and loads its stamp. -/
  | intLogPop
  /-- MPY (R445): MAC OP MPY sets the accumulator to the signed product. -/
  | macMpy (c : Nat) (w : Word) (flip : Nat)
  /-- MAC (R445): MAC OP MAC adds the signed product to the accumulator. -/
  | macMac (c : Nat) (w : Word) (flip : Nat)
  /-- MSU (R445): MAC OP MSU subtracts the product from the accumulator. -/
  | macMsu (c : Nat) (w : Word) (flip : Nat)
  /-- MPYU (R445): MAC OP MPYU sets the accumulator to the unsigned product. -/
  | macMpyu (c : Nat) (w : Word) (flip : Nat)
  /-- MACU (R445): MAC OP MACU adds the unsigned product to the accumulator. -/
  | macMacu (c : Nat) (w : Word) (flip : Nat)
  /-- MACSU (R445): MAC OP MACSU adds a signed-by-unsigned product to the accumulator. -/
  | macMacsu (c : Nat) (w : Word) (flip : Nat)
  /-- CLR (R470): MAC OP CLR clears the accumulator. -/
  | macClr (c : Nat) (w : Word) (flip : Nat)
  /-- MOVES_ONLY (R441): MAC OP 0x0 performs only the X and Y parallel moves. -/
  | movesOnly (c : Nat) (w : Word)
  /-- ADD (R470): ALU ADD adds the operand and sets flags. -/
  | aluAdd (c : Nat) (w : Word)
  /-- SUB (R470): ALU SUB subtracts the operand and sets flags. -/
  | aluSub (c : Nat) (w : Word)
  /-- ADC (R470): ALU ADC adds with carry. -/
  | aluAdc (c : Nat) (w : Word)
  /-- SBC (R470): ALU SBC subtracts with borrow. -/
  | aluSbc (c : Nat) (w : Word)
  /-- AND (R470): ALU AND. -/
  | aluAnd (c : Nat) (w : Word)
  /-- OR (R470): ALU OR. -/
  | aluOr (c : Nat) (w : Word)
  /-- XOR (R470): ALU XOR. -/
  | aluXor (c : Nat) (w : Word)
  /-- SHL (R470): ALU SHL shifts left by operand bits 3:0. -/
  | aluShl (c : Nat) (w : Word)
  /-- SHR (R470): ALU SHR shifts right logically. -/
  | aluShr (c : Nat) (w : Word)
  /-- SAR (R470): ALU SAR shifts right arithmetically. -/
  | aluSar (c : Nat) (w : Word)
  /-- CMP (R470): ALU CMP sets flags as SUB without writing. -/
  | aluCmp (c : Nat) (w : Word)
  /-- TST (R470): ALU TST sets flags as AND without writing. -/
  | aluTst (c : Nat) (w : Word)
  /-- MIN (R470): ALU MIN takes the signed minimum. -/
  | aluMin (c : Nat) (w : Word)
  /-- MAX (R470): ALU MAX takes the signed maximum. -/
  | aluMax (c : Nat) (w : Word)
  /-- ADDP (R470): ALU ADDP adds the sign-extended operand to a pointer. -/
  | aluAddp (c : Nat) (w : Word)
  /-- ASH (R470): ALU ASH shifts an accumulator arithmetically. -/
  | aluAsh (c : Nat) (w : Word)
  /-- ASAT (R470): ALU ASAT clamps an accumulator to 32 bits. -/
  | aluAsat (c : Nat) (w : Word)
  /-- ARND (R470): ALU ARND rounds an accumulator. -/
  | aluArnd (c : Nat) (w : Word)
  /-- AADD (R470): ALU AADD adds one accumulator to the other. -/
  | aluAadd (c : Nat) (w : Word)
  /-- LS_LOAD (R440): An LS load reads memory with the chosen addressing mode. -/
  | lsLoad (c : Nat) (w : Word)
  /-- LS_STORE (R440): An LS store writes memory with the chosen addressing mode. -/
  | lsStore (c : Nat) (w : Word)
  /-- LINE_LOAD (R444): An LS LINE load moves a 64-byte line from a window into X or Y. -/
  | lineLoad (c : Nat) (w : Word)
  /-- LINE_STORE (R444): An LS LINE store posts a 64-byte line from X or Y to a window. -/
  | lineStore (c : Nat) (w : Word)
  /-- LR (R452): LR loads a pair and reserves its word or semaphore. -/
  | atomLr (c : Nat) (w : Word)
  /-- SC (R452): SC stores a pair only while the reservation is held and reports success. -/
  | atomSc (c : Nat) (w : Word)
  /-- BRA (R470): BRA branches by an offset. -/
  | brBra (c : Nat) (w : Word)
  /-- BCC (R470): BCC branches when its condition holds. -/
  | brBcc (c : Nat) (w : Word)
  /-- CALL (R435): CALL pushes PC and PCR and branches. -/
  | brCall (c : Nat) (w : Word)
  /-- JMP (R435): JMP jumps to the address in a p register. -/
  | brJmp (c : Nat) (w : Word)
  /-- CALLR (R435): CALLR pushes PC and PCR and jumps to a p register. -/
  | brCallr (c : Nat) (w : Word)
  /-- RET (R435): RET restores PC and PCR from the call stack. -/
  | brRet (c : Nat) (w : Word)
  /-- RETI (R455): RETI returns from an exception or an interrupt. -/
  | brReti (c : Nat) (w : Word)
  /-- REP (R448): REP opens a repeat level with an immediate count. -/
  | brRep (c : Nat) (w : Word)
  /-- REPR (R448): REPR opens a repeat level with a count from a register. -/
  | brRepr (c : Nat) (w : Word)
  /-- BRK (R449): BRK closes the innermost repeat level. -/
  | brBrk (c : Nat) (w : Word)
  /-- WAIT (R459): WAIT stops issue until an input pends above IPL. -/
  | coreWait (c : Nat) (w : Word)
  /-- BR_NOP (R470): NOP does nothing. -/
  | brNop (c : Nat) (w : Word)
  /-- LOOPV (R451): LOOPV decrements LCV, advances the rotating registers and branches. -/
  | brLoopv (c : Nat) (w : Word)
  /-- TRAP (R454): TRAP raises a TRAP exception, or halts with code 0xFF under TRAP_HALT. -/
  | brTrap (c : Nat) (w : Word)
  /-- MOVX (R470): MOVX copies a register of one class to another. -/
  | movx (c : Nat) (w : Word)
  /-- LDI (R470): LDI loads a 16-bit immediate. -/
  | ldi (c : Nat) (w : Word)
  /-- LDIH (R470): LDIH loads an immediate into bits 31:16. -/
  | ldih (c : Nat) (w : Word)
  /-- INTERRUPT_ENTRY (R459): The core takes the highest-priority pending input above IPL at an instruction boundary. -/
  | interruptEntry (c : Nat)
  /-- WINDOW_LOAD_RESPONSE (R436): A window load response returns and ends the core's stall, or raises BUS_ERR. -/
  | windowLoadResponse (c : Nat)
  /-- POSTED_STORE_ERROR (R455): A posted store completing with a status other than OK is logged in ST_BUS_LOG and pends input 3. -/
  | postedStoreError (c : Nat)
  /-- TIMER_ENABLE (R460): A change of a timer's EN from 0 to 1 loads CNT from LOAD. -/
  | timerEnable (c : Nat) (i : Nat) (w : Word)
  /-- TIMER_EXPIRY (R460): A timer reaching 0 pends its input and reloads under AUTO. -/
  | timerExpiry (c : Nat) (i : Nat)
  /-- WATCHDOG_ENABLE (R461): A change of the watchdog's EN from 0 to 1 loads CNT and clears OPENED. -/
  | watchdogEnable (c : Nat) (w : Word)
  /-- WATCHDOG_KICK (R461): A write to ST_WDT_KICK reloads the watchdog or bites with EARLY or BADKEY. -/
  | watchdogKick (c : Nat) (v : Word)
  /-- WATCHDOG_WINDOW_OPEN (R462): CNT reaching OPEN sets OPENED. -/
  | watchdogWindowOpen (c : Nat)
  /-- WATCHDOG_EXPIRY (R463): CNT reaching 0 bites with cause EXPIRED. -/
  | watchdogExpiry (c : Nat)
  /-- WATCHDOG_RESET (R463): With RESET_EN a bite resets the core at the next CORE edge. -/
  | watchdogReset (c : Nat)
  /-- CORE_HOLD (R466): A write of RESET = 1 holds the core in core reset. -/
  | coreHold (c : Nat)
  /-- CORE_RELEASE (R466): A write of RESET = 0 releases the core to start at address 0. -/
  | coreRelease (c : Nat)
  /-- SELF_RESET (R466): A write of SELF_RESET resets the core and restarts it at address 0. -/
  | selfReset (c : Nat)
  /-- ST_MEM_DATA (R439): An access to ST_MEM_DATA reads or writes P, X or Y and advances ADDR under AUTO_INC. -/
  | stMemData (c : Nat) (wr : Bool) (v : Word)
  /-- DOORBELL (R457): A write to ST_DOORBELL pends a doorbell input. -/
  | doorbell (c : Nat) (v : Word)
  /-- SWIRQ (R471): A write of GO to ST_SWIRQ raises EV_CORE_SW. -/
  | swirq (c : Nat) (v : Word)
  /-- SEM_LR (R453): A core read of STW_SEM_LR returns the semaphore and reserves it. -/
  | semLr (src : Nat) (i : Nat)
  /-- SEM_SC (R453): A write of STW_SEM_SC stores only if the writer holds the reservation, else fails with SC_FAIL. -/
  | semSc (src : Nat) (i : Nat) (v : Word)
  /-- SEM_WRITE (R453): A write to STW_SEM ends every reservation of that semaphore. -/
  | semWrite (i : Nat) (v : Word)
  /-- TEST_LOGIC_RESET (R473): TRST_N, POR_N or five TMS ones put the TAP in Test-Logic-Reset. -/
  | testLogicReset
  /-- EXTEST (R479): EXTEST makes the boundary register drive the covered balls. -/
  | extest (v : Nat) (env : Nat)
  /-- SAMPLE_PRELOAD (R474): SAMPLE/PRELOAD samples and preloads the boundary register. -/
  | samplePreload (v : Nat) (env : Nat)
  /-- IDCODE (R475): IDCODE selects the identification register. -/
  | idcode
  /-- CLAMP (R479): CLAMP holds the boundary values on the balls and selects bypass. -/
  | clamp
  /-- HIGHZ (R479): HIGHZ puts the covered balls in high impedance. -/
  | highz
  /-- EXTEST_PULSE (R480): EXTEST_PULSE drives AC pulses on the lane pairs. -/
  | extestPulse (v : Nat) (env : Nat)
  /-- EXTEST_TRAIN (R480): EXTEST_TRAIN drives AC pulse trains on the lane pairs. -/
  | extestTrain (v : Nat) (env : Nat)
  /-- DBG_REG (R482): DBG_REG selects the debug access register. -/
  | dbgReg
  /-- AUTH (R488): AUTH selects the authentication register. -/
  | auth
  /-- CFG_DATA (R489): CFG_DATA selects the configuration data register. -/
  | cfgData
  /-- BYPASS (R474): BYPASS selects the 1-bit bypass register. -/
  | bypass (code : Nat)
  /-- DEBUG_READ (R482): Update-DR with OP read starts a peek or consume read on the mesh. -/
  | debugRead (addr : Nat) (consume : Bool)
  /-- DEBUG_WRITE (R482): Update-DR with OP write starts a write on the mesh. -/
  | debugWrite (addr : Nat) (consume : Bool) (v : Word)
  /-- DEBUG_ACCESS_DONE (R483): The response of a debug access crosses to the scan port and sets ACK. -/
  | debugAccessDone
  /-- CHALLENGE_REQUEST (R488): Shifting 0x0000_0001 into AUTH requests a new challenge. -/
  | challengeRequest (nonce : Nat)
  /-- RESPONSE_WORD (R488): Shifting another value into AUTH passes the next response word. -/
  | responseWord (w : Word)
  /-- AUTH_CHECK (R549): After the last response word the M9 checks the key, signature and nonce and sets AUTHED. -/
  | authCheck
  /-- CFG_DATA_WORD (R489): Update-DR of CFG_DATA passes 4 bytes to the scan-port load buffer. -/
  | cfgDataWord (w : Word)
  /-- ATTACH (R490): A write of ATTACH attaches a debugger unless refused. -/
  | dbgAttach (src : Nat)
  /-- DETACH (R492): A write of DETACH resumes cores, clears breakpoints and attach, and makes the power state real. -/
  | dbgDetach (src : Nat)
  /-- HALT (R493): A write of HALT makes a halt cause visible to the core. -/
  | dbgHalt (src : Nat) (c : Nat)
  /-- HALT_ENTRY (R495): After draining and completing posted stores the core enters HALTED and its clock stops. -/
  | haltEntry (c : Nat)
  /-- BREAKPOINT (R493): An enabled breakpoint matching the PC in D raises a halt cause. -/
  | breakpoint (c : Nat)
  /-- DBG_RESUME (R499): A write of RESUME restarts a halted core. -/
  | dbgResume (src : Nat) (c : Nat)
  /-- STEP (R499): A write of STEP runs one instruction and halts again. -/
  | dbgStep (src : Nat) (c : Nat)
  /-- FEED (R498): A write to DBG_CORE_INSN executes one instruction on a halted core. -/
  | dbgFeed (src : Nat) (c : Nat) (w : Word)
  /-- CORE_REGISTER_ACCESS (R497): An access to DBG_CORE_RDATA or DBG_CORE_PC reads or writes a halted core's register. -/
  | coreRegisterAccess (src : Nat) (c : Nat) (pc : Bool) (wr : Option Word)
  /-- BALLAST_WINDOW (R508): At each window start meters close, requests and grants form, allowances refill and temperature is applied. -/
  | ballastWindow (m : List Nat) (temps : List Int)
  /-- OVER (R506): A reserved consumer exceeding its reservation in a window sets OVER. -/
  | consumerOver (m : List Nat)
  /-- MEMORY_PORT_STOP (R512): The HBM allowance falling below 0 stops the stack controllers' mesh ports until the next window. -/
  | memoryPortStop (m : List Nat)
  /-- DROOP_TRIP (R513): A droop detector trip asserts the clamp, holds rounds and pauses background work. -/
  | droopTrip (die : Nat)
  /-- DROOP_RELEASE (R514): The clamp releases after CLAMP_MIN figures above the release level. -/
  | droopRelease
  /-- POWER_REQUEST (R523): A write of STATE to BAL_PWR_REQ enters an eligible state or is refused. -/
  | powerRequest (st : Nat)
  /-- WAKE (R524): A write of WAKE, or any wake event, returns the device to Aloft. -/
  | powerWake (soft : Bool)
  /-- POWER_TRANSITION_END (R527): A power-state entry or exit completes and raises EV_PWR_STATE. -/
  | powerTransitionEnd
  /-- LTR_UPDATE (R538): A write to the LTR latency registers or enable loads BAL_LTR. -/
  | ltrUpdate (snoop : Nat) (noSnoop : Nat) (enable : Bool)
  /-- HOST_TLP (R533): An inbound BAR0 or BAR2 TLP is split into mesh accesses of source 0. -/
  | hostTlp (p : HostTlp)
  /-- HOST_COMPLETION (R535): A completion from the host finishes a device request to host memory. -/
  | hostCompletion (what : HostWait) (ok : Bool) (ep : Bool) (data : Nat) (up : HifUp)
  /-- HOST_TIMEOUT (R535): A completion timeout finishes a host request with HOST_TIMEOUT. -/
  | hostTimeout (what : HostWait)
  /-- HOT_RESET (R537): A PCIe hot reset, link down or PERST_N low resets the host interface. -/
  | hotReset
  /-- PCIE_LINK_UP (R555): The PCIe link enters L0 and raises EV_HIF_LINK. -/
  | pcieLinkUp (speed : Nat) (width : Nat)
  /-- DEVICE_IRQ (R539): A device event sets HIF_IRQ_STAT, a vector pending bit and core IRQ messages. -/
  | deviceIrq (i : Nat)
  /-- MSIX_MESSAGE (R539): A pending unmasked vector sends its MSI-X message. -/
  | msixMessage (v : Nat)
  /-- RING_ENABLE (R543): A change of a ring's EN from 0 to 1 clears HEAD, TAIL and status. -/
  | ringEnable (r : Nat) (v : Word)
  /-- RING_DOORBELL (R541): A write to HIF_DOORBELL sets the ring's TAIL. -/
  | ringDoorbell (r : Nat) (v : Nat)
  /-- DESCRIPTOR_START (R542): The DMA engine fetches and starts a ring descriptor. -/
  | descriptorStart (r : Nat) (fetched : Option (List Nat))
  /-- DESCRIPTOR_COMPLETE (R542): A descriptor completes, HEAD advances and write-back and interrupt follow. -/
  | descriptorComplete (r : Nat) (up : HifUp)
  /-- BIND (R547): Fuse command BIND programs the Bound state bit. -/
  | bind (src : Nat) (late : Bool)
  /-- SEAL (R547): Fuse command SEAL programs the Sealed state bit. -/
  | seal (src : Nat) (late : Bool)
  /-- PROG_SK (R547): Fuse command PROG_SK programs an empty signer key digest. -/
  | progSk (src : Nat) (slot : Nat) (late : Bool)
  /-- REVOKE_SK (R547): Fuse command REVOKE_SK revokes a signer key slot. -/
  | revokeSk (src : Nat) (slot : Nat) (late : Bool)
  /-- PROG_DBG (R547): Fuse command PROG_DBG programs the debug authority digest. -/
  | progDbg (src : Nat) (late : Bool)
  /-- PROG_KEY (R547): Fuse command PROG_KEY programs an owner AES key. -/
  | progKey (src : Nat) (slot : Nat) (late : Bool)
  /-- INC_VERSION (R547): Fuse command INC_VERSION increments the security-version counter. -/
  | incVersion (src : Nat) (late : Bool)
  /-- FUSE_COMMAND_DONE (R547): A fuse command completes and raises EV_SEC_FUSE. -/
  | fuseCommandDone (fail : Bool)
  /-- KEY_SLOT_LOAD (R546): SEC_KEY_CMD LOAD loads a volatile key slot from SEC_KEY_DATA. -/
  | keySlotLoad (src : Nat) (slot : Nat) (late : Bool)
  /-- KEY_SLOT_CLEAR (R546): SEC_KEY_CMD CLEAR empties a volatile key slot. -/
  | keySlotClear (src : Nat) (slot : Nat) (late : Bool)
  /-- UNLOCK_OPEN (R548): A key write to a protected register opens an unlock sequence for its source. -/
  | unlockOpen (src : Nat) (reg : Nat)
  /-- RAISE (R550): A write of RAISE to SEC_ALARM raises AL_SW. -/
  | alarmRaise (src : Nat)
  /-- ALARM_CLEAR (R553): A write of 1 to a SEC_ALARM bit from an accepted source clears the alarm. -/
  | alarmClear (src : Nat) (mask : Nat)
  /-- RNG_HEALTH_FAIL (R546): A failed entropy health test raises AL_RNG. -/
  | rngHealthFail
  /-- OWNER_CHANGE (R560): A write that changes a pin's owner disables its driver for two PINS cycles and hands it over. -/
  | ownerChange (wr : Option (Nat × Word))
  /-- GPIO_SET (R563): A write to PIN_GPIO_SET sets the named output bits. -/
  | gpioSet (b : Nat) (v : Word)
  /-- GPIO_CLR (R563): A write to PIN_GPIO_CLR clears the named output bits. -/
  | gpioClr (b : Nat) (v : Word)
  /-- BANK_SUPPLY_CHANGE (R590): A bank supply staying in a new range for 100 us updates PIN_BANK_STAT. -/
  | bankSupplyChange (b : Nat) (range : Nat)
  /-- UART_TX (R564): A write to UART_TX pushes a byte into the transmit FIFO. -/
  | uartTx (u : Nat) (v : Nat)
  /-- UART_TRANSMIT_DONE (R564): The UART finishes sending its FIFO and TX_EMPTY becomes 1. -/
  | uartTransmitDone (u : Nat) (n : Nat)
  /-- UART_RECEIVE (R564): A received byte is stored in the receive FIFO with its error flag. -/
  | uartReceive (u : Nat) (v : Nat) (err : Bool)
  /-- UART_DATA (R564): A read of UART_DATA pops the receive FIFO. -/
  | uartData (u : Nat)
  /-- I2C_START (R564): I2C_CMD OP START issues a start condition. -/
  | i2cStart (c : Nat) (fast : Bool)
  /-- I2C_WRITE (R564): I2C_CMD OP WRITE writes a byte. -/
  | i2cWrite (c : Nat) (v : Nat) (fast : Bool)
  /-- I2C_READ_ACK (R564): I2C_CMD OP READ with ACK reads a byte. -/
  | i2cReadAck (c : Nat) (fast : Bool)
  /-- I2C_READ_NACK (R564): I2C_CMD OP READ with NACK reads a final byte. -/
  | i2cReadNack (c : Nat) (fast : Bool)
  /-- I2C_STOP (R564): I2C_CMD OP STOP issues a stop condition. -/
  | i2cStop (c : Nat) (fast : Bool)
  /-- I2C_COMMAND_DONE (R564): An I2C command completes, recording NACK or arbitration loss. -/
  | i2cCommandDone (c : Nat) (data : Nat) (ack : Bool) (arb : Bool)
  /-- I2C_TIMEOUT (R564): Clock stretching beyond 25 ms ends the I2C command with TIMEOUT. -/
  | i2cTimeout (c : Nat)
  /-- SPI_TX (R564): A write to SPI_TX pushes a frame into the transmit FIFO. -/
  | spiTx (v : Nat)
  /-- SPI_FRAME_DONE (R564): An SPI frame exchange completes and its received frame is stored. -/
  | spiFrameDone (v : Nat)
  /-- SPI_DATA (R564): A read of SPI_DATA pops the received frame. -/
  | spiData
  /-- TRIG_PULSE (R565): An ACT_PIN request starts or extends a pulse on the named TRIG lines. -/
  | trigPulse (k : Nat)
  /-- TRIG_PULSE_END (R565): A TRIG pulse ends after WIDTH + 1 PINS cycles. -/
  | trigPulseEnd (k : Nat)
  /-- TRIG_INPUT_EDGE (R565): A selected edge on an input TRIG line raises EV_PIN_TRIGk. -/
  | trigInputEdge (k : Nat) (lvl : Bool)
  /-- GONDOLA_POLL (R568): Every 1 ms the M9 polls the Gondola EEPROM and detects insertion or removal. -/
  | gondolaPoll (ack : Bool) (rec : List Nat)
  /-- GONDOLA_TO_HBM (R570): GO with DIR 0 queues a transfer of blocks from the Gondola to HBM. -/
  | gondolaToHbm (len : Nat)
  /-- HBM_TO_GONDOLA (R570): GO with DIR 1 queues a transfer of blocks from HBM to the Gondola. -/
  | hbmToGondola (len : Nat)
  /-- GONDOLA_ABORT (R570): A write of ABORT to GDL_XFER_CTRL ends the transfer with ABORTED. -/
  | gondolaAbort
  /-- GONDOLA_TRANSFER_END (R570): A transfer-engine operation ends and raises EV_GONDOLA_XFER. -/
  | gondolaTransferEnd (cause : Nat) (lines : List Nat) (rec : List Nat)
  /-- TET_OUT_WRITE (R573): A write to TET_OUT or TET_OE starts an OUT message with the current values. -/
  | tetOutWrite (reg : Nat) (v : Nat)
  /-- TETHER_REFRESH (R572): Every 1 us the hub resends OUT and CFG messages. -/
  | tetherRefresh
  /-- OUT (R572): The target side applies an OUT message to the TP outputs and enables. -/
  | outMsg (up : List (Nat × Nat))
  /-- CFG (R572): The target side applies a CFG message of drive and pull settings. -/
  | cfgMsg (up : List (Nat × Nat))
  /-- CLK (R575): The target side applies a CLK message to its clock outputs. -/
  | clkMsg (up : List (Nat × Nat))
  /-- PULSE (R575): The target side pulses the masked BOW-mode clock outputs. -/
  | pulseMsg (up : List (Nat × Nat))
  /-- IN (R572): An IN message updates TET_IN with target input samples. -/
  | inMsg (v : Nat) (up : List (Nat × Nat))
  /-- STATUS (R576): A STATUS message reports VT and counts and may bring the link UP or LOST. -/
  | statusMsg (vt : Nat) (up : List (Nat × Nat))
  /-- TETHER_LOSS (R576): No valid IN message for LOSS_TMO enters LOST, with an optional stop-now request. -/
  | tetherLoss
  /-- TARGET_SILENCE (R577): No valid channel-0 message for 2 us makes the target side release its outputs. -/
  | targetSilence
  /-- CKIN_WINDOW (R575): Every 100 us the target side measures each clock input frequency. -/
  | ckinWindow (k0 : Nat) (k1 : Nat)
  /-- LANES_ALIGNED (R311): When 8 lanes have CDR lock, comma alignment and polarity, the port leaves LOCK for ADAPT. -/
  | lanesAligned (n : Nat) (mask : Nat) (inv : Nat)
  /-- STATUS_SLOT_DUE (R299): Once STATUS_INT slots have passed since the last one, the transmitter sends a CREDIT or SPARE status slot. -/
  | statusSlotDue (n : Nat)
  /-- SKIP_DUE (R324): Once SKIP_INT slots have passed, the transmitter sends a skip on all 9 lanes. -/
  | skipDue (n : Nat)
  /-- PROBE_HIT (R348): A probe sample of an armed trigger unit that matches under OP and WIN increments HITS. -/
  | probeHit (u : Nat)
  /-- CLEARING_READ (R10): A read of an RC field returns its value and then clears it, under the same-cycle rule of R11. -/
  | clearingRead (src : Nat) (off : Nat)
  /-- COUNTER_PARITY_READ (R425): A software read of a counter-tree counter checks its parity and, on failure, reports a CNT_FAULT
  overflow and resets the counter. -/
  | counterParityRead (n : Nat) (bad : Bool)
  /-- BALL_INPUT_CHANGE (R557): A change on an input ball reaches GPIO_IN through the two-flop synchroniser and the fabric net of a
  fabric owner. -/
  | ballInputChange (ch : List (Nat × Option Bool))
  /-- CLAIM_MAP_REBUILD_DONE (R199): The rebuild of the claim map from the frame mirror ends and waiting partial loads proceed. -/
  | claimMapRebuildDone
  /-- LIVE_MAP_REBUILD_DONE (R343): The rebuild of a bay's part of the live map ends, BUILD clears and a waiting capture may begin. -/
  | liveMapRebuildDone (k : Nat)
  /-- FREE_FF_CLOCK_EDGE (R61): At an active edge of a free-running fabric clock a free flip-flop applies rows 1, 4, 5 and 6 of R59. -/
  | freeFfClockEdge (m : Nat) (fall : Bool)
  /-- ASYNC_SR_ASSERT (R61): An asynchronous SR asserted on a free flip-flop forces it to SR_VAL at once and holds it there. -/
  | asyncSrAssert (k : Nat)
deriving DecidableEq, Repr

end Sys2Proof
end

