-- ==== Sys2Proof/Decode.lean ====
section
/-! DEFINITION. Sys2Proof/Decode.lean: the command that a word spells by the bits of spec/opcode_table.json. The rows of this hardware give
no bits: commands are events of the block's interfaces, not words. -/

namespace Sys2Proof

/-- No row of the table gives bits, so no word of any length spells a command. -/
def decodeTableWord (_nbits _w : Nat) : Option Instr := none

end Sys2Proof
end

