-- ==== Sys2Proof/Machine/State.lean ====
section
/-! DEFINITION. Sys2Proof/Machine/State.lean: the state of the M9 as plain data, and the state after POR. Every hub register is a word
of `regs` (its one home); what no register shows stands in the other fields. Tables are sparse (Machine/Map.lean): an unlisted key
reads as the default that State.reset's comments name, so that the state after reset lists nothing. -/

namespace Sys2Proof.Machine


/-! ## Stops -/

/-- Why the block stops with a fault. No command of this model raises one: the spec gives the block no condition that stops it.
Safe: a fault is a stop. -/
inductive Fault where
  /-- raised by nothing; it stands for a stop of the whole block, which no rule of the spec gives. Safe -/
  | halted
deriving DecidableEq, Repr

/-- Why a command has no meaning. -/
inductive Refusal where
  /-- raised by an arm of exec that has no meaning yet; safe: nothing is claimed of such a command -/
  | notModelled (mnemonic : String)
deriving DecidableEq, Repr

/-- The state of the M9. -/
structure State where
  /-- the commands that are waiting, first in first out -/
  pending : List Instr
  /-- the hub registers that differ from their reset value, by offset from the hub base (R22) -/
  regs : List (Nat × Word)
  /-- FIG_COUNT (R5) -/
  fig : DWord
  /-- ROUND_COUNT (R5) -/
  round : Addr48
  /-- how many free values have been drawn (the model's own field) -/
  free : Nat
  /-- the fabric, files 02 and 03 -/
  fab : Fabric
  /-- the clock system, file 04 -/
  clk : Clk
  /-- the configuration engine, file 05 -/
  cfg : Cfg
  /-- the Caller, file 06 -/
  call : Caller
  /-- lattice control, file 07 -/
  lat : Lat
  /-- the Gleis ports by number, file 08 -/
  port : List (Nat × Port)
  /-- the Tail, file 09 -/
  tail : Tail
  /-- the mesh, file 10 -/
  mesh : Mesh
  /-- in-package memory, file 11 -/
  hbm : Hbm
  /-- the counter tree, file 11 -/
  intg : Integ
  /-- the station cores by index c, 16 for STW, file 12 -/
  core : List (Nat × Core)
  /-- the semaphore unit's reservation for each core (R453) -/
  sem : List (Nat × Option Nat)
  /-- the scan port, file 13 -/
  scan : Scan
  /-- Ballast and power states, file 14 -/
  bal : Ballast
  /-- the host interface, file 15 -/
  host : HostIf
  /-- security, file 15 -/
  sec : Security
  /-- pins, the Gondola and the Tether, file 16 -/
  pin : Pins
deriving DecidableEq, Repr

/-- Reset values that depend on the index of the register: the fixed dividers of R134, RESET and BOOT of ST_CTRL, the state in which STW
starts (R431, R435), and which mesh ports exist and are exempt (R366, R388), EN of the leaves without an entry in R422. FBDIV of the
reserved PLL 7, for which R134 gives no value, reads 20 like that of its neighbours (DESIGN CHOICE, log entry 44). Everything else comes
from the register table. -/
def resetSpecial (a : Nat) : Option Nat :=
  if 0x100100 ≤ a && a < 0x100200 && a % 16 = 0 then
    let p := (a - 0x100100) / 16
    some ((if p < 7 then 2 ^ 31 else 0) +
      (if p < 2 then 30 else if p < 6 then 32 else 20) * 2 ^ 16)
  else if 0x1000000 ≤ a && a < 0x1110000 && a % 0x10000 = 0 then
    some (if (a - 0x1000000) / 0x10000 < 16 then 2 ^ 31 else 2 ^ 29)
  else if a = 0x1100004 then some (2 ^ 29 + 2 ^ 16)
  else if 0x501000 ≤ a && a < 0x501600 && a % 16 = 0 then
    let t := (a - 0x501000) / 16
    some (65536 + (if (t % 4 = 0 && t < 64) || t = 94 then 2 ^ 31 else 0) +
      (if t < 64 then (if t % 4 < 2 then 2 ^ 30 else 0)
       else if t < 80 then (if t % 4 < 2 then 2 ^ 30 else 0)
       else if t = 80 || t = 81 || t = 84 || t = 85 || t = 86 || t = 88 || t = 89 || t = 90 || t = 91 ||
         t = 92 || t = 93 || t = 94 then 2 ^ 30 else 0))
  else if 0x301000 ≤ a && a < 0x303200 && a % 16 = 0 then
    let b := (a - 0x301000) / 16 / 32
    let i := (a - 0x301000) / 16 % 32
    some ((if (b < 16 && i < 26) || (b = 16 && i < 11) then 2 ^ 31 else 0) + 20 * 2 ^ 24 + 8 * 2 ^ 16 + 8)
  else none

/-- The value of the register at offset `a` right after POR: the Reset column of its table, 0 where there is no register (R24). -/
def resetWord (a : Nat) : Word :=
  match resetSpecial a with
  | some v => BitVec.ofNat 32 v
  | none =>
    match regAt a with
    | some r => BitVec.ofNat 32 (resetBits r.fields)
    | none => 0


/-- The machine right after POR, before any command (R13): every register at the value of its Reset column, nothing waiting. The
values that no rule gives are in log entries 2 to 4. -/
def State.reset : State where
  pending := []
  regs := []
  fig := 0
  round := 0
  free := 0
  fab := Fabric.init
  clk := Clk.init
  cfg := Cfg.init
  call := Caller.init
  lat := { Lat.init with offPor := true, minRound := 16 }
  port := []
  tail := Tail.init
  mesh := Mesh.init
  hbm := Hbm.init
  intg := Integ.init
  core := [(16, { Core.init with ctl := [(28, 0x17C00)] })]
  sem := []
  scan := Scan.init
  bal := Ballast.init
  host := HostIf.init
  sec := Security.init
  pin := Pins.init

end Sys2Proof.Machine
end

