-- ==== Sys2Proof/Machine/Ops.lean ====
section
/-! DEFINITION. Sys2Proof/Machine/Ops.lean: the named operations over registers that every subsystem uses: reading and writing a
register or a field, a sticky log, a device event (R539), a free value. -/

namespace Sys2Proof.Machine

/-- What a command answers. -/
abbrev Out := Host.Outcome State Fault Refusal

/-- The bits `hi` to `lo` of a word. -/
def fget (w : Word) (hi lo : Nat) : Nat := (w.extractLsb' lo (hi + 1 - lo)).toNat

/-- A word of ones in `hi` to `lo`. -/
def fmask (hi lo : Nat) : Word := (BitVec.allOnes (hi + 1 - lo)).setWidth 32 <<< lo

/-- A word with the bits `hi` to `lo` replaced by the low bits of `v`. -/
def fput (w : Word) (hi lo : Nat) (v : Nat) : Word :=
  (w &&& ~~~ fmask hi lo) ||| ((BitVec.ofNat 32 v <<< lo) &&& fmask hi lo)

/-- The register at offset `a` from the hub base. -/
def State.reg (s : State) (a : Nat) : Word := mget s.regs (resetWord a) a

/-- Give the register at offset `a` the value `v`. -/
def State.setReg (s : State) (a : Nat) (v : Word) : State := { s with regs := mset s.regs (resetWord a) a v }

/-! ### One part of the state -/

/-- Replace the fabric. -/
def State.setFab (s : State) (f : Fabric) : State := { s with fab := f }

/-- Replace the clock system. -/
def State.setClk (s : State) (c : Clk) : State := { s with clk := c }

/-- Replace the configuration engine. -/
def State.setCfg (s : State) (c : Cfg) : State := { s with cfg := c }

/-- Replace the Caller. -/
def State.setCall (s : State) (c : Caller) : State := { s with call := c }

/-- Replace lattice control. -/
def State.setLat (s : State) (l : Lat) : State := { s with lat := l }

/-- Replace the Tail. -/
def State.setTail (s : State) (t : Tail) : State := { s with tail := t }

/-- Replace the mesh. -/
def State.setMesh (s : State) (m : Mesh) : State := { s with mesh := m }

/-- Replace in-package memory. -/
def State.setHbm (s : State) (h : Hbm) : State := { s with hbm := h }

/-- Replace the scan port. -/
def State.setScan (s : State) (x : Scan) : State := { s with scan := x }

/-- Replace Ballast. -/
def State.setBal (s : State) (b : Ballast) : State := { s with bal := b }

/-- Replace the host interface. -/
def State.setHost (s : State) (h : HostIf) : State := { s with host := h }

/-- Replace security. -/
def State.setSec (s : State) (x : Security) : State := { s with sec := x }

/-- Replace the pins. -/
def State.setPin (s : State) (p : Pins) : State := { s with pin := p }

/-! ### Registers and fields -/

/-- A field. -/
def State.f (s : State) (x : Fld) : Nat := fget (s.reg x.addr) x.hi x.lo

/-- Give a field the value `v`. -/
def State.put (s : State) (x : Fld) (v : Nat) : State := s.setReg x.addr (fput (s.reg x.addr) x.hi x.lo v)

/-- A one-bit field is 1. -/
def State.on (s : State) (x : Fld) : Bool := s.f x == 1

/-- Add `n` to a field, which wraps. -/
def State.addF (s : State) (x : Fld) (n : Nat) : State := s.put x (s.f x + n)

/-- Add `n` to a field, which stays at its highest value when it would pass it. -/
def State.satF (s : State) (x : Fld) (n : Nat) : State := s.put x (min (s.f x + n) (2 ^ (x.hi + 1 - x.lo) - 1))

/-- Do `g` when `b` holds. -/
def State.when (s : State) (b : Bool) (g : State → State) : State := if b then g s else s

/-- Apply `g` for each element of `l`, from the first to the last. -/
def State.each {α : Type} (s : State) (l : List α) (g : α → State → State) : State := foldS l g s

/-- The offset of core `c`'s register block (R22). -/
def coreBase (c : Nat) : Nat := 0x1000000 + c * 0x10000

/-- A sticky log: the first entry sets VALID and is filled in; while VALID is 1, a further one only sets OVF. -/
def State.log (s : State) (valid ovf : Fld) (fill : State → State) : State :=
  if s.on valid then s.put ovf 1 else fill (s.put valid 1)

/-- The cores that have an input routed to IRQ `i` (R458): an input of 16 to 63 whose ROUTE is 1 and SEL is `i`. ROUTE is 0 after
reset, so only listed registers can route. -/
def State.irqCores (s : State) (i : Nat) : List Nat :=
  (List.range 17).filter fun c => s.regs.any fun e =>
    decide (ST_IRQ_CFG c 16 ≤ e.1) && decide (e.1 < ST_IRQ_CFG c 64) && fget e.2 29 29 == 1 && fget e.2 8 0 == i

/-- Send IRQ_MSG packets for IRQ `i` to every core that routes it (R458). -/
def State.sendIrq (s : State) (i : Nat) : State :=
  s.setMesh { s.mesh with irqMsgs := s.mesh.irqMsgs ++ (s.irqCores i).map (fun c => (c, i)) }

/-- A device event with IRQ number `i` (R539): the bit of HIF_IRQ_STAT, the pending bit of its vector, the mark that an EVENT probe
sees at this edge (R345), the packets to the cores. -/
def State.raise (s : State) (i : Nat) : State :=
  let s1 := s.setReg (HIF_IRQ_STAT (i / 32)) (s.reg (HIF_IRQ_STAT (i / 32)) ||| (1#32 <<< (i % 32)))
  let s2 := if s1.on (HIF_IRQ_ROUTE_EN i)
    then s1.setHost { s1.host with pend := ladd s1.host.pend (s1.f (HIF_IRQ_ROUTE_VECTOR i)) } else s1
  let s3 : State := s2.setTail { s2.tail with taskHit := ladd s2.tail.taskHit (4096 + i) }
  s3.sendIrq i

/-- The present free value (log entry 4). -/
def State.freeVal (s : State) : Nat := Config.freeNat s.free

/-- Advance to the next free value. -/
def State.freeNext (s : State) : State := { s with free := s.free + 1 }

/-- Gate bit of block index `i` of R158. -/
def State.gateOn (s : State) (i : Nat) : Bool :=
  if i < 32 then (s.reg CLK_GATE_EN0).toNat.testBit i else (s.reg CLK_GATE_EN1).toNat.testBit (i - 32)

/-- The clock of block `i` may run (R519): software's bit is 1 and the gate is not shut. -/
def State.gateRun (s : State) (i : Nat) : Bool := s.gateOn i && mget s.clk.gate .opened i != .closed

/-- Accesses to block `i` of R158 are answered under R161: software closed its gate (R159: from the write on), or the gate is shut. -/
def State.blockGated (s : State) (i : Nat) : Bool :=
  !s.gateOn i || mget s.clk.gate .opened i == .closed

/-- A write or read that reaches block `i`: dropped while the block is gated (R161). -/
def State.toBlock (s : State) (i : Nat) (f : State → State) : State := if s.blockGated i then s else f s

/-- The same for station core `c`: STW (16) has no gate (R158). -/
def State.toCore (s : State) (c : Nat) (f : State → State) : State :=
  if c < 16 then s.toBlock c f else if c = 16 then f s else s

/-- The current scan instruction takes the balls (R479). -/
def State.scanTakes (s : State) : Bool := s.scan.ir == 0 || (decide (3 ≤ s.scan.ir) && decide (s.scan.ir ≤ 6))

/-- The host answers requests of the device (R535, R537): the link is up, Bus Master Enable is 1, and the function is in D0. -/
def State.hostThere (s : State) : Bool := s.on HIF_LINK_STAT_UP && s.host.busMaster && !s.host.d3

/-- The tag of key 64 s + tag. -/
def State.tagAt (s : State) (k : Nat) : Tag := mget s.mesh.tags .idle k

/-- Two 32-bit registers as one 64-bit number. -/
def State.pair (s : State) (lo hi : Nat) : Nat := (s.reg lo).toNat + 2 ^ 32 * (s.reg hi).toNat

/-- The registers that satisfy `p` return to their reset values. -/
def State.resetRegs (s : State) (p : Nat → Bool) : State := { s with regs := s.regs.filter (fun e => !p e.1) }

end Sys2Proof.Machine
end

