-- ==== Sys2Proof/Machine/ClockRun.lean ====
section
/-! DEFINITION. Sys2Proof/Machine/ClockRun.lean: which clocks give edges (file 04): the multiplexers and what they drive now (R143,
R144, R153), the outputs of the PLLs (R136 to R138), enables and dividers as they are in effect (R145, R146), round mode (R147). -/

namespace Sys2Proof.Machine

/-- The power state whose stops are in effect: 0 Aloft, and 0 while a debugger emulates it (R518, R528). -/
def State.power (s : State) : Nat := if s.on BAL_PWR_STAT_EMULATED then 0 else s.f BAL_PWR_STAT_STATE

/-- The droop clamp holds rounds and pauses work: from the figure after the one at which it became visible (R513). -/
def State.clamped (s : State) : Bool := s.on BAL_STAT_CLAMP && decide (s.bal.clampFig < s.fig.toNat)

/-! ### Multiplexers -/

/-- The source field of a multiplexer (CLK_SW_STAT numbers them). -/
def muxField (m : Nat) : Fld :=
  if m = 0 then CLK_HUB_SEL_FIG_SRC else if m = 1 then CLK_HUB_SEL_MESH_SRC
  else if m < 64 then CLK_GCLK_CFG_SRC (m - 16) else CLK_RCLK_CFG_SRC ((m - 64) / 24) ((m - 64) % 24)

/-- Its BUSY bit. -/
def muxBusy (m : Nat) : Fld :=
  if m = 0 then CLK_HUB_SEL_FIG_BUSY else if m = 1 then CLK_HUB_SEL_MESH_BUSY
  else if m < 64 then CLK_GCLK_CFG_BUSY (m - 16) else CLK_RCLK_CFG_BUSY ((m - 64) / 24) ((m - 64) % 24)

/-- A number names a multiplexer. -/
def isMux (m : Nat) : Bool :=
  decide (m < 2) || (decide (16 ≤ m) && decide (m < 48)) || (decide (64 ≤ m) && decide (m < 448))

/-- The source that a multiplexer drives after POR: OSC for FIG and MESH (R139), none for the fabric clocks. -/
def muxReset (m : Nat) : Nat := if m < 2 then 0 else if m < 64 then 63 else 127

/-- The source that a multiplexer drives now: a write of its source field changes it only by a switch (R153). -/
def State.muxSrc (s : State) (m : Nat) : Nat := mget s.clk.muxCur (muxReset m) m

/-! ### Hub domains -/

/-- FIG has edges: no switch withholds them (R141), and the output of its PLL is not stopped (R137). -/
def State.figRuns (s : State) : Bool := !s.on CLK_HUB_SEL_FIG_BUSY && !(s.muxSrc 0 == 1 && decide (0 ∈ s.clk.stopped))

/-- FIG runs from its PLL, and no move away from it is asked for (R141, R284). -/
def State.figOnPll (s : State) : Bool := s.on CLK_HUB_SEL_FIG_SRC && s.muxSrc 0 == 1

/-- MESH has edges (R137, R153). -/
def State.meshRuns (s : State) : Bool := !s.on CLK_HUB_SEL_MESH_BUSY && !(s.muxSrc 1 == 1 && decide (1 ∈ s.clk.stopped))

/-- The clock of stack controller `k` has edges as far as its PLL goes (R137). -/
def State.hbmPll (s : State) (k : Nat) : Bool := !decide (k + 2 ∈ s.clk.stopped)

/-! ### Fabric clocks -/

/-- The settings of the register at `a` that are in effect: the ones of the last DIVIDER_CHANGE (R137, R145, R146). -/
def State.inEffect (s : State) (a : Nat) : Word := mget s.clk.applied (resetWord a) a

/-- The register of a fabric clock's multiplexer. -/
def clkReg (m : Nat) : Nat := if m < 64 then CLK_GCLK_CFG (m - 16) else CLK_RCLK_CFG ((m - 64) / 24) ((m - 64) % 24)

/-- EN of a fabric clock, in effect (R146). -/
def State.clkEn (s : State) (m : Nat) : Bool := (s.inEffect (clkReg m)).toNat.testBit 31

/-- The divisor of a fabric clock, in effect (R145). -/
def State.clkDiv (s : State) (m : Nat) : Nat := fget (s.inEffect (clkReg m)) 23 16 + 1

/-- Output `j` of FPLL `k` runs (R136 to R138): the PLL is locked, the output is neither off nor set to more than 1.0 GHz. -/
def State.fpllOut (s : State) (k j : Nat) : Bool :=
  let d := fget (s.inEffect (CLK_PLL_OUT (8 + k))) (8 * j + 7) (8 * j)
  s.on (CLK_PLL_STAT_LOCK (8 + k)) && !decide (8 + k ∈ s.clk.stopped) && decide (2 ≤ d) &&
    decide (s.f (CLK_PLL_CTRL_FBDIV (8 + k)) ≤ 10 * d * (s.f (CLK_PLL_CTRL_REFDIV (8 + k)) + 1))

/-- A source code of R143 names a clock that can run: an FPLL output that runs, a clock-capable pin, OSC or REFCLK. -/
def State.sourceRuns (s : State) (code : Nat) : Bool := if code < 32 then s.fpllOut (code / 4) (code % 4) else decide (code < 44)

/-- Multiplexer `m` of a fabric clock passes edges: EN is in effect and no switch withholds them (R146, R153). -/
def State.muxPasses (s : State) (m : Nat) : Bool := s.clkEn m && !s.on (muxBusy m)

/-- Global clock `g` is free-running and gives edges (R143, R146, R147, R153). -/
def State.gclkRuns (s : State) (g : Nat) : Bool :=
  decide (g < 32) && !s.on (CLK_GCLK_CFG_MODE g) && s.muxPasses (16 + g) && s.sourceRuns (s.muxSrc (16 + g))

/-- The multiplexer of regional clock `r` of sector `n`. -/
def rclkMux (n r : Nat) : Nat := 64 + 24 * n + r

/-- Spine `sp` of sector `n` carries a round-mode clock (R147): the global clock it is. -/
def State.roundSpine (s : State) (n sp : Nat) : Option Nat :=
  if sp < 32 then (if s.on (CLK_GCLK_CFG_MODE sp) then some sp else none)
  else if sp < 56 then
    let src := s.muxSrc (rclkMux n (sp - 32))
    if src < 32 && s.on (CLK_GCLK_CFG_MODE src) then some src else none
  else none

/-- The round-mode clock of spine `sp`, where it is not held low: EN of the global clock, and of the regional clock that carries it, are in
effect (R146). -/
def State.roundGate (s : State) (n sp : Nat) : Option Nat :=
  (s.roundSpine n sp).bind (fun g =>
    if s.clkEn (16 + g) && (decide (sp < 32) || s.muxPasses (rclkMux n (sp - 32))) then some g else none)

/-- Spine `sp` of sector `n` carries a free-running clock that gives edges (R142 to R146). -/
def State.spineRuns (s : State) (n sp : Nat) : Bool :=
  if sp < 32 then s.gclkRuns sp
  else if sp < 56 then
    let m := rclkMux n (sp - 32)
    let src := s.muxSrc m
    s.muxPasses m && (if src < 32 then s.gclkRuns src else decide (src < 40))
  else false

/-- An edge, falling or not, at the input of a divider by `n` that has counted `phase` rising edges: what it counts then, and its output
edge (R145): high for ⌈n / 2⌉ source cycles, low for the rest. -/
def divEdge (n phase : Nat) (fall : Bool) : Nat × Option Bool :=
  if n = 1 then (0, some fall)
  else if fall then (phase, none)
  else
    let p := (phase + 1) % n
    (p, if p = 1 then some false else if p = (1 + (n + 1) / 2) % n then some true else none)

/-- The divider of multiplexer `m` takes an edge: its count, the level of its output, and its output edge. -/
def State.divide (s : State) (m : Nat) (fall : Bool) : State × Option Bool :=
  let r := divEdge (s.clkDiv m) (mget s.clk.phase 0 m) fall
  (s.setClk { s.clk with
    phase := mset s.clk.phase 0 m r.1
    high := match r.2 with
      | some true => ldel s.clk.high m
      | some false => ladd s.clk.high m
      | none => s.clk.high }, r.2)

/-- The dividers of the listed regional clocks take an edge of their global clock: the spines that have an edge, as sector, spine and
falling or not. -/
def divideAll : List (Nat × Nat) → Bool → State → State × List (Nat × Nat × Bool)
  | [], _, s => (s, [])
  | (n, r) :: t, fall, s =>
    let d := s.divide (rclkMux n r) fall
    let q := divideAll t fall d.1
    (q.1, match d.2 with
      | some f => (n, 32 + r, f) :: q.2
      | none => q.2)

/-- The regional clocks that select global clock `g` and are not held low or being switched. -/
def State.regionals (s : State) (g : Nat) : List (Nat × Nat) :=
  (s.clk.muxCur.filter (fun e => decide (64 ≤ e.1 ∧ e.1 < 448) && e.2 == g && s.muxPasses e.1)).map (fun e => ((e.1 - 64) / 24, (e.1 - 64) % 24))

/-- An edge of fabric clock `m` behind its divider: the spines that have an edge. An edge of a global clock reaches all 16 sectors, and the
regional clocks that select it (R143, R144). -/
def State.fanOut (s : State) (m : Nat) (fall : Bool) : State × List (Nat × Nat × Bool) :=
  if m < 64 then
    let q := divideAll (s.regionals (m - 16)) fall s
    (q.1, (List.range 16).map (fun n => (n, m - 16, fall)) ++ q.2)
  else (s, [((m - 64) / 24, 32 + (m - 64) % 24, fall)])

/-- An edge at the output of the multiplexer of fabric clock `m`: the spines that have an edge, after the dividers (R143 to R146). -/
def State.clockEdge (s : State) (m : Nat) (fall : Bool) : State × List (Nat × Nat × Bool) :=
  let d := s.divide m fall
  match d.2 with
  | none => (d.1, [])
  | some f => d.1.fanOut m f

/-- The output of fabric clock `m` is driven low (R156): a falling edge where it was high. -/
def State.driveLow (s : State) (m : Nat) : State × List (Nat × Nat × Bool) :=
  if m ∈ s.clk.high then (s.setClk { s.clk with high := ldel s.clk.high m }).fanOut m true else (s, [])

/-- The divider of fabric clock `m` begins a new output period, with its output low (R145). -/
def State.dividerStart (s : State) (m : Nat) : State :=
  s.setClk { s.clk with phase := mset s.clk.phase 0 m 0, high := ldel s.clk.high m }

end Sys2Proof.Machine
end

