-- ==== Sys2Proof/Machine/Code.lean ====
section
/-! DEFINITION. Sys2Proof/Machine/Code.lean: the error codes of the spec: SEC-DED over 64 bits (R402, R403), over 32 bits (R437), the
configuration CRC-32 (R170), residues; numbers as bytes. -/

namespace Sys2Proof.Machine

/-- How many bits of `n` below `w` are 1. -/
def ones : Nat → Nat → Nat
  | 0, _ => 0
  | w + 1, n => n % 2 + ones w (n / 2)

/-- Columns of the data bits 0 to 63 of the (72,64) code (R402). -/
def columns64 : List Nat :=
  ((List.range 256).filter (fun v => ones 8 v == 3)) ++ [0x1F, 0x2F, 0x37, 0x3B, 0x3D, 0x3E, 0x4F, 0x57]

/-- Columns of the data bits 0 to 31 of the (39,32) code (R437). -/
def columns32 : List Nat := ((List.range 128).filter (fun v => ones 7 v == 3)).take 32

/-- The XOR of the columns of the data bits that are 1. -/
def checkWith : List Nat → Nat → Nat
  | [], _ => 0
  | c :: t, d => (if d % 2 = 1 then c else 0) ^^^ checkWith t (d / 2)

/-- The check byte of a 64-bit word (R402). -/
def check64 (d : Nat) : Nat := checkWith columns64 d

/-- The check bits of a 32-bit word (R437). -/
def check32 (d : Nat) : Nat := checkWith columns32 d

/-- What a stored code word decodes to (R403). -/
inductive Decoded where
  /-- no error -/
  | clean (d : Nat)
  /-- single-bit error, corrected -/
  | corrected (d : Nat)
  /-- the poison pattern -/
  | poison (d : Nat)
  /-- any other error: delivered as stored, poisoned -/
  | uncorrectable (d : Nat)
deriving DecidableEq, Repr

/-- The decode table of R403 for a code with `w` check bits and these columns. -/
def decodeWith (cols : List Nat) (w : Nat) (d c : Nat) : Decoded :=
  let s := c ^^^ checkWith cols d
  if s = 0 then .clean d
  else if s = 2 ^ w - 1 then .poison d
  else match cols.findIdx? (· == s) with
    | some j => .corrected (d ^^^ 2 ^ j)
    | none => if (List.range w).any (fun i => 2 ^ i == s) then .corrected d else .uncorrectable d

/-- Decode a 72-bit code word: data in bits 63:0, check byte in bits 71:64. -/
def decode64 (x : Nat) : Decoded := decodeWith columns64 8 (x % 2 ^ 64) (x / 2 ^ 64 % 256)

/-- Decode a 39-bit code word: data in bits 31:0, check bits in bits 38:32. -/
def decode32 (x : Nat) : Decoded := decodeWith columns32 7 (x % 2 ^ 32) (x / 2 ^ 32 % 128)

/-- The data that a decoded word delivers. -/
def Decoded.data : Decoded → Nat
  | .clean d => d
  | .corrected d => d
  | .poison d => d
  | .uncorrectable d => d

/-- A decoded word is delivered poisoned. -/
def Decoded.bad : Decoded → Bool
  | .poison _ => true
  | .uncorrectable _ => true
  | _ => false

/-- The 72-bit code word of data, poisoned or not (R402, R403). -/
def encode64 (d : Nat) (poison : Bool) : Nat :=
  d % 2 ^ 64 + 2 ^ 64 * (if poison then check64 (d % 2 ^ 64) ^^^ 0xFF else check64 (d % 2 ^ 64))

/-- The 39-bit code word of data, poisoned or not (R437). -/
def encode32 (d : Nat) (poison : Bool) : Nat :=
  d % 2 ^ 32 + 2 ^ 32 * (if poison then check32 (d % 2 ^ 32) ^^^ 0x7F else check32 (d % 2 ^ 32))

/-- Eight steps of the reflected CRC-32 (R170). -/
def crcBits : Nat → Nat → Nat
  | 0, c => c
  | n + 1, c => crcBits n (if c % 2 = 1 then (c / 2) ^^^ 0xEDB88320 else c / 2)

/-- The CRC register after `n` bytes of `d`, the lowest byte first. -/
def crcBytes : Nat → Nat → Nat → Nat
  | 0, _, c => c
  | n + 1, d, c => crcBytes n (d / 256) (crcBits 8 (c ^^^ (d % 256)))

/-- The bay CRC over the 640-byte forms of frames in index order (R170): polynomial 0x04C1_1DB7, reflected, initial value and final XOR
all ones. -/
def crcFrames (frames : List Nat) : Nat := (frames.foldl (fun c d => crcBytes 640 d c) 0xFFFFFFFF) ^^^ 0xFFFFFFFF

/-- The `n` bytes of a number, lowest first. -/
def toBytes : Nat → Nat → List Nat
  | 0, _ => []
  | n + 1, v => v % 256 :: toBytes n (v / 256)

/-- The number of a list of bytes, lowest first. -/
def ofBytes : List Nat → Nat
  | [] => 0
  | b :: t => b % 256 + 256 * ofBytes t

end Sys2Proof.Machine
end

