-- ==== Sys2Proof/Machine/Integrity.lean ====
section
/-! DEFINITION. Sys2Proof/Machine/Integrity.lean: the counter tree of file 11 (R422 to R427). -/

namespace Sys2Proof.Machine

/-- The COUNT field of counter `n`: leaf `n`, or bucket `n - 1000`. -/
def cntF (n : Nat) : Fld := if n < 1000 then INT_LEAF_STAT_COUNT n else INT_BKT_STAT_COUNT (n - 1000)
/-- The OVF_CNT field of counter `n`. -/
def cntOvfF (n : Nat) : Fld := if n < 1000 then INT_LEAF_STAT_OVF_CNT n else INT_BKT_STAT_OVF_CNT (n - 1000)
/-- The FAULT field of counter `n`. -/
def cntFaultF (n : Nat) : Fld := if n < 1000 then INT_LEAF_STAT_FAULT n else INT_BKT_STAT_FAULT (n - 1000)
/-- The EN field of counter `n`. -/
def cntEnF (n : Nat) : Fld := if n < 1000 then INT_LEAF_CFG_EN n else INT_BKT_CFG_EN (n - 1000)
/-- The LEAK_EXP field of counter `n`. -/
def cntLeakF (n : Nat) : Fld := if n < 1000 then INT_LEAF_CFG_LEAK_EXP n else INT_BKT_CFG_LEAK_EXP (n - 1000)
/-- The THR field of counter `n`. -/
def cntThrF (n : Nat) : Fld := if n < 1000 then INT_LEAF_CFG_THR n else INT_BKT_CFG_THR (n - 1000)

/-- The level of counter `n`: 0 leaf, 1 bucket, 2 device. -/
def cntLevel (n : Nat) : Nat := if n < 1000 then 0 else if n = 1017 then 2 else 1

/-- The parent bucket of counter `n` (R422): the sector or hub bucket of a leaf, the device bucket of a bucket. -/
def cntParent (n : Nat) : Option Nat := if n < 1000 then some (n / 32) else if n = 1017 then none else some 17

/-- An index of R422 with an entry: the leaf counts events. -/
def leafExists (l : Nat) : Bool := (l / 32 < 16 && l % 32 < 26) || (l / 32 == 16 && l % 32 < 11)

/-- The numbers of the counters. -/
def cntAll : List Nat := (List.range 544).filter leafExists ++ (List.range 18).map (· + 1000)

/-- The overflow log with a further record: records of one stamp stand by ascending IRQ number, which is that of their level (R42, R426,
R430). -/
def logInsert (rc : IntRec) : List IntRec → List IntRec
  | [] => [rc]
  | r :: t => if r.stamp = rc.stamp ∧ rc.level < r.level then rc :: r :: t else r :: logInsert rc t

/-- An overflow of counter `n` (R424): the counter restarts at 0, OVF_CNT, a log record or a lost one (R426), the event of its level,
and 1 for the parent at the next edge, when EN = 1. The records beyond 64 are lost when the edge is over, so that one made at the edge of a
pop finds the place that it frees. -/
def State.cntOverflow (s : State) (n : Nat) (fault : Bool) : State :=
  let lvl := cntLevel n
  let rc : IntRec := ⟨lvl, fault, if n < 1000 then n else if lvl = 2 then 0 else n - 1000, s.fig.toNat % 2 ^ 48⟩
  let s1 := (s.put (cntF n) 0).addF (cntOvfF n) 1
  let s2 := if fault then s1.put (cntFaultF n) 1 else s1
  let s3 : State := { s2 with intg := { s2.intg with
    log := logInsert rc s2.intg.log, overs := if fault then s2.intg.overs else ladd s2.intg.overs n } }
  let s4 : State := match cntParent n with
    | some p => if s3.on (cntEnF n) then { s3 with intg := { s3.intg with due := s3.intg.due ++ [(p, s3.fig.toNat)] } } else s3
    | none => s3
  s4.raise (208 + lvl)

/-- The parity check of an access to counter `n` (R425): a wrong parity counts as an overflow with cause CNT_FAULT. -/
def State.cntParity (s : State) (n : Nat) : State :=
  if n ∈ s.intg.bad then { s with intg := { s.intg with bad := ldel s.intg.bad n } }.cntOverflow n true else s

/-- The leak of counter `n` (R423 step 1), once at the first edge of its leak window: COUNT decreases by 1, not below 0. -/
def State.cntLeak (s : State) (n : Nat) : State :=
  if s.on (cntEnF n) ∧ n ∉ s.intg.leaked ∧ s.fig.toNat % 2 ^ max 10 (s.f (cntLeakF n)) = 0 then
    let s1 := ({ s with intg := { s.intg with leaked := ladd s.intg.leaked n } } : State).cntParity n
    s1.put (cntF n) (s1.f (cntF n) - 1)
  else s

/-- Add `k` to counter `n` (R423 steps 2 and 3), after its leak at this edge: at THR, which acts as 1 when 0, the counter overflows. What is
added at one edge is added at once, so the rest of an edge at which it has overflowed is gone with it. -/
def State.cntAdd (s : State) (n k : Nat) : State :=
  if s.on (cntEnF n) then
    let s1 := (s.cntLeak n).cntParity n
    if n ∈ s1.intg.overs then s1 else
    let v := min (s1.f (cntF n) + k) 0xFFFF
    if max 1 (s1.f (cntThrF n)) ≤ v then s1.cntOverflow n false else s1.put (cntF n) v
  else s

/-- An error event in leaf `l` (R422, R423): 1 for a CE, W_UE for a UE; the leaf's last record (R427). -/
def State.leafEvent (s : State) (l : Nat) (ue : Bool) (index : Nat) : State :=
  if leafExists l then
    let keep := s.on (INT_LEAF_LAST_VALID l) && s.on (INT_LEAF_LAST_UE l) && !ue
    let s1 := if keep then s else
      ((s.put (INT_LEAF_LAST_VALID l) 1).put (INT_LEAF_LAST_UE l) (b2n ue)).put (INT_LEAF_LAST_INDEX l) index
    s1.cntAdd l (if ue then s1.f (INT_LEAF_CFG_W_UE l) else 1)
  else s

/-- The parity of counter `n` is wrong. -/
def State.cntSpoil (s : State) (n : Nat) (bad : Bool) : State :=
  if bad ∧ n ∈ cntAll then { s with intg := { s.intg with bad := ladd s.intg.bad n } } else s

/-- LEAK_WINDOW (R423 step 1): counter `n` decreases by 1, not below 0, at the first edge of its leak window; `bad`: its parity has become
wrong. -/
def execLeakWindow (n : Nat) (bad : Bool) (s : State) : Out := .next ((s.cntSpoil n bad).cntLeak n)

/-- The overflows of the children at earlier edges, each adding 1 to its bucket (R424). -/
def State.cntUp (s : State) : State :=
  let due := s.intg.due.filter (fun e => decide (e.2 < s.fig.toNat))
  ({ s with intg := { s.intg with due := s.intg.due.filter (fun e => !decide (e.2 < s.fig.toNat)) } } : State).each due
    (fun b t => t.cntAdd (1000 + b.1) 1)

/-- COUNTER_PROPAGATE (R424): the overflows of the children, each adding 1 to its bucket at the next edge. -/
def execCounterPropagate (s : State) : Out := .next s.cntUp

/-- What an edge leaves of the counter tree: overflows passed on, leaks taken, at most 64 records (R423, R424, R426). -/
def State.cntEdge (s : State) : State :=
  let s1 := s.cntUp
  let s2 := if s1.fig.toNat % 1024 = 0 then s1.each (cntAll.filter (fun n => s1.f (cntF n) != 0)) (fun n t => t.cntLeak n) else s1
  let lost := s2.intg.log.length - 64
  let s3 : State := { s2 with intg := { s2.intg with log := s2.intg.log.take 64, overs := [], leaked := [] } }
  s3.when (lost != 0) (fun t => t.satF INT_LOG_LOST_COUNT lost)

/-- The record that a pop at this edge takes: the head of the log, unless it was made at this edge and so is queued after the pop (R426). -/
def State.logTop (s : State) : Option IntRec := s.intg.log.head?.filter (fun r => r.stamp != s.fig.toNat % 2 ^ 48)

/-- The value that a read of INT_LOG_POP returns, 0 when there is no record (R12, R426). -/
def State.logHead (s : State) : Nat :=
  match s.logTop with
  | none => 0
  | some r => 2 ^ 31 + r.level * 2 ^ 29 + b2n r.fault * 2 ^ 28 + r.node

/-- Load the stamp registers with the record's stamp (R426). -/
def State.logStamp (s : State) : State :=
  match s.logTop with
  | none => s
  | some r => (s.setReg INT_LOG_STAMP_LO (BitVec.ofNat 32 r.stamp)).put INT_LOG_STAMP_HI_STAMP_HI (r.stamp / 2 ^ 32)

/-- INT_LOG_POP (R426): the head record leaves the queue, and its stamp is loaded. -/
def execIntLogPop (s : State) : Out :=
  .next <|
    let s1 := s.logStamp
    if s.logTop.isSome then { s1 with intg := { s1.intg with log := s1.intg.log.tail } } else s1

/-- COUNTER_PARITY_READ (R425): a software read of counter `n` checks its parity (`bad`: it is found wrong). -/
def execCounterParityRead (n : Nat) (bad : Bool) (s : State) : Out :=
  .next ((s.cntSpoil n bad).cntParity n)

end Sys2Proof.Machine
end

