-- ==== Sys2Proof/Machine/FabricEval.lean ====
section
/-! DEFINITION. Sys2Proof/Machine/FabricEval.lean: what the loaded configuration makes of the fabric (files 02 and 03): the value of a
net (R50 to R55, R72, R73), the next value of a flip-flop (R59, R61), one access of a block memory (R94 to R106), one step of an
arithmetic slice (R117 to R126). -/

namespace Sys2Proof.Machine

/-- Everything that the loaded frames configure, with the bay of the frame. -/
def State.items (s : State) : List (Nat × CfgItem) :=
  s.fab.frames.flatMap (fun e => e.2.items.map (fun i => (e.1 / 4608, i)))

/-- The cell that an item configures. -/
def CfgItem.asCell : CfgItem → Option CellCfg
  | .cell c => some c
  | _ => none

/-- The cluster that an item configures. -/
def CfgItem.asCluster : CfgItem → Option ClusterCfg
  | .cluster c => some c
  | _ => none

/-- The memory that an item configures. -/
def CfgItem.asMem : CfgItem → Option MemCfg
  | .mem c => some c
  | _ => none

/-- The slice that an item configures. -/
def CfgItem.asSlice : CfgItem → Option SliceCfg
  | .slice c => some c
  | _ => none

/-- The configured cells. -/
def State.cells (s : State) : List CellCfg := s.items.filterMap (fun e => e.2.asCell)

/-- The configured memories. -/
def State.mems (s : State) : List MemCfg := s.items.filterMap (fun e => e.2.asMem)

/-- The configured slices. -/
def State.slices (s : State) : List SliceCfg := s.items.filterMap (fun e => e.2.asSlice)

/-- The configuration of cell `c`, none where no frame configures it. -/
def State.cellCfg (s : State) (c : Nat) : Option CellCfg := s.cells.find? (fun x => x.cell == c)

/-- The configuration of cluster `c`. -/
def State.clusterCfg (s : State) (c : Nat) : Option ClusterCfg :=
  (s.items.filterMap (fun e => e.2.asCluster)).find? (fun x => x.cluster == c)

/-- The configuration of memory `m`. -/
def State.memCfg (s : State) (m : Nat) : Option MemCfg := s.mems.find? (fun x => x.mem == m)

/-- The configuration of slice `sl`. -/
def State.sliceCfg (s : State) (sl : Nat) : Option SliceCfg := s.slices.find? (fun x => x.slice == sl)

/-- The bay number of a cell (R46, R48): 196,608 cells a bay. -/
def bayOfCell (c : Nat) : Nat := c / 196608

/-- The bay of the element that drives a net; none for a wire, a constant or a pin. The mesh ports stand in bay b0 of their sector. -/
def netBay : Net → Option Nat
  | .cellOut c _ => some (bayOfCell c)
  | .ffOut c _ => some (bayOfCell c)
  | .memOut m _ _ => some (m / 128)
  | .sliceOut sl _ => some (sl / 96)
  | .bndIn w _ => some (w / 64)
  | .portOut n _ _ => some (8 * n)
  | _ => none

/-- The bay that a net leaves: that of its element, and for a wire that of the frame which claims it (R74, R191). -/
def State.netBay (s : State) : Net → Option Nat
  | .wire w => match mget s.fab.claims 0 w with
    | 0 => none
    | f + 1 => some (f / 4608)
  | n => Machine.netBay n

/-- The set select bits of wire `w` in a frame. -/
def Frame.taps (f : Frame) (w : Nat) : List Net :=
  f.items.flatMap (fun i => match i with
    | .sel x taps => if x = w then taps else []
    | _ => [])

/-- The taps of a claimed wire: the frame that the claim map names drives it (R74, R76), and a select bit that an upset has set in a frame
of a bay that runs adds its source (R73). -/
def State.wireTaps (s : State) (w : Nat) : List Net :=
  let claim := mget s.fab.claims 0 w
  (match claim with
  | 0 => []
  | f + 1 => (mget s.fab.frames Frame.init f).taps w) ++
    (s.fab.frames.filter (fun e => e.2.flip != 0 && e.1 + 1 != claim && !decide (e.1 / 4608 ∈ s.fab.held))).flatMap (fun e => e.2.taps w)

/-- The configuration of flip-flop `i` (2 cell + 0 for FFA, 1 for FFB). -/
def State.ffCfg (s : State) (i : Nat) : Option FfCfg :=
  (s.cellCfg (i / 2)).map (fun c => if i % 2 = 0 then c.ffa else c.ffb)

/-- The Q of flip-flop `i`: 0 under the global hold (R186) until the start-up applies the initial values (R188), INIT in a held bay
(R192), else its value. -/
def State.ffQ (s : State) (i : Nat) : Bool :=
  if s.fab.hold && s.cfg.startStep == 0 then false
  else if bayOfCell (i / 2) ∈ s.fab.held then
    match s.ffCfg i with
    | some c => c.init
    | none => false
  else mget s.fab.ff false i

/-- The slice registers that drive PCO and P: 0 under the global hold and in a held bay (R186, R192). -/
def State.sliceR (s : State) (sl : Nat) : SliceReg :=
  if s.fab.hold || decide (sl / 96 ∈ s.fab.held) then SliceReg.init else mget s.fab.slice SliceReg.init sl

/-- The port registers of a memory as its DOUT and POUT show them (R109, R192). -/
def State.portR (s : State) (i : Nat) : PortReg :=
  if s.fab.hold || decide (i / 256 ∈ s.fab.held) then PortReg.init else mget s.fab.portReg PortReg.init i

/-! ### The arithmetic slice -/

/-- The residue modulo 7 of an integer (R123). -/
def res7 (i : Int) : Nat := (i % 7).toNat

/-- A 64-bit value as an integer, signed or not. -/
def val64 (sgn : Bool) (v : Nat) : Int := if sgn then sext 64 v else (v % 2 ^ 64 : Nat)

/-- A register of a slice loaded from its input of `w` bits: value, residue in its signedness, poison. -/
def sOperand (w : Nat) (sgn : Bool) (v : Nat) (p : Bool) : SReg :=
  ⟨BitVec.ofNat 64 v, BitVec.ofNat 3 (res7 (if sgn then sext w v else (v % 2 ^ w : Nat))), p⟩

/-- The multiplier stage (R117 steps 1 and 2, R118, R124): the product with its predicted residue and poison, and PRE_OVF. -/
def sliceMul (cfg : SliceCfg) (a b d : SReg) : SReg × Bool :=
  let av : Int := if cfg.aSigned then sext 27 a.v.toNat else (a.v.toNat % 2 ^ 27 : Nat)
  let dv : Int := if cfg.aSigned then sext 27 d.v.toNat else (d.v.toNat % 2 ^ 27 : Nat)
  let bv : Int := if cfg.bSigned then sext 24 b.v.toNat else (b.v.toNat % 2 ^ 24 : Nat)
  let exact : Int := match cfg.pre with
    | .pass => av
    | .add => dv + av
    | .sub => dv - av
  let r : Int := if cfg.aSigned then sext 27 (wrap 27 exact) else (wrap 27 exact : Nat)
  let k : Int := (exact - r) / 2 ^ 27
  let ra : Int := match cfg.pre with
    | .pass => (a.r.toNat : Int)
    | .add => (d.r.toNat : Int) + a.r.toNat - k
    | .sub => (d.r.toNat : Int) - a.r.toNat - k
  let m := r * bv
  (⟨BitVec.ofNat 64 (wrap 64 m), BitVec.ofNat 3 (res7 (ra * b.r.toNat)), a.p⟩, exact ≠ r)

/-- A residue that the slice holds reads 0b111 (R125): in an operand register, the product register or the result register that its
configuration has, used by the mode or not. -/
def sliceBad (cfg : SliceCfg) (r : SliceReg) : Bool :=
  (cfg.areg && r.a.r == 7) || (cfg.breg && r.b.r == 7) || (cfg.creg && r.c.r == 7) || (cfg.dreg && r.d.r == 7) ||
    (cfg.mreg && r.m.r == 7) || (cfg.preg && r.p.r == 7)

/-- The accumulator (R117 step 3, R118, R124 to R126) of product `m`, operand `c`, previous result `p` and cascade input `pci`; `flip`
are bits that a fault in the array inverts. It gives the result with the residue and poison it stores, OVF, and whether the check fails.
OVF compares the exact result of the operands, in their own signedness, with the signed 64-bit range, for an unsigned slice too
(R118 speaks of a signed result; DESIGN CHOICE, log entry 44). -/
def sliceAcc (cfg : SliceCfg) (m c p pci : SReg) (flip : Nat) : SReg × Bool × Bool :=
  let sgn := cfg.aSigned || cfg.bSigned
  let mv := val64 sgn m.v.toNat
  let base : Int × Int × Bool × Bool := match cfg.op with
    | .mul => (0, 0, false, false)
    | .muladd => (val64 cfg.aSigned c.v.toNat, c.r.toNat, false, c.r = 7)
    | .mulsub => (val64 cfg.aSigned c.v.toNat, c.r.toNat, false, c.r = 7)
    | .mac => (val64 sgn p.v.toNat, p.r.toNat, p.p, p.r = 7)
    | .macsub => (val64 sgn p.v.toNat, p.r.toNat, p.p, p.r = 7)
    | .casc => (val64 sgn pci.v.toNat, pci.r.toNat, pci.p, pci.r = 7)
    | .cascShift => (sext 64 pci.v.toNat / 2 ^ 24, res7 (sext 64 pci.v.toNat / 2 ^ 24), pci.p, pci.r = 7)
  let minus := cfg.op = .mulsub ∨ cfg.op = .macsub
  let exact := if minus then base.1 - mv else base.1 + mv
  let right := val64 sgn (wrap 64 exact)
  let w := (exact - right) / 2 ^ 64
  let predicted := res7 ((if minus then base.2.1 - m.r.toNat else base.2.1 + m.r.toNat) - 2 * w)
  let actual := (wrap 64 exact) ^^^ (flip % 2 ^ 64)
  let actualR := res7 (val64 sgn actual)
  let fail : Bool := predicted != actualR || m.r == 7 || base.2.2.2
  (⟨BitVec.ofNat 64 actual, BitVec.ofNat 3 actualR, m.p || base.2.2.1 || fail⟩,
    decide (exact < -(2 ^ 63) ∨ 2 ^ 63 ≤ exact), fail)

/-- The live inputs of a slice: A, B, C, D as registers would hold them. PI is the poison bit of A: it is registered with A, under AREG and
CE_IN, whatever the other operand registers are (R126 says "with the operands"; DESIGN CHOICE, log entry 44). -/
structure SliceIn where
  a : SReg
  b : SReg
  c : SReg
  d : SReg
deriving DecidableEq, Repr

/-- The stages of a slice after its input registers, and the accumulator's output from them: result, OVF, whether the check fails, PRE_OVF,
product. -/
def sliceOut (cfg : SliceCfg) (r : SliceReg) (i : SliceIn) (pci : SReg) (flip : Nat) : SReg × Bool × Bool × Bool × SReg :=
  let a := if cfg.areg then r.a else i.a
  let b := if cfg.breg then r.b else i.b
  let c := if cfg.creg then r.c else i.c
  let d := if cfg.dreg then r.d else i.d
  let mul := sliceMul cfg a b d
  let m := if cfg.mreg then r.m else mul.1
  let acc := sliceAcc cfg m c r.p (if cfg.cascIn then pci else SReg.init) flip
  (acc.1, acc.2.1, acc.2.2 || sliceBad cfg r, mul.2, mul.1)

/-- One active edge of a slice with its clock enables (R117 to R126, R121 rows 5 and 6): the new registers, and whether a residue check
failed. R118 registers both flags with P and says no more; the model's choices are (DESIGN CHOICE, log entry 44): with MREG = 1 PRE_OVF
takes the pre-add present at the P edge, one operand ahead of the product that P takes; with PREG = 0 both flags still load at CE_P
edges. -/
def sliceEdge (cfg : SliceCfg) (ceIn ceM ceP : Bool) (r : SliceReg) (i : SliceIn) (pci : SReg) (flip : Nat) : SliceReg × Bool :=
  let o := sliceOut cfg r i pci flip
  let pOut : SReg := { o.1 with p := o.1.p || o.2.2.1 }
  ({ a := if cfg.areg && ceIn then i.a else r.a
     b := if cfg.breg && ceIn then i.b else r.b
     c := if cfg.creg && ceIn then i.c else r.c
     d := if cfg.dreg && ceIn then i.d else r.d
     m := if cfg.mreg && ceM then o.2.2.2.2 else r.m
     p := if cfg.preg && ceP then pOut else r.p
     ovf := if ceP then o.2.1 else r.ovf
     preOvf := if ceP then o.2.2.2.1 else r.preOvf },
   ceP && o.2.2.1)

/-! ### Nets -/

/-- What the evaluation of the fabric asks for: a net as an element of bay `rb` reads it (128: outside every bay), an output of a
cell, or the accumulator output of a slice. -/
inductive Node where
  /-- a net read in a bay -/
  | net (rb : Nat) (n : Net)
  /-- an output of a cell's LUT and carry element: 0 O6, 1 S, 2 O5, 3 CO -/
  | lut (cell : Nat) (k : Nat)
  /-- the accumulator output of a slice, packed: bits 63:0, residue, poison, OVF -/
  | acc (sl : Nat)
deriving DecidableEq, Repr

/-- An SReg packed into one number. -/
def SReg.pack (x : SReg) : Nat := x.v.toNat + 2 ^ 64 * x.r.toNat + 2 ^ 67 * b2n x.p

/-- The SReg packed in a number. -/
def unpackS (n : Nat) : SReg := ⟨BitVec.ofNat 64 n, BitVec.ofNat 3 (n / 2 ^ 64), n.testBit 67⟩

/-- The state code of a bay in CFG_BAY_STAT. -/
def State.bayState (s : State) (k : Nat) : Nat := s.f (CFG_BAY_STAT_STATE k)

/-- The code RUN of CFG_BAY_STAT. -/
def bayRun : Nat := 1

/-- The ports of sector `n` work (R91): bay b0 is in RUN and no global hold is asserted. -/
def State.sectorLive (s : State) (n : Nat) : Bool := s.bayState (8 * n) == bayRun && !s.fab.hold

/-- The sources that the image routes to the bits of signal `sig` of the mesh ports of sector `n` (R87, R90). -/
def State.portSrc (s : State) (n : Nat) (sig : PortSig) : List (List Net) :=
  (s.items.findSome? (fun e => match e.2 with
    | .portIn x bits => if e.1 = 8 * n ∧ x = sig then some bits else none
    | _ => none)).getD []

/-- A tag of master port `n` is neither busy nor quarantined, and no response for it waits in the port's buffer, which has one entry for
each tag (R88). -/
def State.tagFree (s : State) (n tag : Nat) : Bool :=
  s.tagAt (64 * (32 + n) + tag) == .idle && !(mget s.fab.mRsp [] n).any (fun r => r.tag == tag) &&
    !(mget s.mesh.inbox [] (32 + n)).any (fun e => e.1.tag == tag)

/-- The value of a signal that the ports of sector `n` drive, but for M_REQ_READY (R87, R90): what they presented at the last edge of
PCLK. -/
def State.portSig (s : State) (n : Nat) (sig : PortSig) : Nat :=
  let v := mget s.fab.portView PortView.init n
  let rsp := fun (g : MRsp → Nat) => match v.rsp with
    | some r => g r
    | none => 0
  let req := fun (g : TReq → Nat) => match v.req with
    | some r => g r
    | none => 0
  match sig with
  | .mRspValid => b2n v.rsp.isSome
  | .mRspTag => rsp (·.tag)
  | .mRspStatus => rsp (·.status)
  | .mRspCause => rsp (·.cause)
  | .mRspData => rsp (·.data)
  | .mRspPoison => rsp (·.poison)
  | .mFenceAck => b2n v.ack.isSome
  | .mFenceErr => b2n (v.ack == some true)
  | .tReqValid => b2n v.req.isSome
  | .tReqWrite => req (fun r => b2n r.write)
  | .tReqAddr => req (·.addr)
  | .tReqSize => req (·.size)
  | .tReqId => req (·.id)
  | .tReqBe => req (·.be)
  | .tReqData => req (·.data)
  | .tReqPoison => req (·.poison)
  | .tRspReady => b2n (s.sectorLive n)
  | _ => 0

/-- The present values of the nets (R50 to R55, R72, R73, R190 to R192), 1 or 0 for a net. `fuel` bounds the length of a path; a path
that does not end is `Config.loopBit` (log entry 5). -/
def evalNode (s : State) : Nat → Node → Nat
  | 0, _ => b2n Config.loopBit
  | fuel + 1, .net rb n =>
    let own := match netBay n with
      | some k => k == rb
      | none => false
    if !own && decide (rb ∈ s.fab.held) then 0
    else
      let latch := (s.fab.latched.filter (fun e => e.1 != rb)).findSome? (fun e => (e.2.find? (fun x => x.1 == n)).map (·.2))
      match latch with
      | some b => b2n b
      | none =>
        match n with
        | .const b => b2n b
        | .ffOut c q => b2n (s.ffQ (2 * c + b2n q))
        | .bndIn w bit =>
          let x := mget s.fab.inFab BWord.init w
          b2n (if bit = 64 then x.poison else x.data.toNat.testBit bit)
        | .memOut m pb bit => b2n ((s.portR (2 * m + b2n pb)).dout.toNat.testBit bit)
        | .portOut n sig bit =>
          if sig = .mReqReady then
            let tag := packBits ((s.portSrc n .mReqTag).map (fun src => src.any (fun x => evalNode s fuel (.net (8 * n) x) == 1)))
            b2n (s.sectorLive n && s.tagFree n tag)
          else b2n ((s.portSig n sig).testBit bit)
        | .pinIn i => b2n (s.f (PIN_CFG_OWNER i) == 1 && (s.reg (PIN_GPIO_IN (i / 32))).toNat.testBit (i % 32))
        | .wire w => b2n ((s.wireTaps w).any (fun x => evalNode s fuel (.net 128 x) == 1))
        | .sliceOut sl bit =>
          match s.sliceCfg sl with
          | none => 0
          | some cfg =>
            let r := s.sliceR sl
            if bit = 65 then b2n r.ovf else if bit = 66 then b2n r.preOvf
            else
              let p := if cfg.preg then r.p else unpackS (evalNode s fuel (.acc sl))
              b2n (if bit = 64 then p.p else p.v.toNat.testBit bit)
        | .cellOut c ob =>
          match s.cellCfg c with
          | none => 0
          | some cfg => evalNode s fuel (.lut c (if ob then (if cfg.obCo then 3 else 2) else (if cfg.oaS then 1 else 0)))
  | fuel + 1, .lut c k =>
    match s.cellCfg c with
    | none => 0
    | some cfg =>
      let bay := bayOfCell c
      let inp := fun j => (cfg.ins.getD j []).any (fun x => evalNode s fuel (.net bay x) == 1)
      let j := b2n (inp 0) + 2 * b2n (inp 1) + 4 * b2n (inp 2) + 8 * b2n (inp 3) + 16 * b2n (inp 4)
      let o6 := match cfg.mode with
        | .l6 => cfg.table.toNat.testBit (j + 32 * b2n (inp 5))
        | _ => cfg.table.toNat.testBit (32 + j)
      let o5 := cfg.table.toNat.testBit j
      let ci := if c % 16 ≠ 0 then evalNode s fuel (.lut (c - 1) 3) == 1 else
        match s.clusterCfg (c / 16) with
        | none => false  -- frames of zeros: R54 gives CIN_SEL no encoding; carry 0 (DESIGN CHOICE, log entry 44)
        | some q => match q.cin with
          | .chain => if c / 16 % 256 = 0 then false else evalNode s fuel (.lut (c - 1) 3) == 1
          | .zero => false
          | .one => true
          | .bypass => inp 6
      match k with
      | 0 => b2n o6
      | 1 => b2n (o6 != ci)
      | 2 => b2n o5
      | _ => b2n (if o6 then ci else o5)
  | fuel + 1, .acc sl =>
    match s.sliceCfg sl with
    | none => 0
    | some cfg =>
      let bay := sl / 96
      let bits := fun (l : List (List Net)) => packBits (l.map (fun src => src.any (fun x => evalNode s fuel (.net bay x) == 1)))
      let pi := cfg.pi.any (fun x => evalNode s fuel (.net bay x) == 1)
      let i : SliceIn := ⟨sOperand 27 cfg.aSigned (bits cfg.a) pi, sOperand 24 cfg.bSigned (bits cfg.b) false,
        sOperand 64 cfg.aSigned (bits cfg.c) false, sOperand 27 cfg.aSigned (bits cfg.d) false⟩
      let pci := if sl % 32 = 0 then SReg.init else
        match s.sliceCfg (sl - 1) with
        | none => SReg.init
        | some below => if below.preg then (s.sliceR (sl - 1)).p else unpackS (evalNode s fuel (.acc (sl - 1)))
      let o := sliceOut cfg (s.sliceR sl) i pci 0
      ({ o.1 with p := o.1.p || o.2.2.1 } : SReg).pack + 2 ^ 68 * b2n o.2.1

/-- The bound on the length of a path that settles within a round: a round lasts at most 65,536 figures (R27; log entry 5). -/
def netFuel : Nat := 65536

/-- The OR of the nets selected by an input of an element of bay `rb` (R72, R73). -/
def State.pinVal (s : State) (rb : Nat) (src : List Net) : Bool := src.any (fun x => evalNode s netFuel (.net rb x) == 1)

/-- The number on a bus of inputs. -/
def State.busVal (s : State) (rb : Nat) (l : List (List Net)) : Nat := packBits (l.map (s.pinVal rb))

/-! ### Clocks at the elements -/


/-- The per-round enable of global clock `g` for the bow that begins round `r` (R149). -/
def State.roundEnable (s : State) (r g : Nat) : Bool :=
  match s.f (CLK_GCLK_RND_EN_MODE g) with
  | 1 =>
    let p := s.f (CLK_GCLK_RND_PERIOD g) + 1
    r % p == s.f (CLK_GCLK_RND_PHASE g) % p
  | 2 => s.clk.rndSeen.toNat.testBit g
  | _ => true

/-- The sector of a cell. -/
def sectorOfCell (c : Nat) : Nat := c / 1572864

/-- The spines that a flip-flop's selected cluster clocks take, with inversion. -/
def State.ffSpines (s : State) (cell : Nat) (c : FfCfg) : List (Nat × Bool) :=
  match s.clusterCfg (cell / 16) with
  | none => []
  | some k => c.clk.filterMap (fun i => k.ck[i]?)

/-- A flip-flop is a design flip-flop (R58): a selected clock is a round-mode clock; the global clocks concerned. -/
def State.ffRound (s : State) (cell : Nat) (c : FfCfg) : List Nat :=
  (s.ffSpines cell c).filterMap (fun e => s.roundSpine (sectorOfCell cell) e.1)

/-- The selected SR of a flip-flop is active. -/
def State.ffSr (s : State) (cell : Nat) (c : FfCfg) : Bool :=
  match s.clusterCfg (cell / 16) with
  | none => false
  | some k => c.sr.any (fun i => match k.sr[i]? with
      | some x => s.pinVal (bayOfCell cell) x.1
      | none => false)

/-- The selected SR of a flip-flop is active and asynchronous (R61). -/
def State.ffAsyncSr (s : State) (cell : Nat) (c : FfCfg) : Bool :=
  match s.clusterCfg (cell / 16) with
  | none => false
  | some k => c.sr.any (fun i => match k.sr[i]? with
      | some x => x.2 && s.pinVal (bayOfCell cell) x.1
      | none => false)

/-- The selected clock enable of a flip-flop is active (R57). -/
def State.ffCe (s : State) (cell : Nat) (c : FfCfg) : Bool :=
  c.ce.any (fun i => i == 4 || match s.clusterCfg (cell / 16) with
    | none => false
    | some k => s.pinVal (bayOfCell cell) (k.ce.getD i []))

/-- D of flip-flop FFA (`b` false) or FFB of a cell (R57). -/
def State.ffD (s : State) (cfg : CellCfg) (b : Bool) : Bool :=
  let bay := bayOfCell cfg.cell
  (if b then cfg.ffb.dSel else cfg.ffa.dSel).any (fun i => match i with
    | 0 => evalNode s netFuel (.lut cfg.cell (if b then 2 else 0)) == 1
    | 1 => evalNode s netFuel (.lut cfg.cell (if b then 3 else 1)) == 1
    | _ => s.pinVal bay (cfg.ins.getD (if b then 7 else 6) []))

/-- Rows 4 to 6 of R59 for one flip-flop. -/
def State.ffNext (s : State) (cfg : CellCfg) (b : Bool) : Bool :=
  let c := if b then cfg.ffb else cfg.ffa
  if s.ffSr cfg.cell c then c.srVal
  else if s.ffCe cfg.cell c then s.ffD cfg b
  else mget s.fab.ff false (2 * cfg.cell + b2n b)

/-! ### Block memories -/

/-- A raw row of a memory. -/
def State.row (s : State) (m r : Nat) : Nat := (mget s.fab.rows 0 (512 * m + r)).toNat

/-- One access of a memory port at an edge: row, bit offset, and for a write the data and the mask of the bits it covers within the
row (R94). -/
structure PortAcc where
  en : Bool
  row : Nat
  off : Nat
  write : Bool
  data : Nat
  mask : Nat
  pin : Bool
deriving DecidableEq, Repr

/-- The access that a port's inputs ask for (R93, R94, R98). R98 names no write strobe: an enabled access is a write where WR_EN is 1
and some byte-lane enable is 1; the widths x1 to x9, which have no lanes (R93), take BWE bit 0 as their one write enable (DESIGN CHOICE,
log entry 44). -/
def State.portAcc (s : State) (m : Nat) (c : PortCfg) : PortAcc :=
  let bay := m / 128
  let w := c.width
  let rowBits := if w % 9 = 0 then 72 else 64
  let a := s.busVal bay c.addr
  let row := a / (rowBits / w) % 512
  let off := a % (rowBits / w) * w
  let lane := if w % 9 = 0 then 9 else 8
  let mask := if w < 16 then 2 ^ w - 1 else
    packBits ((List.range w).map (fun i => s.pinVal bay (c.bwe.getD (i / lane) [])))
  let we := c.wrEn && decide (mask ≠ 0) && (16 ≤ w || s.pinVal bay (c.bwe.getD 0 []))
  ⟨s.pinVal bay c.en, row, off, we, (s.busVal bay c.din % 2 ^ w) <<< off, mask <<< off, s.pinVal bay c.pin⟩

/-- A write of the bits `mask` is a read-modify-write: with ECC on it does not cover all 64 data bits of the row (R103, R106). -/
def memRmw (ecc : Bool) (mask : Nat) : Bool := ecc && mask % 2 ^ 64 != 2 ^ 64 - 1

/-- The row that a write of the bits `mask` of `data` stores (R103, R105, R106). -/
def memWrite (ecc : Bool) (old data mask : Nat) (pin : Bool) : Nat :=
  if ecc then
    let m := mask % 2 ^ 64
    if m = 2 ^ 64 - 1 then encode64 data pin
    else
      let d := decode64 old
      let merged := ((d.data ^^^ (d.data &&& m)) ||| (data &&& m)) % 2 ^ 64
      match d with
      | .clean _ => encode64 merged pin
      | .corrected _ => encode64 merged pin
      | .poison _ => encode64 merged true
      | .uncorrectable _ => encode64 merged true
  else ((old ^^^ (old &&& mask)) ||| (data &&& mask)) % 2 ^ 72

/-- What a read of a row gives a port of width `w` at bit offset `off` (R104, R106): DOUT with POUT as bit 72, whether a single-bit
error was corrected, whether the row is uncorrectable. -/
def memRead (ecc : Bool) (raw off w : Nat) : Nat × Bool × Bool :=
  if ecc then
    let d := decode64 raw
    let v := (d.data >>> off) % 2 ^ w
    match d with
    | .clean _ => (v, false, false)
    | .corrected _ => (v, true, false)
    | .poison _ => (v + 2 ^ 72, false, false)
    | .uncorrectable _ => (v + 2 ^ 72, false, true)
  else ((raw >>> off) % 2 ^ w, false, false)

/-- The leaf of the counter tree that memory `m` counts in (R107, R422). -/
def memLeaf (m : Nat) : Nat := 32 * (m / 1024) + 2 * (m / 128 % 8) + m / 64 % 2

/-- The INDEX of a memory event (INT_LEAF_LAST): port, memory, row. -/
def memIndex (m : Nat) (portB : Bool) (row : Nat) : Nat := b2n portB * 2 ^ 15 + (m % 64) * 2 ^ 9 + row

/-- A port's registers after an enabled edge that reads or writes (R98, R99): with OUT_REG the stage register holds the data first. An edge
at which EN is 0 moves neither register: R98 has DOUT hold its value then, and "after the next active edge" is read as the next enabled
one (DESIGN CHOICE, log entry 44). -/
def portLoad (c : PortCfg) (r : PortReg) (dout : Option Nat) : PortReg :=
  match dout with
  | none => if c.outReg then { r with dout := r.stage } else r
  | some v => if c.outReg then { dout := r.stage, stage := BitVec.ofNat 73 v } else { r with dout := BitVec.ofNat 73 v }

/-- The word a port shows after its access, from the row before (`old`) and after (`new`) (R99); none where DOUT keeps its value. -/
def portDout (ecc : Bool) (c : PortCfg) (x : PortAcc) (old new : Nat) : Option (Nat × Bool × Bool) :=
  if x.write then
    match c.wrMode with
    | .readFirst => some (memRead ecc old x.off c.width)
    | .writeFirst => some (memRead ecc new x.off c.width)
    | .noChange => none
  else some (memRead ecc old x.off c.width)

/-- The ECC event of one decode of the raw row `raw` (R104, R105, R107). -/
def State.memEvents (s : State) (m : Nat) (portB : Bool) (row raw : Nat) : State :=
  match decode64 raw with
  | .corrected _ => s.leafEvent (memLeaf m) false (memIndex m portB row)
  | .uncorrectable _ => s.leafEvent (memLeaf m) true (memIndex m portB row)
  | _ => s

/-- The copy-on-write of R112: before port `i` writes an uncopied row, the old row goes to its copy-out register and the bit is set. -/
def State.copyOutRow (s : State) (m i row : Nat) : State :=
  let copied := mget s.fab.copied (List.range 512) m
  if row ∈ copied then s
  else s.setFab { s.fab with
      copyOut := mset s.fab.copyOut none (2 * m + i) (some (row, BitVec.ofNat 72 (s.row m row)))
      copied := mset s.fab.copied (List.range 512) m (ladd copied row) }

/-- Store a raw row. -/
def State.setRow (s : State) (m row v : Nat) : State :=
  s.setFab { s.fab with rows := mset s.fab.rows 0 (512 * m + row) (BitVec.ofNat 72 v) }

/-- A port's write to row `y.row` (R98 to R105): the row takes the masked data, and a read-modify-write decodes the old row, which may be an
event. -/
def State.memStore (s : State) (c : MemCfg) (y : PortAcc) (data mask : Nat) (pin pb : Bool) : State :=
  let old := s.row c.mem y.row
  (s.setRow c.mem y.row (memWrite c.ecc old data mask pin)).when (memRmw c.ecc mask) (fun u => u.memEvents c.mem pb y.row old)

/-- The writes of both ports at one edge (R101, R103): to one row, they merge, and where both write a bit COLL_PRI decides. An error that
the merged write finds names port A in INT_LEAF_LAST: R101 makes the two writes one and names no port (DESIGN CHOICE, log entry 44). -/
def State.memStores (s : State) (c : MemCfg) (wa wb : Option PortAcc) : State :=
  match wa, wb with
  | some y, some z =>
    if y.row = z.row then
      let both := y.mask &&& z.mask
      let first := if c.collB then y else z
      let second := if c.collB then z else y
      let data := ((first.data &&& (first.mask ^^^ both)) ||| (second.data &&& second.mask))
      s.memStore c y data (y.mask ||| z.mask) (c.ecc && (y.pin || z.pin)) false
    else (s.memStore c y y.data y.mask y.pin false).memStore c z z.data z.mask z.pin true
  | some y, none => s.memStore c y y.data y.mask y.pin false
  | none, some z => s.memStore c z z.data z.mask z.pin true
  | none, none => s

/-- What port `i` shows after the edge: a port that writes sees the row after its own write, a port that reads sees the row `old` from
before the other's write (R99 to R101). A read decodes the row; so does a READ_FIRST write, once with the read-modify-write that it may
be. -/
def State.memShow (s : State) (c : MemCfg) (i : Nat) (pc : PortCfg) (x : Option PortAcc) (old : Option Nat) : State :=
  match x, old with
  | some y, some o =>
    let new := memWrite c.ecc o y.data y.mask y.pin
    let d := portDout c.ecc pc y o new
    let r := mget s.fab.portReg PortReg.init (2 * c.mem + i)
    let reads := c.ecc && (!y.write || (pc.wrMode == .readFirst && !memRmw c.ecc y.mask))
    (s.setFab { s.fab with portReg := mset s.fab.portReg PortReg.init (2 * c.mem + i) (portLoad pc r (d.map (·.1))) }).when reads
      (fun t => t.memEvents c.mem (i == 1) y.row o)
  | _, _ => s

/-- Both ports of a memory at one coincident edge (R98 to R106, R112): `xa` and `xb` are the accesses (none: no edge, or EN = 0), `design`
tells which ports are design ports, whose writes copy on write, port A first. -/
def State.memEdge (s : State) (c : MemCfg) (xa xb : Option PortAcc) (design : Bool) : State :=
  let live := fun (x : Option PortAcc) => x.bind (fun y => if y.en then some y else none)
  let a := live xa
  let b := live xb
  let wa := a.bind (fun y => if y.write then some y else none)
  let wb := b.bind (fun y => if y.write then some y else none)
  let oldA := a.map (fun y => s.row c.mem y.row)
  let oldB := b.map (fun y => s.row c.mem y.row)
  let copy := fun (t : State) (i : Nat) (w : Option PortAcc) => t.each w.toList (fun y u => u.copyOutRow c.mem i y.row)
  let s1 := if design then copy (copy s 0 wa) 1 wb else s
  ((s1.memStores c wa wb).memShow c 0 c.a a oldA).memShow c 1 c.b b oldB

end Sys2Proof.Machine
end

