-- ==== Sys2Proof/Machine/Lanes.lean ====
section
/-! DEFINITION. Sys2Proof/Machine/Lanes.lean: what the lanes of a Gleis port carry (file 08): the 8b/10b code (R291), the check codes
(R293), slots and frames as symbols (R292, R294 to R297, R305, R309, R325), training sequences (R312, R313). -/

namespace Sys2Proof.Machine

/-! ### The 8b/10b code (R291; log entry 50) -/

/-- The six bits a to i of D0 to D31 at negative running disparity, bit a lowest, and whether positive disparity complements them. -/
def code6 : List (Nat × Bool) :=
  [(0x39, true), (0x2E, true), (0x2D, true), (0x23, false), (0x2B, true), (0x25, false), (0x26, false), (0x07, true)] ++
  [(0x27, true), (0x29, false), (0x2A, false), (0x0B, false), (0x2C, false), (0x0D, false), (0x0E, false), (0x3A, true)] ++
  [(0x36, true), (0x31, false), (0x32, false), (0x13, false), (0x34, false), (0x15, false), (0x16, false), (0x17, true)] ++
  [(0x33, true), (0x19, false), (0x1A, false), (0x1B, true), (0x1C, false), (0x1D, true), (0x1E, true), (0x35, true)]

/-- The four bits f to j of D.x.0 to D.x.7 at negative disparity, and whether positive disparity complements them. -/
def code4 : List (Nat × Bool) :=
  [(0xD, true), (0x9, false), (0xA, false), (0x3, true), (0xB, true), (0x5, false), (0x6, false), (0x7, true)]

/-- The four bits f to j of K28.0 to K28.7 at negative disparity; positive disparity complements each. -/
def codeK : List Nat := [0xD, 0x6, 0x5, 0x3, 0xB, 0xA, 0x9, 0xE]

/-- The running disparity after a sub-block of 2 h bits. -/
def rdAfter (h g : Nat) (rd : Bool) : Bool :=
  let k := ones (2 * h) g
  if h < k then true else if k < h then false
  else if g = 2 ^ (2 * h) - 2 ^ h then true else if g = 2 ^ h - 1 then false else rd

/-- The sub-block a to i of symbol `s` at disparity `rd`. -/
def sub6 (s : Sym) (rd : Bool) : Nat :=
  if s.k ∧ s.b % 32 = 28 then (if rd then 0x03 else 0x3C)
  else
    let e := code6.getD (s.b % 32) (0, false)
    if rd ∧ e.2 then 0x3F - e.1 else e.1

/-- The sub-block f to j of symbol `s`, `rd` being the disparity after its first sub-block. -/
def sub4 (s : Sym) (rd : Bool) : Nat :=
  let x := s.b % 32
  let y := s.b / 32 % 8
  let flip := fun (g : Nat) => if rd then 0xF - g else g
  if s.k then (if x = 28 then flip (codeK.getD y 0) else flip 0xE)
  else
    let alt := y = 7 ∧ (if rd then x = 11 ∨ x = 13 ∨ x = 14 else x = 17 ∨ x = 18 ∨ x = 20)
    if alt then flip 0xE
    else
      let e := code4.getD y (0, false)
      if e.2 then flip e.1 else e.1

/-- A symbol's 10-bit group, bit a lowest, and the running disparity after it; `rd`: the disparity before is positive. -/
def encodeSym (s : Sym) (rd : Bool) : Nat × Bool :=
  let p := sub6 s rd
  let r := rdAfter 3 p rd
  let q := sub4 s r
  (p + 64 * q, rdAfter 2 q r)

/-- The special characters that the code has. -/
def isK (b : Nat) : Bool := b % 32 == 28 || b == 0xF7 || b == 0xFB || b == 0xFD || b == 0xFE

/-- The symbol that a group is at disparity `rd`, if any. -/
def decodeAt (g : Nat) (rd : Bool) : Option Sym :=
  let xs := (List.range 32).filter (fun x => sub6 ⟨false, x⟩ rd == g % 64)
  let ks := if sub6 ⟨true, 28⟩ rd = g % 64 then [28] else []
  let d := xs.flatMap (fun x => (List.range 8).map (fun y => (⟨false, x + 32 * y⟩ : Sym)))
  let k := (xs ++ ks).flatMap (fun x => ((List.range 8).map (fun y => (⟨true, x + 32 * y⟩ : Sym))).filter (fun s => isK s.b))
  (d ++ k).find? (fun s => (encodeSym s rd).1 == g)

/-- What a lane receives in one symbol time (R291): the symbol, or none for a group that is none; whether it counts as a code error, and as
a disparity error; the disparity afterwards. A receiver that has seen no group yet takes either disparity. -/
def decodeGroup (g : Nat) (rd : Option Bool) : Option Sym × Bool × Bool × Bool :=
  let r := rd.getD false
  let next := rdAfter 2 (g / 64 % 16) (rdAfter 3 (g % 64) r)
  let bad := fun (s : Sym) => s.k && (s.b == 0xFC || s.b == 0x9C || s.b == 0xDC)
  match decodeAt g r with
  | some s => (if bad s then none else some s, bad s, false, next)
  | none => match decodeAt g (!r) with
    | some s => (if bad s then none else some s, bad s, rd.isSome, rdAfter 2 (g / 64 % 16) (rdAfter 3 (g % 64) (!r)))
    | none => (none, true, false, next)

/-! ### Check codes (R293) -/

/-- One step of a most-significant-bit-first CRC of `w` bits. -/
def crcShift (w poly c : Nat) : Nat := if c.testBit (w - 1) then (c * 2 ^^^ poly) % 2 ^ w else c * 2 % 2 ^ w

/-- A CRC over bytes. -/
def crcMsb (w poly init : Nat) (bytes : List Nat) : Nat :=
  bytes.foldl (fun c b => (List.range 8).foldl (fun x _ => crcShift w poly x) (c ^^^ (b % 256) * 2 ^ (w - 8))) init

/-- CRC-16: polynomial 0x1021, initial value 0xFFFF. -/
def crc16 (bytes : List Nat) : Nat := crcMsb 16 0x1021 0xFFFF bytes

/-- CRC-8: polynomial 0x07, initial value 0. -/
def crc8 (bytes : List Nat) : Nat := crcMsb 8 0x07 0 bytes

/-- CRC-32, the code of R170. -/
def crc32 (bytes : List Nat) : Nat := (bytes.foldl (fun c b => crcBytes 1 b c) 0xFFFFFFFF) ^^^ 0xFFFFFFFF

/-! ### Slots -/

/-- A data symbol. -/
def dsym (b : Nat) : Sym := ⟨false, b % 256⟩

/-- The special symbols that a transmitter uses (R291). -/
def k285 : Sym := ⟨true, 0xBC⟩
/-- K27.7. -/
def k277 : Sym := ⟨true, 0xFB⟩
/-- K29.7. -/
def k297 : Sym := ⟨true, 0xFD⟩
/-- K23.7. -/
def k237 : Sym := ⟨true, 0xF7⟩
/-- K28.1. -/
def k281 : Sym := ⟨true, 0x3C⟩
/-- K28.2. -/
def k282 : Sym := ⟨true, 0x5C⟩
/-- K28.3. -/
def k283 : Sym := ⟨true, 0x7C⟩
/-- K28.0. -/
def k280 : Sym := ⟨true, 0x1C⟩

/-- A slot with a special symbol on L0 and bytes on L1 to L7. -/
def kslot (k : Sym) (bytes : List Nat) : List Sym := k :: (List.range 7).map (fun i => dsym (bytes.getD i 0))

/-- A slot of eight bytes. -/
def dslot (bytes : List Nat) : List Sym := (List.range 8).map (fun i => dsym (bytes.getD i 0))

/-- Bytes as payload slots of eight, the last filled with 0. -/
def payload (bytes : List Nat) : List (List Sym) := (List.range ((bytes.length + 7) / 8)).map (fun i => dslot (bytes.drop (8 * i)))

/-- A comma idle (R292). -/
def commaIdle : List Sym := List.replicate 8 k285

/-! ### Bulk frames (R294, R295) -/

/-- The 4-byte header of a bundle entry (R295). -/
def Entry.header (e : Entry) : Nat :=
  e.dest % 2 ^ 12 + e.queue % 2 ^ 14 * 2 ^ 12 + b2n e.poison * 2 ^ 26 + b2n e.rpar * 2 ^ 27 + b2n e.tc * 2 ^ 28 + e.cls % 4 * 2 ^ 29

/-- The 12 bytes of a bundle entry. -/
def Entry.bytes (e : Entry) : List Nat := toBytes 4 e.header ++ toBytes 8 e.data.toNat

/-- The entry that 12 bytes spell. -/
def entryOf (l : List Nat) : Entry :=
  let h := ofBytes (l.take 4)
  ⟨bitsOf h 11 0, bitsOf h 25 12, BitVec.ofNat 64 (ofBytes (l.drop 4)), h.testBit 26, h.testBit 27, h.testBit 28, bitsOf h 30 29⟩

/-- The payload bytes of a bulk frame, filled to whole slots. -/
def bulkBytes (es : List Entry) : List Nat :=
  let l := es.flatMap Entry.bytes
  l ++ List.replicate ((8 - l.length % 8) % 8) 0

/-- L1 to L7 of the header of a bulk frame. -/
def bulkHead (count : Nat) : List Nat := [(count - 1) % 16, 0, 0, 0, 0, 0, 0]

/-- The CRC-32 of a bulk frame: L1 to L7 of the header, the payload, L0 to L2 of the trailer. -/
def bulkCrc (head body : List Nat) (lseq ack : Nat) : Nat := crc32 (head ++ body ++ [lseq % 256, ack % 256, 0])

/-- Slot `i` of a bulk frame: header, payload slots; the trailer is formed by itself. -/
def bulkSlot (es : List Entry) (i : Nat) : List Sym :=
  if i = 0 then kslot k277 (bulkHead es.length) else dslot ((bulkBytes es).drop (8 * (i - 1)))

/-- The payload slots of a frame of `count` bundles (R294). -/
def bulkSlots (count : Nat) : Nat := (12 * count + 7) / 8

/-- The trailer of a bulk frame. -/
def bulkTrailer (es : List Entry) (lseq ack : Nat) : List Sym :=
  ([lseq, ack, 0] ++ toBytes 4 (bulkCrc (bulkHead es.length) (bulkBytes es) lseq ack)).map dsym ++ [k297]

/-! ### Cut-ins and tokens (R296, R297) -/

/-- The 24 bytes of a control message (R296). -/
def Msg.bytes (m : Msg) : List Nat :=
  [m.type % 16 + b2n m.isMatch * 16 + b2n m.hasTarget * 32] ++ toBytes 2 (m.origin % 2 ^ 12) ++ toBytes 2 m.seq ++ toBytes 6 m.round ++
    toBytes 6 m.target ++ toBytes 2 m.beat ++ [0, 0, 0, 0, 0]

/-- The message that 24 bytes spell. -/
def msgOf (l : List Nat) : Msg :=
  let f := l.getD 0 0
  ⟨f % 16, ofBytes ((l.drop 1).take 2) % 2 ^ 12, ofBytes ((l.drop 3).take 2), ofBytes ((l.drop 5).take 6), ofBytes ((l.drop 11).take 6),
    ofBytes ((l.drop 17).take 2), f.testBit 4, f.testBit 5⟩

/-- H[39:0] of an urgent frame with its LSEQ. -/
def Urgent.head (u : Urgent) (lseq : Nat) : Nat :=
  match u with
  | .bundle e => e.dest % 2 ^ 12 * 4 + e.queue % 2 ^ 14 * 2 ^ 14 + b2n e.poison * 2 ^ 28 + b2n e.rpar * 2 ^ 29 + b2n e.tc * 2 ^ 30 + lseq % 256 * 2 ^ 32
  | .ctrl d t _ => 1 + d % 2 ^ 12 * 4 + b2n t * 2 ^ 30 + lseq % 256 * 2 ^ 32
  | .token d o t _ _ => d % 2 ^ 12 + o % 2 ^ 12 * 2 ^ 12 + b2n t * 2 ^ 24 + lseq % 256 * 2 ^ 32

/-- The bytes that follow the header of an urgent frame: 8 of a bundle, 24 of a message, the token byte (R260). -/
def Urgent.body (u : Urgent) : List Nat :=
  match u with
  | .bundle e => toBytes 8 e.data.toNat
  | .ctrl _ _ m => m.bytes
  | .token _ _ _ ty r => [ty % 4 * 64 + r % 64]

/-- The CRC-16 of an urgent frame: H[39:0] and the bytes that follow. -/
def urgentCrc (h : Nat) (body : List Nat) : Nat := crc16 (toBytes 5 h ++ body)

/-- The slots of an urgent frame (R296, R297). -/
def Urgent.slots (u : Urgent) (lseq : Nat) : List (List Sym) :=
  let h := u.head lseq
  let c := urgentCrc h u.body
  match u with
  | .token _ _ _ _ _ => [kslot k281 (toBytes 5 h), dslot (u.body ++ toBytes 2 c)]
  | _ => kslot k282 (toBytes 5 h ++ toBytes 2 c) :: payload u.body

/-- The urgent frame that H and the bytes after it spell: a cut-in, or a token. -/
def urgentOf (token : Bool) (h : Nat) (body : List Nat) : Urgent :=
  if token then .token (bitsOf h 11 0) (bitsOf h 23 12) (h.testBit 24) (body.getD 0 0 / 64 % 4) (body.getD 0 0 % 64)
  else if h % 4 = 1 then .ctrl (bitsOf h 13 2) (h.testBit 30) (msgOf body)
  else .bundle ⟨bitsOf h 13 2, bitsOf h 27 14, BitVec.ofNat 64 (ofBytes (body.take 8)), h.testBit 28, h.testBit 29, h.testBit 30, 0⟩

/-! ### Slots without a sequence number -/

/-- A retry request (R309). -/
def retrySlot (lseq : Nat) : List Sym := kslot k283 [lseq, crc8 [lseq]]

/-- A status slot: L1 to L6 and their CRC-8 on L7 (R305). -/
def statusSlot (l : List Nat) : List Sym := kslot k285 ((List.range 6).map (fun i => l.getD i 0) ++ [crc8 ((List.range 6).map (fun i => l.getD i 0))])

/-- A CREDIT status (R305): ACK and the counts of LOCAL, T0, T1, UL, UT0, UT1. -/
def creditStatus (ack : Nat) (c : List Nat) : List Sym :=
  statusSlot [c.getD 3 0 % 16, ack, c.getD 0 0, c.getD 1 0, c.getD 2 0, c.getD 4 0 % 16 + c.getD 5 0 % 16 * 16]

/-- A SPARE status (R305). -/
def spareStatus (op lane : Nat) : List Sym := statusSlot [16 + op % 16, lane]

/-- A beat mark (R325). -/
def beatSlot (count : Nat) : List Sym := kslot k237 (toBytes 2 count ++ [crc8 (toBytes 2 count)])

/-- A skip on the active lanes (R292). -/
def skipSlot : List Sym := List.replicate 8 k280

/-! ### Training sequences (R312) -/

/-- The symbols of a training sequence of a port on one lane. -/
def trainSyms (type lane port node flags rxExpect txNext : Nat) : List Sym :=
  let b := [type, lane, port] ++ toBytes 2 node ++ [flags, rxExpect, txNext, 0, 0, 0, 0]
  [k285, dsym 0x4A] ++ (b ++ toBytes 2 (crc16 b)).map dsym

/-- The bytes of symbols 2 to 15 of a training sequence that is whole: K28.5, D10.2, a type, a good CRC-16. -/
def trainOk (l : List (Option Sym)) : Option (List Nat) :=
  let b := (l.drop 2).filterMap (fun x => x.bind (fun s => if s.k then none else some s.b))
  if l.length = 16 ∧ l.head? = some (some k285) ∧ (l.drop 1).head? = some (some (dsym 0x4A)) ∧ b.length = 14 ∧
      1 ≤ b.getD 0 0 ∧ b.getD 0 0 ≤ 3 ∧ ofBytes (b.drop 12) = crc16 (b.take 12) then some b else none

/-- The place of the first K28.5 on a lane. -/
def commaAt (l : List (Option Sym)) : Nat := l.findIdx (fun x => x == some k285)

/-- What the symbols received on physical positions 0 to 8 say together (R311 to R315): the sequences that are whole, their lane map, the
fields of the first; `errs`: the positions whose groups showed an error. -/
def trainOf (lanes : List (List (Option Sym))) (errs : List Nat) : TrainSeq :=
  let ok := (List.range 9).filterMap (fun l =>
    let x := lanes.getD l []
    (trainOk ((x.drop (commaAt x)).take 16)).map (fun b => (l, b)))
  let f := (ok.head?.map (·.2)).getD []
  { type := f.getD 0 0
    lanes := ok.map (·.1)
    map := if ok.all (fun e => e.2.getD 1 0 == e.1) then 0 else if ok.all (fun e => e.2.getD 1 0 + e.1 == 8) then 1 else 2
    port := f.getD 2 0 % 16
    node := ofBytes ((f.drop 3).take 2) % 2 ^ 12
    ready := (f.getD 5 0).testBit 0
    resume := (f.getD 5 0).testBit 1
    checked := (f.getD 5 0).testBit 2
    rxExpect := f.getD 6 0
    txNext := f.getD 7 0
    place := (List.range 9).map (fun l => commaAt (lanes.getD l []))
    errs := errs }

end Sys2Proof.Machine
end

