-- ==== Sys2Proof/Machine/Order.lean ====
section
/-! DEFINITION. Sys2Proof/Machine/Order.lean: the ordering blocks and their fences (R30 to R37). -/

namespace Sys2Proof.Machine

/-- Source `src` has an ordering block (R30). -/
def hasOrder (src : Nat) : Bool := decide (src ≤ 20) || (decide (32 ≤ src) && decide (src < 48))

/-- The fences pending on a source, oldest first. -/
def State.fencesOf (s : State) (src : Nat) : List (Nat × List Nat × Bool) := mget s.mesh.fences [] src

/-- Replace the pending fences of a source; PENDING shows how many there are. -/
def State.setFences (s : State) (src : Nat) (l : List (Nat × List Nat × Bool)) : State :=
  (s.setMesh { s.mesh with fences := mset s.mesh.fences [] src l }).put (DEV_ORD_STATUS_PENDING src) l.length

/-- The key of operation `i` of source 0 on host memory, apart from the keys of the mesh. -/
def hostKey (i : Nat) : Nat := 4096 + i

/-- The keys of the operations of a source that are not yet visible (R31, R32): its accesses on the mesh, and those of source 0 on host
memory. -/
def State.openKeys (s : State) (src : Nat) : List Nat :=
  (s.mesh.tags.filterMap (fun e => if e.1 / 64 = src then
    match e.2 with
    | .queued _ => some e.1
    | .busy _ _ => some e.1
    | _ => none else none)) ++ (if src = 0 then s.host.ops.map hostKey else [])

/-- For a fence on source 0 the hub issues a zero-length read after the last write to host memory that is not yet visible (R32). -/
def State.flushIssue (s : State) (src : Nat) : State :=
  if src = 0 ∧ s.host.ops ≠ [] then s.setHost { s.host with flush := s.host.flush ++ [s.host.opSeq - 1] } else s

/-- A fence on a source (R31, R34, R35): none where the source has no ordering block or 16 fences are pending, and the write waits. -/
def State.issueFence (s : State) (src : Nat) : State × Option Nat :=
  let l := s.fencesOf src
  if hasOrder src && decide (l.length < 16) then
    let s1 := s.addF (DEV_ORD_ISSUED_COUNT src) 1
    let k := s1.f (DEV_ORD_ISSUED_COUNT src)
    ((s1.setFences src (l ++ [(k, s.openKeys src, false)])).flushIssue src, some k)
  else (s, none)

/-- Later operations of a source are held (R31). -/
def State.fenceHeld (s : State) (src : Nat) : Bool := !(s.fencesOf src).isEmpty

/-- An operation of source `src` is visible, or has completed with error (R32). -/
def State.opSeen (s : State) (src key : Nat) (err : Bool) : State :=
  s.setFences src ((s.fencesOf src).map (fun x => if key ∈ x.2.1 then (x.1, ldel x.2.1 key, x.2.2 || err) else x))

/-- An access on the mesh is visible, or has completed with error (R32). -/
def State.opVisible (s : State) (key : Nat) (err : Bool) : State := s.opSeen (key / 64) key err

/-- The operations of source 0 on host memory that satisfy `p` are visible, or have completed with error (R32). -/
def State.hostSeen (s : State) (p : Nat → Bool) (err : Bool) : State :=
  ((s.host.ops.filter p).foldl (fun t i => t.opSeen 0 (hostKey i) err) s).setHost
    { s.host with ops := s.host.ops.filter (fun i => !p i) }

/-- Fence number `k` of a source is complete (R34). -/
def State.fenceDone (s : State) (src k : Nat) : Bool := decide (0 ≤ sext 32 (s.f (DEV_ORD_DONE_COUNT src) + 2 ^ 32 - k))

/-- DONE reaches TARGET (R37's register table): EVT, and EV_FENCE_DONE with IRQ_EN. -/
def State.fenceEvt (s : State) (src : Nat) : State :=
  if s.f (DEV_ORD_DONE_COUNT src) = s.f (DEV_ORD_WAIT_TARGET src) then
    let s1 := s.put (DEV_ORD_STATUS_EVT src) 1
    if s1.on (DEV_ORD_STATUS_IRQ_EN src) then s1.raise (64 + src) else s1
  else s

/-- The fabric master port of a source learns that its fence completed (R87). -/
def State.masterAck (s : State) (src k : Nat) (err : Bool) : State :=
  if 32 ≤ src ∧ k ∈ mget s.fab.mFence [] (src - 32) then
    s.setFab { s.fab with
        mFence := mset s.fab.mFence [] (src - 32) (ldel (mget s.fab.mFence [] (src - 32)) k)
        mAck := mset s.fab.mAck [] (src - 32) (mget s.fab.mAck [] (src - 32) ++ [err]) }
  else s

/-- FENCE_COMPLETE (R32, R34, R44): the oldest fence of the source, when every operation it covers is visible. -/
def State.completeFence (s : State) (src : Nat) : State :=
  match s.fencesOf src with
  | (k, [], err) :: rest =>
    let s1 := (s.setFences src rest).addF (DEV_ORD_DONE_COUNT src) 1
    let s2 := s1.when err (fun t => t.put (DEV_ORD_STATUS_ERR src) 1)
    (s2.fenceEvt src).masterAck src k err
  | _ => s

/-- A reset reaches an ordering block (R36). -/
def State.orderReset (s : State) (src : Nat) : State :=
  if hasOrder src then
    let s1 := s.setFences src []
    let s2 := s1.when (decide (32 ≤ src)) (fun t => t.setFab { t.fab with mFence := mset t.fab.mFence [] (src - 32) [] })
    s2.resetRegs (fun a => decide (DEV_ORD_FENCE src ≤ a) && decide (a < DEV_ORD_FENCE src + 0x20))
  else s

/-- DEV_ORD_FENCE (R31, R34, R35): a write of GO; while 16 fences are pending the write is held. -/
def execDevOrdFence (src : Nat) (s : State) : Out :=
  .next <|
    match s.issueFence src with
    | (t, some _) => t
    | (_, none) => if hasOrder src then s.setMesh { s.mesh with heldWr := s.mesh.heldWr ++ [(src, DEV_ORD_FENCE src, 1)] } else s

end Sys2Proof.Machine
end

