-- ==== Sys2Proof/Machine/GleisOps.lean ====
section
/-! DEFINITION. Sys2Proof/Machine/GleisOps.lean: what every user of the Gleis ports shares (file 08): queues, pools and credits (R300 to
R307), LSEQ and the retry buffer (R308), going down (R317), the log of lattice control (R257), sending tokens and messages (R260, R270). -/

namespace Sys2Proof.Machine

/-! ### Lattice control's view of the node -/

/-- The state code of R266. -/
def State.latState (s : State) : Nat := s.f LAT_STAT_STATE

/-- The node's rounds are stopped (R266): OFFLINE, STOPPED or ABORTED. -/
def State.stopped (s : State) : Bool := s.latState == 0 || s.latState == 1 || s.latState == 7

/-- A round is in progress (R266): RUN, WAIT, HELD or ANNOUNCED. -/
def State.inRound (s : State) : Bool := decide (3 ≤ s.latState) && decide (s.latState ≤ 6)

/-- The node's identity (R253). -/
def State.nodeId (s : State) : Nat := s.f LAT_NODE_NODE

/-- The valid peers: index and node (R255). -/
def State.peers (s : State) : List (Nat × Nat) :=
  (List.range 64).filterMap (fun i => if s.on (LAT_PEER_VALID i) then some (i, s.f (LAT_PEER_NODE i)) else none)

/-- An entry of LAT_ERR_LOG with EV_LAT_PROTO (R257, R265, R271). -/
def State.latErr (s : State) (cause port node : Nat) (here : Bool) : State :=
  (s.log LAT_ERR_LOG_VALID LAT_ERR_LOG_OVF (fun t =>
    (((t.put LAT_ERR_LOG_LOCAL (b2n here)).put LAT_ERR_LOG_CAUSE cause).put LAT_ERR_LOG_PORT port).put LAT_ERR_LOG_NODE node)).raise 159

/-- A destination without a route (R257): logged once per round. `port`: where the frame arrived, none for the node's own. -/
def State.routeInvalid (s : State) (dest : Nat) (port : Option Nat) : State :=
  if s.lat.routeSaid then s
  else (s.setLat { s.lat with routeSaid := true }).latErr 4 (port.getD 0) dest port.isNone

/-- The port that the route table names for a node (R256). -/
def State.routeOf (s : State) (dest : Nat) : Option Nat :=
  if s.on (LAT_ROUTE_VALID dest) then some (s.f (LAT_ROUTE_PORT dest)) else none

/-! ### Ports -/

/-- Port `n`. -/
def State.portOf (s : State) (n : Nat) : Port := mget s.port Port.init n

/-- Replace port `n`. -/
def State.setPort (s : State) (n : Nat) (p : Port) : State := { s with port := mset s.port Port.init n p }

/-- A port is up (R311). -/
def State.portUp (s : State) (n : Nat) : Bool := s.f (GLS_STAT_STATE n) == 7

/-- An event of port `n`: its bit in GLS_EVT and its IRQ (R327). -/
def State.glsEvt (s : State) (n bit irq : Nat) : State :=
  (s.setReg (GLS_EVT n) (s.reg (GLS_EVT n) ||| (1#32 <<< bit))).raise irq

/-- Sizes of the pools LOCAL, T0, T1, UL, UT0, UT1 (R302). -/
def poolSize (p : Nat) : Nat := [192, 64, 64, 12, 6, 6].getD p 0

/-- The modulus of a pool's counts (R303). -/
def poolBase (p : Nat) : Nat := if p < 3 then 256 else 16

/-- The credit that the transmitter of port `n` has in a pool of its peer (R303). -/
def State.poolCredit (s : State) (n p : Nat) : Nat :=
  let x := s.portOf n
  let used := (x.sent.getD p 0 + poolBase p - x.credit.getD p 0 % poolBase p) % poolBase p
  poolSize p - used

/-- The pool that an entry for `dest` takes at the peer of port `n` (R303). -/
def State.poolFor (s : State) (n dest : Nat) (tc urgent : Bool) : Nat :=
  (if urgent then 3 else 0) +
    (if s.on (GLS_PEER_ID_VALID n) && s.f (GLS_PEER_ID_NODE n) == dest then 0 else if tc then 2 else 1)

/-- DEST of an urgent entry. -/
def Urgent.dest : Urgent → Nat
  | .bundle e => e.dest
  | .ctrl d _ _ => d
  | .token d _ _ _ _ => d

/-- TC of an urgent entry. -/
def Urgent.tc : Urgent → Bool
  | .bundle e => e.tc
  | .ctrl _ t _ => t
  | .token _ _ t _ _ => t

/-- An urgent entry with TC = 1. -/
def Urgent.withTc : Urgent → Urgent
  | .bundle e => .bundle { e with tc := true }
  | .ctrl d _ m => .ctrl d true m
  | .token d o _ ty r => .token d o true ty r

/-- Add to one count of a list of six. -/
def bump (l : List Nat) (p base k : Nat) : List Nat :=
  (List.range 6).map (fun i => if i = p then (l.getD i 0 + k) % base else l.getD i 0)

/-- The port sends a replay (R308). -/
def Port.replaying (p : Port) : Bool := p.rep.isSome || p.cur.any (fun c => c.lseq.isSome)

/-- The transmitter may form a sequenced frame (R308): 255 may be unacknowledged, and no replay is in progress. -/
def State.windowOpen (s : State) (n : Nat) : Bool :=
  s.portUp n && decide ((s.portOf n).retry.length < 255) && !(s.portOf n).replaying

/-- The transmitter assigns the next LSEQ to a frame, which the retry buffer keeps (R301, R308). The second component: the LSEQ. -/
def State.assignSeq (s : State) (n : Nat) (f : Frm) : State × Nat :=
  let q := s.f (GLS_SEQ_TX_NEXT n)
  let p := s.portOf n
  ((s.setPort n { p with
    retry := p.retry ++ [(q, f, 0)]
    ackFig := if p.retry.isEmpty then s.fig.toNat else p.ackFig }).put (GLS_SEQ_TX_NEXT n) (q + 1), q)

/-- Entries sent into pools of the peer (R303). -/
def State.useCredit (s : State) (n : Nat) (pools : List Nat) : State :=
  s.setPort n { s.portOf n with sent := pools.foldl (fun l x => bump l x (poolBase x) 1) (s.portOf n).sent }

/-- The receiver of port `n` frees `k` entries of a pool (R303). -/
def State.poolFree (s : State) (n p k : Nat) : State :=
  s.setPort n { s.portOf n with freed := bump (s.portOf n).freed p (poolBase p) k }

/-- The bulk pool `p` (0 LOCAL, 1 T0, 2 T1) of port `n`, oldest first. -/
def State.bulkPool (s : State) (n p : Nat) : List PoolEntry := mget (s.portOf n).bulk [] p

/-- The urgent pool `p` (3 UL, 4 UT0, 5 UT1) of port `n`, oldest first. -/
def State.urgPool (s : State) (n p : Nat) : List PoolUrgent := mget (s.portOf n).urg [] p

/-- Replace a bulk pool. -/
def State.setBulkPool (s : State) (n p : Nat) (l : List PoolEntry) : State :=
  s.setPort n { s.portOf n with bulk := mset (s.portOf n).bulk [] p l }

/-- Replace an urgent pool. -/
def State.setUrgPool (s : State) (n p : Nat) (l : List PoolUrgent) : State :=
  s.setPort n { s.portOf n with urg := mset (s.portOf n).urg [] p l }

/-! ### Which entry a transmit queue takes (R300) -/

/-- The age of a candidate: the FIG edge at which it arrived, then 0 for transit, 1 for lattice control, 2 for a Caller hand-off, then the
input port with its pool, or the place in its source (log entry 50). -/
abbrev Age := Nat × Nat × Nat

/-- A candidate is accepted before another. -/
def Age.before (a b : Age) : Bool :=
  decide (a.1 < b.1) || (a.1 == b.1 && (decide (a.2.1 < b.2.1) || (a.2.1 == b.2.1 && decide (a.2.2 < b.2.2))))

/-- The heads of the transit pools that wait for a queue of port `q`. -/
def State.transitAges (s : State) (q : Nat) (urgent : Bool) : List Age :=
  (List.range 16).flatMap (fun n =>
    if urgent then [4, 5].filterMap (fun p => ((s.urgPool n p).head?.filter (fun x => s.routeOf x.u.dest == some q)).map (fun x => (x.at_, 0, 8 * n + p)))
    else [1, 2].filterMap (fun p => ((s.bulkPool n p).head?.filter (fun x => s.routeOf x.e.dest == some q)).map (fun x => (x.at_, 0, 8 * n + p))))

/-- The tokens and messages of lattice control that wait for the urgent queue of port `q`. -/
def State.latAges (s : State) (q : Nat) : List Age :=
  s.lat.out.zipIdx.filterMap (fun x => if s.routeOf x.1.2.dest = some q then some (x.1.1, 1, x.2) else none)

/-- The Caller's hand-offs that wait for a queue of port `q`. -/
def State.callAges (s : State) (q : Nat) (urgent : Bool) : List Age :=
  s.call.units.filterMap (fun e => e.2.bind (fun x =>
    if x.port = some (q, urgent) then some (x.waitFrom.getD s.fig.toNat, 2, e.1) else none))

/-- A queue of port `q` takes the candidate of age `a` at this edge: it has taken none yet, and none is older. -/
def State.queueTurn (s : State) (q : Nat) (urgent : Bool) (a : Age) : Bool :=
  (if urgent then (s.portOf q).urgEdge else (s.portOf q).bulkEdge) != some s.fig.toNat &&
    !(s.transitAges q urgent ++ (if urgent then s.latAges q else []) ++ s.callAges q urgent).any (fun x => x.before a)

/-- Give an entry to the urgent queue of port `n`; none when it must wait (R300). -/
def State.enqUrgent (s : State) (n : Nat) (a : Age) (u : Urgent) : Option State :=
  let p := s.portOf n
  if p.urgQ.length < 8 ∧ s.queueTurn n true a then
    some (s.setPort n { p with urgQ := p.urgQ ++ [u], urgEdge := some s.fig.toNat })
  else none

/-- Give a bundle to the bulk transmit queue of port `n`; none when it must wait (R300). -/
def State.enqBulk (s : State) (n : Nat) (a : Age) (e : Entry) : Option State :=
  let p := s.portOf n
  if p.bulkQ.length < 32 ∧ s.queueTurn n false a then
    some (s.setPort n { p with bulkQ := p.bulkQ ++ [e], bulkEdge := some s.fig.toNat })
  else none

/-! ### Pools and states -/

/-- The pool that an arriving entry takes here (R302, R303). -/
def State.poolHere (s : State) (dest : Nat) (tc urgent : Bool) : Nat :=
  (if urgent then 3 else 0) + (if dest == s.nodeId then 0 else if tc then 2 else 1)

/-- A port may leave DISABLED (R284, R311): EN, its gate, FIG on its PLL. -/
def State.portMayRun (s : State) (n : Nat) : Bool := s.on (GLS_CTRL_EN n) && s.gateRun (16 + n) && s.figOnPll

/-- Show a state code in GLS_STAT. -/
def State.portState (s : State) (n st : Nat) : State :=
  (s.put (GLS_STAT_STATE n) st).put (GLS_STAT_UP n) (b2n (st == 7))

/-- What a port that stops traffic drops (R315, R316): the slots on the line, what is due, a replay, what is half received, the steps of
sparing. A bulk frame that has no LSEQ yet starts again from its header. -/
def Port.quiet (p : Port) : Port :=
  { p with
    asked := none, retryDue := none, beatDue := [], statusDue := false, skipDue := false, rep := none, ins := []
    cur := (p.cur.filter (fun c => c.lseq.isNone)).map (fun c => { c with sent := 0 })
    line := [], phase := 0, trained := 0, rxRd := [], rxBulk := none, rxIns := none, rxLost := false
    ready := false, checked := false, chkErr := false, bad := none, rxStep := none, txStep := none, spareOut := [] }

/-- LS carries no lane and no lane carries data (R317). -/
def State.lanesOff (s : State) (n : Nat) : State :=
  ((s.each (List.range 9) (fun l t => (t.put (GLS_LANE_STAT_ROLE n l) 0).put (GLS_LANE_STAT_CARRY n l) 0)).put (GLS_STAT_RX_SPARE n) 15).put
    (GLS_STAT_TX_SPARE n) 15

/-- A port leaves UP (R317), with a FAIL_CAUSE (0: none); a port that trains returns to DETECT or DISABLED without an event. -/
def State.portDown (s : State) (n cause : Nat) : State :=
  let next := if s.portMayRun n then 1 else 0
  let s1 := s.when (decide (cause ≠ 0)) (fun t => t.put (GLS_STAT_FAIL_CAUSE n) cause)
  let s2 := (s1.setPort n (s1.portOf n).quiet).lanesOff n
  if s2.portUp n then (s2.portState n next).glsEvt n 1 161 else s2.portState n next

/-- Lattice reset at a port (R307): the LOCAL and UL pools are discarded and their credits returned. -/
def State.portFlush (s : State) (n : Nat) : State :=
  let a := (s.bulkPool n 0).length
  let b := (s.urgPool n 3).length
  let s1 := (((s.setBulkPool n 0 []).setUrgPool n 3 []).poolFree n 0 a).poolFree n 3 b
  if a + b = 0 then s1 else (s1.satF (GLS_CNT_FLUSH_COUNT n) (a + b)).glsEvt n 5 165

/-- The bundles, tokens and messages that a restart discards (R316): those of the queues, of the frame being formed, of the pools, of
the retry buffer. -/
def Port.held (p : Port) : Nat :=
  p.urgQ.length + p.bulkQ.length + ((p.cur.map (fun c => if c.lseq.isNone then c.es.length else 0)).getD 0) +
    ((p.bulk.map (fun e => e.2.length)).sum) + ((p.urg.map (fun e => e.2.length)).sum) +
    ((p.retry.map (fun x => match x.2.1 with
      | .bulk es => es.length
      | .urgent _ => 1)).sum)

/-- A restart of the link (R316). -/
def State.portRestart (s : State) (n : Nat) : State :=
  let p := s.portOf n
  let k := p.held
  let s1 := s.setPort n { p with
    urgQ := [], bulkQ := [], cur := none, rep := none, retry := [], bulk := [], urg := [], asked := none, retryDue := none, restart := false
    sent := [0, 0, 0, 0, 0, 0], credit := [0, 0, 0, 0, 0, 0], freed := [0, 0, 0, 0, 0, 0] }
  let s2 := ((s1.put (GLS_SEQ_TX_NEXT n) 0).put (GLS_SEQ_ACKED n) 0).put (GLS_SEQ_RX_EXPECT n) 0
  if k = 0 then s2 else (s2.satF (GLS_CNT_FLUSH_COUNT n) k).glsEvt n 5 165

/-! ### Tokens and messages -/

/-- Try to give one waiting token or message to its port (R257, R300); `k`: its place among those that wait. -/
def State.latTry (s : State) (k : Nat) (x : Nat × Urgent) : State × Bool :=
  match s.routeOf x.2.dest with
  | none => (s.routeInvalid x.2.dest none, false)
  | some p => match s.enqUrgent p (x.1, 1, k) x.2 with
    | none => (s, false)
    | some t => (t, true)

/-- Give the waiting tokens and messages to their ports, in order; one that waits holds back later ones for the same node. -/
def latPumpList : Nat → List (Nat × Urgent) → List (Nat × Urgent) → State → State
  | _, [], kept, s => s.setLat { s.lat with out := kept }
  | k, x :: rest, kept, s =>
    if kept.any (fun y => y.2.dest == x.2.dest) then latPumpList (k + 1) rest (kept ++ [x]) s
    else
      let r := s.latTry k x
      if r.2 then latPumpList (k + 1) rest kept r.1 else latPumpList (k + 1) rest (kept ++ [x]) r.1

/-- Give all that waits to the ports. -/
def State.latPump (s : State) : State := latPumpList 0 s.lat.out [] s

/-- Lattice control originates a token or message. -/
def State.latSend (s : State) (u : Urgent) : State :=
  (s.setLat { s.lat with out := s.lat.out ++ [(s.fig.toNat, u)] }).latPump

/-- A token of a type for a round, to every valid peer (R260). -/
def State.sendTokens (s : State) (type round : Nat) : State :=
  if s.on LAT_NODE_VALID then s.each s.peers (fun p t => t.latSend (.token p.2 t.nodeId false type (round % 64))) else s

/-- A message to every valid peer (R270). -/
def State.sendMsg (s : State) (m : Msg) : State :=
  s.each s.peers (fun p t => t.latSend (.ctrl p.2 false m))

end Sys2Proof.Machine
end

