-- ==== Sys2Proof/Machine/Aes.lean ====
section
/-! DEFINITION. Sys2Proof/Machine/Aes.lean: AES-256, GHASH and AES-256-GCM, which R173, R359, R405 and R406 name as standards and do not
restate. PRESUMED from FIPS 197 and the GCM specification (log entry 8). A 16-byte block, a 32-byte key and a 64-byte line are numbers
with byte i in bits 8i + 7 to 8i. -/

namespace Sys2Proof.Machine

/-- The AES S-box as one number, entry i in bits 8i + 7 to 8i: entries 0 to 63. -/
def sbox0 : Nat := 0x75b227ebe28012079a059618c323c7041531d871f1e5a534ccf73f362693fdb7c072a49cafa2d4adf04759fa7dc982ca76abd7fe2b670130c56f6bf27b777c63
/-- Entries 64 to 127. -/
def sbox1 : Nat := 0xd2f3ff1021dab6bcf5389d928f40a351a89f3c507f02f94585334d43fbaaefd0cf584c4a39becb6a5bb1fc20ed00d153842fe329b3d63b52a05a6e1b1a2c8309
/-- Entries 128 to 191. -/
def sbox2 : Nat := 0x8ae7a65eaf4566ca94ed58d6d37c8e779e4959162acd3c25c2406490a3a32e0db0b5ede14b8ee4688902a22dc4f816073195d643d7ea7c41744975fec130ccd
/-- Entries 192 to 255. -/
def sbox3 : Nat := 0x16bb54b00f2d99416842e6bf0d89a18cdf2855cee9871e9b948ed9691198f8e19e1dc186b95735610ef6034866b53e708a8bbd4b1f74dde8c6b4a61c2e2578ba

/-- SubBytes of one byte. -/
def subByte (b : Nat) : Nat :=
  ((if b < 64 then sbox0 else if b < 128 then sbox1 else if b < 192 then sbox2 else sbox3) >>> (8 * (b % 64))) % 256

/-- Multiplication by x in the AES field. -/
def xtime (b : Nat) : Nat := if b < 128 then 2 * b else (2 * b) % 256 ^^^ 0x1B

/-- MixColumns of one column. -/
def mixColumn : List Nat → List Nat
  | [a, b, c, d] =>
    let t := a ^^^ b ^^^ c ^^^ d
    [a ^^^ t ^^^ xtime (a ^^^ b), b ^^^ t ^^^ xtime (b ^^^ c), c ^^^ t ^^^ xtime (c ^^^ d), d ^^^ t ^^^ xtime (d ^^^ a)]
  | l => l

/-- ShiftRows of a state whose columns follow each other. -/
def shiftRows (s : List Nat) : List Nat := (List.range 16).map (fun i => s.getD ((i + 4 * (i % 4)) % 16) 0)

/-- MixColumns. -/
def mixColumns (s : List Nat) : List Nat :=
  mixColumn (s.take 4) ++ mixColumn ((s.drop 4).take 4) ++ mixColumn ((s.drop 8).take 4) ++ mixColumn ((s.drop 12).take 4)

/-- The key schedule: `n` further words after the list of words so far, the latest first. -/
def keyWords : Nat → Nat → Nat → List (List Nat) → List (List Nat)
  | 0, _, _, ws => ws
  | n + 1, i, rcon, ws =>
    let last := ws.headD []
    let back := ws.getD 7 []
    let t := if i % 8 = 0 then
        match (last.drop 1 ++ last.take 1).map subByte with
        | b :: r => (b ^^^ rcon) :: r
        | [] => []
      else if i % 8 = 4 then last.map subByte else last
    keyWords n (i + 1) (if i % 8 = 0 then xtime rcon else rcon) (List.zipWith (· ^^^ ·) back t :: ws)

/-- The 15 round keys of AES-256. -/
def roundKeys (key : Nat) : List (List Nat) :=
  let k := toBytes 32 key
  let first := (List.range 8).map (fun i => (k.drop (4 * i)).take 4)
  let ws := (keyWords 52 8 1 first.reverse).reverse
  (List.range 15).map (fun r => ((ws.drop (4 * r)).take 4).flatten)

/-- The rounds after the first key addition. -/
def aesRounds : List (List Nat) → List Nat → List Nat
  | [], s => s
  | [k], s => List.zipWith (· ^^^ ·) (shiftRows (s.map subByte)) k
  | k :: ks, s => aesRounds ks (List.zipWith (· ^^^ ·) (mixColumns (shiftRows (s.map subByte))) k)

/-- AES-256 of one block. -/
def aes256 (key block : Nat) : Nat :=
  match roundKeys key with
  | k :: ks => ofBytes (aesRounds ks (List.zipWith (· ^^^ ·) (toBytes 16 block) k))
  | [] => 0

/-- A block in GCM's bit order: bit 7 of byte 0 is the coefficient of x^0, here bit 127 of the number. -/
def gcmOrder (block : Nat) : Nat := ofBytes (toBytes 16 block).reverse

/-- Multiplication in the GCM field over numbers in GCM's bit order. -/
def gcmMul : Nat → Nat → Nat → Nat → Nat
  | 0, _, _, z => z
  | n + 1, x, v, z =>
    gcmMul n (2 * x) (if v % 2 = 0 then v / 2 else (v / 2) ^^^ 0xE1000000000000000000000000000000)
      (if x.testBit 127 then z ^^^ v else z)

/-- GHASH of a list of blocks under H. -/
def ghash (h : Nat) (blocks : List Nat) : Nat :=
  gcmOrder (blocks.foldl (fun y b => gcmMul 128 (y ^^^ gcmOrder b) (gcmOrder h) 0) 0)

/-- The blocks of `n` bytes, the last one filled up with zeros. -/
def blocksOf (n data : Nat) : List Nat := (List.range ((n + 15) / 16)).map (fun i => ((data % 2 ^ (8 * n)) >>> (128 * i)) % 2 ^ 128)

/-- The counter block of an initial vector of 12 bytes. -/
def gcmCounter (iv c : Nat) : Nat := iv % 2 ^ 96 + ofBytes (toBytes 4 c).reverse * 2 ^ 96

/-- AES-256-GCM: `n` bytes combined with the key stream, which encrypts and decrypts. -/
def gcmCrypt (key iv n data : Nat) : Nat :=
  data % 2 ^ (8 * n) ^^^ ofBytes ((List.range ((n + 15) / 16)).flatMap (fun i => toBytes 16 (aes256 key (gcmCounter iv (i + 2))))) % 2 ^ (8 * n)

/-- The AES-256-GCM tag over `na` bytes of additional data and `n` bytes of ciphertext. -/
def gcmTag (key iv na aad n data : Nat) : Nat :=
  let lens := ofBytes ((toBytes 8 (8 * na)).reverse ++ (toBytes 8 (8 * n)).reverse)
  ghash (aes256 key 0) (blocksOf na aad ++ blocksOf n data ++ [lens]) ^^^ aes256 key (gcmCounter iv 1)

end Sys2Proof.Machine
end

