-- ==== Sys2Proof/Machine/HbmOps.lean ====
section
/-! DEFINITION. Sys2Proof/Machine/HbmOps.lean: reading and writing a line of HBM (file 11): addresses and tags (R394, R395), scrambling and
the tag (R405, R406), the decode tables of R408 to R411, keys (R412 to R417). -/

namespace Sys2Proof.Machine

/-- The security state in effect: 0 Unbound, 1 Bound, 2 Sealed (R544). -/
def State.secState (s : State) : Nat := s.f SEC_STATE_STATE

/-- A security alarm (R550): its bit, EV_SEC_ALARM, and, when its action is ALARM, the effects of R551 fall due. -/
def State.raiseAlarm (s : State) (bit : Nat) : State :=
  let s1 := (s.put SEC_ALARM_AL (s.f SEC_ALARM_AL ||| 2 ^ bit)).raise 360
  if (s.f SEC_ALARM_CFG_ACTION).testBit bit then s1.setSec { s1.sec with alarmDue := true } else s1

/-- The device is Alarmed (R551). -/
def State.alarmed (s : State) : Bool := s.f SEC_ALARM_AL &&& s.f SEC_ALARM_CFG_ACTION != 0

/-- The stack of an internal address (R394). -/
def memStack (a : Nat) : Nat := a / 256 % 4

/-- The local line number of an internal address in its stack (R394, R395). -/
def memLocal (a : Nat) : Nat := ((a / 1024) * 256 + a % 256) / 64

/-- The address of the tag of the line at `a` (R395). -/
def tagAddr (a : Nat) : Nat :=
  let l4 := 4 * memLocal a
  0x001680000000 + (l4 / 256) * 1024 + memStack a * 256 + l4 % 256

/-- Lines of one stack's data region (R394). -/
def stackLines : Nat := 377487360

/-- The reserved tag UNWRITTEN. -/
def tagUnwritten : Nat := 0
/-- The reserved tag LOST. -/
def tagLost : Nat := 0xFFFFFFFF

/-- The stored word at byte address `a` (a multiple of 8). -/
def State.memWord (s : State) (a : Nat) : Nat := (mget s.hbm.words 0 (a / 8)).toNat

/-- Store a 72-bit word. -/
def State.setMemWord (s : State) (a v : Nat) : State :=
  s.setHbm { s.hbm with words := mset s.hbm.words 0 (a / 8) (BitVec.ofNat 72 v) }

/-- The key pair of the line at `a` (R412, R415); none when accesses answer NO_KEY (R413). -/
def State.keyAt (s : State) (a : Nat) : Option KeyPair :=
  if s.on MEM_STAT_INIT_BUSY then none
  else match s.f MEM_STAT_KEYS with
    | 1 => s.hbm.keys
    | 2 => if memLocal a < s.f (MEM_REKEY_PTR_PTR (memStack a)) then s.hbm.keys else s.hbm.old
    | _ => none

/-- The keystream of the line at `a` (R405): 512 bits. -/
def keystream (k : KeyPair) (a : Nat) : Nat :=
  ofBytes ((List.range 4).flatMap (fun j => toBytes 16 (aes256 k.ks (a / 64 % 2 ^ 42 + j * 2 ^ 42))))

/-- The keystream of word `w` of the line. -/
def keyWord (k : KeyPair) (a w : Nat) : Nat := (keystream k a >>> (64 * w)) % 2 ^ 64

/-- The tag of a line with stored words `ws` and poison flags `pf` (R406). -/
def lineTag (k : KeyPair) (a : Nat) (ws : List Nat) (pf : Nat) : Nat :=
  let bytes := ofBytes (ws.flatMap (toBytes 8))
  let blocks := (List.range 4).map (fun j => (bytes >>> (128 * j)) % 2 ^ 128) ++ [pf % 256 + (a / 64 % 2 ^ 42) * 256]
  let x := ghash (aes256 k.kt 0) blocks ^^^ aes256 k.kt (a / 64 % 2 ^ 42 + 2 ^ 127)
  let t := x % 2 ^ 32
  if t = 0 then 1 else if t = 0xFFFFFFFF then 0xFFFFFFFE else t

/-- A decoded word is uncorrectable. -/
def Decoded.ue : Decoded → Bool
  | .uncorrectable _ => true
  | _ => false

/-- A decoded word was corrected. -/
def Decoded.ce : Decoded → Bool
  | .corrected _ => true
  | _ => false

/-! ### The tag caches (R407) -/

/-- The number of the tag line that holds the tag of the line at `a`: its internal address / 64. -/
def tagLineOf (a : Nat) : Nat := tagAddr a / 64

/-- Replace tag line `l` in its cache; none: it is not cached. -/
def State.setTagLine (s : State) (l : Nat) (t : Option TagLine) : State := s.setHbm { s.hbm with cache := mset s.hbm.cache none l t }

/-- A word of a cached line is uncorrectable. -/
def TagLine.ue (t : TagLine) : Bool := t.words.toList.any (fun w => (decode64 w.toNat).ue)

/-- A dirty line of a cache is written back: LOST for all its tags where a word is uncorrectable. -/
def State.tagBack (s : State) (l : Nat) : State :=
  match mget s.hbm.cache none l with
  | none => s
  | some t =>
    if t.dirty then
      let ws := if t.ue then Vector.replicate 8 (BitVec.ofNat 72 (encode64 (tagLost + 2 ^ 32 * tagLost) false)) else t.words
      (s.each ws.toList.zipIdx (fun x u => u.setMemWord (64 * l + 8 * x.2) x.1.toNat)).setTagLine l (some ⟨ws, false⟩)
    else s

/-- The lines that the cache of stack `k` holds. -/
def State.tagLines (s : State) (k : Nat) : List Nat := (s.hbm.cache.map (·.1)).filter (fun l => memStack (64 * l) == k)

/-- Every dirty line of stack `k` is written back (R400). -/
def State.tagFlush (s : State) (k : Nat) : State := s.each (s.tagLines k) (fun l t => t.tagBack l)

/-- Room for a line in the cache of stack `k`, 2,048 lines: which line leaves it is a free value (log entry 52). -/
def State.tagRoom (s : State) (k : Nat) : State :=
  let l := s.tagLines k
  if l.length < 2048 then s
  else
    let v := l.getD (s.freeVal % l.length) 0
    (s.freeNext.tagBack v).setTagLine v none

/-- Tag line `l` is read from HBM into the cache. -/
def State.tagLoad (s : State) (l : Nat) : State :=
  s.setTagLine l (some ⟨Vector.ofFn (fun i : Fin 8 => BitVec.ofNat 72 (s.memWord (64 * l + 8 * i))), false⟩)

/-- The cache holds tag line `l`; a clean line with an uncorrectable word is fetched again. -/
def State.tagFetch (s : State) (l : Nat) : State :=
  match mget s.hbm.cache none l with
  | some t => if t.ue && !t.dirty then s.tagLoad l else s
  | none => (s.tagRoom (memStack (64 * l))).tagLoad l

/-- The tag word of the line at `a`: the cache's where it is cached. -/
def State.tagCell (s : State) (a : Nat) : Nat :=
  match mget s.hbm.cache none (tagLineOf a) with
  | some t => (t.words[tagAddr a % 64 / 8]?.getD 0).toNat
  | none => s.memWord (tagAddr a / 8 * 8)

/-- The stored tag of the line at `a`: LOST when its word is poison or uncorrectable (R407). -/
def State.tagOf (s : State) (a : Nat) : Nat :=
  let t := tagAddr a
  let d := decode64 (s.tagCell a)
  if d.bad then tagLost else if t % 8 = 0 then d.data % 2 ^ 32 else d.data / 2 ^ 32

/-- Store the tag of the line at `a` in the cache; the other tag of an unreadable word becomes LOST (R407). -/
def State.setTag (s : State) (a v : Nat) : State :=
  let t := tagAddr a
  let u := s.tagFetch (tagLineOf a)
  let d := decode64 (u.tagCell a)
  let lo := if d.bad then tagLost else d.data % 2 ^ 32
  let hi := if d.bad then tagLost else d.data / 2 ^ 32
  let w := BitVec.ofNat 72 (encode64 (if t % 8 = 0 then v % 2 ^ 32 + 2 ^ 32 * hi else lo + 2 ^ 32 * v) false)
  match mget u.hbm.cache none (tagLineOf a) with
  | some x => u.setTagLine (tagLineOf a) (some ⟨x.words.setIfInBounds (t % 64 / 8) w, true⟩)
  | none => u

/-- Bit errors that an access finds, each a place and the bits that have flipped: words 0 to 7 of the line; 8 to 15: the words of its
tag line in the cache; 16 to 23: those in HBM. -/
def State.memUpset (s : State) (a : Nat) (up : List (Nat × Nat)) : State :=
  s.each up (fun u t =>
    let flip := fun (p : Nat) => t.setMemWord p (t.memWord p ^^^ u.2)
    if u.1 < 8 then flip (a / 64 * 64 + 8 * u.1)
    else if u.1 < 16 then
      match mget t.hbm.cache none (tagLineOf a) with
      | some x => t.setTagLine (tagLineOf a)
          (some { x with words := x.words.setIfInBounds (u.1 - 8) (x.words[u.1 - 8]?.getD 0 ^^^ BitVec.ofNat 72 u.2) })
      | none => t
    else if u.1 < 24 then flip (64 * tagLineOf a + 8 * (u.1 - 16))
    else t)

/-- One corrected word of stack `k` (R408, R422). -/
def State.memCe (s : State) (k : Nat) : State := (s.satF (MEM_STACK_CNT_CE k) 1).leafEvent (512 + k) false 0

/-- The tag of the line at `a` is read through the cache, a corrected bit of its word counted (R407, R422). -/
def State.tagRead (s : State) (a : Nat) : State :=
  let t := s.tagFetch (tagLineOf a)
  t.when (decode64 (t.tagCell a)).ce (fun u => u.memCe (memStack a))

/-- One uncorrectable event of stack `k` at line `a` (R408, R422): the counter, the leaf, MEM_UE_LOG. -/
def State.memUe (s : State) (a kind : Nat) : State :=
  let k := memStack a
  ((s.satF (MEM_STACK_CNT_UE k) 1).leafEvent (512 + k) true 0).log MEM_UE_LOG_VALID MEM_UE_LOG_OVF (fun t =>
    ((t.put MEM_UE_LOG_KIND kind).put MEM_UE_LOG_ADDR_HI (a / 2 ^ 32)).put MEM_UE_ADDR_ADDR_LO (a % 2 ^ 32 / 64))

/-- A tag failure (R411). -/
def State.tagFail (s : State) (src a : Nat) (write : Bool) : State :=
  let s1 := ((s.raise 200).raiseAlarm 1).log MEM_TAG_LOG_VALID MEM_TAG_LOG_OVF (fun t =>
    (((t.put MEM_TAG_LOG_WRITE (b2n write)).put MEM_TAG_LOG_SRC src).put MEM_TAG_LOG_ADDR_HI (a / 2 ^ 32)).put
      MEM_TAG_ADDR_ADDR_LO (a % 2 ^ 32 / 64))
  (s1.satF (MEM_STACK_CNT_UE (memStack a)) 1).leafEvent (512 + memStack a) true 0

/-- What the controller finds in the eight words of a line, descrambled. -/
def State.lineWords (s : State) (a : Nat) : List Decoded :=
  (List.range 8).map (fun w => decode64 (s.memWord (a / 64 * 64 + 8 * w)))

/-- The 512 bits of eight words. -/
def joinWords (ws : List Nat) : Nat := ofBytes (ws.flatMap (toBytes 8))

/-- The eight words of 512 bits. -/
def splitWords (d : Nat) : List Nat := (List.range 8).map (fun w => (d >>> (64 * w)) % 2 ^ 64)

/-- The poison flags of the words that `p` holds for. -/
def flagsOf (ds : List Decoded) (p : Decoded → Bool) : Nat :=
  ds.foldr (fun d n => b2n (p d) + 2 * n) 0

/-- The events of the words decoded (R408). -/
def State.wordEvents (s : State) (a : Nat) (ds : List Decoded) : State :=
  s.each ds (fun d t => if d.ce then t.memCe (memStack a) else if d.ue then t.memUe a 0 else t)

/-- The answer to an access that a controller refuses (R401, R413). -/
def memRefuse (cause : Nat) : Rsp := ⟨4, cause, 0, 0⟩

/-- The controller of the line's stack serves it; otherwise its answer: 0x21 NO_KEY, 0x22 STACK_DOWN (R401, R413). -/
def State.memServe (s : State) (a : Nat) : Nat ⊕ KeyPair :=
  match s.keyAt a with
  | none => .inl 0x21
  | some k => if s.f (MEM_STACK_STAT_STATE (memStack a)) = 4 then .inl 0x22 else .inr k

/-- A line is under the tag check: its stored tag verifies over the corrected stored words. -/
def tagGood (k : KeyPair) (a tag : Nat) (ds : List Decoded) : Bool :=
  tag == lineTag k a (ds.map Decoded.data) (flagsOf ds Decoded.bad)

/-- A read of the line at `a` for source `src` under the pair `k` (R408). -/
def State.lineReadK (s0 : State) (k : KeyPair) (src a : Nat) : State × Rsp :=
  let s := s0.tagRead a
  let tag := s.tagOf a
  if tag = tagUnwritten then (s, ⟨0, 0, 0, 0⟩)
  else
    let ds := s.lineWords a
    let s1 := s.wordEvents a ds
    let plain := joinWords (ds.map Decoded.data) ^^^ keystream k a
    if tag = tagLost then (s1.memUe a 1, ⟨0, 0, plain, 255⟩)
    else if ds.any Decoded.ue then (s1, ⟨0, 0, plain, flagsOf ds Decoded.bad⟩)
    else if tagGood k a tag ds then (s1, ⟨0, 0, plain, flagsOf ds Decoded.bad⟩)
    else (s1.tagFail src a false, ⟨4, 0x20, 0, 0⟩)

/-- Store the eight words of a line under the pair `k`, poisoned where `poison` has a bit, with a fresh tag (R409). -/
def State.lineStoreK (s : State) (k : KeyPair) (a data poison : Nat) : State :=
  let ws := splitWords (data ^^^ keystream k a)
  let s1 := s.each (List.range 8) (fun w t =>
    t.setMemWord (a / 64 * 64 + 8 * w) (encode64 (ws.getD w 0) (poison.testBit w)))
  s1.setTag a (lineTag k a ws (poison % 256))

/-- A read of the line at `a`, finding the bit errors `up`. -/
def State.lineRead (s : State) (src a : Nat) (up : List (Nat × Nat)) : State × Rsp :=
  match s.memServe a with
  | .inl c => (s, memRefuse c)
  | .inr k => (s.memUpset a up).lineReadK k src a

/-- A full-line write (R409). -/
def State.lineWrite (s : State) (a data poison : Nat) : State × Rsp :=
  match s.memServe a with
  | .inl c => (s, memRefuse c)
  | .inr k => ((s.tagRead a).lineStoreK k a data poison, ⟨0, 0, 0, 0⟩)

/-- The bytes of a word enabled by `be` (8 bits), as a 64-bit mask. -/
def beMask (be : Nat) : Nat := ofBytes ((List.range 8).map (fun i => if be.testBit i then 255 else 0))

/-- The byte enables of word `w`. -/
def wordBe (be w : Nat) : Nat := (be >>> (8 * w)) % 256

/-- A partial write of the bytes `be` of the line at `a` (R410), finding the bit errors `up`; `poison` marks the words that the write
carries poisoned. -/
def State.linePartial (s : State) (src a be data poison : Nat) (up : List (Nat × Nat)) : State × Rsp :=
  match s.memServe a with
  | .inl c => (s, memRefuse c)
  | .inr k =>
    let s0 := (s.memUpset a up).tagRead a
    let tag := s0.tagOf a
    let ks := keystream k a
    let ds := s0.lineWords a
    let old := if tag = tagUnwritten then 0 else joinWords (ds.map Decoded.data) ^^^ ks
    let mask := joinWords ((List.range 8).map (fun w => beMask (wordBe be w)))
    let new := (old ^^^ (old &&& mask)) ||| (data &&& mask)
    let whole := fun w => wordBe be w == 255
    let hit := fun w => poison.testBit w && wordBe be w != 0
    let anyUe := ds.any Decoded.ue
    let pf := packBits ((List.range 8).map (fun w =>
      if whole w then hit w
      else if tag = tagUnwritten then hit w
      else if tag = tagLost then true
      else if anyUe then (ds.getD w (.clean 0)).bad || hit w
      else (ds.getD w (.clean 0)).bad || hit w))
    if tag = tagUnwritten then (s0.lineStoreK k a new pf, ⟨0, 0, 0, 0⟩)
    else
      let s1 := s0.wordEvents a ds
      if tag = tagLost then ((s1.memUe a 1).lineStoreK k a new pf, ⟨0, 0, 0, 0⟩)
      else if anyUe then (s1.lineStoreK k a new pf, ⟨0, 0, 0, 0⟩)
      else if tagGood k a tag ds then (s1.lineStoreK k a new pf, ⟨0, 0, 0, 0⟩)
      else (s1.tagFail src a true, ⟨4, 0x20, 0, 0⟩)

/-- A write of `be` bytes: full-line or partial (R409, R410). -/
def State.lineAccessW (s : State) (src a be data poison : Nat) (up : List (Nat × Nat)) : State × Rsp :=
  if be = 2 ^ 64 - 1 then s.lineWrite a data poison else s.linePartial src a be data poison up

/-- The gate of the stack of address `a` is open for software (R163). -/
def State.memGateOn (s : State) (a : Nat) : Bool := (bitList (s.f CLK_GATE_EN1_HBM) 4).contains (memStack a)

/-- An unmapped access is logged (R23). -/
def State.unmappedLog (s : State) (src : Nat) (write : Bool) (a : Nat) : State :=
  (s.log DEV_UNMAPPED_INFO_VALID DEV_UNMAPPED_INFO_OVF (fun t =>
    (((t.put DEV_UNMAPPED_INFO_WRITE (b2n write)).put DEV_UNMAPPED_INFO_SRC src).put DEV_UNMAPPED_INFO_ADDR_HI (a / 2 ^ 32)).put
      DEV_UNMAPPED_ADDR_ADDR_LO a)).raise 0

/-- An access of source `src` to the image store while GUARD = 1 (R179). -/
def State.storeGuarded (s : State) (src a : Nat) : Bool :=
  decide (0x001640000000 ≤ a ∧ a < 0x001680000000) && src != 20 && s.on CFG_STORE_CTRL_GUARD

/-- An access that finds nothing at its address (R23, R179). -/
def State.noTarget (s : State) (src : Nat) (write : Bool) (a : Nat) : State :=
  (s.unmappedLog src write a).when (s.storeGuarded src a) (fun t => t.raise 143)

/-- Port `t` is in ABSORB (R384). -/
def State.absorbed (s : State) (t : Nat) : Bool := s.on (MESH_TGT_STAT_STATE t)

/-- An access of an engine of the hub that reaches no stack controller: unmapped (R23, R179), or answered by the router of a port in ABSORB
(R385). -/
def State.hubStop (s : State) (src : Nat) (write : Bool) (a : Nat) : Option State :=
  if 0x001680000000 ≤ a ∨ s.storeGuarded src a then some (s.noTarget src write a)
  else if s.absorbed (64 + 4 * memStack a) then some (s.satF (MESH_TGT_STAT_ABSORBED (64 + 4 * memStack a)) 1)
  else none

/-- A write by an engine of the hub, of `n` bytes at `a` within one line: one posted mesh write, answered as R161 gives when the
stack's gate is closed; `poison`: its poisoned words. The second component: it completed with status OK. -/
def State.hubWrite (s : State) (src a n data poison : Nat) : State × Bool :=
  let off := a % 64
  match s.hubStop src true a with
  | some t => (t, false)
  | none =>
    if !s.memGateOn a then (s, true)
    else
      let r := s.lineAccessW src (a / 64 * 64) ((2 ^ n - 1) <<< off) (data <<< (8 * off)) (poison <<< (off / 8) % 256) []
      (r.1, r.2.status == 0)

/-- What an engine of the hub reads. -/
structure HubData where
  data : Nat
  poison : Bool
  err : Bool
deriving DecidableEq, Repr

/-- A read by an engine of the hub, of `n` bytes at `a` within one line. -/
def State.hubRead (s : State) (src a n : Nat) (up : List (Nat × Nat)) : State × HubData :=
  let off := a % 64
  match s.hubStop src false a with
  | some t => (t, ⟨0, false, true⟩)
  | none =>
    if !s.memGateOn a then (s, ⟨0, false, false⟩)
    else
      let r := s.lineRead src (a / 64 * 64) up
      let p := (List.range 8).any (fun w => r.2.poison.testBit w && decide (8 * w < off + n) && decide (off < 8 * w + 8))
      (r.1, ⟨(r.2.data >>> (8 * off)) % 2 ^ (8 * n), p, r.2.status != 0⟩)

/-- A key clear (R417); the slots of the image store are no longer good (R184). -/
def State.keyClear (s : State) : State :=
  let s1 := ((s.setHbm { s.hbm with keys := none, old := none, cache := [] }).put MEM_STAT_INIT_BUSY 0).put MEM_STAT_KEYS 3
  (s1.put CFG_STORE_CTRL_GOLDEN_OK 0).put CFG_STORE_CTRL_STAGING_OK 0

end Sys2Proof.Machine
end

