-- ==== Sys2Proof/Machine/TailOps.lean ====
section
/-! DEFINITION. Sys2Proof/Machine/TailOps.lean: what other subsystems use of the Tail (file 09): rings and playback (R351 to R353),
refusing, beginning and spoiling a capture (R332 to R344), ending a Reel-in (R354, R355). -/

namespace Sys2Proof.Machine

/-! ### Design state -/

/-- A port of a memory of bay `bay` is a design port: its clock is a round-mode clock (R97, R98). -/
def State.designPort (s : State) (m : Nat) (c : PortCfg) : Bool := (s.roundSpine (m / 1024) c.clk).isSome

/-- A memory is a design memory: a port of it is a design port. -/
def State.designMem (s : State) (c : MemCfg) : Bool := s.designPort c.mem c.a || s.designPort c.mem c.b

/-- A slice is a design slice (R121). -/
def State.designSlice (s : State) (c : SliceCfg) : Bool := (s.roundSpine (c.slice / 768) c.clk).isSome

/-- The design flip-flops of a cell: keys 2 cell and 2 cell + 1. -/
def State.designFfs (s : State) (c : CellCfg) : List Nat :=
  (if (s.ffRound c.cell c.ffa).isEmpty then [] else [2 * c.cell]) ++
    (if (s.ffRound c.cell c.ffb).isEmpty then [] else [2 * c.cell + 1])

/-- The live map (R343): the design state of the bays in RUN. -/
def State.liveMap (s : State) : DMap :=
  let run := fun k => s.bayState k == bayRun
  ⟨(s.cells.filter (fun c => run (bayOfCell c.cell))).flatMap s.designFfs,
   (s.mems.filter (fun c => run (c.mem / 128))).flatMap (fun c =>
     (if s.designPort c.mem c.a then [2 * c.mem] else []) ++ (if s.designPort c.mem c.b then [2 * c.mem + 1] else [])),
   ((s.slices.filter (fun c => run (c.slice / 96))).filter s.designSlice).map (·.slice)⟩

/-! ### Trace rings -/

/-- The number of records of ring `k`: SIZE between 8 and 24. -/
def State.ringLen (s : State) (k : Nat) : Nat := 2 ^ clamp 8 24 (s.f (TAIL_RING_CFG_SIZE k))

/-- The address of record `n` of ring `k` (R351). -/
def State.ringAddr (s : State) (k n : Nat) : Nat :=
  s.f (TAIL_RING_BASE_LO_BASE_LO k) * 4096 + s.f (TAIL_RING_BASE_HI_BASE_HI k) * 2 ^ 32 + n % s.ringLen k * 16

/-- An entry of TAIL_ERR_LOG: KIND and address. -/
def State.tailErr (s : State) (kind a : Nat) : State :=
  s.log TAIL_ERR_LOG_VALID TAIL_ERR_LOG_OVF (fun t =>
    ((t.put TAIL_ERR_LOG_KIND kind).put TAIL_ERR_LOG_ADDR_HI (a / 2 ^ 32)).put TAIL_ERR_ADDR_ADDR_LO a)

/-- A write of the Tail (source 19), `poison` its poisoned words; a write that completes with error is logged with its KIND. -/
def State.tailWrite (s : State) (kind a n data poison : Nat) : State × Bool :=
  let r := s.hubWrite 19 a n data poison
  (r.1.when (!r.2) (fun t => t.tailErr kind a), r.2)

/-- What a line or ring buffer of the Tail gives for word `w` of `data`, bits having flipped in it: leaf 520 counts (R422). -/
def State.bufWord (s : State) (data w flips : Nat) : State × Decoded :=
  let d := decode64 (encode64 ((data >>> (64 * w)) % 2 ^ 64) false ^^^ flips)
  (if d.ce then s.leafEvent 520 false 0 else if d.bad then s.leafEvent 520 true 0 else s, d)

/-- What a buffer of the Tail gives for the `n` words of `data` and what is poisoned of it: an uncorrectable word is written poisoned
(R422); `up`: the bits that have flipped, by word. -/
def State.bufOut (s : State) (n data : Nat) (up : List (Nat × Nat)) : State × Nat × Nat :=
  if up.isEmpty then (s, data, 0)
  else
    let r := (List.range n).foldl (fun (x : State × List Decoded) w =>
      let y := x.1.bufWord data w (mget up 0 w)
      (y.1, x.2 ++ [y.2])) (s, [])
    (r.1, ofBytes (r.2.flatMap (fun d => toBytes 8 d.data)), packBits (r.2.map Decoded.bad))

/-- A record leaves the buffer of ring `k` for HBM (R352): the ring's policy when it is full, else its place. -/
def State.ringStore (s : State) (k rc poison : Nat) : State :=
  let wr := s.f (TAIL_RING_WR_INDEX k)
  let full := decide ((wr + 2 ^ 32 - s.f (TAIL_RING_RD_INDEX k)) % 2 ^ 32 = s.ringLen k)
  if full && s.on (TAIL_RING_CFG_RING_POL k) then
    let s1 := s.satF (TAIL_RING_LOST_COUNT k) 1
    if k ∈ s1.tail.ringSaid then s1
    else (s1.setTail { s1.tail with ringSaid := ladd s1.tail.ringSaid k }).raise 179
  else
    let s1 := (s.tailWrite 2 (s.ringAddr k wr) 16 rc poison).1
    s1.addF (TAIL_RING_WR_INDEX k) 1

/-- A ring makes a record (R351, R352): it is buffered, with the bits `up` of it that flip there, or lost when 64 wait. ACT_RING's count
runs down (R350). -/
def State.ringPut (s : State) (k data stamp : Nat) (poison : Bool) (up : List (Nat × Nat)) : State :=
  let rc := data % 2 ^ 64 + stamp % 2 ^ 48 * 2 ^ 64 + s.round.toNat % 2 ^ 15 * 2 ^ 112 + b2n poison * 2 ^ 127
  let buf := mget s.tail.ringBuf [] k
  let cell := (rc, mget up 0 0 + mget up 0 1 * 2 ^ 72)
  let s1 := if buf.length < 64 then
      (s.setTail { s.tail with ringBuf := mset s.tail.ringBuf [] k (buf ++ [cell]) })
    else s.satF (TAIL_RING_LOST_COUNT k) 1
  match mget s1.tail.post none k with
  | none => s1
  | some n =>
    let s2 : State := s1.setTail { s1.tail with post := mset s1.tail.post none k (if n ≤ 1 then none else some (n - 1)) }
    s2.when (decide (n ≤ 1)) (fun t => t.put (TAIL_RING_CFG_STOPPED k) 1)

/-- Ring `k` operates in a mode (R351): EN = 1, STOPPED = 0, the Tail enabled, the device not Alarmed (R363). -/
def State.ringOn (s : State) (k mode : Nat) : Bool :=
  s.on TAIL_CTRL_EN && s.on (TAIL_RING_CFG_EN k) && !s.on (TAIL_RING_CFG_STOPPED k) && s.f (TAIL_RING_CFG_MODE k) == mode &&
    !s.alarmed && s.gateRun 36

/-- Ring `k` looks at inbound word `g` on Caller writes. -/
def State.ringOnWord (s : State) (k mode g : Nat) : Bool :=
  s.ringOn k mode && s.f (TAIL_RING_CFG_SAMPLE k) == 2 && s.f (TAIL_RING_SEL_TYPE k) == 5 && s.f (TAIL_RING_SEL_INDEX k) == g

/-- One playback ring at a Caller write of `b` (R353). -/
def State.ringPlay (s : State) (k : Nat) (b : Bundle) : State × Bundle :=
  let p := (mget s.tail.play none k).getD (s.f (TAIL_RING_RD_INDEX k))
  let stop := fun (t : State) => (t.put (TAIL_RING_CFG_STOPPED k) 1).raise 179
  if p = s.f (TAIL_RING_WR_INDEX k) then (stop s, b)
  else
    let r := s.hubRead 19 (s.ringAddr k p) 16 []
    if bitsOf r.2.data 126 112 == bitsOf s.round.toNat 14 0 then
      (r.1.setTail { r.1.tail with play := mset r.1.tail.play none k (some ((p + 1) % 2 ^ 32)) },
        ⟨BitVec.ofNat 64 r.2.data, r.2.data.testBit 127 || r.2.poison⟩)
    else (stop r.1, b)

/-- The playback rings on inbound word `g` at a Caller write (R353), in ring order. -/
def playRings : List Nat → Nat → Bundle → State → State × Bundle
  | [], _, b, s => (s, b)
  | k :: t, g, b, s =>
    if s.ringOnWord k 1 g then
      let r := s.ringPlay k b
      playRings t g r.2 r.1
    else playRings t g b s

/-- A Caller write of inbound word `g` (R217, R353, R347): playback may replace the bundle; the FIG side and its poison bit are set;
recording rings with SAMPLE = WRITE sample it. Under the global hold both sides of the word stay 0 (R85, R186). -/
def State.callerWrite (s : State) (g : Nat) (b : Bundle) : State :=
  let r := playRings (List.range 8) g b s
  let s1 : State := if r.1.fab.hold then r.1 else
    r.1.setFab { r.1.fab with
      inFig := mset r.1.fab.inFig BWord.init g ⟨r.2.data, r.2.poison⟩
      inDue := ladd r.1.fab.inDue g }
  s1.each ((List.range 8).filter (fun k => s1.ringOnWord k 0 g)) (fun k t => t.ringPut k r.2.data.toNat t.fig.toNat r.2.poison [])

/-! ### Captures -/

/-- A refused capture (R338). -/
def State.capRefuse (s : State) (cause : Nat) : State :=
  ((s.put TAIL_CAP_STAT_REFUSED 1).put TAIL_CAP_STAT_CAUSE cause).raise 177

/-- SPOOL_BASE (R339). -/
def State.spoolBase (s : State) : Nat := s.f TAIL_SPOOL_BASE_BASE * 2 ^ 24

/-- How many slots there are. -/
def State.spoolSlots (s : State) : Nat := min (s.f TAIL_SPOOL_SLOTS_NSLOTS) 256

/-- Where slot `i` starts (R339). -/
def State.slotBase (s : State) (i : Nat) : Nat := s.spoolBase + 64 * 2 ^ 20 + i * (144 * 2 ^ 20)

/-- The state of slot `i` (R344). -/
def State.slotState (s : State) (i : Nat) : Nat := s.f (TAIL_CAT_STAT_STATE i)

/-- A slot that may be made FREE: COMPLETE or BAD, neither pinned nor in use. -/
def State.slotLoose (s : State) (i : Nat) : Bool :=
  (s.slotState i == 2 || s.slotState i == 3) && !s.on (TAIL_CAT_STAT_PIN i) && !s.on (TAIL_CAT_STAT_IN_USE i)

/-- A slot becomes FREE. -/
def State.slotFree (s : State) (i : Nat) : State := s.put (TAIL_CAT_STAT_STATE i) 0

/-- The slot that RING retires: the loose slot with the lowest SEQ (R344). -/
def State.slotOldest (s : State) : Option Nat :=
  ((List.range s.spoolSlots).filter s.slotLoose).foldl (fun b i => match b with
    | none => some i
    | some j => if s.f (TAIL_CAT_SEQ_SEQ i) < s.f (TAIL_CAT_SEQ_SEQ j) then some i else some j) none

/-- The slot that a capture or an import would take (R344): the slot, and whether it is retired for it. -/
def State.slotPick (s : State) : Option (Nat × Bool) :=
  match (List.range s.spoolSlots).find? (fun i => s.slotState i == 0) with
  | some i => some (i, false)
  | none => if s.on TAIL_CTRL_RETAIN then none else s.slotOldest.map (fun i => (i, true))

/-- Slots that name map version `v`: FILLING, COMPLETE and BAD ones (R343). -/
def State.slotsOfMap (s : State) (v : Nat) : List Nat :=
  (List.range s.spoolSlots).filter (fun i => decide (1 ≤ s.slotState i) && decide (s.slotState i ≤ 3) && s.f (TAIL_CAT_STAT_MAP i) == v)

/-- The bit `b` of line (8,192 n + j) of a map version: chain bit `b` at step `j` of sector `n` (R330, R343). -/
def chainBit (d : DMap) (n j b : Nat) : Bool :=
  if b < 384 then
    decide (2 * (((384 * n + b) * 256 + j / 32) * 16 + j % 32 / 2) + j % 2 ∈ d.ff)
  else if b < 432 then
    let k := (b - 384) / 6
    let i := (b - 384) % 6 / 3
    let p := 3 * j + (b - 384) % 3
    decide (2 * (1024 * n + 128 * k + 64 * i + p / 384) + b2n (decide (146 ≤ p % 384)) ∈ d.port ∧ p % 384 < 292)
  else if b < 480 then
    let k := (b - 432) / 6
    let i := (b - 432) % 6 / 2
    let p := 2 * j + (b - 432) % 2
    decide (768 * n + 96 * k + 32 * i + p / 512 ∈ d.slice ∧ p % 512 < 280)
  else false

/-- The lines of a map that are not zero: (line number, line), in line order. -/
def mapLines (d : DMap) : List (Nat × Nat) :=
  let hit := (d.ff.map (fun f => (f / 2 / 16 / 256 / 384, 32 * (f / 2 / 16 % 256) + 2 * (f / 2 % 16) + f % 2))) ++
    (d.port.flatMap (fun p => (List.range 49).map (fun q => (p / 2 / 1024, (384 * (p / 2 % 64) + 146 * (p % 2) + 3 * q) / 3)))) ++
    (d.slice.flatMap (fun l => (List.range 140).map (fun q => (l / 768, (512 * (l % 32) + 2 * q) / 2))))
  (hit.eraseDups).foldl (fun m e => mset m 0 (8192 * e.1 + e.2) (packBits ((List.range 512).map (chainBit d e.1 e.2)))) []

/-- The live map differs from the newest version (R343). -/
def State.mapChanged (s : State) : Bool :=
  match s.tail.newest with
  | none => true
  | some v => decide (mget s.tail.maps none v ≠ some (mapLines s.liveMap))

/-- The version that a new map takes. -/
def State.nextMap (s : State) : Nat :=
  match s.tail.newest with
  | none => 0
  | some v => (v + 1) % 8

/-- A Reel-in is busy (R333): VERIFY, ARMED, MEMWRITE or PARTIAL. -/
def State.reelBusy (s : State) : Bool := s.f TAIL_REEL_STAT_STATE != 0

/-- The causes of R338 that hold now, of a capture that would begin. -/
def State.capCause (s : State) : Option Nat :=
  if !s.on TAIL_CTRL_EN || !s.on CFG_STAT_STARTED then some 1
  else if s.slotPick.isNone then some 2
  else if s.mapChanged && (s.slotsOfMap s.nextMap).any (fun i => !s.slotLoose i) then some 3
  else if !(s.gateRun 36 && s.gateOn 32 && s.gateOn 33 && s.gateOn 34 && s.gateOn 35) then some 7
  else if s.alarmed then some 8
  else if s.reelBusy then some 9
  else none

/-- The Tail can begin a capture (R333). -/
def State.capFree (s : State) : Bool := s.tail.cap.isNone && s.tail.build.isEmpty && s.tail.mapDue.isEmpty

/-- The running capture ends BAD (R337). -/
def State.capBad (s : State) : State :=
  match s.tail.cap with
  | none => s
  | some c => if c.bad then s else
    ((s.setTail { s.tail with cap := some { c with bad := true } }).put (TAIL_CAT_STAT_STATE c.slot) 3).raise 184

/-- An alarm, a lattice reset or the gate of a stack controller spoils the running capture (R337): it is logged with the address of its slot
(log entry 51), and ends BAD. -/
def State.capSpoil (s : State) : State :=
  match s.tail.cap with
  | none => s
  | some c => if c.bad then s else (s.tailErr 0 (s.slotBase c.slot)).capBad

/-- A write of the capture, `poison` its poisoned words: an error spoils it. -/
def State.capPut (s : State) (a n data poison : Nat) : State :=
  match s.tail.cap with
  | none => s
  | some c => if c.bad then s else
    let r := s.tailWrite 0 a n data poison
    if r.2 then r.1 else r.1.capBad

/-- A write of the capture without poison. -/
def State.capWrite (s : State) (a n data : Nat) : State := s.capPut a n data 0

/-- A write of the capture of what a line buffer gives for `data`, the bits `up` having flipped there (R422). -/
def State.capBuf (s : State) (a n data : Nat) (up : List (Nat × Nat)) : State :=
  let r := s.bufOut (n / 8) data up
  r.1.capPut a n r.2.1 r.2.2

/-- An entry of the list section (R342). -/
def listEntry (l : Nat) (d : DEntry) : Nat := d.key % 2 ^ 48 + (d.task % 4096 + l * 4096) * 2 ^ 48 + d.flag * 2 ^ 64

/-- The next line of the list section (R335, R340): four entries, the last line filled with zeros. -/
def State.listLine (s : State) : State :=
  match s.tail.cap with
  | none => s
  | some c =>
    if c.lists.isEmpty then s
    else
      let four := c.lists.take 4
      let line := (four.zipIdx.map (fun x => listEntry x.1.1 x.1.2 % 2 ^ 128 * 2 ^ (128 * x.2))).sum
      let s1 := s.setTail { s.tail with cap := some { c with lists := c.lists.drop 4, lines := c.lines + 1 } }
      s1.capWrite (s1.slotBase c.slot + 4096 + 64 * c.lines) 64 line

/-- The list copy of one figure: 64 entries (R335); the gate of the Tail holds it. -/
def State.listCopy (s : State) : State :=
  if s.tail.cap.any (fun c => !c.lists.isEmpty) && s.gateRun 36 then s.each (List.range 16) (fun _ t => t.listLine) else s

/-- Write 64-byte lines from `a` on. -/
def capLines : List Nat → Nat → State → State
  | [], _, s => s
  | d :: t, a, s => capLines t (a + 64) (s.capWrite a 64 d)

/-- A paced step `k` may be taken at this edge (R331, R336). -/
def State.paceOk (s : State) (k : Nat) : Bool := decide (mget s.tail.paced 0 k ≤ s.fig.toNat)

/-- The next paced step `k` may be taken `n` figures from this edge. -/
def State.pace (s : State) (k n : Nat) : State := s.setTail { s.tail with paced := mset s.tail.paced 0 k (s.fig.toNat + n) }

/-- DRAIN_DIV (R331): 4 to 64. -/
def State.drainDiv (s : State) : Nat := clamp 4 64 (s.f TAIL_CTRL_DRAIN_DIV)

/-- The bytes of the header of a snapshot up to the bay map (R341). -/
def State.headerLine (s : State) (seq round fig ver lists : Nat) : Nat :=
  0x53504C31 + 2 ^ 32 + seq * 2 ^ 64 + s.nodeId * 2 ^ 96 + round * 2 ^ 128 + fig * 2 ^ 192 + s.cfg.design * 2 ^ 256 +
    ver * 2 ^ 384 + lists * 2 ^ 416

/-- The eight bytes of the bay map for bay `k`. -/
def State.bayMapWord (s : State) (k : Nat) : Nat := s.f (CFG_BAY_CRC_CRC k) + b2n (s.bayState k == bayRun) * 2 ^ 32

/-- The lines `lines` of a map go to the region of version `v`, all 8 MiB of it (R339, R343); the version is the newest. -/
def State.mapWrite (s : State) (v : Nat) (lines : List (Nat × Nat)) (put : Nat → Nat → State → State) : State :=
  let base := s.spoolBase + v * 8 * 2 ^ 20
  let s1 := s.each (List.range 131072) (fun i t => put (base + 64 * i) (mget lines 0 i) t)
  s1.setTail { s1.tail with maps := mset s1.tail.maps none v (some lines), newest := some v }

/-- Slots that name map version `v`, but `own`, are retired (R343). -/
def State.mapRetire (s : State) (v own : Nat) : State :=
  s.each ((s.slotsOfMap v).filter (fun i => i != own)) (fun i t => (t.slotFree i).raise 185)

/-- Write a new version of the map when the live map has changed (R343), for the capture into slot `own`. -/
def State.capMap (s : State) (own : Nat) : State :=
  if s.mapChanged then
    let v := s.nextMap
    (s.mapRetire v own).mapWrite v (mapLines s.liveMap) (fun a d t => t.capWrite a 64 d)
  else s

/-- What the shadow latches of the flip-flops take (R62, R192): the value of each, which is INIT in a held bay. -/
def State.latchFfs (s : State) : List (Nat × Bool) :=
  let inHeld := fun (i : Nat) => decide (bayOfCell (i / 2) ∈ s.fab.held)
  let held := (s.cells.filter (fun c => decide (bayOfCell c.cell ∈ s.fab.held))).flatMap (fun c =>
    [(2 * c.cell, c.ffa.init), (2 * c.cell + 1, c.ffb.init)])
  held.foldl (fun m e => mset m false e.1 e.2) (s.fab.ff.filter (fun e => !inHeld e.1))

/-- What the latches of the memory ports take: 0 in a held bay (R110, R192). -/
def State.latchPorts (s : State) : List (Nat × PortReg) := s.fab.portReg.filter (fun e => !decide (e.1 / 256 ∈ s.fab.held))

/-- What the latches of the slices take: 0 in a held bay (R121, R192). -/
def State.latchSlices (s : State) : List (Nat × SliceReg) := s.fab.slice.filter (fun e => !decide (e.1 / 96 ∈ s.fab.held))

/-- A capture begins (R334, R335, R341, R343): it takes its slot, clears the copied maps of the design memories, latches the shadow
latches, takes the list entries to copy, writes header and map. `round` is S. -/
def State.capBegin (s : State) (round : Nat) : State :=
  match s.slotPick with
  | none => s
  | some (i, retire) =>
    let s1 := s.when retire (fun t => (t.slotFree i).raise 185)
    let lists := (List.range 8).flatMap (fun l =>
      if s1.on (CALLER_DLIST_CFG_KIND l) then
        ((mget s1.call.dlist [] l).filter (fun d => decide (d.round < round))).map (fun d => (l, d)) else [])
    let p := s1.pace 32 4
    let p1 := p.setTail { p.tail with
      cap := some ⟨i, round, 0, false, lists, 0⟩
      seq := (s1.tail.seq + 1) % 2 ^ 32
      strobe := some s1.fig.toNat }
    let s2 := p1.setFab { s1.fab with
      copied := (s1.mems.filter s1.designMem).foldl (fun m c => mset m (List.range 512) c.mem []) s1.fab.copied
      shadow := s1.latchFfs
      portShadow := s1.latchPorts
      sliceShadow := s1.latchSlices }
    let s3 := ((((s2.put (TAIL_CAT_STAT_STATE i) 1).put (TAIL_CAT_SEQ_SEQ i) s2.tail.seq).put (TAIL_CAT_ROUND_LO_ROUND_LO i) round).put
      (TAIL_CAT_ROUND_HI_ROUND_HI i) (round / 2 ^ 32)).put (TAIL_CAP_STAT_SLOT) i
    let s4 := (s3.put TAIL_CAP_STAT_BUSY 1).capMap i
    let ver := s4.tail.newest.getD 0
    let s5 := (s4.put (TAIL_CAT_STAT_MAP i) ver).put (TAIL_CAT_STAT_FROZEN i)
      (b2n ((List.range 128).any (fun k => s4.bayState k != bayRun)))
    let base := s5.slotBase i
    let head := s5.headerLine s5.tail.seq round s5.fig.toNat ver lists.length ::
      ((List.range 16).map (fun j => joinWords ((List.range 8).map (fun w => s5.bayMapWord (8 * j + w))))) ++ List.replicate 47 0
    capLines head base s5

/-- A capture due now at round S: begun, or refused (R338). -/
def State.capStart (s : State) (round : Nat) : State :=
  match s.capCause with
  | some c => s.capRefuse c
  | none => s.capBegin round

/-- A slot is in use while a Reel-in or an export reads it (R344). -/
def State.slotUse (s : State) (i : Nat) : State :=
  let reel := match s.tail.reel with
    | some r => r.slot == i
    | none => false
  let xfer := match s.tail.xfer with
    | some x => !x.imp && x.slot == i
    | none => false
  s.put (TAIL_CAT_STAT_IN_USE i) (b2n (reel || xfer))

/-- The Reel-in is over and leaves its slot. -/
def State.reelDrop (s : State) (state : Nat) : State :=
  match s.tail.reel with
  | none => s
  | some r => (((s.setTail { s.tail with reel := none }).slotUse r.slot).put TAIL_REEL_STAT_STATE state)

/-- The refusal of a Reel-in (R354): CAUSE and EV_REELIN_REFUSED, and EV_REELIN_POISON for POISON. -/
def State.reelSay (s : State) (cause : Nat) : State :=
  ((s.put TAIL_REEL_STAT_CAUSE cause).raise 181).when (cause == 7) (fun t => t.raise 182)

/-- A Reel-in ends before its restore edge (R354): IDLE, or PARTIAL when it was started there. -/
def State.reelRefuse (s : State) (cause : Nat) : State :=
  match s.tail.reel with
  | none => s.reelSay cause
  | some r => (s.reelSay cause).reelDrop (if r.back then 4 else 0)

/-- An alarm, ABORT, lattice reset or the gate of a stack controller meets a Reel-in (R354, R355, R363). -/
def State.reelBreak (s : State) (cause : Nat) : State :=
  match s.f TAIL_REEL_STAT_STATE with
  | 1 => s.reelRefuse cause
  | 2 => s.reelRefuse cause
  | 3 => (s.reelDrop 4).reelSay cause
  | _ => s

/-- Bay `k` has entered RUN: its part of the live map is due for a rebuild (R343). -/
def State.mapNeeds (s : State) (k : Nat) : State :=
  (s.setTail { s.tail with mapDue := ladd s.tail.mapDue k }).put TAIL_CAP_STAT_BUILD 1

/-- An export or import ends (R361). -/
def State.xferEnd (s : State) (cause : Nat) : State :=
  match s.tail.xfer with
  | none => s
  | some x =>
    let s1 := ((s.setTail { s.tail with xfer := none }).put TAIL_EXP_STAT_BUSY 0).put TAIL_EXP_STAT_CAUSE cause
    let s2 := if x.imp then
        (if cause = 0 then (s1.put (TAIL_CAT_STAT_STATE x.slot) 2).put TAIL_EXP_STAT_SLOT x.slot else s1.slotFree x.slot)
      else s1.slotUse x.slot
    (s2.put (if cause = 0 then TAIL_EXP_STAT_DONE else TAIL_EXP_STAT_FAIL) 1).raise 183

end Sys2Proof.Machine
end

