-- ==== Sys2Proof/Machine/CallerOps.lean ====
section
/-! DEFINITION. Sys2Proof/Machine/CallerOps.lean: the named operations of the Caller (file 06): descriptors, flags and readiness (R213),
queues and spill (R228 to R236), delay lists (R222, R223), the trace (R247, R248), faults (R239 to R241), the bow (R212), the swap (R245),
lattice reset (R249). -/

namespace Sys2Proof.Machine

/-! ### Tables -/

/-- Word `i` of the active descriptor of task `t` (R243). -/
def State.taskWord (s : State) (t i : Nat) : Word := mget s.call.active.task 0 (8 * t + i)

/-- A field of word 0 of a descriptor. -/
def State.taskF (s : State) (t hi lo : Nat) : Nat := fget (s.taskWord t 0) hi lo

/-- Task `t` is in use (R209). -/
def State.taskUsed (s : State) (t : Nat) : Bool := s.taskF t 31 31 == 1

/-- The tasks in use, in ascending order. -/
def State.tasksUsed (s : State) : List Nat :=
  s.call.active.task.filterMap (fun e => if e.1 % 8 = 0 ∧ fget e.2 31 31 = 1 then some (e.1 / 8) else none)

/-- CLASS of a task. -/
def State.taskClass (s : State) (t : Nat) : Nat := s.taskF t 30 29

/-- OP of a task. -/
def State.taskOp (s : State) (t : Nat) : Nat := s.taskF t 3 0

/-- MASK of a task. -/
def State.taskMask (s : State) (t : Nat) : Nat := (s.taskWord t 4).toNat + 2 ^ 32 * (s.taskWord t 5).toNat

/-- The task's state. -/
def State.ctask (s : State) (t : Nat) : CTask := mget s.call.task CTask.init t

/-- Replace the task's state. -/
def State.setTask (s : State) (t : Nat) (x : CTask) : State :=
  s.setCall { s.call with task := mset s.call.task CTask.init t x }

/-- A word of the active configuration of queue `q` (R229). -/
def State.queueWord (s : State) (q i : Nat) : Word := mget s.call.active.queue 0 (2 * q + i)

/-- Queue `q` has VALID = 1; an uncorrectable entry acts as VALID = 0 (R239). -/
def State.queueValid (s : State) (q : Nat) : Bool := fget (s.queueWord q 0) 31 31 == 1 && !decide (q ∈ s.call.queueUe)

/-- DIRECT of a queue. -/
def State.queueDirect (s : State) (q : Nat) : Bool := fget (s.queueWord q 0) 28 28 == 1

/-- DEPTH of a queue. -/
def State.queueDepth (s : State) (q : Nat) : Nat := fget (s.queueWord q 0) 27 23 + 1

/-- The capacity of a queue (R213, R234). -/
def State.queueCap (s : State) (q : Nat) : Nat :=
  if s.on CALLER_CTRL_SPILL_EN then s.queueDepth q else min (s.queueDepth q) 4

/-- Queue `q`. -/
def State.cqueue (s : State) (q : Nat) : CQueue := mget s.call.queue CQueue.init q

/-- Replace queue `q`. -/
def State.setQueue (s : State) (q : Nat) (x : CQueue) : State :=
  s.setCall { s.call with queue := mset s.call.queue CQueue.init q x }

/-- The count of a queue. -/
def State.queueCount (s : State) (q : Nat) : Nat := (s.cqueue q).chip.length + (s.cqueue q).spilled

/-! ### Flags and readiness -/

/-- The latched flags of a task. -/
def State.latched (s : State) (t : Nat) : Nat := (mget s.call.flags 0 t).toNat

/-- Replace the latched flags of a task. -/
def State.setLatched (s : State) (t v : Nat) : State :=
  s.setCall { s.call with flags := mset s.call.flags 0 t (BitVec.ofNat 64 v) }

/-- The valid queues, from the table of queue words. -/
def State.queuesUsed (s : State) : List Nat :=
  s.call.active.queue.filterMap (fun e => if e.1 % 2 = 0 ∧ fget e.2 31 31 = 1 then some (e.1 / 2) else none)

/-- The bound flags of a task (R213, R231). -/
def State.bound (s : State) (t : Nat) : Nat :=
  (s.queuesUsed.filter (fun q => s.queueValid q)).foldl (fun n q =>
    let w0 := s.queueWord q 0
    let w1 := s.queueWord q 1
    let cons := fget w0 30 30 == 1 && fget w0 11 0 == t && !s.queueDirect q && decide (0 < s.queueCount q)
    let prod := fget w0 29 29 == 1 && fget w1 11 0 == t && (s.queueDirect q || decide (s.queueCount q < s.queueCap q))
    (n ||| (if cons then 2 ^ fget w0 17 12 else 0)) ||| (if prod then 2 ^ fget w1 17 12 else 0)) 0

/-- The effective flags E (R213). -/
def State.effective (s : State) (t : Nat) : Nat := s.latched t ||| s.bound t

/-- Task `t` is READY (R213). -/
def State.taskReady (s : State) (t : Nat) : Bool :=
  let m := s.taskMask t
  let e := s.effective t &&& m
  s.taskUsed t && (s.ctask t).st == .idle && m != 0 && (if s.taskF t 28 28 = 0 then e == m else e != 0)

/-- Note since when each task is READY (for the DISPATCH record of R247). -/
def State.noteReady (s : State) : State :=
  s.each s.tasksUsed (fun t u =>
    let x := u.ctask t
    if u.taskReady t then (if x.since.isNone then u.setTask t { x with since := some u.fig.toNat } else u)
    else if x.since.isSome then u.setTask t { x with since := none } else u)

/-- Progress (R242): the count of figures without it restarts. -/
def State.progress (s : State) : State := s.setCall { s.call with quiet := 0 }

/-- Write the latched flags of a task; a change of any is progress (R242). -/
def State.changeFlags (s : State) (t v : Nat) : State := (s.setLatched t v).when (s.latched t != v) State.progress

/-- Set a latched flag. -/
def State.setFlag (s : State) (t f : Nat) : State := s.changeFlags t (s.latched t ||| 2 ^ f)

/-! ### Trace -/

/-- A trace record (R247). TASK has 12 bits; of a queue of ARRIVE_BADQ they show bits 11:0 (log entry 47). -/
def State.traceRec (s : State) (type cls unit task info : Nat) : Nat :=
  s.fig.toNat % 2 ^ 48 + type * 2 ^ 48 + cls * 2 ^ 52 + unit * 2 ^ 54 + (task % 2 ^ 12) * 2 ^ 64 + (s.round.toNat % 2 ^ 16) * 2 ^ 80 +
    (info % 2 ^ 32) * 2 ^ 96

/-- What orders the records of one edge (R247): TYPE, then UNIT. -/
def recOrder (r : Nat) : Nat := bitsOf r 51 48 * 4 + bitsOf r 55 54

/-- Put a record among those of its own edge by TYPE, then unit number (R247); records of earlier edges stay before it. -/
def traceIns (r : Nat) : List Nat → List Nat
  | [] => [r]
  | x :: t => if bitsOf x 47 0 = bitsOf r 47 0 ∧ recOrder r < recOrder x then r :: x :: t else x :: traceIns r t

/-- Make a trace record (R247, R248): buffered; when more than 256 wait, the last one of this edge is lost. -/
def State.trace (s : State) (type cls unit task info : Nat) : State :=
  if s.on CALLER_TRACE_CFG_EN then
    let l := traceIns (s.traceRec type cls unit task info) s.call.trace
    (s.setCall { s.call with trace := l.take 256 }).when (decide (256 < l.length)) (fun t => t.satF CALLER_TRACE_LOST_COUNT 1)
  else s

/-- A record of types 0x1 to 0x6, made only for a task with TRACE = 1. -/
def State.traceTask (s : State) (type unit task info : Nat) : State :=
  s.when (s.taskF task 25 25 == 1) (fun t => t.trace type (t.taskClass task) unit task info)

/-- The number of records of the ring: SIZE between 8 and 24. -/
def State.traceLen (s : State) : Nat := 2 ^ clamp 8 24 (s.f CALLER_TRACE_CFG_SIZE)

/-- The oldest buffered record goes to the ring (R247, R248). -/
def State.traceStore (s : State) : State :=
  match s.call.trace with
  | [] => s
  | r :: rest =>
    let s0 := s.setCall { s.call with trace := rest }
    let wr := s0.f CALLER_TRACE_WR_INDEX
    let full := decide ((wr + 2 ^ 32 - s0.f CALLER_TRACE_RD_INDEX) % 2 ^ 32 = s0.traceLen)
    if full && s0.on CALLER_TRACE_CFG_RING_POL then
      let s1 := s0.satF CALLER_TRACE_LOST_COUNT 1
      if s1.call.traceHalt then s1 else (s1.setCall { s1.call with traceHalt := true }).raise 149
    else
      let a := s0.f CALLER_TRACE_BASE_LO_BASE_LO * 4096 + s0.f CALLER_TRACE_BASE_HI_BASE_HI * 2 ^ 32 + wr % s0.traceLen * 16
      ((s0.hubWrite 18 a 16 r 0).1).addF CALLER_TRACE_WR_INDEX 1

/-! ### Faults and errors -/

/-- A fault's log, event and FAULT record (R240, R247): `cls` and `unit` of the task, 0 for an arrival. -/
def State.callerFault (s : State) (cause index cls unit : Nat) : State :=
  let s1 := (s.log CALLER_FAULT_LOG_VALID CALLER_FAULT_LOG_OVF (fun t =>
    (t.put CALLER_FAULT_LOG_CAUSE cause).put CALLER_FAULT_LOG_INDEX index)).raise 144
  s1.trace 9 cls unit index cause

/-- An entry of CALLER_ERR_LOG with EV_CALLER_ERR: KIND 0 STORE_UE, 1 SPILL_CHECK, 2 LOAD_ERR. -/
def State.callerErr (s : State) (kind index : Nat) : State :=
  (s.log CALLER_ERR_LOG_VALID CALLER_ERR_LOG_OVF (fun t =>
    (t.put CALLER_ERR_LOG_KIND kind).put CALLER_ERR_LOG_INDEX index)).raise 147

/-- A stop-now request (R274): kept in STARTING and during a round, discarded otherwise. One that comes after the announcement acts at
the following bow. -/
def State.stopNow (s : State) : State :=
  if s.latState = 2 || s.inRound then
    let late := s.latState == 6 && !s.on LAT_STAT_STOP_NOW
    (s.setLat { s.lat with stopLate := s.lat.stopLate || late }).put LAT_STAT_STOP_NOW 1
  else s

/-- Task `t`, on unit `u`, enters FAULT (R239, R240). -/
def State.taskFault (s : State) (t cause u : Nat) : State :=
  let s1 := (s.setTask t { s.ctask t with st := .fault, cause := cause, since := none }).callerFault cause t (s.taskClass t) u
  s1.when (s1.on CALLER_CTRL_FAULT_POL) State.stopNow

/-! ### Queues -/

/-- The spill address of the entry with push sequence number `n` of queue `q` (R234). -/
def State.spillAddr (s : State) (q n : Nat) : Nat := s.f CALLER_SPILL_BASE_BASE * 2 ^ 23 + q * 0x200 + n % 32 * 0x10

/-- A spill entry (R235). -/
def spillEntry (q n : Nat) (b : Bundle) : Nat :=
  b.data.toNat + n % 2 ^ 16 * 2 ^ 64 + (2 ^ 15 + b2n b.poison * 2 ^ 14 + q % 2 ^ 14) * 2 ^ 80

/-- Count a push in PEAK of CALLER_QUEUE_STAT. -/
def State.queuePeak (s : State) (q : Nat) : State :=
  s.put (CALLER_QUEUE_STAT_PEAK q) (max (s.f (CALLER_QUEUE_STAT_PEAK q)) (s.queueCount q))

/-- A push (R230, R231, R234); none when the queue is full. -/
def State.push (s : State) (q : Nat) (b : Bundle) : Option State :=
  if s.queueDirect q then some (s.callerWrite (fget (s.queueWord q 1) 30 18) b)
  else if s.queueCount q < s.queueCap q then
    let x := s.cqueue q
    let next := { x with seq := (x.seq + 1) % 2 ^ 16 }
    if x.chip.length < 4 ∧ x.spilled = 0 then some ((s.setQueue q { next with chip := x.chip ++ [b] }).queuePeak q)
    else
      let s1 := (s.hubWrite 18 (s.spillAddr q x.seq) 16 (spillEntry q x.seq b) 0).1
      some ((s1.setQueue q { next with spilled := x.spilled + 1 }).queuePeak q)
  else none

/-- What the check of an on-chip bundle finds (R233): the bundle as it leaves the queue, with its events. -/
def State.storeCheck (s : State) (q : Nat) (b : Bundle) (e : Ecc) : State × Bundle :=
  match e with
  | .ok => (s, b)
  | .ce => ((s.raise 146).leafEvent 516 false 0, b)
  | .ue => (((s.callerErr 0 q).leafEvent 516 true 0).put (CALLER_QUEUE_STAT_ERR q) 1, { b with poison := true })

/-- The oldest spilled entry of queue `q` comes on chip, checked (R234 to R236); `up`: bit errors in its line. -/
def State.spillBack (s : State) (q : Nat) (up : List (Nat × Nat)) : State :=
  let x := s.cqueue q
  if x.spilled ≠ 0 ∧ x.chip.length < 4 then
    let n := (x.seq + 2 ^ 16 - x.spilled) % 2 ^ 16
    let r := s.hubRead 18 (s.spillAddr q n) 16 up
    let v := r.2.data
    let good := v.testBit 95 && bitsOf v 93 80 == q && bitsOf v 79 64 == n && !r.2.poison && !r.2.err
    let b : Bundle := ⟨BitVec.ofNat 64 v, !good || v.testBit 94⟩
    let s1 := r.1.when (!good) (fun t => (t.callerErr 1 q).put (CALLER_QUEUE_STAT_ERR q) 1)
    s1.setQueue q { x with chip := x.chip ++ [b], spilled := x.spilled - 1 }
  else s

/-- The head of a queue, when it is on chip; `e`: what its check finds. -/
def State.head (s : State) (q : Nat) (e : Ecc) : Option (State × Bundle) :=
  match (s.cqueue q).chip with
  | [] => none
  | b :: _ => some (s.storeCheck q b e)

/-- A pop (R230): none when nothing is on chip. -/
def State.pop (s : State) (q : Nat) (e : Ecc) : Option (State × Bundle) :=
  match s.head q e with
  | none => none
  | some (s1, b) =>
    let x := s1.cqueue q
    some (s1.setQueue q { x with chip := x.chip.tail }, b)

/-! ### Delay lists -/

/-- List `l` is round-keyed. -/
def State.listRound (s : State) (l : Nat) : Bool := s.on (CALLER_DLIST_CFG_KIND l)

/-- Delay list `l`. -/
def State.dlistOf (s : State) (l : Nat) : List DEntry := mget s.call.dlist [] l

/-- Replace delay list `l`. -/
def State.setDlist (s : State) (l : Nat) (x : List DEntry) : State :=
  s.setCall { s.call with dlist := mset s.call.dlist [] l x }

/-- Entry `d` expires before `x` (R222): an earlier key (48 bits, compared as a signed difference), or the same key and an earlier
insertion: an earlier edge, then a lower unit, then a lower signal index. -/
def DEntry.before (d x : DEntry) : Bool :=
  decide (sext 48 (d.key + 2 ^ 48 - x.key) < 0) ||
    (d.key == x.key && (decide (d.edge < x.edge) ||
      (d.edge == x.edge && (decide (d.unit < x.unit) || (d.unit == x.unit && decide (d.sig < x.sig))))))

/-- Insert in the order of expiry (R222). -/
def dinsert (d : DEntry) : List DEntry → List DEntry
  | [] => [d]
  | x :: t => if d.before x then d :: x :: t else x :: dinsert d t

/-- The key formed at edge `e` (R221, R222): OFFSET 0 of a round-keyed list counts as 1. -/
def State.listKey (s : State) (l e off : Nat) : Nat :=
  if s.listRound l then (s.round.toNat + max 1 off) % 2 ^ 48 else (e + off) % 2 ^ 48

/-- Replace list `l` by `y`; PEAK keeps the highest COUNT (R251). -/
def State.listGrow (s : State) (l : Nat) (y : List DEntry) : State :=
  (s.setDlist l y).put (CALLER_DLIST_STAT_PEAK l) (max (s.f (CALLER_DLIST_STAT_PEAK l)) y.length)

/-- Insert an entry (R222); none when the list is full, with FULL_HIT set by the caller. -/
def State.listInsert (s : State) (l : Nat) (d : DEntry) : Option State :=
  if (s.dlistOf l).length < 1024 then some (s.listGrow l (dinsert d (s.dlistOf l))) else none

/-- One expiry of list `l` (R223): the head's flag is set. -/
def State.expire (s : State) (l : Nat) : State :=
  match s.dlistOf l with
  | [] => s
  | d :: rest =>
    let s1 := ((s.setDlist l rest).setFlag d.task d.flag).progress
    s1.traceTask 6 0 d.task (d.flag + l * 2 ^ 8)

/-- The round-keyed expiries of the bow that begins `round` (R223): as many entries of the list as are due. -/
def expireRound : Nat → Nat → State → State
  | 0, _, s => s
  | n + 1, l, s =>
    match s.dlistOf l with
    | [] => s
    | d :: _ => if 0 ≤ sext 48 (s.round.toNat + 2 ^ 48 - d.key) then expireRound n l (s.expire l) else s

/-! ### Bow, swap, reset -/

/-- A write to the shadow window lands (offset from the hub base, value). -/
def Bank.land (b : Bank) (e : Nat × Word) : Bank :=
  if e.1 < 0x640000 then { b with task := mset b.task 0 ((e.1 - 0x620000) / 4) e.2 }
  else if e.1 < 0x6A0000 then { b with sig := mset b.sig 0 ((e.1 - 0x680000) / 4) e.2 }
  else { b with queue := mset b.queue 0 ((e.1 - 0x6C0000) / 4) e.2 }

/-- The held shadow writes land in the shadow bank, oldest first (R245). -/
def State.landHeld (s : State) (l : List (Nat × Word)) : State :=
  s.setCall { s.call with shadow := l.foldl Bank.land s.call.shadow, heldWr := [] }

/-- The three banks exchange (R245), held shadow writes land, PENDING clears, a SWAP record is made. -/
def State.callerSwapNow (s : State) : State :=
  let c := s.call
  let s1 := (s.setCall { c with active := c.shadow, shadow := c.active, swap := none, queueUe := [] }).put CALLER_SWAP_PENDING 0
  (if s1.on CALLER_SWAP_SYNC_BUSY then s1 else s1.landHeld c.heldWr).trace 10 0 0 0 0

/-- A pending swap is due at the bow that makes ROUND_COUNT `r` (R244). -/
def State.swapDue (s : State) (r : Nat) : Bool :=
  match s.call.swap with
  | none => false
  | some (mode, round, due) => if mode = 1 then due else decide (mode = 0 ∧ round = r)

/-- A bow is announced (R244, R261): a pending NEXT_BOW swap takes it when no SYNC is in progress. -/
def State.swapAnnounced (s : State) : State :=
  s.setCall { s.call with swap := s.call.swap.map (fun e => (e.1, e.2.1, e.1 == 1 && !s.on CALLER_SWAP_SYNC_BUSY)) }

/-- The latched flags that a bow leaves (R212): flag 63 of every task in use, and flag 63 of another task as it was. -/
def State.bowFlags (s : State) : List (Nat × DWord) :=
  s.tasksUsed.foldl (fun m t => mset m 0 t (BitVec.ofNat 64 (2 ^ 63)))
    (s.call.flags.filterMap (fun e => if e.2.toNat.testBit 63 then some (e.1, BitVec.ofNat 64 (2 ^ 63)) else none))

/-- What the Caller does at a bow (R212), ROUND_COUNT being already the new round. `len`: the counted length of the round ended. -/
def State.callerBow (s : State) (len : Nat) : State :=
  let s0 := s.trace 8 0 0 0 len
  let s1 := if s0.swapDue s0.round.toNat then s0.callerSwapNow
    else s0
  let s2 := s1.setCall { s1.call with flags := s1.bowFlags }
  let s3 := s2.setCall { s2.call with
    task := s2.call.task.filterMap (fun e =>
      let x : CTask := { e.2 with ran := false, st := if e.2.st = .done then .idle else e.2.st, since := none }
      if x = CTask.init then none else some (e.1, x))
    quiet := 0, stallSaid := false }
  let s4 := s3.put CALLER_STAT_DONE 0
  (s4.each ((List.range 8).filter s4.listRound) (fun l t => expireRound 1024 l t)).noteReady

/-- Lattice reset (R249). -/
def State.callerReset (s : State) : State :=
  let c := s.call
  let s1 := s.setCall { c with
    flags := [], task := [], queue := [], dlist := [], units := [], susp := [], swap := none, quiet := 0, stallSaid := false }
  (((s1.put CALLER_SWAP_PENDING 0).put CALLER_STAT_DONE 0).put CALLER_STAT_STALL 0)

/-! ### Steps -/

/-- The step on unit `u`. -/
def State.unit (s : State) (u : Nat) : Option CStep := mget s.call.units none u

/-- Replace the step on unit `u`. -/
def State.setUnit (s : State) (u : Nat) (x : Option CStep) : State :=
  s.setCall { s.call with units := mset s.call.units none u x }

/-- Words of the operands A, B and C of a task. -/
def State.opA (s : State) (t : Nat) : Nat := (s.taskWord t 1).toNat
/-- Operand B. -/
def State.opB (s : State) (t : Nat) : Nat := (s.taskWord t 2).toNat
/-- Operand C. -/
def State.opC (s : State) (t : Nat) : Nat := (s.taskWord t 3).toNat

/-- SIG_BASE and SIG_COUNT. -/
def State.sigBase (s : State) (t : Nat) : Nat := fget (s.taskWord t 6) 14 0
/-- SIG_COUNT, 0 to 16. -/
def State.sigCount (s : State) (t : Nat) : Nat := min 16 (fget (s.taskWord t 6) 20 16)

/-- A micro-op of unit `u` is performed (R216): the first one stamps the start; a wait ends. -/
def State.uopDone (s : State) (u : Nat) (x : CStep) : State × CStep :=
  let f := s.fig.toNat
  let y := { x with
    uop := x.uop + 1
    start := some (x.start.getD f)
    waited := x.waited + (match x.waitFrom with
      | some w => f - w
      | none => 0)
    waitFrom := none
    port := none }
  ((s.setUnit u (some y)).progress, y)

/-- A micro-op of unit `u` must wait (R216): a STALL record when the wait begins. Causes: 1 queue full, 2 port busy, 3 list full, 4 mesh
tags, 5 spill read-back, 6 fence, 7 queue empty. -/
def State.uopWait (s : State) (u : Nat) (x : CStep) (cause : Nat) : State :=
  match x.waitFrom with
  | some _ => s.setUnit u (some x)
  | none => (s.setUnit u (some { x with waitFrom := some s.fig.toNat, start := some (x.start.getD s.fig.toNat) })).traceTask 5 u x.task cause

/-- Place the signals of a completed step from index `x.sig` on (R221); `ue`: the signal entry found uncorrectable (R239 SIG_UE). The
step leaves its unit when all are placed; a full list makes it wait. -/
def placeSignals : Nat → Nat → CStep → Option Nat → State → State
  | 0, u, x, _, s => s.setUnit u (some x)
  | n + 1, u, x, ue, s =>
    if x.sig ≥ s.sigCount x.task then
      let f := x.ended.getD s.fig.toNat
      let start := x.start.getD f
      let s1 := (s.setUnit u none).traceTask 2 u x.task (min (f - start) 0xFFFF + min x.waited 0xFFFF * 2 ^ 16)
      let t := s1.ctask x.task
      let s2 := s1.setTask x.task { t with st := if s1.taskF x.task 27 27 = 0 then .done else .idle, ran := true, since := none }
      (s2.setTail { s2.tail with taskHit := ladd s2.tail.taskHit x.task }).noteReady
    else if ue = some x.sig then ((s.setUnit u none).taskFault x.task 8 u).leafEvent 516 true 0
    else
      let w := mget s.call.active.sig 0 (s.sigBase x.task + x.sig)
      let y := { x with sig := x.sig + 1 }
      if fget w 31 31 = 0 then placeSignals n u y ue s
      else if fget w 30 30 = 0 then placeSignals n u y ue (s.setFlag (fget w 17 6) (fget w 5 0))
      else
        match s.listInsert (fget w 29 27) ⟨s.listKey (fget w 29 27) (x.ended.getD s.fig.toNat) (fget w 26 18), fget w 17 6, fget w 5 0,
            s.fig.toNat, u, x.sig, s.round.toNat⟩ with
        | some t => placeSignals n u y ue t
        | none => (s.put (CALLER_DLIST_STAT_FULL_HIT (fget w 29 27)) 1).uopWait u x 3

/-- The last micro-op of unit `u` is performed: the signals follow (R221). -/
def State.stepEnd (s : State) (u : Nat) (x : CStep) (ue : Option Nat) : State :=
  placeSignals 18 u { x with ended := some s.fig.toNat } ue s

/-- Run `f` on the step of unit `u` when its task's OP is `op`; a step whose signals are still being placed goes on with them. -/
def State.onStep (s : State) (u op : Nat) (ue : Option Nat) (f : CStep → State) : State :=
  match s.unit u with
  | none => s
  | some x => if s.taskOp x.task = op then (if x.ended.isSome then placeSignals 18 u x ue s else f x).noteReady else s

/-- The FIG side of outbound word `g` as a bundle (R217, R219). -/
def State.captureWord (s : State) (g : Nat) : Bundle :=
  let w := mget s.fab.outFig BWord.init g
  ⟨w.data, w.poison⟩

/-- A micro-op on a queue that has VALID = 0 by now (R230): the task faults with BAD_QUEUE and leaves its unit. -/
def State.stepBadQueue (s : State) (u : Nat) (x : CStep) : State := (s.setUnit u none).taskFault x.task 3 u

/-- A pushing micro-op of unit `u` as its last: it waits while the queue is full. -/
def State.stepPush (s : State) (u q : Nat) (x : CStep) (b : Bundle) (ue : Option Nat) : State :=
  if !s.queueValid q then s.stepBadQueue u x
  else match s.push q b with
  | none => s.uopWait u x 1
  | some t => let r := t.uopDone u x; r.1.stepEnd u r.2 ue

/-- A micro-op that takes what `got` says from queue `q`: the step with the bundle, its wait, or its fault. -/
def State.stepTake (s : State) (u q : Nat) (x : CStep) (got : Option (State × Bundle)) : State × Option CStep :=
  if !s.queueValid q then (s.stepBadQueue u x, none)
  else match got with
  | none => (s.uopWait u x (if (s.cqueue q).spilled = 0 then 7 else 5), none)
  | some (t, b) => let r := t.uopDone u { x with data := some b }; (r.1.setUnit u (some r.2), some r.2)

/-- A popping micro-op (R230). -/
def State.stepPop (s : State) (u q : Nat) (x : CStep) (e : Ecc) : State × Option CStep := s.stepTake u q x (s.pop q e)

/-- A micro-op that reads the head and leaves it (COPY with KEEP, R216). -/
def State.stepPeek (s : State) (u q : Nat) (x : CStep) (e : Ecc) : State × Option CStep := s.stepTake u q x (s.head q e)

/-- The hand-off of a bundle to `node`, `queue` (R218, R257, R264, R300), `a` being its age as a candidate: the local queue, or the port
of the route. While it waits: the STALL cause, and the port's queue that it waits for. -/
def State.handOff (s : State) (a : Age) (cls node queue : Nat) (b : Bundle) : State × Option (Nat × Option (Nat × Bool)) :=
  if node = s.nodeId then
    match s.push queue b with
    | none => (s, some (1, none))
    | some t => (t, none)
  else
    let e : Entry := ⟨node, queue, b.data, b.poison, s.round.toNat % 2 == 1, false, cls⟩
    match s.routeOf node with
    | none => (s.routeInvalid node none, some (2, none))
    | some p =>
      match (if cls = 0 then s.enqUrgent p a (.bundle e) else s.enqBulk p a e) with
      | none => (s, some (2, some (p, cls == 0)))
      | some t => (t, none)

/-- The handing-off micro-op of unit `u` as its last. -/
def State.stepHandOff (s : State) (u : Nat) (x : CStep) (b : Bundle) (ue : Option Nat) : State :=
  if s.opB x.task = s.nodeId ∧ s.queueValid (s.opC x.task) = false then s.stepBadQueue u x
  else match s.handOff (x.waitFrom.getD s.fig.toNat, 2, u) (s.taskClass x.task) (s.opB x.task) (s.opC x.task) b with
  | (t, some (cause, port)) => t.uopWait u { x with port := port } cause
  | (t, none) => let r := t.uopDone u x; r.1.stepEnd u r.2 ue

end Sys2Proof.Machine
end

