-- ==== Sys2Proof/Machine/LatticeOps.lean ====
section
/-! DEFINITION. Sys2Proof/Machine/LatticeOps.lean: lattice control (file 07): peers, holders and HELD (R274, R283), tokens (R265), START
and STOP (R271, R272), OFFLINE (R284), overrun (R268), local readiness (R259). -/

namespace Sys2Proof.Machine

/-- The node's state code becomes `c`; the edge at which the rounds stop is kept (R356). -/
def State.setLatState (s : State) (c : Nat) : State :=
  let t := s.put LAT_STAT_STATE c
  if s.inRound && !t.inRound then t.setLat { t.lat with stopFig := s.fig.toNat } else t

/-- Peer `i` is DOWN (R283): its route entry is invalid, or the port that it names is not up. -/
def State.peerDown (s : State) (node : Nat) : Bool :=
  match s.routeOf node with
  | none => true
  | some p => !s.portUp p

/-- Round `p` of a token, modulo 64, is not later than the node's round (R265, R274). -/
def State.notLater (s : State) (p : Nat) : Bool := decide (0 ≤ sext 6 (s.round.toNat + 64 - p % 64))

/-- A peer is a holder by its tokens (R274). -/
def State.tokenHolder (s : State) (i : Nat) : Bool :=
  s.on (LAT_PEER_STAT_HOLDING i) && (s.f (LAT_PEER_STAT_LAST_TYPE i) == 1 || decide (i ∈ s.lat.relay))

/-- A peer is DOWN or LOST (R283). -/
def State.peerGone (s : State) (p : Nat × Nat) : Bool := s.peerDown p.2 || s.on (LAT_PEER_STAT_LOST p.1)

/-- A peer keeps this node HELD (R274): it is DOWN or LOST, or a holder for a round that is not later. -/
def State.peerBlocks (s : State) (p : Nat × Nat) : Bool :=
  s.peerGone p || (s.tokenHolder p.1 && s.notLater (s.f (LAT_PEER_STAT_LAST_ROUND p.1)))

/-- The node counts figures of its round now (R268, R274). -/
def State.counting (s : State) : Bool :=
  (s.latState == 3 || s.latState == 4 || s.latState == 6) &&
    !s.peers.any (fun p => s.on (LAT_PEER_STAT_HOLDING p.1) && s.notLater (s.f (LAT_PEER_STAT_LAST_ROUND p.1)))

/-- Enter or leave HELD as R274 and R283 give, and show DOWN. -/
def State.latSettle (s : State) : State :=
  let ps := s.peers
  let gone := (ps.filter s.peerGone).map (·.1)
  let s1 := (s.each ps (fun p t => t.put (LAT_PEER_STAT_DOWN p.1) (b2n (t.peerDown p.2)))).setLat { s.lat with down := gone }
  let blocked := ps.any s.peerBlocks
  let st := s1.latState
  if (st == 3 || st == 4) && blocked then
    ((s1.setLatState 5).sendTokens (if gone.isEmpty then 3 else 1) s1.round.toNat).raise 154
  else if st == 5 && !blocked then
    (s1.setLatState (if s1.lat.ready then 4 else 3)).sendTokens 2 s1.round.toNat
  else if st == 5 && s.lat.down.isEmpty && !gone.isEmpty then s1.sendTokens 1 s1.round.toNat
  else s1

/-- A token from `origin` on port `port` (R265, R274): kept, or discarded and logged. -/
def State.takeToken (s : State) (port origin type round : Nat) : State :=
  if !s.on LAT_NODE_VALID then s
  else match s.peers.find? (fun p => p.2 == origin) with
  | none => s.latErr 1 port origin false
  | some (i, _) =>
    let r := s.round.toNat % 64
    let show_ := fun (t : State) (holding : Bool) =>
      ((t.put (LAT_PEER_STAT_HOLDING i) (b2n holding)).put (LAT_PEER_STAT_LAST_TYPE i) type).put (LAT_PEER_STAT_LAST_ROUND i) round
    match type with
    | 0 =>
      if round = r ∨ round = (r + 1) % 64 then
        let l := (ladd (mget s.lat.bows [] i) round).take 2
        let s1 := s.setLat { s.lat with bows := mset s.lat.bows [] i l, relay := ldel s.lat.relay i }
        ((show_ s1 false).put (LAT_PEER_STAT_PENDING i) l.length).latSettle
      else s.latErr 2 port origin false
    | 1 => (show_ (s.setLat { s.lat with relay := ldel s.lat.relay i }) true).latSettle
    | 2 => (show_ (s.setLat { s.lat with relay := ldel s.lat.relay i }) false).latSettle
    | _ =>
      let held := s.latState == 5
      (show_ (s.setLat { s.lat with relay := if held then ldel s.lat.relay i else ladd s.lat.relay i }) true).latSettle

/-! ### START and STOP -/

/-- Set or clear the stop target (R272). -/
def State.setTarget (s : State) (t : Option Nat) : State :=
  (s.setLat { s.lat with target := t }).put LAT_STAT_TARGET_VALID (b2n t.isSome)

/-- A refused START (R271): `port` none for the node's own. -/
def State.startRefuse (s : State) (m : Msg) (port : Option Nat) : State :=
  (s.latErr 3 (port.getD 0) m.origin port.isNone).sendTokens 1 s.round.toNat

/-- START acts on this node (R271). -/
def State.actStart (s : State) (m : Msg) (port : Option Nat) : State :=
  match s.latState with
  | 1 =>
    let reel := s.f TAIL_REEL_STAT_STATE
    if (m.isMatch && m.round != s.round.toNat) || (decide (2 ≤ reel) && decide (reel ≤ 4)) || s.alarmed then s.startRefuse m port
    else
      let s1 := if m.hasTarget then s.setTarget (some m.target) else s
      let d := sext 16 (m.beat + 2 ^ 16 - s.f LAT_STAT_BEAT_COUNT)
      let now := d = 0 ∧ s.lat.beatFig = s.fig.toNat
      let passed := d < 0 ∨ (d = 0 ∧ s.lat.beatFig ≠ s.fig.toNat)
      let s2 := (s1.setLatState 2).setLat { (s1.setLatState 2).lat with
        beat := if now ∨ passed then none else some m.beat, startDue := decide (now ∨ passed), startFig := s.fig.toNat + 2 }
      s2.when (decide passed) (fun t => t.put LAT_STAT_START_LATE 1)
  | 7 => s.startRefuse m port
  | _ => s

/-- STOP acts on this node (R272). -/
def State.actStop (s : State) (m : Msg) : State :=
  if s.latState = 0 then s
  else
    let s1 := (s.put LAT_STOP_LO_TARGET_LO m.target).put LAT_STOP_HI_TARGET_HI (m.target / 2 ^ 32)
    if !s1.stopped && decide (m.target ≤ s1.round.toNat) then ((s1.stopNow).put LAT_STAT_STOP_LATE 1).raise 158
    else s1.setTarget (some m.target)

/-- The next message of this node: its SEQ increments. -/
def State.nextMsg (s : State) (type round target beat : Nat) (isMatch hasTarget : Bool) : State × Msg :=
  let q := (s.lat.seq + 1) % 2 ^ 16
  (s.setLat { s.lat with seq := q, seen := mset s.lat.seen none s.nodeId (some q) },
   ⟨type, s.nodeId, q, round % 2 ^ 48, target % 2 ^ 48, beat % 2 ^ 16, isMatch, hasTarget⟩)

/-- A message is newer than the last accepted from its origin (R270). -/
def State.newer (s : State) (m : Msg) : Bool :=
  match mget s.lat.seen none m.origin with
  | none => true
  | some q => decide (0 < sext 16 (m.seq + 2 ^ 16 - q))

/-! ### OFFLINE, overrun, readiness -/

/-- FIG leaves its PLL (R284): OFFLINE, the round is abandoned, every port goes down. -/
def State.nodeOffline (s : State) : State :=
  let s1 := ((s.setLatState 0).put LAT_STAT_FIG_LOST 1).setLat
    { s.lat with offPor := false, ready := false, fenced := false, bowFence := [], count := 0, beat := none, startDue := false }
  ((s1.each (List.range 16) (fun n t => if t.f (GLS_STAT_STATE n) = 0 then t else t.portDown n 0)).raise 156).latSettle

/-- A port follows EN, its gate and FIG's source (R284, R311, R317): down and DISABLED when it may not run, DETECT when it may. -/
def State.portSync (s : State) (n : Nat) : State :=
  let st := s.f (GLS_STAT_STATE n)
  if s.portMayRun n then (if st = 0 then s.portState n 1 else s)
  else if st = 0 then s else (s.portDown n 0).latSettle

/-- The rounds of a node that stops: the marks of the round clear. -/
def State.roundMarks (s : State) : State :=
  s.setLat { s.lat with ready := false, fenced := false, bowFence := [], count := 0, routeSaid := false }

/-- A capture is due at the bow that begins round `r` (R332). -/
def State.capDue (s : State) (r : Nat) : Bool :=
  (match s.tail.req with
    | some (0, q, _) => q == r
    | some (1, _, late) => !late && s.capFree
    | _ => false) ||
  (match s.tail.trig with
    | some late => !late && s.capFree
    | none => false) ||
  (s.f TAIL_CAP_PERIOD_PERIOD != 0 && r % s.f TAIL_CAP_PERIOD_PERIOD == 0)

/-- The Tail is ready for the next bow (R114, R259, R333, R335). -/
def State.tailReady (s : State) : Bool :=
  let r := s.round.toNat + 1
  s.fab.copyOut.all (fun e => e.2.isNone) && s.tail.cap.all (fun c => c.lists.isEmpty) && (!s.capDue r || s.capFree || s.capCause.isSome)

/-- Every bay due for release at the next bow is LOADED (R194, R259). -/
def State.releaseReady (s : State) : Bool :=
  match s.cfg.rel with
  | none => true
  | some a => a.relFirst || decide (s.round.toNat + 1 < a.rel) || s.bayState a.bay == 4

/-- Every condition of R259 but the bow fence. -/
def State.readyBut (s : State) : Bool :=
  s.on CALLER_STAT_DONE && s.tailReady && s.releaseReady && !s.bal.hold && decide (s.lat.minRound - 2 ≤ s.lat.count)

/-- The bow edge b = x + 2 of an announced bow is reached (R261). -/
def State.bowReached (s : State) : Bool := s.latState == 6 && decide (s.lat.annFig + 2 ≤ s.fig.toNat)

/-- The sources of the bow fence (R279). -/
def State.bowFenceSrcs (s : State) : List Nat :=
  (bitList (s.pair LAT_BOW_FENCE_LO LAT_BOW_FENCE_HI) 48).filter hasOrder

/-- A BOW token for the node's round has arrived from every valid peer (R261). -/
def State.allBows (s : State) : Bool :=
  s.peers.all (fun p => decide (s.round.toNat % 64 ∈ mget s.lat.bows [] p.1))

end Sys2Proof.Machine
end

