-- ==== Sys2Proof/Machine/CfgOps.lean ====
section
/-! DEFINITION. Sys2Proof/Machine/CfgOps.lean: what others use of the configuration engine (file 05): failures and refusals (R197), the
arming of a freeze (R189, R195, R196), the hold and release of a bay (R190 to R194), the claim map (R74 to R76). -/

namespace Sys2Proof.Machine

/-- A bay takes the state code `c`. -/
def State.setBay (s : State) (k c : Nat) : State := s.put (CFG_BAY_STAT_STATE k) c

/-- A cause in CFG_ERR_CAUSE with EV_CFG_FAIL (R197, R208). -/
def State.cfgLog (s : State) (cause bay frame : Nat) : State :=
  (s.log CFG_ERR_CAUSE_VALID CFG_ERR_CAUSE_OVF (fun t =>
    ((t.put CFG_ERR_CAUSE_BAY bay).put CFG_ERR_CAUSE_FRAME frame).put CFG_ERR_CAUSE_CAUSE cause)).raise 137

/-- A refused operation: it leaves the one in progress alone (R197). -/
def State.cfgRefuse (s : State) (cause : Nat) : State :=
  let s1 := s.cfgLog cause 0 0
  if s1.on CFG_STAT_BUSY then s1 else (s1.put CFG_STAT_FAIL 1).put CFG_STAT_DONE 0

/-- The freeze is no longer armed. -/
def State.disarm (s : State) : State := (s.setCfg { s.cfg with arm := none }).put CFG_PR_CTRL_ARMED 0

/-- Lattice reset (R196): a freeze that has not taken effect is cancelled with cause ABORTED; a release comes at the first bow after
LOADED. -/
def State.cfgLatticeReset (s : State) : State :=
  let s1 := if s.cfg.arm.isSome then s.disarm.cfgRefuse 0x0F else s
  s1.setCfg { s1.cfg with rel := s1.cfg.rel.map (fun a => { a with relFirst := true }) }

/-! ### Freeze and release -/

/-- The nets that a configuration item names as sources. -/
def CfgItem.nets : CfgItem → List Net
  | .cell c => c.ins.flatten
  | .cluster c => c.ce.flatten ++ c.sr.flatMap (·.1)
  | .sel _ taps => taps
  | .bndOut _ bits poison => bits.flatten ++ poison
  | .mem c => [c.a, c.b].flatMap (fun p => p.sr ++ p.addr.flatten ++ p.din.flatten ++ p.bwe.flatten ++ p.en ++ p.pin)
  | .slice c => c.ceIn ++ c.ceM ++ c.ceP ++ c.sr ++ c.a.flatten ++ c.b.flatten ++ c.c.flatten ++ c.d.flatten ++ c.pi
  | .pin _ out oe => out ++ oe
  | .probe _ _ src => src
  | .portIn _ bits => bits.flatten
  | .ckin src => src
  | _ => []

/-- The constants of the freeze selections of bay `k` (R191). -/
def State.freezeConsts (s : State) (k : Nat) : List (Net × Bool) :=
  s.items.filterMap (fun e => match e.2 with
    | .freezeConst n v => if e.1 = k then some (n, v) else none
    | _ => none)

/-- The values that the nets which leave bay `k` carry from its freeze on (R190, R191), wires that its frames claim among them: a
constant, or the value just before edge b. -/
def State.freezeValues (s : State) (k : Nat) : List (Net × Bool) :=
  let consts := s.freezeConsts k
  ((s.items.flatMap (fun e => e.2.nets)).filter (fun n => s.netBay n == some k)).eraseDups.map (fun n =>
    (n, match consts.find? (fun x => x.1 == n) with
      | some x => x.2
      | none => s.pinVal k [n]))

/-- Every claim of the frames of bay `k` is released (R76). -/
def State.claimsFree (s : State) (k : Nat) : State :=
  s.setFab { s.fab with claims := s.fab.claims.filter (fun e => (e.2 - 1) / 4608 != k) }

/-- The bay hold of R192: the latched nets, the hold, the claims, FROZEN (R190). `vals`: what the outgoing nets carried. -/
def State.bayFreeze (s : State) (a : Arm) (vals : List (Net × Bool)) : State :=
  let s1 : State := s.setFab { s.fab with
    latched := (s.fab.latched.filter (fun e => e.1 != a.bay)) ++ [(a.bay, vals)]
    held := ladd s.fab.held a.bay }
  ((((s1.claimsFree a.bay).disarm).setCfg { (s1.claimsFree a.bay).disarm.cfg with rel := some a })).setBay a.bay 2

/-- The INIT values of the flip-flops of bay `k`, of every user flip-flop whose configuration is there. -/
def State.bayInit (s : State) (k : Nat) : List (Nat × Bool) :=
  (s.cells.filter (fun c => bayOfCell c.cell == k)).flatMap (fun c => [(2 * c.cell, c.ffa.init), (2 * c.cell + 1, c.ffb.init)])

/-- Remove what the registers of bay `k` hold: flip-flops, memory port registers, slice registers. -/
def State.bayClear (s : State) (k : Nat) : State :=
  s.setFab { s.fab with
    ff := s.fab.ff.filter (fun e => bayOfCell (e.1 / 2) != k)
    portReg := s.fab.portReg.filter (fun e => e.1 / 256 != k)
    slice := s.fab.slice.filter (fun e => e.1 / 96 != k) }

/-- The release of the bay at bow edge e (R194): it starts from INIT, its latches open, the fabric sides of its inbound words hold 0
until the Caller's next write. -/
def State.bayRelease (s : State) (k : Nat) : State :=
  let s1 := s.bayClear k
  let s2 : State := s1.setFab { s1.fab with
    ff := (s1.bayInit k).foldl (fun m e => mset m false e.1 e.2) s1.fab.ff
    held := ldel s1.fab.held k
    latched := s1.fab.latched.filter (fun e => e.1 != k)
    inFab := s1.fab.inFab.filter (fun e => e.1 / 64 != k)
    inDue := s1.fab.inDue.filter (fun g => g / 64 != k) }
  (((s2.setCfg { s2.cfg with rel := none }).setBay k 1).raise 138).mapNeeds k

end Sys2Proof.Machine
end

