-- ==== Sys2Proof/Machine/Clock.lean ====
section
/-! DEFINITION. Sys2Proof/Machine/Clock.lean: the clock system but its block gates (file 04): trim (R130 to R132), PLLs (R135 to R138),
source switches but the forced one (R139, R153, R157), monitors (R165, R166). -/

namespace Sys2Proof.Machine

/-! ### Trim -/

/-- CODE after a window with count minus EXP `d` (R130); it stays in its 12 bits. -/
def trimStep (code : Nat) (band : Nat) (d : Int) : Nat :=
  if (band : Int) < d then code - 1 else if d < -(band : Int) then min 4095 (code + 1) else code

/-- TRIM_WINDOW_END (R130 to R132): the window of 2^WINDOW reference events ends with `c` OSC cycles counted. -/
def execTrimWindowEnd (c : Nat) (s : State) : Out :=
  .next <|
    let marks := s.f CLK_OSC_TRIM_CTRL_SRC == 2
    if !s.on CLK_OSC_TRIM_CTRL_EN || (marks && decide (s.clk.trimBeats < 2 ^ clamp 4 20 (s.f CLK_OSC_TRIM_CTRL_WINDOW))) then s
    else
      let d : Int := (c : Int) - s.f CLK_OSC_TRIM_EXP_EXP
      let band := s.f CLK_OSC_TRIM_CTRL_DEADBAND
      let code := s.f CLK_OSC_TRIM_CTRL_CODE
      let new := trimStep code band d
      let good := decide (-(band : Int) ≤ d ∧ d ≤ band)
      let n := if good then min 4 (s.clk.trimOk + 1) else 0
      let sat : Int := if d < -32768 then -32768 else if 32767 < d then 32767 else d
      let s1 := s.setClk { s.clk with trimOk := n, trimBeats := 0 }
      let s2 := (((s1.put CLK_OSC_TRIM_CTRL_CODE new).put CLK_OSC_TRIM_STAT_LOCKED (b2n (n == 4))).put
        CLK_OSC_TRIM_STAT_REF_MISSING 0).put CLK_OSC_TRIM_STAT_LAST_DIFF (wrap 16 sat)
      if new ≠ code ∧ (new = 0 ∨ new = 4095) then (s2.put CLK_OSC_TRIM_STAT_RAIL 1).raise 132 else s2

/-- TRIM_REF_MISSING (R132): the window has not ended after 4 × EXP OSC cycles; a new one starts. LOCKED and the run of good windows stay as
they are: CLK_OSC_TRIM_STAT counts windows that ended, and R132 says nothing of LOCKED (DESIGN CHOICE, log entry 44). -/
def execTrimRefMissing (s : State) : Out :=
  .next <|
    if s.on CLK_OSC_TRIM_CTRL_EN then
      ((s.setClk { s.clk with trimBeats := 0 }).put CLK_OSC_TRIM_STAT_REF_MISSING 1).raise 132
    else s

/-! ### PLLs -/

/-- PLL `p` is one of the fabric PLLs FPLL0 to FPLL7 (R134). -/
def isFpll (p : Nat) : Bool := decide (8 ≤ p) && decide (p < 16)

/-- PLL `p` exists (R134). -/
def isPll (p : Nat) : Bool := decide (p < 7) || isFpll p

/-- An FPLL's setting puts the VCO outside 2.0 GHz to 4.0 GHz (R136). -/
def State.vcoBad (s : State) (p : Nat) : Bool :=
  let m := s.f (CLK_PLL_CTRL_FBDIV p)
  let r := s.f (CLK_PLL_CTRL_REFDIV p) + 1
  isFpll p && (decide (m < 20 * r) || decide (40 * r < m))

/-- OUTDIV of output `k`. -/
def State.outDiv (s : State) (p k : Nat) : Nat := fget (s.reg (CLK_PLL_OUT p)) (8 * k + 7) (8 * k)

/-- An output's OUTDIV is 1, or gives more than 1.0 GHz (R136): the output stays stopped. -/
def State.outBad (s : State) (p k : Nat) : Bool :=
  let d := s.outDiv p k
  isFpll p && d != 0 && (d == 1 || decide (10 * d * (s.f (CLK_PLL_CTRL_REFDIV p) + 1) < s.f (CLK_PLL_CTRL_FBDIV p)))

/-- ERR_CFG follows the setting (R136). -/
def State.pllCheck (s : State) (p : Nat) : State :=
  s.put (CLK_PLL_STAT_ERR_CFG p) (b2n (s.vcoBad p || (List.range 4).any (s.outBad p)))

/-- PLL_SETTING_CHANGE (R135 to R137): CLK_PLL_CTRL(p) is written with `w`. A change of FBDIV, REFDIV or REF_SEL of an enabled PLL, or
of EN, stops the outputs until lock. -/
def execPllSettingChange (p : Nat) (w : Word) (s : State) : Out :=
  .next <|
    if isPll p then
      let old := s.reg (CLK_PLL_CTRL p)
      let mask : Word := if isFpll p then 0xC0FF0003#32 else 0xC0000000#32
      let new := (old &&& ~~~ mask) ||| (w &&& mask)
      let s1 := s.setReg (CLK_PLL_CTRL p) new
      let en := fget new 31 31 == 1
      let was := fget old 31 31 == 1
      let setting : Word := if p = 6 then 0x00FF0003#32 else 0x40FF0003#32
      let moved := (en != was) || (en && (old &&& setting) != (new &&& setting))
      let s2 := if moved then
          ((s1.setClk { s1.clk with stopped := ladd s1.clk.stopped p }).put (CLK_PLL_STAT_LOCK p) 0).put (CLK_PLL_STAT_TMO p) 0
        else s1
      if isFpll p then s2.pllCheck p else s2
    else s

/-! ### Source switches -/

/-- The old source of a switch is OSC: no timeout applies (R155). -/
def oscSource (m src : Nat) : Bool := if m < 2 then src == 0 else m < 64 && src == 42

/-- A switch of multiplexer `m` to `src` is requested (R153, R157, R284): held while another is in progress. -/
def State.switchTo (s : State) (m src : Nat) : State :=
  let old := s.f (muxField m)
  if !isMux m || old == src then s
  else
    let s1 := s.put (muxField m) src
    let s2 := if s1.on (muxBusy m) then s1.setClk { s1.clk with muxHeld := mset s1.clk.muxHeld none m (some src) }
      else (s1.setClk { s1.clk with muxNew := mset s1.clk.muxNew none m (some src) }).put (muxBusy m) 1
    if m = 0 ∧ src = 0 then s2.nodeOffline else s2

/-- A switch of multiplexer `m` ends (R153, R157): the new source drives it, and a held request starts the next switch. -/
def State.switchEnd (s : State) (m : Nat) : State :=
  match mget s.clk.muxNew none m with
  | none => s
  | some src =>
    let c := s.clk
    let s1 := s.setClk { c with muxCur := mset c.muxCur (muxReset m) m src, muxNew := mset c.muxNew none m none,
                                muxHeld := mset c.muxHeld none m none }
    let s2 := match mget c.muxHeld none m with
      | some h => if h = src then s1.put (muxBusy m) 0
        else s1.setClk { s1.clk with muxNew := mset s1.clk.muxNew none m (some h) }
      | none => s1.put (muxBusy m) 0
    s2.when (decide (m = 0)) (fun t => t.each (List.range 16) (fun n u => u.portSync n))

/-- CLOCK_SWITCH_REQUEST (R153, R157, R284): the source field of multiplexer `m` is written with `src`. -/
def execClockSwitchRequest (m src : Nat) (s : State) : Out :=
  .next (s.switchTo m (src % 2 ^ ((muxField m).hi + 1 - (muxField m).lo)))

/-- A switch of multiplexer `m` is forced (R154, R155): a switch is in progress, and its old source is not OSC. -/
def State.switchDead (s : State) (m : Nat) : Bool := (mget s.clk.muxNew none m).isSome && !oscSource m (s.muxSrc m)

/-- PLL_LOCK (R135 to R137, R139): the outputs restart; at the first lock under AUTO the domain of PLL 0 or 1 switches to it. -/
def execPllLock (p : Nat) (s : State) : Out :=
  .next <|
    if isPll p && s.on (CLK_PLL_CTRL_EN p) && !s.vcoBad p && !s.on (CLK_PLL_STAT_LOCK p) then
      let s1 := (s.setClk { s.clk with stopped := ldel s.clk.stopped p }).put (CLK_PLL_STAT_LOCK p) 1
      if p < 2 ∧ p ∉ s1.clk.autoDone then
        let s2 := s1.setClk { s1.clk with autoDone := ladd s1.clk.autoDone p }
        if s2.on CLK_HUB_SEL_AUTO then s2.switchTo p 1 else s2
      else s1
    else s

/-- PLL_LOCK_TIMEOUT (R135): not locked after 200 µs; the PLL keeps trying. -/
def execPllLockTimeout (p : Nat) (s : State) : Out :=
  .next (if isPll p && s.on (CLK_PLL_CTRL_EN p) && !s.on (CLK_PLL_STAT_LOCK p) then s.put (CLK_PLL_STAT_TMO p) 1 else s)

/-- PLL_UNLOCK (R138): the outputs of an FPLL stop; PLLs 0 to 6 keep driving their domains. -/
def execPllUnlock (p : Nat) (s : State) : Out :=
  .next <|
    if isPll p && s.on (CLK_PLL_STAT_LOCK p) then
      let s1 := ((s.put (CLK_PLL_STAT_LOCK p) 0).put (CLK_PLL_STAT_UNLOCK p) 1).raise 129
      if isFpll p then s1.setClk { s1.clk with stopped := ladd s1.clk.stopped p } else s1
    else s

/-- The register at `a` holds a divider or an enable of an output, a global or a regional clock. -/
def isDivider (a : Nat) : Bool :=
  (List.range 8).any (fun i => a == CLK_PLL_OUT (8 + i)) || (List.range 32).any (fun g => a == CLK_GCLK_CFG g) ||
    (List.range 16).any (fun n => (List.range 24).any (fun r => a == CLK_RCLK_CFG n r))

/-- The multiplexers of fabric clocks whose register is at `a`. -/
def clkMuxes (a : Nat) : List Nat := ((List.range 448).filter (fun m => decide (16 ≤ m) && isMux m)).filter (fun m => clkReg m == a)

/-- DIVIDER_CHANGE (R137, R145, R146): the DIV, OUTDIV or EN settings of the register at `a` take effect, at the end of an output
period; the clock begins its next one. -/
def execDividerChange (a : Nat) (s : State) : Out :=
  .next <|
    if isDivider a then
      (s.setClk { s.clk with applied := mset s.clk.applied (resetWord a) a (s.reg a) }).each (clkMuxes a) (fun m t => t.dividerStart m)
    else s

/-! ### Monitors -/

/-- FAILOVER of monitor `m` (R166). -/
def State.failover (s : State) (m : Nat) : State :=
  if m = 2 then s.switchTo 0 0 else if m = 3 then s.switchTo 1 0
  else if 16 ≤ m then s.switchTo m (s.f (CLK_GCLK_CFG_ALT_SRC (m - 16))) else s

/-- Monitor `m` watches a clock now (R164, R165): it is enabled, and its global clock is not in round mode. -/
def State.monOn (s : State) (m : Nat) : Bool :=
  (decide (m < 10) || (decide (16 ≤ m) && decide (m < 48))) && s.on (CLK_MON_CFG_EN m) &&
    !(decide (16 ≤ m) && s.on (CLK_GCLK_CFG_MODE (m - 16)))

/-- Flags of a monitor become set (R165, R166): the event, and the failover. -/
def State.monFlags (s : State) (m : Nat) (l : List Fld) : State :=
  let new := l.filter (fun x => !s.on x)
  if new.isEmpty then s
  else ((s.each new (fun x t => t.put x 1)).raise 128).when (s.on (CLK_MON_CFG_ACTION m)) (fun t => t.failover m)

/-- CLOCK_MONITOR_WINDOW (R165, R166): the window of monitor `m` ends with `c` rising edges counted. A count of exactly 0xFFFF is read
as one that the counter holds, not as a saturated one: HIGH is set above 0xFFFF or above HI (DESIGN CHOICE, log entry 44). -/
def execClockMonitorWindow (m c : Nat) (s : State) : Out :=
  .next <|
    if s.monOn m then
      let s1 := s.put (CLK_MON_STAT_COUNT m) (min c 0xFFFF)
      let low := if c < s.f (CLK_MON_LIM_LO m) then [CLK_MON_STAT_LOW m] else []
      let high := if s.f (CLK_MON_LIM_HI m) < c ∨ 0xFFFF < c then [CLK_MON_STAT_HIGH m] else []
      s1.monFlags m (low ++ high)
    else s

/-- CLOCK_ABSENT (R165, R166): 64 OSC cycles pass without an edge of the clock that monitor `m` watches. -/
def execClockAbsent (m : Nat) (s : State) : Out :=
  .next (if s.monOn m then s.monFlags m [CLK_MON_STAT_ABSENT m] else s)

end Sys2Proof.Machine
end

