-- ==== Sys2Proof/Machine/Flags.lean ====
section
/-! DEFINITION. Sys2Proof/Machine/Flags.lean: the flag computations of the station cores' ALU and accumulator operations (R445, R446, R470).
SR holds Z, N, C and V in bits 3, 2, 1 and 0 (log entry 20). -/

namespace Sys2Proof.Machine

/-- What an ALU operation gives: a 16-bit result, and the flags that it sets (none: unchanged). -/
structure AluOut where
  val : Nat
  z : Option Bool
  n : Option Bool
  c : Option Bool
  v : Option Bool
deriving DecidableEq, Repr

/-- Z and N of a 16-bit result. -/
def aluZN (r : Nat) (c v : Option Bool) : AluOut :=
  ⟨r % 2 ^ 16, some (r % 2 ^ 16 == 0), some (r.testBit 15), c, v⟩

/-- A 16-bit sum with carry in: C is the carry out, V the signed overflow. -/
def add16 (a b : Nat) (cin : Bool) : AluOut :=
  let sum := a % 2 ^ 16 + b % 2 ^ 16 + b2n cin
  let exact : Int := sext 16 a + sext 16 b + b2n cin
  aluZN sum (some (decide (2 ^ 16 ≤ sum))) (some (decide (exact < -32768 ∨ 32767 < exact)))

/-- A 16-bit difference: C = 1 means no borrow. -/
def sub16 (a b : Nat) (cin : Bool) : AluOut := add16 a (65535 - b % 2 ^ 16) cin

/-- SHL by operand bits 3:0; C is the last bit shifted out, `free` when none is (log entry 21). -/
def shl16 (a k : Nat) (free : Bool) : AluOut :=
  let n := k % 16
  aluZN (a % 2 ^ 16 * 2 ^ n) (some (if n = 0 then free else a.testBit (16 - n))) none

/-- SHR. -/
def shr16 (a k : Nat) (free : Bool) : AluOut :=
  let n := k % 16
  aluZN (a % 2 ^ 16 / 2 ^ n) (some (if n = 0 then free else a.testBit (n - 1))) none

/-- SAR. -/
def sar16 (a k : Nat) (free : Bool) : AluOut :=
  let n := k % 16
  aluZN (wrap 16 (sext 16 a / 2 ^ n)) (some (if n = 0 then free else a.testBit (n - 1))) none

/-- Bit positions of SR. -/
def srV : Nat := 0
/-- C. -/
def srC : Nat := 1
/-- N. -/
def srN : Nat := 2
/-- Z. -/
def srZ : Nat := 3

/-- SR with the flags of an operation. -/
def setFlags (sr : Nat) (z n c v : Option Bool) : Nat :=
  let bit := fun (k : Nat) (o : Option Bool) => match o with
    | some b => b2n b * 2 ^ k
    | none => b2n (sr.testBit k) * 2 ^ k
  sr / 16 * 16 + bit srZ z + bit srN n + bit srC c + bit srV v

/-- V of an accumulator: the guard bits are not a sign extension of bit 31. -/
def accV (a : Nat) : Bool := bitsOf a 39 32 != (if a.testBit 31 then 255 else 0)

/-- Z, N and V of an accumulator operation. -/
def accFlags (sr a : Nat) : Nat := setFlags sr (some (a % 2 ^ 40 == 0)) (some (a.testBit 39)) none (some (accV a))

/-- The residue modulo 3 of an accumulator value (R446). -/
def res3 (a : Nat) : Nat := (sext 40 a % 3).toNat

/-- The condition `c` of BCC under SR (R470); conditions 0xC to 0xF are ILLEGAL. -/
def condHolds (c sr : Nat) : Bool :=
  let z := sr.testBit srZ
  let n := sr.testBit srN
  let cf := sr.testBit srC
  let v := sr.testBit srV
  match c with
  | 0 => z
  | 1 => !z
  | 2 => n != v
  | 3 => n == v
  | 4 => z || n != v
  | 5 => !z && n == v
  | 6 => !cf
  | 7 => cf
  | 8 => n
  | 9 => !n
  | 10 => v
  | 11 => !v
  | _ => false

/-- One MAC-format operation (R445, R446): the exact value, the predicted residue before wraps. `op` is the OP field. -/
def macExact (op : Nat) (old : Nat) (oldR : Nat) (s1 s2 : Nat) : Int × Int :=
  let sa : Int := if op = 4 ∨ op = 5 then (s1 % 2 ^ 16 : Nat) else sext 16 s1
  let sb : Int := if op = 4 ∨ op = 5 ∨ op = 6 then (s2 % 2 ^ 16 : Nat) else sext 16 s2
  let prod := sa * sb
  let rp : Int := (sa % 3) * (sb % 3)
  let acc := sext 40 old
  match op with
  | 1 => (prod, rp)
  | 4 => (prod, rp)
  | 2 => (acc + prod, oldR + rp)
  | 5 => (acc + prod, oldR + rp)
  | 6 => (acc + prod, oldR + rp)
  | 3 => (acc - prod, oldR - rp)
  | _ => (0, 0)

/-- The operation takes the accumulator's old value. -/
def macUsesOld (op : Nat) : Bool := op == 2 || op == 3 || op == 5 || op == 6

end Sys2Proof.Machine
end

