-- ==== Sys2Proof/Machine/Operands.lean ====
section
/-! DEFINITION. Sys2Proof/Machine/Operands.lean: the operand forms of the station cores: registers by class (R433, R470), pointers and their
post-modify (R440), local addresses (R434), the fields of an instruction word (R470). -/

namespace Sys2Proof.Machine

/-! ### A core -/

/-- Core `c`, 0 to 15 for STn and 16 for STW (R431). -/
def State.coreOf (s : State) (c : Nat) : Core := mget s.core Core.init c

/-- Replace core `c`. -/
def State.setCore (s : State) (c : Nat) (x : Core) : State := { s with core := mset s.core Core.init c x }

/-- The value that an unlisted control register reads: VBASE is 0xFC00 after core reset (R465). -/
def ctlDefault (i : Nat) : Word := if i = 28 then 0xFC00#32 else 0

/-- Control register `i` as stored. -/
def Core.ctlReg (x : Core) (i : Nat) : Nat := (mget x.ctl (ctlDefault i) i).toNat

/-- Store control register `i`. -/
def Core.setCtl (x : Core) (i v : Nat) : Core := { x with ctl := mset x.ctl (ctlDefault i) i (BitVec.ofNat 32 v) }

/-- SR bits 7:0. -/
def Core.sr (x : Core) : Nat := x.ctlReg 0

/-- d register `i`. -/
def Core.dReg (x : Core) (i : Nat) : Nat := (mget x.d 0 i).toNat
/-- Write d register `i`. -/
def Core.setD (x : Core) (i v : Nat) : Core := { x with d := mset x.d 0 i (BitVec.ofNat 16 v) }
/-- v register `i`. -/
def Core.vReg (x : Core) (i : Nat) : Nat := (mget x.v 0 i).toNat
/-- Write v register `i`. -/
def Core.setV (x : Core) (i v : Nat) : Core := { x with v := mset x.v 0 i (BitVec.ofNat 16 v) }
/-- p register `i`. -/
def Core.pReg (x : Core) (i : Nat) : Nat := (mget x.p 0 i).toNat
/-- Write p register `i`. -/
def Core.setP (x : Core) (i v : Nat) : Core := { x with p := mset x.p 0 i (BitVec.ofNat 32 v) }
/-- n register `i`. -/
def Core.nReg (x : Core) (i : Nat) : Nat := (mget x.n 0 i).toNat
/-- Write n register `i`. -/
def Core.setN (x : Core) (i v : Nat) : Core := { x with n := mset x.n 0 i (BitVec.ofNat 16 v) }
/-- The pair d(k+1):d(k). -/
def Core.pairD (x : Core) (k : Nat) : Nat := x.dReg k + 2 ^ 16 * x.dReg (k + 1)
/-- Write the pair d(k+1):d(k). -/
def Core.setPairD (x : Core) (k v : Nat) : Core := (x.setD k v).setD (k + 1) (v / 2 ^ 16)

/-- Accumulator a0 or a1. -/
def Core.acc (x : Core) (i : Nat) : AccReg := if i % 2 = 0 then x.a0 else x.a1
/-- Replace an accumulator. -/
def Core.setAcc (x : Core) (i : Nat) (a : AccReg) : Core := if i % 2 = 0 then { x with a0 := a } else { x with a1 := a }
/-- An accumulator with a value, its computed residue and a poison bit. -/
def accOf (v : Nat) (p : Bool) : AccReg := ⟨BitVec.ofNat 40 v, BitVec.ofNat 2 (res3 v), p⟩

/-! ### Registers by class (R470) -/

/-- A class and index name a register that MOVX, LDI and the debugger may name. -/
def regNamed (cls idx : Nat) : Bool :=
  match cls with
  | 0 => decide (idx < 16)
  | 1 => decide (idx < 8)
  | 2 => decide (idx < 8)
  | 3 => decide (idx < 6)
  | 4 => true
  | 5 => true
  | _ => false

/-- DEPTH (R470): call depth in bits 4:0, interrupt depth in bits 9:8. -/
def Core.depth (x : Core) : Nat := x.calls.length + 2 ^ 8 * x.ints.length

/-- SR as it reads: the poison bits of a0 and a1 in bits 9 and 8 (log entry 20), the reservation flag in bit 10. -/
def Core.srRead (x : Core) : Nat :=
  x.sr % 256 + b2n x.a0.p * 2 ^ 9 + b2n x.a1.p * 2 ^ 8 + b2n x.resv.isSome * 2 ^ 10

/-- The value of a register. -/
def Core.readReg (x : Core) (cls idx : Nat) : Nat :=
  match cls with
  | 0 => x.dReg idx
  | 1 => x.pReg idx
  | 2 => x.nReg idx
  | 3 =>
    let a := (x.acc (idx / 3)).v.toNat
    match idx % 3 with
    | 0 => bitsOf a 15 0
    | 1 => bitsOf a 31 16
    | _ => wrap 16 (sext 8 (bitsOf a 39 32))
  | 4 => x.vReg idx
  | _ => if idx = 0 then x.srRead else if idx = 29 then x.depth else x.ctlReg idx

/-- A register of 32 bits: classes 1 and 5. -/
def reg32 (cls : Nat) : Bool := cls == 1 || cls == 5

/-- The bits of control register `idx` that a write sets, for core `c` (R470). -/
def ctlWrite (c idx v old : Nat) : Nat :=
  if idx = 0 then old / 128 * 128 + v % 128
  else if idx = 1 then v % 2 ^ 17
  else if idx = 7 then v % 4
  else if 20 ≤ idx ∧ idx < 28 then v / 2 ^ 30 % 4 * 2 ^ 30 + v % 2 ^ 16
  else if idx = 28 then bitsOf v 15 10 * 2 ^ 10 + (if c = 16 then bitsOf v 16 16 * 2 ^ 16 else 0)
  else if idx = 29 ∨ idx = 30 then old
  else if idx = 31 then v % 2 ^ 17
  else v

/-- Write a register of core `c` with a value of its own width, or of 16 bits (R470); `free`: what LDEPTH takes for a value above 4. -/
def Core.writeReg (x : Core) (c cls idx v free : Nat) : Core :=
  match cls with
  | 0 => x.setD idx v
  | 1 => x.setP idx v
  | 2 => x.setN idx v
  | 3 =>
    let a := (x.acc (idx / 3)).v.toNat
    let w := v % 2 ^ 16
    let new := match idx % 3 with
      | 0 => a / 2 ^ 16 * 2 ^ 16 + w
      | 1 => wrap 40 (sext 16 w * 2 ^ 16)
      | _ => a % 2 ^ 32 + w % 256 * 2 ^ 32
    x.setAcc (idx / 3) (accOf new false)
  | 4 => x.setV idx v
  | _ => if idx = 5 then x.setCtl 5 (if v ≤ 4 then v else free % 5) else x.setCtl idx (ctlWrite c idx v (x.ctlReg idx))

/-! ### Pointers -/

/-- ⌈log2 n⌉. -/
def clog (n : Nat) : Nat := if n ≤ 1 then 0 else Nat.log2 (n - 1) + 1

/-- The bits `k - 1` to 1 of `a`, reversed into bits `k - 2` to 0. -/
def revBits (k a : Nat) : Nat := packBits ((List.range (k - 1)).map (fun i => a.testBit (k - 1 - i)))

/-- The new p of a post-modify by `step` under a PMODE word (R440); none where the rule gives no value. -/
def advance (pm p : Nat) (step : Int) : Option Nat :=
  let len := pm % 2 ^ 16
  match pm / 2 ^ 30 % 4 with
  | 0 => some (wrap 32 ((p : Int) + step))
  | 1 =>
    if len = 0 then some (wrap 32 ((p : Int) + step))
    else if 2 ≤ len ∧ len ≤ 32768 ∧ -(len : Int) ≤ step ∧ step ≤ len then
      let b := p / 2 ^ clog len * 2 ^ clog len
      some (wrap 32 ((b : Int) + ((p : Int) - b + step) % len))
    else none
  | 2 =>
    if len = 0 then none
    else
      let k := Nat.log2 len
      let low := p % 2 ^ k
      let sum := (revBits k low + revBits k (wrap 32 step)) % 2 ^ (k - 1)
      let mid := packBits (false :: (List.range (k - 1)).map (fun i => sum.testBit (k - 2 - i)))
      some (p / 2 ^ k * 2 ^ k + mid + low % 2)
  | _ => none

/-- Post-modify pointer `i` by `step`; `free` where the rule gives no value (log entry 21). -/
def Core.postMod (x : Core) (i : Nat) (step : Int) (free : Nat) : Core :=
  x.setP i ((advance (x.ctlReg (20 + i)) (x.pReg i) step).getD free)

/-! ### Local addresses -/

/-- What a local data address reaches (R434). -/
inductive Region where
  /-- word `i` of X -/
  | x (i : Nat)
  /-- word `i` of Y -/
  | y (i : Nat)
  /-- offset in the core's own register block -/
  | own (off : Nat)
  /-- an internal address through W0 (true) or W1 -/
  | win (w0 : Bool) (a : Nat)
  /-- nothing: ACCESS -/
  | bad
deriving DecidableEq, Repr

/-- The region of local address `a`. -/
def Core.region (x : Core) (a : Nat) : Region :=
  if 0x10000 ≤ a ∧ a < 0x18000 then .x ((a - 0x10000) / 4)
  else if 0x20000 ≤ a ∧ a < 0x28000 then .y ((a - 0x20000) / 4)
  else if 0x30000 ≤ a ∧ a < 0x40000 then .own (a - 0x30000)
  else if 0x40000000 ≤ a ∧ a < 0x44000000 then .win true (0x20000000000 + (a - 0x40000000))
  else if 0x80000000 ≤ a ∧ a < 0x100000000 then .win false ((x.ctlReg 31 * 2 ^ 31 + (a - 0x80000000)) % 2 ^ 48)
  else .bad

/-- The address and the step of the post-modify of an LS instruction word (R440, R470). -/
def Core.lsAddr (x : Core) (w : Word) : Nat × Option Int :=
  let p := x.pReg (fget w 24 22)
  let disp := sext 16 (fget w 15 0)
  match fget w 21 20 with
  | 0 => (p, none)
  | 1 => (p, some (sext 16 (x.nReg (fget w 24 22))))
  | 2 => (wrap 32 ((p : Int) + disp), none)
  | _ => (p, some disp)

/-! ### Instruction words -/

/-- One row of R470's tables: what the word is, by a number. MAC OPs are 0 to 7, ALU OPs 32 + OP, LS load 64, LS store 65, LINE load 66,
LINE store 67, LR 68, SC 69, BR OPs 80 + OP, MOVX 96, LDI 97, LDIH 98; none: ILLEGAL. -/
def insnKind (w : Word) : Option Nat :=
  let f := fget w 31 28
  if w = 0xFFFFFFFF#32 then none
  else if f < 4 then
    let op := fget w 29 26
    let slot := fun (m : Nat) => 128 ≤ m || m == 0
    if op < 8 ∧ fget w 0 0 = 0 ∧ slot (fget w 16 9) ∧ slot (fget w 8 1) then some op else none
  else if f < 8 then
    let op := fget w 28 24
    let imm := fget w 29 29 = 1
    let forms := imm ∨ (fget w 9 4 = 0 ∧ (fget w 15 15 = 1 ∨ fget w 12 12 = 0) ∧ (fget w 14 14 = 1 ∨ fget w 11 11 = 0) ∧
      (fget w 13 13 = 1 ∨ fget w 10 10 = 0))
    let ok := op ≤ 0x0E ∨ (0x10 ≤ op ∧ op ≤ 0x13)
    let rd := if op = 0x0A ∨ op = 0x0B then fget w 23 20 = 0 ∧ (imm ∨ fget w 15 15 = 0)
      else if op = 0x0E then fget w 23 20 < 8 else True
    if ok ∧ forms ∧ rd then some (32 + op) else none
  else if f = 8 then
    let line := fget w 26 25 = 3
    if fget w 26 25 = 1 ∧ fget w 16 16 = 1 then none
    else some (64 + fget w 27 27 + (if line then 2 else 0))
  else if f = 9 then
    if fget w 20 20 = 0 ∧ fget w 15 0 = 0 ∧ (fget w 27 27 = 1 ∨ fget w 19 16 = 0) then some (68 + fget w 27 27) else none
  else if f = 10 then
    let op := fget w 27 24
    let ok := match op with
      | 0 => fget w 23 16 == 0
      | 1 => fget w 19 16 == 0 && decide (fget w 23 20 < 12)
      | 2 => fget w 23 16 == 0
      | 3 => fget w 23 19 == 0 && fget w 15 0 == 0
      | 4 => fget w 23 19 == 0 && fget w 15 0 == 0
      | 7 => true
      | 8 => fget w 23 20 == 0 && fget w 15 10 == 0
      | 10 => fget w 23 16 == 0
      | 12 => fget w 23 8 == 0
      | 14 => false
      | 15 => false
      | _ => fget w 23 0 == 0
    if ok then some (80 + op) else none
  else if f = 11 then
    if fget w 11 0 = 0 ∧ regNamed (fget w 27 25) (fget w 24 20) ∧ regNamed (fget w 19 17) (fget w 16 12) then some 96 else none
  else if f = 12 then
    if fget w 19 16 = 0 ∧ regNamed (fget w 27 25) (fget w 24 20) then some 97 else none
  else if f = 13 then
    if fget w 19 16 = 0 ∧ (fget w 27 25 = 1 ∨ fget w 27 25 = 5) ∧ regNamed (fget w 27 25) (fget w 24 20) then some 98 else none
  else none

/-- The ALU operands of a word: RS, and RT or IMM, with the v forms (R470). -/
def Core.aluOperands (x : Core) (w : Word) : Nat × Nat :=
  let imm := fget w 29 29 = 1
  let rs := if ¬ imm ∧ fget w 14 14 = 1 then x.vReg (fget w 19 16 + 16 * fget w 11 11) else x.dReg (fget w 19 16)
  let rt := if imm then fget w 15 0
    else if fget w 13 13 = 1 then x.vReg (fget w 3 0 + 16 * fget w 10 10) else x.dReg (fget w 3 0)
  (rs, rt)

/-- Write the ALU destination RD. -/
def Core.aluDest (x : Core) (w : Word) (v : Nat) : Core :=
  if fget w 29 29 = 0 ∧ fget w 15 15 = 1 then x.setV (fget w 23 20 + 16 * fget w 12 12) v else x.setD (fget w 23 20) v

end Sys2Proof.Machine
end

