-- ==== Sys2Proof/Machine/CoreOps.lean ====
section
/-! DEFINITION. Sys2Proof/Machine/CoreOps.lean: the named operations of the station cores (file 12): memories (R437 to R439), halts (R493 to
R501), exceptions (R454 to R456), interrupts (R457 to R459), timers and watchdog (R460 to R464), core reset (R465, R466), a core's own
register block (R432), window accesses (R436), and the tags of the mesh's initiators that they use (R378, R391). -/

namespace Sys2Proof.Machine

/-! ### Initiator tags -/

/-- Replace a tag. -/
def State.setTagAt (s : State) (k : Nat) (t : Tag) : State := s.setMesh { s.mesh with tags := mset s.mesh.tags .idle k t }

/-- MESH_INI_STAT of a source follows its tags (R378, R383): the busy and the quarantined ones, and the highest number of busy ones. -/
def State.iniStat (s : State) (src : Nat) : State :=
  let l := s.mesh.tags.filter (fun e => e.1 / 64 == src)
  let busy := (l.filter (fun e => match e.2 with
    | .busy _ _ => true
    | _ => false)).length
  let quar := (l.filter (fun e => e.2 == .quarantined)).length
  let s1 := (s.put (MESH_INI_STAT_OUT src) busy).put (MESH_INI_STAT_QUAR src) quar
  s1.put (MESH_INI_STAT_PEAK src) (max (s1.f (MESH_INI_STAT_PEAK src)) busy)

/-- The number of tags of a source: 64, and 1 for the debug port (R378, R481). -/
def tagCount (src : Nat) : Nat := if src = 21 ∨ src = 22 then 1 else 64

/-- An access enters its initiator port with a free tag (R378); none when no tag is free. Which free tag it takes is not in the spec:
the lowest (log entry 22). -/
def State.meshQueue (s : State) (a : Acc) : Option State :=
  match (List.range (tagCount a.src)).find? (fun t => s.tagAt (64 * a.src + t) == .idle) with
  | none => none
  | some t =>
    let k := 64 * a.src + t
    let s1 := s.setTagAt k (.queued { a with tag := t })
    some (s1.setMesh { s1.mesh with out := s1.mesh.out ++ [k] })

/-- A reset reaches an initiator (R391): accesses that have not entered the mesh are discarded, the responses of the others will be,
quarantined tags are free (R383). -/
def State.initReset (s : State) (src : Nat) : State :=
  let s1 := s.each (List.range 64) (fun t u =>
    let k := 64 * src + t
    match u.tagAt k with
    | .idle => u
    | .queued _ => u.setTagAt k .idle
    | .busy a _ => u.setTagAt k (.busy a true)
    | .quarantined => u.setTagAt k .idle)
  (s1.setMesh { s1.mesh with
    out := s1.mesh.out.filter (fun k => k / 64 != src)
    heldWr := s1.mesh.heldWr.filter (fun e => e.1 != src)
    inbox := mset s1.mesh.inbox [] src [] }).iniStat src

/-- A lattice reset (R249, R391): accesses of the Caller in the mesh complete, and no step awaits their responses. -/
def State.callerOrphans (s : State) : State :=
  s.setMesh { s.mesh with
    inbox := mset s.mesh.inbox [] 18 []
    tags := s.mesh.tags.map (fun e => if e.1 / 64 = 18 then
      (e.1, match e.2 with
        | .queued a => .queued { a with ref := 4096 }
        | .busy a d => .busy { a with ref := 4096 } d
        | t => t) else e) }

/-! ### Registers and state of a core -/

/-- The source number of core `c` (R431). -/
def coreSrc (c : Nat) : Nat := c + 1

/-- The counter-tree leaf of core `c` (R431). -/
def coreLeaf (c : Nat) : Nat := if c = 16 then 519 else 32 * c + 25

/-- PC with PCR as bit 16. -/
def State.pcOf (s : State) (c : Nat) : Nat := s.f (ST_STAT_PC c) + 2 ^ 16 * s.f (ST_STAT_PCR c)

/-- Set PC and PCR. -/
def State.setPc (s : State) (c v : Nat) : State := (s.put (ST_STAT_PC c) v).put (ST_STAT_PCR c) (v / 2 ^ 16)

/-- The state of a core: 0 RESET, 1 RUN, 2 WAIT, 3 HALTED, 4 STOPPED. -/
def State.coreSt (s : State) (c : Nat) : Nat := s.f (ST_STAT_STATE c)

/-- The target port of core `c`'s register block (R366). -/
def corePort (c : Nat) : Nat := if c = 16 then 84 else 65 + c / 4 * 4

/-- The core's clock runs (R158): STW has no gate. -/
def State.coreClock (s : State) (c : Nat) : Bool :=
  c == 16 || (match mget s.clk.gate .opened c with
    | .opened => true
    | .closing => true
    | _ => false)

/-- The debugger is attached (R490). -/
def State.attached (s : State) : Bool := s.on DBG_CTRL_ATTACHED

/-! ### Pending inputs (R457 to R459) -/

/-- Input `j` pends. -/
def State.irqPend (s : State) (c j : Nat) : Bool :=
  if j < 32 then (s.reg (ST_IRQ_PEND_LO c)).toNat.testBit j else (s.reg (ST_IRQ_PEND_HI c)).toNat.testBit (j - 32)

/-- Set PEND of input `j`; inputs 9 to 15 never pend. -/
def State.setPend (s : State) (c j : Nat) : State :=
  if 9 ≤ j ∧ j < 16 then s
  else if j < 32 then s.setReg (ST_IRQ_PEND_LO c) (s.reg (ST_IRQ_PEND_LO c) ||| (1#32 <<< j))
  else s.setReg (ST_IRQ_PEND_HI c) (s.reg (ST_IRQ_PEND_HI c) ||| (1#32 <<< (j - 32)))

/-- Clear PEND of input `j`. -/
def State.clrPend (s : State) (c j : Nat) : State :=
  if j < 32 then s.setReg (ST_IRQ_PEND_LO c) (s.reg (ST_IRQ_PEND_LO c) &&& ~~~ (1#32 <<< j))
  else s.setReg (ST_IRQ_PEND_HI c) (s.reg (ST_IRQ_PEND_HI c) &&& ~~~ (1#32 <<< (j - 32)))

/-- IPL of a core. -/
def Core.ipl (x : Core) : Nat := bitsOf x.sr 6 5

/-- The pending input with the highest PRIO above IPL, the lowest number among equals (R459). -/
def State.bestIrq (s : State) (c : Nat) : Option Nat :=
  ((List.range 64).filter (fun j => s.irqPend c j && decide ((s.coreOf c).ipl < s.f (ST_IRQ_CFG_PRIO c j)))).foldl (fun b j =>
    match b with
    | none => some j
    | some k => if s.f (ST_IRQ_CFG_PRIO c k) < s.f (ST_IRQ_CFG_PRIO c j) then some j else some k) none

/-! ### Memories (R437 to R439) -/

/-- Words of memory 0 P, 1 X, 2 Y. -/
def coreMemSize (m : Nat) : Nat := if m = 0 then 16384 else 8192

/-- The stored word `i` of memory `m`. -/
def Core.memRaw (x : Core) (m i : Nat) : Nat :=
  (match m with
    | 0 => mget x.pm 0 i
    | 1 => mget x.xm 0 i
    | _ => mget x.ym 0 i).toNat

/-- Replace word `i` of memory `m`. A write to the reserved word ends the reservation (R452). -/
def Core.setRaw (x : Core) (m i v : Nat) : Core :=
  let b := BitVec.ofNat 39 v
  match m with
  | 0 => { x with pm := mset x.pm 0 i b }
  | 1 => { x with xm := mset x.xm 0 i b, resv := if x.resv = some (.word false i) then none else x.resv }
  | _ => { x with ym := mset x.ym 0 i b, resv := if x.resv = some (.word true i) then none else x.resv }

/-- An error event of the core's memories (R438, R457, R471): ST_MEM_ERR, the leaf, input 8. A held UE entry is not replaced. -/
def State.coreMemErr (s : State) (c m i : Nat) (ue : Bool) : State :=
  let held := s.on (ST_MEM_ERR_VALID c)
  let fill := fun (t : State) => (((t.put (ST_MEM_ERR_VALID c) 1).put (ST_MEM_ERR_UE c) (b2n ue)).put (ST_MEM_ERR_MEM c) m).put
    (ST_MEM_ERR_WORD c) i
  let s1 := if held then (if ue && !s.on (ST_MEM_ERR_UE c) then fill s else s).put (ST_MEM_ERR_OVF c) 1 else fill s
  (s1.leafEvent (coreLeaf c) ue 0).setPend c 8

/-- A read of word `i` of memory `m` with its events: what it decodes to. -/
def State.coreMemRead (s : State) (c m i : Nat) : State × Decoded :=
  let d := decode32 ((s.coreOf c).memRaw m i)
  match d with
  | .corrected _ => (s.coreMemErr c m i false, d)
  | .uncorrectable _ => (s.coreMemErr c m i true, d)
  | _ => (s, d)

/-- A 32-bit store with fresh check bits. -/
def State.coreMemWrite (s : State) (c m i v : Nat) (poison : Bool) : State :=
  s.setCore c ((s.coreOf c).setRaw m i (encode32 v poison))

/-- A 16-bit store at half `h` of word `i` (R105, R438): read, merge, write; poison stays. -/
def State.coreMemHalf (s : State) (c m i h v : Nat) : State :=
  let r := s.coreMemRead c m i
  let old := r.2.data
  let new := if h = 0 then old / 2 ^ 16 * 2 ^ 16 + v % 2 ^ 16 else old % 2 ^ 16 + v % 2 ^ 16 * 2 ^ 16
  r.1.coreMemWrite c m i new r.2.bad

/-! ### Halts (R493 to R501) -/

/-- A core becomes HALTED (R494, R495, R501). `group`: other members of a group halt receive their cause. -/
def State.haltNow (s : State) (c why unit : Nat) : State :=
  let x := s.coreOf c
  let s1 := s.setCore c { x with halt := none, stepping := false, resv := none }
  let s2 := s1.when x.resv.isSome (fun t => t.put (DBG_CORE_STAT_RSV_LOST c) 1)
  let mine := fun (e : Nat × Option Unlock) => match e.2 with
    | some u => u.src == coreSrc c
    | none => false
  let s3 := s2.when (s2.sec.unlock.any mine) (fun t =>
    (t.setSec { t.sec with unlock := t.sec.unlock.filter (fun e => !mine e) }).put (DBG_CORE_STAT_LOCKSEQ_ABORT c) 1)
  let s4 := ((s3.put (ST_STAT_STATE c) 3).put (DBG_CORE_STAT_HALTED c) 1).put (DBG_CORE_STAT_WHY c) why
  let s5 := (s4.put (DBG_CORE_STAT_UNIT c) unit).setReg DBG_STAT (s4.reg DBG_STAT ||| (1#32 <<< c))
  s5.raise 320

/-- A halt cause becomes visible to core `c` (R493, R494): RUN and WAIT halt by HALT_ENTRY, STOPPED at once, RESET ignores it. -/
def State.haltCause (s : State) (c why unit : Nat) : State :=
  let st := s.coreSt c
  if !s.attached || (s.coreOf c).halt.isSome then s
  else if st = 1 ∨ st = 2 then s.setCore c { s.coreOf c with halt := some (why, unit) }
  else if st = 4 then s.haltNow c why unit
  else s

/-- What a halt of core `c` brings to the other members and the lattice (R501). -/
def State.haltSpread (s : State) (c why : Nat) : State :=
  if s.attached && (s.f DBG_XTRIG_MEMBERS).testBit c then
    let s1 := s.when (s.on DBG_XTRIG_LAT_ON_HALT) State.stopNow
    if s1.on DBG_XTRIG_GROUP_HALT && why != 5 then
      s1.each (((List.range 17).filter (fun k => k != c && (s1.f DBG_XTRIG_MEMBERS).testBit k))) (fun k t => t.haltCause k 5 0)
    else s1
  else s

/-- HALT_ON_STOP (R501): the node enters STOPPED. -/
def State.haltOnStop (s : State) : State :=
  if s.attached && s.on DBG_XTRIG_HALT_ON_STOP then
    s.each ((List.range 17).filter (fun k => (s.f DBG_XTRIG_MEMBERS).testBit k)) (fun k t => t.haltCause k 6 0)
  else s

/-- The breakpoint that matches the PC of core `c` (R435, R493). -/
def State.bpHit (s : State) (c : Nat) : Option Nat :=
  if s.attached && !(s.coreOf c).skipBp then
    (List.range 4).find? (fun i => s.on (DBG_CORE_BP_EN c i) && s.f (DBG_CORE_BP_PC c i) == s.f (ST_STAT_PC c) &&
      s.f (DBG_CORE_BP_PCR c i) == s.f (ST_STAT_PCR c))
  else none

/-- The watchpoint that matches a data access at a local address (R493). -/
def State.wpHit (s : State) (c a : Nat) (store : Bool) : Option Nat :=
  if s.attached then
    (List.range 2).find? (fun i => s.on (DBG_CORE_WP_CFG_EN c i) &&
      s.on (if store then DBG_CORE_WP_CFG_WR c i else DBG_CORE_WP_CFG_RD c i) &&
      a >>> s.f (DBG_CORE_WP_CFG_MASKBITS c i) == s.f (DBG_CORE_WP_ADDR_ADDR c i) >>> s.f (DBG_CORE_WP_CFG_MASKBITS c i))
  else none

/-! ### Exceptions (R454 to R456) -/

/-- An exception of core `c` whose faulting instruction is at `pc`; `epc` is what EPC takes, `info` the TRAP code. A cause without an
EADDR gives none, and the value is free (log entry 21). -/
def State.coreExc (s : State) (c code : Nat) (addr : Option Nat) (pc epc info : Nat) : State :=
  let x := s.coreOf c
  if x.sr.testBit 7 then
    let s1 := ((s.put (ST_STAT_STATE c) 4).put (ST_EXC_LOG_DOUBLE c) 1).raise (256 + c)
    if x.stepping then (s1.setCore c { x with stepping := false }).haltCause c 1 0 else s1
  else
    let ea := addr.getD s.freeVal
    let s0 := if addr.isNone then s.freeNext else s
    let y := ((((x.setCtl 2 x.srRead).setCtl 1 (epc % 2 ^ 17)).setCtl 3 (code + info % 256 * 2 ^ 8)).setCtl 4 ea)
    let z := { y.setCtl 0 (x.sr / 32 * 32 + x.sr % 16 + (if x.sr.testBit 7 then 0 else 128)) with resv := none, skipBp := false }
    let vb := z.ctlReg 28
    let s1 := s0.setCore c z
    let s2 := (((((s1.put (ST_EXC_LOG_VALID c) 1).put (ST_EXC_LOG_PCR c) (pc / 2 ^ 16)).put (ST_EXC_LOG_CAUSE c) code).put
      (ST_EXC_LOG_EPC c) pc).put (ST_EXC_ADDR_EADDR c) ea)
    let s3 := (s2.put (ST_STAT_STATE c) 1).setPc c ((bitsOf vb 15 10 * 2 ^ 10 + 0x100 + 4 * code) % 2 ^ 16 + bitsOf vb 16 16 * 2 ^ 16)
    if x.stepping then (s3.setCore c { s3.coreOf c with stepping := false }).haltCause c 1 0 else s3

/-! ### Timers and watchdog (R460 to R464) -/

/-- The load value of the watchdog: 0 acts as 1. -/
def State.wdtLoadVal (s : State) (c : Nat) : Nat := max 1 (s.f (ST_WDT_LOAD_LOAD c))

/-- The watchdog loads CNT; OPENED is set when OPEN is not below LOAD (R462). -/
def State.wdtReload (s : State) (c : Nat) : State :=
  let s1 := s.put (ST_WDT_CNT_CNT c) (s.wdtLoadVal c)
  s1.when (decide (s.wdtLoadVal c ≤ s.f (ST_WDT_OPEN_OPEN c))) (fun t => t.put (ST_WDT_STAT_OPENED c) 1)

/-- A valid kick, or EN from 0 to 1 (R461): OPENED clears and CNT loads. -/
def State.wdtStart (s : State) (c : Nat) : State := (s.put (ST_WDT_STAT_OPENED c) 0).wdtReload c

/-- The watchdog bites (R463): WHY 0 EXPIRED, 1 EARLY, 2 BADKEY. -/
def State.wdtBite (s : State) (c why : Nat) : State :=
  let s1 := ((s.put (ST_WDT_STAT_BITE c) 1).put (ST_WDT_STAT_WHY c) why).raise (224 + c)
  if s1.on (ST_WDT_CTRL_RESET_EN c) then s1.setCore c { s1.coreOf c with wdtDue := true }
  else (s1.setPend c 2).wdtReload c

/-- CNT of the watchdog has become 0 at this edge (R462, R463). -/
def State.wdtExpire (s : State) (c : Nat) : State :=
  (s.setCore c { s.coreOf c with expired := some s.fig.toNat }).wdtBite c 0

/-- A write to ST_WDT_KICK (R461 to R463). A kick stamped on the edge at which CNT became 0 belongs to the expiry (R41, R462). -/
def State.wdtKick (s : State) (c : Nat) (v : Word) : State :=
  if !s.on (ST_WDT_CTRL_EN c) then s
  else if v ≠ 0xA5C3#32 then s.wdtBite c 2
  else if (s.coreOf c).expired = some s.fig.toNat then s
  else if s.on (ST_WDT_STAT_OPENED c) then s.wdtStart c
  else s.wdtBite c 1

/-- Timer `i` reaches 0 (R460). -/
def State.timerExpire (s : State) (c i : Nat) : State :=
  let s1 := s.setPend c i
  s1.put (ST_TMR_CNT_CNT c i) (if s1.on (ST_TMR_CTRL_AUTO c i) then s1.f (ST_TMR_LOAD_LOAD c i) else 0)

/-- One CORE edge of timer `i`. -/
def State.timerTick (s : State) (c i : Nat) : State :=
  if s.on (ST_TMR_CTRL_EN c i) then
    let x := s.coreOf c
    let k := mget x.pre 0 i
    if k < s.f (ST_TMR_CTRL_PRESCALE c i) then s.setCore c { x with pre := mset x.pre 0 i (k + 1) }
    else
      let s1 := s.setCore c { x with pre := mset x.pre 0 i 0 }
      let n := s1.f (ST_TMR_CNT_CNT c i)
      if n = 0 then s1 else if n = 1 then s1.timerExpire c i else s1.put (ST_TMR_CNT_CNT c i) (n - 1)
  else s

/-- What writes of ST_TMR_CNT have brought takes effect (R460): the count of timer `i` becomes the value written. -/
def State.cntTake (s : State) (c i : Nat) : State :=
  match (s.coreOf c).cntDue.find? (fun e => e.1 == i) with
  | none => s.timerTick c i
  | some e => s.put (ST_TMR_CNT_CNT c i) e.2

/-- One CORE edge of the watchdog. -/
def State.wdtTick (s : State) (c : Nat) : State :=
  if s.on (ST_WDT_CTRL_EN c) then
    let n := s.f (ST_WDT_CNT_CNT c)
    if n = 0 then s
    else
      let s1 := s.put (ST_WDT_CNT_CNT c) (n - 1)
      if n = 1 then s1.wdtExpire c
      else s1.when (decide (n - 1 = s.f (ST_WDT_OPEN_OPEN c))) (fun t => t.put (ST_WDT_STAT_OPENED c) 1)
  else s

/-- The core's clock restarts (R464): the watchdog's count is raised to WDT_RESUME_MIN. -/
def State.coreThaw (s : State) (c : Nat) : State :=
  if s.on (ST_WDT_CTRL_EN c) then
    s.put (ST_WDT_CNT_CNT c) (max (s.f (ST_WDT_CNT_CNT c)) (s.f (ST_WDT_RESUME_WDT_RESUME_MIN c)))
  else s

/-! ### Core reset (R465, R466) -/

/-- The core starts at program address 0, or stays held (R466, R493 cause 7). -/
def State.coreStart (s : State) (c : Nat) : State :=
  let s1 := (s.setPc c 0).put (ST_STAT_STATE c) 1
  if s1.attached && s1.on (DBG_CORE_CTRL_HALT_ON_RELEASE c) then (s1.haltNow c 7 0).haltSpread c 7 else s1

/-- A core reset with a cause of ST_RESET_CAUSE; `self`: SELF_RESET, which always restarts the core. -/
def State.coreReset (s : State) (c cause : Nat) (self : Bool) : State :=
  let x := s.coreOf c
  let s1 := s.setCore c { Core.init with pm := x.pm, xm := x.xm, ym := x.ym }
  let base := ST_CTRL c
  let s2 := s1.resetRegs (fun a => decide (base ≤ a) && decide (a < base + 0x10000) && (match regAt a with
    | some r => r.core
    | none => false))
  let s3 := (s2.initReset (coreSrc c)).orderReset (coreSrc c)
  let s4 := (s3.put (ST_RESET_CAUSE_CAUSE c) cause).satF (ST_RESET_CAUSE_COUNT c) 1
  let s5 := (s4.put (DBG_CORE_STAT_HALTED c) 0).setReg DBG_STAT (s4.reg DBG_STAT &&& ~~~ (1#32 <<< c))
  let s6 := (s5.put (ST_CTRL_BOOT c) 0).setReg (ST_STAT c) 0
  let s7 := if self then s6.put (ST_CTRL_RESET c) 0
    else s6.when (s6.on (ST_CTRL_HOLD_ON_RESET c)) (fun t => t.put (ST_CTRL_RESET c) 1)
  if s7.on (ST_CTRL_RESET c) then s7 else s7.coreStart c

/-- RESET of ST_CTRL becomes 1: the core is held in core reset (R466). -/
def State.coreHold (s : State) (c : Nat) : State :=
  if s.on (ST_CTRL_RESET c) then s else (s.put (ST_CTRL_RESET c) 1).coreReset c 1 false

/-- RESET of ST_CTRL becomes 0: the core starts at program address 0 (R466). -/
def State.coreRelease (s : State) (c : Nat) : State :=
  if s.on (ST_CTRL_RESET c) then (s.put (ST_CTRL_RESET c) 0).coreStart c else s

/-! ### External access to the memories (R439) -/

/-- The memory and word that ST_MEM_ADDR names; none past the end. -/
def State.stMemAt (s : State) (c : Nat) : Option (Nat × Nat) :=
  let a := s.f (ST_MEM_ADDR_ADDR c)
  let m := a / 2 ^ 14
  if m < 3 ∧ a % 2 ^ 14 < coreMemSize m then some (m, a % 2 ^ 14) else none

/-- AUTO_INC after an ST_MEM_DATA access. -/
def State.stMemInc (s : State) (c : Nat) : State :=
  s.when (s.on (ST_MEM_ADDR_AUTO_INC c)) (fun t => t.addF (ST_MEM_ADDR_ADDR c) 1)

/-- A read of ST_MEM_DATA: STATUS, CAUSE and data (R439); `peek` changes nothing (R484). -/
def State.stMemRead (s : State) (c : Nat) (peek : Bool) : State × Rsp :=
  match s.stMemAt c with
  | none => (if peek then s else s.stMemInc c, ⟨4, 1, 0, 0⟩)
  | some (m, i) =>
    let r := s.coreMemRead c m i
    let rsp : Rsp := match r.2 with
      | .uncorrectable _ => ⟨4, 0x31, 0, 0⟩
      | d => ⟨0, 0, d.data, 0⟩
    if peek then (s, rsp) else (r.1.stMemInc c, rsp)

/-- A write of ST_MEM_DATA. -/
def State.stMemWrite (s : State) (c v : Nat) : State × Rsp :=
  match s.stMemAt c with
  | none => (s.stMemInc c, ⟨4, 1, 0, 0⟩)
  | some (m, i) => ((s.coreMemWrite c m i v false).stMemInc c, ⟨0, 0, 0, 0⟩)

/-! ### A core's register block (R432) -/

/-- The timer of offset `o` within a core block: its index, when `o` is its register at `r`. -/
def timerAt (o r : Nat) : Option Nat := if o = r then some 0 else if o = r + 0x10 then some 1 else none

/-- A write of a word to the register at offset `o` of core `c`'s block, from any source. Registers without an effect of their own
take the write by their access codes (R10). -/
def State.coreBlockWrite (s : State) (c o : Nat) (v : Word) : State × Rsp :=
  let ok := fun (t : State) => (t, (⟨0, 0, 0, 0⟩ : Rsp))
  let a := coreBase c + o
  let plain := fun (mask : Word) => s.setReg a ((s.reg a &&& ~~~ mask) ||| (v &&& mask))
  let w1c := fun (mask : Word) => s.setReg a (s.reg a &&& ~~~ (v &&& mask))
  let locked := s.on (ST_WDT_CTRL_LOCK c)
  if o = 0 then
    let s1 := s.put (ST_CTRL_HOLD_ON_RESET c) (fget v 30 30)
    if fget v 28 28 = 1 then ok (s1.coreReset c 1 true)
    else if fget v 31 31 = 1 then ok (s1.coreHold c) else ok (s1.coreRelease c)
  else if o = 0x10 then ok (plain 0x8000FFFF#32)
  else if o = 0x14 then s.stMemWrite c v.toNat
  else if o = 0x20 then ok (w1c 0x80000000#32)
  else if o = 0x28 ∨ o = 0x30 then ok (if fget v 31 31 = 1 then s.setReg a (s.reg a &&& 0x3FFFFFFF#32) else s)
  else if o = 0x40 then ok (s.each (bitList (fget v 3 0) 4) (fun k t => (t.setPend c (4 + k)).put (ST_DOORBELL_RING c) 0))
  else if o = 0x44 then ok ((s.put (ST_SWIRQ_MSG c) (fget v 15 0)).when (fget v 31 31 == 1) (fun t => t.raise (288 + c)))
  else match timerAt o 0x100 with
  | some i =>
    let was := s.on (ST_TMR_CTRL_EN c i)
    let t := plain 0xC0FF0000#32
    ok (if !was && fget v 31 31 == 1 then
        (t.put (ST_TMR_CNT_CNT c i) (t.f (ST_TMR_LOAD_LOAD c i))).setCore c { t.coreOf c with pre := mset (t.coreOf c).pre 0 i 0 }
      else t)
  | none =>
    if (timerAt o 0x104).isSome then ok (s.setReg a v)
    else if o = 0x108 ∨ o = 0x118 then
      let x := s.coreOf c
      ok (s.setCore c { x with cntDue := ((if o = 0x108 then 0 else 1), v.toNat) :: x.cntDue.filter (fun e => e.1 != (if o = 0x108 then 0 else 1)) })
    else if o = 0x200 then
      if locked then ok (s.when (fget v 30 30 == 1) (fun t => t.put (ST_WDT_CTRL_LOCK c) 1))
      else
        let was := s.on (ST_WDT_CTRL_EN c)
        let t := (plain 0xA0000000#32).when (fget v 30 30 == 1) (fun t => t.put (ST_WDT_CTRL_LOCK c) 1)
        ok (if !was && fget v 31 31 == 1 then t.wdtStart c else t)
    else if o = 0x204 ∨ o = 0x208 then ok (if locked then s else s.setReg a v)
    else if o = 0x210 then ok (s.wdtKick c v)
    else if o = 0x214 then ok (w1c 0x80000000#32)
    else if o = 0x218 then ok (plain 0x00FFFFFF#32)
    else if 0x400 ≤ o ∧ o < 0x500 then ok (if o < 0x440 then plain 0xC0000000#32 else plain 0xE00001FF#32)
    else if o = 0x500 ∨ o = 0x504 then ok (w1c 0xFFFFFFFF#32)
    else ok s

/-- ST_STAT as it reads: GATED while the gate is closed. -/
def State.stStatRead (s : State) (c : Nat) : Word :=
  if s.coreClock c then s.reg (ST_STAT c) else fput (s.reg (ST_STAT c)) 31 29 5

/-- A read of the register at offset `o` of core `c`'s block. -/
def State.coreBlockRead (s : State) (c o : Nat) (peek : Bool) : State × Rsp :=
  if o = 0x14 then s.stMemRead c peek
  else if o = 4 then (s, ⟨0, 0, (s.stStatRead c).toNat, 0⟩)
  else if o = 0x40 then (s, ⟨0, 0, (List.range 4).foldl (fun n k => n + b2n (s.irqPend c (4 + k)) * 2 ^ k) 0, 0⟩)
  else if o = 0x210 then (s, ⟨0, 0, 0, 0⟩)
  else (s, ⟨0, 0, (s.reg (coreBase c + o)).toNat, 0⟩)

end Sys2Proof.Machine
end

