-- ==== Sys2Proof/Machine/LaneRx.lean ====
section
/-! DEFINITION. Sys2Proof/Machine/LaneRx.lean: the receiver of a Gleis port, slot by slot (file 08): decoding (R291), the lanes (R313,
R321), classifying slots and gathering frames (R292 to R298), the receiver's rule for sequenced frames (R309). -/

namespace Sys2Proof.Machine

/-- What a slot completes at a receiver. -/
inductive RxEvt where
  /-- a sequenced frame that R298 discards -/
  | fail
  /-- a bulk frame that passes R298: LSEQ, ACK, bundles -/
  | bulk (lseq ack : Nat) (es : List Entry)
  /-- a cut-in or token that passes R298 -/
  | urgent (lseq : Nat) (u : Urgent)
  /-- a retry request -/
  | retry (lseq : Nat)
  /-- CREDIT: ACK and the counts of LOCAL, T0, T1, UL, UT0, UT1 -/
  | credit (ack : Nat) (counts : List Nat)
  /-- SPARE: SPARE_OP and lane -/
  | spare (op lane : Nat)
  /-- a beat mark: K23.7 decoded cleanly, the CRC-8 matches, the count -/
  | beat (clean ok : Bool) (count : Nat)
deriving DecidableEq, Repr

/-! ### Lanes -/

/-- The physical lane of logical lane `k` (R313). -/
def State.physLane (s : State) (n k : Nat) : Nat := if s.on (GLS_STAT_REVERSED n) then 8 - k else k

/-- The physical lane on which logical lane `k` arrives (R321). -/
def State.carrier (s : State) (n k : Nat) : Nat := s.physLane n (if s.f (GLS_STAT_RX_SPARE n) = k then 8 else k)

/-- Lane `l` receives a group (R291, R313): its error counts at once, its running disparity; the symbol, a code error, a disparity error. -/
def State.rxGroup (s : State) (n l g : Nat) : State × Option Sym × Bool × Bool :=
  let p := s.portOf n
  let d := decodeGroup (if s.on (GLS_LANE_STAT_POL_INV n l) then 1023 - g % 1024 else g % 1024) (mget p.rxRd none l)
  let s1 := s.setPort n { p with
    rxRd := mset p.rxRd none l (some d.2.2.2)
    winCode := if d.2.1 then mset p.winCode 0 l (mget p.winCode 0 l + 1) else p.winCode
    winDisp := if d.2.2.1 then mset p.winDisp 0 l (mget p.winDisp 0 l + 1) else p.winDisp }
  let s2 := if d.2.1 then s1.satF (GLS_LANE_ERR_CODE n l) 1 else s1
  (if d.2.2.1 then s2.satF (GLS_LANE_ERR_DISP n l) 1 else s2, d.1, d.2.1, d.2.2.1)

/-- The groups of one slot, of physical positions 0 to 8. -/
def rxGroups (n : Nat) : Nat → List Nat → State → State × List (Option Sym × Bool × Bool)
  | _, [], s => (s, [])
  | l, g :: rest, s =>
    let r := s.rxGroup n l g
    let q := rxGroups n (l + 1) rest r.1
    (q.1, r.2 :: q.2)

/-! ### Slots -/

/-- The bytes of symbols, 0 for those that are not data. -/
def symBytes (l : List (Option Sym)) : List Nat := l.map (fun x => (x.map (fun s => if s.k then 0 else s.b)).getD 0)

/-- Every symbol is data. -/
def allData (l : List (Option Sym)) : Bool := l.all (fun x => x.any (fun s => !s.k))

/-- A frame fails R298: what is half received is dropped, and the receiver awaits a point of synchronisation. -/
def Port.rxFail (p : Port) : Port × List RxEvt := ({ p with rxBulk := none, rxIns := none, rxLost := true }, [.fail])

/-- A point of synchronisation (R298). -/
def Port.rxSync (p : Port) : Port := { p with rxLost := false }

/-- What a status slot says (R305): nothing when it fails its CRC-8, shows a code error or has another STYPE. -/
def statusEvt (b : List Nat) (code : Bool) : List RxEvt :=
  if code ∨ crc8 ((b.drop 1).take 6) ≠ b.getD 7 0 then []
  else match b.getD 1 0 / 16 with
    | 0 => [.credit (b.getD 2 0) [b.getD 3 0, b.getD 4 0, b.getD 5 0, b.getD 1 0 % 16, b.getD 6 0 % 16, b.getD 6 0 / 16]]
    | 1 => [.spare (b.getD 1 0 % 16) (b.getD 2 0)]
    | _ => []

/-- A payload slot of the bulk frame in progress, or a slot in its place. -/
def Port.rxPayload (p : Port) (r : RxBulk) (b : List Nat) (err : Bool) : Port × List RxEvt :=
  if r.need = 0 then p.rxFail else ({ p with rxBulk := some { r with need := r.need - 1, body := r.body ++ b, err := r.err || err } }, [])

/-- The trailer of a bulk frame (R294, R298). -/
def Port.rxTrailer (p : Port) (b : List Nat) (err : Bool) : Port × List RxEvt :=
  match p.rxBulk with
  | none => if p.rxLost then (p.rxSync, []) else p.rxFail
  | some r =>
    let count := r.head.getD 0 0 % 16 + 1
    if r.need = 0 ∧ !r.err ∧ !err ∧ ofBytes ((b.drop 3).take 4) = crc32 (r.head ++ r.body ++ b.take 3) then
      ({ p with rxBulk := none, rxLost := false },
        [.bulk (b.getD 0 0) (b.getD 1 0) ((List.range count).map (fun j => entryOf ((r.body.drop (12 * j)).take 12)))])
    else p.rxFail

/-- The header of a cut-in or a token: the slots that follow it (R296, R297). -/
def Port.rxHeader (p : Port) (token : Bool) (h : List Nat) (err : Bool) : Port × List RxEvt :=
  let kind := h.getD 0 0 % 4
  if !token ∧ 2 ≤ kind then p.rxFail
  else ({ p.rxSync with rxIns := some ⟨token, h, if token ∨ kind = 0 then 1 else 3, [], err⟩ }, [])

/-- A slot outside a cut-in or token, `l` being the symbols of lanes 0 to 7 (R292); `err`: a lane shows an error, `code`: a code error,
`clean`: L0 shows none. -/
def Port.rxFresh (p : Port) (l : List (Option Sym)) (err code clean : Bool) : Port × List RxEvt :=
  let b := symBytes l
  let tail := l.drop 1
  let bad := err || !allData tail
  match l.headD none with
  | none => match p.rxBulk with
    | some r => p.rxPayload r b true
    | none => (p, [])
  | some x =>
    if x = k277 then
      ({ p.rxSync with rxBulk := some ⟨b.drop 1, bulkSlots (b.getD 1 0 % 16 + 1), [], bad⟩ }, if p.rxBulk.isSome then [.fail] else [])
    else if x = k282 then p.rxHeader false (b.drop 1) bad
    else if x = k281 then p.rxHeader true (b.drop 1) bad
    else if x = k283 then (p.rxSync, if !bad ∧ crc8 [b.getD 1 0] = b.getD 2 0 then [.retry (b.getD 1 0)] else [])
    else if x = k285 ∧ allData tail then (p.rxSync, statusEvt b code)
    else if x = k237 then
      (p.rxSync, [.beat clean (!bad && crc8 ((b.drop 1).take 2) == b.getD 3 0) (ofBytes ((b.drop 1).take 2))])
    else if !x.k ∧ l.getD 7 none = some k297 then p.rxTrailer b (err || !allData (l.take 7))
    else match p.rxBulk with
      | some r => p.rxPayload r b (err || !allData l)
      | none => (p, [])

/-- The last slot of a cut-in or token: its check (R296 to R298). -/
def Port.rxInsEnd (p : Port) (r : RxIns) : Port × List RxEvt :=
  let h := ofBytes r.h
  let good := if r.token then ofBytes ((r.body.drop 1).take 2) = urgentCrc h (r.body.take 1) else h / 2 ^ 40 = urgentCrc h r.body
  if good ∧ !r.err then ({ p with rxIns := none }, [.urgent (h / 2 ^ 32 % 256) (urgentOf r.token h r.body)])
  else p.rxFail

/-- One slot at the receiver (R292): a slot of the cut-in or token in progress, or another. -/
def Port.rxSlot (p : Port) (l : List (Option Sym)) (err code clean : Bool) : Port × List RxEvt :=
  match p.rxIns with
  | none => p.rxFresh l err code clean
  | some r =>
    if (l.headD none).any (fun x => x.k) then
      let f := p.rxFail
      let g := f.1.rxFresh l err code clean
      (g.1, f.2 ++ g.2)
    else
      let r1 : RxIns := { r with need := r.need - 1, body := r.body ++ symBytes l, err := r.err || err || !allData l }
      if r1.need = 0 then p.rxInsEnd r1 else ({ p with rxIns := some r1 }, [])

/-- One slot arrives on port `n`: a skip is deleted (R324). -/
def State.rxSlot (s : State) (n : Nat) (slot : List Nat) : State × List RxEvt :=
  let r := rxGroups n 0 (slot.take 9) s
  let at_ := fun (k : Nat) => r.2.getD (s.carrier n k) (none, true, false)
  let l := (List.range 8).map (fun k => (at_ k).1)
  if l.headD none = some k280 then r
    |> fun r => (r.1, [])
  else
    let code := (List.range 8).any (fun k => (at_ k).2.1)
    let err := code || (List.range 8).any (fun k => (at_ k).2.2)
    let clean := !(at_ 0).2.1 && !(at_ 0).2.2
    let q := (r.1.portOf n).rxSlot l err code clean
    (r.1.setPort n q.1, q.2)

/-- Slots arrive on port `n`, in order. -/
def rxSlots (n : Nat) : List (List Nat) → State → State × List RxEvt
  | [], s => (s, [])
  | x :: rest, s =>
    let r := s.rxSlot n x
    let q := rxSlots n rest r.1
    (q.1, r.2 ++ q.2)

/-! ### Sequenced frames (R309) -/

/-- One frame is discarded at the receiver. -/
def State.discardOne (s : State) (n : Nat) : State := s.satF (GLS_CNT_DISCARD_COUNT n) 1

/-- A frame that is ahead of E or fails R298 is discarded; a retry request for E falls due unless one was made for E. -/
def State.rxRefuse (s : State) (n : Nat) : State :=
  let e := s.f (GLS_SEQ_RX_EXPECT n)
  let s1 := s.discardOne n
  if (s1.portOf n).asked = some e then s1
  else s1.setPort n { s1.portOf n with asked := some e, askFig := s.fig.toNat, retryDue := some e }

/-- The receiver's rule for a frame that passes R298. The second component: it is accepted. -/
def State.rxSeq (s : State) (n lseq : Nat) : State × Bool :=
  let e := s.f (GLS_SEQ_RX_EXPECT n)
  if lseq = e then
    ((s.put (GLS_SEQ_RX_EXPECT n) (e + 1)).setPort n { s.portOf n with asked := none, retryDue := none }, true)
  else if sext 8 (lseq + 256 - e) < 0 then (s.discardOne n, false)
  else (s.rxRefuse n, false)

/-- ACK releases every frame before it (R308); a replay goes on with the first that stays. -/
def State.ackTo (s : State) (n ack : Nat) : State :=
  let p := s.portOf n
  let k := (ack + 256 - s.f (GLS_SEQ_ACKED n)) % 256
  if k = 0 ∨ p.retry.length < k then s
  else
    let rest := p.retry.drop k
    (s.setPort n { p with
      retry := rest, ackFig := s.fig.toNat
      rep := p.rep.bind (fun q => if rest.any (fun x => x.1 == q) then some q else rest.head?.map (·.1)) }).put (GLS_SEQ_ACKED n) ack

/-- Slots arrive on port `n` for a command that names what they complete: events that are not `mine` are another command's, and then nothing
happens (log entry 50). A frame that fails R298 may be among them; `act` is what each of `mine` does. -/
def State.receive (s : State) (n : Nat) (slots : List (List Nat)) (mine : RxEvt → Bool) (act : RxEvt → State → State) : State :=
  let r := rxSlots n slots s
  if s.portUp n && r.2.all (fun e => e == .fail || mine e) then
    r.1.each r.2 (fun e t => if !t.portUp n then t else if e = .fail then t.rxRefuse n else act e t)
  else s

end Sys2Proof.Machine
end

