-- ==== Sys2Proof/Machine/LaneTx.lean ====
section
/-! DEFINITION. Sys2Proof/Machine/LaneTx.lean: the transmitter of a Gleis port, slot by slot (file 08): what is due at a slot boundary
(R299), the replay (R308), the training sequences (R311, R312, R320), what each lane carries (R292, R321, R324). -/

namespace Sys2Proof.Machine

/-! ### Sequenced frames -/

/-- The head of the urgent queue with its pool, when it can be sent (R299 row 2, R303). -/
def State.urgentDue (s : State) (n : Nat) : Option (Urgent × Nat) :=
  match (s.portOf n).urgQ with
  | [] => none
  | u :: _ =>
    let p := s.poolFor n u.dest u.tc true
    if s.windowOpen n ∧ 0 < s.poolCredit n p then some (u, p) else none

/-- The frame that the replay has reached (R308). -/
def Port.repFrame (p : Port) : Option (Nat × Frm × Nat) := p.rep.bind (fun q => p.retry.find? (fun x => x.1 == q))

/-- The frame that the replay has reached is sent: its count and GLS_CNT_RETRY rise, the replay goes on to the next (R308 to R310). -/
def State.repNext (s : State) (n : Nat) : State :=
  let p := s.portOf n
  match p.rep with
  | none => s
  | some q =>
    let next := ((p.retry.dropWhile (fun x => x.1 != q)).drop 1).head?
    (s.setPort n { p with
      retry := p.retry.map (fun x => if x.1 = q then (x.1, x.2.1, x.2.2 + 1) else x)
      rep := next.map (·.1) }).satF (GLS_CNT_RETRY_COUNT n) 1

/-- The slots of an insertion begin: the first goes on the line, the others follow it (R292). -/
def State.insertSlots (s : State) (n : Nat) (l : List (List Sym)) : State × List Sym :=
  (s.setPort n { s.portOf n with ins := l.drop 1 }, l.headD commaIdle)

/-! ### Status (R305) -/

/-- A SPARE status while a sparing step is pending, an answer once, else CREDIT. -/
def State.statusOut (s : State) (n : Nat) : State × List Sym :=
  let p := s.portOf n
  match p.spareOut with
  | (op, k) :: rest =>
    (s.setPort n { p with spareOut := if op = 3 ∨ op = 6 then rest else rest ++ [(op, k)] }, spareStatus op k)
  | [] => (s, creditStatus (s.f (GLS_SEQ_RX_EXPECT n)) p.freed)

/-! ### The slot boundary -/

/-- Step 2 of R321: at a slot boundary after the frame in progress, the lane goes on LS as well, or back home; MIRROR follows. -/
def State.mirrorStart (s : State) (n : Nat) : State :=
  let p := s.portOf n
  match p.txStep with
  | some (k, back, false) =>
    if p.cur.isNone then s.setPort n { p with txStep := some (k, back, true), spareOut := p.spareOut ++ [(if back then 5 else 2, k)] } else s
  | _ => s

/-- The next slot of the bulk frame in progress (R294, R301): the trailer takes the LSEQ of a frame that is new. -/
def State.bulkOut (s : State) (n : Nat) (c : TxBulk) : State × List Sym :=
  if c.sent ≤ bulkSlots c.es.length then
    (s.setPort n { s.portOf n with cur := some { c with sent := c.sent + 1 } }, bulkSlot c.es c.sent)
  else
    let r := match c.lseq with
      | some q => (s, q)
      | none => s.assignSeq n (.bulk c.es)
    (r.1.setPort n { r.1.portOf n with cur := none }, bulkTrailer c.es r.2 (s.f (GLS_SEQ_RX_EXPECT n)))

/-- Rows 6 to 8 of R299: the bulk frame in progress, a replayed one, a comma idle. -/
def State.bulkDue (s : State) (n : Nat) : State × List Sym :=
  let p := s.portOf n
  match p.cur with
  | some c => s.bulkOut n c
  | none => match p.repFrame with
    | some (q, .bulk es, _) => (s.repNext n).bulkOut n ⟨es, [], some q, 0⟩
    | _ => (s, commaIdle)

/-- What the transmitter of an up port sends at a slot boundary (R299): the slot, and whether it is a skip. -/
def State.slotDue (s0 : State) (n : Nat) : State × List Sym × Bool :=
  let s := s0.mirrorStart n
  let p := s.portOf n
  let plain := fun (r : State × List Sym) => (r.1, r.2, false)
  match p.retryDue, p.repFrame, s.urgentDue n, p.beatDue with
  | some e, _, _, _ => plain (s.setPort n { p with retryDue := none }, retrySlot e)
  | none, some (q, .urgent u, _), _, _ => plain ((s.repNext n).insertSlots n (u.slots q))
  | none, _, some (u, k), _ =>
    let r := (s.setPort n { p with urgQ := p.urgQ.tail }).assignSeq n (.urgent u)
    plain ((r.1.useCredit n [k]).insertSlots n (u.slots r.2))
  | none, _, none, b :: rest => plain (s.setPort n { p with beatDue := rest }, beatSlot b)
  | none, _, none, [] =>
    if p.statusDue then
      let r := s.statusOut n
      plain (r.1.setPort n { r.1.portOf n with statusDue := false, sinceStatus := 0 }, r.2)
    else if p.skipDue then (s.setPort n { p with skipDue := false, sinceSkip := 0 }, skipSlot, true)
    else plain (s.bulkDue n)

/-- The next slot of an up port: the rest of an insertion, which is never split (R292), or what is due. -/
def State.slotNext (s : State) (n : Nat) : State × List Sym × Bool :=
  let p := s.portOf n
  match p.ins with
  | x :: rest => (s.setPort n { p with ins := rest }, x, false)
  | [] => s.slotDue n

/-! ### Training sequences -/

/-- The type of the training sequences that a state sends (R311); LOCK and ADAPT go on with TS1 (log entry 50). -/
def tsType (st : Nat) : Nat := if st = 4 then 2 else if st = 5 ∨ st = 6 then 3 else 1

/-- The next symbol of the training sequence of lane `l` (R312). -/
def State.tsSym (s : State) (n l : Nat) : Sym :=
  let p := s.portOf n
  let st := s.f (GLS_STAT_STATE n)
  let flags := b2n (st == 4 && p.ready) + 2 * b2n (p.known && !p.restart) + 4 * b2n (st == 6 && p.checked)
  (trainSyms (tsType st) l n s.nodeId flags (s.f (GLS_SEQ_RX_EXPECT n)) (s.f (GLS_SEQ_TX_NEXT n))).getD p.phase k285

/-! ### The lanes -/

/-- What lane `l` carries while the port is up (R320, R321): its symbol of the slot, on LS the lane that it carries or mirrors; a retired
lane, and LS while it is free, send TS1. -/
def State.laneSym (s : State) (n : Nat) (slot : List Sym) (l : Nat) : Sym :=
  let step := (s.portOf n).txStep
  let spared := s.f (GLS_STAT_TX_SPARE n)
  if l < 8 then (if spared = l ∧ step ≠ some (l, true, true) then s.tsSym n l else slot.getD l k285)
  else if spared < 8 then slot.getD spared k285
  else match step with
    | some (k, false, true) => slot.getD k k285
    | _ => s.tsSym n 8

/-- Put the symbols of one slot on the lanes (R291): coded at each lane's running disparity, inverted under TX_POL_INV. -/
def State.putSlot (s : State) (n : Nat) (f : Nat → Sym) : State :=
  let p := s.portOf n
  let l := (List.range 9).map (fun k => encodeSym (f k) (mget p.txRd false k))
  let g := l.zipIdx.map (fun x => if s.on (GLS_LANE_CTRL_TX_POL_INV n x.2) then 1023 - x.1.1 else x.1.1)
  s.setPort n { p with line := p.line ++ [g], txRd := l.zipIdx.foldl (fun t x => mset t false x.2 x.1.2) p.txRd }

/-- A slot passes: the counts since the last status slot and the last skip, and of slots in the present state. -/
def State.slotPass (s : State) (n : Nat) : State :=
  let p := s.portOf n
  s.setPort n { p with sinceStatus := p.sinceStatus + 1, sinceSkip := p.sinceSkip + 1, trained := p.trained + 1 }

/-- The training sequences go on by one symbol. -/
def State.tsPass (s : State) (n : Nat) : State := s.setPort n { s.portOf n with phase := ((s.portOf n).phase + 1) % 16 }

/-- One slot of port `n`: traffic in UP, training sequences in states 1 to 6, with a skip between two of them when one is due. -/
def State.txSlot (s0 : State) (n : Nat) : State :=
  let s := s0.slotPass n
  if s.f (GLS_STAT_STATE n) = 7 then
    let r := s.slotNext n
    if r.2.2 then r.1.putSlot n (fun _ => k280) else (r.1.putSlot n (fun l => r.1.laneSym n r.2.1 l)).tsPass n
  else if (s.portOf n).skipDue ∧ (s.portOf n).phase = 0 then
    (s.setPort n { s.portOf n with skipDue := false, sinceSkip := 0 }).putSlot n (fun _ => k280)
  else (s.putSlot n (fun l => s.tsSym n l)).tsPass n

/-- The slots of a FIG edge (R290): 5 in each 3 f. -/
def State.slotsAt (s : State) : Nat := if s.fig.toNat % 3 = 0 then 1 else 2

/-- What port `n` sends in one figure; idle transmitters in DISABLED and BACKOFF. -/
def State.txPort (s : State) (n : Nat) : State :=
  let st := s.f (GLS_STAT_STATE n)
  let s1 := if (s.portOf n).line.isEmpty then s else s.setPort n { s.portOf n with line := [] }
  if st = 0 ∨ 8 ≤ st then s1 else s1.each (List.range s1.slotsAt) (fun _ t => t.txSlot n)

/-- Every port sends the slots of a figure. -/
def State.txTick (s : State) : State := s.each (List.range 16) (fun n t => t.txPort n)

end Sys2Proof.Machine
end

