-- ==== Sys2Proof/Machine/Gleis.lean ====
section
/-! DEFINITION. Sys2Proof/Machine/Gleis.lean: the commands of a Gleis port that do not reach lattice control's messages (file 08): bulk
frames, transit, credit, retry, sparing, training, eye scan, status and skip slots. -/

namespace Sys2Proof.Machine

/-! ### Bulk frames -/

/-- The bundles of an accepted bulk frame enter their pools (R302). -/
def State.acceptBulk (s : State) (n : Nat) (es : List Entry) : State :=
  s.each es (fun e t =>
    let p := t.poolHere e.dest e.tc false
    t.setBulkPool n p (t.bulkPool n p ++ [⟨t.fig.toNat, e⟩]))

/-- BULK_FRAME (R294, R298, R302, R309): the slots up to the trailer of a bulk frame; its bundles enter their pools, its ACK applies. -/
def execBulkFrame (n : Nat) (slots : List (List Nat)) (s : State) : Out :=
  .next <| s.receive n slots (fun e => match e with
    | .bulk _ _ _ => true
    | _ => false) (fun e t => match e with
      | .bulk lseq ack es =>
        let r := t.rxSeq n lseq
        if r.2 then (r.1.acceptBulk n es).ackTo n ack else r.1
      | _ => t)

/-- Take the bundles of one bulk frame (R301): up to 16 in queue order, each with credit in its pool; once a bundle of a pool is skipped,
every later one of that pool is. The result: taken with their pools, and those that stay. -/
def State.takeBulk (s : State) (n : Nat) :
    List Entry → List Nat → List Nat → List (Entry × Nat) → List Entry → List (Entry × Nat) × List Entry
  | [], _, _, got, left => (got, left)
  | e :: t, used, skipped, got, left =>
    let p := s.poolFor n e.dest e.tc false
    if got.length < 16 ∧ p ∉ skipped ∧ used.getD p 0 < s.poolCredit n p then
      s.takeBulk n t (bump used p 65536 1) skipped (got ++ [(e, p)]) left
    else s.takeBulk n t used (ladd skipped p) got (left ++ [e])

/-- BULK_FRAME_BUILD (R299, R301, R303, R308): the header of a bulk frame is due, and the frame is built; its slots follow at the slot
boundaries. -/
def execBulkFrameBuild (n : Nat) (s : State) : Out :=
  .next <|
    if s.windowOpen n && (s.portOf n).cur.isNone then
      match s.takeBulk n (s.portOf n).bulkQ [] [] [] [] with
      | ([], _) => s
      | (got, left) =>
        (s.setPort n { s.portOf n with bulkQ := left, cur := some ⟨got.map (·.1), got.map (·.2), none, 0⟩ }).useCredit n (got.map (·.2))
    else s

/-- What the check of a pool entry finds (R302): false when a header word is uncorrectable, and the link restarts. -/
def State.poolCheck (s : State) (n : Nat) (e : Ecc) (hdr : Bool) : State × Bool :=
  if hdr then
    let s1 := (((s.leafEvent 517 true 0).glsEvt n 7 167).setPort n { s.portOf n with restart := true }).portDown n 9
    (s1.latSettle, false)
  else match e with
    | .ok => (s, true)
    | .ce => ((s.leafEvent 517 false 0).glsEvt n 6 166, true)
    | .ue => (s.leafEvent 517 true 0, true)

/-- TRANSIT_FORWARD (R256, R300, R304, R306): the head of transit pool `p` of port `n` moves to the transmit queue of its route port, when
that queue takes it; `e`, `hdr`: what the check of the entry finds. -/
def execTransitForward (n p : Nat) (e : Ecc) (hdr : Bool) (s : State) : Out :=
  .next <|
    if s.latState = 0 || !s.on LAT_NODE_VALID then s
    else
      let bulk := p == 1 || p == 2
      let dest := if bulk then (s.bulkPool n p).head?.map (fun x => x.e.dest) else
        if p == 4 || p == 5 then (s.urgPool n p).head?.map (fun x => x.u.dest) else none
      match dest with
      | none => s
      | some d =>
        match s.routeOf d with
        | none => s.routeInvalid d (some n)
        | some q =>
          let c := s.poolCheck n e hdr
          if !c.2 then c.1
          else
            let line := c.1.on (GLS_CTRL_DATELINE q)
            if bulk then
              match c.1.bulkPool n p with
              | [] => c.1
              | x :: rest =>
                match c.1.enqBulk q (x.at_, 0, 8 * n + p) { x.e with tc := x.e.tc || line, poison := x.e.poison || e == .ue } with
                | none => s
                | some t => (t.setBulkPool n p rest).poolFree n p 1
            else
              match c.1.urgPool n p with
              | [] => c.1
              | x :: rest =>
                let y := match x.u with
                  | .bundle b => Urgent.bundle { b with poison := b.poison || e == .ue }
                  | o => o
                match c.1.enqUrgent q (x.at_, 0, 8 * n + p) (if line then y.withTc else y) with
                | none => s
                | some t => (t.setUrgPool n p rest).poolFree n p 1

/-! ### Credit and retry -/

/-- A status slot arrives (R317). -/
def State.statusIn (s : State) (n : Nat) : State := s.setPort n { s.portOf n with statFig := s.fig.toNat }

/-- CREDIT (R303, R305): counts of LOCAL, T0, T1, UL, UT0, UT1, and ACK. -/
def execCreditSlot (n : Nat) (slots : List (List Nat)) (s : State) : Out :=
  .next <| s.receive n slots (fun e => match e with
    | .credit _ _ => true
    | _ => false) (fun e t => match e with
      | .credit ack counts =>
        let u := t.statusIn n
        (u.setPort n { u.portOf n with credit := (List.range 6).map (fun i => counts.getD i 0 % poolBase i) }).ackTo n ack
      | _ => t)

/-- A frame's bundles with POISON = 1 (R310). -/
def Frm.poisoned : Frm → Frm
  | .bulk es => .bulk (es.map (fun e => { e with poison := true }))
  | .urgent (.bundle e) => .urgent (.bundle { e with poison := true })
  | f => f

/-- A replay from LSEQ `q` is requested (R308, R310); `ue`: LSEQs whose data the retry buffer finds uncorrectable; `hdr`: both copies of a
header word fail. A frame that has been replayed RETRY_LIMIT times takes the port down. -/
def State.replay (s : State) (n q : Nat) (ue : List Nat) (hdr : Bool) : State :=
  let p := s.portOf n
  let limit := max 1 (s.f (GLS_LINK_CFG_RETRY_LIMIT n))
  let part := p.retry.dropWhile (fun x => x.1 != q)
  if part.any (fun x => decide (limit ≤ x.2.2)) then (s.portDown n 7).latSettle
  else if hdr then
    ((((s.leafEvent 517 true 0).glsEvt n 7 167).setPort n { p with restart := true }).portDown n 10).latSettle
  else
    s.setPort n { p with
      retry := p.retry.map (fun x => if x.1 ∈ ue then (x.1, x.2.1.poisoned, x.2.2) else x)
      rep := some q, ackFig := s.fig.toNat }

/-- RETRY_REQUEST (R308 to R310): replay from its LSEQ when that is unacknowledged. -/
def execRetryRequest (n : Nat) (slots : List (List Nat)) (ue : List Nat) (hdr : Bool) (s : State) : Out :=
  .next <| s.receive n slots (fun e => match e with
    | .retry _ => true
    | _ => false) (fun e t => match e with
      | .retry q => if (t.portOf n).retry.any (fun x => x.1 == q) then t.replay n q ue hdr else t
      | _ => t)

/-- REQ_TMO in figures (R309). -/
def State.reqTmo (s : State) (n : Nat) : Nat := 16 * max 1 (s.f (GLS_LINK_CFG_REQ_TMO n))

/-- RETRY_TIMEOUT (R309): E has not advanced for REQ_TMO since the request, and it falls due again. -/
def execRetryTimeout (n : Nat) (s : State) : Out :=
  .next <|
    let p := s.portOf n
    let e := s.f (GLS_SEQ_RX_EXPECT n)
    if s.portUp n && p.asked == some e && decide (p.askFig + s.reqTmo n ≤ s.fig.toNat) then
      s.setPort n { p with retryDue := some e, askFig := s.fig.toNat }
    else s

/-- REPLAY_TIMEOUT (R309): ACK has not advanced for 4 × REQ_TMO while frames are unacknowledged; replay from the oldest. -/
def execReplayTimeout (n : Nat) (ue : List Nat) (hdr : Bool) (s : State) : Out :=
  .next <|
    match (s.portOf n).retry with
    | [] => s
    | x :: _ => if s.portUp n && decide ((s.portOf n).ackFig + 4 * s.reqTmo n ≤ s.fig.toNat) then s.replay n x.1 ue hdr else s

/-! ### Lanes -/

/-- Show role and carried lane of a logical lane. -/
def State.laneRole (s : State) (n k role carry : Nat) : State :=
  (s.put (GLS_LANE_STAT_ROLE n (s.physLane n k)) role).put (GLS_LANE_STAT_CARRY n (s.physLane n k)) carry

/-- LS is free in the receive direction, and no step is pending there (R289, R320). -/
def State.spareFree (s : State) (n : Nat) : Bool := s.f (GLS_STAT_RX_SPARE n) == 15 && (s.portOf n).rxStep.isNone

/-- A physical lane is fit (R320). -/
def State.physFit (s : State) (n l : Nat) : Bool := s.on (GLS_LANE_STAT_ALIGNED n l) && decide (l ∈ (s.portOf n).clean)

/-- A logical lane is fit. -/
def State.laneFit (s : State) (n k : Nat) : Bool := s.physFit n (s.physLane n k)

/-- FIT of every lane as R320 defines it. -/
def State.showFit (s : State) (n : Nat) : State :=
  s.each (List.range 9) (fun l t => t.put (GLS_LANE_STAT_FIT n l) (b2n (t.physFit n l)))

/-- The receiving end asks for a move of lane `k` onto LS, or back home (R321 step 1). -/
def State.askMove (s : State) (n k : Nat) (back : Bool) : State :=
  let p := s.portOf n
  s.setPort n { p with rxStep := some (k, back), spareOut := p.spareOut ++ [(if back then 4 else 1, k)] }

/-- A lane that degrades or loses signal moves onto LS under AUTO_SPARE; none when it cannot (R320). -/
def State.autoMove (s : State) (n k : Nat) : Option State :=
  if s.on (GLS_CTRL_AUTO_SPARE n) && s.spareFree n && s.laneFit n 8 then some (s.askMove n k false) else none

/-- A SPARE status with SPARE_OP `op` arrives in the slots, for a lane 0 to 7 (R305, R321). -/
def State.spareIn (s : State) (n : Nat) (slots : List (List Nat)) (op : Nat) (act : Nat → State → State) : State :=
  s.receive n slots (fun e => match e with
    | .spare o _ => o == op
    | _ => false) (fun e t => match e with
      | .spare _ k => let u := t.statusIn n
                      if k < 8 then act k u else u
      | _ => t)

/-- The SPARE statuses of a step that is over are no longer due. -/
def State.spareOver (s : State) (n op k : Nat) : State :=
  s.setPort n { s.portOf n with spareOut := (s.portOf n).spareOut.filter (fun x => x != (op, k)) }

/-- Send SPARE_OP `op` for lane `k`. -/
def State.spareSend (s : State) (n op k : Nat) : State :=
  s.setPort n { s.portOf n with spareOut := (s.portOf n).spareOut ++ [(op, k)] }

/-- REQ (R321 step 2): the transmitting end is to mirror lane `k` onto LS. -/
def execSpareReq (n : Nat) (slots : List (List Nat)) (s : State) : Out :=
  .next (s.spareIn n slots 1 (fun k t =>
    if t.f (GLS_STAT_TX_SPARE n) = 15 ∧ (t.portOf n).txStep = none then t.setPort n { t.portOf n with txStep := some (k, false, false) } else t))

/-- MIRROR (R321 step 3): the receiver takes LS as lane `k` and sends ACK; a MIRROR again is answered again. -/
def execSpareMirror (n : Nat) (slots : List (List Nat)) (s : State) : Out :=
  .next (s.spareIn n slots 2 (fun k t =>
    if (t.portOf n).rxStep = some (k, false) then
      let u := (t.setPort n { t.portOf n with rxStep := none }).spareOver n 1 k
      ((((u.put (GLS_STAT_RX_SPARE n) k).laneRole n 8 3 k).laneRole n k 4 0).spareSend n 3 k).glsEvt n 4 164
    else if t.f (GLS_STAT_RX_SPARE n) = k then t.spareSend n 3 k
    else t))

/-- ACK (R321 step 4): the transmitter retires lane `k`. -/
def execSpareAck (n : Nat) (slots : List (List Nat)) (s : State) : Out :=
  .next (s.spareIn n slots 3 (fun k t =>
    if (t.portOf n).txStep = some (k, false, true) then
      (((t.setPort n { t.portOf n with txStep := none }).spareOver n 2 k).put (GLS_STAT_TX_SPARE n) k).glsEvt n 4 164
    else t))

/-- RET_REQ (R321): the transmitting end is to send the spared lane on its home lane as well. -/
def execSpareRetReq (n : Nat) (slots : List (List Nat)) (s : State) : Out :=
  .next (s.spareIn n slots 4 (fun k t =>
    if t.f (GLS_STAT_TX_SPARE n) = k ∧ (t.portOf n).txStep = none then t.setPort n { t.portOf n with txStep := some (k, true, false) } else t))

/-- RET_MIRROR (R321): the receiver takes the home lane back and sends RET_ACK; a RET_MIRROR again is answered again. -/
def execSpareRetMirror (n : Nat) (slots : List (List Nat)) (s : State) : Out :=
  .next (s.spareIn n slots 5 (fun k t =>
    if (t.portOf n).rxStep = some (k, true) then
      let u := (t.setPort n { t.portOf n with rxStep := none }).spareOver n 4 k
      ((((u.put (GLS_STAT_RX_SPARE n) 15).laneRole n 8 2 0).laneRole n k 1 k).spareSend n 6 k).glsEvt n 4 164
    else if t.f (GLS_STAT_RX_SPARE n) = 15 then t.spareSend n 6 k
    else t))

/-- RET_ACK (R321): LS is free again. -/
def execSpareRetAck (n : Nat) (slots : List (List Nat)) (s : State) : Out :=
  .next (s.spareIn n slots 6 (fun k t =>
    if (t.portOf n).txStep = some (k, true, true) then
      (((t.setPort n { t.portOf n with txStep := none }).spareOver n 5 k).put (GLS_STAT_TX_SPARE n) 15).glsEvt n 4 164
    else t))

/-- A move that software requested cannot proceed (R322). -/
def State.spareRefuse (s : State) (n : Nat) : State := (s.put (GLS_STAT_FAIL_CAUSE n) 11).glsEvt n 7 167

/-- SPARE_GO (R322), with the SPARE_LANE of the same write. -/
def State.spareGoOp (s : State) (n lane : Nat) : State :=
  let cur := s.f (GLS_STAT_RX_SPARE n)
  if !s.portUp n then s.spareRefuse n
  else if lane < 8 then
    if s.spareFree n && s.laneFit n 8 then s.askMove n lane false else s.spareRefuse n
  else if lane = 8 then
    if cur < 8 && (s.portOf n).rxStep.isNone && s.laneFit n cur then s.askMove n cur true else s.spareRefuse n
  else s.spareRefuse n

/-- SPARE_GO (R322). -/
def execSpareGo (n lane : Nat) (s : State) : Out :=
  .next (s.toBlock (16 + n) (fun t => (t.put (GLS_CTRL_SPARE_LANE n) lane).spareGoOp n (lane % 16)))

/-- RECAL (R322): LOCK and ADAPT run again on physical lane `l`, when it carries no data: LS while free, or a retired lane. -/
def execRecal (n l : Nat) (s : State) : Out :=
  .next <| s.toBlock (16 + n) fun s =>
    let role := s.f (GLS_LANE_STAT_ROLE n l)
    if role = 2 ∨ role = 4 then
      (s.setPort n { s.portOf n with clean := ladd (s.portOf n).clean l }).showFit n
    else s

/-- A scan of the eye ends with ABORT (R319). -/
def State.eyeAbort (s : State) (n : Nat) : State := ((s.put (GLS_EYE_STAT_BUSY n) 0).put (GLS_EYE_STAT_ABORT n) 1).glsEvt n 8 168

/-- LOSS_OF_SIGNAL (R317, R319, R320, R323): physical lane `l` loses signal; a scan on it ends. An active lane that LS takes, or is about
to take, leaves the port up. -/
def execLossOfSignal (n l : Nat) (s : State) : Out :=
  .next <|
    let role := s.f (GLS_LANE_STAT_ROLE n l)
    let s1 := (((s.put (GLS_LANE_STAT_LOS n l) 1).put (GLS_LANE_STAT_CDR_LOCK n l) 0).put (GLS_LANE_STAT_ALIGNED n l) 0).showFit n
    let s2 := if s1.on (GLS_EYE_STAT_BUSY n) && s1.f (GLS_EYE_CTRL_LANE n) == l then s1.eyeAbort n else s1
    if s2.portUp n && (role == 1 || role == 3) then
      let k := s2.physLane n l
      if role = 1 ∧ (s2.portOf n).rxStep = some (k, false) then s2
      else match (if role = 1 then s2.autoMove n k else none) with
        | some t => t
        | none => (s2.portDown n 6).latSettle
    else s2

/-- DEGRADE_WINDOW (R320): a window ends, at a multiple of 1,500,000 f; the lanes that showed no code error are fit, those whose errors
reach THR degrade. -/
def execDegradeWindow (n : Nat) (s : State) : Out :=
  .next <|
    if s.fig.toNat % 1500000 = 0 then
      let p := s.portOf n
      let errs := fun (l : Nat) => mget p.winCode 0 l + mget p.winDisp 0 l
      let clean := (List.range 9).filter (fun l => s.on (GLS_LANE_STAT_ALIGNED n l) && mget p.winCode 0 l == 0)
      let s1 := (s.setPort n { p with clean := clean, winCode := [], winDisp := [] }).showFit n
      let thr := s1.f (GLS_DEGRADE_THR n)
      let bad := (List.range 9).filter (fun l => thr != 0 && decide (thr ≤ errs l) &&
        (s1.f (GLS_LANE_STAT_ROLE n l) == 1 || s1.f (GLS_LANE_STAT_ROLE n l) == 3))
      s1.each bad (fun l t =>
        let u := t.glsEvt n 3 163
        if u.portUp n && u.f (GLS_LANE_STAT_ROLE n l) == 1 then (u.autoMove n (u.physLane n l)).getD u else u)
    else s

/-! ### Training -/

/-- A training state is entered: its slots are counted from here. -/
def State.trainState (s : State) (n st : Nat) : State := (s.setPort n { s.portOf n with phase := 0, trained := 0 }).portState n st

/-- A training state fails (R311): BACKOFF. -/
def State.trainFail (s : State) (n cause : Nat) : State :=
  ((((s.setPort n (s.portOf n).quiet).put (GLS_STAT_FAIL_CAUSE n) cause).satF (GLS_STAT_ATTEMPTS n) 1).portState n 8).glsEvt n 2 162

/-- SIGNAL_DETECT (R311): the lanes of `mask` see signal; none while the boundary register drives the lanes (R479). From DETECT the port
enters LOCK, where every transmitter starts at negative running disparity (R291). In UP a lane only regains signal here. -/
def execSignalDetect (n seen : Nat) (s : State) : Out :=
  .next <|
    let mask := if s.scanTakes then 0 else seen
    let up := s.portUp n
    let s1 := s.each (List.range 9) (fun l t => if up && !mask.testBit l then t else t.put (GLS_LANE_STAT_LOS n l) (b2n (!mask.testBit l)))
    if s1.f (GLS_STAT_STATE n) = 1 ∧ 8 ≤ (bitList mask 9).length then
      (s1.setPort n { s1.portOf n with txRd := [], rxRd := [] }).trainState n 2
    else s1

/-- LANES_ALIGNED (R311, R313): the lanes of `mask` are locked and aligned, those of `inv` with inverted polarity. -/
def execLanesAligned (n mask inv : Nat) (s : State) : Out :=
  .next <|
    if s.f (GLS_STAT_STATE n) = 2 then
      let s1 := s.each (List.range 9) (fun l t =>
        ((t.put (GLS_LANE_STAT_CDR_LOCK n l) (b2n (mask.testBit l))).put (GLS_LANE_STAT_ALIGNED n l) (b2n (mask.testBit l))).put
          (GLS_LANE_STAT_POL_INV n l) (b2n (inv.testBit l)))
      if 8 ≤ (bitList mask 9).length then s1.trainState n 3 else s1
    else s

/-- ADAPT_DONE (R311, R318): the port enters IDENT; `codes`: the CTLE codes chosen; CTLE_OVR gives CTLE_VAL. -/
def execAdaptDone (n : Nat) (codes : List Nat) (s : State) : Out :=
  .next <|
    if s.f (GLS_STAT_STATE n) = 3 then
      (s.each (List.range 9) (fun l t => t.put (GLS_LANE_STAT_CTLE n l)
        (if t.on (GLS_LANE_CTRL_CTLE_OVR n l) then t.f (GLS_LANE_CTRL_CTLE_VAL n l) else codes.getD l 0))).trainState n 4
    else s

/-- One lane receives the groups `gs` (R291, R313): its symbols, and whether one showed an error; D21.5 after the K28.5 of a training
sequence inverts its polarity. -/
def State.trainLane (s : State) (n l : Nat) (gs : List Nat) : State × List (Option Sym) × Bool :=
  let r := gs.foldl (fun (x : State × List (Option Sym) × Bool) g =>
    let q := x.1.rxGroup n l g
    (q.1, x.2.1 ++ [q.2.1], x.2.2 || q.2.2.1 || q.2.2.2)) (s, [], false)
  let turn := (r.2.1.drop (commaAt r.2.1 + 1)).head? = some (some (dsym 0xB5))
  (if turn then r.1.put (GLS_LANE_STAT_POL_INV n l) (1 - r.1.f (GLS_LANE_STAT_POL_INV n l)) else r.1, r.2)

/-- The lanes receive groups, physical position 0 first: what they say together. -/
def State.trainRx (s : State) (n : Nat) (lanes : List (List Nat)) : State × TrainSeq :=
  let r := (List.range 9).foldl (fun (x : State × List (List (Option Sym)) × List Nat) (l : Nat) =>
    let q := x.1.trainLane n l (lanes.getD l [])
    (q.1, x.2.1 ++ [q.2.1], if q.2.2 then x.2.2 ++ [l] else x.2.2)) (s, [], [])
  (r.1, trainOf r.2.1 r.2.2)

/-- The physical lanes that are to carry lanes 0 to 7 once the port is up (R311): LS takes the one that failed to train, under
AUTO_SPARE. -/
def State.trainCarriers (s : State) (n : Nat) : List Nat :=
  (List.range 8).map (fun k => s.physLane n (if (s.portOf n).bad = some k ∧ s.on (GLS_CTRL_AUTO_SPARE n) then 8 else k))

/-- The link resumes (R315): the port sent RESUME, the peer did, the peer is the one recorded, and its RX_EXPECT is in the range of
unacknowledged frames. -/
def State.mayResume (s : State) (n : Nat) (t : TrainSeq) : Bool :=
  let p := s.portOf n
  p.known && !p.restart && t.resume && s.on (GLS_PEER_ID_VALID n) && s.f (GLS_PEER_ID_NODE n) == t.node &&
    s.f (GLS_PEER_ID_PORT n) == t.port &&
    decide ((t.rxExpect + 256 - s.f (GLS_SEQ_ACKED n)) % 256 ≤ p.retry.length)

/-- Entry to UP (R311, R315): lane roles, EV_GLS_UP; LS carries a lane that failed to train, for which the transmitting end is asked as R321
gives (log entry 50); a resumed link replays from the peer's RX_EXPECT. -/
def State.linkUp (s : State) (n : Nat) : State :=
  let p := s.portOf n
  let bad := if s.on (GLS_CTRL_AUTO_SPARE n) then p.bad else none
  let s1 := ((s.portState n 7).put (GLS_STAT_RESUMED n) (b2n p.resume.isSome)).put (GLS_STAT_ATTEMPTS n) 0
  let s2 := s1.each (List.range 8) (fun k t => if bad = some k then t.laneRole n k 4 0 else t.laneRole n k 1 k)
  let s3 := (s2.laneRole n 8 (if bad.isSome then 3 else 2) (bad.getD 0)).put (GLS_STAT_RX_SPARE n) (bad.getD 15)
  let s4 := (s3.setPort n { s3.portOf n with
    known := true, clean := List.range 9, winCode := [], winDisp := [], statFig := s.fig.toNat, sinceStatus := 0, sinceSkip := 0 }).showFit n
  let s5 := match bad with
    | none => s4
    | some k => s4.askMove n k false
  let s6 := s5.glsEvt n 0 160
  let s7 := match p.resume with
    | none => s6
    | some e =>
      let t := s6.ackTo n e
      t.setPort n { t.portOf n with rep := (t.portOf n).retry.head?.map Prod.fst, ackFig := s.fig.toNat }
  s7.latPump.latSettle

/-- TS2 in IDENT (R311, R313, R315, R316): the lanes are mapped, the peer is recorded, the link resumes or restarts. -/
def State.identRx (s : State) (n : Nat) (t : TrainSeq) : State :=
  if t.type ≠ 2 ∨ t.lanes.length < 8 then s
  else if 2 ≤ t.map then s.trainFail n 3
  else
    let s0 := s.put (GLS_STAT_REVERSED n) t.map
    let s1 := s0.setPort n { s0.portOf n with
      ready := true, bad := (List.range 8).find? (fun k => decide (s0.physLane n k ∉ t.lanes)) }
    if t.ready then
      let go := s1.mayResume n t
      let s2 := if go then s1 else s1.portRestart n
      let s3 := s2.setPort n { s2.portOf n with resume := if go then some t.rxExpect else none }
      (((s3.put (GLS_PEER_ID_VALID n) 1).put (GLS_PEER_ID_PORT n) t.port).put (GLS_PEER_ID_NODE n) t.node).trainState n 5
    else s1

/-- The first TS3 in DESKEW (R314): the lanes are aligned on its K28.5; a skew of more than 6 symbols fails. -/
def State.deskewRx (s : State) (n : Nat) (t : TrainSeq) : State :=
  let act := s.trainCarriers n
  let place := fun (l : Nat) => t.place.getD l 0
  if t.type ≠ 3 ∨ act.any (fun l => decide (l ∉ t.lanes)) then s
  else
    let last := (act.map place).foldl max 0
    let first := (act.map place).foldl min last
    if 6 < last - first then s.trainFail n 4
    else (s.each (List.range 9) (fun l u => u.put (GLS_LANE_STAT_SKEW n l) (min 6 (last - place l)))).trainState n 6

/-- TS3 in CHECK (R311): the port is up when 1,024 slots of TS3 have been sent, no active lane has shown an error, and the peer sends
CHECKED. -/
def State.checkRx (s : State) (n : Nat) (t : TrainSeq) : State :=
  let act := s.trainCarriers n
  let err := t.type != 3 || act.any (fun l => decide (l ∉ t.lanes) || decide (l ∈ t.errs))
  let p := s.portOf n
  let s1 := s.setPort n { p with chkErr := p.chkErr || err, checked := !(p.chkErr || err) }
  if (s1.portOf n).checked ∧ t.checked ∧ 1024 ≤ p.trained then s1.linkUp n else s1

/-- TRAINING_SEQUENCE (R311 to R317): the groups that arrive on physical positions 0 to 8, a training sequence on each. -/
def execTrainingSequence (n : Nat) (lanes : List (List Nat)) (s : State) : Out :=
  .next <|
    let st := s.f (GLS_STAT_STATE n)
    if st < 2 ∨ 7 < st then s
    else
      let r := s.trainRx n lanes
      match st with
      | 7 => if 8 ≤ r.2.lanes.length then (r.1.portDown n 0).latSettle else r.1
      | 4 => r.1.identRx n r.2
      | 5 => r.1.deskewRx n r.2
      | 6 => r.1.checkRx n r.2
      | _ => r.1

/-- TRAINING_TIMEOUT (R311). -/
def execTrainingTimeout (n : Nat) (s : State) : Out :=
  .next <|
    match s.f (GLS_STAT_STATE n) with
    | 2 => s.trainFail n 1
    | 4 => s.trainFail n 2
    | 5 => s.trainFail n 4
    | 6 => s.trainFail n 5
    | _ => s

/-- BACKOFF_END (R311). -/
def execBackoffEnd (n : Nat) (s : State) : Out :=
  .next (if s.f (GLS_STAT_STATE n) = 8 then s.portState n (if s.portMayRun n then 1 else 0) else s)

/-- LINK_TMO (R317): no status slot has arrived for 4,096 slots, 5 of them in each 3 f (R290). -/
def execLinkTmo (n : Nat) (s : State) : Out :=
  .next (if s.portUp n && decide (3 * 4096 ≤ 5 * (s.fig.toNat - (s.portOf n).statFig)) then (s.portDown n 8).latSettle else s)

/-- RETRAIN (R317). -/
def execRetrain (n : Nat) (s : State) : Out :=
  .next (s.toBlock (16 + n) (fun t => if t.portUp n then (t.portDown n 0).latSettle else t))

/-- RESTART (R316, R317). -/
def execRestart (n : Nat) (s : State) : Out :=
  .next <| s.toBlock (16 + n) fun s =>
    let s1 := s.setPort n { s.portOf n with restart := true }
    if s1.portUp n then (s1.portDown n 0).latSettle else s1

/-! ### Eye scan, status, skip -/

/-- EYE_SCAN_GO (R319), with the fields of the same write; ignored while BUSY. On a lane that is not in lock the scan ends at once
(log entry 50). -/
def execEyeScanGo (n : Nat) (w : Word) (s : State) : Out :=
  .next <| s.toBlock (16 + n) fun s =>
    let s1 := s.setReg (GLS_EYE_CTRL n) (w &&& 0x0F1F3F7F#32)
    let l := s1.f (GLS_EYE_CTRL_LANE n)
    if s1.on (GLS_EYE_STAT_BUSY n) then s1
    else if l < 9 ∧ s1.on (GLS_LANE_STAT_CDR_LOCK n l) then s1.put (GLS_EYE_STAT_BUSY n) 1
    else s1.eyeAbort n

/-- EYE_SCAN_DONE (R319): the point completes with its count of differing bits, or ends with ABORT. -/
def execEyeScanDone (n errs : Nat) (abort : Bool) (s : State) : Out :=
  .next <|
    if s.on (GLS_EYE_STAT_BUSY n) then
      if abort then s.eyeAbort n
      else (((s.put (GLS_EYE_STAT_BUSY n) 0).put (GLS_EYE_STAT_DONE n) 1).put (GLS_EYE_STAT_ERRS n) (min errs 0xFFFFFF)).glsEvt n 8 168
    else s

/-- STATUS_SLOT_DUE (R299): STATUS_INT slots have passed since the last status slot, and one falls due. -/
def execStatusSlotDue (n : Nat) (s : State) : Out :=
  .next <|
    if s.portUp n && decide (max 8 (s.f (GLS_LINK_CFG_STATUS_INT n)) ≤ (s.portOf n).sinceStatus) then
      s.setPort n { s.portOf n with statusDue := true }
    else s

/-- SKIP_DUE (R299, R324): SKIP_INT has passed since the last skip, and one falls due. -/
def execSkipDue (n : Nat) (s : State) : Out :=
  .next <|
    if 64 * min 16 (max 1 (s.f (GLS_LINK_CFG_SKIP_INT n))) ≤ (s.portOf n).sinceSkip then s.setPort n { s.portOf n with skipDue := true } else s

/-- SKIP (R324): slots up to a received skip, which is deleted before the deskew stage. -/
def execSkipSlot (n : Nat) (slots : List (List Nat)) (s : State) : Out := .next (s.receive n slots (fun _ => false) (fun _ t => t))

end Sys2Proof.Machine
end

