-- ==== Sys2Proof/Machine/Lattice.lean ====
section
/-! DEFINITION. Sys2Proof/Machine/Lattice.lean: the commands of lattice control (file 07) but the bow and the reset edge: readiness and the
announcement (R259 to R261), messages (R270 to R272), tokens (R265), beats (R269), lattice reset (R281), lost peers (R283), and the
frames that carry them (R296, R306). -/

namespace Sys2Proof.Machine

/-! ### Lattice reset -/

/-- The edge e of a lattice reset (R281, R13): everything but the reset edge, which falls due. -/
def State.latticeReset (s : State) : State :=
  let off := s.latState == 0 && s.lat.offPor
  let beat := s.f LAT_STAT_BEAT_COUNT
  let s1 := s.callerReset.cfgLatticeReset.resetRegs (fun a => match regAt a with
    | some r => r.lat
    | none => false)
  let s2 := ((s1.setReg LAT_STAT 0).put LAT_STAT_BEAT_COUNT beat).setLatState (if off then 0 else 1)
  let l := s2.lat
  let s3 := ({ s2 with round := 0 } : State).setLat
    { Lat.init with
      offPor := off, minRound := l.minRound, seen := l.seen, seq := l.seq, beatFig := l.beatFig, out := l.out, stopFig := l.stopFig,
      resetDue := true, resetFig := s.fig.toNat + 16 }
  let s4 := (((s3.orderReset 18).callerOrphans).capSpoil).reelBreak 9
  let s5 := ((s4.each (List.range 16) (fun n t => t.portFlush n)).sendTokens 1 0).latSettle
  if off || s.latState == 1 then s5 else s5.haltOnStop

/-! ### Messages and the UL pool -/

/-- What a control message does to this node (R270): TYPE 1 START, 2 STOP, 3 RESET. -/
def State.actMsg (s : State) (port : Nat) (m : Msg) : State :=
  match m.type with
  | 1 => s.actStart m (some port)
  | 2 => s.actStop m
  | 3 => s.latticeReset
  | _ => s

/-- A control message arrives for this node on port `port` (R270): acted on and forwarded when it is newer. A node without a valid identity
takes none (R253); one that is OFFLINE takes RESET alone (R267, R281); one whose FIG runs from OSC takes no START (R141). -/
def State.takeMsg (s : State) (port : Nat) (m : Msg) : State :=
  if !s.on LAT_NODE_VALID ∨ !s.newer m ∨ (s.latState = 0 ∧ m.type ≠ 3) ∨ (m.type = 1 ∧ !s.figOnPll) then s
  else
    let s1 := (s.setLat { s.lat with seen := mset s.lat.seen none m.origin (some m.seq) }).actMsg port m
    if s1.latState = 0 then s1 else s1.sendMsg m

/-- The UL turn of port `n` (R306): at an edge at which it has presented nothing yet, a token or message at the head of UL goes to lattice
control, its pool entry checked (R302). -/
def State.ulTurn (s : State) (n : Nat) : State :=
  if (s.portOf n).turn = some s.fig.toNat then s
  else match s.urgPool n 3 with
    | x :: rest =>
      let s1 := s.setPort n { s.portOf n with turn := some s.fig.toNat }
      let take := fun (act : State → State) =>
        let c := s1.poolCheck n x.ecc (x.hdr || x.ecc == .ue)
        if c.2 then act ((c.1.setUrgPool n 3 rest).poolFree n 3 1) else c.1
      match x.u with
      | .token _ o _ ty r => take (fun t => t.takeToken n o ty r)
      | .ctrl _ _ m => take (fun t => t.takeMsg n m)
      | .bundle _ => s
    | [] => s

/-- Slots that complete a cut-in or token of a kind arrive on port `n` (R296, R297, R302, R309); `e`, `hdr`: what the check of a token's or
message's pool entry will find. -/
def State.urgentIn (s : State) (n : Nat) (slots : List (List Nat)) (e : Ecc) (hdr : Bool) (kind : Urgent → Bool) : State :=
  s.receive n slots (fun x => match x with
    | .urgent _ u => kind u
    | _ => false) (fun x t => match x with
      | .urgent lseq u =>
        let r := t.rxSeq n lseq
        if r.2 then
          let p := r.1.poolHere u.dest u.tc true
          (r.1.setUrgPool n p (r.1.urgPool n p ++ [⟨r.1.fig.toNat, u, e, hdr⟩])).ulTurn n
        else r.1
      | _ => t)

/-- CUT_IN (R296): a class-0 bundle. -/
def execCutIn (n : Nat) (slots : List (List Nat)) (s : State) : Out :=
  .next (s.urgentIn n slots .ok false (fun u => match u with
    | .bundle _ => true
    | _ => false))

/-- BOW_TOKEN (R260, R265). -/
def execBowToken (n : Nat) (slots : List (List Nat)) (e : Ecc) (hdr : Bool) (s : State) : Out :=
  .next (s.urgentIn n slots e hdr (fun u => match u with
    | .token _ _ _ ty _ => ty == 0
    | _ => false))

/-- HOLD_TOKEN (R274). -/
def execHoldToken (n : Nat) (slots : List (List Nat)) (e : Ecc) (hdr : Bool) (s : State) : Out :=
  .next (s.urgentIn n slots e hdr (fun u => match u with
    | .token _ _ _ ty _ => ty == 1
    | _ => false))

/-- RUN_TOKEN (R274). -/
def execRunToken (n : Nat) (slots : List (List Nat)) (e : Ecc) (hdr : Bool) (s : State) : Out :=
  .next (s.urgentIn n slots e hdr (fun u => match u with
    | .token _ _ _ ty _ => ty == 2
    | _ => false))

/-- RELAY_TOKEN (R274). -/
def execRelayToken (n : Nat) (slots : List (List Nat)) (e : Ecc) (hdr : Bool) (s : State) : Out :=
  .next (s.urgentIn n slots e hdr (fun u => match u with
    | .token _ _ _ ty _ => ty == 3
    | _ => false))

/-- START_MESSAGE (R270, R271). -/
def execStartMessage (n : Nat) (slots : List (List Nat)) (e : Ecc) (hdr : Bool) (s : State) : Out :=
  .next (s.urgentIn n slots e hdr (fun u => match u with
    | .ctrl _ _ m => m.type == 1
    | _ => false))

/-- STOP_MESSAGE (R270, R272). -/
def execStopMessage (n : Nat) (slots : List (List Nat)) (e : Ecc) (hdr : Bool) (s : State) : Out :=
  .next (s.urgentIn n slots e hdr (fun u => match u with
    | .ctrl _ _ m => m.type == 2
    | _ => false))

/-- RESET_MESSAGE (R270, R281). -/
def execResetMessage (n : Nat) (slots : List (List Nat)) (e : Ecc) (hdr : Bool) (s : State) : Out :=
  .next (s.urgentIn n slots e hdr (fun u => match u with
    | .ctrl _ _ m => m.type == 3
    | _ => false))

/-! ### Bundles for the Caller -/

/-- A bundle may be presented now (R211, R264). -/
def State.presentable (s : State) (e : Entry) : Bool := s.inRound && s.on CALLER_CTRL_EN && e.rpar == (s.round.toNat % 2 == 1)

/-- The bundle at the head of pool 3 (UL) or 0 (LOCAL) of port `n` that may be presented and taken: its queue has room or is not
valid (R232, R306). -/
def State.arriving (s : State) (n p : Nat) : Option Entry :=
  let h := if p = 3 then (match (s.urgPool n 3).head?.map (fun x => x.u) with
      | some (.bundle e) => some e
      | _ => none)
    else (s.bulkPool n 0).head?.map (fun x => x.e)
  h.filter (fun e => s.presentable e && (!s.queueValid e.queue || s.queueDirect e.queue || decide (s.queueCount e.queue < s.queueCap e.queue)))

/-- The Caller takes an arrival (R232): pushed, or discarded and logged with ARRIVE_BADQ. -/
def State.arrive (s : State) (e : Entry) (ecc : Ecc) : State :=
  if s.queueValid e.queue then
    match s.push e.queue ⟨e.data, e.poison || ecc == .ue⟩ with
    | some t => (t.progress).noteReady
    | none => s
  else (s.callerFault 9 e.queue 0 0).progress

/-- BUNDLE_ARRIVAL (R232, R264, R302, R306): port `n` presents one bundle, of UL before LOCAL, at an edge at which it has presented nothing
yet; a token at the head of UL comes first. `ecc`, `hdr`: what the check of the bundle's pool entry finds. -/
def execBundleArrival (n : Nat) (ecc : Ecc) (hdr : Bool) (s0 : State) : Out :=
  .next <|
    let s := s0.ulTurn n
    let pick := match s.arriving n 3 with
      | some e => some (3, e)
      | none => (s.arriving n 0).map (fun e => (0, e))
    match pick with
    | none => s
    | some (p, e) =>
      if (s.portOf n).turn = some s.fig.toNat then s
      else
        let c := (s.setPort n { s.portOf n with turn := some s.fig.toNat }).poolCheck n ecc hdr
        if !c.2 then c.1
        else
          let t := if p = 3 then c.1.setUrgPool n 3 (c.1.urgPool n 3).tail else c.1.setBulkPool n 0 (c.1.bulkPool n 0).tail
          (t.poolFree n p 1).arrive e ecc

/-! ### Readiness, announcement, overrun -/

/-- Issue the bow fences (R279): on the edge where every other condition holds; it waits while a source has 16 fences pending. -/
def State.issueBowFences (s : State) : State :=
  let srcs := s.bowFenceSrcs
  if srcs.all (fun x => decide ((s.fencesOf x).length < 16)) then
    s.each srcs (fun x t =>
      let r := t.issueFence x
      match r.2 with
      | some k => r.1.setLat { r.1.lat with bowFence := r.1.lat.bowFence ++ [(x, k)] }
      | none => t) |> fun t => t.setLat { t.lat with fenced := true }
  else s

/-- LOCAL_READY (R259, R260, R279): local readiness is complete and the node sends BOW to every valid peer. -/
def execLocalReady (s : State) : Out :=
  .next <|
    if s.latState = 3 ∧ s.readyBut then
      let s1 := if s.lat.fenced then s else s.issueBowFences
      if s1.lat.fenced && s1.lat.bowFence.all (fun x => s1.fenceDone x.1 x.2) then
        (((s1.setLat { s1.lat with ready := true }).setLatState 4).sendTokens 0 s1.round.toNat).latSettle
      else s1
    else s

/-- BOW_ANNOUNCE (R261, R268): edge x; the requests of CLK_RND_REQ that are visible are the ones of the coming bow (R149). -/
def execBowAnnounce (s : State) : Out :=
  .next <|
    if s.latState == 4 && s.allBows && decide (s.lat.count ≤ 65534) then
      (((s.setLatState 6).setLat { s.lat with annFig := s.fig.toNat }).swapAnnounced).setClk { s.clk with rndSeen := s.reg CLK_RND_REQ }
    else s

/-- ROUND_OVERRUN (R268): the count reaches 65,534 and no bow is announced. -/
def execRoundOverrun (s : State) : Out :=
  .next <|
    if (s.latState == 3 || s.latState == 4) && decide (65534 ≤ s.lat.count) && !(s.latState == 4 && s.allBows) then
      (((s.setLatState 7).setLat { s.lat with ready := false, fenced := false, bowFence := [] }).raise 155).sendTokens 1 s.round.toNat
    else s

/-! ### LAT_CMD (R272) -/

/-- The node originates START or RESUME with STEPS (R270, R271, R272). -/
def State.latStart (s : State) (steps : Nat) (isMatch : Bool) : State :=
  if s.latState = 0 ∨ !s.on LAT_NODE_VALID ∨ !s.figOnPll then s
  else
    let r := s.nextMsg 1 s.round.toNat (s.round.toNat + steps) (s.f LAT_STAT_BEAT_COUNT + s.f LAT_LEAD_START_LEAD) isMatch (steps != 0)
    (r.1.actStart r.2 none).sendMsg r.2

/-- The node originates a STOP with a target. -/
def State.latStop (s : State) (target : Nat) : State :=
  if s.latState = 0 ∨ !s.on LAT_NODE_VALID then s
  else
    let r := s.nextMsg 2 0 target 0 false false
    (r.1.actStop r.2).sendMsg r.2

/-- LAT_START (R272). -/
def execLatStart (steps : Nat) (s : State) : Out := .next (s.latStart (steps % 2 ^ 16) true)

/-- LAT_RESUME (R272). -/
def execLatResume (steps : Nat) (s : State) : Out := .next (s.latStart (steps % 2 ^ 16) false)

/-- STOP_ABS (R272): the target is in LAT_STOP_HI and LAT_STOP_LO. -/
def execStopAbs (s : State) : Out :=
  .next (s.latStop (s.f LAT_STOP_LO_TARGET_LO + s.f LAT_STOP_HI_TARGET_HI * 2 ^ 32))

/-- STOP_REL (R272). -/
def execStopRel (s : State) : Out := .next (s.latStop (s.round.toNat + s.f LAT_LEAD_STOP_LEAD))

/-- STOP_NOW (R274). -/
def execStopNow (s : State) : Out := .next s.stopNow

/-- RESET_LOCAL (R281). -/
def execResetLocal (s : State) : Out := .next s.latticeReset

/-- RESET_LATTICE (R272, R281): the message, and the local reset. -/
def State.resetLattice (s : State) : State :=
  if s.on LAT_NODE_VALID then
    let r := s.nextMsg 3 0 0 0 false false
    (r.1.sendMsg r.2).latticeReset
  else s.latticeReset

/-- RESET_LATTICE (R272, R281). -/
def execResetLattice (s : State) : Out := .next s.resetLattice

/-- A write of `mask` to LAT_SECTOR_RST (R282): one that comes after the announcement misses the bow. -/
def State.sectorRequest (s : State) (mask : Nat) : State :=
  let new := bitList (mask % 2 ^ 16) 16
  let late := s.latState == 6
  let s0 := s.put LAT_SECTOR_RST_REQ (s.f LAT_SECTOR_RST_REQ ||| mask % 2 ^ 16)
  let s1 := s0.setLat { s0.lat with
    rstFig := new.foldl (fun l n => if (s.f LAT_SECTOR_RST_REQ).testBit n then l else mset l 0 n s.fig.toNat) s0.lat.rstFig }
  if late then s1.setLat { s1.lat with
    rstLate := new.foldl (fun l n => if (s.f LAT_SECTOR_RST_REQ).testBit n then l else ladd l n) s1.lat.rstLate } else s1

/-- SECTOR_RESET_REQUEST (R282). -/
def execSectorResetRequest (mask : Nat) (s : State) : Out := .next (s.sectorRequest mask)

/-! ### Start edge, peers, beats -/

/-- The device is Aloft, or its power state is emulated (R525, R528): nothing holds the start edge. -/
def State.aloft (s : State) : Bool := s.f BAL_PWR_STAT_STATE == 0 || s.on BAL_PWR_STAT_EMULATED

/-- The start edge s, 2 f after the beat or the acceptance, is reached, and nothing holds it (R141, R271, R525). -/
def State.startReached (s : State) : Bool :=
  s.latState == 2 && s.lat.startDue && s.aloft && s.figOnPll && decide (s.lat.startFig ≤ s.fig.toNat)

/-- START_EDGE (R141, R271, R525). -/
def execStartEdge (s : State) : Out :=
  .next <|
    if s.startReached then
      let s1 := (s.setLatState 3).roundMarks
      let s2 := s1.setLat { s1.lat with bowFig := s1.fig.toNat, startDue := false, beat := none }
      let s3 := (s2.each s2.tasksUsed (fun t u => u.setFlag t 63)).noteReady
      ((s3.sendTokens 2 s3.round.toNat).raise 152).latSettle
    else s

/-- PEER_LOST (R283): peer `i` has been DOWN for LOSS_TMO. -/
def execPeerLost (i : Nat) (s : State) : Out :=
  .next <|
    if i < 64 ∧ s.on (LAT_PEER_VALID i) ∧ s.peerDown (s.f (LAT_PEER_NODE i)) ∧ !s.on (LAT_PEER_STAT_LOST i) then
      ((s.put (LAT_PEER_STAT_LOST i) 1).raise 157).latSettle
    else s

/-- NODE_ONLINE (R267): the node enters STOPPED and sends HOLD (R274). -/
def execNodeOnline (s : State) : Out :=
  .next <|
    if s.latState == 0 && s.lat.offPor && s.on LAT_NODE_VALID && s.on CLK_HUB_SEL_FIG_SRC && s.on CFG_STAT_STARTED then
      ((s.setLatState 1).setLat { s.lat with offPor := false }).sendTokens 1 s.round.toNat
    else s

/-- BEAT_COUNT becomes `v` (R269, R271): an awaited start beat makes the start edge due; below Aloft it passes meanwhile (R525). -/
def State.beatSet (s : State) (v : Nat) : State :=
  let s1 := (s.put LAT_STAT_BEAT_COUNT v).setLat { s.lat with beatFig := s.fig.toNat }
  if s1.latState == 2 && s1.lat.beat == some (v % 2 ^ 16) then
    let s2 := s1.setLat { s1.lat with beat := none, startDue := true, startFig := s.fig.toNat + 2 }
    if s2.aloft then s2 else s2.put LAT_STAT_START_LATE 1
  else s1

/-- The ports that reach a valid peer and are up. -/
def State.peerPorts (s : State) : List Nat :=
  (List.range 16).filter (fun n => s.portUp n && s.peers.any (fun p => s.routeOf p.2 == some n))

/-- A beat mark falls due on port `n` (R299, R325). -/
def State.beatSend (s : State) (n count : Nat) : State :=
  s.setPort n { s.portOf n with beatDue := (s.portOf n).beatDue ++ [count % 2 ^ 16] }

/-- BEAT_FORM (R269, R325): the master forms a mark at an edge at which FIG_COUNT is a multiple of INTERVAL. -/
def execBeatForm (s : State) : Out :=
  .next <|
    if s.on LAT_CTRL_BEAT_MASTER && s.fig.toNat % max 1500 (s.f GLS_BEAT_CFG_INTERVAL) == 0 then
      let s1 := s.beatSet (s.f LAT_STAT_BEAT_COUNT + 1)
      s1.each s1.peerPorts (fun n t => t.beatSend n (t.f LAT_STAT_BEAT_COUNT))
    else s

/-- A beat mark arrives on port `n` (R131, R269): `clean`, its K23.7 decoded cleanly; `ok`, it passes its CRC-8. -/
def State.beatIn (s : State) (n : Nat) (clean ok : Bool) (count : Nat) : State :=
  let s1 := s.when (clean && s.f CLK_OSC_TRIM_CTRL_SRC == 2 && s.f CLK_OSC_TRIM_CTRL_PORT == n) (fun t =>
    t.setClk { t.clk with trimBeats := t.clk.trimBeats + 1 })
  if ok && !s1.on LAT_CTRL_BEAT_MASTER && s1.f LAT_CTRL_UP_PORT == n then
    let s2 := s1.beatSet count
    s2.each (s2.peerPorts.filter (fun p => p != n)) (fun p u => u.beatSend p count)
  else s1

/-- BEAT_MARK (R131, R269, R325): the slots up to a beat mark; one whose K23.7 decoded cleanly counts for the trim engine, one that passes
its CRC-8 gives its count to lattice control. -/
def execBeatMark (n : Nat) (slots : List (List Nat)) (s : State) : Out :=
  .next <| s.receive n slots (fun e => match e with
    | .beat _ _ _ => true
    | _ => false) (fun e t => match e with
      | .beat clean ok count => t.beatIn n clean ok count
      | _ => t)

end Sys2Proof.Machine
end

