-- ==== Sys2Proof/Machine/CoreRun.lean ====
section
/-! DEFINITION. Sys2Proof/Machine/CoreRun.lean: how a station core takes one instruction (R435, R442, R448, R449, R454): fetch, what an
instruction answers, the end test of a repeat block, data accesses (R434, R436, R438, R440). -/

namespace Sys2Proof.Machine

/-- What an instruction answers. -/
inductive CRes where
  /-- it completed; the next instruction follows -/
  | done (s : State)
  /-- control goes to a PC with PCR as bit 16 -/
  | jump (s : State) (pc : Nat)
  /-- it completed and left the core in a state of its own (a reset) -/
  | left (s : State)
  /-- a window access is under way: the core stalls -/
  | stall (s : State)
  /-- no tag is free: the core stalls at this instruction -/
  | wait
  /-- an exception: code, EADDR, TRAP code, and whether EPC holds the next PC -/
  | exc (s : State) (code : Nat) (addr : Option Nat) (info : Nat) (next : Bool)
  /-- a halt cause: WHY, UNIT, and whether the instruction has executed -/
  | halt (why unit : Nat) (ran : Bool)

/-! ### Fetch, end test, retire -/

/-- The core can issue an instruction (R459, R495): clocked, running or woken, not stalled, no halt cause. -/
def State.canIssue (s : State) (c : Nat) : Bool :=
  s.coreClock c && (s.coreSt c == 1 || (s.coreSt c == 2 && (s.bestIrq c).isSome)) && (s.coreOf c).stall.isNone &&
    (s.coreOf c).halt.isNone

/-- PC + 4 in the same program space. -/
def nextPc (pc : Nat) : Nat := pc / 2 ^ 16 * 2 ^ 16 + (pc + 4) % 2 ^ 16

/-- PC + 4 × OFF in the same program space. -/
def relPc (pc off : Nat) : Nat := pc / 2 ^ 16 * 2 ^ 16 + wrap 16 ((pc % 2 ^ 16 : Nat) + 4 * sext 16 off)

/-- The innermost open level ends at `pc` (R448). -/
def Core.lastOf (x : Core) (pc : Nat) : Bool :=
  let n := x.ctlReg 5
  n != 0 && bitsOf (x.ctlReg (16 + (n - 1))) 15 0 == pc % 2 ^ 16

/-- The end test of R448 and R449: the core, and where fetch goes on when a level loops. A level with LC not above 1 closes. -/
def endTest : Nat → Nat → Core → Core × Option Nat
  | 0, _, x => (x, none)
  | fuel + 1, pc, x =>
    if x.lastOf pc then
      let n := x.ctlReg 5 - 1
      let lc := x.ctlReg (8 + n)
      if 1 < lc then (x.setCtl (8 + n) (lc - 1), some (pc / 2 ^ 16 * 2 ^ 16 + x.ctlReg (12 + n) % 2 ^ 16))
      else endTest fuel pc (x.setCtl 5 n)
    else (x, none)

/-- After an instruction: a step ends (R499). -/
def State.afterInsn (s : State) (c : Nat) : State :=
  let x := s.coreOf c
  let s1 := s.setCore c { x with skipBp := false, stepping := false }
  if x.stepping then s1.haltCause c 1 0 else s1

/-- An instruction that a debugger fed raised an exception or is refused (R498). -/
def State.feedRefuse (s : State) (c code : Nat) : State := (s.put (DBG_CORE_STAT_FEXC c) 1).put (DBG_CORE_STAT_FCAUSE c) code

/-- What an answered instruction leaves, at `pc`; `s0` is the state before it, `fed`: it was fed (R498). -/
def State.retire (s0 : State) (c pc : Nat) (fed : Bool) (r : CRes) : State :=
  match r with
  | .done s =>
    if fed then s
    else
      let e := endTest 4 pc (s.coreOf c)
      ((s.setCore c e.1).setPc c (e.2.getD (nextPc pc))).afterInsn c
  | .jump s p => (s.setPc c p).afterInsn c
  | .left s => s
  | .stall s => s
  | .wait => s0
  | .exc s code addr info next =>
    if fed then s.feedRefuse c code else s.coreExc c code addr pc (if next then nextPc pc else pc) info
  | .halt why unit ran =>
    if ran then (s0.setPc c (nextPc pc)).haltCause c why unit else s0.haltCause c why unit

/-- The kinds that may not end a repeat block (R449). -/
def noBlockEnd (k : Nat) : Bool := (decide (80 ≤ k) && decide (k ≤ 92))

/-- REP_END, unless a lower code applies (R449, R454). -/
def lastCheck (s : State) (last : Bool) (r : CRes) : CRes :=
  if last then
    match r with
    | .exc t code a i n => if code < 7 then .exc t code a i n else .exc s 7 none 0 false
    | _ => .exc s 7 none 0 false
  else r

/-- Go on with `g` when nothing has stopped the instruction. -/
def CRes.andThen (r : CRes) (g : State → State) : CRes :=
  match r with
  | .done t => .done (g t)
  | .jump t p => .jump t p
  | .left t => .left t
  | .stall t => .stall t
  | .wait => .wait
  | .exc t a b i n => .exc t a b i n
  | .halt a b i => .halt a b i

/-- Core `c` takes the instruction at its PC, whose kind is `k` and whose meaning is `f`. In P the word is the stored one; the contents
of the boot ROM are not in the spec, and `w` stands for its word (log entry 6). A PC where another word stands takes no effect. -/
def State.coreCmd (s : State) (c : Nat) (w : Word) (k : Nat) (f : Nat → Word → State → CRes) : State :=
  if s.canIssue c && decide (c < 17) then
    match s.bpHit c with
    | some i => s.haltCause c 2 i
    | none =>
      let pc := s.pcOf c
      let go := fun (t : State) (x : Nat) =>
        if x = w.toNat then
          match insnKind w with
          | none => (t.put (ST_STAT_STATE c) 1).coreExc c 1 none pc pc 0
          | some q => if q = k then
              let u := t.put (ST_STAT_STATE c) 1
              u.retire c pc false (lastCheck u ((u.coreOf c).lastOf pc && noBlockEnd k) (f c w u))
            else s
        else s
      if 2 ^ 16 ≤ pc then
        if pc % 2 ^ 16 < 0x8000 then go s w.toNat
        else (s.put (ST_STAT_STATE c) 1).coreExc c 3 (some (0x40000 + pc % 2 ^ 16)) pc pc 0
      else
        let r := s.coreMemRead c 0 (pc / 4 % 16384)
        if r.2.bad then (r.1.put (ST_STAT_STATE c) 1).coreExc c 2 (some pc) pc pc 0
        else go r.1 r.2.data
  else s

/-! ### Data accesses -/

/-- Write a register of a class with its width rules; LDEPTH above 4 takes a free value (log entry 21). -/
def State.regWrite (s : State) (c cls idx v : Nat) : State :=
  let s1 := s.setCore c ((s.coreOf c).writeReg c cls idx v s.freeVal)
  if cls = 5 ∧ idx = 5 ∧ 4 < v then s1.freeNext else s1

/-- Post-modify pointer `i` of core `c` (R440). -/
def State.postMod (s : State) (c i : Nat) (step : Int) : State :=
  let x := s.coreOf c
  let s1 := s.setCore c (x.postMod i step s.freeVal)
  if (advance (x.ctlReg (20 + i)) (x.pReg i) step).isNone then s1.freeNext else s1

/-- A local load of 2 or 4 bytes at `a` (R434, R438): the data, an exception, or a window address. -/
inductive LoadRes where
  /-- the data -/
  | val (s : State) (v : Nat)
  /-- an exception -/
  | exc (s : State) (code : Nat)
  /-- a window access -/
  | win (a : Nat)

/-- A word or half of X or Y. -/
def State.memLoad (s : State) (c m i a bytes : Nat) : LoadRes :=
  let r := s.coreMemRead c m i
  if r.2.bad then .exc r.1 4
  else .val r.1 (if bytes = 4 then r.2.data else if a % 4 = 0 then r.2.data % 2 ^ 16 else r.2.data / 2 ^ 16)

/-- A local load. -/
def State.dataLoad (s : State) (c a bytes : Nat) : LoadRes :=
  if a % bytes ≠ 0 then .exc s 3
  else
    match (s.coreOf c).region a with
    | .x i => s.memLoad c 1 i a bytes
    | .y i => s.memLoad c 2 i a bytes
    | .own off =>
      if bytes = 4 then
        let r := s.coreBlockRead c off false
        if r.2.status = 0 then .val r.1 r.2.data else .exc r.1 5
      else .exc s 3
    | .win w0 ia => if w0 && bytes != 4 then .exc s 3 else .win ia
    | .bad => .exc s 3

/-- A window access: an internal address in the hub register range. -/
def hubRange (a : Nat) : Bool := decide (0x20000000000 ≤ a) && decide (a < 0x20004000000)

/-- A request of core `c` for `size` bytes at `a`. `ref`: 0 a load, 1 a posted store, 2 LR and 3 SC of a semaphore. -/
def coreAcc (c : Nat) (write : Bool) (a size data : Nat) (poison : Nat) (ref : Nat) : Acc :=
  ⟨coreSrc c, 0, write, a, size, (2 ^ size - 1) <<< (a % 64), data <<< (8 * (a % 64)), poison, ref⟩

/-- Send a window load and stall (R436). -/
def State.winLoad (s : State) (c : Nat) (w : Word) (addr ia size ref : Nat) (write : Bool) (data : Nat) (fed : Bool) : CRes :=
  if fed && hubRange ia then .exc s 3 (some addr) 0 false
  else match s.meshQueue (coreAcc c write ia size data 0 ref) with
    | none => .wait
    | some t => .stall (t.setCore c { t.coreOf c with stall := some ⟨w, addr, fed⟩ })

/-- A posted store completes with a status other than OK (R455): ST_BUS_LOG, input 3. -/
def State.busErr (s : State) (c ia : Nat) (r : Rsp) : State :=
  (s.log (ST_BUS_LOG_VALID c) (ST_BUS_LOG_OVF c) (fun t =>
    ((((t.put (ST_BUS_LOG_WRITE c) 1).put (ST_BUS_LOG_STATUS c) r.status).put (ST_BUS_LOG_CAUSE c) r.cause).put
      (ST_BUS_LOG_ADDR_HI c) (ia / 2 ^ 32)).put (ST_BUS_ADDR_ADDR_LO c) ia)).setPend c 3

/-- The poison mask of the 64-bit words that `size` bytes at `a` touch. -/
def wordMask (a size : Nat) : Nat :=
  packBits ((List.range 8).map (fun w => decide (8 * w < a % 64 + size) && decide (a % 64 < 8 * w + 8)))

/-- A local store of 2 or 4 bytes (R434, R436, R438, R447): `poison` stores the poison pattern. A core writes its own P only while the
device is Unbound (R545). -/
def State.dataStore (s : State) (c a bytes v : Nat) (poison fed : Bool) (fin : State → State) : CRes :=
  if a % bytes ≠ 0 then .exc s 3 (some a) 0 false
  else
    match (s.coreOf c).region a with
    | .x i => .done (fin (if bytes = 4 then s.coreMemWrite c 1 i v poison else s.coreMemHalf c 1 i (a / 2 % 2) v))
    | .y i => .done (fin (if bytes = 4 then s.coreMemWrite c 2 i v poison else s.coreMemHalf c 2 i (a / 2 % 2) v))
    | .own off =>
      if bytes = 4 then
        if poison then .done ((fin s).busErr c (0x20000000000 + coreBase c + off) ⟨4, 0x23, 0, 0⟩)
        else if off = 0x14 ∧ c ≠ 16 ∧ s.f SEC_STATE_STATE ≠ 0 ∧ (s.f (ST_MEM_ADDR_ADDR c)) / 2 ^ 14 = 0 then
          .done ((fin s).busErr c (0x20000000000 + coreBase c + off) ⟨4, 0x61, 0, 0⟩)
        else
          let r := (fin s).coreBlockWrite c off (BitVec.ofNat 32 v)
          if off = 0 ∧ (v.testBit 28 ∨ v.testBit 31) then .left r.1
          else if r.2.status = 0 then .done r.1 else .done (r.1.busErr c (0x20000000000 + coreBase c + off) r.2)
      else .exc s 3 (some a) 0 false
    | .win w0 ia =>
      if w0 && bytes != 4 then .exc s 3 (some a) 0 false
      else if fed && hubRange ia then .exc s 3 (some a) 0 false
      else match s.meshQueue (coreAcc c true ia bytes (v % 2 ^ (8 * bytes)) (if poison then wordMask ia bytes else 0) 1) with
        | none => .wait
        | some t => .done (fin t)
    | .bad => .exc s 3 (some a) 0 false

/-- Run `k` unless a watchpoint matches an access at `a` (R493); fed instructions match none (R493). -/
def State.watched (s : State) (c a : Nat) (store fed : Bool) (k : CRes) : CRes :=
  if fed then k
  else match s.wpHit c a store with
    | some i => .halt 3 (4 + i) false
    | none => k

/-! ### Line moves and reservations -/

/-- Word `i` onward of X (1) or Y (2) as 64 bytes, with poison flags of the 64-bit words and their events (R444). -/
def lineGather : Nat → Nat → Nat → Nat → Nat → Nat → State → State × Nat × Nat
  | 0, _, _, _, d, p, s => (s, d, p)
  | n + 1, c, m, i, d, p, s =>
    let r := s.coreMemRead c m i
    let k := 15 - n
    lineGather n c m (i + 1) (d + r.2.data % 2 ^ 32 * 2 ^ (32 * k)) (if r.2.bad then p ||| 2 ^ (k / 2) else p) r.1

/-- The memory and word of an X or Y address. -/
def Core.xyAt (x : Core) (a : Nat) : Option (Nat × Nat) :=
  match x.region a with
  | .x i => some (1, i)
  | .y i => some (2, i)
  | _ => none

/-- The semaphore that an internal address names (R453). -/
def semAt (ia : Nat) : Option Nat :=
  if 0x20001180000 ≤ ia ∧ ia < 0x20001180400 ∧ ia % 4 = 0 then some ((ia - 0x20001180000) / 4) else none

/-- The semaphore that a local address names through a window. -/
def Core.semOf (x : Core) (a : Nat) : Option Nat :=
  match x.region a with
  | .win _ ia => semAt ia
  | _ => none

/-- The destination of an LS load (R470): d, a pair, or an accumulator, sign-extended. -/
def Core.lsDest (x : Core) (w : Word) (v : Nat) : Core :=
  let k := fget w 19 16
  match fget w 26 25 with
  | 0 => x.setD k v
  | 1 => x.setPairD k v
  | _ => x.setAcc k (accOf (wrap 40 (sext 32 v)) false)

/-- The post-modify of an LS word. -/
def State.lsPost (s : State) (c : Nat) (w : Word) : State :=
  match ((s.coreOf c).lsAddr w).2 with
  | none => s
  | some step => s.postMod c (fget w 24 22) step

/-- The bytes that an LS word moves. -/
def lsBytes (w : Word) : Nat := if fget w 26 25 = 0 then 2 else 4

/-- The end of a stalled access: the response of the window access of `w` (R436, R444, R447, R452, R453, R454). -/
def State.winFinish (s : State) (c : Nat) (st : Stall) (a : Acc) (r : Rsp) : CRes :=
  let x := s.coreOf c
  let w := st.insn
  let off := a.addr % 64
  let data := (r.data >>> (8 * off)) % 2 ^ (8 * a.size)
  let bad := (r.poison &&& wordMask a.addr a.size) != 0
  let kind := (insnKind w).getD 0
  if a.ref = 3 then
    if r.status = 0 then .done (s.setCore c (x.setD (fget w 19 16) 1))
    else if r.status = 4 ∧ r.cause = 0x30 then .done (s.setCore c (x.setD (fget w 19 16) 0))
    else .exc s 5 (some st.addr) 0 false
  else if r.status ≠ 0 then .exc s 5 (some st.addr) 0 false
  else if kind = 66 then
    match x.xyAt (x.pReg (fget w 18 16)) with
    | none => .exc s 3 (some (x.pReg (fget w 18 16))) 0 false
    | some (m, i) =>
      .done ((s.each (List.range 16) (fun k t =>
        t.coreMemWrite c m (i + k) ((r.data >>> (32 * k)) % 2 ^ 32) (r.poison.testBit (k / 2)))).lsPost c w)
  else if bad then .exc s 4 (some st.addr) 0 false
  else if a.ref = 2 then
    match x.semOf st.addr with
    | none => .exc s 3 (some st.addr) 0 false
    | some i => .done (s.setCore c { x.setPairD (fget w 23 20) data with resv := some (.sem i) })
  else .done ((s.setCore c (x.lsDest w data)).lsPost c w)

/-- The first entry of an initiator's inbox that satisfies `p`, taken out. -/
def State.takeInbox (s : State) (src : Nat) (p : Acc → Bool) : Option (Acc × Rsp × State) :=
  let l := mget s.mesh.inbox [] src
  match l.find? (fun e => p e.1) with
  | none => none
  | some (a, r) =>
    some (a, r, s.setMesh { s.mesh with inbox := mset s.mesh.inbox [] src (l.erase (a, r)) })

end Sys2Proof.Machine
end

