-- ==== Sys2Proof/Machine/Net.lean ====
section
/-! DEFINITION. Sys2Proof/Machine/Net.lean: the network of the mesh as such (file 10): routers and paths (R365 to R368), virtual
channels (R369), flits and packets (R372 to R375). -/

namespace Sys2Proof.Machine

/-! ### Routers and paths -/

/-- The coordinates of a router (R365). -/
def routerXY (r : Nat) : Nat × Nat := if r < 16 then (r % 4, r / 4) else (4 + (r - 16) / 4, (r - 16) % 4)

/-- The router at coordinates (R365). -/
def routerAt (x y : Nat) : Nat := if x < 4 then 4 * y + x else 16 + 4 * (x - 4) + y

/-- The output of router `r` on the way to local port `p` of router `d` (R368): along X first, then along Y: 4 N (Y + 1), 5 E (X + 1),
6 S (Y - 1), 7 W (X - 1). -/
def hopOut (r d p : Nat) : Nat :=
  let a := routerXY r
  let b := routerXY d
  if a.1 < b.1 then 5 else if b.1 < a.1 then 7 else if a.2 < b.2 then 4 else if b.2 < a.2 then 6 else p

/-- The router that output `o` of router `r` links to, and the input there. -/
def hopTo (r o : Nat) : Nat × Nat :=
  let a := routerXY r
  match o with
  | 4 => (routerAt a.1 (a.2 + 1), 6)
  | 5 => (routerAt (a.1 + 1) a.2, 7)
  | 6 => (routerAt a.1 (a.2 - 1), 4)
  | _ => (routerAt (a.1 - 1) a.2, 5)

/-- The routers that a packet passes, each with the input that it enters by, from input `i` of router `r` to port `p` of router `d` (R368);
at most `n` of them. -/
def hops : Nat → Nat → Nat → Nat → Nat → List (Nat × Nat)
  | 0, _, _, _, _ => []
  | n + 1, r, i, d, p =>
    (r, i) :: (if hopOut r d p < 4 then [] else
      let t := hopTo r (hopOut r d p)
      hops n t.1 t.2 d p)

/-- The path between two ports (R368): the diameter of the mesh is 9 routers. -/
def path (fromPort toPort : Nat) : List (Nat × Nat) := hops 9 (fromPort / 4) (fromPort % 4) (toPort / 4) (toPort % 4)

/-- The cost of the link by which a packet enters a router at input `i` (R367): a bridge link costs 3. -/
def linkCost (r i : Nat) : Nat :=
  let a := routerXY r
  if i < 4 then 0
  else if i = 4 ∨ i = 6 then (if a.1 < 4 then 3 else 1)
  else if (i = 7 ∧ a.1 = 4) ∨ (i = 5 ∧ a.1 = 3) then 3 else 1

/-- The cycles of a one-way trip without contention (R368): 2 + 2 R + L. -/
def tripCycles (fromPort toPort : Nat) : Nat :=
  let l := path fromPort toPort
  2 + 2 * l.length + (l.map (fun x => linkCost x.1 x.2)).sum

/-- The local port at which source `src` enters the mesh for an address that stack `k` owns (R366): the Tail enters beside the stack's
controller. -/
def iniPort (src k : Nat) : Nat :=
  if src = 0 then 80
  else if src ≤ 16 then 65 + (src - 1) / 4 * 4
  else if src = 17 then 84
  else if src = 18 then 88
  else if src = 19 then 66 + 4 * k
  else if src = 20 then 85
  else if src < 32 then 93
  else 4 * (src - 32) + 1

/-! ### Virtual channels -/

/-- The VC of a request (R369); `reg`: to a hub register block. Spill and trace traffic of the Caller, on VC2, acts at once (log entry
49). -/
def reqVc (src : Nat) (reg : Bool) : Nat :=
  if src = 21 ∨ src = 22 ∨ (src = 17 ∧ reg) then 3 else if src = 19 then 2 else 0

/-- Target port `t` is a memory target: a stack controller or the user part of a sector window (R366). -/
def memPort (t : Nat) : Bool := (decide (t < 64) && t % 4 == 1) || (decide (64 ≤ t ∧ t < 80) && t % 4 == 0)

/-- The VC of a request of `src` to port `t` (R369). -/
def portVc (src t : Nat) : Nat := reqVc src (decide (64 ≤ t) && !memPort t)

/-- The VC of the response to a request on a VC (R369). -/
def rspVc (vc : Nat) : Nat := if vc = 3 then 3 else 1

/-- The VC of an interrupt message (R369). -/
def irqVc : Nat := 3

/-! ### Flits and packets -/

/-- SIZE of an access (R373); 5, a reserved code, for a size that has none, which every target answers with ACC_SIZE (R374). -/
def sizeCode (n : Nat) : Nat :=
  match n with
  | 4 => 0
  | 8 => 1
  | 16 => 2
  | 32 => 3
  | 64 => 4
  | _ => 5

/-- The bytes that a SIZE code names. -/
def sizeBytes (c : Nat) : Nat := 4 * 2 ^ c

/-- The fields of a head flit (R373). -/
structure Head where
  type : Nat
  src : Nat
  tag : Nat
  dst : Nat
  dport : Nat
  size : Nat
  urg : Bool
  status : Nat
  addr : Nat
  cause : Nat
  be : Nat
  data : Nat
deriving DecidableEq, Repr

/-- The payload of a head flit (R373). -/
def Head.bits (h : Head) : Nat :=
  h.type % 2 ^ 4 + h.src % 2 ^ 6 * 2 ^ 4 + h.tag % 2 ^ 6 * 2 ^ 10 + h.dst % 2 ^ 5 * 2 ^ 16 + h.dport % 2 ^ 2 * 2 ^ 21 + h.size % 2 ^ 3 * 2 ^ 23 +
    (if h.urg then 2 ^ 26 else 0) + h.status % 2 ^ 4 * 2 ^ 28 + h.addr % 2 ^ 48 * 2 ^ 32 + h.cause % 2 ^ 8 * 2 ^ 80 +
    h.be % 2 ^ 64 * 2 ^ 128 + h.data % 2 ^ 64 * 2 ^ 192

/-- The fields of a payload (R373). -/
def headOf (b : Nat) : Head where
  type := bitsOf b 3 0
  src := bitsOf b 9 4
  tag := bitsOf b 15 10
  dst := bitsOf b 20 16
  dport := bitsOf b 22 21
  size := bitsOf b 25 23
  urg := b.testBit 26
  status := bitsOf b 31 28
  addr := bitsOf b 79 32
  cause := bitsOf b 87 80
  be := bitsOf b 191 128
  data := bitsOf b 255 192

/-- The 32 check bits of a flit (R372, R402): 8 for each word. -/
def flitEcc (data : Nat) : Nat := ((List.range 4).map (fun w => check64 (bitsOf data (64 * w + 63) (64 * w)) * 2 ^ (8 * w))).sum

/-- A flit. -/
def mkFlit (vc kind poison data : Nat) : NFlit := ⟨vc, kind, poison % 16, flitEcc data, data⟩

/-- The data flits of a packet of `n` bytes: none up to 8, one up to 32, two for 64 (R374). -/
def dataFlits (n : Nat) : Nat := if n ≤ 8 then 0 else if n ≤ 32 then 1 else 2

/-- The flits of a packet (R374): `n` bytes of `data` with the poison of their words from word 0 on; up to 8 bytes go in the head. -/
def packet (vc : Nat) (h : Head) (n data poison : Nat) : List NFlit :=
  match dataFlits n with
  | 0 => [mkFlit vc 3 (if poison % 2 = 1 then 8 else 0) ({ h with data := data }).bits]
  | 1 => [mkFlit vc 1 0 h.bits, mkFlit vc 2 poison (data % 2 ^ 256)]
  | _ => [mkFlit vc 1 0 h.bits, mkFlit vc 0 poison (data % 2 ^ 256), mkFlit vc 2 (poison / 16) (data / 2 ^ 256 % 2 ^ 256)]

/-- The data of a packet and the poison of its words. -/
def packetData (l : List NFlit) : Nat × Nat :=
  match l with
  | [] => (0, 0)
  | [f] => ((headOf f.data).data, b2n (f.poison.testBit 3))
  | _ :: t => (t.foldr (fun f n => f.data + 2 ^ 256 * n) 0, t.foldr (fun f n => f.poison + 16 * n) 0)

/-- An access occupies the bytes of memory from here on: sizes below 4 travel as the aligned 4 bytes that hold them (R374, R436). -/
def wireAddr (a : Acc) (mem : Bool) : Nat := if mem ∧ a.size < 4 then a.addr / 4 * 4 else a.addr

/-- The request packet of an access to port `t` (R373, R374). -/
def reqPacket (a : Acc) (t : Nat) : List NFlit :=
  let vc := portVc a.src t
  let mem := memPort t
  let adr := wireAddr a mem
  let n := if mem ∧ a.size < 4 then 4 else a.size
  let h : Head := ⟨if a.write then 2 else 1, a.src, a.tag, t / 4, t % 4, sizeCode n, vc == 3, 0, adr, 0,
    if a.write then a.be >>> (adr % 64) else 0, 0⟩
  if a.write then packet vc h n (a.data >>> (8 * (adr % 64))) (a.poison >>> (adr % 64 / 8)) else packet vc h 0 0 0

/-- The access that a request packet asks for; data and byte enables at their places in the line. -/
def reqOf (l : List NFlit) : Acc :=
  let h := headOf ((l.head?.map NFlit.data).getD 0)
  let d := packetData l
  let wr := h.type == 2
  let n := sizeBytes h.size
  ⟨h.src, h.tag, wr, h.addr, n, if wr then h.be <<< (h.addr % 64) else (2 ^ n - 1) <<< (h.addr % 64),
    if wr then (d.1 % 2 ^ (8 * n)) <<< (8 * (h.addr % 64)) else 0, if wr then d.2 <<< (h.addr % 64 / 8) else 0, 0⟩

/-- The local port that the response of target port `t` to a request of `src` returns to (R374). -/
def backPort (src t : Nat) : Nat := iniPort src ((t - 64) / 4)

/-- The response packet of target port `t` to access `a` (R373 to R375): data from the access's place in the line on. -/
def rspPacket (a : Acc) (t : Nat) (r : Rsp) : List NFlit :=
  let vc := portVc a.src t
  let port := backPort a.src t
  let h : Head := ⟨if a.write then 4 else 3, a.src, a.tag, port / 4, port % 4, sizeCode a.size, vc == 3, r.status, a.addr, r.cause, 0, 0⟩
  if a.write then packet (rspVc vc) h 0 0 0
  else packet (rspVc vc) h a.size (r.data >>> (8 * (a.addr % 64))) (r.poison >>> (a.addr % 64 / 8))

/-- The response that a packet brings, at the places of its bytes in the line. -/
def rspOf (l : List NFlit) : Rsp :=
  let h := headOf ((l.head?.map NFlit.data).getD 0)
  let d := packetData l
  if h.type = 3 then ⟨h.status, h.cause, d.1 <<< (8 * (h.addr % 64)), d.2 <<< (h.addr % 64 / 8)⟩ else ⟨h.status, h.cause, 0, 0⟩

/-- The key 64 s + tag of a packet. -/
def keyOf (l : List NFlit) : Nat :=
  let h := headOf ((l.head?.map NFlit.data).getD 0)
  64 * h.src + h.tag

end Sys2Proof.Machine
end

