-- ==== Sys2Proof/Machine/MeshOps.lean ====
section
/-! DEFINITION. Sys2Proof/Machine/MeshOps.lean: the named operations of the mesh (file 10): errors (R381 to R383), the ends of accesses
(R375, R383, R386, R387), the target of an address (R21, R366, R376), blocks that gates and power states stop (R161, R519, R520). -/

namespace Sys2Proof.Machine

/-! ### Errors -/

/-- One entry for MESH_ERR_LOG. -/
def State.meshErr (s : State) (kind router input src tag : Nat) : State :=
  s.log MESH_ERR_LOG_VALID MESH_ERR_LOG_OVF (fun t =>
    ((((t.put MESH_ERR_LOG_KIND kind).put MESH_ERR_LOG_ROUTER router).put MESH_ERR_LOG_INPUT input).put MESH_ERR_LOG_SRC src).put
      MESH_ERR_LOG_TAG tag)

/-- The leaf of the router buffers (R422). -/
def meshLeaf : Nat := 518

/-- What the routers find in a packet (R381, R382): corrections, uncorrectable words, a lost packet. -/
def State.flitEvents (s : State) (fl : Flit) : State :=
  let s1 := s.when fl.ce (fun t => (t.raise 194).leafEvent meshLeaf false 0)
  match fl.hdr with
  | some (r, i) => ((s1.meshErr 0 r i 0 0).raise 195).leafEvent meshLeaf true 0
  | none => s1.each (bitList fl.ue 8) (fun _ t => t.leafEvent meshLeaf true 0)

/-- A stray response (R90, R383). -/
def State.meshStray (s : State) (router src tag : Nat) : State := (s.meshErr 3 router 0 src tag).raise 195

/-! ### Ends of accesses -/

/-- A response with a status other than OK carries zeros (R375). -/
def Rsp.norm (r : Rsp) : Rsp := if r.status = 0 then r else { r with data := 0, poison := 0 }

/-- A response of target port `t` to access `a` sets out for its initiator (R374, R375). -/
def State.meshAnswer (s : State) (t : Nat) (a : Acc) (r : Rsp) : State :=
  s.setMesh { s.mesh with rsps := s.mesh.rsps ++ [rspPacket a t r.norm] }

/-- An access has completed at its initiator: it is visible (R32) and waits for the requester. -/
def State.meshDone (s : State) (a : Acc) (r : Rsp) : State :=
  let s1 := s.opVisible (64 * a.src + a.tag) (r.status != 0)
  s1.setMesh { s1.mesh with inbox := mset s1.mesh.inbox [] a.src (mget s1.mesh.inbox [] a.src ++ [(a, r)]) }

/-- The requests that target port `t` holds, oldest first. -/
def State.waits (s : State) (t : Nat) : List Wait := mget s.mesh.waiting [] t

/-- Replace the requests that target port `t` holds. -/
def State.setWaits (s : State) (t : Nat) (l : List Wait) : State :=
  s.setMesh { s.mesh with waiting := mset s.mesh.waiting [] t l }

/-- The key of a request. -/
def Acc.key (a : Acc) : Nat := 64 * a.src + a.tag

/-- The stale map of a port changes; STALE counts its bits (R386). -/
def State.setStale (s : State) (t : Nat) (l : List (Nat × Nat)) : State :=
  (s.setMesh { s.mesh with stale := l }).put (MESH_TGT_STAT_STALE t) (l.filter (fun e => e.1 == t)).length

/-- The router of port `t` answers a request in ABSORB (R385, R386). -/
def State.absorbAnswer (s : State) (t : Nat) (a : Acc) : State :=
  ((s.meshAnswer t a ⟨2, 0, 0, 0⟩).satF (MESH_TGT_STAT_ABSORBED t) 1).setStale t (ladd s.mesh.stale (t, a.key))

/-- The elements of a list but number `i`. -/
def dropAt {α : Type} : List α → Nat → List α
  | [], _ => []
  | _ :: t, 0 => t
  | x :: t, n + 1 => x :: dropAt t n

/-- Target port `t` answers the request at position `i` of those it holds (R385 to R387): discarded while the port absorbs. -/
def State.tgtAnswer (s : State) (t i : Nat) (r : Rsp) : State :=
  match (s.waits t)[i]? with
  | none => s
  | some w =>
    let s1 := s.setWaits t (dropAt (s.waits t) i)
    if w.ghost && s1.absorbed t then s1.setStale t (ldel s1.mesh.stale (t, w.acc.key))
    else s1.meshAnswer t w.acc r

/-- The largest TMO of the targets that can be isolated (R383, R384, R388). -/
def State.maxTmo (s : State) : Nat :=
  (List.range 96).foldl (fun m t =>
    if s.on (MESH_TGT_CFG_PRESENT t) && !s.on (MESH_TGT_CFG_EXEMPT t) then max m (max 256 (s.f (MESH_TGT_CFG_TMO t))) else m) 0

/-- INI_TMO in effect (R383). -/
def State.iniTmo (s : State) : Nat :=
  let v := s.f MESH_INI_TMO_TMO
  if v ≤ s.maxTmo + 1024 then s.maxTmo + 1024 else v

/-- The latency bin of R390. -/
def latBin (n : Nat) : Nat := if n < 16 then 0 else min 15 (Nat.log2 n - 3)

/-- A request counts in the histogram of its source (R390). -/
def State.histAdd (s : State) (src lat : Nat) : State := s.satF (MESH_INI_HIST_COUNT src (latBin lat)) 1

/-- An access counts in the open monitor window (R389), by its SIZE in units of 4 bytes; a smaller one travels as 4 bytes. -/
def State.monAdd (s : State) (a : Acc) : State :=
  let k := 2 * a.src + b2n a.write
  s.setMesh { s.mesh with monBytes := mset s.mesh.monBytes 0 k (mget s.mesh.monBytes 0 k + (a.size + 3) / 4) }

/-! ### Targets -/

/-- Where an address leads (R21, R84, R89). -/
inductive Dest where
  /-- nowhere -/
  | unmapped
  /-- a hub register, by offset from the hub base -/
  | hub (off : Nat)
  /-- a stack controller -/
  | stack (k : Nat)
  /-- the boundary aperture of a sector, by offset from 0xFFFF_0000 -/
  | aperture (n off : Nat)
  /-- the user part of a sector window -/
  | user (n off : Nat)
deriving DecidableEq, Repr

/-- An offset of the user part of sector window `n` lies in an enabled region (R89). -/
def State.inRegion (s : State) (n off : Nat) : Bool :=
  (List.range 16).any (fun i =>
    let base := (mget s.fab.region 0 (32 * n + 2 * i)).toNat
    let cfg := mget s.fab.region 0 (32 * n + 2 * i + 1)
    let k := fget cfg 4 0
    fget cfg 31 31 == 1 && off / 2 ^ k == base / 2 ^ k)

/-- The destination of an address, without the check of R376. -/
def destOf (a : Nat) : Dest :=
  if a < 0x001680000000 then .stack (memStack a)
  else if 0x010000000000 ≤ a ∧ a < 0x011000000000 then
    let off := a % 2 ^ 32
    let n := a / 2 ^ 32 % 16
    if 0xFFFF0000 ≤ off then .aperture n (off - 0xFFFF0000) else .user n off
  else if 0x020000000000 ≤ a ∧ a < 0x020001200000 then .hub (a - 0x020000000000)
  else .unmapped

/-- The destination of an address at an initiator port (R23, R376). -/
def State.decodeDest (s : State) (a : Nat) : Dest :=
  match destOf a with
  | .user n off => if s.inRegion n off then .user n off else .unmapped
  | d => d

/-- The target port of the hub block at offset `off` (R22, R366). -/
def hubPort (off : Nat) : Nat :=
  if 0x1000000 ≤ off then corePort ((off - 0x1000000) / 0x10000 |> min 16)
  else match off / 0x100000 with
    | 0 => 81
    | 1 => 91
    | 2 => 85
    | 3 => 86
    | 4 => 86
    | 5 => 94
    | 6 => 88
    | 7 => 88
    | 8 => 90
    | 9 => 89
    | 10 => 86
    | 11 => 86
    | 12 => 81
    | 13 => 92
    | 14 => 92
    | _ => 93

/-- The target port of a destination. -/
def Dest.port : Dest → Nat
  | .unmapped => 0
  | .hub off => hubPort off
  | .stack k => 64 + 4 * k
  | .aperture n _ => 4 * n
  | .user n _ => 4 * n + 1

/-- Sources that no fence holds at this address (R33): the ordering blocks and the log of unmapped accesses. -/
def fenceFree (a : Nat) : Bool :=
  decide (0x020000004000 ≤ a ∧ a < 0x020000004600) || decide (0x020000004800 ≤ a ∧ a < 0x020000004808)

/-- An access waits for a pending fence of its source that was issued before it (R31, R33). -/
def State.accHeld (s : State) (a : Acc) : Bool :=
  !fenceFree a.addr && (s.fencesOf a.src).any (fun f => !decide (a.key ∈ f.2.1))

/-! ### Gates and power states -/

/-- The state code of stack `k`: 0 DOWN, 1 TRAINING, 2 UP, 3 SELF_REFRESH, 4 FAILED. -/
def State.stackSt (s : State) (k : Nat) : Nat := s.f (MEM_STACK_STAT_STATE k)

/-- Stack `k` enters self-refresh (R400), every dirty tag line written back before. -/
def State.refreshEnter (s : State) (k : Nat) : State := if s.stackSt k = 2 then (s.tagFlush k).put (MEM_STACK_STAT_STATE k) 3 else s

/-- The block of R158 that a hub register belongs to. -/
def gateBlock (off : Nat) : Option Nat :=
  if 0x1000000 ≤ off ∧ off < 0x1100000 then some ((off - 0x1000000) / 0x10000)
  else if 0x810000 ≤ off ∧ off < 0x820000 then some (16 + (off - 0x810000) / 0x1000)
  else if 0x900000 ≤ off ∧ off < 0xA00000 then some 36
  else if 0xD02000 ≤ off ∧ off < 0xD02400 then some 38
  else if 0xE00000 ≤ off ∧ off < 0xF00000 then some 37
  else none

/-- The bytes of an access that `size` and its address select in the line. -/
def accBytes (a size : Nat) : Nat := (2 ^ size - 1) <<< (a % 64)

/-- An access is of a size that memory targets accept, aligned, within a line (R88, R374). -/
def sizeOk (a size : Nat) : Bool := (size == 4 || size == 8 || size == 16 || size == 32 || size == 64) && a % size == 0

end Sys2Proof.Machine
end

