-- ==== Sys2Proof/Machine/FabricStep.lean ====
section
/-! DEFINITION. Sys2Proof/Machine/FabricStep.lean: one edge of the round gates (R59, R83, R98 to R112, R121, R150): a bow that commits, a
reset edge, a restore edge. -/

namespace Sys2Proof.Machine

/-- What an edge of the round gates does: the sectors reset at it, whether it restores, whether it commits, the round that it begins, and
the bits that faults invert in the arrays of slices. -/
structure Edge where
  resets : List Nat
  restore : Bool
  commit : Bool
  round : Nat
  flips : List (Nat × Nat)
deriving DecidableEq, Repr

/-- Round-mode clocks `gs`, none held low, pass the edge to an element of sector `n` and bay `bay` (R148 to R150, R192): some of them
enabled for the round, or all at a reset or restore; no edge passes into a held bay. -/
def State.edgePasses (s : State) (e : Edge) (n bay : Nat) (gs : List Nat) : Bool :=
  !s.fab.hold && !decide (bay ∈ s.fab.held) && !gs.isEmpty &&
    (decide (n ∈ e.resets) || e.restore || (e.commit && gs.any (s.roundEnable e.round)))

/-- The next value of one flip-flop at an edge of the round gates, in the priority of R59; none where it keeps its value. A reset of its
sector loads INIT into every user flip-flop of the sector (R13, R57), free ones too; the other rows are a design flip-flop's. A held bay
takes no part (R196). -/
def State.ffEdge (s : State) (e : Edge) (cfg : CellCfg) (b : Bool) : Option (Nat × Bool) :=
  let c := if b then cfg.ffb else cfg.ffa
  let k := 2 * cfg.cell + b2n b
  let n := sectorOfCell cfg.cell
  let bay := bayOfCell cfg.cell
  if n ∈ e.resets ∧ !s.fab.hold ∧ bay ∉ s.fab.held then some (k, c.init)
  else if s.edgePasses e n bay ((s.ffSpines cfg.cell c).filterMap (fun x => s.roundGate n x.1)) then
    some (k, if e.restore then mget s.fab.shadow false k else s.ffNext cfg b)
  else none

/-- The global clock of a slice or of a memory port where it is not held low, as a list. -/
def State.spineGlobals (s : State) (n sp : Nat) : List Nat := (s.roundGate n sp).toList

/-- A slice's inputs as its registers would hold them. -/
def State.sliceIn (s : State) (cfg : SliceCfg) : SliceIn :=
  let bay := cfg.slice / 96
  ⟨sOperand 27 cfg.aSigned (s.busVal bay cfg.a) (s.pinVal bay cfg.pi), sOperand 24 cfg.bSigned (s.busVal bay cfg.b) false,
    sOperand 64 cfg.aSigned (s.busVal bay cfg.c) false, sOperand 27 cfg.aSigned (s.busVal bay cfg.d) false⟩

/-- PCI of a slice (R122). -/
def State.slicePci (s : State) (sl : Nat) : SReg :=
  if sl % 32 = 0 then SReg.init
  else match s.sliceCfg (sl - 1) with
    | none => SReg.init
    | some below => if below.preg then (s.sliceR (sl - 1)).p else unpackS (evalNode s netFuel (.acc (sl - 1)))

/-- An enable: no source means ON. -/
def State.enableOf (s : State) (bay : Nat) (src : List Net) : Bool := src.isEmpty || s.pinVal bay src

/-- One clocked update of a slice from its present inputs, with the bits `flip` inverted in the array: the registers and whether a residue
check fails (R117 to R126). SR loads 0. -/
def State.sliceStep (s : State) (cfg : SliceCfg) (flip : Nat) : SliceReg × Bool :=
  let bay := cfg.slice / 96
  if s.pinVal bay cfg.sr then (SliceReg.init, false)
  else sliceEdge cfg (s.enableOf bay cfg.ceIn) (s.enableOf bay cfg.ceM) (s.enableOf bay cfg.ceP) (mget s.fab.slice SliceReg.init cfg.slice)
    (s.sliceIn cfg) (s.slicePci cfg.slice) flip

/-- The leaf of the counter tree that a slice counts in (R126, R422): sector, then slice leaf of the bay. -/
def sliceLeaf (sl : Nat) : Nat := 32 * (sl / 768) + 16 + sl / 96 % 8

/-- A residue error of a slice (R126). -/
def State.residueError (s : State) (sl : Nat) (fail : Bool) : State :=
  s.when fail (fun t => t.leafEvent (sliceLeaf sl) true (sl % 96))

/-- The next registers of one design slice; none where it keeps them. -/
def State.sliceNext (s : State) (e : Edge) (cfg : SliceCfg) : Option (Nat × SliceReg × Bool) :=
  let n := cfg.slice / 768
  if s.edgePasses e n (cfg.slice / 96) (s.spineGlobals n cfg.clk) then
    if n ∈ e.resets then some (cfg.slice, SliceReg.init, false)
    else if e.restore then some (cfg.slice, mget s.fab.sliceShadow SliceReg.init cfg.slice, false)
    else
      let r := s.sliceStep cfg (mget e.flips 0 cfg.slice)
      some (cfg.slice, r.1, r.2)
  else none

/-- A port passes the edge. -/
def State.portEdge (s : State) (e : Edge) (m : Nat) (c : PortCfg) : Bool :=
  s.edgePasses e (m / 1024) (m / 128) (s.spineGlobals (m / 1024) c.clk)

/-- SR of a port as a synchronous reset of its output registers (R109). -/
def State.portSr (t s : State) (m i : Nat) (c : PortCfg) : State :=
  if s.pinVal (m / 128) c.sr then
    t.setFab { t.fab with portReg := mset t.fab.portReg PortReg.init (2 * m + i) PortReg.init }
  else t

/-- The design ports of one memory at the edge, `s0` holding the inputs before it: reset and restore load the output registers (R109);
a bow accesses the rows, port by port as the clocks are enabled. -/
def State.memNext (t s0 : State) (e : Edge) (c : MemCfg) : State :=
  let m := c.mem
  let pa := s0.portEdge e m c.a
  let pb := s0.portEdge e m c.b
  let load := fun (u : State) (i : Nat) (v : PortReg) =>
    (u.setFab { u.fab with portReg := mset u.fab.portReg PortReg.init (2 * m + i) v })
  if m / 1024 ∈ e.resets then
    (t.when pa (fun u => load u 0 PortReg.init)).when pb (fun u => load u 1 PortReg.init)
  else if e.restore then
    (t.when pa (fun u => load u 0 (mget s0.fab.portShadow PortReg.init (2 * m)))).when pb
      (fun u => load u 1 (mget s0.fab.portShadow PortReg.init (2 * m + 1)))
  else
    let xa := if pa then some (s0.portAcc m c.a) else none
    let xb := if pb then some (s0.portAcc m c.b) else none
    let t1 := t.memEdge c xa xb true
    let t2 := if pa then t1.portSr s0 m 0 c.a else t1
    if pb then t2.portSr s0 m 1 c.b else t2

/-- A sector's boundary words load 0 (R83), but for those of a held bay (R196). -/
def State.bndClear (s : State) (n : Nat) : State :=
  let keep := fun (g : Nat) => g / 512 != n || decide (g / 64 ∈ s.fab.held)
  let drop := fun (l : List (Nat × BWord)) => l.filter (fun e => keep e.1)
  s.setFab { s.fab with
      inFig := drop s.fab.inFig, inFab := drop s.fab.inFab, outFab := drop s.fab.outFab, outFig := drop s.fab.outFig
      inDue := s.fab.inDue.filter keep }

/-- The round gates pass the edge `e`: every design element takes its next value from the values before the edge. -/
def State.fabricEdge (s : State) (e : Edge) : State :=
  let ffs := s.cells.flatMap (fun c => (s.ffEdge e c false).toList ++ (s.ffEdge e c true).toList)
  let sls := s.slices.filterMap (s.sliceNext e)
  let s1 := s.each s.mems (fun c t => t.memNext s e c)
  let s2 : State := s1.setFab { s1.fab with
    ff := ffs.foldl (fun m x => mset m false x.1 x.2) s1.fab.ff
    slice := sls.foldl (fun m x => mset m SliceReg.init x.1 x.2.1) s1.fab.slice }
  let s3 := s2.each sls (fun x t => t.residueError x.1 x.2.2)
  s3.each e.resets (fun n t => t.bndClear n)

end Sys2Proof.Machine
end

