-- ==== Sys2Proof/Machine/Sha.lean ====
section
/-! DEFINITION. Sys2Proof/Machine/Sha.lean: SHA-384, which R173, R171 and R549 name as a standard and do not restate. PRESUMED from FIPS
180-4 (log entry 8). A message is a list of bytes; a digest is a number with byte i in bits 8i + 7 to 8i. -/

namespace Sys2Proof.Machine

/-- The round constants of SHA-384 as one number each 16, constant i in bits 64i + 63 to 64i: 0 to 15. -/
def shaK0 : Nat := 0xc19bf174cf6926949bdc06a725c7123580deb1fe3b1696b172be5d74f27b896f550c7dc3d5ffb4e2243185be4ee4b28c12835b0145706fbed807aa98a3030242ab1c5ed5da6d8118923f82a4af194f9b59f111f1b605d0193956c25bf348b538e9b5dba58189dbbcb5c0fbcfec4d3b2f7137449123ef65cd428a2f98d728ae22
/-- Constants 16 to 31. -/
def shaK1 : Nat := 0x142929670a0e6e7006ca6351e003826fd5a79147930aa725c6e00bf33da88fc2bf597fc7beef0ee4b00327c898fb213fa831c66d2db43210983e5152ee66dfab76f988da831153b55cb0a9dcbd41fbd44a7484aa6ea6e4832de92c6f592b0275240ca1cc77ac9c650fc19dc68b8cd5b5efbe4786384f25e3e49b69c19ef14ad2
/-- Constants 32 to 47. -/
def shaK2 : Nat := 0x106aa07032bbd1b8f40e35855771202ad69906245565a910d192e819d6ef5218c76c51a30654be30c24b8b70d0f89791a81a664bbc423001a2bfe8a14cf1036492722c851482353b81c2c92e47edaee6766a0abb3c77b2a8650a73548baf63de53380d139d95b3df4d2c6dfc5ac42aed2e1b21385c26c92627b70a8546d22ffc
/-- Constants 48 to 63. -/
def shaK3 : Nat := 0xc67178f2e372532bbef9a3f7b2c67915a4506cebde82bde990befffa23631e288cc702081a6439ec84c87814a1f0ab7278a5636f43172f60748f82ee5defb2fc682e6ff3d6b2b8a35b9cca4f7763e3734ed8aa4ae3418acb391c0cb3c5c95a6334b0bcb5e19b48a82748774cdf8eeb991e376c085141ab5319a4c116b8d2d0c8
/-- Constants 64 to 79. -/
def shaK4 : Nat := 0x6c44198c4a4758175fcb6fab3ad6faec597f299cfc657e2a4cc5d4becb3e42b6431d67c49c100d4c3c9ebe0a15c9bebc32caab7b40c7249328db77f523047d841b710b35131c471b113f9804bef90dae0a637dc5a2c898a606f067aa72176fbaf57d4f7fee6ed178eada7dd6cde0eb1ed186b8c721c0c207ca273eceea26619c

/-- Round constant `i`. -/
def shaK (i : Nat) : BitVec 64 :=
  BitVec.ofNat 64 ((if i < 16 then shaK0 else if i < 32 then shaK1 else if i < 48 then shaK2 else if i < 64 then shaK3 else shaK4) >>> (64 * (i % 16)))

/-- The eight working words a to h. -/
structure ShaState where
  a : BitVec 64
  b : BitVec 64
  c : BitVec 64
  d : BitVec 64
  e : BitVec 64
  f : BitVec 64
  g : BitVec 64
  h : BitVec 64
deriving DecidableEq, Repr

/-- The initial value of SHA-384. -/
def shaInit : ShaState where
  a := 0xcbbb9d5dc1059ed8#64
  b := 0x629a292a367cd507#64
  c := 0x9159015a3070dd17#64
  d := 0x152fecd8f70e5939#64
  e := 0x67332667ffc00b31#64
  f := 0x8eb44a8768581511#64
  g := 0xdb0c2e0d64f98fa7#64
  h := 0x47b5481dbefa4fa4#64

/-- One round with message word `w` and constant `k`. -/
def ShaState.round (s : ShaState) (k w : BitVec 64) : ShaState :=
  let t1 := s.h + (s.e.rotateRight 14 ^^^ s.e.rotateRight 18 ^^^ s.e.rotateRight 41) + ((s.e &&& s.f) ^^^ (~~~ s.e &&& s.g)) + k + w
  let t2 := (s.a.rotateRight 28 ^^^ s.a.rotateRight 34 ^^^ s.a.rotateRight 39) + ((s.a &&& s.b) ^^^ (s.a &&& s.c) ^^^ (s.b &&& s.c))
  ⟨t1 + t2, s.a, s.b, s.c, s.d + t1, s.e, s.f, s.g⟩

/-- Word-wise addition. -/
def ShaState.add (s t : ShaState) : ShaState :=
  ⟨s.a + t.a, s.b + t.b, s.c + t.c, s.d + t.d, s.e + t.e, s.f + t.f, s.g + t.g, s.h + t.h⟩

/-- The message word that follows 16 words of the schedule, the latest first. -/
def shaNext (ws : List (BitVec 64)) : BitVec 64 :=
  let x := ws.getD 14 0
  let y := ws.getD 1 0
  (y.rotateRight 19 ^^^ y.rotateRight 61 ^^^ (y >>> 6)) + ws.getD 6 0 + (x.rotateRight 1 ^^^ x.rotateRight 8 ^^^ (x >>> 7)) + ws.getD 15 0

/-- `n` further words of the schedule, before the words so far, the latest first. -/
def shaSchedule : Nat → List (BitVec 64) → List (BitVec 64)
  | 0, ws => ws
  | n + 1, ws => shaSchedule n (shaNext ws :: ws)

/-- The rounds over the schedule from round `i` on. -/
def shaRounds : Nat → List (BitVec 64) → ShaState → ShaState
  | _, [], s => s
  | i, w :: t, s => shaRounds (i + 1) t (s.round (shaK i) w)

/-- The number of a list of bytes, highest first. -/
def ofBytesHigh (l : List Nat) : Nat := ofBytes l.reverse

/-- One block of 128 bytes. -/
def shaBlock (s : ShaState) (block : List Nat) : ShaState :=
  let first := (List.range 16).map (fun i => BitVec.ofNat 64 (ofBytesHigh ((block.drop (8 * i)).take 8)))
  s.add (shaRounds 0 (shaSchedule 64 first.reverse).reverse s)

/-- The blocks of a padded message; `fuel` is at least their number. -/
def shaBlocks : Nat → List Nat → ShaState → ShaState
  | 0, _, s => s
  | n + 1, l, s => if l.isEmpty then s else shaBlocks n (l.drop 128) (shaBlock s (l.take 128))

/-- The padding of a message of `n` bytes: a 1 bit, zeros, the length in bits as 16 bytes, highest first. -/
def shaPad (n : Nat) : List Nat := 0x80 :: (List.replicate ((239 - n % 128) % 128) 0 ++ (toBytes 16 (8 * n)).reverse)

/-- SHA-384 of a message. -/
def sha384 (msg : List Nat) : Nat :=
  let s := shaBlocks (msg.length / 128 + 2) (msg ++ shaPad msg.length) shaInit
  ofBytes ([s.a, s.b, s.c, s.d, s.e, s.f].flatMap (fun w => (toBytes 8 w.toNat).reverse))

end Sys2Proof.Machine
end

