-- ==== Sys2Proof/Machine/Ecdsa.lean ====
section
/-! DEFINITION. Sys2Proof/Machine/Ecdsa.lean: the verification of an ECDSA P-384 signature, which R171, R173 and R549 name as a standard
and do not restate. PRESUMED from FIPS 186-5 and SP 800-186 (log entry 8). -/

namespace Sys2Proof.Machine

/-- The prime of the field of P-384. -/
def ecP : Nat := 0xfffffffffffffffffffffffffffffffffffffffffffffffffffffffffffffffeffffffff0000000000000000ffffffff
/-- The coefficient b of the curve y^2 = x^3 - 3 x + b. -/
def ecB : Nat := 0xb3312fa7e23ee7e4988e056be3f82d19181d9c6efe8141120314088f5013875ac656398d8a2ed19d2a85c8edd3ec2aef
/-- The order of the base point. -/
def ecN : Nat := 0xffffffffffffffffffffffffffffffffffffffffffffffffc7634d81f4372ddf581a0db248b0a77aecec196accc52973
/-- The base point. -/
def ecG : Nat × Nat := (0xaa87ca22be8b05378eb1c71ef320ad746e1d3b628ba79b9859f741e082542a385502f25dbf55296c3a545e3872760ab7,
  0x3617de4a96262c6f5d9e98bf9292dc29f8f41dbd289a147ce9da3113b5f0b8c00a60b1ce1d7e819d7a431d7c90ea0e5f)

/-- x to the power of the low `n` bits of `e`, modulo `m`. -/
def powMod (m : Nat) : Nat → Nat → Nat → Nat
  | 0, _, _ => 1
  | n + 1, x, e => (if e % 2 = 1 then x else 1) * powMod m n (x * x % m) (e / 2) % m

/-- The inverse of `x` modulo the prime `m` of 384 bits. -/
def invMod (m x : Nat) : Nat := powMod m 384 (x % m) (m - 2)

/-- The difference of two residues modulo the prime of the field. -/
def ecSub (x y : Nat) : Nat := (x % ecP + ecP - y % ecP) % ecP

/-- The sum of two points of the curve; none is the point at infinity. -/
def ecAdd : Option (Nat × Nat) → Option (Nat × Nat) → Option (Nat × Nat)
  | none, q => q
  | some p, none => some p
  | some (x1, y1), some (x2, y2) =>
    if x1 = x2 ∧ (y1 + y2) % ecP = 0 then none
    else
      let l := if x1 = x2 then ecSub (3 * x1 * x1) 3 * invMod ecP (2 * y1) % ecP else ecSub y2 y1 * invMod ecP (ecSub x2 x1) % ecP
      let x := ecSub (l * l) (x1 + x2)
      some (x, ecSub (l * ecSub x1 x) y1)

/-- The multiple of a point by the low `n` bits of `k`. -/
def ecMul : Nat → Nat → Option (Nat × Nat) → Option (Nat × Nat)
  | 0, _, _ => none
  | n + 1, k, p => ecAdd (if k % 2 = 1 then p else none) (ecMul n (k / 2) (ecAdd p p))

/-- (x, y) is a point of the curve. -/
def ecOn (x y : Nat) : Bool := decide (x < ecP ∧ y < ecP) && y * y % ecP == ecSub (x * x * x + ecB) (3 * x)

/-- The signature (r, s) verifies under the key (x, y) over the digest `e`, the integer of the digest's bytes, highest first. -/
def ecdsaOk (x y r s e : Nat) : Bool :=
  ecOn x y && decide (0 < r ∧ r < ecN ∧ 0 < s ∧ s < ecN) &&
    (let w := invMod ecN s
     match ecAdd (ecMul 384 (e * w % ecN) (some ecG)) (ecMul 384 (r * w % ecN) (some (x, y))) with
     | some q => q.1 % ecN == r
     | none => false)

/-- A public key or a signature of 96 bytes: its two halves, 48 bytes each, little-endian as every field of an image (R171). -/
def halves (v : Nat) : Nat × Nat := (v % 2 ^ 384, v / 2 ^ 384 % 2 ^ 384)

/-- The signature `sig` (r then s) verifies under the public key `key` (X then Y) over the SHA-384 digest of a message (R171, R549). -/
def sigVerifies (key sig : Nat) (msg : List Nat) : Bool :=
  ecdsaOk (halves key).1 (halves key).2 (halves sig).1 (halves sig).2 (ofBytesHigh (toBytes 48 (sha384 msg)))

end Sys2Proof.Machine
end

