-- ==== Sys2Proof/Machine/Image.lean ====
section
/-! DEFINITION. Sys2Proof/Machine/Image.lean: the bytes of an image: its header and section table (R171, R172, R174), the records of a
bay section (R175) and of a table section (R177). A run of bytes is a number with byte i in bits 8i + 7 to 8i, so a little-endian field
is a number as it stands. -/

namespace Sys2Proof.Machine

/-- The `n` bytes at byte offset `off`. -/
def bytesAt (v off n : Nat) : Nat := (v >>> (8 * off)) % 2 ^ (8 * n)

/-! ### The header (R171) -/

/-- Its size. -/
def headSize : Nat := 16384
/-- KIND. -/
def imgKind (h : Nat) : Nat := bytesAt h 6 2
/-- FLAGS bit 0. -/
def imgEncrypted (h : Nat) : Bool := (bytesAt h 13 1).testBit 0
/-- SECTIONS. -/
def imgSections (h : Nat) : Nat := bytesAt h 14 2
/-- LENGTH. -/
def imgLength (h : Nat) : Nat := bytesAt h 24 8
/-- DESIGN_ID. -/
def imgDesign (h : Nat) : Nat := bytesAt h 32 16
/-- BASE_ID. -/
def imgBase (h : Nat) : Nat := bytesAt h 48 16

/-- Section entry `i` (R172). -/
def secEntry (h i : Nat) : Sec :=
  let e := 256 + 96 * i
  ⟨i, bytesAt h e 2, bytesAt h (e + 2) 2, bytesAt h (e + 8) 8, bytesAt h (e + 16) 8, bytesAt h (e + 32) 48, bytesAt h (e + 80) 16⟩

/-- The section entries. -/
def imgSecs (h : Nat) : List Sec := (List.range (imgSections h)).map (secEntry h)

/-- Entry `i` is well formed (R172, R176): zeros where the entry is 0, OFFSET a multiple of 64, the section within the image and after its
header, TAG 0 when ENCRYPTED = 0, 131,072 bytes of firmware (log entry 45). -/
def entryOk (h i : Nat) : Bool :=
  let x := secEntry h i
  let e := 256 + 96 * i
  decide (bytesAt h (e + 4) 4 = 0 ∧ bytesAt h (e + 24) 8 = 0 ∧ x.off % 64 = 0 ∧ headSize ≤ x.off ∧ x.off + x.slen ≤ imgLength h) &&
    (imgEncrypted h || x.tag == 0) && (decide (x.ty ≠ 1 ∧ x.ty ≠ 2) || x.slen == 131072)

/-- SECTIONS, LENGTH, the section table and the areas of zeros are well formed (R171, R173 step 1; log entry 45). -/
def tableOk (h : Nat) : Bool :=
  let n := imgSections h
  decide (1 ≤ n ∧ n ≤ 160 ∧ headSize ≤ imgLength h ∧ bytesAt h 13 1 < 2 ∧ bytesAt h 76 52 = 0 ∧ bytesAt h 224 32 = 0 ∧
    bytesAt h (256 + 96 * n) (96 * (160 - n)) = 0 ∧ bytesAt h 15616 672 = 0) && (List.range n).all (entryOk h)

/-- The section types that an image of OP `op` may hold, and the further limits of R174. -/
def kindOk (op : Nat) (secs : List Sec) : Bool :=
  let ok := fun (l : List Nat) => secs.all (fun x => decide (x.ty ∈ l))
  let count := fun (t : Nat) => (secs.filter (fun x => x.ty == t)).length
  let once := fun (t n : Nat) => (secs.filter (fun x => x.ty == t && x.target == n)).length == 1
  let tables := [0x20, 0x21, 0x22, 0x23]
  let zero := secs.all (fun x => decide (x.ty = 2 ∨ x.ty = 0x10) || x.target == 0)
  zero && match op with
    | 0 => ok (1 :: 2 :: 0x10 :: tables) && count 1 == 1 && count 2 == 16 && (List.range 16).all (once 2) && count 0x10 == 128 &&
        (List.range 128).all (once 0x10) && tables.all (fun t => decide (count t ≤ 1))
    | 1 => ok [0x10] && secs.length == 1 && secs.all (fun x => decide (x.target < 128))
    | 2 => ok [1, 2] && decide (1 ≤ secs.length ∧ secs.length ≤ 17) && decide (count 1 ≤ 1) &&
        secs.all (fun x => x.ty == 1 || (decide (x.target < 16) && once 2 x.target))
    | _ => ok tables && decide (1 ≤ secs.length ∧ secs.length ≤ 4) && tables.all (fun t => decide (count t ≤ 1))

/-- The sections of an image in the order of application (R174). -/
def secOrder (l : List Sec) : List Sec := [1, 2, 0x10, 0x20, 0x21, 0x22, 0x23].flatMap (fun t => l.filter (fun x => x.ty == t))

/-- SIGNATURE verifies under SIGNER_KEY (R171, R173 step 2). -/
def imgSigned (h : Nat) : Bool := sigVerifies (bytesAt h 128 96) (bytesAt h 16288 96) (toBytes 16288 h)

/-- The SHA-384 digest of SIGNER_KEY (R545). -/
def imgSigner (h : Nat) : Nat := sha384 (toBytes 96 (bytesAt h 128 96))

/-- The IV of section `i` (R173 step 6): the last 4 bytes of IV_BASE, read as a 32-bit integer, increase by i. -/
def secIv (h i : Nat) : Nat := bytesAt h 64 8 + (bytesAt h 72 4 + i) % 2 ^ 32 * 2 ^ 64

/-- The stored bytes of a section match DIGEST (R173 step 5). -/
def digestOk (x : Sec) (stored : Nat) : Bool := sha384 (toBytes x.slen stored) == x.digest

/-- The tag of an encrypted section matches (R173 step 6); the additional data is bytes 0 to 31 of its entry. -/
def tagOk (key h : Nat) (x : Sec) (stored : Nat) : Bool :=
  gcmTag key (secIv h x.index) 32 (bytesAt h (256 + 96 * x.index) 32) x.slen stored == x.tag

/-- A section in the clear. -/
def secClear (key h : Nat) (x : Sec) (stored : Nat) : Nat :=
  if imgEncrypted h then gcmCrypt key (secIv h x.index) x.slen stored else stored

/-! ### Records of a bay section (R175) -/

/-- A record: OP, FIRST, COUNT, and where its data starts in the section. -/
structure Rec where
  op : Nat
  first : Nat
  count : Nat
  data : Nat
deriving DecidableEq, Repr

/-- How many bytes of data follow the header of a record. -/
def Rec.size (r : Rec) : Nat :=
  match r.op with
  | 1 => 640 * r.count
  | 2 => 640
  | 4 => 4608 * r.count
  | _ => 0

/-- The fields of the record header at `pos`. -/
def recHead (plain pos : Nat) : Rec :=
  let w := bytesAt plain pos 4
  ⟨w / 2 ^ 28, w / 2 ^ 13 % 2 ^ 13, w % 2 ^ 13 + 1, pos + 4⟩

/-- The record at `pos` of a bay section of `slen` bytes; none where R175 is broken: an OP without a record, bits 27:26 not 0, data past
the end of the section, bytes after END (log entry 45). -/
def bayRec (plain slen pos : Nat) : Option Rec :=
  let r := recHead plain pos
  if pos + 4 ≤ slen ∧ bytesAt plain pos 4 / 2 ^ 26 % 4 = 0 ∧ r.op ∈ [1, 2, 3, 4, 5, 6, 15] ∧ r.data + r.size ≤ slen ∧
      (r.op = 15 → r.data = slen) then some r else none

/-- FRAME of a RECORD error for the record at `pos` (R197). -/
def recFrame (plain slen pos : Nat) : Nat :=
  let r := recHead plain pos
  if pos + 4 ≤ slen ∧ r.op ∈ [1, 2, 3] then r.first else 0

/-- Data of frame `i` as the record gives it, when it names that frame. -/
def Rec.frame (r : Rec) (plain i : Nat) : Option Nat :=
  if r.first ≤ i ∧ i < r.first + r.count then
    match r.op with
    | 1 => some (bytesAt plain (r.data + 640 * (i - r.first)) 640)
    | 2 => some (bytesAt plain r.data 640)
    | 3 => some 0
    | _ => none
  else none

/-- The data of frame `i` in the records from `pos` on; zeros where none names it. `fuel` is at least their number. -/
def bayFrame (plain slen i : Nat) : Nat → Nat → Nat
  | 0, _ => 0
  | n + 1, pos =>
    match bayRec plain slen pos with
    | none => 0
    | some r =>
      match r.frame plain i with
      | some d => d
      | none => if r.op = 15 then 0 else bayFrame plain slen i n (r.data + r.size)

/-- The rows that CONTENT gives memory `j` of the record (R175): 512 rows of 9 bytes. -/
def Rec.rows (r : Rec) (plain j : Nat) : List Nat := (List.range 512).map (fun i => bytesAt plain (r.data + 4608 * j + 9 * i) 9)

/-! ### Records of a table section (R177) -/

/-- The registers that a record of a section of TYPE `ty` may write (R177). -/
def tableReg (ty a : Nat) : Bool :=
  a % 4 == 0 && (match ty with
  | 0x20 =>
    (regAt a).isSome && (a == CLK_OSC_TRIM_CTRL || a == CLK_OSC_TRIM_EXP || a == CLK_HUB_SEL || a == CLK_GATE_EN0 || a == CLK_GATE_EN1 ||
      (decide (0x100100 ≤ a ∧ a < 0x100200) && decide (a % 16 ≤ 4)) || (decide (0x101000 ≤ a ∧ a < 0x101200) && decide (a % 16 ≤ 4)) ||
      decide (0x102000 ≤ a ∧ a < 0x102800) || (decide (0x105000 ≤ a ∧ a < 0x106000) && decide (a % 16 ≤ 4)))
  | 0x21 =>
    decide (0x620000 ≤ a ∧ a < 0x640000) || decide (0x680000 ≤ a ∧ a < 0x6A0000) || decide (0x6C0000 ≤ a ∧ a < 0x6E0000) ||
      (decide (0x600100 ≤ a ∧ a < 0x600180) && a % 16 == 0) || a == CALLER_CTRL || a == CALLER_SPILL_BASE || a == CALLER_STALL_LIMIT
  | 0x22 =>
    a == LAT_NODE || a == LAT_CTRL || a == LAT_LEAD || a == LAT_LOSS_TMO || (decide (0x701000 ≤ a ∧ a < 0x701200) && a % 8 == 0) ||
      decide (0x704000 ≤ a ∧ a < 0x708000)
  | _ =>
    (decide (0xD00000 ≤ a ∧ a < 0xD00050) && a % 16 == 0) || decide (0xD00080 ≤ a ∧ a < 0xD00094) || a == PIN_PERIPH_EN ||
      decide (0xD01000 ≤ a ∧ a < 0xD01280) || a == UART_CTRL 0 || a == UART_CTRL 1 || a == SPI_CTRL || decide (0xD02300 ≤ a ∧ a < 0xD02330) ||
      a == TET_CTRL || a == TET_CKOUT 0 || a == TET_CKOUT 1 || a == TET_OUT_LO || a == TET_OUT_HI || a == TET_OE_LO || a == TET_OE_HI)

/-- The 32-bit word at `pos`. -/
def wordAt (plain pos : Nat) : Nat := bytesAt plain pos 4

/-- OFFSET of the WRITE record at `pos`, as an offset from the hub base. -/
def tabOff (plain pos : Nat) : Nat := wordAt plain pos % 2 ^ 26

/-- COUNT of the WRITE record at `pos`. -/
def tabCount (plain pos : Nat) : Nat := wordAt plain (pos + 4)

/-- The values of the WRITE record at `pos`. -/
def tabValues (plain pos : Nat) : List Word := (List.range (tabCount plain pos)).map (fun j => BitVec.ofNat 32 (wordAt plain (pos + 8 + 4 * j)))

/-- The record at `pos` of a table section is END. -/
def tabIsEnd (plain pos : Nat) : Bool := wordAt plain pos / 2 ^ 30 == 3

/-- The WRITE record at `pos` keeps R177: the bits without a field are 0 (log entry 45), COUNT is in its range, the values lie in the
section and reach no other register. -/
def tabWriteOk (ty plain slen pos : Nat) : Bool :=
  let w := wordAt plain pos
  let n := tabCount plain pos
  decide (w / 2 ^ 26 = 16 ∧ w % 4 = 0 ∧ 1 ≤ n ∧ n ≤ 16777216 ∧ pos + 8 + 4 * n ≤ slen) &&
    (List.range n).all (fun j => tableReg ty (tabOff plain pos + 4 * j))

/-- The records of a table section from `pos` on keep R177: WRITE records, then END, then zeros only. `fuel` is at least their number. -/
def tabOk (ty plain slen : Nat) : Nat → Nat → Bool
  | 0, _ => false
  | n + 1, pos =>
    if slen < pos + 4 then false
    else if tabIsEnd plain pos then wordAt plain pos == 3 * 2 ^ 30 && bytesAt plain pos slen == 3 * 2 ^ 30
    else tabWriteOk ty plain slen pos && tabOk ty plain slen n (pos + 8 + 4 * tabCount plain pos)

/-- Every record of a table section keeps R177. -/
def tabSecOk (x : Sec) (plain : Nat) : Bool := tabOk x.ty plain x.slen (x.slen / 4 + 1) 0

end Sys2Proof.Machine
end

