-- ==== Sys2Proof/Machine/TailRun.lean ====
section
/-! DEFINITION. Sys2Proof/Machine/TailRun.lean: how the Tail runs (file 09): captures (R328 to R338), maps and slots (R343, R344), triggers
(R345 to R350), rings (R351, R352), Reel-in (R354 to R357), export and import (R359 to R361). -/

namespace Sys2Proof.Machine

/-! ### Captures -/

/-- PENDING follows the requests. -/
def State.capPending (s : State) : State := s.put TAIL_CAP_STAT_PENDING (b2n (s.tail.req.isSome || s.tail.trig.isSome))

/-- GO of TAIL_CAP_CTRL with its MODE (R332, R333, R338). -/
def State.captureGo (s : State) (mode : Nat) : State :=
  let r := s.f TAIL_CAP_ROUND_LO_ROUND_LO + s.f TAIL_CAP_ROUND_HI_ROUND_HI * 2 ^ 32
  let late := s.latState == 6
  if s.reelBusy then s.capRefuse 9
  else if s.tail.req.isSome then s.capRefuse 6
  else match mode with
    | 0 =>
      if r ≤ s.round.toNat ∨ (late ∧ r = s.round.toNat + 1) then s.capRefuse 4
      else (s.setTail { s.tail with req := some (0, r, false) }).capPending
    | 1 => (s.setTail { s.tail with req := some (1, 0, late) }).capPending
    | 2 =>
      if !s.stopped then s.capRefuse 5
      else if !s.capFree then s.capRefuse 6
      else s.capStart s.round.toNat
    | _ => s.capRefuse 5

/-- Bit `q` of what the shadow latches of one memory hold (R329). -/
def State.memChain (s : State) (m q : Nat) : Bool :=
  let r := mget s.fab.portShadow PortReg.init (2 * m + q / 146)
  let i := q % 146
  if 292 ≤ q then false
  else if i < 72 then r.dout.toNat.testBit i
  else if i < 144 then r.stage.toNat.testBit (i - 72)
  else if i = 144 then r.dout.toNat.testBit 72 else r.stage.toNat.testBit 72

/-- The chain positions of one slice as a number (R329). -/
def SliceReg.chain (r : SliceReg) : Nat :=
  r.a.v.toNat % 2 ^ 27 + r.b.v.toNat % 2 ^ 24 * 2 ^ 27 + r.c.v.toNat * 2 ^ 51 + r.d.v.toNat % 2 ^ 27 * 2 ^ 115 +
    r.m.v.toNat % 2 ^ 51 * 2 ^ 142 + r.p.v.toNat * 2 ^ 193 + b2n r.ovf * 2 ^ 257 + b2n r.preOvf * 2 ^ 258 +
    (r.a.r.toNat + r.b.r.toNat * 8 + r.c.r.toNat * 64 + r.d.r.toNat * 512 + r.m.r.toNat * 4096 + r.p.r.toNat * 32768) * 2 ^ 259 +
    (b2n r.a.p + 2 * b2n r.m.p + 4 * b2n r.p.p) * 2 ^ 277

/-- The registers whose chain positions are the bits of a number; `sgn`: the 51 bits of the product register are signed. -/
def sliceOfChain (sgn : Bool) (n : Nat) : SliceReg :=
  let v := fun (lo w : Nat) => BitVec.ofNat 64 ((n >>> lo) % 2 ^ w)
  let r := fun (i : Nat) => BitVec.ofNat 3 (n >>> (259 + 3 * i))
  { a := ⟨v 0 27, r 0, n.testBit 277⟩, b := ⟨v 27 24, r 1, false⟩, c := ⟨v 51 64, r 2, false⟩, d := ⟨v 115 27, r 3, false⟩,
    m := ⟨if sgn then BitVec.ofNat 64 (wrap 64 (sext 51 (n >>> 142))) else v 142 51, r 4, n.testBit 278⟩, p := ⟨v 193 64, r 5, n.testBit 279⟩,
    ovf := n.testBit 257, preOvf := n.testBit 258 }

/-- The line of sector `n` at drain step `j` (R328 to R330). -/
def State.drainLine (s : State) (n j : Nat) : Nat :=
  packBits ((List.range 480).map (fun b =>
    if b < 384 then
      mget s.fab.shadow false (2 * (((384 * n + b) * 256 + j / 32) * 16 + j % 32 / 2) + j % 2)
    else if b < 432 then
      let p := 3 * j + (b - 384) % 3
      s.memChain (1024 * n + 128 * ((b - 384) / 6) + 64 * ((b - 384) % 6 / 3) + p / 384) (p % 384)
    else
      let p := 2 * j + (b - 432) % 2
      (mget s.fab.sliceShadow SliceReg.init (768 * n + 96 * ((b - 432) / 6) + 32 * ((b - 432) % 6 / 2) + p / 512)).chain.testBit
        (p % 512)))

/-- Shift one bit into the shadow latch at position `q` of memory `m` (R329). -/
def State.memUnchain (s : State) (m q : Nat) (v : Bool) : State :=
  if 292 ≤ q then s
  else
    let k := 2 * m + q / 146
    let i := q % 146
    let r := mget s.fab.portShadow PortReg.init k
    let set := fun (x : BitVec 73) (j : Nat) => BitVec.ofNat 73 (x.toNat - b2n (x.toNat.testBit j) * 2 ^ j + b2n v * 2 ^ j)
    let r' := if i < 72 then { r with dout := set r.dout i } else if i < 144 then { r with stage := set r.stage (i - 72) }
      else if i = 144 then { r with dout := set r.dout 72 } else { r with stage := set r.stage 72 }
    s.setFab { s.fab with portShadow := mset s.fab.portShadow PortReg.init k r' }

/-- Shift one bit into the shadow latch at position `q` of slice `sl` (R329). -/
def State.sliceUnchain (s : State) (sl q : Nat) (v : Bool) : State :=
  if 280 ≤ q then s
  else
    let x := (mget s.fab.sliceShadow SliceReg.init sl).chain
    let y := x - b2n (x.testBit q) * 2 ^ q + b2n v * 2 ^ q
    let sgn := match s.sliceCfg sl with
      | some c => c.aSigned || c.bSigned
      | none => false
    s.setFab { s.fab with sliceShadow := mset s.fab.sliceShadow SliceReg.init sl (sliceOfChain sgn y) }

/-- Shift the line of sector `n` at step `j` into the chains (R328 to R331). -/
def State.loadLine (s : State) (n j line : Nat) : State :=
  s.each (List.range 480) (fun b t =>
    let v := line.testBit b
    if b < 384 then
      let k := 2 * (((384 * n + b) * 256 + j / 32) * 16 + j % 32 / 2) + j % 2
      t.setFab { t.fab with shadow := mset t.fab.shadow false k v }
    else if b < 432 then
      let p := 3 * j + (b - 384) % 3
      t.memUnchain (1024 * n + 128 * ((b - 384) / 6) + 64 * ((b - 384) % 6 / 3) + p / 384) (p % 384) v
    else
      let p := 2 * j + (b - 432) % 2
      t.sliceUnchain (768 * n + 96 * ((b - 432) / 6) + 32 * ((b - 432) % 6 / 2) + p / 512) (p % 512) v)

/-- A Reel-in reads `n` bytes at `a`; none: poison or error status, logged with KIND 1. -/
def State.reelRead (s : State) (a n : Nat) : State × Option Nat :=
  let r := s.hubRead 19 a n []
  if r.2.poison || r.2.err then (r.1.tailErr 1 a, none) else (r.1, some r.2.data)

/-- Read line `j` of sector `n` from the slot at `base` and load it; false when it is poisoned. -/
def State.reelLine (s : State) (base j n : Nat) : State × Bool :=
  let r := s.reelRead (base + 0x100000 + (8192 * n + j) * 64) 64
  (r.1.each r.2.toList (fun line t => t.loadLine n j line), r.2.isSome)

/-- Read the lines of step `j` for the sectors and load them, up to the first that is poisoned. -/
def reelLines (l : List Nat) (base j : Nat) (s : State) : State × Bool :=
  l.foldl (fun x n => if x.2 then x.1.reelLine base j n else x) (s, true)

/-- Write row `row` of memory `m` into the memory section of the running capture (R342); `up`: bits that flip in the line buffer. -/
def State.capRow (s : State) (m row raw : Nat) (up : List (Nat × Nat)) : State :=
  match s.tail.cap with
  | none => s
  | some c => s.capBuf (s.slotBase c.slot + 0x1000000 + m * 8192 + row * 16) 16 (raw % 2 ^ 72 + (row + 2 ^ 15) * 2 ^ 72) up

/-- The rows of memory `m` that are not copied. -/
def State.uncopied (s : State) (m : Nat) : List Nat :=
  let l := mget s.fab.copied (List.range 512) m
  (List.range 512).filter (fun r => !decide (r ∈ l))

/-- A copy-out register of sector `n` is full. -/
def State.copyOutFull (s : State) (n : Nat) : Bool := s.fab.copyOut.any (fun e => e.1 / 2048 == n && e.2.isSome)

/-- Every row of every design memory is copied and every copy-out register empty. -/
def State.walked (s : State) : Bool :=
  s.fab.copied.all (fun e => (s.uncopied e.1).isEmpty) && s.fab.copyOut.all (fun e => e.2.isNone)

/-! ### The live map, slots -/

/-- BUILD follows the rebuilds. -/
def State.mapBuild (s : State) : State := s.put TAIL_CAP_STAT_BUILD (b2n !(s.tail.mapDue.isEmpty && s.tail.build.isEmpty))

/-! ### Probes and triggers -/

/-- The value of a probe and its poison bit (R345, R346); nothing drives a probe that no item names. -/
def State.probe (s : State) (type index : Nat) : Nat × Bool :=
  match type with
  | 0 => let w := mget s.fab.outFig BWord.init index; (w.data.toNat, w.poison)
  | 1 =>
    let bit := fun (i : Nat) => s.items.any (fun e => match e.2 with
      | .probe n j src => n == index && j == i && s.pinVal (8 * index) src
      | _ => false)
    (packBits ((List.range 16).map bit), false)
  | 2 => (b2n (decide (index < 512 ∧ 4096 + index ∈ s.tail.taskHit)), false)
  | 3 => (s.round.toNat, false)
  | 4 => (b2n (decide (index < 4096 ∧ index ∈ s.tail.taskHit)), false)
  | 5 => let w := mget s.fab.inFig BWord.init index; (w.data.toNat, w.poison)
  | _ => (0, false)

/-- The next restore edge is reached while the rounds are stopped: 16 f after they stopped, or after ARMED became visible (R356). -/
def State.restoreReached (s : State) : Bool :=
  s.f TAIL_REEL_STAT_STATE == 2 && s.stopped && s.tail.reel.any (fun r => decide (max r.armFig s.lat.stopFig + 16 ≤ s.fig.toNat))

/-- The Tail's triggers and rings operate. -/
def State.tailOn (s : State) : Bool := s.on TAIL_CTRL_EN && s.gateRun 36

/-- A time lies in the half-open window [start, stop), compared as signed differences in 48 bits (R39). -/
def inWindow (t start stop : Nat) : Bool :=
  decide (0 ≤ sext 48 (t + 2 ^ 48 - start) ∧ sext 48 (t + 2 ^ 48 - stop) < 0)

/-- Arm unit `u`: HITS clears (R349). -/
def State.trigArm (s : State) (u : Nat) : State := (s.put (TAIL_TRG_STAT_ARMED u) 1).put (TAIL_TRG_STAT_HITS u) 0

/-- The TRIG lines that unit `u` pulses (R565): enabled, in output mode, naming the unit. -/
def State.trigLines (s : State) (u : Nat) : List Nat :=
  (List.range 4).filter (fun k => (s.reg PIN_PERIPH_EN).toNat.testBit (5 + k) && s.on (TRIG_CFG_OUT k) &&
    (s.pair (TRIG_UNITS_LO k) (TRIG_UNITS_HI k)).testBit u)

/-- ACT_RING: ring `k` writes POST further records and stops (R350). -/
def State.ringPost (s : State) (k : Nat) : State :=
  let n := s.f (TAIL_RING_CFG_POST k)
  if n = 0 then s.put (TAIL_RING_CFG_STOPPED k) 1
  else s.setTail { s.tail with post := mset s.tail.post none k (some n) }

/-- Unit `u` fires (R349, R350): its actions; the units that it arms, and itself under AUTO, are armed at the next edge. -/
def State.trigFire (s : State) (u : Nat) : State :=
  let s1 := (s.put (TAIL_TRG_STAT_ARMED u) 0).put (TAIL_TRG_STAT_FIRED u) 1
  let s2 := s1.when (s1.on (TAIL_TRG_CFG_ACT_IRQ u)) (fun t => t.raise 178)
  let s3 := if s2.on (TAIL_TRG_CFG_ACT_CAPTURE u) then
      (if s2.reelBusy then s2.capRefuse 9
       else (s2.setTail { s2.tail with trig := some ((s2.tail.trig.getD true) && s2.latState == 6) }).capPending)
    else s2
  let s4 := s3.when (s3.on (TAIL_TRG_CFG_ACT_STOP u)) (fun t => t.latStop (t.round.toNat + t.f LAT_LEAD_STOP_LEAD))
  let s5 := if s4.on (TAIL_TRG_CFG_ACT_PIN u) then
      s4.setPin { s4.pin with trigReq := (s4.trigLines u).foldl ladd s4.pin.trigReq } else s4
  let s6 := s5.when (s5.on (TAIL_TRG_CFG_ACT_RING u)) (fun t => t.ringPost (t.f (TAIL_TRG_CFG_RING u)))
  let next := ((List.range 64).filter (fun v => s6.on (TAIL_TRG_CFG_EN v) && s6.f (TAIL_TRG_CFG_ARM_SRC v) == 1 &&
    s6.f (TAIL_TRG_CFG_ARM_UNIT v) == u)) ++ (if s6.on (TAIL_TRG_CFG_AUTO u) then [u] else [])
  s6.setTail { s6.tail with armDue := next.foldl ladd s6.tail.armDue }

/-- A sample of unit `u` is a hit (R348). -/
def State.trigHit (s : State) (u : Nat) : Bool :=
  let v := (s.probe (s.f (TAIL_TRG_SEL_TYPE u)) (s.f (TAIL_TRG_SEL_INDEX u))).1 &&& s.pair (TAIL_TRG_MASK_LO u) (TAIL_TRG_MASK_HI u)
  let ok := match s.f (TAIL_TRG_CFG_OP u) with
    | 1 => v != s.pair (TAIL_TRG_VAL_LO u) (TAIL_TRG_VAL_HI u)
    | 2 => v != mget s.tail.prev 0 u
    | _ => v == s.pair (TAIL_TRG_VAL_LO u) (TAIL_TRG_VAL_HI u)
  let start := s.f (TAIL_TRG_WIN_START_LO_START_LO u) + s.f (TAIL_TRG_WIN_HI_START_HI u) * 2 ^ 32
  let stop := s.f (TAIL_TRG_WIN_END_LO_END_LO u) + s.f (TAIL_TRG_WIN_HI_END_HI u) * 2 ^ 32
  ok && (match s.f (TAIL_TRG_CFG_WIN u) with
    | 1 => inWindow (s.fig.toNat % 2 ^ 48) start stop
    | 2 => inWindow s.round.toNat start stop
    | _ => true)

/-- The announcement edge x of a bow (R261, R347). -/
def State.announceEdge (s : State) : Bool := s.latState == 6 && s.lat.annFig == s.fig.toNat

/-- Unit `u` samples now (R347): enabled, at the announcement edge when it samples with BOW, but EVENT and TASK probes, and once at an
edge. -/
def State.trigSamples (s : State) (u : Nat) : Bool :=
  let ty := s.f (TAIL_TRG_SEL_TYPE u)
  decide (u < 64) && s.tailOn && s.on (TAIL_TRG_CFG_EN u) && decide (u ∉ s.tail.sampled) &&
    (!s.on (TAIL_TRG_CFG_SAMPLE u) || ty == 2 || ty == 4 || s.announceEdge)

/-- One sample of unit `u` (R347 to R349): a hit of an armed unit counts, and the hit that brings HITS to COUNT fires. -/
def State.trigSample (s : State) (u : Nat) : State :=
  let v := (s.probe (s.f (TAIL_TRG_SEL_TYPE u)) (s.f (TAIL_TRG_SEL_INDEX u))).1 &&& s.pair (TAIL_TRG_MASK_LO u) (TAIL_TRG_MASK_HI u)
  let hit := s.trigHit u && s.on (TAIL_TRG_STAT_ARMED u)
  let s1 := s.setTail { s.tail with prev := mset s.tail.prev 0 u v, sampled := ladd s.tail.sampled u }
  if hit then
    let s2 := s1.satF (TAIL_TRG_STAT_HITS u) 1
    if max 1 (s2.f (TAIL_TRG_CFG_COUNT u)) ≤ s2.f (TAIL_TRG_STAT_HITS u) then s2.trigFire u else s2
  else s1

/-! ### Reel-in -/

/-- What the header of a slot holds, read for a Reel-in: its first line and the bay map; none for poison or error status. -/
def reelHeader : Nat → Nat → List Nat → State → State × Option (List Nat)
  | 0, _, acc, s => (s, some acc)
  | n + 1, a, acc, s =>
    match s.reelRead a 64 with
    | (u, none) => (u, none)
    | (u, some d) => reelHeader n (a + 64) (acc ++ [d]) u

/-- The bay map of a header agrees with the device (R354 BAYMAP). -/
def State.bayMapOk (s : State) (lines : List Nat) : Bool :=
  s.cfg.arm.isNone && (List.range 128).all (fun k =>
    let w := (lines.getD (1 + k / 8) 0 >>> (64 * (k % 8))) % 2 ^ 64
    let run := w.testBit 32
    let here := s.bayState k == bayRun
    run == here && (!run || w % 2 ^ 32 == s.f (CFG_BAY_CRC_CRC k)))

/-- The checks of R354 that need no read: the lowest failing cause; `busy`: another Reel-in is under way. -/
def State.reelCheck (s : State) (slot : Nat) (busy : Bool) (lines : Option (List Nat)) : Option Nat :=
  let h := (lines.getD []).getD 0 0
  let ok := lines.isSome
  let gated := !(s.gateRun 36 && s.gateOn 32 && s.gateOn 33 && s.gateOn 34 && s.gateOn 35)
  if s.slotState slot ≠ 2 then some 1
  else if ok ∧ (bitsOf h 383 256 ≠ s.cfg.design ∨ bitsOf h 111 96 ≠ s.nodeId) then some 2
  else if ok ∧ !s.bayMapOk (lines.getD []) then some 3
  else if !s.on CFG_STAT_STARTED || !s.figOnPll || busy then some 4
  else if gated then some 5
  else if ok ∧ (bitsOf h 31 0 ≠ 0x53504C31 ∨ bitsOf h 47 32 ≠ 1 ∨ 8 ≤ bitsOf h 415 384) then some 6
  else if !ok then some 7
  else if s.alarmed then some 8
  else none

/-- An entry of the list section (R342): list and entry. -/
def listOf (e : Nat) : Nat × DEntry :=
  (bitsOf e 62 60, ⟨bitsOf e 47 0, bitsOf e 59 48, bitsOf e 69 64, 0, 0, 0, 0⟩)

/-- Read `n` list entries of a slot into staging (R355). -/
def reelLists : Nat → Nat → List (Nat × DEntry) → State → State × Option (List (Nat × DEntry))
  | 0, _, acc, s => (s, some acc)
  | n + 1, a, acc, s =>
    match s.reelRead a 16 with
    | (u, none) => (u, none)
    | (u, some e) => reelLists n (a + 16) (acc ++ [listOf e]) u

/-- GO of TAIL_REEL_CTRL for a slot (R354, R355). -/
def State.reelGo (s : State) (slot : Nat) : State :=
  let st := s.f TAIL_REEL_STAT_STATE
  let busy := st == 1 || st == 2 || st == 3
  let base := s.slotBase slot
  let h := if s.slotState slot = 2 then reelHeader 17 base [] s else (s, none)
  match h.1.reelCheck slot busy h.2 with
  | some c => h.1.reelSay c
  | none =>
    let l := (h.2.getD []).getD 0 0
    let round := bitsOf l 175 128
    let s1 := ((h.1.setTail { h.1.tail with reel := some ⟨slot, round, [], 0, false, st == 4, 0⟩ }).slotUse slot).put TAIL_REEL_STAT_STATE 1
    let s2 := ((s1.put TAIL_REEL_STAT_LATE_POISON 0).put TAIL_REEL_STAT_CAUSE 0).pace 32 s1.drainDiv
    match reelLists (min 8192 (bitsOf l 447 416)) (base + 4096) [] s2 with
    | (t, none) => t.reelRefuse 7
    | (t, some ls) => t.setTail { t.tail with reel := t.tail.reel.map (fun x => { x with lists := ls }) }

/-- The design memories' rows: (memory, row). -/
def State.designRows (s : State) : List (MemCfg × Nat) :=
  (s.mems.filter s.designMem).flatMap (fun c => (List.range 512).map (fun r => (c, r)))

/-- Where the snapshot in slot `i` holds row `r` of memory `m` (R342). -/
def State.rowAddr (s : State) (i m r : Nat) : Nat := s.slotBase i + 0x1000000 + m * 8192 + r * 16

/-- Read one row of the snapshot; false when it is poisoned. -/
def State.reelRow (s : State) (slot : Nat) (x : MemCfg × Nat) : State × Bool :=
  let r := s.reelRead (s.rowAddr slot x.1.mem x.2) 16
  (r.1, r.2.isSome)

/-- Read every row of the snapshot, checking each (R355 VERIFY), up to the first that is poisoned. -/
def reelRows (l : List (MemCfg × Nat)) (slot : Nat) (s : State) : State × Bool :=
  l.foldl (fun x r => if x.2 then x.1.reelRow slot r else x) (s, true)

/-- The restored entries go into their lists in their stored order, as insertions of the restore edge with the tag of an earlier round
(R335, R356). -/
def restoreLists : List (Nat × DEntry) → State → State
  | [], s => s
  | (l, d) :: t, s => restoreLists t (s.listGrow l (s.dlistOf l ++ [{ d with edge := s.fig.toNat, round := s.round.toNat - 1 }]))

/-- Every kept token clears (R356). -/
def State.tokensClear (s : State) : State :=
  let s1 := s.setLat { s.lat with bows := [], relay := [] }
  s1.each s1.peers (fun p t => (((t.put (LAT_PEER_STAT_HOLDING p.1) 0).put (LAT_PEER_STAT_LAST_TYPE p.1) 0).put
    (LAT_PEER_STAT_LAST_ROUND p.1) 0).put (LAT_PEER_STAT_PENDING p.1) 0)

/-- The restore edge of a Reel-in (R356), sectors of `resets` being reset at it. -/
def State.restoreAt (s : State) (r : Reel) (resets : List Nat) : State :=
  let running := s.inRound
  let s1 := s.fabricEdge ⟨resets, true, false, r.round, []⟩
  let s2 : State := { s1 with round := BitVec.ofNat 48 r.round }
  let s3 := restoreLists r.lists s2.callerReset
  let s4 := (s3.each (List.range 16) (fun n t => t.portFlush n)).setTarget none
  let s5 := ((s4.put LAT_STAT_STOP_NOW 0).setLat { s4.lat with stopLate := false }).tokensClear
  let s6 := s5.put TAIL_REEL_STAT_STATE 3
  if running then (((s6.setLatState 1).roundMarks).sendTokens 1 r.round).haltOnStop else s6

/-- Write one row of the snapshot back through the snapshot port (R115, R357). -/
def State.restoreRow (s : State) (slot : Nat) (c : MemCfg) (r : Nat) : State :=
  let a := s.rowAddr slot c.mem r
  let d := s.hubRead 19 a 16 []
  if d.2.poison || d.2.err then
    let raw := if c.ecc then encode64 (if d.2.err then 0 else d.2.data % 2 ^ 64) true else 0
    (((d.1.tailErr 1 a).setRow c.mem r raw).satF TAIL_REEL_STAT_LATE_POISON 1).raise 182
  else d.1.setRow c.mem r (d.2.data % 2 ^ 72)

/-! ### Export and import -/

/-- A transfer starts (R359, R360), with the fields of the same write; ignored while BUSY. -/
def State.xferGo (s : State) (imp : Bool) (keySlot slot : Nat) : State :=
  if s.on TAIL_EXP_STAT_BUSY then s
  else
    let s0 := (((s.put TAIL_EXP_CTRL_DIR (b2n imp)).put TAIL_EXP_CTRL_KEY_SLOT keySlot).put TAIL_EXP_CTRL_SLOT slot)
    let s1 := (s0.put TAIL_EXP_STAT_DONE 0).put TAIL_EXP_STAT_FAIL 0
    let fail := fun (t : State) (c : Nat) => ((t.put TAIL_EXP_STAT_CAUSE c).put TAIL_EXP_STAT_FAIL 1).raise 183
    let addr := s1.f TAIL_EXP_ADDR_ADDR4K
    let wait := s1.pin.gdl.length
    if s1.alarmed then fail s1 6
    else if imp then
      match s1.slotPick with
      | none => fail s1 1
      | some (i, retire) =>
        let s2 := s1.when retire (fun t => (t.slotFree i).raise 185)
        ((s2.setTail { s2.tail with xfer := some ⟨true, i, keySlot % 256, addr, wait⟩ }).put (TAIL_CAT_STAT_STATE i) 4).put TAIL_EXP_STAT_BUSY 1
    else if s1.slotState (slot % 256) ≠ 2 then fail s1 1
    else
      ((s1.setTail { s1.tail with xfer := some ⟨false, slot % 256, keySlot % 256, addr, wait⟩ }).slotUse (slot % 256)).put TAIL_EXP_STAT_BUSY 1

/-- The key of a transfer from slot `k` (R546): none where the slot is empty or above 7. -/
def State.xferKey (s : State) (k : Nat) : Option Nat :=
  if k < 4 then mget s.sec.fuses.key none k else if k ≤ 7 then mget s.sec.slots none k else none

/-- The bytes of ciphertext in a container (R359). -/
def boxLen : Nat := 151130112

/-- `n` lines of the Spool are read from `a` on, 64 bytes each; none when one returns poison or error status, which is logged. -/
def spoolGet : Nat → Nat → State → State × Option Nat
  | 0, _, s => (s, some 0)
  | n + 1, a, s =>
    let r := s.hubRead 19 a 64 []
    if r.2.poison || r.2.err then (r.1.tailErr 3 a, none)
    else match spoolGet n (a + 64) r.1 with
      | (t, some v) => (t, some (r.2.data + v * 2 ^ 512))
      | (t, none) => (t, none)

/-- `n` lines of the Spool are written from `a` on; false when a write completes with error. -/
def spoolPut : Nat → Nat → Nat → State → State × Bool
  | 0, _, _, s => (s, true)
  | n + 1, a, v, s =>
    let r := s.tailWrite 3 a 64 (v % 2 ^ 512) 0
    if r.2 then spoolPut n (a + 64) (v >>> 512) r.1 else (r.1, false)

/-- The clear text of a container (R359): header and list section, capture section, the map version that slot `i` names, memory section. -/
def State.boxRead (s : State) (i : Nat) : State × Option Nat :=
  let base := s.slotBase i
  let a := spoolGet 2112 base s
  let b := spoolGet 131072 (base + 0x100000) a.1
  let c := spoolGet 131072 (s.spoolBase + s.f (TAIL_CAT_STAT_MAP i) * 8 * 2 ^ 20) b.1
  let d := spoolGet 2097152 (base + 0x1000000) c.1
  (d.1, match a.2, b.2, c.2, d.2 with
    | some w, some x, some y, some z => some (w + x * 2 ^ 1081344 + y * 2 ^ 68190208 + z * 2 ^ 135299072)
    | _, _, _, _ => none)

/-- The clear header of a container (R359), 128 bytes; LENGTH counts the ciphertext (log entry 51). -/
def boxHead (keySlot iv seq node round design : Nat) : Nat :=
  0x53504558 + 2 ^ 32 + keySlot * 2 ^ 48 + boxLen * 2 ^ 64 + iv % 2 ^ 96 * 2 ^ 128 + seq * 2 ^ 256 + node * 2 ^ 288 + round * 2 ^ 320 +
    design * 2 ^ 384

/-- A container (R359): clear header, ciphertext, tag. -/
def boxSeal (key iv head plain : Nat) : Nat :=
  let c := gcmCrypt key iv boxLen plain
  head + c * 2 ^ 1024 + gcmTag key iv 64 (head % 2 ^ 512) boxLen c * 2 ^ (1024 + 8 * boxLen)

/-- The container of the clear text `plain` under `key` stands for the Gondola (R359, R361). The IV comes from the random source: a free
value (log entry 4). -/
def State.boxSend (s : State) (x : Transfer) (key plain : Nat) : State :=
  let iv := s.freeVal % 2 ^ 96
  let head := boxHead x.keySlot iv (bytesAt plain 8 4) (bytesAt plain 12 2) (bytesAt plain 16 8) (bytesAt plain 32 16)
  s.freeNext.setPin { s.pin with sent := some (x.addr * 4096, boxSeal key iv head plain) }

/-- An export of slot `x.slot` runs (R359, R361): the container that is written to the Gondola, or the cause that ends it. -/
def State.boxOut (s : State) (x : Transfer) : State × Nat :=
  match s.xferKey x.keySlot with
  | none => (s, 2)
  | some key =>
    let r := s.boxRead x.slot
    (r.1.each r.2.toList (fun plain t => t.boxSend x key plain), if r.2.isSome then 0 else 8)

/-- The checks of container `b` under `key` (R360): GCM_TAG, then HEADER. -/
def boxCheck (key b : Nat) : Option Nat :=
  if gcmTag key (bytesAt b 16 12) 64 (bytesAt b 0 64) boxLen (bytesAt b 128 boxLen) ≠ bytesAt b (128 + boxLen) 16 then some 2
  else if bytesAt b 0 4 ≠ 0x53504558 ∨ bytesAt b 4 2 ≠ 1 ∨ bytesAt b 8 8 ≠ boxLen then some 3
  else none

/-- The lines of 64 bytes of a number that are not zero. -/
def linesOf (n v : Nat) : List (Nat × Nat) := (List.range n).foldl (fun m i => mset m 0 i (bytesAt v (64 * i) 64)) []

/-- The clear text of a container goes into slot `i`, its map into version `v`, which the header then names (R343, R359, R360); false when
a write of the Spool completes with error. -/
def State.boxStore (s : State) (i v plain : Nat) : State × Bool :=
  let head := plain % 2 ^ 384 + v * 2 ^ 384 + plain % 2 ^ 512 / 2 ^ 416 * 2 ^ 416
  let base := s.slotBase i
  let a := spoolPut 2112 base (plain % 2 ^ 1081344 / 2 ^ 512 * 2 ^ 512 + head) (s.mapRetire v i)
  let b := spoolPut 131072 (base + 0x100000) (bytesAt plain 135168 8388608) a.1
  let c := spoolPut 2097152 (base + 0x1000000) (bytesAt plain 16912384 134217728) b.1
  (c.1.mapWrite v (linesOf 131072 (bytesAt plain 8523776 8388608)) (fun x l t => (t.tailWrite 3 x 64 l 0).1), a.2 && b.2 && c.2)

/-- The catalogue entry of slot `i` for a container with clear text `plain` and map version `v` (R343, R360). -/
def State.boxEntry (s : State) (i v plain : Nat) : State :=
  let e := (((s.put (TAIL_CAT_SEQ_SEQ i) (bytesAt plain 8 4)).put (TAIL_CAT_ROUND_LO_ROUND_LO i) (bytesAt plain 16 4)).put
    (TAIL_CAT_ROUND_HI_ROUND_HI i) (bytesAt plain 20 2)).put (TAIL_CAT_STAT_MAP i) v
  e.put (TAIL_CAT_STAT_FROZEN i) (b2n ((List.range 128).any (fun k => bytesAt plain (68 + 8 * k) 1 != 1)))

/-- The clear text of a container goes into slot `i` (R343, R359, R360); NO_MAP when no map version can be overwritten, POISON when a write
of the Spool completes with error (log entry 51). -/
def State.boxIn (s : State) (i plain : Nat) : State × Nat :=
  let v := s.nextMap
  if (s.slotsOfMap v).any (fun j => !s.slotLoose j) then (s, 9)
  else
    let r := s.boxStore i v plain
    (r.1.boxEntry i v plain, if r.2 then 0 else 8)

/-- An import of container `b` runs (R360, R361). -/
def State.boxTake (s : State) (x : Transfer) (b : Nat) : State × Nat :=
  match s.xferKey x.keySlot with
  | none => (s, 2)
  | some key =>
    let c := boxCheck key b
    if c.isSome then (s, c.getD 0) else s.boxIn x.slot (gcmCrypt key (bytesAt b 16 12) boxLen (bytesAt b 128 boxLen))

end Sys2Proof.Machine
end

