-- ==== Sys2Proof/Machine/FabricPorts.lean ====
section
/-! DEFINITION. Sys2Proof/Machine/FabricPorts.lean: the fabric's boundary words and aperture (R80 to R86), the mesh ports of the sectors
(R87 to R91), sector reset (R13, R91, R282), and the edges of free-running clocks (R61, R98, R117). -/

namespace Sys2Proof.Machine

/-- The outgoing nets of a bay are latched, or the bay is held (R190, R192). -/
def State.bayCut (s : State) (k : Nat) : Bool := decide (k ∈ s.fab.held) || s.fab.latched.any (fun e => e.1 == k)

/-- Free-running fabric clocks pass the sector-entry gates (R185, R188, R518). -/
def State.freeClocks (s : State) : Bool := s.fab.gatesOpen && s.power == 0

/-! ### Boundary words -/

/-- The FIG side of inbound word `g` reaches its fabric side (R80); in a bay that is frozen it does not (R190). -/
def State.crossIn (s : State) (g : Nat) : State :=
  if g ∈ s.fab.inDue then
    let s1 := s.setFab { s.fab with inDue := ldel s.fab.inDue g }
    if s.bayCut (g / 64) || s.fab.hold then s1
    else s1.setFab { s1.fab with inFab := mset s1.fab.inFab BWord.init g (mget s1.fab.inFig BWord.init g) }
  else s

/-- The global clock that the image chooses for BCLK of bay `k` (R79); frames without the choice choose none. -/
def State.bclk (s : State) (k : Nat) : Option Nat :=
  s.items.findSome? (fun e => match e.2 with
    | .bclk g => if e.1 = k then some g else none
    | _ => none)

/-- The global clock that the image chooses for PCLK of sector `n`. -/
def State.pclk (s : State) (n : Nat) : Option Nat :=
  s.items.findSome? (fun e => match e.2 with
    | .pclk g => if e.1 = 8 * n then some g else none
    | _ => none)

/-- A boundary or port clock has edges (R79, R91, R613): a free-running global clock that runs, behind open sector-entry gates. -/
def State.clockLive (s : State) (g : Option Nat) : Bool := s.freeClocks && g.any s.gclkRuns

/-- BCLK of bay `k` has edges. -/
def State.bclkRuns (s : State) (k : Nat) : Bool := s.clockLive (s.bclk k)

/-- PCLK of sector `n` has edges. -/
def State.pclkRuns (s : State) (n : Nat) : Bool := s.clockLive (s.pclk n)

/-- INBOUND_CROSSING (R80): it waits while BCLK of the word's bay is stopped (R613). -/
def execInboundCrossing (g : Nat) (s : State) : Out := .next (if s.bclkRuns (g / 64) then s.crossIn g else s)

/-- What the nets of outbound word `g` carry; a net that is not routed reads 0 (R72, R81). -/
def State.outNets (s : State) (g : Nat) : BWord :=
  match s.items.findSome? (fun e => match e.2 with
    | .bndOut w bits poison => if w = g then some (bits, poison) else none
    | _ => none) with
  | none => BWord.init
  | some (bits, poison) => ⟨BitVec.ofNat 64 (s.busVal (g / 64) bits), s.pinVal (g / 64) poison⟩

/-- OUTBOUND_CROSSING (R81): at an edge of BCLK the fabric side of word `g` samples its nets, and the sample reaches the FIG side; the FIG
sides of a frozen bay do not change (R190). -/
def execOutboundCrossing (g : Nat) (s : State) : Out :=
  .next <|
    if g < 8192 && s.bclkRuns (g / 64) && !s.bayCut (g / 64) && !s.fab.hold then
      let v := s.outNets g
      s.setFab { s.fab with outFab := mset s.fab.outFab BWord.init g v, outFig := mset s.fab.outFig BWord.init g v }
    else s

/-! ### Boundary aperture -/

/-- SEC_BND_IN_HI or SEC_BND_OUT_HI, live. -/
def BWord.hi (b : BWord) : Word := b.data.extractLsb' 32 32

/-- SEC_BND_IN_STAT or SEC_BND_OUT_STAT of a word, live. -/
def bndStat (b : BWord) (used : Bool) : Word := BitVec.ofNat 32 (b2n used * 2 ^ 31 + b2n b.poison)

/-- The word of sector `n` that aperture word `x` names: 0 to 511 inbound, 512 to 1,023 outbound; and USED. -/
def State.bndWord (s : State) (n x : Nat) : BWord × Bool :=
  if x < 512 then (mget s.fab.inFig BWord.init (512 * n + x), mget s.fab.used false (512 * n + x))
  else (mget s.fab.outFig BWord.init (512 * n + (x - 512)), mget s.fab.used false (8192 + 512 * n + (x - 512)))

/-- A read of the aperture of sector `n` at offset `off` (R84, R86, R89); a peek moves no hold register (R484). -/
def State.apRead (s : State) (n off : Nat) (peek : Bool) : State × Rsp :=
  if off < 0x4000 then
    let x := off / 16
    let w := s.bndWord n x
    let h := mget s.fab.apHold ApHold.init n
    let held := h.word == some x && !peek
    if off % 16 = 0 then
      let s1 := s.setFab { s.fab with apHold := mset s.fab.apHold ApHold.init n ⟨some x, w.1.hi, bndStat w.1 w.2⟩ }
      (if peek then s else s1, ⟨0, 0, w.1.data.toNat % 2 ^ 32, 0⟩)
    else if off % 16 = 4 then (s, ⟨0, 0, (if held then h.hi else w.1.hi).toNat, 0⟩)
    else if off % 16 = 8 then (s, ⟨0, 0, (if held then h.stat else bndStat w.1 w.2).toNat, 0⟩)
    else (s, ⟨0, 0, 0, 0⟩)
  else if off < 0x4080 then (s, ⟨0, 0, (mget s.fab.region 0 (32 * n + (off - 0x4000) / 4)).toNat, 0⟩)
  else (s, ⟨0, 0, 0, 0⟩)

/-- A write of `v` to the aperture of sector `n` at offset `off` (R84, R85). -/
def State.apWrite (s : State) (n off : Nat) (v : Word) : State × Rsp :=
  if off < 0x2000 ∧ off % 16 ≠ 12 then
    if !s.stopped then (s, ⟨4, 0x02, 0, 0⟩)
    else if s.fab.hold then (s, ⟨4, 0x04, 0, 0⟩)
    else
      let g := 512 * n + off / 16
      let b := mget s.fab.inFig BWord.init g
      let b1 : BWord := match off % 16 with
        | 0 => { b with data := b.hi ++ v }
        | 4 => { b with data := v ++ b.data.setWidth 32 }
        | _ => { b with poison := v.toNat.testBit 0 }
      (s.setFab { s.fab with inFig := mset s.fab.inFig BWord.init g b1, inDue := ladd s.fab.inDue g }, ⟨0, 0, 0, 0⟩)
  else (s, ⟨0, 0, 0, 0⟩)

/-- APERTURE_INBOUND_WRITE (R85): inbound word `w` of sector `n`, its register `r` (0 LO, 1 HI, 2 STAT), value `v`. -/
def execApertureInboundWrite (n w r : Nat) (v : Word) (s : State) : Out :=
  .next (if n < 16 ∧ w < 512 ∧ r < 3 then (s.apWrite n (16 * w + 4 * r) v).1 else s)

/-- APERTURE_LO_READ (R86): inbound or outbound word `w` of sector `n`. -/
def execApertureLoRead (n w : Nat) (out : Bool) (s : State) : Out :=
  .next (if n < 16 ∧ w < 512 then (s.apRead n (16 * (w + 512 * b2n out)) false).1 else s)

/-! ### Master port -/

/-- The value of a signal that the fabric drives into the mesh ports of sector `n`, `w` bits wide (R87, R90); 0 where the image routes
nothing. -/
def State.fabSig (s : State) (n : Nat) (sig : PortSig) (w : Nat) : Nat := s.busVal (8 * n) (s.portSrc n sig) % 2 ^ w

/-- A channel of sector `n`'s ports has not moved at the present edge of PCLK (R87). -/
def State.chanFree (s : State) (n c : Nat) : Bool := !decide (c ∈ mget s.fab.served [] n)

/-- A channel moves at the present edge of PCLK. -/
def State.chanDone (s : State) (n c : Nat) : State :=
  s.setFab { s.fab with served := mset s.fab.served [] n (ladd (mget s.fab.served [] n) c) }

/-- The ports of sector `n` work at an edge of PCLK, and channel `c` of them has not moved at it. -/
def State.chanOpen (s : State) (n c : Nat) : Bool := decide (n < 16) && s.sectorLive n && s.pclkRuns n && s.chanFree n c

/-- A response enters the buffer of master port `n`. -/
def State.masterBuf (s : State) (n : Nat) (r : MRsp) : State :=
  s.setFab { s.fab with mRsp := mset s.fab.mRsp [] n (mget s.fab.mRsp [] n ++ [r]) }

/-- The responses that have arrived for master port `n` enter its buffer, in their order, or are discarded when bay b0 does not run (R88,
R91). -/
def State.masterIn (s : State) (n : Nat) : State :=
  let l := mget s.mesh.inbox [] (32 + n)
  let s1 := s.setMesh { s.mesh with inbox := mset s.mesh.inbox [] (32 + n) [] }
  if s.sectorLive n then
    s1.each l (fun e t => t.masterBuf n ⟨e.1.tag, e.2.status, e.2.cause, if e.1.write then 0 else e.2.data, e.2.poison⟩)
  else s1

/-- M_FENCE_REQ of sector `n` at the present edge of PCLK (R87): while 16 fences are pending it waits (R88). -/
def State.masterFence (s : State) (n : Nat) : State :=
  if s.chanOpen n 2 && s.fabSig n .mFenceReq 1 == 1 then
    match s.issueFence (32 + n) with
    | (s1, some k) => (s1.setFab { s1.fab with mFence := mset s1.fab.mFence [] n (mget s1.fab.mFence [] n ++ [k]) }).chanDone n 2
    | (s1, none) => s1
  else s

/-- The access that the M_REQ signals present (R87): `be`, data and poison lie at their positions in the line. -/
def State.masterAcc (s : State) (n : Nat) : Acc :=
  let addr := s.fabSig n .mReqAddr 48
  let bytes := 2 ^ (s.fabSig n .mReqSize 3 + 2)
  let w := s.fabSig n .mReqWrite 1 == 1
  ⟨32 + n, s.fabSig n .mReqTag 6, w, addr, bytes, if w then s.fabSig n .mReqBe 64 &&& accBytes addr bytes else 0,
    if w then s.fabSig n .mReqData 512 else 0, if w then s.fabSig n .mReqPoison 8 else 0, 0⟩

/-- MASTER_REQUEST (R87, R88): a request that the fabric presents at an edge of PCLK is accepted when its tag is free; a fence presented at
the same edge comes first. -/
def execMasterRequest (n : Nat) (s : State) : Out :=
  .next <|
    let s0 := s.masterFence n
    let a := s0.masterAcc n
    if s0.chanOpen n 0 && s0.fabSig n .mReqValid 1 == 1 && s0.tagFree n a.tag then
      if a.size ≤ 64 ∧ a.addr % a.size = 0 then
        let s1 := s0.setTagAt a.key (.queued a)
        (s1.setMesh { s1.mesh with out := s1.mesh.out ++ [a.key] }).chanDone n 0
      else ((s0.masterIn n).masterBuf n ⟨a.tag, 4, 1, 0, 0⟩).chanDone n 0
    else s0

/-- MASTER_FENCE (R87): M_FENCE_REQ of sector `n` at an edge of PCLK. -/
def execMasterFence (n : Nat) (s : State) : Out := .next (s.masterFence n)

/-- MASTER_RESPONSE (R87, R88, R91): responses that have arrived for master port `n` enter its buffer, or are discarded when bay b0 does not
run; at an edge of PCLK with M_RSP_READY the fabric takes the one presented. -/
def execMasterResponse (n : Nat) (s : State) : Out :=
  .next <|
    if n < 16 then
      let s1 := s.masterIn n
      if s1.chanOpen n 1 && (mget s1.fab.portView PortView.init n).rsp.isSome && s1.fabSig n .mRspReady 1 == 1 then
        (s1.setFab { s1.fab with mRsp := mset s1.fab.mRsp [] n ((mget s1.fab.mRsp [] n).drop 1) }).chanDone n 1
      else s1
    else s

/-! ### Target port -/

/-- Where among the requests held at port `4 n + 1` the one lies that the fabric knows by entry `i` of its outstanding list: requests of
one key are presented in their order. -/
def State.tgtIndex (s : State) (n i : Nat) : Option Nat :=
  let l := mget s.fab.tReq [] n
  match l[i]? with
  | none => none
  | some (_, key) =>
    let nth := ((l.take i).filter (fun e => e.2 == key)).length
    (((s.waits (4 * n + 1)).zipIdx.filter (fun e => e.1.acc.key == key)).map (·.2))[nth]?

/-- The first request at port `4 n + 1` that the fabric has not seen. -/
def State.tgtNext (s : State) (n : Nat) : Option (Nat × Wait) :=
  let l := mget s.fab.tReq [] n
  (s.waits (4 * n + 1)).zipIdx.findSome? (fun e =>
    let before := (((s.waits (4 * n + 1)).take e.2).filter (fun w => w.acc.key == e.1.acc.key)).length
    let seen := (l.filter (fun x => x.2 == e.1.acc.key)).length
    if seen ≤ before && !e.1.ghost then some (e.2, e.1) else none)

/-- The target port answers its oldest request itself with USER_FROZEN (R91). -/
def State.tgtFrozen (s : State) (n : Nat) : State :=
  let s1 := s.tgtAnswer (4 * n + 1) 0 ⟨4, 0x71, 0, 0⟩
  let l := mget s1.fab.tReq [] n
  let l1 := match s.waits (4 * n + 1) with
    | w :: _ => (match l.findIdx? (fun e => e.2 == w.acc.key) with
      | some i => dropAt l i
      | none => l)
    | [] => l
  s1.setFab { s1.fab with tReq := mset s1.fab.tReq [] n l1, tShow := mset s1.fab.tShow none n none }

/-- TARGET_REQUEST (R90, R91): the oldest waiting request of sector `n` is presented to the fabric under the identifier `id`, and at a later
edge of PCLK with T_REQ_READY the fabric accepts it; while bay b0 does not run, the port answers its oldest request itself. -/
def execTargetRequest (n id : Nat) (s : State) : Out :=
  .next <|
    if 16 ≤ n then s
    else if !s.sectorLive n then s.tgtFrozen n
    else
      let l := mget s.fab.tReq [] n
      match mget s.fab.tShow none n with
      | none =>
        (match s.tgtNext n with
        | some (_, w) =>
          if s.pclkRuns n && decide (l.length < 32) && decide (id < 4096) && !l.any (fun e => e.1 == id) then
            s.setFab { s.fab with tShow := mset s.fab.tShow none n (some (id, w.acc.key)) }
          else s
        | none => s)
      | some x =>
        if s.chanOpen n 3 && (mget s.fab.portView PortView.init n).req.isSome && s.fabSig n .tReqReady 1 == 1 then
          (s.setFab { s.fab with tReq := mset s.fab.tReq [] n (l ++ [x]), tShow := mset s.fab.tShow none n none }).chanDone n 3
        else s

/-- TARGET_RESPONSE (R90): at an edge of PCLK the fabric of sector `n` answers the request that T_RSP_ID names; a response that names none
is a stray. While bay b0 does not run the port takes no response (R91). -/
def execTargetResponse (n : Nat) (s0 : State) : Out :=
  .next <|
    if !s0.chanOpen n 4 || s0.fabSig n .tRspValid 1 != 1 then s0
    else
      let s := s0.chanDone n 4
      let l := mget s.fab.tReq [] n
      match l.findIdx? (fun e => e.1 == s0.fabSig n .tRspId 12) with
      | none => s.meshStray n 0 0
      | some i =>
        let at_ := s.tgtIndex n i
        let s1 := s.setFab { s.fab with tReq := mset s.fab.tReq [] n (dropAt l i) }
        match at_ with
        | none => s1
        | some j =>
          let wr := ((s.waits (4 * n + 1))[j]?).any (fun w => w.acc.write)
          s1.tgtAnswer (4 * n + 1) j
            (if s0.fabSig n .tRspErr 1 = 1 then ⟨4, 0x70, 0, 0⟩
             else ⟨0, 0, if wr then 0 else s0.fabSig n .tRspData 512, if wr then 0 else s0.fabSig n .tRspPoison 8⟩)

/-- The request that target port `n` presents, as its signals show it (R90). -/
def State.tgtShown (s : State) (n : Nat) : Option TReq :=
  match mget s.fab.tShow none n, s.tgtNext n with
  | some (id, _), some (_, w) =>
    some ⟨id, w.acc.write, w.acc.addr % 2 ^ 32, w.acc.size.log2 - 2, w.acc.be, w.acc.data, w.acc.poison⟩
  | _, _ => none

/-- An edge of PCLK (R87, R90): the ports of sector `n` drive the response, the fence acknowledge and the request that stand first. A fence
acknowledge is shown for one cycle. While bay b0 does not run they drive nothing. -/
def State.meshPortEdge (s : State) (n : Nat) : State :=
  let ack := mget s.fab.mAck [] n
  let v : PortView := if s.sectorLive n then ⟨(mget s.fab.mRsp [] n).head?, ack.head?, s.tgtShown n⟩ else PortView.init
  s.setFab { s.fab with
    portView := mset s.fab.portView PortView.init n v
    mAck := mset s.fab.mAck [] n (ack.drop 1)
    served := mset s.fab.served [] n [] }

/-- Every request that target port `t` holds is answered, oldest first. -/
def tgtAnswerAll : Nat → Nat → Rsp → State → State
  | 0, _, _, s => s
  | k + 1, t, r, s => tgtAnswerAll k t r (s.tgtAnswer t 0 r)

/-! ### Sector reset -/

/-- What a sector reset of sector `n` reaches beside the edge of its round gates (R13, R36, R91): the station core, with its cause, and
the mesh ports. -/
def State.sectorReset (s : State) (n cause : Nat) : State :=
  let s1 := ((s.coreReset n cause false).initReset (32 + n)).orderReset (32 + n)
  let s2 := tgtAnswerAll (s1.waits (4 * n + 1)).length (4 * n + 1) ⟨4, 0x71, 0, 0⟩ s1
  s2.setFab { s2.fab with
    mRsp := mset s2.fab.mRsp [] n [], tReq := mset s2.fab.tReq [] n [], tShow := mset s2.fab.tShow none n none
    mAck := mset s2.fab.mAck [] n [], portView := mset s2.fab.portView PortView.init n PortView.init
    apHold := mset s2.fab.apHold ApHold.init n ApHold.init }

/-! ### Free-running clocks -/

/-- Flip-flop `b` of a cell is a free flip-flop (R58). -/
def State.ffFree (s : State) (c : CellCfg) (b : Bool) : Bool := (s.ffRound c.cell (if b then c.ffb else c.ffa)).isEmpty

/-- The next value of a free flip-flop at edges `l` of spines, each a sector, a spine and falling or not (R61): inverted cluster clocks act
on the falling edge. -/
def State.ffFreeEdge (s : State) (l : List (Nat × Nat × Bool)) (c : CellCfg) (b : Bool) : Option (Nat × Bool) :=
  let f := if b then c.ffb else c.ffa
  if s.ffFree c b && !decide (bayOfCell c.cell ∈ s.fab.held) &&
      (s.ffSpines c.cell f).any (fun e => decide ((sectorOfCell c.cell, e.1, e.2) ∈ l)) then
    some (2 * c.cell + b2n b, s.ffNext c b)
  else none

/-- A register that changes from `old` to `new` while the shadow latches are open, its latch (R63): the latch follows the register until FIG
edge b + 2, and in the figure between b + 2 and b + 3 the changed bits are bits of the free value `free`. -/
def latchBits (late : Bool) (old new free : Nat) : Nat := if late then new ^^^ ((new ^^^ old) &&& free) else new

/-- The shadow latches are not closed after the strobe of the last capture (R62): whether FIG edge b + 2 has passed. -/
def State.strobeOpen (s : State) : Option Bool :=
  s.tail.strobe.bind (fun b => if s.fig.toNat < b + 3 then some (decide (b + 2 ≤ s.fig.toNat)) else none)

/-- The latch of free flip-flop `k` follows its new value `v` (R62, R63). -/
def State.latchFf (s : State) (k : Nat) (v : Bool) : State :=
  match s.strobeOpen with
  | none => s
  | some late =>
    if mget s.fab.ff false k = v then s
    else
      let x := latchBits late (b2n (!v)) (b2n v) s.freeVal
      (s.when late State.freeNext).setFab { s.fab with shadow := mset s.fab.shadow false k (x % 2 == 1) }

/-- The latch of one register of a slice. -/
def latchSReg (late : Bool) (old new : SReg) (free : Nat) : SReg :=
  ⟨BitVec.ofNat 64 (latchBits late old.v.toNat new.v.toNat free), BitVec.ofNat 3 (latchBits late old.r.toNat new.r.toNat (free / 2 ^ 64)),
    latchBits late (b2n old.p) (b2n new.p) (free / 2 ^ 67) % 2 == 1⟩

/-- The latches of free slice `k` follow its new registers (R62, R63, R121). -/
def State.latchSlice (s : State) (k : Nat) (v : SliceReg) : State :=
  match s.strobeOpen with
  | none => s
  | some late =>
    let o := mget s.fab.slice SliceReg.init k
    if o = v then s
    else
      let f := fun (i : Nat) => s.freeVal / 2 ^ (68 * i)
      let x : SliceReg := ⟨latchSReg late o.a v.a (f 0), latchSReg late o.b v.b (f 1), latchSReg late o.c v.c (f 2),
        latchSReg late o.d v.d (f 3), latchSReg late o.m v.m (f 4), latchSReg late o.p v.p (f 5),
        latchBits late (b2n o.ovf) (b2n v.ovf) (f 6) % 2 == 1, latchBits late (b2n o.preOvf) (b2n v.preOvf) (f 6 / 2) % 2 == 1⟩
      (s.when late State.freeNext).setFab { s.fab with sliceShadow := mset s.fab.sliceShadow SliceReg.init k x }

/-- The fabric entry that multiplexer `m` of a regional clock selects (R144): the sector, and the bay in which the entry lies. -/
def State.ckinOf (s : State) (m : Nat) : Option (Nat × Nat) :=
  let src := s.muxSrc m
  if 64 ≤ m ∧ m < 448 ∧ 32 ≤ src ∧ src < 40 then some ((m - 64) / 24, 8 * ((m - 64) / 24) + (src - 32)) else none

/-- The level of the fabric entry in bay `k` (R144): the net that its routing gives. -/
def State.ckinNet (s : State) (k : Nat) : Bool :=
  s.pinVal k ((s.items.findSome? (fun e => match e.2 with
    | .ckin src => if e.1 = k then some src else none
    | _ => none)).getD [])

/-- The clock of multiplexer `m` can have the edge now (R143, R144, R146, R153): a global clock that runs; a regional clock that is not held
low and whose fabric entry has moved to the level after the edge. A regional clock that selects a global clock has its edges with it. -/
def State.edgeDue (s : State) (m : Nat) (fall : Bool) : Bool :=
  if m < 64 then decide (16 ≤ m) && s.gclkRuns (m - 16)
  else match s.ckinOf m with
    | some x => s.muxPasses m && s.ckinNet x.2 == !fall && decide (m + 512 ∈ s.clk.high) == fall
    | none => false

/-- The level of a fabric entry as its clock saw it last. -/
def State.ckinSeen (s : State) (m : Nat) (fall : Bool) : State :=
  s.when (decide (64 ≤ m)) (fun t => t.setClk { t.clk with high := if fall then ldel t.clk.high (m + 512) else ladd t.clk.high (m + 512) })

/-- What the edges `l` of spines do (R61, R87): free flip-flops take their next values, unless the global hold keeps edges from them (R186),
and the mesh ports whose PCLK is among them drive their signals. -/
def State.spineEdges (s : State) (l : List (Nat × Nat × Bool)) : State :=
  let ffs := if s.fab.hold then [] else
    s.cells.flatMap (fun c => (s.ffFreeEdge l c false).toList ++ (s.ffFreeEdge l c true).toList)
  let s1 := s.each ffs (fun x t => t.latchFf x.1 x.2)
  let s2 := s1.setFab { s1.fab with ff := ffs.foldl (fun m x => mset m false x.1 x.2) s1.fab.ff }
  s2.each ((List.range 16).filter (fun n => (s.pclk n).any (fun g => decide ((n, g, false) ∈ l)))) (fun n t => t.meshPortEdge n)

/-- FREE_FF_CLOCK_EDGE (R61, R143 to R146): an edge at the multiplexer `m` of a fabric clock (16 + g, 64 + 24 n + r), rising or falling,
passes the dividers and reaches the spines. -/
def execFreeFfClockEdge (m : Nat) (fall : Bool) (s : State) : Out :=
  .next <|
    if s.freeClocks && s.edgeDue m fall then
      let r := (s.ckinSeen m fall).clockEdge m fall
      r.1.spineEdges r.2
    else s

/-- ASYNC_SR_ASSERT (R61): an asynchronous SR of free flip-flop `k` (2 cell, 2 cell + 1) is asserted. -/
def execAsyncSrAssert (k : Nat) (s : State) : Out :=
  .next <|
    match s.cellCfg (k / 2) with
    | none => s
    | some c =>
      let b := k % 2 == 1
      let f := if b then c.ffb else c.ffa
      if s.ffFree c b && s.ffAsyncSr c.cell f && !s.fab.hold && !decide (bayOfCell c.cell ∈ s.fab.held) then
        s.setFab { s.fab with ff := mset s.fab.ff false k f.srVal }
      else s

/-- Rows of block memories with flipped bits, by 512 m + row. -/
def State.rowFlips (s : State) (up : List (Nat × Nat)) : State :=
  s.each up (fun u t => t.setRow (u.1 / 512) (u.1 % 512) (t.row (u.1 / 512) (u.1 % 512) ^^^ u.2))

/-- Free ports of memory `c` have one coincident edge (R98 to R106): port A, port B or both. -/
def State.memFree (s : State) (c : MemCfg) (pa pb : Bool) : State :=
  let m := c.mem
  let t := s.memEdge c (if pa then some (s.portAcc m c.a) else none) (if pb then some (s.portAcc m c.b) else none) false
  let t1 := if pa then t.portSr s m 0 c.a else t
  if pb then t1.portSr s m 1 c.b else t1

/-- BRAM_PORT_ACCESS (R98 to R106): an edge at port A, B or both of memory `m`, of the ports whose clock is free-running and runs; `up`: row
and bits that have flipped in it. Ports with the same clock net and inversion always have their edges together; unrelated ones, one after
the other, port A first (R100, R102). -/
def execBramPortAccess (m : Nat) (a b : Bool) (up : List (Nat × Nat)) (s : State) : Out :=
  .next <|
    match s.memCfg m with
    | none => s
    | some c =>
      if s.freeClocks && !s.fab.hold && !decide (m / 128 ∈ s.fab.held) then
        let s0 := s.rowFlips (up.map (fun u => (512 * m + u.1 % 512, u.2)))
        let live := fun (p : PortCfg) => !s0.designPort m p && s0.spineRuns (m / 1024) p.clk
        let one := c.a.clk == c.b.clk && c.a.inv == c.b.inv
        let pa := live c.a && (a || (one && b))
        let pb := live c.b && (b || (one && a))
        if one then s0.memFree c pa pb else (s0.memFree c pa false).memFree c false pb
      else s

/-- SLICE_UPDATE (R117 to R126): an active edge of free-running slices whose clocks run, each with the bits that a fault inverts in its
array. -/
def execSliceUpdate (sls : List (Nat × Nat)) (s : State) : Out :=
  .next <|
    if s.freeClocks && !s.fab.hold then
      let l := sls.filterMap (fun x => (s.sliceCfg x.1).bind (fun c =>
        if s.designSlice c || !s.spineRuns (x.1 / 768) c.clk || decide (x.1 / 96 ∈ s.fab.held) then none
        else let r := s.sliceStep c x.2
          some (x.1, r.1, r.2)))
      let s1 := s.each l (fun x t => t.latchSlice x.1 x.2.1)
      (s1.setFab { s1.fab with slice := l.foldl (fun m x => mset m SliceReg.init x.1 x.2.1) s1.fab.slice }).each l
        (fun x t => t.residueError x.1 x.2.2)
    else s

end Sys2Proof.Machine
end

