-- ==== Sys2Proof/Machine/CfgEnd.lean ====
section
/-! DEFINITION. Sys2Proof/Machine/CfgEnd.lean: how an operation of the configuration engine ends (R195 to R198, R208), and the global hold
(R185, R186). -/

namespace Sys2Proof.Machine

/-- BUSY, PHASE and SECT of an operation that ends. -/
def State.cfgIdle (s : State) : State :=
  (((s.setCfg { s.cfg with load := none, startStep := 0, autoStart := false }).put CFG_STAT_BUSY 0).put CFG_STAT_PHASE 0).put CFG_STAT_SECT 0

/-- The operation in progress succeeds (R208). -/
def State.cfgDone (s : State) : State := (((s.cfgIdle).put CFG_STAT_DONE 1).put CFG_STAT_FAIL 0).raise 136

/-- What a failed or aborted PARTIAL load of bay `k` leaves (R195). -/
def State.partialFail (s : State) (k : Nat) : State :=
  if k ∈ s.fab.held then (s.setBay k 5).setCfg { (s.setBay k 5).cfg with rel := none } else s.disarm

/-- The load in progress ends with a cause (R195, R197, R198). After a FULL load that fails, the boot ROM waits for another one, but not
after ALARM with BOOT_SRC 0b11 (R183; log entry 46). -/
def State.cfgFail (s : State) (cause bay frame : Nat) : State :=
  let s1 := match s.cfg.load with
    | some l => if l.op = 1 then s.partialFail l.bay
        else if l.op = 0 then s.setCfg { s.cfg with
          failed := true, boot := if cause = 0x0E ∧ s.f CFG_STRAP_BOOT_SRC = 3 then 0 else s.cfg.boot } else s
    | none => s
  let s2 := ((s1.cfgIdle.put CFG_STAT_FAIL 1).put CFG_STAT_DONE 0).cfgLog cause bay frame
  if 3 ≤ cause ∧ cause ≤ 6 ∧ s.secState ≠ 0 then s2.raiseAlarm 0 else s2

/-- The global hold asserts (R185, R186): user registers, slice registers and boundary words are 0. -/
def State.holdOn (s : State) : State :=
  s.setFab { s.fab with
    hold := true, gatesOpen := false, outputsOn := false,
    ff := [], portReg := [], slice := [], inFig := [], inFab := [], outFab := [], outFig := [], inDue := [], held := [], latched := [] }

/-- The current operation ends with a cause (R195, R551): a load, or the start-up; the start-up of a FULL load leaves the hold. -/
def State.cfgStop (s : State) (cause : Nat) : State :=
  if s.cfg.load.isSome then s.cfgFail cause 0 0
  else if s.cfg.blankDue.isSome then (s.setCfg { s.cfg with blankDue := none }).cfgFail cause 0 0
  else if s.cfg.startStep ≠ 0 then
    let s1 := if s.cfg.autoStart then (s.holdOn).setCfg { s.cfg with failed := true } else s
    s1.cfgFail cause 0 0
  else s

end Sys2Proof.Machine
end

