-- ==== Sys2Proof/Machine/TetherOps.lean ====
section
/-! DEFINITION. Sys2Proof/Machine/TetherOps.lean: the hub side of the Tether (R572, R573, R576, R577): its messages and its states. -/

namespace Sys2Proof.Machine

/-! ### Messages as symbols (R572) -/

/-- The symbols of a message: K27.7, TYPE, SEQ, the payload, CRC-16 over TYPE, SEQ and payload with its low byte first, K29.7. -/
def tetSyms (ty seq : Nat) (pay : List Nat) : List Sym :=
  let b := [ty, seq % 256] ++ pay
  k277 :: (b ++ toBytes 2 (crc16 b)).map dsym ++ [k297]

/-- The 10-bit groups of symbols, from disparity `rd` on. -/
def encodeSyms : List Sym → Bool → List Nat
  | [], _ => []
  | s :: t, rd => (encodeSym s rd).1 :: encodeSyms t (encodeSym s rd).2

/-- What a receiver makes of groups: each symbol, none for a code error. -/
def decodeSyms : List Nat → Bool → List (Option Sym)
  | [], _ => []
  | g :: t, rd =>
    let r := decodeGroup g (some rd)
    (if r.2.1 || r.2.2.1 then none else r.1) :: decodeSyms t r.2.2.2

/-- Groups with bits inverted on the way: pairs of a place and the bits of the group. -/
def flipSyms (l : List Nat) (up : List (Nat × Nat)) : List Nat :=
  l.mapIdx (fun i g => up.foldl (fun x e => if e.1 = i then x ^^^ e.2 % 1024 else x) g)

/-- A received message: TYPE and payload as a number; none when it shows a code error or fails its CRC. -/
def tetParse (l : List (Option Sym)) : Option (Nat × Nat) :=
  let syms := l.filterMap (fun x => x)
  let mid := (syms.drop 1).dropLast
  let b := mid.map (·.b)
  let body := b.take (b.length - 2)
  if l.all (·.isSome) && syms.head? == some k277 && syms.getLast? == some k297 && mid.all (fun s => !s.k) && decide (4 ≤ b.length) &&
      ofBytes (b.drop (b.length - 2)) == crc16 body then
    some (body.getD 0 0, ofBytes (body.drop 2))
  else none

/-- What arrives of a message whose bits `up` are inverted on the way. Each message starts at negative disparity (log entry 55). -/
def tetPass (ty seq : Nat) (pay : List Nat) (up : List (Nat × Nat)) : Option (Nat × Nat) :=
  tetParse (decodeSyms (flipSyms (encodeSyms (tetSyms ty seq pay) false) up) false)

/-- TYPE and payload of a message of channel 1. The places of the settings within CFG and CLK are the model's (log entry 55). -/
def TetMsg.body : TetMsg → Nat × List Nat
  | .cfg p => (0x02, toBytes 8 (match p with
    | none => 0
    | some q => q % 4 + 4))
  | .clk a b => (0x03, toBytes 4 a.toNat ++ toBytes 4 b.toNat)
  | .pulse m => (0x04, toBytes 8 m)

/-- The message of channel 1 with a TYPE and a payload. -/
def TetMsg.ofBody (ty d : Nat) : Option TetMsg :=
  match ty with
  | 2 => some (.cfg (if d.testBit 2 then some (d % 4) else none))
  | 3 => some (.clk (BitVec.ofNat 32 d) (BitVec.ofNat 32 (d / 2 ^ 32)))
  | 4 => some (.pulse d)
  | _ => none

/-! ### The hub side -/

/-- Replace the Tether. -/
def State.setTet (s : State) (t : Tether) : State := s.setPin { s.pin with tet := t }

/-- The payload of OUT now (R572, R577): no output is enabled while fabric-owned pins and TP outputs are off (R186). -/
def State.tetOut (s : State) : Nat × Nat :=
  (s.pair TET_OUT_LO TET_OUT_HI, if s.fab.outputsOn then s.pair TET_OE_LO TET_OE_HI else 0)

/-- The payload of CFG now (R572, R577). -/
def State.tetCfg (s : State) : Option Nat := if s.fab.outputsOn then none else some (s.f CFG_STRAP_PULL_DEFAULT)

/-- Start or merge an OUT message (R573): it carries the present values; one that is in progress goes on, and another is due. -/
def State.tetSend0 (s : State) : State :=
  if s.f TET_STAT_STATE = 2 then
    match s.pin.tet.msg0 with
    | none => s.setTet { s.pin.tet with msg0 := some s.tetOut, due0 := false, seq0 := (s.pin.tet.seq0 + 1) % 256 }
    | some _ => s.setTet { s.pin.tet with due0 := true }
  else s

/-- A message takes its present payload when it starts. -/
def State.tetFill (s : State) : TetMsg → TetMsg
  | .cfg _ => .cfg s.tetCfg
  | .clk _ _ => .clk (s.reg (TET_CKOUT 0)) (s.reg (TET_CKOUT 1))
  | .pulse m => .pulse m

/-- Start the next message of channel 1. -/
def State.tetNext1 (s : State) : State :=
  match s.pin.tet.msg1, s.pin.tet.due1 with
  | none, m :: rest => s.setTet { s.pin.tet with msg1 := some (s.tetFill m), due1 := rest, seq1 := (s.pin.tet.seq1 + 1) % 256 }
  | _, _ => s

/-- The message is a PULSE. -/
def TetMsg.isPulse : TetMsg → Bool
  | .pulse _ => true
  | _ => false

/-- Two messages have one TYPE. -/
def TetMsg.same : TetMsg → TetMsg → Bool
  | .cfg _, .cfg _ => true
  | .clk _ _, .clk _ _ => true
  | _, _ => false

/-- Send a message on channel 1 (R572): a PULSE goes ahead of every other that waits; a CFG or CLK that waits already is not sent twice. -/
def State.tetSend1 (s : State) (m : TetMsg) : State :=
  if s.f TET_STAT_STATE = 2 then
    let d := s.pin.tet.due1
    let d1 := if m.isPulse then d.filter TetMsg.isPulse ++ m :: d.filter (fun x => !x.isPulse)
      else if d.any (fun x => x.same m) then d else d ++ [m]
    (s.setTet { s.pin.tet with due1 := d1 }).tetNext1
  else s

/-- A bow: PULSE for the clock outputs in BOW mode (R572, R575). -/
def State.tetBow (s : State) : State :=
  let m := b2n (s.f (TET_CKOUT_MODE 0) == 2) + 2 * b2n (s.f (TET_CKOUT_MODE 1) == 2)
  if m = 0 then s else s.tetSend1 (.pulse m)

/-- Nothing is under way on the channels. -/
def State.tetClear (s : State) : State :=
  s.setTet { s.pin.tet with msg0 := none, due0 := false, msg1 := none, due1 := [], telling := false }

/-- The Tether's logic may run (R576, R518): EN and its gate. -/
def State.tetMayRun (s : State) : Bool := s.on TET_CTRL_EN && mget s.clk.gate .opened 37 != .closed

/-- STATE follows EN and the gate (R576): OFF, or LINKING from OFF. -/
def State.tetSync (s : State) : State :=
  let st := s.f TET_STAT_STATE
  if s.tetMayRun then (if st = 0 then s.put TET_STAT_STATE 1 else s)
  else if st = 0 then s else (s.put TET_STAT_STATE 0).tetClear

/-- Entry to LOST with a cause: 1 TIMEOUT, 2 VT, 3 GATED (R576). -/
def State.tetLost (s : State) (cause : Nat) : State :=
  let s1 := (((s.put TET_STAT_STATE 3).put TET_STAT_CAUSE cause).tetClear).raise 405
  s1.when (s1.on TET_CTRL_STOP_POL) State.stopNow

/-- Entry to UP (R576): CFG, CLK and OUT are sent, and then EV_TETHER_UP is raised. -/
def State.tetUp (s : State) : State :=
  let t := (((s.put TET_STAT_STATE 2).tetSend1 (.cfg none)).tetSend1 (.clk 0 0)).tetSend0
  t.setTet { t.pin.tet with telling := true }

/-- The messages of the entry to UP have been sent (R576): none is in progress or waits. -/
def State.tetTold (s : State) : State :=
  let t := s.pin.tet
  if t.telling && t.msg0.isNone && !t.due0 && (t.msg1.toList ++ t.due1).all TetMsg.isPulse then (s.setTet { t with telling := false }).raise 404
  else s

/-- A message that fails its CRC is discarded and counted (R572). -/
def State.tetBad (s : State) : State := s.satF TET_STAT_CRC_ERRS 1

end Sys2Proof.Machine
end

