-- ==== Sys2Proof/Machine/Boot.lean ====
section
/-! DEFINITION. Sys2Proof/Machine/Boot.lean: how a configuration load begins (R184, R185, R187), the steps of the boot ROM (R182, R183; log
entry 46), and the ends of clock switches that the boot ROM waits for (R153 to R156). -/

namespace Sys2Proof.Machine

/-! ### The beginning of a load -/

/-- GO with a load OP is refused (R185, R197, R551): its cause. -/
def State.loadRefused (s : State) (op : Nat) : Option Nat :=
  if s.on CFG_STAT_BUSY then some 0x0C
  else if s.alarmed then some 0x0E
  else if op = 0 ∧ s.cfg.everStarted ∧ !s.stopped then some 0x0C
  else none

/-- A load begins (R184, R185, R187): an image from outside starts to stream into its slot of the store, which no longer holds a checked
one. -/
def State.loadBegin (s : State) (op src : Nat) : State :=
  let s0 := if src = 2 then s.setScan { s.scan with buf := [], overrun := false } else s
  let s1 := (s0.put CFG_STAT_BUSY 1).put CFG_STAT_PHASE 1
  let l : Load := ⟨op, src, s.f CFG_PR_CTRL_BAY, s.cfg.seq + 1, 0, 0, none, [], none, none⟩
  if src = 3 then s1.setCfg { s1.cfg with load := some { l with id := if op = 0 then s.cfg.goldenId else s.cfg.stagingId } }
  else if op = 0 then
    (s1.setCfg { s1.cfg with load := some l, seq := s.cfg.seq + 1, goldenId := s.cfg.seq + 1 }).put CFG_STORE_CTRL_GOLDEN_OK 0
  else (s1.setCfg { s1.cfg with load := some l, seq := s.cfg.seq + 1, stagingId := s.cfg.seq + 1 }).put CFG_STORE_CTRL_STAGING_OK 0

/-- What a FULL load does first (R185): no full image is loaded from here until its end. -/
def State.fullPrep (s : State) (auto : Bool) : State :=
  let s1 := (s.holdOn.tetSend0).tetSend1 (.cfg none)
  let s2 := s1.setCfg { s1.cfg with rel := none, relLate := false, autoStart := auto, bayImage := [], loaded := false, design := 0 }
  let s3 := (s2.disarm).setFab { s2.disarm.fab with claims := [] }
  let s4 := (s3.each (List.range 128) (fun k t => t.setBay k 0)).put CFG_STAT_STARTED 0
  (s4.put CFG_SCRUB_STAT_PAUSED 1).put CFG_STORE_CTRL_MIRROR_OK 0

/-- GO with a load OP: refused, or the load begins (R185, R197). -/
def State.loadGoes (s : State) (op src : Nat) (auto : Bool) : State × Bool :=
  match s.loadRefused op with
  | some c => (s.cfgRefuse c, false)
  | none => ((if op = 0 then s.fullPrep auto else s).loadBegin op src, true)

/-! ### The boot ROM -/

/-- INIT (R412, R551). -/
def State.initMem (s : State) : State :=
  let keys := s.f MEM_STAT_KEYS
  if (keys = 0 ∨ keys = 3) ∧ !s.on MEM_STAT_INIT_BUSY ∧ !s.alarmed then
    (s.put MEM_STAT_INIT_BUSY 1).each (List.range 4) (fun k t => if t.stackSt k = 4 then t else t.put (MEM_STACK_STAT_STATE k) 1)
  else s.put MEM_STAT_REFUSED 1

/-- The steward executes the boot ROM, and its step is `n`. -/
def State.bootAt (s : State) (n : Nat) : Bool := s.cfg.boot == n && s.on (ST_CTRL_BOOT 16)

/-- Step 6 of R182: for a boot from the Gondola the ROM issues a FULL load with SRC = Gondola, ADDR = 0 and AUTO_START = 0; for another
it waits for that source. -/
def State.bootLoad (s : State) : State :=
  let s1 := s.setCfg { s.cfg with boot := 3 }
  if s.f CFG_STRAP_BOOT_SRC = 0 ∨ s.f CFG_STRAP_BOOT_SRC = 3 then
    let s2 := ((s1.setReg CFG_LOAD_CTRL 0).setReg CFG_SRC_ADDR_LO 0).setReg CFG_SRC_ADDR_HI 0
    (s2.loadGoes 0 0 false).1
  else s1

/-- Steps 3 and 5 of R182: FIG and MESH run from their PLLs, and the ROM brings up HBM. -/
def State.bootClock (s : State) : State :=
  if s.bootAt 1 && s.muxSrc 0 == 1 && s.muxSrc 1 == 1 then
    let s1 := s.setCfg { s.cfg with boot := 2 }
    if s.f MEM_STAT_KEYS = 1 then s1.bootLoad else if s.on MEM_STAT_INIT_BUSY then s1 else s1.initMem
  else s

/-- HBM is up. -/
def State.bootMem (s : State) : State := if s.bootAt 2 then s.bootLoad else s

/-! ### The ends of clock switches -/

/-- CLOCK_SWITCH_DONE (R153). -/
def execClockSwitchDone (m : Nat) (s : State) : Out := .next (s.switchEnd m).bootClock

/-- CLOCK_SWITCH_FORCED (R154 to R156): the old source, which is not OSC, has not acknowledged by the 16th new-source edge. A fabric clock
that the old source left high is driven low, which is an edge for elements clocked on the falling edge. -/
def execClockSwitchForced (m : Nat) (s : State) : Out :=
  .next <|
    if s.switchDead m then
      let s1 := (s.log CLK_SW_STAT_CLK_SW_DEAD CLK_SW_STAT_OVF (fun t => t.put CLK_SW_STAT_MUX m)).raise 130
      let d := s1.driveLow m
      (if s.freeClocks then d.1.spineEdges d.2 else d.1).switchEnd m |>.bootClock
    else s

end Sys2Proof.Machine
end

