-- ==== Sys2Proof/Machine/PinOps.lean ====
section
/-! DEFINITION. Sys2Proof/Machine/PinOps.lean: the named operations of the pins (R556 to R563): owners, what a pin drives, the level of
a ball, the TRIG inputs (R565); the FIFOs of the peripherals (R564); the Gondola's identity record (R567, R569). -/

namespace Sys2Proof.Machine

/-! ### Owners -/

/-- The owner that R558 gives pin `i`: 0 GPIO, 1 fabric, 2 UART, 3 I2C, 4 SPI, 5 TRIG. -/
def State.pinTarget (s : State) (i : Nat) : Nat :=
  let en := (s.reg PIN_PERIPH_EN).toNat
  if 156 ≤ i ∧ en.testBit (i - 151) then 5
  else if en.testBit 4 ∧ 2 ≤ i ∧ i ≤ 5 + s.f SPI_CTRL_NCS then 4
  else if (en.testBit 2 ∧ (i = 4 ∨ i = 5)) ∨ (en.testBit 3 ∧ (i = 36 ∨ i = 37)) then 3
  else if (en.testBit 0 ∧ (i = 2 ∨ i = 3)) ∨ (en.testBit 1 ∧ (i = 34 ∨ i = 35)) then 2
  else if s.on (PIN_CFG_FAB i) then 1
  else 0

/-- OWNER of pin `i` as it is in effect; 6 while it is switching (R560). -/
def State.pinOwner (s : State) (i : Nat) : Nat := s.f (PIN_CFG_OWNER i)

/-- The clock of the pin peripherals runs (R163). -/
def State.periphRun (s : State) : Bool := mget s.clk.gate .opened 38 != .closed

/-- Bank `b` has no supply in either range (R556). -/
def State.bankAbsent (s : State) (b : Nat) : Bool := (s.f PIN_BANK_STAT_ABSENT).testBit b

/-! ### What a pin drives and shows -/

/-- What a peripheral drives onto a pin (R559, R564, R565); frames on a line are not followed bit by bit, so a line shows the level that it
has between them. -/
def State.periphDrive (s : State) (i : Nat) : Option Bool :=
  match s.pinOwner i with
  | 2 => if i = 2 ∨ i = 34 then some true else none
  | 4 => if i = 2 then some (s.on SPI_CTRL_CPOL) else if i = 3 then some false else if i = 4 then none
    else some !(s.periphRun && s.on SPI_CTRL_BUSY && i == 5 + s.f SPI_CTRL_CS)
  | 5 => if s.on (TRIG_CFG_OUT (i - 156)) then some (s.periphRun && decide (i - 156 ∈ s.pin.pulse)) else none
  | _ => none

/-- The net and enable sources of fabric-owned pin `i`: every source that the image maps to it (R561). -/
def State.pinNets (s : State) (i : Nat) : List Net × List Net :=
  s.items.foldl (fun p e => match e.2 with
    | .pin k o oe => if k = i then (p.1 ++ o, p.2 ++ oe) else p
    | _ => p) ([], [])

/-- What the fabric drives onto pin `i` (R561, R562): nothing before the outputs are on (R186, R188). -/
def State.fabricDrive (s : State) (i : Nat) : Option Bool :=
  if s.fab.outputsOn && s.pinVal 128 (s.pinNets i).2 then some (s.pinVal 128 (s.pinNets i).1) else none

/-- What the device drives onto ball GPi: the boundary register first (R479), then the owner (R558 to R562); an open-drain pin drives only
a 0, and a pin of an absent bank nothing (R556). -/
def State.pinDrive (s : State) (i : Nat) : Option Bool :=
  if s.bankAbsent (i / 32) then none
  else match s.pin.bs with
    | some b => if b.testBit (3 * i + 2) then some (b.testBit (3 * i + 1)) else none
    | none =>
      let d := match s.pinOwner i with
        | 0 => if (s.reg (PIN_GPIO_OE (i / 32))).toNat.testBit (i % 32)
            then some ((s.reg (PIN_GPIO_OUT (i / 32))).toNat.testBit (i % 32)) else none
        | 1 => s.fabricDrive i
        | _ => s.periphDrive i
      if s.on (PIN_CFG_OD i) && d == some true then none else d

/-- The pull of a pin: 0 none, 1 down, 2 up (R562). -/
def State.pinPull (s : State) (i : Nat) : Nat :=
  if s.pinOwner i = 1 ∧ s.fab.outputsOn = false then (let p := s.f CFG_STRAP_PULL_DEFAULT; if p = 3 then 1 else p) else s.f (PIN_CFG_PULL i)

/-- The level of ball GPi. Where the device and the board drive different levels, or nothing drives it and it has no pull, the spec states
no level: a free value (log entry 4). -/
def State.ballLevel (s : State) (i : Nat) : Bool :=
  match s.pinDrive i, mget s.pin.ext (some false) i with
  | none, none => if s.pinPull i = 2 then true else if s.pinPull i = 1 then false else s.freeVal.testBit i
  | some d, none => d
  | none, some e => e
  | some d, some e => if d = e then d else s.freeVal.testBit i

/-- Bit of GPIO_IN for pin `i` (R556, R557). -/
def State.pinIn (s : State) (i : Nat) : Bool := !s.bankAbsent (i / 32) && s.on (PIN_CFG_IE i) && s.ballLevel i

/-- GPIO_IN of the pins of `l` follows the balls (R557). -/
def State.pinSample (s : State) (l : List Nat) : State :=
  (s.each l (fun i t =>
    let w := (t.reg (PIN_GPIO_IN (i / 32))).toNat
    let bit := s.pinIn i
    if w.testBit (i % 32) = bit then t else t.setReg (PIN_GPIO_IN (i / 32)) (BitVec.ofNat 32 (w ^^^ 2 ^ (i % 32))))).freeNext

/-! ### Peripherals' inputs -/

/-- The level that an input of a peripheral sees (R559): the ball's while it owns the pin and its clock runs, else the idle level. -/
def State.periphIn (s : State) (owner i : Nat) (idle : Bool) : Bool :=
  if s.pinOwner i = owner ∧ s.periphRun = true then (s.reg (PIN_GPIO_IN (i / 32))).toNat.testBit (i % 32) else idle

/-- An edge at TRIG input `k` is one that EDGE selects: rising, falling, both; 3 acts as rising (R565). -/
def State.trigEdge (s : State) (k : Nat) (lvl : Bool) : Bool :=
  match s.f (TRIG_CFG_EDGE k) with
  | 1 => !lvl
  | 2 => true
  | _ => lvl

/-- The TRIG lines take their inputs: an enabled line in input mode raises its event on a selected edge (R565). -/
def State.trigInputs (s : State) : State :=
  s.each (List.range 4) (fun k t =>
    let v := t.periphIn 5 (156 + k) false
    if mget t.pin.trigIn false k = v then t
    else
      let u := t.setPin { t.pin with trigIn := mset t.pin.trigIn false k v }
      u.when (u.pinOwner (156 + k) == 5 && !u.on (TRIG_CFG_OUT k) && u.trigEdge k v) (fun w => w.raise (389 + k)))

/-- Everything that follows a change at the pins of `l`. -/
def State.pinFollow (s : State) (l : List Nat) : State := (s.pinSample l).trigInputs

/-- All pins. -/
def allPins : List Nat := List.range 160

/-- The owners follow a write (R560): a pin whose owner changes is switching, its driver off. -/
def State.pinSwitch (s : State) : State :=
  (s.each allPins (fun i t => if t.pinOwner i = s.pinTarget i then t else t.put (PIN_CFG_OWNER i) 6)).pinFollow allPins

/-- The two PINS cycles of every switching pin have passed (R560): the new owners drive and receive. -/
def State.pinHand (s : State) : State :=
  (s.each allPins (fun i t => if t.pinOwner i = 6 then t.put (PIN_CFG_OWNER i) (t.pinTarget i) else t)).pinFollow allPins

/-- A write of GPIO_SET (R563). -/
def State.gpioSet (s : State) (b : Nat) (v : Word) : State :=
  if b < 5 then (s.setReg (PIN_GPIO_OUT b) (s.reg (PIN_GPIO_OUT b) ||| v)).pinFollow ((List.range 32).map (fun k => 32 * b + k)) else s

/-- A write of GPIO_CLR. -/
def State.gpioClr (s : State) (b : Nat) (v : Word) : State :=
  if b < 5 then (s.setReg (PIN_GPIO_OUT b) (s.reg (PIN_GPIO_OUT b) &&& ~~~ v)).pinFollow ((List.range 32).map (fun k => 32 * b + k)) else s

/-! ### FIFOs of the peripherals (R564) -/

/-- A byte is written to UART_TX(u): dropped when the FIFO holds 16. -/
def State.uartPush (s : State) (u v : Nat) : State :=
  let l := mget s.pin.utx [] u
  if l.length < 16 then (s.setPin { s.pin with utx := mset s.pin.utx [] u (l ++ [v % 256]) }).put (UART_CTRL_TX_EMPTY u) 0 else s

/-- What a read of UART_DATA(u) gives: VALID, ERR and the byte at the head. -/
def State.uartHead (s : State) (u : Nat) : Word :=
  match mget s.pin.urx [] u with
  | [] => 0
  | x :: _ => BitVec.ofNat 32 (2 ^ 31 + b2n (x.testBit 8) * 2 ^ 30 + x % 256)

/-- A read of UART_DATA(u) pops the receive FIFO. -/
def State.uartPop (s : State) (u : Nat) : State :=
  let l := (mget s.pin.urx [] u).drop 1
  (s.setPin { s.pin with urx := mset s.pin.urx [] u l }).put (UART_CTRL_RX_COUNT u) l.length

/-- A write of I2C_CMD(c), dropped while BUSY (R564). -/
def State.i2cWrite (s : State) (c : Nat) (v : Word) : State :=
  if s.on (I2C_CMD_BUSY c) then s
  else
    let op := fget v 26 24
    let s1 := (s.put (I2C_CMD_FAST c) (fget v 27 27)).put (I2C_CMD_DATA c) (fget v 7 0)
    let s2 := (s1.when (fget v 29 29 == 1) (fun t => t.put (I2C_CMD_ARB_LOST c) 0)).when (fget v 28 28 == 1) (fun t => t.put (I2C_CMD_TIMEOUT c) 0)
    if 1 ≤ op ∧ op ≤ 5 then (s2.setPin { s2.pin with i2cOp := mset s2.pin.i2cOp 0 c op }).put (I2C_CMD_BUSY c) 1 else s2

/-- A frame is written to SPI_TX: dropped when the FIFO holds 16. -/
def State.spiPush (s : State) (v : Nat) : State :=
  if s.pin.spiTx.length < 16 then
    ((s.setPin { s.pin with spiTx := s.pin.spiTx ++ [v % 256] }).put SPI_CTRL_BUSY 1).pinFollow [5, 6, 7, 8]
  else s

/-- What a read of SPI_DATA gives. -/
def State.spiHead (s : State) : Word :=
  match s.pin.spiRx with
  | [] => 0
  | x :: _ => BitVec.ofNat 32 (2 ^ 31 + x % 256)

/-- A read of SPI_DATA pops the frame received in exchange. -/
def State.spiPop (s : State) : State :=
  (s.setPin { s.pin with spiRx := s.pin.spiRx.drop 1 }).put SPI_CTRL_RX_COUNT (s.pin.spiRx.drop 1).length

/-! ### The Gondola -/

/-- Bytes `i` to `i + n - 1` of a record, little-endian. -/
def recField (r : List Nat) (i n : Nat) : Nat := ((List.range n).map (fun k => r.getD (i + k) 0 % 256 * 2 ^ (8 * k))).sum

/-- The identity record is read (R567, R569): GDL_ID, LIFE, RESERVE, LOW_LIFE with its event once. With RATED_PE 0 the spec states no
LIFE: a free value (log entry 4). -/
def State.recRead (s : State) (r : List Nat) : State :=
  let s1 := s.each (List.range 16) (fun w t => t.setReg (GDL_ID w) (BitVec.ofNat 32 (recField r (4 * w) 4)))
  let rated := recField r 40 4
  let life := if rated = 0 then s.freeVal % 1001 else 1000 - 1000 * recField r 44 4 / rated
  let reserve := recField r 48 2
  let bad := recField r 0 4 != 0x47444C31 || crc16 (r.take 62) != recField r 62 2
  let s2 := ((s1.put GDL_LIFE_LIFE life).put GDL_LIFE_RESERVE reserve).setPin { s1.pin with idBad := bad, reread := false }
  let s3 := if rated = 0 then s2.freeNext else s2
  if life ≤ reserve + 50 ∧ !s3.on GDL_STAT_LOW_LIFE then (s3.put GDL_STAT_LOW_LIFE 1).raise 399 else s3

/-- A write of GO queues a transfer (R570). -/
def State.gdlGo (s : State) (out : Bool) (len : Nat) : State :=
  let n := len % 2 ^ 24
  let x : Gdl := ⟨out, if n = 0 then 1 else n, s.f GDL_XFER_GADDR_ADDR4K, s.f GDL_XFER_HBM_ADDR64K⟩
  (((s.put GDL_XFER_CTRL_DIR (b2n out)).put GDL_XFER_CTRL_LEN n).setPin { s.pin with gdl := s.pin.gdl ++ [x] }).put GDL_STAT_BUSY 1

/-- The oldest transfer ends with a cause (R570, R579). -/
def State.gdlEnd (s : State) (cause : Nat) : State :=
  match s.pin.gdl with
  | [] => s
  | x :: rest =>
    let s0 := s.setTail { s.tail with xfer := s.tail.xfer.map (fun y => { y with wait := y.wait - 1 }) }
    let s1 := (s0.setPin { s.pin with gdl := rest, reread := s.pin.reread || x.out }).put GDL_STAT_BUSY (b2n !rest.isEmpty)
    (((s1.put GDL_STAT_CAUSE cause).put GDL_STAT_DONE (b2n (cause == 0))).put GDL_STAT_FAIL (b2n (cause != 0))).raise 398

/-- Why a transfer is refused (R568, R569): ABSENT, ID_BAD, RESERVE, RANGE. -/
def State.gdlRefused (s : State) (x : Gdl) : Option Nat :=
  if !s.on GDL_STAT_PRESENT then some 1
  else if x.out ∧ s.pin.idBad then some 4
  else if x.out ∧ s.f GDL_LIFE_LIFE ≤ s.f GDL_LIFE_RESERVE then some 3
  else if (s.reg (GDL_ID 9)).toNat < x.gaddr + x.len then some 7
  else none

/-- A configuration load reads the Gondola (R184). -/
def State.gdlLoad (s : State) : Bool := s.cfg.load.any (fun l => l.src == 0 && l.reads)

/-- The port is free for the transfer engine (R570): no configuration load reads the Gondola, and no export or import was requested
before the oldest transfer. -/
def State.gdlFree (s : State) : Bool := s.tail.xfer.all (fun x => x.wait != 0) && !s.gdlLoad

end Sys2Proof.Machine
end

