-- ==== Sys2Proof/Machine/PowerOps.lean ====
section
/-! DEFINITION. Sys2Proof/Machine/PowerOps.lean: the block gates (R158 to R163), the Ballast arbiter (R504 to R517) and the power states
(R518 to R528). -/

namespace Sys2Proof.Machine

/-! ### Block gates -/

/-- A gate of R158. -/
def isGate (i : Nat) : Bool := decide (i ≤ 38)

/-- The state of a gate. -/
def State.gateSt (s : State) (i : Nat) : Gate := mget s.clk.gate .opened i

/-- Set the state of a gate. -/
def State.setGate (s : State) (i : Nat) (g : Gate) : State := s.setClk { s.clk with gate := mset s.clk.gate .opened i g }

/-- Set software's bit of a gate. -/
def State.setGateBit (s : State) (i : Nat) (b : Bool) : State :=
  let a := if i < 32 then CLK_GATE_EN0 else CLK_GATE_EN1
  let k := i % 32
  s.setReg a (if b then s.reg a ||| (1#32 <<< k) else s.reg a &&& ~~~ (1#32 <<< k))

/-- The clock of block `i` stops, with what that does beyond the block (R163, R337, R363); `soft`: software closed the gate, so a Tether
that was UP behaves as on barrier loss. -/
def State.gateShut (s : State) (i : Nat) (soft : Bool) : State :=
  let s1 := s.setGate i .closed
  if i < 16 then s1
  else if i < 32 then s1.portSync (i - 16)
  else if i < 36 then ((s1.refreshEnter (i - 32)).capSpoil).reelBreak 5
  else if i = 37 then (if soft ∧ s1.f TET_STAT_STATE = 2 then s1.tetLost 3 else s1).tetSync
  else if i = 38 then s1.pinFollow allPins
  else s1

/-- The clock of block `i` restarts (R162): the block resumes with the state it held. A stack leaves self-refresh by itself later. -/
def State.gateReopen (s : State) (i : Nat) : State :=
  let s1 := s.setGate i .opened
  if i < 16 then (if s1.coreSt i = 3 then s1 else s1.coreThaw i)
  else if i < 32 then s1.portSync (i - 16)
  else if i = 37 then s1.tetSync
  else if i = 38 then s1.pinFollow allPins
  else s1

/-- Power state `p` shuts block `i` (R518, R519). -/
def State.powerShuts (s : State) (p i : Nat) : Bool :=
  (decide (i < 16) && decide (1 ≤ p) && !(s.f BAL_KEEP_CORES).testBit i) || (i == 36 && decide (1 ≤ p)) ||
    (decide (16 ≤ i) && decide (i < 32) && p == 3) || (i == 37 && p == 3 && !s.on BAL_KEEP_TETHER)

/-- Software writes 0 to gate bit `i` (R159). -/
def State.gateClose (s : State) (i : Nat) : State :=
  if isGate i then
    let s1 := s.setGateBit i false
    if s1.gateSt i = .opened then s1.setGate i .closing else s1
  else s

/-- Software writes 1 to gate bit `i` (R162, R519): a close in progress ends first. -/
def State.gateOpen (s : State) (i : Nat) : State :=
  if isGate i then
    let s1 := s.setGateBit i true
    if s1.gateSt i = .closed ∧ !s1.powerShuts s1.power i then s1.gateReopen i else s1
  else s

/-- A closing gate has stopped its clock; a bit that is 1 again reopens it (R162). -/
def State.gateStopped (s : State) (i : Nat) : State :=
  let s1 := s.gateShut i true
  if s1.gateOn i && !s1.powerShuts s1.power i then s1.gateReopen i else s1

/-- A write of CLK_GATE_EN0 (`lo` 0) or CLK_GATE_EN1 (`lo` 32), `n` bits. -/
def State.gateWrite (s : State) (lo n : Nat) (v : Word) : State :=
  s.each (List.range n) (fun k t =>
    if t.gateOn (lo + k) = v.toNat.testBit k then t
    else if v.toNat.testBit k then t.gateOpen (lo + k) else t.gateClose (lo + k))

/-! ### Ballast: budget, grants, allowances -/

/-- BUDGET in tokens (R504). -/
def State.budget (s : State) : Nat := min (s.f BAL_CTRL_BUDGET) 480

/-- The reservations (R506). -/
def State.balRsv (s : State) (i : Nat) : Nat := if i = 17 then s.f BAL_RSV_LANE_RSV else s.f BAL_RSV_HUB_RSV

/-- Allowance of consumer `i`, signed (R510). -/
def State.allow (s : State) (i : Nat) : Int := sext 32 (s.f (BAL_CON_ALLOW_A i))

/-- Set an allowance. -/
def State.setAllow (s : State) (i : Nat) (v : Int) : State := s.put (BAL_CON_ALLOW_A i) (wrap 32 v)

/-- The share weight of consumer `i`; 0 acts as 1. -/
def State.balWeight (s : State) (i : Nat) : Nat := max 1 (s.f (BAL_CON_CFG_WEIGHT i))

/-- One token more for each consumer that still wants one, while the pool lasts (R509). -/
def balTopUp : List (Nat × Nat) → Nat → List Nat
  | [], _ => []
  | (give, want) :: t, pool => if give < want ∧ 0 < pool then (give + 1) :: balTopUp t (pool - 1) else give :: balTopUp t pool

/-- The grants above the floors of R509, for wants and weights, from a pool that cannot meet all wants. -/
def balShare (want weight : List Nat) (pool : Nat) : List Nat :=
  let give := fun (l : Nat) => (want.zip weight).map (fun x => min x.1 (l * x.2))
  let lvl := ((List.range 513).filter (fun l => decide ((give l).sum ≤ pool))).getLast?.getD 0
  balTopUp ((give lvl).zip want) (pool - (give lvl).sum)

/-- The temperature of some HBM stack exceeds its ALERT_C (R517). -/
def State.hbmHot (s : State) : Bool :=
  (List.range 4).any (fun k => decide (s.f (MEM_STACK_CFG_ALERT_C k) < s.f (MEM_STACK_STAT_TEMP k)))

/-- The grants of consumers 0 to 16 from the effective budget `e` (R509, R517). -/
def State.balGrants (s : State) (e : Nat) : List Nat :=
  let ids := List.range 17
  let floor := ids.map (fun i => s.f (BAL_CON_CFG_FLOOR i))
  let req := ids.map (fun i => s.f (BAL_CON_GRANT_REQ i))
  let pool := e - (s.balRsv 18 + s.balRsv 17)
  let g := if pool < floor.sum then floor.map (fun f => f * pool / floor.sum)
    else
      let want := (req.zip floor).map (fun x => x.1 - x.2)
      let rest := pool - floor.sum
      let more := if want.sum ≤ rest then want else balShare want (ids.map s.balWeight) rest
      (floor.zip more).map (fun x => x.1 + x.2)
  if s.hbmHot then g.take 16 ++ [min (g.getD 16 0) (s.f (BAL_CON_CFG_FLOOR 16))] else g

/-- Sectors whose allowance is below BOW_RES (R511). -/
def State.balLow (s : State) : List Nat :=
  if s.on BAL_CTRL_EN then (List.range 16).filter (fun i => decide (s.allow i < (s.f (BAL_CON_RES_BOW_RES i) : Int))) else []

/-- Consumer `i` holds in this window (R508). -/
def State.balHold (s : State) (i : Nat) : State :=
  (s.setBal { s.bal with held := ladd s.bal.held i }).put (BAL_CON_STAT_HELD i) 1

/-- The round hold follows the allowances, the clamp and the trip (R511). -/
def State.balSettle (s : State) : State :=
  let low := s.balLow
  let h := !low.isEmpty || s.clamped || s.on BAL_STAT_TRIP
  ((s.each low (fun i t => t.balHold i)).put BAL_STAT_HOLD (b2n h)).setBal { (s.each low (fun i t => t.balHold i)).bal with hold := h }

/-- The meters report: `m` lists the charge of consumers 0 to 18 since they last did (R506, R510, R512). -/
def State.meterRead (s : State) (m : List Nat) : State :=
  let s1 := s.setBal { s.bal with sum := (List.range 19).foldl (fun l i => mset l 0 i (mget l 0 i + m.getD i 0)) s.bal.sum }
  let s2 := s1.each (List.range 17) (fun i t => t.setAllow i (t.allow i - (m.getD i 0 : Int)))
  let s3 := s2.each [17, 18] (fun i t =>
    if t.balRsv i * 1500 < mget t.bal.sum 0 i ∧ i ∉ t.bal.exceeded then
      (((t.setBal { t.bal with exceeded := t.bal.exceeded ++ [i] }).put BAL_STAT_OVER 1).put (BAL_CON_STAT_OVER i) 1).raise 338
    else t)
  let s4 := if s3.on BAL_CTRL_EN ∧ s3.allow 16 < 0 then (s3.setBal { s3.bal with portStop := true }).balHold 16 else s3
  s4.balSettle

/-- The effective budget at junction temperature `tj` (R516). -/
def State.effBudget (s : State) (tj : Int) : Nat :=
  let excess := (tj - (s.f BAL_THERM_CFG_DERATE_C : Int)).toNat
  if excess = 0 then s.budget else max (s.budget - s.f BAL_THERM_CFG_DSTEP * excess) (s.balRsv 17 + s.balRsv 18)

/-- The temperature readings of the four chiplets and the hub take effect (R516). -/
def State.thermRead (s : State) (temps : List Int) : State :=
  let l := (temps.take 5).zipIdx
  let top := l.foldl (fun (b : Option (Int × Nat)) x => match b with
    | none => some x
    | some y => if y.1 < x.1 then some x else some y) none
  match top with
  | none => s
  | some (tj, die) =>
    let s1 := ((s.put BAL_THERM_STAT_TJ (wrap 8 tj)).put BAL_THERM_STAT_SENSOR die).put BAL_STAT_EFF_BUDGET (s.effBudget tj)
    let trip : Int := (s.f BAL_THERM_CFG_TRIP_C : Nat)
    if trip ≤ tj then (if s1.on BAL_STAT_TRIP then s1 else (s1.put BAL_STAT_TRIP 1).raise 337)
    else if tj < trip - 5 then s1.put BAL_STAT_TRIP 0 else s1

/-- The allowance of consumer `i` is refilled at the first edge of a window (R510). -/
def State.balRefill (s : State) (i : Nat) : State :=
  let lim : Int := -((s.f BAL_CTRL_DEBT_MAX : Int) * 1500)
  let a := s.allow i
  let s1 := s.setAllow i ((s.f (BAL_CON_GRANT_GRANT i) : Int) * 1500 + max (min a 0) lim)
  if a < lim then (s1.put BAL_STAT_DEBT 1).raise 339 else s1

/-- The first edge of a Ballast window (R505, R508 to R510, R516). -/
def State.balWindow (s : State) (m : List Nat) (temps : List Int) : State :=
  let s1 := s.meterRead m
  let held := s1.bal.held
  let s2 := s1.each (List.range 19) (fun i t =>
    (t.put (BAL_CON_USED_USED i) (mget t.bal.sum 0 i)).when (decide (i ∈ held)) (fun u => u.satF (BAL_CON_STAT_HOLD_WIN i) 1))
  let s3 := s2.each (List.range 19) (fun i t => t.put (BAL_CON_GRANT_GRANT i) 
    (if i = 16 ∧ t.hbmHot then min (mget t.bal.next 0 16) (t.f (BAL_CON_CFG_FLOOR 16)) else if i < 17 then mget t.bal.next 0 i else t.balRsv i))
  let s4 := s3.thermRead temps
  let s5 := s4.each (List.range 17) (fun i t =>
    t.put (BAL_CON_GRANT_REQ i) (min ((t.f (BAL_CON_USED_USED i) + 1499) / 1500 + (if i ∈ held then t.f (BAL_CON_CFG_STEP i) else 0)) t.budget))
  let g := s5.balGrants (s5.f BAL_STAT_EFF_BUDGET)
  let s6 := s5.setBal { s5.bal with
    sum := [], held := [], exceeded := [], portStop := false, served := some s.fig.toNat
    next := (List.range 17).foldl (fun l i => mset l 0 i (g.getD i 0)) [] }
  (s6.each (List.range 17) (fun i t => t.balRefill i)).balSettle

/-- The stack controllers' ports accept requests (R512, R513): the clamp stops them two figures after it became visible. -/
def State.memPorts (s : State) : Bool :=
  !s.bal.portStop && !(s.on BAL_STAT_CLAMP && decide (s.bal.clampFig + 2 ≤ s.fig.toNat))

/-- The present FIG edge is the first of a Ballast window that has not been opened (R505). -/
def State.balDue (s : State) : Bool := s.fig.toNat % 1500 == 0 && s.bal.served != some s.fig.toNat

/-! ### Power states -/

/-- The effective tolerance T in µs (R521). -/
def State.tolerance (s : State) : Nat :=
  let t := s.f BAL_LAT_TOL_LAT_TOL
  if s.on BAL_LTR_VALID then min t (s.f BAL_LTR_TOL) else t

/-- The exit latency of a state in µs (R518). -/
def exitLat (p : Nat) : Nat :=
  match p with
  | 1 => 2
  | 2 => 60
  | 3 => 2000
  | _ => 0

/-- The Tail is idle (R522). -/
def State.tailIdle (s : State) : Bool :=
  s.capFree && s.tail.req.isNone && s.tail.trig.isNone && !s.reelBusy && s.tail.xfer.isNone &&
    (List.range 8).all (fun k => !s.on (TAIL_RING_CFG_EN k) || s.on (TAIL_RING_CFG_STOPPED k))

/-- The preconditions of R522 that fail now, as BLOCK shows them. -/
def State.powerBlock (s : State) : Nat :=
  b2n !(s.latState == 0 || s.latState == 1 || s.latState == 7) + 2 * b2n (s.on CFG_STAT_BUSY) + 4 * b2n !s.tailIdle +
    8 * b2n (s.on MEM_STAT_INIT_BUSY)

/-- The preconditions of state `p` hold (R522). -/
def State.powerPre (s : State) (p : Nat) : Bool :=
  let b := s.powerBlock
  b % 8 == 0 && (decide (p < 2) || b == 0) &&
    (decide (p < 3) || s.peers.all (fun q => s.f (LAT_PEER_STAT_LAST_TYPE q.1) != 2))

/-- State `p` meets the tolerance (R521). -/
def State.powerTol (s : State) (p : Nat) : Bool := decide (exitLat p + s.f BAL_PWR_CFG_MARGIN ≤ s.tolerance)

/-- ELIGIBLE: the deepest eligible state (R521). -/
def State.eligible (s : State) : Nat :=
  if s.powerTol 3 && s.powerPre 3 then 3 else if s.powerTol 2 && s.powerPre 2 then 2 else if s.powerTol 1 && s.powerPre 1 then 1 else 0

/-- The state in effect or being entered. -/
def State.powerAim (s : State) : Nat := if s.on BAL_PWR_STAT_BUSY then s.f BAL_PWR_STAT_TARGET else s.f BAL_PWR_STAT_STATE

/-- A wake event with its cause: 1 tolerance, 2 precondition, 3 held request, 4 software (R524, R527). -/
def State.wake (s : State) (cause : Nat) : State :=
  if s.powerAim = 0 then s
  else (((s.put BAL_PWR_STAT_TARGET 0).put BAL_PWR_STAT_BUSY 1).put BAL_PWR_STAT_WAKE_CAUSE cause).setBal { s.bal with req := none }

/-- A request is held at the port of a stack controller or of the user part of a sector window (R520). -/
def State.heldNow (s : State) : Bool :=
  let p := s.f BAL_PWR_STAT_STATE
  (decide (2 ≤ p) && (List.range 4).any (fun k => !(s.waits (64 + 4 * k)).isEmpty)) ||
    (decide (1 ≤ p) && (List.range 16).any (fun n => !(s.waits (4 * n + 1)).isEmpty))

/-- The wake events that stand by themselves (R524 items 1 to 3). -/
def State.wakeCheck (s : State) : State :=
  let p := s.powerAim
  if p = 0 then s
  else if !s.powerTol p then s.wake 1
  else if !s.powerPre p then s.wake 2
  else if s.heldNow then s.wake 3
  else s

/-- A request of a state (R523). -/
def State.powerRequest (s : State) (p : Nat) : State :=
  let s0 := s.put BAL_PWR_REQ_STATE p
  if s.on BAL_PWR_STAT_BUSY then s0.setBal { s0.bal with req := some (p % 4) }
  else if s.eligible < p % 4 then (s0.put BAL_PWR_STAT_REFUSED 1).raise 341
  else if s.f BAL_PWR_STAT_STATE = p % 4 then s0
  else (s0.put BAL_PWR_STAT_TARGET p).put BAL_PWR_STAT_BUSY 1

/-- The gates and stacks follow the power state in effect (R518 to R520). -/
def State.powerApply (s : State) : State :=
  let p := s.power
  let s1 := s.each (List.range 39) (fun i t =>
    if t.powerShuts p i then (if t.gateSt i = .closed then t else t.gateShut i false)
    else if t.gateOn i && t.gateSt i == .closed then t.gateReopen i else t)
  if 2 ≤ p then s1.each (List.range 4) (fun k t => t.refreshEnter k) else s1

/-- A transition ends (R523, R527). -/
def State.powerEnd (s : State) : State :=
  if s.on BAL_PWR_STAT_BUSY then
    let s1 := (((s.put BAL_PWR_STAT_STATE (s.f BAL_PWR_STAT_TARGET)).put BAL_PWR_STAT_BUSY 0).raise 340).powerApply
    match s1.bal.req with
    | some p => (s1.setBal { s1.bal with req := none }).powerRequest p
    | none => s1
  else s

/-! ### Accesses that reach a gated block -/

/-- The block that holds `off` is gated, and the register answers under R161 (R161). ST_STAT answers also while its core is gated: its STATE
code 5 says so (log entry 48). -/
def State.regGated (s : State) (off : Nat) : Bool :=
  match gateBlock off with
  | some b => s.blockGated b && !(decide (b < 16) && off % 0x10000 == 4)
  | none => false

/-- An access to a block whose gate a power state has shut is held (R519, R520). -/
def State.regHeld (s : State) (off : Nat) : Bool :=
  match gateBlock off with
  | some b => decide (37 ≤ b) && s.gateOn b && mget s.clk.gate .opened b == .closed && s.powerShuts s.power b
  | none => false

/-- A held access wakes the device (R524). -/
def State.heldWake (s : State) : State := s.wake 3

/-- While a debugger emulates the power state, an access that the reported state would hold is not held, and still wakes (R528). -/
def State.regWakes (s : State) (off : Nat) : State :=
  match gateBlock off with
  | some b => s.when (s.on BAL_PWR_STAT_EMULATED && decide (37 ≤ b) && s.powerShuts (s.f BAL_PWR_STAT_STATE) b) State.heldWake
  | none => s

/-- A register write is held behind others (R29, R35). -/
def State.holdWrite (s : State) (src off : Nat) (v : Word) : State :=
  s.setMesh { s.mesh with heldWr := s.mesh.heldWr ++ [(src, off, v)] }

end Sys2Proof.Machine
end

