-- ==== Sys2Proof/Machine/DebugOps.lean ====
section
/-! DEFINITION. Sys2Proof/Machine/DebugOps.lean: attach and detach, and the resume of a core (R490 to R492, R499). -/

namespace Sys2Proof.Machine

/-- A debug operation is refused (R490): cause 1 SECURITY, 2 NOT_ATTACHED. -/
def State.dbgRefuse (s : State) (cause : Nat) : State := ((s.put DBG_STAT_REFUSED 1).put DBG_STAT_CAUSE cause).raise 322

/-- PERMS as they act: all ones in Unbound (R549). -/
def State.perms (s : State) : Nat := if s.secState = 0 then 7 else s.f SEC_AUTH_STAT_PERMS

/-- A write of ATTACH (R490). -/
def State.attach (s : State) : State :=
  if s.secState = 2 ∨ (s.secState = 1 ∧ !s.on DBG_CTRL_AUTHED) then s.dbgRefuse 1
  else (((s.put DBG_CTRL_ATTACHED 1).put BAL_PWR_STAT_EMULATED 1).raise 321).powerApply

/-- A halted core restarts (R499); `step`: for one instruction. -/
def State.coreResume (s : State) (c : Nat) (step : Bool) : State :=
  if s.coreSt c = 3 then
    let s1 := s.setCore c { s.coreOf c with skipBp := true, stepping := step, halt := none }
    let s2 := ((s1.put (ST_STAT_STATE c) 1).put (DBG_CORE_STAT_HALTED c) 0).setReg DBG_STAT (s1.reg DBG_STAT &&& ~~~ (1#32 <<< c))
    if s2.coreClock c then s2.coreThaw c else s2
  else s

/-- DETACH (R492), in its order. -/
def State.detach (s : State) : State :=
  if s.attached then
    let cs := List.range 17
    let s1 := s.each cs (fun c t => (t.coreResume c false).setCore c { (t.coreResume c false).coreOf c with halt := none, skipBp := false })
    let s2 := s1.each cs (fun c t =>
      (t.each (List.range 4) (fun i u => u.put (DBG_CORE_BP_EN c i) 0)).each (List.range 2) (fun i u => u.put (DBG_CORE_WP_CFG_EN c i) 0))
    let s3 := s2.setReg DBG_XTRIG 0
    let s4 := (((s3.put DBG_CTRL_SYS_EN 0).put DBG_CTRL_ATTACHED 0).put DBG_CTRL_AUTHED 0).put SEC_AUTH_STAT_PERMS 0
    ((s4.put BAL_PWR_STAT_EMULATED 0).raise 321).powerApply
  else s

end Sys2Proof.Machine
end

