-- ==== Sys2Proof/Machine/Settle.lean ====
section
/-! DEFINITION. Sys2Proof/Machine/Settle.lean: what follows a command by itself: the effects of an alarm that has become visible (R551,
R552), and the wake events that a state of the device is (R524). -/

namespace Sys2Proof.Machine

/-- The volatile key slots 4 to 7 and the key data are emptied (R551). -/
def State.slotsClear (s : State) : State :=
  (s.setSec { s.sec with slots := [], keyData := [] })

/-- The effects of an alarm whose action is ALARM (R551, R552). -/
def State.alarmAct (s : State) : State :=
  let s1 := ((s.setSec { s.sec with alarmDue := false }).keyClear).slotsClear
  let s2 := (s1.capSpoil).xferEnd 6
  let s3 := (s2.reelBreak 8).cfgStop 0x0E
  let s4 := (s3.stopNow).wake 4
  if s4.secState = 1 then (s4.detach.put DBG_CTRL_AUTHED 0).put SEC_AUTH_STAT_PERMS 0 else s4

/-- What follows a command by itself. -/
def State.settle (s : State) : State := (if s.sec.alarmDue then s.alarmAct else s).wakeCheck

end Sys2Proof.Machine
end

