-- ==== Sys2Proof/Machine/Bow.lean ====
section
/-! DEFINITION. Sys2Proof/Machine/Bow.lean: the bow edge (R262) and the reset edge (R280 to R282). -/

namespace Sys2Proof.Machine

/-- The sectors whose reset acts at this bow (R282). -/
def State.resetsDue (s : State) : List Nat :=
  (bitList (s.f LAT_SECTOR_RST_REQ) 16).filter (fun n => !decide (n ∈ s.lat.rstLate))

/-- The bay released at the bow that begins round `r` (R194). -/
def State.releaseDue (s : State) (r : Nat) : Option Arm :=
  s.cfg.rel.bind (fun a =>
    if s.bayState a.bay = 4 ∧ ((a.relFirst = true ∧ s.cfg.relLate = false) ∨ (a.relFirst = false ∧ a.rel ≤ r)) then some a else none)

/-- The freeze that takes effect at the bow that begins round `r` (R189); `freeze` of an arming with MODE NEXT_BOW is 1 while it misses the
bow already announced. -/
def State.freezeDue (s : State) (r : Nat) : Option Arm :=
  s.cfg.arm.bind (fun a =>
    if (a.mode = 0 ∧ a.freeze = r) ∨ (a.mode = 1 ∧ a.freeze = 0) then some a else none)

/-- Requests that missed this bow act at the next one. -/
def State.lateClear (s : State) : State :=
  let s1 := s.setTail { s.tail with
    req := s.tail.req.map (fun e => (e.1, e.2.1, false))
    trig := s.tail.trig.map (fun _ => false)
    reel := s.tail.reel.map (fun e => { e with late := false }) }
  s1.setCfg { s1.cfg with
    relLate := false
    arm := s1.cfg.arm.map (fun a => if a.mode = 1 then { a with freeze := 0 } else a) }

/-- A capture due at the bow that begins round `r` begins, or is refused (R332 to R334). -/
def State.bowCapture (s : State) (r : Nat) : State :=
  if s.capDue r then
    let req := match s.tail.req with
      | some (0, q, l) => if q = r then none else some (0, q, l)
      | some (1, _, false) => none
      | x => x
    let trig := match s.tail.trig with
      | some false => none
      | x => x
    (s.setTail { s.tail with req := req, trig := trig }).capStart r
  else s

/-- BOW tokens for the round that ends are used up (R265). -/
def State.bowsUsed (s : State) (r : Nat) : State :=
  s.each s.peers (fun p t =>
    let l := (mget t.lat.bows [] p.1).filter (fun x => x != r % 64)
    (t.setLat { t.lat with bows := mset t.lat.bows [] p.1 l }).put (LAT_PEER_STAT_PENDING p.1) l.length)

/-- LAT_LAST_LEN and LAT_MAX_LEN take the length of the round that ends. -/
def State.roundLen (s : State) (len : Nat) : State :=
  let s1 := s.put LAT_LAST_LEN_LEN len
  s1.put LAT_MAX_LEN_LEN (max len (s1.f LAT_MAX_LEN_LEN))

/-- The bits of CLK_RND_REQ that were visible at the announcement clear at the bow (R149). -/
def State.rndClear (s : State) : State := s.setReg CLK_RND_REQ (s.reg CLK_RND_REQ &&& ~~~ s.clk.rndSeen)

/-- The sector resets requested after the announcement, which wait for the next bow (R282). -/
def State.rstKeep (s : State) : Nat := (s.f LAT_SECTOR_RST_REQ) &&& s.lat.rstLate.foldl (fun m n => m ||| 2 ^ n) 0

/-- The bow edge of the node's round (R262): `up` are rows with flipped bits, `flips` slices with a fault in their arrays. A stop-now
request that came after the announcement stays for the following bow, also where a target stops the node here (R285), and a target that
this bow does not reach stays (R272, R274). -/
def State.bowEdge (s : State) (up flips : List (Nat × Nat)) : State :=
  let r := s.round.toNat + 1
  let resets := s.resetsDue
  let rel := s.releaseDue r
  let frz := s.freezeDue r
  let vals := match frz with
    | some a => s.freezeValues a.bay
    | none => []
  let len := s.lat.count
  let keep := s.rstKeep
  -- the round gates pass the edge; ROUND_COUNT; sector resets; release; the Caller
  let s1 := (s.rowFlips up).fabricEdge ⟨resets, false, true, r, flips⟩
  let s2 : State := { s1 with round := BitVec.ofNat 48 r }
  let s3 := s2.each resets (fun n t => t.sectorReset n 3)
  let s4 := (s3.put LAT_SECTOR_RST_REQ keep).setLat { s3.lat with rstLate := [] }
  let s5 := match rel with
    | some a => s4.bayRelease a.bay
    | none => s4
  let s6 := (s5.roundLen len).callerBow len
  -- the Tail; the freeze
  let s7 := (s6.bowCapture r).lateClear.capPending
  let s8 := (match frz with
    | some a => s7.bayFreeze a vals
    | none => s7).tetBow
  -- lattice control
  let s9 := s8.rndClear
  let sa := (s9.bowsUsed s.round.toNat).roundMarks
  let sb := sa.setLat { sa.lat with bowFig := sa.fig.toNat, minRound := clamp 16 65536 (sa.f LAT_CTRL_MIN_ROUND) }
  let now := s.on LAT_STAT_STOP_NOW && !s.lat.stopLate
  let sc := (sb.when now (fun t => t.put LAT_STAT_STOP_NOW 0)).setLat { sb.lat with stopLate := false }
  if s.lat.target = some r ∨ now then
    let t := ((sc.when (decide (s.lat.target = some r)) (fun u => u.setTarget none)).setLatState 1).raise 153
    ((t.sendTokens 1 r).haltOnStop).latSettle
  else (sc.setLatState 3).latSettle

/-- BOW (R261, R262): the bow edge of a node that has announced it, which is 2 f after the announcement. A Reel-in that is armed in time
makes it the restore edge (R356). -/
def execBow (up flips : List (Nat × Nat)) (s : State) : Out :=
  .next <| State.settle <|
    if s.bowReached then
      match s.tail.reel with
      | some r =>
        if s.f TAIL_REEL_STAT_STATE = 2 ∧ r.late = false then
          let n := s.resetsDue
          let s1 := (s.restoreAt r n).each n (fun k t => t.sectorReset k 3)
          ((s1.put LAT_SECTOR_RST_REQ s.rstKeep).setLat { s1.lat with rstLate := [] }).rndClear.lateClear.noteReady.tetBow
        else s.bowEdge up flips
      | none => s.bowEdge up flips
    else s

/-- The reset edge of a lattice reset is over. -/
def State.resetSeen (s : State) : State := s.setLat { s.lat with resetDue := false, rstLate := [] }

/-- The edge of a lattice reset, e + 16, is reached (R281). -/
def State.resetReached (s : State) : Bool := s.lat.resetDue && decide (s.lat.resetFig ≤ s.fig.toNat)

/-- The sectors whose reset, requested 16 f ago, acts now while the rounds are stopped (R282). -/
def State.rstReached (s : State) : List Nat :=
  if s.stopped then (bitList (s.f LAT_SECTOR_RST_REQ) 16).filter (fun n => decide (mget s.lat.rstFig 0 n + 16 ≤ s.fig.toNat)) else []

/-- RESET_EDGE (R280 to R282): the edge of a lattice reset, or, while the rounds are stopped, of requested sector resets. -/
def execResetEdge (s : State) : Out :=
  .next <|
    if s.resetReached then
      let all := List.range 16
      let s1 := (s.fabricEdge ⟨all, false, false, 0, []⟩).each all (fun n t => t.sectorReset n 4)
      (s1.put LAT_SECTOR_RST_REQ 0).resetSeen.raise 153
    else
      let l := s.rstReached
      if l.isEmpty then s
      else
        let s1 := (s.fabricEdge ⟨l, false, false, 0, []⟩).each l (fun n t => t.sectorReset n 3)
        let left := (bitList (s.f LAT_SECTOR_RST_REQ) 16).filter (fun n => decide (n ∉ l))
        (s1.put LAT_SECTOR_RST_REQ (left.foldl (fun m n => m ||| 2 ^ n) 0)).setLat
          { s1.lat with rstLate := s1.lat.rstLate.filter (fun n => decide (n ∉ l)) }

end Sys2Proof.Machine
end

