-- ==== Sys2Proof/Machine/Caller.lean ====
section
/-! DEFINITION. Sys2Proof/Machine/Caller.lean: the commands of the Caller (file 06). A step's command performs, on its unit, the micro-ops
that remain until one has to wait (R216); a micro-op that waits is performed by a later command of the same step. -/

namespace Sys2Proof.Machine

/-! ### Dispatch -/

/-- A local queue operand fails the check of R239. -/
def State.badQueue (s : State) (q : Nat) : Bool := decide (16383 < q) || !s.queueValid q

/-- A destination queue operand fails: a local one when the node is this node. -/
def State.badDest (s : State) (node q : Nat) : Bool := decide (16383 < q) || (node == s.nodeId && !s.queueValid q)

/-- The signals of a task fail the check of R239. -/
def State.badSig (s : State) (t : Nat) : Bool :=
  decide (32768 < s.sigBase t + s.sigCount t) ||
    (List.range (s.sigCount t)).any (fun i =>
      let w := mget s.call.active.sig 0 (s.sigBase t + i)
      fget w 31 31 == 1 && !s.taskUsed (fget w 17 6))

/-- The first cause of R239 that applies to a selected task; `ue`: its descriptor is uncorrectable. -/
def State.descCheck (s : State) (t : Nat) (ue : Bool) : Option Nat :=
  let a := s.opA t
  let b := s.opB t
  let c := s.opC t
  let op := s.taskOp t
  let badOp := decide (10 < op) || (op == 5 && decide (1 < c)) || ((op == 6 || op == 7) && decide (0xFFFF < b)) ||
    (op == 8 && (decide (7 < a) || decide (0x3FFFF < c)))
  let badWord := ((op == 1 || op == 3) && decide (8191 < a)) || (op == 2 && decide (8191 < b))
  let badQ := (op == 1 && s.badQueue b) || (op == 2 && s.badQueue a) || (op == 3 && s.badDest b c) ||
    (op == 4 && (s.badQueue a || s.badDest b c)) || (op == 5 && (s.badQueue a || s.badQueue b)) ||
    ((op == 6 || op == 7) && s.badQueue c)
  let badNode := (op == 3 || op == 4) && decide (4095 < b)
  if ue then some 7
  else if badOp then some 1
  else if badWord then some 2
  else if badQ then some 3
  else if badNode then some 4
  else if s.badSig t then some 5
  else if (op == 6 || op == 7) && a % 8 != 0 then some 6
  else none

/-- The first READY task of a class at or above its rotating pointer, wrapping (R224). -/
def State.pickTask (s : State) (cls : Nat) : Option Nat :=
  let l := s.tasksUsed.filter (fun t => s.taskClass t == cls && s.taskReady t)
  let p := mget s.call.ptr 0 cls
  (l.find? (fun t => decide (p ≤ t))).or l.head?

/-- Select a task onto unit `u` (R214, R224, R239): its masked latched flags clear, the pointer moves, the checks run. -/
def State.select (s : State) (u t : Nat) (ue : Bool) : State :=
  let m := s.taskMask t
  let x := s.ctask t
  let spent := s.fig.toNat - x.since.getD s.fig.toNat
  let s0 := s.changeFlags t (s.latched t ^^^ (s.latched t &&& m))
  let s1 := s0.setCall { s0.call with ptr := mset s0.call.ptr 0 (s.taskClass t) ((t + 1) % 4096) }
  let s2 := s1.traceTask 1 u t (min spent 0xFFFF)
  match s2.descCheck t ue with
  | some c => (s2.taskFault t c u).when (c == 7) (fun v => v.leafEvent 516 true 0)
  | none => (s2.setTask t { x with st := .run, since := none }).setUnit u (some ⟨t, 0, none, 0, none, 0, none, none, 0, none, none, none, none⟩)

/-- The suspended step that R224 resumes first: the lowest class, then the earliest suspension. -/
def State.pickSusp (s : State) : Option CStep :=
  s.call.susp.foldl (fun b x => match b with
    | none => some x
    | some y => if s.taskClass x.task < s.taskClass y.task then some x else some y) none

/-- Resume a suspended step on unit `u` (R225). -/
def State.resume (s : State) (u : Nat) (x : CStep) : State :=
  let s1 := (s.setCall { s.call with susp := s.call.susp.erase x }).setUnit u (some x)
  (s1.setTask x.task { s1.ctask x.task with st := .run }).traceTask 4 u x.task 0

/-- Fill one free unit (R224). -/
def State.fillUnit (s : State) (u : Nat) (ues : List Nat) : State :=
  match s.pickTask 0 with
  | some t => s.select u t (decide (t ∈ ues))
  | none => match s.pickSusp with
    | some x => s.resume u x
    | none => match ((s.pickTask 1).or (s.pickTask 2)).or (s.pickTask 3) with
      | some t => s.select u t (decide (t ∈ ues))
      | none => s

/-- The unit that a class-0 task preempts (R226): the highest class, and among those the highest unit number. -/
def State.victim (s : State) : Option Nat :=
  [3, 2, 1, 0].foldl (fun b u => match s.unit u with
    | none => b
    | some x => if s.taskClass x.task = 0 then b else match b with
      | none => some u
      | some v => match s.unit v with
        | none => some u
        | some y => if s.taskClass y.task < s.taskClass x.task then some u else some v) none

/-- Preempt for a class-0 task (R226). -/
def State.preempt (s : State) (ues : List Nat) : State :=
  match s.pickTask 0, s.victim with
  | some t, some u => match s.unit u with
    | none => s
    | some x => if s.call.susp.length < 4 then
        let s1 := (s.setCall { s.call with susp := s.call.susp ++ [x] }).setUnit u none
        let s2 := s1.setTask x.task { s1.ctask x.task with st := .suspended }
        let traced := s.taskF x.task 25 25 == 1 || s.taskF t 25 25 == 1
        (s2.when traced (fun v => v.trace 3 (v.taskClass x.task) u x.task t)).select u t (decide (t ∈ ues))
      else s
  | _, _ => s

/-- The Caller selects tasks now (R211, R248). -/
def State.selecting (s : State) : Bool :=
  s.inRound && s.on CALLER_CTRL_EN && !s.on CALLER_STAT_DONE &&
    !(s.on CALLER_TRACE_CFG_EN && s.on CALLER_TRACE_CFG_FULL_POL && decide (256 ≤ s.call.trace.length))

/-- The configuration of queue `q` is found uncorrectable (R233, R239): VALID = 0 until a swap, and the leaf group counts it. -/
def State.queueLost (q : Nat) (s : State) : State :=
  if q ∈ s.call.queueUe then s else (s.setCall { s.call with queueUe := s.call.queueUe ++ [q] }).leafEvent 516 true 0

/-- TASK_DISPATCH (R224 to R226): one edge of the arbiter. `ues`: tasks whose descriptors are uncorrectable; `qs`: queues whose
configuration is found uncorrectable (R239). -/
def execTaskDispatch (ues qs : List Nat) (s : State) : Out :=
  .next <|
    let s0 := (s.each qs State.queueLost).noteReady
    if s0.selecting then
      let free := (List.range 4).filter (fun u => (s0.unit u).isNone)
      let s1 := s0.each free (fun u t => t.fillUnit u ues)
      let s2 := if (List.range 4).all (fun u => (s1.unit u).isSome) then s1.each (List.range 4) (fun _ t => t.preempt ues) else s1
      (s2.noteReady).settle
    else s0.settle

/-! ### Steps -/

/-- NOP (R216). `u`: the unit; `ue`: the index of a signal entry found uncorrectable. -/
def execCallerNop (u : Nat) (ue : Option Nat) (s : State) : Out :=
  .next (s.onStep u 0 ue (fun x => let r := s.uopDone u x; r.1.stepEnd u r.2 ue)).settle

/-- CAPTURE (R216, R217): capture the word, push the bundle. -/
def execCallerCapture (u : Nat) (ue : Option Nat) (s : State) : Out :=
  .next (s.onStep u 1 ue (fun x =>
    let r := if x.uop = 0 then s.uopDone u { x with data := some (s.captureWord (s.opA x.task)) } else (s, x)
    r.1.stepPush u (s.opB x.task) r.2 (r.2.data.getD ⟨0, false⟩) ue)).settle

/-- DELIVER (R216, R217): pop the bundle, write the word. -/
def execCallerDeliver (u : Nat) (e : Ecc) (ue : Option Nat) (s : State) : Out :=
  .next (s.onStep u 2 ue (fun x =>
    let r := if x.uop = 0 then s.stepPop u (s.opA x.task) x e else (s, some x)
    match r.2 with
    | none => r.1
    | some y =>
      let w := r.1.callerWrite (s.opB x.task) (y.data.getD ⟨0, false⟩)
      let d := w.uopDone u y
      d.1.stepEnd u d.2 ue)).settle

/-- CAPSEND (R216, R218): capture the word, hand the bundle off. -/
def execCapsend (u : Nat) (ue : Option Nat) (s : State) : Out :=
  .next (s.onStep u 3 ue (fun x =>
    let r := if x.uop = 0 then s.uopDone u { x with data := some (s.captureWord (s.opA x.task)) } else (s, x)
    r.1.stepHandOff u r.2 (r.2.data.getD ⟨0, false⟩) ue)).settle

/-- SEND (R216, R218): pop the bundle, hand it off. -/
def execCallerSend (u : Nat) (e : Ecc) (ue : Option Nat) (s : State) : Out :=
  .next (s.onStep u 4 ue (fun x =>
    let r := if x.uop = 0 then s.stepPop u (s.opA x.task) x e else (s, some x)
    match r.2 with
    | none => r.1
    | some y => r.1.stepHandOff u y (y.data.getD ⟨0, false⟩) ue)).settle

/-- COPY (R216): read the head, popping it unless KEEP, and push it. -/
def execCallerCopy (u : Nat) (e : Ecc) (ue : Option Nat) (s : State) : Out :=
  .next (s.onStep u 5 ue (fun x =>
    let q := s.opA x.task
    let r := if x.uop = 0 then
        (if (s.opC x.task).testBit 0 then s.stepPeek u q x e else s.stepPop u q x e)
      else (s, some x)
    match r.2 with
    | none => r.1
    | some y => r.1.stepPush u (s.opB x.task) y (y.data.getD ⟨0, false⟩) ue)).settle

/-- DELAY (R216, R222): form the key at edge d, insert the entry at d + 1, or where it waits at the edge that has room. -/
def execCallerDelay (u : Nat) (ue : Option Nat) (s : State) : Out :=
  .next (s.onStep u 8 ue (fun x =>
    let l := s.opA x.task
    let c := s.opC x.task
    let r := if x.uop = 0 then s.uopDone u { x with key := s.listKey l s.fig.toNat (s.opB x.task) } else (s, x)
    let i := max s.fig.toNat (r.2.start.getD s.fig.toNat + 1)
    match r.1.listInsert l ⟨r.2.key, bitsOf c 17 6, bitsOf c 5 0, i, u, 0, s.round.toNat⟩ with
    | none => (r.1.put (CALLER_DLIST_STAT_FULL_HIT l) 1).uopWait u r.2 3
    | some t => let d := t.uopDone u r.2; d.1.stepEnd u d.2 ue)).settle

/-- SETCLK (R216, R220). -/
def execSetclk (u : Nat) (ue : Option Nat) (s : State) : Out :=
  .next (s.onStep u 9 ue (fun x =>
    let t := s.setReg CLK_RND_REQ (s.reg CLK_RND_REQ ||| s.taskWord x.task 1)
    let d := t.uopDone u x
    d.1.stepEnd u d.2 ue)).settle

/-- FENCE (R216, R220): issue a fence on source 18, complete when it completes; with 16 pending the write waits (R35, R250). -/
def execCallerFence (u : Nat) (ue : Option Nat) (s : State) : Out :=
  .next (s.onStep u 10 ue (fun x =>
    match x.fence with
    | none =>
      (match s.issueFence 18 with
      | (_, none) => s.uopWait u x 6
      | (t, some k) => let d := t.uopDone u { x with fence := some k }
                       d.1.uopWait u d.2 6)
    | some k => if s.fenceDone 18 k then (let d := s.uopDone u x; d.1.stepEnd u d.2 ue) else s.uopWait u x 6)).settle

/-! ### Lists, queues, completion -/

/-- DLIST_EXPIRY (R223): the head of figure-keyed list `l`, when it is due. -/
def execDlistExpiry (l : Nat) (s : State) : Out :=
  .next <|
    match s.dlistOf l with
    | [] => s
    | d :: _ =>
      if !s.listRound l && decide (0 ≤ sext 48 (s.fig.toNat + 2 ^ 48 - d.key)) && decide (d.edge + 2 ≤ s.fig.toNat) then
        ((s.expire l).noteReady).settle
      else s

/-- SPILL_READBACK (R234 to R236): the oldest spilled entry of queue `q` comes on chip; `up`: bit errors in its line. -/
def execSpillReadback (q : Nat) (up : List (Nat × Nat)) (s : State) : Out :=
  .next ((s.spillBack q up).noteReady).settle

/-- Every condition of R237 holds. -/
def State.callerFinished (s : State) : Bool :=
  s.tasksUsed.all (fun t => s.taskF t 26 26 == 0 || (s.ctask t).ran || (s.ctask t).st == .fault) &&
  s.call.susp.isEmpty && (List.range 4).all (fun u => (s.unit u).isNone) &&
  s.call.queue.all (fun e => e.2.chip.isEmpty && e.2.spilled == 0) &&
  (List.range 8).all (fun l => s.listRound l || (s.dlistOf l).isEmpty)

/-- CALLER_DONE (R211, R237): DONE becomes 1. -/
def execCallerDone (s : State) : Out :=
  .next <|
    if s.inRound && !s.on CALLER_STAT_DONE && (!s.on CALLER_CTRL_EN || s.callerFinished) then
      let len := s.fig.toNat - s.lat.bowFig
      ((s.put CALLER_STAT_DONE 1).put CALLER_STAT_LAST_DONE (min len 0xFFFF)).trace 7 0 0 0 len
    else s

/-- CALLER_STALL (R242): LIMIT figures without progress. -/
def execCallerStall (s : State) : Out :=
  .next <|
    let limit := s.f CALLER_STALL_LIMIT_LIMIT
    if s.inRound && !s.on CALLER_STAT_DONE && limit != 0 && decide (limit ≤ s.call.quiet) && !s.call.stallSaid then
      ((s.setCall { s.call with stallSaid := true }).put CALLER_STAT_STALL 1).raise 145
    else s

/-- CLR_FAULT (R210): a task in FAULT returns to WAIT. -/
def execClrFault (t : Nat) (s : State) : Out :=
  .next (if (s.ctask t).st = .fault then (s.setTask t { s.ctask t with st := .idle }).noteReady else s)

/-- TASK_FLAG_WRITE (R215): a write to CALLER_TASK_FLAGS_LO, or HI when `hi`. -/
def execTaskFlagWrite (t : Nat) (hi : Bool) (v : Word) (s : State) : Out :=
  .next (s.changeFlags t (s.latched t ||| (if hi then v.toNat * 2 ^ 32 else v.toNat))).noteReady

/-! ### The swap and the queue port -/

/-- A refused swap (R244). -/
def State.swapRefuse (s : State) : State := (s.put CALLER_SWAP_REFUSED 1).raise 148

/-- GO (R244) with the MODE of the same write. -/
def State.swapRequest (s : State) (mode : Nat) : State :=
  let s0 := s.put CALLER_SWAP_MODE mode
  let round := s0.f CALLER_SWAP_ROUND_LO_ROUND_LO + s0.f CALLER_SWAP_ROUND_HI_ROUND_HI * 2 ^ 32
  let now := s0.round.toNat
  if s0.on CALLER_SWAP_PENDING then s0.swapRefuse
  else match mode with
    | 0 =>
      if s0.on CALLER_SWAP_SYNC_BUSY || decide (round ≤ now) || (s0.latState == 6 && round == now + 1) then s0.swapRefuse
      else (s0.setCall { s0.call with swap := some (0, round, false) }).put CALLER_SWAP_PENDING 1
    | 1 => (s0.setCall { s0.call with swap := some (1, round, false) }).put CALLER_SWAP_PENDING 1
    | 2 => if s0.stopped then s0.callerSwapNow.noteReady else s0.swapRefuse
    | _ => s0.swapRefuse

/-- GO (R244). -/
def execSwapGo (mode : Nat) (s : State) : Out := .next (s.swapRequest (mode % 4))

/-- SYNC (R245): the copy starts. -/
def execSyncGo (s : State) : Out := .next (s.put CALLER_SWAP_SYNC_BUSY 1)

/-- SYNC_DONE (R245): the shadow banks equal the active banks, then the held writes land unless a swap still holds them. -/
def execSyncDone (s : State) : Out :=
  .next <|
    if s.on CALLER_SWAP_SYNC_BUSY then
      let s1 := (s.setCall { s.call with shadow := s.call.active }).put CALLER_SWAP_SYNC_BUSY 0
      if s1.on CALLER_SWAP_PENDING then s1 else (s1.landHeld s1.call.heldWr)
    else s

/-- QPORT_PUSH (R251): the state, STATUS and CAUSE. -/
def State.qportPush (s : State) (poison : Bool) : State × Nat × Nat :=
  let q := s.f CALLER_QPORT_SEL_QUEUE
  if !s.stopped then (s, 4, 2)
  else if !s.queueValid q then (s, 4, 3)
  else
    match s.push q ⟨BitVec.ofNat 64 (s.pair CALLER_QPORT_DATA_LO CALLER_QPORT_DATA_HI), poison⟩ with
    | none => (s, 4, 3)
    | some t => (t, 0, 0)

/-- QPORT_POP (R251): the state, the value read, STATUS and CAUSE. A head that is still in the spill area is read back first (R230: a pop
waits for it; log entry 47), `up` being the bit errors of its line; `e`: what the check of the popped bundle finds (R233). -/
def State.qportPop (s : State) (e : Ecc) (up : List (Nat × Nat)) : State × Nat × Nat × Nat :=
  let q := s.f CALLER_QPORT_SEL_QUEUE
  if !s.stopped then (s, 0, 4, 2)
  else if !s.queueValid q then (s, 0, 0, 0)
  else
    let s0 := if (s.cqueue q).chip.isEmpty then s.spillBack q up else s
    match s0.pop q e with
    | none => (s0, 0, 0, 0)
    | some (t, b) => ((t.setReg CALLER_QPORT_DATA_LO (b.data.setWidth 32)).setReg CALLER_QPORT_DATA_HI (b.data.extractLsb' 32 32),
        2 ^ 31 + b2n b.poison, 0, 0)

/-- QPORT_PUSH (R251). -/
def execQportPush (poison : Bool) (s : State) : Out := .next (s.qportPush poison).1.settle

/-- QPORT_POP (R251); `e`, `up`: what the checks of the bundle and of a line read back find. -/
def execQportPop (e : Ecc) (up : List (Nat × Nat)) (s : State) : Out := .next (s.qportPop e up).1

end Sys2Proof.Machine
end

