-- ==== Sys2Proof/Machine/CallerMesh.lean ====
section
/-! DEFINITION. Sys2Proof/Machine/CallerMesh.lean: the LOAD and STORE steps of the Caller and the responses to them (R216, R219). -/

namespace Sys2Proof.Machine

/-- The address of a LOAD or STORE (R216): bits 31:3 of A, and B as bits 47:32. -/
def State.stepAddr (s : State) (t : Nat) : Nat := s.opA t / 8 * 8 + s.opB t % 2 ^ 16 * 2 ^ 32

/-- The request of a LOAD, or of a STORE of a bundle, whose poison goes with it (R219); `ref` names the task. -/
def State.stepAcc (s : State) (t : Nat) (b : Option Bundle) : Acc :=
  let a := s.stepAddr t
  match b with
  | none => ⟨18, 0, false, a, 8, 0, 0, 0, t⟩
  | some x => ⟨18, 0, true, a, 8, 255 <<< (a % 64), x.data.toNat <<< (8 * (a % 64)), if x.poison then wordMask a 8 else 0, t⟩

/-- Issue the access of the step on unit `u`: it waits while no tag is free. From here the step waits for the response (R247): a LOAD's
push is first due one edge later, a STORE completes with it. -/
def State.stepIssue (s : State) (u : Nat) (x : CStep) (b : Option Bundle) : State :=
  match s.meshQueue (s.stepAcc x.task b) with
  | none => s.uopWait u x 4
  | some t =>
    let r := t.uopDone u x
    r.1.setUnit u (some { r.2 with waitFrom := some (s.fig.toNat + b2n b.isNone) })

/-- A LOAD on unit `u`: issue the read, then push what returned. -/
def State.loadStep (s : State) (u : Nat) (ue : Option Nat) (x : CStep) : State :=
  if x.uop = 0 then s.stepIssue u x none
  else match x.rsp with
    | none => s
    | some (_, d, p) => s.stepPush u (s.opC x.task) x ⟨BitVec.ofNat 64 d, p⟩ ue

/-- A STORE on unit `u`: pop, issue the write, end when the response has returned. -/
def State.storeStep (s : State) (u : Nat) (e : Ecc) (ue : Option Nat) (x : CStep) : State :=
  match x.uop with
  | 0 =>
    let r := s.stepPop u (s.opC x.task) x e
    match r.2 with
    | none => r.1
    | some y => r.1.stepIssue u y (some (y.data.getD ⟨0, false⟩))
  | 1 => s.stepIssue u x (some (x.data.getD ⟨0, false⟩))
  | _ => if x.rsp.isSome then s.stepEnd u { x with waited := x.waited + (s.fig.toNat - x.waitFrom.getD s.fig.toNat), waitFrom := none } ue else s

/-- LOAD (R216, R219). -/
def execCallerLoad (u : Nat) (ue : Option Nat) (s : State) : Out := .next (s.onStep u 6 ue (s.loadStep u ue)).settle

/-- STORE (R216, R219). -/
def execCallerStore (u : Nat) (e : Ecc) (ue : Option Nat) (s : State) : Out := .next (s.onStep u 7 ue (s.storeStep u e ue)).settle

/-- What a response brings to its step (R219): STATUS, the data, 0 on error, and the poison, 1 on error. -/
def rspBundle (a : Acc) (r : Rsp) : Nat × Nat × Bool :=
  if r.status ≠ 0 then (r.status, 0, true)
  else (0, (r.data >>> (8 * (a.addr % 64))) % 2 ^ 64, r.poison &&& wordMask a.addr 8 != 0)

/-- The response is an error of LOAD_ERR (R219): any error status, and poison of a read. -/
def loadErr (a : Acc) (r : Rsp) : Bool := r.status != 0 || (!a.write && (rspBundle a r).2.2)

/-- A suspended step takes a response. -/
def giveRsp (t : Nat) (v : Nat × Nat × Bool) (x : CStep) : CStep := if x.task = t then { x with rsp := some v } else x

/-- The response for task `t` reaches its step (R216, R225): on a unit the step goes on; a suspended one keeps it. -/
def State.stepRsp (s : State) (t : Nat) (v : Nat × Nat × Bool) (ue : Option Nat) : State :=
  match (List.range 4).find? (fun u => (s.unit u).any (fun x => x.task == t)) with
  | some u =>
    let s1 := s.setUnit u ((s.unit u).map (giveRsp t v))
    if s1.taskOp t = 6 then s1.onStep u 6 ue (s1.loadStep u ue) else s1.onStep u 7 ue (s1.storeStep u .ok ue)
  | none => s.setCall { s.call with susp := s.call.susp.map (giveRsp t v) }

/-- CALLER_MESH_RESPONSE (R216, R219): the response to the access of task `t` reaches the Caller; 4,096 is the response to one whose
step a lattice reset has discarded. -/
def execCallerMeshResponse (t : Nat) (ue : Option Nat) (s : State) : Out :=
  .next <|
    match s.takeInbox 18 (fun a => a.ref == t) with
    | none => s
    | some (a, r, s1) =>
      if t = 4096 then s1
      else
        let s2 := if loadErr a r then s1.callerErr 2 t else s1
        (s2.stepRsp t (rspBundle a r) ue).settle

end Sys2Proof.Machine
end

