-- ==== Sys2Proof/Machine/Frames.lean ====
section
/-! DEFINITION. Sys2Proof/Machine/Frames.lean: frames of configuration memory (R168 to R170): what a frame's bits configure, its check
bits, and what an upset makes of it. -/

namespace Sys2Proof

/-- What the bits of frame 4,608 k + i of the device configure. R169 gives the resource of every frame and no rule the place of its bits, so
that the reading of the bits is a constant without a body (log entry 7). -/
opaque Config.frameItems (key data : Nat) : List Machine.CfgItem

namespace Machine

/-- The item configures a resource that frame 4,608 k + i covers (R169, R144, R346). A region is one of 4 KiB to 2 GiB at a multiple of its
size (R89). -/
def CfgItem.fits (key : Nat) (x : CfgItem) : Bool :=
  let k := key / 4608
  let i := key % 4608
  let column := fun (c : Nat) => decide (i < 4224) && c == 48 * k + i / 88
  let edge := decide (4576 ≤ i)
  match x with
  | .cell c => column (c.cell / 4096)
  | .cluster c => column (c.cluster / 256)
  | .sel _ _ => decide (i < 4224)
  | .multi => true
  | .bndOut w _ _ => edge && w / 64 == k
  | .bndUsed w _ => edge && w / 64 == k
  | .freezeConst _ _ => edge
  | .mem c => decide (4224 ≤ i ∧ i < 4480) && c.mem / 64 == 2 * k + (i - 4224) / 128
  | .slice c => decide (4480 ≤ i ∧ i < 4576) && c.slice / 32 == 3 * k + (i - 4480) / 32
  | .region j base log2 _ => edge && k % 8 == 0 && decide (j < 16 ∧ 12 ≤ log2 ∧ log2 ≤ 31) && base * 4096 % 2 ^ log2 == 0
  | .bclk _ => edge
  | .pclk _ => edge && k % 8 == 0
  | .portIn _ _ => edge && k % 8 == 0
  | .ckin _ => decide (i < 88)
  | .pin _ _ _ => true
  | .probe n _ _ => edge && k == 8 * n

/-- What a frame with these bits configures; bits that are all 0 configure nothing. -/
def frameItems (key data : Nat) : List CfgItem := if data = 0 then [] else (Config.frameItems key data).filter (CfgItem.fits key)

/-- The frame that the engine writes for these 5,120 data bits: the engine computes its check bits (R170), which are 0 for zeros. -/
def frameOf (key data : Nat) : Frame where
  data := data % 2 ^ 5120
  items := frameItems key (data % 2 ^ 5120)
  check := if data % 2 ^ 5120 = 0 then 0 else Config.frameCheck (data % 2 ^ 5120)
  flip := 0

/-- Upsets flip the bits `mask` of the frame's code word, data bits in bits 5,119 to 0 and check bits above them. -/
def Frame.upset (f : Frame) (key mask : Nat) : Frame :=
  let m := mask % 2 ^ 5152
  if m = 0 then f
  else
    let data := f.data ^^^ m % 2 ^ 5120
    ⟨data, frameItems key data, f.check ^^^ BitVec.ofNat 32 (m >>> 5120), f.flip ^^^ m⟩

/-- The data bits that the engine wrote. -/
def Frame.meant (f : Frame) : Nat := f.data ^^^ f.flip % 2 ^ 5120

/-- How many bits of a number are 1, below bit `n`. -/
def bitCount : Nat → Nat → Nat
  | 0, _ => 0
  | n + 1, v => v % 2 + bitCount n (v / 2)

end Machine

end Sys2Proof
end

