-- ==== Sys2Proof/Machine/LoadOps.lean ====
section
/-! DEFINITION. Sys2Proof/Machine/LoadOps.lean: the named operations of a configuration load (file 05): its checks (R173, R174), its
source and the image store (R178, R184), the writing of frames (R75, R97, R175, R180), firmware and the start-up (R176, R188, R206), the
repair of frames (R205). -/

namespace Sys2Proof.Machine

/-! ### Checks -/

/-- The key that an image may use from slot `k` (R546): none where the slot is empty, 0 or above 7. -/
def State.imageKey (s : State) (k : Nat) : Option Nat :=
  if 1 ≤ k ∧ k ≤ 3 then mget s.sec.fuses.key none k else if 4 ≤ k ∧ k ≤ 7 then mget s.sec.slots none k else none

/-- SIGNER_KEY is accepted (R173 step 2, R545). -/
def State.signerOk (s : State) (d : Nat) : Bool :=
  s.secState == 0 || (List.range 4).any (fun i => mget s.sec.fuses.sk none i == some d && !decide (i ∈ s.sec.fuses.revoked))

/-- The size of the slot of the image store that images of OP `op` use (R178). -/
def slotSize (op : Nat) : Nat := if op = 0 then 512 * 2 ^ 20 else 128 * 2 ^ 20

/-- The address of that slot. -/
def storeBase (op : Nat) : Nat := if op = 0 then 0x001640000000 else 0x001678000000

/-- The checks of header `h` (R173 steps 1 to 4, R178): the cause of the first that fails. Where LENGTH is above what the slot or LEN
allows, the load ends before the signature is looked at (log entry 45). -/
def State.headCheck (s : State) (op src h : Nat) : Option Nat :=
  if bytesAt h 0 4 ≠ 0x4D4C4654 ∨ bytesAt h 4 2 ≠ 1 ∨ imgKind h ≠ op + 1 then some 0x01
  else if bytesAt h 8 4 ≠ (s.reg DEV_CODE).toNat ∨ s.f DEV_REV_STEPPING < bytesAt h 12 1 then some 0x02
  else if !tableOk h ∨ !kindOk op (imgSecs h) ∨ ((op = 0 ∨ op = 2) ∧ imgBase h ≠ 0) then some 0x01
  else if slotSize op < imgLength h then some 0x0A
  else if src = 1 ∧ ((s.reg CFG_SRC_LEN).toNat < imgLength h ∨ !s.hostThere) then some 0x08
  else if !imgSigned h ∨ !s.signerOk (imgSigner h) then some 0x03
  else if s.secState ≠ 0 ∧ bytesAt h 16 4 < s.sec.fuses.version then some 0x06
  else if (op = 1 ∨ op = 3) ∧ (!s.cfg.loaded ∨ imgBase h ≠ s.cfg.design) then some 0x07
  else none

/-- The check of a section's tag (R173 step 6, R546): false where it fails. -/
def State.tagCheck (s : State) (h : Nat) (x : Sec) (stored : Nat) : Bool :=
  !imgEncrypted h || (match s.imageKey (bytesAt h 20 4) with
    | some k => tagOk k h x stored
    | none => false)

/-- A section that has passed its checks, in the clear. -/
def State.clear (s : State) (h : Nat) (x : Sec) (stored : Nat) : Nat := secClear ((s.imageKey (bytesAt h 20 4)).getD 0) h x stored

/-- The checks of sections with their stored bytes: step 5 of R173 on each, then step 6 on each. -/
def State.secsCheck (s : State) (h : Nat) (l : List (Sec × Nat)) : Option Nat :=
  if !l.all (fun x => digestOk x.1 x.2) then some 0x04 else if !l.all (fun x => s.tagCheck h x.1 x.2) then some 0x05 else none

/-! ### The image store (R178, R180) -/

/-- `n` whole lines go to HBM from address `a` on, as source 20. -/
def storeLines : Nat → Nat → Nat → State → State
  | 0, _, _, s => s
  | n + 1, a, v, s => storeLines n (a + 64) (v >>> 512) (s.hubWrite 20 a 64 (v % 2 ^ 512) 0).1

/-- `n` whole lines are read from address `a` on, as source 20; none when one returns poison or error status (R184, R205, R419). -/
def fetchLines : Nat → Nat → State → State × Option Nat
  | 0, _, s => (s, some 0)
  | n + 1, a, s =>
    let d := s.hubRead 20 a 64 []
    if d.2.poison || d.2.err then (d.1, none)
    else match fetchLines n (a + 64) d.1 with
      | (t, some v) => (t, some (d.2.data + v * 2 ^ 512))
      | (t, none) => (t, none)

/-- `n` bytes go to the store at line address `a`; the last line is filled up with zeros. -/
def State.storePut (s : State) (a n v : Nat) : State := storeLines ((n + 63) / 64) a (v % 2 ^ (8 * n)) s

/-- `n` bytes from line address `a` of the store. -/
def State.storeGet (s : State) (a n : Nat) : State × Option Nat :=
  let r := fetchLines ((n + 63) / 64) a s
  (r.1, r.2.map (fun v => v % 2 ^ (8 * n)))

/-- The address of frame `key` in the mirror. -/
def mirrorAddr (key : Nat) : Nat := 0x001660000000 + 640 * key

/-! ### The source (R184) -/

/-- What a source gives when bytes are asked of it. -/
inductive Fetch where
  /-- the bytes -/
  | data (v : Nat)
  /-- not yet: a debugger is still to shift them in -/
  | wait
  /-- the load ends with a cause -/
  | fail (cause : Nat)
deriving DecidableEq, Repr

/-- `n` bytes at offset `off` of the image. -/
def State.loadFetch (s : State) (l : Load) (off n : Nat) : State × Fetch :=
  if l.src = 3 then
    match s.storeGet (storeBase l.op + off) n with
    | (t, some v) => (t, .data v)
    | (t, none) => (t, .fail 0x15)
  else if off + n ≤ l.size then (s, .data (bytesAt l.data off n))
  else (s, if l.src = 2 then .wait else .fail 0x08)

/-- The stored bytes of a list of sections; the outcome of the first that cannot be had. -/
def fetchAll (l : Load) : List Sec → List (Sec × Nat) → State → State × List (Sec × Nat) × Option Fetch
  | [], got, s => (s, got, none)
  | x :: t, got, s =>
    match s.loadFetch l x.off x.slen with
    | (u, .data v) => fetchAll l t (got ++ [(x, v)]) u
    | (u, f) => (u, got, some f)

/-! ### Frames -/

/-- More than one select bit of one of these multiplexers is set. -/
def manySel (l : List (List Net)) : Bool := l.any (fun x => decide (1 < x.length))

/-- An item sets more than one select bit of one multiplexer (R73, R75). -/
def CfgItem.multiSel : CfgItem → Bool
  | .multi => true
  | .sel _ taps => decide (1 < taps.length)
  | .cell c => manySel c.ins || [c.ffa, c.ffb].any (fun f =>
      decide (1 < f.dSel.length ∨ 1 < f.clk.length ∨ 1 < f.ce.length ∨ 1 < f.sr.length))
  | .cluster c => manySel (c.ce ++ c.sr.map (·.1))
  | .bndOut _ bits poison => manySel (poison :: bits)
  | .mem c => manySel ([c.a, c.b].flatMap (fun p => p.sr :: p.en :: p.pin :: (p.addr ++ p.din ++ p.bwe)))
  | .slice c => manySel (c.ceIn :: c.ceM :: c.ceP :: c.sr :: c.pi :: (c.a ++ c.b ++ c.c ++ c.d))
  | .portIn _ bits => manySel bits
  | .ckin src => manySel [src]
  | .pin _ out oe => manySel [out, oe]
  | .probe _ _ src => manySel [src]
  | .bndUsed _ _ => false
  | .freezeConst _ _ => false
  | .region _ _ _ _ => false
  | .bclk _ => false
  | .pclk _ => false

/-- A frame sets more than one select bit of one multiplexer (R75): in one item, or in two of one wire. -/
def Frame.multiSel (f : Frame) : Bool :=
  let set := f.items.filterMap (fun i => match i with
    | .sel w (_ :: _) => some w
    | _ => none)
  f.items.any CfgItem.multiSel || decide (set.eraseDups.length < set.length)

/-- The claimed wires that a frame selects. -/
def Frame.claims (f : Frame) : List Nat :=
  f.items.filterMap (fun i => match i with
    | .sel w (_ :: _) => some w
    | _ => none)

/-- The check of a frame with key `key` before it is written (R75, R97): its cause. `pr`: the bay has begun partial reconfiguration. The
MODE of a clock is its register's as it stands when the frame is written: a FULL image applies its clock settings after its bays (R174), and
no rule says which value R97 means (DESIGN CHOICE, log entry 44). -/
def State.frameCheck (s : State) (key : Nat) (f : Frame) (pr : Bool) : Option Nat :=
  let taken := fun (w : Nat) => mget s.fab.claims 0 w != 0 && mget s.fab.claims 0 w != key + 1
  let old := (mget s.fab.frames Frame.init key).claims
  let free := fun (c : MemCfg) =>
    s.designMem c && ((c.a.wrEn && !s.designPort c.mem c.a) || (c.b.wrEn && !s.designPort c.mem c.b))
  if f.multiSel then some 0x10
  else if f.claims.any taken then some 0x11
  else if !pr && old.any (fun w => !decide (w ∈ f.claims) && taken w) then some 0x12
  else if f.items.any (fun i => match i with
    | .mem c => free c
    | _ => false) then some 0x13
  else none

/-- Write a frame into configuration memory and the mirror, with its claims (R74, R180). -/
def State.setFrame (s : State) (key : Nat) (f : Frame) : State :=
  let kept := s.fab.claims.filter (fun e => e.2 != key + 1)
  (s.setFab { s.fab with
    frames := mset s.fab.frames Frame.init key f
    claims := f.claims.foldl (fun m w => mset m 0 w (key + 1)) kept }).storePut (mirrorAddr key) 640 f.data

/-- Write frames of bay `k` one by one, by index and data; the first that is rejected ends the load (R198). -/
def writeFrames (k : Nat) (pr : Bool) : List (Nat × Nat) → State → State × Bool
  | [], s => (s, true)
  | (i, d) :: t, s =>
    match s.frameCheck (4608 * k + i) (frameOf (4608 * k + i) d) pr with
    | some c => (s.cfgFail c k i, false)
    | none => writeFrames k pr t (s.setFrame (4608 * k + i) (frameOf (4608 * k + i) d))

/-- A bay's boundary declarations take the frames loaded (R85, R89): USED of its words, and the regions with bay b0. -/
def State.bayDeclare (s : State) (k : Nat) : State :=
  let l := (s.items.filter (fun e => e.1 == k)).map (·.2)
  let used := l.filterMap (fun i => match i with
    | .bndUsed w out => some (if out then 8192 + w else w)
    | _ => none)
  let kept := s.fab.used.filter (fun e => e.1 % 8192 / 64 != k)
  let s1 := s.setFab { s.fab with used := used.foldl (fun m w => mset m false w true) kept }
  if k % 8 = 0 then
    let n := k / 8
    let regs := l.flatMap (fun i => match i with
      | .region i b g en => if i < 16 then
          [(32 * n + 2 * i, BitVec.ofNat 32 (b * 4096)), (32 * n + 2 * i + 1, BitVec.ofNat 32 (b2n en * 2 ^ 31 + g % 32))] else []
      | _ => [])
    s1.setFab { s1.fab with
      region := regs.foldl (fun m e => mset m 0#32 e.1 e.2) (s1.fab.region.filter (fun e => e.1 / 32 != n)) }
  else s1

/-! ### Firmware -/

/-- `n` memory words of a firmware section from word `lo` on, as a core's memory holds them. -/
def fwTable (plain lo n : Nat) : List (Nat × BitVec 39) :=
  (List.range n).filterMap (fun i =>
    let v := BitVec.ofNat 39 (encode32 (wordAt plain (4 * (lo + i))) false)
    if v = 0 then none else some (i, v))

/-- The core that a firmware section names. -/
def Sec.core (x : Sec) : Nat := if x.ty = 1 then 16 else x.target

/-- The three memories of a core take a firmware section (R176). -/
def State.fwWrite (s : State) (x : Sec) (plain : Nat) : State :=
  s.setCore x.core { s.coreOf x.core with pm := fwTable plain 0 16384, xm := fwTable plain 16384 8192, ym := fwTable plain 24576 8192 }

/-- A FIRMWARE load applies a section (R206): core reset, the memories, release. -/
def State.fwApply (s : State) (x : Sec) (plain : Nat) : State :=
  let c := x.core
  let s1 := (s.put (ST_CTRL_RESET c) 1).coreReset c 5 false
  (s1.fwWrite x plain).coreRelease c

/-! ### Start-up and the end of a FULL load -/

/-- Step 1 of the start-up (R188): initial values. -/
def State.startUp (s : State) : State :=
  let s1 := s.setFab { s.fab with
    ff := (s.cells.flatMap (fun c => [(2 * c.cell, c.ffa.init), (2 * c.cell + 1, c.ffb.init)])).foldl
      (fun m e => mset m false e.1 e.2) [] }
  ((s1.setCfg { s1.cfg with startStep := 1 }).put CFG_STAT_BUSY 1).put CFG_STAT_PHASE 5

/-- Step 8 of R182: the boot ROM enters core reset, by SELF_RESET, and leaves it executing the loaded STW firmware. -/
def State.bootDone (s : State) : State := if s.bootAt 3 then (s.setCfg { s.cfg with boot := 0 }).coreReset 16 1 true else s

/-- A FULL load has applied everything (R182, R187, R201); it ends PARTIAL of a Reel-in (R355). -/
def State.fullDone (s : State) (l : Load) : State :=
  let s1 := s.setCfg { s.cfg with
    design := imgDesign (l.head.getD 0), loaded := true, failed := false, scrubFrame := 0, skipped := [], scrubBack := none, load := none }
  let s2 := (((s1.put CFG_STORE_CTRL_GOLDEN_OK 1).put CFG_STORE_CTRL_MIRROR_OK 1).put CFG_SCRUB_STAT_PAUSED 0).put CFG_SCRUB_STAT_BAY 0
  let s3 := s2.when (s2.f TAIL_REEL_STAT_STATE == 4) (fun t => t.put TAIL_REEL_STAT_STATE 0)
  (if s3.cfg.autoStart then s3.startUp else s3.cfgDone).bootDone

/-! ### The sections of a FULL load -/

/-- A section of a FULL load is taken up: a bay or table section waits for its records, whose table ones are all checked first (R177). -/
def State.secBegin (s : State) (l : Load) (x : Sec) (plain : Nat) : State :=
  if 0x20 ≤ x.ty ∧ !tabSecOk x plain then s.cfgFail 0x0B 0 0
  else (s.setCfg { s.cfg with load := some { l with cur := some ⟨x, plain, 0, [], []⟩ } }).put CFG_STAT_PHASE (if x.ty = 0x10 then 3 else 6)

/-- A FULL load takes up its next section (R187): firmware is applied at once, and the load goes on (true); a bay or table section waits
for its records. -/
def State.loadOne (s : State) : State × Bool :=
  match s.cfg.load with
  | none => (s, false)
  | some l =>
    if l.cur.isSome then (s, false)
    else match l.todo with
    | [] => (if l.readback.isNone then s.fullDone l else s, false)
    | (x, _) :: t =>
      let h := l.head.getD 0
      match s.loadFetch l x.off x.slen with
      | (u, .wait) => (u, false)
      | (u, .fail c) => (u.cfgFail c 0 0, false)
      | (u, .data v) =>
        match u.secsCheck h [(x, v)] with
        | some c => (u.cfgFail c 0 0, false)
        | none =>
          let l1 := { l with todo := t }
          let s1 := u.put CFG_STAT_SECT x.index
          if x.ty < 0x10 then ((s1.fwWrite x (s1.clear h x v)).setCfg { s1.cfg with load := some l1 }, true)
          else (s1.secBegin l1 x (s1.clear h x v), false)

/-- The load in progress takes up its next sections, up to the first that waits; an image has at most 160. -/
def State.loadGo (s : State) : State := ((List.range 161).foldl (fun x _ => if x.2 then x.1.loadOne else x) (s, true)).1

/-! ### Repair (R205) -/

/-- The frame of the mirror; none when its read is poisoned. -/
def State.mirrorGet (s : State) (key : Nat) : State × Option Nat := s.storeGet (mirrorAddr key) 640

/-- The slot of the store that holds image number `id`, checked: OP of its images. -/
def State.storedAs (s : State) (id : Nat) : Option Nat :=
  if id = 0 then none
  else if s.cfg.goldenId = id ∧ s.on CFG_STORE_CTRL_GOLDEN_OK then some 0
  else if s.cfg.stagingId = id ∧ s.on CFG_STORE_CTRL_STAGING_OK then some 1
  else none

/-- A frame rebuilt from the bay section of the image that last loaded its bay, which is checked again (R205); none when the image is no
longer stored or fails. -/
def State.rebuildFrame (s : State) (key : Nat) : State × Option Nat :=
  let k := key / 4608
  match s.storedAs (mget s.cfg.bayImage 0 k) with
  | none => (s, none)
  | some op =>
    match s.storeGet (storeBase op) headSize with
    | (t, none) => (t, none)
    | (t, some h) =>
      match (imgSecs h).find? (fun x => x.ty == 0x10 && x.target == k) with
      | none => (t, none)
      | some x =>
        match t.storeGet (storeBase op + x.off) x.slen with
        | (u, none) => (u, none)
        | (u, some v) =>
          if (u.secsCheck h [(x, v)]).isNone then (u, some (bayFrame (u.clear h x v) x.slen (key % 4608) (x.slen / 4 + 1) 0)) else (u, none)

/-- The intended data of a frame: the mirror's, or rebuilt. -/
def State.frameAgain (s : State) (key : Nat) : State × Option Nat :=
  match s.mirrorGet key with
  | (t, some d) => (t, some d)
  | (t, none) => t.rebuildFrame key

end Sys2Proof.Machine
end

