-- ==== Sys2Proof/Machine/Config.lean ====
section
/-! DEFINITION. Sys2Proof/Machine/Config.lean: the commands of the configuration engine (file 05), but for the WRITE record. -/

namespace Sys2Proof.Machine

/-! ### Loads -/

/-- The debugger may shift image words in (R545). -/
def State.scanSource (s : State) : Bool := s.secState == 0 || (s.secState == 1 && (s.f SEC_AUTH_STAT_PERMS).testBit 2)

/-- CFG_SRC_ADDR. -/
def State.srcAddr (s : State) : Nat := (s.reg CFG_SRC_ADDR_LO).toNat + 2 ^ 32 * (s.reg CFG_SRC_ADDR_HI).toNat

/-- The bytes that a load takes from what its source holds (R184), from ADDR on: their number and the bytes. The host is asked for LEN of
them. The scan port gives the words of its buffer after those it gave before. -/
def State.sourceBytes (s : State) (l : Load) (img : Image) : Nat × Nat :=
  if l.src = 2 then
    (l.size + 4 * s.scan.buf.length, l.data + ofBytes (s.scan.buf.flatMap (fun w => toBytes 4 w.toNat)) * 2 ^ (8 * l.size))
  else
    let a := s.srcAddr - img.base
    let n := if s.srcAddr < img.base then 0 else img.size - a
    let m := if l.src = 1 then min n (s.reg CFG_SRC_LEN).toNat else n
    (m, bytesAt img.data a m)

/-- A register write of GO has begun a load of `op` from `src`, and it waits for its image, or for more of it. -/
def State.loadWaits (s : State) (op src : Nat) : Bool :=
  s.cfg.load.any (fun l => l.op == op && l.src == src && l.reads && (l.src == 2 || l.size == 0))

/-- What has come of the image streams into its slot (R178, R187): up to LENGTH, once the header is there, and no further than the slot. -/
def State.streamIn (s : State) (l : Load) : State :=
  if l.src = 3 then s
  else
    let n := if headSize ≤ l.size then min l.size (imgLength l.data) else l.size
    s.storePut (storeBase l.op) (min n (slotSize l.op)) l.data

/-- The image in the staging slot has passed its checks. -/
def State.stagingOk (s : State) : State := s.put CFG_STORE_CTRL_STAGING_OK 1

/-- A held bay enters LOADING (R76, R193). -/
def State.bayLoading (s : State) (k : Nat) : State :=
  if k ∈ s.fab.held ∧ s.bayState k ≠ 3 then (s.claimsFree k).setBay k 3 else s

/-- The bay of a PARTIAL load may be loaded (R193 step 2): a freeze of it is armed or in effect. -/
def State.bayFrozen (s : State) (k : Nat) : Bool := decide (k ∈ s.fab.held) || s.cfg.arm.any (fun a => a.bay == k)

/-- A checked PARTIAL image (R193 step 2): its bay must be that of CFG_PR_CTRL, with its freeze armed or in effect. -/
def State.partialGo (s : State) (l : Load) (x : Sec) (plain : Nat) : State :=
  let s1 := s.stagingOk
  if x.target = l.bay ∧ s1.bayFrozen l.bay ∧ s1.on CFG_STAT_STARTED then
    (((s1.setCfg { s1.cfg with load := some { l with todo := [], cur := some ⟨x, plain, 0, [], []⟩ } }).put CFG_STAT_PHASE 3).put CFG_STAT_SECT
      x.index).bayLoading l.bay
  else s1.cfgFail 0x0C 0 0

/-- The next section of a TABLES load, or its end. -/
def State.tablesNext (s : State) (l : Load) : State :=
  match l.todo with
  | [] => s.cfgDone
  | (x, v) :: t =>
    let cur : Sect := ⟨x, v.getD 0, 0, [], []⟩
    ((s.setCfg { s.cfg with load := some { l with todo := t, cur := some cur } }).put CFG_STAT_PHASE 6).put CFG_STAT_SECT x.index

/-- A checked TABLES image (R177, R207): every record is checked; clock settings and lattice tables only while the rounds are stopped. -/
def State.tablesGo (s : State) (l : Load) (secs : List (Sec × Nat)) : State :=
  if !secs.all (fun x => tabSecOk x.1 x.2) then s.cfgFail 0x0B 0 0
  else
    let s1 := s.stagingOk
    if !s1.stopped && secs.any (fun x => x.1.ty == 0x20 || x.1.ty == 0x22) then s1.cfgFail 0x0C 0 0
    else s1.tablesNext { l with todo := secs.map (fun x => (x.1, some x.2)) }

/-- A PARTIAL, FIRMWARE or TABLES image whose header is good (R173 steps 5 and 6, R198): every section is checked before any is used. -/
def State.loadSecs (s : State) (l : Load) (h : Nat) : State :=
  if l.src = 2 ∧ l.size < imgLength h then s
  else
    let r := fetchAll l (secOrder (imgSecs h)) [] s
    match r.2.2 with
    | some (.fail c) => r.1.cfgFail c 0 0
    | some _ => r.1
    | none =>
      match r.1.secsCheck h r.2.1 with
      | some c => r.1.cfgFail c 0 0
      | none =>
        let plain := r.2.1.map (fun x => (x.1, r.1.clear h x.1 x.2))
        let l1 := { l with head := some h }
        match l.op with
        | 1 => match plain with
          | x :: _ => r.1.partialGo l1 x.1 x.2
          | [] => r.1
        | 2 => (r.1.stagingOk.each plain (fun x u => u.fwApply x.1 x.2)).cfgDone
        | _ => r.1.tablesGo l1 plain

/-- A load goes on with what its source has given (R173, R184, R187). -/
def State.loadTake (s : State) (l : Load) : State :=
  let s1 := s.streamIn l
  if l.head.isSome then s1.loadGo
  else
    match s1.loadFetch l 0 headSize with
    | (t, .wait) => t
    | (t, .fail c) => t.cfgFail c 0 0
    | (t, .data h) =>
      match t.headCheck l.op l.src h with
      | some c => t.cfgFail c 0 0
      | none =>
        if l.op = 0 then
          ((t.setCfg { t.cfg with load := some { l with head := some h, todo := (secOrder (imgSecs h)).map (fun x => (x, none)) } }).put
            CFG_STAT_PHASE 2).loadGo
        else t.loadSecs l h

/-- The port of the Gondola serves a configuration load (R570): no transfer and no export or import runs. -/
def State.gdlServes (s : State) : Bool := s.tail.xfer.isNone && s.pin.gdl.isEmpty

/-- The load in progress takes what its source holds. A store slot without a checked image, or a Gondola that is not there, ends it with
SOURCE_LOST (R184; log entry 45); a load waits while the Gondola's port serves another (R570), and until the device is Aloft (R525). -/
def State.loadFeed (s : State) (img : Image) : State :=
  match s.cfg.load with
  | none => s
  | some l =>
    if s.power ≠ 0 then s
    else if l.src = 3 ∧ !s.on (if l.op = 0 then CFG_STORE_CTRL_GOLDEN_OK else CFG_STORE_CTRL_STAGING_OK) then s.cfgFail 0x08 0 0
    else if l.src = 0 ∧ !s.on GDL_STAT_PRESENT then s.cfgFail 0x08 0 0
    else if l.src = 0 ∧ !s.gdlServes then s
    else if l.src = 2 ∧ !s.scanSource then s
    else
      let r := s.sourceBytes l img
      let l1 := { l with size := r.1, data := r.2 }
      let s1 := s.setCfg { s.cfg with load := some l1 }
      (if l.src = 2 then s1.setScan { s1.scan with buf := [] } else s1).loadTake l1

/-- A load command: the load begins, unless a register write of GO has begun it, and takes its image. -/
def State.loadStart (s : State) (op src : Nat) (auto : Bool) (img : Image) : State :=
  if s.loadWaits op src then s.loadFeed img
  else
    let r := s.loadGoes op src auto
    if r.2 then r.1.loadFeed img else r.1

/-- FULL_LOAD (R185, R187): GO with OP FULL, SRC and AUTO_START, or what its source gives a load that has begun; `img`: what the source
holds. -/
def execFullLoad (src : Nat) (auto : Bool) (img : Image) (s : State) : Out := .next (s.loadStart 0 (src % 4) auto img).settle

/-- PARTIAL_LOAD (R193): GO with OP PARTIAL and SRC. -/
def execPartialLoad (src : Nat) (img : Image) (s : State) : Out := .next (s.loadStart 1 (src % 4) false img).settle

/-- FIRMWARE_LOAD (R206): GO with OP FIRMWARE and SRC. -/
def execFirmwareLoad (src : Nat) (img : Image) (s : State) : Out := .next (s.loadStart 2 (src % 4) false img).settle

/-- TABLES_LOAD (R207): GO with OP TABLES and SRC. -/
def execTablesLoad (src : Nat) (img : Image) (s : State) : Out := .next (s.loadStart 3 (src % 4) false img).settle

/-- The bay of `CFG_PR_CTRL` reaches LOADED: its release is pending, by the one that its freeze named or, after a failed load, by
REL_MODE as it stands. -/
def State.bayLoaded (s : State) (k : Nat) : State :=
  let s1 := s.setBay k 4
  let a : Arm := ⟨2, k, 0, s1.on CFG_PR_CTRL_REL_MODE, s1.f CFG_PR_RELEASE_LO_ROUND_LO + 2 ^ 32 * s1.f CFG_PR_RELEASE_HI_ROUND_HI⟩
  s1.setCfg { s1.cfg with rel := some (s1.cfg.rel.getD a), relLate := s1.latState == 6 }

/-- The CRC of the frames of bay `k` (R170). -/
def State.bayCrc (s : State) (k : Nat) : Nat :=
  crcFrames ((List.range 4608).map (fun i => (mget s.fab.frames Frame.init (4608 * k + i)).data))

/-- The CRC of the frames of bay `k` as they were written, which the engine computes while writing (R187). -/
def State.meantCrc (s : State) (k : Nat) : Nat :=
  crcFrames ((List.range 4608).map (fun i => (mget s.fab.frames Frame.init (4608 * k + i)).meant))

/-- Upsets flip bits of frames in configuration memory: pairs of a frame's key and the bits of its code word. -/
def State.frameUpsets (s : State) (up : List (Nat × Nat)) : State :=
  s.each up (fun e t =>
    let key := e.1 % 589824
    t.setFab { t.fab with frames := mset t.fab.frames Frame.init key ((mget t.fab.frames Frame.init key).upset key e.2) })

/-- Every frame and memory of bay `k` is written with zeros, and the bay is LOADED (R195). -/
def State.blankBay (s : State) (k : Nat) : State :=
  let s1 := (s.claimsFree k).setFab { (s.claimsFree k).fab with
    frames := s.fab.frames.filter (fun e => e.1 / 4608 != k), rows := s.fab.rows.filter (fun e => e.1 / 512 / 128 != k) }
  let s2 := (s1.storePut (mirrorAddr (4608 * k)) (4608 * 640) 0).bayDeclare k
  let s3 := (s2.setCfg { s2.cfg with bayImage := mset s2.cfg.bayImage 0 k 0 }).bayLoaded k
  ((s3.put (CFG_BAY_CRC_CRC k) (s3.bayCrc k)).put (CFG_BAY_STAT_CE_COUNT k) 0).cfgDone

/-- BLANK (R195) of the bay of CFG_PR_CTRL; below Aloft it waits and wakes the device (R525). -/
def execBlank (s : State) : Out :=
  .next <|
    let k := s.f CFG_PR_CTRL_BAY
    match s.loadRefused 4 with
    | some c => s.cfgRefuse c
    | none =>
      if k ∈ s.fab.held then
        if s.power = 0 then s.blankBay k else ((s.setCfg { s.cfg with blankDue := some k }).put CFG_STAT_BUSY 1).settle
      else s.cfgRefuse 0x0C

/-- CFG_START (R188). -/
def execCfgStart (s : State) : Out :=
  .next <|
    if s.on CFG_STAT_BUSY || s.on CFG_STAT_STARTED || s.cfg.failed then s.cfgRefuse 0x0C
    else s.startUp.settle

/-- START_UP_STEP (R188): the next edge of the start-up: clocks, release of the hold, outputs, STARTED. Below Aloft it waits (R525). -/
def execStartUpStep (s : State) : Out :=
  .next <|
    match (if s.power = 0 then s.cfg.startStep else 0) with
    | 1 => (s.setFab { s.fab with gatesOpen := true }).setCfg { s.cfg with startStep := 2 }
    | 2 => (s.setFab { s.fab with hold := false }).setCfg { s.cfg with startStep := 3 }
    | 3 => (((s.setFab { s.fab with outputsOn := true }).setCfg { s.cfg with startStep := 4 }).tetSend0).tetSend1 (.cfg none)
    | 4 => ((s.setCfg { s.cfg with everStarted := true }).put CFG_STAT_STARTED 1).cfgDone
    | _ => s

/-- CFG_ABORT (R195). -/
def execCfgAbort (s : State) : Out := .next (s.cfgStop 0x0F)

/-- SOURCE_TIMEOUT (R184): the source of a load that still reads its image has given no byte for 100 ms. -/
def execSourceTimeout (s : State) : Out :=
  .next <|
    match s.cfg.load with
    | some l => if l.reads then s.cfgFail 0x09 0 0 else s
    | none => s

/-! ### Records of a bay section -/

/-- The bay section in progress: the load and the section, when a record can be taken (R190, R193, R199, R513). -/
def State.bayLoad (s : State) : Option (Load × Sect) :=
  match s.cfg.load with
  | some l =>
    match l.cur with
    | some x =>
      if x.sec.ty = 0x10 ∧ s.f CFG_STAT_PHASE = 3 ∧ !s.cfg.rebuilding ∧ !s.clamped ∧ (l.op = 0 ∨ x.sec.target ∈ s.fab.held) then
        some (l, x) else none
    | none => none
  | none => none

/-- The next record of the bay section in progress (R175): one of OP `op` is handled by `f`, one that breaks R175 ends the load with RECORD,
and any other stays. -/
def State.onRecord (s : State) (op : Nat) (f : Load → Sect → Rec → State → State) : State :=
  match s.bayLoad with
  | none => s
  | some (l, x) =>
    match bayRec x.plain x.sec.slen x.pos with
    | none => s.cfgFail 0x0B x.sec.target (recFrame x.plain x.sec.slen x.pos)
    | some r => if r.op = op then f l x r (if l.op = 1 then s.bayLoading x.sec.target else s) else s

/-- The section in progress has come past a record, with what it named. -/
def State.recDone (s : State) (l : Load) (x : Sect) (r : Rec) (frames mems : List Nat) : State :=
  s.setCfg { s.cfg with load := some { l with cur := some { x with pos := r.data + r.size, frames := x.frames ++ frames, mems := x.mems ++ mems } } }

/-- The record names frames FIRST to FIRST + COUNT - 1, all new (R175). -/
def framesNew (x : Sect) (r : Rec) : Bool :=
  decide (r.first + r.count ≤ 4608) && !x.frames.any (fun i => decide (r.first ≤ i ∧ i < r.first + r.count))

/-- The record names memories FIRST to FIRST + COUNT - 1, all new (R175). -/
def memsNew (x : Sect) (r : Rec) : Bool :=
  decide (r.first + r.count ≤ 128) && !x.mems.any (fun i => decide (r.first ≤ i ∧ i < r.first + r.count))

/-- FIRST to FIRST + COUNT - 1. -/
def Rec.named (r : Rec) : List Nat := (List.range r.count).map (fun i => r.first + i)

/-- A frame record (R175): each frame it names takes its data. -/
def State.framesRecord (s : State) (op : Nat) : State :=
  s.onRecord op (fun l x r t =>
    let k := x.sec.target
    if framesNew x r then
      (writeFrames k (l.op == 1) (r.named.map (fun i => (i, (r.frame x.plain i).getD 0))) (t.recDone l x r r.named [])).1
    else t.cfgFail 0x0B k r.first)

/-- FRAMES (R175). -/
def execFramesRecord (s : State) : Out := .next (s.framesRecord 1).settle

/-- REPEAT (R175). -/
def execRepeatRecord (s : State) : Out := .next (s.framesRecord 2).settle

/-- ZERO (R175). -/
def execZeroRecord (s : State) : Out := .next (s.framesRecord 3).settle

/-- Memories of a bay that a capture still has to copy (R113, R193 step 4). -/
def State.memBusy (s : State) (k first count : Nat) : Bool :=
  (List.range count).any (fun i => !(s.uncopied (128 * k + first + i)).isEmpty)

/-- One row of contents as the engine writes it (R175): with ECC the check byte is computed, but for the poison pattern. -/
def rowContent (ecc : Bool) (v : Nat) : Nat :=
  if ecc then (match decode64 (v % 2 ^ 72) with
    | .poison _ => v % 2 ^ 72
    | _ => encode64 (v % 2 ^ 64) false)
  else v % 2 ^ 72

/-- A memory takes its contents: 512 rows. -/
def State.setContent (s : State) (m : Nat) (rows : List Nat) : State :=
  let ecc := (s.memCfg m).any (fun c => c.ecc)
  let kept := s.fab.rows.filter (fun e => e.1 / 512 != m)
  s.setFab { s.fab with
    rows := (rows.take 512).zipIdx.foldl (fun t e => mset t 0 (512 * m + e.2) (BitVec.ofNat 72 (rowContent ecc e.1))) kept }

/-- A memory record (R175): each memory it names takes its rows. -/
def State.contentRecord (s : State) (op : Nat) : State :=
  s.onRecord op (fun l x r t =>
    let k := x.sec.target
    if !memsNew x r then t.cfgFail 0x0B k 0
    else if l.op = 1 ∧ s.memBusy k r.first r.count then s
    else
      (t.each (List.range r.count) (fun i u => u.setContent (128 * k + r.first + i) (if op = 4 then r.rows x.plain i else []))).recDone l x r [] r.named)

/-- CONTENT (R175). -/
def execContentRecord (s : State) : Out := .next (s.contentRecord 4).settle

/-- CONTENT_ZERO (R175). -/
def execContentZeroRecord (s : State) : Out := .next (s.contentRecord 5).settle

/-- FENCE_RECORD (R35, R175): a fence on source 20; while 16 fences are pending the record waits. -/
def execFenceRecord (s : State) : Out :=
  .next (s.onRecord 6 (fun l x r t =>
    match t.issueFence 20 with
    | (u, some _) => u.recDone l x r [] []
    | (_, none) => s)).settle

/-- The end of a bay section (R175, R187): what no record named is written with zeros; the readback is due. -/
def State.bayEnd (s : State) (l : Load) (x : Sect) : State :=
  let k := x.sec.target
  let due := ((List.range 4608).filter (fun i => !decide (i ∈ x.frames))).map (fun i => (i, 0))
  let r := writeFrames k (l.op == 1) due s
  if r.2 then
    let s1 := r.1.setFab { r.1.fab with
      rows := r.1.fab.rows.filter (fun e => e.1 / 512 / 128 != k || decide (e.1 / 512 % 128 ∈ x.mems)) }
    let s2 := (s1.bayDeclare k).setCfg { s1.cfg with load := some { l with cur := none, readback := some k } }
    if l.op = 0 then s2.loadGo else s2.put CFG_STAT_PHASE 4
  else r.1

/-! ### Records of a table section -/

/-- The table section in progress: the load and the section, when a record can be taken. Clock settings and lattice tables of a TABLES load
wait while rounds run that began after its checks (R207; log entry 45). -/
def State.tableLoad (s : State) : Option (Load × Sect) :=
  match s.cfg.load with
  | some l =>
    match l.cur with
    | some x =>
      if 0x20 ≤ x.sec.ty ∧ s.f CFG_STAT_PHASE = 6 ∧ (l.op = 0 ∨ s.stopped ∨ (x.sec.ty ≠ 0x20 ∧ x.sec.ty ≠ 0x22)) then some (l, x)
      else none
    | none => none
  | none => none

/-- The end of a table section (R177, R246): a TABLES load with a Caller section asks for a swap; the next section, or the end. -/
def State.tableEnd (s : State) (l : Load) (x : Sect) : State :=
  let mode := s.f CALLER_SWAP_MODE
  let s1 := if l.op = 3 ∧ x.sec.ty = 0x21 then (s.swapRequest (if s.stopped then 2 else 1)).put CALLER_SWAP_MODE mode else s
  let l1 := { l with cur := none }
  if l.op = 0 then (s1.setCfg { s1.cfg with load := some l1 }).loadGo else s1.tablesNext l1

/-- END (R175, R177). -/
def execEndRecord (s : State) : Out :=
  .next <| State.settle <|
    match s.tableLoad with
    | some (l, x) => if tabIsEnd x.plain x.pos then s.tableEnd l x else s
    | none =>
      s.onRecord 15 (fun l x _ t =>
        if l.readback.isSome then s
        else if l.op = 1 ∧ s.memBusy x.sec.target 0 128 then s
        else t.bayEnd l x)

/-- BAY_READBACK (R187, R193): the bay last written is read back, in which upsets have flipped the bits `up` since (frame index and mask);
its CRC is compared with the one computed while writing. -/
def execBayReadback (up : List (Nat × Nat)) (s : State) : Out :=
  .next <| State.settle <|
    match s.cfg.load with
    | none => s
    | some l =>
      match l.readback with
      | none => s
      | some k =>
        let s0 := s.frameUpsets (up.map (fun e => (4608 * k + e.1 % 4608, e.2)))
        if s0.bayCrc k ≠ s0.meantCrc k then s0.cfgFail 0x14 k 0
        else
          let s1 := (s0.put (CFG_BAY_CRC_CRC k) (s0.bayCrc k)).put (CFG_BAY_STAT_CE_COUNT k) 0
          let s2 := s1.setCfg { s1.cfg with load := some { l with readback := none }, bayImage := mset s1.cfg.bayImage 0 k l.id }
          if l.op = 0 then
            let s3 := (s2.setBay k 1).mapNeeds k
            if l.todo.isEmpty && l.cur.isNone then s3.loadGo else s3
          else (s2.bayLoaded k).cfgDone

/-! ### Arming and cancelling -/

/-- The cause for which an ARM is refused (R189, R194, R196). -/
def State.armRefused (s : State) (mode : Nat) (relFirst : Bool) : Option Nat :=
  let now := s.round.toNat
  let freeze := s.f CFG_PR_FREEZE_LO_ROUND_LO + 2 ^ 32 * s.f CFG_PR_FREEZE_HI_ROUND_HI
  let rel := s.f CFG_PR_RELEASE_LO_ROUND_LO + 2 ^ 32 * s.f CFG_PR_RELEASE_HI_ROUND_HI
  let last := match mode with
    | 0 => freeze
    | 1 => now + 2
    | _ => now
  if mode = 3 ∨ !s.on CFG_STAT_STARTED ∨ s.cfg.arm.isSome ∨ !(List.range 128).all (fun k => s.bayState k == bayRun) ∨
      (mode = 2 ∧ !s.stopped) ∨ (relFirst = false ∧ rel ≤ last) then some 0x0C
  else if mode = 0 ∧ (freeze ≤ now ∨ (s.latState = 6 ∧ freeze = now + 1)) then some 0x0D
  else none

/-- A write of ARM with MODE, REL_MODE and BAY. -/
def State.prArm (s0 : State) (mode : Nat) (relFirst : Bool) (bay : Nat) : State :=
  let s := ((s0.put CFG_PR_CTRL_MODE mode).put CFG_PR_CTRL_REL_MODE (b2n relFirst)).put CFG_PR_CTRL_BAY bay
  match s.armRefused mode relFirst with
  | some c => s.cfgRefuse c
  | none =>
    let freeze := s.f CFG_PR_FREEZE_LO_ROUND_LO + 2 ^ 32 * s.f CFG_PR_FREEZE_HI_ROUND_HI
    let rel := s.f CFG_PR_RELEASE_LO_ROUND_LO + 2 ^ 32 * s.f CFG_PR_RELEASE_HI_ROUND_HI
    let a : Arm := ⟨mode, bay, if mode = 1 then b2n (s.latState == 6) else freeze, relFirst, rel⟩
    let s1 := (s.setCfg { s.cfg with arm := some a }).put CFG_PR_CTRL_ARMED 1
    if mode = 2 then s1.bayFreeze a (s1.freezeValues bay) else s1

/-- PR_ARM (R189). -/
def execPrArm (mode : Nat) (relFirst : Bool) (bay : Nat) (s : State) : Out := .next (s.prArm (mode % 4) relFirst (bay % 128))

/-- A write of CANCEL (R195). -/
def State.prCancel (s : State) : State :=
  let loading := s.cfg.load.any (fun l => l.op == 1)
  if loading then s.cfgStop 0x0F else if s.cfg.arm.isSome then s.disarm else s

/-- PR_CANCEL (R195). -/
def execPrCancel (s : State) : Out := .next s.prCancel

/-! ### Claim map and scrubber -/

/-- CLAIM_MAP_REBUILD (R199): an entry of the claim map is uncorrectable. -/
def execClaimMapRebuild (s : State) : Out :=
  .next (((s.raise 142).leafEvent 522 true 0).setCfg { ((s.raise 142).leafEvent 522 true 0).cfg with rebuilding := true })

/-- A frame of the mirror holds its claims: not one of a bay that is frozen, nor one that a load has yet to rewrite. -/
def State.claimsOf (s : State) (key : Nat) : Bool :=
  match s.bayState (key / 4608) with
  | 2 => false
  | 3 => s.cfg.load.any (fun l => l.cur.any (fun x => decide (key % 4608 ∈ x.frames)))
  | 5 => s.fab.claims.any (fun e => e.2 == key + 1)
  | _ => true

/-- The frames whose mirror lies in a line that HBM holds: the others have no claim. -/
def State.mirrorKeys (s : State) : List Nat :=
  (s.hbm.words.filterMap (fun e =>
    let a := 8 * e.1
    if 0x001660000000 ≤ a ∧ a < mirrorAddr 589824 then some ((a - 0x001660000000) / 640) else none)).eraseDups

/-- The claims of the frames of a list, read from the mirror; those of a frame that can be had neither from it nor from its image are
the ones that configuration memory holds (log entry 45). -/
def claimsRead : List Nat → List (Nat × Nat) → State → State × List (Nat × Nat)
  | [], m, s => (s, m)
  | key :: t, m, s =>
    let r := s.frameAgain key
    let f := match r.2 with
      | some d => frameOf key d
      | none => mget s.fab.frames Frame.init key
    claimsRead t (f.claims.foldl (fun m w => mset m 0 w (key + 1)) m) r.1

/-- CLAIM_MAP_REBUILD_DONE (R199). -/
def execClaimMapRebuildDone (s : State) : Out :=
  .next <|
    if s.cfg.rebuilding then
      let r := claimsRead (s.mirrorKeys.filter s.claimsOf) [] s
      (r.1.setFab { r.1.fab with claims := r.2 }).setCfg { r.1.cfg with rebuilding := false }
    else s

/-- The scrubber runs (R200, R201, R513). -/
def State.scrubOn (s : State) : Bool :=
  s.on CFG_SCRUB_CTRL_EN && s.on CFG_STAT_STARTED && decide (s.power < 2) && !s.clamped && !s.cfg.load.any (fun l => l.op == 0)

/-- The first bay in RUN from bay `k` on, within `n` bays; and the bays passed over. -/
def scrubSeek (s : State) : Nat → Nat → List Nat → Option Nat × List Nat
  | 0, _, l => (none, l)
  | n + 1, k, l => if s.bayState (k % 128) = bayRun then (some k, l) else scrubSeek s n (k + 1) (ladd l (k % 128))

/-- The scrubber's place before its read (R200, R201): a skipped bay that is in RUN again comes next. -/
def State.scrubPlace (s : State) : State :=
  let c := s.cfg
  match c.skipped.find? (fun k => s.bayState k == bayRun), c.scrubBack with
  | some k, none =>
    s.setCfg { c with skipped := ldel c.skipped k, scrubBack := some (c.scrubFrame / 4608, c.scrubFrame % 4608), scrubFrame := 4608 * k }
  | _, _ =>
    if s.bayState (c.scrubFrame / 4608) = bayRun then s
    else
      let r := scrubSeek s 128 (c.scrubFrame / 4608) c.skipped
      match r.1 with
      | none => s.setCfg { c with skipped := r.2 }
      | some k =>
        let s1 := s.setCfg { c with skipped := r.2, scrubFrame := 4608 * (k % 128) }
        if 128 ≤ k then s1.addF CFG_SCRUB_STAT_PASS 1 else s1

/-- A frame is rewritten from the mirror, or rebuilt from the image that last loaded its bay (R203, R205): whether it was. -/
def State.scrubRepair (s : State) (key : Nat) : State × Bool :=
  match s.frameAgain key with
  | (t, some d) => (t.setFab { t.fab with frames := mset t.fab.frames Frame.init key (frameOf key d) }, true)
  | (t, none) => (t.raise 141, false)

/-- Repair the frames of a list; whether all were. -/
def scrubRepairs : List Nat → State → State × Bool
  | [], s => (s, true)
  | k :: t, s =>
    let r := s.scrubRepair k
    let q := scrubRepairs t r.1
    (q.1, r.2 && q.2)

/-- A scrubber finding goes into CFG_SCRUB_LOG with the action of POLICY (R203, R204): `fix` repairs. -/
def State.scrubError (s : State) (kind bay frame : Nat) (fix : State → State × Bool) : State :=
  let pol := s.f CFG_SCRUB_CTRL_POLICY
  let first := !s.on CFG_SCRUB_LOG_VALID
  let s1 := ((s.log CFG_SCRUB_LOG_VALID CFG_SCRUB_LOG_OVF (fun t =>
    (((t.put CFG_SCRUB_LOG_KIND kind).put CFG_SCRUB_LOG_REPAIRED 0).put CFG_SCRUB_LOG_BAY bay).put CFG_SCRUB_LOG_FRAME frame)).put
      (CFG_BAY_STAT_SUSPECT bay) 1).raise 140
  if pol = 0 then s1
  else
    let r := fix s1
    let s2 := if r.2 && first then r.1.put CFG_SCRUB_LOG_REPAIRED 1 else r.1
    if pol = 2 then s2.stopNow else s2

/-- The scrubber goes on after bay `k`: to the bay that it left for a skipped one, or to the next bay, and a pass ends after bay 127. -/
def State.scrubMove (s : State) (k : Nat) : State :=
  match s.cfg.scrubBack with
  | some (b, i) => s.setCfg { s.cfg with scrubBack := none, scrubFrame := 4608 * b + i }
  | none =>
    (s.setCfg { s.cfg with scrubFrame := 4608 * (k + 1) % 589824 }).when (k == 127) (fun t => t.addF CFG_SCRUB_STAT_PASS 1)

/-- The end of a bay (R204, R201): the CRC; then the next place. -/
def State.scrubBayEnd (s : State) (k : Nat) : State :=
  (s.when (s.bayCrc k != s.f (CFG_BAY_CRC_CRC k)) (fun t =>
    t.scrubError 1 k 0 (scrubRepairs ((List.range 4608).map (fun i => 4608 * k + i))))).scrubMove k

/-- The decoder finds a single-bit error at bit `b` of frame `key`: the scrubber writes the frame back with that bit flipped (R202). -/
def State.scrubCorrect (s : State) (key b : Nat) : State :=
  let f := mget s.fab.frames Frame.init key
  let m := f.flip ^^^ 2 ^ (b % 5152)
  let g := if m = 0 then frameOf key f.meant else f.upset key (2 ^ (b % 5152))
  (((s.setFab { s.fab with frames := mset s.fab.frames Frame.init key g }).satF (CFG_BAY_STAT_CE_COUNT (key / 4608)) 1).raise 139).leafEvent
    (32 * (key / 4608 / 8) + 24) false key

/-- SCRUB_FRAME_READ (R200 to R205): `up` are the bits that upsets have flipped in frames of the device since the last read. The code
corrects one flipped bit and finds two; of more the rules say nothing, and `see` is what the decoder makes of them: 0 uncorrectable, 1
no error, b + 2 a single error at bit b. -/
def execScrubFrameRead (up : List (Nat × Nat)) (see : Nat) (s : State) : Out :=
  .next <|
    let s := s.frameUpsets up
    if !s.scrubOn then s
    else
      let s0 := s.scrubPlace
      let key := s0.cfg.scrubFrame
      let k := key / 4608
      if s0.bayState k ≠ bayRun then s0
      else
        let f := mget s0.fab.frames Frame.init key
        let n := bitCount 5152 f.flip
        let s1 := s0.put CFG_SCRUB_STAT_BAY k
        let s2 :=
          if n = 0 ∨ (2 < n ∧ see = 1) then s1
          else if n = 1 then s1.scrubCorrect key (Nat.log2 f.flip)
          else if 2 < n ∧ 2 ≤ see then s1.scrubCorrect key (see - 2)
          else (s1.leafEvent (32 * (k / 8) + 24) true key).scrubError 0 k (key % 4608) (fun t => t.scrubRepair key)
        if key % 4608 = 4607 then s2.scrubBayEnd k else s2.setCfg { s2.cfg with scrubFrame := key + 1 }

end Sys2Proof.Machine
end

