-- ==== Sys2Proof/Machine/CoreEvents.lean ====
section
/-! DEFINITION. Sys2Proof/Machine/CoreEvents.lean: what happens to a station core beside its instructions (file 12): interrupts (R458,
R459), the ends of its window accesses (R436, R455), timers and watchdog (R460 to R464), resets (R466), its register block, and the hub
semaphores (R453). -/

namespace Sys2Proof.Machine

/-! ### Interrupts -/

/-- The core may take an interrupt now (R459, R499); the interrupt stack has room (log entry 23). -/
def State.mayInterrupt (s : State) (c : Nat) : Bool :=
  let x := s.coreOf c
  decide (c < 17) && x.sr.testBit 4 && s.canIssue c && decide (x.ints.length < 3) &&
    (!x.stepping || s.on (DBG_CORE_CTRL_STEP_IRQ c))

/-- Core `c` enters the handler of input `j` (R459). -/
def State.interruptTo (s : State) (c j : Nat) : State :=
  let x := s.coreOf c
  let vb := x.ctlReg 28
  let sr := x.sr / 128 * 128 + s.f (ST_IRQ_CFG_PRIO c j) * 32 + x.sr % 32
  let y := { x.setCtl 0 sr with ints := (s.pcOf c, BitVec.ofNat 32 x.srRead) :: x.ints, resv := none, skipBp := false }
  (((s.setCore c y).clrPend c j).put (ST_STAT_STATE c) 1).setPc c
    ((bitsOf vb 15 10 * 2 ^ 10 + 4 * j) % 2 ^ 16 + bitsOf vb 16 16 * 2 ^ 16)

/-- INTERRUPT_ENTRY (R459). -/
def execInterruptEntry (c : Nat) (s : State) : Out :=
  .next <|
    match s.bestIrq c with
    | some j => if s.mayInterrupt c then s.interruptTo c j else s
    | none => s

/-- The inputs of core `c` that IRQ `i` reaches (R458). -/
def State.routedInputs (s : State) (c i : Nat) : List Nat :=
  (List.range 64).filter (fun j => decide (16 ≤ j) && s.on (ST_IRQ_CFG_ROUTE c j) && s.f (ST_IRQ_CFG_SEL c j) == i)

/-- IRQ_MSG (R380, R458): the oldest packet for core `c` and IRQ `i`, a single flit on VC3, arrives and is consumed; in reset it is
discarded, and so it is by a target port in ABSORB (R385). `fl`: what the routers find in it; one whose head is uncorrectable is lost
(R382). -/
def execIrqMsg (c i : Nat) (fl : Flit) (s : State) : Out :=
  .next <|
    if (c, i) ∈ s.mesh.irqMsgs then
      let s1 := (s.setMesh { s.mesh with irqMsgs := s.mesh.irqMsgs.erase (c, i) }).flitEvents fl
      if fl.hdr.isSome ∨ s1.coreSt c = 0 ∨ s1.on (MESH_TGT_STAT_STATE (corePort c)) then s1
      else s1.each (s1.routedInputs c i) (fun j t => t.setPend c j)
    else s

/-! ### Window accesses -/

/-- WINDOW_LOAD_RESPONSE (R436, R454): the response that a stalled core awaits; a gated core consumes it at restart (R469). -/
def execWindowLoadResponse (c : Nat) (s : State) : Out :=
  .next <|
    match (s.coreOf c).stall with
    | none => s
    | some st =>
      if s.coreClock c then
        match s.takeInbox (coreSrc c) (fun a => a.ref != 1) with
        | none => s
        | some (a, r, t) =>
          let u := t.setCore c { t.coreOf c with stall := none }
          u.retire c (u.pcOf c) st.fed (u.winFinish c st a r)
      else s

/-- POSTED_STORE_ERROR (R455): a posted store of core `c` has completed with a status other than OK. -/
def execPostedStoreError (c : Nat) (s : State) : Out :=
  .next <|
    match s.takeInbox (coreSrc c) (fun a => a.ref == 1) with
    | none => s
    | some (a, r, t) => t.busErr c a.addr r

/-! ### Timers and watchdog -/

/-- TIMER_ENABLE (R460): ST_TMR_CTRL(i) is written with `w`, which takes EN from 0 to 1. -/
def execTimerEnable (c i : Nat) (w : Word) (s : State) : Out :=
  .next <|
    if i < 2 ∧ fget w 31 31 = 1 ∧ s.f (ST_TMR_CTRL_EN c i) = 0 then s.toCore c (fun t => (t.coreBlockWrite c (0x100 + 16 * i) w).1) else s

/-- The execution clock of core `c` runs (R464, R496): not gated, not halted, not in reset. -/
def State.coreTicks (s : State) (c : Nat) : Bool := s.coreClock c && s.coreSt c != 3 && !s.on (ST_CTRL_RESET c)

/-- The next CORE edge of counter `k` of core `c` (0 and 1 the timers, 2 the watchdog) comes with a command, which `f` does; the edge itself
then passes that counter over. -/
def State.edgeEarly (s : State) (c k : Nat) (f : State → State) : State :=
  if k ∈ (s.coreOf c).early then s
  else
    let s1 := f s
    s1.setCore c { s1.coreOf c with early := k :: (s1.coreOf c).early }

/-- TIMER_EXPIRY (R460): the CORE edge at which CNT of timer `i` becomes 0. -/
def execTimerExpiry (c i : Nat) (s : State) : Out :=
  .next <|
    if s.coreTicks c && s.on (ST_TMR_CTRL_EN c i) && s.f (ST_TMR_CNT_CNT c i) == 1 &&
      decide (s.f (ST_TMR_CTRL_PRESCALE c i) ≤ mget (s.coreOf c).pre 0 i) && decide (c < 17 ∧ i < 2) &&
      (s.coreOf c).cntDue.all (fun e => e.1 != i) then s.edgeEarly c i (fun t => t.timerTick c i) else s

/-- WATCHDOG_ENABLE (R461): ST_WDT_CTRL is written with `w`, which takes EN from 0 to 1. -/
def execWatchdogEnable (c : Nat) (w : Word) (s : State) : Out :=
  .next <|
    if fget w 31 31 = 1 ∧ s.f (ST_WDT_CTRL_EN c) = 0 then s.toCore c (fun t => (t.coreBlockWrite c 0x200 w).1) else s

/-- WATCHDOG_KICK (R461 to R463): ST_WDT_KICK is written with `v`. -/
def execWatchdogKick (c : Nat) (v : Word) (s : State) : Out := .next (s.toCore c (fun t => t.wdtKick c v))

/-- WATCHDOG_WINDOW_OPEN (R462): the CORE edge at which CNT becomes equal to OPEN. -/
def execWatchdogWindowOpen (c : Nat) (s : State) : Out :=
  .next <|
    if s.coreTicks c && s.on (ST_WDT_CTRL_EN c) && s.f (ST_WDT_CNT_CNT c) == s.f (ST_WDT_OPEN_OPEN c) + 1 && decide (c < 17) then
      s.edgeEarly c 2 (fun t => t.wdtTick c)
    else s

/-- WATCHDOG_EXPIRY (R463): the CORE edge at which CNT becomes 0. -/
def execWatchdogExpiry (c : Nat) (s : State) : Out :=
  .next <|
    if s.coreTicks c && s.on (ST_WDT_CTRL_EN c) && s.f (ST_WDT_CNT_CNT c) == 1 && decide (c < 17) then
      s.edgeEarly c 2 (fun t => t.wdtTick c)
    else s

/-- WATCHDOG_RESET (R463): the CORE edge after a bite with RESET_EN = 1; ST_RESET_CAUSE records WATCHDOG. -/
def execWatchdogReset (c : Nat) (s : State) : Out :=
  .next (if (s.coreOf c).wdtDue && s.coreTicks c && decide (c < 17) then s.coreReset c 2 false else s)

/-! ### The register block -/

/-- CORE_HOLD (R466): RESET of ST_CTRL is written 1. -/
def execCoreHold (c : Nat) (s : State) : Out := .next (s.toCore c (fun t => t.coreHold c))

/-- CORE_RELEASE (R466): RESET of ST_CTRL is written 0. -/
def execCoreRelease (c : Nat) (s : State) : Out := .next (s.toCore c (fun t => t.coreRelease c))

/-- SELF_RESET (R466). -/
def execSelfReset (c : Nat) (s : State) : Out := .next (s.toCore c (fun t => t.coreReset c 1 true))

/-- ST_MEM_DATA (R439): a read, or a write of `v`, of the word that ST_MEM_ADDR names. -/
def execStMemData (c : Nat) (wr : Bool) (v : Word) (s : State) : Out :=
  .next (s.toCore c (fun t => if wr then (t.stMemWrite c v.toNat).1 else (t.stMemRead c false).1))

/-- DOORBELL (R457): ST_DOORBELL is written with `v`. -/
def execDoorbell (c : Nat) (v : Word) (s : State) : Out := .next (s.toCore c (fun t => (t.coreBlockWrite c 0x40 v).1))

/-- SWIRQ: ST_SWIRQ is written with `v`; RAISE raises EV_SW with MSG. -/
def execSwirq (c : Nat) (v : Word) (s : State) : Out := .next (s.toCore c (fun t => (t.coreBlockWrite c 0x44 v).1))

/-! ### Hub semaphores (R453) -/

/-- Every reservation of semaphore `i` ends. -/
def State.semEnd (s : State) (i : Nat) : State := { s with sem := s.sem.filter (fun e => e.2 != some i) }

/-- A read of STW_SEM_LR(i) by source `src`: a core's read reserves `i`; a peek does not (R484). -/
def State.semLr (s : State) (src i : Nat) : State :=
  if 1 ≤ src ∧ src ≤ 17 then { s with sem := mset s.sem none (src - 1) (some i) } else s

/-- A write of STW_SEM_SC(i) by source `src`. -/
def State.semSc (s : State) (src i : Nat) (v : Word) : State × Rsp :=
  if 1 ≤ src ∧ src ≤ 17 ∧ mget s.sem none (src - 1) = some i then ((s.semEnd i).put (STW_SEM_VALUE i) v.toNat, ⟨0, 0, 0, 0⟩)
  else (s, ⟨4, 0x30, 0, 0⟩)

/-- A write of STW_SEM(i). -/
def State.semWrite (s : State) (i : Nat) (v : Word) : State := (s.semEnd i).put (STW_SEM_VALUE i) v.toNat

/-- SEM_LR (R453): a read of STW_SEM_LR(i) by source `src`. -/
def execSemLr (src i : Nat) (s : State) : Out := .next (if i < 256 then s.semLr src i else s)

/-- SEM_SC (R453). -/
def execSemSc (src i : Nat) (v : Word) (s : State) : Out := .next (if i < 256 then (s.semSc src i v).1 else s)

/-- SEM_WRITE (R453). -/
def execSemWrite (i : Nat) (v : Word) (s : State) : Out := .next (if i < 256 then s.semWrite i v else s)

end Sys2Proof.Machine
end

