-- ==== Sys2Proof/Machine/Cores.lean ====
section
/-! DEFINITION. Sys2Proof/Machine/Cores.lean: the instructions of the station cores (R441, R444 to R453, R470). Each command is core `c`
taking the instruction word `w` at its PC; a command whose word is not the row's instruction has no effect. -/

namespace Sys2Proof.Machine

/-! ### MAC format -/

/-- A parallel-move slot (R441): enabled, store, pointer, d register. -/
structure Slot2 where
  en : Bool
  st : Bool
  p : Nat
  d : Nat
deriving DecidableEq, Repr

/-- XMV or YMV of a word, whose lowest bit is `lo`. -/
def slotOf (w : Word) (lo : Nat) : Slot2 :=
  ⟨fget w (lo + 7) (lo + 7) == 1, fget w (lo + 6) (lo + 6) == 1, fget w (lo + 5) (lo + 3), fget w (lo + 2) lo⟩

/-- The address that breaks R441, if one does. -/
def Core.slotFault (x : Core) (xs ys : Slot2) : Option Nat :=
  let inMem := fun (m : Nat) (a : Nat) => match x.xyAt a with
    | some (k, _) => k == m && a % 2 == 0
    | none => false
  if xs.en && !inMem 1 (x.pReg xs.p) then some (x.pReg xs.p)
  else if ys.en && !inMem 2 (x.pReg ys.p) then some (x.pReg ys.p)
  else if xs.en && ys.en && xs.p == ys.p then some (x.pReg xs.p)
  else none

/-- The memory side of one slot: the loaded value, or the store. `old` is the core before the instruction. -/
def State.slotMem (s : State) (c m : Nat) (old : Core) (sl : Slot2) : LoadRes :=
  let a := old.pReg sl.p
  match old.xyAt a with
  | none => .exc s 3
  | some (_, i) =>
    if sl.st then .val (s.coreMemHalf c m i (a / 2 % 2) (old.dReg sl.d)) 0
    else s.memLoad c m i a 2

/-- One slot of an instruction carried out: the state with the value it loads for d, or the exception. -/
def State.slotRun (s : State) (c m : Nat) (old : Core) (sl : Slot2) : Except CRes (State × Option Nat) :=
  if !sl.en then .ok (s, none)
  else match s.slotMem c m old sl with
    | .val u v => .ok (u, if sl.st then none else some v)
    | .exc u code => .error (.exc u code (some (old.pReg sl.p)) 0 false)
    | .win _ => .error (.exc s 3 (some (old.pReg sl.p)) 0 false)

/-- A load of the slot faults. -/
def State.slotFails (s : State) (c m : Nat) (old : Core) (sl : Slot2) : Bool :=
  sl.en && !sl.st && (match s.slotMem c m old sl with
    | .exc _ _ => true
    | _ => false)

/-- The loads of both slots reach d; two loads of one register leave a free value (log entry 21). -/
def State.slotLoads (s : State) (c : Nat) (xs ys : Slot2) (xv yv : Option Nat) : State :=
  let x := s.coreOf c
  match xv, yv with
  | some a, some b =>
    if xs.d = ys.d then (s.setCore c (x.setD xs.d s.freeVal)).freeNext
    else s.setCore c ((x.setD xs.d a).setD ys.d b)
  | some a, none => s.setCore c (x.setD xs.d a)
  | none, some b => s.setCore c (x.setD ys.d b)
  | none, none => s

/-- Both slots (R441): the state with the loads in d, or the exception. A load of either slot faults before either store takes effect. -/
def State.slots (s : State) (c : Nat) (xs ys : Slot2) : CRes :=
  let old := s.coreOf c
  let first := if s.slotFails c 2 old ys && !s.slotFails c 1 old xs then s.slotRun c 2 old ys else s.slotRun c 1 old xs
  match first with
  | .error r => r
  | .ok (t, xv) =>
    match t.slotRun c 2 old ys with
    | .error r => r
    | .ok (u, yv) => .done (u.slotLoads c xs ys xv yv)

/-- The accumulator part of a MAC-format operation (R445 to R447); `flip`: bits that a fault in the datapath inverts. -/
def State.macAcc (s : State) (c op : Nat) (w : Word) (flip : Nat) : State :=
  let x := s.coreOf c
  let i := fget w 25 25
  let a := x.acc i
  let e := macExact op a.v.toNat a.r.toNat (x.dReg (fget w 24 21)) (x.dReg (fget w 20 17))
  let right := wrap 40 e.1
  let wraps : Int := (e.1 - sext 40 right) / 2 ^ 40
  let actual := (right ^^^ flip) % 2 ^ 40
  let fail := decide ((e.2 - wraps) % 3 ≠ (res3 actual : Int)) || a.r == 3#2
  let s1 := s.setCore c (x.setAcc i (accOf actual (fail || (macUsesOld op && a.p))))
  s1.when fail (fun t => t.leafEvent (coreLeaf c) true 0)

/-- A MAC-format instruction with OP `op` (R441, R445, R446). -/
def insnMac (op flip : Nat) (fed : Bool) (c : Nat) (w : Word) (s : State) : CRes :=
  let x := s.coreOf c
  let xs := slotOf w 9
  let ys := slotOf w 1
  match x.slotFault xs ys with
  | some a => .exc s 3 (some a) 0 false
  | none =>
    let run := (s.slots c xs ys).andThen (fun t =>
      let t1 := if op = 0 then t else t.macAcc c op w flip
      let t2 := if xs.en then t1.postMod c xs.p (sext 16 ((t1.coreOf c).nReg xs.p)) else t1
      if ys.en then t2.postMod c ys.p (sext 16 ((t2.coreOf c).nReg ys.p)) else t2)
    let withY := if ys.en then s.watched c (x.pReg ys.p) ys.st fed run else run
    if xs.en then s.watched c (x.pReg xs.p) xs.st fed withY else withY

/-! ### ALU format -/

/-- An ALU operation on d or v registers (R470): result and flags. -/
def aluRun (op a b : Nat) (cin free : Bool) : AluOut :=
  match op with
  | 0 => add16 a b false
  | 1 => sub16 a b true
  | 2 => add16 a b cin
  | 3 => sub16 a b cin
  | 4 => aluZN (a &&& b) none none
  | 5 => aluZN (a ||| b) none none
  | 6 => aluZN (a ^^^ b) none none
  | 7 => shl16 a b free
  | 8 => shr16 a b free
  | 9 => sar16 a b free
  | 10 => sub16 a b true
  | 11 => aluZN (a &&& b) none none
  | 12 => aluZN (if sext 16 a ≤ sext 16 b then a else b) none none
  | _ => aluZN (if sext 16 a ≤ sext 16 b then b else a) none none

/-- An ALU instruction with OP 0x00 to 0x0D. CMP and TST write flags only. -/
def insnAlu (op : Nat) (c : Nat) (w : Word) (s : State) : CRes :=
  let x := s.coreOf c
  let ab := x.aluOperands w
  let shift0 := (op == 7 || op == 8 || op == 9) && ab.2 % 16 == 0
  let o := aluRun op ab.1 ab.2 (x.sr.testBit srC) (s.freeVal.testBit 0)
  let y := if op = 10 ∨ op = 11 then x else x.aluDest w o.val
  let s1 := s.setCore c (y.setCtl 0 (setFlags x.sr o.z o.n o.c o.v))
  .done (if shift0 then s1.freeNext else s1)

/-- ADDP (R470): p[RD] plus the sign-extended operand; no flags. -/
def insnAddp (c : Nat) (w : Word) (s : State) : CRes :=
  let x := s.coreOf c
  let i := fget w 23 20
  .done (s.setCore c (x.setP i (wrap 32 ((x.pReg i : Int) + sext 16 (x.aluOperands w).2))))

/-- An accumulator operation's result: residue recomputed, poison kept, Z N V (R446, R447, R470). -/
def State.accResult (s : State) (c i v : Nat) (p : Bool) : State :=
  let x := s.coreOf c
  s.setCore c ((x.setAcc i (accOf v p)).setCtl 0 (accFlags x.sr v))

/-- ASH: the signed operand shifts left when positive, right when negative; outside −40 to 40 the value is free (log entry 21). -/
def insnAsh (c : Nat) (w : Word) (s : State) : CRes :=
  let x := s.coreOf c
  let i := fget w 20 20
  let k := sext 16 (x.aluOperands w).2
  let a := sext 40 (x.acc i).v.toNat
  if -40 ≤ k ∧ k ≤ 40 then
    .done (s.accResult c i (if 0 ≤ k then wrap 40 (a * 2 ^ k.toNat) else wrap 40 (a / 2 ^ (-k).toNat)) (x.acc i).p)
  else .done ((s.accResult c i (s.freeVal % 2 ^ 40) (x.acc i).p).freeNext)

/-- ASAT: clamp to −2^31 to 2^31 − 1. -/
def insnAsat (c : Nat) (w : Word) (s : State) : CRes :=
  let x := s.coreOf c
  let i := fget w 20 20
  let a := sext 40 (x.acc i).v.toNat
  .done (s.accResult c i (wrap 40 (if a < -(2 ^ 31) then -(2 ^ 31) else if 2 ^ 31 - 1 < a then 2 ^ 31 - 1 else a)) (x.acc i).p)

/-- ARND: add 0x8000, then clear bits 15:0. -/
def insnArnd (c : Nat) (w : Word) (s : State) : CRes :=
  let x := s.coreOf c
  let i := fget w 20 20
  let v := ((x.acc i).v.toNat + 0x8000) % 2 ^ 40
  .done (s.accResult c i (v / 2 ^ 16 * 2 ^ 16) (x.acc i).p)

/-- AADD: a[RD bit 0] plus a[RS bit 0]; the poison bits are ORed. -/
def insnAadd (c : Nat) (w : Word) (s : State) : CRes :=
  let x := s.coreOf c
  let i := fget w 20 20
  let j := fget w 16 16
  .done (s.accResult c i (((x.acc i).v.toNat + (x.acc j).v.toNat) % 2 ^ 40) ((x.acc i).p || (x.acc j).p))

/-! ### LS and ATOM formats -/

/-- LS load of 16 or 32 bits (R434, R436, R440, R447). -/
def insnLoad (fed : Bool) (c : Nat) (w : Word) (s : State) : CRes :=
  let a := ((s.coreOf c).lsAddr w).1
  s.watched c a false fed <|
    match s.dataLoad c a (lsBytes w) with
    | .val t v => .done ((t.setCore c ((t.coreOf c).lsDest w v)).lsPost c w)
    | .exc t code => .exc t code (some a) 0 false
    | .win ia => s.winLoad c w a ia (lsBytes w) 0 false 0 fed

/-- LS store of 16 or 32 bits. -/
def insnStore (fed : Bool) (c : Nat) (w : Word) (s : State) : CRes :=
  let x := s.coreOf c
  let a := (x.lsAddr w).1
  let k := fget w 19 16
  let v := match fget w 26 25 with
    | 0 => x.dReg k
    | 1 => x.pairD k
    | _ => (x.acc k).v.toNat % 2 ^ 32
  s.watched c a true fed (s.dataStore c a (lsBytes w) v (fget w 26 25 == 2 && (x.acc k).p) fed (fun t => t.lsPost c w))

/-- The two addresses of a LINE move: the window's internal address and the memory word; or the address that faults (R444). -/
def Core.lineAddrs (x : Core) (w : Word) : Nat ⊕ (Nat × Nat × Nat) :=
  let a := (x.lsAddr w).1
  let q := x.pReg (fget w 18 16)
  if a % 64 ≠ 0 then .inl a
  else match x.region a with
    | .win false ia =>
      if q % 64 ≠ 0 then .inl q
      else match x.xyAt q with
        | some (m, i) => .inr (ia, m, i)
        | none => .inl q
    | _ => .inl a

/-- LINE load (R444): the core stalls until 64 bytes are in X or Y. -/
def insnLineLoad (fed : Bool) (c : Nat) (w : Word) (s : State) : CRes :=
  let x := s.coreOf c
  match x.lineAddrs w with
  | .inl a => .exc s 3 (some a) 0 false
  | .inr (ia, _, _) =>
    s.watched c (x.lsAddr w).1 false fed <| s.watched c (x.pReg (fget w 18 16)) true fed <|
      s.winLoad c w (x.lsAddr w).1 ia 64 0 false 0 fed

/-- LINE store (R444): posted; poisoned and uncorrectable words travel poisoned. -/
def insnLineStore (fed : Bool) (c : Nat) (w : Word) (s : State) : CRes :=
  let x := s.coreOf c
  match x.lineAddrs w with
  | .inl a => .exc s 3 (some a) 0 false
  | .inr (ia, m, i) =>
    s.watched c (x.pReg (fget w 18 16)) false fed <| s.watched c (x.lsAddr w).1 true fed <|
      if fed && hubRange ia then .exc s 3 (some (x.lsAddr w).1) 0 false
      else
        let g := lineGather 16 c m i 0 0 s
        match g.1.meshQueue (coreAcc c true ia 64 g.2.1 g.2.2 1) with
        | none => .wait
        | some t => .done (t.lsPost c w)

/-- LR (R452, R453). -/
def insnLr (c : Nat) (w : Word) (s : State) : CRes :=
  let x := s.coreOf c
  let a := x.pReg (fget w 26 24)
  let wp := s.watched c a false false
  if a % 4 ≠ 0 then .exc s 3 (some a) 0 false
  else match x.xyAt a with
    | some (m, i) => wp <|
      match s.memLoad c m i a 4 with
      | .val t v => .done (t.setCore c { (t.coreOf c).setPairD (fget w 23 20) v with resv := some (.word (m == 2) i) })
      | .exc t code => .exc t code (some a) 0 false
      | .win _ => .exc s 3 (some a) 0 false
    | none =>
      match x.semOf a with
      | some i => wp (s.winLoad c w a (0x20001180800 + 4 * i) 4 2 false 0 false)
      | none => .exc s 3 (some a) 0 false

/-- SC (R452, R453): the store happens only while the word is reserved. -/
def insnSc (c : Nat) (w : Word) (s : State) : CRes :=
  let x := s.coreOf c
  let a := x.pReg (fget w 26 24)
  let r := fget w 19 16
  let wp := s.watched c a true false
  let fail := CRes.done (s.setCore c { x.setD r 0 with resv := none })
  if a % 4 ≠ 0 then .exc s 3 (some a) 0 false
  else match x.xyAt a with
    | some (m, i) => wp <|
      if x.resv = some (.word (m == 2) i) then
        let t := s.coreMemWrite c m i (x.pairD (fget w 23 20)) false
        .done (t.setCore c { (t.coreOf c).setD r 1 with resv := none })
      else fail
    | none =>
      match x.semOf a with
      | some i => wp <|
        if x.resv = some (.sem i) then
          let t := s.setCore c { x with resv := none }
          t.winLoad c w a (0x20001180400 + 4 * i) 4 3 true (x.pairD (fget w 23 20)) false
        else fail
      | none => .exc s 3 (some a) 0 false

/-! ### BR format -/

/-- The target of JMP and CALLR (R435); none: ACCESS. -/
def jumpTarget (c t : Nat) : Option Nat :=
  if t < 2 ^ 16 then some (t / 4 * 4)
  else if c = 16 ∧ 0x40000 ≤ t ∧ t < 0x48000 then some (2 ^ 16 + (t - 0x40000) / 4 * 4)
  else none

/-- BRA. -/
def insnBra (c : Nat) (w : Word) (s : State) : CRes := .jump s (relPc (s.pcOf c) (fget w 15 0))

/-- BCC. -/
def insnBcc (c : Nat) (w : Word) (s : State) : CRes :=
  if condHolds (fget w 23 20) (s.coreOf c).sr then .jump s (relPc (s.pcOf c) (fget w 15 0)) else .done s

/-- Push the return address (R435); none at depth 16 (R454). -/
def Core.pushCall (x : Core) (ret : Nat) : Option Core :=
  if x.calls.length < 16 then some { x with calls := ret :: x.calls } else none

/-- CALL. -/
def insnCall (c : Nat) (w : Word) (s : State) : CRes :=
  match (s.coreOf c).pushCall (nextPc (s.pcOf c)) with
  | none => .exc s 8 none 0 false
  | some x => .jump (s.setCore c x) (relPc (s.pcOf c) (fget w 15 0))

/-- JMP. -/
def insnJmp (c : Nat) (w : Word) (s : State) : CRes :=
  let t := (s.coreOf c).pReg (fget w 18 16)
  if t % 4 ≠ 0 then .exc s 3 (some t) 0 false
  else match jumpTarget c t with
    | none => .exc s 3 (some t) 0 false
    | some p => .jump s p

/-- CALLR. -/
def insnCallr (c : Nat) (w : Word) (s : State) : CRes :=
  let t := (s.coreOf c).pReg (fget w 18 16)
  if t % 4 ≠ 0 then .exc s 3 (some t) 0 false
  else match jumpTarget c t with
    | none => .exc s 3 (some t) 0 false
    | some p =>
      match (s.coreOf c).pushCall (nextPc (s.pcOf c)) with
      | none => .exc s 8 none 0 false
      | some x => .jump (s.setCore c x) p

/-- RET. -/
def insnRet (c : Nat) (_w : Word) (s : State) : CRes :=
  match (s.coreOf c).calls with
  | [] => .exc s 8 none 0 false
  | p :: rest => .jump (s.setCore c { s.coreOf c with calls := rest }) p

/-- RETI (R455, R459). -/
def insnReti (c : Nat) (_w : Word) (s : State) : CRes :=
  let x := s.coreOf c
  if x.sr.testBit 7 then
    let epc := x.ctlReg 1 / 4 * 4
    if c < 16 ∧ 2 ^ 16 ≤ epc then .exc s 3 (some (0x40000 + epc % 2 ^ 16)) 0 false
    else .jump (s.setCore c { x.setCtl 0 (x.ctlReg 2 % 256) with resv := none }) epc
  else match x.ints with
    | [] => .exc s 8 none 0 false
    | (p, sr) :: rest => .jump (s.setCore c { x.setCtl 0 (sr.toNat % 256) with ints := rest, resv := none }) p

/-- Open a repeat level (R448, R449); the result: an exception code, or the core. -/
def Core.openLevel (x : Core) (pc count len : Nat) : Nat ⊕ Core :=
  let n := x.ctlReg 5
  let ls := (pc + 4) % 2 ^ 16
  let le := ls + 4 * (len - 1)
  if 4 ≤ n then .inl 6
  else if n ≠ 0 ∧ x.ctlReg (16 + (n - 1)) < le then .inl 7
  else .inr ((((x.setCtl (8 + n) count).setCtl (12 + n) ls).setCtl (16 + n) le).setCtl 5 (n + 1))

/-- REP. -/
def insnRep (c : Nat) (w : Word) (s : State) : CRes :=
  match (s.coreOf c).openLevel (s.pcOf c % 2 ^ 16) (fget w 23 10 + 1) (fget w 9 0 + 1) with
  | .inl code => .exc s code none 0 false
  | .inr x => .done (s.setCore c x)

/-- REPR; a count of 0 skips the block. -/
def insnRepr (c : Nat) (w : Word) (s : State) : CRes :=
  let count := (s.coreOf c).dReg (fget w 19 16)
  let len := fget w 9 0 + 1
  if count = 0 then .jump s (s.pcOf c / 2 ^ 16 * 2 ^ 16 + (s.pcOf c + 4 + 4 * len) % 2 ^ 16)
  else match (s.coreOf c).openLevel (s.pcOf c % 2 ^ 16) count len with
    | .inl code => .exc s code none 0 false
    | .inr x => .done (s.setCore c x)

/-- BRK: the innermost level closes (R449). -/
def insnBrk (c : Nat) (_w : Word) (s : State) : CRes :=
  .done (s.setCore c ((s.coreOf c).setCtl 5 ((s.coreOf c).ctlReg 5 - 1)))

/-- WAIT: issue stops until an input pends with PRIO above IPL (R459). -/
def insnWait (c : Nat) (_w : Word) (s : State) : CRes := .done (s.put (ST_STAT_STATE c) 2)

/-- NOP. -/
def insnNop (_c : Nat) (_w : Word) (s : State) : CRes := .done s

/-- The advance of the rotating registers by SHF places (R451). -/
def Core.rotate (x : Core) : Core :=
  let k := x.ctlReg 7 % 4 + 1
  (List.range (32 - k)).foldl (fun y i => y.setV (i + k) (x.vReg i)) x

/-- LOOPV (R451). -/
def insnLoopv (c : Nat) (w : Word) (s : State) : CRes :=
  let x := s.coreOf c
  if x.ctlReg 6 = 0 then .done s
  else .jump (s.setCore c ((x.setCtl 6 (x.ctlReg 6 - 1)).rotate)) (relPc (s.pcOf c) (fget w 15 0))

/-- TRAP (R454, R493 cause 4). -/
def insnTrap (c : Nat) (w : Word) (s : State) : CRes :=
  if fget w 7 0 = 0xFF ∧ s.attached ∧ s.on (DBG_CORE_CTRL_TRAP_HALT c) then .halt 4 0 true
  else .exc s 9 none (fget w 7 0) true

/-! ### Moves -/

/-- MOVX (R447, R470): a part of a poisoned accumulator causes POISON. -/
def insnMovx (c : Nat) (w : Word) (s : State) : CRes :=
  let x := s.coreOf c
  let sc := fget w 19 17
  let si := fget w 16 12
  if sc = 3 ∧ (x.acc (si / 3)).p then .exc s 4 (some 0) 0 false
  else .done (s.regWrite c (fget w 27 25) (fget w 24 20) (x.readReg sc si))

/-- LDI. -/
def insnLdi (c : Nat) (w : Word) (s : State) : CRes := .done (s.regWrite c (fget w 27 25) (fget w 24 20) (fget w 15 0))

/-- LDIH: bits 31:16 of a p or control register. -/
def insnLdih (c : Nat) (w : Word) (s : State) : CRes :=
  let old := (s.coreOf c).readReg (fget w 27 25) (fget w 24 20)
  .done (s.regWrite c (fget w 27 25) (fget w 24 20) (old % 2 ^ 16 + fget w 15 0 * 2 ^ 16))

/-! ### The commands -/

/-- MPY. -/
def execMacMpy (c : Nat) (w : Word) (flip : Nat) (s : State) : Out := .next (s.coreCmd c w 1 (insnMac 1 flip false))
/-- MAC. -/
def execMacMac (c : Nat) (w : Word) (flip : Nat) (s : State) : Out := .next (s.coreCmd c w 2 (insnMac 2 flip false))
/-- MSU. -/
def execMacMsu (c : Nat) (w : Word) (flip : Nat) (s : State) : Out := .next (s.coreCmd c w 3 (insnMac 3 flip false))
/-- MPYU. -/
def execMacMpyu (c : Nat) (w : Word) (flip : Nat) (s : State) : Out := .next (s.coreCmd c w 4 (insnMac 4 flip false))
/-- MACU. -/
def execMacMacu (c : Nat) (w : Word) (flip : Nat) (s : State) : Out := .next (s.coreCmd c w 5 (insnMac 5 flip false))
/-- MACSU. -/
def execMacMacsu (c : Nat) (w : Word) (flip : Nat) (s : State) : Out := .next (s.coreCmd c w 6 (insnMac 6 flip false))
/-- CLR. -/
def execMacClr (c : Nat) (w : Word) (flip : Nat) (s : State) : Out := .next (s.coreCmd c w 7 (insnMac 7 flip false))
/-- Moves only (R441). -/
def execMovesOnly (c : Nat) (w : Word) (s : State) : Out := .next (s.coreCmd c w 0 (insnMac 0 0 false))
/-- ADD. -/
def execAluAdd (c : Nat) (w : Word) (s : State) : Out := .next (s.coreCmd c w 32 (insnAlu 0))
/-- SUB. -/
def execAluSub (c : Nat) (w : Word) (s : State) : Out := .next (s.coreCmd c w 33 (insnAlu 1))
/-- ADC. -/
def execAluAdc (c : Nat) (w : Word) (s : State) : Out := .next (s.coreCmd c w 34 (insnAlu 2))
/-- SBC. -/
def execAluSbc (c : Nat) (w : Word) (s : State) : Out := .next (s.coreCmd c w 35 (insnAlu 3))
/-- AND. -/
def execAluAnd (c : Nat) (w : Word) (s : State) : Out := .next (s.coreCmd c w 36 (insnAlu 4))
/-- OR. -/
def execAluOr (c : Nat) (w : Word) (s : State) : Out := .next (s.coreCmd c w 37 (insnAlu 5))
/-- XOR. -/
def execAluXor (c : Nat) (w : Word) (s : State) : Out := .next (s.coreCmd c w 38 (insnAlu 6))
/-- SHL. -/
def execAluShl (c : Nat) (w : Word) (s : State) : Out := .next (s.coreCmd c w 39 (insnAlu 7))
/-- SHR. -/
def execAluShr (c : Nat) (w : Word) (s : State) : Out := .next (s.coreCmd c w 40 (insnAlu 8))
/-- SAR. -/
def execAluSar (c : Nat) (w : Word) (s : State) : Out := .next (s.coreCmd c w 41 (insnAlu 9))
/-- CMP. -/
def execAluCmp (c : Nat) (w : Word) (s : State) : Out := .next (s.coreCmd c w 42 (insnAlu 10))
/-- TST. -/
def execAluTst (c : Nat) (w : Word) (s : State) : Out := .next (s.coreCmd c w 43 (insnAlu 11))
/-- MIN. -/
def execAluMin (c : Nat) (w : Word) (s : State) : Out := .next (s.coreCmd c w 44 (insnAlu 12))
/-- MAX. -/
def execAluMax (c : Nat) (w : Word) (s : State) : Out := .next (s.coreCmd c w 45 (insnAlu 13))
/-- ADDP. -/
def execAluAddp (c : Nat) (w : Word) (s : State) : Out := .next (s.coreCmd c w 46 insnAddp)
/-- ASH. -/
def execAluAsh (c : Nat) (w : Word) (s : State) : Out := .next (s.coreCmd c w 48 insnAsh)
/-- ASAT. -/
def execAluAsat (c : Nat) (w : Word) (s : State) : Out := .next (s.coreCmd c w 49 insnAsat)
/-- ARND. -/
def execAluArnd (c : Nat) (w : Word) (s : State) : Out := .next (s.coreCmd c w 50 insnArnd)
/-- AADD. -/
def execAluAadd (c : Nat) (w : Word) (s : State) : Out := .next (s.coreCmd c w 51 insnAadd)
/-- LS load. -/
def execLsLoad (c : Nat) (w : Word) (s : State) : Out := .next (s.coreCmd c w 64 (insnLoad false))
/-- LS store. -/
def execLsStore (c : Nat) (w : Word) (s : State) : Out := .next (s.coreCmd c w 65 (insnStore false))
/-- LINE load. -/
def execLineLoad (c : Nat) (w : Word) (s : State) : Out := .next (s.coreCmd c w 66 (insnLineLoad false))
/-- LINE store. -/
def execLineStore (c : Nat) (w : Word) (s : State) : Out := .next (s.coreCmd c w 67 (insnLineStore false))
/-- LR. -/
def execAtomLr (c : Nat) (w : Word) (s : State) : Out := .next (s.coreCmd c w 68 insnLr)
/-- SC. -/
def execAtomSc (c : Nat) (w : Word) (s : State) : Out := .next (s.coreCmd c w 69 insnSc)
/-- BRA. -/
def execBrBra (c : Nat) (w : Word) (s : State) : Out := .next (s.coreCmd c w 80 insnBra)
/-- BCC. -/
def execBrBcc (c : Nat) (w : Word) (s : State) : Out := .next (s.coreCmd c w 81 insnBcc)
/-- CALL. -/
def execBrCall (c : Nat) (w : Word) (s : State) : Out := .next (s.coreCmd c w 82 insnCall)
/-- JMP. -/
def execBrJmp (c : Nat) (w : Word) (s : State) : Out := .next (s.coreCmd c w 83 insnJmp)
/-- CALLR. -/
def execBrCallr (c : Nat) (w : Word) (s : State) : Out := .next (s.coreCmd c w 84 insnCallr)
/-- RET. -/
def execBrRet (c : Nat) (w : Word) (s : State) : Out := .next (s.coreCmd c w 85 insnRet)
/-- RETI. -/
def execBrReti (c : Nat) (w : Word) (s : State) : Out := .next (s.coreCmd c w 86 insnReti)
/-- REP. -/
def execBrRep (c : Nat) (w : Word) (s : State) : Out := .next (s.coreCmd c w 87 insnRep)
/-- REPR. -/
def execBrRepr (c : Nat) (w : Word) (s : State) : Out := .next (s.coreCmd c w 88 insnRepr)
/-- BRK. -/
def execBrBrk (c : Nat) (w : Word) (s : State) : Out := .next (s.coreCmd c w 89 insnBrk)
/-- LOOPV. -/
def execBrLoopv (c : Nat) (w : Word) (s : State) : Out := .next (s.coreCmd c w 90 insnLoopv)
/-- WAIT. -/
def execCoreWait (c : Nat) (w : Word) (s : State) : Out := .next (s.coreCmd c w 91 insnWait)
/-- TRAP. -/
def execBrTrap (c : Nat) (w : Word) (s : State) : Out := .next (s.coreCmd c w 92 insnTrap)
/-- NOP. -/
def execBrNop (c : Nat) (w : Word) (s : State) : Out := .next (s.coreCmd c w 93 insnNop)
/-- MOVX. -/
def execMovx (c : Nat) (w : Word) (s : State) : Out := .next (s.coreCmd c w 96 insnMovx)
/-- LDI. -/
def execLdi (c : Nat) (w : Word) (s : State) : Out := .next (s.coreCmd c w 97 insnLdi)
/-- LDIH. -/
def execLdih (c : Nat) (w : Word) (s : State) : Out := .next (s.coreCmd c w 98 insnLdih)

end Sys2Proof.Machine
end

