-- ==== Sys2Proof/Machine/Hbm.lean ====
section
/-! DEFINITION. Sys2Proof/Machine/Hbm.lean: the commands of in-package memory (file 11): the requests that the stack controllers hold (R397,
R408 to R410), temperature (R399), self-refresh (R400), bring-up and keys (R412 to R416). -/

namespace Sys2Proof.Machine

/-- A re-key sweep that has reached the end of every stack that serves ends the re-key (R416). -/
def State.rekeyCheck (s : State) : State :=
  if s.f MEM_STAT_KEYS = 2 ∧ (List.range 4).all (fun k => s.stackSt k == 4 || s.f (MEM_REKEY_PTR_PTR k) == stackLines) then
    ((s.setHbm { s.hbm with old := none }).put MEM_STAT_KEYS 1).raise 202
  else s

/-- The fourth attempt of a transfer fails (R401): the stack is FAILED. -/
def State.stackFail (s : State) (k a : Nat) : State :=
  ((((s.put (MEM_STACK_STAT_STATE k) 4).raise 204).log MEM_UE_LOG_VALID MEM_UE_LOG_OVF (fun t =>
    ((t.put MEM_UE_LOG_KIND 2).put MEM_UE_LOG_ADDR_HI (a / 2 ^ 32)).put MEM_UE_ADDR_ADDR_LO (a % 2 ^ 32 / 64)))).rekeyCheck

/-- The bytes of a response that its access asked for, and the poison of the words it touches. -/
def Rsp.cut (r : Rsp) (a : Acc) : Rsp :=
  let be := accBytes a.addr a.size
  { r with
    data := r.data &&& ofBytes ((List.range 64).map (fun i => if be.testBit i then 255 else 0))
    poison := packBits ((List.range 8).map (fun w => r.poison.testBit w && (be >>> (8 * w)) % 256 != 0)) }

/-- A held request has waited AGE_MAX HBM cycles (R397); HBM runs at 1.6 GHz, FIG at 1.5 GHz (R134). -/
def State.memAged (s : State) (k : Nat) (w : Wait) : Bool :=
  decide (15 * max 1 (s.f (MEM_STACK_CFG_AGE_MAX k)) ≤ 16 * (s.fig.toNat - w.at_))

/-- Request `i` that stack controller `k` holds, when it can execute: no older request to its line and none older that has waited AGE_MAX
(R397), the stack not in self-refresh, the clock running. -/
def State.memHeld (s : State) (k i : Nat) : Option Acc :=
  let l := s.waits (64 + 4 * k)
  match l[i]? with
  | none => none
  | some w =>
    if k < 4 ∧ s.stackSt k ≠ 3 ∧ s.hbmPll k ∧ mget s.clk.gate .opened (32 + k) ≠ .closed ∧
        (l.take i).all (fun x => x.acc.addr / 64 != w.acc.addr / 64 && !s.memAged k x) then some w.acc else none

/-- Stack controller `k` executes request `i`, an access that satisfies `p`; `par`: its four attempts fail by parity (R401). -/
def State.memExec (s : State) (k i : Nat) (p : Acc → Bool) (up : List (Nat × Nat)) (par : Bool) : State :=
  match s.memHeld k i with
  | none => s
  | some a =>
    if !p a then s
    else if par && (s.keyAt a.addr).isSome && s.stackSt k != 4 then (s.stackFail k (a.addr / 64 * 64)).tgtAnswer (64 + 4 * k) i ⟨4, 0x22, 0, 0⟩
    else
      let r := if a.write then s.lineAccessW a.src (a.addr / 64 * 64) a.be a.data a.poison up
        else s.lineRead a.src (a.addr / 64 * 64) up
      (if a.src = 22 ∧ !a.write then s else r.1).tgtAnswer (64 + 4 * k) i (if a.write then { r.2 with data := 0, poison := 0 } else r.2.cut a)

/-- HBM_READ (R408): request `i` of stack controller `k`, a read; `up`: bits that have flipped, as `State.memUpset` places them. -/
def execHbmRead (k i : Nat) (up : List (Nat × Nat)) (par : Bool) (s : State) : Out :=
  .next (s.memExec k i (fun a => !a.write) up par).settle

/-- FULL_LINE_WRITE (R409): request `i` of stack controller `k`, a write of a whole line. -/
def execFullLineWrite (k i : Nat) (par : Bool) (s : State) : Out :=
  .next (s.memExec k i (fun a => a.write && a.be == 2 ^ 64 - 1) [] par).settle

/-- PARTIAL_WRITE (R410): request `i` of stack controller `k`, any other write. -/
def execPartialWrite (k i : Nat) (up : List (Nat × Nat)) (par : Bool) (s : State) : Out :=
  .next (s.memExec k i (fun a => a.write && a.be != 2 ^ 64 - 1) up par).settle

/-- TEMP_READ (R399): stack `k` reads `temp` °C. -/
def execTempRead (k temp : Nat) (s : State) : Out :=
  .next <|
    if k < 4 ∧ mget s.clk.gate .opened (32 + k) ≠ .closed then
      let t := temp % 256
      let s1 := (s.put (MEM_STACK_STAT_TEMP k) t).put (MEM_STACK_STAT_HOT k) (b2n (decide (s.f (MEM_STACK_CFG_HOT_C k) < t)))
      let s2 := s1.put BAL_THERM_STAT_HBM_MAX ((List.range 4).foldl (fun m j => max m (s1.f (MEM_STACK_STAT_TEMP j))) 0)
      s2.when (decide (s.f (MEM_STACK_CFG_ALERT_C k) < t)) (fun u => u.raise 203)
    else s

/-- SELF_REFRESH_EXIT (R400): stack `k` leaves self-refresh when its gate is open and the power state allows it. -/
def execSelfRefreshExit (k : Nat) (s : State) : Out :=
  .next <|
    if k < 4 ∧ s.stackSt k = 3 ∧ mget s.clk.gate .opened (32 + k) ≠ .closed ∧ s.power < 2 then s.put (MEM_STACK_STAT_STATE k) 2 else s

/-- INIT (R412). -/
def execMemInit (s : State) : Out := .next s.initMem

/-- INIT_DONE (R412): the random source gives the pair `keys`; the stacks of the mask `fail` fail training. -/
def execInitDone (keys : KeyPair) (fail : Nat) (s : State) : Out :=
  .next <|
    if s.on MEM_STAT_INIT_BUSY ∧ s.power < 2 then
      let s1 := s.each (List.range 4) (fun k t =>
        if t.stackSt k = 4 then t
        else if fail.testBit k then (t.put (MEM_STACK_STAT_STATE k) 4).raise 204
        else t.put (MEM_STACK_STAT_STATE k) 2)
      let s2 : State := s1.setHbm {
        words := s1.hbm.words.filter (fun e => decide (e.1 * 8 < 0x001680000000))
        keys := some keys, old := none, cache := [], swept := [] }
      let s3 := s2.each (List.range 4) (fun k t => t.put (MEM_REKEY_PTR_PTR k) 0)
      (((s3.put MEM_STAT_KEYS 1).put MEM_STAT_INIT_BUSY 0).raise 201).bootMem
    else s

/-- A write of REKEY (R414): `keys` is the new pair. -/
def State.rekeyMem (s : State) (keys : KeyPair) : State :=
  if s.f MEM_STAT_KEYS = 1 ∧ !s.on MEM_STAT_INIT_BUSY ∧ (List.range 4).all (fun k => s.stackSt k != 1) then
    let s1 : State := s.setHbm { s.hbm with keys := some keys, old := s.hbm.keys }
    ((s1.each (List.range 4) (fun k t => t.put (MEM_REKEY_PTR_PTR k) 0)).put MEM_STAT_KEYS 2).wake 2
  else s.put MEM_STAT_REFUSED 1

/-- REKEY (R414). -/
def execMemRekey (keys : KeyPair) (s : State) : Out := .next (s.rekeyMem keys)

/-- The internal address of local line `l` of stack `k` (R394). -/
def lineAddr (k l : Nat) : Nat := l * 64 / 256 * 1024 + k * 256 + l * 64 % 256

/-- HBM cycles at this edge: HBM runs at 1.6 GHz, FIG at 1.5 GHz (R134). -/
def State.hbmCycles (s : State) : Nat := s.fig.toNat * 16 / 15

/-- SWEEP_DIV HBM cycles have passed since the line before of the sweep of stack `k` (R415). -/
def State.sweepOk (s : State) (k : Nat) : Bool := decide (mget s.hbm.swept 0 k ≤ s.hbmCycles)

/-- The next line of the sweep of stack `k` comes SWEEP_DIV HBM cycles later; smaller values act as 16. -/
def State.sweepPace (s : State) (k : Nat) : State :=
  s.setHbm { s.hbm with swept := mset s.hbm.swept 0 k (s.hbmCycles + max 16 (s.f MEM_CTRL_SWEEP_DIV)) }

/-- SWEEP_LINE (R415, R416): the controller of stack `k` rewrites the line at its pointer; `up`: bits that have flipped. -/
def execSweepLine (k : Nat) (up : List (Nat × Nat)) (s : State) : Out :=
  .next <|
    let p := s.f (MEM_REKEY_PTR_PTR k)
    if k < 4 ∧ s.f MEM_STAT_KEYS = 2 ∧ s.stackSt k = 2 ∧ mget s.clk.gate .opened (32 + k) ≠ .closed ∧ p < stackLines ∧ s.sweepOk k then
      let a := lineAddr k p
      let s0 := ((s.sweepPace k).memUpset a up).tagRead a
      let s1 := match s0.hbm.old, s0.hbm.keys with
        | some old, some new =>
          if s0.tagOf a = tagUnwritten then s0
          else
            let plain := joinWords ((s0.lineWords a).map Decoded.data) ^^^ keystream old a
            let r := s0.lineReadK old 19 a
            r.1.lineStoreK new a plain (if r.2.status = 0 then r.2.poison else 255)
        | _, _ => s0
      (s1.put (MEM_REKEY_PTR_PTR k) (p + 1)).rekeyCheck.settle
    else s

end Sys2Proof.Machine
end

