-- ==== Sys2Proof/Machine/HostOps.lean ====
section
/-! DEFINITION. Sys2Proof/Machine/HostOps.lean: the named operations of the host interface (R532 to R543): the ring registers, the MSI-X
table, inbound TLPs as mesh accesses of source 0 and their completions, errors of descriptors. -/

namespace Sys2Proof.Machine

/-! ### Rings (R541 to R543) -/

/-- log2 of the descriptors of ring `r`: SIZE between 4 and 16. -/
def State.ringSize (s : State) (r : Nat) : Nat := clamp 4 16 (s.f (HIF_RING_CFG_SIZE r))

/-- Ring `r` enters ERROR (R543); the first cause stays. -/
def State.ringError (s : State) (r cause : Nat) : State :=
  if s.on (HIF_RING_STAT_ERROR r) then s
  else ((s.put (HIF_RING_STAT_ERROR r) 1).put (HIF_RING_STAT_CAUSE r) cause).raise 353

/-- The descriptors of ring `r` that are still in progress when the ring starts anew finish without it (log entry 54). -/
def State.ringForget (s : State) (r : Nat) : State :=
  let gone := s.host.descs.filter (fun d => d.ring == r)
  s.setHost { s.host with
    descs := s.host.descs.filter (fun d => d.ring != r)
    todo := s.host.todo.filter (fun a => !gone.any (fun d => d.id == a.ref))
    ops := s.host.ops.filter (fun k => !gone.any (fun d => !d.d2h && !d.moved && d.op == k)) }

/-- A write of HIF_RING_CFG(r) (R543): EN from 0 to 1 clears HEAD, TAIL and HIF_RING_STAT; SIZE stays while EN is 1. -/
def State.ringCfg (s : State) (r : Nat) (v : Word) : State :=
  let was := s.on (HIF_RING_CFG_EN r)
  let s1 := (s.put (HIF_RING_CFG_VECTOR r) (fget v 26 16)).put (HIF_RING_CFG_EN r) (fget v 31 31)
  let s2 := if was then s1 else s1.put (HIF_RING_CFG_SIZE r) (fget v 4 0)
  if !was && fget v 31 31 == 1 then ((s2.ringForget r).setReg (HIF_RING_PTR r) 0).setReg (HIF_RING_STAT r) 0 else s2

/-- A write of TAIL to HIF_DOORBELL(r) (R541, R543). -/
def State.ringBell (s : State) (r v : Nat) : State :=
  if s.on (HIF_RING_CFG_EN r) then
    if 2 ^ s.ringSize r ≤ v then s.ringError r 5 else s.put (HIF_RING_PTR_TAIL r) v
  else s

/-- A vector becomes pending (R539, R542). -/
def State.vecPend (s : State) (v : Nat) : State := s.setHost { s.host with pend := ladd s.host.pend v }

/-! ### The MSI-X table and the pending bits (R532) -/

/-- What the MSI-X table reads at byte `o`, a multiple of 4: address, data, vector control of entry o / 16. -/
def State.msixRead (s : State) (o : Nat) : Nat :=
  let e := mget s.host.msix Msix.init (o / 16)
  match o / 4 % 4 with
  | 0 => e.addr % 2 ^ 32
  | 1 => e.addr / 2 ^ 32
  | 2 => e.data
  | _ => b2n e.masked

/-- A write to the MSI-X table. -/
def State.msixWrite (s : State) (o v : Nat) : State :=
  let e := mget s.host.msix Msix.init (o / 16)
  let e1 := match o / 4 % 4 with
    | 0 => { e with addr := e.addr / 2 ^ 32 * 2 ^ 32 + v }
    | 1 => { e with addr := e.addr % 2 ^ 32 + v * 2 ^ 32 }
    | 2 => { e with data := v }
    | _ => { e with masked := v.testBit 0 }
  s.setHost { s.host with msix := mset s.host.msix Msix.init (o / 16) e1 }

/-- The pending bits of vectors 32 k to 32 k + 31. -/
def State.pbaRead (s : State) (k : Nat) : Nat := packBits ((List.range 32).map (fun i => decide (32 * k + i ∈ s.host.pend)))

/-! ### Inbound TLPs (R533, R534, R536) -/

/-- The leaf of the endpoint's buffers (R422, R536). -/
def hifLeaf : Nat := 521

/-- An AER error: 0 Unsupported Request, 1 Completer Abort, 2 Uncorrectable Internal, 3 Poisoned TLP. -/
def State.aer (s : State) (e : Nat) : State := s.setHost { s.host with aer := e :: s.host.aer }

/-- The accesses of source 0 to registers for `bytes` bytes at internal address `base`, from dword `i` on (R8, R533); `pois`: bit k for a
poisoned dword k. Every initiator sends 8 aligned bytes of the Tether data window whole. -/
def regAccs : Nat → Nat → Nat → Bool → Nat → Nat → Nat → Nat → Nat → List Acc
  | 0, _, _, _, _, _, _, _, _ => []
  | n + 1, id, base, write, bytes, be, data, pois, i =>
    if bytes ≤ 4 * i then []
    else
      let a := base + 4 * i
      let e := (be >>> (4 * i)) % 16
      let acc := fun (size : Nat) => (⟨0, 0, write, a, size, (2 ^ size - 1) <<< (a % 64),
        ((data >>> (32 * i)) % 2 ^ (8 * size)) <<< (8 * (a % 64)),
        if (pois >>> i) % (if size = 8 then 4 else 2) = 0 then 0 else wordMask a size, id⟩ : Acc)
      if 0x20000E80000 ≤ a ∧ a < 0x20000E80018 ∧ a % 8 = 0 ∧ (be >>> (4 * i)) % 256 = 255 ∧ 4 * i + 8 ≤ bytes then
        acc 8 :: regAccs n id base write bytes be data pois (i + 2)
      else if e = 15 then acc 4 :: regAccs n id base write bytes be data pois (i + 1)
      else if e = 0 then regAccs n id base write bytes be data pois (i + 1)
      else acc 1 :: regAccs n id base write bytes be data pois (i + 1)

/-- The lines of BAR2 that a TLP touches, each with its byte enables, from byte `shift` of the first. -/
def bar2Accs : Nat → Nat → Nat → Bool → Nat → Nat → Nat → Nat → List Acc
  | 0, _, _, _, _, _, _, _ => []
  | n + 1, id, line, write, shift, be, data, pois =>
    let e := (be <<< shift) % 2 ^ 64
    let p := pois <<< (shift / 4)
    let rest := bar2Accs n id (line + 64) write 0 (be >>> (64 - shift)) (data >>> (8 * (64 - shift))) (p >>> 16)
    if e = 0 then rest
    else (⟨0, 0, write, line, 64, e, (data <<< (8 * shift)) % 2 ^ 512,
      packBits ((List.range 8).map (fun w => bitsOf p (2 * w + 1) (2 * w) != 0)), id⟩ : Acc) :: rest

/-- Accesses of source 0 that wait for a tag enter the mesh while tags are free (R378). -/
def issueTodo : List Acc → State → State
  | [], s => s.setHost { s.host with todo := [] }
  | a :: t, s =>
    match s.meshQueue a with
    | some u => issueTodo t u
    | none => s.setHost { s.host with todo := a :: t }

/-- A completion for the host: 0 Successful, 1 Successful with EP, 2 Unsupported Request, 3 Completer Abort. -/
def State.hostCpl (s : State) (code data : Nat) : State := s.setHost { s.host with cpl := s.host.cpl ++ [(code, data)] }

/-- The completion of a read whose accesses have all returned (R533). -/
def State.tlpEnd (s : State) (t : Tlp) : State :=
  let s1 := s.setHost { s.host with tlps := s.host.tlps.filter (fun x => x.id != t.id) }
  if t.write then s1
  else if t.status = 0 then
    let bad := bitList t.ue ((t.bytes + 3) / 4)
    (s1.each bad (fun _ u => u.leafEvent hifLeaf true 0)).hostCpl (b2n (t.ep || !bad.isEmpty)) (t.data % 2 ^ (8 * t.bytes))
  else s1.hostCpl (if t.status = 1 then 2 else 3) 0

/-- The worse of two mesh outcomes (R533): OK, then UNMAPPED, then the others. -/
def worse (a b : Nat) : Nat := if a = 0 then b else if a = 1 ∧ b ≠ 0 then b else a

/-- What a returned access of size `a.size` brings at its place in data that starts at `addr`. -/
def bring (a : Acc) (addr : Nat) (r : Rsp) : Nat :=
  let raw := r.data >>> (8 * (a.addr % 64))
  if a.addr < addr then raw >>> (8 * (addr - a.addr)) else (raw % 2 ^ (8 * a.size)) <<< (8 * (a.addr - addr))

/-- The words of a response's line that lie within `bytes` bytes at `addr`. -/
def wordsIn (a : Acc) (addr bytes : Nat) : Nat :=
  wordMask (max a.addr addr) (min (a.addr + 64) (addr + bytes) - max a.addr addr)

/-- The header of TLP `t` goes to the AER header log (R533). -/
def State.setHdrLog (s : State) (t : Tlp) : State :=
  s.setHost { s.host with hdrLog := (t.write, t.bar2, t.addr, t.bytes) :: s.host.hdrLog }

/-- The response to an access of TLP `t` has arrived (R533): an error's log and events, the completion. -/
def State.tlpTake (s : State) (t : Tlp) (a : Acc) (r : Rsp) : State :=
  let bad := r.status != 0
  let s1 := if bad then
      (((s.log HIF_ERR_LOG_VALID HIF_ERR_LOG_OVF (fun u =>
        (((((u.put HIF_ERR_LOG_WRITE (b2n a.write)).put HIF_ERR_LOG_BAR2 (b2n t.bar2)).put HIF_ERR_LOG_STATUS r.status).put
          HIF_ERR_LOG_CAUSE r.cause).put HIF_ERR_LOG_ADDR_HI (a.addr / 2 ^ 32)).put HIF_ERR_ADDR_ADDR_LO a.addr)).raise 352).when
        a.write (fun u => u.aer (if r.status = 1 then 0 else 1))).setHdrLog t
    else s
  let pois := r.poison &&& (if t.bar2 then wordsIn a t.addr t.bytes else 0)
  let t1 := { t with
    left := t.left - 1
    status := worse t.status r.status
    ep := t.ep || pois != 0
    data := if a.write || bad then t.data else t.data ||| bring a t.addr r }
  if t1.left = 0 then s1.tlpEnd t1
  else s1.setHost { s1.host with tlps := s1.host.tlps.map (fun x => if x.id = t1.id then t1 else x) }

/-- What the endpoint's buffers find in a TLP (R536): the events; the TLP of an uncorrectable header is dropped. -/
def State.hifBuf (s : State) (up : HifUp) (dwords : Nat) : State :=
  let s1 := s.when up.ce (fun t => t.leafEvent hifLeaf false 0)
  if up.hdr then (s1.leafEvent hifLeaf true 0).aer 2
  else s1.each (bitList up.ue dwords) (fun _ t => t.leafEvent hifLeaf true 0)

/-- Some data word of `dwords` is uncorrectable. -/
def HifUp.bad (up : HifUp) (dwords : Nat) : Bool := !(bitList up.ue dwords).isEmpty

/-- A memory TLP enters (R533, R534, R536). -/
def State.tlpStart (s : State) (write bar2 : Bool) (off bytes be data : Nat) (ep : Bool) (ue : Nat) : State :=
  let id := s.host.tlpSeq
  let pois := if write then (if ep then 2 ^ (bytes / 4 + 2) - 1 else ue) else 0
  let n := bytes / 4 + 2
  let accs := if bar2 then bar2Accs (bytes / 64 + 2) id (off / 64 * 64) write (off % 64) (be % 2 ^ bytes) data pois
    else regAccs n id (0x20000000000 + off / 4 * 4) write (bytes + off % 4) ((be % 2 ^ bytes) <<< (off % 4)) (data <<< (8 * (off % 4))) pois 0
  let t : Tlp := ⟨id, write, bar2, if bar2 then off else 0x20000000000 + off, bytes, accs.length, 0, 0, false, 0,
    if write then 0 else ue⟩
  let s1 := s.setHost { s.host with tlpSeq := id + 1, tlps := s.host.tlps ++ [t] }
  if accs.isEmpty then s1.tlpEnd t
  else issueTodo (s1.host.todo ++ accs) s1

/-! ### Descriptors -/

/-- Descriptors of ring `r` in progress. -/
def State.ringDescs (s : State) (r : Nat) : List Desc := s.host.descs.filter (fun d => d.ring == r)

/-- A descriptor of ring `r` fails (R543): HEAD stays there, earlier ones go on, it and later ones are given up with the accesses and host
reads that they still wait for. -/
def State.descFail (s : State) (r index cause : Nat) : State :=
  let head := s.f (HIF_RING_PTR_HEAD r)
  let size := 2 ^ s.ringSize r
  let ago := fun (i : Nat) => (i + size - head) % size
  let keep := fun (d : Desc) => d.ring != r || decide (ago d.index < ago index)
  let gone := s.host.descs.filter (fun d => !keep d)
  let s1 := s.hostSeen (fun i => gone.any (fun d => !d.d2h && !d.moved && d.op == i)) true
  (s1.setHost { s1.host with
    descs := s1.host.descs.filter keep
    todo := s1.host.todo.filter (fun a => !gone.any (fun d => d.id == a.ref)) }).ringError r cause

/-- An operation of source 0 on host memory begins (R32). -/
def State.hostOp (s : State) : State := s.setHost { s.host with opSeq := s.host.opSeq + 1, ops := s.host.ops ++ [s.host.opSeq] }

/-- A write of the rings to host memory; it is visible when a zero-length read issued after it has completed (R32). -/
def State.hostWrite (s : State) (addr bytes data : Nat) (ep : Bool) : State :=
  s.hostOp.setHost { s.hostOp.host with hostWr := (addr, bytes, data, ep) :: s.host.hostWr }

/-- The device accesses of a descriptor for `left` bytes at `a` (R8, R542): registers and apertures by the dword, memory and sector windows
by the line. -/
def devAccs : Nat → Nat → Nat → Bool → Nat → Nat → Bool → List Acc
  | 0, _, _, _, _, _, _ => []
  | f + 1, id, a, write, left, data, poison =>
    if left = 0 then []
    else
      let n := min left (64 - a % 64)
      let p := if poison then 2 ^ (n / 4) - 1 else 0
      (match destOf a with
      | .hub _ => regAccs 16 id a write n (2 ^ n - 1) data p 0
      | .aperture _ _ => regAccs 16 id a write n (2 ^ n - 1) data p 0
      | _ => bar2Accs 1 id (a / 64 * 64) write (a % 64) (2 ^ n - 1) data p) ++
        devAccs f id (a + n) write (left - n) (data >>> (8 * n)) poison

/-- Change the descriptor with number `id`. -/
def State.onDesc (s : State) (id : Nat) (g : Desc → Desc) : State :=
  s.setHost { s.host with descs := s.host.descs.map (fun d => if d.id = id then g d else d) }

/-- The device accesses of descriptor `d` enter the mesh as accesses of source 0, behind those that wait (R29, R542). -/
def State.descIssue (s : State) (d : Desc) : State :=
  let l := devAccs (d.len / 4 + 1) d.id d.dev (!d.d2h) d.len d.data d.poison
  let s1 := s.onDesc d.id (fun x => { x with left := l.length })
  issueTodo (s1.host.todo ++ l) s1

/-- The response to a device access of descriptor `d` has arrived (R542, R543). -/
def State.descTake (s : State) (d : Desc) (a : Acc) (r : Rsp) : State :=
  if r.status ≠ 0 then s.descFail d.ring d.index 4
  else s.onDesc d.id (fun x => { x with
    left := x.left - 1
    data := if x.d2h then (x.data ||| bring a x.dev r) % 2 ^ (8 * x.len) else x.data
    poison := x.poison || (x.d2h && (r.poison &&& wordsIn a x.dev x.len) != 0) })

/-- The response to an access of source 0 has arrived, of a TLP or of a descriptor. -/
def State.hostTake (s : State) (a : Acc) (r : Rsp) : State :=
  match s.host.tlps.find? (fun t => t.id == a.ref) with
  | some t => s.tlpTake t a r
  | none => match s.host.descs.find? (fun d => d.id == a.ref) with
    | some d => s.descTake d a r
    | none => s

/-- HEAD advances past completed descriptors (R542), with the write-back and the vector of each. -/
def advanceHead : Nat → Nat → State → State
  | 0, _, s => s
  | n + 1, r, s =>
    let head := s.f (HIF_RING_PTR_HEAD r)
    match s.host.descs.find? (fun d => d.ring == r && d.index == head) with
    | none => s
    | some d =>
      if d.done then
        let h1 := (head + 1) % 2 ^ s.ringSize r
        let s1 := (s.setHost { s.host with descs := s.host.descs.filter (fun x => !(x.ring == r && x.index == head)) }).put
          (HIF_RING_PTR_HEAD r) h1
        let wb := s1.f (HIF_RING_WB_LO_WB_LO r) * 4 + s1.f (HIF_RING_WB_HI_WB_HI r) * 2 ^ 32
        let s2 := if wb = 0 then s1 else s1.hostWrite wb 4 h1 false
        advanceHead n r (if d.irq then s2.vecPend (s2.f (HIF_RING_CFG_VECTOR r)) else s2)
      else s

end Sys2Proof.Machine
end

