-- ==== Sys2Proof/Machine/Pins.lean ====
section
/-! DEFINITION. Sys2Proof/Machine/Pins.lean: the commands of the pins, the peripherals, the Gondola and the Tether (file 16). -/

namespace Sys2Proof.Machine

/-! ### Owners and GPIO -/

/-- The fields of the registers whose writes change owners that software may write (R560). -/
def ownerMask (off : Nat) : Word :=
  if off = PIN_PERIPH_EN then 0x1FF#32
  else if off = SPI_CTRL then 0x03F800FF#32
  else if PIN_CFG 0 ≤ off ∧ off < PIN_CFG 160 ∧ off % 4 = 0 then 0x800003F8#32
  else 0

/-- A write of PIN_PERIPH_EN, PIN_CFG(i) or SPI_CTRL arrives: the owners follow. -/
def State.ownerWrite (s : State) (off : Nat) (v : Word) : State :=
  (s.setReg off ((s.reg off &&& ~~~ ownerMask off) ||| (v &&& ownerMask off))).pinSwitch

/-- OWNER_CHANGE (R560): the write that changes owners, when `wr` gives it, and the two PINS cycles after which the new owners have their
pins; with none, the cycles after writes that came before. -/
def execOwnerChange (wr : Option (Nat × Word)) (s : State) : Out :=
  .next <|
    match wr with
    | some (off, v) => if ownerMask off = 0 then s.pinHand else (s.ownerWrite off v).pinHand
    | none => s.pinHand

/-- GPIO_SET (R563). -/
def execGpioSet (b : Nat) (v : Word) (s : State) : Out := .next (s.gpioSet b v)

/-- GPIO_CLR (R563). -/
def execGpioClr (b : Nat) (v : Word) (s : State) : Out := .next (s.gpioClr b v)

/-- BANK_SUPPLY_CHANGE (R556, R590): the supply of bank `b` has stayed in a new range for 100 µs: 0 1.8 V, 1 3.3 V, else outside both. -/
def execBankSupplyChange (b range : Nat) (s : State) : Out :=
  .next <|
    if b < 5 then
      let off := fun (n : Nat) => if n.testBit b then n - 2 ^ b else n
      let a := s.f PIN_BANK_STAT_ABSENT
      let v := s.f PIN_BANK_STAT_V33
      let s1 := match range with
        | 0 => (s.put PIN_BANK_STAT_ABSENT (off a)).put PIN_BANK_STAT_V33 (off v)
        | 1 => (s.put PIN_BANK_STAT_ABSENT (off a)).put PIN_BANK_STAT_V33 (v ||| 2 ^ b)
        | _ => (s.put PIN_BANK_STAT_ABSENT (a ||| 2 ^ b)).when (!a.testBit b) (fun t => t.raise 393)
      s1.pinFollow ((List.range 32).map (fun k => 32 * b + k))
    else s

/-- BALL_INPUT_CHANGE (R557): what the board drives onto the balls of `ch` changes, none for a ball that it leaves undriven; GPIO_IN shows
the levels. Fabric-owned pins, whose own output may have moved, are sampled with them. -/
def execBallInputChange (ch : List (Nat × Option Bool)) (s : State) : Out :=
  .next <|
    let l := (ch.map (·.1)).filter (fun i => decide (i < 160))
    let s1 := s.setPin { s.pin with ext := (ch.filter (fun e => decide (e.1 < 160))).foldl (fun m e => mset m (some false) e.1 e.2) s.pin.ext }
    s1.pinFollow (l ++ allPins.filter (fun i => s1.pinOwner i == 1 && !decide (i ∈ l)))

/-! ### UART (R564) -/

/-- UART `u` is enabled and clocked. -/
def State.uartOn (s : State) (u : Nat) : Bool := decide (u < 2) && (s.reg PIN_PERIPH_EN).toNat.testBit u && s.periphRun

/-- UART_TX. -/
def execUartTx (u v : Nat) (s : State) : Out := .next (if u < 2 then s.toBlock 38 (fun t => t.uartPush u v) else s)

/-- UART_TRANSMIT_DONE (R564): `n` bytes have been sent; when none remains, TX_EMPTY becomes 1. -/
def execUartTransmitDone (u n : Nat) (s : State) : Out :=
  .next <|
    let l := mget s.pin.utx [] u
    if s.uartOn u && !l.isEmpty then
      let s1 := s.setPin { s.pin with utx := mset s.pin.utx [] u (l.drop n) }
      if l.length ≤ n then (s1.put (UART_CTRL_TX_EMPTY u) 1).when (s1.on (UART_CTRL_TX_IRQ u)) (fun t => t.raise (384 + u)) else s1
    else s

/-- UART_RECEIVE (R564): a byte arrives at the RX pin; `err`: with a framing or parity error. A full FIFO overflows: ERR, and the byte is
lost. -/
def execUartReceive (u v : Nat) (err : Bool) (s : State) : Out :=
  .next <|
    if s.uartOn u && s.pinOwner (3 + 32 * u) == 2 then
      let l := mget s.pin.urx [] u
      let s1 := if l.length < 16 then
          (s.setPin { s.pin with urx := mset s.pin.urx [] u (l ++ [v % 256 + 256 * b2n err]) }).put (UART_CTRL_RX_COUNT u) (l.length + 1)
        else s
      let s2 := s1.when (err || decide (16 ≤ l.length)) (fun t => t.put (UART_CTRL_ERR u) 1)
      s2.when (s2.on (UART_CTRL_RX_IRQ u)) (fun t => t.raise (384 + u))
    else s

/-- UART_DATA: a read pops the receive FIFO. -/
def execUartData (u : Nat) (s : State) : Out := .next (if u < 2 then s.toBlock 38 (fun t => t.uartPop u) else s)

/-! ### I2C (R564) -/

/-- A command word of I2C_CMD: OP, FAST, DATA. -/
def i2cWord (op v : Nat) (fast : Bool) : Word := BitVec.ofNat 32 (op * 2 ^ 24 + b2n fast * 2 ^ 27 + v % 256)

/-- A write of a command to I2C_CMD(c) with the gate open. -/
def State.i2cCommand (s : State) (c op v : Nat) (fast : Bool) : State :=
  if c < 2 then s.toBlock 38 (fun t => t.i2cWrite c (i2cWord op v fast)) else s

/-- I2C_START. -/
def execI2cStart (c : Nat) (fast : Bool) (s : State) : Out := .next (s.i2cCommand c 1 (s.f (I2C_CMD_DATA c)) fast)
/-- I2C_WRITE. -/
def execI2cWrite (c v : Nat) (fast : Bool) (s : State) : Out := .next (s.i2cCommand c 2 v fast)
/-- I2C_READ_ACK. -/
def execI2cReadAck (c : Nat) (fast : Bool) (s : State) : Out := .next (s.i2cCommand c 3 (s.f (I2C_CMD_DATA c)) fast)
/-- I2C_READ_NACK. -/
def execI2cReadNack (c : Nat) (fast : Bool) (s : State) : Out := .next (s.i2cCommand c 4 (s.f (I2C_CMD_DATA c)) fast)
/-- I2C_STOP. -/
def execI2cStop (c : Nat) (fast : Bool) (s : State) : Out := .next (s.i2cCommand c 5 (s.f (I2C_CMD_DATA c)) fast)

/-- Controller `c` is enabled, clocked and busy. -/
def State.i2cRuns (s : State) (c : Nat) : Bool :=
  decide (c < 2) && (s.reg PIN_PERIPH_EN).toNat.testBit (2 + c) && s.periphRun && s.on (I2C_CMD_BUSY c)

/-- The SDA pin of controller `c`. -/
def sdaPin (c : Nat) : Nat := if c = 0 then 5 else 37

/-- I2C_COMMAND_DONE (R564): the command completes with the bus's answer: the acknowledge of a byte written, the byte read, or the loss of
arbitration. Without the SDA pin the input is 1 (R559): no acknowledge, and a byte of ones. -/
def execI2cCommandDone (c data : Nat) (ack arb : Bool) (s : State) : Out :=
  .next <|
    if s.i2cRuns c then
      let op := mget s.pin.i2cOp 0 c
      let own := s.pinOwner (sdaPin c) == 3
      let s1 := ((s.setPin { s.pin with i2cOp := mset s.pin.i2cOp 0 c 0 }).put (I2C_CMD_BUSY c) 0).when (op == 2)
        (fun t => t.put (I2C_CMD_NACK c) (b2n !(ack && own)))
      let s2 := s1.when (op == 3 || op == 4) (fun t => t.put (I2C_CMD_DATA c) (if own then data else 255))
      (s2.when (arb && own) (fun t => t.put (I2C_CMD_ARB_LOST c) 1)).raise (386 + c)
    else s

/-- I2C_TIMEOUT (R564): stretching beyond 25 ms ends the command; the SCL input of a lost pin is 1 and never stretches. -/
def execI2cTimeout (c : Nat) (s : State) : Out :=
  .next <|
    if s.i2cRuns c && s.pinOwner (sdaPin c - 1) == 3 then
      (((s.setPin { s.pin with i2cOp := mset s.pin.i2cOp 0 c 0 }).put (I2C_CMD_BUSY c) 0).put (I2C_CMD_TIMEOUT c) 1).raise (386 + c)
    else s

/-! ### SPI (R564) -/

/-- SPI_TX. -/
def execSpiTx (v : Nat) (s : State) : Out := .next (s.toBlock 38 (fun t => t.spiPush v))

/-- SPI_FRAME_DONE (R564): the frame at the head has been exchanged for `v`, which is 0 without the MISO pin (R559). A full receive FIFO
takes no further frame (log entry 24). -/
def execSpiFrameDone (v : Nat) (s : State) : Out :=
  .next <|
    match s.pin.spiTx with
    | [] => s
    | _ :: rest =>
      if s.on PIN_PERIPH_EN_SPI && s.periphRun then
        let x := if s.pinOwner 4 = 4 then v % 256 else 0
        let rx := if s.pin.spiRx.length < 16 then s.pin.spiRx ++ [x] else s.pin.spiRx
        let s1 := (s.setPin { s.pin with spiTx := rest, spiRx := rx }).put SPI_CTRL_RX_COUNT rx.length
        if rest.isEmpty then
          ((s1.put SPI_CTRL_BUSY 0).pinFollow [5, 6, 7, 8]).when (s1.on SPI_CTRL_IRQ) (fun t => t.raise 388)
        else s1
      else s

/-- SPI_DATA: a read pops the received frame. -/
def execSpiData (s : State) : Out := .next (s.toBlock 38 State.spiPop)

/-! ### TRIG lines (R565) -/

/-- TRIG_PULSE: a request for line `k` arrives; the pulse starts, or goes on for WIDTH + 1 cycles more. -/
def execTrigPulse (k : Nat) (s : State) : Out :=
  .next <|
    if k ∈ s.pin.trigReq then
      (s.setPin { s.pin with trigReq := s.pin.trigReq.erase k, pulse := ladd s.pin.pulse k }).pinFollow [156 + k]
    else s

/-- TRIG_PULSE_END: WIDTH + 1 cycles after the last request. -/
def execTrigPulseEnd (k : Nat) (s : State) : Out :=
  .next (if k ∈ s.pin.pulse then (s.setPin { s.pin with pulse := ldel s.pin.pulse k }).pinFollow [156 + k] else s)

/-- TRIG_INPUT_EDGE: the board drives line `k` to `lvl`; a selected edge raises EV_PIN_TRIGk. -/
def execTrigInputEdge (k : Nat) (lvl : Bool) (s : State) : Out :=
  .next <|
    if k < 4 then (s.setPin { s.pin with ext := mset s.pin.ext (some false) (156 + k) (some lvl) }).pinFollow [156 + k] else s

/-! ### The Gondola -/

/-- The module is gone (R568, R578): the load or transfer that the port serves ends with SOURCE_LOST, a program operation in progress
with the alarm; what waits finds no module when its turn comes. -/
def State.gdlGone (s : State) : State :=
  let s1 := ((s.put GDL_STAT_PRESENT 0).each (List.range 16) (fun w t => t.setReg (GDL_ID w) 0)).raise 397
  if s1.gdlLoad then s1.cfgFail 0x08 0 0
  else match s1.tail.xfer.filter (fun x => x.wait == 0) with
    | some x => if x.imp then s1.xferEnd 4 else (s1.xferEnd 4).raiseAlarm 2
    | none =>
      match s1.pin.gdl with
      | x :: _ => if x.out then (s1.gdlEnd 2).raiseAlarm 2 else s1.gdlEnd 2
      | [] => s1

/-- GONDOLA_POLL (R568, R569): one poll of the EEPROM; `rec`: the bytes of the record where the M9 reads it. -/
def execGondolaPoll (ack : Bool) (rec : List Nat) (s : State) : Out :=
  .next <|
    let s1 := s.setPin { s.pin with poll := some ack }
    let s2 := if ack ∧ s.pin.poll = some true ∧ !s.on GDL_STAT_PRESENT then
        (((s1.put GDL_STAT_PRESENT 1).put GDL_STAT_LOW_LIFE 0).recRead rec).raise 396
      else if !ack ∧ s.pin.poll = some false ∧ s.on GDL_STAT_PRESENT then s1.gdlGone
      else if ack ∧ s.pin.reread ∧ s.on GDL_STAT_PRESENT then s1.recRead rec
      else s1
    s2.settle

/-- GONDOLA_TO_HBM (R570). -/
def execGondolaToHbm (len : Nat) (s : State) : Out := .next (s.gdlGo false len)

/-- HBM_TO_GONDOLA (R570). -/
def execHbmToGondola (len : Nat) (s : State) : Out := .next (s.gdlGo true len)

/-- GONDOLA_ABORT (R570). -/
def execGondolaAbort (s : State) : Out := .next (s.gdlEnd 8)

/-- Lines that arrive from the Gondola go to HBM as full lines of source 20 (R570). -/
def gdlStore : List Nat → Nat → State → State
  | [], _, s => s
  | d :: t, a, s =>
    gdlStore t (a + 64) (if a < 0x001680000000 then (s.hubWrite 20 a 64 d 0).1 else s)

/-- `n` lines of HBM are read by source 20 (R570): how many returned neither poison nor error status before the first that did, and their
bytes. -/
def gdlFetch : Nat → Nat → State → State × Nat × Nat
  | 0, _, s => (s, 0, 0)
  | n + 1, a, s =>
    if a < 0x001680000000 then
      let d := s.hubRead 20 a 64 []
      if d.2.poison || d.2.err then (d.1, 0, 0)
      else
        let r := gdlFetch n (a + 64) d.1
        (r.1, r.2.1 + 1, d.2.data + r.2.2 * 2 ^ 512)
    else (s, 0, 0)

/-- GONDOLA_TRANSFER_END (R569, R570): the oldest transfer has run and ends with `cause`, the outcome at the module, unless a rule refuses
it; `lines`: the lines that came from the Gondola, or as many as were read from HBM, where a block is programmed once all of it was read;
`rec`: the record reread after a write. -/
def execGondolaTransferEnd (cause : Nat) (lines rec : List Nat) (s : State) : Out :=
  .next <|
    match s.pin.gdl with
    | [] => s
    | x :: _ =>
      if s.gdlFree then
        match s.gdlRefused x with
        | some c => s.gdlEnd c
        | none =>
          let n := if cause = 0 then 64 * x.len else min lines.length (64 * x.len)
          if x.out then
            let r := gdlFetch n (x.hbm * 2 ^ 16) s
            let whole := if r.2.1 = n then r.2.2 else r.2.2 % 2 ^ (32768 * (r.2.1 / 64))
            let t := r.1.setPin { r.1.pin with sent := some (x.gaddr * 4096, whole) }
            ((t.gdlEnd (if r.2.1 = n then cause % 256 else 5)).recRead rec).settle
          else ((gdlStore ((List.range n).map (fun i => lines.getD i 0)) (x.hbm * 2 ^ 16) s).gdlEnd (cause % 256)).settle
      else s

/-! ### The Tether -/

/-- A write to the data window (R573): register 0 TET_OUT_LO, 1 TET_OUT_HI, 2 TET_OE_LO, 3 TET_OE_HI, 4 the 64 bits of TET_OUT, 5 those of
TET_OE. -/
def State.tetWrite (s : State) (reg v : Nat) : State :=
  let lo := BitVec.ofNat 32 v
  let hi := BitVec.ofNat 32 (v / 2 ^ 32)
  let s1 := match reg with
    | 0 => s.setReg TET_OUT_LO lo
    | 1 => s.setReg TET_OUT_HI lo
    | 2 => s.setReg TET_OE_LO lo
    | 3 => s.setReg TET_OE_HI lo
    | 4 => (s.setReg TET_OUT_LO lo).setReg TET_OUT_HI hi
    | 5 => (s.setReg TET_OE_LO lo).setReg TET_OE_HI hi
    | _ => s
  s1.tetSend0

/-- The register offset of a write to the data window. -/
def tetOff (reg : Nat) : Nat :=
  match reg with
  | 0 | 4 => TET_OUT_LO
  | 1 => TET_OUT_HI
  | 2 | 5 => TET_OE_LO
  | _ => TET_OE_HI

/-- TET_OUT_WRITE (R573): dropped when the Tether is gated (R161); held, and waking the device, when a power state has shut it (R520,
R524). -/
def execTetOutWrite (reg v : Nat) (s : State) : Out :=
  .next <|
    if s.regHeld (tetOff reg) then
      let t := s.heldWake.holdWrite 17 (tetOff reg) (BitVec.ofNat 32 v)
      if 4 ≤ reg then t.holdWrite 17 (tetOff reg + 4) (BitVec.ofNat 32 (v / 2 ^ 32)) else t
    else s.toBlock 37 (fun t => t.tetWrite reg v)

/-- TETHER_REFRESH (R572): OUT and CFG every 1 µs. -/
def execTetherRefresh (s : State) : Out := .next ((s.tetSend0).tetSend1 (.cfg none))

/-- OUT (R572, R577): the message in progress on channel 0 ends at the target side; `up`: groups of it whose bits were inverted on the
way. -/
def execOutMsg (up : List (Nat × Nat)) (s : State) : Out :=
  .next <|
    match s.pin.tet.msg0 with
    | none => s
    | some (o, e) =>
      let t := { s.pin.tet with msg0 := none }
      let s1 := match tetPass 0x01 t.seq0 (toBytes 8 o ++ toBytes 8 e) up with
        | some (1, d) => s.setTet { t with out := d % 2 ^ 64, oe := d / 2 ^ 64 % 2 ^ 64, silent := false }
        | some _ => s.setTet t
        | none => (s.setTet t).tetBad
      (if t.due0 then s1.tetSend0 else s1).tetTold

/-- What a message of channel 1 does at the target side (R575, R577). -/
def Tether.take (t : Tether) (m : TetMsg) : Tether :=
  match m with
  | .cfg p => { t with pull := p }
  | .clk a b => { t with ckA := a, ckB := b }
  | .pulse m => { t with pulse := if t.silent then 0 else m }

/-- The message `m` in progress on channel 1 ends at the target side (R572). -/
def State.tetEnd1 (s : State) (m : TetMsg) (up : List (Nat × Nat)) : State :=
  let t := { s.pin.tet with msg1 := none }
  let s1 := match tetPass m.body.1 t.seq1 m.body.2 up with
    | some (ty, d) => s.setTet (((TetMsg.ofBody ty d).map t.take).getD t)
    | none => (s.setTet t).tetBad
  s1.tetNext1.tetTold

/-- CFG (R572, R577). -/
def execCfgMsg (up : List (Nat × Nat)) (s : State) : Out :=
  .next <|
    match s.pin.tet.msg1 with
    | some (.cfg p) => s.tetEnd1 (.cfg p) up
    | _ => s

/-- CLK (R572, R575). -/
def execClkMsg (up : List (Nat × Nat)) (s : State) : Out :=
  .next <|
    match s.pin.tet.msg1 with
    | some (.clk a b) => s.tetEnd1 (.clk a b) up
    | _ => s

/-- PULSE (R572, R575): one high pulse on each clock output of the mask. -/
def execPulseMsg (up : List (Nat × Nat)) (s : State) : Out :=
  .next <|
    match s.pin.tet.msg1 with
    | some (.pulse m) => s.tetEnd1 (.pulse m) up
    | _ => s

/-- A valid message from the target resumes a lost link (R576). -/
def State.tetResume (s : State) : State := if s.f TET_STAT_STATE = 3 then s.put TET_STAT_STATE 1 else s

/-- IN (R572, R573, R576): the target side samples the TP inputs, `v`, and sends them on channel 2. -/
def execInMsg (v : Nat) (up : List (Nat × Nat)) (s : State) : Out :=
  .next <|
    let r := tetPass 0x11 s.pin.tet.seq2 (toBytes 8 v) up
    let s1 := s.setTet { s.pin.tet with seq2 := (s.pin.tet.seq2 + 1) % 256 }
    if s1.f TET_STAT_STATE = 0 then s1
    else match r with
      | some (0x11, d) => ((s1.setReg TET_IN_LO (BitVec.ofNat 32 d)).setReg TET_IN_HI (BitVec.ofNat 32 (d / 2 ^ 32))).tetResume
      | some _ => s1
      | none => s1.tetBad

/-- What the payload of STATUS is: VT, and the counts of the clock inputs, at places of the model's (log entry 55). -/
def Tether.statusOf (t : Tether) (vt : Nat) : Nat := vt % 2 ^ 12 + t.khz0 % 2 ^ 18 * 2 ^ 12 + t.khz1 % 2 ^ 18 * 2 ^ 30

/-- A valid STATUS with payload `d` (R575, R576): a link that was LINKING is UP; VT below VT_MIN loses it. -/
def State.tetStatus (s : State) (d : Nat) : State :=
  let s1 := ((s.put TET_STAT_VT (bitsOf d 11 0)).put (TET_CKIN_KHZ 0) (bitsOf d 29 12)).put (TET_CKIN_KHZ 1) (bitsOf d 47 30)
  let s2 := if s.f TET_STAT_STATE = 1 then s1.tetUp else s1.tetResume
  if s2.f TET_STAT_STATE = 2 ∧ s2.f TET_STAT_VT < s2.f TET_CTRL_VT_MIN then s2.tetLost 2 else s2

/-- STATUS (R572, R575, R576): the target side sends `vt` and its clock-input counts on channel 3. -/
def execStatusMsg (vt : Nat) (up : List (Nat × Nat)) (s : State) : Out :=
  .next <|
    let r := tetPass 0x12 s.pin.tet.seq3 (toBytes 8 (s.pin.tet.statusOf vt)) up
    let s1 := s.setTet { s.pin.tet with seq3 := (s.pin.tet.seq3 + 1) % 256 }
    if s1.f TET_STAT_STATE = 0 then s1
    else match r with
      | some (0x12, d) => s1.tetStatus d
      | some _ => s1
      | none => s1.tetBad

/-- TETHER_LOSS (R576): no valid IN message for LOSS_TMO. -/
def execTetherLoss (s : State) : Out := .next (if s.f TET_STAT_STATE = 2 then s.tetLost 1 else s)

/-- TARGET_SILENCE (R577): no valid message on channel 0 for 2 µs: the target side releases its outputs. -/
def execTargetSilence (s : State) : Out := .next (s.setTet { s.pin.tet with silent := true, pulse := 0 })

/-- CKIN_WINDOW (R575): the target side has measured its clock inputs. -/
def execCkinWindow (k0 k1 : Nat) (s : State) : Out := .next (s.setTet { s.pin.tet with khz0 := k0, khz1 := k1 })

end Sys2Proof.Machine
end

