-- ==== Sys2Proof/Machine/Power.lean ====
section
/-! DEFINITION. Sys2Proof/Machine/Power.lean: the commands of the block gates (R159 to R163), of Ballast and of the power states (file
14). -/

namespace Sys2Proof.Machine

/-! ### Gates -/

/-- GATE_CLOSE (R159): software writes 0 to gate bit `i`. -/
def execGateClose (i : Nat) (s : State) : Out := .next (s.gateClose i)

/-- GATE_STOP (R159, R163): the bus interface of a closing block is idle, and its clock stops. -/
def execGateStop (i : Nat) (s : State) : Out :=
  .next <|
    if isGate i && s.gateSt i == .closing && (decide (i < 32) || decide (36 ≤ i) || (s.waits (64 + 4 * (i - 32))).isEmpty) then
      (s.gateStopped i).latSettle.settle
    else s

/-- GATE_TIMEOUT (R160): 64 block-clock cycles have passed: what is pending completes with zeros and normal status, and the clock stops. -/
def execGateTimeout (i : Nat) (s : State) : Out :=
  .next <|
    if isGate i && s.gateSt i == .closing then
      let s1 := (s.log CLK_GATE_STAT_CLK_GATE_FORCED CLK_GATE_STAT_OVF (fun t => t.put CLK_GATE_STAT_BLOCK i)).raise 131
      let s2 := if 32 ≤ i ∧ i < 36 then tgtAnswerAll (s1.waits (64 + 4 * (i - 32))).length (64 + 4 * (i - 32)) ⟨0, 0, 0, 0⟩ s1 else s1
      (s2.gateStopped i).latSettle.settle
    else s

/-- GATE_OPEN (R162): software writes 1 to gate bit `i`. -/
def execGateOpen (i : Nat) (s : State) : Out := .next (s.gateOpen i).latSettle

/-! ### Ballast -/

/-- BALLAST_WINDOW (R505, R508 to R510, R516): the first edge of a window: `m`, the charge that each consumer has drawn since the meters
were last read, in TF; `temps`, the readings of the four chiplets and the hub. At another edge, or when the window has been opened,
nothing happens. -/
def execBallastWindow (m : List Nat) (temps : List Int) (s : State) : Out := .next (if s.balDue then s.balWindow m temps else s)

/-- OVER (R506): the meters report; a reserved consumer that exceeds its reservation in the window sets OVER. -/
def execConsumerOver (m : List Nat) (s : State) : Out := .next (s.meterRead m)

/-- MEMORY_PORT_STOP (R512): the meters report; an allowance of consumer 16 below 0 stops the stack controllers' ports. -/
def execMemoryPortStop (m : List Nat) (s : State) : Out := .next (s.meterRead m)

/-- DROOP_TRIP (R513, R515): the droop detector of a die (0 to 3 chiplets, 4 hub) trips. -/
def execDroopTrip (die : Nat) (s : State) : Out :=
  .next <|
    let s1 := ((s.satF BAL_DROOP_STAT_COUNT 1).put BAL_DROOP_STAT_SOURCE die).raise 336
    let s2 := s1.when (!s1.on BAL_STAT_CLAMP) (fun t => t.setBal { t.bal with clampFig := t.fig.toNat })
    if s1.on BAL_CTRL_DROOP_EN then (s2.put BAL_STAT_CLAMP 1).balSettle else s1

/-- DROOP_RELEASE (R514): every detector has read above the release level for CLAMP_MIN figures. -/
def execDroopRelease (s : State) : Out := .next (if s.on BAL_STAT_CLAMP then (s.put BAL_STAT_CLAMP 0).balSettle else s)

/-! ### Power states -/

/-- POWER_REQUEST (R523): a write of STATE to BAL_PWR_REQ. -/
def execPowerRequest (st : Nat) (s : State) : Out := .next (s.powerRequest st)

/-- WAKE (R524): a write of WAKE, or a wake event that a state of the device is. -/
def execPowerWake (soft : Bool) (s : State) : Out := .next (if soft then s.wake 4 else s.wakeCheck)

end Sys2Proof.Machine
end

