-- ==== Sys2Proof/Machine/SecurityOps.lean ====
section
/-! DEFINITION. Sys2Proof/Machine/SecurityOps.lean: protected registers and their unlock sequences (R548), fuse commands (R547), key slots
(R546), alarms as registers (R550, R553), and which writes a security state refuses (R545). -/

namespace Sys2Proof.Machine

/-- A write that is accepted. -/
def rspOk : Rsp := ⟨0, 0, 0, 0⟩
/-- STATUS TARGET with CAUSE 0x60 LOCKED. -/
def rspLocked : Rsp := ⟨4, 0x60, 0, 0⟩
/-- STATUS TARGET with CAUSE 0x61 DENIED_SEC. -/
def rspDenied : Rsp := ⟨4, 0x61, 0, 0⟩

/-- The debug port (R481). -/
def isDbg (src : Nat) : Bool := src == 21 || src == 22

/-! ### Unlock sequences (R548) -/

/-- The key value. -/
def unlockKey : Word := 0x7A1EC3A5#32

/-- A write to protected register `reg` is dropped (R548): SEC_LOCK_STAT names the source of the first one. -/
def State.lockFail (s : State) (src reg : Nat) : State :=
  if s.on SEC_LOCK_STAT_LOCK_FAIL then s
  else ((s.put SEC_LOCK_STAT_LOCK_FAIL 1).put SEC_LOCK_STAT_SRC src).put SEC_LOCK_STAT_REG reg

/-- The open sequence of a protected register. -/
def State.unlockOf (s : State) (reg : Nat) : Option Unlock := mget s.sec.unlock none reg

/-- Open or close the sequence of a protected register. -/
def State.setUnlock (s : State) (reg : Nat) (u : Option Unlock) : State :=
  s.setSec { s.sec with unlock := mset s.sec.unlock none reg u }

/-! ### Fuse commands (R547) -/

/-- The words of SEC_KEY_DATA 0 to `n` - 1 as one number. -/
def State.keyWords (s : State) : Nat → Nat
  | 0 => 0
  | n + 1 => s.keyWords n + (mget s.sec.keyData 0 n).toNat * 2 ^ (32 * n)

/-- SK_HASH slots that are programmed and not revoked. -/
def Fuses.liveSk (x : Fuses) : List Nat := (List.range 4).filter (fun k => (mget x.sk none k).isSome && !decide (k ∈ x.revoked))

/-- Why a fuse command is not permitted: 1 STATE, 2 SLOT_USED, 3 LAST_SLOT; none when it may run. -/
def State.fuseCause (s : State) (op slot : Nat) : Option Nat :=
  let st := s.secState
  let x := s.sec.fuses
  if s.on SEC_FUSE_STAT_BUSY then some 1
  else match op with
    | 1 => if st = 0 ∧ x.liveSk ≠ [] then none else some 1
    | 2 => if st = 1 then none else some 1
    | 3 => if st = 2 then some 1 else if (mget x.sk none slot).isSome then some 2 else none
    | 4 => if x.liveSk.any (fun k => k != slot) then none else some 3
    | 5 => if st = 2 then some 1 else if x.dbg.isSome then some 2 else none
    | 6 => if st = 2 then some 1 else if slot = 0 ∨ (mget x.key none slot).isSome then some 2 else none
    | 7 => none
    | _ => some 1

/-- A fuse command is refused. -/
def State.fuseRefuse (s : State) (cause : Nat) : State :=
  ((s.put SEC_FUSE_STAT_ERR 1).put SEC_FUSE_STAT_CAUSE cause).raise 362

/-- The write that SEC_FUSE_CMD accepts: the command starts, or is refused; it clears SEC_KEY_DATA. -/
def State.fuseCommand (s : State) (src : Nat) (v : Word) : State × Rsp :=
  let s0 := s.setSec { s.sec with keyData := [] }
  if src = 17 ∨ (src = 0 ∧ s.secState = 0) then
    match s.fuseCause (fget v 31 28) (fget v 1 0) with
    | some c => (s0.fuseRefuse c, rspOk)
    | none =>
      ((s0.setSec { s0.sec with fuseCmd := some (fget v 31 28, fget v 1 0), fuseData := s.keyWords 12 }).put SEC_FUSE_STAT_BUSY 1, rspOk)
  else (s0.fuseRefuse 5, rspDenied)

/-- SEC_FUSE_STAT and PENDING follow the fuses. -/
def State.fuseShow (s : State) : State :=
  let x := s.sec.fuses
  let ks := fun (m : List (Nat × Option Nat)) (l : List Nat) => packBits (l.map (fun k => (mget m none k).isSome))
  (((((s.put SEC_FUSE_STAT_VERSION x.version).put SEC_FUSE_STAT_SK_PROG (ks x.sk (List.range 4))).put SEC_FUSE_STAT_SK_REVOKED
    (packBits ((List.range 4).map (fun k => decide (k ∈ x.revoked))))).put SEC_FUSE_STAT_DBG_PROG (b2n x.dbg.isSome)).put
    SEC_FUSE_STAT_KEY_PROG (ks x.key [1, 2, 3])).put SEC_STATE_PENDING (if x.sealed then 2 else if x.bound then 1 else 0)

/-- What a fuse command that succeeds leaves in the fuses. -/
def Fuses.apply (x : Fuses) (op slot data : Nat) : Fuses :=
  match op with
  | 1 => { x with bound := true }
  | 2 => { x with sealed := true }
  | 3 => { x with sk := mset x.sk none slot (some data) }
  | 4 => { x with revoked := ladd x.revoked slot }
  | 5 => { x with dbg := some data }
  | 6 => { x with key := mset x.key none slot (some (data % 2 ^ 256)) }
  | 7 => { x with version := min 64 (x.version + 1) }
  | _ => x

/-! ### Key slots (R546) -/

/-- The write that SEC_KEY_CMD accepts: LOAD or CLEAR of a volatile slot. -/
def State.keyCommand (s : State) (src : Nat) (v : Word) : State × Rsp :=
  let op := fget v 31 28
  let slot := fget v 2 0
  if src = 17 ∨ (src = 0 ∧ s.secState = 0) then
    if op = 1 ∨ op = 2 then
      if slot < 4 then (s.setSec { s.sec with keyData := [] }, rspDenied)
      else
        (s.setSec { s.sec with
          keyData := []
          slots := mset s.sec.slots none slot (if op = 1 then some (s.keyWords 8) else none) }, rspOk)
    else (s, rspOk)
  else (s, rspDenied)

/-! ### Alarms (R550, R553) -/

/-- SEC_ALARM_CFG takes a value: bits 3 to 5 read 1, and in Sealed all are read-only. An alarm that becomes one of action ALARM has
the effects of R551. -/
def State.alarmCfg (s : State) (v : Word) : State :=
  if s.secState = 2 then s
  else
    let t := s.put SEC_ALARM_CFG_ACTION (fget v 6 0 ||| 0x38)
    if t.alarmed && !s.alarmed then t.setSec { t.sec with alarmDue := true } else t

/-- The source may clear alarms (R553). -/
def State.alarmSrc (s : State) (src : Nat) : Bool :=
  src == 17 || (s.secState == 0 && (src == 0 || isDbg src))

/-- A write of SEC_ALARM: bits to clear and RAISE. -/
def State.alarmWrite (s : State) (src : Nat) (v : Word) : State × Rsp :=
  if fget v 6 0 ≠ 0 ∧ !s.alarmSrc src then (s, rspDenied)
  else
    let s1 := s.setReg SEC_ALARM (s.reg SEC_ALARM &&& ~~~ (v &&& 0x7F#32))
    (if fget v 31 31 = 1 then s1.raiseAlarm 6 else s1, rspOk)

/-! ### Protected registers (R548) -/

/-- A write of `v` by source `src` to protected register `reg` (0 SEC_FUSE_CMD, 1 SEC_KEY_CMD, 2 SEC_ALARM_CFG); `late`: its target
accepts it more than 64 MESH cycles after the first write of an open sequence. -/
def State.protWrite (s : State) (src reg : Nat) (v : Word) (late : Bool) : State × Rsp :=
  let locked := (s.lockFail src reg, rspLocked)
  if isDbg src then locked
  else match s.unlockOf reg with
    | none => if v = unlockKey then (s.setUnlock reg (some ⟨src, s.fig.toNat⟩), rspOk) else locked
    | some u =>
      if late then
        if v = unlockKey then (s.setUnlock reg (some ⟨src, s.fig.toNat⟩), rspOk)
        else ((s.setUnlock reg none).lockFail src reg, rspLocked)
      else if u.src = src then
        let s1 := s.setUnlock reg none
        match reg with
        | 0 => s1.fuseCommand src v
        | 1 => s1.keyCommand src v
        | _ => (s1.alarmCfg v, rspOk)
      else locked

/-- More than 64 figures have gone by since the first write of the open sequence of `reg`: what the model takes for the 64 MESH cycles of
R548 when a write comes through the mesh. -/
def State.unlockLate (s : State) (reg : Nat) : Bool :=
  match s.unlockOf reg with
  | some u => decide (u.time + 64 < s.fig.toNat)
  | none => false

/-- The challenge that was given (R549): the UID, then the nonce; word k in bits 32k + 31 to 32k. -/
def State.challenge (s : State) (nonce : Nat) : Nat := s.sec.fuses.uid % 2 ^ 128 + nonce % 2 ^ 256 * 2 ^ 128

/-- A Capture-DR of AUTH (R488, R549): the next word of the challenge; 0 after a lock-out, and where no challenge stands. What a thirteenth
capture returns is not in the spec and free. -/
def State.authCapture (s : State) : State :=
  match s.sec.nonce with
  | none => s.setScan { s.scan with dr := 0 }
  | some n =>
    if s.on SEC_AUTH_STAT_LOCKED_OUT then s.setScan { s.scan with dr := 0 }
    else if s.sec.authWord < 12 then
      (s.setSec { s.sec with authWord := s.sec.authWord + 1 }).setScan { s.scan with dr := s.challenge n / 2 ^ (32 * s.sec.authWord) % 2 ^ 32 }
    else (s.setScan { s.scan with dr := s.freeVal % 2 ^ 32 }).freeNext

/-- A write by the host to the SECURITY block or the STW block, which Bound and Sealed refuse (R545). -/
def State.hostBlocked (s : State) (src off : Nat) : Bool :=
  src == 0 && s.secState != 0 && (decide (0xB00000 ≤ off ∧ off < 0xC00000) || decide (0x1100000 ≤ off ∧ off < 0x1200000))

/-- A write to P of core `c` through ST_MEM_DATA that the security state refuses (R545). -/
def State.pDenied (s : State) (src c : Nat) : Bool :=
  (s.f (ST_MEM_ADDR_ADDR c)) / 2 ^ 14 == 0 &&
    (match s.secState with
     | 0 => false
     | 1 => !(src == 17 || src == 20 || (isDbg src && s.perms.testBit 1))
     | _ => !(src == 17 || src == 20))

/-- A write of `v` to protected register `reg` by source `src`, with the guard of R545 and what follows by itself. -/
def State.protCmd (s : State) (src reg : Nat) (v : Word) (late : Bool) : State :=
  if s.hostBlocked src 0xB00000 then s else (s.protWrite src reg v late).1.settle

/-- The word of SEC_FUSE_CMD or SEC_KEY_CMD with an OP and a SLOT. -/
def cmdWord (op slot : Nat) : Word := BitVec.ofNat 32 (op * 2 ^ 28 + slot)

end Sys2Proof.Machine
end

