-- ==== Sys2Proof/Machine/RunControl.lean ====
section
/-! DEFINITION. Sys2Proof/Machine/RunControl.lean: the run-control registers (R487, R490 to R501): halts, resumes, feeds, a halted core's
registers, and their commands. -/

namespace Sys2Proof.Machine

/-- Source `src` reaches the DEBUG block beside DBG_STAT (R487). -/
def State.dbgReach (s : State) (src : Nat) : Bool := isDbg src || s.on DBG_CTRL_SYS_EN

/-- A halt, step, feed or register access of a core (R490, R545): nothing where the source does not reach the block; refused while not
attached, or in Bound without PERMS.CORE; otherwise `g`. -/
def State.dbgOp (s : State) (src c : Nat) (g : State → State) : State :=
  if !s.dbgReach src || decide (17 ≤ c) then s
  else if !s.attached then s.dbgRefuse 2
  else if s.secState ≠ 0 ∧ !s.perms.testBit 0 then s.dbgRefuse 1
  else g s

/-- A halt cause of core `c`, with what its halt brings when it comes at once (R493, R494, R501). -/
def State.haltReq (s : State) (c why unit : Nat) : State :=
  let t := s.haltCause c why unit
  if s.coreSt c ≠ 3 ∧ t.coreSt c = 3 then t.haltSpread c why else t

/-! ### Feeding (R498) -/

/-- The meaning of an instruction of kind `k` as a feed; none: refused with FCAUSE ILLEGAL. -/
def feedFn (k : Nat) : Option (Nat → Word → State → CRes) :=
  if k < 8 then some (insnMac k 0 true)
  else if 32 ≤ k ∧ k < 46 then some (insnAlu (k - 32))
  else match k with
    | 46 => some insnAddp
    | 48 => some insnAsh
    | 49 => some insnAsat
    | 50 => some insnArnd
    | 51 => some insnAadd
    | 64 => some (insnLoad true)
    | 65 => some (insnStore true)
    | 66 => some (insnLineLoad true)
    | 67 => some (insnLineStore true)
    | 93 => some insnNop
    | 96 => some insnMovx
    | 97 => some insnLdi
    | 98 => some insnLdih
    | _ => none

/-- A feed of `w` to halted core `c` (R498, R500); none: an earlier feed has not completed, or no tag is free, and the write waits. -/
def State.feed (s : State) (c : Nat) (w : Word) : Option State :=
  if !s.coreClock c || s.coreSt c != 3 then some s
  else if (s.coreOf c).stall.isSome then none
  else match (insnKind w).bind feedFn with
    | none => some (s.feedRefuse c 1)
    | some f =>
      match f c w s with
      | .wait => none
      | r => some (s.retire c (s.pcOf c) true r)

/-! ### The registers of a halted core (R497) -/

/-- A register access to core `c` completes with NOT_HALTED. -/
def rspNotHalted : Rsp := ⟨4, 0x40, 0, 0⟩

/-- A read of DBG_CORE_PC (`pc`) or DBG_CORE_RDATA; a gated core answers zeros (R500). -/
def State.coreRegRead (s : State) (c : Nat) (pc : Bool) : Rsp :=
  if !s.coreClock c then rspOk
  else if s.coreSt c ≠ 3 then rspNotHalted
  else if pc then ⟨0, 0, s.pcOf c, 0⟩
  else
    let cls := s.f (DBG_CORE_RSEL_CLS c)
    let idx := s.f (DBG_CORE_RSEL_IDX c)
    ⟨0, 0, if regNamed cls idx then (s.coreOf c).readReg cls idx else 0, 0⟩

/-- A write of DBG_CORE_PC or DBG_CORE_RDATA: the program space of ST0 to ST15 stays P. -/
def State.coreRegWrite (s : State) (c : Nat) (pc : Bool) (v : Word) : State × Rsp :=
  if !s.coreClock c then (s, rspOk)
  else if s.coreSt c ≠ 3 then (s, rspNotHalted)
  else if pc then
    (s.setPc c (fget v 15 2 * 4 + (if c = 16 then fget v 16 16 else s.f (ST_STAT_PCR c)) * 2 ^ 16), rspOk)
  else
    let cls := s.f (DBG_CORE_RSEL_CLS c)
    let idx := s.f (DBG_CORE_RSEL_IDX c)
    (if regNamed cls idx then s.regWrite c cls idx (if reg32 cls then v.toNat else v.toNat % 2 ^ 16) else s, rspOk)

/-! ### The block -/

/-- The core that offset `off` of the block belongs to, and the offset within its registers. -/
def dbgCore (off : Nat) : Option (Nat × Nat) :=
  if 0xF01000 ≤ off ∧ off < 0xF02100 then some ((off - 0xF01000) / 0x100, (off - 0xF01000) % 0x100) else none

/-- DBG_CORE_STAT as it reads: GATED, and PC while halted. -/
def State.dbgCoreStat (s : State) (c : Nat) : Word :=
  let v := fput (s.reg (DBG_CORE_STAT c)) 20 20 (b2n (!s.coreClock c))
  fput v 15 0 (if s.coreSt c = 3 then s.f (ST_STAT_PC c) else 0)

/-- A read of the register at offset `off` of the DEBUG block by source `src`: CAUSE and data. -/
def State.dbgRead (s : State) (src off : Nat) : State × Rsp :=
  if off = DBG_STAT then (s, ⟨0, 0, (s.reg off).toNat, 0⟩)
  else if !s.dbgReach src then (s, rspOk)
  else match dbgCore off with
    | none => (s, ⟨0, 0, (s.reg off).toNat, 0⟩)
    | some (c, o) =>
      if o = 4 then (s, ⟨0, 0, (s.dbgCoreStat c).toNat, 0⟩)
      else if o = 8 ∨ o = 0x14 then
        if !s.attached then (s.dbgRefuse 2, rspOk)
        else if s.secState ≠ 0 ∧ !s.perms.testBit 0 then (s.dbgRefuse 1, rspDenied)
        else (s, s.coreRegRead c (o == 8))
      else if o = 0 then (s, ⟨0, 0, (s.reg off &&& 0x1C000000#32).toNat, 0⟩)
      else if o = 0xC then (s, rspOk)
      else (s, ⟨0, 0, (s.reg off).toNat, 0⟩)

/-- A write of DBG_CTRL by the debug port (R487, R490, R492). -/
def State.dbgCtrl (s : State) (src : Nat) (v : Word) : State :=
  if isDbg src then
    let s1 := s.put DBG_CTRL_SYS_EN (fget v 28 28)
    let s2 := if fget v 31 31 = 1 then s1.attach else s1
    if fget v 30 30 = 1 then s2.detach else s2
  else s

/-- A write of DBG_CORE_CTRL: the fields, then RESUME, STEP and HALT. -/
def State.dbgCoreCtrl (s : State) (src c : Nat) (v : Word) : State :=
  let s1 := s.setReg (DBG_CORE_CTRL c) (v &&& 0x1C000000#32)
  let s2 := if fget v 30 30 = 1 then s1.dbgOp src c (fun t => t.coreResume c false)
    else if fget v 29 29 = 1 then s1.dbgOp src c (fun t => t.coreResume c true) else s1
  if fget v 31 31 = 1 then s2.dbgOp src c (fun t => t.haltReq c 0 0) else s2

/-- A write of the register at offset `off` of the DEBUG block; none: a feed waits. -/
def State.dbgWrite (s : State) (src off : Nat) (v : Word) : State × Option Rsp :=
  let ok := fun (t : State) => (t, some rspOk)
  if !s.dbgReach src then ok s
  else if off = DBG_CTRL then ok (s.dbgCtrl src v)
  else if off = DBG_STAT then ok (s.setReg off (s.reg off &&& ~~~ (v &&& 0x80000000#32)))
  else if off = DBG_XTRIG then ok (s.setReg off (v &&& 0xE001FFFF#32))
  else match dbgCore off with
    | none => ok s
    | some (c, o) =>
      if o = 0 then ok (s.dbgCoreCtrl src c v)
      else if o = 4 then ok (s.setReg off (s.reg off &&& ~~~ (v &&& 0x70000000#32)))
      else if o = 8 ∨ o = 0x14 then
        if !s.attached then ok (s.dbgRefuse 2)
        else if s.secState ≠ 0 ∧ !s.perms.testBit 0 then (s.dbgRefuse 1, some rspDenied)
        else
          let r := s.coreRegWrite c (o == 8) v
          (r.1, some r.2)
      else if o = 0xC then
        if !s.attached then ok (s.dbgRefuse 2)
        else if s.secState ≠ 0 ∧ !s.perms.testBit 0 then (s.dbgRefuse 1, some rspDenied)
        else if s.coreClock c && s.coreSt c != 3 then (s, some rspNotHalted)
        else match s.feed c v with
          | none => (s, none)
          | some t => ok t
      else if o = 0x10 then ok (s.setReg off (v &&& 0xFF#32))
      else if 0x20 ≤ o ∧ o < 0x30 then ok (s.setReg off (v &&& 0x8001FFFC#32))
      else if o = 0x40 ∨ o = 0x48 then ok (s.setReg off v)
      else if o = 0x44 ∨ o = 0x4C then ok (s.setReg off (v &&& 0xE000001F#32))
      else ok s

/-! ### Commands -/

/-- ATTACH (R490): a write of DBG_CTRL by source `src`. -/
def execDbgAttach (src : Nat) (s : State) : Out := .next ((if isDbg src then s.attach else s).settle)

/-- DETACH (R492). -/
def execDbgDetach (src : Nat) (s : State) : Out := .next ((if isDbg src then s.detach else s).settle)

/-- HALT (R493, R494). -/
def execDbgHalt (src c : Nat) (s : State) : Out := .next (s.dbgOp src c (fun t => t.haltReq c 0 0))

/-- A posted write of source `src` has not completed (R495). -/
def State.postedOpen (s : State) (src : Nat) : Bool :=
  s.mesh.tags.any (fun e => e.1 / 64 == src && (match e.2 with
    | .queued a => a.write
    | .busy a _ => a.write
    | _ => false))

/-- HALT_ENTRY (R495): core `c`, whose halt cause is visible, has nothing past D, no stalled load and no posted store open. -/
def execHaltEntry (c : Nat) (s : State) : Out :=
  .next <|
    match (s.coreOf c).halt with
    | some (why, unit) =>
      if decide (c < 17) && (s.coreSt c == 1 || s.coreSt c == 2) && s.coreClock c && (s.coreOf c).stall.isNone &&
          !s.postedOpen (coreSrc c) then (s.haltNow c why unit).haltSpread c why
      else s
    | none => s

/-- BREAKPOINT (R493): an enabled breakpoint matches the PC of the instruction in D. -/
def execBreakpoint (c : Nat) (s : State) : Out :=
  .next <|
    if decide (c < 17) && s.canIssue c then
      match s.bpHit c with
      | some i => s.haltCause c 2 i
      | none => s
    else s

/-- RESUME (R499). -/
def execDbgResume (src c : Nat) (s : State) : Out := .next (s.dbgOp src c (fun t => t.coreResume c false))

/-- STEP (R499). -/
def execDbgStep (src c : Nat) (s : State) : Out := .next (s.dbgOp src c (fun t => t.coreResume c true))

/-- FEED (R498). -/
def execDbgFeed (src c : Nat) (w : Word) (s : State) : Out :=
  .next (s.dbgOp src c (fun t => (t.feed c w).getD t))

/-- CORE_REGISTER_ACCESS (R497): a read, or a write of `wr`, of DBG_CORE_PC (`pc`) or DBG_CORE_RDATA. A read changes nothing. -/
def execCoreRegisterAccess (src c : Nat) (pc : Bool) (wr : Option Word) (s : State) : Out :=
  .next (s.dbgOp src c (fun t =>
    match wr with
    | some v => (t.coreRegWrite c pc v).1
    | none => t))

end Sys2Proof.Machine
end

