-- ==== Sys2Proof/Machine/Tail.lean ====
section
/-! DEFINITION. Sys2Proof/Machine/Tail.lean: the commands of the Tail (file 09). -/

namespace Sys2Proof.Machine

/-- TAIL_CAPTURE_GO (R332), with the MODE of the same write; dropped when software has closed the gate (R161), and accepted below Aloft
(R525). -/
def execTailCaptureGo (mode : Nat) (s : State) : Out :=
  .next (State.settle (if s.gateOn 36 then (s.put TAIL_CAP_CTRL_MODE mode).captureGo (mode % 4) else s))

/-- A step of the load of Reel-in `r` (R355): its lines are read and loaded, 32 beats at the pace of the drain; POISON when one is poisoned. -/
def State.reelLoad (s : State) (r : Reel) : State :=
  let x := reelLines (List.range 16) (s.slotBase r.slot) r.step (s.pace 32 s.drainDiv)
  if x.2 then x.1.setTail { x.1.tail with reel := x.1.tail.reel.map (fun y => { y with step := r.step + 1 }) }
  else x.1.reelRefuse 7

/-- DRAIN_STEP (R331, R334): the next step of the running capture, or else of the Reel-in's restore load; a step every DRAIN_DIV
figures, the first of a capture at b + 4. `up`: bits that flip in the line buffers, by word 8 n + w of the lines of the sectors n. -/
def execDrainStep (up : List (Nat × Nat)) (s : State) : Out :=
  .next <| State.settle <|
    if !s.gateRun 36 || s.clamped || !s.paceOk 32 then s
    else match s.tail.cap with
    | some c =>
      if c.step < 8192 then
        let s1 := (s.pace 32 s.drainDiv).each (List.range 16) (fun n t =>
          t.capBuf (t.slotBase c.slot + 0x100000 + (8192 * n + c.step) * 64) 64 (t.drainLine n c.step)
            ((up.filter (fun e => e.1 / 8 == n)).map (fun e => (e.1 % 8, e.2))))
        s1.setTail { s1.tail with cap := s1.tail.cap.map (fun x => { x with step := c.step + 1 }) }
      else s
    | none =>
      match s.tail.reel with
      | some r =>
        if s.f TAIL_REEL_STAT_STATE = 1 ∧ r.step < 8192 then s.reelLoad r else s
      | none => s

/-- WALK_ROW (R113, R336): the walker of sector `n` reads the next uncopied row, memories and rows in ascending order, copy-out
registers first, one row every WALK_DIV figures; `up`: bits that flip in the line buffer. -/
def execWalkRow (n : Nat) (up : List (Nat × Nat)) (s : State) : Out :=
  .next <| State.settle <|
    let todo := s.fab.copied.filterMap (fun e => if e.1 / 1024 = n then
      match s.uncopied e.1 with
      | r :: _ => some (e.1, r)
      | [] => none else none)
    match todo with
    | [] => s
    | (m, r) :: _ =>
      if s.copyOutFull n || !s.gateRun 36 || s.clamped || !s.paceOk n then s
      else
        let s1 := (s.pace n (max 1 (s.f TAIL_CTRL_WALK_DIV))).capRow m r (s.row m r) up
        s1.setFab { s1.fab with
          copied := mset s1.fab.copied (List.range 512) m (ladd (mget s1.fab.copied (List.range 512) m) r) }

/-- COPYOUT_DRAIN (R114, R336): copy-out register `i` (2 m for port A of memory m, 2 m + 1 for port B) goes to the Spool, one
row a figure in its sector; `up`: bits that flip in the line buffer. -/
def execCopyoutDrain (i : Nat) (up : List (Nat × Nat)) (s : State) : Out :=
  .next <| State.settle <|
    match mget s.fab.copyOut none i with
    | none => s
    | some (row, old) =>
      if s.gateRun 36 ∧ s.paceOk (16 + i / 2048) then
        let s1 := (s.pace (16 + i / 2048) 1).capRow (i / 2) row old.toNat up
        s1.setFab { s1.fab with copyOut := mset s1.fab.copyOut none i none }
      else s

/-- CAPTURE_COMPLETE (R337): COMPLETE, or BAD when it was spoiled. -/
def execCaptureComplete (s : State) : Out :=
  .next <| State.settle <|
    match s.tail.cap with
    | none => s
    | some c =>
      if c.step = 8192 ∧ c.lists.isEmpty ∧ s.walked then
        let s1 := (((s.setFab { s.fab with copied := [] }).setTail { s.tail with cap := none }).put TAIL_CAP_STAT_BUSY 0).pace 32 s.drainDiv
        if c.bad then s1
        else ((s1.put (TAIL_CAT_STAT_STATE c.slot) 2).put TAIL_CAP_STAT_LAST_SLOT c.slot).raise 176
      else s

/-- MAP_REBUILD (R343): the rebuild of the part of bay `k` starts. -/
def execMapRebuild (k : Nat) (s : State) : Out :=
  .next <|
    if k ∈ s.tail.mapDue then
      (s.setTail { s.tail with mapDue := ldel s.tail.mapDue k, build := ladd s.tail.build k }).mapBuild
    else s

/-- LIVE_MAP_REBUILD_DONE (R343). -/
def execLiveMapRebuildDone (k : Nat) (s : State) : Out :=
  .next (if k ∈ s.tail.build then (s.setTail { s.tail with build := ldel s.tail.build k }).mapBuild else s)

/-- DISCARD (R344). -/
def execTailDiscard (i : Nat) (s : State) : Out := .next (s.toBlock 36 (fun t => if i < 256 && t.slotLoose i then t.slotFree i else t))

/-- PROBE_HIT (R348): unit `u` samples its probe at this edge. -/
def execProbeHit (u : Nat) (s : State) : Out := .next (if s.trigSamples u then s.trigSample u else s)

/-- TRIGGER_FIRE (R349): the sample of unit `u` at this edge is the hit that brings HITS to COUNT. -/
def execTriggerFire (u : Nat) (s : State) : Out :=
  .next <|
    if s.trigSamples u && s.trigHit u && s.on (TAIL_TRG_STAT_ARMED u) &&
      decide (max 1 (s.f (TAIL_TRG_CFG_COUNT u)) ≤ s.f (TAIL_TRG_STAT_HITS u) + 1) then s.trigSample u else s

/-- TRIGGER_REARM (R349): the unit is armed at the next edge. -/
def execTriggerRearm (u : Nat) (s : State) : Out :=
  .next (s.toBlock 36 (fun t => if u < 64 then t.setTail { t.tail with armDue := ladd t.tail.armDue u } else t))

/-- RING_RECORD (R351, R347): ring `k` records a sample of its probe; Caller writes (SAMPLE = WRITE) record by themselves; `up`: bits of
the record that flip in the ring's buffer. -/
def execRingRecord (k : Nat) (up : List (Nat × Nat)) (s : State) : Out :=
  .next <| State.settle <|
    let ty := s.f (TAIL_RING_SEL_TYPE k)
    let smp := s.f (TAIL_RING_CFG_SAMPLE k)
    if decide (k < 8) && s.ringOn k 0 && smp != 2 && decide (64 + k ∉ s.tail.sampled) &&
        (smp != 1 || ty == 2 || ty == 4 || s.announceEdge) then
      let v := s.probe ty (s.f (TAIL_RING_SEL_INDEX k))
      (s.setTail { s.tail with sampled := ladd s.tail.sampled (64 + k) }).ringPut k v.1 s.fig.toNat v.2 up
    else s

/-- REELIN_GO (R354), with the SLOT of the same write. -/
def execReelinGo (slot : Nat) (s : State) : Out :=
  .next (State.settle (s.toBlock 36 (fun t => (t.put TAIL_REEL_CTRL_SLOT slot).reelGo (slot % 256))))

/-- A Reel-in has staged everything; whether the node is announced already decides which bow restores (R356). -/
def State.reelReady (s : State) (r : Reel) : State :=
  s.setTail { s.tail with reel := some { r with late := s.latState == 6, armFig := s.fig.toNat } }

/-- The checks of VERIFY (R355): header and map, then every row of the snapshot; READY, or the cause of the first that fails. -/
def State.reelVerify (s : State) (r : Reel) : State :=
  let h := reelHeader 17 (s.slotBase r.slot) [] s
  let c := h.1.reelCheck r.slot false h.2
  let v := reelRows h.1.designRows r.slot h.1
  if c.isSome then h.1.reelRefuse (c.getD 0)
  else if v.2 then (v.1.reelReady r).put TAIL_REEL_STAT_STATE 2
  else v.1.reelRefuse 7

/-- REELIN_ARMED (R354, R355): VERIFY is done, the request is checked again. -/
def execReelinArmed (s : State) : Out :=
  .next <| State.settle <|
    match s.tail.reel with
    | none => s
    | some r =>
      if s.f TAIL_REEL_STAT_STATE = 1 ∧ r.step = 8192 ∧ s.clamped = false then s.reelVerify r else s

/-- RESTORE_EDGE (R356): the rounds are stopped and ARMED is visible, for 16 f. At a bow, BOW is the restore edge. -/
def execRestoreEdge (s : State) : Out :=
  .next <| State.settle <|
    match s.tail.reel with
    | some r => if s.restoreReached then (s.restoreAt r []).noteReady else s
    | none => s

/-- REELIN_DONE (R357): MEMWRITE writes every design-memory row, and the Reel-in is over. -/
def execReelinDone (s : State) : Out :=
  .next <| State.settle <|
    match s.tail.reel with
    | none => s
    | some r =>
      if s.f TAIL_REEL_STAT_STATE = 3 ∧ s.clamped = false then
        let s1 := s.each s.designRows (fun e t => t.restoreRow r.slot e.1 e.2)
        let s2 := s1.each (List.range 16) (fun n t => t.portFlush n)
        let s3 := if s2.latState = 7 ∨ s2.latState = 0 then
            (((s2.setLatState 1).setLat { s2.lat with offPor := false }).sendTokens 1 s2.round.toNat).haltOnStop else s2
        ((s3.reelDrop 0).raise 180).latSettle
      else s

/-- REELIN_ABORT (R354). -/
def execReelinAbort (s : State) : Out := .next (s.toBlock 36 (fun t => t.reelBreak 9))

/-- EXPORT (R359). -/
def execExportSlot (keySlot slot : Nat) (s : State) : Out := .next (s.toBlock 36 (fun t => t.xferGo false keySlot slot))

/-- IMPORT (R360). -/
def execImportSlot (keySlot : Nat) (s : State) : Out := .next (s.toBlock 36 (fun t => t.xferGo true keySlot (t.f TAIL_EXP_CTRL_SLOT)))

/-- TRANSFER_ABORT (R361). -/
def execTransferAbort (s : State) : Out := .next (s.toBlock 36 (fun t => t.xferEnd 7))

/-- TRANSFER_END (R359 to R361, R570): the running transfer has had its turn at the Gondola and ends; `gdl`: 4 where the Gondola was removed
meanwhile, else 0; `box`: the bytes of the container that an import read. -/
def execTransferEnd (gdl box : Nat) (s : State) : Out :=
  .next <| State.settle <|
    match s.tail.xfer with
    | none => s
    | some x =>
      if x.wait ≠ 0 ∨ s.gdlLoad then s
      else if gdl % 256 = 4 then (if x.imp then s.xferEnd 4 else (s.xferEnd 4).raiseAlarm 2)
      else if !s.on GDL_STAT_PRESENT then s.xferEnd 4
      else if x.imp then
        let r := s.boxTake x box
        r.1.xferEnd r.2
      else if s.pin.idBad ∨ s.f GDL_LIFE_LIFE ≤ s.f GDL_LIFE_RESERVE then s.xferEnd 5
      else
        let r := s.boxOut x
        r.1.xferEnd r.2

end Sys2Proof.Machine
end

