-- ==== Sys2Proof/Machine/RegOps.lean ====
section
/-! DEFINITION. Sys2Proof/Machine/RegOps.lean: what a write to a hub register does, block by block (R10, R22), and what a read of it
returns. A register without an effect of its own takes a write by its access codes. A write that triggers a command of the table does
what that command does. -/

namespace Sys2Proof.Machine

/-! ### Access codes (R10) -/

/-- A write of `v` to one field of a register that holds `w`. -/
def fieldWrite (f : FieldSpec) (w v : Word) : Word :=
  match f.acc with
  | .rw => fput w f.hi f.lo (fget v f.hi f.lo)
  | .w1c => w &&& ~~~ (v &&& fmask f.hi f.lo)
  | .w1s => w ||| (v &&& fmask f.hi f.lo)
  | _ => w

/-- A read of one field leaves this in the register. -/
def fieldRead (f : FieldSpec) (w : Word) : Word :=
  match f.acc with
  | .rc => w &&& ~~~ fmask f.hi f.lo
  | _ => w

/-- A write by the access codes of the register at `off`; a log register's VALID takes OVF with it; no register: ignored (R24). -/
def State.plainWrite (s : State) (off : Nat) (v : Word) : State :=
  match regAt off with
  | none => s
  | some r =>
    if r.log then (if fget v 31 31 = 1 then s.setReg off (s.reg off &&& 0x3FFFFFFF#32) else s)
    else s.setReg off (r.fields.foldl (fun w f => fieldWrite f w v) (s.reg off))

/-- A read by the access codes; `peek` clears nothing (R484). -/
def State.plainRead (s : State) (off : Nat) (peek : Bool) : State × Rsp :=
  match regAt off with
  | none => (s, rspOk)
  | some r =>
    let v := s.reg off
    (if peek || !r.fields.any (fun f => f.acc == .rc) then s else s.setReg off (r.fields.foldl (fun w f => fieldRead f w) v),
     ⟨0, 0, v.toNat, 0⟩)

/-- The command `f` as a step of its own. -/
def State.via (s : State) (f : State → Out) : State :=
  match f s with
  | .next t => t
  | _ => s

/-- A write of `v` to the fields `l` of the register at `off`, by position. -/
def State.putFields (s : State) (l : List Fld) (v : Word) : State := s.each l (fun f t => t.put f (fget v f.hi f.lo))

/-- A write that is accepted. -/
def accepted (t : State) : State × Option Rsp := (t, some rspOk)

/-- What a read of a value returns. -/
def valued (s : State) (v : Nat) : State × Rsp := (s, ⟨0, 0, v % 2 ^ 32, 0⟩)

/-! ### DEVICE -/

/-- The source and the offset of a register of an ordering block (R37). -/
def ordReg (off : Nat) : Option (Nat × Nat) :=
  if 0x4000 ≤ off ∧ off < 0x4600 then some ((off - 0x4000) / 0x20, (off - 0x4000) % 0x20) else none

/-- A write to DEVICE; none: 16 fences are pending, and the write waits (R35). -/
def State.devWrite (s : State) (off : Nat) (v : Word) : State × Option Rsp :=
  match ordReg off with
  | some (src, o) =>
    if !hasOrder src then accepted s
    else if o = 0 then
      if fget v 0 0 = 0 then accepted s
      else match s.issueFence src with
        | (t, some _) => accepted t
        | (_, none) => (s, none)
    else accepted (s.plainWrite off v)
  | none => accepted (s.plainWrite off v)

/-- A read of DEVICE: sources without an ordering block read 0. -/
def State.devRead (s : State) (off : Nat) (peek : Bool) : State × Rsp :=
  match ordReg off with
  | some (src, _) => if hasOrder src then s.plainRead off peek else (s, rspOk)
  | none => s.plainRead off peek

/-! ### CLOCK -/

/-- A write to CLK_GCLK_CFG(g) (R147, R151, R153): MODE only while rounds are stopped. -/
def State.gclkWrite (s : State) (g : Nat) (v : Word) : State :=
  let s1 := s.putFields [CLK_GCLK_CFG_EN g, CLK_GCLK_CFG_DIV g, CLK_GCLK_CFG_ALT_SRC g] v
  (s1.when s.stopped (fun t => t.put (CLK_GCLK_CFG_MODE g) (fget v 30 30))).switchTo (16 + g) (fget v 5 0)

/-- A write to CLOCK. -/
def State.clkWrite (s : State) (off : Nat) (v : Word) : State :=
  if 0x100100 ≤ off ∧ off < 0x100200 then
    let p := (off - 0x100100) / 16
    if off % 16 = 0 then s.via (execPllSettingChange p v)
    else if off % 16 = 4 then (if isFpll p then (s.plainWrite off v).pllCheck p else s)
    else s.plainWrite off v
  else if off = CLK_HUB_SEL then
    ((s.put CLK_HUB_SEL_AUTO (fget v 31 31)).switchTo 0 (fget v 0 0)).switchTo 1 (fget v 1 1)
  else if 0x101000 ≤ off ∧ off < 0x101200 then
    if off % 16 = 0 then s.gclkWrite ((off - 0x101000) / 16) v
    else if s.stopped then s.plainWrite off v else s
  else if 0x102000 ≤ off ∧ off < 0x102800 then
    let n := (off - 0x102000) / 0x80
    let r := off % 0x80 / 4
    if r < 24 then (s.putFields [CLK_RCLK_CFG_EN n r, CLK_RCLK_CFG_DIV n r] v).switchTo (64 + 24 * n + r) (fget v 6 0) else s
  else if off = CLK_GATE_EN0 then (s.gateWrite 0 32 v).latSettle
  else if off = CLK_GATE_EN1 then (s.gateWrite 32 7 v).latSettle
  else s.plainWrite off v

/-- A read of CLOCK: in Moored and Packed the FPLLs and the PLLs of HBM are off, and not locked (R518). -/
def State.clkRead (s : State) (off : Nat) (peek : Bool) : State × Rsp :=
  let r := s.plainRead off peek
  let p := (off - 0x100100) / 16
  if 0x100100 ≤ off ∧ off < 0x100200 ∧ off = CLK_PLL_STAT p ∧ 2 ≤ s.power ∧ ((2 ≤ p ∧ p < 6) ∨ 8 ≤ p) then
    (r.1, { r.2 with data := (fput (BitVec.ofNat 32 r.2.data) (CLK_PLL_STAT_LOCK p).hi (CLK_PLL_STAT_LOCK p).lo 0).toNat })
  else r

/-! ### CONFIG -/

/-- A write of GO with OP, SRC and AUTO_START. A load from a source outside waits in PHASE 1 for the image, which the row of its OP
brings. -/
def State.cfgGo (s : State) (op src : Nat) (auto : Bool) : State :=
  match op with
  | 4 => s.via execBlank
  | 5 => s.via execCfgStart
  | 6 => s.cfgRefuse 0x0C
  | 7 => s.cfgRefuse 0x0C
  | _ =>
    if src = 3 then (s.loadStart op 3 auto ⟨0, 0, 0⟩).settle
    else (s.loadGoes op src auto).1

/-- A write to CONFIG. -/
def State.cfgWrite (s : State) (off : Nat) (v : Word) : State :=
  if off = CFG_LOAD_CTRL then
    let s1 := s.putFields [CFG_LOAD_CTRL_OP, CFG_LOAD_CTRL_SRC, CFG_LOAD_CTRL_AUTO_START] v
    let s2 := if fget v 24 24 = 1 then s1.cfgStop 0x0F else s1
    if fget v 31 31 = 1 then s2.cfgGo (fget v 30 28) (fget v 27 26) (fget v 25 25 == 1) else s2
  else if off = CFG_PR_CTRL then
    let s1 := s.putFields [CFG_PR_CTRL_MODE, CFG_PR_CTRL_REL_MODE, CFG_PR_CTRL_BAY] v
    let s2 := if fget v 30 30 = 1 then s1.prCancel else s1
    if fget v 31 31 = 1 then s2.prArm (fget v 28 27) (fget v 26 26 == 1) (fget v 6 0) else s2
  else if off = CFG_STORE_CTRL then (if s.secState = 0 then s.plainWrite off v else s)
  else s.plainWrite off v

/-- A read of CONFIG: PAUSED is 1 in Moored and Packed as well (R201). -/
def State.cfgRead (s : State) (off : Nat) (peek : Bool) : State × Rsp :=
  if off = CFG_SCRUB_STAT then valued s (fput (s.reg off) 7 7 (b2n (s.on CFG_SCRUB_STAT_PAUSED || decide (2 ≤ s.power)))).toNat
  else s.plainRead off peek

/-! ### INTEGRITY, SCRAMBLE, MESH -/

/-- The counter whose STAT register lies at `off` (R425). -/
def cntAt (off : Nat) : Option Nat :=
  if 0x300100 ≤ off ∧ off < 0x300220 ∧ off % 16 = 4 then some (1000 + (off - 0x300100) / 16)
  else if 0x301000 ≤ off ∧ off < 0x303200 ∧ off % 16 = 4 then some ((off - 0x301000) / 16)
  else none

/-- A read of INTEGRITY: a POP of the log (R426), a parity check of a counter (R425). A peek of the log loads the stamp and removes
nothing (R485). -/
def State.intRead (s : State) (off : Nat) (peek : Bool) : State × Rsp :=
  if off = INT_LOG_POP then
    (if peek then s.logStamp else s.via execIntLogPop, ⟨0, 0, s.logHead, 0⟩)
  else match cntAt off with
    | some n => (if peek then s else s.cntParity n).plainRead off peek
    | none => s.plainRead off peek

/-- A write to INTEGRITY: EN of a leaf without an entry in R422 stays 0. -/
def State.intWrite (s : State) (off : Nat) (v : Word) : State :=
  let l := (off - 0x301000) / 16
  (s.plainWrite off v).when (decide (0x301000 ≤ off ∧ off < 0x303200 ∧ off % 16 = 0) && !leafExists l) (fun t => t.put (INT_LEAF_CFG_EN l) 0)

/-- A fresh key pair from the random source (R412): free values (log entry 4). -/
def State.freshKeys (s : State) : State × KeyPair :=
  let a := s.freeVal
  let t := s.freeNext
  (t.freeNext, ⟨a % 2 ^ 256, t.freeVal % 2 ^ 256⟩)

/-- A write to SCRAMBLE: INIT and REKEY. -/
def State.memCtrl (s : State) (off : Nat) (v : Word) : State :=
  if off = MEM_CTRL then
    let s1 := s.put MEM_CTRL_SWEEP_DIV (fget v 15 8)
    let s2 := if fget v 31 31 = 1 then s1.initMem else s1
    if fget v 30 30 = 1 then (let k := s2.freshKeys; k.1.rekeyMem k.2) else s2
  else s.plainWrite off v

/-- A read of SCRAMBLE: QUEUE is how many requests the controller holds. -/
def State.memCtrlRead (s : State) (off : Nat) (peek : Bool) : State × Rsp :=
  if 0x400100 ≤ off ∧ off < 0x400140 ∧ off % 16 = 4 then
    valued s (fput (s.reg off) 24 16 (s.waits (64 + 4 * ((off - 0x400100) / 16))).length).toNat
  else s.plainRead off peek

/-- MESH_RESUME (R387): target port `t` leaves ABSORB; its stale map empties. Requests absorbed before stay with the target. -/
def State.tgtResume (s : State) (t : Nat) : State :=
  if s.absorbed t then (s.setStale t (s.mesh.stale.filter (fun e => e.1 != t))).put (MESH_TGT_STAT_STATE t) 0 else s

/-- The histograms clear (R390). -/
def State.clearHist (s : State) : State := s.resetRegs (fun a => decide (MESH_INI_HIST 0 0 ≤ a) && decide (a < MESH_INI_HIST 48 0))

/-- A write to MESH. -/
def State.meshWrite (s : State) (off : Nat) (v : Word) : State :=
  if off = MESH_MON_CTRL then
    let s1 := if fget v 31 31 = 1 then s.clearHist else s
    (s1.setMesh { s1.mesh with monBytes := [] }).put MESH_MON_CTRL_WIN (fget v 4 0)
  else if 0x501000 ≤ off ∧ off < 0x501600 ∧ off % 16 = 4 then
    if fget v 31 31 = 1 then s.tgtResume ((off - 0x501000) / 16) else s
  else s.plainWrite off v

end Sys2Proof.Machine
end

