-- ==== Sys2Proof/Machine/Security.lean ====
section
/-! DEFINITION. Sys2Proof/Machine/Security.lean: the commands of security (file 15): fuse commands (R547), key slots (R546), unlock
sequences (R548), debug authentication (R488, R549), alarms (R550 to R553). -/

namespace Sys2Proof.Machine

/-! ### Fuse commands: the second write of an unlock sequence carries the command; `late`: it comes after its time (R548) -/

/-- BIND (R547). -/
def execBind (src : Nat) (late : Bool) (s : State) : Out := .next (s.protCmd src 0 (cmdWord 1 0) late)

/-- SEAL (R547). -/
def execSeal (src : Nat) (late : Bool) (s : State) : Out := .next (s.protCmd src 0 (cmdWord 2 0) late)

/-- PROG_SK (R547). -/
def execProgSk (src slot : Nat) (late : Bool) (s : State) : Out := .next (s.protCmd src 0 (cmdWord 3 (slot % 4)) late)

/-- REVOKE_SK (R547). -/
def execRevokeSk (src slot : Nat) (late : Bool) (s : State) : Out := .next (s.protCmd src 0 (cmdWord 4 (slot % 4)) late)

/-- PROG_DBG (R547). -/
def execProgDbg (src : Nat) (late : Bool) (s : State) : Out := .next (s.protCmd src 0 (cmdWord 5 0) late)

/-- PROG_KEY (R547). -/
def execProgKey (src slot : Nat) (late : Bool) (s : State) : Out := .next (s.protCmd src 0 (cmdWord 6 (slot % 4)) late)

/-- INC_VERSION (R547). -/
def execIncVersion (src : Nat) (late : Bool) (s : State) : Out := .next (s.protCmd src 0 (cmdWord 7 0) late)

/-- FUSE_COMMAND_DONE (R547): the command that runs completes, with EV_SEC_FUSE; `fail`: the programming failed. -/
def execFuseCommandDone (fail : Bool) (s : State) : Out :=
  .next <|
    match s.sec.fuseCmd with
    | none => s
    | some (op, slot) =>
      let s1 := (s.setSec { s.sec with fuseCmd := none, fuseData := 0 }).put SEC_FUSE_STAT_BUSY 0
      if fail then s1.fuseRefuse 4
      else ((s1.setSec { s1.sec with fuses := s1.sec.fuses.apply op slot s.sec.fuseData }).fuseShow).raise 362

/-! ### Key slots -/

/-- LOAD of SEC_KEY_CMD (R546): slot `slot` takes words 0 to 7 of SEC_KEY_DATA. -/
def execKeySlotLoad (src slot : Nat) (late : Bool) (s : State) : Out := .next (s.protCmd src 1 (cmdWord 1 (slot % 8)) late)

/-- CLEAR of SEC_KEY_CMD (R546). -/
def execKeySlotClear (src slot : Nat) (late : Bool) (s : State) : Out := .next (s.protCmd src 1 (cmdWord 2 (slot % 8)) late)

/-- The first write of an unlock sequence (R548): the key value, to protected register `reg`, by source `src`. -/
def execUnlockOpen (src reg : Nat) (s : State) : Out := .next (if reg < 3 then s.protCmd src reg unlockKey (s.unlockLate reg) else s)

/-! ### Debug authentication -/

/-- AUTH is the current data register and acts (R476, R488). -/
def State.authSelected (s : State) : Bool := s.scan.ir == 0x11 && s.secState != 2

/-- CHALLENGE_REQUEST (R488, R549, R552): the challenge is the UID and a fresh nonce, `nonce`, which the random source gives. A new
challenge abandons a partial response. The scan that carries the request captures before it. -/
def execChallengeRequest (nonce : Nat) (s : State) : Out :=
  .next <|
    if !s.authSelected || s.on SEC_AUTH_STAT_BUSY then s
    else if s.on SEC_AUTH_STAT_LOCKED_OUT || (s.alarmed && s.secState == 1) then s.authCapture
    else
      let t := s.authCapture
      t.setSec { t.sec with nonce := some (nonce % 2 ^ 256), authWord := 0, resp := [] }

/-- RESPONSE_WORD (R488, R549): the next of the 49 words of the response; after the last, the check begins. -/
def execResponseWord (w : Word) (s : State) : Out :=
  .next <|
    if s.authSelected && s.sec.nonce.isSome && !s.on SEC_AUTH_STAT_BUSY && w != 1#32 then
      let l := s.sec.resp ++ [w]
      let t := s.authCapture
      let s1 := t.setSec { t.sec with resp := l }
      if 49 ≤ l.length then s1.put SEC_AUTH_STAT_BUSY 1 else s1
    else s

/-- The response of 49 words authenticates the debugger (R549): the digest of its public key is DBG_HASH, its signature verifies over the
challenge followed by PERMS, its nonce has not been used. -/
def State.authOk (s : State) : Bool :=
  match s.sec.nonce with
  | none => false
  | some n =>
    let bytes := s.sec.resp.flatMap (fun w => toBytes 4 w.toNat)
    let key := (bytes.drop 4).take 96
    decide (s.sec.fuses.dbg = some (sha384 key)) &&
      sigVerifies (ofBytes key) (ofBytes ((bytes.drop 100).take 96)) (toBytes 16 s.sec.fuses.uid ++ toBytes 32 n ++ bytes.take 4) &&
      !decide (n ∈ s.sec.used)

/-- AUTH_CHECK (R549). -/
def execAuthCheck (s : State) : Out :=
  .next <|
    if s.on SEC_AUTH_STAT_BUSY then
      let s1 := s.put SEC_AUTH_STAT_BUSY 0
      let words := s.sec.resp
      let s2 := s1.setSec { s1.sec with resp := [] }
      if s.authOk then
        (((s2.setSec { s2.sec with nonce := none, used := s2.sec.used ++ s2.sec.nonce.toList }).put DBG_CTRL_AUTHED 1).put
          SEC_AUTH_STAT_PERMS (fget (words.headD 0) 2 0)).put SEC_AUTH_STAT_FAILS 0
      else
        let s3 := (s2.satF SEC_AUTH_STAT_FAILS 1).raise 361
        if 8 ≤ s3.f SEC_AUTH_STAT_FAILS then s3.put SEC_AUTH_STAT_LOCKED_OUT 1 else s3
    else s

/-! ### Alarms -/

/-- RAISE of SEC_ALARM (R550): AL_SW. -/
def execAlarmRaise (src : Nat) (s : State) : Out :=
  .next (if s.hostBlocked src SEC_ALARM then s else (s.alarmWrite src 0x80000000#32).1.settle)

/-- A write of 1 to bits of SEC_ALARM (R553). -/
def execAlarmClear (src mask : Nat) (s : State) : Out :=
  .next (if s.hostBlocked src SEC_ALARM then s else (s.alarmWrite src (BitVec.ofNat 32 (mask % 128))).1.settle)

/-- GLITCH_DETECT (R550, R585): AL_GLITCH. -/
def execGlitchDetect (s : State) : Out := .next (s.raiseAlarm 4).settle

/-- RNG_HEALTH_FAIL (R546, R550): AL_RNG. -/
def execRngHealthFail (s : State) : Out := .next (s.raiseAlarm 3).settle

end Sys2Proof.Machine
end

