-- ==== Sys2Proof/Machine/HubAccess.lean ====
section
/-! DEFINITION. Sys2Proof/Machine/HubAccess.lean: what a write to a hub register does and what a read returns, for the blocks from CALLER on
and the core blocks, and the two operations over the whole register window that every source uses: `hubPut` and `hubGet` (R8, R10, R22, R24,
R161, R484, R485, R520, R545). -/

namespace Sys2Proof.Machine

/-! ### CALLER -/

/-- CALLER_STAT as it reads (R211). -/
def State.callerStat (s : State) : Word :=
  let v := fput (s.reg CALLER_STAT) 29 29 (b2n !(s.inRound && s.on CALLER_CTRL_EN && !s.on CALLER_STAT_DONE))
  fput (fput v 26 24 ((List.range 4).filter (fun u => (s.unit u).isSome)).length) 22 20 s.call.susp.length

/-- The state code of a task (R209). -/
def State.taskCode (s : State) (t : Nat) : Nat :=
  if !s.taskUsed t then 0
  else match (s.ctask t).st with
    | .idle => if s.taskReady t then 2 else 1
    | .run => 3
    | .suspended => 4
    | .done => 5
    | .fault => 6

/-- CALLER_TASK_STATE(t). -/
def State.taskState (s : State) (t : Nat) : Nat :=
  b2n (s.ctask t).ran * 2 ^ 30 + (s.ctask t).cause % 256 * 2 ^ 8 + s.taskCode t

/-- A table word of a bank, by the offset of the shadow window, `act` for the offset of its read-only copy. -/
def Bank.word (b : Bank) (off : Nat) : Word :=
  if off < 0x660000 then mget b.task 0 (off % 0x20000 / 4)
  else if off < 0x6C0000 then mget b.sig 0 (off % 0x20000 / 4)
  else mget b.queue 0 (off % 0x20000 / 4)

/-- A read of CALLER_QPORT_POP as a register: what the check of the popped bundle finds is a fact of the store that no operand of the
access tells, a free value (log entry 47). -/
def State.portPopRead (s : State) : State × Nat × Nat × Nat :=
  s.freeNext.qportPop (match s.freeVal % 3 with
    | 0 => .ok
    | 1 => .ce
    | _ => .ue) []

/-- A read of CALLER. A peek of the queue port loads DATA and removes nothing (R485). -/
def State.callerRead (s : State) (off : Nat) (peek : Bool) : State × Rsp :=
  if off = CALLER_STAT then valued s s.callerStat.toNat
  else if off = CALLER_QPORT_POP then
    let r := s.portPopRead
    if peek then
      (if r.2.1 = 0 then s
       else (s.setReg CALLER_QPORT_DATA_LO (r.1.reg CALLER_QPORT_DATA_LO)).setReg CALLER_QPORT_DATA_HI (r.1.reg CALLER_QPORT_DATA_HI),
       ⟨r.2.2.1, r.2.2.2, r.2.1, 0⟩)
    else (r.1, ⟨r.2.2.1, r.2.2.2, r.2.1, 0⟩)
  else if 0x600100 ≤ off ∧ off < 0x600180 ∧ off % 16 = 4 then
    valued s (fput (s.reg off) 10 0 (s.dlistOf ((off - 0x600100) / 16)).length).toNat
  else if off < 0x620000 then s.plainRead off peek
  else if off < 0x640000 then valued s (s.call.shadow.word off).toNat
  else if off < 0x660000 then valued s (s.call.active.word off).toNat
  else if off < 0x670000 then
    let t := (off - 0x660000) / 16
    match off % 16 / 4 with
    | 0 => valued s (s.effective t)
    | 1 => valued s (s.effective t / 2 ^ 32)
    | 2 => valued s (s.taskState t)
    | _ => (s, rspOk)
  else if off < 0x680000 then
    let q := (off - 0x670000) / 4
    valued s (fput (fput (s.reg off) 13 8 (s.cqueue q).spilled) 5 0 (s.queueCount q)).toNat
  else if off < 0x6A0000 then valued s (s.call.shadow.word off).toNat
  else if off < 0x6C0000 then valued s (s.call.active.word off).toNat
  else if off < 0x6E0000 then valued s (s.call.shadow.word off).toNat
  else valued s (s.call.active.word off).toNat

/-- A write to a shadow window (R245): held while a copy or a pending swap holds it. -/
def State.shadowWrite (s : State) (off : Nat) (v : Word) : State :=
  if s.on CALLER_SWAP_SYNC_BUSY || s.on CALLER_SWAP_PENDING then s.setCall { s.call with heldWr := s.call.heldWr ++ [(off, v)] }
  else s.landHeld [(off, v)]

/-- A write of CALLER_TRACE_CFG (R247): EN from 0 to 1 clears WR, RD and LOST. -/
def State.traceCfg (s : State) (v : Word) : State :=
  let s1 := s.plainWrite CALLER_TRACE_CFG v
  if !s.on CALLER_TRACE_CFG_EN && s1.on CALLER_TRACE_CFG_EN then
    (((s1.setReg CALLER_TRACE_WR 0).setReg CALLER_TRACE_RD 0).setReg CALLER_TRACE_LOST 0).setCall { s1.call with traceHalt := false }
  else s1

/-- A write to CALLER. -/
def State.callerPut (s : State) (off : Nat) (v : Word) : State × Rsp :=
  let ok := fun (t : State) => (t, rspOk)
  if off = CALLER_CTRL then
    ok (s.putFields (if s.stopped then [CALLER_CTRL_EN, CALLER_CTRL_SPILL_EN, CALLER_CTRL_FAULT_POL] else [CALLER_CTRL_FAULT_POL]) v)
  else if off = CALLER_SWAP then
    let s1 := s.plainWrite off v
    let s2 := if fget v 31 31 = 1 then s1.swapRequest (fget v 26 25) else s1
    ok (if fget v 30 30 = 1 then s2.put CALLER_SWAP_SYNC_BUSY 1 else s2)
  else if off = CALLER_SPILL_BASE then ok (if s.stopped then s.plainWrite off v else s)
  else if off = CALLER_TRACE_BASE_LO ∨ off = CALLER_TRACE_BASE_HI then ok (if s.on CALLER_TRACE_CFG_EN then s else s.plainWrite off v)
  else if off = CALLER_TRACE_CFG then ok (s.traceCfg v)
  else if off = CALLER_QPORT_PUSH then
    let r := s.qportPush (v.toNat.testBit 0)
    (r.1, ⟨r.2.1, r.2.2, 0, 0⟩)
  else if 0x600100 ≤ off ∧ off < 0x600180 ∧ off % 16 = 0 then
    ok (if s.stopped && (s.dlistOf ((off - 0x600100) / 16)).isEmpty then s.plainWrite off v else s)
  else if off < 0x620000 then ok (s.plainWrite off v)
  else if off < 0x640000 then ok (s.shadowWrite off v)
  else if off < 0x660000 then ok s
  else if off < 0x670000 then
    let t := (off - 0x660000) / 16
    match off % 16 / 4 with
    | 0 => ok (s.via (execTaskFlagWrite t false v))
    | 1 => ok (s.via (execTaskFlagWrite t true v))
    | 2 => ok (if fget v 31 31 = 1 then s.via (execClrFault t) else s)
    | _ => ok s
  else if off < 0x680000 then ok (s.plainWrite off v)
  else if off < 0x6A0000 then ok (s.shadowWrite off v)
  else if off < 0x6C0000 then ok s
  else if off < 0x6E0000 then ok (s.shadowWrite off v)
  else ok s

/-! ### LATTICE -/

/-- A read of LATTICE. -/
def State.latRead (s : State) (off : Nat) (peek : Bool) : State × Rsp :=
  if off = LAT_ROUND_LO then valued s s.round.toNat
  else if off = LAT_ROUND_HI then valued s (s.round.toNat / 2 ^ 32)
  else if 0x701000 ≤ off ∧ off < 0x701200 ∧ off % 8 = 4 then
    let i := (off - 0x701000) / 8
    valued s (fput (s.reg off) 28 28 (b2n (s.tokenHolder i || s.peers.any (fun p => p.1 == i && s.peerGone p)))).toNat
  else s.plainRead off peek

/-- A write of LAT_CMD (R272). -/
def State.latCmd (s : State) (op steps : Nat) : State :=
  match op with
  | 1 => s.latStart steps true
  | 2 => s.latStart steps false
  | 3 => s.via execStopAbs
  | 4 => s.via execStopRel
  | 5 => s.stopNow
  | 6 => s.latticeReset
  | 7 => s.resetLattice
  | _ => s

/-- A write to LATTICE. -/
def State.latWrite (s : State) (off : Nat) (v : Word) : State :=
  let t :=
    if off = LAT_NODE then (if s.stopped then s.plainWrite off v else s)
    else if off = LAT_CMD then s.latCmd (fget v 31 28) (fget v 15 0)
    else if off = LAT_ROUND_LO then (if s.stopped then { s with round := s.round.extractLsb' 32 16 ++ v } else s)
    else if off = LAT_ROUND_HI then (if s.stopped then { s with round := v.setWidth 16 ++ s.round.setWidth 32 } else s)
    else if off = LAT_SECTOR_RST then s.sectorRequest v.toNat
    else if 0x701000 ≤ off ∧ off < 0x701200 then (if s.stopped then s.plainWrite off v else s)
    else if 0x704000 ≤ off ∧ off < 0x708000 then (if s.stopped then s.plainWrite off v else s)
    else s.plainWrite off v
  t.latSettle

/-! ### GLEIS -/

/-- The taps of a lane's DFE adapt in every state after ADAPT unless frozen (R318): they hold values that the spec does not state, free
values (log entry 4). -/
def State.dfeAdapt (s : State) (n k : Nat) : State :=
  let st := s.f (GLS_STAT_STATE n)
  if !s.on (GLS_LANE_CTRL_DFE_FREEZE n k) && decide (4 ≤ st) && decide (st ≤ 7) then
    s.each (List.range 3) (fun j t => (t.setReg (GLS_LANE_DFE n k j) (BitVec.ofNat 32 t.freeVal)).freeNext)
  else s

/-- A read of GLEIS: GLS_UP and GLS_POOL show the ports, GLS_LANE_DFE the taps as they have adapted. -/
def State.glsRead (s : State) (off : Nat) (peek : Bool) : State × Rsp :=
  if off = GLS_UP then
    valued s (packBits ((List.range 16).map s.portUp) +
      2 ^ 16 * packBits ((List.range 16).map (fun n => s.f (GLS_STAT_RX_SPARE n) != 15 || s.f (GLS_STAT_TX_SPARE n) != 15)))
  else if 0x810000 ≤ off ∧ off < 0x820000 ∧ off % 0x1000 = 0x1C then
    let n := (off - 0x810000) / 0x1000
    let b := fun (p : Nat) => (s.bulkPool n p).length
    let u := fun (p : Nat) => (s.urgPool n p).length
    valued s (b 0 * 2 ^ 24 + b 1 * 2 ^ 17 + b 2 * 2 ^ 10 + u 3 * 2 ^ 6 + u 4 * 2 ^ 3 + u 5)
  else if 0x810000 ≤ off ∧ off < 0x820000 ∧ 0x100 ≤ off % 0x1000 ∧ off % 0x1000 < 0x220 ∧ 8 ≤ off % 32 ∧ off % 32 < 0x14 then
    (s.dfeAdapt ((off - 0x810000) / 0x1000) ((off % 0x1000 - 0x100) / 32)).plainRead off peek
  else s.plainRead off peek

/-- A write of GLS_CTRL(n): the fields, then RETRAIN, RESTART and SPARE_GO. -/
def State.glsCtrl (s : State) (n : Nat) (v : Word) : State :=
  let s1 := (s.putFields [GLS_CTRL_EN n, GLS_CTRL_AUTO_SPARE n, GLS_CTRL_DATELINE n, GLS_CTRL_SPARE_LANE n] v).portSync n
  let s2 := if fget v 28 28 = 1 then s1.via (execRetrain n) else s1
  let s3 := if fget v 27 27 = 1 then s2.via (execRestart n) else s2
  if fget v 26 26 = 1 then s3.spareGoOp n (fget v 3 0) else s3

/-- A write to GLEIS. -/
def State.glsWrite (s : State) (off : Nat) (v : Word) : State :=
  if 0x810000 ≤ off ∧ off < 0x820000 then
    let n := (off - 0x810000) / 0x1000
    let o := off % 0x1000
    if o = 0 then s.glsCtrl n v
    else if o = 0x40 then
      (if fget v 31 31 = 1 then s.via (execEyeScanGo n v) else s.setReg (GLS_EYE_CTRL n) (v &&& 0x0F1F3F7F#32))
    else if 0x100 ≤ o ∧ o < 0x220 then
      let k := (o - 0x100) / 32
      if o % 32 = 4 then
        let s1 := (if fget v 30 30 = 1 then s.dfeAdapt n k else s).plainWrite off v
        if fget v 31 31 = 1 then s1.via (execRecal n k) else s1
      else if 8 ≤ o % 32 ∧ o % 32 < 0x14 then (if s.on (GLS_LANE_CTRL_DFE_FREEZE n k) then s.plainWrite off v else s)
      else s.plainWrite off v
    else s.plainWrite off v
  else s.plainWrite off v

/-! ### TAIL -/

/-- A write of TAIL_TRG_CFG(u) (R345, R349): a unit that is always armed is armed when EN becomes 1. -/
def State.trgWrite (s : State) (u : Nat) (v : Word) : State :=
  let was := s.on (TAIL_TRG_CFG_EN u)
  let old := s.f (TAIL_TRG_CFG_ARM_SRC u)
  let s1 := s.plainWrite (TAIL_TRG_CFG u) v
  let en := s1.on (TAIL_TRG_CFG_EN u)
  let always := s1.f (TAIL_TRG_CFG_ARM_SRC u) == 0
  if fget v 30 30 = 1 then s1.setTail { s1.tail with armDue := ladd s1.tail.armDue u }
  else if en && always && (!was || old != 0) then s1.trigArm u
  else if !en && always then s1.put (TAIL_TRG_STAT_ARMED u) 0
  else s1

/-- A write of TAIL_RING_CFG(k) (R351, R353): EN from 0 to 1 clears WR, LOST and STOPPED, and playback starts at RD. -/
def State.ringWrite (s : State) (k : Nat) (v : Word) : State :=
  let s1 := s.plainWrite (TAIL_RING_CFG k) v
  if !s.on (TAIL_RING_CFG_EN k) && s1.on (TAIL_RING_CFG_EN k) then
    let s2 := ((s1.setReg (TAIL_RING_WR k) 0).setReg (TAIL_RING_LOST k) 0).put (TAIL_RING_CFG_STOPPED k) 0
    s2.setTail { s2.tail with
      ringSaid := ldel s2.tail.ringSaid k, post := mset s2.tail.post none k none,
      play := mset s2.tail.play none k (some (s2.f (TAIL_RING_RD_INDEX k))) }
  else s1

/-- A write to TAIL. -/
def State.tailPut (s : State) (off : Nat) (v : Word) : State :=
  if off = TAIL_SPOOL_BASE ∨ off = TAIL_SPOOL_SLOTS then (if s.on TAIL_CTRL_EN then s else s.plainWrite off v)
  else if off = TAIL_CAP_CTRL then
    let s1 := s.put TAIL_CAP_CTRL_MODE (fget v 30 29)
    if fget v 31 31 = 1 then s1.captureGo (fget v 30 29) else s1
  else if off = TAIL_CAP_PERIOD then (if s.stopped then s.plainWrite off v else s)
  else if off = TAIL_REEL_CTRL then
    let s1 := s.put TAIL_REEL_CTRL_SLOT (fget v 7 0)
    let s2 := if fget v 30 30 = 1 then s1.reelBreak 9 else s1
    if fget v 31 31 = 1 then s2.reelGo (fget v 7 0) else s2
  else if off = TAIL_EXP_CTRL then
    let s1 := s.putFields [TAIL_EXP_CTRL_DIR, TAIL_EXP_CTRL_KEY_SLOT, TAIL_EXP_CTRL_SLOT] v
    let s2 := if fget v 29 29 = 1 then s1.xferEnd 7 else s1
    if fget v 31 31 = 1 then s2.xferGo (fget v 30 30 == 1) (fget v 15 8) (fget v 7 0) else s2
  else if 0x910000 ≤ off ∧ off < 0x911000 ∧ off % 16 = 0 then
    let i := (off - 0x910000) / 16
    let s1 := s.put (TAIL_CAT_STAT_PIN i) (fget v 28 28)
    if fget v 27 27 = 1 ∧ s1.slotLoose i then s1.slotFree i else s1
  else if 0x920000 ≤ off ∧ off < 0x921000 ∧ off % 0x40 = 0 then s.trgWrite ((off - 0x920000) / 0x40) v
  else if 0x930000 ≤ off ∧ off < 0x930100 then
    let k := (off - 0x930000) / 0x20
    if off % 0x20 = 0 then s.ringWrite k v
    else if off % 0x20 = 8 ∨ off % 0x20 = 0xC then (if s.on (TAIL_RING_CFG_EN k) then s else s.plainWrite off v)
    else s.plainWrite off v
  else s.plainWrite off v

/-! ### BALLAST -/

/-- A read of BALLAST: ELIGIBLE and BLOCK show what holds now (R521, R522). -/
def State.balRead (s : State) (off : Nat) (peek : Bool) : State × Rsp :=
  if off = BAL_PWR_STAT then valued s (fput (fput (s.reg off) 25 24 s.eligible) 11 8 s.powerBlock).toNat
  else if 0xA01220 ≤ off ∧ off < 0xA01260 ∧ off % 0x20 < 8 then (s, rspOk)
  else s.plainRead off peek

/-- A write to BALLAST. -/
def State.balWrite (s : State) (off : Nat) (v : Word) : State :=
  if off = BAL_CTRL then
    let s1 := s.plainWrite off v
    (s1.when (!s1.on BAL_CTRL_DROOP_EN) (fun t => t.put BAL_STAT_CLAMP 0)).balSettle
  else if off = BAL_PWR_REQ then
    let s1 := s.powerRequest (fget v 1 0)
    if fget v 31 31 = 1 then s1.wake 4 else s1
  else if 0xA01220 ≤ off ∧ off < 0xA01260 ∧ off % 0x20 < 8 then s
  else (s.plainWrite off v).balSettle

/-! ### SECURITY -/

/-- A read of SECURITY. -/
def State.secRead (s : State) (off : Nat) (peek : Bool) : State × Rsp :=
  if off = SEC_STATE then valued s (fput (s.reg off) 29 29 (b2n s.alarmed)).toNat else s.plainRead off peek

/-- A write to SECURITY by source `src`. -/
def State.secWrite (s : State) (src off : Nat) (v : Word) : State × Rsp :=
  if off = SEC_ALARM then s.alarmWrite src v
  else if off = SEC_FUSE_CMD then s.protWrite src 0 v (s.unlockLate 0)
  else if off = SEC_KEY_CMD then s.protWrite src 1 v (s.unlockLate 1)
  else if off = SEC_ALARM_CFG then s.protWrite src 2 v (s.unlockLate 2)
  else if 0xB00040 ≤ off ∧ off < 0xB00070 then
    (s.setSec { s.sec with keyData := mset s.sec.keyData 0 ((off - 0xB00040) / 4) v }, rspOk)
  else (s.plainWrite off v, rspOk)

/-! ### HOSTIF -/

/-- A read of HOSTIF: the MSI-X table and its pending bits (R532). -/
def State.hifRead (s : State) (off : Nat) (peek : Bool) : State × Rsp :=
  if 0xC80000 ≤ off ∧ off < 0xC88000 then valued s (s.msixRead (off - 0xC80000))
  else if 0xC90000 ≤ off ∧ off < 0xC90100 then valued s (s.pbaRead ((off - 0xC90000) / 4))
  else s.plainRead off peek

/-- A write to HOSTIF. -/
def State.hifWrite (s : State) (off : Nat) (v : Word) : State :=
  if 0xC20000 ≤ off ∧ off < 0xC28000 ∧ off % 0x20 = 0 then s.ringCfg ((off - 0xC20000) / 0x20) v
  else if 0xC40000 ≤ off ∧ off < 0xC41000 then s.ringBell ((off - 0xC40000) / 4) (fget v 15 0)
  else if 0xC80000 ≤ off ∧ off < 0xC88000 then s.msixWrite (off - 0xC80000) v.toNat
  else s.plainWrite off v

/-! ### PINS, TETHER -/

/-- A read of PINS: the receive FIFOs pop, but for a peek. -/
def State.pinsRead (s : State) (off : Nat) (peek : Bool) : State × Rsp :=
  if off = UART_DATA 0 ∨ off = UART_DATA 1 then
    let u := (off - 0xD02004) / 16
    (if peek then s else s.uartPop u, ⟨0, 0, (s.uartHead u).toNat, 0⟩)
  else if off = SPI_DATA then (if peek then s else s.spiPop, ⟨0, 0, s.spiHead.toNat, 0⟩)
  else s.plainRead off peek

/-- A write to PINS. -/
def State.pinsWrite (s : State) (off : Nat) (v : Word) : State :=
  let pins := fun (b : Nat) => (List.range 32).map (fun k => 32 * b + k)
  if off < 0xD00050 then
    let b := (off - 0xD00000) / 16
    match off % 16 / 4 with
    | 0 => (s.setReg off v).pinFollow (pins b)
    | 1 => s.via (execGpioSet b v)
    | 2 => s.via (execGpioClr b v)
    | _ => s
  else if 0xD00080 ≤ off ∧ off < 0xD00094 then (s.setReg off v).pinFollow (pins ((off - 0xD00080) / 4))
  else if off = PIN_PERIPH_EN ∨ (0xD01000 ≤ off ∧ off < 0xD01280) ∨ off = SPI_CTRL then s.ownerWrite off v
  else if off = UART_TX 0 ∨ off = UART_TX 1 then s.uartPush ((off - 0xD02008) / 16) (fget v 7 0)
  else if off = I2C_CMD 0 ∨ off = I2C_CMD 1 then s.i2cWrite ((off - 0xD02100) / 16) v
  else if off = SPI_TX then s.spiPush (fget v 7 0)
  else if off = GDL_XFER_CTRL then
    let s1 := (s.put GDL_XFER_CTRL_DIR (fget v 30 30)).put GDL_XFER_CTRL_LEN (fget v 23 0)
    let s2 := if fget v 29 29 = 1 then s1.gdlEnd 8 else s1
    if fget v 31 31 = 1 then s2.gdlGo (fget v 30 30 == 1) (fget v 23 0) else s2
  else s.plainWrite off v

/-- A write to TETHER. -/
def State.tetherWrite (s : State) (off : Nat) (v : Word) : State :=
  if off = TET_CTRL then (s.plainWrite off v).tetSync
  else if off = TET_CKOUT 0 ∨ off = TET_CKOUT 1 then
    let s1 := s.plainWrite off v
    s1.tetSend1 (.clk 0 0)
  else if 0xE80008 ≤ off ∧ off < 0xE80018 then s.tetWrite ((off - 0xE80008) / 4) v.toNat
  else s.plainWrite off v

/-! ### Station core blocks -/

/-- The core whose block holds `off`, and the offset in it; 17: the rest of the STW block. -/
def coreAt (off : Nat) : Nat × Nat := ((off - 0x1000000) / 0x10000, off % 0x10000)

/-- A read of a core block or of the semaphores by source `src`. -/
def State.coreGet (s : State) (src off : Nat) (peek : Bool) : State × Rsp :=
  let c := (coreAt off).1
  let o := (coreAt off).2
  if c < 17 then s.coreBlockRead c o peek
  else if 0x1180800 ≤ off ∧ off < 0x1180C00 then
    let i := (off - 0x1180800) / 4
    (if peek then s else s.semLr src i, ⟨0, 0, s.f (STW_SEM_VALUE i), 0⟩)
  else if 0x1180000 ≤ off ∧ off < 0x1180400 then s.plainRead off peek
  else (s, rspOk)

/-- A write to a core block or the semaphores. -/
def State.corePut (s : State) (src off : Nat) (v : Word) : State × Rsp :=
  let c := (coreAt off).1
  let o := (coreAt off).2
  if c < 17 then (if o = 0x14 ∧ s.pDenied src c then (s, rspDenied) else s.coreBlockWrite c o v)
  else if 0x1180000 ≤ off ∧ off < 0x1180400 then (s.semWrite ((off - 0x1180000) / 4) v, rspOk)
  else if 0x1180400 ≤ off ∧ off < 0x1180800 then s.semSc src ((off - 0x1180400) / 4) v
  else (s, rspOk)

/-! ### The register window -/

/-- A read of a register that is neither held nor gated. -/
def State.blockGet (s : State) (src off : Nat) (peek : Bool) : State × Rsp :=
  if 0x1000000 ≤ off then s.coreGet src off peek
  else match off / 0x100000 with
    | 0 => s.devRead off peek
    | 1 => s.clkRead off peek
    | 2 => s.cfgRead off peek
    | 3 => s.intRead off peek
    | 4 => s.memCtrlRead off peek
    | 5 => if 0x5025C0 ≤ off ∧ off < 0x502800 ∨ 0x5045C0 ≤ off ∧ off < 0x504800 then (s, rspOk) else s.plainRead off peek
    | 6 => s.callerRead off peek
    | 7 => s.latRead off peek
    | 8 => s.glsRead off peek
    | 10 => s.balRead off peek
    | 11 => s.secRead off peek
    | 12 => s.hifRead off peek
    | 13 => s.pinsRead off peek
    | 15 => s.dbgRead src off
    | _ => s.plainRead off peek

/-- A read of the hub register at offset `off` by source `src`; none: it is held. `peek`: a debugger's peek (R484). -/
def State.hubGet (s : State) (src off : Nat) (peek : Bool) : State × Option Rsp :=
  if s.regHeld off then (s.heldWake, none)
  else if s.regGated off then (s, some rspOk)
  else
    let r := (if peek then s else s.regWakes off).blockGet src off peek
    (r.1, some r.2)

/-- A write below Aloft that asks for a capture is accepted although the Tail is stopped (R525). -/
def State.capAsk (s : State) (off : Nat) (v : Word) : Bool := off == TAIL_CAP_CTRL && fget v 31 31 == 1 && s.gateOn 36

/-- A write of `v` to the hub register at offset `off` by source `src`; none: its target cannot accept it yet. -/
def State.hubPut (s0 : State) (src off : Nat) (v : Word) : State × Option Rsp :=
  let s := s0.regWakes off
  let some_ := fun (r : State × Rsp) => (r.1.settle, some r.2)
  let ok := fun (t : State) => (t.settle, some rspOk)
  if s.hostBlocked src off then (s, some rspDenied)
  else if s.regHeld off then (s.heldWake, none)
  else if s.regGated off && !s.capAsk off v then (s, some rspOk)
  else if 0x1000000 ≤ off then some_ (s.corePut src off v)
  else match off / 0x100000 with
    | 0 => s.devWrite off v
    | 1 => ok (s.clkWrite off v)
    | 2 => ok (s.cfgWrite off v)
    | 3 => ok (s.intWrite off v)
    | 4 => ok (s.memCtrl off v)
    | 5 => ok (s.meshWrite off v)
    | 6 => some_ (s.callerPut off v)
    | 7 => ok (s.latWrite off v)
    | 8 => ok (s.glsWrite off v)
    | 9 => ok (s.tailPut off v)
    | 10 => ok (s.balWrite off v)
    | 11 => some_ (s.secWrite src off v)
    | 12 => ok (s.hifWrite off v)
    | 13 => ok (s.pinsWrite off v)
    | 14 => ok (s.tetherWrite off v)
    | 15 =>
      let r := s.dbgWrite src off v
      (r.1.settle, r.2)
    | _ => ok (s.plainWrite off v)

/-! ### Commands -/

/-- A register write takes effect, or is held: its target cannot accept it yet, or an earlier write of its source to the register is held
(R29, R35, R520). -/
def State.putOrHold (s : State) (src off : Nat) (v : Word) : State :=
  if s.mesh.heldWr.any (fun e => e.1 == src && e.2.1 == off) then s.holdWrite src off v
  else match s.hubPut src off v with
    | (t, some _) => t
    | (t, none) => t.holdWrite src off v

/-- Held register writes that can take effect now do, in their order. -/
def heldRetry : List (Nat × Nat × Word) → State → State
  | [], s => s
  | e :: t, s => heldRetry t (s.putOrHold e.1 e.2.1 e.2.2)

/-- The held register writes are tried again. -/
def State.retryHeld (s : State) : State := heldRetry s.mesh.heldWr (s.setMesh { s.mesh with heldWr := [] })

/-- POWER_TRANSITION_END (R526, R527): accesses that the state held arrive now (R520). -/
def execPowerTransitionEnd (s : State) : Out := .next (((s.powerEnd).latSettle.settle).retryHeld)

/-- REGISTER_WRITE (R10): a write of `v` to the hub register at offset `off` by source `src`, whose effect is that of its access code or
of its own rules. -/
def execRegisterWrite (src off : Nat) (v : Word) (s : State) : Out :=
  .next (if off % 4 = 0 ∧ off < 0x1200000 then s.putOrHold src off v else s)

/-- FENCE_COMPLETE (R32, R34, R35): a fence write that was held for it may take effect. -/
def execFenceComplete (src : Nat) (s : State) : Out := .next (s.completeFence src).retryHeld

/-- CLEARING_READ (R10, R11): a read of the hub register at offset `off` by source `src` clears its RC fields. -/
def execClearingRead (src off : Nat) (s : State) : Out :=
  .next (if off % 4 = 0 ∧ off < 0x1200000 then (s.hubGet src off false).1 else s)

end Sys2Proof.Machine
end

