-- ==== Sys2Proof/Machine/Mesh.lean ====
section
/-! DEFINITION. Sys2Proof/Machine/Mesh.lean: the commands of the mesh (file 10): a request from its initiator port to its target (R376
to R378), a response to its initiator (R378, R383), isolation (R384 to R388), the monitors (R389, R390). -/

namespace Sys2Proof.Machine

/-! ### Register targets -/

/-- The Tether data window (R573). -/
def inTetWindow (off : Nat) : Bool := decide (0xE80000 ≤ off ∧ off < 0xE80018)

/-- The 32-bit access at byte `k` of a register access (R8): source 22 peeks (R481). -/
def State.hubDword (s : State) (a : Acc) (off k : Nat) : State × Option Rsp :=
  let sh := 8 * ((a.addr + k) % 64)
  if a.write then s.hubPut a.src (off + k) (BitVec.ofNat 32 (a.data >>> sh))
  else
    let r := s.hubGet a.src (off + k) (a.src == 22)
    (r.1, r.2.map (fun x => { x with data := x.data <<< sh }))

/-- Two 32-bit accesses, the lower address first (R8); none when either waits. -/
def State.hubPair (s : State) (a : Acc) (lo : State → State × Option Rsp) (hi : State → State × Option Rsp) : State × Option Rsp :=
  let r := lo s
  match r.2 with
  | none => r
  | some x =>
    let q := hi r.1
    match q.2 with
    | none => (s, none)
    | some y =>
      let w := worse x.status y.status
      (q.1, some ⟨w, if x.status = w then x.cause else y.cause, if a.write then 0 else x.data ||| y.data, 0⟩)

/-- An access of a size and alignment that a register takes (R8, R374): every byte of it enabled. -/
def regSize (a : Acc) : Bool :=
  (a.size == 4 || a.size == 8) && a.addr % a.size == 0 && (!a.write || a.be == accBytes a.addr a.size)

/-- A whole 8-byte write to the Tether data window (R573); TET_IN takes no write. -/
def State.tetPut8 (s : State) (off : Nat) (v : Nat) : State × Option Rsp :=
  if s.regHeld off then (s.heldWake, none)
  else if s.regGated off then (s, some rspOk)
  else (if off = 0xE80008 then (s.tetWrite 4 v).settle else if off = 0xE80010 then (s.tetWrite 5 v).settle else s, some rspOk)

/-- An access to the hub register window (R8, R374, R420); none: its target cannot accept it yet. -/
def State.hubAcc (s : State) (a : Acc) (off : Nat) : State × Option Rsp :=
  if !regSize a then (s, some ⟨4, 1, 0, 0⟩)
  else if a.write && a.poison != 0 then (s, some ⟨4, 0x23, 0, 0⟩)
  else if a.size = 4 then s.hubDword a off 0
  else if a.write && inTetWindow off then s.tetPut8 off ((a.data >>> (8 * (a.addr % 64))) % 2 ^ 64)
  else s.hubPair a (fun t => t.hubDword a off 0) (fun t => t.hubDword a off 4)

/-- The 32-bit access at byte `k` of an access to a boundary aperture. -/
def State.apDword (s : State) (a : Acc) (n off k : Nat) : State × Option Rsp :=
  let sh := 8 * ((a.addr + k) % 64)
  if a.write then
    let r := s.apWrite n (off + k) (BitVec.ofNat 32 (a.data >>> sh))
    (r.1, some r.2)
  else
    let r := s.apRead n (off + k) (a.src == 22)
    (r.1, some { r.2 with data := r.2.data <<< sh })

/-- An access to a boundary aperture (R84 to R86); its registers take accesses as hub registers do. -/
def State.apAcc (s : State) (a : Acc) (n off : Nat) : State × Option Rsp :=
  if !regSize a then (s, some ⟨4, 1, 0, 0⟩)
  else if a.write && a.poison != 0 then (s, some ⟨4, 0x23, 0, 0⟩)
  else if a.size = 4 then s.apDword a n off 0
  else s.hubPair a (fun t => t.apDword a n off 0) (fun t => t.apDword a n off 4)

/-! ### Requests -/

/-- An access has completed at its initiator with `r`: the host's go to their TLP or descriptor at once, the others wait for their
requester. -/
def State.deliver (s : State) (a : Acc) (r : Rsp) : State :=
  if a.src = 0 then
    let s1 := (s.opVisible a.key (r.status != 0)).hostTake a r
    issueTodo s1.host.todo s1
  else s.meshDone a r

/-- The port answers an access itself with UNMAPPED (R23, R179, R376). -/
def State.sendUnmapped (s : State) (a : Acc) : State :=
  let s1 := s.noTarget a.src a.write a.addr
  ((s1.setTagAt a.key .idle).setMesh { (s1.setTagAt a.key .idle).mesh with out := s1.mesh.out.filter (fun k => k != a.key) }).deliver a ⟨1, 0, 0, 0⟩

/-- The head flit of an access departs: its tag is busy (R378). -/
def State.depart (s : State) (a : Acc) : State :=
  let s1 := s.setTagAt a.key (.busy a false)
  (s1.setMesh { s1.mesh with out := s1.mesh.out.filter (fun k => k != a.key) }).iniStat a.src

/-- A delivered request waits at target port `t`. -/
def State.waitAt (s : State) (t : Nat) (a : Acc) : State := (s.setWaits t (s.waits t ++ [⟨a, false, s.fig.toNat⟩])).settle

/-- Stack controller `k` receives a request (R161, R374, R397, R413, R508); none: it accepts none now. -/
def State.stackTake (s : State) (k : Nat) (a : Acc) : Option State :=
  if s.blockGated (32 + k) then some (s.meshAnswer (64 + 4 * k) a rspOk)
  else if !sizeOk a.addr a.size then some (s.meshAnswer (64 + 4 * k) a ⟨4, 1, 0, 0⟩)
  else if s.power < 2 ∧ (s.keyAt a.addr).isNone then some (s.meshAnswer (64 + 4 * k) a ⟨4, 0x21, 0, 0⟩)
  else if 256 ≤ (s.waits (64 + 4 * k)).length ∨ !s.memPorts ∨ !s.hbmPll k then none
  else some (s.waitAt (64 + 4 * k) a)

/-- The target port of sector `n` receives a request (R88, R90, R91); none: it accepts none now. -/
def State.userTake (s : State) (n : Nat) (a : Acc) : Option State :=
  if !s.sectorLive n then some (s.meshAnswer (4 * n + 1) a ⟨4, 0x71, 0, 0⟩)
  else if !sizeOk a.addr a.size then some (s.meshAnswer (4 * n + 1) a ⟨4, 1, 0, 0⟩)
  else if 32 ≤ (mget s.fab.tReq [] n).length then none
  else some (s.waitAt (4 * n + 1) a)

/-- What a target that may accept nothing makes of a request. -/
def State.tookOr (s : State) (r : Option State) : State × Bool :=
  match r with
  | some t => (t, true)
  | none => (s, false)

/-- What a register target makes of a request: the answer, or none with the state that the attempt leaves. -/
def regTake (t : Nat) (a : Acc) (r : State × Option Rsp) : State × Bool :=
  match r.2 with
  | none => (r.1, false)
  | some x => (r.1.meshAnswer t a x, true)

/-- A request has reached its target; the second component: whether it was accepted. `stuck`: the target holds it and
makes no progress. -/
def State.reach (s : State) (a : Acc) (d : Dest) (stuck : Bool) : State × Bool :=
  if s.absorbed d.port then (s.absorbAnswer d.port a, true)
  else if stuck then (s.setWaits d.port (s.waits d.port ++ [⟨a, false, s.fig.toNat⟩]), true)
  else match d with
    | .unmapped => (s, true)
    | .stack k => s.tookOr (s.stackTake k a)
    | .user n _ => s.tookOr (s.userTake n a)
    | .aperture n off => regTake d.port a (s.apAcc a n off)
    | .hub off => regTake d.port a (s.hubAcc a off)

/-! ### The network (R370, R371) -/

/-- The flits in input buffer `k`, oldest first. -/
def State.bufOf (s : State) (k : Nat) : List NFlit := mget s.mesh.buf [] k

/-- Replace the flits of input buffer `k`. -/
def State.setBuf (s : State) (k : Nat) (l : List NFlit) : State := s.setMesh { s.mesh with buf := mset s.mesh.buf [] k l }

/-- The output that the first flit of buffer `k` waits for (R368, R370): a head takes an output VC that no packet holds, the other flits
follow in the one that their packet holds. -/
def State.wants (s : State) (k : Nat) : Option Nat :=
  match s.bufOf k with
  | [] => none
  | f :: _ =>
    let r := k / 32
    let free := fun (o : Nat) => mget s.mesh.grant none (4 * (8 * r + o) + k % 4)
    if f.kind % 2 = 1 then
      let h := headOf f.data
      let o := hopOut r h.dst h.dport
      if (free o).isNone then some o else none
    else (List.range 8).find? (fun o => free o == some (k / 4 % 8))

/-- The buffer that output `o` of router `r` fills in VC `v`. -/
def nextBuf (r o v : Nat) : Nat := 4 * (8 * (hopTo r o).1 + (hopTo r o).2) + v

/-- The next router has a credit for the flit (R370); a local port takes what its target accepts. -/
def State.credit (s : State) (r o v : Nat) : Bool := decide (o < 4) || decide ((s.bufOf (nextBuf r o v)).length < 8)

/-- A VC3 request that its target cannot answer yet waits in the target's queue of 4 (R380). -/
def State.vc3Hold (s : State) (t : Nat) (a : Acc) : Option State :=
  let l := mget s.mesh.vc3 [] t
  if l.length < 4 then some (s.setMesh { s.mesh with vc3 := mset s.mesh.vc3 [] t (l ++ [a]) }) else none

/-- A request arrives at target port `t` on VC `v`; the second component: whether it was accepted. `stuck` names a request that its target
holds and makes no progress with. -/
def State.arriveAt (s : State) (t v : Nat) (a : Acc) (stuck : Option Nat) : State × Bool :=
  let behind := v == 3 && !(mget s.mesh.vc3 [] t).isEmpty
  let r := if behind then (s, false) else s.reach a (destOf a.addr) (stuck == some a.key)
  if r.2 || v != 3 then r
  else match r.1.vc3Hold t a with
    | some u => (u, true)
    | none => r

/-- A flit leaves the mesh at port `t` on VC `v`: with its last flit the request arrives. -/
def State.eject (s : State) (t v : Nat) (f : NFlit) (stuck : Option Nat) : State × Bool :=
  let k := 4 * t + v
  let l := mget s.mesh.part [] k ++ [f]
  if f.kind < 2 then (s.setMesh { s.mesh with part := mset s.mesh.part [] k l }, true)
  else
    let r := s.arriveAt t v (reqOf l) stuck
    if r.2 then (r.1.setMesh { r.1.mesh with part := mset r.1.mesh.part [] k [] }, true) else r

/-- The turn after a grant to VC `v`, 0 or 2, of an output (R371): W0 + 1 grants to VC0, then W2 + 1 to VC2. -/
def turnNext (w0 w2 t v : Nat) : Nat :=
  (if v = 0 then (if t ≤ w0 then t + 1 else 1) else (if t ≤ w0 then w0 + 2 else t + 1)) % (w0 + w2 + 2)

/-- An output has sent flit `f` of buffer `k` (R370, R371): the packet holds the output VC from head to tail; the turns move on. -/
def State.granted (s : State) (o k : Nat) (f : NFlit) : State :=
  let g := 4 * (8 * (k / 32) + o) + k % 4
  let i := k / 4 % 8
  let out := 8 * (k / 32) + o
  let m := s.mesh
  s.setMesh { m with
    grant := mset m.grant none g (if f.kind = 1 then some i else if f.kind = 2 then none else mget m.grant none g)
    lastIn := if f.kind % 2 = 1 then mset m.lastIn 0 g i else m.lastIn
    turn := if k % 4 = 0 ∨ k % 4 = 2 then mset m.turn 0 out (turnNext (s.f MESH_CTRL_W0) (s.f MESH_CTRL_W2) (mget m.turn 0 out) (k % 4)) else m.turn }

/-- The first flit of buffer `k` moves through output `o`; the second component: whether it did. -/
def State.moveFlit (s : State) (o k : Nat) (stuck : Option Nat) : State × Bool :=
  match s.bufOf k with
  | [] => (s, false)
  | f :: rest =>
    let r := k / 32
    let v := k % 4
    if 4 ≤ o then
      let s1 := s.setBuf k rest
      ((s1.setBuf (nextBuf r o v) (s1.bufOf (nextBuf r o v) ++ [f])).granted o k f, true)
    else
      let e := s.eject (4 * r + o) v f stuck
      if e.2 then ((e.1.setBuf k rest).granted o k f, true) else e

/-- The order in which output `out` tries its inputs (R371): VC3, VC1, then VC0 and VC2 by their turns; within a VC the inputs in turn. -/
def State.outOrder (s : State) (out : Nat) : List Nat :=
  let vcs := if mget s.mesh.turn 0 out ≤ s.f MESH_CTRL_W0 then [3, 1, 0, 2] else [3, 1, 2, 0]
  vcs.flatMap (fun v => (List.range 8).map (fun j => 4 * (8 * (out / 8) + (mget s.mesh.lastIn 0 (4 * out + v) + 1 + j) % 8) + v))

/-- The first of the buffers `ks` that can send its flit through output `o` does. -/
def netTry (o : Nat) (stuck : Option Nat) : List Nat → State → State × Bool
  | [], s => (s, false)
  | k :: t, s =>
    let r := s.moveFlit o k stuck
    if r.2 then r else netTry o stuck t r.1

/-- The buffers whose first flit can move now, with their outputs. -/
def State.movers (s : State) : List (Nat × Nat) :=
  s.mesh.buf.filterMap (fun e => (s.wants e.1).bind (fun o =>
    if s.credit (e.1 / 32) o (e.1 % 4) then some (8 * (e.1 / 32) + o, e.1) else none))

/-- One cycle of the outputs `outs` (R371): each grants one flit of those in `ms`. -/
def netOuts (ms : List (Nat × Nat)) (stuck : Option Nat) : List Nat → State → State × Bool
  | [], s => (s, false)
  | out :: t, s =>
    let ks := (s.outOrder out).filter (fun k => decide ((out, k) ∈ ms))
    let r := netTry (out % 8) stuck ks s
    let q := netOuts ms stuck t r.1
    (q.1, r.2 || q.2)

/-- The oldest request in the VC3 queue of each port is tried again (R380). -/
def vc3Retry : List (Nat × List Acc) → State → State × Bool
  | [], s => (s, false)
  | (t, l) :: rest, s =>
    match l with
    | [] => vc3Retry rest s
    | a :: more =>
      let r := s.reach a (destOf a.addr) false
      let s1 := if r.2 then r.1.setMesh { r.1.mesh with vc3 := mset r.1.mesh.vc3 [] t more } else r.1
      let q := vc3Retry rest s1
      (q.1, r.2 || q.2)

/-- Cycles of the mesh until no flit moves. -/
def netRun : Nat → Option Nat → State → State
  | 0, _, s => s
  | n + 1, stuck, s =>
    let a := vc3Retry s.mesh.vc3 s
    let ms := a.1.movers
    let r := netOuts ms stuck (ms.map (·.1)).eraseDups a.1
    if a.2 || r.2 then netRun n stuck r.1 else r.1

/-- The flits that the mesh holds move as far as credits and targets let them (R370, R371): at each FIG edge and with every command of the
mesh (log entry 49). -/
def State.netMove (s : State) (stuck : Option Nat) : State :=
  if s.meshRuns then netRun (12 * (s.mesh.buf.map (fun e => e.2.length)).sum + 80) stuck s else s

/-! ### Requests enter -/

/-- What the routers of a path find in a packet: an uncorrectable head is found by a router that the packet passes (R368, R382). -/
def Flit.onPath (fl : Flit) (l : List (Nat × Nat)) : Flit := { fl with hdr := fl.hdr.filter (fun x => decide (x ∈ l)) }

/-- A queued access enters the mesh at its port, or is answered there; the second component: whether it did. The port sends a packet when
the input VC has room for all of it (log entry 49). `fl`: what the routers find in it. -/
def State.meshSend (s : State) (a : Acc) (fl : Flit) : State × Bool :=
  let d := if s.storeGuarded a.src a.addr then .unmapped else s.decodeDest a.addr
  if d = .unmapped then (s.sendUnmapped a, true)
  else
    let p := backPort a.src d.port
    let x := fl.onPath (path p d.port)
    let a1 := if a.write then { a with poison := a.poison ||| (x.ue % 256 &&& wordMask a.addr a.size) } else a
    let l := reqPacket a1 d.port
    let k := 4 * (8 * (p / 4) + p % 4) + portVc a.src d.port
    if 8 < (s.bufOf k).length + l.length then (s, false)
    else
      let s1 := (s.flitEvents x).depart a
      if x.hdr.isSome then (s1, true) else (s1.setBuf k (s1.bufOf k ++ l), true)

/-- The first queued access of a list that its source's order lets go (R31, R377), and for which the mesh has room, is sent; with its
key. -/
def meshFirst (fl : Flit) : List Nat → List Nat → State → State × Option Nat
  | [], _, s => (s, none)
  | k :: t, seen, s =>
    match s.tagAt k with
    | .queued a =>
      if s.accHeld a || decide (a.addr / 64 ∈ seen) then meshFirst fl t (a.addr / 64 :: seen) s
      else
        let r := s.meshSend a fl
        if r.2 then (r.1, some k) else meshFirst fl t (a.addr / 64 :: seen) r.1
    | _ => meshFirst fl t seen s

/-- MESH_REQUEST (R376 to R378): the port of source `src` sends its oldest access that can go, and the flits in the mesh move on; `stuck`:
the target holds this access and makes no progress with it. -/
def execMeshRequest (src : Nat) (fl : Flit) (stuck : Bool) (s : State) : Out :=
  .next <|
    if s.meshRuns then
      let r := meshFirst fl (s.mesh.out.filter (fun k => k / 64 == src)) [] s
      r.1.netMove (if stuck then r.2 else none)
    else s

/-! ### Responses -/

/-- What a router's find makes of a response (R381). -/
def rspFlit (a : Acc) (r : Rsp) (fl : Flit) : Rsp :=
  if a.write || r.status != 0 then r else { r with poison := r.poison ||| (fl.ue % 256 &&& wordMask a.addr a.size) }

/-- The least latency of an access (R368, R390): the trip of the request and the trip of the response. -/
def minLat (a : Acc) : Nat :=
  let t := (destOf a.addr).port
  tripCycles (backPort a.src t) t + tripCycles t (backPort a.src t)

/-- A response reaches its tag (R378, R383, R387, R391). -/
def State.takeRsp (s : State) (src tag lat : Nat) (r : Rsp) (fl : Flit) : State :=
  let k := 64 * src + tag
  match s.tagAt k with
  | .busy a drop =>
    let s1 := ((((s.setTagAt k .idle).iniStat src).monAdd a).histAdd src (max lat (minLat a)))
    if drop then s1.opVisible k false else s1.deliver a (rspFlit a r fl)
  | .quarantined => (s.setTagAt k .idle).iniStat src
  | _ => s.meshStray 0 src tag

/-- MESH_RESPONSE (R378, R379, R383): the oldest response on its way for tag `tag` of source `src` arrives, `lat` cycles after its
request, and the initiator consumes it at once. -/
def execMeshResponse (src tag lat : Nat) (fl : Flit) (s : State) : Out :=
  .next <|
    match s.mesh.rsps.find? (fun l => keyOf l == 64 * src + tag), s.meshRuns with
    | some l, true =>
      let t := (destOf (headOf ((l.head?.map NFlit.data).getD 0)).addr).port
      let x := fl.onPath (path t (backPort src t))
      let s1 := (s.setMesh { s.mesh with rsps := s.mesh.rsps.erase l }).flitEvents x
      ((if x.hdr.isSome then s1 else s1.takeRsp src tag lat (rspOf l) x).netMove none).settle
    | _, _ => s

/-- INI_TMO (R383): a tag has been busy for INI_TMO. -/
def execIniTmo (src tag : Nat) (s : State) : Out :=
  .next <|
    let k := 64 * src + tag
    match s.tagAt k with
    | .busy a drop =>
      let s1 := ((s.setTagAt k .quarantined).iniStat src).meshErr 2 0 0 src tag
      let s2 := (s1.raise 193).histAdd src s.iniTmo
      if drop then s2.opVisible k false else s2.deliver a ⟨3, 0, 0, 0⟩
    | _ => s

/-! ### Isolation -/

/-- A port holds a request whose time counts (R384, R520). -/
def State.portHolds (s : State) (t : Nat) : Bool :=
  let free := if t < 64 then s.power == 0 else if t < 80 && t % 4 == 0 then decide (s.power < 2) else true
  free && ((s.waits t).any (fun w => !w.ghost) || !(mget s.mesh.vc3 [] t).isEmpty ||
    s.mesh.buf.any (fun e => e.1 / 32 == t / 4 && s.wants e.1 == some (t % 4)))

/-- The requests that a port held when it was isolated are answered by the router (R385). -/
def State.absorbWaits (s : State) (t : Nat) : State :=
  let l := (s.waits t).filter (fun w => !w.ghost)
  let q := mget s.mesh.vc3 [] t
  let s1 := (s.setWaits t ((s.waits t).map (fun w => { w with ghost := true }))).each l (fun w u => u.absorbAnswer t w.acc)
  (s1.setMesh { s1.mesh with vc3 := mset s1.mesh.vc3 [] t [] }).each q (fun a u => u.absorbAnswer t a)

/-- ABSORB (R384, R385): the progress timer of target port `t` reaches its TMO. -/
def execAbsorb (t : Nat) (s : State) : Out :=
  .next <|
    if t < 96 ∧ s.on (MESH_TGT_CFG_PRESENT t) ∧ !s.on (MESH_TGT_CFG_EXEMPT t) ∧ !s.absorbed t ∧ s.portHolds t then
      (((s.put (MESH_TGT_STAT_STATE t) 1).meshErr 1 (t / 4) (t % 4) 0 0 |>.raise 192).absorbWaits t).netMove none
    else s

/-- MESH_RESUME (R387). -/
def execMeshResume (t : Nat) (s : State) : Out := .next (if t < 96 then s.tgtResume t else s)

/-! ### Monitors -/

/-- MESH_MONITOR_WINDOW (R389). -/
def execMeshMonitorWindow (s : State) : Out :=
  .next <|
    let s1 := s.each (List.range 48) (fun i t =>
      (t.put (MESH_INI_RDB_COUNT i) (mget s.mesh.monBytes 0 (2 * i))).put (MESH_INI_WRB_COUNT i) (mget s.mesh.monBytes 0 (2 * i + 1)))
    s1.setMesh { s1.mesh with monBytes := [] }

/-- CLR_HIST (R390). -/
def execClrHist (s : State) : Out := .next s.clearHist

end Sys2Proof.Machine
end

