-- ==== Sys2Proof/Machine/Host.lean ====
section
/-! DEFINITION. Sys2Proof/Machine/Host.lean: the commands of the host interface (R532 to R543): TLPs, completions, the link, LTR,
interrupts, the DMA rings, and hot reset. -/

namespace Sys2Proof.Machine

/-! ### Inbound TLPs -/

/-- Reads in progress. -/
def State.hostReads (s : State) : Nat := (s.host.tlps.filter (fun t => !t.write)).length

/-- Dword `i` of the configuration header (R532): the fields that the rule gives, at the places of the type 0 header; the rest is not in
the spec, and free. -/
def State.cfgHeader (s : State) (i : Nat) : Option Nat :=
  let bar := fun (k : Nat) => (mget s.host.bars 0 k).toNat
  match i with
  | 0 => some (s.sec.fuses.vendor % 2 ^ 16 + 0x5184 * 2 ^ 16)
  | 2 => some (s.f DEV_REV_STEPPING % 2 ^ 8 + 0x120000 * 2 ^ 8)
  | 4 => some (bar 0 / 2 ^ 26 * 2 ^ 26 + 0x4)
  | 5 => some (bar 1)
  | 6 => some 0xC
  | 7 => some (bar 3 / 2 ^ 5 * 2 ^ 5)
  | 8 => some 0
  | 9 => some 0
  | _ => none

/-- A read of dword `i` of the configuration header. -/
def State.headerRead (s : State) (i : Nat) : State :=
  match s.cfgHeader i with
  | some v => s.hostCpl 0 v
  | none => (s.hostCpl 0 (s.freeVal % 2 ^ 32)).freeNext

/-- HOST_TLP (R532 to R534, R536): a memory TLP, or an access to the configuration space. In D3hot the function takes no memory request:
it is an Unsupported Request, as PCI Express requires. -/
def execHostTlp (p : HostTlp) (s : State) : Out :=
  .next <|
    if !s.on HIF_LINK_STAT_UP then s
    else match p with
      | .config b m f => s.setHost { s.host with busMaster := b, msixEnable := m, funcMask := f }
      | .bar i v => if i < 4 then s.setHost { s.host with bars := mset s.host.bars 0 i v } else s
      | .power d => s.setHost { s.host with d3 := d }
      | .header i => s.headerRead i
      | .mem write bar2 off bytes be data ep ce hdr ue =>
        if !write && decide (512 ≤ s.hostReads) then s
        else
          let s1 := s.hifBuf ⟨ce, hdr, if write then ue else 0⟩ (bytes / 4 + 2)
          if hdr then s1
          else if s.host.d3 then (if write then s1.aer 0 else s1.hostCpl 2 0)
          else ((if write && ep then s1.aer 3 else s1).tlpStart write bar2 off bytes be data (write && ep) ue).settle

/-! ### The host's completions -/

/-- A configuration load reads its image from the host (R184). -/
def State.hostLoad (s : State) : Bool := s.cfg.load.any (fun l => l.src == 1 && l.reads)

/-- Descriptor `index` of ring `r`, when it is in progress. -/
def State.descAt (s : State) (r index : Nat) : Option Desc := s.host.descs.find? (fun d => d.ring == r && d.index == index)

/-- Operation `k` of source 0 on host memory is a write: no descriptor waits for its data. -/
def State.hostWrote (s : State) (k : Nat) : Bool := !s.host.descs.any (fun d => !d.d2h && !d.moved && d.op == k)

/-- What a completion finishes (R32, R184, R535, R542). -/
def State.hostDone (s : State) (what : HostWait) (ok ep : Bool) (data : Nat) : State :=
  let good := ok && s.hostThere
  match what with
  | .image => if s.hostLoad && (!good || ep) then s.cfgFail 0x08 0 0 else s
  | .data r i =>
    match s.descAt r i with
    | none => s
    | some d =>
      if d.d2h || d.moved then s
      else if good then
        let s1 := (s.hostSeen (fun k => k == d.op) false).when ep (fun t => t.put (HIF_RING_STAT_POISON r) 1)
        let d1 := { d with data := data % 2 ^ (8 * d.len), poison := ep, moved := true }
        (s1.onDesc d.id (fun _ => d1)).descIssue d1
      else s.descFail r i 3
  | .zero r i =>
    match s.descAt r i with
    | none => s
    | some d =>
      if d.d2h && d.irq && d.moved && !d.done then
        let s1 := s.hostSeen (fun k => s.hostWrote k && decide (k ≤ d.op)) (!good)
        if good then advanceHead 32 r (s1.onDesc d.id (fun x => { x with done := true })) else s1.descFail r i 3
      else s
  | .flush =>
    match s.host.flush with
    | [] => s
    | n :: t =>
      let s1 := s.hostSeen (fun k => s.hostWrote k && decide (k ≤ n)) (!good)
      s1.setHost { s1.host with flush := t }

/-- The dwords that a completion for `what` brings. -/
def State.waitDwords (s : State) (what : HostWait) : Nat :=
  match what with
  | .image => 16
  | .data r i => match s.descAt r i with
    | some d => d.len / 4
    | none => 0
  | _ => 1

/-- HOST_COMPLETION (R535, R536): the host completes a request, with success or with an error status; `ep`: with EP set; `up`: what the
receive buffer finds in the completion, which it drops where a header word is uncorrectable. -/
def execHostCompletion (what : HostWait) (ok ep : Bool) (data : Nat) (up : HifUp) (s : State) : Out :=
  .next <|
    let n := s.waitDwords what
    let s1 := s.hifBuf up n
    if up.hdr then s1 else (s1.hostDone what ok (ep || up.bad n) data).settle

/-- HOST_TIMEOUT (R535). -/
def execHostTimeout (what : HostWait) (s : State) : Out := .next (s.hostDone what false false 0).settle

/-! ### The link, LTR, interrupts -/

/-- The PCIe function's own state after a reset of the function. -/
def HostIf.cleared (h : HostIf) : HostIf :=
  { h with
    msix := [], pend := [], msixEnable := false, funcMask := false, busMaster := false, bars := [], d3 := false
    ltrEnable := false, ltrSnoop := 0, ltrNoSnoop := 0
    descs := [], lastRing := 1023, tlps := [], todo := [], ops := [], flush := [] }

/-- A register that hot reset reaches (R22). -/
def isHot (a : Nat) : Bool := (regAt a).any (fun r => r.hot)

/-- What a hot reset or a link down does (R537). -/
def State.hotReset (s : State) : State :=
  let s1 := if s.hostLoad then s.cfgFail 0x08 0 0 else s
  let s2 := ((s1.initReset 0).orderReset 0).resetRegs isHot
  let s3 := ((s2.setHost s2.host.cleared).setReg BAL_LTR 0).put HIF_LINK_STAT_UP 0
  ((s3.put HIF_LINK_STAT_HOT_RESET 1).raise 354).settle

/-- HOT_RESET (R537). -/
def execHotReset (s : State) : Out := .next s.hotReset

/-- PCIE_LINK_UP: the link enters L0 at `speed` and `width`; EXTEST and its kin hold it in reset (R480). -/
def execPcieLinkUp (speed width : Nat) (s : State) : Out :=
  .next <|
    if s.scanTakes then s
    else (((s.put HIF_LINK_STAT_UP 1).put HIF_LINK_STAT_SPEED speed).put HIF_LINK_STAT_WIDTH width).raise 354

/-- The latency in ns that an LTR register names; 0 for none (R538). -/
def ltrLatency (w : Nat) : Nat := if 6 ≤ bitsOf w 12 10 then 0 else bitsOf w 9 0 * 32 ^ bitsOf w 12 10

/-- TOL of BAL_LTR from the two latencies (R538). -/
def ltrTol (a b : Nat) : Nat :=
  let m := if a = 0 then b else if b = 0 then a else min a b
  min (m / 1000) 0xFFFFF

/-- LTR_UPDATE (R538): the latency registers and LTR Mechanism Enable as they now stand. -/
def execLtrUpdate (snoop noSnoop : Nat) (enable : Bool) (s : State) : Out :=
  .next <|
    let a := ltrLatency snoop
    let b := ltrLatency noSnoop
    let s1 := s.setHost { s.host with
      ltrEnable := enable, ltrSnoop := snoop, ltrNoSnoop := noSnoop,
      ltrSent := s.host.ltrSent + b2n (enable && !s.host.ltrEnable) }
    let s2 := (s1.put BAL_LTR_VALID (b2n (enable && (a != 0 || b != 0)))).put BAL_LTR_TOL (ltrTol a b)
    s2.settle

/-- DEVICE_IRQ (R539): the hub raises the event with number `i`. -/
def execDeviceIrq (i : Nat) (s : State) : Out := .next (if i < 512 then s.raise i else s)

/-- MSIX_MESSAGE (R539): pending vector `v` sends its message. -/
def execMsixMessage (v : Nat) (s : State) : Out :=
  .next <|
    if v ∈ s.host.pend ∧ s.host.msixEnable ∧ !s.host.funcMask ∧ s.hostThere ∧ !(mget s.host.msix Msix.init v).masked then
      s.setHost { s.host with pend := ldel s.host.pend v, sent := v :: s.host.sent }
    else s

/-! ### DMA rings -/

/-- RING_ENABLE (R543): a write of HIF_RING_CFG(r). -/
def execRingEnable (r : Nat) (v : Word) (s : State) : Out := .next (if r < 1024 then s.ringCfg r v else s)

/-- RING_DOORBELL (R541, R543). -/
def execRingDoorbell (r v : Nat) (s : State) : Out := .next (if r < 1024 then s.ringBell r (v % 65536) else s)

/-- The index of the descriptor that ring `r` starts next. -/
def State.ringNext (s : State) (r : Nat) : Nat := (s.f (HIF_RING_PTR_HEAD r) + (s.ringDescs r).length) % 2 ^ s.ringSize r

/-- Ring `r` has work (R542, R543). -/
def State.ringWork (s : State) (r : Nat) : Bool :=
  s.on (HIF_RING_CFG_EN r) && !s.on (HIF_RING_STAT_ERROR r) && s.ringNext r != s.f (HIF_RING_PTR_TAIL r)

/-- The rings with work, by ascending number. -/
def State.workRings (s : State) : List Nat :=
  (s.regs.filterMap (fun e => if 0xC20000 ≤ e.1 ∧ e.1 < 0xC28000 ∧ e.1 % 32 = 0 then some ((e.1 - 0xC20000) / 32) else none)).filter s.ringWork

/-- The ring whose turn it is (R542). -/
def State.turnRing (s : State) : Option Nat :=
  match s.workRings.find? (fun r => decide (s.host.lastRing < r)) with
  | some r => some r
  | none => s.workRings.head?

/-- Dword `i` of a descriptor as it was fetched. -/
def descWord (l : List Nat) (i : Nat) : Nat := l.getD i 0 % 2 ^ 32

/-- A descriptor of 8 dwords is well formed (R541, R543). -/
def descOk (l : List Nat) : Bool :=
  decide (descWord l 0 < 16) && decide (descWord l 0 % 4 < 2) && decide (4 ≤ descWord l 1 ∧ descWord l 1 ≤ 2 ^ 24 ∧ descWord l 1 % 4 = 0) &&
    descWord l 2 % 4 == 0 && descWord l 4 % 4 == 0 && decide (descWord l 5 < 65536) && descWord l 6 == 0 && descWord l 7 == 0

/-- The descriptor that 8 dwords are (R541), with number `id`. -/
def descOf (r index id op : Nat) (l : List Nat) : Desc :=
  ⟨r, index, descWord l 0 % 2 == 1, (descWord l 0).testBit 2, (descWord l 0).testBit 3, descWord l 1, descWord l 2 + descWord l 3 * 2 ^ 32,
    descWord l 4 + descWord l 5 * 2 ^ 32, id, 0, false, false, 0, op, false⟩

/-- A descriptor starts (R542): H2D asks the host for its data, D2H reads the device. -/
def State.descBegin (s : State) (d : Desc) : State :=
  let s1 := s.setHost { s.host with descs := s.host.descs ++ [d], tlpSeq := s.host.tlpSeq + 1 }
  if d.d2h then s1.descIssue d else s1.hostOp

/-- DESCRIPTOR_START (R541 to R543): the engine takes the next descriptor of ring `r`, whose turn it is; `fetched`: its 8 dwords, none when
the fetch failed. A pending fence on source 0 holds it (R31). -/
def execDescriptorStart (r : Nat) (fetched : Option (List Nat)) (s : State) : Out :=
  .next <|
    if s.turnRing = some r ∧ s.host.descs.length < 32 ∧ !s.fenceHeld 0 then
      let s1 := s.setHost { s.host with lastRing := r }
      match (if s.hostThere then fetched else none) with
      | none => s1.ringError r 2
      | some l =>
        if !descOk l then s1.ringError r 1
        else
          let d := descOf r (s.ringNext r) s.host.tlpSeq s.host.opSeq l
          if d.fence && !(s.ringDescs r).isEmpty then s1 else s1.descBegin d
    else s

/-- The write of HEAD to the write-back address, which a pending fence on source 0 holds (R31, R542). -/
def State.headHeld (s : State) (r : Nat) : Bool :=
  s.fenceHeld 0 && (s.f (HIF_RING_WB_LO_WB_LO r) != 0 || s.f (HIF_RING_WB_HI_WB_HI r) != 0)

/-- The H2D descriptor `d`, whose writes have all completed, is complete (R542). -/
def State.descWritten (s : State) (d : Desc) : State :=
  if s.headHeld d.ring then s else advanceHead 32 d.ring (s.onDesc d.id (fun x => { x with done := true }))

/-- The D2H descriptor `d`, whose reads have all returned, writes the host (R542, R543). -/
def State.descRead (s : State) (d : Desc) (up : HifUp) : State :=
  if s.fenceHeld 0 then s
  else
    let bad := d.poison || up.bad (d.len / 4)
    let s1 := (s.hifBuf up (d.len / 4)).when bad (fun t => t.put (HIF_RING_STAT_POISON d.ring) 1)
    if !s1.hostThere then s1.descFail d.ring d.index 3
    else
      let sent := if up.hdr then s1.hostOp else s1.hostWrite d.host d.len d.data bad
      let s2 := sent.onDesc d.id (fun x => { x with moved := true, op := s1.host.opSeq, done := !x.irq })
      if d.irq then s2 else advanceHead 32 d.ring s2

/-- DESCRIPTOR_COMPLETE (R542, R543): the first descriptor of ring `r` whose device accesses have all completed goes on: an H2D one is
complete, a D2H one writes the host; `up`: what the transmit buffer finds in its TLPs, which it drops where a header word is
uncorrectable. -/
def execDescriptorComplete (r : Nat) (up : HifUp) (s : State) : Out :=
  .next <|
    match (s.ringDescs r).find? (fun d => !d.done && d.left == 0 && d.d2h != d.moved) with
    | none => s
    | some d => if d.d2h then (s.descRead d up).settle else (s.descWritten d).settle

end Sys2Proof.Machine
end

