-- ==== Sys2Proof/Machine/Scan.lean ====
section
/-! DEFINITION. Sys2Proof/Machine/Scan.lean: the scan port (file 13): the instructions of R474, boundary scan (R477 to R480), debug access
(R481 to R487, R545), the configuration data register (R489). -/

namespace Sys2Proof.Machine

/-! ### The boundary register -/

/-- What the boundary register captures (R477): of pin GPi the level of its ball, and what the internal logic drives, as its output and
output-enable cells; the cells from position 480 on capture `env`. -/
def State.bsrCapture (s : State) (env : Nat) : Nat :=
  let t := s.setPin { s.pin with bs := none }
  packBits (allPins.flatMap (fun i => [s.ballLevel i, (t.pinDrive i).getD false, (t.pinDrive i).isSome])) + env % 2 ^ 863 / 2 ^ 480 * 2 ^ 480

/-- The boundary register takes the balls (R479): every Gleis port loses its signal, the PCIe link goes down. -/
def State.ballsTake (s : State) : State :=
  let s1 := s.each (List.range 16) (fun n t =>
    let u := t.each (List.range 9) (fun l v => v.put (GLS_LANE_STAT_LOS n l) 1)
    if u.f (GLS_STAT_STATE n) = 0 then u else u.portDown n 6)
  s1.latSettle.when (s1.on HIF_LINK_STAT_UP) State.hotReset

/-- The balls return to their owners (R479). -/
def State.ballsReturn (s : State) : State :=
  let s1 := (s.setPin { s.pin with bs := none }).pinFollow allPins
  s1.each (List.range 16) (fun n t => t.portSync n)

/-- Instruction `ir` becomes current (R479): the balls are taken, kept or returned. -/
def State.scanSel (s : State) (ir : Nat) : State :=
  let t := s.setScan { s.scan with ir := ir }
  if t.scanTakes then
    let u := if s.scanTakes then t else t.ballsTake
    (u.setPin { u.pin with bs := some (if ir = 4 then 0 else u.scan.bsr) }).pinFollow allPins
  else if s.scanTakes then t.ballsReturn
  else t

/-- An instruction scan that ends in Update-IR with `ir` (R474): Capture-IR shows whether a debug access is in progress. -/
def State.scanIr (s : State) (ir : Nat) : State := (s.setScan { s.scan with irCap := 1 + 4 * b2n s.scan.busy }).scanSel ir

/-- The selected data register captured `v`. -/
def State.scanDr (s : State) (v : Nat) : State := s.setScan { s.scan with dr := v }

/-- A scan of the boundary register: it captures, then its update stage takes `v`, which drives the balls while it has them. -/
def State.bsrScan (s : State) (v env : Nat) : State :=
  let s1 := s.setScan { s.scan with dr := s.bsrCapture env, bsr := v % 2 ^ 863 }
  if s1.scanTakes then (s1.setPin { s1.pin with bs := some s1.scan.bsr }).pinFollow allPins else s1

/-- The identification register (R475). -/
def State.idWord (s : State) : Nat := s.f DEV_REV_STEPPING % 16 * 2 ^ 28 + 0x51844C9

/-- The Tiwyn instructions act in this security state (R476). -/
def State.scanOpen (s : State) : Bool := s.secState != 2

/-! ### Instructions -/

/-- TEST_LOGIC_RESET (R473): IDCODE is selected, and every ball returns to its owner. -/
def execTestLogicReset (s : State) : Out := .next (((s.scanSel 2).scanDr s.idWord).settle)

/-- EXTEST (R479), and one scan of the boundary register under it. -/
def execExtest (v env : Nat) (s : State) : Out := .next (((s.scanIr 0).bsrScan v env).settle)

/-- SAMPLE/PRELOAD (R474, R479), and one scan: it never takes the balls. -/
def execSamplePreload (v env : Nat) (s : State) : Out := .next (((s.scanIr 1).bsrScan v env).settle)

/-- EXTEST_PULSE (R480), and one scan; the lanes' cells are in `env`. -/
def execExtestPulse (v env : Nat) (s : State) : Out := .next (((s.scanIr 5).bsrScan v env).settle)

/-- EXTEST_TRAIN (R480), and one scan. -/
def execExtestTrain (v env : Nat) (s : State) : Out := .next (((s.scanIr 6).bsrScan v env).settle)

/-- IDCODE (R475). -/
def execIdcode (s : State) : Out := .next (((s.scanIr 2).scanDr s.idWord).settle)

/-- CLAMP (R479): the boundary values hold on the balls; the bypass register captures 0. -/
def execClamp (s : State) : Out := .next (((s.scanIr 3).scanDr 0).settle)

/-- HIGHZ (R479). -/
def execHighz (s : State) : Out := .next (((s.scanIr 4).scanDr 0).settle)

/-- The codes of R474 beside BYPASS. -/
def knownIr (code : Nat) : Bool := decide (code ≤ 6) || (decide (16 ≤ code) && decide (code ≤ 18))

/-- BYPASS (R474): code 0xFF, and every code that names no other instruction. -/
def execBypass (code : Nat) (s : State) : Out := .next (((s.scanIr (if knownIr code then 0xFF else code % 256)).scanDr 0).settle)

/-- What DBG_REG captures (R482, R483). -/
def State.dbgCapture (s : State) : Nat :=
  (if s.scan.busy then 1 else s.scan.ack) + s.scan.rdata.toNat * 2 ^ 49 + s.scan.status % 16 * 2 ^ 81

/-- DBG_REG (R476, R482). -/
def execDbgReg (s : State) : Out :=
  .next (let t := s.scanIr 0x10; (t.scanDr (if t.scanOpen then t.dbgCapture else 0)).settle)

/-- AUTH (R476, R488), and one Capture-DR under it. -/
def execAuth (s : State) : Out :=
  .next (let t := s.scanIr 0x11; (if t.scanOpen then t.authCapture else t.scanDr 0).settle)

/-- A load from the scan port still reads its image (R184, R489). -/
def State.scanLoad (s : State) : Bool := s.cfg.load.any (fun l => l.src == 2 && l.reads)

/-- What CFG_DATA captures (R489): SPACE and OVERRUN; 0 while no scan-port load is in progress. -/
def State.dataCapture (s : State) : Nat :=
  if s.scanLoad then b2n (decide (s.scan.buf.length < 1024)) + 2 * b2n s.scan.overrun else 0

/-- CFG_DATA (R476, R489). -/
def execCfgData (s : State) : Out :=
  .next (let t := s.scanIr 0x12; (t.scanDr (if t.scanOpen then t.dataCapture else 0)).settle)

/-- CFG_DATA_WORD (R489, R545): an update of the configuration data register. -/
def execCfgDataWord (w : Word) (s : State) : Out :=
  .next <|
    if s.scan.ir = 0x12 ∧ s.scanSource then
      if !s.scanLoad then s.scanDr 0
      else if s.scan.buf.length < 1024 then
        let s1 := s.setScan { s.scan with buf := s.scan.buf ++ [w] }
        s1.scanDr s1.dataCapture
      else
        let s1 := s.setScan { s.scan with overrun := true }
        ((s1.scanDr s1.dataCapture).cfgFail 0x08 0 0).settle
    else s

/-! ### Debug access -/

/-- The security state accepts a debug access (R545): in Bound, before attach, reads of the DEVICE block, of DBG_CTRL and of DBG_STAT, and
once AUTHED the write of ATTACH; after it, with PERMS.BUS all but writes to SECURITY, with PERMS.CORE the DEBUG block, and always DETACH. -/
def State.dbgMay (s : State) (write : Bool) (a : Nat) (v : Word) : Bool :=
  match s.secState with
  | 0 => true
  | 1 =>
    let off := a - 0x020000000000
    let hub := decide (0x020000000000 ≤ a ∧ a < 0x020001200000)
    let sec := hub && decide (0xB00000 ≤ off ∧ off < 0xC00000)
    let early := hub && !write && (decide (off < 0x100000) || off == DBG_CTRL || off == DBG_STAT)
    let attach := hub && write && off == DBG_CTRL && s.on DBG_CTRL_AUTHED && fget v 31 31 == 1
    let late := s.attached && ((s.perms.testBit 1 && !(write && sec)) ||
      (s.perms.testBit 0 && hub && decide (0xF00000 ≤ off ∧ off < 0x1000000)) || (hub && write && off == DBG_CTRL && fget v 30 30 == 1))
    early || attach || late
  | _ => false

/-- The held access of the debug port enters the mesh when its tag is free (R481, R383). -/
def State.dbgIssue (s : State) : State :=
  match s.scan.held with
  | none => s
  | some a =>
    match s.meshQueue a with
    | none => s
    | some t => t.setScan { t.scan with held := none }

/-- Update-DR of DBG_REG with a read or a write (R482, R483): ignored while an access is in progress; DENIED; or the access starts. -/
def State.dbgAccess (s : State) (write consume : Bool) (addr : Nat) (v : Word) : State :=
  if s.scan.ir = 0x10 ∧ s.scanOpen ∧ !s.scan.busy then
    let a := addr % 2 ^ 48 / 4 * 4
    if !s.dbgMay write a v then s.setScan { s.scan with ack := 3 }
    else
      let acc : Acc := ⟨if consume then 21 else 22, 0, write, a, 4, if write then accBytes a 4 else 0,
        if write then v.toNat * 2 ^ (8 * (a % 64)) else 0, 0, 0⟩
      (s.setScan { s.scan with busy := true, held := some acc }).dbgIssue
  else s

/-- DEBUG_READ (R482 to R484): a read of the 4 bytes at `addr`, in consume or peek mode. -/
def execDebugRead (addr : Nat) (consume : Bool) (s : State) : Out := .next (s.dbgAccess false consume addr 0)

/-- DEBUG_WRITE (R482 to R484). -/
def execDebugWrite (addr : Nat) (consume : Bool) (v : Word) (s : State) : Out := .next (s.dbgAccess true consume addr v)

/-- The response of a debug access crosses to the scan port (R483). -/
def State.dbgTake (s : State) (a : Acc) (r : Rsp) : State :=
  s.setScan { s.scan with
    busy := false
    ack := if r.status = 0 then 0 else 2
    status := r.status
    rdata := if a.write then s.scan.rdata else BitVec.ofNat 32 (r.norm.data >>> (8 * (a.addr % 64))) }

/-- DEBUG_ACCESS_DONE (R483). -/
def execDebugAccessDone (s : State) : Out :=
  .next <|
    match s.takeInbox 21 (fun _ => true) with
    | some (a, r, t) => t.dbgTake a r
    | none =>
      match s.takeInbox 22 (fun _ => true) with
      | some (a, r, t) => t.dbgTake a r
      | none => s

end Sys2Proof.Machine
end

