-- ==== Sys2Proof/Machine/Tables.lean ====
section
/-! DEFINITION. Sys2Proof/Machine/Tables.lean: the WRITE record of a table section (R177, R246). -/

namespace Sys2Proof.Machine

/-- The offset lies in one of the three shadow windows of the Caller. -/
def inShadow (a : Nat) : Bool :=
  decide (0x620000 ≤ a ∧ a < 0x640000) || decide (0x680000 ≤ a ∧ a < 0x6A0000) || decide (0x6C0000 ≤ a ∧ a < 0x6E0000)

/-- One value word: a 32-bit write of source 20, or, in a FULL image, of an active bank of the Caller (R246); none: its target cannot accept
it yet. -/
def State.tableWord (s : State) (op a : Nat) (v : Word) : Option State :=
  if op = 0 ∧ inShadow a then some (s.setCall { s.call with active := s.call.active.land (a, v) })
  else match s.hubPut 20 a v with
    | (t, some _) => some t
    | (_, none) => none

/-- The value words of a record in order, from offset `a`. -/
def tableWords (op : Nat) : Nat → List Word → State → Option State
  | _, [], s => some s
  | a, v :: t, s => (s.tableWord op a v).bind (tableWords op (a + 4) t)

/-- WRITE (R177): value word j of the next record goes to the register at OFFSET + 4 j, a 32-bit write of source 20 each; all wait while
one of the targets cannot accept its value. -/
def execWriteRecord (s : State) : Out :=
  .next <|
    match s.tableLoad with
    | none => s
    | some (l, x) =>
      if tabIsEnd x.plain x.pos then s
      else
        match tableWords l.op (tabOff x.plain x.pos) (tabValues x.plain x.pos) s with
        | none => s.heldWake.settle
        | some t => (t.setCfg { t.cfg with load := t.cfg.load.map (fun l1 =>
            { l1 with cur := l1.cur.map (fun y => { y with pos := x.pos + 8 + 4 * tabCount x.plain x.pos }) }) }).settle

end Sys2Proof.Machine
end

