-- ==== Sys2Proof/Machine/Reset.lean ====
section
/-! DEFINITION. Sys2Proof/Machine/Reset.lean: power-on reset (R13, R181, R544). -/

namespace Sys2Proof.Machine

/-- The fields that load from the fuses and the straps at the end of POR (R24, R181, R544). -/
def State.fuseLoad (s : State) (boot pull : Nat) : State :=
  let x := s.sec.fuses
  let s1 := (s.put DEV_REV_GRADE x.grade).put DEV_REV_STEPPING x.stepping
  let s2 := (s1.put CFG_STRAP_BOOT_SRC boot).put CFG_STRAP_PULL_DEFAULT pull
  let s3 := (s2.put CLK_OSC_TRIM_CTRL_CODE x.oscCode).put BAL_THERM_CFG_TRIP_C x.tripC
  ((s3.put BAL_THERM_CFG_DERATE_C x.derateC).put SEC_STATE_STATE (if x.sealed then 2 else b2n x.bound)).fuseShow

/-- What POR leaves: the state after reset, with the fuses, with what the board drives onto the balls, with the commands that wait and the
count of free values drawn. -/
def State.porBase (s : State) : State :=
  { State.reset with
    pending := s.pending, free := s.free, sec := { Security.init with fuses := s.sec.fuses }, pin := { Pins.init with ext := s.pin.ext } }

/-- POR (R13): `boot` and `pull` are the straps; `fuseErr`: a fuse reads with an error (R544). -/
def execPor (boot pull : Nat) (fuseErr : Bool) (s : State) : Out :=
  .next (((s.porBase.fuseLoad boot pull).when fuseErr (fun t => (t.setSec { t.sec with fuseBad := true }).raiseAlarm 5)).settle)

end Sys2Proof.Machine
end

