-- ==== Sys2Proof/Machine/Dispatch.lean ====
section
/-! DEFINITION. Sys2Proof/Machine/Dispatch.lean: one arm per command, each one call of the command's meaning. -/

namespace Sys2Proof.Machine

/-- The effect of a command on everything but the queue. -/
def exec (i : Instr) (s : State) : Host.Outcome State Fault Refusal :=
  match i with
  | .registerWrite src off v => Sys2Proof.Machine.execRegisterWrite src off v s
  | .por boot pull fuseErr => Sys2Proof.Machine.execPor boot pull fuseErr s
  | .glitchDetect => Sys2Proof.Machine.execGlitchDetect s
  | .devOrdFence src => Sys2Proof.Machine.execDevOrdFence src s
  | .fenceComplete src => Sys2Proof.Machine.execFenceComplete src s
  | .bow up flips => Sys2Proof.Machine.execBow up flips s
  | .inboundCrossing g => Sys2Proof.Machine.execInboundCrossing g s
  | .outboundCrossing g => Sys2Proof.Machine.execOutboundCrossing g s
  | .apertureInboundWrite n w r v => Sys2Proof.Machine.execApertureInboundWrite n w r v s
  | .apertureLoRead n w out => Sys2Proof.Machine.execApertureLoRead n w out s
  | .masterRequest n => Sys2Proof.Machine.execMasterRequest n s
  | .masterFence n => Sys2Proof.Machine.execMasterFence n s
  | .masterResponse n => Sys2Proof.Machine.execMasterResponse n s
  | .targetRequest n id => Sys2Proof.Machine.execTargetRequest n id s
  | .targetResponse n => Sys2Proof.Machine.execTargetResponse n s
  | .bramPortAccess m a b up => Sys2Proof.Machine.execBramPortAccess m a b up s
  | .sliceUpdate sls => Sys2Proof.Machine.execSliceUpdate sls s
  | .walkRow n up => Sys2Proof.Machine.execWalkRow n up s
  | .copyoutDrain j up => Sys2Proof.Machine.execCopyoutDrain j up s
  | .trimWindowEnd c => Sys2Proof.Machine.execTrimWindowEnd c s
  | .trimRefMissing => Sys2Proof.Machine.execTrimRefMissing s
  | .pllSettingChange p w => Sys2Proof.Machine.execPllSettingChange p w s
  | .pllLock p => Sys2Proof.Machine.execPllLock p s
  | .pllLockTimeout p => Sys2Proof.Machine.execPllLockTimeout p s
  | .pllUnlock p => Sys2Proof.Machine.execPllUnlock p s
  | .dividerChange a => Sys2Proof.Machine.execDividerChange a s
  | .clockSwitchRequest m src => Sys2Proof.Machine.execClockSwitchRequest m src s
  | .clockSwitchDone m => Sys2Proof.Machine.execClockSwitchDone m s
  | .clockSwitchForced m => Sys2Proof.Machine.execClockSwitchForced m s
  | .gateClose j => Sys2Proof.Machine.execGateClose j s
  | .gateStop j => Sys2Proof.Machine.execGateStop j s
  | .gateTimeout j => Sys2Proof.Machine.execGateTimeout j s
  | .gateOpen j => Sys2Proof.Machine.execGateOpen j s
  | .clockMonitorWindow m c => Sys2Proof.Machine.execClockMonitorWindow m c s
  | .clockAbsent m => Sys2Proof.Machine.execClockAbsent m s
  | .fullLoad src auto img => Sys2Proof.Machine.execFullLoad src auto img s
  | .partialLoad src img => Sys2Proof.Machine.execPartialLoad src img s
  | .firmwareLoad src img => Sys2Proof.Machine.execFirmwareLoad src img s
  | .tablesLoad src img => Sys2Proof.Machine.execTablesLoad src img s
  | .blank => Sys2Proof.Machine.execBlank s
  | .cfgStart => Sys2Proof.Machine.execCfgStart s
  | .startUpStep => Sys2Proof.Machine.execStartUpStep s
  | .cfgAbort => Sys2Proof.Machine.execCfgAbort s
  | .sourceTimeout => Sys2Proof.Machine.execSourceTimeout s
  | .framesRecord => Sys2Proof.Machine.execFramesRecord s
  | .repeatRecord => Sys2Proof.Machine.execRepeatRecord s
  | .zeroRecord => Sys2Proof.Machine.execZeroRecord s
  | .contentRecord => Sys2Proof.Machine.execContentRecord s
  | .contentZeroRecord => Sys2Proof.Machine.execContentZeroRecord s
  | .fenceRecord => Sys2Proof.Machine.execFenceRecord s
  | .endRecord => Sys2Proof.Machine.execEndRecord s
  | .writeRecord => Sys2Proof.Machine.execWriteRecord s
  | .bayReadback up => Sys2Proof.Machine.execBayReadback up s
  | .prArm mode relFirst bay => Sys2Proof.Machine.execPrArm mode relFirst bay s
  | .prCancel => Sys2Proof.Machine.execPrCancel s
  | .claimMapRebuild => Sys2Proof.Machine.execClaimMapRebuild s
  | .scrubFrameRead up see => Sys2Proof.Machine.execScrubFrameRead up see s
  | .taskDispatch ues qs => Sys2Proof.Machine.execTaskDispatch ues qs s
  | .callerNop u ue => Sys2Proof.Machine.execCallerNop u ue s
  | .callerCapture u ue => Sys2Proof.Machine.execCallerCapture u ue s
  | .callerDeliver u e ue => Sys2Proof.Machine.execCallerDeliver u e ue s
  | .capsend u ue => Sys2Proof.Machine.execCapsend u ue s
  | .callerSend u e ue => Sys2Proof.Machine.execCallerSend u e ue s
  | .callerCopy u e ue => Sys2Proof.Machine.execCallerCopy u e ue s
  | .callerLoad u ue => Sys2Proof.Machine.execCallerLoad u ue s
  | .callerStore u e ue => Sys2Proof.Machine.execCallerStore u e ue s
  | .callerDelay u ue => Sys2Proof.Machine.execCallerDelay u ue s
  | .setclk u ue => Sys2Proof.Machine.execSetclk u ue s
  | .callerFence u ue => Sys2Proof.Machine.execCallerFence u ue s
  | .callerMeshResponse t ue => Sys2Proof.Machine.execCallerMeshResponse t ue s
  | .dlistExpiry l => Sys2Proof.Machine.execDlistExpiry l s
  | .bundleArrival n ecc hdr => Sys2Proof.Machine.execBundleArrival n ecc hdr s
  | .spillReadback q up => Sys2Proof.Machine.execSpillReadback q up s
  | .callerDone => Sys2Proof.Machine.execCallerDone s
  | .callerStall => Sys2Proof.Machine.execCallerStall s
  | .clrFault t => Sys2Proof.Machine.execClrFault t s
  | .taskFlagWrite t hi v => Sys2Proof.Machine.execTaskFlagWrite t hi v s
  | .swapGo mode => Sys2Proof.Machine.execSwapGo mode s
  | .syncGo => Sys2Proof.Machine.execSyncGo s
  | .syncDone => Sys2Proof.Machine.execSyncDone s
  | .qportPush poison => Sys2Proof.Machine.execQportPush poison s
  | .qportPop e up => Sys2Proof.Machine.execQportPop e up s
  | .localReady => Sys2Proof.Machine.execLocalReady s
  | .bowAnnounce => Sys2Proof.Machine.execBowAnnounce s
  | .roundOverrun => Sys2Proof.Machine.execRoundOverrun s
  | .latStart steps => Sys2Proof.Machine.execLatStart steps s
  | .latResume steps => Sys2Proof.Machine.execLatResume steps s
  | .stopAbs => Sys2Proof.Machine.execStopAbs s
  | .stopRel => Sys2Proof.Machine.execStopRel s
  | .stopNow => Sys2Proof.Machine.execStopNow s
  | .resetLocal => Sys2Proof.Machine.execResetLocal s
  | .resetLattice => Sys2Proof.Machine.execResetLattice s
  | .resetEdge => Sys2Proof.Machine.execResetEdge s
  | .sectorResetRequest mask => Sys2Proof.Machine.execSectorResetRequest mask s
  | .startMessage n slots e hdr => Sys2Proof.Machine.execStartMessage n slots e hdr s
  | .stopMessage n slots e hdr => Sys2Proof.Machine.execStopMessage n slots e hdr s
  | .resetMessage n slots e hdr => Sys2Proof.Machine.execResetMessage n slots e hdr s
  | .startEdge => Sys2Proof.Machine.execStartEdge s
  | .bowToken n slots e hdr => Sys2Proof.Machine.execBowToken n slots e hdr s
  | .holdToken n slots e hdr => Sys2Proof.Machine.execHoldToken n slots e hdr s
  | .relayToken n slots e hdr => Sys2Proof.Machine.execRelayToken n slots e hdr s
  | .runToken n slots e hdr => Sys2Proof.Machine.execRunToken n slots e hdr s
  | .peerLost j => Sys2Proof.Machine.execPeerLost j s
  | .nodeOnline => Sys2Proof.Machine.execNodeOnline s
  | .beatForm => Sys2Proof.Machine.execBeatForm s
  | .beatMark n slots => Sys2Proof.Machine.execBeatMark n slots s
  | .bulkFrameBuild n => Sys2Proof.Machine.execBulkFrameBuild n s
  | .bulkFrame n slots => Sys2Proof.Machine.execBulkFrame n slots s
  | .cutIn n slots => Sys2Proof.Machine.execCutIn n slots s
  | .transitForward n p e hdr => Sys2Proof.Machine.execTransitForward n p e hdr s
  | .retryRequest n slots ue hdr => Sys2Proof.Machine.execRetryRequest n slots ue hdr s
  | .retryTimeout n => Sys2Proof.Machine.execRetryTimeout n s
  | .replayTimeout n ue hdr => Sys2Proof.Machine.execReplayTimeout n ue hdr s
  | .creditSlot n slots => Sys2Proof.Machine.execCreditSlot n slots s
  | .spareReq n slots => Sys2Proof.Machine.execSpareReq n slots s
  | .spareMirror n slots => Sys2Proof.Machine.execSpareMirror n slots s
  | .spareAck n slots => Sys2Proof.Machine.execSpareAck n slots s
  | .spareRetReq n slots => Sys2Proof.Machine.execSpareRetReq n slots s
  | .spareRetMirror n slots => Sys2Proof.Machine.execSpareRetMirror n slots s
  | .spareRetAck n slots => Sys2Proof.Machine.execSpareRetAck n slots s
  | .skipSlot n slots => Sys2Proof.Machine.execSkipSlot n slots s
  | .signalDetect n mask => Sys2Proof.Machine.execSignalDetect n mask s
  | .trainingSequence n lanes => Sys2Proof.Machine.execTrainingSequence n lanes s
  | .adaptDone n codes => Sys2Proof.Machine.execAdaptDone n codes s
  | .trainingTimeout n => Sys2Proof.Machine.execTrainingTimeout n s
  | .backoffEnd n => Sys2Proof.Machine.execBackoffEnd n s
  | .lossOfSignal n l => Sys2Proof.Machine.execLossOfSignal n l s
  | .linkTmo n => Sys2Proof.Machine.execLinkTmo n s
  | .retrain n => Sys2Proof.Machine.execRetrain n s
  | .restart n => Sys2Proof.Machine.execRestart n s
  | .spareGo n lane => Sys2Proof.Machine.execSpareGo n lane s
  | .recal n l => Sys2Proof.Machine.execRecal n l s
  | .degradeWindow n => Sys2Proof.Machine.execDegradeWindow n s
  | .eyeScanGo n w => Sys2Proof.Machine.execEyeScanGo n w s
  | .eyeScanDone n errs abort => Sys2Proof.Machine.execEyeScanDone n errs abort s
  | .tailCaptureGo mode => Sys2Proof.Machine.execTailCaptureGo mode s
  | .drainStep up => Sys2Proof.Machine.execDrainStep up s
  | .captureComplete => Sys2Proof.Machine.execCaptureComplete s
  | .mapRebuild k => Sys2Proof.Machine.execMapRebuild k s
  | .tailDiscard j => Sys2Proof.Machine.execTailDiscard j s
  | .triggerFire u => Sys2Proof.Machine.execTriggerFire u s
  | .triggerRearm u => Sys2Proof.Machine.execTriggerRearm u s
  | .ringRecord k up => Sys2Proof.Machine.execRingRecord k up s
  | .reelinGo slot => Sys2Proof.Machine.execReelinGo slot s
  | .reelinAbort => Sys2Proof.Machine.execReelinAbort s
  | .reelinArmed => Sys2Proof.Machine.execReelinArmed s
  | .restoreEdge => Sys2Proof.Machine.execRestoreEdge s
  | .reelinDone => Sys2Proof.Machine.execReelinDone s
  | .exportSlot keySlot slot => Sys2Proof.Machine.execExportSlot keySlot slot s
  | .importSlot keySlot => Sys2Proof.Machine.execImportSlot keySlot s
  | .transferAbort => Sys2Proof.Machine.execTransferAbort s
  | .transferEnd gdl box => Sys2Proof.Machine.execTransferEnd gdl box s
  | .meshRequest src fl stuck => Sys2Proof.Machine.execMeshRequest src fl stuck s
  | .meshResponse src tag lat fl => Sys2Proof.Machine.execMeshResponse src tag lat fl s
  | .iniTmo src tag => Sys2Proof.Machine.execIniTmo src tag s
  | .absorb t => Sys2Proof.Machine.execAbsorb t s
  | .meshResume t => Sys2Proof.Machine.execMeshResume t s
  | .meshMonitorWindow => Sys2Proof.Machine.execMeshMonitorWindow s
  | .clrHist => Sys2Proof.Machine.execClrHist s
  | .irqMsg c j fl => Sys2Proof.Machine.execIrqMsg c j fl s
  | .hbmRead k j up par => Sys2Proof.Machine.execHbmRead k j up par s
  | .fullLineWrite k j par => Sys2Proof.Machine.execFullLineWrite k j par s
  | .partialWrite k j up par => Sys2Proof.Machine.execPartialWrite k j up par s
  | .tempRead k temp => Sys2Proof.Machine.execTempRead k temp s
  | .selfRefreshExit k => Sys2Proof.Machine.execSelfRefreshExit k s
  | .memInit => Sys2Proof.Machine.execMemInit s
  | .initDone keys fail => Sys2Proof.Machine.execInitDone keys fail s
  | .memRekey keys => Sys2Proof.Machine.execMemRekey keys s
  | .sweepLine k up => Sys2Proof.Machine.execSweepLine k up s
  | .leakWindow n bad => Sys2Proof.Machine.execLeakWindow n bad s
  | .counterPropagate => Sys2Proof.Machine.execCounterPropagate s
  | .intLogPop => Sys2Proof.Machine.execIntLogPop s
  | .macMpy c w flip => Sys2Proof.Machine.execMacMpy c w flip s
  | .macMac c w flip => Sys2Proof.Machine.execMacMac c w flip s
  | .macMsu c w flip => Sys2Proof.Machine.execMacMsu c w flip s
  | .macMpyu c w flip => Sys2Proof.Machine.execMacMpyu c w flip s
  | .macMacu c w flip => Sys2Proof.Machine.execMacMacu c w flip s
  | .macMacsu c w flip => Sys2Proof.Machine.execMacMacsu c w flip s
  | .macClr c w flip => Sys2Proof.Machine.execMacClr c w flip s
  | .movesOnly c w => Sys2Proof.Machine.execMovesOnly c w s
  | .aluAdd c w => Sys2Proof.Machine.execAluAdd c w s
  | .aluSub c w => Sys2Proof.Machine.execAluSub c w s
  | .aluAdc c w => Sys2Proof.Machine.execAluAdc c w s
  | .aluSbc c w => Sys2Proof.Machine.execAluSbc c w s
  | .aluAnd c w => Sys2Proof.Machine.execAluAnd c w s
  | .aluOr c w => Sys2Proof.Machine.execAluOr c w s
  | .aluXor c w => Sys2Proof.Machine.execAluXor c w s
  | .aluShl c w => Sys2Proof.Machine.execAluShl c w s
  | .aluShr c w => Sys2Proof.Machine.execAluShr c w s
  | .aluSar c w => Sys2Proof.Machine.execAluSar c w s
  | .aluCmp c w => Sys2Proof.Machine.execAluCmp c w s
  | .aluTst c w => Sys2Proof.Machine.execAluTst c w s
  | .aluMin c w => Sys2Proof.Machine.execAluMin c w s
  | .aluMax c w => Sys2Proof.Machine.execAluMax c w s
  | .aluAddp c w => Sys2Proof.Machine.execAluAddp c w s
  | .aluAsh c w => Sys2Proof.Machine.execAluAsh c w s
  | .aluAsat c w => Sys2Proof.Machine.execAluAsat c w s
  | .aluArnd c w => Sys2Proof.Machine.execAluArnd c w s
  | .aluAadd c w => Sys2Proof.Machine.execAluAadd c w s
  | .lsLoad c w => Sys2Proof.Machine.execLsLoad c w s
  | .lsStore c w => Sys2Proof.Machine.execLsStore c w s
  | .lineLoad c w => Sys2Proof.Machine.execLineLoad c w s
  | .lineStore c w => Sys2Proof.Machine.execLineStore c w s
  | .atomLr c w => Sys2Proof.Machine.execAtomLr c w s
  | .atomSc c w => Sys2Proof.Machine.execAtomSc c w s
  | .brBra c w => Sys2Proof.Machine.execBrBra c w s
  | .brBcc c w => Sys2Proof.Machine.execBrBcc c w s
  | .brCall c w => Sys2Proof.Machine.execBrCall c w s
  | .brJmp c w => Sys2Proof.Machine.execBrJmp c w s
  | .brCallr c w => Sys2Proof.Machine.execBrCallr c w s
  | .brRet c w => Sys2Proof.Machine.execBrRet c w s
  | .brReti c w => Sys2Proof.Machine.execBrReti c w s
  | .brRep c w => Sys2Proof.Machine.execBrRep c w s
  | .brRepr c w => Sys2Proof.Machine.execBrRepr c w s
  | .brBrk c w => Sys2Proof.Machine.execBrBrk c w s
  | .coreWait c w => Sys2Proof.Machine.execCoreWait c w s
  | .brNop c w => Sys2Proof.Machine.execBrNop c w s
  | .brLoopv c w => Sys2Proof.Machine.execBrLoopv c w s
  | .brTrap c w => Sys2Proof.Machine.execBrTrap c w s
  | .movx c w => Sys2Proof.Machine.execMovx c w s
  | .ldi c w => Sys2Proof.Machine.execLdi c w s
  | .ldih c w => Sys2Proof.Machine.execLdih c w s
  | .interruptEntry c => Sys2Proof.Machine.execInterruptEntry c s
  | .windowLoadResponse c => Sys2Proof.Machine.execWindowLoadResponse c s
  | .postedStoreError c => Sys2Proof.Machine.execPostedStoreError c s
  | .timerEnable c j w => Sys2Proof.Machine.execTimerEnable c j w s
  | .timerExpiry c j => Sys2Proof.Machine.execTimerExpiry c j s
  | .watchdogEnable c w => Sys2Proof.Machine.execWatchdogEnable c w s
  | .watchdogKick c v => Sys2Proof.Machine.execWatchdogKick c v s
  | .watchdogWindowOpen c => Sys2Proof.Machine.execWatchdogWindowOpen c s
  | .watchdogExpiry c => Sys2Proof.Machine.execWatchdogExpiry c s
  | .watchdogReset c => Sys2Proof.Machine.execWatchdogReset c s
  | .coreHold c => Sys2Proof.Machine.execCoreHold c s
  | .coreRelease c => Sys2Proof.Machine.execCoreRelease c s
  | .selfReset c => Sys2Proof.Machine.execSelfReset c s
  | .stMemData c wr v => Sys2Proof.Machine.execStMemData c wr v s
  | .doorbell c v => Sys2Proof.Machine.execDoorbell c v s
  | .swirq c v => Sys2Proof.Machine.execSwirq c v s
  | .semLr src j => Sys2Proof.Machine.execSemLr src j s
  | .semSc src j v => Sys2Proof.Machine.execSemSc src j v s
  | .semWrite j v => Sys2Proof.Machine.execSemWrite j v s
  | .testLogicReset => Sys2Proof.Machine.execTestLogicReset s
  | .extest v env => Sys2Proof.Machine.execExtest v env s
  | .samplePreload v env => Sys2Proof.Machine.execSamplePreload v env s
  | .idcode => Sys2Proof.Machine.execIdcode s
  | .clamp => Sys2Proof.Machine.execClamp s
  | .highz => Sys2Proof.Machine.execHighz s
  | .extestPulse v env => Sys2Proof.Machine.execExtestPulse v env s
  | .extestTrain v env => Sys2Proof.Machine.execExtestTrain v env s
  | .dbgReg => Sys2Proof.Machine.execDbgReg s
  | .auth => Sys2Proof.Machine.execAuth s
  | .cfgData => Sys2Proof.Machine.execCfgData s
  | .bypass code => Sys2Proof.Machine.execBypass code s
  | .debugRead addr consume => Sys2Proof.Machine.execDebugRead addr consume s
  | .debugWrite addr consume v => Sys2Proof.Machine.execDebugWrite addr consume v s
  | .debugAccessDone => Sys2Proof.Machine.execDebugAccessDone s
  | .challengeRequest nonce => Sys2Proof.Machine.execChallengeRequest nonce s
  | .responseWord w => Sys2Proof.Machine.execResponseWord w s
  | .authCheck => Sys2Proof.Machine.execAuthCheck s
  | .cfgDataWord w => Sys2Proof.Machine.execCfgDataWord w s
  | .dbgAttach src => Sys2Proof.Machine.execDbgAttach src s
  | .dbgDetach src => Sys2Proof.Machine.execDbgDetach src s
  | .dbgHalt src c => Sys2Proof.Machine.execDbgHalt src c s
  | .haltEntry c => Sys2Proof.Machine.execHaltEntry c s
  | .breakpoint c => Sys2Proof.Machine.execBreakpoint c s
  | .dbgResume src c => Sys2Proof.Machine.execDbgResume src c s
  | .dbgStep src c => Sys2Proof.Machine.execDbgStep src c s
  | .dbgFeed src c w => Sys2Proof.Machine.execDbgFeed src c w s
  | .coreRegisterAccess src c pc wr => Sys2Proof.Machine.execCoreRegisterAccess src c pc wr s
  | .ballastWindow m temps => Sys2Proof.Machine.execBallastWindow m temps s
  | .consumerOver m => Sys2Proof.Machine.execConsumerOver m s
  | .memoryPortStop m => Sys2Proof.Machine.execMemoryPortStop m s
  | .droopTrip die => Sys2Proof.Machine.execDroopTrip die s
  | .droopRelease => Sys2Proof.Machine.execDroopRelease s
  | .powerRequest st => Sys2Proof.Machine.execPowerRequest st s
  | .powerWake soft => Sys2Proof.Machine.execPowerWake soft s
  | .powerTransitionEnd => Sys2Proof.Machine.execPowerTransitionEnd s
  | .ltrUpdate snoop noSnoop enable => Sys2Proof.Machine.execLtrUpdate snoop noSnoop enable s
  | .hostTlp p => Sys2Proof.Machine.execHostTlp p s
  | .hostCompletion what ok ep data up => Sys2Proof.Machine.execHostCompletion what ok ep data up s
  | .hostTimeout what => Sys2Proof.Machine.execHostTimeout what s
  | .hotReset => Sys2Proof.Machine.execHotReset s
  | .pcieLinkUp speed width => Sys2Proof.Machine.execPcieLinkUp speed width s
  | .deviceIrq j => Sys2Proof.Machine.execDeviceIrq j s
  | .msixMessage v => Sys2Proof.Machine.execMsixMessage v s
  | .ringEnable r v => Sys2Proof.Machine.execRingEnable r v s
  | .ringDoorbell r v => Sys2Proof.Machine.execRingDoorbell r v s
  | .descriptorStart r fetched => Sys2Proof.Machine.execDescriptorStart r fetched s
  | .descriptorComplete r up => Sys2Proof.Machine.execDescriptorComplete r up s
  | .bind src late => Sys2Proof.Machine.execBind src late s
  | .seal src late => Sys2Proof.Machine.execSeal src late s
  | .progSk src slot late => Sys2Proof.Machine.execProgSk src slot late s
  | .revokeSk src slot late => Sys2Proof.Machine.execRevokeSk src slot late s
  | .progDbg src late => Sys2Proof.Machine.execProgDbg src late s
  | .progKey src slot late => Sys2Proof.Machine.execProgKey src slot late s
  | .incVersion src late => Sys2Proof.Machine.execIncVersion src late s
  | .fuseCommandDone fail => Sys2Proof.Machine.execFuseCommandDone fail s
  | .keySlotLoad src slot late => Sys2Proof.Machine.execKeySlotLoad src slot late s
  | .keySlotClear src slot late => Sys2Proof.Machine.execKeySlotClear src slot late s
  | .unlockOpen src reg => Sys2Proof.Machine.execUnlockOpen src reg s
  | .alarmRaise src => Sys2Proof.Machine.execAlarmRaise src s
  | .alarmClear src mask => Sys2Proof.Machine.execAlarmClear src mask s
  | .rngHealthFail => Sys2Proof.Machine.execRngHealthFail s
  | .ownerChange wr => Sys2Proof.Machine.execOwnerChange wr s
  | .gpioSet b v => Sys2Proof.Machine.execGpioSet b v s
  | .gpioClr b v => Sys2Proof.Machine.execGpioClr b v s
  | .bankSupplyChange b range => Sys2Proof.Machine.execBankSupplyChange b range s
  | .uartTx u v => Sys2Proof.Machine.execUartTx u v s
  | .uartTransmitDone u n => Sys2Proof.Machine.execUartTransmitDone u n s
  | .uartReceive u v err => Sys2Proof.Machine.execUartReceive u v err s
  | .uartData u => Sys2Proof.Machine.execUartData u s
  | .i2cStart c fast => Sys2Proof.Machine.execI2cStart c fast s
  | .i2cWrite c v fast => Sys2Proof.Machine.execI2cWrite c v fast s
  | .i2cReadAck c fast => Sys2Proof.Machine.execI2cReadAck c fast s
  | .i2cReadNack c fast => Sys2Proof.Machine.execI2cReadNack c fast s
  | .i2cStop c fast => Sys2Proof.Machine.execI2cStop c fast s
  | .i2cCommandDone c data ack arb => Sys2Proof.Machine.execI2cCommandDone c data ack arb s
  | .i2cTimeout c => Sys2Proof.Machine.execI2cTimeout c s
  | .spiTx v => Sys2Proof.Machine.execSpiTx v s
  | .spiFrameDone v => Sys2Proof.Machine.execSpiFrameDone v s
  | .spiData => Sys2Proof.Machine.execSpiData s
  | .trigPulse k => Sys2Proof.Machine.execTrigPulse k s
  | .trigPulseEnd k => Sys2Proof.Machine.execTrigPulseEnd k s
  | .trigInputEdge k lvl => Sys2Proof.Machine.execTrigInputEdge k lvl s
  | .gondolaPoll ack rec => Sys2Proof.Machine.execGondolaPoll ack rec s
  | .gondolaToHbm len => Sys2Proof.Machine.execGondolaToHbm len s
  | .hbmToGondola len => Sys2Proof.Machine.execHbmToGondola len s
  | .gondolaAbort => Sys2Proof.Machine.execGondolaAbort s
  | .gondolaTransferEnd cause lines rec => Sys2Proof.Machine.execGondolaTransferEnd cause lines rec s
  | .tetOutWrite reg v => Sys2Proof.Machine.execTetOutWrite reg v s
  | .tetherRefresh => Sys2Proof.Machine.execTetherRefresh s
  | .outMsg up => Sys2Proof.Machine.execOutMsg up s
  | .cfgMsg up => Sys2Proof.Machine.execCfgMsg up s
  | .clkMsg up => Sys2Proof.Machine.execClkMsg up s
  | .pulseMsg up => Sys2Proof.Machine.execPulseMsg up s
  | .inMsg v up => Sys2Proof.Machine.execInMsg v up s
  | .statusMsg vt up => Sys2Proof.Machine.execStatusMsg vt up s
  | .tetherLoss => Sys2Proof.Machine.execTetherLoss s
  | .targetSilence => Sys2Proof.Machine.execTargetSilence s
  | .ckinWindow k0 k1 => Sys2Proof.Machine.execCkinWindow k0 k1 s
  | .lanesAligned n mask inv => Sys2Proof.Machine.execLanesAligned n mask inv s
  | .statusSlotDue n => Sys2Proof.Machine.execStatusSlotDue n s
  | .skipDue n => Sys2Proof.Machine.execSkipDue n s
  | .probeHit u => Sys2Proof.Machine.execProbeHit u s
  | .clearingRead src off => Sys2Proof.Machine.execClearingRead src off s
  | .counterParityRead n bad => Sys2Proof.Machine.execCounterParityRead n bad s
  | .ballInputChange ch => Sys2Proof.Machine.execBallInputChange ch s
  | .claimMapRebuildDone => Sys2Proof.Machine.execClaimMapRebuildDone s
  | .liveMapRebuildDone k => Sys2Proof.Machine.execLiveMapRebuildDone k s
  | .freeFfClockEdge m fall => Sys2Proof.Machine.execFreeFfClockEdge m fall s
  | .asyncSrAssert k => Sys2Proof.Machine.execAsyncSrAssert k s

end Sys2Proof.Machine
end

