-- ==== Sys2Proof/Machine/Tick.lean ====
section
/-! DEFINITION. Sys2Proof/Machine/Tick.lean: one FIG edge with no command (log entry 1): the counters that count edges, and the buffers
that drain by themselves. -/

namespace Sys2Proof.Machine

/-- FIG_COUNT and the counts of the round (R140, R242, R268). -/
def State.tickCounts (s : State) : State :=
  let s1 : State := { s with fig := s.fig + 1 }
  let s2 := s1.when s.counting (fun t => t.setLat { t.lat with count := t.lat.count + 1 })
  s2.when (s.inRound && !s.on CALLER_STAT_DONE) (fun t => t.setCall { t.call with quiet := t.call.quiet + 1 })

/-- A ring of the Tail stores the oldest record of its buffer. -/
def State.ringDrain1 (s : State) (k : Nat) : State :=
  match mget s.tail.ringBuf [] k with
  | [] => s
  | rc :: rest =>
    let r := (s.setTail { s.tail with ringBuf := mset s.tail.ringBuf [] k rest }).bufOut 2 rc.1
      (if rc.2 = 0 then [] else [(0, rc.2 % 2 ^ 72), (1, rc.2 / 2 ^ 72)])
    r.1.ringStore k r.2.1 r.2.2

/-- The oldest records of the rings that wait, up to 4 per figure over all rings (R352), from ring 0 on;
an alarm stops them (R363). -/
def State.ringDrain (s : State) : State :=
  let l := s.tail.ringBuf.flatMap (fun e => List.replicate e.2.length e.1)
  if s.alarmed || !s.gateRun 36 then s else s.each (l.take 4) (fun k t => t.ringDrain1 k)

/-- The trigger units that are armed at this edge (R349). -/
def State.trigArms (s : State) : State := (s.each s.tail.armDue (fun u t => t.trigArm u)).setTail { s.tail with armDue := [] }

/-- The buffers that drain: trace (R248), rings (R352), the list copy of a capture (R335), the scan port's input (R489), a debug access
that waits (R383), the flits of the mesh (R370). -/
def State.tickBuffers (s : State) : State :=
  let s1 := (s.traceStore.traceStore).ringDrain.listCopy
  let s2 := s1.setScan { s1.scan with buf := s1.scan.buf.drop 1 }
  s2.dbgIssue.netMove none

/-- The Gleis ports at an edge (R290, R299, R300, R306): a token or message at the head of UL has its turn, what waits is given to the
transmit queues, and the slots of the figure are sent. -/
def State.tickPorts (s : State) : State :=
  ((s.each (List.range 16) (fun n t => t.ulTurn n)).latPump).txTick

/-- One CORE edge of core `c` (R17, R460 to R464): CYCLE, the timers, the watchdog; a reset that is due (R463). -/
def State.coreEdge (s : State) (c : Nat) : State :=
  if s.coreTicks c then
    if (s.coreOf c).wdtDue then s.coreReset c 2 false
    else
      let x := s.coreOf c
      let s1 := s.setCore c (x.setCtl 30 ((x.ctlReg 30 + 1) % 2 ^ 32))
      let run := fun (k : Nat) (f : State → State) (t : State) => if k ∈ x.early then t else f t
      let s2 := run 2 (fun t => t.wdtTick c) (run 1 (fun t => t.cntTake c 1) (run 0 (fun t => t.cntTake c 0) s1))
      s2.setCore c { s2.coreOf c with early := [], cntDue := [] }
  else s

/-- The present FIG edge still awaits a command: the bow of an announcement 2 f ago (R261), a start edge (R271), a reset edge (R281,
R282), a restore edge (R356), the first edge of a Ballast window (R505), or the announcement or overrun of a round that has counted
65,534 figures (R268). No further edge passes before it (log entry 1). -/
def State.edgeAwaits (s : State) : Bool :=
  s.bowReached || s.startReached || s.resetReached || !s.rstReached.isEmpty || s.restoreReached ||
    (s.balDue && s.fig != 0) ||
    ((s.latState == 3 || s.latState == 4) && decide (65534 ≤ s.lat.count) && s.counting)

/-- What stands by itself at an edge: the hold follows the clamp (R513), a BLANK that waited for Aloft runs (R525), an alarm whose cause
persists sets its bit again (R553). -/
def State.tickStanding (s : State) : State :=
  let s1 := s.when (s.on BAL_STAT_CLAMP) State.balSettle
  let s2 := match s1.cfg.blankDue with
    | some k => if s1.power = 0 then (s1.setCfg { s1.cfg with blankDue := none }).blankBay k else s1
    | none => s1
  s2.when (s2.sec.fuseBad && !(s2.f SEC_ALARM_AL).testBit 5) (fun t => t.raiseAlarm 5)

/-- A FIG edge without a command: what probes see at an edge is over; CORE has an edge at every even FIG_COUNT (R17). -/
def State.tick (s : State) : State :=
  if s.figRuns && !s.edgeAwaits then
    let s0 := s.cntEdge
    let s1 := (s0.setTail { s0.tail with taskHit := [], sampled := [] }).trigArms
    let s2 := s1.tickCounts.tickBuffers.tickPorts
    let s3 := s2.tickStanding
    (if s3.fig.toNat % 2 = 0 then s3.each (List.range 17) (fun c t => t.coreEdge c) else s3).settle
  else s

end Sys2Proof.Machine
end

