-- ==== Sys2Proof/Safety.lean ====
section
/-! DEFINITION. Sys2Proof/Safety.lean: the terms in which claims are stated. -/

namespace Sys2Proof.Machine

/-- The command `i` completes in state `s`: exec answers a next state, and `P` holds of it. -/
def Gives (i : Instr) (s : State) (P : State → Prop) : Prop := ∃ t, exec i s = .next t ∧ P t

/-- The register file and the HBM are in canonical form: addresses strictly rising, and no entry equal to what an unlisted address reads
as. -/
def State.Canon (s : State) : Prop := mwf s.regs resetWord ∧ mwf s.hbm.words (fun _ => 0)

/-- Fuses only gain (R544, R547): state bits stay set, revoked slots stay revoked, VERSION does not fall. -/
def Fuses.Grows (x y : Fuses) : Prop :=
  (x.bound = true → y.bound = true) ∧ (x.sealed = true → y.sealed = true) ∧ (∀ k ∈ x.revoked, k ∈ y.revoked) ∧
    min 64 x.version ≤ y.version

end Sys2Proof.Machine
end

