-- ==== Sys2Proof/Claims.lean ====
section
/-! DEFINITION. Sys2Proof/Claims.lean: the words that the statements about single commands share: a calm state, what a frame is, what an
access code does to the bits of a field. -/

namespace Sys2Proof

/-- The bits of a field with access code `c` that holds the bits `w` after a write of the bits `v` (R10). -/
def Access.written (c : Access) (w v : Word) : Word :=
  match c with
  | .rw => v
  | .ro => w
  | .wo => w
  | .w1c => w &&& ~~~ v
  | .w1s => w ||| v
  | .rc => w
  | .pop => w

/-- The bits of a field with access code `c` that holds the bits `w` after a read (R10). -/
def Access.afterRead (c : Access) (w : Word) : Word :=
  match c with
  | .rw => w
  | .ro => w
  | .wo => w
  | .w1c => w
  | .w1s => w
  | .rc => 0
  | .pop => w

end Sys2Proof

namespace Sys2Proof.Machine

/-- No alarm waits for its effects, and the device is in Aloft and not on its way to another power state: nothing follows a command by
itself (R524, R551). -/
abbrev State.Calm (s : State) : Prop := s.sec.alarmDue = false ∧ s.powerAim = 0

/-- The parts of the state beside the queue, the hub registers and the count of free values drawn. -/
inductive Part where
  | fig
  | round
  | fab
  | clk
  | cfg
  | call
  | lat
  | port
  | tail
  | mesh
  | hbm
  | intg
  | core
  | sem
  | scan
  | bal
  | host
  | sec
  | pin
deriving DecidableEq, Repr

/-- A part is the same in `s` and in `t`. -/
def Part.Same (p : Part) (s t : State) : Prop :=
  match p with
  | .fig => t.fig = s.fig
  | .round => t.round = s.round
  | .fab => t.fab = s.fab
  | .clk => t.clk = s.clk
  | .cfg => t.cfg = s.cfg
  | .call => t.call = s.call
  | .lat => t.lat = s.lat
  | .port => t.port = s.port
  | .tail => t.tail = s.tail
  | .mesh => t.mesh = s.mesh
  | .hbm => t.hbm = s.hbm
  | .intg => t.intg = s.intg
  | .core => t.core = s.core
  | .sem => t.sem = s.sem
  | .scan => t.scan = s.scan
  | .bal => t.bal = s.bal
  | .host => t.host = s.host
  | .sec => t.sec = s.sec
  | .pin => t.pin = s.pin

/-- The frame of a command that takes `s` to `t`: the queue, every hub register whose offset does not satisfy `R`, and every part not in
`ps` are the same. -/
def Keeps (R : Nat → Prop) (ps : List Part) (s t : State) : Prop :=
  t.pending = s.pending ∧ (∀ a, ¬ R a → t.reg a = s.reg a) ∧ ∀ p, p ∉ ps → p.Same s t

/-- The register at offset `a` lies in one of the register blocks `bs` of R22 (1 CLOCK, 2 CONFIG, …, 16 and 17 the station cores). -/
abbrev InBlocks (bs : List Nat) (a : Nat) : Prop := a / 0x100000 ∈ bs

/-- The step `x` stands on unit `u` of the Caller with its first micro-op to come, its task's OP is `op`, and the task sends no signals. -/
abbrev State.StepNew (s : State) (u op : Nat) (x : CStep) : Prop :=
  s.unit u = some x ∧ s.taskOp x.task = op ∧ x.uop = 0 ∧ x.ended = none ∧ x.sig = 0 ∧ s.sigCount x.task = 0

/-- The step `x` has left unit `u` complete: its task has run in this round and is DONE, or idle again with AGAIN. -/
abbrev State.StepLeft (s t : State) (u : Nat) (x : CStep) : Prop :=
  t.unit u = none ∧ (t.ctask x.task).ran = true ∧ (t.ctask x.task).st = if s.taskF x.task 27 27 = 0 then .done else .idle

/-- Port `n` is up, and the slots complete there the frames and slots `l` (R292 to R298). -/
abbrev State.Hears (s : State) (n : Nat) (slots : List (List Nat)) (l : List RxEvt) : Prop :=
  n < 16 ∧ s.portUp n = true ∧ (rxSlots n slots s).2 = l

/-- The register at offset `a` counts the code and disparity errors of a lane of port `n`. -/
abbrev LaneErrOf (n a : Nat) : Prop := ∃ l, l < 9 ∧ a = GLS_LANE_ERR n l

/-- Queue `q` of the Caller is not direct and takes one more bundle on chip. -/
abbrev State.QueueRoom (s : State) (q : Nat) : Prop :=
  s.queueDirect q = false ∧ s.queueCount q < s.queueCap q ∧ (s.cqueue q).chip.length < 4 ∧ (s.cqueue q).spilled = 0

/-- Core `c` runs and issues the instruction word `w`, of kind `k`, at its PC: in P it stands there without an error. -/
abbrev State.Issues (s : State) (c : Nat) (w : Word) (k : Nat) : Prop :=
  c < 17 ∧ s.canIssue c = true ∧ s.coreSt c = 1 ∧ s.bpHit c = none ∧ insnKind w = some k ∧
    (2 ^ 16 ≤ s.pcOf c ∧ s.pcOf c % 2 ^ 16 < 0x8000 ∨
      s.pcOf c < 2 ^ 16 ∧ decode32 ((s.coreOf c).memRaw 0 (s.pcOf c / 4 % 16384)) = .clean w.toNat)

/-- No repeat level of core `c` is open, and no debugger steps it: the next instruction follows. -/
abbrev State.Flows (s : State) (c : Nat) : Prop :=
  (s.coreOf c).ctlReg 5 = 0 ∧ (s.coreOf c).stepping = false ∧ (s.coreOf c).skipBp = false

/-- Core `c` has become `x` and goes on at `pc`; no other core, no register but its ST_STAT and no other part has changed. -/
def State.CoreStep (s t : State) (c : Nat) (x : Core) (pc : Nat) : Prop :=
  t.coreOf c = x ∧ t.pcOf c = pc ∧ t.coreSt c = 1 ∧ (∀ d : Nat, d ≠ c → t.coreOf d = s.coreOf d) ∧
    Keeps (fun a => a = ST_STAT c) [.core] s t

end Sys2Proof.Machine
end

