-- ==== Sys2Proof/Certificates/Slice0/Obligations.lean ====
section
/-! DEFINITION. Sys2Proof/Certificates/Slice0/Obligations.lean: the statements for the provers. A clause `∀ …, hypotheses → ∃ t, exec (c) s = .next t ∧ …`
says that in every state that meets the hypotheses the command c completes with the state t, and what t holds; `Keeps R ps s t` is its frame: all
registers but those of R, and all parts of the state but ps, are as before. -/

open Sys2Proof Sys2Proof.Machine

section

set_option linter.unusedVariables false

/-- For every state whose queue is c followed by rest, step is exec of c on that state with rest as its queue. For every state whose queue
  is empty, step answers the state after one FIG edge; that the block takes a FIG edge there, and not with each command, is the model's
  choice (log entry 1). -/
def Obligations.StepRunsTheFront : Prop :=
  (∀ (s : State) (c : Instr) (rest : List Instr), s.pending = c :: rest → step s = exec c { s with pending := rest }) ∧
  (∀ s : State, s.pending = [] → step s = .next s.tick)

/-- State.reset holds every register at the value of its Reset column (resetWord), in canonical form, with no command waiting, FIG_COUNT and
  ROUND_COUNT 0, no alarm due, Aloft and Unbound. (Where the column gives no value, and the fuses and straps, the value is the model's:
  log entries 2 and 3.) -/
def Obligations.ResetState : Prop :=
  State.reset.Canon ∧ State.reset.Calm ∧ (∀ a : Nat, State.reset.reg a = resetWord a) ∧ State.reset.pending = [] ∧
    State.reset.fig = 0 ∧ State.reset.round = 0 ∧ State.reset.secState = 0 ∧ State.reset.power = 0 ∧ State.reset.latState = 0

/-- For every command and every state exec answers a next state with the same queue, and with the same FIG_COUNT where the command is not
  POR. On an empty queue step answers a state whose queue is empty and whose FIG_COUNT is one more where FIG runs and no event of the
  present edge is still to be commanded, the same otherwise. (That commands take no FIG edge, and which events an edge waits for, is the
  model's choice, log entry 1.) -/
def Obligations.EveryCommandCompletes : Prop :=
  (∀ (i : Instr) (s : State), ∃ t, exec i s = .next t ∧ t.pending = s.pending ∧
    ((∀ (b p : Nat) (e : Bool), i ≠ .por b p e) → t.fig = s.fig)) ∧
  (∀ s : State, s.pending = [] →
    ∃ t, step s = .next t ∧ t.pending = [] ∧ t.fig = if s.figRuns && !s.edgeAwaits then s.fig + 1 else s.fig)

/-- In every state whose register file and HBM list their entries by strictly rising address with none equal to what an unlisted address
  reads as, every step, of a command or of a FIG edge, leaves them so: equal contents stay equal data. -/
def Obligations.StepsKeepTablesCanonical : Prop :=
  ∀ s t : State, s.Canon → step s = .next t → t.Canon

/-- For every step, of any command or of a FIG edge, POR included: a programmed state bit stays programmed, a revoked key slot stays
  revoked, and VERSION does not fall (up to 64). So the security state that the fuses select at the next POR is never a lower one. -/
def Obligations.FusesOnlyGain : Prop :=
  ∀ s t : State, step s = .next t → s.sec.fuses.Grows t.sec.fuses ∧
    (if s.sec.fuses.sealed then 2 else if s.sec.fuses.bound then 1 else 0) ≤
      (if t.sec.fuses.sealed then 2 else if t.sec.fuses.bound then 1 else 0)

/-- Where the controller of the line serves it, a full-line write of unpoisoned data makes the next read of that line, by any source, return
  that data with status OK and no poison, and change nothing; the eight stored words and the stored tag of every other line of the data
  region are as before (its tag word may be shared), where the cached tag line of the written line, if any, is readable and its cache
  has room. -/
def Obligations.LineReadsBack : Prop :=
  ∀ s : State, 
    (∀ (src a data : Nat) (k : KeyPair), s.memServe a = .inr k → a % 64 = 0 → a < 0x001680000000 → data < 2 ^ 512 → ((s.lineWrite a data
      0).1.lineRead src a []) = ((s.lineWrite a data 0).1, ⟨0, 0, data, 0⟩)) ∧
    (∀ (a b data : Nat) (k : KeyPair), s.memServe a = .inr k → a % 64 = 0 → b % 64 = 0 → a < 0x001680000000 → b < 0x001680000000 → a ≠ b →
      ∀ x : TagLine, mget s.hbm.cache none (tagLineOf a) = some x → x.ue = false → (s.tagLines (memStack (64 * tagLineOf a))).length <
      2048 → (s.lineWrite a data 0).1.lineWords b = s.lineWords b ∧ (s.lineWrite a data 0).1.tagOf b = s.tagOf b ∧ Keeps (fun a =>
      InBlocks [3, 4] a ∨ a = HIF_IRQ_STAT 6) [.hbm, .intg, .host, .tail, .mesh] s (s.lineWrite a data 0).1)

/-- For every 64-bit data d, the code word of d with the poison pattern, with any one of its 72 bits flipped: a flip of data bit 0 to 47 or
  of a check bit decodes as uncorrectable, which is delivered poisoned as stored; a flip of data bit 48 to 63 decodes as corrected, not
  poisoned, to data that differs from d in exactly that bit and one other. -/
def Obligations.PoisonedWordBitError : Prop :=
  ∀ d i : Nat, d < 2 ^ 64 → i < 72 →
    (i < 48 ∨ 64 ≤ i → decode64 (encode64 d true ^^^ 2 ^ i) = .uncorrectable ((encode64 d true ^^^ 2 ^ i) % 2 ^ 64) ∧
      (decode64 (encode64 d true ^^^ 2 ^ i)).bad = true) ∧
    (48 ≤ i → i < 64 → (decode64 (encode64 d true ^^^ 2 ^ i)).bad = false ∧
      ∃ j : Nat, j < 64 ∧ j ≠ i ∧ decode64 (encode64 d true ^^^ 2 ^ i) = .corrected (d ^^^ 2 ^ i ^^^ 2 ^ j))

/-- For every source with an ordering block: after the reset its registers hold their reset values (0) and it has no pending fence; no other
  register changes (so no event), nor any operation of the mesh, nor what waits at its ports. -/
def Obligations.OrderingBlockReset : Prop :=
  ∀ s : State, 
    (∀ (src : Nat), hasOrder src = true → (s.orderReset src).fencesOf src = [] ∧ (∀ a : Nat, a < 0x20 → (s.orderReset src).reg
      (DEV_ORD_FENCE src + a) = 0) ∧ (s.orderReset src).mesh = { s.mesh with fences := (s.orderReset src).mesh.fences } ∧ (∀ r : Nat, r ≠
      src → (s.orderReset src).fencesOf r = s.fencesOf r) ∧ Keeps (fun a => DEV_ORD_FENCE src ≤ a ∧ a < DEV_ORD_FENCE src + 0x20) [.mesh,
      .fab] s (s.orderReset src))

/-- DEV_ORD_FENCE on a source with an ordering block and fewer than 16 fences pending gives the fence the next number (ISSUED + 1), lists it
  with the operations of the source that are not yet visible, and PENDING shows the length of the list; where 16 are pending the write
  is held. FENCE_COMPLETE on a fence with nothing left to wait for takes it off the list, adds 1 to DONE, and sets ERR where an
  operation it covered completed with error. Only the registers of the block, the list (and, for the completion, EV_FENCE_DONE, its
  marks and the acknowledge of a fabric master port) change. (Shown to complete, each with its own effect: devOrdFence, fenceComplete.) -/
def Obligations.OrderingBlocks : Prop :=
  ∀ s : State, 
    (∀ (src : Nat), hasOrder src = true → (s.fencesOf src).length < 16 → ∃ t, exec (.devOrdFence src) s = .next t ∧ mget t.mesh.fences []
      src = s.fencesOf src ++ [((s.f (DEV_ORD_ISSUED_COUNT src) + 1) % 2 ^ 32, s.openKeys src, false)] ∧ t.f (DEV_ORD_ISSUED_COUNT src) =
      (s.f (DEV_ORD_ISSUED_COUNT src) + 1) % 2 ^ 32 ∧ t.f (DEV_ORD_STATUS_PENDING src) = (s.fencesOf src).length + 1 ∧ Keeps (fun a => a =
      DEV_ORD_ISSUED src ∨ a = DEV_ORD_STATUS src) [.mesh, .host] s t ∧ (src ≠ 0 → t.host = s.host)) ∧
    (∀ (src : Nat), hasOrder src = true → 16 ≤ (s.fencesOf src).length → ∃ t, exec (.devOrdFence src) s = .next t ∧ t.mesh =
      { s.mesh with heldWr := s.mesh.heldWr ++ [(src, DEV_ORD_FENCE src, 1)] } ∧ Keeps (fun _ => False) [.mesh] s t) ∧
    (∀ (src k : Nat) (err : Bool) (rest : List (Nat × List Nat × Bool)), hasOrder src = true → s.fencesOf src = (k, [], err) :: rest →
      s.mesh.heldWr = [] → ∃ t, exec (.fenceComplete src) s = .next t ∧ t.fencesOf src = rest ∧ t.f (DEV_ORD_DONE_COUNT src) = (s.f
      (DEV_ORD_DONE_COUNT src) + 1) % 2 ^ 32 ∧ t.f (DEV_ORD_STATUS_PENDING src) = rest.length % 32 ∧ t.f (DEV_ORD_STATUS_ERR src) = (if
      err then 1 else s.f (DEV_ORD_STATUS_ERR src)) ∧ Keeps (fun a => a = DEV_ORD_DONE src ∨ a = DEV_ORD_STATUS src ∨ a = HIF_IRQ_STAT
      ((64 + src) / 32)) [.mesh, .fab, .host, .tail] s t)

/-- At the first edge of its leak window a counter that is enabled and whose parity is right loses 1 from COUNT, not below 0, once. A parity
  check that finds the parity wrong acts as an overflow with cause CNT_FAULT: COUNT returns to 0, OVF_CNT gains 1, FAULT is set, the
  record goes into the log, and with EN = 1 the parent is due 1 at the next edge. COUNTER_PROPAGATE adds 1 to a bucket for one overflow
  of a child at an earlier edge, below the threshold, and nothing is due any more. INT_LOG_POP removes the head record, made at an
  earlier edge, and loads its stamp. (Shown to complete, each with its own effect: leakWindow, counterParityRead, counterPropagate,
  intLogPop.) -/
def Obligations.CounterTree : Prop :=
  ∀ s : State, 
    (∀ (n : Nat), n ∈ cntAll → s.on (cntEnF n) = true → n ∉ s.intg.bad → n ∉ s.intg.leaked → s.fig.toNat % 2 ^ max 10 (s.f (cntLeakF n)) =
      0 → ∃ t, exec (.leakWindow n false) s = .next t ∧ t.f (cntF n) = s.f (cntF n) - 1 ∧ t.intg =
      { s.intg with leaked := ladd s.intg.leaked n } ∧ Keeps (fun a => a = (cntF n).addr) [.intg] s t) ∧
    (∀ (n : Nat) (bad : Bool), n ∈ cntAll → bad = true ∨ n ∈ s.intg.bad → ∃ t, exec (.counterParityRead n bad) s = .next t ∧ t.f (cntF n)
      = 0 ∧ t.f (cntOvfF n) = (s.f (cntOvfF n) + 1) % 256 ∧ t.f (cntFaultF n) = 1 ∧ t.intg.log = logInsert ⟨cntLevel n, true, if n < 1000
      then n else if n = 1017 then 0 else n - 1000, s.fig.toNat % 2 ^ 48⟩ s.intg.log ∧ t.intg.due = s.intg.due ++ (if s.on (cntEnF n) then
      (cntParent n).toList.map (fun p => (p, s.fig.toNat)) else []) ∧ n ∉ t.intg.bad ∧ Keeps (fun a => a = (cntF n).addr ∨ a =
      HIF_IRQ_STAT 6) [.intg, .host, .tail, .mesh] s t) ∧
    (∀ (b e : Nat), b < 18 → s.intg.due = [(b, e)] → e < s.fig.toNat → s.fig.toNat % 1024 ≠ 0 → s.on (cntEnF (1000 + b)) = true → 1000 + b
      ∉ s.intg.bad → 1000 + b ∉ s.intg.overs → s.f (cntF (1000 + b)) + 1 < s.f (cntThrF (1000 + b)) → ∃ t, exec (.counterPropagate) s =
      .next t ∧ t.intg.due = [] ∧ t.f (cntF (1000 + b)) = s.f (cntF (1000 + b)) + 1 ∧ Keeps (fun a => a = INT_BKT_STAT b) [.intg] s t) ∧
    (∀ (r : IntRec) (rest : List IntRec), s.intg.log = r :: rest → r.stamp ≠ s.fig.toNat % 2 ^ 48 → ∃ t, exec (.intLogPop) s = .next t ∧
      t.intg = { s.intg with log := rest } ∧ t.reg INT_LOG_STAMP_LO = BitVec.ofNat 32 r.stamp ∧ t.f INT_LOG_STAMP_HI_STAMP_HI = r.stamp /
      2 ^ 32 % 2 ^ 16 ∧ Keeps (fun a => a = INT_LOG_STAMP_LO ∨ a = INT_LOG_STAMP_HI) [.intg] s t)

/-- A write to a register of the INTEGRITY block that is no log register gives each RW field the written bits, clears a W1C bit where 1 is
  written, sets a W1S bit where 1 is written, and leaves every other field; a read of such a register that pops nothing and checks no
  counter clears its RC fields and leaves the rest. No other register and no other state changes. (The INTEGRITY block stands for the
  blocks whose registers have no effect of their own.) (Shown to complete, each with its own effect: registerWrite, clearingRead.) -/
def Obligations.RegisterWrite : Prop :=
  ∀ s : State, s.Calm → 
    (∀ (src off : Nat) (v : Word) (r : RegSpec) (f : FieldSpec), off % 4 = 0 → 0x300000 ≤ off → off < 0x400000 → regAt off = some r →
      r.log = false → f ∈ r.fields → s.mesh.heldWr = [] → ∃ t, exec (.registerWrite src off v) s = .next t ∧ t.reg off &&& fmask f.hi f.lo
      = f.acc.written (s.reg off) v &&& fmask f.hi f.lo ∧ Keeps (fun a => a = off) [] s t) ∧
    (∀ (src off : Nat) (r : RegSpec) (f : FieldSpec), off % 4 = 0 → 0x300000 ≤ off → off < 0x400000 → off ≠ INT_LOG_POP → cntAt off = none
      → regAt off = some r → f ∈ r.fields → ∃ t, exec (.clearingRead src off) s = .next t ∧ t.reg off &&& fmask f.hi f.lo =
      f.acc.afterRead (s.reg off) &&& fmask f.hi f.lo ∧ Keeps (fun a => a = off) [] s t)

/-- After POR with no fuse error every register that no strap and no fuse loads holds the value of its Reset column, BOOT_SRC and
  PULL_DEFAULT hold the straps, the security state is that of the fuses, every part of the state but security and the pins is that of
  State.reset, the fuses are kept, nothing of a volatile key slot is left, the pins keep only what the board drives, no command that
  waits is lost. (The values that the spec leaves open at reset are the model's: log entries 2 and 3.) (Shown to complete, each with its
  own effect: por.) -/
def Obligations.PowerOnReset : Prop :=
  ∀ s : State, 
    (∀ (boot pull : Nat), ∃ t, exec (.por boot pull false) s = .next t ∧ (∀ a, a ∉ [DEV_REV, CFG_STRAP, CLK_OSC_TRIM_CTRL, BAL_THERM_CFG,
      SEC_STATE, SEC_FUSE_STAT] → t.reg a = resetWord a) ∧ t.f CFG_STRAP_BOOT_SRC = boot % 4 ∧ t.f CFG_STRAP_PULL_DEFAULT = pull % 4 ∧ t.f
      SEC_STATE_STATE = (if s.sec.fuses.sealed then 2 else if s.sec.fuses.bound then 1 else 0) ∧ t.sec =
      { Security.init with fuses := s.sec.fuses } ∧ t.pin = { Pins.init with ext := s.pin.ext } ∧ t.pending = s.pending ∧ ∀ p : Part, p ∉
      [Part.sec, .pin] → p.Same State.reset t)

/-- While BCLK of the bay runs: a value written to the FIG side of an inbound word reaches its fabric side; the nets of an outbound word
  reach its fabric side and its FIG side; in a bay whose nets are latched or held they do not, and a stopped BCLK holds the crossing. A
  write through the aperture changes the written half (or the poison bit) of the FIG side of an inbound word while the rounds are
  stopped, and nothing while they run. A read of LO through the aperture loads the hold register of the sector with HI and STAT. All
  else is unchanged. (Shown to complete, each with its own effect: inboundCrossing, outboundCrossing, apertureInboundWrite,
  apertureLoRead.) -/
def Obligations.BoundaryWords : Prop :=
  ∀ s : State, 
    (∀ (g : Nat), s.bclkRuns (g / 64) = true → g ∈ s.fab.inDue → s.bayCut (g / 64) = false → s.fab.hold = false → ∃ t, exec
      (.inboundCrossing g) s = .next t ∧ t.fab = { s.fab with inDue := ldel s.fab.inDue g, inFab := t.fab.inFab } ∧ mget t.fab.inFab
      BWord.init g = mget s.fab.inFig BWord.init g ∧ (∀ h : Nat, h ≠ g → mget t.fab.inFab BWord.init h = mget s.fab.inFab BWord.init h) ∧
      Keeps (fun _ => False) [.fab] s t) ∧
    (∀ (g : Nat), s.bayCut (g / 64) = true → ∃ t, exec (.inboundCrossing g) s = .next t ∧ t.fab.inFab = s.fab.inFab ∧ t.fab.inFig =
      s.fab.inFig ∧ Keeps (fun _ => False) [.fab] s t) ∧
    (∀ (g : Nat), s.bclkRuns (g / 64) = false → ∃ t, exec (.inboundCrossing g) s = .next t ∧ t = s) ∧
    (∀ (g : Nat), g < 8192 → s.bclkRuns (g / 64) = true → s.bayCut (g / 64) = false → s.fab.hold = false → ∃ t, exec (.outboundCrossing g)
      s = .next t ∧ mget t.fab.outFab BWord.init g = s.outNets g ∧ mget t.fab.outFig BWord.init g = s.outNets g ∧ (∀ h : Nat, h ≠ g → mget
      t.fab.outFig BWord.init h = mget s.fab.outFig BWord.init h) ∧ Keeps (fun _ => False) [.fab] s t) ∧
    (∀ (n w r : Nat) (v : Word), n < 16 → w < 512 → r < 3 → s.stopped = true → s.fab.hold = false → ∃ t, exec (.apertureInboundWrite n w r
      v) s = .next t ∧ mget t.fab.inFig BWord.init (512 * n + w) = ⟨if r = 0 then (mget s.fab.inFig BWord.init (512 * n +
      w)).data.extractLsb' 32 32 ++ v else if r = 1 then v ++ (mget s.fab.inFig BWord.init (512 * n + w)).data.setWidth 32 else (mget
      s.fab.inFig BWord.init (512 * n + w)).data, if r = 2 then v.toNat.testBit 0 else (mget s.fab.inFig BWord.init (512 * n + w)).poison⟩
      ∧ 512 * n + w ∈ t.fab.inDue ∧ (∀ h : Nat, h ≠ 512 * n + w → mget t.fab.inFig BWord.init h = mget s.fab.inFig BWord.init h) ∧ Keeps
      (fun _ => False) [.fab] s t) ∧
    (∀ (n w r : Nat) (v : Word), s.stopped = false → ∃ t, exec (.apertureInboundWrite n w r v) s = .next t ∧ t = s) ∧
    (∀ (n w : Nat) (out : Bool), n < 16 → w < 512 → ∃ t, exec (.apertureLoRead n w out) s = .next t ∧ mget t.fab.apHold ApHold.init n =
      ⟨some (w + 512 * b2n out), (s.bndWord n (w + 512 * b2n out)).1.hi, bndStat (s.bndWord n (w + 512 * b2n out)).1 (s.bndWord n (w + 512
      * b2n out)).2⟩ ∧ t.fab = { s.fab with apHold := t.fab.apHold } ∧ (∀ k : Nat, k ≠ n → mget t.fab.apHold ApHold.init k = mget
      s.fab.apHold ApHold.init k) ∧ Keeps (fun _ => False) [.fab] s t)

/-- At an edge of PCLK while bay b0 of the sector runs and no global hold stands: a request that the fabric presents with a legal size and
  alignment and a free tag, no fence beside it, is queued under its tag behind the requests that wait to leave; one of an illegal size
  or alignment is answered in the buffer of the port with STATUS TARGET and CAUSE 0x01, and nothing leaves; with its tag busy it waits.
  M_FENCE_REQ with fewer than 16 fences pending issues a fence and notes its number. Responses that have arrived enter the buffer in
  their order; M_RSP_READY takes the one presented; while b0 does not run they are discarded. (Shown to complete, each with its own
  effect: masterRequest, masterFence, masterResponse.) -/
def Obligations.MasterPorts : Prop :=
  ∀ s : State, 
    (∀ (n : Nat), s.chanOpen n 0 = true → s.fabSig n .mFenceReq 1 = 0 ∨ s.chanFree n 2 = false → s.fabSig n .mReqValid 1 = 1 → s.tagFree n
      (s.masterAcc n).tag = true → (s.masterAcc n).size ≤ 64 → (s.masterAcc n).addr % (s.masterAcc n).size = 0 → ∃ t, exec (.masterRequest
      n) s = .next t ∧ t.tagAt (s.masterAcc n).key = .queued (s.masterAcc n) ∧ t.mesh.out = s.mesh.out ++ [(s.masterAcc n).key] ∧ t.mesh =
      { s.mesh with tags := t.mesh.tags, out := t.mesh.out } ∧ t.fab =
      { s.fab with served := mset s.fab.served [] n (ladd (mget s.fab.served [] n) 0) } ∧ Keeps (fun _ => False) [.fab, .mesh] s t) ∧
    (∀ (n : Nat), s.chanOpen n 0 = true → s.fabSig n .mFenceReq 1 = 0 ∨ s.chanFree n 2 = false → s.fabSig n .mReqValid 1 = 1 → s.tagFree n
      (s.masterAcc n).tag = true → 64 < (s.masterAcc n).size ∨ (s.masterAcc n).addr % (s.masterAcc n).size ≠ 0 → ∃ t, exec (.masterRequest
      n) s = .next t ∧ mget t.fab.mRsp [] n = mget s.fab.mRsp [] n ++ (mget s.mesh.inbox [] (32 + n)).map (fun e => (⟨e.1.tag, e.2.status,
      e.2.cause, if e.1.write then 0 else e.2.data, e.2.poison⟩ : MRsp)) ++ [⟨(s.masterAcc n).tag, 4, 1, 0, 0⟩] ∧ t.mesh =
      { s.mesh with inbox := mset s.mesh.inbox [] (32 + n) [] } ∧ t.fab =
      { s.fab with mRsp := t.fab.mRsp, served := mset s.fab.served [] n (ladd (mget s.fab.served [] n) 0) } ∧ Keeps (fun _ => False)
      [.fab, .mesh] s t) ∧
    (∀ (n : Nat), s.chanOpen n 0 = true → s.fabSig n .mFenceReq 1 = 0 ∨ s.chanFree n 2 = false → s.tagFree n (s.masterAcc n).tag = false →
      ∃ t, exec (.masterRequest n) s = .next t ∧ t = s) ∧
    (∀ (n : Nat), s.chanOpen n 2 = true → s.fabSig n .mFenceReq 1 = 1 → (s.fencesOf (32 + n)).length < 16 → ∃ t, exec (.masterFence n) s =
      .next t ∧ mget t.fab.mFence [] n = mget s.fab.mFence [] n ++ [(s.f (DEV_ORD_ISSUED_COUNT (32 + n)) + 1) % 2 ^ 32] ∧ (t.fencesOf (32
      + n)).length = (s.fencesOf (32 + n)).length + 1 ∧ t.f (DEV_ORD_ISSUED_COUNT (32 + n)) = (s.f (DEV_ORD_ISSUED_COUNT (32 + n)) + 1) %
      2 ^ 32 ∧ mget t.fab.served [] n = ladd (mget s.fab.served [] n) 2 ∧ Keeps (fun a => a = DEV_ORD_ISSUED (32 + n) ∨ a = DEV_ORD_STATUS
      (32 + n)) [.fab, .mesh] s t) ∧
    (∀ (n : Nat), n < 16 → s.sectorLive n = true → (mget s.fab.portView PortView.init n).rsp = none → ∃ t, exec (.masterResponse n) s =
      .next t ∧ mget t.fab.mRsp [] n = mget s.fab.mRsp [] n ++ (mget s.mesh.inbox [] (32 + n)).map (fun e => (⟨e.1.tag, e.2.status,
      e.2.cause, if e.1.write then 0 else e.2.data, e.2.poison⟩ : MRsp)) ∧ mget t.mesh.inbox [] (32 + n) = [] ∧ t.fab =
      { s.fab with mRsp := t.fab.mRsp } ∧ Keeps (fun _ => False) [.fab, .mesh] s t) ∧
    (∀ (n : Nat) (r : MRsp), s.chanOpen n 1 = true → (mget s.fab.portView PortView.init n).rsp = some r → (s.masterIn n).fabSig n
      .mRspReady 1 = 1 → ∃ t, exec (.masterResponse n) s = .next t ∧ mget t.fab.mRsp [] n = (mget s.fab.mRsp [] n ++ (mget s.mesh.inbox []
      (32 + n)).map (fun e => (⟨e.1.tag, e.2.status, e.2.cause, if e.1.write then 0 else e.2.data, e.2.poison⟩ : MRsp))).drop 1 ∧ mget
      t.mesh.inbox [] (32 + n) = [] ∧ t.fab =
      { s.fab with mRsp := t.fab.mRsp, served := mset s.fab.served [] n (ladd (mget s.fab.served [] n) 1) } ∧ Keeps (fun _ => False)
      [.fab, .mesh] s t) ∧
    (∀ (n : Nat), n < 16 → s.sectorLive n = false → ∃ t, exec (.masterResponse n) s = .next t ∧ t.mesh =
      { s.mesh with inbox := mset s.mesh.inbox [] (32 + n) [] } ∧ Keeps (fun _ => False) [.mesh] s t)

/-- While bay b0 runs and PCLK has edges: the oldest request that the fabric has not seen is presented under the identifier, fewer than 32
  outstanding; with T_REQ_READY the presented request is outstanding; an answer of the fabric that names an outstanding identifier takes
  that request off the port and sends its response (CAUSE 0x70 with STATUS TARGET for T_RSP_ERR, no data for a write); a T_RSP_ID that
  names none is a stray (EV_MESH_STRAY 195 logged). While b0 does not run, the port answers its oldest request with STATUS TARGET and
  CAUSE 0x71. (Shown to complete, each with its own effect: targetRequest, targetResponse.) -/
def Obligations.TargetPorts : Prop :=
  ∀ s : State, 
    (∀ (n id i : Nat) (w : Wait), n < 16 → id < 4096 → s.sectorLive n = true → s.pclkRuns n = true → mget s.fab.tShow none n = none →
      s.tgtNext n = some (i, w) → (mget s.fab.tReq [] n).length < 32 → ((mget s.fab.tReq [] n).any (fun e => e.1 == id)) = false → ∃ t,
      exec (.targetRequest n id) s = .next t ∧ mget t.fab.tShow none n = some (id, w.acc.key) ∧ t.fab =
      { s.fab with tShow := t.fab.tShow } ∧ Keeps (fun _ => False) [.fab] s t) ∧
    (∀ (n id : Nat) (x : Nat × Nat) (r : TReq), s.chanOpen n 3 = true → mget s.fab.tShow none n = some x → (mget s.fab.portView
      PortView.init n).req = some r → s.fabSig n .tReqReady 1 = 1 → ∃ t, exec (.targetRequest n id) s = .next t ∧ mget t.fab.tReq [] n =
      mget s.fab.tReq [] n ++ [x] ∧ mget t.fab.tShow none n = none ∧ mget t.fab.served [] n = ladd (mget s.fab.served [] n) 3 ∧ t.fab =
      { s.fab with tReq := t.fab.tReq, tShow := t.fab.tShow, served := t.fab.served } ∧ Keeps (fun _ => False) [.fab] s t) ∧
    (∀ (n id : Nat) (w : Wait) (rest : List Wait), n < 16 → s.sectorLive n = false → s.waits (4 * n + 1) = w :: rest → w.ghost = false → ∃
      t, exec (.targetRequest n id) s = .next t ∧ t.waits (4 * n + 1) = rest ∧ t.mesh.rsps = s.mesh.rsps ++ [rspPacket w.acc (4 * n + 1)
      ⟨4, 0x71, 0, 0⟩] ∧ mget t.fab.tShow none n = none ∧ Keeps (fun _ => False) [.fab, .mesh] s t) ∧
    (∀ (n i j : Nat) (w : Wait), s.chanOpen n 4 = true → s.fabSig n .tRspValid 1 = 1 → ((mget s.fab.tReq [] n).findIdx? (fun e => e.1 ==
      s.fabSig n .tRspId 12)) = some i → s.tgtIndex n i = some j → (s.waits (4 * n + 1))[j]? = some w → w.ghost = false → ∃ t, exec
      (.targetResponse n) s = .next t ∧ t.waits (4 * n + 1) = dropAt (s.waits (4 * n + 1)) j ∧ mget t.fab.tReq [] n = dropAt (mget
      s.fab.tReq [] n) i ∧ t.mesh.rsps = s.mesh.rsps ++ [rspPacket w.acc (4 * n + 1) (if s.fabSig n .tRspErr 1 = 1 then (⟨4, 0x70, 0, 0⟩ :
      Rsp) else Rsp.norm ⟨0, 0, if w.acc.write then 0 else s.fabSig n .tRspData 512, if w.acc.write then 0 else s.fabSig n .tRspPoison
      8⟩)] ∧ mget t.fab.served [] n = ladd (mget s.fab.served [] n) 4 ∧ Keeps (fun _ => False) [.fab, .mesh] s t) ∧
    (∀ (n : Nat), s.chanOpen n 4 = true → s.fabSig n .tRspValid 1 = 1 → ((mget s.fab.tReq [] n).findIdx? (fun e => e.1 == s.fabSig n
      .tRspId 12)) = none → s.on MESH_ERR_LOG_VALID = false → ∃ t, exec (.targetResponse n) s = .next t ∧ t.f MESH_ERR_LOG_KIND = 3 ∧ t.f
      MESH_ERR_LOG_ROUTER = n ∧ t.on MESH_ERR_LOG_VALID = true ∧ mget t.fab.served [] n = ladd (mget s.fab.served [] n) 4 ∧ t.mesh.rsps =
      s.mesh.rsps ∧ Keeps (fun a => a = MESH_ERR_LOG ∨ a = HIF_IRQ_STAT 6) [.fab, .mesh, .host, .tail] s t)

/-- At an edge that a free-running clock gives, after its dividers, the flip-flop FFA of the one configured cell takes its next value where
  one of its spines has the edge; no other flip-flop changes. An asserted asynchronous SR loads SR_VAL. At an edge of port A of a block
  memory on a clock that runs, an enabled write stores the merged row and no other row, an enabled read of a memory without ECC loads
  the port register with the addressed bits. A slice on a clock that runs takes the registers of its step. Nothing else of the state
  changes, but clock dividers, shadow latches, the signals of the mesh ports, and error events of memory and slice. (Shown to complete,
  each with its own effect: freeFfClockEdge, asyncSrAssert, bramPortAccess, sliceUpdate.) -/
def Obligations.FreeRunningEdges : Prop :=
  ∀ s : State, 
    (∀ (m : Nat) (fall : Bool) (c : CellCfg), s.freeClocks = true → s.edgeDue m fall = true → s.fab.hold = false → s.cells = [c] →
      s.ffFree c false = true → bayOfCell c.cell ∉ s.fab.held → ((s.ffSpines c.cell c.ffa).any (fun e => decide ((sectorOfCell c.cell,
      e.1, e.2) ∈ ((s.ckinSeen m fall).clockEdge m fall).2))) = true → s.strobeOpen = none → ∃ t, exec (.freeFfClockEdge m fall) s = .next
      t ∧ mget t.fab.ff false (2 * c.cell) = s.ffNext c false ∧ (∀ k : Nat, k / 2 ≠ c.cell → mget t.fab.ff false k = mget s.fab.ff false
      k) ∧ t.fab.slice = s.fab.slice ∧ t.fab.rows = s.fab.rows ∧ t.fab.inFig = s.fab.inFig ∧ t.fab.outFig = s.fab.outFig ∧ Keeps (fun _ =>
      False) [.fab, .clk] s t) ∧
    (∀ (k : Nat) (c : CellCfg), s.cellCfg (k / 2) = some c → k % 2 = 0 → s.ffFree c false = true → s.ffAsyncSr c.cell c.ffa = true →
      s.fab.hold = false → bayOfCell c.cell ∉ s.fab.held → ∃ t, exec (.asyncSrAssert k) s = .next t ∧ mget t.fab.ff false k = c.ffa.srVal
      ∧ (∀ j : Nat, j ≠ k → mget t.fab.ff false j = mget s.fab.ff false j) ∧ t.fab = { s.fab with ff := t.fab.ff } ∧ Keeps (fun _ =>
      False) [.fab] s t) ∧
    (∀ (m : Nat) (c : MemCfg), s.memCfg m = some c → m < 16384 → s.freeClocks = true → s.fab.hold = false → m / 128 ∉ s.fab.held →
      s.designPort m c.a = false → s.spineRuns (m / 1024) c.a.clk = true → c.a.clk ≠ c.b.clk → (s.portAcc m c.a).en = true → (s.portAcc m
      c.a).write = true → ∃ t, exec (.bramPortAccess m true false []) s = .next t ∧ t.row m (s.portAcc m c.a).row = (memWrite c.ecc (s.row
      m (s.portAcc m c.a).row) (s.portAcc m c.a).data (s.portAcc m c.a).mask (s.portAcc m c.a).pin) % 2 ^ 72 ∧ (∀ k : Nat, k ≠ 512 * m +
      (s.portAcc m c.a).row → mget t.fab.rows 0 k = mget s.fab.rows 0 k) ∧ Keeps (fun a => 0x300000 ≤ a ∧ a < 0x400000 ∨ a = HIF_IRQ_STAT
      6) [.fab, .intg, .host, .tail, .mesh] s t) ∧
    (∀ (m : Nat) (c : MemCfg), s.memCfg m = some c → c.ecc = false → s.freeClocks = true → s.fab.hold = false → m / 128 ∉ s.fab.held →
      s.designPort m c.a = false → s.spineRuns (m / 1024) c.a.clk = true → c.a.clk ≠ c.b.clk → s.pinVal (m / 128) c.a.sr = false →
      (s.portAcc m c.a).en = true → (s.portAcc m c.a).write = false → ∃ t, exec (.bramPortAccess m true false []) s = .next t ∧ mget
      t.fab.portReg PortReg.init (2 * m) = portLoad c.a (mget s.fab.portReg PortReg.init (2 * m)) (some ((s.row m (s.portAcc m c.a).row
      >>> (s.portAcc m c.a).off) % 2 ^ c.a.width)) ∧ t.fab = { s.fab with portReg := t.fab.portReg } ∧ Keeps (fun _ => False) [.fab] s t) ∧
    (∀ (sl flip : Nat) (c : SliceCfg), s.freeClocks = true → s.fab.hold = false → s.sliceCfg sl = some c → s.designSlice c = false →
      s.spineRuns (sl / 768) c.clk = true → sl / 96 ∉ s.fab.held → s.strobeOpen = none → ∃ t, exec (.sliceUpdate [(sl, flip)]) s = .next t
      ∧ mget t.fab.slice SliceReg.init sl = (s.sliceStep c flip).1 ∧ (∀ k : Nat, k ≠ sl → mget t.fab.slice SliceReg.init k = mget
      s.fab.slice SliceReg.init k) ∧ t.fab = { s.fab with slice := t.fab.slice } ∧ ((s.sliceStep c flip).2 = false → Keeps (fun _ =>
      False) [.fab] s t))

/-- With EN set and a reference other than beat marks, the end of a window with c cycles counted lowers CODE by 1 where the difference from
  EXP is above DEADBAND, raises it by 1 where it is below minus DEADBAND, within 0 to 4,095, and keeps it else; LAST_DIFF shows the
  difference, saturated; LOCKED is 1 from the fourth window in a row within DEADBAND; REF_MISSING clears. A window that has not ended in
  time sets REF_MISSING and raises EV_OSC_TRIM. The end of a window of a monitor that watches shows the count (saturated), sets LOW
  below LO and HIGH above HI, and raises EV_CLK_MON (128) when a flag becomes 1; 64 cycles without an edge set ABSENT. With ACTION
  FAILOVER a new flag asks the multiplexer of a global clock for ALT_SRC. (Shown to complete, each with its own effect: trimWindowEnd,
  trimRefMissing, clockMonitorWindow, clockAbsent.) -/
def Obligations.TrimAndMonitors : Prop :=
  ∀ s : State, 
    (∀ (c : Nat), s.on CLK_OSC_TRIM_CTRL_EN = true → s.f CLK_OSC_TRIM_CTRL_SRC ≠ 2 → ∃ t, exec (.trimWindowEnd c) s = .next t ∧ t.f
      CLK_OSC_TRIM_CTRL_CODE = trimStep (s.f CLK_OSC_TRIM_CTRL_CODE) (s.f CLK_OSC_TRIM_CTRL_DEADBAND) ((c : Int) - s.f
      CLK_OSC_TRIM_EXP_EXP) ∧ t.on CLK_OSC_TRIM_STAT_LOCKED = decide (3 ≤ s.clk.trimOk ∧ ((c : Int) - s.f CLK_OSC_TRIM_EXP_EXP).natAbs ≤
      s.f CLK_OSC_TRIM_CTRL_DEADBAND) ∧ t.f CLK_OSC_TRIM_STAT_LAST_DIFF = wrap 16 (max (-32768) (min 32767 ((c : Int) - s.f
      CLK_OSC_TRIM_EXP_EXP))) ∧ t.on CLK_OSC_TRIM_STAT_REF_MISSING = false ∧ Keeps (fun a => a = CLK_OSC_TRIM_CTRL ∨ a = CLK_OSC_TRIM_STAT
      ∨ a = HIF_IRQ_STAT 4) [.clk, .host, .tail, .mesh] s t) ∧
    (s.on CLK_OSC_TRIM_CTRL_EN = true → ∃ t, exec (.trimRefMissing) s = .next t ∧ t.on CLK_OSC_TRIM_STAT_REF_MISSING = true ∧ (t.reg
      (HIF_IRQ_STAT 4)).toNat.testBit 4 = true ∧ t.f CLK_OSC_TRIM_CTRL_CODE = s.f CLK_OSC_TRIM_CTRL_CODE ∧ Keeps (fun a => a =
      CLK_OSC_TRIM_STAT ∨ a = HIF_IRQ_STAT 4) [.clk, .host, .tail, .mesh] s t) ∧
    (∀ (m c : Nat), s.monOn m = true → s.on (CLK_MON_CFG_ACTION m) = false → c < 0x10000 → ∃ t, exec (.clockMonitorWindow m c) s = .next t
      ∧ t.f (CLK_MON_STAT_COUNT m) = min c 0xFFFF ∧ t.on (CLK_MON_STAT_LOW m) = (s.on (CLK_MON_STAT_LOW m) || decide (c < s.f
      (CLK_MON_LIM_LO m))) ∧ t.on (CLK_MON_STAT_HIGH m) = (s.on (CLK_MON_STAT_HIGH m) || decide (s.f (CLK_MON_LIM_HI m) < c)) ∧ t.f
      (CLK_MON_STAT_ABSENT m) = s.f (CLK_MON_STAT_ABSENT m) ∧ Keeps (fun a => a = CLK_MON_STAT m ∨ a = HIF_IRQ_STAT 4) [.host, .tail,
      .mesh] s t) ∧
    (∀ (m : Nat), s.monOn m = true → s.on (CLK_MON_CFG_ACTION m) = false → s.on (CLK_MON_STAT_ABSENT m) = false → ∃ t, exec (.clockAbsent
      m) s = .next t ∧ t.on (CLK_MON_STAT_ABSENT m) = true ∧ (t.reg (HIF_IRQ_STAT 4)).toNat.testBit 0 = true ∧ Keeps (fun a => a =
      CLK_MON_STAT m ∨ a = HIF_IRQ_STAT 4) [.host, .tail, .mesh] s t) ∧
    (∀ (m : Nat), s.monOn m = true → 16 ≤ m → s.on (CLK_MON_CFG_ACTION m) = true → s.on (CLK_MON_STAT_ABSENT m) = false → s.f (muxField m)
      ≠ s.f (CLK_GCLK_CFG_ALT_SRC (m - 16)) → ∃ t, exec (.clockAbsent m) s = .next t ∧ t.on (CLK_MON_STAT_ABSENT m) = true ∧ t.f (muxField
      m) = s.f (CLK_GCLK_CFG_ALT_SRC (m - 16)) ∧ t.on (muxBusy m) = true ∧ Keeps (fun a => a = CLK_MON_STAT m ∨ a = HIF_IRQ_STAT 4 ∨ a =
      CLK_GCLK_CFG (m - 16)) [.clk, .host, .tail, .mesh] s t)

/-- A write that turns EN of a PLL on or off takes the written bits that its kind of PLL may write, stops the outputs and clears LOCK. A
  lock of an enabled PLL whose VCO is in range starts the outputs and sets LOCK; the first lock of PLL 0 or 1 under AUTO asks its hub
  domain to switch to it. A timeout without lock sets TMO. A loss of lock clears LOCK, sets UNLOCK, raises EV_PLL_UNLOCK (129), and
  stops the outputs of an FPLL only. (Shown to complete, each with its own effect: pllSettingChange, pllLock, pllLockTimeout,
  pllUnlock.) -/
def Obligations.Plls : Prop :=
  ∀ s : State, 
    (∀ (p : Nat) (w : Word), isPll p = true → (w ^^^ s.reg (CLK_PLL_CTRL p)).toNat.testBit 31 = true → ∃ t, exec (.pllSettingChange p w) s
      = .next t ∧ t.reg (CLK_PLL_CTRL p) &&& 0xC0000000#32 = w &&& 0xC0000000#32 ∧ (isFpll p = true → t.reg (CLK_PLL_CTRL p) &&&
      0x00FF0003#32 = w &&& 0x00FF0003#32) ∧ (isFpll p = false → t.reg (CLK_PLL_CTRL p) &&& 0x00FF0003#32 = s.reg (CLK_PLL_CTRL p) &&&
      0x00FF0003#32) ∧ p ∈ t.clk.stopped ∧ t.on (CLK_PLL_STAT_LOCK p) = false ∧ Keeps (fun a => a = CLK_PLL_CTRL p ∨ a = CLK_PLL_STAT p)
      [.clk] s t) ∧
    (∀ (p : Nat), isPll p = true → s.on (CLK_PLL_CTRL_EN p) = true → s.vcoBad p = false → s.on (CLK_PLL_STAT_LOCK p) = false → 2 ≤ p ∨ p ∈
      s.clk.autoDone → ∃ t, exec (.pllLock p) s = .next t ∧ p ∉ t.clk.stopped ∧ t.on (CLK_PLL_STAT_LOCK p) = true ∧ Keeps (fun a => a =
      CLK_PLL_STAT p) [.clk] s t) ∧
    (∀ (p : Nat), p < 2 → s.on (CLK_PLL_CTRL_EN p) = true → s.on (CLK_PLL_STAT_LOCK p) = false → p ∉ s.clk.autoDone → s.on
      CLK_HUB_SEL_AUTO = true → s.f (muxField p) = 0 → s.on (muxBusy p) = false → ∃ t, exec (.pllLock p) s = .next t ∧ p ∉ t.clk.stopped ∧
      t.on (CLK_PLL_STAT_LOCK p) = true ∧ p ∈ t.clk.autoDone ∧ t.f (muxField p) = 1 ∧ t.on (muxBusy p) = true ∧ mget t.clk.muxNew none p =
      some 1 ∧ Keeps (fun a => a = CLK_PLL_STAT p ∨ a = CLK_HUB_SEL) [.clk] s t) ∧
    (∀ (p : Nat), isPll p = true → s.on (CLK_PLL_CTRL_EN p) = true → s.on (CLK_PLL_STAT_LOCK p) = false → ∃ t, exec (.pllLockTimeout p) s
      = .next t ∧ t.on (CLK_PLL_STAT_TMO p) = true ∧ t.f (CLK_PLL_STAT_LOCK p) = s.f (CLK_PLL_STAT_LOCK p) ∧ Keeps (fun a => a =
      CLK_PLL_STAT p) [] s t) ∧
    (∀ (p : Nat), isPll p = true → s.on (CLK_PLL_STAT_LOCK p) = true → ∃ t, exec (.pllUnlock p) s = .next t ∧ t.on (CLK_PLL_STAT_LOCK p) =
      false ∧ t.on (CLK_PLL_STAT_UNLOCK p) = true ∧ (t.reg (HIF_IRQ_STAT 4)).toNat.testBit 1 = true ∧ (p ∈ t.clk.stopped ↔ isFpll p = true
      ∨ p ∈ s.clk.stopped) ∧ Keeps (fun a => a = CLK_PLL_STAT p ∨ a = HIF_IRQ_STAT 4) [.clk, .host, .tail, .mesh] s t)

/-- A request on a multiplexer that is not busy starts a switch to the new source; on a busy one it replaces what is held (a switch of FIG
  to OSC also takes the node OFFLINE, and is stated with it). The end of a switch makes the new source current and starts what is held,
  or ends BUSY; a forced end of a switch from a clock other than OSC is logged with its multiplexer and EV_CLK_SW (130). A forced end
  drives a fabric clock that was high low. DIVIDER_CHANGE puts the settings of a register into effect and its clocks begin a new output
  period. (While the boot ROM waits for the clocks, the end of a switch may begin its next step: log entry 46.) (Shown to complete, each
  with its own effect: clockSwitchRequest, clockSwitchDone, clockSwitchForced, dividerChange.) -/
def Obligations.ClockSwitches : Prop :=
  ∀ s : State, 
    (∀ (m src : Nat), isMux m = true → src < 2 ^ ((muxField m).hi + 1 - (muxField m).lo) → s.f (muxField m) ≠ src → s.on (muxBusy m) =
      false → m ≠ 0 ∨ src ≠ 0 → ∃ t, exec (.clockSwitchRequest m src) s = .next t ∧ t.f (muxField m) = src ∧ t.on (muxBusy m) = true ∧
      mget t.clk.muxNew none m = some src ∧ mget t.clk.muxCur (muxReset m) m = mget s.clk.muxCur (muxReset m) m ∧ Keeps (fun a => a =
      (muxField m).addr) [.clk] s t) ∧
    (∀ (m src : Nat), isMux m = true → src < 2 ^ ((muxField m).hi + 1 - (muxField m).lo) → s.f (muxField m) ≠ src → s.on (muxBusy m) =
      true → m ≠ 0 ∨ src ≠ 0 → ∃ t, exec (.clockSwitchRequest m src) s = .next t ∧ t.f (muxField m) = src ∧ mget t.clk.muxHeld none m =
      some src ∧ t.clk.muxNew = s.clk.muxNew ∧ Keeps (fun a => a = (muxField m).addr) [.clk] s t) ∧
    (s.f CLK_HUB_SEL_FIG_SRC = 1 → ∃ t, exec (.clockSwitchRequest 0 0) s = .next t ∧ t.f CLK_HUB_SEL_FIG_SRC = 0 ∧ t.latState = 0 ∧ t.on
      LAT_STAT_FIG_LOST = true ∧ (t.reg (HIF_IRQ_STAT 4)).toNat.testBit 28 = true) ∧
    (∀ (m src : Nat), isMux m = true → m ≠ 0 → s.bootAt 1 = false → mget s.clk.muxNew none m = some src → mget s.clk.muxHeld none m = none
      → ∃ t, exec (.clockSwitchDone m) s = .next t ∧ mget t.clk.muxCur (muxReset m) m = src ∧ mget t.clk.muxNew none m = none ∧ t.on
      (muxBusy m) = false ∧ (∀ k : Nat, k ≠ m → mget t.clk.muxCur (muxReset k) k = mget s.clk.muxCur (muxReset k) k) ∧ Keeps (fun a => a =
      (muxField m).addr) [.clk] s t) ∧
    (∀ (m src h : Nat), isMux m = true → m ≠ 0 → s.bootAt 1 = false → mget s.clk.muxNew none m = some src → mget s.clk.muxHeld none m =
      some h → h ≠ src → ∃ t, exec (.clockSwitchDone m) s = .next t ∧ mget t.clk.muxCur (muxReset m) m = src ∧ mget t.clk.muxNew none m =
      some h ∧ mget t.clk.muxHeld none m = none ∧ t.f (muxBusy m) = s.f (muxBusy m) ∧ Keeps (fun _ => False) [.clk] s t) ∧
    (∀ (src : Nat), s.bootAt 1 = false → mget s.clk.muxNew none 0 = some src → mget s.clk.muxHeld none 0 = none → ∃ t, exec
      (.clockSwitchDone 0) s = .next t ∧ t.muxSrc 0 = src ∧ mget t.clk.muxNew none 0 = none ∧ t.on CLK_HUB_SEL_FIG_BUSY = false ∧ t.f
      CLK_HUB_SEL_MESH_SRC = s.f CLK_HUB_SEL_MESH_SRC ∧ t.fab = s.fab ∧ t.cfg = s.cfg ∧ t.hbm = s.hbm ∧ t.core = s.core) ∧
    (∀ (m src : Nat), isMux m = true → m ≠ 0 → s.bootAt 1 = false → oscSource m (s.muxSrc m) = false → mget s.clk.muxNew none m = some src
      → ∃ t, exec (.clockSwitchForced m) s = .next t ∧ mget t.clk.muxCur (muxReset m) m = src ∧ m ∉ t.clk.high ∧ t.on
      CLK_SW_STAT_CLK_SW_DEAD = true ∧ t.f CLK_SW_STAT_MUX = (if s.on CLK_SW_STAT_CLK_SW_DEAD then s.f CLK_SW_STAT_MUX else m) ∧ (t.reg
      (HIF_IRQ_STAT 4)).toNat.testBit 2 = true ∧ Keeps (fun a => a = (muxField m).addr ∨ a = CLK_SW_STAT ∨ a = HIF_IRQ_STAT 4) [.clk,
      .fab, .host, .tail, .mesh] s t) ∧
    (∀ (a : Nat), isDivider a = true → ∃ t, exec (.dividerChange a) s = .next t ∧ mget t.clk.applied (resetWord a) a = s.reg a ∧ (∀ b :
      Nat, b ≠ a → mget t.clk.applied (resetWord b) b = mget s.clk.applied (resetWord b) b) ∧ (∀ m : Nat, m ∈ clkMuxes a → mget
      t.clk.phase 0 m = 0 ∧ m ∉ t.clk.high) ∧ t.clk = { s.clk with applied := t.clk.applied, phase := t.clk.phase, high := t.clk.high } ∧
      Keeps (fun _ => False) [.clk] s t)

/-- GATE_CLOSE clears the bit of the block and an open gate starts to close; GATE_STOP ends the closing once the bus interface is idle, and
  GATE_TIMEOUT ends it by force, logged with the block and EV_CLK_GATE (131): the gate is shut while its bit is 0. GATE_OPEN sets the
  bit, and a gate that is shut opens where no power state keeps it shut. The fabric, the configuration, the security and power registers
  are untouched. (Shown to complete, each with its own effect: gateClose, gateStop, gateTimeout, gateOpen.) -/
def Obligations.BlockGates : Prop :=
  ∀ s : State, s.Calm → 
    (∀ (i : Nat), i < 39 → s.gateSt i = .opened → ∃ t, exec (.gateClose i) s = .next t ∧ t.gateOn i = false ∧ t.gateSt i = .closing ∧ (∀ j
      : Nat, j ≠ i → t.gateSt j = s.gateSt j) ∧ Keeps (fun a => a = if i < 32 then CLK_GATE_EN0 else CLK_GATE_EN1) [.clk] s t) ∧
    (∀ (i : Nat), i < 39 → s.gateSt i = .closing → s.gateOn i = false → i < 32 ∨ 36 ≤ i ∨ (s.waits (64 + 4 * (i - 32))).isEmpty = true → ∃
      t, exec (.gateStop i) s = .next t ∧ t.gateSt i = .closed ∧ (∀ j : Nat, j ≠ i → t.gateSt j = s.gateSt j) ∧ t.gateOn i = false ∧ Keeps
      (fun a => a = CLK_GATE_EN0 ∨ a = CLK_GATE_EN1 ∨ a = CLK_GATE_STAT ∨ InBlocks [3, 4, 5, 7, 8, 9, 12, 13, 14, 16, 17] a) [.clk, .core,
      .port, .lat, .call, .mesh, .hbm, .intg, .pin, .tail, .host] s t) ∧
    (∀ (i : Nat), i < 39 → s.gateSt i = .closing → s.gateOn i = false → ∃ t, exec (.gateTimeout i) s = .next t ∧ t.gateSt i = .closed ∧
      t.on CLK_GATE_STAT_CLK_GATE_FORCED = true ∧ t.f CLK_GATE_STAT_BLOCK = (if s.on CLK_GATE_STAT_CLK_GATE_FORCED then s.f
      CLK_GATE_STAT_BLOCK else i) ∧ t.gateOn i = false ∧ Keeps (fun a => a = CLK_GATE_EN0 ∨ a = CLK_GATE_EN1 ∨ a = CLK_GATE_STAT ∨
      InBlocks [3, 4, 5, 7, 8, 9, 12, 13, 14, 16, 17] a) [.clk, .core, .port, .lat, .call, .mesh, .hbm, .intg, .pin, .tail, .host] s t) ∧
    (∀ (i : Nat), i < 39 → s.gateSt i = .closed → s.powerShuts s.power i = false → ∃ t, exec (.gateOpen i) s = .next t ∧ t.gateOn i = true
      ∧ t.gateSt i = .opened ∧ (∀ j : Nat, j ≠ i → t.gateSt j = s.gateSt j) ∧ Keeps (fun a => a = CLK_GATE_EN0 ∨ a = CLK_GATE_EN1 ∨ a =
      CLK_GATE_STAT ∨ InBlocks [3, 4, 5, 7, 8, 9, 12, 13, 14, 16, 17] a) [.clk, .core, .port, .lat, .call, .mesh, .hbm, .intg, .pin,
      .tail, .host] s t)

/-- Where no cause refuses GO: a FULL load raises the global hold with gates and outputs shut, makes every bay BLANK, STARTED 0, MIRROR_OK 0
  and the loaded design unknown; every load sets BUSY and PHASE 1 with its OP and SRC and the BAY of CFG_PR_CTRL, and then takes what
  its source holds (loadFeed). A refused GO is logged with its cause and leaves the operation in progress. Bytes that end before the
  header do are kept and the load waits; an absent Gondola or a store slot without a checked image ends it with FAIL and SOURCE_LOST
  (0x08). Once checked, a PARTIAL image of the bay of its CFG_PR_CTRL, frozen or to be frozen, makes a held bay LOADING in PHASE 3; a
  FIRMWARE section writes the three memories of its core and no other; a TABLES image waits in PHASE 6 for its records. (Shown to
  complete, each with its own effect: fullLoad, partialLoad, firmwareLoad, tablesLoad.) -/
def Obligations.LoadsBegin : Prop :=
  ∀ s : State, s.Calm → 
    (∀ (src : Nat) (auto : Bool) (img : Image), s.loadWaits 0 (src % 4) = false → s.loadRefused 0 = none → ∃ t, exec (.fullLoad src auto
      img) s = .next t ∧ t = (((s.fullPrep auto).loadBegin 0 (src % 4)).loadFeed img).settle ∧ ((s.fullPrep auto).loadBegin 0 (src %
      4)).fab.hold = true ∧ ((s.fullPrep auto).loadBegin 0 (src % 4)).fab.gatesOpen = false ∧ ((s.fullPrep auto).loadBegin 0 (src %
      4)).fab.outputsOn = false ∧ ((s.fullPrep auto).loadBegin 0 (src % 4)).on CFG_STAT_STARTED = false ∧ ((s.fullPrep auto).loadBegin 0
      (src % 4)).on CFG_STAT_BUSY = true ∧ ((s.fullPrep auto).loadBegin 0 (src % 4)).f CFG_STAT_PHASE = 1 ∧ ((s.fullPrep auto).loadBegin 0
      (src % 4)).on CFG_STORE_CTRL_MIRROR_OK = false ∧ ((s.fullPrep auto).loadBegin 0 (src % 4)).cfg.autoStart = auto ∧ ((s.fullPrep
      auto).loadBegin 0 (src % 4)).cfg.loaded = false ∧ (∀ k : Nat, k < 128 → ((s.fullPrep auto).loadBegin 0 (src % 4)).bayState k = 0) ∧
      (((s.fullPrep auto).loadBegin 0 (src % 4)).cfg.load.map (fun l => (l.op, l.src))) = some (0, src % 4) ∧ (((s.fullPrep
      auto).loadBegin 0 (src % 4)).cfg.load.all (fun l => l.size == 0 && l.head.isNone && l.cur.isNone)) = true ∧ ((s.fullPrep
      auto).loadBegin 0 (src % 4)).hbm = s.hbm ∧ ((s.fullPrep auto).loadBegin 0 (src % 4)).core = s.core ∧ ((s.fullPrep auto).loadBegin 0
      (src % 4)).sec = s.sec) ∧
    (∀ (src : Nat) (img : Image), s.loadWaits 1 (src % 4) = false → s.loadRefused 1 = none → ∃ t, exec (.partialLoad src img) s = .next t
      ∧ t = ((s.loadBegin 1 (src % 4)).loadFeed img).settle ∧ ((s.loadBegin 1 (src % 4)).cfg.load.map (fun l => (l.op, l.src, l.bay))) =
      some (1, src % 4, s.f CFG_PR_CTRL_BAY) ∧ ((s.loadBegin 1 (src % 4)).cfg.load.all (fun l => l.size == 0 && l.head.isNone &&
      l.cur.isNone)) = true ∧ (s.loadBegin 1 (src % 4)).on CFG_STAT_BUSY = true ∧ (s.loadBegin 1 (src % 4)).f CFG_STAT_PHASE = 1 ∧
      (s.loadBegin 1 (src % 4)).on CFG_STORE_CTRL_STAGING_OK = (s.on CFG_STORE_CTRL_STAGING_OK && (src % 4 == 3)) ∧ Keeps (fun a => a =
      CFG_STAT ∨ a = CFG_STORE_CTRL) [.cfg, .scan] s (s.loadBegin 1 (src % 4))) ∧
    (∀ (src : Nat) (img : Image), s.loadWaits 2 (src % 4) = false → s.loadRefused 2 = none → ∃ t, exec (.firmwareLoad src img) s = .next t
      ∧ t = ((s.loadBegin 2 (src % 4)).loadFeed img).settle ∧ ((s.loadBegin 2 (src % 4)).cfg.load.map (fun l => (l.op, l.src, l.bay))) =
      some (2, src % 4, s.f CFG_PR_CTRL_BAY) ∧ ((s.loadBegin 2 (src % 4)).cfg.load.all (fun l => l.size == 0 && l.head.isNone &&
      l.cur.isNone)) = true ∧ (s.loadBegin 2 (src % 4)).on CFG_STAT_BUSY = true ∧ (s.loadBegin 2 (src % 4)).f CFG_STAT_PHASE = 1 ∧
      (s.loadBegin 2 (src % 4)).on CFG_STORE_CTRL_STAGING_OK = (s.on CFG_STORE_CTRL_STAGING_OK && (src % 4 == 3)) ∧ Keeps (fun a => a =
      CFG_STAT ∨ a = CFG_STORE_CTRL) [.cfg, .scan] s (s.loadBegin 2 (src % 4))) ∧
    (∀ (src : Nat) (img : Image), s.loadWaits 3 (src % 4) = false → s.loadRefused 3 = none → ∃ t, exec (.tablesLoad src img) s = .next t ∧
      t = ((s.loadBegin 3 (src % 4)).loadFeed img).settle ∧ ((s.loadBegin 3 (src % 4)).cfg.load.map (fun l => (l.op, l.src, l.bay))) =
      some (3, src % 4, s.f CFG_PR_CTRL_BAY) ∧ ((s.loadBegin 3 (src % 4)).cfg.load.all (fun l => l.size == 0 && l.head.isNone &&
      l.cur.isNone)) = true ∧ (s.loadBegin 3 (src % 4)).on CFG_STAT_BUSY = true ∧ (s.loadBegin 3 (src % 4)).f CFG_STAT_PHASE = 1 ∧
      (s.loadBegin 3 (src % 4)).on CFG_STORE_CTRL_STAGING_OK = (s.on CFG_STORE_CTRL_STAGING_OK && (src % 4 == 3)) ∧ Keeps (fun a => a =
      CFG_STAT ∨ a = CFG_STORE_CTRL) [.cfg, .scan] s (s.loadBegin 3 (src % 4))) ∧
    (∀ (src : Nat) (auto : Bool) (img : Image) (c : Nat), s.loadWaits 0 (src % 4) = false → s.loadRefused 0 = some c → ∃ t, exec
      (.fullLoad src auto img) s = .next t ∧ t.on CFG_ERR_CAUSE_VALID = true ∧ (s.on CFG_ERR_CAUSE_VALID = false → t.f CFG_ERR_CAUSE_CAUSE
      = c) ∧ (t.reg (HIF_IRQ_STAT 4)).toNat.testBit 9 = true ∧ t.cfg = s.cfg ∧ Keeps (fun a => a = CFG_STAT ∨ a = CFG_ERR_CAUSE ∨ a =
      HIF_IRQ_STAT 4) [.host, .tail, .mesh] s t) ∧
    (∀ (l : Load) (img : Image), s.cfg.load = some l → s.power = 0 → l.src = 2 → s.scanSource = true → l.head = none → l.size + 4 *
      s.scan.buf.length < 16384 → (s.loadFeed img).cfg =
      { s.cfg with load := some { l with size := l.size + 4 * s.scan.buf.length, data := l.data + ofBytes (s.scan.buf.flatMap (fun w => toBytes 4 w.toNat)) * 2 ^ (8 * l.size) } }
      ∧ (s.loadFeed img).scan = { s.scan with buf := [] } ∧ Keeps (fun a => (InBlocks [3, 4, 5] a ∨ a = HIF_IRQ_STAT 6)) [.cfg, .scan,
      .hbm, .intg, .host, .tail, .mesh] s (s.loadFeed img)) ∧
    (∀ (l : Load) (img : Image), s.cfg.load = some l → s.power = 0 → l.src = 0 ∧ s.on GDL_STAT_PRESENT = false ∨ l.src = 3 ∧ s.on
      CFG_STORE_CTRL_GOLDEN_OK = false ∧ s.on CFG_STORE_CTRL_STAGING_OK = false → (s.loadFeed img).on CFG_STAT_FAIL = true ∧ (s.loadFeed
      img).on CFG_STAT_BUSY = false ∧ (s.loadFeed img).cfg.load = none ∧ (s.on CFG_ERR_CAUSE_VALID = false → (s.loadFeed img).f
      CFG_ERR_CAUSE_CAUSE = 0x08) ∧ (s.loadFeed img).hbm = s.hbm) ∧
    (∀ (l : Load) (x : Sec) (plain : Nat), x.target = l.bay → s.bayFrozen l.bay = true → s.on CFG_STAT_STARTED = true → (s.partialGo l x
      plain).cfg.load = some { l with todo := [], cur := some ⟨x, plain, 0, [], []⟩ } ∧ (s.partialGo l x plain).f CFG_STAT_PHASE = 3 ∧
      (s.partialGo l x plain).on CFG_STORE_CTRL_STAGING_OK = true ∧ (l.bay ∈ s.fab.held → (s.partialGo l x plain).bayState l.bay = 3) ∧
      Keeps (fun a => a = CFG_STAT ∨ a = CFG_STORE_CTRL ∨ a = CFG_BAY_STAT l.bay) [.cfg, .fab] s (s.partialGo l x plain)) ∧
    (∀ (x : Sec) (plain : Nat), s.attached = false → ((s.fwApply x plain).coreOf x.core).pm = fwTable plain 0 16384 ∧ ((s.fwApply x
      plain).coreOf x.core).xm = fwTable plain 16384 8192 ∧ ((s.fwApply x plain).coreOf x.core).ym = fwTable plain 24576 8192 ∧ (∀ c :
      Nat, c ≠ x.core → (s.fwApply x plain).coreOf c = s.coreOf c)) ∧
    (∀ (l : Load) (secs rest : List (Sec × Nat)) (x : Sec × Nat), secs = x :: rest → (secs.all (fun y => tabSecOk y.1 y.2)) = true →
      s.stopped = true ∨ (secs.any (fun y => y.1.ty == 0x20 || y.1.ty == 0x22)) = false → (s.tablesGo l secs).cfg.load = some
      { l with todo := rest.map (fun y => (y.1, some y.2)), cur := some ⟨x.1, x.2, 0, [], []⟩ } ∧ (s.tablesGo l secs).f CFG_STAT_PHASE = 6
      ∧ (s.tablesGo l secs).f CFG_STAT_SECT = x.1.index % 256 ∧ (s.tablesGo l secs).on CFG_STORE_CTRL_STAGING_OK = true ∧ Keeps (fun a =>
      a = CFG_STAT ∨ a = CFG_STORE_CTRL) [.cfg] s (s.tablesGo l secs))

/-- While a bay section waits for its records and its bay is LOADING (or the load is FULL), its next record, which keeps R175: FRAMES,
  REPEAT and ZERO write the frames named, whose checks pass in turn, into configuration memory, and no frame outside them; CONTENT and
  CONTENT_ZERO write the rows of the memories named, and no other row; FENCE_RECORD with fewer than 16 fences pending issues a fence on
  source 20; END writes zeros into the frames and memories that no record named and makes the readback due. A command for another record
  than the next one changes nothing. A WRITE record of a Caller section of a FULL load writes the active bank; END of the last table
  section of a TABLES load ends it with DONE. (Shown to complete, each with its own effect: framesRecord, repeatRecord, zeroRecord,
  contentRecord, contentZeroRecord, fenceRecord, endRecord, writeRecord.) -/
def Obligations.LoadRecords : Prop :=
  ∀ s : State, s.Calm → 
    (∀ (l : Load) (x : Sect) (r : Rec), s.bayLoad = some (l, x) → bayRec x.plain x.sec.slen x.pos = some r → l.op ≠ 1 ∨ s.bayState
      x.sec.target = 3 → r.op = 1 → framesNew x r = true → (writeFrames x.sec.target (l.op == 1) (r.named.map (fun i => (i, (r.frame
      x.plain i).getD 0))) (s.recDone l x r r.named [])).2 = true → ∃ t, exec (.framesRecord) s = .next t ∧ (∀ i : Nat, r.first ≤ i ∧ i <
      r.first + r.count → mget t.fab.frames Frame.init (4608 * x.sec.target + i) = frameOf (4608 * x.sec.target + i) (bytesAt x.plain
      (r.data + 640 * (i - r.first)) 640)) ∧ (∀ j : Nat, j < 4608 * x.sec.target + r.first ∨ 4608 * x.sec.target + r.first + r.count ≤ j →
      mget t.fab.frames Frame.init j = mget s.fab.frames Frame.init j) ∧ t.fab =
      { s.fab with frames := t.fab.frames, claims := t.fab.claims } ∧ t.cfg =
      { s.cfg with load := (some { l with cur := some { x with pos := r.data + r.size, frames := x.frames ++ r.named, mems := x.mems ++ [] } }) }
      ∧ Keeps (fun a => (InBlocks [3, 4, 5] a ∨ a = HIF_IRQ_STAT 6)) [.fab, .cfg, .hbm, .intg, .host, .tail, .mesh] s t) ∧
    (∀ (l : Load) (x : Sect) (r : Rec), s.bayLoad = some (l, x) → bayRec x.plain x.sec.slen x.pos = some r → l.op ≠ 1 ∨ s.bayState
      x.sec.target = 3 → r.op = 2 → framesNew x r = true → (writeFrames x.sec.target (l.op == 1) (r.named.map (fun i => (i, (r.frame
      x.plain i).getD 0))) (s.recDone l x r r.named [])).2 = true → ∃ t, exec (.repeatRecord) s = .next t ∧ (∀ i : Nat, r.first ≤ i ∧ i <
      r.first + r.count → mget t.fab.frames Frame.init (4608 * x.sec.target + i) = frameOf (4608 * x.sec.target + i) (bytesAt x.plain
      r.data 640)) ∧ (∀ j : Nat, j < 4608 * x.sec.target + r.first ∨ 4608 * x.sec.target + r.first + r.count ≤ j → mget t.fab.frames
      Frame.init j = mget s.fab.frames Frame.init j) ∧ t.fab = { s.fab with frames := t.fab.frames, claims := t.fab.claims } ∧ t.cfg =
      { s.cfg with load := (some { l with cur := some { x with pos := r.data + r.size, frames := x.frames ++ r.named, mems := x.mems ++ [] } }) }
      ∧ Keeps (fun a => (InBlocks [3, 4, 5] a ∨ a = HIF_IRQ_STAT 6)) [.fab, .cfg, .hbm, .intg, .host, .tail, .mesh] s t) ∧
    (∀ (l : Load) (x : Sect) (r : Rec), s.bayLoad = some (l, x) → bayRec x.plain x.sec.slen x.pos = some r → l.op ≠ 1 ∨ s.bayState
      x.sec.target = 3 → r.op = 3 → framesNew x r = true → (writeFrames x.sec.target (l.op == 1) (r.named.map (fun i => (i, (r.frame
      x.plain i).getD 0))) (s.recDone l x r r.named [])).2 = true → ∃ t, exec (.zeroRecord) s = .next t ∧ (∀ i : Nat, r.first ≤ i ∧ i <
      r.first + r.count → mget t.fab.frames Frame.init (4608 * x.sec.target + i) = Frame.init) ∧ (∀ j : Nat, j < 4608 * x.sec.target +
      r.first ∨ 4608 * x.sec.target + r.first + r.count ≤ j → mget t.fab.frames Frame.init j = mget s.fab.frames Frame.init j) ∧ t.fab =
      { s.fab with frames := t.fab.frames, claims := t.fab.claims } ∧ t.cfg =
      { s.cfg with load := (some { l with cur := some { x with pos := r.data + r.size, frames := x.frames ++ r.named, mems := x.mems ++ [] } }) }
      ∧ Keeps (fun a => (InBlocks [3, 4, 5] a ∨ a = HIF_IRQ_STAT 6)) [.fab, .cfg, .hbm, .intg, .host, .tail, .mesh] s t) ∧
    (∀ (l : Load) (x : Sect) (r : Rec), s.bayLoad = some (l, x) → bayRec x.plain x.sec.slen x.pos = some r → l.op ≠ 1 ∨ s.bayState
      x.sec.target = 3 → r.op = 4 → memsNew x r = true → l.op ≠ 1 ∨ s.memBusy x.sec.target r.first r.count = false → ∃ t, exec
      (.contentRecord) s = .next t ∧ (∀ i q : Nat, i < r.count → q < 512 → mget t.fab.rows 0 (512 * (128 * x.sec.target + r.first + i) +
      q) = BitVec.ofNat 72 (rowContent ((s.memCfg (128 * x.sec.target + r.first + i)).any (fun c => c.ecc)) (bytesAt x.plain (r.data +
      4608 * i + 9 * q) 9))) ∧ (∀ j : Nat, j / 512 < 128 * x.sec.target + r.first ∨ 128 * x.sec.target + r.first + r.count ≤ j / 512 →
      mget t.fab.rows 0 j = mget s.fab.rows 0 j) ∧ t.fab = { s.fab with rows := t.fab.rows } ∧ t.cfg =
      { s.cfg with load := (some { l with cur := some { x with pos := r.data + r.size, frames := x.frames ++ [], mems := x.mems ++ r.named } }) }
      ∧ Keeps (fun _ => False) [.fab, .cfg] s t) ∧
    (∀ (l : Load) (x : Sect) (r : Rec), s.bayLoad = some (l, x) → bayRec x.plain x.sec.slen x.pos = some r → l.op ≠ 1 ∨ s.bayState
      x.sec.target = 3 → r.op = 5 → memsNew x r = true → l.op ≠ 1 ∨ s.memBusy x.sec.target r.first r.count = false → ∃ t, exec
      (.contentZeroRecord) s = .next t ∧ (∀ i q : Nat, i < r.count → q < 512 → mget t.fab.rows 0 (512 * (128 * x.sec.target + r.first + i)
      + q) = 0) ∧ (∀ j : Nat, j / 512 < 128 * x.sec.target + r.first ∨ 128 * x.sec.target + r.first + r.count ≤ j / 512 → mget t.fab.rows
      0 j = mget s.fab.rows 0 j) ∧ t.fab = { s.fab with rows := t.fab.rows } ∧ t.cfg =
      { s.cfg with load := (some { l with cur := some { x with pos := r.data + r.size, frames := x.frames ++ [], mems := x.mems ++ r.named } }) }
      ∧ Keeps (fun _ => False) [.fab, .cfg] s t) ∧
    (∀ (l : Load) (x : Sect) (r : Rec), s.bayLoad = some (l, x) → bayRec x.plain x.sec.slen x.pos = some r → l.op ≠ 1 ∨ s.bayState
      x.sec.target = 3 → r.op = 6 → (s.fencesOf 20).length < 16 → ∃ t, exec (.fenceRecord) s = .next t ∧ t.f (DEV_ORD_ISSUED_COUNT 20) =
      (s.f (DEV_ORD_ISSUED_COUNT 20) + 1) % 2 ^ 32 ∧ (t.fencesOf 20).length = (s.fencesOf 20).length + 1 ∧ t.cfg =
      { s.cfg with load := (some { l with cur := some { x with pos := r.data + r.size, frames := x.frames ++ [], mems := x.mems ++ [] } }) }
      ∧ Keeps (fun a => a = DEV_ORD_ISSUED 20 ∨ a = DEV_ORD_STATUS 20) [.mesh, .cfg] s t) ∧
    (∀ (l : Load) (x : Sect) (r : Rec), s.bayLoad = some (l, x) → bayRec x.plain x.sec.slen x.pos = some r → l.op ≠ 1 ∨ s.bayState
      x.sec.target = 3 → r.op = 15 → l.readback = none → l.op ≠ 1 ∨ s.fab.copied = [] ∨ s.memBusy x.sec.target 0 128 = false → l.op ≠ 0 ∨
      (writeFrames x.sec.target false (((List.range 4608).filter (fun i => !decide (i ∈ x.frames))).map (fun i => (i, 0))) s).2 = true →
      l.op = 1 ∨ l.op = 0 ∧ l.todo = [] → x.sec.target < 128 → ∃ t, exec (.endRecord) s = .next t ∧ (∀ i : Nat, i < 4608 → i ∉ x.frames →
      mget t.fab.frames Frame.init (4608 * x.sec.target + i) = Frame.init) ∧ (∀ j : Nat, j / 4608 ≠ x.sec.target ∨ j % 4608 ∈ x.frames →
      mget t.fab.frames Frame.init j = mget s.fab.frames Frame.init j) ∧ (∀ j : Nat, mget t.fab.rows 0 j = if j / 65536 = x.sec.target ∧ j
      / 512 % 128 ∉ x.mems then 0 else mget s.fab.rows 0 j) ∧ (l.op = 1 → t.f CFG_STAT_PHASE = 4) ∧ t.cfg.load = some
      { l with cur := none, readback := some x.sec.target } ∧ Keeps (fun a => a = CFG_STAT ∨ (InBlocks [3, 4, 5] a ∨ a = HIF_IRQ_STAT 6))
      [.fab, .cfg, .hbm, .intg, .host, .tail, .mesh] s t) ∧
    (∀ (l : Load) (x : Sect) (r : Rec), s.bayLoad = some (l, x) → bayRec x.plain x.sec.slen x.pos = some r → r.op ≠ 3 → ∃ t, exec
      (.zeroRecord) s = .next t ∧ t = s) ∧
    (∀ (l : Load) (x : Sect), s.bayLoad = some (l, x) → bayRec x.plain x.sec.slen x.pos = none → ∃ t, exec (.framesRecord) s = .next t ∧
      t.on CFG_STAT_FAIL = true ∧ t.on CFG_STAT_BUSY = false ∧ t.cfg.load = none ∧ (s.on CFG_ERR_CAUSE_VALID = false → t.f
      CFG_ERR_CAUSE_CAUSE = 0x0B ∧ t.f CFG_ERR_CAUSE_BAY = x.sec.target % 128)) ∧
    (∀ (l : Load) (x : Sect) (v : Word), s.tableLoad = some (l, x) → tabIsEnd x.plain x.pos = false → l.op = 0 → tabValues x.plain x.pos =
      [v] → inShadow (tabOff x.plain x.pos) = true → ∃ t, exec (.writeRecord) s = .next t ∧ t.call =
      { s.call with active := s.call.active.land (tabOff x.plain x.pos, v) } ∧ (t.cfg.load.bind (fun l1 => l1.cur.map (fun y => y.pos))) =
      some (x.pos + 12) ∧ Keeps (fun _ => False) [.call, .cfg] s t) ∧
    (∀ (l : Load) (x : Sect), s.tableLoad = some (l, x) → tabIsEnd x.plain x.pos = true → l.op = 3 → l.todo = [] → x.sec.ty ≠ 0x21 → ∃ t,
      exec (.endRecord) s = .next t ∧ t.on CFG_STAT_DONE = true ∧ t.on CFG_STAT_BUSY = false ∧ t.cfg.load = none ∧ (t.reg (HIF_IRQ_STAT
      4)).toNat.testBit 8 = true ∧ Keeps (fun a => a = CFG_STAT ∨ a = HIF_IRQ_STAT 4) [.cfg, .host, .tail, .mesh] s t)

/-- CFG_START of a design that is loaded begins the start-up: every user flip-flop takes its initial value, PHASE 5; its four steps in Aloft
  open the clocks, release the hold, enable the outputs, and set STARTED and DONE. A readback of a PARTIAL load in whose frames nothing
  has flipped stores the CRC of the bay, makes the bay LOADED with its release pending, and ends the load DONE. An abort of a load other
  than PARTIAL, and a timeout of the source of one that still reads its image, end it with FAIL and the cause 0x0F or 0x09; an abort of
  a PARTIAL load whose bay is held leaves the bay FAULTED (5) with no release. (Shown to complete, each with its own effect: cfgStart,
  startUpStep, bayReadback, cfgAbort, sourceTimeout.) -/
def Obligations.LoadEnds : Prop :=
  ∀ s : State, s.Calm → 
    (s.on CFG_STAT_BUSY = false → s.on CFG_STAT_STARTED = false → s.cfg.failed = false → ∃ t, exec (.cfgStart) s = .next t ∧ t.cfg =
      { s.cfg with startStep := 1 } ∧ t.on CFG_STAT_BUSY = true ∧ t.f CFG_STAT_PHASE = 5 ∧ t.fab = { s.fab with ff := t.fab.ff } ∧ (∀ c ∈
      s.cells, (∀ d ∈ s.cells, d.cell = c.cell → d = c) → mget t.fab.ff false (2 * c.cell) = c.ffa.init ∧ mget t.fab.ff false (2 * c.cell
      + 1) = c.ffb.init) ∧ Keeps (fun a => a = CFG_STAT) [.fab, .cfg] s t) ∧
    (s.power = 0 → s.cfg.startStep = 1 → ∃ t, exec (.startUpStep) s = .next t ∧ t.fab = { s.fab with gatesOpen := true } ∧ t.cfg =
      { s.cfg with startStep := 2 } ∧ Keeps (fun _ => False) [.fab, .cfg] s t) ∧
    (s.power = 0 → s.cfg.startStep = 2 → ∃ t, exec (.startUpStep) s = .next t ∧ t.fab = { s.fab with hold := false } ∧ t.cfg =
      { s.cfg with startStep := 3 } ∧ Keeps (fun _ => False) [.fab, .cfg] s t) ∧
    (s.power = 0 → s.cfg.startStep = 3 → ∃ t, exec (.startUpStep) s = .next t ∧ t.fab = { s.fab with outputsOn := true } ∧ t.cfg =
      { s.cfg with startStep := 4 } ∧ Keeps (fun _ => False) [.fab, .cfg, .pin] s t) ∧
    (s.power = 0 → s.cfg.startStep = 4 → ∃ t, exec (.startUpStep) s = .next t ∧ t.on CFG_STAT_STARTED = true ∧ t.on CFG_STAT_DONE = true ∧
      t.on CFG_STAT_BUSY = false ∧ t.cfg.startStep = 0 ∧ t.cfg.everStarted = true ∧ (t.reg (HIF_IRQ_STAT 4)).toNat.testBit 8 = true ∧
      Keeps (fun a => a = CFG_STAT ∨ a = HIF_IRQ_STAT 4) [.cfg, .host, .tail, .mesh] s t) ∧
    (∀ (l : Load) (k : Nat), s.cfg.load = some l → l.readback = some k → l.op = 1 → (s.fab.frames.all (fun e => e.2.flip == 0)) = true → ∃
      t, exec (.bayReadback []) s = .next t ∧ t.bayState k = 4 ∧ t.f (CFG_BAY_CRC_CRC k) = s.bayCrc k % 2 ^ 32 ∧ t.f
      (CFG_BAY_STAT_CE_COUNT k) = 0 ∧ t.on CFG_STAT_DONE = true ∧ t.on CFG_STAT_BUSY = false ∧ t.cfg.load = none ∧ t.cfg.rel.isSome = true
      ∧ mget t.cfg.bayImage 0 k = l.id ∧ Keeps (fun a => a = CFG_STAT ∨ a = CFG_BAY_CRC k ∨ a = CFG_BAY_STAT k ∨ a = HIF_IRQ_STAT 4)
      [.cfg, .host, .tail, .mesh] s t) ∧
    (∀ (l : Load), s.cfg.load = some l → l.op ≠ 1 → ∃ t, exec (.cfgAbort) s = .next t ∧ t.on CFG_STAT_FAIL = true ∧ t.on CFG_STAT_BUSY =
      false ∧ t.on CFG_STAT_DONE = false ∧ t.cfg.load = none ∧ t.on CFG_ERR_CAUSE_VALID = true ∧ (s.on CFG_ERR_CAUSE_VALID = false → t.f
      CFG_ERR_CAUSE_CAUSE = 0x0F) ∧ Keeps (fun a => a = CFG_STAT ∨ a = CFG_ERR_CAUSE ∨ a = HIF_IRQ_STAT 4) [.cfg, .host, .tail, .mesh] s
      t) ∧
    (∀ (l : Load), s.cfg.load = some l → l.op = 1 → l.bay ∈ s.fab.held → ∃ t, exec (.cfgAbort) s = .next t ∧ t.on CFG_STAT_FAIL = true ∧
      t.cfg.load = none ∧ t.cfg.rel = none ∧ t.bayState l.bay = 5 ∧ t.fab = s.fab) ∧
    (∀ (l : Load), s.cfg.load = some l → l.op ≠ 1 → l.reads = true → ∃ t, exec (.sourceTimeout) s = .next t ∧ t.on CFG_STAT_FAIL = true ∧
      t.on CFG_STAT_BUSY = false ∧ t.on CFG_STAT_DONE = false ∧ t.cfg.load = none ∧ t.on CFG_ERR_CAUSE_VALID = true ∧ (s.on
      CFG_ERR_CAUSE_VALID = false → t.f CFG_ERR_CAUSE_CAUSE = 0x09) ∧ Keeps (fun a => a = CFG_STAT ∨ a = CFG_ERR_CAUSE ∨ a = HIF_IRQ_STAT
      4) [.cfg, .host, .tail, .mesh] s t)

/-- ARM that no cause refuses records MODE, bay, rounds and REL_MODE and shows ARMED; with MODE 2 the bay freezes at once. CANCEL of an
  armed freeze outside a PARTIAL load takes it back. BLANK of a held bay in Aloft writes zeros into all its frames and memories, leaves
  other bays alone, and makes it LOADED with DONE. A claim map error starts a rebuild with EV_CLAIM_UE (142); its end makes the claims
  those of the frames that the mirror holds. A scrub read of a frame without an upset moves on to the next frame; one flipped bit is
  written back, counted, and raises EV_CFG_CE (139); two flipped bits under POLICY 0 are logged, make the bay SUSPECT, raise EV_CFG_UE
  (140) and leave the frame. (Shown to complete, each with its own effect: prArm, prCancel, blank, claimMapRebuild, claimMapRebuildDone,
  scrubFrameRead.) -/
def Obligations.FreezeAndScrub : Prop :=
  ∀ s : State, s.Calm → 
    (∀ (mode : Nat) (relFirst : Bool) (bay : Nat), mode < 2 → bay < 128 → s.armRefused mode relFirst = none → ∃ t, exec (.prArm mode
      relFirst bay) s = .next t ∧ t.cfg.arm = some ⟨mode, bay, if mode = 1 then b2n (s.latState == 6) else s.f CFG_PR_FREEZE_LO_ROUND_LO +
      2 ^ 32 * s.f CFG_PR_FREEZE_HI_ROUND_HI, relFirst, s.f CFG_PR_RELEASE_LO_ROUND_LO + 2 ^ 32 * s.f CFG_PR_RELEASE_HI_ROUND_HI⟩ ∧ t.on
      CFG_PR_CTRL_ARMED = true ∧ t.f CFG_PR_CTRL_MODE = mode ∧ t.f CFG_PR_CTRL_BAY = bay ∧ t.f CFG_PR_CTRL_REL_MODE = b2n relFirst ∧ Keeps
      (fun a => a = CFG_PR_CTRL) [.cfg] s t) ∧
    (∀ (relFirst : Bool) (bay : Nat), bay < 128 → s.armRefused 2 relFirst = none → ∃ t, exec (.prArm 2 relFirst bay) s = .next t ∧ bay ∈
      t.fab.held ∧ t.bayState bay = 2 ∧ t.cfg.arm = none ∧ t.cfg.rel.isSome = true ∧ t.on CFG_PR_CTRL_ARMED = false ∧ Keeps (fun a => a =
      CFG_PR_CTRL ∨ a = CFG_BAY_STAT bay) [.cfg, .fab] s t) ∧
    (s.cfg.arm.isSome = true → s.cfg.load = none → ∃ t, exec (.prCancel) s = .next t ∧ t.cfg = { s.cfg with arm := none } ∧ t.on
      CFG_PR_CTRL_ARMED = false ∧ Keeps (fun a => a = CFG_PR_CTRL) [.cfg] s t) ∧
    (s.f CFG_PR_CTRL_BAY ∈ s.fab.held → s.loadRefused 4 = none → s.power = 0 → ∃ t, exec (.blank) s = .next t ∧ t.bayState (s.f
      CFG_PR_CTRL_BAY) = 4 ∧ (∀ j : Nat, mget t.fab.frames Frame.init j = if j / 4608 = s.f CFG_PR_CTRL_BAY then Frame.init else mget
      s.fab.frames Frame.init j) ∧ (∀ j : Nat, mget t.fab.rows 0 j = if j / 65536 = s.f CFG_PR_CTRL_BAY then 0 else mget s.fab.rows 0 j) ∧
      t.on CFG_STAT_DONE = true ∧ t.cfg.rel.isSome = true ∧ Keeps (fun a => a = CFG_STAT ∨ a = CFG_BAY_CRC (s.f CFG_PR_CTRL_BAY) ∨ a =
      CFG_BAY_STAT (s.f CFG_PR_CTRL_BAY) ∨ a = HIF_IRQ_STAT 4 ∨ (InBlocks [3, 4, 5] a ∨ a = HIF_IRQ_STAT 6)) [.cfg, .fab, .hbm, .intg,
      .host, .tail, .mesh] s t) ∧
    (∃ t, exec (.claimMapRebuild) s = .next t ∧ t.cfg = { s.cfg with rebuilding := true } ∧ (t.reg (HIF_IRQ_STAT 4)).toNat.testBit 14 =
      true ∧ t.fab = s.fab ∧ t.sec = s.sec) ∧
    (s.cfg.rebuilding = true → s.mirrorKeys = [] → ∃ t, exec (.claimMapRebuildDone) s = .next t ∧ t.cfg =
      { s.cfg with rebuilding := false } ∧ t.fab = { s.fab with claims := [] } ∧ Keeps (fun _ => False) [.cfg, .fab] s t) ∧
    (∀ (key d : Nat), s.cfg.rebuilding = true → s.mirrorKeys.filter s.claimsOf = [key] → (s.frameAgain key).2 = some d → ∃ t, exec
      (.claimMapRebuildDone) s = .next t ∧ t.cfg.rebuilding = false ∧ (∀ w : Nat, mget t.fab.claims 0 w = if w ∈ (frameOf key d).claims
      then key + 1 else 0) ∧ t.fab = { s.fab with claims := t.fab.claims }) ∧
    (∀ (see : Nat), s.scrubOn = true → s.cfg.skipped = [] → s.cfg.scrubFrame < 589824 → s.bayState (s.cfg.scrubFrame / 4608) = 1 →
      s.cfg.scrubFrame % 4608 ≠ 4607 → (mget s.fab.frames Frame.init s.cfg.scrubFrame).flip = 0 → ∃ t, exec (.scrubFrameRead [] see) s =
      .next t ∧ t.cfg = { s.cfg with scrubFrame := s.cfg.scrubFrame + 1 } ∧ t.f CFG_SCRUB_STAT_BAY = s.cfg.scrubFrame / 4608 % 128 ∧ (∀ j
      : Nat, mget t.fab.frames Frame.init j = mget s.fab.frames Frame.init j) ∧ Keeps (fun a => a = CFG_SCRUB_STAT) [.cfg, .fab] s t) ∧
    (∀ (see b : Nat), s.scrubOn = true → s.cfg.skipped = [] → s.cfg.scrubFrame < 589824 → s.bayState (s.cfg.scrubFrame / 4608) = 1 →
      s.cfg.scrubFrame % 4608 ≠ 4607 → b < 5152 → (mget s.fab.frames Frame.init s.cfg.scrubFrame).flip = 2 ^ b → ∃ t, exec
      (.scrubFrameRead [] see) s = .next t ∧ mget t.fab.frames Frame.init s.cfg.scrubFrame = frameOf s.cfg.scrubFrame (mget s.fab.frames
      Frame.init s.cfg.scrubFrame).meant ∧ (∀ j : Nat, j ≠ s.cfg.scrubFrame → mget t.fab.frames Frame.init j = mget s.fab.frames
      Frame.init j) ∧ t.cfg = { s.cfg with scrubFrame := s.cfg.scrubFrame + 1 } ∧ t.f (CFG_BAY_STAT_CE_COUNT (s.cfg.scrubFrame / 4608)) =
      min 65535 (s.f (CFG_BAY_STAT_CE_COUNT (s.cfg.scrubFrame / 4608)) + 1) ∧ (t.reg (HIF_IRQ_STAT 4)).toNat.testBit 11 = true) ∧
    (∀ (see b c : Nat), s.scrubOn = true → s.cfg.skipped = [] → s.cfg.scrubFrame < 589824 → s.bayState (s.cfg.scrubFrame / 4608) = 1 →
      s.cfg.scrubFrame % 4608 ≠ 4607 → s.f CFG_SCRUB_CTRL_POLICY = 0 → b < c → c < 5152 → (mget s.fab.frames Frame.init
      s.cfg.scrubFrame).flip = 2 ^ b + 2 ^ c → ∃ t, exec (.scrubFrameRead [] see) s = .next t ∧ t.fab = s.fab ∧ t.cfg =
      { s.cfg with scrubFrame := s.cfg.scrubFrame + 1 } ∧ t.on (CFG_BAY_STAT_SUSPECT (s.cfg.scrubFrame / 4608)) = true ∧ t.on
      CFG_SCRUB_LOG_VALID = true ∧ (s.on CFG_SCRUB_LOG_VALID = false → t.f CFG_SCRUB_LOG_BAY = s.cfg.scrubFrame / 4608 ∧ t.f
      CFG_SCRUB_LOG_FRAME = s.cfg.scrubFrame % 4608 ∧ t.f CFG_SCRUB_LOG_KIND = 0) ∧ (t.reg (HIF_IRQ_STAT 4)).toNat.testBit 12 = true)

/-- A new step whose task sends no signals leaves its unit, its task has run and is DONE (WAIT with REARM AGAIN), and its effect is that of
  its OP: NOP none; CAPTURE pushes the FIG side of word A onto queue B; DELIVER pops queue A into the FIG side of inbound word B (no
  ring plays, the hold is off); CAPSEND and SEND to this node push the word captured, or the bundle popped from A, onto queue C; COPY
  pushes the head of A onto another queue B and pops it unless C bit 0 (KEEP) is 1; SETCLK sets the bits of A in CLK_RND_REQ. A DELIVER
  whose queue has become invalid enters FAULT with BAD_QUEUE, raises EV_CALLER_FAULT (144) and moves nothing. Queues and registers other
  than those of the Caller are unchanged. (Shown to complete, each with its own effect: callerNop, callerCapture, callerDeliver,
  capsend, callerSend, callerCopy, setclk.) -/
def Obligations.CallerStepsOnWords : Prop :=
  ∀ s : State, s.Calm → 
    (∀ (u : Nat) (x : CStep), s.StepNew u 0 x → ∃ t, exec (.callerNop u none) s = .next t ∧ s.StepLeft t u x ∧ t.call.queue = s.call.queue
      ∧ Keeps (fun a => a = CALLER_TRACE_LOST ∨ InBlocks [6] a) [.call, .tail] s t) ∧
    (∀ (u : Nat) (x : CStep), s.StepNew u 1 x → s.queueValid (s.opB x.task) = true → s.QueueRoom (s.opB x.task) → ∃ t, exec
      (.callerCapture u none) s = .next t ∧ s.StepLeft t u x ∧ (t.cqueue (s.opB x.task)).chip = (s.cqueue (s.opB x.task)).chip ++
      [s.captureWord (s.opA x.task)] ∧ (∀ q : Nat, q ≠ s.opB x.task → t.cqueue q = s.cqueue q) ∧ Keeps (fun a => a = CALLER_TRACE_LOST ∨
      InBlocks [6] a) [.call, .tail] s t) ∧
    (∀ (u : Nat) (x : CStep) (b : Bundle) (rest : List Bundle), s.StepNew u 2 x → s.queueValid (s.opA x.task) = true → s.fab.hold = false
      → (s.cqueue (s.opA x.task)).chip = b :: rest → ∀ k : Nat, k < 8 → s.on (TAIL_RING_CFG_EN k) = false → ∃ t, exec (.callerDeliver u
      .ok none) s = .next t ∧ s.StepLeft t u x ∧ (t.cqueue (s.opA x.task)).chip = rest ∧ mget t.fab.inFig BWord.init (s.opB x.task) =
      ⟨b.data, b.poison⟩ ∧ s.opB x.task ∈ t.fab.inDue ∧ (∀ g : Nat, g ≠ s.opB x.task → mget t.fab.inFig BWord.init g = mget s.fab.inFig
      BWord.init g) ∧ Keeps (fun a => InBlocks [6] a) [.call, .tail, .fab] s t) ∧
    (∀ (u : Nat) (x : CStep), s.StepNew u 3 x → s.opB x.task = s.nodeId → s.queueValid (s.opC x.task) = true → s.QueueRoom (s.opC x.task)
      → ∃ t, exec (.capsend u none) s = .next t ∧ s.StepLeft t u x ∧ (t.cqueue (s.opC x.task)).chip = (s.cqueue (s.opC x.task)).chip ++
      [s.captureWord (s.opA x.task)] ∧ (∀ q : Nat, q ≠ s.opC x.task → t.cqueue q = s.cqueue q) ∧ Keeps (fun a => a = CALLER_TRACE_LOST ∨
      InBlocks [6] a) [.call, .tail] s t) ∧
    (∀ (u : Nat) (x : CStep) (b : Bundle) (rest : List Bundle), s.StepNew u 4 x → s.queueValid (s.opA x.task) = true → s.queueValid (s.opC
      x.task) = true → s.opB x.task = s.nodeId → (s.cqueue (s.opA x.task)).chip = b :: rest → s.opA x.task ≠ s.opC x.task → s.QueueRoom
      (s.opC x.task) → ∃ t, exec (.callerSend u .ok none) s = .next t ∧ s.StepLeft t u x ∧ (t.cqueue (s.opA x.task)).chip = rest ∧
      (t.cqueue (s.opC x.task)).chip = (s.cqueue (s.opC x.task)).chip ++ [b] ∧ (∀ q : Nat, q ≠ s.opA x.task → q ≠ s.opC x.task → t.cqueue
      q = s.cqueue q) ∧ Keeps (fun a => a = CALLER_TRACE_LOST ∨ InBlocks [6] a) [.call, .tail] s t) ∧
    (∀ (u : Nat) (x : CStep) (b : Bundle) (rest : List Bundle), s.StepNew u 5 x → s.queueValid (s.opA x.task) = true → s.queueValid (s.opB
      x.task) = true → (s.cqueue (s.opA x.task)).chip = b :: rest → s.opA x.task ≠ s.opB x.task → s.QueueRoom (s.opB x.task) → ∃ t, exec
      (.callerCopy u .ok none) s = .next t ∧ s.StepLeft t u x ∧ (t.cqueue (s.opA x.task)).chip = (if (s.opC x.task).testBit 0 then b ::
      rest else rest) ∧ (t.cqueue (s.opB x.task)).chip = (s.cqueue (s.opB x.task)).chip ++ [b] ∧ (∀ q : Nat, q ≠ s.opA x.task → q ≠ s.opB
      x.task → t.cqueue q = s.cqueue q) ∧ Keeps (fun a => a = CALLER_TRACE_LOST ∨ InBlocks [6] a) [.call, .tail] s t) ∧
    (∀ (u : Nat) (x : CStep) (e : Ecc) (ue : Option Nat), s.StepNew u 2 x → s.queueValid (s.opA x.task) = false → ∃ t, exec
      (.callerDeliver u e ue) s = .next t ∧ t.unit u = none ∧ (t.ctask x.task).st = .fault ∧ (t.ctask x.task).cause = 3 ∧ (∀ q : Nat,
      t.cqueue q = s.cqueue q) ∧ t.fab = s.fab ∧ (t.reg (HIF_IRQ_STAT 4)).toNat.testBit 16 = true) ∧
    (∀ (u : Nat) (x : CStep), s.StepNew u 9 x → ∃ t, exec (.setclk u none) s = .next t ∧ s.StepLeft t u x ∧ t.reg CLK_RND_REQ = s.reg
      CLK_RND_REQ ||| s.taskWord x.task 1 ∧ t.call.queue = s.call.queue ∧ Keeps (fun a => a = CLK_RND_REQ ∨ a = CALLER_TRACE_LOST) [.call,
      .tail] s t)

/-- A new LOAD queues the read of its address under the lowest idle tag of source 18 and waits on its unit; a new STORE pops queue C and
  queues the write of the bundle; a DELAY inserts its entry into its list and is complete; a FENCE issues a fence on source 18, and is
  complete when that fence has completed; an OK response to the read of a LOAD on a unit pushes the data onto queue C, and the step is
  complete; a response to a suspended step is kept with it. (Shown to complete, each with its own effect: callerLoad, callerStore,
  callerDelay, callerFence, callerMeshResponse.) -/
def Obligations.CallerStepsThatWait : Prop :=
  ∀ s : State, s.Calm → 
    (∀ (u g : Nat) (x : CStep), s.StepNew u 6 x → (List.range (tagCount 18)).find? (fun k => s.tagAt (64 * 18 + k) == .idle) = some g → ∃
      t, exec (.callerLoad u none) s = .next t ∧ (t.unit u).map (fun y => (y.task, y.uop)) = some (x.task, 1) ∧ t.tagAt (64 * 18 + g) =
      .queued ⟨18, g, false, s.stepAddr x.task, 8, 0, 0, 0, x.task⟩ ∧ t.mesh.out = s.mesh.out ++ [64 * 18 + g] ∧ t.call.queue =
      s.call.queue ∧ Keeps (fun a => a = CALLER_TRACE_LOST) [.call, .mesh] s t) ∧
    (∀ (u g : Nat) (x : CStep) (b : Bundle) (rest : List Bundle), s.StepNew u 7 x → s.queueValid (s.opC x.task) = true → (s.cqueue (s.opC
      x.task)).chip = b :: rest → (List.range (tagCount 18)).find? (fun k => s.tagAt (64 * 18 + k) == .idle) = some g → ∃ t, exec
      (.callerStore u .ok none) s = .next t ∧ (t.unit u).map (fun y => (y.task, y.uop)) = some (x.task, 2) ∧ (t.cqueue (s.opC
      x.task)).chip = rest ∧ t.tagAt (64 * 18 + g) = .queued ⟨18, g, true, s.stepAddr x.task, 8, 255 <<< (s.stepAddr x.task % 64),
      b.data.toNat <<< (8 * (s.stepAddr x.task % 64)), if b.poison then wordMask (s.stepAddr x.task) 8 else 0, x.task⟩ ∧ t.mesh.out =
      s.mesh.out ++ [64 * 18 + g] ∧ Keeps (fun a => a = CALLER_TRACE_LOST) [.call, .mesh] s t) ∧
    (∀ (u : Nat) (x : CStep), s.StepNew u 8 x → (s.dlistOf (s.opA x.task)).length < 1024 → ∃ t, exec (.callerDelay u none) s = .next t ∧
      s.StepLeft t u x ∧ t.dlistOf (s.opA x.task) = dinsert ⟨s.listKey (s.opA x.task) s.fig.toNat (s.opB x.task), bitsOf (s.opC x.task) 17
      6, bitsOf (s.opC x.task) 5 0, max s.fig.toNat (x.start.getD s.fig.toNat + 1), u, 0, s.round.toNat⟩ (s.dlistOf (s.opA x.task)) ∧ (∀ l
      : Nat, l ≠ s.opA x.task → t.dlistOf l = s.dlistOf l) ∧ t.call.queue = s.call.queue ∧ Keeps (fun a => a = CALLER_TRACE_LOST ∨
      InBlocks [6] a) [.call, .tail] s t) ∧
    (∀ (u : Nat) (x : CStep), s.StepNew u 10 x → x.fence = none → (s.fencesOf 18).length < 16 → ∃ t, exec (.callerFence u none) s = .next
      t ∧ (t.unit u).bind (·.fence) = some ((s.f (DEV_ORD_ISSUED_COUNT 18) + 1) % 2 ^ 32) ∧ t.f (DEV_ORD_ISSUED_COUNT 18) = (s.f
      (DEV_ORD_ISSUED_COUNT 18) + 1) % 2 ^ 32 ∧ t.call.queue = s.call.queue ∧ Keeps (fun a => a = DEV_ORD_ISSUED 18 ∨ a = DEV_ORD_STATUS
      18 ∨ a = CALLER_TRACE_LOST) [.call, .mesh] s t) ∧
    (∀ (u k : Nat) (x : CStep), s.unit u = some x → s.taskOp x.task = 10 → x.ended = none → x.sig = 0 → s.sigCount x.task = 0 → x.fence =
      some k → s.fenceDone 18 k = true → ∃ t, exec (.callerFence u none) s = .next t ∧ s.StepLeft t u x ∧ t.call.queue = s.call.queue ∧
      Keeps (fun a => a = CALLER_TRACE_LOST) [.call, .tail] s t) ∧
    (∀ (u : Nat) (x : CStep) (a : Acc) (r : Rsp), u < 4 → ∀ v : Nat, v < 4 → (s.unit v).any (fun y => y.task == x.task) = true → v = u →
      s.unit u = some x → s.taskOp x.task = 6 → x.task < 4096 → x.uop = 1 → x.ended = none → x.sig = 0 → s.sigCount x.task = 0 → mget
      s.mesh.inbox [] 18 = [(a, r)] → a.ref = x.task → a.write = false → r.status = 0 → r.poison &&& wordMask a.addr 8 = 0 → s.queueValid
      (s.opC x.task) = true → s.QueueRoom (s.opC x.task) → ∃ t, exec (.callerMeshResponse x.task none) s = .next t ∧ s.StepLeft t u x ∧
      (t.cqueue (s.opC x.task)).chip = (s.cqueue (s.opC x.task)).chip ++ [⟨BitVec.ofNat 64 ((r.data >>> (8 * (a.addr % 64))) % 2 ^ 64),
      false⟩] ∧ mget t.mesh.inbox [] 18 = [] ∧ Keeps (fun a => InBlocks [6] a) [.call, .tail, .mesh] s t) ∧
    (∀ (x : CStep) (a : Acc) (r : Rsp), ∀ v : Nat, v < 4 → (s.unit v).any (fun y => y.task == x.task) = false → s.call.susp = [x] → x.task
      < 4096 → mget s.mesh.inbox [] 18 = [(a, r)] → a.ref = x.task → ∃ t, exec (.callerMeshResponse x.task none) s = .next t ∧ t.call.susp
      = [{ x with rsp := some (rspBundle a r) }] ∧ mget t.mesh.inbox [] 18 = [] ∧ Keeps (fun a => a = CALLER_ERR_LOG ∨ a = HIF_IRQ_STAT 4)
      [.call, .tail, .mesh, .host] s t)

/-- TASK_DISPATCH puts the first ready class-0 task whose checks pass onto unit 0 where that is free, in RUN, and clears its masked latched
  flags. DLIST_EXPIRY of a figure-keyed list whose head is due takes the head off and sets its flag. SPILL_READBACK brings the oldest
  spilled entry on chip behind the others; one whose read fails comes poisoned, with ERR of its queue and EV_CALLER_ERR (147). DONE
  becomes 1 when every condition holds; a round without progress for LIMIT figures sets STALL and raises EV_CALLER_STALL (145).
  CLR_FAULT returns a task in FAULT to WAIT; a write of the task flags sets the written bits, and is progress only if it changes one.
  (Shown to complete, each with its own effect: taskDispatch, dlistExpiry, spillReadback, callerDone, callerStall, clrFault,
  taskFlagWrite.) -/
def Obligations.CallerArbiter : Prop :=
  ∀ s : State, s.Calm → 
    (∀ (k : Nat), s.selecting = true → s.unit 0 = none → s.pickTask 0 = some k → s.descCheck k false = none → ∃ t, exec (.taskDispatch []
      []) s = .next t ∧ t.unit 0 = some ⟨k, 0, none, 0, none, 0, none, none, 0, none, none, none, none⟩ ∧ (t.ctask k).st = .run ∧
      t.latched k = s.latched k ^^^ (s.latched k &&& s.taskMask k) ∧ t.call.active = s.call.active ∧ t.call.queue = s.call.queue ∧ t.fab =
      s.fab ∧ t.mesh.tags = s.mesh.tags) ∧
    (∀ (l : Nat) (d : DEntry) (rest : List DEntry), s.listRound l = false → s.dlistOf l = d :: rest → d.flag < 64 → 0 ≤ sext 48
      (s.fig.toNat + 2 ^ 48 - d.key) → d.edge + 2 ≤ s.fig.toNat → ∃ t, exec (.dlistExpiry l) s = .next t ∧ t.dlistOf l = rest ∧ t.latched
      d.task = s.latched d.task ||| 2 ^ d.flag ∧ (∀ k : Nat, k ≠ d.task → t.latched k = s.latched k) ∧ Keeps (fun a => a =
      CALLER_TRACE_LOST) [.call] s t) ∧
    (∀ (q : Nat) (up : List (Nat × Nat)), (s.cqueue q).spilled ≠ 0 → (s.cqueue q).chip.length < 4 → ∃ t, exec (.spillReadback q up) s =
      .next t ∧ (t.cqueue q).spilled = (s.cqueue q).spilled - 1 ∧ (t.cqueue q).chip.length = (s.cqueue q).chip.length + 1 ∧ (t.cqueue
      q).chip.take (s.cqueue q).chip.length = (s.cqueue q).chip ∧ (t.cqueue q).seq = (s.cqueue q).seq ∧ t.call.active = s.call.active ∧ ∀
      p : Nat, p ≠ q → t.cqueue p = s.cqueue p) ∧
    (∀ (q : Nat) (up : List (Nat × Nat)), (s.cqueue q).spilled ≠ 0 → (s.cqueue q).chip.length < 4 → (s.hubRead 18 (s.spillAddr q
      (((s.cqueue q).seq + 2 ^ 16 - (s.cqueue q).spilled) % 2 ^ 16)) 16 up).2.err = true → ∃ t, exec (.spillReadback q up) s = .next t ∧
      ((t.cqueue q).chip.getLast?).map (·.poison) = some true ∧ t.on (CALLER_QUEUE_STAT_ERR q) = true ∧ (t.reg (HIF_IRQ_STAT
      4)).toNat.testBit 19 = true) ∧
    (s.inRound = true → s.on CALLER_STAT_DONE = false → s.on CALLER_CTRL_EN = false ∨ s.callerFinished = true → ∃ t, exec (.callerDone) s
      = .next t ∧ t.on CALLER_STAT_DONE = true ∧ t.f CALLER_STAT_LAST_DONE = min (s.fig.toNat - s.lat.bowFig) 0xFFFF ∧ Keeps (fun a => a =
      CALLER_STAT ∨ a = CALLER_TRACE_LOST) [.call] s t) ∧
    (s.inRound = true → s.on CALLER_STAT_DONE = false → 0 < s.f CALLER_STALL_LIMIT_LIMIT → s.f CALLER_STALL_LIMIT_LIMIT ≤ s.call.quiet →
      s.call.stallSaid = false → ∃ t, exec (.callerStall) s = .next t ∧ t.on CALLER_STAT_STALL = true ∧ t.call =
      { s.call with stallSaid := true } ∧ (t.reg (HIF_IRQ_STAT 4)).toNat.testBit 17 = true ∧ Keeps (fun a => a = CALLER_STAT ∨ a =
      HIF_IRQ_STAT 4) [.call, .host, .tail, .mesh] s t) ∧
    (∀ (k : Nat), (s.ctask k).st = .fault → ∃ t, exec (.clrFault k) s = .next t ∧ (t.ctask k).st = .idle ∧ (∀ j : Nat, j ≠ k → (t.ctask
      j).st = (s.ctask j).st) ∧ t.call.flags = s.call.flags ∧ t.call.queue = s.call.queue ∧ Keeps (fun _ => False) [.call] s t) ∧
    (∀ (k : Nat) (hi : Bool) (v : Word), ∃ t, exec (.taskFlagWrite k hi v) s = .next t ∧ t.latched k = s.latched k ||| (if hi then v.toNat
      * 2 ^ 32 else v.toNat) ∧ (∀ j : Nat, j ≠ k → t.latched j = s.latched j) ∧ t.call.quiet = (if t.latched k = s.latched k then
      s.call.quiet else 0) ∧ t.call.queue = s.call.queue ∧ Keeps (fun _ => False) [.call] s t)

/-- GO with MODE NEXT_BOW and no swap pending is pending; with MODE NOW while the rounds are stopped and no copy runs the three banks
  exchange at once; while a swap is pending GO is refused with EV_CALLER_SWAP (148). SYNC starts a copy; its end makes the shadow banks
  equal the active banks, and writes that were held then land. While the rounds are stopped the queue port pushes its data onto a valid
  queue with room, and pops the head of a queue into its data registers; a pop of an empty or invalid queue changes nothing; a push
  while rounds run or at an invalid queue pushes nothing. (Shown to complete, each with its own effect: swapGo, syncGo, syncDone,
  qportPush, qportPop.) -/
def Obligations.CallerSwapAndPort : Prop :=
  ∀ s : State, s.Calm → 
    (s.on CALLER_SWAP_PENDING = false → ∃ t, exec (.swapGo 1) s = .next t ∧ (t.call.swap.map (fun e => e.1)) = some 1 ∧ t.on
      CALLER_SWAP_PENDING = true ∧ t.call.active = s.call.active ∧ t.call.shadow = s.call.shadow ∧ Keeps (fun a => a = CALLER_SWAP)
      [.call] s t) ∧
    (s.on CALLER_SWAP_PENDING = false → s.on CALLER_SWAP_SYNC_BUSY = false → s.stopped = true → ∃ t, exec (.swapGo 2) s = .next t ∧
      t.call.active = s.call.shadow ∧ t.call.shadow = s.call.heldWr.foldl Bank.land s.call.active ∧ t.call.swap = none ∧ t.on
      CALLER_SWAP_PENDING = false ∧ Keeps (fun a => a = CALLER_SWAP ∨ a = CALLER_TRACE_LOST) [.call] s t) ∧
    (∀ (mode : Nat), s.on CALLER_SWAP_PENDING = true → ∃ t, exec (.swapGo mode) s = .next t ∧ t.on CALLER_SWAP_REFUSED = true ∧ (t.reg
      (HIF_IRQ_STAT 4)).toNat.testBit 20 = true ∧ t.call = s.call ∧ Keeps (fun a => a = CALLER_SWAP ∨ a = HIF_IRQ_STAT 4) [.host, .tail,
      .mesh] s t) ∧
    (∃ t, exec (.syncGo) s = .next t ∧ t.on CALLER_SWAP_SYNC_BUSY = true ∧ Keeps (fun a => a = CALLER_SWAP) [] s t) ∧
    (s.on CALLER_SWAP_SYNC_BUSY = true → s.on CALLER_SWAP_PENDING = false → ∃ t, exec (.syncDone) s = .next t ∧ t.call =
      { s.call with shadow := s.call.heldWr.foldl Bank.land s.call.active, heldWr := [] } ∧ t.on CALLER_SWAP_SYNC_BUSY = false ∧ Keeps
      (fun a => a = CALLER_SWAP) [.call] s t) ∧
    (∀ (poison : Bool), s.stopped = true → s.queueValid (s.f CALLER_QPORT_SEL_QUEUE) = true → s.QueueRoom (s.f CALLER_QPORT_SEL_QUEUE) → ∃
      t, exec (.qportPush poison) s = .next t ∧ (t.cqueue (s.f CALLER_QPORT_SEL_QUEUE)).chip = (s.cqueue (s.f
      CALLER_QPORT_SEL_QUEUE)).chip ++ [⟨BitVec.ofNat 64 (s.pair CALLER_QPORT_DATA_LO CALLER_QPORT_DATA_HI), poison⟩] ∧ (∀ q : Nat, q ≠
      s.f CALLER_QPORT_SEL_QUEUE → t.cqueue q = s.cqueue q) ∧ Keeps (fun a => a = CALLER_QUEUE_STAT (s.f CALLER_QPORT_SEL_QUEUE)) [.call]
      s t) ∧
    (∀ (b : Bundle) (rest : List Bundle) (up : List (Nat × Nat)), s.stopped = true → s.queueValid (s.f CALLER_QPORT_SEL_QUEUE) = true →
      (s.cqueue (s.f CALLER_QPORT_SEL_QUEUE)).chip = b :: rest → ∃ t, exec (.qportPop .ok up) s = .next t ∧ (t.cqueue (s.f
      CALLER_QPORT_SEL_QUEUE)).chip = rest ∧ t.reg CALLER_QPORT_DATA_LO = b.data.extractLsb' 0 32 ∧ t.reg CALLER_QPORT_DATA_HI =
      b.data.extractLsb' 32 32 ∧ (∀ q : Nat, q ≠ s.f CALLER_QPORT_SEL_QUEUE → t.cqueue q = s.cqueue q) ∧ Keeps (fun a => a =
      CALLER_QPORT_DATA_LO ∨ a = CALLER_QPORT_DATA_HI) [.call] s t) ∧
    (∀ (e : Ecc) (up : List (Nat × Nat)), s.queueValid (s.f CALLER_QPORT_SEL_QUEUE) = false ∨ s.queueCount (s.f CALLER_QPORT_SEL_QUEUE) =
      0 → ∃ t, exec (.qportPop e up) s = .next t ∧ t = s) ∧
    (∀ (poison : Bool), s.stopped = false ∨ s.queueValid (s.f CALLER_QPORT_SEL_QUEUE) = false → ∃ t, exec (.qportPush poison) s = .next t
      ∧ t = s.settle)

/-- LAT_START and LAT_RESUME on a STOPPED node with an identity that no Reel-in and no alarm keeps stopped enter STARTING for the beat
  START_LEAD later, with the target STEPS rounds on when STEPS is not 0, and the message takes the next SEQ. STOP_ABS and STOP_REL with
  a target that is still ahead set it; STOP_NOW in STARTING or a round sets STOP_NOW, elsewhere it does nothing. A sector reset request
  adds its bits with the edge of the request; one that comes after the announcement is kept for the next bow. START_EDGE takes a start
  whose edge is reached to RUN, with FIG on its PLL, when nothing holds the node, and sets flag 63 of every task. NODE_ONLINE takes a
  node that has come up from OFFLINE to STOPPED. (What is compared with FIG_COUNT for a start beat that is not ahead is the model's
  reading: no clause is about it.) (Shown to complete, each with its own effect: latStart, latResume, stopAbs, stopRel, stopNow,
  sectorResetRequest, startEdge, nodeOnline.) -/
def Obligations.LatticeStartStop : Prop :=
  ∀ s : State, s.Calm → 
    (∀ (steps : Nat), s.latState = 1 → s.on LAT_NODE_VALID = true → s.figOnPll = true → s.f TAIL_REEL_STAT_STATE < 2 → s.alarmed = false →
      0 < s.f LAT_LEAD_START_LEAD → s.f LAT_LEAD_START_LEAD < 2 ^ 15 → ∃ t, exec (.latStart steps) s = .next t ∧ t.latState = 2 ∧
      t.lat.target = (if steps % 2 ^ 16 = 0 then s.lat.target else some ((s.round.toNat + steps % 2 ^ 16) % 2 ^ 48)) ∧ t.lat.beat = some
      ((s.f LAT_STAT_BEAT_COUNT + s.f LAT_LEAD_START_LEAD) % 2 ^ 16) ∧ t.lat.startDue = false ∧ t.lat.seq = (s.lat.seq + 1) % 2 ^ 16 ∧
      Keeps (fun a => InBlocks [7, 8] a ∨ a = HIF_IRQ_STAT 4 ∨ a = HIF_IRQ_STAT 5) [.lat, .port, .host, .tail, .mesh] s t) ∧
    (∀ (steps : Nat), s.latState = 1 → s.on LAT_NODE_VALID = true → s.figOnPll = true → s.f TAIL_REEL_STAT_STATE < 2 → s.alarmed = false →
      0 < s.f LAT_LEAD_START_LEAD → s.f LAT_LEAD_START_LEAD < 2 ^ 15 → ∃ t, exec (.latResume steps) s = .next t ∧ t.latState = 2 ∧
      t.lat.target = (if steps % 2 ^ 16 = 0 then s.lat.target else some ((s.round.toNat + steps % 2 ^ 16) % 2 ^ 48)) ∧ t.lat.beat = some
      ((s.f LAT_STAT_BEAT_COUNT + s.f LAT_LEAD_START_LEAD) % 2 ^ 16) ∧ t.lat.startDue = false ∧ t.lat.seq = (s.lat.seq + 1) % 2 ^ 16 ∧
      Keeps (fun a => InBlocks [7, 8] a ∨ a = HIF_IRQ_STAT 4 ∨ a = HIF_IRQ_STAT 5) [.lat, .port, .host, .tail, .mesh] s t) ∧
    (s.latState ≠ 0 → s.on LAT_NODE_VALID = true → s.round.toNat < s.f LAT_STOP_LO_TARGET_LO + s.f LAT_STOP_HI_TARGET_HI * 2 ^ 32 → ∃ t,
      exec (.stopAbs) s = .next t ∧ t.lat.target = some (s.f LAT_STOP_LO_TARGET_LO + s.f LAT_STOP_HI_TARGET_HI * 2 ^ 32) ∧ t.on
      LAT_STAT_TARGET_VALID = true ∧ t.latState = s.latState ∧ Keeps (fun a => InBlocks [7, 8] a ∨ a = HIF_IRQ_STAT 4 ∨ a = HIF_IRQ_STAT
      5) [.lat, .port, .host, .tail, .mesh] s t) ∧
    (s.latState ≠ 0 → s.on LAT_NODE_VALID = true → 0 < s.f LAT_LEAD_STOP_LEAD → s.round.toNat + s.f LAT_LEAD_STOP_LEAD < 2 ^ 48 → ∃ t,
      exec (.stopRel) s = .next t ∧ t.lat.target = some ((s.round.toNat + s.f LAT_LEAD_STOP_LEAD) % 2 ^ 48) ∧ t.on LAT_STAT_TARGET_VALID =
      true ∧ t.latState = s.latState ∧ Keeps (fun a => InBlocks [7, 8] a ∨ a = HIF_IRQ_STAT 4 ∨ a = HIF_IRQ_STAT 5) [.lat, .port, .host,
      .tail, .mesh] s t) ∧
    (2 ≤ s.latState → s.latState ≤ 6 → ∃ t, exec (.stopNow) s = .next t ∧ t.on LAT_STAT_STOP_NOW = true ∧ t.latState = s.latState ∧ t.lat
      = { s.lat with stopLate := s.lat.stopLate || (s.latState == 6 && !s.on LAT_STAT_STOP_NOW) } ∧ Keeps (fun a => a = LAT_STAT) [.lat] s
      t) ∧
    (s.latState < 2 ∨ s.latState = 7 → ∃ t, exec (.stopNow) s = .next t ∧ t = s) ∧
    (∀ (mask : Nat), ∃ t, exec (.sectorResetRequest mask) s = .next t ∧ t.f LAT_SECTOR_RST_REQ = s.f LAT_SECTOR_RST_REQ ||| mask % 2 ^ 16
      ∧ (∀ n : Nat, n < 16 → mget t.lat.rstFig 0 n = if mask.testBit n = true ∧ (s.f LAT_SECTOR_RST_REQ).testBit n = false then
      s.fig.toNat else mget s.lat.rstFig 0 n) ∧ t.lat = { s.lat with rstFig := t.lat.rstFig, rstLate := t.lat.rstLate } ∧ (s.latState ≠ 6
      → t.lat.rstLate = s.lat.rstLate) ∧ (s.latState = 6 → ∀ n : Nat, n < 16 → (n ∈ t.lat.rstLate ↔ n ∈ s.lat.rstLate ∨ (mask.testBit n =
      true ∧ (s.f LAT_SECTOR_RST_REQ).testBit n = false))) ∧ Keeps (fun a => a = LAT_SECTOR_RST) [.lat] s t) ∧
    (s.latState = 2 → s.lat.startDue = true → s.aloft = true → s.figOnPll = true → s.lat.startFig ≤ s.fig.toNat → s.peers.any s.peerBlocks
      = false → ∃ t, exec (.startEdge) s = .next t ∧ t.latState = 3 ∧ t.lat.bowFig = s.fig.toNat ∧ t.lat.count = 0 ∧ t.lat.startDue =
      false ∧ (t.reg (HIF_IRQ_STAT 4)).toNat.testBit 24 = true ∧ t.round = s.round ∧ t.fab = s.fab ∧ t.call.queue = s.call.queue ∧ (∀ k :
      Nat, k ∈ s.tasksUsed → (t.latched k).testBit 63 = true) ∧ Keeps (fun a => InBlocks [6, 7, 8] a ∨ a = HIF_IRQ_STAT 4 ∨ a =
      HIF_IRQ_STAT 5) [.call, .lat, .port, .host, .tail, .mesh] s t) ∧
    (s.latState = 0 → s.lat.offPor = true → s.on LAT_NODE_VALID = true → s.on CLK_HUB_SEL_FIG_SRC = true → s.on CFG_STAT_STARTED = true →
      ∃ t, exec (.nodeOnline) s = .next t ∧ t.latState = 1 ∧ t.lat.offPor = false ∧ t.round = s.round ∧ Keeps (fun a => InBlocks [7, 8] a
      ∨ a = HIF_IRQ_STAT 4 ∨ a = HIF_IRQ_STAT 5) [.lat, .port, .host, .tail, .mesh] s t)

/-- LOCAL_READY on a node in RUN that needs no bow fence and meets the conditions of R259 enters WAIT (no peer blocks). BOW_ANNOUNCE in WAIT
  with every peer's BOW enters ANNOUNCED with the requests seen of CLK_RND_REQ, and a pending NEXT_BOW swap takes the bow unless SYNC
  runs. BOW, 2 figures after the announcement, no Reel-in pending, adds 1 to ROUND_COUNT, clears the requests seen, puts the counted
  length into LAT_LAST_LEN, keeps only the sector resets that came late, and goes on to RUN, or to STOPPED when the new count is the
  stop target or STOP_NOW came in time; a target that is not reached stays; before that edge BOW does nothing of its own. ROUND_OVERRUN
  at 65,534 figures without announcement aborts. RESET_LOCAL and RESET_LATTICE take a node that is not OFFLINE since POR to STOPPED at
  round 0 with the reset edge due; RESET_EDGE takes that edge when it is reached, or while stopped that of the sectors whose reset was
  requested 16 figures ago. (Shown to complete, each with its own effect: localReady, bowAnnounce, bow, roundOverrun, resetLocal,
  resetLattice, resetEdge.) -/
def Obligations.LatticeRound : Prop :=
  ∀ s : State, s.Calm → 
    (s.latState = 3 → s.lat.fenced = false → s.readyBut = true → s.bowFenceSrcs = [] → s.lat.bowFence = [] → s.peers.any s.peerBlocks =
      false → ∃ t, exec (.localReady) s = .next t ∧ t.latState = 4 ∧ t.lat.ready = true ∧ t.lat.count = s.lat.count ∧ t.round = s.round ∧
      Keeps (fun a => InBlocks [7, 8] a ∨ a = HIF_IRQ_STAT 4 ∨ a = HIF_IRQ_STAT 5) [.lat, .port, .host, .tail, .mesh] s t) ∧
    (s.latState = 4 → s.allBows = true → s.lat.count ≤ 65534 → ∃ t, exec (.bowAnnounce) s = .next t ∧ t.latState = 6 ∧ t.clk =
      { s.clk with rndSeen := s.reg CLK_RND_REQ } ∧ t.lat = { s.lat with annFig := s.fig.toNat } ∧ t.call =
      { s.call with swap := s.call.swap.map (fun e => (e.1, e.2.1, e.1 == 1 && !s.on CALLER_SWAP_SYNC_BUSY)) } ∧ Keeps (fun a => a =
      LAT_STAT) [.clk, .lat, .call] s t) ∧
    (s.bowReached = true → s.tail.reel = none → s.lat.target ≠ some (s.round.toNat + 1) → s.on LAT_STAT_STOP_NOW = false ∨ s.lat.stopLate
      = true → s.peers.any s.peerBlocks = false → ∃ t, exec (.bow [] []) s = .next t ∧ t.round = s.round + 1 ∧ t.fig = s.fig ∧ t.latState
      = 3 ∧ t.f LAT_LAST_LEN_LEN = s.lat.count % 2 ^ 17 ∧ t.lat.count = 0 ∧ t.lat.bowFig = s.fig.toNat ∧ t.lat.target = s.lat.target ∧ t.f
      LAT_SECTOR_RST_REQ = s.rstKeep ∧ t.reg CLK_RND_REQ = s.reg CLK_RND_REQ &&& ~~~ s.clk.rndSeen ∧ t.pending = s.pending ∧ t.bal = s.bal
      ∧ t.scan = s.scan) ∧
    (s.bowReached = true → s.tail.reel = none → s.lat.target = some (s.round.toNat + 1) ∨ (s.on LAT_STAT_STOP_NOW = true ∧ s.lat.stopLate
      = false) → ∃ t, exec (.bow [] []) s = .next t ∧ t.round = s.round + 1 ∧ t.fig = s.fig ∧ t.latState = 1 ∧ t.f LAT_LAST_LEN_LEN =
      s.lat.count % 2 ^ 17 ∧ t.lat.target = (if s.lat.target = some (s.round.toNat + 1) then none else s.lat.target) ∧ t.on
      LAT_STAT_STOP_NOW = (s.on LAT_STAT_STOP_NOW && s.lat.stopLate) ∧ t.lat.stopLate = false ∧ t.pending = s.pending ∧ t.bal = s.bal) ∧
    (∀ (up flips : List (Nat × Nat)), s.bowReached = false → ∃ t, exec (.bow up flips) s = .next t ∧ t = s.settle) ∧
    (s.latState = 3 ∨ (s.latState = 4 ∧ s.allBows = false) → 65534 ≤ s.lat.count → ∃ t, exec (.roundOverrun) s = .next t ∧ t.latState = 7
      ∧ t.lat.ready = false ∧ t.lat.fenced = false ∧ (t.reg (HIF_IRQ_STAT 4)).toNat.testBit 27 = true ∧ t.round = s.round ∧ Keeps (fun a
      => InBlocks [7, 8] a ∨ a = HIF_IRQ_STAT 4 ∨ a = HIF_IRQ_STAT 5) [.lat, .port, .host, .tail, .mesh] s t) ∧
    (s.latState ≠ 0 ∨ s.lat.offPor = false → ∃ t, exec (.resetLocal) s = .next t ∧ t.latState = 1 ∧ t.round = 0 ∧ t.lat.resetDue = true ∧
      t.lat.target = none ∧ t.lat.bows = [] ∧ t.f LAT_STAT_BEAT_COUNT = s.f LAT_STAT_BEAT_COUNT ∧ t.fig = s.fig ∧ t.pending = s.pending ∧
      t.hbm = s.hbm ∧ t.bal = s.bal) ∧
    (s.latState ≠ 0 ∨ s.lat.offPor = false → ∃ t, exec (.resetLattice) s = .next t ∧ t.latState = 1 ∧ t.round = 0 ∧ t.lat.resetDue = true
      ∧ t.lat.target = none ∧ t.lat.seq = (if s.on LAT_NODE_VALID then (s.lat.seq + 1) % 2 ^ 16 else s.lat.seq) ∧ t.fig = s.fig ∧
      t.pending = s.pending ∧ t.hbm = s.hbm ∧ t.bal = s.bal) ∧
    (s.resetReached = true → ∃ t, exec (.resetEdge) s = .next t ∧ t.f LAT_SECTOR_RST_REQ = 0 ∧ t.lat.resetDue = false ∧ (t.reg
      (HIF_IRQ_STAT 4)).toNat.testBit 25 = true ∧ t.round = s.round ∧ t.fig = s.fig ∧ t.pending = s.pending ∧ t.call = s.call ∧ t.hbm =
      s.hbm) ∧
    (s.resetReached = false → s.stopped = true → ∃ t, exec (.resetEdge) s = .next t ∧ (∀ n : Nat, n < 16 → (t.f
      LAT_SECTOR_RST_REQ).testBit n = ((s.f LAT_SECTOR_RST_REQ).testBit n && !decide (mget s.lat.rstFig 0 n + 16 ≤ s.fig.toNat))) ∧
      t.lat.resetDue = s.lat.resetDue ∧ t.lat.target = s.lat.target ∧ t.round = s.round ∧ t.fig = s.fig ∧ t.pending = s.pending ∧ t.call =
      s.call ∧ t.hbm = s.hbm)

/-- Slots that complete an urgent frame with the expected LSEQ on an UP port advance RX_EXPECT by 1 modulo 256. A token for this node from a
  valid peer, at the turn of its pool, shows as the peer's latest: type and round, HOLDING for HOLD and RELAY; a BOW is kept; a HOLD for
  a round that is not later takes a node in RUN to HELD with EV_LAT_HELD (154), and a RUN from the only peer that keeps it HELD takes it
  back. A STOP message newer than the last of its origin sets the stop target, a START message takes a STOPPED node to STARTING, a RESET
  message is a lattice reset. A cut-in goes into its pool. BUNDLE_ARRIVAL pushes the head bundle of this round onto its queue and frees
  its entry. BEAT_FORM on the master adds 1 to BEAT_COUNT on the multiples of the interval; BEAT_MARK at the UP_PORT of another node
  loads it. PEER_LOST sets LOST and raises EV_LAT_PEER_LOST (157). (Shown to complete, each with its own effect: bowToken, holdToken,
  runToken, relayToken, startMessage, stopMessage, resetMessage, cutIn, bundleArrival, beatForm, beatMark, peerLost.) -/
def Obligations.LatticeTraffic : Prop :=
  ∀ s : State, s.Calm → 
    (∀ (n origin r i : Nat) (tc : Bool) (slots : List (List Nat)), s.Hears n slots [.urgent (s.f (GLS_SEQ_RX_EXPECT n)) (.token s.nodeId
      origin tc 0 r)] → s.urgPool n 3 = [] → (s.portOf n).turn ≠ some s.fig.toNat → s.on LAT_NODE_VALID = true → i < 64 → s.peers.find?
      (fun p => p.2 == origin) = some (i, origin) → r = s.round.toNat % 64 ∨ r = (s.round.toNat + 1) % 64 → mget s.lat.bows [] i = [] → ∃
      t, exec (.bowToken n slots .ok false) s = .next t ∧ t.f (GLS_SEQ_RX_EXPECT n) = (s.f (GLS_SEQ_RX_EXPECT n) + 1) % 256 ∧ t.urgPool n
      3 = [] ∧ t.on (LAT_PEER_STAT_HOLDING i) = false ∧ t.f (LAT_PEER_STAT_LAST_TYPE i) = 0 ∧ t.f (LAT_PEER_STAT_LAST_ROUND i) = r % 64 ∧
      t.f (LAT_PEER_STAT_PENDING i) = 1 ∧ mget t.lat.bows [] i = [r] ∧ Keeps (fun a => InBlocks [7, 8] a ∨ a = HIF_IRQ_STAT 4 ∨ a =
      HIF_IRQ_STAT 5) [.lat, .port, .host, .tail, .mesh] s t) ∧
    (∀ (n origin r i : Nat) (tc : Bool) (slots : List (List Nat)), s.Hears n slots [.urgent (s.f (GLS_SEQ_RX_EXPECT n)) (.token s.nodeId
      origin tc 1 r)] → s.urgPool n 3 = [] → (s.portOf n).turn ≠ some s.fig.toNat → s.on LAT_NODE_VALID = true → i < 64 → s.peers.find?
      (fun p => p.2 == origin) = some (i, origin) → ∃ t, exec (.holdToken n slots .ok false) s = .next t ∧ t.f (GLS_SEQ_RX_EXPECT n) =
      (s.f (GLS_SEQ_RX_EXPECT n) + 1) % 256 ∧ t.urgPool n 3 = [] ∧ t.on (LAT_PEER_STAT_HOLDING i) = true ∧ t.f (LAT_PEER_STAT_LAST_TYPE i)
      = 1 ∧ t.f (LAT_PEER_STAT_LAST_ROUND i) = r % 64 ∧ t.lat.bows = s.lat.bows ∧ Keeps (fun a => InBlocks [7, 8] a ∨ a = HIF_IRQ_STAT 4 ∨
      a = HIF_IRQ_STAT 5) [.lat, .port, .host, .tail, .mesh] s t) ∧
    (∀ (n origin r i : Nat) (tc : Bool) (slots : List (List Nat)), s.Hears n slots [.urgent (s.f (GLS_SEQ_RX_EXPECT n)) (.token s.nodeId
      origin tc 1 r)] → s.urgPool n 3 = [] → (s.portOf n).turn ≠ some s.fig.toNat → s.on LAT_NODE_VALID = true → i < 64 → s.peers.find?
      (fun p => p.2 == origin) = some (i, origin) → s.latState = 3 → r < 64 → s.notLater r = true → ∃ t, exec (.holdToken n slots .ok
      false) s = .next t ∧ t.f (GLS_SEQ_RX_EXPECT n) = (s.f (GLS_SEQ_RX_EXPECT n) + 1) % 256 ∧ t.urgPool n 3 = [] ∧ t.latState = 5 ∧
      (t.reg (HIF_IRQ_STAT 4)).toNat.testBit 26 = true ∧ t.round = s.round ∧ Keeps (fun a => InBlocks [7, 8] a ∨ a = HIF_IRQ_STAT 4 ∨ a =
      HIF_IRQ_STAT 5) [.lat, .port, .host, .tail, .mesh] s t) ∧
    (∀ (n origin r i : Nat) (tc : Bool) (slots : List (List Nat)), s.Hears n slots [.urgent (s.f (GLS_SEQ_RX_EXPECT n)) (.token s.nodeId
      origin tc 2 r)] → s.urgPool n 3 = [] → (s.portOf n).turn ≠ some s.fig.toNat → s.on LAT_NODE_VALID = true → i < 64 → s.peers.find?
      (fun p => p.2 == origin) = some (i, origin) → ∃ t, exec (.runToken n slots .ok false) s = .next t ∧ t.f (GLS_SEQ_RX_EXPECT n) = (s.f
      (GLS_SEQ_RX_EXPECT n) + 1) % 256 ∧ t.urgPool n 3 = [] ∧ t.on (LAT_PEER_STAT_HOLDING i) = false ∧ t.f (LAT_PEER_STAT_LAST_TYPE i) = 2
      ∧ t.f (LAT_PEER_STAT_LAST_ROUND i) = r % 64 ∧ t.lat.bows = s.lat.bows ∧ Keeps (fun a => InBlocks [7, 8] a ∨ a = HIF_IRQ_STAT 4 ∨ a =
      HIF_IRQ_STAT 5) [.lat, .port, .host, .tail, .mesh] s t) ∧
    (∀ (n origin r i : Nat) (tc : Bool) (slots : List (List Nat)), s.Hears n slots [.urgent (s.f (GLS_SEQ_RX_EXPECT n)) (.token s.nodeId
      origin tc 2 r)] → s.urgPool n 3 = [] → (s.portOf n).turn ≠ some s.fig.toNat → s.on LAT_NODE_VALID = true → i < 64 → s.peers.find?
      (fun p => p.2 == origin) = some (i, origin) → s.latState = 5 → s.peers.all (fun p => p.1 == i || !s.peerBlocks p) = true →
      s.peerGone (i, origin) = false → ∃ t, exec (.runToken n slots .ok false) s = .next t ∧ t.f (GLS_SEQ_RX_EXPECT n) = (s.f
      (GLS_SEQ_RX_EXPECT n) + 1) % 256 ∧ t.urgPool n 3 = [] ∧ t.latState = (if s.lat.ready then 4 else 3) ∧ Keeps (fun a => InBlocks [7,
      8] a ∨ a = HIF_IRQ_STAT 4 ∨ a = HIF_IRQ_STAT 5) [.lat, .port, .host, .tail, .mesh] s t) ∧
    (∀ (n origin r i : Nat) (tc : Bool) (slots : List (List Nat)), s.Hears n slots [.urgent (s.f (GLS_SEQ_RX_EXPECT n)) (.token s.nodeId
      origin tc 3 r)] → s.urgPool n 3 = [] → (s.portOf n).turn ≠ some s.fig.toNat → s.on LAT_NODE_VALID = true → i < 64 → s.peers.find?
      (fun p => p.2 == origin) = some (i, origin) → ∃ t, exec (.relayToken n slots .ok false) s = .next t ∧ t.f (GLS_SEQ_RX_EXPECT n) =
      (s.f (GLS_SEQ_RX_EXPECT n) + 1) % 256 ∧ t.urgPool n 3 = [] ∧ t.on (LAT_PEER_STAT_HOLDING i) = true ∧ t.f (LAT_PEER_STAT_LAST_TYPE i)
      = 3 ∧ t.f (LAT_PEER_STAT_LAST_ROUND i) = r % 64 ∧ t.lat.bows = s.lat.bows ∧ (s.latState ≠ 5 → i ∈ t.lat.relay) ∧ Keeps (fun a =>
      InBlocks [7, 8] a ∨ a = HIF_IRQ_STAT 4 ∨ a = HIF_IRQ_STAT 5) [.lat, .port, .host, .tail, .mesh] s t) ∧
    (∀ (n : Nat) (tc : Bool) (m : Msg) (slots : List (List Nat)), s.Hears n slots [.urgent (s.f (GLS_SEQ_RX_EXPECT n)) (.ctrl s.nodeId tc
      m)] → s.urgPool n 3 = [] → (s.portOf n).turn ≠ some s.fig.toNat → s.on LAT_NODE_VALID = true → s.newer m = true → m.type = 1 →
      s.latState = 1 → s.figOnPll = true → m.isMatch = false ∨ m.round = s.round.toNat → s.f TAIL_REEL_STAT_STATE < 2 → s.alarmed = false
      → ∃ t, exec (.startMessage n slots .ok false) s = .next t ∧ t.latState = 2 ∧ t.lat.target = (if m.hasTarget then some m.target else
      s.lat.target) ∧ mget t.lat.seen none m.origin = some m.seq ∧ t.f (GLS_SEQ_RX_EXPECT n) = (s.f (GLS_SEQ_RX_EXPECT n) + 1) % 256 ∧
      Keeps (fun a => InBlocks [7, 8] a ∨ a = HIF_IRQ_STAT 4 ∨ a = HIF_IRQ_STAT 5) [.lat, .port, .host, .tail, .mesh] s t) ∧
    (∀ (n : Nat) (tc : Bool) (m : Msg) (slots : List (List Nat)), s.Hears n slots [.urgent (s.f (GLS_SEQ_RX_EXPECT n)) (.ctrl s.nodeId tc
      m)] → s.urgPool n 3 = [] → (s.portOf n).turn ≠ some s.fig.toNat → s.on LAT_NODE_VALID = true → s.newer m = true → m.type = 2 →
      s.latState ≠ 0 → s.round.toNat < m.target → ∃ t, exec (.stopMessage n slots .ok false) s = .next t ∧ t.latState = s.latState ∧
      t.lat.target = some m.target ∧ t.on LAT_STAT_TARGET_VALID = true ∧ mget t.lat.seen none m.origin = some m.seq ∧ t.f
      (GLS_SEQ_RX_EXPECT n) = (s.f (GLS_SEQ_RX_EXPECT n) + 1) % 256 ∧ Keeps (fun a => InBlocks [7, 8] a ∨ a = HIF_IRQ_STAT 4 ∨ a =
      HIF_IRQ_STAT 5) [.lat, .port, .host, .tail, .mesh] s t) ∧
    (∀ (n : Nat) (tc : Bool) (m : Msg) (slots : List (List Nat)), s.Hears n slots [.urgent (s.f (GLS_SEQ_RX_EXPECT n)) (.ctrl s.nodeId tc
      m)] → s.urgPool n 3 = [] → (s.portOf n).turn ≠ some s.fig.toNat → s.on LAT_NODE_VALID = true → s.newer m = true → m.type = 3 →
      s.latState ≠ 0 ∨ s.lat.offPor = false → ∃ t, exec (.resetMessage n slots .ok false) s = .next t ∧ t.latState = 1 ∧ t.round = 0 ∧
      t.lat.resetDue = true ∧ mget t.lat.seen none m.origin = some m.seq ∧ t.fig = s.fig ∧ t.pending = s.pending ∧ t.hbm = s.hbm ∧ t.bal =
      s.bal) ∧
    (∀ (n : Nat) (e : Entry) (slots : List (List Nat)), s.Hears n slots [.urgent (s.f (GLS_SEQ_RX_EXPECT n)) (.bundle e)] → s.urgPool n 3
      = [] → ∃ t, exec (.cutIn n slots) s = .next t ∧ t.urgPool n (s.poolHere e.dest e.tc true) = s.urgPool n (s.poolHere e.dest e.tc
      true) ++ [⟨s.fig.toNat, .bundle e, .ok, false⟩] ∧ t.f (GLS_SEQ_RX_EXPECT n) = (s.f (GLS_SEQ_RX_EXPECT n) + 1) % 256 ∧ Keeps (fun a
      => a = GLS_SEQ n ∨ LaneErrOf n a) [.port] s t) ∧
    (∀ (n k : Nat) (e : Entry) (rest : List PoolEntry), s.urgPool n 3 = [] → (s.portOf n).turn ≠ some s.fig.toNat → s.bulkPool n 0 = ⟨k,
      e⟩ :: rest → s.presentable e = true → s.queueValid e.queue = true → s.QueueRoom e.queue → ∃ t, exec (.bundleArrival n .ok false) s =
      .next t ∧ (t.cqueue e.queue).chip = (s.cqueue e.queue).chip ++ [⟨e.data, e.poison⟩] ∧ (∀ q : Nat, q ≠ e.queue → t.cqueue q =
      s.cqueue q) ∧ t.bulkPool n 0 = rest ∧ (t.portOf n).freed.getD 0 0 = ((s.portOf n).freed.getD 0 0 + 1) % 256 ∧ Keeps (fun a =>
      InBlocks [6] a) [.call, .port, .tail] s t) ∧
    (s.on LAT_CTRL_BEAT_MASTER = true → s.fig.toNat % max 1500 (s.f GLS_BEAT_CFG_INTERVAL) = 0 → ∃ t, exec (.beatForm) s = .next t ∧ t.f
      LAT_STAT_BEAT_COUNT = (s.f LAT_STAT_BEAT_COUNT + 1) % 2 ^ 16 ∧ t.latState = s.latState ∧ t.lat.beatFig = s.fig.toNat ∧ (∀ n : Nat, n
      < 16 → (t.portOf n).beatDue = (s.portOf n).beatDue ++ (if n ∈ s.peerPorts then [(s.f LAT_STAT_BEAT_COUNT + 1) % 2 ^ 16] else [])) ∧
      Keeps (fun a => a = LAT_STAT) [.lat, .port] s t) ∧
    (∀ (n count : Nat) (slots : List (List Nat)), s.Hears n slots [.beat true true count] → s.on LAT_CTRL_BEAT_MASTER = false → s.f
      LAT_CTRL_UP_PORT = n → ∃ t, exec (.beatMark n slots) s = .next t ∧ t.f LAT_STAT_BEAT_COUNT = count % 2 ^ 16 ∧ t.lat.beatFig =
      s.fig.toNat ∧ t.latState = s.latState ∧ Keeps (fun a => a = LAT_STAT ∨ LaneErrOf n a) [.lat, .port, .clk] s t) ∧
    (∀ (i : Nat), i < 64 → s.on (LAT_PEER_VALID i) = true → s.peerDown (s.f (LAT_PEER_NODE i)) = true → s.on (LAT_PEER_STAT_LOST i) =
      false → ∃ t, exec (.peerLost i) s = .next t ∧ t.on (LAT_PEER_STAT_LOST i) = true ∧ (t.reg (HIF_IRQ_STAT 4)).toNat.testBit 29 = true
      ∧ Keeps (fun a => InBlocks [7, 8] a ∨ a = HIF_IRQ_STAT 4 ∨ a = HIF_IRQ_STAT 5) [.lat, .port, .host, .tail, .mesh] s t)

/-- BULK_FRAME_BUILD with one bundle that has credit takes it into the frame in progress and uses its credit; with no window, no bundle or a
  frame in progress it does nothing. Slots that complete a bulk frame with the expected LSEQ put its bundles into their pools and
  advance RX_EXPECT; one that fails its checks is discarded and a retry request for the expected LSEQ falls due; one behind is only
  discarded. TRANSIT_FORWARD moves the head of a transit pool, when the queue of its route port takes it, and frees its entry. CREDIT
  loads the freed counts modulo each pool's base. RETRY_REQUEST for an unacknowledged frame, and REPLAY_TIMEOUT for the oldest, start a
  replay there while under the limit; RETRY_TIMEOUT makes the request due again. STATUS_SLOT_DUE and SKIP_DUE make a slot due after
  their intervals; a received skip completes nothing. At a slot boundary a due retry request goes first, then a replayed or new urgent
  frame, a beat mark, a status, a skip. (Shown to complete, each with its own effect: bulkFrameBuild, bulkFrame, transitForward,
  creditSlot, retryRequest, replayTimeout, retryTimeout, statusSlotDue, skipDue, skipSlot.) -/
def Obligations.GleisFrames : Prop :=
  ∀ s : State, s.Calm → 
    (∀ (n : Nat) (e : Entry), n < 16 → s.windowOpen n = true → (s.portOf n).cur = none → (s.portOf n).bulkQ = [e] → 0 < s.poolCredit n
      (s.poolFor n e.dest e.tc false) → ∃ t, exec (.bulkFrameBuild n) s = .next t ∧ (t.portOf n).bulkQ = [] ∧ (t.portOf n).cur = some
      ⟨[e], [s.poolFor n e.dest e.tc false], none, 0⟩ ∧ (t.portOf n).retry = (s.portOf n).retry ∧ s.poolCredit n (s.poolFor n e.dest e.tc
      false) = t.poolCredit n (s.poolFor n e.dest e.tc false) + 1 ∧ Keeps (fun a => False) [.port] s t) ∧
    (∀ (n : Nat), s.windowOpen n = false ∨ (s.portOf n).bulkQ = [] ∨ (s.portOf n).cur ≠ none → ∃ t, exec (.bulkFrameBuild n) s = .next t ∧
      t = s) ∧
    (∀ (n ack : Nat) (e : Entry) (slots : List (List Nat)), s.Hears n slots [.bulk (s.f (GLS_SEQ_RX_EXPECT n)) ack [e]] → ∃ t, exec
      (.bulkFrame n slots) s = .next t ∧ t.bulkPool n (s.poolHere e.dest e.tc false) = s.bulkPool n (s.poolHere e.dest e.tc false) ++
      [⟨s.fig.toNat, e⟩] ∧ t.f (GLS_SEQ_RX_EXPECT n) = (s.f (GLS_SEQ_RX_EXPECT n) + 1) % 256 ∧ Keeps (fun a => a = GLS_SEQ n ∨ LaneErrOf n
      a) [.port] s t) ∧
    (∀ (n : Nat) (slots : List (List Nat)), s.Hears n slots [.fail] → (s.portOf n).asked ≠ some (s.f (GLS_SEQ_RX_EXPECT n)) → ∃ t, exec
      (.bulkFrame n slots) s = .next t ∧ t.reg (GLS_SEQ n) = s.reg (GLS_SEQ n) ∧ (t.portOf n).bulk = (s.portOf n).bulk ∧ (t.portOf
      n).asked = some (s.f (GLS_SEQ_RX_EXPECT n)) ∧ (t.portOf n).retryDue = some (s.f (GLS_SEQ_RX_EXPECT n)) ∧ t.f (GLS_CNT_DISCARD_COUNT
      n) = min (2 ^ 32 - 1) (s.f (GLS_CNT_DISCARD_COUNT n) + 1) ∧ Keeps (fun a => a = GLS_CNT_DISCARD n ∨ LaneErrOf n a) [.port] s t) ∧
    (∀ (n q ack : Nat) (es : List Entry) (slots : List (List Nat)), s.Hears n slots [.bulk q ack es] → sext 8 (q + 256 - s.f
      (GLS_SEQ_RX_EXPECT n)) < 0 → ∃ t, exec (.bulkFrame n slots) s = .next t ∧ t.reg (GLS_SEQ n) = s.reg (GLS_SEQ n) ∧ (t.portOf n).bulk
      = (s.portOf n).bulk ∧ (t.portOf n).asked = (s.portOf n).asked ∧ (t.portOf n).retryDue = (s.portOf n).retryDue ∧ Keeps (fun a => a =
      GLS_CNT_DISCARD n ∨ LaneErrOf n a) [.port] s t) ∧
    (∀ (n p q k : Nat) (e : Entry) (rest : List PoolEntry), s.latState ≠ 0 → s.on LAT_NODE_VALID = true → p = 1 ∨ p = 2 → s.bulkPool n p =
      ⟨k, e⟩ :: rest → s.routeOf e.dest = some q → (s.portOf q).bulkQ.length < 32 → s.queueTurn q false (k, 0, 8 * n + p) = true → ∃ t,
      exec (.transitForward n p .ok false) s = .next t ∧ t.bulkPool n p = rest ∧ (t.portOf q).bulkQ = (s.portOf q).bulkQ ++
      [{ e with tc := e.tc || s.on (GLS_CTRL_DATELINE q) }] ∧ (t.portOf n).freed.getD p 0 = ((s.portOf n).freed.getD p 0 + 1) % 256 ∧
      Keeps (fun a => False) [.port] s t) ∧
    (∀ (n p q k : Nat) (u : Urgent) (e : Ecc) (b : Bool) (rest : List PoolUrgent), s.latState ≠ 0 → s.on LAT_NODE_VALID = true → p = 4 ∨ p
      = 5 → s.urgPool n p = ⟨k, u, e, b⟩ :: rest → s.routeOf u.dest = some q → (s.portOf q).urgQ.length < 8 → s.queueTurn q true (k, 0, 8
      * n + p) = true → ∃ t, exec (.transitForward n p .ok false) s = .next t ∧ t.urgPool n p = rest ∧ (t.portOf q).urgQ = (s.portOf
      q).urgQ ++ [if s.on (GLS_CTRL_DATELINE q) then u.withTc else u] ∧ (t.portOf n).freed.getD p 0 = ((s.portOf n).freed.getD p 0 + 1) %
      16 ∧ Keeps (fun a => False) [.port] s t) ∧
    (∀ (n ack : Nat) (counts : List Nat) (slots : List (List Nat)), s.Hears n slots [.credit ack counts] → ∃ t, exec (.creditSlot n slots)
      s = .next t ∧ (t.portOf n).credit = (List.range 6).map (fun p => counts.getD p 0 % poolBase p) ∧ (t.portOf n).statFig = s.fig.toNat
      ∧ Keeps (fun a => a = GLS_SEQ n ∨ LaneErrOf n a) [.port] s t) ∧
    (∀ (n l : Nat) (slots : List (List Nat)), s.Hears n slots [.retry l] → (s.portOf n).retry.any (fun e => e.1 == l) = true → (s.portOf
      n).retry.any (fun e => decide (max 1 (s.f (GLS_LINK_CFG_RETRY_LIMIT n)) ≤ e.2.2)) = false → ∃ t, exec (.retryRequest n slots []
      false) s = .next t ∧ (t.portOf n).retry = (s.portOf n).retry ∧ (t.portOf n).rep = some l ∧ (t.portOf n).ackFig = s.fig.toNat ∧ Keeps
      (fun a => LaneErrOf n a) [.port] s t) ∧
    (∀ (n : Nat), n < 16 → s.portUp n = true → (s.portOf n).retry.any (fun e => decide (max 1 (s.f (GLS_LINK_CFG_RETRY_LIMIT n)) ≤ e.2.2))
      = false → (s.portOf n).retry ≠ [] → (s.portOf n).ackFig + 4 * s.reqTmo n ≤ s.fig.toNat → ∃ t, exec (.replayTimeout n [] false) s =
      .next t ∧ (t.portOf n).retry = (s.portOf n).retry ∧ (t.portOf n).rep = (s.portOf n).retry.head?.map (fun e => e.1) ∧ (t.portOf
      n).ackFig = s.fig.toNat ∧ Keeps (fun a => False) [.port] s t) ∧
    (∀ (n : Nat), s.portUp n = true → (s.portOf n).asked = some (s.f (GLS_SEQ_RX_EXPECT n)) → (s.portOf n).askFig + s.reqTmo n ≤
      s.fig.toNat → ∃ t, exec (.retryTimeout n) s = .next t ∧ (t.portOf n).retryDue = some (s.f (GLS_SEQ_RX_EXPECT n)) ∧ (t.portOf
      n).askFig = s.fig.toNat ∧ Keeps (fun a => False) [.port] s t) ∧
    (∀ (n : Nat), s.portUp n = true → max 8 (s.f (GLS_LINK_CFG_STATUS_INT n)) ≤ (s.portOf n).sinceStatus → ∃ t, exec (.statusSlotDue n) s
      = .next t ∧ (t.portOf n).statusDue = true ∧ Keeps (fun a => False) [.port] s t) ∧
    (∀ (n : Nat), 64 * min 16 (max 1 (s.f (GLS_LINK_CFG_SKIP_INT n))) ≤ (s.portOf n).sinceSkip → ∃ t, exec (.skipDue n) s = .next t ∧
      (t.portOf n).skipDue = true ∧ Keeps (fun a => False) [.port] s t) ∧
    (∀ (n : Nat) (slots : List (List Nat)), s.Hears n slots [] → ∃ t, exec (.skipSlot n slots) s = .next t ∧ t = (rxSlots n slots s).1 ∧
      Keeps (fun a => LaneErrOf n a) [.port] s t) ∧
    (∀ (n q : Nat), (s.portOf n).retryDue = some q → (s.slotDue n).2 = (retrySlot q, false) ∧ ((s.slotDue n).1.portOf n).retryDue = none) ∧
    (∀ (n k : Nat) (u : Urgent), n < 16 → (s.portOf n).retryDue = none → s.urgentDue n = some (u, k) → (s.slotDue n).2 = ((u.slots (s.f
      (GLS_SEQ_TX_NEXT n))).headD commaIdle, false) ∧ ((s.slotDue n).1.portOf n).ins = (u.slots (s.f (GLS_SEQ_TX_NEXT n))).drop 1 ∧
      ((s.slotDue n).1.portOf n).retry = (s.portOf n).retry ++ [(s.f (GLS_SEQ_TX_NEXT n), .urgent u, 0)] ∧ (s.slotDue n).1.f
      (GLS_SEQ_TX_NEXT n) = (s.f (GLS_SEQ_TX_NEXT n) + 1) % 256) ∧
    (∀ (n b : Nat) (rest : List Nat), (s.portOf n).retryDue = none → (s.portOf n).rep = none → s.urgentDue n = none → (s.portOf n).beatDue
      = b :: rest → (s.slotDue n).2 = (beatSlot b, false)) ∧
    (∀ (n : Nat), (s.portOf n).retryDue = none → (s.portOf n).rep = none → s.urgentDue n = none → (s.portOf n).beatDue = [] → (s.portOf
      n).statusDue = true → (s.portOf n).spareOut = [] → (s.portOf n).txStep = none → (s.slotDue n).2 = (creditStatus (s.f
      (GLS_SEQ_RX_EXPECT n)) (s.portOf n).freed, false) ∧ ((s.slotDue n).1.portOf n).statusDue = false) ∧
    (∀ (n : Nat), (s.portOf n).retryDue = none → (s.portOf n).rep = none → s.urgentDue n = none → (s.portOf n).beatDue = [] → (s.portOf
      n).statusDue = false → (s.portOf n).skipDue = true → (s.slotDue n).2 = (skipSlot, true) ∧ ((s.slotDue n).1.portOf n).skipDue =
      false)

/-- A received REQ with LS free at the transmitter and no step pending there makes the mirroring of the lane due; MIRROR at the receiver
  that asked takes LS as the lane (RX_SPARE), retires the lane and answers ACK (op 3); ACK retires the lane at the transmitter that
  mirrors (TX_SPARE); RET_REQ, RET_MIRROR and RET_ACK give the lane back (answer op 6, RX_SPARE and TX_SPARE 15); each end raises
  EV_GLS_SPARE. SPARE_GO for a data lane with LS free and fit asks for the move (op 1), for lane 8 the return (op 4); what cannot
  proceed sets FAIL_CAUSE 11. LOSS_OF_SIGNAL on an active lane moves it to LS under AUTO_SPARE with LS free and fit, else takes the port
  down. DEGRADE_WINDOW at a window end shows FIT by the code errors of the window; a lane whose errors reach THR raises EV_GLS_DEGRADE.
  RECAL of a lane that carries no data makes it clean. (Shown to complete, each with its own effect: spareReq, spareMirror, spareAck,
  spareRetReq, spareRetMirror, spareRetAck, spareGo, lossOfSignal, degradeWindow, recal.) -/
def Obligations.GleisSparing : Prop :=
  ∀ s : State, s.Calm → 
    (∀ (n k : Nat) (slots : List (List Nat)), s.Hears n slots [.spare 1 k] → k < 8 → s.f (GLS_STAT_TX_SPARE n) = 15 → (s.portOf n).txStep
      = none → ∃ t, exec (.spareReq n slots) s = .next t ∧ (t.portOf n).txStep = some (k, false, false) ∧ (t.portOf n).spareOut =
      (s.portOf n).spareOut ∧ Keeps (fun a => LaneErrOf n a) [.port] s t) ∧
    (∀ (n k : Nat) (slots : List (List Nat)), s.Hears n slots [.spare 2 k] → k < 8 → (s.portOf n).rxStep = some (k, false) → ∃ t, exec
      (.spareMirror n slots) s = .next t ∧ t.f (GLS_STAT_RX_SPARE n) = k ∧ t.f (GLS_LANE_STAT_ROLE n (s.physLane n k)) = 4 ∧ t.f
      (GLS_LANE_STAT_ROLE n (s.physLane n 8)) = 3 ∧ t.f (GLS_LANE_STAT_CARRY n (s.physLane n 8)) = k ∧ (t.portOf n).rxStep = none ∧
      (t.portOf n).spareOut = (s.portOf n).spareOut.filter (fun e => e != (1, k)) ++ [(3, k)] ∧ (t.reg (GLS_EVT n)).toNat.testBit 4 = true
      ∧ Keeps (fun a => a = GLS_STAT n ∨ a = GLS_EVT n ∨ a ∈ (List.range 9).map (GLS_LANE_STAT n) ∨ a = HIF_IRQ_STAT 5 ∨ LaneErrOf n a)
      [.port, .host, .tail, .mesh] s t) ∧
    (∀ (n k : Nat) (slots : List (List Nat)), s.Hears n slots [.spare 3 k] → k < 8 → (s.portOf n).txStep = some (k, false, true) → ∃ t,
      exec (.spareAck n slots) s = .next t ∧ t.f (GLS_STAT_TX_SPARE n) = k ∧ (t.portOf n).txStep = none ∧ (t.reg (GLS_EVT
      n)).toNat.testBit 4 = true ∧ Keeps (fun a => a = GLS_STAT n ∨ a = GLS_EVT n ∨ a = HIF_IRQ_STAT 5 ∨ LaneErrOf n a) [.port, .host,
      .tail, .mesh] s t) ∧
    (∀ (n k : Nat) (slots : List (List Nat)), s.Hears n slots [.spare 4 k] → k < 8 → s.f (GLS_STAT_TX_SPARE n) = k → (s.portOf n).txStep =
      none → ∃ t, exec (.spareRetReq n slots) s = .next t ∧ (t.portOf n).txStep = some (k, true, false) ∧ (t.portOf n).spareOut =
      (s.portOf n).spareOut ∧ Keeps (fun a => LaneErrOf n a) [.port] s t) ∧
    (∀ (n k : Nat) (slots : List (List Nat)), s.Hears n slots [.spare 5 k] → k < 8 → (s.portOf n).rxStep = some (k, true) → ∃ t, exec
      (.spareRetMirror n slots) s = .next t ∧ t.f (GLS_STAT_RX_SPARE n) = 15 ∧ t.f (GLS_LANE_STAT_ROLE n (s.physLane n k)) = 1 ∧ t.f
      (GLS_LANE_STAT_CARRY n (s.physLane n k)) = k ∧ t.f (GLS_LANE_STAT_ROLE n (s.physLane n 8)) = 2 ∧ (t.portOf n).rxStep = none ∧
      (t.portOf n).spareOut = (s.portOf n).spareOut.filter (fun e => e != (4, k)) ++ [(6, k)] ∧ (t.reg (GLS_EVT n)).toNat.testBit 4 = true
      ∧ Keeps (fun a => a = GLS_STAT n ∨ a = GLS_EVT n ∨ a ∈ (List.range 9).map (GLS_LANE_STAT n) ∨ a = HIF_IRQ_STAT 5 ∨ LaneErrOf n a)
      [.port, .host, .tail, .mesh] s t) ∧
    (∀ (n k : Nat) (slots : List (List Nat)), s.Hears n slots [.spare 6 k] → k < 8 → (s.portOf n).txStep = some (k, true, true) → ∃ t,
      exec (.spareRetAck n slots) s = .next t ∧ t.f (GLS_STAT_TX_SPARE n) = 15 ∧ (t.portOf n).txStep = none ∧ (t.reg (GLS_EVT
      n)).toNat.testBit 4 = true ∧ Keeps (fun a => a = GLS_STAT n ∨ a = GLS_EVT n ∨ a = HIF_IRQ_STAT 5 ∨ LaneErrOf n a) [.port, .host,
      .tail, .mesh] s t) ∧
    (∀ (n k : Nat), n < 16 → k < 8 → s.blockGated (16 + n) = false → s.portUp n = true → s.spareFree n = true → s.laneFit n 8 = true → ∃
      t, exec (.spareGo n k) s = .next t ∧ (t.portOf n).rxStep = some (k, false) ∧ (t.portOf n).spareOut = (s.portOf n).spareOut ++ [(1,
      k)] ∧ t.f (GLS_CTRL_SPARE_LANE n) = k ∧ Keeps (fun a => a = GLS_CTRL n) [.port] s t) ∧
    (∀ (n : Nat), n < 16 → s.blockGated (16 + n) = false → s.portUp n = true → s.f (GLS_STAT_RX_SPARE n) < 8 → (s.portOf n).rxStep = none
      → s.laneFit n (s.f (GLS_STAT_RX_SPARE n)) = true → ∃ t, exec (.spareGo n 8) s = .next t ∧ (t.portOf n).rxStep = some (s.f
      (GLS_STAT_RX_SPARE n), true) ∧ (t.portOf n).spareOut = (s.portOf n).spareOut ++ [(4, s.f (GLS_STAT_RX_SPARE n))] ∧ Keeps (fun a => a
      = GLS_CTRL n) [.port] s t) ∧
    (∀ (n k : Nat), n < 16 → s.blockGated (16 + n) = false → s.portUp n = false ∨ (8 < k ∧ k < 16) ∨ (k < 8 ∧ s.spareFree n = false) → ∃
      t, exec (.spareGo n k) s = .next t ∧ t.f (GLS_STAT_FAIL_CAUSE n) = 11 ∧ (t.reg (GLS_EVT n)).toNat.testBit 7 = true ∧ t.port = s.port
      ∧ Keeps (fun a => a = GLS_CTRL n ∨ a = GLS_STAT n ∨ a = GLS_EVT n ∨ a = HIF_IRQ_STAT 5) [.host, .tail, .mesh] s t) ∧
    (∀ (n l : Nat), n < 16 → l < 9 → s.portUp n = true → s.f (GLS_LANE_STAT_ROLE n l) = 3 ∨ s.f (GLS_LANE_STAT_ROLE n l) = 1 ∧ s.on
      (GLS_CTRL_AUTO_SPARE n) = false ∧ (s.portOf n).rxStep ≠ some (s.physLane n l, false) → ∃ t, exec (.lossOfSignal n l) s = .next t ∧
      t.on (GLS_LANE_STAT_LOS n l) = true ∧ t.portUp n = false ∧ t.f (GLS_STAT_FAIL_CAUSE n) = 6 ∧ Keeps (fun a => InBlocks [7, 8] a ∨ a =
      HIF_IRQ_STAT 4 ∨ a = HIF_IRQ_STAT 5) [.lat, .port, .host, .tail, .mesh] s t) ∧
    (∀ (n l : Nat), n < 16 → l < 9 → s.portUp n = true → s.f (GLS_LANE_STAT_ROLE n l) = 1 → s.on (GLS_CTRL_AUTO_SPARE n) = true →
      s.spareFree n = true → s.laneFit n 8 = true → l ≠ s.physLane n 8 → ∃ t, exec (.lossOfSignal n l) s = .next t ∧ t.on
      (GLS_LANE_STAT_LOS n l) = true ∧ t.portUp n = true ∧ (t.portOf n).rxStep = some (s.physLane n l, false) ∧ (t.portOf n).spareOut =
      (s.portOf n).spareOut ++ [(1, s.physLane n l)] ∧ Keeps (fun a => InBlocks [7, 8] a ∨ a = HIF_IRQ_STAT 4 ∨ a = HIF_IRQ_STAT 5) [.lat,
      .port, .host, .tail, .mesh] s t) ∧
    (∀ (n : Nat), n < 16 → s.fig.toNat % 1500000 = 0 → s.f (GLS_DEGRADE_THR n) = 0 ∨ ∀ l : Nat, l < 9 → mget (s.portOf n).winCode 0 l +
      mget (s.portOf n).winDisp 0 l < s.f (GLS_DEGRADE_THR n) → ∃ t, exec (.degradeWindow n) s = .next t ∧ (t.portOf n).clean =
      (List.range 9).filter (fun l => s.on (GLS_LANE_STAT_ALIGNED n l) && mget (s.portOf n).winCode 0 l == 0) ∧ (t.portOf n).winCode = []
      ∧ (t.portOf n).winDisp = [] ∧ (∀ l : Nat, l < 9 → t.on (GLS_LANE_STAT_FIT n l) = (s.on (GLS_LANE_STAT_ALIGNED n l) && mget (s.portOf
      n).winCode 0 l == 0)) ∧ Keeps (fun a => a ∈ (List.range 9).map (GLS_LANE_STAT n)) [.port] s t) ∧
    (∀ (n l : Nat), n < 16 → l < 9 → s.fig.toNat % 1500000 = 0 → s.f (GLS_LANE_STAT_ROLE n l) = 1 ∨ s.f (GLS_LANE_STAT_ROLE n l) = 3 → 0 <
      s.f (GLS_DEGRADE_THR n) → s.f (GLS_DEGRADE_THR n) ≤ mget (s.portOf n).winCode 0 l + mget (s.portOf n).winDisp 0 l → ∃ t, exec
      (.degradeWindow n) s = .next t ∧ (t.reg (GLS_EVT n)).toNat.testBit 3 = true ∧ (t.portOf n).winCode = [] ∧ t.f (GLS_STAT_STATE n) =
      s.f (GLS_STAT_STATE n)) ∧
    (∀ (n l : Nat), n < 16 → l < 9 → s.blockGated (16 + n) = false → s.f (GLS_LANE_STAT_ROLE n l) = 2 ∨ s.f (GLS_LANE_STAT_ROLE n l) = 4 →
      ∃ t, exec (.recal n l) s = .next t ∧ l ∈ (t.portOf n).clean ∧ t.on (GLS_LANE_STAT_FIT n l) = s.on (GLS_LANE_STAT_ALIGNED n l) ∧
      Keeps (fun a => a ∈ (List.range 9).map (GLS_LANE_STAT n)) [.port] s t)

/-- DETECT sees signal on 8 of 9 lanes and goes to LOCK; LANES_ALIGNED takes it to ADAPT, ADAPT_DONE to IDENT with the CTLE codes; in IDENT
  a TS2 on 8 lanes with READY goes to DESKEW with the peer recorded, one with a mixed lane map fails with cause 3; in DESKEW a TS3 on
  every carrying lane goes to CHECK with the skews; in CHECK a TS without an error and with CHECKED goes to UP with EV_GLS_UP once 1,024
  slots have been sent; a training sequence on 8 lanes takes a port that is UP down. A timeout in LOCK, IDENT, DESKEW or CHECK is a
  failure with its FAIL_CAUSE, one more ATTEMPT and BACKOFF; BACKOFF_END returns to DETECT or DISABLED. LINK_TMO after 4,096 slots
  without a status, RETRAIN and RESTART take a port that is UP down. EYE_SCAN_GO on a locked lane sets BUSY, elsewhere ABORT;
  EYE_SCAN_DONE clears BUSY and loads the errors, or ABORT. (Shown to complete, each with its own effect: signalDetect, lanesAligned,
  adaptDone, trainingSequence, trainingTimeout, backoffEnd, linkTmo, retrain, restart, eyeScanGo, eyeScanDone.) -/
def Obligations.GleisTraining : Prop :=
  ∀ s : State, s.Calm → 
    (∀ (n seen : Nat), n < 16 → s.f (GLS_STAT_STATE n) = 1 → s.scanTakes = false → 8 ≤ (bitList seen 9).length → ∃ t, exec (.signalDetect
      n seen) s = .next t ∧ t.f (GLS_STAT_STATE n) = 2 ∧ (∀ l : Nat, l < 9 → t.on (GLS_LANE_STAT_LOS n l) = !seen.testBit l) ∧ Keeps (fun
      a => a = GLS_STAT n ∨ a ∈ (List.range 9).map (GLS_LANE_STAT n)) [.port] s t) ∧
    (∀ (n seen : Nat), n < 16 → s.portUp n = true → s.scanTakes = false → ∃ t, exec (.signalDetect n seen) s = .next t ∧ t.f
      (GLS_STAT_STATE n) = 7 ∧ (∀ l : Nat, l < 9 → t.on (GLS_LANE_STAT_LOS n l) = (s.on (GLS_LANE_STAT_LOS n l) && !seen.testBit l)) ∧
      Keeps (fun a => a ∈ (List.range 9).map (GLS_LANE_STAT n)) [] s t) ∧
    (∀ (n mask inv : Nat), n < 16 → s.f (GLS_STAT_STATE n) = 2 → 8 ≤ (bitList mask 9).length → ∃ t, exec (.lanesAligned n mask inv) s =
      .next t ∧ t.f (GLS_STAT_STATE n) = 3 ∧ (∀ l : Nat, l < 9 → t.on (GLS_LANE_STAT_ALIGNED n l) = mask.testBit l ∧ t.on
      (GLS_LANE_STAT_POL_INV n l) = inv.testBit l) ∧ Keeps (fun a => a = GLS_STAT n ∨ a ∈ (List.range 9).map (GLS_LANE_STAT n)) [.port] s
      t) ∧
    (∀ (n : Nat) (codes : List Nat), n < 16 → s.f (GLS_STAT_STATE n) = 3 → ∃ t, exec (.adaptDone n codes) s = .next t ∧ t.f
      (GLS_STAT_STATE n) = 4 ∧ (∀ l : Nat, l < 9 → t.f (GLS_LANE_STAT_CTLE n l) = if s.on (GLS_LANE_CTRL_CTLE_OVR n l) then s.f
      (GLS_LANE_CTRL_CTLE_VAL n l) else codes.getD l 0 % 16) ∧ Keeps (fun a => a = GLS_STAT n ∨ a ∈ (List.range 9).map (GLS_LANE_STAT n))
      [.port] s t) ∧
    (∀ (n : Nat) (q : TrainSeq) (lanes : List (List Nat)), n < 16 → s.f (GLS_STAT_STATE n) = 4 → (s.trainRx n lanes).2 = q → q.type = 2 →
      q.map < 2 → q.ready = true → 8 ≤ q.lanes.length → ∃ t, exec (.trainingSequence n lanes) s = .next t ∧ t.f (GLS_STAT_STATE n) = 5 ∧
      t.on (GLS_PEER_ID_VALID n) = true ∧ t.f (GLS_PEER_ID_NODE n) = q.node % 2 ^ 12 ∧ t.f (GLS_PEER_ID_PORT n) = q.port % 16 ∧ t.f
      (GLS_STAT_REVERSED n) = q.map ∧ Keeps (fun a => a = GLS_STAT n ∨ a = GLS_PEER_ID n ∨ a = GLS_SEQ n ∨ a = GLS_CNT_FLUSH n ∨ a =
      GLS_EVT n ∨ a = HIF_IRQ_STAT 5 ∨ a ∈ (List.range 9).map (GLS_LANE_STAT n) ∨ LaneErrOf n a) [.port, .host, .tail, .mesh] s t) ∧
    (∀ (n : Nat) (q : TrainSeq) (lanes : List (List Nat)), n < 16 → s.f (GLS_STAT_STATE n) = 4 → (s.trainRx n lanes).2 = q → q.type = 2 →
      q.map = 2 → 8 ≤ q.lanes.length → ∃ t, exec (.trainingSequence n lanes) s = .next t ∧ t.f (GLS_STAT_STATE n) = 8 ∧ t.f
      (GLS_STAT_FAIL_CAUSE n) = 3 ∧ t.f (GLS_STAT_ATTEMPTS n) = min 255 (s.f (GLS_STAT_ATTEMPTS n) + 1) ∧ Keeps (fun a => a = GLS_STAT n ∨
      a = GLS_EVT n ∨ a = HIF_IRQ_STAT 5 ∨ a ∈ (List.range 9).map (GLS_LANE_STAT n) ∨ LaneErrOf n a) [.port, .host, .tail, .mesh] s t) ∧
    (∀ (n first last : Nat) (q : TrainSeq) (lanes : List (List Nat)), n < 16 → s.f (GLS_STAT_STATE n) = 5 → (s.trainRx n lanes).2 = q →
      q.type = 3 → (s.trainCarriers n).all (fun l => decide (l ∈ q.lanes)) = true → ((s.trainCarriers n).map (fun l => q.place.getD l
      0)).foldl max 0 = last → ((s.trainCarriers n).map (fun l => q.place.getD l 0)).foldl min last = first → last - first ≤ 6 → ∃ t, exec
      (.trainingSequence n lanes) s = .next t ∧ t.f (GLS_STAT_STATE n) = 6 ∧ (∀ l : Nat, l < 9 → t.f (GLS_LANE_STAT_SKEW n l) = min 6
      (last - q.place.getD l 0)) ∧ Keeps (fun a => a = GLS_STAT n ∨ a ∈ (List.range 9).map (GLS_LANE_STAT n) ∨ LaneErrOf n a) [.port] s t) ∧
    (∀ (n : Nat) (q : TrainSeq) (lanes : List (List Nat)), n < 16 → s.f (GLS_STAT_STATE n) = 6 → (s.trainRx n lanes).2 = q → q.type = 3 →
      q.checked = true → (s.trainCarriers n).all (fun l => decide (l ∈ q.lanes) && decide (l ∉ q.errs)) = true → (s.portOf n).chkErr =
      false → 1024 ≤ (s.portOf n).trained → (s.portOf n).bad = none → (s.portOf n).resume = none → ∃ t, exec (.trainingSequence n lanes) s
      = .next t ∧ t.portUp n = true ∧ t.on (GLS_STAT_UP n) = true ∧ t.f (GLS_STAT_ATTEMPTS n) = 0 ∧ t.f (GLS_STAT_RX_SPARE n) = 15 ∧ (∀ k
      : Nat, k < 8 → t.f (GLS_LANE_STAT_ROLE n (s.physLane n k)) = 1 ∧ t.f (GLS_LANE_STAT_CARRY n (s.physLane n k)) = k) ∧ t.f
      (GLS_LANE_STAT_ROLE n (s.physLane n 8)) = 2 ∧ (t.reg (GLS_EVT n)).toNat.testBit 0 = true ∧ Keeps (fun a => InBlocks [7, 8] a ∨ a =
      HIF_IRQ_STAT 4 ∨ a = HIF_IRQ_STAT 5) [.lat, .port, .host, .tail, .mesh] s t) ∧
    (∀ (n : Nat) (q : TrainSeq) (lanes : List (List Nat)), n < 16 → s.f (GLS_STAT_STATE n) = 7 → (s.trainRx n lanes).2 = q → 8 ≤
      q.lanes.length → ∃ t, exec (.trainingSequence n lanes) s = .next t ∧ t.portUp n = false ∧ (t.reg (GLS_EVT n)).toNat.testBit 1 = true
      ∧ Keeps (fun a => InBlocks [7, 8] a ∨ a = HIF_IRQ_STAT 4 ∨ a = HIF_IRQ_STAT 5) [.lat, .port, .host, .tail, .mesh] s t) ∧
    (∀ (n : Nat), n < 16 → s.f (GLS_STAT_STATE n) ∈ [2, 4, 5, 6] → ∃ t, exec (.trainingTimeout n) s = .next t ∧ t.f (GLS_STAT_STATE n) = 8
      ∧ t.f (GLS_STAT_FAIL_CAUSE n) = [0, 0, 1, 0, 2, 4, 5].getD (s.f (GLS_STAT_STATE n)) 0 ∧ t.f (GLS_STAT_ATTEMPTS n) = min 255 (s.f
      (GLS_STAT_ATTEMPTS n) + 1) ∧ (t.reg (GLS_EVT n)).toNat.testBit 2 = true ∧ Keeps (fun a => a = GLS_STAT n ∨ a = GLS_EVT n ∨ a =
      HIF_IRQ_STAT 5) [.port, .host, .tail, .mesh] s t) ∧
    (∀ (n : Nat), n < 16 → s.f (GLS_STAT_STATE n) = 8 → ∃ t, exec (.backoffEnd n) s = .next t ∧ t.f (GLS_STAT_STATE n) = (if s.portMayRun
      n then 1 else 0) ∧ Keeps (fun a => a = GLS_STAT n) [] s t) ∧
    (∀ (n : Nat), n < 16 → s.portUp n = true → 12288 ≤ 5 * (s.fig.toNat - (s.portOf n).statFig) → ∃ t, exec (.linkTmo n) s = .next t ∧
      t.portUp n = false ∧ t.f (GLS_STAT_FAIL_CAUSE n) = 8 ∧ (t.reg (GLS_EVT n)).toNat.testBit 1 = true ∧ Keeps (fun a => InBlocks [7, 8]
      a ∨ a = HIF_IRQ_STAT 4 ∨ a = HIF_IRQ_STAT 5) [.lat, .port, .host, .tail, .mesh] s t) ∧
    (∀ (n : Nat), n < 16 → s.blockGated (16 + n) = false → s.portUp n = true → ∃ t, exec (.retrain n) s = .next t ∧ t.portUp n = false ∧
      (t.reg (GLS_EVT n)).toNat.testBit 1 = true ∧ Keeps (fun a => InBlocks [7, 8] a ∨ a = HIF_IRQ_STAT 4 ∨ a = HIF_IRQ_STAT 5) [.lat,
      .port, .host, .tail, .mesh] s t) ∧
    (∀ (n : Nat), n < 16 → s.blockGated (16 + n) = false → ∃ t, exec (.restart n) s = .next t ∧ t.portUp n = false ∧ (t.portOf n).restart
      = true ∧ Keeps (fun a => InBlocks [7, 8] a ∨ a = HIF_IRQ_STAT 4 ∨ a = HIF_IRQ_STAT 5) [.lat, .port, .host, .tail, .mesh] s t) ∧
    (∀ (n : Nat) (w : Word), n < 16 → s.blockGated (16 + n) = false → fget w 27 24 < 9 → s.on (GLS_LANE_STAT_CDR_LOCK n (fget w 27 24)) =
      true → ∃ t, exec (.eyeScanGo n w) s = .next t ∧ t.on (GLS_EYE_STAT_BUSY n) = true ∧ t.reg (GLS_EYE_CTRL n) = w &&& 0x0F1F3F7F#32 ∧
      Keeps (fun a => a = GLS_EYE_CTRL n ∨ a = GLS_EYE_STAT n) [] s t) ∧
    (∀ (n : Nat) (w : Word), n < 16 → s.blockGated (16 + n) = false → s.on (GLS_EYE_STAT_BUSY n) = false → 8 < fget w 27 24 ∨ s.on
      (GLS_LANE_STAT_CDR_LOCK n (fget w 27 24)) = false → ∃ t, exec (.eyeScanGo n w) s = .next t ∧ t.on (GLS_EYE_STAT_BUSY n) = false ∧
      t.on (GLS_EYE_STAT_ABORT n) = true ∧ (t.reg (GLS_EVT n)).toNat.testBit 8 = true ∧ t.reg (GLS_EYE_CTRL n) = w &&& 0x0F1F3F7F#32) ∧
    (∀ (n errs : Nat) (abort : Bool), n < 16 → s.on (GLS_EYE_STAT_BUSY n) = true → ∃ t, exec (.eyeScanDone n errs abort) s = .next t ∧
      t.on (GLS_EYE_STAT_BUSY n) = false ∧ (if abort then t.on (GLS_EYE_STAT_ABORT n) = true else t.on (GLS_EYE_STAT_DONE n) = true ∧ t.f
      (GLS_EYE_STAT_ERRS n) = min errs 0xFFFFFF) ∧ (t.reg (GLS_EVT n)).toNat.testBit 8 = true ∧ Keeps (fun a => a = GLS_EYE_STAT n ∨ a =
      GLS_EVT n ∨ a = HIF_IRQ_STAT 5) [.host, .tail, .mesh] s t)

/-- GO with MODE ROUND for a later round, or NEXT_BOW, with no Reel-in busy and no GO pending is pending; MODE NOW during a round is refused
  with CAUSE 5. A drain step of a running capture goes on to the next step; the walker copies the next row; a copy-out register empties.
  CAPTURE_COMPLETE after the last step with every row copied ends the capture: COMPLETE with EV_CAPTURE_DONE (176), or BAD without it. A
  map rebuild that is due starts, and ends. DISCARD frees a COMPLETE or BAD slot that is neither pinned nor in use. (While no alarm for
  a tag failure is set to act: ACTION bit 1 is 0.) (Shown to complete, each with its own effect: tailCaptureGo, drainStep, walkRow,
  copyoutDrain, captureComplete, mapRebuild, liveMapRebuildDone, tailDiscard.) -/
def Obligations.TailCaptures : Prop :=
  ∀ s : State, s.Calm → 
    (s.reelBusy = false → s.tail.req = none → s.round.toNat + 1 < s.f TAIL_CAP_ROUND_LO_ROUND_LO + s.f TAIL_CAP_ROUND_HI_ROUND_HI * 2 ^ 32
      → ∃ t, exec (.tailCaptureGo 0) s = .next t ∧ t.tail =
      { s.tail with req := some (0, s.f TAIL_CAP_ROUND_LO_ROUND_LO + s.f TAIL_CAP_ROUND_HI_ROUND_HI * 2 ^ 32, false) } ∧ t.on
      TAIL_CAP_STAT_PENDING = true ∧ Keeps (fun a => a = TAIL_CAP_CTRL ∨ a = TAIL_CAP_STAT) [.tail] s t) ∧
    (s.reelBusy = false → s.tail.req = none → ∃ t, exec (.tailCaptureGo 1) s = .next t ∧ t.tail =
      { s.tail with req := some (1, 0, s.latState == 6) } ∧ t.on TAIL_CAP_STAT_PENDING = true ∧ Keeps (fun a => a = TAIL_CAP_CTRL ∨ a =
      TAIL_CAP_STAT) [.tail] s t) ∧
    (s.reelBusy = false → s.tail.req = none → s.stopped = false → ∃ t, exec (.tailCaptureGo 2) s = .next t ∧ t.on TAIL_CAP_STAT_REFUSED =
      true ∧ t.f TAIL_CAP_STAT_CAUSE = 5 ∧ (t.reg (HIF_IRQ_STAT 5)).toNat.testBit 17 = true ∧ Keeps (fun a => a = TAIL_CAP_CTRL ∨ a =
      TAIL_CAP_STAT ∨ a = HIF_IRQ_STAT 5) [.tail, .host, .mesh] s t) ∧
    (∀ (c : Capture) (up : List (Nat × Nat)), s.gateRun 36 = true → s.clamped = false → s.paceOk 32 = true → s.tail.cap = some c → c.step
      < 8192 → c.bad = true ∨ (s.f SEC_ALARM_CFG_ACTION).testBit 1 = false → ∃ t, exec (.drainStep up) s = .next t ∧ t.tail.cap.map (fun x
      => x.step) = some (c.step + 1) ∧ mget t.tail.paced 0 32 = s.fig.toNat + s.drainDiv ∧ t.fab = s.fab ∧ t.round = s.round ∧ t.lat =
      s.lat ∧ t.pending = s.pending) ∧
    (∀ (n m r : Nat) (rest : List Nat) (up : List (Nat × Nat)), (s.f SEC_ALARM_CFG_ACTION).testBit 1 = false → m / 1024 = n →
      s.fab.copied.map (fun e => e.1) = [m] → s.uncopied m = r :: rest → s.copyOutFull n = false → s.gateRun 36 = true → s.clamped = false
      → s.paceOk n = true → ∃ t, exec (.walkRow n up) s = .next t ∧ t.uncopied m = rest ∧ t.fab.copyOut = s.fab.copyOut ∧ t.round =
      s.round ∧ t.lat = s.lat ∧ t.pending = s.pending) ∧
    (∀ (i : Nat) (up : List (Nat × Nat)), (s.f SEC_ALARM_CFG_ACTION).testBit 1 = false → s.gateRun 36 = true → s.paceOk (16 + i / 2048) =
      true → ∃ t, exec (.copyoutDrain i up) s = .next t ∧ mget t.fab.copyOut none i = none ∧ (∀ j : Nat, j ≠ i → mget t.fab.copyOut none j
      = mget s.fab.copyOut none j) ∧ t.fab.copied = s.fab.copied ∧ t.round = s.round ∧ t.lat = s.lat ∧ t.pending = s.pending) ∧
    (∀ (c : Capture), s.tail.cap = some c → c.slot < 256 → c.step = 8192 → c.lists = [] → s.walked = true → c.bad = false → ∃ t, exec
      (.captureComplete) s = .next t ∧ t.tail =
      { s.tail with cap := none, taskHit := t.tail.taskHit, paced := mset s.tail.paced 0 32 (s.fig.toNat + s.drainDiv) } ∧ t.on
      TAIL_CAP_STAT_BUSY = false ∧ t.f (TAIL_CAT_STAT_STATE c.slot) = 2 ∧ t.f TAIL_CAP_STAT_LAST_SLOT = c.slot % 256 ∧ t.fab =
      { s.fab with copied := [] } ∧ (t.reg (HIF_IRQ_STAT 5)).toNat.testBit 16 = true ∧ Keeps (fun a => a = TAIL_CAP_STAT ∨ a =
      TAIL_CAT_STAT c.slot ∨ a = HIF_IRQ_STAT 5) [.tail, .fab, .host, .mesh] s t) ∧
    (∀ (c : Capture), s.tail.cap = some c → c.step = 8192 → c.lists = [] → s.walked = true → c.bad = true → ∃ t, exec (.captureComplete) s
      = .next t ∧ t.tail = { s.tail with cap := none, paced := mset s.tail.paced 0 32 (s.fig.toNat + s.drainDiv) } ∧ t.on
      TAIL_CAP_STAT_BUSY = false ∧ t.fab = { s.fab with copied := [] } ∧ Keeps (fun a => a = TAIL_CAP_STAT) [.tail, .fab] s t) ∧
    (∀ (k : Nat), k ∈ s.tail.mapDue → ∃ t, exec (.mapRebuild k) s = .next t ∧ t.tail =
      { s.tail with mapDue := ldel s.tail.mapDue k, build := ladd s.tail.build k } ∧ t.on TAIL_CAP_STAT_BUILD = true ∧ Keeps (fun a => a =
      TAIL_CAP_STAT) [.tail] s t) ∧
    (∀ (k : Nat), k ∈ s.tail.build → ∃ t, exec (.liveMapRebuildDone k) s = .next t ∧ t.tail = { s.tail with build := ldel s.tail.build k }
      ∧ t.on TAIL_CAP_STAT_BUILD = !(t.tail.mapDue.isEmpty && t.tail.build.isEmpty) ∧ Keeps (fun a => a = TAIL_CAP_STAT) [.tail] s t) ∧
    (∀ (i : Nat), i < 256 → s.blockGated 36 = false → s.slotLoose i = true → ∃ t, exec (.tailDiscard i) s = .next t ∧ t.f
      (TAIL_CAT_STAT_STATE i) = 0 ∧ Keeps (fun a => a = TAIL_CAT_STAT i) [] s t)

/-- A sample of a unit keeps the masked value; a hit of an armed unit below its count adds 1 to HITS and nothing else. The hit that brings
  HITS to COUNT fires: FIRED is set, ARMED clears, the unit under AUTO and the units that it arms are due for the next edge, ACT_IRQ
  raises EV_TRIG (178), ACT_CAPTURE makes a capture request pending when no Reel-in is busy. REARM makes arming due; at the next edge
  the units due are armed with HITS 0. A recording ring with room in its buffer appends the record of its probe, its time, round and
  poison. (Shown to complete, each with its own effect: probeHit, triggerFire, triggerRearm, ringRecord.) -/
def Obligations.TailTriggersAndRings : Prop :=
  ∀ s : State, s.Calm → 
    (∀ (u : Nat), s.trigSamples u = true → s.trigHit u = true → s.on (TAIL_TRG_STAT_ARMED u) = true → s.f (TAIL_TRG_STAT_HITS u) + 1 < s.f
      (TAIL_TRG_CFG_COUNT u) → ∃ t, exec (.probeHit u) s = .next t ∧ t.f (TAIL_TRG_STAT_HITS u) = s.f (TAIL_TRG_STAT_HITS u) + 1 ∧ t.tail
      =
      { s.tail with prev := mset s.tail.prev 0 u ((s.probe (s.f (TAIL_TRG_SEL_TYPE u)) (s.f (TAIL_TRG_SEL_INDEX u))).1 &&& s.pair (TAIL_TRG_MASK_LO u) (TAIL_TRG_MASK_HI u)), sampled := ladd s.tail.sampled u }
      ∧ Keeps (fun a => a = TAIL_TRG_STAT u) [.tail] s t) ∧
    (∀ (u : Nat), s.trigSamples u = true → s.trigHit u = false ∨ s.on (TAIL_TRG_STAT_ARMED u) = false → ∃ t, exec (.probeHit u) s = .next
      t ∧ t.tail =
      { s.tail with prev := mset s.tail.prev 0 u ((s.probe (s.f (TAIL_TRG_SEL_TYPE u)) (s.f (TAIL_TRG_SEL_INDEX u))).1 &&& s.pair (TAIL_TRG_MASK_LO u) (TAIL_TRG_MASK_HI u)), sampled := ladd s.tail.sampled u }
      ∧ Keeps (fun a => False) [.tail] s t) ∧
    (∀ (u : Nat), s.trigSamples u = true → s.trigHit u = true → s.on (TAIL_TRG_STAT_ARMED u) = true → max 1 (s.f (TAIL_TRG_CFG_COUNT u)) ≤
      s.f (TAIL_TRG_STAT_HITS u) + 1 → s.on (TAIL_TRG_CFG_ACT_CAPTURE u) = false → s.on (TAIL_TRG_CFG_ACT_STOP u) = false → s.on
      (TAIL_TRG_CFG_ACT_PIN u) = false → s.on (TAIL_TRG_CFG_ACT_RING u) = false → ∀ v : Nat, v < 64 → s.on (TAIL_TRG_CFG_EN v) = true →
      s.f (TAIL_TRG_CFG_ARM_SRC v) = 1 → s.f (TAIL_TRG_CFG_ARM_UNIT v) = u → False → ∃ t, exec (.triggerFire u) s = .next t ∧ t.on
      (TAIL_TRG_STAT_FIRED u) = true ∧ t.on (TAIL_TRG_STAT_ARMED u) = false ∧ t.tail.armDue = (if s.on (TAIL_TRG_CFG_AUTO u) then ladd
      s.tail.armDue u else s.tail.armDue) ∧ (s.on (TAIL_TRG_CFG_ACT_IRQ u) = true → (t.reg (HIF_IRQ_STAT 5)).toNat.testBit 18 = true) ∧
      Keeps (fun a => a = TAIL_TRG_STAT u ∨ a = HIF_IRQ_STAT 5) [.tail, .host, .mesh] s t) ∧
    (∀ (u : Nat), s.trigSamples u = true → s.trigHit u = true → s.on (TAIL_TRG_STAT_ARMED u) = true → max 1 (s.f (TAIL_TRG_CFG_COUNT u)) ≤
      s.f (TAIL_TRG_STAT_HITS u) + 1 → ∃ t, exec (.triggerFire u) s = .next t ∧ t.on (TAIL_TRG_STAT_FIRED u) = true ∧ (∀ v : Nat, v < 64 →
      (v ∈ t.tail.armDue ↔ v ∈ s.tail.armDue ∨ (s.on (TAIL_TRG_CFG_EN v) = true ∧ s.f (TAIL_TRG_CFG_ARM_SRC v) = 1 ∧ s.f
      (TAIL_TRG_CFG_ARM_UNIT v) = u) ∨ (v = u ∧ s.on (TAIL_TRG_CFG_AUTO u) = true))) ∧ (s.on (TAIL_TRG_CFG_ACT_CAPTURE u) = true →
      s.reelBusy = false → t.tail.trig.isSome = true) ∧ t.round = s.round ∧ t.fab = s.fab ∧ t.call = s.call ∧ t.hbm = s.hbm ∧ t.pending =
      s.pending) ∧
    (∀ (u : Nat), u < 64 → s.blockGated 36 = false → ∃ t, exec (.triggerRearm u) s = .next t ∧ t.tail =
      { s.tail with armDue := ladd s.tail.armDue u } ∧ Keeps (fun a => False) [.tail] s t) ∧
    (s.tail.armDue.all (fun u => decide (u < 64)) = true → (∀ u : Nat, u < 64 → u ∈ s.tail.armDue → s.trigArms.on (TAIL_TRG_STAT_ARMED u)
      = true ∧ s.trigArms.f (TAIL_TRG_STAT_HITS u) = 0) ∧ s.trigArms.tail = { s.tail with armDue := [] } ∧ Keeps (fun a => a ∈ (List.range
      64).map TAIL_TRG_STAT) [.tail] s s.trigArms) ∧
    (∀ (k : Nat) (up : List (Nat × Nat)), k < 8 → s.ringOn k 0 = true → 64 + k ∉ s.tail.sampled → s.f (TAIL_RING_CFG_SAMPLE k) = 0 ∨ (s.f
      (TAIL_RING_CFG_SAMPLE k) = 1 ∧ s.announceEdge = true) → (mget s.tail.ringBuf [] k).length < 64 → mget s.tail.post none k = none → ∃
      t, exec (.ringRecord k up) s = .next t ∧ mget t.tail.ringBuf [] k = mget s.tail.ringBuf [] k ++ [((s.probe (s.f (TAIL_RING_SEL_TYPE
      k)) (s.f (TAIL_RING_SEL_INDEX k))).1 % 2 ^ 64 + s.fig.toNat % 2 ^ 48 * 2 ^ 64 + s.round.toNat % 2 ^ 15 * 2 ^ 112 + b2n (s.probe (s.f
      (TAIL_RING_SEL_TYPE k)) (s.f (TAIL_RING_SEL_INDEX k))).2 * 2 ^ 127, mget up 0 0 + mget up 0 1 * 2 ^ 72)] ∧ t.tail.sampled = ladd
      s.tail.sampled (64 + k) ∧ Keeps (fun a => False) [.tail] s t)

/-- REELIN_GO for a slot whose header passes every check of R354, and has no list entries, is in VERIFY with the round of the snapshot.
  REELIN_ARMED, with every load step done, the checks passed again and no design memory row to verify, arms. While the rounds are
  stopped the restore edge sets ROUND_COUNT to the snapshot's round and goes to MEMWRITE. REELIN_DONE of a device without design
  memories ends it with EV_REELIN_DONE (180). ABORT takes VERIFY and ARMED back to IDLE (or PARTIAL) and MEMWRITE to PARTIAL, with CAUSE
  9. (Shown to complete, each with its own effect: reelinGo, reelinArmed, restoreEdge, reelinDone, reelinAbort.) -/
def Obligations.TailReelIn : Prop :=
  ∀ s : State, s.Calm → 
    (∀ (slot h : Nat) (rest : List Nat), (s.f SEC_ALARM_CFG_ACTION).testBit 1 = false → s.blockGated 36 = false → s.slotState (slot % 256)
      = 2 → (reelHeader 17 (s.slotBase (slot % 256)) [] (s.put TAIL_REEL_CTRL_SLOT slot)).2 = some (h :: rest) → (reelHeader 17
      (s.slotBase (slot % 256)) [] (s.put TAIL_REEL_CTRL_SLOT slot)).1.reelCheck (slot % 256) (s.f TAIL_REEL_STAT_STATE == 1 || s.f
      TAIL_REEL_STAT_STATE == 2 || s.f TAIL_REEL_STAT_STATE == 3) (some (h :: rest)) = none → bitsOf h 447 416 = 0 → ∃ t, exec (.reelinGo
      slot) s = .next t ∧ t.f TAIL_REEL_STAT_STATE = 1 ∧ t.tail.reel = some ⟨slot % 256, bitsOf h 175 128, [], 0, false, s.f
      TAIL_REEL_STAT_STATE == 4, 0⟩ ∧ t.f TAIL_REEL_STAT_CAUSE = 0 ∧ t.f TAIL_REEL_STAT_LATE_POISON = 0 ∧ t.on (TAIL_CAT_STAT_IN_USE (slot
      % 256)) = true ∧ t.round = s.round ∧ t.lat = s.lat ∧ t.fab = s.fab ∧ t.call = s.call ∧ t.pending = s.pending) ∧
    (∀ (slot : Nat), s.blockGated 36 = false → s.slotState (slot % 256) ≠ 2 → ∃ t, exec (.reelinGo slot) s = .next t ∧ t.f
      TAIL_REEL_STAT_CAUSE = 1 ∧ t.tail.reel = s.tail.reel ∧ t.f TAIL_REEL_STAT_STATE = s.f TAIL_REEL_STAT_STATE ∧ (t.reg (HIF_IRQ_STAT
      5)).toNat.testBit 21 = true ∧ Keeps (fun a => a = TAIL_REEL_CTRL ∨ a = TAIL_REEL_STAT ∨ a = HIF_IRQ_STAT 5) [.host, .tail, .mesh] s
      t) ∧
    (∀ (r : Reel) (ls : List Nat), (s.f SEC_ALARM_CFG_ACTION).testBit 1 = false → s.tail.reel = some r → s.f TAIL_REEL_STAT_STATE = 1 →
      r.step = 8192 → s.clamped = false → (reelHeader 17 (s.slotBase r.slot) [] s).2 = some ls → (reelHeader 17 (s.slotBase r.slot) []
      s).1.reelCheck r.slot false (some ls) = none → s.designRows = [] → ∃ t, exec (.reelinArmed) s = .next t ∧ t.f TAIL_REEL_STAT_STATE =
      2 ∧ t.tail.reel = some { r with late := s.latState == 6, armFig := s.fig.toNat } ∧ t.round = s.round ∧ t.lat = s.lat ∧ t.fab = s.fab
      ∧ t.call = s.call ∧ t.pending = s.pending) ∧
    (∀ (r : Reel), s.tail.reel = some r → s.restoreReached = true → ∃ t, exec (.restoreEdge) s = .next t ∧ t.f TAIL_REEL_STAT_STATE = 3 ∧
      t.round = BitVec.ofNat 48 r.round ∧ t.lat.target = none ∧ t.lat.bows = [] ∧ t.fig = s.fig ∧ t.pending = s.pending ∧ t.hbm = s.hbm) ∧
    (∀ (r : Reel), s.tail.reel = some r → s.f TAIL_REEL_STAT_STATE = 3 → s.clamped = false → s.designRows = [] → s.stopped = true → ∃ t,
      exec (.reelinDone) s = .next t ∧ t.f TAIL_REEL_STAT_STATE = 0 ∧ t.tail.reel = none ∧ t.stopped = true ∧ (t.reg (HIF_IRQ_STAT
      5)).toNat.testBit 20 = true ∧ t.round = s.round ∧ t.fig = s.fig ∧ t.pending = s.pending) ∧
    (∀ (r : Reel), s.blockGated 36 = false → s.tail.reel = some r → r.slot < 256 → 1 ≤ s.f TAIL_REEL_STAT_STATE → s.f TAIL_REEL_STAT_STATE
      ≤ 3 → ∃ t, exec (.reelinAbort) s = .next t ∧ t.tail = { s.tail with reel := none, taskHit := t.tail.taskHit } ∧ t.f
      TAIL_REEL_STAT_CAUSE = 9 ∧ t.f TAIL_REEL_STAT_STATE = (if s.f TAIL_REEL_STAT_STATE = 3 ∨ r.back = true then 4 else 0) ∧ (t.reg
      (HIF_IRQ_STAT 5)).toNat.testBit 21 = true ∧ Keeps (fun a => a = TAIL_REEL_STAT ∨ a = TAIL_CAT_STAT r.slot ∨ a = HIF_IRQ_STAT 5)
      [.host, .tail, .mesh] s t)

/-- EXPORT of a COMPLETE slot, IMPORT with a FREE slot, while no transfer runs and the device is not Alarmed, set BUSY with DONE and FAIL 0;
  an export uses its slot, an import holds its slot IMPORTING. ABORT ends a transfer with CAUSE 7 and FAIL, and frees the slot of an
  import. TRANSFER_END, at the transfer's turn at the Gondola, ends it with cause 4 where the Gondola was removed (an import) or is
  absent; else it ends as the export or import finds: a transfer that ends without a cause sets DONE, an import's slot is then COMPLETE;
  one with a cause sets it and FAIL; each raises EV_EXPORT_DONE (183). (Shown to complete, each with its own effect: exportSlot,
  importSlot, transferAbort, transferEnd.) -/
def Obligations.TailTransfers : Prop :=
  ∀ s : State, s.Calm → 
    (∀ (key slot : Nat), s.blockGated 36 = false → s.on TAIL_EXP_STAT_BUSY = false → s.alarmed = false → s.slotState (slot % 256) = 2 → ∃
      t, exec (.exportSlot key slot) s = .next t ∧ t.on TAIL_EXP_STAT_BUSY = true ∧ t.on TAIL_EXP_STAT_DONE = false ∧ t.on
      TAIL_EXP_STAT_FAIL = false ∧ t.tail =
      { s.tail with xfer := some ⟨false, slot % 256, key % 256, s.f TAIL_EXP_ADDR_ADDR4K, s.pin.gdl.length⟩ } ∧ t.on (TAIL_CAT_STAT_IN_USE
      (slot % 256)) = true ∧ Keeps (fun a => a = TAIL_EXP_CTRL ∨ a = TAIL_EXP_STAT ∨ a = TAIL_CAT_STAT (slot % 256)) [.tail] s t) ∧
    (∀ (key i : Nat), s.blockGated 36 = false → s.on TAIL_EXP_STAT_BUSY = false → s.alarmed = false → s.slotPick = some (i, false) → ∃ t,
      exec (.importSlot key) s = .next t ∧ t.on TAIL_EXP_STAT_BUSY = true ∧ t.on TAIL_EXP_STAT_DONE = false ∧ t.on TAIL_EXP_STAT_FAIL =
      false ∧ t.tail = { s.tail with xfer := some ⟨true, i, key % 256, s.f TAIL_EXP_ADDR_ADDR4K, s.pin.gdl.length⟩ } ∧ t.f
      (TAIL_CAT_STAT_STATE i) = 4 ∧ Keeps (fun a => a = TAIL_EXP_CTRL ∨ a = TAIL_EXP_STAT ∨ a = TAIL_CAT_STAT i) [.tail] s t) ∧
    (∀ (x : Transfer), s.blockGated 36 = false → s.tail.xfer = some x → ∃ t, exec (.transferAbort) s = .next t ∧ t.on TAIL_EXP_STAT_BUSY =
      false ∧ t.on TAIL_EXP_STAT_FAIL = true ∧ t.f TAIL_EXP_STAT_CAUSE = 7 ∧ t.tail.xfer = none ∧ (x.imp = true → t.f (TAIL_CAT_STAT_STATE
      x.slot) = 0) ∧ (t.reg (HIF_IRQ_STAT 5)).toNat.testBit 23 = true ∧ Keeps (fun a => a = TAIL_EXP_STAT ∨ a = TAIL_CAT_STAT x.slot ∨ a =
      HIF_IRQ_STAT 5) [.host, .tail, .mesh] s t) ∧
    (∀ (gdl box : Nat) (x : Transfer), s.tail.xfer = some x → x.wait = 0 → s.gdlLoad = false → gdl % 256 = 4 ∧ x.imp = true ∨ gdl % 256 ≠
      4 ∧ s.on GDL_STAT_PRESENT = false → ∃ t, exec (.transferEnd gdl box) s = .next t ∧ t.on TAIL_EXP_STAT_BUSY = false ∧ t.on
      TAIL_EXP_STAT_FAIL = true ∧ t.f TAIL_EXP_STAT_CAUSE = 4 ∧ t.tail.xfer = none ∧ (x.imp = true → t.f (TAIL_CAT_STAT_STATE x.slot) = 0)
      ∧ (t.reg (HIF_IRQ_STAT 5)).toNat.testBit 23 = true ∧ Keeps (fun a => a = TAIL_EXP_STAT ∨ a = TAIL_CAT_STAT x.slot ∨ a = HIF_IRQ_STAT
      5) [.host, .tail, .mesh] s t) ∧
    (∀ (gdl box c : Nat) (x : Transfer) (u : State), s.tail.xfer = some x → x.wait = 0 → s.gdlLoad = false → gdl % 256 ≠ 4 → s.on
      GDL_STAT_PRESENT = true → x.imp = true → s.boxTake x box = (u, c) → ∃ t, exec (.transferEnd gdl box) s = .next t ∧ t = (u.xferEnd
      c).settle) ∧
    (∀ (gdl box c : Nat) (x : Transfer) (u : State), s.tail.xfer = some x → x.wait = 0 → s.gdlLoad = false → gdl % 256 ≠ 4 → s.on
      GDL_STAT_PRESENT = true → x.imp = false → s.pin.idBad = false → s.f GDL_LIFE_RESERVE < s.f GDL_LIFE_LIFE → s.boxOut x = (u, c) → ∃
      t, exec (.transferEnd gdl box) s = .next t ∧ t = (u.xferEnd c).settle) ∧
    (∀ (x : Transfer), s.tail.xfer = some x → (s.xferEnd 0).on TAIL_EXP_STAT_BUSY = false ∧ (s.xferEnd 0).on TAIL_EXP_STAT_DONE = true ∧
      (s.xferEnd 0).f TAIL_EXP_STAT_CAUSE = 0 ∧ (s.xferEnd 0).tail.xfer = none ∧ (x.imp = true → (s.xferEnd 0).f (TAIL_CAT_STAT_STATE
      x.slot) = 2 ∧ (s.xferEnd 0).f TAIL_EXP_STAT_SLOT = x.slot % 256) ∧ ((s.xferEnd 0).reg (HIF_IRQ_STAT 5)).toNat.testBit 23 = true) ∧
    (∀ (c : Nat) (x : Transfer), s.tail.xfer = some x → 0 < c → c < 256 → (s.xferEnd c).on TAIL_EXP_STAT_BUSY = false ∧ (s.xferEnd c).on
      TAIL_EXP_STAT_FAIL = true ∧ (s.xferEnd c).f TAIL_EXP_STAT_CAUSE = c ∧ (s.xferEnd c).tail.xfer = none ∧ (x.imp = true → (s.xferEnd
      c).f (TAIL_CAT_STAT_STATE x.slot) = 0))

/-- MESH_REQUEST sends the one queued access of a source that no fence holds: an unmapped one completes UNMAPPED at its port; any other
  departs (its tag is busy) and its packet enters the input buffer of its port and VC, when that has room; then the flits in the mesh
  move on. A response frees its busy tag and is delivered to its requester with status and data. INI_TMO quarantines a busy tag and
  completes the access TIMED_OUT. ABSORB of a port that holds requests answers each one ABSORBED; RESUME ends it with an empty stale
  map. The monitor window loads the byte counts and starts anew; CLR_HIST clears the histograms; an interrupt packet sets the pending
  bits of the inputs it is routed to. With no flit in the mesh nothing moves. A path of 96 ports ends at its router within 9; a flit
  with a credit moves to the buffer of the next router; a request that reaches a stack controller with room waits there, one that
  reaches a register is answered. (Shown to complete, each with its own effect: meshRequest, meshResponse, iniTmo, absorb, meshResume,
  meshMonitorWindow, clrHist, irqMsg.) -/
def Obligations.MeshAccesses : Prop :=
  ∀ s : State, s.Calm → 
    (∀ (src g : Nat) (a : Acc) (stuck : Bool), s.meshRuns = true → 0 < src → src < 48 → a.src = src → a.tag = g → g < 64 → s.mesh.out =
      [64 * src + g] → s.tagAt (64 * src + g) = .queued a → s.accHeld a = false → s.decodeDest a.addr = .unmapped ∨ s.storeGuarded src
      a.addr = true → ∃ t, exec (.meshRequest src ⟨false, none, 0⟩ stuck) s = .next t ∧ t = (s.sendUnmapped a).netMove (if stuck then some
      (64 * src + g) else none) ∧ (s.sendUnmapped a).tagAt (64 * src + g) = .idle ∧ (s.sendUnmapped a).mesh.out = [] ∧ (s.sendUnmapped
      a).mesh.buf = s.mesh.buf ∧ mget (s.sendUnmapped a).mesh.inbox [] src = mget s.mesh.inbox [] src ++ [(a, ⟨1, 0, 0, 0⟩)] ∧ Keeps (fun
      a => a = DEV_UNMAPPED_INFO ∨ a = DEV_UNMAPPED_ADDR ∨ a = HIF_IRQ_STAT 0 ∨ a = HIF_IRQ_STAT 4) [.mesh, .host, .tail] s
      ((s.sendUnmapped a))) ∧
    (∀ (src g : Nat) (a : Acc) (stuck : Bool), s.meshRuns = true → 0 < src → src < 48 → a.src = src → a.tag = g → g < 64 → s.mesh.out =
      [64 * src + g] → s.tagAt (64 * src + g) = .queued a → s.accHeld a = false → s.decodeDest a.addr ≠ .unmapped → s.storeGuarded src
      a.addr = false → (s.bufOf (4 * (8 * ((backPort a.src (s.decodeDest a.addr).port) / 4) + (backPort a.src (s.decodeDest a.addr).port)
      % 4) + portVc a.src (s.decodeDest a.addr).port)).length + (reqPacket a (s.decodeDest a.addr).port).length ≤ 8 → ∃ t, exec
      (.meshRequest src ⟨false, none, 0⟩ stuck) s = .next t ∧ t = ((s.meshSend a ⟨false, none, 0⟩).1).netMove (if stuck then some (64 *
      src + g) else none) ∧ ((s.meshSend a ⟨false, none, 0⟩).1).tagAt (64 * src + g) = .busy a false ∧ ((s.meshSend a ⟨false, none,
      0⟩).1).mesh.out = [] ∧ ((s.meshSend a ⟨false, none, 0⟩).1).bufOf (4 * (8 * ((backPort a.src (s.decodeDest a.addr).port) / 4) +
      (backPort a.src (s.decodeDest a.addr).port) % 4) + portVc a.src (s.decodeDest a.addr).port) = s.bufOf (4 * (8 * ((backPort a.src
      (s.decodeDest a.addr).port) / 4) + (backPort a.src (s.decodeDest a.addr).port) % 4) + portVc a.src (s.decodeDest a.addr).port) ++
      reqPacket a (s.decodeDest a.addr).port ∧ (∀ j : Nat, j ≠ (4 * (8 * ((backPort a.src (s.decodeDest a.addr).port) / 4) + (backPort
      a.src (s.decodeDest a.addr).port) % 4) + portVc a.src (s.decodeDest a.addr).port) → ((s.meshSend a ⟨false, none, 0⟩).1).bufOf j =
      s.bufOf j) ∧ ((s.meshSend a ⟨false, none, 0⟩).1).mesh.waiting = s.mesh.waiting ∧ ((s.meshSend a ⟨false, none, 0⟩).1).mesh.rsps =
      s.mesh.rsps ∧ Keeps (fun a => a = MESH_INI_STAT src) [.mesh] s (((s.meshSend a ⟨false, none, 0⟩).1))) ∧
    (s.mesh.buf = [] → s.mesh.vc3 = [] → s.netMove none = s) ∧
    (∀ (p q : Nat), p < 96 → q < 96 → (path p q).head? = some (p / 4, p % 4) ∧ (path p q).getLast?.map Prod.fst = some (q / 4) ∧ (path p
      q).length ≤ 9) ∧
    (∀ (o k : Nat) (f : NFlit) (l : List NFlit) (x : Option Nat), 4 ≤ o → o < 8 → nextBuf (k / 32) o (k % 4) ≠ k → s.bufOf k = f :: l →
      (s.moveFlit o k x).2 = true ∧ (s.moveFlit o k x).1.bufOf k = l ∧ (s.moveFlit o k x).1.bufOf (nextBuf (k / 32) o (k % 4)) = s.bufOf
      (nextBuf (k / 32) o (k % 4)) ++ [f] ∧ (∀ j : Nat, j ≠ k → j ≠ nextBuf (k / 32) o (k % 4) → (s.moveFlit o k x).1.bufOf j = s.bufOf j)
      ∧ Keeps (fun a => False) [.mesh] s ((s.moveFlit o k x).1)) ∧
    (∀ (k : Nat) (a : Acc), s.absorbed (64 + 4 * k) = false → s.blockGated (32 + k) = false → sizeOk a.addr a.size = true → (s.keyAt
      a.addr).isSome = true → (s.waits (64 + 4 * k)).length < 256 → s.memPorts = true → s.hbmPll k = true → s.reach a (.stack k) false =
      (s.waitAt (64 + 4 * k) a, true) ∧ (s.waitAt (64 + 4 * k) a).waits (64 + 4 * k) = s.waits (64 + 4 * k) ++ [⟨a, false, s.fig.toNat⟩] ∧
      Keeps (fun a => False) [.mesh] s (s.waitAt (64 + 4 * k) a)) ∧
    (∀ (off : Nat) (a : Acc) (u : State) (r : Rsp), s.absorbed (hubPort off) = false → s.hubAcc a off = (u, some r) → s.reach a (.hub off)
      false = (u.meshAnswer (hubPort off) a r, true) ∧ (u.meshAnswer (hubPort off) a r).mesh.rsps = u.mesh.rsps ++ [rspPacket a (hubPort
      off) r.norm]) ∧
    (∀ (src g lat : Nat) (a : Acc) (l : List NFlit), s.meshRuns = true → 0 < src → src < 48 → g < 64 → a.src = src → a.tag = g →
      s.mesh.rsps = [l] → keyOf l = 64 * src + g → s.tagAt (64 * src + g) = .busy a false → ∃ t, exec (.meshResponse src g lat ⟨false,
      none, 0⟩) s = .next t ∧ t = (((s.setMesh { s.mesh with rsps := [] }).takeRsp src g lat (rspOf l) ⟨false, none, 0⟩).netMove
      none).settle ∧ ((s.setMesh { s.mesh with rsps := [] }).takeRsp src g lat (rspOf l) ⟨false, none, 0⟩).tagAt (64 * src + g) = .idle ∧
      ((s.setMesh { s.mesh with rsps := [] }).takeRsp src g lat (rspOf l) ⟨false, none, 0⟩).mesh.rsps = [] ∧ mget ((s.setMesh
      { s.mesh with rsps := [] }).takeRsp src g lat (rspOf l) ⟨false, none, 0⟩).mesh.inbox [] src = mget s.mesh.inbox [] src ++ [(a, rspOf
      l)] ∧ Keeps (fun a => InBlocks [5] a) [.mesh] s (((s.setMesh { s.mesh with rsps := [] }).takeRsp src g lat (rspOf l) ⟨false, none,
      0⟩))) ∧
    (∀ (src g : Nat) (a : Acc), 0 < src → src < 48 → g < 64 → a.src = src → a.tag = g → s.tagAt (64 * src + g) = .busy a false → ∃ t, exec
      (.iniTmo src g) s = .next t ∧ t.tagAt (64 * src + g) = .quarantined ∧ mget t.mesh.inbox [] src = mget s.mesh.inbox [] src ++ [(a,
      ⟨3, 0, 0, 0⟩)] ∧ (t.reg (HIF_IRQ_STAT 6)).toNat.testBit 1 = true ∧ Keeps (fun a => InBlocks [5] a ∨ a = HIF_IRQ_STAT 6) [.mesh,
      .host, .tail] s t) ∧
    (∀ (k : Nat), k < 96 → s.on (MESH_TGT_CFG_PRESENT k) = true → s.on (MESH_TGT_CFG_EXEMPT k) = false → s.absorbed k = false →
      s.portHolds k = true → ∃ t, exec (.absorb k) s = .next t ∧ t = (((s.put (MESH_TGT_STAT_STATE k) 1).meshErr 1 (k / 4) (k % 4) 0 0
      |>.raise 192).absorbWaits k).netMove none ∧ (((s.put (MESH_TGT_STAT_STATE k) 1).meshErr 1 (k / 4) (k % 4) 0 0 |>.raise
      192).absorbWaits k).absorbed k = true ∧ (((s.put (MESH_TGT_STAT_STATE k) 1).meshErr 1 (k / 4) (k % 4) 0 0 |>.raise 192).absorbWaits
      k).mesh.rsps = s.mesh.rsps ++ (((s.waits k).filter (fun w => !w.ghost)).map (fun w => rspPacket w.acc k ⟨2, 0, 0, 0⟩)) ++ (mget
      s.mesh.vc3 [] k).map (fun a => rspPacket a k ⟨2, 0, 0, 0⟩) ∧ (((s.put (MESH_TGT_STAT_STATE k) 1).meshErr 1 (k / 4) (k % 4) 0 0
      |>.raise 192).absorbWaits k).waits k = (s.waits k).map (fun w => { w with ghost := true }) ∧ mget (((s.put (MESH_TGT_STAT_STATE k)
      1).meshErr 1 (k / 4) (k % 4) 0 0 |>.raise 192).absorbWaits k).mesh.vc3 [] k = [] ∧ (((((s.put (MESH_TGT_STAT_STATE k) 1).meshErr 1
      (k / 4) (k % 4) 0 0 |>.raise 192).absorbWaits k)).reg (HIF_IRQ_STAT 6)).toNat.testBit 0 = true ∧ Keeps (fun a => InBlocks [5] a ∨ a
      = HIF_IRQ_STAT 6) [.mesh, .host, .tail] s ((((s.put (MESH_TGT_STAT_STATE k) 1).meshErr 1 (k / 4) (k % 4) 0 0 |>.raise
      192).absorbWaits k))) ∧
    (∀ (k : Nat), k < 96 → s.absorbed k = true → ∃ t, exec (.meshResume k) s = .next t ∧ t.absorbed k = false ∧ t.f (MESH_TGT_STAT_STALE
      k) = 0 ∧ t.mesh = { s.mesh with stale := s.mesh.stale.filter (fun e => e.1 != k) } ∧ Keeps (fun a => a = MESH_TGT_STAT k) [.mesh] s
      t) ∧
    (∃ t, exec (.meshMonitorWindow) s = .next t ∧ (∀ i : Nat, i < 48 → t.f (MESH_INI_RDB_COUNT i) = mget s.mesh.monBytes 0 (2 * i) % 2 ^
      32 ∧ t.f (MESH_INI_WRB_COUNT i) = mget s.mesh.monBytes 0 (2 * i + 1) % 2 ^ 32) ∧ t.mesh = { s.mesh with monBytes := [] } ∧ Keeps
      (fun a => a ∈ (List.range 48).map MESH_INI_RDB ∨ a ∈ (List.range 48).map MESH_INI_WRB) [.mesh] s t) ∧
    (∃ t, exec (.clrHist) s = .next t ∧ (∀ i : Nat, i < 48 → (List.range 16).all (fun j => t.reg (MESH_INI_HIST i j) == 0) = true) ∧ Keeps
      (fun a => MESH_INI_HIST 0 0 ≤ a ∧ a < MESH_INI_HIST 48 0) [] s t) ∧
    (∀ (c i : Nat), c < 17 → (c, i) ∈ s.mesh.irqMsgs → s.coreSt c ≠ 0 → s.on (MESH_TGT_STAT_STATE (corePort c)) = false → ∃ t, exec
      (.irqMsg c i ⟨false, none, 0⟩) s = .next t ∧ t.mesh = { s.mesh with irqMsgs := s.mesh.irqMsgs.erase (c, i) } ∧ (∀ j : Nat, j < 64 →
      t.irqPend c j = (s.irqPend c j || decide (j ∈ s.routedInputs c i))) ∧ Keeps (fun a => a = ST_IRQ_PEND_LO c ∨ a = ST_IRQ_PEND_HI c)
      [.mesh] s t)

/-- A full-line write that stack controller k holds and serves stores the line under the key pair, answers OK, and leaves every word of the
  data region but the eight of the line. A read of a line whose tag says UNWRITTEN answers zeros without poison and leaves every word of
  the data region; any other read that a controller serves answers what the line read gives, cut to the bytes of the access. A partial
  write without poison of an UNWRITTEN line stores the line with its bytes and zeros elsewhere. The tag is read through the cache of tag
  lines. (Of a read: its source is not 22, which only peeks; no alarm for a tag failure is set to act.) (Shown to complete, each with
  its own effect: fullLineWrite, hbmRead, partialWrite.) -/
def Obligations.HbmAccesses : Prop :=
  ∀ s : State, s.Calm → 
    (∀ (k i : Nat) (a : Acc) (kp : KeyPair), s.memHeld k i = some a → k < 4 → s.memServe (a.addr / 64 * 64) = .inr kp → s.absorbed (64 + 4
      * k) = false → a.write = true → a.be = 2 ^ 64 - 1 → ∃ t, exec (.fullLineWrite k i false) s = .next t ∧ t.hbm = ((s.tagRead (a.addr /
      64 * 64)).lineStoreK kp (a.addr / 64 * 64) a.data a.poison).hbm ∧ (∀ j : Nat, 8 * j < 0x001680000000 → j / 8 ≠ a.addr / 64 → mget
      t.hbm.words 0 j = mget s.hbm.words 0 j) ∧ t.mesh.rsps = s.mesh.rsps ++ [rspPacket a (64 + 4 * k) ⟨0, 0, 0, 0⟩] ∧ t.waits (64 + 4 *
      k) = dropAt (s.waits (64 + 4 * k)) i ∧ Keeps (fun a => InBlocks [3, 4] a ∨ a = HIF_IRQ_STAT 6) [.hbm, .mesh, .intg, .host, .tail] s
      t) ∧
    (∀ (k i : Nat) (a : Acc) (kp : KeyPair), s.memHeld k i = some a → k < 4 → s.memServe (a.addr / 64 * 64) = .inr kp → s.absorbed (64 + 4
      * k) = false → a.write = false → a.src ≠ 22 → (s.tagRead (a.addr / 64 * 64)).tagOf (a.addr / 64 * 64) = tagUnwritten → ∃ t, exec
      (.hbmRead k i [] false) s = .next t ∧ t.hbm = (s.tagRead (a.addr / 64 * 64)).hbm ∧ (∀ j : Nat, 8 * j < 0x001680000000 → mget
      t.hbm.words 0 j = mget s.hbm.words 0 j) ∧ t.mesh.rsps = s.mesh.rsps ++ [rspPacket a (64 + 4 * k) ⟨0, 0, 0, 0⟩] ∧ t.waits (64 + 4 *
      k) = dropAt (s.waits (64 + 4 * k)) i ∧ Keeps (fun a => InBlocks [3, 4] a ∨ a = HIF_IRQ_STAT 6) [.hbm, .mesh, .intg, .host, .tail] s
      t) ∧
    (∀ (k i : Nat) (up : List (Nat × Nat)) (a : Acc) (kp : KeyPair), s.memHeld k i = some a → k < 4 → s.memServe (a.addr / 64 * 64) = .inr
      kp → (s.f SEC_ALARM_CFG_ACTION).testBit 1 = false → s.absorbed (64 + 4 * k) = false → a.write = false → a.src ≠ 22 → ∃ t, exec
      (.hbmRead k i up false) s = .next t ∧ t.hbm = (s.lineRead a.src (a.addr / 64 * 64) up).1.hbm ∧ t.mesh.rsps = s.mesh.rsps ++
      [rspPacket a (64 + 4 * k) ((s.lineRead a.src (a.addr / 64 * 64) up).2.cut a).norm] ∧ t.waits (64 + 4 * k) = dropAt (s.waits (64 + 4
      * k)) i ∧ t.pending = s.pending) ∧
    (∀ (k i : Nat) (a : Acc) (kp : KeyPair), s.memHeld k i = some a → k < 4 → s.memServe (a.addr / 64 * 64) = .inr kp → s.absorbed (64 + 4
      * k) = false → a.write = true → a.be ≠ 2 ^ 64 - 1 → a.poison = 0 → (s.tagRead (a.addr / 64 * 64)).tagOf (a.addr / 64 * 64) =
      tagUnwritten → ∃ t, exec (.partialWrite k i [] false) s = .next t ∧ t.hbm = ((s.tagRead (a.addr / 64 * 64)).lineStoreK kp (a.addr /
      64 * 64) (a.data &&& joinWords ((List.range 8).map (fun w => beMask (wordBe a.be w)))) 0).hbm ∧ (∀ j : Nat, 8 * j < 0x001680000000 →
      j / 8 ≠ a.addr / 64 → mget t.hbm.words 0 j = mget s.hbm.words 0 j) ∧ t.mesh.rsps = s.mesh.rsps ++ [rspPacket a (64 + 4 * k) ⟨0, 0,
      0, 0⟩] ∧ t.waits (64 + 4 * k) = dropAt (s.waits (64 + 4 * k)) i ∧ Keeps (fun a => InBlocks [3, 4] a ∨ a = HIF_IRQ_STAT 6) [.hbm,
      .mesh, .intg, .host, .tail] s t)

/-- TEMP_READ shows the temperature and HOT, and raises EV_MEM_TEMP (203) above ALERT_C. A stack with an open gate leaves self-refresh for
  UP above state 2. INIT with no keys starts training with INIT_BUSY; INIT_DONE with no failing stack loads the pair, empties the tags,
  takes every stack that has not failed UP, KEYS 1, and raises EV_MEM_INIT (201); no boot waits for it. REKEY with keys and no training
  stack keeps the old pair and starts the sweep at 0. SWEEP_LINE of an unwritten line only moves the pointer on by 1 and sets the time
  of the next. A refused INIT or REKEY sets REFUSED. (Shown to complete, each with its own effect: tempRead, selfRefreshExit, memInit,
  initDone, memRekey, sweepLine.) -/
def Obligations.HbmBringUp : Prop :=
  ∀ s : State, s.Calm → 
    (∀ (k temp : Nat), k < 4 → mget s.clk.gate .opened (32 + k) ≠ .closed → ∃ t, exec (.tempRead k temp) s = .next t ∧ t.f
      (MEM_STACK_STAT_TEMP k) = temp % 256 ∧ t.on (MEM_STACK_STAT_HOT k) = decide (s.f (MEM_STACK_CFG_HOT_C k) < temp % 256) ∧ (s.f
      (MEM_STACK_CFG_ALERT_C k) < temp % 256 → (t.reg (HIF_IRQ_STAT 6)).toNat.testBit 11 = true) ∧ Keeps (fun a => a = MEM_STACK_STAT k ∨
      a = BAL_THERM_STAT ∨ a = HIF_IRQ_STAT 6) [.host, .tail, .mesh] s t) ∧
    (∀ (k : Nat), k < 4 → s.stackSt k = 3 → mget s.clk.gate .opened (32 + k) ≠ .closed → s.power < 2 → ∃ t, exec (.selfRefreshExit k) s =
      .next t ∧ s.f (MEM_STACK_STAT_STATE k) = 3 ∧ t.f (MEM_STACK_STAT_STATE k) = 2 ∧ Keeps (fun a => a = MEM_STACK_STAT k) [] s t) ∧
    (s.f MEM_STAT_KEYS = 0 ∨ s.f MEM_STAT_KEYS = 3 → s.on MEM_STAT_INIT_BUSY = false → s.alarmed = false → ∃ t, exec (.memInit) s = .next
      t ∧ t.on MEM_STAT_INIT_BUSY = true ∧ (∀ k : Nat, k < 4 → t.stackSt k = if s.stackSt k = 4 then 4 else 1) ∧ Keeps (fun a => a =
      MEM_STAT ∨ a ∈ (List.range 4).map MEM_STACK_STAT) [] s t) ∧
    (s.f MEM_STAT_KEYS = 1 ∨ s.f MEM_STAT_KEYS = 2 ∨ s.on MEM_STAT_INIT_BUSY = true ∨ s.alarmed = true → ∃ t, exec (.memInit) s = .next t
      ∧ t.on MEM_STAT_REFUSED = true ∧ Keeps (fun a => a = MEM_STAT) [] s t) ∧
    (∀ (keys : KeyPair), s.on MEM_STAT_INIT_BUSY = true → s.power < 2 → s.bootAt 2 = false → ∃ t, exec (.initDone keys 0) s = .next t ∧
      t.hbm.keys = some keys ∧ t.hbm.old = none ∧ t.hbm.cache = [] ∧ t.hbm.swept = [] ∧ t.f MEM_STAT_KEYS = 1 ∧ t.on MEM_STAT_INIT_BUSY =
      false ∧ (∀ k : Nat, k < 4 → t.stackSt k = if s.stackSt k = 4 then 4 else 2) ∧ (∀ a : Nat, a < 0x001680000000 → t.tagOf (a / 64 * 64)
      = tagUnwritten) ∧ (∀ j : Nat, 8 * j < 0x001680000000 → mget t.hbm.words 0 j = mget s.hbm.words 0 j) ∧ (t.reg (HIF_IRQ_STAT
      6)).toNat.testBit 9 = true ∧ Keeps (fun a => InBlocks [4] a ∨ a = HIF_IRQ_STAT 6) [.hbm, .host, .tail, .mesh] s t) ∧
    (∀ (keys : KeyPair), s.f MEM_STAT_KEYS = 1 → s.on MEM_STAT_INIT_BUSY = false → ∀ k : Nat, k < 4 → s.stackSt k ≠ 1 → ∃ t, exec
      (.memRekey keys) s = .next t ∧ t.hbm = { s.hbm with keys := some keys, old := s.hbm.keys } ∧ t.f MEM_STAT_KEYS = 2 ∧ (∀ k : Nat, k <
      4 → t.f (MEM_REKEY_PTR_PTR k) = 0) ∧ Keeps (fun a => InBlocks [4] a ∨ InBlocks [10] a ∨ a = HIF_IRQ_STAT 10) [.hbm, .bal, .host,
      .tail, .mesh] s t) ∧
    (∀ (keys : KeyPair), s.f MEM_STAT_KEYS ≠ 1 ∨ s.on MEM_STAT_INIT_BUSY = true → ∃ t, exec (.memRekey keys) s = .next t ∧ t.on
      MEM_STAT_REFUSED = true ∧ t.hbm = s.hbm ∧ Keeps (fun a => a = MEM_STAT) [] s t) ∧
    (∀ (k : Nat), k < 4 → s.f MEM_STAT_KEYS = 2 → s.stackSt k = 2 → mget s.clk.gate .opened (32 + k) ≠ .closed → s.f (MEM_REKEY_PTR_PTR k)
      + 1 < stackLines → s.sweepOk k = true → ((s.sweepPace k).tagRead (lineAddr k (s.f (MEM_REKEY_PTR_PTR k)))).tagOf (lineAddr k (s.f
      (MEM_REKEY_PTR_PTR k))) = tagUnwritten → ∃ t, exec (.sweepLine k []) s = .next t ∧ t.f (MEM_REKEY_PTR_PTR k) = s.f
      (MEM_REKEY_PTR_PTR k) + 1 ∧ t.hbm = ((s.sweepPace k).tagRead (lineAddr k (s.f (MEM_REKEY_PTR_PTR k)))).hbm ∧ mget t.hbm.swept 0 k =
      s.hbmCycles + max 16 (s.f MEM_CTRL_SWEEP_DIV) ∧ t.f MEM_STAT_KEYS = 2 ∧ Keeps (fun a => InBlocks [3, 4] a ∨ a = HIF_IRQ_STAT 6)
      [.hbm, .mesh, .intg, .host, .tail] s t)

/-- A core that runs, with no open repeat level and no step under way, and issues an ALU instruction with the operands a and b, writes the
  result to RD (CMP and TST write none), sets Z and N by the result, C and V for ADD, SUB, ADC, SBC and CMP by the sum or difference (C
  = 1 means no borrow), C of a shift by the last bit out, and goes on at PC + 4. A shift by 0 gives the operand and leaves C a free
  value (log entry 21). Nothing but the core and its ST_STAT changes. (Shown to complete, each with its own effect: aluAdd, aluSub,
  aluAdc, aluSbc, aluAnd, aluOr, aluXor, aluShl, aluShr, aluSar, aluCmp, aluTst, aluMin, aluMax.) -/
def Obligations.CoreAlu : Prop :=
  ∀ s : State, 
    (∀ (c : Nat) (w : Word) (a b : Nat), s.Issues c w 32 → s.Flows c → (s.coreOf c).aluOperands w = (a, b) → ∃ t, exec (.aluAdd c w) s =
      .next t ∧ s.CoreStep t c ((((s.coreOf c).aluDest w ((a + b) % 2 ^ 16))).setCtl 0 (setFlags (s.coreOf c).sr (some ((a + b) % 2 ^ 16
      == 0)) (some (((a + b) % 2 ^ 16).testBit 15)) (some (decide (2 ^ 16 ≤ a + b))) (some (decide (sext 16 a + sext 16 b < -32768 ∨ 32767
      < sext 16 a + sext 16 b))))) (nextPc (s.pcOf c))) ∧
    (∀ (c : Nat) (w : Word) (a b : Nat), s.Issues c w 33 → s.Flows c → (s.coreOf c).aluOperands w = (a, b) → ∃ t, exec (.aluSub c w) s =
      .next t ∧ s.CoreStep t c ((((s.coreOf c).aluDest w ((a + 2 ^ 16 - b) % 2 ^ 16))).setCtl 0 (setFlags (s.coreOf c).sr (some ((a + 2 ^
      16 - b) % 2 ^ 16 == 0)) (some (((a + 2 ^ 16 - b) % 2 ^ 16).testBit 15)) (some (decide (b ≤ a))) (some (decide (sext 16 a - sext 16 b
      < -32768 ∨ 32767 < sext 16 a - sext 16 b))))) (nextPc (s.pcOf c))) ∧
    (∀ (c : Nat) (w : Word) (a b : Nat), s.Issues c w 34 → s.Flows c → (s.coreOf c).aluOperands w = (a, b) → ∃ t, exec (.aluAdc c w) s =
      .next t ∧ s.CoreStep t c ((((s.coreOf c).aluDest w ((a + b + b2n ((s.coreOf c).sr.testBit 1)) % 2 ^ 16))).setCtl 0 (setFlags
      (s.coreOf c).sr (some ((a + b + b2n ((s.coreOf c).sr.testBit 1)) % 2 ^ 16 == 0)) (some (((a + b + b2n ((s.coreOf c).sr.testBit 1)) %
      2 ^ 16).testBit 15)) (some (decide (2 ^ 16 ≤ a + b + b2n ((s.coreOf c).sr.testBit 1)))) (some (decide (sext 16 a + sext 16 b + (b2n
      ((s.coreOf c).sr.testBit 1) : Nat) < -32768 ∨ 32767 < sext 16 a + sext 16 b + (b2n ((s.coreOf c).sr.testBit 1) : Nat)))))) (nextPc
      (s.pcOf c))) ∧
    (∀ (c : Nat) (w : Word) (a b : Nat), s.Issues c w 35 → s.Flows c → (s.coreOf c).aluOperands w = (a, b) → ∃ t, exec (.aluSbc c w) s =
      .next t ∧ s.CoreStep t c ((((s.coreOf c).aluDest w ((a + 2 ^ 16 - b - 1 + b2n ((s.coreOf c).sr.testBit 1)) % 2 ^ 16))).setCtl 0
      (setFlags (s.coreOf c).sr (some ((a + 2 ^ 16 - b - 1 + b2n ((s.coreOf c).sr.testBit 1)) % 2 ^ 16 == 0)) (some (((a + 2 ^ 16 - b - 1
      + b2n ((s.coreOf c).sr.testBit 1)) % 2 ^ 16).testBit 15)) (some (decide (b + 1 ≤ a + b2n ((s.coreOf c).sr.testBit 1)))) (some
      (decide (sext 16 a - sext 16 b - 1 + (b2n ((s.coreOf c).sr.testBit 1) : Nat) < -32768 ∨ 32767 < sext 16 a - sext 16 b - 1 + (b2n
      ((s.coreOf c).sr.testBit 1) : Nat)))))) (nextPc (s.pcOf c))) ∧
    (∀ (c : Nat) (w : Word) (a b : Nat), s.Issues c w 36 → s.Flows c → (s.coreOf c).aluOperands w = (a, b) → ∃ t, exec (.aluAnd c w) s =
      .next t ∧ s.CoreStep t c ((((s.coreOf c).aluDest w ((a &&& b)))).setCtl 0 (setFlags (s.coreOf c).sr (some ((a &&& b) == 0)) (some
      (((a &&& b)).testBit 15)) (none) (none))) (nextPc (s.pcOf c))) ∧
    (∀ (c : Nat) (w : Word) (a b : Nat), s.Issues c w 37 → s.Flows c → (s.coreOf c).aluOperands w = (a, b) → ∃ t, exec (.aluOr c w) s =
      .next t ∧ s.CoreStep t c ((((s.coreOf c).aluDest w ((a ||| b)))).setCtl 0 (setFlags (s.coreOf c).sr (some ((a ||| b) == 0)) (some
      (((a ||| b)).testBit 15)) (none) (none))) (nextPc (s.pcOf c))) ∧
    (∀ (c : Nat) (w : Word) (a b : Nat), s.Issues c w 38 → s.Flows c → (s.coreOf c).aluOperands w = (a, b) → ∃ t, exec (.aluXor c w) s =
      .next t ∧ s.CoreStep t c ((((s.coreOf c).aluDest w ((a ^^^ b)))).setCtl 0 (setFlags (s.coreOf c).sr (some ((a ^^^ b) == 0)) (some
      (((a ^^^ b)).testBit 15)) (none) (none))) (nextPc (s.pcOf c))) ∧
    (∀ (c : Nat) (w : Word) (a b : Nat), s.Issues c w 39 → s.Flows c → (s.coreOf c).aluOperands w = (a, b) → b % 16 ≠ 0 → ∃ t, exec
      (.aluShl c w) s = .next t ∧ s.CoreStep t c ((((s.coreOf c).aluDest w ((a * 2 ^ (b % 16)) % 2 ^ 16))).setCtl 0 (setFlags (s.coreOf
      c).sr (some ((a * 2 ^ (b % 16)) % 2 ^ 16 == 0)) (some (((a * 2 ^ (b % 16)) % 2 ^ 16).testBit 15)) (some (a.testBit (16 - b % 16)))
      (none))) (nextPc (s.pcOf c))) ∧
    (∀ (c : Nat) (w : Word) (a b : Nat), s.Issues c w 40 → s.Flows c → (s.coreOf c).aluOperands w = (a, b) → b % 16 ≠ 0 → ∃ t, exec
      (.aluShr c w) s = .next t ∧ s.CoreStep t c ((((s.coreOf c).aluDest w ((a / 2 ^ (b % 16))))).setCtl 0 (setFlags (s.coreOf c).sr (some
      ((a / 2 ^ (b % 16)) == 0)) (some (((a / 2 ^ (b % 16))).testBit 15)) (some (a.testBit (b % 16 - 1))) (none))) (nextPc (s.pcOf c))) ∧
    (∀ (c : Nat) (w : Word) (a b : Nat), s.Issues c w 41 → s.Flows c → (s.coreOf c).aluOperands w = (a, b) → b % 16 ≠ 0 → ∃ t, exec
      (.aluSar c w) s = .next t ∧ s.CoreStep t c ((((s.coreOf c).aluDest w ((wrap 16 (sext 16 a / 2 ^ (b % 16)))))).setCtl 0 (setFlags
      (s.coreOf c).sr (some ((wrap 16 (sext 16 a / 2 ^ (b % 16))) == 0)) (some (((wrap 16 (sext 16 a / 2 ^ (b % 16)))).testBit 15)) (some
      (a.testBit (b % 16 - 1))) (none))) (nextPc (s.pcOf c))) ∧
    (∀ (c : Nat) (w : Word) (a b : Nat), s.Issues c w 39 → s.Flows c → (s.coreOf c).aluOperands w = (a, b) → b % 16 = 0 → ∃ t, exec
      (.aluShl c w) s = .next t ∧ ∃ q : Bool, s.CoreStep t c ((((s.coreOf c).aluDest w a)).setCtl 0 (setFlags (s.coreOf c).sr (some (a ==
      0)) (some (a.testBit 15)) (some q) none)) (nextPc (s.pcOf c))) ∧
    (∀ (c : Nat) (w : Word) (a b : Nat), s.Issues c w 40 → s.Flows c → (s.coreOf c).aluOperands w = (a, b) → b % 16 = 0 → ∃ t, exec
      (.aluShr c w) s = .next t ∧ ∃ q : Bool, s.CoreStep t c ((((s.coreOf c).aluDest w a)).setCtl 0 (setFlags (s.coreOf c).sr (some (a ==
      0)) (some (a.testBit 15)) (some q) none)) (nextPc (s.pcOf c))) ∧
    (∀ (c : Nat) (w : Word) (a b : Nat), s.Issues c w 41 → s.Flows c → (s.coreOf c).aluOperands w = (a, b) → b % 16 = 0 → ∃ t, exec
      (.aluSar c w) s = .next t ∧ ∃ q : Bool, s.CoreStep t c ((((s.coreOf c).aluDest w a)).setCtl 0 (setFlags (s.coreOf c).sr (some (a ==
      0)) (some (a.testBit 15)) (some q) none)) (nextPc (s.pcOf c))) ∧
    (∀ (c : Nat) (w : Word) (a b : Nat), s.Issues c w 42 → s.Flows c → (s.coreOf c).aluOperands w = (a, b) → ∃ t, exec (.aluCmp c w) s =
      .next t ∧ s.CoreStep t c (((s.coreOf c)).setCtl 0 (setFlags (s.coreOf c).sr (some ((a + 2 ^ 16 - b) % 2 ^ 16 == 0)) (some (((a + 2 ^
      16 - b) % 2 ^ 16).testBit 15)) (some (decide (b ≤ a))) (some (decide (sext 16 a - sext 16 b < -32768 ∨ 32767 < sext 16 a - sext 16
      b))))) (nextPc (s.pcOf c))) ∧
    (∀ (c : Nat) (w : Word) (a b : Nat), s.Issues c w 43 → s.Flows c → (s.coreOf c).aluOperands w = (a, b) → ∃ t, exec (.aluTst c w) s =
      .next t ∧ s.CoreStep t c (((s.coreOf c)).setCtl 0 (setFlags (s.coreOf c).sr (some ((a &&& b) == 0)) (some (((a &&& b)).testBit 15))
      (none) (none))) (nextPc (s.pcOf c))) ∧
    (∀ (c : Nat) (w : Word) (a b : Nat), s.Issues c w 44 → s.Flows c → (s.coreOf c).aluOperands w = (a, b) → ∃ t, exec (.aluMin c w) s =
      .next t ∧ s.CoreStep t c ((((s.coreOf c).aluDest w ((if sext 16 a ≤ sext 16 b then a else b)))).setCtl 0 (setFlags (s.coreOf c).sr
      (some ((if sext 16 a ≤ sext 16 b then a else b) == 0)) (some (((if sext 16 a ≤ sext 16 b then a else b)).testBit 15)) (none)
      (none))) (nextPc (s.pcOf c))) ∧
    (∀ (c : Nat) (w : Word) (a b : Nat), s.Issues c w 45 → s.Flows c → (s.coreOf c).aluOperands w = (a, b) → ∃ t, exec (.aluMax c w) s =
      .next t ∧ s.CoreStep t c ((((s.coreOf c).aluDest w ((if sext 16 a ≤ sext 16 b then b else a)))).setCtl 0 (setFlags (s.coreOf c).sr
      (some ((if sext 16 a ≤ sext 16 b then b else a) == 0)) (some (((if sext 16 a ≤ sext 16 b then b else a)).testBit 15)) (none)
      (none))) (nextPc (s.pcOf c)))

/-- A MAC-format instruction without moves, in a datapath without fault and on an accumulator whose residue is right, gives the exact
  product, sum or difference of its operands (signed, or unsigned for MPYU and MACU, signed by unsigned for MACSU) wrapped to 40 bits
  with a fresh residue; the sums keep the poison of the accumulator, MPY, MPYU and CLR clear it. ASH shifts within -40 to 40, ASAT
  clamps to 32 bits, ARND rounds bits 15:0 away, AADD adds the accumulators and ORs their poison; these set Z, N and V. ADDP adds the
  signed operand to a pointer and sets no flag. (Shown to complete, each with its own effect: macMpy, macMac, macMsu, macMpyu, macMacu,
  macMacsu, macClr, aluAsh, aluAsat, aluArnd, aluAadd, aluAddp.) -/
def Obligations.CoreAccumulators : Prop :=
  ∀ s : State, 
    (∀ (c : Nat) (w : Word) (i a b : Nat), s.Issues c w 1 → s.Flows c → i = fget w 25 25 → a = (s.coreOf c).dReg (fget w 24 21) → b =
      (s.coreOf c).dReg (fget w 20 17) → fget w 16 9 = 0 → fget w 8 1 = 0 → ∃ t, exec (.macMpy c w 0) s = .next t ∧ s.CoreStep t c
      ((s.coreOf c).setAcc i (accOf (wrap 40 (sext 16 a * sext 16 b)) false)) (nextPc (s.pcOf c))) ∧
    (∀ (c : Nat) (w : Word) (i a b : Nat), s.Issues c w 2 → s.Flows c → i = fget w 25 25 → a = (s.coreOf c).dReg (fget w 24 21) → b =
      (s.coreOf c).dReg (fget w 20 17) → fget w 16 9 = 0 → fget w 8 1 = 0 → ((s.coreOf c).acc i).r.toNat = res3 ((s.coreOf c).acc
      i).v.toNat → ∃ t, exec (.macMac c w 0) s = .next t ∧ s.CoreStep t c ((s.coreOf c).setAcc i (accOf (wrap 40 (sext 40 ((s.coreOf
      c).acc i).v.toNat + sext 16 a * sext 16 b)) ((s.coreOf c).acc i).p)) (nextPc (s.pcOf c))) ∧
    (∀ (c : Nat) (w : Word) (i a b : Nat), s.Issues c w 3 → s.Flows c → i = fget w 25 25 → a = (s.coreOf c).dReg (fget w 24 21) → b =
      (s.coreOf c).dReg (fget w 20 17) → fget w 16 9 = 0 → fget w 8 1 = 0 → ((s.coreOf c).acc i).r.toNat = res3 ((s.coreOf c).acc
      i).v.toNat → ∃ t, exec (.macMsu c w 0) s = .next t ∧ s.CoreStep t c ((s.coreOf c).setAcc i (accOf (wrap 40 (sext 40 ((s.coreOf
      c).acc i).v.toNat - sext 16 a * sext 16 b)) ((s.coreOf c).acc i).p)) (nextPc (s.pcOf c))) ∧
    (∀ (c : Nat) (w : Word) (i a b : Nat), s.Issues c w 4 → s.Flows c → i = fget w 25 25 → a = (s.coreOf c).dReg (fget w 24 21) → b =
      (s.coreOf c).dReg (fget w 20 17) → fget w 16 9 = 0 → fget w 8 1 = 0 → ∃ t, exec (.macMpyu c w 0) s = .next t ∧ s.CoreStep t c
      ((s.coreOf c).setAcc i (accOf (wrap 40 ((a : Int) * (b : Int))) false)) (nextPc (s.pcOf c))) ∧
    (∀ (c : Nat) (w : Word) (i a b : Nat), s.Issues c w 5 → s.Flows c → i = fget w 25 25 → a = (s.coreOf c).dReg (fget w 24 21) → b =
      (s.coreOf c).dReg (fget w 20 17) → fget w 16 9 = 0 → fget w 8 1 = 0 → ((s.coreOf c).acc i).r.toNat = res3 ((s.coreOf c).acc
      i).v.toNat → ∃ t, exec (.macMacu c w 0) s = .next t ∧ s.CoreStep t c ((s.coreOf c).setAcc i (accOf (wrap 40 (sext 40 ((s.coreOf
      c).acc i).v.toNat + (a : Int) * (b : Int))) ((s.coreOf c).acc i).p)) (nextPc (s.pcOf c))) ∧
    (∀ (c : Nat) (w : Word) (i a b : Nat), s.Issues c w 6 → s.Flows c → i = fget w 25 25 → a = (s.coreOf c).dReg (fget w 24 21) → b =
      (s.coreOf c).dReg (fget w 20 17) → fget w 16 9 = 0 → fget w 8 1 = 0 → ((s.coreOf c).acc i).r.toNat = res3 ((s.coreOf c).acc
      i).v.toNat → ∃ t, exec (.macMacsu c w 0) s = .next t ∧ s.CoreStep t c ((s.coreOf c).setAcc i (accOf (wrap 40 (sext 40 ((s.coreOf
      c).acc i).v.toNat + sext 16 a * (b : Int))) ((s.coreOf c).acc i).p)) (nextPc (s.pcOf c))) ∧
    (∀ (c : Nat) (w : Word) (i a b : Nat), s.Issues c w 7 → s.Flows c → i = fget w 25 25 → a = (s.coreOf c).dReg (fget w 24 21) → b =
      (s.coreOf c).dReg (fget w 20 17) → fget w 16 9 = 0 → fget w 8 1 = 0 → ∃ t, exec (.macClr c w 0) s = .next t ∧ s.CoreStep t c
      ((s.coreOf c).setAcc i (accOf (wrap 40 (0)) false)) (nextPc (s.pcOf c))) ∧
    (∀ (c : Nat) (w : Word) (k : Int), s.Issues c w 48 → s.Flows c → k = sext 16 ((s.coreOf c).aluOperands w).2 → -40 ≤ k → k ≤ 40 → ∃ t,
      exec (.aluAsh c w) s = .next t ∧ s.CoreStep t c (((s.coreOf c).setAcc (fget w 20 20) (accOf ((if 0 ≤ k then wrap 40 (sext 40
      ((s.coreOf c).acc (fget w 20 20)).v.toNat * 2 ^ k.toNat) else wrap 40 (sext 40 ((s.coreOf c).acc (fget w 20 20)).v.toNat / 2 ^
      (-k).toNat))) (((s.coreOf c).acc (fget w 20 20)).p))).setCtl 0 (accFlags (s.coreOf c).sr ((if 0 ≤ k then wrap 40 (sext 40 ((s.coreOf
      c).acc (fget w 20 20)).v.toNat * 2 ^ k.toNat) else wrap 40 (sext 40 ((s.coreOf c).acc (fget w 20 20)).v.toNat / 2 ^ (-k).toNat)))))
      (nextPc (s.pcOf c))) ∧
    (∀ (c : Nat) (w : Word), s.Issues c w 49 → s.Flows c → ∃ t, exec (.aluAsat c w) s = .next t ∧ s.CoreStep t c (((s.coreOf c).setAcc
      (fget w 20 20) (accOf (wrap 40 (max (-(2 ^ 31)) (min (2 ^ 31 - 1) (sext 40 ((s.coreOf c).acc (fget w 20 20)).v.toNat)))) (((s.coreOf
      c).acc (fget w 20 20)).p))).setCtl 0 (accFlags (s.coreOf c).sr (wrap 40 (max (-(2 ^ 31)) (min (2 ^ 31 - 1) (sext 40 ((s.coreOf
      c).acc (fget w 20 20)).v.toNat)))))) (nextPc (s.pcOf c))) ∧
    (∀ (c : Nat) (w : Word), s.Issues c w 50 → s.Flows c → ∃ t, exec (.aluArnd c w) s = .next t ∧ s.CoreStep t c (((s.coreOf c).setAcc
      (fget w 20 20) (accOf (((((s.coreOf c).acc (fget w 20 20)).v.toNat + 0x8000) % 2 ^ 40) / 2 ^ 16 * 2 ^ 16) (((s.coreOf c).acc (fget w
      20 20)).p))).setCtl 0 (accFlags (s.coreOf c).sr (((((s.coreOf c).acc (fget w 20 20)).v.toNat + 0x8000) % 2 ^ 40) / 2 ^ 16 * 2 ^
      16))) (nextPc (s.pcOf c))) ∧
    (∀ (c : Nat) (w : Word), s.Issues c w 51 → s.Flows c → ∃ t, exec (.aluAadd c w) s = .next t ∧ s.CoreStep t c (((s.coreOf c).setAcc
      (fget w 20 20) (accOf ((((s.coreOf c).acc (fget w 20 20)).v.toNat + ((s.coreOf c).acc (fget w 16 16)).v.toNat) % 2 ^ 40) (((s.coreOf
      c).acc (fget w 20 20)).p || ((s.coreOf c).acc (fget w 16 16)).p))).setCtl 0 (accFlags (s.coreOf c).sr ((((s.coreOf c).acc (fget w 20
      20)).v.toNat + ((s.coreOf c).acc (fget w 16 16)).v.toNat) % 2 ^ 40))) (nextPc (s.pcOf c))) ∧
    (∀ (c : Nat) (w : Word), s.Issues c w 46 → s.Flows c → ∃ t, exec (.aluAddp c w) s = .next t ∧ s.CoreStep t c ((s.coreOf c).setP (fget
      w 23 20) (wrap 32 (((s.coreOf c).pReg (fget w 23 20) : Int) + sext 16 ((s.coreOf c).aluOperands w).2))) (nextPc (s.pcOf c)))

/-- Where no watchpoint is set: an LS load of a clean word of X or Y writes 16 bits to d, 32 bits to a pair, or the signed word to an
  accumulator; an LS store writes the word with fresh check bits; a post-modify in linear mode adds its step to the pointer. A window
  load, an LINE load or a semaphore access with a free tag queues its request and stalls the core at its PC. A posted LINE store queues
  its request and the core goes on. LR reads the pair and holds the reservation, SC stores and answers 1 with the reservation, 0 and no
  store without it. A parallel move loads X into d, stores d into Y and moves both pointers. (Shown to complete, each with its own
  effect: lsLoad, lsStore, lineLoad, lineStore, atomLr, atomSc, movesOnly.) -/
def Obligations.CoreMemory : Prop :=
  ∀ s : State, 
    (∀ (c : Nat) (w : Word) (a m i v : Nat), s.Issues c w 64 → s.Flows c → (List.range 2).all (fun i => !s.on (DBG_CORE_WP_CFG_EN c i)) =
      true → (s.coreOf c).lsAddr w = (a, none) → a % lsBytes w = 0 → (s.coreOf c).xyAt a = some (m, i) → decode32 ((s.coreOf c).memRaw m
      i) = .clean v → ∃ t, exec (.lsLoad c w) s = .next t ∧ s.CoreStep t c ((s.coreOf c).lsDest w (if lsBytes w = 4 then v else if a % 4 =
      0 then v % 2 ^ 16 else v / 2 ^ 16)) (nextPc (s.pcOf c))) ∧
    (∀ (c : Nat) (w : Word) (a m i v : Nat) (step : Int), s.Issues c w 64 → s.Flows c → (List.range 2).all (fun i => !s.on
      (DBG_CORE_WP_CFG_EN c i)) = true → (s.coreOf c).lsAddr w = (a, some step) → (s.coreOf c).ctlReg (20 + fget w 24 22) / 2 ^ 30 = 0 →
      lsBytes w = 4 → a % 4 = 0 → (s.coreOf c).xyAt a = some (m, i) → decode32 ((s.coreOf c).memRaw m i) = .clean v → ∃ t, exec (.lsLoad c
      w) s = .next t ∧ s.CoreStep t c (((s.coreOf c).lsDest w v).setP (fget w 24 22) (wrap 32 (((s.coreOf c).pReg (fget w 24 22) : Int) +
      step))) (nextPc (s.pcOf c))) ∧
    (∀ (c g : Nat) (w : Word) (a ia : Nat) (w0 : Bool), s.Issues c w 64 → s.Flows c → (List.range 2).all (fun i => !s.on
      (DBG_CORE_WP_CFG_EN c i)) = true → ((s.coreOf c).lsAddr w).1 = a → a % lsBytes w = 0 → (s.coreOf c).region a = .win w0 ia → w0 =
      false ∨ lsBytes w = 4 → (List.range (tagCount (c + 1))).find? (fun k => s.tagAt (64 * (c + 1) + k) == .idle) = some g → ∃ t, exec
      (.lsLoad c w) s = .next t ∧ t.coreOf c = { (s.coreOf c) with stall := some ⟨w, a, false⟩ } ∧ t.pcOf c = s.pcOf c ∧ t.tagAt (64 * (c
      + 1) + g) = .queued ⟨c + 1, g, false, ia, lsBytes w, (2 ^ lsBytes w - 1) <<< (ia % 64), 0, 0, 0⟩ ∧ t.mesh.out = s.mesh.out ++ [64 *
      (c + 1) + g] ∧ Keeps (fun a => a = ST_STAT c) [.core, .mesh] s t) ∧
    (∀ (c : Nat) (w : Word) (a m i : Nat), s.Issues c w 65 → s.Flows c → (List.range 2).all (fun i => !s.on (DBG_CORE_WP_CFG_EN c i)) =
      true → (s.coreOf c).lsAddr w = (a, none) → fget w 26 25 = 1 ∨ fget w 26 25 = 2 → a % 4 = 0 → (s.coreOf c).xyAt a = some (m, i) → ∃
      t, exec (.lsStore c w) s = .next t ∧ s.CoreStep t c ((s.coreOf c).setRaw m i (encode32 (if fget w 26 25 = 1 then (s.coreOf c).pairD
      (fget w 19 16) else ((s.coreOf c).acc (fget w 19 16)).v.toNat % 2 ^ 32) (fget w 26 25 == 2 && ((s.coreOf c).acc (fget w 19 16)).p)))
      (nextPc (s.pcOf c))) ∧
    (∀ (c : Nat) (w : Word) (a m i v : Nat), s.Issues c w 65 → s.Flows c → (List.range 2).all (fun i => !s.on (DBG_CORE_WP_CFG_EN c i)) =
      true → (s.coreOf c).lsAddr w = (a, none) → fget w 26 25 = 0 → a % 2 = 0 → (s.coreOf c).xyAt a = some (m, i) → decode32 ((s.coreOf
      c).memRaw m i) = .clean v → ∃ t, exec (.lsStore c w) s = .next t ∧ s.CoreStep t c ((s.coreOf c).setRaw m i (encode32 (if a % 4 = 0
      then v / 2 ^ 16 * 2 ^ 16 + (s.coreOf c).dReg (fget w 19 16) else v % 2 ^ 16 + (s.coreOf c).dReg (fget w 19 16) * 2 ^ 16) false))
      (nextPc (s.pcOf c))) ∧
    (∀ (c g : Nat) (w : Word) (ia m i : Nat), s.Issues c w 66 → s.Flows c → (List.range 2).all (fun i => !s.on (DBG_CORE_WP_CFG_EN c i)) =
      true → (s.coreOf c).lineAddrs w = .inr (ia, m, i) → (List.range (tagCount (c + 1))).find? (fun k => s.tagAt (64 * (c + 1) + k) ==
      .idle) = some g → ∃ t, exec (.lineLoad c w) s = .next t ∧ t.coreOf c =
      { (s.coreOf c) with stall := some ⟨w, ((s.coreOf c).lsAddr w).1, false⟩ } ∧ t.pcOf c = s.pcOf c ∧ t.tagAt (64 * (c + 1) + g) =
      .queued ⟨c + 1, g, false, ia, 64, (2 ^ 64 - 1) <<< (ia % 64), 0, 0, 0⟩ ∧ Keeps (fun a => a = ST_STAT c) [.core, .mesh] s t) ∧
    (∀ (c g : Nat) (w : Word) (ia m i d p : Nat), s.Issues c w 67 → s.Flows c → (List.range 2).all (fun i => !s.on (DBG_CORE_WP_CFG_EN c
      i)) = true → (s.coreOf c).lineAddrs w = .inr (ia, m, i) → ((s.coreOf c).lsAddr w).2 = none → lineGather 16 c m i 0 0 s = (s, d, p) →
      (List.range (tagCount (c + 1))).find? (fun k => s.tagAt (64 * (c + 1) + k) == .idle) = some g → ∃ t, exec (.lineStore c w) s = .next
      t ∧ t.coreOf c = (s.coreOf c) ∧ t.pcOf c = nextPc (s.pcOf c) ∧ t.tagAt (64 * (c + 1) + g) = .queued ⟨c + 1, g, true, ia, 64, (2 ^ 64
      - 1) <<< (ia % 64), d <<< (8 * (ia % 64)), p, 1⟩ ∧ (∀ d : Nat, d ≠ c → t.coreOf d = s.coreOf d) ∧ Keeps (fun a => a = ST_STAT c)
      [.core, .mesh] s t) ∧
    (∀ (c : Nat) (w : Word) (m i v : Nat), s.Issues c w 68 → s.Flows c → (List.range 2).all (fun i => !s.on (DBG_CORE_WP_CFG_EN c i)) =
      true → (s.coreOf c).pReg (fget w 26 24) % 4 = 0 → (s.coreOf c).xyAt ((s.coreOf c).pReg (fget w 26 24)) = some (m, i) → decode32
      ((s.coreOf c).memRaw m i) = .clean v → ∃ t, exec (.atomLr c w) s = .next t ∧ s.CoreStep t c
      { (s.coreOf c).setPairD (fget w 23 20) v with resv := some (.word (m == 2) i) } (nextPc (s.pcOf c))) ∧
    (∀ (c : Nat) (w : Word) (m i : Nat), s.Issues c w 69 → s.Flows c → (List.range 2).all (fun i => !s.on (DBG_CORE_WP_CFG_EN c i)) = true
      → (s.coreOf c).pReg (fget w 26 24) % 4 = 0 → (s.coreOf c).xyAt ((s.coreOf c).pReg (fget w 26 24)) = some (m, i) → (s.coreOf c).resv
      = some (.word (m == 2) i) → ∃ t, exec (.atomSc c w) s = .next t ∧ s.CoreStep t c
      (({ (s.coreOf c).setRaw m i (encode32 ((s.coreOf c).pairD (fget w 23 20)) false) with resv := none } : Core).setD (fget w 19 16) 1)
      (nextPc (s.pcOf c))) ∧
    (∀ (c : Nat) (w : Word) (m i : Nat), s.Issues c w 69 → s.Flows c → (List.range 2).all (fun i => !s.on (DBG_CORE_WP_CFG_EN c i)) = true
      → (s.coreOf c).pReg (fget w 26 24) % 4 = 0 → (s.coreOf c).xyAt ((s.coreOf c).pReg (fget w 26 24)) = some (m, i) → (s.coreOf c).resv
      ≠ some (.word (m == 2) i) → ∃ t, exec (.atomSc c w) s = .next t ∧ s.CoreStep t c
      { (s.coreOf c).setD (fget w 19 16) 0 with resv := none } (nextPc (s.pcOf c))) ∧
    (∀ (c : Nat) (w : Word) (sx sy : Slot2) (px py i j v u : Nat), s.Issues c w 0 → s.Flows c → (List.range 2).all (fun i => !s.on
      (DBG_CORE_WP_CFG_EN c i)) = true → sx = slotOf w 9 → sy = slotOf w 1 → sx.en = true → sx.st = false → sy.en = true → sy.st = true →
      sx.p ≠ sy.p → px = (s.coreOf c).pReg sx.p → py = (s.coreOf c).pReg sy.p → px % 2 = 0 → py % 2 = 0 → (s.coreOf c).xyAt px = some (1,
      i) → (s.coreOf c).xyAt py = some (2, j) → decode32 ((s.coreOf c).memRaw 1 i) = .clean v → decode32 ((s.coreOf c).memRaw 2 j) =
      .clean u → (s.coreOf c).ctlReg (20 + sx.p) / 2 ^ 30 = 0 → (s.coreOf c).ctlReg (20 + sy.p) / 2 ^ 30 = 0 → ∃ t, exec (.movesOnly c w)
      s = .next t ∧ (t.coreOf c).dReg sx.d = (if px % 4 = 0 then v % 2 ^ 16 else v / 2 ^ 16) ∧ (t.coreOf c).memRaw 2 j = (encode32 (if py
      % 4 = 0 then u / 2 ^ 16 * 2 ^ 16 + (s.coreOf c).dReg sy.d else u % 2 ^ 16 + (s.coreOf c).dReg sy.d * 2 ^ 16) false) ∧ (t.coreOf
      c).pReg sx.p = wrap 32 ((px : Int) + sext 16 ((s.coreOf c).nReg sx.p)) ∧ (t.coreOf c).pReg sy.p = wrap 32 ((py : Int) + sext 16
      ((s.coreOf c).nReg sy.p)) ∧ (t.coreOf c).a0 = (s.coreOf c).a0 ∧ (t.coreOf c).a1 = (s.coreOf c).a1 ∧ (t.coreOf c).xm = (s.coreOf
      c).xm ∧ t.pcOf c = nextPc (s.pcOf c) ∧ Keeps (fun a => a = ST_STAT c) [.core] s t)

/-- BRA goes to PC + 4 x OFF in the same program space, BCC does so when its condition holds and goes on otherwise; CALL and CALLR push the
  next PC, RET pops it; JMP and CALLR go to an aligned pointer below 0x10000; RETI leaves the exception level, or else pops the
  interrupt stack; REP and REPR open a level with its count, start and end, REPR with count 0 skips the block; BRK with no open level,
  NOP and WAIT (which goes to WAIT) go on; LOOPV with EC above 0 decrements it, rotates and branches. At the last instruction of a level
  with LC above 1 the level loops and LC falls by 1; with LC 1 it closes. (Shown to complete, each with its own effect: brBra, brBcc,
  brCall, brJmp, brCallr, brRet, brReti, brRep, brRepr, brBrk, brLoopv, coreWait, brNop.) -/
def Obligations.CoreControlFlow : Prop :=
  ∀ s : State, 
    (∀ (c : Nat) (w : Word), s.Issues c w 80 → s.Flows c → ∃ t, exec (.brBra c w) s = .next t ∧ s.CoreStep t c ((s.coreOf c)) (relPc
      (s.pcOf c) (fget w 15 0))) ∧
    (∀ (c : Nat) (w : Word), s.Issues c w 81 → s.Flows c → condHolds (fget w 23 20) (s.coreOf c).sr = true → ∃ t, exec (.brBcc c w) s =
      .next t ∧ s.CoreStep t c ((s.coreOf c)) (relPc (s.pcOf c) (fget w 15 0))) ∧
    (∀ (c : Nat) (w : Word), s.Issues c w 81 → s.Flows c → condHolds (fget w 23 20) (s.coreOf c).sr = false → ∃ t, exec (.brBcc c w) s =
      .next t ∧ s.CoreStep t c ((s.coreOf c)) ((nextPc (s.pcOf c)))) ∧
    (∀ (c : Nat) (w : Word), s.Issues c w 82 → s.Flows c → (s.coreOf c).calls.length < 16 → ∃ t, exec (.brCall c w) s = .next t ∧
      s.CoreStep t c ({ (s.coreOf c) with calls := nextPc (s.pcOf c) :: (s.coreOf c).calls }) (relPc (s.pcOf c) (fget w 15 0))) ∧
    (∀ (c : Nat) (w : Word), s.Issues c w 83 → s.Flows c → ((s.coreOf c).pReg (fget w 18 16)) % 4 = 0 → ((s.coreOf c).pReg (fget w 18 16))
      < 2 ^ 16 → ∃ t, exec (.brJmp c w) s = .next t ∧ s.CoreStep t c ((s.coreOf c)) (((s.coreOf c).pReg (fget w 18 16)))) ∧
    (∀ (c : Nat) (w : Word), s.Issues c w 84 → s.Flows c → ((s.coreOf c).pReg (fget w 18 16)) % 4 = 0 → ((s.coreOf c).pReg (fget w 18 16))
      < 2 ^ 16 → (s.coreOf c).calls.length < 16 → ∃ t, exec (.brCallr c w) s = .next t ∧ s.CoreStep t c
      ({ (s.coreOf c) with calls := nextPc (s.pcOf c) :: (s.coreOf c).calls }) (((s.coreOf c).pReg (fget w 18 16)))) ∧
    (∀ (c : Nat) (w : Word) (p : Nat) (rest : List Nat), s.Issues c w 85 → s.Flows c → (s.coreOf c).calls = p :: rest → ∃ t, exec (.brRet
      c w) s = .next t ∧ s.CoreStep t c ({ (s.coreOf c) with calls := rest }) (p % 2 ^ 17)) ∧
    (∀ (c : Nat) (w : Word), s.Issues c w 86 → s.Flows c → (s.coreOf c).sr.testBit 7 = true → ∃ t, exec (.brReti c w) s = .next t ∧
      s.CoreStep t c ({ (s.coreOf c).setCtl 0 ((s.coreOf c).ctlReg 2 % 256) with resv := none }) ((s.coreOf c).ctlReg 1 / 4 * 4 % 2 ^ 17)) ∧
    (∀ (c : Nat) (w : Word) (p : Nat) (r : Word) (rest : List (Nat × Word)), s.Issues c w 86 → s.Flows c → (s.coreOf c).sr.testBit 7 =
      false → (s.coreOf c).ints = (p, r) :: rest → ∃ t, exec (.brReti c w) s = .next t ∧ s.CoreStep t c
      ({ (s.coreOf c).setCtl 0 (r.toNat % 256) with ints := rest, resv := none }) (p % 2 ^ 17)) ∧
    (∀ (c : Nat) (w : Word), s.Issues c w 87 → s.Flows c → ∃ t, exec (.brRep c w) s = .next t ∧ s.CoreStep t c (((((s.coreOf c).setCtl 8
      (fget w 23 10 + 1)).setCtl 12 ((s.pcOf c + 4) % 2 ^ 16)).setCtl 16 ((s.pcOf c + 4) % 2 ^ 16 + 4 * fget w 9 0)).setCtl 5 1) ((nextPc
      (s.pcOf c)))) ∧
    (∀ (c : Nat) (w : Word), s.Issues c w 88 → s.Flows c → (s.coreOf c).dReg (fget w 19 16) ≠ 0 → ∃ t, exec (.brRepr c w) s = .next t ∧
      s.CoreStep t c (((((s.coreOf c).setCtl 8 ((s.coreOf c).dReg (fget w 19 16))).setCtl 12 ((s.pcOf c + 4) % 2 ^ 16)).setCtl 16 ((s.pcOf
      c + 4) % 2 ^ 16 + 4 * fget w 9 0)).setCtl 5 1) ((nextPc (s.pcOf c)))) ∧
    (∀ (c : Nat) (w : Word), s.Issues c w 88 → s.Flows c → (s.coreOf c).dReg (fget w 19 16) = 0 → ∃ t, exec (.brRepr c w) s = .next t ∧
      s.CoreStep t c ((s.coreOf c)) (s.pcOf c / 2 ^ 16 * 2 ^ 16 + (s.pcOf c + 8 + 4 * fget w 9 0) % 2 ^ 16)) ∧
    (∀ (c : Nat) (w : Word), s.Issues c w 89 → (s.coreOf c).stepping = false → (s.coreOf c).skipBp = false → (s.coreOf c).lastOf (s.pcOf
      c) = false → ((s.coreOf c).setCtl 5 ((s.coreOf c).ctlReg 5 - 1)).lastOf (s.pcOf c) = false → ∃ t, exec (.brBrk c w) s = .next t ∧
      s.CoreStep t c ((s.coreOf c).setCtl 5 ((s.coreOf c).ctlReg 5 - 1)) (nextPc (s.pcOf c))) ∧
    (∀ (c : Nat) (w : Word), s.Issues c w 90 → s.Flows c → (s.coreOf c).ctlReg 6 ≠ 0 → ∃ t, exec (.brLoopv c w) s = .next t ∧ s.CoreStep t
      c (((s.coreOf c).setCtl 6 ((s.coreOf c).ctlReg 6 - 1)).rotate) (relPc (s.pcOf c) (fget w 15 0))) ∧
    (∀ (c : Nat) (w : Word), s.Issues c w 90 → s.Flows c → (s.coreOf c).ctlReg 6 = 0 → ∃ t, exec (.brLoopv c w) s = .next t ∧ s.CoreStep t
      c ((s.coreOf c)) ((nextPc (s.pcOf c)))) ∧
    (∀ (c : Nat) (w : Word), s.Issues c w 91 → s.Flows c → ∃ t, exec (.coreWait c w) s = .next t ∧ t.coreOf c = (s.coreOf c) ∧ t.coreSt c
      = 2 ∧ t.pcOf c = nextPc (s.pcOf c) ∧ (∀ d : Nat, d ≠ c → t.coreOf d = s.coreOf d) ∧ Keeps (fun a => a = ST_STAT c) [.core] s t) ∧
    (∀ (c : Nat) (w : Word), s.Issues c w 93 → s.Flows c → ∃ t, exec (.brNop c w) s = .next t ∧ s.CoreStep t c ((s.coreOf c)) ((nextPc
      (s.pcOf c)))) ∧
    (∀ (c n : Nat) (w : Word), s.Issues c w 93 → (s.coreOf c).stepping = false → (s.coreOf c).skipBp = false → (s.coreOf c).ctlReg 5 = n +
      1 → n < 4 → (s.coreOf c).ctlReg (16 + n) % 2 ^ 16 = s.pcOf c % 2 ^ 16 → 1 < (s.coreOf c).ctlReg (8 + n) → ∃ t, exec (.brNop c w) s =
      .next t ∧ s.CoreStep t c ((s.coreOf c).setCtl (8 + n) ((s.coreOf c).ctlReg (8 + n) - 1)) (s.pcOf c / 2 ^ 16 * 2 ^ 16 + (s.coreOf
      c).ctlReg (12 + n) % 2 ^ 16)) ∧
    (∀ (c : Nat) (w : Word), s.Issues c w 93 → (s.coreOf c).stepping = false → (s.coreOf c).skipBp = false → (s.coreOf c).ctlReg 5 = 1 →
      (s.coreOf c).ctlReg 16 % 2 ^ 16 = s.pcOf c % 2 ^ 16 → (s.coreOf c).ctlReg 8 ≤ 1 → ∃ t, exec (.brNop c w) s = .next t ∧ s.CoreStep t
      c ((s.coreOf c).setCtl 5 0) (nextPc (s.pcOf c)))

/-- MOVX, LDI and LDIH write their destination register by the width rules of its class and go on, but for LDEPTH. A TRAP (code 9, INFO the
  TRAP code, EPC the next PC) and an ACCESS exception of a misaligned JMP (code 3, EADDR the target, EPC its own PC), at a core that
  runs below exception level without a step, save PC and SR, set the cause, clear the interrupt enable and set the exception level in
  SR, end the reservation, log the exception and go on at VBASE + 0x100 + 4 x code; data registers, memories and the call stack keep
  their values. (Shown to complete, each with its own effect: movx, ldi, ldih, brTrap, brJmp.) -/
def Obligations.CoreMovesAndExceptions : Prop :=
  ∀ s : State, 
    (∀ (c : Nat) (w : Word), s.Issues c w 96 → s.Flows c → fget w 27 25 ≠ 5 ∨ fget w 24 20 ≠ 5 → fget w 19 17 ≠ 3 ∨ ((s.coreOf c).acc
      (fget w 16 12 / 3)).p = false → ∃ t, exec (.movx c w) s = .next t ∧ s.CoreStep t c ((s.coreOf c).writeReg c (fget w 27 25) (fget w
      24 20) ((s.coreOf c).readReg (fget w 19 17) (fget w 16 12)) 0) ((nextPc (s.pcOf c)))) ∧
    (∀ (c : Nat) (w : Word), s.Issues c w 97 → s.Flows c → fget w 27 25 ≠ 5 ∨ fget w 24 20 ≠ 5 → ∃ t, exec (.ldi c w) s = .next t ∧
      s.CoreStep t c ((s.coreOf c).writeReg c (fget w 27 25) (fget w 24 20) (fget w 15 0) 0) ((nextPc (s.pcOf c)))) ∧
    (∀ (c : Nat) (w : Word), s.Issues c w 98 → s.Flows c → fget w 27 25 ≠ 5 ∨ fget w 24 20 ≠ 5 → ∃ t, exec (.ldih c w) s = .next t ∧
      s.CoreStep t c ((s.coreOf c).writeReg c (fget w 27 25) (fget w 24 20) ((s.coreOf c).readReg (fget w 27 25) (fget w 24 20) % 2 ^ 16 +
      fget w 15 0 * 2 ^ 16) 0) ((nextPc (s.pcOf c)))) ∧
    (∀ (c : Nat) (w : Word), s.Issues c w 92 → (s.coreOf c).stepping = false → (s.coreOf c).sr.testBit 7 = false → (s.coreOf c).ctlReg 5 =
      0 → fget w 7 0 ≠ 0xFF ∨ s.attached = false → ∃ t, exec (.brTrap c w) s = .next t ∧ (t.coreOf c).ctlReg 1 = nextPc (s.pcOf c) % 2 ^
      17 ∧ (t.coreOf c).ctlReg 2 = (s.coreOf c).srRead ∧ (t.coreOf c).ctlReg 3 = (9 + fget w 7 0 * 2 ^ 8) ∧ (t.coreOf c).sr = (s.coreOf
      c).sr / 32 * 32 + (s.coreOf c).sr % 16 + 128 ∧ (t.coreOf c).resv = none ∧ t.pcOf c = (bitsOf ((s.coreOf c).ctlReg 28) 15 10 * 2 ^ 10
      + 0x100 + 4 * ((9 + fget w 7 0 * 2 ^ 8) % 256)) % 2 ^ 16 + bitsOf ((s.coreOf c).ctlReg 28) 16 16 * 2 ^ 16 ∧ t.coreSt c = 1 ∧ t.on
      (ST_EXC_LOG_VALID c) = true ∧ t.f (ST_EXC_LOG_CAUSE c) = (9 + fget w 7 0 * 2 ^ 8) % 256 ∧ t.f (ST_EXC_LOG_EPC c) = s.pcOf c % 2 ^ 16
      ∧ (t.coreOf c).d = (s.coreOf c).d ∧ (t.coreOf c).p = (s.coreOf c).p ∧ (t.coreOf c).xm = (s.coreOf c).xm ∧ (t.coreOf c).calls =
      (s.coreOf c).calls ∧ Keeps (fun a => a = ST_STAT c ∨ a = ST_EXC_LOG c ∨ a = ST_EXC_ADDR c) [.core] s t) ∧
    (∀ (c : Nat) (w : Word), s.Issues c w 83 → (s.coreOf c).stepping = false → (s.coreOf c).sr.testBit 7 = false → (s.coreOf c).ctlReg 5 =
      0 → ((s.coreOf c).pReg (fget w 18 16)) % 4 ≠ 0 → ∃ t, exec (.brJmp c w) s = .next t ∧ (t.coreOf c).ctlReg 1 = s.pcOf c % 2 ^ 17 ∧
      (t.coreOf c).ctlReg 2 = (s.coreOf c).srRead ∧ (t.coreOf c).ctlReg 3 = 3 ∧ (t.coreOf c).ctlReg 4 = ((s.coreOf c).pReg (fget w 18 16))
      ∧ t.reg (ST_EXC_ADDR c) = BitVec.ofNat 32 ((s.coreOf c).pReg (fget w 18 16)) ∧ (t.coreOf c).sr = (s.coreOf c).sr / 32 * 32 +
      (s.coreOf c).sr % 16 + 128 ∧ (t.coreOf c).resv = none ∧ t.pcOf c = (bitsOf ((s.coreOf c).ctlReg 28) 15 10 * 2 ^ 10 + 0x100 + 4 * (3
      % 256)) % 2 ^ 16 + bitsOf ((s.coreOf c).ctlReg 28) 16 16 * 2 ^ 16 ∧ t.coreSt c = 1 ∧ t.on (ST_EXC_LOG_VALID c) = true ∧ t.f
      (ST_EXC_LOG_CAUSE c) = 3 % 256 ∧ t.f (ST_EXC_LOG_EPC c) = s.pcOf c % 2 ^ 16 ∧ (t.coreOf c).d = (s.coreOf c).d ∧ (t.coreOf c).p =
      (s.coreOf c).p ∧ (t.coreOf c).xm = (s.coreOf c).xm ∧ (t.coreOf c).calls = (s.coreOf c).calls ∧ Keeps (fun a => a = ST_STAT c ∨ a =
      ST_EXC_LOG c ∨ a = ST_EXC_ADDR c) [.core] s t)

/-- INTERRUPT_ENTRY for the best input of a core that may take one pushes PC and SR, sets IPL to the input's PRIO with interrupts off,
  clears the input's PEND and goes on at VBASE + 4 x input. An OK response to a window load without poison writes the destination and
  ends the stall. A posted store that fails is logged and pends input 3. Enabling a timer loads CNT and clears its prescaler; at CNT 1
  its expiry pends input 0 or 1 and reloads it with AUTO, else stops it. Enabling or a right kick of the watchdog loads CNT; WINDOW_OPEN
  sets OPENED; expiry bites with EV_WDT (224 + c). (Shown to complete, each with its own effect: interruptEntry, windowLoadResponse,
  postedStoreError, timerEnable, timerExpiry, watchdogEnable, watchdogKick, watchdogWindowOpen, watchdogExpiry.) -/
def Obligations.CoreEventsAndTimers : Prop :=
  ∀ s : State, 
    (∀ (c j : Nat), s.bestIrq c = some j → s.mayInterrupt c = true → ∃ t, exec (.interruptEntry c) s = .next t ∧ t.coreOf c =
      { (s.coreOf c).setCtl 0 ((s.coreOf c).sr / 128 * 128 + s.f (ST_IRQ_CFG_PRIO c j) * 32 + (s.coreOf c).sr % 32) with ints := (s.pcOf c, BitVec.ofNat 32 (s.coreOf c).srRead) :: (s.coreOf c).ints, resv := none, skipBp := false }
      ∧ t.pcOf c = (bitsOf ((s.coreOf c).ctlReg 28) 15 10 * 2 ^ 10 + 4 * j) % 2 ^ 16 + bitsOf ((s.coreOf c).ctlReg 28) 16 16 * 2 ^ 16 ∧
      t.irqPend c j = false ∧ t.coreSt c = 1 ∧ (∀ d : Nat, d ≠ c → t.coreOf d = s.coreOf d) ∧ Keeps (fun a => a = ST_STAT c ∨ a =
      ST_IRQ_PEND_LO c ∨ a = ST_IRQ_PEND_HI c) [.core] s t) ∧
    (∀ (c : Nat) (st : Stall) (a : Acc) (r : Rsp), s.Flows c → (s.coreOf c).stall = some st → st.fed = false → s.coreClock c = true →
      insnKind st.insn = some 64 → ((s.coreOf c).lsAddr st.insn).2 = none → mget s.mesh.inbox [] (coreSrc c) = [(a, r)] → a.ref = 0 →
      r.status = 0 → r.poison &&& wordMask a.addr a.size = 0 → ∃ t, exec (.windowLoadResponse c) s = .next t ∧ t.coreOf c =
      { (s.coreOf c).lsDest st.insn ((r.data >>> (8 * (a.addr % 64))) % 2 ^ (8 * a.size)) with stall := none } ∧ t.pcOf c = nextPc (s.pcOf
      c) ∧ mget t.mesh.inbox [] (coreSrc c) = [] ∧ Keeps (fun a => a = ST_STAT c) [.core, .mesh] s t) ∧
    (∀ (c : Nat) (a : Acc) (r : Rsp), mget s.mesh.inbox [] (coreSrc c) = [(a, r)] → a.ref = 1 → s.on (ST_BUS_LOG_VALID c) = false → ∃ t,
      exec (.postedStoreError c) s = .next t ∧ t.on (ST_BUS_LOG_VALID c) = true ∧ t.f (ST_BUS_LOG_STATUS c) = r.status % 16 ∧ t.f
      (ST_BUS_LOG_CAUSE c) = r.cause % 256 ∧ t.irqPend c 3 = true ∧ mget t.mesh.inbox [] (coreSrc c) = [] ∧ Keeps (fun a => a = ST_BUS_LOG
      c ∨ a = ST_BUS_ADDR c ∨ a = ST_IRQ_PEND_LO c) [.mesh] s t) ∧
    (∀ (c i : Nat) (w : Word), c < 17 → c = 16 ∨ s.blockGated c = false → i < 2 → fget w 31 31 = 1 → s.f (ST_TMR_CTRL_EN c i) = 0 → ∃ t,
      exec (.timerEnable c i w) s = .next t ∧ t.on (ST_TMR_CTRL_EN c i) = true ∧ t.f (ST_TMR_CNT_CNT c i) = s.f (ST_TMR_LOAD_LOAD c i) ∧
      mget (t.coreOf c).pre 0 i = 0 ∧ t.f (ST_TMR_CTRL_PRESCALE c i) = fget w 23 16 ∧ Keeps (fun a => a = ST_TMR_CTRL c i ∨ a = ST_TMR_CNT
      c i) [.core] s t) ∧
    (∀ (c i : Nat), c < 17 → i < 2 → s.coreTicks c = true → s.on (ST_TMR_CTRL_EN c i) = true → s.f (ST_TMR_CNT_CNT c i) = 1 → s.f
      (ST_TMR_CTRL_PRESCALE c i) ≤ mget (s.coreOf c).pre 0 i → ∀ e ∈ (s.coreOf c).cntDue, e.1 ≠ i → i ∉ (s.coreOf c).early → ∃ t, exec
      (.timerExpiry c i) s = .next t ∧ t.irqPend c i = true ∧ t.f (ST_TMR_CNT_CNT c i) = (if s.on (ST_TMR_CTRL_AUTO c i) then s.f
      (ST_TMR_LOAD_LOAD c i) else 0) ∧ mget (t.coreOf c).pre 0 i = 0 ∧ (t.coreOf c).early = i :: (s.coreOf c).early ∧ (∀ d : Nat, d ≠ c →
      t.coreOf d = s.coreOf d) ∧ Keeps (fun a => a = ST_TMR_CTRL c i ∨ a = ST_TMR_CNT c i ∨ a = ST_IRQ_PEND_LO c) [.core] s t) ∧
    (∀ (c : Nat) (w : Word), c < 17 → c = 16 ∨ s.blockGated c = false → fget w 31 31 = 1 → s.f (ST_WDT_CTRL_EN c) = 0 → s.on
      (ST_WDT_CTRL_LOCK c) = false → ∃ t, exec (.watchdogEnable c w) s = .next t ∧ t.on (ST_WDT_CTRL_EN c) = true ∧ t.f (ST_WDT_CNT_CNT c)
      = max 1 (s.f (ST_WDT_LOAD_LOAD c)) ∧ t.on (ST_WDT_STAT_OPENED c) = decide (max 1 (s.f (ST_WDT_LOAD_LOAD c)) ≤ s.f (ST_WDT_OPEN_OPEN
      c)) ∧ Keeps (fun a => a = ST_WDT_CTRL c ∨ a = ST_WDT_CNT c ∨ a = ST_WDT_STAT c) [] s t) ∧
    (∀ (c : Nat) (v : Word), c < 17 → c = 16 ∨ s.blockGated c = false → v = 0xA5C3#32 → (s.coreOf c).expired ≠ some s.fig.toNat → s.on
      (ST_WDT_CTRL_EN c) = true → s.on (ST_WDT_STAT_OPENED c) = true → ∃ t, exec (.watchdogKick c v) s = .next t ∧ t.f (ST_WDT_CNT_CNT c)
      = max 1 (s.f (ST_WDT_LOAD_LOAD c)) ∧ t.on (ST_WDT_STAT_OPENED c) = decide (max 1 (s.f (ST_WDT_LOAD_LOAD c)) ≤ s.f (ST_WDT_OPEN_OPEN
      c)) ∧ Keeps (fun a => a = ST_WDT_CNT c ∨ a = ST_WDT_STAT c) [] s t) ∧
    (∀ (c : Nat), c < 17 → s.coreTicks c = true → s.on (ST_WDT_CTRL_EN c) = true → 0 < s.f (ST_WDT_OPEN_OPEN c) → s.f (ST_WDT_CNT_CNT c) =
      s.f (ST_WDT_OPEN_OPEN c) + 1 → 2 ∉ (s.coreOf c).early → ∃ t, exec (.watchdogWindowOpen c) s = .next t ∧ t.on (ST_WDT_STAT_OPENED c)
      = true ∧ t.f (ST_WDT_CNT_CNT c) = s.f (ST_WDT_OPEN_OPEN c) ∧ t.coreOf c = { (s.coreOf c) with early := 2 :: (s.coreOf c).early } ∧
      (∀ d : Nat, d ≠ c → t.coreOf d = s.coreOf d) ∧ Keeps (fun a => a = ST_WDT_CNT c ∨ a = ST_WDT_STAT c) [.core] s t) ∧
    (∀ (c : Nat), c < 17 → s.coreTicks c = true → s.on (ST_WDT_CTRL_EN c) = true → s.f (ST_WDT_CNT_CNT c) = 1 → 2 ∉ (s.coreOf c).early → ∃
      t, exec (.watchdogExpiry c) s = .next t ∧ t.on (ST_WDT_STAT_BITE c) = true ∧ t.f (ST_WDT_STAT_WHY c) = 0 ∧ (t.reg (HIF_IRQ_STAT
      7)).toNat.testBit c = true ∧ (if s.on (ST_WDT_CTRL_RESET_EN c) then (t.coreOf c).wdtDue = true else t.irqPend c 2 = true ∧ t.f
      (ST_WDT_CNT_CNT c) = max 1 (s.f (ST_WDT_LOAD_LOAD c))) ∧ Keeps (fun a => a = ST_WDT_CNT c ∨ a = ST_WDT_STAT c ∨ a = ST_IRQ_PEND_LO c
      ∨ a = HIF_IRQ_STAT 7) [.core, .host, .tail, .mesh] s t)

/-- CORE_HOLD and SELF_RESET are core resets with cause 1, a watchdog reset that is due one with cause 2: registers return to their reset
  values, the memories keep their words, the count rises; a held core stands in RESET, a self-reset core runs at 0 (no debugger
  attached). CORE_RELEASE starts a held core at 0. ST_MEM_DATA writes the named word with fresh check bits, reads a clean word without
  changing it. DOORBELL pends inputs 4 to 7, SWIRQ with GO raises EV_SW (288 + c). A read of STW_SEM_LR by a core reserves the
  semaphore, a write of STW_SEM_SC by the core that reserved it, and STW_SEM, write it and end every reservation of it; a core without
  reservation changes nothing. Commands to a core of a sector whose gate is closed change nothing; to one whose gate is open, or to STW,
  they act. (Shown to complete, each with its own effect: coreHold, coreRelease, selfReset, watchdogReset, stMemData, doorbell, swirq,
  semLr, semSc, semWrite.) -/
def Obligations.CoreResetsAndSemaphores : Prop :=
  ∀ s : State, 
    (∀ (c : Nat), c < 17 → c = 16 ∨ s.blockGated c = false → s.on (ST_CTRL_RESET c) = false → ∃ t, exec (.coreHold c) s = .next t ∧
      t.coreOf c = { Core.init with pm := (s.coreOf c).pm, xm := (s.coreOf c).xm, ym := (s.coreOf c).ym } ∧ t.f (ST_RESET_CAUSE_CAUSE c) =
      1 ∧ t.f (ST_RESET_CAUSE_COUNT c) = min 65535 (s.f (ST_RESET_CAUSE_COUNT c) + 1) ∧ t.on (ST_CTRL_RESET c) = true ∧ t.coreSt c = 0 ∧
      (∀ d : Nat, d ≠ c → t.coreOf d = s.coreOf d) ∧ Keeps (fun a => InBlocks [0, 5, 13, 16, 17] a) [.core, .mesh] s t) ∧
    (∀ (c : Nat), c < 17 → c = 16 ∨ s.blockGated c = false → s.on (ST_CTRL_RESET c) = true → s.attached = false → ∃ t, exec (.coreRelease
      c) s = .next t ∧ t.on (ST_CTRL_RESET c) = false ∧ t.coreSt c = 1 ∧ t.pcOf c = 0 ∧ t.core = s.core ∧ Keeps (fun a => a = ST_CTRL c ∨
      a = ST_STAT c) [] s t) ∧
    (∀ (c : Nat), c < 17 → c = 16 ∨ s.blockGated c = false → s.attached = false → ∃ t, exec (.selfReset c) s = .next t ∧ t.coreOf c =
      { Core.init with pm := (s.coreOf c).pm, xm := (s.coreOf c).xm, ym := (s.coreOf c).ym } ∧ t.f (ST_RESET_CAUSE_CAUSE c) = 1 ∧ t.f
      (ST_RESET_CAUSE_COUNT c) = min 65535 (s.f (ST_RESET_CAUSE_COUNT c) + 1) ∧ t.on (ST_CTRL_RESET c) = false ∧ t.coreSt c = 1 ∧ t.pcOf c
      = 0 ∧ (∀ d : Nat, d ≠ c → t.coreOf d = s.coreOf d) ∧ Keeps (fun a => InBlocks [0, 5, 13, 16, 17] a) [.core, .mesh] s t) ∧
    (∀ (c : Nat), c < 17 → (s.coreOf c).wdtDue = true → s.coreTicks c = true → s.attached = false → ∃ t, exec (.watchdogReset c) s = .next
      t ∧ t.coreOf c = { Core.init with pm := (s.coreOf c).pm, xm := (s.coreOf c).xm, ym := (s.coreOf c).ym } ∧ t.f (ST_RESET_CAUSE_CAUSE
      c) = 2 ∧ t.f (ST_RESET_CAUSE_COUNT c) = min 65535 (s.f (ST_RESET_CAUSE_COUNT c) + 1) ∧ (∀ d : Nat, d ≠ c → t.coreOf d = s.coreOf d)
      ∧ Keeps (fun a => InBlocks [0, 5, 13, 16, 17] a) [.core, .mesh] s t) ∧
    (∀ (c m i : Nat) (v : Word), c < 17 → c = 16 ∨ s.blockGated c = false → s.stMemAt c = some (m, i) → ∃ t, exec (.stMemData c true v) s
      = .next t ∧ t.coreOf c = (s.coreOf c).setRaw m i (encode32 v.toNat false) ∧ t.f (ST_MEM_ADDR_ADDR c) = (if s.on
      (ST_MEM_ADDR_AUTO_INC c) then (s.f (ST_MEM_ADDR_ADDR c) + 1) % 2 ^ 16 else s.f (ST_MEM_ADDR_ADDR c)) ∧ (∀ d : Nat, d ≠ c → t.coreOf
      d = s.coreOf d) ∧ Keeps (fun a => a = ST_MEM_ADDR c) [.core] s t) ∧
    (∀ (c m i d : Nat) (v : Word), c < 17 → c = 16 ∨ s.blockGated c = false → s.stMemAt c = some (m, i) → decode32 ((s.coreOf c).memRaw m
      i) = .clean d → ∃ t, exec (.stMemData c false v) s = .next t ∧ t.core = s.core ∧ t.f (ST_MEM_ADDR_ADDR c) = (if s.on
      (ST_MEM_ADDR_AUTO_INC c) then (s.f (ST_MEM_ADDR_ADDR c) + 1) % 2 ^ 16 else s.f (ST_MEM_ADDR_ADDR c)) ∧ Keeps (fun a => a =
      ST_MEM_ADDR c) [] s t) ∧
    (∀ (c : Nat) (v : Word), c < 17 → c = 16 ∨ s.blockGated c = false → ∃ t, exec (.doorbell c v) s = .next t ∧ (∀ j : Nat, j < 64 →
      t.irqPend c j = (s.irqPend c j || (decide (4 ≤ j) && decide (j < 8) && v.toNat.testBit (j - 4)))) ∧ Keeps (fun a => a =
      ST_IRQ_PEND_LO c ∨ a = ST_DOORBELL c) [] s t) ∧
    (∀ (c : Nat) (v : Word), c < 17 → c = 16 ∨ s.blockGated c = false → ∃ t, exec (.swirq c v) s = .next t ∧ t.f (ST_SWIRQ_MSG c) = fget v
      15 0 ∧ (fget v 31 31 = 1 → (t.reg (HIF_IRQ_STAT 9)).toNat.testBit c = true) ∧ Keeps (fun a => a = ST_SWIRQ c ∨ a = HIF_IRQ_STAT 9)
      [.host, .tail, .mesh] s t) ∧
    (∀ (c i : Nat) (v : Word) (b : Bool) (x : Instr), c < 16 → s.blockGated c = true → x ∈ [.coreHold c, .coreRelease c, .selfReset c,
      .stMemData c b v, .doorbell c v, .swirq c v, .timerEnable c i v, .watchdogEnable c v, .watchdogKick c v] → exec x s = .next s) ∧
    (∀ (src i : Nat), 1 ≤ src → src ≤ 17 → i < 256 → ∃ t, exec (.semLr src i) s = .next t ∧ mget t.sem none (src - 1) = some i ∧ (∀ c :
      Nat, c ≠ src - 1 → mget t.sem none c = mget s.sem none c) ∧ Keeps (fun a => False) [.sem] s t) ∧
    (∀ (src i : Nat) (v : Word), 1 ≤ src → src ≤ 17 → i < 256 → mget s.sem none (src - 1) = some i → mwf s.sem (fun _ => none) → ∃ t, exec
      (.semSc src i v) s = .next t ∧ t.f (STW_SEM_VALUE i) = v.toNat ∧ (∀ c : Nat, mget t.sem none c = if mget s.sem none c = some i then
      none else mget s.sem none c) ∧ Keeps (fun a => a = STW_SEM i) [.sem] s t) ∧
    (∀ (src i : Nat) (v : Word), mget s.sem none (src - 1) ≠ some i ∨ src = 0 ∨ 17 < src → ∃ t, exec (.semSc src i v) s = .next t ∧ t = s) ∧
    (∀ (i : Nat) (v : Word), i < 256 → mwf s.sem (fun _ => none) → ∃ t, exec (.semWrite i v) s = .next t ∧ t.f (STW_SEM_VALUE i) = v.toNat
      ∧ (∀ c : Nat, mget t.sem none c = if mget s.sem none c = some i then none else mget s.sem none c) ∧ Keeps (fun a => a = STW_SEM i)
      [.sem] s t)

/-- While no instruction that takes the balls is current: TEST_LOGIC_RESET and IDCODE select IDCODE and capture the identification word,
  BYPASS (and every code of no other instruction) captures 0, DBG_REG and CFG_DATA capture their registers (0 in Sealed), AUTH the next
  word of the challenge; Capture-IR shows whether a debug access is in progress, SAMPLE/PRELOAD captures the balls and updates the
  boundary register; nothing else changes. EXTEST, EXTEST_PULSE, EXTEST_TRAIN and CLAMP put the boundary register onto the balls, HIGHZ
  lets go of them, and no Gleis port stays UP. TEST_LOGIC_RESET returns the balls. A CFG_DATA_WORD of a running scan-port load with room
  in the buffer appends the word. (Shown to complete, each with its own effect: testLogicReset, idcode, bypass, dbgReg, auth, cfgData,
  samplePreload, extest, extestPulse, extestTrain, clamp, highz, cfgDataWord, ballInputChange.) -/
def Obligations.ScanInstructions : Prop :=
  ∀ s : State, s.Calm → 
    (s.scanTakes = false → ∃ t, exec (.testLogicReset) s = .next t ∧ t.scan =
      { s.scan with ir := 2, dr := s.f DEV_REV_STEPPING % 16 * 2 ^ 28 + 0x51844C9 } ∧ Keeps (fun a => False) [.scan] s t) ∧
    (s.scanTakes = false → ∃ t, exec (.idcode) s = .next t ∧ t.scan =
      { s.scan with ir := 2, irCap := 1 + 4 * b2n s.scan.busy, dr := s.f DEV_REV_STEPPING % 16 * 2 ^ 28 + 0x51844C9 } ∧ Keeps (fun a =>
      False) [.scan] s t) ∧
    (∀ (code : Nat), s.scanTakes = false → ∃ t, exec (.bypass code) s = .next t ∧ t.scan =
      { s.scan with ir := (if knownIr code then 0xFF else code % 256), irCap := 1 + 4 * b2n s.scan.busy, dr := 0 } ∧ Keeps (fun a =>
      False) [.scan] s t) ∧
    (s.scanTakes = false → ∃ t, exec (.dbgReg) s = .next t ∧ t.scan =
      { s.scan with ir := 0x10, irCap := 1 + 4 * b2n s.scan.busy, dr := if s.secState = 2 then 0 else (if s.scan.busy then 1 else s.scan.ack) + s.scan.rdata.toNat * 2 ^ 49 + s.scan.status % 16 * 2 ^ 81 }
      ∧ Keeps (fun a => False) [.scan] s t) ∧
    (∀ (n : Nat), s.scanTakes = false → s.secState ≠ 2 → s.sec.nonce = some n → s.sec.authWord < 12 → s.on SEC_AUTH_STAT_LOCKED_OUT =
      false → ∃ t, exec (.auth) s = .next t ∧ t.scan =
      { s.scan with ir := 0x11, irCap := 1 + 4 * b2n s.scan.busy, dr := (s.sec.fuses.uid % 2 ^ 128 + n % 2 ^ 256 * 2 ^ 128) / 2 ^ (32 * s.sec.authWord) % 2 ^ 32 }
      ∧ t.sec = { s.sec with authWord := s.sec.authWord + 1 } ∧ Keeps (fun a => False) [.scan, .sec] s t) ∧
    (s.scanTakes = false → ∃ t, exec (.cfgData) s = .next t ∧ t.scan =
      { s.scan with ir := 0x12, irCap := 1 + 4 * b2n s.scan.busy, dr := if s.secState = 2 ∨ s.scanLoad = false then 0 else b2n (decide (s.scan.buf.length < 1024)) + 2 * b2n s.scan.overrun }
      ∧ Keeps (fun a => False) [.scan] s t) ∧
    (∀ (v env : Nat), s.scanTakes = false → ∃ t, exec (.samplePreload v env) s = .next t ∧ t.scan.ir = 1 ∧ t.scan.bsr = v % 2 ^ 863 ∧
      Keeps (fun a => False) [.scan] s t) ∧
    (∀ (v env : Nat), s.scanTakes = false → ∃ t, exec (.extest v env) s = .next t ∧ t.scan.ir = 0 ∧ t.scan.bsr = v % 2 ^ 863 ∧ t.pin.bs =
      some (v % 2 ^ 863) ∧ (∀ n : Nat, n < 16 → t.portUp n = false) ∧ t.scan.irCap = 1 + 4 * b2n s.scan.busy ∧ t.round = s.round ∧ t.fig =
      s.fig ∧ t.hbm = s.hbm ∧ t.core = s.core ∧ t.sem = s.sem ∧ t.pending = s.pending) ∧
    (∀ (v env : Nat), s.scanTakes = false → ∃ t, exec (.extestPulse v env) s = .next t ∧ t.scan.ir = 5 ∧ t.scan.bsr = v % 2 ^ 863 ∧
      t.pin.bs = some (v % 2 ^ 863) ∧ (∀ n : Nat, n < 16 → t.portUp n = false) ∧ t.scan.irCap = 1 + 4 * b2n s.scan.busy ∧ t.round =
      s.round ∧ t.fig = s.fig ∧ t.hbm = s.hbm ∧ t.core = s.core ∧ t.sem = s.sem ∧ t.pending = s.pending) ∧
    (∀ (v env : Nat), s.scanTakes = false → ∃ t, exec (.extestTrain v env) s = .next t ∧ t.scan.ir = 6 ∧ t.scan.bsr = v % 2 ^ 863 ∧
      t.pin.bs = some (v % 2 ^ 863) ∧ (∀ n : Nat, n < 16 → t.portUp n = false) ∧ t.scan.irCap = 1 + 4 * b2n s.scan.busy ∧ t.round =
      s.round ∧ t.fig = s.fig ∧ t.hbm = s.hbm ∧ t.core = s.core ∧ t.sem = s.sem ∧ t.pending = s.pending) ∧
    (s.scanTakes = false → ∃ t, exec (.clamp) s = .next t ∧ t.scan.ir = 3 ∧ t.scan.bsr = s.scan.bsr ∧ t.scan.dr = 0 ∧ t.pin.bs = some
      (s.scan.bsr) ∧ (∀ n : Nat, n < 16 → t.portUp n = false) ∧ t.scan.irCap = 1 + 4 * b2n s.scan.busy ∧ t.round = s.round ∧ t.fig = s.fig
      ∧ t.hbm = s.hbm ∧ t.core = s.core ∧ t.sem = s.sem ∧ t.pending = s.pending) ∧
    (s.scanTakes = false → ∃ t, exec (.highz) s = .next t ∧ t.scan.ir = 4 ∧ t.scan.bsr = s.scan.bsr ∧ t.scan.dr = 0 ∧ t.pin.bs = some (0)
      ∧ (∀ n : Nat, n < 16 → t.portUp n = false) ∧ t.scan.irCap = 1 + 4 * b2n s.scan.busy ∧ t.round = s.round ∧ t.fig = s.fig ∧ t.hbm =
      s.hbm ∧ t.core = s.core ∧ t.sem = s.sem ∧ t.pending = s.pending) ∧
    (s.scanTakes = true → ∃ t, exec (.testLogicReset) s = .next t ∧ t.scan = { s.scan with ir := 2, dr := s.idWord } ∧ t.pin.bs = none ∧
      t.round = s.round ∧ t.fig = s.fig ∧ t.core = s.core ∧ t.hbm = s.hbm ∧ t.pending = s.pending) ∧
    (∀ (w : Word), s.scan.ir = 0x12 → s.scanSource = true → s.scanLoad = true → s.scan.buf.length < 1024 → ∃ t, exec (.cfgDataWord w) s =
      .next t ∧ t.scan.buf = s.scan.buf ++ [w] ∧ t.scan.overrun = s.scan.overrun ∧ Keeps (fun a => False) [.scan] s t) ∧
    (∀ (i : Nat) (v : Option Bool), i < 160 → ∃ t, exec (.ballInputChange [(i, v)]) s = .next t ∧ t.pin.ext = mset s.pin.ext (some false)
      i v ∧ t.round = s.round ∧ t.fig = s.fig ∧ t.core = s.core ∧ t.hbm = s.hbm ∧ t.scan = s.scan ∧ t.pending = s.pending)

/-- A DEBUG_READ or DEBUG_WRITE that the security state accepts while none is in progress sets BUSY and queues its 4-byte access under the
  debug port's tag (source 21 in consume mode, 22 in peek mode); its end loads ACK, STATUS and the data. ATTACH in Unbound by a debug
  source sets ATTACHED; DETACH clears it, AUTHED and PERMS. HALT of a running core makes its cause visible and HALT_ENTRY halts it with
  EV_DBG_HALT (320); a breakpoint makes its cause visible. RESUME and STEP run a halted core. A feed of LDI to a halted core writes the
  register and nothing else; a write of its PC sets PC. (Shown to complete, each with its own effect: debugRead, debugWrite,
  debugAccessDone, dbgAttach, dbgDetach, dbgHalt, haltEntry, breakpoint, dbgResume, dbgStep, dbgFeed, coreRegisterAccess.) -/
def Obligations.DebugAccess : Prop :=
  ∀ s : State, s.Calm → 
    (∀ (addr : Nat) (consume : Bool), s.scan.ir = 0x10 → s.secState ≠ 2 → s.scan.busy = false → s.dbgMay false (addr % 2 ^ 48 / 4 * 4) 0 =
      true → s.tagAt (64 * (if consume then 21 else 22)) = .idle → ∃ t, exec (.debugRead addr consume) s = .next t ∧ t.scan =
      { s.scan with busy := true, held := none } ∧ t.tagAt (64 * (if consume then 21 else 22)) = .queued ⟨if consume then 21 else 22, 0,
      false, addr % 2 ^ 48 / 4 * 4, 4, 0, 0, 0, 0⟩ ∧ Keeps (fun a => False) [.scan, .mesh] s t) ∧
    (∀ (addr : Nat) (consume : Bool) (v : Word), s.scan.ir = 0x10 → s.secState ≠ 2 → s.scan.busy = false → s.dbgMay true (addr % 2 ^ 48 /
      4 * 4) v = true → s.tagAt (64 * (if consume then 21 else 22)) = .idle → ∃ t, exec (.debugWrite addr consume v) s = .next t ∧ t.scan
      = { s.scan with busy := true, held := none } ∧ t.tagAt (64 * (if consume then 21 else 22)) = .queued ⟨if consume then 21 else 22, 0,
      true, addr % 2 ^ 48 / 4 * 4, 4, 15 <<< (addr % 2 ^ 48 / 4 * 4 % 64), v.toNat * 2 ^ (8 * (addr % 2 ^ 48 / 4 * 4 % 64)), 0, 0⟩ ∧ Keeps
      (fun a => False) [.scan, .mesh] s t) ∧
    (∀ (a : Acc) (r : Rsp), mget s.mesh.inbox [] 21 = [(a, r)] → a.write = false → ∃ t, exec (.debugAccessDone) s = .next t ∧ t.scan.busy
      = false ∧ t.scan.ack = (if r.status = 0 then 0 else 2) ∧ t.scan.status = r.status ∧ t.scan.rdata = BitVec.ofNat 32 (if r.status = 0
      then r.data >>> (8 * (a.addr % 64)) else 0) ∧ mget t.mesh.inbox [] 21 = [] ∧ Keeps (fun a => False) [.scan, .mesh] s t) ∧
    (∀ (src : Nat), src = 21 ∨ src = 22 → s.secState = 0 ∨ (s.secState = 1 ∧ s.on DBG_CTRL_AUTHED = true) → ∃ t, exec (.dbgAttach src) s =
      .next t ∧ t.attached = true ∧ t.on BAL_PWR_STAT_EMULATED = true ∧ (t.reg (HIF_IRQ_STAT 10)).toNat.testBit 1 = true ∧ t.round =
      s.round ∧ t.core = s.core ∧ t.hbm = s.hbm ∧ t.pending = s.pending) ∧
    (∀ (src : Nat), src = 21 ∨ src = 22 → s.attached = true → ∃ t, exec (.dbgDetach src) s = .next t ∧ t.attached = false ∧ t.on
      BAL_PWR_STAT_EMULATED = false ∧ t.f SEC_AUTH_STAT_PERMS = 0 ∧ t.on DBG_CTRL_AUTHED = false ∧ t.reg DBG_XTRIG = 0 ∧ (∀ c : Nat, c <
      17 → t.coreSt c = if s.coreSt c = 3 then 1 else s.coreSt c) ∧ t.round = s.round ∧ t.pending = s.pending) ∧
    (∀ (src c : Nat), c < 17 → s.dbgReach src = true → s.attached = true → s.secState = 0 ∨ s.perms.testBit 0 = true → s.coreSt c = 1 ∨
      s.coreSt c = 2 → (s.coreOf c).halt = none → ∃ t, exec (.dbgHalt src c) s = .next t ∧ t.coreOf c =
      { (s.coreOf c) with halt := some (0, 0) } ∧ Keeps (fun a => False) [.core] s t) ∧
    (∀ (c why unit : Nat), c < 17 → (s.coreOf c).halt = some (why, unit) → s.coreSt c = 1 ∨ s.coreSt c = 2 → s.coreClock c = true →
      (s.coreOf c).stall = none → s.postedOpen (coreSrc c) = false → ∃ t, exec (.haltEntry c) s = .next t ∧ t.coreSt c = 3 ∧ t.on
      (DBG_CORE_STAT_HALTED c) = true ∧ t.f (DBG_CORE_STAT_WHY c) = why % 8 ∧ (t.coreOf c).halt = none ∧ (t.coreOf c).stepping = false ∧
      (t.coreOf c).resv = none ∧ t.pcOf c = s.pcOf c ∧ (t.reg (HIF_IRQ_STAT 10)).toNat.testBit 0 = true ∧ t.round = s.round ∧ t.hbm =
      s.hbm ∧ t.pending = s.pending) ∧
    (∀ (c i : Nat), c < 17 → s.canIssue c = true → s.bpHit c = some i → ∃ t, exec (.breakpoint c) s = .next t ∧ t.coreOf c =
      { (s.coreOf c) with halt := some (2, i) } ∧ Keeps (fun a => False) [.core] s t) ∧
    (∀ (src c : Nat), c < 17 → s.dbgReach src = true → s.attached = true → s.secState = 0 ∨ s.perms.testBit 0 = true → s.coreSt c = 3 → ∃
      t, exec (.dbgResume src c) s = .next t ∧ t.coreSt c = 1 ∧ t.on (DBG_CORE_STAT_HALTED c) = false ∧ (t.coreOf c).skipBp = true ∧
      (t.coreOf c).stepping = false ∧ t.pcOf c = s.pcOf c ∧ Keeps (fun a => a = ST_STAT c ∨ a = DBG_CORE_STAT c ∨ a = DBG_STAT ∨ a =
      ST_WDT_CNT c ∨ a = ST_WDT_STAT c) [.core] s t) ∧
    (∀ (src c : Nat), c < 17 → s.dbgReach src = true → s.attached = true → s.secState = 0 ∨ s.perms.testBit 0 = true → s.coreSt c = 3 → ∃
      t, exec (.dbgStep src c) s = .next t ∧ t.coreSt c = 1 ∧ (t.coreOf c).skipBp = true ∧ (t.coreOf c).stepping = true ∧ t.pcOf c =
      s.pcOf c ∧ Keeps (fun a => a = ST_STAT c ∨ a = DBG_CORE_STAT c ∨ a = DBG_STAT ∨ a = ST_WDT_CNT c ∨ a = ST_WDT_STAT c) [.core] s t) ∧
    (∀ (src c : Nat) (w : Word), c < 17 → s.dbgReach src = true → s.attached = true → s.secState = 0 ∨ s.perms.testBit 0 = true → s.coreSt
      c = 3 → s.coreClock c = true → (s.coreOf c).stall = none → insnKind w = some 97 → fget w 27 25 ≠ 5 ∨ fget w 24 20 ≠ 5 → ∃ t, exec
      (.dbgFeed src c w) s = .next t ∧ t.coreOf c = (s.coreOf c).writeReg c (fget w 27 25) (fget w 24 20) (fget w 15 0) 0 ∧ Keeps (fun a
      => False) [.core] s t) ∧
    (∀ (src c : Nat) (v : Word), c < 17 → s.dbgReach src = true → s.attached = true → s.secState = 0 ∨ s.perms.testBit 0 = true → s.coreSt
      c = 3 → s.coreClock c = true → ∃ t, exec (.coreRegisterAccess src c true (some v)) s = .next t ∧ t.pcOf c = fget v 15 2 * 4 + (if c
      = 16 then fget v 16 16 else s.f (ST_STAT_PCR c)) * 2 ^ 16 ∧ t.coreSt c = 3 ∧ Keeps (fun a => a = ST_STAT c) [] s t) ∧
    (∀ (src c : Nat), c < 17 → s.dbgReach src = true → s.attached = true → s.secState = 0 ∨ s.perms.testBit 0 = true → ∃ t, exec
      (.coreRegisterAccess src c false none) s = .next t ∧ t = s)

/-- At the first edge of a window (a FIG edge that is a multiple of 1,500, once) the grants formed in the last window take effect, USED
  shows the charge of the window that ended, the request is formed from it, the allowance is refilled with its deficit carried, and new
  grants are formed within the effective budget. A report of the meters takes its charge from the allowances; a reserved consumer above
  its reservation sets OVER; the memory ports stop while the allowance of consumer 16 is below 0. The round hold is asserted exactly
  while an allowance of a sector is below its BOW_RES with EN set, or the clamp is visible or the trip is on. A droop detector that
  trips counts, names its die, raises EV_BAL_DROOP and, with DROOP_EN, clamps, visible from the next edge. (Shown to complete, each with
  its own effect: ballastWindow, consumerOver, memoryPortStop, droopTrip, droopRelease.) -/
def Obligations.Ballast : Prop :=
  ∀ s : State, s.Calm → 
    (∀ (m : List Nat) (temps : List Int), s.balDue = true → ∃ t, exec (.ballastWindow m temps) s = .next t ∧ (∀ i : Nat, i < 17 → t.f
      (BAL_CON_GRANT_GRANT i) = (if i = 16 ∧ s.hbmHot = true then min (mget s.bal.next 0 16) (s.f (BAL_CON_CFG_FLOOR 16)) else mget
      s.bal.next 0 i) % 512 ∧ t.f (BAL_CON_USED_USED i) = (mget s.bal.sum 0 i + m.getD i 0) % 2 ^ 32 ∧ t.f (BAL_CON_GRANT_REQ i) = min
      ((t.f (BAL_CON_USED_USED i) + 1499) / 1500 + if i ∈ (s.meterRead m).bal.held then s.f (BAL_CON_CFG_STEP i) else 0) s.budget ∧
      t.allow i = t.f (BAL_CON_GRANT_GRANT i) * 1500 + max (min (sext 32 (wrap 32 (s.allow i - (m.getD i 0 : Int)))) 0) (-((s.f
      BAL_CTRL_DEBT_MAX : Int) * 1500))) ∧ t.bal.sum = [] ∧ t.bal.served = some s.fig.toNat ∧ t.bal.portStop = false ∧ t.f
      (BAL_CON_GRANT_GRANT 17) = s.balRsv 17 ∧ t.f (BAL_CON_GRANT_GRANT 18) = s.balRsv 18 ∧ t.on BAL_STAT_HOLD = (decide (∃ i : Fin 16,
      s.on BAL_CTRL_EN = true ∧ t.allow i.1 < (s.f (BAL_CON_RES_BOW_RES i.1) : Int)) || t.clamped || t.on BAL_STAT_TRIP) ∧ t.bal.hold =
      t.on BAL_STAT_HOLD ∧ Keeps (fun a => InBlocks [10] a ∨ a = HIF_IRQ_STAT 10) [.bal, .host, .tail, .mesh] s t) ∧
    (∀ (m : List Nat) (temps : List Int) (tj : Int) (die : Nat), s.balDue = true → temps.length = 5 → temps.getD die 0 = tj → die < 5 → ∀
      i : Nat, i < 5 → temps.getD i 0 ≤ tj → ∀ i : Nat, i < die → temps.getD i 0 < tj → ∃ t, exec (.ballastWindow m temps) s = .next t ∧
      t.f BAL_STAT_EFF_BUDGET = (if tj ≤ (s.f BAL_THERM_CFG_DERATE_C : Int) then s.budget else max (s.budget - s.f BAL_THERM_CFG_DSTEP *
      (tj - (s.f BAL_THERM_CFG_DERATE_C : Int)).toNat) (s.balRsv 17 + s.balRsv 18)) % 512 ∧ t.f BAL_THERM_STAT_SENSOR = die ∧ t.f
      BAL_THERM_STAT_TJ = wrap 8 tj ∧ t.on BAL_STAT_TRIP = (decide ((s.f BAL_THERM_CFG_TRIP_C : Int) ≤ tj) || (s.on BAL_STAT_TRIP &&
      decide ((s.f BAL_THERM_CFG_TRIP_C : Int) - 5 ≤ tj)))) ∧
    (∀ (m : List Nat), ∃ t, exec (.consumerOver m) s = .next t ∧ (∀ i : Nat, i < 17 → t.allow i = sext 32 (wrap 32 (s.allow i - (m.getD i
      0 : Int)))) ∧ (∀ i : Nat, i < 19 → mget t.bal.sum 0 i = mget s.bal.sum 0 i + m.getD i 0) ∧ (∀ i : Nat, i = 17 ∨ i = 18 → t.on
      (BAL_CON_STAT_OVER i) = (s.on (BAL_CON_STAT_OVER i) || decide (s.balRsv i * 1500 < mget s.bal.sum 0 i + m.getD i 0 ∧ i ∉
      s.bal.exceeded))) ∧ t.on BAL_STAT_HOLD = (decide (∃ i : Fin 16, s.on BAL_CTRL_EN = true ∧ t.allow i.1 < (s.f (BAL_CON_RES_BOW_RES
      i.1) : Int)) || t.clamped || t.on BAL_STAT_TRIP) ∧ t.bal.hold = t.on BAL_STAT_HOLD ∧ Keeps (fun a => InBlocks [10] a ∨ a =
      HIF_IRQ_STAT 10) [.bal, .host, .tail, .mesh] s t) ∧
    (∀ (m : List Nat), ∃ t, exec (.memoryPortStop m) s = .next t ∧ t.bal.portStop = (s.bal.portStop || (s.on BAL_CTRL_EN && decide
      (t.allow 16 < 0))) ∧ t.allow 16 = sext 32 (wrap 32 (s.allow 16 - (m.getD 16 0 : Int))) ∧ Keeps (fun a => InBlocks [10] a ∨ a =
      HIF_IRQ_STAT 10) [.bal, .host, .tail, .mesh] s t) ∧
    (∀ (die : Nat), die < 5 → ∃ t, exec (.droopTrip die) s = .next t ∧ t.f BAL_DROOP_STAT_COUNT = min (s.f BAL_DROOP_STAT_COUNT + 1)
      0xFFFF ∧ t.f BAL_DROOP_STAT_SOURCE = die ∧ (t.reg (HIF_IRQ_STAT 10)).toNat.testBit 16 = true ∧ t.on BAL_STAT_CLAMP = (s.on
      BAL_STAT_CLAMP || s.on BAL_CTRL_DROOP_EN) ∧ (s.on BAL_CTRL_DROOP_EN = true → t.on BAL_STAT_HOLD = (decide (∃ i : Fin 16, s.on
      BAL_CTRL_EN = true ∧ t.allow i.1 < (s.f (BAL_CON_RES_BOW_RES i.1) : Int)) || t.clamped || t.on BAL_STAT_TRIP) ∧ t.bal.hold = t.on
      BAL_STAT_HOLD ∧ t.bal.clampFig = if s.on BAL_STAT_CLAMP then s.bal.clampFig else s.fig.toNat) ∧ Keeps (fun a => InBlocks [10] a ∨ a
      = HIF_IRQ_STAT 10) [.bal, .host, .tail, .mesh] s t) ∧
    (s.on BAL_STAT_CLAMP = true → ∃ t, exec (.droopRelease) s = .next t ∧ t.on BAL_STAT_CLAMP = false ∧ t.on BAL_STAT_HOLD = (decide (∃ i
      : Fin 16, s.on BAL_CTRL_EN = true ∧ t.allow i.1 < (s.f (BAL_CON_RES_BOW_RES i.1) : Int)) || t.clamped || t.on BAL_STAT_TRIP) ∧
      t.bal.hold = t.on BAL_STAT_HOLD ∧ Keeps (fun a => InBlocks [10] a) [.bal] s t)

/-- A request of a state that the tolerance and the preconditions allow starts a transition to it, a deeper one sets REFUSED and raises
  EV_PWR_REFUSED; one made while BUSY waits. A wake makes the target Aloft with its cause (4 for software, 1 where the tolerance no
  longer allows the state). The end of a transition to Aloft makes it the state in effect, ends BUSY and raises EV_PWR_STATE. An LTR
  update loads BAL_LTR from the two latencies. (Shown to complete, each with its own effect: powerRequest, powerWake,
  powerTransitionEnd, ltrUpdate.) -/
def Obligations.PowerStates : Prop :=
  ∀ s : State, 
    (∀ (p : Nat), p < 4 → s.on BAL_PWR_STAT_BUSY = false → s.f BAL_PWR_STAT_STATE ≠ p → p = 0 ∨ (exitLat p + s.f BAL_PWR_CFG_MARGIN ≤
      s.tolerance ∧ s.powerPre p = true) → ∃ t, exec (.powerRequest p) s = .next t ∧ t.on BAL_PWR_STAT_BUSY = true ∧ t.f
      BAL_PWR_STAT_TARGET = p ∧ t.f BAL_PWR_STAT_STATE = s.f BAL_PWR_STAT_STATE ∧ t.f BAL_PWR_REQ_STATE = p ∧ Keeps (fun a => a =
      BAL_PWR_STAT ∨ a = BAL_PWR_REQ) [] s t) ∧
    (∀ (p : Nat), p < 4 → s.on BAL_PWR_STAT_BUSY = false → ∀ q : Nat, p ≤ q → q < 4 → q ≠ 0 ∧ (s.tolerance < exitLat q + s.f
      BAL_PWR_CFG_MARGIN ∨ s.powerPre q = false) → ∃ t, exec (.powerRequest p) s = .next t ∧ t.on BAL_PWR_STAT_REFUSED = true ∧ (t.reg
      (HIF_IRQ_STAT 10)).toNat.testBit 21 = true ∧ t.f BAL_PWR_STAT_STATE = s.f BAL_PWR_STAT_STATE ∧ t.on BAL_PWR_STAT_BUSY = false ∧
      Keeps (fun a => a = BAL_PWR_STAT ∨ a = BAL_PWR_REQ ∨ a = HIF_IRQ_STAT 10) [.host, .tail, .mesh] s t) ∧
    (∀ (p : Nat), p < 4 → s.on BAL_PWR_STAT_BUSY = true → ∃ t, exec (.powerRequest p) s = .next t ∧ t.bal = { s.bal with req := some p } ∧
      t.f BAL_PWR_REQ_STATE = p ∧ Keeps (fun a => a = BAL_PWR_REQ) [.bal] s t) ∧
    (s.powerAim ≠ 0 → ∃ t, exec (.powerWake true) s = .next t ∧ t.f BAL_PWR_STAT_TARGET = 0 ∧ t.on BAL_PWR_STAT_BUSY = true ∧ t.f
      BAL_PWR_STAT_WAKE_CAUSE = 4 ∧ t.bal = { s.bal with req := none } ∧ Keeps (fun a => a = BAL_PWR_STAT) [.bal] s t) ∧
    (s.powerAim ≠ 0 → s.tolerance < exitLat s.powerAim + s.f BAL_PWR_CFG_MARGIN → ∃ t, exec (.powerWake false) s = .next t ∧ t.f
      BAL_PWR_STAT_TARGET = 0 ∧ t.on BAL_PWR_STAT_BUSY = true ∧ t.f BAL_PWR_STAT_WAKE_CAUSE = 1 ∧ t.bal = { s.bal with req := none } ∧
      Keeps (fun a => a = BAL_PWR_STAT) [.bal] s t) ∧
    (s.powerAim ≠ 0 → exitLat s.powerAim + s.f BAL_PWR_CFG_MARGIN ≤ s.tolerance → s.powerPre s.powerAim = true → s.heldNow = false → ∃ t,
      exec (.powerWake false) s = .next t ∧ t = s) ∧
    (s.on BAL_PWR_STAT_BUSY = true → s.f BAL_PWR_STAT_TARGET = 0 → s.bal.req = none → s.sec.alarmDue = false → ∃ t, exec
      (.powerTransitionEnd) s = .next t ∧ t.f BAL_PWR_STAT_STATE = 0 ∧ t.on BAL_PWR_STAT_BUSY = false ∧ (t.reg (HIF_IRQ_STAT
      10)).toNat.testBit 20 = true ∧ t.round = s.round ∧ t.fig = s.fig ∧ t.sem = s.sem ∧ t.pending = s.pending) ∧
    (∀ (a b : Nat) (e : Bool), s.sec.alarmDue = false → s.powerAim = 0 → ∃ t, exec (.ltrUpdate a b e) s = .next t ∧ t.on BAL_LTR_VALID =
      (e && (decide (ltrLatency a ≠ 0) || decide (ltrLatency b ≠ 0))) ∧ t.f BAL_LTR_TOL = min ((if ltrLatency a = 0 then ltrLatency b else
      if ltrLatency b = 0 then ltrLatency a else min (ltrLatency a) (ltrLatency b)) / 1000) 0xFFFFF ∧ t.host =
      { s.host with ltrEnable := e, ltrSnoop := a, ltrNoSnoop := b, ltrSent := s.host.ltrSent + if e = true ∧ s.host.ltrEnable = false then 1 else 0 }
      ∧ Keeps (fun a => a = BAL_LTR) [.host] s t)

/-- A configuration TLP sets Bus Master Enable, MSI-X Enable and Function Mask, a BAR or PowerState; a header read completes with the dword;
  a memory TLP becomes accesses of source 0, a BAR0 dword one 4-byte access at 0x200_0000_0000 plus its offset under the first free tag;
  in D3hot a read completes as Unsupported Request. Nothing is taken while the link is down. A completion gives an H2D descriptor its
  data and issues its device accesses, an error or a timeout puts its ring into ERROR with cause 3 (no fence on source 0 pending). The
  link coming up shows its speed and width and raises EV_HIF_LINK; a hot reset clears UP, sets HOT_RESET, returns the registers it
  reaches to their reset values and gives up the rings' work. A device event sets its HIF_IRQ_STAT bit and, where routed, the pending
  bit of its vector; a pending vector that nothing masks sends its message. (Shown to complete, each with its own effect: hostTlp,
  hostCompletion, hostTimeout, hotReset, pcieLinkUp, deviceIrq, msixMessage.) -/
def Obligations.HostTraffic : Prop :=
  ∀ s : State, s.Calm → 
    (∀ (p : HostTlp), s.on HIF_LINK_STAT_UP = false → ∃ t, exec (.hostTlp p) s = .next t ∧ t = s) ∧
    (∀ (b m f : Bool), s.on HIF_LINK_STAT_UP = true → ∃ t, exec (.hostTlp (.config b m f)) s = .next t ∧ t.host =
      { s.host with busMaster := b, msixEnable := m, funcMask := f } ∧ Keeps (fun a => False) [.host] s t) ∧
    (∀ (i : Nat) (v : Word), s.on HIF_LINK_STAT_UP = true → i < 4 → ∃ t, exec (.hostTlp (.bar i v)) s = .next t ∧ t.host =
      { s.host with bars := mset s.host.bars 0 i v } ∧ Keeps (fun a => False) [.host] s t) ∧
    (∀ (d : Bool), s.on HIF_LINK_STAT_UP = true → ∃ t, exec (.hostTlp (.power d)) s = .next t ∧ t.host = { s.host with d3 := d } ∧ Keeps
      (fun a => False) [.host] s t) ∧
    (∀ (i v : Nat), s.on HIF_LINK_STAT_UP = true → s.cfgHeader i = some v → ∃ t, exec (.hostTlp (.header i)) s = .next t ∧ t.host =
      { s.host with cpl := s.host.cpl ++ [(0, v)] } ∧ Keeps (fun a => False) [.host] s t) ∧
    (∀ (w : Bool) (off v : Nat), s.on HIF_LINK_STAT_UP = true → s.host.d3 = false → off % 4 = 0 → off < 0x2000000 → w = true ∨ s.hostReads
      < 512 → s.host.todo = [] → s.tagAt 0 = .idle → ∃ t, exec (.hostTlp (.mem w false off 4 15 v false false false 0)) s = .next t ∧
      t.tagAt 0 = .queued ⟨0, 0, w, 0x20000000000 + off, 4, 15 <<< ((0x20000000000 + off) % 64), v % 2 ^ 32 * 2 ^ (8 * ((0x20000000000 +
      off) % 64)), 0, s.host.tlpSeq⟩ ∧ t.host =
      { s.host with tlpSeq := s.host.tlpSeq + 1, tlps := s.host.tlps ++ [⟨s.host.tlpSeq, w, false, 0x20000000000 + off, 4, 1, 0, 0, false, 0, 0⟩], todo := [] }
      ∧ Keeps (fun a => False) [.host, .mesh] s t) ∧
    (∀ (b : Bool) (off n be v : Nat), s.on HIF_LINK_STAT_UP = true → s.host.d3 = true → s.hostReads < 512 → ∃ t, exec (.hostTlp (.mem
      false b off n be v false false false 0)) s = .next t ∧ t.host = { s.host with cpl := s.host.cpl ++ [(2, 0)] } ∧ Keeps (fun a =>
      False) [.host] s t) ∧
    (∀ (r i v off : Nat) (ep : Bool) (d : Desc), s.hostThere = true → s.descAt r i = some d → d.d2h = false → d.moved = false → d.ring = r
      → d.len = 4 → d.dev = 0x20000000000 + off → off % 4 = 0 → off < 0x1200000 → s.host.todo = [] → s.tagAt 0 = .idle → s.fencesOf 0 = []
      → ∃ t, exec (.hostCompletion (.data r i) true ep v ⟨false, false, 0⟩) s = .next t ∧ t.host =
      { s.host with descs := s.host.descs.map (fun x => if x.id = d.id then { d with data := v % 2 ^ (8 * d.len), poison := ep, moved := true, left := 1 } else x), ops := s.host.ops.filter (fun k => !(k == d.op)) }
      ∧ t.tagAt 0 = .queued ⟨0, 0, true, d.dev, 4, 15 <<< (d.dev % 64), (v % 2 ^ 32) <<< (8 * (d.dev % 64)), if ep then wordMask d.dev 4
      else 0, d.id⟩ ∧ t.on (HIF_RING_STAT_POISON r) = (s.on (HIF_RING_STAT_POISON r) || ep) ∧ Keeps (fun a => a = HIF_RING_STAT r) [.host,
      .mesh] s t) ∧
    (∀ (r i v : Nat) (ep : Bool) (d : Desc), s.descAt r i = some d → d.d2h = false → d.moved = false → s.on (HIF_RING_STAT_ERROR r) =
      false → s.fencesOf 0 = [] → ∃ t, exec (.hostCompletion (.data r i) false ep v ⟨false, false, 0⟩) s = .next t ∧ t.on
      (HIF_RING_STAT_ERROR r) = true ∧ t.f (HIF_RING_STAT_CAUSE r) = 3 ∧ t.descAt r i = none ∧ (t.reg (HIF_IRQ_STAT 11)).toNat.testBit 1 =
      true ∧ Keeps (fun a => a = HIF_RING_STAT r ∨ a = HIF_IRQ_STAT 11) [.host, .tail, .mesh] s t) ∧
    (∀ (r i : Nat) (d : Desc), s.descAt r i = some d → d.d2h = false → d.moved = false → s.on (HIF_RING_STAT_ERROR r) = false → s.fencesOf
      0 = [] → ∃ t, exec (.hostTimeout (.data r i)) s = .next t ∧ t.on (HIF_RING_STAT_ERROR r) = true ∧ t.f (HIF_RING_STAT_CAUSE r) = 3 ∧
      t.descAt r i = none ∧ (t.reg (HIF_IRQ_STAT 11)).toNat.testBit 1 = true ∧ Keeps (fun a => a = HIF_RING_STAT r ∨ a = HIF_IRQ_STAT 11)
      [.host, .tail, .mesh] s t) ∧
    (s.cfg.load = none → ∃ t, exec (.hotReset) s = .next t ∧ t.on HIF_LINK_STAT_UP = false ∧ t.on HIF_LINK_STAT_HOT_RESET = true ∧ (∀ a :
      Nat, isHot a = true → a ≠ HIF_LINK_STAT → a ≠ HIF_IRQ_STAT 11 → t.reg a = resetWord a) ∧ t.host =
      { s.host.cleared with pend := t.host.pend } ∧ t.reg BAL_LTR = 0 ∧ (t.reg (HIF_IRQ_STAT 11)).toNat.testBit 2 = true ∧ t.fab = s.fab ∧
      t.lat = s.lat ∧ t.round = s.round ∧ t.core = s.core ∧ t.hbm = s.hbm ∧ t.sec = s.sec ∧ t.pending = s.pending) ∧
    (∀ (speed width : Nat), s.scanTakes = false → speed < 8 → width ≤ 16 → ∃ t, exec (.pcieLinkUp speed width) s = .next t ∧ t.on
      HIF_LINK_STAT_UP = true ∧ t.f HIF_LINK_STAT_SPEED = speed ∧ t.f HIF_LINK_STAT_WIDTH = width ∧ (t.reg (HIF_IRQ_STAT
      11)).toNat.testBit 2 = true ∧ Keeps (fun a => a = HIF_LINK_STAT ∨ a = HIF_IRQ_STAT 11) [.host, .tail, .mesh] s t) ∧
    (∀ (i : Nat), i < 512 → ∃ t, exec (.deviceIrq i) s = .next t ∧ (t.reg (HIF_IRQ_STAT (i / 32))).toNat.testBit (i % 32) = true ∧ t.host
      = { s.host with pend := if s.on (HIF_IRQ_ROUTE_EN i) then ladd s.host.pend (s.f (HIF_IRQ_ROUTE_VECTOR i)) else s.host.pend } ∧
      t.mesh = { s.mesh with irqMsgs := s.mesh.irqMsgs ++ (s.irqCores i).map fun c => (c, i) } ∧ Keeps (fun a => a = HIF_IRQ_STAT (i /
      32)) [.host, .tail, .mesh] s t) ∧
    (∀ (v : Nat), v ∈ s.host.pend → s.host.msixEnable = true → s.host.funcMask = false → s.hostThere = true → (mget s.host.msix Msix.init
      v).masked = false → ∃ t, exec (.msixMessage v) s = .next t ∧ t.host =
      { s.host with pend := ldel s.host.pend v, sent := v :: s.host.sent } ∧ Keeps (fun a => False) [.host] s t) ∧
    (∀ (v : Nat), v ∉ s.host.pend ∨ s.host.msixEnable = false ∨ s.host.funcMask = true ∨ s.hostThere = false ∨ (mget s.host.msix Msix.init
      v).masked = true → ∃ t, exec (.msixMessage v) s = .next t ∧ t = s)

/-- EN of a ring going from 0 to 1 clears HEAD, TAIL and HIF_RING_STAT, takes SIZE and VECTOR and finishes what the ring had in progress
  without it. A doorbell within the ring sets TAIL, one beyond it puts the ring into ERROR with cause 5, one on a disabled ring does
  nothing. While no fence on source 0 is pending the engine takes the next descriptor of the ring whose turn it is: an H2D one asks the
  host for its data, a D2H one of one register dword queues its read; a fetch that fails gives cause 2, a malformed descriptor cause 1.
  An H2D descriptor at HEAD whose writes have completed is complete: HEAD advances, with the write-back where an address is set and the
  vector where INTERRUPT is set. A D2H one whose reads have returned writes the host, and is complete, or with INTERRUPT waits for its
  zero-length read. A device access that fails gives cause 4. (Shown to complete, each with its own effect: ringEnable, ringDoorbell,
  descriptorStart, descriptorComplete.) -/
def Obligations.HostRings : Prop :=
  ∀ s : State, s.Calm → 
    (∀ (r : Nat) (v : Word), r < 1024 → s.on (HIF_RING_CFG_EN r) = false → v.toNat.testBit 31 = true → ∃ t, exec (.ringEnable r v) s =
      .next t ∧ t.reg (HIF_RING_PTR r) = 0 ∧ t.reg (HIF_RING_STAT r) = 0 ∧ t.on (HIF_RING_CFG_EN r) = true ∧ t.f (HIF_RING_CFG_SIZE r) =
      fget v 4 0 ∧ t.f (HIF_RING_CFG_VECTOR r) = fget v 26 16 ∧ t.host =
      { s.host with descs := s.host.descs.filter (fun d => d.ring != r), todo := t.host.todo, ops := t.host.ops } ∧ Keeps (fun a => a =
      HIF_RING_CFG r ∨ a = HIF_RING_PTR r ∨ a = HIF_RING_STAT r) [.host] s t) ∧
    (∀ (r : Nat) (v : Word), r < 1024 → s.on (HIF_RING_CFG_EN r) = true → ∃ t, exec (.ringEnable r v) s = .next t ∧ t.f (HIF_RING_CFG_SIZE
      r) = s.f (HIF_RING_CFG_SIZE r) ∧ t.f (HIF_RING_CFG_EN r) = fget v 31 31 ∧ t.f (HIF_RING_CFG_VECTOR r) = fget v 26 16 ∧ Keeps (fun a
      => a = HIF_RING_CFG r) [] s t) ∧
    (∀ (r v : Nat), r < 1024 → s.on (HIF_RING_CFG_EN r) = true → v < 2 ^ s.ringSize r → ∃ t, exec (.ringDoorbell r v) s = .next t ∧ t.f
      (HIF_RING_PTR_TAIL r) = v ∧ t.f (HIF_RING_PTR_HEAD r) = s.f (HIF_RING_PTR_HEAD r) ∧ Keeps (fun a => a = HIF_RING_PTR r) [] s t) ∧
    (∀ (r v : Nat), r < 1024 → s.on (HIF_RING_CFG_EN r) = true → 2 ^ s.ringSize r ≤ v → v < 65536 → s.on (HIF_RING_STAT_ERROR r) = false →
      ∃ t, exec (.ringDoorbell r v) s = .next t ∧ t.on (HIF_RING_STAT_ERROR r) = true ∧ t.f (HIF_RING_STAT_CAUSE r) = 5 ∧ t.reg
      (HIF_RING_PTR r) = s.reg (HIF_RING_PTR r) ∧ (t.reg (HIF_IRQ_STAT 11)).toNat.testBit 1 = true ∧ Keeps (fun a => a = HIF_RING_STAT r ∨
      a = HIF_IRQ_STAT 11) [.host, .tail, .mesh] s t) ∧
    (∀ (r v : Nat), s.on (HIF_RING_CFG_EN r) = false → ∃ t, exec (.ringDoorbell r v) s = .next t ∧ t = s) ∧
    (∀ (r : Nat) (l : List Nat), s.turnRing = some r → s.host.descs.length < 32 → s.fenceHeld 0 = false → s.hostThere = true → descOk l =
      true → descWord l 0 % 2 = 0 → (descWord l 0).testBit 3 = false ∨ s.ringDescs r = [] → ∃ t, exec (.descriptorStart r (some l)) s =
      .next t ∧ t.host =
      { s.host with lastRing := r, descs := s.host.descs ++ [descOf r (s.ringNext r) s.host.tlpSeq s.host.opSeq l], tlpSeq := s.host.tlpSeq + 1, opSeq := s.host.opSeq + 1, ops := s.host.ops ++ [s.host.opSeq] }
      ∧ Keeps (fun a => False) [.host] s t) ∧
    (∀ (r off : Nat) (l : List Nat), s.turnRing = some r → s.host.descs.length < 32 → s.fenceHeld 0 = false → s.hostThere = true → descOk
      l = true → descWord l 0 % 2 = 1 → (descWord l 0).testBit 3 = false ∨ s.ringDescs r = [] → descWord l 1 = 4 → descWord l 4 + descWord
      l 5 * 2 ^ 32 = 0x20000000000 + off → off < 0x1200000 → s.host.todo = [] → s.tagAt 0 = .idle → ∃ t, exec (.descriptorStart r (some
      l)) s = .next t ∧ t.host =
      { s.host with lastRing := r, descs := (s.host.descs ++ [descOf r (s.ringNext r) s.host.tlpSeq s.host.opSeq l]).map (fun d => if d.id = s.host.tlpSeq then { d with left := 1 } else d), tlpSeq := s.host.tlpSeq + 1 }
      ∧ t.tagAt 0 = .queued ⟨0, 0, false, 0x20000000000 + off, 4, 15 <<< ((0x20000000000 + off) % 64), 0, 0, s.host.tlpSeq⟩ ∧ Keeps (fun a
      => False) [.host, .mesh] s t) ∧
    (∀ (r : Nat) (fetched : Option (List Nat)), s.turnRing = some r → s.host.descs.length < 32 → s.fenceHeld 0 = false → s.hostThere =
      false ∨ fetched = none ∨ fetched.any descOk = false → ∃ t, exec (.descriptorStart r fetched) s = .next t ∧ t.on (HIF_RING_STAT_ERROR
      r) = true ∧ t.f (HIF_RING_STAT_CAUSE r) = (if s.hostThere = true ∧ fetched.isSome = true then 1 else 2) ∧ t.host.descs =
      s.host.descs ∧ (t.reg (HIF_IRQ_STAT 11)).toNat.testBit 1 = true ∧ Keeps (fun a => a = HIF_RING_STAT r ∨ a = HIF_IRQ_STAT 11) [.host,
      .tail, .mesh] s t) ∧
    (∀ (r : Nat) (fetched : Option (List Nat)), s.turnRing ≠ some r ∨ 32 ≤ s.host.descs.length ∨ s.fenceHeld 0 = true → ∃ t, exec
      (.descriptorStart r fetched) s = .next t ∧ t = s) ∧
    (∀ (r n dv ho id v o : Nat) (q f p : Bool), r < 1024 → s.fenceHeld 0 = false → s.host.descs = [⟨r, s.f (HIF_RING_PTR_HEAD r), false,
      q, f, n, ho, dv, id, v, p, true, 0, o, false⟩] → ∃ t, exec (.descriptorComplete r ⟨false, false, 0⟩) s = .next t ∧ t.f
      (HIF_RING_PTR_HEAD r) = (s.f (HIF_RING_PTR_HEAD r) + 1) % 2 ^ s.ringSize r ∧ t.host.descs = [] ∧ t.host.hostWr = (if s.f
      (HIF_RING_WB_LO_WB_LO r) = 0 ∧ s.f (HIF_RING_WB_HI_WB_HI r) = 0 then s.host.hostWr else (s.f (HIF_RING_WB_LO_WB_LO r) * 4 + s.f
      (HIF_RING_WB_HI_WB_HI r) * 2 ^ 32, 4, t.f (HIF_RING_PTR_HEAD r), false) :: s.host.hostWr) ∧ t.host.pend = (if q then ladd
      s.host.pend (s.f (HIF_RING_CFG_VECTOR r)) else s.host.pend) ∧ Keeps (fun a => a = HIF_RING_PTR r) [.host] s t) ∧
    (∀ (r n dv ho id v o : Nat) (f p : Bool), r < 1024 → s.hostThere = true → s.fenceHeld 0 = false → s.host.descs = [⟨r, s.f
      (HIF_RING_PTR_HEAD r), true, false, f, n, ho, dv, id, v, p, false, 0, o, false⟩] → ∃ t, exec (.descriptorComplete r ⟨false, false,
      0⟩) s = .next t ∧ t.f (HIF_RING_PTR_HEAD r) = (s.f (HIF_RING_PTR_HEAD r) + 1) % 2 ^ s.ringSize r ∧ t.host.descs = [] ∧ t.host.hostWr
      = (if s.f (HIF_RING_WB_LO_WB_LO r) = 0 ∧ s.f (HIF_RING_WB_HI_WB_HI r) = 0 then ((ho, n, v, p) :: s.host.hostWr) else (s.f
      (HIF_RING_WB_LO_WB_LO r) * 4 + s.f (HIF_RING_WB_HI_WB_HI r) * 2 ^ 32, 4, t.f (HIF_RING_PTR_HEAD r), false) :: ((ho, n, v, p) ::
      s.host.hostWr)) ∧ t.on (HIF_RING_STAT_POISON r) = (s.on (HIF_RING_STAT_POISON r) || p) ∧ Keeps (fun a => a = HIF_RING_PTR r ∨ a =
      HIF_RING_STAT r) [.host] s t) ∧
    (∀ (r i n dv ho id v o : Nat) (f p : Bool), r < 1024 → s.hostThere = true → s.fenceHeld 0 = false → s.host.descs = [⟨r, i, true, true,
      f, n, ho, dv, id, v, p, false, 0, o, false⟩] → ∃ t, exec (.descriptorComplete r ⟨false, false, 0⟩) s = .next t ∧ t.host =
      { s.host with descs := [⟨r, i, true, true, f, n, ho, dv, id, v, p, true, 0, s.host.opSeq, false⟩], hostWr := (ho, n, v, p) :: s.host.hostWr, opSeq := s.host.opSeq + 1, ops := s.host.ops ++ [s.host.opSeq] }
      ∧ Keeps (fun a => a = HIF_RING_STAT r) [.host] s t) ∧
    (∀ (a : Acc) (x : Rsp) (d : Desc), s.host.tlps.find? (fun y => y.id == a.ref) = none → s.host.descs.find? (fun y => y.id == a.ref) =
      some d → x.status ≠ 0 → s.on (HIF_RING_STAT_ERROR d.ring) = false → s.fencesOf 0 = [] → (s.hostTake a x).on (HIF_RING_STAT_ERROR
      d.ring) = true ∧ (s.hostTake a x).f (HIF_RING_STAT_CAUSE d.ring) = 4 ∧ (s.hostTake a x).descAt d.ring d.index = none ∧ (s.hostTake a
      x).f (HIF_RING_PTR_HEAD d.ring) = s.f (HIF_RING_PTR_HEAD d.ring) ∧ (s.hostTake a x).host.hostWr = s.host.hostWr)

/-- A key write to a protected register with no open sequence opens one for its source; a write with no open sequence that is not the key,
  as every write by the debug port, is dropped and the first one is logged in SEC_LOCK_STAT. With its sequence open, each fuse command
  of STW (source 17) that R547 permits takes its operands, sets BUSY, closes the sequence and clears SEC_KEY_DATA; one that R547 does
  not permit sets ERR and its CAUSE and raises EV_SEC_FUSE. Its completion applies it to the fuses, or, when the programming fails,
  leaves them and gives CAUSE 4. LOAD gives a volatile slot words 0 to 7 of SEC_KEY_DATA and CLEAR empties it. (Shown to complete, each
  with its own effect: unlockOpen, bind, seal, progSk, revokeSk, progDbg, progKey, incVersion, fuseCommandDone, keySlotLoad,
  keySlotClear.) -/
def Obligations.FuseCommands : Prop :=
  ∀ s : State, s.Calm → 
    (∀ (src reg : Nat), reg < 3 → isDbg src = false → src ≠ 0 ∨ s.secState = 0 → s.unlockOf reg = none → ∃ t, exec (.unlockOpen src reg) s
      = .next t ∧ t.sec = { s.sec with unlock := mset s.sec.unlock none reg (some ⟨src, s.fig.toNat⟩) } ∧ Keeps (fun a => False) [.sec] s
      t) ∧
    (∀ (src reg : Nat), reg < 3 → isDbg src = true → ∃ t, exec (.unlockOpen src reg) s = .next t ∧ t.on SEC_LOCK_STAT_LOCK_FAIL = true ∧
      (s.on SEC_LOCK_STAT_LOCK_FAIL = false → t.f SEC_LOCK_STAT_SRC = src ∧ t.f SEC_LOCK_STAT_REG = reg) ∧ Keeps (fun a => a =
      SEC_LOCK_STAT) [] s t) ∧
    (∀ (src : Nat) (late : Bool), src < 64 → src ≠ 0 ∨ s.secState = 0 → s.unlockOf 0 = none → ∃ t, exec (.bind src late) s = .next t ∧
      t.on SEC_LOCK_STAT_LOCK_FAIL = true ∧ (s.on SEC_LOCK_STAT_LOCK_FAIL = false → t.f SEC_LOCK_STAT_SRC = src ∧ t.f SEC_LOCK_STAT_REG =
      0) ∧ Keeps (fun a => a = SEC_LOCK_STAT) [] s t) ∧
    ((s.unlockOf 0).any (fun u => u.src == 17) = true → s.on SEC_FUSE_STAT_BUSY = false → s.secState = 0 → s.sec.fuses.liveSk ≠ [] → ∃ t,
      exec (.bind 17 false) s = .next t ∧ t.sec =
      { s.sec with unlock := mset s.sec.unlock none 0 none, keyData := [], fuseCmd := some (1, 0), fuseData := s.keyWords 12 } ∧ t.on
      SEC_FUSE_STAT_BUSY = true ∧ Keeps (fun a => a = SEC_FUSE_STAT) [.sec] s t) ∧
    ((s.unlockOf 0).any (fun u => u.src == 17) = true → s.secState ≠ 0 ∨ s.sec.fuses.liveSk = [] → ∃ t, exec (.bind 17 false) s = .next t
      ∧ t.on SEC_FUSE_STAT_ERR = true ∧ t.f SEC_FUSE_STAT_CAUSE = 1 ∧ (t.reg (HIF_IRQ_STAT 11)).toNat.testBit 10 = true ∧ t.sec =
      { s.sec with unlock := mset s.sec.unlock none 0 none, keyData := [] } ∧ Keeps (fun a => a = SEC_FUSE_STAT ∨ a = HIF_IRQ_STAT 11)
      [.sec, .host, .tail, .mesh] s t) ∧
    ((s.unlockOf 0).any (fun u => u.src == 17) = true → s.on SEC_FUSE_STAT_BUSY = false → s.secState = 1 → ∃ t, exec (.seal 17 false) s =
      .next t ∧ t.sec =
      { s.sec with unlock := mset s.sec.unlock none 0 none, keyData := [], fuseCmd := some (2, 0), fuseData := s.keyWords 12 } ∧ t.on
      SEC_FUSE_STAT_BUSY = true ∧ Keeps (fun a => a = SEC_FUSE_STAT) [.sec] s t) ∧
    (∀ (slot : Nat), (s.unlockOf 0).any (fun u => u.src == 17) = true → s.on SEC_FUSE_STAT_BUSY = false → slot < 4 → s.secState ≠ 2 → mget
      s.sec.fuses.sk none slot = none → ∃ t, exec (.progSk 17 slot false) s = .next t ∧ t.sec =
      { s.sec with unlock := mset s.sec.unlock none 0 none, keyData := [], fuseCmd := some (3, slot), fuseData := s.keyWords 12 } ∧ t.on
      SEC_FUSE_STAT_BUSY = true ∧ Keeps (fun a => a = SEC_FUSE_STAT) [.sec] s t) ∧
    (∀ (slot : Nat), slot < 4 → (s.unlockOf 0).any (fun u => u.src == 17) = true → s.on SEC_FUSE_STAT_BUSY = false → s.secState ≠ 2 → mget
      s.sec.fuses.sk none slot ≠ none → ∃ t, exec (.progSk 17 slot false) s = .next t ∧ t.on SEC_FUSE_STAT_ERR = true ∧ t.f
      SEC_FUSE_STAT_CAUSE = 2 ∧ (t.reg (HIF_IRQ_STAT 11)).toNat.testBit 10 = true ∧ t.sec =
      { s.sec with unlock := mset s.sec.unlock none 0 none, keyData := [] } ∧ Keeps (fun a => a = SEC_FUSE_STAT ∨ a = HIF_IRQ_STAT 11)
      [.sec, .host, .tail, .mesh] s t) ∧
    (∀ (slot : Nat), (s.unlockOf 0).any (fun u => u.src == 17) = true → s.on SEC_FUSE_STAT_BUSY = false → slot < 4 →
      s.sec.fuses.liveSk.any (fun k => k != slot) = true → ∃ t, exec (.revokeSk 17 slot false) s = .next t ∧ t.sec =
      { s.sec with unlock := mset s.sec.unlock none 0 none, keyData := [], fuseCmd := some (4, slot), fuseData := s.keyWords 12 } ∧ t.on
      SEC_FUSE_STAT_BUSY = true ∧ Keeps (fun a => a = SEC_FUSE_STAT) [.sec] s t) ∧
    (∀ (slot : Nat), slot < 4 → (s.unlockOf 0).any (fun u => u.src == 17) = true → s.on SEC_FUSE_STAT_BUSY = false → ∀ k ∈
      s.sec.fuses.liveSk, k = slot → ∃ t, exec (.revokeSk 17 slot false) s = .next t ∧ t.on SEC_FUSE_STAT_ERR = true ∧ t.f
      SEC_FUSE_STAT_CAUSE = 3 ∧ (t.reg (HIF_IRQ_STAT 11)).toNat.testBit 10 = true ∧ t.sec =
      { s.sec with unlock := mset s.sec.unlock none 0 none, keyData := [] } ∧ Keeps (fun a => a = SEC_FUSE_STAT ∨ a = HIF_IRQ_STAT 11)
      [.sec, .host, .tail, .mesh] s t) ∧
    ((s.unlockOf 0).any (fun u => u.src == 17) = true → s.on SEC_FUSE_STAT_BUSY = false → s.secState ≠ 2 → s.sec.fuses.dbg = none → ∃ t,
      exec (.progDbg 17 false) s = .next t ∧ t.sec =
      { s.sec with unlock := mset s.sec.unlock none 0 none, keyData := [], fuseCmd := some (5, 0), fuseData := s.keyWords 12 } ∧ t.on
      SEC_FUSE_STAT_BUSY = true ∧ Keeps (fun a => a = SEC_FUSE_STAT) [.sec] s t) ∧
    (∀ (slot : Nat), (s.unlockOf 0).any (fun u => u.src == 17) = true → s.on SEC_FUSE_STAT_BUSY = false → 1 ≤ slot → slot < 4 → s.secState
      ≠ 2 → mget s.sec.fuses.key none slot = none → ∃ t, exec (.progKey 17 slot false) s = .next t ∧ t.sec =
      { s.sec with unlock := mset s.sec.unlock none 0 none, keyData := [], fuseCmd := some (6, slot), fuseData := s.keyWords 12 } ∧ t.on
      SEC_FUSE_STAT_BUSY = true ∧ Keeps (fun a => a = SEC_FUSE_STAT) [.sec] s t) ∧
    ((s.unlockOf 0).any (fun u => u.src == 17) = true → s.on SEC_FUSE_STAT_BUSY = false → ∃ t, exec (.incVersion 17 false) s = .next t ∧
      t.sec = { s.sec with unlock := mset s.sec.unlock none 0 none, keyData := [], fuseCmd := some (7, 0), fuseData := s.keyWords 12 } ∧
      t.on SEC_FUSE_STAT_BUSY = true ∧ Keeps (fun a => a = SEC_FUSE_STAT) [.sec] s t) ∧
    (∀ (op slot : Nat), s.sec.fuseCmd = some (op, slot) → ∃ t, exec (.fuseCommandDone false) s = .next t ∧ t.sec =
      { s.sec with fuseCmd := none, fuseData := 0, fuses := s.sec.fuses.apply op slot s.sec.fuseData } ∧ t.on SEC_FUSE_STAT_BUSY = false ∧
      t.f SEC_FUSE_STAT_VERSION = t.sec.fuses.version % 128 ∧ t.f SEC_STATE_STATE = s.f SEC_STATE_STATE ∧ t.f SEC_STATE_PENDING = (if
      t.sec.fuses.sealed then 2 else if t.sec.fuses.bound then 1 else 0) ∧ (t.reg (HIF_IRQ_STAT 11)).toNat.testBit 10 = true ∧ Keeps (fun
      a => a = SEC_FUSE_STAT ∨ a = SEC_STATE ∨ a = HIF_IRQ_STAT 11) [.sec, .host, .tail, .mesh] s t) ∧
    (s.sec.fuseCmd ≠ none → ∃ t, exec (.fuseCommandDone true) s = .next t ∧ t.sec = { s.sec with fuseCmd := none, fuseData := 0 } ∧ t.on
      SEC_FUSE_STAT_BUSY = false ∧ t.on SEC_FUSE_STAT_ERR = true ∧ t.f SEC_FUSE_STAT_CAUSE = 4 ∧ (t.reg (HIF_IRQ_STAT 11)).toNat.testBit
      10 = true ∧ Keeps (fun a => a = SEC_FUSE_STAT ∨ a = HIF_IRQ_STAT 11) [.sec, .host, .tail, .mesh] s t) ∧
    (∀ (slot : Nat), 4 ≤ slot → slot < 8 → (s.unlockOf 1).any (fun u => u.src == 17) = true → ∃ t, exec (.keySlotLoad 17 slot false) s =
      .next t ∧ t.sec =
      { s.sec with unlock := mset s.sec.unlock none 1 none, keyData := [], slots := mset s.sec.slots none slot (some (s.keyWords 8)) } ∧
      Keeps (fun a => False) [.sec] s t) ∧
    (∀ (slot : Nat), 4 ≤ slot → slot < 8 → (s.unlockOf 1).any (fun u => u.src == 17) = true → ∃ t, exec (.keySlotClear 17 slot false) s =
      .next t ∧ t.sec = { s.sec with unlock := mset s.sec.unlock none 1 none, keyData := [], slots := mset s.sec.slots none slot none } ∧
      Keeps (fun a => False) [.sec] s t)

/-- A glitch or a failed random-source test, whose action is always ALARM, and RAISE with ACTION(6) ALARM, set their bits of SEC_ALARM,
  raise EV_SEC_ALARM (360), clear the scrambler keys, the volatile slots and the key data, and leave the round, the fuses and the
  semaphores. RAISE with ACTION(6) REPORT sets its bit and raises the event, and nothing more. A write of 1 clears alarm bits from an
  accepted source; from another it is dropped. With AUTH selected and no check running, a challenge draws a fresh nonce and abandons a
  partial response; once locked out it captures 0. Each response word is kept, each capture returns the next word of UID and nonce, and
  the 49th response word starts the check. A check that passes sets AUTHED, latches PERMS, clears FAILS and consumes the nonce; any
  other counts in FAILS, raises EV_SEC_AUTH, and locks out at 8. With no nonce, no DBG_HASH or a used nonce no check passes. (Shown to
  complete, each with its own effect: glitchDetect, rngHealthFail, alarmRaise, alarmClear, challengeRequest, responseWord, authCheck.) -/
def Obligations.AlarmsAndAuthentication : Prop :=
  ∀ s : State, s.Calm → 
    ((s.f SEC_ALARM_CFG_ACTION).testBit 4 = true → s.secState = 0 → ∃ t, exec (.glitchDetect) s = .next t ∧ t.f SEC_ALARM_AL = s.f
      SEC_ALARM_AL ||| 16 ∧ (t.reg (HIF_IRQ_STAT 11)).toNat.testBit 8 = true ∧ t.sec.alarmDue = false ∧ t.sec.slots = [] ∧ t.sec.keyData =
      [] ∧ t.sec.fuses = s.sec.fuses ∧ t.hbm.keys = none ∧ t.f MEM_STAT_KEYS = 3 ∧ t.alarmed = true ∧ t.round = s.round ∧ t.fig = s.fig ∧
      t.sem = s.sem ∧ t.pending = s.pending) ∧
    ((s.f SEC_ALARM_CFG_ACTION).testBit 3 = true → s.secState = 0 → ∃ t, exec (.rngHealthFail) s = .next t ∧ t.f SEC_ALARM_AL = s.f
      SEC_ALARM_AL ||| 8 ∧ (t.reg (HIF_IRQ_STAT 11)).toNat.testBit 8 = true ∧ t.sec.alarmDue = false ∧ t.sec.slots = [] ∧ t.sec.keyData =
      [] ∧ t.sec.fuses = s.sec.fuses ∧ t.hbm.keys = none ∧ t.f MEM_STAT_KEYS = 3 ∧ t.alarmed = true ∧ t.round = s.round ∧ t.fig = s.fig ∧
      t.sem = s.sem ∧ t.pending = s.pending) ∧
    (∀ (src : Nat), (s.f SEC_ALARM_CFG_ACTION).testBit 6 = true → s.secState = 0 → ∃ t, exec (.alarmRaise src) s = .next t ∧ t.f
      SEC_ALARM_AL = s.f SEC_ALARM_AL ||| 64 ∧ (t.reg (HIF_IRQ_STAT 11)).toNat.testBit 8 = true ∧ t.sec.alarmDue = false ∧ t.sec.slots =
      [] ∧ t.sec.keyData = [] ∧ t.sec.fuses = s.sec.fuses ∧ t.hbm.keys = none ∧ t.f MEM_STAT_KEYS = 3 ∧ t.alarmed = true ∧ t.round =
      s.round ∧ t.fig = s.fig ∧ t.sem = s.sem ∧ t.pending = s.pending) ∧
    (∀ (src : Nat), src ≠ 0 ∨ s.secState = 0 → (s.f SEC_ALARM_CFG_ACTION).testBit 6 = false → ∃ t, exec (.alarmRaise src) s = .next t ∧
      t.f SEC_ALARM_AL = s.f SEC_ALARM_AL ||| 64 ∧ (t.reg (HIF_IRQ_STAT 11)).toNat.testBit 8 = true ∧ Keeps (fun a => a = SEC_ALARM ∨ a =
      HIF_IRQ_STAT 11) [.host, .tail, .mesh] s t) ∧
    (∀ (src mask : Nat), mask < 128 → src = 17 ∨ (s.secState = 0 ∧ (src = 0 ∨ src = 21 ∨ src = 22)) → ∃ t, exec (.alarmClear src mask) s =
      .next t ∧ t.reg SEC_ALARM = s.reg SEC_ALARM &&& ~~~ BitVec.ofNat 32 mask ∧ Keeps (fun a => a = SEC_ALARM) [] s t) ∧
    (∀ (src mask : Nat), 0 < mask → mask < 128 → src ≠ 17 → s.secState ≠ 0 ∨ (src ≠ 0 ∧ src ≠ 21 ∧ src ≠ 22) → ∃ t, exec (.alarmClear src
      mask) s = .next t ∧ t = s) ∧
    (∀ (n : Nat), s.scan.ir = 0x11 → s.secState ≠ 2 → s.on SEC_AUTH_STAT_BUSY = false → s.on SEC_AUTH_STAT_LOCKED_OUT = false → s.secState
      = 0 ∨ s.alarmed = false → ∃ t, exec (.challengeRequest n) s = .next t ∧ t.sec =
      { s.sec with nonce := some (n % 2 ^ 256), authWord := 0, resp := [] } ∧ Keeps (fun a => False) [.scan, .sec] s t) ∧
    (∀ (n : Nat), s.scan.ir = 0x11 → s.secState ≠ 2 → s.on SEC_AUTH_STAT_BUSY = false → s.on SEC_AUTH_STAT_LOCKED_OUT = true → ∃ t, exec
      (.challengeRequest n) s = .next t ∧ t.scan = { s.scan with dr := 0 } ∧ Keeps (fun a => False) [.scan] s t) ∧
    (∀ (w : Word) (n : Nat), s.scan.ir = 0x11 → s.secState ≠ 2 → s.on SEC_AUTH_STAT_BUSY = false → s.sec.nonce = some n → s.sec.authWord <
      12 → s.on SEC_AUTH_STAT_LOCKED_OUT = false → w ≠ 1#32 → ∃ t, exec (.responseWord w) s = .next t ∧ t.sec =
      { s.sec with resp := s.sec.resp ++ [w], authWord := s.sec.authWord + 1 } ∧ t.scan =
      { s.scan with dr := (s.sec.fuses.uid % 2 ^ 128 + n % 2 ^ 256 * 2 ^ 128) / 2 ^ (32 * s.sec.authWord) % 2 ^ 32 } ∧ t.on
      SEC_AUTH_STAT_BUSY = decide (48 ≤ s.sec.resp.length) ∧ Keeps (fun a => a = SEC_AUTH_STAT) [.sec, .scan] s t) ∧
    (s.on SEC_AUTH_STAT_BUSY = true → ∃ t, exec (.authCheck) s = .next t ∧ (if s.authOk then t.on DBG_CTRL_AUTHED = true ∧ t.f
      SEC_AUTH_STAT_PERMS = fget (s.sec.resp.headD 0) 2 0 ∧ t.f SEC_AUTH_STAT_FAILS = 0 ∧ t.sec =
      { s.sec with nonce := none, used := s.sec.used ++ s.sec.nonce.toList, resp := [] } else t.f SEC_AUTH_STAT_FAILS = min (s.f
      SEC_AUTH_STAT_FAILS + 1) 15 ∧ t.on SEC_AUTH_STAT_LOCKED_OUT = (s.on SEC_AUTH_STAT_LOCKED_OUT || decide (7 ≤ s.f
      SEC_AUTH_STAT_FAILS)) ∧ (t.reg (HIF_IRQ_STAT 11)).toNat.testBit 9 = true ∧ t.reg DBG_CTRL = s.reg DBG_CTRL ∧ t.sec =
      { s.sec with resp := [] }) ∧ t.on SEC_AUTH_STAT_BUSY = false ∧ Keeps (fun a => a = SEC_AUTH_STAT ∨ a = DBG_CTRL ∨ a = HIF_IRQ_STAT
      11) [.sec, .host, .tail, .mesh] s t) ∧
    (∀ (n : Nat), s.sec.nonce = none ∨ s.sec.fuses.dbg = none ∨ (s.sec.nonce = some n ∧ n ∈ s.sec.used) → s.authOk = false)

/-- GPIO_SET and GPIO_CLR set and clear the named bits of GPIO_OUT, and GPIO_IN of an enabled output that the board does not drive follows
  it. A bank supply in a new range shows in PIN_BANK_STAT; absence raises its event. The end of an owner change gives every switching
  pin the owner of R558 and leaves the others. A TRIG request starts the pulse of its line and its end ends it; a selected edge on a
  line in input mode raises EV_PIN_TRIGk. (Shown to complete, each with its own effect: gpioSet, gpioClr, bankSupplyChange, ownerChange,
  trigPulse, trigPulseEnd, trigInputEdge.) -/
def Obligations.PinsAndTriggers : Prop :=
  ∀ s : State, 
    (∀ (b : Nat) (v : Word), b < 5 → s.pin.bs = none → s.bankAbsent b = false → ∃ t, exec (.gpioSet b v) s = .next t ∧ t.reg (PIN_GPIO_OUT
      b) = s.reg (PIN_GPIO_OUT b) ||| v ∧ (∀ k : Nat, k < 32 → s.pinOwner (32 * b + k) = 0 → (s.reg (PIN_GPIO_OE b)).toNat.testBit k =
      true → s.on (PIN_CFG_OD (32 * b + k)) = false → s.on (PIN_CFG_IE (32 * b + k)) = true → mget s.pin.ext (some false) (32 * b + k) =
      none → (t.reg (PIN_GPIO_IN b)).toNat.testBit k = (t.reg (PIN_GPIO_OUT b)).toNat.testBit k) ∧ Keeps (fun a => a = PIN_GPIO_OUT b ∨ a
      = PIN_GPIO_IN b ∨ a = HIF_IRQ_STAT 12) [.pin, .host, .tail, .mesh] s t) ∧
    (∀ (b : Nat) (v : Word), b < 5 → s.pin.bs = none → s.bankAbsent b = false → ∃ t, exec (.gpioClr b v) s = .next t ∧ t.reg (PIN_GPIO_OUT
      b) = s.reg (PIN_GPIO_OUT b) &&& ~~~ v ∧ (∀ k : Nat, k < 32 → s.pinOwner (32 * b + k) = 0 → (s.reg (PIN_GPIO_OE b)).toNat.testBit k =
      true → s.on (PIN_CFG_OD (32 * b + k)) = false → s.on (PIN_CFG_IE (32 * b + k)) = true → mget s.pin.ext (some false) (32 * b + k) =
      none → (t.reg (PIN_GPIO_IN b)).toNat.testBit k = (t.reg (PIN_GPIO_OUT b)).toNat.testBit k) ∧ Keeps (fun a => a = PIN_GPIO_OUT b ∨ a
      = PIN_GPIO_IN b ∨ a = HIF_IRQ_STAT 12) [.pin, .host, .tail, .mesh] s t) ∧
    (∀ (b r : Nat), b < 5 → ∃ t, exec (.bankSupplyChange b r) s = .next t ∧ t.bankAbsent b = decide (2 ≤ r) ∧ (∀ c : Nat, c < 5 → c ≠ b →
      t.bankAbsent c = s.bankAbsent c) ∧ (r < 2 → (t.f PIN_BANK_STAT_V33).testBit b = decide (r = 1)) ∧ (2 ≤ r → t.f PIN_BANK_STAT_V33 =
      s.f PIN_BANK_STAT_V33) ∧ (2 ≤ r → s.bankAbsent b = false → (t.reg (HIF_IRQ_STAT 12)).toNat.testBit 9 = true) ∧ Keeps (fun a => a =
      PIN_BANK_STAT ∨ a = PIN_GPIO_IN b ∨ a = HIF_IRQ_STAT 12) [.pin, .host, .tail, .mesh] s t) ∧
    (∃ t, exec (.ownerChange none) s = .next t ∧ (∀ i : Nat, i < 160 → t.pinOwner i = if s.pinOwner i = 6 then s.pinTarget i else
      s.pinOwner i) ∧ Keeps (fun a => InBlocks [13] a ∨ a = HIF_IRQ_STAT 12) [.pin, .host, .tail, .mesh] s t) ∧
    (∀ (i : Nat) (v : Word), i < 160 → s.reg PIN_PERIPH_EN = 0 → s.pinOwner i < 2 → ∃ t, exec (.ownerChange (some (PIN_CFG i, v))) s =
      .next t ∧ t.pinOwner i = fget v 31 31 ∧ t.on (PIN_CFG_FAB i) = v.toNat.testBit 31 ∧ (t.reg (PIN_CFG i)) &&& 0x800003F8#32 = v &&&
      0x800003F8#32 ∧ Keeps (fun a => InBlocks [13] a ∨ a = HIF_IRQ_STAT 12) [.pin, .host, .tail, .mesh] s t) ∧
    (∀ (k : Nat), k < 4 → k ∈ s.pin.trigReq → ∃ t, exec (.trigPulse k) s = .next t ∧ t.pin.pulse = ladd s.pin.pulse k ∧ t.pin.trigReq =
      s.pin.trigReq.erase k ∧ Keeps (fun a => a = PIN_GPIO_IN 4 ∨ a = HIF_IRQ_STAT 12) [.pin, .host, .tail, .mesh] s t) ∧
    (∀ (k : Nat), k < 4 → k ∈ s.pin.pulse → ∃ t, exec (.trigPulseEnd k) s = .next t ∧ t.pin.pulse = ldel s.pin.pulse k ∧ t.pin.trigReq =
      s.pin.trigReq ∧ Keeps (fun a => a = PIN_GPIO_IN 4 ∨ a = HIF_IRQ_STAT 12) [.pin, .host, .tail, .mesh] s t) ∧
    (∀ (k : Nat) (lvl : Bool), k < 4 → s.pin.bs = none → s.bankAbsent 4 = false → s.pinOwner (156 + k) = 5 → s.on (TRIG_CFG_OUT k) = false
      → s.on (PIN_CFG_IE (156 + k)) = true → s.periphRun = true → mget s.pin.trigIn false k = !lvl → s.trigEdge k lvl = true → ∃ t, exec
      (.trigInputEdge k lvl) s = .next t ∧ (t.reg (HIF_IRQ_STAT 12)).toNat.testBit (5 + k) = true ∧ mget t.pin.ext (some false) (156 + k)
      = some lvl ∧ mget t.pin.trigIn false k = lvl ∧ Keeps (fun a => a = PIN_GPIO_IN 4 ∨ a = HIF_IRQ_STAT 12) [.pin, .host, .tail, .mesh]
      s t)

/-- A byte written to a UART with room is queued and TX_EMPTY clears; when the last byte has gone TX_EMPTY becomes 1, with EV_PIN_UARTu
  under TX_IRQ. A received byte is queued with its error flag and counted, with the event under RX_IRQ; on a full FIFO it is lost and
  ERR is set; a read of UART_DATA pops it. Each I2C command written while BUSY is 0 sets BUSY with its OP; it ends by its completion,
  which records NACK, the byte read and lost arbitration, or by the timeout. A SPI frame is queued with BUSY; its exchange stores the
  received frame, ends BUSY after the last, and a read pops it. While the gate of the peripherals is closed their data and command
  registers change nothing. (Shown to complete, each with its own effect: uartTx, uartTransmitDone, uartReceive, uartData, i2cStart,
  i2cWrite, i2cReadAck, i2cReadNack, i2cStop, i2cCommandDone, i2cTimeout, spiTx, spiFrameDone, spiData.) -/
def Obligations.SerialPorts : Prop :=
  ∀ s : State, 
    (∀ (u v : Nat), u < 2 → s.blockGated 38 = false → (mget s.pin.utx [] u).length < 16 → ∃ t, exec (.uartTx u v) s = .next t ∧ t.pin =
      { s.pin with utx := mset s.pin.utx [] u (mget s.pin.utx [] u ++ [v % 256]) } ∧ t.on (UART_CTRL_TX_EMPTY u) = false ∧ Keeps (fun a =>
      a = UART_CTRL u) [.pin] s t) ∧
    (∀ (u n : Nat), s.uartOn u = true → mget s.pin.utx [] u ≠ [] → ∃ t, exec (.uartTransmitDone u n) s = .next t ∧ t.pin =
      { s.pin with utx := mset s.pin.utx [] u ((mget s.pin.utx [] u).drop n) } ∧ t.on (UART_CTRL_TX_EMPTY u) = (s.on (UART_CTRL_TX_EMPTY
      u) || decide ((mget s.pin.utx [] u).length ≤ n)) ∧ ((mget s.pin.utx [] u).length ≤ n → s.on (UART_CTRL_TX_IRQ u) = true → (t.reg
      (HIF_IRQ_STAT 12)).toNat.testBit u = true) ∧ Keeps (fun a => a = UART_CTRL u ∨ a = HIF_IRQ_STAT 12) [.pin, .host, .tail, .mesh] s t) ∧
    (∀ (u v : Nat) (err : Bool), s.uartOn u = true → s.pinOwner (3 + 32 * u) = 2 → (mget s.pin.urx [] u).length < 16 → ∃ t, exec
      (.uartReceive u v err) s = .next t ∧ t.pin =
      { s.pin with urx := mset s.pin.urx [] u (mget s.pin.urx [] u ++ [v % 256 + 256 * b2n err]) } ∧ t.f (UART_CTRL_RX_COUNT u) = (mget
      s.pin.urx [] u).length + 1 ∧ t.on (UART_CTRL_ERR u) = (s.on (UART_CTRL_ERR u) || err) ∧ (s.on (UART_CTRL_RX_IRQ u) = true → (t.reg
      (HIF_IRQ_STAT 12)).toNat.testBit u = true) ∧ Keeps (fun a => a = UART_CTRL u ∨ a = HIF_IRQ_STAT 12) [.pin, .host, .tail, .mesh] s t) ∧
    (∀ (u v : Nat) (err : Bool), s.uartOn u = true → s.pinOwner (3 + 32 * u) = 2 → 16 ≤ (mget s.pin.urx [] u).length → ∃ t, exec
      (.uartReceive u v err) s = .next t ∧ t.on (UART_CTRL_ERR u) = true ∧ mget t.pin.urx [] u = mget s.pin.urx [] u ∧ t.f
      (UART_CTRL_RX_COUNT u) = s.f (UART_CTRL_RX_COUNT u) ∧ Keeps (fun a => a = UART_CTRL u ∨ a = HIF_IRQ_STAT 12) [.host, .tail, .mesh] s
      t) ∧
    (∀ (u x0 : Nat) (l : List Nat), u < 2 → s.blockGated 38 = false → mget s.pin.urx [] u = x0 :: l → l.length < 16 → ∃ t, exec (.uartData
      u) s = .next t ∧ t.pin = { s.pin with urx := mset s.pin.urx [] u l } ∧ t.f (UART_CTRL_RX_COUNT u) = l.length ∧ Keeps (fun a => a =
      UART_CTRL u) [.pin] s t) ∧
    (∀ (c : Nat) (fast : Bool), c < 2 → s.blockGated 38 = false → s.on (I2C_CMD_BUSY c) = false → ∃ t, exec (.i2cStart c fast) s = .next t
      ∧ t.on (I2C_CMD_BUSY c) = true ∧ mget t.pin.i2cOp 0 c = 1 ∧ t.f (I2C_CMD_FAST c) = b2n fast ∧ t.f (I2C_CMD_DATA c) = s.f
      (I2C_CMD_DATA c) ∧ t.on (I2C_CMD_ARB_LOST c) = s.on (I2C_CMD_ARB_LOST c) ∧ Keeps (fun a => a = I2C_CMD c) [.pin] s t) ∧
    (∀ (c : Nat) (v : Nat) (fast : Bool), c < 2 → s.blockGated 38 = false → s.on (I2C_CMD_BUSY c) = false → ∃ t, exec (.i2cWrite c v fast)
      s = .next t ∧ t.on (I2C_CMD_BUSY c) = true ∧ mget t.pin.i2cOp 0 c = 2 ∧ t.f (I2C_CMD_FAST c) = b2n fast ∧ t.f (I2C_CMD_DATA c) = v %
      256 ∧ t.on (I2C_CMD_ARB_LOST c) = s.on (I2C_CMD_ARB_LOST c) ∧ Keeps (fun a => a = I2C_CMD c) [.pin] s t) ∧
    (∀ (c : Nat) (fast : Bool), c < 2 → s.blockGated 38 = false → s.on (I2C_CMD_BUSY c) = false → ∃ t, exec (.i2cReadAck c fast) s = .next
      t ∧ t.on (I2C_CMD_BUSY c) = true ∧ mget t.pin.i2cOp 0 c = 3 ∧ t.f (I2C_CMD_FAST c) = b2n fast ∧ t.f (I2C_CMD_DATA c) = s.f
      (I2C_CMD_DATA c) ∧ t.on (I2C_CMD_ARB_LOST c) = s.on (I2C_CMD_ARB_LOST c) ∧ Keeps (fun a => a = I2C_CMD c) [.pin] s t) ∧
    (∀ (c : Nat) (fast : Bool), c < 2 → s.blockGated 38 = false → s.on (I2C_CMD_BUSY c) = false → ∃ t, exec (.i2cReadNack c fast) s =
      .next t ∧ t.on (I2C_CMD_BUSY c) = true ∧ mget t.pin.i2cOp 0 c = 4 ∧ t.f (I2C_CMD_FAST c) = b2n fast ∧ t.f (I2C_CMD_DATA c) = s.f
      (I2C_CMD_DATA c) ∧ t.on (I2C_CMD_ARB_LOST c) = s.on (I2C_CMD_ARB_LOST c) ∧ Keeps (fun a => a = I2C_CMD c) [.pin] s t) ∧
    (∀ (c : Nat) (fast : Bool), c < 2 → s.blockGated 38 = false → s.on (I2C_CMD_BUSY c) = false → ∃ t, exec (.i2cStop c fast) s = .next t
      ∧ t.on (I2C_CMD_BUSY c) = true ∧ mget t.pin.i2cOp 0 c = 5 ∧ t.f (I2C_CMD_FAST c) = b2n fast ∧ t.f (I2C_CMD_DATA c) = s.f
      (I2C_CMD_DATA c) ∧ t.on (I2C_CMD_ARB_LOST c) = s.on (I2C_CMD_ARB_LOST c) ∧ Keeps (fun a => a = I2C_CMD c) [.pin] s t) ∧
    (∀ (c d : Nat) (ack arb : Bool), s.i2cRuns c = true → s.pinOwner (sdaPin c) = 3 → ∃ t, exec (.i2cCommandDone c d ack arb) s = .next t
      ∧ t.on (I2C_CMD_BUSY c) = false ∧ t.on (I2C_CMD_NACK c) = (if mget s.pin.i2cOp 0 c = 2 then !ack else s.on (I2C_CMD_NACK c)) ∧ t.f
      (I2C_CMD_DATA c) = (if mget s.pin.i2cOp 0 c = 3 ∨ mget s.pin.i2cOp 0 c = 4 then d % 256 else s.f (I2C_CMD_DATA c)) ∧ t.on
      (I2C_CMD_ARB_LOST c) = (s.on (I2C_CMD_ARB_LOST c) || arb) ∧ (t.reg (HIF_IRQ_STAT 12)).toNat.testBit (2 + c) = true ∧ Keeps (fun a =>
      a = I2C_CMD c ∨ a = HIF_IRQ_STAT 12) [.pin, .host, .tail, .mesh] s t) ∧
    (∀ (c : Nat), s.i2cRuns c = true → s.pinOwner (sdaPin c - 1) = 3 → ∃ t, exec (.i2cTimeout c) s = .next t ∧ t.on (I2C_CMD_BUSY c) =
      false ∧ t.on (I2C_CMD_TIMEOUT c) = true ∧ t.f (I2C_CMD_DATA c) = s.f (I2C_CMD_DATA c) ∧ (t.reg (HIF_IRQ_STAT 12)).toNat.testBit (2 +
      c) = true ∧ Keeps (fun a => a = I2C_CMD c ∨ a = HIF_IRQ_STAT 12) [.pin, .host, .tail, .mesh] s t) ∧
    (∀ (v : Nat), s.blockGated 38 = false → s.pin.spiTx.length < 16 → ∃ t, exec (.spiTx v) s = .next t ∧ t.pin.spiTx = s.pin.spiTx ++ [v %
      256] ∧ t.on SPI_CTRL_BUSY = true ∧ t.pin.spiRx = s.pin.spiRx ∧ Keeps (fun a => a = SPI_CTRL ∨ a = PIN_GPIO_IN 0 ∨ a = HIF_IRQ_STAT
      12) [.pin, .host, .tail, .mesh] s t) ∧
    (∀ (v x0 : Nat) (l : List Nat), s.pin.spiTx = x0 :: l → s.on PIN_PERIPH_EN_SPI = true → s.periphRun = true → s.pinOwner 4 = 4 →
      s.pin.spiRx.length < 16 → ∃ t, exec (.spiFrameDone v) s = .next t ∧ t.pin.spiTx = l ∧ t.pin.spiRx = s.pin.spiRx ++ [v % 256] ∧ t.f
      SPI_CTRL_RX_COUNT = s.pin.spiRx.length + 1 ∧ t.on SPI_CTRL_BUSY = (s.on SPI_CTRL_BUSY && decide (l ≠ [])) ∧ (l = [] → s.on
      SPI_CTRL_IRQ = true → (t.reg (HIF_IRQ_STAT 12)).toNat.testBit 4 = true) ∧ Keeps (fun a => a = SPI_CTRL ∨ a = PIN_GPIO_IN 0 ∨ a =
      HIF_IRQ_STAT 12) [.pin, .host, .tail, .mesh] s t) ∧
    (∀ (x0 : Nat) (l : List Nat), s.blockGated 38 = false → s.pin.spiRx = x0 :: l → l.length < 16 → ∃ t, exec (.spiData) s = .next t ∧
      t.pin = { s.pin with spiRx := l } ∧ t.f SPI_CTRL_RX_COUNT = l.length ∧ Keeps (fun a => a = SPI_CTRL) [.pin] s t) ∧
    (∀ (u v : Nat) (f : Bool) (x : Instr), s.blockGated 38 = true → x ∈ [.uartTx u v, .uartData u, .i2cStart u f, .i2cWrite u v f,
      .i2cReadAck u f, .i2cReadNack u f, .i2cStop u f, .spiTx v, .spiData] → exec x s = .next s)

/-- A second acknowledged poll in a row of an absent module makes PRESENT 1, reads its identity record and raises EV_GONDOLA_INSERT; a
  second poll without answer makes it 0, clears GDL_ID and raises EV_GONDOLA_REMOVE. GO queues a transfer with its direction and length
  (0 acts as 1) and sets BUSY. ABORT ends the oldest with cause 8. A transfer that nothing refuses stores the lines that arrived and
  ends with DONE, cause 0; one with no module present ends with FAIL, cause 1. (Shown to complete, each with its own effect:
  gondolaPoll, gondolaToHbm, hbmToGondola, gondolaAbort, gondolaTransferEnd.) -/
def Obligations.Gondola : Prop :=
  ∀ s : State, s.Calm → 
    (∀ (rcd : List Nat), s.pin.poll = some true → s.on GDL_STAT_PRESENT = false → ∃ t, exec (.gondolaPoll true rcd) s = .next t ∧ t.on
      GDL_STAT_PRESENT = true ∧ (∀ w : Nat, w < 16 → t.reg (GDL_ID w) = BitVec.ofNat 32 (recField rcd (4 * w) 4)) ∧ t.f GDL_LIFE_RESERVE =
      recField rcd 48 2 ∧ t.pin.idBad = (recField rcd 0 4 != 0x47444C31 || crc16 (rcd.take 62) != recField rcd 62 2) ∧ t.pin.poll = some
      true ∧ (t.reg (HIF_IRQ_STAT 12)).toNat.testBit 12 = true ∧ Keeps (fun a => InBlocks [13] a ∨ a = HIF_IRQ_STAT 12) [.pin, .host,
      .tail, .mesh] s t) ∧
    (∀ (ack : Bool) (rcd : List Nat), s.pin.poll ≠ some ack → ack = false ∨ s.pin.reread = false → ∃ t, exec (.gondolaPoll ack rcd) s =
      .next t ∧ t.pin = { s.pin with poll := some ack } ∧ Keeps (fun a => False) [.pin] s t) ∧
    (∀ (rcd : List Nat), s.pin.poll = some false → s.on GDL_STAT_PRESENT = true → s.gdlFree = true → s.pin.gdl = [] → ∃ t, exec
      (.gondolaPoll false rcd) s = .next t ∧ t.on GDL_STAT_PRESENT = false ∧ (∀ w : Nat, w < 16 → t.reg (GDL_ID w) = 0) ∧ t.pin.poll =
      some false ∧ (t.reg (HIF_IRQ_STAT 12)).toNat.testBit 13 = true ∧ Keeps (fun a => InBlocks [13] a ∨ a = HIF_IRQ_STAT 12) [.pin,
      .host, .tail, .mesh] s t) ∧
    (∀ (len : Nat), len < 2 ^ 24 → ∃ t, exec (.gondolaToHbm len) s = .next t ∧ t.pin =
      { s.pin with gdl := s.pin.gdl ++ [⟨false, max 1 len, s.f GDL_XFER_GADDR_ADDR4K, s.f GDL_XFER_HBM_ADDR64K⟩] } ∧ t.on GDL_STAT_BUSY =
      true ∧ t.f GDL_XFER_CTRL_DIR = 0 ∧ t.f GDL_XFER_CTRL_LEN = len ∧ Keeps (fun a => a = GDL_STAT ∨ a = GDL_XFER_CTRL) [.pin] s t) ∧
    (∀ (len : Nat), len < 2 ^ 24 → ∃ t, exec (.hbmToGondola len) s = .next t ∧ t.pin =
      { s.pin with gdl := s.pin.gdl ++ [⟨true, max 1 len, s.f GDL_XFER_GADDR_ADDR4K, s.f GDL_XFER_HBM_ADDR64K⟩] } ∧ t.on GDL_STAT_BUSY =
      true ∧ t.f GDL_XFER_CTRL_DIR = 1 ∧ t.f GDL_XFER_CTRL_LEN = len ∧ Keeps (fun a => a = GDL_STAT ∨ a = GDL_XFER_CTRL) [.pin] s t) ∧
    (∀ (x0 : Gdl) (rest : List Gdl), s.pin.gdl = x0 :: rest → ∃ t, exec (.gondolaAbort) s = .next t ∧ t.pin =
      { s.pin with gdl := rest, reread := s.pin.reread || x0.out } ∧ t.f GDL_STAT_CAUSE = 8 ∧ t.on GDL_STAT_DONE = false ∧ t.on
      GDL_STAT_FAIL = true ∧ t.on GDL_STAT_BUSY = decide (rest ≠ []) ∧ (t.reg (HIF_IRQ_STAT 12)).toNat.testBit 14 = true ∧ Keeps (fun a =>
      a = GDL_STAT ∨ a = HIF_IRQ_STAT 12) [.pin, .host, .tail, .mesh] s t) ∧
    (∀ (cause : Nat) (lines rcd : List Nat) (x0 : Gdl) (rest : List Gdl), s.pin.gdl = x0 :: rest → s.gdlFree = true → s.on
      GDL_STAT_PRESENT = false → ∃ t, exec (.gondolaTransferEnd cause lines rcd) s = .next t ∧ t.pin.gdl = rest ∧ t.f GDL_STAT_CAUSE = 1 ∧
      t.on GDL_STAT_DONE = false ∧ t.on GDL_STAT_FAIL = true ∧ (t.reg (HIF_IRQ_STAT 12)).toNat.testBit 14 = true ∧ Keeps (fun a => a =
      GDL_STAT ∨ a = HIF_IRQ_STAT 12) [.pin, .host, .tail, .mesh] s t) ∧
    (∀ (lines rcd : List Nat) (x0 : Gdl) (rest : List Gdl), s.pin.gdl = x0 :: rest → s.gdlFree = true → s.gdlRefused x0 = none → x0.out =
      false → ∃ t, exec (.gondolaTransferEnd 0 lines rcd) s = .next t ∧ t.hbm = (gdlStore ((List.range (64 * x0.len)).map fun i =>
      lines.getD i 0) (x0.hbm * 2 ^ 16) s).hbm ∧ t.pin.gdl = rest ∧ t.f GDL_STAT_CAUSE = 0 ∧ t.on GDL_STAT_DONE = true ∧ t.on
      GDL_STAT_FAIL = false ∧ (t.reg (HIF_IRQ_STAT 12)).toNat.testBit 14 = true ∧ Keeps (fun a => a = GDL_STAT ∨ a = HIF_IRQ_STAT 12)
      [.pin, .host, .tail, .mesh, .hbm] s t)

/-- A write to TET_OUT or TET_OE with no OUT message under way sends one with the values now, and with one under way makes another due. A
  message whose bits arrive as sent is applied at the target side (OUT outputs, CFG the pull, CLK the settings of the clock outputs,
  PULSE the pulsed outputs); one in whose symbols the receiver finds a code error or a wrong CRC is discarded and counted. IN loads
  TET_IN and resumes a lost link; STATUS on a linking Tether shows VT and the counts, brings it UP and sends CFG, CLK and OUT; the end
  of the last of them raises EV_TETHER_UP (404). Loss of an UP link with no stop policy makes it LOST with cause 1 and raises
  EV_TETHER_LOST (405). Silence releases the target side; a clock-input window records its counts. TETHER_REFRESH sends OUT and CFG.
  (The symbols of a message: log entries 50, 55.) (Shown to complete, each with its own effect: tetOutWrite, tetherRefresh, outMsg,
  cfgMsg, clkMsg, pulseMsg, inMsg, statusMsg, tetherLoss, targetSilence, ckinWindow.) -/
def Obligations.Tether : Prop :=
  ∀ s : State, s.Calm → 
    (∀ (v : Nat), v < 2 ^ 64 → s.regHeld TET_OUT_LO = false → s.blockGated 37 = false → s.f TET_STAT_STATE = 2 → s.pin.tet.msg0 = none → ∃
      t, exec (.tetOutWrite 4 v) s = .next t ∧ t.pair TET_OUT_LO TET_OUT_HI = v ∧ t.pin =
      { s.pin with tet := { s.pin.tet with msg0 := some (v, if s.fab.outputsOn then s.pair TET_OE_LO TET_OE_HI else 0), due0 := false, seq0 := (s.pin.tet.seq0 + 1) % 256 } }
      ∧ Keeps (fun a => a = TET_OUT_LO ∨ a = TET_OUT_HI ∨ a = TET_OE_LO ∨ a = TET_OE_HI) [.pin] s t) ∧
    (∀ (v : Nat), s.regHeld TET_OE_HI = false → s.blockGated 37 = false → s.f TET_STAT_STATE = 2 → s.pin.tet.msg0 ≠ none → ∃ t, exec
      (.tetOutWrite 3 v) s = .next t ∧ t.reg TET_OE_HI = BitVec.ofNat 32 v ∧ t.pin = { s.pin with tet := { s.pin.tet with due0 := true } }
      ∧ Keeps (fun a => a = TET_OE_HI) [.pin] s t) ∧
    (s.f TET_STAT_STATE = 2 → s.pin.tet.msg0 = none → s.pin.tet.msg1 = none → s.pin.tet.due1 = [] → ∃ t, exec (.tetherRefresh) s = .next t
      ∧ t.pin =
      { s.pin with tet := { s.pin.tet with msg0 := some s.tetOut, due0 := false, seq0 := (s.pin.tet.seq0 + 1) % 256, msg1 := some (.cfg s.tetCfg), seq1 := (s.pin.tet.seq1 + 1) % 256 } }
      ∧ Keeps (fun a => False) [.pin] s t) ∧
    (∀ (o e : Nat), s.pin.tet.msg0 = some (o, e) → s.pin.tet.due0 = false → o < 2 ^ 64 → e < 2 ^ 64 → s.pin.tet.telling = false → ∃ t,
      exec (.outMsg []) s = .next t ∧ t.pin = { s.pin with tet := { s.pin.tet with msg0 := none, out := o, oe := e, silent := false } } ∧
      Keeps (fun a => False) [.pin] s t) ∧
    (∀ (o e : Nat) (up : List (Nat × Nat)), s.pin.tet.msg0 = some (o, e) → s.pin.tet.due0 = false → tetPass 1 s.pin.tet.seq0 (toBytes 8 o
      ++ toBytes 8 e) up = none → s.pin.tet.telling = false → ∃ t, exec (.outMsg up) s = .next t ∧ t.pin =
      { s.pin with tet := { s.pin.tet with msg0 := none } } ∧ t.f TET_STAT_CRC_ERRS = min (s.f TET_STAT_CRC_ERRS + 1) 255 ∧ Keeps (fun a
      => a = TET_STAT) [.pin] s t) ∧
    (∀ (o e : Nat), s.pin.tet.msg0 = some (o, e) → s.pin.tet.due0 = false → o < 2 ^ 64 → e < 2 ^ 64 → s.pin.tet.telling = true →
      s.pin.tet.msg1 = none → s.pin.tet.due1 = [] → ∃ t, exec (.outMsg []) s = .next t ∧ t.pin =
      { s.pin with tet := { s.pin.tet with msg0 := none, out := o, oe := e, silent := false, telling := false } } ∧ (t.reg (HIF_IRQ_STAT
      12)).toNat.testBit 20 = true ∧ Keeps (fun a => a = HIF_IRQ_STAT 12) [.pin, .host, .tail, .mesh] s t) ∧
    (∀ (p : Option Nat), s.pin.tet.msg1 = some (.cfg p) → s.pin.tet.due1 = [] → ∀ q ∈ p, q < 4 → s.pin.tet.telling = false → ∃ t, exec
      (.cfgMsg []) s = .next t ∧ t.pin = { s.pin with tet := { s.pin.tet with msg1 := none, pull := p } } ∧ Keeps (fun a => False) [.pin]
      s t) ∧
    (∀ (a0 b0 : Word), s.pin.tet.msg1 = some (.clk a0 b0) → s.pin.tet.due1 = [] → s.pin.tet.telling = false → ∃ t, exec (.clkMsg []) s =
      .next t ∧ t.pin = { s.pin with tet := { s.pin.tet with msg1 := none, ckA := a0, ckB := b0 } } ∧ Keeps (fun a => False) [.pin] s t) ∧
    (∀ (m : Nat), s.pin.tet.msg1 = some (.pulse m) → s.pin.tet.due1 = [] → m < 2 ^ 64 → s.pin.tet.telling = false → ∃ t, exec (.pulseMsg
      []) s = .next t ∧ t.pin = { s.pin with tet := { s.pin.tet with msg1 := none, pulse := if s.pin.tet.silent then 0 else m } } ∧ Keeps
      (fun a => False) [.pin] s t) ∧
    (∀ (up : List (Nat × Nat)) (p : Option Nat), s.pin.tet.msg1 = some (.cfg p) → s.pin.tet.due1 = [] → tetPass (.cfg p : TetMsg).body.1
      s.pin.tet.seq1 (.cfg p : TetMsg).body.2 up = none → s.pin.tet.telling = false → ∃ t, exec (.cfgMsg up) s = .next t ∧ t.pin =
      { s.pin with tet := { s.pin.tet with msg1 := none } } ∧ t.f TET_STAT_CRC_ERRS = min (s.f TET_STAT_CRC_ERRS + 1) 255 ∧ Keeps (fun a
      => a = TET_STAT) [.pin] s t) ∧
    (∀ (up : List (Nat × Nat)) (a0 b0 : Word), s.pin.tet.msg1 = some (.clk a0 b0) → s.pin.tet.due1 = [] → tetPass (.clk a0 b0 :
      TetMsg).body.1 s.pin.tet.seq1 (.clk a0 b0 : TetMsg).body.2 up = none → s.pin.tet.telling = false → ∃ t, exec (.clkMsg up) s = .next
      t ∧ t.pin = { s.pin with tet := { s.pin.tet with msg1 := none } } ∧ t.f TET_STAT_CRC_ERRS = min (s.f TET_STAT_CRC_ERRS + 1) 255 ∧
      Keeps (fun a => a = TET_STAT) [.pin] s t) ∧
    (∀ (up : List (Nat × Nat)) (m : Nat), s.pin.tet.msg1 = some (.pulse m) → s.pin.tet.due1 = [] → tetPass (.pulse m : TetMsg).body.1
      s.pin.tet.seq1 (.pulse m : TetMsg).body.2 up = none → s.pin.tet.telling = false → ∃ t, exec (.pulseMsg up) s = .next t ∧ t.pin =
      { s.pin with tet := { s.pin.tet with msg1 := none } } ∧ t.f TET_STAT_CRC_ERRS = min (s.f TET_STAT_CRC_ERRS + 1) 255 ∧ Keeps (fun a
      => a = TET_STAT) [.pin] s t) ∧
    (∀ (v : Nat), v < 2 ^ 64 → s.f TET_STAT_STATE ≠ 0 → ∃ t, exec (.inMsg v []) s = .next t ∧ t.pair TET_IN_LO TET_IN_HI = v ∧ t.f
      TET_STAT_STATE = (if s.f TET_STAT_STATE = 3 then 1 else s.f TET_STAT_STATE) ∧ t.pin =
      { s.pin with tet := { s.pin.tet with seq2 := (s.pin.tet.seq2 + 1) % 256 } } ∧ Keeps (fun a => a = TET_IN_LO ∨ a = TET_IN_HI ∨ a =
      TET_STAT) [.pin] s t) ∧
    (∀ (v : Nat) (up : List (Nat × Nat)), s.f TET_STAT_STATE ≠ 0 → tetPass 17 s.pin.tet.seq2 (toBytes 8 v) up = none → ∃ t, exec (.inMsg v
      up) s = .next t ∧ t.f TET_STAT_CRC_ERRS = min (s.f TET_STAT_CRC_ERRS + 1) 255 ∧ t.f TET_STAT_STATE = s.f TET_STAT_STATE ∧ t.pin =
      { s.pin with tet := { s.pin.tet with seq2 := (s.pin.tet.seq2 + 1) % 256 } } ∧ Keeps (fun a => a = TET_STAT) [.pin] s t) ∧
    (∀ (vt : Nat), vt < 4096 → s.f TET_CTRL_VT_MIN ≤ vt → s.f TET_STAT_STATE = 1 → s.pin.tet.msg0 = none → s.pin.tet.msg1 = none →
      s.pin.tet.due1 = [] → ∃ t, exec (.statusMsg vt []) s = .next t ∧ t.f TET_STAT_STATE = 2 ∧ t.f TET_STAT_VT = vt ∧ t.f (TET_CKIN_KHZ
      0) = s.pin.tet.khz0 % 2 ^ 18 ∧ t.f (TET_CKIN_KHZ 1) = s.pin.tet.khz1 % 2 ^ 18 ∧ t.pin =
      { s.pin with tet := { s.pin.tet with msg0 := some s.tetOut, due0 := false, msg1 := some (.cfg s.tetCfg), due1 := [.clk 0 0], telling := true, seq0 := (s.pin.tet.seq0 + 1) % 256, seq1 := (s.pin.tet.seq1 + 1) % 256, seq3 := (s.pin.tet.seq3 + 1) % 256 } }
      ∧ Keeps (fun a => a = TET_STAT ∨ a = TET_CKIN 0 ∨ a = TET_CKIN 1) [.pin] s t) ∧
    (s.f TET_STAT_STATE = 2 → s.on TET_CTRL_STOP_POL = false → ∃ t, exec (.tetherLoss) s = .next t ∧ t.f TET_STAT_STATE = 3 ∧ t.f
      TET_STAT_CAUSE = 1 ∧ t.pin =
      { s.pin with tet := { s.pin.tet with msg0 := none, due0 := false, msg1 := none, due1 := [], telling := false } } ∧ (t.reg
      (HIF_IRQ_STAT 12)).toNat.testBit 21 = true ∧ Keeps (fun a => a = TET_STAT ∨ a = HIF_IRQ_STAT 12) [.pin, .host, .tail, .mesh] s t) ∧
    (∃ t, exec (.targetSilence) s = .next t ∧ t.pin = { s.pin with tet := { s.pin.tet with silent := true, pulse := 0 } } ∧ Keeps (fun a
      => False) [.pin] s t) ∧
    (∀ (k0 k1 : Nat), ∃ t, exec (.ckinWindow k0 k1) s = .next t ∧ t.pin = { s.pin with tet := { s.pin.tet with khz0 := k0, khz1 := k1 } }
      ∧ Keeps (fun a => False) [.pin] s t)

end
end

