-- ==== Sys2Proof/Laws/Map.lean ====
section
/-! SUPPORT. Sys2Proof/Laws/Map.lean: the laws of sparse tables: a read after a write, and that every table operation keeps the canonical
form. -/

namespace Sys2Proof.Machine

variable {α : Type}

@[simp] theorem mget_nil (d : α) (k : Nat) : mget ([] : List (Nat × α)) d k = d := rfl

theorem mget_cons (k k' : Nat) (v d : α) (t : List (Nat × α)) :
    mget ((k', v) :: t) d k = if k' = k then v else mget t d k := rfl

theorem mget_minsert (m : List (Nat × α)) (d v : α) (k j : Nat) (hk : ∀ e ∈ m, e.1 ≠ k) :
    mget (minsert m k v) d j = if k = j then v else mget m d j := by
  induction m with
  | nil => simp [minsert, mget_cons]
  | cons e t ih =>
    obtain ⟨k', v'⟩ := e
    have hk' : k' ≠ k := hk _ (List.mem_cons_self)
    have ih := ih (fun e he => hk e (List.mem_cons_of_mem _ he))
    simp only [minsert]
    split
    · simp [mget_cons]
    · simp only [mget_cons, ih]
      by_cases h1 : k' = j
      · subst h1; simp [hk'.symm]
      · simp [h1]

theorem mget_filter_ne (m : List (Nat × α)) (d : α) (k j : Nat) (h : k ≠ j) : mget (merase m k) d j = mget m d j := by
  induction m with
  | nil => rfl
  | cons e t ih =>
    obtain ⟨k', v'⟩ := e
    simp only [merase, List.filter_cons, bne_iff_ne, ne_eq] at *
    by_cases h' : k' = k
    · subst h'; simp [mget_cons, h]; exact ih
    · simp [h', mget_cons, ih]

theorem mget_erase_self (m : List (Nat × α)) (d : α) (k : Nat) : mget (merase m k) d k = d := by
  induction m with
  | nil => rfl
  | cons e t ih =>
    obtain ⟨k', v'⟩ := e
    simp only [merase, List.filter_cons, bne_iff_ne, ne_eq] at *
    by_cases h' : k' = k
    · simp [h', ih]
    · simp [h', mget_cons, ih]

theorem merase_ne (m : List (Nat × α)) (k : Nat) : ∀ e ∈ merase m k, e.1 ≠ k := by
  intro e he
  simpa [merase] using (List.mem_filter.1 he).2

/-- A read after a write: the value written at its key, what stood there at every other key. -/
theorem mget_mset [DecidableEq α] (m : List (Nat × α)) (d v : α) (k j : Nat) :
    mget (mset m d k v) d j = if k = j then v else mget m d j := by
  unfold mset
  by_cases hv : v = d
  · simp only [hv, if_true]
    by_cases h : k = j
    · subst h; simp [mget_erase_self]
    · simp [h, mget_filter_ne]
  · simp only [hv, if_false]
    rw [mget_minsert _ _ _ _ _ (merase_ne m k)]
    by_cases h : k = j
    · simp [h]
    · simp [h, mget_filter_ne]

@[simp] theorem mget_mset_self [DecidableEq α] (m : List (Nat × α)) (d v : α) (k : Nat) : mget (mset m d k v) d k = v := by
  simp [mget_mset]

/-- A write leaves every other key, whatever an unlisted key reads as there. -/
theorem mget_mset_ne [DecidableEq α] (m : List (Nat × α)) (d d' v : α) (k j : Nat) (h : k ≠ j) :
    mget (mset m d k v) d' j = mget m d' j := by
  unfold mset
  split
  · exact mget_filter_ne m d' k j h
  · rw [mget_minsert _ _ _ _ _ (merase_ne m k)]; simp [h, mget_filter_ne]

theorem mem_minsert (m : List (Nat × α)) (k : Nat) (v : α) (e : Nat × α) (h : e ∈ minsert m k v) : e = (k, v) ∨ e ∈ m := by
  induction m with
  | nil => simpa [minsert] using h
  | cons x t ih =>
    simp only [minsert] at h
    split at h
    · simpa using h
    · rcases List.mem_cons.1 h with rfl | h
      · exact .inr (List.mem_cons_self)
      · rcases ih h with rfl | h
        · exact .inl rfl
        · exact .inr (List.mem_cons_of_mem _ h)

theorem minsert_sorted (m : List (Nat × α)) (k : Nat) (v : α) (hs : (m.map Prod.fst).Pairwise (· < ·)) (hk : ∀ e ∈ m, e.1 ≠ k) :
    ((minsert m k v).map Prod.fst).Pairwise (· < ·) := by
  induction m with
  | nil => simp [minsert]
  | cons x t ih =>
    obtain ⟨k', v'⟩ := x
    simp only [List.map_cons, List.pairwise_cons] at hs
    have hk' : k' ≠ k := hk _ (List.mem_cons_self)
    simp only [minsert]
    split
    · rename_i hlt
      simp only [List.map_cons, List.pairwise_cons]
      refine ⟨?_, hs.1, hs.2⟩
      intro a ha
      rcases List.mem_cons.1 ha with rfl | ha
      · exact hlt
      · exact lt_trans hlt (hs.1 a ha)
    · rename_i hge
      simp only [List.map_cons, List.pairwise_cons]
      refine ⟨?_, ih hs.2 (fun e he => hk e (List.mem_cons_of_mem _ he))⟩
      intro a ha
      obtain ⟨e, he, rfl⟩ := List.mem_map.1 ha
      rcases mem_minsert _ _ _ _ he with rfl | he
      · show k' < k; omega
      · exact hs.1 _ (List.mem_map_of_mem he)

/-- Leaving entries out keeps the canonical form. -/
theorem mwf_filter [DecidableEq α] (m : List (Nat × α)) (d : Nat → α) (p : Nat × α → Bool) (h : mwf m d) : mwf (m.filter p) d := by
  refine ⟨List.Pairwise.sublist (List.Sublist.map _ List.filter_sublist) h.1, ?_⟩
  intro e he
  exact h.2 e (List.mem_filter.1 he).1

/-- A write keeps the canonical form. -/
theorem mwf_mset [DecidableEq α] (m : List (Nat × α)) (d : Nat → α) (k : Nat) (v : α) (h : mwf m d) : mwf (mset m (d k) k v) d := by
  unfold mset
  split
  · exact mwf_filter m d _ h
  · rename_i hv
    have he : mwf (merase m k) d := mwf_filter m d _ h
    refine ⟨minsert_sorted _ _ _ he.1 (merase_ne m k), ?_⟩
    intro e hm
    rcases mem_minsert _ _ _ _ hm with rfl | hm
    · exact hv
    · exact he.2 e hm

theorem mwf_nil [DecidableEq α] (d : Nat → α) : mwf ([] : List (Nat × α)) d := ⟨by simp, by simp⟩

/-- Writing a list of values keeps the canonical form. -/
theorem mwf_msetList [DecidableEq α] (d : α) (vs : List α) : ∀ (m : List (Nat × α)) (k : Nat), mwf m (fun _ => d) →
    mwf (msetList m d k vs) (fun _ => d) := by
  induction vs with
  | nil => intro m k h; exact h
  | cons v t ih => intro m k h; exact ih _ _ (mwf_mset m (fun _ => d) k v h)

end Sys2Proof.Machine
end

