-- ==== Sys2Proof/Laws/Only.lean ====
section
/-! SUPPORT. Sys2Proof/Laws/Only.lean: what a step of the model leaves alone. `Only m s t`: from `s` to `t` the queue is the same, the register
file and the HBM keep their canonical form, fuses only gain, and every part of the state whose bit is 0 in `m` is the same. It is a preorder,
so a lemma about an operation is a chain of lemmas about the operations it calls. -/

namespace Sys2Proof.Machine

theorem Fuses.Grows.refl (x : Fuses) : x.Grows x := ⟨id, id, fun _ h => h, Nat.min_le_right _ _⟩

theorem Fuses.Grows.trans {x y z : Fuses} (h : x.Grows y) (g : y.Grows z) : x.Grows z := by
  obtain ⟨h1, h2, h3, h4⟩ := h
  obtain ⟨g1, g2, g3, g4⟩ := g
  exact ⟨fun h => g1 (h1 h), fun h => g2 (h2 h), fun k hk => g3 k (h3 k hk), le_trans (le_min (Nat.min_le_left _ _) h4) g4⟩

/-- What stays from `s` to `t`; the bits of `m` are the parts that may change, in this order: regs, fig, round, fab, clk, cfg, call, lat, port, tail, mesh, hbm, intg, core, sem, scan, bal, host, sec, pin. -/
structure Only (m : Nat) (s t : State) : Prop where
  queue : t.pending = s.pending
  regsOk : mwf s.regs resetWord → mwf t.regs resetWord
  wordsOk : mwf s.hbm.words (fun _ => 0) → mwf t.hbm.words (fun _ => 0)
  fusesOk : s.sec.fuses.Grows t.sec.fuses
  regs : m.testBit 0 = false → t.regs = s.regs
  fig : m.testBit 1 = false → t.fig = s.fig
  round : m.testBit 2 = false → t.round = s.round
  fab : m.testBit 3 = false → t.fab = s.fab
  clk : m.testBit 4 = false → t.clk = s.clk
  cfg : m.testBit 5 = false → t.cfg = s.cfg
  call : m.testBit 6 = false → t.call = s.call
  lat : m.testBit 7 = false → t.lat = s.lat
  port : m.testBit 8 = false → t.port = s.port
  tail : m.testBit 9 = false → t.tail = s.tail
  mesh : m.testBit 10 = false → t.mesh = s.mesh
  hbm : m.testBit 11 = false → t.hbm = s.hbm
  intg : m.testBit 12 = false → t.intg = s.intg
  core : m.testBit 13 = false → t.core = s.core
  sem : m.testBit 14 = false → t.sem = s.sem
  scan : m.testBit 15 = false → t.scan = s.scan
  bal : m.testBit 16 = false → t.bal = s.bal
  host : m.testBit 17 = false → t.host = s.host
  sec : m.testBit 18 = false → t.sec = s.sec
  pin : m.testBit 19 = false → t.pin = s.pin

theorem Only.refl {m : Nat} {s : State} : Only m s s :=
  { queue := rfl, regsOk := id, wordsOk := id, fusesOk := .refl _,
    regs := fun _ => rfl,
    fig := fun _ => rfl,
    round := fun _ => rfl,
    fab := fun _ => rfl,
    clk := fun _ => rfl,
    cfg := fun _ => rfl,
    call := fun _ => rfl,
    lat := fun _ => rfl,
    port := fun _ => rfl,
    tail := fun _ => rfl,
    mesh := fun _ => rfl,
    hbm := fun _ => rfl,
    intg := fun _ => rfl,
    core := fun _ => rfl,
    sem := fun _ => rfl,
    scan := fun _ => rfl,
    bal := fun _ => rfl,
    host := fun _ => rfl,
    sec := fun _ => rfl,
    pin := fun _ => rfl }

theorem Only.trans {m : Nat} {s t u : State} (h : Only m s t) (g : Only m t u) : Only m s u :=
  { queue := g.queue.trans h.queue, regsOk := fun x => g.regsOk (h.regsOk x), wordsOk := fun x => g.wordsOk (h.wordsOk x),
    fusesOk := h.fusesOk.trans g.fusesOk,
    regs := fun x => (g.regs x).trans (h.regs x),
    fig := fun x => (g.fig x).trans (h.fig x),
    round := fun x => (g.round x).trans (h.round x),
    fab := fun x => (g.fab x).trans (h.fab x),
    clk := fun x => (g.clk x).trans (h.clk x),
    cfg := fun x => (g.cfg x).trans (h.cfg x),
    call := fun x => (g.call x).trans (h.call x),
    lat := fun x => (g.lat x).trans (h.lat x),
    port := fun x => (g.port x).trans (h.port x),
    tail := fun x => (g.tail x).trans (h.tail x),
    mesh := fun x => (g.mesh x).trans (h.mesh x),
    hbm := fun x => (g.hbm x).trans (h.hbm x),
    intg := fun x => (g.intg x).trans (h.intg x),
    core := fun x => (g.core x).trans (h.core x),
    sem := fun x => (g.sem x).trans (h.sem x),
    scan := fun x => (g.scan x).trans (h.scan x),
    bal := fun x => (g.bal x).trans (h.bal x),
    host := fun x => (g.host x).trans (h.host x),
    sec := fun x => (g.sec x).trans (h.sec x),
    pin := fun x => (g.pin x).trans (h.pin x) }

theorem testBit_of_sub {a m i : Nat} (h : a &&& m = a) (hm : m.testBit i = false) : a.testBit i = false := by
  have := congrArg (fun x => Nat.testBit x i) h
  simp only [Nat.testBit_land, hm, Bool.and_false] at this
  exact this.symm

theorem Only.letElim {m : Nat} {s x t : State} (h : Only m s x) (g : Only m s x → Only m s t) : Only m s t := g h

theorem land_sub {a b m : Nat} (h : a &&& b = a) (hm : b &&& m = b) : a &&& m = a := by
  rw [← h, Nat.land_assoc, hm]

theorem Only.mono {a m : Nat} {s t : State} (h : Only a s t) (hs : a &&& m = a) : Only m s t :=
  { queue := h.queue, regsOk := h.regsOk, wordsOk := h.wordsOk, fusesOk := h.fusesOk,
    regs := fun x => h.regs (testBit_of_sub hs x),
    fig := fun x => h.fig (testBit_of_sub hs x),
    round := fun x => h.round (testBit_of_sub hs x),
    fab := fun x => h.fab (testBit_of_sub hs x),
    clk := fun x => h.clk (testBit_of_sub hs x),
    cfg := fun x => h.cfg (testBit_of_sub hs x),
    call := fun x => h.call (testBit_of_sub hs x),
    lat := fun x => h.lat (testBit_of_sub hs x),
    port := fun x => h.port (testBit_of_sub hs x),
    tail := fun x => h.tail (testBit_of_sub hs x),
    mesh := fun x => h.mesh (testBit_of_sub hs x),
    hbm := fun x => h.hbm (testBit_of_sub hs x),
    intg := fun x => h.intg (testBit_of_sub hs x),
    core := fun x => h.core (testBit_of_sub hs x),
    sem := fun x => h.sem (testBit_of_sub hs x),
    scan := fun x => h.scan (testBit_of_sub hs x),
    bal := fun x => h.bal (testBit_of_sub hs x),
    host := fun x => h.host (testBit_of_sub hs x),
    sec := fun x => h.sec (testBit_of_sub hs x),
    pin := fun x => h.pin (testBit_of_sub hs x) }

/-- A step after others. -/
theorem Only.after {a m : Nat} {s t u : State} (g : Only a t u) (hs : a &&& m = a) (h : Only m s t) : Only m s u := h.trans (g.mono hs)

/-! ### Updates of one part -/

theorem Only.upd_fig {s : State} (x : DWord) : Only 2 s { s with fig := x } :=
  { (Only.refl : Only 2 s s) with fig := fun h => absurd h (by decide) }

theorem Only.upd_round {s : State} (x : Addr48) : Only 4 s { s with round := x } :=
  { (Only.refl : Only 4 s s) with round := fun h => absurd h (by decide) }

theorem Only.upd_fab {s : State} (x : Fabric) : Only 8 s { s with fab := x } :=
  { (Only.refl : Only 8 s s) with fab := fun h => absurd h (by decide) }

theorem Only.upd_clk {s : State} (x : Clk) : Only 16 s { s with clk := x } :=
  { (Only.refl : Only 16 s s) with clk := fun h => absurd h (by decide) }

theorem Only.upd_cfg {s : State} (x : Cfg) : Only 32 s { s with cfg := x } :=
  { (Only.refl : Only 32 s s) with cfg := fun h => absurd h (by decide) }

theorem Only.upd_call {s : State} (x : Caller) : Only 64 s { s with call := x } :=
  { (Only.refl : Only 64 s s) with call := fun h => absurd h (by decide) }

theorem Only.upd_lat {s : State} (x : Lat) : Only 128 s { s with lat := x } :=
  { (Only.refl : Only 128 s s) with lat := fun h => absurd h (by decide) }

theorem Only.upd_port {s : State} (x : List (Nat × Port)) : Only 256 s { s with port := x } :=
  { (Only.refl : Only 256 s s) with port := fun h => absurd h (by decide) }

theorem Only.upd_tail {s : State} (x : Tail) : Only 512 s { s with tail := x } :=
  { (Only.refl : Only 512 s s) with tail := fun h => absurd h (by decide) }

theorem Only.upd_mesh {s : State} (x : Mesh) : Only 1024 s { s with mesh := x } :=
  { (Only.refl : Only 1024 s s) with mesh := fun h => absurd h (by decide) }

theorem Only.upd_intg {s : State} (x : Integ) : Only 4096 s { s with intg := x } :=
  { (Only.refl : Only 4096 s s) with intg := fun h => absurd h (by decide) }

theorem Only.upd_core {s : State} (x : List (Nat × Core)) : Only 8192 s { s with core := x } :=
  { (Only.refl : Only 8192 s s) with core := fun h => absurd h (by decide) }

theorem Only.upd_sem {s : State} (x : List (Nat × Option Nat)) : Only 16384 s { s with sem := x } :=
  { (Only.refl : Only 16384 s s) with sem := fun h => absurd h (by decide) }

theorem Only.upd_scan {s : State} (x : Scan) : Only 32768 s { s with scan := x } :=
  { (Only.refl : Only 32768 s s) with scan := fun h => absurd h (by decide) }

theorem Only.upd_bal {s : State} (x : Ballast) : Only 65536 s { s with bal := x } :=
  { (Only.refl : Only 65536 s s) with bal := fun h => absurd h (by decide) }

theorem Only.upd_host {s : State} (x : HostIf) : Only 131072 s { s with host := x } :=
  { (Only.refl : Only 131072 s s) with host := fun h => absurd h (by decide) }

theorem Only.upd_pin {s : State} (x : Pins) : Only 524288 s { s with pin := x } :=
  { (Only.refl : Only 524288 s s) with pin := fun h => absurd h (by decide) }

theorem Only.upd_free {s : State} (x : Nat) : Only 0 s { s with free := x } := { (Only.refl : Only 0 s s) with }

theorem Only.upd_regs {s : State} (x : List (Nat × Word)) (hx : mwf s.regs resetWord → mwf x resetWord) :
    Only 1 s { s with regs := x } :=
  { (Only.refl : Only 1 s s) with regs := fun h => absurd h (by decide), regsOk := hx }

theorem Only.upd_hbm {s : State} (x : Hbm) (hx : mwf s.hbm.words (fun _ => 0) → mwf x.words (fun _ => 0)) :
    Only 2048 s { s with hbm := x } :=
  { (Only.refl : Only 2048 s s) with hbm := fun h => absurd h (by decide), wordsOk := hx }

theorem Only.upd_sec {s : State} (x : Security) (hx : s.sec.fuses.Grows x.fuses) : Only 262144 s { s with sec := x } :=
  { (Only.refl : Only 262144 s s) with sec := fun h => absurd h (by decide), fusesOk := hx }

/-! ### Lists, conditions, pairs -/

theorem Only.foldS {α : Type} {m : Nat} (l : List α) (g : α → State → State) (hg : ∀ x t, Only m t (g x t)) :
    ∀ {s t : State}, Only m s t → Only m s (Machine.foldS l g t) := by
  induction l with
  | nil => intro s t h; exact h
  | cons x l ih => intro s t h; exact ih (h.trans (hg x t))

theorem Only.foldl {α : Type} {m : Nat} {s : State} (g : State → α → State) (hg : ∀ t x, Only m t (g t x)) (l : List α) :
    ∀ {t : State}, Only m s t → Only m s (l.foldl g t) := by
  induction l with
  | nil => intro t h; exact h
  | cons x l ih => intro t h; exact ih (h.trans (hg t x))

theorem Only.foldlP {α β : Type} {m : Nat} {s : State} (g : State × β → α → State × β) (hg : ∀ p x, Only m p.1 (g p x).1) (l : List α) :
    ∀ p : State × β, Only m s p.1 → Only m s (l.foldl g p).1 := by
  induction l with
  | nil => intro p h; exact h
  | cons x l ih => intro p h; exact ih _ (h.trans (hg p x))

theorem Only.each {α : Type} {m : Nat} {s t : State} (l : List α) (g : α → State → State) (hg : ∀ x t, Only m t (g x t))
    (h : Only m s t) : Only m s (t.each l g) := Only.foldS l g hg h

theorem Only.when {m : Nat} {s t : State} (b : Bool) (g : State → State) (hg : ∀ t, Only m t (g t)) (h : Only m s t) :
    Only m s (t.when b g) := by
  unfold State.when
  split
  · exact h.trans (hg t)
  · exact h

theorem Only.ite {m : Nat} {s t u : State} {c : Prop} [Decidable c] (ht : Only m s t) (hu : Only m s u) :
    Only m s (if c then t else u) := by
  split
  · exact ht
  · exact hu

theorem Only.iteP {α : Type} {m : Nat} {s : State} {x y : State × α} {c : Prop} [Decidable c] (hx : Only m s x.1) (hy : Only m s y.1) :
    Only m s (if c then x else y).1 := by
  split
  · exact hx
  · exact hy

theorem Only.fst {α : Type} {m : Nat} {s t : State} {b : α} (h : Only m s t) : Only m s (t, b).1 := h

theorem Only.of_eq {α : Type} {m : Nat} {s t : State} {p : State × α} {a : α} (h : Only m s p.1) (e : p = (t, a)) : Only m s t := by
  rw [e] at h; exact h

theorem Only.getD {m : Nat} {s t : State} {o : Option State} (ht : Only m s t) (ho : ∀ u, o = some u → Only m t u) :
    Only m s (o.getD t) := by
  cases o with
  | none => exact ht
  | some u => exact ht.trans (ho u rfl)

/-! ### Registers -/

theorem setReg_only (s : State) (a : Nat) (v : Word) : Only 1 s (s.setReg a v) :=
  Only.upd_regs _ (fun h => mwf_mset _ resetWord a v h)

theorem put_only (s : State) (x : Fld) (v : Nat) : Only 1 s (s.put x v) := setReg_only _ _ _

theorem resetRegs_only (s : State) (p : Nat → Bool) : Only 1 s (s.resetRegs p) := Only.upd_regs _ (fun h => mwf_filter _ resetWord _ h)

end Sys2Proof.Machine
end

