-- ==== Sys2Proof/Laws/OnlyOps.lean ====
section
/-! SUPPORT. Sys2Proof/Laws/OnlyOps.lean: what the operations of Machine/Ops.lean leave alone (Laws/Only.lean): one lemma each. -/

set_option linter.unusedTactic false
set_option linter.tactic.unusedName false
set_option linter.unusedVariables false
set_option linter.unreachableTactic false

namespace Sys2Proof.Machine

theorem Only.log {m : Nat} {s t : State} (v o : Fld) (g : State → State) (hg : ∀ u, Only m u (g u)) (h : Only m s t)
    (hm : 1 &&& m = 1 := by decide) : Only m s (t.log v o g) := by
  unfold State.log
  split
  · exact (put_only _ _ _).after hm h
  · exact ((put_only t v 1).after hm h).trans (hg _)

theorem setFab_only (s : State) (f : Fabric) :
    Only 8 s (State.setFab s f) := by
  unfold State.setFab
  repeat' first
    | (with_reducible exact Only.refl)
    | (with_reducible refine (Only.upd_fab _).after (by decide) ?_)

theorem setClk_only (s : State) (c : Clk) :
    Only 16 s (State.setClk s c) := by
  unfold State.setClk
  repeat' first
    | (with_reducible exact Only.refl)
    | (with_reducible refine (Only.upd_clk _).after (by decide) ?_)

theorem setCfg_only (s : State) (c : Cfg) :
    Only 32 s (State.setCfg s c) := by
  unfold State.setCfg
  repeat' first
    | (with_reducible exact Only.refl)
    | (with_reducible refine (Only.upd_cfg _).after (by decide) ?_)

theorem setCall_only (s : State) (c : Caller) :
    Only 64 s (State.setCall s c) := by
  unfold State.setCall
  repeat' first
    | (with_reducible exact Only.refl)
    | (with_reducible refine (Only.upd_call _).after (by decide) ?_)

theorem setLat_only (s : State) (l : Lat) :
    Only 128 s (State.setLat s l) := by
  unfold State.setLat
  repeat' first
    | (with_reducible exact Only.refl)
    | (with_reducible refine (Only.upd_lat _).after (by decide) ?_)

theorem setTail_only (s : State) (t : Tail) :
    Only 512 s (State.setTail s t) := by
  unfold State.setTail
  repeat' first
    | (with_reducible exact Only.refl)
    | (with_reducible refine (Only.upd_tail _).after (by decide) ?_)

theorem setMesh_only (s : State) (m : Mesh) :
    Only 1024 s (State.setMesh s m) := by
  unfold State.setMesh
  repeat' first
    | (with_reducible exact Only.refl)
    | (with_reducible refine (Only.upd_mesh _).after (by decide) ?_)

theorem setHbm_only (s : State) (x : Hbm) (hx : mwf s.hbm.words (fun _ => 0) → mwf x.words (fun _ => 0)) :
    Only 2048 s (s.setHbm x) := Only.upd_hbm x hx

theorem setScan_only (s : State) (x : Scan) :
    Only 32768 s (State.setScan s x) := by
  unfold State.setScan
  repeat' first
    | (with_reducible exact Only.refl)
    | (with_reducible refine (Only.upd_scan _).after (by decide) ?_)

theorem setBal_only (s : State) (b : Ballast) :
    Only 65536 s (State.setBal s b) := by
  unfold State.setBal
  repeat' first
    | (with_reducible exact Only.refl)
    | (with_reducible refine (Only.upd_bal _).after (by decide) ?_)

theorem setHost_only (s : State) (h : HostIf) :
    Only 131072 s (State.setHost s h) := by
  unfold State.setHost
  repeat' first
    | (with_reducible exact Only.refl)
    | (with_reducible refine (Only.upd_host _).after (by decide) ?_)

theorem setSec_only (s : State) (x : Security) (hx : s.sec.fuses.Grows x.fuses) : Only 262144 s (s.setSec x) := Only.upd_sec x hx

theorem setPin_only (s : State) (p : Pins) :
    Only 524288 s (State.setPin s p) := by
  unfold State.setPin
  repeat' first
    | (with_reducible exact Only.refl)
    | (with_reducible refine (Only.upd_pin _).after (by decide) ?_)

theorem addF_only (s : State) (x : Fld) (n : ℕ) :
    Only 1 s (State.addF s x n) := by
  unfold State.addF
  repeat' first
    | (with_reducible first
        | exact Only.refl
        | refine (put_only _ _ _).after (by decide) ?_)

theorem satF_only (s : State) (x : Fld) (n : ℕ) :
    Only 1 s (State.satF s x n) := by
  unfold State.satF
  repeat' first
    | (with_reducible first
        | exact Only.refl
        | refine (put_only _ _ _).after (by decide) ?_)

theorem sendIrq_only (s : State) (i : ℕ) :
    Only 1024 s (State.sendIrq s i) := by
  unfold State.sendIrq
  repeat' first
    | ((fail_if_no_progress extract_lets +onlyGivenNames x); clear_value x)
    | (with_reducible first
        | exact Only.refl
        | refine (setMesh_only _ _).after (by decide) ?_)

theorem raise_only (s : State) (i : ℕ) :
    Only 132609 s (State.raise s i) := by
  unfold State.raise
  repeat' first
    | ((fail_if_no_progress extract_lets +onlyGivenNames x); refine Only.letElim (x := x) ?_ (fun _ => ?_); (on_goal 1 => unfold x); (on_goal 2 => clear_value x))
    | ((fail_if_no_progress extract_lets +onlyGivenNames x); clear_value x)
    | (with_reducible first
        | exact Only.refl
        | assumption
        | refine (setReg_only _ _ _).after (by decide) ?_
        | refine (setHost_only _ _).after (by decide) ?_
        | refine (setTail_only _ _).after (by decide) ?_
        | refine (sendIrq_only _ _).after (by decide) ?_
        | refine Only.ite ?_ ?_)

theorem freeNext_only (s : State) :
    Only 0 s (State.freeNext s) := by
  unfold State.freeNext
  repeat' first
    | (with_reducible exact Only.refl)
    | (with_reducible refine (Only.upd_free _).after (by decide) ?_)

theorem toBlock_only {m : Nat} {s t : State} (i : Nat) (f : State → State) (hf : ∀ u, Only m u (f u)) (h : Only m s t) :
    Only m s (t.toBlock i f) := by
  unfold State.toBlock
  split
  · exact h
  · exact h.trans (hf t)

theorem toCore_only {m : Nat} {s t : State} (c : Nat) (f : State → State) (hf : ∀ u, Only m u (f u)) (h : Only m s t) :
    Only m s (t.toCore c f) := by
  unfold State.toCore
  split
  · exact toBlock_only c f hf h
  · split
    · exact h.trans (hf t)
    · exact h

end Sys2Proof.Machine
end

