-- ==== Sys2Proof/Laws/OnlyClockRun.lean ====
section
/-! SUPPORT. Sys2Proof/Laws/OnlyClockRun.lean: what the operations of Machine/ClockRun.lean leave alone (Laws/Only.lean): one lemma each. -/

set_option linter.unusedTactic false
set_option linter.tactic.unusedName false
set_option linter.unusedVariables false
set_option linter.unreachableTactic false

namespace Sys2Proof.Machine

theorem divide_only (s : State) (m : ℕ) (fall : Bool) :
    Only 16 s (State.divide s m fall).1 := by
  unfold State.divide
  repeat' first
    | ((fail_if_no_progress extract_lets +onlyGivenNames x); clear_value x)
    | (with_reducible first
        | exact Only.refl
        | refine (setClk_only _ _).after (by decide) ?_)

theorem divideAll_only (y0 : List (ℕ × ℕ)) (y1 : Bool) (y2 : State) :
    Only 16 y2 (divideAll y0 y1 y2).1 := by
  induction y0 generalizing y1 y2 with
  | nil =>
    unfold divideAll
    exact Only.refl
  | cons a l ih =>
    unfold divideAll
    repeat' first
      | ((fail_if_no_progress extract_lets +onlyGivenNames x); refine Only.letElim (x := x.1) ?_ (fun _ => ?_); (on_goal 1 => unfold x); (on_goal 2 => clear_value x))
      | (with_reducible first
          | exact Only.refl
          | assumption
          | refine (divide_only _ _ _).after (by decide) ?_
          | refine Only.trans ?_ (ih _ _))

theorem fanOut_only (s : State) (m : ℕ) (fall : Bool) :
    Only 16 s (State.fanOut s m fall).1 := by
  unfold State.fanOut
  repeat' first
    | ((fail_if_no_progress extract_lets +onlyGivenNames x); refine Only.letElim (x := x.1) ?_ (fun _ => ?_); (on_goal 1 => unfold x); (on_goal 2 => clear_value x))
    | (with_reducible first
        | exact Only.refl
        | assumption
        | refine (divideAll_only _ _ _).after (by decide) ?_
        | refine Only.iteP ?_ ?_)

theorem clockEdge_only (s : State) (m : ℕ) (fall : Bool) :
    Only 16 s (State.clockEdge s m fall).1 := by
  unfold State.clockEdge
  repeat' first
    | ((fail_if_no_progress extract_lets +onlyGivenNames x); refine Only.letElim (x := x.1) ?_ (fun _ => ?_); (on_goal 1 => unfold x); (on_goal 2 => clear_value x))
    | (with_reducible first
        | exact Only.refl
        | assumption
        | refine (divide_only _ _ _).after (by decide) ?_
        | refine (fanOut_only _ _ _).after (by decide) ?_)
    | split

theorem driveLow_only (s : State) (m : ℕ) :
    Only 16 s (State.driveLow s m).1 := by
  unfold State.driveLow
  repeat' first
    | ((fail_if_no_progress extract_lets +onlyGivenNames x); clear_value x)
    | (with_reducible first
        | exact Only.refl
        | refine (fanOut_only _ _ _).after (by decide) ?_
        | refine (setClk_only _ _).after (by decide) ?_
        | refine Only.iteP ?_ ?_)

theorem dividerStart_only (s : State) (m : ℕ) :
    Only 16 s (State.dividerStart s m) := by
  unfold State.dividerStart
  repeat' first
    | ((fail_if_no_progress extract_lets +onlyGivenNames x); clear_value x)
    | (with_reducible first
        | exact Only.refl
        | refine (setClk_only _ _).after (by decide) ?_)

end Sys2Proof.Machine
end

