-- ==== Sys2Proof/Laws/OnlyIntegrity.lean ====
section
/-! SUPPORT. Sys2Proof/Laws/OnlyIntegrity.lean: what the operations of Machine/Integrity.lean leave alone (Laws/Only.lean): one lemma each. -/

set_option linter.unusedTactic false
set_option linter.tactic.unusedName false
set_option linter.unusedVariables false
set_option linter.unreachableTactic false

namespace Sys2Proof.Machine

theorem cntOverflow_only (s : State) (n : ℕ) (fault : Bool) :
    Only 136705 s (State.cntOverflow s n fault) := by
  unfold State.cntOverflow
  repeat' first
    | ((fail_if_no_progress extract_lets +onlyGivenNames x); refine Only.letElim (x := x) ?_ (fun _ => ?_); (on_goal 1 => unfold x); (on_goal 2 => clear_value x))
    | ((fail_if_no_progress extract_lets +onlyGivenNames x); clear_value x)
    | (with_reducible first
        | exact Only.refl
        | assumption
        | refine (addF_only _ _ _).after (by decide) ?_
        | refine (put_only _ _ _).after (by decide) ?_
        | refine (raise_only _ _).after (by decide) ?_
        | refine Only.ite ?_ ?_)
    | split
    | (with_reducible refine (Only.upd_intg _).after (by decide) ?_)

theorem cntParity_only (s : State) (n : ℕ) :
    Only 136705 s (State.cntParity s n) := by
  unfold State.cntParity
  repeat' first
    | ((fail_if_no_progress extract_lets +onlyGivenNames x); clear_value x)
    | (with_reducible first
        | exact Only.refl
        | refine (cntOverflow_only _ _ _).after (by decide) ?_
        | refine Only.ite ?_ ?_)
    | (with_reducible refine (Only.upd_intg _).after (by decide) ?_)

theorem cntLeak_only (s : State) (n : ℕ) :
    Only 136705 s (State.cntLeak s n) := by
  unfold State.cntLeak
  repeat' first
    | ((fail_if_no_progress extract_lets +onlyGivenNames x); refine Only.letElim (x := x) ?_ (fun _ => ?_); (on_goal 1 => unfold x); (on_goal 2 => clear_value x))
    | ((fail_if_no_progress extract_lets +onlyGivenNames x); clear_value x)
    | (with_reducible first
        | exact Only.refl
        | assumption
        | refine (cntParity_only _ _).after (by decide) ?_
        | refine (put_only _ _ _).after (by decide) ?_
        | refine Only.ite ?_ ?_)
    | (with_reducible refine (Only.upd_intg _).after (by decide) ?_)

theorem cntAdd_only (s : State) (n : ℕ) (k : ℕ) :
    Only 136705 s (State.cntAdd s n k) := by
  unfold State.cntAdd
  repeat' first
    | ((fail_if_no_progress extract_lets +onlyGivenNames x); refine Only.letElim (x := x) ?_ (fun _ => ?_); (on_goal 1 => unfold x); (on_goal 2 => clear_value x))
    | ((fail_if_no_progress extract_lets +onlyGivenNames x); clear_value x)
    | (with_reducible first
        | exact Only.refl
        | assumption
        | refine (cntParity_only _ _).after (by decide) ?_
        | refine (cntLeak_only _ _).after (by decide) ?_
        | refine (cntOverflow_only _ _ _).after (by decide) ?_
        | refine (put_only _ _ _).after (by decide) ?_
        | refine Only.ite ?_ ?_)

theorem leafEvent_only (s : State) (l : ℕ) (ue : Bool) (index : ℕ) :
    Only 136705 s (State.leafEvent s l ue index) := by
  unfold State.leafEvent
  repeat' first
    | ((fail_if_no_progress extract_lets +onlyGivenNames x); refine Only.letElim (x := x) ?_ (fun _ => ?_); (on_goal 1 => unfold x); (on_goal 2 => clear_value x))
    | ((fail_if_no_progress extract_lets +onlyGivenNames x); clear_value x)
    | (with_reducible first
        | exact Only.refl
        | assumption
        | refine (put_only _ _ _).after (by decide) ?_
        | refine (cntAdd_only _ _ _).after (by decide) ?_
        | refine Only.ite ?_ ?_)

theorem cntSpoil_only (s : State) (n : ℕ) (bad : Bool) :
    Only 4096 s (State.cntSpoil s n bad) := by
  unfold State.cntSpoil
  repeat' first
    | ((fail_if_no_progress extract_lets +onlyGivenNames x); clear_value x)
    | (with_reducible first
        | exact Only.refl
        | refine Only.ite ?_ ?_)
    | (with_reducible refine (Only.upd_intg _).after (by decide) ?_)

theorem execLeakWindow_only (n : ℕ) (bad : Bool) (s : State) :
    ∀ t', execLeakWindow n bad s = .next t' → Only 136705 s t' := by
  intro t' h
  unfold execLeakWindow at h
  injection h with h
  subst h
  repeat' first
    | (with_reducible first
        | exact Only.refl
        | refine (cntLeak_only _ _).after (by decide) ?_
        | refine (cntSpoil_only _ _ _).after (by decide) ?_)

theorem cntUp_only (s : State) :
    Only 136705 s (State.cntUp s) := by
  unfold State.cntUp
  repeat' first
    | ((fail_if_no_progress extract_lets +onlyGivenNames x); clear_value x)
    | (with_reducible first
        | exact Only.refl
        | refine Only.each _ _ (fun _ _ => ?_) ?_
        | refine (cntAdd_only _ _ _).after (by decide) ?_)
    | (with_reducible refine (Only.upd_intg _).after (by decide) ?_)

theorem execCounterPropagate_only (s : State) :
    ∀ t', execCounterPropagate s = .next t' → Only 136705 s t' := by
  intro t' h
  unfold execCounterPropagate at h
  injection h with h
  subst h
  repeat' first
    | (with_reducible first
        | exact Only.refl
        | refine (cntUp_only _).after (by decide) ?_)

theorem cntEdge_only (s : State) :
    Only 136705 s (State.cntEdge s) := by
  unfold State.cntEdge
  repeat' first
    | ((fail_if_no_progress extract_lets +onlyGivenNames x); refine Only.letElim (x := x) ?_ (fun _ => ?_); (on_goal 1 => unfold x); (on_goal 2 => clear_value x))
    | ((fail_if_no_progress extract_lets +onlyGivenNames x); clear_value x)
    | (with_reducible first
        | exact Only.refl
        | assumption
        | refine (cntUp_only _).after (by decide) ?_
        | refine Only.each _ _ (fun _ _ => ?_) ?_
        | refine (cntLeak_only _ _).after (by decide) ?_
        | refine Only.when _ _ (fun _ => ?_) ?_
        | refine (satF_only _ _ _).after (by decide) ?_
        | refine Only.ite ?_ ?_)
    | (with_reducible refine (Only.upd_intg _).after (by decide) ?_)

theorem logStamp_only (s : State) :
    Only 1 s (State.logStamp s) := by
  unfold State.logStamp
  repeat' first
    | (with_reducible first
        | exact Only.refl
        | refine (put_only _ _ _).after (by decide) ?_
        | refine (setReg_only _ _ _).after (by decide) ?_)
    | split

theorem execIntLogPop_only (s : State) :
    ∀ t', execIntLogPop s = .next t' → Only 4097 s t' := by
  intro t' h
  unfold execIntLogPop at h
  injection h with h
  subst h
  repeat' first
    | ((fail_if_no_progress extract_lets +onlyGivenNames x); refine Only.letElim (x := x) ?_ (fun _ => ?_); (on_goal 1 => unfold x); (on_goal 2 => clear_value x))
    | ((fail_if_no_progress extract_lets +onlyGivenNames x); clear_value x)
    | (with_reducible first
        | exact Only.refl
        | assumption
        | refine (logStamp_only _).after (by decide) ?_
        | refine Only.ite ?_ ?_)
    | (with_reducible refine (Only.upd_intg _).after (by decide) ?_)

theorem execCounterParityRead_only (n : ℕ) (bad : Bool) (s : State) :
    ∀ t', execCounterParityRead n bad s = .next t' → Only 136705 s t' := by
  intro t' h
  unfold execCounterParityRead at h
  injection h with h
  subst h
  repeat' first
    | (with_reducible first
        | exact Only.refl
        | refine (cntParity_only _ _).after (by decide) ?_
        | refine (cntSpoil_only _ _ _).after (by decide) ?_)

end Sys2Proof.Machine
end

