-- ==== Sys2Proof/Laws/OnlyFabricEval.lean ====
section
/-! SUPPORT. Sys2Proof/Laws/OnlyFabricEval.lean: what the operations of Machine/FabricEval.lean leave alone (Laws/Only.lean): one lemma each. -/

set_option linter.unusedTactic false
set_option linter.tactic.unusedName false
set_option linter.unusedVariables false
set_option linter.unreachableTactic false

namespace Sys2Proof.Machine

theorem memEvents_only (s : State) (m : ℕ) (portB : Bool) (row : ℕ) (raw : ℕ) :
    Only 136705 s (State.memEvents s m portB row raw) := by
  unfold State.memEvents
  repeat' first
    | (with_reducible first
        | exact Only.refl
        | refine (leafEvent_only _ _ _ _).after (by decide) ?_)
    | split

theorem copyOutRow_only (s : State) (m : ℕ) (i : ℕ) (row : ℕ) :
    Only 8 s (State.copyOutRow s m i row) := by
  unfold State.copyOutRow
  repeat' first
    | ((fail_if_no_progress extract_lets +onlyGivenNames x); clear_value x)
    | (with_reducible first
        | exact Only.refl
        | refine (setFab_only _ _).after (by decide) ?_
        | refine Only.ite ?_ ?_)

theorem setRow_only (s : State) (m : ℕ) (row : ℕ) (v : ℕ) :
    Only 8 s (State.setRow s m row v) := by
  unfold State.setRow
  repeat' first
    | ((fail_if_no_progress extract_lets +onlyGivenNames x); clear_value x)
    | (with_reducible first
        | exact Only.refl
        | refine (setFab_only _ _).after (by decide) ?_)

theorem memStore_only (s : State) (c : MemCfg) (y : PortAcc) (data : ℕ) (mask : ℕ) (pin : Bool) (pb : Bool) :
    Only 136713 s (State.memStore s c y data mask pin pb) := by
  unfold State.memStore
  repeat' first
    | ((fail_if_no_progress extract_lets +onlyGivenNames x); clear_value x)
    | (with_reducible first
        | exact Only.refl
        | refine Only.when _ _ (fun _ => ?_) ?_
        | refine (setRow_only _ _ _ _).after (by decide) ?_
        | refine (memEvents_only _ _ _ _ _).after (by decide) ?_)

theorem memStores_only (s : State) (c : MemCfg) (wa : Option PortAcc) (wb : Option PortAcc) :
    Only 136713 s (State.memStores s c wa wb) := by
  unfold State.memStores
  repeat' first
    | ((fail_if_no_progress extract_lets +onlyGivenNames x); clear_value x)
    | (with_reducible first
        | exact Only.refl
        | refine (memStore_only _ _ _ _ _ _ _).after (by decide) ?_
        | refine Only.ite ?_ ?_)
    | split

theorem memShow_only (s : State) (c : MemCfg) (i : ℕ) (pc : PortCfg) (x : Option PortAcc) (old : Option ℕ) :
    Only 136713 s (State.memShow s c i pc x old) := by
  unfold State.memShow
  repeat' first
    | ((fail_if_no_progress extract_lets +onlyGivenNames x); clear_value x)
    | (with_reducible first
        | exact Only.refl
        | refine Only.when _ _ (fun _ => ?_) ?_
        | refine (setFab_only _ _).after (by decide) ?_
        | refine (memEvents_only _ _ _ _ _).after (by decide) ?_)
    | split

theorem memEdge_only (s : State) (c : MemCfg) (xa : Option PortAcc) (xb : Option PortAcc) (design : Bool) :
    Only 136713 s (State.memEdge s c xa xb design) := by
  unfold State.memEdge
  repeat' first
    | ((fail_if_no_progress extract_lets +onlyGivenNames x); refine Only.letElim (x := x) ?_ (fun _ => ?_); (on_goal 1 => unfold x); (on_goal 2 => clear_value x))
    | ((fail_if_no_progress extract_lets +onlyGivenNames x); (fail_if_success (have := fun y => x y)); (fail_if_success (have : CRes := x)); (fail_if_success (have : Security := x)); (fail_if_success (have : Hbm := x)); (fail_if_success (have : Option State := x)); clear_value x)
    | ((fail_if_no_progress extract_lets +onlyGivenNames x); (try unfold x); clear x)
    | (with_reducible first
        | exact Only.refl
        | assumption
        | refine Only.each _ _ (fun _ _ => ?_) ?_
        | refine (copyOutRow_only _ _ _ _).after (by decide) ?_
        | refine (memShow_only _ _ _ _ _ _).after (by decide) ?_
        | refine (memStores_only _ _ _ _).after (by decide) ?_
        | refine Only.ite ?_ ?_)

end Sys2Proof.Machine
end

