-- ==== Sys2Proof/Laws/OnlyOrder.lean ====
section
/-! SUPPORT. Sys2Proof/Laws/OnlyOrder.lean: what the operations of Machine/Order.lean leave alone (Laws/Only.lean): one lemma each. -/

set_option linter.unusedTactic false
set_option linter.tactic.unusedName false
set_option linter.unusedVariables false
set_option linter.unreachableTactic false

namespace Sys2Proof.Machine

theorem setFences_only (s : State) (src : ℕ) (l : List (ℕ × List ℕ × Bool)) :
    Only 1025 s (State.setFences s src l) := by
  unfold State.setFences
  repeat' first
    | ((fail_if_no_progress extract_lets +onlyGivenNames x); clear_value x)
    | (with_reducible first
        | exact Only.refl
        | refine (put_only _ _ _).after (by decide) ?_
        | refine (setMesh_only _ _).after (by decide) ?_)

theorem flushIssue_only (s : State) (src : ℕ) :
    Only 131072 s (State.flushIssue s src) := by
  unfold State.flushIssue
  repeat' first
    | ((fail_if_no_progress extract_lets +onlyGivenNames x); clear_value x)
    | (with_reducible first
        | exact Only.refl
        | refine (setHost_only _ _).after (by decide) ?_
        | refine Only.ite ?_ ?_)

theorem issueFence_only (s : State) (src : ℕ) :
    Only 132097 s (State.issueFence s src).1 := by
  unfold State.issueFence
  repeat' first
    | ((fail_if_no_progress extract_lets +onlyGivenNames x); refine Only.letElim (x := x) ?_ (fun _ => ?_); (on_goal 1 => unfold x); (on_goal 2 => clear_value x))
    | ((fail_if_no_progress extract_lets +onlyGivenNames x); clear_value x)
    | (with_reducible first
        | exact Only.refl
        | assumption
        | refine (addF_only _ _ _).after (by decide) ?_
        | refine (flushIssue_only _ _).after (by decide) ?_
        | refine (setFences_only _ _ _).after (by decide) ?_
        | refine Only.iteP ?_ ?_)

theorem opSeen_only (s : State) (src : ℕ) (key : ℕ) (err : Bool) :
    Only 1025 s (State.opSeen s src key err) := by
  unfold State.opSeen
  repeat' first
    | (with_reducible first
        | exact Only.refl
        | refine (setFences_only _ _ _).after (by decide) ?_)

theorem opVisible_only (s : State) (key : ℕ) (err : Bool) :
    Only 1025 s (State.opVisible s key err) := by
  unfold State.opVisible
  repeat' first
    | (with_reducible first
        | exact Only.refl
        | refine (opSeen_only _ _ _ _).after (by decide) ?_)

theorem hostSeen_only (s : State) (p : ℕ → Bool) (err : Bool) :
    Only 132097 s (State.hostSeen s p err) := by
  unfold State.hostSeen
  repeat' first
    | ((fail_if_no_progress extract_lets +onlyGivenNames x); clear_value x)
    | (with_reducible first
        | exact Only.refl
        | refine (setHost_only _ _).after (by decide) ?_
        | refine (opSeen_only _ _ _ _).after (by decide) ?_
        | refine Only.foldl _ (fun _ _ => ?_) _ ?_)

theorem fenceEvt_only (s : State) (src : ℕ) :
    Only 132609 s (State.fenceEvt s src) := by
  unfold State.fenceEvt
  repeat' first
    | ((fail_if_no_progress extract_lets +onlyGivenNames x); refine Only.letElim (x := x) ?_ (fun _ => ?_); (on_goal 1 => unfold x); (on_goal 2 => clear_value x))
    | (with_reducible first
        | exact Only.refl
        | assumption
        | refine (put_only _ _ _).after (by decide) ?_
        | refine (raise_only _ _).after (by decide) ?_
        | refine Only.ite ?_ ?_)

theorem masterAck_only (s : State) (src : ℕ) (k : ℕ) (err : Bool) :
    Only 8 s (State.masterAck s src k err) := by
  unfold State.masterAck
  repeat' first
    | ((fail_if_no_progress extract_lets +onlyGivenNames x); clear_value x)
    | (with_reducible first
        | exact Only.refl
        | refine (setFab_only _ _).after (by decide) ?_
        | refine Only.ite ?_ ?_)

theorem completeFence_only (s : State) (src : ℕ) :
    Only 132617 s (State.completeFence s src) := by
  unfold State.completeFence
  repeat' first
    | ((fail_if_no_progress extract_lets +onlyGivenNames x); refine Only.letElim (x := x) ?_ (fun _ => ?_); (on_goal 1 => unfold x); (on_goal 2 => clear_value x))
    | (with_reducible first
        | exact Only.refl
        | assumption
        | refine (addF_only _ _ _).after (by decide) ?_
        | refine (setFences_only _ _ _).after (by decide) ?_
        | refine Only.when _ _ (fun _ => ?_) ?_
        | refine (put_only _ _ _).after (by decide) ?_
        | refine (masterAck_only _ _ _ _).after (by decide) ?_
        | refine (fenceEvt_only _ _).after (by decide) ?_)
    | split

theorem orderReset_only (s : State) (src : ℕ) :
    Only 1033 s (State.orderReset s src) := by
  unfold State.orderReset
  repeat' first
    | ((fail_if_no_progress extract_lets +onlyGivenNames x); refine Only.letElim (x := x) ?_ (fun _ => ?_); (on_goal 1 => unfold x); (on_goal 2 => clear_value x))
    | ((fail_if_no_progress extract_lets +onlyGivenNames x); clear_value x)
    | (with_reducible first
        | exact Only.refl
        | assumption
        | refine (setFences_only _ _ _).after (by decide) ?_
        | refine Only.when _ _ (fun _ => ?_) ?_
        | refine (setFab_only _ _).after (by decide) ?_
        | refine (resetRegs_only _ _).after (by decide) ?_
        | refine Only.ite ?_ ?_)

theorem execDevOrdFence_only (src : ℕ) (s : State) :
    ∀ t', execDevOrdFence src s = .next t' → Only 132097 s t' := by
  intro t' h
  unfold execDevOrdFence at h
  injection h with h
  subst h
  repeat' first
    | ((fail_if_no_progress extract_lets +onlyGivenNames x); clear_value x)
    | (with_reducible first
        | exact Only.refl
        | refine ((issueFence_only _ _).of_eq (by assumption)).after (by decide) ?_
        | refine (setMesh_only _ _).after (by decide) ?_
        | refine Only.ite ?_ ?_)
    | split

end Sys2Proof.Machine
end

