-- ==== Sys2Proof/Laws/OnlyGleisOps.lean ====
section
/-! SUPPORT. Sys2Proof/Laws/OnlyGleisOps.lean: what the operations of Machine/GleisOps.lean leave alone (Laws/Only.lean): one lemma each. -/

set_option linter.unusedTactic false
set_option linter.tactic.unusedName false
set_option linter.unusedVariables false
set_option linter.unreachableTactic false

namespace Sys2Proof.Machine

theorem latErr_only (s : State) (cause : ℕ) (port : ℕ) (node : ℕ) (here : Bool) :
    Only 132609 s (State.latErr s cause port node here) := by
  unfold State.latErr
  repeat' first
    | (with_reducible first
        | exact Only.refl
        | refine (raise_only _ _).after (by decide) ?_
        | refine Only.log _ _ _ (fun _ => ?_) ?_
        | refine (put_only _ _ _).after (by decide) ?_)

theorem routeInvalid_only (s : State) (dest : ℕ) (port : Option ℕ) :
    Only 132737 s (State.routeInvalid s dest port) := by
  unfold State.routeInvalid
  repeat' first
    | ((fail_if_no_progress extract_lets +onlyGivenNames x); clear_value x)
    | (with_reducible first
        | exact Only.refl
        | refine (latErr_only _ _ _ _ _).after (by decide) ?_
        | refine (setLat_only _ _).after (by decide) ?_
        | refine Only.ite ?_ ?_)

theorem setPort_only (s : State) (n : ℕ) (p : Port) :
    Only 256 s (State.setPort s n p) := by
  unfold State.setPort
  repeat' first
    | (with_reducible exact Only.refl)
    | (with_reducible refine (Only.upd_port _).after (by decide) ?_)

theorem glsEvt_only (s : State) (n : ℕ) (bit : ℕ) (irq : ℕ) :
    Only 132609 s (State.glsEvt s n bit irq) := by
  unfold State.glsEvt
  repeat' first
    | (with_reducible first
        | exact Only.refl
        | refine (raise_only _ _).after (by decide) ?_
        | refine (setReg_only _ _ _).after (by decide) ?_)

theorem assignSeq_only (s : State) (n : ℕ) (f : Frm) :
    Only 257 s (State.assignSeq s n f).1 := by
  unfold State.assignSeq
  repeat' first
    | ((fail_if_no_progress extract_lets +onlyGivenNames x); clear_value x)
    | (with_reducible first
        | exact Only.refl
        | refine (put_only _ _ _).after (by decide) ?_
        | refine (setPort_only _ _ _).after (by decide) ?_)

theorem useCredit_only (s : State) (n : ℕ) (pools : List ℕ) :
    Only 256 s (State.useCredit s n pools) := by
  unfold State.useCredit
  repeat' first
    | ((fail_if_no_progress extract_lets +onlyGivenNames x); clear_value x)
    | (with_reducible first
        | exact Only.refl
        | refine (setPort_only _ _ _).after (by decide) ?_)

theorem poolFree_only (s : State) (n : ℕ) (p : ℕ) (k : ℕ) :
    Only 256 s (State.poolFree s n p k) := by
  unfold State.poolFree
  repeat' first
    | ((fail_if_no_progress extract_lets +onlyGivenNames x); clear_value x)
    | (with_reducible first
        | exact Only.refl
        | refine (setPort_only _ _ _).after (by decide) ?_)

theorem setBulkPool_only (s : State) (n : ℕ) (p : ℕ) (l : List PoolEntry) :
    Only 256 s (State.setBulkPool s n p l) := by
  unfold State.setBulkPool
  repeat' first
    | ((fail_if_no_progress extract_lets +onlyGivenNames x); clear_value x)
    | (with_reducible first
        | exact Only.refl
        | refine (setPort_only _ _ _).after (by decide) ?_)

theorem setUrgPool_only (s : State) (n : ℕ) (p : ℕ) (l : List PoolUrgent) :
    Only 256 s (State.setUrgPool s n p l) := by
  unfold State.setUrgPool
  repeat' first
    | ((fail_if_no_progress extract_lets +onlyGivenNames x); clear_value x)
    | (with_reducible first
        | exact Only.refl
        | refine (setPort_only _ _ _).after (by decide) ?_)

theorem enqUrgent_only (s : State) (n : ℕ) (a : Age) (u : Urgent) :
    ∀ t, State.enqUrgent s n a u = some t → Only 256 s t := by
  intro t h
  unfold State.enqUrgent at h
  try dsimp only at h
  repeat' split at h
  all_goals first
    | contradiction
    | (injection h with h; subst h
       repeat' first
         | (with_reducible first
             | exact Only.refl
             | refine (setPort_only _ _ _).after (by decide) ?_))

theorem enqBulk_only (s : State) (n : ℕ) (a : Age) (e : Entry) :
    ∀ t, State.enqBulk s n a e = some t → Only 256 s t := by
  intro t h
  unfold State.enqBulk at h
  try dsimp only at h
  repeat' split at h
  all_goals first
    | contradiction
    | (injection h with h; subst h
       repeat' first
         | (with_reducible first
             | exact Only.refl
             | refine (setPort_only _ _ _).after (by decide) ?_))

theorem portState_only (s : State) (n : ℕ) (st : ℕ) :
    Only 1 s (State.portState s n st) := by
  unfold State.portState
  repeat' first
    | (with_reducible first
        | exact Only.refl
        | refine (put_only _ _ _).after (by decide) ?_)

theorem lanesOff_only (s : State) (n : ℕ) :
    Only 1 s (State.lanesOff s n) := by
  unfold State.lanesOff
  repeat' first
    | (with_reducible first
        | exact Only.refl
        | refine (put_only _ _ _).after (by decide) ?_
        | refine Only.each _ _ (fun _ _ => ?_) ?_)

theorem portDown_only (s : State) (n : ℕ) (cause : ℕ) :
    Only 132865 s (State.portDown s n cause) := by
  unfold State.portDown
  repeat' first
    | ((fail_if_no_progress extract_lets +onlyGivenNames x); refine Only.letElim (x := x) ?_ (fun _ => ?_); (on_goal 1 => unfold x); (on_goal 2 => clear_value x))
    | ((fail_if_no_progress extract_lets +onlyGivenNames x); clear_value x)
    | (with_reducible first
        | exact Only.refl
        | assumption
        | refine Only.when _ _ (fun _ => ?_) ?_
        | refine (put_only _ _ _).after (by decide) ?_
        | refine (lanesOff_only _ _).after (by decide) ?_
        | refine (setPort_only _ _ _).after (by decide) ?_
        | refine (glsEvt_only _ _ _ _).after (by decide) ?_
        | refine (portState_only _ _ _).after (by decide) ?_
        | refine Only.ite ?_ ?_)

theorem portFlush_only (s : State) (n : ℕ) :
    Only 132865 s (State.portFlush s n) := by
  unfold State.portFlush
  repeat' first
    | ((fail_if_no_progress extract_lets +onlyGivenNames x); refine Only.letElim (x := x) ?_ (fun _ => ?_); (on_goal 1 => unfold x); (on_goal 2 => clear_value x))
    | ((fail_if_no_progress extract_lets +onlyGivenNames x); clear_value x)
    | (with_reducible first
        | exact Only.refl
        | assumption
        | refine (poolFree_only _ _ _ _).after (by decide) ?_
        | refine (setUrgPool_only _ _ _ _).after (by decide) ?_
        | refine (setBulkPool_only _ _ _ _).after (by decide) ?_
        | refine (glsEvt_only _ _ _ _).after (by decide) ?_
        | refine (satF_only _ _ _).after (by decide) ?_
        | refine Only.ite ?_ ?_)

theorem portRestart_only (s : State) (n : ℕ) :
    Only 132865 s (State.portRestart s n) := by
  unfold State.portRestart
  repeat' first
    | ((fail_if_no_progress extract_lets +onlyGivenNames x); refine Only.letElim (x := x) ?_ (fun _ => ?_); (on_goal 1 => unfold x); (on_goal 2 => clear_value x))
    | ((fail_if_no_progress extract_lets +onlyGivenNames x); clear_value x)
    | (with_reducible first
        | exact Only.refl
        | assumption
        | refine (setPort_only _ _ _).after (by decide) ?_
        | refine (put_only _ _ _).after (by decide) ?_
        | refine (glsEvt_only _ _ _ _).after (by decide) ?_
        | refine (satF_only _ _ _).after (by decide) ?_
        | refine Only.ite ?_ ?_)

theorem latTry_only (s : State) (k : ℕ) (x : ℕ × Urgent) :
    Only 132993 s (State.latTry s k x).1 := by
  unfold State.latTry
  repeat' first
    | (with_reducible first
        | exact Only.refl
        | refine (routeInvalid_only _ _ _).after (by decide) ?_
        | refine (enqUrgent_only _ _ _ _ _ (by assumption)).after (by decide) ?_)
    | split

theorem latPumpList_only (k : Nat) (l kept : List (Nat × Urgent)) (s : State) : Only 132993 s (latPumpList k l kept s) := by
  induction l generalizing k kept s with
  | nil => exact (setLat_only _ _).mono (by decide)
  | cons x rest ih =>
    have ht := (latTry_only s k x).mono (by decide : _ &&& 132993 = _)
    unfold latPumpList
    dsimp only
    split
    · exact ih _ _ _
    · split
      · exact ht.trans (ih _ _ _)
      · exact ht.trans (ih _ _ _)

theorem latPump_only (s : State) :
    Only 132993 s (State.latPump s) := by
  unfold State.latPump
  repeat' first
    | (with_reducible first
        | exact Only.refl
        | refine (latPumpList_only _ _ _ _).after (by decide) ?_)

theorem latSend_only (s : State) (u : Urgent) :
    Only 132993 s (State.latSend s u) := by
  unfold State.latSend
  repeat' first
    | ((fail_if_no_progress extract_lets +onlyGivenNames x); clear_value x)
    | (with_reducible first
        | exact Only.refl
        | refine (latPump_only _).after (by decide) ?_
        | refine (setLat_only _ _).after (by decide) ?_)

theorem sendTokens_only (s : State) (type : ℕ) (round : ℕ) :
    Only 132993 s (State.sendTokens s type round) := by
  unfold State.sendTokens
  repeat' first
    | (with_reducible first
        | exact Only.refl
        | refine Only.each _ _ (fun _ _ => ?_) ?_
        | refine (latSend_only _ _).after (by decide) ?_
        | refine Only.ite ?_ ?_)

theorem sendMsg_only (s : State) (m : Msg) :
    Only 132993 s (State.sendMsg s m) := by
  unfold State.sendMsg
  repeat' first
    | (with_reducible first
        | exact Only.refl
        | refine Only.each _ _ (fun _ _ => ?_) ?_
        | refine (latSend_only _ _).after (by decide) ?_)

end Sys2Proof.Machine
end

