-- ==== Sys2Proof/Laws/OnlyHbmOps.lean ====
section
/-! SUPPORT. Sys2Proof/Laws/OnlyHbmOps.lean: what the operations of Machine/HbmOps.lean leave alone (Laws/Only.lean): one lemma each. -/

set_option linter.unusedTactic false
set_option linter.tactic.unusedName false
set_option linter.unusedVariables false
set_option linter.unreachableTactic false

namespace Sys2Proof.Machine

theorem raiseAlarm_only (s : State) (bit : ℕ) :
    Only 394753 s (State.raiseAlarm s bit) := by
  unfold State.raiseAlarm
  repeat' first
    | ((fail_if_no_progress extract_lets +onlyGivenNames x); refine Only.letElim (x := x) ?_ (fun _ => ?_); (on_goal 1 => unfold x); (on_goal 2 => clear_value x))
    | ((fail_if_no_progress extract_lets +onlyGivenNames x); (try unfold x); clear x)
    | (with_reducible first
        | exact Only.refl
        | assumption
        | refine (raise_only _ _).after (by decide) ?_
        | refine (put_only _ _ _).after (by decide) ?_
        | refine (setSec_only _ _ (by exact Fuses.Grows.refl _)).after (by decide) ?_
        | refine Only.ite ?_ ?_)

theorem setMemWord_only (s : State) (a v : Nat) : Only 2048 s (s.setMemWord a v) :=
  setHbm_only _ _ (fun h => mwf_mset _ (fun _ => 0) _ _ h)

theorem setTagLine_only (s : State) (l : ℕ) (t : Option TagLine) :
    Only 2048 s (State.setTagLine s l t) := by
  unfold State.setTagLine
  repeat' first
    | ((fail_if_no_progress extract_lets +onlyGivenNames x); (try unfold x); clear x)
    | (with_reducible first
        | exact Only.refl
        | refine (setHbm_only _ _ (by exact fun h => h)).after (by decide) ?_)

theorem tagBack_only (s : State) (l : ℕ) :
    Only 2048 s (State.tagBack s l) := by
  unfold State.tagBack
  repeat' first
    | ((fail_if_no_progress extract_lets +onlyGivenNames x); clear_value x)
    | (with_reducible first
        | exact Only.refl
        | refine (setTagLine_only _ _ _).after (by decide) ?_
        | refine Only.each _ _ (fun _ _ => ?_) ?_
        | refine (setMemWord_only _ _ _).after (by decide) ?_
        | refine Only.ite ?_ ?_)
    | split

theorem tagFlush_only (s : State) (k : ℕ) :
    Only 2048 s (State.tagFlush s k) := by
  unfold State.tagFlush
  repeat' first
    | (with_reducible first
        | exact Only.refl
        | refine Only.each _ _ (fun _ _ => ?_) ?_
        | refine (tagBack_only _ _).after (by decide) ?_)

theorem tagRoom_only (s : State) (k : ℕ) :
    Only 2048 s (State.tagRoom s k) := by
  unfold State.tagRoom
  repeat' first
    | ((fail_if_no_progress extract_lets +onlyGivenNames x); clear_value x)
    | (with_reducible first
        | exact Only.refl
        | refine (setTagLine_only _ _ _).after (by decide) ?_
        | refine (tagBack_only _ _).after (by decide) ?_
        | refine (freeNext_only _).after (by decide) ?_
        | refine Only.ite ?_ ?_)

theorem tagLoad_only (s : State) (l : ℕ) :
    Only 2048 s (State.tagLoad s l) := by
  unfold State.tagLoad
  repeat' first
    | (with_reducible first
        | exact Only.refl
        | refine (setTagLine_only _ _ _).after (by decide) ?_)

theorem tagFetch_only (s : State) (l : ℕ) :
    Only 2048 s (State.tagFetch s l) := by
  unfold State.tagFetch
  repeat' first
    | (with_reducible first
        | exact Only.refl
        | refine (tagLoad_only _ _).after (by decide) ?_
        | refine (tagRoom_only _ _).after (by decide) ?_
        | refine Only.ite ?_ ?_)
    | split

theorem setTag_only (s : State) (a : ℕ) (v : ℕ) :
    Only 2048 s (State.setTag s a v) := by
  unfold State.setTag
  repeat' first
    | ((fail_if_no_progress extract_lets +onlyGivenNames x); refine Only.letElim (x := x) ?_ (fun _ => ?_); (on_goal 1 => unfold x); (on_goal 2 => clear_value x))
    | ((fail_if_no_progress extract_lets +onlyGivenNames x); clear_value x)
    | (with_reducible first
        | exact Only.refl
        | assumption
        | refine (tagFetch_only _ _).after (by decide) ?_
        | refine (setTagLine_only _ _ _).after (by decide) ?_)
    | split

theorem memUpset_only (s : State) (a : ℕ) (up : List (ℕ × ℕ)) :
    Only 2048 s (State.memUpset s a up) := by
  unfold State.memUpset
  repeat' first
    | ((fail_if_no_progress extract_lets +onlyGivenNames x); (try unfold x); clear x)
    | (with_reducible first
        | exact Only.refl
        | refine Only.each _ _ (fun _ _ => ?_) ?_
        | refine (setMemWord_only _ _ _).after (by decide) ?_
        | refine (setTagLine_only _ _ _).after (by decide) ?_
        | refine Only.ite ?_ ?_)
    | split

theorem memCe_only (s : State) (k : ℕ) :
    Only 136705 s (State.memCe s k) := by
  unfold State.memCe
  repeat' first
    | (with_reducible first
        | exact Only.refl
        | refine (leafEvent_only _ _ _ _).after (by decide) ?_
        | refine (satF_only _ _ _).after (by decide) ?_)

theorem tagRead_only (s : State) (a : ℕ) :
    Only 138753 s (State.tagRead s a) := by
  unfold State.tagRead
  repeat' first
    | ((fail_if_no_progress extract_lets +onlyGivenNames x); refine Only.letElim (x := x) ?_ (fun _ => ?_); (on_goal 1 => unfold x); (on_goal 2 => clear_value x))
    | (with_reducible first
        | exact Only.refl
        | assumption
        | refine (tagFetch_only _ _).after (by decide) ?_
        | refine Only.when _ _ (fun _ => ?_) ?_
        | refine (memCe_only _ _).after (by decide) ?_)

theorem memUe_only (s : State) (a : ℕ) (kind : ℕ) :
    Only 136705 s (State.memUe s a kind) := by
  unfold State.memUe
  repeat' first
    | ((fail_if_no_progress extract_lets +onlyGivenNames x); clear_value x)
    | (with_reducible first
        | exact Only.refl
        | refine Only.log _ _ _ (fun _ => ?_) ?_
        | refine (leafEvent_only _ _ _ _).after (by decide) ?_
        | refine (satF_only _ _ _).after (by decide) ?_
        | refine (put_only _ _ _).after (by decide) ?_)

theorem tagFail_only (s : State) (src : ℕ) (a : ℕ) (write : Bool) :
    Only 398849 s (State.tagFail s src a write) := by
  unfold State.tagFail
  repeat' first
    | ((fail_if_no_progress extract_lets +onlyGivenNames x); refine Only.letElim (x := x) ?_ (fun _ => ?_); (on_goal 1 => unfold x); (on_goal 2 => clear_value x))
    | (with_reducible first
        | exact Only.refl
        | assumption
        | refine Only.log _ _ _ (fun _ => ?_) ?_
        | refine (raiseAlarm_only _ _).after (by decide) ?_
        | refine (raise_only _ _).after (by decide) ?_
        | refine (put_only _ _ _).after (by decide) ?_
        | refine (leafEvent_only _ _ _ _).after (by decide) ?_
        | refine (satF_only _ _ _).after (by decide) ?_)

theorem wordEvents_only (s : State) (a : ℕ) (ds : List Decoded) :
    Only 136705 s (State.wordEvents s a ds) := by
  unfold State.wordEvents
  repeat' first
    | (with_reducible first
        | exact Only.refl
        | refine Only.each _ _ (fun _ _ => ?_) ?_
        | refine (memCe_only _ _).after (by decide) ?_
        | refine (memUe_only _ _ _).after (by decide) ?_
        | refine Only.ite ?_ ?_)

theorem lineReadK_only (s0 : State) (k : KeyPair) (src : ℕ) (a : ℕ) :
    Only 400897 s0 (State.lineReadK s0 k src a).1 := by
  unfold State.lineReadK
  repeat' first
    | ((fail_if_no_progress extract_lets +onlyGivenNames x); refine Only.letElim (x := x) ?_ (fun _ => ?_); (on_goal 1 => unfold x); (on_goal 2 => clear_value x))
    | ((fail_if_no_progress extract_lets +onlyGivenNames x); clear_value x)
    | (with_reducible first
        | exact Only.refl
        | assumption
        | refine (tagRead_only _ _).after (by decide) ?_
        | refine (wordEvents_only _ _ _).after (by decide) ?_
        | refine (memUe_only _ _ _).after (by decide) ?_
        | refine (tagFail_only _ _ _ _).after (by decide) ?_
        | refine Only.iteP ?_ ?_)

theorem lineStoreK_only (s : State) (k : KeyPair) (a : ℕ) (data : ℕ) (poison : ℕ) :
    Only 2048 s (State.lineStoreK s k a data poison) := by
  unfold State.lineStoreK
  repeat' first
    | ((fail_if_no_progress extract_lets +onlyGivenNames x); refine Only.letElim (x := x) ?_ (fun _ => ?_); (on_goal 1 => unfold x); (on_goal 2 => clear_value x))
    | ((fail_if_no_progress extract_lets +onlyGivenNames x); clear_value x)
    | (with_reducible first
        | exact Only.refl
        | assumption
        | refine Only.each _ _ (fun _ _ => ?_) ?_
        | refine (setMemWord_only _ _ _).after (by decide) ?_
        | refine (setTag_only _ _ _).after (by decide) ?_)

theorem lineRead_only (s : State) (src : ℕ) (a : ℕ) (up : List (ℕ × ℕ)) :
    Only 400897 s (State.lineRead s src a up).1 := by
  unfold State.lineRead
  repeat' first
    | (with_reducible first
        | exact Only.refl
        | refine (lineReadK_only _ _ _ _).after (by decide) ?_
        | refine (memUpset_only _ _ _).after (by decide) ?_)
    | split

theorem lineWrite_only (s : State) (a : ℕ) (data : ℕ) (poison : ℕ) :
    Only 138753 s (State.lineWrite s a data poison).1 := by
  unfold State.lineWrite
  repeat' first
    | (with_reducible first
        | exact Only.refl
        | refine (lineStoreK_only _ _ _ _ _).after (by decide) ?_
        | refine (tagRead_only _ _).after (by decide) ?_)
    | split

theorem linePartial_only (s : State) (src : ℕ) (a : ℕ) (be : ℕ) (data : ℕ) (poison : ℕ) (up : List (ℕ × ℕ)) :
    Only 400897 s (State.linePartial s src a be data poison up).1 := by
  unfold State.linePartial
  repeat' first
    | ((fail_if_no_progress extract_lets +onlyGivenNames x); refine Only.letElim (x := x) ?_ (fun _ => ?_); (on_goal 1 => unfold x); (on_goal 2 => clear_value x))
    | ((fail_if_no_progress extract_lets +onlyGivenNames x); (fail_if_success (have := fun y => x y)); (fail_if_success (have : CRes := x)); (fail_if_success (have : Security := x)); (fail_if_success (have : Hbm := x)); (fail_if_success (have : Option State := x)); clear_value x)
    | ((fail_if_no_progress extract_lets +onlyGivenNames x); (try unfold x); clear x)
    | (with_reducible first
        | exact Only.refl
        | assumption
        | refine (tagRead_only _ _).after (by decide) ?_
        | refine (memUpset_only _ _ _).after (by decide) ?_
        | refine (lineStoreK_only _ _ _ _ _).after (by decide) ?_
        | refine (wordEvents_only _ _ _).after (by decide) ?_
        | refine (memUe_only _ _ _).after (by decide) ?_
        | refine (tagFail_only _ _ _ _).after (by decide) ?_
        | refine Only.iteP ?_ ?_)
    | split

theorem lineAccessW_only (s : State) (src : ℕ) (a : ℕ) (be : ℕ) (data : ℕ) (poison : ℕ) (up : List (ℕ × ℕ)) :
    Only 400897 s (State.lineAccessW s src a be data poison up).1 := by
  unfold State.lineAccessW
  repeat' first
    | (with_reducible first
        | exact Only.refl
        | refine (lineWrite_only _ _ _ _).after (by decide) ?_
        | refine (linePartial_only _ _ _ _ _ _ _).after (by decide) ?_
        | refine Only.iteP ?_ ?_)

theorem unmappedLog_only (s : State) (src : ℕ) (write : Bool) (a : ℕ) :
    Only 132609 s (State.unmappedLog s src write a) := by
  unfold State.unmappedLog
  repeat' first
    | (with_reducible first
        | exact Only.refl
        | refine (raise_only _ _).after (by decide) ?_
        | refine Only.log _ _ _ (fun _ => ?_) ?_
        | refine (put_only _ _ _).after (by decide) ?_)

theorem noTarget_only (s : State) (src : ℕ) (write : Bool) (a : ℕ) :
    Only 132609 s (State.noTarget s src write a) := by
  unfold State.noTarget
  repeat' first
    | (with_reducible first
        | exact Only.refl
        | refine Only.when _ _ (fun _ => ?_) ?_
        | refine (unmappedLog_only _ _ _ _).after (by decide) ?_
        | refine (raise_only _ _).after (by decide) ?_)

theorem hubStop_only (s : State) (src : ℕ) (write : Bool) (a : ℕ) :
    ∀ t, State.hubStop s src write a = some t → Only 132609 s t := by
  intro t h
  unfold State.hubStop at h
  try dsimp only at h
  repeat' split at h
  all_goals first
    | contradiction
    | (injection h with h; subst h
       repeat' first
         | (with_reducible first
             | exact Only.refl
             | refine (noTarget_only _ _ _ _).after (by decide) ?_
             | refine (satF_only _ _ _).after (by decide) ?_))

theorem hubWrite_only (s : State) (src : ℕ) (a : ℕ) (n : ℕ) (data : ℕ) (poison : ℕ) :
    Only 400897 s (State.hubWrite s src a n data poison).1 := by
  unfold State.hubWrite
  repeat' first
    | ((fail_if_no_progress extract_lets +onlyGivenNames x); refine Only.letElim (x := x.1) ?_ (fun _ => ?_); (on_goal 1 => unfold x); (on_goal 2 => clear_value x))
    | ((fail_if_no_progress extract_lets +onlyGivenNames x); clear_value x)
    | (with_reducible first
        | exact Only.refl
        | assumption
        | refine (hubStop_only _ _ _ _ _ (by assumption)).after (by decide) ?_
        | refine (lineAccessW_only _ _ _ _ _ _ _).after (by decide) ?_
        | refine Only.iteP ?_ ?_)
    | split

theorem hubRead_only (s : State) (src : ℕ) (a : ℕ) (n : ℕ) (up : List (ℕ × ℕ)) :
    Only 400897 s (State.hubRead s src a n up).1 := by
  unfold State.hubRead
  repeat' first
    | ((fail_if_no_progress extract_lets +onlyGivenNames x); refine Only.letElim (x := x.1) ?_ (fun _ => ?_); (on_goal 1 => unfold x); (on_goal 2 => clear_value x))
    | ((fail_if_no_progress extract_lets +onlyGivenNames x); clear_value x)
    | (with_reducible first
        | exact Only.refl
        | assumption
        | refine (hubStop_only _ _ _ _ _ (by assumption)).after (by decide) ?_
        | refine (lineRead_only _ _ _ _).after (by decide) ?_
        | refine Only.iteP ?_ ?_)
    | split

theorem keyClear_only (s : State) :
    Only 2049 s (State.keyClear s) := by
  unfold State.keyClear
  repeat' first
    | ((fail_if_no_progress extract_lets +onlyGivenNames x); refine Only.letElim (x := x) ?_ (fun _ => ?_); (on_goal 1 => unfold x); (on_goal 2 => clear_value x))
    | ((fail_if_no_progress extract_lets +onlyGivenNames x); (try unfold x); clear x)
    | (with_reducible first
        | exact Only.refl
        | assumption
        | refine (put_only _ _ _).after (by decide) ?_
        | refine (setHbm_only _ _ (by exact fun h => h)).after (by decide) ?_)

end Sys2Proof.Machine
end

