-- ==== Sys2Proof/Laws/OnlyTailOps.lean ====
section
/-! SUPPORT. Sys2Proof/Laws/OnlyTailOps.lean: what the operations of Machine/TailOps.lean leave alone (Laws/Only.lean): one lemma each. -/

set_option linter.unusedTactic false
set_option linter.tactic.unusedName false
set_option linter.unusedVariables false
set_option linter.unreachableTactic false

namespace Sys2Proof.Machine

theorem tailErr_only (s : State) (kind : ℕ) (a : ℕ) :
    Only 1 s (State.tailErr s kind a) := by
  unfold State.tailErr
  repeat' first
    | (with_reducible first
        | exact Only.refl
        | refine Only.log _ _ _ (fun _ => ?_) ?_
        | refine (put_only _ _ _).after (by decide) ?_)

theorem tailWrite_only (s : State) (kind : ℕ) (a : ℕ) (n : ℕ) (data : ℕ) (poison : ℕ) :
    Only 400897 s (State.tailWrite s kind a n data poison).1 := by
  unfold State.tailWrite
  repeat' first
    | ((fail_if_no_progress extract_lets +onlyGivenNames x); refine Only.letElim (x := x.1) ?_ (fun _ => ?_); (on_goal 1 => unfold x); (on_goal 2 => clear_value x))
    | (with_reducible first
        | exact Only.refl
        | assumption
        | refine (hubWrite_only _ _ _ _ _ _).after (by decide) ?_
        | refine Only.when _ _ (fun _ => ?_) ?_
        | refine (tailErr_only _ _ _).after (by decide) ?_)

theorem bufWord_only (s : State) (data : ℕ) (w : ℕ) (flips : ℕ) :
    Only 136705 s (State.bufWord s data w flips).1 := by
  unfold State.bufWord
  repeat' first
    | ((fail_if_no_progress extract_lets +onlyGivenNames x); clear_value x)
    | (with_reducible first
        | exact Only.refl
        | refine (leafEvent_only _ _ _ _).after (by decide) ?_
        | refine Only.ite ?_ ?_)

theorem bufOut_only (s : State) (n : ℕ) (data : ℕ) (up : List (ℕ × ℕ)) :
    Only 136705 s (State.bufOut s n data up).1 := by
  unfold State.bufOut
  repeat' first
    | ((fail_if_no_progress extract_lets +onlyGivenNames x); refine Only.letElim (x := x.1) ?_ (fun _ => ?_); (on_goal 1 => unfold x); (on_goal 2 => clear_value x))
    | (with_reducible first
        | exact Only.refl
        | assumption
        | refine (bufWord_only _ _ _ _).after (by decide) ?_
        | refine Only.iteP ?_ ?_
        | refine Only.foldlP _ (fun _ _ => ?_) _ _ ?_)

theorem ringStore_only (s : State) (k : ℕ) (rc : ℕ) (poison : ℕ) :
    Only 400897 s (State.ringStore s k rc poison) := by
  unfold State.ringStore
  repeat' first
    | ((fail_if_no_progress extract_lets +onlyGivenNames x); refine Only.letElim (x := x) ?_ (fun _ => ?_); (on_goal 1 => unfold x); (on_goal 2 => clear_value x))
    | ((fail_if_no_progress extract_lets +onlyGivenNames x); clear_value x)
    | (with_reducible first
        | exact Only.refl
        | assumption
        | refine (satF_only _ _ _).after (by decide) ?_
        | refine (raise_only _ _).after (by decide) ?_
        | refine (setTail_only _ _).after (by decide) ?_
        | refine (tailWrite_only _ _ _ _ _ _).after (by decide) ?_
        | refine (addF_only _ _ _).after (by decide) ?_
        | refine Only.ite ?_ ?_)

theorem ringPut_only (s : State) (k : ℕ) (data : ℕ) (stamp : ℕ) (poison : Bool) (up : List (ℕ × ℕ)) :
    Only 513 s (State.ringPut s k data stamp poison up) := by
  unfold State.ringPut
  repeat' first
    | ((fail_if_no_progress extract_lets +onlyGivenNames x); refine Only.letElim (x := x) ?_ (fun _ => ?_); (on_goal 1 => unfold x); (on_goal 2 => clear_value x))
    | ((fail_if_no_progress extract_lets +onlyGivenNames x); clear_value x)
    | (with_reducible first
        | exact Only.refl
        | assumption
        | refine (setTail_only _ _).after (by decide) ?_
        | refine (satF_only _ _ _).after (by decide) ?_
        | refine Only.when _ _ (fun _ => ?_) ?_
        | refine (put_only _ _ _).after (by decide) ?_
        | refine Only.ite ?_ ?_)
    | split

theorem ringPlay_only (s : State) (k : Nat) (b : Bundle) : Only 400897 s (s.ringPlay k b).1 := by
  have stop : ∀ t : State, Only 400897 t ((t.put (TAIL_RING_CFG_STOPPED k) 1).raise 179) := fun t =>
    (raise_only _ _).after (by decide) ((put_only _ _ _).mono (by decide))
  have hr := fun p => (hubRead_only s 19 (s.ringAddr k p) 16 []).mono (by decide : _ &&& 400897 = _)
  simp only [State.ringPlay]
  generalize (mget s.tail.play none k).getD _ = p
  have hr := hr p
  generalize s.hubRead 19 (s.ringAddr k p) 16 [] = r at hr ⊢
  split
  · exact stop _
  · split
    · exact hr.trans ((setTail_only _ _).mono (by decide))
    · exact hr.trans (stop _)

theorem playRings_only (y0 : List ℕ) (y1 : ℕ) (y2 : Bundle) (y3 : State) :
    Only 400897 y3 (playRings y0 y1 y2 y3).1 := by
  induction y0 generalizing y1 y2 y3 with
  | nil =>
    unfold playRings
    exact Only.refl
  | cons a l ih =>
    unfold playRings
    repeat' first
      | ((fail_if_no_progress extract_lets +onlyGivenNames x); refine Only.letElim (x := x.1) ?_ (fun _ => ?_); (on_goal 1 => unfold x); (on_goal 2 => clear_value x))
      | (with_reducible first
          | exact Only.refl
          | assumption
          | refine (ringPlay_only _ _ _).after (by decide) ?_
          | refine Only.iteP ?_ ?_
          | refine Only.trans ?_ (ih _ _ _))

theorem callerWrite_only (s : State) (g : ℕ) (b : Bundle) :
    Only 400905 s (State.callerWrite s g b) := by
  unfold State.callerWrite
  repeat' first
    | ((fail_if_no_progress extract_lets +onlyGivenNames x); refine Only.letElim (x := x) ?_ (fun _ => ?_); (on_goal 1 => unfold x); (on_goal 2 => clear_value x))
    | ((fail_if_no_progress extract_lets +onlyGivenNames x); refine Only.letElim (x := x.1) ?_ (fun _ => ?_); (on_goal 1 => unfold x); (on_goal 2 => clear_value x))
    | ((fail_if_no_progress extract_lets +onlyGivenNames x); clear_value x)
    | (with_reducible first
        | exact Only.refl
        | assumption
        | refine (playRings_only _ _ _ _).after (by decide) ?_
        | refine (setFab_only _ _).after (by decide) ?_
        | refine Only.each _ _ (fun _ _ => ?_) ?_
        | refine (ringPut_only _ _ _ _ _ _).after (by decide) ?_
        | refine Only.ite ?_ ?_)

theorem capRefuse_only (s : State) (cause : ℕ) :
    Only 132609 s (State.capRefuse s cause) := by
  unfold State.capRefuse
  repeat' first
    | (with_reducible first
        | exact Only.refl
        | refine (raise_only _ _).after (by decide) ?_
        | refine (put_only _ _ _).after (by decide) ?_)

theorem slotFree_only (s : State) (i : ℕ) :
    Only 1 s (State.slotFree s i) := by
  unfold State.slotFree
  repeat' first
    | (with_reducible first
        | exact Only.refl
        | refine (put_only _ _ _).after (by decide) ?_)

theorem capBad_only (s : State) :
    Only 132609 s (State.capBad s) := by
  unfold State.capBad
  repeat' first
    | ((fail_if_no_progress extract_lets +onlyGivenNames x); clear_value x)
    | (with_reducible first
        | exact Only.refl
        | refine (raise_only _ _).after (by decide) ?_
        | refine (put_only _ _ _).after (by decide) ?_
        | refine (setTail_only _ _).after (by decide) ?_
        | refine Only.ite ?_ ?_)
    | split

theorem capSpoil_only (s : State) :
    Only 132609 s (State.capSpoil s) := by
  unfold State.capSpoil
  repeat' first
    | (with_reducible first
        | exact Only.refl
        | refine (capBad_only _).after (by decide) ?_
        | refine (tailErr_only _ _ _).after (by decide) ?_
        | refine Only.ite ?_ ?_)
    | split

theorem capPut_only (s : State) (a : ℕ) (n : ℕ) (data : ℕ) (poison : ℕ) :
    Only 400897 s (State.capPut s a n data poison) := by
  unfold State.capPut
  repeat' first
    | ((fail_if_no_progress extract_lets +onlyGivenNames x); refine Only.letElim (x := x.1) ?_ (fun _ => ?_); (on_goal 1 => unfold x); (on_goal 2 => clear_value x))
    | (with_reducible first
        | exact Only.refl
        | assumption
        | refine (tailWrite_only _ _ _ _ _ _).after (by decide) ?_
        | refine (capBad_only _).after (by decide) ?_
        | refine Only.ite ?_ ?_)
    | split

theorem capWrite_only (s : State) (a : ℕ) (n : ℕ) (data : ℕ) :
    Only 400897 s (State.capWrite s a n data) := by
  unfold State.capWrite
  repeat' first
    | (with_reducible first
        | exact Only.refl
        | refine (capPut_only _ _ _ _ _).after (by decide) ?_)

theorem capBuf_only (s : State) (a : ℕ) (n : ℕ) (data : ℕ) (up : List (ℕ × ℕ)) :
    Only 400897 s (State.capBuf s a n data up) := by
  unfold State.capBuf
  repeat' first
    | ((fail_if_no_progress extract_lets +onlyGivenNames x); refine Only.letElim (x := x.1) ?_ (fun _ => ?_); (on_goal 1 => unfold x); (on_goal 2 => clear_value x))
    | (with_reducible first
        | exact Only.refl
        | assumption
        | refine (bufOut_only _ _ _ _).after (by decide) ?_
        | refine (capPut_only _ _ _ _ _).after (by decide) ?_)

theorem listLine_only (s : State) :
    Only 400897 s (State.listLine s) := by
  unfold State.listLine
  repeat' first
    | ((fail_if_no_progress extract_lets +onlyGivenNames x); refine Only.letElim (x := x) ?_ (fun _ => ?_); (on_goal 1 => unfold x); (on_goal 2 => clear_value x))
    | ((fail_if_no_progress extract_lets +onlyGivenNames x); clear_value x)
    | (with_reducible first
        | exact Only.refl
        | assumption
        | refine (setTail_only _ _).after (by decide) ?_
        | refine (capWrite_only _ _ _ _).after (by decide) ?_
        | refine Only.ite ?_ ?_)
    | split

theorem listCopy_only (s : State) :
    Only 400897 s (State.listCopy s) := by
  unfold State.listCopy
  repeat' first
    | (with_reducible first
        | exact Only.refl
        | refine Only.each _ _ (fun _ _ => ?_) ?_
        | refine (listLine_only _).after (by decide) ?_
        | refine Only.ite ?_ ?_)

theorem capLines_only (y0 : List ℕ) (y1 : ℕ) (y2 : State) :
    Only 400897 y2 (capLines y0 y1 y2) := by
  induction y0 generalizing y1 y2 with
  | nil =>
    unfold capLines
    exact Only.refl
  | cons a l ih =>
    unfold capLines
    repeat' first
      | (with_reducible first
          | exact Only.refl
          | refine (capWrite_only _ _ _ _).after (by decide) ?_
          | refine Only.trans ?_ (ih _ _))

theorem pace_only (s : State) (k : ℕ) (n : ℕ) :
    Only 512 s (State.pace s k n) := by
  unfold State.pace
  repeat' first
    | ((fail_if_no_progress extract_lets +onlyGivenNames x); clear_value x)
    | (with_reducible first
        | exact Only.refl
        | refine (setTail_only _ _).after (by decide) ?_)

theorem mapWrite_only {m : Nat} (s : State) (v : Nat) (lines : List (Nat × Nat)) (put : Nat → Nat → State → State)
    (hp : ∀ a b t, Only m t (put a b t)) (hm : 512 &&& m = 512) : Only m s (s.mapWrite v lines put) := by
  unfold State.mapWrite
  exact (setTail_only _ _).after hm (Only.each _ _ (fun _ _ => hp _ _ _) Only.refl)

theorem mapRetire_only (s : State) (v : ℕ) (own : ℕ) :
    Only 132609 s (State.mapRetire s v own) := by
  unfold State.mapRetire
  repeat' first
    | (with_reducible first
        | exact Only.refl
        | refine Only.each _ _ (fun _ _ => ?_) ?_
        | refine (raise_only _ _).after (by decide) ?_
        | refine (slotFree_only _ _).after (by decide) ?_)

theorem capMap_only (s : State) (own : Nat) : Only 400897 s (s.capMap own) := by
  unfold State.capMap
  split
  · exact ((mapRetire_only _ _ _).mono (by decide : _ &&& 400897 = _)).trans
      (mapWrite_only _ _ _ _ (fun _ _ _ => (capWrite_only _ _ _ _).mono (by decide)) (by decide))
  · exact Only.refl

theorem capBegin_only (s : State) (round : ℕ) :
    Only 400905 s (State.capBegin s round) := by
  unfold State.capBegin
  repeat' first
    | ((fail_if_no_progress extract_lets +onlyGivenNames x); refine Only.letElim (x := x) ?_ (fun _ => ?_); (on_goal 1 => unfold x); (on_goal 2 => clear_value x))
    | ((fail_if_no_progress extract_lets +onlyGivenNames x); clear_value x)
    | (with_reducible first
        | exact Only.refl
        | assumption
        | refine Only.when _ _ (fun _ => ?_) ?_
        | refine (raise_only _ _).after (by decide) ?_
        | refine (slotFree_only _ _).after (by decide) ?_
        | refine (pace_only _ _ _).after (by decide) ?_
        | refine (setTail_only _ _).after (by decide) ?_
        | refine (setFab_only _ _).after (by decide) ?_
        | refine (put_only _ _ _).after (by decide) ?_
        | refine (capMap_only _ _).after (by decide) ?_
        | refine (capLines_only _ _ _).after (by decide) ?_)
    | split

theorem capStart_only (s : State) (round : ℕ) :
    Only 400905 s (State.capStart s round) := by
  unfold State.capStart
  repeat' first
    | (with_reducible first
        | exact Only.refl
        | refine (capRefuse_only _ _).after (by decide) ?_
        | refine (capBegin_only _ _).after (by decide) ?_)
    | split

theorem slotUse_only (s : State) (i : ℕ) :
    Only 1 s (State.slotUse s i) := by
  unfold State.slotUse
  repeat' first
    | ((fail_if_no_progress extract_lets +onlyGivenNames x); clear_value x)
    | (with_reducible first
        | exact Only.refl
        | refine (put_only _ _ _).after (by decide) ?_)

theorem reelDrop_only (s : State) (state : ℕ) :
    Only 513 s (State.reelDrop s state) := by
  unfold State.reelDrop
  repeat' first
    | ((fail_if_no_progress extract_lets +onlyGivenNames x); clear_value x)
    | (with_reducible first
        | exact Only.refl
        | refine (put_only _ _ _).after (by decide) ?_
        | refine (slotUse_only _ _).after (by decide) ?_
        | refine (setTail_only _ _).after (by decide) ?_)
    | split

theorem reelSay_only (s : State) (cause : ℕ) :
    Only 132609 s (State.reelSay s cause) := by
  unfold State.reelSay
  repeat' first
    | (with_reducible first
        | exact Only.refl
        | refine Only.when _ _ (fun _ => ?_) ?_
        | refine (raise_only _ _).after (by decide) ?_
        | refine (put_only _ _ _).after (by decide) ?_)

theorem reelRefuse_only (s : State) (cause : ℕ) :
    Only 132609 s (State.reelRefuse s cause) := by
  unfold State.reelRefuse
  repeat' first
    | (with_reducible first
        | exact Only.refl
        | refine (reelSay_only _ _).after (by decide) ?_
        | refine (reelDrop_only _ _).after (by decide) ?_)
    | split

theorem reelBreak_only (s : State) (cause : ℕ) :
    Only 132609 s (State.reelBreak s cause) := by
  unfold State.reelBreak
  repeat' first
    | (with_reducible first
        | exact Only.refl
        | refine (reelRefuse_only _ _).after (by decide) ?_
        | refine (reelSay_only _ _).after (by decide) ?_
        | refine (reelDrop_only _ _).after (by decide) ?_)
    | split

theorem mapNeeds_only (s : State) (k : ℕ) :
    Only 513 s (State.mapNeeds s k) := by
  unfold State.mapNeeds
  repeat' first
    | ((fail_if_no_progress extract_lets +onlyGivenNames x); clear_value x)
    | (with_reducible first
        | exact Only.refl
        | refine (put_only _ _ _).after (by decide) ?_
        | refine (setTail_only _ _).after (by decide) ?_)

theorem xferEnd_only (s : State) (cause : ℕ) :
    Only 132609 s (State.xferEnd s cause) := by
  unfold State.xferEnd
  repeat' first
    | ((fail_if_no_progress extract_lets +onlyGivenNames x); refine Only.letElim (x := x) ?_ (fun _ => ?_); (on_goal 1 => unfold x); (on_goal 2 => clear_value x))
    | ((fail_if_no_progress extract_lets +onlyGivenNames x); clear_value x)
    | (with_reducible first
        | exact Only.refl
        | assumption
        | refine (put_only _ _ _).after (by decide) ?_
        | refine (setTail_only _ _).after (by decide) ?_
        | refine (slotFree_only _ _).after (by decide) ?_
        | refine (slotUse_only _ _).after (by decide) ?_
        | refine (raise_only _ _).after (by decide) ?_
        | refine Only.ite ?_ ?_)
    | split

end Sys2Proof.Machine
end

