-- ==== Sys2Proof/Laws/OnlyCallerOps.lean ====
section
/-! SUPPORT. Sys2Proof/Laws/OnlyCallerOps.lean: what the operations of Machine/CallerOps.lean leave alone (Laws/Only.lean): one lemma each. -/

set_option linter.unusedTactic false
set_option linter.tactic.unusedName false
set_option linter.unusedVariables false
set_option linter.unreachableTactic false

namespace Sys2Proof.Machine

theorem setTask_only (s : State) (t : ℕ) (x : CTask) :
    Only 64 s (State.setTask s t x) := by
  unfold State.setTask
  repeat' first
    | ((fail_if_no_progress extract_lets +onlyGivenNames x); clear_value x)
    | (with_reducible first
        | exact Only.refl
        | refine (setCall_only _ _).after (by decide) ?_)

theorem setQueue_only (s : State) (q : ℕ) (x : CQueue) :
    Only 64 s (State.setQueue s q x) := by
  unfold State.setQueue
  repeat' first
    | ((fail_if_no_progress extract_lets +onlyGivenNames x); clear_value x)
    | (with_reducible first
        | exact Only.refl
        | refine (setCall_only _ _).after (by decide) ?_)

theorem setLatched_only (s : State) (t : ℕ) (v : ℕ) :
    Only 64 s (State.setLatched s t v) := by
  unfold State.setLatched
  repeat' first
    | ((fail_if_no_progress extract_lets +onlyGivenNames x); clear_value x)
    | (with_reducible first
        | exact Only.refl
        | refine (setCall_only _ _).after (by decide) ?_)

theorem noteReady_only (s : State) :
    Only 64 s (State.noteReady s) := by
  unfold State.noteReady
  repeat' first
    | ((fail_if_no_progress extract_lets +onlyGivenNames x); clear_value x)
    | (with_reducible first
        | exact Only.refl
        | refine Only.each _ _ (fun _ _ => ?_) ?_
        | refine (setTask_only _ _ _).after (by decide) ?_
        | refine Only.ite ?_ ?_)

theorem progress_only (s : State) :
    Only 64 s (State.progress s) := by
  unfold State.progress
  repeat' first
    | ((fail_if_no_progress extract_lets +onlyGivenNames x); clear_value x)
    | (with_reducible first
        | exact Only.refl
        | refine (setCall_only _ _).after (by decide) ?_)

theorem changeFlags_only (s : State) (t : ℕ) (v : ℕ) :
    Only 64 s (State.changeFlags s t v) := by
  unfold State.changeFlags
  repeat' first
    | (with_reducible first
        | exact Only.refl
        | refine Only.when _ _ (fun _ => ?_) ?_
        | refine (setLatched_only _ _ _).after (by decide) ?_
        | refine (progress_only _).after (by decide) ?_)

theorem setFlag_only (s : State) (t : ℕ) (f : ℕ) :
    Only 64 s (State.setFlag s t f) := by
  unfold State.setFlag
  repeat' first
    | (with_reducible first
        | exact Only.refl
        | refine (changeFlags_only _ _ _).after (by decide) ?_)

theorem trace_only (s : State) (type : ℕ) (cls : ℕ) (unit : ℕ) (task : ℕ) (info : ℕ) :
    Only 65 s (State.trace s type cls unit task info) := by
  unfold State.trace
  repeat' first
    | ((fail_if_no_progress extract_lets +onlyGivenNames x); clear_value x)
    | (with_reducible first
        | exact Only.refl
        | refine Only.when _ _ (fun _ => ?_) ?_
        | refine (setCall_only _ _).after (by decide) ?_
        | refine (satF_only _ _ _).after (by decide) ?_
        | refine Only.ite ?_ ?_)

theorem traceTask_only (s : State) (type : ℕ) (unit : ℕ) (task : ℕ) (info : ℕ) :
    Only 65 s (State.traceTask s type unit task info) := by
  unfold State.traceTask
  repeat' first
    | (with_reducible first
        | exact Only.refl
        | refine Only.when _ _ (fun _ => ?_) ?_
        | refine (trace_only _ _ _ _ _ _).after (by decide) ?_)

theorem traceStore_only (s : State) :
    Only 400961 s (State.traceStore s) := by
  unfold State.traceStore
  repeat' first
    | ((fail_if_no_progress extract_lets +onlyGivenNames x); refine Only.letElim (x := x) ?_ (fun _ => ?_); (on_goal 1 => unfold x); (on_goal 2 => clear_value x))
    | ((fail_if_no_progress extract_lets +onlyGivenNames x); clear_value x)
    | (with_reducible first
        | exact Only.refl
        | assumption
        | refine (setCall_only _ _).after (by decide) ?_
        | refine (satF_only _ _ _).after (by decide) ?_
        | refine (raise_only _ _).after (by decide) ?_
        | refine (addF_only _ _ _).after (by decide) ?_
        | refine (hubWrite_only _ _ _ _ _ _).after (by decide) ?_
        | refine Only.ite ?_ ?_)
    | split

theorem callerFault_only (s : State) (cause : ℕ) (index : ℕ) (cls : ℕ) (unit : ℕ) :
    Only 132673 s (State.callerFault s cause index cls unit) := by
  unfold State.callerFault
  repeat' first
    | ((fail_if_no_progress extract_lets +onlyGivenNames x); refine Only.letElim (x := x) ?_ (fun _ => ?_); (on_goal 1 => unfold x); (on_goal 2 => clear_value x))
    | (with_reducible first
        | exact Only.refl
        | assumption
        | refine (raise_only _ _).after (by decide) ?_
        | refine Only.log _ _ _ (fun _ => ?_) ?_
        | refine (put_only _ _ _).after (by decide) ?_
        | refine (trace_only _ _ _ _ _ _).after (by decide) ?_)

theorem callerErr_only (s : State) (kind : ℕ) (index : ℕ) :
    Only 132609 s (State.callerErr s kind index) := by
  unfold State.callerErr
  repeat' first
    | (with_reducible first
        | exact Only.refl
        | refine (raise_only _ _).after (by decide) ?_
        | refine Only.log _ _ _ (fun _ => ?_) ?_
        | refine (put_only _ _ _).after (by decide) ?_)

theorem stopNow_only (s : State) :
    Only 129 s (State.stopNow s) := by
  unfold State.stopNow
  repeat' first
    | ((fail_if_no_progress extract_lets +onlyGivenNames x); clear_value x)
    | (with_reducible first
        | exact Only.refl
        | refine (put_only _ _ _).after (by decide) ?_
        | refine (setLat_only _ _).after (by decide) ?_
        | refine Only.ite ?_ ?_)

theorem taskFault_only (s : State) (t : ℕ) (cause : ℕ) (u : ℕ) :
    Only 132801 s (State.taskFault s t cause u) := by
  unfold State.taskFault
  repeat' first
    | ((fail_if_no_progress extract_lets +onlyGivenNames x); refine Only.letElim (x := x) ?_ (fun _ => ?_); (on_goal 1 => unfold x); (on_goal 2 => clear_value x))
    | ((fail_if_no_progress extract_lets +onlyGivenNames x); clear_value x)
    | (with_reducible first
        | exact Only.refl
        | assumption
        | refine (callerFault_only _ _ _ _ _).after (by decide) ?_
        | refine (setTask_only _ _ _).after (by decide) ?_
        | refine Only.when _ _ (fun _ => ?_) ?_
        | refine (stopNow_only _).after (by decide) ?_)

theorem queuePeak_only (s : State) (q : ℕ) :
    Only 1 s (State.queuePeak s q) := by
  unfold State.queuePeak
  repeat' first
    | (with_reducible first
        | exact Only.refl
        | refine (put_only _ _ _).after (by decide) ?_)

theorem push_only (s : State) (q : ℕ) (b : Bundle) :
    ∀ t, State.push s q b = some t → Only 400969 s t := by
  intro t h
  unfold State.push at h
  try dsimp only at h
  repeat' split at h
  all_goals first
    | contradiction
    | (injection h with h; subst h
       repeat' first
         | (with_reducible first
             | exact Only.refl
             | refine (callerWrite_only _ _ _).after (by decide) ?_
             | refine (queuePeak_only _ _).after (by decide) ?_
             | refine (setQueue_only _ _ _).after (by decide) ?_
             | refine (hubWrite_only _ _ _ _ _ _).after (by decide) ?_))

theorem storeCheck_only (s : State) (q : ℕ) (b : Bundle) (e : Ecc) :
    Only 136705 s (State.storeCheck s q b e).1 := by
  unfold State.storeCheck
  repeat' first
    | (with_reducible first
        | exact Only.refl
        | refine (leafEvent_only _ _ _ _).after (by decide) ?_
        | refine (raise_only _ _).after (by decide) ?_
        | refine (put_only _ _ _).after (by decide) ?_
        | refine (callerErr_only _ _ _).after (by decide) ?_)
    | split

theorem spillBack_only (s : State) (q : Nat) (up : List (Nat × Nat)) : Only 400961 s (s.spillBack q up) := by
  have hr := fun n => (hubRead_only s 18 (s.spillAddr q n) 16 up).mono (by decide : _ &&& 400961 = _)
  simp only [State.spillBack]
  generalize ((s.cqueue q).seq + _ - _) % _ = n
  have hr := hr n
  generalize s.hubRead 18 (s.spillAddr q n) 16 up = r at hr ⊢
  split
  · exact (setQueue_only _ _ _).after (by decide)
      (Only.when _ _ (fun _ => (put_only _ _ _).after (by decide) ((callerErr_only _ _ _).mono (by decide))) hr)
  · exact Only.refl

theorem head_only (s : State) (q : Nat) (e : Ecc) : ∀ t b, s.head q e = some (t, b) → Only 136705 s t := by
  intro t b h
  unfold State.head at h
  split at h
  · contradiction
  · injection h with h; exact (storeCheck_only _ _ _ _).of_eq h

theorem pop_only (s : State) (q : ℕ) (e : Ecc) :
    ∀ t b, State.pop s q e = some (t, b) → Only 136769 s t := by
  intro t b h
  unfold State.pop at h
  repeat' split at h
  all_goals first
    | contradiction
    | exact (head_only _ _ _ _ _ h).mono (by decide)
    | (injection h with h; injection h with h1 h2; subst h1
       repeat' first
         | (with_reducible first
             | exact Only.refl
             | refine (head_only _ _ _ _ _ (by assumption)).after (by decide) ?_
             | refine (setQueue_only _ _ _).after (by decide) ?_))

theorem setDlist_only (s : State) (l : ℕ) (x : List DEntry) :
    Only 64 s (State.setDlist s l x) := by
  unfold State.setDlist
  repeat' first
    | ((fail_if_no_progress extract_lets +onlyGivenNames x); clear_value x)
    | (with_reducible first
        | exact Only.refl
        | refine (setCall_only _ _).after (by decide) ?_)

theorem listGrow_only (s : State) (l : ℕ) (y : List DEntry) :
    Only 65 s (State.listGrow s l y) := by
  unfold State.listGrow
  repeat' first
    | (with_reducible first
        | exact Only.refl
        | refine (put_only _ _ _).after (by decide) ?_
        | refine (setDlist_only _ _ _).after (by decide) ?_)

theorem listInsert_only (s : State) (l : ℕ) (d : DEntry) :
    ∀ t, State.listInsert s l d = some t → Only 65 s t := by
  intro t h
  unfold State.listInsert at h
  try dsimp only at h
  repeat' split at h
  all_goals first
    | contradiction
    | (injection h with h; subst h
       repeat' first
         | (with_reducible first
             | exact Only.refl
             | refine (listGrow_only _ _ _).after (by decide) ?_))

theorem expire_only (s : State) (l : ℕ) :
    Only 65 s (State.expire s l) := by
  unfold State.expire
  repeat' first
    | ((fail_if_no_progress extract_lets +onlyGivenNames x); refine Only.letElim (x := x) ?_ (fun _ => ?_); (on_goal 1 => unfold x); (on_goal 2 => clear_value x))
    | (with_reducible first
        | exact Only.refl
        | assumption
        | refine (progress_only _).after (by decide) ?_
        | refine (setFlag_only _ _ _).after (by decide) ?_
        | refine (setDlist_only _ _ _).after (by decide) ?_
        | refine (traceTask_only _ _ _ _ _).after (by decide) ?_)
    | split

theorem expireRound_only (y0 : ℕ) (y1 : ℕ) (y2 : State) :
    Only 65 y2 (expireRound y0 y1 y2) := by
  induction y0 generalizing y1 y2 with
  | zero =>
    unfold expireRound
    exact Only.refl
  | succ n ih =>
    unfold expireRound
    repeat' first
      | (with_reducible first
          | exact Only.refl
          | refine (expire_only _ _).after (by decide) ?_
          | refine Only.ite ?_ ?_
          | refine Only.trans ?_ (ih _ _))
      | split

theorem landHeld_only (s : State) (l : List (ℕ × Word)) :
    Only 64 s (State.landHeld s l) := by
  unfold State.landHeld
  repeat' first
    | ((fail_if_no_progress extract_lets +onlyGivenNames x); clear_value x)
    | (with_reducible first
        | exact Only.refl
        | refine (setCall_only _ _).after (by decide) ?_)

theorem callerSwapNow_only (s : State) :
    Only 65 s (State.callerSwapNow s) := by
  unfold State.callerSwapNow
  repeat' first
    | ((fail_if_no_progress extract_lets +onlyGivenNames x); refine Only.letElim (x := x) ?_ (fun _ => ?_); (on_goal 1 => unfold x); (on_goal 2 => clear_value x))
    | ((fail_if_no_progress extract_lets +onlyGivenNames x); clear_value x)
    | (with_reducible first
        | exact Only.refl
        | assumption
        | refine (put_only _ _ _).after (by decide) ?_
        | refine (setCall_only _ _).after (by decide) ?_
        | refine (trace_only _ _ _ _ _ _).after (by decide) ?_
        | refine (landHeld_only _ _).after (by decide) ?_
        | refine Only.ite ?_ ?_)

theorem swapAnnounced_only (s : State) :
    Only 64 s (State.swapAnnounced s) := by
  unfold State.swapAnnounced
  repeat' first
    | ((fail_if_no_progress extract_lets +onlyGivenNames x); clear_value x)
    | (with_reducible first
        | exact Only.refl
        | refine (setCall_only _ _).after (by decide) ?_)

theorem callerBow_only (s : State) (len : ℕ) :
    Only 65 s (State.callerBow s len) := by
  unfold State.callerBow
  repeat' first
    | ((fail_if_no_progress extract_lets +onlyGivenNames x); refine Only.letElim (x := x) ?_ (fun _ => ?_); (on_goal 1 => unfold x); (on_goal 2 => clear_value x))
    | ((fail_if_no_progress extract_lets +onlyGivenNames x); clear_value x)
    | (with_reducible first
        | exact Only.refl
        | assumption
        | refine (trace_only _ _ _ _ _ _).after (by decide) ?_
        | refine (callerSwapNow_only _).after (by decide) ?_
        | refine (setCall_only _ _).after (by decide) ?_
        | refine (put_only _ _ _).after (by decide) ?_
        | refine (noteReady_only _).after (by decide) ?_
        | refine Only.each _ _ (fun _ _ => ?_) ?_
        | refine (expireRound_only _ _ _).after (by decide) ?_
        | refine Only.ite ?_ ?_)

theorem callerReset_only (s : State) :
    Only 65 s (State.callerReset s) := by
  unfold State.callerReset
  repeat' first
    | ((fail_if_no_progress extract_lets +onlyGivenNames x); refine Only.letElim (x := x) ?_ (fun _ => ?_); (on_goal 1 => unfold x); (on_goal 2 => clear_value x))
    | ((fail_if_no_progress extract_lets +onlyGivenNames x); clear_value x)
    | (with_reducible first
        | exact Only.refl
        | assumption
        | refine (setCall_only _ _).after (by decide) ?_
        | refine (put_only _ _ _).after (by decide) ?_)

theorem setUnit_only (s : State) (u : ℕ) (x : Option CStep) :
    Only 64 s (State.setUnit s u x) := by
  unfold State.setUnit
  repeat' first
    | ((fail_if_no_progress extract_lets +onlyGivenNames x); clear_value x)
    | (with_reducible first
        | exact Only.refl
        | refine (setCall_only _ _).after (by decide) ?_)

theorem uopDone_only (s : State) (u : ℕ) (x : CStep) :
    Only 64 s (State.uopDone s u x).1 := by
  unfold State.uopDone
  repeat' first
    | ((fail_if_no_progress extract_lets +onlyGivenNames x); clear_value x)
    | (with_reducible first
        | exact Only.refl
        | refine (progress_only _).after (by decide) ?_
        | refine (setUnit_only _ _ _).after (by decide) ?_)

theorem uopWait_only (s : State) (u : ℕ) (x : CStep) (cause : ℕ) :
    Only 65 s (State.uopWait s u x cause) := by
  unfold State.uopWait
  repeat' first
    | (with_reducible first
        | exact Only.refl
        | refine (setUnit_only _ _ _).after (by decide) ?_
        | refine (traceTask_only _ _ _ _ _).after (by decide) ?_)
    | split

theorem placeSignals_only (y0 : ℕ) (y1 : ℕ) (y2 : CStep) (y3 : Option ℕ) (y4 : State) :
    Only 136897 y4 (placeSignals y0 y1 y2 y3 y4) := by
  induction y0 generalizing y1 y2 y3 y4 with
  | zero =>
    unfold placeSignals
    repeat' first
      | (with_reducible first
          | exact Only.refl
          | refine (setUnit_only _ _ _).after (by decide) ?_)
  | succ n ih =>
    unfold placeSignals
    repeat' first
      | ((fail_if_no_progress extract_lets +onlyGivenNames x); refine Only.letElim (x := x) ?_ (fun _ => ?_); (on_goal 1 => unfold x); (on_goal 2 => clear_value x))
      | ((fail_if_no_progress extract_lets +onlyGivenNames x); clear_value x)
      | (with_reducible first
          | exact Only.refl
          | assumption
          | refine (setUnit_only _ _ _).after (by decide) ?_
          | refine (traceTask_only _ _ _ _ _).after (by decide) ?_
          | refine (setTask_only _ _ _).after (by decide) ?_
          | refine (noteReady_only _).after (by decide) ?_
          | refine (setTail_only _ _).after (by decide) ?_
          | refine (leafEvent_only _ _ _ _).after (by decide) ?_
          | refine (taskFault_only _ _ _ _).after (by decide) ?_
          | refine (setFlag_only _ _ _).after (by decide) ?_
          | refine (listInsert_only _ _ _ _ (by assumption)).after (by decide) ?_
          | refine (uopWait_only _ _ _ _).after (by decide) ?_
          | refine (put_only _ _ _).after (by decide) ?_
          | refine Only.ite ?_ ?_
          | refine Only.trans ?_ (ih _ _ _ _))
      | split

theorem stepEnd_only (s : State) (u : ℕ) (x : CStep) (ue : Option ℕ) :
    Only 136897 s (State.stepEnd s u x ue) := by
  unfold State.stepEnd
  repeat' first
    | (with_reducible first
        | exact Only.refl
        | refine (placeSignals_only _ _ _ _ _).after (by decide) ?_)

theorem onStep_only {m : Nat} (s : State) (u op : Nat) (ue : Option Nat) (f : CStep → State) (hf : ∀ x, Only m s (f x))
    (hm : 136897 &&& m = 136897) : Only m s (s.onStep u op ue f) := by
  unfold State.onStep
  split
  · exact Only.refl
  · split
    · refine Only.after ((noteReady_only _).mono (by decide : _ &&& 136897 = _)) hm ?_
      split
      · exact ((placeSignals_only _ _ _ _ _).mono (by decide : _ &&& 136897 = _)).mono hm
      · exact hf _
    · exact Only.refl

theorem stepBadQueue_only (s : State) (u : ℕ) (x : CStep) :
    Only 132801 s (State.stepBadQueue s u x) := by
  unfold State.stepBadQueue
  repeat' first
    | (with_reducible first
        | exact Only.refl
        | refine (taskFault_only _ _ _ _).after (by decide) ?_
        | refine (setUnit_only _ _ _).after (by decide) ?_)

theorem stepPush_only (s : State) (u : ℕ) (q : ℕ) (x : CStep) (b : Bundle) (ue : Option ℕ) :
    Only 401097 s (State.stepPush s u q x b ue) := by
  unfold State.stepPush
  repeat' first
    | ((fail_if_no_progress extract_lets +onlyGivenNames x); refine Only.letElim (x := x.1) ?_ (fun _ => ?_); (on_goal 1 => unfold x); (on_goal 2 => clear_value x))
    | (with_reducible first
        | exact Only.refl
        | assumption
        | refine (stepBadQueue_only _ _ _).after (by decide) ?_
        | refine (push_only _ _ _ _ (by assumption)).after (by decide) ?_
        | refine (uopWait_only _ _ _ _).after (by decide) ?_
        | refine (uopDone_only _ _ _).after (by decide) ?_
        | refine (stepEnd_only _ _ _ _).after (by decide) ?_
        | refine Only.ite ?_ ?_)
    | split

theorem stepTake_only {m : Nat} (s : State) (u q : Nat) (x : CStep) (got : Option (State × Bundle))
    (hg : ∀ t b, got = some (t, b) → Only m s t) (hm : 132801 &&& m = 132801) : Only m s (s.stepTake u q x got).1 := by
  unfold State.stepTake
  split
  · exact (stepBadQueue_only _ _ _).mono (land_sub (by decide) hm)
  · split
    · exact (uopWait_only _ _ _ _).mono (land_sub (by decide) hm)
    · exact (setUnit_only _ _ _).after (land_sub (by decide) hm) ((uopDone_only _ _ _).after (land_sub (by decide) hm) (hg _ _ rfl))

theorem stepPop_only (s : State) (u q : Nat) (x : CStep) (e : Ecc) : Only 136897 s (s.stepPop u q x e).1 :=
  stepTake_only _ _ _ _ _ (fun _ _ h => (pop_only _ _ _ _ _ h).mono (by decide)) (by decide)

theorem stepPeek_only (s : State) (u q : Nat) (x : CStep) (e : Ecc) : Only 136897 s (s.stepPeek u q x e).1 :=
  stepTake_only _ _ _ _ _ (fun _ _ h => (head_only _ _ _ _ _ h).mono (by decide)) (by decide)

theorem handOff_only (s : State) (a : Age) (cls node queue : Nat) (b : Bundle) : Only 401353 s (s.handOff a cls node queue b).1 := by
  unfold State.handOff
  split
  · split
    · exact Only.refl
    · rename_i h; exact (push_only _ _ _ _ h).mono (by decide)
  · split
    · exact (routeInvalid_only _ _ _).mono (by decide)
    · rename_i p _
      have hq : ∀ t, (if cls = 0 then s.enqUrgent p a (.bundle ⟨node, queue, b.data, b.poison, s.round.toNat % 2 == 1, false, cls⟩)
          else s.enqBulk p a ⟨node, queue, b.data, b.poison, s.round.toNat % 2 == 1, false, cls⟩) = some t → Only 401353 s t := by
        intro t h
        split at h
        · exact (enqUrgent_only _ _ _ _ _ h).mono (by decide)
        · exact (enqBulk_only _ _ _ _ _ h).mono (by decide)
      dsimp only
      split
      · exact Only.refl
      · rename_i h; exact hq _ h

theorem stepHandOff_only (s : State) (u : Nat) (x : CStep) (b : Bundle) (ue : Option Nat) : Only 401353 s (s.stepHandOff u x b ue) := by
  have hand := fun a c d e => (handOff_only s a c d e b).mono (by decide : _ &&& 401353 = _)
  unfold State.stepHandOff
  split
  · exact (stepBadQueue_only _ _ _).mono (by decide)
  · split
    · rename_i h; exact (uopWait_only _ _ _ _).after (by decide) ((hand _ _ _ _).of_eq h)
    · rename_i h
      exact (stepEnd_only _ _ _ _).after (by decide) ((uopDone_only _ _ _).after (by decide) ((hand _ _ _ _).of_eq h))

end Sys2Proof.Machine
end

