-- ==== Sys2Proof/Laws/OnlyLatticeOps.lean ====
section
/-! SUPPORT. Sys2Proof/Laws/OnlyLatticeOps.lean: what the operations of Machine/LatticeOps.lean leave alone (Laws/Only.lean): one lemma each. -/

set_option linter.unusedTactic false
set_option linter.tactic.unusedName false
set_option linter.unusedVariables false
set_option linter.unreachableTactic false

namespace Sys2Proof.Machine

theorem setLatState_only (s : State) (c : ℕ) :
    Only 129 s (State.setLatState s c) := by
  unfold State.setLatState
  repeat' first
    | ((fail_if_no_progress extract_lets +onlyGivenNames x); refine Only.letElim (x := x) ?_ (fun _ => ?_); (on_goal 1 => unfold x); (on_goal 2 => clear_value x))
    | ((fail_if_no_progress extract_lets +onlyGivenNames x); clear_value x)
    | (with_reducible first
        | exact Only.refl
        | assumption
        | refine (put_only _ _ _).after (by decide) ?_
        | refine (setLat_only _ _).after (by decide) ?_
        | refine Only.ite ?_ ?_)

theorem latSettle_only (s : State) :
    Only 132993 s (State.latSettle s) := by
  unfold State.latSettle
  repeat' first
    | ((fail_if_no_progress extract_lets +onlyGivenNames x); refine Only.letElim (x := x) ?_ (fun _ => ?_); (on_goal 1 => unfold x); (on_goal 2 => clear_value x))
    | ((fail_if_no_progress extract_lets +onlyGivenNames x); clear_value x)
    | (with_reducible first
        | exact Only.refl
        | assumption
        | refine (setLat_only _ _).after (by decide) ?_
        | refine Only.each _ _ (fun _ _ => ?_) ?_
        | refine (put_only _ _ _).after (by decide) ?_
        | refine (raise_only _ _).after (by decide) ?_
        | refine (sendTokens_only _ _ _).after (by decide) ?_
        | refine (setLatState_only _ _).after (by decide) ?_
        | refine Only.ite ?_ ?_)

theorem takeToken_only (s : State) (port : ℕ) (origin : ℕ) (type : ℕ) (round : ℕ) :
    Only 132993 s (State.takeToken s port origin type round) := by
  unfold State.takeToken
  repeat' first
    | ((fail_if_no_progress extract_lets +onlyGivenNames x); refine Only.letElim (x := x) ?_ (fun _ => ?_); (on_goal 1 => unfold x); (on_goal 2 => clear_value x))
    | ((fail_if_no_progress extract_lets +onlyGivenNames x); (fail_if_success (have := fun y => x y)); (fail_if_success (have : CRes := x)); (fail_if_success (have : Security := x)); (fail_if_success (have : Hbm := x)); (fail_if_success (have : Option State := x)); clear_value x)
    | ((fail_if_no_progress extract_lets +onlyGivenNames x); (try unfold x); clear x)
    | (with_reducible first
        | exact Only.refl
        | assumption
        | refine (latErr_only _ _ _ _ _).after (by decide) ?_
        | refine (put_only _ _ _).after (by decide) ?_
        | refine (setLat_only _ _).after (by decide) ?_
        | refine (latSettle_only _).after (by decide) ?_
        | refine Only.ite ?_ ?_)
    | split

theorem setTarget_only (s : State) (t : Option ℕ) :
    Only 129 s (State.setTarget s t) := by
  unfold State.setTarget
  repeat' first
    | ((fail_if_no_progress extract_lets +onlyGivenNames x); clear_value x)
    | (with_reducible first
        | exact Only.refl
        | refine (put_only _ _ _).after (by decide) ?_
        | refine (setLat_only _ _).after (by decide) ?_)

theorem startRefuse_only (s : State) (m : Msg) (port : Option ℕ) :
    Only 132993 s (State.startRefuse s m port) := by
  unfold State.startRefuse
  repeat' first
    | (with_reducible first
        | exact Only.refl
        | refine (sendTokens_only _ _ _).after (by decide) ?_
        | refine (latErr_only _ _ _ _ _).after (by decide) ?_)

theorem actStart_only (s : State) (m : Msg) (port : Option ℕ) :
    Only 132993 s (State.actStart s m port) := by
  unfold State.actStart
  repeat' first
    | ((fail_if_no_progress extract_lets +onlyGivenNames x); refine Only.letElim (x := x) ?_ (fun _ => ?_); (on_goal 1 => unfold x); (on_goal 2 => clear_value x))
    | ((fail_if_no_progress extract_lets +onlyGivenNames x); (fail_if_success (have := fun y => x y)); (fail_if_success (have : CRes := x)); (fail_if_success (have : Security := x)); (fail_if_success (have : Hbm := x)); (fail_if_success (have : Option State := x)); clear_value x)
    | ((fail_if_no_progress extract_lets +onlyGivenNames x); (try unfold x); clear x)
    | (with_reducible first
        | exact Only.refl
        | assumption
        | refine (startRefuse_only _ _ _).after (by decide) ?_
        | refine (setTarget_only _ _).after (by decide) ?_
        | refine (setLat_only _ _).after (by decide) ?_
        | refine (setLatState_only _ _).after (by decide) ?_
        | refine Only.when _ _ (fun _ => ?_) ?_
        | refine (put_only _ _ _).after (by decide) ?_
        | refine Only.ite ?_ ?_)
    | split

theorem actStop_only (s : State) (m : Msg) :
    Only 132737 s (State.actStop s m) := by
  unfold State.actStop
  repeat' first
    | ((fail_if_no_progress extract_lets +onlyGivenNames x); refine Only.letElim (x := x) ?_ (fun _ => ?_); (on_goal 1 => unfold x); (on_goal 2 => clear_value x))
    | (with_reducible first
        | exact Only.refl
        | assumption
        | refine (put_only _ _ _).after (by decide) ?_
        | refine (raise_only _ _).after (by decide) ?_
        | refine (stopNow_only _).after (by decide) ?_
        | refine (setTarget_only _ _).after (by decide) ?_
        | refine Only.ite ?_ ?_)

theorem nextMsg_only (s : State) (type : ℕ) (round : ℕ) (target : ℕ) (beat : ℕ) (isMatch : Bool) (hasTarget : Bool) :
    Only 128 s (State.nextMsg s type round target beat isMatch hasTarget).1 := by
  unfold State.nextMsg
  repeat' first
    | ((fail_if_no_progress extract_lets +onlyGivenNames x); clear_value x)
    | (with_reducible first
        | exact Only.refl
        | refine (setLat_only _ _).after (by decide) ?_)

theorem nodeOffline_only (s : State) :
    Only 132993 s (State.nodeOffline s) := by
  unfold State.nodeOffline
  repeat' first
    | ((fail_if_no_progress extract_lets +onlyGivenNames x); refine Only.letElim (x := x) ?_ (fun _ => ?_); (on_goal 1 => unfold x); (on_goal 2 => clear_value x))
    | ((fail_if_no_progress extract_lets +onlyGivenNames x); clear_value x)
    | (with_reducible first
        | exact Only.refl
        | assumption
        | refine (setLat_only _ _).after (by decide) ?_
        | refine (put_only _ _ _).after (by decide) ?_
        | refine (setLatState_only _ _).after (by decide) ?_
        | refine (latSettle_only _).after (by decide) ?_
        | refine (raise_only _ _).after (by decide) ?_
        | refine Only.each _ _ (fun _ _ => ?_) ?_
        | refine (portDown_only _ _ _).after (by decide) ?_
        | refine Only.ite ?_ ?_)

theorem portSync_only (s : State) (n : ℕ) :
    Only 132993 s (State.portSync s n) := by
  unfold State.portSync
  repeat' first
    | ((fail_if_no_progress extract_lets +onlyGivenNames x); clear_value x)
    | (with_reducible first
        | exact Only.refl
        | refine (portState_only _ _ _).after (by decide) ?_
        | refine (latSettle_only _).after (by decide) ?_
        | refine (portDown_only _ _ _).after (by decide) ?_
        | refine Only.ite ?_ ?_)

theorem roundMarks_only (s : State) :
    Only 128 s (State.roundMarks s) := by
  unfold State.roundMarks
  repeat' first
    | ((fail_if_no_progress extract_lets +onlyGivenNames x); clear_value x)
    | (with_reducible first
        | exact Only.refl
        | refine (setLat_only _ _).after (by decide) ?_)

end Sys2Proof.Machine
end

