-- ==== Sys2Proof/Laws/OnlyOperands.lean ====
section
/-! SUPPORT. Sys2Proof/Laws/OnlyOperands.lean: what the operations of Machine/Operands.lean leave alone (Laws/Only.lean): one lemma each. -/

set_option linter.unusedTactic false
set_option linter.tactic.unusedName false
set_option linter.unusedVariables false
set_option linter.unreachableTactic false

namespace Sys2Proof.Machine

theorem setCore_only (s : State) (c : ℕ) (x : Core) :
    Only 8192 s (State.setCore s c x) := by
  unfold State.setCore
  repeat' first
    | (with_reducible exact Only.refl)
    | (with_reducible refine (Only.upd_core _).after (by decide) ?_)

end Sys2Proof.Machine
end

