-- ==== Sys2Proof/Laws/OnlyCoreOps.lean ====
section
/-! SUPPORT. Sys2Proof/Laws/OnlyCoreOps.lean: what the operations of Machine/CoreOps.lean leave alone (Laws/Only.lean): one lemma each. -/

set_option linter.unusedTactic false
set_option linter.tactic.unusedName false
set_option linter.unusedVariables false
set_option linter.unreachableTactic false

namespace Sys2Proof.Machine

theorem setTagAt_only (s : State) (k : ℕ) (t : Tag) :
    Only 1024 s (State.setTagAt s k t) := by
  unfold State.setTagAt
  repeat' first
    | ((fail_if_no_progress extract_lets +onlyGivenNames x); clear_value x)
    | (with_reducible first
        | exact Only.refl
        | refine (setMesh_only _ _).after (by decide) ?_)

theorem iniStat_only (s : State) (src : ℕ) :
    Only 1 s (State.iniStat s src) := by
  unfold State.iniStat
  repeat' first
    | ((fail_if_no_progress extract_lets +onlyGivenNames x); refine Only.letElim (x := x) ?_ (fun _ => ?_); (on_goal 1 => unfold x); (on_goal 2 => clear_value x))
    | ((fail_if_no_progress extract_lets +onlyGivenNames x); clear_value x)
    | (with_reducible first
        | exact Only.refl
        | assumption
        | refine (put_only _ _ _).after (by decide) ?_)

theorem meshQueue_only (s : State) (a : Acc) :
    ∀ t, State.meshQueue s a = some t → Only 1024 s t := by
  intro t h
  unfold State.meshQueue at h
  try dsimp only at h
  repeat' split at h
  all_goals first
    | contradiction
    | (injection h with h; subst h
       repeat' first
         | (with_reducible first
             | exact Only.refl
             | refine (setTagAt_only _ _ _).after (by decide) ?_
             | refine (setMesh_only _ _).after (by decide) ?_))

theorem initReset_only (s : State) (src : ℕ) :
    Only 1025 s (State.initReset s src) := by
  unfold State.initReset
  repeat' first
    | ((fail_if_no_progress extract_lets +onlyGivenNames x); refine Only.letElim (x := x) ?_ (fun _ => ?_); (on_goal 1 => unfold x); (on_goal 2 => clear_value x))
    | ((fail_if_no_progress extract_lets +onlyGivenNames x); clear_value x)
    | (with_reducible first
        | exact Only.refl
        | assumption
        | refine Only.each _ _ (fun _ _ => ?_) ?_
        | refine (setTagAt_only _ _ _).after (by decide) ?_
        | refine (iniStat_only _ _).after (by decide) ?_
        | refine (setMesh_only _ _).after (by decide) ?_)
    | split

theorem callerOrphans_only (s : State) :
    Only 1024 s (State.callerOrphans s) := by
  unfold State.callerOrphans
  repeat' first
    | ((fail_if_no_progress extract_lets +onlyGivenNames x); clear_value x)
    | (with_reducible first
        | exact Only.refl
        | refine (setMesh_only _ _).after (by decide) ?_)

theorem setPc_only (s : State) (c : ℕ) (v : ℕ) :
    Only 1 s (State.setPc s c v) := by
  unfold State.setPc
  repeat' first
    | (with_reducible first
        | exact Only.refl
        | refine (put_only _ _ _).after (by decide) ?_)

theorem setPend_only (s : State) (c : ℕ) (j : ℕ) :
    Only 1 s (State.setPend s c j) := by
  unfold State.setPend
  repeat' first
    | (with_reducible first
        | exact Only.refl
        | refine (setReg_only _ _ _).after (by decide) ?_
        | refine Only.ite ?_ ?_)

theorem clrPend_only (s : State) (c : ℕ) (j : ℕ) :
    Only 1 s (State.clrPend s c j) := by
  unfold State.clrPend
  repeat' first
    | (with_reducible first
        | exact Only.refl
        | refine (setReg_only _ _ _).after (by decide) ?_
        | refine Only.ite ?_ ?_)

theorem coreMemErr_only (s : State) (c : ℕ) (m : ℕ) (i : ℕ) (ue : Bool) :
    Only 136705 s (State.coreMemErr s c m i ue) := by
  unfold State.coreMemErr
  repeat' first
    | ((fail_if_no_progress extract_lets +onlyGivenNames x); refine Only.letElim (x := x) ?_ (fun _ => ?_); (on_goal 1 => unfold x); (on_goal 2 => clear_value x))
    | ((fail_if_no_progress extract_lets +onlyGivenNames x); (fail_if_success (have := fun y => x y)); (fail_if_success (have : CRes := x)); (fail_if_success (have : Security := x)); (fail_if_success (have : Hbm := x)); (fail_if_success (have : Option State := x)); clear_value x)
    | ((fail_if_no_progress extract_lets +onlyGivenNames x); (try unfold x); clear x)
    | (with_reducible first
        | exact Only.refl
        | assumption
        | refine (put_only _ _ _).after (by decide) ?_
        | refine (setPend_only _ _ _).after (by decide) ?_
        | refine (leafEvent_only _ _ _ _).after (by decide) ?_
        | refine Only.ite ?_ ?_)

theorem coreMemRead_only (s : State) (c : ℕ) (m : ℕ) (i : ℕ) :
    Only 136705 s (State.coreMemRead s c m i).1 := by
  unfold State.coreMemRead
  repeat' first
    | ((fail_if_no_progress extract_lets +onlyGivenNames x); clear_value x)
    | (with_reducible first
        | exact Only.refl
        | refine (coreMemErr_only _ _ _ _ _).after (by decide) ?_)
    | split

theorem coreMemWrite_only (s : State) (c : ℕ) (m : ℕ) (i : ℕ) (v : ℕ) (poison : Bool) :
    Only 8192 s (State.coreMemWrite s c m i v poison) := by
  unfold State.coreMemWrite
  repeat' first
    | (with_reducible first
        | exact Only.refl
        | refine (setCore_only _ _ _).after (by decide) ?_)

theorem coreMemHalf_only (s : State) (c : ℕ) (m : ℕ) (i : ℕ) (h : ℕ) (v : ℕ) :
    Only 144897 s (State.coreMemHalf s c m i h v) := by
  unfold State.coreMemHalf
  repeat' first
    | ((fail_if_no_progress extract_lets +onlyGivenNames x); refine Only.letElim (x := x.1) ?_ (fun _ => ?_); (on_goal 1 => unfold x); (on_goal 2 => clear_value x))
    | ((fail_if_no_progress extract_lets +onlyGivenNames x); clear_value x)
    | (with_reducible first
        | exact Only.refl
        | assumption
        | refine (coreMemRead_only _ _ _ _).after (by decide) ?_
        | refine (coreMemWrite_only _ _ _ _ _ _).after (by decide) ?_)

theorem haltNow_only (s : State) (c : ℕ) (why : ℕ) (unit : ℕ) :
    Only 402945 s (State.haltNow s c why unit) := by
  unfold State.haltNow
  repeat' first
    | ((fail_if_no_progress extract_lets +onlyGivenNames x); refine Only.letElim (x := x) ?_ (fun _ => ?_); (on_goal 1 => unfold x); (on_goal 2 => clear_value x))
    | ((fail_if_no_progress extract_lets +onlyGivenNames x); (fail_if_success (have := fun y => x y)); (fail_if_success (have : CRes := x)); (fail_if_success (have : Security := x)); (fail_if_success (have : Hbm := x)); (fail_if_success (have : Option State := x)); clear_value x)
    | ((fail_if_no_progress extract_lets +onlyGivenNames x); (try unfold x); clear x)
    | (with_reducible first
        | exact Only.refl
        | assumption
        | refine (setCore_only _ _ _).after (by decide) ?_
        | refine Only.when _ _ (fun _ => ?_) ?_
        | refine (put_only _ _ _).after (by decide) ?_
        | refine (setSec_only _ _ (by exact Fuses.Grows.refl _)).after (by decide) ?_
        | refine (setReg_only _ _ _).after (by decide) ?_
        | refine (raise_only _ _).after (by decide) ?_)

theorem haltCause_only (s : State) (c : ℕ) (why : ℕ) (unit : ℕ) :
    Only 402945 s (State.haltCause s c why unit) := by
  unfold State.haltCause
  repeat' first
    | ((fail_if_no_progress extract_lets +onlyGivenNames x); clear_value x)
    | (with_reducible first
        | exact Only.refl
        | refine (setCore_only _ _ _).after (by decide) ?_
        | refine (haltNow_only _ _ _ _).after (by decide) ?_
        | refine Only.ite ?_ ?_)

theorem haltSpread_only (s : State) (c : ℕ) (why : ℕ) :
    Only 403073 s (State.haltSpread s c why) := by
  unfold State.haltSpread
  repeat' first
    | ((fail_if_no_progress extract_lets +onlyGivenNames x); refine Only.letElim (x := x) ?_ (fun _ => ?_); (on_goal 1 => unfold x); (on_goal 2 => clear_value x))
    | (with_reducible first
        | exact Only.refl
        | assumption
        | refine Only.when _ _ (fun _ => ?_) ?_
        | refine (stopNow_only _).after (by decide) ?_
        | refine Only.each _ _ (fun _ _ => ?_) ?_
        | refine (haltCause_only _ _ _ _).after (by decide) ?_
        | refine Only.ite ?_ ?_)

theorem haltOnStop_only (s : State) :
    Only 402945 s (State.haltOnStop s) := by
  unfold State.haltOnStop
  repeat' first
    | (with_reducible first
        | exact Only.refl
        | refine Only.each _ _ (fun _ _ => ?_) ?_
        | refine (haltCause_only _ _ _ _).after (by decide) ?_
        | refine Only.ite ?_ ?_)

theorem coreExc_only (s : State) (c : ℕ) (code : ℕ) (addr : Option ℕ) (pc : ℕ) (epc : ℕ) (info : ℕ) :
    Only 402945 s (State.coreExc s c code addr pc epc info) := by
  unfold State.coreExc
  repeat' first
    | ((fail_if_no_progress extract_lets +onlyGivenNames x); refine Only.letElim (x := x) ?_ (fun _ => ?_); (on_goal 1 => unfold x); (on_goal 2 => clear_value x))
    | ((fail_if_no_progress extract_lets +onlyGivenNames x); clear_value x)
    | (with_reducible first
        | exact Only.refl
        | assumption
        | refine (raise_only _ _).after (by decide) ?_
        | refine (put_only _ _ _).after (by decide) ?_
        | refine (haltCause_only _ _ _ _).after (by decide) ?_
        | refine (setCore_only _ _ _).after (by decide) ?_
        | refine (freeNext_only _).after (by decide) ?_
        | refine (setPc_only _ _ _).after (by decide) ?_
        | refine Only.ite ?_ ?_)

theorem wdtReload_only (s : State) (c : ℕ) :
    Only 1 s (State.wdtReload s c) := by
  unfold State.wdtReload
  repeat' first
    | ((fail_if_no_progress extract_lets +onlyGivenNames x); refine Only.letElim (x := x) ?_ (fun _ => ?_); (on_goal 1 => unfold x); (on_goal 2 => clear_value x))
    | (with_reducible first
        | exact Only.refl
        | assumption
        | refine (put_only _ _ _).after (by decide) ?_
        | refine Only.when _ _ (fun _ => ?_) ?_)

theorem wdtStart_only (s : State) (c : ℕ) :
    Only 1 s (State.wdtStart s c) := by
  unfold State.wdtStart
  repeat' first
    | (with_reducible first
        | exact Only.refl
        | refine (wdtReload_only _ _).after (by decide) ?_
        | refine (put_only _ _ _).after (by decide) ?_)

theorem wdtBite_only (s : State) (c : ℕ) (why : ℕ) :
    Only 140801 s (State.wdtBite s c why) := by
  unfold State.wdtBite
  repeat' first
    | ((fail_if_no_progress extract_lets +onlyGivenNames x); refine Only.letElim (x := x) ?_ (fun _ => ?_); (on_goal 1 => unfold x); (on_goal 2 => clear_value x))
    | ((fail_if_no_progress extract_lets +onlyGivenNames x); clear_value x)
    | (with_reducible first
        | exact Only.refl
        | assumption
        | refine (raise_only _ _).after (by decide) ?_
        | refine (put_only _ _ _).after (by decide) ?_
        | refine (setCore_only _ _ _).after (by decide) ?_
        | refine (wdtReload_only _ _).after (by decide) ?_
        | refine (setPend_only _ _ _).after (by decide) ?_
        | refine Only.ite ?_ ?_)

theorem wdtExpire_only (s : State) (c : ℕ) :
    Only 140801 s (State.wdtExpire s c) := by
  unfold State.wdtExpire
  repeat' first
    | ((fail_if_no_progress extract_lets +onlyGivenNames x); clear_value x)
    | (with_reducible first
        | exact Only.refl
        | refine (wdtBite_only _ _ _).after (by decide) ?_
        | refine (setCore_only _ _ _).after (by decide) ?_)

theorem wdtKick_only (s : State) (c : ℕ) (v : Word) :
    Only 140801 s (State.wdtKick s c v) := by
  unfold State.wdtKick
  repeat' first
    | (with_reducible first
        | exact Only.refl
        | refine (wdtBite_only _ _ _).after (by decide) ?_
        | refine (wdtStart_only _ _).after (by decide) ?_
        | refine Only.ite ?_ ?_)

theorem timerExpire_only (s : State) (c : ℕ) (i : ℕ) :
    Only 1 s (State.timerExpire s c i) := by
  unfold State.timerExpire
  repeat' first
    | ((fail_if_no_progress extract_lets +onlyGivenNames x); refine Only.letElim (x := x) ?_ (fun _ => ?_); (on_goal 1 => unfold x); (on_goal 2 => clear_value x))
    | (with_reducible first
        | exact Only.refl
        | assumption
        | refine (setPend_only _ _ _).after (by decide) ?_
        | refine (put_only _ _ _).after (by decide) ?_)

theorem timerTick_only (s : State) (c : ℕ) (i : ℕ) :
    Only 8193 s (State.timerTick s c i) := by
  unfold State.timerTick
  repeat' first
    | ((fail_if_no_progress extract_lets +onlyGivenNames x); refine Only.letElim (x := x) ?_ (fun _ => ?_); (on_goal 1 => unfold x); (on_goal 2 => clear_value x))
    | ((fail_if_no_progress extract_lets +onlyGivenNames x); clear_value x)
    | (with_reducible first
        | exact Only.refl
        | assumption
        | refine (setCore_only _ _ _).after (by decide) ?_
        | refine (timerExpire_only _ _ _).after (by decide) ?_
        | refine (put_only _ _ _).after (by decide) ?_
        | refine Only.ite ?_ ?_)

theorem cntTake_only (s : State) (c : ℕ) (i : ℕ) :
    Only 8193 s (State.cntTake s c i) := by
  unfold State.cntTake
  repeat' first
    | (with_reducible first
        | exact Only.refl
        | refine (timerTick_only _ _ _).after (by decide) ?_
        | refine (put_only _ _ _).after (by decide) ?_)
    | split

theorem wdtTick_only (s : State) (c : ℕ) :
    Only 140801 s (State.wdtTick s c) := by
  unfold State.wdtTick
  repeat' first
    | ((fail_if_no_progress extract_lets +onlyGivenNames x); refine Only.letElim (x := x) ?_ (fun _ => ?_); (on_goal 1 => unfold x); (on_goal 2 => clear_value x))
    | ((fail_if_no_progress extract_lets +onlyGivenNames x); clear_value x)
    | (with_reducible first
        | exact Only.refl
        | assumption
        | refine (put_only _ _ _).after (by decide) ?_
        | refine (wdtExpire_only _ _).after (by decide) ?_
        | refine Only.when _ _ (fun _ => ?_) ?_
        | refine Only.ite ?_ ?_)

theorem coreThaw_only (s : State) (c : ℕ) :
    Only 1 s (State.coreThaw s c) := by
  unfold State.coreThaw
  repeat' first
    | (with_reducible first
        | exact Only.refl
        | refine (put_only _ _ _).after (by decide) ?_
        | refine Only.ite ?_ ?_)

theorem coreStart_only (s : State) (c : ℕ) :
    Only 403073 s (State.coreStart s c) := by
  unfold State.coreStart
  repeat' first
    | ((fail_if_no_progress extract_lets +onlyGivenNames x); refine Only.letElim (x := x) ?_ (fun _ => ?_); (on_goal 1 => unfold x); (on_goal 2 => clear_value x))
    | (with_reducible first
        | exact Only.refl
        | assumption
        | refine (put_only _ _ _).after (by decide) ?_
        | refine (setPc_only _ _ _).after (by decide) ?_
        | refine (haltSpread_only _ _ _).after (by decide) ?_
        | refine (haltNow_only _ _ _ _).after (by decide) ?_
        | refine Only.ite ?_ ?_)

theorem coreReset_only (s : State) (c : ℕ) (cause : ℕ) (self : Bool) :
    Only 403081 s (State.coreReset s c cause self) := by
  unfold State.coreReset
  repeat' first
    | ((fail_if_no_progress extract_lets +onlyGivenNames x); refine Only.letElim (x := x) ?_ (fun _ => ?_); (on_goal 1 => unfold x); (on_goal 2 => clear_value x))
    | ((fail_if_no_progress extract_lets +onlyGivenNames x); clear_value x)
    | (with_reducible first
        | exact Only.refl
        | assumption
        | refine (setCore_only _ _ _).after (by decide) ?_
        | refine (resetRegs_only _ _).after (by decide) ?_
        | refine (orderReset_only _ _).after (by decide) ?_
        | refine (initReset_only _ _).after (by decide) ?_
        | refine (satF_only _ _ _).after (by decide) ?_
        | refine (put_only _ _ _).after (by decide) ?_
        | refine (setReg_only _ _ _).after (by decide) ?_
        | refine Only.when _ _ (fun _ => ?_) ?_
        | refine (coreStart_only _ _).after (by decide) ?_
        | refine Only.ite ?_ ?_)

theorem coreHold_only (s : State) (c : ℕ) :
    Only 403081 s (State.coreHold s c) := by
  unfold State.coreHold
  repeat' first
    | (with_reducible first
        | exact Only.refl
        | refine (coreReset_only _ _ _ _).after (by decide) ?_
        | refine (put_only _ _ _).after (by decide) ?_
        | refine Only.ite ?_ ?_)

theorem coreRelease_only (s : State) (c : ℕ) :
    Only 403073 s (State.coreRelease s c) := by
  unfold State.coreRelease
  repeat' first
    | (with_reducible first
        | exact Only.refl
        | refine (coreStart_only _ _).after (by decide) ?_
        | refine (put_only _ _ _).after (by decide) ?_
        | refine Only.ite ?_ ?_)

theorem stMemInc_only (s : State) (c : ℕ) :
    Only 1 s (State.stMemInc s c) := by
  unfold State.stMemInc
  repeat' first
    | (with_reducible first
        | exact Only.refl
        | refine Only.when _ _ (fun _ => ?_) ?_
        | refine (addF_only _ _ _).after (by decide) ?_)

theorem stMemRead_only (s : State) (c : ℕ) (peek : Bool) :
    Only 136705 s (State.stMemRead s c peek).1 := by
  unfold State.stMemRead
  repeat' first
    | ((fail_if_no_progress extract_lets +onlyGivenNames x); refine Only.letElim (x := x.1) ?_ (fun _ => ?_); (on_goal 1 => unfold x); (on_goal 2 => clear_value x))
    | ((fail_if_no_progress extract_lets +onlyGivenNames x); clear_value x)
    | (with_reducible first
        | exact Only.refl
        | assumption
        | refine (stMemInc_only _ _).after (by decide) ?_
        | refine (coreMemRead_only _ _ _ _).after (by decide) ?_
        | refine Only.ite ?_ ?_
        | refine Only.iteP ?_ ?_)
    | split

theorem stMemWrite_only (s : State) (c : ℕ) (v : ℕ) :
    Only 8193 s (State.stMemWrite s c v).1 := by
  unfold State.stMemWrite
  repeat' first
    | (with_reducible first
        | exact Only.refl
        | refine (stMemInc_only _ _).after (by decide) ?_
        | refine (coreMemWrite_only _ _ _ _ _ _).after (by decide) ?_)
    | split

theorem coreBlockWrite_only (s : State) (c : ℕ) (o : ℕ) (v : Word) :
    Only 403081 s (State.coreBlockWrite s c o v).1 := by
  unfold State.coreBlockWrite
  repeat' first
    | ((fail_if_no_progress extract_lets +onlyGivenNames x); refine Only.letElim (x := x) ?_ (fun _ => ?_); (on_goal 1 => unfold x); (on_goal 2 => clear_value x))
    | ((fail_if_no_progress extract_lets +onlyGivenNames x); (fail_if_success (have := fun y => x y)); (fail_if_success (have : CRes := x)); (fail_if_success (have : Security := x)); (fail_if_success (have : Hbm := x)); (fail_if_success (have : Option State := x)); clear_value x)
    | ((fail_if_no_progress extract_lets +onlyGivenNames x); (try unfold x); clear x)
    | (with_reducible first
        | exact Only.refl
        | assumption
        | refine (setReg_only _ _ _).after (by decide) ?_
        | refine (put_only _ _ _).after (by decide) ?_
        | refine (coreReset_only _ _ _ _).after (by decide) ?_
        | refine (coreHold_only _ _).after (by decide) ?_
        | refine (coreRelease_only _ _).after (by decide) ?_
        | refine (stMemWrite_only _ _ _).after (by decide) ?_
        | refine Only.each _ _ (fun _ _ => ?_) ?_
        | refine (setPend_only _ _ _).after (by decide) ?_
        | refine Only.when _ _ (fun _ => ?_) ?_
        | refine (raise_only _ _).after (by decide) ?_
        | refine (setCore_only _ _ _).after (by decide) ?_
        | refine (wdtStart_only _ _).after (by decide) ?_
        | refine (wdtKick_only _ _ _).after (by decide) ?_
        | refine Only.ite ?_ ?_
        | refine Only.iteP ?_ ?_)
    | split

theorem coreBlockRead_only (s : State) (c : ℕ) (o : ℕ) (peek : Bool) :
    Only 136705 s (State.coreBlockRead s c o peek).1 := by
  unfold State.coreBlockRead
  repeat' first
    | (with_reducible first
        | exact Only.refl
        | refine (stMemRead_only _ _ _).after (by decide) ?_
        | refine Only.iteP ?_ ?_)

end Sys2Proof.Machine
end

