-- ==== Sys2Proof/Laws/OnlyCoreRun.lean ====
section
/-! SUPPORT. Sys2Proof/Laws/OnlyCoreRun.lean: what the operations of Machine/CoreRun.lean leave alone (Laws/Only.lean): one lemma each. -/

set_option linter.unusedTactic false
set_option linter.tactic.unusedName false
set_option linter.unusedVariables false
set_option linter.unreachableTactic false

namespace Sys2Proof.Machine

/-- What an instruction answers leaves alone all but `m`. -/
def CRes.Only (m : Nat) (s : State) : CRes → Prop
  | .done t => Machine.Only m s t
  | .jump t _ => Machine.Only m s t
  | .left t => Machine.Only m s t
  | .stall t => Machine.Only m s t
  | .wait => True
  | .exc t _ _ _ _ => Machine.Only m s t
  | .halt _ _ _ => True

theorem CRes.Only.done {m : Nat} {s t : State} (h : Machine.Only m s t) : CRes.Only m s (.done t) := h
theorem CRes.Only.jump {m : Nat} {s t : State} {p : Nat} (h : Machine.Only m s t) : CRes.Only m s (.jump t p) := h
theorem CRes.Only.left {m : Nat} {s t : State} (h : Machine.Only m s t) : CRes.Only m s (.left t) := h
theorem CRes.Only.stall {m : Nat} {s t : State} (h : Machine.Only m s t) : CRes.Only m s (.stall t) := h
theorem CRes.Only.exc {m : Nat} {s t : State} {a : Nat} {b : Option Nat} {c : Nat} {d : Bool} (h : Machine.Only m s t) :
    CRes.Only m s (.exc t a b c d) := h

theorem CRes.Only.wait {m : Nat} {s : State} : CRes.Only m s .wait := trivial
theorem CRes.Only.halt {m : Nat} {s : State} {a b : Nat} {c : Bool} : CRes.Only m s (.halt a b c) := trivial

theorem CRes.Only.after {a m : Nat} {s t : State} {r : CRes} (g : CRes.Only a t r) (hs : a &&& m = a) (h : Machine.Only m s t) :
    CRes.Only m s r := by
  cases r <;> first | exact trivial | exact Machine.Only.after (a := a) g hs h

theorem CRes.Only.ite {m : Nat} {s : State} {t u : CRes} {c : Prop} [Decidable c] (ht : CRes.Only m s t) (hu : CRes.Only m s u) :
    CRes.Only m s (if c then t else u) := by
  split
  · exact ht
  · exact hu

theorem CRes.Only.andThen {m : Nat} {s : State} {r : CRes} {g : State → State} (hr : CRes.Only m s r)
    (hg : ∀ t, Machine.Only m t (g t)) : CRes.Only m s (r.andThen g) := by
  cases r <;> first | exact trivial | exact Machine.Only.trans hr (hg _) | exact hr

/-- What a data load answers leaves alone all but `m`. -/
def LoadRes.Only (m : Nat) (s : State) : LoadRes → Prop
  | .val t _ => Machine.Only m s t
  | .exc t _ => Machine.Only m s t
  | .win _ => True

theorem LoadRes.Only.val {m : Nat} {s t : State} {v : Nat} (h : Machine.Only m s t) : LoadRes.Only m s (.val t v) := h
theorem LoadRes.Only.exc {m : Nat} {s t : State} {c : Nat} (h : Machine.Only m s t) : LoadRes.Only m s (.exc t c) := h
theorem LoadRes.Only.win {m : Nat} {s : State} {a : Nat} : LoadRes.Only m s (.win a) := trivial
theorem LoadRes.Only.of_val {m : Nat} {s t : State} {v : Nat} {r : LoadRes} (h : LoadRes.Only m s r) (e : r = .val t v) :
    Machine.Only m s t := by subst e; exact h
theorem LoadRes.Only.of_exc {m : Nat} {s t : State} {c : Nat} {r : LoadRes} (h : LoadRes.Only m s r) (e : r = .exc t c) :
    Machine.Only m s t := by subst e; exact h

theorem LoadRes.Only.after {a m : Nat} {s t : State} {r : LoadRes} (g : LoadRes.Only a t r) (hs : a &&& m = a) (h : Machine.Only m s t) :
    LoadRes.Only m s r := by
  cases r <;> first | exact trivial | exact Machine.Only.after (a := a) g hs h

theorem CRes.Only.letElim {m : Nat} {s x : State} {r : CRes} (h : Machine.Only m s x) (g : Machine.Only m s x → CRes.Only m s r) :
    CRes.Only m s r := g h

theorem LoadRes.Only.letElim {m : Nat} {s x : State} {r : LoadRes} (h : Machine.Only m s x) (g : Machine.Only m s x → LoadRes.Only m s r) :
    LoadRes.Only m s r := g h


theorem afterInsn_only (s : State) (c : ℕ) :
    Only 402945 s (State.afterInsn s c) := by
  unfold State.afterInsn
  repeat' first
    | ((fail_if_no_progress extract_lets +onlyGivenNames x); refine Only.letElim (x := x) ?_ (fun _ => ?_); (on_goal 1 => unfold x); (on_goal 2 => clear_value x))
    | ((fail_if_no_progress extract_lets +onlyGivenNames x); clear_value x)
    | (with_reducible first
        | exact Only.refl
        | assumption
        | refine (setCore_only _ _ _).after (by decide) ?_
        | refine (haltCause_only _ _ _ _).after (by decide) ?_
        | refine Only.ite ?_ ?_)

theorem feedRefuse_only (s : State) (c : ℕ) (code : ℕ) :
    Only 1 s (State.feedRefuse s c code) := by
  unfold State.feedRefuse
  repeat' first
    | (with_reducible first
        | exact Only.refl
        | refine (put_only _ _ _).after (by decide) ?_)

theorem retire_only {m : Nat} (s0 : State) (c pc : Nat) (fed : Bool) (r : CRes) (hr : CRes.Only m s0 r) (hm : 402945 &&& m = 402945) :
    Only m s0 (s0.retire c pc fed r) := by
  have h1 : ∀ (t : State) (x : Core), Only m t (t.setCore c x) := fun t x => ((setCore_only t c x).mono (by decide : _ &&& 402945 = _)).mono hm
  have h2 : ∀ (t : State) (v : Nat), Only m t (t.setPc c v) := fun t v => ((setPc_only t c v).mono (by decide : _ &&& 402945 = _)).mono hm
  have h3 : ∀ (t : State), Only m t (t.afterInsn c) := fun t => ((afterInsn_only t c).mono (by decide : _ &&& 402945 = _)).mono hm
  have h4 : ∀ (t : State) (w u : Nat), Only m t (t.haltCause c w u) := fun t w u => ((haltCause_only t c w u).mono (by decide : _ &&& 402945 = _)).mono hm
  unfold State.retire
  cases r with
  | done s =>
    dsimp only
    split
    · exact hr
    · exact (((Only.trans hr (h1 _ _)).trans (h2 _ _))).trans (h3 _)
  | jump s p => exact (Only.trans hr (h2 _ _)).trans (h3 _)
  | left s => exact hr
  | stall s => exact hr
  | wait => exact Only.refl
  | exc s code addr info next =>
    dsimp only
    split
    · exact Only.trans hr (((feedRefuse_only _ _ _).mono (by decide : _ &&& 402945 = _)).mono hm)
    · exact Only.trans hr (((coreExc_only _ _ _ _ _ _ _).mono (by decide : _ &&& 402945 = _)).mono hm)
  | halt why unit ran =>
    dsimp only
    split
    · exact (h2 _ _).trans (h4 _ _ _)
    · exact h4 _ _ _

theorem lastCheck_only {m : Nat} (s : State) (last : Bool) (r : CRes) (hr : CRes.Only m s r) :
    CRes.Only m s (lastCheck s last r) := by
  unfold lastCheck
  split
  · cases r <;> first
      | exact Only.refl
      | (simp only []; split <;> first | exact hr | exact Only.refl)
  · exact hr

theorem coreCmd_only {m : Nat} (s : State) (c : Nat) (w : Word) (k : Nat) (f : Nat → Word → State → CRes)
    (hf : ∀ t, CRes.Only m t (f c w t)) (hm : 407041 &&& m = 407041) : Only m s (s.coreCmd c w k f) := by
  have hp : ∀ (t : State) (x : Fld) (v : Nat), Only m t (t.put x v) := fun t x v =>
    ((put_only t x v).mono (by decide : _ &&& 407041 = _)).mono hm
  have hr : ∀ (t : State) (pc : Nat) (r : CRes), CRes.Only m t r → Only m t (t.retire c pc false r) := fun t pc r h =>
    retire_only _ _ _ _ _ h (land_sub (by decide : _ &&& 407041 = _) hm)
  have he : ∀ (t : State) (a : Nat) (b : Option Nat) (d e g : Nat), Only m t (t.coreExc c a b d e g) := fun t a b d e g =>
    ((coreExc_only _ _ _ _ _ _ _).mono (by decide : _ &&& 407041 = _)).mono hm
  have hg : ∀ (t : State) (x pc : Nat), Only m s t → Only m s (if x = w.toNat then
          match insnKind w with
          | none => (t.put (ST_STAT_STATE c) 1).coreExc c 1 none pc pc 0
          | some q => if q = k then
              let u := t.put (ST_STAT_STATE c) 1
              u.retire c pc false (lastCheck u ((u.coreOf c).lastOf pc && noBlockEnd k) (f c w u))
            else s
        else s) := by
    intro t x pc h
    split
    · split
      · exact (h.trans (hp _ _ _)).trans (he _ _ _ _ _ _)
      · split
        · exact (h.trans (hp _ _ _)).trans (hr _ _ _ (lastCheck_only _ _ _ (hf _)))
        · exact Only.refl
    · exact Only.refl
  unfold State.coreCmd
  split
  · split
    · exact ((haltCause_only _ _ _ _).mono (by decide : _ &&& 407041 = _)).mono hm
    · dsimp only
      split
      · split
        · exact hg _ _ _ Only.refl
        · exact (hp _ _ _).trans (he _ _ _ _ _ _)
      · split
        · exact ((((coreMemRead_only _ _ _ _).mono (by decide : _ &&& 407041 = _)).mono hm).trans (hp _ _ _)).trans (he _ _ _ _ _ _)
        · exact hg _ _ _ (((coreMemRead_only _ _ _ _).mono (by decide : _ &&& 407041 = _)).mono hm)
  · exact Only.refl

theorem regWrite_only (s : State) (c : ℕ) (cls : ℕ) (idx : ℕ) (v : ℕ) :
    Only 8192 s (State.regWrite s c cls idx v) := by
  unfold State.regWrite
  repeat' first
    | ((fail_if_no_progress extract_lets +onlyGivenNames x); refine Only.letElim (x := x) ?_ (fun _ => ?_); (on_goal 1 => unfold x); (on_goal 2 => clear_value x))
    | (with_reducible first
        | exact Only.refl
        | assumption
        | refine (setCore_only _ _ _).after (by decide) ?_
        | refine (freeNext_only _).after (by decide) ?_
        | refine Only.ite ?_ ?_)

theorem postMod_only (s : State) (c : ℕ) (i : ℕ) (step : ℤ) :
    Only 8192 s (State.postMod s c i step) := by
  unfold State.postMod
  repeat' first
    | ((fail_if_no_progress extract_lets +onlyGivenNames x); refine Only.letElim (x := x) ?_ (fun _ => ?_); (on_goal 1 => unfold x); (on_goal 2 => clear_value x))
    | ((fail_if_no_progress extract_lets +onlyGivenNames x); clear_value x)
    | (with_reducible first
        | exact Only.refl
        | assumption
        | refine (setCore_only _ _ _).after (by decide) ?_
        | refine (freeNext_only _).after (by decide) ?_
        | refine Only.ite ?_ ?_)

theorem memLoad_only (s : State) (c : ℕ) (m : ℕ) (i : ℕ) (a : ℕ) (bytes : ℕ) :
    LoadRes.Only 136705 s (State.memLoad s c m i a bytes) := by
  unfold State.memLoad
  repeat' first
    | ((fail_if_no_progress extract_lets +onlyGivenNames x); refine LoadRes.Only.letElim (x := x.1) ?_ (fun _ => ?_); (on_goal 1 => unfold x); (on_goal 2 => clear_value x))
    | (with_reducible first
        | exact Only.refl
        | assumption
        | refine (coreMemRead_only _ _ _ _).after (by decide) ?_
        | refine LoadRes.Only.val ?_
        | refine LoadRes.Only.exc ?_)
    | split

theorem dataLoad_only (s : State) (c : ℕ) (a : ℕ) (bytes : ℕ) :
    LoadRes.Only 136705 s (State.dataLoad s c a bytes) := by
  unfold State.dataLoad
  repeat' first
    | ((fail_if_no_progress extract_lets +onlyGivenNames x); refine LoadRes.Only.letElim (x := x.1) ?_ (fun _ => ?_); (on_goal 1 => unfold x); (on_goal 2 => clear_value x))
    | (with_reducible first
        | exact Only.refl
        | assumption
        | refine (memLoad_only _ _ _ _ _ _).after (by decide) ?_
        | refine (coreBlockRead_only _ _ _ _).after (by decide) ?_
        | refine LoadRes.Only.val ?_
        | refine LoadRes.Only.exc ?_
        | exact LoadRes.Only.win)
    | split

theorem winLoad_only (s : State) (c : ℕ) (w : Word) (addr : ℕ) (ia : ℕ) (size : ℕ) (ref : ℕ) (write : Bool) (data : ℕ) (fed : Bool) :
    CRes.Only 9216 s (State.winLoad s c w addr ia size ref write data fed) := by
  unfold State.winLoad
  repeat' first
    | ((fail_if_no_progress extract_lets +onlyGivenNames x); clear_value x)
    | (with_reducible first
        | exact Only.refl
        | refine (meshQueue_only _ _ _ (by assumption)).after (by decide) ?_
        | refine (setCore_only _ _ _).after (by decide) ?_
        | refine CRes.Only.stall ?_
        | refine CRes.Only.exc ?_
        | exact CRes.Only.wait)
    | split

theorem busErr_only (s : State) (c : ℕ) (ia : ℕ) (r : Rsp) :
    Only 1 s (State.busErr s c ia r) := by
  unfold State.busErr
  repeat' first
    | (with_reducible first
        | exact Only.refl
        | refine (setPend_only _ _ _).after (by decide) ?_
        | refine Only.log _ _ _ (fun _ => ?_) ?_
        | refine (put_only _ _ _).after (by decide) ?_)

theorem dataStore_only {m : Nat} (s : State) (c a bytes v : Nat) (poison fed : Bool) (fin : State → State)
    (hf : ∀ t, Only m t (fin t)) (hm : 407177 &&& m = 407177) : CRes.Only m s (s.dataStore c a bytes v poison fed fin) := by
  have hw : ∀ (t : State) (k i x : Nat) (p : Bool), Only m t (t.coreMemWrite c k i x p) := fun t k i x p =>
    ((coreMemWrite_only t c k i x p).mono (by decide : _ &&& 407177 = _)).mono hm
  have hh : ∀ (t : State) (k i x y : Nat), Only m t (t.coreMemHalf c k i x y) := fun t k i x y =>
    ((coreMemHalf_only t c k i x y).mono (by decide : _ &&& 407177 = _)).mono hm
  have hb : ∀ (t : State) (x : Nat) (r : Rsp), Only m t (t.busErr c x r) := fun t x r =>
    ((busErr_only t c x r).mono (by decide : _ &&& 407177 = _)).mono hm
  have hc : ∀ (t : State) (o : Nat) (x : Word), Only m t (t.coreBlockWrite c o x).1 := fun t o x =>
    ((coreBlockWrite_only t c o x).mono (by decide : _ &&& 407177 = _)).mono hm
  unfold State.dataStore
  split
  · exact Only.refl
  · split
    · split
      · exact (hw _ _ _ _ _).trans (hf _)
      · exact (hh _ _ _ _ _).trans (hf _)
    · split
      · exact (hw _ _ _ _ _).trans (hf _)
      · exact (hh _ _ _ _ _).trans (hf _)
    · split
      · split
        · exact (hf _).trans (hb _ _ _)
        · split
          · exact (hf _).trans (hb _ _ _)
          · dsimp only
            split
            · exact (hf _).trans (hc _ _ _)
            · split
              · exact (hf _).trans (hc _ _ _)
              · exact ((hf _).trans (hc _ _ _)).trans (hb _ _ _)
      · exact Only.refl
    · split
      · exact Only.refl
      · split
        · exact Only.refl
        · split
          · trivial
          · rename_i h; exact Only.trans (((meshQueue_only _ _ _ h).mono (by decide : _ &&& 407177 = _)).mono hm) (hf _)
    · exact Only.refl

theorem watched_only {m : Nat} (s : State) (c a : Nat) (store fed : Bool) (k : CRes) (hk : CRes.Only m s k) :
    CRes.Only m s (s.watched c a store fed k) := by
  unfold State.watched
  split
  · exact hk
  · split
    · trivial
    · exact hk

theorem lineGather_only (y0 : ℕ) (y1 : ℕ) (y2 : ℕ) (y3 : ℕ) (y4 : ℕ) (y5 : ℕ) (y6 : State) :
    Only 136705 y6 (lineGather y0 y1 y2 y3 y4 y5 y6).1 := by
  induction y0 generalizing y1 y2 y3 y4 y5 y6 with
  | zero =>
    unfold lineGather
    exact Only.refl
  | succ n ih =>
    unfold lineGather
    repeat' first
      | ((fail_if_no_progress extract_lets +onlyGivenNames x); refine Only.letElim (x := x.1) ?_ (fun _ => ?_); (on_goal 1 => unfold x); (on_goal 2 => clear_value x))
      | ((fail_if_no_progress extract_lets +onlyGivenNames x); clear_value x)
      | (with_reducible first
          | exact Only.refl
          | assumption
          | refine (coreMemRead_only _ _ _ _).after (by decide) ?_
          | refine Only.trans ?_ (ih _ _ _ _ _ _))

theorem lsPost_only (s : State) (c : ℕ) (w : Word) :
    Only 8192 s (State.lsPost s c w) := by
  unfold State.lsPost
  repeat' first
    | (with_reducible first
        | exact Only.refl
        | refine (postMod_only _ _ _ _).after (by decide) ?_)
    | split

theorem winFinish_only (s : State) (c : ℕ) (st : Stall) (a : Acc) (r : Rsp) :
    CRes.Only 8192 s (State.winFinish s c st a r) := by
  unfold State.winFinish
  repeat' first
    | ((fail_if_no_progress extract_lets +onlyGivenNames x); clear_value x)
    | (with_reducible first
        | exact Only.refl
        | refine (setCore_only _ _ _).after (by decide) ?_
        | refine (lsPost_only _ _ _).after (by decide) ?_
        | refine Only.each _ _ (fun _ _ => ?_) ?_
        | refine (coreMemWrite_only _ _ _ _ _ _).after (by decide) ?_
        | refine CRes.Only.done ?_
        | refine CRes.Only.exc ?_)
    | split

theorem takeInbox_only (s : State) (src : ℕ) (p : Acc → Bool) :
    ∀ a r t, State.takeInbox s src p = some (a, r, t) → Only 1024 s t := by
  intro a' r' t' h
  unfold State.takeInbox at h
  try dsimp only at h
  split at h
  · contradiction
  · injection h with h; injection h with h1 h2; injection h2 with h2 h3; subst h3
    repeat' first
      | (with_reducible first
          | exact Only.refl
          | refine (setMesh_only _ _).after (by decide) ?_)

end Sys2Proof.Machine
end

