-- ==== Sys2Proof/Laws/OnlyMeshOps.lean ====
section
/-! SUPPORT. Sys2Proof/Laws/OnlyMeshOps.lean: what the operations of Machine/MeshOps.lean leave alone (Laws/Only.lean): one lemma each. -/

set_option linter.unusedTactic false
set_option linter.tactic.unusedName false
set_option linter.unusedVariables false
set_option linter.unreachableTactic false

namespace Sys2Proof.Machine

theorem meshErr_only (s : State) (kind : ℕ) (router : ℕ) (input : ℕ) (src : ℕ) (tag : ℕ) :
    Only 1 s (State.meshErr s kind router input src tag) := by
  unfold State.meshErr
  repeat' first
    | (with_reducible first
        | exact Only.refl
        | refine Only.log _ _ _ (fun _ => ?_) ?_
        | refine (put_only _ _ _).after (by decide) ?_)

theorem flitEvents_only (s : State) (fl : Flit) :
    Only 136705 s (State.flitEvents s fl) := by
  unfold State.flitEvents
  repeat' first
    | ((fail_if_no_progress extract_lets +onlyGivenNames x); refine Only.letElim (x := x) ?_ (fun _ => ?_); (on_goal 1 => unfold x); (on_goal 2 => clear_value x))
    | (with_reducible first
        | exact Only.refl
        | assumption
        | refine Only.when _ _ (fun _ => ?_) ?_
        | refine (leafEvent_only _ _ _ _).after (by decide) ?_
        | refine (raise_only _ _).after (by decide) ?_
        | refine (meshErr_only _ _ _ _ _ _).after (by decide) ?_
        | refine Only.each _ _ (fun _ _ => ?_) ?_)
    | split

theorem meshStray_only (s : State) (router : ℕ) (src : ℕ) (tag : ℕ) :
    Only 132609 s (State.meshStray s router src tag) := by
  unfold State.meshStray
  repeat' first
    | (with_reducible first
        | exact Only.refl
        | refine (raise_only _ _).after (by decide) ?_
        | refine (meshErr_only _ _ _ _ _ _).after (by decide) ?_)

theorem meshAnswer_only (s : State) (t : ℕ) (a : Acc) (r : Rsp) :
    Only 1024 s (State.meshAnswer s t a r) := by
  unfold State.meshAnswer
  repeat' first
    | ((fail_if_no_progress extract_lets +onlyGivenNames x); clear_value x)
    | (with_reducible first
        | exact Only.refl
        | refine (setMesh_only _ _).after (by decide) ?_)

theorem meshDone_only (s : State) (a : Acc) (r : Rsp) :
    Only 1025 s (State.meshDone s a r) := by
  unfold State.meshDone
  repeat' first
    | ((fail_if_no_progress extract_lets +onlyGivenNames x); refine Only.letElim (x := x) ?_ (fun _ => ?_); (on_goal 1 => unfold x); (on_goal 2 => clear_value x))
    | ((fail_if_no_progress extract_lets +onlyGivenNames x); clear_value x)
    | (with_reducible first
        | exact Only.refl
        | assumption
        | refine (opVisible_only _ _ _).after (by decide) ?_
        | refine (setMesh_only _ _).after (by decide) ?_)

theorem setWaits_only (s : State) (t : ℕ) (l : List Wait) :
    Only 1024 s (State.setWaits s t l) := by
  unfold State.setWaits
  repeat' first
    | ((fail_if_no_progress extract_lets +onlyGivenNames x); clear_value x)
    | (with_reducible first
        | exact Only.refl
        | refine (setMesh_only _ _).after (by decide) ?_)

theorem setStale_only (s : State) (t : ℕ) (l : List (ℕ × ℕ)) :
    Only 1025 s (State.setStale s t l) := by
  unfold State.setStale
  repeat' first
    | ((fail_if_no_progress extract_lets +onlyGivenNames x); clear_value x)
    | (with_reducible first
        | exact Only.refl
        | refine (put_only _ _ _).after (by decide) ?_
        | refine (setMesh_only _ _).after (by decide) ?_)

theorem absorbAnswer_only (s : State) (t : ℕ) (a : Acc) :
    Only 1025 s (State.absorbAnswer s t a) := by
  unfold State.absorbAnswer
  repeat' first
    | (with_reducible first
        | exact Only.refl
        | refine (setStale_only _ _ _).after (by decide) ?_
        | refine (satF_only _ _ _).after (by decide) ?_
        | refine (meshAnswer_only _ _ _ _).after (by decide) ?_)

theorem tgtAnswer_only (s : State) (t : ℕ) (i : ℕ) (r : Rsp) :
    Only 1025 s (State.tgtAnswer s t i r) := by
  unfold State.tgtAnswer
  repeat' first
    | ((fail_if_no_progress extract_lets +onlyGivenNames x); refine Only.letElim (x := x) ?_ (fun _ => ?_); (on_goal 1 => unfold x); (on_goal 2 => clear_value x))
    | (with_reducible first
        | exact Only.refl
        | assumption
        | refine (setWaits_only _ _ _).after (by decide) ?_
        | refine (setStale_only _ _ _).after (by decide) ?_
        | refine (meshAnswer_only _ _ _ _).after (by decide) ?_
        | refine Only.ite ?_ ?_)
    | split

theorem histAdd_only (s : State) (src : ℕ) (lat : ℕ) :
    Only 1 s (State.histAdd s src lat) := by
  unfold State.histAdd
  repeat' first
    | (with_reducible first
        | exact Only.refl
        | refine (satF_only _ _ _).after (by decide) ?_)

theorem monAdd_only (s : State) (a : Acc) :
    Only 1024 s (State.monAdd s a) := by
  unfold State.monAdd
  repeat' first
    | ((fail_if_no_progress extract_lets +onlyGivenNames x); clear_value x)
    | (with_reducible first
        | exact Only.refl
        | refine (setMesh_only _ _).after (by decide) ?_)

theorem refreshEnter_only (s : State) (k : ℕ) :
    Only 2049 s (State.refreshEnter s k) := by
  unfold State.refreshEnter
  repeat' first
    | (with_reducible first
        | exact Only.refl
        | refine (put_only _ _ _).after (by decide) ?_
        | refine (tagFlush_only _ _).after (by decide) ?_
        | refine Only.ite ?_ ?_)

end Sys2Proof.Machine
end

