-- ==== Sys2Proof/Laws/OnlyCfgOps.lean ====
section
/-! SUPPORT. Sys2Proof/Laws/OnlyCfgOps.lean: what the operations of Machine/CfgOps.lean leave alone (Laws/Only.lean): one lemma each. -/

set_option linter.unusedTactic false
set_option linter.tactic.unusedName false
set_option linter.unusedVariables false
set_option linter.unreachableTactic false

namespace Sys2Proof.Machine

theorem setBay_only (s : State) (k : ℕ) (c : ℕ) :
    Only 1 s (State.setBay s k c) := by
  unfold State.setBay
  repeat' first
    | (with_reducible first
        | exact Only.refl
        | refine (put_only _ _ _).after (by decide) ?_)

theorem cfgLog_only (s : State) (cause : ℕ) (bay : ℕ) (frame : ℕ) :
    Only 132609 s (State.cfgLog s cause bay frame) := by
  unfold State.cfgLog
  repeat' first
    | (with_reducible first
        | exact Only.refl
        | refine (raise_only _ _).after (by decide) ?_
        | refine Only.log _ _ _ (fun _ => ?_) ?_
        | refine (put_only _ _ _).after (by decide) ?_)

theorem cfgRefuse_only (s : State) (cause : ℕ) :
    Only 132609 s (State.cfgRefuse s cause) := by
  unfold State.cfgRefuse
  repeat' first
    | ((fail_if_no_progress extract_lets +onlyGivenNames x); refine Only.letElim (x := x) ?_ (fun _ => ?_); (on_goal 1 => unfold x); (on_goal 2 => clear_value x))
    | (with_reducible first
        | exact Only.refl
        | assumption
        | refine (cfgLog_only _ _ _ _).after (by decide) ?_
        | refine (put_only _ _ _).after (by decide) ?_
        | refine Only.ite ?_ ?_)

theorem disarm_only (s : State) :
    Only 33 s (State.disarm s) := by
  unfold State.disarm
  repeat' first
    | ((fail_if_no_progress extract_lets +onlyGivenNames x); clear_value x)
    | (with_reducible first
        | exact Only.refl
        | refine (put_only _ _ _).after (by decide) ?_
        | refine (setCfg_only _ _).after (by decide) ?_)

theorem cfgLatticeReset_only (s : State) :
    Only 132641 s (State.cfgLatticeReset s) := by
  unfold State.cfgLatticeReset
  repeat' first
    | ((fail_if_no_progress extract_lets +onlyGivenNames x); refine Only.letElim (x := x) ?_ (fun _ => ?_); (on_goal 1 => unfold x); (on_goal 2 => clear_value x))
    | ((fail_if_no_progress extract_lets +onlyGivenNames x); clear_value x)
    | (with_reducible first
        | exact Only.refl
        | assumption
        | refine (cfgRefuse_only _ _).after (by decide) ?_
        | refine (disarm_only _).after (by decide) ?_
        | refine (setCfg_only _ _).after (by decide) ?_
        | refine Only.ite ?_ ?_)

theorem claimsFree_only (s : State) (k : ℕ) :
    Only 8 s (State.claimsFree s k) := by
  unfold State.claimsFree
  repeat' first
    | ((fail_if_no_progress extract_lets +onlyGivenNames x); clear_value x)
    | (with_reducible first
        | exact Only.refl
        | refine (setFab_only _ _).after (by decide) ?_)

theorem bayFreeze_only (s : State) (a : Arm) (vals : List (Net × Bool)) :
    Only 41 s (State.bayFreeze s a vals) := by
  unfold State.bayFreeze
  repeat' first
    | ((fail_if_no_progress extract_lets +onlyGivenNames x); refine Only.letElim (x := x) ?_ (fun _ => ?_); (on_goal 1 => unfold x); (on_goal 2 => clear_value x))
    | ((fail_if_no_progress extract_lets +onlyGivenNames x); clear_value x)
    | (with_reducible first
        | exact Only.refl
        | assumption
        | refine (setFab_only _ _).after (by decide) ?_
        | refine (setBay_only _ _ _).after (by decide) ?_
        | refine (setCfg_only _ _).after (by decide) ?_
        | refine (disarm_only _).after (by decide) ?_
        | refine (claimsFree_only _ _).after (by decide) ?_)

theorem bayClear_only (s : State) (k : ℕ) :
    Only 8 s (State.bayClear s k) := by
  unfold State.bayClear
  repeat' first
    | ((fail_if_no_progress extract_lets +onlyGivenNames x); clear_value x)
    | (with_reducible first
        | exact Only.refl
        | refine (setFab_only _ _).after (by decide) ?_)

theorem bayRelease_only (s : State) (k : ℕ) :
    Only 132649 s (State.bayRelease s k) := by
  unfold State.bayRelease
  repeat' first
    | ((fail_if_no_progress extract_lets +onlyGivenNames x); refine Only.letElim (x := x) ?_ (fun _ => ?_); (on_goal 1 => unfold x); (on_goal 2 => clear_value x))
    | ((fail_if_no_progress extract_lets +onlyGivenNames x); clear_value x)
    | (with_reducible first
        | exact Only.refl
        | assumption
        | refine (bayClear_only _ _).after (by decide) ?_
        | refine (setFab_only _ _).after (by decide) ?_
        | refine (mapNeeds_only _ _).after (by decide) ?_
        | refine (raise_only _ _).after (by decide) ?_
        | refine (setBay_only _ _ _).after (by decide) ?_
        | refine (setCfg_only _ _).after (by decide) ?_)

end Sys2Proof.Machine
end

