-- ==== Sys2Proof/Laws/OnlyFabricStep.lean ====
section
/-! SUPPORT. Sys2Proof/Laws/OnlyFabricStep.lean: what the operations of Machine/FabricStep.lean leave alone (Laws/Only.lean): one lemma each. -/

set_option linter.unusedTactic false
set_option linter.tactic.unusedName false
set_option linter.unusedVariables false
set_option linter.unreachableTactic false

namespace Sys2Proof.Machine

theorem residueError_only (s : State) (sl : ℕ) (fail : Bool) :
    Only 136705 s (State.residueError s sl fail) := by
  unfold State.residueError
  repeat' first
    | (with_reducible first
        | exact Only.refl
        | refine Only.when _ _ (fun _ => ?_) ?_
        | refine (leafEvent_only _ _ _ _).after (by decide) ?_)

theorem portSr_only (t : State) (s : State) (m : ℕ) (i : ℕ) (c : PortCfg) :
    Only 8 t (State.portSr t s m i c) := by
  unfold State.portSr
  repeat' first
    | ((fail_if_no_progress extract_lets +onlyGivenNames x); clear_value x)
    | (with_reducible first
        | exact Only.refl
        | refine (setFab_only _ _).after (by decide) ?_
        | refine Only.ite ?_ ?_)

theorem memNext_only (t : State) (s0 : State) (e : Edge) (c : MemCfg) :
    Only 136713 t (State.memNext t s0 e c) := by
  unfold State.memNext
  repeat' first
    | ((fail_if_no_progress extract_lets +onlyGivenNames x); refine Only.letElim (x := x) ?_ (fun _ => ?_); (on_goal 1 => unfold x); (on_goal 2 => clear_value x))
    | ((fail_if_no_progress extract_lets +onlyGivenNames x); (fail_if_success (have := fun y => x y)); (fail_if_success (have : CRes := x)); (fail_if_success (have : Security := x)); (fail_if_success (have : Hbm := x)); (fail_if_success (have : Option State := x)); clear_value x)
    | ((fail_if_no_progress extract_lets +onlyGivenNames x); (try unfold x); clear x)
    | (with_reducible first
        | exact Only.refl
        | assumption
        | refine (setFab_only _ _).after (by decide) ?_
        | refine Only.when _ _ (fun _ => ?_) ?_
        | refine (memEdge_only _ _ _ _ _).after (by decide) ?_
        | refine (portSr_only _ _ _ _ _).after (by decide) ?_
        | refine Only.ite ?_ ?_)

theorem bndClear_only (s : State) (n : ℕ) :
    Only 8 s (State.bndClear s n) := by
  unfold State.bndClear
  repeat' first
    | ((fail_if_no_progress extract_lets +onlyGivenNames x); (fail_if_success (have := fun y => x y)); (fail_if_success (have : CRes := x)); (fail_if_success (have : Security := x)); (fail_if_success (have : Hbm := x)); (fail_if_success (have : Option State := x)); clear_value x)
    | ((fail_if_no_progress extract_lets +onlyGivenNames x); (try unfold x); clear x)
    | (with_reducible first
        | exact Only.refl
        | refine (setFab_only _ _).after (by decide) ?_)

theorem fabricEdge_only (s : State) (e : Edge) :
    Only 136713 s (State.fabricEdge s e) := by
  unfold State.fabricEdge
  repeat' first
    | ((fail_if_no_progress extract_lets +onlyGivenNames x); refine Only.letElim (x := x) ?_ (fun _ => ?_); (on_goal 1 => unfold x); (on_goal 2 => clear_value x))
    | ((fail_if_no_progress extract_lets +onlyGivenNames x); clear_value x)
    | (with_reducible first
        | exact Only.refl
        | assumption
        | refine Only.each _ _ (fun _ _ => ?_) ?_
        | refine (memNext_only _ _ _ _).after (by decide) ?_
        | refine (setFab_only _ _).after (by decide) ?_
        | refine (residueError_only _ _ _).after (by decide) ?_
        | refine (bndClear_only _ _).after (by decide) ?_)

end Sys2Proof.Machine
end

