-- ==== Sys2Proof/Laws/OnlyClock.lean ====
section
/-! SUPPORT. Sys2Proof/Laws/OnlyClock.lean: what the operations of Machine/Clock.lean leave alone (Laws/Only.lean): one lemma each. -/

set_option linter.unusedTactic false
set_option linter.tactic.unusedName false
set_option linter.unusedVariables false
set_option linter.unreachableTactic false

namespace Sys2Proof.Machine

theorem execTrimWindowEnd_only (c : ℕ) (s : State) :
    ∀ t', execTrimWindowEnd c s = .next t' → Only 132625 s t' := by
  intro t' h
  unfold execTrimWindowEnd at h
  injection h with h
  subst h
  repeat' first
    | ((fail_if_no_progress extract_lets +onlyGivenNames x); refine Only.letElim (x := x) ?_ (fun _ => ?_); (on_goal 1 => unfold x); (on_goal 2 => clear_value x))
    | ((fail_if_no_progress extract_lets +onlyGivenNames x); clear_value x)
    | (with_reducible first
        | exact Only.refl
        | assumption
        | refine (setClk_only _ _).after (by decide) ?_
        | refine (put_only _ _ _).after (by decide) ?_
        | refine (raise_only _ _).after (by decide) ?_
        | refine Only.ite ?_ ?_)

theorem execTrimRefMissing_only (s : State) :
    ∀ t', execTrimRefMissing s = .next t' → Only 132625 s t' := by
  intro t' h
  unfold execTrimRefMissing at h
  injection h with h
  subst h
  repeat' first
    | ((fail_if_no_progress extract_lets +onlyGivenNames x); clear_value x)
    | (with_reducible first
        | exact Only.refl
        | refine (raise_only _ _).after (by decide) ?_
        | refine (put_only _ _ _).after (by decide) ?_
        | refine (setClk_only _ _).after (by decide) ?_
        | refine Only.ite ?_ ?_)

theorem pllCheck_only (s : State) (p : ℕ) :
    Only 1 s (State.pllCheck s p) := by
  unfold State.pllCheck
  repeat' first
    | (with_reducible first
        | exact Only.refl
        | refine (put_only _ _ _).after (by decide) ?_)

theorem execPllSettingChange_only (p : ℕ) (w : Word) (s : State) :
    ∀ t', execPllSettingChange p w s = .next t' → Only 17 s t' := by
  intro t' h
  unfold execPllSettingChange at h
  injection h with h
  subst h
  repeat' first
    | ((fail_if_no_progress extract_lets +onlyGivenNames x); refine Only.letElim (x := x) ?_ (fun _ => ?_); (on_goal 1 => unfold x); (on_goal 2 => clear_value x))
    | ((fail_if_no_progress extract_lets +onlyGivenNames x); clear_value x)
    | (with_reducible first
        | exact Only.refl
        | assumption
        | refine (setReg_only _ _ _).after (by decide) ?_
        | refine (put_only _ _ _).after (by decide) ?_
        | refine (setClk_only _ _).after (by decide) ?_
        | refine (pllCheck_only _ _).after (by decide) ?_
        | refine Only.ite ?_ ?_)

theorem switchTo_only (s : State) (m : ℕ) (src : ℕ) :
    Only 133009 s (State.switchTo s m src) := by
  unfold State.switchTo
  repeat' first
    | ((fail_if_no_progress extract_lets +onlyGivenNames x); refine Only.letElim (x := x) ?_ (fun _ => ?_); (on_goal 1 => unfold x); (on_goal 2 => clear_value x))
    | ((fail_if_no_progress extract_lets +onlyGivenNames x); clear_value x)
    | (with_reducible first
        | exact Only.refl
        | assumption
        | refine (put_only _ _ _).after (by decide) ?_
        | refine (setClk_only _ _).after (by decide) ?_
        | refine (nodeOffline_only _).after (by decide) ?_
        | refine Only.ite ?_ ?_)

theorem switchEnd_only (s : State) (m : ℕ) :
    Only 133009 s (State.switchEnd s m) := by
  unfold State.switchEnd
  repeat' first
    | ((fail_if_no_progress extract_lets +onlyGivenNames x); refine Only.letElim (x := x) ?_ (fun _ => ?_); (on_goal 1 => unfold x); (on_goal 2 => clear_value x))
    | ((fail_if_no_progress extract_lets +onlyGivenNames x); clear_value x)
    | (with_reducible first
        | exact Only.refl
        | assumption
        | refine (setClk_only _ _).after (by decide) ?_
        | refine (put_only _ _ _).after (by decide) ?_
        | refine Only.when _ _ (fun _ => ?_) ?_
        | refine Only.each _ _ (fun _ _ => ?_) ?_
        | refine (portSync_only _ _).after (by decide) ?_
        | refine Only.ite ?_ ?_)
    | split

theorem execClockSwitchRequest_only (m : ℕ) (src : ℕ) (s : State) :
    ∀ t', execClockSwitchRequest m src s = .next t' → Only 133009 s t' := by
  intro t' h
  unfold execClockSwitchRequest at h
  injection h with h
  subst h
  repeat' first
    | (with_reducible first
        | exact Only.refl
        | refine (switchTo_only _ _ _).after (by decide) ?_)

theorem execPllLock_only (p : ℕ) (s : State) :
    ∀ t', execPllLock p s = .next t' → Only 133009 s t' := by
  intro t' h
  unfold execPllLock at h
  injection h with h
  subst h
  repeat' first
    | ((fail_if_no_progress extract_lets +onlyGivenNames x); refine Only.letElim (x := x) ?_ (fun _ => ?_); (on_goal 1 => unfold x); (on_goal 2 => clear_value x))
    | ((fail_if_no_progress extract_lets +onlyGivenNames x); clear_value x)
    | (with_reducible first
        | exact Only.refl
        | assumption
        | refine (put_only _ _ _).after (by decide) ?_
        | refine (setClk_only _ _).after (by decide) ?_
        | refine (switchTo_only _ _ _).after (by decide) ?_
        | refine Only.ite ?_ ?_)

theorem execPllLockTimeout_only (p : ℕ) (s : State) :
    ∀ t', execPllLockTimeout p s = .next t' → Only 1 s t' := by
  intro t' h
  unfold execPllLockTimeout at h
  injection h with h
  subst h
  repeat' first
    | (with_reducible first
        | exact Only.refl
        | refine (put_only _ _ _).after (by decide) ?_
        | refine Only.ite ?_ ?_)

theorem execPllUnlock_only (p : ℕ) (s : State) :
    ∀ t', execPllUnlock p s = .next t' → Only 132625 s t' := by
  intro t' h
  unfold execPllUnlock at h
  injection h with h
  subst h
  repeat' first
    | ((fail_if_no_progress extract_lets +onlyGivenNames x); refine Only.letElim (x := x) ?_ (fun _ => ?_); (on_goal 1 => unfold x); (on_goal 2 => clear_value x))
    | ((fail_if_no_progress extract_lets +onlyGivenNames x); clear_value x)
    | (with_reducible first
        | exact Only.refl
        | assumption
        | refine (raise_only _ _).after (by decide) ?_
        | refine (put_only _ _ _).after (by decide) ?_
        | refine (setClk_only _ _).after (by decide) ?_
        | refine Only.ite ?_ ?_)

theorem execDividerChange_only (a : ℕ) (s : State) :
    ∀ t', execDividerChange a s = .next t' → Only 16 s t' := by
  intro t' h
  unfold execDividerChange at h
  injection h with h
  subst h
  repeat' first
    | ((fail_if_no_progress extract_lets +onlyGivenNames x); clear_value x)
    | (with_reducible first
        | exact Only.refl
        | refine Only.each _ _ (fun _ _ => ?_) ?_
        | refine (setClk_only _ _).after (by decide) ?_
        | refine (dividerStart_only _ _).after (by decide) ?_
        | refine Only.ite ?_ ?_)

theorem failover_only (s : State) (m : ℕ) :
    Only 133009 s (State.failover s m) := by
  unfold State.failover
  repeat' first
    | (with_reducible first
        | exact Only.refl
        | refine (switchTo_only _ _ _).after (by decide) ?_
        | refine Only.ite ?_ ?_)

theorem monFlags_only (s : State) (m : ℕ) (l : List Fld) :
    Only 133009 s (State.monFlags s m l) := by
  unfold State.monFlags
  repeat' first
    | ((fail_if_no_progress extract_lets +onlyGivenNames x); clear_value x)
    | (with_reducible first
        | exact Only.refl
        | refine Only.when _ _ (fun _ => ?_) ?_
        | refine (raise_only _ _).after (by decide) ?_
        | refine Only.each _ _ (fun _ _ => ?_) ?_
        | refine (put_only _ _ _).after (by decide) ?_
        | refine (failover_only _ _).after (by decide) ?_
        | refine Only.ite ?_ ?_)

theorem execClockMonitorWindow_only (m : ℕ) (c : ℕ) (s : State) :
    ∀ t', execClockMonitorWindow m c s = .next t' → Only 133009 s t' := by
  intro t' h
  unfold execClockMonitorWindow at h
  injection h with h
  subst h
  repeat' first
    | ((fail_if_no_progress extract_lets +onlyGivenNames x); refine Only.letElim (x := x) ?_ (fun _ => ?_); (on_goal 1 => unfold x); (on_goal 2 => clear_value x))
    | ((fail_if_no_progress extract_lets +onlyGivenNames x); clear_value x)
    | (with_reducible first
        | exact Only.refl
        | assumption
        | refine (put_only _ _ _).after (by decide) ?_
        | refine (monFlags_only _ _ _).after (by decide) ?_
        | refine Only.ite ?_ ?_)

theorem execClockAbsent_only (m : ℕ) (s : State) :
    ∀ t', execClockAbsent m s = .next t' → Only 133009 s t' := by
  intro t' h
  unfold execClockAbsent at h
  injection h with h
  subst h
  repeat' first
    | (with_reducible first
        | exact Only.refl
        | refine (monFlags_only _ _ _).after (by decide) ?_
        | refine Only.ite ?_ ?_)

end Sys2Proof.Machine
end

