-- ==== Sys2Proof/Laws/OnlyLaneRx.lean ====
section
/-! SUPPORT. Sys2Proof/Laws/OnlyLaneRx.lean: what the operations of Machine/LaneRx.lean leave alone (Laws/Only.lean): one lemma each. -/

set_option linter.unusedTactic false
set_option linter.tactic.unusedName false
set_option linter.unusedVariables false
set_option linter.unreachableTactic false

namespace Sys2Proof.Machine

theorem rxGroup_only (s : State) (n : ℕ) (l : ℕ) (g : ℕ) :
    Only 257 s (State.rxGroup s n l g).1 := by
  unfold State.rxGroup
  repeat' first
    | ((fail_if_no_progress extract_lets +onlyGivenNames x); refine Only.letElim (x := x) ?_ (fun _ => ?_); (on_goal 1 => unfold x); (on_goal 2 => clear_value x))
    | ((fail_if_no_progress extract_lets +onlyGivenNames x); clear_value x)
    | (with_reducible first
        | exact Only.refl
        | assumption
        | refine (setPort_only _ _ _).after (by decide) ?_
        | refine (satF_only _ _ _).after (by decide) ?_
        | refine Only.ite ?_ ?_)

theorem rxGroups_only (n l : Nat) (gs : List Nat) (s : State) : Only 257 s (rxGroups n l gs s).1 := by
  induction gs generalizing l s with
  | nil => exact Only.refl
  | cons g rest ih => exact ((rxGroup_only s n l g).mono (by decide)).trans (ih _ _)

theorem rxSlot_only (s : State) (n : ℕ) (slot : List ℕ) :
    Only 257 s (State.rxSlot s n slot).1 := by
  unfold State.rxSlot
  repeat' first
    | ((fail_if_no_progress extract_lets +onlyGivenNames x); refine Only.letElim (x := x.1) ?_ (fun _ => ?_); (on_goal 1 => unfold x); (on_goal 2 => clear_value x))
    | ((fail_if_no_progress extract_lets +onlyGivenNames x); (fail_if_success (have := fun y => x y)); (fail_if_success (have : CRes := x)); (fail_if_success (have : Security := x)); (fail_if_success (have : Hbm := x)); (fail_if_success (have : Option State := x)); clear_value x)
    | ((fail_if_no_progress extract_lets +onlyGivenNames x); (try unfold x); clear x)
    | (with_reducible first
        | exact Only.refl
        | assumption
        | refine (rxGroups_only _ _ _ _).after (by decide) ?_
        | refine (setPort_only _ _ _).after (by decide) ?_
        | refine Only.iteP ?_ ?_)

theorem rxSlots_only (n : Nat) (l : List (List Nat)) (s : State) : Only 257 s (rxSlots n l s).1 := by
  induction l generalizing s with
  | nil => exact Only.refl
  | cons x rest ih => exact ((rxSlot_only s n x).mono (by decide)).trans (ih _)

theorem discardOne_only (s : State) (n : ℕ) :
    Only 1 s (State.discardOne s n) := by
  unfold State.discardOne
  repeat' first
    | (with_reducible first
        | exact Only.refl
        | refine (satF_only _ _ _).after (by decide) ?_)

theorem rxRefuse_only (s : State) (n : ℕ) :
    Only 257 s (State.rxRefuse s n) := by
  unfold State.rxRefuse
  repeat' first
    | ((fail_if_no_progress extract_lets +onlyGivenNames x); refine Only.letElim (x := x) ?_ (fun _ => ?_); (on_goal 1 => unfold x); (on_goal 2 => clear_value x))
    | ((fail_if_no_progress extract_lets +onlyGivenNames x); clear_value x)
    | (with_reducible first
        | exact Only.refl
        | assumption
        | refine (discardOne_only _ _).after (by decide) ?_
        | refine (setPort_only _ _ _).after (by decide) ?_
        | refine Only.ite ?_ ?_)

theorem rxSeq_only (s : State) (n : ℕ) (lseq : ℕ) :
    Only 257 s (State.rxSeq s n lseq).1 := by
  unfold State.rxSeq
  repeat' first
    | ((fail_if_no_progress extract_lets +onlyGivenNames x); clear_value x)
    | (with_reducible first
        | exact Only.refl
        | refine (setPort_only _ _ _).after (by decide) ?_
        | refine (put_only _ _ _).after (by decide) ?_
        | refine (discardOne_only _ _).after (by decide) ?_
        | refine (rxRefuse_only _ _).after (by decide) ?_
        | refine Only.iteP ?_ ?_)

theorem ackTo_only (s : State) (n : ℕ) (ack : ℕ) :
    Only 257 s (State.ackTo s n ack) := by
  unfold State.ackTo
  repeat' first
    | ((fail_if_no_progress extract_lets +onlyGivenNames x); clear_value x)
    | (with_reducible first
        | exact Only.refl
        | refine (put_only _ _ _).after (by decide) ?_
        | refine (setPort_only _ _ _).after (by decide) ?_
        | refine Only.ite ?_ ?_)

theorem receive_only {m : Nat} (s : State) (n : Nat) (slots : List (List Nat)) (mine : RxEvt → Bool) (act : RxEvt → State → State)
    (ha : ∀ e t, Only m t (act e t)) (hm : 257 &&& m = 257) : Only m s (s.receive n slots mine act) := by
  unfold State.receive
  extract_lets r
  have hr : Only m s r.1 := ((rxSlots_only n slots s).mono (by decide : _ &&& 257 = _)).mono hm
  clear_value r
  split
  · refine Only.each _ _ (fun e t => ?_) hr
    split
    · exact Only.refl
    · split
      · exact ((rxRefuse_only _ _).mono (by decide : _ &&& 257 = _)).mono hm
      · exact ha _ _
  · exact Only.refl

end Sys2Proof.Machine
end

