-- ==== Sys2Proof/Laws/OnlyLaneTx.lean ====
section
/-! SUPPORT. Sys2Proof/Laws/OnlyLaneTx.lean: what the operations of Machine/LaneTx.lean leave alone (Laws/Only.lean): one lemma each. -/

set_option linter.unusedTactic false
set_option linter.tactic.unusedName false
set_option linter.unusedVariables false
set_option linter.unreachableTactic false

namespace Sys2Proof.Machine

theorem repNext_only (s : State) (n : ℕ) :
    Only 257 s (State.repNext s n) := by
  unfold State.repNext
  repeat' first
    | ((fail_if_no_progress extract_lets +onlyGivenNames x); clear_value x)
    | (with_reducible first
        | exact Only.refl
        | refine (satF_only _ _ _).after (by decide) ?_
        | refine (setPort_only _ _ _).after (by decide) ?_)
    | split

theorem insertSlots_only (s : State) (n : ℕ) (l : List (List Sym)) :
    Only 256 s (State.insertSlots s n l).1 := by
  unfold State.insertSlots
  repeat' first
    | ((fail_if_no_progress extract_lets +onlyGivenNames x); clear_value x)
    | (with_reducible first
        | exact Only.refl
        | refine (setPort_only _ _ _).after (by decide) ?_)

theorem statusOut_only (s : State) (n : ℕ) :
    Only 256 s (State.statusOut s n).1 := by
  unfold State.statusOut
  repeat' first
    | ((fail_if_no_progress extract_lets +onlyGivenNames x); clear_value x)
    | (with_reducible first
        | exact Only.refl
        | refine (setPort_only _ _ _).after (by decide) ?_)
    | split

theorem mirrorStart_only (s : State) (n : ℕ) :
    Only 256 s (State.mirrorStart s n) := by
  unfold State.mirrorStart
  repeat' first
    | ((fail_if_no_progress extract_lets +onlyGivenNames x); clear_value x)
    | (with_reducible first
        | exact Only.refl
        | refine (setPort_only _ _ _).after (by decide) ?_
        | refine Only.ite ?_ ?_)
    | split

theorem bulkOut_only (s : State) (n : ℕ) (c : TxBulk) :
    Only 257 s (State.bulkOut s n c).1 := by
  unfold State.bulkOut
  repeat' first
    | ((fail_if_no_progress extract_lets +onlyGivenNames x); refine Only.letElim (x := x.1) ?_ (fun _ => ?_); (on_goal 1 => unfold x); (on_goal 2 => clear_value x))
    | ((fail_if_no_progress extract_lets +onlyGivenNames x); clear_value x)
    | (with_reducible first
        | exact Only.refl
        | assumption
        | refine (setPort_only _ _ _).after (by decide) ?_
        | refine (assignSeq_only _ _ _).after (by decide) ?_
        | refine Only.iteP ?_ ?_)
    | split

theorem bulkDue_only (s : State) (n : ℕ) :
    Only 257 s (State.bulkDue s n).1 := by
  unfold State.bulkDue
  repeat' first
    | ((fail_if_no_progress extract_lets +onlyGivenNames x); clear_value x)
    | (with_reducible first
        | exact Only.refl
        | refine (bulkOut_only _ _ _).after (by decide) ?_
        | refine (repNext_only _ _).after (by decide) ?_)
    | split

theorem slotDue_only (s0 : State) (n : ℕ) :
    Only 257 s0 (State.slotDue s0 n).1 := by
  unfold State.slotDue
  repeat' first
    | ((fail_if_no_progress extract_lets +onlyGivenNames x); refine Only.letElim (x := x) ?_ (fun _ => ?_); (on_goal 1 => unfold x); (on_goal 2 => clear_value x))
    | ((fail_if_no_progress extract_lets +onlyGivenNames x); refine Only.letElim (x := x.1) ?_ (fun _ => ?_); (on_goal 1 => unfold x); (on_goal 2 => clear_value x))
    | ((fail_if_no_progress extract_lets +onlyGivenNames x); (fail_if_success (have := fun y => x y)); (fail_if_success (have : CRes := x)); (fail_if_success (have : Security := x)); (fail_if_success (have : Hbm := x)); (fail_if_success (have : Option State := x)); clear_value x)
    | ((fail_if_no_progress extract_lets +onlyGivenNames x); (try unfold x); clear x)
    | (with_reducible first
        | exact Only.refl
        | assumption
        | refine (mirrorStart_only _ _).after (by decide) ?_
        | refine (setPort_only _ _ _).after (by decide) ?_
        | refine (insertSlots_only _ _ _).after (by decide) ?_
        | refine (repNext_only _ _).after (by decide) ?_
        | refine (assignSeq_only _ _ _).after (by decide) ?_
        | refine (useCredit_only _ _ _).after (by decide) ?_
        | refine (statusOut_only _ _).after (by decide) ?_
        | refine (bulkDue_only _ _).after (by decide) ?_
        | refine Only.iteP ?_ ?_)
    | split

theorem slotNext_only (s : State) (n : ℕ) :
    Only 257 s (State.slotNext s n).1 := by
  unfold State.slotNext
  repeat' first
    | ((fail_if_no_progress extract_lets +onlyGivenNames x); clear_value x)
    | (with_reducible first
        | exact Only.refl
        | refine (setPort_only _ _ _).after (by decide) ?_
        | refine (slotDue_only _ _).after (by decide) ?_)
    | split

theorem putSlot_only (s : State) (n : ℕ) (f : ℕ → Sym) :
    Only 256 s (State.putSlot s n f) := by
  unfold State.putSlot
  repeat' first
    | ((fail_if_no_progress extract_lets +onlyGivenNames x); clear_value x)
    | (with_reducible first
        | exact Only.refl
        | refine (setPort_only _ _ _).after (by decide) ?_)

theorem slotPass_only (s : State) (n : ℕ) :
    Only 256 s (State.slotPass s n) := by
  unfold State.slotPass
  repeat' first
    | ((fail_if_no_progress extract_lets +onlyGivenNames x); clear_value x)
    | (with_reducible first
        | exact Only.refl
        | refine (setPort_only _ _ _).after (by decide) ?_)

theorem tsPass_only (s : State) (n : ℕ) :
    Only 256 s (State.tsPass s n) := by
  unfold State.tsPass
  repeat' first
    | ((fail_if_no_progress extract_lets +onlyGivenNames x); clear_value x)
    | (with_reducible first
        | exact Only.refl
        | refine (setPort_only _ _ _).after (by decide) ?_)

theorem txSlot_only (s0 : State) (n : ℕ) :
    Only 257 s0 (State.txSlot s0 n) := by
  unfold State.txSlot
  repeat' first
    | ((fail_if_no_progress extract_lets +onlyGivenNames x); refine Only.letElim (x := x) ?_ (fun _ => ?_); (on_goal 1 => unfold x); (on_goal 2 => clear_value x))
    | ((fail_if_no_progress extract_lets +onlyGivenNames x); refine Only.letElim (x := x.1) ?_ (fun _ => ?_); (on_goal 1 => unfold x); (on_goal 2 => clear_value x))
    | ((fail_if_no_progress extract_lets +onlyGivenNames x); clear_value x)
    | (with_reducible first
        | exact Only.refl
        | assumption
        | refine (slotPass_only _ _).after (by decide) ?_
        | refine (slotNext_only _ _).after (by decide) ?_
        | refine (putSlot_only _ _ _).after (by decide) ?_
        | refine (tsPass_only _ _).after (by decide) ?_
        | refine (setPort_only _ _ _).after (by decide) ?_
        | refine Only.ite ?_ ?_)

theorem txPort_only (s : State) (n : ℕ) :
    Only 257 s (State.txPort s n) := by
  unfold State.txPort
  repeat' first
    | ((fail_if_no_progress extract_lets +onlyGivenNames x); refine Only.letElim (x := x) ?_ (fun _ => ?_); (on_goal 1 => unfold x); (on_goal 2 => clear_value x))
    | ((fail_if_no_progress extract_lets +onlyGivenNames x); clear_value x)
    | (with_reducible first
        | exact Only.refl
        | assumption
        | refine (setPort_only _ _ _).after (by decide) ?_
        | refine Only.each _ _ (fun _ _ => ?_) ?_
        | refine (txSlot_only _ _).after (by decide) ?_
        | refine Only.ite ?_ ?_)

theorem txTick_only (s : State) :
    Only 257 s (State.txTick s) := by
  unfold State.txTick
  repeat' first
    | (with_reducible first
        | exact Only.refl
        | refine Only.each _ _ (fun _ _ => ?_) ?_
        | refine (txPort_only _ _).after (by decide) ?_)

end Sys2Proof.Machine
end

