-- ==== Sys2Proof/Laws/OnlyGleis.lean ====
section
/-! SUPPORT. Sys2Proof/Laws/OnlyGleis.lean: what the operations of Machine/Gleis.lean leave alone (Laws/Only.lean): one lemma each. -/

set_option linter.unusedTactic false
set_option linter.tactic.unusedName false
set_option linter.unusedVariables false
set_option linter.unreachableTactic false

namespace Sys2Proof.Machine

theorem acceptBulk_only (s : State) (n : ℕ) (es : List Entry) :
    Only 256 s (State.acceptBulk s n es) := by
  unfold State.acceptBulk
  repeat' first
    | ((fail_if_no_progress extract_lets +onlyGivenNames x); clear_value x)
    | (with_reducible first
        | exact Only.refl
        | refine Only.each _ _ (fun _ _ => ?_) ?_
        | refine (setBulkPool_only _ _ _ _).after (by decide) ?_)

theorem execBulkFrame_only (n : ℕ) (slots : List (List ℕ)) (s : State) :
    ∀ t', execBulkFrame n slots s = .next t' → Only 257 s t' := by
  intro t' h
  unfold execBulkFrame at h
  injection h with h
  subst h
  repeat' first
    | ((fail_if_no_progress extract_lets +onlyGivenNames x); refine Only.letElim (x := x.1) ?_ (fun _ => ?_); (on_goal 1 => unfold x); (on_goal 2 => clear_value x))
    | (with_reducible first
        | exact Only.refl
        | assumption
        | refine Only.trans ?_ (receive_only _ _ _ _ _ (fun _ _ => ?_) (by decide))
        | refine (rxSeq_only _ _ _).after (by decide) ?_
        | refine (ackTo_only _ _ _).after (by decide) ?_
        | refine (acceptBulk_only _ _ _).after (by decide) ?_
        | refine Only.ite ?_ ?_)
    | split

theorem execBulkFrameBuild_only (n : ℕ) (s : State) :
    ∀ t', execBulkFrameBuild n s = .next t' → Only 256 s t' := by
  intro t' h
  unfold execBulkFrameBuild at h
  injection h with h
  subst h
  repeat' first
    | ((fail_if_no_progress extract_lets +onlyGivenNames x); clear_value x)
    | (with_reducible first
        | exact Only.refl
        | refine (useCredit_only _ _ _).after (by decide) ?_
        | refine (setPort_only _ _ _).after (by decide) ?_
        | refine Only.ite ?_ ?_)
    | split

theorem poolCheck_only (s : State) (n : ℕ) (e : Ecc) (hdr : Bool) :
    Only 137089 s (State.poolCheck s n e hdr).1 := by
  unfold State.poolCheck
  repeat' first
    | ((fail_if_no_progress extract_lets +onlyGivenNames x); refine Only.letElim (x := x) ?_ (fun _ => ?_); (on_goal 1 => unfold x); (on_goal 2 => clear_value x))
    | ((fail_if_no_progress extract_lets +onlyGivenNames x); clear_value x)
    | (with_reducible first
        | exact Only.refl
        | assumption
        | refine (portDown_only _ _ _).after (by decide) ?_
        | refine (setPort_only _ _ _).after (by decide) ?_
        | refine (glsEvt_only _ _ _ _).after (by decide) ?_
        | refine (leafEvent_only _ _ _ _).after (by decide) ?_
        | refine (latSettle_only _).after (by decide) ?_
        | refine Only.iteP ?_ ?_)
    | split

theorem execTransitForward_only (n : ℕ) (p : ℕ) (e : Ecc) (hdr : Bool) (s : State) :
    ∀ t', execTransitForward n p e hdr s = .next t' → Only 137089 s t' := by
  intro t' h
  unfold execTransitForward at h
  injection h with h
  subst h
  repeat' first
    | ((fail_if_no_progress extract_lets +onlyGivenNames x); refine Only.letElim (x := x.1) ?_ (fun _ => ?_); (on_goal 1 => unfold x); (on_goal 2 => clear_value x))
    | ((fail_if_no_progress extract_lets +onlyGivenNames x); clear_value x)
    | (with_reducible first
        | exact Only.refl
        | assumption
        | refine (routeInvalid_only _ _ _).after (by decide) ?_
        | refine (poolCheck_only _ _ _ _).after (by decide) ?_
        | refine (enqBulk_only _ _ _ _ _ (by assumption)).after (by decide) ?_
        | refine (poolFree_only _ _ _ _).after (by decide) ?_
        | refine (setBulkPool_only _ _ _ _).after (by decide) ?_
        | refine (enqUrgent_only _ _ _ _ _ (by assumption)).after (by decide) ?_
        | refine (setUrgPool_only _ _ _ _).after (by decide) ?_
        | refine Only.ite ?_ ?_)
    | split

theorem statusIn_only (s : State) (n : ℕ) :
    Only 256 s (State.statusIn s n) := by
  unfold State.statusIn
  repeat' first
    | ((fail_if_no_progress extract_lets +onlyGivenNames x); clear_value x)
    | (with_reducible first
        | exact Only.refl
        | refine (setPort_only _ _ _).after (by decide) ?_)

theorem execCreditSlot_only (n : ℕ) (slots : List (List ℕ)) (s : State) :
    ∀ t', execCreditSlot n slots s = .next t' → Only 257 s t' := by
  intro t' h
  unfold execCreditSlot at h
  injection h with h
  subst h
  repeat' first
    | ((fail_if_no_progress extract_lets +onlyGivenNames x); refine Only.letElim (x := x) ?_ (fun _ => ?_); (on_goal 1 => unfold x); (on_goal 2 => clear_value x))
    | ((fail_if_no_progress extract_lets +onlyGivenNames x); clear_value x)
    | (with_reducible first
        | exact Only.refl
        | assumption
        | refine Only.trans ?_ (receive_only _ _ _ _ _ (fun _ _ => ?_) (by decide))
        | refine (statusIn_only _ _).after (by decide) ?_
        | refine (ackTo_only _ _ _).after (by decide) ?_
        | refine (setPort_only _ _ _).after (by decide) ?_)
    | split

theorem replay_only (s : State) (n : ℕ) (q : ℕ) (ue : List ℕ) (hdr : Bool) :
    Only 137089 s (State.replay s n q ue hdr) := by
  unfold State.replay
  repeat' first
    | ((fail_if_no_progress extract_lets +onlyGivenNames x); clear_value x)
    | (with_reducible first
        | exact Only.refl
        | refine (latSettle_only _).after (by decide) ?_
        | refine (portDown_only _ _ _).after (by decide) ?_
        | refine (setPort_only _ _ _).after (by decide) ?_
        | refine (glsEvt_only _ _ _ _).after (by decide) ?_
        | refine (leafEvent_only _ _ _ _).after (by decide) ?_
        | refine Only.ite ?_ ?_)

theorem execRetryRequest_only (n : ℕ) (slots : List (List ℕ)) (ue : List ℕ) (hdr : Bool) (s : State) :
    ∀ t', execRetryRequest n slots ue hdr s = .next t' → Only 137089 s t' := by
  intro t' h
  unfold execRetryRequest at h
  injection h with h
  subst h
  repeat' first
    | (with_reducible first
        | exact Only.refl
        | refine Only.trans ?_ (receive_only _ _ _ _ _ (fun _ _ => ?_) (by decide))
        | refine (replay_only _ _ _ _ _).after (by decide) ?_
        | refine Only.ite ?_ ?_)
    | split

theorem execRetryTimeout_only (n : ℕ) (s : State) :
    ∀ t', execRetryTimeout n s = .next t' → Only 256 s t' := by
  intro t' h
  unfold execRetryTimeout at h
  injection h with h
  subst h
  repeat' first
    | ((fail_if_no_progress extract_lets +onlyGivenNames x); clear_value x)
    | (with_reducible first
        | exact Only.refl
        | refine (setPort_only _ _ _).after (by decide) ?_
        | refine Only.ite ?_ ?_)

theorem execReplayTimeout_only (n : ℕ) (ue : List ℕ) (hdr : Bool) (s : State) :
    ∀ t', execReplayTimeout n ue hdr s = .next t' → Only 137089 s t' := by
  intro t' h
  unfold execReplayTimeout at h
  injection h with h
  subst h
  repeat' first
    | (with_reducible first
        | exact Only.refl
        | refine (replay_only _ _ _ _ _).after (by decide) ?_
        | refine Only.ite ?_ ?_)
    | split

theorem laneRole_only (s : State) (n : ℕ) (k : ℕ) (role : ℕ) (carry : ℕ) :
    Only 1 s (State.laneRole s n k role carry) := by
  unfold State.laneRole
  repeat' first
    | (with_reducible first
        | exact Only.refl
        | refine (put_only _ _ _).after (by decide) ?_)

theorem showFit_only (s : State) (n : ℕ) :
    Only 1 s (State.showFit s n) := by
  unfold State.showFit
  repeat' first
    | (with_reducible first
        | exact Only.refl
        | refine Only.each _ _ (fun _ _ => ?_) ?_
        | refine (put_only _ _ _).after (by decide) ?_)

theorem askMove_only (s : State) (n : ℕ) (k : ℕ) (back : Bool) :
    Only 256 s (State.askMove s n k back) := by
  unfold State.askMove
  repeat' first
    | ((fail_if_no_progress extract_lets +onlyGivenNames x); clear_value x)
    | (with_reducible first
        | exact Only.refl
        | refine (setPort_only _ _ _).after (by decide) ?_)

theorem autoMove_only (s : State) (n : ℕ) (k : ℕ) :
    ∀ t, State.autoMove s n k = some t → Only 256 s t := by
  intro t h
  unfold State.autoMove at h
  try dsimp only at h
  repeat' split at h
  all_goals first
    | contradiction
    | (injection h with h; subst h
       repeat' first
         | (with_reducible first
             | exact Only.refl
             | refine (askMove_only _ _ _ _).after (by decide) ?_))

theorem spareIn_only {m : Nat} (s : State) (n : Nat) (slots : List (List Nat)) (op : Nat) (act : Nat → State → State)
    (ha : ∀ k t, Only m t (act k t)) (hm : 257 &&& m = 257) : Only m s (s.spareIn n slots op act) := by
  refine receive_only _ _ _ _ _ (fun e t => ?_) (land_sub (by decide) hm)
  split
  · have h1 : Only m t (t.statusIn n) := ((statusIn_only _ _).mono (by decide : _ &&& 257 = _)).mono hm
    dsimp only
    split
    · exact h1.trans (ha _ _)
    · exact h1
  · exact Only.refl

theorem spareOver_only (s : State) (n : ℕ) (op : ℕ) (k : ℕ) :
    Only 256 s (State.spareOver s n op k) := by
  unfold State.spareOver
  repeat' first
    | ((fail_if_no_progress extract_lets +onlyGivenNames x); clear_value x)
    | (with_reducible first
        | exact Only.refl
        | refine (setPort_only _ _ _).after (by decide) ?_)

theorem spareSend_only (s : State) (n : ℕ) (op : ℕ) (k : ℕ) :
    Only 256 s (State.spareSend s n op k) := by
  unfold State.spareSend
  repeat' first
    | ((fail_if_no_progress extract_lets +onlyGivenNames x); clear_value x)
    | (with_reducible first
        | exact Only.refl
        | refine (setPort_only _ _ _).after (by decide) ?_)

theorem execSpareReq_only (n : ℕ) (slots : List (List ℕ)) (s : State) :
    ∀ t', execSpareReq n slots s = .next t' → Only 257 s t' := by
  intro t' h
  unfold execSpareReq at h
  injection h with h
  subst h
  repeat' first
    | ((fail_if_no_progress extract_lets +onlyGivenNames x); clear_value x)
    | (with_reducible first
        | exact Only.refl
        | refine Only.trans ?_ (spareIn_only _ _ _ _ _ (fun _ _ => ?_) (by decide))
        | refine (setPort_only _ _ _).after (by decide) ?_
        | refine Only.ite ?_ ?_)

theorem execSpareMirror_only (n : ℕ) (slots : List (List ℕ)) (s : State) :
    ∀ t', execSpareMirror n slots s = .next t' → Only 132865 s t' := by
  intro t' h
  unfold execSpareMirror at h
  injection h with h
  subst h
  repeat' first
    | ((fail_if_no_progress extract_lets +onlyGivenNames x); refine Only.letElim (x := x) ?_ (fun _ => ?_); (on_goal 1 => unfold x); (on_goal 2 => clear_value x))
    | ((fail_if_no_progress extract_lets +onlyGivenNames x); clear_value x)
    | (with_reducible first
        | exact Only.refl
        | assumption
        | refine Only.trans ?_ (spareIn_only _ _ _ _ _ (fun _ _ => ?_) (by decide))
        | refine (spareOver_only _ _ _ _).after (by decide) ?_
        | refine (setPort_only _ _ _).after (by decide) ?_
        | refine (glsEvt_only _ _ _ _).after (by decide) ?_
        | refine (spareSend_only _ _ _ _).after (by decide) ?_
        | refine (laneRole_only _ _ _ _ _).after (by decide) ?_
        | refine (put_only _ _ _).after (by decide) ?_
        | refine Only.ite ?_ ?_)

theorem execSpareAck_only (n : ℕ) (slots : List (List ℕ)) (s : State) :
    ∀ t', execSpareAck n slots s = .next t' → Only 132865 s t' := by
  intro t' h
  unfold execSpareAck at h
  injection h with h
  subst h
  repeat' first
    | ((fail_if_no_progress extract_lets +onlyGivenNames x); clear_value x)
    | (with_reducible first
        | exact Only.refl
        | refine Only.trans ?_ (spareIn_only _ _ _ _ _ (fun _ _ => ?_) (by decide))
        | refine (glsEvt_only _ _ _ _).after (by decide) ?_
        | refine (put_only _ _ _).after (by decide) ?_
        | refine (spareOver_only _ _ _ _).after (by decide) ?_
        | refine (setPort_only _ _ _).after (by decide) ?_
        | refine Only.ite ?_ ?_)

theorem execSpareRetReq_only (n : ℕ) (slots : List (List ℕ)) (s : State) :
    ∀ t', execSpareRetReq n slots s = .next t' → Only 257 s t' := by
  intro t' h
  unfold execSpareRetReq at h
  injection h with h
  subst h
  repeat' first
    | ((fail_if_no_progress extract_lets +onlyGivenNames x); clear_value x)
    | (with_reducible first
        | exact Only.refl
        | refine Only.trans ?_ (spareIn_only _ _ _ _ _ (fun _ _ => ?_) (by decide))
        | refine (setPort_only _ _ _).after (by decide) ?_
        | refine Only.ite ?_ ?_)

theorem execSpareRetMirror_only (n : ℕ) (slots : List (List ℕ)) (s : State) :
    ∀ t', execSpareRetMirror n slots s = .next t' → Only 132865 s t' := by
  intro t' h
  unfold execSpareRetMirror at h
  injection h with h
  subst h
  repeat' first
    | ((fail_if_no_progress extract_lets +onlyGivenNames x); refine Only.letElim (x := x) ?_ (fun _ => ?_); (on_goal 1 => unfold x); (on_goal 2 => clear_value x))
    | ((fail_if_no_progress extract_lets +onlyGivenNames x); clear_value x)
    | (with_reducible first
        | exact Only.refl
        | assumption
        | refine Only.trans ?_ (spareIn_only _ _ _ _ _ (fun _ _ => ?_) (by decide))
        | refine (spareOver_only _ _ _ _).after (by decide) ?_
        | refine (setPort_only _ _ _).after (by decide) ?_
        | refine (glsEvt_only _ _ _ _).after (by decide) ?_
        | refine (spareSend_only _ _ _ _).after (by decide) ?_
        | refine (laneRole_only _ _ _ _ _).after (by decide) ?_
        | refine (put_only _ _ _).after (by decide) ?_
        | refine Only.ite ?_ ?_)

theorem execSpareRetAck_only (n : ℕ) (slots : List (List ℕ)) (s : State) :
    ∀ t', execSpareRetAck n slots s = .next t' → Only 132865 s t' := by
  intro t' h
  unfold execSpareRetAck at h
  injection h with h
  subst h
  repeat' first
    | ((fail_if_no_progress extract_lets +onlyGivenNames x); clear_value x)
    | (with_reducible first
        | exact Only.refl
        | refine Only.trans ?_ (spareIn_only _ _ _ _ _ (fun _ _ => ?_) (by decide))
        | refine (glsEvt_only _ _ _ _).after (by decide) ?_
        | refine (put_only _ _ _).after (by decide) ?_
        | refine (spareOver_only _ _ _ _).after (by decide) ?_
        | refine (setPort_only _ _ _).after (by decide) ?_
        | refine Only.ite ?_ ?_)

theorem spareRefuse_only (s : State) (n : ℕ) :
    Only 132609 s (State.spareRefuse s n) := by
  unfold State.spareRefuse
  repeat' first
    | (with_reducible first
        | exact Only.refl
        | refine (glsEvt_only _ _ _ _).after (by decide) ?_
        | refine (put_only _ _ _).after (by decide) ?_)

theorem spareGoOp_only (s : State) (n : ℕ) (lane : ℕ) :
    Only 132865 s (State.spareGoOp s n lane) := by
  unfold State.spareGoOp
  repeat' first
    | ((fail_if_no_progress extract_lets +onlyGivenNames x); clear_value x)
    | (with_reducible first
        | exact Only.refl
        | refine (spareRefuse_only _ _).after (by decide) ?_
        | refine (askMove_only _ _ _ _).after (by decide) ?_
        | refine Only.ite ?_ ?_)

theorem execSpareGo_only (n : ℕ) (lane : ℕ) (s : State) :
    ∀ t', execSpareGo n lane s = .next t' → Only 132865 s t' := by
  intro t' h
  unfold execSpareGo at h
  injection h with h
  subst h
  repeat' first
    | (with_reducible first
        | exact Only.refl
        | refine toBlock_only _ _ (fun _ => ?_) ?_
        | refine (spareGoOp_only _ _ _).after (by decide) ?_
        | refine (put_only _ _ _).after (by decide) ?_)

theorem execRecal_only (n : ℕ) (l : ℕ) (s : State) :
    ∀ t', execRecal n l s = .next t' → Only 257 s t' := by
  intro t' h
  unfold execRecal at h
  injection h with h
  subst h
  repeat' first
    | ((fail_if_no_progress extract_lets +onlyGivenNames x); clear_value x)
    | (with_reducible first
        | exact Only.refl
        | refine toBlock_only _ _ (fun _ => ?_) ?_
        | refine (showFit_only _ _).after (by decide) ?_
        | refine (setPort_only _ _ _).after (by decide) ?_
        | refine Only.ite ?_ ?_)

theorem eyeAbort_only (s : State) (n : ℕ) :
    Only 132609 s (State.eyeAbort s n) := by
  unfold State.eyeAbort
  repeat' first
    | (with_reducible first
        | exact Only.refl
        | refine (glsEvt_only _ _ _ _).after (by decide) ?_
        | refine (put_only _ _ _).after (by decide) ?_)

theorem execLossOfSignal_only (n l : Nat) (s : State) : ∀ t', execLossOfSignal n l s = .next t' → Only 132993 s t' := by
  intro t' h
  unfold execLossOfSignal at h
  injection h with h
  subst h
  extract_lets role s1 s2 k
  have h1 : Only 132993 s s1 := (showFit_only _ _).after (by decide)
    ((put_only _ _ _).after (by decide) ((put_only _ _ _).after (by decide) ((put_only _ _ _).mono (by decide))))
  have h2 : Only 132993 s s2 := by
    unfold s2
    split
    · exact (eyeAbort_only _ _).after (by decide) h1
    · exact h1
  clear_value s2
  split
  · split
    · exact h2
    · split
      · rename_i e
        split at e
        · exact h2.trans ((autoMove_only _ _ _ _ e).mono (by decide))
        · contradiction
      · exact (latSettle_only _).after (by decide) ((portDown_only _ _ _).after (by decide) h2)
  · exact h2

theorem execDegradeWindow_only (n : ℕ) (s : State) :
    ∀ t', execDegradeWindow n s = .next t' → Only 132865 s t' := by
  intro t' h
  unfold execDegradeWindow at h
  injection h with h
  subst h
  repeat' first
    | ((fail_if_no_progress extract_lets +onlyGivenNames x); refine Only.letElim (x := x) ?_ (fun _ => ?_); (on_goal 1 => unfold x); (on_goal 2 => clear_value x))
    | ((fail_if_no_progress extract_lets +onlyGivenNames x); (fail_if_success (have := fun y => x y)); (fail_if_success (have : CRes := x)); (fail_if_success (have : Security := x)); (fail_if_success (have : Hbm := x)); (fail_if_success (have : Option State := x)); clear_value x)
    | ((fail_if_no_progress extract_lets +onlyGivenNames x); (try unfold x); clear x)
    | (with_reducible first
        | exact Only.refl
        | assumption
        | refine (showFit_only _ _).after (by decide) ?_
        | refine (setPort_only _ _ _).after (by decide) ?_
        | refine Only.each _ _ (fun _ _ => ?_) ?_
        | refine (glsEvt_only _ _ _ _).after (by decide) ?_
        | refine Only.getD ?_ (fun _ h => (autoMove_only _ _ _ _ h).mono (by decide))
        | refine Only.ite ?_ ?_)

theorem trainState_only (s : State) (n : ℕ) (st : ℕ) :
    Only 257 s (State.trainState s n st) := by
  unfold State.trainState
  repeat' first
    | ((fail_if_no_progress extract_lets +onlyGivenNames x); clear_value x)
    | (with_reducible first
        | exact Only.refl
        | refine (portState_only _ _ _).after (by decide) ?_
        | refine (setPort_only _ _ _).after (by decide) ?_)

theorem trainFail_only (s : State) (n : ℕ) (cause : ℕ) :
    Only 132865 s (State.trainFail s n cause) := by
  unfold State.trainFail
  repeat' first
    | (with_reducible first
        | exact Only.refl
        | refine (glsEvt_only _ _ _ _).after (by decide) ?_
        | refine (portState_only _ _ _).after (by decide) ?_
        | refine (satF_only _ _ _).after (by decide) ?_
        | refine (put_only _ _ _).after (by decide) ?_
        | refine (setPort_only _ _ _).after (by decide) ?_)

theorem execSignalDetect_only (n : ℕ) (seen : ℕ) (s : State) :
    ∀ t', execSignalDetect n seen s = .next t' → Only 257 s t' := by
  intro t' h
  unfold execSignalDetect at h
  injection h with h
  subst h
  repeat' first
    | ((fail_if_no_progress extract_lets +onlyGivenNames x); refine Only.letElim (x := x) ?_ (fun _ => ?_); (on_goal 1 => unfold x); (on_goal 2 => clear_value x))
    | ((fail_if_no_progress extract_lets +onlyGivenNames x); clear_value x)
    | (with_reducible first
        | exact Only.refl
        | assumption
        | refine Only.each _ _ (fun _ _ => ?_) ?_
        | refine (put_only _ _ _).after (by decide) ?_
        | refine (trainState_only _ _ _).after (by decide) ?_
        | refine (setPort_only _ _ _).after (by decide) ?_
        | refine Only.ite ?_ ?_)

theorem execLanesAligned_only (n : ℕ) (mask : ℕ) (inv : ℕ) (s : State) :
    ∀ t', execLanesAligned n mask inv s = .next t' → Only 257 s t' := by
  intro t' h
  unfold execLanesAligned at h
  injection h with h
  subst h
  repeat' first
    | ((fail_if_no_progress extract_lets +onlyGivenNames x); refine Only.letElim (x := x) ?_ (fun _ => ?_); (on_goal 1 => unfold x); (on_goal 2 => clear_value x))
    | (with_reducible first
        | exact Only.refl
        | assumption
        | refine Only.each _ _ (fun _ _ => ?_) ?_
        | refine (put_only _ _ _).after (by decide) ?_
        | refine (trainState_only _ _ _).after (by decide) ?_
        | refine Only.ite ?_ ?_)

theorem execAdaptDone_only (n : ℕ) (codes : List ℕ) (s : State) :
    ∀ t', execAdaptDone n codes s = .next t' → Only 257 s t' := by
  intro t' h
  unfold execAdaptDone at h
  injection h with h
  subst h
  repeat' first
    | (with_reducible first
        | exact Only.refl
        | refine (trainState_only _ _ _).after (by decide) ?_
        | refine Only.each _ _ (fun _ _ => ?_) ?_
        | refine (put_only _ _ _).after (by decide) ?_
        | refine Only.ite ?_ ?_)

theorem trainLane_only (s : State) (n : ℕ) (l : ℕ) (gs : List ℕ) :
    Only 257 s (State.trainLane s n l gs).1 := by
  unfold State.trainLane
  repeat' first
    | ((fail_if_no_progress extract_lets +onlyGivenNames x); refine Only.letElim (x := x.1) ?_ (fun _ => ?_); (on_goal 1 => unfold x); (on_goal 2 => clear_value x))
    | ((fail_if_no_progress extract_lets +onlyGivenNames x); (try unfold x); clear x)
    | (with_reducible first
        | exact Only.refl
        | assumption
        | refine (rxGroup_only _ _ _ _).after (by decide) ?_
        | refine (put_only _ _ _).after (by decide) ?_
        | refine Only.ite ?_ ?_
        | refine Only.foldlP _ (fun _ _ => ?_) _ _ ?_)

theorem trainRx_only (s : State) (n : ℕ) (lanes : List (List ℕ)) :
    Only 257 s (State.trainRx s n lanes).1 := by
  unfold State.trainRx
  repeat' first
    | ((fail_if_no_progress extract_lets +onlyGivenNames x); refine Only.letElim (x := x.1) ?_ (fun _ => ?_); (on_goal 1 => unfold x); (on_goal 2 => clear_value x))
    | (with_reducible first
        | exact Only.refl
        | assumption
        | refine (trainLane_only _ _ _ _).after (by decide) ?_
        | refine Only.foldlP _ (fun _ _ => ?_) _ _ ?_)

theorem linkUp_only (s : State) (n : ℕ) :
    Only 132993 s (State.linkUp s n) := by
  unfold State.linkUp
  repeat' first
    | ((fail_if_no_progress extract_lets +onlyGivenNames x); refine Only.letElim (x := x) ?_ (fun _ => ?_); (on_goal 1 => unfold x); (on_goal 2 => clear_value x))
    | ((fail_if_no_progress extract_lets +onlyGivenNames x); clear_value x)
    | (with_reducible first
        | exact Only.refl
        | assumption
        | refine (put_only _ _ _).after (by decide) ?_
        | refine (portState_only _ _ _).after (by decide) ?_
        | refine Only.each _ _ (fun _ _ => ?_) ?_
        | refine (laneRole_only _ _ _ _ _).after (by decide) ?_
        | refine (showFit_only _ _).after (by decide) ?_
        | refine (setPort_only _ _ _).after (by decide) ?_
        | refine (askMove_only _ _ _ _).after (by decide) ?_
        | refine (glsEvt_only _ _ _ _).after (by decide) ?_
        | refine (ackTo_only _ _ _).after (by decide) ?_
        | refine (latSettle_only _).after (by decide) ?_
        | refine (latPump_only _).after (by decide) ?_
        | refine Only.ite ?_ ?_)
    | split

theorem identRx_only (s : State) (n : ℕ) (t : TrainSeq) :
    Only 132865 s (State.identRx s n t) := by
  unfold State.identRx
  repeat' first
    | ((fail_if_no_progress extract_lets +onlyGivenNames x); refine Only.letElim (x := x) ?_ (fun _ => ?_); (on_goal 1 => unfold x); (on_goal 2 => clear_value x))
    | ((fail_if_no_progress extract_lets +onlyGivenNames x); clear_value x)
    | (with_reducible first
        | exact Only.refl
        | assumption
        | refine (trainFail_only _ _ _).after (by decide) ?_
        | refine (put_only _ _ _).after (by decide) ?_
        | refine (setPort_only _ _ _).after (by decide) ?_
        | refine (portRestart_only _ _).after (by decide) ?_
        | refine (trainState_only _ _ _).after (by decide) ?_
        | refine Only.ite ?_ ?_)

theorem deskewRx_only (s : State) (n : ℕ) (t : TrainSeq) :
    Only 132865 s (State.deskewRx s n t) := by
  unfold State.deskewRx
  repeat' first
    | ((fail_if_no_progress extract_lets +onlyGivenNames x); (fail_if_success (have := fun y => x y)); (fail_if_success (have : CRes := x)); (fail_if_success (have : Security := x)); (fail_if_success (have : Hbm := x)); (fail_if_success (have : Option State := x)); clear_value x)
    | ((fail_if_no_progress extract_lets +onlyGivenNames x); (try unfold x); clear x)
    | (with_reducible first
        | exact Only.refl
        | refine (trainFail_only _ _ _).after (by decide) ?_
        | refine (trainState_only _ _ _).after (by decide) ?_
        | refine Only.each _ _ (fun _ _ => ?_) ?_
        | refine (put_only _ _ _).after (by decide) ?_
        | refine Only.ite ?_ ?_)

theorem checkRx_only (s : State) (n : ℕ) (t : TrainSeq) :
    Only 132993 s (State.checkRx s n t) := by
  unfold State.checkRx
  repeat' first
    | ((fail_if_no_progress extract_lets +onlyGivenNames x); refine Only.letElim (x := x) ?_ (fun _ => ?_); (on_goal 1 => unfold x); (on_goal 2 => clear_value x))
    | ((fail_if_no_progress extract_lets +onlyGivenNames x); clear_value x)
    | (with_reducible first
        | exact Only.refl
        | assumption
        | refine (setPort_only _ _ _).after (by decide) ?_
        | refine (linkUp_only _ _).after (by decide) ?_
        | refine Only.ite ?_ ?_)

theorem execTrainingSequence_only (n : ℕ) (lanes : List (List ℕ)) (s : State) :
    ∀ t', execTrainingSequence n lanes s = .next t' → Only 132993 s t' := by
  intro t' h
  unfold execTrainingSequence at h
  injection h with h
  subst h
  repeat' first
    | ((fail_if_no_progress extract_lets +onlyGivenNames x); refine Only.letElim (x := x.1) ?_ (fun _ => ?_); (on_goal 1 => unfold x); (on_goal 2 => clear_value x))
    | ((fail_if_no_progress extract_lets +onlyGivenNames x); clear_value x)
    | (with_reducible first
        | exact Only.refl
        | assumption
        | refine (trainRx_only _ _ _).after (by decide) ?_
        | refine (latSettle_only _).after (by decide) ?_
        | refine (portDown_only _ _ _).after (by decide) ?_
        | refine (identRx_only _ _ _).after (by decide) ?_
        | refine (deskewRx_only _ _ _).after (by decide) ?_
        | refine (checkRx_only _ _ _).after (by decide) ?_
        | refine Only.ite ?_ ?_)
    | split

theorem execTrainingTimeout_only (n : ℕ) (s : State) :
    ∀ t', execTrainingTimeout n s = .next t' → Only 132865 s t' := by
  intro t' h
  unfold execTrainingTimeout at h
  injection h with h
  subst h
  repeat' first
    | (with_reducible first
        | exact Only.refl
        | refine (trainFail_only _ _ _).after (by decide) ?_)
    | split

theorem execBackoffEnd_only (n : ℕ) (s : State) :
    ∀ t', execBackoffEnd n s = .next t' → Only 1 s t' := by
  intro t' h
  unfold execBackoffEnd at h
  injection h with h
  subst h
  repeat' first
    | (with_reducible first
        | exact Only.refl
        | refine (portState_only _ _ _).after (by decide) ?_
        | refine Only.ite ?_ ?_)

theorem execLinkTmo_only (n : ℕ) (s : State) :
    ∀ t', execLinkTmo n s = .next t' → Only 132993 s t' := by
  intro t' h
  unfold execLinkTmo at h
  injection h with h
  subst h
  repeat' first
    | (with_reducible first
        | exact Only.refl
        | refine (latSettle_only _).after (by decide) ?_
        | refine (portDown_only _ _ _).after (by decide) ?_
        | refine Only.ite ?_ ?_)

theorem execRetrain_only (n : ℕ) (s : State) :
    ∀ t', execRetrain n s = .next t' → Only 132993 s t' := by
  intro t' h
  unfold execRetrain at h
  injection h with h
  subst h
  repeat' first
    | (with_reducible first
        | exact Only.refl
        | refine toBlock_only _ _ (fun _ => ?_) ?_
        | refine (latSettle_only _).after (by decide) ?_
        | refine (portDown_only _ _ _).after (by decide) ?_
        | refine Only.ite ?_ ?_)

theorem execRestart_only (n : ℕ) (s : State) :
    ∀ t', execRestart n s = .next t' → Only 132993 s t' := by
  intro t' h
  unfold execRestart at h
  injection h with h
  subst h
  repeat' first
    | ((fail_if_no_progress extract_lets +onlyGivenNames x); refine Only.letElim (x := x) ?_ (fun _ => ?_); (on_goal 1 => unfold x); (on_goal 2 => clear_value x))
    | ((fail_if_no_progress extract_lets +onlyGivenNames x); clear_value x)
    | (with_reducible first
        | exact Only.refl
        | assumption
        | refine toBlock_only _ _ (fun _ => ?_) ?_
        | refine (setPort_only _ _ _).after (by decide) ?_
        | refine (latSettle_only _).after (by decide) ?_
        | refine (portDown_only _ _ _).after (by decide) ?_
        | refine Only.ite ?_ ?_)

theorem execEyeScanGo_only (n : ℕ) (w : Word) (s : State) :
    ∀ t', execEyeScanGo n w s = .next t' → Only 132609 s t' := by
  intro t' h
  unfold execEyeScanGo at h
  injection h with h
  subst h
  repeat' first
    | ((fail_if_no_progress extract_lets +onlyGivenNames x); refine Only.letElim (x := x) ?_ (fun _ => ?_); (on_goal 1 => unfold x); (on_goal 2 => clear_value x))
    | ((fail_if_no_progress extract_lets +onlyGivenNames x); clear_value x)
    | (with_reducible first
        | exact Only.refl
        | assumption
        | refine toBlock_only _ _ (fun _ => ?_) ?_
        | refine (setReg_only _ _ _).after (by decide) ?_
        | refine (put_only _ _ _).after (by decide) ?_
        | refine (eyeAbort_only _ _).after (by decide) ?_
        | refine Only.ite ?_ ?_)

theorem execEyeScanDone_only (n : ℕ) (errs : ℕ) (abort : Bool) (s : State) :
    ∀ t', execEyeScanDone n errs abort s = .next t' → Only 132609 s t' := by
  intro t' h
  unfold execEyeScanDone at h
  injection h with h
  subst h
  repeat' first
    | (with_reducible first
        | exact Only.refl
        | refine (eyeAbort_only _ _).after (by decide) ?_
        | refine (glsEvt_only _ _ _ _).after (by decide) ?_
        | refine (put_only _ _ _).after (by decide) ?_
        | refine Only.ite ?_ ?_)

theorem execStatusSlotDue_only (n : ℕ) (s : State) :
    ∀ t', execStatusSlotDue n s = .next t' → Only 256 s t' := by
  intro t' h
  unfold execStatusSlotDue at h
  injection h with h
  subst h
  repeat' first
    | ((fail_if_no_progress extract_lets +onlyGivenNames x); clear_value x)
    | (with_reducible first
        | exact Only.refl
        | refine (setPort_only _ _ _).after (by decide) ?_
        | refine Only.ite ?_ ?_)

theorem execSkipDue_only (n : ℕ) (s : State) :
    ∀ t', execSkipDue n s = .next t' → Only 256 s t' := by
  intro t' h
  unfold execSkipDue at h
  injection h with h
  subst h
  repeat' first
    | ((fail_if_no_progress extract_lets +onlyGivenNames x); clear_value x)
    | (with_reducible first
        | exact Only.refl
        | refine (setPort_only _ _ _).after (by decide) ?_
        | refine Only.ite ?_ ?_)

theorem execSkipSlot_only (n : ℕ) (slots : List (List ℕ)) (s : State) :
    ∀ t', execSkipSlot n slots s = .next t' → Only 257 s t' := by
  intro t' h
  unfold execSkipSlot at h
  injection h with h
  subst h
  repeat' first
    | (with_reducible first
        | exact Only.refl
        | refine Only.trans ?_ (receive_only _ _ _ _ _ (fun _ _ => ?_) (by decide)))

end Sys2Proof.Machine
end

