-- ==== Sys2Proof/Laws/OnlyLattice.lean ====
section
/-! SUPPORT. Sys2Proof/Laws/OnlyLattice.lean: what the operations of Machine/Lattice.lean leave alone (Laws/Only.lean): one lemma each. -/

set_option linter.unusedTactic false
set_option linter.tactic.unusedName false
set_option linter.unusedVariables false
set_option linter.unreachableTactic false

namespace Sys2Proof.Machine

theorem latticeReset_only (s : State) :
    Only 403437 s (State.latticeReset s) := by
  unfold State.latticeReset
  repeat' first
    | ((fail_if_no_progress extract_lets +onlyGivenNames x); refine Only.letElim (x := x) ?_ (fun _ => ?_); (on_goal 1 => unfold x); (on_goal 2 => clear_value x))
    | ((fail_if_no_progress extract_lets +onlyGivenNames x); clear_value x)
    | (with_reducible first
        | exact Only.refl
        | assumption
        | refine (resetRegs_only _ _).after (by decide) ?_
        | refine (cfgLatticeReset_only _).after (by decide) ?_
        | refine (callerReset_only _).after (by decide) ?_
        | refine (setLatState_only _ _).after (by decide) ?_
        | refine (put_only _ _ _).after (by decide) ?_
        | refine (setReg_only _ _ _).after (by decide) ?_
        | refine (setLat_only _ _).after (by decide) ?_
        | refine (reelBreak_only _ _).after (by decide) ?_
        | refine (capSpoil_only _).after (by decide) ?_
        | refine (callerOrphans_only _).after (by decide) ?_
        | refine (orderReset_only _ _).after (by decide) ?_
        | refine (latSettle_only _).after (by decide) ?_
        | refine (sendTokens_only _ _ _).after (by decide) ?_
        | refine Only.each _ _ (fun _ _ => ?_) ?_
        | refine (portFlush_only _ _).after (by decide) ?_
        | refine (haltOnStop_only _).after (by decide) ?_
        | refine Only.ite ?_ ?_)
    | (with_reducible refine (Only.upd_round _).after (by decide) ?_)

theorem actMsg_only (s : State) (port : ℕ) (m : Msg) :
    Only 403437 s (State.actMsg s port m) := by
  unfold State.actMsg
  repeat' first
    | (with_reducible first
        | exact Only.refl
        | refine (actStart_only _ _ _).after (by decide) ?_
        | refine (actStop_only _ _).after (by decide) ?_
        | refine (latticeReset_only _).after (by decide) ?_)
    | split

theorem takeMsg_only (s : State) (port : ℕ) (m : Msg) :
    Only 403437 s (State.takeMsg s port m) := by
  unfold State.takeMsg
  repeat' first
    | ((fail_if_no_progress extract_lets +onlyGivenNames x); refine Only.letElim (x := x) ?_ (fun _ => ?_); (on_goal 1 => unfold x); (on_goal 2 => clear_value x))
    | ((fail_if_no_progress extract_lets +onlyGivenNames x); clear_value x)
    | (with_reducible first
        | exact Only.refl
        | assumption
        | refine (actMsg_only _ _ _).after (by decide) ?_
        | refine (setLat_only _ _).after (by decide) ?_
        | refine (sendMsg_only _ _).after (by decide) ?_
        | refine Only.ite ?_ ?_)

theorem ulTurn_only (s : State) (n : ℕ) :
    Only 407533 s (State.ulTurn s n) := by
  unfold State.ulTurn
  repeat' first
    | ((fail_if_no_progress extract_lets +onlyGivenNames x); refine Only.letElim (x := x) ?_ (fun _ => ?_); (on_goal 1 => unfold x); (on_goal 2 => clear_value x))
    | ((fail_if_no_progress extract_lets +onlyGivenNames x); refine Only.letElim (x := x.1) ?_ (fun _ => ?_); (on_goal 1 => unfold x); (on_goal 2 => clear_value x))
    | ((fail_if_no_progress extract_lets +onlyGivenNames x); (fail_if_success (have := fun y => x y)); (fail_if_success (have : CRes := x)); (fail_if_success (have : Security := x)); (fail_if_success (have : Hbm := x)); (fail_if_success (have : Option State := x)); clear_value x)
    | ((fail_if_no_progress extract_lets +onlyGivenNames x); (try unfold x); clear x)
    | (with_reducible first
        | exact Only.refl
        | assumption
        | refine (setPort_only _ _ _).after (by decide) ?_
        | refine (poolCheck_only _ _ _ _).after (by decide) ?_
        | refine (poolFree_only _ _ _ _).after (by decide) ?_
        | refine (setUrgPool_only _ _ _ _).after (by decide) ?_
        | refine (takeToken_only _ _ _ _ _).after (by decide) ?_
        | refine (takeMsg_only _ _ _).after (by decide) ?_
        | refine Only.ite ?_ ?_)
    | split

theorem urgentIn_only (s : State) (n : ℕ) (slots : List (List ℕ)) (e : Ecc) (hdr : Bool) (kind : Urgent → Bool) :
    Only 407533 s (State.urgentIn s n slots e hdr kind) := by
  unfold State.urgentIn
  repeat' first
    | ((fail_if_no_progress extract_lets +onlyGivenNames x); refine Only.letElim (x := x.1) ?_ (fun _ => ?_); (on_goal 1 => unfold x); (on_goal 2 => clear_value x))
    | ((fail_if_no_progress extract_lets +onlyGivenNames x); clear_value x)
    | (with_reducible first
        | exact Only.refl
        | assumption
        | refine Only.trans ?_ (receive_only _ _ _ _ _ (fun _ _ => ?_) (by decide))
        | refine (rxSeq_only _ _ _).after (by decide) ?_
        | refine (ulTurn_only _ _).after (by decide) ?_
        | refine (setUrgPool_only _ _ _ _).after (by decide) ?_
        | refine Only.ite ?_ ?_)
    | split

theorem execCutIn_only (n : ℕ) (slots : List (List ℕ)) (s : State) :
    ∀ t', execCutIn n slots s = .next t' → Only 407533 s t' := by
  intro t' h
  unfold execCutIn at h
  injection h with h
  subst h
  repeat' first
    | (with_reducible first
        | exact Only.refl
        | refine (urgentIn_only _ _ _ _ _ _).after (by decide) ?_)

theorem execBowToken_only (n : ℕ) (slots : List (List ℕ)) (e : Ecc) (hdr : Bool) (s : State) :
    ∀ t', execBowToken n slots e hdr s = .next t' → Only 407533 s t' := by
  intro t' h
  unfold execBowToken at h
  injection h with h
  subst h
  repeat' first
    | (with_reducible first
        | exact Only.refl
        | refine (urgentIn_only _ _ _ _ _ _).after (by decide) ?_)

theorem execHoldToken_only (n : ℕ) (slots : List (List ℕ)) (e : Ecc) (hdr : Bool) (s : State) :
    ∀ t', execHoldToken n slots e hdr s = .next t' → Only 407533 s t' := by
  intro t' h
  unfold execHoldToken at h
  injection h with h
  subst h
  repeat' first
    | (with_reducible first
        | exact Only.refl
        | refine (urgentIn_only _ _ _ _ _ _).after (by decide) ?_)

theorem execRunToken_only (n : ℕ) (slots : List (List ℕ)) (e : Ecc) (hdr : Bool) (s : State) :
    ∀ t', execRunToken n slots e hdr s = .next t' → Only 407533 s t' := by
  intro t' h
  unfold execRunToken at h
  injection h with h
  subst h
  repeat' first
    | (with_reducible first
        | exact Only.refl
        | refine (urgentIn_only _ _ _ _ _ _).after (by decide) ?_)

theorem execRelayToken_only (n : ℕ) (slots : List (List ℕ)) (e : Ecc) (hdr : Bool) (s : State) :
    ∀ t', execRelayToken n slots e hdr s = .next t' → Only 407533 s t' := by
  intro t' h
  unfold execRelayToken at h
  injection h with h
  subst h
  repeat' first
    | (with_reducible first
        | exact Only.refl
        | refine (urgentIn_only _ _ _ _ _ _).after (by decide) ?_)

theorem execStartMessage_only (n : ℕ) (slots : List (List ℕ)) (e : Ecc) (hdr : Bool) (s : State) :
    ∀ t', execStartMessage n slots e hdr s = .next t' → Only 407533 s t' := by
  intro t' h
  unfold execStartMessage at h
  injection h with h
  subst h
  repeat' first
    | (with_reducible first
        | exact Only.refl
        | refine (urgentIn_only _ _ _ _ _ _).after (by decide) ?_)

theorem execStopMessage_only (n : ℕ) (slots : List (List ℕ)) (e : Ecc) (hdr : Bool) (s : State) :
    ∀ t', execStopMessage n slots e hdr s = .next t' → Only 407533 s t' := by
  intro t' h
  unfold execStopMessage at h
  injection h with h
  subst h
  repeat' first
    | (with_reducible first
        | exact Only.refl
        | refine (urgentIn_only _ _ _ _ _ _).after (by decide) ?_)

theorem execResetMessage_only (n : ℕ) (slots : List (List ℕ)) (e : Ecc) (hdr : Bool) (s : State) :
    ∀ t', execResetMessage n slots e hdr s = .next t' → Only 407533 s t' := by
  intro t' h
  unfold execResetMessage at h
  injection h with h
  subst h
  repeat' first
    | (with_reducible first
        | exact Only.refl
        | refine (urgentIn_only _ _ _ _ _ _).after (by decide) ?_)

theorem arrive_only (s : State) (e : Entry) (ecc : Ecc) :
    Only 400969 s (State.arrive s e ecc) := by
  unfold State.arrive
  repeat' first
    | (with_reducible first
        | exact Only.refl
        | refine (push_only _ _ _ _ (by assumption)).after (by decide) ?_
        | refine (noteReady_only _).after (by decide) ?_
        | refine (progress_only _).after (by decide) ?_
        | refine (callerFault_only _ _ _ _ _).after (by decide) ?_
        | refine Only.ite ?_ ?_)
    | split

theorem execBundleArrival_only (n : ℕ) (ecc : Ecc) (hdr : Bool) (s0 : State) :
    ∀ t', execBundleArrival n ecc hdr s0 = .next t' → Only 409581 s0 t' := by
  intro t' h
  unfold execBundleArrival at h
  injection h with h
  subst h
  repeat' first
    | ((fail_if_no_progress extract_lets +onlyGivenNames x); refine Only.letElim (x := x) ?_ (fun _ => ?_); (on_goal 1 => unfold x); (on_goal 2 => clear_value x))
    | ((fail_if_no_progress extract_lets +onlyGivenNames x); refine Only.letElim (x := x.1) ?_ (fun _ => ?_); (on_goal 1 => unfold x); (on_goal 2 => clear_value x))
    | ((fail_if_no_progress extract_lets +onlyGivenNames x); clear_value x)
    | (with_reducible first
        | exact Only.refl
        | assumption
        | refine (ulTurn_only _ _).after (by decide) ?_
        | refine (poolCheck_only _ _ _ _).after (by decide) ?_
        | refine (setPort_only _ _ _).after (by decide) ?_
        | refine (setUrgPool_only _ _ _ _).after (by decide) ?_
        | refine (setBulkPool_only _ _ _ _).after (by decide) ?_
        | refine (arrive_only _ _ _).after (by decide) ?_
        | refine (poolFree_only _ _ _ _).after (by decide) ?_
        | refine Only.ite ?_ ?_)
    | split

theorem issueBowFences_only (s : State) : Only 132225 s s.issueBowFences := by
  unfold State.issueBowFences
  dsimp only
  split
  · refine Only.trans (Only.each _ _ ?_ Only.refl) ((setLat_only _ _).mono (by decide))
    intro x t
    have hi := (issueFence_only t x).mono (by decide : _ &&& 132225 = _)
    split
    · exact hi.trans ((setLat_only _ _).mono (by decide))
    · exact Only.refl
  · exact Only.refl

theorem execLocalReady_only (s : State) :
    ∀ t', execLocalReady s = .next t' → Only 132993 s t' := by
  intro t' h
  unfold execLocalReady at h
  injection h with h
  subst h
  repeat' first
    | ((fail_if_no_progress extract_lets +onlyGivenNames x); refine Only.letElim (x := x) ?_ (fun _ => ?_); (on_goal 1 => unfold x); (on_goal 2 => clear_value x))
    | ((fail_if_no_progress extract_lets +onlyGivenNames x); clear_value x)
    | (with_reducible first
        | exact Only.refl
        | assumption
        | refine (issueBowFences_only _).after (by decide) ?_
        | refine (latSettle_only _).after (by decide) ?_
        | refine (sendTokens_only _ _ _).after (by decide) ?_
        | refine (setLatState_only _ _).after (by decide) ?_
        | refine (setLat_only _ _).after (by decide) ?_
        | refine Only.ite ?_ ?_)

theorem execBowAnnounce_only (s : State) :
    ∀ t', execBowAnnounce s = .next t' → Only 209 s t' := by
  intro t' h
  unfold execBowAnnounce at h
  injection h with h
  subst h
  repeat' first
    | ((fail_if_no_progress extract_lets +onlyGivenNames x); clear_value x)
    | (with_reducible first
        | exact Only.refl
        | refine (setClk_only _ _).after (by decide) ?_
        | refine (swapAnnounced_only _).after (by decide) ?_
        | refine (setLat_only _ _).after (by decide) ?_
        | refine (setLatState_only _ _).after (by decide) ?_
        | refine Only.ite ?_ ?_)

theorem execRoundOverrun_only (s : State) :
    ∀ t', execRoundOverrun s = .next t' → Only 132993 s t' := by
  intro t' h
  unfold execRoundOverrun at h
  injection h with h
  subst h
  repeat' first
    | ((fail_if_no_progress extract_lets +onlyGivenNames x); clear_value x)
    | (with_reducible first
        | exact Only.refl
        | refine (sendTokens_only _ _ _).after (by decide) ?_
        | refine (raise_only _ _).after (by decide) ?_
        | refine (setLat_only _ _).after (by decide) ?_
        | refine (setLatState_only _ _).after (by decide) ?_
        | refine Only.ite ?_ ?_)

theorem latStart_only (s : State) (steps : ℕ) (isMatch : Bool) :
    Only 132993 s (State.latStart s steps isMatch) := by
  unfold State.latStart
  repeat' first
    | ((fail_if_no_progress extract_lets +onlyGivenNames x); refine Only.letElim (x := x.1) ?_ (fun _ => ?_); (on_goal 1 => unfold x); (on_goal 2 => clear_value x))
    | (with_reducible first
        | exact Only.refl
        | assumption
        | refine (nextMsg_only _ _ _ _ _ _ _).after (by decide) ?_
        | refine (sendMsg_only _ _).after (by decide) ?_
        | refine (actStart_only _ _ _).after (by decide) ?_
        | refine Only.ite ?_ ?_)

theorem latStop_only (s : State) (target : ℕ) :
    Only 132993 s (State.latStop s target) := by
  unfold State.latStop
  repeat' first
    | ((fail_if_no_progress extract_lets +onlyGivenNames x); refine Only.letElim (x := x.1) ?_ (fun _ => ?_); (on_goal 1 => unfold x); (on_goal 2 => clear_value x))
    | (with_reducible first
        | exact Only.refl
        | assumption
        | refine (nextMsg_only _ _ _ _ _ _ _).after (by decide) ?_
        | refine (sendMsg_only _ _).after (by decide) ?_
        | refine (actStop_only _ _).after (by decide) ?_
        | refine Only.ite ?_ ?_)

theorem execLatStart_only (steps : ℕ) (s : State) :
    ∀ t', execLatStart steps s = .next t' → Only 132993 s t' := by
  intro t' h
  unfold execLatStart at h
  injection h with h
  subst h
  repeat' first
    | (with_reducible first
        | exact Only.refl
        | refine (latStart_only _ _ _).after (by decide) ?_)

theorem execLatResume_only (steps : ℕ) (s : State) :
    ∀ t', execLatResume steps s = .next t' → Only 132993 s t' := by
  intro t' h
  unfold execLatResume at h
  injection h with h
  subst h
  repeat' first
    | (with_reducible first
        | exact Only.refl
        | refine (latStart_only _ _ _).after (by decide) ?_)

theorem execStopAbs_only (s : State) :
    ∀ t', execStopAbs s = .next t' → Only 132993 s t' := by
  intro t' h
  unfold execStopAbs at h
  injection h with h
  subst h
  repeat' first
    | (with_reducible first
        | exact Only.refl
        | refine (latStop_only _ _).after (by decide) ?_)

theorem execStopRel_only (s : State) :
    ∀ t', execStopRel s = .next t' → Only 132993 s t' := by
  intro t' h
  unfold execStopRel at h
  injection h with h
  subst h
  repeat' first
    | (with_reducible first
        | exact Only.refl
        | refine (latStop_only _ _).after (by decide) ?_)

theorem execStopNow_only (s : State) :
    ∀ t', execStopNow s = .next t' → Only 129 s t' := by
  intro t' h
  unfold execStopNow at h
  injection h with h
  subst h
  repeat' first
    | (with_reducible first
        | exact Only.refl
        | refine (stopNow_only _).after (by decide) ?_)

theorem execResetLocal_only (s : State) :
    ∀ t', execResetLocal s = .next t' → Only 403437 s t' := by
  intro t' h
  unfold execResetLocal at h
  injection h with h
  subst h
  repeat' first
    | (with_reducible first
        | exact Only.refl
        | refine (latticeReset_only _).after (by decide) ?_)

theorem resetLattice_only (s : State) :
    Only 403437 s (State.resetLattice s) := by
  unfold State.resetLattice
  repeat' first
    | ((fail_if_no_progress extract_lets +onlyGivenNames x); refine Only.letElim (x := x.1) ?_ (fun _ => ?_); (on_goal 1 => unfold x); (on_goal 2 => clear_value x))
    | (with_reducible first
        | exact Only.refl
        | assumption
        | refine (nextMsg_only _ _ _ _ _ _ _).after (by decide) ?_
        | refine (latticeReset_only _).after (by decide) ?_
        | refine (sendMsg_only _ _).after (by decide) ?_
        | refine Only.ite ?_ ?_)

theorem execResetLattice_only (s : State) :
    ∀ t', execResetLattice s = .next t' → Only 403437 s t' := by
  intro t' h
  unfold execResetLattice at h
  injection h with h
  subst h
  repeat' first
    | (with_reducible first
        | exact Only.refl
        | refine (resetLattice_only _).after (by decide) ?_)

theorem sectorRequest_only (s : State) (mask : ℕ) :
    Only 129 s (State.sectorRequest s mask) := by
  unfold State.sectorRequest
  repeat' first
    | ((fail_if_no_progress extract_lets +onlyGivenNames x); refine Only.letElim (x := x) ?_ (fun _ => ?_); (on_goal 1 => unfold x); (on_goal 2 => clear_value x))
    | ((fail_if_no_progress extract_lets +onlyGivenNames x); clear_value x)
    | (with_reducible first
        | exact Only.refl
        | assumption
        | refine (put_only _ _ _).after (by decide) ?_
        | refine (setLat_only _ _).after (by decide) ?_
        | refine Only.ite ?_ ?_)

theorem execSectorResetRequest_only (mask : ℕ) (s : State) :
    ∀ t', execSectorResetRequest mask s = .next t' → Only 129 s t' := by
  intro t' h
  unfold execSectorResetRequest at h
  injection h with h
  subst h
  repeat' first
    | (with_reducible first
        | exact Only.refl
        | refine (sectorRequest_only _ _).after (by decide) ?_)

theorem execStartEdge_only (s : State) :
    ∀ t', execStartEdge s = .next t' → Only 133057 s t' := by
  intro t' h
  unfold execStartEdge at h
  injection h with h
  subst h
  repeat' first
    | ((fail_if_no_progress extract_lets +onlyGivenNames x); refine Only.letElim (x := x) ?_ (fun _ => ?_); (on_goal 1 => unfold x); (on_goal 2 => clear_value x))
    | ((fail_if_no_progress extract_lets +onlyGivenNames x); clear_value x)
    | (with_reducible first
        | exact Only.refl
        | assumption
        | refine (roundMarks_only _).after (by decide) ?_
        | refine (setLatState_only _ _).after (by decide) ?_
        | refine (setLat_only _ _).after (by decide) ?_
        | refine (noteReady_only _).after (by decide) ?_
        | refine Only.each _ _ (fun _ _ => ?_) ?_
        | refine (setFlag_only _ _ _).after (by decide) ?_
        | refine (latSettle_only _).after (by decide) ?_
        | refine (raise_only _ _).after (by decide) ?_
        | refine (sendTokens_only _ _ _).after (by decide) ?_
        | refine Only.ite ?_ ?_)

theorem execPeerLost_only (i : ℕ) (s : State) :
    ∀ t', execPeerLost i s = .next t' → Only 132993 s t' := by
  intro t' h
  unfold execPeerLost at h
  injection h with h
  subst h
  repeat' first
    | (with_reducible first
        | exact Only.refl
        | refine (latSettle_only _).after (by decide) ?_
        | refine (raise_only _ _).after (by decide) ?_
        | refine (put_only _ _ _).after (by decide) ?_
        | refine Only.ite ?_ ?_)

theorem execNodeOnline_only (s : State) :
    ∀ t', execNodeOnline s = .next t' → Only 132993 s t' := by
  intro t' h
  unfold execNodeOnline at h
  injection h with h
  subst h
  repeat' first
    | ((fail_if_no_progress extract_lets +onlyGivenNames x); clear_value x)
    | (with_reducible first
        | exact Only.refl
        | refine (sendTokens_only _ _ _).after (by decide) ?_
        | refine (setLat_only _ _).after (by decide) ?_
        | refine (setLatState_only _ _).after (by decide) ?_
        | refine Only.ite ?_ ?_)

theorem beatSet_only (s : State) (v : ℕ) :
    Only 129 s (State.beatSet s v) := by
  unfold State.beatSet
  repeat' first
    | ((fail_if_no_progress extract_lets +onlyGivenNames x); refine Only.letElim (x := x) ?_ (fun _ => ?_); (on_goal 1 => unfold x); (on_goal 2 => clear_value x))
    | ((fail_if_no_progress extract_lets +onlyGivenNames x); clear_value x)
    | (with_reducible first
        | exact Only.refl
        | assumption
        | refine (setLat_only _ _).after (by decide) ?_
        | refine (put_only _ _ _).after (by decide) ?_
        | refine Only.ite ?_ ?_)

theorem beatSend_only (s : State) (n : ℕ) (count : ℕ) :
    Only 256 s (State.beatSend s n count) := by
  unfold State.beatSend
  repeat' first
    | ((fail_if_no_progress extract_lets +onlyGivenNames x); clear_value x)
    | (with_reducible first
        | exact Only.refl
        | refine (setPort_only _ _ _).after (by decide) ?_)

theorem execBeatForm_only (s : State) :
    ∀ t', execBeatForm s = .next t' → Only 385 s t' := by
  intro t' h
  unfold execBeatForm at h
  injection h with h
  subst h
  repeat' first
    | ((fail_if_no_progress extract_lets +onlyGivenNames x); refine Only.letElim (x := x) ?_ (fun _ => ?_); (on_goal 1 => unfold x); (on_goal 2 => clear_value x))
    | (with_reducible first
        | exact Only.refl
        | assumption
        | refine (beatSet_only _ _).after (by decide) ?_
        | refine Only.each _ _ (fun _ _ => ?_) ?_
        | refine (beatSend_only _ _ _).after (by decide) ?_
        | refine Only.ite ?_ ?_)

theorem beatIn_only (s : State) (n : ℕ) (clean : Bool) (ok : Bool) (count : ℕ) :
    Only 401 s (State.beatIn s n clean ok count) := by
  unfold State.beatIn
  repeat' first
    | ((fail_if_no_progress extract_lets +onlyGivenNames x); refine Only.letElim (x := x) ?_ (fun _ => ?_); (on_goal 1 => unfold x); (on_goal 2 => clear_value x))
    | ((fail_if_no_progress extract_lets +onlyGivenNames x); clear_value x)
    | (with_reducible first
        | exact Only.refl
        | assumption
        | refine Only.when _ _ (fun _ => ?_) ?_
        | refine (setClk_only _ _).after (by decide) ?_
        | refine (beatSet_only _ _).after (by decide) ?_
        | refine Only.each _ _ (fun _ _ => ?_) ?_
        | refine (beatSend_only _ _ _).after (by decide) ?_
        | refine Only.ite ?_ ?_)

theorem execBeatMark_only (n : ℕ) (slots : List (List ℕ)) (s : State) :
    ∀ t', execBeatMark n slots s = .next t' → Only 401 s t' := by
  intro t' h
  unfold execBeatMark at h
  injection h with h
  subst h
  repeat' first
    | (with_reducible first
        | exact Only.refl
        | refine Only.trans ?_ (receive_only _ _ _ _ _ (fun _ _ => ?_) (by decide))
        | refine (beatIn_only _ _ _ _ _).after (by decide) ?_)
    | split

end Sys2Proof.Machine
end

