-- ==== Sys2Proof/Laws/OnlyTailRun.lean ====
section
/-! SUPPORT. Sys2Proof/Laws/OnlyTailRun.lean: what the operations of Machine/TailRun.lean leave alone (Laws/Only.lean): one lemma each. -/

set_option linter.unusedTactic false
set_option linter.tactic.unusedName false
set_option linter.unusedVariables false
set_option linter.unreachableTactic false

namespace Sys2Proof.Machine

theorem capPending_only (s : State) :
    Only 1 s (State.capPending s) := by
  unfold State.capPending
  repeat' first
    | (with_reducible first
        | exact Only.refl
        | refine (put_only _ _ _).after (by decide) ?_)

theorem captureGo_only (s : State) (mode : ℕ) :
    Only 400905 s (State.captureGo s mode) := by
  unfold State.captureGo
  repeat' first
    | ((fail_if_no_progress extract_lets +onlyGivenNames x); clear_value x)
    | (with_reducible first
        | exact Only.refl
        | refine (capRefuse_only _ _).after (by decide) ?_
        | refine (capPending_only _).after (by decide) ?_
        | refine (setTail_only _ _).after (by decide) ?_
        | refine (capStart_only _ _).after (by decide) ?_
        | refine Only.ite ?_ ?_)
    | split

theorem memUnchain_only (s : State) (m : ℕ) (q : ℕ) (v : Bool) :
    Only 8 s (State.memUnchain s m q v) := by
  unfold State.memUnchain
  repeat' first
    | ((fail_if_no_progress extract_lets +onlyGivenNames x); (fail_if_success (have := fun y => x y)); (fail_if_success (have : CRes := x)); (fail_if_success (have : Security := x)); (fail_if_success (have : Hbm := x)); (fail_if_success (have : Option State := x)); clear_value x)
    | ((fail_if_no_progress extract_lets +onlyGivenNames x); (try unfold x); clear x)
    | (with_reducible first
        | exact Only.refl
        | refine (setFab_only _ _).after (by decide) ?_
        | refine Only.ite ?_ ?_)

theorem sliceUnchain_only (s : State) (sl : ℕ) (q : ℕ) (v : Bool) :
    Only 8 s (State.sliceUnchain s sl q v) := by
  unfold State.sliceUnchain
  repeat' first
    | ((fail_if_no_progress extract_lets +onlyGivenNames x); clear_value x)
    | (with_reducible first
        | exact Only.refl
        | refine (setFab_only _ _).after (by decide) ?_
        | refine Only.ite ?_ ?_)

theorem loadLine_only (s : State) (n : ℕ) (j : ℕ) (line : ℕ) :
    Only 8 s (State.loadLine s n j line) := by
  unfold State.loadLine
  repeat' first
    | ((fail_if_no_progress extract_lets +onlyGivenNames x); clear_value x)
    | (with_reducible first
        | exact Only.refl
        | refine Only.each _ _ (fun _ _ => ?_) ?_
        | refine (setFab_only _ _).after (by decide) ?_
        | refine (memUnchain_only _ _ _ _).after (by decide) ?_
        | refine (sliceUnchain_only _ _ _ _).after (by decide) ?_
        | refine Only.ite ?_ ?_)

theorem reelRead_only (s : State) (a : ℕ) (n : ℕ) :
    Only 400897 s (State.reelRead s a n).1 := by
  unfold State.reelRead
  repeat' first
    | ((fail_if_no_progress extract_lets +onlyGivenNames x); refine Only.letElim (x := x.1) ?_ (fun _ => ?_); (on_goal 1 => unfold x); (on_goal 2 => clear_value x))
    | (with_reducible first
        | exact Only.refl
        | assumption
        | refine (hubRead_only _ _ _ _ _).after (by decide) ?_
        | refine (tailErr_only _ _ _).after (by decide) ?_
        | refine Only.iteP ?_ ?_)

theorem reelLine_only (s : State) (base j n : Nat) : Only 400905 s (s.reelLine base j n).1 := by
  have hr := fun a => (reelRead_only s a 64).mono (by decide : _ &&& 400905 = _)
  unfold State.reelLine
  exact (Only.each _ _ (fun l t => (loadLine_only t n j l).mono (by decide)) (hr _)).fst

theorem reelLines_only (l : List ℕ) (base : ℕ) (j : ℕ) (s : State) :
    Only 400905 s (reelLines l base j s).1 := by
  unfold reelLines
  repeat' first
    | (with_reducible first
        | exact Only.refl
        | refine (reelLine_only _ _ _ _).after (by decide) ?_
        | refine Only.iteP ?_ ?_
        | refine Only.foldlP _ (fun _ _ => ?_) _ _ ?_)

theorem capRow_only (s : State) (m : ℕ) (row : ℕ) (raw : ℕ) (up : List (ℕ × ℕ)) :
    Only 400897 s (State.capRow s m row raw up) := by
  unfold State.capRow
  repeat' first
    | (with_reducible first
        | exact Only.refl
        | refine (capBuf_only _ _ _ _ _).after (by decide) ?_)
    | split

theorem mapBuild_only (s : State) :
    Only 1 s (State.mapBuild s) := by
  unfold State.mapBuild
  repeat' first
    | (with_reducible first
        | exact Only.refl
        | refine (put_only _ _ _).after (by decide) ?_)

theorem trigArm_only (s : State) (u : ℕ) :
    Only 1 s (State.trigArm s u) := by
  unfold State.trigArm
  repeat' first
    | (with_reducible first
        | exact Only.refl
        | refine (put_only _ _ _).after (by decide) ?_)

theorem ringPost_only (s : State) (k : ℕ) :
    Only 513 s (State.ringPost s k) := by
  unfold State.ringPost
  repeat' first
    | ((fail_if_no_progress extract_lets +onlyGivenNames x); clear_value x)
    | (with_reducible first
        | exact Only.refl
        | refine (put_only _ _ _).after (by decide) ?_
        | refine (setTail_only _ _).after (by decide) ?_
        | refine Only.ite ?_ ?_)

theorem trigFire_only (s : State) (u : ℕ) :
    Only 657281 s (State.trigFire s u) := by
  unfold State.trigFire
  repeat' first
    | ((fail_if_no_progress extract_lets +onlyGivenNames x); refine Only.letElim (x := x) ?_ (fun _ => ?_); (on_goal 1 => unfold x); (on_goal 2 => clear_value x))
    | ((fail_if_no_progress extract_lets +onlyGivenNames x); clear_value x)
    | (with_reducible first
        | exact Only.refl
        | assumption
        | refine (put_only _ _ _).after (by decide) ?_
        | refine Only.when _ _ (fun _ => ?_) ?_
        | refine (raise_only _ _).after (by decide) ?_
        | refine (capRefuse_only _ _).after (by decide) ?_
        | refine (capPending_only _).after (by decide) ?_
        | refine (setTail_only _ _).after (by decide) ?_
        | refine (latStop_only _ _).after (by decide) ?_
        | refine (setPin_only _ _).after (by decide) ?_
        | refine (ringPost_only _ _).after (by decide) ?_
        | refine Only.ite ?_ ?_)

theorem trigSample_only (s : State) (u : ℕ) :
    Only 657281 s (State.trigSample s u) := by
  unfold State.trigSample
  repeat' first
    | ((fail_if_no_progress extract_lets +onlyGivenNames x); refine Only.letElim (x := x) ?_ (fun _ => ?_); (on_goal 1 => unfold x); (on_goal 2 => clear_value x))
    | ((fail_if_no_progress extract_lets +onlyGivenNames x); clear_value x)
    | (with_reducible first
        | exact Only.refl
        | assumption
        | refine (setTail_only _ _).after (by decide) ?_
        | refine (satF_only _ _ _).after (by decide) ?_
        | refine (trigFire_only _ _).after (by decide) ?_
        | refine Only.ite ?_ ?_)

theorem reelHeader_only (y0 : ℕ) (y1 : ℕ) (y2 : List ℕ) (y3 : State) :
    Only 400897 y3 (reelHeader y0 y1 y2 y3).1 := by
  induction y0 generalizing y1 y2 y3 with
  | zero =>
    unfold reelHeader
    exact Only.refl
  | succ n ih =>
    unfold reelHeader
    repeat' first
      | (with_reducible first
          | exact Only.refl
          | refine ((reelRead_only _ _ _).of_eq (by assumption)).after (by decide) ?_
          | refine Only.trans ?_ (ih _ _ _))
      | split

theorem reelLists_only (y0 : ℕ) (y1 : ℕ) (y2 : List (ℕ × DEntry)) (y3 : State) :
    Only 400897 y3 (reelLists y0 y1 y2 y3).1 := by
  induction y0 generalizing y1 y2 y3 with
  | zero =>
    unfold reelLists
    exact Only.refl
  | succ n ih =>
    unfold reelLists
    repeat' first
      | (with_reducible first
          | exact Only.refl
          | refine ((reelRead_only _ _ _).of_eq (by assumption)).after (by decide) ?_
          | refine Only.trans ?_ (ih _ _ _))
      | split

theorem reelGo_only (s : State) (slot : ℕ) :
    Only 400897 s (State.reelGo s slot) := by
  unfold State.reelGo
  repeat' first
    | ((fail_if_no_progress extract_lets +onlyGivenNames x); refine Only.letElim (x := x) ?_ (fun _ => ?_); (on_goal 1 => unfold x); (on_goal 2 => clear_value x))
    | ((fail_if_no_progress extract_lets +onlyGivenNames x); refine Only.letElim (x := x.1) ?_ (fun _ => ?_); (on_goal 1 => unfold x); (on_goal 2 => clear_value x))
    | ((fail_if_no_progress extract_lets +onlyGivenNames x); clear_value x)
    | (with_reducible first
        | exact Only.refl
        | assumption
        | refine (reelHeader_only _ _ _ _).after (by decide) ?_
        | refine (reelSay_only _ _).after (by decide) ?_
        | refine (put_only _ _ _).after (by decide) ?_
        | refine (slotUse_only _ _).after (by decide) ?_
        | refine (setTail_only _ _).after (by decide) ?_
        | refine (pace_only _ _ _).after (by decide) ?_
        | refine ((reelLists_only _ _ _ _).of_eq (by assumption)).after (by decide) ?_
        | refine (reelRefuse_only _ _).after (by decide) ?_
        | refine Only.iteP ?_ ?_)
    | split

theorem reelRow_only (s : State) (slot : Nat) (x : MemCfg × Nat) : Only 400897 s (s.reelRow slot x).1 := by
  have hr := fun a => (reelRead_only s a 16).mono (by decide : _ &&& 400897 = _)
  unfold State.reelRow
  exact (hr _).fst

theorem reelRows_only (l : List (MemCfg × ℕ)) (slot : ℕ) (s : State) :
    Only 400897 s (reelRows l slot s).1 := by
  unfold reelRows
  repeat' first
    | (with_reducible first
        | exact Only.refl
        | refine (reelRow_only _ _ _).after (by decide) ?_
        | refine Only.iteP ?_ ?_
        | refine Only.foldlP _ (fun _ _ => ?_) _ _ ?_)

theorem restoreLists_only (y0 : List (ℕ × DEntry)) (y1 : State) :
    Only 65 y1 (restoreLists y0 y1) := by
  induction y0 generalizing y1 with
  | nil =>
    unfold restoreLists
    exact Only.refl
  | cons a l ih =>
    unfold restoreLists
    repeat' first
      | (with_reducible first
          | exact Only.refl
          | refine (listGrow_only _ _ _).after (by decide) ?_
          | refine Only.trans ?_ (ih _))

theorem tokensClear_only (s : State) :
    Only 129 s (State.tokensClear s) := by
  unfold State.tokensClear
  repeat' first
    | ((fail_if_no_progress extract_lets +onlyGivenNames x); refine Only.letElim (x := x) ?_ (fun _ => ?_); (on_goal 1 => unfold x); (on_goal 2 => clear_value x))
    | ((fail_if_no_progress extract_lets +onlyGivenNames x); clear_value x)
    | (with_reducible first
        | exact Only.refl
        | assumption
        | refine (setLat_only _ _).after (by decide) ?_
        | refine Only.each _ _ (fun _ _ => ?_) ?_
        | refine (put_only _ _ _).after (by decide) ?_)

theorem restoreAt_only (s : State) (r : Reel) (resets : List ℕ) :
    Only 407501 s (State.restoreAt s r resets) := by
  unfold State.restoreAt
  repeat' first
    | ((fail_if_no_progress extract_lets +onlyGivenNames x); refine Only.letElim (x := x) ?_ (fun _ => ?_); (on_goal 1 => unfold x); (on_goal 2 => clear_value x))
    | ((fail_if_no_progress extract_lets +onlyGivenNames x); clear_value x)
    | (with_reducible first
        | exact Only.refl
        | assumption
        | refine (fabricEdge_only _ _).after (by decide) ?_
        | refine (restoreLists_only _ _).after (by decide) ?_
        | refine (callerReset_only _).after (by decide) ?_
        | refine (setTarget_only _ _).after (by decide) ?_
        | refine Only.each _ _ (fun _ _ => ?_) ?_
        | refine (portFlush_only _ _).after (by decide) ?_
        | refine (tokensClear_only _).after (by decide) ?_
        | refine (setLat_only _ _).after (by decide) ?_
        | refine (put_only _ _ _).after (by decide) ?_
        | refine (haltOnStop_only _).after (by decide) ?_
        | refine (sendTokens_only _ _ _).after (by decide) ?_
        | refine (roundMarks_only _).after (by decide) ?_
        | refine (setLatState_only _ _).after (by decide) ?_
        | refine Only.ite ?_ ?_)
    | (with_reducible refine (Only.upd_round _).after (by decide) ?_)

theorem restoreRow_only (s : State) (slot : Nat) (c : MemCfg) (r : Nat) : Only 400905 s (s.restoreRow slot c r) := by
  have hd := (hubRead_only s 19 (s.rowAddr slot c.mem r) 16 []).mono (by decide : _ &&& 400905 = _)
  simp only [State.restoreRow]
  generalize s.hubRead 19 (s.rowAddr slot c.mem r) 16 [] = d at hd ⊢
  split
  · exact (raise_only _ _).after (by decide) ((satF_only _ _ _).after (by decide) ((setRow_only _ _ _ _).after (by decide)
      ((tailErr_only _ _ _).after (by decide) hd)))
  · exact (setRow_only _ _ _ _).after (by decide) hd

theorem xferGo_only (s : State) (imp : Bool) (keySlot : ℕ) (slot : ℕ) :
    Only 132609 s (State.xferGo s imp keySlot slot) := by
  unfold State.xferGo
  repeat' first
    | ((fail_if_no_progress extract_lets +onlyGivenNames x); refine Only.letElim (x := x) ?_ (fun _ => ?_); (on_goal 1 => unfold x); (on_goal 2 => clear_value x))
    | ((fail_if_no_progress extract_lets +onlyGivenNames x); (fail_if_success (have := fun y => x y)); (fail_if_success (have : CRes := x)); (fail_if_success (have : Security := x)); (fail_if_success (have : Hbm := x)); (fail_if_success (have : Option State := x)); clear_value x)
    | ((fail_if_no_progress extract_lets +onlyGivenNames x); (try unfold x); clear x)
    | (with_reducible first
        | exact Only.refl
        | assumption
        | refine (put_only _ _ _).after (by decide) ?_
        | refine (raise_only _ _).after (by decide) ?_
        | refine Only.when _ _ (fun _ => ?_) ?_
        | refine (slotFree_only _ _).after (by decide) ?_
        | refine (setTail_only _ _).after (by decide) ?_
        | refine (slotUse_only _ _).after (by decide) ?_
        | refine Only.ite ?_ ?_)
    | split

theorem spoolGet_only (n a : Nat) (s : State) : Only 400897 s (spoolGet n a s).1 := by
  induction n generalizing a s with
  | zero => exact Only.refl
  | succ n ih =>
    have hr := (hubRead_only s 19 a 64 []).mono (by decide : _ &&& 400897 = _)
    simp only [spoolGet]
    generalize s.hubRead 19 a 64 [] = r at hr ⊢
    split
    · exact (tailErr_only _ _ _).after (by decide) hr
    · split
      · rename_i e; exact hr.trans ((ih _ _).of_eq e)
      · rename_i e; exact hr.trans ((ih _ _).of_eq e)

theorem spoolPut_only (y0 : ℕ) (y1 : ℕ) (y2 : ℕ) (y3 : State) :
    Only 400897 y3 (spoolPut y0 y1 y2 y3).1 := by
  induction y0 generalizing y1 y2 y3 with
  | zero =>
    unfold spoolPut
    exact Only.refl
  | succ n ih =>
    unfold spoolPut
    repeat' first
      | ((fail_if_no_progress extract_lets +onlyGivenNames x); refine Only.letElim (x := x.1) ?_ (fun _ => ?_); (on_goal 1 => unfold x); (on_goal 2 => clear_value x))
      | (with_reducible first
          | exact Only.refl
          | assumption
          | refine (tailWrite_only _ _ _ _ _ _).after (by decide) ?_
          | refine Only.iteP ?_ ?_
          | refine Only.trans ?_ (ih _ _ _))

theorem boxRead_only (s : State) (i : Nat) : Only 400897 s (s.boxRead i).1 := by
  have h := fun n a t => (spoolGet_only n a t).mono (by decide : _ &&& 400897 = _)
  unfold State.boxRead
  exact ((((h _ _ _).trans (h _ _ _)).trans (h _ _ _)).trans (h _ _ _)).fst

theorem boxSend_only (s : State) (x : Transfer) (key plain : Nat) : Only 524288 s (s.boxSend x key plain) := by
  unfold State.boxSend
  exact (setPin_only _ _).after (by decide) ((freeNext_only _).mono (by decide))

theorem boxOut_only (s : State) (x : Transfer) : Only 925185 s (s.boxOut x).1 := by
  have hb := (boxRead_only s x.slot).mono (by decide : _ &&& 925185 = _)
  unfold State.boxOut
  split
  · exact Only.refl.fst
  · exact (Only.each _ _ (fun p t => (boxSend_only t x _ p).mono (by decide)) hb).fst

theorem boxStore_only (s : State) (i v plain : Nat) : Only 400897 s (s.boxStore i v plain).1 := by
  have hs := fun n a v t => (spoolPut_only n a v t).mono (by decide : _ &&& 400897 = _)
  have hm := (mapRetire_only s v i).mono (by decide : _ &&& 400897 = _)
  have hw := fun t l => mapWrite_only (m := 400897) t v l (fun x l t => (t.tailWrite 3 x 64 l 0).1)
    (fun _ _ _ => (tailWrite_only _ _ _ _ _ _).mono (by decide)) (by decide)
  unfold State.boxStore
  exact ((((hm.trans (hs _ _ _ _)).trans (hs _ _ _ _)).trans (hs _ _ _ _)).trans (hw _ _)).fst

theorem boxEntry_only (s : State) (i : ℕ) (v : ℕ) (plain : ℕ) :
    Only 1 s (State.boxEntry s i v plain) := by
  unfold State.boxEntry
  repeat' first
    | ((fail_if_no_progress extract_lets +onlyGivenNames x); refine Only.letElim (x := x) ?_ (fun _ => ?_); (on_goal 1 => unfold x); (on_goal 2 => clear_value x))
    | (with_reducible first
        | exact Only.refl
        | assumption
        | refine (put_only _ _ _).after (by decide) ?_)

theorem boxIn_only (s : State) (i plain : Nat) : Only 400897 s (s.boxIn i plain).1 := by
  have h := fun v => ((boxStore_only s i v plain).trans ((boxEntry_only _ i v plain).mono (by decide))).mono (by decide : _ &&& 400897 = _)
  unfold State.boxIn
  exact Only.iteP Only.refl (h _).fst

theorem boxTake_only (s : State) (x : Transfer) (b : Nat) : Only 400897 s (s.boxTake x b).1 := by
  have h := fun p => (boxIn_only s x.slot p).mono (by decide : _ &&& 400897 = _)
  unfold State.boxTake
  split
  · exact Only.refl.fst
  · exact Only.iteP Only.refl (h _)

end Sys2Proof.Machine
end

