-- ==== Sys2Proof/Laws/OnlyFabricPorts.lean ====
section
/-! SUPPORT. Sys2Proof/Laws/OnlyFabricPorts.lean: what the operations of Machine/FabricPorts.lean leave alone (Laws/Only.lean): one lemma each. -/

set_option linter.unusedTactic false
set_option linter.tactic.unusedName false
set_option linter.unusedVariables false
set_option linter.unreachableTactic false

namespace Sys2Proof.Machine

theorem crossIn_only (s : State) (g : ℕ) :
    Only 8 s (State.crossIn s g) := by
  unfold State.crossIn
  repeat' first
    | ((fail_if_no_progress extract_lets +onlyGivenNames x); refine Only.letElim (x := x) ?_ (fun _ => ?_); (on_goal 1 => unfold x); (on_goal 2 => clear_value x))
    | ((fail_if_no_progress extract_lets +onlyGivenNames x); clear_value x)
    | (with_reducible first
        | exact Only.refl
        | assumption
        | refine (setFab_only _ _).after (by decide) ?_
        | refine Only.ite ?_ ?_)

theorem execInboundCrossing_only (g : ℕ) (s : State) :
    ∀ t', execInboundCrossing g s = .next t' → Only 8 s t' := by
  intro t' h
  unfold execInboundCrossing at h
  injection h with h
  subst h
  repeat' first
    | (with_reducible first
        | exact Only.refl
        | refine (crossIn_only _ _).after (by decide) ?_
        | refine Only.ite ?_ ?_)

theorem execOutboundCrossing_only (g : ℕ) (s : State) :
    ∀ t', execOutboundCrossing g s = .next t' → Only 8 s t' := by
  intro t' h
  unfold execOutboundCrossing at h
  injection h with h
  subst h
  repeat' first
    | ((fail_if_no_progress extract_lets +onlyGivenNames x); clear_value x)
    | (with_reducible first
        | exact Only.refl
        | refine (setFab_only _ _).after (by decide) ?_
        | refine Only.ite ?_ ?_)

theorem apRead_only (s : State) (n : ℕ) (off : ℕ) (peek : Bool) :
    Only 8 s (State.apRead s n off peek).1 := by
  unfold State.apRead
  repeat' first
    | ((fail_if_no_progress extract_lets +onlyGivenNames x); refine Only.letElim (x := x) ?_ (fun _ => ?_); (on_goal 1 => unfold x); (on_goal 2 => clear_value x))
    | ((fail_if_no_progress extract_lets +onlyGivenNames x); clear_value x)
    | (with_reducible first
        | exact Only.refl
        | assumption
        | refine (setFab_only _ _).after (by decide) ?_
        | refine Only.ite ?_ ?_
        | refine Only.iteP ?_ ?_)

theorem apWrite_only (s : State) (n : ℕ) (off : ℕ) (v : Word) :
    Only 8 s (State.apWrite s n off v).1 := by
  unfold State.apWrite
  repeat' first
    | ((fail_if_no_progress extract_lets +onlyGivenNames x); clear_value x)
    | (with_reducible first
        | exact Only.refl
        | refine (setFab_only _ _).after (by decide) ?_
        | refine Only.iteP ?_ ?_)

theorem execApertureInboundWrite_only (n : ℕ) (w : ℕ) (r : ℕ) (v : Word) (s : State) :
    ∀ t', execApertureInboundWrite n w r v s = .next t' → Only 8 s t' := by
  intro t' h
  unfold execApertureInboundWrite at h
  injection h with h
  subst h
  repeat' first
    | (with_reducible first
        | exact Only.refl
        | refine (apWrite_only _ _ _ _).after (by decide) ?_
        | refine Only.ite ?_ ?_)

theorem execApertureLoRead_only (n : ℕ) (w : ℕ) (out : Bool) (s : State) :
    ∀ t', execApertureLoRead n w out s = .next t' → Only 8 s t' := by
  intro t' h
  unfold execApertureLoRead at h
  injection h with h
  subst h
  repeat' first
    | (with_reducible first
        | exact Only.refl
        | refine (apRead_only _ _ _ _).after (by decide) ?_
        | refine Only.ite ?_ ?_)

theorem chanDone_only (s : State) (n : ℕ) (c : ℕ) :
    Only 8 s (State.chanDone s n c) := by
  unfold State.chanDone
  repeat' first
    | ((fail_if_no_progress extract_lets +onlyGivenNames x); clear_value x)
    | (with_reducible first
        | exact Only.refl
        | refine (setFab_only _ _).after (by decide) ?_)

theorem masterBuf_only (s : State) (n : ℕ) (r : MRsp) :
    Only 8 s (State.masterBuf s n r) := by
  unfold State.masterBuf
  repeat' first
    | ((fail_if_no_progress extract_lets +onlyGivenNames x); clear_value x)
    | (with_reducible first
        | exact Only.refl
        | refine (setFab_only _ _).after (by decide) ?_)

theorem masterIn_only (s : State) (n : ℕ) :
    Only 1032 s (State.masterIn s n) := by
  unfold State.masterIn
  repeat' first
    | ((fail_if_no_progress extract_lets +onlyGivenNames x); refine Only.letElim (x := x) ?_ (fun _ => ?_); (on_goal 1 => unfold x); (on_goal 2 => clear_value x))
    | ((fail_if_no_progress extract_lets +onlyGivenNames x); clear_value x)
    | (with_reducible first
        | exact Only.refl
        | assumption
        | refine (setMesh_only _ _).after (by decide) ?_
        | refine Only.each _ _ (fun _ _ => ?_) ?_
        | refine (masterBuf_only _ _ _).after (by decide) ?_
        | refine Only.ite ?_ ?_)

theorem masterFence_only (s : State) (n : ℕ) :
    Only 132105 s (State.masterFence s n) := by
  unfold State.masterFence
  repeat' first
    | ((fail_if_no_progress extract_lets +onlyGivenNames x); clear_value x)
    | (with_reducible first
        | exact Only.refl
        | refine ((issueFence_only _ _).of_eq (by assumption)).after (by decide) ?_
        | refine (chanDone_only _ _ _).after (by decide) ?_
        | refine (setFab_only _ _).after (by decide) ?_
        | refine Only.ite ?_ ?_)
    | split

theorem execMasterRequest_only (n : ℕ) (s : State) :
    ∀ t', execMasterRequest n s = .next t' → Only 132105 s t' := by
  intro t' h
  unfold execMasterRequest at h
  injection h with h
  subst h
  repeat' first
    | ((fail_if_no_progress extract_lets +onlyGivenNames x); refine Only.letElim (x := x) ?_ (fun _ => ?_); (on_goal 1 => unfold x); (on_goal 2 => clear_value x))
    | ((fail_if_no_progress extract_lets +onlyGivenNames x); clear_value x)
    | (with_reducible first
        | exact Only.refl
        | assumption
        | refine (masterFence_only _ _).after (by decide) ?_
        | refine (setTagAt_only _ _ _).after (by decide) ?_
        | refine (chanDone_only _ _ _).after (by decide) ?_
        | refine (setMesh_only _ _).after (by decide) ?_
        | refine (masterBuf_only _ _ _).after (by decide) ?_
        | refine (masterIn_only _ _).after (by decide) ?_
        | refine Only.ite ?_ ?_)

theorem execMasterFence_only (n : ℕ) (s : State) :
    ∀ t', execMasterFence n s = .next t' → Only 132105 s t' := by
  intro t' h
  unfold execMasterFence at h
  injection h with h
  subst h
  repeat' first
    | (with_reducible first
        | exact Only.refl
        | refine (masterFence_only _ _).after (by decide) ?_)

theorem execMasterResponse_only (n : ℕ) (s : State) :
    ∀ t', execMasterResponse n s = .next t' → Only 1032 s t' := by
  intro t' h
  unfold execMasterResponse at h
  injection h with h
  subst h
  repeat' first
    | ((fail_if_no_progress extract_lets +onlyGivenNames x); refine Only.letElim (x := x) ?_ (fun _ => ?_); (on_goal 1 => unfold x); (on_goal 2 => clear_value x))
    | ((fail_if_no_progress extract_lets +onlyGivenNames x); clear_value x)
    | (with_reducible first
        | exact Only.refl
        | assumption
        | refine (masterIn_only _ _).after (by decide) ?_
        | refine (chanDone_only _ _ _).after (by decide) ?_
        | refine (setFab_only _ _).after (by decide) ?_
        | refine Only.ite ?_ ?_)

theorem tgtFrozen_only (s : State) (n : ℕ) :
    Only 1033 s (State.tgtFrozen s n) := by
  unfold State.tgtFrozen
  repeat' first
    | ((fail_if_no_progress extract_lets +onlyGivenNames x); refine Only.letElim (x := x) ?_ (fun _ => ?_); (on_goal 1 => unfold x); (on_goal 2 => clear_value x))
    | ((fail_if_no_progress extract_lets +onlyGivenNames x); clear_value x)
    | (with_reducible first
        | exact Only.refl
        | assumption
        | refine (tgtAnswer_only _ _ _ _).after (by decide) ?_
        | refine (setFab_only _ _).after (by decide) ?_)

theorem execTargetRequest_only (n : ℕ) (id : ℕ) (s : State) :
    ∀ t', execTargetRequest n id s = .next t' → Only 1033 s t' := by
  intro t' h
  unfold execTargetRequest at h
  injection h with h
  subst h
  repeat' first
    | ((fail_if_no_progress extract_lets +onlyGivenNames x); clear_value x)
    | (with_reducible first
        | exact Only.refl
        | refine (tgtFrozen_only _ _).after (by decide) ?_
        | refine (setFab_only _ _).after (by decide) ?_
        | refine (chanDone_only _ _ _).after (by decide) ?_
        | refine Only.ite ?_ ?_)
    | split

theorem execTargetResponse_only (n : ℕ) (s0 : State) :
    ∀ t', execTargetResponse n s0 = .next t' → Only 132617 s0 t' := by
  intro t' h
  unfold execTargetResponse at h
  injection h with h
  subst h
  repeat' first
    | ((fail_if_no_progress extract_lets +onlyGivenNames x); refine Only.letElim (x := x) ?_ (fun _ => ?_); (on_goal 1 => unfold x); (on_goal 2 => clear_value x))
    | ((fail_if_no_progress extract_lets +onlyGivenNames x); clear_value x)
    | (with_reducible first
        | exact Only.refl
        | assumption
        | refine (chanDone_only _ _ _).after (by decide) ?_
        | refine (meshStray_only _ _ _ _).after (by decide) ?_
        | refine (setFab_only _ _).after (by decide) ?_
        | refine (tgtAnswer_only _ _ _ _).after (by decide) ?_
        | refine Only.ite ?_ ?_)
    | split

theorem meshPortEdge_only (s : State) (n : ℕ) :
    Only 8 s (State.meshPortEdge s n) := by
  unfold State.meshPortEdge
  repeat' first
    | ((fail_if_no_progress extract_lets +onlyGivenNames x); clear_value x)
    | (with_reducible first
        | exact Only.refl
        | refine (setFab_only _ _).after (by decide) ?_)

theorem tgtAnswerAll_only (y0 : ℕ) (y1 : ℕ) (y2 : Rsp) (y3 : State) :
    Only 1025 y3 (tgtAnswerAll y0 y1 y2 y3) := by
  induction y0 generalizing y1 y2 y3 with
  | zero =>
    unfold tgtAnswerAll
    exact Only.refl
  | succ n ih =>
    unfold tgtAnswerAll
    repeat' first
      | (with_reducible first
          | exact Only.refl
          | refine (tgtAnswer_only _ _ _ _).after (by decide) ?_
          | refine Only.trans ?_ (ih _ _ _))

theorem sectorReset_only (s : State) (n : ℕ) (cause : ℕ) :
    Only 403081 s (State.sectorReset s n cause) := by
  unfold State.sectorReset
  repeat' first
    | ((fail_if_no_progress extract_lets +onlyGivenNames x); refine Only.letElim (x := x) ?_ (fun _ => ?_); (on_goal 1 => unfold x); (on_goal 2 => clear_value x))
    | ((fail_if_no_progress extract_lets +onlyGivenNames x); clear_value x)
    | (with_reducible first
        | exact Only.refl
        | assumption
        | refine (orderReset_only _ _).after (by decide) ?_
        | refine (initReset_only _ _).after (by decide) ?_
        | refine (coreReset_only _ _ _ _).after (by decide) ?_
        | refine (tgtAnswerAll_only _ _ _ _).after (by decide) ?_
        | refine (setFab_only _ _).after (by decide) ?_)

theorem latchFf_only (s : State) (k : ℕ) (v : Bool) :
    Only 8 s (State.latchFf s k v) := by
  unfold State.latchFf
  repeat' first
    | ((fail_if_no_progress extract_lets +onlyGivenNames x); clear_value x)
    | (with_reducible first
        | exact Only.refl
        | refine (setFab_only _ _).after (by decide) ?_
        | refine Only.when _ _ (fun _ => ?_) ?_
        | refine (freeNext_only _).after (by decide) ?_
        | refine Only.ite ?_ ?_)
    | split

theorem latchSlice_only (s : State) (k : ℕ) (v : SliceReg) :
    Only 8 s (State.latchSlice s k v) := by
  unfold State.latchSlice
  repeat' first
    | ((fail_if_no_progress extract_lets +onlyGivenNames x); (fail_if_success (have := fun y => x y)); (fail_if_success (have : CRes := x)); (fail_if_success (have : Security := x)); (fail_if_success (have : Hbm := x)); (fail_if_success (have : Option State := x)); clear_value x)
    | ((fail_if_no_progress extract_lets +onlyGivenNames x); (try unfold x); clear x)
    | (with_reducible first
        | exact Only.refl
        | refine (setFab_only _ _).after (by decide) ?_
        | refine Only.when _ _ (fun _ => ?_) ?_
        | refine (freeNext_only _).after (by decide) ?_
        | refine Only.ite ?_ ?_)
    | split

theorem ckinSeen_only (s : State) (m : ℕ) (fall : Bool) :
    Only 16 s (State.ckinSeen s m fall) := by
  unfold State.ckinSeen
  repeat' first
    | ((fail_if_no_progress extract_lets +onlyGivenNames x); clear_value x)
    | (with_reducible first
        | exact Only.refl
        | refine Only.when _ _ (fun _ => ?_) ?_
        | refine (setClk_only _ _).after (by decide) ?_)

theorem spineEdges_only (s : State) (l : List (ℕ × ℕ × Bool)) :
    Only 8 s (State.spineEdges s l) := by
  unfold State.spineEdges
  repeat' first
    | ((fail_if_no_progress extract_lets +onlyGivenNames x); refine Only.letElim (x := x) ?_ (fun _ => ?_); (on_goal 1 => unfold x); (on_goal 2 => clear_value x))
    | ((fail_if_no_progress extract_lets +onlyGivenNames x); clear_value x)
    | (with_reducible first
        | exact Only.refl
        | assumption
        | refine Only.each _ _ (fun _ _ => ?_) ?_
        | refine (latchFf_only _ _ _).after (by decide) ?_
        | refine (setFab_only _ _).after (by decide) ?_
        | refine (meshPortEdge_only _ _).after (by decide) ?_)

theorem execFreeFfClockEdge_only (m : ℕ) (fall : Bool) (s : State) :
    ∀ t', execFreeFfClockEdge m fall s = .next t' → Only 24 s t' := by
  intro t' h
  unfold execFreeFfClockEdge at h
  injection h with h
  subst h
  repeat' first
    | ((fail_if_no_progress extract_lets +onlyGivenNames x); refine Only.letElim (x := x.1) ?_ (fun _ => ?_); (on_goal 1 => unfold x); (on_goal 2 => clear_value x))
    | (with_reducible first
        | exact Only.refl
        | assumption
        | refine (clockEdge_only _ _ _).after (by decide) ?_
        | refine (ckinSeen_only _ _ _).after (by decide) ?_
        | refine (spineEdges_only _ _).after (by decide) ?_
        | refine Only.ite ?_ ?_)

theorem execAsyncSrAssert_only (k : ℕ) (s : State) :
    ∀ t', execAsyncSrAssert k s = .next t' → Only 8 s t' := by
  intro t' h
  unfold execAsyncSrAssert at h
  injection h with h
  subst h
  repeat' first
    | ((fail_if_no_progress extract_lets +onlyGivenNames x); clear_value x)
    | (with_reducible first
        | exact Only.refl
        | refine (setFab_only _ _).after (by decide) ?_
        | refine Only.ite ?_ ?_)
    | split

theorem rowFlips_only (s : State) (up : List (ℕ × ℕ)) :
    Only 8 s (State.rowFlips s up) := by
  unfold State.rowFlips
  repeat' first
    | (with_reducible first
        | exact Only.refl
        | refine Only.each _ _ (fun _ _ => ?_) ?_
        | refine (setRow_only _ _ _ _).after (by decide) ?_)

theorem memFree_only (s : State) (c : MemCfg) (pa : Bool) (pb : Bool) :
    Only 136713 s (State.memFree s c pa pb) := by
  unfold State.memFree
  repeat' first
    | ((fail_if_no_progress extract_lets +onlyGivenNames x); refine Only.letElim (x := x) ?_ (fun _ => ?_); (on_goal 1 => unfold x); (on_goal 2 => clear_value x))
    | ((fail_if_no_progress extract_lets +onlyGivenNames x); clear_value x)
    | (with_reducible first
        | exact Only.refl
        | assumption
        | refine (memEdge_only _ _ _ _ _).after (by decide) ?_
        | refine (portSr_only _ _ _ _ _).after (by decide) ?_
        | refine Only.ite ?_ ?_)

theorem execBramPortAccess_only (m : ℕ) (a : Bool) (b : Bool) (up : List (ℕ × ℕ)) (s : State) :
    ∀ t', execBramPortAccess m a b up s = .next t' → Only 136713 s t' := by
  intro t' h
  unfold execBramPortAccess at h
  injection h with h
  subst h
  repeat' first
    | ((fail_if_no_progress extract_lets +onlyGivenNames x); refine Only.letElim (x := x) ?_ (fun _ => ?_); (on_goal 1 => unfold x); (on_goal 2 => clear_value x))
    | ((fail_if_no_progress extract_lets +onlyGivenNames x); (fail_if_success (have := fun y => x y)); (fail_if_success (have : CRes := x)); (fail_if_success (have : Security := x)); (fail_if_success (have : Hbm := x)); (fail_if_success (have : Option State := x)); clear_value x)
    | ((fail_if_no_progress extract_lets +onlyGivenNames x); (try unfold x); clear x)
    | (with_reducible first
        | exact Only.refl
        | assumption
        | refine (rowFlips_only _ _).after (by decide) ?_
        | refine (memFree_only _ _ _ _).after (by decide) ?_
        | refine Only.ite ?_ ?_)
    | split

theorem execSliceUpdate_only (sls : List (ℕ × ℕ)) (s : State) :
    ∀ t', execSliceUpdate sls s = .next t' → Only 136713 s t' := by
  intro t' h
  unfold execSliceUpdate at h
  injection h with h
  subst h
  repeat' first
    | ((fail_if_no_progress extract_lets +onlyGivenNames x); refine Only.letElim (x := x) ?_ (fun _ => ?_); (on_goal 1 => unfold x); (on_goal 2 => clear_value x))
    | ((fail_if_no_progress extract_lets +onlyGivenNames x); clear_value x)
    | (with_reducible first
        | exact Only.refl
        | assumption
        | refine Only.each _ _ (fun _ _ => ?_) ?_
        | refine (latchSlice_only _ _ _).after (by decide) ?_
        | refine (setFab_only _ _).after (by decide) ?_
        | refine (residueError_only _ _ _).after (by decide) ?_
        | refine Only.ite ?_ ?_)

end Sys2Proof.Machine
end

