-- ==== Sys2Proof/Laws/OnlyCfgEnd.lean ====
section
/-! SUPPORT. Sys2Proof/Laws/OnlyCfgEnd.lean: what the operations of Machine/CfgEnd.lean leave alone (Laws/Only.lean): one lemma each. -/

set_option linter.unusedTactic false
set_option linter.tactic.unusedName false
set_option linter.unusedVariables false
set_option linter.unreachableTactic false

namespace Sys2Proof.Machine

theorem cfgIdle_only (s : State) :
    Only 33 s (State.cfgIdle s) := by
  unfold State.cfgIdle
  repeat' first
    | ((fail_if_no_progress extract_lets +onlyGivenNames x); clear_value x)
    | (with_reducible first
        | exact Only.refl
        | refine (put_only _ _ _).after (by decide) ?_
        | refine (setCfg_only _ _).after (by decide) ?_)

theorem cfgDone_only (s : State) :
    Only 132641 s (State.cfgDone s) := by
  unfold State.cfgDone
  repeat' first
    | (with_reducible first
        | exact Only.refl
        | refine (raise_only _ _).after (by decide) ?_
        | refine (put_only _ _ _).after (by decide) ?_
        | refine (cfgIdle_only _).after (by decide) ?_)

theorem partialFail_only (s : State) (k : ℕ) :
    Only 33 s (State.partialFail s k) := by
  unfold State.partialFail
  repeat' first
    | ((fail_if_no_progress extract_lets +onlyGivenNames x); clear_value x)
    | (with_reducible first
        | exact Only.refl
        | refine (setCfg_only _ _).after (by decide) ?_
        | refine (setBay_only _ _ _).after (by decide) ?_
        | refine (disarm_only _).after (by decide) ?_
        | refine Only.ite ?_ ?_)

theorem cfgFail_only (s : State) (cause : ℕ) (bay : ℕ) (frame : ℕ) :
    Only 394785 s (State.cfgFail s cause bay frame) := by
  unfold State.cfgFail
  repeat' first
    | ((fail_if_no_progress extract_lets +onlyGivenNames x); refine Only.letElim (x := x) ?_ (fun _ => ?_); (on_goal 1 => unfold x); (on_goal 2 => clear_value x))
    | ((fail_if_no_progress extract_lets +onlyGivenNames x); clear_value x)
    | (with_reducible first
        | exact Only.refl
        | assumption
        | refine (partialFail_only _ _).after (by decide) ?_
        | refine (setCfg_only _ _).after (by decide) ?_
        | refine (cfgLog_only _ _ _ _).after (by decide) ?_
        | refine (put_only _ _ _).after (by decide) ?_
        | refine (cfgIdle_only _).after (by decide) ?_
        | refine (raiseAlarm_only _ _).after (by decide) ?_
        | refine Only.ite ?_ ?_)
    | split

theorem holdOn_only (s : State) :
    Only 8 s (State.holdOn s) := by
  unfold State.holdOn
  repeat' first
    | ((fail_if_no_progress extract_lets +onlyGivenNames x); clear_value x)
    | (with_reducible first
        | exact Only.refl
        | refine (setFab_only _ _).after (by decide) ?_)

theorem cfgStop_only (s : State) (cause : ℕ) :
    Only 394793 s (State.cfgStop s cause) := by
  unfold State.cfgStop
  repeat' first
    | ((fail_if_no_progress extract_lets +onlyGivenNames x); refine Only.letElim (x := x) ?_ (fun _ => ?_); (on_goal 1 => unfold x); (on_goal 2 => clear_value x))
    | ((fail_if_no_progress extract_lets +onlyGivenNames x); clear_value x)
    | (with_reducible first
        | exact Only.refl
        | assumption
        | refine (cfgFail_only _ _ _ _).after (by decide) ?_
        | refine (setCfg_only _ _).after (by decide) ?_
        | refine (holdOn_only _).after (by decide) ?_
        | refine Only.ite ?_ ?_)

end Sys2Proof.Machine
end

