-- ==== Sys2Proof/Laws/OnlyTetherOps.lean ====
section
/-! SUPPORT. Sys2Proof/Laws/OnlyTetherOps.lean: what the operations of Machine/TetherOps.lean leave alone (Laws/Only.lean): one lemma each. -/

set_option linter.unusedTactic false
set_option linter.tactic.unusedName false
set_option linter.unusedVariables false
set_option linter.unreachableTactic false

namespace Sys2Proof.Machine

theorem setTet_only (s : State) (t : Tether) :
    Only 524288 s (State.setTet s t) := by
  unfold State.setTet
  repeat' first
    | ((fail_if_no_progress extract_lets +onlyGivenNames x); clear_value x)
    | (with_reducible first
        | exact Only.refl
        | refine (setPin_only _ _).after (by decide) ?_)

theorem tetSend0_only (s : State) :
    Only 524288 s (State.tetSend0 s) := by
  unfold State.tetSend0
  repeat' first
    | ((fail_if_no_progress extract_lets +onlyGivenNames x); clear_value x)
    | (with_reducible first
        | exact Only.refl
        | refine (setTet_only _ _).after (by decide) ?_
        | refine Only.ite ?_ ?_)
    | split

theorem tetNext1_only (s : State) :
    Only 524288 s (State.tetNext1 s) := by
  unfold State.tetNext1
  repeat' first
    | ((fail_if_no_progress extract_lets +onlyGivenNames x); clear_value x)
    | (with_reducible first
        | exact Only.refl
        | refine (setTet_only _ _).after (by decide) ?_)
    | split

theorem tetSend1_only (s : State) (m : TetMsg) :
    Only 524288 s (State.tetSend1 s m) := by
  unfold State.tetSend1
  repeat' first
    | ((fail_if_no_progress extract_lets +onlyGivenNames x); clear_value x)
    | (with_reducible first
        | exact Only.refl
        | refine (tetNext1_only _).after (by decide) ?_
        | refine (setTet_only _ _).after (by decide) ?_
        | refine Only.ite ?_ ?_)

theorem tetBow_only (s : State) :
    Only 524288 s (State.tetBow s) := by
  unfold State.tetBow
  repeat' first
    | ((fail_if_no_progress extract_lets +onlyGivenNames x); clear_value x)
    | (with_reducible first
        | exact Only.refl
        | refine (tetSend1_only _ _).after (by decide) ?_
        | refine Only.ite ?_ ?_)

theorem tetClear_only (s : State) :
    Only 524288 s (State.tetClear s) := by
  unfold State.tetClear
  repeat' first
    | ((fail_if_no_progress extract_lets +onlyGivenNames x); clear_value x)
    | (with_reducible first
        | exact Only.refl
        | refine (setTet_only _ _).after (by decide) ?_)

theorem tetSync_only (s : State) :
    Only 524289 s (State.tetSync s) := by
  unfold State.tetSync
  repeat' first
    | ((fail_if_no_progress extract_lets +onlyGivenNames x); clear_value x)
    | (with_reducible first
        | exact Only.refl
        | refine (put_only _ _ _).after (by decide) ?_
        | refine (tetClear_only _).after (by decide) ?_
        | refine Only.ite ?_ ?_)

theorem tetLost_only (s : State) (cause : ℕ) :
    Only 657025 s (State.tetLost s cause) := by
  unfold State.tetLost
  repeat' first
    | ((fail_if_no_progress extract_lets +onlyGivenNames x); refine Only.letElim (x := x) ?_ (fun _ => ?_); (on_goal 1 => unfold x); (on_goal 2 => clear_value x))
    | (with_reducible first
        | exact Only.refl
        | assumption
        | refine (raise_only _ _).after (by decide) ?_
        | refine (tetClear_only _).after (by decide) ?_
        | refine (put_only _ _ _).after (by decide) ?_
        | refine Only.when _ _ (fun _ => ?_) ?_
        | refine (stopNow_only _).after (by decide) ?_)

theorem tetUp_only (s : State) :
    Only 524289 s (State.tetUp s) := by
  unfold State.tetUp
  repeat' first
    | ((fail_if_no_progress extract_lets +onlyGivenNames x); refine Only.letElim (x := x) ?_ (fun _ => ?_); (on_goal 1 => unfold x); (on_goal 2 => clear_value x))
    | ((fail_if_no_progress extract_lets +onlyGivenNames x); clear_value x)
    | (with_reducible first
        | exact Only.refl
        | assumption
        | refine (tetSend0_only _).after (by decide) ?_
        | refine (tetSend1_only _ _).after (by decide) ?_
        | refine (put_only _ _ _).after (by decide) ?_
        | refine (setTet_only _ _).after (by decide) ?_)

theorem tetTold_only (s : State) :
    Only 656897 s (State.tetTold s) := by
  unfold State.tetTold
  repeat' first
    | ((fail_if_no_progress extract_lets +onlyGivenNames x); clear_value x)
    | (with_reducible first
        | exact Only.refl
        | refine (raise_only _ _).after (by decide) ?_
        | refine (setTet_only _ _).after (by decide) ?_
        | refine Only.ite ?_ ?_)

theorem tetBad_only (s : State) :
    Only 1 s (State.tetBad s) := by
  unfold State.tetBad
  repeat' first
    | (with_reducible first
        | exact Only.refl
        | refine (satF_only _ _ _).after (by decide) ?_)

end Sys2Proof.Machine
end

