-- ==== Sys2Proof/Laws/OnlyBoot.lean ====
section
/-! SUPPORT. Sys2Proof/Laws/OnlyBoot.lean: what the operations of Machine/Boot.lean leave alone (Laws/Only.lean): one lemma each. -/

set_option linter.unusedTactic false
set_option linter.tactic.unusedName false
set_option linter.unusedVariables false
set_option linter.unreachableTactic false

namespace Sys2Proof.Machine

theorem loadBegin_only (s : State) (op : ℕ) (src : ℕ) :
    Only 32801 s (State.loadBegin s op src) := by
  unfold State.loadBegin
  repeat' first
    | ((fail_if_no_progress extract_lets +onlyGivenNames x); refine Only.letElim (x := x) ?_ (fun _ => ?_); (on_goal 1 => unfold x); (on_goal 2 => clear_value x))
    | ((fail_if_no_progress extract_lets +onlyGivenNames x); clear_value x)
    | (with_reducible first
        | exact Only.refl
        | assumption
        | refine (setScan_only _ _).after (by decide) ?_
        | refine (put_only _ _ _).after (by decide) ?_
        | refine (setCfg_only _ _).after (by decide) ?_
        | refine Only.ite ?_ ?_)

theorem fullPrep_only (s : State) (auto : Bool) :
    Only 524329 s (State.fullPrep s auto) := by
  unfold State.fullPrep
  repeat' first
    | ((fail_if_no_progress extract_lets +onlyGivenNames x); refine Only.letElim (x := x) ?_ (fun _ => ?_); (on_goal 1 => unfold x); (on_goal 2 => clear_value x))
    | ((fail_if_no_progress extract_lets +onlyGivenNames x); clear_value x)
    | (with_reducible first
        | exact Only.refl
        | assumption
        | refine (tetSend1_only _ _).after (by decide) ?_
        | refine (tetSend0_only _).after (by decide) ?_
        | refine (holdOn_only _).after (by decide) ?_
        | refine (setCfg_only _ _).after (by decide) ?_
        | refine (setFab_only _ _).after (by decide) ?_
        | refine (disarm_only _).after (by decide) ?_
        | refine (put_only _ _ _).after (by decide) ?_
        | refine Only.each _ _ (fun _ _ => ?_) ?_
        | refine (setBay_only _ _ _).after (by decide) ?_)

theorem loadGoes_only (s : State) (op : ℕ) (src : ℕ) (auto : Bool) :
    Only 689705 s (State.loadGoes s op src auto).1 := by
  unfold State.loadGoes
  repeat' first
    | (with_reducible first
        | exact Only.refl
        | refine (cfgRefuse_only _ _).after (by decide) ?_
        | refine (loadBegin_only _ _ _).after (by decide) ?_
        | refine (fullPrep_only _ _).after (by decide) ?_
        | refine Only.ite ?_ ?_)
    | split

theorem initMem_only (s : State) :
    Only 1 s (State.initMem s) := by
  unfold State.initMem
  repeat' first
    | ((fail_if_no_progress extract_lets +onlyGivenNames x); clear_value x)
    | (with_reducible first
        | exact Only.refl
        | refine Only.each _ _ (fun _ _ => ?_) ?_
        | refine (put_only _ _ _).after (by decide) ?_
        | refine Only.ite ?_ ?_)

theorem bootLoad_only (s : State) :
    Only 689705 s (State.bootLoad s) := by
  unfold State.bootLoad
  repeat' first
    | ((fail_if_no_progress extract_lets +onlyGivenNames x); refine Only.letElim (x := x) ?_ (fun _ => ?_); (on_goal 1 => unfold x); (on_goal 2 => clear_value x))
    | ((fail_if_no_progress extract_lets +onlyGivenNames x); clear_value x)
    | (with_reducible first
        | exact Only.refl
        | assumption
        | refine (setCfg_only _ _).after (by decide) ?_
        | refine (setReg_only _ _ _).after (by decide) ?_
        | refine (loadGoes_only _ _ _ _).after (by decide) ?_
        | refine Only.ite ?_ ?_)

theorem bootClock_only (s : State) :
    Only 689705 s (State.bootClock s) := by
  unfold State.bootClock
  repeat' first
    | ((fail_if_no_progress extract_lets +onlyGivenNames x); refine Only.letElim (x := x) ?_ (fun _ => ?_); (on_goal 1 => unfold x); (on_goal 2 => clear_value x))
    | ((fail_if_no_progress extract_lets +onlyGivenNames x); clear_value x)
    | (with_reducible first
        | exact Only.refl
        | assumption
        | refine (setCfg_only _ _).after (by decide) ?_
        | refine (bootLoad_only _).after (by decide) ?_
        | refine (initMem_only _).after (by decide) ?_
        | refine Only.ite ?_ ?_)

theorem bootMem_only (s : State) :
    Only 689705 s (State.bootMem s) := by
  unfold State.bootMem
  repeat' first
    | (with_reducible first
        | exact Only.refl
        | refine (bootLoad_only _).after (by decide) ?_
        | refine Only.ite ?_ ?_)

theorem execClockSwitchDone_only (m : ℕ) (s : State) :
    ∀ t', execClockSwitchDone m s = .next t' → Only 690105 s t' := by
  intro t' h
  unfold execClockSwitchDone at h
  injection h with h
  subst h
  repeat' first
    | (with_reducible first
        | exact Only.refl
        | refine (bootClock_only _).after (by decide) ?_
        | refine (switchEnd_only _ _).after (by decide) ?_)

theorem execClockSwitchForced_only (m : ℕ) (s : State) :
    ∀ t', execClockSwitchForced m s = .next t' → Only 690105 s t' := by
  intro t' h
  unfold execClockSwitchForced at h
  injection h with h
  subst h
  repeat' first
    | ((fail_if_no_progress extract_lets +onlyGivenNames x); refine Only.letElim (x := x) ?_ (fun _ => ?_); (on_goal 1 => unfold x); (on_goal 2 => clear_value x))
    | ((fail_if_no_progress extract_lets +onlyGivenNames x); refine Only.letElim (x := x.1) ?_ (fun _ => ?_); (on_goal 1 => unfold x); (on_goal 2 => clear_value x))
    | (with_reducible first
        | exact Only.refl
        | assumption
        | refine (raise_only _ _).after (by decide) ?_
        | refine Only.log _ _ _ (fun _ => ?_) ?_
        | refine (put_only _ _ _).after (by decide) ?_
        | refine (driveLow_only _ _).after (by decide) ?_
        | refine (bootClock_only _).after (by decide) ?_
        | refine (switchEnd_only _ _).after (by decide) ?_
        | refine (spineEdges_only _ _).after (by decide) ?_
        | refine Only.ite ?_ ?_)

end Sys2Proof.Machine
end

