-- ==== Sys2Proof/Laws/OnlyPinOps.lean ====
section
/-! SUPPORT. Sys2Proof/Laws/OnlyPinOps.lean: what the operations of Machine/PinOps.lean leave alone (Laws/Only.lean): one lemma each. -/

set_option linter.unusedTactic false
set_option linter.tactic.unusedName false
set_option linter.unusedVariables false
set_option linter.unreachableTactic false

namespace Sys2Proof.Machine

theorem pinSample_only (s : State) (l : List ℕ) :
    Only 1 s (State.pinSample s l) := by
  unfold State.pinSample
  repeat' first
    | ((fail_if_no_progress extract_lets +onlyGivenNames x); clear_value x)
    | (with_reducible first
        | exact Only.refl
        | refine (freeNext_only _).after (by decide) ?_
        | refine Only.each _ _ (fun _ _ => ?_) ?_
        | refine (setReg_only _ _ _).after (by decide) ?_
        | refine Only.ite ?_ ?_)

theorem trigInputs_only (s : State) :
    Only 656897 s (State.trigInputs s) := by
  unfold State.trigInputs
  repeat' first
    | ((fail_if_no_progress extract_lets +onlyGivenNames x); refine Only.letElim (x := x) ?_ (fun _ => ?_); (on_goal 1 => unfold x); (on_goal 2 => clear_value x))
    | ((fail_if_no_progress extract_lets +onlyGivenNames x); clear_value x)
    | (with_reducible first
        | exact Only.refl
        | assumption
        | refine Only.each _ _ (fun _ _ => ?_) ?_
        | refine (setPin_only _ _).after (by decide) ?_
        | refine Only.when _ _ (fun _ => ?_) ?_
        | refine (raise_only _ _).after (by decide) ?_
        | refine Only.ite ?_ ?_)

theorem pinFollow_only (s : State) (l : List ℕ) :
    Only 656897 s (State.pinFollow s l) := by
  unfold State.pinFollow
  repeat' first
    | (with_reducible first
        | exact Only.refl
        | refine (trigInputs_only _).after (by decide) ?_
        | refine (pinSample_only _ _).after (by decide) ?_)

theorem pinSwitch_only (s : State) :
    Only 656897 s (State.pinSwitch s) := by
  unfold State.pinSwitch
  repeat' first
    | (with_reducible first
        | exact Only.refl
        | refine (pinFollow_only _ _).after (by decide) ?_
        | refine Only.each _ _ (fun _ _ => ?_) ?_
        | refine (put_only _ _ _).after (by decide) ?_
        | refine Only.ite ?_ ?_)

theorem pinHand_only (s : State) :
    Only 656897 s (State.pinHand s) := by
  unfold State.pinHand
  repeat' first
    | (with_reducible first
        | exact Only.refl
        | refine (pinFollow_only _ _).after (by decide) ?_
        | refine Only.each _ _ (fun _ _ => ?_) ?_
        | refine (put_only _ _ _).after (by decide) ?_
        | refine Only.ite ?_ ?_)

theorem gpioSet_only (s : State) (b : ℕ) (v : Word) :
    Only 656897 s (State.gpioSet s b v) := by
  unfold State.gpioSet
  repeat' first
    | (with_reducible first
        | exact Only.refl
        | refine (pinFollow_only _ _).after (by decide) ?_
        | refine (setReg_only _ _ _).after (by decide) ?_
        | refine Only.ite ?_ ?_)

theorem gpioClr_only (s : State) (b : ℕ) (v : Word) :
    Only 656897 s (State.gpioClr s b v) := by
  unfold State.gpioClr
  repeat' first
    | (with_reducible first
        | exact Only.refl
        | refine (pinFollow_only _ _).after (by decide) ?_
        | refine (setReg_only _ _ _).after (by decide) ?_
        | refine Only.ite ?_ ?_)

theorem uartPush_only (s : State) (u : ℕ) (v : ℕ) :
    Only 524289 s (State.uartPush s u v) := by
  unfold State.uartPush
  repeat' first
    | ((fail_if_no_progress extract_lets +onlyGivenNames x); clear_value x)
    | (with_reducible first
        | exact Only.refl
        | refine (put_only _ _ _).after (by decide) ?_
        | refine (setPin_only _ _).after (by decide) ?_
        | refine Only.ite ?_ ?_)

theorem uartPop_only (s : State) (u : ℕ) :
    Only 524289 s (State.uartPop s u) := by
  unfold State.uartPop
  repeat' first
    | ((fail_if_no_progress extract_lets +onlyGivenNames x); clear_value x)
    | (with_reducible first
        | exact Only.refl
        | refine (put_only _ _ _).after (by decide) ?_
        | refine (setPin_only _ _).after (by decide) ?_)

theorem i2cWrite_only (s : State) (c : ℕ) (v : Word) :
    Only 524289 s (State.i2cWrite s c v) := by
  unfold State.i2cWrite
  repeat' first
    | ((fail_if_no_progress extract_lets +onlyGivenNames x); refine Only.letElim (x := x) ?_ (fun _ => ?_); (on_goal 1 => unfold x); (on_goal 2 => clear_value x))
    | ((fail_if_no_progress extract_lets +onlyGivenNames x); clear_value x)
    | (with_reducible first
        | exact Only.refl
        | assumption
        | refine (put_only _ _ _).after (by decide) ?_
        | refine Only.when _ _ (fun _ => ?_) ?_
        | refine (setPin_only _ _).after (by decide) ?_
        | refine Only.ite ?_ ?_)

theorem spiPush_only (s : State) (v : ℕ) :
    Only 656897 s (State.spiPush s v) := by
  unfold State.spiPush
  repeat' first
    | ((fail_if_no_progress extract_lets +onlyGivenNames x); clear_value x)
    | (with_reducible first
        | exact Only.refl
        | refine (pinFollow_only _ _).after (by decide) ?_
        | refine (put_only _ _ _).after (by decide) ?_
        | refine (setPin_only _ _).after (by decide) ?_
        | refine Only.ite ?_ ?_)

theorem spiPop_only (s : State) :
    Only 524289 s (State.spiPop s) := by
  unfold State.spiPop
  repeat' first
    | ((fail_if_no_progress extract_lets +onlyGivenNames x); clear_value x)
    | (with_reducible first
        | exact Only.refl
        | refine (put_only _ _ _).after (by decide) ?_
        | refine (setPin_only _ _).after (by decide) ?_)

theorem recRead_only (s : State) (r : List ℕ) :
    Only 656897 s (State.recRead s r) := by
  unfold State.recRead
  repeat' first
    | ((fail_if_no_progress extract_lets +onlyGivenNames x); refine Only.letElim (x := x) ?_ (fun _ => ?_); (on_goal 1 => unfold x); (on_goal 2 => clear_value x))
    | ((fail_if_no_progress extract_lets +onlyGivenNames x); clear_value x)
    | (with_reducible first
        | exact Only.refl
        | assumption
        | refine Only.each _ _ (fun _ _ => ?_) ?_
        | refine (setReg_only _ _ _).after (by decide) ?_
        | refine (setPin_only _ _).after (by decide) ?_
        | refine (put_only _ _ _).after (by decide) ?_
        | refine (freeNext_only _).after (by decide) ?_
        | refine (raise_only _ _).after (by decide) ?_
        | refine Only.ite ?_ ?_)

theorem gdlGo_only (s : State) (out : Bool) (len : ℕ) :
    Only 524289 s (State.gdlGo s out len) := by
  unfold State.gdlGo
  repeat' first
    | ((fail_if_no_progress extract_lets +onlyGivenNames x); clear_value x)
    | (with_reducible first
        | exact Only.refl
        | refine (put_only _ _ _).after (by decide) ?_
        | refine (setPin_only _ _).after (by decide) ?_)

theorem gdlEnd_only (s : State) (cause : ℕ) :
    Only 656897 s (State.gdlEnd s cause) := by
  unfold State.gdlEnd
  repeat' first
    | ((fail_if_no_progress extract_lets +onlyGivenNames x); refine Only.letElim (x := x) ?_ (fun _ => ?_); (on_goal 1 => unfold x); (on_goal 2 => clear_value x))
    | ((fail_if_no_progress extract_lets +onlyGivenNames x); clear_value x)
    | (with_reducible first
        | exact Only.refl
        | assumption
        | refine (setTail_only _ _).after (by decide) ?_
        | refine (put_only _ _ _).after (by decide) ?_
        | refine (setPin_only _ _).after (by decide) ?_
        | refine (raise_only _ _).after (by decide) ?_)
    | split

end Sys2Proof.Machine
end

