-- ==== Sys2Proof/Laws/OnlyPowerOps.lean ====
section
/-! SUPPORT. Sys2Proof/Laws/OnlyPowerOps.lean: what the operations of Machine/PowerOps.lean leave alone (Laws/Only.lean): one lemma each. -/

set_option linter.unusedTactic false
set_option linter.tactic.unusedName false
set_option linter.unusedVariables false
set_option linter.unreachableTactic false

namespace Sys2Proof.Machine

theorem setGate_only (s : State) (i : ℕ) (g : Gate) :
    Only 16 s (State.setGate s i g) := by
  unfold State.setGate
  repeat' first
    | ((fail_if_no_progress extract_lets +onlyGivenNames x); clear_value x)
    | (with_reducible first
        | exact Only.refl
        | refine (setClk_only _ _).after (by decide) ?_)

theorem setGateBit_only (s : State) (i : ℕ) (b : Bool) :
    Only 1 s (State.setGateBit s i b) := by
  unfold State.setGateBit
  repeat' first
    | ((fail_if_no_progress extract_lets +onlyGivenNames x); clear_value x)
    | (with_reducible first
        | exact Only.refl
        | refine (setReg_only _ _ _).after (by decide) ?_)

theorem gateShut_only (s : State) (i : ℕ) (soft : Bool) :
    Only 659345 s (State.gateShut s i soft) := by
  unfold State.gateShut
  repeat' first
    | ((fail_if_no_progress extract_lets +onlyGivenNames x); refine Only.letElim (x := x) ?_ (fun _ => ?_); (on_goal 1 => unfold x); (on_goal 2 => clear_value x))
    | (with_reducible first
        | exact Only.refl
        | assumption
        | refine (setGate_only _ _ _).after (by decide) ?_
        | refine (portSync_only _ _).after (by decide) ?_
        | refine (reelBreak_only _ _).after (by decide) ?_
        | refine (capSpoil_only _).after (by decide) ?_
        | refine (refreshEnter_only _ _).after (by decide) ?_
        | refine (tetSync_only _).after (by decide) ?_
        | refine (tetLost_only _ _).after (by decide) ?_
        | refine (pinFollow_only _ _).after (by decide) ?_
        | refine Only.ite ?_ ?_)

theorem gateReopen_only (s : State) (i : ℕ) :
    Only 657297 s (State.gateReopen s i) := by
  unfold State.gateReopen
  repeat' first
    | ((fail_if_no_progress extract_lets +onlyGivenNames x); refine Only.letElim (x := x) ?_ (fun _ => ?_); (on_goal 1 => unfold x); (on_goal 2 => clear_value x))
    | (with_reducible first
        | exact Only.refl
        | assumption
        | refine (setGate_only _ _ _).after (by decide) ?_
        | refine (coreThaw_only _ _).after (by decide) ?_
        | refine (portSync_only _ _).after (by decide) ?_
        | refine (tetSync_only _).after (by decide) ?_
        | refine (pinFollow_only _ _).after (by decide) ?_
        | refine Only.ite ?_ ?_)

theorem gateClose_only (s : State) (i : ℕ) :
    Only 17 s (State.gateClose s i) := by
  unfold State.gateClose
  repeat' first
    | ((fail_if_no_progress extract_lets +onlyGivenNames x); refine Only.letElim (x := x) ?_ (fun _ => ?_); (on_goal 1 => unfold x); (on_goal 2 => clear_value x))
    | (with_reducible first
        | exact Only.refl
        | assumption
        | refine (setGateBit_only _ _ _).after (by decide) ?_
        | refine (setGate_only _ _ _).after (by decide) ?_
        | refine Only.ite ?_ ?_)

theorem gateOpen_only (s : State) (i : ℕ) :
    Only 657297 s (State.gateOpen s i) := by
  unfold State.gateOpen
  repeat' first
    | ((fail_if_no_progress extract_lets +onlyGivenNames x); refine Only.letElim (x := x) ?_ (fun _ => ?_); (on_goal 1 => unfold x); (on_goal 2 => clear_value x))
    | (with_reducible first
        | exact Only.refl
        | assumption
        | refine (setGateBit_only _ _ _).after (by decide) ?_
        | refine (gateReopen_only _ _).after (by decide) ?_
        | refine Only.ite ?_ ?_)

theorem gateStopped_only (s : State) (i : ℕ) :
    Only 659345 s (State.gateStopped s i) := by
  unfold State.gateStopped
  repeat' first
    | ((fail_if_no_progress extract_lets +onlyGivenNames x); refine Only.letElim (x := x) ?_ (fun _ => ?_); (on_goal 1 => unfold x); (on_goal 2 => clear_value x))
    | (with_reducible first
        | exact Only.refl
        | assumption
        | refine (gateShut_only _ _ _).after (by decide) ?_
        | refine (gateReopen_only _ _).after (by decide) ?_
        | refine Only.ite ?_ ?_)

theorem gateWrite_only (s : State) (lo : ℕ) (n : ℕ) (v : Word) :
    Only 657297 s (State.gateWrite s lo n v) := by
  unfold State.gateWrite
  repeat' first
    | (with_reducible first
        | exact Only.refl
        | refine Only.each _ _ (fun _ _ => ?_) ?_
        | refine (gateOpen_only _ _).after (by decide) ?_
        | refine (gateClose_only _ _).after (by decide) ?_
        | refine Only.ite ?_ ?_)

theorem setAllow_only (s : State) (i : ℕ) (v : ℤ) :
    Only 1 s (State.setAllow s i v) := by
  unfold State.setAllow
  repeat' first
    | (with_reducible first
        | exact Only.refl
        | refine (put_only _ _ _).after (by decide) ?_)

theorem balHold_only (s : State) (i : ℕ) :
    Only 65537 s (State.balHold s i) := by
  unfold State.balHold
  repeat' first
    | ((fail_if_no_progress extract_lets +onlyGivenNames x); clear_value x)
    | (with_reducible first
        | exact Only.refl
        | refine (put_only _ _ _).after (by decide) ?_
        | refine (setBal_only _ _).after (by decide) ?_)

theorem balSettle_only (s : State) :
    Only 65537 s (State.balSettle s) := by
  unfold State.balSettle
  repeat' first
    | ((fail_if_no_progress extract_lets +onlyGivenNames x); clear_value x)
    | (with_reducible first
        | exact Only.refl
        | refine (setBal_only _ _).after (by decide) ?_
        | refine (put_only _ _ _).after (by decide) ?_
        | refine Only.each _ _ (fun _ _ => ?_) ?_
        | refine (balHold_only _ _).after (by decide) ?_)

theorem meterRead_only (s : State) (m : List ℕ) :
    Only 198145 s (State.meterRead s m) := by
  unfold State.meterRead
  repeat' first
    | ((fail_if_no_progress extract_lets +onlyGivenNames x); refine Only.letElim (x := x) ?_ (fun _ => ?_); (on_goal 1 => unfold x); (on_goal 2 => clear_value x))
    | ((fail_if_no_progress extract_lets +onlyGivenNames x); clear_value x)
    | (with_reducible first
        | exact Only.refl
        | assumption
        | refine (setBal_only _ _).after (by decide) ?_
        | refine Only.each _ _ (fun _ _ => ?_) ?_
        | refine (setAllow_only _ _ _).after (by decide) ?_
        | refine (raise_only _ _).after (by decide) ?_
        | refine (put_only _ _ _).after (by decide) ?_
        | refine (balHold_only _ _).after (by decide) ?_
        | refine (balSettle_only _).after (by decide) ?_
        | refine Only.ite ?_ ?_)

theorem thermRead_only (s : State) (temps : List ℤ) :
    Only 132609 s (State.thermRead s temps) := by
  unfold State.thermRead
  repeat' first
    | ((fail_if_no_progress extract_lets +onlyGivenNames x); refine Only.letElim (x := x) ?_ (fun _ => ?_); (on_goal 1 => unfold x); (on_goal 2 => clear_value x))
    | ((fail_if_no_progress extract_lets +onlyGivenNames x); clear_value x)
    | (with_reducible first
        | exact Only.refl
        | assumption
        | refine (put_only _ _ _).after (by decide) ?_
        | refine (raise_only _ _).after (by decide) ?_
        | refine Only.ite ?_ ?_)
    | split

theorem balRefill_only (s : State) (i : ℕ) :
    Only 132609 s (State.balRefill s i) := by
  unfold State.balRefill
  repeat' first
    | ((fail_if_no_progress extract_lets +onlyGivenNames x); refine Only.letElim (x := x) ?_ (fun _ => ?_); (on_goal 1 => unfold x); (on_goal 2 => clear_value x))
    | ((fail_if_no_progress extract_lets +onlyGivenNames x); clear_value x)
    | (with_reducible first
        | exact Only.refl
        | assumption
        | refine (setAllow_only _ _ _).after (by decide) ?_
        | refine (raise_only _ _).after (by decide) ?_
        | refine (put_only _ _ _).after (by decide) ?_
        | refine Only.ite ?_ ?_)

theorem balWindow_only (s : State) (m : List ℕ) (temps : List ℤ) :
    Only 198145 s (State.balWindow s m temps) := by
  unfold State.balWindow
  repeat' first
    | ((fail_if_no_progress extract_lets +onlyGivenNames x); refine Only.letElim (x := x) ?_ (fun _ => ?_); (on_goal 1 => unfold x); (on_goal 2 => clear_value x))
    | ((fail_if_no_progress extract_lets +onlyGivenNames x); clear_value x)
    | (with_reducible first
        | exact Only.refl
        | assumption
        | refine (meterRead_only _ _).after (by decide) ?_
        | refine Only.each _ _ (fun _ _ => ?_) ?_
        | refine Only.when _ _ (fun _ => ?_) ?_
        | refine (put_only _ _ _).after (by decide) ?_
        | refine (satF_only _ _ _).after (by decide) ?_
        | refine (thermRead_only _ _).after (by decide) ?_
        | refine (setBal_only _ _).after (by decide) ?_
        | refine (balSettle_only _).after (by decide) ?_
        | refine (balRefill_only _ _).after (by decide) ?_)

theorem wake_only (s : State) (cause : ℕ) :
    Only 65537 s (State.wake s cause) := by
  unfold State.wake
  repeat' first
    | ((fail_if_no_progress extract_lets +onlyGivenNames x); clear_value x)
    | (with_reducible first
        | exact Only.refl
        | refine (setBal_only _ _).after (by decide) ?_
        | refine (put_only _ _ _).after (by decide) ?_
        | refine Only.ite ?_ ?_)

theorem wakeCheck_only (s : State) :
    Only 65537 s (State.wakeCheck s) := by
  unfold State.wakeCheck
  repeat' first
    | ((fail_if_no_progress extract_lets +onlyGivenNames x); clear_value x)
    | (with_reducible first
        | exact Only.refl
        | refine (wake_only _ _).after (by decide) ?_
        | refine Only.ite ?_ ?_)

theorem powerRequest_only (s : State) (p : ℕ) :
    Only 198145 s (State.powerRequest s p) := by
  unfold State.powerRequest
  repeat' first
    | ((fail_if_no_progress extract_lets +onlyGivenNames x); refine Only.letElim (x := x) ?_ (fun _ => ?_); (on_goal 1 => unfold x); (on_goal 2 => clear_value x))
    | ((fail_if_no_progress extract_lets +onlyGivenNames x); clear_value x)
    | (with_reducible first
        | exact Only.refl
        | assumption
        | refine (put_only _ _ _).after (by decide) ?_
        | refine (setBal_only _ _).after (by decide) ?_
        | refine (raise_only _ _).after (by decide) ?_
        | refine Only.ite ?_ ?_)

theorem powerApply_only (s : State) :
    Only 659345 s (State.powerApply s) := by
  unfold State.powerApply
  repeat' first
    | ((fail_if_no_progress extract_lets +onlyGivenNames x); refine Only.letElim (x := x) ?_ (fun _ => ?_); (on_goal 1 => unfold x); (on_goal 2 => clear_value x))
    | ((fail_if_no_progress extract_lets +onlyGivenNames x); clear_value x)
    | (with_reducible first
        | exact Only.refl
        | assumption
        | refine Only.each _ _ (fun _ _ => ?_) ?_
        | refine (gateShut_only _ _ _).after (by decide) ?_
        | refine (gateReopen_only _ _).after (by decide) ?_
        | refine (refreshEnter_only _ _).after (by decide) ?_
        | refine Only.ite ?_ ?_)

theorem powerEnd_only (s : State) :
    Only 724881 s (State.powerEnd s) := by
  unfold State.powerEnd
  repeat' first
    | ((fail_if_no_progress extract_lets +onlyGivenNames x); refine Only.letElim (x := x) ?_ (fun _ => ?_); (on_goal 1 => unfold x); (on_goal 2 => clear_value x))
    | ((fail_if_no_progress extract_lets +onlyGivenNames x); clear_value x)
    | (with_reducible first
        | exact Only.refl
        | assumption
        | refine (powerApply_only _).after (by decide) ?_
        | refine (raise_only _ _).after (by decide) ?_
        | refine (put_only _ _ _).after (by decide) ?_
        | refine (powerRequest_only _ _).after (by decide) ?_
        | refine (setBal_only _ _).after (by decide) ?_
        | refine Only.ite ?_ ?_)
    | split

theorem heldWake_only (s : State) :
    Only 65537 s (State.heldWake s) := by
  unfold State.heldWake
  repeat' first
    | (with_reducible first
        | exact Only.refl
        | refine (wake_only _ _).after (by decide) ?_)

theorem regWakes_only (s : State) (off : ℕ) :
    Only 65537 s (State.regWakes s off) := by
  unfold State.regWakes
  repeat' first
    | (with_reducible first
        | exact Only.refl
        | refine Only.when _ _ (fun _ => ?_) ?_
        | refine (heldWake_only _).after (by decide) ?_)
    | split

theorem holdWrite_only (s : State) (src : ℕ) (off : ℕ) (v : Word) :
    Only 1024 s (State.holdWrite s src off v) := by
  unfold State.holdWrite
  repeat' first
    | ((fail_if_no_progress extract_lets +onlyGivenNames x); clear_value x)
    | (with_reducible first
        | exact Only.refl
        | refine (setMesh_only _ _).after (by decide) ?_)

end Sys2Proof.Machine
end

