-- ==== Sys2Proof/Laws/OnlyDebugOps.lean ====
section
/-! SUPPORT. Sys2Proof/Laws/OnlyDebugOps.lean: what the operations of Machine/DebugOps.lean leave alone (Laws/Only.lean): one lemma each. -/

set_option linter.unusedTactic false
set_option linter.tactic.unusedName false
set_option linter.unusedVariables false
set_option linter.unreachableTactic false

namespace Sys2Proof.Machine

theorem dbgRefuse_only (s : State) (cause : ℕ) :
    Only 132609 s (State.dbgRefuse s cause) := by
  unfold State.dbgRefuse
  repeat' first
    | (with_reducible first
        | exact Only.refl
        | refine (raise_only _ _).after (by decide) ?_
        | refine (put_only _ _ _).after (by decide) ?_)

theorem attach_only (s : State) :
    Only 659345 s (State.attach s) := by
  unfold State.attach
  repeat' first
    | (with_reducible first
        | exact Only.refl
        | refine (dbgRefuse_only _ _).after (by decide) ?_
        | refine (powerApply_only _).after (by decide) ?_
        | refine (raise_only _ _).after (by decide) ?_
        | refine (put_only _ _ _).after (by decide) ?_
        | refine Only.ite ?_ ?_)

theorem coreResume_only (s : State) (c : ℕ) (step : Bool) :
    Only 8193 s (State.coreResume s c step) := by
  unfold State.coreResume
  repeat' first
    | ((fail_if_no_progress extract_lets +onlyGivenNames x); refine Only.letElim (x := x) ?_ (fun _ => ?_); (on_goal 1 => unfold x); (on_goal 2 => clear_value x))
    | ((fail_if_no_progress extract_lets +onlyGivenNames x); clear_value x)
    | (with_reducible first
        | exact Only.refl
        | assumption
        | refine (setCore_only _ _ _).after (by decide) ?_
        | refine (setReg_only _ _ _).after (by decide) ?_
        | refine (put_only _ _ _).after (by decide) ?_
        | refine (coreThaw_only _ _).after (by decide) ?_
        | refine Only.ite ?_ ?_)

theorem detach_only (s : State) :
    Only 667537 s (State.detach s) := by
  unfold State.detach
  repeat' first
    | ((fail_if_no_progress extract_lets +onlyGivenNames x); refine Only.letElim (x := x) ?_ (fun _ => ?_); (on_goal 1 => unfold x); (on_goal 2 => clear_value x))
    | ((fail_if_no_progress extract_lets +onlyGivenNames x); clear_value x)
    | (with_reducible first
        | exact Only.refl
        | assumption
        | refine Only.each _ _ (fun _ _ => ?_) ?_
        | refine (setCore_only _ _ _).after (by decide) ?_
        | refine (coreResume_only _ _ _).after (by decide) ?_
        | refine (put_only _ _ _).after (by decide) ?_
        | refine (setReg_only _ _ _).after (by decide) ?_
        | refine (powerApply_only _).after (by decide) ?_
        | refine (raise_only _ _).after (by decide) ?_
        | refine Only.ite ?_ ?_)

end Sys2Proof.Machine
end

