-- ==== Sys2Proof/Laws/OnlySettle.lean ====
section
/-! SUPPORT. Sys2Proof/Laws/OnlySettle.lean: what the operations of Machine/Settle.lean leave alone (Laws/Only.lean): one lemma each. -/

set_option linter.unusedTactic false
set_option linter.tactic.unusedName false
set_option linter.unusedVariables false
set_option linter.unreachableTactic false

namespace Sys2Proof.Machine

theorem slotsClear_only (s : State) :
    Only 262144 s (State.slotsClear s) := by
  unfold State.slotsClear
  repeat' first
    | ((fail_if_no_progress extract_lets +onlyGivenNames x); (try unfold x); clear x)
    | (with_reducible first
        | exact Only.refl
        | refine (setSec_only _ _ (by exact Fuses.Grows.refl _)).after (by decide) ?_)

theorem alarmAct_only (s : State) :
    Only 995257 s (State.alarmAct s) := by
  unfold State.alarmAct
  repeat' first
    | ((fail_if_no_progress extract_lets +onlyGivenNames x); refine Only.letElim (x := x) ?_ (fun _ => ?_); (on_goal 1 => unfold x); (on_goal 2 => clear_value x))
    | ((fail_if_no_progress extract_lets +onlyGivenNames x); (try unfold x); clear x)
    | (with_reducible first
        | exact Only.refl
        | assumption
        | refine (slotsClear_only _).after (by decide) ?_
        | refine (keyClear_only _).after (by decide) ?_
        | refine (setSec_only _ _ (by exact Fuses.Grows.refl _)).after (by decide) ?_
        | refine (xferEnd_only _ _).after (by decide) ?_
        | refine (capSpoil_only _).after (by decide) ?_
        | refine (cfgStop_only _ _).after (by decide) ?_
        | refine (reelBreak_only _ _).after (by decide) ?_
        | refine (wake_only _ _).after (by decide) ?_
        | refine (stopNow_only _).after (by decide) ?_
        | refine (put_only _ _ _).after (by decide) ?_
        | refine (detach_only _).after (by decide) ?_
        | refine Only.ite ?_ ?_)

theorem settle_only (s : State) :
    Only 995257 s (State.settle s) := by
  unfold State.settle
  repeat' first
    | (with_reducible first
        | exact Only.refl
        | refine (wakeCheck_only _).after (by decide) ?_
        | refine (alarmAct_only _).after (by decide) ?_
        | refine Only.ite ?_ ?_)

end Sys2Proof.Machine
end

