-- ==== Sys2Proof/Laws/OnlyBow.lean ====
section
/-! SUPPORT. Sys2Proof/Laws/OnlyBow.lean: what the operations of Machine/Bow.lean leave alone (Laws/Only.lean): one lemma each. -/

set_option linter.unusedTactic false
set_option linter.tactic.unusedName false
set_option linter.unusedVariables false
set_option linter.unreachableTactic false

namespace Sys2Proof.Machine

theorem lateClear_only (s : State) :
    Only 544 s (State.lateClear s) := by
  unfold State.lateClear
  repeat' first
    | ((fail_if_no_progress extract_lets +onlyGivenNames x); refine Only.letElim (x := x) ?_ (fun _ => ?_); (on_goal 1 => unfold x); (on_goal 2 => clear_value x))
    | ((fail_if_no_progress extract_lets +onlyGivenNames x); clear_value x)
    | (with_reducible first
        | exact Only.refl
        | assumption
        | refine (setTail_only _ _).after (by decide) ?_
        | refine (setCfg_only _ _).after (by decide) ?_)

theorem bowCapture_only (s : State) (r : ℕ) :
    Only 400905 s (State.bowCapture s r) := by
  unfold State.bowCapture
  repeat' first
    | ((fail_if_no_progress extract_lets +onlyGivenNames x); clear_value x)
    | (with_reducible first
        | exact Only.refl
        | refine (capStart_only _ _).after (by decide) ?_
        | refine (setTail_only _ _).after (by decide) ?_
        | refine Only.ite ?_ ?_)

theorem bowsUsed_only (s : State) (r : ℕ) :
    Only 129 s (State.bowsUsed s r) := by
  unfold State.bowsUsed
  repeat' first
    | ((fail_if_no_progress extract_lets +onlyGivenNames x); clear_value x)
    | (with_reducible first
        | exact Only.refl
        | refine Only.each _ _ (fun _ _ => ?_) ?_
        | refine (put_only _ _ _).after (by decide) ?_
        | refine (setLat_only _ _).after (by decide) ?_)

theorem roundLen_only (s : State) (len : ℕ) :
    Only 1 s (State.roundLen s len) := by
  unfold State.roundLen
  repeat' first
    | ((fail_if_no_progress extract_lets +onlyGivenNames x); refine Only.letElim (x := x) ?_ (fun _ => ?_); (on_goal 1 => unfold x); (on_goal 2 => clear_value x))
    | (with_reducible first
        | exact Only.refl
        | assumption
        | refine (put_only _ _ _).after (by decide) ?_)

theorem rndClear_only (s : State) :
    Only 1 s (State.rndClear s) := by
  unfold State.rndClear
  repeat' first
    | (with_reducible first
        | exact Only.refl
        | refine (setReg_only _ _ _).after (by decide) ?_)

theorem bowEdge_only (s : State) (up : List (ℕ × ℕ)) (flips : List (ℕ × ℕ)) :
    Only 933869 s (State.bowEdge s up flips) := by
  unfold State.bowEdge
  repeat' first
    | ((fail_if_no_progress extract_lets +onlyGivenNames x); refine Only.letElim (x := x) ?_ (fun _ => ?_); (on_goal 1 => unfold x); (on_goal 2 => clear_value x))
    | ((fail_if_no_progress extract_lets +onlyGivenNames x); clear_value x)
    | (with_reducible first
        | exact Only.refl
        | assumption
        | refine (fabricEdge_only _ _).after (by decide) ?_
        | refine (rowFlips_only _ _).after (by decide) ?_
        | refine Only.each _ _ (fun _ _ => ?_) ?_
        | refine (sectorReset_only _ _ _).after (by decide) ?_
        | refine (setLat_only _ _).after (by decide) ?_
        | refine (put_only _ _ _).after (by decide) ?_
        | refine (bayRelease_only _ _).after (by decide) ?_
        | refine (callerBow_only _ _).after (by decide) ?_
        | refine (roundLen_only _ _).after (by decide) ?_
        | refine (capPending_only _).after (by decide) ?_
        | refine (lateClear_only _).after (by decide) ?_
        | refine (bowCapture_only _ _).after (by decide) ?_
        | refine (tetBow_only _).after (by decide) ?_
        | refine (bayFreeze_only _ _ _).after (by decide) ?_
        | refine (rndClear_only _).after (by decide) ?_
        | refine (roundMarks_only _).after (by decide) ?_
        | refine (bowsUsed_only _ _).after (by decide) ?_
        | refine Only.when _ _ (fun _ => ?_) ?_
        | refine (raise_only _ _).after (by decide) ?_
        | refine (setLatState_only _ _).after (by decide) ?_
        | refine (setTarget_only _ _).after (by decide) ?_
        | refine (latSettle_only _).after (by decide) ?_
        | refine (haltOnStop_only _).after (by decide) ?_
        | refine (sendTokens_only _ _ _).after (by decide) ?_
        | refine Only.ite ?_ ?_)
    | split
    | (with_reducible refine (Only.upd_round _).after (by decide) ?_)

theorem execBow_only (up : List (ℕ × ℕ)) (flips : List (ℕ × ℕ)) (s : State) :
    ∀ t', execBow up flips s = .next t' → Only 999421 s t' := by
  intro t' h
  unfold execBow at h
  injection h with h
  subst h
  repeat' first
    | ((fail_if_no_progress extract_lets +onlyGivenNames x); refine Only.letElim (x := x) ?_ (fun _ => ?_); (on_goal 1 => unfold x); (on_goal 2 => clear_value x))
    | ((fail_if_no_progress extract_lets +onlyGivenNames x); clear_value x)
    | (with_reducible first
        | exact Only.refl
        | assumption
        | refine (settle_only _).after (by decide) ?_
        | refine Only.each _ _ (fun _ _ => ?_) ?_
        | refine (restoreAt_only _ _ _).after (by decide) ?_
        | refine (sectorReset_only _ _ _).after (by decide) ?_
        | refine (tetBow_only _).after (by decide) ?_
        | refine (noteReady_only _).after (by decide) ?_
        | refine (lateClear_only _).after (by decide) ?_
        | refine (rndClear_only _).after (by decide) ?_
        | refine (setLat_only _ _).after (by decide) ?_
        | refine (put_only _ _ _).after (by decide) ?_
        | refine (bowEdge_only _ _ _).after (by decide) ?_
        | refine Only.ite ?_ ?_)
    | split

theorem resetSeen_only (s : State) :
    Only 128 s (State.resetSeen s) := by
  unfold State.resetSeen
  repeat' first
    | ((fail_if_no_progress extract_lets +onlyGivenNames x); clear_value x)
    | (with_reducible first
        | exact Only.refl
        | refine (setLat_only _ _).after (by decide) ?_)

theorem execResetEdge_only (s : State) :
    ∀ t', execResetEdge s = .next t' → Only 407177 s t' := by
  intro t' h
  unfold execResetEdge at h
  injection h with h
  subst h
  repeat' first
    | ((fail_if_no_progress extract_lets +onlyGivenNames x); refine Only.letElim (x := x) ?_ (fun _ => ?_); (on_goal 1 => unfold x); (on_goal 2 => clear_value x))
    | ((fail_if_no_progress extract_lets +onlyGivenNames x); clear_value x)
    | (with_reducible first
        | exact Only.refl
        | assumption
        | refine Only.each _ _ (fun _ _ => ?_) ?_
        | refine (fabricEdge_only _ _).after (by decide) ?_
        | refine (sectorReset_only _ _ _).after (by decide) ?_
        | refine (raise_only _ _).after (by decide) ?_
        | refine (resetSeen_only _).after (by decide) ?_
        | refine (put_only _ _ _).after (by decide) ?_
        | refine (setLat_only _ _).after (by decide) ?_
        | refine Only.ite ?_ ?_)

end Sys2Proof.Machine
end

