-- ==== Sys2Proof/Laws/OnlyCaller.lean ====
section
/-! SUPPORT. Sys2Proof/Laws/OnlyCaller.lean: what the operations of Machine/Caller.lean leave alone (Laws/Only.lean): one lemma each. -/

set_option linter.unusedTactic false
set_option linter.tactic.unusedName false
set_option linter.unusedVariables false
set_option linter.unreachableTactic false

namespace Sys2Proof.Machine

theorem select_only (s : State) (u : ℕ) (t : ℕ) (ue : Bool) :
    Only 136897 s (State.select s u t ue) := by
  unfold State.select
  repeat' first
    | ((fail_if_no_progress extract_lets +onlyGivenNames x); refine Only.letElim (x := x) ?_ (fun _ => ?_); (on_goal 1 => unfold x); (on_goal 2 => clear_value x))
    | ((fail_if_no_progress extract_lets +onlyGivenNames x); clear_value x)
    | (with_reducible first
        | exact Only.refl
        | assumption
        | refine (changeFlags_only _ _ _).after (by decide) ?_
        | refine (setCall_only _ _).after (by decide) ?_
        | refine (traceTask_only _ _ _ _ _).after (by decide) ?_
        | refine Only.when _ _ (fun _ => ?_) ?_
        | refine (taskFault_only _ _ _ _).after (by decide) ?_
        | refine (leafEvent_only _ _ _ _).after (by decide) ?_
        | refine (setUnit_only _ _ _).after (by decide) ?_
        | refine (setTask_only _ _ _).after (by decide) ?_)
    | split

theorem resume_only (s : State) (u : ℕ) (x : CStep) :
    Only 65 s (State.resume s u x) := by
  unfold State.resume
  repeat' first
    | ((fail_if_no_progress extract_lets +onlyGivenNames x); refine Only.letElim (x := x) ?_ (fun _ => ?_); (on_goal 1 => unfold x); (on_goal 2 => clear_value x))
    | ((fail_if_no_progress extract_lets +onlyGivenNames x); clear_value x)
    | (with_reducible first
        | exact Only.refl
        | assumption
        | refine (setUnit_only _ _ _).after (by decide) ?_
        | refine (setCall_only _ _).after (by decide) ?_
        | refine (traceTask_only _ _ _ _ _).after (by decide) ?_
        | refine (setTask_only _ _ _).after (by decide) ?_)

theorem fillUnit_only (s : State) (u : ℕ) (ues : List ℕ) :
    Only 136897 s (State.fillUnit s u ues) := by
  unfold State.fillUnit
  repeat' first
    | (with_reducible first
        | exact Only.refl
        | refine (select_only _ _ _ _).after (by decide) ?_
        | refine (resume_only _ _ _).after (by decide) ?_)
    | split

theorem preempt_only (s : State) (ues : List ℕ) :
    Only 136897 s (State.preempt s ues) := by
  unfold State.preempt
  repeat' first
    | ((fail_if_no_progress extract_lets +onlyGivenNames x); refine Only.letElim (x := x) ?_ (fun _ => ?_); (on_goal 1 => unfold x); (on_goal 2 => clear_value x))
    | ((fail_if_no_progress extract_lets +onlyGivenNames x); clear_value x)
    | (with_reducible first
        | exact Only.refl
        | assumption
        | refine (setUnit_only _ _ _).after (by decide) ?_
        | refine (setCall_only _ _).after (by decide) ?_
        | refine (setTask_only _ _ _).after (by decide) ?_
        | refine (select_only _ _ _ _).after (by decide) ?_
        | refine Only.when _ _ (fun _ => ?_) ?_
        | refine (trace_only _ _ _ _ _ _).after (by decide) ?_
        | refine Only.ite ?_ ?_)
    | split

theorem queueLost_only (q : ℕ) (s : State) :
    Only 136769 s (State.queueLost q s) := by
  unfold State.queueLost
  repeat' first
    | ((fail_if_no_progress extract_lets +onlyGivenNames x); clear_value x)
    | (with_reducible first
        | exact Only.refl
        | refine (leafEvent_only _ _ _ _).after (by decide) ?_
        | refine (setCall_only _ _).after (by decide) ?_
        | refine Only.ite ?_ ?_)

theorem execTaskDispatch_only (ues : List ℕ) (qs : List ℕ) (s : State) :
    ∀ t', execTaskDispatch ues qs s = .next t' → Only 999417 s t' := by
  intro t' h
  unfold execTaskDispatch at h
  injection h with h
  subst h
  repeat' first
    | ((fail_if_no_progress extract_lets +onlyGivenNames x); refine Only.letElim (x := x) ?_ (fun _ => ?_); (on_goal 1 => unfold x); (on_goal 2 => clear_value x))
    | ((fail_if_no_progress extract_lets +onlyGivenNames x); clear_value x)
    | (with_reducible first
        | exact Only.refl
        | assumption
        | refine (noteReady_only _).after (by decide) ?_
        | refine Only.each _ _ (fun _ _ => ?_) ?_
        | refine (queueLost_only _ _).after (by decide) ?_
        | refine (fillUnit_only _ _ _).after (by decide) ?_
        | refine (preempt_only _ _).after (by decide) ?_
        | refine (settle_only _).after (by decide) ?_
        | refine Only.ite ?_ ?_)

theorem execCallerNop_only (u : ℕ) (ue : Option ℕ) (s : State) :
    ∀ t', execCallerNop u ue s = .next t' → Only 999417 s t' := by
  intro t' h
  unfold execCallerNop at h
  injection h with h
  subst h
  repeat' first
    | ((fail_if_no_progress extract_lets +onlyGivenNames x); refine Only.letElim (x := x.1) ?_ (fun _ => ?_); (on_goal 1 => unfold x); (on_goal 2 => clear_value x))
    | (with_reducible first
        | exact Only.refl
        | assumption
        | refine (settle_only _).after (by decide) ?_
        | refine onStep_only _ _ _ _ _ (fun _ => ?_) (by decide)
        | refine (uopDone_only _ _ _).after (by decide) ?_
        | refine (stepEnd_only _ _ _ _).after (by decide) ?_)

theorem execCallerCapture_only (u : ℕ) (ue : Option ℕ) (s : State) :
    ∀ t', execCallerCapture u ue s = .next t' → Only 999417 s t' := by
  intro t' h
  unfold execCallerCapture at h
  injection h with h
  subst h
  repeat' first
    | ((fail_if_no_progress extract_lets +onlyGivenNames x); refine Only.letElim (x := x.1) ?_ (fun _ => ?_); (on_goal 1 => unfold x); (on_goal 2 => clear_value x))
    | (with_reducible first
        | exact Only.refl
        | assumption
        | refine (settle_only _).after (by decide) ?_
        | refine onStep_only _ _ _ _ _ (fun _ => ?_) (by decide)
        | refine (uopDone_only _ _ _).after (by decide) ?_
        | refine (stepPush_only _ _ _ _ _ _).after (by decide) ?_
        | refine Only.iteP ?_ ?_)

theorem execCallerDeliver_only (u : ℕ) (e : Ecc) (ue : Option ℕ) (s : State) :
    ∀ t', execCallerDeliver u e ue s = .next t' → Only 999417 s t' := by
  intro t' h
  unfold execCallerDeliver at h
  injection h with h
  subst h
  repeat' first
    | ((fail_if_no_progress extract_lets +onlyGivenNames x); refine Only.letElim (x := x) ?_ (fun _ => ?_); (on_goal 1 => unfold x); (on_goal 2 => clear_value x))
    | ((fail_if_no_progress extract_lets +onlyGivenNames x); refine Only.letElim (x := x.1) ?_ (fun _ => ?_); (on_goal 1 => unfold x); (on_goal 2 => clear_value x))
    | (with_reducible first
        | exact Only.refl
        | assumption
        | refine (settle_only _).after (by decide) ?_
        | refine onStep_only _ _ _ _ _ (fun _ => ?_) (by decide)
        | refine (stepPop_only _ _ _ _ _).after (by decide) ?_
        | refine (callerWrite_only _ _ _).after (by decide) ?_
        | refine (uopDone_only _ _ _).after (by decide) ?_
        | refine (stepEnd_only _ _ _ _).after (by decide) ?_
        | refine Only.iteP ?_ ?_)
    | split

theorem execCapsend_only (u : ℕ) (ue : Option ℕ) (s : State) :
    ∀ t', execCapsend u ue s = .next t' → Only 999417 s t' := by
  intro t' h
  unfold execCapsend at h
  injection h with h
  subst h
  repeat' first
    | ((fail_if_no_progress extract_lets +onlyGivenNames x); refine Only.letElim (x := x.1) ?_ (fun _ => ?_); (on_goal 1 => unfold x); (on_goal 2 => clear_value x))
    | (with_reducible first
        | exact Only.refl
        | assumption
        | refine (settle_only _).after (by decide) ?_
        | refine onStep_only _ _ _ _ _ (fun _ => ?_) (by decide)
        | refine (uopDone_only _ _ _).after (by decide) ?_
        | refine (stepHandOff_only _ _ _ _ _).after (by decide) ?_
        | refine Only.iteP ?_ ?_)

theorem execCallerSend_only (u : ℕ) (e : Ecc) (ue : Option ℕ) (s : State) :
    ∀ t', execCallerSend u e ue s = .next t' → Only 999417 s t' := by
  intro t' h
  unfold execCallerSend at h
  injection h with h
  subst h
  repeat' first
    | ((fail_if_no_progress extract_lets +onlyGivenNames x); refine Only.letElim (x := x.1) ?_ (fun _ => ?_); (on_goal 1 => unfold x); (on_goal 2 => clear_value x))
    | (with_reducible first
        | exact Only.refl
        | assumption
        | refine (settle_only _).after (by decide) ?_
        | refine onStep_only _ _ _ _ _ (fun _ => ?_) (by decide)
        | refine (stepPop_only _ _ _ _ _).after (by decide) ?_
        | refine (stepHandOff_only _ _ _ _ _).after (by decide) ?_
        | refine Only.iteP ?_ ?_)
    | split

theorem execCallerCopy_only (u : ℕ) (e : Ecc) (ue : Option ℕ) (s : State) :
    ∀ t', execCallerCopy u e ue s = .next t' → Only 999417 s t' := by
  intro t' h
  unfold execCallerCopy at h
  injection h with h
  subst h
  repeat' first
    | ((fail_if_no_progress extract_lets +onlyGivenNames x); refine Only.letElim (x := x.1) ?_ (fun _ => ?_); (on_goal 1 => unfold x); (on_goal 2 => clear_value x))
    | ((fail_if_no_progress extract_lets +onlyGivenNames x); clear_value x)
    | (with_reducible first
        | exact Only.refl
        | assumption
        | refine (settle_only _).after (by decide) ?_
        | refine onStep_only _ _ _ _ _ (fun _ => ?_) (by decide)
        | refine (stepPeek_only _ _ _ _ _).after (by decide) ?_
        | refine (stepPop_only _ _ _ _ _).after (by decide) ?_
        | refine (stepPush_only _ _ _ _ _ _).after (by decide) ?_
        | refine Only.iteP ?_ ?_)
    | split

theorem execCallerDelay_only (u : ℕ) (ue : Option ℕ) (s : State) :
    ∀ t', execCallerDelay u ue s = .next t' → Only 999417 s t' := by
  intro t' h
  unfold execCallerDelay at h
  injection h with h
  subst h
  repeat' first
    | ((fail_if_no_progress extract_lets +onlyGivenNames x); refine Only.letElim (x := x.1) ?_ (fun _ => ?_); (on_goal 1 => unfold x); (on_goal 2 => clear_value x))
    | ((fail_if_no_progress extract_lets +onlyGivenNames x); clear_value x)
    | (with_reducible first
        | exact Only.refl
        | assumption
        | refine (settle_only _).after (by decide) ?_
        | refine onStep_only _ _ _ _ _ (fun _ => ?_) (by decide)
        | refine (uopDone_only _ _ _).after (by decide) ?_
        | refine (listInsert_only _ _ _ _ (by assumption)).after (by decide) ?_
        | refine (uopWait_only _ _ _ _).after (by decide) ?_
        | refine (put_only _ _ _).after (by decide) ?_
        | refine (stepEnd_only _ _ _ _).after (by decide) ?_
        | refine Only.iteP ?_ ?_)
    | split

theorem execSetclk_only (u : ℕ) (ue : Option ℕ) (s : State) :
    ∀ t', execSetclk u ue s = .next t' → Only 999417 s t' := by
  intro t' h
  unfold execSetclk at h
  injection h with h
  subst h
  repeat' first
    | ((fail_if_no_progress extract_lets +onlyGivenNames x); refine Only.letElim (x := x) ?_ (fun _ => ?_); (on_goal 1 => unfold x); (on_goal 2 => clear_value x))
    | ((fail_if_no_progress extract_lets +onlyGivenNames x); refine Only.letElim (x := x.1) ?_ (fun _ => ?_); (on_goal 1 => unfold x); (on_goal 2 => clear_value x))
    | (with_reducible first
        | exact Only.refl
        | assumption
        | refine (settle_only _).after (by decide) ?_
        | refine onStep_only _ _ _ _ _ (fun _ => ?_) (by decide)
        | refine (setReg_only _ _ _).after (by decide) ?_
        | refine (uopDone_only _ _ _).after (by decide) ?_
        | refine (stepEnd_only _ _ _ _).after (by decide) ?_)

theorem execCallerFence_only (u : ℕ) (ue : Option ℕ) (s : State) :
    ∀ t', execCallerFence u ue s = .next t' → Only 999417 s t' := by
  intro t' h
  unfold execCallerFence at h
  injection h with h
  subst h
  repeat' first
    | ((fail_if_no_progress extract_lets +onlyGivenNames x); refine Only.letElim (x := x.1) ?_ (fun _ => ?_); (on_goal 1 => unfold x); (on_goal 2 => clear_value x))
    | (with_reducible first
        | exact Only.refl
        | assumption
        | refine (settle_only _).after (by decide) ?_
        | refine onStep_only _ _ _ _ _ (fun _ => ?_) (by decide)
        | refine ((issueFence_only _ _).of_eq (by assumption)).after (by decide) ?_
        | refine (uopWait_only _ _ _ _).after (by decide) ?_
        | refine (uopDone_only _ _ _).after (by decide) ?_
        | refine (stepEnd_only _ _ _ _).after (by decide) ?_
        | refine Only.ite ?_ ?_)
    | split

theorem execDlistExpiry_only (l : ℕ) (s : State) :
    ∀ t', execDlistExpiry l s = .next t' → Only 995321 s t' := by
  intro t' h
  unfold execDlistExpiry at h
  injection h with h
  subst h
  repeat' first
    | (with_reducible first
        | exact Only.refl
        | refine (settle_only _).after (by decide) ?_
        | refine (noteReady_only _).after (by decide) ?_
        | refine (expire_only _ _).after (by decide) ?_
        | refine Only.ite ?_ ?_)
    | split

theorem execSpillReadback_only (q : ℕ) (up : List (ℕ × ℕ)) (s : State) :
    ∀ t', execSpillReadback q up s = .next t' → Only 999417 s t' := by
  intro t' h
  unfold execSpillReadback at h
  injection h with h
  subst h
  repeat' first
    | (with_reducible first
        | exact Only.refl
        | refine (settle_only _).after (by decide) ?_
        | refine (noteReady_only _).after (by decide) ?_
        | refine (spillBack_only _ _ _).after (by decide) ?_)

theorem execCallerDone_only (s : State) :
    ∀ t', execCallerDone s = .next t' → Only 65 s t' := by
  intro t' h
  unfold execCallerDone at h
  injection h with h
  subst h
  repeat' first
    | ((fail_if_no_progress extract_lets +onlyGivenNames x); clear_value x)
    | (with_reducible first
        | exact Only.refl
        | refine (trace_only _ _ _ _ _ _).after (by decide) ?_
        | refine (put_only _ _ _).after (by decide) ?_
        | refine Only.ite ?_ ?_)

theorem execCallerStall_only (s : State) :
    ∀ t', execCallerStall s = .next t' → Only 132673 s t' := by
  intro t' h
  unfold execCallerStall at h
  injection h with h
  subst h
  repeat' first
    | ((fail_if_no_progress extract_lets +onlyGivenNames x); clear_value x)
    | (with_reducible first
        | exact Only.refl
        | refine (raise_only _ _).after (by decide) ?_
        | refine (put_only _ _ _).after (by decide) ?_
        | refine (setCall_only _ _).after (by decide) ?_
        | refine Only.ite ?_ ?_)

theorem execClrFault_only (t : ℕ) (s : State) :
    ∀ t', execClrFault t s = .next t' → Only 64 s t' := by
  intro t' h
  unfold execClrFault at h
  injection h with h
  subst h
  repeat' first
    | ((fail_if_no_progress extract_lets +onlyGivenNames x); clear_value x)
    | (with_reducible first
        | exact Only.refl
        | refine (noteReady_only _).after (by decide) ?_
        | refine (setTask_only _ _ _).after (by decide) ?_
        | refine Only.ite ?_ ?_)

theorem execTaskFlagWrite_only (t : ℕ) (hi : Bool) (v : Word) (s : State) :
    ∀ t', execTaskFlagWrite t hi v s = .next t' → Only 64 s t' := by
  intro t' h
  unfold execTaskFlagWrite at h
  injection h with h
  subst h
  repeat' first
    | (with_reducible first
        | exact Only.refl
        | refine (noteReady_only _).after (by decide) ?_
        | refine (changeFlags_only _ _ _).after (by decide) ?_)

theorem swapRefuse_only (s : State) :
    Only 132609 s (State.swapRefuse s) := by
  unfold State.swapRefuse
  repeat' first
    | (with_reducible first
        | exact Only.refl
        | refine (raise_only _ _).after (by decide) ?_
        | refine (put_only _ _ _).after (by decide) ?_)

theorem swapRequest_only (s : State) (mode : ℕ) :
    Only 132673 s (State.swapRequest s mode) := by
  unfold State.swapRequest
  repeat' first
    | ((fail_if_no_progress extract_lets +onlyGivenNames x); refine Only.letElim (x := x) ?_ (fun _ => ?_); (on_goal 1 => unfold x); (on_goal 2 => clear_value x))
    | ((fail_if_no_progress extract_lets +onlyGivenNames x); clear_value x)
    | (with_reducible first
        | exact Only.refl
        | assumption
        | refine (put_only _ _ _).after (by decide) ?_
        | refine (swapRefuse_only _).after (by decide) ?_
        | refine (setCall_only _ _).after (by decide) ?_
        | refine (noteReady_only _).after (by decide) ?_
        | refine (callerSwapNow_only _).after (by decide) ?_
        | refine Only.ite ?_ ?_)
    | split

theorem execSwapGo_only (mode : ℕ) (s : State) :
    ∀ t', execSwapGo mode s = .next t' → Only 132673 s t' := by
  intro t' h
  unfold execSwapGo at h
  injection h with h
  subst h
  repeat' first
    | (with_reducible first
        | exact Only.refl
        | refine (swapRequest_only _ _).after (by decide) ?_)

theorem execSyncGo_only (s : State) :
    ∀ t', execSyncGo s = .next t' → Only 1 s t' := by
  intro t' h
  unfold execSyncGo at h
  injection h with h
  subst h
  repeat' first
    | (with_reducible first
        | exact Only.refl
        | refine (put_only _ _ _).after (by decide) ?_)

theorem execSyncDone_only (s : State) :
    ∀ t', execSyncDone s = .next t' → Only 65 s t' := by
  intro t' h
  unfold execSyncDone at h
  injection h with h
  subst h
  repeat' first
    | ((fail_if_no_progress extract_lets +onlyGivenNames x); refine Only.letElim (x := x) ?_ (fun _ => ?_); (on_goal 1 => unfold x); (on_goal 2 => clear_value x))
    | ((fail_if_no_progress extract_lets +onlyGivenNames x); clear_value x)
    | (with_reducible first
        | exact Only.refl
        | assumption
        | refine (put_only _ _ _).after (by decide) ?_
        | refine (setCall_only _ _).after (by decide) ?_
        | refine (landHeld_only _ _).after (by decide) ?_
        | refine Only.ite ?_ ?_)

theorem qportPush_only (s : State) (poison : Bool) :
    Only 400969 s (State.qportPush s poison).1 := by
  unfold State.qportPush
  repeat' first
    | ((fail_if_no_progress extract_lets +onlyGivenNames x); clear_value x)
    | (with_reducible first
        | exact Only.refl
        | refine (push_only _ _ _ _ (by assumption)).after (by decide) ?_
        | refine Only.iteP ?_ ?_)
    | split

theorem qportPop_only (s : State) (e : Ecc) (up : List (ℕ × ℕ)) :
    Only 400961 s (State.qportPop s e up).1 := by
  unfold State.qportPop
  repeat' first
    | ((fail_if_no_progress extract_lets +onlyGivenNames x); refine Only.letElim (x := x) ?_ (fun _ => ?_); (on_goal 1 => unfold x); (on_goal 2 => clear_value x))
    | ((fail_if_no_progress extract_lets +onlyGivenNames x); clear_value x)
    | (with_reducible first
        | exact Only.refl
        | assumption
        | refine (spillBack_only _ _ _).after (by decide) ?_
        | refine (pop_only _ _ _ _ _ (by assumption)).after (by decide) ?_
        | refine (setReg_only _ _ _).after (by decide) ?_
        | refine Only.ite ?_ ?_
        | refine Only.iteP ?_ ?_)
    | split

theorem execQportPush_only (poison : Bool) (s : State) :
    ∀ t', execQportPush poison s = .next t' → Only 999417 s t' := by
  intro t' h
  unfold execQportPush at h
  injection h with h
  subst h
  repeat' first
    | (with_reducible first
        | exact Only.refl
        | refine (settle_only _).after (by decide) ?_
        | refine (qportPush_only _ _).after (by decide) ?_)

theorem execQportPop_only (e : Ecc) (up : List (ℕ × ℕ)) (s : State) :
    ∀ t', execQportPop e up s = .next t' → Only 400961 s t' := by
  intro t' h
  unfold execQportPop at h
  injection h with h
  subst h
  repeat' first
    | (with_reducible first
        | exact Only.refl
        | refine (qportPop_only _ _ _).after (by decide) ?_)

end Sys2Proof.Machine
end

