-- ==== Sys2Proof/Laws/OnlyCallerMesh.lean ====
section
/-! SUPPORT. Sys2Proof/Laws/OnlyCallerMesh.lean: what the operations of Machine/CallerMesh.lean leave alone (Laws/Only.lean): one lemma each. -/

set_option linter.unusedTactic false
set_option linter.tactic.unusedName false
set_option linter.unusedVariables false
set_option linter.unreachableTactic false

namespace Sys2Proof.Machine

theorem stepIssue_only (s : State) (u : ℕ) (x : CStep) (b : Option Bundle) :
    Only 1089 s (State.stepIssue s u x b) := by
  unfold State.stepIssue
  repeat' first
    | ((fail_if_no_progress extract_lets +onlyGivenNames x); refine Only.letElim (x := x.1) ?_ (fun _ => ?_); (on_goal 1 => unfold x); (on_goal 2 => clear_value x))
    | ((fail_if_no_progress extract_lets +onlyGivenNames x); clear_value x)
    | (with_reducible first
        | exact Only.refl
        | assumption
        | refine (meshQueue_only _ _ _ (by assumption)).after (by decide) ?_
        | refine (uopWait_only _ _ _ _).after (by decide) ?_
        | refine (uopDone_only _ _ _).after (by decide) ?_
        | refine (setUnit_only _ _ _).after (by decide) ?_)
    | split

theorem loadStep_only (s : State) (u : ℕ) (ue : Option ℕ) (x : CStep) :
    Only 401097 s (State.loadStep s u ue x) := by
  unfold State.loadStep
  repeat' first
    | (with_reducible first
        | exact Only.refl
        | refine (stepIssue_only _ _ _ _).after (by decide) ?_
        | refine (stepPush_only _ _ _ _ _ _).after (by decide) ?_
        | refine Only.ite ?_ ?_)
    | split

theorem storeStep_only (s : State) (u : ℕ) (e : Ecc) (ue : Option ℕ) (x : CStep) :
    Only 136897 s (State.storeStep s u e ue x) := by
  unfold State.storeStep
  repeat' first
    | ((fail_if_no_progress extract_lets +onlyGivenNames x); refine Only.letElim (x := x.1) ?_ (fun _ => ?_); (on_goal 1 => unfold x); (on_goal 2 => clear_value x))
    | (with_reducible first
        | exact Only.refl
        | assumption
        | refine (stepPop_only _ _ _ _ _).after (by decide) ?_
        | refine (stepIssue_only _ _ _ _).after (by decide) ?_
        | refine (stepEnd_only _ _ _ _).after (by decide) ?_
        | refine Only.ite ?_ ?_)
    | split

theorem execCallerLoad_only (u : ℕ) (ue : Option ℕ) (s : State) :
    ∀ t', execCallerLoad u ue s = .next t' → Only 999417 s t' := by
  intro t' h
  unfold execCallerLoad at h
  injection h with h
  subst h
  repeat' first
    | (with_reducible first
        | exact Only.refl
        | refine (settle_only _).after (by decide) ?_
        | refine onStep_only _ _ _ _ _ (fun _ => ?_) (by decide)
        | refine (loadStep_only _ _ _ _).after (by decide) ?_)

theorem execCallerStore_only (u : ℕ) (e : Ecc) (ue : Option ℕ) (s : State) :
    ∀ t', execCallerStore u e ue s = .next t' → Only 999417 s t' := by
  intro t' h
  unfold execCallerStore at h
  injection h with h
  subst h
  repeat' first
    | (with_reducible first
        | exact Only.refl
        | refine (settle_only _).after (by decide) ?_
        | refine onStep_only _ _ _ _ _ (fun _ => ?_) (by decide)
        | refine (storeStep_only _ _ _ _ _).after (by decide) ?_)

theorem stepRsp_only (s : State) (t : ℕ) (v : ℕ × ℕ × Bool) (ue : Option ℕ) :
    Only 401097 s (State.stepRsp s t v ue) := by
  unfold State.stepRsp
  repeat' first
    | ((fail_if_no_progress extract_lets +onlyGivenNames x); refine Only.letElim (x := x) ?_ (fun _ => ?_); (on_goal 1 => unfold x); (on_goal 2 => clear_value x))
    | ((fail_if_no_progress extract_lets +onlyGivenNames x); clear_value x)
    | (with_reducible first
        | exact Only.refl
        | assumption
        | refine (setUnit_only _ _ _).after (by decide) ?_
        | refine Only.trans ?_ (onStep_only _ _ _ _ _ (fun _ => ?_) (by decide))
        | refine (loadStep_only _ _ _ _).after (by decide) ?_
        | refine (storeStep_only _ _ _ _ _).after (by decide) ?_
        | refine (setCall_only _ _).after (by decide) ?_
        | refine Only.ite ?_ ?_)
    | split

theorem execCallerMeshResponse_only (t : ℕ) (ue : Option ℕ) (s : State) :
    ∀ t', execCallerMeshResponse t ue s = .next t' → Only 999417 s t' := by
  intro t' h
  unfold execCallerMeshResponse at h
  injection h with h
  subst h
  repeat' first
    | ((fail_if_no_progress extract_lets +onlyGivenNames x); refine Only.letElim (x := x) ?_ (fun _ => ?_); (on_goal 1 => unfold x); (on_goal 2 => clear_value x))
    | (with_reducible first
        | exact Only.refl
        | assumption
        | refine (takeInbox_only _ _ _ _ _ _ (by assumption)).after (by decide) ?_
        | refine (callerErr_only _ _ _).after (by decide) ?_
        | refine (settle_only _).after (by decide) ?_
        | refine (stepRsp_only _ _ _ _).after (by decide) ?_
        | refine Only.ite ?_ ?_)
    | split

end Sys2Proof.Machine
end

