-- ==== Sys2Proof/Laws/OnlyLoadOps.lean ====
section
/-! SUPPORT. Sys2Proof/Laws/OnlyLoadOps.lean: what the operations of Machine/LoadOps.lean leave alone (Laws/Only.lean): one lemma each. -/

set_option linter.unusedTactic false
set_option linter.tactic.unusedName false
set_option linter.unusedVariables false
set_option linter.unreachableTactic false

namespace Sys2Proof.Machine

theorem storeLines_only (y0 : ℕ) (y1 : ℕ) (y2 : ℕ) (y3 : State) :
    Only 400897 y3 (storeLines y0 y1 y2 y3) := by
  induction y0 generalizing y1 y2 y3 with
  | zero =>
    unfold storeLines
    exact Only.refl
  | succ n ih =>
    unfold storeLines
    repeat' first
      | (with_reducible first
          | exact Only.refl
          | refine (hubWrite_only _ _ _ _ _ _).after (by decide) ?_
          | refine Only.trans ?_ (ih _ _ _))

theorem fetchLines_only (n a : Nat) (s : State) : Only 400897 s (fetchLines n a s).1 := by
  induction n generalizing a s with
  | zero => exact Only.refl
  | succ n ih =>
    have hr := (hubRead_only s 20 a 64 []).mono (by decide : _ &&& 400897 = _)
    simp only [fetchLines]
    generalize s.hubRead 20 a 64 [] = r at hr ⊢
    split
    · exact hr
    · split
      · rename_i e; exact hr.trans ((ih _ _).of_eq e)
      · rename_i e; exact hr.trans ((ih _ _).of_eq e)

theorem storePut_only (s : State) (a : ℕ) (n : ℕ) (v : ℕ) :
    Only 400897 s (State.storePut s a n v) := by
  unfold State.storePut
  repeat' first
    | (with_reducible first
        | exact Only.refl
        | refine (storeLines_only _ _ _ _).after (by decide) ?_)

theorem storeGet_only (s : State) (a : ℕ) (n : ℕ) :
    Only 400897 s (State.storeGet s a n).1 := by
  unfold State.storeGet
  repeat' first
    | ((fail_if_no_progress extract_lets +onlyGivenNames x); refine Only.letElim (x := x.1) ?_ (fun _ => ?_); (on_goal 1 => unfold x); (on_goal 2 => clear_value x))
    | (with_reducible first
        | exact Only.refl
        | assumption
        | refine (fetchLines_only _ _ _).after (by decide) ?_)

theorem loadFetch_only (s : State) (l : Load) (off : ℕ) (n : ℕ) :
    Only 400897 s (State.loadFetch s l off n).1 := by
  unfold State.loadFetch
  repeat' first
    | (with_reducible first
        | exact Only.refl
        | refine ((storeGet_only _ _ _).of_eq (by assumption)).after (by decide) ?_
        | refine Only.iteP ?_ ?_)
    | split

theorem fetchAll_only (l : Load) (y1 : List Sec) (y2 : List (Sec × ℕ)) (y3 : State) :
    Only 400897 y3 (fetchAll l y1 y2 y3).1 := by
  induction y1 generalizing l y2 y3 with
  | nil =>
    unfold fetchAll
    exact Only.refl
  | cons a l ih =>
    unfold fetchAll
    repeat' first
      | (with_reducible first
          | exact Only.refl
          | refine ((loadFetch_only _ _ _ _).of_eq (by assumption)).after (by decide) ?_
          | refine Only.trans ?_ (ih _ _ _))
      | split

theorem setFrame_only (s : State) (key : ℕ) (f : Frame) :
    Only 400905 s (State.setFrame s key f) := by
  unfold State.setFrame
  repeat' first
    | ((fail_if_no_progress extract_lets +onlyGivenNames x); clear_value x)
    | (with_reducible first
        | exact Only.refl
        | refine (storePut_only _ _ _ _).after (by decide) ?_
        | refine (setFab_only _ _).after (by decide) ?_)

theorem writeFrames_only (k : ℕ) (pr : Bool) (y2 : List (ℕ × ℕ)) (y3 : State) :
    Only 400937 y3 (writeFrames k pr y2 y3).1 := by
  induction y2 generalizing k pr y3 with
  | nil =>
    unfold writeFrames
    exact Only.refl
  | cons a l ih =>
    unfold writeFrames
    repeat' first
      | (with_reducible first
          | exact Only.refl
          | refine (cfgFail_only _ _ _ _).after (by decide) ?_
          | refine (setFrame_only _ _ _).after (by decide) ?_
          | refine Only.trans ?_ (ih _ _ _))
      | split

theorem bayDeclare_only (s : State) (k : ℕ) :
    Only 8 s (State.bayDeclare s k) := by
  unfold State.bayDeclare
  repeat' first
    | ((fail_if_no_progress extract_lets +onlyGivenNames x); refine Only.letElim (x := x) ?_ (fun _ => ?_); (on_goal 1 => unfold x); (on_goal 2 => clear_value x))
    | ((fail_if_no_progress extract_lets +onlyGivenNames x); clear_value x)
    | (with_reducible first
        | exact Only.refl
        | assumption
        | refine (setFab_only _ _).after (by decide) ?_
        | refine Only.ite ?_ ?_)

theorem fwWrite_only (s : State) (x : Sec) (plain : ℕ) :
    Only 8192 s (State.fwWrite s x plain) := by
  unfold State.fwWrite
  repeat' first
    | ((fail_if_no_progress extract_lets +onlyGivenNames x); clear_value x)
    | (with_reducible first
        | exact Only.refl
        | refine (setCore_only _ _ _).after (by decide) ?_)

theorem fwApply_only (s : State) (x : Sec) (plain : ℕ) :
    Only 403081 s (State.fwApply s x plain) := by
  unfold State.fwApply
  repeat' first
    | ((fail_if_no_progress extract_lets +onlyGivenNames x); refine Only.letElim (x := x) ?_ (fun _ => ?_); (on_goal 1 => unfold x); (on_goal 2 => clear_value x))
    | ((fail_if_no_progress extract_lets +onlyGivenNames x); clear_value x)
    | (with_reducible first
        | exact Only.refl
        | assumption
        | refine (coreReset_only _ _ _ _).after (by decide) ?_
        | refine (put_only _ _ _).after (by decide) ?_
        | refine (coreRelease_only _ _).after (by decide) ?_
        | refine (fwWrite_only _ _ _).after (by decide) ?_)

theorem startUp_only (s : State) :
    Only 41 s (State.startUp s) := by
  unfold State.startUp
  repeat' first
    | ((fail_if_no_progress extract_lets +onlyGivenNames x); refine Only.letElim (x := x) ?_ (fun _ => ?_); (on_goal 1 => unfold x); (on_goal 2 => clear_value x))
    | ((fail_if_no_progress extract_lets +onlyGivenNames x); clear_value x)
    | (with_reducible first
        | exact Only.refl
        | assumption
        | refine (setFab_only _ _).after (by decide) ?_
        | refine (put_only _ _ _).after (by decide) ?_
        | refine (setCfg_only _ _).after (by decide) ?_)

theorem bootDone_only (s : State) :
    Only 403113 s (State.bootDone s) := by
  unfold State.bootDone
  repeat' first
    | ((fail_if_no_progress extract_lets +onlyGivenNames x); clear_value x)
    | (with_reducible first
        | exact Only.refl
        | refine (coreReset_only _ _ _ _).after (by decide) ?_
        | refine (setCfg_only _ _).after (by decide) ?_
        | refine Only.ite ?_ ?_)

theorem fullDone_only (s : State) (l : Load) :
    Only 403113 s (State.fullDone s l) := by
  unfold State.fullDone
  repeat' first
    | ((fail_if_no_progress extract_lets +onlyGivenNames x); refine Only.letElim (x := x) ?_ (fun _ => ?_); (on_goal 1 => unfold x); (on_goal 2 => clear_value x))
    | ((fail_if_no_progress extract_lets +onlyGivenNames x); clear_value x)
    | (with_reducible first
        | exact Only.refl
        | assumption
        | refine (setCfg_only _ _).after (by decide) ?_
        | refine (put_only _ _ _).after (by decide) ?_
        | refine Only.when _ _ (fun _ => ?_) ?_
        | refine (bootDone_only _).after (by decide) ?_
        | refine (startUp_only _).after (by decide) ?_
        | refine (cfgDone_only _).after (by decide) ?_
        | refine Only.ite ?_ ?_)

theorem secBegin_only (s : State) (l : Load) (x : Sec) (plain : ℕ) :
    Only 394785 s (State.secBegin s l x plain) := by
  unfold State.secBegin
  repeat' first
    | ((fail_if_no_progress extract_lets +onlyGivenNames x); clear_value x)
    | (with_reducible first
        | exact Only.refl
        | refine (cfgFail_only _ _ _ _).after (by decide) ?_
        | refine (put_only _ _ _).after (by decide) ?_
        | refine (setCfg_only _ _).after (by decide) ?_
        | refine Only.ite ?_ ?_)

theorem loadOne_only (s : State) :
    Only 409257 s (State.loadOne s).1 := by
  unfold State.loadOne
  repeat' first
    | ((fail_if_no_progress extract_lets +onlyGivenNames x); refine Only.letElim (x := x) ?_ (fun _ => ?_); (on_goal 1 => unfold x); (on_goal 2 => clear_value x))
    | ((fail_if_no_progress extract_lets +onlyGivenNames x); clear_value x)
    | (with_reducible first
        | exact Only.refl
        | assumption
        | refine (fullDone_only _ _).after (by decide) ?_
        | refine ((loadFetch_only _ _ _ _).of_eq (by assumption)).after (by decide) ?_
        | refine (cfgFail_only _ _ _ _).after (by decide) ?_
        | refine (put_only _ _ _).after (by decide) ?_
        | refine (setCfg_only _ _).after (by decide) ?_
        | refine (fwWrite_only _ _ _).after (by decide) ?_
        | refine (secBegin_only _ _ _ _).after (by decide) ?_
        | refine Only.ite ?_ ?_
        | refine Only.iteP ?_ ?_)
    | split

theorem loadGo_only (s : State) :
    Only 409257 s (State.loadGo s) := by
  unfold State.loadGo
  repeat' first
    | (with_reducible first
        | exact Only.refl
        | refine (loadOne_only _).after (by decide) ?_
        | refine Only.iteP ?_ ?_
        | refine Only.foldlP _ (fun _ _ => ?_) _ _ ?_)

theorem mirrorGet_only (s : State) (key : ℕ) :
    Only 400897 s (State.mirrorGet s key).1 := by
  unfold State.mirrorGet
  repeat' first
    | (with_reducible first
        | exact Only.refl
        | refine (storeGet_only _ _ _).after (by decide) ?_)

theorem rebuildFrame_only (s : State) (key : ℕ) :
    Only 400897 s (State.rebuildFrame s key).1 := by
  unfold State.rebuildFrame
  repeat' first
    | ((fail_if_no_progress extract_lets +onlyGivenNames x); clear_value x)
    | (with_reducible first
        | exact Only.refl
        | refine ((storeGet_only _ _ _).of_eq (by assumption)).after (by decide) ?_
        | refine Only.iteP ?_ ?_)
    | split

theorem frameAgain_only (s : State) (key : ℕ) :
    Only 400897 s (State.frameAgain s key).1 := by
  unfold State.frameAgain
  repeat' first
    | (with_reducible first
        | exact Only.refl
        | refine ((mirrorGet_only _ _).of_eq (by assumption)).after (by decide) ?_
        | refine (rebuildFrame_only _ _).after (by decide) ?_)
    | split

end Sys2Proof.Machine
end

