-- ==== Sys2Proof/Laws/OnlyConfig.lean ====
section
/-! SUPPORT. Sys2Proof/Laws/OnlyConfig.lean: what the operations of Machine/Config.lean leave alone (Laws/Only.lean): one lemma each. -/

set_option linter.unusedTactic false
set_option linter.tactic.unusedName false
set_option linter.unusedVariables false
set_option linter.unreachableTactic false

namespace Sys2Proof.Machine

theorem streamIn_only (s : State) (l : Load) :
    Only 400897 s (State.streamIn s l) := by
  unfold State.streamIn
  repeat' first
    | ((fail_if_no_progress extract_lets +onlyGivenNames x); clear_value x)
    | (with_reducible first
        | exact Only.refl
        | refine (storePut_only _ _ _ _).after (by decide) ?_
        | refine Only.ite ?_ ?_)

theorem stagingOk_only (s : State) :
    Only 1 s (State.stagingOk s) := by
  unfold State.stagingOk
  repeat' first
    | (with_reducible first
        | exact Only.refl
        | refine (put_only _ _ _).after (by decide) ?_)

theorem bayLoading_only (s : State) (k : ℕ) :
    Only 9 s (State.bayLoading s k) := by
  unfold State.bayLoading
  repeat' first
    | (with_reducible first
        | exact Only.refl
        | refine (setBay_only _ _ _).after (by decide) ?_
        | refine (claimsFree_only _ _).after (by decide) ?_
        | refine Only.ite ?_ ?_)

theorem partialGo_only (s : State) (l : Load) (x : Sec) (plain : ℕ) :
    Only 394793 s (State.partialGo s l x plain) := by
  unfold State.partialGo
  repeat' first
    | ((fail_if_no_progress extract_lets +onlyGivenNames x); refine Only.letElim (x := x) ?_ (fun _ => ?_); (on_goal 1 => unfold x); (on_goal 2 => clear_value x))
    | ((fail_if_no_progress extract_lets +onlyGivenNames x); clear_value x)
    | (with_reducible first
        | exact Only.refl
        | assumption
        | refine (stagingOk_only _).after (by decide) ?_
        | refine (bayLoading_only _ _).after (by decide) ?_
        | refine (put_only _ _ _).after (by decide) ?_
        | refine (setCfg_only _ _).after (by decide) ?_
        | refine (cfgFail_only _ _ _ _).after (by decide) ?_
        | refine Only.ite ?_ ?_)

theorem tablesNext_only (s : State) (l : Load) :
    Only 132641 s (State.tablesNext s l) := by
  unfold State.tablesNext
  repeat' first
    | ((fail_if_no_progress extract_lets +onlyGivenNames x); clear_value x)
    | (with_reducible first
        | exact Only.refl
        | refine (cfgDone_only _).after (by decide) ?_
        | refine (put_only _ _ _).after (by decide) ?_
        | refine (setCfg_only _ _).after (by decide) ?_)
    | split

theorem tablesGo_only (s : State) (l : Load) (secs : List (Sec × ℕ)) :
    Only 394785 s (State.tablesGo s l secs) := by
  unfold State.tablesGo
  repeat' first
    | ((fail_if_no_progress extract_lets +onlyGivenNames x); refine Only.letElim (x := x) ?_ (fun _ => ?_); (on_goal 1 => unfold x); (on_goal 2 => clear_value x))
    | (with_reducible first
        | exact Only.refl
        | assumption
        | refine (cfgFail_only _ _ _ _).after (by decide) ?_
        | refine (stagingOk_only _).after (by decide) ?_
        | refine (tablesNext_only _ _).after (by decide) ?_
        | refine Only.ite ?_ ?_)

theorem loadSecs_only (s : State) (l : Load) (h : ℕ) :
    Only 409257 s (State.loadSecs s l h) := by
  unfold State.loadSecs
  repeat' first
    | ((fail_if_no_progress extract_lets +onlyGivenNames x); refine Only.letElim (x := x.1) ?_ (fun _ => ?_); (on_goal 1 => unfold x); (on_goal 2 => clear_value x))
    | ((fail_if_no_progress extract_lets +onlyGivenNames x); clear_value x)
    | (with_reducible first
        | exact Only.refl
        | assumption
        | refine (fetchAll_only _ _ _ _).after (by decide) ?_
        | refine (cfgFail_only _ _ _ _).after (by decide) ?_
        | refine (partialGo_only _ _ _ _).after (by decide) ?_
        | refine (cfgDone_only _).after (by decide) ?_
        | refine Only.each _ _ (fun _ _ => ?_) ?_
        | refine (stagingOk_only _).after (by decide) ?_
        | refine (fwApply_only _ _ _).after (by decide) ?_
        | refine (tablesGo_only _ _ _).after (by decide) ?_
        | refine Only.ite ?_ ?_)
    | split

theorem loadTake_only (s : State) (l : Load) : Only 409257 s (s.loadTake l) := by
  have h1 := (streamIn_only s l).mono (by decide : _ &&& 409257 = _)
  have hg := fun t => (loadGo_only t).mono (by decide : _ &&& 409257 = _)
  have hf := fun a b c => (loadFetch_only (s.streamIn l) a b c).mono (by decide : _ &&& 409257 = _)
  have hc := fun t a b c => (cfgFail_only t a b c).mono (by decide : _ &&& 409257 = _)
  unfold State.loadTake
  dsimp only
  split
  · exact h1.trans (hg _)
  · split
    · rename_i e; exact h1.trans ((hf _ _ _).of_eq e)
    · rename_i e; exact (h1.trans ((hf _ _ _).of_eq e)).trans (hc _ _ _ _)
    · rename_i e
      have h2 := h1.trans ((hf _ _ _).of_eq e)
      split
      · exact h2.trans (hc _ _ _ _)
      · split
        · exact (h2.trans ((put_only _ _ _).after (by decide) ((setCfg_only _ _).mono (by decide)))).trans (hg _)
        · exact h2.trans ((loadSecs_only _ _ _).mono (by decide))

theorem loadFeed_only (s : State) (img : Image) :
    Only 442025 s (State.loadFeed s img) := by
  unfold State.loadFeed
  repeat' first
    | ((fail_if_no_progress extract_lets +onlyGivenNames x); refine Only.letElim (x := x) ?_ (fun _ => ?_); (on_goal 1 => unfold x); (on_goal 2 => clear_value x))
    | ((fail_if_no_progress extract_lets +onlyGivenNames x); clear_value x)
    | (with_reducible first
        | exact Only.refl
        | assumption
        | refine (cfgFail_only _ _ _ _).after (by decide) ?_
        | refine (setCfg_only _ _).after (by decide) ?_
        | refine (loadTake_only _ _).after (by decide) ?_
        | refine (setScan_only _ _).after (by decide) ?_
        | refine Only.ite ?_ ?_)
    | split

theorem loadStart_only (s : State) (op : ℕ) (src : ℕ) (auto : Bool) (img : Image) :
    Only 966313 s (State.loadStart s op src auto img) := by
  unfold State.loadStart
  repeat' first
    | ((fail_if_no_progress extract_lets +onlyGivenNames x); refine Only.letElim (x := x.1) ?_ (fun _ => ?_); (on_goal 1 => unfold x); (on_goal 2 => clear_value x))
    | (with_reducible first
        | exact Only.refl
        | assumption
        | refine (loadFeed_only _ _).after (by decide) ?_
        | refine (loadGoes_only _ _ _ _).after (by decide) ?_
        | refine Only.ite ?_ ?_)

theorem execFullLoad_only (src : ℕ) (auto : Bool) (img : Image) (s : State) :
    ∀ t', execFullLoad src auto img s = .next t' → Only 1032121 s t' := by
  intro t' h
  unfold execFullLoad at h
  injection h with h
  subst h
  repeat' first
    | (with_reducible first
        | exact Only.refl
        | refine (settle_only _).after (by decide) ?_
        | refine (loadStart_only _ _ _ _ _).after (by decide) ?_)

theorem execPartialLoad_only (src : ℕ) (img : Image) (s : State) :
    ∀ t', execPartialLoad src img s = .next t' → Only 1032121 s t' := by
  intro t' h
  unfold execPartialLoad at h
  injection h with h
  subst h
  repeat' first
    | (with_reducible first
        | exact Only.refl
        | refine (settle_only _).after (by decide) ?_
        | refine (loadStart_only _ _ _ _ _).after (by decide) ?_)

theorem execFirmwareLoad_only (src : ℕ) (img : Image) (s : State) :
    ∀ t', execFirmwareLoad src img s = .next t' → Only 1032121 s t' := by
  intro t' h
  unfold execFirmwareLoad at h
  injection h with h
  subst h
  repeat' first
    | (with_reducible first
        | exact Only.refl
        | refine (settle_only _).after (by decide) ?_
        | refine (loadStart_only _ _ _ _ _).after (by decide) ?_)

theorem execTablesLoad_only (src : ℕ) (img : Image) (s : State) :
    ∀ t', execTablesLoad src img s = .next t' → Only 1032121 s t' := by
  intro t' h
  unfold execTablesLoad at h
  injection h with h
  subst h
  repeat' first
    | (with_reducible first
        | exact Only.refl
        | refine (settle_only _).after (by decide) ?_
        | refine (loadStart_only _ _ _ _ _).after (by decide) ?_)

theorem bayLoaded_only (s : State) (k : ℕ) :
    Only 33 s (State.bayLoaded s k) := by
  unfold State.bayLoaded
  repeat' first
    | ((fail_if_no_progress extract_lets +onlyGivenNames x); refine Only.letElim (x := x) ?_ (fun _ => ?_); (on_goal 1 => unfold x); (on_goal 2 => clear_value x))
    | ((fail_if_no_progress extract_lets +onlyGivenNames x); clear_value x)
    | (with_reducible first
        | exact Only.refl
        | assumption
        | refine (setBay_only _ _ _).after (by decide) ?_
        | refine (setCfg_only _ _).after (by decide) ?_)

theorem frameUpsets_only (s : State) (up : List (ℕ × ℕ)) :
    Only 8 s (State.frameUpsets s up) := by
  unfold State.frameUpsets
  repeat' first
    | ((fail_if_no_progress extract_lets +onlyGivenNames x); clear_value x)
    | (with_reducible first
        | exact Only.refl
        | refine Only.each _ _ (fun _ _ => ?_) ?_
        | refine (setFab_only _ _).after (by decide) ?_)

theorem blankBay_only (s : State) (k : ℕ) :
    Only 400937 s (State.blankBay s k) := by
  unfold State.blankBay
  repeat' first
    | ((fail_if_no_progress extract_lets +onlyGivenNames x); refine Only.letElim (x := x) ?_ (fun _ => ?_); (on_goal 1 => unfold x); (on_goal 2 => clear_value x))
    | ((fail_if_no_progress extract_lets +onlyGivenNames x); clear_value x)
    | (with_reducible first
        | exact Only.refl
        | assumption
        | refine (setFab_only _ _).after (by decide) ?_
        | refine (claimsFree_only _ _).after (by decide) ?_
        | refine (bayDeclare_only _ _).after (by decide) ?_
        | refine (storePut_only _ _ _ _).after (by decide) ?_
        | refine (bayLoaded_only _ _).after (by decide) ?_
        | refine (setCfg_only _ _).after (by decide) ?_
        | refine (cfgDone_only _).after (by decide) ?_
        | refine (put_only _ _ _).after (by decide) ?_)

theorem execBlank_only (s : State) :
    ∀ t', execBlank s = .next t' → Only 999353 s t' := by
  intro t' h
  unfold execBlank at h
  injection h with h
  subst h
  repeat' first
    | ((fail_if_no_progress extract_lets +onlyGivenNames x); clear_value x)
    | (with_reducible first
        | exact Only.refl
        | refine (cfgRefuse_only _ _).after (by decide) ?_
        | refine (blankBay_only _ _).after (by decide) ?_
        | refine (settle_only _).after (by decide) ?_
        | refine (put_only _ _ _).after (by decide) ?_
        | refine (setCfg_only _ _).after (by decide) ?_
        | refine Only.ite ?_ ?_)
    | split

theorem execCfgStart_only (s : State) :
    ∀ t', execCfgStart s = .next t' → Only 995257 s t' := by
  intro t' h
  unfold execCfgStart at h
  injection h with h
  subst h
  repeat' first
    | (with_reducible first
        | exact Only.refl
        | refine (cfgRefuse_only _ _).after (by decide) ?_
        | refine (settle_only _).after (by decide) ?_
        | refine (startUp_only _).after (by decide) ?_
        | refine Only.ite ?_ ?_)

theorem execStartUpStep_only (s : State) :
    ∀ t', execStartUpStep s = .next t' → Only 656937 s t' := by
  intro t' h
  unfold execStartUpStep at h
  injection h with h
  subst h
  repeat' first
    | ((fail_if_no_progress extract_lets +onlyGivenNames x); clear_value x)
    | (with_reducible first
        | exact Only.refl
        | refine (setCfg_only _ _).after (by decide) ?_
        | refine (setFab_only _ _).after (by decide) ?_
        | refine (tetSend1_only _ _).after (by decide) ?_
        | refine (tetSend0_only _).after (by decide) ?_
        | refine (cfgDone_only _).after (by decide) ?_
        | refine (put_only _ _ _).after (by decide) ?_)
    | split

theorem execCfgAbort_only (s : State) :
    ∀ t', execCfgAbort s = .next t' → Only 394793 s t' := by
  intro t' h
  unfold execCfgAbort at h
  injection h with h
  subst h
  repeat' first
    | (with_reducible first
        | exact Only.refl
        | refine (cfgStop_only _ _).after (by decide) ?_)

theorem execSourceTimeout_only (s : State) :
    ∀ t', execSourceTimeout s = .next t' → Only 394785 s t' := by
  intro t' h
  unfold execSourceTimeout at h
  injection h with h
  subst h
  repeat' first
    | (with_reducible first
        | exact Only.refl
        | refine (cfgFail_only _ _ _ _).after (by decide) ?_
        | refine Only.ite ?_ ?_)
    | split

theorem onRecord_only {m : Nat} (s : State) (op : Nat) (f : Load → Sect → Rec → State → State)
    (hf : ∀ l x r t, Only m s t → Only m s (f l x r t))
    (hm : 394793 &&& m = 394793) : Only m s (s.onRecord op f) := by
  have hc := fun a b c => ((cfgFail_only s a b c).mono (by decide : _ &&& 394793 = _)).mono hm
  have hb := fun k => ((bayLoading_only s k).mono (by decide : _ &&& 394793 = _)).mono hm
  unfold State.onRecord
  split
  · exact Only.refl
  · split
    · exact hc _ _ _
    · split
      · refine hf _ _ _ _ ?_
        split
        · exact hb _
        · exact Only.refl
      · exact Only.refl

theorem recDone_only (s : State) (l : Load) (x : Sect) (r : Rec) (frames : List ℕ) (mems : List ℕ) :
    Only 32 s (State.recDone s l x r frames mems) := by
  unfold State.recDone
  repeat' first
    | ((fail_if_no_progress extract_lets +onlyGivenNames x); clear_value x)
    | (with_reducible first
        | exact Only.refl
        | refine (setCfg_only _ _).after (by decide) ?_)

theorem framesRecord_only (s : State) (op : ℕ) :
    Only 400937 s (State.framesRecord s op) := by
  unfold State.framesRecord
  repeat' first
    | ((fail_if_no_progress extract_lets +onlyGivenNames x); clear_value x)
    | (with_reducible first
        | exact Only.refl
        | assumption
        | refine Only.trans ?_ (onRecord_only _ _ _ (fun _ _ _ _ h => ?_) (by decide))
        | refine (writeFrames_only _ _ _ _).after (by decide) ?_
        | refine (recDone_only _ _ _ _ _ _).after (by decide) ?_
        | refine (cfgFail_only _ _ _ _).after (by decide) ?_
        | refine Only.ite ?_ ?_)

theorem execFramesRecord_only (s : State) :
    ∀ t', execFramesRecord s = .next t' → Only 999353 s t' := by
  intro t' h
  unfold execFramesRecord at h
  injection h with h
  subst h
  repeat' first
    | (with_reducible first
        | exact Only.refl
        | refine (settle_only _).after (by decide) ?_
        | refine (framesRecord_only _ _).after (by decide) ?_)

theorem execRepeatRecord_only (s : State) :
    ∀ t', execRepeatRecord s = .next t' → Only 999353 s t' := by
  intro t' h
  unfold execRepeatRecord at h
  injection h with h
  subst h
  repeat' first
    | (with_reducible first
        | exact Only.refl
        | refine (settle_only _).after (by decide) ?_
        | refine (framesRecord_only _ _).after (by decide) ?_)

theorem execZeroRecord_only (s : State) :
    ∀ t', execZeroRecord s = .next t' → Only 999353 s t' := by
  intro t' h
  unfold execZeroRecord at h
  injection h with h
  subst h
  repeat' first
    | (with_reducible first
        | exact Only.refl
        | refine (settle_only _).after (by decide) ?_
        | refine (framesRecord_only _ _).after (by decide) ?_)

theorem setContent_only (s : State) (m : ℕ) (rows : List ℕ) :
    Only 8 s (State.setContent s m rows) := by
  unfold State.setContent
  repeat' first
    | ((fail_if_no_progress extract_lets +onlyGivenNames x); clear_value x)
    | (with_reducible first
        | exact Only.refl
        | refine (setFab_only _ _).after (by decide) ?_)

theorem contentRecord_only (s : State) (op : ℕ) :
    Only 394793 s (State.contentRecord s op) := by
  unfold State.contentRecord
  repeat' first
    | ((fail_if_no_progress extract_lets +onlyGivenNames x); clear_value x)
    | (with_reducible first
        | exact Only.refl
        | assumption
        | refine Only.trans ?_ (onRecord_only _ _ _ (fun _ _ _ _ h => ?_) (by decide))
        | refine (cfgFail_only _ _ _ _).after (by decide) ?_
        | refine (recDone_only _ _ _ _ _ _).after (by decide) ?_
        | refine Only.each _ _ (fun _ _ => ?_) ?_
        | refine (setContent_only _ _ _).after (by decide) ?_
        | refine Only.ite ?_ ?_)

theorem execContentRecord_only (s : State) :
    ∀ t', execContentRecord s = .next t' → Only 995257 s t' := by
  intro t' h
  unfold execContentRecord at h
  injection h with h
  subst h
  repeat' first
    | (with_reducible first
        | exact Only.refl
        | refine (settle_only _).after (by decide) ?_
        | refine (contentRecord_only _ _).after (by decide) ?_)

theorem execContentZeroRecord_only (s : State) :
    ∀ t', execContentZeroRecord s = .next t' → Only 995257 s t' := by
  intro t' h
  unfold execContentZeroRecord at h
  injection h with h
  subst h
  repeat' first
    | (with_reducible first
        | exact Only.refl
        | refine (settle_only _).after (by decide) ?_
        | refine (contentRecord_only _ _).after (by decide) ?_)

theorem execFenceRecord_only (s : State) :
    ∀ t', execFenceRecord s = .next t' → Only 995257 s t' := by
  intro t' h
  unfold execFenceRecord at h
  injection h with h
  subst h
  repeat' first
    | (with_reducible first
        | exact Only.refl
        | assumption
        | refine (settle_only _).after (by decide) ?_
        | refine Only.trans ?_ (onRecord_only _ _ _ (fun _ _ _ _ h => ?_) (by decide))
        | refine ((issueFence_only _ _).of_eq (by assumption)).after (by decide) ?_
        | refine (recDone_only _ _ _ _ _ _).after (by decide) ?_)
    | split

theorem bayEnd_only (s : State) (l : Load) (x : Sect) :
    Only 409257 s (State.bayEnd s l x) := by
  unfold State.bayEnd
  repeat' first
    | ((fail_if_no_progress extract_lets +onlyGivenNames x); refine Only.letElim (x := x) ?_ (fun _ => ?_); (on_goal 1 => unfold x); (on_goal 2 => clear_value x))
    | ((fail_if_no_progress extract_lets +onlyGivenNames x); refine Only.letElim (x := x.1) ?_ (fun _ => ?_); (on_goal 1 => unfold x); (on_goal 2 => clear_value x))
    | ((fail_if_no_progress extract_lets +onlyGivenNames x); clear_value x)
    | (with_reducible first
        | exact Only.refl
        | assumption
        | refine (writeFrames_only _ _ _ _).after (by decide) ?_
        | refine (setFab_only _ _).after (by decide) ?_
        | refine (setCfg_only _ _).after (by decide) ?_
        | refine (bayDeclare_only _ _).after (by decide) ?_
        | refine (loadGo_only _).after (by decide) ?_
        | refine (put_only _ _ _).after (by decide) ?_
        | refine Only.ite ?_ ?_)

theorem tableEnd_only (s : State) (l : Load) (x : Sect) :
    Only 409321 s (State.tableEnd s l x) := by
  unfold State.tableEnd
  repeat' first
    | ((fail_if_no_progress extract_lets +onlyGivenNames x); refine Only.letElim (x := x) ?_ (fun _ => ?_); (on_goal 1 => unfold x); (on_goal 2 => clear_value x))
    | ((fail_if_no_progress extract_lets +onlyGivenNames x); clear_value x)
    | (with_reducible first
        | exact Only.refl
        | assumption
        | refine (put_only _ _ _).after (by decide) ?_
        | refine (swapRequest_only _ _).after (by decide) ?_
        | refine (loadGo_only _).after (by decide) ?_
        | refine (setCfg_only _ _).after (by decide) ?_
        | refine (tablesNext_only _ _).after (by decide) ?_
        | refine Only.ite ?_ ?_)

theorem execEndRecord_only (s : State) : ∀ t', execEndRecord s = .next t' → Only 999417 s t' := by
  intro t' h
  unfold execEndRecord at h
  injection h with h
  subst h
  refine (settle_only _).after (by decide) ?_
  split
  · exact Only.ite ((tableEnd_only _ _ _).mono (by decide)) Only.refl
  · refine onRecord_only _ _ _ (fun l x r t h => ?_) (by decide)
    split
    · exact Only.refl
    · split
      · exact Only.refl
      · exact h.trans ((bayEnd_only _ _ _).mono (by decide))

theorem execBayReadback_only (up : List (ℕ × ℕ)) (s : State) :
    ∀ t', execBayReadback up s = .next t' → Only 999353 s t' := by
  intro t' h
  unfold execBayReadback at h
  injection h with h
  subst h
  repeat' first
    | ((fail_if_no_progress extract_lets +onlyGivenNames x); refine Only.letElim (x := x) ?_ (fun _ => ?_); (on_goal 1 => unfold x); (on_goal 2 => clear_value x))
    | ((fail_if_no_progress extract_lets +onlyGivenNames x); clear_value x)
    | (with_reducible first
        | exact Only.refl
        | assumption
        | refine (settle_only _).after (by decide) ?_
        | refine (frameUpsets_only _ _).after (by decide) ?_
        | refine (cfgFail_only _ _ _ _).after (by decide) ?_
        | refine (put_only _ _ _).after (by decide) ?_
        | refine (setCfg_only _ _).after (by decide) ?_
        | refine (mapNeeds_only _ _).after (by decide) ?_
        | refine (setBay_only _ _ _).after (by decide) ?_
        | refine (loadGo_only _).after (by decide) ?_
        | refine (cfgDone_only _).after (by decide) ?_
        | refine (bayLoaded_only _ _).after (by decide) ?_
        | refine Only.ite ?_ ?_)
    | split

theorem prArm_only (s0 : State) (mode : ℕ) (relFirst : Bool) (bay : ℕ) :
    Only 132649 s0 (State.prArm s0 mode relFirst bay) := by
  unfold State.prArm
  repeat' first
    | ((fail_if_no_progress extract_lets +onlyGivenNames x); refine Only.letElim (x := x) ?_ (fun _ => ?_); (on_goal 1 => unfold x); (on_goal 2 => clear_value x))
    | ((fail_if_no_progress extract_lets +onlyGivenNames x); clear_value x)
    | (with_reducible first
        | exact Only.refl
        | assumption
        | refine (put_only _ _ _).after (by decide) ?_
        | refine (cfgRefuse_only _ _).after (by decide) ?_
        | refine (setCfg_only _ _).after (by decide) ?_
        | refine (bayFreeze_only _ _ _).after (by decide) ?_
        | refine Only.ite ?_ ?_)
    | split

theorem execPrArm_only (mode : ℕ) (relFirst : Bool) (bay : ℕ) (s : State) :
    ∀ t', execPrArm mode relFirst bay s = .next t' → Only 132649 s t' := by
  intro t' h
  unfold execPrArm at h
  injection h with h
  subst h
  repeat' first
    | (with_reducible first
        | exact Only.refl
        | refine (prArm_only _ _ _ _).after (by decide) ?_)

theorem prCancel_only (s : State) :
    Only 394793 s (State.prCancel s) := by
  unfold State.prCancel
  repeat' first
    | ((fail_if_no_progress extract_lets +onlyGivenNames x); clear_value x)
    | (with_reducible first
        | exact Only.refl
        | refine (cfgStop_only _ _).after (by decide) ?_
        | refine (disarm_only _).after (by decide) ?_
        | refine Only.ite ?_ ?_)

theorem execPrCancel_only (s : State) :
    ∀ t', execPrCancel s = .next t' → Only 394793 s t' := by
  intro t' h
  unfold execPrCancel at h
  injection h with h
  subst h
  repeat' first
    | (with_reducible first
        | exact Only.refl
        | refine (prCancel_only _).after (by decide) ?_)

theorem execClaimMapRebuild_only (s : State) :
    ∀ t', execClaimMapRebuild s = .next t' → Only 136737 s t' := by
  intro t' h
  unfold execClaimMapRebuild at h
  injection h with h
  subst h
  repeat' first
    | ((fail_if_no_progress extract_lets +onlyGivenNames x); clear_value x)
    | (with_reducible first
        | exact Only.refl
        | refine (setCfg_only _ _).after (by decide) ?_
        | refine (leafEvent_only _ _ _ _).after (by decide) ?_
        | refine (raise_only _ _).after (by decide) ?_)

theorem claimsRead_only (y0 : List ℕ) (y1 : List (ℕ × ℕ)) (y2 : State) :
    Only 400897 y2 (claimsRead y0 y1 y2).1 := by
  induction y0 generalizing y1 y2 with
  | nil =>
    unfold claimsRead
    exact Only.refl
  | cons a l ih =>
    unfold claimsRead
    repeat' first
      | ((fail_if_no_progress extract_lets +onlyGivenNames x); refine Only.letElim (x := x.1) ?_ (fun _ => ?_); (on_goal 1 => unfold x); (on_goal 2 => clear_value x))
      | ((fail_if_no_progress extract_lets +onlyGivenNames x); clear_value x)
      | (with_reducible first
          | exact Only.refl
          | assumption
          | refine (frameAgain_only _ _).after (by decide) ?_
          | refine Only.trans ?_ (ih _ _))

theorem execClaimMapRebuildDone_only (s : State) :
    ∀ t', execClaimMapRebuildDone s = .next t' → Only 400937 s t' := by
  intro t' h
  unfold execClaimMapRebuildDone at h
  injection h with h
  subst h
  repeat' first
    | ((fail_if_no_progress extract_lets +onlyGivenNames x); refine Only.letElim (x := x.1) ?_ (fun _ => ?_); (on_goal 1 => unfold x); (on_goal 2 => clear_value x))
    | ((fail_if_no_progress extract_lets +onlyGivenNames x); clear_value x)
    | (with_reducible first
        | exact Only.refl
        | assumption
        | refine (claimsRead_only _ _ _).after (by decide) ?_
        | refine (setCfg_only _ _).after (by decide) ?_
        | refine (setFab_only _ _).after (by decide) ?_
        | refine Only.ite ?_ ?_)

theorem scrubPlace_only (s : State) :
    Only 33 s (State.scrubPlace s) := by
  unfold State.scrubPlace
  repeat' first
    | ((fail_if_no_progress extract_lets +onlyGivenNames x); refine Only.letElim (x := x) ?_ (fun _ => ?_); (on_goal 1 => unfold x); (on_goal 2 => clear_value x))
    | ((fail_if_no_progress extract_lets +onlyGivenNames x); clear_value x)
    | (with_reducible first
        | exact Only.refl
        | assumption
        | refine (setCfg_only _ _).after (by decide) ?_
        | refine (addF_only _ _ _).after (by decide) ?_
        | refine Only.ite ?_ ?_)
    | split

theorem scrubRepair_only (s : State) (key : ℕ) :
    Only 400905 s (State.scrubRepair s key).1 := by
  unfold State.scrubRepair
  repeat' first
    | ((fail_if_no_progress extract_lets +onlyGivenNames x); clear_value x)
    | (with_reducible first
        | exact Only.refl
        | refine ((frameAgain_only _ _).of_eq (by assumption)).after (by decide) ?_
        | refine (setFab_only _ _).after (by decide) ?_
        | refine (raise_only _ _).after (by decide) ?_)
    | split

theorem scrubRepairs_only (y0 : List ℕ) (y1 : State) :
    Only 400905 y1 (scrubRepairs y0 y1).1 := by
  induction y0 generalizing y1 with
  | nil =>
    unfold scrubRepairs
    exact Only.refl
  | cons a l ih =>
    unfold scrubRepairs
    repeat' first
      | ((fail_if_no_progress extract_lets +onlyGivenNames x); refine Only.letElim (x := x.1) ?_ (fun _ => ?_); (on_goal 1 => unfold x); (on_goal 2 => clear_value x))
      | (with_reducible first
          | exact Only.refl
          | assumption
          | refine (scrubRepair_only _ _).after (by decide) ?_
          | refine Only.trans ?_ (ih _))

theorem scrubError_only {m : Nat} (s : State) (kind bay frame : Nat) (fix : State → State × Bool) (hf : ∀ t, Only m t (fix t).1)
    (hm : 132737 &&& m = 132737) : Only m s (s.scrubError kind bay frame fix) := by
  unfold State.scrubError
  have h1 : ∀ t : State, Only 132737 t ((((t.log CFG_SCRUB_LOG_VALID CFG_SCRUB_LOG_OVF (fun t =>
    (((t.put CFG_SCRUB_LOG_KIND kind).put CFG_SCRUB_LOG_REPAIRED 0).put CFG_SCRUB_LOG_BAY bay).put CFG_SCRUB_LOG_FRAME frame)).put
      (CFG_BAY_STAT_SUSPECT bay) 1).raise 140)) := by
    intro t
    repeat' first
      | (with_reducible first
          | exact Only.refl
          | refine (put_only _ _ _).after (by decide) ?_
          | refine (raise_only _ _).after (by decide) ?_
          | refine Only.log _ _ _ (fun _ => ?_) ?_)
  have h1 := fun t => (h1 t).mono hm
  have hput : ∀ (t : State) (x : Fld) (v : Nat), Only m t (t.put x v) := fun t x v =>
    ((put_only t x v).mono (by decide : _ &&& 132737 = _)).mono hm
  have hstop : ∀ (t : State), Only m t t.stopNow := fun t => ((stopNow_only t).mono (by decide : _ &&& 132737 = _)).mono hm
  dsimp only
  split
  · exact h1 _
  · split
    · refine Only.trans ?_ (hstop _)
      split
      · exact ((h1 _).trans (hf _)).trans (hput _ _ _)
      · exact (h1 _).trans (hf _)
    · split
      · exact ((h1 _).trans (hf _)).trans (hput _ _ _)
      · exact (h1 _).trans (hf _)

theorem scrubMove_only (s : State) (k : ℕ) :
    Only 33 s (State.scrubMove s k) := by
  unfold State.scrubMove
  repeat' first
    | ((fail_if_no_progress extract_lets +onlyGivenNames x); clear_value x)
    | (with_reducible first
        | exact Only.refl
        | refine (setCfg_only _ _).after (by decide) ?_
        | refine Only.when _ _ (fun _ => ?_) ?_
        | refine (addF_only _ _ _).after (by decide) ?_)
    | split

theorem scrubBayEnd_only (s : State) (k : Nat) : Only 401065 s (s.scrubBayEnd k) := by
  unfold State.scrubBayEnd
  generalize (List.range 4608).map _ = l
  refine (scrubMove_only _ _).after (by decide) (Only.when _ _ (fun _ => ?_) Only.refl)
  exact scrubError_only _ _ _ _ _ (fun _ => (scrubRepairs_only _ _).mono (by decide)) (by decide)

theorem scrubCorrect_only (s : State) (key : ℕ) (b : ℕ) :
    Only 136713 s (State.scrubCorrect s key b) := by
  unfold State.scrubCorrect
  repeat' first
    | ((fail_if_no_progress extract_lets +onlyGivenNames x); clear_value x)
    | (with_reducible first
        | exact Only.refl
        | refine (leafEvent_only _ _ _ _).after (by decide) ?_
        | refine (raise_only _ _).after (by decide) ?_
        | refine (satF_only _ _ _).after (by decide) ?_
        | refine (setFab_only _ _).after (by decide) ?_)

theorem execScrubFrameRead_only (up : List (ℕ × ℕ)) (see : ℕ) (s : State) :
    ∀ t', execScrubFrameRead up see s = .next t' → Only 401065 s t' := by
  intro t' h
  unfold execScrubFrameRead at h
  injection h with h
  subst h
  repeat' first
    | ((fail_if_no_progress extract_lets +onlyGivenNames x); refine Only.letElim (x := x) ?_ (fun _ => ?_); (on_goal 1 => unfold x); (on_goal 2 => clear_value x))
    | ((fail_if_no_progress extract_lets +onlyGivenNames x); clear_value x)
    | (with_reducible first
        | exact Only.refl
        | assumption
        | refine (frameUpsets_only _ _).after (by decide) ?_
        | refine (scrubPlace_only _).after (by decide) ?_
        | refine (put_only _ _ _).after (by decide) ?_
        | refine (scrubCorrect_only _ _ _).after (by decide) ?_
        | refine Only.trans ?_ (scrubError_only _ _ _ _ _ (fun _ => ?_) (by decide))
        | refine (leafEvent_only _ _ _ _).after (by decide) ?_
        | refine (scrubRepair_only _ _).after (by decide) ?_
        | refine (scrubBayEnd_only _ _).after (by decide) ?_
        | refine (setCfg_only _ _).after (by decide) ?_
        | refine Only.ite ?_ ?_)

end Sys2Proof.Machine
end

