-- ==== Sys2Proof/Laws/OnlyCoreEvents.lean ====
section
/-! SUPPORT. Sys2Proof/Laws/OnlyCoreEvents.lean: what the operations of Machine/CoreEvents.lean leave alone (Laws/Only.lean): one lemma each. -/

set_option linter.unusedTactic false
set_option linter.tactic.unusedName false
set_option linter.unusedVariables false
set_option linter.unreachableTactic false

namespace Sys2Proof.Machine

theorem interruptTo_only (s : State) (c : ℕ) (j : ℕ) :
    Only 8193 s (State.interruptTo s c j) := by
  unfold State.interruptTo
  repeat' first
    | ((fail_if_no_progress extract_lets +onlyGivenNames x); clear_value x)
    | (with_reducible first
        | exact Only.refl
        | refine (setPc_only _ _ _).after (by decide) ?_
        | refine (put_only _ _ _).after (by decide) ?_
        | refine (clrPend_only _ _ _).after (by decide) ?_
        | refine (setCore_only _ _ _).after (by decide) ?_)

theorem execInterruptEntry_only (c : ℕ) (s : State) :
    ∀ t', execInterruptEntry c s = .next t' → Only 8193 s t' := by
  intro t' h
  unfold execInterruptEntry at h
  injection h with h
  subst h
  repeat' first
    | (with_reducible first
        | exact Only.refl
        | refine (interruptTo_only _ _ _).after (by decide) ?_
        | refine Only.ite ?_ ?_)
    | split

theorem execIrqMsg_only (c : ℕ) (i : ℕ) (fl : Flit) (s : State) :
    ∀ t', execIrqMsg c i fl s = .next t' → Only 136705 s t' := by
  intro t' h
  unfold execIrqMsg at h
  injection h with h
  subst h
  repeat' first
    | ((fail_if_no_progress extract_lets +onlyGivenNames x); refine Only.letElim (x := x) ?_ (fun _ => ?_); (on_goal 1 => unfold x); (on_goal 2 => clear_value x))
    | ((fail_if_no_progress extract_lets +onlyGivenNames x); clear_value x)
    | (with_reducible first
        | exact Only.refl
        | assumption
        | refine (flitEvents_only _ _).after (by decide) ?_
        | refine (setMesh_only _ _).after (by decide) ?_
        | refine Only.each _ _ (fun _ _ => ?_) ?_
        | refine (setPend_only _ _ _).after (by decide) ?_
        | refine Only.ite ?_ ?_)

theorem execWindowLoadResponse_only (c : ℕ) (s : State) :
    ∀ t', execWindowLoadResponse c s = .next t' → Only 402945 s t' := by
  intro t' h
  unfold execWindowLoadResponse at h
  injection h with h
  subst h
  repeat' first
    | ((fail_if_no_progress extract_lets +onlyGivenNames x); refine Only.letElim (x := x) ?_ (fun _ => ?_); (on_goal 1 => unfold x); (on_goal 2 => clear_value x))
    | ((fail_if_no_progress extract_lets +onlyGivenNames x); clear_value x)
    | (with_reducible first
        | exact Only.refl
        | assumption
        | refine (takeInbox_only _ _ _ _ _ _ (by assumption)).after (by decide) ?_
        | refine (setCore_only _ _ _).after (by decide) ?_
        | refine Only.trans ?_ (retire_only _ _ _ _ _ ?_ (by decide))
        | refine (winFinish_only _ _ _ _ _).after (by decide) ?_
        | refine Only.ite ?_ ?_)
    | split

theorem execPostedStoreError_only (c : ℕ) (s : State) :
    ∀ t', execPostedStoreError c s = .next t' → Only 1025 s t' := by
  intro t' h
  unfold execPostedStoreError at h
  injection h with h
  subst h
  repeat' first
    | (with_reducible first
        | exact Only.refl
        | refine (takeInbox_only _ _ _ _ _ _ (by assumption)).after (by decide) ?_
        | refine (busErr_only _ _ _ _).after (by decide) ?_)
    | split

theorem execTimerEnable_only (c : ℕ) (i : ℕ) (w : Word) (s : State) :
    ∀ t', execTimerEnable c i w s = .next t' → Only 403081 s t' := by
  intro t' h
  unfold execTimerEnable at h
  injection h with h
  subst h
  repeat' first
    | (with_reducible first
        | exact Only.refl
        | refine toCore_only _ _ (fun _ => ?_) ?_
        | refine (coreBlockWrite_only _ _ _ _).after (by decide) ?_
        | refine Only.ite ?_ ?_)

theorem edgeEarly_only {m : Nat} (s : State) (c k : Nat) (f : State → State) (hf : ∀ t, Only m t (f t)) (hm : 8192 &&& m = 8192) :
    Only m s (s.edgeEarly c k f) := by
  unfold State.edgeEarly
  split
  · exact Only.refl
  · exact (hf _).trans (((setCore_only _ _ _).mono (by decide : _ &&& 8192 = _)).mono hm)

theorem execTimerExpiry_only (c : ℕ) (i : ℕ) (s : State) :
    ∀ t', execTimerExpiry c i s = .next t' → Only 8193 s t' := by
  intro t' h
  unfold execTimerExpiry at h
  injection h with h
  subst h
  repeat' first
    | (with_reducible first
        | exact Only.refl
        | refine Only.trans ?_ (edgeEarly_only _ _ _ _ (fun _ => ?_) (by decide))
        | refine (timerTick_only _ _ _).after (by decide) ?_
        | refine Only.ite ?_ ?_)

theorem execWatchdogEnable_only (c : ℕ) (w : Word) (s : State) :
    ∀ t', execWatchdogEnable c w s = .next t' → Only 403081 s t' := by
  intro t' h
  unfold execWatchdogEnable at h
  injection h with h
  subst h
  repeat' first
    | (with_reducible first
        | exact Only.refl
        | refine toCore_only _ _ (fun _ => ?_) ?_
        | refine (coreBlockWrite_only _ _ _ _).after (by decide) ?_
        | refine Only.ite ?_ ?_)

theorem execWatchdogKick_only (c : ℕ) (v : Word) (s : State) :
    ∀ t', execWatchdogKick c v s = .next t' → Only 140801 s t' := by
  intro t' h
  unfold execWatchdogKick at h
  injection h with h
  subst h
  repeat' first
    | (with_reducible first
        | exact Only.refl
        | refine toCore_only _ _ (fun _ => ?_) ?_
        | refine (wdtKick_only _ _ _).after (by decide) ?_)

theorem execWatchdogWindowOpen_only (c : ℕ) (s : State) :
    ∀ t', execWatchdogWindowOpen c s = .next t' → Only 140801 s t' := by
  intro t' h
  unfold execWatchdogWindowOpen at h
  injection h with h
  subst h
  repeat' first
    | (with_reducible first
        | exact Only.refl
        | refine Only.trans ?_ (edgeEarly_only _ _ _ _ (fun _ => ?_) (by decide))
        | refine (wdtTick_only _ _).after (by decide) ?_
        | refine Only.ite ?_ ?_)

theorem execWatchdogExpiry_only (c : ℕ) (s : State) :
    ∀ t', execWatchdogExpiry c s = .next t' → Only 140801 s t' := by
  intro t' h
  unfold execWatchdogExpiry at h
  injection h with h
  subst h
  repeat' first
    | (with_reducible first
        | exact Only.refl
        | refine Only.trans ?_ (edgeEarly_only _ _ _ _ (fun _ => ?_) (by decide))
        | refine (wdtTick_only _ _).after (by decide) ?_
        | refine Only.ite ?_ ?_)

theorem execWatchdogReset_only (c : ℕ) (s : State) :
    ∀ t', execWatchdogReset c s = .next t' → Only 403081 s t' := by
  intro t' h
  unfold execWatchdogReset at h
  injection h with h
  subst h
  repeat' first
    | (with_reducible first
        | exact Only.refl
        | refine (coreReset_only _ _ _ _).after (by decide) ?_
        | refine Only.ite ?_ ?_)

theorem execCoreHold_only (c : ℕ) (s : State) :
    ∀ t', execCoreHold c s = .next t' → Only 403081 s t' := by
  intro t' h
  unfold execCoreHold at h
  injection h with h
  subst h
  repeat' first
    | (with_reducible first
        | exact Only.refl
        | refine toCore_only _ _ (fun _ => ?_) ?_
        | refine (coreHold_only _ _).after (by decide) ?_)

theorem execCoreRelease_only (c : ℕ) (s : State) :
    ∀ t', execCoreRelease c s = .next t' → Only 403073 s t' := by
  intro t' h
  unfold execCoreRelease at h
  injection h with h
  subst h
  repeat' first
    | (with_reducible first
        | exact Only.refl
        | refine toCore_only _ _ (fun _ => ?_) ?_
        | refine (coreRelease_only _ _).after (by decide) ?_)

theorem execSelfReset_only (c : ℕ) (s : State) :
    ∀ t', execSelfReset c s = .next t' → Only 403081 s t' := by
  intro t' h
  unfold execSelfReset at h
  injection h with h
  subst h
  repeat' first
    | (with_reducible first
        | exact Only.refl
        | refine toCore_only _ _ (fun _ => ?_) ?_
        | refine (coreReset_only _ _ _ _).after (by decide) ?_)

theorem execStMemData_only (c : ℕ) (wr : Bool) (v : Word) (s : State) :
    ∀ t', execStMemData c wr v s = .next t' → Only 144897 s t' := by
  intro t' h
  unfold execStMemData at h
  injection h with h
  subst h
  repeat' first
    | (with_reducible first
        | exact Only.refl
        | refine toCore_only _ _ (fun _ => ?_) ?_
        | refine (stMemWrite_only _ _ _).after (by decide) ?_
        | refine (stMemRead_only _ _ _).after (by decide) ?_
        | refine Only.ite ?_ ?_)

theorem execDoorbell_only (c : ℕ) (v : Word) (s : State) :
    ∀ t', execDoorbell c v s = .next t' → Only 403081 s t' := by
  intro t' h
  unfold execDoorbell at h
  injection h with h
  subst h
  repeat' first
    | (with_reducible first
        | exact Only.refl
        | refine toCore_only _ _ (fun _ => ?_) ?_
        | refine (coreBlockWrite_only _ _ _ _).after (by decide) ?_)

theorem execSwirq_only (c : ℕ) (v : Word) (s : State) :
    ∀ t', execSwirq c v s = .next t' → Only 403081 s t' := by
  intro t' h
  unfold execSwirq at h
  injection h with h
  subst h
  repeat' first
    | (with_reducible first
        | exact Only.refl
        | refine toCore_only _ _ (fun _ => ?_) ?_
        | refine (coreBlockWrite_only _ _ _ _).after (by decide) ?_)

theorem semEnd_only (s : State) (i : ℕ) :
    Only 16384 s (State.semEnd s i) := by
  unfold State.semEnd
  repeat' first
    | (with_reducible exact Only.refl)
    | (with_reducible refine (Only.upd_sem _).after (by decide) ?_)

theorem semLr_only (s : State) (src : ℕ) (i : ℕ) :
    Only 16384 s (State.semLr s src i) := by
  unfold State.semLr
  repeat' first
    | (with_reducible first
        | exact Only.refl
        | refine Only.ite ?_ ?_)
    | (with_reducible refine (Only.upd_sem _).after (by decide) ?_)

theorem semSc_only (s : State) (src : ℕ) (i : ℕ) (v : Word) :
    Only 16385 s (State.semSc s src i v).1 := by
  unfold State.semSc
  repeat' first
    | (with_reducible first
        | exact Only.refl
        | refine (put_only _ _ _).after (by decide) ?_
        | refine (semEnd_only _ _).after (by decide) ?_
        | refine Only.iteP ?_ ?_)

theorem semWrite_only (s : State) (i : ℕ) (v : Word) :
    Only 16385 s (State.semWrite s i v) := by
  unfold State.semWrite
  repeat' first
    | (with_reducible first
        | exact Only.refl
        | refine (put_only _ _ _).after (by decide) ?_
        | refine (semEnd_only _ _).after (by decide) ?_)

theorem execSemLr_only (src : ℕ) (i : ℕ) (s : State) :
    ∀ t', execSemLr src i s = .next t' → Only 16384 s t' := by
  intro t' h
  unfold execSemLr at h
  injection h with h
  subst h
  repeat' first
    | (with_reducible first
        | exact Only.refl
        | refine (semLr_only _ _ _).after (by decide) ?_
        | refine Only.ite ?_ ?_)

theorem execSemSc_only (src : ℕ) (i : ℕ) (v : Word) (s : State) :
    ∀ t', execSemSc src i v s = .next t' → Only 16385 s t' := by
  intro t' h
  unfold execSemSc at h
  injection h with h
  subst h
  repeat' first
    | (with_reducible first
        | exact Only.refl
        | refine (semSc_only _ _ _ _).after (by decide) ?_
        | refine Only.ite ?_ ?_)

theorem execSemWrite_only (i : ℕ) (v : Word) (s : State) :
    ∀ t', execSemWrite i v s = .next t' → Only 16385 s t' := by
  intro t' h
  unfold execSemWrite at h
  injection h with h
  subst h
  repeat' first
    | (with_reducible first
        | exact Only.refl
        | refine (semWrite_only _ _ _).after (by decide) ?_
        | refine Only.ite ?_ ?_)

end Sys2Proof.Machine
end

