-- ==== Sys2Proof/Laws/OnlyCores.lean ====
section
/-! SUPPORT. Sys2Proof/Laws/OnlyCores.lean: what the operations of Machine/Cores.lean leave alone (Laws/Only.lean): one lemma each. -/

set_option linter.unusedTactic false
set_option linter.tactic.unusedName false
set_option linter.unusedVariables false
set_option linter.unreachableTactic false

namespace Sys2Proof.Machine

theorem slotMem_only (s : State) (c : ℕ) (m : ℕ) (old : Core) (sl : Slot2) :
    LoadRes.Only 144897 s (State.slotMem s c m old sl) := by
  unfold State.slotMem
  repeat' first
    | ((fail_if_no_progress extract_lets +onlyGivenNames x); clear_value x)
    | (with_reducible first
        | exact Only.refl
        | refine (coreMemHalf_only _ _ _ _ _ _).after (by decide) ?_
        | refine (memLoad_only _ _ _ _ _ _).after (by decide) ?_
        | refine LoadRes.Only.val ?_
        | refine LoadRes.Only.exc ?_)
    | split

theorem slotRun_only (s : State) (c m : Nat) (old : Core) (sl : Slot2) :
    match s.slotRun c m old sl with
    | .error r => CRes.Only 144897 s r
    | .ok p => Only 144897 s p.1 := by
  have hm := slotMem_only s c m old sl
  unfold State.slotRun
  by_cases he : sl.en = true
  · simp only [he, Bool.not_true, Bool.false_eq_true, if_false]
    generalize s.slotMem c m old sl = x at hm ⊢
    cases x with
    | val u v => exact Only.after hm (by decide) Only.refl
    | exc u code => exact Only.after hm (by decide) Only.refl
    | win a => exact Only.refl
  · simp only [he, Bool.not_false, if_true]
    exact Only.refl

theorem slotLoads_only (s : State) (c : Nat) (xs ys : Slot2) (xv yv : Option Nat) : Only 144897 s (s.slotLoads c xs ys xv yv) := by
  unfold State.slotLoads
  have hs : ∀ x : Core, Only 144897 s (s.setCore c x) := fun x => (setCore_only s c x).mono (by decide)
  dsimp only
  split
  · split
    · exact (hs _).trans ((freeNext_only _).mono (by decide))
    · exact hs _
  · exact hs _
  · exact hs _
  · exact Only.refl

theorem slots_only (s : State) (c : Nat) (xs ys : Slot2) : CRes.Only 144897 s (s.slots c xs ys) := by
  unfold State.slots
  extract_lets old first
  have hf : match first with
      | .error r => CRes.Only 144897 s r
      | .ok p => Only 144897 s p.1 := by
    have h : first = s.slotRun c 2 old ys ∨ first = s.slotRun c 1 old xs := by
      unfold first
      split
      · exact .inl rfl
      · exact .inr rfl
    rcases h with h | h <;> rw [h] <;> exact slotRun_only _ _ _ _ _
  generalize first = f at hf ⊢
  cases f with
  | error r => exact hf
  | ok p =>
    obtain ⟨t, xv⟩ := p
    dsimp only
    have h2 := slotRun_only t c 2 old ys
    generalize t.slotRun c 2 old ys = g at h2 ⊢
    cases g with
    | error r => exact CRes.Only.after h2 (by decide) hf
    | ok q => exact (Machine.Only.trans hf h2).trans (slotLoads_only _ _ _ _ _ _)

theorem macAcc_only (s : State) (c : ℕ) (op : ℕ) (w : Word) (flip : ℕ) :
    Only 144897 s (State.macAcc s c op w flip) := by
  unfold State.macAcc
  repeat' first
    | ((fail_if_no_progress extract_lets +onlyGivenNames x); refine Only.letElim (x := x) ?_ (fun _ => ?_); (on_goal 1 => unfold x); (on_goal 2 => clear_value x))
    | ((fail_if_no_progress extract_lets +onlyGivenNames x); clear_value x)
    | (with_reducible first
        | exact Only.refl
        | assumption
        | refine (setCore_only _ _ _).after (by decide) ?_
        | refine Only.when _ _ (fun _ => ?_) ?_
        | refine (leafEvent_only _ _ _ _).after (by decide) ?_)

theorem insnMac_only (op : ℕ) (flip : ℕ) (fed : Bool) (c : ℕ) (w : Word) (s : State) :
    CRes.Only 144897 s (insnMac op flip fed c w s) := by
  unfold insnMac
  repeat' first
    | ((fail_if_no_progress extract_lets +onlyGivenNames x); refine Only.letElim (x := x) ?_ (fun _ => ?_); (on_goal 1 => unfold x); (on_goal 2 => clear_value x))
    | ((fail_if_no_progress extract_lets +onlyGivenNames x); (fail_if_success (have := fun y => x y)); (fail_if_success (have : CRes := x)); (fail_if_success (have : Security := x)); (fail_if_success (have : Hbm := x)); (fail_if_success (have : Option State := x)); clear_value x)
    | ((fail_if_no_progress extract_lets +onlyGivenNames x); (try unfold x); clear x)
    | (with_reducible first
        | exact Only.refl
        | assumption
        | refine (slots_only _ _ _ _).after (by decide) ?_
        | refine (macAcc_only _ _ _ _ _).after (by decide) ?_
        | refine (postMod_only _ _ _ _).after (by decide) ?_
        | refine watched_only _ _ _ _ _ _ ?_
        | refine CRes.Only.andThen ?_ (fun _ => ?_)
        | refine Only.ite ?_ ?_
        | refine CRes.Only.exc ?_)
    | split

theorem insnAlu_only (op : ℕ) (c : ℕ) (w : Word) (s : State) :
    CRes.Only 8192 s (insnAlu op c w s) := by
  unfold insnAlu
  repeat' first
    | ((fail_if_no_progress extract_lets +onlyGivenNames x); refine Only.letElim (x := x) ?_ (fun _ => ?_); (on_goal 1 => unfold x); (on_goal 2 => clear_value x))
    | ((fail_if_no_progress extract_lets +onlyGivenNames x); clear_value x)
    | (with_reducible first
        | exact Only.refl
        | assumption
        | refine (setCore_only _ _ _).after (by decide) ?_
        | refine (freeNext_only _).after (by decide) ?_
        | refine Only.ite ?_ ?_)

theorem insnAddp_only (c : ℕ) (w : Word) (s : State) :
    CRes.Only 8192 s (insnAddp c w s) := by
  unfold insnAddp
  repeat' first
    | ((fail_if_no_progress extract_lets +onlyGivenNames x); clear_value x)
    | (with_reducible first
        | exact Only.refl
        | refine (setCore_only _ _ _).after (by decide) ?_
        | refine CRes.Only.done ?_)

theorem accResult_only (s : State) (c : ℕ) (i : ℕ) (v : ℕ) (p : Bool) :
    Only 8192 s (State.accResult s c i v p) := by
  unfold State.accResult
  repeat' first
    | ((fail_if_no_progress extract_lets +onlyGivenNames x); clear_value x)
    | (with_reducible first
        | exact Only.refl
        | refine (setCore_only _ _ _).after (by decide) ?_)

theorem insnAsh_only (c : ℕ) (w : Word) (s : State) :
    CRes.Only 8192 s (insnAsh c w s) := by
  unfold insnAsh
  repeat' first
    | ((fail_if_no_progress extract_lets +onlyGivenNames x); clear_value x)
    | (with_reducible first
        | exact Only.refl
        | refine (accResult_only _ _ _ _ _).after (by decide) ?_
        | refine (freeNext_only _).after (by decide) ?_
        | refine CRes.Only.done ?_)
    | split

theorem insnAsat_only (c : ℕ) (w : Word) (s : State) :
    CRes.Only 8192 s (insnAsat c w s) := by
  unfold insnAsat
  repeat' first
    | ((fail_if_no_progress extract_lets +onlyGivenNames x); clear_value x)
    | (with_reducible first
        | exact Only.refl
        | refine (accResult_only _ _ _ _ _).after (by decide) ?_
        | refine CRes.Only.done ?_)

theorem insnArnd_only (c : ℕ) (w : Word) (s : State) :
    CRes.Only 8192 s (insnArnd c w s) := by
  unfold insnArnd
  repeat' first
    | ((fail_if_no_progress extract_lets +onlyGivenNames x); clear_value x)
    | (with_reducible first
        | exact Only.refl
        | refine (accResult_only _ _ _ _ _).after (by decide) ?_
        | refine CRes.Only.done ?_)

theorem insnAadd_only (c : ℕ) (w : Word) (s : State) :
    CRes.Only 8192 s (insnAadd c w s) := by
  unfold insnAadd
  repeat' first
    | ((fail_if_no_progress extract_lets +onlyGivenNames x); clear_value x)
    | (with_reducible first
        | exact Only.refl
        | refine (accResult_only _ _ _ _ _).after (by decide) ?_
        | refine CRes.Only.done ?_)

theorem insnLoad_only (fed : Bool) (c : ℕ) (w : Word) (s : State) :
    CRes.Only 144897 s (insnLoad fed c w s) := by
  unfold insnLoad
  repeat' first
    | ((fail_if_no_progress extract_lets +onlyGivenNames x); clear_value x)
    | (with_reducible first
        | exact Only.refl
        | refine watched_only _ _ _ _ _ _ ?_
        | refine ((dataLoad_only _ _ _ _).of_val (by assumption)).after (by decide) ?_
        | refine ((dataLoad_only _ _ _ _).of_exc (by assumption)).after (by decide) ?_
        | refine (lsPost_only _ _ _).after (by decide) ?_
        | refine (setCore_only _ _ _).after (by decide) ?_
        | refine (winLoad_only _ _ _ _ _ _ _ _ _ _).after (by decide) ?_
        | refine CRes.Only.done ?_
        | refine CRes.Only.exc ?_)
    | split

theorem insnStore_only (fed : Bool) (c : ℕ) (w : Word) (s : State) :
    CRes.Only 407177 s (insnStore fed c w s) := by
  unfold insnStore
  repeat' first
    | ((fail_if_no_progress extract_lets +onlyGivenNames x); clear_value x)
    | (with_reducible first
        | exact Only.refl
        | refine watched_only _ _ _ _ _ _ ?_
        | refine dataStore_only _ _ _ _ _ _ _ _ (fun _ => ?_) (by decide)
        | refine (lsPost_only _ _ _).after (by decide) ?_)

theorem insnLineLoad_only (fed : Bool) (c : ℕ) (w : Word) (s : State) :
    CRes.Only 9216 s (insnLineLoad fed c w s) := by
  unfold insnLineLoad
  repeat' first
    | ((fail_if_no_progress extract_lets +onlyGivenNames x); clear_value x)
    | (with_reducible first
        | exact Only.refl
        | refine watched_only _ _ _ _ _ _ ?_
        | refine (winLoad_only _ _ _ _ _ _ _ _ _ _).after (by decide) ?_
        | refine CRes.Only.exc ?_)
    | split

theorem insnLineStore_only (fed : Bool) (c : ℕ) (w : Word) (s : State) :
    CRes.Only 144897 s (insnLineStore fed c w s) := by
  unfold insnLineStore
  repeat' first
    | ((fail_if_no_progress extract_lets +onlyGivenNames x); refine CRes.Only.letElim (x := x.1) ?_ (fun _ => ?_); (on_goal 1 => unfold x); (on_goal 2 => clear_value x))
    | ((fail_if_no_progress extract_lets +onlyGivenNames x); clear_value x)
    | (with_reducible first
        | exact Only.refl
        | assumption
        | refine watched_only _ _ _ _ _ _ ?_
        | refine (lineGather_only _ _ _ _ _ _ _).after (by decide) ?_
        | refine (meshQueue_only _ _ _ (by assumption)).after (by decide) ?_
        | refine (lsPost_only _ _ _).after (by decide) ?_
        | refine CRes.Only.done ?_
        | refine CRes.Only.exc ?_
        | exact CRes.Only.wait)
    | split

theorem insnLr_only (c : ℕ) (w : Word) (s : State) :
    CRes.Only 144897 s (insnLr c w s) := by
  unfold insnLr
  repeat' first
    | ((fail_if_no_progress extract_lets +onlyGivenNames x); (fail_if_success (have := fun y => x y)); (fail_if_success (have : CRes := x)); (fail_if_success (have : Security := x)); (fail_if_success (have : Hbm := x)); (fail_if_success (have : Option State := x)); clear_value x)
    | ((fail_if_no_progress extract_lets +onlyGivenNames x); (try unfold x); clear x)
    | (with_reducible first
        | exact Only.refl
        | refine watched_only _ _ _ _ _ _ ?_
        | refine ((memLoad_only _ _ _ _ _ _).of_val (by assumption)).after (by decide) ?_
        | refine ((memLoad_only _ _ _ _ _ _).of_exc (by assumption)).after (by decide) ?_
        | refine (setCore_only _ _ _).after (by decide) ?_
        | refine (winLoad_only _ _ _ _ _ _ _ _ _ _).after (by decide) ?_
        | refine CRes.Only.done ?_
        | refine CRes.Only.exc ?_)
    | split

theorem insnSc_only (c : ℕ) (w : Word) (s : State) :
    CRes.Only 9216 s (insnSc c w s) := by
  unfold insnSc
  repeat' first
    | ((fail_if_no_progress extract_lets +onlyGivenNames x); refine CRes.Only.letElim (x := x) ?_ (fun _ => ?_); (on_goal 1 => unfold x); (on_goal 2 => clear_value x))
    | ((fail_if_no_progress extract_lets +onlyGivenNames x); (fail_if_success (have := fun y => x y)); (fail_if_success (have : CRes := x)); (fail_if_success (have : Security := x)); (fail_if_success (have : Hbm := x)); (fail_if_success (have : Option State := x)); clear_value x)
    | ((fail_if_no_progress extract_lets +onlyGivenNames x); (try unfold x); clear x)
    | (with_reducible first
        | exact Only.refl
        | assumption
        | refine watched_only _ _ _ _ _ _ ?_
        | refine (setCore_only _ _ _).after (by decide) ?_
        | refine (coreMemWrite_only _ _ _ _ _ _).after (by decide) ?_
        | refine (winLoad_only _ _ _ _ _ _ _ _ _ _).after (by decide) ?_
        | refine CRes.Only.done ?_
        | refine CRes.Only.exc ?_)
    | split

theorem insnBra_only (c : ℕ) (w : Word) (s : State) :
    CRes.Only 0 s (insnBra c w s) := by
  unfold insnBra
  repeat' first
    | (with_reducible first
        | exact Only.refl
        | refine CRes.Only.jump ?_)

theorem insnBcc_only (c : ℕ) (w : Word) (s : State) :
    CRes.Only 0 s (insnBcc c w s) := by
  unfold insnBcc
  repeat' first
    | (with_reducible first
        | exact Only.refl
        | refine CRes.Only.done ?_
        | refine CRes.Only.jump ?_)
    | split

theorem insnCall_only (c : ℕ) (w : Word) (s : State) :
    CRes.Only 8192 s (insnCall c w s) := by
  unfold insnCall
  repeat' first
    | (with_reducible first
        | exact Only.refl
        | refine (setCore_only _ _ _).after (by decide) ?_
        | refine CRes.Only.jump ?_
        | refine CRes.Only.exc ?_)
    | split

theorem insnJmp_only (c : ℕ) (w : Word) (s : State) :
    CRes.Only 0 s (insnJmp c w s) := by
  unfold insnJmp
  repeat' first
    | ((fail_if_no_progress extract_lets +onlyGivenNames x); clear_value x)
    | (with_reducible first
        | exact Only.refl
        | refine CRes.Only.jump ?_
        | refine CRes.Only.exc ?_)
    | split

theorem insnCallr_only (c : ℕ) (w : Word) (s : State) :
    CRes.Only 8192 s (insnCallr c w s) := by
  unfold insnCallr
  repeat' first
    | ((fail_if_no_progress extract_lets +onlyGivenNames x); clear_value x)
    | (with_reducible first
        | exact Only.refl
        | refine (setCore_only _ _ _).after (by decide) ?_
        | refine CRes.Only.jump ?_
        | refine CRes.Only.exc ?_)
    | split

theorem insnRet_only (c : ℕ) (_w : Word) (s : State) :
    CRes.Only 8192 s (insnRet c _w s) := by
  unfold insnRet
  repeat' first
    | ((fail_if_no_progress extract_lets +onlyGivenNames x); clear_value x)
    | (with_reducible first
        | exact Only.refl
        | refine (setCore_only _ _ _).after (by decide) ?_
        | refine CRes.Only.jump ?_
        | refine CRes.Only.exc ?_)
    | split

theorem insnReti_only (c : ℕ) (_w : Word) (s : State) :
    CRes.Only 8192 s (insnReti c _w s) := by
  unfold insnReti
  repeat' first
    | ((fail_if_no_progress extract_lets +onlyGivenNames x); clear_value x)
    | (with_reducible first
        | exact Only.refl
        | refine (setCore_only _ _ _).after (by decide) ?_
        | refine CRes.Only.jump ?_
        | refine CRes.Only.exc ?_)
    | split

theorem insnRep_only (c : ℕ) (w : Word) (s : State) :
    CRes.Only 8192 s (insnRep c w s) := by
  unfold insnRep
  repeat' first
    | (with_reducible first
        | exact Only.refl
        | refine (setCore_only _ _ _).after (by decide) ?_
        | refine CRes.Only.done ?_
        | refine CRes.Only.exc ?_)
    | split

theorem insnRepr_only (c : ℕ) (w : Word) (s : State) :
    CRes.Only 8192 s (insnRepr c w s) := by
  unfold insnRepr
  repeat' first
    | ((fail_if_no_progress extract_lets +onlyGivenNames x); clear_value x)
    | (with_reducible first
        | exact Only.refl
        | refine (setCore_only _ _ _).after (by decide) ?_
        | refine CRes.Only.done ?_
        | refine CRes.Only.jump ?_
        | refine CRes.Only.exc ?_)
    | split

theorem insnBrk_only (c : ℕ) (_w : Word) (s : State) :
    CRes.Only 8192 s (insnBrk c _w s) := by
  unfold insnBrk
  repeat' first
    | (with_reducible first
        | exact Only.refl
        | refine (setCore_only _ _ _).after (by decide) ?_
        | refine CRes.Only.done ?_)

theorem insnWait_only (c : ℕ) (_w : Word) (s : State) :
    CRes.Only 1 s (insnWait c _w s) := by
  unfold insnWait
  repeat' first
    | (with_reducible first
        | exact Only.refl
        | refine (put_only _ _ _).after (by decide) ?_
        | refine CRes.Only.done ?_)

theorem insnNop_only (_c : ℕ) (_w : Word) (s : State) :
    CRes.Only 0 s (insnNop _c _w s) := by
  unfold insnNop
  repeat' first
    | (with_reducible first
        | exact Only.refl
        | refine CRes.Only.done ?_)

theorem insnLoopv_only (c : ℕ) (w : Word) (s : State) :
    CRes.Only 8192 s (insnLoopv c w s) := by
  unfold insnLoopv
  repeat' first
    | ((fail_if_no_progress extract_lets +onlyGivenNames x); clear_value x)
    | (with_reducible first
        | exact Only.refl
        | refine (setCore_only _ _ _).after (by decide) ?_
        | refine CRes.Only.done ?_
        | refine CRes.Only.jump ?_)
    | split

theorem insnTrap_only (c : ℕ) (w : Word) (s : State) :
    CRes.Only 0 s (insnTrap c w s) := by
  unfold insnTrap
  repeat' first
    | (with_reducible first
        | exact Only.refl
        | refine CRes.Only.exc ?_
        | exact CRes.Only.halt)
    | split

theorem insnMovx_only (c : ℕ) (w : Word) (s : State) :
    CRes.Only 8192 s (insnMovx c w s) := by
  unfold insnMovx
  repeat' first
    | ((fail_if_no_progress extract_lets +onlyGivenNames x); clear_value x)
    | (with_reducible first
        | exact Only.refl
        | refine (regWrite_only _ _ _ _ _).after (by decide) ?_
        | refine CRes.Only.done ?_
        | refine CRes.Only.exc ?_)
    | split

theorem insnLdi_only (c : ℕ) (w : Word) (s : State) :
    CRes.Only 8192 s (insnLdi c w s) := by
  unfold insnLdi
  repeat' first
    | (with_reducible first
        | exact Only.refl
        | refine (regWrite_only _ _ _ _ _).after (by decide) ?_
        | refine CRes.Only.done ?_)

theorem insnLdih_only (c : ℕ) (w : Word) (s : State) :
    CRes.Only 8192 s (insnLdih c w s) := by
  unfold insnLdih
  repeat' first
    | ((fail_if_no_progress extract_lets +onlyGivenNames x); clear_value x)
    | (with_reducible first
        | exact Only.refl
        | refine (regWrite_only _ _ _ _ _).after (by decide) ?_
        | refine CRes.Only.done ?_)

theorem execMacMpy_only (c : ℕ) (w : Word) (flip : ℕ) (s : State) :
    ∀ t', execMacMpy c w flip s = .next t' → Only 407041 s t' := by
  intro t' h
  unfold execMacMpy at h
  injection h with h
  subst h
  repeat' first
    | (with_reducible first
        | exact Only.refl
        | refine coreCmd_only _ _ _ _ _ (fun _ => ?_) (by decide)
        | refine (insnMac_only _ _ _ _ _ _).after (by decide) ?_)

theorem execMacMac_only (c : ℕ) (w : Word) (flip : ℕ) (s : State) :
    ∀ t', execMacMac c w flip s = .next t' → Only 407041 s t' := by
  intro t' h
  unfold execMacMac at h
  injection h with h
  subst h
  repeat' first
    | (with_reducible first
        | exact Only.refl
        | refine coreCmd_only _ _ _ _ _ (fun _ => ?_) (by decide)
        | refine (insnMac_only _ _ _ _ _ _).after (by decide) ?_)

theorem execMacMsu_only (c : ℕ) (w : Word) (flip : ℕ) (s : State) :
    ∀ t', execMacMsu c w flip s = .next t' → Only 407041 s t' := by
  intro t' h
  unfold execMacMsu at h
  injection h with h
  subst h
  repeat' first
    | (with_reducible first
        | exact Only.refl
        | refine coreCmd_only _ _ _ _ _ (fun _ => ?_) (by decide)
        | refine (insnMac_only _ _ _ _ _ _).after (by decide) ?_)

theorem execMacMpyu_only (c : ℕ) (w : Word) (flip : ℕ) (s : State) :
    ∀ t', execMacMpyu c w flip s = .next t' → Only 407041 s t' := by
  intro t' h
  unfold execMacMpyu at h
  injection h with h
  subst h
  repeat' first
    | (with_reducible first
        | exact Only.refl
        | refine coreCmd_only _ _ _ _ _ (fun _ => ?_) (by decide)
        | refine (insnMac_only _ _ _ _ _ _).after (by decide) ?_)

theorem execMacMacu_only (c : ℕ) (w : Word) (flip : ℕ) (s : State) :
    ∀ t', execMacMacu c w flip s = .next t' → Only 407041 s t' := by
  intro t' h
  unfold execMacMacu at h
  injection h with h
  subst h
  repeat' first
    | (with_reducible first
        | exact Only.refl
        | refine coreCmd_only _ _ _ _ _ (fun _ => ?_) (by decide)
        | refine (insnMac_only _ _ _ _ _ _).after (by decide) ?_)

theorem execMacMacsu_only (c : ℕ) (w : Word) (flip : ℕ) (s : State) :
    ∀ t', execMacMacsu c w flip s = .next t' → Only 407041 s t' := by
  intro t' h
  unfold execMacMacsu at h
  injection h with h
  subst h
  repeat' first
    | (with_reducible first
        | exact Only.refl
        | refine coreCmd_only _ _ _ _ _ (fun _ => ?_) (by decide)
        | refine (insnMac_only _ _ _ _ _ _).after (by decide) ?_)

theorem execMacClr_only (c : ℕ) (w : Word) (flip : ℕ) (s : State) :
    ∀ t', execMacClr c w flip s = .next t' → Only 407041 s t' := by
  intro t' h
  unfold execMacClr at h
  injection h with h
  subst h
  repeat' first
    | (with_reducible first
        | exact Only.refl
        | refine coreCmd_only _ _ _ _ _ (fun _ => ?_) (by decide)
        | refine (insnMac_only _ _ _ _ _ _).after (by decide) ?_)

theorem execMovesOnly_only (c : ℕ) (w : Word) (s : State) :
    ∀ t', execMovesOnly c w s = .next t' → Only 407041 s t' := by
  intro t' h
  unfold execMovesOnly at h
  injection h with h
  subst h
  repeat' first
    | (with_reducible first
        | exact Only.refl
        | refine coreCmd_only _ _ _ _ _ (fun _ => ?_) (by decide)
        | refine (insnMac_only _ _ _ _ _ _).after (by decide) ?_)

theorem execAluAdd_only (c : ℕ) (w : Word) (s : State) :
    ∀ t', execAluAdd c w s = .next t' → Only 407041 s t' := by
  intro t' h
  unfold execAluAdd at h
  injection h with h
  subst h
  repeat' first
    | (with_reducible first
        | exact Only.refl
        | refine coreCmd_only _ _ _ _ _ (fun _ => ?_) (by decide)
        | refine (insnAlu_only _ _ _ _).after (by decide) ?_)

theorem execAluSub_only (c : ℕ) (w : Word) (s : State) :
    ∀ t', execAluSub c w s = .next t' → Only 407041 s t' := by
  intro t' h
  unfold execAluSub at h
  injection h with h
  subst h
  repeat' first
    | (with_reducible first
        | exact Only.refl
        | refine coreCmd_only _ _ _ _ _ (fun _ => ?_) (by decide)
        | refine (insnAlu_only _ _ _ _).after (by decide) ?_)

theorem execAluAdc_only (c : ℕ) (w : Word) (s : State) :
    ∀ t', execAluAdc c w s = .next t' → Only 407041 s t' := by
  intro t' h
  unfold execAluAdc at h
  injection h with h
  subst h
  repeat' first
    | (with_reducible first
        | exact Only.refl
        | refine coreCmd_only _ _ _ _ _ (fun _ => ?_) (by decide)
        | refine (insnAlu_only _ _ _ _).after (by decide) ?_)

theorem execAluSbc_only (c : ℕ) (w : Word) (s : State) :
    ∀ t', execAluSbc c w s = .next t' → Only 407041 s t' := by
  intro t' h
  unfold execAluSbc at h
  injection h with h
  subst h
  repeat' first
    | (with_reducible first
        | exact Only.refl
        | refine coreCmd_only _ _ _ _ _ (fun _ => ?_) (by decide)
        | refine (insnAlu_only _ _ _ _).after (by decide) ?_)

theorem execAluAnd_only (c : ℕ) (w : Word) (s : State) :
    ∀ t', execAluAnd c w s = .next t' → Only 407041 s t' := by
  intro t' h
  unfold execAluAnd at h
  injection h with h
  subst h
  repeat' first
    | (with_reducible first
        | exact Only.refl
        | refine coreCmd_only _ _ _ _ _ (fun _ => ?_) (by decide)
        | refine (insnAlu_only _ _ _ _).after (by decide) ?_)

theorem execAluOr_only (c : ℕ) (w : Word) (s : State) :
    ∀ t', execAluOr c w s = .next t' → Only 407041 s t' := by
  intro t' h
  unfold execAluOr at h
  injection h with h
  subst h
  repeat' first
    | (with_reducible first
        | exact Only.refl
        | refine coreCmd_only _ _ _ _ _ (fun _ => ?_) (by decide)
        | refine (insnAlu_only _ _ _ _).after (by decide) ?_)

theorem execAluXor_only (c : ℕ) (w : Word) (s : State) :
    ∀ t', execAluXor c w s = .next t' → Only 407041 s t' := by
  intro t' h
  unfold execAluXor at h
  injection h with h
  subst h
  repeat' first
    | (with_reducible first
        | exact Only.refl
        | refine coreCmd_only _ _ _ _ _ (fun _ => ?_) (by decide)
        | refine (insnAlu_only _ _ _ _).after (by decide) ?_)

theorem execAluShl_only (c : ℕ) (w : Word) (s : State) :
    ∀ t', execAluShl c w s = .next t' → Only 407041 s t' := by
  intro t' h
  unfold execAluShl at h
  injection h with h
  subst h
  repeat' first
    | (with_reducible first
        | exact Only.refl
        | refine coreCmd_only _ _ _ _ _ (fun _ => ?_) (by decide)
        | refine (insnAlu_only _ _ _ _).after (by decide) ?_)

theorem execAluShr_only (c : ℕ) (w : Word) (s : State) :
    ∀ t', execAluShr c w s = .next t' → Only 407041 s t' := by
  intro t' h
  unfold execAluShr at h
  injection h with h
  subst h
  repeat' first
    | (with_reducible first
        | exact Only.refl
        | refine coreCmd_only _ _ _ _ _ (fun _ => ?_) (by decide)
        | refine (insnAlu_only _ _ _ _).after (by decide) ?_)

theorem execAluSar_only (c : ℕ) (w : Word) (s : State) :
    ∀ t', execAluSar c w s = .next t' → Only 407041 s t' := by
  intro t' h
  unfold execAluSar at h
  injection h with h
  subst h
  repeat' first
    | (with_reducible first
        | exact Only.refl
        | refine coreCmd_only _ _ _ _ _ (fun _ => ?_) (by decide)
        | refine (insnAlu_only _ _ _ _).after (by decide) ?_)

theorem execAluCmp_only (c : ℕ) (w : Word) (s : State) :
    ∀ t', execAluCmp c w s = .next t' → Only 407041 s t' := by
  intro t' h
  unfold execAluCmp at h
  injection h with h
  subst h
  repeat' first
    | (with_reducible first
        | exact Only.refl
        | refine coreCmd_only _ _ _ _ _ (fun _ => ?_) (by decide)
        | refine (insnAlu_only _ _ _ _).after (by decide) ?_)

theorem execAluTst_only (c : ℕ) (w : Word) (s : State) :
    ∀ t', execAluTst c w s = .next t' → Only 407041 s t' := by
  intro t' h
  unfold execAluTst at h
  injection h with h
  subst h
  repeat' first
    | (with_reducible first
        | exact Only.refl
        | refine coreCmd_only _ _ _ _ _ (fun _ => ?_) (by decide)
        | refine (insnAlu_only _ _ _ _).after (by decide) ?_)

theorem execAluMin_only (c : ℕ) (w : Word) (s : State) :
    ∀ t', execAluMin c w s = .next t' → Only 407041 s t' := by
  intro t' h
  unfold execAluMin at h
  injection h with h
  subst h
  repeat' first
    | (with_reducible first
        | exact Only.refl
        | refine coreCmd_only _ _ _ _ _ (fun _ => ?_) (by decide)
        | refine (insnAlu_only _ _ _ _).after (by decide) ?_)

theorem execAluMax_only (c : ℕ) (w : Word) (s : State) :
    ∀ t', execAluMax c w s = .next t' → Only 407041 s t' := by
  intro t' h
  unfold execAluMax at h
  injection h with h
  subst h
  repeat' first
    | (with_reducible first
        | exact Only.refl
        | refine coreCmd_only _ _ _ _ _ (fun _ => ?_) (by decide)
        | refine (insnAlu_only _ _ _ _).after (by decide) ?_)

theorem execAluAddp_only (c : ℕ) (w : Word) (s : State) :
    ∀ t', execAluAddp c w s = .next t' → Only 407041 s t' := by
  intro t' h
  unfold execAluAddp at h
  injection h with h
  subst h
  repeat' first
    | (with_reducible first
        | exact Only.refl
        | refine coreCmd_only _ _ _ _ _ (fun _ => ?_) (by decide)
        | refine (insnAddp_only _ _ _).after (by decide) ?_)

theorem execAluAsh_only (c : ℕ) (w : Word) (s : State) :
    ∀ t', execAluAsh c w s = .next t' → Only 407041 s t' := by
  intro t' h
  unfold execAluAsh at h
  injection h with h
  subst h
  repeat' first
    | (with_reducible first
        | exact Only.refl
        | refine coreCmd_only _ _ _ _ _ (fun _ => ?_) (by decide)
        | refine (insnAsh_only _ _ _).after (by decide) ?_)

theorem execAluAsat_only (c : ℕ) (w : Word) (s : State) :
    ∀ t', execAluAsat c w s = .next t' → Only 407041 s t' := by
  intro t' h
  unfold execAluAsat at h
  injection h with h
  subst h
  repeat' first
    | (with_reducible first
        | exact Only.refl
        | refine coreCmd_only _ _ _ _ _ (fun _ => ?_) (by decide)
        | refine (insnAsat_only _ _ _).after (by decide) ?_)

theorem execAluArnd_only (c : ℕ) (w : Word) (s : State) :
    ∀ t', execAluArnd c w s = .next t' → Only 407041 s t' := by
  intro t' h
  unfold execAluArnd at h
  injection h with h
  subst h
  repeat' first
    | (with_reducible first
        | exact Only.refl
        | refine coreCmd_only _ _ _ _ _ (fun _ => ?_) (by decide)
        | refine (insnArnd_only _ _ _).after (by decide) ?_)

theorem execAluAadd_only (c : ℕ) (w : Word) (s : State) :
    ∀ t', execAluAadd c w s = .next t' → Only 407041 s t' := by
  intro t' h
  unfold execAluAadd at h
  injection h with h
  subst h
  repeat' first
    | (with_reducible first
        | exact Only.refl
        | refine coreCmd_only _ _ _ _ _ (fun _ => ?_) (by decide)
        | refine (insnAadd_only _ _ _).after (by decide) ?_)

theorem execLsLoad_only (c : ℕ) (w : Word) (s : State) :
    ∀ t', execLsLoad c w s = .next t' → Only 407041 s t' := by
  intro t' h
  unfold execLsLoad at h
  injection h with h
  subst h
  repeat' first
    | (with_reducible first
        | exact Only.refl
        | refine coreCmd_only _ _ _ _ _ (fun _ => ?_) (by decide)
        | refine (insnLoad_only _ _ _ _).after (by decide) ?_)

theorem execLsStore_only (c : ℕ) (w : Word) (s : State) :
    ∀ t', execLsStore c w s = .next t' → Only 407177 s t' := by
  intro t' h
  unfold execLsStore at h
  injection h with h
  subst h
  repeat' first
    | (with_reducible first
        | exact Only.refl
        | refine coreCmd_only _ _ _ _ _ (fun _ => ?_) (by decide)
        | refine (insnStore_only _ _ _ _).after (by decide) ?_)

theorem execLineLoad_only (c : ℕ) (w : Word) (s : State) :
    ∀ t', execLineLoad c w s = .next t' → Only 407041 s t' := by
  intro t' h
  unfold execLineLoad at h
  injection h with h
  subst h
  repeat' first
    | (with_reducible first
        | exact Only.refl
        | refine coreCmd_only _ _ _ _ _ (fun _ => ?_) (by decide)
        | refine (insnLineLoad_only _ _ _ _).after (by decide) ?_)

theorem execLineStore_only (c : ℕ) (w : Word) (s : State) :
    ∀ t', execLineStore c w s = .next t' → Only 407041 s t' := by
  intro t' h
  unfold execLineStore at h
  injection h with h
  subst h
  repeat' first
    | (with_reducible first
        | exact Only.refl
        | refine coreCmd_only _ _ _ _ _ (fun _ => ?_) (by decide)
        | refine (insnLineStore_only _ _ _ _).after (by decide) ?_)

theorem execAtomLr_only (c : ℕ) (w : Word) (s : State) :
    ∀ t', execAtomLr c w s = .next t' → Only 407041 s t' := by
  intro t' h
  unfold execAtomLr at h
  injection h with h
  subst h
  repeat' first
    | (with_reducible first
        | exact Only.refl
        | refine coreCmd_only _ _ _ _ _ (fun _ => ?_) (by decide)
        | refine (insnLr_only _ _ _).after (by decide) ?_)

theorem execAtomSc_only (c : ℕ) (w : Word) (s : State) :
    ∀ t', execAtomSc c w s = .next t' → Only 407041 s t' := by
  intro t' h
  unfold execAtomSc at h
  injection h with h
  subst h
  repeat' first
    | (with_reducible first
        | exact Only.refl
        | refine coreCmd_only _ _ _ _ _ (fun _ => ?_) (by decide)
        | refine (insnSc_only _ _ _).after (by decide) ?_)

theorem execBrBra_only (c : ℕ) (w : Word) (s : State) :
    ∀ t', execBrBra c w s = .next t' → Only 407041 s t' := by
  intro t' h
  unfold execBrBra at h
  injection h with h
  subst h
  repeat' first
    | (with_reducible first
        | exact Only.refl
        | refine coreCmd_only _ _ _ _ _ (fun _ => ?_) (by decide)
        | refine (insnBra_only _ _ _).after (by decide) ?_)

theorem execBrBcc_only (c : ℕ) (w : Word) (s : State) :
    ∀ t', execBrBcc c w s = .next t' → Only 407041 s t' := by
  intro t' h
  unfold execBrBcc at h
  injection h with h
  subst h
  repeat' first
    | (with_reducible first
        | exact Only.refl
        | refine coreCmd_only _ _ _ _ _ (fun _ => ?_) (by decide)
        | refine (insnBcc_only _ _ _).after (by decide) ?_)

theorem execBrCall_only (c : ℕ) (w : Word) (s : State) :
    ∀ t', execBrCall c w s = .next t' → Only 407041 s t' := by
  intro t' h
  unfold execBrCall at h
  injection h with h
  subst h
  repeat' first
    | (with_reducible first
        | exact Only.refl
        | refine coreCmd_only _ _ _ _ _ (fun _ => ?_) (by decide)
        | refine (insnCall_only _ _ _).after (by decide) ?_)

theorem execBrJmp_only (c : ℕ) (w : Word) (s : State) :
    ∀ t', execBrJmp c w s = .next t' → Only 407041 s t' := by
  intro t' h
  unfold execBrJmp at h
  injection h with h
  subst h
  repeat' first
    | (with_reducible first
        | exact Only.refl
        | refine coreCmd_only _ _ _ _ _ (fun _ => ?_) (by decide)
        | refine (insnJmp_only _ _ _).after (by decide) ?_)

theorem execBrCallr_only (c : ℕ) (w : Word) (s : State) :
    ∀ t', execBrCallr c w s = .next t' → Only 407041 s t' := by
  intro t' h
  unfold execBrCallr at h
  injection h with h
  subst h
  repeat' first
    | (with_reducible first
        | exact Only.refl
        | refine coreCmd_only _ _ _ _ _ (fun _ => ?_) (by decide)
        | refine (insnCallr_only _ _ _).after (by decide) ?_)

theorem execBrRet_only (c : ℕ) (w : Word) (s : State) :
    ∀ t', execBrRet c w s = .next t' → Only 407041 s t' := by
  intro t' h
  unfold execBrRet at h
  injection h with h
  subst h
  repeat' first
    | (with_reducible first
        | exact Only.refl
        | refine coreCmd_only _ _ _ _ _ (fun _ => ?_) (by decide)
        | refine (insnRet_only _ _ _).after (by decide) ?_)

theorem execBrReti_only (c : ℕ) (w : Word) (s : State) :
    ∀ t', execBrReti c w s = .next t' → Only 407041 s t' := by
  intro t' h
  unfold execBrReti at h
  injection h with h
  subst h
  repeat' first
    | (with_reducible first
        | exact Only.refl
        | refine coreCmd_only _ _ _ _ _ (fun _ => ?_) (by decide)
        | refine (insnReti_only _ _ _).after (by decide) ?_)

theorem execBrRep_only (c : ℕ) (w : Word) (s : State) :
    ∀ t', execBrRep c w s = .next t' → Only 407041 s t' := by
  intro t' h
  unfold execBrRep at h
  injection h with h
  subst h
  repeat' first
    | (with_reducible first
        | exact Only.refl
        | refine coreCmd_only _ _ _ _ _ (fun _ => ?_) (by decide)
        | refine (insnRep_only _ _ _).after (by decide) ?_)

theorem execBrRepr_only (c : ℕ) (w : Word) (s : State) :
    ∀ t', execBrRepr c w s = .next t' → Only 407041 s t' := by
  intro t' h
  unfold execBrRepr at h
  injection h with h
  subst h
  repeat' first
    | (with_reducible first
        | exact Only.refl
        | refine coreCmd_only _ _ _ _ _ (fun _ => ?_) (by decide)
        | refine (insnRepr_only _ _ _).after (by decide) ?_)

theorem execBrBrk_only (c : ℕ) (w : Word) (s : State) :
    ∀ t', execBrBrk c w s = .next t' → Only 407041 s t' := by
  intro t' h
  unfold execBrBrk at h
  injection h with h
  subst h
  repeat' first
    | (with_reducible first
        | exact Only.refl
        | refine coreCmd_only _ _ _ _ _ (fun _ => ?_) (by decide)
        | refine (insnBrk_only _ _ _).after (by decide) ?_)

theorem execBrLoopv_only (c : ℕ) (w : Word) (s : State) :
    ∀ t', execBrLoopv c w s = .next t' → Only 407041 s t' := by
  intro t' h
  unfold execBrLoopv at h
  injection h with h
  subst h
  repeat' first
    | (with_reducible first
        | exact Only.refl
        | refine coreCmd_only _ _ _ _ _ (fun _ => ?_) (by decide)
        | refine (insnLoopv_only _ _ _).after (by decide) ?_)

theorem execCoreWait_only (c : ℕ) (w : Word) (s : State) :
    ∀ t', execCoreWait c w s = .next t' → Only 407041 s t' := by
  intro t' h
  unfold execCoreWait at h
  injection h with h
  subst h
  repeat' first
    | (with_reducible first
        | exact Only.refl
        | refine coreCmd_only _ _ _ _ _ (fun _ => ?_) (by decide)
        | refine (insnWait_only _ _ _).after (by decide) ?_)

theorem execBrTrap_only (c : ℕ) (w : Word) (s : State) :
    ∀ t', execBrTrap c w s = .next t' → Only 407041 s t' := by
  intro t' h
  unfold execBrTrap at h
  injection h with h
  subst h
  repeat' first
    | (with_reducible first
        | exact Only.refl
        | refine coreCmd_only _ _ _ _ _ (fun _ => ?_) (by decide)
        | refine (insnTrap_only _ _ _).after (by decide) ?_)

theorem execBrNop_only (c : ℕ) (w : Word) (s : State) :
    ∀ t', execBrNop c w s = .next t' → Only 407041 s t' := by
  intro t' h
  unfold execBrNop at h
  injection h with h
  subst h
  repeat' first
    | (with_reducible first
        | exact Only.refl
        | refine coreCmd_only _ _ _ _ _ (fun _ => ?_) (by decide)
        | refine (insnNop_only _ _ _).after (by decide) ?_)

theorem execMovx_only (c : ℕ) (w : Word) (s : State) :
    ∀ t', execMovx c w s = .next t' → Only 407041 s t' := by
  intro t' h
  unfold execMovx at h
  injection h with h
  subst h
  repeat' first
    | (with_reducible first
        | exact Only.refl
        | refine coreCmd_only _ _ _ _ _ (fun _ => ?_) (by decide)
        | refine (insnMovx_only _ _ _).after (by decide) ?_)

theorem execLdi_only (c : ℕ) (w : Word) (s : State) :
    ∀ t', execLdi c w s = .next t' → Only 407041 s t' := by
  intro t' h
  unfold execLdi at h
  injection h with h
  subst h
  repeat' first
    | (with_reducible first
        | exact Only.refl
        | refine coreCmd_only _ _ _ _ _ (fun _ => ?_) (by decide)
        | refine (insnLdi_only _ _ _).after (by decide) ?_)

theorem execLdih_only (c : ℕ) (w : Word) (s : State) :
    ∀ t', execLdih c w s = .next t' → Only 407041 s t' := by
  intro t' h
  unfold execLdih at h
  injection h with h
  subst h
  repeat' first
    | (with_reducible first
        | exact Only.refl
        | refine coreCmd_only _ _ _ _ _ (fun _ => ?_) (by decide)
        | refine (insnLdih_only _ _ _).after (by decide) ?_)

end Sys2Proof.Machine
end

