-- ==== Sys2Proof/Laws/OnlyHbm.lean ====
section
/-! SUPPORT. Sys2Proof/Laws/OnlyHbm.lean: what the operations of Machine/Hbm.lean leave alone (Laws/Only.lean): one lemma each. -/

set_option linter.unusedTactic false
set_option linter.tactic.unusedName false
set_option linter.unusedVariables false
set_option linter.unreachableTactic false

namespace Sys2Proof.Machine

theorem rekeyCheck_only (s : State) :
    Only 134657 s (State.rekeyCheck s) := by
  unfold State.rekeyCheck
  repeat' first
    | ((fail_if_no_progress extract_lets +onlyGivenNames x); (try unfold x); clear x)
    | (with_reducible first
        | exact Only.refl
        | refine (raise_only _ _).after (by decide) ?_
        | refine (put_only _ _ _).after (by decide) ?_
        | refine (setHbm_only _ _ (by exact fun h => h)).after (by decide) ?_
        | refine Only.ite ?_ ?_)

theorem stackFail_only (s : State) (k : ℕ) (a : ℕ) :
    Only 134657 s (State.stackFail s k a) := by
  unfold State.stackFail
  repeat' first
    | (with_reducible first
        | exact Only.refl
        | refine (rekeyCheck_only _).after (by decide) ?_
        | refine Only.log _ _ _ (fun _ => ?_) ?_
        | refine (raise_only _ _).after (by decide) ?_
        | refine (put_only _ _ _).after (by decide) ?_)

theorem memExec_only (s : State) (k : ℕ) (i : ℕ) (p : Acc → Bool) (up : List (ℕ × ℕ)) (par : Bool) :
    Only 400897 s (State.memExec s k i p up par) := by
  unfold State.memExec
  repeat' first
    | ((fail_if_no_progress extract_lets +onlyGivenNames x); refine Only.letElim (x := x.1) ?_ (fun _ => ?_); (on_goal 1 => unfold x); (on_goal 2 => clear_value x))
    | ((fail_if_no_progress extract_lets +onlyGivenNames x); clear_value x)
    | (with_reducible first
        | exact Only.refl
        | assumption
        | refine (tgtAnswer_only _ _ _ _).after (by decide) ?_
        | refine (stackFail_only _ _ _).after (by decide) ?_
        | refine (lineAccessW_only _ _ _ _ _ _ _).after (by decide) ?_
        | refine (lineRead_only _ _ _ _).after (by decide) ?_
        | refine Only.ite ?_ ?_
        | refine Only.iteP ?_ ?_)
    | split

theorem execHbmRead_only (k : ℕ) (i : ℕ) (up : List (ℕ × ℕ)) (par : Bool) (s : State) :
    ∀ t', execHbmRead k i up par s = .next t' → Only 999353 s t' := by
  intro t' h
  unfold execHbmRead at h
  injection h with h
  subst h
  repeat' first
    | (with_reducible first
        | exact Only.refl
        | refine (settle_only _).after (by decide) ?_
        | refine (memExec_only _ _ _ _ _ _).after (by decide) ?_)

theorem execFullLineWrite_only (k : ℕ) (i : ℕ) (par : Bool) (s : State) :
    ∀ t', execFullLineWrite k i par s = .next t' → Only 999353 s t' := by
  intro t' h
  unfold execFullLineWrite at h
  injection h with h
  subst h
  repeat' first
    | (with_reducible first
        | exact Only.refl
        | refine (settle_only _).after (by decide) ?_
        | refine (memExec_only _ _ _ _ _ _).after (by decide) ?_)

theorem execPartialWrite_only (k : ℕ) (i : ℕ) (up : List (ℕ × ℕ)) (par : Bool) (s : State) :
    ∀ t', execPartialWrite k i up par s = .next t' → Only 999353 s t' := by
  intro t' h
  unfold execPartialWrite at h
  injection h with h
  subst h
  repeat' first
    | (with_reducible first
        | exact Only.refl
        | refine (settle_only _).after (by decide) ?_
        | refine (memExec_only _ _ _ _ _ _).after (by decide) ?_)

theorem execTempRead_only (k : ℕ) (temp : ℕ) (s : State) :
    ∀ t', execTempRead k temp s = .next t' → Only 132609 s t' := by
  intro t' h
  unfold execTempRead at h
  injection h with h
  subst h
  repeat' first
    | ((fail_if_no_progress extract_lets +onlyGivenNames x); refine Only.letElim (x := x) ?_ (fun _ => ?_); (on_goal 1 => unfold x); (on_goal 2 => clear_value x))
    | ((fail_if_no_progress extract_lets +onlyGivenNames x); clear_value x)
    | (with_reducible first
        | exact Only.refl
        | assumption
        | refine (put_only _ _ _).after (by decide) ?_
        | refine Only.when _ _ (fun _ => ?_) ?_
        | refine (raise_only _ _).after (by decide) ?_
        | refine Only.ite ?_ ?_)

theorem execSelfRefreshExit_only (k : ℕ) (s : State) :
    ∀ t', execSelfRefreshExit k s = .next t' → Only 1 s t' := by
  intro t' h
  unfold execSelfRefreshExit at h
  injection h with h
  subst h
  repeat' first
    | (with_reducible first
        | exact Only.refl
        | refine (put_only _ _ _).after (by decide) ?_
        | refine Only.ite ?_ ?_)

theorem execMemInit_only (s : State) :
    ∀ t', execMemInit s = .next t' → Only 1 s t' := by
  intro t' h
  unfold execMemInit at h
  injection h with h
  subst h
  repeat' first
    | (with_reducible first
        | exact Only.refl
        | refine (initMem_only _).after (by decide) ?_)

theorem initWords_only (s : State) (x : Hbm) (h : x.words = s.hbm.words.filter (fun e => decide (e.1 * 8 < 0x001680000000))) :
    Only 691753 s (s.setHbm x) :=
  (setHbm_only _ _ (fun g => h ▸ mwf_filter _ (fun _ => 0) _ g)).mono (by decide)

theorem execInitDone_only (keys : KeyPair) (fail : Nat) (s : State) : ∀ t', execInitDone keys fail s = .next t' → Only 691753 s t' := by
  intro t' h
  unfold execInitDone at h
  injection h with h
  subst h
  have hp : ∀ (t : State) (x : Fld) (v : Nat), Only 691753 t (t.put x v) := fun t x v => (put_only t x v).mono (by decide)
  have hr : ∀ (t : State) (i : Nat), Only 691753 t (t.raise i) := fun t i => (raise_only t i).mono (by decide)
  split
  · refine (bootMem_only _).after (by decide) (Only.trans (Only.trans (Only.trans (Only.trans (Only.each _ _ ?_ Only.refl)
      (initWords_only _ _ rfl)) (Only.each _ _ (fun k t => hp t _ 0) Only.refl)) ((hp _ _ _).trans (hp _ _ _))) (hr _ _))
    intro k t
    split
    · exact Only.refl
    · split
      · exact (hp _ _ _).trans (hr _ _)
      · exact hp _ _ _
  · exact Only.refl

theorem rekeyMem_only (s : State) (keys : KeyPair) :
    Only 67585 s (State.rekeyMem s keys) := by
  unfold State.rekeyMem
  repeat' first
    | ((fail_if_no_progress extract_lets +onlyGivenNames x); refine Only.letElim (x := x) ?_ (fun _ => ?_); (on_goal 1 => unfold x); (on_goal 2 => clear_value x))
    | ((fail_if_no_progress extract_lets +onlyGivenNames x); (try unfold x); clear x)
    | (with_reducible first
        | exact Only.refl
        | assumption
        | refine (setHbm_only _ _ (by exact fun h => h)).after (by decide) ?_
        | refine (wake_only _ _).after (by decide) ?_
        | refine (put_only _ _ _).after (by decide) ?_
        | refine Only.each _ _ (fun _ _ => ?_) ?_
        | refine Only.ite ?_ ?_)

theorem execMemRekey_only (keys : KeyPair) (s : State) :
    ∀ t', execMemRekey keys s = .next t' → Only 67585 s t' := by
  intro t' h
  unfold execMemRekey at h
  injection h with h
  subst h
  repeat' first
    | (with_reducible first
        | exact Only.refl
        | refine (rekeyMem_only _ _).after (by decide) ?_)

theorem sweepPace_only (s : State) (k : ℕ) :
    Only 2048 s (State.sweepPace s k) := by
  unfold State.sweepPace
  repeat' first
    | ((fail_if_no_progress extract_lets +onlyGivenNames x); (try unfold x); clear x)
    | (with_reducible first
        | exact Only.refl
        | refine (setHbm_only _ _ (by exact fun h => h)).after (by decide) ?_)

theorem execSweepLine_only (k : ℕ) (up : List (ℕ × ℕ)) (s : State) :
    ∀ t', execSweepLine k up s = .next t' → Only 999353 s t' := by
  intro t' h
  unfold execSweepLine at h
  injection h with h
  subst h
  repeat' first
    | ((fail_if_no_progress extract_lets +onlyGivenNames x); refine Only.letElim (x := x) ?_ (fun _ => ?_); (on_goal 1 => unfold x); (on_goal 2 => clear_value x))
    | ((fail_if_no_progress extract_lets +onlyGivenNames x); refine Only.letElim (x := x.1) ?_ (fun _ => ?_); (on_goal 1 => unfold x); (on_goal 2 => clear_value x))
    | ((fail_if_no_progress extract_lets +onlyGivenNames x); clear_value x)
    | (with_reducible first
        | exact Only.refl
        | assumption
        | refine (tagRead_only _ _).after (by decide) ?_
        | refine (memUpset_only _ _ _).after (by decide) ?_
        | refine (sweepPace_only _ _).after (by decide) ?_
        | refine (lineReadK_only _ _ _ _).after (by decide) ?_
        | refine (lineStoreK_only _ _ _ _ _).after (by decide) ?_
        | refine (settle_only _).after (by decide) ?_
        | refine (rekeyCheck_only _).after (by decide) ?_
        | refine (put_only _ _ _).after (by decide) ?_
        | refine Only.ite ?_ ?_)
    | split

end Sys2Proof.Machine
end

