-- ==== Sys2Proof/Laws/OnlyHostOps.lean ====
section
/-! SUPPORT. Sys2Proof/Laws/OnlyHostOps.lean: what the operations of Machine/HostOps.lean leave alone (Laws/Only.lean): one lemma each. -/

set_option linter.unusedTactic false
set_option linter.tactic.unusedName false
set_option linter.unusedVariables false
set_option linter.unreachableTactic false

namespace Sys2Proof.Machine

theorem ringError_only (s : State) (r : ℕ) (cause : ℕ) :
    Only 132609 s (State.ringError s r cause) := by
  unfold State.ringError
  repeat' first
    | (with_reducible first
        | exact Only.refl
        | refine (raise_only _ _).after (by decide) ?_
        | refine (put_only _ _ _).after (by decide) ?_
        | refine Only.ite ?_ ?_)

theorem ringForget_only (s : State) (r : ℕ) :
    Only 131072 s (State.ringForget s r) := by
  unfold State.ringForget
  repeat' first
    | ((fail_if_no_progress extract_lets +onlyGivenNames x); clear_value x)
    | (with_reducible first
        | exact Only.refl
        | refine (setHost_only _ _).after (by decide) ?_)

theorem ringCfg_only (s : State) (r : ℕ) (v : Word) :
    Only 131073 s (State.ringCfg s r v) := by
  unfold State.ringCfg
  repeat' first
    | ((fail_if_no_progress extract_lets +onlyGivenNames x); refine Only.letElim (x := x) ?_ (fun _ => ?_); (on_goal 1 => unfold x); (on_goal 2 => clear_value x))
    | ((fail_if_no_progress extract_lets +onlyGivenNames x); clear_value x)
    | (with_reducible first
        | exact Only.refl
        | assumption
        | refine (put_only _ _ _).after (by decide) ?_
        | refine (setReg_only _ _ _).after (by decide) ?_
        | refine (ringForget_only _ _).after (by decide) ?_
        | refine Only.ite ?_ ?_)

theorem ringBell_only (s : State) (r : ℕ) (v : ℕ) :
    Only 132609 s (State.ringBell s r v) := by
  unfold State.ringBell
  repeat' first
    | (with_reducible first
        | exact Only.refl
        | refine (ringError_only _ _ _).after (by decide) ?_
        | refine (put_only _ _ _).after (by decide) ?_
        | refine Only.ite ?_ ?_)

theorem vecPend_only (s : State) (v : ℕ) :
    Only 131072 s (State.vecPend s v) := by
  unfold State.vecPend
  repeat' first
    | ((fail_if_no_progress extract_lets +onlyGivenNames x); clear_value x)
    | (with_reducible first
        | exact Only.refl
        | refine (setHost_only _ _).after (by decide) ?_)

theorem msixWrite_only (s : State) (o : ℕ) (v : ℕ) :
    Only 131072 s (State.msixWrite s o v) := by
  unfold State.msixWrite
  repeat' first
    | ((fail_if_no_progress extract_lets +onlyGivenNames x); clear_value x)
    | (with_reducible first
        | exact Only.refl
        | refine (setHost_only _ _).after (by decide) ?_)

theorem aer_only (s : State) (e : ℕ) :
    Only 131072 s (State.aer s e) := by
  unfold State.aer
  repeat' first
    | ((fail_if_no_progress extract_lets +onlyGivenNames x); clear_value x)
    | (with_reducible first
        | exact Only.refl
        | refine (setHost_only _ _).after (by decide) ?_)

theorem issueTodo_only (y0 : List Acc) (y1 : State) :
    Only 132096 y1 (issueTodo y0 y1) := by
  induction y0 generalizing y1 with
  | nil =>
    unfold issueTodo
    repeat' first
      | ((fail_if_no_progress extract_lets +onlyGivenNames x); clear_value x)
      | (with_reducible first
          | exact Only.refl
          | refine (setHost_only _ _).after (by decide) ?_)
  | cons a l ih =>
    unfold issueTodo
    repeat' first
      | ((fail_if_no_progress extract_lets +onlyGivenNames x); clear_value x)
      | (with_reducible first
          | exact Only.refl
          | refine (setHost_only _ _).after (by decide) ?_
          | refine (meshQueue_only _ _ _ (by assumption)).after (by decide) ?_
          | refine Only.trans ?_ (ih _))
      | split

theorem hostCpl_only (s : State) (code : ℕ) (data : ℕ) :
    Only 131072 s (State.hostCpl s code data) := by
  unfold State.hostCpl
  repeat' first
    | ((fail_if_no_progress extract_lets +onlyGivenNames x); clear_value x)
    | (with_reducible first
        | exact Only.refl
        | refine (setHost_only _ _).after (by decide) ?_)

theorem tlpEnd_only (s : State) (t : Tlp) :
    Only 136705 s (State.tlpEnd s t) := by
  unfold State.tlpEnd
  repeat' first
    | ((fail_if_no_progress extract_lets +onlyGivenNames x); refine Only.letElim (x := x) ?_ (fun _ => ?_); (on_goal 1 => unfold x); (on_goal 2 => clear_value x))
    | ((fail_if_no_progress extract_lets +onlyGivenNames x); clear_value x)
    | (with_reducible first
        | exact Only.refl
        | assumption
        | refine (setHost_only _ _).after (by decide) ?_
        | refine (hostCpl_only _ _ _).after (by decide) ?_
        | refine Only.each _ _ (fun _ _ => ?_) ?_
        | refine (leafEvent_only _ _ _ _).after (by decide) ?_
        | refine Only.ite ?_ ?_)

theorem setHdrLog_only (s : State) (t : Tlp) :
    Only 131072 s (State.setHdrLog s t) := by
  unfold State.setHdrLog
  repeat' first
    | ((fail_if_no_progress extract_lets +onlyGivenNames x); clear_value x)
    | (with_reducible first
        | exact Only.refl
        | refine (setHost_only _ _).after (by decide) ?_)

theorem tlpTake_only (s : State) (t : Tlp) (a : Acc) (r : Rsp) :
    Only 136705 s (State.tlpTake s t a r) := by
  unfold State.tlpTake
  repeat' first
    | ((fail_if_no_progress extract_lets +onlyGivenNames x); refine Only.letElim (x := x) ?_ (fun _ => ?_); (on_goal 1 => unfold x); (on_goal 2 => clear_value x))
    | ((fail_if_no_progress extract_lets +onlyGivenNames x); (fail_if_success (have := fun y => x y)); (fail_if_success (have : CRes := x)); (fail_if_success (have : Security := x)); (fail_if_success (have : Hbm := x)); (fail_if_success (have : Option State := x)); clear_value x)
    | ((fail_if_no_progress extract_lets +onlyGivenNames x); (try unfold x); clear x)
    | (with_reducible first
        | exact Only.refl
        | assumption
        | refine (setHdrLog_only _ _).after (by decide) ?_
        | refine Only.when _ _ (fun _ => ?_) ?_
        | refine (raise_only _ _).after (by decide) ?_
        | refine Only.log _ _ _ (fun _ => ?_) ?_
        | refine (put_only _ _ _).after (by decide) ?_
        | refine (aer_only _ _).after (by decide) ?_
        | refine (tlpEnd_only _ _).after (by decide) ?_
        | refine (setHost_only _ _).after (by decide) ?_
        | refine Only.ite ?_ ?_)

theorem hifBuf_only (s : State) (up : HifUp) (dwords : ℕ) :
    Only 136705 s (State.hifBuf s up dwords) := by
  unfold State.hifBuf
  repeat' first
    | ((fail_if_no_progress extract_lets +onlyGivenNames x); refine Only.letElim (x := x) ?_ (fun _ => ?_); (on_goal 1 => unfold x); (on_goal 2 => clear_value x))
    | (with_reducible first
        | exact Only.refl
        | assumption
        | refine Only.when _ _ (fun _ => ?_) ?_
        | refine (leafEvent_only _ _ _ _).after (by decide) ?_
        | refine (aer_only _ _).after (by decide) ?_
        | refine Only.each _ _ (fun _ _ => ?_) ?_
        | refine Only.ite ?_ ?_)

theorem tlpStart_only (s : State) (write : Bool) (bar2 : Bool) (off : ℕ) (bytes : ℕ) (be : ℕ) (data : ℕ) (ep : Bool) (ue : ℕ) :
    Only 136705 s (State.tlpStart s write bar2 off bytes be data ep ue) := by
  unfold State.tlpStart
  repeat' first
    | ((fail_if_no_progress extract_lets +onlyGivenNames x); refine Only.letElim (x := x) ?_ (fun _ => ?_); (on_goal 1 => unfold x); (on_goal 2 => clear_value x))
    | ((fail_if_no_progress extract_lets +onlyGivenNames x); clear_value x)
    | (with_reducible first
        | exact Only.refl
        | assumption
        | refine (setHost_only _ _).after (by decide) ?_
        | refine (tlpEnd_only _ _).after (by decide) ?_
        | refine (issueTodo_only _ _).after (by decide) ?_
        | refine Only.ite ?_ ?_)

theorem descFail_only (s : State) (r : ℕ) (index : ℕ) (cause : ℕ) :
    Only 132609 s (State.descFail s r index cause) := by
  unfold State.descFail
  repeat' first
    | ((fail_if_no_progress extract_lets +onlyGivenNames x); refine Only.letElim (x := x) ?_ (fun _ => ?_); (on_goal 1 => unfold x); (on_goal 2 => clear_value x))
    | ((fail_if_no_progress extract_lets +onlyGivenNames x); (fail_if_success (have := fun y => x y)); (fail_if_success (have : CRes := x)); (fail_if_success (have : Security := x)); (fail_if_success (have : Hbm := x)); (fail_if_success (have : Option State := x)); clear_value x)
    | ((fail_if_no_progress extract_lets +onlyGivenNames x); (try unfold x); clear x)
    | (with_reducible first
        | exact Only.refl
        | assumption
        | refine (hostSeen_only _ _ _).after (by decide) ?_
        | refine (ringError_only _ _ _).after (by decide) ?_
        | refine (setHost_only _ _).after (by decide) ?_)

theorem hostOp_only (s : State) :
    Only 131072 s (State.hostOp s) := by
  unfold State.hostOp
  repeat' first
    | ((fail_if_no_progress extract_lets +onlyGivenNames x); clear_value x)
    | (with_reducible first
        | exact Only.refl
        | refine (setHost_only _ _).after (by decide) ?_)

theorem hostWrite_only (s : State) (addr : ℕ) (bytes : ℕ) (data : ℕ) (ep : Bool) :
    Only 131072 s (State.hostWrite s addr bytes data ep) := by
  unfold State.hostWrite
  repeat' first
    | ((fail_if_no_progress extract_lets +onlyGivenNames x); clear_value x)
    | (with_reducible first
        | exact Only.refl
        | refine (setHost_only _ _).after (by decide) ?_
        | refine (hostOp_only _).after (by decide) ?_)

theorem onDesc_only (s : State) (id : ℕ) (g : Desc → Desc) :
    Only 131072 s (State.onDesc s id g) := by
  unfold State.onDesc
  repeat' first
    | ((fail_if_no_progress extract_lets +onlyGivenNames x); clear_value x)
    | (with_reducible first
        | exact Only.refl
        | refine (setHost_only _ _).after (by decide) ?_)

theorem descIssue_only (s : State) (d : Desc) :
    Only 132096 s (State.descIssue s d) := by
  unfold State.descIssue
  repeat' first
    | ((fail_if_no_progress extract_lets +onlyGivenNames x); refine Only.letElim (x := x) ?_ (fun _ => ?_); (on_goal 1 => unfold x); (on_goal 2 => clear_value x))
    | ((fail_if_no_progress extract_lets +onlyGivenNames x); clear_value x)
    | (with_reducible first
        | exact Only.refl
        | assumption
        | refine (onDesc_only _ _ _).after (by decide) ?_
        | refine (issueTodo_only _ _).after (by decide) ?_)

theorem descTake_only (s : State) (d : Desc) (a : Acc) (r : Rsp) :
    Only 132609 s (State.descTake s d a r) := by
  unfold State.descTake
  repeat' first
    | (with_reducible first
        | exact Only.refl
        | refine (descFail_only _ _ _ _).after (by decide) ?_
        | refine (onDesc_only _ _ _).after (by decide) ?_
        | refine Only.ite ?_ ?_)

theorem hostTake_only (s : State) (a : Acc) (r : Rsp) :
    Only 136705 s (State.hostTake s a r) := by
  unfold State.hostTake
  repeat' first
    | (with_reducible first
        | exact Only.refl
        | refine (tlpTake_only _ _ _ _).after (by decide) ?_
        | refine (descTake_only _ _ _ _).after (by decide) ?_)
    | split

theorem advanceHead_only (y0 : ℕ) (y1 : ℕ) (y2 : State) :
    Only 131073 y2 (advanceHead y0 y1 y2) := by
  induction y0 generalizing y1 y2 with
  | zero =>
    unfold advanceHead
    exact Only.refl
  | succ n ih =>
    unfold advanceHead
    repeat' first
      | ((fail_if_no_progress extract_lets +onlyGivenNames x); refine Only.letElim (x := x) ?_ (fun _ => ?_); (on_goal 1 => unfold x); (on_goal 2 => clear_value x))
      | ((fail_if_no_progress extract_lets +onlyGivenNames x); clear_value x)
      | (with_reducible first
          | exact Only.refl
          | assumption
          | refine (put_only _ _ _).after (by decide) ?_
          | refine (setHost_only _ _).after (by decide) ?_
          | refine (hostWrite_only _ _ _ _ _).after (by decide) ?_
          | refine (vecPend_only _ _).after (by decide) ?_
          | refine Only.ite ?_ ?_
          | refine Only.trans ?_ (ih _ _))
      | split

end Sys2Proof.Machine
end

