-- ==== Sys2Proof/Laws/OnlyPins.lean ====
section
/-! SUPPORT. Sys2Proof/Laws/OnlyPins.lean: what the operations of Machine/Pins.lean leave alone (Laws/Only.lean): one lemma each. -/

set_option linter.unusedTactic false
set_option linter.tactic.unusedName false
set_option linter.unusedVariables false
set_option linter.unreachableTactic false

namespace Sys2Proof.Machine

theorem ownerWrite_only (s : State) (off : ℕ) (v : Word) :
    Only 656897 s (State.ownerWrite s off v) := by
  unfold State.ownerWrite
  repeat' first
    | (with_reducible first
        | exact Only.refl
        | refine (pinSwitch_only _).after (by decide) ?_
        | refine (setReg_only _ _ _).after (by decide) ?_)

theorem execOwnerChange_only (wr : Option (ℕ × Word)) (s : State) :
    ∀ t', execOwnerChange wr s = .next t' → Only 656897 s t' := by
  intro t' h
  unfold execOwnerChange at h
  injection h with h
  subst h
  repeat' first
    | (with_reducible first
        | exact Only.refl
        | refine (pinHand_only _).after (by decide) ?_
        | refine (ownerWrite_only _ _ _).after (by decide) ?_
        | refine Only.ite ?_ ?_)
    | split

theorem execGpioSet_only (b : ℕ) (v : Word) (s : State) :
    ∀ t', execGpioSet b v s = .next t' → Only 656897 s t' := by
  intro t' h
  unfold execGpioSet at h
  injection h with h
  subst h
  repeat' first
    | (with_reducible first
        | exact Only.refl
        | refine (gpioSet_only _ _ _).after (by decide) ?_)

theorem execGpioClr_only (b : ℕ) (v : Word) (s : State) :
    ∀ t', execGpioClr b v s = .next t' → Only 656897 s t' := by
  intro t' h
  unfold execGpioClr at h
  injection h with h
  subst h
  repeat' first
    | (with_reducible first
        | exact Only.refl
        | refine (gpioClr_only _ _ _).after (by decide) ?_)

theorem execBankSupplyChange_only (b : ℕ) (range : ℕ) (s : State) :
    ∀ t', execBankSupplyChange b range s = .next t' → Only 656897 s t' := by
  intro t' h
  unfold execBankSupplyChange at h
  injection h with h
  subst h
  repeat' first
    | ((fail_if_no_progress extract_lets +onlyGivenNames x); refine Only.letElim (x := x) ?_ (fun _ => ?_); (on_goal 1 => unfold x); (on_goal 2 => clear_value x))
    | ((fail_if_no_progress extract_lets +onlyGivenNames x); (fail_if_success (have := fun y => x y)); (fail_if_success (have : CRes := x)); (fail_if_success (have : Security := x)); (fail_if_success (have : Hbm := x)); (fail_if_success (have : Option State := x)); clear_value x)
    | ((fail_if_no_progress extract_lets +onlyGivenNames x); (try unfold x); clear x)
    | (with_reducible first
        | exact Only.refl
        | assumption
        | refine (put_only _ _ _).after (by decide) ?_
        | refine Only.when _ _ (fun _ => ?_) ?_
        | refine (raise_only _ _).after (by decide) ?_
        | refine (pinFollow_only _ _).after (by decide) ?_
        | refine Only.ite ?_ ?_)
    | split

theorem execBallInputChange_only (ch : List (ℕ × Option Bool)) (s : State) :
    ∀ t', execBallInputChange ch s = .next t' → Only 656897 s t' := by
  intro t' h
  unfold execBallInputChange at h
  injection h with h
  subst h
  repeat' first
    | ((fail_if_no_progress extract_lets +onlyGivenNames x); refine Only.letElim (x := x) ?_ (fun _ => ?_); (on_goal 1 => unfold x); (on_goal 2 => clear_value x))
    | ((fail_if_no_progress extract_lets +onlyGivenNames x); clear_value x)
    | (with_reducible first
        | exact Only.refl
        | assumption
        | refine (setPin_only _ _).after (by decide) ?_
        | refine (pinFollow_only _ _).after (by decide) ?_)

theorem execUartTx_only (u : ℕ) (v : ℕ) (s : State) :
    ∀ t', execUartTx u v s = .next t' → Only 524289 s t' := by
  intro t' h
  unfold execUartTx at h
  injection h with h
  subst h
  repeat' first
    | (with_reducible first
        | exact Only.refl
        | refine toBlock_only _ _ (fun _ => ?_) ?_
        | refine (uartPush_only _ _ _).after (by decide) ?_
        | refine Only.ite ?_ ?_)

theorem execUartTransmitDone_only (u : ℕ) (n : ℕ) (s : State) :
    ∀ t', execUartTransmitDone u n s = .next t' → Only 656897 s t' := by
  intro t' h
  unfold execUartTransmitDone at h
  injection h with h
  subst h
  repeat' first
    | ((fail_if_no_progress extract_lets +onlyGivenNames x); refine Only.letElim (x := x) ?_ (fun _ => ?_); (on_goal 1 => unfold x); (on_goal 2 => clear_value x))
    | ((fail_if_no_progress extract_lets +onlyGivenNames x); clear_value x)
    | (with_reducible first
        | exact Only.refl
        | assumption
        | refine (setPin_only _ _).after (by decide) ?_
        | refine Only.when _ _ (fun _ => ?_) ?_
        | refine (put_only _ _ _).after (by decide) ?_
        | refine (raise_only _ _).after (by decide) ?_
        | refine Only.ite ?_ ?_)

theorem execUartReceive_only (u : ℕ) (v : ℕ) (err : Bool) (s : State) :
    ∀ t', execUartReceive u v err s = .next t' → Only 656897 s t' := by
  intro t' h
  unfold execUartReceive at h
  injection h with h
  subst h
  repeat' first
    | ((fail_if_no_progress extract_lets +onlyGivenNames x); refine Only.letElim (x := x) ?_ (fun _ => ?_); (on_goal 1 => unfold x); (on_goal 2 => clear_value x))
    | ((fail_if_no_progress extract_lets +onlyGivenNames x); clear_value x)
    | (with_reducible first
        | exact Only.refl
        | assumption
        | refine (put_only _ _ _).after (by decide) ?_
        | refine (setPin_only _ _).after (by decide) ?_
        | refine Only.when _ _ (fun _ => ?_) ?_
        | refine (raise_only _ _).after (by decide) ?_
        | refine Only.ite ?_ ?_)

theorem execUartData_only (u : ℕ) (s : State) :
    ∀ t', execUartData u s = .next t' → Only 524289 s t' := by
  intro t' h
  unfold execUartData at h
  injection h with h
  subst h
  repeat' first
    | (with_reducible first
        | exact Only.refl
        | refine toBlock_only _ _ (fun _ => ?_) ?_
        | refine (uartPop_only _ _).after (by decide) ?_
        | refine Only.ite ?_ ?_)

theorem i2cCommand_only (s : State) (c : ℕ) (op : ℕ) (v : ℕ) (fast : Bool) :
    Only 524289 s (State.i2cCommand s c op v fast) := by
  unfold State.i2cCommand
  repeat' first
    | (with_reducible first
        | exact Only.refl
        | refine toBlock_only _ _ (fun _ => ?_) ?_
        | refine (i2cWrite_only _ _ _).after (by decide) ?_
        | refine Only.ite ?_ ?_)

theorem execI2cStart_only (c : ℕ) (fast : Bool) (s : State) :
    ∀ t', execI2cStart c fast s = .next t' → Only 524289 s t' := by
  intro t' h
  unfold execI2cStart at h
  injection h with h
  subst h
  repeat' first
    | (with_reducible first
        | exact Only.refl
        | refine (i2cCommand_only _ _ _ _ _).after (by decide) ?_)

theorem execI2cWrite_only (c : ℕ) (v : ℕ) (fast : Bool) (s : State) :
    ∀ t', execI2cWrite c v fast s = .next t' → Only 524289 s t' := by
  intro t' h
  unfold execI2cWrite at h
  injection h with h
  subst h
  repeat' first
    | (with_reducible first
        | exact Only.refl
        | refine (i2cCommand_only _ _ _ _ _).after (by decide) ?_)

theorem execI2cReadAck_only (c : ℕ) (fast : Bool) (s : State) :
    ∀ t', execI2cReadAck c fast s = .next t' → Only 524289 s t' := by
  intro t' h
  unfold execI2cReadAck at h
  injection h with h
  subst h
  repeat' first
    | (with_reducible first
        | exact Only.refl
        | refine (i2cCommand_only _ _ _ _ _).after (by decide) ?_)

theorem execI2cReadNack_only (c : ℕ) (fast : Bool) (s : State) :
    ∀ t', execI2cReadNack c fast s = .next t' → Only 524289 s t' := by
  intro t' h
  unfold execI2cReadNack at h
  injection h with h
  subst h
  repeat' first
    | (with_reducible first
        | exact Only.refl
        | refine (i2cCommand_only _ _ _ _ _).after (by decide) ?_)

theorem execI2cStop_only (c : ℕ) (fast : Bool) (s : State) :
    ∀ t', execI2cStop c fast s = .next t' → Only 524289 s t' := by
  intro t' h
  unfold execI2cStop at h
  injection h with h
  subst h
  repeat' first
    | (with_reducible first
        | exact Only.refl
        | refine (i2cCommand_only _ _ _ _ _).after (by decide) ?_)

theorem execI2cCommandDone_only (c : ℕ) (data : ℕ) (ack : Bool) (arb : Bool) (s : State) :
    ∀ t', execI2cCommandDone c data ack arb s = .next t' → Only 656897 s t' := by
  intro t' h
  unfold execI2cCommandDone at h
  injection h with h
  subst h
  repeat' first
    | ((fail_if_no_progress extract_lets +onlyGivenNames x); refine Only.letElim (x := x) ?_ (fun _ => ?_); (on_goal 1 => unfold x); (on_goal 2 => clear_value x))
    | ((fail_if_no_progress extract_lets +onlyGivenNames x); clear_value x)
    | (with_reducible first
        | exact Only.refl
        | assumption
        | refine Only.when _ _ (fun _ => ?_) ?_
        | refine (put_only _ _ _).after (by decide) ?_
        | refine (setPin_only _ _).after (by decide) ?_
        | refine (raise_only _ _).after (by decide) ?_
        | refine Only.ite ?_ ?_)

theorem execI2cTimeout_only (c : ℕ) (s : State) :
    ∀ t', execI2cTimeout c s = .next t' → Only 656897 s t' := by
  intro t' h
  unfold execI2cTimeout at h
  injection h with h
  subst h
  repeat' first
    | ((fail_if_no_progress extract_lets +onlyGivenNames x); clear_value x)
    | (with_reducible first
        | exact Only.refl
        | refine (raise_only _ _).after (by decide) ?_
        | refine (put_only _ _ _).after (by decide) ?_
        | refine (setPin_only _ _).after (by decide) ?_
        | refine Only.ite ?_ ?_)

theorem execSpiTx_only (v : ℕ) (s : State) :
    ∀ t', execSpiTx v s = .next t' → Only 656897 s t' := by
  intro t' h
  unfold execSpiTx at h
  injection h with h
  subst h
  repeat' first
    | (with_reducible first
        | exact Only.refl
        | refine toBlock_only _ _ (fun _ => ?_) ?_
        | refine (spiPush_only _ _).after (by decide) ?_)

theorem execSpiFrameDone_only (v : ℕ) (s : State) :
    ∀ t', execSpiFrameDone v s = .next t' → Only 656897 s t' := by
  intro t' h
  unfold execSpiFrameDone at h
  injection h with h
  subst h
  repeat' first
    | ((fail_if_no_progress extract_lets +onlyGivenNames x); refine Only.letElim (x := x) ?_ (fun _ => ?_); (on_goal 1 => unfold x); (on_goal 2 => clear_value x))
    | ((fail_if_no_progress extract_lets +onlyGivenNames x); clear_value x)
    | (with_reducible first
        | exact Only.refl
        | assumption
        | refine (put_only _ _ _).after (by decide) ?_
        | refine (setPin_only _ _).after (by decide) ?_
        | refine Only.when _ _ (fun _ => ?_) ?_
        | refine (pinFollow_only _ _).after (by decide) ?_
        | refine (raise_only _ _).after (by decide) ?_
        | refine Only.ite ?_ ?_)
    | split

theorem execSpiData_only (s : State) :
    ∀ t', execSpiData s = .next t' → Only 524289 s t' := by
  intro t' h
  unfold execSpiData at h
  injection h with h
  subst h
  repeat' first
    | (with_reducible first
        | exact Only.refl
        | refine toBlock_only _ _ (fun _ => ?_) ?_
        | refine (spiPop_only _).after (by decide) ?_)

theorem execTrigPulse_only (k : ℕ) (s : State) :
    ∀ t', execTrigPulse k s = .next t' → Only 656897 s t' := by
  intro t' h
  unfold execTrigPulse at h
  injection h with h
  subst h
  repeat' first
    | ((fail_if_no_progress extract_lets +onlyGivenNames x); clear_value x)
    | (with_reducible first
        | exact Only.refl
        | refine (pinFollow_only _ _).after (by decide) ?_
        | refine (setPin_only _ _).after (by decide) ?_
        | refine Only.ite ?_ ?_)

theorem execTrigPulseEnd_only (k : ℕ) (s : State) :
    ∀ t', execTrigPulseEnd k s = .next t' → Only 656897 s t' := by
  intro t' h
  unfold execTrigPulseEnd at h
  injection h with h
  subst h
  repeat' first
    | ((fail_if_no_progress extract_lets +onlyGivenNames x); clear_value x)
    | (with_reducible first
        | exact Only.refl
        | refine (pinFollow_only _ _).after (by decide) ?_
        | refine (setPin_only _ _).after (by decide) ?_
        | refine Only.ite ?_ ?_)

theorem execTrigInputEdge_only (k : ℕ) (lvl : Bool) (s : State) :
    ∀ t', execTrigInputEdge k lvl s = .next t' → Only 656897 s t' := by
  intro t' h
  unfold execTrigInputEdge at h
  injection h with h
  subst h
  repeat' first
    | ((fail_if_no_progress extract_lets +onlyGivenNames x); clear_value x)
    | (with_reducible first
        | exact Only.refl
        | refine (pinFollow_only _ _).after (by decide) ?_
        | refine (setPin_only _ _).after (by decide) ?_
        | refine Only.ite ?_ ?_)

theorem gdlGone_only (s : State) :
    Only 919073 s (State.gdlGone s) := by
  unfold State.gdlGone
  repeat' first
    | ((fail_if_no_progress extract_lets +onlyGivenNames x); refine Only.letElim (x := x) ?_ (fun _ => ?_); (on_goal 1 => unfold x); (on_goal 2 => clear_value x))
    | (with_reducible first
        | exact Only.refl
        | assumption
        | refine (raise_only _ _).after (by decide) ?_
        | refine Only.each _ _ (fun _ _ => ?_) ?_
        | refine (put_only _ _ _).after (by decide) ?_
        | refine (setReg_only _ _ _).after (by decide) ?_
        | refine (cfgFail_only _ _ _ _).after (by decide) ?_
        | refine (xferEnd_only _ _).after (by decide) ?_
        | refine (raiseAlarm_only _ _).after (by decide) ?_
        | refine (gdlEnd_only _ _).after (by decide) ?_
        | refine Only.ite ?_ ?_)
    | split

theorem execGondolaPoll_only (ack : Bool) (rec : List ℕ) (s : State) :
    ∀ t', execGondolaPoll ack rec s = .next t' → Only 995257 s t' := by
  intro t' h
  unfold execGondolaPoll at h
  injection h with h
  subst h
  repeat' first
    | ((fail_if_no_progress extract_lets +onlyGivenNames x); refine Only.letElim (x := x) ?_ (fun _ => ?_); (on_goal 1 => unfold x); (on_goal 2 => clear_value x))
    | ((fail_if_no_progress extract_lets +onlyGivenNames x); clear_value x)
    | (with_reducible first
        | exact Only.refl
        | assumption
        | refine (setPin_only _ _).after (by decide) ?_
        | refine (raise_only _ _).after (by decide) ?_
        | refine (recRead_only _ _).after (by decide) ?_
        | refine (put_only _ _ _).after (by decide) ?_
        | refine (gdlGone_only _).after (by decide) ?_
        | refine (settle_only _).after (by decide) ?_
        | refine Only.ite ?_ ?_)

theorem execGondolaToHbm_only (len : ℕ) (s : State) :
    ∀ t', execGondolaToHbm len s = .next t' → Only 524289 s t' := by
  intro t' h
  unfold execGondolaToHbm at h
  injection h with h
  subst h
  repeat' first
    | (with_reducible first
        | exact Only.refl
        | refine (gdlGo_only _ _ _).after (by decide) ?_)

theorem execHbmToGondola_only (len : ℕ) (s : State) :
    ∀ t', execHbmToGondola len s = .next t' → Only 524289 s t' := by
  intro t' h
  unfold execHbmToGondola at h
  injection h with h
  subst h
  repeat' first
    | (with_reducible first
        | exact Only.refl
        | refine (gdlGo_only _ _ _).after (by decide) ?_)

theorem execGondolaAbort_only (s : State) :
    ∀ t', execGondolaAbort s = .next t' → Only 656897 s t' := by
  intro t' h
  unfold execGondolaAbort at h
  injection h with h
  subst h
  repeat' first
    | (with_reducible first
        | exact Only.refl
        | refine (gdlEnd_only _ _).after (by decide) ?_)

theorem gdlStore_only (y0 : List ℕ) (y1 : ℕ) (y2 : State) :
    Only 400897 y2 (gdlStore y0 y1 y2) := by
  induction y0 generalizing y1 y2 with
  | nil =>
    unfold gdlStore
    exact Only.refl
  | cons a l ih =>
    unfold gdlStore
    repeat' first
      | (with_reducible first
          | exact Only.refl
          | refine (hubWrite_only _ _ _ _ _ _).after (by decide) ?_
          | refine Only.ite ?_ ?_
          | refine Only.trans ?_ (ih _ _))

theorem gdlFetch_only (y0 : ℕ) (y1 : ℕ) (y2 : State) :
    Only 400897 y2 (gdlFetch y0 y1 y2).1 := by
  induction y0 generalizing y1 y2 with
  | zero =>
    unfold gdlFetch
    exact Only.refl
  | succ n ih =>
    unfold gdlFetch
    repeat' first
      | ((fail_if_no_progress extract_lets +onlyGivenNames x); refine Only.letElim (x := x.1) ?_ (fun _ => ?_); (on_goal 1 => unfold x); (on_goal 2 => clear_value x))
      | (with_reducible first
          | exact Only.refl
          | assumption
          | refine (hubRead_only _ _ _ _ _).after (by decide) ?_
          | refine Only.iteP ?_ ?_
          | refine Only.trans ?_ (ih _ _))

theorem execGondolaTransferEnd_only (cause : ℕ) (lines : List ℕ) (rec : List ℕ) (s : State) :
    ∀ t', execGondolaTransferEnd cause lines rec s = .next t' → Only 999353 s t' := by
  intro t' h
  unfold execGondolaTransferEnd at h
  injection h with h
  subst h
  repeat' first
    | ((fail_if_no_progress extract_lets +onlyGivenNames x); refine Only.letElim (x := x) ?_ (fun _ => ?_); (on_goal 1 => unfold x); (on_goal 2 => clear_value x))
    | ((fail_if_no_progress extract_lets +onlyGivenNames x); refine Only.letElim (x := x.1) ?_ (fun _ => ?_); (on_goal 1 => unfold x); (on_goal 2 => clear_value x))
    | ((fail_if_no_progress extract_lets +onlyGivenNames x); clear_value x)
    | (with_reducible first
        | exact Only.refl
        | assumption
        | refine (gdlEnd_only _ _).after (by decide) ?_
        | refine (gdlFetch_only _ _ _).after (by decide) ?_
        | refine (setPin_only _ _).after (by decide) ?_
        | refine (settle_only _).after (by decide) ?_
        | refine (recRead_only _ _).after (by decide) ?_
        | refine (gdlStore_only _ _ _).after (by decide) ?_
        | refine Only.ite ?_ ?_)
    | split

theorem tetWrite_only (s : State) (reg : ℕ) (v : ℕ) :
    Only 524289 s (State.tetWrite s reg v) := by
  unfold State.tetWrite
  repeat' first
    | ((fail_if_no_progress extract_lets +onlyGivenNames x); refine Only.letElim (x := x) ?_ (fun _ => ?_); (on_goal 1 => unfold x); (on_goal 2 => clear_value x))
    | ((fail_if_no_progress extract_lets +onlyGivenNames x); clear_value x)
    | (with_reducible first
        | exact Only.refl
        | assumption
        | refine (setReg_only _ _ _).after (by decide) ?_
        | refine (tetSend0_only _).after (by decide) ?_)
    | split

theorem execTetOutWrite_only (reg : ℕ) (v : ℕ) (s : State) :
    ∀ t', execTetOutWrite reg v s = .next t' → Only 590849 s t' := by
  intro t' h
  unfold execTetOutWrite at h
  injection h with h
  subst h
  repeat' first
    | ((fail_if_no_progress extract_lets +onlyGivenNames x); refine Only.letElim (x := x) ?_ (fun _ => ?_); (on_goal 1 => unfold x); (on_goal 2 => clear_value x))
    | (with_reducible first
        | exact Only.refl
        | assumption
        | refine (holdWrite_only _ _ _ _).after (by decide) ?_
        | refine (heldWake_only _).after (by decide) ?_
        | refine toBlock_only _ _ (fun _ => ?_) ?_
        | refine (tetWrite_only _ _ _).after (by decide) ?_
        | refine Only.ite ?_ ?_)

theorem execTetherRefresh_only (s : State) :
    ∀ t', execTetherRefresh s = .next t' → Only 524288 s t' := by
  intro t' h
  unfold execTetherRefresh at h
  injection h with h
  subst h
  repeat' first
    | (with_reducible first
        | exact Only.refl
        | refine (tetSend1_only _ _).after (by decide) ?_
        | refine (tetSend0_only _).after (by decide) ?_)

theorem execOutMsg_only (up : List (ℕ × ℕ)) (s : State) :
    ∀ t', execOutMsg up s = .next t' → Only 656897 s t' := by
  intro t' h
  unfold execOutMsg at h
  injection h with h
  subst h
  repeat' first
    | ((fail_if_no_progress extract_lets +onlyGivenNames x); refine Only.letElim (x := x) ?_ (fun _ => ?_); (on_goal 1 => unfold x); (on_goal 2 => clear_value x))
    | ((fail_if_no_progress extract_lets +onlyGivenNames x); clear_value x)
    | (with_reducible first
        | exact Only.refl
        | assumption
        | refine (setTet_only _ _).after (by decide) ?_
        | refine (tetBad_only _).after (by decide) ?_
        | refine (tetTold_only _).after (by decide) ?_
        | refine (tetSend0_only _).after (by decide) ?_
        | refine Only.ite ?_ ?_)
    | split

theorem tetEnd1_only (s : State) (m : TetMsg) (up : List (ℕ × ℕ)) :
    Only 656897 s (State.tetEnd1 s m up) := by
  unfold State.tetEnd1
  repeat' first
    | ((fail_if_no_progress extract_lets +onlyGivenNames x); refine Only.letElim (x := x) ?_ (fun _ => ?_); (on_goal 1 => unfold x); (on_goal 2 => clear_value x))
    | ((fail_if_no_progress extract_lets +onlyGivenNames x); clear_value x)
    | (with_reducible first
        | exact Only.refl
        | assumption
        | refine (setTet_only _ _).after (by decide) ?_
        | refine (tetBad_only _).after (by decide) ?_
        | refine (tetTold_only _).after (by decide) ?_
        | refine (tetNext1_only _).after (by decide) ?_)
    | split

theorem execCfgMsg_only (up : List (ℕ × ℕ)) (s : State) :
    ∀ t', execCfgMsg up s = .next t' → Only 656897 s t' := by
  intro t' h
  unfold execCfgMsg at h
  injection h with h
  subst h
  repeat' first
    | (with_reducible first
        | exact Only.refl
        | refine (tetEnd1_only _ _ _).after (by decide) ?_)
    | split

theorem execClkMsg_only (up : List (ℕ × ℕ)) (s : State) :
    ∀ t', execClkMsg up s = .next t' → Only 656897 s t' := by
  intro t' h
  unfold execClkMsg at h
  injection h with h
  subst h
  repeat' first
    | (with_reducible first
        | exact Only.refl
        | refine (tetEnd1_only _ _ _).after (by decide) ?_)
    | split

theorem execPulseMsg_only (up : List (ℕ × ℕ)) (s : State) :
    ∀ t', execPulseMsg up s = .next t' → Only 656897 s t' := by
  intro t' h
  unfold execPulseMsg at h
  injection h with h
  subst h
  repeat' first
    | (with_reducible first
        | exact Only.refl
        | refine (tetEnd1_only _ _ _).after (by decide) ?_)
    | split

theorem tetResume_only (s : State) :
    Only 1 s (State.tetResume s) := by
  unfold State.tetResume
  repeat' first
    | (with_reducible first
        | exact Only.refl
        | refine (put_only _ _ _).after (by decide) ?_
        | refine Only.ite ?_ ?_)

theorem execInMsg_only (v : ℕ) (up : List (ℕ × ℕ)) (s : State) :
    ∀ t', execInMsg v up s = .next t' → Only 524289 s t' := by
  intro t' h
  unfold execInMsg at h
  injection h with h
  subst h
  repeat' first
    | ((fail_if_no_progress extract_lets +onlyGivenNames x); refine Only.letElim (x := x) ?_ (fun _ => ?_); (on_goal 1 => unfold x); (on_goal 2 => clear_value x))
    | ((fail_if_no_progress extract_lets +onlyGivenNames x); clear_value x)
    | (with_reducible first
        | exact Only.refl
        | assumption
        | refine (setTet_only _ _).after (by decide) ?_
        | refine (tetResume_only _).after (by decide) ?_
        | refine (setReg_only _ _ _).after (by decide) ?_
        | refine (tetBad_only _).after (by decide) ?_
        | refine Only.ite ?_ ?_)
    | split

theorem tetStatus_only (s : State) (d : ℕ) :
    Only 657025 s (State.tetStatus s d) := by
  unfold State.tetStatus
  repeat' first
    | ((fail_if_no_progress extract_lets +onlyGivenNames x); refine Only.letElim (x := x) ?_ (fun _ => ?_); (on_goal 1 => unfold x); (on_goal 2 => clear_value x))
    | (with_reducible first
        | exact Only.refl
        | assumption
        | refine (put_only _ _ _).after (by decide) ?_
        | refine (tetUp_only _).after (by decide) ?_
        | refine (tetResume_only _).after (by decide) ?_
        | refine (tetLost_only _ _).after (by decide) ?_
        | refine Only.ite ?_ ?_)

theorem execStatusMsg_only (vt : ℕ) (up : List (ℕ × ℕ)) (s : State) :
    ∀ t', execStatusMsg vt up s = .next t' → Only 657025 s t' := by
  intro t' h
  unfold execStatusMsg at h
  injection h with h
  subst h
  repeat' first
    | ((fail_if_no_progress extract_lets +onlyGivenNames x); refine Only.letElim (x := x) ?_ (fun _ => ?_); (on_goal 1 => unfold x); (on_goal 2 => clear_value x))
    | ((fail_if_no_progress extract_lets +onlyGivenNames x); clear_value x)
    | (with_reducible first
        | exact Only.refl
        | assumption
        | refine (setTet_only _ _).after (by decide) ?_
        | refine (tetStatus_only _ _).after (by decide) ?_
        | refine (tetBad_only _).after (by decide) ?_
        | refine Only.ite ?_ ?_)
    | split

theorem execTetherLoss_only (s : State) :
    ∀ t', execTetherLoss s = .next t' → Only 657025 s t' := by
  intro t' h
  unfold execTetherLoss at h
  injection h with h
  subst h
  repeat' first
    | (with_reducible first
        | exact Only.refl
        | refine (tetLost_only _ _).after (by decide) ?_
        | refine Only.ite ?_ ?_)

theorem execTargetSilence_only (s : State) :
    ∀ t', execTargetSilence s = .next t' → Only 524288 s t' := by
  intro t' h
  unfold execTargetSilence at h
  injection h with h
  subst h
  repeat' first
    | ((fail_if_no_progress extract_lets +onlyGivenNames x); clear_value x)
    | (with_reducible first
        | exact Only.refl
        | refine (setTet_only _ _).after (by decide) ?_)

theorem execCkinWindow_only (k0 : ℕ) (k1 : ℕ) (s : State) :
    ∀ t', execCkinWindow k0 k1 s = .next t' → Only 524288 s t' := by
  intro t' h
  unfold execCkinWindow at h
  injection h with h
  subst h
  repeat' first
    | ((fail_if_no_progress extract_lets +onlyGivenNames x); clear_value x)
    | (with_reducible first
        | exact Only.refl
        | refine (setTet_only _ _).after (by decide) ?_)

end Sys2Proof.Machine
end

