-- ==== Sys2Proof/Laws/OnlyPower.lean ====
section
/-! SUPPORT. Sys2Proof/Laws/OnlyPower.lean: what the operations of Machine/Power.lean leave alone (Laws/Only.lean): one lemma each. -/

set_option linter.unusedTactic false
set_option linter.tactic.unusedName false
set_option linter.unusedVariables false
set_option linter.unreachableTactic false

namespace Sys2Proof.Machine

theorem execGateClose_only (i : ℕ) (s : State) :
    ∀ t', execGateClose i s = .next t' → Only 17 s t' := by
  intro t' h
  unfold execGateClose at h
  injection h with h
  subst h
  repeat' first
    | (with_reducible first
        | exact Only.refl
        | refine (gateClose_only _ _).after (by decide) ?_)

theorem execGateStop_only (i : ℕ) (s : State) :
    ∀ t', execGateStop i s = .next t' → Only 995257 s t' := by
  intro t' h
  unfold execGateStop at h
  injection h with h
  subst h
  repeat' first
    | (with_reducible first
        | exact Only.refl
        | refine (settle_only _).after (by decide) ?_
        | refine (latSettle_only _).after (by decide) ?_
        | refine (gateStopped_only _ _).after (by decide) ?_
        | refine Only.ite ?_ ?_)

theorem execGateTimeout_only (i : ℕ) (s : State) :
    ∀ t', execGateTimeout i s = .next t' → Only 995257 s t' := by
  intro t' h
  unfold execGateTimeout at h
  injection h with h
  subst h
  repeat' first
    | ((fail_if_no_progress extract_lets +onlyGivenNames x); refine Only.letElim (x := x) ?_ (fun _ => ?_); (on_goal 1 => unfold x); (on_goal 2 => clear_value x))
    | (with_reducible first
        | exact Only.refl
        | assumption
        | refine (raise_only _ _).after (by decide) ?_
        | refine Only.log _ _ _ (fun _ => ?_) ?_
        | refine (put_only _ _ _).after (by decide) ?_
        | refine (tgtAnswerAll_only _ _ _ _).after (by decide) ?_
        | refine (settle_only _).after (by decide) ?_
        | refine (latSettle_only _).after (by decide) ?_
        | refine (gateStopped_only _ _).after (by decide) ?_
        | refine Only.ite ?_ ?_)

theorem execGateOpen_only (i : ℕ) (s : State) :
    ∀ t', execGateOpen i s = .next t' → Only 657297 s t' := by
  intro t' h
  unfold execGateOpen at h
  injection h with h
  subst h
  repeat' first
    | (with_reducible first
        | exact Only.refl
        | refine (latSettle_only _).after (by decide) ?_
        | refine (gateOpen_only _ _).after (by decide) ?_)

theorem execBallastWindow_only (m : List ℕ) (temps : List ℤ) (s : State) :
    ∀ t', execBallastWindow m temps s = .next t' → Only 198145 s t' := by
  intro t' h
  unfold execBallastWindow at h
  injection h with h
  subst h
  repeat' first
    | (with_reducible first
        | exact Only.refl
        | refine (balWindow_only _ _ _).after (by decide) ?_
        | refine Only.ite ?_ ?_)

theorem execConsumerOver_only (m : List ℕ) (s : State) :
    ∀ t', execConsumerOver m s = .next t' → Only 198145 s t' := by
  intro t' h
  unfold execConsumerOver at h
  injection h with h
  subst h
  repeat' first
    | (with_reducible first
        | exact Only.refl
        | refine (meterRead_only _ _).after (by decide) ?_)

theorem execMemoryPortStop_only (m : List ℕ) (s : State) :
    ∀ t', execMemoryPortStop m s = .next t' → Only 198145 s t' := by
  intro t' h
  unfold execMemoryPortStop at h
  injection h with h
  subst h
  repeat' first
    | (with_reducible first
        | exact Only.refl
        | refine (meterRead_only _ _).after (by decide) ?_)

theorem execDroopTrip_only (die : ℕ) (s : State) :
    ∀ t', execDroopTrip die s = .next t' → Only 198145 s t' := by
  intro t' h
  unfold execDroopTrip at h
  injection h with h
  subst h
  repeat' first
    | ((fail_if_no_progress extract_lets +onlyGivenNames x); refine Only.letElim (x := x) ?_ (fun _ => ?_); (on_goal 1 => unfold x); (on_goal 2 => clear_value x))
    | ((fail_if_no_progress extract_lets +onlyGivenNames x); clear_value x)
    | (with_reducible first
        | exact Only.refl
        | assumption
        | refine (raise_only _ _).after (by decide) ?_
        | refine (put_only _ _ _).after (by decide) ?_
        | refine (satF_only _ _ _).after (by decide) ?_
        | refine Only.when _ _ (fun _ => ?_) ?_
        | refine (setBal_only _ _).after (by decide) ?_
        | refine (balSettle_only _).after (by decide) ?_
        | refine Only.ite ?_ ?_)

theorem execDroopRelease_only (s : State) :
    ∀ t', execDroopRelease s = .next t' → Only 65537 s t' := by
  intro t' h
  unfold execDroopRelease at h
  injection h with h
  subst h
  repeat' first
    | (with_reducible first
        | exact Only.refl
        | refine (balSettle_only _).after (by decide) ?_
        | refine (put_only _ _ _).after (by decide) ?_
        | refine Only.ite ?_ ?_)

theorem execPowerRequest_only (st : ℕ) (s : State) :
    ∀ t', execPowerRequest st s = .next t' → Only 198145 s t' := by
  intro t' h
  unfold execPowerRequest at h
  injection h with h
  subst h
  repeat' first
    | (with_reducible first
        | exact Only.refl
        | refine (powerRequest_only _ _).after (by decide) ?_)

theorem execPowerWake_only (soft : Bool) (s : State) :
    ∀ t', execPowerWake soft s = .next t' → Only 65537 s t' := by
  intro t' h
  unfold execPowerWake at h
  injection h with h
  subst h
  repeat' first
    | (with_reducible first
        | exact Only.refl
        | refine (wake_only _ _).after (by decide) ?_
        | refine (wakeCheck_only _).after (by decide) ?_
        | refine Only.ite ?_ ?_)

end Sys2Proof.Machine
end

