-- ==== Sys2Proof/Laws/OnlySecurityOps.lean ====
section
/-! SUPPORT. Sys2Proof/Laws/OnlySecurityOps.lean: what the operations of Machine/SecurityOps.lean leave alone (Laws/Only.lean): one lemma each. -/

set_option linter.unusedTactic false
set_option linter.tactic.unusedName false
set_option linter.unusedVariables false
set_option linter.unreachableTactic false

namespace Sys2Proof.Machine

theorem lockFail_only (s : State) (src : ℕ) (reg : ℕ) :
    Only 1 s (State.lockFail s src reg) := by
  unfold State.lockFail
  repeat' first
    | (with_reducible first
        | exact Only.refl
        | refine (put_only _ _ _).after (by decide) ?_
        | refine Only.ite ?_ ?_)

theorem setUnlock_only (s : State) (reg : ℕ) (u : Option Unlock) :
    Only 262144 s (State.setUnlock s reg u) := by
  unfold State.setUnlock
  repeat' first
    | ((fail_if_no_progress extract_lets +onlyGivenNames x); (try unfold x); clear x)
    | (with_reducible first
        | exact Only.refl
        | refine (setSec_only _ _ (by exact Fuses.Grows.refl _)).after (by decide) ?_)

theorem fuseRefuse_only (s : State) (cause : ℕ) :
    Only 132609 s (State.fuseRefuse s cause) := by
  unfold State.fuseRefuse
  repeat' first
    | (with_reducible first
        | exact Only.refl
        | refine (raise_only _ _).after (by decide) ?_
        | refine (put_only _ _ _).after (by decide) ?_)

theorem fuseCommand_only (s : State) (src : ℕ) (v : Word) :
    Only 394753 s (State.fuseCommand s src v).1 := by
  unfold State.fuseCommand
  repeat' first
    | ((fail_if_no_progress extract_lets +onlyGivenNames x); refine Only.letElim (x := x) ?_ (fun _ => ?_); (on_goal 1 => unfold x); (on_goal 2 => clear_value x))
    | ((fail_if_no_progress extract_lets +onlyGivenNames x); (try unfold x); clear x)
    | (with_reducible first
        | exact Only.refl
        | assumption
        | refine (setSec_only _ _ (by exact Fuses.Grows.refl _)).after (by decide) ?_
        | refine (fuseRefuse_only _ _).after (by decide) ?_
        | refine (put_only _ _ _).after (by decide) ?_
        | refine Only.iteP ?_ ?_)
    | split

theorem fuseShow_only (s : State) :
    Only 1 s (State.fuseShow s) := by
  unfold State.fuseShow
  repeat' first
    | ((fail_if_no_progress extract_lets +onlyGivenNames x); (fail_if_success (have := fun y => x y)); (fail_if_success (have : CRes := x)); (fail_if_success (have : Security := x)); (fail_if_success (have : Hbm := x)); (fail_if_success (have : Option State := x)); clear_value x)
    | ((fail_if_no_progress extract_lets +onlyGivenNames x); (try unfold x); clear x)
    | (with_reducible first
        | exact Only.refl
        | refine (put_only _ _ _).after (by decide) ?_)

theorem keyCommand_only (s : State) (src : ℕ) (v : Word) :
    Only 262144 s (State.keyCommand s src v).1 := by
  unfold State.keyCommand
  repeat' first
    | ((fail_if_no_progress extract_lets +onlyGivenNames x); (fail_if_success (have := fun y => x y)); (fail_if_success (have : CRes := x)); (fail_if_success (have : Security := x)); (fail_if_success (have : Hbm := x)); (fail_if_success (have : Option State := x)); clear_value x)
    | ((fail_if_no_progress extract_lets +onlyGivenNames x); (try unfold x); clear x)
    | (with_reducible first
        | exact Only.refl
        | refine (setSec_only _ _ (by exact Fuses.Grows.refl _)).after (by decide) ?_
        | refine Only.iteP ?_ ?_)

theorem alarmCfg_only (s : State) (v : Word) :
    Only 262145 s (State.alarmCfg s v) := by
  unfold State.alarmCfg
  repeat' first
    | ((fail_if_no_progress extract_lets +onlyGivenNames x); refine Only.letElim (x := x) ?_ (fun _ => ?_); (on_goal 1 => unfold x); (on_goal 2 => clear_value x))
    | ((fail_if_no_progress extract_lets +onlyGivenNames x); (try unfold x); clear x)
    | (with_reducible first
        | exact Only.refl
        | assumption
        | refine (put_only _ _ _).after (by decide) ?_
        | refine (setSec_only _ _ (by exact Fuses.Grows.refl _)).after (by decide) ?_
        | refine Only.ite ?_ ?_)

theorem alarmWrite_only (s : State) (src : ℕ) (v : Word) :
    Only 394753 s (State.alarmWrite s src v).1 := by
  unfold State.alarmWrite
  repeat' first
    | ((fail_if_no_progress extract_lets +onlyGivenNames x); refine Only.letElim (x := x) ?_ (fun _ => ?_); (on_goal 1 => unfold x); (on_goal 2 => clear_value x))
    | (with_reducible first
        | exact Only.refl
        | assumption
        | refine (setReg_only _ _ _).after (by decide) ?_
        | refine (raiseAlarm_only _ _).after (by decide) ?_
        | refine Only.ite ?_ ?_
        | refine Only.iteP ?_ ?_)

theorem protWrite_only (s : State) (src : ℕ) (reg : ℕ) (v : Word) (late : Bool) :
    Only 394753 s (State.protWrite s src reg v late).1 := by
  unfold State.protWrite
  repeat' first
    | ((fail_if_no_progress extract_lets +onlyGivenNames x); refine Only.letElim (x := x) ?_ (fun _ => ?_); (on_goal 1 => unfold x); (on_goal 2 => clear_value x))
    | ((fail_if_no_progress extract_lets +onlyGivenNames x); refine Only.letElim (x := x.1) ?_ (fun _ => ?_); (on_goal 1 => unfold x); (on_goal 2 => clear_value x))
    | (with_reducible first
        | exact Only.refl
        | assumption
        | refine (lockFail_only _ _ _).after (by decide) ?_
        | refine (setUnlock_only _ _ _).after (by decide) ?_
        | refine (fuseCommand_only _ _ _).after (by decide) ?_
        | refine (keyCommand_only _ _ _).after (by decide) ?_
        | refine (alarmCfg_only _ _).after (by decide) ?_
        | refine Only.iteP ?_ ?_)
    | split

theorem authCapture_only (s : State) :
    Only 294912 s (State.authCapture s) := by
  unfold State.authCapture
  repeat' first
    | ((fail_if_no_progress extract_lets +onlyGivenNames x); (fail_if_success (have := fun y => x y)); (fail_if_success (have : CRes := x)); (fail_if_success (have : Security := x)); (fail_if_success (have : Hbm := x)); (fail_if_success (have : Option State := x)); clear_value x)
    | ((fail_if_no_progress extract_lets +onlyGivenNames x); (try unfold x); clear x)
    | (with_reducible first
        | exact Only.refl
        | refine (setScan_only _ _).after (by decide) ?_
        | refine (setSec_only _ _ (by exact Fuses.Grows.refl _)).after (by decide) ?_
        | refine (freeNext_only _).after (by decide) ?_
        | refine Only.ite ?_ ?_)
    | split

theorem protCmd_only (s : State) (src : ℕ) (reg : ℕ) (v : Word) (late : Bool) :
    Only 995257 s (State.protCmd s src reg v late) := by
  unfold State.protCmd
  repeat' first
    | (with_reducible first
        | exact Only.refl
        | refine (settle_only _).after (by decide) ?_
        | refine (protWrite_only _ _ _ _ _).after (by decide) ?_
        | refine Only.ite ?_ ?_)

end Sys2Proof.Machine
end

