-- ==== Sys2Proof/Laws/OnlyRunControl.lean ====
section
/-! SUPPORT. Sys2Proof/Laws/OnlyRunControl.lean: what the operations of Machine/RunControl.lean leave alone (Laws/Only.lean): one lemma each. -/

set_option linter.unusedTactic false
set_option linter.tactic.unusedName false
set_option linter.unusedVariables false
set_option linter.unreachableTactic false

namespace Sys2Proof.Machine

theorem dbgOp_only {m : Nat} (s : State) (src c : Nat) (g : State → State) (hg : ∀ t, Only m t (g t)) (hm : 132609 &&& m = 132609) :
    Only m s (s.dbgOp src c g) := by
  unfold State.dbgOp
  split
  · exact Only.refl
  · split
    · exact ((dbgRefuse_only _ _).mono (by decide : _ &&& 132609 = _)).mono hm
    · split
      · exact ((dbgRefuse_only _ _).mono (by decide : _ &&& 132609 = _)).mono hm
      · exact hg _

theorem haltReq_only (s : State) (c : ℕ) (why : ℕ) (unit : ℕ) :
    Only 403073 s (State.haltReq s c why unit) := by
  unfold State.haltReq
  repeat' first
    | ((fail_if_no_progress extract_lets +onlyGivenNames x); refine Only.letElim (x := x) ?_ (fun _ => ?_); (on_goal 1 => unfold x); (on_goal 2 => clear_value x))
    | (with_reducible first
        | exact Only.refl
        | assumption
        | refine (haltCause_only _ _ _ _).after (by decide) ?_
        | refine (haltSpread_only _ _ _).after (by decide) ?_
        | refine Only.ite ?_ ?_)

theorem feedFn_only (k : Nat) (f : Nat → Word → State → CRes) (h : feedFn k = some f) (c : Nat) (w : Word) (s : State) :
    CRes.Only 407177 s (f c w s) := by
  unfold feedFn at h
  repeat' split at h
  all_goals first
    | contradiction
    | (injection h with h; subst h
       first
         | exact (insnMac_only _ _ _ _ _ _).after (by decide) Only.refl
         | exact (insnAlu_only _ _ _ _).after (by decide) Only.refl
         | exact (insnAddp_only _ _ _).after (by decide) Only.refl
         | exact (insnAsh_only _ _ _).after (by decide) Only.refl
         | exact (insnAsat_only _ _ _).after (by decide) Only.refl
         | exact (insnArnd_only _ _ _).after (by decide) Only.refl
         | exact (insnAadd_only _ _ _).after (by decide) Only.refl
         | exact (insnLoad_only _ _ _ _).after (by decide) Only.refl
         | exact (insnStore_only _ _ _ _).after (by decide) Only.refl
         | exact (insnLineLoad_only _ _ _ _).after (by decide) Only.refl
         | exact (insnLineStore_only _ _ _ _).after (by decide) Only.refl
         | exact (insnNop_only _ _ _).after (by decide) Only.refl
         | exact (insnMovx_only _ _ _).after (by decide) Only.refl
         | exact (insnLdi_only _ _ _).after (by decide) Only.refl
         | exact (insnLdih_only _ _ _).after (by decide) Only.refl)

theorem feed_only (s : State) (c : Nat) (w : Word) : ∀ t, s.feed c w = some t → Only 407177 s t := by
  intro t h
  unfold State.feed at h
  split at h
  · injection h with h; subst h; exact Only.refl
  · split at h
    · contradiction
    · split at h
      · injection h with h; subst h; exact (feedRefuse_only _ _ _).mono (by decide)
      · rename_i f hf
        obtain ⟨k, -, hk⟩ := Option.bind_eq_some_iff.1 hf
        have hr := feedFn_only k f hk c w s
        split at h
        · contradiction
        · injection h with h; subst h; exact retire_only _ _ _ _ _ hr (by decide)

theorem coreRegWrite_only (s : State) (c : ℕ) (pc : Bool) (v : Word) :
    Only 8193 s (State.coreRegWrite s c pc v).1 := by
  unfold State.coreRegWrite
  repeat' first
    | ((fail_if_no_progress extract_lets +onlyGivenNames x); clear_value x)
    | (with_reducible first
        | exact Only.refl
        | refine (setPc_only _ _ _).after (by decide) ?_
        | refine (regWrite_only _ _ _ _ _).after (by decide) ?_
        | refine Only.ite ?_ ?_
        | refine Only.iteP ?_ ?_)

theorem dbgRead_only (s : State) (src : ℕ) (off : ℕ) :
    Only 132609 s (State.dbgRead s src off).1 := by
  unfold State.dbgRead
  repeat' first
    | (with_reducible first
        | exact Only.refl
        | refine (dbgRefuse_only _ _).after (by decide) ?_
        | refine Only.iteP ?_ ?_)
    | split

theorem dbgCtrl_only (s : State) (src : ℕ) (v : Word) :
    Only 667537 s (State.dbgCtrl s src v) := by
  unfold State.dbgCtrl
  repeat' first
    | ((fail_if_no_progress extract_lets +onlyGivenNames x); refine Only.letElim (x := x) ?_ (fun _ => ?_); (on_goal 1 => unfold x); (on_goal 2 => clear_value x))
    | (with_reducible first
        | exact Only.refl
        | assumption
        | refine (put_only _ _ _).after (by decide) ?_
        | refine (attach_only _).after (by decide) ?_
        | refine (detach_only _).after (by decide) ?_
        | refine Only.ite ?_ ?_)

theorem dbgCoreCtrl_only (s : State) (src : ℕ) (c : ℕ) (v : Word) :
    Only 403073 s (State.dbgCoreCtrl s src c v) := by
  unfold State.dbgCoreCtrl
  repeat' first
    | ((fail_if_no_progress extract_lets +onlyGivenNames x); refine Only.letElim (x := x) ?_ (fun _ => ?_); (on_goal 1 => unfold x); (on_goal 2 => clear_value x))
    | (with_reducible first
        | exact Only.refl
        | assumption
        | refine (setReg_only _ _ _).after (by decide) ?_
        | refine Only.trans ?_ (dbgOp_only _ _ _ _ (fun _ => ?_) (by decide))
        | refine (coreResume_only _ _ _).after (by decide) ?_
        | refine (haltReq_only _ _ _ _).after (by decide) ?_
        | refine Only.ite ?_ ?_)

theorem dbgWrite_only (s : State) (src : ℕ) (off : ℕ) (v : Word) :
    Only 933785 s (State.dbgWrite s src off v).1 := by
  unfold State.dbgWrite
  repeat' first
    | ((fail_if_no_progress extract_lets +onlyGivenNames x); refine Only.letElim (x := x.1) ?_ (fun _ => ?_); (on_goal 1 => unfold x); (on_goal 2 => clear_value x))
    | ((fail_if_no_progress extract_lets +onlyGivenNames x); (try unfold x); clear x)
    | (with_reducible first
        | exact Only.refl
        | assumption
        | refine (dbgCtrl_only _ _ _).after (by decide) ?_
        | refine (setReg_only _ _ _).after (by decide) ?_
        | refine (dbgCoreCtrl_only _ _ _ _).after (by decide) ?_
        | refine (dbgRefuse_only _ _).after (by decide) ?_
        | refine (coreRegWrite_only _ _ _ _).after (by decide) ?_
        | refine (feed_only _ _ _ _ (by assumption)).after (by decide) ?_
        | refine Only.iteP ?_ ?_)
    | split

theorem execDbgAttach_only (src : ℕ) (s : State) :
    ∀ t', execDbgAttach src s = .next t' → Only 995257 s t' := by
  intro t' h
  unfold execDbgAttach at h
  injection h with h
  subst h
  repeat' first
    | (with_reducible first
        | exact Only.refl
        | refine (settle_only _).after (by decide) ?_
        | refine (attach_only _).after (by decide) ?_
        | refine Only.ite ?_ ?_)

theorem execDbgDetach_only (src : ℕ) (s : State) :
    ∀ t', execDbgDetach src s = .next t' → Only 995257 s t' := by
  intro t' h
  unfold execDbgDetach at h
  injection h with h
  subst h
  repeat' first
    | (with_reducible first
        | exact Only.refl
        | refine (settle_only _).after (by decide) ?_
        | refine (detach_only _).after (by decide) ?_
        | refine Only.ite ?_ ?_)

theorem execDbgHalt_only (src : ℕ) (c : ℕ) (s : State) :
    ∀ t', execDbgHalt src c s = .next t' → Only 403073 s t' := by
  intro t' h
  unfold execDbgHalt at h
  injection h with h
  subst h
  repeat' first
    | (with_reducible first
        | exact Only.refl
        | refine dbgOp_only _ _ _ _ (fun _ => ?_) (by decide)
        | refine (haltReq_only _ _ _ _).after (by decide) ?_)

theorem execHaltEntry_only (c : ℕ) (s : State) :
    ∀ t', execHaltEntry c s = .next t' → Only 403073 s t' := by
  intro t' h
  unfold execHaltEntry at h
  injection h with h
  subst h
  repeat' first
    | (with_reducible first
        | exact Only.refl
        | refine (haltSpread_only _ _ _).after (by decide) ?_
        | refine (haltNow_only _ _ _ _).after (by decide) ?_
        | refine Only.ite ?_ ?_)
    | split

theorem execBreakpoint_only (c : ℕ) (s : State) :
    ∀ t', execBreakpoint c s = .next t' → Only 402945 s t' := by
  intro t' h
  unfold execBreakpoint at h
  injection h with h
  subst h
  repeat' first
    | (with_reducible first
        | exact Only.refl
        | refine (haltCause_only _ _ _ _).after (by decide) ?_
        | refine Only.ite ?_ ?_)
    | split

theorem execDbgResume_only (src : ℕ) (c : ℕ) (s : State) :
    ∀ t', execDbgResume src c s = .next t' → Only 140801 s t' := by
  intro t' h
  unfold execDbgResume at h
  injection h with h
  subst h
  repeat' first
    | (with_reducible first
        | exact Only.refl
        | refine dbgOp_only _ _ _ _ (fun _ => ?_) (by decide)
        | refine (coreResume_only _ _ _).after (by decide) ?_)

theorem execDbgStep_only (src : ℕ) (c : ℕ) (s : State) :
    ∀ t', execDbgStep src c s = .next t' → Only 140801 s t' := by
  intro t' h
  unfold execDbgStep at h
  injection h with h
  subst h
  repeat' first
    | (with_reducible first
        | exact Only.refl
        | refine dbgOp_only _ _ _ _ (fun _ => ?_) (by decide)
        | refine (coreResume_only _ _ _).after (by decide) ?_)

theorem execDbgFeed_only (src : ℕ) (c : ℕ) (w : Word) (s : State) :
    ∀ t', execDbgFeed src c w s = .next t' → Only 407177 s t' := by
  intro t' h
  unfold execDbgFeed at h
  injection h with h
  subst h
  repeat' first
    | (with_reducible first
        | exact Only.refl
        | refine dbgOp_only _ _ _ _ (fun _ => ?_) (by decide)
        | refine Only.getD ?_ (fun _ h => (feed_only _ _ _ _ h).mono (by decide)))

theorem execCoreRegisterAccess_only (src : ℕ) (c : ℕ) (pc : Bool) (wr : Option Word) (s : State) :
    ∀ t', execCoreRegisterAccess src c pc wr s = .next t' → Only 140801 s t' := by
  intro t' h
  unfold execCoreRegisterAccess at h
  injection h with h
  subst h
  repeat' first
    | (with_reducible first
        | exact Only.refl
        | refine dbgOp_only _ _ _ _ (fun _ => ?_) (by decide)
        | refine (coreRegWrite_only _ _ _ _).after (by decide) ?_)
    | split

end Sys2Proof.Machine
end

