-- ==== Sys2Proof/Laws/OnlyTail.lean ====
section
/-! SUPPORT. Sys2Proof/Laws/OnlyTail.lean: what the operations of Machine/Tail.lean leave alone (Laws/Only.lean): one lemma each. -/

set_option linter.unusedTactic false
set_option linter.tactic.unusedName false
set_option linter.unusedVariables false
set_option linter.unreachableTactic false

namespace Sys2Proof.Machine

theorem execTailCaptureGo_only (mode : ℕ) (s : State) :
    ∀ t', execTailCaptureGo mode s = .next t' → Only 999353 s t' := by
  intro t' h
  unfold execTailCaptureGo at h
  injection h with h
  subst h
  repeat' first
    | (with_reducible first
        | exact Only.refl
        | refine (settle_only _).after (by decide) ?_
        | refine (captureGo_only _ _).after (by decide) ?_
        | refine (put_only _ _ _).after (by decide) ?_
        | refine Only.ite ?_ ?_)

theorem reelLoad_only (s : State) (r : Reel) : Only 400905 s (s.reelLoad r) := by
  have h := fun t => ((pace_only s 32 s.drainDiv).mono (by decide : _ &&& 400905 = _)).trans
    ((reelLines_only (List.range 16) (s.slotBase r.slot) t (s.pace 32 s.drainDiv)).mono (by decide))
  have ht := fun t x => (setTail_only t x).mono (by decide : _ &&& 400905 = _)
  have hc := fun t c => (reelRefuse_only t c).mono (by decide : _ &&& 400905 = _)
  unfold State.reelLoad
  exact Only.ite ((h _).trans (ht _ _)) ((h _).trans (hc _ _))

theorem execDrainStep_only (up : List (ℕ × ℕ)) (s : State) :
    ∀ t', execDrainStep up s = .next t' → Only 999353 s t' := by
  intro t' h
  unfold execDrainStep at h
  injection h with h
  subst h
  repeat' first
    | ((fail_if_no_progress extract_lets +onlyGivenNames x); refine Only.letElim (x := x) ?_ (fun _ => ?_); (on_goal 1 => unfold x); (on_goal 2 => clear_value x))
    | ((fail_if_no_progress extract_lets +onlyGivenNames x); clear_value x)
    | (with_reducible first
        | exact Only.refl
        | assumption
        | refine (settle_only _).after (by decide) ?_
        | refine Only.each _ _ (fun _ _ => ?_) ?_
        | refine (pace_only _ _ _).after (by decide) ?_
        | refine (capBuf_only _ _ _ _ _).after (by decide) ?_
        | refine (setTail_only _ _).after (by decide) ?_
        | refine (reelLoad_only _ _).after (by decide) ?_
        | refine Only.ite ?_ ?_)
    | split

theorem execWalkRow_only (n : ℕ) (up : List (ℕ × ℕ)) (s : State) :
    ∀ t', execWalkRow n up s = .next t' → Only 999353 s t' := by
  intro t' h
  unfold execWalkRow at h
  injection h with h
  subst h
  repeat' first
    | ((fail_if_no_progress extract_lets +onlyGivenNames x); refine Only.letElim (x := x) ?_ (fun _ => ?_); (on_goal 1 => unfold x); (on_goal 2 => clear_value x))
    | ((fail_if_no_progress extract_lets +onlyGivenNames x); clear_value x)
    | (with_reducible first
        | exact Only.refl
        | assumption
        | refine (settle_only _).after (by decide) ?_
        | refine (capRow_only _ _ _ _ _).after (by decide) ?_
        | refine (pace_only _ _ _).after (by decide) ?_
        | refine (setFab_only _ _).after (by decide) ?_
        | refine Only.ite ?_ ?_)
    | split

theorem execCopyoutDrain_only (i : ℕ) (up : List (ℕ × ℕ)) (s : State) :
    ∀ t', execCopyoutDrain i up s = .next t' → Only 999353 s t' := by
  intro t' h
  unfold execCopyoutDrain at h
  injection h with h
  subst h
  repeat' first
    | ((fail_if_no_progress extract_lets +onlyGivenNames x); refine Only.letElim (x := x) ?_ (fun _ => ?_); (on_goal 1 => unfold x); (on_goal 2 => clear_value x))
    | ((fail_if_no_progress extract_lets +onlyGivenNames x); clear_value x)
    | (with_reducible first
        | exact Only.refl
        | assumption
        | refine (settle_only _).after (by decide) ?_
        | refine (capRow_only _ _ _ _ _).after (by decide) ?_
        | refine (pace_only _ _ _).after (by decide) ?_
        | refine (setFab_only _ _).after (by decide) ?_
        | refine Only.ite ?_ ?_)
    | split

theorem execCaptureComplete_only (s : State) :
    ∀ t', execCaptureComplete s = .next t' → Only 995257 s t' := by
  intro t' h
  unfold execCaptureComplete at h
  injection h with h
  subst h
  repeat' first
    | ((fail_if_no_progress extract_lets +onlyGivenNames x); refine Only.letElim (x := x) ?_ (fun _ => ?_); (on_goal 1 => unfold x); (on_goal 2 => clear_value x))
    | ((fail_if_no_progress extract_lets +onlyGivenNames x); clear_value x)
    | (with_reducible first
        | exact Only.refl
        | assumption
        | refine (settle_only _).after (by decide) ?_
        | refine (pace_only _ _ _).after (by decide) ?_
        | refine (put_only _ _ _).after (by decide) ?_
        | refine (setTail_only _ _).after (by decide) ?_
        | refine (setFab_only _ _).after (by decide) ?_
        | refine (raise_only _ _).after (by decide) ?_
        | refine Only.ite ?_ ?_)
    | split

theorem execMapRebuild_only (k : ℕ) (s : State) :
    ∀ t', execMapRebuild k s = .next t' → Only 513 s t' := by
  intro t' h
  unfold execMapRebuild at h
  injection h with h
  subst h
  repeat' first
    | ((fail_if_no_progress extract_lets +onlyGivenNames x); clear_value x)
    | (with_reducible first
        | exact Only.refl
        | refine (mapBuild_only _).after (by decide) ?_
        | refine (setTail_only _ _).after (by decide) ?_
        | refine Only.ite ?_ ?_)

theorem execLiveMapRebuildDone_only (k : ℕ) (s : State) :
    ∀ t', execLiveMapRebuildDone k s = .next t' → Only 513 s t' := by
  intro t' h
  unfold execLiveMapRebuildDone at h
  injection h with h
  subst h
  repeat' first
    | ((fail_if_no_progress extract_lets +onlyGivenNames x); clear_value x)
    | (with_reducible first
        | exact Only.refl
        | refine (mapBuild_only _).after (by decide) ?_
        | refine (setTail_only _ _).after (by decide) ?_
        | refine Only.ite ?_ ?_)

theorem execTailDiscard_only (i : ℕ) (s : State) :
    ∀ t', execTailDiscard i s = .next t' → Only 1 s t' := by
  intro t' h
  unfold execTailDiscard at h
  injection h with h
  subst h
  repeat' first
    | (with_reducible first
        | exact Only.refl
        | refine toBlock_only _ _ (fun _ => ?_) ?_
        | refine (slotFree_only _ _).after (by decide) ?_
        | refine Only.ite ?_ ?_)

theorem execProbeHit_only (u : ℕ) (s : State) :
    ∀ t', execProbeHit u s = .next t' → Only 657281 s t' := by
  intro t' h
  unfold execProbeHit at h
  injection h with h
  subst h
  repeat' first
    | (with_reducible first
        | exact Only.refl
        | refine (trigSample_only _ _).after (by decide) ?_
        | refine Only.ite ?_ ?_)

theorem execTriggerFire_only (u : ℕ) (s : State) :
    ∀ t', execTriggerFire u s = .next t' → Only 657281 s t' := by
  intro t' h
  unfold execTriggerFire at h
  injection h with h
  subst h
  repeat' first
    | (with_reducible first
        | exact Only.refl
        | refine (trigSample_only _ _).after (by decide) ?_
        | refine Only.ite ?_ ?_)

theorem execTriggerRearm_only (u : ℕ) (s : State) :
    ∀ t', execTriggerRearm u s = .next t' → Only 512 s t' := by
  intro t' h
  unfold execTriggerRearm at h
  injection h with h
  subst h
  repeat' first
    | ((fail_if_no_progress extract_lets +onlyGivenNames x); clear_value x)
    | (with_reducible first
        | exact Only.refl
        | refine toBlock_only _ _ (fun _ => ?_) ?_
        | refine (setTail_only _ _).after (by decide) ?_
        | refine Only.ite ?_ ?_)

theorem execRingRecord_only (k : ℕ) (up : List (ℕ × ℕ)) (s : State) :
    ∀ t', execRingRecord k up s = .next t' → Only 995257 s t' := by
  intro t' h
  unfold execRingRecord at h
  injection h with h
  subst h
  repeat' first
    | ((fail_if_no_progress extract_lets +onlyGivenNames x); clear_value x)
    | (with_reducible first
        | exact Only.refl
        | refine (settle_only _).after (by decide) ?_
        | refine (ringPut_only _ _ _ _ _ _).after (by decide) ?_
        | refine (setTail_only _ _).after (by decide) ?_
        | refine Only.ite ?_ ?_)

theorem execReelinGo_only (slot : ℕ) (s : State) :
    ∀ t', execReelinGo slot s = .next t' → Only 999353 s t' := by
  intro t' h
  unfold execReelinGo at h
  injection h with h
  subst h
  repeat' first
    | (with_reducible first
        | exact Only.refl
        | refine (settle_only _).after (by decide) ?_
        | refine toBlock_only _ _ (fun _ => ?_) ?_
        | refine (reelGo_only _ _).after (by decide) ?_
        | refine (put_only _ _ _).after (by decide) ?_)

theorem reelReady_only (s : State) (r : Reel) :
    Only 512 s (State.reelReady s r) := by
  unfold State.reelReady
  repeat' first
    | ((fail_if_no_progress extract_lets +onlyGivenNames x); clear_value x)
    | (with_reducible first
        | exact Only.refl
        | refine (setTail_only _ _).after (by decide) ?_)

theorem reelVerify_only (s : State) (r : Reel) : Only 400897 s (s.reelVerify r) := by
  have h := (reelHeader_only 17 (s.slotBase r.slot) [] s).mono (by decide : _ &&& 400897 = _)
  have hv := fun t l => (reelRows_only l r.slot t).mono (by decide : _ &&& 400897 = _)
  have hp := fun t x v => (put_only t x v).mono (by decide : _ &&& 400897 = _)
  have hy := fun t => (reelReady_only t r).mono (by decide : _ &&& 400897 = _)
  have hc := fun t c => (reelRefuse_only t c).mono (by decide : _ &&& 400897 = _)
  unfold State.reelVerify
  exact Only.ite (h.trans (hc _ _)) (Only.ite (((h.trans (hv _ _)).trans (hy _)).trans (hp _ _ _)) ((h.trans (hv _ _)).trans (hc _ _)))

theorem execReelinArmed_only (s : State) :
    ∀ t', execReelinArmed s = .next t' → Only 999353 s t' := by
  intro t' h
  unfold execReelinArmed at h
  injection h with h
  subst h
  repeat' first
    | (with_reducible first
        | exact Only.refl
        | refine (settle_only _).after (by decide) ?_
        | refine (reelVerify_only _ _).after (by decide) ?_
        | refine Only.ite ?_ ?_)
    | split

theorem execRestoreEdge_only (s : State) :
    ∀ t', execRestoreEdge s = .next t' → Only 999421 s t' := by
  intro t' h
  unfold execRestoreEdge at h
  injection h with h
  subst h
  repeat' first
    | (with_reducible first
        | exact Only.refl
        | refine (settle_only _).after (by decide) ?_
        | refine (noteReady_only _).after (by decide) ?_
        | refine (restoreAt_only _ _ _).after (by decide) ?_
        | refine Only.ite ?_ ?_)
    | split

theorem execReelinDone_only (s : State) :
    ∀ t', execReelinDone s = .next t' → Only 999353 s t' := by
  intro t' h
  unfold execReelinDone at h
  injection h with h
  subst h
  repeat' first
    | ((fail_if_no_progress extract_lets +onlyGivenNames x); refine Only.letElim (x := x) ?_ (fun _ => ?_); (on_goal 1 => unfold x); (on_goal 2 => clear_value x))
    | ((fail_if_no_progress extract_lets +onlyGivenNames x); clear_value x)
    | (with_reducible first
        | exact Only.refl
        | assumption
        | refine (settle_only _).after (by decide) ?_
        | refine Only.each _ _ (fun _ _ => ?_) ?_
        | refine (restoreRow_only _ _ _ _).after (by decide) ?_
        | refine (portFlush_only _ _).after (by decide) ?_
        | refine (haltOnStop_only _).after (by decide) ?_
        | refine (sendTokens_only _ _ _).after (by decide) ?_
        | refine (setLat_only _ _).after (by decide) ?_
        | refine (setLatState_only _ _).after (by decide) ?_
        | refine (latSettle_only _).after (by decide) ?_
        | refine (raise_only _ _).after (by decide) ?_
        | refine (reelDrop_only _ _).after (by decide) ?_
        | refine Only.ite ?_ ?_)
    | split

theorem execReelinAbort_only (s : State) :
    ∀ t', execReelinAbort s = .next t' → Only 132609 s t' := by
  intro t' h
  unfold execReelinAbort at h
  injection h with h
  subst h
  repeat' first
    | (with_reducible first
        | exact Only.refl
        | refine toBlock_only _ _ (fun _ => ?_) ?_
        | refine (reelBreak_only _ _).after (by decide) ?_)

theorem execExportSlot_only (keySlot : ℕ) (slot : ℕ) (s : State) :
    ∀ t', execExportSlot keySlot slot s = .next t' → Only 132609 s t' := by
  intro t' h
  unfold execExportSlot at h
  injection h with h
  subst h
  repeat' first
    | (with_reducible first
        | exact Only.refl
        | refine toBlock_only _ _ (fun _ => ?_) ?_
        | refine (xferGo_only _ _ _ _).after (by decide) ?_)

theorem execImportSlot_only (keySlot : ℕ) (s : State) :
    ∀ t', execImportSlot keySlot s = .next t' → Only 132609 s t' := by
  intro t' h
  unfold execImportSlot at h
  injection h with h
  subst h
  repeat' first
    | (with_reducible first
        | exact Only.refl
        | refine toBlock_only _ _ (fun _ => ?_) ?_
        | refine (xferGo_only _ _ _ _).after (by decide) ?_)

theorem execTransferAbort_only (s : State) :
    ∀ t', execTransferAbort s = .next t' → Only 132609 s t' := by
  intro t' h
  unfold execTransferAbort at h
  injection h with h
  subst h
  repeat' first
    | (with_reducible first
        | exact Only.refl
        | refine toBlock_only _ _ (fun _ => ?_) ?_
        | refine (xferEnd_only _ _).after (by decide) ?_)

theorem execTransferEnd_only (gdl : ℕ) (box : ℕ) (s : State) :
    ∀ t', execTransferEnd gdl box s = .next t' → Only 999353 s t' := by
  intro t' h
  unfold execTransferEnd at h
  injection h with h
  subst h
  repeat' first
    | ((fail_if_no_progress extract_lets +onlyGivenNames x); refine Only.letElim (x := x.1) ?_ (fun _ => ?_); (on_goal 1 => unfold x); (on_goal 2 => clear_value x))
    | (with_reducible first
        | exact Only.refl
        | assumption
        | refine (settle_only _).after (by decide) ?_
        | refine (xferEnd_only _ _).after (by decide) ?_
        | refine (raiseAlarm_only _ _).after (by decide) ?_
        | refine (boxTake_only _ _ _).after (by decide) ?_
        | refine (boxOut_only _ _).after (by decide) ?_
        | refine Only.ite ?_ ?_)
    | split

end Sys2Proof.Machine
end

