-- ==== Sys2Proof/Laws/OnlyRegOps.lean ====
section
/-! SUPPORT. Sys2Proof/Laws/OnlyRegOps.lean: what the operations of Machine/RegOps.lean leave alone (Laws/Only.lean): one lemma each. -/

set_option linter.unusedTactic false
set_option linter.tactic.unusedName false
set_option linter.unusedVariables false
set_option linter.unreachableTactic false

namespace Sys2Proof.Machine

theorem plainWrite_only (s : State) (off : ℕ) (v : Word) :
    Only 1 s (State.plainWrite s off v) := by
  unfold State.plainWrite
  repeat' first
    | (with_reducible first
        | exact Only.refl
        | refine (setReg_only _ _ _).after (by decide) ?_
        | refine Only.ite ?_ ?_)
    | split

theorem plainRead_only (s : State) (off : ℕ) (peek : Bool) :
    Only 1 s (State.plainRead s off peek).1 := by
  unfold State.plainRead
  repeat' first
    | ((fail_if_no_progress extract_lets +onlyGivenNames x); clear_value x)
    | (with_reducible first
        | exact Only.refl
        | refine (setReg_only _ _ _).after (by decide) ?_
        | refine Only.ite ?_ ?_)
    | split

theorem Only.via {m : Nat} {s t : State} (f : State → Out) (hf : ∀ u v, f u = .next v → Only m u v) (h : Only m s t) :
    Only m s (t.via f) := by
  unfold State.via
  split
  · rename_i heq; exact h.trans (hf _ _ heq)
  · exact h

theorem putFields_only (s : State) (l : List Fld) (v : Word) :
    Only 1 s (State.putFields s l v) := by
  unfold State.putFields
  repeat' first
    | (with_reducible first
        | exact Only.refl
        | refine Only.each _ _ (fun _ _ => ?_) ?_
        | refine (put_only _ _ _).after (by decide) ?_)

theorem accepted_only (t : State) :
    Only 0 t (accepted t).1 := by
  unfold accepted
  exact Only.refl

theorem valued_only (s : State) (v : ℕ) :
    Only 0 s (valued s v).1 := by
  unfold valued
  exact Only.refl

theorem devWrite_only (s : State) (off : ℕ) (v : Word) :
    Only 132097 s (State.devWrite s off v).1 := by
  unfold State.devWrite
  repeat' first
    | (with_reducible first
        | exact Only.refl
        | refine (accepted_only _).after (by decide) ?_
        | refine ((issueFence_only _ _).of_eq (by assumption)).after (by decide) ?_
        | refine (plainWrite_only _ _ _).after (by decide) ?_
        | refine Only.iteP ?_ ?_)
    | split

theorem devRead_only (s : State) (off : ℕ) (peek : Bool) :
    Only 1 s (State.devRead s off peek).1 := by
  unfold State.devRead
  repeat' first
    | (with_reducible first
        | exact Only.refl
        | refine (plainRead_only _ _ _).after (by decide) ?_
        | refine Only.iteP ?_ ?_)
    | split

theorem gclkWrite_only (s : State) (g : ℕ) (v : Word) :
    Only 133009 s (State.gclkWrite s g v) := by
  unfold State.gclkWrite
  repeat' first
    | ((fail_if_no_progress extract_lets +onlyGivenNames x); refine Only.letElim (x := x) ?_ (fun _ => ?_); (on_goal 1 => unfold x); (on_goal 2 => clear_value x))
    | (with_reducible first
        | exact Only.refl
        | assumption
        | refine (putFields_only _ _ _).after (by decide) ?_
        | refine (switchTo_only _ _ _).after (by decide) ?_
        | refine Only.when _ _ (fun _ => ?_) ?_
        | refine (put_only _ _ _).after (by decide) ?_)

theorem clkWrite_only (s : State) (off : ℕ) (v : Word) :
    Only 657297 s (State.clkWrite s off v) := by
  unfold State.clkWrite
  repeat' first
    | ((fail_if_no_progress extract_lets +onlyGivenNames x); clear_value x)
    | (with_reducible first
        | exact Only.refl
        | refine Only.via _ (fun _ _ _ => ?_) ?_
        | refine (execPllSettingChange_only _ _ _ _ (by assumption)).after (by decide) ?_
        | refine (pllCheck_only _ _).after (by decide) ?_
        | refine (plainWrite_only _ _ _).after (by decide) ?_
        | refine (switchTo_only _ _ _).after (by decide) ?_
        | refine (put_only _ _ _).after (by decide) ?_
        | refine (gclkWrite_only _ _ _).after (by decide) ?_
        | refine (putFields_only _ _ _).after (by decide) ?_
        | refine (latSettle_only _).after (by decide) ?_
        | refine (gateWrite_only _ _ _ _).after (by decide) ?_
        | refine Only.ite ?_ ?_)

theorem clkRead_only (s : State) (off : ℕ) (peek : Bool) :
    Only 1 s (State.clkRead s off peek).1 := by
  unfold State.clkRead
  repeat' first
    | ((fail_if_no_progress extract_lets +onlyGivenNames x); refine Only.letElim (x := x.1) ?_ (fun _ => ?_); (on_goal 1 => unfold x); (on_goal 2 => clear_value x))
    | ((fail_if_no_progress extract_lets +onlyGivenNames x); clear_value x)
    | (with_reducible first
        | exact Only.refl
        | assumption
        | refine (plainRead_only _ _ _).after (by decide) ?_
        | refine Only.iteP ?_ ?_)

theorem cfgGo_only (s : State) (op : ℕ) (src : ℕ) (auto : Bool) :
    Only 1032121 s (State.cfgGo s op src auto) := by
  unfold State.cfgGo
  repeat' first
    | (with_reducible first
        | exact Only.refl
        | refine Only.via _ (fun _ _ _ => ?_) ?_
        | refine (execBlank_only _ _ (by assumption)).after (by decide) ?_
        | refine (execCfgStart_only _ _ (by assumption)).after (by decide) ?_
        | refine (cfgRefuse_only _ _).after (by decide) ?_
        | refine (settle_only _).after (by decide) ?_
        | refine (loadStart_only _ _ _ _ _).after (by decide) ?_
        | refine (loadGoes_only _ _ _ _).after (by decide) ?_
        | refine Only.ite ?_ ?_)
    | split

theorem cfgWrite_only (s : State) (off : ℕ) (v : Word) :
    Only 1032121 s (State.cfgWrite s off v) := by
  unfold State.cfgWrite
  repeat' first
    | ((fail_if_no_progress extract_lets +onlyGivenNames x); refine Only.letElim (x := x) ?_ (fun _ => ?_); (on_goal 1 => unfold x); (on_goal 2 => clear_value x))
    | (with_reducible first
        | exact Only.refl
        | assumption
        | refine (putFields_only _ _ _).after (by decide) ?_
        | refine (cfgStop_only _ _).after (by decide) ?_
        | refine (cfgGo_only _ _ _ _).after (by decide) ?_
        | refine (prCancel_only _).after (by decide) ?_
        | refine (prArm_only _ _ _ _).after (by decide) ?_
        | refine (plainWrite_only _ _ _).after (by decide) ?_
        | refine Only.ite ?_ ?_)

theorem cfgRead_only (s : State) (off : ℕ) (peek : Bool) :
    Only 1 s (State.cfgRead s off peek).1 := by
  unfold State.cfgRead
  repeat' first
    | (with_reducible first
        | exact Only.refl
        | refine (valued_only _ _).after (by decide) ?_
        | refine (plainRead_only _ _ _).after (by decide) ?_
        | refine Only.iteP ?_ ?_)

theorem intRead_only (s : State) (off : ℕ) (peek : Bool) :
    Only 136705 s (State.intRead s off peek).1 := by
  unfold State.intRead
  repeat' first
    | (with_reducible first
        | exact Only.refl
        | refine (logStamp_only _).after (by decide) ?_
        | refine Only.via _ (fun _ _ _ => ?_) ?_
        | refine (execIntLogPop_only _ _ (by assumption)).after (by decide) ?_
        | refine (plainRead_only _ _ _).after (by decide) ?_
        | refine (cntParity_only _ _).after (by decide) ?_
        | refine Only.ite ?_ ?_
        | refine Only.iteP ?_ ?_)
    | split

theorem intWrite_only (s : State) (off : ℕ) (v : Word) :
    Only 1 s (State.intWrite s off v) := by
  unfold State.intWrite
  repeat' first
    | ((fail_if_no_progress extract_lets +onlyGivenNames x); clear_value x)
    | (with_reducible first
        | exact Only.refl
        | refine Only.when _ _ (fun _ => ?_) ?_
        | refine (plainWrite_only _ _ _).after (by decide) ?_
        | refine (put_only _ _ _).after (by decide) ?_)

theorem freshKeys_only (s : State) :
    Only 0 s (State.freshKeys s).1 := by
  unfold State.freshKeys
  repeat' first
    | ((fail_if_no_progress extract_lets +onlyGivenNames x); refine Only.letElim (x := x) ?_ (fun _ => ?_); (on_goal 1 => unfold x); (on_goal 2 => clear_value x))
    | ((fail_if_no_progress extract_lets +onlyGivenNames x); clear_value x)
    | (with_reducible first
        | exact Only.refl
        | assumption
        | refine (freeNext_only _).after (by decide) ?_)

theorem memCtrl_only (s : State) (off : ℕ) (v : Word) :
    Only 67585 s (State.memCtrl s off v) := by
  unfold State.memCtrl
  repeat' first
    | ((fail_if_no_progress extract_lets +onlyGivenNames x); refine Only.letElim (x := x) ?_ (fun _ => ?_); (on_goal 1 => unfold x); (on_goal 2 => clear_value x))
    | ((fail_if_no_progress extract_lets +onlyGivenNames x); refine Only.letElim (x := x.1) ?_ (fun _ => ?_); (on_goal 1 => unfold x); (on_goal 2 => clear_value x))
    | (with_reducible first
        | exact Only.refl
        | assumption
        | refine (put_only _ _ _).after (by decide) ?_
        | refine (initMem_only _).after (by decide) ?_
        | refine (freshKeys_only _).after (by decide) ?_
        | refine (rekeyMem_only _ _).after (by decide) ?_
        | refine (plainWrite_only _ _ _).after (by decide) ?_
        | refine Only.ite ?_ ?_)

theorem memCtrlRead_only (s : State) (off : ℕ) (peek : Bool) :
    Only 1 s (State.memCtrlRead s off peek).1 := by
  unfold State.memCtrlRead
  repeat' first
    | (with_reducible first
        | exact Only.refl
        | refine (valued_only _ _).after (by decide) ?_
        | refine (plainRead_only _ _ _).after (by decide) ?_
        | refine Only.iteP ?_ ?_)

theorem tgtResume_only (s : State) (t : ℕ) :
    Only 1025 s (State.tgtResume s t) := by
  unfold State.tgtResume
  repeat' first
    | (with_reducible first
        | exact Only.refl
        | refine (put_only _ _ _).after (by decide) ?_
        | refine (setStale_only _ _ _).after (by decide) ?_
        | refine Only.ite ?_ ?_)

theorem clearHist_only (s : State) :
    Only 1 s (State.clearHist s) := by
  unfold State.clearHist
  repeat' first
    | (with_reducible first
        | exact Only.refl
        | refine (resetRegs_only _ _).after (by decide) ?_)

theorem meshWrite_only (s : State) (off : ℕ) (v : Word) :
    Only 1025 s (State.meshWrite s off v) := by
  unfold State.meshWrite
  repeat' first
    | ((fail_if_no_progress extract_lets +onlyGivenNames x); refine Only.letElim (x := x) ?_ (fun _ => ?_); (on_goal 1 => unfold x); (on_goal 2 => clear_value x))
    | ((fail_if_no_progress extract_lets +onlyGivenNames x); clear_value x)
    | (with_reducible first
        | exact Only.refl
        | assumption
        | refine (clearHist_only _).after (by decide) ?_
        | refine (setMesh_only _ _).after (by decide) ?_
        | refine (put_only _ _ _).after (by decide) ?_
        | refine (tgtResume_only _ _).after (by decide) ?_
        | refine (plainWrite_only _ _ _).after (by decide) ?_
        | refine Only.ite ?_ ?_)

end Sys2Proof.Machine
end

