-- ==== Sys2Proof/Laws/OnlySecurity.lean ====
section
/-! SUPPORT. Sys2Proof/Laws/OnlySecurity.lean: what the operations of Machine/Security.lean leave alone (Laws/Only.lean): one lemma each. -/

set_option linter.unusedTactic false
set_option linter.tactic.unusedName false
set_option linter.unusedVariables false
set_option linter.unreachableTactic false

namespace Sys2Proof.Machine

theorem execBind_only (src : ℕ) (late : Bool) (s : State) :
    ∀ t', execBind src late s = .next t' → Only 995257 s t' := by
  intro t' h
  unfold execBind at h
  injection h with h
  subst h
  repeat' first
    | (with_reducible first
        | exact Only.refl
        | refine (protCmd_only _ _ _ _ _).after (by decide) ?_)

theorem execSeal_only (src : ℕ) (late : Bool) (s : State) :
    ∀ t', execSeal src late s = .next t' → Only 995257 s t' := by
  intro t' h
  unfold execSeal at h
  injection h with h
  subst h
  repeat' first
    | (with_reducible first
        | exact Only.refl
        | refine (protCmd_only _ _ _ _ _).after (by decide) ?_)

theorem execProgSk_only (src : ℕ) (slot : ℕ) (late : Bool) (s : State) :
    ∀ t', execProgSk src slot late s = .next t' → Only 995257 s t' := by
  intro t' h
  unfold execProgSk at h
  injection h with h
  subst h
  repeat' first
    | (with_reducible first
        | exact Only.refl
        | refine (protCmd_only _ _ _ _ _).after (by decide) ?_)

theorem execRevokeSk_only (src : ℕ) (slot : ℕ) (late : Bool) (s : State) :
    ∀ t', execRevokeSk src slot late s = .next t' → Only 995257 s t' := by
  intro t' h
  unfold execRevokeSk at h
  injection h with h
  subst h
  repeat' first
    | (with_reducible first
        | exact Only.refl
        | refine (protCmd_only _ _ _ _ _).after (by decide) ?_)

theorem execProgDbg_only (src : ℕ) (late : Bool) (s : State) :
    ∀ t', execProgDbg src late s = .next t' → Only 995257 s t' := by
  intro t' h
  unfold execProgDbg at h
  injection h with h
  subst h
  repeat' first
    | (with_reducible first
        | exact Only.refl
        | refine (protCmd_only _ _ _ _ _).after (by decide) ?_)

theorem execProgKey_only (src : ℕ) (slot : ℕ) (late : Bool) (s : State) :
    ∀ t', execProgKey src slot late s = .next t' → Only 995257 s t' := by
  intro t' h
  unfold execProgKey at h
  injection h with h
  subst h
  repeat' first
    | (with_reducible first
        | exact Only.refl
        | refine (protCmd_only _ _ _ _ _).after (by decide) ?_)

theorem execIncVersion_only (src : ℕ) (late : Bool) (s : State) :
    ∀ t', execIncVersion src late s = .next t' → Only 995257 s t' := by
  intro t' h
  unfold execIncVersion at h
  injection h with h
  subst h
  repeat' first
    | (with_reducible first
        | exact Only.refl
        | refine (protCmd_only _ _ _ _ _).after (by decide) ?_)

theorem Fuses.apply_grows (x : Fuses) (op slot data : Nat) : x.Grows (x.apply op slot data) := by
  unfold Fuses.apply
  split
  all_goals refine ⟨?_, ?_, ?_, ?_⟩ <;> simp_all
  · intro k hk
    unfold ladd
    split <;> simp [hk]

theorem execFuseCommandDone_only (fail : Bool) (s : State) : ∀ t', execFuseCommandDone fail s = .next t' → Only 394753 s t' := by
  intro t' h
  unfold execFuseCommandDone at h
  injection h with h
  subst h
  split
  · exact Only.refl
  · rename_i op slot he
    have h1 : Only 394753 s ((s.setSec { s.sec with fuseCmd := none, fuseData := 0 }).put SEC_FUSE_STAT_BUSY 0) :=
      (put_only _ _ _).after (by decide) ((setSec_only s { s.sec with fuseCmd := none, fuseData := 0 } (Fuses.Grows.refl _)).mono (by decide))
    dsimp only
    split
    · exact h1.trans ((fuseRefuse_only _ _).mono (by decide))
    · refine h1.trans ?_
      refine (raise_only _ _).after (by decide) ?_
      refine (fuseShow_only _).after (by decide) ?_
      exact (setSec_only _ _ (Fuses.apply_grows _ _ _ _)).mono (by decide)

theorem execKeySlotLoad_only (src : ℕ) (slot : ℕ) (late : Bool) (s : State) :
    ∀ t', execKeySlotLoad src slot late s = .next t' → Only 995257 s t' := by
  intro t' h
  unfold execKeySlotLoad at h
  injection h with h
  subst h
  repeat' first
    | (with_reducible first
        | exact Only.refl
        | refine (protCmd_only _ _ _ _ _).after (by decide) ?_)

theorem execKeySlotClear_only (src : ℕ) (slot : ℕ) (late : Bool) (s : State) :
    ∀ t', execKeySlotClear src slot late s = .next t' → Only 995257 s t' := by
  intro t' h
  unfold execKeySlotClear at h
  injection h with h
  subst h
  repeat' first
    | (with_reducible first
        | exact Only.refl
        | refine (protCmd_only _ _ _ _ _).after (by decide) ?_)

theorem execUnlockOpen_only (src : ℕ) (reg : ℕ) (s : State) :
    ∀ t', execUnlockOpen src reg s = .next t' → Only 995257 s t' := by
  intro t' h
  unfold execUnlockOpen at h
  injection h with h
  subst h
  repeat' first
    | (with_reducible first
        | exact Only.refl
        | refine (protCmd_only _ _ _ _ _).after (by decide) ?_
        | refine Only.ite ?_ ?_)

theorem execChallengeRequest_only (nonce : ℕ) (s : State) :
    ∀ t', execChallengeRequest nonce s = .next t' → Only 294912 s t' := by
  intro t' h
  unfold execChallengeRequest at h
  injection h with h
  subst h
  repeat' first
    | ((fail_if_no_progress extract_lets +onlyGivenNames x); refine Only.letElim (x := x) ?_ (fun _ => ?_); (on_goal 1 => unfold x); (on_goal 2 => clear_value x))
    | ((fail_if_no_progress extract_lets +onlyGivenNames x); (try unfold x); clear x)
    | (with_reducible first
        | exact Only.refl
        | assumption
        | refine (authCapture_only _).after (by decide) ?_
        | refine (setSec_only _ _ (by exact Fuses.Grows.refl _)).after (by decide) ?_
        | refine Only.ite ?_ ?_)

theorem execResponseWord_only (w : Word) (s : State) :
    ∀ t', execResponseWord w s = .next t' → Only 294913 s t' := by
  intro t' h
  unfold execResponseWord at h
  injection h with h
  subst h
  repeat' first
    | ((fail_if_no_progress extract_lets +onlyGivenNames x); refine Only.letElim (x := x) ?_ (fun _ => ?_); (on_goal 1 => unfold x); (on_goal 2 => clear_value x))
    | ((fail_if_no_progress extract_lets +onlyGivenNames x); (fail_if_success (have := fun y => x y)); (fail_if_success (have : CRes := x)); (fail_if_success (have : Security := x)); (fail_if_success (have : Hbm := x)); (fail_if_success (have : Option State := x)); clear_value x)
    | ((fail_if_no_progress extract_lets +onlyGivenNames x); (try unfold x); clear x)
    | (with_reducible first
        | exact Only.refl
        | assumption
        | refine (authCapture_only _).after (by decide) ?_
        | refine (setSec_only _ _ (by exact Fuses.Grows.refl _)).after (by decide) ?_
        | refine (put_only _ _ _).after (by decide) ?_
        | refine Only.ite ?_ ?_)

theorem execAuthCheck_only (s : State) :
    ∀ t', execAuthCheck s = .next t' → Only 394753 s t' := by
  intro t' h
  unfold execAuthCheck at h
  injection h with h
  subst h
  repeat' first
    | ((fail_if_no_progress extract_lets +onlyGivenNames x); refine Only.letElim (x := x) ?_ (fun _ => ?_); (on_goal 1 => unfold x); (on_goal 2 => clear_value x))
    | ((fail_if_no_progress extract_lets +onlyGivenNames x); (fail_if_success (have := fun y => x y)); (fail_if_success (have : CRes := x)); (fail_if_success (have : Security := x)); (fail_if_success (have : Hbm := x)); (fail_if_success (have : Option State := x)); clear_value x)
    | ((fail_if_no_progress extract_lets +onlyGivenNames x); (try unfold x); clear x)
    | (with_reducible first
        | exact Only.refl
        | assumption
        | refine (put_only _ _ _).after (by decide) ?_
        | refine (setSec_only _ _ (by exact Fuses.Grows.refl _)).after (by decide) ?_
        | refine (raise_only _ _).after (by decide) ?_
        | refine (satF_only _ _ _).after (by decide) ?_
        | refine Only.ite ?_ ?_)

theorem execAlarmRaise_only (src : ℕ) (s : State) :
    ∀ t', execAlarmRaise src s = .next t' → Only 995257 s t' := by
  intro t' h
  unfold execAlarmRaise at h
  injection h with h
  subst h
  repeat' first
    | (with_reducible first
        | exact Only.refl
        | refine (settle_only _).after (by decide) ?_
        | refine (alarmWrite_only _ _ _).after (by decide) ?_
        | refine Only.ite ?_ ?_)

theorem execAlarmClear_only (src : ℕ) (mask : ℕ) (s : State) :
    ∀ t', execAlarmClear src mask s = .next t' → Only 995257 s t' := by
  intro t' h
  unfold execAlarmClear at h
  injection h with h
  subst h
  repeat' first
    | (with_reducible first
        | exact Only.refl
        | refine (settle_only _).after (by decide) ?_
        | refine (alarmWrite_only _ _ _).after (by decide) ?_
        | refine Only.ite ?_ ?_)

theorem execGlitchDetect_only (s : State) :
    ∀ t', execGlitchDetect s = .next t' → Only 995257 s t' := by
  intro t' h
  unfold execGlitchDetect at h
  injection h with h
  subst h
  repeat' first
    | (with_reducible first
        | exact Only.refl
        | refine (settle_only _).after (by decide) ?_
        | refine (raiseAlarm_only _ _).after (by decide) ?_)

theorem execRngHealthFail_only (s : State) :
    ∀ t', execRngHealthFail s = .next t' → Only 995257 s t' := by
  intro t' h
  unfold execRngHealthFail at h
  injection h with h
  subst h
  repeat' first
    | (with_reducible first
        | exact Only.refl
        | refine (settle_only _).after (by decide) ?_
        | refine (raiseAlarm_only _ _).after (by decide) ?_)

end Sys2Proof.Machine
end

