-- ==== Sys2Proof/Laws/OnlyHubAccess.lean ====
section
/-! SUPPORT. Sys2Proof/Laws/OnlyHubAccess.lean: what the operations of Machine/HubAccess.lean leave alone (Laws/Only.lean): one lemma each. -/

set_option linter.unusedTactic false
set_option linter.tactic.unusedName false
set_option linter.unusedVariables false
set_option linter.unreachableTactic false

namespace Sys2Proof.Machine

theorem portPopRead_only (s : State) :
    Only 400961 s (State.portPopRead s).1 := by
  unfold State.portPopRead
  repeat' first
    | (with_reducible first
        | exact Only.refl
        | refine (qportPop_only _ _ _).after (by decide) ?_
        | refine (freeNext_only _).after (by decide) ?_)

theorem callerRead_only (s : State) (off : ℕ) (peek : Bool) :
    Only 400961 s (State.callerRead s off peek).1 := by
  unfold State.callerRead
  repeat' first
    | ((fail_if_no_progress extract_lets +onlyGivenNames x); refine Only.letElim (x := x.1) ?_ (fun _ => ?_); (on_goal 1 => unfold x); (on_goal 2 => clear_value x))
    | ((fail_if_no_progress extract_lets +onlyGivenNames x); clear_value x)
    | (with_reducible first
        | exact Only.refl
        | assumption
        | refine (valued_only _ _).after (by decide) ?_
        | refine (portPopRead_only _).after (by decide) ?_
        | refine (setReg_only _ _ _).after (by decide) ?_
        | refine (plainRead_only _ _ _).after (by decide) ?_
        | refine Only.ite ?_ ?_
        | refine Only.iteP ?_ ?_)
    | split

theorem shadowWrite_only (s : State) (off : ℕ) (v : Word) :
    Only 64 s (State.shadowWrite s off v) := by
  unfold State.shadowWrite
  repeat' first
    | ((fail_if_no_progress extract_lets +onlyGivenNames x); clear_value x)
    | (with_reducible first
        | exact Only.refl
        | refine (setCall_only _ _).after (by decide) ?_
        | refine (landHeld_only _ _).after (by decide) ?_
        | refine Only.ite ?_ ?_)

theorem traceCfg_only (s : State) (v : Word) :
    Only 65 s (State.traceCfg s v) := by
  unfold State.traceCfg
  repeat' first
    | ((fail_if_no_progress extract_lets +onlyGivenNames x); refine Only.letElim (x := x) ?_ (fun _ => ?_); (on_goal 1 => unfold x); (on_goal 2 => clear_value x))
    | ((fail_if_no_progress extract_lets +onlyGivenNames x); clear_value x)
    | (with_reducible first
        | exact Only.refl
        | assumption
        | refine (plainWrite_only _ _ _).after (by decide) ?_
        | refine (setCall_only _ _).after (by decide) ?_
        | refine (setReg_only _ _ _).after (by decide) ?_
        | refine Only.ite ?_ ?_)

theorem callerPut_only (s : State) (off : ℕ) (v : Word) :
    Only 400969 s (State.callerPut s off v).1 := by
  unfold State.callerPut
  repeat' first
    | ((fail_if_no_progress extract_lets +onlyGivenNames x); refine Only.letElim (x := x) ?_ (fun _ => ?_); (on_goal 1 => unfold x); (on_goal 2 => clear_value x))
    | ((fail_if_no_progress extract_lets +onlyGivenNames x); refine Only.letElim (x := x.1) ?_ (fun _ => ?_); (on_goal 1 => unfold x); (on_goal 2 => clear_value x))
    | ((fail_if_no_progress extract_lets +onlyGivenNames x); (fail_if_success (have := fun y => x y)); (fail_if_success (have : CRes := x)); (fail_if_success (have : Security := x)); (fail_if_success (have : Hbm := x)); (fail_if_success (have : Option State := x)); clear_value x)
    | ((fail_if_no_progress extract_lets +onlyGivenNames x); (try unfold x); clear x)
    | (with_reducible first
        | exact Only.refl
        | assumption
        | refine (putFields_only _ _ _).after (by decide) ?_
        | refine (plainWrite_only _ _ _).after (by decide) ?_
        | refine (swapRequest_only _ _).after (by decide) ?_
        | refine (put_only _ _ _).after (by decide) ?_
        | refine (traceCfg_only _ _).after (by decide) ?_
        | refine (qportPush_only _ _).after (by decide) ?_
        | refine (shadowWrite_only _ _ _).after (by decide) ?_
        | refine Only.via _ (fun _ _ _ => ?_) ?_
        | refine (execTaskFlagWrite_only _ _ _ _ _ (by assumption)).after (by decide) ?_
        | refine (execClrFault_only _ _ _ (by assumption)).after (by decide) ?_
        | refine Only.ite ?_ ?_
        | refine Only.iteP ?_ ?_)
    | split

theorem latRead_only (s : State) (off : ℕ) (peek : Bool) :
    Only 1 s (State.latRead s off peek).1 := by
  unfold State.latRead
  repeat' first
    | ((fail_if_no_progress extract_lets +onlyGivenNames x); clear_value x)
    | (with_reducible first
        | exact Only.refl
        | refine (valued_only _ _).after (by decide) ?_
        | refine (plainRead_only _ _ _).after (by decide) ?_
        | refine Only.iteP ?_ ?_)

theorem latCmd_only (s : State) (op : ℕ) (steps : ℕ) :
    Only 403437 s (State.latCmd s op steps) := by
  unfold State.latCmd
  repeat' first
    | (with_reducible first
        | exact Only.refl
        | refine (latStart_only _ _ _).after (by decide) ?_
        | refine Only.via _ (fun _ _ _ => ?_) ?_
        | refine (execStopAbs_only _ _ (by assumption)).after (by decide) ?_
        | refine (execStopRel_only _ _ (by assumption)).after (by decide) ?_
        | refine (stopNow_only _).after (by decide) ?_
        | refine (latticeReset_only _).after (by decide) ?_
        | refine (resetLattice_only _).after (by decide) ?_)
    | split

theorem latWrite_only (s : State) (off : ℕ) (v : Word) :
    Only 403437 s (State.latWrite s off v) := by
  unfold State.latWrite
  repeat' first
    | ((fail_if_no_progress extract_lets +onlyGivenNames x); refine Only.letElim (x := x) ?_ (fun _ => ?_); (on_goal 1 => unfold x); (on_goal 2 => clear_value x))
    | (with_reducible first
        | exact Only.refl
        | assumption
        | refine (plainWrite_only _ _ _).after (by decide) ?_
        | refine (latCmd_only _ _ _).after (by decide) ?_
        | refine (sectorRequest_only _ _).after (by decide) ?_
        | refine (latSettle_only _).after (by decide) ?_
        | refine Only.ite ?_ ?_)
    | (with_reducible refine (Only.upd_round _).after (by decide) ?_)

theorem dfeAdapt_only (s : State) (n : ℕ) (k : ℕ) :
    Only 1 s (State.dfeAdapt s n k) := by
  unfold State.dfeAdapt
  repeat' first
    | ((fail_if_no_progress extract_lets +onlyGivenNames x); clear_value x)
    | (with_reducible first
        | exact Only.refl
        | refine Only.each _ _ (fun _ _ => ?_) ?_
        | refine (freeNext_only _).after (by decide) ?_
        | refine (setReg_only _ _ _).after (by decide) ?_
        | refine Only.ite ?_ ?_)

theorem glsRead_only (s : State) (off : ℕ) (peek : Bool) :
    Only 1 s (State.glsRead s off peek).1 := by
  unfold State.glsRead
  repeat' first
    | ((fail_if_no_progress extract_lets +onlyGivenNames x); (fail_if_success (have := fun y => x y)); (fail_if_success (have : CRes := x)); (fail_if_success (have : Security := x)); (fail_if_success (have : Hbm := x)); (fail_if_success (have : Option State := x)); clear_value x)
    | ((fail_if_no_progress extract_lets +onlyGivenNames x); (try unfold x); clear x)
    | (with_reducible first
        | exact Only.refl
        | refine (valued_only _ _).after (by decide) ?_
        | refine (plainRead_only _ _ _).after (by decide) ?_
        | refine (dfeAdapt_only _ _ _).after (by decide) ?_
        | refine Only.iteP ?_ ?_)

theorem glsCtrl_only (s : State) (n : ℕ) (v : Word) :
    Only 132993 s (State.glsCtrl s n v) := by
  unfold State.glsCtrl
  repeat' first
    | ((fail_if_no_progress extract_lets +onlyGivenNames x); refine Only.letElim (x := x) ?_ (fun _ => ?_); (on_goal 1 => unfold x); (on_goal 2 => clear_value x))
    | (with_reducible first
        | exact Only.refl
        | assumption
        | refine (portSync_only _ _).after (by decide) ?_
        | refine (putFields_only _ _ _).after (by decide) ?_
        | refine Only.via _ (fun _ _ _ => ?_) ?_
        | refine (execRetrain_only _ _ _ (by assumption)).after (by decide) ?_
        | refine (execRestart_only _ _ _ (by assumption)).after (by decide) ?_
        | refine (spareGoOp_only _ _ _).after (by decide) ?_
        | refine Only.ite ?_ ?_)

theorem glsWrite_only (s : State) (off : ℕ) (v : Word) :
    Only 132993 s (State.glsWrite s off v) := by
  unfold State.glsWrite
  repeat' first
    | ((fail_if_no_progress extract_lets +onlyGivenNames x); refine Only.letElim (x := x) ?_ (fun _ => ?_); (on_goal 1 => unfold x); (on_goal 2 => clear_value x))
    | ((fail_if_no_progress extract_lets +onlyGivenNames x); clear_value x)
    | (with_reducible first
        | exact Only.refl
        | assumption
        | refine (glsCtrl_only _ _ _).after (by decide) ?_
        | refine Only.via _ (fun _ _ _ => ?_) ?_
        | refine (execEyeScanGo_only _ _ _ _ (by assumption)).after (by decide) ?_
        | refine (setReg_only _ _ _).after (by decide) ?_
        | refine (plainWrite_only _ _ _).after (by decide) ?_
        | refine (dfeAdapt_only _ _ _).after (by decide) ?_
        | refine (execRecal_only _ _ _ _ (by assumption)).after (by decide) ?_
        | refine Only.ite ?_ ?_)

theorem trgWrite_only (s : State) (u : ℕ) (v : Word) :
    Only 513 s (State.trgWrite s u v) := by
  unfold State.trgWrite
  repeat' first
    | ((fail_if_no_progress extract_lets +onlyGivenNames x); refine Only.letElim (x := x) ?_ (fun _ => ?_); (on_goal 1 => unfold x); (on_goal 2 => clear_value x))
    | ((fail_if_no_progress extract_lets +onlyGivenNames x); clear_value x)
    | (with_reducible first
        | exact Only.refl
        | assumption
        | refine (plainWrite_only _ _ _).after (by decide) ?_
        | refine (setTail_only _ _).after (by decide) ?_
        | refine (trigArm_only _ _).after (by decide) ?_
        | refine (put_only _ _ _).after (by decide) ?_
        | refine Only.ite ?_ ?_)

theorem ringWrite_only (s : State) (k : ℕ) (v : Word) :
    Only 513 s (State.ringWrite s k v) := by
  unfold State.ringWrite
  repeat' first
    | ((fail_if_no_progress extract_lets +onlyGivenNames x); refine Only.letElim (x := x) ?_ (fun _ => ?_); (on_goal 1 => unfold x); (on_goal 2 => clear_value x))
    | ((fail_if_no_progress extract_lets +onlyGivenNames x); clear_value x)
    | (with_reducible first
        | exact Only.refl
        | assumption
        | refine (plainWrite_only _ _ _).after (by decide) ?_
        | refine (put_only _ _ _).after (by decide) ?_
        | refine (setReg_only _ _ _).after (by decide) ?_
        | refine (setTail_only _ _).after (by decide) ?_
        | refine Only.ite ?_ ?_)

theorem tailPut_only (s : State) (off : ℕ) (v : Word) :
    Only 400905 s (State.tailPut s off v) := by
  unfold State.tailPut
  repeat' first
    | ((fail_if_no_progress extract_lets +onlyGivenNames x); refine Only.letElim (x := x) ?_ (fun _ => ?_); (on_goal 1 => unfold x); (on_goal 2 => clear_value x))
    | ((fail_if_no_progress extract_lets +onlyGivenNames x); clear_value x)
    | (with_reducible first
        | exact Only.refl
        | assumption
        | refine (plainWrite_only _ _ _).after (by decide) ?_
        | refine (put_only _ _ _).after (by decide) ?_
        | refine (captureGo_only _ _).after (by decide) ?_
        | refine (reelBreak_only _ _).after (by decide) ?_
        | refine (reelGo_only _ _).after (by decide) ?_
        | refine (putFields_only _ _ _).after (by decide) ?_
        | refine (xferEnd_only _ _).after (by decide) ?_
        | refine (xferGo_only _ _ _ _).after (by decide) ?_
        | refine (slotFree_only _ _).after (by decide) ?_
        | refine (trgWrite_only _ _ _).after (by decide) ?_
        | refine (ringWrite_only _ _ _).after (by decide) ?_
        | refine Only.ite ?_ ?_)

theorem balRead_only (s : State) (off : ℕ) (peek : Bool) :
    Only 1 s (State.balRead s off peek).1 := by
  unfold State.balRead
  repeat' first
    | (with_reducible first
        | exact Only.refl
        | refine (valued_only _ _).after (by decide) ?_
        | refine (plainRead_only _ _ _).after (by decide) ?_
        | refine Only.iteP ?_ ?_)

theorem balWrite_only (s : State) (off : ℕ) (v : Word) :
    Only 198145 s (State.balWrite s off v) := by
  unfold State.balWrite
  repeat' first
    | ((fail_if_no_progress extract_lets +onlyGivenNames x); refine Only.letElim (x := x) ?_ (fun _ => ?_); (on_goal 1 => unfold x); (on_goal 2 => clear_value x))
    | (with_reducible first
        | exact Only.refl
        | assumption
        | refine (plainWrite_only _ _ _).after (by decide) ?_
        | refine (balSettle_only _).after (by decide) ?_
        | refine Only.when _ _ (fun _ => ?_) ?_
        | refine (put_only _ _ _).after (by decide) ?_
        | refine (powerRequest_only _ _).after (by decide) ?_
        | refine (wake_only _ _).after (by decide) ?_
        | refine Only.ite ?_ ?_)

theorem secRead_only (s : State) (off : ℕ) (peek : Bool) :
    Only 1 s (State.secRead s off peek).1 := by
  unfold State.secRead
  repeat' first
    | (with_reducible first
        | exact Only.refl
        | refine (valued_only _ _).after (by decide) ?_
        | refine (plainRead_only _ _ _).after (by decide) ?_
        | refine Only.iteP ?_ ?_)

theorem secWrite_only (s : State) (src : ℕ) (off : ℕ) (v : Word) :
    Only 394753 s (State.secWrite s src off v).1 := by
  unfold State.secWrite
  repeat' first
    | ((fail_if_no_progress extract_lets +onlyGivenNames x); (try unfold x); clear x)
    | (with_reducible first
        | exact Only.refl
        | refine (alarmWrite_only _ _ _).after (by decide) ?_
        | refine (protWrite_only _ _ _ _ _).after (by decide) ?_
        | refine (setSec_only _ _ (by exact Fuses.Grows.refl _)).after (by decide) ?_
        | refine (plainWrite_only _ _ _).after (by decide) ?_
        | refine Only.iteP ?_ ?_)

theorem hifRead_only (s : State) (off : ℕ) (peek : Bool) :
    Only 1 s (State.hifRead s off peek).1 := by
  unfold State.hifRead
  repeat' first
    | (with_reducible first
        | exact Only.refl
        | refine (valued_only _ _).after (by decide) ?_
        | refine (plainRead_only _ _ _).after (by decide) ?_
        | refine Only.iteP ?_ ?_)

theorem hifWrite_only (s : State) (off : ℕ) (v : Word) :
    Only 132609 s (State.hifWrite s off v) := by
  unfold State.hifWrite
  repeat' first
    | (with_reducible first
        | exact Only.refl
        | refine (ringCfg_only _ _ _).after (by decide) ?_
        | refine (ringBell_only _ _ _).after (by decide) ?_
        | refine (msixWrite_only _ _ _).after (by decide) ?_
        | refine (plainWrite_only _ _ _).after (by decide) ?_
        | refine Only.ite ?_ ?_)

theorem pinsRead_only (s : State) (off : ℕ) (peek : Bool) :
    Only 524289 s (State.pinsRead s off peek).1 := by
  unfold State.pinsRead
  repeat' first
    | ((fail_if_no_progress extract_lets +onlyGivenNames x); clear_value x)
    | (with_reducible first
        | exact Only.refl
        | refine (uartPop_only _ _).after (by decide) ?_
        | refine (spiPop_only _).after (by decide) ?_
        | refine (plainRead_only _ _ _).after (by decide) ?_
        | refine Only.ite ?_ ?_
        | refine Only.iteP ?_ ?_)

theorem pinsWrite_only (s : State) (off : ℕ) (v : Word) :
    Only 656897 s (State.pinsWrite s off v) := by
  unfold State.pinsWrite
  repeat' first
    | ((fail_if_no_progress extract_lets +onlyGivenNames x); refine Only.letElim (x := x) ?_ (fun _ => ?_); (on_goal 1 => unfold x); (on_goal 2 => clear_value x))
    | ((fail_if_no_progress extract_lets +onlyGivenNames x); (fail_if_success (have := fun y => x y)); (fail_if_success (have : CRes := x)); (fail_if_success (have : Security := x)); (fail_if_success (have : Hbm := x)); (fail_if_success (have : Option State := x)); clear_value x)
    | ((fail_if_no_progress extract_lets +onlyGivenNames x); (try unfold x); clear x)
    | (with_reducible first
        | exact Only.refl
        | assumption
        | refine (pinFollow_only _ _).after (by decide) ?_
        | refine (setReg_only _ _ _).after (by decide) ?_
        | refine Only.via _ (fun _ _ _ => ?_) ?_
        | refine (execGpioSet_only _ _ _ _ (by assumption)).after (by decide) ?_
        | refine (execGpioClr_only _ _ _ _ (by assumption)).after (by decide) ?_
        | refine (ownerWrite_only _ _ _).after (by decide) ?_
        | refine (uartPush_only _ _ _).after (by decide) ?_
        | refine (i2cWrite_only _ _ _).after (by decide) ?_
        | refine (spiPush_only _ _).after (by decide) ?_
        | refine (put_only _ _ _).after (by decide) ?_
        | refine (gdlEnd_only _ _).after (by decide) ?_
        | refine (gdlGo_only _ _ _).after (by decide) ?_
        | refine (plainWrite_only _ _ _).after (by decide) ?_
        | refine Only.ite ?_ ?_)
    | split

theorem tetherWrite_only (s : State) (off : ℕ) (v : Word) :
    Only 524289 s (State.tetherWrite s off v) := by
  unfold State.tetherWrite
  repeat' first
    | ((fail_if_no_progress extract_lets +onlyGivenNames x); refine Only.letElim (x := x) ?_ (fun _ => ?_); (on_goal 1 => unfold x); (on_goal 2 => clear_value x))
    | (with_reducible first
        | exact Only.refl
        | assumption
        | refine (tetSync_only _).after (by decide) ?_
        | refine (plainWrite_only _ _ _).after (by decide) ?_
        | refine (tetSend1_only _ _).after (by decide) ?_
        | refine (tetWrite_only _ _ _).after (by decide) ?_
        | refine Only.ite ?_ ?_)

theorem coreGet_only (s : State) (src : ℕ) (off : ℕ) (peek : Bool) :
    Only 153089 s (State.coreGet s src off peek).1 := by
  unfold State.coreGet
  repeat' first
    | ((fail_if_no_progress extract_lets +onlyGivenNames x); clear_value x)
    | (with_reducible first
        | exact Only.refl
        | refine (coreBlockRead_only _ _ _ _).after (by decide) ?_
        | refine (semLr_only _ _ _).after (by decide) ?_
        | refine (plainRead_only _ _ _).after (by decide) ?_
        | refine Only.ite ?_ ?_
        | refine Only.iteP ?_ ?_)

theorem corePut_only (s : State) (src : ℕ) (off : ℕ) (v : Word) :
    Only 419465 s (State.corePut s src off v).1 := by
  unfold State.corePut
  repeat' first
    | ((fail_if_no_progress extract_lets +onlyGivenNames x); clear_value x)
    | (with_reducible first
        | exact Only.refl
        | refine (coreBlockWrite_only _ _ _ _).after (by decide) ?_
        | refine (semWrite_only _ _ _).after (by decide) ?_
        | refine (semSc_only _ _ _ _).after (by decide) ?_
        | refine Only.iteP ?_ ?_)

theorem blockGet_only (s : State) (src : ℕ) (off : ℕ) (peek : Bool) :
    Only 941633 s (State.blockGet s src off peek).1 := by
  unfold State.blockGet
  repeat' first
    | (with_reducible first
        | exact Only.refl
        | refine (coreGet_only _ _ _ _).after (by decide) ?_
        | refine (devRead_only _ _ _).after (by decide) ?_
        | refine (clkRead_only _ _ _).after (by decide) ?_
        | refine (cfgRead_only _ _ _).after (by decide) ?_
        | refine (intRead_only _ _ _).after (by decide) ?_
        | refine (memCtrlRead_only _ _ _).after (by decide) ?_
        | refine (plainRead_only _ _ _).after (by decide) ?_
        | refine (callerRead_only _ _ _).after (by decide) ?_
        | refine (latRead_only _ _ _).after (by decide) ?_
        | refine (glsRead_only _ _ _).after (by decide) ?_
        | refine (balRead_only _ _ _).after (by decide) ?_
        | refine (secRead_only _ _ _).after (by decide) ?_
        | refine (hifRead_only _ _ _).after (by decide) ?_
        | refine (pinsRead_only _ _ _).after (by decide) ?_
        | refine (dbgRead_only _ _ _).after (by decide) ?_
        | refine Only.iteP ?_ ?_)
    | split

theorem hubGet_only (s : State) (src : ℕ) (off : ℕ) (peek : Bool) :
    Only 1007169 s (State.hubGet s src off peek).1 := by
  unfold State.hubGet
  repeat' first
    | ((fail_if_no_progress extract_lets +onlyGivenNames x); refine Only.letElim (x := x.1) ?_ (fun _ => ?_); (on_goal 1 => unfold x); (on_goal 2 => clear_value x))
    | (with_reducible first
        | exact Only.refl
        | assumption
        | refine (heldWake_only _).after (by decide) ?_
        | refine (blockGet_only _ _ _ _).after (by decide) ?_
        | refine (regWakes_only _ _).after (by decide) ?_
        | refine Only.ite ?_ ?_
        | refine Only.iteP ?_ ?_)

theorem hubPut_only (s0 : State) (src : ℕ) (off : ℕ) (v : Word) :
    Only 1048573 s0 (State.hubPut s0 src off v).1 := by
  unfold State.hubPut
  repeat' first
    | ((fail_if_no_progress extract_lets +onlyGivenNames x); refine Only.letElim (x := x) ?_ (fun _ => ?_); (on_goal 1 => unfold x); (on_goal 2 => clear_value x))
    | ((fail_if_no_progress extract_lets +onlyGivenNames x); refine Only.letElim (x := x.1) ?_ (fun _ => ?_); (on_goal 1 => unfold x); (on_goal 2 => clear_value x))
    | ((fail_if_no_progress extract_lets +onlyGivenNames x); (try unfold x); clear x)
    | (with_reducible first
        | exact Only.refl
        | assumption
        | refine (regWakes_only _ _).after (by decide) ?_
        | refine (settle_only _).after (by decide) ?_
        | refine (heldWake_only _).after (by decide) ?_
        | refine (corePut_only _ _ _ _).after (by decide) ?_
        | refine (devWrite_only _ _ _).after (by decide) ?_
        | refine (clkWrite_only _ _ _).after (by decide) ?_
        | refine (cfgWrite_only _ _ _).after (by decide) ?_
        | refine (intWrite_only _ _ _).after (by decide) ?_
        | refine (memCtrl_only _ _ _).after (by decide) ?_
        | refine (meshWrite_only _ _ _).after (by decide) ?_
        | refine (callerPut_only _ _ _).after (by decide) ?_
        | refine (latWrite_only _ _ _).after (by decide) ?_
        | refine (glsWrite_only _ _ _).after (by decide) ?_
        | refine (tailPut_only _ _ _).after (by decide) ?_
        | refine (balWrite_only _ _ _).after (by decide) ?_
        | refine (secWrite_only _ _ _ _).after (by decide) ?_
        | refine (hifWrite_only _ _ _).after (by decide) ?_
        | refine (pinsWrite_only _ _ _).after (by decide) ?_
        | refine (tetherWrite_only _ _ _).after (by decide) ?_
        | refine (dbgWrite_only _ _ _ _).after (by decide) ?_
        | refine (plainWrite_only _ _ _).after (by decide) ?_
        | refine Only.iteP ?_ ?_)
    | split

theorem putOrHold_only (s : State) (src : ℕ) (off : ℕ) (v : Word) :
    Only 1048573 s (State.putOrHold s src off v) := by
  unfold State.putOrHold
  repeat' first
    | (with_reducible first
        | exact Only.refl
        | refine (holdWrite_only _ _ _ _).after (by decide) ?_
        | refine ((hubPut_only _ _ _ _).of_eq (by assumption)).after (by decide) ?_
        | refine Only.ite ?_ ?_)
    | split

theorem heldRetry_only (y0 : List (ℕ × ℕ × Word)) (y1 : State) :
    Only 1048573 y1 (heldRetry y0 y1) := by
  induction y0 generalizing y1 with
  | nil =>
    unfold heldRetry
    exact Only.refl
  | cons a l ih =>
    unfold heldRetry
    repeat' first
      | (with_reducible first
          | exact Only.refl
          | refine (putOrHold_only _ _ _ _).after (by decide) ?_
          | refine Only.trans ?_ (ih _))

theorem retryHeld_only (s : State) :
    Only 1048573 s (State.retryHeld s) := by
  unfold State.retryHeld
  repeat' first
    | ((fail_if_no_progress extract_lets +onlyGivenNames x); clear_value x)
    | (with_reducible first
        | exact Only.refl
        | refine (heldRetry_only _ _).after (by decide) ?_
        | refine (setMesh_only _ _).after (by decide) ?_)

theorem execPowerTransitionEnd_only (s : State) :
    ∀ t', execPowerTransitionEnd s = .next t' → Only 1048573 s t' := by
  intro t' h
  unfold execPowerTransitionEnd at h
  injection h with h
  subst h
  repeat' first
    | (with_reducible first
        | exact Only.refl
        | refine (retryHeld_only _).after (by decide) ?_
        | refine (settle_only _).after (by decide) ?_
        | refine (latSettle_only _).after (by decide) ?_
        | refine (powerEnd_only _).after (by decide) ?_)

theorem execRegisterWrite_only (src : ℕ) (off : ℕ) (v : Word) (s : State) :
    ∀ t', execRegisterWrite src off v s = .next t' → Only 1048573 s t' := by
  intro t' h
  unfold execRegisterWrite at h
  injection h with h
  subst h
  repeat' first
    | (with_reducible first
        | exact Only.refl
        | refine (putOrHold_only _ _ _ _).after (by decide) ?_
        | refine Only.ite ?_ ?_)

theorem execFenceComplete_only (src : ℕ) (s : State) :
    ∀ t', execFenceComplete src s = .next t' → Only 1048573 s t' := by
  intro t' h
  unfold execFenceComplete at h
  injection h with h
  subst h
  repeat' first
    | (with_reducible first
        | exact Only.refl
        | refine (retryHeld_only _).after (by decide) ?_
        | refine (completeFence_only _ _).after (by decide) ?_)

theorem execClearingRead_only (src : ℕ) (off : ℕ) (s : State) :
    ∀ t', execClearingRead src off s = .next t' → Only 1007169 s t' := by
  intro t' h
  unfold execClearingRead at h
  injection h with h
  subst h
  repeat' first
    | (with_reducible first
        | exact Only.refl
        | refine (hubGet_only _ _ _ _).after (by decide) ?_
        | refine Only.ite ?_ ?_)

end Sys2Proof.Machine
end

