-- ==== Sys2Proof/Laws/OnlyMesh.lean ====
section
/-! SUPPORT. Sys2Proof/Laws/OnlyMesh.lean: what the operations of Machine/Mesh.lean leave alone (Laws/Only.lean): one lemma each. -/

set_option linter.unusedTactic false
set_option linter.tactic.unusedName false
set_option linter.unusedVariables false
set_option linter.unreachableTactic false

namespace Sys2Proof.Machine

theorem hubDword_only (s : State) (a : Acc) (off : ℕ) (k : ℕ) :
    Only 1048573 s (State.hubDword s a off k).1 := by
  unfold State.hubDword
  repeat' first
    | ((fail_if_no_progress extract_lets +onlyGivenNames x); refine Only.letElim (x := x.1) ?_ (fun _ => ?_); (on_goal 1 => unfold x); (on_goal 2 => clear_value x))
    | ((fail_if_no_progress extract_lets +onlyGivenNames x); clear_value x)
    | (with_reducible first
        | exact Only.refl
        | assumption
        | refine (hubPut_only _ _ _ _).after (by decide) ?_
        | refine (hubGet_only _ _ _ _).after (by decide) ?_
        | refine Only.iteP ?_ ?_)

theorem hubPair_only {m : Nat} (s : State) (a : Acc) (lo hi : State → State × Option Rsp) (hl : ∀ t, Only m t (lo t).1)
    (hh : ∀ t, Only m t (hi t).1) : Only m s (s.hubPair a lo hi).1 := by
  unfold State.hubPair
  dsimp only
  split
  · exact hl _
  · split
    · exact Only.refl
    · exact (hl _).trans (hh _)

theorem tetPut8_only (s : State) (off : ℕ) (v : ℕ) :
    Only 995257 s (State.tetPut8 s off v).1 := by
  unfold State.tetPut8
  repeat' first
    | (with_reducible first
        | exact Only.refl
        | refine (heldWake_only _).after (by decide) ?_
        | refine (settle_only _).after (by decide) ?_
        | refine (tetWrite_only _ _ _).after (by decide) ?_
        | refine Only.ite ?_ ?_
        | refine Only.iteP ?_ ?_)

theorem hubAcc_only (s : State) (a : Acc) (off : ℕ) :
    Only 1048573 s (State.hubAcc s a off).1 := by
  unfold State.hubAcc
  repeat' first
    | (with_reducible first
        | exact Only.refl
        | refine (hubDword_only _ _ _ _).after (by decide) ?_
        | refine (tetPut8_only _ _ _).after (by decide) ?_
        | refine hubPair_only _ _ _ _ (fun _ => ?_) (fun _ => ?_)
        | refine Only.iteP ?_ ?_)

theorem apDword_only (s : State) (a : Acc) (n : ℕ) (off : ℕ) (k : ℕ) :
    Only 8 s (State.apDword s a n off k).1 := by
  unfold State.apDword
  repeat' first
    | ((fail_if_no_progress extract_lets +onlyGivenNames x); refine Only.letElim (x := x.1) ?_ (fun _ => ?_); (on_goal 1 => unfold x); (on_goal 2 => clear_value x))
    | ((fail_if_no_progress extract_lets +onlyGivenNames x); clear_value x)
    | (with_reducible first
        | exact Only.refl
        | assumption
        | refine (apWrite_only _ _ _ _).after (by decide) ?_
        | refine (apRead_only _ _ _ _).after (by decide) ?_
        | refine Only.iteP ?_ ?_)

theorem apAcc_only (s : State) (a : Acc) (n : ℕ) (off : ℕ) :
    Only 8 s (State.apAcc s a n off).1 := by
  unfold State.apAcc
  repeat' first
    | (with_reducible first
        | exact Only.refl
        | refine (apDword_only _ _ _ _ _).after (by decide) ?_
        | refine hubPair_only _ _ _ _ (fun _ => ?_) (fun _ => ?_)
        | refine Only.iteP ?_ ?_)

theorem deliver_only (s : State) (a : Acc) (r : Rsp) :
    Only 136705 s (State.deliver s a r) := by
  unfold State.deliver
  repeat' first
    | ((fail_if_no_progress extract_lets +onlyGivenNames x); refine Only.letElim (x := x) ?_ (fun _ => ?_); (on_goal 1 => unfold x); (on_goal 2 => clear_value x))
    | (with_reducible first
        | exact Only.refl
        | assumption
        | refine (hostTake_only _ _ _).after (by decide) ?_
        | refine (opVisible_only _ _ _).after (by decide) ?_
        | refine (issueTodo_only _ _).after (by decide) ?_
        | refine (meshDone_only _ _ _).after (by decide) ?_
        | refine Only.ite ?_ ?_)

theorem sendUnmapped_only (s : State) (a : Acc) :
    Only 136705 s (State.sendUnmapped s a) := by
  unfold State.sendUnmapped
  repeat' first
    | ((fail_if_no_progress extract_lets +onlyGivenNames x); refine Only.letElim (x := x) ?_ (fun _ => ?_); (on_goal 1 => unfold x); (on_goal 2 => clear_value x))
    | ((fail_if_no_progress extract_lets +onlyGivenNames x); clear_value x)
    | (with_reducible first
        | exact Only.refl
        | assumption
        | refine (noTarget_only _ _ _ _).after (by decide) ?_
        | refine (deliver_only _ _ _).after (by decide) ?_
        | refine (setMesh_only _ _).after (by decide) ?_
        | refine (setTagAt_only _ _ _).after (by decide) ?_)

theorem depart_only (s : State) (a : Acc) :
    Only 1025 s (State.depart s a) := by
  unfold State.depart
  repeat' first
    | ((fail_if_no_progress extract_lets +onlyGivenNames x); refine Only.letElim (x := x) ?_ (fun _ => ?_); (on_goal 1 => unfold x); (on_goal 2 => clear_value x))
    | ((fail_if_no_progress extract_lets +onlyGivenNames x); clear_value x)
    | (with_reducible first
        | exact Only.refl
        | assumption
        | refine (setTagAt_only _ _ _).after (by decide) ?_
        | refine (iniStat_only _ _).after (by decide) ?_
        | refine (setMesh_only _ _).after (by decide) ?_)

theorem waitAt_only (s : State) (t : ℕ) (a : Acc) :
    Only 995257 s (State.waitAt s t a) := by
  unfold State.waitAt
  repeat' first
    | (with_reducible first
        | exact Only.refl
        | refine (settle_only _).after (by decide) ?_
        | refine (setWaits_only _ _ _).after (by decide) ?_)

theorem stackTake_only (s : State) (k : ℕ) (a : Acc) :
    ∀ t, State.stackTake s k a = some t → Only 995257 s t := by
  intro t h
  unfold State.stackTake at h
  try dsimp only at h
  repeat' split at h
  all_goals first
    | contradiction
    | (injection h with h; subst h
       repeat' first
         | (with_reducible first
             | exact Only.refl
             | refine (meshAnswer_only _ _ _ _).after (by decide) ?_
             | refine (waitAt_only _ _ _).after (by decide) ?_))

theorem userTake_only (s : State) (n : ℕ) (a : Acc) :
    ∀ t, State.userTake s n a = some t → Only 995257 s t := by
  intro t h
  unfold State.userTake at h
  try dsimp only at h
  repeat' split at h
  all_goals first
    | contradiction
    | (injection h with h; subst h
       repeat' first
         | (with_reducible first
             | exact Only.refl
             | refine (meshAnswer_only _ _ _ _).after (by decide) ?_
             | refine (waitAt_only _ _ _).after (by decide) ?_))

theorem regTake_only {m : Nat} {s : State} (t : Nat) (a : Acc) (r : State × Option Rsp) (h : Only m s r.1)
    (hm : 1048573 &&& m = 1048573 := by decide) : Only m s (regTake t a r).1 := by
  unfold regTake
  split
  · exact h
  · exact ((meshAnswer_only _ _ _ _).mono (by decide : _ &&& 1048573 = _)).after hm h

theorem tookOr_only {m : Nat} (s : State) (r : Option State) (h : ∀ t, r = some t → Only m s t) : Only m s (s.tookOr r).1 := by
  unfold State.tookOr
  split
  · exact h _ rfl
  · exact Only.refl

theorem reach_only (s : State) (a : Acc) (d : Dest) (stuck : Bool) : Only 1048573 s (s.reach a d stuck).1 := by
  unfold State.reach
  split
  · exact (absorbAnswer_only _ _ _).mono (by decide)
  · split
    · exact (setWaits_only _ _ _).mono (by decide)
    · split
      · exact Only.refl
      · exact tookOr_only _ _ (fun _ h => (stackTake_only _ _ _ _ h).mono (by decide))
      · exact tookOr_only _ _ (fun _ h => (userTake_only _ _ _ _ h).mono (by decide))
      · exact regTake_only _ _ _ ((apAcc_only _ _ _ _).mono (by decide))
      · exact regTake_only _ _ _ ((hubAcc_only _ _ _).mono (by decide))

theorem setBuf_only (s : State) (k : ℕ) (l : List NFlit) :
    Only 1024 s (State.setBuf s k l) := by
  unfold State.setBuf
  repeat' first
    | ((fail_if_no_progress extract_lets +onlyGivenNames x); clear_value x)
    | (with_reducible first
        | exact Only.refl
        | refine (setMesh_only _ _).after (by decide) ?_)

theorem vc3Hold_only (s : State) (t : Nat) (a : Acc) (u : State) (h : s.vc3Hold t a = some u) : Only 1024 s u := by
  unfold State.vc3Hold at h
  dsimp only at h
  split at h
  · injection h with h; subst h; exact (setMesh_only _ _).mono (by decide)
  · contradiction

theorem arriveAt_only (s : State) (t v : Nat) (a : Acc) (stuck : Option Nat) : Only 1048573 s (s.arriveAt t v a stuck).1 := by
  have hr := reach_only s a (destOf a.addr) (stuck == some a.key)
  unfold State.arriveAt
  extract_lets behind r
  have h1 : Only 1048573 s r.1 := by
    unfold r
    split
    · exact Only.refl
    · exact hr
  clear_value r
  split
  · exact h1
  · split
    · rename_i e; exact h1.trans ((vc3Hold_only _ _ _ _ e).mono (by decide))
    · exact h1

theorem eject_only (s : State) (t : ℕ) (v : ℕ) (f : NFlit) (stuck : Option ℕ) :
    Only 1048573 s (State.eject s t v f stuck).1 := by
  unfold State.eject
  repeat' first
    | ((fail_if_no_progress extract_lets +onlyGivenNames x); refine Only.letElim (x := x.1) ?_ (fun _ => ?_); (on_goal 1 => unfold x); (on_goal 2 => clear_value x))
    | ((fail_if_no_progress extract_lets +onlyGivenNames x); clear_value x)
    | (with_reducible first
        | exact Only.refl
        | assumption
        | refine (setMesh_only _ _).after (by decide) ?_
        | refine (arriveAt_only _ _ _ _ _).after (by decide) ?_
        | refine Only.iteP ?_ ?_)

theorem granted_only (s : State) (o : ℕ) (k : ℕ) (f : NFlit) :
    Only 1024 s (State.granted s o k f) := by
  unfold State.granted
  repeat' first
    | ((fail_if_no_progress extract_lets +onlyGivenNames x); clear_value x)
    | (with_reducible first
        | exact Only.refl
        | refine (setMesh_only _ _).after (by decide) ?_)

theorem moveFlit_only (s : State) (o : ℕ) (k : ℕ) (stuck : Option ℕ) :
    Only 1048573 s (State.moveFlit s o k stuck).1 := by
  unfold State.moveFlit
  repeat' first
    | ((fail_if_no_progress extract_lets +onlyGivenNames x); refine Only.letElim (x := x) ?_ (fun _ => ?_); (on_goal 1 => unfold x); (on_goal 2 => clear_value x))
    | ((fail_if_no_progress extract_lets +onlyGivenNames x); refine Only.letElim (x := x.1) ?_ (fun _ => ?_); (on_goal 1 => unfold x); (on_goal 2 => clear_value x))
    | ((fail_if_no_progress extract_lets +onlyGivenNames x); clear_value x)
    | (with_reducible first
        | exact Only.refl
        | assumption
        | refine (setBuf_only _ _ _).after (by decide) ?_
        | refine (granted_only _ _ _ _).after (by decide) ?_
        | refine (eject_only _ _ _ _ _).after (by decide) ?_
        | refine Only.iteP ?_ ?_)
    | split

theorem netTry_only (o : Nat) (stuck : Option Nat) (l : List Nat) (s : State) : Only 1048573 s (netTry o stuck l s).1 := by
  induction l generalizing s with
  | nil => exact Only.refl
  | cons k t ih =>
    have h := (moveFlit_only s o k stuck).mono (by decide : _ &&& 1048573 = _)
    unfold netTry
    dsimp only
    split
    · exact h
    · exact h.trans (ih _)

theorem netOuts_only (ms : List (Nat × Nat)) (stuck : Option Nat) (l : List Nat) (s : State) : Only 1048573 s (netOuts ms stuck l s).1 := by
  induction l generalizing s with
  | nil => exact Only.refl
  | cons o t ih => exact ((netTry_only _ _ _ s).trans (ih _)).fst

theorem vc3Retry_only (l : List (Nat × List Acc)) (s : State) : Only 1048573 s (vc3Retry l s).1 := by
  induction l generalizing s with
  | nil => exact Only.refl
  | cons x rest ih =>
    obtain ⟨t, l⟩ := x
    cases l with
    | nil => exact ih _
    | cons a more =>
      have hr := (reach_only s a (destOf a.addr) false).mono (by decide : _ &&& 1048573 = _)
      have hm := fun u x => (setMesh_only u x).mono (by decide : _ &&& 1048573 = _)
      unfold vc3Retry
      refine Only.fst (Only.trans ?_ (ih _))
      split
      · exact hr.trans (hm _ _)
      · exact hr

theorem netRun_only (y0 : ℕ) (y1 : Option ℕ) (y2 : State) :
    Only 1048573 y2 (netRun y0 y1 y2) := by
  induction y0 generalizing y1 y2 with
  | zero =>
    unfold netRun
    exact Only.refl
  | succ n ih =>
    unfold netRun
    repeat' first
      | ((fail_if_no_progress extract_lets +onlyGivenNames x); refine Only.letElim (x := x.1) ?_ (fun _ => ?_); (on_goal 1 => unfold x); (on_goal 2 => clear_value x))
      | ((fail_if_no_progress extract_lets +onlyGivenNames x); clear_value x)
      | (with_reducible first
          | exact Only.refl
          | assumption
          | refine (vc3Retry_only _ _).after (by decide) ?_
          | refine (netOuts_only _ _ _ _).after (by decide) ?_
          | refine Only.ite ?_ ?_
          | refine Only.trans ?_ (ih _ _))

theorem netMove_only (s : State) (stuck : Option ℕ) :
    Only 1048573 s (State.netMove s stuck) := by
  unfold State.netMove
  repeat' first
    | (with_reducible first
        | exact Only.refl
        | refine (netRun_only _ _ _).after (by decide) ?_
        | refine Only.ite ?_ ?_)

theorem meshSend_only (s : State) (a : Acc) (fl : Flit) :
    Only 136705 s (State.meshSend s a fl).1 := by
  unfold State.meshSend
  repeat' first
    | ((fail_if_no_progress extract_lets +onlyGivenNames x); refine Only.letElim (x := x) ?_ (fun _ => ?_); (on_goal 1 => unfold x); (on_goal 2 => clear_value x))
    | ((fail_if_no_progress extract_lets +onlyGivenNames x); clear_value x)
    | (with_reducible first
        | exact Only.refl
        | assumption
        | refine (sendUnmapped_only _ _).after (by decide) ?_
        | refine (depart_only _ _).after (by decide) ?_
        | refine (flitEvents_only _ _).after (by decide) ?_
        | refine (setBuf_only _ _ _).after (by decide) ?_
        | refine Only.iteP ?_ ?_)

theorem meshFirst_only (fl : Flit) (y1 : List ℕ) (y2 : List ℕ) (y3 : State) :
    Only 136705 y3 (meshFirst fl y1 y2 y3).1 := by
  induction y1 generalizing fl y2 y3 with
  | nil =>
    unfold meshFirst
    exact Only.refl
  | cons a l ih =>
    unfold meshFirst
    repeat' first
      | ((fail_if_no_progress extract_lets +onlyGivenNames x); refine Only.letElim (x := x.1) ?_ (fun _ => ?_); (on_goal 1 => unfold x); (on_goal 2 => clear_value x))
      | (with_reducible first
          | exact Only.refl
          | assumption
          | refine (meshSend_only _ _ _).after (by decide) ?_
          | refine Only.iteP ?_ ?_
          | refine Only.trans ?_ (ih _ _ _))
      | split

theorem execMeshRequest_only (src : ℕ) (fl : Flit) (stuck : Bool) (s : State) :
    ∀ t', execMeshRequest src fl stuck s = .next t' → Only 1048573 s t' := by
  intro t' h
  unfold execMeshRequest at h
  injection h with h
  subst h
  repeat' first
    | ((fail_if_no_progress extract_lets +onlyGivenNames x); refine Only.letElim (x := x.1) ?_ (fun _ => ?_); (on_goal 1 => unfold x); (on_goal 2 => clear_value x))
    | (with_reducible first
        | exact Only.refl
        | assumption
        | refine (meshFirst_only _ _ _ _).after (by decide) ?_
        | refine (netMove_only _ _).after (by decide) ?_
        | refine Only.ite ?_ ?_)

theorem takeRsp_only (s : State) (src : ℕ) (tag : ℕ) (lat : ℕ) (r : Rsp) (fl : Flit) :
    Only 136705 s (State.takeRsp s src tag lat r fl) := by
  unfold State.takeRsp
  repeat' first
    | ((fail_if_no_progress extract_lets +onlyGivenNames x); refine Only.letElim (x := x) ?_ (fun _ => ?_); (on_goal 1 => unfold x); (on_goal 2 => clear_value x))
    | ((fail_if_no_progress extract_lets +onlyGivenNames x); clear_value x)
    | (with_reducible first
        | exact Only.refl
        | assumption
        | refine (histAdd_only _ _ _).after (by decide) ?_
        | refine (monAdd_only _ _).after (by decide) ?_
        | refine (iniStat_only _ _).after (by decide) ?_
        | refine (setTagAt_only _ _ _).after (by decide) ?_
        | refine (opVisible_only _ _ _).after (by decide) ?_
        | refine (deliver_only _ _ _).after (by decide) ?_
        | refine (meshStray_only _ _ _ _).after (by decide) ?_
        | refine Only.ite ?_ ?_)
    | split

theorem execMeshResponse_only (src : ℕ) (tag : ℕ) (lat : ℕ) (fl : Flit) (s : State) :
    ∀ t', execMeshResponse src tag lat fl s = .next t' → Only 1048573 s t' := by
  intro t' h
  unfold execMeshResponse at h
  injection h with h
  subst h
  repeat' first
    | ((fail_if_no_progress extract_lets +onlyGivenNames x); refine Only.letElim (x := x) ?_ (fun _ => ?_); (on_goal 1 => unfold x); (on_goal 2 => clear_value x))
    | ((fail_if_no_progress extract_lets +onlyGivenNames x); clear_value x)
    | (with_reducible first
        | exact Only.refl
        | assumption
        | refine (flitEvents_only _ _).after (by decide) ?_
        | refine (setMesh_only _ _).after (by decide) ?_
        | refine (settle_only _).after (by decide) ?_
        | refine (netMove_only _ _).after (by decide) ?_
        | refine (takeRsp_only _ _ _ _ _ _).after (by decide) ?_
        | refine Only.ite ?_ ?_)
    | split

theorem execIniTmo_only (src : ℕ) (tag : ℕ) (s : State) :
    ∀ t', execIniTmo src tag s = .next t' → Only 136705 s t' := by
  intro t' h
  unfold execIniTmo at h
  injection h with h
  subst h
  repeat' first
    | ((fail_if_no_progress extract_lets +onlyGivenNames x); refine Only.letElim (x := x) ?_ (fun _ => ?_); (on_goal 1 => unfold x); (on_goal 2 => clear_value x))
    | ((fail_if_no_progress extract_lets +onlyGivenNames x); clear_value x)
    | (with_reducible first
        | exact Only.refl
        | assumption
        | refine (meshErr_only _ _ _ _ _ _).after (by decide) ?_
        | refine (iniStat_only _ _).after (by decide) ?_
        | refine (setTagAt_only _ _ _).after (by decide) ?_
        | refine (histAdd_only _ _ _).after (by decide) ?_
        | refine (raise_only _ _).after (by decide) ?_
        | refine (opVisible_only _ _ _).after (by decide) ?_
        | refine (deliver_only _ _ _).after (by decide) ?_
        | refine Only.ite ?_ ?_)
    | split

theorem absorbWaits_only (s : State) (t : ℕ) :
    Only 1025 s (State.absorbWaits s t) := by
  unfold State.absorbWaits
  repeat' first
    | ((fail_if_no_progress extract_lets +onlyGivenNames x); refine Only.letElim (x := x) ?_ (fun _ => ?_); (on_goal 1 => unfold x); (on_goal 2 => clear_value x))
    | ((fail_if_no_progress extract_lets +onlyGivenNames x); clear_value x)
    | (with_reducible first
        | exact Only.refl
        | assumption
        | refine Only.each _ _ (fun _ _ => ?_) ?_
        | refine (setWaits_only _ _ _).after (by decide) ?_
        | refine (absorbAnswer_only _ _ _).after (by decide) ?_
        | refine (setMesh_only _ _).after (by decide) ?_)

theorem execAbsorb_only (t : ℕ) (s : State) :
    ∀ t', execAbsorb t s = .next t' → Only 1048573 s t' := by
  intro t' h
  unfold execAbsorb at h
  injection h with h
  subst h
  repeat' first
    | (with_reducible first
        | exact Only.refl
        | refine (netMove_only _ _).after (by decide) ?_
        | refine (absorbWaits_only _ _).after (by decide) ?_
        | refine (raise_only _ _).after (by decide) ?_
        | refine (meshErr_only _ _ _ _ _ _).after (by decide) ?_
        | refine (put_only _ _ _).after (by decide) ?_
        | refine Only.ite ?_ ?_)

theorem execMeshResume_only (t : ℕ) (s : State) :
    ∀ t', execMeshResume t s = .next t' → Only 1025 s t' := by
  intro t' h
  unfold execMeshResume at h
  injection h with h
  subst h
  repeat' first
    | (with_reducible first
        | exact Only.refl
        | refine (tgtResume_only _ _).after (by decide) ?_
        | refine Only.ite ?_ ?_)

theorem execMeshMonitorWindow_only (s : State) :
    ∀ t', execMeshMonitorWindow s = .next t' → Only 1025 s t' := by
  intro t' h
  unfold execMeshMonitorWindow at h
  injection h with h
  subst h
  repeat' first
    | ((fail_if_no_progress extract_lets +onlyGivenNames x); refine Only.letElim (x := x) ?_ (fun _ => ?_); (on_goal 1 => unfold x); (on_goal 2 => clear_value x))
    | ((fail_if_no_progress extract_lets +onlyGivenNames x); clear_value x)
    | (with_reducible first
        | exact Only.refl
        | assumption
        | refine Only.each _ _ (fun _ _ => ?_) ?_
        | refine (put_only _ _ _).after (by decide) ?_
        | refine (setMesh_only _ _).after (by decide) ?_)

theorem execClrHist_only (s : State) :
    ∀ t', execClrHist s = .next t' → Only 1 s t' := by
  intro t' h
  unfold execClrHist at h
  injection h with h
  subst h
  repeat' first
    | (with_reducible first
        | exact Only.refl
        | refine (clearHist_only _).after (by decide) ?_)

end Sys2Proof.Machine
end

