-- ==== Sys2Proof/Laws/OnlyHost.lean ====
section
/-! SUPPORT. Sys2Proof/Laws/OnlyHost.lean: what the operations of Machine/Host.lean leave alone (Laws/Only.lean): one lemma each. -/

set_option linter.unusedTactic false
set_option linter.tactic.unusedName false
set_option linter.unusedVariables false
set_option linter.unreachableTactic false

namespace Sys2Proof.Machine

theorem headerRead_only (s : State) (i : ℕ) :
    Only 131072 s (State.headerRead s i) := by
  unfold State.headerRead
  repeat' first
    | (with_reducible first
        | exact Only.refl
        | refine (hostCpl_only _ _ _).after (by decide) ?_
        | refine (freeNext_only _).after (by decide) ?_)
    | split

theorem execHostTlp_only (p : HostTlp) (s : State) :
    ∀ t', execHostTlp p s = .next t' → Only 999353 s t' := by
  intro t' h
  unfold execHostTlp at h
  injection h with h
  subst h
  repeat' first
    | ((fail_if_no_progress extract_lets +onlyGivenNames x); refine Only.letElim (x := x) ?_ (fun _ => ?_); (on_goal 1 => unfold x); (on_goal 2 => clear_value x))
    | ((fail_if_no_progress extract_lets +onlyGivenNames x); clear_value x)
    | (with_reducible first
        | exact Only.refl
        | assumption
        | refine (setHost_only _ _).after (by decide) ?_
        | refine (headerRead_only _ _).after (by decide) ?_
        | refine (hifBuf_only _ _ _).after (by decide) ?_
        | refine (aer_only _ _).after (by decide) ?_
        | refine (hostCpl_only _ _ _).after (by decide) ?_
        | refine (settle_only _).after (by decide) ?_
        | refine (tlpStart_only _ _ _ _ _ _ _ _ _).after (by decide) ?_
        | refine Only.ite ?_ ?_)
    | split

theorem hostDone_only (s : State) (what : HostWait) (ok : Bool) (ep : Bool) (data : ℕ) :
    Only 394785 s (State.hostDone s what ok ep data) := by
  unfold State.hostDone
  repeat' first
    | ((fail_if_no_progress extract_lets +onlyGivenNames x); refine Only.letElim (x := x) ?_ (fun _ => ?_); (on_goal 1 => unfold x); (on_goal 2 => clear_value x))
    | ((fail_if_no_progress extract_lets +onlyGivenNames x); clear_value x)
    | (with_reducible first
        | exact Only.refl
        | assumption
        | refine (cfgFail_only _ _ _ _).after (by decide) ?_
        | refine Only.when _ _ (fun _ => ?_) ?_
        | refine (hostSeen_only _ _ _).after (by decide) ?_
        | refine (put_only _ _ _).after (by decide) ?_
        | refine (descIssue_only _ _).after (by decide) ?_
        | refine (onDesc_only _ _ _).after (by decide) ?_
        | refine (descFail_only _ _ _ _).after (by decide) ?_
        | refine (advanceHead_only _ _ _).after (by decide) ?_
        | refine (setHost_only _ _).after (by decide) ?_
        | refine Only.ite ?_ ?_)
    | split

theorem execHostCompletion_only (what : HostWait) (ok : Bool) (ep : Bool) (data : ℕ) (up : HifUp) (s : State) :
    ∀ t', execHostCompletion what ok ep data up s = .next t' → Only 999353 s t' := by
  intro t' h
  unfold execHostCompletion at h
  injection h with h
  subst h
  repeat' first
    | ((fail_if_no_progress extract_lets +onlyGivenNames x); refine Only.letElim (x := x) ?_ (fun _ => ?_); (on_goal 1 => unfold x); (on_goal 2 => clear_value x))
    | ((fail_if_no_progress extract_lets +onlyGivenNames x); clear_value x)
    | (with_reducible first
        | exact Only.refl
        | assumption
        | refine (hifBuf_only _ _ _).after (by decide) ?_
        | refine (settle_only _).after (by decide) ?_
        | refine (hostDone_only _ _ _ _ _).after (by decide) ?_
        | refine Only.ite ?_ ?_)

theorem execHostTimeout_only (what : HostWait) (s : State) :
    ∀ t', execHostTimeout what s = .next t' → Only 995257 s t' := by
  intro t' h
  unfold execHostTimeout at h
  injection h with h
  subst h
  repeat' first
    | (with_reducible first
        | exact Only.refl
        | refine (settle_only _).after (by decide) ?_
        | refine (hostDone_only _ _ _ _ _).after (by decide) ?_)

theorem hotReset_only (s : State) :
    Only 995257 s (State.hotReset s) := by
  unfold State.hotReset
  repeat' first
    | ((fail_if_no_progress extract_lets +onlyGivenNames x); refine Only.letElim (x := x) ?_ (fun _ => ?_); (on_goal 1 => unfold x); (on_goal 2 => clear_value x))
    | (with_reducible first
        | exact Only.refl
        | assumption
        | refine (cfgFail_only _ _ _ _).after (by decide) ?_
        | refine (resetRegs_only _ _).after (by decide) ?_
        | refine (orderReset_only _ _).after (by decide) ?_
        | refine (initReset_only _ _).after (by decide) ?_
        | refine (put_only _ _ _).after (by decide) ?_
        | refine (setReg_only _ _ _).after (by decide) ?_
        | refine (setHost_only _ _).after (by decide) ?_
        | refine (settle_only _).after (by decide) ?_
        | refine (raise_only _ _).after (by decide) ?_
        | refine Only.ite ?_ ?_)

theorem execHotReset_only (s : State) :
    ∀ t', execHotReset s = .next t' → Only 995257 s t' := by
  intro t' h
  unfold execHotReset at h
  injection h with h
  subst h
  repeat' first
    | (with_reducible first
        | exact Only.refl
        | refine (hotReset_only _).after (by decide) ?_)

theorem execPcieLinkUp_only (speed : ℕ) (width : ℕ) (s : State) :
    ∀ t', execPcieLinkUp speed width s = .next t' → Only 132609 s t' := by
  intro t' h
  unfold execPcieLinkUp at h
  injection h with h
  subst h
  repeat' first
    | (with_reducible first
        | exact Only.refl
        | refine (raise_only _ _).after (by decide) ?_
        | refine (put_only _ _ _).after (by decide) ?_
        | refine Only.ite ?_ ?_)

theorem execLtrUpdate_only (snoop : ℕ) (noSnoop : ℕ) (enable : Bool) (s : State) :
    ∀ t', execLtrUpdate snoop noSnoop enable s = .next t' → Only 995257 s t' := by
  intro t' h
  unfold execLtrUpdate at h
  injection h with h
  subst h
  repeat' first
    | ((fail_if_no_progress extract_lets +onlyGivenNames x); refine Only.letElim (x := x) ?_ (fun _ => ?_); (on_goal 1 => unfold x); (on_goal 2 => clear_value x))
    | ((fail_if_no_progress extract_lets +onlyGivenNames x); clear_value x)
    | (with_reducible first
        | exact Only.refl
        | assumption
        | refine (setHost_only _ _).after (by decide) ?_
        | refine (put_only _ _ _).after (by decide) ?_
        | refine (settle_only _).after (by decide) ?_)

theorem execDeviceIrq_only (i : ℕ) (s : State) :
    ∀ t', execDeviceIrq i s = .next t' → Only 132609 s t' := by
  intro t' h
  unfold execDeviceIrq at h
  injection h with h
  subst h
  repeat' first
    | (with_reducible first
        | exact Only.refl
        | refine (raise_only _ _).after (by decide) ?_
        | refine Only.ite ?_ ?_)

theorem execMsixMessage_only (v : ℕ) (s : State) :
    ∀ t', execMsixMessage v s = .next t' → Only 131072 s t' := by
  intro t' h
  unfold execMsixMessage at h
  injection h with h
  subst h
  repeat' first
    | ((fail_if_no_progress extract_lets +onlyGivenNames x); clear_value x)
    | (with_reducible first
        | exact Only.refl
        | refine (setHost_only _ _).after (by decide) ?_
        | refine Only.ite ?_ ?_)

theorem execRingEnable_only (r : ℕ) (v : Word) (s : State) :
    ∀ t', execRingEnable r v s = .next t' → Only 131073 s t' := by
  intro t' h
  unfold execRingEnable at h
  injection h with h
  subst h
  repeat' first
    | (with_reducible first
        | exact Only.refl
        | refine (ringCfg_only _ _ _).after (by decide) ?_
        | refine Only.ite ?_ ?_)

theorem execRingDoorbell_only (r : ℕ) (v : ℕ) (s : State) :
    ∀ t', execRingDoorbell r v s = .next t' → Only 132609 s t' := by
  intro t' h
  unfold execRingDoorbell at h
  injection h with h
  subst h
  repeat' first
    | (with_reducible first
        | exact Only.refl
        | refine (ringBell_only _ _ _).after (by decide) ?_
        | refine Only.ite ?_ ?_)

theorem descBegin_only (s : State) (d : Desc) :
    Only 132096 s (State.descBegin s d) := by
  unfold State.descBegin
  repeat' first
    | ((fail_if_no_progress extract_lets +onlyGivenNames x); refine Only.letElim (x := x) ?_ (fun _ => ?_); (on_goal 1 => unfold x); (on_goal 2 => clear_value x))
    | ((fail_if_no_progress extract_lets +onlyGivenNames x); clear_value x)
    | (with_reducible first
        | exact Only.refl
        | assumption
        | refine (setHost_only _ _).after (by decide) ?_
        | refine (descIssue_only _ _).after (by decide) ?_
        | refine (hostOp_only _).after (by decide) ?_
        | refine Only.ite ?_ ?_)

theorem execDescriptorStart_only (r : ℕ) (fetched : Option (List ℕ)) (s : State) :
    ∀ t', execDescriptorStart r fetched s = .next t' → Only 132609 s t' := by
  intro t' h
  unfold execDescriptorStart at h
  injection h with h
  subst h
  repeat' first
    | ((fail_if_no_progress extract_lets +onlyGivenNames x); refine Only.letElim (x := x) ?_ (fun _ => ?_); (on_goal 1 => unfold x); (on_goal 2 => clear_value x))
    | ((fail_if_no_progress extract_lets +onlyGivenNames x); clear_value x)
    | (with_reducible first
        | exact Only.refl
        | assumption
        | refine (setHost_only _ _).after (by decide) ?_
        | refine (ringError_only _ _ _).after (by decide) ?_
        | refine (descBegin_only _ _).after (by decide) ?_
        | refine Only.ite ?_ ?_)
    | split

theorem descWritten_only (s : State) (d : Desc) :
    Only 131073 s (State.descWritten s d) := by
  unfold State.descWritten
  repeat' first
    | (with_reducible first
        | exact Only.refl
        | refine (advanceHead_only _ _ _).after (by decide) ?_
        | refine (onDesc_only _ _ _).after (by decide) ?_
        | refine Only.ite ?_ ?_)

theorem descRead_only (s : State) (d : Desc) (up : HifUp) :
    Only 136705 s (State.descRead s d up) := by
  unfold State.descRead
  repeat' first
    | ((fail_if_no_progress extract_lets +onlyGivenNames x); refine Only.letElim (x := x) ?_ (fun _ => ?_); (on_goal 1 => unfold x); (on_goal 2 => clear_value x))
    | ((fail_if_no_progress extract_lets +onlyGivenNames x); clear_value x)
    | (with_reducible first
        | exact Only.refl
        | assumption
        | refine Only.when _ _ (fun _ => ?_) ?_
        | refine (hifBuf_only _ _ _).after (by decide) ?_
        | refine (put_only _ _ _).after (by decide) ?_
        | refine (descFail_only _ _ _ _).after (by decide) ?_
        | refine (hostOp_only _).after (by decide) ?_
        | refine (hostWrite_only _ _ _ _ _).after (by decide) ?_
        | refine (onDesc_only _ _ _).after (by decide) ?_
        | refine (advanceHead_only _ _ _).after (by decide) ?_
        | refine Only.ite ?_ ?_)

theorem execDescriptorComplete_only (r : ℕ) (up : HifUp) (s : State) :
    ∀ t', execDescriptorComplete r up s = .next t' → Only 999353 s t' := by
  intro t' h
  unfold execDescriptorComplete at h
  injection h with h
  subst h
  repeat' first
    | (with_reducible first
        | exact Only.refl
        | refine (settle_only _).after (by decide) ?_
        | refine (descRead_only _ _ _).after (by decide) ?_
        | refine (descWritten_only _ _).after (by decide) ?_
        | refine Only.ite ?_ ?_)
    | split

end Sys2Proof.Machine
end

