-- ==== Sys2Proof/Laws/OnlyScan.lean ====
section
/-! SUPPORT. Sys2Proof/Laws/OnlyScan.lean: what the operations of Machine/Scan.lean leave alone (Laws/Only.lean): one lemma each. -/

set_option linter.unusedTactic false
set_option linter.tactic.unusedName false
set_option linter.unusedVariables false
set_option linter.unreachableTactic false

namespace Sys2Proof.Machine

theorem ballsTake_only (s : State) :
    Only 995257 s (State.ballsTake s) := by
  unfold State.ballsTake
  repeat' first
    | ((fail_if_no_progress extract_lets +onlyGivenNames x); refine Only.letElim (x := x) ?_ (fun _ => ?_); (on_goal 1 => unfold x); (on_goal 2 => clear_value x))
    | (with_reducible first
        | exact Only.refl
        | assumption
        | refine Only.each _ _ (fun _ _ => ?_) ?_
        | refine (put_only _ _ _).after (by decide) ?_
        | refine (portDown_only _ _ _).after (by decide) ?_
        | refine Only.when _ _ (fun _ => ?_) ?_
        | refine (latSettle_only _).after (by decide) ?_
        | refine (hotReset_only _).after (by decide) ?_
        | refine Only.ite ?_ ?_)

theorem ballsReturn_only (s : State) :
    Only 657281 s (State.ballsReturn s) := by
  unfold State.ballsReturn
  repeat' first
    | ((fail_if_no_progress extract_lets +onlyGivenNames x); refine Only.letElim (x := x) ?_ (fun _ => ?_); (on_goal 1 => unfold x); (on_goal 2 => clear_value x))
    | ((fail_if_no_progress extract_lets +onlyGivenNames x); clear_value x)
    | (with_reducible first
        | exact Only.refl
        | assumption
        | refine (pinFollow_only _ _).after (by decide) ?_
        | refine (setPin_only _ _).after (by decide) ?_
        | refine Only.each _ _ (fun _ _ => ?_) ?_
        | refine (portSync_only _ _).after (by decide) ?_)

theorem scanSel_only (s : State) (ir : ℕ) :
    Only 1028025 s (State.scanSel s ir) := by
  unfold State.scanSel
  repeat' first
    | ((fail_if_no_progress extract_lets +onlyGivenNames x); refine Only.letElim (x := x) ?_ (fun _ => ?_); (on_goal 1 => unfold x); (on_goal 2 => clear_value x))
    | ((fail_if_no_progress extract_lets +onlyGivenNames x); clear_value x)
    | (with_reducible first
        | exact Only.refl
        | assumption
        | refine (setScan_only _ _).after (by decide) ?_
        | refine (ballsTake_only _).after (by decide) ?_
        | refine (pinFollow_only _ _).after (by decide) ?_
        | refine (setPin_only _ _).after (by decide) ?_
        | refine (ballsReturn_only _).after (by decide) ?_
        | refine Only.ite ?_ ?_)

theorem scanIr_only (s : State) (ir : ℕ) :
    Only 1028025 s (State.scanIr s ir) := by
  unfold State.scanIr
  repeat' first
    | ((fail_if_no_progress extract_lets +onlyGivenNames x); clear_value x)
    | (with_reducible first
        | exact Only.refl
        | refine (scanSel_only _ _).after (by decide) ?_
        | refine (setScan_only _ _).after (by decide) ?_)

theorem scanDr_only (s : State) (v : ℕ) :
    Only 32768 s (State.scanDr s v) := by
  unfold State.scanDr
  repeat' first
    | ((fail_if_no_progress extract_lets +onlyGivenNames x); clear_value x)
    | (with_reducible first
        | exact Only.refl
        | refine (setScan_only _ _).after (by decide) ?_)

theorem bsrScan_only (s : State) (v : ℕ) (env : ℕ) :
    Only 689665 s (State.bsrScan s v env) := by
  unfold State.bsrScan
  repeat' first
    | ((fail_if_no_progress extract_lets +onlyGivenNames x); refine Only.letElim (x := x) ?_ (fun _ => ?_); (on_goal 1 => unfold x); (on_goal 2 => clear_value x))
    | ((fail_if_no_progress extract_lets +onlyGivenNames x); clear_value x)
    | (with_reducible first
        | exact Only.refl
        | assumption
        | refine (setScan_only _ _).after (by decide) ?_
        | refine (pinFollow_only _ _).after (by decide) ?_
        | refine (setPin_only _ _).after (by decide) ?_
        | refine Only.ite ?_ ?_)

theorem execTestLogicReset_only (s : State) :
    ∀ t', execTestLogicReset s = .next t' → Only 1028025 s t' := by
  intro t' h
  unfold execTestLogicReset at h
  injection h with h
  subst h
  repeat' first
    | (with_reducible first
        | exact Only.refl
        | refine (settle_only _).after (by decide) ?_
        | refine (scanDr_only _ _).after (by decide) ?_
        | refine (scanSel_only _ _).after (by decide) ?_)

theorem execExtest_only (v : ℕ) (env : ℕ) (s : State) :
    ∀ t', execExtest v env s = .next t' → Only 1028025 s t' := by
  intro t' h
  unfold execExtest at h
  injection h with h
  subst h
  repeat' first
    | (with_reducible first
        | exact Only.refl
        | refine (settle_only _).after (by decide) ?_
        | refine (bsrScan_only _ _ _).after (by decide) ?_
        | refine (scanIr_only _ _).after (by decide) ?_)

theorem execSamplePreload_only (v : ℕ) (env : ℕ) (s : State) :
    ∀ t', execSamplePreload v env s = .next t' → Only 1028025 s t' := by
  intro t' h
  unfold execSamplePreload at h
  injection h with h
  subst h
  repeat' first
    | (with_reducible first
        | exact Only.refl
        | refine (settle_only _).after (by decide) ?_
        | refine (bsrScan_only _ _ _).after (by decide) ?_
        | refine (scanIr_only _ _).after (by decide) ?_)

theorem execExtestPulse_only (v : ℕ) (env : ℕ) (s : State) :
    ∀ t', execExtestPulse v env s = .next t' → Only 1028025 s t' := by
  intro t' h
  unfold execExtestPulse at h
  injection h with h
  subst h
  repeat' first
    | (with_reducible first
        | exact Only.refl
        | refine (settle_only _).after (by decide) ?_
        | refine (bsrScan_only _ _ _).after (by decide) ?_
        | refine (scanIr_only _ _).after (by decide) ?_)

theorem execExtestTrain_only (v : ℕ) (env : ℕ) (s : State) :
    ∀ t', execExtestTrain v env s = .next t' → Only 1028025 s t' := by
  intro t' h
  unfold execExtestTrain at h
  injection h with h
  subst h
  repeat' first
    | (with_reducible first
        | exact Only.refl
        | refine (settle_only _).after (by decide) ?_
        | refine (bsrScan_only _ _ _).after (by decide) ?_
        | refine (scanIr_only _ _).after (by decide) ?_)

theorem execIdcode_only (s : State) :
    ∀ t', execIdcode s = .next t' → Only 1028025 s t' := by
  intro t' h
  unfold execIdcode at h
  injection h with h
  subst h
  repeat' first
    | (with_reducible first
        | exact Only.refl
        | refine (settle_only _).after (by decide) ?_
        | refine (scanDr_only _ _).after (by decide) ?_
        | refine (scanIr_only _ _).after (by decide) ?_)

theorem execClamp_only (s : State) :
    ∀ t', execClamp s = .next t' → Only 1028025 s t' := by
  intro t' h
  unfold execClamp at h
  injection h with h
  subst h
  repeat' first
    | (with_reducible first
        | exact Only.refl
        | refine (settle_only _).after (by decide) ?_
        | refine (scanDr_only _ _).after (by decide) ?_
        | refine (scanIr_only _ _).after (by decide) ?_)

theorem execHighz_only (s : State) :
    ∀ t', execHighz s = .next t' → Only 1028025 s t' := by
  intro t' h
  unfold execHighz at h
  injection h with h
  subst h
  repeat' first
    | (with_reducible first
        | exact Only.refl
        | refine (settle_only _).after (by decide) ?_
        | refine (scanDr_only _ _).after (by decide) ?_
        | refine (scanIr_only _ _).after (by decide) ?_)

theorem execBypass_only (code : ℕ) (s : State) :
    ∀ t', execBypass code s = .next t' → Only 1028025 s t' := by
  intro t' h
  unfold execBypass at h
  injection h with h
  subst h
  repeat' first
    | (with_reducible first
        | exact Only.refl
        | refine (settle_only _).after (by decide) ?_
        | refine (scanDr_only _ _).after (by decide) ?_
        | refine (scanIr_only _ _).after (by decide) ?_)

theorem execDbgReg_only (s : State) :
    ∀ t', execDbgReg s = .next t' → Only 1028025 s t' := by
  intro t' h
  unfold execDbgReg at h
  injection h with h
  subst h
  repeat' first
    | ((fail_if_no_progress extract_lets +onlyGivenNames x); refine Only.letElim (x := x) ?_ (fun _ => ?_); (on_goal 1 => unfold x); (on_goal 2 => clear_value x))
    | (with_reducible first
        | exact Only.refl
        | assumption
        | refine (scanIr_only _ _).after (by decide) ?_
        | refine (settle_only _).after (by decide) ?_
        | refine (scanDr_only _ _).after (by decide) ?_)

theorem execAuth_only (s : State) :
    ∀ t', execAuth s = .next t' → Only 1028025 s t' := by
  intro t' h
  unfold execAuth at h
  injection h with h
  subst h
  repeat' first
    | ((fail_if_no_progress extract_lets +onlyGivenNames x); refine Only.letElim (x := x) ?_ (fun _ => ?_); (on_goal 1 => unfold x); (on_goal 2 => clear_value x))
    | (with_reducible first
        | exact Only.refl
        | assumption
        | refine (scanIr_only _ _).after (by decide) ?_
        | refine (settle_only _).after (by decide) ?_
        | refine (authCapture_only _).after (by decide) ?_
        | refine (scanDr_only _ _).after (by decide) ?_
        | refine Only.ite ?_ ?_)

theorem execCfgData_only (s : State) :
    ∀ t', execCfgData s = .next t' → Only 1028025 s t' := by
  intro t' h
  unfold execCfgData at h
  injection h with h
  subst h
  repeat' first
    | ((fail_if_no_progress extract_lets +onlyGivenNames x); refine Only.letElim (x := x) ?_ (fun _ => ?_); (on_goal 1 => unfold x); (on_goal 2 => clear_value x))
    | (with_reducible first
        | exact Only.refl
        | assumption
        | refine (scanIr_only _ _).after (by decide) ?_
        | refine (settle_only _).after (by decide) ?_
        | refine (scanDr_only _ _).after (by decide) ?_)

theorem execCfgDataWord_only (w : Word) (s : State) :
    ∀ t', execCfgDataWord w s = .next t' → Only 1028025 s t' := by
  intro t' h
  unfold execCfgDataWord at h
  injection h with h
  subst h
  repeat' first
    | ((fail_if_no_progress extract_lets +onlyGivenNames x); refine Only.letElim (x := x) ?_ (fun _ => ?_); (on_goal 1 => unfold x); (on_goal 2 => clear_value x))
    | ((fail_if_no_progress extract_lets +onlyGivenNames x); clear_value x)
    | (with_reducible first
        | exact Only.refl
        | assumption
        | refine (scanDr_only _ _).after (by decide) ?_
        | refine (setScan_only _ _).after (by decide) ?_
        | refine (settle_only _).after (by decide) ?_
        | refine (cfgFail_only _ _ _ _).after (by decide) ?_
        | refine Only.ite ?_ ?_)

theorem dbgIssue_only (s : State) :
    Only 33792 s (State.dbgIssue s) := by
  unfold State.dbgIssue
  repeat' first
    | ((fail_if_no_progress extract_lets +onlyGivenNames x); clear_value x)
    | (with_reducible first
        | exact Only.refl
        | refine (meshQueue_only _ _ _ (by assumption)).after (by decide) ?_
        | refine (setScan_only _ _).after (by decide) ?_)
    | split

theorem dbgAccess_only (s : State) (write : Bool) (consume : Bool) (addr : ℕ) (v : Word) :
    Only 33792 s (State.dbgAccess s write consume addr v) := by
  unfold State.dbgAccess
  repeat' first
    | ((fail_if_no_progress extract_lets +onlyGivenNames x); clear_value x)
    | (with_reducible first
        | exact Only.refl
        | refine (setScan_only _ _).after (by decide) ?_
        | refine (dbgIssue_only _).after (by decide) ?_
        | refine Only.ite ?_ ?_)

theorem execDebugRead_only (addr : ℕ) (consume : Bool) (s : State) :
    ∀ t', execDebugRead addr consume s = .next t' → Only 33792 s t' := by
  intro t' h
  unfold execDebugRead at h
  injection h with h
  subst h
  repeat' first
    | (with_reducible first
        | exact Only.refl
        | refine (dbgAccess_only _ _ _ _ _).after (by decide) ?_)

theorem execDebugWrite_only (addr : ℕ) (consume : Bool) (v : Word) (s : State) :
    ∀ t', execDebugWrite addr consume v s = .next t' → Only 33792 s t' := by
  intro t' h
  unfold execDebugWrite at h
  injection h with h
  subst h
  repeat' first
    | (with_reducible first
        | exact Only.refl
        | refine (dbgAccess_only _ _ _ _ _).after (by decide) ?_)

theorem dbgTake_only (s : State) (a : Acc) (r : Rsp) :
    Only 32768 s (State.dbgTake s a r) := by
  unfold State.dbgTake
  repeat' first
    | ((fail_if_no_progress extract_lets +onlyGivenNames x); clear_value x)
    | (with_reducible first
        | exact Only.refl
        | refine (setScan_only _ _).after (by decide) ?_)

theorem execDebugAccessDone_only (s : State) :
    ∀ t', execDebugAccessDone s = .next t' → Only 33792 s t' := by
  intro t' h
  unfold execDebugAccessDone at h
  injection h with h
  subst h
  repeat' first
    | (with_reducible first
        | exact Only.refl
        | refine (takeInbox_only _ _ _ _ _ _ (by assumption)).after (by decide) ?_
        | refine (dbgTake_only _ _ _).after (by decide) ?_)
    | split

end Sys2Proof.Machine
end

