-- ==== Sys2Proof/Laws/OnlyTables.lean ====
section
/-! SUPPORT. Sys2Proof/Laws/OnlyTables.lean: what the operations of Machine/Tables.lean leave alone (Laws/Only.lean): one lemma each. -/

set_option linter.unusedTactic false
set_option linter.tactic.unusedName false
set_option linter.unusedVariables false
set_option linter.unreachableTactic false

namespace Sys2Proof.Machine

theorem tableWord_only (s : State) (op : ℕ) (a : ℕ) (v : Word) :
    ∀ t, State.tableWord s op a v = some t → Only 1048573 s t := by
  intro t h
  unfold State.tableWord at h
  try dsimp only at h
  repeat' split at h
  all_goals first
    | contradiction
    | (injection h with h; subst h
       repeat' first
         | (with_reducible first
             | exact Only.refl
             | refine (setCall_only _ _).after (by decide) ?_
             | refine ((hubPut_only _ _ _ _).of_eq (by assumption)).after (by decide) ?_))

theorem tableWords_only (op a : Nat) (l : List Word) (s : State) : ∀ t, tableWords op a l s = some t → Only 1048573 s t := by
  induction l generalizing a s with
  | nil => intro t h; injection h with h; subst h; exact Only.refl
  | cons v l ih =>
    intro t h
    obtain ⟨u, hu, ht⟩ := Option.bind_eq_some_iff.1 h
    exact ((tableWord_only _ _ _ _ _ hu).mono (by decide)).trans (ih _ _ _ ht)

theorem execWriteRecord_only (s : State) :
    ∀ t', execWriteRecord s = .next t' → Only 1048573 s t' := by
  intro t' h
  unfold execWriteRecord at h
  injection h with h
  subst h
  repeat' first
    | ((fail_if_no_progress extract_lets +onlyGivenNames x); clear_value x)
    | (with_reducible first
        | exact Only.refl
        | refine (tableWords_only _ _ _ _ _ (by assumption)).after (by decide) ?_
        | refine (settle_only _).after (by decide) ?_
        | refine (heldWake_only _).after (by decide) ?_
        | refine (setCfg_only _ _).after (by decide) ?_
        | refine Only.ite ?_ ?_)
    | split

end Sys2Proof.Machine
end

