-- ==== Sys2Proof/Laws/OnlyReset.lean ====
section
/-! SUPPORT. Sys2Proof/Laws/OnlyReset.lean: what the operations of Machine/Reset.lean leave alone (Laws/Only.lean): one lemma each. -/

set_option linter.unusedTactic false
set_option linter.tactic.unusedName false
set_option linter.unusedVariables false
set_option linter.unreachableTactic false

namespace Sys2Proof.Machine

theorem fuseLoad_only (s : State) (boot : ℕ) (pull : ℕ) :
    Only 1 s (State.fuseLoad s boot pull) := by
  unfold State.fuseLoad
  repeat' first
    | ((fail_if_no_progress extract_lets +onlyGivenNames x); refine Only.letElim (x := x) ?_ (fun _ => ?_); (on_goal 1 => unfold x); (on_goal 2 => clear_value x))
    | ((fail_if_no_progress extract_lets +onlyGivenNames x); clear_value x)
    | (with_reducible first
        | exact Only.refl
        | assumption
        | refine (put_only _ _ _).after (by decide) ?_
        | refine (fuseShow_only _).after (by decide) ?_)

theorem porBase_only (s : State) : Only 1048575 s s.porBase where
  queue := rfl
  regsOk := fun _ => mwf_nil _
  wordsOk := fun _ => mwf_nil _
  fusesOk := Fuses.Grows.refl _
  regs := fun h => absurd h (by decide)
  fig := fun h => absurd h (by decide)
  round := fun h => absurd h (by decide)
  fab := fun h => absurd h (by decide)
  clk := fun h => absurd h (by decide)
  cfg := fun h => absurd h (by decide)
  call := fun h => absurd h (by decide)
  lat := fun h => absurd h (by decide)
  port := fun h => absurd h (by decide)
  tail := fun h => absurd h (by decide)
  mesh := fun h => absurd h (by decide)
  hbm := fun h => absurd h (by decide)
  intg := fun h => absurd h (by decide)
  core := fun h => absurd h (by decide)
  sem := fun h => absurd h (by decide)
  scan := fun h => absurd h (by decide)
  bal := fun h => absurd h (by decide)
  host := fun h => absurd h (by decide)
  sec := fun h => absurd h (by decide)
  pin := fun h => absurd h (by decide)

theorem execPor_only (boot : ℕ) (pull : ℕ) (fuseErr : Bool) (s : State) :
    ∀ t', execPor boot pull fuseErr s = .next t' → Only 1048575 s t' := by
  intro t' h
  unfold execPor at h
  injection h with h
  subst h
  repeat' first
    | ((fail_if_no_progress extract_lets +onlyGivenNames x); (try unfold x); clear x)
    | (with_reducible first
        | exact Only.refl
        | refine (settle_only _).after (by decide) ?_
        | refine Only.when _ _ (fun _ => ?_) ?_
        | refine (fuseLoad_only _ _ _).after (by decide) ?_
        | refine (porBase_only _).after (by decide) ?_
        | refine (raiseAlarm_only _ _).after (by decide) ?_
        | refine (setSec_only _ _ (by exact Fuses.Grows.refl _)).after (by decide) ?_)

end Sys2Proof.Machine
end

