-- ==== Sys2Proof/Laws/OnlyTick.lean ====
section
/-! SUPPORT. Sys2Proof/Laws/OnlyTick.lean: what the operations of Machine/Tick.lean leave alone (Laws/Only.lean): one lemma each. -/

set_option linter.unusedTactic false
set_option linter.tactic.unusedName false
set_option linter.unusedVariables false
set_option linter.unreachableTactic false

namespace Sys2Proof.Machine

theorem tickCounts_only (s : State) :
    Only 194 s (State.tickCounts s) := by
  unfold State.tickCounts
  repeat' first
    | ((fail_if_no_progress extract_lets +onlyGivenNames x); refine Only.letElim (x := x) ?_ (fun _ => ?_); (on_goal 1 => unfold x); (on_goal 2 => clear_value x))
    | ((fail_if_no_progress extract_lets +onlyGivenNames x); clear_value x)
    | (with_reducible first
        | exact Only.refl
        | assumption
        | refine Only.when _ _ (fun _ => ?_) ?_
        | refine (setLat_only _ _).after (by decide) ?_
        | refine (setCall_only _ _).after (by decide) ?_)
    | (with_reducible refine (Only.upd_fig _).after (by decide) ?_)

theorem ringDrain1_only (s : State) (k : ℕ) :
    Only 400897 s (State.ringDrain1 s k) := by
  unfold State.ringDrain1
  repeat' first
    | ((fail_if_no_progress extract_lets +onlyGivenNames x); refine Only.letElim (x := x.1) ?_ (fun _ => ?_); (on_goal 1 => unfold x); (on_goal 2 => clear_value x))
    | ((fail_if_no_progress extract_lets +onlyGivenNames x); clear_value x)
    | (with_reducible first
        | exact Only.refl
        | assumption
        | refine (bufOut_only _ _ _ _).after (by decide) ?_
        | refine (setTail_only _ _).after (by decide) ?_
        | refine (ringStore_only _ _ _ _).after (by decide) ?_)
    | split

theorem ringDrain_only (s : State) :
    Only 400897 s (State.ringDrain s) := by
  unfold State.ringDrain
  repeat' first
    | ((fail_if_no_progress extract_lets +onlyGivenNames x); clear_value x)
    | (with_reducible first
        | exact Only.refl
        | refine Only.each _ _ (fun _ _ => ?_) ?_
        | refine (ringDrain1_only _ _).after (by decide) ?_
        | refine Only.ite ?_ ?_)

theorem trigArms_only (s : State) :
    Only 513 s (State.trigArms s) := by
  unfold State.trigArms
  repeat' first
    | ((fail_if_no_progress extract_lets +onlyGivenNames x); clear_value x)
    | (with_reducible first
        | exact Only.refl
        | refine (setTail_only _ _).after (by decide) ?_
        | refine Only.each _ _ (fun _ _ => ?_) ?_
        | refine (trigArm_only _ _).after (by decide) ?_)

theorem tickBuffers_only (s : State) :
    Only 1048573 s (State.tickBuffers s) := by
  unfold State.tickBuffers
  repeat' first
    | ((fail_if_no_progress extract_lets +onlyGivenNames x); refine Only.letElim (x := x) ?_ (fun _ => ?_); (on_goal 1 => unfold x); (on_goal 2 => clear_value x))
    | ((fail_if_no_progress extract_lets +onlyGivenNames x); clear_value x)
    | (with_reducible first
        | exact Only.refl
        | assumption
        | refine (listCopy_only _).after (by decide) ?_
        | refine (ringDrain_only _).after (by decide) ?_
        | refine (traceStore_only _).after (by decide) ?_
        | refine (setScan_only _ _).after (by decide) ?_
        | refine (netMove_only _ _).after (by decide) ?_
        | refine (dbgIssue_only _).after (by decide) ?_)

theorem tickPorts_only (s : State) :
    Only 407533 s (State.tickPorts s) := by
  unfold State.tickPorts
  repeat' first
    | (with_reducible first
        | exact Only.refl
        | refine (txTick_only _).after (by decide) ?_
        | refine (latPump_only _).after (by decide) ?_
        | refine Only.each _ _ (fun _ _ => ?_) ?_
        | refine (ulTurn_only _ _).after (by decide) ?_)

theorem coreEdge_only (s : State) (c : ℕ) :
    Only 403081 s (State.coreEdge s c) := by
  unfold State.coreEdge
  repeat' first
    | ((fail_if_no_progress extract_lets +onlyGivenNames x); refine Only.letElim (x := x) ?_ (fun _ => ?_); (on_goal 1 => unfold x); (on_goal 2 => clear_value x))
    | ((fail_if_no_progress extract_lets +onlyGivenNames x); (fail_if_success (have := fun y => x y)); (fail_if_success (have : CRes := x)); (fail_if_success (have : Security := x)); (fail_if_success (have : Hbm := x)); (fail_if_success (have : Option State := x)); clear_value x)
    | ((fail_if_no_progress extract_lets +onlyGivenNames x); (try unfold x); clear x)
    | (with_reducible first
        | exact Only.refl
        | assumption
        | refine (coreReset_only _ _ _ _).after (by decide) ?_
        | refine (setCore_only _ _ _).after (by decide) ?_
        | refine (wdtTick_only _ _).after (by decide) ?_
        | refine (cntTake_only _ _ _).after (by decide) ?_
        | refine Only.ite ?_ ?_)

theorem tickStanding_only (s : State) :
    Only 466473 s (State.tickStanding s) := by
  unfold State.tickStanding
  repeat' first
    | ((fail_if_no_progress extract_lets +onlyGivenNames x); refine Only.letElim (x := x) ?_ (fun _ => ?_); (on_goal 1 => unfold x); (on_goal 2 => clear_value x))
    | ((fail_if_no_progress extract_lets +onlyGivenNames x); clear_value x)
    | (with_reducible first
        | exact Only.refl
        | assumption
        | refine Only.when _ _ (fun _ => ?_) ?_
        | refine (balSettle_only _).after (by decide) ?_
        | refine (blankBay_only _ _).after (by decide) ?_
        | refine (setCfg_only _ _).after (by decide) ?_
        | refine (raiseAlarm_only _ _).after (by decide) ?_
        | refine Only.ite ?_ ?_)
    | split

theorem tick_only (s : State) :
    Only 1048575 s (State.tick s) := by
  unfold State.tick
  repeat' first
    | ((fail_if_no_progress extract_lets +onlyGivenNames x); refine Only.letElim (x := x) ?_ (fun _ => ?_); (on_goal 1 => unfold x); (on_goal 2 => clear_value x))
    | ((fail_if_no_progress extract_lets +onlyGivenNames x); clear_value x)
    | (with_reducible first
        | exact Only.refl
        | assumption
        | refine (cntEdge_only _).after (by decide) ?_
        | refine (trigArms_only _).after (by decide) ?_
        | refine (setTail_only _ _).after (by decide) ?_
        | refine (tickPorts_only _).after (by decide) ?_
        | refine (tickBuffers_only _).after (by decide) ?_
        | refine (tickCounts_only _).after (by decide) ?_
        | refine (tickStanding_only _).after (by decide) ?_
        | refine (settle_only _).after (by decide) ?_
        | refine Only.each _ _ (fun _ _ => ?_) ?_
        | refine (coreEdge_only _ _).after (by decide) ?_
        | refine Only.ite ?_ ?_)

end Sys2Proof.Machine
end

