-- ==== Sys2Proof/Laws/State.lean ====
section
/-! SUPPORT. Sys2Proof/Laws/State.lean: one lemma per field per update of the state, true by rfl, and what reads a register or a field after a
write of one. -/

namespace Sys2Proof.Machine

variable (s : State)

@[simp] theorem State.setFab_pending (x : Fabric) : (s.setFab x).pending = s.pending := rfl
@[simp] theorem State.setFab_regs (x : Fabric) : (s.setFab x).regs = s.regs := rfl
@[simp] theorem State.setFab_fig (x : Fabric) : (s.setFab x).fig = s.fig := rfl
@[simp] theorem State.setFab_round (x : Fabric) : (s.setFab x).round = s.round := rfl
@[simp] theorem State.setFab_free (x : Fabric) : (s.setFab x).free = s.free := rfl
@[simp] theorem State.setFab_fab (x : Fabric) : (s.setFab x).fab = x := rfl
@[simp] theorem State.setFab_clk (x : Fabric) : (s.setFab x).clk = s.clk := rfl
@[simp] theorem State.setFab_cfg (x : Fabric) : (s.setFab x).cfg = s.cfg := rfl
@[simp] theorem State.setFab_call (x : Fabric) : (s.setFab x).call = s.call := rfl
@[simp] theorem State.setFab_lat (x : Fabric) : (s.setFab x).lat = s.lat := rfl
@[simp] theorem State.setFab_port (x : Fabric) : (s.setFab x).port = s.port := rfl
@[simp] theorem State.setFab_tail (x : Fabric) : (s.setFab x).tail = s.tail := rfl
@[simp] theorem State.setFab_mesh (x : Fabric) : (s.setFab x).mesh = s.mesh := rfl
@[simp] theorem State.setFab_hbm (x : Fabric) : (s.setFab x).hbm = s.hbm := rfl
@[simp] theorem State.setFab_intg (x : Fabric) : (s.setFab x).intg = s.intg := rfl
@[simp] theorem State.setFab_core (x : Fabric) : (s.setFab x).core = s.core := rfl
@[simp] theorem State.setFab_sem (x : Fabric) : (s.setFab x).sem = s.sem := rfl
@[simp] theorem State.setFab_scan (x : Fabric) : (s.setFab x).scan = s.scan := rfl
@[simp] theorem State.setFab_bal (x : Fabric) : (s.setFab x).bal = s.bal := rfl
@[simp] theorem State.setFab_host (x : Fabric) : (s.setFab x).host = s.host := rfl
@[simp] theorem State.setFab_sec (x : Fabric) : (s.setFab x).sec = s.sec := rfl
@[simp] theorem State.setFab_pin (x : Fabric) : (s.setFab x).pin = s.pin := rfl

@[simp] theorem State.setClk_pending (x : Clk) : (s.setClk x).pending = s.pending := rfl
@[simp] theorem State.setClk_regs (x : Clk) : (s.setClk x).regs = s.regs := rfl
@[simp] theorem State.setClk_fig (x : Clk) : (s.setClk x).fig = s.fig := rfl
@[simp] theorem State.setClk_round (x : Clk) : (s.setClk x).round = s.round := rfl
@[simp] theorem State.setClk_free (x : Clk) : (s.setClk x).free = s.free := rfl
@[simp] theorem State.setClk_fab (x : Clk) : (s.setClk x).fab = s.fab := rfl
@[simp] theorem State.setClk_clk (x : Clk) : (s.setClk x).clk = x := rfl
@[simp] theorem State.setClk_cfg (x : Clk) : (s.setClk x).cfg = s.cfg := rfl
@[simp] theorem State.setClk_call (x : Clk) : (s.setClk x).call = s.call := rfl
@[simp] theorem State.setClk_lat (x : Clk) : (s.setClk x).lat = s.lat := rfl
@[simp] theorem State.setClk_port (x : Clk) : (s.setClk x).port = s.port := rfl
@[simp] theorem State.setClk_tail (x : Clk) : (s.setClk x).tail = s.tail := rfl
@[simp] theorem State.setClk_mesh (x : Clk) : (s.setClk x).mesh = s.mesh := rfl
@[simp] theorem State.setClk_hbm (x : Clk) : (s.setClk x).hbm = s.hbm := rfl
@[simp] theorem State.setClk_intg (x : Clk) : (s.setClk x).intg = s.intg := rfl
@[simp] theorem State.setClk_core (x : Clk) : (s.setClk x).core = s.core := rfl
@[simp] theorem State.setClk_sem (x : Clk) : (s.setClk x).sem = s.sem := rfl
@[simp] theorem State.setClk_scan (x : Clk) : (s.setClk x).scan = s.scan := rfl
@[simp] theorem State.setClk_bal (x : Clk) : (s.setClk x).bal = s.bal := rfl
@[simp] theorem State.setClk_host (x : Clk) : (s.setClk x).host = s.host := rfl
@[simp] theorem State.setClk_sec (x : Clk) : (s.setClk x).sec = s.sec := rfl
@[simp] theorem State.setClk_pin (x : Clk) : (s.setClk x).pin = s.pin := rfl

@[simp] theorem State.setCfg_pending (x : Cfg) : (s.setCfg x).pending = s.pending := rfl
@[simp] theorem State.setCfg_regs (x : Cfg) : (s.setCfg x).regs = s.regs := rfl
@[simp] theorem State.setCfg_fig (x : Cfg) : (s.setCfg x).fig = s.fig := rfl
@[simp] theorem State.setCfg_round (x : Cfg) : (s.setCfg x).round = s.round := rfl
@[simp] theorem State.setCfg_free (x : Cfg) : (s.setCfg x).free = s.free := rfl
@[simp] theorem State.setCfg_fab (x : Cfg) : (s.setCfg x).fab = s.fab := rfl
@[simp] theorem State.setCfg_clk (x : Cfg) : (s.setCfg x).clk = s.clk := rfl
@[simp] theorem State.setCfg_cfg (x : Cfg) : (s.setCfg x).cfg = x := rfl
@[simp] theorem State.setCfg_call (x : Cfg) : (s.setCfg x).call = s.call := rfl
@[simp] theorem State.setCfg_lat (x : Cfg) : (s.setCfg x).lat = s.lat := rfl
@[simp] theorem State.setCfg_port (x : Cfg) : (s.setCfg x).port = s.port := rfl
@[simp] theorem State.setCfg_tail (x : Cfg) : (s.setCfg x).tail = s.tail := rfl
@[simp] theorem State.setCfg_mesh (x : Cfg) : (s.setCfg x).mesh = s.mesh := rfl
@[simp] theorem State.setCfg_hbm (x : Cfg) : (s.setCfg x).hbm = s.hbm := rfl
@[simp] theorem State.setCfg_intg (x : Cfg) : (s.setCfg x).intg = s.intg := rfl
@[simp] theorem State.setCfg_core (x : Cfg) : (s.setCfg x).core = s.core := rfl
@[simp] theorem State.setCfg_sem (x : Cfg) : (s.setCfg x).sem = s.sem := rfl
@[simp] theorem State.setCfg_scan (x : Cfg) : (s.setCfg x).scan = s.scan := rfl
@[simp] theorem State.setCfg_bal (x : Cfg) : (s.setCfg x).bal = s.bal := rfl
@[simp] theorem State.setCfg_host (x : Cfg) : (s.setCfg x).host = s.host := rfl
@[simp] theorem State.setCfg_sec (x : Cfg) : (s.setCfg x).sec = s.sec := rfl
@[simp] theorem State.setCfg_pin (x : Cfg) : (s.setCfg x).pin = s.pin := rfl

@[simp] theorem State.setCall_pending (x : Caller) : (s.setCall x).pending = s.pending := rfl
@[simp] theorem State.setCall_regs (x : Caller) : (s.setCall x).regs = s.regs := rfl
@[simp] theorem State.setCall_fig (x : Caller) : (s.setCall x).fig = s.fig := rfl
@[simp] theorem State.setCall_round (x : Caller) : (s.setCall x).round = s.round := rfl
@[simp] theorem State.setCall_free (x : Caller) : (s.setCall x).free = s.free := rfl
@[simp] theorem State.setCall_fab (x : Caller) : (s.setCall x).fab = s.fab := rfl
@[simp] theorem State.setCall_clk (x : Caller) : (s.setCall x).clk = s.clk := rfl
@[simp] theorem State.setCall_cfg (x : Caller) : (s.setCall x).cfg = s.cfg := rfl
@[simp] theorem State.setCall_call (x : Caller) : (s.setCall x).call = x := rfl
@[simp] theorem State.setCall_lat (x : Caller) : (s.setCall x).lat = s.lat := rfl
@[simp] theorem State.setCall_port (x : Caller) : (s.setCall x).port = s.port := rfl
@[simp] theorem State.setCall_tail (x : Caller) : (s.setCall x).tail = s.tail := rfl
@[simp] theorem State.setCall_mesh (x : Caller) : (s.setCall x).mesh = s.mesh := rfl
@[simp] theorem State.setCall_hbm (x : Caller) : (s.setCall x).hbm = s.hbm := rfl
@[simp] theorem State.setCall_intg (x : Caller) : (s.setCall x).intg = s.intg := rfl
@[simp] theorem State.setCall_core (x : Caller) : (s.setCall x).core = s.core := rfl
@[simp] theorem State.setCall_sem (x : Caller) : (s.setCall x).sem = s.sem := rfl
@[simp] theorem State.setCall_scan (x : Caller) : (s.setCall x).scan = s.scan := rfl
@[simp] theorem State.setCall_bal (x : Caller) : (s.setCall x).bal = s.bal := rfl
@[simp] theorem State.setCall_host (x : Caller) : (s.setCall x).host = s.host := rfl
@[simp] theorem State.setCall_sec (x : Caller) : (s.setCall x).sec = s.sec := rfl
@[simp] theorem State.setCall_pin (x : Caller) : (s.setCall x).pin = s.pin := rfl

@[simp] theorem State.setLat_pending (x : Lat) : (s.setLat x).pending = s.pending := rfl
@[simp] theorem State.setLat_regs (x : Lat) : (s.setLat x).regs = s.regs := rfl
@[simp] theorem State.setLat_fig (x : Lat) : (s.setLat x).fig = s.fig := rfl
@[simp] theorem State.setLat_round (x : Lat) : (s.setLat x).round = s.round := rfl
@[simp] theorem State.setLat_free (x : Lat) : (s.setLat x).free = s.free := rfl
@[simp] theorem State.setLat_fab (x : Lat) : (s.setLat x).fab = s.fab := rfl
@[simp] theorem State.setLat_clk (x : Lat) : (s.setLat x).clk = s.clk := rfl
@[simp] theorem State.setLat_cfg (x : Lat) : (s.setLat x).cfg = s.cfg := rfl
@[simp] theorem State.setLat_call (x : Lat) : (s.setLat x).call = s.call := rfl
@[simp] theorem State.setLat_lat (x : Lat) : (s.setLat x).lat = x := rfl
@[simp] theorem State.setLat_port (x : Lat) : (s.setLat x).port = s.port := rfl
@[simp] theorem State.setLat_tail (x : Lat) : (s.setLat x).tail = s.tail := rfl
@[simp] theorem State.setLat_mesh (x : Lat) : (s.setLat x).mesh = s.mesh := rfl
@[simp] theorem State.setLat_hbm (x : Lat) : (s.setLat x).hbm = s.hbm := rfl
@[simp] theorem State.setLat_intg (x : Lat) : (s.setLat x).intg = s.intg := rfl
@[simp] theorem State.setLat_core (x : Lat) : (s.setLat x).core = s.core := rfl
@[simp] theorem State.setLat_sem (x : Lat) : (s.setLat x).sem = s.sem := rfl
@[simp] theorem State.setLat_scan (x : Lat) : (s.setLat x).scan = s.scan := rfl
@[simp] theorem State.setLat_bal (x : Lat) : (s.setLat x).bal = s.bal := rfl
@[simp] theorem State.setLat_host (x : Lat) : (s.setLat x).host = s.host := rfl
@[simp] theorem State.setLat_sec (x : Lat) : (s.setLat x).sec = s.sec := rfl
@[simp] theorem State.setLat_pin (x : Lat) : (s.setLat x).pin = s.pin := rfl

@[simp] theorem State.setTail_pending (x : Tail) : (s.setTail x).pending = s.pending := rfl
@[simp] theorem State.setTail_regs (x : Tail) : (s.setTail x).regs = s.regs := rfl
@[simp] theorem State.setTail_fig (x : Tail) : (s.setTail x).fig = s.fig := rfl
@[simp] theorem State.setTail_round (x : Tail) : (s.setTail x).round = s.round := rfl
@[simp] theorem State.setTail_free (x : Tail) : (s.setTail x).free = s.free := rfl
@[simp] theorem State.setTail_fab (x : Tail) : (s.setTail x).fab = s.fab := rfl
@[simp] theorem State.setTail_clk (x : Tail) : (s.setTail x).clk = s.clk := rfl
@[simp] theorem State.setTail_cfg (x : Tail) : (s.setTail x).cfg = s.cfg := rfl
@[simp] theorem State.setTail_call (x : Tail) : (s.setTail x).call = s.call := rfl
@[simp] theorem State.setTail_lat (x : Tail) : (s.setTail x).lat = s.lat := rfl
@[simp] theorem State.setTail_port (x : Tail) : (s.setTail x).port = s.port := rfl
@[simp] theorem State.setTail_tail (x : Tail) : (s.setTail x).tail = x := rfl
@[simp] theorem State.setTail_mesh (x : Tail) : (s.setTail x).mesh = s.mesh := rfl
@[simp] theorem State.setTail_hbm (x : Tail) : (s.setTail x).hbm = s.hbm := rfl
@[simp] theorem State.setTail_intg (x : Tail) : (s.setTail x).intg = s.intg := rfl
@[simp] theorem State.setTail_core (x : Tail) : (s.setTail x).core = s.core := rfl
@[simp] theorem State.setTail_sem (x : Tail) : (s.setTail x).sem = s.sem := rfl
@[simp] theorem State.setTail_scan (x : Tail) : (s.setTail x).scan = s.scan := rfl
@[simp] theorem State.setTail_bal (x : Tail) : (s.setTail x).bal = s.bal := rfl
@[simp] theorem State.setTail_host (x : Tail) : (s.setTail x).host = s.host := rfl
@[simp] theorem State.setTail_sec (x : Tail) : (s.setTail x).sec = s.sec := rfl
@[simp] theorem State.setTail_pin (x : Tail) : (s.setTail x).pin = s.pin := rfl

@[simp] theorem State.setMesh_pending (x : Mesh) : (s.setMesh x).pending = s.pending := rfl
@[simp] theorem State.setMesh_regs (x : Mesh) : (s.setMesh x).regs = s.regs := rfl
@[simp] theorem State.setMesh_fig (x : Mesh) : (s.setMesh x).fig = s.fig := rfl
@[simp] theorem State.setMesh_round (x : Mesh) : (s.setMesh x).round = s.round := rfl
@[simp] theorem State.setMesh_free (x : Mesh) : (s.setMesh x).free = s.free := rfl
@[simp] theorem State.setMesh_fab (x : Mesh) : (s.setMesh x).fab = s.fab := rfl
@[simp] theorem State.setMesh_clk (x : Mesh) : (s.setMesh x).clk = s.clk := rfl
@[simp] theorem State.setMesh_cfg (x : Mesh) : (s.setMesh x).cfg = s.cfg := rfl
@[simp] theorem State.setMesh_call (x : Mesh) : (s.setMesh x).call = s.call := rfl
@[simp] theorem State.setMesh_lat (x : Mesh) : (s.setMesh x).lat = s.lat := rfl
@[simp] theorem State.setMesh_port (x : Mesh) : (s.setMesh x).port = s.port := rfl
@[simp] theorem State.setMesh_tail (x : Mesh) : (s.setMesh x).tail = s.tail := rfl
@[simp] theorem State.setMesh_mesh (x : Mesh) : (s.setMesh x).mesh = x := rfl
@[simp] theorem State.setMesh_hbm (x : Mesh) : (s.setMesh x).hbm = s.hbm := rfl
@[simp] theorem State.setMesh_intg (x : Mesh) : (s.setMesh x).intg = s.intg := rfl
@[simp] theorem State.setMesh_core (x : Mesh) : (s.setMesh x).core = s.core := rfl
@[simp] theorem State.setMesh_sem (x : Mesh) : (s.setMesh x).sem = s.sem := rfl
@[simp] theorem State.setMesh_scan (x : Mesh) : (s.setMesh x).scan = s.scan := rfl
@[simp] theorem State.setMesh_bal (x : Mesh) : (s.setMesh x).bal = s.bal := rfl
@[simp] theorem State.setMesh_host (x : Mesh) : (s.setMesh x).host = s.host := rfl
@[simp] theorem State.setMesh_sec (x : Mesh) : (s.setMesh x).sec = s.sec := rfl
@[simp] theorem State.setMesh_pin (x : Mesh) : (s.setMesh x).pin = s.pin := rfl

@[simp] theorem State.setHbm_pending (x : Hbm) : (s.setHbm x).pending = s.pending := rfl
@[simp] theorem State.setHbm_regs (x : Hbm) : (s.setHbm x).regs = s.regs := rfl
@[simp] theorem State.setHbm_fig (x : Hbm) : (s.setHbm x).fig = s.fig := rfl
@[simp] theorem State.setHbm_round (x : Hbm) : (s.setHbm x).round = s.round := rfl
@[simp] theorem State.setHbm_free (x : Hbm) : (s.setHbm x).free = s.free := rfl
@[simp] theorem State.setHbm_fab (x : Hbm) : (s.setHbm x).fab = s.fab := rfl
@[simp] theorem State.setHbm_clk (x : Hbm) : (s.setHbm x).clk = s.clk := rfl
@[simp] theorem State.setHbm_cfg (x : Hbm) : (s.setHbm x).cfg = s.cfg := rfl
@[simp] theorem State.setHbm_call (x : Hbm) : (s.setHbm x).call = s.call := rfl
@[simp] theorem State.setHbm_lat (x : Hbm) : (s.setHbm x).lat = s.lat := rfl
@[simp] theorem State.setHbm_port (x : Hbm) : (s.setHbm x).port = s.port := rfl
@[simp] theorem State.setHbm_tail (x : Hbm) : (s.setHbm x).tail = s.tail := rfl
@[simp] theorem State.setHbm_mesh (x : Hbm) : (s.setHbm x).mesh = s.mesh := rfl
@[simp] theorem State.setHbm_hbm (x : Hbm) : (s.setHbm x).hbm = x := rfl
@[simp] theorem State.setHbm_intg (x : Hbm) : (s.setHbm x).intg = s.intg := rfl
@[simp] theorem State.setHbm_core (x : Hbm) : (s.setHbm x).core = s.core := rfl
@[simp] theorem State.setHbm_sem (x : Hbm) : (s.setHbm x).sem = s.sem := rfl
@[simp] theorem State.setHbm_scan (x : Hbm) : (s.setHbm x).scan = s.scan := rfl
@[simp] theorem State.setHbm_bal (x : Hbm) : (s.setHbm x).bal = s.bal := rfl
@[simp] theorem State.setHbm_host (x : Hbm) : (s.setHbm x).host = s.host := rfl
@[simp] theorem State.setHbm_sec (x : Hbm) : (s.setHbm x).sec = s.sec := rfl
@[simp] theorem State.setHbm_pin (x : Hbm) : (s.setHbm x).pin = s.pin := rfl

@[simp] theorem State.setScan_pending (x : Scan) : (s.setScan x).pending = s.pending := rfl
@[simp] theorem State.setScan_regs (x : Scan) : (s.setScan x).regs = s.regs := rfl
@[simp] theorem State.setScan_fig (x : Scan) : (s.setScan x).fig = s.fig := rfl
@[simp] theorem State.setScan_round (x : Scan) : (s.setScan x).round = s.round := rfl
@[simp] theorem State.setScan_free (x : Scan) : (s.setScan x).free = s.free := rfl
@[simp] theorem State.setScan_fab (x : Scan) : (s.setScan x).fab = s.fab := rfl
@[simp] theorem State.setScan_clk (x : Scan) : (s.setScan x).clk = s.clk := rfl
@[simp] theorem State.setScan_cfg (x : Scan) : (s.setScan x).cfg = s.cfg := rfl
@[simp] theorem State.setScan_call (x : Scan) : (s.setScan x).call = s.call := rfl
@[simp] theorem State.setScan_lat (x : Scan) : (s.setScan x).lat = s.lat := rfl
@[simp] theorem State.setScan_port (x : Scan) : (s.setScan x).port = s.port := rfl
@[simp] theorem State.setScan_tail (x : Scan) : (s.setScan x).tail = s.tail := rfl
@[simp] theorem State.setScan_mesh (x : Scan) : (s.setScan x).mesh = s.mesh := rfl
@[simp] theorem State.setScan_hbm (x : Scan) : (s.setScan x).hbm = s.hbm := rfl
@[simp] theorem State.setScan_intg (x : Scan) : (s.setScan x).intg = s.intg := rfl
@[simp] theorem State.setScan_core (x : Scan) : (s.setScan x).core = s.core := rfl
@[simp] theorem State.setScan_sem (x : Scan) : (s.setScan x).sem = s.sem := rfl
@[simp] theorem State.setScan_scan (x : Scan) : (s.setScan x).scan = x := rfl
@[simp] theorem State.setScan_bal (x : Scan) : (s.setScan x).bal = s.bal := rfl
@[simp] theorem State.setScan_host (x : Scan) : (s.setScan x).host = s.host := rfl
@[simp] theorem State.setScan_sec (x : Scan) : (s.setScan x).sec = s.sec := rfl
@[simp] theorem State.setScan_pin (x : Scan) : (s.setScan x).pin = s.pin := rfl

@[simp] theorem State.setBal_pending (x : Ballast) : (s.setBal x).pending = s.pending := rfl
@[simp] theorem State.setBal_regs (x : Ballast) : (s.setBal x).regs = s.regs := rfl
@[simp] theorem State.setBal_fig (x : Ballast) : (s.setBal x).fig = s.fig := rfl
@[simp] theorem State.setBal_round (x : Ballast) : (s.setBal x).round = s.round := rfl
@[simp] theorem State.setBal_free (x : Ballast) : (s.setBal x).free = s.free := rfl
@[simp] theorem State.setBal_fab (x : Ballast) : (s.setBal x).fab = s.fab := rfl
@[simp] theorem State.setBal_clk (x : Ballast) : (s.setBal x).clk = s.clk := rfl
@[simp] theorem State.setBal_cfg (x : Ballast) : (s.setBal x).cfg = s.cfg := rfl
@[simp] theorem State.setBal_call (x : Ballast) : (s.setBal x).call = s.call := rfl
@[simp] theorem State.setBal_lat (x : Ballast) : (s.setBal x).lat = s.lat := rfl
@[simp] theorem State.setBal_port (x : Ballast) : (s.setBal x).port = s.port := rfl
@[simp] theorem State.setBal_tail (x : Ballast) : (s.setBal x).tail = s.tail := rfl
@[simp] theorem State.setBal_mesh (x : Ballast) : (s.setBal x).mesh = s.mesh := rfl
@[simp] theorem State.setBal_hbm (x : Ballast) : (s.setBal x).hbm = s.hbm := rfl
@[simp] theorem State.setBal_intg (x : Ballast) : (s.setBal x).intg = s.intg := rfl
@[simp] theorem State.setBal_core (x : Ballast) : (s.setBal x).core = s.core := rfl
@[simp] theorem State.setBal_sem (x : Ballast) : (s.setBal x).sem = s.sem := rfl
@[simp] theorem State.setBal_scan (x : Ballast) : (s.setBal x).scan = s.scan := rfl
@[simp] theorem State.setBal_bal (x : Ballast) : (s.setBal x).bal = x := rfl
@[simp] theorem State.setBal_host (x : Ballast) : (s.setBal x).host = s.host := rfl
@[simp] theorem State.setBal_sec (x : Ballast) : (s.setBal x).sec = s.sec := rfl
@[simp] theorem State.setBal_pin (x : Ballast) : (s.setBal x).pin = s.pin := rfl

@[simp] theorem State.setHost_pending (x : HostIf) : (s.setHost x).pending = s.pending := rfl
@[simp] theorem State.setHost_regs (x : HostIf) : (s.setHost x).regs = s.regs := rfl
@[simp] theorem State.setHost_fig (x : HostIf) : (s.setHost x).fig = s.fig := rfl
@[simp] theorem State.setHost_round (x : HostIf) : (s.setHost x).round = s.round := rfl
@[simp] theorem State.setHost_free (x : HostIf) : (s.setHost x).free = s.free := rfl
@[simp] theorem State.setHost_fab (x : HostIf) : (s.setHost x).fab = s.fab := rfl
@[simp] theorem State.setHost_clk (x : HostIf) : (s.setHost x).clk = s.clk := rfl
@[simp] theorem State.setHost_cfg (x : HostIf) : (s.setHost x).cfg = s.cfg := rfl
@[simp] theorem State.setHost_call (x : HostIf) : (s.setHost x).call = s.call := rfl
@[simp] theorem State.setHost_lat (x : HostIf) : (s.setHost x).lat = s.lat := rfl
@[simp] theorem State.setHost_port (x : HostIf) : (s.setHost x).port = s.port := rfl
@[simp] theorem State.setHost_tail (x : HostIf) : (s.setHost x).tail = s.tail := rfl
@[simp] theorem State.setHost_mesh (x : HostIf) : (s.setHost x).mesh = s.mesh := rfl
@[simp] theorem State.setHost_hbm (x : HostIf) : (s.setHost x).hbm = s.hbm := rfl
@[simp] theorem State.setHost_intg (x : HostIf) : (s.setHost x).intg = s.intg := rfl
@[simp] theorem State.setHost_core (x : HostIf) : (s.setHost x).core = s.core := rfl
@[simp] theorem State.setHost_sem (x : HostIf) : (s.setHost x).sem = s.sem := rfl
@[simp] theorem State.setHost_scan (x : HostIf) : (s.setHost x).scan = s.scan := rfl
@[simp] theorem State.setHost_bal (x : HostIf) : (s.setHost x).bal = s.bal := rfl
@[simp] theorem State.setHost_host (x : HostIf) : (s.setHost x).host = x := rfl
@[simp] theorem State.setHost_sec (x : HostIf) : (s.setHost x).sec = s.sec := rfl
@[simp] theorem State.setHost_pin (x : HostIf) : (s.setHost x).pin = s.pin := rfl

@[simp] theorem State.setSec_pending (x : Security) : (s.setSec x).pending = s.pending := rfl
@[simp] theorem State.setSec_regs (x : Security) : (s.setSec x).regs = s.regs := rfl
@[simp] theorem State.setSec_fig (x : Security) : (s.setSec x).fig = s.fig := rfl
@[simp] theorem State.setSec_round (x : Security) : (s.setSec x).round = s.round := rfl
@[simp] theorem State.setSec_free (x : Security) : (s.setSec x).free = s.free := rfl
@[simp] theorem State.setSec_fab (x : Security) : (s.setSec x).fab = s.fab := rfl
@[simp] theorem State.setSec_clk (x : Security) : (s.setSec x).clk = s.clk := rfl
@[simp] theorem State.setSec_cfg (x : Security) : (s.setSec x).cfg = s.cfg := rfl
@[simp] theorem State.setSec_call (x : Security) : (s.setSec x).call = s.call := rfl
@[simp] theorem State.setSec_lat (x : Security) : (s.setSec x).lat = s.lat := rfl
@[simp] theorem State.setSec_port (x : Security) : (s.setSec x).port = s.port := rfl
@[simp] theorem State.setSec_tail (x : Security) : (s.setSec x).tail = s.tail := rfl
@[simp] theorem State.setSec_mesh (x : Security) : (s.setSec x).mesh = s.mesh := rfl
@[simp] theorem State.setSec_hbm (x : Security) : (s.setSec x).hbm = s.hbm := rfl
@[simp] theorem State.setSec_intg (x : Security) : (s.setSec x).intg = s.intg := rfl
@[simp] theorem State.setSec_core (x : Security) : (s.setSec x).core = s.core := rfl
@[simp] theorem State.setSec_sem (x : Security) : (s.setSec x).sem = s.sem := rfl
@[simp] theorem State.setSec_scan (x : Security) : (s.setSec x).scan = s.scan := rfl
@[simp] theorem State.setSec_bal (x : Security) : (s.setSec x).bal = s.bal := rfl
@[simp] theorem State.setSec_host (x : Security) : (s.setSec x).host = s.host := rfl
@[simp] theorem State.setSec_sec (x : Security) : (s.setSec x).sec = x := rfl
@[simp] theorem State.setSec_pin (x : Security) : (s.setSec x).pin = s.pin := rfl

@[simp] theorem State.setPin_pending (x : Pins) : (s.setPin x).pending = s.pending := rfl
@[simp] theorem State.setPin_regs (x : Pins) : (s.setPin x).regs = s.regs := rfl
@[simp] theorem State.setPin_fig (x : Pins) : (s.setPin x).fig = s.fig := rfl
@[simp] theorem State.setPin_round (x : Pins) : (s.setPin x).round = s.round := rfl
@[simp] theorem State.setPin_free (x : Pins) : (s.setPin x).free = s.free := rfl
@[simp] theorem State.setPin_fab (x : Pins) : (s.setPin x).fab = s.fab := rfl
@[simp] theorem State.setPin_clk (x : Pins) : (s.setPin x).clk = s.clk := rfl
@[simp] theorem State.setPin_cfg (x : Pins) : (s.setPin x).cfg = s.cfg := rfl
@[simp] theorem State.setPin_call (x : Pins) : (s.setPin x).call = s.call := rfl
@[simp] theorem State.setPin_lat (x : Pins) : (s.setPin x).lat = s.lat := rfl
@[simp] theorem State.setPin_port (x : Pins) : (s.setPin x).port = s.port := rfl
@[simp] theorem State.setPin_tail (x : Pins) : (s.setPin x).tail = s.tail := rfl
@[simp] theorem State.setPin_mesh (x : Pins) : (s.setPin x).mesh = s.mesh := rfl
@[simp] theorem State.setPin_hbm (x : Pins) : (s.setPin x).hbm = s.hbm := rfl
@[simp] theorem State.setPin_intg (x : Pins) : (s.setPin x).intg = s.intg := rfl
@[simp] theorem State.setPin_core (x : Pins) : (s.setPin x).core = s.core := rfl
@[simp] theorem State.setPin_sem (x : Pins) : (s.setPin x).sem = s.sem := rfl
@[simp] theorem State.setPin_scan (x : Pins) : (s.setPin x).scan = s.scan := rfl
@[simp] theorem State.setPin_bal (x : Pins) : (s.setPin x).bal = s.bal := rfl
@[simp] theorem State.setPin_host (x : Pins) : (s.setPin x).host = s.host := rfl
@[simp] theorem State.setPin_sec (x : Pins) : (s.setPin x).sec = s.sec := rfl
@[simp] theorem State.setPin_pin (x : Pins) : (s.setPin x).pin = x := rfl

@[simp] theorem State.setReg_pending (a : Nat) (v : Word) : (s.setReg a v).pending = s.pending := rfl
@[simp] theorem State.setReg_regs (a : Nat) (v : Word) : (s.setReg a v).regs = mset s.regs (resetWord a) a v := rfl
@[simp] theorem State.setReg_fig (a : Nat) (v : Word) : (s.setReg a v).fig = s.fig := rfl
@[simp] theorem State.setReg_round (a : Nat) (v : Word) : (s.setReg a v).round = s.round := rfl
@[simp] theorem State.setReg_free (a : Nat) (v : Word) : (s.setReg a v).free = s.free := rfl
@[simp] theorem State.setReg_fab (a : Nat) (v : Word) : (s.setReg a v).fab = s.fab := rfl
@[simp] theorem State.setReg_clk (a : Nat) (v : Word) : (s.setReg a v).clk = s.clk := rfl
@[simp] theorem State.setReg_cfg (a : Nat) (v : Word) : (s.setReg a v).cfg = s.cfg := rfl
@[simp] theorem State.setReg_call (a : Nat) (v : Word) : (s.setReg a v).call = s.call := rfl
@[simp] theorem State.setReg_lat (a : Nat) (v : Word) : (s.setReg a v).lat = s.lat := rfl
@[simp] theorem State.setReg_port (a : Nat) (v : Word) : (s.setReg a v).port = s.port := rfl
@[simp] theorem State.setReg_tail (a : Nat) (v : Word) : (s.setReg a v).tail = s.tail := rfl
@[simp] theorem State.setReg_mesh (a : Nat) (v : Word) : (s.setReg a v).mesh = s.mesh := rfl
@[simp] theorem State.setReg_hbm (a : Nat) (v : Word) : (s.setReg a v).hbm = s.hbm := rfl
@[simp] theorem State.setReg_intg (a : Nat) (v : Word) : (s.setReg a v).intg = s.intg := rfl
@[simp] theorem State.setReg_core (a : Nat) (v : Word) : (s.setReg a v).core = s.core := rfl
@[simp] theorem State.setReg_sem (a : Nat) (v : Word) : (s.setReg a v).sem = s.sem := rfl
@[simp] theorem State.setReg_scan (a : Nat) (v : Word) : (s.setReg a v).scan = s.scan := rfl
@[simp] theorem State.setReg_bal (a : Nat) (v : Word) : (s.setReg a v).bal = s.bal := rfl
@[simp] theorem State.setReg_host (a : Nat) (v : Word) : (s.setReg a v).host = s.host := rfl
@[simp] theorem State.setReg_sec (a : Nat) (v : Word) : (s.setReg a v).sec = s.sec := rfl
@[simp] theorem State.setReg_pin (a : Nat) (v : Word) : (s.setReg a v).pin = s.pin := rfl

@[simp] theorem State.put_pending (x : Fld) (v : Nat) : (s.put x v).pending = s.pending := rfl
@[simp] theorem State.put_fig (x : Fld) (v : Nat) : (s.put x v).fig = s.fig := rfl
@[simp] theorem State.put_round (x : Fld) (v : Nat) : (s.put x v).round = s.round := rfl
@[simp] theorem State.put_free (x : Fld) (v : Nat) : (s.put x v).free = s.free := rfl
@[simp] theorem State.put_fab (x : Fld) (v : Nat) : (s.put x v).fab = s.fab := rfl
@[simp] theorem State.put_clk (x : Fld) (v : Nat) : (s.put x v).clk = s.clk := rfl
@[simp] theorem State.put_cfg (x : Fld) (v : Nat) : (s.put x v).cfg = s.cfg := rfl
@[simp] theorem State.put_call (x : Fld) (v : Nat) : (s.put x v).call = s.call := rfl
@[simp] theorem State.put_lat (x : Fld) (v : Nat) : (s.put x v).lat = s.lat := rfl
@[simp] theorem State.put_port (x : Fld) (v : Nat) : (s.put x v).port = s.port := rfl
@[simp] theorem State.put_tail (x : Fld) (v : Nat) : (s.put x v).tail = s.tail := rfl
@[simp] theorem State.put_mesh (x : Fld) (v : Nat) : (s.put x v).mesh = s.mesh := rfl
@[simp] theorem State.put_hbm (x : Fld) (v : Nat) : (s.put x v).hbm = s.hbm := rfl
@[simp] theorem State.put_intg (x : Fld) (v : Nat) : (s.put x v).intg = s.intg := rfl
@[simp] theorem State.put_core (x : Fld) (v : Nat) : (s.put x v).core = s.core := rfl
@[simp] theorem State.put_sem (x : Fld) (v : Nat) : (s.put x v).sem = s.sem := rfl
@[simp] theorem State.put_scan (x : Fld) (v : Nat) : (s.put x v).scan = s.scan := rfl
@[simp] theorem State.put_bal (x : Fld) (v : Nat) : (s.put x v).bal = s.bal := rfl
@[simp] theorem State.put_host (x : Fld) (v : Nat) : (s.put x v).host = s.host := rfl
@[simp] theorem State.put_sec (x : Fld) (v : Nat) : (s.put x v).sec = s.sec := rfl
@[simp] theorem State.put_pin (x : Fld) (v : Nat) : (s.put x v).pin = s.pin := rfl

@[simp] theorem State.setCore_pending (c : Nat) (x : Core) : (s.setCore c x).pending = s.pending := rfl
@[simp] theorem State.setCore_regs (c : Nat) (x : Core) : (s.setCore c x).regs = s.regs := rfl
@[simp] theorem State.setCore_fig (c : Nat) (x : Core) : (s.setCore c x).fig = s.fig := rfl
@[simp] theorem State.setCore_round (c : Nat) (x : Core) : (s.setCore c x).round = s.round := rfl
@[simp] theorem State.setCore_free (c : Nat) (x : Core) : (s.setCore c x).free = s.free := rfl
@[simp] theorem State.setCore_fab (c : Nat) (x : Core) : (s.setCore c x).fab = s.fab := rfl
@[simp] theorem State.setCore_clk (c : Nat) (x : Core) : (s.setCore c x).clk = s.clk := rfl
@[simp] theorem State.setCore_cfg (c : Nat) (x : Core) : (s.setCore c x).cfg = s.cfg := rfl
@[simp] theorem State.setCore_call (c : Nat) (x : Core) : (s.setCore c x).call = s.call := rfl
@[simp] theorem State.setCore_lat (c : Nat) (x : Core) : (s.setCore c x).lat = s.lat := rfl
@[simp] theorem State.setCore_port (c : Nat) (x : Core) : (s.setCore c x).port = s.port := rfl
@[simp] theorem State.setCore_tail (c : Nat) (x : Core) : (s.setCore c x).tail = s.tail := rfl
@[simp] theorem State.setCore_mesh (c : Nat) (x : Core) : (s.setCore c x).mesh = s.mesh := rfl
@[simp] theorem State.setCore_hbm (c : Nat) (x : Core) : (s.setCore c x).hbm = s.hbm := rfl
@[simp] theorem State.setCore_intg (c : Nat) (x : Core) : (s.setCore c x).intg = s.intg := rfl
@[simp] theorem State.setCore_core (c : Nat) (x : Core) : (s.setCore c x).core = mset s.core Core.init c x := rfl
@[simp] theorem State.setCore_sem (c : Nat) (x : Core) : (s.setCore c x).sem = s.sem := rfl
@[simp] theorem State.setCore_scan (c : Nat) (x : Core) : (s.setCore c x).scan = s.scan := rfl
@[simp] theorem State.setCore_bal (c : Nat) (x : Core) : (s.setCore c x).bal = s.bal := rfl
@[simp] theorem State.setCore_host (c : Nat) (x : Core) : (s.setCore c x).host = s.host := rfl
@[simp] theorem State.setCore_sec (c : Nat) (x : Core) : (s.setCore c x).sec = s.sec := rfl
@[simp] theorem State.setCore_pin (c : Nat) (x : Core) : (s.setCore c x).pin = s.pin := rfl

@[simp] theorem State.setPort_pending (n : Nat) (p : Port) : (s.setPort n p).pending = s.pending := rfl
@[simp] theorem State.setPort_regs (n : Nat) (p : Port) : (s.setPort n p).regs = s.regs := rfl
@[simp] theorem State.setPort_fig (n : Nat) (p : Port) : (s.setPort n p).fig = s.fig := rfl
@[simp] theorem State.setPort_round (n : Nat) (p : Port) : (s.setPort n p).round = s.round := rfl
@[simp] theorem State.setPort_free (n : Nat) (p : Port) : (s.setPort n p).free = s.free := rfl
@[simp] theorem State.setPort_fab (n : Nat) (p : Port) : (s.setPort n p).fab = s.fab := rfl
@[simp] theorem State.setPort_clk (n : Nat) (p : Port) : (s.setPort n p).clk = s.clk := rfl
@[simp] theorem State.setPort_cfg (n : Nat) (p : Port) : (s.setPort n p).cfg = s.cfg := rfl
@[simp] theorem State.setPort_call (n : Nat) (p : Port) : (s.setPort n p).call = s.call := rfl
@[simp] theorem State.setPort_lat (n : Nat) (p : Port) : (s.setPort n p).lat = s.lat := rfl
@[simp] theorem State.setPort_port (n : Nat) (p : Port) : (s.setPort n p).port = mset s.port Port.init n p := rfl
@[simp] theorem State.setPort_tail (n : Nat) (p : Port) : (s.setPort n p).tail = s.tail := rfl
@[simp] theorem State.setPort_mesh (n : Nat) (p : Port) : (s.setPort n p).mesh = s.mesh := rfl
@[simp] theorem State.setPort_hbm (n : Nat) (p : Port) : (s.setPort n p).hbm = s.hbm := rfl
@[simp] theorem State.setPort_intg (n : Nat) (p : Port) : (s.setPort n p).intg = s.intg := rfl
@[simp] theorem State.setPort_core (n : Nat) (p : Port) : (s.setPort n p).core = s.core := rfl
@[simp] theorem State.setPort_sem (n : Nat) (p : Port) : (s.setPort n p).sem = s.sem := rfl
@[simp] theorem State.setPort_scan (n : Nat) (p : Port) : (s.setPort n p).scan = s.scan := rfl
@[simp] theorem State.setPort_bal (n : Nat) (p : Port) : (s.setPort n p).bal = s.bal := rfl
@[simp] theorem State.setPort_host (n : Nat) (p : Port) : (s.setPort n p).host = s.host := rfl
@[simp] theorem State.setPort_sec (n : Nat) (p : Port) : (s.setPort n p).sec = s.sec := rfl
@[simp] theorem State.setPort_pin (n : Nat) (p : Port) : (s.setPort n p).pin = s.pin := rfl

@[simp] theorem State.freeNext_pending  : (s.freeNext).pending = s.pending := rfl
@[simp] theorem State.freeNext_regs  : (s.freeNext).regs = s.regs := rfl
@[simp] theorem State.freeNext_fig  : (s.freeNext).fig = s.fig := rfl
@[simp] theorem State.freeNext_round  : (s.freeNext).round = s.round := rfl
@[simp] theorem State.freeNext_free  : (s.freeNext).free = s.free + 1 := rfl
@[simp] theorem State.freeNext_fab  : (s.freeNext).fab = s.fab := rfl
@[simp] theorem State.freeNext_clk  : (s.freeNext).clk = s.clk := rfl
@[simp] theorem State.freeNext_cfg  : (s.freeNext).cfg = s.cfg := rfl
@[simp] theorem State.freeNext_call  : (s.freeNext).call = s.call := rfl
@[simp] theorem State.freeNext_lat  : (s.freeNext).lat = s.lat := rfl
@[simp] theorem State.freeNext_port  : (s.freeNext).port = s.port := rfl
@[simp] theorem State.freeNext_tail  : (s.freeNext).tail = s.tail := rfl
@[simp] theorem State.freeNext_mesh  : (s.freeNext).mesh = s.mesh := rfl
@[simp] theorem State.freeNext_hbm  : (s.freeNext).hbm = s.hbm := rfl
@[simp] theorem State.freeNext_intg  : (s.freeNext).intg = s.intg := rfl
@[simp] theorem State.freeNext_core  : (s.freeNext).core = s.core := rfl
@[simp] theorem State.freeNext_sem  : (s.freeNext).sem = s.sem := rfl
@[simp] theorem State.freeNext_scan  : (s.freeNext).scan = s.scan := rfl
@[simp] theorem State.freeNext_bal  : (s.freeNext).bal = s.bal := rfl
@[simp] theorem State.freeNext_host  : (s.freeNext).host = s.host := rfl
@[simp] theorem State.freeNext_sec  : (s.freeNext).sec = s.sec := rfl
@[simp] theorem State.freeNext_pin  : (s.freeNext).pin = s.pin := rfl

@[simp] theorem State.resetRegs_pending (p : Nat → Bool) : (s.resetRegs p).pending = s.pending := rfl
@[simp] theorem State.resetRegs_regs (p : Nat → Bool) : (s.resetRegs p).regs = s.regs.filter (fun e => !p e.1) := rfl
@[simp] theorem State.resetRegs_fig (p : Nat → Bool) : (s.resetRegs p).fig = s.fig := rfl
@[simp] theorem State.resetRegs_round (p : Nat → Bool) : (s.resetRegs p).round = s.round := rfl
@[simp] theorem State.resetRegs_free (p : Nat → Bool) : (s.resetRegs p).free = s.free := rfl
@[simp] theorem State.resetRegs_fab (p : Nat → Bool) : (s.resetRegs p).fab = s.fab := rfl
@[simp] theorem State.resetRegs_clk (p : Nat → Bool) : (s.resetRegs p).clk = s.clk := rfl
@[simp] theorem State.resetRegs_cfg (p : Nat → Bool) : (s.resetRegs p).cfg = s.cfg := rfl
@[simp] theorem State.resetRegs_call (p : Nat → Bool) : (s.resetRegs p).call = s.call := rfl
@[simp] theorem State.resetRegs_lat (p : Nat → Bool) : (s.resetRegs p).lat = s.lat := rfl
@[simp] theorem State.resetRegs_port (p : Nat → Bool) : (s.resetRegs p).port = s.port := rfl
@[simp] theorem State.resetRegs_tail (p : Nat → Bool) : (s.resetRegs p).tail = s.tail := rfl
@[simp] theorem State.resetRegs_mesh (p : Nat → Bool) : (s.resetRegs p).mesh = s.mesh := rfl
@[simp] theorem State.resetRegs_hbm (p : Nat → Bool) : (s.resetRegs p).hbm = s.hbm := rfl
@[simp] theorem State.resetRegs_intg (p : Nat → Bool) : (s.resetRegs p).intg = s.intg := rfl
@[simp] theorem State.resetRegs_core (p : Nat → Bool) : (s.resetRegs p).core = s.core := rfl
@[simp] theorem State.resetRegs_sem (p : Nat → Bool) : (s.resetRegs p).sem = s.sem := rfl
@[simp] theorem State.resetRegs_scan (p : Nat → Bool) : (s.resetRegs p).scan = s.scan := rfl
@[simp] theorem State.resetRegs_bal (p : Nat → Bool) : (s.resetRegs p).bal = s.bal := rfl
@[simp] theorem State.resetRegs_host (p : Nat → Bool) : (s.resetRegs p).host = s.host := rfl
@[simp] theorem State.resetRegs_sec (p : Nat → Bool) : (s.resetRegs p).sec = s.sec := rfl
@[simp] theorem State.resetRegs_pin (p : Nat → Bool) : (s.resetRegs p).pin = s.pin := rfl

/-! ### Registers and fields -/

/-- A register after a write: the value written at its offset, what stood there at every other. -/
theorem State.reg_setReg (a b : Nat) (v : Word) : (s.setReg a v).reg b = if a = b then v else s.reg b := by
  unfold State.reg State.setReg
  by_cases h : a = b
  · subst h; simp
  · simp [h, mget_mset_ne]

@[simp] theorem State.reg_setReg_self (a : Nat) (v : Word) : (s.setReg a v).reg a = v := by simp [State.reg_setReg]

theorem State.reg_setReg_ne {a b : Nat} (v : Word) (h : a ≠ b) : (s.setReg a v).reg b = s.reg b := by simp [State.reg_setReg, h]

/-- A field write reaches one register. -/
theorem State.reg_put (x : Fld) (v b : Nat) :
    (s.put x v).reg b = if x.addr = b then fput (s.reg x.addr) x.hi x.lo v else s.reg b := State.reg_setReg _ _ _ _

theorem State.reg_put_ne {x : Fld} {b : Nat} (v : Nat) (h : x.addr ≠ b) : (s.put x v).reg b = s.reg b := by simp [State.reg_put, h]

/-- A field in another register than the one written is unchanged. -/
theorem State.f_put_ne {x y : Fld} (v : Nat) (h : x.addr ≠ y.addr) : (s.put x v).f y = s.f y := by
  simp [State.f, State.reg_put_ne _ v h]

theorem State.f_setReg_ne {a : Nat} {y : Fld} (v : Word) (h : a ≠ y.addr) : (s.setReg a v).f y = s.f y := by
  simp [State.f, State.reg_setReg_ne _ v h]

theorem State.reg_congr {s t : State} (h : t.regs = s.regs) (a : Nat) : t.reg a = s.reg a := by simp [State.reg, h]

theorem State.f_congr {s t : State} (h : t.regs = s.regs) (x : Fld) : t.f x = s.f x := by simp [State.f, State.reg, h]

theorem State.on_congr {s t : State} (h : t.regs = s.regs) (x : Fld) : t.on x = s.on x := by simp [State.on, State.f_congr h]

/-- Reading bits of a word after a field write, bit by bit. -/
theorem fput_getLsbD (w : Word) (hi lo v i : Nat) (hh : hi < 32) (hl : lo ≤ hi) :
    (fput w hi lo v).getLsbD i = if lo ≤ i ∧ i ≤ hi then v.testBit (i - lo) else w.getLsbD i := by
  unfold fput fmask
  simp only [BitVec.getLsbD_or, BitVec.getLsbD_and, BitVec.getLsbD_not, BitVec.getLsbD_shiftLeft, BitVec.getLsbD_setWidth,
    BitVec.getLsbD_allOnes, BitVec.getLsbD_ofNat]
  by_cases h1 : i < 32
  · by_cases h2 : lo ≤ i
    · by_cases h3 : i ≤ hi
      · have e : i - lo < 32 := by omega
        have e' : i - lo < hi + 1 - lo := by omega
        have e2 : ¬ i < lo := by omega
        simp [h1, h2, h3, e, e', e2]
      · have e' : ¬ i - lo < hi + 1 - lo := by omega
        simp [h1, h3, e']
    · have e2 : i < lo := by omega
      simp [h1, h2, e2]
  · have h3 : ¬ i ≤ hi := by omega
    simp [h1, h3, BitVec.getLsbD_of_ge w i (by omega)]

theorem fget_testBit (w : Word) (hi lo i : Nat) : (fget w hi lo).testBit i = (decide (i < hi + 1 - lo) && w.getLsbD (lo + i)) := by
  unfold fget
  rw [BitVec.testBit_toNat, BitVec.getLsbD_extractLsb']

/-- A field reads back what was written into it, cut to its width. -/
theorem fget_fput (w : Word) (hi lo v : Nat) (hh : hi < 32) (hl : lo ≤ hi) : fget (fput w hi lo v) hi lo = v % 2 ^ (hi + 1 - lo) := by
  apply Nat.eq_of_testBit_eq
  intro i
  rw [fget_testBit, fput_getLsbD w hi lo v _ hh hl, Nat.testBit_mod_two_pow]
  by_cases h : i < hi + 1 - lo
  · have e : lo + i ≤ hi := by omega
    simp [h, e]
  · simp [h]

/-- A field that the written one does not overlap is unchanged. -/
theorem fget_fput_ne (w : Word) (hi lo v h2 l2 : Nat) (hh : hi < 32) (hl : lo ≤ hi) (hd : h2 < lo ∨ hi < l2) :
    fget (fput w hi lo v) h2 l2 = fget w h2 l2 := by
  apply Nat.eq_of_testBit_eq
  intro i
  rw [fget_testBit, fget_testBit, fput_getLsbD w hi lo v _ hh hl]
  by_cases h : i < h2 + 1 - l2
  · have e : ¬ (lo ≤ l2 + i ∧ l2 + i ≤ hi) := by omega
    simp [h, e]
  · simp [h]

/-- A field of the state reads back what was put into it. -/
theorem State.f_put (x : Fld) (v : Nat) (hh : x.hi < 32) (hl : x.lo ≤ x.hi) : (s.put x v).f x = v % 2 ^ (x.hi + 1 - x.lo) := by
  simp [State.f, State.put, fget_fput _ _ _ _ hh hl]

/-- A field of the same register that the one put does not overlap is unchanged. -/
theorem State.f_put_disj {x y : Fld} (v : Nat) (ha : x.addr = y.addr) (hh : x.hi < 32) (hl : x.lo ≤ x.hi)
    (hd : y.hi < x.lo ∨ x.hi < y.lo) : (s.put x v).f y = s.f y := by
  simp only [State.f, State.put, ← ha, State.reg_setReg_self]
  exact fget_fput_ne _ _ _ _ _ _ hh hl hd

/-! ### A calm state -/

/-- In a state with no alarm due and no power transition, nothing follows a command by itself. -/
theorem State.settle_calm (h1 : s.sec.alarmDue = false) (h2 : s.powerAim = 0) : s.settle = s := by
  simp [State.settle, State.wakeCheck, h1, h2]

/-! ### Cores and ports -/

@[simp] theorem State.coreOf_setCore_self (c : Nat) (x : Core) : (s.setCore c x).coreOf c = x := by
  simp [State.coreOf, State.setCore]

theorem State.coreOf_setCore_ne {c d : Nat} (x : Core) (h : c ≠ d) : (s.setCore c x).coreOf d = s.coreOf d := by
  simp [State.coreOf, State.setCore, mget_mset_ne _ _ _ _ _ _ h]

@[simp] theorem State.portOf_setPort_self (n : Nat) (p : Port) : (s.setPort n p).portOf n = p := by
  simp [State.portOf, State.setPort]

theorem State.portOf_setPort_ne {n m : Nat} (p : Port) (h : n ≠ m) : (s.setPort n p).portOf m = s.portOf m := by
  simp [State.portOf, State.setPort, mget_mset_ne _ _ _ _ _ _ h]

end Sys2Proof.Machine
end

