-- ==== Sys2Proof/WellFormed.lean ====
section
/-! DEFINITION. Sys2Proof/WellFormed.lean: the operand ranges of the commands: an index names a part that the M9 has, a register offset a
word of the hub window (R22), an index or mode fits the field that carries it. Every meaning is total; on an operand out of range it acts as
its own rule gives, or changes nothing. -/

namespace Sys2Proof

/-- 10-bit groups (R291). -/
def groupsOk (l : List Nat) : Bool := l.all (fun g => decide (g < 1024))

/-- Slots as they arrive: a group of each of the nine lanes (R289, R292). -/
def slotsOk (slots : List (List Nat)) : Bool := slots.all (fun x => decide (x.length = 9) && groupsOk x)

/-- A command whose operands are in range. -/
def Instr.wf : Instr → Bool
  | .registerWrite src off _ => decide (src < 48) && (off % 4 == 0 && decide (off < 0x1200000))
  | .por boot pull _ => decide (boot < 4) && decide (pull < 4)
  | .glitchDetect => true
  | .devOrdFence src => decide (src < 48)
  | .fenceComplete src => decide (src < 48)
  | .bow _ _ => true
  | .inboundCrossing g => decide (g < 8192)
  | .outboundCrossing g => decide (g < 8192)
  | .apertureInboundWrite n w _ _ => decide (n < 16) && decide (w < 512)
  | .apertureLoRead n w _ => decide (n < 16) && decide (w < 512)
  | .masterRequest n => decide (n < 16)
  | .masterFence n => decide (n < 16)
  | .masterResponse n => decide (n < 16)
  | .targetRequest n id => decide (n < 16) && decide (id < 4096)
  | .targetResponse n => decide (n < 16)
  | .bramPortAccess m _ _ _ => decide (m < 16384)
  | .sliceUpdate sls => sls.all (fun e => decide (e.1 < 12288))
  | .walkRow n _ => decide (n < 16)
  | .copyoutDrain i _ => decide (i < 32768)
  | .trimWindowEnd _ => true
  | .trimRefMissing => true
  | .pllSettingChange p _ => decide (p < 16)
  | .pllLock p => decide (p < 16)
  | .pllLockTimeout p => decide (p < 16)
  | .pllUnlock p => decide (p < 16)
  | .dividerChange _ => true
  | .clockSwitchRequest m src => decide (m < 448) && decide (src < 128)
  | .clockSwitchDone m => decide (m < 448)
  | .clockSwitchForced m => decide (m < 448)
  | .gateClose i => decide (i < 39)
  | .gateStop i => decide (i < 39)
  | .gateTimeout i => decide (i < 39)
  | .gateOpen i => decide (i < 39)
  | .clockMonitorWindow m _ => decide (m < 48)
  | .clockAbsent m => decide (m < 48)
  | .fullLoad src _ _ => decide (src < 4)
  | .partialLoad src _ => decide (src < 4)
  | .firmwareLoad src _ => decide (src < 4)
  | .tablesLoad src _ => decide (src < 4)
  | .blank => true
  | .cfgStart => true
  | .startUpStep => true
  | .cfgAbort => true
  | .sourceTimeout => true
  | .framesRecord => true
  | .repeatRecord => true
  | .zeroRecord => true
  | .contentRecord => true
  | .contentZeroRecord => true
  | .fenceRecord => true
  | .endRecord => true
  | .writeRecord => true
  | .bayReadback up => up.all (fun e => decide (e.1 < 4608 ∧ e.2 < 2 ^ 5152))
  | .prArm mode _ bay => decide (mode < 3) && decide (bay < 128)
  | .prCancel => true
  | .claimMapRebuild => true
  | .scrubFrameRead up _ => up.all (fun e => decide (e.1 < 589824 ∧ e.2 < 2 ^ 5152))
  | .taskDispatch _ _ => true
  | .callerNop u _ => decide (u < 4)
  | .callerCapture u _ => decide (u < 4)
  | .callerDeliver u _ _ => decide (u < 4)
  | .capsend u _ => decide (u < 4)
  | .callerSend u _ _ => decide (u < 4)
  | .callerCopy u _ _ => decide (u < 4)
  | .callerLoad u _ => decide (u < 4)
  | .callerStore u _ _ => decide (u < 4)
  | .callerDelay u _ => decide (u < 4)
  | .setclk u _ => decide (u < 4)
  | .callerFence u _ => decide (u < 4)
  | .callerMeshResponse t _ => decide (t < 64)
  | .dlistExpiry l => decide (l < 8)
  | .bundleArrival n _ _ => decide (n < 16)
  | .spillReadback q _ => decide (q < 16384)
  | .callerDone => true
  | .callerStall => true
  | .clrFault t => decide (t < 4096)
  | .taskFlagWrite t _ _ => decide (t < 4096)
  | .swapGo mode => decide (mode < 4)
  | .syncGo => true
  | .syncDone => true
  | .qportPush _ => true
  | .qportPop _ _ => true
  | .localReady => true
  | .bowAnnounce => true
  | .roundOverrun => true
  | .latStart steps => decide (steps < 65536)
  | .latResume steps => decide (steps < 65536)
  | .stopAbs => true
  | .stopRel => true
  | .stopNow => true
  | .resetLocal => true
  | .resetLattice => true
  | .resetEdge => true
  | .sectorResetRequest _ => true
  | .startMessage n slots _ _ => decide (n < 16) && slotsOk slots
  | .stopMessage n slots _ _ => decide (n < 16) && slotsOk slots
  | .resetMessage n slots _ _ => decide (n < 16) && slotsOk slots
  | .startEdge => true
  | .bowToken n slots _ _ => decide (n < 16) && slotsOk slots
  | .holdToken n slots _ _ => decide (n < 16) && slotsOk slots
  | .relayToken n slots _ _ => decide (n < 16) && slotsOk slots
  | .runToken n slots _ _ => decide (n < 16) && slotsOk slots
  | .peerLost i => decide (i < 64)
  | .nodeOnline => true
  | .beatForm => true
  | .beatMark n slots => decide (n < 16) && slotsOk slots
  | .bulkFrameBuild n => decide (n < 16)
  | .bulkFrame n slots => decide (n < 16) && slotsOk slots
  | .cutIn n slots => decide (n < 16) && slotsOk slots
  | .transitForward n p _ _ => decide (n < 16) && decide (p < 16)
  | .retryRequest n slots _ _ => decide (n < 16) && slotsOk slots
  | .retryTimeout n => decide (n < 16)
  | .replayTimeout n _ _ => decide (n < 16)
  | .creditSlot n slots => decide (n < 16) && slotsOk slots
  | .spareReq n slots => decide (n < 16) && slotsOk slots
  | .spareMirror n slots => decide (n < 16) && slotsOk slots
  | .spareAck n slots => decide (n < 16) && slotsOk slots
  | .spareRetReq n slots => decide (n < 16) && slotsOk slots
  | .spareRetMirror n slots => decide (n < 16) && slotsOk slots
  | .spareRetAck n slots => decide (n < 16) && slotsOk slots
  | .skipSlot n slots => decide (n < 16) && slotsOk slots
  | .signalDetect n _ => decide (n < 16)
  | .trainingSequence n lanes => decide (n < 16) && decide (lanes.length = 9) && lanes.all groupsOk
  | .adaptDone n _ => decide (n < 16)
  | .trainingTimeout n => decide (n < 16)
  | .backoffEnd n => decide (n < 16)
  | .lossOfSignal n l => decide (n < 16) && decide (l < 9)
  | .linkTmo n => decide (n < 16)
  | .retrain n => decide (n < 16)
  | .restart n => decide (n < 16)
  | .spareGo n lane => decide (n < 16) && decide (lane < 16)
  | .recal n l => decide (n < 16) && decide (l < 9)
  | .degradeWindow n => decide (n < 16)
  | .eyeScanGo n _ => decide (n < 16)
  | .eyeScanDone n _ _ => decide (n < 16)
  | .tailCaptureGo mode => decide (mode < 4)
  | .drainStep _ => true
  | .captureComplete => true
  | .mapRebuild k => decide (k < 128)
  | .tailDiscard i => decide (i < 256)
  | .triggerFire u => decide (u < 64)
  | .triggerRearm u => decide (u < 64)
  | .ringRecord k _ => decide (k < 8)
  | .reelinGo slot => decide (slot < 256)
  | .reelinAbort => true
  | .reelinArmed => true
  | .restoreEdge => true
  | .reelinDone => true
  | .exportSlot keySlot slot => decide (keySlot < 256) && decide (slot < 256)
  | .importSlot keySlot => decide (keySlot < 256)
  | .transferAbort => true
  | .transferEnd _ _ => true
  | .meshRequest src _ _ => decide (src < 48)
  | .meshResponse src tag _ _ => decide (src < 48) && decide (tag < 64)
  | .iniTmo src tag => decide (src < 48) && decide (tag < 64)
  | .absorb t => decide (t < 96)
  | .meshResume t => decide (t < 96)
  | .meshMonitorWindow => true
  | .clrHist => true
  | .irqMsg c i _ => decide (c < 17) && decide (i < 512)
  | .hbmRead k _ _ _ => decide (k < 4)
  | .fullLineWrite k _ _ => decide (k < 4)
  | .partialWrite k _ _ _ => decide (k < 4)
  | .tempRead k _ => decide (k < 4)
  | .selfRefreshExit k => decide (k < 4)
  | .memInit => true
  | .initDone _ _ => true
  | .memRekey _ => true
  | .sweepLine k _ => decide (k < 4)
  | .leakWindow n _ => decide (n < 1018)
  | .counterPropagate => true
  | .intLogPop => true
  | .macMpy c _ _ => decide (c < 17)
  | .macMac c _ _ => decide (c < 17)
  | .macMsu c _ _ => decide (c < 17)
  | .macMpyu c _ _ => decide (c < 17)
  | .macMacu c _ _ => decide (c < 17)
  | .macMacsu c _ _ => decide (c < 17)
  | .macClr c _ _ => decide (c < 17)
  | .movesOnly c _ => decide (c < 17)
  | .aluAdd c _ => decide (c < 17)
  | .aluSub c _ => decide (c < 17)
  | .aluAdc c _ => decide (c < 17)
  | .aluSbc c _ => decide (c < 17)
  | .aluAnd c _ => decide (c < 17)
  | .aluOr c _ => decide (c < 17)
  | .aluXor c _ => decide (c < 17)
  | .aluShl c _ => decide (c < 17)
  | .aluShr c _ => decide (c < 17)
  | .aluSar c _ => decide (c < 17)
  | .aluCmp c _ => decide (c < 17)
  | .aluTst c _ => decide (c < 17)
  | .aluMin c _ => decide (c < 17)
  | .aluMax c _ => decide (c < 17)
  | .aluAddp c _ => decide (c < 17)
  | .aluAsh c _ => decide (c < 17)
  | .aluAsat c _ => decide (c < 17)
  | .aluArnd c _ => decide (c < 17)
  | .aluAadd c _ => decide (c < 17)
  | .lsLoad c _ => decide (c < 17)
  | .lsStore c _ => decide (c < 17)
  | .lineLoad c _ => decide (c < 17)
  | .lineStore c _ => decide (c < 17)
  | .atomLr c _ => decide (c < 17)
  | .atomSc c _ => decide (c < 17)
  | .brBra c _ => decide (c < 17)
  | .brBcc c _ => decide (c < 17)
  | .brCall c _ => decide (c < 17)
  | .brJmp c _ => decide (c < 17)
  | .brCallr c _ => decide (c < 17)
  | .brRet c _ => decide (c < 17)
  | .brReti c _ => decide (c < 17)
  | .brRep c _ => decide (c < 17)
  | .brRepr c _ => decide (c < 17)
  | .brBrk c _ => decide (c < 17)
  | .coreWait c _ => decide (c < 17)
  | .brNop c _ => decide (c < 17)
  | .brLoopv c _ => decide (c < 17)
  | .brTrap c _ => decide (c < 17)
  | .movx c _ => decide (c < 17)
  | .ldi c _ => decide (c < 17)
  | .ldih c _ => decide (c < 17)
  | .interruptEntry c => decide (c < 17)
  | .windowLoadResponse c => decide (c < 17)
  | .postedStoreError c => decide (c < 17)
  | .timerEnable c i _ => decide (c < 17) && decide (i < 2)
  | .timerExpiry c i => decide (c < 17) && decide (i < 2)
  | .watchdogEnable c _ => decide (c < 17)
  | .watchdogKick c _ => decide (c < 17)
  | .watchdogWindowOpen c => decide (c < 17)
  | .watchdogExpiry c => decide (c < 17)
  | .watchdogReset c => decide (c < 17)
  | .coreHold c => decide (c < 17)
  | .coreRelease c => decide (c < 17)
  | .selfReset c => decide (c < 17)
  | .stMemData c _ _ => decide (c < 17)
  | .doorbell c _ => decide (c < 17)
  | .swirq c _ => decide (c < 17)
  | .semLr src i => decide (src < 48) && decide (i < 256)
  | .semSc src i _ => decide (src < 48) && decide (i < 256)
  | .semWrite i _ => decide (i < 256)
  | .testLogicReset => true
  | .extest v _ => decide (v < 2 ^ 863)
  | .samplePreload v _ => decide (v < 2 ^ 863)
  | .idcode => true
  | .clamp => true
  | .highz => true
  | .extestPulse v _ => decide (v < 2 ^ 863)
  | .extestTrain v _ => decide (v < 2 ^ 863)
  | .dbgReg => true
  | .auth => true
  | .cfgData => true
  | .bypass code => decide (6 < code) && decide (code < 16 ∨ 18 < code) && decide (code < 256)
  | .debugRead addr _ => (addr % 4 == 0 && decide (addr < 2 ^ 48))
  | .debugWrite addr _ _ => (addr % 4 == 0 && decide (addr < 2 ^ 48))
  | .debugAccessDone => true
  | .challengeRequest _ => true
  | .responseWord _ => true
  | .authCheck => true
  | .cfgDataWord _ => true
  | .dbgAttach src => decide (src < 48)
  | .dbgDetach src => decide (src < 48)
  | .dbgHalt src c => decide (src < 48) && decide (c < 17)
  | .haltEntry c => decide (c < 17)
  | .breakpoint c => decide (c < 17)
  | .dbgResume src c => decide (src < 48) && decide (c < 17)
  | .dbgStep src c => decide (src < 48) && decide (c < 17)
  | .dbgFeed src c _ => decide (src < 48) && decide (c < 17)
  | .coreRegisterAccess src c _ _ => decide (src < 48) && decide (c < 17)
  | .ballastWindow _ _ => true
  | .consumerOver _ => true
  | .memoryPortStop _ => true
  | .droopTrip die => decide (die < 5)
  | .droopRelease => true
  | .powerRequest st => decide (st < 4)
  | .powerWake _ => true
  | .powerTransitionEnd => true
  | .ltrUpdate _ _ _ => true
  | .hostTlp p => match p with
    | .mem _ _ _ _ _ _ _ _ _ _ => true
    | .config _ _ _ => true
    | .bar i _ => decide (i < 4)
    | .header i => decide (i < 16)
    | .power _ => true
  | .hostCompletion _ _ _ _ _ => true
  | .hostTimeout _ => true
  | .hotReset => true
  | .pcieLinkUp _ _ => true
  | .deviceIrq i => decide (i < 512)
  | .msixMessage v => decide (v < 2048)
  | .ringEnable r _ => decide (r < 1024)
  | .ringDoorbell r v => decide (r < 1024) && decide (v < 65536)
  | .descriptorStart r _ => decide (r < 1024)
  | .descriptorComplete r _ => decide (r < 1024)
  | .bind src _ => decide (src < 48)
  | .seal src _ => decide (src < 48)
  | .progSk src slot _ => decide (src < 48) && decide (slot < 4)
  | .revokeSk src slot _ => decide (src < 48) && decide (slot < 4)
  | .progDbg src _ => decide (src < 48)
  | .progKey src slot _ => decide (src < 48) && decide (slot < 4)
  | .incVersion src _ => decide (src < 48)
  | .fuseCommandDone _ => true
  | .keySlotLoad src slot _ => decide (src < 48) && decide (slot < 8)
  | .keySlotClear src slot _ => decide (src < 48) && decide (slot < 8)
  | .unlockOpen src reg => decide (src < 48) && decide (reg < 3)
  | .alarmRaise src => decide (src < 48)
  | .alarmClear src mask => decide (src < 48) && decide (mask < 128)
  | .rngHealthFail => true
  | .ownerChange _ => true
  | .gpioSet b _ => decide (b < 5)
  | .gpioClr b _ => decide (b < 5)
  | .bankSupplyChange b range => decide (b < 5) && decide (range < 3)
  | .uartTx u v => decide (u < 2) && decide (v < 256)
  | .uartTransmitDone u _ => decide (u < 2)
  | .uartReceive u v _ => decide (u < 2) && decide (v < 256)
  | .uartData u => decide (u < 2)
  | .i2cStart c _ => decide (c < 2)
  | .i2cWrite c v _ => decide (c < 2) && decide (v < 256)
  | .i2cReadAck c _ => decide (c < 2)
  | .i2cReadNack c _ => decide (c < 2)
  | .i2cStop c _ => decide (c < 2)
  | .i2cCommandDone c _ _ _ => decide (c < 2)
  | .i2cTimeout c => decide (c < 2)
  | .spiTx v => decide (v < 256)
  | .spiFrameDone v => decide (v < 256)
  | .spiData => true
  | .trigPulse k => decide (k < 4)
  | .trigPulseEnd k => decide (k < 4)
  | .trigInputEdge k _ => decide (k < 4)
  | .gondolaPoll _ _ => true
  | .gondolaToHbm len => decide (len < 2 ^ 24)
  | .hbmToGondola len => decide (len < 2 ^ 24)
  | .gondolaAbort => true
  | .gondolaTransferEnd _ _ _ => true
  | .tetOutWrite reg v => decide (reg < 6) && decide (v < 2 ^ 64)
  | .tetherRefresh => true
  | .outMsg _ => true
  | .cfgMsg _ => true
  | .clkMsg _ => true
  | .pulseMsg _ => true
  | .inMsg v _ => decide (v < 2 ^ 64)
  | .statusMsg vt _ => decide (vt < 2 ^ 12)
  | .tetherLoss => true
  | .targetSilence => true
  | .ckinWindow _ _ => true
  | .lanesAligned n _ _ => decide (n < 16)
  | .statusSlotDue n => decide (n < 16)
  | .skipDue n => decide (n < 16)
  | .probeHit u => decide (u < 64)
  | .clearingRead src off => decide (src < 48) && (off % 4 == 0 && decide (off < 0x1200000))
  | .counterParityRead n _ => decide (n < 1018)
  | .ballInputChange _ => true
  | .claimMapRebuildDone => true
  | .liveMapRebuildDone k => decide (k < 128)
  | .freeFfClockEdge m _ => decide (m < 448)
  | .asyncSrAssert _ => true

end Sys2Proof
end

