-- ==== Sys2Proof/Tests/Slice0.lean ====
section
/-! SUPPORT. Sys2Proof/Tests/Slice0.lean: the author's own tests: ill-formed terms for every check of WellFormed, the spec's worked examples, and
for every statement a state and operands that meet its hypotheses (wit_…). -/

open Sys2Proof Sys2Proof.Machine

section

set_option linter.unusedVariables false
set_option Elab.async false

/-! ### Helpers -/

/-- The state after reset with the values `l` in registers. -/
def regsAre (l : List (Nat × Nat)) (s : State := State.reset) : State := l.foldl (fun t e => t.setReg e.1 (BitVec.ofNat 32 e.2)) s
/-- Global clock 0 runs from OSC. -/
def runClk : Clk := { Clk.init with muxCur := [(16, 42)], applied := [(CLK_GCLK_CFG 0, 0x80000000#32)] }
/-- The state after reset with the fabric `f`, whose clocks run. -/
def fabIs (f : Fabric) (s : State := State.reset) : State := { s with fab := { f with gatesOpen := true, hold := false }, clk := runClk }
/-- A bus of `w` constants with the value `v`. -/
def busC (w v : Nat) : List (List Net) := (List.range w).map (fun i => [.const (v.testBit i)])
/-- The state after reset with bay b0 of sector 15 in RUN, PCLK and BCLK of it on global clock 0, the ports fed as `l` says, and `m` the mesh. -/
def portsAre (l : List CfgItem) (f : Fabric := Fabric.init) (m : Mesh := Mesh.init) : State :=
  fabIs { f with frames := [(552960, ⟨0, .pclk 0 :: .bclk 0 :: l, 0, 0⟩)] } { regsAre [(CFG_BAY_STAT 120, 2 ^ 29)] with mesh := m }
/-- A port of a block memory that is never enabled. -/
def portOff : PortCfg := ⟨64, 0, false, true, .readFirst, false, [], [], [], List.replicate 8 [.const true], [], []⟩
/-- A port of a block memory that is always enabled, with the write enable `w`, at row 5, writing 3. -/
def portOn (w : Bool) : PortCfg :=
  ⟨64, 0, false, w, .readFirst, false, [], [[.const true], [], [.const true]], [[.const true], [.const true]],
    List.replicate 8 [.const true], [.const true], []⟩
/-- Cell 0 of S0.X0.Y0 with a free flip-flop whose D is 1 and whose SR is asserted and asynchronous, and its cluster. -/
def oneCell (sr : List Nat) : List CfgItem :=
  [.cell ⟨0, .l6, 0xFFFFFFFFFFFFFFFF#64, false, false, [], ⟨[0], [0], [4], sr, true, false⟩, ⟨[0], [], [], [], false, false⟩⟩,
   .cluster ⟨0, .zero, [(0, false)], [], [([.const true], true)]⟩]
/-- A slice that multiplies its inputs 1 and 1 into P. -/
def oneSlice : SliceCfg :=
  ⟨0, .pass, .mul, false, false, false, false, false, false, false, true, 0, false, [], [], [], [], false,
    [[.const true]], [[.const true]], [], [], []⟩
/-- A round in progress with the Caller enabled and the tables `b`, and the step `x` on unit 3. -/
def callerIs (b : Bank) (x : Option CStep) (q : List (Nat × CQueue)) (l : List (Nat × Nat)) : State :=
  { regsAre ((LAT_STAT, 3 * 2 ^ 29) :: (CALLER_CTRL, 2 ^ 31) :: l) with
    call := { Caller.init with active := b, units := [(3, x)], queue := q } }
/-- A step of task 4095 that is new on its unit. -/
def newStep : CStep := ⟨4095, 0, none, 0, none, 0, none, none, 0, none, none, none, none⟩
/-- The descriptor of task 4095 with `op` and its operands, and queues 1 and 2 that are valid with DEPTH 4. -/
def stepBank (op a b c : Nat) : Bank :=
  ⟨[(32760, BitVec.ofNat 32 (2 ^ 31 + op)), (32761, BitVec.ofNat 32 a), (32762, BitVec.ofNat 32 b), (32763, BitVec.ofNat 32 c)], [],
    [(2, BitVec.ofNat 32 (2 ^ 31 + 3 * 2 ^ 23)), (4, BitVec.ofNat 32 (2 ^ 31 + 3 * 2 ^ 23))]⟩
/-- HBM that has a pair of keys and serves with every gate open, the Tail enabled, and the values `l` in registers. -/
def memOn (l : List (Nat × Nat)) : State :=
  { regsAre ([(MEM_STAT, 2 ^ 30), (CLK_GATE_EN1, 127), (TAIL_CTRL, 2 ^ 31), (TAIL_SPOOL_SLOTS, 256), (SEC_ALARM_CFG, 0)] ++
      (List.range 4).map (fun k => (MEM_STACK_STAT k, 2 ^ 30)) ++ l) with
    hbm := { Hbm.init with keys := some ⟨5, 7⟩ }, clk := { Clk.init with muxCur := [(0, 1)] } }
/-- Memory whose slot 255 of the Spool holds the header of a snapshot of round 5 with no list entries. -/
def spooled (l : List (Nat × Nat)) : State :=
  ((memOn l).lineWrite ((memOn l).slotBase 255) (0x53504C31 + 2 ^ 32 + 5 * 2 ^ 128) 0).1
/-- Core `c` runs at program address 0, where the word `w` stands, and is `x` otherwise. -/
def coreAt (c : Nat) (w : Word) (x : Core) (l : List (Nat × Nat)) : State :=
  { regsAre ((ST_STAT c, 2 ^ 29) :: l) with core := [(c, { x with pm := [(0, BitVec.ofNat 39 (encode32 w.toNat false))] })] }
/-- A load of `op` in phase `ph` with a section of type `ty` for `tgt` in progress, whose `slen` bytes are `plain`, and the values `l` in
registers. -/
def loadingAt (op ph ty tgt plain slen : Nat) (l : List (Nat × Nat)) (h : List Nat) : State :=
  { regsAre ([(CFG_STAT, 2 ^ 31 + ph * 2 ^ 24)] ++ l) with
    cfg := { Cfg.init with load := some ⟨op, 2, tgt, 1, 0, 0, some 0, [], some ⟨⟨0, ty, tgt, 16384, slen, 0, 0⟩, plain, 0, [], []⟩, none⟩, boot := 0 },
    fab := { Fabric.init with held := h } }
/-- A list of slots as groups on the nine lanes, each transmitter starting at negative running disparity; LS sends K28.5. -/
def onWire : List (List Sym) → List Bool → List (List Nat)
  | [], _ => []
  | x :: rest, rd =>
    let g := (List.range 9).map (fun k => encodeSym (x.getD k k285) (rd.getD k false))
    g.map (·.1) :: onWire rest (g.map (·.2))
/-- The urgent frame `u` with its LSEQ `q` on the wire. -/
def urgentWire (u : Urgent) (q : Nat) : List (List Nat) := onWire (u.slots q) []
/-- Symbols in a row as groups of one lane. -/
def laneWire : List Sym → Bool → List Nat
  | [], _ => []
  | x :: rest, rd => (encodeSym x rd).1 :: laneWire rest (encodeSym x rd).2
/-- A training sequence on nine lanes. -/
def tsWire (ty port node flags rx tx : Nat) : List (List Nat) := (List.range 9).map (fun l => laneWire (trainSyms ty l port node flags rx tx) false)

/-! ### WellFormed: each check refuses a term -/

theorem test_wf_refuses_1 : ([
    .bayReadback [(4608, 0)], .bayReadback [(0, 2 ^ 5152)], .scrubFrameRead [(589824, 0)] 0, .sliceUpdate [(12288, 0)],
    .hostTlp (.bar 4 0), .hostTlp (.header 16), .bypass 6, .bypass 17, .bypass 256, .trainingSequence 0 [],
    .trainingSequence 0 (List.replicate 9 [1024]), .registerWrite 48 0 0, .registerWrite 0 0x1200000 0, .registerWrite 0 2 0,
    .por 4 0 false, .por 0 4 false, .devOrdFence 48, .fenceComplete 48, .inboundCrossing 8192, .outboundCrossing 8192,
    .apertureInboundWrite 16 0 0 0, .apertureInboundWrite 0 512 0 0, .apertureLoRead 16 0 false, .apertureLoRead 0 512 false,
    .masterRequest 16, .masterFence 16, .masterResponse 16, .targetRequest 16 0, .targetRequest 0 4096, .targetResponse 16,
    .bramPortAccess 16384 false false [], .walkRow 16 [], .copyoutDrain 32768 [], .pllSettingChange 16 0, .pllLock 16,
    .pllLockTimeout 16, .pllUnlock 16, .clockSwitchRequest 448 0, .clockSwitchRequest 0 128, .clockSwitchDone 448,
    .clockSwitchForced 448, .gateClose 39, .gateStop 39, .gateTimeout 39, .gateOpen 39, .clockMonitorWindow 48 0, .clockAbsent 48,
    .fullLoad 4 false ⟨0, 0, 0⟩, .partialLoad 4 ⟨0, 0, 0⟩, .firmwareLoad 4 ⟨0, 0, 0⟩, .tablesLoad 4 ⟨0, 0, 0⟩, .prArm 3 false 0,
    .prArm 0 false 128, .callerNop 4 none, .callerCapture 4 none, .callerDeliver 4 .ok none, .capsend 4 none, .callerSend 4 .ok none,
    .callerCopy 4 .ok none, .callerLoad 4 none] : List Instr).all (fun i => !i.wf) = true := by decide +kernel

theorem test_wf_refuses_2 : ([
    .callerStore 4 .ok none, .callerDelay 4 none, .setclk 4 none, .callerFence 4 none, .callerMeshResponse 64 none, .dlistExpiry 8,
    .bundleArrival 16 .ok false, .spillReadback 16384 [], .clrFault 4096, .taskFlagWrite 4096 false 0, .swapGo 4, .latStart 65536,
    .latResume 65536, .startMessage 16 [] .ok false, .startMessage 0 [[0]] .ok false,
    .startMessage 0 [[0, 0, 0, 0, 0, 0, 0, 0, 1024]] .ok false, .stopMessage 16 [] .ok false, .stopMessage 0 [[0]] .ok false,
    .stopMessage 0 [[0, 0, 0, 0, 0, 0, 0, 0, 1024]] .ok false, .resetMessage 16 [] .ok false, .resetMessage 0 [[0]] .ok false,
    .resetMessage 0 [[0, 0, 0, 0, 0, 0, 0, 0, 1024]] .ok false, .bowToken 16 [] .ok false, .bowToken 0 [[0]] .ok false,
    .bowToken 0 [[0, 0, 0, 0, 0, 0, 0, 0, 1024]] .ok false, .holdToken 16 [] .ok false, .holdToken 0 [[0]] .ok false,
    .holdToken 0 [[0, 0, 0, 0, 0, 0, 0, 0, 1024]] .ok false, .relayToken 16 [] .ok false, .relayToken 0 [[0]] .ok false,
    .relayToken 0 [[0, 0, 0, 0, 0, 0, 0, 0, 1024]] .ok false, .runToken 16 [] .ok false, .runToken 0 [[0]] .ok false,
    .runToken 0 [[0, 0, 0, 0, 0, 0, 0, 0, 1024]] .ok false, .peerLost 64, .beatMark 16 [], .beatMark 0 [[0]],
    .beatMark 0 [[0, 0, 0, 0, 0, 0, 0, 0, 1024]], .bulkFrameBuild 16, .bulkFrame 16 [], .bulkFrame 0 [[0]],
    .bulkFrame 0 [[0, 0, 0, 0, 0, 0, 0, 0, 1024]], .cutIn 16 [], .cutIn 0 [[0]], .cutIn 0 [[0, 0, 0, 0, 0, 0, 0, 0, 1024]],
    .transitForward 16 0 .ok false, .transitForward 0 16 .ok false, .retryRequest 16 [] [] false, .retryRequest 0 [[0]] [] false,
    .retryRequest 0 [[0, 0, 0, 0, 0, 0, 0, 0, 1024]] [] false, .retryTimeout 16, .replayTimeout 16 [] false, .creditSlot 16 [],
    .creditSlot 0 [[0]], .creditSlot 0 [[0, 0, 0, 0, 0, 0, 0, 0, 1024]], .spareReq 16 [], .spareReq 0 [[0]],
    .spareReq 0 [[0, 0, 0, 0, 0, 0, 0, 0, 1024]], .spareMirror 16 [], .spareMirror 0 [[0]]] : List Instr).all (fun i => !i.wf) = true := by decide +kernel

theorem test_wf_refuses_3 : ([
    .spareMirror 0 [[0, 0, 0, 0, 0, 0, 0, 0, 1024]], .spareAck 16 [], .spareAck 0 [[0]], .spareAck 0 [[0, 0, 0, 0, 0, 0, 0, 0, 1024]],
    .spareRetReq 16 [], .spareRetReq 0 [[0]], .spareRetReq 0 [[0, 0, 0, 0, 0, 0, 0, 0, 1024]], .spareRetMirror 16 [],
    .spareRetMirror 0 [[0]], .spareRetMirror 0 [[0, 0, 0, 0, 0, 0, 0, 0, 1024]], .spareRetAck 16 [], .spareRetAck 0 [[0]],
    .spareRetAck 0 [[0, 0, 0, 0, 0, 0, 0, 0, 1024]], .skipSlot 16 [], .skipSlot 0 [[0]], .skipSlot 0 [[0, 0, 0, 0, 0, 0, 0, 0, 1024]],
    .signalDetect 16 0, .trainingSequence 16 (List.replicate 9 []), .adaptDone 16 [], .trainingTimeout 16, .backoffEnd 16,
    .lossOfSignal 16 0, .lossOfSignal 0 9, .linkTmo 16, .retrain 16, .restart 16, .spareGo 16 0, .spareGo 0 16, .recal 16 0, .recal 0 9,
    .degradeWindow 16, .eyeScanGo 16 0, .eyeScanDone 16 0 false, .tailCaptureGo 4, .mapRebuild 128, .tailDiscard 256, .triggerFire 64,
    .triggerRearm 64, .ringRecord 8 [], .reelinGo 256, .exportSlot 256 0, .exportSlot 0 256, .importSlot 256,
    .meshRequest 48 ⟨false, none, 0⟩ false, .meshResponse 48 0 0 ⟨false, none, 0⟩, .meshResponse 0 64 0 ⟨false, none, 0⟩, .iniTmo 48 0,
    .iniTmo 0 64, .absorb 96, .meshResume 96, .irqMsg 17 0 ⟨false, none, 0⟩, .irqMsg 0 512 ⟨false, none, 0⟩, .hbmRead 4 0 [] false,
    .fullLineWrite 4 0 false, .partialWrite 4 0 [] false, .tempRead 4 0, .selfRefreshExit 4, .sweepLine 4 [], .leakWindow 1018 false,
    .macMpy 17 0 0] : List Instr).all (fun i => !i.wf) = true := by decide +kernel

theorem test_wf_refuses_4 : ([
    .macMac 17 0 0, .macMsu 17 0 0, .macMpyu 17 0 0, .macMacu 17 0 0, .macMacsu 17 0 0, .macClr 17 0 0, .movesOnly 17 0, .aluAdd 17 0,
    .aluSub 17 0, .aluAdc 17 0, .aluSbc 17 0, .aluAnd 17 0, .aluOr 17 0, .aluXor 17 0, .aluShl 17 0, .aluShr 17 0, .aluSar 17 0,
    .aluCmp 17 0, .aluTst 17 0, .aluMin 17 0, .aluMax 17 0, .aluAddp 17 0, .aluAsh 17 0, .aluAsat 17 0, .aluArnd 17 0, .aluAadd 17 0,
    .lsLoad 17 0, .lsStore 17 0, .lineLoad 17 0, .lineStore 17 0, .atomLr 17 0, .atomSc 17 0, .brBra 17 0, .brBcc 17 0, .brCall 17 0,
    .brJmp 17 0, .brCallr 17 0, .brRet 17 0, .brReti 17 0, .brRep 17 0, .brRepr 17 0, .brBrk 17 0, .coreWait 17 0, .brNop 17 0,
    .brLoopv 17 0, .brTrap 17 0, .movx 17 0, .ldi 17 0, .ldih 17 0, .interruptEntry 17, .windowLoadResponse 17, .postedStoreError 17,
    .timerEnable 17 0 0, .timerEnable 0 2 0, .timerExpiry 17 0, .timerExpiry 0 2, .watchdogEnable 17 0, .watchdogKick 17 0,
    .watchdogWindowOpen 17, .watchdogExpiry 17] : List Instr).all (fun i => !i.wf) = true := by decide +kernel

theorem test_wf_refuses_5 : ([
    .watchdogReset 17, .coreHold 17, .coreRelease 17, .selfReset 17, .stMemData 17 false 0, .doorbell 17 0, .swirq 17 0, .semLr 48 0,
    .semLr 0 256, .semSc 48 0 0, .semSc 0 256 0, .semWrite 256 0, .extest (2 ^ 863) 0, .samplePreload (2 ^ 863) 0,
    .extestPulse (2 ^ 863) 0, .extestTrain (2 ^ 863) 0, .debugRead (2 ^ 48) false, .debugRead 2 false, .debugWrite (2 ^ 48) false 0,
    .debugWrite 2 false 0, .dbgAttach 48, .dbgDetach 48, .dbgHalt 48 0, .dbgHalt 0 17, .haltEntry 17, .breakpoint 17, .dbgResume 48 0,
    .dbgResume 0 17, .dbgStep 48 0, .dbgStep 0 17, .dbgFeed 48 0 0, .dbgFeed 0 17 0, .coreRegisterAccess 48 0 false none,
    .coreRegisterAccess 0 17 false none, .droopTrip 5, .powerRequest 4, .deviceIrq 512, .msixMessage 2048, .ringEnable 1024 0,
    .ringDoorbell 1024 0, .ringDoorbell 0 65536, .descriptorStart 1024 none, .descriptorComplete 1024 ⟨false, false, 0⟩, .bind 48 false,
    .seal 48 false, .progSk 48 0 false, .progSk 0 4 false, .revokeSk 48 0 false, .revokeSk 0 4 false, .progDbg 48 false,
    .progKey 48 0 false, .progKey 0 4 false, .incVersion 48 false, .keySlotLoad 48 0 false, .keySlotLoad 0 8 false,
    .keySlotClear 48 0 false, .keySlotClear 0 8 false, .unlockOpen 48 0, .unlockOpen 0 3, .alarmRaise 48] : List Instr).all (fun i => !i.wf) = true := by decide +kernel

theorem test_wf_refuses_6 : ([
    .alarmClear 48 0, .alarmClear 0 128, .gpioSet 5 0, .gpioClr 5 0, .bankSupplyChange 5 0, .bankSupplyChange 0 3, .uartTx 2 0,
    .uartTx 0 256, .uartTransmitDone 2 0, .uartReceive 2 0 false, .uartReceive 0 256 false, .uartData 2, .i2cStart 2 false,
    .i2cWrite 2 0 false, .i2cWrite 0 256 false, .i2cReadAck 2 false, .i2cReadNack 2 false, .i2cStop 2 false,
    .i2cCommandDone 2 0 false false, .i2cTimeout 2, .spiTx 256, .spiFrameDone 256, .trigPulse 4, .trigPulseEnd 4, .trigInputEdge 4 false,
    .gondolaToHbm (2 ^ 24), .hbmToGondola (2 ^ 24), .tetOutWrite 6 0, .tetOutWrite 0 (2 ^ 64), .inMsg (2 ^ 64) [],
    .statusMsg (2 ^ 12) [], .lanesAligned 16 0 0, .statusSlotDue 16, .skipDue 16, .probeHit 64, .clearingRead 48 0,
    .clearingRead 0 0x1200000, .clearingRead 0 2, .counterParityRead 1018 false, .liveMapRebuildDone 128, .freeFfClockEdge 448 false] : List Instr).all (fun i => !i.wf) = true := by decide +kernel

theorem test_wf_accepts_1 : ([
    .registerWrite 0 0 0, .por 0 0 false, .glitchDetect, .devOrdFence 0, .fenceComplete 0, .bow [] [], .inboundCrossing 0,
    .outboundCrossing 0, .apertureInboundWrite 0 0 0 0, .apertureLoRead 0 0 false, .masterRequest 0, .masterFence 0, .masterResponse 0,
    .targetRequest 0 0, .targetResponse 0, .bramPortAccess 0 false false [], .sliceUpdate [], .walkRow 0 [], .copyoutDrain 0 [],
    .trimWindowEnd 0, .trimRefMissing, .pllSettingChange 0 0, .pllLock 0, .pllLockTimeout 0, .pllUnlock 0, .dividerChange 0,
    .clockSwitchRequest 0 0, .clockSwitchDone 0, .clockSwitchForced 0, .gateClose 0, .gateStop 0, .gateTimeout 0, .gateOpen 0,
    .clockMonitorWindow 0 0, .clockAbsent 0, .fullLoad 0 false ⟨0, 0, 0⟩, .partialLoad 0 ⟨0, 0, 0⟩, .firmwareLoad 0 ⟨0, 0, 0⟩,
    .tablesLoad 0 ⟨0, 0, 0⟩, .blank, .cfgStart, .startUpStep, .cfgAbort, .sourceTimeout, .framesRecord, .repeatRecord, .zeroRecord,
    .contentRecord, .contentZeroRecord, .fenceRecord, .endRecord, .writeRecord, .bayReadback [], .prArm 0 false 0, .prCancel,
    .claimMapRebuild, .scrubFrameRead [] 0, .taskDispatch [] [], .callerNop 0 none, .callerCapture 0 none, .callerDeliver 0 .ok none,
    .capsend 0 none, .callerSend 0 .ok none, .callerCopy 0 .ok none, .callerLoad 0 none, .callerStore 0 .ok none, .callerDelay 0 none,
    .setclk 0 none, .callerFence 0 none, .callerMeshResponse 0 none, .dlistExpiry 0, .bundleArrival 0 .ok false, .spillReadback 0 [],
    .callerDone, .callerStall, .clrFault 0, .taskFlagWrite 0 false 0, .swapGo 0, .syncGo, .syncDone, .qportPush false, .qportPop .ok [],
    .localReady, .bowAnnounce, .roundOverrun, .latStart 0, .latResume 0, .stopAbs, .stopRel, .stopNow] : List Instr).all (fun i => i.wf) = true := by decide +kernel

theorem test_wf_accepts_2 : ([
    .resetLocal, .resetLattice, .resetEdge, .sectorResetRequest 0, .startMessage 0 [] .ok false, .stopMessage 0 [] .ok false,
    .resetMessage 0 [] .ok false, .startEdge, .bowToken 0 [] .ok false, .holdToken 0 [] .ok false, .relayToken 0 [] .ok false,
    .runToken 0 [] .ok false, .peerLost 0, .nodeOnline, .beatForm, .beatMark 0 [], .bulkFrameBuild 0, .bulkFrame 0 [], .cutIn 0 [],
    .transitForward 0 0 .ok false, .retryRequest 0 [] [] false, .retryTimeout 0, .replayTimeout 0 [] false, .creditSlot 0 [],
    .spareReq 0 [], .spareMirror 0 [], .spareAck 0 [], .spareRetReq 0 [], .spareRetMirror 0 [], .spareRetAck 0 [], .skipSlot 0 [],
    .signalDetect 0 0, .trainingSequence 0 (List.replicate 9 []), .adaptDone 0 [], .trainingTimeout 0, .backoffEnd 0, .lossOfSignal 0 0,
    .linkTmo 0, .retrain 0, .restart 0, .spareGo 0 0, .recal 0 0, .degradeWindow 0, .eyeScanGo 0 0, .eyeScanDone 0 0 false,
    .tailCaptureGo 0, .drainStep [], .captureComplete, .mapRebuild 0, .tailDiscard 0, .triggerFire 0, .triggerRearm 0, .ringRecord 0 [],
    .reelinGo 0, .reelinAbort, .reelinArmed, .restoreEdge, .reelinDone, .exportSlot 0 0, .importSlot 0, .transferAbort, .transferEnd 0 0,
    .meshRequest 0 ⟨false, none, 0⟩ false, .meshResponse 0 0 0 ⟨false, none, 0⟩, .iniTmo 0 0, .absorb 0, .meshResume 0,
    .meshMonitorWindow, .clrHist, .irqMsg 0 0 ⟨false, none, 0⟩, .hbmRead 0 0 [] false, .fullLineWrite 0 0 false,
    .partialWrite 0 0 [] false, .tempRead 0 0, .selfRefreshExit 0, .memInit, .initDone ⟨0, 0⟩ 0, .memRekey ⟨0, 0⟩, .sweepLine 0 [],
    .leakWindow 0 false, .counterPropagate, .intLogPop, .macMpy 0 0 0, .macMac 0 0 0, .macMsu 0 0 0, .macMpyu 0 0 0, .macMacu 0 0 0,
    .macMacsu 0 0 0, .macClr 0 0 0, .movesOnly 0 0] : List Instr).all (fun i => i.wf) = true := by decide +kernel

theorem test_wf_accepts_3 : ([
    .aluAdd 0 0, .aluSub 0 0, .aluAdc 0 0, .aluSbc 0 0, .aluAnd 0 0, .aluOr 0 0, .aluXor 0 0, .aluShl 0 0, .aluShr 0 0, .aluSar 0 0,
    .aluCmp 0 0, .aluTst 0 0, .aluMin 0 0, .aluMax 0 0, .aluAddp 0 0, .aluAsh 0 0, .aluAsat 0 0, .aluArnd 0 0, .aluAadd 0 0, .lsLoad 0 0,
    .lsStore 0 0, .lineLoad 0 0, .lineStore 0 0, .atomLr 0 0, .atomSc 0 0, .brBra 0 0, .brBcc 0 0, .brCall 0 0, .brJmp 0 0, .brCallr 0 0,
    .brRet 0 0, .brReti 0 0, .brRep 0 0, .brRepr 0 0, .brBrk 0 0, .coreWait 0 0, .brNop 0 0, .brLoopv 0 0, .brTrap 0 0, .movx 0 0,
    .ldi 0 0, .ldih 0 0, .interruptEntry 0, .windowLoadResponse 0, .postedStoreError 0, .timerEnable 0 0 0, .timerExpiry 0 0,
    .watchdogEnable 0 0, .watchdogKick 0 0, .watchdogWindowOpen 0, .watchdogExpiry 0, .watchdogReset 0, .coreHold 0, .coreRelease 0,
    .selfReset 0, .stMemData 0 false 0, .doorbell 0 0, .swirq 0 0, .semLr 0 0, .semSc 0 0 0, .semWrite 0 0, .testLogicReset, .extest 0 0,
    .samplePreload 0 0, .idcode, .clamp, .highz, .extestPulse 0 0, .extestTrain 0 0, .dbgReg, .auth, .cfgData, .bypass 255,
    .debugRead 0 false, .debugWrite 0 false 0, .debugAccessDone, .challengeRequest 0, .responseWord 0, .authCheck, .cfgDataWord 0,
    .dbgAttach 0, .dbgDetach 0, .dbgHalt 0 0, .haltEntry 0, .breakpoint 0, .dbgResume 0 0, .dbgStep 0 0, .dbgFeed 0 0 0,
    .coreRegisterAccess 0 0 false none, .ballastWindow [] []] : List Instr).all (fun i => i.wf) = true := by decide +kernel

theorem test_wf_accepts_4 : ([
    .consumerOver [], .memoryPortStop [], .droopTrip 0, .droopRelease, .powerRequest 0, .powerWake false, .powerTransitionEnd,
    .ltrUpdate 0 0 false, .hostTlp (.config false false false), .hostCompletion .image false false 0 ⟨false, false, 0⟩,
    .hostTimeout .image, .hotReset, .pcieLinkUp 0 0, .deviceIrq 0, .msixMessage 0, .ringEnable 0 0, .ringDoorbell 0 0,
    .descriptorStart 0 none, .descriptorComplete 0 ⟨false, false, 0⟩, .bind 0 false, .seal 0 false, .progSk 0 0 false,
    .revokeSk 0 0 false, .progDbg 0 false, .progKey 0 0 false, .incVersion 0 false, .fuseCommandDone false, .keySlotLoad 0 0 false,
    .keySlotClear 0 0 false, .unlockOpen 0 0, .alarmRaise 0, .alarmClear 0 0, .rngHealthFail, .ownerChange none, .gpioSet 0 0,
    .gpioClr 0 0, .bankSupplyChange 0 0, .uartTx 0 0, .uartTransmitDone 0 0, .uartReceive 0 0 false, .uartData 0, .i2cStart 0 false,
    .i2cWrite 0 0 false, .i2cReadAck 0 false, .i2cReadNack 0 false, .i2cStop 0 false, .i2cCommandDone 0 0 false false, .i2cTimeout 0,
    .spiTx 0, .spiFrameDone 0, .spiData, .trigPulse 0, .trigPulseEnd 0, .trigInputEdge 0 false, .gondolaPoll false [], .gondolaToHbm 0,
    .hbmToGondola 0, .gondolaAbort, .gondolaTransferEnd 0 [] [], .tetOutWrite 0 0, .tetherRefresh, .outMsg [], .cfgMsg [], .clkMsg [],
    .pulseMsg [], .inMsg 0 [], .statusMsg 0 [], .tetherLoss, .targetSilence, .ckinWindow 0 0, .lanesAligned 0 0 0, .statusSlotDue 0,
    .skipDue 0, .probeHit 0, .clearingRead 0 0, .counterParityRead 0 false, .ballInputChange [], .claimMapRebuildDone,
    .liveMapRebuildDone 0, .freeFfClockEdge 0 false, .asyncSrAssert 0] : List Instr).all (fun i => i.wf) = true := by decide +kernel

/-! ### The spec's worked examples, and standard test vectors of the algorithms that it names -/

/-- File 00, locating a register block. -/
theorem test_register_blocks : coreBase 5 = 0x1050000 ∧ CALLER_CTRL / 0x100000 = 6 := by decide

/-- File 11, where a line and its tag live. -/
theorem test_line_and_tag : memStack 0x12345640 = 2 ∧ memLocal 0x12345640 = 0x123455 ∧ tagAddr 0x12345640 = 0x001681234654 := by decide

/-- R402: columns of data bits 0, 1, 55 and 56, and C(0). -/
theorem test_secded_columns :
    check64 0 = 0 ∧ check64 1 = 7 ∧ check64 2 = 11 ∧ check64 (2 ^ 55) = 0xE0 ∧ check64 (2 ^ 56) = 0x1F := by decide +kernel

/-- FIPS-197, C.3: AES-256 of the sample block. -/
theorem test_aes256 : aes256 0x1f1e1d1c1b1a191817161514131211100f0e0d0c0b0a09080706050403020100 0xffeeddccbbaa99887766554433221100 =
    0x8960494b9049fceabf456751cab7a28e := by decide +kernel

/-- The check value of the CRC of R293 over the digits 1 to 9. -/
theorem test_crc16 : crc16 [0x31, 0x32, 0x33, 0x34, 0x35, 0x36, 0x37, 0x38, 0x39] = 0x29B1 := by decide +kernel

/-- The check value of CRC-32 over the digits 1 to 9. -/
theorem test_crc32 : crcBytes 9 0x393837363534333231 0xFFFFFFFF ^^^ 0xFFFFFFFF = 0xCBF43926 := by decide +kernel

/-- The check value of the CRC-8 of R293 over the digits 1 to 9. -/
theorem test_crc8 : crc8 [0x31, 0x32, 0x33, 0x34, 0x35, 0x36, 0x37, 0x38, 0x39] = 0xF4 := by decide +kernel

/-- The 8b/10b groups of K28.5 at both disparities and of D0.0 and D21.5, bit a being bit 0 (the standard code table). -/
theorem test_8b10b : encodeSym k285 false = (0x17C, true) ∧ encodeSym k285 true = (0x283, false) ∧ encodeSym (dsym 0) false = (0x0B9, false) ∧
    (encodeSym (dsym 0xB5) false).1 = 0x155 := by decide +kernel

/-- File 08, a cut-in inside a bulk frame: the header of three bundles, b0 across slots 1 and 2, b1 from L4 of slot 2, and the trailer. -/
theorem test_bulk_slots :
    let b0 : Entry := ⟨0, 0, 0x8877665544332211, false, false, false, 1⟩
    let b1 : Entry := ⟨0, 0, 0xAA, false, false, false, 1⟩
    let l := [b0, b1, b1]
    bulkSlots 3 = 5 ∧ bulkSlot l 0 = k277 :: ([2, 0, 0, 0, 0, 0, 0].map dsym) ∧
      (bulkSlot l 1).drop 4 = [0x11, 0x22, 0x33, 0x44].map dsym ∧ (bulkSlot l 2).take 4 = [0x55, 0x66, 0x77, 0x88].map dsym ∧
      bulkSlot l 3 = dslot [0xAA] ∧ (bulkTrailer l 0x42 0x17).take 3 = [0x42, 0x17, 0].map dsym ∧ (bulkTrailer l 0x42 0x17).getD 7 k285 = k297 := by
  decide +kernel

/-- File 10, two aperture reads from the host at H4 port 0: the trips to S3 and S12, and the response from S12. -/
theorem test_trips : tripCycles 80 12 = 12 ∧ tripCycles 12 80 = 12 ∧ tripCycles 80 48 = 36 ∧ tripCycles 48 80 = 30 := by decide +kernel

/-- A slice in MULADD with signed operands and no registers. -/
def mulAdd : SliceCfg :=
  ⟨0, .pass, .muladd, true, true, false, false, false, false, false, false, 0, false, [], [], [], [], false, [], [], [], [], []⟩

/-- File 03, a residue check in MULADD: P, its residue 2, no poison; with bit 3 of M flipped, the check fails. -/
theorem test_slice_residue :
    (sliceOut mulAdd SliceReg.init ⟨sOperand 27 true 1000000 false, sOperand 24 true (2 ^ 24 - 5000) false,
      sOperand 64 true 12345 false, SReg.init⟩ SReg.init 0).1 = ⟨BitVec.ofInt 64 (-4999987655), 2, false⟩ ∧
    (sliceOut mulAdd SliceReg.init ⟨sOperand 27 true 1000000 false, sOperand 24 true (2 ^ 24 - 5000) false,
      sOperand 64 true 12345 false, SReg.init⟩ SReg.init 8).2.2.1 = true := by decide +kernel

/-- File 11, a memory leaf through two windows: the leak at 3,145,728 takes leaf 199 from 5 to 4. -/
theorem test_leaf_leak : (match execLeakWindow 199 false { regsAre [(INT_LEAF_STAT 199, 5)] with fig := 3145728 } with
    | .next t => t.f (INT_LEAF_STAT_COUNT 199)
    | _ => 0) = 4 := by decide +kernel

/-- The same leaf: the parity fault found at 4,700,000 ends in CNT_FAULT, and bucket 6 is due 1. -/
theorem test_leaf_fault : (match execCounterParityRead 199 true { regsAre [(INT_LEAF_STAT 199, 5)] with fig := 4700000 } with
    | .next t => (t.f (INT_LEAF_STAT_COUNT 199), t.intg.due)
    | _ => (9, [])) = (0, [(6, 4700000)]) := by decide +kernel

/-- R523: with LAT_TOL 100 µs and a MARGIN of 8 µs the deepest eligible state is Moored; Packed needs 2,008 µs. -/
theorem test_eligible : (regsAre [(BAL_LAT_TOL, 100)]).eligible = 2 ∧ (regsAre [(BAL_LAT_TOL, 2008)]).eligible = 3 ∧
    (regsAre [(BAL_LAT_TOL, 2007)]).eligible = 2 := by decide +kernel

/-- R538: 3 × 32^4 ns; a scale of 6 is no value. -/
theorem test_ltr : ltrLatency 0x1003 = 3145728 ∧ ltrLatency 0x1803 = 0 ∧ ltrTol 3145728 0 = 3145 := by decide

/-- File 14, one sector at its allowance: S5 used 42,000 TF and held, so it requests 32 tokens. -/
theorem test_request : (match execBallastWindow [0, 0, 0, 0, 0, 42000] []
      { regsAre [(BAL_CON_ALLOW 5, 42000), (BAL_CON_RES 5, 9000), (BAL_CON_GRANT 5, 28)] with
        bal := { Ballast.init with next := [(5, 28)], held := [5] } } with
    | .next t => (t.f (BAL_CON_GRANT_REQ 5), t.allow 5)
    | _ => (0, 0)) = (32, 42000) := by decide +kernel

/-- File 16, GP002 from GPIO to UART0: at the end of the switch the owner is UART, and TX idles at 1. -/
theorem test_gp002 : (regsAre [(PIN_CFG 2, 0x280), (PIN_PERIPH_EN, 1)]).pinTarget 2 = 2 ∧
    (regsAre [(PIN_CFG 2, 0x20000280), (PIN_PERIPH_EN, 1)]).periphDrive 2 = some true := by decide +kernel

/-- File 12, a 32-tap filter: the MAC word. -/
theorem test_mac_word : insnKind 0x08030142#32 = some 2 ∧ fget 0x08030142#32 16 9 = 0x80 ∧ fget 0x08030142#32 8 1 = 0xA1 := by decide

/-- File 12, a windowed watchdog across a halt: at release 1,500 is raised to 4,096. -/
theorem test_watchdog_resume : (((regsAre [(ST_WDT_CTRL 7, 2 ^ 31), (ST_WDT_CNT 7, 1500)]).coreThaw 7).f (ST_WDT_CNT_CNT 7)) = 4096 := by
  decide +kernel

/-- R509: E below the floors: every grant is its floor's share, in whole tokens. -/
theorem test_grants_short : State.reset.balGrants 100 = List.replicate 17 2 := by decide +kernel

/-! ### Every statement's hypotheses are met -/

theorem wit_StepRunsTheFront :
    (∃ (s : State) (c : Instr) (rest : List Instr), s.pending = c :: rest) ∧ (∃ s : State, s.pending = []) :=
  ⟨⟨{ State.reset with pending := [.por 0 0 false] }, .por 0 0 false, [], rfl⟩, ⟨State.reset, rfl⟩⟩

theorem wit_EveryCommandCompletes :
    (∃ i : Instr, ∀ (b p : Nat) (e : Bool), i ≠ .por b p e) ∧ (∃ s : State, s.pending = [] ∧ s.figRuns = true ∧ s.edgeAwaits = false) ∧
      (∃ s : State, s.pending = [] ∧ s.figRuns = true ∧ s.edgeAwaits = true) ∧
      ∃ s : State, s.pending = [] ∧ s.figRuns = false :=
  ⟨⟨.droopRelease, by intro b p e h; cases h⟩, ⟨State.reset, by decide +kernel⟩,
    ⟨{ State.reset with fig := 1500 }, by decide +kernel⟩,
    ⟨{ State.reset with clk := { Clk.init with muxCur := [(0, 1)], stopped := [0] } }, by decide +kernel⟩⟩

theorem wit_StepsKeepTablesCanonical : ∃ s t : State, s.Canon ∧ step s = .next t :=
  ⟨{ State.reset with pending := [.deviceIrq 5] }, _, by unfold State.Canon; decide +kernel, rfl⟩

theorem wit_FusesOnlyGain : ∃ s t : State, step s = .next t :=
  ⟨{ State.reset with pending := [.deviceIrq 5] }, _, rfl⟩

theorem wit_LineReadsBack :
    (∃ (s : State) (src a data : Nat) (k : KeyPair), s.memServe a = .inr k ∧ a % 64 = 0 ∧ a < 0x001680000000 ∧ data < 2 ^ 512) ∧
    (∃ (s : State) (a b data : Nat) (k : KeyPair), s.memServe a = .inr k ∧ a % 64 = 0 ∧ b % 64 = 0 ∧ a < 0x001680000000 ∧ b <
      0x001680000000 ∧ a ≠ b ∧ (∀ x : TagLine, mget s.hbm.cache none (tagLineOf a) = some x → x.ue = false) ∧ (s.tagLines (memStack (64 *
      tagLineOf a))).length < 2048) :=
  ⟨⟨memOn [], 20, 0x1640000040, 2 ^ 511 + 7, ⟨5, 7⟩, by decide +kernel⟩,
    ⟨memOn [], 0x1640000040, 0x1640000000, 2 ^ 511 + 7, ⟨5, 7⟩, by decide +kernel⟩⟩

theorem wit_PoisonedWordBitError :
    (∃ d i : Nat, d < 2 ^ 64 ∧ i < 72 ∧ i < 48) ∧ (∃ d i : Nat, d < 2 ^ 64 ∧ i < 72 ∧ 64 ≤ i) ∧
      ∃ d i : Nat, d < 2 ^ 64 ∧ i < 72 ∧ 48 ≤ i ∧ i < 64 :=
  ⟨⟨5, 47, by decide⟩, ⟨5, 71, by decide⟩, ⟨5, 63, by decide⟩⟩

theorem wit_OrderingBlockReset :
    (∃ (s : State) (src : Nat), hasOrder src = true) :=
  ⟨{ regsAre [(DEV_ORD_STATUS 47, 2 ^ 30), (DEV_ORD_WAIT 47, 1)] with mesh := { Mesh.init with fences := [(47, [(1, [], true)])] } }, 47, by decide +kernel⟩

theorem wit_OrderingBlocks :
    (∃ (s : State) (src : Nat), hasOrder src = true ∧ (s.fencesOf src).length < 16) ∧
    (∃ (s : State) (src : Nat), hasOrder src = true ∧ 16 ≤ (s.fencesOf src).length) ∧
    (∃ (s : State) (src k : Nat) (err : Bool) (rest : List (Nat × List Nat × Bool)), hasOrder src = true ∧ s.fencesOf src = (k, [], err)
      :: rest ∧ s.mesh.heldWr = []) :=
  ⟨⟨State.reset, 20, by decide +kernel⟩,
    ⟨{ State.reset with mesh := { Mesh.init with fences := [(3, List.replicate 16 (1, [], false))] } }, 3, by decide +kernel⟩,
    ⟨{ regsAre [(DEV_ORD_STATUS 47, 2 ^ 30), (DEV_ORD_WAIT 47, 1)] with mesh := { Mesh.init with fences := [(47, [(1, [], true), (2, [5], false)])] } }, 47, 1, true, [(2, [5], false)], by decide +kernel⟩⟩

theorem wit_CounterTree_1 :
    (∃ (s : State) (n : Nat), n ∈ cntAll ∧ s.on (cntEnF n) = true ∧ n ∉ s.intg.bad ∧ n ∉ s.intg.leaked ∧ s.fig.toNat % 2 ^ max 10 (s.f
      (cntLeakF n)) = 0) ∧
    (∃ (s : State) (n : Nat) (bad : Bool), n ∈ cntAll ∧ (bad = true ∨ n ∈ s.intg.bad)) ∧
    (∃ (s : State) (b e : Nat), b < 18 ∧ s.intg.due = [(b, e)] ∧ e < s.fig.toNat ∧ s.fig.toNat % 1024 ≠ 0 ∧ s.on (cntEnF (1000 + b)) =
      true ∧ 1000 + b ∉ s.intg.bad ∧ 1000 + b ∉ s.intg.overs ∧ s.f (cntF (1000 + b)) + 1 < s.f (cntThrF (1000 + b))) :=
  ⟨⟨regsAre [(INT_BKT_CFG 17, 2 ^ 31 + 5), (INT_BKT_STAT 17, 7)], 1017, by decide +kernel⟩,
    ⟨{ regsAre [(INT_LEAF_STAT 522, 9)] with intg := { Integ.init with bad := [522] } }, 522, false, by decide +kernel⟩,
    ⟨{ State.reset with fig := 5, intg := { Integ.init with due := [(17, 4)] } }, 17, 4, by decide +kernel⟩⟩

theorem wit_CounterTree_2 :
    (∃ (s : State) (r : IntRec) (rest : List IntRec), s.intg.log = r :: rest ∧ r.stamp ≠ s.fig.toNat % 2 ^ 48) :=
  ⟨{ State.reset with intg := { Integ.init with log := [⟨2, true, 0, 2 ^ 40 + 5⟩] } }, ⟨2, true, 0, 2 ^ 40 + 5⟩, [], by decide +kernel⟩

theorem wit_RegisterWrite :
    (∃ (s : State) (src off : Nat) (v : Word) (r : RegSpec) (f : FieldSpec), s.Calm ∧ off % 4 = 0 ∧ 0x300000 ≤ off ∧ off < 0x400000 ∧
      regAt off = some r ∧ r.log = false ∧ f ∈ r.fields ∧ s.mesh.heldWr = []) ∧
    (∃ (s : State) (src off : Nat) (r : RegSpec) (f : FieldSpec), s.Calm ∧ off % 4 = 0 ∧ 0x300000 ≤ off ∧ off < 0x400000 ∧ off ≠
      INT_LOG_POP ∧ cntAt off = none ∧ regAt off = some r ∧ f ∈ r.fields) :=
  ⟨⟨regsAre [(INT_BKT_STAT 17, 2 ^ 31 + 5)], 0, 0x300214, 0xFFFFFFFF#32, ⟨0x300104, [(18, 0x10)], false, false, false, false, [⟨31, 31, .w1c, 0⟩, ⟨23, 16, .ro, 0⟩, ⟨15, 0, .ro, 0⟩]⟩, ⟨31, 31, .w1c, 0⟩, by decide +kernel⟩,
    ⟨regsAre [(INT_LOG_LOST, 7)], 0, 0x30000C, ⟨0x30000C, [], false, false, false, false, [⟨31, 0, .rc, 0⟩]⟩, ⟨31, 0, .rc, 0⟩, by decide +kernel⟩⟩

theorem wit_PowerOnReset :
    (∃ (s : State) (boot pull : Nat), True) :=
  ⟨{ State.reset with sec := { Security.init with fuses := { Security.init.fuses with bound := true } } }, 3, 2, by decide +kernel⟩

theorem wit_BoundaryWords_1 :
    (∃ (s : State) (g : Nat), s.bclkRuns (g / 64) = true ∧ g ∈ s.fab.inDue ∧ s.bayCut (g / 64) = false ∧ s.fab.hold = false) ∧
    (∃ (s : State) (g : Nat), s.bayCut (g / 64) = true) ∧
    (∃ (s : State) (g : Nat), s.bclkRuns (g / 64) = false) :=
  ⟨⟨portsAre [] { Fabric.init with inDue := [7743], inFig := [(7743, ⟨5, true⟩)] }, 7743, by decide +kernel⟩,
    ⟨fabIs { Fabric.init with inDue := [8191], inFig := [(8191, ⟨5, true⟩)], held := [127] }, 8191, by decide +kernel⟩,
    ⟨fabIs { Fabric.init with inDue := [8191], inFig := [(8191, ⟨5, true⟩)] }, 8191, by decide +kernel⟩⟩

theorem wit_BoundaryWords_2 :
    (∃ (s : State) (g : Nat), g < 8192 ∧ s.bclkRuns (g / 64) = true ∧ s.bayCut (g / 64) = false ∧ s.fab.hold = false) ∧
    (∃ (s : State) (n w r : Nat) (v : Word), n < 16 ∧ w < 512 ∧ r < 3 ∧ s.stopped = true ∧ s.fab.hold = false) ∧
    (∃ (s : State) (n w r : Nat) (v : Word), s.stopped = false) :=
  ⟨⟨portsAre [.bndOut 7743 [[.const true]] [.const true]], 7743, by decide +kernel⟩,
    ⟨fabIs { Fabric.init with inFig := [(8191, ⟨5, true⟩)] }, 15, 511, 1, 0xABCD0123#32, by decide +kernel⟩,
    ⟨fabIs Fabric.init (regsAre [(LAT_STAT, 3 * 2 ^ 29)]), 15, 511, 2, 1, by decide +kernel⟩⟩

theorem wit_BoundaryWords_3 :
    (∃ (s : State) (n w : Nat) (out : Bool), n < 16 ∧ w < 512) :=
  ⟨fabIs { Fabric.init with outFig := [(8191, ⟨7 * 2 ^ 40, true⟩)], used := [(16383, true)] }, 15, 511, true, by decide +kernel⟩

theorem wit_MasterPorts_1 :
    (∃ (s : State) (n : Nat), s.chanOpen n 0 = true ∧ (s.fabSig n .mFenceReq 1 = 0 ∨ s.chanFree n 2 = false) ∧ s.fabSig n .mReqValid 1 = 1
      ∧ s.tagFree n (s.masterAcc n).tag = true ∧ (s.masterAcc n).size ≤ 64 ∧ (s.masterAcc n).addr % (s.masterAcc n).size = 0) ∧
    (∃ (s : State) (n : Nat), s.chanOpen n 0 = true ∧ (s.fabSig n .mFenceReq 1 = 0 ∨ s.chanFree n 2 = false) ∧ s.fabSig n .mReqValid 1 = 1
      ∧ s.tagFree n (s.masterAcc n).tag = true ∧ (64 < (s.masterAcc n).size ∨ (s.masterAcc n).addr % (s.masterAcc n).size ≠ 0)) ∧
    (∃ (s : State) (n : Nat), s.chanOpen n 0 = true ∧ (s.fabSig n .mFenceReq 1 = 0 ∨ s.chanFree n 2 = false) ∧ s.tagFree n (s.masterAcc
      n).tag = false) :=
  ⟨⟨portsAre [.portIn .mReqValid (busC 1 1), .portIn .mReqAddr (busC 48 0x1004), .portIn .mReqSize (busC 3 0), .portIn .mReqTag (busC 6 63), .portIn .mReqWrite (busC 1 1), .portIn .mReqBe (busC 64 240), .portIn .mReqData (busC 40 0x100000000)], 15, by decide +kernel⟩,
    ⟨portsAre [.portIn .mReqValid (busC 1 1), .portIn .mReqAddr (busC 48 0x1006), .portIn .mReqSize (busC 3 0), .portIn .mReqTag (busC 6 63), .portIn .mReqWrite (busC 1 1), .portIn .mReqBe (busC 64 240), .portIn .mReqData (busC 40 0x100000000)], 15, by decide +kernel⟩,
    ⟨portsAre [.portIn .mReqValid (busC 1 1), .portIn .mReqAddr (busC 48 0x1004), .portIn .mReqSize (busC 3 0), .portIn .mReqTag (busC 6 63), .portIn .mReqWrite (busC 1 1), .portIn .mReqBe (busC 64 240), .portIn .mReqData (busC 40 0x100000000)] Fabric.init { Mesh.init with tags := [(3071, .quarantined)] }, 15, by decide +kernel⟩⟩

theorem wit_MasterPorts_2 :
    (∃ (s : State) (n : Nat), s.chanOpen n 2 = true ∧ s.fabSig n .mFenceReq 1 = 1 ∧ (s.fencesOf (32 + n)).length < 16) ∧
    (∃ (s : State) (n : Nat), n < 16 ∧ s.sectorLive n = true ∧ (mget s.fab.portView PortView.init n).rsp = none) ∧
    (∃ (s : State) (n : Nat) (r : MRsp), s.chanOpen n 1 = true ∧ (mget s.fab.portView PortView.init n).rsp = some r ∧ (s.masterIn
      n).fabSig n .mRspReady 1 = 1) :=
  ⟨⟨portsAre [.portIn .mFenceReq (busC 1 1)], 15, by decide +kernel⟩,
    ⟨portsAre [] { Fabric.init with mRsp := [(15, [⟨1, 0, 0, 7, 0⟩])] } { Mesh.init with inbox := [(47, [(⟨47, 2, false, 64, 4, 0, 0, 0, 0⟩, ⟨0, 0, 9, 0⟩)])] }, 15, by decide +kernel⟩,
    ⟨portsAre [.portIn .mRspReady (busC 1 1)] { Fabric.init with mRsp := [(15, [⟨1, 0, 0, 7, 0⟩])], portView := [(15, ⟨some ⟨1, 0, 0, 7, 0⟩, none, none⟩)] } { Mesh.init with inbox := [(47, [(⟨47, 2, false, 64, 4, 0, 0, 0, 0⟩, ⟨0, 0, 9, 0⟩)])] }, 15, ⟨1, 0, 0, 7, 0⟩, by decide +kernel⟩⟩

theorem wit_MasterPorts_3 :
    (∃ (s : State) (n : Nat), n < 16 ∧ s.sectorLive n = false) :=
  ⟨{ State.reset with mesh := { Mesh.init with inbox := [(47, [(⟨47, 2, false, 64, 4, 0, 0, 0, 0⟩, ⟨0, 0, 9, 0⟩)])] } }, 15, by decide +kernel⟩

theorem wit_TargetPorts_1 :
    (∃ (s : State) (n id i : Nat) (w : Wait), n < 16 ∧ id < 4096 ∧ s.sectorLive n = true ∧ s.pclkRuns n = true ∧ mget s.fab.tShow none n =
      none ∧ s.tgtNext n = some (i, w) ∧ (mget s.fab.tReq [] n).length < 32 ∧ ((mget s.fab.tReq [] n).any (fun e => e.1 == id)) = false) ∧
    (∃ (s : State) (n id : Nat) (x : Nat × Nat) (r : TReq), s.chanOpen n 3 = true ∧ mget s.fab.tShow none n = some x ∧ (mget
      s.fab.portView PortView.init n).req = some r ∧ s.fabSig n .tReqReady 1 = 1) ∧
    (∃ (s : State) (n id : Nat) (w : Wait) (rest : List Wait), n < 16 ∧ s.sectorLive n = false ∧ s.waits (4 * n + 1) = w :: rest ∧ w.ghost
      = false) :=
  ⟨⟨portsAre [] Fabric.init { Mesh.init with waiting := [(61, [⟨⟨17, 3, true, 0x010F00000000, 4, 15, 9, 0, 0⟩, false, 0⟩])] }, 15, 4095, 0, ⟨⟨17, 3, true, 0x010F00000000, 4, 15, 9, 0, 0⟩, false, 0⟩, by decide +kernel⟩,
    ⟨portsAre [.portIn .tReqReady (busC 1 1)] { Fabric.init with tShow := [(15, some (4095, 1091))], portView := [(15, ⟨none, none, some ⟨4095, true, 0, 0, 15, 9, 0⟩⟩)] } { Mesh.init with waiting := [(61, [⟨⟨17, 3, true, 0x010F00000000, 4, 15, 9, 0, 0⟩, false, 0⟩])] }, 15, 0, (4095, 1091), ⟨4095, true, 0, 0, 15, 9, 0⟩, by decide +kernel⟩,
    ⟨{ State.reset with mesh := { Mesh.init with waiting := [(61, [⟨⟨17, 3, true, 0x010F00000000, 4, 15, 9, 0, 0⟩, false, 0⟩])] } }, 15, 0, ⟨⟨17, 3, true, 0x010F00000000, 4, 15, 9, 0, 0⟩, false, 0⟩, [], by decide +kernel⟩⟩

theorem wit_TargetPorts_2 :
    (∃ (s : State) (n i j : Nat) (w : Wait), s.chanOpen n 4 = true ∧ s.fabSig n .tRspValid 1 = 1 ∧ ((mget s.fab.tReq [] n).findIdx? (fun e
      => e.1 == s.fabSig n .tRspId 12)) = some i ∧ s.tgtIndex n i = some j ∧ (s.waits (4 * n + 1))[j]? = some w ∧ w.ghost = false) ∧
    (∃ (s : State) (n : Nat), s.chanOpen n 4 = true ∧ s.fabSig n .tRspValid 1 = 1 ∧ ((mget s.fab.tReq [] n).findIdx? (fun e => e.1 ==
      s.fabSig n .tRspId 12)) = none ∧ s.on MESH_ERR_LOG_VALID = false) :=
  ⟨⟨portsAre [.portIn .tRspValid (busC 1 1), .portIn .tRspId (busC 12 4095), .portIn .tRspData (busC 8 77)] { Fabric.init with tReq := [(15, [(4095, 1091)])] } { Mesh.init with waiting := [(61, [⟨⟨17, 3, false, 0x010F00000000, 4, 15, 9, 0, 0⟩, false, 0⟩])] }, 15, 0, 0, ⟨⟨17, 3, false, 0x010F00000000, 4, 15, 9, 0, 0⟩, false, 0⟩, by decide +kernel⟩,
    ⟨portsAre [.portIn .tRspValid (busC 1 1), .portIn .tRspId (busC 12 4095)], 15, by decide +kernel⟩⟩

theorem wit_FreeRunningEdges_1 :
    (∃ (s : State) (m : Nat) (fall : Bool) (c : CellCfg), s.freeClocks = true ∧ s.edgeDue m fall = true ∧ s.fab.hold = false ∧ s.cells =
      [c] ∧ s.ffFree c false = true ∧ bayOfCell c.cell ∉ s.fab.held ∧ ((s.ffSpines c.cell c.ffa).any (fun e => decide ((sectorOfCell
      c.cell, e.1, e.2) ∈ ((s.ckinSeen m fall).clockEdge m fall).2))) = true ∧ s.strobeOpen = none) ∧
    (∃ (s : State) (k : Nat) (c : CellCfg), s.cellCfg (k / 2) = some c ∧ k % 2 = 0 ∧ s.ffFree c false = true ∧ s.ffAsyncSr c.cell c.ffa =
      true ∧ s.fab.hold = false ∧ bayOfCell c.cell ∉ s.fab.held) ∧
    (∃ (s : State) (m : Nat) (c : MemCfg), s.memCfg m = some c ∧ m < 16384 ∧ s.freeClocks = true ∧ s.fab.hold = false ∧ m / 128 ∉
      s.fab.held ∧ s.designPort m c.a = false ∧ s.spineRuns (m / 1024) c.a.clk = true ∧ c.a.clk ≠ c.b.clk ∧ (s.portAcc m c.a).en = true ∧
      (s.portAcc m c.a).write = true) :=
  ⟨⟨fabIs { Fabric.init with frames := [(0, ⟨0, oneCell [], 0, 0⟩)] }, 16, false, ⟨0, .l6, 0xFFFFFFFFFFFFFFFF#64, false, false, [], ⟨[0], [0], [4], [], true, false⟩, ⟨[0], [], [], [], false, false⟩⟩, by decide +kernel⟩,
    ⟨fabIs { Fabric.init with frames := [(0, ⟨0, oneCell [0], 0, 0⟩)] }, 0, ⟨0, .l6, 0xFFFFFFFFFFFFFFFF#64, false, false, [], ⟨[0], [0], [4], [0], true, false⟩, ⟨[0], [], [], [], false, false⟩⟩, by decide +kernel⟩,
    ⟨fabIs { Fabric.init with frames := [(0, ⟨0, [.mem ⟨0, true, false, portOn true, { portOff with clk := 1 }⟩], 0, 0⟩)] }, 0, ⟨0, true, false, portOn true, { portOff with clk := 1 }⟩, by decide +kernel⟩⟩

theorem wit_FreeRunningEdges_2 :
    (∃ (s : State) (m : Nat) (c : MemCfg), s.memCfg m = some c ∧ c.ecc = false ∧ s.freeClocks = true ∧ s.fab.hold = false ∧ m / 128 ∉
      s.fab.held ∧ s.designPort m c.a = false ∧ s.spineRuns (m / 1024) c.a.clk = true ∧ c.a.clk ≠ c.b.clk ∧ s.pinVal (m / 128) c.a.sr =
      false ∧ (s.portAcc m c.a).en = true ∧ (s.portAcc m c.a).write = false) ∧
    (∃ (s : State) (sl flip : Nat) (c : SliceCfg), s.freeClocks = true ∧ s.fab.hold = false ∧ s.sliceCfg sl = some c ∧ s.designSlice c =
      false ∧ s.spineRuns (sl / 768) c.clk = true ∧ sl / 96 ∉ s.fab.held ∧ s.strobeOpen = none) :=
  ⟨⟨fabIs { Fabric.init with rows := [(5, 9)], frames := [(0, ⟨0, [.mem ⟨0, false, false, portOn false, { portOff with clk := 1 }⟩], 0, 0⟩)] }, 0, ⟨0, false, false, portOn false, { portOff with clk := 1 }⟩, by decide +kernel⟩,
    ⟨fabIs { Fabric.init with frames := [(0, ⟨0, [.slice oneSlice], 0, 0⟩)] }, 0, 0, oneSlice, by decide +kernel⟩⟩

theorem wit_TrimAndMonitors_1 :
    (∃ (s : State) (c : Nat), s.on CLK_OSC_TRIM_CTRL_EN = true ∧ s.f CLK_OSC_TRIM_CTRL_SRC ≠ 2) ∧
    (∃ (s : State), s.on CLK_OSC_TRIM_CTRL_EN = true) ∧
    (∃ (s : State) (m c : Nat), s.monOn m = true ∧ s.on (CLK_MON_CFG_ACTION m) = false ∧ c < 0x10000) :=
  ⟨⟨{ regsAre [(CLK_OSC_TRIM_CTRL, 2 ^ 31 + 16 * 65536 + 4 * 4096 + 4094)] with clk := { Clk.init with trimOk := 3 } }, 131076, by decide +kernel⟩,
    ⟨State.reset, by decide +kernel⟩,
    ⟨regsAre [(CLK_MON_CFG 47, 2 ^ 31), (CLK_MON_LIM 47, 2 ^ 16 * 9 + 5)], 47, 4, by decide +kernel⟩⟩

theorem wit_TrimAndMonitors_2 :
    (∃ (s : State) (m : Nat), s.monOn m = true ∧ s.on (CLK_MON_CFG_ACTION m) = false ∧ s.on (CLK_MON_STAT_ABSENT m) = false) ∧
    (∃ (s : State) (m : Nat), s.monOn m = true ∧ 16 ≤ m ∧ s.on (CLK_MON_CFG_ACTION m) = true ∧ s.on (CLK_MON_STAT_ABSENT m) = false ∧ s.f
      (muxField m) ≠ s.f (CLK_GCLK_CFG_ALT_SRC (m - 16))) :=
  ⟨⟨regsAre [(CLK_MON_CFG 47, 2 ^ 31)], 47, by decide +kernel⟩,
    ⟨regsAre [(CLK_MON_CFG 47, 2 ^ 31 + 2 ^ 30), (CLK_GCLK_CFG 31, 5 * 256 + 3)], 47, by decide +kernel⟩⟩

theorem wit_Plls_1 :
    (∃ (s : State) (p : Nat) (w : Word), isPll p = true ∧ (w ^^^ s.reg (CLK_PLL_CTRL p)).toNat.testBit 31 = true) ∧
    (∃ (s : State) (p : Nat), isPll p = true ∧ s.on (CLK_PLL_CTRL_EN p) = true ∧ s.vcoBad p = false ∧ s.on (CLK_PLL_STAT_LOCK p) = false ∧
      (2 ≤ p ∨ p ∈ s.clk.autoDone)) ∧
    (∃ (s : State) (p : Nat), p < 2 ∧ s.on (CLK_PLL_CTRL_EN p) = true ∧ s.on (CLK_PLL_STAT_LOCK p) = false ∧ p ∉ s.clk.autoDone ∧ s.on
      CLK_HUB_SEL_AUTO = true ∧ s.f (muxField p) = 0 ∧ s.on (muxBusy p) = false) :=
  ⟨⟨State.reset, 15, 0x80280001#32, by decide +kernel⟩,
    ⟨{ regsAre [(CLK_PLL_CTRL 15, 2 ^ 31 + 20 * 65536)] with clk := { Clk.init with stopped := [2, 15] } }, 15, by decide +kernel⟩,
    ⟨State.reset, 1, by decide +kernel⟩⟩

theorem wit_Plls_2 :
    (∃ (s : State) (p : Nat), isPll p = true ∧ s.on (CLK_PLL_CTRL_EN p) = true ∧ s.on (CLK_PLL_STAT_LOCK p) = false) ∧
    (∃ (s : State) (p : Nat), isPll p = true ∧ s.on (CLK_PLL_STAT_LOCK p) = true) :=
  ⟨⟨State.reset, 6, by decide +kernel⟩,
    ⟨regsAre [(CLK_PLL_STAT 15, 2 ^ 31)], 15, by decide +kernel⟩⟩

theorem wit_ClockSwitches_1 :
    (∃ (s : State) (m src : Nat), isMux m = true ∧ src < 2 ^ ((muxField m).hi + 1 - (muxField m).lo) ∧ s.f (muxField m) ≠ src ∧ s.on
      (muxBusy m) = false ∧ (m ≠ 0 ∨ src ≠ 0)) ∧
    (∃ (s : State) (m src : Nat), isMux m = true ∧ src < 2 ^ ((muxField m).hi + 1 - (muxField m).lo) ∧ s.f (muxField m) ≠ src ∧ s.on
      (muxBusy m) = true ∧ (m ≠ 0 ∨ src ≠ 0)) ∧
    (∃ (s : State), s.f CLK_HUB_SEL_FIG_SRC = 1) :=
  ⟨⟨State.reset, 447, 5, by decide +kernel⟩,
    ⟨regsAre [(CLK_RCLK_CFG 15 23, 2 ^ 29 + 3)], 447, 5, by decide +kernel⟩,
    ⟨regsAre [(CLK_HUB_SEL, 2 ^ 31 + 1), (LAT_STAT, 3 * 2 ^ 29)], by decide +kernel⟩⟩

theorem wit_ClockSwitches_2 :
    (∃ (s : State) (m src : Nat), isMux m = true ∧ m ≠ 0 ∧ s.bootAt 1 = false ∧ mget s.clk.muxNew none m = some src ∧ mget s.clk.muxHeld
      none m = none) ∧
    (∃ (s : State) (m src h : Nat), isMux m = true ∧ m ≠ 0 ∧ s.bootAt 1 = false ∧ mget s.clk.muxNew none m = some src ∧ mget s.clk.muxHeld
      none m = some h ∧ h ≠ src) ∧
    (∃ (s : State) (src : Nat), s.bootAt 1 = false ∧ mget s.clk.muxNew none 0 = some src ∧ mget s.clk.muxHeld none 0 = none) :=
  ⟨⟨{ regsAre [(CLK_RCLK_CFG 15 23, 2 ^ 29 + 3)] with clk := { Clk.init with muxNew := [(447, some 3)] }, cfg := { Cfg.init with boot := 0 } }, 447, 3, by decide +kernel⟩,
    ⟨{ regsAre [(CLK_RCLK_CFG 15 23, 2 ^ 29 + 3)] with clk := { Clk.init with muxNew := [(447, some 3)], muxHeld := [(447, some 5)] }, cfg := { Cfg.init with boot := 0 } }, 447, 3, 5, by decide +kernel⟩,
    ⟨{ regsAre [(CLK_HUB_SEL, 2 ^ 31 + 2 ^ 29 + 1)] with clk := { Clk.init with muxNew := [(0, some 1)] }, cfg := { Cfg.init with boot := 0 } }, 1, by decide +kernel⟩⟩

theorem wit_ClockSwitches_3 :
    (∃ (s : State) (m src : Nat), isMux m = true ∧ m ≠ 0 ∧ s.bootAt 1 = false ∧ oscSource m (s.muxSrc m) = false ∧ mget s.clk.muxNew none
      m = some src) ∧
    (∃ (s : State) (a : Nat), isDivider a = true) :=
  ⟨⟨{ regsAre [(CLK_RCLK_CFG 15 23, 2 ^ 29 + 3)] with clk := { Clk.init with muxNew := [(447, some 3)], high := [447] }, cfg := { Cfg.init with boot := 0 } }, 447, 3, by decide +kernel⟩,
    ⟨{ regsAre [(CLK_RCLK_CFG 15 23, 2 ^ 31 + 3)] with clk := { Clk.init with phase := [(447, 2)], high := [447] } }, CLK_RCLK_CFG 15 23, by decide +kernel⟩⟩

theorem wit_BlockGates_1 :
    (∃ (s : State) (i : Nat), s.Calm ∧ i < 39 ∧ s.gateSt i = .opened) ∧
    (∃ (s : State) (i : Nat), s.Calm ∧ i < 39 ∧ s.gateSt i = .closing ∧ s.gateOn i = false ∧ (i < 32 ∨ 36 ≤ i ∨ (s.waits (64 + 4 * (i -
      32))).isEmpty = true)) ∧
    (∃ (s : State) (i : Nat), s.Calm ∧ i < 39 ∧ s.gateSt i = .closing ∧ s.gateOn i = false) :=
  ⟨⟨State.reset, 38, by decide +kernel⟩,
    ⟨{ regsAre [(CLK_GATE_EN1, 0x3F)] with clk := { Clk.init with gate := [(38, .closing)] } }, 38, by decide +kernel⟩,
    ⟨{ regsAre [(CLK_GATE_EN1, 0x3F)] with clk := { Clk.init with gate := [(38, .closing)] } }, 38, by decide +kernel⟩⟩

theorem wit_BlockGates_2 :
    (∃ (s : State) (i : Nat), s.Calm ∧ i < 39 ∧ s.gateSt i = .closed ∧ s.powerShuts s.power i = false) :=
  ⟨{ regsAre [(CLK_GATE_EN1, 0x3F)] with clk := { Clk.init with gate := [(38, .closed)] } }, 38, by decide +kernel⟩

theorem wit_LoadsBegin_1 :
    (∃ (s : State) (src : Nat) (auto : Bool) (img : Image), s.Calm ∧ s.loadWaits 0 (src % 4) = false ∧ s.loadRefused 0 = none) ∧
    (∃ (s : State) (src : Nat) (img : Image), s.Calm ∧ s.loadWaits 1 (src % 4) = false ∧ s.loadRefused 1 = none) ∧
    (∃ (s : State) (src : Nat) (img : Image), s.Calm ∧ s.loadWaits 2 (src % 4) = false ∧ s.loadRefused 2 = none) :=
  ⟨⟨State.reset, 0, true, ⟨0, 0, 0⟩, by decide +kernel⟩,
    ⟨regsAre [(CFG_PR_CTRL, 127)], 2, ⟨0, 0, 0⟩, by decide +kernel⟩,
    ⟨regsAre [(CFG_PR_CTRL, 127)], 2, ⟨0, 0, 0⟩, by decide +kernel⟩⟩

theorem wit_LoadsBegin_2 :
    (∃ (s : State) (src : Nat) (img : Image), s.Calm ∧ s.loadWaits 3 (src % 4) = false ∧ s.loadRefused 3 = none) ∧
    (∃ (s : State) (src : Nat) (auto : Bool) (img : Image) (c : Nat), s.Calm ∧ s.loadWaits 0 (src % 4) = false ∧ s.loadRefused 0 = some c) ∧
    (∃ (s : State) (l : Load) (img : Image), s.Calm ∧ s.cfg.load = some l ∧ s.power = 0 ∧ l.src = 2 ∧ s.scanSource = true ∧ l.head = none
      ∧ l.size + 4 * s.scan.buf.length < 16384) :=
  ⟨⟨regsAre [(CFG_STORE_CTRL, 4)], 3, ⟨0, 0, 0⟩, by decide +kernel⟩,
    ⟨regsAre [(CFG_STAT, 2 ^ 31)], 1, true, ⟨0, 0, 0⟩, 0x0C, by decide +kernel⟩,
    ⟨{ State.reset with cfg := { Cfg.init with load := some ⟨2, 2, 3, 1, 0, 0, none, [], none, none⟩ }, scan := { Scan.init with buf := [5, 6] } }, ⟨2, 2, 3, 1, 0, 0, none, [], none, none⟩, ⟨0, 0, 0⟩, by decide +kernel⟩⟩

theorem wit_LoadsBegin_3 :
    (∃ (s : State) (l : Load) (img : Image), s.Calm ∧ s.cfg.load = some l ∧ s.power = 0 ∧ (l.src = 0 ∧ s.on GDL_STAT_PRESENT = false ∨
      l.src = 3 ∧ s.on CFG_STORE_CTRL_GOLDEN_OK = false ∧ s.on CFG_STORE_CTRL_STAGING_OK = false)) ∧
    (∃ (s : State) (l : Load) (x : Sec) (plain : Nat), s.Calm ∧ x.target = l.bay ∧ s.bayFrozen l.bay = true ∧ s.on CFG_STAT_STARTED =
      true) ∧
    (∃ (s : State) (x : Sec) (plain : Nat), s.Calm ∧ s.attached = false) :=
  ⟨⟨{ State.reset with cfg := { Cfg.init with load := some ⟨2, 0, 3, 1, 0, 0, none, [], none, none⟩ } }, ⟨2, 0, 3, 1, 0, 0, none, [], none, none⟩, ⟨0, 0, 0⟩, by decide +kernel⟩,
    ⟨{ regsAre [(CFG_STAT, 2 ^ 28)] with fab := { Fabric.init with held := [127] } }, ⟨1, 0, 127, 1, 0, 0, none, [], none, none⟩, ⟨0, 16, 127, 16384, 4, 0, 0⟩, 0xF0000000, by decide +kernel⟩,
    ⟨State.reset, ⟨0, 2, 15, 16384, 131072, 0, 0⟩, 5, by decide +kernel⟩⟩

theorem wit_LoadsBegin_4 :
    (∃ (s : State) (l : Load) (secs rest : List (Sec × Nat)) (x : Sec × Nat), s.Calm ∧ secs = x :: rest ∧ (secs.all (fun y => tabSecOk y.1
      y.2)) = true ∧ (s.stopped = true ∨ (secs.any (fun y => y.1.ty == 0x20 || y.1.ty == 0x22)) = false)) :=
  ⟨State.reset, ⟨3, 0, 0, 1, 0, 0, none, [], none, none⟩, [(⟨0, 0x22, 0, 16384, 4, 0, 0⟩, 0xC0000000)], [], (⟨0, 0x22, 0, 16384, 4, 0, 0⟩, 0xC0000000), by decide +kernel⟩

theorem wit_LoadRecords_1 :
    (∃ (s : State) (l : Load) (x : Sect) (r : Rec), s.Calm ∧ s.bayLoad = some (l, x) ∧ bayRec x.plain x.sec.slen x.pos = some r ∧ (l.op ≠
      1 ∨ s.bayState x.sec.target = 3) ∧ r.op = 1 ∧ framesNew x r = true ∧ (writeFrames x.sec.target (l.op == 1) (r.named.map (fun i =>
      (i, (r.frame x.plain i).getD 0))) (s.recDone l x r r.named [])).2 = true) :=
  ⟨loadingAt 1 3 16 127 0x11FFE000 648 [(CFG_BAY_STAT 127, 3 * 2 ^ 29)] [127], ⟨1, 2, 127, 1, 0, 0, some 0, [], some ⟨⟨0, 16, 127, 16384, 648, 0, 0⟩, 0x11FFE000, 0, [], []⟩, none⟩, ⟨⟨0, 16, 127, 16384, 648, 0, 0⟩, 0x11FFE000, 0, [], []⟩, ⟨1, 4095, 1, 4⟩, by decide +kernel⟩

theorem wit_LoadRecords_2 :
    (∃ (s : State) (l : Load) (x : Sect) (r : Rec), s.Calm ∧ s.bayLoad = some (l, x) ∧ bayRec x.plain x.sec.slen x.pos = some r ∧ (l.op ≠
      1 ∨ s.bayState x.sec.target = 3) ∧ r.op = 2 ∧ framesNew x r = true ∧ (writeFrames x.sec.target (l.op == 1) (r.named.map (fun i =>
      (i, (r.frame x.plain i).getD 0))) (s.recDone l x r r.named [])).2 = true) :=
  ⟨loadingAt 0 3 16 127 0x21FFA002 648 [] [], ⟨0, 2, 127, 1, 0, 0, some 0, [], some ⟨⟨0, 16, 127, 16384, 648, 0, 0⟩, 0x21FFA002, 0, [], []⟩, none⟩, ⟨⟨0, 16, 127, 16384, 648, 0, 0⟩, 0x21FFA002, 0, [], []⟩, ⟨2, 4093, 3, 4⟩, by decide +kernel⟩

theorem wit_LoadRecords_3 :
    (∃ (s : State) (l : Load) (x : Sect) (r : Rec), s.Calm ∧ s.bayLoad = some (l, x) ∧ bayRec x.plain x.sec.slen x.pos = some r ∧ (l.op ≠
      1 ∨ s.bayState x.sec.target = 3) ∧ r.op = 3 ∧ framesNew x r = true ∧ (writeFrames x.sec.target (l.op == 1) (r.named.map (fun i =>
      (i, (r.frame x.plain i).getD 0))) (s.recDone l x r r.named [])).2 = true) :=
  ⟨loadingAt 1 3 16 127 0x31FFA001 8 [(CFG_BAY_STAT 127, 3 * 2 ^ 29)] [127], ⟨1, 2, 127, 1, 0, 0, some 0, [], some ⟨⟨0, 16, 127, 16384, 8, 0, 0⟩, 0x31FFA001, 0, [], []⟩, none⟩, ⟨⟨0, 16, 127, 16384, 8, 0, 0⟩, 0x31FFA001, 0, [], []⟩, ⟨3, 4093, 2, 4⟩, by decide +kernel⟩

theorem wit_LoadRecords_4 :
    (∃ (s : State) (l : Load) (x : Sect) (r : Rec), s.Calm ∧ s.bayLoad = some (l, x) ∧ bayRec x.plain x.sec.slen x.pos = some r ∧ (l.op ≠
      1 ∨ s.bayState x.sec.target = 3) ∧ r.op = 4 ∧ memsNew x r = true ∧ (l.op ≠ 1 ∨ s.memBusy x.sec.target r.first r.count = false)) :=
  ⟨loadingAt 0 3 16 127 (0x400FE000 + 2 ^ 32 * 77) 4616 [] [], ⟨0, 2, 127, 1, 0, 0, some 0, [], some ⟨⟨0, 16, 127, 16384, 4616, 0, 0⟩, (0x400FE000 + 2 ^ 32 * 77), 0, [], []⟩, none⟩, ⟨⟨0, 16, 127, 16384, 4616, 0, 0⟩, (0x400FE000 + 2 ^ 32 * 77), 0, [], []⟩, ⟨4, 127, 1, 4⟩, by decide +kernel⟩

theorem wit_LoadRecords_5 :
    (∃ (s : State) (l : Load) (x : Sect) (r : Rec), s.Calm ∧ s.bayLoad = some (l, x) ∧ bayRec x.plain x.sec.slen x.pos = some r ∧ (l.op ≠
      1 ∨ s.bayState x.sec.target = 3) ∧ r.op = 5 ∧ memsNew x r = true ∧ (l.op ≠ 1 ∨ s.memBusy x.sec.target r.first r.count = false)) :=
  ⟨loadingAt 0 3 16 127 0x5000007F 8 [] [], ⟨0, 2, 127, 1, 0, 0, some 0, [], some ⟨⟨0, 16, 127, 16384, 8, 0, 0⟩, 0x5000007F, 0, [], []⟩, none⟩, ⟨⟨0, 16, 127, 16384, 8, 0, 0⟩, 0x5000007F, 0, [], []⟩, ⟨5, 0, 128, 4⟩, by decide +kernel⟩

theorem wit_LoadRecords_6 :
    (∃ (s : State) (l : Load) (x : Sect) (r : Rec), s.Calm ∧ s.bayLoad = some (l, x) ∧ bayRec x.plain x.sec.slen x.pos = some r ∧ (l.op ≠
      1 ∨ s.bayState x.sec.target = 3) ∧ r.op = 6 ∧ (s.fencesOf 20).length < 16) :=
  ⟨loadingAt 0 3 16 127 0x60000000 8 [] [], ⟨0, 2, 127, 1, 0, 0, some 0, [], some ⟨⟨0, 16, 127, 16384, 8, 0, 0⟩, 0x60000000, 0, [], []⟩, none⟩, ⟨⟨0, 16, 127, 16384, 8, 0, 0⟩, 0x60000000, 0, [], []⟩, ⟨6, 0, 1, 4⟩, by decide +kernel⟩

theorem wit_LoadRecords_7 :
    (∃ (s : State) (l : Load) (x : Sect) (r : Rec), s.Calm ∧ s.bayLoad = some (l, x) ∧ bayRec x.plain x.sec.slen x.pos = some r ∧ (l.op ≠
      1 ∨ s.bayState x.sec.target = 3) ∧ r.op = 15 ∧ l.readback = none ∧ (l.op ≠ 1 ∨ s.fab.copied = [] ∨ s.memBusy x.sec.target 0 128 =
      false) ∧ (l.op ≠ 0 ∨ (writeFrames x.sec.target false (((List.range 4608).filter (fun i => !decide (i ∈ x.frames))).map (fun i => (i,
      0))) s).2 = true) ∧ (l.op = 1 ∨ l.op = 0 ∧ l.todo = []) ∧ x.sec.target < 128) :=
  ⟨loadingAt 1 3 16 127 0xF0000000 4 [(CFG_BAY_STAT 127, 3 * 2 ^ 29)] [127], ⟨1, 2, 127, 1, 0, 0, some 0, [], some ⟨⟨0, 16, 127, 16384, 4, 0, 0⟩, 0xF0000000, 0, [], []⟩, none⟩, ⟨⟨0, 16, 127, 16384, 4, 0, 0⟩, 0xF0000000, 0, [], []⟩, ⟨15, 0, 1, 4⟩, by decide +kernel⟩

theorem wit_LoadRecords_8 :
    (∃ (s : State) (l : Load) (x : Sect) (r : Rec), s.Calm ∧ s.bayLoad = some (l, x) ∧ bayRec x.plain x.sec.slen x.pos = some r ∧ r.op ≠
      3) :=
  ⟨loadingAt 0 3 16 127 0x60000000 8 [] [], ⟨0, 2, 127, 1, 0, 0, some 0, [], some ⟨⟨0, 16, 127, 16384, 8, 0, 0⟩, 0x60000000, 0, [], []⟩, none⟩, ⟨⟨0, 16, 127, 16384, 8, 0, 0⟩, 0x60000000, 0, [], []⟩, ⟨6, 0, 1, 4⟩, by decide +kernel⟩

theorem wit_LoadRecords_9 :
    (∃ (s : State) (l : Load) (x : Sect), s.Calm ∧ s.bayLoad = some (l, x) ∧ bayRec x.plain x.sec.slen x.pos = none) :=
  ⟨loadingAt 0 3 16 127 0x70000000 8 [] [], ⟨0, 2, 127, 1, 0, 0, some 0, [], some ⟨⟨0, 16, 127, 16384, 8, 0, 0⟩, 0x70000000, 0, [], []⟩, none⟩, ⟨⟨0, 16, 127, 16384, 8, 0, 0⟩, 0x70000000, 0, [], []⟩, by decide +kernel⟩

theorem wit_LoadRecords_10 :
    (∃ (s : State) (l : Load) (x : Sect) (v : Word), s.Calm ∧ s.tableLoad = some (l, x) ∧ tabIsEnd x.plain x.pos = false ∧ l.op = 0 ∧
      tabValues x.plain x.pos = [v] ∧ inShadow (tabOff x.plain x.pos) = true) :=
  ⟨loadingAt 0 6 0x21 0 (0x4063FFFC + 2 ^ 32 + 2 ^ 64 * 0xABCD1234) 16 [] [], ⟨0, 2, 0, 1, 0, 0, some 0, [], some ⟨⟨0, 33, 0, 16384, 16, 0, 0⟩, (0x4063FFFC + 2 ^ 32 + 2 ^ 64 * 0xABCD1234), 0, [], []⟩, none⟩, ⟨⟨0, 33, 0, 16384, 16, 0, 0⟩, (0x4063FFFC + 2 ^ 32 + 2 ^ 64 * 0xABCD1234), 0, [], []⟩, 0xABCD1234#32, by decide +kernel⟩

theorem wit_LoadRecords_11 :
    (∃ (s : State) (l : Load) (x : Sect), s.Calm ∧ s.tableLoad = some (l, x) ∧ tabIsEnd x.plain x.pos = true ∧ l.op = 3 ∧ l.todo = [] ∧
      x.sec.ty ≠ 0x21) :=
  ⟨loadingAt 3 6 0x22 0 0xC0000000 4 [] [], ⟨3, 2, 0, 1, 0, 0, some 0, [], some ⟨⟨0, 34, 0, 16384, 4, 0, 0⟩, 0xC0000000, 0, [], []⟩, none⟩, ⟨⟨0, 34, 0, 16384, 4, 0, 0⟩, 0xC0000000, 0, [], []⟩, by decide +kernel⟩

theorem wit_LoadEnds_1 :
    (∃ (s : State), s.Calm ∧ s.on CFG_STAT_BUSY = false ∧ s.on CFG_STAT_STARTED = false ∧ s.cfg.failed = false) ∧
    (∃ (s : State), s.Calm ∧ s.power = 0 ∧ s.cfg.startStep = 1) ∧
    (∃ (s : State), s.Calm ∧ s.power = 0 ∧ s.cfg.startStep = 2) :=
  ⟨⟨fabIs { Fabric.init with frames := [(0, ⟨0, oneCell [0], 0, 0⟩)] }, by decide +kernel⟩,
    ⟨{ State.reset with cfg := { Cfg.init with startStep := 1 } }, by decide +kernel⟩,
    ⟨{ State.reset with cfg := { Cfg.init with startStep := 2 } }, by decide +kernel⟩⟩

theorem wit_LoadEnds_2 :
    (∃ (s : State), s.Calm ∧ s.power = 0 ∧ s.cfg.startStep = 3) ∧
    (∃ (s : State), s.Calm ∧ s.power = 0 ∧ s.cfg.startStep = 4) ∧
    (∃ (s : State) (l : Load) (k : Nat), s.Calm ∧ s.cfg.load = some l ∧ l.readback = some k ∧ l.op = 1 ∧ (s.fab.frames.all (fun e =>
      e.2.flip == 0)) = true) :=
  ⟨⟨{ State.reset with cfg := { Cfg.init with startStep := 3 } }, by decide +kernel⟩,
    ⟨{ regsAre [(CFG_STAT, 2 ^ 31)] with cfg := { Cfg.init with startStep := 4 } }, by decide +kernel⟩,
    ⟨{ State.reset with cfg := { Cfg.init with load := some ⟨1, 0, 127, 1, 16384, 0, some 0, [], none, some 127⟩ } }, ⟨1, 0, 127, 1, 16384, 0, some 0, [], none, some 127⟩, 127, by decide +kernel⟩⟩

theorem wit_LoadEnds_3 :
    (∃ (s : State) (l : Load), s.Calm ∧ s.cfg.load = some l ∧ l.op ≠ 1) ∧
    (∃ (s : State) (l : Load), s.Calm ∧ s.cfg.load = some l ∧ l.op = 1 ∧ l.bay ∈ s.fab.held) ∧
    (∃ (s : State) (l : Load), s.Calm ∧ s.cfg.load = some l ∧ l.op ≠ 1 ∧ l.reads = true) :=
  ⟨⟨{ regsAre [(CFG_STAT, 2 ^ 31)] with cfg := { Cfg.init with load := some ⟨2, 0, 0, 1, 16384, 0, some 0, [], none, none⟩ } }, ⟨2, 0, 0, 1, 16384, 0, some 0, [], none, none⟩, by decide +kernel⟩,
    ⟨{ regsAre [(CFG_STAT, 2 ^ 31)] with cfg := { Cfg.init with load := some ⟨1, 0, 127, 1, 16384, 0, some 0, [], none, none⟩ }, fab := { Fabric.init with held := [127] } }, ⟨1, 0, 127, 1, 16384, 0, some 0, [], none, none⟩, by decide +kernel⟩,
    ⟨{ regsAre [(CFG_STAT, 2 ^ 31)] with cfg := { Cfg.init with load := some ⟨2, 1, 0, 1, 0, 0, none, [], none, none⟩ } }, ⟨2, 1, 0, 1, 0, 0, none, [], none, none⟩, by decide +kernel⟩⟩

theorem wit_FreezeAndScrub_1 :
    (∃ (s : State) (mode : Nat) (relFirst : Bool) (bay : Nat), s.Calm ∧ mode < 2 ∧ bay < 128 ∧ s.armRefused mode relFirst = none) ∧
    (∃ (s : State) (relFirst : Bool) (bay : Nat), s.Calm ∧ bay < 128 ∧ s.armRefused 2 relFirst = none) ∧
    (∃ (s : State), s.Calm ∧ s.cfg.arm.isSome = true ∧ s.cfg.load = none) :=
  ⟨⟨regsAre ((CFG_STAT, 2 ^ 28) :: (List.range 128).map (fun k => (CFG_BAY_STAT k, 2 ^ 29))), 1, true, 127, by decide +kernel⟩,
    ⟨regsAre ((CFG_STAT, 2 ^ 28) :: (List.range 128).map (fun k => (CFG_BAY_STAT k, 2 ^ 29))), true, 127, by decide +kernel⟩,
    ⟨{ regsAre [(CFG_PR_CTRL, 2 ^ 29)] with cfg := { Cfg.init with arm := some ⟨1, 3, 0, true, 0⟩ } }, by decide +kernel⟩⟩

theorem wit_FreezeAndScrub_2 :
    (∃ (s : State), s.Calm ∧ s.f CFG_PR_CTRL_BAY ∈ s.fab.held ∧ s.loadRefused 4 = none ∧ s.power = 0) ∧
    (∃ (s : State), s.Calm) ∧
    (∃ (s : State), s.Calm ∧ s.cfg.rebuilding = true ∧ s.mirrorKeys = []) :=
  ⟨⟨{ regsAre [(CFG_PR_CTRL, 127)] with fab := { Fabric.init with held := [127] } }, by decide +kernel⟩,
    ⟨State.reset, by decide +kernel⟩,
    ⟨{ State.reset with cfg := { Cfg.init with rebuilding := true }, fab := { Fabric.init with claims := [(5, 8)] } }, by decide +kernel⟩⟩

theorem wit_FreezeAndScrub_3 :
    (∃ (s : State) (key d : Nat), s.Calm ∧ s.cfg.rebuilding = true ∧ s.mirrorKeys.filter s.claimsOf = [key] ∧ (s.frameAgain key).2 = some
      d) ∧
    (∃ (s : State) (see : Nat), s.Calm ∧ s.scrubOn = true ∧ s.cfg.skipped = [] ∧ s.cfg.scrubFrame < 589824 ∧ s.bayState (s.cfg.scrubFrame
      / 4608) = 1 ∧ s.cfg.scrubFrame % 4608 ≠ 4607 ∧ (mget s.fab.frames Frame.init s.cfg.scrubFrame).flip = 0) ∧
    (∃ (s : State) (see b : Nat), s.Calm ∧ s.scrubOn = true ∧ s.cfg.skipped = [] ∧ s.cfg.scrubFrame < 589824 ∧ s.bayState
      (s.cfg.scrubFrame / 4608) = 1 ∧ s.cfg.scrubFrame % 4608 ≠ 4607 ∧ b < 5152 ∧ (mget s.fab.frames Frame.init s.cfg.scrubFrame).flip = 2
      ^ b) :=
  ⟨⟨{ memOn [] with cfg := { Cfg.init with rebuilding := true }, hbm := { Hbm.init with keys := some ⟨5, 7⟩, words := [(0x2CC000000, 5)] } }, 0, 0, by decide +kernel⟩,
    ⟨{ regsAre [(CFG_STAT, 2 ^ 28), (CFG_SCRUB_CTRL, 2 ^ 31), (CFG_BAY_STAT 127, 2 ^ 29)] with cfg := { Cfg.init with scrubFrame := 589822 } }, 0, by decide +kernel⟩,
    ⟨{ regsAre [(CFG_STAT, 2 ^ 28), (CFG_SCRUB_CTRL, 2 ^ 31), (CFG_BAY_STAT 127, 2 ^ 29)] with cfg := { Cfg.init with scrubFrame := 589822 }, fab := { Fabric.init with frames := [(589822, ⟨1, [], 0, 1⟩)] } }, 0, 0, by decide +kernel⟩⟩

theorem wit_FreezeAndScrub_4 :
    (∃ (s : State) (see b c : Nat), s.Calm ∧ s.scrubOn = true ∧ s.cfg.skipped = [] ∧ s.cfg.scrubFrame < 589824 ∧ s.bayState
      (s.cfg.scrubFrame / 4608) = 1 ∧ s.cfg.scrubFrame % 4608 ≠ 4607 ∧ s.f CFG_SCRUB_CTRL_POLICY = 0 ∧ b < c ∧ c < 5152 ∧ (mget
      s.fab.frames Frame.init s.cfg.scrubFrame).flip = 2 ^ b + 2 ^ c) :=
  ⟨{ regsAre [(CFG_STAT, 2 ^ 28), (CFG_SCRUB_CTRL, 2 ^ 31), (CFG_BAY_STAT 127, 2 ^ 29)] with cfg := { Cfg.init with scrubFrame := 589822 }, fab := { Fabric.init with frames := [(589822, ⟨0, [], 0, 3⟩)] } }, 0, 0, 1, by decide +kernel⟩

theorem wit_CallerStepsOnWords_1 :
    (∃ (s : State) (u : Nat) (x : CStep), s.Calm ∧ s.StepNew u 0 x) ∧
    (∃ (s : State) (u : Nat) (x : CStep), s.Calm ∧ s.StepNew u 1 x ∧ s.queueValid (s.opB x.task) = true ∧ s.QueueRoom (s.opB x.task)) ∧
    (∃ (s : State) (u : Nat) (x : CStep) (b : Bundle) (rest : List Bundle), s.Calm ∧ s.StepNew u 2 x ∧ s.queueValid (s.opA x.task) = true
      ∧ s.fab.hold = false ∧ (s.cqueue (s.opA x.task)).chip = b :: rest ∧ (∀ k : Nat, k < 8 → s.on (TAIL_RING_CFG_EN k) = false)) :=
  ⟨⟨callerIs (stepBank 0 0 0 0) (some newStep) [] [], 3, newStep, by decide +kernel⟩,
    ⟨{ callerIs (stepBank 1 8191 1 0) (some newStep) [] [] with fab := { Fabric.init with outFig := [(8191, ⟨77, true⟩)] } }, 3, newStep, by decide +kernel⟩,
    ⟨fabIs Fabric.init (callerIs (stepBank 2 1 8191 0) (some newStep) [(1, ⟨[⟨77, true⟩, ⟨78, false⟩], 0, 2⟩)] []), 3, newStep, ⟨77, true⟩, [⟨78, false⟩], by decide +kernel⟩⟩

theorem wit_CallerStepsOnWords_2 :
    (∃ (s : State) (u : Nat) (x : CStep), s.Calm ∧ s.StepNew u 3 x ∧ s.opB x.task = s.nodeId ∧ s.queueValid (s.opC x.task) = true ∧
      s.QueueRoom (s.opC x.task)) ∧
    (∃ (s : State) (u : Nat) (x : CStep) (b : Bundle) (rest : List Bundle), s.Calm ∧ s.StepNew u 4 x ∧ s.queueValid (s.opA x.task) = true
      ∧ s.queueValid (s.opC x.task) = true ∧ s.opB x.task = s.nodeId ∧ (s.cqueue (s.opA x.task)).chip = b :: rest ∧ s.opA x.task ≠ s.opC
      x.task ∧ s.QueueRoom (s.opC x.task)) ∧
    (∃ (s : State) (u : Nat) (x : CStep) (b : Bundle) (rest : List Bundle), s.Calm ∧ s.StepNew u 5 x ∧ s.queueValid (s.opA x.task) = true
      ∧ s.queueValid (s.opB x.task) = true ∧ (s.cqueue (s.opA x.task)).chip = b :: rest ∧ s.opA x.task ≠ s.opB x.task ∧ s.QueueRoom (s.opB
      x.task)) :=
  ⟨⟨{ callerIs (stepBank 3 8191 4095 2) (some newStep) [] [(LAT_NODE, 4095)] with fab := { Fabric.init with outFig := [(8191, ⟨77, true⟩)] } }, 3, newStep, by decide +kernel⟩,
    ⟨callerIs (stepBank 4 1 4095 2) (some newStep) [(1, ⟨[⟨77, true⟩, ⟨78, false⟩], 0, 2⟩)] [(LAT_NODE, 4095)], 3, newStep, ⟨77, true⟩, [⟨78, false⟩], by decide +kernel⟩,
    ⟨callerIs (stepBank 5 1 2 1) (some newStep) [(1, ⟨[⟨77, true⟩, ⟨78, false⟩], 0, 2⟩)] [], 3, newStep, ⟨77, true⟩, [⟨78, false⟩], by decide +kernel⟩⟩

theorem wit_CallerStepsOnWords_3 :
    (∃ (s : State) (u : Nat) (x : CStep) (e : Ecc) (ue : Option Nat), s.Calm ∧ s.StepNew u 2 x ∧ s.queueValid (s.opA x.task) = false) ∧
    (∃ (s : State) (u : Nat) (x : CStep), s.Calm ∧ s.StepNew u 9 x) :=
  ⟨⟨callerIs (stepBank 2 5 8191 0) (some newStep) [] [], 3, newStep, .ok, none, by decide +kernel⟩,
    ⟨callerIs (stepBank 9 0x80000001 0 0) (some newStep) [] [], 3, newStep, by decide +kernel⟩⟩

theorem wit_CallerStepsThatWait_1 :
    (∃ (s : State) (u g : Nat) (x : CStep), s.Calm ∧ s.StepNew u 6 x ∧ (List.range (tagCount 18)).find? (fun k => s.tagAt (64 * 18 + k) ==
      .idle) = some g) ∧
    (∃ (s : State) (u g : Nat) (x : CStep) (b : Bundle) (rest : List Bundle), s.Calm ∧ s.StepNew u 7 x ∧ s.queueValid (s.opC x.task) =
      true ∧ (s.cqueue (s.opC x.task)).chip = b :: rest ∧ (List.range (tagCount 18)).find? (fun k => s.tagAt (64 * 18 + k) == .idle) =
      some g) ∧
    (∃ (s : State) (u : Nat) (x : CStep), s.Calm ∧ s.StepNew u 8 x ∧ (s.dlistOf (s.opA x.task)).length < 1024) :=
  ⟨⟨callerIs (stepBank 6 0xFFFFFFF8 0xFFFF 1) (some newStep) [] [], 3, 0, newStep, by decide +kernel⟩,
    ⟨callerIs (stepBank 7 0x38 0 1) (some newStep) [(1, ⟨[⟨77, true⟩, ⟨78, false⟩], 0, 2⟩)] [], 3, 0, newStep, ⟨77, true⟩, [⟨78, false⟩], by decide +kernel⟩,
    ⟨callerIs (stepBank 8 7 9 0x3FFFF) (some newStep) [] [], 3, newStep, by decide +kernel⟩⟩

theorem wit_CallerStepsThatWait_2 :
    (∃ (s : State) (u : Nat) (x : CStep), s.Calm ∧ s.StepNew u 10 x ∧ x.fence = none ∧ (s.fencesOf 18).length < 16) ∧
    (∃ (s : State) (u k : Nat) (x : CStep), s.Calm ∧ s.unit u = some x ∧ s.taskOp x.task = 10 ∧ x.ended = none ∧ x.sig = 0 ∧ s.sigCount
      x.task = 0 ∧ x.fence = some k ∧ s.fenceDone 18 k = true) ∧
    (∃ (s : State) (u : Nat) (x : CStep) (a : Acc) (r : Rsp), s.Calm ∧ u < 4 ∧ (∀ v : Nat, v < 4 → (s.unit v).any (fun y => y.task ==
      x.task) = true → v = u) ∧ s.unit u = some x ∧ s.taskOp x.task = 6 ∧ x.task < 4096 ∧ x.uop = 1 ∧ x.ended = none ∧ x.sig = 0 ∧
      s.sigCount x.task = 0 ∧ mget s.mesh.inbox [] 18 = [(a, r)] ∧ a.ref = x.task ∧ a.write = false ∧ r.status = 0 ∧ r.poison &&& wordMask
      a.addr 8 = 0 ∧ s.queueValid (s.opC x.task) = true ∧ s.QueueRoom (s.opC x.task)) :=
  ⟨⟨callerIs (stepBank 10 0 0 0) (some newStep) [] [], 3, newStep, by decide +kernel⟩,
    ⟨callerIs (stepBank 10 0 0 0) (some { newStep with uop := 1, fence := some 0 }) [] [], 3, 0, { newStep with uop := 1, fence := some 0 }, by decide +kernel⟩,
    ⟨{ callerIs (stepBank 6 0x38 0 1) (some { newStep with uop := 1 }) [] [] with mesh := { Mesh.init with inbox := [(18, [(⟨18, 0, false, 0x38, 8, 0, 0, 0, 4095⟩, ⟨0, 0, 5 * 2 ^ 448, 1⟩)])] } }, 3, { newStep with uop := 1 }, ⟨18, 0, false, 0x38, 8, 0, 0, 0, 4095⟩, ⟨0, 0, 5 * 2 ^ 448, 1⟩, by decide +kernel⟩⟩

theorem wit_CallerStepsThatWait_3 :
    (∃ (s : State) (x : CStep) (a : Acc) (r : Rsp), s.Calm ∧ (∀ v : Nat, v < 4 → (s.unit v).any (fun y => y.task == x.task) = false) ∧
      s.call.susp = [x] ∧ x.task < 4096 ∧ mget s.mesh.inbox [] 18 = [(a, r)] ∧ a.ref = x.task) :=
  ⟨{ State.reset with call := { Caller.init with susp := [{ newStep with uop := 1 }] }, mesh := { Mesh.init with inbox := [(18, [(⟨18, 0, false, 0x38, 8, 0, 0, 0, 4095⟩, ⟨4, 1, 0, 0⟩)])] } }, { newStep with uop := 1 }, ⟨18, 0, false, 0x38, 8, 0, 0, 0, 4095⟩, ⟨4, 1, 0, 0⟩, by decide +kernel⟩

theorem wit_CallerArbiter_1 :
    (∃ (s : State) (k : Nat), s.Calm ∧ s.selecting = true ∧ s.unit 0 = none ∧ s.pickTask 0 = some k ∧ s.descCheck k false = none) ∧
    (∃ (s : State) (l : Nat) (d : DEntry) (rest : List DEntry), s.Calm ∧ s.listRound l = false ∧ s.dlistOf l = d :: rest ∧ d.flag < 64 ∧ 0
      ≤ sext 48 (s.fig.toNat + 2 ^ 48 - d.key) ∧ d.edge + 2 ≤ s.fig.toNat) ∧
    (∃ (s : State) (q : Nat) (up : List (Nat × Nat)), s.Calm ∧ (s.cqueue q).spilled ≠ 0 ∧ (s.cqueue q).chip.length < 4) :=
  ⟨⟨{ callerIs ⟨[(32760, 2 ^ 31), (32764, 2 ^ 31)], [], []⟩ none [] [] with call := { (callerIs ⟨[(32760, 2 ^ 31), (32764, 2 ^ 31)], [], []⟩ none [] []).call with flags := [(4095, 2 ^ 31 + 2 ^ 33)] } }, 4095, by decide +kernel⟩,
    ⟨{ State.reset with fig := 9, call := { Caller.init with dlist := [(7, [⟨9, 4095, 63, 5, 0, 0, 0⟩])] } }, 7, ⟨9, 4095, 63, 5, 0, 0, 0⟩, [], by decide +kernel⟩,
    ⟨{ State.reset with call := { Caller.init with queue := [(16383, ⟨[⟨1, false⟩], 3, 7⟩)] } }, 16383, [], by decide +kernel⟩⟩

theorem wit_CallerArbiter_2 :
    (∃ (s : State) (q : Nat) (up : List (Nat × Nat)), s.Calm ∧ (s.cqueue q).spilled ≠ 0 ∧ (s.cqueue q).chip.length < 4 ∧ (s.hubRead 18
      (s.spillAddr q (((s.cqueue q).seq + 2 ^ 16 - (s.cqueue q).spilled) % 2 ^ 16)) 16 up).2.err = true) ∧
    (∃ (s : State), s.Calm ∧ s.inRound = true ∧ s.on CALLER_STAT_DONE = false ∧ (s.on CALLER_CTRL_EN = false ∨ s.callerFinished = true)) ∧
    (∃ (s : State), s.Calm ∧ s.inRound = true ∧ s.on CALLER_STAT_DONE = false ∧ 0 < s.f CALLER_STALL_LIMIT_LIMIT ∧ s.f
      CALLER_STALL_LIMIT_LIMIT ≤ s.call.quiet ∧ s.call.stallSaid = false) :=
  ⟨⟨{ State.reset with call := { Caller.init with queue := [(16383, ⟨[⟨1, false⟩], 3, 7⟩)] } }, 16383, [], by decide +kernel⟩,
    ⟨regsAre [(LAT_STAT, 3 * 2 ^ 29)], by decide +kernel⟩,
    ⟨{ regsAre [(LAT_STAT, 3 * 2 ^ 29), (CALLER_STALL_LIMIT, 100)] with call := { Caller.init with quiet := 100 } }, by decide +kernel⟩⟩

theorem wit_CallerArbiter_3 :
    (∃ (s : State) (k : Nat), s.Calm ∧ (s.ctask k).st = .fault) ∧
    (∃ (s : State) (k : Nat) (hi : Bool) (v : Word), s.Calm) :=
  ⟨⟨{ State.reset with call := { Caller.init with task := [(4095, ⟨.fault, true, 3, none⟩)] } }, 4095, by decide +kernel⟩,
    ⟨{ State.reset with call := { Caller.init with flags := [(4095, 2 ^ 31)] } }, 4095, true, 0x80000001#32, by decide +kernel⟩⟩

theorem wit_CallerSwapAndPort_1 :
    (∃ (s : State), s.Calm ∧ s.on CALLER_SWAP_PENDING = false) ∧
    (∃ (s : State), s.Calm ∧ s.on CALLER_SWAP_PENDING = false ∧ s.on CALLER_SWAP_SYNC_BUSY = false ∧ s.stopped = true) ∧
    (∃ (s : State) (mode : Nat), s.Calm ∧ s.on CALLER_SWAP_PENDING = true) :=
  ⟨⟨State.reset, by decide +kernel⟩,
    ⟨{ State.reset with call := { Caller.init with active := ⟨[(8, 5)], [], []⟩, shadow := ⟨[(8, 6)], [], []⟩ } }, by decide +kernel⟩,
    ⟨regsAre [(CALLER_SWAP, 2 ^ 29)], 0, by decide +kernel⟩⟩

theorem wit_CallerSwapAndPort_2 :
    (∃ (s : State), s.Calm) ∧
    (∃ (s : State), s.Calm ∧ s.on CALLER_SWAP_SYNC_BUSY = true ∧ s.on CALLER_SWAP_PENDING = false) ∧
    (∃ (s : State) (poison : Bool), s.Calm ∧ s.stopped = true ∧ s.queueValid (s.f CALLER_QPORT_SEL_QUEUE) = true ∧ s.QueueRoom (s.f
      CALLER_QPORT_SEL_QUEUE)) :=
  ⟨⟨State.reset, by decide +kernel⟩,
    ⟨{ regsAre [(CALLER_SWAP, 2 ^ 28)] with call := { Caller.init with active := ⟨[(8, 5)], [], []⟩, heldWr := [(0x620020, 9)] } }, by decide +kernel⟩,
    ⟨{ regsAre [(CALLER_QPORT_SEL, 2), (CALLER_QPORT_DATA_LO, 7), (CALLER_QPORT_DATA_HI, 9)] with call := { Caller.init with active := stepBank 0 0 0 0 } }, true, by decide +kernel⟩⟩

theorem wit_CallerSwapAndPort_3 :
    (∃ (s : State) (b : Bundle) (rest : List Bundle) (up : List (Nat × Nat)), s.Calm ∧ s.stopped = true ∧ s.queueValid (s.f
      CALLER_QPORT_SEL_QUEUE) = true ∧ (s.cqueue (s.f CALLER_QPORT_SEL_QUEUE)).chip = b :: rest) ∧
    (∃ (s : State) (e : Ecc) (up : List (Nat × Nat)), s.Calm ∧ (s.queueValid (s.f CALLER_QPORT_SEL_QUEUE) = false ∨ s.queueCount (s.f
      CALLER_QPORT_SEL_QUEUE) = 0)) ∧
    (∃ (s : State) (poison : Bool), s.Calm ∧ (s.stopped = false ∨ s.queueValid (s.f CALLER_QPORT_SEL_QUEUE) = false)) :=
  ⟨⟨{ regsAre [(CALLER_QPORT_SEL, 2)] with call := { Caller.init with active := stepBank 0 0 0 0, queue := [(2, ⟨[⟨5 * 2 ^ 32 + 7, true⟩], 0, 1⟩)] } }, ⟨5 * 2 ^ 32 + 7, true⟩, [], [], by decide +kernel⟩,
    ⟨State.reset, .ok, [], by decide +kernel⟩,
    ⟨State.reset, true, by decide +kernel⟩⟩

theorem wit_LatticeStartStop_1 :
    (∃ (s : State) (steps : Nat), s.Calm ∧ s.latState = 1 ∧ s.on LAT_NODE_VALID = true ∧ s.figOnPll = true ∧ s.f TAIL_REEL_STAT_STATE < 2
      ∧ s.alarmed = false ∧ 0 < s.f LAT_LEAD_START_LEAD ∧ s.f LAT_LEAD_START_LEAD < 2 ^ 15) ∧
    (∃ (s : State) (steps : Nat), s.Calm ∧ s.latState = 1 ∧ s.on LAT_NODE_VALID = true ∧ s.figOnPll = true ∧ s.f TAIL_REEL_STAT_STATE < 2
      ∧ s.alarmed = false ∧ 0 < s.f LAT_LEAD_START_LEAD ∧ s.f LAT_LEAD_START_LEAD < 2 ^ 15) ∧
    (∃ (s : State), s.Calm ∧ s.latState ≠ 0 ∧ s.on LAT_NODE_VALID = true ∧ s.round.toNat < s.f LAT_STOP_LO_TARGET_LO + s.f
      LAT_STOP_HI_TARGET_HI * 2 ^ 32) :=
  ⟨⟨{ regsAre [(LAT_NODE, 2 ^ 31 + 4095), (LAT_PEER 63, 2 ^ 31 + 5), (LAT_ROUTE 5, 2 ^ 31 + 15), (GLS_STAT 15, 23 * 2 ^ 27 + 255 * 2 ^ 16), (CLK_HUB_SEL, 1), (LAT_STAT, 2 ^ 29 + 65535), (LAT_LEAD, 2 ^ 16 * 9 + 4)] with clk := { Clk.init with muxCur := [(0, 1)] } }, 65535, by decide +kernel⟩,
    ⟨{ regsAre [(LAT_NODE, 2 ^ 31 + 4095), (LAT_PEER 63, 2 ^ 31 + 5), (LAT_ROUTE 5, 2 ^ 31 + 15), (GLS_STAT 15, 23 * 2 ^ 27 + 255 * 2 ^ 16), (CLK_HUB_SEL, 1), (LAT_STAT, 2 ^ 29 + 65535), (LAT_LEAD, 2 ^ 16 * 9 + 4)] with clk := { Clk.init with muxCur := [(0, 1)] } }, 0, by decide +kernel⟩,
    ⟨regsAre [(LAT_NODE, 2 ^ 31 + 4095), (LAT_PEER 63, 2 ^ 31 + 5), (LAT_ROUTE 5, 2 ^ 31 + 15), (GLS_STAT 15, 23 * 2 ^ 27 + 255 * 2 ^ 16), (LAT_STAT, 3 * 2 ^ 29), (LAT_STOP_HI, 65535)], by decide +kernel⟩⟩

theorem wit_LatticeStartStop_2 :
    (∃ (s : State), s.Calm ∧ s.latState ≠ 0 ∧ s.on LAT_NODE_VALID = true ∧ 0 < s.f LAT_LEAD_STOP_LEAD ∧ s.round.toNat + s.f
      LAT_LEAD_STOP_LEAD < 2 ^ 48) ∧
    (∃ (s : State), s.Calm ∧ 2 ≤ s.latState ∧ s.latState ≤ 6) ∧
    (∃ (s : State), s.Calm ∧ (s.latState < 2 ∨ s.latState = 7)) :=
  ⟨⟨regsAre [(LAT_NODE, 2 ^ 31 + 4095), (LAT_PEER 63, 2 ^ 31 + 5), (LAT_ROUTE 5, 2 ^ 31 + 15), (GLS_STAT 15, 23 * 2 ^ 27 + 255 * 2 ^ 16), (LAT_STAT, 3 * 2 ^ 29), (LAT_LEAD, 4)], by decide +kernel⟩,
    ⟨regsAre [(LAT_STAT, 6 * 2 ^ 29)], by decide +kernel⟩,
    ⟨State.reset, by decide +kernel⟩⟩

theorem wit_LatticeStartStop_3 :
    (∃ (s : State) (mask : Nat), s.Calm) ∧
    (∃ (s : State), s.Calm ∧ s.latState = 2 ∧ s.lat.startDue = true ∧ s.aloft = true ∧ s.figOnPll = true ∧ s.lat.startFig ≤ s.fig.toNat ∧
      s.peers.any s.peerBlocks = false) ∧
    (∃ (s : State), s.Calm ∧ s.latState = 0 ∧ s.lat.offPor = true ∧ s.on LAT_NODE_VALID = true ∧ s.on CLK_HUB_SEL_FIG_SRC = true ∧ s.on
      CFG_STAT_STARTED = true) :=
  ⟨⟨State.reset, 0x18001, by decide +kernel⟩,
    ⟨{ regsAre [(LAT_NODE, 2 ^ 31 + 4095), (LAT_PEER 63, 2 ^ 31 + 5), (LAT_ROUTE 5, 2 ^ 31 + 15), (GLS_STAT 15, 23 * 2 ^ 27 + 255 * 2 ^ 16), (CLK_HUB_SEL, 1), (LAT_STAT, 2 * 2 ^ 29)] with clk := { Clk.init with muxCur := [(0, 1)] }, lat := { Lat.init with startDue := true } }, by decide +kernel⟩,
    ⟨{ regsAre [(LAT_NODE, 2 ^ 31), (CLK_HUB_SEL, 1), (CFG_STAT, 2 ^ 28)] with lat := { Lat.init with offPor := true } }, by decide +kernel⟩⟩

theorem wit_LatticeRound_1 :
    (∃ (s : State), s.Calm ∧ s.latState = 3 ∧ s.lat.fenced = false ∧ s.readyBut = true ∧ s.bowFenceSrcs = [] ∧ s.lat.bowFence = [] ∧
      s.peers.any s.peerBlocks = false) ∧
    (∃ (s : State), s.Calm ∧ s.latState = 4 ∧ s.allBows = true ∧ s.lat.count ≤ 65534) ∧
    (∃ (s : State), s.Calm ∧ s.bowReached = true ∧ s.tail.reel = none ∧ s.lat.target ≠ some (s.round.toNat + 1) ∧ (s.on LAT_STAT_STOP_NOW
      = false ∨ s.lat.stopLate = true) ∧ s.peers.any s.peerBlocks = false) :=
  ⟨⟨{ regsAre [(LAT_NODE, 2 ^ 31 + 4095), (LAT_PEER 63, 2 ^ 31 + 5), (LAT_ROUTE 5, 2 ^ 31 + 15), (GLS_STAT 15, 23 * 2 ^ 27 + 255 * 2 ^ 16), (LAT_STAT, 3 * 2 ^ 29), (CALLER_STAT, 2 ^ 31)] with lat := { Lat.init with minRound := 16, count := 14 } }, by decide +kernel⟩,
    ⟨{ regsAre [(LAT_NODE, 2 ^ 31 + 4095), (LAT_PEER 63, 2 ^ 31 + 5), (LAT_ROUTE 5, 2 ^ 31 + 15), (GLS_STAT 15, 23 * 2 ^ 27 + 255 * 2 ^ 16), (LAT_STAT, 4 * 2 ^ 29)] with round := 63, lat := { Lat.init with bows := [(63, [63])], count := 65534 } }, by decide +kernel⟩,
    ⟨{ regsAre [(LAT_NODE, 2 ^ 31 + 4095), (LAT_PEER 63, 2 ^ 31 + 5), (LAT_ROUTE 5, 2 ^ 31 + 15), (GLS_STAT 15, 23 * 2 ^ 27 + 255 * 2 ^ 16), (LAT_STAT, 6 * 2 ^ 29)] with round := 63, fig := 2, lat := { Lat.init with count := 65534 } }, by decide +kernel⟩⟩

theorem wit_LatticeRound_2 :
    (∃ (s : State), s.Calm ∧ s.bowReached = true ∧ s.tail.reel = none ∧ (s.lat.target = some (s.round.toNat + 1) ∨ (s.on LAT_STAT_STOP_NOW
      = true ∧ s.lat.stopLate = false))) ∧
    (∃ (s : State) (up flips : List (Nat × Nat)), s.Calm ∧ s.bowReached = false) ∧
    (∃ (s : State), s.Calm ∧ (s.latState = 3 ∨ (s.latState = 4 ∧ s.allBows = false)) ∧ 65534 ≤ s.lat.count) :=
  ⟨⟨{ regsAre [(LAT_NODE, 2 ^ 31 + 4095), (LAT_PEER 63, 2 ^ 31 + 5), (LAT_ROUTE 5, 2 ^ 31 + 15), (GLS_STAT 15, 23 * 2 ^ 27 + 255 * 2 ^ 16), (LAT_STAT, 6 * 2 ^ 29)] with round := 63, fig := 2, lat := { Lat.init with target := some 64 } }, by decide +kernel⟩,
    ⟨regsAre [(LAT_STAT, 6 * 2 ^ 29)], [], [], by decide +kernel⟩,
    ⟨{ regsAre [(LAT_NODE, 2 ^ 31 + 4095), (LAT_PEER 63, 2 ^ 31 + 5), (LAT_ROUTE 5, 2 ^ 31 + 15), (GLS_STAT 15, 23 * 2 ^ 27 + 255 * 2 ^ 16), (LAT_STAT, 4 * 2 ^ 29)] with lat := { Lat.init with count := 65534 } }, by decide +kernel⟩⟩

theorem wit_LatticeRound_3 :
    (∃ (s : State), s.Calm ∧ (s.latState ≠ 0 ∨ s.lat.offPor = false)) ∧
    (∃ (s : State), s.Calm ∧ (s.latState ≠ 0 ∨ s.lat.offPor = false)) ∧
    (∃ (s : State), s.Calm ∧ s.resetReached = true) :=
  ⟨⟨{ regsAre [(LAT_NODE, 2 ^ 31 + 4095), (LAT_PEER 63, 2 ^ 31 + 5), (LAT_ROUTE 5, 2 ^ 31 + 15), (GLS_STAT 15, 23 * 2 ^ 27 + 255 * 2 ^ 16), (LAT_STAT, 7 * 2 ^ 29 + 5)] with round := 63 }, by decide +kernel⟩,
    ⟨{ regsAre [(LAT_NODE, 2 ^ 31 + 4095), (LAT_PEER 63, 2 ^ 31 + 5), (LAT_ROUTE 5, 2 ^ 31 + 15), (GLS_STAT 15, 23 * 2 ^ 27 + 255 * 2 ^ 16), (LAT_STAT, 7 * 2 ^ 29 + 5)] with round := 63 }, by decide +kernel⟩,
    ⟨{ regsAre [(LAT_STAT, 2 ^ 29)] with lat := { Lat.init with resetDue := true } }, by decide +kernel⟩⟩

theorem wit_LatticeRound_4 :
    (∃ (s : State), s.Calm ∧ s.resetReached = false ∧ s.stopped = true) :=
  ⟨{ regsAre [(LAT_STAT, 7 * 2 ^ 29), (LAT_SECTOR_RST, 0x8001)] with fig := 16, lat := { Lat.init with rstFig := [(15, 4)] } }, by decide +kernel⟩

theorem wit_LatticeTraffic_1 :
    (∃ (s : State) (n origin r i : Nat) (tc : Bool) (slots : List (List Nat)), s.Calm ∧ s.Hears n slots [.urgent (s.f (GLS_SEQ_RX_EXPECT
      n)) (.token s.nodeId origin tc 0 r)] ∧ s.urgPool n 3 = [] ∧ (s.portOf n).turn ≠ some s.fig.toNat ∧ s.on LAT_NODE_VALID = true ∧ i <
      64 ∧ s.peers.find? (fun p => p.2 == origin) = some (i, origin) ∧ (r = s.round.toNat % 64 ∨ r = (s.round.toNat + 1) % 64) ∧ mget
      s.lat.bows [] i = []) ∧
    (∃ (s : State) (n origin r i : Nat) (tc : Bool) (slots : List (List Nat)), s.Calm ∧ s.Hears n slots [.urgent (s.f (GLS_SEQ_RX_EXPECT
      n)) (.token s.nodeId origin tc 1 r)] ∧ s.urgPool n 3 = [] ∧ (s.portOf n).turn ≠ some s.fig.toNat ∧ s.on LAT_NODE_VALID = true ∧ i <
      64 ∧ s.peers.find? (fun p => p.2 == origin) = some (i, origin)) ∧
    (∃ (s : State) (n origin r i : Nat) (tc : Bool) (slots : List (List Nat)), s.Calm ∧ s.Hears n slots [.urgent (s.f (GLS_SEQ_RX_EXPECT
      n)) (.token s.nodeId origin tc 1 r)] ∧ s.urgPool n 3 = [] ∧ (s.portOf n).turn ≠ some s.fig.toNat ∧ s.on LAT_NODE_VALID = true ∧ i <
      64 ∧ s.peers.find? (fun p => p.2 == origin) = some (i, origin) ∧ s.latState = 3 ∧ r < 64 ∧ s.notLater r = true) :=
  ⟨⟨{ regsAre [(LAT_NODE, 2 ^ 31 + 4095), (LAT_PEER 63, 2 ^ 31 + 5), (LAT_ROUTE 5, 2 ^ 31 + 15), (GLS_STAT 15, 23 * 2 ^ 27 + 255 * 2 ^ 16), (LAT_STAT, 3 * 2 ^ 29), (GLS_SEQ 15, 65280)] with round := 63, fig := 7 }, 15, 5, 63, 63, true, urgentWire (.token 4095 5 true 0 63) 255, by decide +kernel⟩,
    ⟨{ regsAre [(LAT_NODE, 2 ^ 31 + 4095), (LAT_PEER 63, 2 ^ 31 + 5), (LAT_ROUTE 5, 2 ^ 31 + 15), (GLS_STAT 15, 23 * 2 ^ 27 + 255 * 2 ^ 16), (LAT_STAT, 3 * 2 ^ 29), (GLS_SEQ 15, 65280)] with round := 63, fig := 7 }, 15, 5, 63, 63, true, urgentWire (.token 4095 5 true 1 63) 255, by decide +kernel⟩,
    ⟨{ regsAre [(LAT_NODE, 2 ^ 31 + 4095), (LAT_PEER 63, 2 ^ 31 + 5), (LAT_ROUTE 5, 2 ^ 31 + 15), (GLS_STAT 15, 23 * 2 ^ 27 + 255 * 2 ^ 16), (LAT_STAT, 3 * 2 ^ 29), (GLS_SEQ 15, 65280)] with round := 63, fig := 7 }, 15, 5, 63, 63, true, urgentWire (.token 4095 5 true 1 63) 255, by decide +kernel⟩⟩

theorem wit_LatticeTraffic_2 :
    (∃ (s : State) (n origin r i : Nat) (tc : Bool) (slots : List (List Nat)), s.Calm ∧ s.Hears n slots [.urgent (s.f (GLS_SEQ_RX_EXPECT
      n)) (.token s.nodeId origin tc 2 r)] ∧ s.urgPool n 3 = [] ∧ (s.portOf n).turn ≠ some s.fig.toNat ∧ s.on LAT_NODE_VALID = true ∧ i <
      64 ∧ s.peers.find? (fun p => p.2 == origin) = some (i, origin)) ∧
    (∃ (s : State) (n origin r i : Nat) (tc : Bool) (slots : List (List Nat)), s.Calm ∧ s.Hears n slots [.urgent (s.f (GLS_SEQ_RX_EXPECT
      n)) (.token s.nodeId origin tc 2 r)] ∧ s.urgPool n 3 = [] ∧ (s.portOf n).turn ≠ some s.fig.toNat ∧ s.on LAT_NODE_VALID = true ∧ i <
      64 ∧ s.peers.find? (fun p => p.2 == origin) = some (i, origin) ∧ s.latState = 5 ∧ s.peers.all (fun p => p.1 == i || !s.peerBlocks p)
      = true ∧ s.peerGone (i, origin) = false) ∧
    (∃ (s : State) (n origin r i : Nat) (tc : Bool) (slots : List (List Nat)), s.Calm ∧ s.Hears n slots [.urgent (s.f (GLS_SEQ_RX_EXPECT
      n)) (.token s.nodeId origin tc 3 r)] ∧ s.urgPool n 3 = [] ∧ (s.portOf n).turn ≠ some s.fig.toNat ∧ s.on LAT_NODE_VALID = true ∧ i <
      64 ∧ s.peers.find? (fun p => p.2 == origin) = some (i, origin)) :=
  ⟨⟨{ regsAre [(LAT_NODE, 2 ^ 31 + 4095), (LAT_PEER 63, 2 ^ 31 + 5), (LAT_ROUTE 5, 2 ^ 31 + 15), (GLS_STAT 15, 23 * 2 ^ 27 + 255 * 2 ^ 16), (LAT_STAT, 3 * 2 ^ 29), (GLS_SEQ 15, 65280)] with round := 63, fig := 7 }, 15, 5, 63, 63, true, urgentWire (.token 4095 5 true 2 63) 255, by decide +kernel⟩,
    ⟨{ regsAre [(LAT_NODE, 2 ^ 31 + 4095), (LAT_PEER 63, 2 ^ 31 + 5), (LAT_ROUTE 5, 2 ^ 31 + 15), (GLS_STAT 15, 23 * 2 ^ 27 + 255 * 2 ^ 16), (LAT_STAT, 5 * 2 ^ 29), (LAT_PEER_STAT 63, 2 ^ 29 + 2 ^ 22), (GLS_SEQ 15, 65280)] with round := 63, fig := 7 }, 15, 5, 63, 63, true, urgentWire (.token 4095 5 true 2 63) 255, by decide +kernel⟩,
    ⟨{ regsAre [(LAT_NODE, 2 ^ 31 + 4095), (LAT_PEER 63, 2 ^ 31 + 5), (LAT_ROUTE 5, 2 ^ 31 + 15), (GLS_STAT 15, 23 * 2 ^ 27 + 255 * 2 ^ 16), (LAT_STAT, 3 * 2 ^ 29), (GLS_SEQ 15, 65280)] with round := 63, fig := 7 }, 15, 5, 63, 63, true, urgentWire (.token 4095 5 true 3 63) 255, by decide +kernel⟩⟩

theorem wit_LatticeTraffic_3 :
    (∃ (s : State) (n : Nat) (tc : Bool) (m : Msg) (slots : List (List Nat)), s.Calm ∧ s.Hears n slots [.urgent (s.f (GLS_SEQ_RX_EXPECT
      n)) (.ctrl s.nodeId tc m)] ∧ s.urgPool n 3 = [] ∧ (s.portOf n).turn ≠ some s.fig.toNat ∧ s.on LAT_NODE_VALID = true ∧ s.newer m =
      true ∧ m.type = 1 ∧ s.latState = 1 ∧ s.figOnPll = true ∧ (m.isMatch = false ∨ m.round = s.round.toNat) ∧ s.f TAIL_REEL_STAT_STATE <
      2 ∧ s.alarmed = false) ∧
    (∃ (s : State) (n : Nat) (tc : Bool) (m : Msg) (slots : List (List Nat)), s.Calm ∧ s.Hears n slots [.urgent (s.f (GLS_SEQ_RX_EXPECT
      n)) (.ctrl s.nodeId tc m)] ∧ s.urgPool n 3 = [] ∧ (s.portOf n).turn ≠ some s.fig.toNat ∧ s.on LAT_NODE_VALID = true ∧ s.newer m =
      true ∧ m.type = 2 ∧ s.latState ≠ 0 ∧ s.round.toNat < m.target) ∧
    (∃ (s : State) (n : Nat) (tc : Bool) (m : Msg) (slots : List (List Nat)), s.Calm ∧ s.Hears n slots [.urgent (s.f (GLS_SEQ_RX_EXPECT
      n)) (.ctrl s.nodeId tc m)] ∧ s.urgPool n 3 = [] ∧ (s.portOf n).turn ≠ some s.fig.toNat ∧ s.on LAT_NODE_VALID = true ∧ s.newer m =
      true ∧ m.type = 3 ∧ (s.latState ≠ 0 ∨ s.lat.offPor = false)) :=
  ⟨⟨{ regsAre [(LAT_NODE, 2 ^ 31 + 4095), (LAT_PEER 63, 2 ^ 31 + 5), (LAT_ROUTE 5, 2 ^ 31 + 15), (GLS_STAT 15, 23 * 2 ^ 27 + 255 * 2 ^ 16), (CLK_HUB_SEL, 1), (LAT_STAT, 2 ^ 29), (GLS_SEQ 15, 65280)] with fig := 7, clk := { Clk.init with muxCur := [(0, 1)] } }, 15, true, ⟨1, 5, 65535, 0, 2 ^ 47, 65535, true, true⟩, urgentWire (.ctrl 4095 true ⟨1, 5, 65535, 0, 2 ^ 47, 65535, true, true⟩) 255, by decide +kernel⟩,
    ⟨{ regsAre [(LAT_NODE, 2 ^ 31 + 4095), (LAT_PEER 63, 2 ^ 31 + 5), (LAT_ROUTE 5, 2 ^ 31 + 15), (GLS_STAT 15, 23 * 2 ^ 27 + 255 * 2 ^ 16), (LAT_STAT, 3 * 2 ^ 29), (GLS_SEQ 15, 65280)] with round := 63, fig := 7 }, 15, true, ⟨2, 5, 65535, 9, 2 ^ 47, 9, true, true⟩, urgentWire (.ctrl 4095 true ⟨2, 5, 65535, 9, 2 ^ 47, 9, true, true⟩) 255, by decide +kernel⟩,
    ⟨{ regsAre [(LAT_NODE, 2 ^ 31 + 4095), (LAT_PEER 63, 2 ^ 31 + 5), (LAT_ROUTE 5, 2 ^ 31 + 15), (GLS_STAT 15, 23 * 2 ^ 27 + 255 * 2 ^ 16), (LAT_STAT, 3 * 2 ^ 29), (GLS_SEQ 15, 65280)] with round := 63, fig := 7 }, 15, true, ⟨3, 5, 65535, 0, 0, 0, false, false⟩, urgentWire (.ctrl 4095 true ⟨3, 5, 65535, 0, 0, 0, false, false⟩) 255, by decide +kernel⟩⟩

theorem wit_LatticeTraffic_4 :
    (∃ (s : State) (n : Nat) (e : Entry) (slots : List (List Nat)), s.Calm ∧ s.Hears n slots [.urgent (s.f (GLS_SEQ_RX_EXPECT n)) (.bundle
      e)] ∧ s.urgPool n 3 = []) ∧
    (∃ (s : State) (n k : Nat) (e : Entry) (rest : List PoolEntry), s.Calm ∧ s.urgPool n 3 = [] ∧ (s.portOf n).turn ≠ some s.fig.toNat ∧
      s.bulkPool n 0 = ⟨k, e⟩ :: rest ∧ s.presentable e = true ∧ s.queueValid e.queue = true ∧ s.QueueRoom e.queue) ∧
    (∃ (s : State), s.Calm ∧ s.on LAT_CTRL_BEAT_MASTER = true ∧ s.fig.toNat % max 1500 (s.f GLS_BEAT_CFG_INTERVAL) = 0) :=
  ⟨⟨{ regsAre [(LAT_NODE, 2 ^ 31 + 4095), (LAT_PEER 63, 2 ^ 31 + 5), (LAT_ROUTE 5, 2 ^ 31 + 15), (GLS_STAT 15, 23 * 2 ^ 27 + 255 * 2 ^ 16), (LAT_STAT, 3 * 2 ^ 29), (GLS_SEQ 15, 65280)] with round := 63, fig := 7 }, 15, ⟨4095, 7, 5, true, true, true, 0⟩, urgentWire (.bundle ⟨4095, 7, 5, true, true, true, 0⟩) 255, by decide +kernel⟩,
    ⟨{ callerIs (stepBank 0 0 0 0) none [] [(LAT_NODE, 2 ^ 31 + 4095)] with round := 63, port := [(15, { Port.init with bulk := [(0, [⟨5, ⟨4095, 1, 5, true, true, false, 2⟩⟩])], freed := [255, 0, 0, 0, 0, 0] })] }, 15, 5, ⟨4095, 1, 5, true, true, false, 2⟩, [], by decide +kernel⟩,
    ⟨{ regsAre [(LAT_NODE, 2 ^ 31 + 4095), (LAT_PEER 63, 2 ^ 31 + 5), (LAT_ROUTE 5, 2 ^ 31 + 15), (GLS_STAT 15, 23 * 2 ^ 27 + 255 * 2 ^ 16), (LAT_STAT, 2 ^ 29 + 65535), (LAT_CTRL, 2 ^ 31), (GLS_BEAT_CFG, 1500)] with fig := 3000 }, by decide +kernel⟩⟩

theorem wit_LatticeTraffic_5 :
    (∃ (s : State) (n count : Nat) (slots : List (List Nat)), s.Calm ∧ s.Hears n slots [.beat true true count] ∧ s.on LAT_CTRL_BEAT_MASTER
      = false ∧ s.f LAT_CTRL_UP_PORT = n) ∧
    (∃ (s : State) (i : Nat), s.Calm ∧ i < 64 ∧ s.on (LAT_PEER_VALID i) = true ∧ s.peerDown (s.f (LAT_PEER_NODE i)) = true ∧ s.on
      (LAT_PEER_STAT_LOST i) = false) :=
  ⟨⟨regsAre [(LAT_NODE, 2 ^ 31 + 4095), (LAT_PEER 63, 2 ^ 31 + 5), (LAT_ROUTE 5, 2 ^ 31 + 15), (GLS_STAT 15, 23 * 2 ^ 27 + 255 * 2 ^ 16), (LAT_STAT, 2 ^ 29 + 65535), (LAT_CTRL, 15 * 2 ^ 24)], 15, 65533, onWire [beatSlot 65533] [], by decide +kernel⟩,
    ⟨regsAre [(LAT_PEER 63, 2 ^ 31 + 5), (LAT_STAT, 3 * 2 ^ 29)], 63, by decide +kernel⟩⟩

theorem wit_GleisFrames_1 :
    (∃ (s : State) (n : Nat) (e : Entry), s.Calm ∧ n < 16 ∧ s.windowOpen n = true ∧ (s.portOf n).cur = none ∧ (s.portOf n).bulkQ = [e] ∧ 0
      < s.poolCredit n (s.poolFor n e.dest e.tc false)) ∧
    (∃ (s : State) (n : Nat), s.Calm ∧ (s.windowOpen n = false ∨ (s.portOf n).bulkQ = [] ∨ (s.portOf n).cur ≠ none)) ∧
    (∃ (s : State) (n ack : Nat) (e : Entry) (slots : List (List Nat)), s.Calm ∧ s.Hears n slots [.bulk (s.f (GLS_SEQ_RX_EXPECT n)) ack
      [e]]) :=
  ⟨⟨{ regsAre [(GLS_STAT 15, 23 * 2 ^ 27 + 255 * 2 ^ 16), (GLS_SEQ 15, 255 * 2 ^ 24)] with port := [(15, { Port.init with bulkQ := [⟨4094, 7, 5, false, true, false, 2⟩] })] }, 15, ⟨4094, 7, 5, false, true, false, 2⟩, by decide +kernel⟩,
    ⟨State.reset, 15, by decide +kernel⟩,
    ⟨regsAre [(GLS_STAT 15, 23 * 2 ^ 27 + 255 * 2 ^ 16), (GLS_SEQ 15, 65280)], 15, 0, ⟨4094, 7, 5, false, true, false, 2⟩, onWire ((List.range 3).map (bulkSlot [⟨4094, 7, 5, false, true, false, 2⟩]) ++ [bulkTrailer [⟨4094, 7, 5, false, true, false, 2⟩] 255 0]) [], by decide +kernel⟩⟩

theorem wit_GleisFrames_2 :
    (∃ (s : State) (n : Nat) (slots : List (List Nat)), s.Calm ∧ s.Hears n slots [.fail] ∧ (s.portOf n).asked ≠ some (s.f
      (GLS_SEQ_RX_EXPECT n))) ∧
    (∃ (s : State) (n q ack : Nat) (es : List Entry) (slots : List (List Nat)), s.Calm ∧ s.Hears n slots [.bulk q ack es] ∧ sext 8 (q +
      256 - s.f (GLS_SEQ_RX_EXPECT n)) < 0) ∧
    (∃ (s : State) (n p q k : Nat) (e : Entry) (rest : List PoolEntry), s.Calm ∧ s.latState ≠ 0 ∧ s.on LAT_NODE_VALID = true ∧ (p = 1 ∨ p
      = 2) ∧ s.bulkPool n p = ⟨k, e⟩ :: rest ∧ s.routeOf e.dest = some q ∧ (s.portOf q).bulkQ.length < 32 ∧ s.queueTurn q false (k, 0, 8 *
      n + p) = true) :=
  ⟨⟨regsAre [(GLS_STAT 15, 23 * 2 ^ 27 + 255 * 2 ^ 16), (GLS_SEQ 15, 65280)], 15, onWire [bulkTrailer [⟨4094, 7, 5, false, true, false, 2⟩] 255 0] [], by decide +kernel⟩,
    ⟨regsAre [(GLS_STAT 15, 23 * 2 ^ 27 + 255 * 2 ^ 16), (GLS_SEQ 15, 0)], 15, 255, 0, [⟨4094, 7, 5, false, true, false, 2⟩], onWire ((List.range 3).map (bulkSlot [⟨4094, 7, 5, false, true, false, 2⟩]) ++ [bulkTrailer [⟨4094, 7, 5, false, true, false, 2⟩] 255 0]) [], by decide +kernel⟩,
    ⟨{ regsAre [(LAT_STAT, 2 ^ 29), (LAT_NODE, 2 ^ 31 + 1), (LAT_ROUTE 4094, 2 ^ 31 + 15), (GLS_CTRL 15, 2 ^ 29)] with port := [(0, { Port.init with bulk := [(2, [⟨3, ⟨4094, 7, 5, false, true, false, 2⟩⟩])] })] }, 0, 2, 15, 3, ⟨4094, 7, 5, false, true, false, 2⟩, [], by decide +kernel⟩⟩

theorem wit_GleisFrames_3 :
    (∃ (s : State) (n p q k : Nat) (u : Urgent) (e : Ecc) (b : Bool) (rest : List PoolUrgent), s.Calm ∧ s.latState ≠ 0 ∧ s.on
      LAT_NODE_VALID = true ∧ (p = 4 ∨ p = 5) ∧ s.urgPool n p = ⟨k, u, e, b⟩ :: rest ∧ s.routeOf u.dest = some q ∧ (s.portOf
      q).urgQ.length < 8 ∧ s.queueTurn q true (k, 0, 8 * n + p) = true) ∧
    (∃ (s : State) (n ack : Nat) (counts : List Nat) (slots : List (List Nat)), s.Calm ∧ s.Hears n slots [.credit ack counts]) ∧
    (∃ (s : State) (n l : Nat) (slots : List (List Nat)), s.Calm ∧ s.Hears n slots [.retry l] ∧ (s.portOf n).retry.any (fun e => e.1 == l)
      = true ∧ (s.portOf n).retry.any (fun e => decide (max 1 (s.f (GLS_LINK_CFG_RETRY_LIMIT n)) ≤ e.2.2)) = false) :=
  ⟨⟨{ regsAre [(LAT_STAT, 2 ^ 29), (LAT_NODE, 2 ^ 31 + 1), (LAT_ROUTE 4094, 2 ^ 31 + 15), (GLS_CTRL 15, 2 ^ 29)] with port := [(0, { Port.init with urg := [(5, [⟨3, .token 4094 3 false 0 5, .ok, false⟩])] })] }, 0, 5, 15, 3, .token 4094 3 false 0 5, .ok, false, [], by decide +kernel⟩,
    ⟨regsAre [(GLS_STAT 15, 23 * 2 ^ 27 + 255 * 2 ^ 16)], 15, 0, [255, 0, 1, 0, 15, 0], onWire [creditStatus 0 [255, 0, 1, 0, 15, 0]] [], by decide +kernel⟩,
    ⟨{ regsAre [(GLS_STAT 15, 23 * 2 ^ 27 + 255 * 2 ^ 16), (GLS_LINK_CFG 15, 0)] with port := [(15, { Port.init with retry := [(255, .bulk [⟨4094, 7, 5, false, true, false, 2⟩], 0), (0, .bulk [⟨4094, 7, 5, false, true, false, 2⟩], 0)] })] }, 15, 255, onWire [retrySlot 255] [], by decide +kernel⟩⟩

theorem wit_GleisFrames_4 :
    (∃ (s : State) (n : Nat), s.Calm ∧ n < 16 ∧ s.portUp n = true ∧ (s.portOf n).retry.any (fun e => decide (max 1 (s.f
      (GLS_LINK_CFG_RETRY_LIMIT n)) ≤ e.2.2)) = false ∧ (s.portOf n).retry ≠ [] ∧ (s.portOf n).ackFig + 4 * s.reqTmo n ≤ s.fig.toNat) ∧
    (∃ (s : State) (n : Nat), s.Calm ∧ s.portUp n = true ∧ (s.portOf n).asked = some (s.f (GLS_SEQ_RX_EXPECT n)) ∧ (s.portOf n).askFig +
      s.reqTmo n ≤ s.fig.toNat) ∧
    (∃ (s : State) (n : Nat), s.Calm ∧ s.portUp n = true ∧ max 8 (s.f (GLS_LINK_CFG_STATUS_INT n)) ≤ (s.portOf n).sinceStatus) :=
  ⟨⟨{ regsAre [(GLS_STAT 15, 23 * 2 ^ 27 + 255 * 2 ^ 16), (GLS_LINK_CFG 15, 0)] with fig := 64, port := [(15, { Port.init with retry := [(255, .bulk [⟨4094, 7, 5, false, true, false, 2⟩], 0)] })] }, 15, by decide +kernel⟩,
    ⟨{ regsAre [(GLS_STAT 15, 23 * 2 ^ 27 + 255 * 2 ^ 16), (GLS_SEQ 15, 65280), (GLS_LINK_CFG 15, 0)] with fig := 16, port := [(15, { Port.init with asked := some 255 })] }, 15, by decide +kernel⟩,
    ⟨{ regsAre [(GLS_STAT 15, 23 * 2 ^ 27 + 255 * 2 ^ 16), (GLS_LINK_CFG 15, 0)] with port := [(15, { Port.init with sinceStatus := 8 })] }, 15, by decide +kernel⟩⟩

theorem wit_GleisFrames_5 :
    (∃ (s : State) (n : Nat), s.Calm ∧ 64 * min 16 (max 1 (s.f (GLS_LINK_CFG_SKIP_INT n))) ≤ (s.portOf n).sinceSkip) ∧
    (∃ (s : State) (n : Nat) (slots : List (List Nat)), s.Calm ∧ s.Hears n slots []) ∧
    (∃ (s : State) (n q : Nat), s.Calm ∧ (s.portOf n).retryDue = some q) :=
  ⟨⟨{ regsAre [(GLS_STAT 15, 23 * 2 ^ 27 + 255 * 2 ^ 16), (GLS_LINK_CFG 15, 0)] with port := [(15, { Port.init with sinceSkip := 64 })] }, 15, by decide +kernel⟩,
    ⟨regsAre [(GLS_STAT 15, 23 * 2 ^ 27 + 255 * 2 ^ 16)], 15, onWire [skipSlot] [], by decide +kernel⟩,
    ⟨{ State.reset with port := [(15, { Port.init with retryDue := some 5, statusDue := true, beatDue := [3] })] }, 15, 5, by decide +kernel⟩⟩

theorem wit_GleisFrames_6 :
    (∃ (s : State) (n k : Nat) (u : Urgent), s.Calm ∧ n < 16 ∧ (s.portOf n).retryDue = none ∧ s.urgentDue n = some (u, k)) ∧
    (∃ (s : State) (n b : Nat) (rest : List Nat), s.Calm ∧ (s.portOf n).retryDue = none ∧ (s.portOf n).rep = none ∧ s.urgentDue n = none ∧
      (s.portOf n).beatDue = b :: rest) ∧
    (∃ (s : State) (n : Nat), s.Calm ∧ (s.portOf n).retryDue = none ∧ (s.portOf n).rep = none ∧ s.urgentDue n = none ∧ (s.portOf
      n).beatDue = [] ∧ (s.portOf n).statusDue = true ∧ (s.portOf n).spareOut = [] ∧ (s.portOf n).txStep = none) :=
  ⟨⟨{ regsAre [(GLS_STAT 15, 23 * 2 ^ 27 + 255 * 2 ^ 16), (GLS_SEQ 15, 255 * 2 ^ 24)] with port := [(15, { Port.init with urgQ := [.token 5 6 false 0 7], statusDue := true, beatDue := [3] })] }, 15, 4, .token 5 6 false 0 7, by decide +kernel⟩,
    ⟨{ State.reset with port := [(15, { Port.init with statusDue := true, beatDue := [3] })] }, 15, 3, [], by decide +kernel⟩,
    ⟨{ State.reset with port := [(15, { Port.init with statusDue := true, skipDue := true })] }, 15, by decide +kernel⟩⟩

theorem wit_GleisFrames_7 :
    (∃ (s : State) (n : Nat), s.Calm ∧ (s.portOf n).retryDue = none ∧ (s.portOf n).rep = none ∧ s.urgentDue n = none ∧ (s.portOf
      n).beatDue = [] ∧ (s.portOf n).statusDue = false ∧ (s.portOf n).skipDue = true) :=
  ⟨{ State.reset with port := [(15, { Port.init with skipDue := true })] }, 15, by decide +kernel⟩

theorem wit_GleisSparing_1 :
    (∃ (s : State) (n k : Nat) (slots : List (List Nat)), s.Calm ∧ s.Hears n slots [.spare 1 k] ∧ k < 8 ∧ s.f (GLS_STAT_TX_SPARE n) = 15 ∧
      (s.portOf n).txStep = none) ∧
    (∃ (s : State) (n k : Nat) (slots : List (List Nat)), s.Calm ∧ s.Hears n slots [.spare 2 k] ∧ k < 8 ∧ (s.portOf n).rxStep = some (k,
      false)) ∧
    (∃ (s : State) (n k : Nat) (slots : List (List Nat)), s.Calm ∧ s.Hears n slots [.spare 3 k] ∧ k < 8 ∧ (s.portOf n).txStep = some (k,
      false, true)) :=
  ⟨⟨regsAre [(GLS_STAT 15, 23 * 2 ^ 27 + 255 * 2 ^ 16)], 15, 7, onWire [spareStatus 1 7] [], by decide +kernel⟩,
    ⟨{ regsAre [(GLS_STAT 15, 23 * 2 ^ 27 + 255 * 2 ^ 16)] with port := [(15, { Port.init with rxStep := some (7, false) })] }, 15, 7, onWire [spareStatus 2 7] [], by decide +kernel⟩,
    ⟨{ regsAre [(GLS_STAT 15, 23 * 2 ^ 27 + 255 * 2 ^ 16)] with port := [(15, { Port.init with txStep := some (7, false, true) })] }, 15, 7, onWire [spareStatus 3 7] [], by decide +kernel⟩⟩

theorem wit_GleisSparing_2 :
    (∃ (s : State) (n k : Nat) (slots : List (List Nat)), s.Calm ∧ s.Hears n slots [.spare 4 k] ∧ k < 8 ∧ s.f (GLS_STAT_TX_SPARE n) = k ∧
      (s.portOf n).txStep = none) ∧
    (∃ (s : State) (n k : Nat) (slots : List (List Nat)), s.Calm ∧ s.Hears n slots [.spare 5 k] ∧ k < 8 ∧ (s.portOf n).rxStep = some (k,
      true)) ∧
    (∃ (s : State) (n k : Nat) (slots : List (List Nat)), s.Calm ∧ s.Hears n slots [.spare 6 k] ∧ k < 8 ∧ (s.portOf n).txStep = some (k,
      true, true)) :=
  ⟨⟨regsAre [(GLS_STAT 15, 23 * 2 ^ 27 + 15 * 2 ^ 20 + 7 * 2 ^ 16)], 15, 7, onWire [spareStatus 4 7] [], by decide +kernel⟩,
    ⟨{ regsAre [(GLS_STAT 15, 23 * 2 ^ 27 + 255 * 2 ^ 16)] with port := [(15, { Port.init with rxStep := some (7, true) })] }, 15, 7, onWire [spareStatus 5 7] [], by decide +kernel⟩,
    ⟨{ regsAre [(GLS_STAT 15, 23 * 2 ^ 27 + 255 * 2 ^ 16)] with port := [(15, { Port.init with txStep := some (7, true, true) })] }, 15, 7, onWire [spareStatus 6 7] [], by decide +kernel⟩⟩

theorem wit_GleisSparing_3 :
    (∃ (s : State) (n k : Nat), s.Calm ∧ n < 16 ∧ k < 8 ∧ s.blockGated (16 + n) = false ∧ s.portUp n = true ∧ s.spareFree n = true ∧
      s.laneFit n 8 = true) ∧
    (∃ (s : State) (n : Nat), s.Calm ∧ n < 16 ∧ s.blockGated (16 + n) = false ∧ s.portUp n = true ∧ s.f (GLS_STAT_RX_SPARE n) < 8 ∧
      (s.portOf n).rxStep = none ∧ s.laneFit n (s.f (GLS_STAT_RX_SPARE n)) = true) ∧
    (∃ (s : State) (n k : Nat), s.Calm ∧ n < 16 ∧ s.blockGated (16 + n) = false ∧ (s.portUp n = false ∨ (8 < k ∧ k < 16) ∨ (k < 8 ∧
      s.spareFree n = false))) :=
  ⟨⟨{ regsAre [(GLS_STAT 15, 23 * 2 ^ 27 + 255 * 2 ^ 16), (CLK_GATE_EN0, 0xFFFFFFFF), (CLK_GATE_EN1, 0xFFFFFFFF), (GLS_LANE_STAT 15 8, 2 ^ 29)] with port := [(15, { Port.init with clean := [8] })] }, 15, 7, by decide +kernel⟩,
    ⟨{ regsAre [(GLS_STAT 15, 23 * 2 ^ 27 + 7 * 2 ^ 20), (CLK_GATE_EN0, 0xFFFFFFFF), (CLK_GATE_EN1, 0xFFFFFFFF), (GLS_LANE_STAT 15 7, 2 ^ 29)] with port := [(15, { Port.init with clean := [7] })] }, 15, by decide +kernel⟩,
    ⟨regsAre [(GLS_STAT 15, 23 * 2 ^ 27 + 255 * 2 ^ 16), (CLK_GATE_EN0, 0xFFFFFFFF), (CLK_GATE_EN1, 0xFFFFFFFF)], 15, 9, by decide +kernel⟩⟩

theorem wit_GleisSparing_4 :
    (∃ (s : State) (n l : Nat), s.Calm ∧ n < 16 ∧ l < 9 ∧ s.portUp n = true ∧ (s.f (GLS_LANE_STAT_ROLE n l) = 3 ∨ s.f (GLS_LANE_STAT_ROLE
      n l) = 1 ∧ s.on (GLS_CTRL_AUTO_SPARE n) = false ∧ (s.portOf n).rxStep ≠ some (s.physLane n l, false))) ∧
    (∃ (s : State) (n l : Nat), s.Calm ∧ n < 16 ∧ l < 9 ∧ s.portUp n = true ∧ s.f (GLS_LANE_STAT_ROLE n l) = 1 ∧ s.on (GLS_CTRL_AUTO_SPARE
      n) = true ∧ s.spareFree n = true ∧ s.laneFit n 8 = true ∧ l ≠ s.physLane n 8) ∧
    (∃ (s : State) (n : Nat), s.Calm ∧ n < 16 ∧ s.fig.toNat % 1500000 = 0 ∧ (s.f (GLS_DEGRADE_THR n) = 0 ∨ ∀ l : Nat, l < 9 → mget
      (s.portOf n).winCode 0 l + mget (s.portOf n).winDisp 0 l < s.f (GLS_DEGRADE_THR n))) :=
  ⟨⟨regsAre [(GLS_STAT 15, 23 * 2 ^ 27 + 255 * 2 ^ 16), (GLS_LANE_STAT 15 8, 3 * 2 ^ 24), (GLS_CTRL 15, 0)], 15, 8, by decide +kernel⟩,
    ⟨{ regsAre [(GLS_STAT 15, 23 * 2 ^ 27 + 255 * 2 ^ 16), (GLS_LANE_STAT 15 5, 2 ^ 24), (GLS_LANE_STAT 15 8, 2 ^ 29), (GLS_CTRL 15, 2 ^ 30)] with port := [(15, { Port.init with clean := [8] })] }, 15, 5, by decide +kernel⟩,
    ⟨regsAre [(GLS_LANE_STAT 15 8, 2 ^ 29)], 15, by decide +kernel⟩⟩

theorem wit_GleisSparing_5 :
    (∃ (s : State) (n l : Nat), s.Calm ∧ n < 16 ∧ l < 9 ∧ s.fig.toNat % 1500000 = 0 ∧ (s.f (GLS_LANE_STAT_ROLE n l) = 1 ∨ s.f
      (GLS_LANE_STAT_ROLE n l) = 3) ∧ 0 < s.f (GLS_DEGRADE_THR n) ∧ s.f (GLS_DEGRADE_THR n) ≤ mget (s.portOf n).winCode 0 l + mget
      (s.portOf n).winDisp 0 l) ∧
    (∃ (s : State) (n l : Nat), s.Calm ∧ n < 16 ∧ l < 9 ∧ s.blockGated (16 + n) = false ∧ (s.f (GLS_LANE_STAT_ROLE n l) = 2 ∨ s.f
      (GLS_LANE_STAT_ROLE n l) = 4)) :=
  ⟨⟨{ regsAre [(GLS_LANE_STAT 15 8, 3 * 2 ^ 24), (GLS_DEGRADE 15, 2)] with fig := 3000000, port := [(15, { Port.init with winCode := [(8, 1)], winDisp := [(8, 1)] })] }, 15, 8, by decide +kernel⟩,
    ⟨regsAre [(GLS_LANE_STAT 15 8, 2 * 2 ^ 24 + 2 ^ 29), (CLK_GATE_EN0, 0xFFFFFFFF), (CLK_GATE_EN1, 0xFFFFFFFF)], 15, 8, by decide +kernel⟩⟩

theorem wit_GleisTraining_1 :
    (∃ (s : State) (n seen : Nat), s.Calm ∧ n < 16 ∧ s.f (GLS_STAT_STATE n) = 1 ∧ s.scanTakes = false ∧ 8 ≤ (bitList seen 9).length) ∧
    (∃ (s : State) (n seen : Nat), s.Calm ∧ n < 16 ∧ s.portUp n = true ∧ s.scanTakes = false) ∧
    (∃ (s : State) (n mask inv : Nat), s.Calm ∧ n < 16 ∧ s.f (GLS_STAT_STATE n) = 2 ∧ 8 ≤ (bitList mask 9).length) :=
  ⟨⟨regsAre [(GLS_STAT 15, 1 * 2 ^ 27)], 15, 510, by decide +kernel⟩,
    ⟨regsAre [(GLS_STAT 15, 23 * 2 ^ 27 + 255 * 2 ^ 16), (GLS_LANE_STAT 15 8, 2 ^ 31)], 15, 510, by decide +kernel⟩,
    ⟨regsAre [(GLS_STAT 15, 2 * 2 ^ 27)], 15, 510, 257, by decide +kernel⟩⟩

theorem wit_GleisTraining_2 :
    (∃ (s : State) (n : Nat) (codes : List Nat), s.Calm ∧ n < 16 ∧ s.f (GLS_STAT_STATE n) = 3) ∧
    (∃ (s : State) (n : Nat) (q : TrainSeq) (lanes : List (List Nat)), s.Calm ∧ n < 16 ∧ s.f (GLS_STAT_STATE n) = 4 ∧ (s.trainRx n
      lanes).2 = q ∧ q.type = 2 ∧ q.map < 2 ∧ q.ready = true ∧ 8 ≤ q.lanes.length) ∧
    (∃ (s : State) (n : Nat) (q : TrainSeq) (lanes : List (List Nat)), s.Calm ∧ n < 16 ∧ s.f (GLS_STAT_STATE n) = 4 ∧ (s.trainRx n
      lanes).2 = q ∧ q.type = 2 ∧ q.map = 2 ∧ 8 ≤ q.lanes.length) :=
  ⟨⟨regsAre [(GLS_STAT 15, 3 * 2 ^ 27), (GLS_LANE_CTRL 15 8, 2 ^ 31 + 7)], 15, [1, 2, 3, 4, 5, 6, 7, 8, 9], by decide +kernel⟩,
    ⟨regsAre [(GLS_STAT 15, 4 * 2 ^ 27)], 15, trainOf ((List.range 9).map (fun l => (trainSyms 2 l 15 4095 3 9 0).map some)) [], tsWire 2 15 4095 3 9 0, by decide +kernel⟩,
    ⟨regsAre [(GLS_STAT 15, 4 * 2 ^ 27)], 15, trainOf ((List.range 9).map (fun l => (trainSyms 2 (l / 2) 15 4095 3 9 0).map some)) [], (List.range 9).map (fun l => laneWire (trainSyms 2 (l / 2) 15 4095 3 9 0) false), by decide +kernel⟩⟩

theorem wit_GleisTraining_3 :
    (∃ (s : State) (n first last : Nat) (q : TrainSeq) (lanes : List (List Nat)), s.Calm ∧ n < 16 ∧ s.f (GLS_STAT_STATE n) = 5 ∧
      (s.trainRx n lanes).2 = q ∧ q.type = 3 ∧ (s.trainCarriers n).all (fun l => decide (l ∈ q.lanes)) = true ∧ ((s.trainCarriers n).map
      (fun l => q.place.getD l 0)).foldl max 0 = last ∧ ((s.trainCarriers n).map (fun l => q.place.getD l 0)).foldl min last = first ∧
      last - first ≤ 6) ∧
    (∃ (s : State) (n : Nat) (q : TrainSeq) (lanes : List (List Nat)), s.Calm ∧ n < 16 ∧ s.f (GLS_STAT_STATE n) = 6 ∧ (s.trainRx n
      lanes).2 = q ∧ q.type = 3 ∧ q.checked = true ∧ (s.trainCarriers n).all (fun l => decide (l ∈ q.lanes) && decide (l ∉ q.errs)) = true
      ∧ (s.portOf n).chkErr = false ∧ 1024 ≤ (s.portOf n).trained ∧ (s.portOf n).bad = none ∧ (s.portOf n).resume = none) ∧
    (∃ (s : State) (n : Nat) (q : TrainSeq) (lanes : List (List Nat)), s.Calm ∧ n < 16 ∧ s.f (GLS_STAT_STATE n) = 7 ∧ (s.trainRx n
      lanes).2 = q ∧ 8 ≤ q.lanes.length) :=
  ⟨⟨regsAre [(GLS_STAT 15, 5 * 2 ^ 27)], 15, 0, 0, trainOf ((List.range 9).map (fun l => (trainSyms 3 l 15 4095 3 9 0).map some)) [], tsWire 3 15 4095 3 9 0, by decide +kernel⟩,
    ⟨{ regsAre [(GLS_STAT 15, 6 * 2 ^ 27), (GLS_EVT 15, 0)] with port := [(15, { Port.init with trained := 1024 })] }, 15, trainOf ((List.range 9).map (fun l => (trainSyms 3 l 15 4095 7 9 0).map some)) [], tsWire 3 15 4095 7 9 0, by decide +kernel⟩,
    ⟨regsAre [(GLS_STAT 15, 23 * 2 ^ 27 + 255 * 2 ^ 16)], 15, trainOf ((List.range 9).map (fun l => (trainSyms 1 l 15 4095 0 9 0).map some)) [], tsWire 1 15 4095 0 9 0, by decide +kernel⟩⟩

theorem wit_GleisTraining_4 :
    (∃ (s : State) (n : Nat), s.Calm ∧ n < 16 ∧ s.f (GLS_STAT_STATE n) ∈ [2, 4, 5, 6]) ∧
    (∃ (s : State) (n : Nat), s.Calm ∧ n < 16 ∧ s.f (GLS_STAT_STATE n) = 8) ∧
    (∃ (s : State) (n : Nat), s.Calm ∧ n < 16 ∧ s.portUp n = true ∧ 12288 ≤ 5 * (s.fig.toNat - (s.portOf n).statFig)) :=
  ⟨⟨regsAre [(GLS_STAT 15, 6 * 2 ^ 27 + 255)], 15, by decide +kernel⟩,
    ⟨regsAre [(GLS_STAT 15, 8 * 2 ^ 27)], 15, by decide +kernel⟩,
    ⟨{ regsAre [(GLS_STAT 15, 23 * 2 ^ 27 + 255 * 2 ^ 16)] with fig := 2458 }, 15, by decide +kernel⟩⟩

theorem wit_GleisTraining_5 :
    (∃ (s : State) (n : Nat), s.Calm ∧ n < 16 ∧ s.blockGated (16 + n) = false ∧ s.portUp n = true) ∧
    (∃ (s : State) (n : Nat), s.Calm ∧ n < 16 ∧ s.blockGated (16 + n) = false) ∧
    (∃ (s : State) (n : Nat) (w : Word), s.Calm ∧ n < 16 ∧ s.blockGated (16 + n) = false ∧ fget w 27 24 < 9 ∧ s.on (GLS_LANE_STAT_CDR_LOCK
      n (fget w 27 24)) = true) :=
  ⟨⟨regsAre [(GLS_STAT 15, 23 * 2 ^ 27 + 255 * 2 ^ 16), (CLK_GATE_EN0, 0xFFFFFFFF), (CLK_GATE_EN1, 0xFFFFFFFF)], 15, by decide +kernel⟩,
    ⟨regsAre [(GLS_STAT 15, 23 * 2 ^ 27 + 255 * 2 ^ 16), (CLK_GATE_EN0, 0xFFFFFFFF), (CLK_GATE_EN1, 0xFFFFFFFF)], 15, by decide +kernel⟩,
    ⟨regsAre [(CLK_GATE_EN0, 0xFFFFFFFF), (CLK_GATE_EN1, 0xFFFFFFFF), (GLS_LANE_STAT 15 8, 2 ^ 30)], 15, 0xF8FFFFFF#32, by decide +kernel⟩⟩

theorem wit_GleisTraining_6 :
    (∃ (s : State) (n : Nat) (w : Word), s.Calm ∧ n < 16 ∧ s.blockGated (16 + n) = false ∧ s.on (GLS_EYE_STAT_BUSY n) = false ∧ (8 < fget
      w 27 24 ∨ s.on (GLS_LANE_STAT_CDR_LOCK n (fget w 27 24)) = false)) ∧
    (∃ (s : State) (n errs : Nat) (abort : Bool), s.Calm ∧ n < 16 ∧ s.on (GLS_EYE_STAT_BUSY n) = true) :=
  ⟨⟨regsAre [(CLK_GATE_EN0, 0xFFFFFFFF), (CLK_GATE_EN1, 0xFFFFFFFF)], 15, 0xFFFFFFFF#32, by decide +kernel⟩,
    ⟨regsAre [(GLS_EYE_STAT 15, 2 ^ 31)], 15, 0x1000000, false, by decide +kernel⟩⟩

theorem wit_TailCaptures_1 :
    (∃ (s : State), s.Calm ∧ s.reelBusy = false ∧ s.tail.req = none ∧ s.round.toNat + 1 < s.f TAIL_CAP_ROUND_LO_ROUND_LO + s.f
      TAIL_CAP_ROUND_HI_ROUND_HI * 2 ^ 32) ∧
    (∃ (s : State), s.Calm ∧ s.reelBusy = false ∧ s.tail.req = none) ∧
    (∃ (s : State), s.Calm ∧ s.reelBusy = false ∧ s.tail.req = none ∧ s.stopped = false) :=
  ⟨⟨regsAre [(TAIL_CAP_ROUND_HI, 65535)], by decide +kernel⟩,
    ⟨regsAre [(LAT_STAT, 6 * 2 ^ 29)], by decide +kernel⟩,
    ⟨regsAre [(LAT_STAT, 3 * 2 ^ 29)], by decide +kernel⟩⟩

theorem wit_TailCaptures_2 :
    (∃ (s : State) (c : Capture) (up : List (Nat × Nat)), s.Calm ∧ s.gateRun 36 = true ∧ s.clamped = false ∧ s.paceOk 32 = true ∧
      s.tail.cap = some c ∧ c.step < 8192 ∧ (c.bad = true ∨ (s.f SEC_ALARM_CFG_ACTION).testBit 1 = false)) ∧
    (∃ (s : State) (n m r : Nat) (rest : List Nat) (up : List (Nat × Nat)), s.Calm ∧ (s.f SEC_ALARM_CFG_ACTION).testBit 1 = false ∧ m /
      1024 = n ∧ s.fab.copied.map (fun e => e.1) = [m] ∧ s.uncopied m = r :: rest ∧ s.copyOutFull n = false ∧ s.gateRun 36 = true ∧
      s.clamped = false ∧ s.paceOk n = true) ∧
    (∃ (s : State) (i : Nat) (up : List (Nat × Nat)), s.Calm ∧ (s.f SEC_ALARM_CFG_ACTION).testBit 1 = false ∧ s.gateRun 36 = true ∧
      s.paceOk (16 + i / 2048) = true) :=
  ⟨⟨{ memOn [] with tail := { Tail.init with cap := some ⟨255, 5, 8191, false, [], 0⟩ } }, ⟨255, 5, 8191, false, [], 0⟩, [], by decide +kernel⟩,
    ⟨{ memOn [] with tail := { Tail.init with cap := some ⟨255, 5, 8191, false, [], 0⟩ }, fab := { Fabric.init with copied := [(16383, List.range 510)] } }, 15, 16383, 510, [511], [], by decide +kernel⟩,
    ⟨{ memOn [] with tail := { Tail.init with cap := some ⟨255, 5, 8191, false, [], 0⟩ }, fab := { Fabric.init with copyOut := [(32767, some (511, 5))] } }, 32767, [], by decide +kernel⟩⟩

theorem wit_TailCaptures_3 :
    (∃ (s : State) (c : Capture), s.Calm ∧ s.tail.cap = some c ∧ c.slot < 256 ∧ c.step = 8192 ∧ c.lists = [] ∧ s.walked = true ∧ c.bad =
      false) ∧
    (∃ (s : State) (c : Capture), s.Calm ∧ s.tail.cap = some c ∧ c.step = 8192 ∧ c.lists = [] ∧ s.walked = true ∧ c.bad = true) ∧
    (∃ (s : State) (k : Nat), s.Calm ∧ k ∈ s.tail.mapDue) :=
  ⟨⟨{ State.reset with tail := { Tail.init with cap := some ⟨255, 5, 8192, false, [], 0⟩ } }, ⟨255, 5, 8192, false, [], 0⟩, by decide +kernel⟩,
    ⟨{ State.reset with tail := { Tail.init with cap := some ⟨255, 5, 8192, true, [], 0⟩ } }, ⟨255, 5, 8192, true, [], 0⟩, by decide +kernel⟩,
    ⟨{ State.reset with tail := { Tail.init with mapDue := [127] } }, 127, by decide +kernel⟩⟩

theorem wit_TailCaptures_4 :
    (∃ (s : State) (k : Nat), s.Calm ∧ k ∈ s.tail.build) ∧
    (∃ (s : State) (i : Nat), s.Calm ∧ i < 256 ∧ s.blockGated 36 = false ∧ s.slotLoose i = true) :=
  ⟨⟨{ State.reset with tail := { Tail.init with build := [127] } }, 127, by decide +kernel⟩,
    ⟨regsAre [(CLK_GATE_EN1, 127), (TAIL_CAT_STAT 255, 2 ^ 30)], 255, by decide +kernel⟩⟩

theorem wit_TailTriggersAndRings_1 :
    (∃ (s : State) (u : Nat), s.Calm ∧ s.trigSamples u = true ∧ s.trigHit u = true ∧ s.on (TAIL_TRG_STAT_ARMED u) = true ∧ s.f
      (TAIL_TRG_STAT_HITS u) + 1 < s.f (TAIL_TRG_CFG_COUNT u)) ∧
    (∃ (s : State) (u : Nat), s.Calm ∧ s.trigSamples u = true ∧ (s.trigHit u = false ∨ s.on (TAIL_TRG_STAT_ARMED u) = false)) ∧
    (∃ (s : State) (u : Nat), s.Calm ∧ s.trigSamples u = true ∧ s.trigHit u = true ∧ s.on (TAIL_TRG_STAT_ARMED u) = true ∧ max 1 (s.f
      (TAIL_TRG_CFG_COUNT u)) ≤ s.f (TAIL_TRG_STAT_HITS u) + 1 ∧ s.on (TAIL_TRG_CFG_ACT_CAPTURE u) = false ∧ s.on (TAIL_TRG_CFG_ACT_STOP
      u) = false ∧ s.on (TAIL_TRG_CFG_ACT_PIN u) = false ∧ s.on (TAIL_TRG_CFG_ACT_RING u) = false ∧ (∀ v : Nat, v < 64 → s.on
      (TAIL_TRG_CFG_EN v) = true → s.f (TAIL_TRG_CFG_ARM_SRC v) = 1 → s.f (TAIL_TRG_CFG_ARM_UNIT v) = u → False)) :=
  ⟨⟨regsAre [(TAIL_CTRL, 2 ^ 31), (CLK_GATE_EN1, 127), (TAIL_TRG_CFG 63, 2 ^ 31 + 2 ^ 15), (TAIL_TRG_STAT 63, 2 ^ 30 + 126)], 63, by decide +kernel⟩,
    ⟨regsAre [(TAIL_CTRL, 2 ^ 31), (CLK_GATE_EN1, 127), (TAIL_TRG_CFG 63, 2 ^ 31 + 0), (TAIL_TRG_STAT 63, 0)], 63, by decide +kernel⟩,
    ⟨regsAre [(TAIL_CTRL, 2 ^ 31), (CLK_GATE_EN1, 127), (TAIL_TRG_CFG 63, 2 ^ 31 + 2 ^ 29 + 2 ^ 7), (TAIL_TRG_STAT 63, 2 ^ 30)], 63, by decide +kernel⟩⟩

theorem wit_TailTriggersAndRings_2 :
    (∃ (s : State) (u : Nat), s.Calm ∧ s.trigSamples u = true ∧ s.trigHit u = true ∧ s.on (TAIL_TRG_STAT_ARMED u) = true ∧ max 1 (s.f
      (TAIL_TRG_CFG_COUNT u)) ≤ s.f (TAIL_TRG_STAT_HITS u) + 1) ∧
    (∃ (s : State) (u : Nat), s.Calm ∧ u < 64 ∧ s.blockGated 36 = false) ∧
    (∃ (s : State), s.Calm ∧ s.tail.armDue.all (fun u => decide (u < 64)) = true) :=
  ⟨⟨regsAre [(TAIL_CTRL, 2 ^ 31), (CLK_GATE_EN1, 127), (TAIL_TRG_CFG 63, 2 ^ 31 + 248), (TAIL_TRG_STAT 63, 2 ^ 30)], 63, by decide +kernel⟩,
    ⟨regsAre [(TAIL_CTRL, 2 ^ 31), (CLK_GATE_EN1, 127), (TAIL_TRG_CFG 63, 2 ^ 31 + 0), (TAIL_TRG_STAT 63, 5)], 63, by decide +kernel⟩,
    ⟨{ regsAre [(TAIL_CTRL, 2 ^ 31), (CLK_GATE_EN1, 127), (TAIL_TRG_CFG 63, 2 ^ 31 + 0), (TAIL_TRG_STAT 63, 5)] with tail := { Tail.init with armDue := [63] } }, by decide +kernel⟩⟩

theorem wit_TailTriggersAndRings_3 :
    (∃ (s : State) (k : Nat) (up : List (Nat × Nat)), s.Calm ∧ k < 8 ∧ s.ringOn k 0 = true ∧ 64 + k ∉ s.tail.sampled ∧ (s.f
      (TAIL_RING_CFG_SAMPLE k) = 0 ∨ (s.f (TAIL_RING_CFG_SAMPLE k) = 1 ∧ s.announceEdge = true)) ∧ (mget s.tail.ringBuf [] k).length < 64
      ∧ mget s.tail.post none k = none) :=
  ⟨{ regsAre [(TAIL_CTRL, 2 ^ 31), (CLK_GATE_EN1, 127), (TAIL_RING_CFG 7, 2 ^ 31), (TAIL_RING_SEL 7, 8191)] with fab := { Fabric.init with outFig := [(8191, ⟨77, true⟩)] }, fig := 9, round := 40000 }, 7, [(1, 4)], by decide +kernel⟩

theorem wit_TailReelIn_1 :
    (∃ (s : State) (slot h : Nat) (rest : List Nat), s.Calm ∧ (s.f SEC_ALARM_CFG_ACTION).testBit 1 = false ∧ s.blockGated 36 = false ∧
      s.slotState (slot % 256) = 2 ∧ (reelHeader 17 (s.slotBase (slot % 256)) [] (s.put TAIL_REEL_CTRL_SLOT slot)).2 = some (h :: rest) ∧
      (reelHeader 17 (s.slotBase (slot % 256)) [] (s.put TAIL_REEL_CTRL_SLOT slot)).1.reelCheck (slot % 256) (s.f TAIL_REEL_STAT_STATE ==
      1 || s.f TAIL_REEL_STAT_STATE == 2 || s.f TAIL_REEL_STAT_STATE == 3) (some (h :: rest)) = none ∧ bitsOf h 447 416 = 0) ∧
    (∃ (s : State) (slot : Nat), s.Calm ∧ s.blockGated 36 = false ∧ s.slotState (slot % 256) ≠ 2) ∧
    (∃ (s : State) (r : Reel) (ls : List Nat), s.Calm ∧ (s.f SEC_ALARM_CFG_ACTION).testBit 1 = false ∧ s.tail.reel = some r ∧ s.f
      TAIL_REEL_STAT_STATE = 1 ∧ r.step = 8192 ∧ s.clamped = false ∧ (reelHeader 17 (s.slotBase r.slot) [] s).2 = some ls ∧ (reelHeader 17
      (s.slotBase r.slot) [] s).1.reelCheck r.slot false (some ls) = none ∧ s.designRows = []) :=
  ⟨⟨spooled [(TAIL_CAT_STAT 255, 2 ^ 30), (CFG_STAT, 2 ^ 28), (CLK_HUB_SEL, 1)], 255, 0x53504C31 + 2 ^ 32 + 5 * 2 ^ 128, List.replicate 16 0, by decide +kernel⟩,
    ⟨regsAre [(CLK_GATE_EN1, 127)], 511, by decide +kernel⟩,
    ⟨{ spooled [(TAIL_CAT_STAT 255, 2 ^ 30), (CFG_STAT, 2 ^ 28), (CLK_HUB_SEL, 1), (TAIL_REEL_STAT, 2 ^ 29)] with tail := { Tail.init with reel := some ⟨255, 5, [], 8192, true, false, 0⟩ } }, ⟨255, 5, [], 8192, true, false, 0⟩, (0x53504C31 + 2 ^ 32 + 5 * 2 ^ 128) :: List.replicate 16 0, by decide +kernel⟩⟩

theorem wit_TailReelIn_2 :
    (∃ (s : State) (r : Reel), s.Calm ∧ s.tail.reel = some r ∧ s.restoreReached = true) ∧
    (∃ (s : State) (r : Reel), s.Calm ∧ s.tail.reel = some r ∧ s.f TAIL_REEL_STAT_STATE = 3 ∧ s.clamped = false ∧ s.designRows = [] ∧
      s.stopped = true) ∧
    (∃ (s : State) (r : Reel), s.Calm ∧ s.blockGated 36 = false ∧ s.tail.reel = some r ∧ r.slot < 256 ∧ 1 ≤ s.f TAIL_REEL_STAT_STATE ∧ s.f
      TAIL_REEL_STAT_STATE ≤ 3) :=
  ⟨⟨{ regsAre [(TAIL_REEL_STAT, 2 ^ 30), (LAT_STAT, 2 ^ 29)] with fig := 16, tail := { Tail.init with reel := some ⟨255, 5, [], 8192, true, false, 0⟩ } }, ⟨255, 5, [], 8192, true, false, 0⟩, by decide +kernel⟩,
    ⟨{ regsAre [(TAIL_REEL_STAT, 3 * 2 ^ 29), (LAT_STAT, 7 * 2 ^ 29)] with tail := { Tail.init with reel := some ⟨255, 5, [], 8192, true, false, 0⟩ } }, ⟨255, 5, [], 8192, true, false, 0⟩, by decide +kernel⟩,
    ⟨{ regsAre [(CLK_GATE_EN1, 127), (TAIL_REEL_STAT, 2 ^ 30)] with tail := { Tail.init with reel := some ⟨255, 5, [], 8192, true, true, 0⟩ } }, ⟨255, 5, [], 8192, true, true, 0⟩, by decide +kernel⟩⟩

theorem wit_TailTransfers_1 :
    (∃ (s : State) (key slot : Nat), s.Calm ∧ s.blockGated 36 = false ∧ s.on TAIL_EXP_STAT_BUSY = false ∧ s.alarmed = false ∧ s.slotState
      (slot % 256) = 2) ∧
    (∃ (s : State) (key i : Nat), s.Calm ∧ s.blockGated 36 = false ∧ s.on TAIL_EXP_STAT_BUSY = false ∧ s.alarmed = false ∧ s.slotPick =
      some (i, false)) ∧
    (∃ (s : State) (x : Transfer), s.Calm ∧ s.blockGated 36 = false ∧ s.tail.xfer = some x) :=
  ⟨⟨regsAre [(CLK_GATE_EN1, 127), (TAIL_CAT_STAT 255, 2 ^ 30), (TAIL_EXP_STAT, 3 * 2 ^ 29)], 9, 255, by decide +kernel⟩,
    ⟨regsAre [(CLK_GATE_EN1, 127), (TAIL_SPOOL_SLOTS, 2), (TAIL_CAT_STAT 0, 2 ^ 30)], 9, 1, by decide +kernel⟩,
    ⟨{ regsAre [(CLK_GATE_EN1, 127), (TAIL_EXP_STAT, 2 ^ 31), (TAIL_CAT_STAT 255, 2 ^ 31)] with tail := { Tail.init with xfer := some ⟨true, 255, 9, 5, 0⟩ } }, ⟨true, 255, 9, 5, 0⟩, by decide +kernel⟩⟩

theorem wit_TailTransfers_2 :
    (∃ (s : State) (gdl box : Nat) (x : Transfer), s.Calm ∧ s.tail.xfer = some x ∧ x.wait = 0 ∧ s.gdlLoad = false ∧ (gdl % 256 = 4 ∧ x.imp
      = true ∨ gdl % 256 ≠ 4 ∧ s.on GDL_STAT_PRESENT = false)) ∧
    (∃ (s : State) (gdl box c : Nat) (x : Transfer) (u : State), s.Calm ∧ s.tail.xfer = some x ∧ x.wait = 0 ∧ s.gdlLoad = false ∧ gdl %
      256 ≠ 4 ∧ s.on GDL_STAT_PRESENT = true ∧ x.imp = true ∧ s.boxTake x box = (u, c)) ∧
    (∃ (s : State) (gdl box c : Nat) (x : Transfer) (u : State), s.Calm ∧ s.tail.xfer = some x ∧ x.wait = 0 ∧ s.gdlLoad = false ∧ gdl %
      256 ≠ 4 ∧ s.on GDL_STAT_PRESENT = true ∧ x.imp = false ∧ s.pin.idBad = false ∧ s.f GDL_LIFE_RESERVE < s.f GDL_LIFE_LIFE ∧ s.boxOut x
      = (u, c)) :=
  ⟨⟨{ regsAre [(CLK_GATE_EN1, 127), (TAIL_EXP_STAT, 2 ^ 31), (TAIL_CAT_STAT 255, 2 ^ 31)] with tail := { Tail.init with xfer := some ⟨true, 255, 9, 5, 0⟩ } }, 4, 0, ⟨true, 255, 9, 5, 0⟩, by decide +kernel⟩,
    ⟨{ regsAre [(GDL_STAT, 2 ^ 31), (CLK_GATE_EN1, 127), (TAIL_EXP_STAT, 2 ^ 31), (TAIL_CAT_STAT 255, 2 ^ 31)] with tail := { Tail.init with xfer := some ⟨true, 255, 9, 5, 0⟩ } }, 0, 0, 2, ⟨true, 255, 9, 5, 0⟩, { regsAre [(GDL_STAT, 2 ^ 31), (CLK_GATE_EN1, 127), (TAIL_EXP_STAT, 2 ^ 31), (TAIL_CAT_STAT 255, 2 ^ 31)] with tail := { Tail.init with xfer := some ⟨true, 255, 9, 5, 0⟩ } }, by decide +kernel⟩,
    ⟨{ regsAre [(GDL_STAT, 2 ^ 31), (GDL_LIFE, 200 * 2 ^ 16), (CLK_GATE_EN1, 127), (TAIL_EXP_STAT, 2 ^ 31), (TAIL_CAT_STAT 255, 2 ^ 31)] with tail := { Tail.init with xfer := some ⟨false, 255, 9, 5, 0⟩ } }, 0, 0, 2, ⟨false, 255, 9, 5, 0⟩, { regsAre [(GDL_STAT, 2 ^ 31), (GDL_LIFE, 200 * 2 ^ 16), (CLK_GATE_EN1, 127), (TAIL_EXP_STAT, 2 ^ 31), (TAIL_CAT_STAT 255, 2 ^ 31)] with tail := { Tail.init with xfer := some ⟨false, 255, 9, 5, 0⟩ } }, by decide +kernel⟩⟩

theorem wit_TailTransfers_3 :
    (∃ (s : State) (x : Transfer), s.Calm ∧ s.tail.xfer = some x) ∧
    (∃ (s : State) (c : Nat) (x : Transfer), s.Calm ∧ s.tail.xfer = some x ∧ 0 < c ∧ c < 256) :=
  ⟨⟨{ regsAre [(CLK_GATE_EN1, 127), (TAIL_EXP_STAT, 2 ^ 31), (TAIL_CAT_STAT 255, 2 ^ 31)] with tail := { Tail.init with xfer := some ⟨true, 255, 9, 5, 0⟩ } }, ⟨true, 255, 9, 5, 0⟩, by decide +kernel⟩,
    ⟨{ regsAre [(CLK_GATE_EN1, 127), (TAIL_EXP_STAT, 2 ^ 31), (TAIL_CAT_STAT 255, 2 ^ 31)] with tail := { Tail.init with xfer := some ⟨true, 255, 9, 5, 0⟩ } }, 255, ⟨true, 255, 9, 5, 0⟩, by decide +kernel⟩⟩

theorem wit_MeshAccesses_1 :
    (∃ (s : State) (src g : Nat) (a : Acc) (stuck : Bool), s.Calm ∧ s.meshRuns = true ∧ 0 < src ∧ src < 48 ∧ a.src = src ∧ a.tag = g ∧ g <
      64 ∧ s.mesh.out = [64 * src + g] ∧ s.tagAt (64 * src + g) = .queued a ∧ s.accHeld a = false ∧ (s.decodeDest a.addr = .unmapped ∨
      s.storeGuarded src a.addr = true)) ∧
    (∃ (s : State) (src g : Nat) (a : Acc) (stuck : Bool), s.Calm ∧ s.meshRuns = true ∧ 0 < src ∧ src < 48 ∧ a.src = src ∧ a.tag = g ∧ g <
      64 ∧ s.mesh.out = [64 * src + g] ∧ s.tagAt (64 * src + g) = .queued a ∧ s.accHeld a = false ∧ s.decodeDest a.addr ≠ .unmapped ∧
      s.storeGuarded src a.addr = false ∧ (s.bufOf (4 * (8 * ((backPort a.src (s.decodeDest a.addr).port) / 4) + (backPort a.src
      (s.decodeDest a.addr).port) % 4) + portVc a.src (s.decodeDest a.addr).port)).length + (reqPacket a (s.decodeDest
      a.addr).port).length ≤ 8) ∧
    (∃ (s : State), s.Calm ∧ s.mesh.buf = [] ∧ s.mesh.vc3 = []) :=
  ⟨⟨{ regsAre [] with mesh := { Mesh.init with out := [64 * 46 + 63], tags := [(64 * 46 + 63, .queued ⟨46, 63, true, 0xFFFFFFFFFFF8, 8, 0xFF00000000000000, 5, 0, 9⟩)] } }, 46, 63, ⟨46, 63, true, 0xFFFFFFFFFFF8, 8, 0xFF00000000000000, 5, 0, 9⟩, false, by decide +kernel⟩,
    ⟨{ memOn [] with mesh := { Mesh.init with out := [64 * 46 + 63], tags := [(64 * 46 + 63, .queued ⟨46, 63, true, 0x0000000005C0, 64, 2 ^ 64 - 1, 2 ^ 511 + 3, 129, 9⟩)], buf := [(4 * 113, [⟨0, 1, 0, 0, 0⟩, ⟨0, 0, 0, 0, 0⟩, ⟨0, 0, 0, 0, 0⟩, ⟨0, 0, 0, 0, 0⟩, ⟨0, 2, 0, 0, 0⟩])] } }, 46, 63, ⟨46, 63, true, 0x0000000005C0, 64, 2 ^ 64 - 1, 2 ^ 511 + 3, 129, 9⟩, true, by decide +kernel⟩,
    ⟨State.reset, by decide +kernel⟩⟩

theorem wit_MeshAccesses_2 :
    (∃ (s : State) (p q : Nat), s.Calm ∧ p < 96 ∧ q < 96) ∧
    (∃ (s : State) (o k : Nat) (f : NFlit) (l : List NFlit) (x : Option Nat), s.Calm ∧ 4 ≤ o ∧ o < 8 ∧ nextBuf (k / 32) o (k % 4) ≠ k ∧
      s.bufOf k = f :: l) ∧
    (∃ (s : State) (k : Nat) (a : Acc), s.Calm ∧ s.absorbed (64 + 4 * k) = false ∧ s.blockGated (32 + k) = false ∧ sizeOk a.addr a.size =
      true ∧ (s.keyAt a.addr).isSome = true ∧ (s.waits (64 + 4 * k)).length < 256 ∧ s.memPorts = true ∧ s.hbmPll k = true) :=
  ⟨⟨State.reset, 0, 95, by decide +kernel⟩,
    ⟨{ State.reset with mesh := { Mesh.init with buf := [(452, [⟨0, 1, 0, 0, 5⟩, ⟨0, 2, 0, 0, 6⟩])] } }, 4, 452, ⟨0, 1, 0, 0, 5⟩, [⟨0, 2, 0, 0, 6⟩], none, by decide +kernel⟩,
    ⟨memOn [], 3, ⟨46, 63, true, 0x300, 8, 255, 5, 0, 9⟩, by decide +kernel⟩⟩

theorem wit_MeshAccesses_3 :
    (∃ (s : State) (off : Nat) (a : Acc) (u : State) (r : Rsp), s.Calm ∧ s.absorbed (hubPort off) = false ∧ s.hubAcc a off = (u, some r)) ∧
    (∃ (s : State) (src g lat : Nat) (a : Acc) (l : List NFlit), s.Calm ∧ s.meshRuns = true ∧ 0 < src ∧ src < 48 ∧ g < 64 ∧ a.src = src ∧
      a.tag = g ∧ s.mesh.rsps = [l] ∧ keyOf l = 64 * src + g ∧ s.tagAt (64 * src + g) = .busy a false) ∧
    (∃ (s : State) (src g : Nat) (a : Acc), s.Calm ∧ 0 < src ∧ src < 48 ∧ g < 64 ∧ a.src = src ∧ a.tag = g ∧ s.tagAt (64 * src + g) =
      .busy a false) :=
  ⟨⟨{ regsAre [(INT_BKT_CFG 17, 7)] with mesh := { Mesh.init with out := [64 * 46 + 63], tags := [(64 * 46 + 63, .queued ⟨46, 63, false, 0x020000300210, 4, 0, 0, 0, 9⟩)] } }, 0x300210, ⟨46, 63, false, 0x020000300210, 4, 0, 0, 0, 9⟩, ({ regsAre [(INT_BKT_CFG 17, 7)] with mesh := { Mesh.init with out := [64 * 46 + 63], tags := [(64 * 46 + 63, .queued ⟨46, 63, false, 0x020000300210, 4, 0, 0, 0, 9⟩)] } } : State), ⟨0, 0, 7 * 2 ^ 128, 0⟩, by decide +kernel⟩,
    ⟨{ State.reset with mesh := { Mesh.init with tags := [(64 * 46 + 63, .busy ⟨46, 63, false, 0x020000300210, 4, 0, 0, 0, 9⟩ false)], rsps := [rspPacket ⟨46, 63, false, 0x020000300210, 4, 0, 0, 0, 9⟩ 86 ⟨0, 0, 5, 0⟩] } }, 46, 63, 99, ⟨46, 63, false, 0x020000300210, 4, 0, 0, 0, 9⟩, rspPacket ⟨46, 63, false, 0x020000300210, 4, 0, 0, 0, 9⟩ 86 ⟨0, 0, 5, 0⟩, by decide +kernel⟩,
    ⟨{ State.reset with mesh := { Mesh.init with tags := [(64 * 46 + 63, .busy ⟨46, 63, false, 0x020000300210, 4, 0, 0, 0, 9⟩ false)], rsps := [rspPacket ⟨46, 63, false, 0x020000300210, 4, 0, 0, 0, 9⟩ 86 ⟨0, 0, 5, 0⟩] } }, 46, 63, ⟨46, 63, false, 0x020000300210, 4, 0, 0, 0, 9⟩, by decide +kernel⟩⟩

theorem wit_MeshAccesses_4 :
    (∃ (s : State) (k : Nat), s.Calm ∧ k < 96 ∧ s.on (MESH_TGT_CFG_PRESENT k) = true ∧ s.on (MESH_TGT_CFG_EXEMPT k) = false ∧ s.absorbed k
      = false ∧ s.portHolds k = true) ∧
    (∃ (s : State) (k : Nat), s.Calm ∧ k < 96 ∧ s.absorbed k = true) ∧
    (∃ (s : State), s.Calm) :=
  ⟨⟨{ regsAre [(MESH_TGT_CFG 95, 2 ^ 30 + 300)] with mesh := { Mesh.init with waiting := [(95, [⟨⟨46, 63, false, 0x020000300210, 4, 0, 0, 0, 9⟩, false, 3⟩, ⟨⟨46, 63, true, 0xFFFFFFFFFFF8, 8, 0xFF00000000000000, 5, 0, 9⟩, true, 4⟩])], vc3 := [(95, [⟨46, 63, true, 0xFFFFFFFFFFF8, 8, 0xFF00000000000000, 5, 0, 9⟩])] } }, 95, by decide +kernel⟩,
    ⟨{ regsAre [(MESH_TGT_STAT 95, 2 ^ 30 + 2 ^ 16)] with mesh := { Mesh.init with stale := [(95, 7)] } }, 95, by decide +kernel⟩,
    ⟨{ State.reset with mesh := { Mesh.init with monBytes := [(94, 5), (95, 2 ^ 32 + 1)] } }, by decide +kernel⟩⟩

theorem wit_MeshAccesses_5 :
    (∃ (s : State), s.Calm) ∧
    (∃ (s : State) (c i : Nat), s.Calm ∧ c < 17 ∧ (c, i) ∈ s.mesh.irqMsgs ∧ s.coreSt c ≠ 0 ∧ s.on (MESH_TGT_STAT_STATE (corePort c)) =
      false) :=
  ⟨⟨regsAre [(MESH_INI_HIST 47 15, 9)], by decide +kernel⟩,
    ⟨{ regsAre [(ST_STAT 15, 2 ^ 29), (ST_IRQ_CFG 15 63, 2 ^ 29 + 383)] with mesh := { Mesh.init with irqMsgs := [(15, 383)] } }, 15, 383, by decide +kernel⟩⟩

theorem wit_HbmAccesses_1 :
    (∃ (s : State) (k i : Nat) (a : Acc) (kp : KeyPair), s.Calm ∧ s.memHeld k i = some a ∧ k < 4 ∧ s.memServe (a.addr / 64 * 64) = .inr kp
      ∧ s.absorbed (64 + 4 * k) = false ∧ a.write = true ∧ a.be = 2 ^ 64 - 1) ∧
    (∃ (s : State) (k i : Nat) (a : Acc) (kp : KeyPair), s.Calm ∧ s.memHeld k i = some a ∧ k < 4 ∧ s.memServe (a.addr / 64 * 64) = .inr kp
      ∧ s.absorbed (64 + 4 * k) = false ∧ a.write = false ∧ a.src ≠ 22 ∧ (s.tagRead (a.addr / 64 * 64)).tagOf (a.addr / 64 * 64) =
      tagUnwritten) ∧
    (∃ (s : State) (k i : Nat) (up : List (Nat × Nat)) (a : Acc) (kp : KeyPair), s.Calm ∧ s.memHeld k i = some a ∧ k < 4 ∧ s.memServe
      (a.addr / 64 * 64) = .inr kp ∧ (s.f SEC_ALARM_CFG_ACTION).testBit 1 = false ∧ s.absorbed (64 + 4 * k) = false ∧ a.write = false ∧
      a.src ≠ 22) :=
  ⟨⟨{ memOn [] with mesh := { Mesh.init with waiting := [(76, [⟨⟨46, 63, true, 0x300, 64, 2 ^ 64 - 1, 2 ^ 511 + 5, 0x81, 9⟩, false, 0⟩])] } }, 3, 0, ⟨46, 63, true, 0x300, 64, 2 ^ 64 - 1, 2 ^ 511 + 5, 0x81, 9⟩, ⟨5, 7⟩, by decide +kernel⟩,
    ⟨{ memOn [] with mesh := { Mesh.init with waiting := [(76, [⟨⟨46, 63, false, 0x308, 8, 0, 0, 0, 9⟩, false, 0⟩])] } }, 3, 0, ⟨46, 63, false, 0x308, 8, 0, 0, 0, 9⟩, ⟨5, 7⟩, by decide +kernel⟩,
    ⟨{ (((memOn []).lineWrite 0x300 7 0).1 : State) with mesh := { Mesh.init with waiting := [(76, [⟨⟨46, 63, false, 0x308, 8, 0, 0, 0, 9⟩, false, 0⟩])] } }, 3, 0, [], ⟨46, 63, false, 0x308, 8, 0, 0, 0, 9⟩, ⟨5, 7⟩, by decide +kernel⟩⟩

theorem wit_HbmAccesses_2 :
    (∃ (s : State) (k i : Nat) (a : Acc) (kp : KeyPair), s.Calm ∧ s.memHeld k i = some a ∧ k < 4 ∧ s.memServe (a.addr / 64 * 64) = .inr kp
      ∧ s.absorbed (64 + 4 * k) = false ∧ a.write = true ∧ a.be ≠ 2 ^ 64 - 1 ∧ a.poison = 0 ∧ (s.tagRead (a.addr / 64 * 64)).tagOf (a.addr
      / 64 * 64) = tagUnwritten) :=
  ⟨{ memOn [] with mesh := { Mesh.init with waiting := [(76, [⟨⟨46, 63, true, 0x308, 4, 0xF00, 5 * 2 ^ 64, 0, 9⟩, false, 0⟩])] } }, 3, 0, ⟨46, 63, true, 0x308, 4, 0xF00, 5 * 2 ^ 64, 0, 9⟩, ⟨5, 7⟩, by decide +kernel⟩

theorem wit_HbmBringUp_1 :
    (∃ (s : State) (k temp : Nat), s.Calm ∧ k < 4 ∧ mget s.clk.gate .opened (32 + k) ≠ .closed) ∧
    (∃ (s : State) (k : Nat), s.Calm ∧ k < 4 ∧ s.stackSt k = 3 ∧ mget s.clk.gate .opened (32 + k) ≠ .closed ∧ s.power < 2) ∧
    (∃ (s : State), s.Calm ∧ (s.f MEM_STAT_KEYS = 0 ∨ s.f MEM_STAT_KEYS = 3) ∧ s.on MEM_STAT_INIT_BUSY = false ∧ s.alarmed = false) :=
  ⟨⟨State.reset, 3, 511, by decide +kernel⟩,
    ⟨regsAre [(MEM_STACK_STAT 3, 3 * 2 ^ 29)], 3, by decide +kernel⟩,
    ⟨regsAre [(MEM_STACK_STAT 3, 4 * 2 ^ 29)], by decide +kernel⟩⟩

theorem wit_HbmBringUp_2 :
    (∃ (s : State), s.Calm ∧ (s.f MEM_STAT_KEYS = 1 ∨ s.f MEM_STAT_KEYS = 2 ∨ s.on MEM_STAT_INIT_BUSY = true ∨ s.alarmed = true)) ∧
    (∃ (s : State) (keys : KeyPair), s.Calm ∧ s.on MEM_STAT_INIT_BUSY = true ∧ s.power < 2 ∧ s.bootAt 2 = false) ∧
    (∃ (s : State) (keys : KeyPair), s.Calm ∧ s.f MEM_STAT_KEYS = 1 ∧ s.on MEM_STAT_INIT_BUSY = false ∧ (∀ k : Nat, k < 4 → s.stackSt k ≠
      1)) :=
  ⟨⟨memOn [], by decide +kernel⟩,
    ⟨regsAre [(MEM_STAT, 2 ^ 29)], ⟨5, 7⟩, by decide +kernel⟩,
    ⟨memOn [(MEM_REKEY_PTR 3, 9)], ⟨8, 9⟩, by decide +kernel⟩⟩

theorem wit_HbmBringUp_3 :
    (∃ (s : State) (keys : KeyPair), s.Calm ∧ (s.f MEM_STAT_KEYS ≠ 1 ∨ s.on MEM_STAT_INIT_BUSY = true)) ∧
    (∃ (s : State) (k : Nat), s.Calm ∧ k < 4 ∧ s.f MEM_STAT_KEYS = 2 ∧ s.stackSt k = 2 ∧ mget s.clk.gate .opened (32 + k) ≠ .closed ∧ s.f
      (MEM_REKEY_PTR_PTR k) + 1 < stackLines ∧ s.sweepOk k = true ∧ ((s.sweepPace k).tagRead (lineAddr k (s.f (MEM_REKEY_PTR_PTR
      k)))).tagOf (lineAddr k (s.f (MEM_REKEY_PTR_PTR k))) = tagUnwritten) :=
  ⟨⟨State.reset, ⟨8, 9⟩, by decide +kernel⟩,
    ⟨{ memOn [(MEM_STAT, 2 ^ 31), (MEM_REKEY_PTR 3, 377487358)] with hbm := { Hbm.init with keys := some ⟨5, 7⟩, old := some ⟨8, 9⟩ } }, 3, by decide +kernel⟩⟩

theorem wit_CoreAlu_1 :
    (∃ (s : State) (c : Nat) (w : Word) (a b : Nat), s.Issues c w 32 ∧ s.Flows c ∧ (s.coreOf c).aluOperands w = (a, b)) ∧
    (∃ (s : State) (c : Nat) (w : Word) (a b : Nat), s.Issues c w 33 ∧ s.Flows c ∧ (s.coreOf c).aluOperands w = (a, b)) ∧
    (∃ (s : State) (c : Nat) (w : Word) (a b : Nat), s.Issues c w 34 ∧ s.Flows c ∧ (s.coreOf c).aluOperands w = (a, b)) :=
  ⟨⟨coreAt 16 0x40310002 (((Core.init.setD 1 32767).setD 2 1).setCtl 0 2) [], 16, 0x40310002#32, 32767, 1, by decide +kernel⟩,
    ⟨coreAt 16 0x41310002 (((Core.init.setD 1 32767).setD 2 1).setCtl 0 2) [], 16, 0x41310002#32, 32767, 1, by decide +kernel⟩,
    ⟨coreAt 16 0x42310002 (((Core.init.setD 1 32767).setD 2 1).setCtl 0 2) [], 16, 0x42310002#32, 32767, 1, by decide +kernel⟩⟩

theorem wit_CoreAlu_2 :
    (∃ (s : State) (c : Nat) (w : Word) (a b : Nat), s.Issues c w 35 ∧ s.Flows c ∧ (s.coreOf c).aluOperands w = (a, b)) ∧
    (∃ (s : State) (c : Nat) (w : Word) (a b : Nat), s.Issues c w 36 ∧ s.Flows c ∧ (s.coreOf c).aluOperands w = (a, b)) ∧
    (∃ (s : State) (c : Nat) (w : Word) (a b : Nat), s.Issues c w 37 ∧ s.Flows c ∧ (s.coreOf c).aluOperands w = (a, b)) :=
  ⟨⟨coreAt 16 0x43310002 (((Core.init.setD 1 32767).setD 2 1).setCtl 0 2) [], 16, 0x43310002#32, 32767, 1, by decide +kernel⟩,
    ⟨coreAt 16 0x44310002 (((Core.init.setD 1 32767).setD 2 1).setCtl 0 2) [], 16, 0x44310002#32, 32767, 1, by decide +kernel⟩,
    ⟨coreAt 16 0x45310002 (((Core.init.setD 1 32767).setD 2 1).setCtl 0 2) [], 16, 0x45310002#32, 32767, 1, by decide +kernel⟩⟩

theorem wit_CoreAlu_3 :
    (∃ (s : State) (c : Nat) (w : Word) (a b : Nat), s.Issues c w 38 ∧ s.Flows c ∧ (s.coreOf c).aluOperands w = (a, b)) ∧
    (∃ (s : State) (c : Nat) (w : Word) (a b : Nat), s.Issues c w 39 ∧ s.Flows c ∧ (s.coreOf c).aluOperands w = (a, b) ∧ b % 16 ≠ 0) ∧
    (∃ (s : State) (c : Nat) (w : Word) (a b : Nat), s.Issues c w 40 ∧ s.Flows c ∧ (s.coreOf c).aluOperands w = (a, b) ∧ b % 16 ≠ 0) :=
  ⟨⟨coreAt 16 0x46310002 (((Core.init.setD 1 32767).setD 2 1).setCtl 0 2) [], 16, 0x46310002#32, 32767, 1, by decide +kernel⟩,
    ⟨coreAt 16 0x47310002 (((Core.init.setD 1 32767).setD 2 1).setCtl 0 2) [], 16, 0x47310002#32, 32767, 1, by decide +kernel⟩,
    ⟨coreAt 16 0x48310002 (((Core.init.setD 1 32767).setD 2 1).setCtl 0 2) [], 16, 0x48310002#32, 32767, 1, by decide +kernel⟩⟩

theorem wit_CoreAlu_4 :
    (∃ (s : State) (c : Nat) (w : Word) (a b : Nat), s.Issues c w 41 ∧ s.Flows c ∧ (s.coreOf c).aluOperands w = (a, b) ∧ b % 16 ≠ 0) ∧
    (∃ (s : State) (c : Nat) (w : Word) (a b : Nat), s.Issues c w 39 ∧ s.Flows c ∧ (s.coreOf c).aluOperands w = (a, b) ∧ b % 16 = 0) ∧
    (∃ (s : State) (c : Nat) (w : Word) (a b : Nat), s.Issues c w 40 ∧ s.Flows c ∧ (s.coreOf c).aluOperands w = (a, b) ∧ b % 16 = 0) :=
  ⟨⟨coreAt 16 0x49310002 (((Core.init.setD 1 32767).setD 2 1).setCtl 0 2) [], 16, 0x49310002#32, 32767, 1, by decide +kernel⟩,
    ⟨coreAt 16 0x47310002 (((Core.init.setD 1 32768).setD 2 16).setCtl 0 0) [], 16, 0x47310002#32, 0x8000, 16, by decide +kernel⟩,
    ⟨coreAt 16 0x48310002 (((Core.init.setD 1 32768).setD 2 16).setCtl 0 0) [], 16, 0x48310002#32, 0x8000, 16, by decide +kernel⟩⟩

theorem wit_CoreAlu_5 :
    (∃ (s : State) (c : Nat) (w : Word) (a b : Nat), s.Issues c w 41 ∧ s.Flows c ∧ (s.coreOf c).aluOperands w = (a, b) ∧ b % 16 = 0) ∧
    (∃ (s : State) (c : Nat) (w : Word) (a b : Nat), s.Issues c w 42 ∧ s.Flows c ∧ (s.coreOf c).aluOperands w = (a, b)) ∧
    (∃ (s : State) (c : Nat) (w : Word) (a b : Nat), s.Issues c w 43 ∧ s.Flows c ∧ (s.coreOf c).aluOperands w = (a, b)) :=
  ⟨⟨coreAt 16 0x49310002 (((Core.init.setD 1 32768).setD 2 16).setCtl 0 0) [], 16, 0x49310002#32, 0x8000, 16, by decide +kernel⟩,
    ⟨coreAt 16 0x4a010002 (((Core.init.setD 1 32767).setD 2 1).setCtl 0 2) [], 16, 0x4a010002#32, 32767, 1, by decide +kernel⟩,
    ⟨coreAt 16 0x4b010002 (((Core.init.setD 1 32767).setD 2 1).setCtl 0 2) [], 16, 0x4b010002#32, 32767, 1, by decide +kernel⟩⟩

theorem wit_CoreAlu_6 :
    (∃ (s : State) (c : Nat) (w : Word) (a b : Nat), s.Issues c w 44 ∧ s.Flows c ∧ (s.coreOf c).aluOperands w = (a, b)) ∧
    (∃ (s : State) (c : Nat) (w : Word) (a b : Nat), s.Issues c w 45 ∧ s.Flows c ∧ (s.coreOf c).aluOperands w = (a, b)) :=
  ⟨⟨coreAt 16 0x4c310002 (((Core.init.setD 1 32767).setD 2 1).setCtl 0 2) [], 16, 0x4c310002#32, 32767, 1, by decide +kernel⟩,
    ⟨coreAt 16 0x4d310002 (((Core.init.setD 1 32767).setD 2 1).setCtl 0 2) [], 16, 0x4d310002#32, 32767, 1, by decide +kernel⟩⟩

theorem wit_CoreAccumulators_1 :
    (∃ (s : State) (c : Nat) (w : Word) (i a b : Nat), s.Issues c w 1 ∧ s.Flows c ∧ i = fget w 25 25 ∧ a = (s.coreOf c).dReg (fget w 24
      21) ∧ b = (s.coreOf c).dReg (fget w 20 17) ∧ fget w 16 9 = 0 ∧ fget w 8 1 = 0) ∧
    (∃ (s : State) (c : Nat) (w : Word) (i a b : Nat), s.Issues c w 2 ∧ s.Flows c ∧ i = fget w 25 25 ∧ a = (s.coreOf c).dReg (fget w 24
      21) ∧ b = (s.coreOf c).dReg (fget w 20 17) ∧ fget w 16 9 = 0 ∧ fget w 8 1 = 0 ∧ ((s.coreOf c).acc i).r.toNat = res3 ((s.coreOf
      c).acc i).v.toNat) ∧
    (∃ (s : State) (c : Nat) (w : Word) (i a b : Nat), s.Issues c w 3 ∧ s.Flows c ∧ i = fget w 25 25 ∧ a = (s.coreOf c).dReg (fget w 24
      21) ∧ b = (s.coreOf c).dReg (fget w 20 17) ∧ fget w 16 9 = 0 ∧ fget w 8 1 = 0 ∧ ((s.coreOf c).acc i).r.toNat = res3 ((s.coreOf
      c).acc i).v.toNat) :=
  ⟨⟨coreAt 16 0x6240000 (((({ Core.init with a1 := ⟨549755813887, BitVec.ofNat 2 (res3 549755813887), true⟩ } : Core).setD 1 32768).setD 2 32768)) [], 16, 0x6240000#32, 1, 32768, 32768, by decide +kernel⟩,
    ⟨coreAt 16 0xa240000 (((({ Core.init with a1 := ⟨549755813887, BitVec.ofNat 2 (res3 549755813887), true⟩ } : Core).setD 1 32768).setD 2 32768)) [], 16, 0xa240000#32, 1, 32768, 32768, by decide +kernel⟩,
    ⟨coreAt 16 0xe240000 (((({ Core.init with a1 := ⟨549755813887, BitVec.ofNat 2 (res3 549755813887), true⟩ } : Core).setD 1 32768).setD 2 32768)) [], 16, 0xe240000#32, 1, 32768, 32768, by decide +kernel⟩⟩

theorem wit_CoreAccumulators_2 :
    (∃ (s : State) (c : Nat) (w : Word) (i a b : Nat), s.Issues c w 4 ∧ s.Flows c ∧ i = fget w 25 25 ∧ a = (s.coreOf c).dReg (fget w 24
      21) ∧ b = (s.coreOf c).dReg (fget w 20 17) ∧ fget w 16 9 = 0 ∧ fget w 8 1 = 0) ∧
    (∃ (s : State) (c : Nat) (w : Word) (i a b : Nat), s.Issues c w 5 ∧ s.Flows c ∧ i = fget w 25 25 ∧ a = (s.coreOf c).dReg (fget w 24
      21) ∧ b = (s.coreOf c).dReg (fget w 20 17) ∧ fget w 16 9 = 0 ∧ fget w 8 1 = 0 ∧ ((s.coreOf c).acc i).r.toNat = res3 ((s.coreOf
      c).acc i).v.toNat) ∧
    (∃ (s : State) (c : Nat) (w : Word) (i a b : Nat), s.Issues c w 6 ∧ s.Flows c ∧ i = fget w 25 25 ∧ a = (s.coreOf c).dReg (fget w 24
      21) ∧ b = (s.coreOf c).dReg (fget w 20 17) ∧ fget w 16 9 = 0 ∧ fget w 8 1 = 0 ∧ ((s.coreOf c).acc i).r.toNat = res3 ((s.coreOf
      c).acc i).v.toNat) :=
  ⟨⟨coreAt 16 0x12240000 (((({ Core.init with a1 := ⟨549755813887, BitVec.ofNat 2 (res3 549755813887), true⟩ } : Core).setD 1 32768).setD 2 32768)) [], 16, 0x12240000#32, 1, 32768, 32768, by decide +kernel⟩,
    ⟨coreAt 16 0x16240000 (((({ Core.init with a1 := ⟨549755813887, BitVec.ofNat 2 (res3 549755813887), true⟩ } : Core).setD 1 32768).setD 2 32768)) [], 16, 0x16240000#32, 1, 32768, 32768, by decide +kernel⟩,
    ⟨coreAt 16 0x1a240000 (((({ Core.init with a1 := ⟨549755813887, BitVec.ofNat 2 (res3 549755813887), true⟩ } : Core).setD 1 32768).setD 2 32768)) [], 16, 0x1a240000#32, 1, 32768, 32768, by decide +kernel⟩⟩

theorem wit_CoreAccumulators_3 :
    (∃ (s : State) (c : Nat) (w : Word) (i a b : Nat), s.Issues c w 7 ∧ s.Flows c ∧ i = fget w 25 25 ∧ a = (s.coreOf c).dReg (fget w 24
      21) ∧ b = (s.coreOf c).dReg (fget w 20 17) ∧ fget w 16 9 = 0 ∧ fget w 8 1 = 0) ∧
    (∃ (s : State) (c : Nat) (w : Word) (k : Int), s.Issues c w 48 ∧ s.Flows c ∧ k = sext 16 ((s.coreOf c).aluOperands w).2 ∧ -40 ≤ k ∧ k
      ≤ 40) ∧
    (∃ (s : State) (c : Nat) (w : Word), s.Issues c w 49 ∧ s.Flows c) :=
  ⟨⟨coreAt 16 0x1e240000 (((({ Core.init with a1 := ⟨549755813887, BitVec.ofNat 2 (res3 549755813887), true⟩ } : Core).setD 1 32768).setD 2 32768)) [], 16, 0x1e240000#32, 1, 32768, 32768, by decide +kernel⟩,
    ⟨coreAt 16 0x50100002 (({ Core.init with a0 := accOf 0 true, a1 := accOf 549755813889 false } : Core).setD 2 5) [], 16, 0x50100002#32, 5, by decide +kernel⟩,
    ⟨coreAt 16 0x51100002 (({ Core.init with a0 := accOf 0 true, a1 := accOf 6442450944 false } : Core).setD 2 0) [], 16, 0x51100002#32, by decide +kernel⟩⟩

theorem wit_CoreAccumulators_4 :
    (∃ (s : State) (c : Nat) (w : Word), s.Issues c w 50 ∧ s.Flows c) ∧
    (∃ (s : State) (c : Nat) (w : Word), s.Issues c w 51 ∧ s.Flows c) ∧
    (∃ (s : State) (c : Nat) (w : Word), s.Issues c w 46 ∧ s.Flows c) :=
  ⟨⟨coreAt 16 0x52100002 (({ Core.init with a0 := accOf 0 true, a1 := accOf 549755781120 false } : Core).setD 2 0) [], 16, 0x52100002#32, by decide +kernel⟩,
    ⟨coreAt 16 0x53100002 (({ Core.init with a0 := accOf 1099511627775 true, a1 := accOf 7 false } : Core).setD 2 0) [], 16, 0x53100002#32, by decide +kernel⟩,
    ⟨coreAt 16 0x6e708000 (Core.init.setP 7 5) [], 16, 0x6e708000#32, by decide +kernel⟩⟩

theorem wit_CoreMemory_1 :
    (∃ (s : State) (c : Nat) (w : Word) (a m i v : Nat), s.Issues c w 64 ∧ s.Flows c ∧ (List.range 2).all (fun i => !s.on
      (DBG_CORE_WP_CFG_EN c i)) = true ∧ (s.coreOf c).lsAddr w = (a, none) ∧ a % lsBytes w = 0 ∧ (s.coreOf c).xyAt a = some (m, i) ∧
      decode32 ((s.coreOf c).memRaw m i) = .clean v) ∧
    (∃ (s : State) (c : Nat) (w : Word) (a m i v : Nat) (step : Int), s.Issues c w 64 ∧ s.Flows c ∧ (List.range 2).all (fun i => !s.on
      (DBG_CORE_WP_CFG_EN c i)) = true ∧ (s.coreOf c).lsAddr w = (a, some step) ∧ (s.coreOf c).ctlReg (20 + fget w 24 22) / 2 ^ 30 = 0 ∧
      lsBytes w = 4 ∧ a % 4 = 0 ∧ (s.coreOf c).xyAt a = some (m, i) ∧ decode32 ((s.coreOf c).memRaw m i) = .clean v) ∧
    (∃ (s : State) (c g : Nat) (w : Word) (a ia : Nat) (w0 : Bool), s.Issues c w 64 ∧ s.Flows c ∧ (List.range 2).all (fun i => !s.on
      (DBG_CORE_WP_CFG_EN c i)) = true ∧ ((s.coreOf c).lsAddr w).1 = a ∧ a % lsBytes w = 0 ∧ (s.coreOf c).region a = .win w0 ia ∧ (w0 =
      false ∨ lsBytes w = 4) ∧ (List.range (tagCount (c + 1))).find? (fun k => s.tagAt (64 * (c + 1) + k) == .idle) = some g) :=
  ⟨⟨coreAt 16 0x81c30000 ((({ Core.init with xm := [(8191, BitVec.ofNat 39 (encode32 0xFFFE8001 false))] } : Core).setP 7 0x17FFC)) [], 16, 0x81c30000#32, 0x17FFC, 1, 8191, 0xFFFE8001, by decide +kernel⟩,
    ⟨coreAt 16 0x83f2fffc ((({ Core.init with xm := [(8191, BitVec.ofNat 39 (encode32 0xFFFE8001 false))] } : Core).setP 7 0x17FFC)) [], 16, 0x83f2fffc#32, 0x17FFC, 1, 8191, 0xFFFE8001, -4, by decide +kernel⟩,
    ⟨coreAt 16 0x81c30000 ((Core.init.setP 7 0xFFFFFFFE).setCtl 31 131071) [], 16, 0, 0x81c30000#32, 0xFFFFFFFE, 131071 * 2 ^ 31 + 0x7FFFFFFE, false, by decide +kernel⟩⟩

theorem wit_CoreMemory_2 :
    (∃ (s : State) (c : Nat) (w : Word) (a m i : Nat), s.Issues c w 65 ∧ s.Flows c ∧ (List.range 2).all (fun i => !s.on
      (DBG_CORE_WP_CFG_EN c i)) = true ∧ (s.coreOf c).lsAddr w = (a, none) ∧ (fget w 26 25 = 1 ∨ fget w 26 25 = 2) ∧ a % 4 = 0 ∧ (s.coreOf
      c).xyAt a = some (m, i)) ∧
    (∃ (s : State) (c : Nat) (w : Word) (a m i v : Nat), s.Issues c w 65 ∧ s.Flows c ∧ (List.range 2).all (fun i => !s.on
      (DBG_CORE_WP_CFG_EN c i)) = true ∧ (s.coreOf c).lsAddr w = (a, none) ∧ fget w 26 25 = 0 ∧ a % 2 = 0 ∧ (s.coreOf c).xyAt a = some (m,
      i) ∧ decode32 ((s.coreOf c).memRaw m i) = .clean v) ∧
    (∃ (s : State) (c g : Nat) (w : Word) (ia m i : Nat), s.Issues c w 66 ∧ s.Flows c ∧ (List.range 2).all (fun i => !s.on
      (DBG_CORE_WP_CFG_EN c i)) = true ∧ (s.coreOf c).lineAddrs w = .inr (ia, m, i) ∧ (List.range (tagCount (c + 1))).find? (fun k =>
      s.tagAt (64 * (c + 1) + k) == .idle) = some g) :=
  ⟨⟨coreAt 16 0x8bc20000 ((({ Core.init with xm := [(8191, BitVec.ofNat 39 (encode32 0xFFFE8001 false))] } : Core).setP 7 0x17FFC).setPairD 2 0x12345678) [], 16, 0x8bc20000#32, 0x17FFC, 1, 8191, by decide +kernel⟩,
    ⟨coreAt 16 0x89c30000 ((({ Core.init with xm := [(8191, BitVec.ofNat 39 (encode32 0xFFFE8001 false))] } : Core).setP 7 0x17FFE).setD 3 0x1234) [], 16, 0x89c30000#32, 0x17FFE, 1, 8191, 0xFFFE8001, by decide +kernel⟩,
    ⟨coreAt 16 0x87c60000 ((Core.init.setP 7 0xFFFFFFC0).setP 6 0x17FC0) [], 16, 0, 0x87c60000#32, 0x7FFFFFC0, 1, 8176, by decide +kernel⟩⟩

theorem wit_CoreMemory_3 :
    (∃ (s : State) (c g : Nat) (w : Word) (ia m i d p : Nat), s.Issues c w 67 ∧ s.Flows c ∧ (List.range 2).all (fun i => !s.on
      (DBG_CORE_WP_CFG_EN c i)) = true ∧ (s.coreOf c).lineAddrs w = .inr (ia, m, i) ∧ ((s.coreOf c).lsAddr w).2 = none ∧ lineGather 16 c m
      i 0 0 s = (s, d, p) ∧ (List.range (tagCount (c + 1))).find? (fun k => s.tagAt (64 * (c + 1) + k) == .idle) = some g) ∧
    (∃ (s : State) (c : Nat) (w : Word) (m i v : Nat), s.Issues c w 68 ∧ s.Flows c ∧ (List.range 2).all (fun i => !s.on
      (DBG_CORE_WP_CFG_EN c i)) = true ∧ (s.coreOf c).pReg (fget w 26 24) % 4 = 0 ∧ (s.coreOf c).xyAt ((s.coreOf c).pReg (fget w 26 24)) =
      some (m, i) ∧ decode32 ((s.coreOf c).memRaw m i) = .clean v) ∧
    (∃ (s : State) (c : Nat) (w : Word) (m i : Nat), s.Issues c w 69 ∧ s.Flows c ∧ (List.range 2).all (fun i => !s.on (DBG_CORE_WP_CFG_EN
      c i)) = true ∧ (s.coreOf c).pReg (fget w 26 24) % 4 = 0 ∧ (s.coreOf c).xyAt ((s.coreOf c).pReg (fget w 26 24)) = some (m, i) ∧
      (s.coreOf c).resv = some (.word (m == 2) i)) :=
  ⟨⟨coreAt 16 0x8fc60000 ((({ Core.init with xm := [(8191, BitVec.ofNat 39 (encode32 0xFFFE8001 false))] } : Core).setP 7 0xFFFFFFC0).setP 6 0x17FC0) [], 16, 0, 0x8fc60000#32, 0x7FFFFFC0, 1, 8176, 0xFFFE8001 * 2 ^ 480, 0, by decide +kernel⟩,
    ⟨coreAt 16 0x97200000 ((({ Core.init with xm := [(8191, BitVec.ofNat 39 (encode32 0xFFFE8001 false))] } : Core).setP 7 0x17FFC)) [], 16, 0x97200000#32, 1, 8191, 0xFFFE8001, by decide +kernel⟩,
    ⟨coreAt 16 0x9f250000 (({ Core.init with xm := [(8191, BitVec.ofNat 39 (encode32 0xFFFE8001 false))], resv := some (.word false 8191) } : Core).setP 7 0x17FFC) [], 16, 0x9f250000#32, 1, 8191, by decide +kernel⟩⟩

theorem wit_CoreMemory_4 :
    (∃ (s : State) (c : Nat) (w : Word) (m i : Nat), s.Issues c w 69 ∧ s.Flows c ∧ (List.range 2).all (fun i => !s.on (DBG_CORE_WP_CFG_EN
      c i)) = true ∧ (s.coreOf c).pReg (fget w 26 24) % 4 = 0 ∧ (s.coreOf c).xyAt ((s.coreOf c).pReg (fget w 26 24)) = some (m, i) ∧
      (s.coreOf c).resv ≠ some (.word (m == 2) i)) ∧
    (∃ (s : State) (c : Nat) (w : Word) (sx sy : Slot2) (px py i j v u : Nat), s.Issues c w 0 ∧ s.Flows c ∧ (List.range 2).all (fun i =>
      !s.on (DBG_CORE_WP_CFG_EN c i)) = true ∧ sx = slotOf w 9 ∧ sy = slotOf w 1 ∧ sx.en = true ∧ sx.st = false ∧ sy.en = true ∧ sy.st =
      true ∧ sx.p ≠ sy.p ∧ px = (s.coreOf c).pReg sx.p ∧ py = (s.coreOf c).pReg sy.p ∧ px % 2 = 0 ∧ py % 2 = 0 ∧ (s.coreOf c).xyAt px =
      some (1, i) ∧ (s.coreOf c).xyAt py = some (2, j) ∧ decode32 ((s.coreOf c).memRaw 1 i) = .clean v ∧ decode32 ((s.coreOf c).memRaw 2
      j) = .clean u ∧ (s.coreOf c).ctlReg (20 + sx.p) / 2 ^ 30 = 0 ∧ (s.coreOf c).ctlReg (20 + sy.p) / 2 ^ 30 = 0) :=
  ⟨⟨coreAt 16 0x9f250000 (({ Core.init with xm := [(8191, BitVec.ofNat 39 (encode32 0xFFFE8001 false))], resv := some (.word true 8191) } : Core).setP 7 0x17FFC) [], 16, 0x9f250000#32, 1, 8191, by decide +kernel⟩,
    ⟨coreAt 16 0x177e6 ((((({ Core.init with xm := [(8191, BitVec.ofNat 39 (encode32 0xFFFE8001 false))] } : Core).setP 7 0x17FFE).setP 6 0x27FFE).setD 3 0x1234).setN 7 0xFFFE) [], 16, 0x177e6#32, ⟨true, false, 7, 3⟩, ⟨true, true, 6, 3⟩, 0x17FFE, 0x27FFE, 8191, 8191, 0xFFFE8001, 0, by decide +kernel⟩⟩

theorem wit_CoreControlFlow_1 :
    (∃ (s : State) (c : Nat) (w : Word), s.Issues c w 80 ∧ s.Flows c) ∧
    (∃ (s : State) (c : Nat) (w : Word), s.Issues c w 81 ∧ s.Flows c ∧ condHolds (fget w 23 20) (s.coreOf c).sr = true) ∧
    (∃ (s : State) (c : Nat) (w : Word), s.Issues c w 81 ∧ s.Flows c ∧ condHolds (fget w 23 20) (s.coreOf c).sr = false) :=
  ⟨⟨coreAt 16 0xa000ffff (Core.init) [], 16, 0xa000ffff#32, by decide +kernel⟩,
    ⟨coreAt 16 0xa1108000 (Core.init) [], 16, 0xa1108000#32, by decide +kernel⟩,
    ⟨coreAt 16 0xa1008000 (Core.init) [], 16, 0xa1008000#32, by decide +kernel⟩⟩

theorem wit_CoreControlFlow_2 :
    (∃ (s : State) (c : Nat) (w : Word), s.Issues c w 82 ∧ s.Flows c ∧ (s.coreOf c).calls.length < 16) ∧
    (∃ (s : State) (c : Nat) (w : Word), s.Issues c w 83 ∧ s.Flows c ∧ ((s.coreOf c).pReg (fget w 18 16)) % 4 = 0 ∧ ((s.coreOf c).pReg
      (fget w 18 16)) < 2 ^ 16) ∧
    (∃ (s : State) (c : Nat) (w : Word), s.Issues c w 84 ∧ s.Flows c ∧ ((s.coreOf c).pReg (fget w 18 16)) % 4 = 0 ∧ ((s.coreOf c).pReg
      (fget w 18 16)) < 2 ^ 16 ∧ (s.coreOf c).calls.length < 16) :=
  ⟨⟨coreAt 16 0xa2000009 (Core.init) [], 16, 0xa2000009#32, by decide +kernel⟩,
    ⟨coreAt 16 0xa3070000 (Core.init.setP 7 0xFFFC) [], 16, 0xa3070000#32, by decide +kernel⟩,
    ⟨coreAt 16 0xa4070000 (Core.init.setP 7 0xFFFC) [], 16, 0xa4070000#32, by decide +kernel⟩⟩

theorem wit_CoreControlFlow_3 :
    (∃ (s : State) (c : Nat) (w : Word) (p : Nat) (rest : List Nat), s.Issues c w 85 ∧ s.Flows c ∧ (s.coreOf c).calls = p :: rest) ∧
    (∃ (s : State) (c : Nat) (w : Word), s.Issues c w 86 ∧ s.Flows c ∧ (s.coreOf c).sr.testBit 7 = true) ∧
    (∃ (s : State) (c : Nat) (w : Word) (p : Nat) (r : Word) (rest : List (Nat × Word)), s.Issues c w 86 ∧ s.Flows c ∧ (s.coreOf
      c).sr.testBit 7 = false ∧ (s.coreOf c).ints = (p, r) :: rest) :=
  ⟨⟨coreAt 16 0xa5000000 ({ Core.init with calls := [65540, 8] }) [], 16, 0xa5000000#32, 65540, [8], by decide +kernel⟩,
    ⟨coreAt 16 0xa6000000 (((Core.init.setCtl 0 128).setCtl 1 0x1000F).setCtl 2 0x77F) [], 16, 0xa6000000#32, by decide +kernel⟩,
    ⟨coreAt 16 0xa6000000 ({ Core.init with ints := [(65540, 0x77F)] }) [], 16, 0xa6000000#32, 65540, 0x77F#32, [], by decide +kernel⟩⟩

theorem wit_CoreControlFlow_4 :
    (∃ (s : State) (c : Nat) (w : Word), s.Issues c w 87 ∧ s.Flows c) ∧
    (∃ (s : State) (c : Nat) (w : Word), s.Issues c w 88 ∧ s.Flows c ∧ (s.coreOf c).dReg (fget w 19 16) ≠ 0) ∧
    (∃ (s : State) (c : Nat) (w : Word), s.Issues c w 88 ∧ s.Flows c ∧ (s.coreOf c).dReg (fget w 19 16) = 0) :=
  ⟨⟨coreAt 16 0xa7ffffff (Core.init) [], 16, 0xa7ffffff#32, by decide +kernel⟩,
    ⟨coreAt 16 0xa80f03ff (Core.init.setD 15 65535) [], 16, 0xa80f03ff#32, by decide +kernel⟩,
    ⟨coreAt 16 0xa80f03ff (Core.init) [], 16, 0xa80f03ff#32, by decide +kernel⟩⟩

theorem wit_CoreControlFlow_5 :
    (∃ (s : State) (c : Nat) (w : Word), s.Issues c w 89 ∧ (s.coreOf c).stepping = false ∧ (s.coreOf c).skipBp = false ∧ (s.coreOf
      c).lastOf (s.pcOf c) = false ∧ ((s.coreOf c).setCtl 5 ((s.coreOf c).ctlReg 5 - 1)).lastOf (s.pcOf c) = false) ∧
    (∃ (s : State) (c : Nat) (w : Word), s.Issues c w 90 ∧ s.Flows c ∧ (s.coreOf c).ctlReg 6 ≠ 0) ∧
    (∃ (s : State) (c : Nat) (w : Word), s.Issues c w 90 ∧ s.Flows c ∧ (s.coreOf c).ctlReg 6 = 0) :=
  ⟨⟨coreAt 16 0xa9000000 (((((Core.init.setCtl 5 2).setCtl 9 9).setCtl 13 4).setCtl 17 40).setCtl 16 80) [], 16, 0xa9000000#32, by decide +kernel⟩,
    ⟨coreAt 16 0xaa00fff0 (((Core.init.setCtl 6 1).setCtl 7 3).setV 0 5) [], 16, 0xaa00fff0#32, by decide +kernel⟩,
    ⟨coreAt 16 0xaa00fff0 (Core.init.setV 0 5) [], 16, 0xaa00fff0#32, by decide +kernel⟩⟩

theorem wit_CoreControlFlow_6 :
    (∃ (s : State) (c : Nat) (w : Word), s.Issues c w 91 ∧ s.Flows c) ∧
    (∃ (s : State) (c : Nat) (w : Word), s.Issues c w 93 ∧ s.Flows c) ∧
    (∃ (s : State) (c n : Nat) (w : Word), s.Issues c w 93 ∧ (s.coreOf c).stepping = false ∧ (s.coreOf c).skipBp = false ∧ (s.coreOf
      c).ctlReg 5 = n + 1 ∧ n < 4 ∧ (s.coreOf c).ctlReg (16 + n) % 2 ^ 16 = s.pcOf c % 2 ^ 16 ∧ 1 < (s.coreOf c).ctlReg (8 + n)) :=
  ⟨⟨coreAt 16 0xab000000 (Core.init) [], 16, 0xab000000#32, by decide +kernel⟩,
    ⟨coreAt 16 0xad000000 (Core.init) [], 16, 0xad000000#32, by decide +kernel⟩,
    ⟨coreAt 16 0xad000000 ((((Core.init.setCtl 5 4).setCtl 11 2).setCtl 15 65520).setCtl 19 0) [], 16, 3, 0xad000000#32, by decide +kernel⟩⟩

theorem wit_CoreControlFlow_7 :
    (∃ (s : State) (c : Nat) (w : Word), s.Issues c w 93 ∧ (s.coreOf c).stepping = false ∧ (s.coreOf c).skipBp = false ∧ (s.coreOf
      c).ctlReg 5 = 1 ∧ (s.coreOf c).ctlReg 16 % 2 ^ 16 = s.pcOf c % 2 ^ 16 ∧ (s.coreOf c).ctlReg 8 ≤ 1) :=
  ⟨coreAt 16 0xad000000 ((((Core.init.setCtl 5 1).setCtl 8 1).setCtl 12 65520).setCtl 16 0) [], 16, 0xad000000#32, by decide +kernel⟩

theorem wit_CoreMovesAndExceptions_1 :
    (∃ (s : State) (c : Nat) (w : Word), s.Issues c w 96 ∧ s.Flows c ∧ (fget w 27 25 ≠ 5 ∨ fget w 24 20 ≠ 5) ∧ (fget w 19 17 ≠ 3 ∨
      ((s.coreOf c).acc (fget w 16 12 / 3)).p = false)) ∧
    (∃ (s : State) (c : Nat) (w : Word), s.Issues c w 97 ∧ s.Flows c ∧ (fget w 27 25 ≠ 5 ∨ fget w 24 20 ≠ 5)) ∧
    (∃ (s : State) (c : Nat) (w : Word), s.Issues c w 98 ∧ s.Flows c ∧ (fget w 27 25 ≠ 5 ∨ fget w 24 20 ≠ 5)) :=
  ⟨⟨coreAt 16 0xb9fbc000 (Core.init) [], 16, 0xb9fbc000#32, by decide +kernel⟩,
    ⟨coreAt 16 0xc6408001 ({ Core.init with a1 := accOf 5 true }) [], 16, 0xc6408001#32, by decide +kernel⟩,
    ⟨coreAt 16 0xd2708001 (Core.init.setP 7 0xFFFFFFFF) [], 16, 0xd2708001#32, by decide +kernel⟩⟩

theorem wit_CoreMovesAndExceptions_2 :
    (∃ (s : State) (c : Nat) (w : Word), s.Issues c w 92 ∧ (s.coreOf c).stepping = false ∧ (s.coreOf c).sr.testBit 7 = false ∧ (s.coreOf
      c).ctlReg 5 = 0 ∧ (fget w 7 0 ≠ 0xFF ∨ s.attached = false)) ∧
    (∃ (s : State) (c : Nat) (w : Word), s.Issues c w 83 ∧ (s.coreOf c).stepping = false ∧ (s.coreOf c).sr.testBit 7 = false ∧ (s.coreOf
      c).ctlReg 5 = 0 ∧ ((s.coreOf c).pReg (fget w 18 16)) % 4 ≠ 0) :=
  ⟨⟨coreAt 16 0xac0000fe ((Core.init.setCtl 0 0x1F).setCtl 28 0x1FC00) [], 16, 0xac0000fe#32, by decide +kernel⟩,
    ⟨coreAt 16 0xa3070000 ((Core.init.setP 7 0xFFFFFFFE).setCtl 0 0x1F) [], 16, 0xa3070000#32, by decide +kernel⟩⟩

theorem wit_CoreEventsAndTimers_1 :
    (∃ (s : State) (c j : Nat), s.bestIrq c = some j ∧ s.mayInterrupt c = true) ∧
    (∃ (s : State) (c : Nat) (st : Stall) (a : Acc) (r : Rsp), s.Flows c ∧ (s.coreOf c).stall = some st ∧ st.fed = false ∧ s.coreClock c =
      true ∧ insnKind st.insn = some 64 ∧ ((s.coreOf c).lsAddr st.insn).2 = none ∧ mget s.mesh.inbox [] (coreSrc c) = [(a, r)] ∧ a.ref = 0
      ∧ r.status = 0 ∧ r.poison &&& wordMask a.addr a.size = 0) ∧
    (∃ (s : State) (c : Nat) (a : Acc) (r : Rsp), mget s.mesh.inbox [] (coreSrc c) = [(a, r)] ∧ a.ref = 1 ∧ s.on (ST_BUS_LOG_VALID c) =
      false) :=
  ⟨⟨{ regsAre [(ST_STAT 16, 2 ^ 30 + 2 ^ 16 + 4), (ST_IRQ_CFG 16 63, 3 * 2 ^ 30), (ST_IRQ_PEND_HI 16, 2 ^ 31)] with core := [(16, Core.init.setCtl 0 0x1F)] }, 16, 63, by decide +kernel⟩,
    ⟨{ { regsAre [(ST_STAT 16, 2 ^ 29)] with core := [(16, { Core.init with stall := some ⟨0x83c20000#32, 0x40300210, false⟩ })] } with mesh := { Mesh.init with inbox := [(17, [(⟨17, 63, false, 0x020000300210, 4, 0, 0, 0, 0⟩, ⟨0, 0, 0x12345678 * 2 ^ 128, 0⟩)])] } }, 16, ⟨0x83c20000#32, 0x40300210, false⟩, ⟨17, 63, false, 0x020000300210, 4, 0, 0, 0, 0⟩, ⟨0, 0, 0x12345678 * 2 ^ 128, 0⟩, by decide +kernel⟩,
    ⟨{ State.reset with mesh := { Mesh.init with inbox := [(17, [(⟨17, 63, true, 0x020000300210, 4, 15, 0, 0, 1⟩, ⟨4, 1, 0, 0⟩)])] } }, 16, ⟨17, 63, true, 0x020000300210, 4, 15, 0, 0, 1⟩, ⟨4, 1, 0, 0⟩, by decide +kernel⟩⟩

theorem wit_CoreEventsAndTimers_2 :
    (∃ (s : State) (c i : Nat) (w : Word), c < 17 ∧ (c = 16 ∨ s.blockGated c = false) ∧ i < 2 ∧ fget w 31 31 = 1 ∧ s.f (ST_TMR_CTRL_EN c
      i) = 0) ∧
    (∃ (s : State) (c i : Nat), c < 17 ∧ i < 2 ∧ s.coreTicks c = true ∧ s.on (ST_TMR_CTRL_EN c i) = true ∧ s.f (ST_TMR_CNT_CNT c i) = 1 ∧
      s.f (ST_TMR_CTRL_PRESCALE c i) ≤ mget (s.coreOf c).pre 0 i ∧ (∀ e ∈ (s.coreOf c).cntDue, e.1 ≠ i) ∧ i ∉ (s.coreOf c).early) ∧
    (∃ (s : State) (c : Nat) (w : Word), c < 17 ∧ (c = 16 ∨ s.blockGated c = false) ∧ fget w 31 31 = 1 ∧ s.f (ST_WDT_CTRL_EN c) = 0 ∧ s.on
      (ST_WDT_CTRL_LOCK c) = false) :=
  ⟨⟨{ regsAre [(ST_TMR_LOAD 16 1, 0xFFFFFFFF)] with core := [(16, { Core.init with pre := [(1, 5)] })] }, 16, 1, 0xC0FF0000#32, by decide +kernel⟩,
    ⟨regsAre [(ST_CTRL 16, 0), (ST_STAT 16, 2 ^ 29), (ST_TMR_CTRL 16 1, 2 ^ 31), (ST_TMR_CNT 16 1, 1)], 16, 1, by decide +kernel⟩,
    ⟨regsAre [(ST_WDT_LOAD 16, 9), (ST_WDT_OPEN 16, 9)], 16, 0xE0000000#32, by decide +kernel⟩⟩

theorem wit_CoreEventsAndTimers_3 :
    (∃ (s : State) (c : Nat) (v : Word), c < 17 ∧ (c = 16 ∨ s.blockGated c = false) ∧ v = 0xA5C3#32 ∧ (s.coreOf c).expired ≠ some
      s.fig.toNat ∧ s.on (ST_WDT_CTRL_EN c) = true ∧ s.on (ST_WDT_STAT_OPENED c) = true) ∧
    (∃ (s : State) (c : Nat), c < 17 ∧ s.coreTicks c = true ∧ s.on (ST_WDT_CTRL_EN c) = true ∧ 0 < s.f (ST_WDT_OPEN_OPEN c) ∧ s.f
      (ST_WDT_CNT_CNT c) = s.f (ST_WDT_OPEN_OPEN c) + 1 ∧ 2 ∉ (s.coreOf c).early) ∧
    (∃ (s : State) (c : Nat), c < 17 ∧ s.coreTicks c = true ∧ s.on (ST_WDT_CTRL_EN c) = true ∧ s.f (ST_WDT_CNT_CNT c) = 1 ∧ 2 ∉ (s.coreOf
      c).early) :=
  ⟨⟨regsAre [(ST_WDT_CTRL 16, 2 ^ 31), (ST_WDT_STAT 16, 2 ^ 30), (ST_WDT_LOAD 16, 9)], 16, 0xA5C3#32, by decide +kernel⟩,
    ⟨regsAre [(ST_CTRL 16, 0), (ST_STAT 16, 2 ^ 29), (ST_WDT_CTRL 16, 2 ^ 31), (ST_WDT_CNT 16, 6), (ST_WDT_OPEN 16, 5)], 16, by decide +kernel⟩,
    ⟨regsAre [(ST_CTRL 16, 0), (ST_STAT 16, 2 ^ 29), (ST_WDT_CTRL 16, 2 ^ 31 + 2 ^ 29), (ST_WDT_CNT 16, 1)], 16, by decide +kernel⟩⟩

theorem wit_CoreResetsAndSemaphores_1 :
    (∃ (s : State) (c : Nat), c < 17 ∧ (c = 16 ∨ s.blockGated c = false) ∧ s.on (ST_CTRL_RESET c) = false) ∧
    (∃ (s : State) (c : Nat), c < 17 ∧ (c = 16 ∨ s.blockGated c = false) ∧ s.on (ST_CTRL_RESET c) = true ∧ s.attached = false) ∧
    (∃ (s : State) (c : Nat), c < 17 ∧ (c = 16 ∨ s.blockGated c = false) ∧ s.attached = false) :=
  ⟨⟨{ regsAre [(ST_CTRL 16, 0), (ST_STAT 16, 2 ^ 29), (ST_RESET_CAUSE 16, 65535)] with core := [(16, (Core.init.setD 3 5).setRaw 1 9 7)] }, 16, by decide +kernel⟩,
    ⟨regsAre [(ST_CTRL 16, 2 ^ 31), (ST_STAT 16, 5)], 16, by decide +kernel⟩,
    ⟨{ regsAre [(ST_CTRL 16, 2 ^ 31 + 2 ^ 30), (ST_STAT 16, 2 ^ 29)] with core := [(16, (Core.init.setD 3 5).setRaw 1 9 7)] }, 16, by decide +kernel⟩⟩

theorem wit_CoreResetsAndSemaphores_2 :
    (∃ (s : State) (c : Nat), c < 17 ∧ (s.coreOf c).wdtDue = true ∧ s.coreTicks c = true ∧ s.attached = false) ∧
    (∃ (s : State) (c m i : Nat) (v : Word), c < 17 ∧ (c = 16 ∨ s.blockGated c = false) ∧ s.stMemAt c = some (m, i)) ∧
    (∃ (s : State) (c m i d : Nat) (v : Word), c < 17 ∧ (c = 16 ∨ s.blockGated c = false) ∧ s.stMemAt c = some (m, i) ∧ decode32
      ((s.coreOf c).memRaw m i) = .clean d) :=
  ⟨⟨{ regsAre [(ST_CTRL 16, 0), (ST_STAT 16, 2 ^ 29)] with core := [(16, { Core.init with wdtDue := true })] }, 16, by decide +kernel⟩,
    ⟨regsAre [(ST_MEM_ADDR 16, 2 ^ 31 + 0x9FFF)], 16, 2, 8191, 0x80000001#32, by decide +kernel⟩,
    ⟨regsAre [(ST_MEM_ADDR 16, 2 ^ 31 + 0x9FFF)], 16, 2, 8191, 0, 0#32, by decide +kernel⟩⟩

theorem wit_CoreResetsAndSemaphores_3 :
    (∃ (s : State) (c : Nat) (v : Word), c < 17 ∧ (c = 16 ∨ s.blockGated c = false)) ∧
    (∃ (s : State) (c : Nat) (v : Word), c < 17 ∧ (c = 16 ∨ s.blockGated c = false)) ∧
    (∃ (s : State) (c i : Nat) (v : Word) (b : Bool) (x : Instr), c < 16 ∧ s.blockGated c = true ∧ x ∈ [.coreHold c, .coreRelease c,
      .selfReset c, .stMemData c b v, .doorbell c v, .swirq c v, .timerEnable c i v, .watchdogEnable c v, .watchdogKick c v]) :=
  ⟨⟨State.reset, 16, 0xFFFFFFF9#32, by decide +kernel⟩,
    ⟨State.reset, 16, 0x8000FFFF#32, by decide +kernel⟩,
    ⟨regsAre [(CLK_GATE_EN0, 0)], 15, 1, 0xA5C3#32, true, .watchdogKick 15 0xA5C3#32, by decide +kernel⟩⟩

theorem wit_CoreResetsAndSemaphores_4 :
    (∃ (s : State) (src i : Nat), 1 ≤ src ∧ src ≤ 17 ∧ i < 256) ∧
    (∃ (s : State) (src i : Nat) (v : Word), 1 ≤ src ∧ src ≤ 17 ∧ i < 256 ∧ mget s.sem none (src - 1) = some i ∧ mwf s.sem (fun _ =>
      none)) ∧
    (∃ (s : State) (src i : Nat) (v : Word), (mget s.sem none (src - 1) ≠ some i ∨ src = 0 ∨ 17 < src)) :=
  ⟨⟨State.reset, 17, 255, by decide +kernel⟩,
    ⟨{ State.reset with sem := [(3, some 255), (5, some 1), (16, some 255)] }, 17, 255, 9#32, by decide +kernel⟩,
    ⟨State.reset, 17, 255, 9#32, by decide +kernel⟩⟩

theorem wit_CoreResetsAndSemaphores_5 :
    (∃ (s : State) (i : Nat) (v : Word), i < 256 ∧ mwf s.sem (fun _ => none)) :=
  ⟨{ State.reset with sem := [(3, some 255), (5, some 1), (16, some 255)] }, 255, 9#32, by decide +kernel⟩

theorem wit_ScanInstructions_1 :
    (∃ (s : State), s.Calm ∧ s.scanTakes = false) ∧
    (∃ (s : State), s.Calm ∧ s.scanTakes = false) ∧
    (∃ (s : State) (code : Nat), s.Calm ∧ s.scanTakes = false) :=
  ⟨⟨State.reset, by decide +kernel⟩,
    ⟨State.reset, by decide +kernel⟩,
    ⟨State.reset, 0x55, by decide +kernel⟩⟩

theorem wit_ScanInstructions_2 :
    (∃ (s : State), s.Calm ∧ s.scanTakes = false) ∧
    (∃ (s : State) (n : Nat), s.Calm ∧ s.scanTakes = false ∧ s.secState ≠ 2 ∧ s.sec.nonce = some n ∧ s.sec.authWord < 12 ∧ s.on
      SEC_AUTH_STAT_LOCKED_OUT = false) ∧
    (∃ (s : State), s.Calm ∧ s.scanTakes = false) :=
  ⟨⟨{ State.reset with scan := { Scan.init with ack := 2, rdata := 5, status := 17 } }, by decide +kernel⟩,
    ⟨{ State.reset with sec := { Security.init with nonce := some (7 + 2 ^ 255), authWord := 11 } }, 7 + 2 ^ 255, by decide +kernel⟩,
    ⟨{ State.reset with cfg := { Cfg.init with load := some ⟨1, 2, 3, 1, 0, 0, none, [], none, none⟩ } }, by decide +kernel⟩⟩

theorem wit_ScanInstructions_3 :
    (∃ (s : State) (v env : Nat), s.Calm ∧ s.scanTakes = false) ∧
    (∃ (s : State) (v env : Nat), s.Calm ∧ s.scanTakes = false) ∧
    (∃ (s : State) (v env : Nat), s.Calm ∧ s.scanTakes = false) :=
  ⟨⟨State.reset, 2 ^ 863 + 2 ^ 862, 5, by decide +kernel⟩,
    ⟨regsAre [(GLS_STAT 15, 23 * 2 ^ 27)], 2 ^ 863 + 2 ^ 862 + 5, 2 ^ 500, by decide +kernel⟩,
    ⟨regsAre [(GLS_STAT 15, 23 * 2 ^ 27)], 2 ^ 863 + 2 ^ 862 + 5, 2 ^ 500, by decide +kernel⟩⟩

theorem wit_ScanInstructions_4 :
    (∃ (s : State) (v env : Nat), s.Calm ∧ s.scanTakes = false) ∧
    (∃ (s : State), s.Calm ∧ s.scanTakes = false) ∧
    (∃ (s : State), s.Calm ∧ s.scanTakes = false) :=
  ⟨⟨regsAre [(GLS_STAT 15, 23 * 2 ^ 27)], 2 ^ 863 + 2 ^ 862 + 5, 2 ^ 500, by decide +kernel⟩,
    ⟨regsAre [(GLS_STAT 15, 23 * 2 ^ 27)], by decide +kernel⟩,
    ⟨regsAre [(GLS_STAT 15, 23 * 2 ^ 27)], by decide +kernel⟩⟩

theorem wit_ScanInstructions_5 :
    (∃ (s : State), s.Calm ∧ s.scanTakes = true) ∧
    (∃ (s : State) (w : Word), s.Calm ∧ s.scan.ir = 0x12 ∧ s.scanSource = true ∧ s.scanLoad = true ∧ s.scan.buf.length < 1024) ∧
    (∃ (s : State) (i : Nat) (v : Option Bool), s.Calm ∧ i < 160) :=
  ⟨⟨{ State.reset with scan := { Scan.init with ir := 3 } }, by decide +kernel⟩,
    ⟨{ State.reset with cfg := { Cfg.init with load := some ⟨1, 2, 3, 1, 0, 0, none, [], none, none⟩ }, scan := { Scan.init with ir := 0x12 } }, 9#32, by decide +kernel⟩,
    ⟨State.reset, 159, some true, by decide +kernel⟩⟩

theorem wit_DebugAccess_1 :
    (∃ (s : State) (addr : Nat) (consume : Bool), s.Calm ∧ s.scan.ir = 0x10 ∧ s.secState ≠ 2 ∧ s.scan.busy = false ∧ s.dbgMay false (addr
      % 2 ^ 48 / 4 * 4) 0 = true ∧ s.tagAt (64 * (if consume then 21 else 22)) = .idle) ∧
    (∃ (s : State) (addr : Nat) (consume : Bool) (v : Word), s.Calm ∧ s.scan.ir = 0x10 ∧ s.secState ≠ 2 ∧ s.scan.busy = false ∧ s.dbgMay
      true (addr % 2 ^ 48 / 4 * 4) v = true ∧ s.tagAt (64 * (if consume then 21 else 22)) = .idle) ∧
    (∃ (s : State) (a : Acc) (r : Rsp), s.Calm ∧ mget s.mesh.inbox [] 21 = [(a, r)] ∧ a.write = false) :=
  ⟨⟨{ State.reset with scan := { Scan.init with ir := 0x10 } }, 0x1020000000007, false, by decide +kernel⟩,
    ⟨{ State.reset with scan := { Scan.init with ir := 0x10 } }, 0x102000000003F, true, 9#32, by decide +kernel⟩,
    ⟨{ State.reset with scan := { Scan.init with busy := true }, mesh := { Mesh.init with inbox := [(21, [(⟨21, 0, false, 60, 4, 0, 0, 0, 0⟩, ⟨0, 0, 5 * 2 ^ 480, 0⟩)])] } }, ⟨21, 0, false, 60, 4, 0, 0, 0, 0⟩, ⟨0, 0, 5 * 2 ^ 480, 0⟩, by decide +kernel⟩⟩

theorem wit_DebugAccess_2 :
    (∃ (s : State) (src : Nat), s.Calm ∧ (src = 21 ∨ src = 22) ∧ (s.secState = 0 ∨ (s.secState = 1 ∧ s.on DBG_CTRL_AUTHED = true))) ∧
    (∃ (s : State) (src : Nat), s.Calm ∧ (src = 21 ∨ src = 22) ∧ s.attached = true) ∧
    (∃ (s : State) (src c : Nat), s.Calm ∧ c < 17 ∧ s.dbgReach src = true ∧ s.attached = true ∧ (s.secState = 0 ∨ s.perms.testBit 0 =
      true) ∧ (s.coreSt c = 1 ∨ s.coreSt c = 2) ∧ (s.coreOf c).halt = none) :=
  ⟨⟨State.reset, 22, by decide +kernel⟩,
    ⟨{ regsAre ([(DBG_CTRL, 2 ^ 29 + 2 ^ 28), (ST_CTRL 16, 0)] ++ [(ST_STAT 16, 3 * 2 ^ 29)]) with core := [(16, Core.init)] }, 22, by decide +kernel⟩,
    ⟨{ regsAre ([(DBG_CTRL, 2 ^ 29 + 2 ^ 28), (ST_CTRL 16, 0)] ++ [(ST_STAT 16, 2 ^ 29)]) with core := [(16, Core.init)] }, 0, 16, by decide +kernel⟩⟩

theorem wit_DebugAccess_3 :
    (∃ (s : State) (c why unit : Nat), s.Calm ∧ c < 17 ∧ (s.coreOf c).halt = some (why, unit) ∧ (s.coreSt c = 1 ∨ s.coreSt c = 2) ∧
      s.coreClock c = true ∧ (s.coreOf c).stall = none ∧ s.postedOpen (coreSrc c) = false) ∧
    (∃ (s : State) (c i : Nat), s.Calm ∧ c < 17 ∧ s.canIssue c = true ∧ s.bpHit c = some i) ∧
    (∃ (s : State) (src c : Nat), s.Calm ∧ c < 17 ∧ s.dbgReach src = true ∧ s.attached = true ∧ (s.secState = 0 ∨ s.perms.testBit 0 =
      true) ∧ s.coreSt c = 3) :=
  ⟨⟨{ regsAre ([(DBG_CTRL, 2 ^ 29 + 2 ^ 28), (ST_CTRL 16, 0)] ++ [(ST_STAT 16, 2 ^ 29)]) with core := [(16, { Core.init with halt := some (2, 1) })] }, 16, 2, 1, by decide +kernel⟩,
    ⟨{ regsAre ([(DBG_CTRL, 2 ^ 29 + 2 ^ 28), (ST_CTRL 16, 0)] ++ [(ST_STAT 16, 2 ^ 29 + 8), (DBG_CORE_BP 16 3, 2 ^ 31 + 8)]) with core := [(16, Core.init)] }, 16, 3, by decide +kernel⟩,
    ⟨{ regsAre ([(DBG_CTRL, 2 ^ 29 + 2 ^ 28), (ST_CTRL 16, 0)] ++ [(ST_STAT 16, 3 * 2 ^ 29 + 8)]) with core := [(16, Core.init)] }, 0, 16, by decide +kernel⟩⟩

theorem wit_DebugAccess_4 :
    (∃ (s : State) (src c : Nat), s.Calm ∧ c < 17 ∧ s.dbgReach src = true ∧ s.attached = true ∧ (s.secState = 0 ∨ s.perms.testBit 0 =
      true) ∧ s.coreSt c = 3) ∧
    (∃ (s : State) (src c : Nat) (w : Word), s.Calm ∧ c < 17 ∧ s.dbgReach src = true ∧ s.attached = true ∧ (s.secState = 0 ∨
      s.perms.testBit 0 = true) ∧ s.coreSt c = 3 ∧ s.coreClock c = true ∧ (s.coreOf c).stall = none ∧ insnKind w = some 97 ∧ (fget w 27 25
      ≠ 5 ∨ fget w 24 20 ≠ 5)) ∧
    (∃ (s : State) (src c : Nat) (v : Word), s.Calm ∧ c < 17 ∧ s.dbgReach src = true ∧ s.attached = true ∧ (s.secState = 0 ∨
      s.perms.testBit 0 = true) ∧ s.coreSt c = 3 ∧ s.coreClock c = true) :=
  ⟨⟨{ regsAre ([(DBG_CTRL, 2 ^ 29 + 2 ^ 28), (ST_CTRL 16, 0)] ++ [(ST_STAT 16, 3 * 2 ^ 29 + 8)]) with core := [(16, Core.init)] }, 0, 16, by decide +kernel⟩,
    ⟨{ regsAre ([(DBG_CTRL, 2 ^ 29 + 2 ^ 28), (ST_CTRL 16, 0)] ++ [(ST_STAT 16, 3 * 2 ^ 29 + 8)]) with core := [(16, Core.init)] }, 0, 16, 0xC0F08001#32, by decide +kernel⟩,
    ⟨{ regsAre ([(DBG_CTRL, 2 ^ 29 + 2 ^ 28), (ST_CTRL 16, 0)] ++ [(ST_STAT 16, 3 * 2 ^ 29 + 8)]) with core := [(16, Core.init)] }, 0, 16, 0x1FFFF#32, by decide +kernel⟩⟩

theorem wit_DebugAccess_5 :
    (∃ (s : State) (src c : Nat), s.Calm ∧ c < 17 ∧ s.dbgReach src = true ∧ s.attached = true ∧ (s.secState = 0 ∨ s.perms.testBit 0 =
      true)) :=
  ⟨{ regsAre ([(DBG_CTRL, 2 ^ 29 + 2 ^ 28), (ST_CTRL 16, 0)] ++ [(ST_STAT 16, 3 * 2 ^ 29 + 8)]) with core := [(16, Core.init)] }, 0, 16, by decide +kernel⟩

theorem wit_Ballast_1 :
    (∃ (s : State) (m : List Nat) (temps : List Int), s.Calm ∧ s.balDue = true) ∧
    (∃ (s : State) (m : List Nat) (temps : List Int) (tj : Int) (die : Nat), s.Calm ∧ s.balDue = true ∧ temps.length = 5 ∧ temps.getD die
      0 = tj ∧ die < 5 ∧ (∀ i : Nat, i < 5 → temps.getD i 0 ≤ tj) ∧ (∀ i : Nat, i < die → temps.getD i 0 < tj)) ∧
    (∃ (s : State) (m : List Nat), s.Calm) :=
  ⟨⟨{ regsAre [(BAL_CON_GRANT 3, 28 + 5 * 2 ^ 16), (BAL_CON_ALLOW 3, 2 ^ 32 - 1000000), (BAL_CON_RES 5, 9000), (BAL_THERM_CFG, 100 * 2 ^ 24 + 90 * 2 ^ 16 + 16)] with bal := { Ballast.init with sum := [(0, 7), (3, 90)], next := [(3, 28), (16, 400)], held := [3], exceeded := [17] } }, [450000, 3, 700000, 5, 9, 0, 0, 0, 0, 0, 0, 0, 0, 0, 0, 0, 800000, 12001, 72001], [95, 20, 30], by decide +kernel⟩,
    ⟨{ regsAre [(BAL_CON_GRANT 3, 28 + 5 * 2 ^ 16), (BAL_CON_ALLOW 3, 2 ^ 32 - 1000000), (BAL_CON_RES 5, 9000), (BAL_THERM_CFG, 100 * 2 ^ 24 + 90 * 2 ^ 16 + 16)] with bal := { Ballast.init with sum := [(0, 7), (3, 90)], next := [(3, 28), (16, 400)], held := [3], exceeded := [17] } }, [450000, 3, 700000, 5, 9, 0, 0, 0, 0, 0, 0, 0, 0, 0, 0, 0, 800000, 12001, 72001], [20, 95, 30, 95, 1], 95, 1, by decide +kernel⟩,
    ⟨{ regsAre [(BAL_CON_GRANT 3, 28 + 5 * 2 ^ 16), (BAL_CON_ALLOW 3, 2 ^ 32 - 1000000), (BAL_CON_RES 5, 9000), (BAL_THERM_CFG, 100 * 2 ^ 24 + 90 * 2 ^ 16 + 16)] with bal := { Ballast.init with sum := [(0, 7), (3, 90)], next := [(3, 28), (16, 400)], held := [3], exceeded := [17] } }, [450000, 3, 700000, 5, 9, 0, 0, 0, 0, 0, 0, 0, 0, 0, 0, 0, 800000, 12001, 72001], by decide +kernel⟩⟩

theorem wit_Ballast_2 :
    (∃ (s : State) (m : List Nat), s.Calm) ∧
    (∃ (s : State) (die : Nat), s.Calm ∧ die < 5) ∧
    (∃ (s : State), s.Calm ∧ s.on BAL_STAT_CLAMP = true) :=
  ⟨⟨{ regsAre [(BAL_CON_GRANT 3, 28 + 5 * 2 ^ 16), (BAL_CON_ALLOW 3, 2 ^ 32 - 1000000), (BAL_CON_RES 5, 9000), (BAL_THERM_CFG, 100 * 2 ^ 24 + 90 * 2 ^ 16 + 16)] with bal := { Ballast.init with sum := [(0, 7), (3, 90)], next := [(3, 28), (16, 400)], held := [3], exceeded := [17] } }, [450000, 3, 700000, 5, 9, 0, 0, 0, 0, 0, 0, 0, 0, 0, 0, 0, 800000, 12001, 72001], by decide +kernel⟩,
    ⟨regsAre [(BAL_DROOP_STAT, 0xFFFF0000)], 4, by decide +kernel⟩,
    ⟨regsAre [(BAL_STAT, 2 ^ 30)], by decide +kernel⟩⟩

theorem wit_PowerStates_1 :
    (∃ (s : State) (p : Nat), p < 4 ∧ s.on BAL_PWR_STAT_BUSY = false ∧ s.f BAL_PWR_STAT_STATE ≠ p ∧ (p = 0 ∨ (exitLat p + s.f
      BAL_PWR_CFG_MARGIN ≤ s.tolerance ∧ s.powerPre p = true))) ∧
    (∃ (s : State) (p : Nat), p < 4 ∧ s.on BAL_PWR_STAT_BUSY = false ∧ (∀ q : Nat, p ≤ q → q < 4 → q ≠ 0 ∧ (s.tolerance < exitLat q + s.f
      BAL_PWR_CFG_MARGIN ∨ s.powerPre q = false))) ∧
    (∃ (s : State) (p : Nat), p < 4 ∧ s.on BAL_PWR_STAT_BUSY = true) :=
  ⟨⟨regsAre [(BAL_LAT_TOL, 2008)], 3, by decide +kernel⟩,
    ⟨regsAre [(BAL_LAT_TOL, 2007)], 3, by decide +kernel⟩,
    ⟨regsAre [(BAL_PWR_STAT, 2 ^ 31)], 2, by decide +kernel⟩⟩

theorem wit_PowerStates_2 :
    (∃ (s : State), s.powerAim ≠ 0) ∧
    (∃ (s : State), s.powerAim ≠ 0 ∧ s.tolerance < exitLat s.powerAim + s.f BAL_PWR_CFG_MARGIN) ∧
    (∃ (s : State), s.powerAim ≠ 0 ∧ exitLat s.powerAim + s.f BAL_PWR_CFG_MARGIN ≤ s.tolerance ∧ s.powerPre s.powerAim = true ∧ s.heldNow
      = false) :=
  ⟨⟨regsAre [(BAL_PWR_STAT, 2 ^ 28)], by decide +kernel⟩,
    ⟨regsAre [(BAL_PWR_STAT, 2 ^ 28), (BAL_LAT_TOL, 9)], by decide +kernel⟩,
    ⟨regsAre [(BAL_PWR_STAT, 2 ^ 28), (BAL_LAT_TOL, 10)], by decide +kernel⟩⟩

theorem wit_PowerStates_3 :
    (∃ (s : State), s.on BAL_PWR_STAT_BUSY = true ∧ s.f BAL_PWR_STAT_TARGET = 0 ∧ s.bal.req = none ∧ s.sec.alarmDue = false) ∧
    (∃ (s : State) (a b : Nat) (e : Bool), s.sec.alarmDue = false ∧ s.powerAim = 0) :=
  ⟨⟨regsAre [(BAL_PWR_STAT, 2 ^ 31 + 2 ^ 28)], by decide +kernel⟩,
    ⟨State.reset, 0x1003, 0x0801, true, by decide +kernel⟩⟩

theorem wit_HostTraffic_1 :
    (∃ (s : State) (p : HostTlp), s.Calm ∧ s.on HIF_LINK_STAT_UP = false) ∧
    (∃ (s : State) (b m f : Bool), s.Calm ∧ s.on HIF_LINK_STAT_UP = true) ∧
    (∃ (s : State) (i : Nat) (v : Word), s.Calm ∧ s.on HIF_LINK_STAT_UP = true ∧ i < 4) :=
  ⟨⟨State.reset, .config true true true, by decide +kernel⟩,
    ⟨regsAre [(HIF_LINK_STAT, 2 ^ 31)], true, true, false, by decide +kernel⟩,
    ⟨regsAre [(HIF_LINK_STAT, 2 ^ 31)], 3, 0x80000001#32, by decide +kernel⟩⟩

theorem wit_HostTraffic_2 :
    (∃ (s : State) (d : Bool), s.Calm ∧ s.on HIF_LINK_STAT_UP = true) ∧
    (∃ (s : State) (i v : Nat), s.Calm ∧ s.on HIF_LINK_STAT_UP = true ∧ s.cfgHeader i = some v) ∧
    (∃ (s : State) (w : Bool) (off v : Nat), s.Calm ∧ s.on HIF_LINK_STAT_UP = true ∧ s.host.d3 = false ∧ off % 4 = 0 ∧ off < 0x2000000 ∧
      (w = true ∨ s.hostReads < 512) ∧ s.host.todo = [] ∧ s.tagAt 0 = .idle) :=
  ⟨⟨regsAre [(HIF_LINK_STAT, 2 ^ 31)], true, by decide +kernel⟩,
    ⟨{ regsAre [(HIF_LINK_STAT, 2 ^ 31)] with host := { HostIf.init with bars := [(0, 0xFFFFFFFF#32)] } }, 4, 0xFC000004, by decide +kernel⟩,
    ⟨regsAre [(HIF_LINK_STAT, 2 ^ 31)], true, 60, 2 ^ 32 - 1, by decide +kernel⟩⟩

theorem wit_HostTraffic_3 :
    (∃ (s : State) (b : Bool) (off n be v : Nat), s.Calm ∧ s.on HIF_LINK_STAT_UP = true ∧ s.host.d3 = true ∧ s.hostReads < 512) ∧
    (∃ (s : State) (r i v off : Nat) (ep : Bool) (d : Desc), s.Calm ∧ s.hostThere = true ∧ s.descAt r i = some d ∧ d.d2h = false ∧ d.moved
      = false ∧ d.ring = r ∧ d.len = 4 ∧ d.dev = 0x20000000000 + off ∧ off % 4 = 0 ∧ off < 0x1200000 ∧ s.host.todo = [] ∧ s.tagAt 0 =
      .idle ∧ s.fencesOf 0 = []) ∧
    (∃ (s : State) (r i v : Nat) (ep : Bool) (d : Desc), s.Calm ∧ s.descAt r i = some d ∧ d.d2h = false ∧ d.moved = false ∧ s.on
      (HIF_RING_STAT_ERROR r) = false ∧ s.fencesOf 0 = []) :=
  ⟨⟨{ regsAre [(HIF_LINK_STAT, 2 ^ 31)] with host := { HostIf.init with d3 := true } }, true, 64, 4, 15, 0, by decide +kernel⟩,
    ⟨{ regsAre ([(HIF_LINK_STAT, 2 ^ 31)] ++ []) with host := { HostIf.init with busMaster := true, descs := [⟨7, 65535, false, true, false, 4, 64, 0x20000300210, 9, 0, false, false, 0, 3, false⟩], ops := [3, 4] } }, 7, 65535, 2 ^ 511 + 5, 0x300210, true, ⟨7, 65535, false, true, false, 4, 64, 0x20000300210, 9, 0, false, false, 0, 3, false⟩, by decide +kernel⟩,
    ⟨{ regsAre ([(HIF_LINK_STAT, 2 ^ 31)] ++ [(HIF_RING_PTR 7, 65535), (HIF_RING_CFG 7, 2 ^ 31 + 16)]) with host := { HostIf.init with busMaster := true, descs := [⟨7, 65535, false, true, false, 4, 64, 0x20000300210, 9, 0, false, false, 0, 3, false⟩] } }, 7, 65535, 0, false, ⟨7, 65535, false, true, false, 4, 64, 0x20000300210, 9, 0, false, false, 0, 3, false⟩, by decide +kernel⟩⟩

theorem wit_HostTraffic_4 :
    (∃ (s : State) (r i : Nat) (d : Desc), s.Calm ∧ s.descAt r i = some d ∧ d.d2h = false ∧ d.moved = false ∧ s.on (HIF_RING_STAT_ERROR r)
      = false ∧ s.fencesOf 0 = []) ∧
    (∃ (s : State), s.Calm ∧ s.cfg.load = none) ∧
    (∃ (s : State) (speed width : Nat), s.Calm ∧ s.scanTakes = false ∧ speed < 8 ∧ width ≤ 16) :=
  ⟨⟨{ regsAre ([(HIF_LINK_STAT, 2 ^ 31)] ++ []) with host := { HostIf.init with busMaster := true, descs := [⟨7, 65535, false, true, false, 4, 64, 0x20000300210, 9, 0, false, false, 0, 3, false⟩] } }, 7, 65535, ⟨7, 65535, false, true, false, 4, 64, 0x20000300210, 9, 0, false, false, 0, 3, false⟩, by decide +kernel⟩,
    ⟨{ regsAre ([(HIF_LINK_STAT, 2 ^ 31)] ++ [(HIF_RING_CFG 7, 2 ^ 31 + 16)]) with host := { HostIf.init with busMaster := true, msixEnable := true } }, by decide +kernel⟩,
    ⟨State.reset, 4, 16, by decide +kernel⟩⟩

theorem wit_HostTraffic_5 :
    (∃ (s : State) (i : Nat), s.Calm ∧ i < 512) ∧
    (∃ (s : State) (v : Nat), s.Calm ∧ v ∈ s.host.pend ∧ s.host.msixEnable = true ∧ s.host.funcMask = false ∧ s.hostThere = true ∧ (mget
      s.host.msix Msix.init v).masked = false) ∧
    (∃ (s : State) (v : Nat), s.Calm ∧ (v ∉ s.host.pend ∨ s.host.msixEnable = false ∨ s.host.funcMask = true ∨ s.hostThere = false ∨ (mget
      s.host.msix Msix.init v).masked = true)) :=
  ⟨⟨regsAre [(HIF_IRQ_ROUTE 511, 2 ^ 31 + 1023), (ST_IRQ_CFG 16 63, 2 ^ 29 + 511)], 511, by decide +kernel⟩,
    ⟨{ regsAre ([(HIF_LINK_STAT, 2 ^ 31)] ++ []) with host := { HostIf.init with busMaster := true, pend := [1023], msixEnable := true, msix := [(1023, ⟨16, 5, false⟩)] } }, 1023, by decide +kernel⟩,
    ⟨State.reset, 1023, by decide +kernel⟩⟩

theorem wit_HostRings_1 :
    (∃ (s : State) (r : Nat) (v : Word), s.Calm ∧ r < 1024 ∧ s.on (HIF_RING_CFG_EN r) = false ∧ v.toNat.testBit 31 = true) ∧
    (∃ (s : State) (r : Nat) (v : Word), s.Calm ∧ r < 1024 ∧ s.on (HIF_RING_CFG_EN r) = true) ∧
    (∃ (s : State) (r v : Nat), s.Calm ∧ r < 1024 ∧ s.on (HIF_RING_CFG_EN r) = true ∧ v < 2 ^ s.ringSize r) :=
  ⟨⟨{ regsAre ([(HIF_LINK_STAT, 2 ^ 31)] ++ []) with host := { HostIf.init with busMaster := true, descs := [⟨1023, 65535, false, true, false, 4, 64, 0x20000300210, 9, 0, false, false, 0, 3, false⟩, ⟨7, 65535, false, true, false, 4, 64, 0x20000300210, 9, 0, false, false, 0, 3, false⟩], ops := [3] } }, 1023, 0xFFFFFFFF#32, by decide +kernel⟩,
    ⟨regsAre [(HIF_RING_CFG 1023, 2 ^ 31 + 9 * 2 ^ 16 + 4), (HIF_RING_PTR 1023, 15 * 2 ^ 16)], 1023, 0x7#32, by decide +kernel⟩,
    ⟨regsAre [(HIF_RING_CFG 1023, 2 ^ 31 + 9 * 2 ^ 16 + 4), (HIF_RING_PTR 1023, 15 * 2 ^ 16)], 1023, 15, by decide +kernel⟩⟩

theorem wit_HostRings_2 :
    (∃ (s : State) (r v : Nat), s.Calm ∧ r < 1024 ∧ s.on (HIF_RING_CFG_EN r) = true ∧ 2 ^ s.ringSize r ≤ v ∧ v < 65536 ∧ s.on
      (HIF_RING_STAT_ERROR r) = false) ∧
    (∃ (s : State) (r v : Nat), s.Calm ∧ s.on (HIF_RING_CFG_EN r) = false) ∧
    (∃ (s : State) (r : Nat) (l : List Nat), s.Calm ∧ s.turnRing = some r ∧ s.host.descs.length < 32 ∧ s.fenceHeld 0 = false ∧ s.hostThere
      = true ∧ descOk l = true ∧ descWord l 0 % 2 = 0 ∧ ((descWord l 0).testBit 3 = false ∨ s.ringDescs r = [])) :=
  ⟨⟨regsAre [(HIF_RING_CFG 1023, 2 ^ 31 + 9 * 2 ^ 16 + 4), (HIF_RING_PTR 1023, 15 * 2 ^ 16)], 1023, 16, by decide +kernel⟩,
    ⟨State.reset, 1023, 15, by decide +kernel⟩,
    ⟨{ regsAre ([(HIF_LINK_STAT, 2 ^ 31)] ++ [(HIF_RING_CFG 1023, 2 ^ 31 + 9 * 2 ^ 16 + 4), (HIF_RING_PTR 1023, 15 * 2 ^ 16), (HIF_RING_STAT 1023, 0)]) with host := { HostIf.init with busMaster := true } }, 1023, [4, 64, 0, 1, 0x40, 9, 0, 0], by decide +kernel⟩⟩

theorem wit_HostRings_3 :
    (∃ (s : State) (r off : Nat) (l : List Nat), s.Calm ∧ s.turnRing = some r ∧ s.host.descs.length < 32 ∧ s.fenceHeld 0 = false ∧
      s.hostThere = true ∧ descOk l = true ∧ descWord l 0 % 2 = 1 ∧ ((descWord l 0).testBit 3 = false ∨ s.ringDescs r = []) ∧ descWord l 1
      = 4 ∧ descWord l 4 + descWord l 5 * 2 ^ 32 = 0x20000000000 + off ∧ off < 0x1200000 ∧ s.host.todo = [] ∧ s.tagAt 0 = .idle) ∧
    (∃ (s : State) (r : Nat) (fetched : Option (List Nat)), s.Calm ∧ s.turnRing = some r ∧ s.host.descs.length < 32 ∧ s.fenceHeld 0 =
      false ∧ (s.hostThere = false ∨ fetched = none ∨ fetched.any descOk = false)) ∧
    (∃ (s : State) (r : Nat) (fetched : Option (List Nat)), s.Calm ∧ (s.turnRing ≠ some r ∨ 32 ≤ s.host.descs.length ∨ s.fenceHeld 0 =
      true)) :=
  ⟨⟨{ regsAre ([(HIF_LINK_STAT, 2 ^ 31)] ++ [(HIF_RING_CFG 1023, 2 ^ 31 + 9 * 2 ^ 16 + 4), (HIF_RING_PTR 1023, 15 * 2 ^ 16), (HIF_RING_STAT 1023, 0)]) with host := { HostIf.init with busMaster := true } }, 1023, 0x300210, [5, 4, 0, 1, 0x300210, 0x200, 0, 0], by decide +kernel⟩,
    ⟨{ regsAre ([(HIF_LINK_STAT, 2 ^ 31)] ++ [(HIF_RING_CFG 1023, 2 ^ 31 + 9 * 2 ^ 16 + 4), (HIF_RING_PTR 1023, 15 * 2 ^ 16)]) with host := { HostIf.init with busMaster := true } }, 1023, some [2, 64, 0, 1, 0x40, 9, 0, 0], by decide +kernel⟩,
    ⟨State.reset, 1023, none, by decide +kernel⟩⟩

theorem wit_HostRings_4 :
    (∃ (s : State) (r n dv ho id v o : Nat) (q f p : Bool), s.Calm ∧ r < 1024 ∧ s.fenceHeld 0 = false ∧ s.host.descs = [⟨r, s.f
      (HIF_RING_PTR_HEAD r), false, q, f, n, ho, dv, id, v, p, true, 0, o, false⟩]) ∧
    (∃ (s : State) (r n dv ho id v o : Nat) (f p : Bool), s.Calm ∧ r < 1024 ∧ s.hostThere = true ∧ s.fenceHeld 0 = false ∧ s.host.descs =
      [⟨r, s.f (HIF_RING_PTR_HEAD r), true, false, f, n, ho, dv, id, v, p, false, 0, o, false⟩]) ∧
    (∃ (s : State) (r i n dv ho id v o : Nat) (f p : Bool), s.Calm ∧ r < 1024 ∧ s.hostThere = true ∧ s.fenceHeld 0 = false ∧ s.host.descs
      = [⟨r, i, true, true, f, n, ho, dv, id, v, p, false, 0, o, false⟩]) :=
  ⟨⟨{ regsAre ([(HIF_LINK_STAT, 2 ^ 31)] ++ [(HIF_RING_PTR 7, 15), (HIF_RING_CFG 7, 2 ^ 31 + 9 * 2 ^ 16 + 4), (HIF_RING_WB_LO 7, 64)]) with host := { HostIf.init with busMaster := true, descs := [⟨7, 15, false, true, false, 4, 64, 0x20000300210, 9, 77, false, true, 0, 3, false⟩] } }, 7, 4, 0x20000300210, 64, 9, 77, 3, true, false, false, by decide +kernel⟩,
    ⟨{ regsAre ([(HIF_LINK_STAT, 2 ^ 31)] ++ [(HIF_RING_PTR 7, 15), (HIF_RING_CFG 7, 2 ^ 31 + 9 * 2 ^ 16 + 4), (HIF_RING_WB_LO 7, 64)]) with host := { HostIf.init with busMaster := true, descs := [⟨7, 15, true, false, false, 4, 64, 0x20000300210, 9, 77, true, false, 0, 3, false⟩] } }, 7, 4, 0x20000300210, 64, 9, 77, 3, false, true, by decide +kernel⟩,
    ⟨{ regsAre ([(HIF_LINK_STAT, 2 ^ 31)] ++ []) with host := { HostIf.init with busMaster := true, descs := [⟨7, 15, true, true, false, 4, 64, 0x20000300210, 9, 77, true, false, 0, 3, false⟩] } }, 7, 15, 4, 0x20000300210, 64, 9, 77, 3, false, true, by decide +kernel⟩⟩

theorem wit_HostRings_5 :
    (∃ (s : State) (a : Acc) (x : Rsp) (d : Desc), s.Calm ∧ s.host.tlps.find? (fun y => y.id == a.ref) = none ∧ s.host.descs.find? (fun y
      => y.id == a.ref) = some d ∧ x.status ≠ 0 ∧ s.on (HIF_RING_STAT_ERROR d.ring) = false ∧ s.fencesOf 0 = []) :=
  ⟨{ regsAre ([(HIF_LINK_STAT, 2 ^ 31)] ++ []) with host := { HostIf.init with busMaster := true, descs := [⟨7, 65535, false, true, false, 4, 64, 0x20000300210, 9, 0, false, false, 0, 3, false⟩] } }, ⟨0, 0, true, 0x20000300210, 4, 15, 0, 0, 9⟩, ⟨2, 0, 0, 0⟩, ⟨7, 65535, false, true, false, 4, 64, 0x20000300210, 9, 0, false, false, 0, 3, false⟩, by decide +kernel⟩

theorem wit_FuseCommands_1 :
    (∃ (s : State) (src reg : Nat), s.Calm ∧ reg < 3 ∧ isDbg src = false ∧ (src ≠ 0 ∨ s.secState = 0) ∧ s.unlockOf reg = none) ∧
    (∃ (s : State) (src reg : Nat), s.Calm ∧ reg < 3 ∧ isDbg src = true) ∧
    (∃ (s : State) (src : Nat) (late : Bool), s.Calm ∧ src < 64 ∧ (src ≠ 0 ∨ s.secState = 0) ∧ s.unlockOf 0 = none) :=
  ⟨⟨State.reset, 17, 2, by decide +kernel⟩,
    ⟨State.reset, 22, 2, by decide +kernel⟩,
    ⟨State.reset, 17, false, by decide +kernel⟩⟩

theorem wit_FuseCommands_2 :
    (∃ (s : State), s.Calm ∧ (s.unlockOf 0).any (fun u => u.src == 17) = true ∧ s.on SEC_FUSE_STAT_BUSY = false ∧ s.secState = 0 ∧
      s.sec.fuses.liveSk ≠ []) ∧
    (∃ (s : State), s.Calm ∧ (s.unlockOf 0).any (fun u => u.src == 17) = true ∧ (s.secState ≠ 0 ∨ s.sec.fuses.liveSk = [])) ∧
    (∃ (s : State), s.Calm ∧ (s.unlockOf 0).any (fun u => u.src == 17) = true ∧ s.on SEC_FUSE_STAT_BUSY = false ∧ s.secState = 1) :=
  ⟨⟨{ regsAre [] with sec := { Security.init with unlock := [(0, some ⟨17, 0⟩)], fuses := { Fuses.init with sk := [(3, some 9)] } } }, by decide +kernel⟩,
    ⟨{ regsAre [] with sec := { Security.init with unlock := [(0, some ⟨17, 0⟩)] } }, by decide +kernel⟩,
    ⟨{ regsAre [(SEC_STATE, 2 ^ 30)] with sec := { Security.init with unlock := [(0, some ⟨17, 0⟩)] } }, by decide +kernel⟩⟩

theorem wit_FuseCommands_3 :
    (∃ (s : State) (slot : Nat), s.Calm ∧ (s.unlockOf 0).any (fun u => u.src == 17) = true ∧ s.on SEC_FUSE_STAT_BUSY = false ∧ slot < 4 ∧
      s.secState ≠ 2 ∧ mget s.sec.fuses.sk none slot = none) ∧
    (∃ (s : State) (slot : Nat), s.Calm ∧ slot < 4 ∧ (s.unlockOf 0).any (fun u => u.src == 17) = true ∧ s.on SEC_FUSE_STAT_BUSY = false ∧
      s.secState ≠ 2 ∧ mget s.sec.fuses.sk none slot ≠ none) ∧
    (∃ (s : State) (slot : Nat), s.Calm ∧ (s.unlockOf 0).any (fun u => u.src == 17) = true ∧ s.on SEC_FUSE_STAT_BUSY = false ∧ slot < 4 ∧
      s.sec.fuses.liveSk.any (fun k => k != slot) = true) :=
  ⟨⟨{ regsAre [] with sec := { Security.init with unlock := [(0, some ⟨17, 0⟩)] } }, 3, by decide +kernel⟩,
    ⟨{ regsAre [] with sec := { Security.init with unlock := [(0, some ⟨17, 0⟩)], fuses := { Fuses.init with sk := [(3, some 9)] } } }, 3, by decide +kernel⟩,
    ⟨{ regsAre [] with sec := { Security.init with unlock := [(0, some ⟨17, 0⟩)], fuses := { Fuses.init with sk := [(2, some 9)] } } }, 3, by decide +kernel⟩⟩

theorem wit_FuseCommands_4 :
    (∃ (s : State) (slot : Nat), s.Calm ∧ slot < 4 ∧ (s.unlockOf 0).any (fun u => u.src == 17) = true ∧ s.on SEC_FUSE_STAT_BUSY = false ∧
      (∀ k ∈ s.sec.fuses.liveSk, k = slot)) ∧
    (∃ (s : State), s.Calm ∧ (s.unlockOf 0).any (fun u => u.src == 17) = true ∧ s.on SEC_FUSE_STAT_BUSY = false ∧ s.secState ≠ 2 ∧
      s.sec.fuses.dbg = none) ∧
    (∃ (s : State) (slot : Nat), s.Calm ∧ (s.unlockOf 0).any (fun u => u.src == 17) = true ∧ s.on SEC_FUSE_STAT_BUSY = false ∧ 1 ≤ slot ∧
      slot < 4 ∧ s.secState ≠ 2 ∧ mget s.sec.fuses.key none slot = none) :=
  ⟨⟨{ regsAre [] with sec := { Security.init with unlock := [(0, some ⟨17, 0⟩)], fuses := { Fuses.init with sk := [(3, some 9)] } } }, 3, by decide +kernel⟩,
    ⟨{ regsAre [] with sec := { Security.init with unlock := [(0, some ⟨17, 0⟩)] } }, by decide +kernel⟩,
    ⟨{ regsAre [] with sec := { Security.init with unlock := [(0, some ⟨17, 0⟩)] } }, 3, by decide +kernel⟩⟩

theorem wit_FuseCommands_5 :
    (∃ (s : State), s.Calm ∧ (s.unlockOf 0).any (fun u => u.src == 17) = true ∧ s.on SEC_FUSE_STAT_BUSY = false) ∧
    (∃ (s : State) (op slot : Nat), s.Calm ∧ s.sec.fuseCmd = some (op, slot)) ∧
    (∃ (s : State), s.Calm ∧ s.sec.fuseCmd ≠ none) :=
  ⟨⟨{ regsAre [] with sec := { Security.init with unlock := [(0, some ⟨17, 0⟩)] } }, by decide +kernel⟩,
    ⟨{ State.reset with sec := { Security.init with fuseCmd := some (6, 3), fuseData := 2 ^ 300 + 7 } }, 6, 3, by decide +kernel⟩,
    ⟨{ State.reset with sec := { Security.init with fuseCmd := some (6, 3), fuseData := 2 ^ 300 + 7 } }, by decide +kernel⟩⟩

theorem wit_FuseCommands_6 :
    (∃ (s : State) (slot : Nat), s.Calm ∧ 4 ≤ slot ∧ slot < 8 ∧ (s.unlockOf 1).any (fun u => u.src == 17) = true) ∧
    (∃ (s : State) (slot : Nat), s.Calm ∧ 4 ≤ slot ∧ slot < 8 ∧ (s.unlockOf 1).any (fun u => u.src == 17) = true) :=
  ⟨⟨{ regsAre [] with sec := { Security.init with unlock := [(1, some ⟨17, 0⟩)], keyData := [(0, 5#32), (7, 9#32)] } }, 7, by decide +kernel⟩,
    ⟨{ regsAre [] with sec := { Security.init with unlock := [(1, some ⟨17, 0⟩)], slots := [(7, some 9)] } }, 7, by decide +kernel⟩⟩

theorem wit_AlarmsAndAuthentication_1 :
    (∃ (s : State), s.Calm ∧ (s.f SEC_ALARM_CFG_ACTION).testBit 4 = true ∧ s.secState = 0) ∧
    (∃ (s : State), s.Calm ∧ (s.f SEC_ALARM_CFG_ACTION).testBit 3 = true ∧ s.secState = 0) ∧
    (∃ (s : State) (src : Nat), s.Calm ∧ (s.f SEC_ALARM_CFG_ACTION).testBit 6 = true ∧ s.secState = 0) :=
  ⟨⟨{ regsAre [] with sec := { Security.init with slots := [(7, some 9)], keyData := [(3, 9#32)] }, hbm := { Hbm.init with keys := some ⟨5, 7⟩ } }, by decide +kernel⟩,
    ⟨{ regsAre [] with sec := { Security.init with slots := [(7, some 9)], keyData := [(3, 9#32)] }, hbm := { Hbm.init with keys := some ⟨5, 7⟩ } }, by decide +kernel⟩,
    ⟨{ regsAre [] with sec := { Security.init with slots := [(7, some 9)], keyData := [(3, 9#32)] }, hbm := { Hbm.init with keys := some ⟨5, 7⟩ } }, 16, by decide +kernel⟩⟩

theorem wit_AlarmsAndAuthentication_2 :
    (∃ (s : State) (src : Nat), s.Calm ∧ (src ≠ 0 ∨ s.secState = 0) ∧ (s.f SEC_ALARM_CFG_ACTION).testBit 6 = false) ∧
    (∃ (s : State) (src mask : Nat), s.Calm ∧ mask < 128 ∧ (src = 17 ∨ (s.secState = 0 ∧ (src = 0 ∨ src = 21 ∨ src = 22)))) ∧
    (∃ (s : State) (src mask : Nat), s.Calm ∧ 0 < mask ∧ mask < 128 ∧ src ≠ 17 ∧ (s.secState ≠ 0 ∨ (src ≠ 0 ∧ src ≠ 21 ∧ src ≠ 22))) :=
  ⟨⟨regsAre [(SEC_ALARM_CFG, 0x3F)], 16, by decide +kernel⟩,
    ⟨regsAre [(SEC_ALARM, 127)], 22, 0x41, by decide +kernel⟩,
    ⟨regsAre [(SEC_ALARM, 127), (SEC_STATE, 2 ^ 31)], 0, 0x7F, by decide +kernel⟩⟩

theorem wit_AlarmsAndAuthentication_3 :
    (∃ (s : State) (n : Nat), s.Calm ∧ s.scan.ir = 0x11 ∧ s.secState ≠ 2 ∧ s.on SEC_AUTH_STAT_BUSY = false ∧ s.on SEC_AUTH_STAT_LOCKED_OUT
      = false ∧ (s.secState = 0 ∨ s.alarmed = false)) ∧
    (∃ (s : State) (n : Nat), s.Calm ∧ s.scan.ir = 0x11 ∧ s.secState ≠ 2 ∧ s.on SEC_AUTH_STAT_BUSY = false ∧ s.on SEC_AUTH_STAT_LOCKED_OUT
      = true) ∧
    (∃ (s : State) (w : Word) (n : Nat), s.Calm ∧ s.scan.ir = 0x11 ∧ s.secState ≠ 2 ∧ s.on SEC_AUTH_STAT_BUSY = false ∧ s.sec.nonce = some
      n ∧ s.sec.authWord < 12 ∧ s.on SEC_AUTH_STAT_LOCKED_OUT = false ∧ w ≠ 1#32) :=
  ⟨⟨{ regsAre [] with scan := { Scan.init with ir := 0x11 }, sec := { Security.init with nonce := none } }, 2 ^ 256 + 5, by decide +kernel⟩,
    ⟨{ regsAre [(SEC_AUTH_STAT, 2 ^ 30)] with scan := { Scan.init with ir := 0x11 }, sec := { Security.init with nonce := none } }, 5, by decide +kernel⟩,
    ⟨{ regsAre [] with scan := { Scan.init with ir := 0x11 }, sec := { Security.init with nonce := some 5, authWord := 11, resp := List.replicate 48 7 } }, 9#32, 5, by decide +kernel⟩⟩

theorem wit_AlarmsAndAuthentication_4 :
    (∃ (s : State), s.Calm ∧ s.on SEC_AUTH_STAT_BUSY = true) ∧
    (∃ (s : State) (n : Nat), s.Calm ∧ (s.sec.nonce = none ∨ s.sec.fuses.dbg = none ∨ (s.sec.nonce = some n ∧ n ∈ s.sec.used))) :=
  ⟨⟨{ regsAre [(SEC_AUTH_STAT, 2 ^ 31 + 7)] with scan := { Scan.init with ir := 0x11 }, sec := { Security.init with nonce := some 5, used := [5], resp := [7], fuses := { Fuses.init with dbg := some 99 } } }, by decide +kernel⟩,
    ⟨{ regsAre [] with scan := { Scan.init with ir := 0x11 }, sec := { Security.init with nonce := some 5, used := [5] } }, 5, by decide +kernel⟩⟩

theorem wit_PinsAndTriggers_1 :
    (∃ (s : State) (b : Nat) (v : Word), b < 5 ∧ s.pin.bs = none ∧ s.bankAbsent b = false) ∧
    (∃ (s : State) (b : Nat) (v : Word), b < 5 ∧ s.pin.bs = none ∧ s.bankAbsent b = false) ∧
    (∃ (s : State) (b r : Nat), b < 5) :=
  ⟨⟨{ regsAre [(PIN_GPIO_OUT 4, 0xF0), (PIN_GPIO_OE 4, 0xFF), (PIN_CFG 128, 2 ^ 9), (PIN_CFG 132, 2 ^ 9), (PIN_CFG 133, 2 ^ 9)] with pin := { Pins.init with ext := [(128, none), (132, none), (133, none)] } }, 4, 3#32, by decide +kernel⟩,
    ⟨{ regsAre [(PIN_GPIO_OUT 4, 0xF0), (PIN_GPIO_OE 4, 0xFF), (PIN_CFG 128, 2 ^ 9), (PIN_CFG 132, 2 ^ 9), (PIN_CFG 133, 2 ^ 9)] with pin := { Pins.init with ext := [(128, none), (132, none), (133, none)] } }, 4, 0x30#32, by decide +kernel⟩,
    ⟨{ regsAre [(PIN_GPIO_OUT 4, 0xF0), (PIN_GPIO_OE 4, 0xFF), (PIN_CFG 128, 2 ^ 9), (PIN_CFG 132, 2 ^ 9), (PIN_CFG 133, 2 ^ 9)] with pin := { Pins.init with ext := [(128, none), (132, none), (133, none)] } }, 4, 2, by decide +kernel⟩⟩

theorem wit_PinsAndTriggers_2 :
    (∃ (s : State), True) ∧
    (∃ (s : State) (i : Nat) (v : Word), i < 160 ∧ s.reg PIN_PERIPH_EN = 0 ∧ s.pinOwner i < 2) ∧
    (∃ (s : State) (k : Nat), k < 4 ∧ k ∈ s.pin.trigReq) :=
  ⟨⟨regsAre [(PIN_CFG 159, 2 ^ 31 + 6 * 2 ^ 28), (PIN_PERIPH_EN, 1), (PIN_CFG 3, 6 * 2 ^ 28)], by decide +kernel⟩,
    ⟨regsAre [], 159, 0xFFFFFFFF#32, by decide +kernel⟩,
    ⟨{ regsAre [(PIN_GPIO_OUT 4, 0xF0), (PIN_GPIO_OE 4, 0xFF), (PIN_CFG 128, 2 ^ 9), (PIN_CFG 132, 2 ^ 9), (PIN_CFG 133, 2 ^ 9)] with pin := { Pins.init with ext := [(128, none), (132, none), (133, none)], trigReq := [3, 3] } }, 3, by decide +kernel⟩⟩

theorem wit_PinsAndTriggers_3 :
    (∃ (s : State) (k : Nat), k < 4 ∧ k ∈ s.pin.pulse) ∧
    (∃ (s : State) (k : Nat) (lvl : Bool), k < 4 ∧ s.pin.bs = none ∧ s.bankAbsent 4 = false ∧ s.pinOwner (156 + k) = 5 ∧ s.on
      (TRIG_CFG_OUT k) = false ∧ s.on (PIN_CFG_IE (156 + k)) = true ∧ s.periphRun = true ∧ mget s.pin.trigIn false k = !lvl ∧ s.trigEdge k
      lvl = true) :=
  ⟨⟨{ regsAre [(PIN_GPIO_OUT 4, 0xF0), (PIN_GPIO_OE 4, 0xFF), (PIN_CFG 128, 2 ^ 9), (PIN_CFG 132, 2 ^ 9), (PIN_CFG 133, 2 ^ 9)] with pin := { Pins.init with ext := [(128, none), (132, none), (133, none)], pulse := [3] } }, 3, by decide +kernel⟩,
    ⟨regsAre [(PIN_CFG 159, 5 * 2 ^ 28 + 2 ^ 9), (TRIG_CFG 3, 0)], 3, true, by decide +kernel⟩⟩

theorem wit_SerialPorts_1 :
    (∃ (s : State) (u v : Nat), u < 2 ∧ s.blockGated 38 = false ∧ (mget s.pin.utx [] u).length < 16) ∧
    (∃ (s : State) (u n : Nat), s.uartOn u = true ∧ mget s.pin.utx [] u ≠ []) ∧
    (∃ (s : State) (u v : Nat) (err : Bool), s.uartOn u = true ∧ s.pinOwner (3 + 32 * u) = 2 ∧ (mget s.pin.urx [] u).length < 16) :=
  ⟨⟨{ State.reset with pin := { Pins.init with utx := [(1, List.replicate 15 7)] } }, 1, 0x1FF, by decide +kernel⟩,
    ⟨{ regsAre [(PIN_PERIPH_EN, 31), (UART_CTRL 1, 2 ^ 16)] with pin := { Pins.init with utx := [(1, [7, 8])] } }, 1, 2, by decide +kernel⟩,
    ⟨{ regsAre [(PIN_PERIPH_EN, 31), (PIN_CFG 35, 2 * 2 ^ 28), (UART_CTRL 1, 2 ^ 17)] with pin := { Pins.init with urx := [(1, List.replicate 15 7)] } }, 1, 0x1FF, true, by decide +kernel⟩⟩

theorem wit_SerialPorts_2 :
    (∃ (s : State) (u v : Nat) (err : Bool), s.uartOn u = true ∧ s.pinOwner (3 + 32 * u) = 2 ∧ 16 ≤ (mget s.pin.urx [] u).length) ∧
    (∃ (s : State) (u x0 : Nat) (l : List Nat), u < 2 ∧ s.blockGated 38 = false ∧ mget s.pin.urx [] u = x0 :: l ∧ l.length < 16) ∧
    (∃ (s : State) (c : Nat) (fast : Bool), c < 2 ∧ s.blockGated 38 = false ∧ s.on (I2C_CMD_BUSY c) = false) :=
  ⟨⟨{ regsAre [(PIN_PERIPH_EN, 31), (PIN_CFG 35, 2 * 2 ^ 28), (UART_CTRL 1, 2 ^ 17 + 16 * 2 ^ 25)] with pin := { Pins.init with urx := [(1, List.replicate 16 7)] } }, 1, 0x1FF, false, by decide +kernel⟩,
    ⟨{ State.reset with pin := { Pins.init with urx := [(1, List.replicate 16 7)] } }, 1, 7, List.replicate 15 7, by decide +kernel⟩,
    ⟨State.reset, 1, true, by decide +kernel⟩⟩

theorem wit_SerialPorts_3 :
    (∃ (s : State) (c : Nat) (v : Nat) (fast : Bool), c < 2 ∧ s.blockGated 38 = false ∧ s.on (I2C_CMD_BUSY c) = false) ∧
    (∃ (s : State) (c : Nat) (fast : Bool), c < 2 ∧ s.blockGated 38 = false ∧ s.on (I2C_CMD_BUSY c) = false) ∧
    (∃ (s : State) (c : Nat) (fast : Bool), c < 2 ∧ s.blockGated 38 = false ∧ s.on (I2C_CMD_BUSY c) = false) :=
  ⟨⟨State.reset, 1, 165, true, by decide +kernel⟩,
    ⟨State.reset, 1, true, by decide +kernel⟩,
    ⟨State.reset, 1, true, by decide +kernel⟩⟩

theorem wit_SerialPorts_4 :
    (∃ (s : State) (c : Nat) (fast : Bool), c < 2 ∧ s.blockGated 38 = false ∧ s.on (I2C_CMD_BUSY c) = false) ∧
    (∃ (s : State) (c d : Nat) (ack arb : Bool), s.i2cRuns c = true ∧ s.pinOwner (sdaPin c) = 3) ∧
    (∃ (s : State) (c : Nat), s.i2cRuns c = true ∧ s.pinOwner (sdaPin c - 1) = 3) :=
  ⟨⟨State.reset, 1, true, by decide +kernel⟩,
    ⟨{ regsAre [(PIN_PERIPH_EN, 31), (PIN_CFG 37, 3 * 2 ^ 28), (I2C_CMD 1, 2 ^ 31)] with pin := { Pins.init with i2cOp := [(1, 2)] } }, 1, 255, false, true, by decide +kernel⟩,
    ⟨regsAre [(PIN_PERIPH_EN, 31), (PIN_CFG 36, 3 * 2 ^ 28), (I2C_CMD 1, 2 ^ 31)], 1, by decide +kernel⟩⟩

theorem wit_SerialPorts_5 :
    (∃ (s : State) (v : Nat), s.blockGated 38 = false ∧ s.pin.spiTx.length < 16) ∧
    (∃ (s : State) (v x0 : Nat) (l : List Nat), s.pin.spiTx = x0 :: l ∧ s.on PIN_PERIPH_EN_SPI = true ∧ s.periphRun = true ∧ s.pinOwner 4
      = 4 ∧ s.pin.spiRx.length < 16) ∧
    (∃ (s : State) (x0 : Nat) (l : List Nat), s.blockGated 38 = false ∧ s.pin.spiRx = x0 :: l ∧ l.length < 16) :=
  ⟨⟨{ State.reset with pin := { Pins.init with spiTx := List.replicate 15 7 } }, 0x1FF, by decide +kernel⟩,
    ⟨{ regsAre [(PIN_PERIPH_EN, 31), (PIN_CFG 4, 4 * 2 ^ 28), (SPI_CTRL, 2 ^ 31 + 2 ^ 19)] with pin := { Pins.init with spiTx := [7] } }, 0x1FF, 7, [], by decide +kernel⟩,
    ⟨{ State.reset with pin := { Pins.init with spiRx := [7, 8] } }, 7, [8], by decide +kernel⟩⟩

theorem wit_SerialPorts_6 :
    (∃ (s : State) (u v : Nat) (f : Bool) (x : Instr), s.blockGated 38 = true ∧ x ∈ [.uartTx u v, .uartData u, .i2cStart u f, .i2cWrite u
      v f, .i2cReadAck u f, .i2cReadNack u f, .i2cStop u f, .spiTx v, .spiData]) :=
  ⟨{ regsAre [(CLK_GATE_EN1, 0)] with pin := { Pins.init with spiRx := [7], urx := [(1, [7])] } }, 1, 5, true, .spiData, by decide +kernel⟩

theorem wit_Gondola_1 :
    (∃ (s : State) (rcd : List Nat), s.Calm ∧ s.pin.poll = some true ∧ s.on GDL_STAT_PRESENT = false) ∧
    (∃ (s : State) (ack : Bool) (rcd : List Nat), s.Calm ∧ s.pin.poll ≠ some ack ∧ (ack = false ∨ s.pin.reread = false)) ∧
    (∃ (s : State) (rcd : List Nat), s.Calm ∧ s.pin.poll = some false ∧ s.on GDL_STAT_PRESENT = true ∧ s.gdlFree = true ∧ s.pin.gdl = []) :=
  ⟨⟨{ State.reset with pin := { Pins.init with poll := some true } }, [0x31, 0x4C, 0x44, 0x47, 7], by decide +kernel⟩,
    ⟨State.reset, true, [0x31, 0x4C, 0x44, 0x47, 7], by decide +kernel⟩,
    ⟨{ regsAre [(GDL_STAT, 2 ^ 31), (GDL_ID 15, 7)] with pin := { Pins.init with poll := some false } }, [], by decide +kernel⟩⟩

theorem wit_Gondola_2 :
    (∃ (s : State) (len : Nat), s.Calm ∧ len < 2 ^ 24) ∧
    (∃ (s : State) (len : Nat), s.Calm ∧ len < 2 ^ 24) ∧
    (∃ (s : State) (x0 : Gdl) (rest : List Gdl), s.Calm ∧ s.pin.gdl = x0 :: rest) :=
  ⟨⟨State.reset, 0, by decide +kernel⟩,
    ⟨State.reset, 2 ^ 24 - 1, by decide +kernel⟩,
    ⟨{ State.reset with pin := { Pins.init with gdl := [⟨true, 1, 5, 9⟩] } }, ⟨true, 1, 5, 9⟩, [], by decide +kernel⟩⟩

theorem wit_Gondola_3 :
    (∃ (s : State) (cause : Nat) (lines rcd : List Nat) (x0 : Gdl) (rest : List Gdl), s.Calm ∧ s.pin.gdl = x0 :: rest ∧ s.gdlFree = true ∧
      s.on GDL_STAT_PRESENT = false) ∧
    (∃ (s : State) (lines rcd : List Nat) (x0 : Gdl) (rest : List Gdl), s.Calm ∧ s.pin.gdl = x0 :: rest ∧ s.gdlFree = true ∧ s.gdlRefused
      x0 = none ∧ x0.out = false) :=
  ⟨⟨{ State.reset with pin := { Pins.init with gdl := [⟨true, 1, 5, 9⟩] } }, 0, [], [], ⟨true, 1, 5, 9⟩, [], by decide +kernel⟩,
    ⟨{ memOn [(GDL_STAT, 2 ^ 31), (GDL_ID 9, 6)] with pin := { Pins.init with gdl := [⟨false, 1, 5, 9⟩] } }, [5, 2 ^ 511], [], ⟨false, 1, 5, 9⟩, [], by decide +kernel⟩⟩

theorem wit_Tether_1 :
    (∃ (s : State) (v : Nat), s.Calm ∧ v < 2 ^ 64 ∧ s.regHeld TET_OUT_LO = false ∧ s.blockGated 37 = false ∧ s.f TET_STAT_STATE = 2 ∧
      s.pin.tet.msg0 = none) ∧
    (∃ (s : State) (v : Nat), s.Calm ∧ s.regHeld TET_OE_HI = false ∧ s.blockGated 37 = false ∧ s.f TET_STAT_STATE = 2 ∧ s.pin.tet.msg0 ≠
      none) ∧
    (∃ (s : State), s.Calm ∧ s.f TET_STAT_STATE = 2 ∧ s.pin.tet.msg0 = none ∧ s.pin.tet.msg1 = none ∧ s.pin.tet.due1 = []) :=
  ⟨⟨{ regsAre [(TET_STAT, 2 * 2 ^ 30), (CLK_GATE_EN1, 127), (TET_OE_HI, 3)] with fab := { Fabric.init with outputsOn := true } }, 2 ^ 64 - 2, by decide +kernel⟩,
    ⟨{ regsAre [(TET_STAT, 2 * 2 ^ 30), (CLK_GATE_EN1, 127)] with pin := { Pins.init with tet := { Tether.init with msg0 := some (5, 6) } } }, 2 ^ 32 - 2, by decide +kernel⟩,
    ⟨regsAre [(TET_STAT, 2 * 2 ^ 30), (CFG_STRAP, 5)], by decide +kernel⟩⟩

theorem wit_Tether_2 :
    (∃ (s : State) (o e : Nat), s.Calm ∧ s.pin.tet.msg0 = some (o, e) ∧ s.pin.tet.due0 = false ∧ o < 2 ^ 64 ∧ e < 2 ^ 64 ∧
      s.pin.tet.telling = false) ∧
    (∃ (s : State) (o e : Nat) (up : List (Nat × Nat)), s.Calm ∧ s.pin.tet.msg0 = some (o, e) ∧ s.pin.tet.due0 = false ∧ tetPass 1
      s.pin.tet.seq0 (toBytes 8 o ++ toBytes 8 e) up = none ∧ s.pin.tet.telling = false) ∧
    (∃ (s : State) (o e : Nat), s.Calm ∧ s.pin.tet.msg0 = some (o, e) ∧ s.pin.tet.due0 = false ∧ o < 2 ^ 64 ∧ e < 2 ^ 64 ∧
      s.pin.tet.telling = true ∧ s.pin.tet.msg1 = none ∧ s.pin.tet.due1 = []) :=
  ⟨⟨{ regsAre [(TET_STAT, 2 * 2 ^ 30)] with pin := { Pins.init with tet := { Tether.init with msg0 := some (2 ^ 63 + 5, 2 ^ 63 + 6), seq0 := 255 } } }, 2 ^ 63 + 5, 2 ^ 63 + 6, by decide +kernel⟩,
    ⟨{ regsAre [(TET_STAT, 2 * 2 ^ 30)] with pin := { Pins.init with tet := { Tether.init with msg0 := some (5, 6) } } }, 5, 6, [(9, 1)], by decide +kernel⟩,
    ⟨{ regsAre [(TET_STAT, 2 * 2 ^ 30)] with pin := { Pins.init with tet := { Tether.init with msg0 := some (5, 6), telling := true } } }, 5, 6, by decide +kernel⟩⟩

theorem wit_Tether_3 :
    (∃ (s : State) (p : Option Nat), s.Calm ∧ s.pin.tet.msg1 = some (.cfg p) ∧ s.pin.tet.due1 = [] ∧ (∀ q ∈ p, q < 4) ∧ s.pin.tet.telling
      = false) ∧
    (∃ (s : State) (a0 b0 : Word), s.Calm ∧ s.pin.tet.msg1 = some (.clk a0 b0) ∧ s.pin.tet.due1 = [] ∧ s.pin.tet.telling = false) ∧
    (∃ (s : State) (m : Nat), s.Calm ∧ s.pin.tet.msg1 = some (.pulse m) ∧ s.pin.tet.due1 = [] ∧ m < 2 ^ 64 ∧ s.pin.tet.telling = false) :=
  ⟨⟨{ regsAre [(TET_STAT, 2 * 2 ^ 30)] with pin := { Pins.init with tet := { Tether.init with msg1 := some (.cfg (some 2)) } } }, some 2, by decide +kernel⟩,
    ⟨{ regsAre [(TET_STAT, 2 * 2 ^ 30)] with pin := { Pins.init with tet := { Tether.init with msg1 := some (.clk 5 0x80000006) } } }, 5#32, 0x80000006#32, by decide +kernel⟩,
    ⟨{ regsAre [(TET_STAT, 2 * 2 ^ 30)] with pin := { Pins.init with tet := { Tether.init with silent := false, msg1 := some (.pulse 3) } } }, 3, by decide +kernel⟩⟩

theorem wit_Tether_4 :
    (∃ (s : State) (up : List (Nat × Nat)) (p : Option Nat), s.Calm ∧ s.pin.tet.msg1 = some (.cfg p) ∧ s.pin.tet.due1 = [] ∧ tetPass (.cfg
      p : TetMsg).body.1 s.pin.tet.seq1 (.cfg p : TetMsg).body.2 up = none ∧ s.pin.tet.telling = false) ∧
    (∃ (s : State) (up : List (Nat × Nat)) (a0 b0 : Word), s.Calm ∧ s.pin.tet.msg1 = some (.clk a0 b0) ∧ s.pin.tet.due1 = [] ∧ tetPass
      (.clk a0 b0 : TetMsg).body.1 s.pin.tet.seq1 (.clk a0 b0 : TetMsg).body.2 up = none ∧ s.pin.tet.telling = false) ∧
    (∃ (s : State) (up : List (Nat × Nat)) (m : Nat), s.Calm ∧ s.pin.tet.msg1 = some (.pulse m) ∧ s.pin.tet.due1 = [] ∧ tetPass (.pulse m
      : TetMsg).body.1 s.pin.tet.seq1 (.pulse m : TetMsg).body.2 up = none ∧ s.pin.tet.telling = false) :=
  ⟨⟨{ regsAre [(TET_STAT, 2 * 2 ^ 30)] with pin := { Pins.init with tet := { Tether.init with msg1 := some (.cfg (some 2)) } } }, [(9, 1)], some 2, by decide +kernel⟩,
    ⟨{ regsAre [(TET_STAT, 2 * 2 ^ 30)] with pin := { Pins.init with tet := { Tether.init with msg1 := some (.clk 5 6) } } }, [(9, 1)], 5#32, 6#32, by decide +kernel⟩,
    ⟨{ regsAre [(TET_STAT, 2 * 2 ^ 30)] with pin := { Pins.init with tet := { Tether.init with msg1 := some (.pulse 3) } } }, [(9, 1)], 3, by decide +kernel⟩⟩

theorem wit_Tether_5 :
    (∃ (s : State) (v : Nat), s.Calm ∧ v < 2 ^ 64 ∧ s.f TET_STAT_STATE ≠ 0) ∧
    (∃ (s : State) (v : Nat) (up : List (Nat × Nat)), s.Calm ∧ s.f TET_STAT_STATE ≠ 0 ∧ tetPass 17 s.pin.tet.seq2 (toBytes 8 v) up = none) ∧
    (∃ (s : State) (vt : Nat), s.Calm ∧ vt < 4096 ∧ s.f TET_CTRL_VT_MIN ≤ vt ∧ s.f TET_STAT_STATE = 1 ∧ s.pin.tet.msg0 = none ∧
      s.pin.tet.msg1 = none ∧ s.pin.tet.due1 = []) :=
  ⟨⟨regsAre [(TET_STAT, 3 * 2 ^ 30)], 2 ^ 64 - 2, by decide +kernel⟩,
    ⟨regsAre [(TET_STAT, 3 * 2 ^ 30 + 255)], 5, [(9, 1)], by decide +kernel⟩,
    ⟨{ regsAre [(TET_STAT, 2 ^ 30)] with pin := { Pins.init with tet := { Tether.init with khz0 := 5, khz1 := 2 ^ 18 - 1 } } }, 4095, by decide +kernel⟩⟩

theorem wit_Tether_6 :
    (∃ (s : State), s.Calm ∧ s.f TET_STAT_STATE = 2 ∧ s.on TET_CTRL_STOP_POL = false) ∧
    (∃ (s : State), s.Calm) ∧
    (∃ (s : State) (k0 k1 : Nat), s.Calm) :=
  ⟨⟨{ regsAre [(TET_STAT, 2 * 2 ^ 30)] with pin := { Pins.init with tet := { Tether.init with msg1 := some (.pulse 3) } } }, by decide +kernel⟩,
    ⟨{ regsAre [(TET_STAT, 2 * 2 ^ 30)] with pin := { Pins.init with tet := { Tether.init with silent := false, pulse := 3 } } }, by decide +kernel⟩,
    ⟨State.reset, 5, 2 ^ 18, by decide +kernel⟩⟩

end
end

section
/-! SUPPORT. Scope (file 00, R5, R10, R13): every command completes and what a FIG edge counts, the state after reset, power-on reset, and a
register write that does not follow its access code. -/

namespace Sys2Proof.Machine

/-! ### Every command completes -/

/-- A command whose meaning is a next state that leaves FIG_COUNT alone: the form in which the laws of each meaning serve `exec`. -/
theorem completes_of_only {i : Instr} {s t : State} {m : Nat} (he : exec i s = .next t)
    (ho : ∀ t', exec i s = .next t' → Only m s t') (hm : m &&& 1048573 = m := by decide) :
    ∃ t, exec i s = .next t ∧ Only 1048573 s t :=
  ⟨t, he, (ho t he).mono hm⟩

/-- Every command but POR completes, and changes neither the queue nor FIG_COUNT (bit 1 of the mask). -/
theorem exec_completes (i : Instr) (s : State) (hpor : ∀ (b p : Nat) (e : Bool), i ≠ .por b p e) :
    ∃ t, exec i s = .next t ∧ Only 1048573 s t := by
  cases i with
  | registerWrite src off v => exact completes_of_only rfl (execRegisterWrite_only src off v s)
  | por boot pull fuseErr => exact absurd rfl (hpor boot pull fuseErr)
  | glitchDetect => exact completes_of_only rfl (execGlitchDetect_only s)
  | devOrdFence src => exact completes_of_only rfl (execDevOrdFence_only src s)
  | fenceComplete src => exact completes_of_only rfl (execFenceComplete_only src s)
  | bow up flips => exact completes_of_only rfl (execBow_only up flips s)
  | inboundCrossing g => exact completes_of_only rfl (execInboundCrossing_only g s)
  | outboundCrossing g => exact completes_of_only rfl (execOutboundCrossing_only g s)
  | apertureInboundWrite n w r v => exact completes_of_only rfl (execApertureInboundWrite_only n w r v s)
  | apertureLoRead n w out => exact completes_of_only rfl (execApertureLoRead_only n w out s)
  | masterRequest n => exact completes_of_only rfl (execMasterRequest_only n s)
  | masterFence n => exact completes_of_only rfl (execMasterFence_only n s)
  | masterResponse n => exact completes_of_only rfl (execMasterResponse_only n s)
  | targetRequest n id => exact completes_of_only rfl (execTargetRequest_only n id s)
  | targetResponse n => exact completes_of_only rfl (execTargetResponse_only n s)
  | bramPortAccess m a b up => exact completes_of_only rfl (execBramPortAccess_only m a b up s)
  | sliceUpdate sls => exact completes_of_only rfl (execSliceUpdate_only sls s)
  | walkRow n up => exact completes_of_only rfl (execWalkRow_only n up s)
  | copyoutDrain j up => exact completes_of_only rfl (execCopyoutDrain_only j up s)
  | trimWindowEnd c => exact completes_of_only rfl (execTrimWindowEnd_only c s)
  | trimRefMissing => exact completes_of_only rfl (execTrimRefMissing_only s)
  | pllSettingChange p w => exact completes_of_only rfl (execPllSettingChange_only p w s)
  | pllLock p => exact completes_of_only rfl (execPllLock_only p s)
  | pllLockTimeout p => exact completes_of_only rfl (execPllLockTimeout_only p s)
  | pllUnlock p => exact completes_of_only rfl (execPllUnlock_only p s)
  | dividerChange a => exact completes_of_only rfl (execDividerChange_only a s)
  | clockSwitchRequest m src => exact completes_of_only rfl (execClockSwitchRequest_only m src s)
  | clockSwitchDone m => exact completes_of_only rfl (execClockSwitchDone_only m s)
  | clockSwitchForced m => exact completes_of_only rfl (execClockSwitchForced_only m s)
  | gateClose j => exact completes_of_only rfl (execGateClose_only j s)
  | gateStop j => exact completes_of_only rfl (execGateStop_only j s)
  | gateTimeout j => exact completes_of_only rfl (execGateTimeout_only j s)
  | gateOpen j => exact completes_of_only rfl (execGateOpen_only j s)
  | clockMonitorWindow m c => exact completes_of_only rfl (execClockMonitorWindow_only m c s)
  | clockAbsent m => exact completes_of_only rfl (execClockAbsent_only m s)
  | fullLoad src auto img => exact completes_of_only rfl (execFullLoad_only src auto img s)
  | partialLoad src img => exact completes_of_only rfl (execPartialLoad_only src img s)
  | firmwareLoad src img => exact completes_of_only rfl (execFirmwareLoad_only src img s)
  | tablesLoad src img => exact completes_of_only rfl (execTablesLoad_only src img s)
  | blank => exact completes_of_only rfl (execBlank_only s)
  | cfgStart => exact completes_of_only rfl (execCfgStart_only s)
  | startUpStep => exact completes_of_only rfl (execStartUpStep_only s)
  | cfgAbort => exact completes_of_only rfl (execCfgAbort_only s)
  | sourceTimeout => exact completes_of_only rfl (execSourceTimeout_only s)
  | framesRecord => exact completes_of_only rfl (execFramesRecord_only s)
  | repeatRecord => exact completes_of_only rfl (execRepeatRecord_only s)
  | zeroRecord => exact completes_of_only rfl (execZeroRecord_only s)
  | contentRecord => exact completes_of_only rfl (execContentRecord_only s)
  | contentZeroRecord => exact completes_of_only rfl (execContentZeroRecord_only s)
  | fenceRecord => exact completes_of_only rfl (execFenceRecord_only s)
  | endRecord => exact completes_of_only rfl (execEndRecord_only s)
  | writeRecord => exact completes_of_only rfl (execWriteRecord_only s)
  | bayReadback up => exact completes_of_only rfl (execBayReadback_only up s)
  | prArm mode relFirst bay => exact completes_of_only rfl (execPrArm_only mode relFirst bay s)
  | prCancel => exact completes_of_only rfl (execPrCancel_only s)
  | claimMapRebuild => exact completes_of_only rfl (execClaimMapRebuild_only s)
  | scrubFrameRead up see => exact completes_of_only rfl (execScrubFrameRead_only up see s)
  | taskDispatch ues qs => exact completes_of_only rfl (execTaskDispatch_only ues qs s)
  | callerNop u ue => exact completes_of_only rfl (execCallerNop_only u ue s)
  | callerCapture u ue => exact completes_of_only rfl (execCallerCapture_only u ue s)
  | callerDeliver u e ue => exact completes_of_only rfl (execCallerDeliver_only u e ue s)
  | capsend u ue => exact completes_of_only rfl (execCapsend_only u ue s)
  | callerSend u e ue => exact completes_of_only rfl (execCallerSend_only u e ue s)
  | callerCopy u e ue => exact completes_of_only rfl (execCallerCopy_only u e ue s)
  | callerLoad u ue => exact completes_of_only rfl (execCallerLoad_only u ue s)
  | callerStore u e ue => exact completes_of_only rfl (execCallerStore_only u e ue s)
  | callerDelay u ue => exact completes_of_only rfl (execCallerDelay_only u ue s)
  | setclk u ue => exact completes_of_only rfl (execSetclk_only u ue s)
  | callerFence u ue => exact completes_of_only rfl (execCallerFence_only u ue s)
  | callerMeshResponse t ue => exact completes_of_only rfl (execCallerMeshResponse_only t ue s)
  | dlistExpiry l => exact completes_of_only rfl (execDlistExpiry_only l s)
  | bundleArrival n ecc hdr => exact completes_of_only rfl (execBundleArrival_only n ecc hdr s)
  | spillReadback q up => exact completes_of_only rfl (execSpillReadback_only q up s)
  | callerDone => exact completes_of_only rfl (execCallerDone_only s)
  | callerStall => exact completes_of_only rfl (execCallerStall_only s)
  | clrFault t => exact completes_of_only rfl (execClrFault_only t s)
  | taskFlagWrite t hi v => exact completes_of_only rfl (execTaskFlagWrite_only t hi v s)
  | swapGo mode => exact completes_of_only rfl (execSwapGo_only mode s)
  | syncGo => exact completes_of_only rfl (execSyncGo_only s)
  | syncDone => exact completes_of_only rfl (execSyncDone_only s)
  | qportPush poison => exact completes_of_only rfl (execQportPush_only poison s)
  | qportPop e up => exact completes_of_only rfl (execQportPop_only e up s)
  | localReady => exact completes_of_only rfl (execLocalReady_only s)
  | bowAnnounce => exact completes_of_only rfl (execBowAnnounce_only s)
  | roundOverrun => exact completes_of_only rfl (execRoundOverrun_only s)
  | latStart steps => exact completes_of_only rfl (execLatStart_only steps s)
  | latResume steps => exact completes_of_only rfl (execLatResume_only steps s)
  | stopAbs => exact completes_of_only rfl (execStopAbs_only s)
  | stopRel => exact completes_of_only rfl (execStopRel_only s)
  | stopNow => exact completes_of_only rfl (execStopNow_only s)
  | resetLocal => exact completes_of_only rfl (execResetLocal_only s)
  | resetLattice => exact completes_of_only rfl (execResetLattice_only s)
  | resetEdge => exact completes_of_only rfl (execResetEdge_only s)
  | sectorResetRequest mask => exact completes_of_only rfl (execSectorResetRequest_only mask s)
  | startMessage n slots e hdr => exact completes_of_only rfl (execStartMessage_only n slots e hdr s)
  | stopMessage n slots e hdr => exact completes_of_only rfl (execStopMessage_only n slots e hdr s)
  | resetMessage n slots e hdr => exact completes_of_only rfl (execResetMessage_only n slots e hdr s)
  | startEdge => exact completes_of_only rfl (execStartEdge_only s)
  | bowToken n slots e hdr => exact completes_of_only rfl (execBowToken_only n slots e hdr s)
  | holdToken n slots e hdr => exact completes_of_only rfl (execHoldToken_only n slots e hdr s)
  | relayToken n slots e hdr => exact completes_of_only rfl (execRelayToken_only n slots e hdr s)
  | runToken n slots e hdr => exact completes_of_only rfl (execRunToken_only n slots e hdr s)
  | peerLost j => exact completes_of_only rfl (execPeerLost_only j s)
  | nodeOnline => exact completes_of_only rfl (execNodeOnline_only s)
  | beatForm => exact completes_of_only rfl (execBeatForm_only s)
  | beatMark n slots => exact completes_of_only rfl (execBeatMark_only n slots s)
  | bulkFrameBuild n => exact completes_of_only rfl (execBulkFrameBuild_only n s)
  | bulkFrame n slots => exact completes_of_only rfl (execBulkFrame_only n slots s)
  | cutIn n slots => exact completes_of_only rfl (execCutIn_only n slots s)
  | transitForward n p e hdr => exact completes_of_only rfl (execTransitForward_only n p e hdr s)
  | retryRequest n slots ue hdr => exact completes_of_only rfl (execRetryRequest_only n slots ue hdr s)
  | retryTimeout n => exact completes_of_only rfl (execRetryTimeout_only n s)
  | replayTimeout n ue hdr => exact completes_of_only rfl (execReplayTimeout_only n ue hdr s)
  | creditSlot n slots => exact completes_of_only rfl (execCreditSlot_only n slots s)
  | spareReq n slots => exact completes_of_only rfl (execSpareReq_only n slots s)
  | spareMirror n slots => exact completes_of_only rfl (execSpareMirror_only n slots s)
  | spareAck n slots => exact completes_of_only rfl (execSpareAck_only n slots s)
  | spareRetReq n slots => exact completes_of_only rfl (execSpareRetReq_only n slots s)
  | spareRetMirror n slots => exact completes_of_only rfl (execSpareRetMirror_only n slots s)
  | spareRetAck n slots => exact completes_of_only rfl (execSpareRetAck_only n slots s)
  | skipSlot n slots => exact completes_of_only rfl (execSkipSlot_only n slots s)
  | signalDetect n mask => exact completes_of_only rfl (execSignalDetect_only n mask s)
  | trainingSequence n lanes => exact completes_of_only rfl (execTrainingSequence_only n lanes s)
  | adaptDone n codes => exact completes_of_only rfl (execAdaptDone_only n codes s)
  | trainingTimeout n => exact completes_of_only rfl (execTrainingTimeout_only n s)
  | backoffEnd n => exact completes_of_only rfl (execBackoffEnd_only n s)
  | lossOfSignal n l => exact completes_of_only rfl (execLossOfSignal_only n l s)
  | linkTmo n => exact completes_of_only rfl (execLinkTmo_only n s)
  | retrain n => exact completes_of_only rfl (execRetrain_only n s)
  | restart n => exact completes_of_only rfl (execRestart_only n s)
  | spareGo n lane => exact completes_of_only rfl (execSpareGo_only n lane s)
  | recal n l => exact completes_of_only rfl (execRecal_only n l s)
  | degradeWindow n => exact completes_of_only rfl (execDegradeWindow_only n s)
  | eyeScanGo n w => exact completes_of_only rfl (execEyeScanGo_only n w s)
  | eyeScanDone n errs abort => exact completes_of_only rfl (execEyeScanDone_only n errs abort s)
  | tailCaptureGo mode => exact completes_of_only rfl (execTailCaptureGo_only mode s)
  | drainStep up => exact completes_of_only rfl (execDrainStep_only up s)
  | captureComplete => exact completes_of_only rfl (execCaptureComplete_only s)
  | mapRebuild k => exact completes_of_only rfl (execMapRebuild_only k s)
  | tailDiscard j => exact completes_of_only rfl (execTailDiscard_only j s)
  | triggerFire u => exact completes_of_only rfl (execTriggerFire_only u s)
  | triggerRearm u => exact completes_of_only rfl (execTriggerRearm_only u s)
  | ringRecord k up => exact completes_of_only rfl (execRingRecord_only k up s)
  | reelinGo slot => exact completes_of_only rfl (execReelinGo_only slot s)
  | reelinAbort => exact completes_of_only rfl (execReelinAbort_only s)
  | reelinArmed => exact completes_of_only rfl (execReelinArmed_only s)
  | restoreEdge => exact completes_of_only rfl (execRestoreEdge_only s)
  | reelinDone => exact completes_of_only rfl (execReelinDone_only s)
  | exportSlot keySlot slot => exact completes_of_only rfl (execExportSlot_only keySlot slot s)
  | importSlot keySlot => exact completes_of_only rfl (execImportSlot_only keySlot s)
  | transferAbort => exact completes_of_only rfl (execTransferAbort_only s)
  | transferEnd gdl box => exact completes_of_only rfl (execTransferEnd_only gdl box s)
  | meshRequest src fl stuck => exact completes_of_only rfl (execMeshRequest_only src fl stuck s)
  | meshResponse src tag lat fl => exact completes_of_only rfl (execMeshResponse_only src tag lat fl s)
  | iniTmo src tag => exact completes_of_only rfl (execIniTmo_only src tag s)
  | absorb t => exact completes_of_only rfl (execAbsorb_only t s)
  | meshResume t => exact completes_of_only rfl (execMeshResume_only t s)
  | meshMonitorWindow => exact completes_of_only rfl (execMeshMonitorWindow_only s)
  | clrHist => exact completes_of_only rfl (execClrHist_only s)
  | irqMsg c j fl => exact completes_of_only rfl (execIrqMsg_only c j fl s)
  | hbmRead k j up par => exact completes_of_only rfl (execHbmRead_only k j up par s)
  | fullLineWrite k j par => exact completes_of_only rfl (execFullLineWrite_only k j par s)
  | partialWrite k j up par => exact completes_of_only rfl (execPartialWrite_only k j up par s)
  | tempRead k temp => exact completes_of_only rfl (execTempRead_only k temp s)
  | selfRefreshExit k => exact completes_of_only rfl (execSelfRefreshExit_only k s)
  | memInit => exact completes_of_only rfl (execMemInit_only s)
  | initDone keys fail => exact completes_of_only rfl (execInitDone_only keys fail s)
  | memRekey keys => exact completes_of_only rfl (execMemRekey_only keys s)
  | sweepLine k up => exact completes_of_only rfl (execSweepLine_only k up s)
  | leakWindow n bad => exact completes_of_only rfl (execLeakWindow_only n bad s)
  | counterPropagate => exact completes_of_only rfl (execCounterPropagate_only s)
  | intLogPop => exact completes_of_only rfl (execIntLogPop_only s)
  | macMpy c w flip => exact completes_of_only rfl (execMacMpy_only c w flip s)
  | macMac c w flip => exact completes_of_only rfl (execMacMac_only c w flip s)
  | macMsu c w flip => exact completes_of_only rfl (execMacMsu_only c w flip s)
  | macMpyu c w flip => exact completes_of_only rfl (execMacMpyu_only c w flip s)
  | macMacu c w flip => exact completes_of_only rfl (execMacMacu_only c w flip s)
  | macMacsu c w flip => exact completes_of_only rfl (execMacMacsu_only c w flip s)
  | macClr c w flip => exact completes_of_only rfl (execMacClr_only c w flip s)
  | movesOnly c w => exact completes_of_only rfl (execMovesOnly_only c w s)
  | aluAdd c w => exact completes_of_only rfl (execAluAdd_only c w s)
  | aluSub c w => exact completes_of_only rfl (execAluSub_only c w s)
  | aluAdc c w => exact completes_of_only rfl (execAluAdc_only c w s)
  | aluSbc c w => exact completes_of_only rfl (execAluSbc_only c w s)
  | aluAnd c w => exact completes_of_only rfl (execAluAnd_only c w s)
  | aluOr c w => exact completes_of_only rfl (execAluOr_only c w s)
  | aluXor c w => exact completes_of_only rfl (execAluXor_only c w s)
  | aluShl c w => exact completes_of_only rfl (execAluShl_only c w s)
  | aluShr c w => exact completes_of_only rfl (execAluShr_only c w s)
  | aluSar c w => exact completes_of_only rfl (execAluSar_only c w s)
  | aluCmp c w => exact completes_of_only rfl (execAluCmp_only c w s)
  | aluTst c w => exact completes_of_only rfl (execAluTst_only c w s)
  | aluMin c w => exact completes_of_only rfl (execAluMin_only c w s)
  | aluMax c w => exact completes_of_only rfl (execAluMax_only c w s)
  | aluAddp c w => exact completes_of_only rfl (execAluAddp_only c w s)
  | aluAsh c w => exact completes_of_only rfl (execAluAsh_only c w s)
  | aluAsat c w => exact completes_of_only rfl (execAluAsat_only c w s)
  | aluArnd c w => exact completes_of_only rfl (execAluArnd_only c w s)
  | aluAadd c w => exact completes_of_only rfl (execAluAadd_only c w s)
  | lsLoad c w => exact completes_of_only rfl (execLsLoad_only c w s)
  | lsStore c w => exact completes_of_only rfl (execLsStore_only c w s)
  | lineLoad c w => exact completes_of_only rfl (execLineLoad_only c w s)
  | lineStore c w => exact completes_of_only rfl (execLineStore_only c w s)
  | atomLr c w => exact completes_of_only rfl (execAtomLr_only c w s)
  | atomSc c w => exact completes_of_only rfl (execAtomSc_only c w s)
  | brBra c w => exact completes_of_only rfl (execBrBra_only c w s)
  | brBcc c w => exact completes_of_only rfl (execBrBcc_only c w s)
  | brCall c w => exact completes_of_only rfl (execBrCall_only c w s)
  | brJmp c w => exact completes_of_only rfl (execBrJmp_only c w s)
  | brCallr c w => exact completes_of_only rfl (execBrCallr_only c w s)
  | brRet c w => exact completes_of_only rfl (execBrRet_only c w s)
  | brReti c w => exact completes_of_only rfl (execBrReti_only c w s)
  | brRep c w => exact completes_of_only rfl (execBrRep_only c w s)
  | brRepr c w => exact completes_of_only rfl (execBrRepr_only c w s)
  | brBrk c w => exact completes_of_only rfl (execBrBrk_only c w s)
  | coreWait c w => exact completes_of_only rfl (execCoreWait_only c w s)
  | brNop c w => exact completes_of_only rfl (execBrNop_only c w s)
  | brLoopv c w => exact completes_of_only rfl (execBrLoopv_only c w s)
  | brTrap c w => exact completes_of_only rfl (execBrTrap_only c w s)
  | movx c w => exact completes_of_only rfl (execMovx_only c w s)
  | ldi c w => exact completes_of_only rfl (execLdi_only c w s)
  | ldih c w => exact completes_of_only rfl (execLdih_only c w s)
  | interruptEntry c => exact completes_of_only rfl (execInterruptEntry_only c s)
  | windowLoadResponse c => exact completes_of_only rfl (execWindowLoadResponse_only c s)
  | postedStoreError c => exact completes_of_only rfl (execPostedStoreError_only c s)
  | timerEnable c j w => exact completes_of_only rfl (execTimerEnable_only c j w s)
  | timerExpiry c j => exact completes_of_only rfl (execTimerExpiry_only c j s)
  | watchdogEnable c w => exact completes_of_only rfl (execWatchdogEnable_only c w s)
  | watchdogKick c v => exact completes_of_only rfl (execWatchdogKick_only c v s)
  | watchdogWindowOpen c => exact completes_of_only rfl (execWatchdogWindowOpen_only c s)
  | watchdogExpiry c => exact completes_of_only rfl (execWatchdogExpiry_only c s)
  | watchdogReset c => exact completes_of_only rfl (execWatchdogReset_only c s)
  | coreHold c => exact completes_of_only rfl (execCoreHold_only c s)
  | coreRelease c => exact completes_of_only rfl (execCoreRelease_only c s)
  | selfReset c => exact completes_of_only rfl (execSelfReset_only c s)
  | stMemData c wr v => exact completes_of_only rfl (execStMemData_only c wr v s)
  | doorbell c v => exact completes_of_only rfl (execDoorbell_only c v s)
  | swirq c v => exact completes_of_only rfl (execSwirq_only c v s)
  | semLr src j => exact completes_of_only rfl (execSemLr_only src j s)
  | semSc src j v => exact completes_of_only rfl (execSemSc_only src j v s)
  | semWrite j v => exact completes_of_only rfl (execSemWrite_only j v s)
  | testLogicReset => exact completes_of_only rfl (execTestLogicReset_only s)
  | extest v env => exact completes_of_only rfl (execExtest_only v env s)
  | samplePreload v env => exact completes_of_only rfl (execSamplePreload_only v env s)
  | idcode => exact completes_of_only rfl (execIdcode_only s)
  | clamp => exact completes_of_only rfl (execClamp_only s)
  | highz => exact completes_of_only rfl (execHighz_only s)
  | extestPulse v env => exact completes_of_only rfl (execExtestPulse_only v env s)
  | extestTrain v env => exact completes_of_only rfl (execExtestTrain_only v env s)
  | dbgReg => exact completes_of_only rfl (execDbgReg_only s)
  | auth => exact completes_of_only rfl (execAuth_only s)
  | cfgData => exact completes_of_only rfl (execCfgData_only s)
  | bypass code => exact completes_of_only rfl (execBypass_only code s)
  | debugRead addr consume => exact completes_of_only rfl (execDebugRead_only addr consume s)
  | debugWrite addr consume v => exact completes_of_only rfl (execDebugWrite_only addr consume v s)
  | debugAccessDone => exact completes_of_only rfl (execDebugAccessDone_only s)
  | challengeRequest nonce => exact completes_of_only rfl (execChallengeRequest_only nonce s)
  | responseWord w => exact completes_of_only rfl (execResponseWord_only w s)
  | authCheck => exact completes_of_only rfl (execAuthCheck_only s)
  | cfgDataWord w => exact completes_of_only rfl (execCfgDataWord_only w s)
  | dbgAttach src => exact completes_of_only rfl (execDbgAttach_only src s)
  | dbgDetach src => exact completes_of_only rfl (execDbgDetach_only src s)
  | dbgHalt src c => exact completes_of_only rfl (execDbgHalt_only src c s)
  | haltEntry c => exact completes_of_only rfl (execHaltEntry_only c s)
  | breakpoint c => exact completes_of_only rfl (execBreakpoint_only c s)
  | dbgResume src c => exact completes_of_only rfl (execDbgResume_only src c s)
  | dbgStep src c => exact completes_of_only rfl (execDbgStep_only src c s)
  | dbgFeed src c w => exact completes_of_only rfl (execDbgFeed_only src c w s)
  | coreRegisterAccess src c pc wr => exact completes_of_only rfl (execCoreRegisterAccess_only src c pc wr s)
  | ballastWindow m temps => exact completes_of_only rfl (execBallastWindow_only m temps s)
  | consumerOver m => exact completes_of_only rfl (execConsumerOver_only m s)
  | memoryPortStop m => exact completes_of_only rfl (execMemoryPortStop_only m s)
  | droopTrip die => exact completes_of_only rfl (execDroopTrip_only die s)
  | droopRelease => exact completes_of_only rfl (execDroopRelease_only s)
  | powerRequest st => exact completes_of_only rfl (execPowerRequest_only st s)
  | powerWake soft => exact completes_of_only rfl (execPowerWake_only soft s)
  | powerTransitionEnd => exact completes_of_only rfl (execPowerTransitionEnd_only s)
  | ltrUpdate snoop noSnoop enable => exact completes_of_only rfl (execLtrUpdate_only snoop noSnoop enable s)
  | hostTlp p => exact completes_of_only rfl (execHostTlp_only p s)
  | hostCompletion what ok ep data up => exact completes_of_only rfl (execHostCompletion_only what ok ep data up s)
  | hostTimeout what => exact completes_of_only rfl (execHostTimeout_only what s)
  | hotReset => exact completes_of_only rfl (execHotReset_only s)
  | pcieLinkUp speed width => exact completes_of_only rfl (execPcieLinkUp_only speed width s)
  | deviceIrq j => exact completes_of_only rfl (execDeviceIrq_only j s)
  | msixMessage v => exact completes_of_only rfl (execMsixMessage_only v s)
  | ringEnable r v => exact completes_of_only rfl (execRingEnable_only r v s)
  | ringDoorbell r v => exact completes_of_only rfl (execRingDoorbell_only r v s)
  | descriptorStart r fetched => exact completes_of_only rfl (execDescriptorStart_only r fetched s)
  | descriptorComplete r up => exact completes_of_only rfl (execDescriptorComplete_only r up s)
  | bind src late => exact completes_of_only rfl (execBind_only src late s)
  | progSk src slot late => exact completes_of_only rfl (execProgSk_only src slot late s)
  | revokeSk src slot late => exact completes_of_only rfl (execRevokeSk_only src slot late s)
  | progDbg src late => exact completes_of_only rfl (execProgDbg_only src late s)
  | progKey src slot late => exact completes_of_only rfl (execProgKey_only src slot late s)
  | incVersion src late => exact completes_of_only rfl (execIncVersion_only src late s)
  | fuseCommandDone fail => exact completes_of_only rfl (execFuseCommandDone_only fail s)
  | keySlotLoad src slot late => exact completes_of_only rfl (execKeySlotLoad_only src slot late s)
  | keySlotClear src slot late => exact completes_of_only rfl (execKeySlotClear_only src slot late s)
  | unlockOpen src reg => exact completes_of_only rfl (execUnlockOpen_only src reg s)
  | alarmRaise src => exact completes_of_only rfl (execAlarmRaise_only src s)
  | alarmClear src mask => exact completes_of_only rfl (execAlarmClear_only src mask s)
  | rngHealthFail => exact completes_of_only rfl (execRngHealthFail_only s)
  | ownerChange wr => exact completes_of_only rfl (execOwnerChange_only wr s)
  | gpioSet b v => exact completes_of_only rfl (execGpioSet_only b v s)
  | gpioClr b v => exact completes_of_only rfl (execGpioClr_only b v s)
  | bankSupplyChange b range => exact completes_of_only rfl (execBankSupplyChange_only b range s)
  | uartTx u v => exact completes_of_only rfl (execUartTx_only u v s)
  | uartTransmitDone u n => exact completes_of_only rfl (execUartTransmitDone_only u n s)
  | uartReceive u v err => exact completes_of_only rfl (execUartReceive_only u v err s)
  | uartData u => exact completes_of_only rfl (execUartData_only u s)
  | i2cStart c fast => exact completes_of_only rfl (execI2cStart_only c fast s)
  | i2cWrite c v fast => exact completes_of_only rfl (execI2cWrite_only c v fast s)
  | i2cReadAck c fast => exact completes_of_only rfl (execI2cReadAck_only c fast s)
  | i2cReadNack c fast => exact completes_of_only rfl (execI2cReadNack_only c fast s)
  | i2cStop c fast => exact completes_of_only rfl (execI2cStop_only c fast s)
  | i2cCommandDone c data ack arb => exact completes_of_only rfl (execI2cCommandDone_only c data ack arb s)
  | i2cTimeout c => exact completes_of_only rfl (execI2cTimeout_only c s)
  | spiTx v => exact completes_of_only rfl (execSpiTx_only v s)
  | spiFrameDone v => exact completes_of_only rfl (execSpiFrameDone_only v s)
  | spiData => exact completes_of_only rfl (execSpiData_only s)
  | trigPulse k => exact completes_of_only rfl (execTrigPulse_only k s)
  | trigPulseEnd k => exact completes_of_only rfl (execTrigPulseEnd_only k s)
  | trigInputEdge k lvl => exact completes_of_only rfl (execTrigInputEdge_only k lvl s)
  | gondolaPoll ack rec => exact completes_of_only rfl (execGondolaPoll_only ack rec s)
  | gondolaToHbm len => exact completes_of_only rfl (execGondolaToHbm_only len s)
  | hbmToGondola len => exact completes_of_only rfl (execHbmToGondola_only len s)
  | gondolaAbort => exact completes_of_only rfl (execGondolaAbort_only s)
  | gondolaTransferEnd cause lines rec => exact completes_of_only rfl (execGondolaTransferEnd_only cause lines rec s)
  | tetOutWrite reg v => exact completes_of_only rfl (execTetOutWrite_only reg v s)
  | tetherRefresh => exact completes_of_only rfl (execTetherRefresh_only s)
  | outMsg up => exact completes_of_only rfl (execOutMsg_only up s)
  | cfgMsg up => exact completes_of_only rfl (execCfgMsg_only up s)
  | clkMsg up => exact completes_of_only rfl (execClkMsg_only up s)
  | pulseMsg up => exact completes_of_only rfl (execPulseMsg_only up s)
  | inMsg v up => exact completes_of_only rfl (execInMsg_only v up s)
  | statusMsg vt up => exact completes_of_only rfl (execStatusMsg_only vt up s)
  | tetherLoss => exact completes_of_only rfl (execTetherLoss_only s)
  | targetSilence => exact completes_of_only rfl (execTargetSilence_only s)
  | ckinWindow k0 k1 => exact completes_of_only rfl (execCkinWindow_only k0 k1 s)
  | lanesAligned n mask inv => exact completes_of_only rfl (execLanesAligned_only n mask inv s)
  | statusSlotDue n => exact completes_of_only rfl (execStatusSlotDue_only n s)
  | skipDue n => exact completes_of_only rfl (execSkipDue_only n s)
  | probeHit u => exact completes_of_only rfl (execProbeHit_only u s)
  | clearingRead src off => exact completes_of_only rfl (execClearingRead_only src off s)
  | counterParityRead n bad => exact completes_of_only rfl (execCounterParityRead_only n bad s)
  | ballInputChange ch => exact completes_of_only rfl (execBallInputChange_only ch s)
  | claimMapRebuildDone => exact completes_of_only rfl (execClaimMapRebuildDone_only s)
  | liveMapRebuildDone k => exact completes_of_only rfl (execLiveMapRebuildDone_only k s)
  | freeFfClockEdge m fall => exact completes_of_only rfl (execFreeFfClockEdge_only m fall s)
  | asyncSrAssert k => exact completes_of_only rfl (execAsyncSrAssert_only k s)
  -- SEAL, the one command left: its name is a keyword of Lean
  | _ src late => exact completes_of_only rfl (execSeal_only src late s)

/-- POR completes too; it starts FIG_COUNT anew, so its mask holds every part, and keeps the queue. -/
theorem execPor_completes (boot pull : Nat) (fuseErr : Bool) (s : State) :
    ∃ t, exec (.por boot pull fuseErr) s = .next t ∧ Only 1048575 s t :=
  ⟨_, rfl, execPor_only boot pull fuseErr s _ rfl⟩

/-! ### The FIG edge of an empty queue (log entry 1) -/

@[simp] theorem State.tickCounts_fig (s : State) : s.tickCounts.fig = s.fig + 1 := by
  unfold State.tickCounts State.when
  dsimp only
  split <;> split <;> rfl

/-- What a FIG edge does before its counts. -/
def State.tickBefore (s : State) : State := (s.cntEdge.setTail { s.cntEdge.tail with taskHit := [], sampled := [] }).trigArms

/-- The CORE edges of a FIG edge: at every even FIG_COUNT (R17). -/
def State.tickCores (s : State) : State := if s.fig.toNat % 2 = 0 then s.each (List.range 17) (fun c t => t.coreEdge c) else s

/-- A FIG edge, cut at its counts. -/
theorem State.tick_of_edge (s : State) (h : (s.figRuns && !s.edgeAwaits) = true) :
    s.tick = s.tickBefore.tickCounts.tickBuffers.tickPorts.tickStanding.tickCores.settle := if_pos h

theorem tickBefore_only (s : State) : Only 1048573 s s.tickBefore :=
  (trigArms_only _).after (by decide) ((setTail_only _ _).after (by decide) ((cntEdge_only s).mono (by decide)))

theorem tickCores_only (s : State) : Only 1048573 s s.tickCores :=
  Only.ite (Only.each _ _ (fun c t => (coreEdge_only t c).mono (by decide)) .refl) .refl

/-- Of a FIG edge only `tickCounts` touches FIG_COUNT: what comes after it leaves FIG_COUNT alone. -/
theorem tickAfter_only (s : State) : Only 1048573 s s.tickBuffers.tickPorts.tickStanding.tickCores.settle :=
  (settle_only _).after (by decide) ((tickCores_only _).after (by decide) ((tickStanding_only _).after (by decide)
    ((tickPorts_only _).after (by decide) (tickBuffers_only s))))

/-- A FIG edge counts 1 where FIG runs and nothing awaits its command, and is no edge otherwise. -/
theorem State.tick_fig (s : State) : s.tick.fig = if s.figRuns && !s.edgeAwaits then s.fig + 1 else s.fig := by
  split
  next h =>
    rw [s.tick_of_edge h]
    calc _ = s.tickBefore.tickCounts.fig := (tickAfter_only _).fig (by decide)
      _ = s.tickBefore.fig + 1 := s.tickBefore.tickCounts_fig
      _ = s.fig + 1 := by rw [(tickBefore_only s).fig (by decide)]
  next h => rw [State.tick, if_neg h]

/-- Settles O3: POR apart, `exec_completes` covers every command; `State.tick_fig` and the queue's law of the edge cover the empty queue. -/
theorem everyCommandCompletes : Obligations.EveryCommandCompletes := by
  unfold Obligations.EveryCommandCompletes
  refine ⟨fun i s => ?_, fun s hs => ⟨s.tick, by simp only [step, hs], (tick_only s).queue.trans hs, s.tick_fig⟩⟩
  by_cases hpor : ∀ (b p : Nat) (e : Bool), i ≠ .por b p e
  · obtain ⟨t, he, ho⟩ := exec_completes i s hpor
    exact ⟨t, he, ho.queue, fun _ => ho.fig (by decide)⟩
  · push Not at hpor
    obtain ⟨b, p, e, rfl⟩ := hpor
    obtain ⟨t, he, ho⟩ := execPor_completes b p e s
    exact ⟨t, he, ho.queue, fun h => absurd rfl (h b p e)⟩

/-! ### The mask of `Only` and the parts of a frame -/

/-- The bit of `Only`'s mask that stands for a part. -/
def Part.bit (p : Part) : Nat :=
  match p with
  | .fig => 1
  | .round => 2
  | .fab => 3
  | .clk => 4
  | .cfg => 5
  | .call => 6
  | .lat => 7
  | .port => 8
  | .tail => 9
  | .mesh => 10
  | .hbm => 11
  | .intg => 12
  | .core => 13
  | .sem => 14
  | .scan => 15
  | .bal => 16
  | .host => 17
  | .sec => 18
  | .pin => 19

/-- A part whose bit is 0 in the mask is the same. -/
theorem Only.same {m : Nat} {s t : State} (h : Only m s t) (p : Part) (hp : m.testBit p.bit = false) : p.Same s t := by
  cases p with
  | fig => exact h.fig hp
  | round => exact h.round hp
  | fab => exact h.fab hp
  | clk => exact h.clk hp
  | cfg => exact h.cfg hp
  | call => exact h.call hp
  | lat => exact h.lat hp
  | port => exact h.port hp
  | tail => exact h.tail hp
  | mesh => exact h.mesh hp
  | hbm => exact h.hbm hp
  | intg => exact h.intg hp
  | core => exact h.core hp
  | sem => exact h.sem hp
  | scan => exact h.scan hp
  | bal => exact h.bal hp
  | host => exact h.host hp
  | sec => exact h.sec hp
  | pin => exact h.pin hp

/-! ### The state after reset -/

/-- The register file of the reset state lists nothing, so every register reads as its Reset column. -/
@[simp] theorem State.reset_reg (a : Nat) : State.reset.reg a = resetWord a := rfl

/-- Settles O2: the tables of the reset state are empty, and the states in its registers are those of the register table. -/
theorem resetState : Obligations.ResetState := by
  unfold Obligations.ResetState
  have hcanon : State.reset.Canon := ⟨mwf_nil _, mwf_nil _⟩
  have hcalm : State.reset.Calm := ⟨rfl, by decide +kernel⟩
  exact ⟨hcanon, hcalm, State.reset_reg, rfl, rfl, rfl, by decide +kernel, by decide +kernel, by decide +kernel⟩

/-! ### Power-on reset (R13, R544) -/

/-- The registers that the straps and the fuses load at the end of POR. -/
def fuseLoaded : List Nat := [DEV_REV, CFG_STRAP, CLK_OSC_TRIM_CTRL, BAL_THERM_CFG, SEC_STATE, SEC_FUSE_STAT]

/-- The fuses show in two registers. -/
theorem State.fuseShow_reg (s : State) {a : Nat} (h1 : a ≠ SEC_FUSE_STAT) (h2 : a ≠ SEC_STATE) : s.fuseShow.reg a = s.reg a := by
  simp only [State.fuseShow, State.reg_put, h1.symm, h2.symm, if_false]

theorem State.fuseShow_f (s : State) {x : Fld} (h1 : x.addr ≠ SEC_FUSE_STAT) (h2 : x.addr ≠ SEC_STATE) : s.fuseShow.f x = s.f x :=
  congrArg (fget · x.hi x.lo) (s.fuseShow_reg h1 h2)

/-- Of SEC_STATE the fuses show in PENDING alone. -/
theorem State.fuseShow_secState (s : State) : s.fuseShow.secState = s.secState := by
  unfold State.secState State.fuseShow
  dsimp only
  rw [State.f_put_disj _ _ (by rfl) (by decide) (by decide) (by decide)]
  iterate 5 rw [State.f_put_ne _ _ (by decide)]

theorem State.fuseLoad_reg (s : State) (boot pull : Nat) {a : Nat} (h : a ∉ fuseLoaded) : (s.fuseLoad boot pull).reg a = s.reg a := by
  simp only [fuseLoaded, List.mem_cons, List.not_mem_nil, or_false, not_or] at h
  obtain ⟨hrev, hstrap, htrim, htherm, hstate, hstat⟩ := h
  unfold State.fuseLoad
  rw [State.fuseShow_reg _ hstat hstate]
  simp only [State.reg_put, Ne.symm hrev, Ne.symm hstrap, Ne.symm htrim, Ne.symm htherm, Ne.symm hstate, if_false]

/-- BOOT_SRC holds its strap: PULL_DEFAULT beside it is another field, and what the fuses load afterwards lies in other registers. -/
theorem State.fuseLoad_bootSrc (s : State) (boot pull : Nat) : (s.fuseLoad boot pull).f CFG_STRAP_BOOT_SRC = boot % 4 := by
  unfold State.fuseLoad
  rw [State.fuseShow_f _ (by decide) (by decide)]
  iterate 4 rw [State.f_put_ne _ _ (by decide)]
  rw [State.f_put_disj _ _ (by rfl) (by decide) (by decide) (by decide)]
  exact State.f_put _ _ _ (by decide) (by decide)

theorem State.fuseLoad_pullDefault (s : State) (boot pull : Nat) : (s.fuseLoad boot pull).f CFG_STRAP_PULL_DEFAULT = pull % 4 := by
  unfold State.fuseLoad
  rw [State.fuseShow_f _ (by decide) (by decide)]
  iterate 4 rw [State.f_put_ne _ _ (by decide)]
  exact State.f_put _ _ _ (by decide) (by decide)

/-- The security state is that of the fuses. -/
theorem State.fuseLoad_secState (s : State) (boot pull : Nat) :
    (s.fuseLoad boot pull).secState = if s.sec.fuses.sealed then 2 else if s.sec.fuses.bound then 1 else 0 := by
  unfold State.fuseLoad
  rw [State.fuseShow_secState, State.secState, State.f_put _ _ _ (by decide) (by decide)]
  cases s.sec.fuses.sealed <;> cases s.sec.fuses.bound <;> rfl

/-- The power state that the device is in or on its way to stands in one register. -/
theorem State.powerAim_congr {s t : State} (h : t.reg BAL_PWR_STAT = s.reg BAL_PWR_STAT) : t.powerAim = s.powerAim := by
  unfold State.powerAim State.on State.f
  dsimp only
  rw [h]

/-- With no fuse error nothing follows POR by itself: no alarm is due, and the register of the power state is at its reset value. -/
theorem execPor_fuses_read (boot pull : Nat) (s : State) :
    exec (.por boot pull false) s = .next (s.porBase.fuseLoad boot pull) := by
  have hsec : (s.porBase.fuseLoad boot pull).sec.alarmDue = false := by rw [(fuseLoad_only _ _ _).sec (by decide)]; rfl
  have hstat : (s.porBase.fuseLoad boot pull).reg BAL_PWR_STAT = State.reset.reg BAL_PWR_STAT := State.fuseLoad_reg _ _ _ (by decide)
  exact congrArg Host.Outcome.next (State.settle_calm _ hsec ((State.powerAim_congr hstat).trans (by decide +kernel)))

/-- Settles O12: POR leaves `porBase` with the fuses and the straps loaded, and loading them changes registers only. -/
theorem powerOnReset : Obligations.PowerOnReset := by
  unfold Obligations.PowerOnReset
  intro s boot pull
  have hload : Only 1 s.porBase (s.porBase.fuseLoad boot pull) := fuseLoad_only _ _ _
  refine ⟨_, execPor_fuses_read boot pull s, fun a ha => State.fuseLoad_reg _ _ _ ha, State.fuseLoad_bootSrc _ _ _,
    State.fuseLoad_pullDefault _ _ _, State.fuseLoad_secState _ _ _, hload.sec (by decide), hload.pin (by decide), hload.queue, ?_⟩
  intro p hp
  have hsame : p.Same s.porBase (s.porBase.fuseLoad boot pull) := hload.same p (by cases p <;> rfl)
  cases p with
  | sec | pin => exact absurd hp (by decide)
  | _ => exact hsame

/-! ### A register write that does not follow its access code -/

/-- The row of INT_LEAF_CFG in the register table; its bit 31 is the RW field EN. -/
def leafCfgRow : RegSpec :=
  ⟨0x301000, [(544, 0x10)], false, false, false, false, [⟨31, 31, .rw, 1⟩, ⟨28, 24, .rw, 20⟩, ⟨23, 16, .rw, 8⟩, ⟨15, 0, .rw, 8⟩]⟩

/-- R422 lists 26 leaves of a sector, so leaf 26 has no entry: bit 31 (EN) of its INT_LEAF_CFG reads 0 although a write of 1 has completed
(file 11: leaves without an entry read 0). -/
theorem registerWrite_absentLeaf_en :
    ∃ t, exec (.registerWrite 0 (INT_LEAF_CFG 26) 0x80000000#32) State.reset = .next t ∧ t.reg (INT_LEAF_CFG 26) &&& fmask 31 31 = 0#32 :=
  ⟨State.reset.putOrHold 0 (INT_LEAF_CFG 26) 0x80000000#32, rfl, by decide +kernel⟩

/-- Refutes O11: EN of a leaf without an entry in R422 is an RW field of the INTEGRITY block that does not take the written bit. -/
theorem not_registerWrite : ¬ Obligations.RegisterWrite := by
  unfold Obligations.RegisterWrite
  intro h
  obtain ⟨hwrite, -⟩ := h State.reset ⟨rfl, by decide +kernel⟩
  obtain ⟨t, he, hone, -⟩ := hwrite 0 (INT_LEAF_CFG 26) 0x80000000#32 leafCfgRow ⟨31, 31, .rw, 1⟩ (by decide) (by decide) (by decide)
    (by decide +kernel) rfl (by decide) rfl
  obtain ⟨u, hu, hzero⟩ := registerWrite_absentLeaf_en
  obtain rfl : u = t := Host.Outcome.next.inj (hu.symm.trans he)
  exact absurd (hzero.symm.trans hone) (by decide)

end Sys2Proof.Machine
end

section
/-! SUPPORT. Architecture (file 01, R24, R30 to R36): every step keeps the tables canonical, the registers of an ordering block, its reset, its
fences; and one command of the mesh (R383) that writes to an ordering block. -/

namespace Sys2Proof.Machine

/-! ### Canonical tables -/

/-- What the operations of the model keep of the register file and the HBM is the canonical form. -/
theorem Only.canon {m : Nat} {s t : State} (h : Only m s t) (hs : s.Canon) : t.Canon := ⟨h.regsOk hs.1, h.wordsOk hs.2⟩

/-- Whatever a command answers, POR included, the laws of `Only` hold from the state before to the state after. -/
theorem exec_only (i : Instr) {s t : State} (h : exec i s = .next t) : Only 1048575 s t := by
  by_cases hpor : ∀ (b p : Nat) (e : Bool), i ≠ .por b p e
  · obtain ⟨u, hu, ho⟩ := exec_completes i s hpor
    obtain rfl : u = t := Host.Outcome.next.inj (hu.symm.trans h)
    exact ho.mono (by decide)
  · push Not at hpor
    obtain ⟨b, p, e, rfl⟩ := hpor
    obtain ⟨u, hu, ho⟩ := execPor_completes b p e s
    obtain rfl : u = t := Host.Outcome.next.inj (hu.symm.trans h)
    exact ho

/-- Settles O4: taking a command off the queue touches no table, and neither a command nor a FIG edge breaks the form. -/
theorem stepsKeepTablesCanonical : Obligations.StepsKeepTablesCanonical := by
  unfold Obligations.StepsKeepTablesCanonical
  intro s t hs h
  cases hp : s.pending with
  | nil =>
    obtain rfl : s.tick = t := by simpa only [step, hp, Host.Outcome.next.injEq] using h
    exact (tick_only s).canon hs
  | cons i rest =>
    have hi : exec i { s with pending := rest } = .next t := by simpa only [step, hp] using h
    exact (exec_only i hi).canon hs

/-! ### Frames -/

/-- Every part of the state. -/
def Part.all : List Part :=
  [.fig, .round, .fab, .clk, .cfg, .call, .lat, .port, .tail, .mesh, .hbm, .intg, .core, .sem, .scan, .bal, .host, .sec, .pin]

theorem Part.mem_all (p : Part) : p ∈ Part.all := by cases p <;> decide

/-- A frame from the mask of the parts that may change, and what is said of the registers. -/
theorem Only.keeps {m : Nat} {R : Nat → Prop} {ps : List Part} {s t : State} (h : Only m s t) (hreg : ∀ a, ¬ R a → t.reg a = s.reg a)
    (hparts : ∀ p ∈ Part.all, p ∉ ps → m.testBit p.bit = false := by decide) : Keeps R ps s t :=
  ⟨h.queue, hreg, fun p hp => h.same p (hparts p p.mem_all hp)⟩

/-! ### Registers after a group reset and after an event -/

theorem mget_filter {α : Type} (m : List (Nat × α)) (d : α) (p : Nat → Bool) (k : Nat) :
    mget (m.filter (fun e => p e.1)) d k = if p k then mget m d k else d := by
  induction m with
  | nil => simp
  | cons e t ih =>
    obtain ⟨k', v⟩ := e
    by_cases hk : k' = k
    · subst hk
      cases hp : p k' <;> simp_all [mget_cons]
    · cases hp : p k' <;> simp_all [mget_cons]

/-- A group reset gives the registers of the group their reset values and leaves the others. -/
theorem State.reg_resetRegs (s : State) (p : Nat → Bool) (a : Nat) : (s.resetRegs p).reg a = if p a then resetWord a else s.reg a := by
  unfold State.reg State.resetRegs
  rw [mget_filter s.regs (resetWord a) (fun k => !p k) a]
  cases p a <;> rfl

/-- A device event touches one register, that of its bit. -/
theorem State.raise_reg (s : State) {i a : Nat} (h : a ≠ HIF_IRQ_STAT (i / 32)) : (s.raise i).reg a = s.reg a := by
  have hbit : (s.raise i).regs = (s.setReg (HIF_IRQ_STAT (i / 32)) (s.reg (HIF_IRQ_STAT (i / 32)) ||| (1#32 <<< (i % 32)))).regs := by
    unfold State.raise State.sendIrq
    dsimp only
    split <;> rfl
  rw [State.reg_congr hbit, State.reg_setReg_ne _ _ h.symm]

/-- Of the mesh a device event changes the interrupt packets alone. -/
theorem State.raise_mesh (s : State) (i : Nat) : (s.raise i).mesh = { s.mesh with irqMsgs := (s.raise i).mesh.irqMsgs } := by
  unfold State.raise State.sendIrq
  dsimp only
  split <;> rfl

/-! ### The registers and the fences of an ordering block (R30 to R37) -/

/-- The sources with an ordering block are below 48. -/
theorem lt_of_hasOrder {src : Nat} (h : hasOrder src = true) : src < 48 := by
  simp only [hasOrder, Bool.or_eq_true, Bool.and_eq_true, decide_eq_true_eq] at h
  omega

/-- In the DEVICE block only registers below 0x4000 that are no array have a reset value other than 0. -/
theorem regsDevice_reset : ∀ r ∈ regsDevice, resetBits r.fields = 0 ∨ r.dims = [] ∧ r.base < 0x4000 := by decide

/-- The ordering blocks reset to 0. -/
theorem resetWord_ordering {a : Nat} (h1 : 0x4000 ≤ a) (h2 : a < 0x4600) : resetWord a = 0 := by
  have hspecial : resetSpecial a = none := by
    unfold resetSpecial
    simp only [Bool.and_eq_true, decide_eq_true_eq]
    repeat rw [if_neg (by omega)]
  have hblock : regBlock a = regsDevice := by
    unfold regBlock
    rw [if_neg (by omega), if_neg (by omega), show a / 0x100000 = 0 by omega]
    rfl
  unfold resetWord
  rw [hspecial]
  dsimp only
  cases hr : regAt a with
  | none => rfl
  | some r =>
    rw [regAt, hblock] at hr
    have hhit : (regHit r a).isSome = true := List.find?_some (p := fun r => (regHit r a).isSome) hr
    obtain hz | ⟨hdims, hbase⟩ := regsDevice_reset r (List.mem_of_find?_eq_some hr)
    · simp [hz]
    · rw [regHit, if_neg (by omega), hdims, dimIdx, if_neg (by omega)] at hhit
      exact absurd hhit (by decide)

theorem ordIssued_ne_ordStatus (src : Nat) : DEV_ORD_ISSUED src ≠ DEV_ORD_STATUS src := by
  unfold DEV_ORD_ISSUED DEV_ORD_STATUS
  omega

theorem ordDone_ne_ordStatus (src : Nat) : DEV_ORD_DONE src ≠ DEV_ORD_STATUS src := by
  unfold DEV_ORD_DONE DEV_ORD_STATUS
  omega

/-- The ordering blocks lie below HIF_IRQ_STAT. -/
theorem ord_ne_irqStat {src a : Nat} (hsrc : src < 48) (ha : a < DEV_ORD_FENCE src + 0x20) (j : Nat) : a ≠ HIF_IRQ_STAT j := by
  unfold DEV_ORD_FENCE at ha
  unfold HIF_IRQ_STAT
  omega

@[simp] theorem State.setFences_mesh (s : State) (src : Nat) (l : List (Nat × List Nat × Bool)) :
    (s.setFences src l).mesh = { s.mesh with fences := mset s.mesh.fences [] src l } := rfl

theorem State.setFences_reg (s : State) {src a : Nat} (l : List (Nat × List Nat × Bool)) (h : a ≠ DEV_ORD_STATUS src) :
    (s.setFences src l).reg a = s.reg a := State.reg_put_ne _ _ h.symm

/-- PENDING shows the length of the list. -/
theorem State.setFences_pending (s : State) (src : Nat) (l : List (Nat × List Nat × Bool)) :
    (s.setFences src l).f (DEV_ORD_STATUS_PENDING src) = l.length % 32 := State.f_put _ _ _ (by simp) (by simp)

/-- A field of STATUS above PENDING is left. -/
theorem State.setFences_f (s : State) {src : Nat} {y : Fld} (l : List (Nat × List Nat × Bool)) (ha : y.addr = DEV_ORD_STATUS src)
    (hd : 4 < y.lo) : (s.setFences src l).f y = s.f y := State.f_put_disj _ _ ha.symm (by simp) (by simp) (.inr hd)

theorem State.addF_reg (s : State) (x : Fld) (n : Nat) {a : Nat} (h : a ≠ x.addr) : (s.addF x n).reg a = s.reg a :=
  State.reg_put_ne _ _ h.symm

/-! ### A reset of an ordering block (R36) -/

/-- Of the mesh the reset changes the list of fences alone: what a fabric master port awaits stands in the fabric. -/
theorem State.orderReset_mesh (s : State) {src : Nat} (h : hasOrder src = true) :
    (s.orderReset src).mesh = { s.mesh with fences := mset s.mesh.fences [] src [] } := by
  unfold State.orderReset State.when
  rw [if_pos h]
  dsimp only
  split <;> rfl

/-- The registers of the block read as after POR, the others as before. -/
theorem State.orderReset_reg (s : State) {src : Nat} (h : hasOrder src = true) (a : Nat) :
    (s.orderReset src).reg a = if DEV_ORD_FENCE src ≤ a ∧ a < DEV_ORD_FENCE src + 0x20 then resetWord a else s.reg a := by
  unfold State.orderReset State.when
  rw [if_pos h]
  dsimp only
  rw [State.reg_resetRegs]
  simp only [Bool.and_eq_true, decide_eq_true_eq]
  split
  · rfl
  · have ha : a ≠ DEV_ORD_STATUS src := by unfold DEV_ORD_FENCE at *; unfold DEV_ORD_STATUS; omega
    split <;> exact State.setFences_reg _ _ ha

/-- Settles O8: the reset is an empty list of fences and the reset values of 32 bytes of registers, which are 0. -/
theorem orderingBlockReset : Obligations.OrderingBlockReset := by
  unfold Obligations.OrderingBlockReset
  intro s src h
  have hlt : src < 48 := lt_of_hasOrder h
  have hmesh := s.orderReset_mesh h
  refine ⟨?_, fun a ha => ?_, ?_, fun r hr => ?_, (orderReset_only s src).keeps fun a ha => ?_⟩
  · rw [State.fencesOf, hmesh, mget_mset_self]
  · rw [s.orderReset_reg h, if_pos (by omega)]
    exact resetWord_ordering (by unfold DEV_ORD_FENCE; omega) (by unfold DEV_ORD_FENCE; omega)
  · rw [hmesh]
  · rw [State.fencesOf, hmesh]
    exact mget_mset_ne s.mesh.fences [] [] [] src r hr.symm
  · rw [s.orderReset_reg h, if_neg ha]

/-! ### Fences (R31 to R35) -/

/-- A fence is counted, and listed under its number with the operations of its source that are not yet visible. -/
def State.fenceOn (s : State) (src : Nat) : State :=
  (s.addF (DEV_ORD_ISSUED_COUNT src) 1).setFences src
    (s.fencesOf src ++ [((s.addF (DEV_ORD_ISSUED_COUNT src) 1).f (DEV_ORD_ISSUED_COUNT src), s.openKeys src, false)])

theorem State.addF_issued (s : State) (src : Nat) :
    (s.addF (DEV_ORD_ISSUED_COUNT src) 1).f (DEV_ORD_ISSUED_COUNT src) = (s.f (DEV_ORD_ISSUED_COUNT src) + 1) % 2 ^ 32 :=
  State.f_put _ _ _ (by simp) (by simp)

theorem State.fenceOn_fences (s : State) (src : Nat) :
    mget (s.fenceOn src).mesh.fences [] src =
      s.fencesOf src ++ [((s.f (DEV_ORD_ISSUED_COUNT src) + 1) % 2 ^ 32, s.openKeys src, false)] := by
  rw [State.fenceOn, State.setFences_mesh, mget_mset_self, State.addF_issued]

theorem State.fenceOn_issued (s : State) (src : Nat) :
    (s.fenceOn src).f (DEV_ORD_ISSUED_COUNT src) = (s.f (DEV_ORD_ISSUED_COUNT src) + 1) % 2 ^ 32 :=
  (State.f_put_ne _ _ (ordIssued_ne_ordStatus src).symm).trans (s.addF_issued src)

theorem State.fenceOn_pending (s : State) (src : Nat) :
    (s.fenceOn src).f (DEV_ORD_STATUS_PENDING src) = ((s.fencesOf src).length + 1) % 32 := by
  rw [State.fenceOn, State.setFences_pending, List.length_append, List.length_singleton]

theorem State.fenceOn_reg (s : State) {src a : Nat} (h1 : a ≠ DEV_ORD_ISSUED src) (h2 : a ≠ DEV_ORD_STATUS src) :
    (s.fenceOn src).reg a = s.reg a := (State.setFences_reg _ _ h2).trans (State.addF_reg _ _ _ h1)

theorem State.issueFence_of_room (s : State) {src : Nat} (h : hasOrder src = true) (hroom : (s.fencesOf src).length < 16) :
    s.issueFence src = ((s.fenceOn src).flushIssue src, some ((s.addF (DEV_ORD_ISSUED_COUNT src) 1).f (DEV_ORD_ISSUED_COUNT src))) := by
  unfold State.issueFence
  dsimp only
  rw [if_pos (by simp [h, hroom])]
  rfl

theorem State.issueFence_of_full (s : State) {src : Nat} (hfull : 16 ≤ (s.fencesOf src).length) : s.issueFence src = (s, none) := by
  unfold State.issueFence
  dsimp only
  rw [if_neg (by simp [hfull])]

/-- The flushing read waits at the host interface: nothing but `host` changes, and that for source 0 alone. -/
theorem State.flushIssue_of_ne_zero (s : State) {src : Nat} (h : src ≠ 0) : s.flushIssue src = s := if_neg fun hc => h hc.1

/-- DEV_ORD_FENCE with fewer than 16 fences pending. -/
theorem devOrdFence_issues (s : State) {src : Nat} (h : hasOrder src = true) (hroom : (s.fencesOf src).length < 16) :
    ∃ t, exec (.devOrdFence src) s = .next t ∧
      mget t.mesh.fences [] src =
        s.fencesOf src ++ [((s.f (DEV_ORD_ISSUED_COUNT src) + 1) % 2 ^ 32, s.openKeys src, false)] ∧
      t.f (DEV_ORD_ISSUED_COUNT src) = (s.f (DEV_ORD_ISSUED_COUNT src) + 1) % 2 ^ 32 ∧
      t.f (DEV_ORD_STATUS_PENDING src) = (s.fencesOf src).length + 1 ∧
      Keeps (fun a => a = DEV_ORD_ISSUED src ∨ a = DEV_ORD_STATUS src) [.mesh, .host] s t ∧ (src ≠ 0 → t.host = s.host) := by
  have hflush : Only 131072 (s.fenceOn src) ((s.fenceOn src).flushIssue src) := flushIssue_only _ _
  have hregs : ((s.fenceOn src).flushIssue src).regs = (s.fenceOn src).regs := hflush.regs (by decide)
  have hexec : exec (.devOrdFence src) s = .next ((s.fenceOn src).flushIssue src) := by
    show execDevOrdFence src s = _
    rw [execDevOrdFence, s.issueFence_of_room h hroom]
  refine ⟨_, hexec, ?_, ?_, ?_, (execDevOrdFence_only src s _ hexec).keeps fun a ha => ?_, fun h0 => ?_⟩
  · rw [hflush.mesh (by decide), s.fenceOn_fences]
  · rw [State.f_congr hregs, s.fenceOn_issued]
  · rw [State.f_congr hregs, s.fenceOn_pending]
    omega
  · obtain ⟨hissued, hstatus⟩ := not_or.1 ha
    rw [State.reg_congr hregs, s.fenceOn_reg hissued hstatus]
  · rw [State.flushIssue_of_ne_zero _ h0]
    rfl

/-- DEV_ORD_FENCE with 16 fences pending: the write is held. -/
theorem devOrdFence_held (s : State) {src : Nat} (h : hasOrder src = true) (hfull : 16 ≤ (s.fencesOf src).length) :
    exec (.devOrdFence src) s = .next (s.setMesh { s.mesh with heldWr := s.mesh.heldWr ++ [(src, DEV_ORD_FENCE src, 1)] }) := by
  show execDevOrdFence src s = _
  rw [execDevOrdFence, s.issueFence_of_full hfull]
  dsimp only
  rw [if_pos h]

/-! ### The completion of a fence -/

/-- With DONE at TARGET a fence event sets EVT, and raises an event: it touches STATUS and one register of HOSTIF. -/
theorem State.fenceEvt_reg (s : State) {src a : Nat} (h1 : a ≠ DEV_ORD_STATUS src) (h2 : a ≠ HIF_IRQ_STAT ((64 + src) / 32)) :
    (s.fenceEvt src).reg a = s.reg a := by
  have hevt : (s.put (DEV_ORD_STATUS_EVT src) 1).reg a = s.reg a := State.reg_put_ne _ _ h1.symm
  unfold State.fenceEvt
  dsimp only
  split
  · split
    · rw [State.raise_reg _ h2, hevt]
    · exact hevt
  · rfl

/-- Of STATUS a fence event touches bit 29, EVT. -/
theorem State.fenceEvt_f (s : State) {src : Nat} {y : Fld} (hsrc : src < 48) (ha : y.addr = DEV_ORD_STATUS src) (hd : y.hi < 29 ∨ 29 < y.lo) :
    (s.fenceEvt src).f y = s.f y := by
  have hevt : (s.put (DEV_ORD_STATUS_EVT src) 1).f y = s.f y := State.f_put_disj _ _ ha.symm (by simp) (by simp) hd
  have hraise (t : State) : (t.raise (64 + src)).f y = t.f y := by
    unfold State.f
    rw [State.raise_reg _ (ord_ne_irqStat hsrc (by rw [ha]; unfold DEV_ORD_STATUS DEV_ORD_FENCE; omega) _)]
  unfold State.fenceEvt
  dsimp only
  split
  · split
    · rw [hraise, hevt]
    · exact hevt
  · rfl

theorem State.fenceEvt_mesh (s : State) (src : Nat) : (s.fenceEvt src).mesh = { s.mesh with irqMsgs := (s.fenceEvt src).mesh.irqMsgs } := by
  unfold State.fenceEvt
  dsimp only
  split
  · split
    · exact State.raise_mesh _ _
    · rfl
  · rfl

/-- A fence comes off the list and is counted; an operation that failed sets ERR. -/
def State.fenceOff (s : State) (src : Nat) (err : Bool) (rest : List (Nat × List Nat × Bool)) : State :=
  ((s.setFences src rest).addF (DEV_ORD_DONE_COUNT src) 1).when err (fun t => t.put (DEV_ORD_STATUS_ERR src) 1)

theorem State.completeFence_of_head (s : State) {src k : Nat} {err : Bool} {rest : List (Nat × List Nat × Bool)}
    (h : s.fencesOf src = (k, [], err) :: rest) :
    s.completeFence src = ((s.fenceOff src err rest).fenceEvt src).masterAck src k err := by
  unfold State.completeFence
  rw [h]
  rfl

section
variable (s : State) (src : Nat) (err : Bool) (rest : List (Nat × List Nat × Bool))

theorem State.fenceOff_mesh : (s.fenceOff src err rest).mesh = { s.mesh with fences := mset s.mesh.fences [] src rest } := by
  cases err <;> rfl

theorem State.fenceOff_reg {a : Nat} (h1 : a ≠ DEV_ORD_DONE src) (h2 : a ≠ DEV_ORD_STATUS src) :
    (s.fenceOff src err rest).reg a = s.reg a := by
  have hcount : ((s.setFences src rest).addF (DEV_ORD_DONE_COUNT src) 1).reg a = s.reg a :=
    (State.addF_reg _ _ _ h1).trans (s.setFences_reg rest h2)
  cases err
  · exact hcount
  · exact (State.reg_put_ne _ _ h2.symm).trans hcount

theorem State.fenceOff_done :
    (s.fenceOff src err rest).f (DEV_ORD_DONE_COUNT src) = (s.f (DEV_ORD_DONE_COUNT src) + 1) % 2 ^ 32 := by
  have hcount : ((s.setFences src rest).addF (DEV_ORD_DONE_COUNT src) 1).f (DEV_ORD_DONE_COUNT src) =
      (s.f (DEV_ORD_DONE_COUNT src) + 1) % 2 ^ 32 := by
    rw [← show (s.setFences src rest).f (DEV_ORD_DONE_COUNT src) = s.f (DEV_ORD_DONE_COUNT src) from
      State.f_put_ne _ _ (ordDone_ne_ordStatus src).symm]
    exact State.f_put _ _ _ (by simp) (by simp)
  cases err
  · exact hcount
  · exact (State.f_put_ne _ _ (ordDone_ne_ordStatus src).symm).trans hcount

theorem State.fenceOff_pending : (s.fenceOff src err rest).f (DEV_ORD_STATUS_PENDING src) = rest.length % 32 := by
  have hcount : ((s.setFences src rest).addF (DEV_ORD_DONE_COUNT src) 1).f (DEV_ORD_STATUS_PENDING src) = rest.length % 32 :=
    (State.f_put_ne _ _ (ordDone_ne_ordStatus src)).trans (s.setFences_pending src rest)
  cases err
  · exact hcount
  · exact (State.f_put_disj _ _ (by rfl) (by simp) (by simp) (.inl (by simp))).trans hcount

theorem State.fenceOff_err :
    (s.fenceOff src err rest).f (DEV_ORD_STATUS_ERR src) = if err then 1 else s.f (DEV_ORD_STATUS_ERR src) := by
  have hcount : ((s.setFences src rest).addF (DEV_ORD_DONE_COUNT src) 1).f (DEV_ORD_STATUS_ERR src) = s.f (DEV_ORD_STATUS_ERR src) :=
    (State.f_put_ne _ _ (ordDone_ne_ordStatus src)).trans (s.setFences_f rest (by rfl) (by simp))
  cases err
  · exact hcount
  · exact State.f_put _ _ _ (by simp) (by simp)

end

/-- With no write held there is none to try again. -/
theorem State.retryHeld_of_nil {s : State} (h : s.mesh.heldWr = []) : s.retryHeld = s := by
  have hset : s.setMesh { s.mesh with heldWr := [] } = s := by rw [← h]; rfl
  unfold State.retryHeld
  rw [hset, h]
  rfl

/-- FENCE_COMPLETE on a fence with nothing left to wait for. -/
theorem fenceComplete_completes (s : State) {src k : Nat} {err : Bool} {rest : List (Nat × List Nat × Bool)} (h : hasOrder src = true)
    (hhead : s.fencesOf src = (k, [], err) :: rest) (hheld : s.mesh.heldWr = []) :
    ∃ t, exec (.fenceComplete src) s = .next t ∧ t.fencesOf src = rest ∧
      t.f (DEV_ORD_DONE_COUNT src) = (s.f (DEV_ORD_DONE_COUNT src) + 1) % 2 ^ 32 ∧
      t.f (DEV_ORD_STATUS_PENDING src) = rest.length % 32 ∧
      t.f (DEV_ORD_STATUS_ERR src) = (if err then 1 else s.f (DEV_ORD_STATUS_ERR src)) ∧
      Keeps (fun a => a = DEV_ORD_DONE src ∨ a = DEV_ORD_STATUS src ∨ a = HIF_IRQ_STAT ((64 + src) / 32)) [.mesh, .fab, .host, .tail] s t := by
  have hsrc : src < 48 := lt_of_hasOrder h
  have ht := s.completeFence_of_head hhead
  have hregs : (s.completeFence src).regs = ((s.fenceOff src err rest).fenceEvt src).regs := ht ▸ (masterAck_only _ _ _ _).regs (by decide)
  have hmesh : (s.completeFence src).mesh = ((s.fenceOff src err rest).fenceEvt src).mesh := ht ▸ (masterAck_only _ _ _ _).mesh (by decide)
  have hfences : (s.completeFence src).mesh.fences = mset s.mesh.fences [] src rest := by
    rw [hmesh, State.fenceEvt_mesh, s.fenceOff_mesh]
  have hnone : (s.completeFence src).mesh.heldWr = [] := by
    rw [hmesh, State.fenceEvt_mesh, s.fenceOff_mesh, ← hheld]
  have hexec : exec (.fenceComplete src) s = .next (s.completeFence src) := congrArg Host.Outcome.next (State.retryHeld_of_nil hnone)
  refine ⟨_, hexec, ?_, ?_, ?_, ?_, (completeFence_only s src).keeps fun a ha => ?_⟩
  · rw [State.fencesOf, hfences, mget_mset_self]
  · rw [State.f_congr hregs, ← s.fenceOff_done src err rest, State.f, State.f,
      State.fenceEvt_reg _ (ordDone_ne_ordStatus src) (ord_ne_irqStat hsrc (by unfold DEV_ORD_DONE DEV_ORD_FENCE; omega) _)]
  · rw [State.f_congr hregs, State.fenceEvt_f _ hsrc (by rfl) (by simp), s.fenceOff_pending]
  · rw [State.f_congr hregs, State.fenceEvt_f _ hsrc (by rfl) (by simp), s.fenceOff_err]
  · simp only [not_or] at ha
    obtain ⟨hdone, hstatus, hirq⟩ := ha
    rw [State.reg_congr hregs, State.fenceEvt_reg _ hstatus hirq, s.fenceOff_reg src err rest hdone hstatus]

/-- Settles O9: a fence with room is listed, the seventeenth is held, and the oldest with nothing to wait for completes. -/
theorem orderingBlocks : Obligations.OrderingBlocks := by
  unfold Obligations.OrderingBlocks
  intro s
  refine ⟨fun src h hroom => devOrdFence_issues s h hroom, fun src h hfull => ⟨_, devOrdFence_held s h hfull, rfl, ?_⟩,
    fun src k err rest h hhead hheld => fenceComplete_completes s h hhead hheld⟩
  exact (setMesh_only s _).keeps fun _ _ => rfl

/-! ### An access that times out writes to the ordering block of its source (R32, R383) -/

/-- A read of source 1 with tag 0. -/
def timedAcc : Acc := ⟨1, 0, false, 0, 4, 0xF, 0, 0, 0⟩

/-- The state after reset, but tag 0 of source 1 is busy, and PENDING of its ordering block shows 1 although no fence is listed. -/
def pendingAstray : State :=
  { (State.reset.setReg (DEV_ORD_STATUS 1) 1#32) with mesh := { Mesh.init with tags := [(64, .busy timedAcc false)] } }

/-- An access that completes is struck off the fences of its source (R32), and that writes PENDING anew with their number. -/
theorem iniTmo_writes_pending :
    ∃ t, exec (.iniTmo 1 0) pendingAstray = .next t ∧ t.reg (DEV_ORD_STATUS 1) = 0#32 :=
  ⟨_, rfl, by decide +kernel⟩

/-- Refutes O39: the frame of INI_TMO leaves every register but those of the MESH block and HIF_IRQ_STAT 6 in each calm state, and in one
where PENDING of the source's ordering block (block DEVICE) is not the number of its fences, that register changes. `State.setFences` writes
the list and PENDING together, and the statement does not ask that they agree; MESH_REQUEST of an unmapped access and MESH_RESPONSE end an
access the same way. -/
theorem not_meshAccesses : ¬ Obligations.MeshAccesses := by
  unfold Obligations.MeshAccesses
  intro h
  obtain ⟨-, -, -, -, -, -, -, -, hiniTmo, -⟩ := h pendingAstray ⟨rfl, by decide +kernel⟩
  obtain ⟨t, he, -, -, -, -, hreg, -⟩ := hiniTmo 1 0 timedAcc (by decide) (by decide) (by decide) rfl rfl rfl
  obtain ⟨u, hu, hzero⟩ := iniTmo_writes_pending
  obtain rfl : u = t := Host.Outcome.next.inj (hu.symm.trans he)
  exact absurd (hzero.symm.trans (hreg (DEV_ORD_STATUS 1) (by decide))) (by decide +kernel)

end Sys2Proof.Machine
end

section
/-! SUPPORT. The fabric's boundary words and aperture (R80 to R86, R190) and the mesh ports of the sectors (R87 to R91): one equation for each
case of a command, and what its frame is. -/

namespace Sys2Proof.Machine

/-! ### Frames of commands that write no register -/

/-- A frame without registers, from the mask of the parts that may change. -/
theorem Only.keepsRegs {m : Nat} {ps : List Part} {s t : State} (h : Only m s t) (hregs : m.testBit 0 = false := by decide)
    (hparts : ∀ p ∈ Part.all, p ∉ ps → m.testBit p.bit = false := by decide) : Keeps (fun _ => False) ps s t :=
  h.keeps (fun a _ => State.reg_congr (h.regs hregs) a) hparts

theorem mem_ladd {α : Type} [DecidableEq α] (l : List α) (v : α) : v ∈ ladd l v := by
  unfold ladd
  split
  next h => exact h
  next => simp

/-! ### Boundary words (R80, R81, R190) -/

/-- The FIG side of a word that is due crosses into a bay that is neither cut nor under the global hold. -/
theorem State.crossIn_of_due (s : State) {g : Nat} (hdue : g ∈ s.fab.inDue) (hcut : s.bayCut (g / 64) = false) (hhold : s.fab.hold = false) :
    s.crossIn g = s.setFab { s.fab with
      inDue := ldel s.fab.inDue g, inFab := mset s.fab.inFab BWord.init g (mget s.fab.inFig BWord.init g) } := by
  unfold State.crossIn
  rw [if_pos hdue]
  dsimp only
  rw [if_neg (by simp [hcut, hhold])]
  rfl

/-- Into a bay that is cut a word does not cross: at most it is no longer due. -/
theorem State.crossIn_of_cut (s : State) {g : Nat} (hcut : s.bayCut (g / 64) = true) :
    (s.crossIn g).fab.inFab = s.fab.inFab ∧ (s.crossIn g).fab.inFig = s.fab.inFig := by
  unfold State.crossIn
  split
  · dsimp only
    rw [if_pos (by simp [hcut])]
    exact ⟨rfl, rfl⟩
  · exact ⟨rfl, rfl⟩

theorem execInboundCrossing_of_runs (s : State) {g : Nat} (h : s.bclkRuns (g / 64) = true) :
    exec (.inboundCrossing g) s = .next (s.crossIn g) := by
  show execInboundCrossing g s = _
  rw [execInboundCrossing, if_pos h]

/-- A stopped BCLK holds the crossing, of a word whose bay is cut too. -/
theorem execInboundCrossing_of_stopped (s : State) {g : Nat} (h : s.bclkRuns (g / 64) = false) :
    exec (.inboundCrossing g) s = .next s := by
  show execInboundCrossing g s = _
  rw [execInboundCrossing, if_neg (by simp [h])]

theorem execOutboundCrossing_of_runs (s : State) {g : Nat} (hg : g < 8192) (hrun : s.bclkRuns (g / 64) = true)
    (hcut : s.bayCut (g / 64) = false) (hhold : s.fab.hold = false) :
    exec (.outboundCrossing g) s = .next (s.setFab { s.fab with
      outFab := mset s.fab.outFab BWord.init g (s.outNets g), outFig := mset s.fab.outFig BWord.init g (s.outNets g) }) := by
  show execOutboundCrossing g s = _
  rw [execOutboundCrossing, if_pos (by simp [hg, hrun, hcut, hhold])]

/-! ### The boundary aperture (R84 to R86) -/

/-- A boundary word after a write of `v` to its register `r` of the aperture: 0 LO, 1 HI, 2 STAT. -/
def BWord.apPut (b : BWord) (r : Nat) (v : Word) : BWord :=
  ⟨if r = 0 then b.data.extractLsb' 32 32 ++ v else if r = 1 then v ++ b.data.setWidth 32 else b.data,
    if r = 2 then v.toNat.testBit 0 else b.poison⟩

/-- While the rounds are stopped and no global hold stands, a write of a register of an inbound word changes its FIG side. -/
theorem State.apWrite_of_stopped (s : State) {n w r : Nat} (v : Word) (hw : w < 512) (hr : r < 3) (hstop : s.stopped = true)
    (hhold : s.fab.hold = false) :
    (s.apWrite n (16 * w + 4 * r) v).1 = s.setFab { s.fab with
      inFig := mset s.fab.inFig BWord.init (512 * n + w) ((mget s.fab.inFig BWord.init (512 * n + w)).apPut r v)
      inDue := ladd s.fab.inDue (512 * n + w) } := by
  have hword : (16 * w + 4 * r) / 16 = w := by omega
  have hreg : (16 * w + 4 * r) % 16 = 4 * r := by omega
  unfold State.apWrite
  rw [if_pos (by omega), if_neg (by simp [hstop]), if_neg (by simp [hhold])]
  dsimp only
  rw [hword, hreg]
  interval_cases r <;> rfl

/-- While rounds run, a write through the aperture changes nothing. -/
theorem State.apWrite_of_running (s : State) (n off : Nat) (v : Word) (h : s.stopped = false) : (s.apWrite n off v).1 = s := by
  unfold State.apWrite
  split
  · rw [if_pos (by simp [h])]
  · rfl

theorem execApertureInboundWrite_of_range (s : State) {n w r : Nat} (v : Word) (hn : n < 16) (hw : w < 512) (hr : r < 3) :
    exec (.apertureInboundWrite n w r v) s = .next (s.apWrite n (16 * w + 4 * r) v).1 := by
  show execApertureInboundWrite n w r v s = _
  rw [execApertureInboundWrite, if_pos ⟨hn, hw, hr⟩]

theorem execApertureInboundWrite_of_running (s : State) (n w r : Nat) (v : Word) (h : s.stopped = false) :
    exec (.apertureInboundWrite n w r v) s = .next s := by
  show execApertureInboundWrite n w r v s = _
  rw [execApertureInboundWrite, s.apWrite_of_running _ _ _ h, ite_self]

/-- The hold register that a read of LO of aperture word `x` leaves: the word's number, its HI and its STAT. -/
def State.loHold (s : State) (n x : Nat) : ApHold := ⟨some x, (s.bndWord n x).1.hi, bndStat (s.bndWord n x).1 (s.bndWord n x).2⟩

theorem execApertureLoRead_of_range (s : State) {n w : Nat} (out : Bool) (hn : n < 16) (hw : w < 512) :
    exec (.apertureLoRead n w out) s = .next (s.setFab { s.fab with
      apHold := mset s.fab.apHold ApHold.init n (s.loHold n (w + 512 * b2n out)) }) := by
  have hb : b2n out ≤ 1 := by cases out <;> decide
  have hword : 16 * (w + 512 * b2n out) / 16 = w + 512 * b2n out := by omega
  show execApertureLoRead n w out s = _
  rw [execApertureLoRead, if_pos ⟨hn, hw⟩, State.apRead, if_pos (by omega)]
  dsimp only
  rw [if_pos (by omega), hword]
  rfl

/-- Settles O13: each command is one update of the fabric's tables, and a table read at another key is as before. -/
theorem boundaryWords : Obligations.BoundaryWords := by
  unfold Obligations.BoundaryWords
  intro s
  refine ⟨fun g hrun hdue hcut hhold => ?inbound, fun g hcut => ?inboundCut, fun g hstop => ?inboundStopped,
    fun g hg hrun hcut hhold => ?outbound, fun n w r v hn hw hr hstop hhold => ?write, fun n w r v hrun => ?writeRunning,
    fun n w out hn hw => ?read⟩
  case inbound =>
    refine ⟨_, execInboundCrossing_of_runs s hrun, ?_⟩
    rw [s.crossIn_of_due hdue hcut hhold]
    exact ⟨rfl, mget_mset_self _ _ _ _, fun h hne => mget_mset_ne _ _ _ _ _ _ hne.symm, (setFab_only s _).keepsRegs⟩
  case inboundCut =>
    cases hrun : s.bclkRuns (g / 64)
    · exact ⟨s, execInboundCrossing_of_stopped s hrun, rfl, rfl, (Only.refl : Only 0 s s).keepsRegs⟩
    · obtain ⟨hfab, hfig⟩ := s.crossIn_of_cut hcut
      exact ⟨_, execInboundCrossing_of_runs s hrun, hfab, hfig, (crossIn_only s g).keepsRegs⟩
  case inboundStopped => exact ⟨s, execInboundCrossing_of_stopped s hstop, rfl⟩
  case outbound =>
    exact ⟨_, execOutboundCrossing_of_runs s hg hrun hcut hhold, mget_mset_self _ _ _ _, mget_mset_self _ _ _ _,
      fun h hne => mget_mset_ne _ _ _ _ _ _ hne.symm, (setFab_only s _).keepsRegs⟩
  case write =>
    refine ⟨_, execApertureInboundWrite_of_range s v hn hw hr, ?_⟩
    rw [s.apWrite_of_stopped v hw hr hstop hhold]
    exact ⟨mget_mset_self _ _ _ _, mem_ladd _ _, fun h hne => mget_mset_ne _ _ _ _ _ _ hne.symm, (setFab_only s _).keepsRegs⟩
  case writeRunning => exact ⟨s, execApertureInboundWrite_of_running s n w r v hrun, rfl⟩
  case read =>
    refine ⟨_, execApertureLoRead_of_range s out hn hw, ?_, rfl, fun k hne => ?_, (setFab_only s _).keepsRegs⟩
    · exact mget_mset_self s.fab.apHold ApHold.init (s.loHold n _) n
    · exact mget_mset_ne s.fab.apHold ApHold.init ApHold.init (s.loHold n _) n k hne.symm

/-! ### The master port of a sector (R87, R88, R91) -/

/-- What the responses that have arrived for master port `n` put into its buffer, in their order (R88). -/
def State.masterArrived (s : State) (n : Nat) : List MRsp :=
  (mget s.mesh.inbox [] (32 + n)).map (fun e => ⟨e.1.tag, e.2.status, e.2.cause, if e.1.write then 0 else e.2.data, e.2.poison⟩)

/-- The mesh once the master port of sector `n` has taken what has arrived for it. -/
def State.meshTaken (s : State) (n : Nat) : Mesh := { s.mesh with inbox := mset s.mesh.inbox [] (32 + n) [] }

theorem State.meshTaken_inbox (s : State) (n : Nat) : mget (s.meshTaken n).inbox [] (32 + n) = [] := by
  rw [State.meshTaken, mget_mset_self]

/-- Responses that enter a buffer one by one stand behind those in it, in their order; nothing else changes. -/
theorem State.each_masterBuf {α : Type} (n : Nat) (g : α → MRsp) (l : List α) (s : State) :
    ∃ x, s.each l (fun e t => t.masterBuf n (g e)) = s.setFab { s.fab with mRsp := x } ∧ mget x [] n = mget s.fab.mRsp [] n ++ l.map g := by
  induction l generalizing s with
  | nil => exact ⟨s.fab.mRsp, rfl, by simp⟩
  | cons e l ih =>
    obtain ⟨x, heach, hget⟩ := ih (s.masterBuf n (g e))
    refine ⟨x, heach, ?_⟩
    rw [hget, State.masterBuf, State.setFab_fab, mget_mset_self, List.map_cons, List.append_assoc, List.singleton_append]

/-- While bay b0 runs, what has arrived enters the buffer. -/
theorem State.masterIn_of_live (s : State) {n : Nat} (h : s.sectorLive n = true) :
    ∃ x, s.masterIn n = (s.setMesh (s.meshTaken n)).setFab { s.fab with mRsp := x } ∧
      mget x [] n = mget s.fab.mRsp [] n ++ s.masterArrived n := by
  unfold State.masterIn
  dsimp only
  rw [if_pos h]
  exact State.each_masterBuf n _ _ (s.setMesh (s.meshTaken n))

/-- While bay b0 does not run, what has arrived is discarded. -/
theorem State.masterIn_of_dead (s : State) {n : Nat} (h : s.sectorLive n = false) : s.masterIn n = s.setMesh (s.meshTaken n) :=
  if_neg (by simp [h])

@[simp] theorem State.chanDone_regs (s : State) (n c : Nat) : (s.chanDone n c).regs = s.regs := rfl
@[simp] theorem State.chanDone_mesh (s : State) (n c : Nat) : (s.chanDone n c).mesh = s.mesh := rfl
@[simp] theorem State.chanDone_fab (s : State) (n c : Nat) :
    (s.chanDone n c).fab = { s.fab with served := mset s.fab.served [] n (ladd (mget s.fab.served [] n) c) } := rfl

theorem State.chanOpen_lt {s : State} {n c : Nat} (h : s.chanOpen n c = true) : n < 16 := by
  simp only [State.chanOpen, Bool.and_eq_true, decide_eq_true_eq] at h
  omega

theorem State.chanOpen_live {s : State} {n c : Nat} (h : s.chanOpen n c = true) : s.sectorLive n = true := by
  simp only [State.chanOpen, Bool.and_eq_true] at h
  obtain ⟨⟨⟨-, hlive⟩, -⟩, -⟩ := h
  exact hlive

/-- The ports read neither the buffer of responses nor the mesh to find whether a channel may move. -/
theorem State.chanOpen_taken (s : State) (m : Mesh) (x : List (Nat × List MRsp)) (n c : Nat) :
    ((s.setMesh m).setFab { s.fab with mRsp := x }).chanOpen n c = s.chanOpen n c := rfl

/-- No fence is presented, or the fence channel has moved at this edge. -/
theorem State.masterFence_of_idle (s : State) {n : Nat} (h : s.fabSig n .mFenceReq 1 = 0 ∨ s.chanFree n 2 = false) : s.masterFence n = s := by
  refine if_neg ?_
  rcases h with h | h
  · simp [h]
  · simp [State.chanOpen, h]

/-- A fence of source 32 + n is issued, and its number noted at the port. -/
def State.masterFenced (s : State) (n : Nat) : State :=
  (s.fenceOn (32 + n)).setFab { s.fab with
    mFence := mset s.fab.mFence [] n (mget s.fab.mFence [] n ++ [(s.f (DEV_ORD_ISSUED_COUNT (32 + n)) + 1) % 2 ^ 32]) }

/-- A fence presented with fewer than 16 pending is issued. -/
theorem State.masterFence_of_room (s : State) {n : Nat} (hopen : s.chanOpen n 2 = true) (hreq : s.fabSig n .mFenceReq 1 = 1)
    (hroom : (s.fencesOf (32 + n)).length < 16) :
    s.masterFence n = (s.masterFenced n).chanDone n 2 := by
  have hn := State.chanOpen_lt hopen
  have horder : hasOrder (32 + n) = true := by simp [hasOrder]; omega
  unfold State.masterFence
  rw [if_pos (by simp [hopen, hreq]), s.issueFence_of_room horder hroom, State.flushIssue_of_ne_zero _ (by omega), s.addF_issued]
  rfl

theorem State.masterFenced_done_regs (s : State) (n : Nat) : ((s.masterFenced n).chanDone n 2).regs = (s.fenceOn (32 + n)).regs := rfl

theorem State.masterFenced_only (s : State) (n : Nat) : Only 1033 s (s.masterFenced n) :=
  (setFab_only _ _).after (by decide) ((setFences_only _ _ _).after (by decide) ((addF_only _ _ _).mono (by decide)))

/-- A request of legal size and alignment with a free tag, no fence beside it: it is queued behind those that wait. -/
theorem execMasterRequest_of_legal (s : State) {n : Nat} (hopen : s.chanOpen n 0 = true) (hidle : s.masterFence n = s)
    (hreq : s.fabSig n .mReqValid 1 = 1) (htag : s.tagFree n (s.masterAcc n).tag = true)
    (hlegal : (s.masterAcc n).size ≤ 64 ∧ (s.masterAcc n).addr % (s.masterAcc n).size = 0) :
    exec (.masterRequest n) s = .next ((s.setMesh { s.mesh with
      tags := mset s.mesh.tags .idle (s.masterAcc n).key (.queued (s.masterAcc n))
      out := s.mesh.out ++ [(s.masterAcc n).key] }).chanDone n 0) := by
  show execMasterRequest n s = _
  unfold execMasterRequest
  rw [hidle]
  dsimp only
  rw [if_pos (by simp [hopen, hreq, htag]), if_pos hlegal]
  rfl

/-- One of an illegal size or alignment is answered in the port's buffer, behind the responses that have arrived. -/
theorem execMasterRequest_of_illegal (s : State) {n : Nat} (hopen : s.chanOpen n 0 = true) (hidle : s.masterFence n = s)
    (hreq : s.fabSig n .mReqValid 1 = 1) (htag : s.tagFree n (s.masterAcc n).tag = true)
    (hlegal : ¬ ((s.masterAcc n).size ≤ 64 ∧ (s.masterAcc n).addr % (s.masterAcc n).size = 0)) :
    exec (.masterRequest n) s = .next (((s.masterIn n).masterBuf n ⟨(s.masterAcc n).tag, 4, 1, 0, 0⟩).chanDone n 0) := by
  show execMasterRequest n s = _
  unfold execMasterRequest
  rw [hidle]
  dsimp only
  rw [if_pos (by simp [hopen, hreq, htag]), if_neg hlegal]

theorem execMasterRequest_of_busy (s : State) {n : Nat} (hidle : s.masterFence n = s) (htag : s.tagFree n (s.masterAcc n).tag = false) :
    exec (.masterRequest n) s = .next s := by
  show execMasterRequest n s = _
  unfold execMasterRequest
  rw [hidle]
  dsimp only
  rw [if_neg (by simp [htag])]

/-- With nothing presented to the fabric, or while bay b0 does not run, the command only takes in what has arrived. -/
theorem execMasterResponse_of_quiet (s : State) {n : Nat} (hn : n < 16)
    (h : ((s.masterIn n).chanOpen n 1 && (mget (s.masterIn n).fab.portView PortView.init n).rsp.isSome) = false) :
    exec (.masterResponse n) s = .next (s.masterIn n) := by
  show execMasterResponse n s = _
  unfold execMasterResponse
  rw [if_pos hn]
  dsimp only
  rw [if_neg (by simp [h])]

/-- M_RSP_READY takes the response presented out of the buffer. -/
theorem execMasterResponse_of_ready (s : State) {n : Nat} (hopen : (s.masterIn n).chanOpen n 1 = true)
    (hrsp : (mget (s.masterIn n).fab.portView PortView.init n).rsp.isSome = true) (hready : (s.masterIn n).fabSig n .mRspReady 1 = 1) :
    exec (.masterResponse n) s = .next (((s.masterIn n).setFab { (s.masterIn n).fab with
      mRsp := mset (s.masterIn n).fab.mRsp [] n ((mget (s.masterIn n).fab.mRsp [] n).drop 1) }).chanDone n 1) := by
  show execMasterResponse n s = _
  unfold execMasterResponse
  rw [if_pos (State.chanOpen_lt hopen)]
  dsimp only
  rw [if_pos (by simp [hopen, hrsp, hready])]

/-- Settles O14: the fence comes before the request, what has arrived before the answer and the fabric's taking; each is one update. -/
theorem masterPorts : Obligations.MasterPorts := by
  unfold Obligations.MasterPorts
  intro s
  refine ⟨fun n hopen hfence hreq htag hsize halign => ?legal, fun n hopen hfence hreq htag hbad => ?illegal,
    fun n _ hfence htag => ?busy, fun n hopen hreq hroom => ?fence, fun n hn hlive hrsp => ?arrive,
    fun n r hopen hrsp hready => ?take, fun n hn hdead => ?discard⟩
  case legal =>
    refine ⟨_, execMasterRequest_of_legal s hopen (s.masterFence_of_idle hfence) hreq htag ⟨hsize, halign⟩, ?_, rfl, rfl, rfl,
      ((chanDone_only _ n 0).after (m := 1032) (by decide) ((setMesh_only s _).mono (by decide))).keepsRegs⟩
    rw [State.tagAt, State.chanDone_mesh, State.setMesh_mesh, mget_mset_self]
  case illegal =>
    have hexec := execMasterRequest_of_illegal s hopen (s.masterFence_of_idle hfence) hreq htag (by omega)
    obtain ⟨x, hin, hx⟩ := s.masterIn_of_live (State.chanOpen_live hopen)
    refine ⟨_, hexec, ?_, ?_, ?_, ?_⟩
    · rw [hin]
      exact (mget_mset_self _ _ _ _).trans (congrArg (· ++ _) hx)
    · rw [hin]; rfl
    · rw [hin]; rfl
    · exact ((chanDone_only _ n 0).after (m := 1032) (by decide)
        ((masterBuf_only _ n _).after (by decide) (masterIn_only s n))).keepsRegs
  case busy => exact ⟨s, execMasterRequest_of_busy s (s.masterFence_of_idle hfence) htag, rfl⟩
  case fence =>
    have hexec : exec (.masterFence n) s = .next (s.masterFence n) := rfl
    rw [s.masterFence_of_room hopen hreq hroom] at hexec
    refine ⟨_, hexec, ?_, ?_, ?_, ?_, ?_⟩
    · rw [State.chanDone_fab, State.masterFenced, State.setFab_fab, mget_mset_self]
    · rw [State.fencesOf, State.chanDone_mesh, State.masterFenced, State.setFab_mesh, s.fenceOn_fences, List.length_append,
        List.length_singleton]
    · rw [State.f_congr (s.masterFenced_done_regs n), s.fenceOn_issued]
    · rw [State.chanDone_fab, mget_mset_self]
      rfl
    · refine ((chanDone_only _ n 2).after (by decide) (s.masterFenced_only n)).keeps fun a ha => ?_
      obtain ⟨hissued, hstatus⟩ := not_or.1 ha
      rw [State.reg_congr (s.masterFenced_done_regs n), s.fenceOn_reg hissued hstatus]
  case arrive =>
    obtain ⟨x, hin, hx⟩ := s.masterIn_of_live hlive
    refine ⟨_, execMasterResponse_of_quiet s hn ?_, ?_, ?_, ?_, (masterIn_only s n).keepsRegs⟩
    · rw [hin]
      simp [hrsp]
    · rw [hin]
      exact hx
    · rw [hin]
      exact s.meshTaken_inbox n
    · rw [hin]; rfl
  case take =>
    obtain ⟨x, hin, hx⟩ := s.masterIn_of_live (State.chanOpen_live hopen)
    have hexec := execMasterResponse_of_ready s (n := n) (by rw [hin]; exact hopen) (by rw [hin]; simp [hrsp]) hready
    refine ⟨_, hexec, ?_, ?_, ?_, (execMasterResponse_only n s _ hexec).keepsRegs⟩
    · rw [hin]
      exact (mget_mset_self _ _ _ _).trans (congrArg (List.drop 1) hx)
    · rw [hin]
      exact s.meshTaken_inbox n
    · rw [hin]; rfl
  case discard =>
    have hin := s.masterIn_of_dead hdead
    refine ⟨_, execMasterResponse_of_quiet s hn ?_, ?_, ?_⟩
    · rw [hin, show (s.setMesh (s.meshTaken n)).chanOpen n 1 = s.chanOpen n 1 from rfl, State.chanOpen, hdead]
      simp
    · rw [hin]; rfl
    · rw [hin]
      exact (setMesh_only s _).keepsRegs

/-! ### Logs and events at a field -/

/-- The first entry of a sticky log sets VALID and is filled in. -/
theorem State.log_of_clear (s : State) {valid ovf : Fld} (fill : State → State) (h : s.on valid = false) :
    s.log valid ovf fill = fill (s.put valid 1) := if_neg (by simp [h])

/-- A log entry leaves a register that neither its flags nor its fields lie in. -/
theorem State.log_reg (s : State) {valid ovf : Fld} {fill : State → State} {a : Nat} (hvalid : valid.addr ≠ a) (hovf : ovf.addr ≠ a)
    (hfill : ∀ u : State, (fill u).reg a = u.reg a) : (s.log valid ovf fill).reg a = s.reg a := by
  unfold State.log
  split
  · exact State.reg_put_ne _ _ hovf
  · exact (hfill _).trans (State.reg_put_ne _ _ hvalid)

/-- A device event leaves the fields of every register but that of its bit. -/
theorem State.raise_f (s : State) {i : Nat} {x : Fld} (h : x.addr ≠ HIF_IRQ_STAT (i / 32)) : (s.raise i).f x = s.f x := by
  unfold State.f
  rw [State.raise_reg _ h]

theorem State.on_iff (s : State) (x : Fld) : s.on x = true ↔ s.f x = 1 := by simp [State.on]

/-! ### The target port of a sector (R90, R91) -/

/-- The answer to a request that is no ghost sets out, and the request leaves the port. -/
theorem State.tgtAnswer_of_live (s : State) {t i : Nat} {w : Wait} (r : Rsp) (hw : (s.waits t)[i]? = some w) (hghost : w.ghost = false) :
    s.tgtAnswer t i r = (s.setWaits t (dropAt (s.waits t) i)).meshAnswer t w.acc r := by
  unfold State.tgtAnswer
  rw [hw]
  simp [hghost]

theorem State.waits_setWaits (s : State) (t : Nat) (l : List Wait) : (s.setWaits t l).waits t = l := by
  rw [State.waits, State.setWaits, State.setMesh_mesh, mget_mset_self]

/-- The oldest request that the fabric has not seen is presented. -/
theorem execTargetRequest_of_next (s : State) {n id i : Nat} {w : Wait} (hn : n < 16) (hid : id < 4096) (hlive : s.sectorLive n = true)
    (hclk : s.pclkRuns n = true) (hshow : mget s.fab.tShow none n = none) (hnext : s.tgtNext n = some (i, w))
    (hroom : (mget s.fab.tReq [] n).length < 32) (hnew : (mget s.fab.tReq [] n).any (fun e => e.1 == id) = false) :
    exec (.targetRequest n id) s = .next (s.setFab { s.fab with tShow := mset s.fab.tShow none n (some (id, w.acc.key)) }) := by
  show execTargetRequest n id s = _
  unfold execTargetRequest
  rw [if_neg (by omega), if_neg (by simp [hlive]), hshow, hnext]
  dsimp only
  rw [if_pos (by simp [hclk, hroom, hid, hnew])]

/-- With T_REQ_READY the request presented is outstanding. -/
theorem execTargetRequest_of_ready (s : State) {n : Nat} (id : Nat) {x : Nat × Nat} (hopen : s.chanOpen n 3 = true)
    (hshow : mget s.fab.tShow none n = some x) (hreq : (mget s.fab.portView PortView.init n).req.isSome = true)
    (hready : s.fabSig n .tReqReady 1 = 1) :
    exec (.targetRequest n id) s = .next ((s.setFab { s.fab with
      tReq := mset s.fab.tReq [] n (mget s.fab.tReq [] n ++ [x]), tShow := mset s.fab.tShow none n none }).chanDone n 3) := by
  have hn := State.chanOpen_lt hopen
  show execTargetRequest n id s = _
  unfold execTargetRequest
  rw [if_neg (by omega), if_neg (by simp [State.chanOpen_live hopen]), hshow]
  dsimp only
  rw [if_pos (by simp [hopen, hreq, hready])]

/-- While bay b0 does not run, the port answers its oldest request itself and presents none. -/
theorem execTargetRequest_of_dead (s : State) {n : Nat} (id : Nat) (hn : n < 16) (hdead : s.sectorLive n = false) :
    exec (.targetRequest n id) s = .next (s.tgtFrozen n) := by
  show execTargetRequest n id s = _
  unfold execTargetRequest
  rw [if_neg (by omega), if_pos (by simp [hdead])]

theorem State.tgtFrozen_mesh (s : State) (n : Nat) : (s.tgtFrozen n).mesh = (s.tgtAnswer (4 * n + 1) 0 ⟨4, 0x71, 0, 0⟩).mesh := rfl

theorem State.tgtFrozen_regs (s : State) (n : Nat) : (s.tgtFrozen n).regs = (s.tgtAnswer (4 * n + 1) 0 ⟨4, 0x71, 0, 0⟩).regs := rfl

theorem State.tgtFrozen_tShow (s : State) (n : Nat) : mget (s.tgtFrozen n).fab.tShow none n = none := by
  unfold State.tgtFrozen
  dsimp only
  rw [State.setFab_fab, mget_mset_self]

/-- What the fabric's answer tells the initiator of an access, `write` or not: T_RSP_ERR, or the data of a read. -/
def State.tgtRsp (s : State) (n : Nat) (write : Bool) : Rsp :=
  if s.fabSig n .tRspErr 1 = 1 then ⟨4, 0x70, 0, 0⟩
  else ⟨0, 0, if write then 0 else s.fabSig n .tRspData 512, if write then 0 else s.fabSig n .tRspPoison 8⟩

/-- With T_RSP_ERR there are no data to drop. -/
theorem State.tgtRsp_norm (s : State) (n : Nat) (write : Bool) :
    (s.tgtRsp n write).norm = if s.fabSig n .tRspErr 1 = 1 then (⟨4, 0x70, 0, 0⟩ : Rsp) else
      Rsp.norm ⟨0, 0, if write then 0 else s.fabSig n .tRspData 512, if write then 0 else s.fabSig n .tRspPoison 8⟩ := by
  unfold State.tgtRsp
  split <;> rfl

/-- Channel T_RSP has moved, and entry `i` of the outstanding list is gone. -/
def State.tgtTaken (s : State) (n i : Nat) : State :=
  (s.chanDone n 4).setFab { (s.chanDone n 4).fab with tReq := mset s.fab.tReq [] n (dropAt (mget s.fab.tReq [] n) i) }

theorem State.tgtTaken_only (s : State) (n i : Nat) : Only 8 s (s.tgtTaken n i) :=
  (setFab_only _ _).after (by decide) (chanDone_only s n 4)

theorem State.tgtTaken_waits (s : State) (n i t : Nat) : (s.tgtTaken n i).waits t = s.waits t := rfl

theorem State.tgtTaken_tReq (s : State) (n i : Nat) :
    mget (s.tgtTaken n i).fab.tReq [] n = dropAt (mget s.fab.tReq [] n) i := by
  rw [State.tgtTaken, State.setFab_fab, mget_mset_self]

theorem State.tgtTaken_served (s : State) (n i : Nat) : mget (s.tgtTaken n i).fab.served [] n = ladd (mget s.fab.served [] n) 4 := by
  rw [State.tgtTaken, State.setFab_fab, State.chanDone_fab, mget_mset_self]

/-- An answer that names entry `i` of the outstanding list takes that request off the port and sends its response. -/
theorem execTargetResponse_of_named (s : State) {n i j : Nat} {w : Wait} (hopen : s.chanOpen n 4 = true) (hvalid : s.fabSig n .tRspValid 1 = 1)
    (hfind : (mget s.fab.tReq [] n).findIdx? (fun e => e.1 == s.fabSig n .tRspId 12) = some i) (hat : s.tgtIndex n i = some j)
    (hw : (s.waits (4 * n + 1))[j]? = some w) :
    exec (.targetResponse n) s = .next ((s.tgtTaken n i).tgtAnswer (4 * n + 1) j (s.tgtRsp n w.acc.write)) := by
  have hat' : (s.chanDone n 4).tgtIndex n i = some j := hat
  have hw' : ((s.chanDone n 4).waits (4 * n + 1))[j]? = some w := hw
  show execTargetResponse n s = _
  unfold execTargetResponse
  rw [if_neg (by simp [hopen, hvalid])]
  simp only [State.chanDone_fab, hfind, hat', hw', Option.any_some]
  rfl

/-- An answer that names no outstanding request is a stray. -/
theorem execTargetResponse_of_stray (s : State) {n : Nat} (hopen : s.chanOpen n 4 = true) (hvalid : s.fabSig n .tRspValid 1 = 1)
    (hfind : (mget s.fab.tReq [] n).findIdx? (fun e => e.1 == s.fabSig n .tRspId 12) = none) :
    exec (.targetResponse n) s = .next ((s.chanDone n 4).meshStray n 0 0) := by
  show execTargetResponse n s = _
  unfold execTargetResponse
  rw [if_neg (by simp [hopen, hvalid])]
  simp only [State.chanDone_fab, hfind]

/-! ### A stray response (R90, R383) -/

theorem State.meshErr_reg (s : State) (kind router input src tag : Nat) {a : Nat} (h : a ≠ MESH_ERR_LOG) :
    (s.meshErr kind router input src tag).reg a = s.reg a :=
  State.log_reg _ h.symm h.symm fun u => by simp only [State.reg_put, h.symm, if_false]

theorem State.meshStray_reg (s : State) (router src tag : Nat) {a : Nat} (hlog : a ≠ MESH_ERR_LOG) (hirq : a ≠ HIF_IRQ_STAT 6) :
    (s.meshStray router src tag).reg a = s.reg a := (State.raise_reg _ hirq).trans (s.meshErr_reg _ _ _ _ _ hlog)

/-- The first entry of the log names the kind 3 and the router. -/
theorem State.meshStray_logged (s : State) (router src tag : Nat) (h : s.on MESH_ERR_LOG_VALID = false) :
    (s.meshStray router src tag).f MESH_ERR_LOG_KIND = 3 ∧ (s.meshStray router src tag).f MESH_ERR_LOG_ROUTER = router % 32 ∧
      (s.meshStray router src tag).on MESH_ERR_LOG_VALID = true := by
  simp only [State.on_iff]
  unfold State.meshStray
  rw [State.raise_f _ (by decide), State.raise_f _ (by decide), State.raise_f _ (by decide), State.meshErr, State.log_of_clear _ _ h]
  simp (disch := decide) only [State.f_put, State.f_put_disj]
  exact ⟨rfl, rfl, rfl⟩

theorem State.meshStray_rsps (s : State) (router src tag : Nat) : (s.meshStray router src tag).mesh.rsps = s.mesh.rsps := by
  have herr : (s.meshErr 3 router 0 src tag).mesh = s.mesh := by
    unfold State.meshErr State.log
    split <;> rfl
  rw [State.meshStray, State.raise_mesh, herr]

/-- Settles O15: presenting and accepting are updates of the port's tables, an answer is one of `State.tgtAnswer`. -/
theorem targetPorts : Obligations.TargetPorts := by
  unfold Obligations.TargetPorts
  intro s
  refine ⟨fun n id i w hn hid hlive hclk hshow hnext hroom hnew => ?present, fun n id x r hopen hshow hreq hready => ?accept,
    fun n id w rest hn hdead hwaits hghost => ?frozen, fun n i j w hopen hvalid hfind hat hw hghost => ?answer,
    fun n hopen hvalid hfind hlog => ?stray⟩
  case present =>
    refine ⟨_, execTargetRequest_of_next s hn hid hlive hclk hshow hnext hroom hnew, ?_, rfl, (setFab_only s _).keepsRegs⟩
    rw [State.setFab_fab, mget_mset_self]
  case accept =>
    refine ⟨_, execTargetRequest_of_ready s id hopen hshow (by simp [hreq]) hready, ?_, ?_, ?_, rfl,
      ((chanDone_only _ n 3).after (m := 8) (by decide) (setFab_only s _)).keepsRegs⟩
    all_goals rw [State.chanDone_fab, State.setFab_fab, mget_mset_self]
  case frozen =>
    have hexec := execTargetRequest_of_dead s id hn hdead
    have hanswer := s.tgtAnswer_of_live (t := 4 * n + 1) (i := 0) ⟨4, 0x71, 0, 0⟩ (by rw [hwaits]; rfl) hghost
    rw [hwaits] at hanswer
    refine ⟨_, hexec, ?_, ?_, s.tgtFrozen_tShow n, (execTargetRequest_only n id s _ hexec).keeps fun a _ => State.reg_congr ?_ a⟩
    · rw [State.waits, s.tgtFrozen_mesh, hanswer]
      exact s.waits_setWaits _ rest
    · rw [s.tgtFrozen_mesh, hanswer]
      rfl
    · rw [s.tgtFrozen_regs, hanswer]
      rfl
  case answer =>
    have hanswer := (s.tgtTaken n i).tgtAnswer_of_live (s.tgtRsp n w.acc.write) hw hghost
    have honly : Only 1033 s ((s.tgtTaken n i).tgtAnswer (4 * n + 1) j (s.tgtRsp n w.acc.write)) :=
      (tgtAnswer_only _ _ _ _).after (by decide) ((s.tgtTaken_only n i).mono (by decide))
    refine ⟨_, execTargetResponse_of_named s hopen hvalid hfind hat hw, ?_, ?_, ?_, ?_, honly.keeps fun a _ => State.reg_congr ?_ a⟩
    all_goals rw [hanswer]
    · exact (s.tgtTaken n i).waits_setWaits _ _
    · exact s.tgtTaken_tReq n i
    · rw [← s.tgtRsp_norm]
      rfl
    · exact s.tgtTaken_served n i
    · rfl
  case stray =>
    have hexec := execTargetResponse_of_stray s hopen hvalid hfind
    obtain ⟨hkind, hrouter, hon⟩ := (s.chanDone n 4).meshStray_logged n 0 0 hlog
    have hn := State.chanOpen_lt hopen
    have hfab : ((s.chanDone n 4).meshStray n 0 0).fab = (s.chanDone n 4).fab := (meshStray_only _ _ _ _).fab (by decide)
    refine ⟨_, hexec, hkind, hrouter.trans (by omega), hon, ?_, State.meshStray_rsps _ _ _ _, ?_⟩
    · rw [hfab, State.chanDone_fab, mget_mset_self]
    · refine (execTargetResponse_only n s _ hexec).keeps fun a ha => ?_
      obtain ⟨hlog, hirq⟩ := not_or.1 ha
      exact State.meshStray_reg _ _ _ _ hlog hirq

end Sys2Proof.Machine
end

section
/-! SUPPORT. The registers that the counter tree touches (R422 to R427), and the edges of free-running clocks: flip-flops (R58, R61, R143 to R146),
ports of block memories (R94 to R106), slices (R117, R121). -/

namespace Sys2Proof.Machine

/-! ### The registers of the counter tree (R422 to R427) -/

/-- A register of the INTEGRITY block, or the one that shows the tree's events. -/
abbrev TreeReg (a : Nat) : Prop := 0x300000 ≤ a ∧ a < 0x400000 ∨ a = HIF_IRQ_STAT 6

section
variable (s : State) {n a : Nat}

/-- The registers of counter `n` after an overflow: it restarts at 0, OVF_CNT, and FAULT with a wrong parity. -/
def State.cntRestart (n : Nat) (fault : Bool) : State :=
  ((s.put (cntF n) 0).addF (cntOvfF n) 1).when fault (fun t => t.put (cntFaultF n) 1)

/-- An overflow writes these registers and raises the event of its level. -/
theorem State.cntOverflow_raises (n : Nat) (fault : Bool) :
    ∃ u : State, s.cntOverflow n fault = u.raise (208 + cntLevel n) ∧ u.regs = (s.cntRestart n fault).regs := by
  refine ⟨_, rfl, ?_⟩
  unfold State.cntRestart State.when
  dsimp only
  generalize (if fault then ((s.put (cntF n) 0).addF (cntOvfF n) 1).put (cntFaultF n) 1 else (s.put (cntF n) 0).addF (cntOvfF n) 1) = u
  split
  · exact (apply_ite State.regs _ _ _).trans (ite_self u.regs)
  · rfl

theorem State.cntOverflow_reg (fault : Bool) (hn : n < 1000) (ha : ¬ TreeReg a) : (s.cntOverflow n fault).reg a = s.reg a := by
  have hirq : a ≠ HIF_IRQ_STAT ((208 + cntLevel n) / 32) := by
    rw [cntLevel, if_pos hn]
    exact fun h => ha (.inr h)
  have hstat : INT_LEAF_STAT n ≠ a := by unfold INT_LEAF_STAT; omega
  have hcount : ((s.put (cntF n) 0).addF (cntOvfF n) 1).reg a = s.reg a := by
    rw [cntF, cntOvfF, if_pos hn, if_pos hn, State.addF_reg _ _ _ hstat.symm, State.reg_put_ne _ _ hstat]
  obtain ⟨u, hover, hregs⟩ := s.cntOverflow_raises n fault
  rw [hover, State.raise_reg _ hirq, State.reg_congr hregs, State.cntRestart]
  cases fault
  · exact hcount
  · show (((s.put (cntF n) 0).addF (cntOvfF n) 1).put (cntFaultF n) 1).reg a = _
    rw [cntFaultF, if_pos hn, State.reg_put_ne _ _ hstat, hcount]

theorem State.cntParity_reg (hn : n < 1000) (ha : ¬ TreeReg a) : (s.cntParity n).reg a = s.reg a := by
  unfold State.cntParity
  split
  · exact State.cntOverflow_reg _ true hn ha
  · rfl

theorem State.cntLeak_reg (hn : n < 1000) (ha : ¬ TreeReg a) : (s.cntLeak n).reg a = s.reg a := by
  have hstat : INT_LEAF_STAT n ≠ a := by unfold INT_LEAF_STAT; omega
  unfold State.cntLeak
  split
  · dsimp only
    rw [cntF, if_pos hn, State.reg_put_ne _ _ hstat, State.cntParity_reg _ hn ha]
    rfl
  · rfl

theorem State.cntAdd_reg (k : Nat) (hn : n < 1000) (ha : ¬ TreeReg a) : (s.cntAdd n k).reg a = s.reg a := by
  have hstat : INT_LEAF_STAT n ≠ a := by unfold INT_LEAF_STAT; omega
  have hchecked : ((s.cntLeak n).cntParity n).reg a = s.reg a := by rw [State.cntParity_reg _ hn ha, s.cntLeak_reg hn ha]
  unfold State.cntAdd
  dsimp only
  split
  · split
    · exact hchecked
    · split
      · rw [State.cntOverflow_reg _ false hn ha, hchecked]
      · rw [cntF, if_pos hn, State.reg_put_ne _ _ hstat, hchecked]
  · rfl

end

/-- An error event in a leaf touches registers of the INTEGRITY block and the one of the tree's events. -/
theorem State.leafEvent_reg (s : State) (l : Nat) (ue : Bool) (index : Nat) {a : Nat} (ha : ¬ TreeReg a) :
    (s.leafEvent l ue index).reg a = s.reg a := by
  unfold State.leafEvent
  split
  next hl =>
    have hlt : l < 1000 := by
      simp only [leafExists, Bool.or_eq_true, Bool.and_eq_true, decide_eq_true_eq, beq_iff_eq] at hl
      omega
    have hlast : INT_LEAF_LAST l ≠ a := by unfold INT_LEAF_LAST; omega
    dsimp only
    rw [State.cntAdd_reg _ _ hlt ha]
    split
    · rfl
    · rw [State.reg_put_ne _ _ hlast, State.reg_put_ne _ _ hlast, State.reg_put_ne _ _ hlast]
  next => rfl

/-- An error event in a leaf leaves the fields of other registers. -/
theorem State.leafEvent_f (s : State) (l : Nat) (ue : Bool) (index : Nat) {x : Fld} (ha : ¬ TreeReg x.addr) :
    (s.leafEvent l ue index).f x = s.f x := by
  unfold State.f
  rw [State.leafEvent_reg _ _ _ _ ha]

/-! ### The values of the fabric do not depend on the clock system -/

theorem evalNode_setClk (s : State) (x : Clk) (fuel : Nat) (node : Node) : evalNode (s.setClk x) fuel node = evalNode s fuel node := by
  induction fuel generalizing node with
  | zero => rfl
  | succ fuel ih =>
    cases node with
    | net rb n => cases n <;> simp only [evalNode, ih] <;> rfl
    | lut cell k =>
      simp only [evalNode, ih]
      rfl
    | acc sl =>
      simp only [evalNode, ih]
      rfl

theorem State.pinVal_setClk (s : State) (x : Clk) (rb : Nat) (src : List Net) : (s.setClk x).pinVal rb src = s.pinVal rb src := by
  simp only [State.pinVal, evalNode_setClk]

theorem State.ffD_setClk (s : State) (x : Clk) (c : CellCfg) (b : Bool) : (s.setClk x).ffD c b = s.ffD c b := by
  simp only [State.ffD, evalNode_setClk, State.pinVal_setClk]

theorem State.ffSr_setClk (s : State) (x : Clk) (cell : Nat) (c : FfCfg) : (s.setClk x).ffSr cell c = s.ffSr cell c := by
  simp only [State.ffSr, State.pinVal_setClk]
  rfl

theorem State.ffCe_setClk (s : State) (x : Clk) (cell : Nat) (c : FfCfg) : (s.setClk x).ffCe cell c = s.ffCe cell c := by
  simp only [State.ffCe, State.pinVal_setClk]
  rfl

theorem State.ffNext_setClk (s : State) (x : Clk) (c : CellCfg) (b : Bool) : (s.setClk x).ffNext c b = s.ffNext c b := by
  simp only [State.ffNext, State.ffSr_setClk, State.ffCe_setClk, State.ffD_setClk]
  rfl

/-! ### What an edge does to the clock system (R143 to R146) -/

/-- From `s` to `t` at most the counts of the dividers and the levels of their outputs have changed. -/
def State.Divided (s t : State) : Prop := ∃ p h, t = s.setClk { s.clk with phase := p, high := h }

theorem State.Divided.refl (s : State) : s.Divided s := ⟨s.clk.phase, s.clk.high, rfl⟩

theorem State.Divided.trans {s t u : State} (h : s.Divided t) (g : t.Divided u) : s.Divided u := by
  obtain ⟨p, hi, rfl⟩ := h
  obtain ⟨p', hi', rfl⟩ := g
  exact ⟨p', hi', rfl⟩

theorem State.ckinSeen_divided (s : State) (m : Nat) (fall : Bool) : s.Divided (s.ckinSeen m fall) := by
  unfold State.ckinSeen State.when
  split
  · exact ⟨_, _, rfl⟩
  · exact .refl s

theorem State.divide_divided (s : State) (m : Nat) (fall : Bool) : s.Divided (s.divide m fall).1 := ⟨_, _, rfl⟩

theorem divideAll_divided (l : List (Nat × Nat)) (fall : Bool) (s : State) : s.Divided (divideAll l fall s).1 := by
  induction l generalizing s with
  | nil => exact .refl s
  | cons e l ih => exact (s.divide_divided _ fall).trans (ih _)

theorem State.fanOut_divided (s : State) (m : Nat) (fall : Bool) : s.Divided (s.fanOut m fall).1 := by
  unfold State.fanOut
  split
  · exact divideAll_divided _ _ s
  · exact .refl s

theorem State.clockEdge_divided (s : State) (m : Nat) (fall : Bool) : s.Divided (s.clockEdge m fall).1 := by
  have hdiv := s.divide_divided m fall
  unfold State.clockEdge
  dsimp only
  split
  · exact hdiv
  · exact hdiv.trans (State.fanOut_divided _ _ _)

/-! ### Free flip-flops at edges of spines (R58, R61) -/

/-- What a flip-flop takes at an edge stands under its own key. -/
theorem State.ffFreeEdge_key (s : State) (l : List (Nat × Nat × Bool)) (c : CellCfg) (b : Bool) :
    ∀ e ∈ (s.ffFreeEdge l c b).toList, e.1 = 2 * c.cell + b2n b := by
  intro e he
  rw [Option.mem_toList, State.ffFreeEdge, Option.ite_none_right_eq_some] at he
  obtain ⟨-, he⟩ := he
  exact congrArg Prod.fst (Option.some.inj he).symm

theorem State.ffFreeEdge_of_edge (s : State) {l : List (Nat × Nat × Bool)} {c : CellCfg} (hfree : s.ffFree c false = true)
    (hheld : bayOfCell c.cell ∉ s.fab.held)
    (hedge : (s.ffSpines c.cell c.ffa).any (fun e => decide ((sectorOfCell c.cell, e.1, e.2) ∈ l)) = true) :
    s.ffFreeEdge l c false = some (2 * c.cell, s.ffNext c false) := by
  unfold State.ffFreeEdge
  exact if_pos (by simp only [hfree, hheld, decide_false, Bool.not_false, Bool.and_self, Bool.true_and]; exact hedge)

/-- With the shadow latches closed no latch follows a flip-flop. -/
theorem State.latchFf_of_closed {s : State} (h : s.strobeOpen = none) (k : Nat) (v : Bool) : s.latchFf k v = s := by
  unfold State.latchFf
  rw [h]

theorem State.each_of_fixed {α : Type} {s : State} {g : α → State → State} (l : List α) (h : ∀ x, g x s = s) : s.each l g = s := by
  unfold State.each
  induction l with
  | nil => rfl
  | cons x l ih => rw [foldS, h, ih]

/-- An edge of PCLK drives the signals of the ports, and of the fabric changes nothing else. -/
theorem State.each_meshPortEdge_fab (s : State) (l : List Nat) :
    ∃ v a d, (s.each l (fun n t => t.meshPortEdge n)).fab = { s.fab with portView := v, mAck := a, served := d } := by
  induction l generalizing s with
  | nil => exact ⟨_, _, _, rfl⟩
  | cons n l ih =>
    obtain ⟨v, a, d, hfab⟩ := ih (s.meshPortEdge n)
    exact ⟨v, a, d, hfab⟩

/-- Writes at other keys leave what stands at `k`. -/
theorem mget_foldl_mset_ne {α : Type} [DecidableEq α] (l : List (Nat × α)) (m : List (Nat × α)) (d : α) {k : Nat} (h : ∀ e ∈ l, e.1 ≠ k) :
    mget (l.foldl (fun m e => mset m d e.1 e.2) m) d k = mget m d k := by
  induction l generalizing m with
  | nil => rfl
  | cons e l ih =>
    obtain ⟨he, hl⟩ := List.forall_mem_cons.1 h
    rw [List.foldl_cons, ih _ hl, mget_mset_ne _ _ _ _ _ _ he]

/-- The flip-flops after the edges `l`, where cell `c` alone is configured. -/
def State.ffsAfter (s : State) (l : List (Nat × Nat × Bool)) (c : CellCfg) : List (Nat × Bool) :=
  ((s.ffFreeEdge l c false).toList ++ (s.ffFreeEdge l c true).toList).foldl (fun m x => mset m false x.1 x.2) s.fab.ff

/-- Its FFA takes its next value where one of its spines has the edge. -/
theorem State.ffsAfter_ffa (s : State) {l : List (Nat × Nat × Bool)} {c : CellCfg}
    (h : s.ffFreeEdge l c false = some (2 * c.cell, s.ffNext c false)) :
    mget (s.ffsAfter l c) false (2 * c.cell) = s.ffNext c false := by
  have hffb : ∀ e ∈ (s.ffFreeEdge l c true).toList, e.1 ≠ 2 * c.cell := fun e he => by
    have := s.ffFreeEdge_key l c true e he
    simp only [b2n, if_true] at this
    omega
  rw [State.ffsAfter, h, Option.toList_some, List.singleton_append, List.foldl_cons, mget_foldl_mset_ne _ _ _ hffb, mget_mset_self]

/-- No flip-flop of another cell changes. -/
theorem State.ffsAfter_other (s : State) (l : List (Nat × Nat × Bool)) (c : CellCfg) {k : Nat} (hk : k / 2 ≠ c.cell) :
    mget (s.ffsAfter l c) false k = mget s.fab.ff false k := by
  have hne (b : Bool) : ∀ e ∈ (s.ffFreeEdge l c b).toList, e.1 ≠ k := fun e he => by
    have := s.ffFreeEdge_key l c b e he
    cases b <;> simp only [b2n, if_true, Bool.false_eq_true, if_false] at this <;> omega
  exact mget_foldl_mset_ne _ _ _ fun e he => (List.mem_append.1 he).elim (hne false e) (hne true e)

/-- With one cell configured and the latches closed, edges of spines change its flip-flops and the signals of the mesh ports. -/
theorem State.spineEdges_fab (s : State) (l : List (Nat × Nat × Bool)) {c : CellCfg} (hcells : s.cells = [c]) (hhold : s.fab.hold = false)
    (hclosed : s.strobeOpen = none) :
    ∃ v a d, (s.spineEdges l).fab = { s.fab with ff := s.ffsAfter l c, portView := v, mAck := a, served := d } := by
  unfold State.spineEdges
  rw [hhold, hcells]
  dsimp only
  rw [if_neg Bool.false_ne_true, List.flatMap_singleton, State.each_of_fixed _ fun x : Nat × Bool => State.latchFf_of_closed hclosed x.1 x.2]
  obtain ⟨v, a, d, hfab⟩ := State.each_meshPortEdge_fab (s.setFab { s.fab with ff := s.ffsAfter l c })
    ((List.range 16).filter (fun n => (s.pclk n).any (fun g => decide ((n, g, false) ∈ l))))
  exact ⟨v, a, d, hfab⟩

/-- FREE_FF_CLOCK_EDGE of a clock that can have the edge. -/
theorem execFreeFfClockEdge_of_due (s : State) {m : Nat} {fall : Bool} (hclk : s.freeClocks = true) (hdue : s.edgeDue m fall = true) :
    exec (.freeFfClockEdge m fall) s =
      .next (((s.ckinSeen m fall).clockEdge m fall).1.spineEdges ((s.ckinSeen m fall).clockEdge m fall).2) := by
  show execFreeFfClockEdge m fall s = _
  unfold execFreeFfClockEdge
  rw [if_pos (by simp [hclk, hdue])]

/-- An asserted asynchronous SR of FFA loads SR_VAL. -/
theorem execAsyncSrAssert_of_ffa (s : State) {k : Nat} {c : CellCfg} (hcfg : s.cellCfg (k / 2) = some c) (hk : k % 2 = 0)
    (hfree : s.ffFree c false = true) (hsr : s.ffAsyncSr c.cell c.ffa = true) (hhold : s.fab.hold = false)
    (hheld : bayOfCell c.cell ∉ s.fab.held) :
    exec (.asyncSrAssert k) s = .next (s.setFab { s.fab with ff := mset s.fab.ff false k c.ffa.srVal }) := by
  show execAsyncSrAssert k s = _
  unfold execAsyncSrAssert
  rw [hcfg, hk]
  exact congrArg Host.Outcome.next (if_pos (by simp [hfree, hsr, hhold, hheld]))

/-! ### Free ports of block memories (R94, R98 to R106) -/

theorem State.memCfg_mem {s : State} {m : Nat} {c : MemCfg} (h : s.memCfg m = some c) : c.mem = m := by
  simpa using List.find?_some h

/-- A decode of a row touches registers of the counter tree. -/
theorem State.memEvents_reg (s : State) (m : Nat) (portB : Bool) (row raw : Nat) {a : Nat} (ha : ¬ TreeReg a) :
    (s.memEvents m portB row raw).reg a = s.reg a := by
  unfold State.memEvents
  split
  · exact State.leafEvent_reg _ _ _ _ ha
  · exact State.leafEvent_reg _ _ _ _ ha
  · rfl

theorem State.memEvents_fab (s : State) (m : Nat) (portB : Bool) (row raw : Nat) : (s.memEvents m portB row raw).fab = s.fab :=
  (memEvents_only s m portB row raw).fab (by decide)

section
variable (s : State) (c : MemCfg)

theorem State.memStore_reg (y : PortAcc) (data mask : Nat) (pin pb : Bool) {a : Nat} (ha : ¬ TreeReg a) :
    (s.memStore c y data mask pin pb).reg a = s.reg a := by
  unfold State.memStore State.when
  dsimp only
  split
  · exact State.memEvents_reg _ _ _ _ _ ha
  · rfl

/-- A port's write stores the merged row. -/
theorem State.memStore_rows (y : PortAcc) (data mask : Nat) (pin pb : Bool) :
    (s.memStore c y data mask pin pb).fab.rows =
      mset s.fab.rows 0 (512 * c.mem + y.row) (BitVec.ofNat 72 (memWrite c.ecc (s.row c.mem y.row) data mask pin)) := by
  unfold State.memStore State.when
  dsimp only
  split
  · rw [State.memEvents_fab]
    rfl
  · rfl

theorem State.memShow_reg (i : Nat) (pc : PortCfg) (x : Option PortAcc) (old : Option Nat) {a : Nat} (ha : ¬ TreeReg a) :
    (s.memShow c i pc x old).reg a = s.reg a := by
  unfold State.memShow State.when
  dsimp only
  split
  · split
    · exact State.memEvents_reg _ _ _ _ _ ha
    · rfl
  · rfl

theorem State.memShow_rows (i : Nat) (pc : PortCfg) (x : Option PortAcc) (old : Option Nat) : (s.memShow c i pc x old).fab.rows = s.fab.rows := by
  unfold State.memShow State.when
  dsimp only
  split
  · split
    · rw [State.memEvents_fab]
      rfl
    · rfl
  · rfl

/-- An enabled access of port A alone that writes. -/
theorem State.memEdge_of_write {y : PortAcc} (hen : y.en = true) (hw : y.write = true) :
    s.memEdge c (some y) none false = (s.memStore c y y.data y.mask y.pin false).memShow c 0 c.a (some y) (some (s.row c.mem y.row)) := by
  simp only [State.memEdge, Option.bind_some, Option.bind_none, hen, hw, if_true, Option.map_some, Option.map_none]
  rfl

/-- An enabled access of port A alone that reads. -/
theorem State.memEdge_of_read {y : PortAcc} (hen : y.en = true) (hr : y.write = false) :
    s.memEdge c (some y) none false = s.memShow c 0 c.a (some y) (some (s.row c.mem y.row)) := by
  simp only [State.memEdge, Option.bind_some, Option.bind_none, hen, hr, if_true, Option.map_some, Option.map_none]
  rfl

/-- Without ECC a read loads the port register with the addressed bits, and finds nothing. -/
theorem State.memShow_of_read {y : PortAcc} (pc : PortCfg) (old : Nat) (hecc : c.ecc = false) (hr : y.write = false) :
    s.memShow c 0 pc (some y) (some old) = s.setFab { s.fab with
      portReg := mset s.fab.portReg PortReg.init (2 * c.mem)
        (portLoad pc (mget s.fab.portReg PortReg.init (2 * c.mem)) (some ((old >>> y.off) % 2 ^ pc.width))) } := by
  unfold State.memShow portDout memRead State.when
  simp [hecc, hr]

theorem State.memFree_of_portA : s.memFree c true false = (s.memEdge c (some (s.portAcc c.mem c.a)) none false).portSr s c.mem 0 c.a := by
  simp only [State.memFree, if_true, Bool.false_eq_true, if_false]

theorem State.memFree_none : s.memFree c false false = s := by
  simp only [State.memFree, Bool.false_eq_true, if_false]
  rfl

end

theorem State.portSr_regs (t s : State) (m i : Nat) (c : PortCfg) : (t.portSr s m i c).regs = t.regs := by
  unfold State.portSr
  split <;> rfl

theorem State.portSr_rows (t s : State) (m i : Nat) (c : PortCfg) : (t.portSr s m i c).fab.rows = t.fab.rows := by
  unfold State.portSr
  split <;> rfl

/-- An edge of port A of a memory whose ports have clocks of their own. -/
theorem execBramPortAccess_of_portA (s : State) {m : Nat} {c : MemCfg} (hcfg : s.memCfg m = some c) (hclk : s.freeClocks = true)
    (hhold : s.fab.hold = false) (hheld : m / 128 ∉ s.fab.held) (hdesign : s.designPort m c.a = false)
    (hruns : s.spineRuns (m / 1024) c.a.clk = true) (hclks : c.a.clk ≠ c.b.clk) :
    exec (.bramPortAccess m true false []) s = .next ((s.memEdge c (some (s.portAcc m c.a)) none false).portSr s m 0 c.a) := by
  obtain rfl := State.memCfg_mem hcfg
  have hflips : s.rowFlips [] = s := rfl
  have hone : (c.a.clk == c.b.clk) = false := by simpa using hclks
  show execBramPortAccess c.mem true false [] s = _
  unfold execBramPortAccess
  rw [hcfg]
  dsimp only
  rw [if_pos (by simp [hclk, hhold, hheld]), List.map_nil, hflips, hone]
  simp only [hdesign, hruns, Bool.false_and, Bool.or_false, Bool.and_false, Bool.not_false, Bool.and_self,
    Bool.false_eq_true, if_false, State.memFree_none, State.memFree_of_portA]

/-! ### Free slices (R117, R121) -/

theorem State.latchSlice_of_closed {s : State} (h : s.strobeOpen = none) (k : Nat) (v : SliceReg) : s.latchSlice k v = s := by
  unfold State.latchSlice
  rw [h]

/-- One free slice on a clock that runs takes the registers of its step; a failed residue check is an error of the slice. -/
theorem execSliceUpdate_of_one (s : State) {sl : Nat} (flip : Nat) {c : SliceCfg} (hclk : s.freeClocks = true) (hhold : s.fab.hold = false)
    (hcfg : s.sliceCfg sl = some c) (hdesign : s.designSlice c = false) (hruns : s.spineRuns (sl / 768) c.clk = true)
    (hheld : sl / 96 ∉ s.fab.held) (hclosed : s.strobeOpen = none) :
    exec (.sliceUpdate [(sl, flip)]) s = .next ((s.setFab { s.fab with
      slice := mset s.fab.slice SliceReg.init sl (s.sliceStep c flip).1 }).residueError sl (s.sliceStep c flip).2) := by
  show execSliceUpdate [(sl, flip)] s = _
  unfold execSliceUpdate
  rw [if_pos (by simp [hclk, hhold])]
  have hstep : [(sl, flip)].filterMap (fun x => (s.sliceCfg x.1).bind (fun c =>
      if s.designSlice c || !s.spineRuns (x.1 / 768) c.clk || decide (x.1 / 96 ∈ s.fab.held) then none
      else some (x.1, (s.sliceStep c x.2).1, (s.sliceStep c x.2).2))) = [(sl, (s.sliceStep c flip).1, (s.sliceStep c flip).2)] := by
    simp [hcfg, hdesign, hruns, hheld]
  have hlatch (l : List (Nat × SliceReg × Bool)) : s.each l (fun x t => t.latchSlice x.1 x.2.1) = s :=
    State.each_of_fixed l fun x => State.latchSlice_of_closed hclosed x.1 x.2.1
  dsimp only
  rw [hstep, hlatch]
  rfl

/-- Settles O16: a clock edge leaves what the flip-flops read of the state alone, so their next values are those before it; the edge of a
memory port is one write or one load, that of a slice one step. -/
theorem freeRunningEdges : Obligations.FreeRunningEdges := by
  unfold Obligations.FreeRunningEdges
  intro s
  refine ⟨fun m fall c hclk hdue hhold hcells hfree hheld hedge hclosed => ?ff, fun k c hcfg hk hfree hsr hhold hheld => ?asyncSr,
    fun m c hcfg _ hclk hhold hheld hdesign hruns hclks hen hw => ?write,
    fun m c hcfg hecc hclk hhold hheld hdesign hruns hclks hsr hen hr => ?read,
    fun sl flip c hclk hhold hcfg hdesign hruns hheld hclosed => ?slice⟩
  case ff =>
    have hexec := execFreeFfClockEdge_of_due s hclk hdue
    have hframe := (execFreeFfClockEdge_only m fall s _ hexec).keepsRegs (ps := [.fab, .clk])
    refine ⟨_, hexec, ?_⟩
    obtain ⟨p, h, hclkd⟩ := (s.ckinSeen_divided m fall).trans ((s.ckinSeen m fall).clockEdge_divided m fall)
    generalize ((s.ckinSeen m fall).clockEdge m fall).2 = l at hedge hframe ⊢
    rw [hclkd] at hframe ⊢
    obtain ⟨v, a, d, hfab⟩ := (s.setClk { s.clk with phase := p, high := h }).spineEdges_fab l hcells hhold hclosed
    have hffa := (s.setClk { s.clk with phase := p, high := h }).ffFreeEdge_of_edge hfree hheld hedge
    rw [hfab]
    refine ⟨?_, fun k hk => ?_, rfl, rfl, rfl, rfl, hframe⟩
    · rw [← s.ffNext_setClk { s.clk with phase := p, high := h }]
      exact State.ffsAfter_ffa _ hffa
    · exact State.ffsAfter_other _ l c hk
  case asyncSr =>
    refine ⟨_, execAsyncSrAssert_of_ffa s hcfg hk hfree hsr hhold hheld, ?_, fun j hj => ?_, rfl, (setFab_only s _).keepsRegs⟩
    · rw [State.setFab_fab, mget_mset_self]
    · rw [State.setFab_fab, mget_mset_ne _ _ _ _ _ _ hj.symm]
  case write =>
    have hexec := execBramPortAccess_of_portA s hcfg hclk hhold hheld hdesign hruns hclks
    have hedge := s.memEdge_of_write c hen hw
    have hrows : (((s.memEdge c (some (s.portAcc m c.a)) none false).portSr s m 0 c.a)).fab.rows =
        mset s.fab.rows 0 (512 * m + (s.portAcc m c.a).row) (BitVec.ofNat 72
          (memWrite c.ecc (s.row m (s.portAcc m c.a).row) (s.portAcc m c.a).data (s.portAcc m c.a).mask (s.portAcc m c.a).pin)) := by
      rw [State.portSr_rows, hedge, State.memShow_rows, State.memStore_rows, State.memCfg_mem hcfg]
    refine ⟨_, hexec, ?_, fun k hk => ?_, (execBramPortAccess_only m true false [] s _ hexec).keeps fun a ha => ?_⟩
    · rw [State.row, hrows, mget_mset_self, BitVec.toNat_ofNat]
    · rw [hrows, mget_mset_ne _ _ _ _ _ _ hk.symm]
    · rw [State.reg_congr (State.portSr_regs _ s m 0 c.a), hedge, State.memShow_reg _ _ _ _ _ _ ha, State.memStore_reg _ _ _ _ _ _ _ ha]
  case read =>
    have hexec := execBramPortAccess_of_portA s hcfg hclk hhold hheld hdesign hruns hclks
    have hsrOff (t : State) : t.portSr s m 0 c.a = t := if_neg (by simp [hsr])
    rw [hsrOff, s.memEdge_of_read c hen hr, s.memShow_of_read c _ _ hecc hr, State.memCfg_mem hcfg] at hexec
    refine ⟨_, hexec, ?_, rfl, (setFab_only s _).keepsRegs⟩
    rw [State.setFab_fab, mget_mset_self]
  case slice =>
    have hexec := execSliceUpdate_of_one s flip hclk hhold hcfg hdesign hruns hheld hclosed
    have hfab (t : State) (fail : Bool) : (t.residueError sl fail).fab = t.fab := (residueError_only t sl fail).fab (by decide)
    refine ⟨_, hexec, ?_⟩
    rw [hfab, State.setFab_fab]
    refine ⟨mget_mset_self _ _ _ _, fun k hk => mget_mset_ne _ _ _ _ _ _ hk.symm, rfl, fun hfail => ?_⟩
    rw [hfail]
    exact (setFab_only s _).keepsRegs

end Sys2Proof.Machine
end

section
/-! SUPPORT. The configuration engine (file 05): the image store (R178, R180), a record for a bay that the device does not have (R175), arming,
cancelling and blanking (R189 to R195), the claim map (R199), the scrubber (R200 to R203). -/

namespace Sys2Proof.Machine

/-! ### A record for a bay that the device does not have (R175, R180) -/

/-- A ZERO record for frame 0, all that a section holds. -/
def zeroRec : Rec := ⟨3, 0, 1, 4⟩

/-- A bay section with this record, whose TARGET 200 is none of the device's 128 bays. -/
def farSect : Sect := ⟨⟨0, 0x10, 200, 0, 4, 0, 0⟩, 3 * 2 ^ 28, 0, [], []⟩

/-- A FULL load that waits for the records of that section. -/
def farLoad : Load := ⟨0, 0, 0, 0, 0, 0, none, [], some farSect, none⟩

/-- The state after reset, but this load is in progress and PHASE of CFG_STAT shows its bays. -/
def farLoading : State := { (State.reset.put CFG_STAT_PHASE 3) with cfg := { Cfg.init with load := some farLoad } }

/-- The mirror of a frame of bay 200 lies past the last line of HBM: its writes are unmapped accesses, and EV_ADDR_UNMAPPED (0) is raised. -/
theorem zeroRecord_raises_unmapped :
    ∃ t, exec .zeroRecord farLoading = .next t ∧ t.reg (HIF_IRQ_STAT 0) = 1#32 :=
  ⟨_, rfl, by decide +kernel⟩

/-- Refutes O22: the frame of ZERO leaves HIF_IRQ_STAT 0 in every calm state, and in one whose load has a bay section with a TARGET above 127
the write of the frame's mirror raises event 0 there. The clauses of FRAMES, REPEAT and ZERO put no bound on TARGET, as that of END does;
no image that passes the check of R174 has such a section. -/
theorem not_loadRecords : ¬ Obligations.LoadRecords := by
  unfold Obligations.LoadRecords
  intro h
  obtain ⟨-, -, hzero, -⟩ := h farLoading ⟨rfl, by decide +kernel⟩
  obtain ⟨t, he, -, -, -, -, -, hreg, -⟩ := hzero farLoad farSect zeroRec (by decide +kernel) (by decide +kernel) (.inl (by decide)) rfl
    (by decide +kernel) (by decide +kernel)
  obtain ⟨u, hu, hraised⟩ := zeroRecord_raises_unmapped
  obtain rfl : u = t := Host.Outcome.next.inj (hu.symm.trans he)
  exact absurd (hraised.symm.trans (hreg (HIF_IRQ_STAT 0) (by decide))) (by decide +kernel)

/-! ### Lines of the image store (R178, R180, R409) -/

/-- A register of the counter tree, of in-package memory or of the mesh, or the one that shows the tree's events. -/
abbrev StoreReg (a : Nat) : Prop := InBlocks [3, 4, 5] a ∨ a = HIF_IRQ_STAT 6

/-- The tree's registers are among these. -/
theorem not_treeReg {a : Nat} (h : ¬ StoreReg a) : ¬ TreeReg a := by
  intro ht
  refine h (ht.imp (fun hblock => ?_) id)
  have : a / 0x100000 = 3 := by omega
  simp [InBlocks, this]

/-- Block 4 of R22, or 5. -/
theorem ne_of_not_storeReg {a b : Nat} (h : ¬ StoreReg a) (h1 : 0x400000 ≤ b) (h2 : b < 0x600000) : b ≠ a := by
  rintro rfl
  have : b / 0x100000 = 4 ∨ b / 0x100000 = 5 := by omega
  exact h (.inl (by rcases this with h | h <;> simp [InBlocks, h]))

theorem memStack_lt (a : Nat) : memStack a < 4 := Nat.mod_lt _ (by decide)

section
variable (s : State) {a : Nat} {r : Nat}

theorem State.tagRead_reg (hr : ¬ StoreReg r) : (s.tagRead a).reg r = s.reg r := by
  have hfetch : (s.tagFetch (tagLineOf a)).reg r = s.reg r := State.reg_congr ((tagFetch_only _ _).regs (by decide)) r
  have hstack := memStack_lt a
  have hcnt : MEM_STACK_CNT (memStack a) ≠ r := ne_of_not_storeReg hr (by unfold MEM_STACK_CNT; omega) (by unfold MEM_STACK_CNT; omega)
  unfold State.tagRead State.when
  dsimp only
  split
  · rw [State.memCe, State.leafEvent_reg _ _ _ _ (not_treeReg hr), State.satF, State.reg_put_ne _ _ hcnt, hfetch]
  · exact hfetch

theorem State.lineWrite_reg (data poison : Nat) (hr : ¬ StoreReg r) : (s.lineWrite a data poison).1.reg r = s.reg r := by
  unfold State.lineWrite
  split
  · rfl
  · rw [State.reg_congr ((lineStoreK_only _ _ _ _ _).regs (by decide)), s.tagRead_reg hr]

/-- A write of a whole line by the configuration engine (source 20): stopped, dropped behind a closed gate, or a full-line write. -/
theorem State.hubWrite_line (data : Nat) (ha : a % 64 = 0) :
    (s.hubWrite 20 a 64 data 0).1 =
      match s.hubStop 20 true a with
      | some t => t
      | none => if s.memGateOn a then (s.lineWrite (a / 64 * 64) data 0).1 else s := by
  unfold State.hubWrite
  dsimp only
  cases s.hubStop 20 true a with
  | some t => rfl
  | none =>
    dsimp only
    rw [ha]
    cases s.memGateOn a <;> rfl

theorem State.hubWrite_line_only (data : Nat) (ha : a % 64 = 0) : Only 138753 s (s.hubWrite 20 a 64 data 0).1 := by
  rw [s.hubWrite_line data ha]
  split
  next t ht => exact (hubStop_only s _ _ _ t ht).mono (by decide)
  next => exact Only.ite (lineWrite_only _ _ _ _) .refl

/-- A line of the store below the tag regions is written by source 20, or answered by the router of an absorbing port. -/
theorem State.hubWrite_line_reg (data : Nat) (ha : a % 64 = 0) (hlt : a < 0x001680000000) (hr : ¬ StoreReg r) :
    (s.hubWrite 20 a 64 data 0).1.reg r = s.reg r := by
  have hstack := memStack_lt a
  have habs : MESH_TGT_STAT (64 + 4 * memStack a) ≠ r :=
    ne_of_not_storeReg hr (by unfold MESH_TGT_STAT; omega) (by unfold MESH_TGT_STAT; omega)
  have hstop (t : State) (h : s.hubStop 20 true a = some t) : t.reg r = s.reg r := by
    rw [State.hubStop, if_neg (by simp [State.storeGuarded, hlt]), Option.ite_none_right_eq_some] at h
    obtain ⟨-, h⟩ := h
    rw [← Option.some.inj h, State.satF, State.reg_put_ne _ _ habs]
  rw [s.hubWrite_line data ha]
  split
  next t ht => exact hstop t ht
  next =>
    split
    · exact s.lineWrite_reg _ _ hr
    · rfl

end

theorem storeLines_aligned_only (n a v : Nat) (s : State) (ha : a % 64 = 0) : Only 138753 s (storeLines n a v s) := by
  induction n generalizing a v s with
  | zero => exact .refl
  | succ n ih => exact (s.hubWrite_line_only _ ha).trans (ih _ _ _ (by omega))

theorem storeLines_reg (n a v : Nat) (s : State) {r : Nat} (ha : a % 64 = 0) (hlt : a + 64 * n ≤ 0x001680000000) (hr : ¬ StoreReg r) :
    (storeLines n a v s).reg r = s.reg r := by
  induction n generalizing a v s with
  | zero => rfl
  | succ n ih => rw [storeLines, ih _ _ _ (by omega) (by omega), s.hubWrite_line_reg _ ha (by omega) hr]

section
variable (s : State) (k : Nat)

/-- The mirror of the frames of bay `k` takes zeros. -/
def State.mirrorZero : State := s.storePut (mirrorAddr (4608 * k)) (4608 * 640) 0

theorem State.mirrorZero_only : Only 138753 s (s.mirrorZero k) := storeLines_aligned_only _ _ _ _ (by unfold mirrorAddr; omega)

/-- The mirror of a bay of the device lies below the tag regions. -/
theorem State.mirrorZero_reg {r : Nat} (hk : k < 128) (hr : ¬ StoreReg r) : (s.mirrorZero k).reg r = s.reg r :=
  storeLines_reg _ _ _ _ (by unfold mirrorAddr; omega) (by unfold mirrorAddr; omega) hr

end

/-! ### Arming and cancelling a freeze (R189, R192, R195) -/

/-- The configuration engine's registers below those of the bays. -/
theorem cfgBayStat_ne (k : Nat) {b : Nat} (h : b < 0x201000) : CFG_BAY_STAT k ≠ b := by
  show 0x201000 + k * 0x10 ≠ b
  omega

section
variable (s : State) (mode : Nat) (relFirst : Bool) (bay : Nat)

/-- A write of ARM stores its MODE, REL_MODE and BAY. -/
def State.armPut : State := ((s.put CFG_PR_CTRL_MODE mode).put CFG_PR_CTRL_REL_MODE (b2n relFirst)).put CFG_PR_CTRL_BAY bay

/-- What a write of ARM records: the round of the freeze, and that of the release. -/
def State.armOf : Arm :=
  ⟨mode, bay, if mode = 1 then b2n (s.latState == 6) else s.f CFG_PR_FREEZE_LO_ROUND_LO + 2 ^ 32 * s.f CFG_PR_FREEZE_HI_ROUND_HI, relFirst,
    s.f CFG_PR_RELEASE_LO_ROUND_LO + 2 ^ 32 * s.f CFG_PR_RELEASE_HI_ROUND_HI⟩

/-- The freeze is armed. -/
def State.armSet : State :=
  ((s.armPut mode relFirst bay).setCfg { s.cfg with arm := some (s.armOf mode relFirst bay) }).put CFG_PR_CTRL_ARMED 1

@[simp] theorem State.armPut_cfg : (s.armPut mode relFirst bay).cfg = s.cfg := rfl

theorem State.armPut_reg {a : Nat} (h : CFG_PR_CTRL ≠ a) : (s.armPut mode relFirst bay).reg a = s.reg a := by
  simp only [State.armPut, State.reg_put, if_neg h]

theorem State.armPut_f {x : Fld} (h : CFG_PR_CTRL ≠ x.addr) : (s.armPut mode relFirst bay).f x = s.f x := by
  unfold State.f
  rw [State.armPut_reg _ _ _ _ h]

theorem State.armPut_on {x : Fld} (h : CFG_PR_CTRL ≠ x.addr) : (s.armPut mode relFirst bay).on x = s.on x := by
  unfold State.on
  rw [State.armPut_f _ _ _ _ h]

theorem State.armPut_bayState (k : Nat) : (s.armPut mode relFirst bay).bayState k = s.bayState k :=
  s.armPut_f _ _ _ (cfgBayStat_ne k (by decide)).symm

theorem State.armPut_latState : (s.armPut mode relFirst bay).latState = s.latState := s.armPut_f _ _ _ (by decide)

/-- Whether ARM is refused does not depend on what it stores. -/
theorem State.armPut_armRefused : (s.armPut mode relFirst bay).armRefused mode relFirst = s.armRefused mode relFirst := by
  have hround : (s.armPut mode relFirst bay).round = s.round := rfl
  simp (disch := decide) only [State.armRefused, State.stopped, hround, State.armPut_cfg, State.armPut_f, State.armPut_on,
    State.armPut_bayState, State.armPut_latState]
  rfl

theorem State.armPut_armOf : (s.armPut mode relFirst bay).armOf mode relFirst bay = s.armOf mode relFirst bay := by
  simp (disch := decide) only [State.armOf, State.armPut_latState, State.armPut_f]

theorem State.prArm_of_accepted (h : s.armRefused mode relFirst = none) :
    s.prArm mode relFirst bay =
      if mode = 2 then
        (s.armSet mode relFirst bay).bayFreeze (s.armOf mode relFirst bay) ((s.armSet mode relFirst bay).freezeValues bay)
      else s.armSet mode relFirst bay := by
  have hacc := (s.armPut_armRefused mode relFirst bay).trans h
  have harm := s.armPut_armOf mode relFirst bay
  unfold State.armPut at hacc
  unfold State.armPut State.armOf at harm
  unfold State.prArm
  dsimp only
  rw [hacc]
  dsimp only
  rw [harm]
  rfl

theorem State.armSet_reg {a : Nat} (h : CFG_PR_CTRL ≠ a) : (s.armSet mode relFirst bay).reg a = s.reg a := by
  rw [State.armSet, State.reg_put_ne _ _ h]
  exact (State.reg_congr (State.setCfg_regs _ _) a).trans (s.armPut_reg _ _ _ h)

theorem State.armPut_only : Only 1 s (s.armPut mode relFirst bay) := by
  unfold State.armPut
  with_reducible exact (put_only _ _ _).after (by decide) ((put_only _ _ _).after (by decide) (put_only _ _ _))

theorem State.armSet_only : Only 33 s (s.armSet mode relFirst bay) := by
  unfold State.armSet
  with_reducible exact (put_only _ _ _).after (by decide) ((setCfg_only _ _).after (by decide) ((s.armPut_only _ _ _).mono (by decide)))

theorem State.armSet_f {x : Fld} (ha : CFG_PR_CTRL = x.addr) (hd : x.hi < 29 ∨ 29 < x.lo) :
    (s.armSet mode relFirst bay).f x = (s.armPut mode relFirst bay).f x :=
  (State.f_put_disj _ _ ha (by decide) (by decide) hd).trans (State.f_congr (State.setCfg_regs _ _) x)

/-- What CFG_PR_CTRL shows of an armed freeze. -/
theorem State.armSet_ctrl (hmode : mode < 4) (hbay : bay < 128) :
    (s.armSet mode relFirst bay).on CFG_PR_CTRL_ARMED = true ∧ (s.armSet mode relFirst bay).f CFG_PR_CTRL_MODE = mode ∧
      (s.armSet mode relFirst bay).f CFG_PR_CTRL_BAY = bay ∧ (s.armSet mode relFirst bay).f CFG_PR_CTRL_REL_MODE = b2n relFirst := by
  refine ⟨(State.on_iff _ _).2 (State.f_put _ _ _ (by decide) (by decide)), ?_, ?_, ?_⟩
  all_goals
    rw [State.armSet_f _ _ _ _ rfl (by decide)]
    simp (disch := decide) only [State.armPut, State.f_put, State.f_put_disj]
  · omega
  · omega
  · cases relFirst <;> rfl

theorem State.armSet_keeps : Keeps (fun a => a = CFG_PR_CTRL) [.cfg] s (s.armSet mode relFirst bay) :=
  (s.armSet_only mode relFirst bay).keeps (fun _ ha => s.armSet_reg _ _ _ (Ne.symm ha))

end

/-! #### The hold of a bay (R190, R192) -/

theorem State.disarm_reg (s : State) {a : Nat} (h : CFG_PR_CTRL ≠ a) : s.disarm.reg a = s.reg a := by
  rw [State.disarm, State.reg_put_ne _ _ h]
  rfl

theorem State.disarm_armed (s : State) : s.disarm.on CFG_PR_CTRL_ARMED = false := by
  have h : s.disarm.f CFG_PR_CTRL_ARMED = 0 := State.f_put _ _ _ (by decide) (by decide)
  simp [State.on, h]

theorem State.setBay_bayState (s : State) (k c : Nat) : (s.setBay k c).bayState k = c % 8 :=
  State.f_put _ _ _ (by simp) (by simp)

theorem State.setBay_reg (s : State) {k r : Nat} (c : Nat) (h : CFG_BAY_STAT k ≠ r) : (s.setBay k c).reg r = s.reg r :=
  State.reg_put_ne _ _ h

section
variable (s : State) (a : Arm) (vals : List (Net × Bool))

theorem State.bayFreeze_held : a.bay ∈ (s.bayFreeze a vals).fab.held := mem_ladd _ _

theorem State.bayFreeze_arm : (s.bayFreeze a vals).cfg.arm = none := rfl

theorem State.bayFreeze_rel : (s.bayFreeze a vals).cfg.rel = some a := rfl

theorem State.bayFreeze_bayState : (s.bayFreeze a vals).bayState a.bay = 2 := State.setBay_bayState _ _ _

theorem State.bayFreeze_reg {r : Nat} (hctrl : CFG_PR_CTRL ≠ r) (hbay : CFG_BAY_STAT a.bay ≠ r) : (s.bayFreeze a vals).reg r = s.reg r := by
  rw [State.bayFreeze, State.setBay_reg _ _ hbay]
  exact State.disarm_reg _ hctrl

theorem State.bayFreeze_armed : (s.bayFreeze a vals).on CFG_PR_CTRL_ARMED = false := by
  rw [State.bayFreeze, State.setBay, State.on, State.f_put_ne _ _ (cfgBayStat_ne a.bay (by decide))]
  exact State.disarm_armed _

end

/-- BAY and MODE that are in range are taken as they stand. -/
theorem execPrArm_eq (s : State) {mode bay : Nat} (relFirst : Bool) (hmode : mode < 4) (hbay : bay < 128) :
    exec (.prArm mode relFirst bay) s = .next (s.prArm mode relFirst bay) := by
  show execPrArm mode relFirst bay s = _
  rw [execPrArm, Nat.mod_eq_of_lt hmode, Nat.mod_eq_of_lt hbay]

/-- CANCEL of an armed freeze outside a load (R195). -/
theorem execPrCancel_of_armed (s : State) (harm : s.cfg.arm.isSome = true) (hload : s.cfg.load = none) :
    exec .prCancel s = .next s.disarm := by
  show execPrCancel s = _
  simp [execPrCancel, State.prCancel, harm, hload]

/-! ### Blanking a bay (R195) -/

/-- An event sets its bit of HIF_IRQ_STAT. -/
theorem State.raise_irq (s : State) (i : Nat) : ((s.raise i).reg (HIF_IRQ_STAT (i / 32))).toNat.testBit (i % 32) = true := by
  have hregs : (s.raise i).regs =
      (s.setReg (HIF_IRQ_STAT (i / 32)) (s.reg (HIF_IRQ_STAT (i / 32)) ||| (1#32 <<< (i % 32)))).regs := by
    unfold State.raise State.sendIrq
    dsimp only
    split <;> rfl
  have hi : i % 32 < 32 := Nat.mod_lt _ (by decide)
  rw [State.reg_congr hregs, State.reg_setReg_self, BitVec.testBit_toNat]
  simp [hi]

/-! #### An operation of the engine that succeeds (R208) -/

section
variable (s : State)

theorem State.cfgIdle_reg {r : Nat} (h : CFG_STAT ≠ r) : s.cfgIdle.reg r = s.reg r := by
  rw [State.cfgIdle, State.reg_put_ne _ _ h, State.reg_put_ne _ _ h, State.reg_put_ne _ _ h]
  rfl

theorem State.cfgDone_reg {r : Nat} (hstat : CFG_STAT ≠ r) (hirq : r ≠ HIF_IRQ_STAT 4) : s.cfgDone.reg r = s.reg r := by
  rw [State.cfgDone, State.raise_reg _ hirq, State.reg_put_ne _ _ hstat, State.reg_put_ne _ _ hstat, s.cfgIdle_reg hstat]

theorem State.cfgDone_done : s.cfgDone.on CFG_STAT_DONE = true := by
  rw [State.on_iff, State.cfgDone, State.raise_f _ (by decide)]
  simp (disch := decide) only [State.f_put_disj, State.f_put]
  rfl

theorem State.cfgDone_cfg : s.cfgDone.cfg = { s.cfg with load := none, startStep := 0, autoStart := false } := by
  rw [State.cfgDone, (raise_only _ _).cfg (by decide)]
  rfl

end

/-! #### A bay that becomes LOADED (R190, R195) -/

section
variable (s : State) (k : Nat)

theorem State.bayLoaded_bayState : (s.bayLoaded k).bayState k = 4 := s.setBay_bayState k 4

theorem State.bayLoaded_reg {r : Nat} (h : CFG_BAY_STAT k ≠ r) : (s.bayLoaded k).reg r = s.reg r := s.setBay_reg 4 h

theorem State.bayLoaded_rel : (s.bayLoaded k).cfg.rel.isSome = true := rfl

theorem State.bayLoaded_fab : (s.bayLoaded k).fab = s.fab := rfl

/-- The boundary declarations of a bay leave configuration memory alone. -/
theorem State.bayDeclare_memory : (s.bayDeclare k).fab.frames = s.fab.frames ∧ (s.bayDeclare k).fab.rows = s.fab.rows := by
  unfold State.bayDeclare
  dsimp only
  split <;> exact ⟨rfl, rfl⟩

/-- The claims of bay `k` are free, its frames and memories hold zeros. -/
def State.bayZero : State :=
  (s.claimsFree k).setFab { (s.claimsFree k).fab with
    frames := s.fab.frames.filter (fun e => e.1 / 4608 != k), rows := s.fab.rows.filter (fun e => e.1 / 512 / 128 != k) }

theorem State.bayZero_frames (j : Nat) :
    mget (s.bayZero k).fab.frames Frame.init j = if j / 4608 = k then Frame.init else mget s.fab.frames Frame.init j := by
  refine (mget_filter _ _ (fun i => i / 4608 != k) _).trans ?_
  by_cases h : j / 4608 = k <;> simp [h]

theorem State.bayZero_rows (j : Nat) : mget (s.bayZero k).fab.rows 0 j = if j / 65536 = k then 0 else mget s.fab.rows 0 j := by
  refine (mget_filter _ _ (fun i => i / 512 / 128 != k) _).trans ?_
  rw [Nat.div_div_eq_div_mul]
  by_cases h : j / 65536 = k <;> simp [h]

theorem State.bayZero_only : Only 8 s (s.bayZero k) := (setFab_only _ _).after (by decide) (claimsFree_only _ _)

/-- And so do the mirror, the boundary and the engine's record of the bay's image. -/
def State.bayBlanked : State :=
  (((s.bayZero k).mirrorZero k).bayDeclare k).setCfg { (((s.bayZero k).mirrorZero k).bayDeclare k).cfg with
    bayImage := mset (((s.bayZero k).mirrorZero k).bayDeclare k).cfg.bayImage 0 k 0 }

theorem State.bayBlanked_only : Only 138793 s (s.bayBlanked k) :=
  (setCfg_only _ _).after (by decide) ((bayDeclare_only _ _).after (by decide)
    (((s.bayZero k).mirrorZero_only k).after (by decide) ((s.bayZero_only k).mono (by decide))))

/-- Its frames and memories are those of `bayZero`. -/
theorem State.bayBlanked_memory :
    (s.bayBlanked k).fab.frames = (s.bayZero k).fab.frames ∧ (s.bayBlanked k).fab.rows = (s.bayZero k).fab.rows := by
  obtain ⟨hframes, hrows⟩ := ((s.bayZero k).mirrorZero k).bayDeclare_memory k
  have hfab := ((s.bayZero k).mirrorZero_only k).fab (by decide)
  exact ⟨hframes.trans (congrArg _ hfab), hrows.trans (congrArg _ hfab)⟩

theorem State.bayBlanked_reg {r : Nat} (hk : k < 128) (hr : ¬ StoreReg r) : (s.bayBlanked k).reg r = s.reg r := by
  have hdeclare := State.reg_congr ((bayDeclare_only ((s.bayZero k).mirrorZero k) k).regs (by decide)) r
  exact hdeclare.trans (((s.bayZero k).mirrorZero_reg k hk hr).trans (State.reg_congr ((s.bayZero_only k).regs (by decide)) r))

/-- BLANK of a bay: its contents, LOADED, its CRC and error count, DONE. -/
theorem State.blankBay_eq :
    s.blankBay k =
      ((((s.bayBlanked k).bayLoaded k).put (CFG_BAY_CRC_CRC k) (((s.bayBlanked k).bayLoaded k).bayCrc k)).put
        (CFG_BAY_STAT_CE_COUNT k) 0).cfgDone := rfl

theorem State.blankBay_only : Only 138793 s (s.blankBay k) := by
  rw [State.blankBay_eq]
  exact (cfgDone_only _).after (by decide) ((put_only _ _ _).after (by decide) ((put_only _ _ _).after (by decide)
    ((bayLoaded_only _ _).after (by decide) (s.bayBlanked_only k))))

theorem State.blankBay_fab : (s.blankBay k).fab = (s.bayBlanked k).fab := by
  rw [State.blankBay_eq, (cfgDone_only _).fab (by decide)]
  rfl

theorem State.blankBay_rel : (s.blankBay k).cfg.rel.isSome = true := by
  rw [State.blankBay_eq, State.cfgDone_cfg]
  rfl

theorem State.blankBay_reg {r : Nat} (hk : k < 128) (hstat : CFG_STAT ≠ r) (hcrc : CFG_BAY_CRC k ≠ r) (hbay : CFG_BAY_STAT k ≠ r)
    (hirq : r ≠ HIF_IRQ_STAT 4) (hr : ¬ StoreReg r) : (s.blankBay k).reg r = s.reg r := by
  rw [State.blankBay_eq, State.cfgDone_reg _ hstat hirq, State.reg_put_ne _ _ hbay, State.reg_put_ne _ _ hcrc,
    State.bayLoaded_reg _ _ hbay, s.bayBlanked_reg k hk hr]

/-- The bay's register of block 2 is neither CFG_STAT nor HIF_IRQ_STAT. -/
theorem State.blankBay_bayState (hk : k < 128) : (s.blankBay k).bayState k = 4 := by
  have hirq : CFG_BAY_STAT k ≠ HIF_IRQ_STAT 4 := by
    show 0x201000 + k * 0x10 ≠ 0xc00110
    omega
  have hcrc : CFG_BAY_CRC k ≠ CFG_BAY_STAT k := by
    show 0x201004 + k * 0x10 ≠ 0x201000 + k * 0x10
    omega
  have hdone (u : State) : u.cfgDone.bayState k = u.bayState k :=
    congrArg (fget · 31 29) (u.cfgDone_reg (cfgBayStat_ne k (by decide)).symm hirq)
  have hcount (u : State) : (u.put (CFG_BAY_STAT_CE_COUNT k) 0).f (CFG_BAY_STAT_STATE k) = u.f (CFG_BAY_STAT_STATE k) :=
    State.f_put_disj _ _ rfl (by simp) (by simp) (by simp)
  rw [State.blankBay_eq, hdone, State.bayState, hcount, State.f_put_ne _ _ hcrc]
  exact State.bayLoaded_bayState _ _

end

/-- BLANK of a held bay in Aloft. -/
theorem execBlank_of_held (s : State) (hheld : s.f CFG_PR_CTRL_BAY ∈ s.fab.held) (hfree : s.loadRefused 4 = none) (hpower : s.power = 0) :
    exec .blank s = .next (s.blankBay (s.f CFG_PR_CTRL_BAY)) := by
  show execBlank s = _
  simp only [execBlank, hfree, if_pos hheld, if_pos hpower]

theorem State.f_ctrlBay_lt (s : State) : s.f CFG_PR_CTRL_BAY < 128 := Nat.mod_lt _ (by decide)

/-! ### The claim map (R199) -/

/-- A claim map error starts a rebuild. -/
theorem execClaimMapRebuild_eq (s : State) :
    exec .claimMapRebuild s =
      .next (((s.raise 142).leafEvent 522 true 0).setCfg { ((s.raise 142).leafEvent 522 true 0).cfg with rebuilding := true }) := rfl

theorem execClaimMapRebuildDone_eq (s : State) (h : s.cfg.rebuilding = true) :
    exec .claimMapRebuildDone s =
      .next (((claimsRead (s.mirrorKeys.filter s.claimsOf) [] s).1.setFab
        { (claimsRead (s.mirrorKeys.filter s.claimsOf) [] s).1.fab with
          claims := (claimsRead (s.mirrorKeys.filter s.claimsOf) [] s).2 }).setCfg
        { (claimsRead (s.mirrorKeys.filter s.claimsOf) [] s).1.cfg with rebuilding := false }) := by
  show execClaimMapRebuildDone s = _
  rw [execClaimMapRebuildDone, if_pos h]

/-- One value under each key of a list. -/
theorem mget_foldl_mset_const {α : Type} [DecidableEq α] (d v : α) (l : List Nat) (m : List (Nat × α)) (w : Nat) :
    mget (l.foldl (fun m w => mset m d w v) m) d w = if w ∈ l then v else mget m d w := by
  induction l generalizing m with
  | nil => simp
  | cons x l ih =>
    rw [List.foldl_cons, ih, mget_mset]
    by_cases hl : w ∈ l
    · simp [hl]
    · rcases eq_or_ne x w with rfl | hx
      · simp [hl]
      · simp [hl, hx, hx.symm]

/-- The claims of one frame that the mirror holds. -/
theorem claimsRead_single (s : State) {key d : Nat} (h : (s.frameAgain key).2 = some d) :
    claimsRead [key] [] s = ((s.frameAgain key).1, (frameOf key d).claims.foldl (fun m w => mset m 0 w (key + 1)) []) := by
  simp only [claimsRead, h]

/-! ### The scrubber (R200 to R203) -/

/-! #### How many bits are 1 -/

theorem bitCount_zero (n : Nat) : bitCount n 0 = 0 := by
  induction n with
  | zero => rfl
  | succ n ih => simp [bitCount, ih]

theorem two_pow_succ_mod_div (b : Nat) : 2 ^ (b + 1) % 2 = 0 ∧ 2 ^ (b + 1) / 2 = 2 ^ b := by
  rw [pow_succ]
  omega

theorem bitCount_two_pow {n b : Nat} (h : b < n) : bitCount n (2 ^ b) = 1 := by
  induction n generalizing b with
  | zero => omega
  | succ n ih =>
    cases b with
    | zero => simp [bitCount, bitCount_zero]
    | succ b =>
      obtain ⟨hmod, hdiv⟩ := two_pow_succ_mod_div b
      rw [bitCount, hmod, hdiv, ih (by omega)]

theorem bitCount_two_pow_add {n b c : Nat} (hbc : b < c) (hc : c < n) : bitCount n (2 ^ b + 2 ^ c) = 2 := by
  induction n generalizing b c with
  | zero => omega
  | succ n ih =>
    obtain ⟨c, rfl⟩ : ∃ c', c = c' + 1 := ⟨c - 1, by omega⟩
    obtain ⟨hmod, hdiv⟩ := two_pow_succ_mod_div c
    cases b with
    | zero =>
      have hrest : (2 ^ 0 + 2 ^ (c + 1)) / 2 = 2 ^ c := by omega
      have hlow : (2 ^ 0 + 2 ^ (c + 1)) % 2 = 1 := by omega
      rw [bitCount, hlow, hrest, bitCount_two_pow (by omega)]
    | succ b =>
      obtain ⟨hmodb, hdivb⟩ := two_pow_succ_mod_div b
      have hrest : (2 ^ (b + 1) + 2 ^ (c + 1)) / 2 = 2 ^ b + 2 ^ c := by omega
      have hlow : (2 ^ (b + 1) + 2 ^ (c + 1)) % 2 = 0 := by omega
      rw [bitCount, hlow, hrest, ih (by omega) (by omega)]

/-! #### The read of a frame -/

section
variable (s : State) (key : Nat)

/-- The scrubber shows the bay that it reads. -/
def State.scrubShown : State := s.put CFG_SCRUB_STAT_BAY (key / 4608)

/-- What the scrubber does about frame `key`, in whose code word `n` bits are wrong (R202, R203). -/
def State.scrubAct (see n : Nat) : State :=
  if n = 0 ∨ (2 < n ∧ see = 1) then s.scrubShown key
  else if n = 1 then (s.scrubShown key).scrubCorrect key (Nat.log2 (mget s.fab.frames Frame.init key).flip)
  else if 2 < n ∧ 2 ≤ see then (s.scrubShown key).scrubCorrect key (see - 2)
  else ((s.scrubShown key).leafEvent (32 * (key / 4608 / 8) + 24) true key).scrubError 0 (key / 4608) (key % 4608)
    (fun t => t.scrubRepair key)

/-- With no bay passed over, and its own in RUN, the scrubber stays where it is. -/
theorem State.scrubPlace_of_run (hskip : s.cfg.skipped = []) (hrun : s.bayState (s.cfg.scrubFrame / 4608) = 1) : s.scrubPlace = s := by
  have hrun' : s.bayState (s.cfg.scrubFrame / 4608) = bayRun := hrun
  simp [State.scrubPlace, hskip, hrun']

/-- A read before the last frame of a bay moves on to the next frame. -/
theorem execScrubFrameRead_of_run (see : Nat) {n : Nat} (hon : s.scrubOn = true) (hskip : s.cfg.skipped = [])
    (hrun : s.bayState (s.cfg.scrubFrame / 4608) = 1) (hend : s.cfg.scrubFrame % 4608 ≠ 4607)
    (hn : bitCount 5152 (mget s.fab.frames Frame.init s.cfg.scrubFrame).flip = n) :
    exec (.scrubFrameRead [] see) s =
      .next ((s.scrubAct s.cfg.scrubFrame see n).setCfg
        { (s.scrubAct s.cfg.scrubFrame see n).cfg with scrubFrame := s.cfg.scrubFrame + 1 }) := by
  have hrun' : ¬ s.bayState (s.cfg.scrubFrame / 4608) ≠ bayRun := not_not.mpr hrun
  have hups : s.frameUpsets [] = s := rfl
  show execScrubFrameRead [] see s = _
  unfold execScrubFrameRead
  dsimp only
  rw [hups, s.scrubPlace_of_run hskip hrun, if_neg (by simp [hon]), if_neg hrun', if_neg hend, hn]
  rfl

theorem State.scrubAct_of_clean (see : Nat) : s.scrubAct key see 0 = s.scrubShown key := if_pos (.inl rfl)

theorem State.scrubAct_of_one {b : Nat} (see : Nat) (h : (mget s.fab.frames Frame.init key).flip = 2 ^ b) :
    s.scrubAct key see 1 = (s.scrubShown key).scrubCorrect key b := by
  rw [State.scrubAct, h, Nat.log2_two_pow]
  rfl

theorem State.scrubAct_of_two (see : Nat) :
    s.scrubAct key see 2 = ((s.scrubShown key).leafEvent (32 * (key / 4608 / 8) + 24) true key).scrubError 0 (key / 4608) (key % 4608)
      (fun t => t.scrubRepair key) := rfl

/-! #### One flipped bit (R202) -/

/-- The bays' registers of block 2 are none of the tree's. -/
theorem cfgBayStat_not_treeReg {k : Nat} (hk : k < 128) : ¬ TreeReg (CFG_BAY_STAT k) := by
  show ¬ (0x300000 ≤ 0x201000 + k * 0x10 ∧ 0x201000 + k * 0x10 < 0x400000 ∨ 0x201000 + k * 0x10 = 0xc00118)
  omega

theorem cfgBayStat_ne_irq {k : Nat} (hk : k < 128) : CFG_BAY_STAT k ≠ HIF_IRQ_STAT 4 := by
  show 0x201000 + k * 0x10 ≠ 0xc00110
  omega

/-- The corrected frame is written back. -/
theorem State.scrubCorrect_fab {b : Nat} (hb : b < 5152) (h : (mget s.fab.frames Frame.init key).flip = 2 ^ b) :
    (s.scrubCorrect key b).fab =
      { s.fab with frames := mset s.fab.frames Frame.init key (frameOf key (mget s.fab.frames Frame.init key).meant) } := by
  rw [State.scrubCorrect, (leafEvent_only _ _ _ _).fab (by decide), (raise_only _ _).fab (by decide), Nat.mod_eq_of_lt hb, h,
    if_pos (Nat.xor_self _)]
  rfl

theorem State.scrubCorrect_count (b : Nat) (hk : key / 4608 < 128) :
    (s.scrubCorrect key b).f (CFG_BAY_STAT_CE_COUNT (key / 4608)) = min 65535 (s.f (CFG_BAY_STAT_CE_COUNT (key / 4608)) + 1) := by
  have hsat (u : State) : (u.satF (CFG_BAY_STAT_CE_COUNT (key / 4608)) 1).f (CFG_BAY_STAT_CE_COUNT (key / 4608)) =
      min (u.f (CFG_BAY_STAT_CE_COUNT (key / 4608)) + 1) 65535 :=
    (State.f_put _ _ _ (by simp) (by simp)).trans (Nat.mod_eq_of_lt (by show min _ 65535 < 65536; omega))
  rw [State.scrubCorrect, State.leafEvent_f _ _ _ _ (cfgBayStat_not_treeReg hk), State.raise_f _ (cfgBayStat_ne_irq hk), hsat, Nat.min_comm]
  rfl

/-- EV_CFG_CE (139). -/
theorem State.scrubCorrect_irq (b : Nat) : ((s.scrubCorrect key b).reg (HIF_IRQ_STAT 4)).toNat.testBit 11 = true := by
  rw [State.scrubCorrect, State.leafEvent_reg _ _ _ _ (by decide)]
  exact State.raise_irq _ 139

end

/-! #### Two flipped bits (R203) -/

section
variable (s : State) (kind bay frame : Nat) (fix : State → State × Bool)

/-- A finding in CFG_SCRUB_LOG. -/
def State.scrubLogged : State :=
  s.log CFG_SCRUB_LOG_VALID CFG_SCRUB_LOG_OVF (fun t =>
    (((t.put CFG_SCRUB_LOG_KIND kind).put CFG_SCRUB_LOG_REPAIRED 0).put CFG_SCRUB_LOG_BAY bay).put CFG_SCRUB_LOG_FRAME frame)

/-- POLICY 0: the finding is logged, the bay is SUSPECT, EV_CFG_UE; nothing is repaired. -/
theorem State.scrubError_of_report (h : s.f CFG_SCRUB_CTRL_POLICY = 0) :
    s.scrubError kind bay frame fix = ((s.scrubLogged kind bay frame).put (CFG_BAY_STAT_SUSPECT bay) 1).raise 140 := by
  rw [State.scrubError, if_pos h]
  rfl

theorem State.scrubLogged_valid : (s.scrubLogged kind bay frame).on CFG_SCRUB_LOG_VALID = true := by
  unfold State.scrubLogged State.log
  split
  next h => rwa [State.on, State.f_put_disj (x := CFG_SCRUB_LOG_OVF) (y := CFG_SCRUB_LOG_VALID) _ _ rfl (by decide) (by decide) (by decide)]
  next =>
    rw [State.on_iff]
    simp (disch := decide) only [State.f_put, State.f_put_disj]
    rfl

/-- The first finding fills the log. -/
theorem State.scrubLogged_first (h : s.on CFG_SCRUB_LOG_VALID = false) (hbay : bay < 128) (hframe : frame < 8192) (hkind : kind < 2) :
    (s.scrubLogged kind bay frame).f CFG_SCRUB_LOG_BAY = bay ∧ (s.scrubLogged kind bay frame).f CFG_SCRUB_LOG_FRAME = frame ∧
      (s.scrubLogged kind bay frame).f CFG_SCRUB_LOG_KIND = kind := by
  rw [State.scrubLogged, State.log_of_clear _ _ h]
  simp (disch := decide) only [State.f_put, State.f_put_disj]
  omega

/-- The registers of the log come after the event as they were before it. -/
theorem State.scrubError_log_f (h : s.f CFG_SCRUB_CTRL_POLICY = 0) {x : Fld} (hx : x.addr = CFG_SCRUB_LOG) :
    (s.scrubError kind bay frame fix).f x = (s.scrubLogged kind bay frame).f x := by
  have hirq : CFG_SCRUB_LOG ≠ HIF_IRQ_STAT (140 / 32) := by decide
  rw [s.scrubError_of_report _ _ _ _ h, State.raise_f _ (hx ▸ hirq), State.f_put_ne _ _ (hx ▸ cfgBayStat_ne bay (by decide))]

theorem State.scrubError_suspect (h : s.f CFG_SCRUB_CTRL_POLICY = 0) (hbay : bay < 128) :
    (s.scrubError kind bay frame fix).on (CFG_BAY_STAT_SUSPECT bay) = true := by
  rw [s.scrubError_of_report _ _ _ _ h, State.on_iff, State.raise_f _ (cfgBayStat_ne_irq hbay)]
  exact State.f_put _ _ _ (by simp) (by simp)

theorem State.scrubError_irq (h : s.f CFG_SCRUB_CTRL_POLICY = 0) :
    ((s.scrubError kind bay frame fix).reg (HIF_IRQ_STAT 4)).toNat.testBit 12 = true := by
  rw [s.scrubError_of_report _ _ _ _ h]
  exact State.raise_irq _ 140

theorem State.scrubLogged_only : Only 1 s (s.scrubLogged kind bay frame) := by
  unfold State.scrubLogged
  refine Only.log _ _ _ (fun t => ?_) .refl
  with_reducible exact (put_only _ _ _).after (by decide) ((put_only _ _ _).after (by decide) ((put_only _ _ _).after (by decide) (put_only _ _ _)))

/-- Only registers change, and what an event touches. -/
theorem State.scrubError_report_only (h : s.f CFG_SCRUB_CTRL_POLICY = 0) : Only 132609 s (s.scrubError kind bay frame fix) := by
  rw [s.scrubError_of_report _ _ _ _ h]
  with_reducible exact (raise_only _ _).after (by decide) ((put_only _ _ _).after (by decide) ((s.scrubLogged_only _ _ _).mono (by decide)))

end

/-! ### The clauses about the scrubber -/

section
variable (s : State)

theorem State.scrubShown_f {k : Nat} {x : Fld} (h : CFG_SCRUB_STAT ≠ x.addr) : (s.scrubShown k).f x = s.f x := State.f_put_ne _ _ h

/-- A clean frame: the scrubber shows its bay. -/
theorem State.scrubShown_bay (key : Nat) : (s.scrubShown key).f CFG_SCRUB_STAT_BAY = key / 4608 % 128 :=
  State.f_put _ _ _ (by decide) (by decide)

theorem State.scrubShown_reg (key : Nat) {r : Nat} (h : CFG_SCRUB_STAT ≠ r) : (s.scrubShown key).reg r = s.reg r := State.reg_put_ne _ _ h

theorem State.scrubCorrect_cfg (key b : Nat) : (s.scrubCorrect key b).cfg = s.cfg := (scrubCorrect_only s key b).cfg (by decide)

/-- The findings of two flipped bits in a frame of a bay of the device, under POLICY 0. -/
theorem State.scrubAct_two_reports {key : Nat} (see : Nat) (hk : key / 4608 < 128) (hpolicy : s.f CFG_SCRUB_CTRL_POLICY = 0) :
    let t := s.scrubAct key see 2
    t.fab = s.fab ∧ t.cfg = s.cfg ∧ t.on (CFG_BAY_STAT_SUSPECT (key / 4608)) = true ∧ t.on CFG_SCRUB_LOG_VALID = true ∧
      (s.on CFG_SCRUB_LOG_VALID = false → t.f CFG_SCRUB_LOG_BAY = key / 4608 ∧ t.f CFG_SCRUB_LOG_FRAME = key % 4608 ∧
        t.f CFG_SCRUB_LOG_KIND = 0) ∧ (t.reg (HIF_IRQ_STAT 4)).toNat.testBit 12 = true := by
  intro t
  let u : State := (s.scrubShown key).leafEvent (32 * (key / 4608 / 8) + 24) true key
  have ht : t = u.scrubError 0 (key / 4608) (key % 4608) (fun v => v.scrubRepair key) := s.scrubAct_of_two key see
  have hu {x : Fld} (h : CFG_SCRUB_STAT ≠ x.addr) (htree : ¬ TreeReg x.addr) : u.f x = s.f x :=
    (State.leafEvent_f _ _ _ _ htree).trans (s.scrubShown_f h)
  have hpol : u.f CFG_SCRUB_CTRL_POLICY = 0 := (hu (by decide) (by decide)).trans hpolicy
  have hleaf : Only 136705 (s.scrubShown key) u := leafEvent_only _ _ _ _
  have hrep := u.scrubError_report_only 0 (key / 4608) (key % 4608) (fun v => v.scrubRepair key) hpol
  have hlog {x : Fld} (hx : x.addr = CFG_SCRUB_LOG) : t.f x = (u.scrubLogged 0 (key / 4608) (key % 4608)).f x := by
    rw [ht, u.scrubError_log_f _ _ _ _ hpol hx]
  refine ⟨?_, ?_, ?_, ?_, fun hfirst => ?_, ?_⟩
  · rw [ht]
    exact (hrep.fab (by decide)).trans (hleaf.fab (by decide))
  · rw [ht]
    exact (hrep.cfg (by decide)).trans (hleaf.cfg (by decide))
  · rw [ht]
    exact u.scrubError_suspect _ _ _ _ hpol hk
  · rw [State.on_iff, hlog rfl]
    exact (State.on_iff _ _).1 (u.scrubLogged_valid _ _ _)
  · rw [hlog rfl, hlog rfl, hlog rfl]
    refine u.scrubLogged_first _ _ _ ?_ hk (by omega) (by decide)
    rw [State.on, hu (by decide) (by decide)]
    exact hfirst
  · rw [ht]
    exact u.scrubError_irq _ _ _ _ hpol

end

/-- Settles O24: each command by the equation of its case; a scrub read by the number of bits that are flipped. -/
theorem freezeAndScrub : Obligations.FreezeAndScrub := by
  unfold Obligations.FreezeAndScrub
  intro s _
  refine ⟨fun mode relFirst bay hmode hbay hacc => ?_, fun relFirst bay hbay hacc => ?_, fun harm hload => ?_,
    fun hheld hfree hpower => ?_, ?_, fun hreb hkeys => ?_, fun key d hreb hkeys hagain => ?_,
    fun see hon hskip hlt hrun hend hflip => ?_, fun see b hon hskip hlt hrun hend hb hflip => ?_,
    fun see b c hon hskip hlt hrun hend hpolicy hbc hc hflip => ?_⟩
  · obtain ⟨harmed, hm, hb, hrel⟩ := s.armSet_ctrl mode relFirst bay (by omega) hbay
    have heq : s.prArm mode relFirst bay = s.armSet mode relFirst bay :=
      (s.prArm_of_accepted mode relFirst bay hacc).trans (if_neg (by omega))
    exact ⟨_, execPrArm_eq s relFirst (by omega) hbay, by rw [heq]; exact ⟨rfl, harmed, hm, hb, hrel, s.armSet_keeps _ _ _⟩⟩
  · let a := s.armOf 2 relFirst bay
    let u := s.armSet 2 relFirst bay
    have heq : s.prArm 2 relFirst bay = u.bayFreeze a (u.freezeValues bay) := s.prArm_of_accepted 2 relFirst bay hacc
    have honly : Only 41 s (u.bayFreeze a (u.freezeValues bay)) :=
      (bayFreeze_only _ _ _).after (by decide) ((s.armSet_only 2 relFirst bay).mono (by decide))
    refine ⟨_, execPrArm_eq s relFirst (by decide) hbay, ?_⟩
    rw [heq]
    refine ⟨u.bayFreeze_held a _, u.bayFreeze_bayState a _, u.bayFreeze_arm a _, rfl, u.bayFreeze_armed a _, honly.keeps fun r hr => ?_⟩
    obtain ⟨hctrl, hstat⟩ := not_or.1 hr
    exact (u.bayFreeze_reg a _ (Ne.symm hctrl) (Ne.symm hstat)).trans (s.armSet_reg _ _ _ (Ne.symm hctrl))
  · exact ⟨_, execPrCancel_of_armed s harm hload, rfl, s.disarm_armed,
      (disarm_only s).keeps fun r hr => s.disarm_reg (Ne.symm hr)⟩
  · have hk := s.f_ctrlBay_lt
    obtain ⟨hframes, hrows⟩ := s.bayBlanked_memory (s.f CFG_PR_CTRL_BAY)
    refine ⟨_, execBlank_of_held s hheld hfree hpower, s.blankBay_bayState _ hk, fun j => ?_, fun j => ?_, State.cfgDone_done _,
      s.blankBay_rel _, (s.blankBay_only _).keeps fun r hr => ?_⟩
    · rw [State.blankBay_fab, hframes]
      exact s.bayZero_frames _ j
    · rw [State.blankBay_fab, hrows]
      exact s.bayZero_rows _ j
    · simp only [not_or] at hr
      obtain ⟨hstat, hcrc, hbay, hirq, hblock, hirq6⟩ := hr
      exact s.blankBay_reg _ hk (Ne.symm hstat) (Ne.symm hcrc) (Ne.symm hbay) hirq (not_or.2 ⟨hblock, hirq6⟩)
  · have hleaf := leafEvent_only (s.raise 142) 522 true 0
    have hraise := raise_only s 142
    refine ⟨_, execClaimMapRebuild_eq s, ?_, ?_, (hleaf.fab (by decide)).trans (hraise.fab (by decide)),
      (hleaf.sec (by decide)).trans (hraise.sec (by decide))⟩
    · rw [State.setCfg_cfg, hleaf.cfg (by decide), hraise.cfg (by decide)]
    · rw [State.reg_congr (State.setCfg_regs _ _), State.leafEvent_reg _ _ _ _ (by decide)]
      exact s.raise_irq 142
  · refine ⟨_, execClaimMapRebuildDone_eq s hreb, ?_⟩
    rw [hkeys]
    exact ⟨rfl, rfl, ((setCfg_only _ _).after (m := 40) (by decide) ((setFab_only _ _).mono (by decide))).keepsRegs⟩
  · have hfab := (frameAgain_only s key).fab (by decide)
    refine ⟨_, execClaimMapRebuildDone_eq s hreb, ?_⟩
    rw [hkeys, claimsRead_single s hagain]
    refine ⟨rfl, fun w => mget_foldl_mset_const _ _ _ _ _, ?_⟩
    rw [State.setCfg_fab, State.setFab_fab, hfab]
  · have hbits : bitCount 5152 (mget s.fab.frames Frame.init s.cfg.scrubFrame).flip = 0 := by rw [hflip, bitCount_zero]
    refine ⟨_, execScrubFrameRead_of_run s see hon hskip hrun hend hbits, ?_⟩
    rw [State.scrubAct_of_clean]
    exact ⟨rfl, s.scrubShown_bay _, fun _ => rfl,
      ((setCfg_only _ _).after (m := 33) (by decide) ((put_only s _ _).mono (by decide))).keeps fun r hr => s.scrubShown_reg _ (Ne.symm hr)⟩
  · have hk : s.cfg.scrubFrame / 4608 < 128 := by omega
    have hbits : bitCount 5152 (mget s.fab.frames Frame.init s.cfg.scrubFrame).flip = 1 := by rw [hflip, bitCount_two_pow hb]
    have hfab := (s.scrubShown s.cfg.scrubFrame).scrubCorrect_fab s.cfg.scrubFrame hb hflip
    refine ⟨_, execScrubFrameRead_of_run s see hon hskip hrun hend hbits, ?_⟩
    rw [s.scrubAct_of_one _ see hflip, State.setCfg_fab, State.setCfg_cfg, hfab, State.scrubCorrect_cfg]
    refine ⟨mget_mset_self _ _ _ _, fun j hj => mget_mset_ne _ _ _ _ _ _ hj.symm, rfl, ?_, ?_⟩
    · rw [State.f_congr (State.setCfg_regs _ _), State.scrubCorrect_count _ _ _ hk,
        s.scrubShown_f (cfgBayStat_ne _ (by decide)).symm]
    · rw [State.reg_congr (State.setCfg_regs _ _)]
      exact State.scrubCorrect_irq _ _ _
  · have hbits : bitCount 5152 (mget s.fab.frames Frame.init s.cfg.scrubFrame).flip = 2 := by rw [hflip, bitCount_two_pow_add hbc hc]
    obtain ⟨hfab, hcfg, hsuspect, hvalid, hfirst, hirq⟩ := s.scrubAct_two_reports (key := s.cfg.scrubFrame) see (by omega) hpolicy
    exact ⟨_, execScrubFrameRead_of_run s see hon hskip hrun hend hbits, hfab, by rw [State.setCfg_cfg, hcfg], hsuspect, hvalid, hfirst, hirq⟩

end Sys2Proof.Machine
end

section
/-! SUPPORT. The Tail (file 09): a capture request behind a closed gate (R161, R332), and Reel-in (R354 to R357): what a read of a snapshot
leaves alone, the request, arming, the restore edge, the end, the abort. -/

namespace Sys2Proof.Machine

/-! ### A capture request behind a closed gate (R161, R332) -/

/-- A write of GO is dropped where software has closed the gate of the Tail. -/
theorem execTailCaptureGo_of_gate_closed (s : State) (mode : Nat) (h : s.gateOn 36 = false) :
    exec (.tailCaptureGo mode) s = .next s.settle := by
  show execTailCaptureGo mode s = _
  simp [execTailCaptureGo, h]

/-- The state after reset with every gate of CLK_GATE_EN1 closed, that of the Tail among them. -/
def tailGated : State := State.reset.setReg CLK_GATE_EN1 0#32

theorem tailGated_calm : tailGated.Calm := ⟨rfl, by decide +kernel⟩

theorem tailGated_drops_go (mode : Nat) : exec (.tailCaptureGo mode) tailGated = .next tailGated := by
  obtain ⟨halarm, hpower⟩ := tailGated_calm
  rw [execTailCaptureGo_of_gate_closed _ _ (by decide +kernel), State.settle_calm _ halarm hpower]

/-- Refutes O35: its second clause asks for no open gate, and with the Tail's gate closed GO with MODE NEXT_BOW is dropped (R161), so that
no request is pending. -/
theorem not_tailCaptures : ¬ Obligations.TailCaptures := by
  unfold Obligations.TailCaptures
  intro h
  obtain ⟨-, hnext, -⟩ := h tailGated tailGated_calm
  obtain ⟨t, hexec, htail, -⟩ := hnext (by decide +kernel) rfl
  obtain rfl : tailGated = t := Host.Outcome.next.inj ((tailGated_drops_go 1).symm.trans hexec)
  exact absurd (congrArg Tail.req htail) (by decide)

/-! ### What follows a command where no alarm is due (R524, R551) -/

/-- An operation applied for each element of a list keeps what every single one keeps. -/
theorem State.each_keeps {α β : Type} (p : State → β) {g : α → State → State} (l : List α) (h : ∀ x ∈ l, ∀ t, p (g x t) = p t) (s : State) :
    p (s.each l g) = p s := by
  unfold State.each
  induction l generalizing s with
  | nil => rfl
  | cons x l ih =>
    rw [foldS, ih (fun y hy => h y (List.mem_cons_of_mem _ hy)), h x List.mem_cons_self]

section
variable (s : State) (cause : Nat)

theorem State.wake_reg {a : Nat} (ha : BAL_PWR_STAT ≠ a) : (s.wake cause).reg a = s.reg a := by
  unfold State.wake
  split
  · rfl
  · rw [State.reg_congr (State.setBal_regs _ _)]
    simp only [State.reg_put, if_neg ha]

theorem State.wakeCheck_reg {a : Nat} (ha : BAL_PWR_STAT ≠ a) : s.wakeCheck.reg a = s.reg a := by
  have hwake := fun c => s.wake_reg c ha
  unfold State.wakeCheck
  dsimp only
  split
  · rfl
  split
  · exact hwake 1
  split
  · exact hwake 2
  split
  · exact hwake 3
  · rfl

end

section
variable {s : State} (h : s.sec.alarmDue = false)
include h

/-- Without a due alarm only the wake events follow. -/
theorem State.settle_eq_wakeCheck : s.settle = s.wakeCheck := by simp [State.settle, h]

theorem State.settle_only_wakes : Only 65537 s s.settle := State.settle_eq_wakeCheck h ▸ wakeCheck_only s

theorem State.settle_reg {a : Nat} (ha : BAL_PWR_STAT ≠ a) : s.settle.reg a = s.reg a := by
  rw [State.settle_eq_wakeCheck h, s.wakeCheck_reg ha]

theorem State.settle_f {x : Fld} (hx : BAL_PWR_STAT ≠ x.addr) : s.settle.f x = s.f x := congrArg (fget · x.hi x.lo) (State.settle_reg h hx)

end

/-! ### A read of in-package memory that is answered OK (R408) -/

/-- From `s` to `t` lines of memory have been read, and no tag has failed. -/
structure State.Fetched (s t : State) : Prop where
  only : Only 138753 s t
  reg : ∀ r, ¬ StoreReg r → t.reg r = s.reg r

theorem State.Fetched.refl (s : State) : s.Fetched s := ⟨.refl, fun _ _ => rfl⟩

theorem State.Fetched.trans {s t u : State} (h : s.Fetched t) (g : t.Fetched u) : s.Fetched u :=
  ⟨h.only.trans g.only, fun r hr => (g.reg r hr).trans (h.reg r hr)⟩

theorem State.Fetched.f {s t : State} (h : s.Fetched t) {x : Fld} (hx : ¬ StoreReg x.addr) : t.f x = s.f x :=
  congrArg (fget · x.hi x.lo) (h.reg _ hx)

/-- The counters of a stack lie in the block of in-package memory. -/
theorem memStackCnt_ne (a : Nat) {r : Nat} (hr : ¬ StoreReg r) : MEM_STACK_CNT (memStack a) ≠ r := by
  have hstack := memStack_lt a
  exact ne_of_not_storeReg hr (by unfold MEM_STACK_CNT; omega) (by unfold MEM_STACK_CNT; omega)

section
variable (s : State) (a : Nat)

theorem State.tagRead_fetched : s.Fetched (s.tagRead a) := ⟨tagRead_only s a, fun _ hr => s.tagRead_reg hr⟩

theorem State.memUpset_fetched (up : List (Nat × Nat)) : s.Fetched (s.memUpset a up) :=
  ⟨(memUpset_only s a up).mono (by decide), fun r _ => State.reg_congr ((memUpset_only s a up).regs (by decide)) r⟩

theorem State.memCe_fetched : s.Fetched (s.memCe (memStack a)) := by
  refine ⟨(memCe_only _ _).mono (by decide), fun r hr => ?_⟩
  rw [State.memCe, State.leafEvent_reg _ _ _ _ (not_treeReg hr), State.satF, State.reg_put_ne _ _ (memStackCnt_ne a hr)]

theorem State.memUe_fetched (kind : Nat) : s.Fetched (s.memUe a kind) := by
  refine ⟨(memUe_only _ _ _).mono (by decide), fun r hr => ?_⟩
  have hlog : MEM_UE_LOG ≠ r := ne_of_not_storeReg hr (by decide) (by decide)
  have haddr : MEM_UE_ADDR ≠ r := ne_of_not_storeReg hr (by decide) (by decide)
  unfold State.memUe
  dsimp only
  rw [State.log_reg _ hlog hlog (fun u => by simp only [State.reg_put, if_neg hlog, if_neg haddr]),
    State.leafEvent_reg _ _ _ _ (not_treeReg hr), State.satF, State.reg_put_ne _ _ (memStackCnt_ne a hr)]

theorem State.wordEvents_fetched (ds : List Decoded) : s.Fetched (s.wordEvents a ds) := by
  refine ⟨(wordEvents_only _ _ _).mono (by decide), fun r hr => State.each_keeps (State.reg · r) ds (fun d _ t => ?_) s⟩
  split
  · exact (t.memCe_fetched a).reg r hr
  split
  · exact (t.memUe_fetched a 0).reg r hr
  · rfl

/-- A line whose tag fails is answered with an error; of the others no alarm comes. -/
theorem State.lineReadK_fetched (k : KeyPair) (src : Nat) (hok : (s.lineReadK k src a).2.status = 0) :
    s.Fetched (s.lineReadK k src a).1 := by
  have hread := s.tagRead_fetched a
  have hwords := hread.trans ((s.tagRead a).wordEvents_fetched a ((s.tagRead a).lineWords a))
  unfold State.lineReadK at hok ⊢
  dsimp only at hok ⊢
  split
  · exact hread
  next hwritten =>
    rw [if_neg hwritten] at hok
    split
    · exact hwords.trans (State.memUe_fetched _ a 1)
    next hlost =>
      rw [if_neg hlost] at hok
      split
      · exact hwords
      next hue =>
        rw [if_neg hue] at hok
        split
        · exact hwords
        next hgood =>
          rw [if_neg hgood] at hok
          exact absurd hok (Nat.succ_ne_zero 3)

theorem State.lineRead_fetched (src : Nat) (up : List (Nat × Nat)) (hok : (s.lineRead src a up).2.status = 0) :
    s.Fetched (s.lineRead src a up).1 := by
  unfold State.lineRead at hok ⊢
  split
  · exact .refl s
  next k hserve =>
    rw [hserve] at hok
    exact (s.memUpset_fetched a up).trans (State.lineReadK_fetched _ a k src hok)

theorem State.hubRead_fetched (src n : Nat) (up : List (Nat × Nat)) (hok : (s.hubRead src a n up).2.err = false) :
    s.Fetched (s.hubRead src a n up).1 := by
  unfold State.hubRead at hok ⊢
  dsimp only at hok ⊢
  split
  next t hstop =>
    rw [hstop] at hok
    exact absurd hok Bool.true_eq_false.mp
  next hstop =>
    rw [hstop] at hok
    dsimp only at hok
    split
    · exact .refl s
    next hgate =>
      rw [if_neg hgate] at hok
      exact s.lineRead_fetched _ src up (by simpa using hok)

theorem State.reelRead_fetched {n d : Nat} (hok : (s.reelRead a n).2 = some d) : s.Fetched (s.reelRead a n).1 := by
  unfold State.reelRead at hok ⊢
  dsimp only at hok ⊢
  split
  next hbad =>
    rw [if_pos hbad] at hok
    exact absurd hok (Option.some_ne_none d).symm
  next hgood => exact s.hubRead_fetched a 19 n [] (by simp at hgood; exact hgood.2)

end

theorem reelHeader_fetched (n a : Nat) (acc : List Nat) (s : State) {l : List Nat} (hok : (reelHeader n a acc s).2 = some l) :
    s.Fetched (reelHeader n a acc s).1 := by
  induction n generalizing a acc s with
  | zero => exact .refl s
  | succ n ih =>
    unfold reelHeader at hok ⊢
    split
    next u hread =>
      rw [hread] at hok
      exact absurd hok (by simp)
    next u d hread =>
      rw [hread] at hok
      have hline := s.reelRead_fetched a (n := 64) (d := d) (by rw [hread])
      rw [hread] at hline
      exact hline.trans (ih _ _ _ hok)

/-! ### Registers and parts that Reel-in touches -/

/-- Of the Tail a device event sets a mark of R345 alone. -/
theorem State.raise_tail (s : State) (i : Nat) : (s.raise i).tail = { s.tail with taskHit := ladd s.tail.taskHit (4096 + i) } := by
  unfold State.raise State.sendIrq
  dsimp only
  split <;> rfl

/-- The registers of the catalog lie above the Tail's own. -/
theorem tailCatStat_ne (i : Nat) {b : Nat} (h : b < 0x910000) : TAIL_CAT_STAT i ≠ b := by
  show 0x910000 + i * 0x10 ≠ b
  omega

/-- And the 256 slots' registers lie below the next block. -/
theorem tailCatStat_ne_irq {i : Nat} (h : i < 256) (j : Nat) : TAIL_CAT_STAT i ≠ HIF_IRQ_STAT j := by
  show 0x910000 + i * 0x10 ≠ 0xc00100 + j * 4
  omega

section
variable (s : State)

theorem State.slotUse_reg (i : Nat) {a : Nat} (h : TAIL_CAT_STAT i ≠ a) : (s.slotUse i).reg a = s.reg a := State.reg_put_ne _ _ h

/-- A slot that a Reel-in reads is in use (R344). -/
theorem State.slotUse_of_reel {r : Reel} (h : s.tail.reel = some r) : (s.slotUse r.slot).on (TAIL_CAT_STAT_IN_USE r.slot) = true := by
  rw [State.on_iff, State.slotUse, h]
  simp only [beq_self_eq_true, Bool.true_or]
  exact State.f_put _ _ _ (by simp) (by simp)

/-! #### A Reel-in that leaves its slot -/

section
variable {r : Reel} (h : s.tail.reel = some r) (state : Nat)
include h

theorem State.reelDrop_eq :
    s.reelDrop state = ((s.setTail { s.tail with reel := none }).slotUse r.slot).put TAIL_REEL_STAT_STATE state := by
  unfold State.reelDrop
  rw [h]

theorem State.reelDrop_tail : (s.reelDrop state).tail = { s.tail with reel := none } := by
  rw [s.reelDrop_eq h]
  rfl

theorem State.reelDrop_reg {a : Nat} (hstat : TAIL_REEL_STAT ≠ a) (hcat : TAIL_CAT_STAT r.slot ≠ a) :
    (s.reelDrop state).reg a = s.reg a := by
  rw [s.reelDrop_eq h, State.reg_put_ne _ _ hstat, State.slotUse_reg _ _ hcat]
  rfl

theorem State.reelDrop_state : (s.reelDrop state).f TAIL_REEL_STAT_STATE = state % 8 := by
  rw [s.reelDrop_eq h]
  exact State.f_put _ _ _ (by decide) (by decide)

theorem State.reelDrop_cause : (s.reelDrop state).f TAIL_REEL_STAT_CAUSE = s.f TAIL_REEL_STAT_CAUSE := by
  rw [s.reelDrop_eq h, State.f_put_disj (x := TAIL_REEL_STAT_STATE) (y := TAIL_REEL_STAT_CAUSE) _ _ rfl (by decide) (by decide) (by decide), State.f,
    State.slotUse_reg _ _ (tailCatStat_ne _ (by decide))]
  rfl

end

/-! #### The refusal of a Reel-in (R354) -/

section
variable {cause : Nat} (h : cause ≠ 7)
include h

/-- Where the cause is not POISON. -/
theorem State.reelSay_eq : s.reelSay cause = (s.put TAIL_REEL_STAT_CAUSE cause).raise 181 := by
  have : (cause == 7) = false := beq_false_of_ne h
  simp [State.reelSay, State.when, this]

theorem State.reelSay_tail : (s.reelSay cause).tail = { s.tail with taskHit := (s.reelSay cause).tail.taskHit } := by
  rw [s.reelSay_eq h, State.raise_tail]
  rfl

theorem State.reelSay_reel : (s.reelSay cause).tail.reel = s.tail.reel := by rw [s.reelSay_tail h]

theorem State.reelSay_reg {a : Nat} (hstat : TAIL_REEL_STAT ≠ a) (hirq : a ≠ HIF_IRQ_STAT 5) : (s.reelSay cause).reg a = s.reg a := by
  rw [s.reelSay_eq h, State.raise_reg _ hirq, State.reg_put_ne _ _ hstat]

theorem State.reelSay_cause : (s.reelSay cause).f TAIL_REEL_STAT_CAUSE = cause % 256 := by
  rw [s.reelSay_eq h, State.raise_f _ (by decide)]
  exact State.f_put _ _ _ (by decide) (by decide)

theorem State.reelSay_state : (s.reelSay cause).f TAIL_REEL_STAT_STATE = s.f TAIL_REEL_STAT_STATE := by
  rw [s.reelSay_eq h, State.raise_f _ (by decide)]
  exact State.f_put_disj _ _ rfl (by decide) (by decide) (by decide)

/-- EV_REELIN_REFUSED (181). -/
theorem State.reelSay_irq : ((s.reelSay cause).reg (HIF_IRQ_STAT 5)).toNat.testBit 21 = true := by
  rw [s.reelSay_eq h]
  exact State.raise_irq _ 181

end

end

/-! ### ABORT (R354, R355) -/

/-- What ABORT leaves: the Reel-in is over with the cause ABORT (9), in state `state`. -/
def State.Aborted (s t : State) (r : Reel) (state : Nat) : Prop :=
  t.tail = { s.tail with reel := none, taskHit := t.tail.taskHit } ∧ t.f TAIL_REEL_STAT_CAUSE = 9 ∧ t.f TAIL_REEL_STAT_STATE = state ∧
    (t.reg (HIF_IRQ_STAT 5)).toNat.testBit 21 = true ∧
    Keeps (fun a => a = TAIL_REEL_STAT ∨ a = TAIL_CAT_STAT r.slot ∨ a = HIF_IRQ_STAT 5) [.host, .tail, .mesh] s t

section
variable (s : State) {r : Reel} (h : s.tail.reel = some r)
include h

/-- In VERIFY and ARMED: back to where the Reel-in started. -/
theorem State.reelRefuse_aborts (hslot : r.slot < 256) : s.Aborted (s.reelRefuse 9) r (if r.back = true then 4 else 0) := by
  have hsay : (s.reelSay 9).tail.reel = some r := (s.reelSay_reel (by decide)).trans h
  have heq : s.reelRefuse 9 = (s.reelSay 9).reelDrop (if r.back then 4 else 0) := by rw [State.reelRefuse, h]
  refine ⟨?_, ?_, ?_, ?_, (reelRefuse_only s 9).keeps fun a ha => ?_⟩
  · rw [heq, State.reelDrop_tail _ hsay, s.reelSay_tail (by decide)]
  · rw [heq, State.reelDrop_cause _ hsay, s.reelSay_cause (by decide)]
  · rw [heq, State.reelDrop_state _ hsay]
    cases r.back <;> rfl
  · rw [heq, State.reelDrop_reg _ hsay _ (by decide) (tailCatStat_ne_irq hslot 5)]
    exact s.reelSay_irq (by decide)
  · simp only [not_or] at ha
    obtain ⟨hstat, hcat, hirq⟩ := ha
    rw [heq, State.reelDrop_reg _ hsay _ (Ne.symm hstat) (Ne.symm hcat), s.reelSay_reg (by decide) (Ne.symm hstat) hirq]

/-- In MEMWRITE: PARTIAL. -/
theorem State.reelPartial_aborts : s.Aborted ((s.reelDrop 4).reelSay 9) r 4 := by
  refine ⟨?_, State.reelSay_cause _ (by decide), ?_, State.reelSay_irq _ (by decide),
    ((reelSay_only _ 9).after (m := 132609) (by decide) ((reelDrop_only s 4).mono (by decide))).keeps fun a ha => ?_⟩
  · exact ((s.reelDrop 4).reelSay_tail (by decide)).trans (by rw [s.reelDrop_tail h])
  · rw [State.reelSay_state _ (by decide), s.reelDrop_state h]
  · simp only [not_or] at ha
    obtain ⟨hstat, hcat, hirq⟩ := ha
    rw [State.reelSay_reg _ (by decide) (Ne.symm hstat) hirq, s.reelDrop_reg h _ (Ne.symm hstat) (Ne.symm hcat)]

theorem State.reelBreak_aborts (hslot : r.slot < 256) (hlo : 1 ≤ s.f TAIL_REEL_STAT_STATE) (hhi : s.f TAIL_REEL_STAT_STATE ≤ 3) :
    s.Aborted (s.reelBreak 9) r (if s.f TAIL_REEL_STAT_STATE = 3 ∨ r.back = true then 4 else 0) := by
  have hcases : s.f TAIL_REEL_STAT_STATE = 1 ∨ s.f TAIL_REEL_STAT_STATE = 2 ∨ s.f TAIL_REEL_STAT_STATE = 3 := by omega
  unfold State.reelBreak
  rcases hcases with hst | hst | hst
  · simpa [hst] using s.reelRefuse_aborts h hslot
  · simpa [hst] using s.reelRefuse_aborts h hslot
  · simpa [hst] using s.reelPartial_aborts h

end

theorem execReelinAbort_of_open (s : State) (h : s.blockGated 36 = false) : exec .reelinAbort s = .next (s.reelBreak 9) := by
  show execReelinAbort s = _
  simp [execReelinAbort, State.toBlock, h]

/-! ### The request (R354) -/

section
variable (s : State) {slot : Nat}

theorem execReelinGo_of_open (slot : Nat) (h : s.blockGated 36 = false) :
    exec (.reelinGo slot) s = .next ((s.put TAIL_REEL_CTRL_SLOT slot).reelGo (slot % 256)).settle := by
  show execReelinGo slot s = _
  simp [execReelinGo, State.toBlock, h]

/-- Without a COMPLETE snapshot in the slot nothing is read, and the cause is 1. -/
theorem State.reelGo_of_not_complete (h : s.slotState slot ≠ 2) : s.reelGo slot = s.reelSay 1 := by
  simp [State.reelGo, State.reelCheck, h]

/-- Reel-in `r` takes its slot and is in VERIFY. -/
def State.reelStart (s : State) (r : Reel) : State :=
  let u := ((s.setTail { s.tail with reel := some r }).slotUse r.slot).put TAIL_REEL_STAT_STATE 1
  ((u.put TAIL_REEL_STAT_LATE_POISON 0).put TAIL_REEL_STAT_CAUSE 0).pace 32 u.drainDiv

theorem State.reelStart_only (r : Reel) : Only 513 s (s.reelStart r) :=
  (pace_only _ _ _).after (by decide) ((put_only _ _ _).after (by decide) ((put_only _ _ _).after (by decide)
    ((put_only _ _ _).after (by decide) ((slotUse_only _ _).after (by decide) ((setTail_only _ _).mono (by decide))))))

theorem State.reelStart_reel (r : Reel) : (s.reelStart r).tail.reel = some r := rfl

/-- TAIL_REEL_STAT is cleared but for the state, VERIFY. -/
theorem State.reelStart_stat (r : Reel) :
    (s.reelStart r).f TAIL_REEL_STAT_STATE = 1 ∧ (s.reelStart r).f TAIL_REEL_STAT_CAUSE = 0 ∧
      (s.reelStart r).f TAIL_REEL_STAT_LATE_POISON = 0 := by
  unfold State.reelStart State.pace
  dsimp only
  simp (disch := decide) only [State.f_congr (State.setTail_regs _ _), State.f_put, State.f_put_disj]
  decide

theorem State.reelStart_uses (r : Reel) : (s.reelStart r).on (TAIL_CAT_STAT_IN_USE r.slot) = true := by
  have hne : TAIL_REEL_STAT ≠ TAIL_CAT_STAT r.slot := (tailCatStat_ne _ (by decide)).symm
  unfold State.reelStart State.pace
  dsimp only
  rw [State.on_congr (State.setTail_regs _ _), State.on, State.f_put_ne _ _ hne, State.f_put_ne _ _ hne, State.f_put_ne _ _ hne]
  exact (s.setTail { s.tail with reel := some r }).slotUse_of_reel rfl

/-- The list entries of a snapshot that holds none. -/
theorem State.setTail_no_lists {r : Reel} (h : s.tail.reel = some r) (hlists : r.lists = []) :
    s.setTail { s.tail with reel := s.tail.reel.map (fun x => { x with lists := [] }) } = s := by
  have hsame : s.tail.reel.map (fun x => { x with lists := [] }) = s.tail.reel := by
    rw [h, Option.map_some, ← hlists]
  rw [hsame]
  rfl

/-- A slot whose header passes every check, and that holds no list entries. -/
theorem State.reelGo_of_passed {u : State} {h : Nat} {rest : List Nat} (hslot : s.slotState slot = 2)
    (hread : reelHeader 17 (s.slotBase slot) [] s = (u, some (h :: rest)))
    (hcheck : u.reelCheck slot (s.f TAIL_REEL_STAT_STATE == 1 || s.f TAIL_REEL_STAT_STATE == 2 || s.f TAIL_REEL_STAT_STATE == 3)
      (some (h :: rest)) = none) (hlists : bitsOf h 447 416 = 0) :
    s.reelGo slot = u.reelStart ⟨slot, bitsOf h 175 128, [], 0, false, s.f TAIL_REEL_STAT_STATE == 4, 0⟩ := by
  have hfirst : ((some (h :: rest)).getD []).getD 0 0 = h := rfl
  unfold State.reelGo
  dsimp only
  rw [if_pos hslot, hread]
  dsimp only
  rw [hcheck]
  dsimp only
  have hempty (a : Nat) (v : State) : reelLists (min 8192 0) a [] v = (v, some []) := rfl
  rw [hfirst, hlists, hempty]
  exact State.setTail_no_lists _ (u.reelStart_reel _) rfl

end

/-! ### Arming (R355) -/

/-- Which spines carry round-mode clocks depends on the modes of the global clocks and the multiplexers. -/
theorem State.roundSpine_congr {s t : State} (hclk : t.clk = s.clk) (hmode : ∀ g < 32, t.on (CLK_GCLK_CFG_MODE g) = s.on (CLK_GCLK_CFG_MODE g))
    (n sp : Nat) : t.roundSpine n sp = s.roundSpine n sp := by
  have hsrc (m : Nat) : t.muxSrc m = s.muxSrc m := by rw [State.muxSrc, State.muxSrc, hclk]
  unfold State.roundSpine
  dsimp only
  rw [hsrc]
  split
  next hsp => rw [hmode sp hsp]
  split
  · by_cases hlt : s.muxSrc (rclkMux n (sp - 32)) < 32
    · rw [hmode _ hlt]
    · simp [hlt]
  · rfl

/-- Reads of memory leave the design memories as they are. -/
theorem State.Fetched.designRows {s t : State} (h : s.Fetched t) : t.designRows = s.designRows := by
  have hmode (g : Nat) (hg : g < 32) : t.on (CLK_GCLK_CFG_MODE g) = s.on (CLK_GCLK_CFG_MODE g) := by
    have hreg : ¬ StoreReg (CLK_GCLK_CFG g) := by
      simp only [StoreReg, InBlocks, CLK_GCLK_CFG, HIF_IRQ_STAT, List.mem_cons, List.not_mem_nil, or_false]
      omega
    rw [State.on, State.on, h.f hreg]
  have hport (m : Nat) (c : PortCfg) : t.designPort m c = s.designPort m c := by
    rw [State.designPort, State.designPort, State.roundSpine_congr (h.only.clk (by decide)) hmode]
  have hmem : t.designMem = s.designMem := funext fun c => by rw [State.designMem, State.designMem, hport, hport]
  have hmems : t.mems = s.mems := by rw [State.mems, State.mems, State.items, State.items, h.only.fab (by decide)]
  rw [State.designRows, State.designRows, hmem, hmems]

section
variable (s : State) {r : Reel}

theorem execReelinArmed_of_staged (h : s.tail.reel = some r) (hstate : s.f TAIL_REEL_STAT_STATE = 1) (hstep : r.step = 8192)
    (hclamp : s.clamped = false) : exec .reelinArmed s = .next (s.reelVerify r).settle := by
  show execReelinArmed s = _
  simp only [execReelinArmed, h]
  rw [if_pos ⟨hstate, hstep, hclamp⟩]

/-- With the checks passed again, and no design memory to verify, the Reel-in is ready. -/
theorem State.reelVerify_of_passed {u : State} {ls : List Nat} (hread : reelHeader 17 (s.slotBase r.slot) [] s = (u, some ls))
    (hcheck : u.reelCheck r.slot false (some ls) = none) (hrows : u.designRows = []) :
    s.reelVerify r = (u.reelReady r).put TAIL_REEL_STAT_STATE 2 := by
  unfold State.reelVerify
  rw [hread]
  dsimp only
  rw [hcheck, hrows]
  rfl

end

/-! ### Stopped rounds (R266) -/

theorem State.stopped_congr {s t : State} (h : t.reg LAT_STAT = s.reg LAT_STAT) : t.stopped = s.stopped := by
  have hstate : t.latState = s.latState := congrArg (fget · 31 29) h
  simp only [State.stopped, hstate]

theorem State.latState_of_stopped {s : State} (h : s.stopped = true) : s.latState = 0 ∨ s.latState = 1 ∨ s.latState = 7 := by
  simpa [State.stopped, or_assoc] using h

theorem State.inRound_of_stopped {s : State} (h : s.stopped = true) : s.inRound = false := by
  rcases State.latState_of_stopped h with h | h | h <;> simp [State.inRound, h]

/-- Lattice reset at every port (R307). -/
def State.portsFlush (s : State) : State := s.each (List.range 16) (fun n t => t.portFlush n)

theorem State.portsFlush_only (s : State) : Only 132865 s s.portsFlush := Only.each _ _ (fun n t => portFlush_only t n) .refl

/-! ### The restore edge (R356) -/

section
variable (s : State) (r : Reel)

/-- The design takes the shadow latches, and ROUND_COUNT the snapshot's round. -/
def State.restoreRound : State := { s.fabricEdge ⟨[], true, false, r.round, []⟩ with round := BitVec.ofNat 48 r.round }

/-- The Caller is reset, the restored entries go into its lists, and the ports are reset. -/
def State.restoreNode : State := (restoreLists r.lists (s.restoreRound r).callerReset).portsFlush

/-- No stop target or kept token is left. -/
def State.restoreLat : State :=
  (((s.setTarget none).put LAT_STAT_STOP_NOW 0).setLat { (s.setTarget none).lat with stopLate := false }).tokensClear

theorem State.restoreAt_of_stopped (h : s.stopped = true) :
    s.restoreAt r [] = (s.restoreNode r).restoreLat.put TAIL_REEL_STAT_STATE 3 := by
  simp only [State.restoreAt, State.inRound_of_stopped h, Bool.false_eq_true, if_false, State.restoreNode, State.restoreRound,
    State.restoreLat, State.portsFlush]

theorem State.restoreRound_only : Only 136717 s (s.restoreRound r) :=
  (Only.upd_round _).after (by decide) ((fabricEdge_only _ _).mono (by decide))

theorem State.restoreNode_only : Only 132929 (s.restoreRound r) (s.restoreNode r) :=
  (State.portsFlush_only _).after (by decide) ((restoreLists_only _ _).after (by decide) ((callerReset_only _).mono (by decide)))

theorem State.restoreLat_only : Only 129 s s.restoreLat :=
  (tokensClear_only _).after (by decide) ((setLat_only _ _).after (by decide) ((put_only _ _ _).after (by decide) (setTarget_only s none)))

theorem State.tokensClear_lat : s.tokensClear.lat = { s.lat with bows := [], relay := [] } := by
  unfold State.tokensClear
  dsimp only
  rw [State.each_keeps State.lat]
  · rfl
  · exact fun _ _ _ => rfl

theorem State.restoreLat_lat : s.restoreLat.lat = { s.lat with target := none, stopLate := false, bows := [], relay := [] } :=
  State.tokensClear_lat _

theorem execRestoreEdge_of_reached (h : s.tail.reel = some r) (hreached : s.restoreReached = true) :
    exec .restoreEdge s = .next ((s.restoreAt r []).noteReady).settle := by
  show execRestoreEdge s = _
  simp only [execRestoreEdge, h, hreached, if_true]

theorem State.stopped_of_restoreReached (h : s.restoreReached = true) : s.stopped = true := by
  simp only [State.restoreReached, Bool.and_eq_true] at h
  exact h.1.2

end

/-! ### What leaves the node's state and the Reel-in alone -/

/-- From `s` to `t` the node's state, the Reel-in and whether an alarm is due are the same. -/
structure State.Steady (s t : State) : Prop where
  stat : t.reg LAT_STAT = s.reg LAT_STAT
  reel : t.tail.reel = s.tail.reel
  due : t.sec.alarmDue = s.sec.alarmDue

theorem State.Steady.refl (s : State) : s.Steady s := ⟨rfl, rfl, rfl⟩

theorem State.Steady.trans {s t u : State} (h : s.Steady t) (g : t.Steady u) : s.Steady u :=
  ⟨g.stat.trans h.stat, g.reel.trans h.reel, g.due.trans h.due⟩

theorem State.Steady.after {s t u : State} (g : t.Steady u) (h : s.Steady t) : s.Steady u := h.trans g

theorem State.Steady.each {α : Type} {g : α → State → State} (hg : ∀ x t, State.Steady t (g x t)) (l : List α) (s : State) :
    s.Steady (s.each l g) :=
  ⟨State.each_keeps (State.reg · LAT_STAT) l (fun x _ t => (hg x t).stat) s, State.each_keeps (fun t => t.tail.reel) l (fun x _ t => (hg x t).reel) s,
    State.each_keeps (fun t => t.sec.alarmDue) l (fun x _ t => (hg x t).due) s⟩

theorem State.Steady.when {g : State → State} (hg : ∀ t, State.Steady t (g t)) (b : Bool) (s : State) : s.Steady (s.when b g) := by
  unfold State.when
  split
  · exact hg s
  · exact .refl s

/-- What changes neither the registers nor the Tail nor security. -/
theorem Only.steady {m : Nat} {s t : State} (h : Only m s t) (hregs : m.testBit 0 = false := by decide)
    (htail : m.testBit 9 = false := by decide) (hsec : m.testBit 18 = false := by decide) : s.Steady t :=
  ⟨State.reg_congr (h.regs hregs) _, congrArg Tail.reel (h.tail htail), congrArg Security.alarmDue (h.sec hsec)⟩

section
variable (s : State)

theorem State.setReg_steady {a : Nat} (v : Word) (h : a ≠ LAT_STAT) : s.Steady (s.setReg a v) := ⟨State.reg_setReg_ne _ _ h, rfl, rfl⟩

theorem State.put_steady {x : Fld} (v : Nat) (h : x.addr ≠ LAT_STAT) : s.Steady (s.put x v) := s.setReg_steady _ h

theorem State.raise_steady (i : Nat) : s.Steady (s.raise i) := by
  have hirq : LAT_STAT ≠ HIF_IRQ_STAT (i / 32) := by
    show 0x70000c ≠ 0xc00100 + i / 32 * 4
    omega
  exact ⟨State.raise_reg _ hirq, by rw [State.raise_tail], by rw [(raise_only s i).sec (by decide)]⟩

/-! #### The ports (R307) -/

theorem State.glsEvt_steady (n bit irq : Nat) : s.Steady (s.glsEvt n bit irq) := by
  have hevt : GLS_EVT n ≠ LAT_STAT := by
    show 0x810014 + n * 0x1000 ≠ 0x70000c
    omega
  exact (State.raise_steady _ irq).after (s.setReg_steady _ hevt)

theorem State.portFlush_steady (n : Nat) : s.Steady (s.portFlush n) := by
  have hcnt : GLS_CNT_FLUSH n ≠ LAT_STAT := by
    show 0x810028 + n * 0x1000 ≠ 0x70000c
    omega
  have hpools (p q : List _) (a b : Nat) : s.Steady ((((s.setBulkPool n 0 p).setUrgPool n 3 q).poolFree n 0 a).poolFree n 3 b) :=
    (setPort_only _ _ _).steady.after ((setPort_only _ _ _).steady.after ((setPort_only _ _ _).steady.after (setPort_only _ _ _).steady))
  unfold State.portFlush
  dsimp only
  split
  · exact hpools _ _ _ _
  · exact (State.glsEvt_steady _ _ _ _).after ((State.put_steady _ _ hcnt).after (hpools _ _ _ _))

theorem State.portsFlush_steady : s.Steady s.portsFlush := State.Steady.each (fun n t => t.portFlush_steady n) _ s

/-! #### Tokens (R257, R260) -/

theorem State.latErr_steady (cause port node : Nat) (here : Bool) : s.Steady (s.latErr cause port node here) := by
  have hlog (u : State) (v : Nat) (x : Fld) (hx : x.addr = LAT_ERR_LOG) : u.Steady (u.put x v) := u.put_steady v (hx ▸ by decide)
  refine (State.raise_steady _ 159).after ?_
  unfold State.log
  split
  · exact hlog _ _ _ rfl
  · exact (hlog _ _ _ rfl).after ((hlog _ _ _ rfl).after ((hlog _ _ _ rfl).after ((hlog _ _ _ rfl).after (hlog _ _ _ rfl))))

theorem State.routeInvalid_steady (dest : Nat) (port : Option Nat) : s.Steady (s.routeInvalid dest port) := by
  unfold State.routeInvalid
  split
  · exact .refl s
  · exact (State.latErr_steady _ _ _ _ _).after (setLat_only _ _).steady

theorem State.latTry_steady (k : Nat) (x : Nat × Urgent) : s.Steady (s.latTry k x).1 := by
  unfold State.latTry
  split
  · exact s.routeInvalid_steady _ _
  split
  · exact .refl s
  next t h => exact (enqUrgent_only s _ _ _ t h).steady

theorem latPumpList_steady (k : Nat) (l kept : List (Nat × Urgent)) (s : State) : s.Steady (latPumpList k l kept s) := by
  induction l generalizing k kept s with
  | nil => exact (setLat_only _ _).steady
  | cons x l ih =>
    unfold latPumpList
    split
    · exact ih _ _ _
    · dsimp only
      split
      · exact (s.latTry_steady k x).trans (ih _ _ _)
      · exact (s.latTry_steady k x).trans (ih _ _ _)

theorem State.latSend_steady (u : Urgent) : s.Steady (s.latSend u) := (latPumpList_steady _ _ _ _).after (setLat_only _ _).steady

theorem State.sendTokens_steady (type round : Nat) : s.Steady (s.sendTokens type round) := by
  unfold State.sendTokens
  split
  · exact State.Steady.each (fun _ t => t.latSend_steady _) _ s
  · exact .refl s

/-! #### Halts (R494, R501) -/

theorem State.haltNow_steady (c why unit : Nat) : s.Steady (s.haltNow c why unit) := by
  have hdbg (u : State) (v : Nat) (x : Fld) (hx : x.addr = DBG_CORE_STAT c) : u.Steady (u.put x v) := by
    refine u.put_steady v (hx ▸ ?_)
    show 0xf01004 + c * 0x100 ≠ 0x70000c
    omega
  have hst : ST_STAT c ≠ LAT_STAT := by
    show 0x1000004 + c * 0x10000 ≠ 0x70000c
    omega
  have hunlock (u : State) (l : List (Nat × Option Unlock)) : u.Steady (u.setSec { u.sec with unlock := l }) := ⟨rfl, rfl, rfl⟩
  unfold State.haltNow
  dsimp only
  refine (State.raise_steady _ 320).after ((State.setReg_steady _ _ (by decide)).after ((hdbg _ _ _ rfl).after ?_))
  refine (hdbg _ _ _ rfl).after ((hdbg _ _ _ rfl).after ((State.put_steady _ _ hst).after ?_))
  refine (State.Steady.when (fun t => (hdbg _ _ _ rfl).after (hunlock t _)) _ _).after ?_
  exact (State.Steady.when (fun t => hdbg t _ _ rfl) _ _).after (setCore_only _ _ _).steady

theorem State.haltCause_steady (c why unit : Nat) : s.Steady (s.haltCause c why unit) := by
  unfold State.haltCause
  dsimp only
  split
  · exact .refl s
  split
  · exact (setCore_only _ _ _).steady
  split
  · exact s.haltNow_steady c why unit
  · exact .refl s

theorem State.haltOnStop_steady : s.Steady s.haltOnStop := by
  unfold State.haltOnStop
  split
  · exact State.Steady.each (fun k t => t.haltCause_steady k 6 0) _ s
  · exact .refl s

end

/-! ### The end of a Reel-in (R357) -/

section
variable (s : State)

/-- A node that was OFFLINE or ABORTED is STOPPED. -/
def State.reelResume : State :=
  if s.latState = 7 ∨ s.latState = 0 then
    (((s.setLatState 1).setLat { s.lat with offPor := false }).sendTokens 1 s.round.toNat).haltOnStop
  else s

theorem State.setLatState_of_stopped (c : Nat) (h : s.stopped = true) : s.setLatState c = s.put LAT_STAT_STATE c := by
  simp [State.setLatState, State.inRound_of_stopped h]

/-- In either case it is STOPPED now, with the same Reel-in. -/
theorem State.reelResume_stopped (h : s.stopped = true) :
    s.reelResume.stopped = true ∧ s.reelResume.tail.reel = s.tail.reel ∧ s.reelResume.sec.alarmDue = s.sec.alarmDue := by
  have hone : (s.put LAT_STAT_STATE 1).stopped = true := by
    have : (s.put LAT_STAT_STATE 1).latState = 1 := State.f_put _ _ _ (by decide) (by decide)
    simp [State.stopped, this]
  unfold State.reelResume
  split
  · rw [s.setLatState_of_stopped 1 h]
    have hsent (u : State) : u.Steady (u.sendTokens 1 s.round.toNat).haltOnStop :=
      (State.haltOnStop_steady _).after (u.sendTokens_steady 1 s.round.toNat)
    obtain ⟨hstat, hreel, hdue⟩ := hsent ((s.put LAT_STAT_STATE 1).setLat { s.lat with offPor := false })
    exact ⟨(State.stopped_congr hstat).trans hone, hreel, hdue⟩
  · exact ⟨h, rfl, rfl⟩

/-- Every peer's DOWN is shown (R283). -/
def State.showDown : State := s.each s.peers (fun p t => t.put (LAT_PEER_STAT_DOWN p.1) (b2n (t.peerDown p.2)))

theorem State.showDown_only : Only 1 s s.showDown := Only.each _ _ (fun _ t => put_only t _ _) .refl

theorem State.peers_lt {p : Nat × Nat} (h : p ∈ s.peers) : p.1 < 64 := by
  simp only [State.peers, List.mem_filterMap, List.mem_range, Option.ite_none_right_eq_some] at h
  obtain ⟨i, hi, -, hp⟩ := h
  rw [← Option.some.inj hp]
  exact hi

theorem State.showDown_reg {a : Nat} (h : a < 0x701000 ∨ 0x702000 ≤ a) : s.showDown.reg a = s.reg a := by
  refine State.each_keeps (State.reg · a) _ (fun p hp t => State.reg_put_ne _ _ ?_) s
  have hlt := s.peers_lt hp
  show 0x701004 + p.1 * 8 ≠ a
  omega

/-- While the rounds are stopped, HELD is not entered or left: DOWN is shown, and what lattice control remembers of it. -/
theorem State.latSettle_of_stopped (h : s.stopped = true) :
    s.latSettle = s.showDown.setLat { s.lat with down := (s.peers.filter s.peerGone).map (·.1) } := by
  have hshown : s.showDown.latState = s.latState := congrArg (fget · 31 29) (s.showDown_reg (.inl (by decide)))
  have hset (l : Lat) : (s.showDown.setLat l).latState = s.latState := hshown
  have hfold : s.each s.peers (fun p t => t.put (LAT_PEER_STAT_DOWN p.1) (b2n (t.peerDown p.2))) = s.showDown := rfl
  simp only [State.latSettle, hfold, hset]
  rcases State.latState_of_stopped h with h | h | h <;> simp [h]

theorem execReelinDone_of_no_rows {r : Reel} (h : s.tail.reel = some r) (hstate : s.f TAIL_REEL_STAT_STATE = 3) (hclamp : s.clamped = false)
    (hrows : s.designRows = []) :
    exec .reelinDone s = .next ((((s.portsFlush.reelResume).reelDrop 0).raise 180).latSettle).settle := by
  show execReelinDone s = _
  have hnone (g : MemCfg × Nat → State → State) : s.each [] g = s := rfl
  have hfold : s.each (List.range 16) (fun n t => t.portFlush n) = s.portsFlush := rfl
  simp only [execReelinDone, h, hstate, hclamp, hrows, and_self, if_true, hnone, hfold]
  rfl

end

/-! ### The clauses about Reel-in -/

section
variable (s : State)

/-- A refused request (R354): the cause, EV_REELIN_REFUSED, and nothing of the Reel-in under way. -/
theorem State.reelGo_refuses_slot (hcalm : s.Calm) {slot : Nat} (hopen : s.blockGated 36 = false) (hslot : s.slotState (slot % 256) ≠ 2) :
    ∃ t, exec (.reelinGo slot) s = .next t ∧ t.f TAIL_REEL_STAT_CAUSE = 1 ∧ t.tail.reel = s.tail.reel ∧
      t.f TAIL_REEL_STAT_STATE = s.f TAIL_REEL_STAT_STATE ∧ (t.reg (HIF_IRQ_STAT 5)).toNat.testBit 21 = true ∧
      Keeps (fun a => a = TAIL_REEL_CTRL ∨ a = TAIL_REEL_STAT ∨ a = HIF_IRQ_STAT 5) [.host, .tail, .mesh] s t := by
  obtain ⟨halarm, hpower⟩ := hcalm
  let u : State := s.put TAIL_REEL_CTRL_SLOT slot
  have hreg {a : Nat} (hctrl : TAIL_REEL_CTRL ≠ a) (hstat : TAIL_REEL_STAT ≠ a) (hirq : a ≠ HIF_IRQ_STAT 5) : (u.reelSay 1).reg a = s.reg a :=
    (u.reelSay_reg (by decide) hstat hirq).trans (State.reg_put_ne _ _ hctrl)
  have honly : Only 132609 s (u.reelSay 1) := (reelSay_only u 1).after (by decide) ((put_only _ _ _).mono (by decide))
  have hgo : u.reelGo (slot % 256) = u.reelSay 1 :=
    u.reelGo_of_not_complete (by rwa [State.slotState, State.f_put_ne _ _ (tailCatStat_ne _ (by decide)).symm])
  have hsettle : (u.reelGo (slot % 256)).settle = u.reelSay 1 := by
    rw [hgo]
    exact State.settle_calm _ (by rw [honly.sec (by decide), halarm])
      ((State.powerAim_congr (hreg (by decide) (by decide) (by decide))).trans hpower)
  refine ⟨_, execReelinGo_of_open s slot hopen, ?_⟩
  rw [hsettle]
  refine ⟨u.reelSay_cause (by decide), u.reelSay_reel (by decide), ?_, u.reelSay_irq (by decide), honly.keeps fun a ha => ?_⟩
  · exact (u.reelSay_state (by decide)).trans (State.f_put_ne _ _ (by decide))
  · simp only [not_or] at ha
    obtain ⟨hctrl, hstat, hirq⟩ := ha
    exact hreg (Ne.symm hctrl) (Ne.symm hstat) hirq

/-- A request that passes every check (R354). -/
theorem State.reelGo_verifies (halarm : s.sec.alarmDue = false) {u : State} {slot h : Nat} {rest : List Nat} (hopen : s.blockGated 36 = false)
    (hslot : s.slotState (slot % 256) = 2)
    (hread : reelHeader 17 (s.slotBase (slot % 256)) [] (s.put TAIL_REEL_CTRL_SLOT slot) = (u, some (h :: rest)))
    (hcheck : u.reelCheck (slot % 256)
      (s.f TAIL_REEL_STAT_STATE == 1 || s.f TAIL_REEL_STAT_STATE == 2 || s.f TAIL_REEL_STAT_STATE == 3) (some (h :: rest)) = none)
    (hlists : bitsOf h 447 416 = 0) :
    ∃ t, exec (.reelinGo slot) s = .next t ∧ t.f TAIL_REEL_STAT_STATE = 1 ∧
      t.tail.reel = some ⟨slot % 256, bitsOf h 175 128, [], 0, false, s.f TAIL_REEL_STAT_STATE == 4, 0⟩ ∧ t.f TAIL_REEL_STAT_CAUSE = 0 ∧
      t.f TAIL_REEL_STAT_LATE_POISON = 0 ∧ t.on (TAIL_CAT_STAT_IN_USE (slot % 256)) = true ∧ t.round = s.round ∧ t.lat = s.lat ∧
      t.fab = s.fab ∧ t.call = s.call ∧ t.pending = s.pending := by
  let r : Reel := ⟨slot % 256, bitsOf h 175 128, [], 0, false, s.f TAIL_REEL_STAT_STATE == 4, 0⟩
  have hctrl (x : Fld) (hx : TAIL_REEL_CTRL ≠ x.addr) : (s.put TAIL_REEL_CTRL_SLOT slot).f x = s.f x := State.f_put_ne _ _ hx
  have hstate := hctrl TAIL_REEL_STAT_STATE (by decide)
  have hbase : (s.put TAIL_REEL_CTRL_SLOT slot).slotBase (slot % 256) = s.slotBase (slot % 256) := by
    rw [State.slotBase, State.slotBase, State.spoolBase, State.spoolBase, hctrl _ (by decide)]
  have hgo : (s.put TAIL_REEL_CTRL_SLOT slot).reelGo (slot % 256) = u.reelStart r := by
    rw [State.reelGo_of_passed _ ((hctrl _ (tailCatStat_ne _ (by decide)).symm).trans hslot) (by rw [hbase, hread]) (by rw [hstate, hcheck])
      hlists, hstate]
  have hfetch : (s.put TAIL_REEL_CTRL_SLOT slot).Fetched u := by
    have := reelHeader_fetched 17 (s.slotBase (slot % 256)) [] (s.put TAIL_REEL_CTRL_SLOT slot) (l := h :: rest) (by rw [hread])
    rwa [hread] at this
  have honly : Only 138753 s (u.reelStart r) :=
    (u.reelStart_only r).after (by decide) (hfetch.only.after (by decide) ((put_only _ _ _).mono (by decide)))
  have hcalm : (u.reelStart r).sec.alarmDue = false := by rw [honly.sec (by decide), halarm]
  have hwakes := State.settle_only_wakes hcalm
  have hall : Only 204289 s (u.reelStart r).settle := hwakes.after (by decide) (honly.mono (by decide))
  have hcat : BAL_PWR_STAT ≠ TAIL_CAT_STAT (slot % 256) := by
    show 0xa00104 ≠ 0x910000 + slot % 256 * 0x10
    omega
  obtain ⟨hone, hcause, hpoison⟩ := u.reelStart_stat r
  refine ⟨_, execReelinGo_of_open s slot hopen, ?_⟩
  rw [hgo]
  refine ⟨?_, ?_, ?_, ?_, ?_, hall.round (by decide), hall.lat (by decide), hall.fab (by decide), hall.call (by decide), hall.queue⟩
  · rw [State.settle_f hcalm (by decide), hone]
  · rw [hwakes.tail (by decide), u.reelStart_reel]
  · rw [State.settle_f hcalm (by decide), hcause]
  · rw [State.settle_f hcalm (by decide), hpoison]
  · rw [State.on, State.settle_f hcalm hcat]
    exact u.reelStart_uses r

/-- VERIFY is done (R355). -/
theorem State.reelVerify_arms (halarm : s.sec.alarmDue = false) {u : State} {r : Reel} {ls : List Nat} (hreel : s.tail.reel = some r)
    (hstate : s.f TAIL_REEL_STAT_STATE = 1) (hstep : r.step = 8192) (hclamp : s.clamped = false)
    (hread : reelHeader 17 (s.slotBase r.slot) [] s = (u, some ls)) (hcheck : u.reelCheck r.slot false (some ls) = none)
    (hrows : s.designRows = []) :
    ∃ t, exec .reelinArmed s = .next t ∧ t.f TAIL_REEL_STAT_STATE = 2 ∧
      t.tail.reel = some { r with late := s.latState == 6, armFig := s.fig.toNat } ∧ t.round = s.round ∧ t.lat = s.lat ∧ t.fab = s.fab ∧
      t.call = s.call ∧ t.pending = s.pending := by
  have hfetch : s.Fetched u := by
    have := reelHeader_fetched 17 (s.slotBase r.slot) [] s (l := ls) (by rw [hread])
    rwa [hread] at this
  have harm := s.reelVerify_of_passed hread hcheck (hfetch.designRows.trans hrows)
  let v : State := (u.reelReady r).put TAIL_REEL_STAT_STATE 2
  have honly : Only 138753 s v := (put_only _ _ _).after (by decide) ((reelReady_only _ _).after (by decide) hfetch.only)
  have hcalm : v.sec.alarmDue = false := by rw [honly.sec (by decide), halarm]
  have hwakes := State.settle_only_wakes hcalm
  have hall : Only 204289 s v.settle := hwakes.after (by decide) (honly.mono (by decide))
  have hlat : u.latState = s.latState := hfetch.f (by decide)
  have hready : v.tail.reel = some { r with late := u.latState == 6, armFig := u.fig.toNat } := rfl
  refine ⟨_, execReelinArmed_of_staged s hreel hstate hstep hclamp, ?_⟩
  rw [harm]
  refine ⟨?_, ?_, hall.round (by decide), hall.lat (by decide), hall.fab (by decide), hall.call (by decide), hall.queue⟩
  · exact (State.settle_f hcalm (by decide)).trans (State.f_put _ _ _ (by decide) (by decide))
  · rw [hwakes.tail (by decide), hready, hlat, hfetch.only.fig (by decide)]

/-- The restore edge while the rounds are stopped (R356). -/
theorem State.restoreEdge_restores (halarm : s.sec.alarmDue = false) {r : Reel} (hreel : s.tail.reel = some r)
    (hreached : s.restoreReached = true) :
    ∃ t, exec .restoreEdge s = .next t ∧ t.f TAIL_REEL_STAT_STATE = 3 ∧ t.round = BitVec.ofNat 48 r.round ∧ t.lat.target = none ∧
      t.lat.bows = [] ∧ t.fig = s.fig ∧ t.pending = s.pending ∧ t.hbm = s.hbm := by
  let v : State := (s.restoreNode r).restoreLat.put TAIL_REEL_STAT_STATE 3
  have hat : s.restoreAt r [] = v := s.restoreAt_of_stopped r (s.stopped_of_restoreReached hreached)
  have hready := noteReady_only v
  have hnode : Only 133057 (s.restoreRound r) v :=
    (put_only _ _ _).after (by decide) ((restoreLat_only _).after (by decide) ((s.restoreNode_only r).mono (by decide)))
  have honly : Only 137165 s v.noteReady := hready.after (by decide) (hnode.after (by decide) ((s.restoreRound_only r).mono (by decide)))
  have hcalm : v.noteReady.sec.alarmDue = false := by rw [honly.sec (by decide), halarm]
  have hwakes := State.settle_only_wakes hcalm
  have hall : Only 202701 s v.noteReady.settle := hwakes.after (by decide) (honly.mono (by decide))
  have hlat : v.noteReady.settle.lat = { (s.restoreNode r).lat with target := none, stopLate := false, bows := [], relay := [] } := by
    rw [hwakes.lat (by decide), hready.lat (by decide)]
    exact State.restoreLat_lat _
  refine ⟨_, execRestoreEdge_of_reached s r hreel hreached, ?_⟩
  rw [hat]
  refine ⟨?_, ?_, by rw [hlat], by rw [hlat], hall.fig (by decide), hall.queue, hall.hbm (by decide)⟩
  · rw [State.settle_f hcalm (by decide), State.f_congr (hready.regs (by decide))]
    exact State.f_put _ _ _ (by decide) (by decide)
  · rw [hwakes.round (by decide), hready.round (by decide), hnode.round (by decide)]
    rfl

/-- The end of a Reel-in of a device without design memories (R357). -/
theorem State.reelinDone_ends (halarm : s.sec.alarmDue = false) {r : Reel} (hreel : s.tail.reel = some r)
    (hstate : s.f TAIL_REEL_STAT_STATE = 3) (hclamp : s.clamped = false) (hrows : s.designRows = []) (hstopped : s.stopped = true) :
    ∃ t, exec .reelinDone s = .next t ∧ t.f TAIL_REEL_STAT_STATE = 0 ∧ t.tail.reel = none ∧ t.stopped = true ∧
      (t.reg (HIF_IRQ_STAT 5)).toNat.testBit 20 = true ∧ t.round = s.round ∧ t.fig = s.fig ∧ t.pending = s.pending := by
  have hexec := execReelinDone_of_no_rows s hreel hstate hclamp hrows
  have hall := execReelinDone_only s _ hexec
  have hflush := s.portsFlush_steady
  obtain ⟨hstop, hsame, hdue⟩ := s.portsFlush.reelResume_stopped ((State.stopped_congr hflush.stat).trans hstopped)
  have hslot : s.portsFlush.reelResume.tail.reel = some r := hsame.trans (hflush.reel.trans hreel)
  let x : State := s.portsFlush.reelResume.reelDrop 0
  let u : State := x.raise 180
  have hxstat : x.reg LAT_STAT = s.portsFlush.reelResume.reg LAT_STAT :=
    State.reelDrop_reg _ hslot _ (by decide) (tailCatStat_ne _ (by decide))
  have hustop : u.stopped = true := (State.stopped_congr ((x.raise_steady 180).stat.trans hxstat)).trans hstop
  have hsettled := u.latSettle_of_stopped hustop
  have hreg {a : Nat} (ha : a < 0x701000 ∨ 0x702000 ≤ a) : u.latSettle.reg a = u.reg a := by
    rw [hsettled, State.reg_congr (State.setLat_regs _ _), u.showDown_reg ha]
  have hparts : u.latSettle.tail = u.tail ∧ u.latSettle.sec = u.sec := by
    rw [hsettled]
    exact ⟨u.showDown_only.tail (by decide), u.showDown_only.sec (by decide)⟩
  obtain ⟨htail, hsec⟩ := hparts
  have hcalm : u.latSettle.sec.alarmDue = false := by
    rw [hsec, (raise_only x 180).sec (by decide), (reelDrop_only _ 0).sec (by decide), hdue, hflush.due, halarm]
  have hfinal {a : Nat} (ha : a < 0x701000 ∨ 0x702000 ≤ a) (hpwr : BAL_PWR_STAT ≠ a) : u.latSettle.settle.reg a = u.reg a :=
    (State.settle_reg hcalm hpwr).trans (hreg ha)
  refine ⟨_, hexec, ?_, ?_, ?_, ?_, hall.round (by decide), hall.fig (by decide), hall.queue⟩
  · rw [State.f, hfinal (.inr (by decide)) (by decide)]
    exact (x.raise_f (by decide)).trans (State.reelDrop_state _ hslot 0)
  · rw [(State.settle_only_wakes hcalm).tail (by decide), htail, State.raise_tail]
    exact congrArg Tail.reel (State.reelDrop_tail _ hslot 0)
  · rw [State.stopped_congr (hfinal (.inl (by decide)) (by decide)), hustop]
  · rw [hfinal (.inr (by decide)) (by decide)]
    exact x.raise_irq 180

end

/-- Settles O37: a lemma for each command, from the equation of its case. -/
theorem tailReelIn : Obligations.TailReelIn := by
  unfold Obligations.TailReelIn
  intro s hcalm
  refine ⟨fun slot h rest _ hopen hslot hsome hcheck hlists => ?_, fun slot hopen hslot => s.reelGo_refuses_slot hcalm hopen hslot,
    fun r ls _ hreel hstate hstep hclamp hsome hcheck hrows => ?_, fun r hreel hreached => s.restoreEdge_restores hcalm.1 hreel hreached,
    fun r hreel hstate hclamp hrows hstopped => s.reelinDone_ends hcalm.1 hreel hstate hclamp hrows hstopped,
    fun r hopen hreel hslot hlo hhi => ?_⟩
  · cases hread : reelHeader 17 (s.slotBase (slot % 256)) [] (s.put TAIL_REEL_CTRL_SLOT slot) with
    | mk u lines =>
      rw [hread] at hsome hcheck
      obtain rfl : lines = some (h :: rest) := hsome
      exact s.reelGo_verifies hcalm.1 hopen hslot hread hcheck hlists
  · cases hread : reelHeader 17 (s.slotBase r.slot) [] s with
    | mk u lines =>
      rw [hread] at hsome hcheck
      obtain rfl : lines = some ls := hsome
      exact s.reelVerify_arms hcalm.1 hreel hstate hstep hclamp hread hcheck hrows
  · exact ⟨_, execReelinAbort_of_open s hopen, s.reelBreak_aborts hreel hslot hlo hhi⟩

end Sys2Proof.Machine
end

section
/-! SUPPORT. Clocks (file 04): the oscillator trim (R130 to R132), what a request does to a multiplexer (R153, R157), the clock monitors and
their failover (R165, R166). -/

namespace Sys2Proof.Machine

/-! ### One-bit fields -/

section
variable (s : State) {x y : Fld}

/-- A flag reads as the truth value that was put into it. -/
theorem State.on_put_b2n (b : Bool) (hw : x.hi = x.lo) (hlt : x.lo < 32) : (s.put x (b2n b)).on x = b := by
  rw [State.on, State.f_put _ _ _ (by omega) (by omega), hw]
  cases b <;> simp [b2n]

theorem State.on_put_one (hw : x.hi = x.lo) (hlt : x.lo < 32) : (s.put x 1).on x = true := s.on_put_b2n true hw hlt

theorem State.on_put_zero (hw : x.hi = x.lo) (hlt : x.lo < 32) : (s.put x 0).on x = false := s.on_put_b2n false hw hlt

theorem State.on_put_ne (v : Nat) (h : x.addr ≠ y.addr) : (s.put x v).on y = s.on y := by rw [State.on, State.f_put_ne _ _ h, State.on]

theorem State.on_put_disj (v : Nat) (ha : x.addr = y.addr) (hh : x.hi < 32) (hl : x.lo ≤ x.hi) (hd : y.hi < x.lo ∨ x.hi < y.lo) :
    (s.put x v).on y = s.on y := by
  rw [State.on, State.f_put_disj _ _ ha hh hl hd, State.on]

theorem State.raise_on {i : Nat} (h : x.addr ≠ HIF_IRQ_STAT (i / 32)) : (s.raise i).on x = s.on x := by rw [State.on, s.raise_f h, State.on]

theorem State.f_of_reg {s t : State} (h : t.reg x.addr = s.reg x.addr) : t.f x = s.f x := congrArg (fget · x.hi x.lo) h

theorem State.on_of_reg {s t : State} (h : t.reg x.addr = s.reg x.addr) : t.on x = s.on x := congrArg (· == 1) (State.f_of_reg h)

/-- A flag is 0 or 1. -/
theorem State.f_eq_b2n_on (hw : x.hi = x.lo) : s.f x = b2n (s.on x) := by
  have hlt : s.f x < 2 ^ (x.hi + 1 - x.lo) := BitVec.isLt _
  rw [hw, Nat.add_sub_cancel_left, pow_one] at hlt
  unfold State.on
  interval_cases s.f x <;> rfl

end

/-! ### The oscillator trim (R130 to R132) -/

theorem trimStep_le {code : Nat} (band : Nat) (d : Int) (h : code ≤ 4095) : trimStep code band d ≤ 4095 := by
  unfold trimStep
  split
  · omega
  split <;> omega

section
variable (s : State) (c : Nat)

/-- The difference of a window in which `c` cycles were counted. -/
def State.trimDiff : Int := (c : Int) - s.f CLK_OSC_TRIM_EXP_EXP

/-- How many windows in a row have been within DEADBAND, up to four. -/
def State.trimRun : Nat :=
  if decide (-(s.f CLK_OSC_TRIM_CTRL_DEADBAND : Int) ≤ s.trimDiff c ∧ s.trimDiff c ≤ s.f CLK_OSC_TRIM_CTRL_DEADBAND) then min 4 (s.clk.trimOk + 1)
  else 0

/-- CODE after the window. -/
def State.trimCode : Nat := trimStep (s.f CLK_OSC_TRIM_CTRL_CODE) (s.f CLK_OSC_TRIM_CTRL_DEADBAND) (s.trimDiff c)

/-- The end of a window writes CODE, LOCKED, REF_MISSING and LAST_DIFF. -/
def State.trimWritten : State :=
  ((((s.setClk { s.clk with trimOk := s.trimRun c, trimBeats := 0 }).put CLK_OSC_TRIM_CTRL_CODE (s.trimCode c)).put CLK_OSC_TRIM_STAT_LOCKED
    (b2n (s.trimRun c == 4))).put CLK_OSC_TRIM_STAT_REF_MISSING 0).put CLK_OSC_TRIM_STAT_LAST_DIFF
      (wrap 16 (if s.trimDiff c < -32768 then -32768 else if 32767 < s.trimDiff c then 32767 else s.trimDiff c))

/-- CODE that has moved from `code` to an end of its range, `new`, sets RAIL and raises EV_OSC_TRIM. -/
def State.trimRail (code new : Nat) : State :=
  if new ≠ code ∧ (new = 0 ∨ new = 4095) then (s.put CLK_OSC_TRIM_STAT_RAIL 1).raise 132 else s

/-- TRIM_WINDOW_END with EN set and a reference that is not beat marks. -/
theorem execTrimWindowEnd_of_on (hen : s.on CLK_OSC_TRIM_CTRL_EN = true) (hsrc : s.f CLK_OSC_TRIM_CTRL_SRC ≠ 2) :
    exec (.trimWindowEnd c) s = .next ((s.trimWritten c).trimRail (s.f CLK_OSC_TRIM_CTRL_CODE) (s.trimCode c)) := by
  show execTrimWindowEnd c s = _
  unfold execTrimWindowEnd
  dsimp only
  rw [if_neg (by simp [hen, hsrc])]
  rfl

theorem State.trimRail_reg (code new : Nat) {a : Nat} (hstat : CLK_OSC_TRIM_STAT ≠ a) (hirq : a ≠ HIF_IRQ_STAT 4) :
    (s.trimRail code new).reg a = s.reg a := by
  unfold State.trimRail
  split
  · rw [State.raise_reg _ hirq, State.reg_put_ne _ _ hstat]
  · rfl

theorem State.trimRail_f (code new : Nat) {x : Fld} (hirq : x.addr ≠ HIF_IRQ_STAT 4)
    (hrail : CLK_OSC_TRIM_STAT ≠ x.addr ∨ CLK_OSC_TRIM_STAT = x.addr ∧ (x.hi < 29 ∨ 29 < x.lo)) :
    (s.trimRail code new).f x = s.f x := by
  unfold State.trimRail
  split
  · rw [State.raise_f _ hirq]
    obtain hne | ⟨heq, hd⟩ := hrail
    · exact State.f_put_ne _ _ hne
    · exact State.f_put_disj _ _ heq (by decide) (by decide) hd
  · rfl

theorem State.trimWritten_code : (s.trimWritten c).f CLK_OSC_TRIM_CTRL_CODE = s.trimCode c := by
  have hcode : s.f CLK_OSC_TRIM_CTRL_CODE ≤ 4095 := Nat.le_of_lt_succ (BitVec.isLt _)
  have hle := trimStep_le (s.f CLK_OSC_TRIM_CTRL_DEADBAND) (s.trimDiff c) hcode
  unfold State.trimWritten
  iterate 3 rw [State.f_put_ne _ _ (by decide)]
  exact (State.f_put _ _ _ (by decide) (by decide)).trans (Nat.mod_eq_of_lt (Nat.lt_succ_of_le hle))

theorem State.trimRun_eq_four : (s.trimRun c == 4) = decide (3 ≤ s.clk.trimOk ∧ (s.trimDiff c).natAbs ≤ s.f CLK_OSC_TRIM_CTRL_DEADBAND) := by
  rw [Bool.eq_iff_iff, beq_iff_eq, decide_eq_true_eq]
  unfold State.trimRun
  split
  next h =>
    have := of_decide_eq_true h
    omega
  next h =>
    have := of_decide_eq_false (Bool.eq_false_iff.2 h)
    omega

theorem State.trimWritten_locked : (s.trimWritten c).f CLK_OSC_TRIM_STAT_LOCKED = b2n (s.trimRun c == 4) := by
  unfold State.trimWritten
  iterate 2 rw [State.f_put_disj _ _ (by rfl) (by decide) (by decide) (by decide)]
  rw [State.f_put _ _ _ (by decide) (by decide)]
  cases s.trimRun c == 4 <;> rfl

theorem wrap_lt (w : Nat) (i : Int) : wrap w i < 2 ^ w := by
  have h := Int.emod_lt_of_pos i (Int.natCast_pos.2 (Nat.two_pow_pos w))
  have h0 := Int.emod_nonneg i (Int.natCast_ne_zero.2 (Nat.two_pow_pos w).ne')
  unfold wrap
  omega

theorem b2n_eq_one (b : Bool) : (b2n b == 1) = b := by cases b <;> rfl

theorem State.trimWritten_lastDiff :
    (s.trimWritten c).f CLK_OSC_TRIM_STAT_LAST_DIFF = wrap 16 (max (-32768) (min 32767 (s.trimDiff c))) := by
  have hsat : (if s.trimDiff c < -32768 then -32768 else if 32767 < s.trimDiff c then 32767 else s.trimDiff c) =
      max (-32768) (min 32767 (s.trimDiff c)) := by
    split
    · omega
    split <;> omega
  unfold State.trimWritten
  rw [hsat, State.f_put _ _ _ (by decide) (by decide)]
  exact Nat.mod_eq_of_lt (wrap_lt 16 _)

theorem State.trimWritten_refMissing : (s.trimWritten c).f CLK_OSC_TRIM_STAT_REF_MISSING = 0 := by
  unfold State.trimWritten
  rw [State.f_put_disj _ _ (by rfl) (by decide) (by decide) (by decide)]
  exact State.f_put _ _ _ (by decide) (by decide)

theorem State.trimWritten_reg {a : Nat} (hctrl : CLK_OSC_TRIM_CTRL ≠ a) (hstat : CLK_OSC_TRIM_STAT ≠ a) : (s.trimWritten c).reg a = s.reg a := by
  unfold State.trimWritten
  iterate 3 rw [State.reg_put_ne _ _ hstat]
  exact State.reg_put_ne _ _ hctrl

/-- The end of a window (R130 to R132). -/
theorem trimWindowEnd_trims (hen : s.on CLK_OSC_TRIM_CTRL_EN = true) (hsrc : s.f CLK_OSC_TRIM_CTRL_SRC ≠ 2) :
    ∃ t, exec (.trimWindowEnd c) s = .next t ∧ t.f CLK_OSC_TRIM_CTRL_CODE = s.trimCode c ∧
      t.on CLK_OSC_TRIM_STAT_LOCKED = decide (3 ≤ s.clk.trimOk ∧ (s.trimDiff c).natAbs ≤ s.f CLK_OSC_TRIM_CTRL_DEADBAND) ∧
      t.f CLK_OSC_TRIM_STAT_LAST_DIFF = wrap 16 (max (-32768) (min 32767 (s.trimDiff c))) ∧ t.on CLK_OSC_TRIM_STAT_REF_MISSING = false ∧
      Keeps (fun a => a = CLK_OSC_TRIM_CTRL ∨ a = CLK_OSC_TRIM_STAT ∨ a = HIF_IRQ_STAT 4) [.clk, .host, .tail, .mesh] s t := by
  have hexec := execTrimWindowEnd_of_on s c hen hsrc
  refine ⟨_, hexec, ?_, ?_, ?_, ?_, (execTrimWindowEnd_only c s _ hexec).keeps fun a ha => ?_⟩
  · rw [State.trimRail_f _ _ _ (by decide) (by decide), s.trimWritten_code c]
  · rw [State.on, State.trimRail_f _ _ _ (by decide) (by decide), s.trimWritten_locked c, s.trimRun_eq_four c]
    exact b2n_eq_one _
  · rw [State.trimRail_f _ _ _ (by decide) (by decide), s.trimWritten_lastDiff c]
  · rw [State.on, State.trimRail_f _ _ _ (by decide) (by decide), s.trimWritten_refMissing c]
    rfl
  · simp only [not_or] at ha
    obtain ⟨hctrl, hstat, hirq⟩ := ha
    rw [State.trimRail_reg _ _ _ (Ne.symm hstat) hirq, s.trimWritten_reg c (Ne.symm hctrl) (Ne.symm hstat)]

end

/-- TRIM_REF_MISSING with EN set (R132). -/
theorem trimRefMissing_raises (s : State) (hen : s.on CLK_OSC_TRIM_CTRL_EN = true) :
    ∃ t, exec .trimRefMissing s = .next t ∧ t.on CLK_OSC_TRIM_STAT_REF_MISSING = true ∧ (t.reg (HIF_IRQ_STAT 4)).toNat.testBit 4 = true ∧
      t.f CLK_OSC_TRIM_CTRL_CODE = s.f CLK_OSC_TRIM_CTRL_CODE ∧
      Keeps (fun a => a = CLK_OSC_TRIM_STAT ∨ a = HIF_IRQ_STAT 4) [.clk, .host, .tail, .mesh] s t := by
  have hexec : exec .trimRefMissing s =
      .next (((s.setClk { s.clk with trimBeats := 0 }).put CLK_OSC_TRIM_STAT_REF_MISSING 1).raise 132) :=
    congrArg Host.Outcome.next (if_pos hen)
  refine ⟨_, hexec, ?_, State.raise_irq _ 132, ?_, (execTrimRefMissing_only s _ hexec).keeps fun a ha => ?_⟩
  · rw [State.raise_on _ (by decide), State.on_put_one _ rfl (by decide)]
  · rw [State.raise_f _ (by decide), State.f_put_ne _ _ (by decide), State.f_congr (State.setClk_regs _ _)]
  · obtain ⟨hstat, hirq⟩ := not_or.1 ha
    rw [State.raise_reg _ hirq, State.reg_put_ne _ _ (Ne.symm hstat), State.reg_congr (State.setClk_regs _ _)]

/-! ### Multiplexers and source switches (R153, R157) -/

section
variable (m : Nat)

/-- The field is narrower than a word, and BUSY is one bit above it in the same register. -/
theorem muxField_layout : (muxField m).lo ≤ (muxField m).hi ∧ (muxField m).hi < (muxBusy m).lo ∧ (muxBusy m).hi = (muxBusy m).lo ∧
    (muxBusy m).lo < 32 ∧ (muxBusy m).addr = (muxField m).addr := by
  unfold muxField muxBusy
  split
  · decide
  split
  · decide
  split <;> exact ⟨by simp, by simp, rfl, by simp, rfl⟩

theorem muxBusy_addr : (muxBusy m).addr = (muxField m).addr := (muxField_layout m).2.2.2.2

variable {m}

/-- The registers of the multiplexers lie between the settings of the PLLs and CLK_SW_STAT. -/
theorem muxField_addr (h : isMux m = true) : 0x100300 ≤ (muxField m).addr ∧ (muxField m).addr < 0x103000 := by
  simp only [isMux, Bool.or_eq_true, Bool.and_eq_true, decide_eq_true_eq] at h
  unfold muxField
  split
  · decide
  split
  · decide
  split
  · simp only [CLK_GCLK_CFG]
    omega
  · simp only [CLK_RCLK_CFG]
    omega

variable (s : State) (src : Nat)

theorem State.on_busy_put_field (v : Nat) : (s.put (muxField m) v).on (muxBusy m) = s.on (muxBusy m) := by
  obtain ⟨hle, hlt, hone, h32, haddr⟩ := muxField_layout m
  exact s.on_put_disj _ haddr.symm (by omega) hle (.inr hlt)

/-- The source field takes the new source, which is held while a switch is in progress and else starts a switch. -/
def State.switchAsked (m src : Nat) : State :=
  if s.on (muxBusy m) then
    (s.put (muxField m) src).setClk { s.clk with muxHeld := mset s.clk.muxHeld none m (some src) }
  else ((s.put (muxField m) src).setClk { s.clk with muxNew := mset s.clk.muxNew none m (some src) }).put (muxBusy m) 1

theorem State.switchTo_eq (hmux : isMux m = true) (hne : s.f (muxField m) ≠ src) :
    s.switchTo m src = if m = 0 ∧ src = 0 then (s.switchAsked m src).nodeOffline else s.switchAsked m src := by
  unfold State.switchTo State.switchAsked
  dsimp only
  rw [if_neg (by simp [hmux, hne]), s.on_busy_put_field]
  rfl

theorem State.switchTo_of_new (hmux : isMux m = true) (hne : s.f (muxField m) ≠ src) (hoff : m ≠ 0 ∨ src ≠ 0) :
    s.switchTo m src = s.switchAsked m src := by
  rw [s.switchTo_eq src hmux hne, if_neg (by omega)]

theorem State.switchAsked_of_idle (h : s.on (muxBusy m) = false) :
    s.switchAsked m src =
      ((s.put (muxField m) src).setClk { s.clk with muxNew := mset s.clk.muxNew none m (some src) }).put (muxBusy m) 1 := by
  rw [State.switchAsked, h]
  rfl

theorem State.switchAsked_of_busy (h : s.on (muxBusy m) = true) :
    s.switchAsked m src = (s.put (muxField m) src).setClk { s.clk with muxHeld := mset s.clk.muxHeld none m (some src) } := by
  rw [State.switchAsked, h]
  rfl

theorem State.switchAsked_only : Only 17 s (s.switchAsked m src) := by
  unfold State.switchAsked
  split
  · exact (setClk_only _ _).after (by decide) ((put_only _ _ _).mono (by decide))
  · exact (put_only _ _ _).after (by decide) ((setClk_only _ _).after (by decide) ((put_only _ _ _).mono (by decide)))

theorem State.switchAsked_reg {a : Nat} (h : (muxField m).addr ≠ a) : (s.switchAsked m src).reg a = s.reg a := by
  unfold State.switchAsked
  split
  · rw [State.reg_congr (State.setClk_regs _ _), State.reg_put_ne _ _ h]
  · rw [State.reg_put_ne _ _ ((muxBusy_addr m).symm ▸ h), State.reg_congr (State.setClk_regs _ _), State.reg_put_ne _ _ h]

theorem State.switchAsked_f (hsrc : src < 2 ^ ((muxField m).hi + 1 - (muxField m).lo)) : (s.switchAsked m src).f (muxField m) = src := by
  obtain ⟨hle, hlt, hone, h32, haddr⟩ := muxField_layout m
  have hput : (s.put (muxField m) src).f (muxField m) = src := (State.f_put _ _ _ (by omega) hle).trans (Nat.mod_eq_of_lt hsrc)
  unfold State.switchAsked
  split
  · rw [State.f_congr (State.setClk_regs _ _), hput]
  · rw [State.f_put_disj _ _ haddr (by omega) (by omega) (.inl hlt), State.f_congr (State.setClk_regs _ _), hput]

/-- A switch is in progress then. -/
theorem State.switchAsked_busy : (s.switchAsked m src).on (muxBusy m) = true := by
  obtain ⟨-, -, hone, h32, -⟩ := muxField_layout m
  by_cases h : s.on (muxBusy m) = true
  · rw [s.switchAsked_of_busy src h, State.on_congr (State.setClk_regs _ _), s.on_busy_put_field, h]
  · rw [s.switchAsked_of_idle src (Bool.eq_false_iff.2 h), State.on_put_one _ hone h32]

end

/-! ### The clock monitors (R165, R166) -/

section
variable {s : State} {m : Nat}

/-- A monitor that watches is one of those of R164, and is enabled. -/
theorem State.monOn_lt (h : s.monOn m = true) : m < 48 := by
  simp only [State.monOn, Bool.and_eq_true, Bool.or_eq_true, decide_eq_true_eq] at h
  omega

/-- The monitors' registers lie in the block CLOCK. -/
theorem monStat_ne_irq (h : m < 48) : CLK_MON_STAT m ≠ HIF_IRQ_STAT 4 := by
  unfold CLK_MON_STAT HIF_IRQ_STAT
  omega

theorem monStat_ne_cfg (m : Nat) : CLK_MON_STAT m ≠ CLK_MON_CFG m := by
  unfold CLK_MON_STAT CLK_MON_CFG
  omega

/-- A flag of monitor `m`. -/
def MonFlag (m : Nat) (x : Fld) : Prop := x.addr = CLK_MON_STAT m ∧ x.hi = x.lo ∧ 28 < x.lo ∧ x.lo < 32

/-- Setting flags of a monitor sets these, and leaves the others. -/
theorem State.each_flags_on (l : List Fld) (hl : ∀ x ∈ l, MonFlag m x) {y : Fld} (hy : MonFlag m y) (s : State) :
    (s.each l (fun x t => t.put x 1)).on y = (s.on y || decide (y ∈ l)) := by
  unfold State.each
  induction l generalizing s with
  | nil => simp [foldS]
  | cons x l ih =>
    obtain ⟨haddr, hwidth, hlo, hhi⟩ := hl x List.mem_cons_self
    obtain ⟨hyaddr, hywidth, -, -⟩ := hy
    rw [foldS, ih (fun z hz => hl z (List.mem_cons_of_mem _ hz)) (s.put x 1)]
    by_cases hxy : y = x
    · subst hxy
      simp [State.on_put_one _ hwidth hhi]
    · have hne : x.lo ≠ y.lo := fun h => hxy (by cases x; cases y; simp_all)
      rw [State.on_put_disj _ _ (haddr.trans hyaddr.symm) (by omega) (by omega) (by omega)]
      simp [hxy]

/-- Setting flags of a monitor leaves the other fields. -/
theorem State.each_flags_f (l : List Fld) (hl : ∀ x ∈ l, MonFlag m x) {y : Fld}
    (hy : CLK_MON_STAT m ≠ y.addr ∨ CLK_MON_STAT m = y.addr ∧ y.hi < 29) (s : State) : (s.each l (fun x t => t.put x 1)).f y = s.f y := by
  refine State.each_keeps (State.f · y) l (fun x hx t => ?_) s
  obtain ⟨haddr, hwidth, hlo, hhi⟩ := hl x hx
  obtain hne | ⟨heq, hlow⟩ := hy
  · exact State.f_put_ne _ _ (haddr ▸ hne)
  · exact State.f_put_disj _ _ (haddr.trans heq) (by omega) (by omega) (.inl (by omega))

theorem State.each_flags_reg (l : List Fld) (hl : ∀ x ∈ l, MonFlag m x) {a : Nat} (ha : CLK_MON_STAT m ≠ a) (s : State) :
    (s.each l (fun x t => t.put x 1)).reg a = s.reg a := by
  refine State.each_keeps (State.reg · a) l (fun x hx t => State.reg_put_ne _ _ ?_) s
  obtain ⟨haddr, -⟩ := hl x hx
  exact haddr ▸ ha

variable (s) in
/-- Those flags of `l` that are 0 become 1, with EV_CLK_MON. -/
def State.flagsRaised (l : List Fld) : State := (s.each (l.filter (fun x => !s.on x)) (fun x t => t.put x 1)).raise 128

theorem State.flagsRaised_only (s : State) (l : List Fld) : Only 132609 s (s.flagsRaised l) :=
  (raise_only _ _).after (by decide) (Only.each _ _ (fun _ _ => (put_only _ _ _).mono (by decide)) .refl)

/-- Without the FAILOVER action new flags are raised, and where no flag is new nothing happens. -/
theorem State.monFlags_cases {s : State} (l : List Fld) (hact : s.on (CLK_MON_CFG_ACTION m) = false) :
    s.monFlags m l = s ∧ (∀ x ∈ l, s.on x = true) ∨ s.monFlags m l = s.flagsRaised l := by
  unfold State.monFlags
  dsimp only
  split
  next hnone =>
    refine .inl ⟨rfl, fun x hx => ?_⟩
    have := List.filter_eq_nil_iff.1 (List.isEmpty_iff.1 hnone) x hx
    simpa using this
  next => exact .inr (by rw [hact]; rfl)

theorem State.monFlags_quiet_only {s : State} {l : List Fld} (hact : s.on (CLK_MON_CFG_ACTION m) = false) :
    Only 132609 s (s.monFlags m l) := by
  obtain ⟨h, -⟩ | h := State.monFlags_cases l hact <;> rw [h]
  · exact .refl
  · exact s.flagsRaised_only l

/-- With it the failover follows. -/
theorem State.monFlags_of_action {s : State} {l : List Fld} {x : Fld} (hx : x ∈ l) (hnew : s.on x = false)
    (hact : s.on (CLK_MON_CFG_ACTION m) = true) : s.monFlags m l = (s.flagsRaised l).failover m := by
  have hsome : ¬ (l.filter (fun x => !s.on x)).isEmpty = true := fun hnone => by
    have := List.filter_eq_nil_iff.1 (List.isEmpty_iff.1 hnone) x hx
    simp [hnew] at this
  unfold State.monFlags
  dsimp only
  rw [if_neg hsome, hact]
  rfl

section
variable {l : List Fld} (hl : ∀ x ∈ l, MonFlag m x)
include hl

theorem State.flagsRaised_on (hm : m < 48) (s : State) {y : Fld} (hy : MonFlag m y) : (s.flagsRaised l).on y = (s.on y || decide (y ∈ l)) := by
  have ⟨haddr, _⟩ := hy
  rw [State.flagsRaised, State.raise_on _ (haddr ▸ monStat_ne_irq hm),
    State.each_flags_on _ (fun x hx => hl x (List.mem_filter.1 hx).1) hy]
  cases hon : s.on y <;> simp [hon]

theorem State.flagsRaised_f (s : State) {y : Fld} (hirq : y.addr ≠ HIF_IRQ_STAT 4)
    (hy : CLK_MON_STAT m ≠ y.addr ∨ CLK_MON_STAT m = y.addr ∧ y.hi < 29) : (s.flagsRaised l).f y = s.f y := by
  rw [State.flagsRaised, State.raise_f _ hirq, State.each_flags_f _ (fun x hx => hl x (List.mem_filter.1 hx).1) hy]

theorem State.flagsRaised_reg (s : State) {a : Nat} (hstat : CLK_MON_STAT m ≠ a) (hirq : a ≠ HIF_IRQ_STAT 4) :
    (s.flagsRaised l).reg a = s.reg a := by
  rw [State.flagsRaised, State.raise_reg _ hirq, State.each_flags_reg _ (fun x hx => hl x (List.mem_filter.1 hx).1) hstat]

section
variable {s : State} (hact : s.on (CLK_MON_CFG_ACTION m) = false)
include hact

theorem State.monFlags_quiet_on (hm : m < 48) {y : Fld} (hy : MonFlag m y) : (s.monFlags m l).on y = (s.on y || decide (y ∈ l)) := by
  obtain ⟨h, hon⟩ | h := State.monFlags_cases l hact <;> rw [h]
  · by_cases hmem : y ∈ l
    · simp [hon y hmem]
    · simp [hmem]
  · exact State.flagsRaised_on hl hm s hy

theorem State.monFlags_quiet_f {y : Fld} (hirq : y.addr ≠ HIF_IRQ_STAT 4)
    (hy : CLK_MON_STAT m ≠ y.addr ∨ CLK_MON_STAT m = y.addr ∧ y.hi < 29) : (s.monFlags m l).f y = s.f y := by
  obtain ⟨h, -⟩ | h := State.monFlags_cases l hact <;> rw [h]
  exact State.flagsRaised_f hl s hirq hy

theorem State.monFlags_quiet_reg {a : Nat} (hstat : CLK_MON_STAT m ≠ a) (hirq : a ≠ HIF_IRQ_STAT 4) : (s.monFlags m l).reg a = s.reg a := by
  obtain ⟨h, -⟩ | h := State.monFlags_cases l hact <;> rw [h]
  exact State.flagsRaised_reg hl s hstat hirq

end

end

theorem monFlag_absent (m : Nat) : MonFlag m (CLK_MON_STAT_ABSENT m) := ⟨rfl, rfl, by simp, by simp⟩
theorem monFlag_high (m : Nat) : MonFlag m (CLK_MON_STAT_HIGH m) := ⟨rfl, rfl, by simp, by simp⟩
theorem monFlag_low (m : Nat) : MonFlag m (CLK_MON_STAT_LOW m) := ⟨rfl, rfl, by simp, by simp⟩

theorem monFlag_of_absent : ∀ x ∈ [CLK_MON_STAT_ABSENT m], MonFlag m x := by
  simpa using monFlag_absent m

/-- The flags that a window with `c` edges calls for. -/
def State.monHits (s : State) (m c : Nat) : List Fld :=
  (if c < s.f (CLK_MON_LIM_LO m) then [CLK_MON_STAT_LOW m] else []) ++
    if s.f (CLK_MON_LIM_HI m) < c ∨ 0xFFFF < c then [CLK_MON_STAT_HIGH m] else []

variable (s) (m) in
theorem State.mem_monHits (c : Nat) (x : Fld) :
    x ∈ s.monHits m c ↔ x = CLK_MON_STAT_LOW m ∧ c < s.f (CLK_MON_LIM_LO m) ∨
      x = CLK_MON_STAT_HIGH m ∧ (s.f (CLK_MON_LIM_HI m) < c ∨ 0xFFFF < c) := by
  rw [State.monHits, List.mem_append, List.mem_ite_nil_right, List.mem_ite_nil_right, List.mem_singleton, List.mem_singleton]
  tauto

theorem State.monHits_flags (s : State) (c : Nat) : ∀ x ∈ s.monHits m c, MonFlag m x := by
  intro x hx
  obtain ⟨rfl, -⟩ | ⟨rfl, -⟩ := (s.mem_monHits m c x).1 hx
  · exact monFlag_low m
  · exact monFlag_high m

theorem execClockMonitorWindow_of_on (c : Nat) (h : s.monOn m = true) :
    exec (.clockMonitorWindow m c) s = .next ((s.put (CLK_MON_STAT_COUNT m) (min c 0xFFFF)).monFlags m (s.monHits m c)) :=
  congrArg Host.Outcome.next (if_pos h)

theorem execClockAbsent_of_on (h : s.monOn m = true) : exec (.clockAbsent m) s = .next (s.monFlags m [CLK_MON_STAT_ABSENT m]) :=
  congrArg Host.Outcome.next (if_pos h)

/-- The end of a window of a monitor without FAILOVER. -/
theorem clockMonitorWindow_shows {c : Nat} (hon : s.monOn m = true) (hact : s.on (CLK_MON_CFG_ACTION m) = false) (hc : c < 0x10000) :
    ∃ t, exec (.clockMonitorWindow m c) s = .next t ∧ t.f (CLK_MON_STAT_COUNT m) = min c 0xFFFF ∧
      t.on (CLK_MON_STAT_LOW m) = (s.on (CLK_MON_STAT_LOW m) || decide (c < s.f (CLK_MON_LIM_LO m))) ∧
      t.on (CLK_MON_STAT_HIGH m) = (s.on (CLK_MON_STAT_HIGH m) || decide (s.f (CLK_MON_LIM_HI m) < c)) ∧
      t.f (CLK_MON_STAT_ABSENT m) = s.f (CLK_MON_STAT_ABSENT m) ∧
      Keeps (fun a => a = CLK_MON_STAT m ∨ a = HIF_IRQ_STAT 4) [.host, .tail, .mesh] s t := by
  have hm := State.monOn_lt hon
  have hirq := monStat_ne_irq hm
  have hl := s.monHits_flags (m := m) c
  have hact' : (s.put (CLK_MON_STAT_COUNT m) (min c 0xFFFF)).on (CLK_MON_CFG_ACTION m) = false :=
    (s.on_put_ne _ (monStat_ne_cfg m)).trans hact
  have hflag (y : Fld) (hy : MonFlag m y) : (s.put (CLK_MON_STAT_COUNT m) (min c 0xFFFF)).on y = s.on y := by
    obtain ⟨haddr, -, hlo, -⟩ := hy
    exact s.on_put_disj _ haddr.symm (by simp) (by simp) (.inr (by simp; omega))
  refine ⟨_, execClockMonitorWindow_of_on c hon, ?_, ?_, ?_, ?_,
    ((State.monFlags_quiet_only hact').after (m := 132609) (by decide) ((put_only _ _ _).mono (by decide))).keeps fun a ha => ?_⟩
  · rw [State.monFlags_quiet_f hl hact' hirq (.inr ⟨rfl, by simp⟩), State.f_put _ _ _ (by simp) (by simp)]
    exact Nat.mod_eq_of_lt (Nat.lt_of_le_of_lt (Nat.min_le_left _ _) hc)
  · rw [State.monFlags_quiet_on hl hact' hm (monFlag_low m), hflag _ (monFlag_low m)]
    simp [State.mem_monHits]
  · rw [State.monFlags_quiet_on hl hact' hm (monFlag_high m), hflag _ (monFlag_high m)]
    simp [State.mem_monHits, Nat.not_lt.2 (Nat.le_of_lt_succ hc)]
  · rw [State.f_eq_b2n_on _ rfl, State.monFlags_quiet_on hl hact' hm (monFlag_absent m), hflag _ (monFlag_absent m), s.f_eq_b2n_on rfl]
    simp [State.mem_monHits]
  · obtain ⟨hstat, hirq⟩ := not_or.1 ha
    rw [State.monFlags_quiet_reg hl hact' (Ne.symm hstat) hirq, State.reg_put_ne _ _ (Ne.symm hstat)]

/-- 64 OSC cycles without an edge, at a monitor without FAILOVER. -/
theorem clockAbsent_shows (hon : s.monOn m = true) (hact : s.on (CLK_MON_CFG_ACTION m) = false) (hnew : s.on (CLK_MON_STAT_ABSENT m) = false) :
    ∃ t, exec (.clockAbsent m) s = .next t ∧ t.on (CLK_MON_STAT_ABSENT m) = true ∧ (t.reg (HIF_IRQ_STAT 4)).toNat.testBit 0 = true ∧
      Keeps (fun a => a = CLK_MON_STAT m ∨ a = HIF_IRQ_STAT 4) [.host, .tail, .mesh] s t := by
  have hm := State.monOn_lt hon
  have hraised : s.monFlags m [CLK_MON_STAT_ABSENT m] = s.flagsRaised [CLK_MON_STAT_ABSENT m] := by
    obtain ⟨-, hon⟩ | h := State.monFlags_cases [CLK_MON_STAT_ABSENT m] hact
    · exact absurd (hon _ (List.mem_singleton_self _)) (by simp [hnew])
    · exact h
  refine ⟨_, execClockAbsent_of_on hon, ?_, ?_, (State.monFlags_quiet_only hact).keeps fun a ha => ?_⟩
  · rw [State.monFlags_quiet_on monFlag_of_absent hact hm (monFlag_absent m)]
    simp
  · rw [hraised]
    exact State.raise_irq _ 128
  · obtain ⟨hstat, hirq⟩ := not_or.1 ha
    exact State.monFlags_quiet_reg monFlag_of_absent hact (Ne.symm hstat) hirq

/-- The multiplexer of a global clock is the number of its monitor. -/
theorem isMux_of_global (h16 : 16 ≤ m) (hm : m < 48) : isMux m = true := by
  simp [isMux]
  omega

theorem muxField_of_global (h16 : 16 ≤ m) (hm : m < 48) : muxField m = CLK_GCLK_CFG_SRC (m - 16) := by
  unfold muxField
  rw [if_neg (by omega), if_neg (by omega), if_pos (by omega)]

theorem State.failover_of_global (h16 : 16 ≤ m) (s : State) : s.failover m = s.switchTo m (s.f (CLK_GCLK_CFG_ALT_SRC (m - 16))) := by
  unfold State.failover
  rw [if_neg (by omega), if_neg (by omega), if_pos h16]

/-- And with FAILOVER, at the monitor of a global clock. -/
theorem clockAbsent_fails_over (hon : s.monOn m = true) (h16 : 16 ≤ m) (hact : s.on (CLK_MON_CFG_ACTION m) = true)
    (hnew : s.on (CLK_MON_STAT_ABSENT m) = false) (hsrc : s.f (muxField m) ≠ s.f (CLK_GCLK_CFG_ALT_SRC (m - 16))) :
    ∃ t, exec (.clockAbsent m) s = .next t ∧ t.on (CLK_MON_STAT_ABSENT m) = true ∧ t.f (muxField m) = s.f (CLK_GCLK_CFG_ALT_SRC (m - 16)) ∧
      t.on (muxBusy m) = true ∧
      Keeps (fun a => a = CLK_MON_STAT m ∨ a = HIF_IRQ_STAT 4 ∨ a = CLK_GCLK_CFG (m - 16)) [.clk, .host, .tail, .mesh] s t := by
  have hm := State.monOn_lt hon
  have hfield := muxField_of_global h16 hm
  have haddr : (muxField m).addr = CLK_GCLK_CFG (m - 16) := by rw [hfield]
  have hstat : CLK_MON_STAT m ≠ CLK_GCLK_CFG (m - 16) := by
    unfold CLK_MON_STAT CLK_GCLK_CFG
    omega
  have hirq : CLK_GCLK_CFG (m - 16) ≠ HIF_IRQ_STAT 4 := by
    unfold CLK_GCLK_CFG HIF_IRQ_STAT
    omega
  have hkeep (x : Fld) (hx : x.addr = CLK_GCLK_CFG (m - 16)) : (s.flagsRaised [CLK_MON_STAT_ABSENT m]).f x = s.f x :=
    State.flagsRaised_f monFlag_of_absent s (hx ▸ hirq) (.inl (hx ▸ hstat))
  have hasked : s.monFlags m [CLK_MON_STAT_ABSENT m] =
      (s.flagsRaised [CLK_MON_STAT_ABSENT m]).switchAsked m (s.f (CLK_GCLK_CFG_ALT_SRC (m - 16))) := by
    rw [State.monFlags_of_action (List.mem_singleton_self _) hnew hact, State.failover_of_global h16, hkeep _ rfl,
      State.switchTo_of_new _ _ (isMux_of_global h16 hm) (by rwa [hkeep _ haddr]) (.inl (by omega))]
  refine ⟨_, (execClockAbsent_of_on hon).trans (congrArg Host.Outcome.next hasked), ?_, ?_, State.switchAsked_busy _ _,
    ((State.switchAsked_only _ _).after (m := 132625) (by decide) ((s.flagsRaised_only _).mono (by decide))).keeps fun a ha => ?_⟩
  · rw [State.on_of_reg (State.switchAsked_reg _ _ (haddr ▸ hstat.symm)), State.flagsRaised_on monFlag_of_absent hm s (monFlag_absent m)]
    simp
  · refine State.switchAsked_f _ _ ?_
    rw [hfield]
    exact BitVec.isLt _
  · simp only [not_or] at ha
    obtain ⟨hm', hi', hg'⟩ := ha
    rw [State.switchAsked_reg _ _ (haddr ▸ Ne.symm hg'), State.flagsRaised_reg monFlag_of_absent s (Ne.symm hm') hi']

end

/-- Settles O17: the trim writes its registers and at most one event, a monitor raises its new flags and then asks for the failover. -/
theorem trimAndMonitors : Obligations.TrimAndMonitors := by
  unfold Obligations.TrimAndMonitors
  exact fun s => ⟨fun c hen hsrc => trimWindowEnd_trims s c hen hsrc, trimRefMissing_raises s,
    fun _ _ hon hact hc => clockMonitorWindow_shows hon hact hc, fun _ hon hact hnew => clockAbsent_shows hon hact hnew,
    fun _ hon h16 hact hnew hsrc => clockAbsent_fails_over hon h16 hact hnew hsrc⟩

end Sys2Proof.Machine
end

section
/-! SUPPORT. PLLs (file 04, R135 to R139): a write of the settings, lock, timeout and loss of lock. -/

namespace Sys2Proof.Machine

/-! ### Bits of words -/

/-- Of a word merged from `x` and `y` under a mask, bits inside the mask are those of `y`. -/
theorem merge_and_inside {n : Nat} {x y mask k : BitVec n} (h : k &&& mask = k) : ((x &&& ~~~ mask) ||| (y &&& mask)) &&& k = y &&& k := by
  apply BitVec.eq_of_getLsbD_eq
  intro i hi
  have hbit := congrArg (BitVec.getLsbD · i) h
  simp only [BitVec.getLsbD_and, BitVec.getLsbD_or, BitVec.getLsbD_not, hi, decide_true, Bool.true_and] at hbit ⊢
  revert hbit
  cases k.getLsbD i <;> cases mask.getLsbD i <;> simp

/-- And those outside it are those of `x`. -/
theorem merge_and_outside {n : Nat} {x y mask k : BitVec n} (h : k &&& mask = 0#n) : ((x &&& ~~~ mask) ||| (y &&& mask)) &&& k = x &&& k := by
  apply BitVec.eq_of_getLsbD_eq
  intro i hi
  have hbit := congrArg (BitVec.getLsbD · i) h
  simp only [BitVec.getLsbD_and, BitVec.getLsbD_or, BitVec.getLsbD_not, BitVec.getLsbD_zero, hi, decide_true, Bool.true_and] at hbit ⊢
  revert hbit
  cases k.getLsbD i <;> cases mask.getLsbD i <;> simp

/-- A field of one bit is that bit. -/
theorem fget_bit (w : Word) (i : Nat) : (fget w i i == 1) = w.getLsbD i := by
  have hlt : fget w i i < 2 ^ (i + 1 - i) := BitVec.isLt _
  have hbit := fget_testBit w i i 0
  rw [Nat.add_sub_cancel_left] at hlt hbit
  rw [pow_one] at hlt
  rw [Nat.add_zero, decide_eq_true Nat.zero_lt_one, Bool.true_and] at hbit
  rw [← hbit]
  interval_cases fget w i i <;> rfl

theorem mem_ladd_iff {α : Type} [DecidableEq α] (l : List α) (v x : α) : x ∈ ladd l v ↔ x = v ∨ x ∈ l := by
  unfold ladd
  split
  next h => exact ⟨.inr, fun hx => hx.elim (fun e => e ▸ h) id⟩
  next => rw [List.mem_append, List.mem_singleton, or_comm]

theorem not_mem_ldel {α : Type} [DecidableEq α] (l : List α) (v : α) : v ∉ ldel l v := by simp [ldel]

/-! ### The registers of a PLL -/

theorem lt_of_isPll {p : Nat} (h : isPll p = true) : p < 16 := by
  simp only [isPll, isFpll, Bool.or_eq_true, Bool.and_eq_true, decide_eq_true_eq] at h
  omega

theorem pllCtrl_ne_pllStat (p q : Nat) : CLK_PLL_CTRL p ≠ CLK_PLL_STAT q := by
  unfold CLK_PLL_CTRL CLK_PLL_STAT
  omega

theorem pllStat_ne_irq {p : Nat} (h : p < 16) : CLK_PLL_STAT p ≠ HIF_IRQ_STAT 4 := by
  unfold CLK_PLL_STAT HIF_IRQ_STAT
  omega

/-! ### A write of the settings (R135 to R137) -/

/-- The bits of CLK_PLL_CTRL that can be written: the dividers of an FPLL alone. -/
def pllMask (p : Nat) : Word := if isFpll p then 0xC0FF0003#32 else 0xC0000000#32

section
variable (s : State) (p : Nat) (w : Word)

/-- CLK_PLL_CTRL after a write of `w`. -/
def State.pllWord : Word := (s.reg (CLK_PLL_CTRL p) &&& ~~~ pllMask p) ||| (w &&& pllMask p)

theorem pllMask_enable : 0xC0000000#32 &&& pllMask p = 0xC0000000#32 := by
  unfold pllMask
  split <;> decide

theorem State.pllWord_enable : s.pllWord p w &&& 0xC0000000#32 = w &&& 0xC0000000#32 := merge_and_inside (pllMask_enable p)

theorem State.pllWord_dividers_fpll (h : isFpll p = true) : s.pllWord p w &&& 0x00FF0003#32 = w &&& 0x00FF0003#32 := by
  refine merge_and_inside ?_
  rw [pllMask, if_pos h]
  decide

theorem State.pllWord_dividers_fixed (h : isFpll p = false) :
    s.pllWord p w &&& 0x00FF0003#32 = s.reg (CLK_PLL_CTRL p) &&& 0x00FF0003#32 := by
  refine merge_and_outside ?_
  rw [pllMask, h]
  decide

/-- EN takes the written bit. -/
theorem State.pllWord_en : (fget (s.pllWord p w) 31 31 == 1) = w.getLsbD 31 := by
  have h := congrArg (BitVec.getLsbD · 31) (s.pllWord_enable p w)
  simp only [BitVec.getLsbD_and] at h
  rw [fget_bit]
  simpa using h

/-- The outputs stop, and lock is awaited anew. -/
def State.pllStop : State :=
  ((s.setClk { s.clk with stopped := ladd s.clk.stopped p }).put (CLK_PLL_STAT_LOCK p) 0).put (CLK_PLL_STAT_TMO p) 0

theorem State.pllStop_reg {a : Nat} (h : CLK_PLL_STAT p ≠ a) : (s.pllStop p).reg a = s.reg a := by
  rw [State.pllStop, State.reg_put_ne _ _ h, State.reg_put_ne _ _ h, State.reg_congr (State.setClk_regs _ _)]

theorem State.pllStop_lock : (s.pllStop p).on (CLK_PLL_STAT_LOCK p) = false := by
  rw [State.pllStop, State.on_put_disj _ _ (by rfl) (by simp) (by simp) (by simp), State.on_put_zero _ rfl (by simp)]

/-- A write that turns EN on or off. -/
theorem execPllSettingChange_of_toggle (hp : isPll p = true) (hen : (w ^^^ s.reg (CLK_PLL_CTRL p)).toNat.testBit 31 = true) :
    exec (.pllSettingChange p w) s =
      .next ((((s.setReg (CLK_PLL_CTRL p) (s.pllWord p w)).pllStop p)).when (isFpll p) (fun t => t.pllCheck p)) := by
  have hmoved : ((fget (s.pllWord p w) 31 31 == 1) != (fget (s.reg (CLK_PLL_CTRL p)) 31 31 == 1)) = true := by
    rw [s.pllWord_en, fget_bit]
    rwa [BitVec.testBit_toNat, BitVec.getLsbD_xor] at hen
  show execPllSettingChange p w s = _
  unfold State.pllWord pllMask at hmoved
  unfold execPllSettingChange State.pllWord pllMask
  dsimp only
  rw [if_pos hp, hmoved, Bool.true_or, if_pos rfl]
  rfl

/-- The check of the setting shows in ERR_CFG. -/
theorem State.pllCheck_reg {a : Nat} (h : CLK_PLL_STAT p ≠ a) : (s.pllCheck p).reg a = s.reg a := State.reg_put_ne _ _ h

theorem State.pllCheck_lock : (s.pllCheck p).on (CLK_PLL_STAT_LOCK p) = s.on (CLK_PLL_STAT_LOCK p) :=
  State.on_put_disj _ _ rfl (by simp) (by simp) (by simp)

theorem pllSettingChange_stops (hp : isPll p = true) (hen : (w ^^^ s.reg (CLK_PLL_CTRL p)).toNat.testBit 31 = true) :
    ∃ t, exec (.pllSettingChange p w) s = .next t ∧ t.reg (CLK_PLL_CTRL p) = s.pllWord p w ∧ p ∈ t.clk.stopped ∧
      t.on (CLK_PLL_STAT_LOCK p) = false ∧ Keeps (fun a => a = CLK_PLL_CTRL p ∨ a = CLK_PLL_STAT p) [.clk] s t := by
  have hexec := execPllSettingChange_of_toggle s p w hp hen
  have hcheck {β : Type} (q : State → β) (hq : ∀ t : State, q (t.pllCheck p) = q t) (t : State) :
      q (t.when (isFpll p) (fun t => t.pllCheck p)) = q t := by
    unfold State.when
    split
    · exact hq t
    · rfl
  refine ⟨_, hexec, ?_, ?_, ?_, (execPllSettingChange_only p w s _ hexec).keeps fun a ha => ?_⟩
  · rw [hcheck (State.reg · (CLK_PLL_CTRL p)) (fun t => t.pllCheck_reg p (pllCtrl_ne_pllStat p p).symm),
      State.pllStop_reg _ _ (pllCtrl_ne_pllStat p p).symm, State.reg_setReg_self]
  · rw [hcheck State.clk (fun _ => rfl)]
    exact mem_ladd _ _
  · rw [hcheck (State.on · (CLK_PLL_STAT_LOCK p)) (fun t => t.pllCheck_lock p), State.pllStop_lock]
  · obtain ⟨hctrl, hstat⟩ := not_or.1 ha
    rw [hcheck (State.reg · a) (fun t => t.pllCheck_reg p (Ne.symm hstat)), State.pllStop_reg _ _ (Ne.symm hstat),
      State.reg_setReg_ne _ _ (Ne.symm hctrl)]

/-! ### Lock, timeout and loss of lock (R135, R138, R139) -/

/-- The outputs run, and LOCK shows it. -/
def State.pllRun : State := (s.setClk { s.clk with stopped := ldel s.clk.stopped p }).put (CLK_PLL_STAT_LOCK p) 1

theorem State.pllRun_lock : (s.pllRun p).on (CLK_PLL_STAT_LOCK p) = true := State.on_put_one _ rfl (by simp)

theorem State.pllRun_reg {a : Nat} (h : CLK_PLL_STAT p ≠ a) : (s.pllRun p).reg a = s.reg a := by
  rw [State.pllRun, State.reg_put_ne _ _ h, State.reg_congr (State.setClk_regs _ _)]

theorem State.pllRun_stopped : p ∉ (s.pllRun p).clk.stopped := not_mem_ldel _ _

/-- A lock that is not the first one under AUTO. -/
theorem execPllLock_of_later (hp : isPll p = true) (hen : s.on (CLK_PLL_CTRL_EN p) = true) (hvco : s.vcoBad p = false)
    (hlock : s.on (CLK_PLL_STAT_LOCK p) = false) (hlater : 2 ≤ p ∨ p ∈ s.clk.autoDone) : exec (.pllLock p) s = .next (s.pllRun p) := by
  show execPllLock p s = _
  unfold execPllLock
  dsimp only
  rw [if_pos (by simp [hp, hen, hvco, hlock]), if_neg]
  · rfl
  · rintro ⟨hlt, hmem⟩
    exact hlater.elim (fun h => absurd h (by omega)) hmem

/-- The first lock of the PLL of a hub domain is noted. -/
def State.pllFirst : State := (s.pllRun p).setClk { (s.pllRun p).clk with autoDone := ladd s.clk.autoDone p }

theorem State.pllFirst_reg {a : Nat} (h : CLK_PLL_STAT p ≠ a) : (s.pllFirst p).reg a = s.reg a := s.pllRun_reg p h

theorem isFpll_of_lt {p : Nat} (h : p < 8) : isFpll p = false := by
  simp [isFpll]
  omega

theorem execPllLock_of_first (hp : p < 2) (hen : s.on (CLK_PLL_CTRL_EN p) = true) (hlock : s.on (CLK_PLL_STAT_LOCK p) = false)
    (hfirst : p ∉ s.clk.autoDone) (hauto : s.on CLK_HUB_SEL_AUTO = true) : exec (.pllLock p) s = .next ((s.pllFirst p).switchTo p 1) := by
  have hpll : isPll p = true := by
    simp [isPll]
    omega
  have hvco : s.vcoBad p = false := by simp [State.vcoBad, isFpll_of_lt (show p < 8 by omega)]
  have hstat : CLK_PLL_STAT p ≠ CLK_HUB_SEL := by
    unfold CLK_PLL_STAT CLK_HUB_SEL
    omega
  have hauto' : (s.pllFirst p).on CLK_HUB_SEL_AUTO = true := (State.on_of_reg (s.pllFirst_reg p hstat)).trans hauto
  show execPllLock p s = _
  unfold State.pllFirst State.pllRun at hauto' ⊢
  unfold execPllLock
  dsimp only at hauto' ⊢
  rw [if_pos (by simp [hpll, hen, hvco, hlock]), if_pos ⟨hp, hfirst⟩]
  exact congrArg Host.Outcome.next (if_pos hauto')

/-- A lock that is not the first one under AUTO. -/
theorem pllLock_starts (hp : isPll p = true) (hen : s.on (CLK_PLL_CTRL_EN p) = true) (hvco : s.vcoBad p = false)
    (hlock : s.on (CLK_PLL_STAT_LOCK p) = false) (hlater : 2 ≤ p ∨ p ∈ s.clk.autoDone) :
    ∃ t, exec (.pllLock p) s = .next t ∧ p ∉ t.clk.stopped ∧ t.on (CLK_PLL_STAT_LOCK p) = true ∧
      Keeps (fun a => a = CLK_PLL_STAT p) [.clk] s t := by
  have honly : Only 17 s (s.pllRun p) := (put_only _ _ _).after (by decide) ((setClk_only _ _).mono (by decide))
  exact ⟨_, execPllLock_of_later s p hp hen hvco hlock hlater, s.pllRun_stopped p, s.pllRun_lock p,
    honly.keeps fun a ha => s.pllRun_reg p (Ne.symm ha)⟩

/-- The first lock under AUTO of the PLL of a hub domain that runs from OSC. -/
theorem pllLock_switches (hp : p < 2) (hen : s.on (CLK_PLL_CTRL_EN p) = true) (hlock : s.on (CLK_PLL_STAT_LOCK p) = false)
    (hfirst : p ∉ s.clk.autoDone) (hauto : s.on CLK_HUB_SEL_AUTO = true) (hosc : s.f (muxField p) = 0) (hidle : s.on (muxBusy p) = false) :
    ∃ t, exec (.pllLock p) s = .next t ∧ p ∉ t.clk.stopped ∧ t.on (CLK_PLL_STAT_LOCK p) = true ∧ p ∈ t.clk.autoDone ∧
      t.f (muxField p) = 1 ∧ t.on (muxBusy p) = true ∧ mget t.clk.muxNew none p = some 1 ∧
      Keeps (fun a => a = CLK_PLL_STAT p ∨ a = CLK_HUB_SEL) [.clk] s t := by
  have hmux : isMux p = true := by
    simp [isMux]
    omega
  have hfield : (muxField p).addr = CLK_HUB_SEL ∧ (muxField p).hi = (muxField p).lo := by
    obtain rfl | rfl : p = 0 ∨ p = 1 := by omega
    · exact ⟨rfl, rfl⟩
    · exact ⟨rfl, rfl⟩
  obtain ⟨haddr, hwidth⟩ := hfield
  have hstat : CLK_PLL_STAT p ≠ CLK_HUB_SEL := by
    unfold CLK_PLL_STAT CLK_HUB_SEL
    omega
  have hosc' : (s.pllFirst p).f (muxField p) = 0 := (State.f_of_reg (s.pllFirst_reg p (haddr ▸ hstat))).trans hosc
  have hidle' : (s.pllFirst p).on (muxBusy p) = false :=
    (State.on_of_reg (s.pllFirst_reg p (by rwa [muxBusy_addr, haddr]))).trans hidle
  have hasked : (s.pllFirst p).switchTo p 1 = (s.pllFirst p).switchAsked p 1 :=
    State.switchTo_of_new _ _ hmux (by rw [hosc']; decide) (.inr (by decide))
  have honly : Only 17 s (s.pllFirst p) :=
    (setClk_only _ _).after (by decide) ((put_only _ _ _).after (by decide) ((setClk_only _ _).mono (by decide)))
  have hclk : ((s.pllFirst p).switchAsked p 1).clk = { (s.pllFirst p).clk with muxNew := mset (s.pllFirst p).clk.muxNew none p (some 1) } := by
    rw [State.switchAsked_of_idle _ _ hidle']
    rfl
  refine ⟨_, (execPllLock_of_first s p hp hen hlock hfirst hauto).trans (congrArg Host.Outcome.next hasked), ?_, ?_, ?_, ?_,
    State.switchAsked_busy _ _, ?_, ((State.switchAsked_only _ _).after (by decide) honly).keeps fun a ha => ?_⟩
  · rw [hclk]
    exact s.pllRun_stopped p
  · rw [State.on_of_reg (State.switchAsked_reg _ _ (haddr ▸ hstat.symm))]
    exact s.pllRun_lock p
  · rw [hclk]
    exact mem_ladd s.clk.autoDone p
  · exact State.switchAsked_f _ _ (by rw [hwidth, Nat.add_sub_cancel_left]; decide)
  · rw [hclk]
    exact mget_mset_self (s.pllFirst p).clk.muxNew none (some 1) p
  · obtain ⟨hstat', hhub⟩ := not_or.1 ha
    rw [State.switchAsked_reg _ _ (haddr ▸ Ne.symm hhub), s.pllFirst_reg p (Ne.symm hstat')]

theorem pllLockTimeout_shows (hp : isPll p = true) (hen : s.on (CLK_PLL_CTRL_EN p) = true) (hlock : s.on (CLK_PLL_STAT_LOCK p) = false) :
    ∃ t, exec (.pllLockTimeout p) s = .next t ∧ t.on (CLK_PLL_STAT_TMO p) = true ∧ t.f (CLK_PLL_STAT_LOCK p) = s.f (CLK_PLL_STAT_LOCK p) ∧
      Keeps (fun a => a = CLK_PLL_STAT p) [] s t :=
  ⟨_, congrArg Host.Outcome.next (if_pos (by simp [hp, hen, hlock])), s.on_put_one rfl (by simp),
    s.f_put_disj _ rfl (by simp) (by simp) (by simp), (put_only s _ _).keeps fun _ ha => s.reg_put_ne _ (Ne.symm ha)⟩

/-- LOCK clears, UNLOCK and EV_PLL_UNLOCK (129) say so. -/
def State.pllLost : State := ((s.put (CLK_PLL_STAT_LOCK p) 0).put (CLK_PLL_STAT_UNLOCK p) 1).raise 129

theorem execPllUnlock_of_locked (hp : isPll p = true) (hlock : s.on (CLK_PLL_STAT_LOCK p) = true) :
    exec (.pllUnlock p) s =
      .next ((s.pllLost p).when (isFpll p) (fun t => t.setClk { t.clk with stopped := ladd t.clk.stopped p })) :=
  congrArg Host.Outcome.next (if_pos (by simp [hp, hlock]))

/-- The outputs of an FPLL stop. -/
theorem State.when_fpll_stopped : p ∈ (s.when (isFpll p) (fun t => t.setClk { t.clk with stopped := ladd t.clk.stopped p })).clk.stopped ↔
    isFpll p = true ∨ p ∈ s.clk.stopped := by
  cases h : isFpll p with
  | true => exact ⟨fun _ => .inl rfl, fun _ => mem_ladd _ _⟩
  | false => exact ⟨.inr, fun hp => hp.resolve_left (by decide)⟩

theorem State.when_fpll_reg (a : Nat) :
    (s.when (isFpll p) (fun t => t.setClk { t.clk with stopped := ladd t.clk.stopped p })).reg a = s.reg a := by
  cases isFpll p <;> rfl

theorem pllUnlock_shows (hp : isPll p = true) (hlock : s.on (CLK_PLL_STAT_LOCK p) = true) :
    ∃ t, exec (.pllUnlock p) s = .next t ∧ t.on (CLK_PLL_STAT_LOCK p) = false ∧ t.on (CLK_PLL_STAT_UNLOCK p) = true ∧
      (t.reg (HIF_IRQ_STAT 4)).toNat.testBit 1 = true ∧ (p ∈ t.clk.stopped ↔ isFpll p = true ∨ p ∈ s.clk.stopped) ∧
      Keeps (fun a => a = CLK_PLL_STAT p ∨ a = HIF_IRQ_STAT 4) [.clk, .host, .tail, .mesh] s t := by
  have hirq := pllStat_ne_irq (lt_of_isPll hp)
  have hclk : (s.pllLost p).clk = s.clk := (raise_only _ _).clk (by decide)
  have hexec := execPllUnlock_of_locked s p hp hlock
  refine ⟨_, hexec, ?_, ?_, ?_, ?_, (execPllUnlock_only p s _ hexec).keeps fun a ha => ?_⟩
  · rw [State.on_of_reg (State.when_fpll_reg _ _ _), State.pllLost, State.raise_on _ hirq,
      State.on_put_disj _ _ (by rfl) (by simp) (by simp) (by simp), State.on_put_zero _ rfl (by simp)]
  · rw [State.on_of_reg (State.when_fpll_reg _ _ _), State.pllLost, State.raise_on _ hirq, State.on_put_one _ rfl (by simp)]
  · rw [State.when_fpll_reg]
    exact State.raise_irq _ 129
  · rw [State.when_fpll_stopped, hclk]
  · obtain ⟨hstat, hirq'⟩ := not_or.1 ha
    rw [State.when_fpll_reg, State.pllLost, State.raise_reg _ hirq', State.reg_put_ne _ _ (Ne.symm hstat), State.reg_put_ne _ _ (Ne.symm hstat)]

end

/-- Settles O18: a lemma for each command; what a written CLK_PLL_CTRL holds is a merge under the mask of its PLL. -/
theorem plls : Obligations.Plls := by
  unfold Obligations.Plls
  refine fun s => ⟨fun p w hp hen => ?_, fun p hp hen hvco hlock hlater => pllLock_starts s p hp hen hvco hlock hlater,
    fun p hp hen hlock hfirst hauto hosc hidle => pllLock_switches s p hp hen hlock hfirst hauto hosc hidle,
    fun p hp hen hlock => pllLockTimeout_shows s p hp hen hlock, fun p hp hlock => pllUnlock_shows s p hp hlock⟩
  obtain ⟨t, hexec, hctrl, hstopped, hlock, hkeeps⟩ := pllSettingChange_stops s p w hp hen
  exact ⟨t, hexec, hctrl ▸ s.pllWord_enable p w, fun hf => hctrl ▸ s.pllWord_dividers_fpll p w hf,
    fun hf => hctrl ▸ s.pllWord_dividers_fixed p w hf, hstopped, hlock, hkeeps⟩

end Sys2Proof.Machine
end

section
/-! SUPPORT. Source switches and dividers (file 04, R137, R145, R153 to R157): requests, ends, forced ends, the settings of dividers. -/

namespace Sys2Proof.Machine

-- One proof after another, as in the tests: many at once take more threads than the memory of one text's check holds.
set_option Elab.async false

/-! ### Requests (R153, R157) -/

section
variable (s : State) {m src : Nat}

theorem execClockSwitchRequest_of_new (hmux : isMux m = true) (hsrc : src < 2 ^ ((muxField m).hi + 1 - (muxField m).lo))
    (hne : s.f (muxField m) ≠ src) (hoff : m ≠ 0 ∨ src ≠ 0) : exec (.clockSwitchRequest m src) s = .next (s.switchAsked m src) := by
  show execClockSwitchRequest m src s = _
  rw [execClockSwitchRequest, Nat.mod_eq_of_lt hsrc, s.switchTo_of_new src hmux hne hoff]

theorem State.switchAsked_keeps : Keeps (fun a => a = (muxField m).addr) [.clk] s (s.switchAsked m src) :=
  (s.switchAsked_only src).keeps fun _ ha => s.switchAsked_reg src (Ne.symm ha)

/-- On an idle multiplexer a request starts a switch. -/
theorem State.switchAsked_idle_clk (h : s.on (muxBusy m) = false) :
    (s.switchAsked m src).clk = { s.clk with muxNew := mset s.clk.muxNew none m (some src) } := by
  rw [s.switchAsked_of_idle src h]
  rfl

/-- On a busy one it is held. -/
theorem State.switchAsked_busy_clk (h : s.on (muxBusy m) = true) :
    (s.switchAsked m src).clk = { s.clk with muxHeld := mset s.clk.muxHeld none m (some src) } := by
  rw [s.switchAsked_of_busy src h]
  rfl

end

/-! ### Registers by blocks: what a port and lattice control write -/

/-- From `s` to `t` only registers of the blocks `bs` of R22 change (7 LATTICE, 8 GLEIS, 12 HOSTIF). -/
def State.WritesIn (bs : List Nat) (s t : State) : Prop := ∀ a, ¬ InBlocks bs a → t.reg a = s.reg a

section
variable {bs cs : List Nat}

theorem State.WritesIn.refl (s : State) : State.WritesIn bs s s := fun _ _ => rfl

theorem State.WritesIn.trans {s t u : State} (h : State.WritesIn bs s t) (g : State.WritesIn bs t u) : State.WritesIn bs s u :=
  fun a ha => (g a ha).trans (h a ha)

theorem State.WritesIn.after {s t u : State} (g : State.WritesIn bs t u) (h : State.WritesIn bs s t) : State.WritesIn bs s u := h.trans g

theorem State.WritesIn.mono {s t : State} (h : State.WritesIn bs s t) (hsub : bs ⊆ cs) : State.WritesIn cs s t :=
  fun a ha => h a (fun hb => ha (hsub hb))

theorem State.WritesIn.each {α : Type} {g : α → State → State} (l : List α) (hg : ∀ x ∈ l, ∀ t, State.WritesIn bs t (g x t)) (s : State) :
    State.WritesIn bs s (s.each l g) := fun a ha => State.each_keeps (State.reg · a) l (fun x hx t => hg x hx t a ha) s

theorem State.WritesIn.when {g : State → State} (hg : ∀ t, State.WritesIn bs t (g t)) (b : Bool) (s : State) :
    State.WritesIn bs s (s.when b g) := by
  unfold State.when
  split
  · exact hg s
  · exact .refl s

/-- An operation that writes no register. -/
theorem Only.writesIn {m : Nat} {s t : State} (h : Only m s t) (hregs : m.testBit 0 = false := by decide) : State.WritesIn bs s t :=
  fun a _ => State.reg_congr (h.regs hregs) a

theorem State.setReg_writesIn (s : State) {a : Nat} (v : Word) (h : InBlocks bs a) : State.WritesIn bs s (s.setReg a v) :=
  fun _ hb => State.reg_setReg_ne _ _ (fun e => hb (e ▸ h))

theorem State.put_writesIn (s : State) {x : Fld} (v : Nat) (h : InBlocks bs x.addr) : State.WritesIn bs s (s.put x v) := s.setReg_writesIn _ h

/-- An event writes in HOSTIF. -/
theorem State.raise_writesIn (s : State) {i : Nat} (hi : i < 512) (h : 12 ∈ bs) : State.WritesIn bs s (s.raise i) := by
  have hirq : InBlocks bs (HIF_IRQ_STAT (i / 32)) := by
    rwa [InBlocks, show HIF_IRQ_STAT (i / 32) / 0x100000 = 12 by unfold HIF_IRQ_STAT; omega]
  exact fun _ ha => State.raise_reg _ (fun e => ha (e ▸ hirq))

end

section
variable (s : State)

/-! #### Tokens and HELD (R257, R260, R274, R283) -/

theorem State.latErr_writesIn (cause port node : Nat) (here : Bool) : State.WritesIn [7, 12] s (s.latErr cause port node here) := by
  have hlog (u : State) (v : Nat) (x : Fld) (hx : x.addr = LAT_ERR_LOG) : State.WritesIn [7, 12] u (u.put x v) := u.put_writesIn v (hx ▸ by decide)
  refine (State.raise_writesIn _ (i := 159) (by decide) (by decide)).after ?_
  unfold State.log
  split
  · exact hlog _ _ _ rfl
  · exact (hlog _ _ _ rfl).after ((hlog _ _ _ rfl).after ((hlog _ _ _ rfl).after ((hlog _ _ _ rfl).after (hlog _ _ _ rfl))))

theorem State.routeInvalid_writesIn (dest : Nat) (port : Option Nat) : State.WritesIn [7, 12] s (s.routeInvalid dest port) := by
  unfold State.routeInvalid
  split
  · exact .refl s
  · exact (State.latErr_writesIn _ _ _ _ _).after (setLat_only _ _).writesIn

theorem State.latTry_writesIn (k : Nat) (x : Nat × Urgent) : State.WritesIn [7, 12] s (s.latTry k x).1 := by
  unfold State.latTry
  split
  · exact s.routeInvalid_writesIn _ _
  split
  · exact .refl s
  next t h => exact (enqUrgent_only s _ _ _ t h).writesIn

theorem latPumpList_writesIn (k : Nat) (l kept : List (Nat × Urgent)) (s : State) : State.WritesIn [7, 12] s (latPumpList k l kept s) := by
  induction l generalizing k kept s with
  | nil => exact (setLat_only _ _).writesIn
  | cons x l ih =>
    unfold latPumpList
    split
    · exact ih _ _ _
    · dsimp only
      split
      · exact (s.latTry_writesIn k x).trans (ih _ _ _)
      · exact (s.latTry_writesIn k x).trans (ih _ _ _)

theorem State.sendTokens_writesIn (type round : Nat) : State.WritesIn [7, 12] s (s.sendTokens type round) := by
  unfold State.sendTokens
  split
  · exact State.WritesIn.each _ (fun _ _ t => (latPumpList_writesIn _ _ _ _).after (setLat_only t _).writesIn) s
  · exact .refl s

theorem State.setLatState_writesIn (c : Nat) : State.WritesIn [7, 12] s (s.setLatState c) := by
  have hput : State.WritesIn [7, 12] s (s.put LAT_STAT_STATE c) := s.put_writesIn _ (by decide)
  unfold State.setLatState
  dsimp only
  split
  · exact (setLat_only _ _).writesIn.after hput
  · exact hput

theorem State.showDown_writesIn : State.WritesIn [7, 12] s s.showDown :=
  fun _ ha => s.showDown_reg (by simp only [InBlocks, List.mem_cons, List.not_mem_nil, or_false] at ha; omega)

theorem State.latSettle_writesIn : State.WritesIn [7, 12] s s.latSettle := by
  have hshown : State.WritesIn [7, 12] s (s.showDown.setLat { s.lat with down := (s.peers.filter s.peerGone).map (·.1) }) :=
    (setLat_only _ _).writesIn.after s.showDown_writesIn
  show State.WritesIn [7, 12] s (if _ then _ else if _ then _ else if _ then _ else _)
  split
  · exact (State.raise_writesIn _ (by decide) (by decide)).after ((State.sendTokens_writesIn _ _ _).after
      ((State.setLatState_writesIn _ _).after hshown))
  split
  · exact (State.sendTokens_writesIn _ _ _).after ((State.setLatState_writesIn _ _).after hshown)
  split
  · exact (State.sendTokens_writesIn _ _ _).after hshown
  · exact hshown

/-! #### A port that follows its clock (R284, R311, R317) -/

variable {n : Nat} (hn : n < 16)
include hn

theorem glsStat_writesIn : InBlocks [8, 12] (GLS_STAT n) := by
  simp only [InBlocks, GLS_STAT, List.mem_cons, List.not_mem_nil, or_false]
  omega

theorem State.portState_writesIn (st : Nat) : State.WritesIn [8, 12] s (s.portState n st) :=
  (State.put_writesIn _ _ (glsStat_writesIn hn)).after (State.put_writesIn _ _ (glsStat_writesIn hn))

theorem State.lanesOff_writesIn : State.WritesIn [8, 12] s (s.lanesOff n) := by
  have hlane (l : Nat) (hl : l ∈ List.range 9) : InBlocks [8, 12] (GLS_LANE_STAT n l) := by
    have := List.mem_range.1 hl
    simp only [InBlocks, GLS_LANE_STAT, List.mem_cons, List.not_mem_nil, or_false]
    omega
  exact (State.put_writesIn _ _ (glsStat_writesIn hn)).after ((State.put_writesIn _ _ (glsStat_writesIn hn)).after
    (State.WritesIn.each _ (fun l hl t => (State.put_writesIn _ _ (hlane l hl)).after (State.put_writesIn _ _ (hlane l hl))) s))

theorem State.glsEvt_writesIn (bit : Nat) {irq : Nat} (hirq : irq < 512) : State.WritesIn [8, 12] s (s.glsEvt n bit irq) := by
  have hevt : InBlocks [8, 12] (GLS_EVT n) := by
    simp only [InBlocks, GLS_EVT, List.mem_cons, List.not_mem_nil, or_false]
    omega
  exact (State.raise_writesIn _ hirq (by decide)).after (s.setReg_writesIn _ hevt)

theorem State.portDown_writesIn (cause : Nat) : State.WritesIn [8, 12] s (s.portDown n cause) := by
  have hcause : State.WritesIn [8, 12] s (s.when (decide (cause ≠ 0)) (fun t => t.put (GLS_STAT_FAIL_CAUSE n) cause)) :=
    State.WritesIn.when (fun t => t.put_writesIn _ (glsStat_writesIn hn)) _ s
  have hquiet (u : State) : State.WritesIn [8, 12] u ((u.setPort n (u.portOf n).quiet).lanesOff n) :=
    (State.lanesOff_writesIn _ hn).after (setPort_only u _ _).writesIn
  unfold State.portDown
  dsimp only
  split
  · exact (State.glsEvt_writesIn _ hn _ (by decide)).after ((State.portState_writesIn _ hn _).after ((hquiet _).after hcause))
  · exact (State.portState_writesIn _ hn _).after ((hquiet _).after hcause)

theorem State.portSync_writesIn : State.WritesIn [7, 8, 12] s (s.portSync n) := by
  unfold State.portSync
  dsimp only
  split
  · split
    · exact (s.portState_writesIn hn _).mono (by decide)
    · exact .refl s
  split
  · exact .refl s
  · exact ((State.latSettle_writesIn _).mono (by decide)).after ((s.portDown_writesIn hn _).mono (by decide))

end

/-! ### FIG leaves its PLL (R284) -/

section
variable (s : State)

theorem State.setLatState_regs (c : Nat) : (s.setLatState c).regs = (s.put LAT_STAT_STATE c).regs := by
  unfold State.setLatState
  dsimp only
  split <;> rfl

/-- OFFLINE shows, and the marks of the round are cleared. -/
def State.offlineMarked : State :=
  ((s.setLatState 0).put LAT_STAT_FIG_LOST 1).setLat
    { s.lat with offPor := false, ready := false, fenced := false, bowFence := [], count := 0, beat := none, startDue := false }

theorem State.offlineMarked_writesIn : State.WritesIn [7, 12] s s.offlineMarked :=
  (setLat_only _ _).writesIn.after ((State.put_writesIn _ _ (by decide)).after (s.setLatState_writesIn 0))

/-- Then the ports go down, with EV_FIG_LOST (156). -/
def State.offlinePorts : State :=
  (s.offlineMarked.each (List.range 16) (fun n t => if t.f (GLS_STAT_STATE n) = 0 then t else t.portDown n 0)).raise 156

theorem State.offlinePorts_writesIn : State.WritesIn [8, 12] s.offlineMarked s.offlinePorts :=
  (State.raise_writesIn _ (by decide) (by decide)).after (State.WritesIn.each _ (fun n hn t => by
    split
    · exact .refl t
    · exact t.portDown_writesIn (List.mem_range.1 hn) 0) _)

theorem State.offlinePorts_latStat : s.offlinePorts.reg LAT_STAT = s.offlineMarked.reg LAT_STAT := s.offlinePorts_writesIn _ (by decide)

theorem State.offlinePorts_latState : s.offlinePorts.latState = 0 := by
  have hzero : s.offlineMarked.f LAT_STAT_STATE = 0 := by
    rw [State.offlineMarked, State.f_congr (State.setLat_regs _ _), State.f_put_disj _ _ (by rfl) (by decide) (by decide) (by decide),
      State.f_congr (s.setLatState_regs 0)]
    exact State.f_put _ _ _ (by decide) (by decide)
  exact (State.f_of_reg s.offlinePorts_latStat).trans hzero

theorem State.nodeOffline_eq : s.nodeOffline = s.offlinePorts.showDown.setLat
    { s.offlinePorts.lat with down := (s.offlinePorts.peers.filter s.offlinePorts.peerGone).map (·.1) } := by
  have hstopped : s.offlinePorts.stopped = true := by
    rw [State.stopped, s.offlinePorts_latState]
    rfl
  exact s.offlinePorts.latSettle_of_stopped hstopped

theorem State.nodeOffline_reg {a : Nat} (h : a < 0x701000 ∨ 0x702000 ≤ a) : s.nodeOffline.reg a = s.offlinePorts.reg a := by
  rw [s.nodeOffline_eq]
  exact State.showDown_reg _ h

theorem State.nodeOffline_latState : s.nodeOffline.latState = 0 :=
  (State.f_of_reg (s.nodeOffline_reg (by decide))).trans s.offlinePorts_latState

theorem State.nodeOffline_figLost : s.nodeOffline.on LAT_STAT_FIG_LOST = true := by
  rw [State.on_of_reg (s.nodeOffline_reg (by decide)), State.on_of_reg s.offlinePorts_latStat, State.offlineMarked,
    State.on_congr (State.setLat_regs _ _)]
  exact State.on_put_one _ rfl (by decide)

theorem State.nodeOffline_irq : (s.nodeOffline.reg (HIF_IRQ_STAT 4)).toNat.testBit 28 = true := by
  rw [s.nodeOffline_reg (by decide)]
  exact State.raise_irq _ 156

theorem State.nodeOffline_writesIn : State.WritesIn [7, 8, 12] s s.nodeOffline :=
  ((State.latSettle_writesIn _).mono (by decide)).after ((s.offlinePorts_writesIn.mono (by decide)).after
    (s.offlineMarked_writesIn.mono (by decide)))

/-- A request of OSC for FIG. -/
theorem clockSwitchRequest_fig_osc (h : s.f CLK_HUB_SEL_FIG_SRC = 1) :
    ∃ t, exec (.clockSwitchRequest 0 0) s = .next t ∧ t.f CLK_HUB_SEL_FIG_SRC = 0 ∧ t.latState = 0 ∧ t.on LAT_STAT_FIG_LOST = true ∧
      (t.reg (HIF_IRQ_STAT 4)).toNat.testBit 28 = true := by
  have hswitch : s.switchTo 0 0 = (s.switchAsked 0 0).nodeOffline :=
    (s.switchTo_eq 0 (by decide) (by rw [show muxField 0 = CLK_HUB_SEL_FIG_SRC from rfl, h]; decide)).trans (if_pos ⟨rfl, rfl⟩)
  refine ⟨_, congrArg Host.Outcome.next hswitch, ?_, State.nodeOffline_latState _, State.nodeOffline_figLost _, State.nodeOffline_irq _⟩
  rw [State.f_of_reg ((s.switchAsked 0 0).nodeOffline_writesIn CLK_HUB_SEL (by decide))]
  exact s.switchAsked_f 0 (by decide)

end

/-! ### The end of a switch (R153, R157) -/

section
variable (s : State) (m src : Nat)

/-- The new source drives the multiplexer; nothing is in progress or held. -/
def State.switchedTo : State :=
  s.setClk { s.clk with muxCur := mset s.clk.muxCur (muxReset m) m src, muxNew := mset s.clk.muxNew none m none,
                        muxHeld := mset s.clk.muxHeld none m none }

/-- A held request of another source starts the next switch, and else BUSY ends. -/
def State.switchNext (held : Option Nat) : State :=
  match held with
  | some h => if h = src then s.put (muxBusy m) 0 else s.setClk { s.clk with muxNew := mset s.clk.muxNew none m (some h) }
  | none => s.put (muxBusy m) 0

theorem State.switchEnd_eq (hnew : mget s.clk.muxNew none m = some src) :
    s.switchEnd m = ((s.switchedTo m src).switchNext m src (mget s.clk.muxHeld none m)).when (decide (m = 0))
      (fun t => t.each (List.range 16) (fun n u => u.portSync n)) := by
  unfold State.switchEnd
  rw [hnew]
  dsimp only
  cases mget s.clk.muxHeld none m <;> rfl

theorem State.switchEnd_of_fabric (hnew : mget s.clk.muxNew none m = some src) (hm : m ≠ 0) :
    s.switchEnd m = (s.switchedTo m src).switchNext m src (mget s.clk.muxHeld none m) := by
  rw [s.switchEnd_eq m src hnew, decide_eq_false hm]
  rfl

theorem State.switchNext_only (held : Option Nat) : Only 17 s (s.switchNext m src held) := by
  unfold State.switchNext
  split
  · split
    · exact (put_only _ _ _).mono (by decide)
    · exact (setClk_only _ _).mono (by decide)
  · exact (put_only _ _ _).mono (by decide)

theorem State.switchNext_reg (held : Option Nat) {a : Nat} (h : (muxField m).addr ≠ a) : (s.switchNext m src held).reg a = s.reg a := by
  have hput : (s.put (muxBusy m) 0).reg a = s.reg a := State.reg_put_ne _ _ (by rwa [muxBusy_addr])
  unfold State.switchNext
  split
  · split
    · exact hput
    · rfl
  · exact hput

/-- Of the clocks only what is in progress may change then. -/
theorem State.switchNext_clk (held : Option Nat) : (s.switchNext m src held).clk = { s.clk with muxNew := (s.switchNext m src held).clk.muxNew } := by
  unfold State.switchNext
  split
  · split <;> rfl
  · rfl

theorem State.switchedTo_only : Only 16 s (s.switchedTo m src) := setClk_only _ _

/-! #### The boot ROM does not wait for it (R182, log entry 46) -/

theorem State.bootClock_of_not (h : s.bootAt 1 = false) : s.bootClock = s := by
  rw [State.bootClock, h]
  rfl

theorem State.bootAt_congr {s t : State} (hcfg : t.cfg = s.cfg) (hreg : t.reg (ST_CTRL 16) = s.reg (ST_CTRL 16)) (k : Nat) :
    t.bootAt k = s.bootAt k := by
  rw [State.bootAt, hcfg, State.on_of_reg hreg, State.bootAt]

/-- CLOCK_SWITCH_DONE of a multiplexer other than that of FIG. -/
theorem execClockSwitchDone_of_fabric (hmux : isMux m = true) (hm : m ≠ 0) (hboot : s.bootAt 1 = false)
    (hnew : mget s.clk.muxNew none m = some src) :
    exec (.clockSwitchDone m) s = .next ((s.switchedTo m src).switchNext m src (mget s.clk.muxHeld none m)) := by
  have hst : (muxField m).addr ≠ ST_CTRL 16 := by
    have := muxField_addr hmux
    unfold ST_CTRL
    omega
  have hnot : ((s.switchedTo m src).switchNext m src (mget s.clk.muxHeld none m)).bootAt 1 = false := by
    have honly : Only 17 s ((s.switchedTo m src).switchNext m src (mget s.clk.muxHeld none m)) :=
      (State.switchNext_only _ m src _).after (by decide) ((s.switchedTo_only m src).mono (by decide))
    rw [State.bootAt_congr (honly.cfg (by decide)) (State.switchNext_reg _ m src _ hst), hboot]
  show execClockSwitchDone m s = _
  rw [execClockSwitchDone, s.switchEnd_of_fabric m src hnew hm, State.bootClock_of_not _ hnot]

theorem State.muxCur_mset_ne {k : Nat} (h : k ≠ m) :
    mget (mset s.clk.muxCur (muxReset m) m src) (muxReset k) k = mget s.clk.muxCur (muxReset k) k := mget_mset_ne _ _ _ _ _ _ h.symm

/-- The end of a switch with nothing held ends BUSY. -/
theorem clockSwitchDone_last (hmux : isMux m = true) (hm : m ≠ 0) (hboot : s.bootAt 1 = false) (hnew : mget s.clk.muxNew none m = some src)
    (hheld : mget s.clk.muxHeld none m = none) :
    ∃ t, exec (.clockSwitchDone m) s = .next t ∧ mget t.clk.muxCur (muxReset m) m = src ∧ mget t.clk.muxNew none m = none ∧
      t.on (muxBusy m) = false ∧ (∀ k : Nat, k ≠ m → mget t.clk.muxCur (muxReset k) k = mget s.clk.muxCur (muxReset k) k) ∧
      Keeps (fun a => a = (muxField m).addr) [.clk] s t := by
  obtain ⟨-, -, hone, h32, -⟩ := muxField_layout m
  have hexec := execClockSwitchDone_of_fabric s m src hmux hm hboot hnew
  rw [hheld] at hexec
  have honly : Only 17 s ((s.switchedTo m src).switchNext m src none) :=
    (State.switchNext_only _ m src _).after (by decide) ((s.switchedTo_only m src).mono (by decide))
  exact ⟨_, hexec, mget_mset_self s.clk.muxCur (muxReset m) src m, mget_mset_self s.clk.muxNew none none m, State.on_put_zero _ hone h32,
    fun k hk => s.muxCur_mset_ne m src hk, honly.keeps fun a ha => State.switchNext_reg _ m src _ (Ne.symm ha)⟩

/-- With another source held the next switch starts, and BUSY stays. -/
theorem clockSwitchDone_held {h : Nat} (hmux : isMux m = true) (hm : m ≠ 0) (hboot : s.bootAt 1 = false)
    (hnew : mget s.clk.muxNew none m = some src) (hheld : mget s.clk.muxHeld none m = some h) (hne : h ≠ src) :
    ∃ t, exec (.clockSwitchDone m) s = .next t ∧ mget t.clk.muxCur (muxReset m) m = src ∧ mget t.clk.muxNew none m = some h ∧
      mget t.clk.muxHeld none m = none ∧ t.f (muxBusy m) = s.f (muxBusy m) ∧ Keeps (fun _ => False) [.clk] s t := by
  have hexec := execClockSwitchDone_of_fabric s m src hmux hm hboot hnew
  rw [hheld] at hexec
  have hnext : (s.switchedTo m src).switchNext m src (some h) =
      (s.switchedTo m src).setClk { (s.switchedTo m src).clk with muxNew := mset (s.switchedTo m src).clk.muxNew none m (some h) } := if_neg hne
  rw [hnext] at hexec
  have honly : Only 16 s ((s.switchedTo m src).setClk
      { (s.switchedTo m src).clk with muxNew := mset (s.switchedTo m src).clk.muxNew none m (some h) }) :=
    (setClk_only _ _).after (by decide) (s.switchedTo_only m src)
  exact ⟨_, hexec, mget_mset_self s.clk.muxCur (muxReset m) src m, mget_mset_self (mset s.clk.muxNew none m none) none (some h) m,
    mget_mset_self s.clk.muxHeld none none m, rfl, honly.keepsRegs⟩

/-- FIG's ports follow the clock that it has now. -/
def State.portsFollow : State := s.each (List.range 16) (fun n u => u.portSync n)

theorem State.portsFollow_only : Only 132993 s s.portsFollow := Only.each _ _ (fun n t => portSync_only t n) .refl

theorem State.portsFollow_writesIn : State.WritesIn [7, 8, 12] s s.portsFollow :=
  State.WritesIn.each _ (fun _ hn t => t.portSync_writesIn (List.mem_range.1 hn)) s

/-- The end of a switch of FIG. -/
theorem clockSwitchDone_fig (hboot : s.bootAt 1 = false) (hnew : mget s.clk.muxNew none 0 = some src)
    (hheld : mget s.clk.muxHeld none 0 = none) :
    ∃ t, exec (.clockSwitchDone 0) s = .next t ∧ t.muxSrc 0 = src ∧ mget t.clk.muxNew none 0 = none ∧ t.on CLK_HUB_SEL_FIG_BUSY = false ∧
      t.f CLK_HUB_SEL_MESH_SRC = s.f CLK_HUB_SEL_MESH_SRC ∧ t.fab = s.fab ∧ t.cfg = s.cfg ∧ t.hbm = s.hbm ∧ t.core = s.core := by
  have hend : s.switchEnd 0 = ((s.switchedTo 0 src).put CLK_HUB_SEL_FIG_BUSY 0).portsFollow := by
    rw [s.switchEnd_eq 0 src hnew, hheld]
    rfl
  have hports := ((s.switchedTo 0 src).put CLK_HUB_SEL_FIG_BUSY 0).portsFollow_only
  have hregs := ((s.switchedTo 0 src).put CLK_HUB_SEL_FIG_BUSY 0).portsFollow_writesIn
  have hclk : (s.switchEnd 0).clk = (s.switchedTo 0 src).clk := hend ▸ hports.clk (by decide)
  have honly := switchEnd_only s 0
  have hst : (s.switchEnd 0).reg (ST_CTRL 16) = s.reg (ST_CTRL 16) := by
    rw [hend, hregs _ (by decide), State.reg_put_ne _ _ (by decide)]
    rfl
  have hhub : (s.switchEnd 0).reg CLK_HUB_SEL = ((s.switchedTo 0 src).put CLK_HUB_SEL_FIG_BUSY 0).reg CLK_HUB_SEL := by
    rw [hend, hregs _ (by decide)]
  have hnot : (s.switchEnd 0).bootAt 1 = false := (State.bootAt_congr (honly.cfg (by decide)) hst 1).trans hboot
  refine ⟨_, congrArg Host.Outcome.next (State.bootClock_of_not _ hnot), ?_, ?_, ?_, ?_, honly.fab (by decide), honly.cfg (by decide),
    honly.hbm (by decide), honly.core (by decide)⟩
  · rw [State.muxSrc, hclk]
    exact mget_mset_self s.clk.muxCur (muxReset 0) src 0
  · rw [hclk]
    exact mget_mset_self s.clk.muxNew none none 0
  · rw [State.on_of_reg hhub]
    exact State.on_put_zero _ rfl (by decide)
  · rw [State.f_of_reg hhub]
    exact State.f_put_disj _ _ rfl (by decide) (by decide) (by decide)

end

/-! ### A forced end (R154 to R156) -/

/-- From `s` to `t` only the counts and output levels of dividers change, and the output of multiplexer `m` does not become high. -/
structure State.Divides (m : Nat) (s t : State) : Prop where
  only : Only 16 s t
  clk : t.clk = { s.clk with phase := t.clk.phase, high := t.clk.high }
  low : m ∉ s.clk.high → m ∉ t.clk.high

section
variable (s : State) {m : Nat}

theorem State.Divides.refl : State.Divides m s s := ⟨.refl, rfl, id⟩

theorem State.Divides.trans {s t u : State} (h : State.Divides m s t) (g : State.Divides m t u) : State.Divides m s u :=
  ⟨h.only.trans g.only, by rw [g.clk, h.clk], fun hm => g.low (h.low hm)⟩

/-- An edge at the divider of another clock. -/
theorem State.divide_divides {k : Nat} (hk : k ≠ m) (fall : Bool) : State.Divides m s (s.divide k fall).1 := by
  refine ⟨divide_only s k fall, rfl, fun hm => ?_⟩
  unfold State.divide
  dsimp only [State.setClk_clk]
  split
  · exact fun h => hm (List.mem_of_mem_filter h)
  · exact fun h => ((mem_ladd_iff _ _ _).1 h).elim (fun e => hk e.symm) hm
  · exact hm

theorem divideAll_divides (hm : m < 64) (l : List (Nat × Nat)) (fall : Bool) (s : State) : State.Divides m s (divideAll l fall s).1 := by
  induction l generalizing s with
  | nil => exact .refl s
  | cons x l ih =>
    have hk : rclkMux x.1 x.2 ≠ m := by
      unfold rclkMux
      omega
    exact (s.divide_divides hk fall).trans (ih _)

/-- Only global clocks feed other dividers. -/
theorem State.fanOut_divides (fall : Bool) : State.Divides m s (s.fanOut m fall).1 := by
  unfold State.fanOut
  split
  next h => exact divideAll_divides h _ _ s
  next => exact .refl s

/-- The output of the clock is low then. -/
theorem State.driveLow_clk : ((s.driveLow m).1.clk = { s.clk with phase := (s.driveLow m).1.clk.phase, high := (s.driveLow m).1.clk.high }) ∧
    m ∉ (s.driveLow m).1.clk.high := by
  unfold State.driveLow
  split
  · have h := (s.setClk { s.clk with high := ldel s.clk.high m }).fanOut_divides (m := m) true
    exact ⟨by rw [h.clk]; rfl, h.low (not_mem_ldel _ _)⟩
  next h => exact ⟨rfl, h⟩

variable (m)

/-- The forced end is logged, with EV_CLK_SW (130). -/
def State.switchLogged : State := (s.log CLK_SW_STAT_CLK_SW_DEAD CLK_SW_STAT_OVF (fun t => t.put CLK_SW_STAT_MUX m)).raise 130

theorem State.switchLogged_only : Only 132609 s (s.switchLogged m) :=
  (raise_only _ _).after (by decide) (Only.log _ _ _ (fun _ => (put_only _ _ _).mono (by decide)) .refl)

theorem State.switchLogged_reg {a : Nat} (hstat : CLK_SW_STAT ≠ a) (hirq : a ≠ HIF_IRQ_STAT 4) : (s.switchLogged m).reg a = s.reg a := by
  rw [State.switchLogged, State.raise_reg _ hirq, State.log_reg _ hstat hstat (fun _ => State.reg_put_ne _ _ hstat)]

/-- The first forced end leaves its multiplexer in the log; a later one leaves the log. -/
theorem State.switchLogged_stat (hm : m < 512) : (s.switchLogged m).on CLK_SW_STAT_CLK_SW_DEAD = true ∧
    (s.switchLogged m).f CLK_SW_STAT_MUX = if s.on CLK_SW_STAT_CLK_SW_DEAD then s.f CLK_SW_STAT_MUX else m := by
  rw [State.switchLogged, State.raise_on _ (by decide), State.raise_f _ (by decide)]
  cases h : s.on CLK_SW_STAT_CLK_SW_DEAD with
  | true =>
    have hlog : s.log CLK_SW_STAT_CLK_SW_DEAD CLK_SW_STAT_OVF (fun t => t.put CLK_SW_STAT_MUX m) = s.put CLK_SW_STAT_OVF 1 := if_pos h
    rw [hlog, State.on_put_disj _ _ (by rfl) (by decide) (by decide) (by decide), h, State.f_put_disj _ _ (by rfl) (by decide) (by decide) (by decide)]
    exact ⟨rfl, rfl⟩
  | false =>
    rw [s.log_of_clear _ h, State.on_put_disj _ _ (by rfl) (by decide) (by decide) (by decide), State.on_put_one _ rfl (by decide)]
    exact ⟨rfl, (State.f_put _ _ _ (by decide) (by decide)).trans (Nat.mod_eq_of_lt hm)⟩

/-- The clock is driven low, an edge for the fabric where its clocks run free. -/
def State.switchForcedLow : State :=
  if s.freeClocks then ((s.switchLogged m).driveLow m).1.spineEdges ((s.switchLogged m).driveLow m).2
  else ((s.switchLogged m).driveLow m).1

theorem State.switchForcedLow_only : Only 24 (s.switchLogged m) (s.switchForcedLow m) := by
  unfold State.switchForcedLow
  split
  · exact (spineEdges_only _ _).after (by decide) ((driveLow_only _ m).mono (by decide))
  · exact (driveLow_only _ m).mono (by decide)

theorem State.switchForcedLow_clk : (s.switchForcedLow m).clk = ((s.switchLogged m).driveLow m).1.clk := by
  unfold State.switchForcedLow
  split
  · exact (spineEdges_only _ _).clk (by decide)
  · rfl

theorem execClockSwitchForced_of_dead (h : s.switchDead m = true) :
    exec (.clockSwitchForced m) s = .next ((s.switchForcedLow m).switchEnd m).bootClock := by
  show execClockSwitchForced m s = _
  rw [execClockSwitchForced, if_pos h]
  rfl

/-- The forced end of a switch from a clock other than OSC. -/
theorem clockSwitchForced_ends {src : Nat} (hmux : isMux m = true) (hm : m ≠ 0) (hboot : s.bootAt 1 = false)
    (hosc : oscSource m (s.muxSrc m) = false) (hnew : mget s.clk.muxNew none m = some src) :
    ∃ t, exec (.clockSwitchForced m) s = .next t ∧ mget t.clk.muxCur (muxReset m) m = src ∧ m ∉ t.clk.high ∧
      t.on CLK_SW_STAT_CLK_SW_DEAD = true ∧ t.f CLK_SW_STAT_MUX = (if s.on CLK_SW_STAT_CLK_SW_DEAD then s.f CLK_SW_STAT_MUX else m) ∧
      (t.reg (HIF_IRQ_STAT 4)).toNat.testBit 2 = true ∧
      Keeps (fun a => a = (muxField m).addr ∨ a = CLK_SW_STAT ∨ a = HIF_IRQ_STAT 4) [.clk, .fab, .host, .tail, .mesh] s t := by
  obtain ⟨hlo, hhi⟩ := muxField_addr hmux
  have hm512 : m < 512 := by
    simp only [isMux, Bool.or_eq_true, Bool.and_eq_true, decide_eq_true_eq] at hmux
    omega
  have hdead : s.switchDead m = true := by simp [State.switchDead, hnew, hosc]
  have hlow := s.switchForcedLow_only m
  obtain ⟨hdiv, hnotHigh⟩ := (s.switchLogged m).driveLow_clk (m := m)
  rw [← s.switchForcedLow_clk m, (s.switchLogged_only m).clk (by decide)] at hdiv
  rw [← s.switchForcedLow_clk m] at hnotHigh
  have hnew' : mget (s.switchForcedLow m).clk.muxNew none m = some src := by rw [hdiv, hnew]
  have hend := (s.switchForcedLow m).switchEnd_of_fabric m src hnew' hm
  have honly : Only 132633 s ((s.switchForcedLow m).switchEnd m) := by
    rw [hend]
    exact (State.switchNext_only _ m src _).after (by decide) ((State.switchedTo_only _ m src).after (by decide)
      (hlow.after (by decide) ((s.switchLogged_only m).mono (by decide))))
  have hreg (a : Nat) (ha : (muxField m).addr ≠ a) : ((s.switchForcedLow m).switchEnd m).reg a = (s.switchLogged m).reg a := by
    rw [hend, State.switchNext_reg _ m src _ ha]
    exact State.reg_congr (hlow.regs (by decide)) a
  have hst : ((s.switchForcedLow m).switchEnd m).reg (ST_CTRL 16) = s.reg (ST_CTRL 16) := by
    rw [hreg _ (by unfold ST_CTRL; omega), s.switchLogged_reg m (by decide) (by decide)]
  have hnot : ((s.switchForcedLow m).switchEnd m).bootAt 1 = false := (State.bootAt_congr (honly.cfg (by decide)) hst 1).trans hboot
  have hstat : ((s.switchForcedLow m).switchEnd m).reg CLK_SW_STAT = (s.switchLogged m).reg CLK_SW_STAT :=
    hreg _ (by unfold CLK_SW_STAT; omega)
  obtain ⟨hdeadOn, hmuxLogged⟩ := s.switchLogged_stat m hm512
  refine ⟨_, (execClockSwitchForced_of_dead s m hdead).trans (congrArg Host.Outcome.next (State.bootClock_of_not _ hnot)),
    ?_, ?_, ?_, ?_, ?_, honly.keeps fun a ha => ?_⟩
  · rw [hend, State.switchNext_clk]
    exact mget_mset_self (s.switchForcedLow m).clk.muxCur (muxReset m) src m
  · rw [hend, State.switchNext_clk]
    exact hnotHigh
  · rw [State.on_of_reg hstat, hdeadOn]
  · rw [State.f_of_reg hstat, hmuxLogged]
  · rw [hreg _ (by unfold HIF_IRQ_STAT; omega)]
    exact State.raise_irq _ 130
  · simp only [not_or] at ha
    obtain ⟨hfield, hlog, hirq⟩ := ha
    rw [hreg a (Ne.symm hfield), s.switchLogged_reg m (Ne.symm hlog) hirq]

end

/-! ### The settings of dividers (R137, R145) -/

/-- Dividers begin a new output period: only their counts and levels change, and those of the listed clocks are 0 and low. -/
theorem State.each_dividerStart (l : List Nat) (s : State) :
    (s.each l (fun m t => t.dividerStart m)).clk =
        { s.clk with phase := (s.each l (fun m t => t.dividerStart m)).clk.phase, high := (s.each l (fun m t => t.dividerStart m)).clk.high } ∧
      ∀ m, (m ∈ l ∨ mget s.clk.phase 0 m = 0 ∧ m ∉ s.clk.high) → mget (s.each l (fun m t => t.dividerStart m)).clk.phase 0 m = 0 ∧
        m ∉ (s.each l (fun m t => t.dividerStart m)).clk.high := by
  unfold State.each
  induction l generalizing s with
  | nil => exact ⟨rfl, fun m h => h.resolve_left List.not_mem_nil⟩
  | cons k l ih =>
    obtain ⟨hclk, hstart⟩ := ih (s.dividerStart k)
    refine ⟨hclk, fun m h => hstart m ?_⟩
    by_cases hk : k = m
    · subst hk
      exact .inr ⟨mget_mset_self s.clk.phase 0 0 k, not_mem_ldel s.clk.high k⟩
    · obtain hmem | ⟨hphase, hhigh⟩ := h
      · exact .inl ((List.mem_cons.1 hmem).resolve_left (Ne.symm hk))
      · exact .inr ⟨(mget_mset_ne s.clk.phase 0 0 0 k m hk).trans hphase, fun hm => hhigh (List.mem_of_mem_filter hm)⟩

theorem execDividerChange_of_divider (s : State) {a : Nat} (h : isDivider a = true) :
    exec (.dividerChange a) s =
      .next ((s.setClk { s.clk with applied := mset s.clk.applied (resetWord a) a (s.reg a) }).each (clkMuxes a) (fun m t => t.dividerStart m)) :=
  congrArg Host.Outcome.next (if_pos h)

theorem dividerChange_applies (s : State) {a : Nat} (h : isDivider a = true) :
    ∃ t, exec (.dividerChange a) s = .next t ∧ mget t.clk.applied (resetWord a) a = s.reg a ∧
      (∀ b : Nat, b ≠ a → mget t.clk.applied (resetWord b) b = mget s.clk.applied (resetWord b) b) ∧
      (∀ m : Nat, m ∈ clkMuxes a → mget t.clk.phase 0 m = 0 ∧ m ∉ t.clk.high) ∧
      t.clk = { s.clk with applied := t.clk.applied, phase := t.clk.phase, high := t.clk.high } ∧ Keeps (fun _ => False) [.clk] s t := by
  have hexec := execDividerChange_of_divider s h
  obtain ⟨hclk, hstart⟩ := (s.setClk { s.clk with applied := mset s.clk.applied (resetWord a) a (s.reg a) }).each_dividerStart (clkMuxes a)
  refine ⟨_, hexec, ?_, fun b hb => ?_, fun m hm => hstart m (.inl hm), ?_, (execDividerChange_only a s _ hexec).keepsRegs⟩
  · rw [hclk]
    exact mget_mset_self s.clk.applied (resetWord a) (s.reg a) a
  · rw [hclk]
    exact mget_mset_ne s.clk.applied (resetWord a) (resetWord b) (s.reg a) a b hb.symm
  · rw [hclk]
    rfl

/-- Settles O19: requests by `State.switchAsked`, ends by `State.switchEnd_eq`, and the boot ROM does not go on with either. -/
theorem clockSwitches : Obligations.ClockSwitches := by
  unfold Obligations.ClockSwitches
  refine fun s => ⟨fun m src hmux hsrc hne hidle hoff => ?_, fun m src hmux hsrc hne hbusy hoff => ?_, fun h => clockSwitchRequest_fig_osc s h,
    fun m src hmux hm hboot hnew hheld => clockSwitchDone_last s m src hmux hm hboot hnew hheld,
    fun m src h hmux hm hboot hnew hheld hne => clockSwitchDone_held s m src hmux hm hboot hnew hheld hne,
    fun src hboot hnew hheld => clockSwitchDone_fig s src hboot hnew hheld,
    fun m src hmux hm hboot hosc hnew => clockSwitchForced_ends s m hmux hm hboot hosc hnew, fun a ha => dividerChange_applies s ha⟩
  · have hclk := s.switchAsked_idle_clk (src := src) hidle
    refine ⟨_, execClockSwitchRequest_of_new s hmux hsrc hne hoff, s.switchAsked_f src hsrc, s.switchAsked_busy src, ?_, ?_, s.switchAsked_keeps⟩
    · rw [hclk]
      exact mget_mset_self s.clk.muxNew none (some src) m
    · rw [hclk]
  · have hclk := s.switchAsked_busy_clk (src := src) hbusy
    refine ⟨_, execClockSwitchRequest_of_new s hmux hsrc hne hoff, s.switchAsked_f src hsrc, ?_, ?_, s.switchAsked_keeps⟩
    · rw [hclk]
      exact mget_mset_self s.clk.muxHeld none (some src) m
    · rw [hclk]

end Sys2Proof.Machine
end

section
/-! SUPPORT. Block gates (file 04, R158 to R163): the clock of a stack controller that stops ends a Reel-in (R163, R337), whose slot the frame of
GATE_STOP takes to be one of the catalogue. -/

namespace Sys2Proof.Machine

/-- A Reel-in in VERIFY from slot 0xF001, which is none of the 256 of the catalogue. -/
def farReel : Reel := ⟨0xF001, 0, [], 0, false, false, 0⟩

/-- The state after reset, but the gate of stack controller 0 (block 32) is closing with its bit 0, this Reel-in is in progress, and 1,024
droops have been counted. -/
def farReeling : State :=
  { ((State.reset.setReg CLK_GATE_EN1 0x7E#32).put TAIL_REEL_STAT_STATE 1).put BAL_DROOP_STAT_COUNT 1024 with
    clk := { Clk.init with gate := [(32, .closing)] }, tail := { Tail.init with reel := some farReel } }

/-- What GATE_STOP leaves. -/
def farStopped : State := (farReeling.gateStopped 32).latSettle.settle

/-- The state is calm, GATE_STOP of block 32 is due in it, and afterwards the count of droops is another: the Reel-in ends with the clock of the
stack, its slot is no longer in use, and the bit that would show it for slot 0xF001 is bit 26 of BAL_DROOP_STAT. -/
theorem farReeling_loses_count : farReeling.Calm ∧ farReeling.gateSt 32 = .closing ∧ farReeling.gateOn 32 = false ∧
    (farReeling.waits (64 + 4 * (32 - 32))).isEmpty = true ∧ farStopped.f BAL_DROOP_STAT_COUNT ≠ farReeling.f BAL_DROOP_STAT_COUNT := by
  decide +kernel

/-- GATE_STOP of the closing gate of a stack controller that nothing waits at. -/
theorem execGateStop_of_idle_stack (s : State) {i : Nat} (hi : i ≤ 38) (hclosing : s.gateSt i = .closing)
    (hidle : (s.waits (64 + 4 * (i - 32))).isEmpty = true) : exec (.gateStop i) s = .next (s.gateStopped i).latSettle.settle :=
  congrArg Host.Outcome.next (if_pos (by simp [isGate, hi, hclosing, hidle]))

/-- Refutes O20: the frame of GATE_STOP leaves the registers of Ballast (block 10) in every calm state, and in one whose Reel-in names a slot
far above the 256 of the catalogue the register of that slot is one of them. The statement does not ask that slots be below 256. -/
theorem not_blockGates : ¬ Obligations.BlockGates := by
  unfold Obligations.BlockGates
  intro h
  obtain ⟨hcalm, hclosing, hoff, hidle, hcount⟩ := farReeling_loses_count
  obtain ⟨-, hstop, -⟩ := h farReeling hcalm
  obtain ⟨t, hexec, -, -, -, -, hreg, -⟩ := hstop 32 (by decide) hclosing hoff (.inr (.inr hidle))
  obtain rfl : farStopped = t :=
    Host.Outcome.next.inj ((execGateStop_of_idle_stack farReeling (by decide) hclosing hidle).symm.trans hexec)
  exact hcount (State.f_of_reg (hreg BAL_DROOP_STAT (by decide)))

end Sys2Proof.Machine
end

section
/-! SUPPORT. Configuration loads (file 05, R173, R184 to R187, R193, R197, R206, R207): what GO does to the engine, what a source that gives
nothing leaves, and what a checked image does. -/

namespace Sys2Proof.Machine

/-! ### The beginning of a load (R184, R185, R187) -/

section
variable (s : State) (op src : Nat)

/-- What the registers show of a load that begins: BUSY, PHASE 1, and a slot of the store that an image from outside has taken over. -/
def State.loadMarked : State :=
  let t := (s.put CFG_STAT_BUSY 1).put CFG_STAT_PHASE 1
  if src = 3 then t else t.put (if op = 0 then CFG_STORE_CTRL_GOLDEN_OK else CFG_STORE_CTRL_STAGING_OK) 0

theorem State.loadBegin_regs : (s.loadBegin op src).regs = (s.loadMarked op src).regs := by
  unfold State.loadBegin State.loadMarked
  dsimp only
  split_ifs <;> rfl

theorem State.loadMarked_reg {r : Nat} (hstat : CFG_STAT ≠ r) (hstore : CFG_STORE_CTRL ≠ r) : (s.loadMarked op src).reg r = s.reg r := by
  unfold State.loadMarked
  dsimp only
  split_ifs <;> simp only [State.reg_put, if_neg hstat, if_neg hstore]

theorem State.loadBegin_reg {r : Nat} (hstat : CFG_STAT ≠ r) (hstore : CFG_STORE_CTRL ≠ r) : (s.loadBegin op src).reg r = s.reg r :=
  (State.reg_congr (s.loadBegin_regs op src) r).trans (s.loadMarked_reg op src hstat hstore)

/-- The store's register apart, the marks are those of BUSY and PHASE. -/
theorem State.loadBegin_f {x : Fld} (h : CFG_STORE_CTRL ≠ x.addr) :
    (s.loadBegin op src).f x = ((s.put CFG_STAT_BUSY 1).put CFG_STAT_PHASE 1).f x := by
  rw [State.f_congr (s.loadBegin_regs op src)]
  unfold State.loadMarked
  dsimp only
  split_ifs
  · rfl
  · exact State.f_put_ne _ _ h
  · exact State.f_put_ne _ _ h

theorem State.loadBegin_busy : (s.loadBegin op src).on CFG_STAT_BUSY = true := by
  rw [State.on_iff, State.loadBegin_f _ _ _ (by decide)]
  simp (disch := decide) only [State.f_put_disj, State.f_put]
  rfl

theorem State.loadBegin_phase : (s.loadBegin op src).f CFG_STAT_PHASE = 1 := by
  rw [State.loadBegin_f _ _ _ (by decide)]
  exact State.f_put _ _ _ (by decide) (by decide)

theorem State.loadBegin_started : (s.loadBegin op src).on CFG_STAT_STARTED = s.on CFG_STAT_STARTED := by
  rw [State.on, State.loadBegin_f _ _ _ (by decide)]
  simp (disch := decide) only [State.f_put_disj]
  rfl

theorem State.loadBegin_mirror : (s.loadBegin op src).on CFG_STORE_CTRL_MIRROR_OK = s.on CFG_STORE_CTRL_MIRROR_OK := by
  rw [State.on_congr (s.loadBegin_regs op src)]
  unfold State.loadMarked
  dsimp only
  split_ifs <;> simp (disch := decide) only [State.on_put_disj, State.on_put_ne]

/-- Only a load from the staging slot keeps its image (R178). -/
theorem State.loadBegin_staging (hop : op ≠ 0) :
    (s.loadBegin op src).on CFG_STORE_CTRL_STAGING_OK = (s.on CFG_STORE_CTRL_STAGING_OK && (src == 3)) := by
  rw [State.on_congr (s.loadBegin_regs op src)]
  unfold State.loadMarked
  dsimp only
  rw [if_neg hop]
  split
  next hsrc => simp (disch := decide) [State.on_put_ne, hsrc]
  next hsrc =>
    rw [State.on_put_zero _ rfl (by decide), beq_false_of_ne hsrc, Bool.and_false]

/-- The load has its OP, SRC and BAY, and nothing of its image. -/
theorem State.loadBegin_load :
    ∃ id, (s.loadBegin op src).cfg.load = some ⟨op, src, s.f CFG_PR_CTRL_BAY, id, 0, 0, none, [], none, none⟩ := by
  unfold State.loadBegin
  dsimp only
  split_ifs <;> exact ⟨_, rfl⟩

theorem State.loadBegin_fab : (s.loadBegin op src).fab = s.fab := (loadBegin_only s op src).fab (by decide)

/-- Of the engine a load that begins leaves what a start-up goes by. -/
theorem State.loadBegin_cfg :
    (s.loadBegin op src).cfg.autoStart = s.cfg.autoStart ∧ (s.loadBegin op src).cfg.loaded = s.cfg.loaded := by
  unfold State.loadBegin
  dsimp only
  split_ifs <;> exact ⟨rfl, rfl⟩

theorem State.loadBegin_keeps :
    Keeps (fun a => a = CFG_STAT ∨ a = CFG_STORE_CTRL) [.cfg, .scan] s (s.loadBegin op src) :=
  (loadBegin_only s op src).keeps fun r hr => by
    obtain ⟨hstat, hstore⟩ := not_or.1 hr
    exact s.loadBegin_reg op src (Ne.symm hstat) (Ne.symm hstore)

/-- GO that no cause refuses: the load begins, and takes what its source holds. -/
theorem State.loadStart_of_accepted (auto : Bool) (img : Image) (hwaits : s.loadWaits op src = false) (hfree : s.loadRefused op = none) :
    s.loadStart op src auto img = ((if op = 0 then s.fullPrep auto else s).loadBegin op src).loadFeed img := by
  simp [State.loadStart, State.loadGoes, hwaits, hfree]

/-- GO that is refused. -/
theorem State.loadStart_of_refused (auto : Bool) (img : Image) {c : Nat} (hwaits : s.loadWaits op src = false)
    (hcause : s.loadRefused op = some c) : s.loadStart op src auto img = s.cfgRefuse c := by
  simp [State.loadStart, State.loadGoes, hwaits, hcause]

end

/-! ### What a FULL load does first (R185) -/

section
variable (s : State) (auto : Bool)

/-- The fabric is held and its nets carry nothing; the engine knows of no design. -/
def State.fullHeld : State :=
  let t := (s.holdOn.tetSend0).tetSend1 (.cfg none)
  let u := t.setCfg { t.cfg with rel := none, relLate := false, autoStart := auto, bayImage := [], loaded := false, design := 0 }
  (u.disarm).setFab { u.disarm.fab with claims := [] }

theorem State.fullPrep_eq :
    s.fullPrep auto =
      ((((s.fullHeld auto).each (List.range 128) (fun k t => t.setBay k 0)).put CFG_STAT_STARTED 0).put CFG_SCRUB_STAT_PAUSED 1).put
        CFG_STORE_CTRL_MIRROR_OK 0 := rfl

theorem State.fullPrep_started : (s.fullPrep auto).on CFG_STAT_STARTED = false := by
  rw [State.fullPrep_eq, State.on_put_ne _ _ (by decide), State.on_put_ne _ _ (by decide)]
  exact State.on_put_zero _ rfl (by decide)

theorem State.fullPrep_mirror : (s.fullPrep auto).on CFG_STORE_CTRL_MIRROR_OK = false := by
  rw [State.fullPrep_eq]
  exact State.on_put_zero _ rfl (by decide)

/-- What follows touches registers alone. -/
theorem State.fullPrep_only_regs : Only 1 (s.fullHeld auto) (s.fullPrep auto) := by
  rw [State.fullPrep_eq]
  with_reducible exact (put_only _ _ _).after (by decide) ((put_only _ _ _).after (by decide) ((put_only _ _ _).after (by decide)
    (Only.each _ _ (fun k t => setBay_only t k 0) .refl)))

theorem State.fullPrep_fab :
    (s.fullPrep auto).fab.hold = true ∧ (s.fullPrep auto).fab.gatesOpen = false ∧ (s.fullPrep auto).fab.outputsOn = false := by
  have htet : ((s.holdOn.tetSend0).tetSend1 (.cfg none)).fab = s.holdOn.fab :=
    ((tetSend1_only _ _).fab (by decide)).trans ((tetSend0_only _).fab (by decide))
  have hheld : (s.fullHeld auto).fab = { s.holdOn.fab with claims := [] } := by
    rw [← htet, State.fullHeld, State.setFab_fab, (disarm_only _).fab (by decide), State.setCfg_fab]
  rw [(s.fullPrep_only_regs auto).fab (by decide), hheld]
  exact ⟨rfl, rfl, rfl⟩

theorem State.fullPrep_cfg : (s.fullPrep auto).cfg.autoStart = auto ∧ (s.fullPrep auto).cfg.loaded = false := by
  rw [(s.fullPrep_only_regs auto).cfg (by decide)]
  exact ⟨rfl, rfl⟩

end

/-- Bays that take a state one after another. -/
theorem State.each_setBay_bayState (c : Nat) (l : List Nat) (s : State) (k : Nat) :
    (s.each l (fun j t => t.setBay j c)).bayState k = if k ∈ l then c % 8 else s.bayState k := by
  unfold State.each
  induction l generalizing s with
  | nil => rfl
  | cons j l ih =>
    rw [foldS, ih]
    by_cases hl : k ∈ l
    · simp [hl]
    · rcases eq_or_ne j k with rfl | hj
      · simp [hl, State.setBay_bayState]
      · have hne : CFG_BAY_STAT j ≠ CFG_BAY_STAT k := by unfold CFG_BAY_STAT; omega
        have hother : (s.setBay j c).bayState k = s.bayState k := State.f_of_reg (s.setBay_reg c hne)
        simp [hl, hj.symm, hother]

theorem State.fullPrep_bayState (s : State) (auto : Bool) {k : Nat} (hk : k < 128) : (s.fullPrep auto).bayState k = 0 := by
  rw [State.fullPrep_eq, State.bayState, State.f_put_ne _ _ (cfgBayStat_ne k (by decide)).symm,
    State.f_put_ne _ _ (cfgBayStat_ne k (by decide)).symm, State.f_put_ne _ _ (cfgBayStat_ne k (by decide)).symm]
  exact (State.each_setBay_bayState 0 (List.range 128) _ k).trans (if_pos (List.mem_range.2 hk))

theorem State.loadBegin_bayState (s : State) (op src k : Nat) : (s.loadBegin op src).bayState k = s.bayState k :=
  State.f_of_reg (s.loadBegin_reg op src (cfgBayStat_ne k (by decide)).symm (cfgBayStat_ne k (by decide)).symm)

/-! ### Failures and refusals (R195, R197, R208) -/

section
variable (s : State) (cause bay frame : Nat)

theorem State.cfgLog_reg {r : Nat} (herr : CFG_ERR_CAUSE ≠ r) (hirq : r ≠ HIF_IRQ_STAT 4) : (s.cfgLog cause bay frame).reg r = s.reg r := by
  rw [State.cfgLog, State.raise_reg _ hirq]
  exact State.log_reg _ herr herr (fun u => by simp only [State.reg_put, if_neg herr])

theorem State.cfgLog_cfg : (s.cfgLog cause bay frame).cfg = s.cfg := (cfgLog_only _ _ _ _).cfg (by decide)

theorem State.cfgLog_on {x : Fld} (herr : CFG_ERR_CAUSE ≠ x.addr) (hirq : x.addr ≠ HIF_IRQ_STAT 4) :
    (s.cfgLog cause bay frame).on x = s.on x := State.on_of_reg (s.cfgLog_reg cause bay frame herr hirq)

theorem State.cfgLog_valid : (s.cfgLog cause bay frame).on CFG_ERR_CAUSE_VALID = true := by
  rw [State.cfgLog, State.raise_on _ (by decide)]
  unfold State.log
  split
  next h =>
    simp (disch := decide) only [State.on_put_disj]
    exact h
  next =>
    simp (disch := decide) only [State.on_put_disj]
    exact State.on_put_one _ rfl (by decide)

/-- The first cause is taken down. -/
theorem State.cfgLog_cause (h : s.on CFG_ERR_CAUSE_VALID = false) : (s.cfgLog cause bay frame).f CFG_ERR_CAUSE_CAUSE = cause % 256 := by
  rw [State.cfgLog, State.raise_f _ (by decide), State.log_of_clear _ _ h]
  exact State.f_put _ _ _ (by decide) (by decide)

/-- EV_CFG_FAIL (137). -/
theorem State.cfgLog_irq : ((s.cfgLog cause bay frame).reg (HIF_IRQ_STAT 4)).toNat.testBit 9 = true := State.raise_irq _ 137

/-- A refusal is the cause in its log; FAIL and DONE follow where no operation is in progress. -/
theorem State.cfgRefuse_reg {r : Nat} (hstat : CFG_STAT ≠ r) : (s.cfgRefuse cause).reg r = (s.cfgLog cause 0 0).reg r := by
  unfold State.cfgRefuse
  dsimp only
  split
  · rfl
  · rw [State.reg_put_ne _ _ hstat, State.reg_put_ne _ _ hstat]

theorem State.cfgRefuse_keeps :
    Keeps (fun a => a = CFG_STAT ∨ a = CFG_ERR_CAUSE ∨ a = HIF_IRQ_STAT 4) [.host, .tail, .mesh] s (s.cfgRefuse cause) :=
  (cfgRefuse_only s cause).keeps fun r hr => by
    simp only [not_or] at hr
    obtain ⟨hstat, herr, hirq⟩ := hr
    rw [s.cfgRefuse_reg cause (Ne.symm hstat), s.cfgLog_reg cause 0 0 (Ne.symm herr) hirq]

/-- A refusal leaves a calm state calm. -/
theorem State.cfgRefuse_settle (hcalm : s.Calm) : (s.cfgRefuse cause).settle = s.cfgRefuse cause := by
  obtain ⟨halarm, haim⟩ := hcalm
  have hreg (x : Fld) (hx : x.addr = BAL_PWR_STAT) : (s.cfgRefuse cause).f x = s.f x := by
    have hne : CFG_STAT ≠ x.addr := hx ▸ (by decide : CFG_STAT ≠ BAL_PWR_STAT)
    have herr : CFG_ERR_CAUSE ≠ x.addr := hx ▸ (by decide : CFG_ERR_CAUSE ≠ BAL_PWR_STAT)
    have hirq : x.addr ≠ HIF_IRQ_STAT 4 := hx ▸ (by decide : BAL_PWR_STAT ≠ HIF_IRQ_STAT 4)
    exact State.f_of_reg ((s.cfgRefuse_reg cause hne).trans (s.cfgLog_reg cause 0 0 herr hirq))
  refine State.settle_calm _ ?_ ?_
  · rw [(cfgRefuse_only s cause).sec (by decide)]
    exact halarm
  · rw [← haim, State.powerAim, State.powerAim, State.on, State.on, hreg _ rfl, hreg _ rfl, hreg _ rfl]

/-- The engine and its bay once the load in progress has come to nothing, before that is shown. -/
def State.loadDropped : State :=
  match s.cfg.load with
  | some l => if l.op = 1 then s.partialFail l.bay
      else if l.op = 0 then s.setCfg { s.cfg with
        failed := true, boot := if cause = 0x0E ∧ s.f CFG_STRAP_BOOT_SRC = 3 then 0 else s.cfg.boot } else s
  | none => s

/-- Where the cause is none of the four that raise an alarm (R198). -/
theorem State.cfgFail_eq (h : ¬ (3 ≤ cause ∧ cause ≤ 6)) :
    s.cfgFail cause bay frame = ((((s.loadDropped cause).cfgIdle).put CFG_STAT_FAIL 1).put CFG_STAT_DONE 0).cfgLog cause bay frame := by
  unfold State.cfgFail
  dsimp only
  rw [if_neg (fun hc => h ⟨hc.1, hc.2.1⟩)]
  rfl

/-- The log of causes is as it was. -/
theorem State.loadDropped_err {x : Fld} (hx : x.addr = CFG_ERR_CAUSE) : (s.loadDropped cause).f x = s.f x := by
  have herr : CFG_PR_CTRL ≠ x.addr := hx ▸ (by decide : CFG_PR_CTRL ≠ CFG_ERR_CAUSE)
  unfold State.loadDropped
  split
  next l _ =>
    split_ifs
    · unfold State.partialFail
      split
      · exact State.f_of_reg (State.setBay_reg s 5 (hx ▸ cfgBayStat_ne l.bay (by decide)))
      · exact State.f_of_reg (s.disarm_reg herr)
    all_goals rfl
  next => rfl

/-- A load that fails without an alarm: FAIL, no longer BUSY, and its cause where the log was empty. -/
theorem State.cfgFail_ends (h : ¬ (3 ≤ cause ∧ cause ≤ 6)) :
    (s.cfgFail cause bay frame).on CFG_STAT_FAIL = true ∧ (s.cfgFail cause bay frame).on CFG_STAT_BUSY = false ∧
      (s.cfgFail cause bay frame).cfg.load = none ∧
      (s.on CFG_ERR_CAUSE_VALID = false → (s.cfgFail cause bay frame).f CFG_ERR_CAUSE_CAUSE = cause % 256) := by
  rw [s.cfgFail_eq cause bay frame h]
  refine ⟨?_, ?_, ?_, fun hclear => State.cfgLog_cause _ _ _ _ ?_⟩
  · rw [State.cfgLog_on _ _ _ _ (by decide) (by decide)]
    simp (disch := decide) only [State.on_put_disj]
    exact State.on_put_one _ rfl (by decide)
  · rw [State.cfgLog_on _ _ _ _ (by decide) (by decide), State.cfgIdle]
    simp (disch := decide) only [State.on_put_disj]
    exact State.on_put_zero _ rfl (by decide)
  · rw [State.cfgLog_cfg]
    rfl
  · rw [← hclear, State.on_put_ne _ _ (by decide), State.on_put_ne _ _ (by decide), State.on_of_reg (State.cfgIdle_reg _ (by decide)),
      State.on, s.loadDropped_err cause rfl, State.on]

end

/-! ### What a source gives (R184; log entry 45) -/

section
variable (s : State) {l : Load} (img : Image)

/-- The words that a debugger has shifted in, as bytes after those that came before. -/
def State.scanTaken (l : Load) : Load :=
  { l with
    size := l.size + 4 * s.scan.buf.length
    data := l.data + ofBytes (s.scan.buf.flatMap (fun w => toBytes 4 w.toNat)) * 2 ^ (8 * l.size) }

/-- The load has them, and the buffer is empty. -/
def State.scanEmptied (l : Load) : State :=
  (s.setCfg { s.cfg with load := some (s.scanTaken l) }).setScan { s.scan with buf := [] }

/-- A slot of the store is not used up by a header's worth of bytes. -/
theorem storeBase_room (op : Nat) : storeBase op % 64 = 0 ∧ storeBase op + 16384 ≤ 0x001680000000 := by
  unfold storeBase
  split <;> decide

/-- Bytes that end before the header does wait for more. -/
theorem State.loadTake_of_short (hsrc : l.src = 2) (hhead : l.head = none) (hsize : l.size < 16384) :
    s.loadTake l = s.streamIn l := by
  have hfetch : (s.streamIn l).loadFetch l 0 headSize = (s.streamIn l, .wait) := by
    have hshort : ¬ 0 + headSize ≤ l.size := by unfold headSize; omega
    rw [State.loadFetch, if_neg (by omega), if_neg hshort, if_pos hsrc]
  unfold State.loadTake
  simp only [hhead, Option.isSome_none, Bool.false_eq_true, if_false, hfetch]

/-- They stream into the slot of their load. -/
theorem State.streamIn_of_short (hsrc : l.src = 2) (hsize : l.size < 16384) :
    s.streamIn l = s.storePut (storeBase l.op) (min l.size (slotSize l.op)) l.data := by
  have hshort : ¬ headSize ≤ l.size := by unfold headSize; omega
  rw [State.streamIn, if_neg (by omega)]
  dsimp only
  rw [if_neg hshort]

theorem State.streamIn_short_only (hsrc : l.src = 2) (hsize : l.size < 16384) : Only 138753 s (s.streamIn l) := by
  rw [s.streamIn_of_short hsrc hsize]
  exact storeLines_aligned_only _ _ _ _ (storeBase_room l.op).1

theorem State.streamIn_short_reg (hsrc : l.src = 2) (hsize : l.size < 16384) {r : Nat} (hr : ¬ StoreReg r) :
    (s.streamIn l).reg r = s.reg r := by
  obtain ⟨halign, hroom⟩ := storeBase_room l.op
  rw [s.streamIn_of_short hsrc hsize]
  exact storeLines_reg _ _ _ _ halign (by omega) hr

/-- A debugger's words are taken in Aloft. -/
theorem State.loadFeed_of_scan (hload : s.cfg.load = some l) (hpower : s.power = 0) (hsrc : l.src = 2) (hscan : s.scanSource = true) :
    s.loadFeed img = (s.scanEmptied l).loadTake (s.scanTaken l) := by
  have hsource : s.sourceBytes l img = ((s.scanTaken l).size, (s.scanTaken l).data) := if_pos hsrc
  unfold State.loadFeed
  rw [hload]
  dsimp only
  rw [if_neg (not_not.2 hpower), if_neg (by simp [hsrc]), if_neg (by simp [hsrc]), if_neg (by simp [hsrc]), if_neg (by simp [hscan]), hsource,
    if_pos hsrc]
  rfl

/-- A Gondola that is not there, and a slot of the store without a checked image, end the load with SOURCE_LOST. -/
theorem State.loadFeed_of_lost (hload : s.cfg.load = some l) (hpower : s.power = 0)
    (hlost : l.src = 0 ∧ s.on GDL_STAT_PRESENT = false ∨
      l.src = 3 ∧ s.on CFG_STORE_CTRL_GOLDEN_OK = false ∧ s.on CFG_STORE_CTRL_STAGING_OK = false) :
    s.loadFeed img = s.cfgFail 0x08 0 0 := by
  obtain ⟨hsrc, habsent⟩ | ⟨hsrc, hgolden, hstaging⟩ := hlost
  · simp [State.loadFeed, hload, hpower, hsrc, habsent]
  · have hslot : s.on (if l.op = 0 then CFG_STORE_CTRL_GOLDEN_OK else CFG_STORE_CTRL_STAGING_OK) = false := by
      split
      · exact hgolden
      · exact hstaging
    simp [State.loadFeed, hload, hpower, hsrc, hslot]

end

/-! ### A checked PARTIAL image (R193) -/

theorem State.stagingOk_reg (s : State) {r : Nat} (h : CFG_STORE_CTRL ≠ r) : s.stagingOk.reg r = s.reg r := State.reg_put_ne _ _ h

theorem State.stagingOk_on (s : State) : s.stagingOk.on CFG_STORE_CTRL_STAGING_OK = true := State.on_put_one _ rfl (by decide)

section
variable (s : State) (k : Nat)

theorem State.bayLoading_reg {r : Nat} (h : CFG_BAY_STAT k ≠ r) : (s.bayLoading k).reg r = s.reg r := by
  unfold State.bayLoading
  split
  · exact State.setBay_reg _ 3 h
  · rfl

/-- A held bay is LOADING. -/
theorem State.bayLoading_bayState (h : k ∈ s.fab.held) : (s.bayLoading k).bayState k = 3 := by
  unfold State.bayLoading
  split
  · exact State.setBay_bayState _ k 3
  next hst => exact not_not.mp fun hne => hst ⟨h, hne⟩

end

section
variable (s : State) (l : Load) (x : Sec) (plain : Nat)

/-- The one section of a PARTIAL or TABLES image that comes next is in progress, in phase `phase`, with `todo` after it. -/
def State.secOn (phase : Nat) (todo : List (Sec × Option Nat)) : State :=
  ((s.setCfg { s.cfg with load := some { l with todo := todo, cur := some ⟨x, plain, 0, [], []⟩ } }).put CFG_STAT_PHASE phase).put
    CFG_STAT_SECT x.index

theorem State.secOn_only (phase : Nat) (todo : List (Sec × Option Nat)) : Only 33 s (s.secOn l x plain phase todo) :=
  (put_only _ _ _).after (by decide) ((put_only _ _ _).after (by decide) ((setCfg_only _ _).mono (by decide)))

theorem State.secOn_reg (phase : Nat) (todo : List (Sec × Option Nat)) {r : Nat} (h : CFG_STAT ≠ r) :
    (s.secOn l x plain phase todo).reg r = s.reg r := by
  simp only [State.secOn, State.reg_put, if_neg h]
  rfl

/-- PHASE and SECT. -/
theorem State.secOn_stat (phase : Nat) (todo : List (Sec × Option Nat)) (hphase : phase < 16) :
    (s.secOn l x plain phase todo).f CFG_STAT_PHASE = phase ∧ (s.secOn l x plain phase todo).f CFG_STAT_SECT = x.index % 256 := by
  unfold State.secOn
  simp (disch := decide) only [State.f_put_disj, State.f_put]
  exact ⟨Nat.mod_eq_of_lt hphase, rfl⟩

/-- The bay of CFG_PR_CTRL, whose freeze is armed or in effect, of a device that is started (R193 step 2). -/
theorem State.partialGo_of_frozen (htarget : x.target = l.bay) (hfrozen : s.bayFrozen l.bay = true)
    (hstarted : s.on CFG_STAT_STARTED = true) : s.partialGo l x plain = (s.stagingOk.secOn l x plain 3 []).bayLoading l.bay := by
  have hfrozen' : s.stagingOk.bayFrozen l.bay = true := hfrozen
  have hstarted' : s.stagingOk.on CFG_STAT_STARTED = true := (State.on_of_reg (s.stagingOk_reg (by decide))).trans hstarted
  exact if_pos ⟨htarget, hfrozen', hstarted'⟩

end

/-! ### Firmware (R206, R465, R466) -/

/-- A field above the bits that a write reaches keeps its value, in whichever register it lies. -/
theorem State.f_put_above (s : State) {x y : Fld} (v : Nat) (hh : x.hi < 32) (hl : x.lo ≤ x.hi) (h : x.hi < y.lo) : (s.put x v).f y = s.f y := by
  by_cases ha : x.addr = y.addr
  · exact State.f_put_disj s v ha hh hl (.inr h)
  · exact State.f_put_ne s v ha

/-- The registers of a core lie above those of the debugger. -/
theorem stCtrl_ne_dbg (c : Nat) : ST_CTRL c ≠ DBG_CTRL := by unfold ST_CTRL DBG_CTRL; omega

theorem stStat_ne_dbg (c : Nat) : ST_STAT c ≠ DBG_CTRL := by unfold ST_STAT DBG_CTRL; omega

section
variable (s : State) (c : Nat)

theorem State.attached_of_reg {s t : State} (h : t.reg DBG_CTRL = s.reg DBG_CTRL) : t.attached = s.attached :=
  State.on_of_reg (x := DBG_CTRL_ATTACHED) h

theorem State.attached_setReg {a : Nat} (v : Word) (h : a ≠ DBG_CTRL) : (s.setReg a v).attached = s.attached :=
  State.attached_of_reg (State.reg_setReg_ne _ _ h)

theorem State.attached_put {x : Fld} (v : Nat) (h : x.addr ≠ DBG_CTRL) : (s.put x v).attached = s.attached :=
  State.attached_of_reg (State.reg_put_ne _ _ h)

/-- What a source's tags show lies below bit 23 of its register. -/
theorem State.iniStat_attached (src : Nat) : (s.iniStat src).attached = s.attached := by
  unfold State.iniStat State.attached State.on
  dsimp only
  rw [State.f_put_above _ _ (by simp) (by simp) (by simp), State.f_put_above _ _ (by simp) (by simp) (by simp),
    State.f_put_above _ _ (by simp) (by simp) (by simp)]

theorem State.initReset_attached (src : Nat) : (s.initReset src).attached = s.attached := by
  have htags (l : List Nat) (g : Nat → State → State) (hg : ∀ k t, Only 1024 t (g k t)) : (s.each l g).regs = s.regs :=
    (Only.each l g hg .refl).regs (by decide)
  unfold State.initReset
  dsimp only
  rw [State.iniStat_attached]
  refine State.attached_of_reg (State.reg_congr (((setMesh_only _ _).regs (by decide)).trans (htags _ _ fun k t => ?_)) _)
  split
  · exact .refl
  all_goals exact setTagAt_only _ _ _

theorem State.orderReset_attached (src : Nat) : (s.orderReset src).attached = s.attached := by
  by_cases h : hasOrder src = true
  · have hsrc := lt_of_hasOrder h
    refine State.attached_of_reg ((s.orderReset_reg h DBG_CTRL).trans (if_neg ?_))
    unfold DBG_CTRL DEV_ORD_FENCE
    omega
  · rw [State.orderReset, if_neg h]

/-- The core's state, registers and what its accesses and fences left are gone; its memories stay. -/
def State.coreCleared : State :=
  ((((s.setCore c { Core.init with pm := (s.coreOf c).pm, xm := (s.coreOf c).xm, ym := (s.coreOf c).ym }).resetRegs (fun a =>
    decide (ST_CTRL c ≤ a) && decide (a < ST_CTRL c + 0x10000) && (match regAt a with
      | some r => r.core
      | none => false))).initReset (coreSrc c)).orderReset (coreSrc c))

/-- What the registers show of the reset: its cause, and a core that is not halted, at its first instruction. -/
def State.coreShown (cause : Nat) : State :=
  let t := (s.put (ST_RESET_CAUSE_CAUSE c) cause).satF (ST_RESET_CAUSE_COUNT c) 1
  (((t.put (DBG_CORE_STAT_HALTED c) 0).setReg DBG_STAT (t.reg DBG_STAT &&& ~~~ (1#32 <<< c))).put (ST_CTRL_BOOT c) 0).setReg (ST_STAT c) 0

/-- HOLD_ON_RESET holds it. -/
def State.coreMarked (cause : Nat) : State :=
  (s.coreShown c cause).when ((s.coreShown c cause).on (ST_CTRL_HOLD_ON_RESET c)) (fun t => t.put (ST_CTRL_RESET c) 1)

theorem State.coreReset_eq (cause : Nat) :
    s.coreReset c cause false =
      if ((s.coreCleared c).coreMarked c cause).on (ST_CTRL_RESET c) then (s.coreCleared c).coreMarked c cause
      else ((s.coreCleared c).coreMarked c cause).coreStart c := by
  unfold State.coreReset
  dsimp only
  rw [if_neg Bool.false_ne_true]
  rfl

theorem State.coreCleared_core :
    (s.coreCleared c).core = (s.setCore c { Core.init with pm := (s.coreOf c).pm, xm := (s.coreOf c).xm, ym := (s.coreOf c).ym }).core :=
  ((orderReset_only _ _).core (by decide)).trans (((initReset_only _ _).core (by decide)).trans ((resetRegs_only _ _).core (by decide)))

theorem State.coreCleared_attached : (s.coreCleared c).attached = s.attached := by
  unfold State.coreCleared
  rw [State.orderReset_attached, State.initReset_attached]
  refine State.attached_of_reg ((State.reg_resetRegs _ _ _).trans (if_neg ?_))
  have hbelow : ¬ ST_CTRL c ≤ DBG_CTRL := fun h => by unfold ST_CTRL DBG_CTRL at h; omega
  simp [hbelow]

theorem State.coreMarked_only (cause : Nat) : Only 1 s (s.coreMarked c cause) := by
  have hshown : Only 1 s (s.coreShown c cause) := by
    unfold State.coreShown
    with_reducible exact (setReg_only _ _ _).after (by decide) ((put_only _ _ _).after (by decide) ((setReg_only _ _ _).after (by decide)
      ((put_only _ _ _).after (by decide) ((satF_only _ _ _).after (by decide) (put_only _ _ _)))))
  exact Only.when _ _ (fun t => put_only t _ _) hshown

theorem State.coreMarked_attached (cause : Nat) : (s.coreMarked c cause).attached = s.attached := by
  have hcause : ST_RESET_CAUSE c ≠ DBG_CTRL := by unfold ST_RESET_CAUSE DBG_CTRL; omega
  have hdbg : DBG_CORE_STAT c ≠ DBG_CTRL := by unfold DBG_CORE_STAT DBG_CTRL; omega
  have hshown : (s.coreShown c cause).attached = s.attached := by
    unfold State.coreShown State.satF
    dsimp only
    rw [State.attached_setReg _ _ (stStat_ne_dbg c), State.attached_put _ _ (stCtrl_ne_dbg c), State.attached_setReg _ _ (by decide),
      State.attached_put _ _ hdbg, State.attached_put _ _ hcause, State.attached_put _ _ hcause]
  unfold State.coreMarked State.when
  split
  · exact (State.attached_put _ _ (stCtrl_ne_dbg _)).trans hshown
  · exact hshown

theorem State.setPc_attached (v : Nat) : (s.setPc c v).attached = s.attached := by
  rw [State.setPc, State.attached_put _ _ (stStat_ne_dbg c), State.attached_put _ _ (stStat_ne_dbg c)]

/-- With no debugger attached, the core starts at program address 0. -/
theorem State.coreStart_of_detached (h : s.attached = false) : s.coreStart c = (s.setPc c 0).put (ST_STAT_STATE c) 1 := by
  have hstart : ((s.setPc c 0).put (ST_STAT_STATE c) 1).attached = false := by
    rw [State.attached_put _ _ (stStat_ne_dbg c), s.setPc_attached c, h]
  unfold State.coreStart
  dsimp only
  rw [hstart, Bool.false_and, if_neg Bool.false_ne_true]

theorem State.coreStart_core (h : s.attached = false) : (s.coreStart c).core = s.core := by
  rw [s.coreStart_of_detached c h]
  exact ((put_only _ _ _).core (by decide)).trans ((setPc_only _ _ _).core (by decide))

theorem State.coreStart_attached (h : s.attached = false) : (s.coreStart c).attached = false := by
  rw [s.coreStart_of_detached c h, State.attached_put _ _ (stStat_ne_dbg c), s.setPc_attached c, h]

/-- A core reset reaches no other core, and its own keeps its memories. -/
theorem State.coreReset_core (cause : Nat) (h : s.attached = false) :
    (s.coreReset c cause false).core =
      (s.setCore c { Core.init with pm := (s.coreOf c).pm, xm := (s.coreOf c).xm, ym := (s.coreOf c).ym }).core := by
  have hcore := ((State.coreMarked_only _ c cause).core (by decide)).trans (s.coreCleared_core c)
  have hdet : ((s.coreCleared c).coreMarked c cause).attached = false := by rw [State.coreMarked_attached, s.coreCleared_attached, h]
  rw [State.coreReset_eq]
  split
  · exact hcore
  · exact (State.coreStart_core _ c hdet).trans hcore

theorem State.coreReset_attached (cause : Nat) (h : s.attached = false) : (s.coreReset c cause false).attached = false := by
  have hdet : ((s.coreCleared c).coreMarked c cause).attached = false := by rw [State.coreMarked_attached, s.coreCleared_attached, h]
  rw [State.coreReset_eq]
  split
  · exact hdet
  · exact State.coreStart_attached _ c hdet

/-- Its release changes no core's state beside registers. -/
theorem State.coreRelease_core (h : s.attached = false) : (s.coreRelease c).core = s.core := by
  unfold State.coreRelease
  split
  · exact (State.coreStart_core _ c ((State.attached_put _ _ (stCtrl_ne_dbg _)).trans h)).trans ((put_only _ _ _).core (by decide))
  · rfl

end

/-- With no debugger attached, the release leaves the cores as the reset and the section made them. -/
theorem State.fwApply_core (s : State) (x : Sec) (plain : Nat) (h : s.attached = false) :
    (s.fwApply x plain).core =
      (((s.put (ST_CTRL_RESET x.core) 1).coreReset x.core 5 false).fwWrite x plain).core := by
  have hwrite (u : State) : (u.fwWrite x plain).attached = u.attached := State.attached_of_reg (State.reg_congr (State.setCore_regs _ _ _) _)
  exact State.coreRelease_core _ x.core ((hwrite _).trans <| State.coreReset_attached _ x.core 5 ((State.attached_put _ _ (stCtrl_ne_dbg _)).trans h))

/-- The section becomes the memories of its core, and no other core changes. -/
theorem State.fwApply_coreOf (s : State) (x : Sec) (plain : Nat) (h : s.attached = false) :
    ((s.fwApply x plain).coreOf x.core).pm = fwTable plain 0 16384 ∧ ((s.fwApply x plain).coreOf x.core).xm = fwTable plain 16384 8192 ∧
      ((s.fwApply x plain).coreOf x.core).ym = fwTable plain 24576 8192 ∧
      ∀ c : Nat, c ≠ x.core → (s.fwApply x plain).coreOf c = s.coreOf c := by
  let u := (s.put (ST_CTRL_RESET x.core) 1).coreReset x.core 5 false
  have hof (c : Nat) : (s.fwApply x plain).coreOf c = (u.fwWrite x plain).coreOf c :=
    congrArg (mget · Core.init c) (s.fwApply_core x plain h)
  have hreset (c : Nat) (hc : c ≠ x.core) : u.coreOf c = s.coreOf c :=
    (congrArg (mget · Core.init c) (State.coreReset_core _ x.core 5 ((State.attached_put _ _ (stCtrl_ne_dbg _)).trans h))).trans
      ((State.coreOf_setCore_ne _ _ hc.symm).trans (congrArg (mget · Core.init c) ((put_only _ _ _).core (by decide))))
  rw [hof, State.fwWrite, State.coreOf_setCore_self]
  dsimp only
  refine ⟨rfl, rfl, rfl, fun c hc => (hof c).trans ?_⟩
  exact (State.coreOf_setCore_ne _ _ hc.symm).trans (hreset c hc)

/-! ### A checked TABLES image (R177, R207) -/

/-- Records that keep R177, of clock settings or lattice tables only while the rounds are stopped. -/
theorem State.tablesGo_of_checked (s : State) (l : Load) {secs rest : List (Sec × Nat)} {x : Sec × Nat} (hsecs : secs = x :: rest)
    (hok : secs.all (fun y => tabSecOk y.1 y.2) = true)
    (hstopped : s.stopped = true ∨ secs.any (fun y => y.1.ty == 0x20 || y.1.ty == 0x22) = false) :
    s.tablesGo l secs = s.stagingOk.secOn l x.1 x.2 6 (rest.map (fun y => (y.1, some y.2))) := by
  have hnow : s.stagingOk.stopped = s.stopped := by
    have hlat : s.stagingOk.latState = s.latState := State.f_of_reg (s.stagingOk_reg (by decide))
    rw [State.stopped, State.stopped, hlat]
  have hfree : (!s.stagingOk.stopped && secs.any (fun y => y.1.ty == 0x20 || y.1.ty == 0x22)) = false := by
    rw [hnow]
    rcases hstopped with h | h <;> simp only [h, Bool.not_true, Bool.false_and, Bool.and_false]
  unfold State.tablesGo
  dsimp only
  rw [hok, if_neg (by decide), hfree, if_neg (by decide), hsecs]
  rfl

/-! ### The clauses about loads -/

section
variable (s : State)

/-- A load of another OP than FULL, as it begins. -/
theorem State.loadBegin_shows (op src : Nat) (hop : op ≠ 0) :
    ((s.loadBegin op src).cfg.load.map (fun l => (l.op, l.src, l.bay))) = some (op, src, s.f CFG_PR_CTRL_BAY) ∧
      ((s.loadBegin op src).cfg.load.all (fun l => l.size == 0 && l.head.isNone && l.cur.isNone)) = true ∧
      (s.loadBegin op src).on CFG_STAT_BUSY = true ∧ (s.loadBegin op src).f CFG_STAT_PHASE = 1 ∧
      (s.loadBegin op src).on CFG_STORE_CTRL_STAGING_OK = (s.on CFG_STORE_CTRL_STAGING_OK && (src == 3)) ∧
      Keeps (fun a => a = CFG_STAT ∨ a = CFG_STORE_CTRL) [.cfg, .scan] s (s.loadBegin op src) := by
  obtain ⟨id, hload⟩ := s.loadBegin_load op src
  rw [hload]
  exact ⟨rfl, rfl, s.loadBegin_busy op src, s.loadBegin_phase op src, s.loadBegin_staging op src hop, s.loadBegin_keeps op src⟩

/-- A FULL load, as it begins. -/
theorem State.fullBegin_shows (auto : Bool) (src : Nat) :
    let t := (s.fullPrep auto).loadBegin 0 src
    t.fab.hold = true ∧ t.fab.gatesOpen = false ∧ t.fab.outputsOn = false ∧ t.on CFG_STAT_STARTED = false ∧
      t.on CFG_STAT_BUSY = true ∧ t.f CFG_STAT_PHASE = 1 ∧ t.on CFG_STORE_CTRL_MIRROR_OK = false ∧ t.cfg.autoStart = auto ∧
      t.cfg.loaded = false ∧ (∀ k : Nat, k < 128 → t.bayState k = 0) ∧ t.cfg.load.map (fun l => (l.op, l.src)) = some (0, src) ∧
      t.cfg.load.all (fun l => l.size == 0 && l.head.isNone && l.cur.isNone) = true ∧ t.hbm = s.hbm ∧ t.core = s.core ∧ t.sec = s.sec := by
  intro t
  have honly : Only 557097 s t := (loadBegin_only _ 0 src).after (by decide) ((fullPrep_only s auto).mono (by decide))
  have hfab : t.fab = (s.fullPrep auto).fab := State.loadBegin_fab _ 0 src
  obtain ⟨id, hload⟩ : ∃ id, t.cfg.load = some ⟨0, src, (s.fullPrep auto).f CFG_PR_CTRL_BAY, id, 0, 0, none, [], none, none⟩ :=
    State.loadBegin_load _ 0 src
  obtain ⟨hauto, hloaded⟩ := State.loadBegin_cfg (s.fullPrep auto) 0 src
  obtain ⟨hprepAuto, hprepLoaded⟩ := s.fullPrep_cfg auto
  obtain ⟨hhold, hgates, houtputs⟩ := s.fullPrep_fab auto
  rw [hload, hfab]
  exact ⟨hhold, hgates, houtputs, (State.loadBegin_started _ 0 src).trans (s.fullPrep_started auto), State.loadBegin_busy _ 0 src,
    State.loadBegin_phase _ 0 src, (State.loadBegin_mirror _ 0 src).trans (s.fullPrep_mirror auto), hauto.trans hprepAuto,
    hloaded.trans hprepLoaded, fun k hk => (State.loadBegin_bayState _ 0 src k).trans (s.fullPrep_bayState auto hk), rfl, rfl,
    honly.hbm (by decide), honly.core (by decide), honly.sec (by decide)⟩

theorem State.fullLoad_begins (src : Nat) (auto : Bool) (img : Image) (hwaits : s.loadWaits 0 (src % 4) = false)
    (hfree : s.loadRefused 0 = none) :
    exec (.fullLoad src auto img) s = .next (((s.fullPrep auto).loadBegin 0 (src % 4)).loadFeed img).settle := by
  show Host.Outcome.next (s.loadStart 0 (src % 4) auto img).settle = _
  rw [s.loadStart_of_accepted 0 (src % 4) auto img hwaits hfree, if_pos rfl]

/-- A load is refused with BUSY or STATE (0x0C) or while Alarmed (0x0E). -/
theorem State.loadRefused_lt {op c : Nat} (h : s.loadRefused op = some c) : c < 256 := by
  unfold State.loadRefused at h
  split_ifs at h <;> cases h <;> decide

/-- A refused FULL load leaves its cause, and the engine as it was. -/
theorem State.fullLoad_refused (hcalm : s.Calm) {c : Nat} (src : Nat) (auto : Bool) (img : Image) (hwaits : s.loadWaits 0 (src % 4) = false)
    (hcause : s.loadRefused 0 = some c) : exec (.fullLoad src auto img) s = .next (s.cfgRefuse c) := by
  show Host.Outcome.next (s.loadStart 0 (src % 4) auto img).settle = _
  rw [s.loadStart_of_refused 0 (src % 4) auto img hwaits hcause, s.cfgRefuse_settle c hcalm]

/-- The words of a debugger, fewer than a header's. -/
theorem State.loadFeed_scan_waits {l : Load} (img : Image) (hload : s.cfg.load = some l) (hpower : s.power = 0) (hsrc : l.src = 2)
    (hscan : s.scanSource = true) (hhead : l.head = none) (hsize : l.size + 4 * s.scan.buf.length < 16384) :
    s.loadFeed img = (s.scanEmptied l).streamIn (s.scanTaken l) :=
  (s.loadFeed_of_scan img hload hpower hsrc hscan).trans ((s.scanEmptied l).loadTake_of_short hsrc hhead hsize)

end

/-- Settles O21: GO by `State.loadStart_of_accepted` and `State.loadBegin`, a source by `State.loadFeed`, a checked image by its own step. -/
theorem loadsBegin : Obligations.LoadsBegin := by
  unfold Obligations.LoadsBegin
  intro s hcalm
  have hother (op src : Nat) (img : Image) (hop : op ≠ 0) (hwaits : s.loadWaits op src = false) (hfree : s.loadRefused op = none) :
      Host.Outcome.next (s.loadStart op src false img).settle = (.next ((s.loadBegin op src).loadFeed img).settle : Out) := by
    rw [s.loadStart_of_accepted op src false img hwaits hfree, if_neg hop]
  refine ⟨fun src auto img hwaits hfree => ⟨_, s.fullLoad_begins src auto img hwaits hfree, rfl, s.fullBegin_shows auto (src % 4)⟩,
    fun src img hwaits hfree => ⟨_, hother 1 (src % 4) img (by decide) hwaits hfree, rfl, s.loadBegin_shows 1 (src % 4) (by decide)⟩,
    fun src img hwaits hfree => ⟨_, hother 2 (src % 4) img (by decide) hwaits hfree, rfl, s.loadBegin_shows 2 (src % 4) (by decide)⟩,
    fun src img hwaits hfree => ⟨_, hother 3 (src % 4) img (by decide) hwaits hfree, rfl, s.loadBegin_shows 3 (src % 4) (by decide)⟩,
    fun src auto img c hwaits hcause => ?refused,
    fun l img hload hpower hsrc hscan hhead hsize => ?short, fun l img hload hpower hlost => ?lost,
    fun l x plain htarget hfrozen hstarted => ?checkedPartial, fun x plain hdetached => s.fwApply_coreOf x plain hdetached,
    fun l secs rest x hsecs hok hstopped => ?checkedTables⟩
  case refused =>
    have hreg {r : Nat} (h : CFG_STAT ≠ r) := s.cfgRefuse_reg c h
    refine ⟨_, s.fullLoad_refused hcalm src auto img hwaits hcause, ?_, fun hclear => ?_, ?_, (cfgRefuse_only s c).cfg (by decide),
      s.cfgRefuse_keeps c⟩
    · rw [State.on_of_reg (hreg (by decide))]
      exact s.cfgLog_valid c 0 0
    · rw [State.f_of_reg (hreg (by decide)), s.cfgLog_cause c 0 0 hclear]
      exact Nat.mod_eq_of_lt (s.loadRefused_lt hcause)
    · rw [hreg (by decide)]
      exact s.cfgLog_irq c 0 0
  case short =>
    let u := s.scanEmptied l
    have hstream : Only 138753 u (u.streamIn (s.scanTaken l)) := u.streamIn_short_only hsrc hsize
    have honly : Only 171553 s (u.streamIn (s.scanTaken l)) :=
      hstream.after (by decide) ((setScan_only _ _).after (by decide) ((setCfg_only _ _).mono (by decide)))
    rw [s.loadFeed_scan_waits img hload hpower hsrc hscan hhead hsize]
    exact ⟨hstream.cfg (by decide), hstream.scan (by decide), honly.keeps fun r hr => u.streamIn_short_reg (l := s.scanTaken l) hsrc hsize hr⟩
  case lost =>
    rw [s.loadFeed_of_lost img hload hpower hlost]
    obtain ⟨hfail, hbusy, hnone, hcause⟩ := s.cfgFail_ends 0x08 0 0 (by decide)
    exact ⟨hfail, hbusy, hnone, hcause, (cfgFail_only s 0x08 0 0).hbm (by decide)⟩
  case checkedPartial =>
    let u := s.stagingOk.secOn l x plain 3 []
    have hload : Only 9 u (u.bayLoading l.bay) := bayLoading_only u l.bay
    have hbay {r : Nat} (h : r < 0x201000) : (u.bayLoading l.bay).reg r = u.reg r := u.bayLoading_reg l.bay (cfgBayStat_ne l.bay h)
    have honly : Only 41 s (u.bayLoading l.bay) :=
      hload.after (by decide) ((State.secOn_only _ _ _ _ _ _).after (by decide) ((stagingOk_only s).mono (by decide)))
    rw [s.partialGo_of_frozen l x plain htarget hfrozen hstarted]
    refine ⟨congrArg Cfg.load (hload.cfg (by decide)), ?_, ?_, fun hheld => u.bayLoading_bayState l.bay hheld, honly.keeps fun r hr => ?_⟩
    · rw [State.f_of_reg (hbay (by decide))]
      exact (s.stagingOk.secOn_stat l x plain 3 [] (by decide)).1
    · rw [State.on_of_reg (hbay (by decide)), State.on_of_reg (s.stagingOk.secOn_reg l x plain 3 [] (by decide))]
      exact s.stagingOk_on
    · simp only [not_or] at hr
      obtain ⟨hstat, hstore, hr⟩ := hr
      rw [u.bayLoading_reg l.bay (Ne.symm hr), s.stagingOk.secOn_reg l x plain 3 [] (Ne.symm hstat), s.stagingOk_reg (Ne.symm hstore)]
  case checkedTables =>
    rw [s.tablesGo_of_checked l hsecs hok hstopped]
    obtain ⟨hphase, hsect⟩ := s.stagingOk.secOn_stat l x.1 x.2 6 (rest.map (fun y => (y.1, some y.2))) (by decide)
    have honly := (s.stagingOk.secOn_only l x.1 x.2 6 (rest.map (fun y => (y.1, some y.2)))).after (m := 33) (by decide)
      ((stagingOk_only s).mono (by decide))
    refine ⟨rfl, hphase, hsect, ?_, honly.keeps fun r hr => ?_⟩
    · rw [State.on_of_reg (s.stagingOk.secOn_reg l x.1 x.2 6 _ (by decide))]
      exact s.stagingOk_on
    · obtain ⟨hstat, hstore⟩ := not_or.1 hr
      rw [s.stagingOk.secOn_reg l x.1 x.2 6 _ (Ne.symm hstat), s.stagingOk_reg (Ne.symm hstore)]

end Sys2Proof.Machine
end

section
/-! SUPPORT. The ends of loads (file 05, R184, R187, R193): the readback of a bay that the device does not have. -/

namespace Sys2Proof.Machine

/-- A PARTIAL load whose readback is due of bay 655,121, which is none of the device's 128: the register of block 2 that would be its own lies
where HIF_IRQ_STAT 4 stands. -/
def farReadback : Load := ⟨1, 0, 655121, 1, 16384, 0, some 0, [], none, some 655121⟩

/-- The state after reset, but this load is in progress. -/
def farReading : State := { State.reset with cfg := { Cfg.init with load := some farReadback } }

theorem cfgBayStat_far : CFG_BAY_STAT 655121 = HIF_IRQ_STAT 4 := by decide

/-- Where no bit of configuration memory has flipped, every frame reads as it was written. -/
theorem mget_meant_of_unflipped (m : List (Nat × Frame)) (h : m.all (fun e => e.2.flip == 0) = true) (j : Nat) :
    (mget m Frame.init j).meant = (mget m Frame.init j).data := by
  have hflip : (mget m Frame.init j).flip = 0 := by
    induction m with
    | nil => rfl
    | cons e m ih =>
      rw [List.all_cons, Bool.and_eq_true, beq_iff_eq] at h
      obtain ⟨hhead, htail⟩ := h
      rw [mget_cons]
      split
      · exact hhead
      · exact ih htail
  rw [Frame.meant, hflip, Nat.zero_mod, Nat.xor_zero]

theorem State.meantCrc_of_unflipped (s : State) (h : s.fab.frames.all (fun e => e.2.flip == 0) = true) (k : Nat) :
    s.meantCrc k = s.bayCrc k :=
  congrArg crcFrames (List.map_congr_left fun _ _ => mget_meant_of_unflipped _ h _)

/-- A readback of a load other than FULL in whose frames nothing has flipped: the CRC and error count of the bay, LOADED, DONE. -/
def State.bayRead (s : State) (l : Load) (k : Nat) : State :=
  let s1 := (s.put (CFG_BAY_CRC_CRC k) (s.bayCrc k)).put (CFG_BAY_STAT_CE_COUNT k) 0
  (s1.setCfg { s1.cfg with load := some { l with readback := none }, bayImage := mset s1.cfg.bayImage 0 k l.id }).bayLoaded k

theorem execBayReadback_of_clean (s : State) {l : Load} {k : Nat} (hload : s.cfg.load = some l) (hk : l.readback = some k) (hop : l.op ≠ 0)
    (hclean : s.fab.frames.all (fun e => e.2.flip == 0) = true) : exec (.bayReadback []) s = .next (s.bayRead l k).cfgDone.settle := by
  have hups : s.frameUpsets [] = s := rfl
  show execBayReadback [] s = _
  simp only [execBayReadback, hload, hk, List.map_nil, hups, s.meantCrc_of_unflipped hclean, ne_eq, not_true, if_false, if_neg hop]
  rfl

/-- EV_CFG_DONE (136). -/
theorem State.cfgDone_irq (s : State) : (s.cfgDone.reg (HIF_IRQ_STAT 4)).toNat.testBit 8 = true := State.raise_irq _ 136

/-- What would be the error count of bay 655,121 is not 0 once an operation has ended. -/
theorem State.cfgDone_farCount (s : State) : s.cfgDone.f (CFG_BAY_STAT_CE_COUNT 655121) ≠ 0 := by
  intro h
  have hirq : fget (s.cfgDone.reg (HIF_IRQ_STAT 4)) 15 0 = 0 := cfgBayStat_far ▸ h
  have hclear := congrArg (Nat.testBit · 8) hirq
  rw [fget_testBit, ← BitVec.testBit_toNat, State.cfgDone_irq] at hclear
  exact absurd hclear (by decide)

/-- Refutes O23: the readback clause puts no bound on the bay, and for one far above the device's 128 the count of corrected errors that it
takes to be 0 is the low half of HIF_IRQ_STAT 4, where the end of the load raises EV_CFG_DONE. -/
theorem not_loadEnds : ¬ Obligations.LoadEnds := by
  unfold Obligations.LoadEnds
  intro h
  have hcalm : farReading.Calm := ⟨rfl, by decide +kernel⟩
  obtain ⟨-, -, -, -, -, hread, -⟩ := h farReading hcalm
  obtain ⟨t, hexec, -, -, hcount, -⟩ := hread farReadback 655121 rfl rfl rfl rfl
  obtain rfl := Host.Outcome.next.inj ((execBayReadback_of_clean farReading (l := farReadback) rfl rfl (by decide) rfl).symm.trans hexec)
  have hafter : (farReading.bayRead farReadback 655121).cfgDone.sec.alarmDue = false :=
    congrArg Security.alarmDue ((cfgDone_only _).sec (by decide))
  rw [State.settle_f hafter (by decide)] at hcount
  exact State.cfgDone_farCount _ hcount

end Sys2Proof.Machine
end

section
/-! SUPPORT. The Caller (file 06, R230, R244, R245, R251): a swap request, the copy of the banks, the queue port. -/

namespace Sys2Proof.Machine

/-! ### Notes of readiness and trace records (R247) -/

section
variable (s : State)

/-- Noting readiness touches the states of tasks alone. -/
theorem State.noteReady_call : s.noteReady.call = { s.call with task := s.noteReady.call.task } := by
  have h : { s.noteReady.call with task := [] } = { s.call with task := [] } :=
    State.each_keeps (fun t => { t.call with task := [] }) _ (fun k _ t => by dsimp only; split_ifs <;> rfl) s
  calc s.noteReady.call = { ({ s.noteReady.call with task := [] } : Caller) with task := s.noteReady.call.task } := rfl
    _ = _ := by rw [h]

theorem State.noteReady_reg (a : Nat) : s.noteReady.reg a = s.reg a := State.reg_congr ((noteReady_only s).regs (by decide)) a

/-- Of the Caller a trace record touches the records that wait alone. -/
theorem State.trace_call (type cls unit task info : Nat) :
    (s.trace type cls unit task info).call = { s.call with trace := (s.trace type cls unit task info).call.trace } := by
  unfold State.trace State.when
  dsimp only
  split_ifs <;> rfl

theorem State.trace_reg (type cls unit task info : Nat) {a : Nat} (h : CALLER_TRACE_LOST ≠ a) :
    (s.trace type cls unit task info).reg a = s.reg a := by
  unfold State.trace State.when
  dsimp only
  split_ifs
  · exact State.reg_put_ne _ _ h
  · rfl
  · rfl

/-! ### A swap request (R244, R245) -/

theorem State.swapMode_pending (mode : Nat) : (s.put CALLER_SWAP_MODE mode).on CALLER_SWAP_PENDING = s.on CALLER_SWAP_PENDING :=
  s.on_put_disj _ rfl (by decide) (by decide) (by decide)

theorem State.swapMode_copying (mode : Nat) : (s.put CALLER_SWAP_MODE mode).on CALLER_SWAP_SYNC_BUSY = s.on CALLER_SWAP_SYNC_BUSY :=
  s.on_put_disj _ rfl (by decide) (by decide) (by decide)

theorem State.swapRequest_of_pending (mode : Nat) (h : s.on CALLER_SWAP_PENDING = true) :
    s.swapRequest mode = (s.put CALLER_SWAP_MODE mode).swapRefuse := if_pos ((s.swapMode_pending mode).trans h)

/-- A swap that waits for the next bow. -/
def State.swapAwaited (round : Nat) : State :=
  ((s.put CALLER_SWAP_MODE 1).setCall { s.call with swap := some (1, round, false) }).put CALLER_SWAP_PENDING 1

theorem State.swapRequest_nextBow (h : s.on CALLER_SWAP_PENDING = false) : ∃ round, s.swapRequest 1 = s.swapAwaited round := by
  have hidle : ¬ (s.put CALLER_SWAP_MODE 1).on CALLER_SWAP_PENDING = true := by rw [s.swapMode_pending, h]; decide
  exact ⟨_, if_neg hidle⟩

theorem State.swapRequest_now (h : s.on CALLER_SWAP_PENDING = false) (hstop : s.stopped = true) :
    s.swapRequest 2 = (s.put CALLER_SWAP_MODE 2).callerSwapNow.noteReady := by
  have hidle : ¬ (s.put CALLER_SWAP_MODE 2).on CALLER_SWAP_PENDING = true := by rw [s.swapMode_pending, h]; decide
  have hstopped : (s.put CALLER_SWAP_MODE 2).stopped = true := by
    have hlat : (s.put CALLER_SWAP_MODE 2).latState = s.latState := s.f_put_ne _ (by decide)
    rw [State.stopped, hlat]
    exact hstop
  exact (if_neg hidle).trans (if_pos hstopped)

/-- The exchange of the banks without its trace record, where no copy runs. -/
def State.banksSwapped : State :=
  ((s.setCall { s.call with active := s.call.shadow, shadow := s.call.active, swap := none, queueUe := [] }).put CALLER_SWAP_PENDING 0).landHeld
    s.call.heldWr

theorem State.banksSwapped_only : Only 65 s s.banksSwapped :=
  (landHeld_only _ _).after (by decide) ((put_only _ _ _).after (by decide) ((setCall_only _ _).mono (by decide)))

theorem State.banksSwapped_pending : s.banksSwapped.on CALLER_SWAP_PENDING = false :=
  State.on_put_zero (s.setCall _) rfl (by decide)

theorem State.banksSwapped_reg {a : Nat} (h : CALLER_SWAP ≠ a) : s.banksSwapped.reg a = s.reg a :=
  State.reg_put_ne (s.setCall _) 0 h

theorem State.callerSwapNow_of_idle (h : s.on CALLER_SWAP_SYNC_BUSY = false) : s.callerSwapNow = s.banksSwapped.trace 10 0 0 0 0 := by
  have hidle (c : Caller) : ¬ ((s.setCall c).put CALLER_SWAP_PENDING 0).on CALLER_SWAP_SYNC_BUSY = true := by
    rw [State.on_put_disj _ _ (by rfl) (by decide) (by decide) (by decide), State.on_congr (State.setCall_regs _ _), h]
    decide
  exact congrArg (State.trace · 10 0 0 0 0) (if_neg (hidle _))

theorem swapGo_nextBow (h : s.on CALLER_SWAP_PENDING = false) :
    ∃ t, exec (.swapGo 1) s = .next t ∧ (t.call.swap.map (fun e => e.1)) = some 1 ∧ t.on CALLER_SWAP_PENDING = true ∧
      t.call.active = s.call.active ∧ t.call.shadow = s.call.shadow ∧ Keeps (fun a => a = CALLER_SWAP) [.call] s t := by
  obtain ⟨round, hswap⟩ := s.swapRequest_nextBow h
  have honly : Only 65 s (s.swapAwaited round) :=
    (put_only _ _ _).after (by decide) ((setCall_only _ _).after (by decide) ((put_only _ _ _).mono (by decide)))
  refine ⟨_, congrArg Host.Outcome.next hswap, rfl, State.on_put_one _ rfl (by decide), rfl, rfl, honly.keeps fun a ha => ?_⟩
  rw [State.swapAwaited, State.reg_put_ne _ _ (Ne.symm ha), State.reg_congr (State.setCall_regs _ _), State.reg_put_ne _ _ (Ne.symm ha)]

theorem swapGo_now (h : s.on CALLER_SWAP_PENDING = false) (hcopy : s.on CALLER_SWAP_SYNC_BUSY = false) (hstop : s.stopped = true) :
    ∃ t, exec (.swapGo 2) s = .next t ∧ t.call.active = s.call.shadow ∧ t.call.shadow = s.call.heldWr.foldl Bank.land s.call.active ∧
      t.call.swap = none ∧ t.on CALLER_SWAP_PENDING = false ∧ Keeps (fun a => a = CALLER_SWAP ∨ a = CALLER_TRACE_LOST) [.call] s t := by
  have hidle : (s.put CALLER_SWAP_MODE 2).on CALLER_SWAP_SYNC_BUSY = false := (s.swapMode_copying 2).trans hcopy
  have hexec := (s.swapRequest_now h hstop).trans (congrArg State.noteReady (State.callerSwapNow_of_idle _ hidle))
  have hreg {a : Nat} (ha : CALLER_TRACE_LOST ≠ a) :
      (((s.put CALLER_SWAP_MODE 2).banksSwapped.trace 10 0 0 0 0).noteReady).reg a = (s.put CALLER_SWAP_MODE 2).banksSwapped.reg a :=
    (State.noteReady_reg _ a).trans (State.trace_reg _ _ _ _ _ _ ha)
  have honly : Only 65 s ((s.put CALLER_SWAP_MODE 2).banksSwapped.trace 10 0 0 0 0).noteReady :=
    (noteReady_only _).after (by decide) ((trace_only _ _ _ _ _ _).after (by decide)
      ((State.banksSwapped_only _).after (by decide) ((put_only _ _ _).mono (by decide))))
  have hbanks (c : Caller) (hc : c = ((s.put CALLER_SWAP_MODE 2).banksSwapped.trace 10 0 0 0 0).noteReady.call) :
      c.active = s.call.shadow ∧ c.shadow = s.call.heldWr.foldl Bank.land s.call.active ∧ c.swap = none := by
    rw [hc, State.noteReady_call, State.trace_call]
    exact ⟨rfl, rfl, rfl⟩
  obtain ⟨hactive, hshadow, hnone⟩ := hbanks _ rfl
  refine ⟨_, congrArg Host.Outcome.next hexec, hactive, hshadow, hnone, ?_, honly.keeps fun a ha => ?_⟩
  · rw [State.on_of_reg (hreg (by decide))]
    exact State.banksSwapped_pending _
  · obtain ⟨hswap, hlost⟩ := not_or.1 ha
    rw [hreg (Ne.symm hlost), State.banksSwapped_reg _ (Ne.symm hswap), State.reg_put_ne _ _ (Ne.symm hswap)]

theorem State.swapRefuse_reg {a : Nat} (hswap : a ≠ CALLER_SWAP) (hirq : a ≠ HIF_IRQ_STAT 4) : s.swapRefuse.reg a = s.reg a :=
  (State.raise_reg _ hirq).trans (s.reg_put_ne _ (Ne.symm hswap))

theorem swapGo_refused (mode : Nat) (h : s.on CALLER_SWAP_PENDING = true) :
    ∃ t, exec (.swapGo mode) s = .next t ∧ t.on CALLER_SWAP_REFUSED = true ∧ (t.reg (HIF_IRQ_STAT 4)).toNat.testBit 20 = true ∧
      t.call = s.call ∧ Keeps (fun a => a = CALLER_SWAP ∨ a = HIF_IRQ_STAT 4) [.host, .tail, .mesh] s t := by
  have hexec := s.swapRequest_of_pending (mode % 4) h
  have honly : Only 132609 s (s.put CALLER_SWAP_MODE (mode % 4)).swapRefuse :=
    (swapRefuse_only _).after (by decide) ((put_only _ _ _).mono (by decide))
  refine ⟨_, congrArg Host.Outcome.next hexec, ?_, State.raise_irq _ 148, honly.call (by decide), honly.keeps fun a ha => ?_⟩
  · exact (State.raise_on _ (by decide)).trans (State.on_put_one _ rfl (by decide))
  · obtain ⟨hswap, hirq⟩ := not_or.1 ha
    exact (State.swapRefuse_reg _ hswap hirq).trans (s.reg_put_ne _ (Ne.symm hswap))

/-! ### The copy of the active banks (R245) -/

theorem syncGo_begins : ∃ t, exec .syncGo s = .next t ∧ t.on CALLER_SWAP_SYNC_BUSY = true ∧ Keeps (fun a => a = CALLER_SWAP) [] s t :=
  ⟨_, rfl, s.on_put_one rfl (by decide), (put_only s _ _).keeps fun _ ha => s.reg_put_ne _ (Ne.symm ha)⟩

/-- The state at the end of a copy that no swap follows. -/
def State.banksCopied : State :=
  ((s.setCall { s.call with shadow := s.call.active }).put CALLER_SWAP_SYNC_BUSY 0).landHeld s.call.heldWr

theorem execSyncDone_of_alone (hcopy : s.on CALLER_SWAP_SYNC_BUSY = true) (h : s.on CALLER_SWAP_PENDING = false) :
    exec .syncDone s = .next s.banksCopied := by
  have hidle (c : Caller) : ¬ ((s.setCall c).put CALLER_SWAP_SYNC_BUSY 0).on CALLER_SWAP_PENDING = true := by
    rw [State.on_put_disj _ _ (by rfl) (by decide) (by decide) (by decide), State.on_congr (State.setCall_regs _ _), h]
    decide
  exact congrArg Host.Outcome.next ((if_pos hcopy).trans (if_neg (hidle _)))

theorem syncDone_lands (hcopy : s.on CALLER_SWAP_SYNC_BUSY = true) (h : s.on CALLER_SWAP_PENDING = false) :
    ∃ t, exec .syncDone s = .next t ∧ t.call = { s.call with shadow := s.call.heldWr.foldl Bank.land s.call.active, heldWr := [] } ∧
      t.on CALLER_SWAP_SYNC_BUSY = false ∧ Keeps (fun a => a = CALLER_SWAP) [.call] s t := by
  have honly : Only 65 s s.banksCopied :=
    (landHeld_only _ _).after (by decide) ((put_only _ _ _).after (by decide) ((setCall_only _ _).mono (by decide)))
  refine ⟨_, execSyncDone_of_alone s hcopy h, rfl, ?_, honly.keeps fun a ha => ?_⟩
  · exact State.on_put_zero (s.setCall _) rfl (by decide)
  · exact State.reg_put_ne (s.setCall _) 0 (Ne.symm ha)

end

/-! ### Queues (R230) -/

section
variable (s : State) {q : Nat}

@[simp] theorem State.cqueue_setQueue_self (x : CQueue) : (s.setQueue q x).cqueue q = x := mget_mset_self _ _ _ _

theorem State.cqueue_setQueue_ne {p : Nat} (x : CQueue) (h : p ≠ q) : (s.setQueue q x).cqueue p = s.cqueue p := mget_mset_ne _ _ _ _ _ _ h.symm

/-- The state after a push of `b` onto the on-chip part of queue `q`. -/
def State.pushed (q : Nat) (b : Bundle) : State :=
  (s.setQueue q ⟨(s.cqueue q).chip ++ [b], (s.cqueue q).spilled, ((s.cqueue q).seq + 1) % 2 ^ 16⟩).queuePeak q

theorem State.push_of_room (b : Bundle) (h : s.QueueRoom q) : s.push q b = some (s.pushed q b) := by
  obtain ⟨hdirect, hcap, hchip, hspill⟩ := h
  have hwords : ¬ s.queueDirect q = true := by rw [hdirect]; decide
  exact (if_neg hwords).trans ((if_pos hcap).trans (if_pos ⟨hchip, hspill⟩))

theorem State.pushed_only (b : Bundle) : Only 65 s (s.pushed q b) := (queuePeak_only _ _).after (by decide) ((setQueue_only _ _ _).mono (by decide))

theorem State.pushed_cqueue_self (b : Bundle) :
    (s.pushed q b).cqueue q = ⟨(s.cqueue q).chip ++ [b], (s.cqueue q).spilled, ((s.cqueue q).seq + 1) % 2 ^ 16⟩ := s.cqueue_setQueue_self _

theorem State.pushed_cqueue_ne {p : Nat} (b : Bundle) (h : p ≠ q) : (s.pushed q b).cqueue p = s.cqueue p := s.cqueue_setQueue_ne _ h

theorem State.pushed_reg {a : Nat} (b : Bundle) (h : CALLER_QUEUE_STAT q ≠ a) : (s.pushed q b).reg a = s.reg a := State.reg_put_ne _ _ h

end

/-! ### The queue port (R251) -/

section
variable (s : State)

/-- The queue that the port names. -/
abbrev State.portQueue : Nat := s.f CALLER_QPORT_SEL_QUEUE

theorem State.portQueue_lt : s.portQueue < 2 ^ 14 := BitVec.isLt _

theorem qportPush_pushes (hcalm : s.Calm) (poison : Bool) (hstop : s.stopped = true) (hvalid : s.queueValid s.portQueue = true)
    (hroom : s.QueueRoom s.portQueue) :
    ∃ t, exec (.qportPush poison) s = .next t ∧ (t.cqueue s.portQueue).chip = (s.cqueue s.portQueue).chip ++
        [⟨BitVec.ofNat 64 (s.pair CALLER_QPORT_DATA_LO CALLER_QPORT_DATA_HI), poison⟩] ∧
      (∀ q : Nat, q ≠ s.portQueue → t.cqueue q = s.cqueue q) ∧ Keeps (fun a => a = CALLER_QUEUE_STAT s.portQueue) [.call] s t := by
  obtain ⟨halarm, haim⟩ := hcalm
  generalize hb : (⟨BitVec.ofNat 64 (s.pair CALLER_QPORT_DATA_LO CALLER_QPORT_DATA_HI), poison⟩ : Bundle) = b
  have hport : (s.qportPush poison).1 = s.pushed s.portQueue b := by
    simp [State.qportPush, hstop, hvalid, hb, s.push_of_room b hroom]
  have hpower : CALLER_QUEUE_STAT s.portQueue ≠ BAL_PWR_STAT := by
    have := s.portQueue_lt
    unfold CALLER_QUEUE_STAT BAL_PWR_STAT
    omega
  have honly := s.pushed_only (q := s.portQueue) b
  have hsettle : (s.pushed s.portQueue b).settle = s.pushed s.portQueue b :=
    State.settle_calm _ ((congrArg Security.alarmDue (honly.sec (by decide))).trans halarm)
      ((State.powerAim_congr (s.pushed_reg b hpower)).trans haim)
  exact ⟨_, congrArg Host.Outcome.next ((congrArg State.settle hport).trans hsettle), congrArg CQueue.chip (s.pushed_cqueue_self b),
    fun _ hq => s.pushed_cqueue_ne b hq, honly.keeps fun _ ha => s.pushed_reg b (Ne.symm ha)⟩

theorem qportPush_drops (poison : Bool) (h : s.stopped = false ∨ s.queueValid s.portQueue = false) :
    ∃ t, exec (.qportPush poison) s = .next t ∧ t = s.settle := by
  refine ⟨_, rfl, congrArg State.settle ?_⟩
  unfold State.qportPush
  obtain h | h := h
  · rw [h]
    rfl
  · cases s.stopped <;> simp [h]

/-- The state after a pop of `b` at the port, `rest` being what stays on chip. -/
def State.portPopped (b : Bundle) (rest : List Bundle) : State :=
  ((s.setQueue s.portQueue { s.cqueue s.portQueue with chip := rest }).setReg CALLER_QPORT_DATA_LO (b.data.setWidth 32)).setReg
    CALLER_QPORT_DATA_HI (b.data.extractLsb' 32 32)

theorem State.qportPop_of_head {b : Bundle} {rest : List Bundle} (up : List (Nat × Nat)) (hstop : s.stopped = true)
    (hvalid : s.queueValid s.portQueue = true) (hchip : (s.cqueue s.portQueue).chip = b :: rest) :
    (s.qportPop .ok up).1 = s.portPopped b rest := by
  simp [State.qportPop, State.pop, State.head, State.storeCheck, State.portPopped, hstop, hvalid, hchip]

theorem qportPop_pops {b : Bundle} {rest : List Bundle} (up : List (Nat × Nat)) (hstop : s.stopped = true)
    (hvalid : s.queueValid s.portQueue = true) (hchip : (s.cqueue s.portQueue).chip = b :: rest) :
    ∃ t, exec (.qportPop .ok up) s = .next t ∧ (t.cqueue s.portQueue).chip = rest ∧ t.reg CALLER_QPORT_DATA_LO = b.data.extractLsb' 0 32 ∧
      t.reg CALLER_QPORT_DATA_HI = b.data.extractLsb' 32 32 ∧ (∀ q : Nat, q ≠ s.portQueue → t.cqueue q = s.cqueue q) ∧
      Keeps (fun a => a = CALLER_QPORT_DATA_LO ∨ a = CALLER_QPORT_DATA_HI) [.call] s t := by
  have honly : Only 65 s (s.portPopped b rest) :=
    (setReg_only _ _ _).after (by decide) ((setReg_only _ _ _).after (by decide) ((setQueue_only _ _ _).mono (by decide)))
  refine ⟨_, congrArg Host.Outcome.next (s.qportPop_of_head up hstop hvalid hchip), ?_, ?_, State.reg_setReg_self _ _ _,
    fun _ hq => s.cqueue_setQueue_ne _ hq, honly.keeps fun a ha => ?_⟩
  · exact congrArg CQueue.chip (s.cqueue_setQueue_self (q := s.portQueue) { s.cqueue s.portQueue with chip := rest })
  · rw [State.portPopped, State.reg_setReg_ne _ _ (by decide), State.reg_setReg_self, BitVec.setWidth_eq_extractLsb' (by decide)]
  · obtain ⟨hlo, hhi⟩ := not_or.1 ha
    exact (State.reg_setReg_ne _ _ (Ne.symm hhi)).trans (State.reg_setReg_ne _ _ (Ne.symm hlo))

theorem State.qportPop_of_empty (e : Ecc) (up : List (Nat × Nat)) (h : s.queueValid s.portQueue = false ∨ s.queueCount s.portQueue = 0) :
    (s.qportPop e up).1 = s := by
  obtain h | h := h
  · cases hstop : s.stopped <;> simp [State.qportPop, h, hstop]
  · obtain ⟨hchip, hspill⟩ := Nat.add_eq_zero_iff.1 h
    have hback : s.spillBack s.portQueue up = s := if_neg fun hc => hc.1 hspill
    cases hstop : s.stopped <;> cases hvalid : s.queueValid s.portQueue <;>
      simp [State.qportPop, State.pop, State.head, List.length_eq_zero_iff.1 hchip, hback, hstop, hvalid]

end

/-- Settles O28: a lemma for each clause. -/
theorem callerSwapAndPort : Obligations.CallerSwapAndPort := by
  unfold Obligations.CallerSwapAndPort
  exact fun s hcalm => ⟨swapGo_nextBow s, swapGo_now s, swapGo_refused s, syncGo_begins s, syncDone_lands s, qportPush_pushes s hcalm,
    fun _ _ up => qportPop_pops s up, fun e up h => ⟨_, rfl, s.qportPop_of_empty e up h⟩, qportPush_drops s⟩

end Sys2Proof.Machine
end

section
/-! SUPPORT. Queues past the 16,384 of the Caller (file 06, R228, R251): the status register of such a queue lies at the offset of another
register. -/

namespace Sys2Proof.Machine

/-! ### A bundle for a queue whose status lies in the block of lattice control (R232, R264) -/

/-- The state after the head `e` of pool LOCAL of port `n` has been presented. -/
def State.localPresented (s : State) (n : Nat) (e : Entry) (rest : List PoolEntry) : State :=
  (((s.setPort n { s.portOf n with turn := some s.fig.toNat }).setBulkPool n 0 rest).poolFree n 0 1).arrive e .ok

/-- With pool UL empty a port presents the head of pool LOCAL, where its valid queue has room. -/
theorem execBundleArrival_of_local (s : State) {n k : Nat} {e : Entry} {rest : List PoolEntry} (hul : s.urgPool n 3 = [])
    (hturn : (s.portOf n).turn ≠ some s.fig.toNat) (hlocal : s.bulkPool n 0 = ⟨k, e⟩ :: rest) (hpresent : s.presentable e = true)
    (hroom : s.QueueRoom e.queue) : exec (.bundleArrival n .ok false) s = .next (s.localPresented n e rest) := by
  have hidle : s.ulTurn n = s := by rw [State.ulTurn, if_neg hturn, hul]
  have hnone : s.arriving n 3 = none := by simp [State.arriving, hul]
  have hsome : s.arriving n 0 = some e := by simp [State.arriving, hlocal, hpresent, hroom.2.1]
  have htail (p : Port) (hp : p.bulk = (s.portOf n).bulk) : ((s.setPort n p).bulkPool n 0).tail = rest := by
    rw [State.bulkPool, State.portOf_setPort_self, hp]
    exact congrArg List.tail hlocal
  show execBundleArrival n .ok false s = _
  simp [execBundleArrival, hidle, hnone, hsome, hturn, State.poolCheck, htail, State.localPresented]

/-- A valid queue, of a number past those of the device, with a bundle for it on port 0. -/
def farQueueing : State :=
  { State.reset with
    regs := [(CALLER_CTRL, 2 ^ 31), (LAT_STAT, 3 * 2 ^ 29)]
    call := { Caller.init with active := ⟨[], [], [(294912, 2 ^ 31)]⟩ }
    port := [(0, { Port.init with bulk := [(0, [⟨0, ⟨0, 147456, 0, false, false, false, 0⟩⟩])] })] }

/-- PEAK of that queue counts the push, in LAT_NODE. -/
theorem farQueueing_moves_identity : farQueueing.Calm ∧ farQueueing.reg LAT_NODE = 0 ∧
    (farQueueing.localPresented 0 ⟨0, 147456, 0, false, false, false, 0⟩ []).reg LAT_NODE = 2 ^ 16 := by
  decide +kernel

/-- Refutes O31: the clause of BUNDLE_ARRIVAL does not ask that the bundle's queue is one of the device, and PEAK of queue 147456, which a
push counts (R251), lies in LAT_NODE, outside the Caller's block. -/
theorem not_latticeTraffic : ¬ Obligations.LatticeTraffic := by
  unfold Obligations.LatticeTraffic
  intro h
  obtain ⟨hcalm, hbefore, hafter⟩ := farQueueing_moves_identity
  obtain ⟨-, -, -, -, -, -, -, -, -, -, harrival, -⟩ := h farQueueing hcalm
  have hturn : (farQueueing.portOf 0).turn ≠ some farQueueing.fig.toNat := by decide +kernel
  have hroom : farQueueing.QueueRoom 147456 := by decide +kernel
  obtain ⟨t, hexec, -, -, -, -, -, hregs, -⟩ := harrival 0 0 ⟨0, 147456, 0, false, false, false, 0⟩ [] rfl hturn rfl (by decide +kernel)
    (by decide +kernel) hroom
  have hexec' := execBundleArrival_of_local farQueueing rfl hturn rfl (by decide +kernel) hroom
  obtain rfl : _ = t := Host.Outcome.next.inj (hexec'.symm.trans hexec)
  have hsame := hregs LAT_NODE (by decide)
  rw [hbefore, hafter] at hsame
  exact absurd hsame (by decide)

/-! ### A readback into a queue whose status lies in the block of the Tail (R236, R411, R551) -/

/-- A spilled entry of a queue past those of the device, its line under a tag that does not verify, while a transfer of the Tail runs. -/
def farSpilling : State :=
  { State.reset with
    regs := [(MEM_STAT, 2 ^ 30)]
    call := { Caller.init with queue := [(671770, ⟨[], 1, 1⟩)] }
    tail := { Tail.init with xfer := some ⟨false, 0, 0, 0, 0⟩ }
    hbm := { Hbm.init with
      keys := some ⟨0, 0⟩, cache := [(1510285315, some ⟨Vector.replicate 8 (BitVec.ofNat 72 (encode64 (1 + 2 ^ 32) false)), false⟩)] } }

theorem farSpilling_calm : farSpilling.Calm := by decide +kernel

theorem farSpilling_read_fails :
    (farSpilling.hubRead 18 (farSpilling.spillAddr 671770 (((farSpilling.cqueue 671770).seq + 2 ^ 16 -
      (farSpilling.cqueue 671770).spilled) % 2 ^ 16)) 16 []).2.err = true := by decide +kernel

/-- The alarm of the tag ends the transfer, and with it clears BUSY of TAIL_EXP_STAT, where ERR of the queue stands. -/
theorem farSpilling_err_clears :
    ((farSpilling.spillBack 671770 []).noteReady.settle).on (CALLER_QUEUE_STAT_ERR 671770) = false := by decide +kernel

/-- Refutes O27: the clause of a readback that fails does not ask that the queue is one of the device. ERR of queue 671770 is BUSY of
TAIL_EXP_STAT; the line's tag does not verify, so that an alarm follows the command (R411, R551), and the end of the transfer clears it. -/
theorem not_callerArbiter : ¬ Obligations.CallerArbiter := by
  unfold Obligations.CallerArbiter
  intro h
  obtain ⟨-, -, -, hreadback, -⟩ := h farSpilling farSpilling_calm
  obtain ⟨t, hexec, -, herr, -⟩ := hreadback 671770 [] (by decide +kernel) (by decide +kernel) farSpilling_read_fails
  obtain rfl : (farSpilling.spillBack 671770 []).noteReady.settle = t := Host.Outcome.next.inj hexec
  exact absurd (farSpilling_err_clears.symm.trans herr) (by decide)

end Sys2Proof.Machine
end

section
/-! SUPPORT. Lattice control (file 07): what tokens and messages leave alone (R257, R260, R270), and the commands that start and stop the
rounds (R267, R271, R272, R274, R282). -/

namespace Sys2Proof.Machine

/-! ### Tokens and messages (R257, R260, R270) -/

/-- A register of the blocks LATTICE and GLEIS, or of their events. -/
abbrev LatReg (a : Nat) : Prop := InBlocks [7, 8] a ∨ a = HIF_IRQ_STAT 4 ∨ a = HIF_IRQ_STAT 5

theorem latStat_latReg : LatReg LAT_STAT := .inl (by decide)

/-- From `s` to `t` tokens and messages were given to lattice control: of its own state only what waits for a port has changed, and whether
a destination without a route has been logged in this round; of the registers only that log and the event's bit. -/
structure State.Sent (s t : State) : Prop where
  only : Only 132993 s t
  reg : ∀ a, a ≠ LAT_ERR_LOG → a ≠ HIF_IRQ_STAT 4 → t.reg a = s.reg a
  lat : t.lat = { s.lat with out := t.lat.out, routeSaid := t.lat.routeSaid }

namespace State.Sent

theorem refl (s : State) : s.Sent s := ⟨.refl, fun _ _ _ => rfl, rfl⟩

theorem trans {s t u : State} (h : s.Sent t) (g : t.Sent u) : s.Sent u where
  only := h.only.trans g.only
  reg a hlog hirq := (g.reg a hlog hirq).trans (h.reg a hlog hirq)
  lat := by
    rw [g.lat, h.lat]

theorem after {s t u : State} (g : t.Sent u) (h : s.Sent t) : s.Sent u := h.trans g

theorem each {α : Type} {g : α → State → State} (hg : ∀ x t, State.Sent t (g x t)) (l : List α) (s : State) : s.Sent (s.each l g) := by
  unfold State.each
  induction l generalizing s with
  | nil => exact .refl s
  | cons x l ih => exact (hg x s).trans (ih (g x s))

/-- An operation that changes ports only. -/
theorem of_ports {s t : State} (h : Only 256 s t) : s.Sent t where
  only := h.mono (by decide)
  reg a _ _ := State.reg_congr (h.regs (by decide)) a
  lat := by rw [h.lat (by decide)]

theorem latState {s t : State} (h : s.Sent t) : t.latState = s.latState := State.f_of_reg (h.reg LAT_STAT (by decide) (by decide))

theorem latReg {s t : State} (h : s.Sent t) (a : Nat) (ha : ¬ LatReg a) : t.reg a = s.reg a :=
  h.reg a (fun e => ha (e ▸ .inl (by decide))) (fun e => ha (.inr (.inl e)))

/-- The frame of an operation of lattice control that ends with sending. -/
theorem keeps_after {s t u : State} (g : t.Sent u) (honly : Only 132993 s t) (hreg : ∀ a, ¬ LatReg a → t.reg a = s.reg a) :
    Keeps LatReg [.lat, .port, .host, .tail, .mesh] s u :=
  (honly.trans g.only).keeps fun a ha => (g.latReg a ha).trans (hreg a ha)

end State.Sent

section
variable (s : State)

theorem State.setLat_sent (out : List (Nat × Urgent)) (said : Bool) : s.Sent (s.setLat { s.lat with out := out, routeSaid := said }) :=
  ⟨(setLat_only _ _).mono (by decide), fun _ _ _ => rfl, rfl⟩

theorem State.latErr_reg (cause port node : Nat) (here : Bool) {a : Nat} (hlog : a ≠ LAT_ERR_LOG) (hirq : a ≠ HIF_IRQ_STAT 4) :
    (s.latErr cause port node here).reg a = s.reg a := by
  refine (State.raise_reg _ hirq).trans (State.log_reg _ (Ne.symm hlog) (Ne.symm hlog) fun u => ?_)
  simp only [State.reg_put, if_neg (Ne.symm hlog)]

theorem State.latErr_sent (cause port node : Nat) (here : Bool) : s.Sent (s.latErr cause port node here) where
  only := (latErr_only _ _ _ _ _).mono (by decide)
  reg _ hlog hirq := s.latErr_reg cause port node here hlog hirq
  lat := by rw [(latErr_only s cause port node here).lat (by decide)]

theorem State.routeInvalid_sent (dest : Nat) (port : Option Nat) : s.Sent (s.routeInvalid dest port) := by
  unfold State.routeInvalid
  split
  · exact .refl s
  · exact (State.latErr_sent _ _ _ _ _).after (s.setLat_sent _ _)

theorem State.latTry_sent (k : Nat) (x : Nat × Urgent) : s.Sent (s.latTry k x).1 := by
  unfold State.latTry
  split
  · exact s.routeInvalid_sent _ _
  split
  · exact .refl s
  next t h => exact .of_ports (enqUrgent_only s _ _ _ t h)

theorem latPumpList_sent (k : Nat) (l kept : List (Nat × Urgent)) (s : State) : s.Sent (latPumpList k l kept s) := by
  induction l generalizing k kept s with
  | nil => exact s.setLat_sent _ _
  | cons x l ih =>
    unfold latPumpList
    split
    · exact ih _ _ _
    · dsimp only
      split
      · exact (s.latTry_sent k x).trans (ih _ _ _)
      · exact (s.latTry_sent k x).trans (ih _ _ _)

theorem State.latSend_sent (u : Urgent) : s.Sent (s.latSend u) := (latPumpList_sent _ _ _ _).after (s.setLat_sent _ _)

theorem State.sendTokens_sent (type round : Nat) : s.Sent (s.sendTokens type round) := by
  unfold State.sendTokens
  split
  · exact .each (fun _ t => t.latSend_sent _) _ s
  · exact .refl s

theorem State.sendMsg_sent (m : Msg) : s.Sent (s.sendMsg m) := .each (fun _ t => t.latSend_sent _) _ s

end

/-! ### START and RESUME (R271, R272) -/

section
variable (s : State)

theorem State.stopped_of_latState_one {s : State} (h : s.latState = 1) : s.stopped = true := by simp [State.stopped, h]

@[simp] theorem State.setTarget_lat (o : Option Nat) : (s.setTarget o).lat = { s.lat with target := o } := rfl

theorem State.setTarget_reg (o : Option Nat) {a : Nat} (h : LAT_STAT ≠ a) : (s.setTarget o).reg a = s.reg a := State.reg_put_ne _ _ h

theorem State.setTarget_latState (o : Option Nat) : (s.setTarget o).latState = s.latState :=
  State.f_put_disj (s.setLat _) _ rfl (by decide) (by decide) (by decide)

/-- The node awaits beat `b` of a START, with a stop target where one is given. -/
def State.startAwaits (b : Nat) (target : Option Nat) : State :=
  let s1 := if target.isSome then s.setTarget target else s
  (s1.put LAT_STAT_STATE 2).setLat { s1.lat with beat := some b, startDue := false, startFig := s.fig.toNat + 2 }

/-- A START whose beat is ahead, on a node that nothing keeps stopped. -/
theorem State.actStart_of_ahead {m : Msg} (port : Option Nat) (hstopped : s.latState = 1) (hround : m.round = s.round.toNat)
    (hreel : s.f TAIL_REEL_STAT_STATE < 2) (halarm : s.alarmed = false)
    (hahead : 0 < sext 16 (m.beat + 65536 - s.f LAT_STAT_BEAT_COUNT)) :
    s.actStart m port = s.startAwaits m.beat (if m.hasTarget then some m.target else none) := by
  have hnotnow : sext 16 (m.beat + 65536 - s.f LAT_STAT_BEAT_COUNT) ≠ 0 := by omega
  have hnotpast : ¬ sext 16 (m.beat + 65536 - s.f LAT_STAT_BEAT_COUNT) < 0 := by omega
  have hfree : ¬ 2 ≤ s.f TAIL_REEL_STAT_STATE := by omega
  have hset (u : State) (hu : u.latState = 1) : u.setLatState 2 = u.put LAT_STAT_STATE 2 :=
    State.setLatState_of_stopped _ 2 (State.stopped_of_latState_one hu)
  have htarget := (s.setTarget_latState (some m.target)).trans hstopped
  cases ht : m.hasTarget <;>
    simp [State.actStart, State.startAwaits, State.when, hstopped, hround, hfree, halarm, hnotpast, hnotnow, hset, htarget, ht]

theorem State.startAwaits_latState (b : Nat) (o : Option Nat) : (s.startAwaits b o).latState = 2 := by
  exact State.f_put (x := LAT_STAT_STATE) (if o.isSome then s.setTarget o else s) 2 (by decide) (by decide)

theorem State.startAwaits_lat (b : Nat) (o : Option Nat) :
    (s.startAwaits b o).lat =
      { s.lat with target := if o.isSome then o else s.lat.target, beat := some b, startDue := false, startFig := s.fig.toNat + 2 } := by
  unfold State.startAwaits
  cases o <;> rfl

theorem State.startAwaits_reg (b : Nat) (o : Option Nat) {a : Nat} (h : LAT_STAT ≠ a) : (s.startAwaits b o).reg a = s.reg a := by
  refine (State.reg_put_ne (x := LAT_STAT_STATE) _ 2 h).trans ?_
  split
  · exact s.setTarget_reg _ h
  · rfl

theorem State.startAwaits_only (b : Nat) (o : Option Nat) : Only 129 s (s.startAwaits b o) :=
  (setLat_only _ _).after (by decide) ((put_only _ _ _).after (by decide) (Only.ite (setTarget_only _ _) .refl))

/-- The node has taken the next SEQ for a message of its own (R270). -/
def State.numbered : State :=
  s.setLat { s.lat with seq := (s.lat.seq + 1) % 2 ^ 16, seen := mset s.lat.seen none s.nodeId (some ((s.lat.seq + 1) % 2 ^ 16)) }

theorem State.nextMsg_state (type round target beat : Nat) (isMatch hasTarget : Bool) :
    (s.nextMsg type round target beat isMatch hasTarget).1 = s.numbered := rfl

/-- A beat that is `l` ahead of `b`, modulo 65,536, has not passed. -/
theorem sext_beat_ahead {b l : Nat} (hb : b < 65536) (hpos : 0 < l) (hl : l < 32768) : 0 < sext 16 ((b + l) % 65536 + 65536 - b) := by
  have hdiff : ((b + l) % 65536 + 65536 - b) % 65536 = l := by omega
  simp [sext, hdiff, hl, hpos]

/-- What LAT_START and LAT_RESUME do where nothing keeps the node stopped. -/
def State.Starts (s t : State) (steps : Nat) : Prop :=
  t.latState = 2 ∧ t.lat.target = (if steps % 2 ^ 16 = 0 then s.lat.target else some ((s.round.toNat + steps % 2 ^ 16) % 2 ^ 48)) ∧
    t.lat.beat = some ((s.f LAT_STAT_BEAT_COUNT + s.f LAT_LEAD_START_LEAD) % 2 ^ 16) ∧ t.lat.startDue = false ∧
    t.lat.seq = (s.lat.seq + 1) % 2 ^ 16 ∧ Keeps LatReg [.lat, .port, .host, .tail, .mesh] s t

/-- The beat that lies START_LEAD ahead (R271). -/
def State.startBeat : Nat := (s.f LAT_STAT_BEAT_COUNT + s.f LAT_LEAD_START_LEAD) % 2 ^ 16

/-- The stop target of a START with STEPS (R272). -/
def State.stepsTarget (steps : Nat) : Option Nat :=
  if (steps != 0) = true then some ((s.round.toNat + steps) % 2 ^ 48) else none

theorem State.stepsTarget_or (steps : Nat) (o : Option Nat) : (if (s.stepsTarget steps).isSome then s.stepsTarget steps else o) =
    if steps = 0 then o else some ((s.round.toNat + steps) % 2 ^ 48) := by
  by_cases h : steps = 0 <;> simp [State.stepsTarget, h]

section
variable (isMatch : Bool) (steps : Nat) (hstopped : s.latState = 1) (hvalid : s.on LAT_NODE_VALID = true) (hfig : s.figOnPll = true)
  (hreel : s.f TAIL_REEL_STAT_STATE < 2) (halarm : s.alarmed = false) (hpos : 0 < s.f LAT_LEAD_START_LEAD)
  (hlead : s.f LAT_LEAD_START_LEAD < 2 ^ 15)
include hstopped hvalid hfig hreel halarm hpos hlead

theorem State.latStart_of_ahead : ∃ m, s.latStart steps isMatch = (s.numbered.startAwaits s.startBeat (s.stepsTarget steps)).sendMsg m := by
  have hbeat : s.f LAT_STAT_BEAT_COUNT < 65536 := BitVec.isLt _
  have hround : s.round.toNat % 2 ^ 48 = s.round.toNat := Nat.mod_eq_of_lt s.round.isLt
  refine ⟨_, (if_neg (by simp [hstopped, hvalid, hfig])).trans (congrArg (State.sendMsg · _) ?_)⟩
  exact s.numbered.actStart_of_ahead none hstopped hround hreel halarm (sext_beat_ahead hbeat hpos hlead)

theorem State.latStart_starts : s.Starts (s.latStart (steps % 2 ^ 16) isMatch) steps := by
  obtain ⟨m, hm⟩ := s.latStart_of_ahead isMatch (steps % 2 ^ 16) hstopped hvalid hfig hreel halarm hpos hlead
  rw [hm]
  have hsent := (s.numbered.startAwaits s.startBeat (s.stepsTarget (steps % 2 ^ 16))).sendMsg_sent m
  have hlat := s.numbered.startAwaits_lat s.startBeat (s.stepsTarget (steps % 2 ^ 16))
  have honly : Only 129 s (s.numbered.startAwaits s.startBeat (s.stepsTarget (steps % 2 ^ 16))) :=
    (State.startAwaits_only _ _ _).after (by decide) ((setLat_only _ _).mono (by decide))
  refine ⟨hsent.latState.trans (State.startAwaits_latState _ _ _), ?_, ?_, ?_, ?_, hsent.keeps_after (honly.mono (by decide)) fun a ha =>
    State.startAwaits_reg _ _ _ fun e => ha (e ▸ latStat_latReg)⟩
  · rw [hsent.lat, hlat]
    exact s.stepsTarget_or _ _
  all_goals rw [hsent.lat, hlat]
  all_goals rfl

end

/-! ### STOP (R272, R274) -/

/-- The node awaits the stop target `r`. -/
def State.stopAwaits (r : Nat) : State :=
  ((s.put LAT_STOP_LO_TARGET_LO r).put LAT_STOP_HI_TARGET_HI (r / 2 ^ 32)).setTarget (some r)

/-- A STOP whose target is ahead, on a node that is not OFFLINE. -/
theorem State.actStop_of_ahead {m : Msg} (hline : s.latState ≠ 0) (hahead : s.round.toNat < m.target) : s.actStop m = s.stopAwaits m.target := by
  have hnotpast : ¬ m.target ≤ s.round.toNat := by omega
  simp [State.actStop, State.stopAwaits, hline, hnotpast]

theorem State.stopAwaits_latState (r : Nat) : (s.stopAwaits r).latState = s.latState :=
  (State.setTarget_latState _ _).trans ((State.f_put_ne _ _ (by decide)).trans (State.f_put_ne _ _ (by decide)))

theorem State.stopAwaits_reg (r : Nat) {a : Nat} (h : ¬ LatReg a) : (s.stopAwaits r).reg a = s.reg a := by
  have hne (b : Nat) (hb : InBlocks [7, 8] b) : b ≠ a := fun e => h (.inl (e ▸ hb))
  exact (State.setTarget_reg _ _ (hne _ (by decide))).trans
    ((State.reg_put_ne _ _ (hne _ (by decide))).trans (State.reg_put_ne _ _ (hne _ (by decide))))

/-- STOP_ABS and STOP_REL with a target that is ahead. -/
theorem State.latStop_awaits {r : Nat} (hline : s.latState ≠ 0) (hvalid : s.on LAT_NODE_VALID = true) (hahead : s.round.toNat < r)
    (hr : r < 2 ^ 48) :
    (s.latStop r).lat.target = some r ∧ (s.latStop r).on LAT_STAT_TARGET_VALID = true ∧ (s.latStop r).latState = s.latState ∧
      Keeps LatReg [.lat, .port, .host, .tail, .mesh] s (s.latStop r) := by
  obtain ⟨m, hm⟩ : ∃ m, s.latStop r = (s.numbered.stopAwaits r).sendMsg m := by
    have htarget : r % 2 ^ 48 = r := Nat.mod_eq_of_lt hr
    refine ⟨_, (if_neg (by simp [hline, hvalid])).trans (congrArg (State.sendMsg · _) ?_)⟩
    refine (s.numbered.actStop_of_ahead hline (hahead.trans_eq htarget.symm)).trans ?_
    rw [show (s.nextMsg 2 0 r 0 false false).2.target = r from htarget]
  rw [hm]
  have hsent := (s.numbered.stopAwaits r).sendMsg_sent m
  have honly : Only 129 s (s.numbered.stopAwaits r) := (setTarget_only _ _).after (by decide) ((put_only _ _ _).after (by decide)
    ((put_only _ _ _).after (by decide) ((setLat_only _ _).mono (by decide))))
  refine ⟨by rw [hsent.lat]; rfl, ?_, hsent.latState.trans (State.stopAwaits_latState _ _),
    hsent.keeps_after (honly.mono (by decide)) fun _ => State.stopAwaits_reg _ _⟩
  rw [State.on_of_reg (hsent.reg LAT_STAT (by decide) (by decide))]
  exact State.on_put_one (x := LAT_STAT_TARGET_VALID) _ rfl (by decide)

theorem State.inRound_iff : s.inRound = true ↔ 3 ≤ s.latState ∧ s.latState ≤ 6 := by simp [State.inRound]

/-- STOP_NOW in STARTING or a round. -/
theorem State.stopNow_of_running (hlo : 2 ≤ s.latState) (hhi : s.latState ≤ 6) :
    s.stopNow = (s.setLat { s.lat with stopLate := s.lat.stopLate || (s.latState == 6 && !s.on LAT_STAT_STOP_NOW) }).put LAT_STAT_STOP_NOW 1 := by
  have hrun : (decide (s.latState = 2) || s.inRound) = true := by
    rw [Bool.or_eq_true, decide_eq_true_iff, s.inRound_iff]
    omega
  exact if_pos hrun

/-- STOP_NOW elsewhere. -/
theorem State.stopNow_of_idle (h : s.latState < 2 ∨ s.latState = 7) : s.stopNow = s := by
  have hidle : ¬ (decide (s.latState = 2) || s.inRound) = true := by
    rw [Bool.or_eq_true, decide_eq_true_iff, s.inRound_iff]
    omega
  exact if_neg hidle

theorem stopNow_sets (hlo : 2 ≤ s.latState) (hhi : s.latState ≤ 6) :
    ∃ t, exec .stopNow s = .next t ∧ t.on LAT_STAT_STOP_NOW = true ∧ t.latState = s.latState ∧
      t.lat = { s.lat with stopLate := s.lat.stopLate || (s.latState == 6 && !s.on LAT_STAT_STOP_NOW) } ∧
      Keeps (fun a => a = LAT_STAT) [.lat] s t := by
  refine ⟨_, congrArg Host.Outcome.next (s.stopNow_of_running hlo hhi), State.on_put_one _ rfl (by decide),
    State.f_put_disj (s.setLat _) _ rfl (by decide) (by decide) (by decide), rfl, ?_⟩
  exact ((put_only _ _ _).after (by decide) ((setLat_only _ _).mono (by decide) : Only 129 s _)).keeps
    fun _ ha => State.reg_put_ne (s.setLat _) 1 (Ne.symm ha)

end

/-! ### Requests of sector resets (R282) -/

theorem mem_bitList {n w i : Nat} : i ∈ bitList n w ↔ i < w ∧ n.testBit i = true := by simp [bitList]

/-- A write at the keys of a list that do not satisfy `p`. -/
theorem mget_foldl_mset_unless {α : Type} [DecidableEq α] (p : Nat → Bool) (d v : α) (l : List Nat) (m : List (Nat × α)) (k : Nat) :
    mget (l.foldl (fun m n => if p n = true then m else mset m d n v) m) d k = if k ∈ l ∧ p k = false then v else mget m d k := by
  have hfilter : l.foldl (fun m n => if p n = true then m else mset m d n v) m =
      (l.filter (fun n => !p n)).foldl (fun m n => mset m d n v) m := by
    rw [List.foldl_filter]
    congr! 3 with m n
    cases p n <;> rfl
  rw [hfilter, mget_foldl_mset_const]
  simp

/-- The elements of a list that do not satisfy `p` are added. -/
theorem mem_foldl_ladd_unless (p : Nat → Bool) (l m : List Nat) (k : Nat) :
    k ∈ l.foldl (fun m n => if p n = true then m else ladd m n) m ↔ k ∈ m ∨ (k ∈ l ∧ p k = false) := by
  induction l generalizing m with
  | nil => simp
  | cons x l ih =>
    rw [List.foldl_cons, ih]
    cases hx : p x
    · simp only [Bool.false_eq_true, if_false, mem_ladd_iff, List.mem_cons]
      grind
    · simp only [if_true, List.mem_cons]
      grind

section
variable (s : State) (mask : Nat)

theorem mem_newResets {n : Nat} (hn : n < 16) : n ∈ bitList (mask % 2 ^ 16) 16 ↔ mask.testBit n = true := by
  rw [mem_bitList, Nat.testBit_mod_two_pow]
  simp [hn]

theorem State.sectorRequest_lat : (s.sectorRequest mask).lat =
    { s.lat with
      rstFig := (bitList (mask % 2 ^ 16) 16).foldl
        (fun l n => if (s.f LAT_SECTOR_RST_REQ).testBit n = true then l else mset l 0 n s.fig.toNat) s.lat.rstFig
      rstLate := if s.latState = 6 then (bitList (mask % 2 ^ 16) 16).foldl
        (fun l n => if (s.f LAT_SECTOR_RST_REQ).testBit n = true then l else ladd l n) s.lat.rstLate else s.lat.rstLate } := by
  unfold State.sectorRequest
  by_cases h : s.latState = 6 <;> simp [h]

theorem State.sectorRequest_regs :
    (s.sectorRequest mask).regs = (s.put LAT_SECTOR_RST_REQ (s.f LAT_SECTOR_RST_REQ ||| mask % 2 ^ 16)).regs := by
  unfold State.sectorRequest
  dsimp only
  split <;> rfl

theorem sectorReset_requests :
    ∃ t, exec (.sectorResetRequest mask) s = .next t ∧ t.f LAT_SECTOR_RST_REQ = s.f LAT_SECTOR_RST_REQ ||| mask % 2 ^ 16 ∧
      (∀ n : Nat, n < 16 → mget t.lat.rstFig 0 n =
        if mask.testBit n = true ∧ (s.f LAT_SECTOR_RST_REQ).testBit n = false then s.fig.toNat else mget s.lat.rstFig 0 n) ∧
      t.lat = { s.lat with rstFig := t.lat.rstFig, rstLate := t.lat.rstLate } ∧ (s.latState ≠ 6 → t.lat.rstLate = s.lat.rstLate) ∧
      (s.latState = 6 → ∀ n : Nat, n < 16 → (n ∈ t.lat.rstLate ↔ n ∈ s.lat.rstLate ∨
        (mask.testBit n = true ∧ (s.f LAT_SECTOR_RST_REQ).testBit n = false))) ∧
      Keeps (fun a => a = LAT_SECTOR_RST) [.lat] s t := by
  have hwidth : (s.f LAT_SECTOR_RST_REQ ||| mask % 2 ^ 16) % 2 ^ 16 = s.f LAT_SECTOR_RST_REQ ||| mask % 2 ^ 16 :=
    Nat.mod_eq_of_lt (Nat.or_lt_two_pow (BitVec.isLt _) (Nat.mod_lt _ (by decide)))
  refine ⟨_, rfl, ?_, fun n hn => ?_, ?_, fun h => ?_, fun h n hn => ?_, (sectorRequest_only s mask).keeps fun a ha => ?_⟩
  · rw [State.f_congr (s.sectorRequest_regs mask)]
    exact (s.f_put _ _ (by decide) (by decide)).trans hwidth
  · rw [s.sectorRequest_lat, mget_foldl_mset_unless]
    simp only [mem_newResets mask hn]
  · rw [s.sectorRequest_lat]
  · rw [s.sectorRequest_lat]
    exact if_neg h
  · rw [s.sectorRequest_lat]
    dsimp only
    rw [if_pos h, mem_foldl_ladd_unless, mem_newResets mask hn]
  · exact (State.reg_congr (s.sectorRequest_regs mask) a).trans (s.reg_put_ne _ (Ne.symm ha))

end

/-! ### HELD where no peer blocks (R274, R283) -/

theorem State.peers_node_lt {s : State} {p : Nat × Nat} (h : p ∈ s.peers) : p.2 < 4096 := by
  simp only [State.peers, List.mem_filterMap, Option.ite_none_right_eq_some] at h
  obtain ⟨i, -, -, hp⟩ := h
  rw [← Option.some.inj hp]
  exact BitVec.isLt _

section
variable {s t : State}

/-- Whether a peer blocks is read of the registers of its peer, its route and its port, of the relays and of the round. -/
theorem State.peerBlocks_congr {p : Nat × Nat} (hstat : t.reg (LAT_PEER_STAT p.1) = s.reg (LAT_PEER_STAT p.1))
    (hroute : t.reg (LAT_ROUTE p.2) = s.reg (LAT_ROUTE p.2)) (hport : ∀ n, t.reg (GLS_STAT n) = s.reg (GLS_STAT n))
    (hrelay : t.lat.relay = s.lat.relay) (hround : t.round = s.round) : t.peerBlocks p = s.peerBlocks p := by
  have hon (x : Fld) (hx : x.addr = LAT_PEER_STAT p.1) : t.on x = s.on x := State.on_of_reg (hx ▸ hstat)
  have hf (x : Fld) (hx : x.addr = LAT_PEER_STAT p.1) : t.f x = s.f x := State.f_of_reg (hx ▸ hstat)
  have hup (n : Nat) : t.portUp n = s.portUp n := congrArg (· == 7) (State.f_of_reg (hport n))
  have hrouteOf : t.routeOf p.2 = s.routeOf p.2 := by
    rw [State.routeOf, State.on_of_reg (x := LAT_ROUTE_VALID p.2) hroute, State.f_of_reg (x := LAT_ROUTE_PORT p.2) hroute, State.routeOf]
  simp only [State.peerBlocks, State.peerGone, State.peerDown, State.tokenHolder, State.notLater, hrouteOf, hup, hrelay, hround,
    hon (LAT_PEER_STAT_LOST p.1) rfl, hon (LAT_PEER_STAT_HOLDING p.1) rfl, hf (LAT_PEER_STAT_LAST_TYPE p.1) rfl,
    hf (LAT_PEER_STAT_LAST_ROUND p.1) rfl]

/-- The node's own state, the log and the events of lattice control are none of these. -/
theorem State.anyBlocks_congr (hreg : ∀ a, a ≠ LAT_STAT → a ≠ LAT_ERR_LOG → a ≠ HIF_IRQ_STAT 4 → t.reg a = s.reg a)
    (hrelay : t.lat.relay = s.lat.relay) (hround : t.round = s.round) : t.peers.any t.peerBlocks = s.peers.any s.peerBlocks := by
  have hkept (a : Nat) (h : 0x701000 ≤ a ∧ a < 0x708000 ∨ a % 0x1000 = 4) : t.reg a = s.reg a :=
    hreg a (by unfold LAT_STAT; omega) (by unfold LAT_ERR_LOG; omega) (by unfold HIF_IRQ_STAT; omega)
  have hpeers : t.peers = s.peers := by
    unfold State.peers
    refine List.filterMap_congr fun i hi => ?_
    have hpeer : t.reg (LAT_PEER i) = s.reg (LAT_PEER i) := hkept _ (by have := List.mem_range.1 hi; unfold LAT_PEER; omega)
    rw [State.on_of_reg (x := LAT_PEER_VALID i) hpeer, State.f_of_reg (x := LAT_PEER_NODE i) hpeer]
  have hblocks (p : Nat × Nat) (hp : p ∈ s.peers) : t.peerBlocks p = s.peerBlocks p := by
    have hi := s.peers_lt hp
    have hn := State.peers_node_lt hp
    exact State.peerBlocks_congr (hkept _ (by unfold LAT_PEER_STAT; omega)) (hkept _ (by unfold LAT_ROUTE; omega))
      (fun n => hkept _ (by unfold GLS_STAT; omega)) hrelay hround
  rw [hpeers, Bool.eq_iff_iff, List.any_eq_true, List.any_eq_true]
  exact exists_congr fun p => and_congr_right fun hp => by rw [hblocks p hp]

/-- A node that is not HELD and that no peer keeps stays as it is: DOWN is shown, and what lattice control remembers of it. -/
theorem State.latSettle_of_free (hfree : s.peers.any s.peerBlocks = false) (hheld : s.latState ≠ 5) :
    s.latSettle = s.showDown.setLat { s.lat with down := (s.peers.filter s.peerGone).map (·.1) } := by
  have hset (l : Lat) : (s.showDown.setLat l).latState = s.latState := congrArg (fget · 31 29) (s.showDown_reg (.inl (by decide)))
  have hfold : s.each s.peers (fun p t => t.put (LAT_PEER_STAT_DOWN p.1) (b2n (t.peerDown p.2))) = s.showDown := rfl
  simp only [State.latSettle, hfold, hset, hfree]
  simp [hheld]

end

/-! ### The start edge (R212, R271) -/

section
variable (s : State)

/-- The node has begun the rounds at this edge. -/
def State.roundBegun : State :=
  ((s.put LAT_STAT_STATE 3).setLat
    { s.lat with
      ready := false, fenced := false, bowFence := [], count := 0, routeSaid := false, bowFig := s.fig.toNat, startDue := false, beat := none })

/-- Flag 63 of every task in use is set, and which tasks are READY is noted. -/
def State.tasksWoken : State := (s.each s.tasksUsed (fun t u => u.setFlag t 63)).noteReady

theorem State.setFlag_flags (t f : Nat) : (s.setFlag t f).call.flags = mset s.call.flags 0 t (BitVec.ofNat 64 (s.latched t ||| 2 ^ f)) := by
  unfold State.setFlag State.changeFlags State.when
  split <;> rfl

theorem State.latched_setFlag_ne {t k : Nat} (f : Nat) (h : t ≠ k) : (s.setFlag t f).latched k = s.latched k := by
  rw [State.latched, s.setFlag_flags, mget_mset_ne _ _ _ _ _ _ h, State.latched]

theorem State.latched_setFlag_self (t f : Nat) (hf : f < 64) : ((s.setFlag t f).latched t).testBit f = true := by
  rw [State.latched, s.setFlag_flags, mget_mset_self, BitVec.toNat_ofNat, Nat.testBit_mod_two_pow]
  simp [hf]

/-- Setting a flag of each task of a list sets it, and leaves set what is set. -/
theorem State.each_setFlag (f : Nat) (hf : f < 64) (l : List Nat) (s : State) {k : Nat} (h : k ∈ l ∨ (s.latched k).testBit f = true) :
    ((s.each l (fun t u => u.setFlag t f)).latched k).testBit f = true := by
  induction l generalizing s with
  | nil => exact h.resolve_left List.not_mem_nil
  | cons x l ih =>
    refine ih (s.setFlag x f) ?_
    rcases eq_or_ne x k with rfl | hx
    · exact .inr (s.latched_setFlag_self _ _ hf)
    · rw [s.latched_setFlag_ne f hx]
      exact h.imp_left fun hk => (List.mem_cons.1 hk).resolve_left (Ne.symm hx)

/-- Noting READY writes the tasks' states only. -/
theorem State.noteReady_keeps {β : Type} (p : State → β) (hp : ∀ t k x, p (t.setTask k x) = p t) : p s.noteReady = p s := by
  refine State.each_keeps p _ (fun k _ t => ?_) s
  dsimp only
  split
  · split
    · exact hp _ _ _
    · rfl
  split
  · exact hp _ _ _
  · rfl

theorem State.tasksWoken_latched {k : Nat} (hk : k ∈ s.tasksUsed) : (s.tasksWoken.latched k).testBit 63 = true := by
  rw [State.latched, State.tasksWoken, State.noteReady_keeps _ (fun t => t.call.flags) (fun _ _ _ => rfl)]
  exact State.each_setFlag 63 (by decide) _ s (.inl hk)

theorem State.tasksWoken_queue : s.tasksWoken.call.queue = s.call.queue := by
  rw [State.tasksWoken, State.noteReady_keeps _ (fun t => t.call.queue) (fun _ _ _ => rfl)]
  refine State.each_keeps (fun t => t.call.queue) _ (fun k _ t => ?_) s
  unfold State.setFlag State.changeFlags State.when
  split <;> rfl

theorem State.tasksWoken_only : Only 64 s s.tasksWoken :=
  (noteReady_only _).after (by decide) (Only.each _ _ (fun t u => setFlag_only u t 63) .refl)

/-- The node in its first round, with RUN sent to its peers. -/
def State.runsFirst : State := s.roundBegun.tasksWoken.sendTokens 2 s.roundBegun.tasksWoken.round.toNat

theorem execStartEdge_of_reached (hstate : s.latState = 2) (hdue : s.lat.startDue = true) (haloft : s.aloft = true)
    (hfig : s.figOnPll = true) (hedge : s.lat.startFig ≤ s.fig.toNat) : exec .startEdge s = .next (s.runsFirst.raise 152).latSettle := by
  have hreached : s.startReached = true := by simp [State.startReached, hstate, hdue, haloft, hfig, hedge]
  have hset : s.setLatState 3 = s.put LAT_STAT_STATE 3 := by simp [State.setLatState, State.inRound, hstate]
  show execStartEdge s = _
  simp only [execStartEdge, hreached, if_true, hset]
  rfl

theorem State.roundBegun_only : Only 129 s s.roundBegun := (setLat_only _ _).after (by decide) ((put_only _ _ _).mono (by decide))

theorem State.tasksWoken_reg (a : Nat) : s.tasksWoken.reg a = s.reg a := State.reg_congr (s.tasksWoken_only.regs (by decide)) a

theorem State.tasksWoken_lat : s.tasksWoken.lat = s.lat := s.tasksWoken_only.lat (by decide)

theorem State.runsFirst_sent : s.roundBegun.tasksWoken.Sent s.runsFirst := State.sendTokens_sent _ _ _

theorem State.runsFirst_reg {a : Nat} (hstat : a ≠ LAT_STAT) (hlog : a ≠ LAT_ERR_LOG) (hirq : a ≠ HIF_IRQ_STAT 4) :
    s.runsFirst.reg a = s.reg a :=
  (s.runsFirst_sent.reg a hlog hirq).trans
    ((State.tasksWoken_reg _ a).trans (State.reg_put_ne (x := LAT_STAT_STATE) s 3 (Ne.symm hstat)))

theorem State.runsFirst_latState : s.runsFirst.latState = 3 :=
  s.runsFirst_sent.latState.trans ((State.f_of_reg (State.tasksWoken_reg _ _)).trans
    (State.f_put (x := LAT_STAT_STATE) s 3 (by decide) (by decide)))

theorem State.runsFirst_only : Only 133057 s s.runsFirst :=
  s.runsFirst_sent.only.after (by decide) (s.roundBegun.tasksWoken_only.after (by decide) (s.roundBegun_only.mono (by decide)))

theorem State.runsFirst_lat : s.runsFirst.lat =
    { s.roundBegun.lat with out := s.runsFirst.lat.out, routeSaid := s.runsFirst.lat.routeSaid } := by
  rw [s.runsFirst_sent.lat, State.tasksWoken_lat]

theorem State.runsFirst_call : s.runsFirst.call = s.roundBegun.tasksWoken.call := s.runsFirst_sent.only.call (by decide)

/-- Where nothing blocked before the start edge, nothing blocks after it. -/
theorem State.runsFirst_free (h : s.peers.any s.peerBlocks = false) :
    (s.runsFirst.raise 152).peers.any (s.runsFirst.raise 152).peerBlocks = false := by
  have hrelay : (s.runsFirst.raise 152).lat.relay = s.lat.relay := by
    rw [(raise_only _ _).lat (by decide), s.runsFirst_lat]
    rfl
  have hround : (s.runsFirst.raise 152).round = s.round :=
    ((raise_only _ _).round (by decide)).trans (s.runsFirst_only.round (by decide))
  exact (State.anyBlocks_congr (fun a hstat hlog hirq => (State.raise_reg _ hirq).trans (s.runsFirst_reg hstat hlog hirq)) hrelay
    hround).trans h

theorem startEdge_runs (hstate : s.latState = 2) (hdue : s.lat.startDue = true) (haloft : s.aloft = true) (hfig : s.figOnPll = true)
    (hedge : s.lat.startFig ≤ s.fig.toNat) (hfree : s.peers.any s.peerBlocks = false) :
    ∃ t, exec .startEdge s = .next t ∧ t.latState = 3 ∧ t.lat.bowFig = s.fig.toNat ∧ t.lat.count = 0 ∧ t.lat.startDue = false ∧
      (t.reg (HIF_IRQ_STAT 4)).toNat.testBit 24 = true ∧ t.round = s.round ∧ t.fab = s.fab ∧ t.call.queue = s.call.queue ∧
      (∀ k : Nat, k ∈ s.tasksUsed → (t.latched k).testBit 63 = true) ∧
      Keeps (fun a => InBlocks [6, 7, 8] a ∨ a = HIF_IRQ_STAT 4 ∨ a = HIF_IRQ_STAT 5) [.call, .lat, .port, .host, .tail, .mesh] s t := by
  have hrun : (s.runsFirst.raise 152).latState = 3 := (State.raise_f _ (by decide)).trans s.runsFirst_latState
  have hsettle := State.latSettle_of_free (s.runsFirst_free hfree) (by rw [hrun]; decide)
  have honly : Only 133057 s (s.runsFirst.raise 152).latSettle :=
    (latSettle_only _).after (by decide) ((raise_only _ _).after (by decide) s.runsFirst_only)
  have hreg (a : Nat) (ha : a < 0x701000 ∨ 0x702000 ≤ a) :
      (s.runsFirst.raise 152).latSettle.reg a = (s.runsFirst.raise 152).reg a := by
    rw [hsettle]
    exact State.showDown_reg _ ha
  have hlat : (s.runsFirst.raise 152).latSettle.lat =
      { s.runsFirst.lat with down := (s.runsFirst.raise 152).latSettle.lat.down } := by
    rw [hsettle, State.setLat_lat, (raise_only s.runsFirst 152).lat (by decide)]
  have hcall : (s.runsFirst.raise 152).latSettle.call = s.roundBegun.tasksWoken.call :=
    ((latSettle_only _).call (by decide)).trans (((raise_only _ _).call (by decide)).trans s.runsFirst_call)
  refine ⟨_, execStartEdge_of_reached s hstate hdue haloft hfig hedge, (State.f_of_reg (hreg LAT_STAT (by decide))).trans hrun, ?_, ?_, ?_,
    ?_, honly.round (by decide), honly.fab (by decide), ?_, fun k hk => ?_, honly.keeps fun a ha => ?_⟩
  · rw [hlat, s.runsFirst_lat]
    rfl
  · rw [hlat, s.runsFirst_lat]
    rfl
  · rw [hlat, s.runsFirst_lat]
    rfl
  · rw [hreg _ (by decide)]
    exact State.raise_irq _ 152
  · rw [hcall]
    exact State.tasksWoken_queue _
  · rw [State.latched, hcall]
    exact s.roundBegun.tasksWoken_latched hk
  · have hblock (b : Nat) (hb : InBlocks [6, 7, 8] b) : a ≠ b := fun e => ha (.inl (e ▸ hb))
    have hirq : a ≠ HIF_IRQ_STAT 4 := fun e => ha (.inr (.inl e))
    have hout : ¬ InBlocks [6, 7, 8] a := fun h => ha (.inl h)
    simp only [InBlocks, List.mem_cons, List.not_mem_nil, or_false] at hout
    rw [hreg a (by omega), State.raise_reg _ hirq, s.runsFirst_reg (hblock _ (by decide)) (hblock _ (by decide)) hirq]

/-! ### From OFFLINE to STOPPED (R267) -/

/-- A node that has come up. -/
def State.cameUp : State := (s.put LAT_STAT_STATE 1).setLat { s.lat with offPor := false }

theorem nodeOnline_stops (hstate : s.latState = 0) (hpor : s.lat.offPor = true) (hvalid : s.on LAT_NODE_VALID = true)
    (hfig : s.on CLK_HUB_SEL_FIG_SRC = true) (hstarted : s.on CFG_STAT_STARTED = true) :
    ∃ t, exec .nodeOnline s = .next t ∧ t.latState = 1 ∧ t.lat.offPor = false ∧ t.round = s.round ∧
      Keeps LatReg [.lat, .port, .host, .tail, .mesh] s t := by
  have hexec : exec .nodeOnline s = .next (s.cameUp.sendTokens 1 s.round.toNat) := by
    have hset : s.setLatState 1 = s.put LAT_STAT_STATE 1 := s.setLatState_of_stopped 1 (by simp [State.stopped, hstate])
    show execNodeOnline s = _
    simp [execNodeOnline, hstate, hpor, hvalid, hfig, hstarted, hset, State.cameUp]
  have hsent := s.cameUp.sendTokens_sent 1 s.round.toNat
  have honly : Only 129 s s.cameUp := (setLat_only _ _).after (by decide) ((put_only _ _ _).mono (by decide))
  refine ⟨_, hexec, hsent.latState.trans (State.f_put (x := LAT_STAT_STATE) s 1 (by decide) (by decide)), by rw [hsent.lat]; rfl,
    hsent.only.round (by decide), hsent.keeps_after (honly.mono (by decide)) fun a ha => ?_⟩
  exact State.reg_put_ne s 1 fun e => ha (e ▸ latStat_latReg)

end

/-- Settles O29: a lemma for each command; START and STOP by what lattice control awaits then, and what sending leaves alone. -/
theorem latticeStartStop : Obligations.LatticeStartStop := by
  unfold Obligations.LatticeStartStop
  intro s _
  refine ⟨fun steps hstopped hvalid hfig hreel halarm hpos hlead =>
      ⟨_, rfl, s.latStart_starts true steps hstopped hvalid hfig hreel halarm hpos hlead⟩,
    fun steps hstopped hvalid hfig hreel halarm hpos hlead =>
      ⟨_, rfl, s.latStart_starts false steps hstopped hvalid hfig hreel halarm hpos hlead⟩, fun hline hvalid hahead => ?_,
    fun hline hvalid hpos hlt => ?_, stopNow_sets s, fun h => ⟨_, rfl, s.stopNow_of_idle h⟩, sectorReset_requests s, startEdge_runs s,
    nodeOnline_stops s⟩
  · have hlo : s.f LAT_STOP_LO_TARGET_LO < 2 ^ 32 := BitVec.isLt _
    have hhi : s.f LAT_STOP_HI_TARGET_HI < 2 ^ 16 := BitVec.isLt _
    exact ⟨_, rfl, s.latStop_awaits hline hvalid hahead (by omega)⟩
  · rw [Nat.mod_eq_of_lt hlt]
    exact ⟨_, rfl, s.latStop_awaits hline hvalid (by omega) hlt⟩

end Sys2Proof.Machine
end


section
/-! SUPPORT. The bow (file 07, R262, R274): a peer's HOLD for the round that the bow begins. -/

namespace Sys2Proof.Machine

/-- Round 0 with its bow announced 2 figures ago; the only peer, node 1 beyond port 0, has sent HOLD for round 1. -/
def heldAhead : State :=
  { State.reset with
    regs := [(LAT_NODE, 2 ^ 31), (LAT_STAT, 6 * 2 ^ 29), (LAT_PEER 0, 2 ^ 31 + 1), (LAT_PEER_STAT 0, 2 ^ 29 + 2 ^ 22 + 2 ^ 16),
      (LAT_ROUTE 1, 2 ^ 31), (GLS_STAT 0, 23 * 2 ^ 27 + 255 * 2 ^ 16)]
    fig := 2
    lat := Lat.init }

/-- In round 0 the HOLD is for a later round, so that the peer does not block. -/
theorem heldAhead_unblocked : heldAhead.Calm ∧ heldAhead.bowReached = true ∧ heldAhead.peers.any heldAhead.peerBlocks = false := by
  decide +kernel

theorem execBow_of_reached (s : State) (up flips : List (Nat × Nat)) (hbow : s.bowReached = true) (hreel : s.tail.reel = none) :
    exec (.bow up flips) s = .next (s.bowEdge up flips).settle := by
  show execBow up flips s = _
  simp [execBow, hbow, hreel]

/-- In round 1 it is not later, so that the bow takes the node to HELD. -/
theorem heldAhead_bow_held : (heldAhead.bowEdge [] []).settle.latState = 5 := by decide +kernel

/-- Refutes O30: its first clause of BOW asks that no peer blocks before the edge, and a HOLD for the round that the bow begins blocks from
that edge on (R274), so that the node goes on to HELD, not to RUN. -/
theorem not_latticeRound : ¬ Obligations.LatticeRound := by
  unfold Obligations.LatticeRound
  intro h
  obtain ⟨hcalm, hbow, hpeers⟩ := heldAhead_unblocked
  obtain ⟨-, -, hgoesOn, -⟩ := h heldAhead hcalm
  obtain ⟨t, hexec, -, -, hrun, -⟩ := hgoesOn hbow rfl nofun (.inl (by decide +kernel)) hpeers
  obtain rfl : _ = t := Host.Outcome.next.inj ((execBow_of_reached heldAhead [] [] hbow rfl).symm.trans hexec)
  exact absurd (heldAhead_bow_held.symm.trans hrun) (by decide)

end Sys2Proof.Machine
end


section
/-! SUPPORT. Gleis frames (file 08): what arriving slots leave alone (R291 to R298), sequenced frames, credit and replay (R303, R308 to R310),
transit (R306), and what a slot boundary sends (R299). -/

namespace Sys2Proof.Machine

/-! ### Arriving slots (R291 to R298) -/

/-- Of port `p` only what the receiver keeps of the lanes and of a frame in progress has changed. -/
def Port.Rx (p q : Port) : Prop :=
  q = { p with rxRd := q.rxRd, winCode := q.winCode, winDisp := q.winDisp, rxBulk := q.rxBulk, rxIns := q.rxIns, rxLost := q.rxLost }

namespace Port.Rx

theorem refl (p : Port) : p.Rx p := rfl

theorem trans {p q r : Port} (h : p.Rx q) (g : q.Rx r) : p.Rx r := by
  unfold Port.Rx at *
  rw [g, h]

variable {p q : Port} (h : p.Rx q)
include h

theorem asked : q.asked = p.asked := by rw [h]

theorem retryDue : q.retryDue = p.retryDue := by rw [h]

theorem retry : q.retry = p.retry := by rw [h]

theorem bulk : q.bulk = p.bulk := by rw [h]

end Port.Rx

section
variable (p : Port)

theorem Port.rxFail_rx : p.Rx p.rxFail.1 := rfl

theorem Port.rxSync_rx : p.Rx p.rxSync := rfl

theorem Port.rxPayload_rx (r : RxBulk) (b : List Nat) (err : Bool) : p.Rx (p.rxPayload r b err).1 := by
  unfold Port.rxPayload
  split <;> rfl

theorem Port.rxTrailer_rx (b : List Nat) (err : Bool) : p.Rx (p.rxTrailer b err).1 := by
  unfold Port.rxTrailer
  split
  · split <;> rfl
  · dsimp only
    split <;> rfl

theorem Port.rxHeader_rx (token : Bool) (h : List Nat) (err : Bool) : p.Rx (p.rxHeader token h err).1 := by
  unfold Port.rxHeader
  dsimp only
  split <;> rfl

theorem Port.rxFresh_rx (l : List (Option Sym)) (err code clean : Bool) : p.Rx (p.rxFresh l err code clean).1 := by
  unfold Port.rxFresh
  dsimp only
  split
  · split
    · exact p.rxPayload_rx _ _ _
    · exact .refl p
  split
  · rfl
  split
  · exact p.rxHeader_rx _ _ _
  split
  · exact p.rxHeader_rx _ _ _
  split
  · exact p.rxSync_rx
  split
  · exact p.rxSync_rx
  split
  · exact p.rxSync_rx
  split
  · exact p.rxTrailer_rx _ _
  split
  · exact p.rxPayload_rx _ _ _
  · exact .refl p

theorem Port.rxInsEnd_rx (r : RxIns) : p.Rx (p.rxInsEnd r).1 := by
  unfold Port.rxInsEnd
  dsimp only
  split <;> split <;> rfl

theorem Port.rxSlot_rx (l : List (Option Sym)) (err code clean : Bool) : p.Rx (p.rxSlot l err code clean).1 := by
  unfold Port.rxSlot
  split
  · exact p.rxFresh_rx _ _ _ _
  dsimp only
  split
  · exact p.rxFail_rx.trans (Port.rxFresh_rx _ _ _ _ _)
  split
  · exact p.rxInsEnd_rx _
  · rfl

end

/-- From `s` to `t` slots have arrived on port `n`: its receiver has changed, and the error counts of its lanes. -/
structure State.Heard (n : Nat) (s t : State) : Prop where
  only : Only 257 s t
  reg : ∀ a, ¬ LaneErrOf n a → t.reg a = s.reg a
  port : (s.portOf n).Rx (t.portOf n)

theorem not_laneErrOf {n a : Nat} (h : a < GLS_LANE_ERR n 0) : ¬ LaneErrOf n a := by
  rintro ⟨l, -, rfl⟩
  unfold GLS_LANE_ERR at h
  omega

namespace State.Heard
variable {n : Nat} {s t u : State}

theorem refl (s : State) : State.Heard n s s := ⟨.refl, fun _ _ => rfl, .refl _⟩

theorem trans (h : State.Heard n s t) (g : State.Heard n t u) : State.Heard n s u :=
  ⟨h.only.trans g.only, fun a ha => (g.reg a ha).trans (h.reg a ha), h.port.trans g.port⟩

theorem f (h : State.Heard n s t) {x : Fld} (hx : x.addr < GLS_LANE_ERR n 0) : t.f x = s.f x := State.f_of_reg (h.reg _ (not_laneErrOf hx))

theorem portUp (h : State.Heard n s t) : t.portUp n = s.portUp n :=
  congrArg (· == 7) (h.f (by show GLS_STAT n < _; unfold GLS_STAT GLS_LANE_ERR; omega))

theorem expect (h : State.Heard n s t) : t.f (GLS_SEQ_RX_EXPECT n) = s.f (GLS_SEQ_RX_EXPECT n) :=
  h.f (by show GLS_SEQ n < _; unfold GLS_SEQ GLS_LANE_ERR; omega)

theorem fig (h : State.Heard n s t) : t.fig = s.fig := h.only.fig (by decide)

end State.Heard

section
variable (s : State) {n : Nat}

theorem State.satF_laneErr_heard {x : Fld} {l : Nat} (hl : l < 9) (hx : x.addr = GLS_LANE_ERR n l) : State.Heard n s (s.satF x 1) :=
  ⟨(satF_only _ _ _).mono (by decide), fun _ ha => State.reg_put_ne _ _ fun e => ha ⟨l, hl, e.symm.trans hx⟩, .refl _⟩

theorem State.setPort_heard {q : Port} (h : (s.portOf n).Rx q) : State.Heard n s (s.setPort n q) :=
  ⟨(setPort_only _ _ _).mono (by decide), fun _ _ => rfl, by rwa [State.portOf_setPort_self]⟩

theorem State.satF_laneErr_heard_if (b : Bool) {x : Fld} {l : Nat} (hl : l < 9) (hx : x.addr = GLS_LANE_ERR n l) :
    State.Heard n s (if b then s.satF x 1 else s) := by
  split
  · exact s.satF_laneErr_heard hl hx
  · exact .refl s

theorem State.rxGroup_heard {l : Nat} (hl : l < 9) (g : Nat) : State.Heard n s (s.rxGroup n l g).1 := by
  unfold State.rxGroup
  extract_lets p d s1 s2
  have hport : State.Heard n s s1 := s.setPort_heard rfl
  have hcode : State.Heard n s1 s2 := s1.satF_laneErr_heard_if _ hl rfl
  exact (hport.trans hcode).trans (s2.satF_laneErr_heard_if _ hl rfl)

theorem rxGroups_heard (l : Nat) (gs : List Nat) (s : State) (h : l + gs.length ≤ 9) : State.Heard n s (rxGroups n l gs s).1 := by
  induction gs generalizing l s with
  | nil => exact .refl s
  | cons g gs ih =>
    rw [List.length_cons] at h
    exact (s.rxGroup_heard (by omega) g).trans (ih _ _ (by omega))

theorem State.rxSlot_heard (slot : List Nat) : State.Heard n s (s.rxSlot n slot).1 := by
  have hgroups : State.Heard n s (rxGroups n 0 (slot.take 9) s).1 := rxGroups_heard 0 _ s (by rw [List.length_take]; omega)
  unfold State.rxSlot
  dsimp only
  split
  · exact hgroups
  · exact hgroups.trans (State.setPort_heard _ (Port.rxSlot_rx _ _ _ _ _))

theorem rxSlots_heard (slots : List (List Nat)) (s : State) : State.Heard n s (rxSlots n slots s).1 := by
  induction slots generalizing s with
  | nil => exact .refl s
  | cons x rest ih => exact (s.rxSlot_heard x).trans (ih _)

/-! #### What a command does with what its slots complete -/

theorem State.receive_of_hears {slots : List (List Nat)} {l : List RxEvt} (h : s.Hears n slots l) (mine : RxEvt → Bool)
    (act : RxEvt → State → State) (hmine : l.all (fun e => e == .fail || mine e) = true) :
    s.receive n slots mine act =
      (rxSlots n slots s).1.each l (fun e t => if !t.portUp n then t else if e = .fail then t.rxRefuse n else act e t) := by
  obtain ⟨-, hup, rfl⟩ := h
  exact if_pos (by rw [hup, hmine]; rfl)

/-- One event, which is the command's own. -/
theorem exec_of_one (i : Instr) {slots : List (List Nat)} {e : RxEvt} {mine : RxEvt → Bool} {act : RxEvt → State → State}
    (h : s.Hears n slots [e]) (hexec : exec i s = .next (s.receive n slots mine act)) (hmine : mine e = true) (hgood : e ≠ .fail) :
    ∃ u, State.Heard n s u ∧ exec i s = .next (act e u) := by
  have hheard := rxSlots_heard (n := n) slots s
  refine ⟨_, hheard, ?_⟩
  rw [hexec, s.receive_of_hears h mine act (by simp [hmine])]
  simp [State.each, foldS, hheard.portUp, h.2.1, hgood]

/-- One frame that fails its checks. -/
theorem exec_of_fail (i : Instr) {slots : List (List Nat)} {mine : RxEvt → Bool} {act : RxEvt → State → State}
    (h : s.Hears n slots [.fail]) (hexec : exec i s = .next (s.receive n slots mine act)) :
    ∃ u, State.Heard n s u ∧ exec i s = .next (u.rxRefuse n) := by
  have hheard := rxSlots_heard (n := n) slots s
  refine ⟨_, hheard, ?_⟩
  rw [hexec, s.receive_of_hears h mine act (by simp)]
  simp [State.each, foldS, hheard.portUp, h.2.1]

end

/-! ### Bulk frames that are built (R301, R303) -/

theorem getD_bump (l : List Nat) {p : Nat} (base k : Nat) (h : p < 6) : (bump l p base k).getD p 0 = (l.getD p 0 + k) % base := by
  simp [bump, List.getD, h]

section
variable (s : State) {n : Nat}

theorem State.poolFor_bulk_lt (n dest : Nat) (tc : Bool) : s.poolFor n dest tc false < 3 := by
  rw [State.poolFor, if_neg Bool.false_ne_true]
  split_ifs <;> decide

/-- An entry sent into a bulk pool that has credit takes one unit of it. -/
theorem State.poolCredit_useCredit {p : Nat} (hp : p < 3) (hcredit : 0 < s.poolCredit n p) :
    s.poolCredit n p = (s.useCredit n [p]).poolCredit n p + 1 := by
  have hbase : poolBase p = 256 := if_pos hp
  have hsize : poolSize p ≤ 192 := (by decide : ∀ p < 3, poolSize p ≤ 192) p hp
  simp only [State.poolCredit, State.useCredit, State.portOf_setPort_self, List.foldl, hbase, getD_bump _ _ _ (hp.trans (by decide : 3 < 6))]
    at hcredit ⊢
  omega

theorem State.takeBulk_one {e : Entry} (hcredit : 0 < s.poolCredit n (s.poolFor n e.dest e.tc false)) :
    s.takeBulk n [e] [] [] [] [] = ([(e, s.poolFor n e.dest e.tc false)], []) := by
  simp [State.takeBulk, hcredit]

/-- The one bundle of the queue is the frame in progress. -/
def State.building (n : Nat) (e : Entry) : State :=
  s.setPort n { s.portOf n with bulkQ := [], cur := some ⟨[e], [s.poolFor n e.dest e.tc false], none, 0⟩ }

theorem State.building_portOf (e : Entry) :
    (s.building n e).portOf n = { s.portOf n with bulkQ := [], cur := some ⟨[e], [s.poolFor n e.dest e.tc false], none, 0⟩ } :=
  State.portOf_setPort_self _ _ _

theorem State.building_poolCredit (e : Entry) (p : Nat) : (s.building n e).poolCredit n p = s.poolCredit n p := by
  rw [State.poolCredit, State.building_portOf, State.poolCredit]

theorem bulkFrameBuild_takes (e : Entry) (hopen : s.windowOpen n = true) (hcur : (s.portOf n).cur = none) (hq : (s.portOf n).bulkQ = [e])
    (hcredit : 0 < s.poolCredit n (s.poolFor n e.dest e.tc false)) :
    ∃ t, exec (.bulkFrameBuild n) s = .next t ∧ (t.portOf n).bulkQ = [] ∧
      (t.portOf n).cur = some ⟨[e], [s.poolFor n e.dest e.tc false], none, 0⟩ ∧ (t.portOf n).retry = (s.portOf n).retry ∧
      s.poolCredit n (s.poolFor n e.dest e.tc false) = t.poolCredit n (s.poolFor n e.dest e.tc false) + 1 ∧
      Keeps (fun _ => False) [.port] s t := by
  have hexec : exec (.bulkFrameBuild n) s = .next ((s.building n e).useCredit n [s.poolFor n e.dest e.tc false]) := by
    show execBulkFrameBuild n s = _
    simp [execBulkFrameBuild, hopen, hcur, hq, s.takeBulk_one hcredit, State.building]
  rw [← s.building_poolCredit e] at hcredit ⊢
  refine ⟨_, hexec, ?_, ?_, ?_, State.poolCredit_useCredit _ (s.poolFor_bulk_lt _ _ _) hcredit,
    ((useCredit_only _ _ _).after (by decide) (setPort_only s n _)).keepsRegs⟩ <;>
  rw [State.useCredit, State.portOf_setPort_self, State.building_portOf]

theorem bulkFrameBuild_idle (h : s.windowOpen n = false ∨ (s.portOf n).bulkQ = [] ∨ (s.portOf n).cur ≠ none) :
    ∃ t, exec (.bulkFrameBuild n) s = .next t ∧ t = s := by
  refine ⟨s, ?_, rfl⟩
  show execBulkFrameBuild n s = _
  unfold execBulkFrameBuild
  rcases h with hopen | hq | hcur
  · simp [hopen]
  · simp [hq, State.takeBulk]
  · simp [Option.isNone_iff_eq_none, hcur]

end

/-! ### Sequenced frames that arrive (R302, R308, R309) -/

section
variable (s : State) {n : Nat}

/-- Of port `p` only what the transmitter keeps of unacknowledged frames has changed. -/
def Port.Unacked (p q : Port) : Prop := q = { p with retry := q.retry, ackFig := q.ackFig, rep := q.rep }

/-- An acknowledgement changes ACKED and what the transmitter keeps of unacknowledged frames. -/
structure State.Acked (n : Nat) (s t : State) : Prop where
  only : Only 257 s t
  reg : ∀ a, a ≠ GLS_SEQ n → t.reg a = s.reg a
  expect : t.f (GLS_SEQ_RX_EXPECT n) = s.f (GLS_SEQ_RX_EXPECT n)
  port : (s.portOf n).Unacked (t.portOf n)

theorem State.ackTo_acked (ack : Nat) : State.Acked n s (s.ackTo n ack) := by
  refine ⟨ackTo_only s n ack, ?_, ?_, ?_⟩ <;> unfold State.ackTo <;> extract_lets p k rest <;> split
  · exact fun _ _ => rfl
  · exact fun a ha => State.reg_put_ne (x := GLS_SEQ_ACKED n) _ ack ha.symm
  · rfl
  · exact State.f_put_disj (x := GLS_SEQ_ACKED n) (y := GLS_SEQ_RX_EXPECT n) _ ack rfl (by simp) (by simp) (by simp)
  · rfl
  · show Port.Unacked _ ((State.setPort _ n _).portOf n)
    rw [State.portOf_setPort_self]
    rfl

/-- The frame with the expected LSEQ is taken: the next one is expected. -/
def State.took (n : Nat) : State :=
  (s.put (GLS_SEQ_RX_EXPECT n) (s.f (GLS_SEQ_RX_EXPECT n) + 1)).setPort n { s.portOf n with asked := none, retryDue := none }

theorem State.rxSeq_expected : s.rxSeq n (s.f (GLS_SEQ_RX_EXPECT n)) = (s.took n, true) := if_pos rfl

theorem State.took_only : Only 257 s (s.took n) := (setPort_only _ _ _).after (by decide) ((put_only _ _ _).mono (by decide))

theorem State.took_reg {a : Nat} (h : a ≠ GLS_SEQ n) : (s.took n).reg a = s.reg a := State.reg_put_ne (x := GLS_SEQ_RX_EXPECT n) s _ h.symm

theorem State.took_expect : (s.took n).f (GLS_SEQ_RX_EXPECT n) = (s.f (GLS_SEQ_RX_EXPECT n) + 1) % 256 :=
  State.f_put (x := GLS_SEQ_RX_EXPECT n) s _ (by simp) (by simp)

theorem State.bulkPool_setBulkPool (p : Nat) (l : List PoolEntry) : (s.setBulkPool n p l).bulkPool n p = l := by
  rw [State.bulkPool, State.setBulkPool, State.portOf_setPort_self, mget_mset_self]

theorem State.acceptBulk_one (e : Entry) :
    s.acceptBulk n [e] = s.setBulkPool n (s.poolHere e.dest e.tc false) (s.bulkPool n (s.poolHere e.dest e.tc false) ++ [⟨s.fig.toNat, e⟩]) :=
  rfl

theorem State.poolHere_congr {s t : State} (h : t.reg LAT_NODE = s.reg LAT_NODE) (dest : Nat) (tc urgent : Bool) :
    t.poolHere dest tc urgent = s.poolHere dest tc urgent := by
  rw [State.poolHere, State.nodeId, State.f_of_reg (x := LAT_NODE_NODE) h, State.poolHere, State.nodeId]

theorem execBulkFrame_of_one {q ack : Nat} {es : List Entry} {slots : List (List Nat)} (h : s.Hears n slots [.bulk q ack es]) :
    ∃ u, State.Heard n s u ∧ exec (.bulkFrame n slots) s =
      .next (if (u.rxSeq n q).2 then ((u.rxSeq n q).1.acceptBulk n es).ackTo n ack else (u.rxSeq n q).1) :=
  exec_of_one s (.bulkFrame n slots) h rfl rfl (by simp)

theorem bulkFrame_accepts (ack : Nat) (e : Entry) (slots : List (List Nat))
    (h : s.Hears n slots [.bulk (s.f (GLS_SEQ_RX_EXPECT n)) ack [e]]) :
    ∃ t, exec (.bulkFrame n slots) s = .next t ∧
      t.bulkPool n (s.poolHere e.dest e.tc false) = s.bulkPool n (s.poolHere e.dest e.tc false) ++ [⟨s.fig.toNat, e⟩] ∧
      t.f (GLS_SEQ_RX_EXPECT n) = (s.f (GLS_SEQ_RX_EXPECT n) + 1) % 256 ∧ Keeps (fun a => a = GLS_SEQ n ∨ LaneErrOf n a) [.port] s t := by
  obtain ⟨u, hheard, hexec⟩ := execBulkFrame_of_one s h
  rw [← hheard.expect, State.rxSeq_expected, if_pos rfl, State.acceptBulk_one] at hexec
  have hnode : (u.took n).reg LAT_NODE = s.reg LAT_NODE :=
    (u.took_reg (by unfold LAT_NODE GLS_SEQ; omega)).trans (hheard.reg _ (not_laneErrOf (by unfold LAT_NODE GLS_LANE_ERR; omega)))
  have hpool : (u.took n).bulkPool n (s.poolHere e.dest e.tc false) = s.bulkPool n (s.poolHere e.dest e.tc false) := by
    rw [State.bulkPool, State.took, State.portOf_setPort_self, hheard.port, State.bulkPool]
  rw [State.poolHere_congr hnode, hpool] at hexec
  have hack := State.ackTo_acked ((u.took n).setBulkPool n (s.poolHere e.dest e.tc false)
    (s.bulkPool n (s.poolHere e.dest e.tc false) ++ [⟨(u.took n).fig.toNat, e⟩])) (n := n) ack
  refine ⟨_, hexec, ?_, ?_, ?_⟩
  · rw [State.bulkPool, hack.port]
    show State.bulkPool _ n _ = _
    rw [State.bulkPool_setBulkPool, ← hheard.fig]
    rfl
  · rw [hack.expect, ← hheard.expect]
    exact u.took_expect
  · refine ((hheard.only.trans u.took_only).trans ((setBulkPool_only _ n _ _).mono (by decide))).trans hack.only |>.keeps fun a ha => ?_
    exact (hack.reg a (fun e => ha (.inl e))).trans
      ((u.took_reg (fun e => ha (.inl e))).trans (hheard.reg a (fun e => ha (.inr e))))

theorem glsSeq_ne_discard (n : Nat) : GLS_SEQ n ≠ GLS_CNT_DISCARD n := by
  unfold GLS_SEQ GLS_CNT_DISCARD
  omega

theorem State.discardOne_reg {a : Nat} (h : a ≠ GLS_CNT_DISCARD n) : (s.discardOne n).reg a = s.reg a :=
  State.reg_put_ne (x := GLS_CNT_DISCARD_COUNT n) s _ h.symm

theorem State.discardOne_count :
    (s.discardOne n).f (GLS_CNT_DISCARD_COUNT n) = min (2 ^ 32 - 1) (s.f (GLS_CNT_DISCARD_COUNT n) + 1) :=
  (State.f_put (x := GLS_CNT_DISCARD_COUNT n) s _ (by simp) (by simp)).trans (by dsimp only; omega)

namespace State.Heard
variable {s u : State} (h : State.Heard n s u)
include h

theorem discarded_only : Only 257 s (u.discardOne n) := h.only.trans ((discardOne_only u n).mono (by decide))

theorem discarded_reg {a : Nat} (ha : ¬ (a = GLS_CNT_DISCARD n ∨ LaneErrOf n a)) : (u.discardOne n).reg a = s.reg a :=
  (u.discardOne_reg fun e => ha (.inl e)).trans (h.reg a fun e => ha (.inr e))

theorem discarded_seq : (u.discardOne n).reg (GLS_SEQ n) = s.reg (GLS_SEQ n) :=
  (u.discardOne_reg (glsSeq_ne_discard n)).trans (h.reg _ (not_laneErrOf (by unfold GLS_SEQ GLS_LANE_ERR; omega)))

end State.Heard

/-- The retry request for the expected LSEQ falls due. -/
def State.asking (n : Nat) : State :=
  s.setPort n { s.portOf n with
    asked := some (s.f (GLS_SEQ_RX_EXPECT n)), askFig := s.fig.toNat, retryDue := some (s.f (GLS_SEQ_RX_EXPECT n)) }

theorem State.rxRefuse_of_unasked (h : (s.portOf n).asked ≠ some (s.f (GLS_SEQ_RX_EXPECT n))) :
    s.rxRefuse n = (s.discardOne n).asking n := by
  have hexpect : (s.discardOne n).f (GLS_SEQ_RX_EXPECT n) = s.f (GLS_SEQ_RX_EXPECT n) :=
    State.f_of_reg (s.discardOne_reg (glsSeq_ne_discard n))
  rw [State.asking, hexpect]
  exact if_neg h

theorem bulkFrame_refuses (slots : List (List Nat)) (h : s.Hears n slots [.fail])
    (hasked : (s.portOf n).asked ≠ some (s.f (GLS_SEQ_RX_EXPECT n))) :
    ∃ t, exec (.bulkFrame n slots) s = .next t ∧ t.reg (GLS_SEQ n) = s.reg (GLS_SEQ n) ∧ (t.portOf n).bulk = (s.portOf n).bulk ∧
      (t.portOf n).asked = some (s.f (GLS_SEQ_RX_EXPECT n)) ∧ (t.portOf n).retryDue = some (s.f (GLS_SEQ_RX_EXPECT n)) ∧
      t.f (GLS_CNT_DISCARD_COUNT n) = min (2 ^ 32 - 1) (s.f (GLS_CNT_DISCARD_COUNT n) + 1) ∧
      Keeps (fun a => a = GLS_CNT_DISCARD n ∨ LaneErrOf n a) [.port] s t := by
  obtain ⟨u, hheard, hexec⟩ := exec_of_fail s (.bulkFrame n slots) h rfl
  have hexpect : (u.discardOne n).f (GLS_SEQ_RX_EXPECT n) = s.f (GLS_SEQ_RX_EXPECT n) :=
    (State.f_of_reg (u.discardOne_reg (glsSeq_ne_discard n))).trans hheard.expect
  rw [u.rxRefuse_of_unasked (by rwa [hheard.port.asked, hheard.expect]), State.asking, hexpect] at hexec
  refine ⟨_, hexec, hheard.discarded_seq, ?_, ?_, ?_, ?_,
    (hheard.discarded_only.trans ((setPort_only _ _ _).mono (by decide))).keeps fun a => hheard.discarded_reg⟩
  · rw [State.portOf_setPort_self]
    exact hheard.port.bulk
  · rw [State.portOf_setPort_self]
  · rw [State.portOf_setPort_self]
  · exact u.discardOne_count.trans (by rw [hheard.f (by show GLS_CNT_DISCARD n < _; unfold GLS_CNT_DISCARD GLS_LANE_ERR; omega)])

/-- A frame behind the expected LSEQ. -/
theorem State.rxSeq_of_behind {q : Nat} (h : sext 8 (q + 256 - s.f (GLS_SEQ_RX_EXPECT n)) < 0) : s.rxSeq n q = (s.discardOne n, false) := by
  have hne : q ≠ s.f (GLS_SEQ_RX_EXPECT n) := by
    rintro rfl
    rw [Nat.add_sub_cancel_left] at h
    exact absurd h (by decide)
  rw [State.rxSeq, if_neg hne, if_pos h]

theorem bulkFrame_discards (q ack : Nat) (es : List Entry) (slots : List (List Nat)) (h : s.Hears n slots [.bulk q ack es])
    (hbehind : sext 8 (q + 256 - s.f (GLS_SEQ_RX_EXPECT n)) < 0) :
    ∃ t, exec (.bulkFrame n slots) s = .next t ∧ t.reg (GLS_SEQ n) = s.reg (GLS_SEQ n) ∧ (t.portOf n).bulk = (s.portOf n).bulk ∧
      (t.portOf n).asked = (s.portOf n).asked ∧ (t.portOf n).retryDue = (s.portOf n).retryDue ∧
      Keeps (fun a => a = GLS_CNT_DISCARD n ∨ LaneErrOf n a) [.port] s t := by
  obtain ⟨u, hheard, hexec⟩ := execBulkFrame_of_one s h
  rw [← hheard.expect] at hbehind
  rw [u.rxSeq_of_behind hbehind, if_neg Bool.false_ne_true] at hexec
  exact ⟨_, hexec, hheard.discarded_seq, hheard.port.bulk, hheard.port.asked, hheard.port.retryDue,
    hheard.discarded_only.keeps fun a => hheard.discarded_reg⟩

/-! ### Credit (R303, R305) -/

/-- The freed counts of a CREDIT status are loaded. -/
def State.credited (n : Nat) (counts : List Nat) : State :=
  (s.statusIn n).setPort n
    { (s.statusIn n).portOf n with credit := (List.range 6).map (fun p => counts.getD p 0 % poolBase p) }

theorem State.credited_portOf (counts : List Nat) :
    (s.credited n counts).portOf n =
      { s.portOf n with statFig := s.fig.toNat, credit := (List.range 6).map (fun p => counts.getD p 0 % poolBase p) } := by
  rw [State.credited, State.portOf_setPort_self, State.statusIn, State.portOf_setPort_self]

theorem State.credited_only (counts : List Nat) : Only 257 s (s.credited n counts) :=
  ((setPort_only _ _ _).mono (by decide)).trans ((setPort_only _ _ _).mono (by decide))

theorem creditSlot_loads (ack : Nat) (counts : List Nat) (slots : List (List Nat)) (h : s.Hears n slots [.credit ack counts]) :
    ∃ t, exec (.creditSlot n slots) s = .next t ∧
      (t.portOf n).credit = (List.range 6).map (fun p => counts.getD p 0 % poolBase p) ∧ (t.portOf n).statFig = s.fig.toNat ∧
      Keeps (fun a => a = GLS_SEQ n ∨ LaneErrOf n a) [.port] s t := by
  obtain ⟨u, hheard, hexec⟩ : ∃ u, State.Heard n s u ∧ exec (.creditSlot n slots) s = .next ((u.credited n counts).ackTo n ack) :=
    exec_of_one s (.creditSlot n slots) h rfl rfl (by simp)
  have hack := (u.credited n counts).ackTo_acked (n := n) ack
  refine ⟨_, hexec, ?_, ?_, ((hheard.only.trans (u.credited_only counts)).trans hack.only).keeps fun a ha => ?_⟩
  · rw [hack.port, State.credited_portOf]
  · rw [hack.port, State.credited_portOf, hheard.fig]
  · exact (hack.reg a fun e => ha (.inl e)).trans (hheard.reg a fun e => ha (.inr e))

/-! ### Replay (R308 to R310) -/

/-- A replay goes on at `q`. -/
def State.replayAt (n q : Nat) : State := s.setPort n { s.portOf n with rep := some q, ackFig := s.fig.toNat }

/-- No unacknowledged frame has been replayed RETRY_LIMIT times, and none fails its check. -/
theorem State.replay_of_under (q : Nat)
    (hunder : (s.portOf n).retry.any (fun e => decide (max 1 (s.f (GLS_LINK_CFG_RETRY_LIMIT n)) ≤ e.2.2)) = false) :
    s.replay n q [] false = s.replayAt n q := by
  have hpart : ((s.portOf n).retry.dropWhile (fun x => x.1 != q)).any
      (fun e => decide (max 1 (s.f (GLS_LINK_CFG_RETRY_LIMIT n)) ≤ e.2.2)) = false := by
    rw [List.any_eq_false] at hunder ⊢
    exact fun e he => hunder e ((List.dropWhile_sublist _).mem he)
  simp only [State.replay, hpart, Bool.false_eq_true, if_false, List.not_mem_nil, List.map_id', State.replayAt]

theorem retryRequest_replays (l : Nat) (slots : List (List Nat)) (h : s.Hears n slots [.retry l])
    (hmem : (s.portOf n).retry.any (fun e => e.1 == l) = true)
    (hunder : (s.portOf n).retry.any (fun e => decide (max 1 (s.f (GLS_LINK_CFG_RETRY_LIMIT n)) ≤ e.2.2)) = false) :
    ∃ t, exec (.retryRequest n slots [] false) s = .next t ∧ (t.portOf n).retry = (s.portOf n).retry ∧ (t.portOf n).rep = some l ∧
      (t.portOf n).ackFig = s.fig.toNat ∧ Keeps (fun a => LaneErrOf n a) [.port] s t := by
  obtain ⟨u, hheard, hexec⟩ : ∃ u, State.Heard n s u ∧ exec (.retryRequest n slots [] false) s =
      .next (if (u.portOf n).retry.any (fun e => e.1 == l) then u.replay n l [] false else u) :=
    exec_of_one s (.retryRequest n slots [] false) h rfl rfl (by simp)
  have hlimit : u.f (GLS_LINK_CFG_RETRY_LIMIT n) = s.f (GLS_LINK_CFG_RETRY_LIMIT n) :=
    hheard.f (by show GLS_LINK_CFG n < _; unfold GLS_LINK_CFG GLS_LANE_ERR; omega)
  rw [hheard.port.retry, hmem, if_pos rfl, u.replay_of_under l (by rwa [hheard.port.retry, hlimit])] at hexec
  refine ⟨_, hexec, ?_, ?_, ?_, (hheard.only.trans ((setPort_only _ _ _).mono (by decide))).keeps hheard.reg⟩
  · rw [State.replayAt, State.portOf_setPort_self, hheard.port.retry]
  · rw [State.replayAt, State.portOf_setPort_self]
  · rw [State.replayAt, State.portOf_setPort_self, hheard.fig]

theorem replayTimeout_replays (hup : s.portUp n = true)
    (hunder : (s.portOf n).retry.any (fun e => decide (max 1 (s.f (GLS_LINK_CFG_RETRY_LIMIT n)) ≤ e.2.2)) = false)
    (hsome : (s.portOf n).retry ≠ []) (hlate : (s.portOf n).ackFig + 4 * s.reqTmo n ≤ s.fig.toNat) :
    ∃ t, exec (.replayTimeout n [] false) s = .next t ∧ (t.portOf n).retry = (s.portOf n).retry ∧
      (t.portOf n).rep = (s.portOf n).retry.head?.map (fun e => e.1) ∧ (t.portOf n).ackFig = s.fig.toNat ∧
      Keeps (fun _ => False) [.port] s t := by
  obtain ⟨x, rest, hretry⟩ := List.exists_cons_of_ne_nil hsome
  have hexec : exec (.replayTimeout n [] false) s = .next (s.replayAt n x.1) := by
    show execReplayTimeout n [] false s = _
    simp [execReplayTimeout, hretry, hup, hlate, s.replay_of_under x.1 hunder]
  refine ⟨_, hexec, ?_, ?_, ?_, (setPort_only s n _).keepsRegs⟩
  · rw [State.replayAt, State.portOf_setPort_self]
  · rw [State.replayAt, State.portOf_setPort_self, hretry, List.head?_cons, Option.map_some]
  · rw [State.replayAt, State.portOf_setPort_self]

/-! ### Slots that fall due (R299, R309, R324) -/

theorem retryTimeout_asksAgain (hup : s.portUp n = true) (hasked : (s.portOf n).asked = some (s.f (GLS_SEQ_RX_EXPECT n)))
    (hlate : (s.portOf n).askFig + s.reqTmo n ≤ s.fig.toNat) :
    ∃ t, exec (.retryTimeout n) s = .next t ∧ (t.portOf n).retryDue = some (s.f (GLS_SEQ_RX_EXPECT n)) ∧
      (t.portOf n).askFig = s.fig.toNat ∧ Keeps (fun _ => False) [.port] s t := by
  refine ⟨s.setPort n { s.portOf n with retryDue := some (s.f (GLS_SEQ_RX_EXPECT n)), askFig := s.fig.toNat }, ?_, ?_, ?_,
    (setPort_only s n _).keepsRegs⟩
  · exact congrArg Host.Outcome.next (if_pos (by simp [hup, hasked, hlate]))
  · rw [State.portOf_setPort_self]
  · rw [State.portOf_setPort_self]

theorem statusSlotDue_falls (hup : s.portUp n = true) (hlate : max 8 (s.f (GLS_LINK_CFG_STATUS_INT n)) ≤ (s.portOf n).sinceStatus) :
    ∃ t, exec (.statusSlotDue n) s = .next t ∧ (t.portOf n).statusDue = true ∧ Keeps (fun _ => False) [.port] s t := by
  refine ⟨s.setPort n { s.portOf n with statusDue := true }, ?_, ?_, (setPort_only s n _).keepsRegs⟩
  · exact congrArg Host.Outcome.next (if_pos (by rw [hup, decide_eq_true hlate]; rfl))
  · rw [State.portOf_setPort_self]

theorem skipDue_falls (hlate : 64 * min 16 (max 1 (s.f (GLS_LINK_CFG_SKIP_INT n))) ≤ (s.portOf n).sinceSkip) :
    ∃ t, exec (.skipDue n) s = .next t ∧ (t.portOf n).skipDue = true ∧ Keeps (fun _ => False) [.port] s t := by
  refine ⟨s.setPort n { s.portOf n with skipDue := true }, ?_, ?_, (setPort_only s n _).keepsRegs⟩
  · exact congrArg Host.Outcome.next (if_pos hlate)
  · rw [State.portOf_setPort_self]

theorem skipSlot_completesNothing (slots : List (List Nat)) (h : s.Hears n slots []) :
    ∃ t, exec (.skipSlot n slots) s = .next t ∧ t = (rxSlots n slots s).1 ∧ Keeps (fun a => LaneErrOf n a) [.port] s t := by
  have hheard := rxSlots_heard (n := n) slots s
  exact ⟨_, congrArg Host.Outcome.next (s.receive_of_hears h _ _ rfl), rfl, hheard.only.keeps hheard.reg⟩

/-! ### Transit (R300, R303, R306) -/

/-- What a change of one port leaves alone in it, it leaves alone in every port. -/
theorem State.portOf_setPort_get {α : Type} (g : Port → α) {q : Nat} {x : Port} (h : g x = g (s.portOf q)) :
    g ((s.setPort q x).portOf n) = g (s.portOf n) := by
  by_cases hq : q = n
  · subst hq
    rwa [State.portOf_setPort_self]
  · rw [s.portOf_setPort_ne x hq]

theorem State.poolFree_get {α : Type} (g : Port → α) {m p k : Nat}
    (h : ∀ x : Port, g { x with freed := bump x.freed p (poolBase p) k } = g x) : g ((s.poolFree m p k).portOf n) = g (s.portOf n) :=
  s.portOf_setPort_get g (h _)

theorem State.poolFree_freed {p : Nat} (hp : p < 6) (k : Nat) :
    ((s.poolFree n p k).portOf n).freed.getD p 0 = ((s.portOf n).freed.getD p 0 + k) % poolBase p := by
  rw [State.poolFree, State.portOf_setPort_self, getD_bump _ _ _ hp]

theorem State.urgPool_setUrgPool (p : Nat) (l : List PoolUrgent) : (s.setUrgPool n p l).urgPool n p = l := by
  rw [State.urgPool, State.setUrgPool, State.portOf_setPort_self, mget_mset_self]

/-- A bundle has entered the bulk queue of port `q`. -/
def State.queuedBulk (q : Nat) (e : Entry) : State :=
  s.setPort q { s.portOf q with bulkQ := (s.portOf q).bulkQ ++ [e], bulkEdge := some s.fig.toNat }

/-- An entry has entered the urgent queue of port `q`. -/
def State.queuedUrgent (q : Nat) (u : Urgent) : State :=
  s.setPort q { s.portOf q with urgQ := (s.portOf q).urgQ ++ [u], urgEdge := some s.fig.toNat }

theorem State.setBulkPool_get {α : Type} (g : Port → α) {m p : Nat} {l : List PoolEntry}
    (h : ∀ x : Port, g { x with bulk := mset x.bulk [] p l } = g x) : g ((s.setBulkPool m p l).portOf n) = g (s.portOf n) :=
  s.portOf_setPort_get g (h _)

theorem State.setUrgPool_get {α : Type} (g : Port → α) {m p : Nat} {l : List PoolUrgent}
    (h : ∀ x : Port, g { x with urg := mset x.urg [] p l } = g x) : g ((s.setUrgPool m p l).portOf n) = g (s.portOf n) :=
  s.portOf_setPort_get g (h _)

theorem State.queuedBulk_bulkQ (q : Nat) (e : Entry) : ((s.queuedBulk q e).portOf q).bulkQ = (s.portOf q).bulkQ ++ [e] := by
  rw [State.queuedBulk, State.portOf_setPort_self]

theorem State.queuedBulk_freed (q : Nat) (e : Entry) : ((s.queuedBulk q e).portOf n).freed = (s.portOf n).freed :=
  s.portOf_setPort_get Port.freed rfl

theorem State.queuedUrgent_urgQ (q : Nat) (u : Urgent) : ((s.queuedUrgent q u).portOf q).urgQ = (s.portOf q).urgQ ++ [u] := by
  rw [State.queuedUrgent, State.portOf_setPort_self]

theorem State.queuedUrgent_freed (q : Nat) (u : Urgent) : ((s.queuedUrgent q u).portOf n).freed = (s.portOf n).freed :=
  s.portOf_setPort_get Port.freed rfl

theorem State.enqBulk_of_turn {q : Nat} {a : Age} (e : Entry) (hroom : (s.portOf q).bulkQ.length < 32)
    (hturn : s.queueTurn q false a = true) : s.enqBulk q a e = some (s.queuedBulk q e) := if_pos ⟨hroom, hturn⟩

theorem State.enqUrgent_of_turn {q : Nat} {a : Age} (u : Urgent) (hroom : (s.portOf q).urgQ.length < 8)
    (hturn : s.queueTurn q true a = true) : s.enqUrgent q a u = some (s.queuedUrgent q u) := if_pos ⟨hroom, hturn⟩

theorem transitForward_bulk (n p q k : Nat) (e : Entry) (rest : List PoolEntry) (hstate : s.latState ≠ 0) (hvalid : s.on LAT_NODE_VALID = true)
    (hp : p = 1 ∨ p = 2) (hpool : s.bulkPool n p = ⟨k, e⟩ :: rest) (hroute : s.routeOf e.dest = some q)
    (hroom : (s.portOf q).bulkQ.length < 32) (hturn : s.queueTurn q false (k, 0, 8 * n + p) = true) :
    ∃ t, exec (.transitForward n p .ok false) s = .next t ∧ t.bulkPool n p = rest ∧
      (t.portOf q).bulkQ = (s.portOf q).bulkQ ++ [{ e with tc := e.tc || s.on (GLS_CTRL_DATELINE q) }] ∧
      (t.portOf n).freed.getD p 0 = ((s.portOf n).freed.getD p 0 + 1) % 256 ∧ Keeps (fun _ => False) [.port] s t := by
  have hbulk : (p == 1 || p == 2) = true := by simpa using hp
  have hp3 : p < 3 := by omega
  have hok : (Ecc.ok == Ecc.ue) = false := rfl
  have hexec : exec (.transitForward n p .ok false) s = .next
      (((s.queuedBulk q { e with tc := e.tc || s.on (GLS_CTRL_DATELINE q) }).setBulkPool n p rest).poolFree n p 1) := by
    show execTransitForward n p .ok false s = _
    simp [execTransitForward, hstate, hvalid, hbulk, hpool, hroute, State.poolCheck, hok, s.enqBulk_of_turn _ hroom hturn]
  refine ⟨_, hexec, ?_, ?_, ?_, ?_⟩
  · rw [State.bulkPool, State.poolFree_get _ (fun x => mget x.bulk [] p) fun _ => rfl]
    exact State.bulkPool_setBulkPool _ _ _
  · rw [State.poolFree_get _ Port.bulkQ fun _ => rfl, State.setBulkPool_get _ Port.bulkQ fun _ => rfl, State.queuedBulk_bulkQ]
  · rw [State.poolFree_freed _ (by omega), poolBase, if_pos hp3, State.setBulkPool_get _ Port.freed fun _ => rfl,
      State.queuedBulk_freed]
  · exact (((setPort_only s q _).trans (setBulkPool_only _ n p rest)).trans (poolFree_only _ n p 1)).keepsRegs

theorem transitForward_urgent (n p q k : Nat) (u : Urgent) (e : Ecc) (b : Bool) (rest : List PoolUrgent) (hstate : s.latState ≠ 0)
    (hvalid : s.on LAT_NODE_VALID = true) (hp : p = 4 ∨ p = 5) (hpool : s.urgPool n p = ⟨k, u, e, b⟩ :: rest)
    (hroute : s.routeOf u.dest = some q) (hroom : (s.portOf q).urgQ.length < 8) (hturn : s.queueTurn q true (k, 0, 8 * n + p) = true) :
    ∃ t, exec (.transitForward n p .ok false) s = .next t ∧ t.urgPool n p = rest ∧
      (t.portOf q).urgQ = (s.portOf q).urgQ ++ [if s.on (GLS_CTRL_DATELINE q) then u.withTc else u] ∧
      (t.portOf n).freed.getD p 0 = ((s.portOf n).freed.getD p 0 + 1) % 16 ∧ Keeps (fun _ => False) [.port] s t := by
  have hbulk : (p == 1 || p == 2) = false := by simp; omega
  have hurg : (p == 4 || p == 5) = true := by simpa using hp
  have hp3 : ¬ p < 3 := by omega
  have hok : (Ecc.ok == Ecc.ue) = false := rfl
  have hexec : exec (.transitForward n p .ok false) s = .next
      (((s.queuedUrgent q (if s.on (GLS_CTRL_DATELINE q) then u.withTc else u)).setUrgPool n p rest).poolFree n p 1) := by
    show execTransitForward n p .ok false s = _
    cases u <;>
    simp [execTransitForward, hstate, hvalid, hbulk, hurg, hpool, hroute, State.poolCheck, hok, s.enqUrgent_of_turn _ hroom hturn]
  refine ⟨_, hexec, ?_, ?_, ?_, ?_⟩
  · rw [State.urgPool, State.poolFree_get _ (fun x => mget x.urg [] p) fun _ => rfl]
    exact State.urgPool_setUrgPool _ _ _
  · rw [State.poolFree_get _ Port.urgQ fun _ => rfl, State.setUrgPool_get _ Port.urgQ fun _ => rfl, State.queuedUrgent_urgQ]
  · rw [State.poolFree_freed _ (by omega), poolBase, if_neg hp3, State.setUrgPool_get _ Port.freed fun _ => rfl,
      State.queuedUrgent_freed]
  · exact (((setPort_only s q _).trans (setUrgPool_only _ n p rest)).trans (poolFree_only _ n p 1)).keepsRegs

/-! ### What a slot boundary sends (R299) -/

/-- Of port `p` only the step of a move to the spare lane, and the SPARE statuses that are due, have changed. -/
def Port.Mirrored (p q : Port) : Prop := q = { p with txStep := q.txStep, spareOut := q.spareOut }

namespace Port.Mirrored
variable {p q : Port} (h : p.Mirrored q)
include h

theorem retryDue : q.retryDue = p.retryDue := by rw [h]

theorem retry : q.retry = p.retry := by rw [h]

theorem rep : q.rep = p.rep := by rw [h]

theorem beatDue : q.beatDue = p.beatDue := by rw [h]

theorem statusDue : q.statusDue = p.statusDue := by rw [h]

theorem skipDue : q.skipDue = p.skipDue := by rw [h]

end Port.Mirrored

theorem State.mirrorStart_mirrored (n : Nat) : (s.portOf n).Mirrored ((s.mirrorStart n).portOf n) := by
  unfold State.mirrorStart
  extract_lets p
  split
  · split
    · rw [State.portOf_setPort_self]
      rfl
    · rfl
  · rfl

theorem State.mirrorStart_regs (n : Nat) : (s.mirrorStart n).regs = s.regs := (mirrorStart_only s n).regs (by decide)

theorem State.mirrorStart_of_none (h : (s.portOf n).txStep = none) : s.mirrorStart n = s := by
  rw [State.mirrorStart, h]

theorem State.mirrorStart_urgentDue (n : Nat) : (s.mirrorStart n).urgentDue n = s.urgentDue n := by
  have hport := s.mirrorStart_mirrored n
  have hregs := s.mirrorStart_regs n
  have hfor (d : Nat) (tc : Bool) : (s.mirrorStart n).poolFor n d tc true = s.poolFor n d tc true := by
    rw [State.poolFor, State.on_congr hregs, State.f_congr hregs, State.poolFor]
  have hcredit (p : Nat) : (s.mirrorStart n).poolCredit n p = s.poolCredit n p := by
    rw [State.poolCredit, hport, State.poolCredit]
  have hopen : (s.mirrorStart n).windowOpen n = s.windowOpen n := by
    rw [State.windowOpen, State.portUp, State.f_congr hregs, hport, State.windowOpen, State.portUp]
    rfl
  simp only [State.urgentDue, hfor, hcredit, hopen]
  rw [hport]

/-- Nothing replays when an urgent entry is due. -/
theorem State.rep_of_urgentDue {x : Urgent × Nat} (h : s.urgentDue n = some x) : (s.portOf n).rep = none := by
  unfold State.urgentDue at h
  split at h
  · cases h
  · dsimp only at h
    split at h
    case isFalse => cases h
    case isTrue hdue =>
      obtain ⟨hopen, -⟩ := hdue
      simp only [State.windowOpen, Port.replaying, Bool.and_eq_true, Bool.not_eq_true', Bool.or_eq_false_iff] at hopen
      exact Option.isSome_eq_false_iff.1 hopen.2.1 |> Option.isNone_iff_eq_none.1

theorem Port.repFrame_of_none {p : Port} (h : p.rep = none) : p.repFrame = none := by
  rw [Port.repFrame, h, Option.bind_none]

theorem slotDue_retry (n q : Nat) (hretry : (s.portOf n).retryDue = some q) :
    (s.slotDue n).2 = (retrySlot q, false) ∧ ((s.slotDue n).1.portOf n).retryDue = none := by
  have hport := s.mirrorStart_mirrored n
  have hslot : s.slotDue n =
      ((s.mirrorStart n).setPort n { (s.mirrorStart n).portOf n with retryDue := none }, retrySlot q, false) := by
    simp only [State.slotDue, hport.retryDue, hretry]
  rw [hslot, State.portOf_setPort_self]
  exact ⟨rfl, rfl⟩

/-- The head of the urgent queue has become a frame. -/
def State.framed (n : Nat) (u : Urgent) : State × Nat :=
  (s.setPort n { s.portOf n with urgQ := (s.portOf n).urgQ.tail }).assignSeq n (.urgent u)

theorem State.framed_lseq (u : Urgent) : (s.framed n u).2 = s.f (GLS_SEQ_TX_NEXT n) := rfl

theorem State.framed_next (u : Urgent) : (s.framed n u).1.f (GLS_SEQ_TX_NEXT n) = (s.f (GLS_SEQ_TX_NEXT n) + 1) % 256 :=
  State.f_put (x := GLS_SEQ_TX_NEXT n) _ _ (by simp) (by simp)

theorem State.framed_retry (u : Urgent) :
    ((s.framed n u).1.portOf n).retry = (s.portOf n).retry ++ [(s.f (GLS_SEQ_TX_NEXT n), Frm.urgent u, 0)] := by
  show ((State.setPort _ n _).portOf n).retry = _
  rw [State.portOf_setPort_self, State.portOf_setPort_self]
  rfl

theorem State.useCredit_retry (pools : List Nat) : ((s.useCredit n pools).portOf n).retry = (s.portOf n).retry := by
  rw [State.useCredit, State.portOf_setPort_self]

theorem State.insertSlots_portOf (l : List (List Sym)) : (s.insertSlots n l).1.portOf n = { s.portOf n with ins := l.drop 1 } :=
  State.portOf_setPort_self _ _ _

theorem State.useCredit_f (pools : List Nat) (x : Fld) : (s.useCredit n pools).f x = s.f x := rfl

theorem State.insertSlots_f (l : List (List Sym)) (x : Fld) : (s.insertSlots n l).1.f x = s.f x := rfl

theorem slotDue_urgent (n k : Nat) (u : Urgent) (hretry : (s.portOf n).retryDue = none) (hurgent : s.urgentDue n = some (u, k)) :
    (s.slotDue n).2 = ((u.slots (s.f (GLS_SEQ_TX_NEXT n))).headD commaIdle, false) ∧
      ((s.slotDue n).1.portOf n).ins = (u.slots (s.f (GLS_SEQ_TX_NEXT n))).drop 1 ∧
      ((s.slotDue n).1.portOf n).retry = (s.portOf n).retry ++ [(s.f (GLS_SEQ_TX_NEXT n), Frm.urgent u, 0)] ∧
      (s.slotDue n).1.f (GLS_SEQ_TX_NEXT n) = (s.f (GLS_SEQ_TX_NEXT n) + 1) % 256 := by
  have hport := s.mirrorStart_mirrored n
  have hrep : ((s.mirrorStart n).portOf n).repFrame = none := Port.repFrame_of_none (hport.rep.trans (s.rep_of_urgentDue hurgent))
  have hnext : (s.mirrorStart n).f (GLS_SEQ_TX_NEXT n) = s.f (GLS_SEQ_TX_NEXT n) := State.f_congr (s.mirrorStart_regs n) _
  have hslot : s.slotDue n =
      ((((((s.mirrorStart n).framed n u).1.useCredit n [k]).insertSlots n (u.slots ((s.mirrorStart n).framed n u).2)).1,
        (u.slots ((s.mirrorStart n).framed n u).2).headD commaIdle, false)) := by
    simp only [State.slotDue, State.framed, hport.retryDue, hretry, hrep, s.mirrorStart_urgentDue n, hurgent]
    rfl
  rw [hslot, State.framed_lseq, hnext, State.insertSlots_portOf]
  refine ⟨rfl, rfl, ?_, ?_⟩
  · rw [State.useCredit_retry, State.framed_retry, hport.retry, hnext]
  · rw [State.insertSlots_f, State.useCredit_f, State.framed_next, hnext]

theorem slotDue_beat (n b : Nat) (rest : List Nat) (hretry : (s.portOf n).retryDue = none) (hrep : (s.portOf n).rep = none)
    (hurgent : s.urgentDue n = none) (hbeat : (s.portOf n).beatDue = b :: rest) : (s.slotDue n).2 = (beatSlot b, false) := by
  have hport := s.mirrorStart_mirrored n
  simp only [State.slotDue, hport.retryDue, hretry, Port.repFrame_of_none (hport.rep.trans hrep), s.mirrorStart_urgentDue n, hurgent,
    hport.beatDue, hbeat]

theorem slotDue_status (n : Nat) (hretry : (s.portOf n).retryDue = none) (hrep : (s.portOf n).rep = none) (hurgent : s.urgentDue n = none)
    (hbeat : (s.portOf n).beatDue = []) (hstatus : (s.portOf n).statusDue = true) (hspare : (s.portOf n).spareOut = [])
    (hstep : (s.portOf n).txStep = none) :
    (s.slotDue n).2 = (creditStatus (s.f (GLS_SEQ_RX_EXPECT n)) (s.portOf n).freed, false) ∧
      ((s.slotDue n).1.portOf n).statusDue = false := by
  have hout : s.statusOut n = (s, creditStatus (s.f (GLS_SEQ_RX_EXPECT n)) (s.portOf n).freed) := by
    rw [State.statusOut, hspare]
  simp only [State.slotDue, s.mirrorStart_of_none hstep, hretry, Port.repFrame_of_none hrep, hurgent, hbeat, hstatus, if_true, hout,
    State.portOf_setPort_self, and_self]

theorem slotDue_skip (n : Nat) (hretry : (s.portOf n).retryDue = none) (hrep : (s.portOf n).rep = none) (hurgent : s.urgentDue n = none)
    (hbeat : (s.portOf n).beatDue = []) (hstatus : (s.portOf n).statusDue = false) (hskip : (s.portOf n).skipDue = true) :
    (s.slotDue n).2 = (skipSlot, true) ∧ ((s.slotDue n).1.portOf n).skipDue = false := by
  have hport := s.mirrorStart_mirrored n
  simp only [State.slotDue, hport.retryDue, hretry, Port.repFrame_of_none (hport.rep.trans hrep), s.mirrorStart_urgentDue n, hurgent,
    hport.beatDue, hbeat, hport.statusDue, hstatus, Bool.false_eq_true, if_false, hport.skipDue, hskip, if_true, State.portOf_setPort_self,
    and_self]

end

/-- Settles O32: a lemma for each command, by what arriving slots leave alone; what a slot boundary sends, by the first thing that is due. -/
theorem gleisFrames : Obligations.GleisFrames := by
  unfold Obligations.GleisFrames
  exact fun s _ => ⟨fun n e _ => bulkFrameBuild_takes s e, fun n => bulkFrameBuild_idle s, fun n => bulkFrame_accepts s,
    fun n => bulkFrame_refuses s, fun n => bulkFrame_discards s, transitForward_bulk s, transitForward_urgent s,
    fun n => creditSlot_loads s, fun n => retryRequest_replays s, fun n _ => replayTimeout_replays s, fun n => retryTimeout_asksAgain s,
    fun n => statusSlotDue_falls s, fun n => skipDue_falls s, fun n => skipSlot_completesNothing s, slotDue_retry s,
    fun n k u _ => slotDue_urgent s n k u, slotDue_beat s, slotDue_status s, slotDue_skip s⟩

end Sys2Proof.Machine
end


section
/-! SUPPORT. Gleis ports (file 08, R22, R274, R283, R311, R317, R327): what lattice control does when a port goes up or down, the registers of a
port and of its lanes, a training state that fails, a port that leaves UP. -/

namespace Sys2Proof.Machine

/-! ### What lattice control does when a port goes up or down (R274, R283, R300) -/

/-- Of port `p` only the urgent queue has changed, and when it last took an entry. -/
def Port.Queued (p q : Port) : Prop := q = { p with urgQ := q.urgQ, urgEdge := q.urgEdge }

theorem Port.Queued.refl (p : Port) : p.Queued p := rfl

theorem Port.Queued.trans {p q r : Port} (h : p.Queued q) (g : q.Queued r) : p.Queued r := by
  unfold Port.Queued at *
  rw [g, h]

theorem Port.Queued.restart {p q : Port} (h : p.Queued q) : q.restart = p.restart := by rw [h]

/-- From `s` to `t` lattice control has settled: of the registers only its own and those of its events have changed, of the ports only what
their urgent queues hold. -/
structure State.Settled (s t : State) : Prop where
  only : Only 132993 s t
  reg : ∀ a, ¬ InBlocks [7] a → a ≠ HIF_IRQ_STAT 4 → t.reg a = s.reg a
  port : ∀ n, (s.portOf n).Queued (t.portOf n)

namespace State.Settled
variable {s t u : State}

theorem refl (s : State) : s.Settled s := ⟨.refl, fun _ _ _ => rfl, fun _ => .refl _⟩

theorem trans (h : s.Settled t) (g : t.Settled u) : s.Settled u :=
  ⟨h.only.trans g.only, fun a hb hi => (g.reg a hb hi).trans (h.reg a hb hi), fun n => (h.port n).trans (g.port n)⟩

theorem after (g : t.Settled u) (h : s.Settled t) : s.Settled u := h.trans g

theorem each {α : Type} {g : α → State → State} (hg : ∀ x t, State.Settled t (g x t)) (l : List α) (s : State) : s.Settled (s.each l g) := by
  unfold State.each
  induction l generalizing s with
  | nil => exact .refl s
  | cons x l ih => exact (hg x s).trans (ih (g x s))

/-- An operation that leaves the ports alone. -/
theorem of_portless (honly : Only 132737 s t) (hreg : ∀ a, ¬ InBlocks [7] a → a ≠ HIF_IRQ_STAT 4 → t.reg a = s.reg a) : s.Settled t :=
  ⟨honly.mono (by decide), hreg, fun n => by
    rw [show t.portOf n = s.portOf n from congrArg (mget · Port.init n) (honly.port (by decide))]
    exact .refl _⟩

/-- The registers of the Gleis ports (block 8) are as before. -/
theorem gls (h : s.Settled t) {a : Nat} (ha : a / 0x100000 = 8) : t.reg a = s.reg a :=
  h.reg a (by simp [InBlocks, ha]) (by rintro rfl; exact absurd ha (by decide))

theorem latReg (h : s.Settled t) {a : Nat} (ha : ¬ LatReg a) : t.reg a = s.reg a :=
  h.reg a (fun hb => ha (.inl (List.mem_cons.2 (.inl (List.mem_singleton.1 hb))))) fun hi => ha (.inr (.inl hi))

end State.Settled

section
variable (s : State)

theorem State.setLat_settled (x : Lat) : s.Settled (s.setLat x) := .of_portless ((setLat_only _ _).mono (by decide)) fun _ _ _ => rfl

theorem State.routeInvalid_settled (dest : Nat) (port : Option Nat) : s.Settled (s.routeInvalid dest port) :=
  .of_portless (routeInvalid_only _ _ _) fun _ hb hi => (s.routeInvalid_sent dest port).reg _ (fun e => hb (e ▸ by decide)) hi

theorem State.enqUrgent_settled {n : Nat} {a : Age} {u : Urgent} {t : State} (h : s.enqUrgent n a u = some t) : s.Settled t := by
  have honly := enqUrgent_only s n a u t h
  refine ⟨honly.mono (by decide), fun b _ _ => State.reg_congr (honly.regs (by decide)) b, fun m => ?_⟩
  unfold State.enqUrgent at h
  dsimp only at h
  split at h
  · obtain rfl := Option.some.inj h
    by_cases hm : n = m
    · subst hm
      rw [State.portOf_setPort_self]
      rfl
    · rw [State.portOf_setPort_ne _ _ hm]
      rfl
  · cases h

theorem State.latTry_settled (k : Nat) (x : Nat × Urgent) : s.Settled (s.latTry k x).1 := by
  unfold State.latTry
  split
  · exact s.routeInvalid_settled _ _
  split
  · exact .refl s
  next t h => exact s.enqUrgent_settled h

theorem latPumpList_settled (k : Nat) (l kept : List (Nat × Urgent)) (s : State) : s.Settled (latPumpList k l kept s) := by
  induction l generalizing k kept s with
  | nil => exact s.setLat_settled _
  | cons x l ih =>
    unfold latPumpList
    split
    · exact ih _ _ _
    · dsimp only
      split <;> exact (s.latTry_settled k x).trans (ih _ _ _)

theorem State.sendTokens_settled (type round : Nat) : s.Settled (s.sendTokens type round) := by
  unfold State.sendTokens
  split
  · exact .each (fun _ t => (latPumpList_settled _ _ _ _).after (t.setLat_settled _)) _ s
  · exact .refl s

theorem State.setLatState_settled (c : Nat) : s.Settled (s.setLatState c) :=
  .of_portless ((setLatState_only _ _).mono (by decide)) fun a hb _ =>
    (State.reg_congr (s.setLatState_regs c) a).trans (State.reg_put_ne _ _ fun e => hb (e ▸ by decide))

theorem State.showDown_settled : s.Settled s.showDown :=
  .of_portless (s.showDown_only.mono (by decide)) fun a hb _ =>
    s.showDown_reg (by simp only [InBlocks, List.mem_cons, List.not_mem_nil, or_false] at hb; omega)

theorem State.raise_settled {i : Nat} (hi : i / 32 = 4) : s.Settled (s.raise i) :=
  .of_portless ((raise_only _ _).mono (by decide)) fun _ _ ha => s.raise_reg (hi ▸ ha)

theorem State.latSettle_settled : s.Settled s.latSettle := by
  have hshown : s.Settled (s.showDown.setLat { s.lat with down := (s.peers.filter s.peerGone).map (·.1) }) :=
    (State.setLat_settled _ _).after s.showDown_settled
  show s.Settled (if _ then _ else if _ then _ else if _ then _ else _)
  split
  · exact (State.raise_settled _ (by decide)).after ((State.sendTokens_settled _ _ _).after ((State.setLatState_settled _ _).after hshown))
  split
  · exact (State.sendTokens_settled _ _ _).after ((State.setLatState_settled _ _).after hshown)
  split
  · exact (State.sendTokens_settled _ _ _).after hshown
  · exact hshown

end

/-! ### The registers of a port -/

/-- A field that the written one does not overlap, in whichever register it lies, is unchanged. -/
theorem State.f_put_apart (s : State) {x y : Fld} (v : Nat) (hh : x.hi < 32) (hl : x.lo ≤ x.hi)
    (h : x.addr ≠ y.addr ∨ y.hi < x.lo ∨ x.hi < y.lo) : (s.put x v).f y = s.f y := by
  by_cases ha : x.addr = y.addr
  · exact State.f_put_disj s v ha hh hl (h.resolve_left (not_not.2 ha))
  · exact State.f_put_ne s v ha

theorem State.on_put_apart (s : State) {x y : Fld} (v : Nat) (hh : x.hi < 32) (hl : x.lo ≤ x.hi)
    (h : x.addr ≠ y.addr ∨ y.hi < x.lo ∨ x.hi < y.lo) : (s.put x v).on y = s.on y :=
  congrArg (· == 1) (s.f_put_apart v hh hl h)

/-- The register of each lane lies above those of the port. -/
theorem ne_laneStat {n a l : Nat} (h : a < GLS_LANE_STAT n 0) : a ≠ GLS_LANE_STAT n l := by
  unfold GLS_LANE_STAT at *
  omega

theorem laneStat_inj {n k l : Nat} : GLS_LANE_STAT n k = GLS_LANE_STAT n l ↔ k = l := by
  unfold GLS_LANE_STAT
  omega

theorem glsStat_lt (n : Nat) : GLS_STAT n < GLS_LANE_STAT n 0 := by
  unfold GLS_STAT GLS_LANE_STAT
  omega

theorem not_mem_laneStats {n a : Nat} (h : a < GLS_LANE_STAT n 0) : a ∉ (List.range 9).map (GLS_LANE_STAT n) := by
  rintro hm
  obtain ⟨l, -, rfl⟩ := List.mem_map.1 hm
  exact ne_laneStat h rfl

/-- A list of steps of which each writes one register of its own, as long as the register `c` holds `w`: every other register is as before. -/
theorem State.each_writes_reg {α : Type} (r : α → Nat) {c : Nat} {w : Word} {g : α → State → State} (l : List α) {a : Nat}
    (hg : ∀ x ∈ l, ∀ t : State, t.reg c = w → ∀ b, b ≠ r x → (g x t).reg b = t.reg b) (hc : ∀ x ∈ l, c ≠ r x) (s : State)
    (hs : s.reg c = w) (ha : ∀ x ∈ l, a ≠ r x) : (s.each l g).reg a = s.reg a := by
  unfold State.each
  induction l generalizing s with
  | nil => rfl
  | cons x l ih =>
    have hx := hg x List.mem_cons_self s hs
    rw [foldS, ih (fun y hy => hg y (List.mem_cons_of_mem _ hy)) (fun y hy => hc y (List.mem_cons_of_mem _ hy)) _
      ((hx c (hc x List.mem_cons_self)).trans hs) (fun y hy => ha y (List.mem_cons_of_mem _ hy)), hx a (ha x List.mem_cons_self)]

/-- The register of one step: what that step writes, from a state that differs from the first in registers of other steps only. -/
theorem State.each_writes_own {α : Type} (r : α → Nat) {c : Nat} {w : Word} {g : α → State → State} {l : List α}
    (hg : ∀ x ∈ l, ∀ t : State, t.reg c = w → ∀ b, b ≠ r x → (g x t).reg b = t.reg b) (hc : ∀ x ∈ l, c ≠ r x)
    (hr : l.Pairwise (fun x y => r x ≠ r y)) (s : State) (hs : s.reg c = w) {x : α} (hx : x ∈ l) :
    ∃ u : State, (∀ a, (∀ y ∈ l, r y ≠ r x → a ≠ r y) → u.reg a = s.reg a) ∧ (s.each l g).reg (r x) = (g x u).reg (r x) := by
  induction l generalizing s with
  | nil => cases hx
  | cons y l ih =>
    obtain ⟨hfirst, hrest⟩ := List.pairwise_cons.1 hr
    have hgl := fun z hz => hg z (List.mem_cons_of_mem y hz)
    have hcl := fun z hz => hc z (List.mem_cons_of_mem y hz)
    have hy := hg y List.mem_cons_self s hs
    have hs' : (g y s).reg c = w := (hy c (hc y List.mem_cons_self)).trans hs
    rcases List.mem_cons.1 hx with rfl | hxl
    · exact ⟨s, fun _ _ => rfl, State.each_writes_reg r l hgl hcl _ hs' hfirst⟩
    · obtain ⟨u, hu, hown⟩ := ih hgl hcl hrest _ hs' hxl
      refine ⟨u, fun a ha => ?_, hown⟩
      exact (hu a fun z hz => ha z (List.mem_cons_of_mem y hz)).trans (hy a (ha y List.mem_cons_self (hfirst x hxl)))

section
variable {n : Nat} {g : Nat → State → State} (hg : ∀ l t a, a ≠ GLS_LANE_STAT n l → (g l t).reg a = t.reg a) (s : State)
include hg

/-- What is done to each lane of a port leaves every other register. -/
theorem State.each_lane_reg {a : Nat} (ha : a ∉ (List.range 9).map (GLS_LANE_STAT n)) : (s.each (List.range 9) g).reg a = s.reg a :=
  State.each_keeps (State.reg · a) _ (fun l hl t => hg l t a fun e => ha (e ▸ List.mem_map_of_mem hl)) s

/-- A lane of a port: what is done to it, from a state that differs from the first in other lanes only. -/
theorem State.each_lane_own {l : Nat} (hl : l < 9) :
    ∃ u : State, (∀ a, a ∉ (List.range 9).map (GLS_LANE_STAT n) ∨ a = GLS_LANE_STAT n l → u.reg a = s.reg a) ∧
      (s.each (List.range 9) g).reg (GLS_LANE_STAT n l) = (g l u).reg (GLS_LANE_STAT n l) := by
  obtain ⟨u, hu, hown⟩ := State.each_writes_own (GLS_LANE_STAT n) (fun l _ t _ => hg l t) (fun l _ => ne_laneStat (glsStat_lt n))
    (List.nodup_range.imp fun {x y} h => (laneStat_inj (n := n)).not.2 h) s rfl (List.mem_range.2 hl)
  refine ⟨u, fun a ha => hu a ?_, hown⟩
  rintro k hk hne rfl
  exact ha.elim (fun h => h (List.mem_map_of_mem hk)) hne

end

section
variable (s : State) {n : Nat}

/-! #### The state of a port and its events (R311, R327) -/

theorem State.portState_state (st : Nat) : (s.portState n st).f (GLS_STAT_STATE n) = st % 16 :=
  (State.f_put_apart _ _ (by simp) (by simp) (by simp)).trans (State.f_put _ _ _ (by simp) (by simp))

/-- The state code and UP take bits 31 to 27 of GLS_STAT. -/
theorem State.portState_f (st : Nat) {x : Fld} (hx : x.addr ≠ GLS_STAT n ∨ x.hi < 27) : (s.portState n st).f x = s.f x := by
  refine (State.f_put_apart _ _ (by simp) (by simp) ?_).trans (State.f_put_apart _ _ (by simp) (by simp) ?_)
  · exact hx.imp Ne.symm fun h => .inl (by dsimp only; omega)
  · exact hx.imp Ne.symm fun h => .inl (by dsimp only; omega)

theorem State.portState_up : (s.portState n 7).on (GLS_STAT_UP n) = true := State.on_put_one _ rfl (by simp)

theorem State.portState_reg (st : Nat) {a : Nat} (h : a ≠ GLS_STAT n) : (s.portState n st).reg a = s.reg a :=
  (State.reg_put_ne (x := GLS_STAT_UP n) _ _ h.symm).trans (State.reg_put_ne (x := GLS_STAT_STATE n) _ _ h.symm)

theorem State.trainState_state (st : Nat) : (s.trainState n st).f (GLS_STAT_STATE n) = st % 16 := State.portState_state _ st

theorem State.trainState_f (st : Nat) {x : Fld} (hx : x.addr ≠ GLS_STAT n ∨ x.hi < 27) : (s.trainState n st).f x = s.f x :=
  (State.portState_f _ st hx).trans rfl

theorem State.trainState_reg (st : Nat) {a : Nat} (h : a ≠ GLS_STAT n) : (s.trainState n st).reg a = s.reg a :=
  (State.portState_reg _ st h).trans rfl

theorem State.glsEvt_reg (bit irq : Nat) {a : Nat} (hevt : a ≠ GLS_EVT n) (hirq : a ≠ HIF_IRQ_STAT (irq / 32)) :
    (s.glsEvt n bit irq).reg a = s.reg a := (State.raise_reg _ hirq).trans (State.reg_setReg_ne _ _ hevt.symm)

/-- An event sets its bit of GLS_EVT. -/
theorem State.glsEvt_bit (hn : n < 16) {bit irq : Nat} (hbit : bit < 32) :
    ((s.glsEvt n bit irq).reg (GLS_EVT n)).toNat.testBit bit = true := by
  have hirq : GLS_EVT n ≠ HIF_IRQ_STAT (irq / 32) := by
    unfold GLS_EVT HIF_IRQ_STAT
    omega
  rw [State.glsEvt, State.raise_reg _ hirq, State.reg_setReg_self, BitVec.testBit_toNat]
  simp [hbit]

/-- The registers that the events of a port (160 to 168) write (R327). -/
abbrev EvtReg (n a : Nat) : Prop := a = GLS_EVT n ∨ a = HIF_IRQ_STAT 5

theorem State.glsEvt_evtReg (bit : Nat) {irq a : Nat} (hirq : irq / 32 = 5) (ha : ¬ EvtReg n a) : (s.glsEvt n bit irq).reg a = s.reg a :=
  s.glsEvt_reg bit irq (fun e => ha (.inl e)) fun e => ha (.inr (hirq ▸ e))

end

/-- The other registers of a port are not among those of its events. -/
theorem not_evtReg {n a : Nat} (ha : a < 0xC00000) (hne : a ≠ GLS_EVT n) : ¬ EvtReg n a := by
  rintro (h | rfl)
  · exact hne h
  · exact absurd ha (by decide)

theorem glsStat_not_evtReg {n : Nat} (hn : n < 16) : ¬ EvtReg n (GLS_STAT n) :=
  not_evtReg (by unfold GLS_STAT; omega) (by unfold GLS_STAT GLS_EVT; omega)

/-! #### The registers of the block (R22) -/

section
variable {n : Nat} (hn : n < 16)
include hn

theorem glsStat_block : GLS_STAT n / 0x100000 = 8 := by
  unfold GLS_STAT
  omega

theorem glsEvt_block : GLS_EVT n / 0x100000 = 8 := by
  unfold GLS_EVT
  omega

theorem laneStat_block {l : Nat} (hl : l < 9) : GLS_LANE_STAT n l / 0x100000 = 8 := by
  unfold GLS_LANE_STAT
  omega

theorem laneErr_block {a : Nat} (h : LaneErrOf n a) : a / 0x100000 = 8 := by
  obtain ⟨l, hl, rfl⟩ := h
  unfold GLS_LANE_ERR
  omega

theorem laneStats_block {a : Nat} (h : a ∈ (List.range 9).map (GLS_LANE_STAT n)) : a / 0x100000 = 8 := by
  obtain ⟨l, hl, rfl⟩ := List.mem_map.1 h
  exact laneStat_block hn (List.mem_range.1 hl)

end

theorem latReg_of_block {a : Nat} (h : a / 0x100000 = 8) : LatReg a := .inl (by simp [InBlocks, h])

/-- What lies outside the registers of LATTICE, GLEIS and their events is none of a port's. -/
theorem ports_of_not_latReg {n a : Nat} (hn : n < 16) (ha : ¬ LatReg a) :
    a ≠ GLS_STAT n ∧ a ∉ (List.range 9).map (GLS_LANE_STAT n) ∧ ¬ LaneErrOf n a ∧ ¬ EvtReg n a := by
  have hblock : a / 0x100000 ≠ 8 := fun h => ha (latReg_of_block h)
  refine ⟨fun h => hblock (h ▸ glsStat_block hn), fun h => hblock (laneStats_block hn h), fun h => hblock (laneErr_block hn h), ?_⟩
  rintro (h | h)
  · exact hblock (h ▸ glsEvt_block hn)
  · exact ha (.inr (.inr h))

/-! ### A training state that fails (R311) -/

/-- From `s` to `t` training has failed for `cause`. -/
structure State.Failed (n cause : Nat) (s t : State) : Prop where
  state : t.f (GLS_STAT_STATE n) = 8
  cause : t.f (GLS_STAT_FAIL_CAUSE n) = cause
  attempts : t.f (GLS_STAT_ATTEMPTS n) = min 255 (s.f (GLS_STAT_ATTEMPTS n) + 1)
  event : (t.reg (GLS_EVT n)).toNat.testBit 2 = true
  reg : ∀ a, ¬ (a = GLS_STAT n ∨ EvtReg n a) → t.reg a = s.reg a

section
variable (s : State) {n cause : Nat}

theorem State.trainFail_failed (hn : n < 16) (hc : cause < 256) : State.Failed n cause s (s.trainFail n cause) := by
  have hstat {x : Fld} (hx : x.addr = GLS_STAT n) : (s.trainFail n cause).f x =
      ((((s.setPort n (s.portOf n).quiet).put (GLS_STAT_FAIL_CAUSE n) cause).satF (GLS_STAT_ATTEMPTS n) 1).portState n 8).f x :=
    State.f_of_reg (State.glsEvt_evtReg _ 2 (by decide) (hx ▸ glsStat_not_evtReg hn))
  constructor
  case state => rw [hstat rfl, State.portState_state]
  case cause =>
    rw [hstat rfl, State.portState_f _ _ (.inr (by simp)), State.satF, State.f_put_apart _ _ (by simp) (by simp) (by simp),
      State.f_put _ _ _ (by simp) (by simp)]
    exact Nat.mod_eq_of_lt hc
  case attempts =>
    rw [hstat rfl, State.portState_f _ _ (.inr (by simp)), State.satF, State.f_put _ _ _ (by simp) (by simp),
      State.f_put_apart _ _ (by simp) (by simp) (by simp)]
    show min (s.f (GLS_STAT_ATTEMPTS n) + 1) 255 % 256 = _
    omega
  case event => exact State.glsEvt_bit _ hn (by decide)
  case reg =>
    intro a ha
    obtain ⟨hne, hevt⟩ := not_or.1 ha
    rw [State.trainFail, State.glsEvt_evtReg _ _ (by decide) hevt, State.portState_reg _ _ hne, State.satF, State.reg_put_ne _ _ (Ne.symm hne),
      State.reg_put_ne _ _ (Ne.symm hne)]
    rfl

/-! ### A port that leaves UP (R317) -/

theorem State.lanesOff_f {x : Fld} (hx : x.addr = GLS_STAT n) (hd : x.hi < 16 ∨ 23 < x.lo) : (s.lanesOff n).f x = s.f x := by
  rw [State.lanesOff, State.f_put_apart _ _ (by simp) (by simp) (.inr (by dsimp only; omega)),
    State.f_put_apart _ _ (by simp) (by simp) (.inr (by dsimp only; omega))]
  refine State.f_of_reg (State.each_lane_reg (n := n) (fun l t a ha => ?_) s (not_mem_laneStats (hx ▸ glsStat_lt n)))
  rw [State.reg_put_ne _ _ ha.symm, State.reg_put_ne _ _ ha.symm]

theorem State.lanesOff_reg {a : Nat} (hstat : a ≠ GLS_STAT n) (hlane : a ∉ (List.range 9).map (GLS_LANE_STAT n)) :
    (s.lanesOff n).reg a = s.reg a := by
  rw [State.lanesOff, State.reg_put_ne _ _ hstat.symm, State.reg_put_ne _ _ hstat.symm]
  refine State.each_lane_reg (fun l t a ha => ?_) s hlane
  rw [State.reg_put_ne _ _ ha.symm, State.reg_put_ne _ _ ha.symm]

/-- The port with its FAIL_CAUSE shown, what it drops dropped, and its lanes off. -/
def State.quieted (n cause : Nat) : State :=
  let s1 := s.when (decide (cause ≠ 0)) (fun t => t.put (GLS_STAT_FAIL_CAUSE n) cause)
  (s1.setPort n (s1.portOf n).quiet).lanesOff n

theorem State.quieted_state : (s.quieted n cause).f (GLS_STAT_STATE n) = s.f (GLS_STAT_STATE n) := by
  unfold State.quieted State.when
  dsimp only
  rw [State.lanesOff_f _ rfl (.inr (by simp)), State.f_congr (State.setPort_regs _ _ _)]
  split
  · exact State.f_put_apart _ _ (by simp) (by simp) (by simp)
  · rfl

theorem State.quieted_cause (h0 : cause ≠ 0) (hc : cause < 256) : (s.quieted n cause).f (GLS_STAT_FAIL_CAUSE n) = cause := by
  unfold State.quieted State.when
  dsimp only
  rw [State.lanesOff_f _ rfl (.inl (by simp)), State.f_congr (State.setPort_regs _ _ _), if_pos (decide_eq_true h0),
    State.f_put _ _ _ (by simp) (by simp)]
  exact Nat.mod_eq_of_lt hc

theorem State.quieted_reg {a : Nat} (hstat : a ≠ GLS_STAT n) (hlane : a ∉ (List.range 9).map (GLS_LANE_STAT n)) :
    (s.quieted n cause).reg a = s.reg a := by
  unfold State.quieted State.when
  dsimp only
  rw [State.lanesOff_reg _ hstat hlane, State.reg_congr (State.setPort_regs _ _ _)]
  split
  · exact State.reg_put_ne _ _ hstat.symm
  · rfl

theorem State.quieted_restart : ((s.quieted n cause).portOf n).restart = (s.portOf n).restart := by
  unfold State.quieted State.when
  dsimp only
  rw [State.portOf, (lanesOff_only _ _).port (by decide)]
  show ((State.setPort _ n _).portOf n).restart = _
  rw [State.portOf_setPort_self]
  split <;> rfl

theorem State.portDown_of_up (hup : s.portUp n = true) : s.portDown n cause =
    ((s.quieted n cause).portState n (if s.portMayRun n then 1 else 0)).glsEvt n 1 161 := by
  have hup' : (s.quieted n cause).portUp n = true := (congrArg (· == 7) s.quieted_state).trans hup
  exact if_pos hup'

/-- From `s` to `t` the port, which was up, has gone down. -/
structure State.WentDown (n : Nat) (s t : State) : Prop where
  only : Only 132993 s t
  down : t.portUp n = false
  event : (t.reg (GLS_EVT n)).toNat.testBit 1 = true
  restart : (t.portOf n).restart = (s.portOf n).restart
  reg : ∀ a, ¬ LatReg a → t.reg a = s.reg a

theorem State.portDown_wentDown (hn : n < 16) (hup : s.portUp n = true) : State.WentDown n s (s.portDown n cause).latSettle := by
  have hsettled := (s.portDown n cause).latSettle_settled
  have honly : Only 132865 s (s.portDown n cause) := portDown_only s n cause
  constructor
  case only => exact hsettled.only.after (by decide) (honly.mono (by decide))
  case down =>
    have hstate : (s.portDown n cause).f (GLS_STAT_STATE n) = if s.portMayRun n then 1 else 0 := by
      rw [s.portDown_of_up hup]
      refine (State.f_of_reg (State.glsEvt_evtReg _ 1 (by decide) (glsStat_not_evtReg hn))).trans ((State.portState_state _ _).trans ?_)
      split <;> rfl
    rw [State.portUp, State.f_of_reg (x := GLS_STAT_STATE n) (hsettled.gls (glsStat_block hn)), hstate]
    split <;> rfl
  case event =>
    rw [hsettled.gls (glsEvt_block hn), s.portDown_of_up hup]
    exact State.glsEvt_bit _ hn (by decide)
  case restart =>
    rw [(hsettled.port n).restart, s.portDown_of_up hup, State.portOf, (glsEvt_only _ _ _ _).port (by decide),
      (portState_only _ _ _).port (by decide)]
    exact s.quieted_restart
  case reg =>
    intro a ha
    obtain ⟨hstat, hlane, -, hevt⟩ := ports_of_not_latReg hn ha
    rw [hsettled.latReg ha, s.portDown_of_up hup, State.glsEvt_evtReg _ _ (by decide) hevt, State.portState_reg _ _ hstat,
      s.quieted_reg hstat hlane]

theorem State.portDown_cause (hn : n < 16) (hup : s.portUp n = true) (h0 : cause ≠ 0) (hc : cause < 256) :
    (s.portDown n cause).latSettle.f (GLS_STAT_FAIL_CAUSE n) = cause := by
  rw [State.f_of_reg (x := GLS_STAT_FAIL_CAUSE n) ((State.latSettle_settled _).gls (glsStat_block hn)), s.portDown_of_up hup]
  refine (State.f_of_reg (State.glsEvt_evtReg _ 1 (by decide) (glsStat_not_evtReg hn))).trans ?_
  rw [State.portState_f _ _ (.inr (by simp)), s.quieted_cause h0 hc]

end

end Sys2Proof.Machine
end


section
/-! SUPPORT. Gleis training (file 08, R311 to R319): what takes a port from DETECT to UP, what takes it down, the eye scan. -/

namespace Sys2Proof.Machine

section
variable (s : State) {n : Nat}

/-! ### DETECT, LOCK and ADAPT (R311, R313, R318) -/

/-- LOS of each lane, as the lanes of `mask` see signal; while `up`, a lane only regains it. -/
def State.signalShown (n mask : Nat) (up : Bool) : State :=
  s.each (List.range 9) (fun l t => if up && !mask.testBit l then t else t.put (GLS_LANE_STAT_LOS n l) (b2n (!mask.testBit l)))

theorem State.signalShown_only (mask : Nat) (up : Bool) : Only 1 s (s.signalShown n mask up) :=
  Only.each _ _ (fun _ t => .ite .refl (put_only t _ _)) .refl

section
variable (mask : Nat) (up : Bool)

theorem signalShown_step (l : Nat) (t : State) (a : Nat) (ha : a ≠ GLS_LANE_STAT n l) :
    (if up && !mask.testBit l then t else t.put (GLS_LANE_STAT_LOS n l) (b2n (!mask.testBit l))).reg a = t.reg a := by
  split
  · rfl
  · exact State.reg_put_ne _ _ ha.symm

theorem State.signalShown_reg {a : Nat} (ha : a ∉ (List.range 9).map (GLS_LANE_STAT n)) : (s.signalShown n mask up).reg a = s.reg a :=
  State.each_lane_reg (signalShown_step mask up) s ha

theorem State.signalShown_los {l : Nat} (hl : l < 9) : (s.signalShown n mask up).on (GLS_LANE_STAT_LOS n l) =
    if up && !mask.testBit l then s.on (GLS_LANE_STAT_LOS n l) else !mask.testBit l := by
  obtain ⟨u, hu, hown⟩ := State.each_lane_own (signalShown_step mask up) s hl
  rw [State.signalShown, State.on_of_reg (x := GLS_LANE_STAT_LOS n l) hown]
  split
  · exact State.on_of_reg (hu _ (.inr rfl))
  · exact State.on_put_b2n _ _ rfl (by simp)

end

theorem State.signalShown_state (mask : Nat) (up : Bool) : (s.signalShown n mask up).f (GLS_STAT_STATE n) = s.f (GLS_STAT_STATE n) :=
  State.f_of_reg (s.signalShown_reg mask up (not_mem_laneStats (glsStat_lt n)))

/-- The port enters LOCK, where every transmitter starts at negative running disparity (R291). -/
def State.locking (n : Nat) : State := (s.setPort n { s.portOf n with txRd := [], rxRd := [] }).trainState n 2

theorem State.locking_reg {a : Nat} (ha : a ≠ GLS_STAT n) : (s.locking n).reg a = s.reg a := (State.trainState_reg _ 2 ha).trans rfl

theorem execSignalDetect_eq (seen : Nat) {up : Bool} (hscan : s.scanTakes = false) (hup : s.portUp n = up) :
    exec (.signalDetect n seen) s = .next (if s.f (GLS_STAT_STATE n) = 1 ∧ 8 ≤ (bitList seen 9).length then
      (s.signalShown n seen up).locking n else s.signalShown n seen up) := by
  show execSignalDetect n seen s = _
  rw [← s.signalShown_state seen up]
  simp only [execSignalDetect, hscan, hup, Bool.false_eq_true, if_false]
  rfl

theorem signalDetect_locks (seen : Nat) (hstate : s.f (GLS_STAT_STATE n) = 1) (hscan : s.scanTakes = false)
    (hseen : 8 ≤ (bitList seen 9).length) :
    ∃ t, exec (.signalDetect n seen) s = .next t ∧ t.f (GLS_STAT_STATE n) = 2 ∧
      (∀ l : Nat, l < 9 → t.on (GLS_LANE_STAT_LOS n l) = !seen.testBit l) ∧
      Keeps (fun a => a = GLS_STAT n ∨ a ∈ (List.range 9).map (GLS_LANE_STAT n)) [.port] s t := by
  have hdown : s.portUp n = false := by rw [State.portUp, hstate]; rfl
  have hexec := execSignalDetect_eq s seen hscan hdown
  rw [if_pos ⟨hstate, hseen⟩] at hexec
  have honly : Only 257 s ((s.signalShown n seen false).locking n) :=
    (((s.signalShown_only seen false).mono (by decide)).trans ((setPort_only _ n _).mono (by decide))).trans (trainState_only _ n 2)
  refine ⟨_, hexec, State.trainState_state _ 2, fun l hl => ?_, honly.keeps fun a ha => ?_⟩
  · rw [State.on_of_reg (x := GLS_LANE_STAT_LOS n l) (State.locking_reg _ (ne_laneStat (glsStat_lt n)).symm)]
    exact s.signalShown_los seen false hl
  · obtain ⟨hstat, hlane⟩ := not_or.1 ha
    exact (State.locking_reg _ hstat).trans (s.signalShown_reg seen false hlane)

theorem signalDetect_regains (seen : Nat) (hup : s.portUp n = true) (hscan : s.scanTakes = false) :
    ∃ t, exec (.signalDetect n seen) s = .next t ∧ t.f (GLS_STAT_STATE n) = 7 ∧
      (∀ l : Nat, l < 9 → t.on (GLS_LANE_STAT_LOS n l) = (s.on (GLS_LANE_STAT_LOS n l) && !seen.testBit l)) ∧
      Keeps (fun a => a ∈ (List.range 9).map (GLS_LANE_STAT n)) [] s t := by
  have hstate : s.f (GLS_STAT_STATE n) = 7 := beq_iff_eq.1 hup
  have hexec := execSignalDetect_eq s seen hscan hup
  rw [if_neg fun h => absurd (hstate.symm.trans h.1) (by decide)] at hexec
  refine ⟨_, hexec, (s.signalShown_state seen true).trans hstate, fun l hl => ?_,
    (s.signalShown_only seen true).keeps fun a ha => s.signalShown_reg seen true ha⟩
  rw [s.signalShown_los seen true hl]
  cases seen.testBit l <;> simp

/-- The lanes of `mask` show lock and alignment, those of `inv` inverted polarity. -/
def State.alignShown (n mask inv : Nat) : State :=
  s.each (List.range 9) (fun l t =>
    ((t.put (GLS_LANE_STAT_CDR_LOCK n l) (b2n (mask.testBit l))).put (GLS_LANE_STAT_ALIGNED n l) (b2n (mask.testBit l))).put
      (GLS_LANE_STAT_POL_INV n l) (b2n (inv.testBit l)))

section
variable (mask inv : Nat)

theorem State.alignShown_only : Only 1 s (s.alignShown n mask inv) :=
  Only.each _ _ (fun _ t => ((put_only t _ _).trans (put_only _ _ _)).trans (put_only _ _ _)) .refl

theorem alignShown_step (l : Nat) (t : State) (a : Nat) (ha : a ≠ GLS_LANE_STAT n l) :
    (((t.put (GLS_LANE_STAT_CDR_LOCK n l) (b2n (mask.testBit l))).put (GLS_LANE_STAT_ALIGNED n l) (b2n (mask.testBit l))).put
      (GLS_LANE_STAT_POL_INV n l) (b2n (inv.testBit l))).reg a = t.reg a := by
  rw [State.reg_put_ne _ _ ha.symm, State.reg_put_ne _ _ ha.symm, State.reg_put_ne _ _ ha.symm]

theorem State.alignShown_flags {l : Nat} (hl : l < 9) : (s.alignShown n mask inv).on (GLS_LANE_STAT_ALIGNED n l) = mask.testBit l ∧
    (s.alignShown n mask inv).on (GLS_LANE_STAT_POL_INV n l) = inv.testBit l := by
  obtain ⟨u, -, hown⟩ := State.each_lane_own (alignShown_step mask inv) s hl
  constructor
  · rw [State.alignShown, State.on_of_reg (x := GLS_LANE_STAT_ALIGNED n l) hown, State.on_put_apart _ _ (by simp) (by simp) (by simp)]
    exact State.on_put_b2n _ _ rfl (by simp)
  · rw [State.alignShown, State.on_of_reg (x := GLS_LANE_STAT_POL_INV n l) hown]
    exact State.on_put_b2n _ _ rfl (by simp)

theorem lanesAligned_adapts (hstate : s.f (GLS_STAT_STATE n) = 2) (hmask : 8 ≤ (bitList mask 9).length) :
    ∃ t, exec (.lanesAligned n mask inv) s = .next t ∧ t.f (GLS_STAT_STATE n) = 3 ∧
      (∀ l : Nat, l < 9 → t.on (GLS_LANE_STAT_ALIGNED n l) = mask.testBit l ∧ t.on (GLS_LANE_STAT_POL_INV n l) = inv.testBit l) ∧
      Keeps (fun a => a = GLS_STAT n ∨ a ∈ (List.range 9).map (GLS_LANE_STAT n)) [.port] s t := by
  have hexec : exec (.lanesAligned n mask inv) s = .next ((s.alignShown n mask inv).trainState n 3) :=
    congrArg Host.Outcome.next ((if_pos hstate).trans (if_pos hmask))
  refine ⟨_, hexec, State.trainState_state _ 3, fun l hl => ?_,
    (((s.alignShown_only mask inv).mono (by decide)).trans (trainState_only _ n 3)).keeps fun a ha => ?_⟩
  · have hne : GLS_LANE_STAT n l ≠ GLS_STAT n := (ne_laneStat (glsStat_lt n)).symm
    rw [State.on_of_reg (x := GLS_LANE_STAT_ALIGNED n l) (State.trainState_reg _ 3 hne),
      State.on_of_reg (x := GLS_LANE_STAT_POL_INV n l) (State.trainState_reg _ 3 hne)]
    exact s.alignShown_flags mask inv hl
  · obtain ⟨hstat, hlane⟩ := not_or.1 ha
    exact (State.trainState_reg _ 3 hstat).trans (State.each_lane_reg (alignShown_step mask inv) s hlane)

end

/-- The CTLE code of each lane: CTLE_VAL under CTLE_OVR, otherwise the one chosen. -/
def State.codesShown (n : Nat) (codes : List Nat) : State :=
  s.each (List.range 9) (fun l t => t.put (GLS_LANE_STAT_CTLE n l)
    (if t.on (GLS_LANE_CTRL_CTLE_OVR n l) then t.f (GLS_LANE_CTRL_CTLE_VAL n l) else codes.getD l 0))

section
variable (codes : List Nat)

theorem State.codesShown_only : Only 1 s (s.codesShown n codes) := Only.each _ _ (fun _ t => put_only t _ _) .refl

theorem codesShown_step (l : Nat) (t : State) (a : Nat) (ha : a ≠ GLS_LANE_STAT n l) :
    (t.put (GLS_LANE_STAT_CTLE n l)
      (if t.on (GLS_LANE_CTRL_CTLE_OVR n l) then t.f (GLS_LANE_CTRL_CTLE_VAL n l) else codes.getD l 0)).reg a = t.reg a :=
  State.reg_put_ne _ _ ha.symm

/-- The control registers of the lanes lie between their status registers. -/
theorem laneCtrl_not_mem (n l : Nat) : GLS_LANE_CTRL n l ∉ (List.range 9).map (GLS_LANE_STAT n) := by
  rintro hm
  obtain ⟨k, -, hk⟩ := List.mem_map.1 hm
  unfold GLS_LANE_STAT GLS_LANE_CTRL at hk
  omega

theorem State.codesShown_ctle {l : Nat} (hl : l < 9) : (s.codesShown n codes).f (GLS_LANE_STAT_CTLE n l) =
    if s.on (GLS_LANE_CTRL_CTLE_OVR n l) then s.f (GLS_LANE_CTRL_CTLE_VAL n l) else codes.getD l 0 % 16 := by
  obtain ⟨u, hu, hown⟩ := State.each_lane_own (codesShown_step codes) s hl
  have hctrl : u.reg (GLS_LANE_CTRL n l) = s.reg (GLS_LANE_CTRL n l) := hu _ (.inl (laneCtrl_not_mem n l))
  rw [State.codesShown, State.f_of_reg (x := GLS_LANE_STAT_CTLE n l) hown, State.f_put _ _ _ (by simp) (by simp),
    State.on_of_reg (x := GLS_LANE_CTRL_CTLE_OVR n l) hctrl, State.f_of_reg (x := GLS_LANE_CTRL_CTLE_VAL n l) hctrl]
  have hval : s.f (GLS_LANE_CTRL_CTLE_VAL n l) < 16 := BitVec.isLt _
  split
  · exact Nat.mod_eq_of_lt hval
  · rfl

theorem adaptDone_identifies (hstate : s.f (GLS_STAT_STATE n) = 3) :
    ∃ t, exec (.adaptDone n codes) s = .next t ∧ t.f (GLS_STAT_STATE n) = 4 ∧
      (∀ l : Nat, l < 9 → t.f (GLS_LANE_STAT_CTLE n l) =
        if s.on (GLS_LANE_CTRL_CTLE_OVR n l) then s.f (GLS_LANE_CTRL_CTLE_VAL n l) else codes.getD l 0 % 16) ∧
      Keeps (fun a => a = GLS_STAT n ∨ a ∈ (List.range 9).map (GLS_LANE_STAT n)) [.port] s t := by
  have hexec : exec (.adaptDone n codes) s = .next ((s.codesShown n codes).trainState n 4) := congrArg Host.Outcome.next (if_pos hstate)
  refine ⟨_, hexec, State.trainState_state _ 4, fun l hl => ?_,
    (((s.codesShown_only codes).mono (by decide)).trans (trainState_only _ n 4)).keeps fun a ha => ?_⟩
  · rw [State.trainState_f _ _ (.inl (ne_laneStat (glsStat_lt n)).symm), s.codesShown_ctle codes hl]
  · obtain ⟨hstat, hlane⟩ := not_or.1 ha
    exact (State.trainState_reg _ 4 hstat).trans (State.each_lane_reg (codesShown_step codes) s hlane)

end

/-! ### Timeouts and the end of BACKOFF (R311) -/

theorem trainingTimeout_fails (hn : n < 16) (hstate : s.f (GLS_STAT_STATE n) ∈ [2, 4, 5, 6]) :
    ∃ t, exec (.trainingTimeout n) s = .next t ∧ t.f (GLS_STAT_STATE n) = 8 ∧
      t.f (GLS_STAT_FAIL_CAUSE n) = [0, 0, 1, 0, 2, 4, 5].getD (s.f (GLS_STAT_STATE n)) 0 ∧
      t.f (GLS_STAT_ATTEMPTS n) = min 255 (s.f (GLS_STAT_ATTEMPTS n) + 1) ∧ (t.reg (GLS_EVT n)).toNat.testBit 2 = true ∧
      Keeps (fun a => a = GLS_STAT n ∨ a = GLS_EVT n ∨ a = HIF_IRQ_STAT 5) [.port, .host, .tail, .mesh] s t := by
  have hexec : exec (.trainingTimeout n) s = .next (s.trainFail n ([0, 0, 1, 0, 2, 4, 5].getD (s.f (GLS_STAT_STATE n)) 0)) := by
    show execTrainingTimeout n s = _
    unfold execTrainingTimeout
    simp only [List.mem_cons, List.not_mem_nil, or_false] at hstate
    rcases hstate with h | h | h | h <;> rw [h] <;> rfl
  have hcause : ∀ st ∈ [2, 4, 5, 6], [0, 0, 1, 0, 2, 4, 5].getD st 0 < 256 := by decide
  have hfailed := s.trainFail_failed hn (hcause _ hstate)
  exact ⟨_, hexec, hfailed.state, hfailed.cause, hfailed.attempts, hfailed.event, (trainFail_only _ _ _).keeps hfailed.reg⟩

theorem backoffEnd_returns (hstate : s.f (GLS_STAT_STATE n) = 8) :
    ∃ t, exec (.backoffEnd n) s = .next t ∧ t.f (GLS_STAT_STATE n) = (if s.portMayRun n then 1 else 0) ∧
      Keeps (fun a => a = GLS_STAT n) [] s t := by
  refine ⟨_, congrArg Host.Outcome.next (if_pos hstate), (s.portState_state _).trans ?_,
    (portState_only _ _ _).keeps fun a ha => s.portState_reg _ ha⟩
  split <;> rfl

/-! ### What takes a port that is UP down (R316, R317) -/

theorem linkTmo_takesDown (hn : n < 16) (hup : s.portUp n = true) (hlate : 12288 ≤ 5 * (s.fig.toNat - (s.portOf n).statFig)) :
    ∃ t, exec (.linkTmo n) s = .next t ∧ t.portUp n = false ∧ t.f (GLS_STAT_FAIL_CAUSE n) = 8 ∧
      (t.reg (GLS_EVT n)).toNat.testBit 1 = true ∧ Keeps LatReg [.lat, .port, .host, .tail, .mesh] s t := by
  have hexec : exec (.linkTmo n) s = .next (s.portDown n 8).latSettle :=
    congrArg Host.Outcome.next (if_pos (by rw [hup]; exact decide_eq_true hlate))
  have hdown := s.portDown_wentDown (cause := 8) hn hup
  exact ⟨_, hexec, hdown.down, s.portDown_cause hn hup (by decide) (by decide), hdown.event, hdown.only.keeps hdown.reg⟩

theorem retrain_takesDown (hn : n < 16) (hgate : s.blockGated (16 + n) = false) (hup : s.portUp n = true) :
    ∃ t, exec (.retrain n) s = .next t ∧ t.portUp n = false ∧ (t.reg (GLS_EVT n)).toNat.testBit 1 = true ∧
      Keeps LatReg [.lat, .port, .host, .tail, .mesh] s t := by
  have hexec : exec (.retrain n) s = .next (s.portDown n 0).latSettle :=
    congrArg Host.Outcome.next ((if_neg (by simp [hgate])).trans (if_pos hup))
  have hdown := s.portDown_wentDown (cause := 0) hn hup
  exact ⟨_, hexec, hdown.down, hdown.event, hdown.only.keeps hdown.reg⟩

theorem restart_takesDown (hn : n < 16) (hgate : s.blockGated (16 + n) = false) :
    ∃ t, exec (.restart n) s = .next t ∧ t.portUp n = false ∧ (t.portOf n).restart = true ∧
      Keeps LatReg [.lat, .port, .host, .tail, .mesh] s t := by
  set u := s.setPort n { s.portOf n with restart := true } with hu
  have honly : Only 256 s u := setPort_only s n _
  have hset : (u.portOf n).restart = true := by rw [hu, State.portOf_setPort_self]
  have hexec : exec (.restart n) s = .next (if u.portUp n then (u.portDown n 0).latSettle else u) :=
    congrArg Host.Outcome.next (if_neg (by simp [hgate]))
  cases hup : u.portUp n with
  | true =>
    rw [hup, if_pos rfl] at hexec
    have hdown := u.portDown_wentDown (cause := 0) hn hup
    exact ⟨_, hexec, hdown.down, hdown.restart.trans hset, ((honly.mono (by decide)).trans hdown.only).keeps hdown.reg⟩
  | false =>
    rw [hup, if_neg Bool.false_ne_true] at hexec
    exact ⟨u, hexec, hup, hset, (honly.mono (by decide) : Only 132993 s u).keeps fun _ _ => rfl⟩

/-! ### The eye scan (R319) -/

theorem eyeStat_not_evtReg (hn : n < 16) : ¬ EvtReg n (GLS_EYE_STAT n) :=
  not_evtReg (by unfold GLS_EYE_STAT; omega) (by unfold GLS_EYE_STAT GLS_EVT; omega)

theorem eyeCtrl_not_evtReg (hn : n < 16) : ¬ EvtReg n (GLS_EYE_CTRL n) :=
  not_evtReg (by unfold GLS_EYE_CTRL; omega) (by unfold GLS_EYE_CTRL GLS_EVT; omega)

theorem eyeStat_ne_eyeCtrl (n : Nat) : GLS_EYE_STAT n ≠ GLS_EYE_CTRL n := by
  unfold GLS_EYE_STAT GLS_EYE_CTRL
  omega

theorem State.eyeAbort_busy (hn : n < 16) : (s.eyeAbort n).on (GLS_EYE_STAT_BUSY n) = false := by
  rw [State.eyeAbort, State.on_of_reg (x := GLS_EYE_STAT_BUSY n) (State.glsEvt_evtReg _ 8 (by decide) (eyeStat_not_evtReg hn)),
    State.on_put_apart _ _ (by simp) (by simp) (by simp)]
  exact State.on_put_zero _ rfl (by simp)

theorem State.eyeAbort_abort (hn : n < 16) : (s.eyeAbort n).on (GLS_EYE_STAT_ABORT n) = true := by
  rw [State.eyeAbort, State.on_of_reg (x := GLS_EYE_STAT_ABORT n) (State.glsEvt_evtReg _ 8 (by decide) (eyeStat_not_evtReg hn))]
  exact State.on_put_one _ rfl (by simp)

theorem State.eyeAbort_reg {a : Nat} (ha : ¬ (a = GLS_EYE_STAT n ∨ EvtReg n a)) : (s.eyeAbort n).reg a = s.reg a := by
  obtain ⟨hne, hevt⟩ := not_or.1 ha
  rw [State.eyeAbort, State.glsEvt_evtReg _ 8 (by decide) hevt, State.reg_put_ne _ _ (Ne.symm hne), State.reg_put_ne _ _ (Ne.symm hne)]

/-- A point of the scan completes with its count of differing bits. -/
def State.eyeCounted (n errs : Nat) : State :=
  (((s.put (GLS_EYE_STAT_BUSY n) 0).put (GLS_EYE_STAT_DONE n) 1).put (GLS_EYE_STAT_ERRS n) (min errs 0xFFFFFF)).glsEvt n 8 168

theorem State.eyeCounted_f (hn : n < 16) (errs : Nat) {x : Fld} (hx : x.addr = GLS_EYE_STAT n) : (s.eyeCounted n errs).f x =
    (((s.put (GLS_EYE_STAT_BUSY n) 0).put (GLS_EYE_STAT_DONE n) 1).put (GLS_EYE_STAT_ERRS n) (min errs 0xFFFFFF)).f x :=
  State.f_of_reg (State.glsEvt_evtReg _ 8 (by decide) (hx ▸ eyeStat_not_evtReg hn))

theorem State.eyeCounted_busy (hn : n < 16) (errs : Nat) : (s.eyeCounted n errs).on (GLS_EYE_STAT_BUSY n) = false := by
  rw [State.on, s.eyeCounted_f hn errs rfl, State.f_put_apart _ _ (by simp) (by simp) (by simp),
    State.f_put_apart _ _ (by simp) (by simp) (by simp)]
  exact State.on_put_zero _ rfl (by simp)

theorem State.eyeCounted_done (hn : n < 16) (errs : Nat) : (s.eyeCounted n errs).on (GLS_EYE_STAT_DONE n) = true := by
  rw [State.on, s.eyeCounted_f hn errs rfl, State.f_put_apart _ _ (by simp) (by simp) (by simp)]
  exact State.on_put_one _ rfl (by simp)

theorem State.eyeCounted_errs (hn : n < 16) (errs : Nat) : (s.eyeCounted n errs).f (GLS_EYE_STAT_ERRS n) = min errs 0xFFFFFF := by
  rw [s.eyeCounted_f hn errs rfl, State.f_put _ _ _ (by simp) (by simp)]
  show min errs 0xFFFFFF % 2 ^ 24 = _
  omega

theorem State.eyeCounted_reg (errs : Nat) {a : Nat} (ha : ¬ (a = GLS_EYE_STAT n ∨ EvtReg n a)) : (s.eyeCounted n errs).reg a = s.reg a := by
  obtain ⟨hne, hevt⟩ := not_or.1 ha
  rw [State.eyeCounted, State.glsEvt_evtReg _ 8 (by decide) hevt, State.reg_put_ne _ _ (Ne.symm hne), State.reg_put_ne _ _ (Ne.symm hne),
    State.reg_put_ne _ _ (Ne.symm hne)]

theorem State.eyeCounted_only (errs : Nat) : Only 132609 s (s.eyeCounted n errs) :=
  (glsEvt_only _ n 8 168).after (by decide) (((put_only _ _ _).trans (put_only _ _ _)).trans (put_only _ _ _) |>.mono (by decide))

theorem eyeScanDone_ends (errs : Nat) (abort : Bool) (hn : n < 16) (hbusy : s.on (GLS_EYE_STAT_BUSY n) = true) :
    ∃ t, exec (.eyeScanDone n errs abort) s = .next t ∧ t.on (GLS_EYE_STAT_BUSY n) = false ∧
      (if abort then t.on (GLS_EYE_STAT_ABORT n) = true
        else t.on (GLS_EYE_STAT_DONE n) = true ∧ t.f (GLS_EYE_STAT_ERRS n) = min errs 0xFFFFFF) ∧
      (t.reg (GLS_EVT n)).toNat.testBit 8 = true ∧
      Keeps (fun a => a = GLS_EYE_STAT n ∨ a = GLS_EVT n ∨ a = HIF_IRQ_STAT 5) [.host, .tail, .mesh] s t := by
  have hexec : exec (.eyeScanDone n errs abort) s = .next (if abort then s.eyeAbort n else s.eyeCounted n errs) :=
    congrArg Host.Outcome.next (if_pos hbusy)
  cases abort with
  | true =>
    exact ⟨_, hexec, s.eyeAbort_busy hn, s.eyeAbort_abort hn, State.glsEvt_bit _ hn (by decide),
      (eyeAbort_only s n).keeps fun a => s.eyeAbort_reg⟩
  | false =>
    exact ⟨_, hexec, s.eyeCounted_busy hn errs, ⟨s.eyeCounted_done hn errs, s.eyeCounted_errs hn errs⟩, State.glsEvt_bit _ hn (by decide),
      (s.eyeCounted_only errs).keeps fun a => s.eyeCounted_reg errs⟩

/-- The fields of GLS_EYE_CTRL are written with GO. -/
def State.eyeSet (n : Nat) (w : Word) : State := s.setReg (GLS_EYE_CTRL n) (w &&& 0x0F1F3F7F#32)

section
variable (w : Word)

theorem State.eyeSet_lane : (s.eyeSet n w).f (GLS_EYE_CTRL_LANE n) = fget w 27 24 := by
  rw [State.f, State.eyeSet, State.reg_setReg_self, fget, BitVec.extractLsb'_and,
    show (0x0F1F3F7F#32).extractLsb' 24 (27 + 1 - 24) = BitVec.allOnes _ from by decide, BitVec.and_allOnes]
  rfl

theorem State.eyeSet_reg {a : Nat} (ha : a ≠ GLS_EYE_CTRL n) : (s.eyeSet n w).reg a = s.reg a := State.reg_setReg_ne _ _ ha.symm

theorem State.eyeSet_busy : (s.eyeSet n w).on (GLS_EYE_STAT_BUSY n) = s.on (GLS_EYE_STAT_BUSY n) :=
  State.on_of_reg (s.eyeSet_reg w (eyeStat_ne_eyeCtrl n))

theorem State.eyeSet_lock (l : Nat) : (s.eyeSet n w).on (GLS_LANE_STAT_CDR_LOCK n l) = s.on (GLS_LANE_STAT_CDR_LOCK n l) :=
  State.on_of_reg (s.eyeSet_reg w (by show GLS_LANE_STAT n l ≠ GLS_EYE_CTRL n; unfold GLS_LANE_STAT GLS_EYE_CTRL; omega))

theorem execEyeScanGo_eq (hgate : s.blockGated (16 + n) = false) : exec (.eyeScanGo n w) s =
    .next (if s.on (GLS_EYE_STAT_BUSY n) then s.eyeSet n w
      else if fget w 27 24 < 9 ∧ s.on (GLS_LANE_STAT_CDR_LOCK n (fget w 27 24)) then (s.eyeSet n w).put (GLS_EYE_STAT_BUSY n) 1
      else (s.eyeSet n w).eyeAbort n) := by
  rw [← s.eyeSet_busy w, ← s.eyeSet_lock w, ← s.eyeSet_lane w]
  exact congrArg Host.Outcome.next (if_neg (by simp [hgate]))

theorem eyeScanGo_scans (hgate : s.blockGated (16 + n) = false) (hlane : fget w 27 24 < 9)
    (hlock : s.on (GLS_LANE_STAT_CDR_LOCK n (fget w 27 24)) = true) :
    ∃ t, exec (.eyeScanGo n w) s = .next t ∧ t.on (GLS_EYE_STAT_BUSY n) = true ∧ t.reg (GLS_EYE_CTRL n) = w &&& 0x0F1F3F7F#32 ∧
      Keeps (fun a => a = GLS_EYE_CTRL n ∨ a = GLS_EYE_STAT n) [] s t := by
  have hset : Only 1 s (s.eyeSet n w) := setReg_only _ _ _
  have hexec := execEyeScanGo_eq s w hgate
  cases hbusy : s.on (GLS_EYE_STAT_BUSY n) with
  | true =>
    rw [hbusy, if_pos rfl] at hexec
    exact ⟨_, hexec, (s.eyeSet_busy w).trans hbusy, State.reg_setReg_self _ _ _, hset.keeps fun a ha => s.eyeSet_reg w fun e => ha (.inl e)⟩
  | false =>
    rw [hbusy, if_neg Bool.false_ne_true, if_pos ⟨hlane, hlock⟩] at hexec
    refine ⟨_, hexec, State.on_put_one _ rfl (by simp), ?_, (hset.trans (put_only _ _ _)).keeps fun a ha => ?_⟩
    · exact (State.reg_put_ne _ _ (eyeStat_ne_eyeCtrl n)).trans (State.reg_setReg_self _ _ _)
    · obtain ⟨hctrl, hstat⟩ := not_or.1 ha
      exact (State.reg_put_ne _ _ (Ne.symm hstat)).trans (s.eyeSet_reg w hctrl)

/-- On a lane that is not in lock the scan ends at once (log entry 50). -/
theorem eyeScanGo_aborts (hn : n < 16) (hgate : s.blockGated (16 + n) = false) (hbusy : s.on (GLS_EYE_STAT_BUSY n) = false)
    (h : 8 < fget w 27 24 ∨ s.on (GLS_LANE_STAT_CDR_LOCK n (fget w 27 24)) = false) :
    ∃ t, exec (.eyeScanGo n w) s = .next t ∧ t.on (GLS_EYE_STAT_BUSY n) = false ∧ t.on (GLS_EYE_STAT_ABORT n) = true ∧
      (t.reg (GLS_EVT n)).toNat.testBit 8 = true ∧ t.reg (GLS_EYE_CTRL n) = w &&& 0x0F1F3F7F#32 := by
  have hno : ¬ (fget w 27 24 < 9 ∧ s.on (GLS_LANE_STAT_CDR_LOCK n (fget w 27 24)) = true) := by
    rintro ⟨hlane, hlock⟩
    rcases h with h | h
    · omega
    · exact absurd (hlock.symm.trans h) (by decide)
  have hexec := execEyeScanGo_eq s w hgate
  rw [hbusy, if_neg Bool.false_ne_true, if_neg hno] at hexec
  refine ⟨_, hexec, State.eyeAbort_busy _ hn, State.eyeAbort_abort _ hn, State.glsEvt_bit _ hn (by decide), ?_⟩
  exact (State.eyeAbort_reg _ (not_or.2 ⟨(eyeStat_ne_eyeCtrl n).symm, eyeCtrl_not_evtReg hn⟩)).trans (State.reg_setReg_self _ _ _)

end

end

/-! ### Training sequences that arrive (R311 to R314) -/

/-- From `s` to `t` training sequences have arrived on port `n`: its receiver has changed, the error counts of its lanes and what the lanes
show. -/
structure State.Drilled (n : Nat) (s t : State) : Prop where
  only : Only 257 s t
  reg : ∀ a, a ∉ (List.range 9).map (GLS_LANE_STAT n) → ¬ LaneErrOf n a → t.reg a = s.reg a
  port : (s.portOf n).Rx (t.portOf n)

theorem glsCtrl_lt (n : Nat) : GLS_CTRL n < GLS_LANE_STAT n 0 := by
  unfold GLS_CTRL GLS_LANE_STAT
  omega

theorem not_laneErrOf_of_lt {n a : Nat} (h : a < GLS_LANE_STAT n 0) : ¬ LaneErrOf n a :=
  not_laneErrOf (h.trans (by unfold GLS_LANE_STAT GLS_LANE_ERR; omega))

namespace State.Drilled
variable {n : Nat} {s t u : State}

theorem trans (h : State.Drilled n s t) (g : State.Drilled n t u) : State.Drilled n s u :=
  ⟨h.only.trans g.only, fun a hl he => (g.reg a hl he).trans (h.reg a hl he), h.port.trans g.port⟩

theorem of_heard (h : State.Heard n s t) : State.Drilled n s t := ⟨h.only, fun a _ he => h.reg a he, h.port⟩

theorem refl (s : State) : State.Drilled n s s := of_heard (.refl s)

/-- The registers of the port that lie below those of its lanes are as before. -/
theorem reg_of_lt (h : State.Drilled n s t) {a : Nat} (ha : a < GLS_LANE_STAT n 0) : t.reg a = s.reg a :=
  h.reg a (not_mem_laneStats ha) (not_laneErrOf_of_lt ha)

theorem stat (h : State.Drilled n s t) {x : Fld} (hx : x.addr = GLS_STAT n) : t.f x = s.f x :=
  State.f_of_reg (h.reg_of_lt (hx ▸ glsStat_lt n))

theorem physLane (h : State.Drilled n s t) (k : Nat) : t.physLane n k = s.physLane n k := by
  rw [State.physLane, State.on, h.stat rfl, State.physLane, State.on]

theorem trainCarriers (h : State.Drilled n s t) : t.trainCarriers n = s.trainCarriers n := by
  have hauto : t.on (GLS_CTRL_AUTO_SPARE n) = s.on (GLS_CTRL_AUTO_SPARE n) := State.on_of_reg (h.reg_of_lt (glsCtrl_lt n))
  have hbad : (t.portOf n).bad = (s.portOf n).bad := by rw [h.port]
  simp only [State.trainCarriers, h.physLane, hauto, hbad]

theorem foldl {α β : Type} {f : State × β → α → State × β} (l : List α) (hf : ∀ x ∈ l, ∀ p, State.Drilled n p.1 (f p x).1) (p : State × β) :
    State.Drilled n p.1 (l.foldl f p).1 := by
  induction l generalizing p with
  | nil => exact .refl _
  | cons x l ih => exact (hf x List.mem_cons_self p).trans (ih (fun y hy => hf y (List.mem_cons_of_mem _ hy)) _)

end State.Drilled

section
variable (s : State) {n : Nat}

theorem State.put_laneStat_drilled {x : Fld} {l : Nat} (v : Nat) (hl : l < 9) (hx : x.addr = GLS_LANE_STAT n l) :
    State.Drilled n s (s.put x v) :=
  ⟨(put_only _ _ _).mono (by decide),
    fun _ ha _ => State.reg_put_ne _ _ fun e => ha (e ▸ hx ▸ List.mem_map_of_mem (List.mem_range.2 hl)), .refl _⟩

theorem State.trainLane_drilled {l : Nat} (hl : l < 9) (gs : List Nat) : State.Drilled n s (s.trainLane n l gs).1 := by
  unfold State.trainLane
  extract_lets r turn
  have hgroups : State.Drilled n s r.1 := by
    refine State.Drilled.foldl gs ?_ (s, [], false)
    exact fun g _ p => .of_heard (p.1.rxGroup_heard hl g)
  show State.Drilled n s (if turn then _ else r.1)
  split
  · exact hgroups.trans (State.put_laneStat_drilled _ _ hl rfl)
  · exact hgroups

theorem State.trainRx_drilled (lanes : List (List Nat)) : State.Drilled n s (s.trainRx n lanes).1 := by
  refine State.Drilled.foldl (List.range 9) ?_ (s, [], [])
  exact fun l hl p => p.1.trainLane_drilled (List.mem_range.1 hl) (lanes.getD l [])

variable {lanes : List (List Nat)} {u : State} {q : TrainSeq}

/-- What the training sequences say is used as the state of the port gives. -/
theorem execTrainingSequence_ident (h : s.f (GLS_STAT_STATE n) = 4) :
    exec (.trainingSequence n lanes) s = .next ((s.trainRx n lanes).1.identRx n (s.trainRx n lanes).2) := by
  show execTrainingSequence n lanes s = _
  unfold execTrainingSequence
  rw [h]
  rfl

theorem execTrainingSequence_deskew (h : s.f (GLS_STAT_STATE n) = 5) :
    exec (.trainingSequence n lanes) s = .next ((s.trainRx n lanes).1.deskewRx n (s.trainRx n lanes).2) := by
  show execTrainingSequence n lanes s = _
  unfold execTrainingSequence
  rw [h]
  rfl

theorem execTrainingSequence_check (h : s.f (GLS_STAT_STATE n) = 6) :
    exec (.trainingSequence n lanes) s = .next ((s.trainRx n lanes).1.checkRx n (s.trainRx n lanes).2) := by
  show execTrainingSequence n lanes s = _
  unfold execTrainingSequence
  rw [h]
  rfl

theorem execTrainingSequence_up (h : s.f (GLS_STAT_STATE n) = 7) (hlanes : 8 ≤ (s.trainRx n lanes).2.lanes.length) :
    exec (.trainingSequence n lanes) s = .next ((s.trainRx n lanes).1.portDown n 0).latSettle := by
  show execTrainingSequence n lanes s = _
  unfold execTrainingSequence
  rw [h]
  exact congrArg Host.Outcome.next ((if_neg (by decide)).trans (if_pos hlanes))

/-! #### UP (R317) -/

theorem trainingSequence_takesDown (hn : n < 16) (hstate : s.f (GLS_STAT_STATE n) = 7) (hq : (s.trainRx n lanes).2 = q)
    (hlanes : 8 ≤ q.lanes.length) :
    ∃ t, exec (.trainingSequence n lanes) s = .next t ∧ t.portUp n = false ∧ (t.reg (GLS_EVT n)).toNat.testBit 1 = true ∧
      Keeps LatReg [.lat, .port, .host, .tail, .mesh] s t := by
  have hheard := s.trainRx_drilled (n := n) lanes
  have hup : (s.trainRx n lanes).1.portUp n = true := by
    rw [State.portUp, hheard.stat rfl, hstate]
    rfl
  have hdown := State.portDown_wentDown (cause := 0) _ hn hup
  refine ⟨_, execTrainingSequence_up s hstate (hq ▸ hlanes), hdown.down, hdown.event,
    ((hheard.only.mono (by decide)).trans hdown.only).keeps fun a ha => ?_⟩
  obtain ⟨-, hlane, herr, -⟩ := ports_of_not_latReg hn ha
  exact (hdown.reg a ha).trans (hheard.reg a hlane herr)

/-! #### IDENT (R313, R315, R316) -/

/-- A restart of the link writes its sequence numbers, the count of what it discards, and an event. -/
theorem State.portRestart_reg {a : Nat} (hseq : a ≠ GLS_SEQ n) (hflush : a ≠ GLS_CNT_FLUSH n) (hevt : ¬ EvtReg n a) :
    (s.portRestart n).reg a = s.reg a := by
  have hput (p : Port) :
      ((((s.setPort n p).put (GLS_SEQ_TX_NEXT n) 0).put (GLS_SEQ_ACKED n) 0).put (GLS_SEQ_RX_EXPECT n) 0).reg a = s.reg a := by
    rw [State.reg_put_ne _ _ hseq.symm, State.reg_put_ne _ _ hseq.symm, State.reg_put_ne _ _ hseq.symm]
    rfl
  unfold State.portRestart
  dsimp only
  split
  · exact hput _
  · rw [State.glsEvt_evtReg _ 5 (by decide) hevt, State.satF, State.reg_put_ne _ _ hflush.symm, hput]

/-- The lanes are mapped, and READY is sent. -/
def State.laneMapped (n : Nat) (q : TrainSeq) : State :=
  let s0 := s.put (GLS_STAT_REVERSED n) q.map
  s0.setPort n { s0.portOf n with ready := true, bad := (List.range 8).find? (fun k => decide (s0.physLane n k ∉ q.lanes)) }

/-- The link resumes or restarts. -/
def State.linkDecided (n : Nat) (q : TrainSeq) : State :=
  let go := s.mayResume n q
  let s2 := if go then s else s.portRestart n
  s2.setPort n { s2.portOf n with resume := if go then some q.rxExpect else none }

/-- The peer is recorded. -/
def State.peerRecorded (n : Nat) (q : TrainSeq) : State :=
  ((s.put (GLS_PEER_ID_VALID n) 1).put (GLS_PEER_ID_PORT n) q.port).put (GLS_PEER_ID_NODE n) q.node

theorem State.identRx_of_ready (htype : q.type = 2) (hmap : q.map < 2) (hready : q.ready = true) (hlanes : 8 ≤ q.lanes.length) :
    s.identRx n q = (((s.laneMapped n q).linkDecided n q).peerRecorded n q).trainState n 5 := by
  have hwhole : ¬ (q.type ≠ 2 ∨ q.lanes.length < 8) := by omega
  exact (if_neg hwhole).trans ((if_neg (by omega)).trans (if_pos hready))

theorem State.identRx_of_mixed (htype : q.type = 2) (hmap : q.map = 2) (hlanes : 8 ≤ q.lanes.length) : s.identRx n q = s.trainFail n 3 := by
  have hwhole : ¬ (q.type ≠ 2 ∨ q.lanes.length < 8) := by omega
  exact (if_neg hwhole).trans (if_pos hmap.ge)

theorem State.laneMapped_reg {a : Nat} (ha : a ≠ GLS_STAT n) : (s.laneMapped n q).reg a = s.reg a :=
  State.reg_put_ne (x := GLS_STAT_REVERSED n) s q.map ha.symm

theorem State.laneMapped_reversed (hmap : q.map < 2) : (s.laneMapped n q).f (GLS_STAT_REVERSED n) = q.map :=
  (State.f_put (x := GLS_STAT_REVERSED n) s _ (by simp) (by simp)).trans (Nat.mod_eq_of_lt hmap)

theorem State.linkDecided_reg {a : Nat} (hseq : a ≠ GLS_SEQ n) (hflush : a ≠ GLS_CNT_FLUSH n) (hevt : ¬ EvtReg n a) :
    (s.linkDecided n q).reg a = s.reg a := by
  show (if s.mayResume n q then s else s.portRestart n).reg a = s.reg a
  split
  · rfl
  · exact s.portRestart_reg hseq hflush hevt

theorem State.peerRecorded_reg {a : Nat} (ha : a ≠ GLS_PEER_ID n) : (s.peerRecorded n q).reg a = s.reg a := by
  rw [State.peerRecorded, State.reg_put_ne _ _ ha.symm, State.reg_put_ne _ _ ha.symm, State.reg_put_ne _ _ ha.symm]

theorem State.peerRecorded_valid : (s.peerRecorded n q).on (GLS_PEER_ID_VALID n) = true := by
  rw [State.peerRecorded, State.on_put_apart _ _ (by simp) (by simp) (by simp), State.on_put_apart _ _ (by simp) (by simp) (by simp)]
  exact State.on_put_one _ rfl (by simp)

theorem State.peerRecorded_port : (s.peerRecorded n q).f (GLS_PEER_ID_PORT n) = q.port % 16 := by
  rw [State.peerRecorded, State.f_put_apart _ _ (by simp) (by simp) (by simp)]
  exact State.f_put _ _ _ (by simp) (by simp)

theorem State.peerRecorded_node : (s.peerRecorded n q).f (GLS_PEER_ID_NODE n) = q.node % 2 ^ 12 := State.f_put _ _ _ (by simp) (by simp)

theorem glsStat_ne_peer (n : Nat) : GLS_STAT n ≠ GLS_PEER_ID n := by
  unfold GLS_STAT GLS_PEER_ID
  omega

theorem glsStat_ne_seq (n : Nat) : GLS_STAT n ≠ GLS_SEQ n := by
  unfold GLS_STAT GLS_SEQ
  omega

theorem glsStat_ne_flush (n : Nat) : GLS_STAT n ≠ GLS_CNT_FLUSH n := by
  unfold GLS_STAT GLS_CNT_FLUSH
  omega

theorem trainingSequence_identifies (hn : n < 16) (hstate : s.f (GLS_STAT_STATE n) = 4) (hq : (s.trainRx n lanes).2 = q)
    (htype : q.type = 2) (hmap : q.map < 2) (hready : q.ready = true) (hlanes : 8 ≤ q.lanes.length) :
    ∃ t, exec (.trainingSequence n lanes) s = .next t ∧ t.f (GLS_STAT_STATE n) = 5 ∧ t.on (GLS_PEER_ID_VALID n) = true ∧
      t.f (GLS_PEER_ID_NODE n) = q.node % 2 ^ 12 ∧ t.f (GLS_PEER_ID_PORT n) = q.port % 16 ∧ t.f (GLS_STAT_REVERSED n) = q.map ∧
      Keeps (fun a => a = GLS_STAT n ∨ a = GLS_PEER_ID n ∨ a = GLS_SEQ n ∨ a = GLS_CNT_FLUSH n ∨ a = GLS_EVT n ∨ a = HIF_IRQ_STAT 5 ∨
        a ∈ (List.range 9).map (GLS_LANE_STAT n) ∨ LaneErrOf n a) [.port, .host, .tail, .mesh] s t := by
  have hheard := s.trainRx_drilled (n := n) lanes
  have hexec := execTrainingSequence_ident (lanes := lanes) s hstate
  have honly := identRx_only (s.trainRx n lanes).1 n q
  rw [hq, State.identRx_of_ready _ htype hmap hready hlanes] at hexec
  rw [State.identRx_of_ready _ htype hmap hready hlanes] at honly
  have hpeer {a : Nat} (ha : a = GLS_PEER_ID n) : a ≠ GLS_STAT n := ha ▸ (glsStat_ne_peer n).symm
  refine ⟨_, hexec, State.trainState_state _ 5, ?_, ?_, ?_, ?_, ((hheard.only.mono (by decide)).trans honly).keeps fun a ha => ?_⟩
  · rw [State.on_of_reg (x := GLS_PEER_ID_VALID n) (State.trainState_reg _ 5 (hpeer rfl)), State.peerRecorded_valid]
  · rw [State.trainState_f _ 5 (.inl (hpeer rfl)), State.peerRecorded_node]
  · rw [State.trainState_f _ 5 (.inl (hpeer rfl)), State.peerRecorded_port]
  · rw [State.trainState_f _ 5 (.inr (by simp)), State.f_of_reg (x := GLS_STAT_REVERSED n) (State.peerRecorded_reg _ (glsStat_ne_peer n)),
      State.f_of_reg (x := GLS_STAT_REVERSED n) (State.linkDecided_reg _ (glsStat_ne_seq n) (glsStat_ne_flush n) (glsStat_not_evtReg hn)),
      State.laneMapped_reversed _ hmap]
  · simp only [not_or] at ha
    obtain ⟨hstat, hpeer, hseq, hflush, hevt, hirq, hlane, herr⟩ := ha
    rw [State.trainState_reg _ 5 hstat, State.peerRecorded_reg _ hpeer, State.linkDecided_reg _ hseq hflush (not_or.2 ⟨hevt, hirq⟩),
      State.laneMapped_reg _ hstat, hheard.reg a hlane herr]

theorem trainingSequence_mixed (hn : n < 16) (hstate : s.f (GLS_STAT_STATE n) = 4) (hq : (s.trainRx n lanes).2 = q)
    (htype : q.type = 2) (hmap : q.map = 2) (hlanes : 8 ≤ q.lanes.length) :
    ∃ t, exec (.trainingSequence n lanes) s = .next t ∧ t.f (GLS_STAT_STATE n) = 8 ∧ t.f (GLS_STAT_FAIL_CAUSE n) = 3 ∧
      t.f (GLS_STAT_ATTEMPTS n) = min 255 (s.f (GLS_STAT_ATTEMPTS n) + 1) ∧
      Keeps (fun a => a = GLS_STAT n ∨ a = GLS_EVT n ∨ a = HIF_IRQ_STAT 5 ∨ a ∈ (List.range 9).map (GLS_LANE_STAT n) ∨ LaneErrOf n a)
        [.port, .host, .tail, .mesh] s t := by
  have hheard := s.trainRx_drilled (n := n) lanes
  have hexec := execTrainingSequence_ident (lanes := lanes) s hstate
  rw [hq, State.identRx_of_mixed _ htype hmap hlanes] at hexec
  have hfailed := (s.trainRx n lanes).1.trainFail_failed (cause := 3) hn (by decide)
  refine ⟨_, hexec, hfailed.state, hfailed.cause, hfailed.attempts.trans (by rw [hheard.stat rfl]),
    ((hheard.only.mono (by decide)).trans (trainFail_only _ _ _)).keeps fun a ha => ?_⟩
  simp only [not_or] at ha
  obtain ⟨hstat, hevt, hirq, hlane, herr⟩ := ha
  exact (hfailed.reg a (not_or.2 ⟨hstat, not_or.2 ⟨hevt, hirq⟩⟩)).trans (hheard.reg a hlane herr)

/-! #### DESKEW (R314) -/

/-- The skew of each lane against the last. -/
def State.skewShown (n : Nat) (place : Nat → Nat) (last : Nat) : State :=
  s.each (List.range 9) (fun l t => t.put (GLS_LANE_STAT_SKEW n l) (min 6 (last - place l)))

theorem skewShown_step (place : Nat → Nat) (last l : Nat) (t : State) (a : Nat) (ha : a ≠ GLS_LANE_STAT n l) :
    (t.put (GLS_LANE_STAT_SKEW n l) (min 6 (last - place l))).reg a = t.reg a := State.reg_put_ne _ _ ha.symm

theorem State.skewShown_skew (place : Nat → Nat) (last : Nat) {l : Nat} (hl : l < 9) :
    (s.skewShown n place last).f (GLS_LANE_STAT_SKEW n l) = min 6 (last - place l) := by
  obtain ⟨v, -, hown⟩ := State.each_lane_own (skewShown_step place last) s hl
  rw [State.skewShown, State.f_of_reg (x := GLS_LANE_STAT_SKEW n l) hown, State.f_put _ _ _ (by simp) (by simp)]
  show min 6 (last - place l) % 16 = _
  omega

theorem State.deskewRx_of_aligned {first last : Nat} (htype : q.type = 3)
    (hcarry : (s.trainCarriers n).all (fun l => decide (l ∈ q.lanes)) = true)
    (hlast : ((s.trainCarriers n).map (fun l => q.place.getD l 0)).foldl max 0 = last)
    (hfirst : ((s.trainCarriers n).map (fun l => q.place.getD l 0)).foldl min last = first) (hskew : last - first ≤ 6) :
    s.deskewRx n q = (s.skewShown n (fun l => q.place.getD l 0) last).trainState n 6 := by
  have hwhole : ¬ (q.type ≠ 3 ∨ (s.trainCarriers n).any (fun l => decide (l ∉ q.lanes))) := by
    simpa [htype] using hcarry
  subst hlast hfirst
  exact (if_neg hwhole).trans (if_neg (by omega))

theorem trainingSequence_deskews (first last : Nat) (hstate : s.f (GLS_STAT_STATE n) = 5) (hq : (s.trainRx n lanes).2 = q)
    (htype : q.type = 3) (hcarry : (s.trainCarriers n).all (fun l => decide (l ∈ q.lanes)) = true)
    (hlast : ((s.trainCarriers n).map (fun l => q.place.getD l 0)).foldl max 0 = last)
    (hfirst : ((s.trainCarriers n).map (fun l => q.place.getD l 0)).foldl min last = first) (hskew : last - first ≤ 6) :
    ∃ t, exec (.trainingSequence n lanes) s = .next t ∧ t.f (GLS_STAT_STATE n) = 6 ∧
      (∀ l : Nat, l < 9 → t.f (GLS_LANE_STAT_SKEW n l) = min 6 (last - q.place.getD l 0)) ∧
      Keeps (fun a => a = GLS_STAT n ∨ a ∈ (List.range 9).map (GLS_LANE_STAT n) ∨ LaneErrOf n a) [.port] s t := by
  have hheard := s.trainRx_drilled (n := n) lanes
  have hexec := execTrainingSequence_deskew (lanes := lanes) s hstate
  rw [← hheard.trainCarriers] at hcarry hlast hfirst
  rw [hq, State.deskewRx_of_aligned _ htype hcarry hlast hfirst hskew] at hexec
  have honly : Only 257 (s.trainRx n lanes).1 ((s.trainRx n lanes).1.skewShown n (fun l => q.place.getD l 0) last) :=
    (Only.each _ _ (fun _ t => put_only t _ _) .refl : Only 1 _ _).mono (by decide)
  refine ⟨_, hexec, State.trainState_state _ 6, fun l hl => ?_, ((hheard.only.trans honly).trans (trainState_only _ _ _)).keeps fun a ha => ?_⟩
  · rw [State.trainState_f _ 6 (.inl (ne_laneStat (glsStat_lt n)).symm), State.skewShown_skew _ _ _ hl]
  · simp only [not_or] at ha
    obtain ⟨hstat, hlane, herr⟩ := ha
    exact (State.trainState_reg _ 6 hstat).trans ((State.each_lane_reg (skewShown_step _ last) _ hlane).trans (hheard.reg a hlane herr))

end

/-! #### CHECK, and the entry to UP (R311, R313) -/

section
variable {s t : State} {n : Nat}

theorem State.physLane_of_reg (h : t.reg (GLS_STAT n) = s.reg (GLS_STAT n)) (k : Nat) : t.physLane n k = s.physLane n k := by
  rw [State.physLane, State.on_of_reg (x := GLS_STAT_REVERSED n) h, State.physLane]

theorem State.physLane_lt (s : State) {k : Nat} (hk : k ≤ 8) : s.physLane n k < 9 := by
  unfold State.physLane
  split <;> omega

theorem State.physLane_inj (s : State) {k l : Nat} (hk : k ≤ 8) (hl : l ≤ 8) (h : s.physLane n k = s.physLane n l) : k = l := by
  unfold State.physLane at h
  split at h <;> omega

end

section
variable (s : State) {n : Nat}

theorem State.laneRole_reg {k : Nat} (role carry : Nat) {a : Nat} (ha : a ≠ GLS_LANE_STAT n (s.physLane n k)) :
    (s.laneRole n k role carry).reg a = s.reg a := by
  rw [State.laneRole, State.reg_put_ne _ _ ha.symm, State.reg_put_ne _ _ ha.symm]

theorem State.laneRole_role (k role carry : Nat) :
    (s.laneRole n k role carry).f (GLS_LANE_STAT_ROLE n (s.physLane n k)) = role % 8 :=
  (State.f_put_apart _ _ (by simp) (by simp) (by simp)).trans (State.f_put _ _ _ (by simp) (by simp))

theorem State.laneRole_carry (k role carry : Nat) :
    (s.laneRole n k role carry).f (GLS_LANE_STAT_CARRY n (s.physLane n k)) = carry % 16 := State.f_put _ _ _ (by simp) (by simp)

/-- UP shows, without a resumed link, and the attempts are over. -/
def State.statUp (n : Nat) : State := ((s.portState n 7).put (GLS_STAT_RESUMED n) 0).put (GLS_STAT_ATTEMPTS n) 0

/-- Lanes 0 to 7 carry data. -/
def State.lanesActive (n : Nat) : State := s.each (List.range 8) (fun k t => t.laneRole n k 1 k)

/-- LS is free. -/
def State.spareIdle (n : Nat) : State := (s.laneRole n 8 2 0).put (GLS_STAT_RX_SPARE n) 15

/-- The counts of a link begin at figure `fig`, and FIT of the lanes is shown. -/
def State.linkBegun (n fig : Nat) : State :=
  (s.setPort n { s.portOf n with
    known := true, clean := List.range 9, winCode := [], winDisp := [], statFig := fig, sinceStatus := 0, sinceSkip := 0 }).showFit n

/-- The port with UP shown and lanes 0 to 7 carrying data. -/
def State.carrying (n : Nat) : State := (s.statUp n).lanesActive n

/-- All that the port itself does when it comes up without a spared lane and without a resumed link. -/
def State.upShown (n : Nat) : State := ((s.carrying n).spareIdle n).linkBegun n s.fig.toNat |>.glsEvt n 0 160

theorem State.linkUp_of_whole (hbad : (s.portOf n).bad = none) (hresume : (s.portOf n).resume = none) :
    s.linkUp n = (s.upShown n).latPump.latSettle := by
  unfold State.linkUp
  simp only [hbad, hresume, ite_self]
  rfl

/-! Each of these steps leaves what the others show. -/

theorem State.statUp_f {x : Fld} (hx : x.addr ≠ GLS_STAT n ∨ 7 < x.lo ∧ (x.hi < 25 ∨ 25 < x.lo ∧ x.hi < 27)) : (s.statUp n).f x = s.f x := by
  rw [State.statUp, State.f_put_apart _ _ (by simp) (by simp) (by dsimp only; omega),
    State.f_put_apart _ _ (by simp) (by simp) (by dsimp only; omega), State.portState_f _ _ (by omega)]

theorem State.statUp_reg {a : Nat} (ha : a ≠ GLS_STAT n) : (s.statUp n).reg a = s.reg a := by
  rw [State.statUp, State.reg_put_ne _ _ ha.symm, State.reg_put_ne _ _ ha.symm, State.portState_reg _ _ ha]

theorem State.statUp_state : (s.statUp n).f (GLS_STAT_STATE n) = 7 := by
  rw [State.statUp, State.f_put_apart _ _ (by simp) (by simp) (by simp), State.f_put_apart _ _ (by simp) (by simp) (by simp),
    State.portState_state]

theorem State.statUp_up : (s.statUp n).on (GLS_STAT_UP n) = true := by
  rw [State.statUp, State.on_put_apart _ _ (by simp) (by simp) (by simp), State.on_put_apart _ _ (by simp) (by simp) (by simp),
    State.portState_up]

theorem State.statUp_attempts : (s.statUp n).f (GLS_STAT_ATTEMPTS n) = 0 := State.f_put _ _ _ (by simp) (by simp)

theorem lanesActive_step {k : Nat} (t : State) (ht : t.reg (GLS_STAT n) = s.reg (GLS_STAT n)) (a : Nat)
    (ha : a ≠ GLS_LANE_STAT n (s.physLane n k)) : (t.laneRole n k 1 k).reg a = t.reg a :=
  t.laneRole_reg 1 k (State.physLane_of_reg ht k ▸ ha)

theorem State.lanesActive_reg {a : Nat} (ha : ∀ k < 8, a ≠ GLS_LANE_STAT n (s.physLane n k)) : (s.lanesActive n).reg a = s.reg a :=
  State.each_writes_reg (fun k => GLS_LANE_STAT n (s.physLane n k)) (List.range 8) (fun _ _ => lanesActive_step s)
    (fun _ _ => ne_laneStat (glsStat_lt n)) s rfl fun k hk => ha k (List.mem_range.1 hk)

theorem State.lanesActive_lane {k : Nat} (hk : k < 8) : (s.lanesActive n).f (GLS_LANE_STAT_ROLE n (s.physLane n k)) = 1 ∧
    (s.lanesActive n).f (GLS_LANE_STAT_CARRY n (s.physLane n k)) = k := by
  have hdistinct : (List.range 8).Pairwise fun k l => GLS_LANE_STAT n (s.physLane n k) ≠ GLS_LANE_STAT n (s.physLane n l) := by
    refine List.Pairwise.imp_of_mem (fun {k l} hk hl h e => h ?_) List.nodup_range
    rw [List.mem_range] at hk hl
    exact s.physLane_inj (by omega) (by omega) (laneStat_inj.1 e)
  obtain ⟨u, hu, hown⟩ := State.each_writes_own (fun k => GLS_LANE_STAT n (s.physLane n k)) (fun _ _ => lanesActive_step s)
    (fun _ _ => ne_laneStat (glsStat_lt n)) hdistinct s rfl (List.mem_range.2 hk)
  have hlane : u.physLane n k = s.physLane n k := State.physLane_of_reg (hu _ fun _ _ _ => ne_laneStat (glsStat_lt n)) k
  rw [State.lanesActive, State.f_of_reg (x := GLS_LANE_STAT_ROLE n (s.physLane n k)) hown,
    State.f_of_reg (x := GLS_LANE_STAT_CARRY n (s.physLane n k)) hown, ← hlane, State.laneRole_role, State.laneRole_carry]
  exact ⟨rfl, Nat.mod_eq_of_lt (by omega)⟩

theorem State.spareIdle_f {x : Fld} (hlane : x.addr ≠ GLS_LANE_STAT n (s.physLane n 8)) (hx : x.addr ≠ GLS_STAT n ∨ x.hi < 20 ∨ 23 < x.lo) :
    (s.spareIdle n).f x = s.f x := by
  rw [State.spareIdle, State.f_put_apart _ _ (by simp) (by simp) (by dsimp only; omega)]
  exact State.f_of_reg (s.laneRole_reg 2 0 hlane)

theorem State.spareIdle_spare : (s.spareIdle n).f (GLS_STAT_RX_SPARE n) = 15 := State.f_put _ _ _ (by simp) (by simp)

theorem State.spareIdle_role : (s.spareIdle n).f (GLS_LANE_STAT_ROLE n (s.physLane n 8)) = 2 := by
  rw [State.spareIdle, State.f_put_ne _ _ (ne_laneStat (glsStat_lt n)), State.laneRole_role]

theorem State.spareIdle_reg {a : Nat} (hstat : a ≠ GLS_STAT n) (hlane : a ≠ GLS_LANE_STAT n (s.physLane n 8)) :
    (s.spareIdle n).reg a = s.reg a := by
  rw [State.spareIdle, State.reg_put_ne _ _ hstat.symm, s.laneRole_reg 2 0 hlane]

/-- FIT takes bit 27 of the status of a lane. -/
theorem State.showFit_f {x : Fld} (hx : x.addr < GLS_LANE_STAT n 0 ∨ x.hi < 27) : (s.showFit n).f x = s.f x := by
  refine State.each_keeps (State.f · x) (List.range 9) (fun l _ t => ?_) s
  exact State.f_put_apart t _ (by simp) (by simp) (hx.imp (fun h => (ne_laneStat h).symm) .inl)

theorem State.showFit_reg {a : Nat} (ha : a ∉ (List.range 9).map (GLS_LANE_STAT n)) : (s.showFit n).reg a = s.reg a :=
  State.each_lane_reg (fun _ _ _ h => State.reg_put_ne _ _ h.symm) s ha

theorem State.linkBegun_f (fig : Nat) {x : Fld} (hx : x.addr < GLS_LANE_STAT n 0 ∨ x.hi < 27) : (s.linkBegun n fig).f x = s.f x := by
  rw [State.linkBegun, State.showFit_f _ hx, State.f_congr (State.setPort_regs _ _ _)]

theorem State.linkBegun_reg (fig : Nat) {a : Nat} (ha : a ∉ (List.range 9).map (GLS_LANE_STAT n)) : (s.linkBegun n fig).reg a = s.reg a := by
  rw [State.linkBegun, State.showFit_reg _ ha, State.reg_congr (State.setPort_regs _ _ _)]

end

/-- From `s` to `t` the port has come up, with LS free. -/
structure State.CameUp (n : Nat) (s t : State) : Prop where
  state : t.f (GLS_STAT_STATE n) = 7
  up : t.on (GLS_STAT_UP n) = true
  attempts : t.f (GLS_STAT_ATTEMPTS n) = 0
  spare : t.f (GLS_STAT_RX_SPARE n) = 15
  lanes : ∀ k < 8, t.f (GLS_LANE_STAT_ROLE n (s.physLane n k)) = 1 ∧ t.f (GLS_LANE_STAT_CARRY n (s.physLane n k)) = k
  idle : t.f (GLS_LANE_STAT_ROLE n (s.physLane n 8)) = 2
  event : (t.reg (GLS_EVT n)).toNat.testBit 0 = true
  reg : ∀ a, ¬ LatReg a → t.reg a = s.reg a

section
variable (s : State) {n : Nat}

theorem State.statUp_physLane (k : Nat) : (s.statUp n).physLane n k = s.physLane n k := by
  rw [State.physLane, State.on, s.statUp_f (.inr (by simp)), State.physLane, State.on]

theorem State.carrying_stat : (s.carrying n).reg (GLS_STAT n) = (s.statUp n).reg (GLS_STAT n) :=
  State.lanesActive_reg _ fun _ _ => ne_laneStat (glsStat_lt n)

theorem State.carrying_physLane (k : Nat) : (s.carrying n).physLane n k = s.physLane n k :=
  (State.physLane_of_reg s.carrying_stat k).trans (s.statUp_physLane k)

theorem State.carrying_lane {k : Nat} (hk : k < 8) : (s.carrying n).f (GLS_LANE_STAT_ROLE n (s.physLane n k)) = 1 ∧
    (s.carrying n).f (GLS_LANE_STAT_CARRY n (s.physLane n k)) = k := by
  rw [← s.statUp_physLane k]
  exact (s.statUp n).lanesActive_lane hk

section
variable (hn : n < 16) {x : Fld}
include hn

theorem State.upShown_stat (hx : x.addr = GLS_STAT n) : (s.upShown n).f x = ((s.carrying n).spareIdle n).f x :=
  (State.f_of_reg (State.glsEvt_evtReg _ 0 (by decide) (hx ▸ glsStat_not_evtReg hn))).trans (State.linkBegun_f _ _ (.inl (hx ▸ glsStat_lt n)))

/-- All but RX_SPARE is as it was when UP was shown. -/
theorem State.upShown_statUp (hx : x.addr = GLS_STAT n) (hd : x.hi < 20 ∨ 23 < x.lo) : (s.upShown n).f x = (s.statUp n).f x := by
  rw [s.upShown_stat hn hx, State.spareIdle_f _ (hx ▸ ne_laneStat (glsStat_lt n)) (.inr hd)]
  exact State.f_of_reg (hx ▸ s.carrying_stat)

theorem State.upShown_lane {l : Nat} (hl : l < 9) (hx : x.addr = GLS_LANE_STAT n l) (hd : x.hi < 27) :
    (s.upShown n).f x = ((s.carrying n).spareIdle n).f x := by
  have hevt : ¬ EvtReg n x.addr := hx ▸ not_evtReg (by unfold GLS_LANE_STAT; omega) (by unfold GLS_LANE_STAT GLS_EVT; omega)
  exact (State.f_of_reg (State.glsEvt_evtReg _ 0 (by decide) hevt)).trans (State.linkBegun_f _ _ (.inr hd))

theorem State.upShown_carrying {k : Nat} (hk : k < 8) (hx : x.addr = GLS_LANE_STAT n (s.physLane n k)) (hd : x.hi < 27) :
    (s.upShown n).f x = (s.carrying n).f x := by
  rw [s.upShown_lane hn (s.physLane_lt hk.le) hx hd]
  refine State.spareIdle_f _ ?_ (.inl (hx ▸ (ne_laneStat (glsStat_lt n)).symm))
  rw [hx, s.carrying_physLane]
  exact fun e => absurd (s.physLane_inj hk.le le_rfl (laneStat_inj.1 e)) hk.ne

end

theorem State.upShown_reg (hn : n < 16) {a : Nat} (ha : ¬ LatReg a) : (s.upShown n).reg a = s.reg a := by
  obtain ⟨hstat, hlanes, -, hevt⟩ := ports_of_not_latReg hn ha
  have hne (v : State) {k : Nat} (hk : k ≤ 8) : a ≠ GLS_LANE_STAT n (v.physLane n k) :=
    fun e => hlanes (e ▸ List.mem_map_of_mem (List.mem_range.2 (v.physLane_lt hk)))
  rw [State.upShown, State.glsEvt_evtReg _ 0 (by decide) hevt, State.linkBegun_reg _ _ hlanes, State.spareIdle_reg _ hstat (hne _ le_rfl),
    State.carrying, State.lanesActive_reg _ fun k hk => hne _ hk.le, State.statUp_reg _ hstat]

theorem State.upShown_cameUp (hn : n < 16) : State.CameUp n s (s.upShown n) where
  state := (s.upShown_statUp hn rfl (.inr (by simp))).trans s.statUp_state
  up := (congrArg (· == 1) (s.upShown_statUp hn rfl (.inr (by simp)))).trans s.statUp_up
  attempts := (s.upShown_statUp hn rfl (.inl (by simp))).trans s.statUp_attempts
  spare := (s.upShown_stat hn rfl).trans (State.spareIdle_spare _)
  lanes k hk := by
    rw [s.upShown_carrying hn hk rfl (by simp), s.upShown_carrying hn hk rfl (by simp)]
    exact s.carrying_lane hk
  idle := by
    rw [s.upShown_lane hn (s.physLane_lt le_rfl) rfl (by simp), ← s.carrying_physLane, State.spareIdle_role]
  event := State.glsEvt_bit _ hn (by decide)
  reg _ ha := s.upShown_reg hn ha

/-- What lattice control does then leaves the port up. -/
theorem State.CameUp.settled {s t u : State} {n : Nat} (hn : n < 16) (h : State.CameUp n s t) (g : t.Settled u) : State.CameUp n s u := by
  have hstat {x : Fld} (hx : x.addr = GLS_STAT n) : u.f x = t.f x := State.f_of_reg (g.gls (hx ▸ glsStat_block hn))
  have hlane {x : Fld} {k : Nat} (hk : k ≤ 8) (hx : x.addr = GLS_LANE_STAT n (s.physLane n k)) : u.f x = t.f x :=
    State.f_of_reg (g.gls (hx ▸ laneStat_block hn (s.physLane_lt hk)))
  constructor
  case state => rw [hstat rfl, h.state]
  case up => rw [State.on, hstat rfl]; exact h.up
  case attempts => rw [hstat rfl, h.attempts]
  case spare => rw [hstat rfl, h.spare]
  case lanes =>
    intro k hk
    rw [hlane hk.le rfl, hlane hk.le rfl]
    exact h.lanes k hk
  case idle => rw [hlane le_rfl rfl, h.idle]
  case event => rw [g.gls (glsEvt_block hn)]; exact h.event
  case reg => exact fun a ha => (g.latReg ha).trans (h.reg a ha)

theorem State.linkUp_cameUp (hn : n < 16) (hbad : (s.portOf n).bad = none) (hresume : (s.portOf n).resume = none) :
    State.CameUp n s (s.linkUp n) := by
  rw [s.linkUp_of_whole hbad hresume]
  exact (s.upShown_cameUp hn).settled hn ((latPumpList_settled _ _ _ _).trans (State.latSettle_settled _))

/-- CHECK has found no error so far, and CHECKED is sent. -/
def State.passed (n : Nat) : State := s.setPort n { s.portOf n with chkErr := false, checked := true }

/-- CHECKED from the peer and 1,024 slots sent take the port to UP (log entry 50). -/
theorem State.checkRx_of_whole {q : TrainSeq} (htype : q.type = 3) (hchecked : q.checked = true)
    (hcarry : (s.trainCarriers n).all (fun l => decide (l ∈ q.lanes) && decide (l ∉ q.errs)) = true) (hchk : (s.portOf n).chkErr = false)
    (htrained : 1024 ≤ (s.portOf n).trained) : s.checkRx n q = (s.passed n).linkUp n := by
  have herr : (q.type != 3 || (s.trainCarriers n).any (fun l => decide (l ∉ q.lanes) || decide (l ∈ q.errs))) = false := by
    simpa [htype] using hcarry
  unfold State.checkRx
  dsimp only
  rw [herr, hchk]
  exact if_pos ⟨by rw [State.portOf_setPort_self]; rfl, hchecked, htrained⟩

theorem trainingSequence_comesUp {lanes : List (List Nat)} {q : TrainSeq} (hn : n < 16) (hstate : s.f (GLS_STAT_STATE n) = 6)
    (hq : (s.trainRx n lanes).2 = q) (htype : q.type = 3) (hchecked : q.checked = true)
    (hcarry : (s.trainCarriers n).all (fun l => decide (l ∈ q.lanes) && decide (l ∉ q.errs)) = true) (hchk : (s.portOf n).chkErr = false)
    (htrained : 1024 ≤ (s.portOf n).trained) (hbad : (s.portOf n).bad = none) (hresume : (s.portOf n).resume = none) :
    ∃ t, exec (.trainingSequence n lanes) s = .next t ∧ t.portUp n = true ∧ t.on (GLS_STAT_UP n) = true ∧ t.f (GLS_STAT_ATTEMPTS n) = 0 ∧
      t.f (GLS_STAT_RX_SPARE n) = 15 ∧
      (∀ k : Nat, k < 8 → t.f (GLS_LANE_STAT_ROLE n (s.physLane n k)) = 1 ∧ t.f (GLS_LANE_STAT_CARRY n (s.physLane n k)) = k) ∧
      t.f (GLS_LANE_STAT_ROLE n (s.physLane n 8)) = 2 ∧ (t.reg (GLS_EVT n)).toNat.testBit 0 = true ∧
      Keeps LatReg [.lat, .port, .host, .tail, .mesh] s t := by
  have hheard := s.trainRx_drilled (n := n) lanes
  set u := (s.trainRx n lanes).1 with hu
  have hexec := execTrainingSequence_check (lanes := lanes) s hstate
  rw [hq, ← hu, State.checkRx_of_whole u htype hchecked (by rwa [hheard.trainCarriers]) (by rwa [hheard.port]) (by rwa [hheard.port])] at hexec
  have hup := (u.passed n).linkUp_cameUp hn (by rw [State.passed, State.portOf_setPort_self, hheard.port]; exact hbad)
    (by rw [State.passed, State.portOf_setPort_self, hheard.port]; exact hresume)
  have hphys (k : Nat) : (u.passed n).physLane n k = s.physLane n k := (State.physLane_of_reg rfl k).trans (hheard.physLane k)
  have honly : Only 132993 s ((u.passed n).linkUp n) :=
    ((hheard.only.trans ((setPort_only _ _ _).mono (by decide))).mono (by decide)).trans (linkUp_only _ n)
  refine ⟨_, hexec, beq_iff_eq.2 hup.state, hup.up, hup.attempts, hup.spare, fun k hk => ?_, ?_, hup.event, honly.keeps fun a ha => ?_⟩
  · rw [← hphys k]
    exact hup.lanes k hk
  · rw [← hphys 8]
    exact hup.idle
  · obtain ⟨-, hlane, herr, -⟩ := ports_of_not_latReg hn ha
    exact (hup.reg a ha).trans (hheard.reg a hlane herr)

end

/-- Settles O34: a lemma for each command; what lattice control does when a port goes up or down leaves the registers of the ports. -/
theorem gleisTraining : Obligations.GleisTraining := by
  unfold Obligations.GleisTraining
  exact fun s _ => ⟨fun n seen _ => signalDetect_locks s seen, fun n seen _ => signalDetect_regains s seen,
    fun n mask inv _ => lanesAligned_adapts s mask inv, fun n codes _ => adaptDone_identifies s codes,
    fun n q lanes => trainingSequence_identifies s, fun n q lanes => trainingSequence_mixed s,
    fun n first last q lanes _ => trainingSequence_deskews s first last, fun n q lanes => trainingSequence_comesUp s,
    fun n q lanes => trainingSequence_takesDown s, fun n => trainingTimeout_fails s, fun n _ => backoffEnd_returns s,
    fun n => linkTmo_takesDown s, fun n => retrain_takesDown s, fun n => restart_takesDown s, fun n w _ => eyeScanGo_scans s w,
    fun n w => eyeScanGo_aborts s w, fun n errs abort => eyeScanDone_ends s errs abort⟩

end Sys2Proof.Machine
end

section
/-! SUPPORT. The Tail's transfers (file 09, R344, R359 to R361): the request of an export or import, and how a transfer ends. -/

namespace Sys2Proof.Machine

/-! ### The catalogue -/

/-- The entries of the catalogue lie at multiples of 16. -/
theorem tailCatStat_ne_of_mod (i : Nat) {b : Nat} (h : b % 16 ≠ 0) : TAIL_CAT_STAT i ≠ b := by
  show 0x910000 + i * 0x10 ≠ b
  omega

/-- A slot that an export reads is in use (R344). -/
theorem State.slotUse_of_export (s : State) {x : Transfer} (h : s.tail.xfer = some x) (hexp : x.imp = false) :
    s.slotUse x.slot = s.put (TAIL_CAT_STAT_IN_USE x.slot) 1 := by
  simp [State.slotUse, h, hexp, b2n]

/-! ### The request (R359, R360) -/

section
variable (s : State) (x : Transfer) (key slot : Nat)

/-- What every request does first: TAIL_EXP_CTRL takes the fields of the write, and DONE and FAIL clear. -/
def State.xferAsked (imp : Bool) : State :=
  ((((s.put TAIL_EXP_CTRL_DIR (b2n imp)).put TAIL_EXP_CTRL_KEY_SLOT key).put TAIL_EXP_CTRL_SLOT slot).put TAIL_EXP_STAT_DONE 0).put
    TAIL_EXP_STAT_FAIL 0

theorem State.xferAsked_only (imp : Bool) : Only 1 s (s.xferAsked key slot imp) :=
  (put_only _ _ _).after (by decide) ((put_only _ _ _).after (by decide) ((put_only _ _ _).after (by decide)
    ((put_only _ _ _).after (by decide) (put_only s _ _))))

theorem State.xferAsked_reg (imp : Bool) {a : Nat} (hctrl : TAIL_EXP_CTRL ≠ a) (hstat : TAIL_EXP_STAT ≠ a) :
    (s.xferAsked key slot imp).reg a = s.reg a := by
  simp only [State.xferAsked, State.reg_put, if_neg hctrl, if_neg hstat]

theorem State.xferAsked_f (imp : Bool) {y : Fld} (hctrl : TAIL_EXP_CTRL ≠ y.addr) (hstat : TAIL_EXP_STAT ≠ y.addr) :
    (s.xferAsked key slot imp).f y = s.f y := State.f_of_reg (s.xferAsked_reg key slot imp hctrl hstat)

theorem State.xferAsked_done (imp : Bool) : (s.xferAsked key slot imp).on TAIL_EXP_STAT_DONE = false := by
  unfold State.xferAsked
  rw [State.on_put_disj (x := TAIL_EXP_STAT_FAIL) (y := TAIL_EXP_STAT_DONE) _ _ rfl (by decide) (by decide) (by decide)]
  exact State.on_put_zero _ rfl (by decide)

theorem State.xferAsked_fail (imp : Bool) : (s.xferAsked key slot imp).on TAIL_EXP_STAT_FAIL = false := State.on_put_zero _ rfl (by decide)

/-- The request itself does not touch the catalogue. -/
theorem State.xferAsked_slotState (imp : Bool) (i : Nat) : (s.xferAsked key slot imp).slotState i = s.slotState i :=
  s.xferAsked_f key slot imp (tailCatStat_ne i (by decide)).symm (tailCatStat_ne i (by decide)).symm

theorem State.xferAsked_alarmed (imp : Bool) : (s.xferAsked key slot imp).alarmed = s.alarmed := by
  unfold State.alarmed
  rw [s.xferAsked_f key slot imp (by decide) (by decide), s.xferAsked_f key slot imp (by decide) (by decide)]

/-- Nor the slot that an import takes. -/
theorem State.xferAsked_slotPick (imp : Bool) : (s.xferAsked key slot imp).slotPick = s.slotPick := by
  have hfld {y : Fld} (hctrl : TAIL_EXP_CTRL ≠ y.addr) (hstat : TAIL_EXP_STAT ≠ y.addr) := s.xferAsked_f key slot imp hctrl hstat
  have hcat (i hi lo : Nat) : (s.xferAsked key slot imp).f ⟨TAIL_CAT_STAT i, hi, lo⟩ = s.f ⟨TAIL_CAT_STAT i, hi, lo⟩ :=
    hfld (tailCatStat_ne i (by decide)).symm (tailCatStat_ne i (by decide)).symm
  have hseq (i : Nat) : (s.xferAsked key slot imp).f (TAIL_CAT_SEQ_SEQ i) = s.f (TAIL_CAT_SEQ_SEQ i) :=
    hfld (by show 0x900060 ≠ 0x91000c + i * 0x10; omega) (by show 0x900068 ≠ 0x91000c + i * 0x10; omega)
  have hstate : (s.xferAsked key slot imp).slotState = s.slotState := funext (s.xferAsked_slotState key slot imp)
  have hloose : (s.xferAsked key slot imp).slotLoose = s.slotLoose := by
    funext i
    simp only [State.slotLoose, State.on, hstate, hcat]
  have hslots : (s.xferAsked key slot imp).spoolSlots = s.spoolSlots := by rw [State.spoolSlots, hfld (by decide) (by decide), State.spoolSlots]
  have hretain : (s.xferAsked key slot imp).on TAIL_CTRL_RETAIN = s.on TAIL_CTRL_RETAIN := by
    rw [State.on, hfld (by decide) (by decide), State.on]
  simp only [State.slotPick, State.slotOldest, hstate, hloose, hslots, hretain, hseq]

/-- Transfer `x` begins: field `y` of its slot in the catalogue takes `v`, and BUSY is set. -/
def State.xferBegun (y : Fld) (v : Nat) : State :=
  (((s.xferAsked key slot x.imp).setTail { s.tail with xfer := some x }).put y v).put TAIL_EXP_STAT_BUSY 1

/-- An accepted export uses its slot (R344, R359). -/
theorem State.xferGo_export (hidle : s.on TAIL_EXP_STAT_BUSY = false) (halarm : s.alarmed = false) (hslot : s.slotState (slot % 256) = 2) :
    s.xferGo false key slot = s.xferBegun ⟨false, slot % 256, key % 256, s.f TAIL_EXP_ADDR_ADDR4K, s.pin.gdl.length⟩ key slot
      (TAIL_CAT_STAT_IN_USE (slot % 256)) 1 := by
  have haddr : (s.xferAsked key slot false).f TAIL_EXP_ADDR_ADDR4K = s.f TAIL_EXP_ADDR_ADDR4K :=
    s.xferAsked_f key slot false (by decide) (by decide)
  have hcalm := (s.xferAsked_alarmed key slot false).trans halarm
  have hfull := (s.xferAsked_slotState key slot false _).trans hslot
  have huse := ((s.xferAsked key slot false).setTail
    { s.tail with xfer := some ⟨false, slot % 256, key % 256, s.f TAIL_EXP_ADDR_ADDR4K, s.pin.gdl.length⟩ }).slotUse_of_export rfl rfl
  unfold State.xferBegun
  rw [← huse, ← haddr]
  unfold State.xferAsked at hcalm hfull ⊢
  simp only [State.xferGo, hidle, hcalm, hfull, Bool.false_eq_true, if_false, ne_eq, not_true_eq_false]
  rfl

/-- An accepted import holds its slot IMPORTING (R344, R360). -/
theorem State.xferGo_import {i : Nat} (hidle : s.on TAIL_EXP_STAT_BUSY = false) (halarm : s.alarmed = false)
    (hpick : s.slotPick = some (i, false)) :
    s.xferGo true key slot = s.xferBegun ⟨true, i, key % 256, s.f TAIL_EXP_ADDR_ADDR4K, s.pin.gdl.length⟩ key slot (TAIL_CAT_STAT_STATE i) 4 := by
  have haddr : (s.xferAsked key slot true).f TAIL_EXP_ADDR_ADDR4K = s.f TAIL_EXP_ADDR_ADDR4K :=
    s.xferAsked_f key slot true (by decide) (by decide)
  have hcalm := (s.xferAsked_alarmed key slot true).trans halarm
  have hfree := (s.xferAsked_slotPick key slot true).trans hpick
  unfold State.xferBegun
  rw [← haddr]
  unfold State.xferAsked at hcalm hfree ⊢
  simp only [State.xferGo, hidle, hcalm, hfree, Bool.false_eq_true, if_false, if_true]
  rfl

/-- What the start of transfer `x` with slot `i` shows: BUSY, neither DONE nor FAIL, and nothing but its registers and the transfer changes. -/
structure State.XferStarts (s t : State) (x : Transfer) (i : Nat) : Prop where
  busy : t.on TAIL_EXP_STAT_BUSY = true
  done : t.on TAIL_EXP_STAT_DONE = false
  fail : t.on TAIL_EXP_STAT_FAIL = false
  tail : t.tail = { s.tail with xfer := some x }
  keeps : Keeps (fun a => a = TAIL_EXP_CTRL ∨ a = TAIL_EXP_STAT ∨ a = TAIL_CAT_STAT i) [.tail] s t

theorem State.xferBegun_f (y : Fld) (v : Nat) (hstat : TAIL_EXP_STAT ≠ y.addr) (hh : y.hi < 32) (hl : y.lo ≤ y.hi) :
    (s.xferBegun x key slot y v).f y = v % 2 ^ (y.hi + 1 - y.lo) := by
  unfold State.xferBegun
  rw [State.f_put_ne _ _ hstat]
  exact State.f_put _ _ _ hh hl

theorem State.xferBegun_starts {i : Nat} {y : Fld} (hy : y.addr = TAIL_CAT_STAT i) (v : Nat) :
    s.XferStarts (s.xferBegun x key slot y v) x i := by
  have hne {z : Fld} (hz : z.addr = TAIL_EXP_STAT) : y.addr ≠ z.addr := by
    rw [hy, hz]
    exact tailCatStat_ne i (by decide)
  have hbefore {z : Fld} (hz : z.addr = TAIL_EXP_STAT) (hlt : z.hi < 31) :
      (s.xferBegun x key slot y v).on z = (s.xferAsked key slot x.imp).on z := by
    unfold State.xferBegun
    rw [State.on_put_disj _ _ hz.symm (by decide) (by decide) (.inl hlt), State.on_put_ne _ _ (hne hz)]
    rfl
  have honly : Only 513 s (s.xferBegun x key slot y v) :=
    (put_only _ _ _).after (by decide) ((put_only _ _ _).after (by decide) ((setTail_only _ _).after (by decide)
      ((s.xferAsked_only key slot x.imp).mono (by decide))))
  refine ⟨State.on_put_one _ rfl (by decide), (hbefore rfl (by decide)).trans (s.xferAsked_done key slot _),
    (hbefore rfl (by decide)).trans (s.xferAsked_fail key slot _), rfl, honly.keeps fun a ha => ?_⟩
  simp only [not_or] at ha
  obtain ⟨hctrl, hstat, hcat⟩ := ha
  unfold State.xferBegun
  rw [State.reg_put_ne _ _ (Ne.symm hstat), State.reg_put_ne _ _ (by rw [hy]; exact Ne.symm hcat), State.reg_congr (State.setTail_regs _ _),
    s.xferAsked_reg key slot x.imp (Ne.symm hctrl) (Ne.symm hstat)]

end

/-! ### The end (R361) -/

section
variable (s : State) (x : Transfer) (cause : Nat)

/-- The transfer is over: BUSY clears, and CAUSE is set. -/
def State.xferClear : State := ((s.setTail { s.tail with xfer := none }).put TAIL_EXP_STAT_BUSY 0).put TAIL_EXP_STAT_CAUSE cause

/-- The slot of transfer `x`: COMPLETE after an import without a cause, FREE after one with a cause, no longer in use after an export. -/
def State.xferLeave : State :=
  if x.imp then
    (if cause = 0 then (s.put (TAIL_CAT_STAT_STATE x.slot) 2).put TAIL_EXP_STAT_SLOT x.slot else s.slotFree x.slot)
  else s.slotUse x.slot

/-- What the end of transfer `x` with the cause `c` leaves: FAIL with the cause, and the slot of an import FREE. -/
def State.XferFails (s t : State) (x : Transfer) (c : Nat) : Prop :=
  t.on TAIL_EXP_STAT_BUSY = false ∧ t.on TAIL_EXP_STAT_FAIL = true ∧ t.f TAIL_EXP_STAT_CAUSE = c ∧ t.tail.xfer = none ∧
    (x.imp = true → t.f (TAIL_CAT_STAT_STATE x.slot) = 0) ∧ (t.reg (HIF_IRQ_STAT 5)).toNat.testBit 23 = true ∧
    Keeps (fun a => a = TAIL_EXP_STAT ∨ a = TAIL_CAT_STAT x.slot ∨ a = HIF_IRQ_STAT 5) [.host, .tail, .mesh] s t

/-- The flag that a transfer ends with. -/
def xferFlag : Fld := if cause = 0 then TAIL_EXP_STAT_DONE else TAIL_EXP_STAT_FAIL

theorem xferFlag_addr : (xferFlag cause).addr = TAIL_EXP_STAT := by
  unfold xferFlag
  split <;> rfl

/-- The flag is one bit, bit 29 or 30. -/
theorem xferFlag_bit : (xferFlag cause).hi = (xferFlag cause).lo ∧ 29 ≤ (xferFlag cause).lo ∧ (xferFlag cause).lo ≤ 30 := by
  unfold xferFlag
  split <;> decide

theorem State.xferClear_reg {a : Nat} (h : TAIL_EXP_STAT ≠ a) : (s.xferClear cause).reg a = s.reg a := by
  simp only [State.xferClear, State.reg_put, if_neg h]
  rfl

theorem State.xferClear_busy : (s.xferClear cause).f TAIL_EXP_STAT_BUSY = 0 := by
  unfold State.xferClear
  rw [State.f_put_disj (x := TAIL_EXP_STAT_CAUSE) (y := TAIL_EXP_STAT_BUSY) _ _ rfl (by decide) (by decide) (by decide)]
  exact State.f_put _ _ _ (by decide) (by decide)

theorem State.xferClear_cause : (s.xferClear cause).f TAIL_EXP_STAT_CAUSE = cause % 256 := State.f_put _ _ _ (by decide) (by decide)

theorem State.xferLeave_tail : (s.xferLeave x cause).tail = s.tail := by
  unfold State.xferLeave
  split
  · split <;> rfl
  · rfl

theorem State.xferLeave_reg {a : Nat} (hcat : TAIL_CAT_STAT x.slot ≠ a) (hstat : TAIL_EXP_STAT ≠ a) : (s.xferLeave x cause).reg a = s.reg a := by
  unfold State.xferLeave
  split
  · split
    · rw [State.reg_put_ne _ _ hstat, State.reg_put_ne _ _ hcat]
    · exact State.reg_put_ne _ _ hcat
  · exact s.slotUse_reg _ hcat

/-- Of TAIL_EXP_STAT the slot's change touches SLOT alone. -/
theorem State.xferLeave_stat {y : Fld} (hy : y.addr = TAIL_EXP_STAT) (hdisj : y.hi < 8 ∨ 15 < y.lo) : (s.xferLeave x cause).f y = s.f y := by
  have hcat : TAIL_CAT_STAT x.slot ≠ y.addr := hy ▸ tailCatStat_ne x.slot (by decide)
  unfold State.xferLeave
  split
  · split
    · rw [State.f_put_disj _ _ hy.symm (by decide) (by decide) hdisj, State.f_put_ne _ _ hcat]
    · exact State.f_put_ne _ _ hcat
  · exact State.f_of_reg (s.slotUse_reg _ hcat)

section
variable {x} (himp : x.imp = true)
include himp

theorem State.xferLeave_completes :
    (s.xferLeave x 0).f (TAIL_CAT_STAT_STATE x.slot) = 2 ∧ (s.xferLeave x 0).f TAIL_EXP_STAT_SLOT = x.slot % 256 := by
  rw [State.xferLeave, if_pos himp, if_pos rfl]
  refine ⟨?_, State.f_put _ _ _ (by decide) (by decide)⟩
  rw [State.f_put_ne _ _ (tailCatStat_ne x.slot (by decide)).symm]
  exact State.f_put _ _ _ (by simp) (by simp)

theorem State.xferLeave_frees (hcause : cause ≠ 0) : (s.xferLeave x cause).f (TAIL_CAT_STAT_STATE x.slot) = 0 := by
  rw [State.xferLeave, if_pos himp, if_neg hcause]
  exact State.f_put _ _ _ (by simp) (by simp)

end

section
variable {s x} (h : s.tail.xfer = some x)
include h

theorem State.xferEnd_eq : s.xferEnd cause = (((s.xferClear cause).xferLeave x cause).put (xferFlag cause) 1).raise 183 := by
  unfold State.xferEnd
  rw [h]
  rfl

theorem State.xferEnd_xfer : (s.xferEnd cause).tail.xfer = none := by
  rw [State.xferEnd_eq _ h, State.raise_tail, State.put_tail, State.xferLeave_tail]
  rfl

theorem State.xferEnd_reg {a : Nat} (hstat : TAIL_EXP_STAT ≠ a) (hcat : TAIL_CAT_STAT x.slot ≠ a) (hirq : a ≠ HIF_IRQ_STAT 5) :
    (s.xferEnd cause).reg a = s.reg a := by
  rw [State.xferEnd_eq _ h, State.raise_reg _ hirq, State.reg_put_ne _ _ (by rwa [xferFlag_addr]), State.xferLeave_reg _ _ _ hcat hstat,
    State.xferClear_reg _ _ hstat]

/-- EV_EXPORT_DONE (183). -/
theorem State.xferEnd_irq : ((s.xferEnd cause).reg (HIF_IRQ_STAT 5)).toNat.testBit 23 = true := by
  rw [State.xferEnd_eq _ h]
  exact State.raise_irq _ 183

theorem State.xferEnd_flag : (s.xferEnd cause).on (xferFlag cause) = true := by
  obtain ⟨hbit, -, hhi⟩ := xferFlag_bit cause
  rw [State.xferEnd_eq _ h, State.raise_on _ (by rw [xferFlag_addr]; decide)]
  exact State.on_put_one _ hbit (by omega)

/-- The flag and the event leave the fields of TAIL_EXP_STAT beside them. -/
theorem State.xferEnd_f {y : Fld} (hirq : y.addr ≠ HIF_IRQ_STAT 5) (hdisj : y.addr ≠ TAIL_EXP_STAT ∨ y.hi < 29 ∨ 30 < y.lo) :
    (s.xferEnd cause).f y = ((s.xferClear cause).xferLeave x cause).f y := by
  rw [State.xferEnd_eq _ h, State.raise_f _ hirq]
  by_cases hy : y.addr = TAIL_EXP_STAT
  · have hbits := hdisj.resolve_left (· hy)
    obtain ⟨hbit, hlo, hhi⟩ := xferFlag_bit cause
    exact State.f_put_disj _ _ ((xferFlag_addr cause).trans hy.symm) (by omega) (by omega) (by omega)
  · exact State.f_put_ne _ _ (by rw [xferFlag_addr]; exact Ne.symm hy)

theorem State.xferEnd_busy : (s.xferEnd cause).on TAIL_EXP_STAT_BUSY = false := by
  have hzero : (s.xferEnd cause).f TAIL_EXP_STAT_BUSY = 0 := by
    rw [State.xferEnd_f _ h (by decide) (by decide), State.xferLeave_stat _ _ _ rfl (by decide), State.xferClear_busy]
  rw [State.on, hzero]
  rfl

theorem State.xferEnd_cause : (s.xferEnd cause).f TAIL_EXP_STAT_CAUSE = cause % 256 := by
  rw [State.xferEnd_f _ h (by decide) (by decide), State.xferLeave_stat _ _ _ rfl (by decide), State.xferClear_cause]

/-- The state of the slot after the end is the one that the transfer leaves it in. -/
theorem State.xferEnd_slotState :
    (s.xferEnd cause).f (TAIL_CAT_STAT_STATE x.slot) = ((s.xferClear cause).xferLeave x cause).f (TAIL_CAT_STAT_STATE x.slot) :=
  State.xferEnd_f _ h (tailCatStat_ne_of_mod x.slot (by decide)) (.inl (tailCatStat_ne x.slot (by decide)))

theorem State.xferEnd_completes (himp : x.imp = true) :
    (s.xferEnd 0).f (TAIL_CAT_STAT_STATE x.slot) = 2 ∧ (s.xferEnd 0).f TAIL_EXP_STAT_SLOT = x.slot % 256 := by
  rw [State.xferEnd_slotState _ h, State.xferEnd_f _ h (by decide) (by decide)]
  exact State.xferLeave_completes _ himp

theorem State.xferEnd_frees (hcause : cause ≠ 0) (himp : x.imp = true) : (s.xferEnd cause).f (TAIL_CAT_STAT_STATE x.slot) = 0 := by
  rw [State.xferEnd_slotState _ h]
  exact State.xferLeave_frees _ _ himp hcause

theorem State.xferEnd_done : (s.xferEnd 0).on TAIL_EXP_STAT_DONE = true := State.xferEnd_flag 0 h

theorem State.xferEnd_fail (hcause : cause ≠ 0) : (s.xferEnd cause).on TAIL_EXP_STAT_FAIL = true := by
  have hflag := State.xferEnd_flag cause h
  rwa [xferFlag, if_neg hcause] at hflag

theorem State.xferEnd_keeps :
    Keeps (fun a => a = TAIL_EXP_STAT ∨ a = TAIL_CAT_STAT x.slot ∨ a = HIF_IRQ_STAT 5) [.host, .tail, .mesh] s (s.xferEnd cause) := by
  refine (xferEnd_only s cause).keeps fun a ha => ?_
  simp only [not_or] at ha
  obtain ⟨hstat, hcat, hirq⟩ := ha
  exact State.xferEnd_reg _ h (Ne.symm hstat) (Ne.symm hcat) hirq

theorem State.xferEnd_fails (hpos : 0 < cause) (hlt : cause < 256) : s.XferFails (s.xferEnd cause) x cause :=
  have hcause : cause ≠ 0 := Nat.pos_iff_ne_zero.1 hpos
  ⟨State.xferEnd_busy _ h, State.xferEnd_fail _ h hcause, (State.xferEnd_cause _ h).trans (Nat.mod_eq_of_lt hlt), State.xferEnd_xfer _ h,
    State.xferEnd_frees _ h hcause, State.xferEnd_irq _ h, State.xferEnd_keeps _ h⟩

/-- Nothing follows the end of a transfer by itself. -/
theorem State.xferEnd_settle (hcalm : s.Calm) : (s.xferEnd cause).settle = s.xferEnd cause := by
  obtain ⟨halarm, hpower⟩ := hcalm
  have hstat : (s.xferEnd cause).reg BAL_PWR_STAT = s.reg BAL_PWR_STAT :=
    State.xferEnd_reg _ h (by decide) (tailCatStat_ne_of_mod x.slot (by decide)) (by decide)
  exact State.settle_calm _ (by rw [(xferEnd_only s cause).sec (by decide), halarm]) ((State.powerAim_congr hstat).trans hpower)

end

end

/-! ### The commands -/

theorem execExportSlot_of_open (s : State) (key slot : Nat) (h : s.blockGated 36 = false) :
    exec (.exportSlot key slot) s = .next (s.xferGo false key slot) := by
  show execExportSlot key slot s = _
  simp [execExportSlot, State.toBlock, h]

theorem execImportSlot_of_open (s : State) (key : Nat) (h : s.blockGated 36 = false) :
    exec (.importSlot key) s = .next (s.xferGo true key (s.f TAIL_EXP_CTRL_SLOT)) := by
  show execImportSlot key s = _
  simp [execImportSlot, State.toBlock, h]

theorem execTransferAbort_of_open (s : State) (h : s.blockGated 36 = false) : exec .transferAbort s = .next (s.xferEnd 7) := by
  show execTransferAbort s = _
  simp [execTransferAbort, State.toBlock, h]

section
variable (s : State) {x : Transfer} (gdl box : Nat) (h : s.tail.xfer = some x) (hwait : x.wait = 0) (hload : s.gdlLoad = false)
include h hwait hload

/-- The Gondola was removed under an import, or is absent. -/
theorem execTransferEnd_of_lost (hlost : gdl % 256 = 4 ∧ x.imp = true ∨ gdl % 256 ≠ 4 ∧ s.on GDL_STAT_PRESENT = false) :
    exec (.transferEnd gdl box) s = .next (s.xferEnd 4).settle := by
  show execTransferEnd gdl box s = _
  rcases hlost with ⟨hgone, himp⟩ | ⟨hstays, habsent⟩
  · simp [execTransferEnd, h, hwait, hload, hgone, himp]
  · simp [execTransferEnd, h, hwait, hload, hstays, habsent]

theorem execTransferEnd_of_import (hstays : gdl % 256 ≠ 4) (hpresent : s.on GDL_STAT_PRESENT = true) (himp : x.imp = true) :
    exec (.transferEnd gdl box) s = .next ((s.boxTake x box).1.xferEnd (s.boxTake x box).2).settle := by
  show execTransferEnd gdl box s = _
  simp [execTransferEnd, h, hwait, hload, hstays, hpresent, himp]

theorem execTransferEnd_of_export (hstays : gdl % 256 ≠ 4) (hpresent : s.on GDL_STAT_PRESENT = true) (hexp : x.imp = false)
    (hid : s.pin.idBad = false) (hlife : s.f GDL_LIFE_RESERVE < s.f GDL_LIFE_LIFE) :
    exec (.transferEnd gdl box) s = .next ((s.boxOut x).1.xferEnd (s.boxOut x).2).settle := by
  show execTransferEnd gdl box s = _
  simp [execTransferEnd, h, hwait, hload, hstays, hpresent, hexp, hid, Nat.not_le.2 hlife]

end

/-! ### The clauses about transfers -/

section
variable (s : State) (key : Nat) (hopen : s.blockGated 36 = false) (hidle : s.on TAIL_EXP_STAT_BUSY = false) (halarm : s.alarmed = false)
include hopen hidle halarm

theorem execExportSlot_starts (slot : Nat) (hslot : s.slotState (slot % 256) = 2) :
    ∃ t, exec (.exportSlot key slot) s = .next t ∧
      s.XferStarts t ⟨false, slot % 256, key % 256, s.f TAIL_EXP_ADDR_ADDR4K, s.pin.gdl.length⟩ (slot % 256) ∧
      t.on (TAIL_CAT_STAT_IN_USE (slot % 256)) = true := by
  refine ⟨_, execExportSlot_of_open s key slot hopen, ?_⟩
  rw [s.xferGo_export key slot hidle halarm hslot, State.on_iff]
  exact ⟨s.xferBegun_starts _ key slot rfl 1, s.xferBegun_f _ key slot _ 1 (tailCatStat_ne _ (by decide)).symm (by simp) (by simp)⟩

theorem execImportSlot_starts {i : Nat} (hpick : s.slotPick = some (i, false)) :
    ∃ t, exec (.importSlot key) s = .next t ∧ s.XferStarts t ⟨true, i, key % 256, s.f TAIL_EXP_ADDR_ADDR4K, s.pin.gdl.length⟩ i ∧
      t.f (TAIL_CAT_STAT_STATE i) = 4 := by
  refine ⟨_, execImportSlot_of_open s key hopen, ?_⟩
  rw [s.xferGo_import key _ hidle halarm hpick]
  exact ⟨s.xferBegun_starts _ key _ rfl 4, s.xferBegun_f _ key _ _ 4 (tailCatStat_ne _ (by decide)).symm (by simp) (by simp)⟩

end

/-- Settles O38: both requests begin a transfer in the same way, and every end is that of `xferEnd`. -/
theorem tailTransfers : Obligations.TailTransfers := by
  unfold Obligations.TailTransfers
  intro s hcalm
  refine ⟨fun key slot hopen hidle halarm hslot => ?_, fun key i hopen hidle halarm hpick => ?_,
    fun x hopen h => ⟨_, execTransferAbort_of_open s hopen, State.xferEnd_fails 7 h (by decide) (by decide)⟩,
    fun gdl box x h hwait hload hlost => ?_, fun gdl box c x u h hwait hload hstays hpresent himp hbox => ?_,
    fun gdl box c x u h hwait hload hstays hpresent hexp hid hlife hbox => ?_,
    fun x h => ⟨State.xferEnd_busy 0 h, State.xferEnd_done h, State.xferEnd_cause 0 h, State.xferEnd_xfer 0 h, State.xferEnd_completes h,
      State.xferEnd_irq 0 h⟩,
    fun c x h hpos hlt => ?_⟩
  · obtain ⟨t, hexec, ⟨hbusy, hdone, hfail, htail, hkeeps⟩, huse⟩ := execExportSlot_starts s key hopen hidle halarm slot hslot
    exact ⟨t, hexec, hbusy, hdone, hfail, htail, huse, hkeeps⟩
  · obtain ⟨t, hexec, ⟨hbusy, hdone, hfail, htail, hkeeps⟩, hstate⟩ := execImportSlot_starts s key hopen hidle halarm hpick
    exact ⟨t, hexec, hbusy, hdone, hfail, htail, hstate, hkeeps⟩
  · have hexec := execTransferEnd_of_lost s gdl box h hwait hload hlost
    rw [State.xferEnd_settle 4 h hcalm] at hexec
    exact ⟨_, hexec, State.xferEnd_fails 4 h (by decide) (by decide)⟩
  · have hexec := execTransferEnd_of_import s gdl box h hwait hload hstays hpresent himp
    rw [hbox] at hexec
    exact ⟨_, hexec, rfl⟩
  · have hexec := execTransferEnd_of_export s gdl box h hwait hload hstays hpresent hexp hid hlife
    rw [hbox] at hexec
    exact ⟨_, hexec, rfl⟩
  · obtain ⟨hbusy, hfail, hcause, hnone, hfree, -⟩ := State.xferEnd_fails c h hpos hlt
    exact ⟨hbusy, hfail, hcause, hnone, hfree⟩

end Sys2Proof.Machine
end

section
/-! SUPPORT. Data integrity (file 11): the poison pattern and a further bit error (R402 to R404), the counter tree (R422 to R426). -/

namespace Sys2Proof.Machine

/-! ### The poison pattern and a bit error (R402 to R404) -/

/-- The check bits are linear in the data. -/
theorem checkWith_xor (cols : List Nat) (a b : Nat) : checkWith cols (a ^^^ b) = checkWith cols a ^^^ checkWith cols b := by
  induction cols generalizing a b with
  | nil => exact (Nat.xor_self 0).symm
  | cons c cols ih =>
    have hhalf : (a ^^^ b) / 2 = a / 2 ^^^ b / 2 := Nat.xor_div_two_pow (n := 1)
    have hbit : (a ^^^ b) % 2 = a % 2 ^^^ b % 2 := Nat.xor_mod_two_pow (n := 1)
    simp only [checkWith, hhalf, hbit, ih]
    rcases Nat.mod_two_eq_zero_or_one a with ha | ha <;> rcases Nat.mod_two_eq_zero_or_one b with hb | hb <;>
      simp [ha, hb, Nat.xor_assoc, Nat.xor_left_comm]

/-- Check bits are no wider than the columns. -/
theorem checkWith_lt {w : Nat} (cols : List Nat) (d : Nat) (h : ∀ c ∈ cols, c < 2 ^ w) : checkWith cols d < 2 ^ w := by
  induction cols generalizing d with
  | nil => exact Nat.two_pow_pos w
  | cons c cols ih =>
    obtain ⟨hc, hcols⟩ := List.forall_mem_cons.1 h
    refine Nat.xor_lt_two_pow ?_ (ih _ hcols)
    split
    · exact hc
    · exact Nat.two_pow_pos w

theorem check64_lt (d : Nat) : check64 d < 2 ^ 8 := checkWith_lt columns64 d (by decide +kernel)

section
variable {cols : List Nat} {w d c : Nat} (hclean : c ^^^ checkWith cols d ≠ 0) (hpoison : c ^^^ checkWith cols d ≠ 2 ^ w - 1)
include hclean hpoison

/-- A syndrome that is the column of a data bit corrects that bit. -/
theorem decodeWith_of_column {j : Nat} (hcol : cols.findIdx? (· == c ^^^ checkWith cols d) = some j) :
    decodeWith cols w d c = .corrected (d ^^^ 2 ^ j) := by
  simp [decodeWith, hclean, hpoison, hcol]

/-- A syndrome that is no column, neither of a data bit nor of a check bit, is uncorrectable. -/
theorem decodeWith_of_no_column (hcol : cols.findIdx? (· == c ^^^ checkWith cols d) = none)
    (hcheck : (List.range w).any (fun i => 2 ^ i == c ^^^ checkWith cols d) = false) : decodeWith cols w d c = .uncorrectable d := by
  simp only [decodeWith, hclean, hpoison, hcol, hcheck, if_false, Bool.false_eq_true]

end

/-- The syndrome of a poisoned word in which the bits `e` have flipped. -/
def poisonSyndrome (e : Nat) : Nat := 0xFF ^^^ e / 2 ^ 64 % 2 ^ 8 ^^^ check64 (e % 2 ^ 64)

section
variable {d : Nat} (hd : d < 2 ^ 64) (e : Nat)
include hd

theorem encode64_poison_xor_data : (encode64 d true ^^^ e) % 2 ^ 64 = d ^^^ e % 2 ^ 64 := by
  rw [Nat.xor_mod_two_pow, encode64, Nat.mod_eq_of_lt hd, Nat.add_mul_mod_self_left, Nat.mod_eq_of_lt hd]

theorem encode64_poison_xor_check : (encode64 d true ^^^ e) / 2 ^ 64 % 256 = check64 d ^^^ 0xFF ^^^ e / 2 ^ 64 % 2 ^ 8 := by
  have hcheck : check64 d ^^^ 0xFF < 2 ^ 8 := Nat.xor_lt_two_pow (check64_lt d) (by decide)
  rw [Nat.xor_div_two_pow, encode64, Nat.mod_eq_of_lt hd, if_pos rfl, Nat.add_mul_div_left _ _ (by decide), Nat.div_eq_of_lt hd,
    Nat.zero_add, show (256 : Nat) = 2 ^ 8 from rfl, Nat.xor_mod_two_pow, Nat.mod_eq_of_lt hcheck]

/-- The syndrome depends on the flipped bits alone. -/
theorem encode64_poison_xor_syndrome :
    (encode64 d true ^^^ e) / 2 ^ 64 % 256 ^^^ checkWith columns64 ((encode64 d true ^^^ e) % 2 ^ 64) = poisonSyndrome e := by
  rw [encode64_poison_xor_data hd, encode64_poison_xor_check hd, checkWith_xor, poisonSyndrome]
  show check64 d ^^^ _ ^^^ _ ^^^ (check64 d ^^^ check64 _) = _
  simp only [Nat.xor_assoc, Nat.xor_left_comm (check64 d), Nat.xor_xor_cancel_left]

end

/-- The complement of the column of a check bit, or of data bits 0 to 47, is no column. -/
theorem poisonSyndrome_of_detected : ∀ i < 72, i < 48 ∨ 64 ≤ i → poisonSyndrome (2 ^ i) ≠ 0 ∧ poisonSyndrome (2 ^ i) ≠ 2 ^ 8 - 1 ∧
    columns64.findIdx? (· == poisonSyndrome (2 ^ i)) = none ∧ (List.range 8).any (fun k => 2 ^ k == poisonSyndrome (2 ^ i)) = false := by
  decide +kernel

/-- The complement of the column of data bits 48 to 63 is the column of another data bit. -/
theorem poisonSyndrome_of_missed : ∀ i < 64, 48 ≤ i → poisonSyndrome (2 ^ i) ≠ 0 ∧ poisonSyndrome (2 ^ i) ≠ 2 ^ 8 - 1 ∧
    ∃ j < 64, j ≠ i ∧ columns64.findIdx? (· == poisonSyndrome (2 ^ i)) = some j := by
  decide +kernel

/-- Settles O7: the syndrome does not depend on the data, so that the 72 flips are 72 syndromes. -/
theorem poisonedWordBitError : Obligations.PoisonedWordBitError := by
  unfold Obligations.PoisonedWordBitError
  intro d i hd hi
  have hsyn := encode64_poison_xor_syndrome hd (2 ^ i)
  refine ⟨fun hbit => ?_, fun hlow hhigh => ?_⟩
  · obtain ⟨hclean, hpoison, hcol, hcheck⟩ := poisonSyndrome_of_detected i hi hbit
    rw [← hsyn] at hclean hpoison hcol hcheck
    have hdecode := decodeWith_of_no_column hclean hpoison hcol hcheck
    exact ⟨hdecode, congrArg Decoded.bad hdecode⟩
  · obtain ⟨hclean, hpoison, j, hj, hne, hcol⟩ := poisonSyndrome_of_missed i hhigh hlow
    rw [← hsyn] at hclean hpoison hcol
    have hdecode := decodeWith_of_column hclean hpoison hcol
    have hdata : (encode64 d true ^^^ 2 ^ i) % 2 ^ 64 = d ^^^ 2 ^ i := by
      rw [encode64_poison_xor_data hd, Nat.mod_eq_of_lt (Nat.pow_lt_pow_right (by decide) hhigh)]
    exact ⟨congrArg Decoded.bad hdecode, j, hj, hne, hdecode.trans (by rw [hdata])⟩

/-! ### The registers of a counter (R422) -/

/-- Replace the counter tree's own state. -/
def State.setIntg (s : State) (x : Integ) : State := { s with intg := x }

theorem State.setIntg_only (s : State) (x : Integ) : Only 4096 s (s.setIntg x) := Only.upd_intg x

theorem State.f_lt (s : State) (x : Fld) : s.f x < 2 ^ (x.hi + 1 - x.lo) := BitVec.isLt _

section
variable (n : Nat)

/-- COUNT, OVF_CNT and FAULT are fields of one register. -/
theorem cntF_eq : cntF n = ⟨(cntF n).addr, 15, 0⟩ := by unfold cntF; split <;> rfl

theorem cntOvfF_eq : cntOvfF n = ⟨(cntF n).addr, 23, 16⟩ := by unfold cntOvfF cntF; split <;> rfl

theorem cntFaultF_eq : cntFaultF n = ⟨(cntF n).addr, 31, 31⟩ := by unfold cntFaultF cntF; split <;> rfl

theorem cntThrF_eq : cntThrF n = ⟨(cntThrF n).addr, 15, 0⟩ := by unfold cntThrF; split <;> rfl

/-- The configuration of a counter lies in another register than its state. -/
theorem cntEnF_addr_ne : (cntF n).addr ≠ (cntEnF n).addr := by
  unfold cntF cntEnF
  split
  · show INT_LEAF_STAT n ≠ INT_LEAF_CFG n
    unfold INT_LEAF_STAT INT_LEAF_CFG
    omega
  · show INT_BKT_STAT (n - 1000) ≠ INT_BKT_CFG (n - 1000)
    unfold INT_BKT_STAT INT_BKT_CFG
    omega

/-- The overflow events are 208 to 210. -/
theorem cntLevel_irq : (208 + cntLevel n) / 32 = 6 := by
  unfold cntLevel
  split
  · rfl
  split <;> rfl

end

theorem cntF_addr_ne_irq {n : Nat} (hn : n ∈ cntAll) : (cntF n).addr ≠ HIF_IRQ_STAT 6 := by
  have hlt : n < 1018 := by
    simp only [cntAll, List.mem_append, List.mem_filter, List.mem_range, List.mem_map] at hn
    omega
  unfold cntF
  split
  · show INT_LEAF_STAT n ≠ _
    unfold INT_LEAF_STAT HIF_IRQ_STAT
    omega
  · show INT_BKT_STAT (n - 1000) ≠ _
    unfold INT_BKT_STAT HIF_IRQ_STAT
    omega

section
variable (s : State) (n : Nat)

theorem State.put_cntF_f (v : Nat) : (s.put (cntF n) v).f (cntF n) = v % 2 ^ 16 := by
  rw [cntF_eq n]
  exact s.f_put _ v (by simp) (by simp)

/-- A counter holds 16 bits. -/
theorem State.cntF_lt : s.f (cntF n) < 2 ^ 16 := by
  rw [cntF_eq n]
  exact s.f_lt _

theorem State.cntThrF_lt : s.f (cntThrF n) < 2 ^ 16 := by
  rw [cntThrF_eq n]
  exact s.f_lt _

/-! ### A fault overflow (R424, R425) -/

/-- The log record of a fault overflow (R426). -/
def State.faultRec : IntRec :=
  ⟨cntLevel n, true, if n < 1000 then n else if n = 1017 then 0 else n - 1000, s.fig.toNat % 2 ^ 48⟩

/-- What a fault overflow makes due: 1 for the parent (R424). -/
def State.overflowDue : List (Nat × Nat) :=
  if s.on (cntEnF n) then (cntParent n).toList.map (fun p => (p, s.fig.toNat)) else []

theorem State.cntRestart_fields : (s.cntRestart n true).f (cntF n) = 0 ∧
    (s.cntRestart n true).f (cntOvfF n) = (s.f (cntOvfF n) + 1) % 256 ∧ (s.cntRestart n true).f (cntFaultF n) = 1 := by
  unfold State.cntRestart State.when State.addF
  rw [if_pos rfl, cntOvfF_eq n, cntFaultF_eq n, cntF_eq n]
  simp (disch := simp) only [State.f_put, State.f_put_disj]
  exact ⟨rfl, rfl, rfl⟩

theorem State.cntRestart_reg (fault : Bool) {a : Nat} (ha : a ≠ (cntF n).addr) : (s.cntRestart n fault).reg a = s.reg a := by
  unfold State.cntRestart State.when State.addF
  rw [cntOvfF_eq n, cntFaultF_eq n]
  split <;> simp only [State.reg_put, ha.symm, if_false]

/-- The event of an overflow leaves what the overflow has written. -/
theorem State.cntOverflow_f {fault : Bool} {x : Fld} (hx : x.addr ≠ HIF_IRQ_STAT 6) :
    (s.cntOverflow n fault).f x = (s.cntRestart n fault).f x := by
  obtain ⟨u, hover, hregs⟩ := s.cntOverflow_raises n fault
  rw [hover, State.raise_f _ (by rwa [cntLevel_irq]), State.f_congr hregs]

theorem State.cntOverflow_reg_ne {fault : Bool} {a : Nat} (ha : a ≠ (cntF n).addr) (hirq : a ≠ HIF_IRQ_STAT 6) :
    (s.cntOverflow n fault).reg a = s.reg a := by
  obtain ⟨u, hover, hregs⟩ := s.cntOverflow_raises n fault
  rw [hover, State.raise_reg _ (by rwa [cntLevel_irq]), State.reg_congr hregs, s.cntRestart_reg n fault ha]

theorem cntLevel_eq_two_iff (h : ¬ n < 1000) : cntLevel n = 2 ↔ n = 1017 := by
  unfold cntLevel
  rw [if_neg h]
  split <;> simp [*]

/-- Of the counter tree's own state a fault overflow changes the log and what is due. -/
theorem State.cntOverflow_intg : (s.cntOverflow n true).intg =
    { s.intg with log := logInsert (s.faultRec n) s.intg.log, due := s.intg.due ++ s.overflowDue n } := by
  have hrec : (⟨cntLevel n, true, if n < 1000 then n else if cntLevel n = 2 then 0 else n - 1000, s.fig.toNat % 2 ^ 48⟩ : IntRec) =
      s.faultRec n := by
    unfold State.faultRec
    by_cases hn : n < 1000
    · simp only [if_pos hn]
    · simp only [if_neg hn, cntLevel_eq_two_iff n hn]
  have hen : (s.cntRestart n true).on (cntEnF n) = s.on (cntEnF n) := by
    unfold State.on State.f
    rw [s.cntRestart_reg n true (cntEnF_addr_ne n).symm]
  unfold State.cntOverflow State.overflowDue
  dsimp only
  rw [(raise_only _ _).intg (by decide), hrec, ← hen]
  cases cntParent n with
  | none => simp [State.addF]
  | some p =>
    by_cases hon : (s.cntRestart n true).on (cntEnF n) = true
    · rw [if_pos hon]
      exact congrArg State.intg (if_pos hon)
    · rw [if_neg hon, List.append_nil]
      exact congrArg State.intg (if_neg hon)

/-! ### The parity check of a software read (R425) -/

/-- A wrong parity, found at this read or before it, is mended by a fault overflow. -/
theorem State.cntParity_of_wrong {bad : Bool} (hn : n ∈ cntAll) (h : bad = true ∨ n ∈ s.intg.bad) :
    ∃ b, n ∉ b ∧ (s.cntSpoil n bad).cntParity n = (s.setIntg { s.intg with bad := b }).cntOverflow n true := by
  have hspoil : ∃ b, n ∈ b ∧ s.cntSpoil n bad = s.setIntg { s.intg with bad := b } := by
    unfold State.cntSpoil
    by_cases hbad : bad = true
    · exact ⟨_, mem_ladd _ _, if_pos ⟨hbad, hn⟩⟩
    · exact ⟨_, h.resolve_left hbad, if_neg (fun hboth => hbad hboth.1)⟩
  obtain ⟨b, hmem, hspoil⟩ := hspoil
  rw [hspoil]
  exact ⟨ldel b n, not_mem_ldel b n, if_pos hmem⟩

theorem State.cntParity_of_right (h : n ∉ s.intg.bad) : s.cntParity n = s := if_neg h

/-! ### Leaks (R423) -/

/-- A counter whose parity is right loses 1 at the first edge of its window, once. -/
theorem State.cntLeak_of_window (hen : s.on (cntEnF n) = true) (hbad : n ∉ s.intg.bad) (hnew : n ∉ s.intg.leaked)
    (hedge : s.fig.toNat % 2 ^ max 10 (s.f (cntLeakF n)) = 0) :
    s.cntLeak n = (s.setIntg { s.intg with leaked := ladd s.intg.leaked n }).put (cntF n) (s.f (cntF n) - 1) := by
  unfold State.cntLeak
  rw [if_pos ⟨hen, hnew, hedge⟩]
  exact congrArg (fun t : State => t.put (cntF n) (t.f (cntF n) - 1))
    (State.cntParity_of_right (s.setIntg { s.intg with leaked := ladd s.intg.leaked n }) n hbad)

/-- Windows are of 1,024 figures at the least. -/
theorem State.cntLeak_of_no_window (h : s.fig.toNat % 1024 ≠ 0) : s.cntLeak n = s := by
  have hwindow : ¬ s.fig.toNat % 2 ^ max 10 (s.f (cntLeakF n)) = 0 := fun h0 =>
    h (Nat.mod_eq_zero_of_dvd ((pow_dvd_pow 2 (le_max_left 10 _)).trans (Nat.dvd_of_mod_eq_zero h0)))
  exact if_neg (fun ⟨_, _, h0⟩ => hwindow h0)

/-! ### An addition below the threshold (R423, R424) -/

/-- Between leaks, below THR, the count takes what is added. -/
theorem State.cntAdd_of_below {k : Nat} (hen : s.on (cntEnF n) = true) (hbad : n ∉ s.intg.bad) (hover : n ∉ s.intg.overs)
    (hedge : s.fig.toNat % 1024 ≠ 0) (hbelow : s.f (cntF n) + k < s.f (cntThrF n)) :
    s.cntAdd n k = s.put (cntF n) (s.f (cntF n) + k) := by
  have hthr := s.cntThrF_lt n
  have hmin : min (s.f (cntF n) + k) 0xFFFF = s.f (cntF n) + k := by omega
  unfold State.cntAdd
  rw [if_pos hen, s.cntLeak_of_no_window n hedge, s.cntParity_of_right n hbad]
  dsimp only
  rw [if_neg hover, hmin, if_neg (by omega)]

/-- One overflow of an earlier edge is due: its bucket adds 1. -/
theorem State.cntUp_of_one {b e : Nat} (hdue : s.intg.due = [(b, e)]) (hlt : e < s.fig.toNat) :
    s.cntUp = (s.setIntg { s.intg with due := [] }).cntAdd (1000 + b) 1 := by
  simp [State.cntUp, State.setIntg, hdue, hlt, State.each, foldS]

end

/-! ### The overflow log (R426) -/

/-- A pop takes a head record of an earlier edge and loads its stamp. -/
theorem execIntLogPop_of_record (s : State) {r : IntRec} {rest : List IntRec} (hlog : s.intg.log = r :: rest)
    (hstamp : r.stamp ≠ s.fig.toNat % 2 ^ 48) :
    exec .intLogPop s = .next ((((s.setIntg { s.intg with log := rest }).setReg INT_LOG_STAMP_LO
      (BitVec.ofNat 32 r.stamp)).put INT_LOG_STAMP_HI_STAMP_HI (r.stamp / 2 ^ 32))) := by
  have htop : s.logTop = some r := by
    rw [State.logTop, hlog]
    exact Option.filter_eq_some_iff.2 ⟨rfl, bne_iff_ne.2 hstamp⟩
  show execIntLogPop s = _
  unfold execIntLogPop
  dsimp only
  rw [State.logStamp, htop, Option.isSome_some, if_pos rfl]
  exact congrArg (fun l => Host.Outcome.next (State.setIntg _ { s.intg with log := l.tail })) hlog

/-- Settles O10: a lemma for each command; a fault overflow by what it writes into the counter's register. -/
theorem counterTree : Obligations.CounterTree := by
  unfold Obligations.CounterTree
  intro s
  refine ⟨fun n hn hen hbad hnew hedge => ?leak, fun n bad hn hwrong => ?parity, fun b e hb hdue hlt hedge hen hbad hover hbelow => ?up,
    fun r rest hlog hstamp => ?pop⟩
  case leak =>
    have hexec : exec (.leakWindow n false) s = .next (s.cntLeak n) := rfl
    have hcount := s.cntF_lt n
    rw [s.cntLeak_of_window n hen hbad hnew hedge] at hexec
    refine ⟨_, hexec, ?_, rfl, ((put_only _ _ _).after (m := 4097) (by decide) ((s.setIntg_only _).mono (by decide))).keeps
      fun a ha => State.reg_put_ne _ _ (Ne.symm ha)⟩
    rw [State.put_cntF_f, Nat.mod_eq_of_lt (by omega)]
  case parity =>
    have hexec : exec (.counterParityRead n bad) s = .next ((s.cntSpoil n bad).cntParity n) := rfl
    obtain ⟨b, hmended, hparity⟩ := s.cntParity_of_wrong n hn hwrong
    have hintg := State.cntOverflow_intg (s.setIntg { s.intg with bad := b }) n
    have hfields (x : Fld) (hx : x.addr = (cntF n).addr) :=
      State.cntOverflow_f (s.setIntg { s.intg with bad := b }) n (fault := true) (x := x) (hx ▸ cntF_addr_ne_irq hn)
    obtain ⟨hcount, hovf, hfault⟩ := State.cntRestart_fields (s.setIntg { s.intg with bad := b }) n
    rw [hparity] at hexec
    refine ⟨_, hexec, (hfields _ rfl).trans hcount, (hfields _ (by rw [cntOvfF_eq])).trans hovf,
      (hfields _ (by rw [cntFaultF_eq])).trans hfault, by rw [hintg]; rfl, by rw [hintg]; rfl, by rw [hintg]; exact hmended,
      (execCounterParityRead_only n bad s _ hexec).keeps fun a ha => ?_⟩
    obtain ⟨hstat, hirq⟩ := not_or.1 ha
    exact State.cntOverflow_reg_ne _ n hstat hirq
  case up =>
    have hexec : exec .counterPropagate s = .next s.cntUp := rfl
    have hadd := (s.setIntg { s.intg with due := [] }).cntAdd_of_below (1000 + b) (k := 1) hen hbad hover hedge hbelow
    rw [s.cntUp_of_one hdue hlt, hadd] at hexec
    have hthr := s.cntThrF_lt (1000 + b)
    refine ⟨_, hexec, rfl, ?_, ((put_only _ _ _).after (m := 4097) (by decide) ((s.setIntg_only _).mono (by decide))).keeps
      fun a ha => State.reg_put_ne _ _ ?_⟩
    · rw [State.put_cntF_f]
      exact Nat.mod_eq_of_lt (hbelow.trans hthr)
    · rw [cntF, if_neg (by omega), Nat.add_sub_cancel_left]
      exact Ne.symm ha
  case pop =>
    refine ⟨_, execIntLogPop_of_record s hlog hstamp, rfl, ?_, ?_, ((put_only _ _ _).after (m := 4097) (by decide)
      ((setReg_only _ _ _).after (by decide) ((s.setIntg_only _).mono (by decide)))).keeps fun a ha => ?_⟩
    · rw [State.reg_put_ne _ _ (by decide), State.reg_setReg_self]
    · exact State.f_put _ _ _ (by decide) (by decide)
    · obtain ⟨hlo, hhi⟩ := not_or.1 ha
      rw [State.reg_put_ne _ _ (Ne.symm hhi), State.reg_setReg_ne _ _ (Ne.symm hlo)]
      rfl

end Sys2Proof.Machine
end

section
/-! SUPPORT. The caches of tag lines (file 11, R407): a dirty line that leaves a full cache, and a cache that lists lines of data. -/

namespace Sys2Proof.Machine

/-! ### A dirty tag line that leaves its cache (R407) -/

/-- Words stored one after the other from word `k` of line `l` on. -/
theorem State.each_setMemWord_word (l : Nat) (ws : List (BitVec 72)) (k j : Nat) (s : State) :
    mget (s.each (ws.zipIdx k) (fun x u => u.setMemWord (64 * l + 8 * x.2) x.1.toNat)).hbm.words 0 j =
      if 8 * l + k ≤ j then ws[j - (8 * l + k)]?.getD (mget s.hbm.words 0 j) else mget s.hbm.words 0 j := by
  induction ws generalizing k s with
  | nil => simp [State.each, foldS]
  | cons w ws ih =>
    have hword : mget (s.setMemWord (64 * l + 8 * k) w.toNat).hbm.words 0 j = if 8 * l + k = j then w else mget s.hbm.words 0 j := by
      show mget (mset _ _ _ _) 0 j = _
      rw [mget_mset, show (64 * l + 8 * k) / 8 = 8 * l + k by omega, BitVec.ofNat_toNat, BitVec.setWidth_eq]
    show mget ((s.setMemWord (64 * l + 8 * k) w.toNat).each (ws.zipIdx (k + 1)) _).hbm.words 0 j = _
    rw [ih, hword]
    rcases Nat.lt_trichotomy j (8 * l + k) with hlt | rfl | hgt
    · rw [if_neg (by omega), if_neg (by omega), if_neg (by omega)]
    · rw [if_neg (by omega), if_pos rfl, if_pos le_rfl, Nat.sub_self]
      rfl
    · rw [if_pos (by omega), if_neg (by omega), if_pos (by omega), show j - (8 * l + k) = j - (8 * l + (k + 1)) + 1 by omega]
      rfl

/-- A dirty line without an uncorrectable word is written back as it stands in the cache. -/
theorem State.tagBack_word (s : State) {l : Nat} {t : TagLine} (hcached : mget s.hbm.cache none l = some t) (hdirty : t.dirty = true)
    (hue : t.ue = false) (j : Nat) :
    mget (s.tagBack l).hbm.words 0 j = if 8 * l ≤ j then t.words.toList[j - 8 * l]?.getD (mget s.hbm.words 0 j) else mget s.hbm.words 0 j := by
  have hwords := s.each_setMemWord_word l t.words.toList 0 j
  unfold State.tagBack
  rw [hcached]
  dsimp only
  rw [if_pos hdirty, if_neg (by simp [hue])]
  exact hwords

section
variable (s : State)

/-- A full cache makes room with one of its lines, whichever it is. -/
theorem State.tagRoom_of_full {k : Nat} (hfull : 2048 ≤ (s.tagLines k).length) :
    ∃ v ∈ s.tagLines k, s.tagRoom k = (s.freeNext.tagBack v).setTagLine v none := by
  have hlt : s.freeVal % (s.tagLines k).length < (s.tagLines k).length := Nat.mod_lt _ (by omega)
  refine ⟨_, List.getElem_mem hlt, ?_⟩
  unfold State.tagRoom
  dsimp only
  rw [if_neg (by omega), List.getD_eq_getElem _ _ hlt]

/-- The tag word of a line whose tag line has just been read is the stored one. -/
theorem State.tagLoad_tagCell (a : Nat) : (s.tagLoad (tagLineOf a)).tagCell a = s.memWord (tagAddr a / 8 * 8) := by
  have hi : tagAddr a % 64 / 8 < 8 := by omega
  have haddr : 64 * tagLineOf a + 8 * (tagAddr a % 64 / 8) = tagAddr a / 8 * 8 := by unfold tagLineOf; omega
  unfold State.tagCell State.tagLoad State.setTagLine
  rw [State.setHbm_hbm, mget_mset_self]
  simp [hi, haddr, State.memWord]

/-- A tag word of zeros says UNWRITTEN, and reading it counts nothing. -/
theorem State.tagRead_of_zero {a : Nat} (hcell : (s.tagFetch (tagLineOf a)).tagCell a = 0) :
    s.tagRead a = s.tagFetch (tagLineOf a) ∧ (s.tagRead a).tagOf a = tagUnwritten := by
  have hclean : decode64 0 = .clean 0 := by decide +kernel
  have hread : s.tagRead a = s.tagFetch (tagLineOf a) := by
    unfold State.tagRead State.when
    dsimp only
    rw [hcell, hclean]
    rfl
  refine ⟨hread, ?_⟩
  rw [hread, State.tagOf, hcell, hclean]
  exact ite_self (c := tagAddr a % 8 = 0) tagUnwritten

end

/-! ### A cache that lists lines of the data region -/

theorem mget_map_const {α : Type} {l : List Nat} (v d : α) {k : Nat} (hk : k ∈ l) : mget (l.map (fun x => (x, v))) d k = v := by
  induction l with
  | nil => cases hk
  | cons x l ih =>
    rw [List.map_cons, mget_cons]
    split
    · rfl
    next hne => exact ih ((List.mem_cons.1 hk).resolve_left (Ne.symm hne))

/-- Numbers of 2,048 lines of stack 0 in the data region. -/
@[irreducible] def strayNumbers : List Nat := (List.range 2048).map (16 * ·)

theorem lt_of_mem_strayNumbers {v : Nat} (h : v ∈ strayNumbers) : v < 32768 := by
  unfold strayNumbers at h
  obtain ⟨m, hm, rfl⟩ := List.mem_map.1 h
  have hlt := List.mem_range.1 hm
  omega

theorem strayNumbers_length : strayNumbers.length = 2048 := by
  unfold strayNumbers
  exact (List.length_map _).trans List.length_range

/-- A dirty tag line, each of its tags 1. -/
def strayLine : TagLine := ⟨Vector.replicate 8 (BitVec.ofNat 72 (encode64 (1 + 2 ^ 32) false)), true⟩

/-- A read of the line at 0x200000. -/
def strayAcc : Acc := ⟨46, 63, false, 0x200000, 8, 0, 0, 0, 9⟩

/-- Stack 0 serves and holds nothing, stack controller 0 holds that read, and its cache is full of dirty lines that it lists under the numbers of
lines of data. -/
def strayCached : State :=
  { State.reset with
    regs := [(MEM_STAT, 2 ^ 30), (MEM_STACK_STAT 0, 2 ^ 30)]
    mesh := { Mesh.init with waiting := [(64, [⟨strayAcc, false, 0⟩])] }
    hbm := { Hbm.init with keys := some ⟨5, 7⟩, cache := strayNumbers.map (fun l => (l, some strayLine)) } }

theorem strayCached_calm : strayCached.Calm := by decide +kernel

theorem strayCached_tagLines : strayCached.tagLines (memStack (64 * tagLineOf 0x200000)) = strayNumbers := by decide +kernel

/-- The read's tag line is not cached, so that one of those lines leaves the cache and is written back into the data region. -/
theorem strayCached_tagFetch : ∃ v ∈ strayNumbers,
    strayCached.tagFetch (tagLineOf 0x200000) = ((strayCached.freeNext.tagBack v).setTagLine v none).tagLoad (tagLineOf 0x200000) := by
  have hnone : mget strayCached.hbm.cache none (tagLineOf 0x200000) = none := by decide +kernel
  obtain ⟨v, hv, hroom⟩ := strayCached.tagRoom_of_full (k := memStack (64 * tagLineOf 0x200000)) (by
    rw [strayCached_tagLines, strayNumbers_length])
  rw [strayCached_tagLines] at hv
  refine ⟨v, hv, ?_⟩
  unfold State.tagFetch
  rw [hnone, ← hroom]

theorem strayCached_tagBack_word {v : Nat} (hv : v ∈ strayNumbers) (j : Nat) :
    mget (strayCached.freeNext.tagBack v).hbm.words 0 j = if 8 * v ≤ j then strayLine.words.toList[j - 8 * v]?.getD 0 else 0 :=
  State.tagBack_word strayCached.freeNext (mget_map_const _ none hv) rfl (by decide +kernel) j

/-- The tag of the read's line is UNWRITTEN, and the read changes a word of the data region. -/
theorem strayCached_read_writes : (strayCached.tagRead 0x200000).tagOf 0x200000 = tagUnwritten ∧
    ∃ j, 8 * j < 0x001680000000 ∧ mget (strayCached.tagRead 0x200000).hbm.words 0 j ≠ 0 := by
  obtain ⟨v, hv, hfetch⟩ := strayCached_tagFetch
  have hlt := lt_of_mem_strayNumbers hv
  have hcell : (strayCached.tagFetch (tagLineOf 0x200000)).tagCell 0x200000 = 0 := by
    have hfar : tagAddr 0x200000 / 8 * 8 / 8 = 0x2D0004000 := by decide +kernel
    have hword := strayCached_tagBack_word hv 0x2D0004000
    have hpast : strayLine.words.toList[0x2D0004000 - 8 * v]? = none :=
      List.getElem?_eq_none (by rw [Vector.length_toList]; omega)
    rw [hpast, Option.getD_none, ite_self] at hword
    rw [hfetch, State.tagLoad_tagCell, State.memWord, hfar]
    exact congrArg BitVec.toNat hword
  obtain ⟨hread, htag⟩ := strayCached.tagRead_of_zero hcell
  refine ⟨htag, 8 * v, by omega, ?_⟩
  have hword := strayCached_tagBack_word hv (8 * v)
  rw [if_pos le_rfl, Nat.sub_self] at hword
  rw [hread, hfetch]
  exact hword ▸ (by decide +kernel : strayLine.words.toList[0]?.getD 0 ≠ 0)

/-- Refutes O40: its frame of HBM_READ leaves every word of the data region in each calm state, and in one whose full cache of tag lines lists
dirty lines under numbers of lines of data, the tag line that makes room for the read's is written back among the data. The statement asks
nothing of the cache; no command lists a line below the tag region there. -/
theorem not_hbmAccesses : ¬ Obligations.HbmAccesses := by
  unfold Obligations.HbmAccesses
  intro h
  obtain ⟨htag, j, hj, hchanged⟩ := strayCached_read_writes
  obtain ⟨-, hread, -⟩ := h strayCached strayCached_calm
  obtain ⟨t, -, hhbm, hwords, -⟩ := hread 0 0 strayAcc ⟨5, 7⟩ (by decide +kernel) (by decide) (by decide +kernel) (by decide +kernel) rfl
    (by decide) htag
  exact hchanged ((congrArg (fun x => mget x.words 0 j) hhbm).symm.trans (hwords j hj))

end Sys2Proof.Machine
end

section
/-! SUPPORT. The queue of a step, and what a step keeps of the fuses. -/

namespace Sys2Proof.Machine

/-- Settles O1: a step is one case analysis of the queue. -/
theorem stepRunsTheFront : Obligations.StepRunsTheFront := by
  unfold Obligations.StepRunsTheFront
  refine ⟨fun s c rest hp => ?_, fun s hp => ?_⟩
  · simp only [step, hp]
  · simp only [step, hp]

/-- The security state that fuses select (R544): 2 is Sealed, 1 is Bound, 0 is Unbound. -/
def Fuses.level (x : Fuses) : Nat := if x.sealed then 2 else if x.bound then 1 else 0

-- Elaborated in line: what stands above is checked before what stands below begins, and fewer threads, each with its stack, run at a time.
set_option Elab.async false in
/-- Fuses that only gain select no lower security state. -/
theorem Fuses.Grows.level_le {x y : Fuses} (h : x.Grows y) : x.level ≤ y.level := by
  obtain ⟨hbound, hsealed, -, -⟩ := h
  unfold Fuses.level
  cases hs : x.sealed with
  | true => simp [hsealed hs]
  | false =>
    cases hb : x.bound with
    | true => simp only [hbound hb]; cases y.sealed <;> decide
    | false => exact Nat.zero_le _

/-- Neither a FIG edge nor a command takes anything away from the fuses. -/
theorem step_fusesGrow {s t : State} (h : step s = .next t) : s.sec.fuses.Grows t.sec.fuses := by
  cases hp : s.pending with
  | nil =>
    obtain rfl : s.tick = t := by simpa only [step, hp, Host.Outcome.next.injEq] using h
    exact (tick_only s).fusesOk
  | cons i rest =>
    have hi : exec i { s with pending := rest } = .next t := by simpa only [step, hp] using h
    exact (exec_only i hi).fusesOk

/-- Settles O5: every step keeps Fuses.Grows, and the selected security state follows from it. -/
theorem fusesOnlyGain : Obligations.FusesOnlyGain := by
  unfold Obligations.FusesOnlyGain
  exact fun s t h => ⟨step_fusesGrow h, (step_fusesGrow h).level_le⟩

end Sys2Proof.Machine
end

section
/-! SUPPORT. Two states of a station core that the statements about its accumulators and about its branches allow: an accumulator whose
residue register holds 3, which is no residue, and an exception program counter above the range of P. -/

namespace Sys2Proof.Machine

/-- The state after reset, but core 0 is `x` with the word `w` at 0 in P, and runs at 0. -/
def runningAt0 (x : Core) (w : Word) : State :=
  { State.reset with
    regs := [(ST_STAT 0, 0x20000000)]
    core := [(0, { x with pm := [(0, BitVec.ofNat 39 (encode32 w.toNat false))] })] }

/-- MPY of d registers to accumulator 0, without parallel moves. -/
def mpyWord : Word := 0x04000000

/-- The residue register of accumulator 0 holds 3. -/
def residueThree : State := runningAt0 { Core.init with a0 := ⟨0, 3, false⟩ } mpyWord

theorem residueThree_mpy_poisons : residueThree.Issues 0 mpyWord 1 ∧ residueThree.Flows 0 ∧
    ((residueThree.coreCmd 0 mpyWord 1 (insnMac 1 0 false)).coreOf 0).a0.p = true := by decide +kernel

/-- Refutes O43: the clause of MPY does not ask that the residue of the old accumulator is right, as those of MAC and MSU do. An accumulator
whose residue register holds 3 fails the check of the datapath (R447), and the product comes out poisoned. -/
theorem not_coreAccumulators : ¬ Obligations.CoreAccumulators := by
  unfold Obligations.CoreAccumulators
  intro h
  obtain ⟨hissues, hflows, hpoisoned⟩ := residueThree_mpy_poisons
  obtain ⟨hmpy, -⟩ := h residueThree
  obtain ⟨t, hexec, hcore, -⟩ := hmpy 0 mpyWord 0 0 0 hissues hflows (by decide) (by decide) (by decide) (by decide) (by decide)
  obtain rfl : residueThree.coreCmd 0 mpyWord 1 (insnMac 1 0 false) = t := Host.Outcome.next.inj hexec
  exact absurd (hpoisoned.symm.trans (congrArg (fun x => x.a0.p) hcore)) (by decide)

/-- RETI. -/
def retiWord : Word := 0xA6000000

/-- The exception level is set, and EPC holds 0x10000. -/
def farReturn : State := runningAt0 { Core.init with ctl := [(0, 0x80), (1, 0x10000)] } retiWord

theorem farReturn_reti_leaves_run : farReturn.Issues 0 retiWord 86 ∧ farReturn.Flows 0 ∧ (farReturn.coreOf 0).sr.testBit 7 = true ∧
    (farReturn.coreCmd 0 retiWord 86 insnReti).coreSt 0 ≠ 1 := by decide +kernel

/-- Refutes O45: the clause of RETI at exception level puts no bound on EPC. Cores 0 to 15 have no boot ROM, and one whose EPC lies above P
takes an ACCESS exception there (R455), which at exception level is a double exception, so that the core no longer runs. -/
theorem not_coreControlFlow : ¬ Obligations.CoreControlFlow := by
  unfold Obligations.CoreControlFlow
  intro h
  obtain ⟨hissues, hflows, hlevel, hleaves⟩ := farReturn_reti_leaves_run
  obtain ⟨-, -, -, -, -, -, -, hreti, -⟩ := h farReturn
  obtain ⟨t, hexec, -, -, hruns, -⟩ := hreti 0 retiWord hissues hflows hlevel
  obtain rfl : farReturn.coreCmd 0 retiWord 86 insnReti = t := Host.Outcome.next.inj hexec
  exact hleaves hruns

end Sys2Proof.Machine
end

section
/-! SUPPORT. The code of BYPASS in the scan port's instruction register. -/

namespace Sys2Proof.Machine

/-- Code 256 of BYPASS has the low byte of EXTEST, whose instruction takes the balls. -/
theorem reset_bypass_takes_balls : State.reset.Calm ∧ State.reset.scanTakes = false ∧
    (((State.reset.scanIr (256 % 256)).scanDr 0).settle).pin.bs ≠ State.reset.pin.bs := by decide +kernel

/-- Refutes O49: the clause of BYPASS takes its frame for every code, and code 256, which is none of those of R474, becomes current by its low 8
bits as instruction 0, EXTEST, which puts the boundary register onto the balls. The instruction register has 8 bits; the statement does
not bound the code. -/
theorem not_scanInstructions : ¬ Obligations.ScanInstructions := by
  unfold Obligations.ScanInstructions
  intro h
  obtain ⟨hcalm, hfree, htakes⟩ := reset_bypass_takes_balls
  obtain ⟨-, -, hbypass, -⟩ := h State.reset hcalm
  obtain ⟨t, hexec, -, -, -, hparts⟩ := hbypass 256 hfree
  obtain rfl : ((State.reset.scanIr (256 % 256)).scanDr 0).settle = t := Host.Outcome.next.inj hexec
  have hpin : ((State.reset.scanIr (256 % 256)).scanDr 0).settle.pin = State.reset.pin := hparts .pin (by decide)
  exact htakes (congrArg Pins.bs hpin)

end Sys2Proof.Machine
end

section
/-! SUPPORT. A transfer from the Gondola whose lines go to a stack whose mesh port absorbs. -/

namespace Sys2Proof.Machine

/-- The state after reset, but a Gondola is present, one block of it is to go to HBM address 0, and mesh port 64, the one of stack 0, absorbs. -/
def absorbedTransfer : State :=
  { State.reset with
    regs := [(MESH_TGT_STAT 64, 2 ^ 30), (GDL_STAT, 2 ^ 31), (GDL_ID 9, 0x1000)]
    pin := { Pins.init with gdl := [⟨false, 1, 0, 0⟩] } }

/-- What the end of that transfer leaves when the module gave 64 lines. -/
def absorbedEnd : State :=
  ((gdlStore ((List.range (64 * 1)).map fun i => ([] : List Nat).getD i 0) (0 * 2 ^ 16) absorbedTransfer).gdlEnd (0 % 256)).settle

/-- The router of the port counts the lines that it answered. -/
theorem absorbedEnd_counts :
    absorbedTransfer.Calm ∧ absorbedTransfer.gdlFree = true ∧ absorbedTransfer.gdlRefused ⟨false, 1, 0, 0⟩ = none ∧
      absorbedEnd.reg (MESH_TGT_STAT 64) ≠ absorbedTransfer.reg (MESH_TGT_STAT 64) := by decide +kernel

/-- The end of a transfer to HBM that nothing refuses. -/
theorem execGondolaTransferEnd_of_accepted (s : State) {x : Gdl} {rest : List Gdl} (lines rcd : List Nat) (hgdl : s.pin.gdl = x :: rest)
    (hfree : s.gdlFree = true) (haccepted : s.gdlRefused x = none) (hin : x.out = false) :
    exec (.gondolaTransferEnd 0 lines rcd) s =
      .next ((gdlStore ((List.range (64 * x.len)).map fun i => lines.getD i 0) (x.hbm * 2 ^ 16) s).gdlEnd (0 % 256)).settle := by
  show execGondolaTransferEnd 0 lines rcd s = _
  simp [execGondolaTransferEnd, hgdl, hfree, haccepted, hin]

/-- Refutes O59: its last clause leaves every register but GDL_STAT and that of the event, in every calm state, and asks nothing of the stack
that takes the lines. Where the stack's mesh port is in ABSORB, its router answers the writes and counts them in MESH_TGT_STAT (R385). -/
theorem not_gondola : ¬ Obligations.Gondola := by
  unfold Obligations.Gondola
  intro h
  obtain ⟨hcalm, hfree, haccepted, hcounts⟩ := absorbedEnd_counts
  obtain ⟨-, -, -, -, -, -, -, hstore⟩ := h absorbedTransfer hcalm
  obtain ⟨t, hexec, -, -, -, -, -, -, -, hreg, -⟩ := hstore [] [] ⟨false, 1, 0, 0⟩ [] rfl hfree haccepted rfl
  have hend := execGondolaTransferEnd_of_accepted absorbedTransfer [] [] rfl hfree haccepted rfl
  obtain rfl : absorbedEnd = t := Host.Outcome.next.inj (hend.symm.trans hexec)
  exact hcounts (hreg _ (by decide))

end Sys2Proof.Machine
end

section
/-! SUPPORT. The Tether (R572 to R577): a message arrives as it was sent when no bit of it is inverted on the way; what the commands of the
Tether leave. -/

namespace Sys2Proof.Machine

/-! ### Bytes (R572) -/

theorem toBytes_length (n v : Nat) : (toBytes n v).length = n := by
  induction n generalizing v with
  | zero => rfl
  | succ n ih => exact congrArg (· + 1) (ih (v / 256))

theorem lt_of_mem_toBytes {n v b : Nat} (h : b ∈ toBytes n v) : b < 256 := by
  induction n generalizing v with
  | zero => exact absurd h List.not_mem_nil
  | succ n ih =>
    rcases List.mem_cons.1 h with rfl | hrest
    · exact Nat.mod_lt _ (by decide)
    · exact ih hrest

theorem ofBytes_toBytes (n v : Nat) : ofBytes (toBytes n v) = v % 256 ^ n := by
  induction n generalizing v with
  | zero => exact (Nat.mod_one v).symm
  | succ n ih =>
    show v % 256 % 256 + 256 * ofBytes (toBytes n (v / 256)) = _
    rw [ih, Nat.mod_mod, Nat.pow_succ', Nat.mod_mul]

theorem ofBytes_append (l m : List Nat) : ofBytes (l ++ m) = ofBytes l + 256 ^ l.length * ofBytes m := by
  induction l with
  | nil => simp [ofBytes]
  | cons b l ih =>
    show b % 256 + 256 * ofBytes (l ++ m) = b % 256 + 256 * ofBytes l + 256 ^ (l.length + 1) * ofBytes m
    rw [ih, Nat.pow_succ']
    ring

theorem crc16_lt (l : List Nat) : crc16 l < 2 ^ 16 := by
  have hshift (x : Nat) : crcShift 16 0x1021 x < 2 ^ 16 := by
    unfold crcShift
    split <;> exact Nat.mod_lt _ (by decide)
  induction l using List.reverseRecOn with
  | nil => decide
  | append_singleton l b ih =>
    unfold crc16 crcMsb
    rw [List.foldl_append]
    exact hshift _

/-! ### The code of a message (R572) -/

/-- The code gives this symbol back at either disparity. -/
def Sym.Coded (x : Sym) : Prop :=
  ∀ rd : Bool, decodeGroup (encodeSym x rd).1 (some rd) = (some x, false, false, (encodeSym x rd).2)

theorem symbols_coded : (∀ x : Fin 256, (dsym x).Coded) ∧ k277.Coded ∧ k297.Coded := by
  unfold Sym.Coded
  decide +kernel

theorem dsym_coded (b : Nat) : (dsym b).Coded := by
  have hmod : dsym (b % 256) = dsym b := by unfold dsym; rw [Nat.mod_mod]
  exact hmod ▸ symbols_coded.1 ⟨b % 256, Nat.mod_lt _ (by decide)⟩

theorem k277_coded : k277.Coded := symbols_coded.2.1

theorem k297_coded : k297.Coded := symbols_coded.2.2

theorem decodeSyms_encodeSyms {l : List Sym} (h : ∀ x ∈ l, x.Coded) (rd : Bool) : decodeSyms (encodeSyms l rd) rd = l.map some := by
  induction l generalizing rd with
  | nil => rfl
  | cons x l ih =>
    show (if _ then none else _) :: decodeSyms (encodeSyms l (encodeSym x rd).2) _ = _
    rw [h x List.mem_cons_self rd]
    exact congrArg (some x :: ·) (ih (fun y hy => h y (List.mem_cons_of_mem _ hy)) _)

theorem flipSyms_nil (l : List Nat) : flipSyms l [] = l :=
  List.ext_getElem (List.length_mapIdx) fun _ _ _ => List.getElem_mapIdx

theorem tetSyms_coded {ty seq : Nat} {pay : List Nat} {x : Sym} (h : x ∈ tetSyms ty seq pay) : x.Coded := by
  unfold tetSyms at h
  rcases List.mem_append.1 h with hinner | hlast
  · rcases List.mem_cons.1 hinner with rfl | hdata
    · exact k277_coded
    · obtain ⟨b, -, rfl⟩ := List.mem_map.1 hdata
      exact dsym_coded b
  · rw [List.mem_singleton.1 hlast]
    exact k297_coded

/-- Symbols of bytes carry the bytes. -/
theorem map_b_dsym {l : List Nat} (h : ∀ b ∈ l, b < 256) : (l.map dsym).map Sym.b = l := by
  rw [List.map_map]
  exact (List.map_congr_left fun b hb => Nat.mod_eq_of_lt (h b hb)).trans (List.map_id l)

/-- The receiver takes a framed body whose check code follows it. -/
theorem tetParse_framed {body check : List Nat} (hbytes : ∀ b ∈ body ++ check, b < 256) (hbody : 2 ≤ body.length) (hlen : check.length = 2)
    (hcrc : ofBytes check = crc16 body) :
    tetParse ((k277 :: (body ++ check).map dsym ++ [k297]).map some) = some (body.getD 0 0, ofBytes (body.drop 2)) := by
  have hsyms : ((k277 :: (body ++ check).map dsym ++ [k297]).map some).filterMap (fun x => x) = k277 :: (body ++ check).map dsym ++ [k297] := by
    rw [List.filterMap_map]
    exact List.filterMap_some
  have hmid : ((k277 :: (body ++ check).map dsym ++ [k297]).drop 1).dropLast = (body ++ check).map dsym := List.dropLast_concat
  have hdata : ((body ++ check).map dsym).all (fun x => !x.k) = true := by simp [dsym]
  have htotal : (body ++ check).length - 2 = body.length := by rw [List.length_append, hlen, Nat.add_sub_cancel]
  have hfour : decide (4 ≤ (body ++ check).length) = true := by rw [List.length_append, hlen]; exact decide_eq_true (by omega)
  have hlast : (k277 :: (body ++ check).map dsym ++ [k297]).getLast? = some k297 := List.getLast?_concat
  unfold tetParse
  dsimp only
  rw [hsyms, hlast, hmid, hdata, map_b_dsym hbytes, htotal, hfour, List.take_left, List.drop_left, hcrc]
  simp

/-- The receiver takes a message of bytes as it was sent. -/
theorem tetParse_tetSyms {ty : Nat} (seq : Nat) {pay : List Nat} (hty : ty < 256) (hpay : ∀ b ∈ pay, b < 256) :
    tetParse ((tetSyms ty seq pay).map some) = some (ty, ofBytes pay) := by
  have hbytes : ∀ b ∈ [ty, seq % 256] ++ pay ++ toBytes 2 (crc16 ([ty, seq % 256] ++ pay)), b < 256 := by
    intro b hb
    simp only [List.mem_append, List.mem_cons, List.not_mem_nil, or_false] at hb
    rcases hb with ((rfl | rfl) | hb) | hb
    · exact hty
    · exact Nat.mod_lt _ (by decide)
    · exact hpay b hb
    · exact lt_of_mem_toBytes hb
  have hcrc : ofBytes (toBytes 2 (crc16 ([ty, seq % 256] ++ pay))) = crc16 ([ty, seq % 256] ++ pay) := by
    rw [ofBytes_toBytes]
    exact Nat.mod_eq_of_lt (crc16_lt _)
  exact tetParse_framed hbytes (by simp) (toBytes_length _ _) hcrc

/-- A message without an inverted bit arrives as it was sent. -/
theorem tetPass_nil {ty : Nat} (seq : Nat) {pay : List Nat} (hty : ty < 256) (hpay : ∀ b ∈ pay, b < 256) :
    tetPass ty seq pay [] = some (ty, ofBytes pay) := by
  unfold tetPass
  rw [flipSyms_nil, decodeSyms_encodeSyms (fun _ hx => tetSyms_coded hx), tetParse_tetSyms seq hty hpay]

/-! ### The operations of the Tether (R572, R573, R576) -/

section
variable (s : State)

theorem State.setTet_only (x : Tether) : Only 524288 s (s.setTet x) := setPin_only s _

theorem State.setTet_keeps (x : Tether) : Keeps (fun _ => False) [.pin] s (s.setTet x) := (s.setTet_only x).keeps fun _ _ => rfl

theorem State.setTet_reg (x : Tether) (a : Nat) : (s.setTet x).reg a = s.reg a := rfl

theorem State.setTet_f (x : Tether) (y : Fld) : (s.setTet x).f y = s.f y := rfl

/-- A counter that saturates. -/
theorem State.f_satF {x : Fld} (n : Nat) (hh : x.hi < 32) (hl : x.lo ≤ x.hi) :
    (s.satF x n).f x = min (s.f x + n) (2 ^ (x.hi + 1 - x.lo) - 1) := by
  have hpos : 0 < 2 ^ (x.hi + 1 - x.lo) := Nat.two_pow_pos _
  unfold State.satF
  rw [State.f_put _ _ _ hh hl, Nat.mod_eq_of_lt (by omega)]

/-- OUT starts on an idle channel of a link that is UP. -/
theorem State.tetSend0_of_idle (hup : s.f TET_STAT_STATE = 2) (hidle : s.pin.tet.msg0 = none) :
    s.tetSend0 = s.setTet { s.pin.tet with msg0 := some s.tetOut, due0 := false, seq0 := (s.pin.tet.seq0 + 1) % 256 } := by
  unfold State.tetSend0
  rw [if_pos hup, hidle]

/-- OUT is due again while one is under way. -/
theorem State.tetSend0_of_busy (hup : s.f TET_STAT_STATE = 2) (hbusy : s.pin.tet.msg0 ≠ none) :
    s.tetSend0 = s.setTet { s.pin.tet with due0 := true } := by
  obtain ⟨x, hx⟩ := Option.ne_none_iff_exists'.1 hbusy
  unfold State.tetSend0
  rw [if_pos hup, hx]

/-- A CFG or CLK starts on an idle channel. -/
theorem State.tetSend1_of_idle {m : TetMsg} (hup : s.f TET_STAT_STATE = 2) (hidle : s.pin.tet.msg1 = none) (hdue : s.pin.tet.due1 = [])
    (hm : m.isPulse = false) :
    s.tetSend1 m = s.setTet { s.pin.tet with msg1 := some (s.tetFill m), due1 := [], seq1 := (s.pin.tet.seq1 + 1) % 256 } := by
  unfold State.tetSend1
  rw [if_pos hup, hdue, hm]
  show State.tetNext1 (s.setTet { s.pin.tet with due1 := [m] }) = _
  unfold State.tetNext1
  rw [show (s.setTet { s.pin.tet with due1 := [m] }).pin.tet.msg1 = none from hidle]
  cases m <;> rfl

/-- A CFG or CLK waits on a busy channel. -/
theorem State.tetSend1_of_busy {m x : TetMsg} (hup : s.f TET_STAT_STATE = 2) (hbusy : s.pin.tet.msg1 = some x) (hdue : s.pin.tet.due1 = [])
    (hm : m.isPulse = false) : s.tetSend1 m = s.setTet { s.pin.tet with due1 := [m] } := by
  unfold State.tetSend1
  rw [if_pos hup, hdue, hm]
  show State.tetNext1 (s.setTet { s.pin.tet with due1 := [m] }) = _
  unfold State.tetNext1
  rw [show (s.setTet { s.pin.tet with due1 := [m] }).pin.tet.msg1 = some x from hbusy]

/-- No entry to UP is being told. -/
theorem State.tetTold_of_quiet (hquiet : s.pin.tet.telling = false) : s.tetTold = s := by
  simp [State.tetTold, hquiet]

/-- The last message of the entry to UP has been sent. -/
theorem State.tetTold_of_sent (htelling : s.pin.tet.telling = true) (h0 : s.pin.tet.msg0 = none) (hdue0 : s.pin.tet.due0 = false)
    (h1 : s.pin.tet.msg1 = none) (hdue1 : s.pin.tet.due1 = []) : s.tetTold = (s.setTet { s.pin.tet with telling := false }).raise 404 := by
  simp [State.tetTold, htelling, h0, hdue0, h1, hdue1]

/-- Nothing follows on channel 1. -/
theorem State.tetNext1_of_none (hdue : s.pin.tet.due1 = []) : s.tetNext1 = s := by
  unfold State.tetNext1
  rw [hdue]
  cases s.pin.tet.msg1 <;> rfl

/-- A message that is discarded is counted. -/
theorem State.tetBad_errs : s.tetBad.f TET_STAT_CRC_ERRS = min (s.f TET_STAT_CRC_ERRS + 1) 255 := s.f_satF 1 (by decide) (by decide)

theorem State.tetBad_only : Only 1 s s.tetBad := satF_only _ _ _

theorem State.tetBad_reg {a : Nat} (ha : a ≠ TET_STAT) : s.tetBad.reg a = s.reg a := State.reg_put_ne (x := TET_STAT_CRC_ERRS) s _ ha.symm

/-! #### Messages to the target (R572, R575, R577) -/

/-- OUT that arrives, with no other due and no entry to UP to tell. -/
theorem outMsg_arrives {o e : Nat} (hmsg : s.pin.tet.msg0 = some (o, e)) (hdue : s.pin.tet.due0 = false) (ho : o < 2 ^ 64) (he : e < 2 ^ 64) :
    exec (.outMsg []) s = .next (s.setTet { s.pin.tet with msg0 := none, out := o, oe := e, silent := false }).tetTold := by
  have hpay : ∀ b ∈ toBytes 8 o ++ toBytes 8 e, b < 256 := fun b hb => (List.mem_append.1 hb).elim lt_of_mem_toBytes lt_of_mem_toBytes
  have hnum : ofBytes (toBytes 8 o ++ toBytes 8 e) = o + 2 ^ 64 * e := by
    rw [ofBytes_append, ofBytes_toBytes, ofBytes_toBytes, toBytes_length]
    omega
  show execOutMsg [] s = _
  unfold execOutMsg
  rw [hmsg]
  dsimp only
  rw [tetPass_nil _ (by decide) hpay, hnum, hdue, if_neg Bool.false_ne_true]
  show Host.Outcome.next (s.setTet { s.pin.tet with
    msg0 := none, due0 := false, out := (o + 2 ^ 64 * e) % 2 ^ 64, oe := (o + 2 ^ 64 * e) / 2 ^ 64 % 2 ^ 64, silent := false }).tetTold = _
  rw [show (o + 2 ^ 64 * e) % 2 ^ 64 = o by omega, show (o + 2 ^ 64 * e) / 2 ^ 64 % 2 ^ 64 = e by omega]

/-- OUT that does not arrive whole. -/
theorem outMsg_fails {o e : Nat} {up : List (Nat × Nat)} (hmsg : s.pin.tet.msg0 = some (o, e)) (hdue : s.pin.tet.due0 = false)
    (hbad : tetPass 1 s.pin.tet.seq0 (toBytes 8 o ++ toBytes 8 e) up = none) :
    exec (.outMsg up) s = .next (s.setTet { s.pin.tet with msg0 := none }).tetBad.tetTold := by
  show execOutMsg up s = _
  unfold execOutMsg
  rw [hmsg]
  dsimp only
  rw [hbad, hdue, if_neg Bool.false_ne_true]

/-- A message of channel 1 without an inverted bit arrives as it was sent. -/
theorem TetMsg.passes (m : TetMsg) (seq : Nat) : tetPass m.body.1 seq m.body.2 [] = some (m.body.1, ofBytes m.body.2) := by
  cases m with
  | cfg p => exact tetPass_nil (ty := 2) seq (by decide) fun _ hb => lt_of_mem_toBytes hb
  | clk a b => exact tetPass_nil (ty := 3) seq (by decide) fun _ hb => (List.mem_append.1 hb).elim lt_of_mem_toBytes lt_of_mem_toBytes
  | pulse m => exact tetPass_nil (ty := 4) seq (by decide) fun _ hb => lt_of_mem_toBytes hb

/-- A message of channel 1 that arrives. -/
theorem State.tetEnd1_of_pass {m : TetMsg} (hread : TetMsg.ofBody m.body.1 (ofBytes m.body.2) = some m) (hdue : s.pin.tet.due1 = [])
    (hquiet : s.pin.tet.telling = false) : s.tetEnd1 m [] = s.setTet ({ s.pin.tet with msg1 := none }.take m) := by
  have hdue' : (s.setTet ({ s.pin.tet with msg1 := none }.take m)).pin.tet.due1 = [] := by cases m <;> exact hdue
  have hquiet' : (s.setTet ({ s.pin.tet with msg1 := none }.take m)).pin.tet.telling = false := by cases m <;> exact hquiet
  unfold State.tetEnd1
  dsimp only
  rw [m.passes]
  dsimp only
  rw [hread]
  exact (congrArg State.tetTold (State.tetNext1_of_none _ hdue')).trans (State.tetTold_of_quiet _ hquiet')

theorem cfgMsg_ends {p : Option Nat} (up : List (Nat × Nat)) (hmsg : s.pin.tet.msg1 = some (.cfg p)) :
    exec (.cfgMsg up) s = .next (s.tetEnd1 (.cfg p) up) := by
  show execCfgMsg up s = _
  rw [execCfgMsg, hmsg]

theorem clkMsg_ends {a b : Word} (up : List (Nat × Nat)) (hmsg : s.pin.tet.msg1 = some (.clk a b)) :
    exec (.clkMsg up) s = .next (s.tetEnd1 (.clk a b) up) := by
  show execClkMsg up s = _
  rw [execClkMsg, hmsg]

theorem pulseMsg_ends {m : Nat} (up : List (Nat × Nat)) (hmsg : s.pin.tet.msg1 = some (.pulse m)) :
    exec (.pulseMsg up) s = .next (s.tetEnd1 (.pulse m) up) := by
  show execPulseMsg up s = _
  rw [execPulseMsg, hmsg]

/-- A message of channel 1 that does not arrive whole. -/
theorem State.tetEnd1_of_fail {m : TetMsg} {up : List (Nat × Nat)} (hbad : tetPass m.body.1 s.pin.tet.seq1 m.body.2 up = none)
    (hdue : s.pin.tet.due1 = []) (hquiet : s.pin.tet.telling = false) : s.tetEnd1 m up = (s.setTet { s.pin.tet with msg1 := none }).tetBad := by
  unfold State.tetEnd1
  dsimp only
  rw [hbad]
  exact (congrArg State.tetTold (State.tetNext1_of_none (s.setTet { s.pin.tet with msg1 := none }).tetBad hdue)).trans
    (State.tetTold_of_quiet _ hquiet)

/-- The payload of a CFG tells its pull. -/
theorem TetMsg.ofBody_cfg {q : Nat} (hq : q < 4) :
    TetMsg.ofBody (TetMsg.cfg (some q)).body.1 (ofBytes (TetMsg.cfg (some q)).body.2) = some (.cfg (some q)) := by
  interval_cases q <;> rfl

/-- The payload of a CLK tells its two words. -/
theorem TetMsg.ofBody_clk (a b : Word) : TetMsg.ofBody (TetMsg.clk a b).body.1 (ofBytes (TetMsg.clk a b).body.2) = some (.clk a b) := by
  have ha := a.isLt
  have hb := b.isLt
  have hnum : ofBytes (TetMsg.clk a b).body.2 = a.toNat + 2 ^ 32 * b.toNat := by
    show ofBytes (toBytes 4 a.toNat ++ toBytes 4 b.toNat) = _
    rw [ofBytes_append, ofBytes_toBytes, ofBytes_toBytes, toBytes_length]
    omega
  have hlow : BitVec.ofNat 32 (a.toNat + 2 ^ 32 * b.toNat) = a := BitVec.eq_of_toNat_eq (by rw [BitVec.toNat_ofNat]; omega)
  have hhigh : BitVec.ofNat 32 ((a.toNat + 2 ^ 32 * b.toNat) / 2 ^ 32) = b := BitVec.eq_of_toNat_eq (by rw [BitVec.toNat_ofNat]; omega)
  rw [hnum]
  exact congrArg₂ (fun x y => some (TetMsg.clk x y)) hlow hhigh

/-- The payload of a PULSE tells its mask. -/
theorem TetMsg.ofBody_pulse {m : Nat} (hm : m < 2 ^ 64) :
    TetMsg.ofBody (TetMsg.pulse m).body.1 (ofBytes (TetMsg.pulse m).body.2) = some (.pulse m) := by
  show some (TetMsg.pulse (ofBytes (toBytes 8 m))) = _
  rw [ofBytes_toBytes, Nat.mod_eq_of_lt (by omega)]

/-! #### Messages from the target (R572, R575, R576) -/

/-- IN that arrives on a link that is not OFF. -/
theorem inMsg_arrives (v : Nat) (hon : s.f TET_STAT_STATE ≠ 0) (hv : v < 2 ^ 64) :
    exec (.inMsg v []) s = .next (((s.setTet { s.pin.tet with seq2 := (s.pin.tet.seq2 + 1) % 256 }).setReg TET_IN_LO (BitVec.ofNat 32 v)).setReg
      TET_IN_HI (BitVec.ofNat 32 (v / 2 ^ 32))).tetResume := by
  have hnum : ofBytes (toBytes 8 v) = v := (ofBytes_toBytes 8 v).trans (Nat.mod_eq_of_lt (by omega))
  show execInMsg v [] s = _
  unfold execInMsg
  dsimp only
  rw [tetPass_nil _ (by decide) fun _ hb => lt_of_mem_toBytes hb, hnum]
  exact congrArg Host.Outcome.next (if_neg hon)

/-- IN that does not arrive whole. -/
theorem inMsg_fails {v : Nat} {up : List (Nat × Nat)} (hon : s.f TET_STAT_STATE ≠ 0)
    (hbad : tetPass 17 s.pin.tet.seq2 (toBytes 8 v) up = none) :
    exec (.inMsg v up) s = .next (s.setTet { s.pin.tet with seq2 := (s.pin.tet.seq2 + 1) % 256 }).tetBad := by
  show execInMsg v up s = _
  unfold execInMsg
  dsimp only
  rw [hbad]
  exact congrArg Host.Outcome.next (if_neg hon)

/-- What STATUS shows: VT and the counts of the clock inputs. -/
def State.statusShown (t : Tether) (vt : Nat) : State :=
  ((s.put TET_STAT_VT vt).put (TET_CKIN_KHZ 0) (t.khz0 % 2 ^ 18)).put (TET_CKIN_KHZ 1) (t.khz1 % 2 ^ 18)

/-- What the payload of STATUS says at its places. -/
theorem statusOf_bits (t : Tether) {vt : Nat} (hvt : vt < 4096) : t.statusOf vt < 2 ^ 64 ∧ bitsOf (t.statusOf vt) 11 0 = vt ∧
    bitsOf (t.statusOf vt) 29 12 = t.khz0 % 2 ^ 18 ∧ bitsOf (t.statusOf vt) 47 30 = t.khz1 % 2 ^ 18 := by
  unfold Tether.statusOf bitsOf
  have h0 := Nat.mod_lt t.khz0 (show 2 ^ 18 > 0 by decide)
  have h1 := Nat.mod_lt t.khz1 (show 2 ^ 18 > 0 by decide)
  refine ⟨by omega, by omega, by omega, by omega⟩

/-- STATUS that arrives on a link that is not OFF. -/
theorem statusMsg_arrives {vt : Nat} (hvt : vt < 4096) (hon : s.f TET_STAT_STATE ≠ 0) :
    exec (.statusMsg vt []) s = .next ((s.setTet { s.pin.tet with seq3 := (s.pin.tet.seq3 + 1) % 256 }).tetStatus (s.pin.tet.statusOf vt)) := by
  have hnum : ofBytes (toBytes 8 (s.pin.tet.statusOf vt)) = s.pin.tet.statusOf vt :=
    (ofBytes_toBytes 8 _).trans (Nat.mod_eq_of_lt (statusOf_bits s.pin.tet hvt).1)
  show execStatusMsg vt [] s = _
  unfold execStatusMsg
  dsimp only
  rw [tetPass_nil _ (by decide) fun _ hb => lt_of_mem_toBytes hb, hnum]
  exact congrArg Host.Outcome.next (if_neg hon)

/-- The channels carry nothing. -/
def Tether.Idle (t : Tether) : Prop := t.msg0 = none ∧ t.msg1 = none ∧ t.due1 = []

/-- The entry to UP: OUT and CFG start, CLK waits, and the entry is to be told (R576). -/
def Tether.entered (t : Tether) (out : Nat × Nat) (cfg : Option Nat) : Tether :=
  { t with msg0 := some out, due0 := false, msg1 := some (.cfg cfg), due1 := [.clk 0 0], telling := true, seq0 := (t.seq0 + 1) % 256,
           seq1 := (t.seq1 + 1) % 256 }

/-- The three messages of the entry to UP on channels that carry nothing. -/
theorem State.tetSend_entry (hup : s.f TET_STAT_STATE = 2) (hidle : s.pin.tet.Idle) :
    ((s.tetSend1 (.cfg none)).tetSend1 (.clk 0 0)).tetSend0 = s.setTet { s.pin.tet.entered s.tetOut s.tetCfg with telling := s.pin.tet.telling } := by
  obtain ⟨h0, h1, hdue⟩ := hidle
  have hcfg := s.tetSend1_of_idle (m := .cfg none) hup h1 hdue rfl
  have hclk := (s.tetSend1 (.cfg none)).tetSend1_of_busy (m := .clk 0 0) (x := .cfg s.tetCfg) (by rw [hcfg]; exact hup) (by rw [hcfg]; rfl)
    (by rw [hcfg]; rfl) rfl
  rw [hclk, hcfg]
  exact State.tetSend0_of_idle (s.setTet _) hup h0

/-- The entry to UP of a link whose channels carry nothing. -/
theorem State.tetUp_of_idle (hidle : s.pin.tet.Idle) :
    s.tetUp = (s.put TET_STAT_STATE 2).setTet (s.pin.tet.entered (s.put TET_STAT_STATE 2).tetOut (s.put TET_STAT_STATE 2).tetCfg) := by
  have hup : (s.put TET_STAT_STATE 2).f TET_STAT_STATE = 2 := State.f_put _ _ _ (by decide) (by decide)
  unfold State.tetUp
  rw [State.tetSend_entry (s.put TET_STAT_STATE 2) hup hidle]
  rfl

end

/-- The link's registers after STATUS: only TET_STAT and the counts of the clock inputs have changed. -/
theorem State.statusShown_reg (s : State) (t : Tether) (vt : Nat) {a : Nat} (h : ¬ (a = TET_STAT ∨ a = TET_CKIN 0 ∨ a = TET_CKIN 1)) :
    (s.statusShown t vt).reg a = s.reg a := by
  obtain ⟨hstat, h0, h1⟩ : a ≠ TET_STAT ∧ a ≠ TET_CKIN 0 ∧ a ≠ TET_CKIN 1 := by simpa only [not_or] using h
  unfold State.statusShown
  rw [State.reg_put_ne _ _ h1.symm, State.reg_put_ne _ _ h0.symm, State.reg_put_ne _ _ hstat.symm]

section
variable (s : State) (vt : Nat)

/-- The registers of a link that STATUS brings UP. -/
def State.shownUp : State := (s.statusShown s.pin.tet vt).put TET_STAT_STATE 2

theorem State.shownUp_state : (s.shownUp vt).f TET_STAT_STATE = 2 := State.f_put _ _ _ (by decide) (by decide)

theorem State.shownUp_vt (hvt : vt < 4096) : (s.shownUp vt).f TET_STAT_VT = vt := by
  unfold State.shownUp State.statusShown
  rw [State.f_put_apart _ _ (by decide) (by decide) (by decide), State.f_put_ne _ _ (by decide), State.f_put_ne _ _ (by decide),
    State.f_put _ _ _ (by decide) (by decide)]
  exact Nat.mod_eq_of_lt hvt

theorem State.shownUp_khz0 : (s.shownUp vt).f (TET_CKIN_KHZ 0) = s.pin.tet.khz0 % 2 ^ 18 := by
  unfold State.shownUp State.statusShown
  rw [State.f_put_ne _ _ (by decide), State.f_put_ne _ _ (by decide), State.f_put _ _ _ (by decide) (by decide)]
  exact Nat.mod_mod _ _

theorem State.shownUp_khz1 : (s.shownUp vt).f (TET_CKIN_KHZ 1) = s.pin.tet.khz1 % 2 ^ 18 := by
  unfold State.shownUp State.statusShown
  rw [State.f_put_ne _ _ (by decide), State.f_put _ _ _ (by decide) (by decide)]
  exact Nat.mod_mod _ _

theorem State.shownUp_reg {a : Nat} (h : ¬ (a = TET_STAT ∨ a = TET_CKIN 0 ∨ a = TET_CKIN 1)) : (s.shownUp vt).reg a = s.reg a := by
  unfold State.shownUp
  rw [State.reg_put_ne _ _ fun e => h (.inl e.symm), s.statusShown_reg _ _ h]

theorem State.shownUp_only : Only 1 s (s.shownUp vt) :=
  (put_only _ _ _).after (by decide) ((put_only _ _ _).after (by decide) ((put_only _ _ _).after (by decide) (put_only _ _ _)))

theorem State.shownUp_tetOut : (s.shownUp vt).tetOut = s.tetOut := by
  unfold State.tetOut State.pair
  rw [s.shownUp_reg vt (a := TET_OUT_LO) (by decide), s.shownUp_reg vt (a := TET_OUT_HI) (by decide),
    s.shownUp_reg vt (a := TET_OE_LO) (by decide), s.shownUp_reg vt (a := TET_OE_HI) (by decide)]
  rfl

theorem State.shownUp_tetCfg : (s.shownUp vt).tetCfg = s.tetCfg := by
  unfold State.tetCfg
  rw [State.f_of_reg (s.shownUp_reg vt (by decide))]
  rfl

/-- STATUS with VT not below VT_MIN brings a linking Tether UP. -/
theorem State.tetStatus_linksUp (hvt : vt < 4096) (hmin : s.f TET_CTRL_VT_MIN ≤ vt) (hlinking : s.f TET_STAT_STATE = 1)
    (hidle : s.pin.tet.Idle) :
    s.tetStatus (s.pin.tet.statusOf vt) = (s.shownUp vt).setTet (s.pin.tet.entered s.tetOut s.tetCfg) := by
  obtain ⟨-, hbits, hbits0, hbits1⟩ := statusOf_bits s.pin.tet hvt
  have hup : (s.statusShown s.pin.tet vt).tetUp = (s.shownUp vt).setTet (s.pin.tet.entered s.tetOut s.tetCfg) := by
    have h := (s.statusShown s.pin.tet vt).tetUp_of_idle hidle
    rw [← State.shownUp, s.shownUp_tetOut, s.shownUp_tetCfg] at h
    exact h
  unfold State.tetStatus
  rw [hbits, hbits0, hbits1]
  dsimp only
  rw [if_pos hlinking, ← State.statusShown, hup]
  refine if_neg ?_
  rw [State.setTet_f, State.setTet_f, State.setTet_f, s.shownUp_vt vt hvt, State.f_of_reg (x := TET_CTRL_VT_MIN) (s.shownUp_reg vt (by decide))]
  exact fun h => absurd h.2 (not_lt.2 hmin)

end

/-! #### Loss of the link, and writes to the data window (R573, R576) -/

section
variable (s : State)

/-- Two halves make up a pair of registers. -/
theorem State.pair_eq_of_halves {lo hi : Nat} {v : Nat} (hv : v < 2 ^ 64) (hlo : s.reg lo = BitVec.ofNat 32 v)
    (hhi : s.reg hi = BitVec.ofNat 32 (v / 2 ^ 32)) : s.pair lo hi = v := by
  unfold State.pair
  rw [hlo, hhi, BitVec.toNat_ofNat, BitVec.toNat_ofNat]
  omega

/-- The link is lost with cause 1, and nothing is under way any more. -/
def State.lostLink : State := ((s.put TET_STAT_STATE 3).put TET_STAT_CAUSE 1).tetClear

/-- Loss of a link that is UP, where no policy stops the lattice. -/
theorem tetherLoss_of_up (hup : s.f TET_STAT_STATE = 2) (hpol : s.on TET_CTRL_STOP_POL = false) :
    exec .tetherLoss s = .next (s.lostLink.raise 405) := by
  have hkept : (s.lostLink.raise 405).on TET_CTRL_STOP_POL = false := by
    rw [State.raise_on _ (by decide), ← hpol]
    exact (State.on_put_ne (x := TET_STAT_CAUSE) _ _ (by decide)).trans (State.on_put_ne _ _ (by decide))
  show execTetherLoss s = _
  unfold execTetherLoss State.tetLost
  rw [if_pos hup]
  dsimp only
  rw [← State.lostLink, hkept]
  rfl

theorem State.lostLink_only : Only 524289 s s.lostLink :=
  (State.setTet_only _ _).after (by decide) ((put_only _ _ _).after (by decide) ((put_only _ _ _).mono (by decide)))

theorem State.lostLink_reg {a : Nat} (ha : a ≠ TET_STAT) : s.lostLink.reg a = s.reg a :=
  (State.reg_put_ne (x := TET_STAT_CAUSE) _ _ ha.symm).trans (State.reg_put_ne (x := TET_STAT_STATE) _ _ ha.symm)

theorem State.lostLink_state : s.lostLink.f TET_STAT_STATE = 3 :=
  (State.f_put_apart _ (x := TET_STAT_CAUSE) (y := TET_STAT_STATE) _ (by decide) (by decide) (by decide)).trans
    (State.f_put _ _ _ (by decide) (by decide))

theorem State.lostLink_cause : s.lostLink.f TET_STAT_CAUSE = 1 := State.f_put (s.put TET_STAT_STATE 3) TET_STAT_CAUSE 1 (by decide) (by decide)

/-- A write to the data window of a Tether that runs. -/
theorem tetOutWrite_of_open {r : Nat} (v : Nat) (hheld : s.regHeld (tetOff r) = false) (hopen : s.blockGated 37 = false) :
    exec (.tetOutWrite r v) s = .next (s.tetWrite r v) := by
  show execTetOutWrite r v s = _
  unfold execTetOutWrite State.toBlock
  rw [hheld, hopen]
  rfl

/-- Both halves of TET_OUT are written. -/
def State.outWritten (v : Nat) : State := (s.setReg TET_OUT_LO (BitVec.ofNat 32 v)).setReg TET_OUT_HI (BitVec.ofNat 32 (v / 2 ^ 32))

theorem State.outWritten_reg (v : Nat) {a : Nat} (hlo : a ≠ TET_OUT_LO) (hhi : a ≠ TET_OUT_HI) : (s.outWritten v).reg a = s.reg a := by
  unfold State.outWritten
  rw [State.reg_setReg_ne _ _ hhi.symm, State.reg_setReg_ne _ _ hlo.symm]

theorem State.outWritten_pair {v : Nat} (hv : v < 2 ^ 64) : (s.outWritten v).pair TET_OUT_LO TET_OUT_HI = v := by
  refine State.pair_eq_of_halves _ hv ?_ (State.reg_setReg_self _ _ _)
  unfold State.outWritten
  rw [State.reg_setReg_ne _ _ (by decide), State.reg_setReg_self]

theorem State.outWritten_tetOut {v : Nat} (hv : v < 2 ^ 64) :
    (s.outWritten v).tetOut = (v, if s.fab.outputsOn then s.pair TET_OE_LO TET_OE_HI else 0) := by
  unfold State.tetOut
  rw [s.outWritten_pair hv]
  unfold State.pair
  rw [s.outWritten_reg v (a := TET_OE_LO) (by decide) (by decide), s.outWritten_reg v (a := TET_OE_HI) (by decide) (by decide)]
  rfl

end

/-! #### The frames -/

section
variable (s : State)

/-- The frame of a message that is discarded. -/
theorem State.tetBad_keeps (x : Tether) : Keeps (fun a => a = TET_STAT) [.pin] s (s.setTet x).tetBad :=
  (((State.setTet s x).tetBad_only).after (by decide) ((s.setTet_only x).mono (by decide)) : Only 524289 _ _).keeps
    fun _ ha => State.tetBad_reg _ ha

/-- The frame of a Tether operation that ends with an event of the pins. -/
theorem State.setTet_raise_keeps (x : Tether) : Keeps (fun a => a = HIF_IRQ_STAT 12) [.pin, .host, .tail, .mesh] s ((s.setTet x).raise 404) :=
  ((raise_only _ _).after (by decide) ((s.setTet_only x).mono (by decide)) : Only 656897 _ _).keeps fun _ ha => State.raise_reg _ ha

end

section
variable (s : State) {v : Nat}

/-- The registers after an IN that arrived. -/
def State.inShown (v : Nat) : State := (s.setReg TET_IN_LO (BitVec.ofNat 32 v)).setReg TET_IN_HI (BitVec.ofNat 32 (v / 2 ^ 32))

theorem State.inShown_reg (v : Nat) {a : Nat} (hlo : a ≠ TET_IN_LO) (hhi : a ≠ TET_IN_HI) : (s.inShown v).reg a = s.reg a := by
  unfold State.inShown
  rw [State.reg_setReg_ne _ _ hhi.symm, State.reg_setReg_ne _ _ hlo.symm]

theorem State.inShown_pair (hv : v < 2 ^ 64) : (s.inShown v).pair TET_IN_LO TET_IN_HI = v := by
  refine State.pair_eq_of_halves _ hv ?_ (State.reg_setReg_self _ _ _)
  unfold State.inShown
  rw [State.reg_setReg_ne _ _ (by decide), State.reg_setReg_self]

theorem State.tetResume_reg {a : Nat} (ha : a ≠ TET_STAT) : s.tetResume.reg a = s.reg a := by
  unfold State.tetResume
  split
  · exact State.reg_put_ne _ _ ha.symm
  · rfl

/-- A link that was lost is LINKING again. -/
theorem State.tetResume_state : s.tetResume.f TET_STAT_STATE = if s.f TET_STAT_STATE = 3 then 1 else s.f TET_STAT_STATE := by
  unfold State.tetResume
  split
  · exact State.f_put _ _ _ (by decide) (by decide)
  · rfl

theorem State.tetResume_only : Only 1 s s.tetResume := .ite (put_only _ _ _) .refl

theorem State.tetResume_pair {lo hi : Nat} (hlo : lo ≠ TET_STAT) (hhi : hi ≠ TET_STAT) : s.tetResume.pair lo hi = s.pair lo hi := by
  unfold State.pair
  rw [s.tetResume_reg hlo, s.tetResume_reg hhi]

/-- IN that arrives loads TET_IN and resumes a lost link. -/
theorem inMsg_loads (hv : v < 2 ^ 64) (hon : s.f TET_STAT_STATE ≠ 0) : ∃ t, exec (.inMsg v []) s = .next t ∧
    t.pair TET_IN_LO TET_IN_HI = v ∧ t.f TET_STAT_STATE = (if s.f TET_STAT_STATE = 3 then 1 else s.f TET_STAT_STATE) ∧
    t.pin = { s.pin with tet := { s.pin.tet with seq2 := (s.pin.tet.seq2 + 1) % 256 } } ∧
    Keeps (fun a => a = TET_IN_LO ∨ a = TET_IN_HI ∨ a = TET_STAT) [.pin] s t := by
  refine ⟨_, inMsg_arrives s v hon hv, ?_⟩
  generalize hx : ({ s.pin.tet with seq2 := (s.pin.tet.seq2 + 1) % 256 } : Tether) = x
  rw [← State.inShown]
  have hstate : ((s.setTet x).inShown v).f TET_STAT_STATE = s.f TET_STAT_STATE :=
    State.f_of_reg ((s.setTet x).inShown_reg v (by decide) (by decide))
  refine ⟨?_, ?_, ?_, ((State.tetResume_only _).after (by decide) ((setReg_only _ _ _).after (by decide) ((setReg_only _ _ _).after (by decide)
    ((s.setTet_only x).mono (by decide)))) : Only 524289 _ _).keeps fun a ha => ?_⟩
  · rw [State.tetResume_pair _ (by decide) (by decide), (s.setTet x).inShown_pair hv]
  · rw [State.tetResume_state, hstate]
  · rw [(State.tetResume_only _).pin (by decide)]
    rfl
  · obtain ⟨hlo, hhi, hstat⟩ : a ≠ TET_IN_LO ∧ a ≠ TET_IN_HI ∧ a ≠ TET_STAT := by simpa only [not_or] using ha
    exact (State.tetResume_reg _ hstat).trans ((s.setTet x).inShown_reg v hlo hhi)

/-- STATUS with VT not below VT_MIN brings a linking Tether UP. -/
theorem statusMsg_links {vt : Nat} (hvt : vt < 4096) (hmin : s.f TET_CTRL_VT_MIN ≤ vt) (hlinking : s.f TET_STAT_STATE = 1)
    (hidle : s.pin.tet.Idle) : ∃ t, exec (.statusMsg vt []) s = .next t ∧ t.f TET_STAT_STATE = 2 ∧ t.f TET_STAT_VT = vt ∧
      t.f (TET_CKIN_KHZ 0) = s.pin.tet.khz0 % 2 ^ 18 ∧ t.f (TET_CKIN_KHZ 1) = s.pin.tet.khz1 % 2 ^ 18 ∧
      t.pin = { s.pin with tet := { s.pin.tet.entered s.tetOut s.tetCfg with seq3 := (s.pin.tet.seq3 + 1) % 256 } } ∧
      Keeps (fun a => a = TET_STAT ∨ a = TET_CKIN 0 ∨ a = TET_CKIN 1) [.pin] s t := by
  have hup := (s.setTet { s.pin.tet with seq3 := (s.pin.tet.seq3 + 1) % 256 }).tetStatus_linksUp vt hvt hmin hlinking hidle
  refine ⟨_, (statusMsg_arrives s hvt (by rw [hlinking]; decide)).trans (congrArg _ hup), ?_⟩
  rw [State.setTet_f, State.setTet_f, State.setTet_f, State.setTet_f, State.shownUp_state, State.shownUp_vt _ _ hvt, State.shownUp_khz0,
    State.shownUp_khz1]
  refine ⟨rfl, rfl, rfl, rfl, rfl, ((State.setTet_only _ _).after (by decide)
    (((State.shownUp_only _ vt).after (by decide) ((s.setTet_only _).mono (by decide)))) : Only 524289 _ _).keeps fun a ha => ?_⟩
  rw [State.setTet_reg, State.shownUp_reg _ _ ha, State.setTet_reg]

end

/-- Settles O60: a message whose bits are not inverted arrives by the round trip of its code and its CRC; the rest follows from the operations
of the Tether. -/
theorem tether : Obligations.Tether := by
  unfold Obligations.Tether
  intro s _
  refine ⟨fun v hv hheld hopen hup hidle => ?_, fun v hheld hopen hup hbusy => ?_, fun hup h0 h1 hdue => ?_, fun o e hmsg hdue ho he hquiet => ?_,
    fun o e up hmsg hdue hbad hquiet => ?_, fun o e hmsg hdue ho he htelling h1 hdue1 => ?_, fun p hmsg hdue q hq hlt hquiet => ?_,
    fun a b hmsg hdue hquiet => ?_, fun m hmsg hdue hm hquiet => ?_, fun up p hmsg hdue hbad hquiet => ?_,
    fun up a b hmsg hdue hbad hquiet => ?_, fun up m hmsg hdue hbad hquiet => ?_, fun v hv hon => ?_, fun v up hon hbad => ?_,
    fun vt hvt hmin hlinking h0 h1 hdue => ?_, fun hup hpol => ?_, ⟨_, rfl, rfl, s.setTet_keeps _⟩, fun k0 k1 => ⟨_, rfl, rfl, s.setTet_keeps _⟩⟩
  · have hwrite : s.tetWrite 4 v = (s.outWritten v).setTet { s.pin.tet with
        msg0 := some (s.outWritten v).tetOut, due0 := false, seq0 := (s.pin.tet.seq0 + 1) % 256 } :=
      (s.outWritten v).tetSend0_of_idle ((State.f_of_reg (s.outWritten_reg v (by decide) (by decide))).trans hup) hidle
    refine ⟨_, tetOutWrite_of_open s v hheld hopen, ?_⟩
    rw [hwrite, s.outWritten_tetOut hv]
    refine ⟨s.outWritten_pair hv, rfl, (((s.outWritten v).setTet_only _).after (by decide) ((setReg_only _ _ _).after (by decide)
      ((setReg_only _ _ _).mono (by decide))) : Only 524289 _ _).keeps fun a ha => ?_⟩
    obtain ⟨hlo, hhi, -⟩ : a ≠ TET_OUT_LO ∧ a ≠ TET_OUT_HI ∧ _ := by simpa only [not_or] using ha
    exact s.outWritten_reg v hlo hhi
  · have hwrite : s.tetWrite 3 v = (s.setReg TET_OE_HI (BitVec.ofNat 32 v)).setTet { s.pin.tet with due0 := true } :=
      (s.setReg TET_OE_HI (BitVec.ofNat 32 v)).tetSend0_of_busy ((State.f_setReg_ne _ _ (by decide)).trans hup) hbusy
    refine ⟨_, tetOutWrite_of_open s v hheld hopen, ?_⟩
    rw [hwrite]
    exact ⟨State.reg_setReg_self _ _ _, rfl, ((State.setTet_only _ _).after (by decide) ((setReg_only _ _ _).mono (by decide)) :
      Only 524289 _ _).keeps fun a ha => State.reg_setReg_ne _ _ (Ne.symm ha)⟩
  · have hout := s.tetSend0_of_idle hup h0
    have hcfg := s.tetSend0.tetSend1_of_idle (m := .cfg none) (by rw [hout]; exact hup) (by rw [hout]; exact h1) (by rw [hout]; exact hdue) rfl
    rw [hout] at hcfg
    refine ⟨_, congrArg Host.Outcome.next ((congrArg (State.tetSend1 · (.cfg none)) hout).trans hcfg), ?_, s.setTet_keeps _⟩
    rw [← hdue]
    rfl
  · refine ⟨_, (outMsg_arrives s hmsg hdue ho he).trans (congrArg _ (State.tetTold_of_quiet _ hquiet)), rfl, s.setTet_keeps _⟩
  · exact ⟨_, (outMsg_fails s hmsg hdue hbad).trans (congrArg _ (State.tetTold_of_quiet _ hquiet)), rfl, State.tetBad_errs _, s.tetBad_keeps _⟩
  · refine ⟨_, (outMsg_arrives s hmsg hdue ho he).trans (congrArg _ (State.tetTold_of_sent _ htelling rfl hdue h1 hdue1)), ?_,
      State.raise_irq _ _, s.setTet_raise_keeps _⟩
    rw [(raise_only _ _).pin (by decide)]
    rfl
  · obtain rfl : p = some q := hq
    exact ⟨_, (cfgMsg_ends s [] hmsg).trans (congrArg _ (s.tetEnd1_of_pass (TetMsg.ofBody_cfg hlt) hdue hquiet)), rfl, s.setTet_keeps _⟩
  · exact ⟨_, (clkMsg_ends s [] hmsg).trans (congrArg _ (s.tetEnd1_of_pass (TetMsg.ofBody_clk a b) hdue hquiet)), rfl, s.setTet_keeps _⟩
  · exact ⟨_, (pulseMsg_ends s [] hmsg).trans (congrArg _ (s.tetEnd1_of_pass (TetMsg.ofBody_pulse hm) hdue hquiet)), rfl, s.setTet_keeps _⟩
  · exact ⟨_, (cfgMsg_ends s up hmsg).trans (congrArg _ (s.tetEnd1_of_fail hbad hdue hquiet)), rfl, State.tetBad_errs _, s.tetBad_keeps _⟩
  · exact ⟨_, (clkMsg_ends s up hmsg).trans (congrArg _ (s.tetEnd1_of_fail hbad hdue hquiet)), rfl, State.tetBad_errs _, s.tetBad_keeps _⟩
  · exact ⟨_, (pulseMsg_ends s up hmsg).trans (congrArg _ (s.tetEnd1_of_fail hbad hdue hquiet)), rfl, State.tetBad_errs _, s.tetBad_keeps _⟩
  · exact inMsg_loads s hv hon
  · exact ⟨_, inMsg_fails s hon hbad, State.tetBad_errs _, State.f_put_apart _ _ (by decide) (by decide) (by decide), rfl, s.tetBad_keeps _⟩
  · exact statusMsg_links s hvt hmin hlinking ⟨h0, h1, hdue⟩
  · refine ⟨_, tetherLoss_of_up s hup hpol, ?_, ?_, ?_, State.raise_irq _ _, ?_⟩
    · rw [State.raise_f _ (by decide), s.lostLink_state]
    · rw [State.raise_f _ (by decide), s.lostLink_cause]
    · rw [(raise_only _ _).pin (by decide)]
      rfl
    · refine ((raise_only _ _).after (by decide) (s.lostLink_only.mono (by decide)) : Only 656897 _ _).keeps fun a ha => ?_
      obtain ⟨hstat, hirq⟩ := not_or.1 ha
      rw [State.raise_reg _ hirq, s.lostLink_reg hstat]

end Sys2Proof.Machine
end

section
/-! SUPPORT. The pins (R556 to R565, R590): what GPIO_IN and the TRIG inputs show after a change at the pins, and what the commands of the pins
leave. -/

namespace Sys2Proof.Machine

/-- Frames compose. -/
theorem Keeps.trans {R : Nat → Prop} {ps : List Part} {s t u : State} (h : Keeps R ps s t) (g : Keeps R ps t u) : Keeps R ps s u := by
  obtain ⟨hq, hr, hp⟩ := h
  obtain ⟨gq, gr, gp⟩ := g
  refine ⟨gq.trans hq, fun a ha => (gr a ha).trans (hr a ha), fun p hps => ?_⟩
  have h1 := hp p hps
  have h2 := gp p hps
  cases p <;> exact Eq.trans h2 h1

/-! ### GPIO_IN follows the balls (R557) -/

section
variable (s : State)

/-- Bits of device events stay set. -/
theorem State.raise_bit {i a k : Nat} (h : (s.reg a).toNat.testBit k = true) : ((s.raise i).reg a).toNat.testBit k = true := by
  have hregs : (s.raise i).regs = (s.setReg (HIF_IRQ_STAT (i / 32)) (s.reg (HIF_IRQ_STAT (i / 32)) ||| (1#32 <<< (i % 32)))).regs := by
    unfold State.raise State.sendIrq
    dsimp only
    split <;> rfl
  rw [State.reg_congr hregs, State.reg_setReg]
  split
  next heq => rw [heq, BitVec.toNat_or, Nat.testBit_or, h, Bool.true_or]
  next => exact h

/-- One pin shows its level in GPIO_IN. -/
def State.pinShow (i : Nat) (bit : Bool) : State :=
  if (s.reg (PIN_GPIO_IN (i / 32))).toNat.testBit (i % 32) = bit then s
  else s.setReg (PIN_GPIO_IN (i / 32)) (BitVec.ofNat 32 ((s.reg (PIN_GPIO_IN (i / 32))).toNat ^^^ 2 ^ (i % 32)))

theorem State.pinSample_eq (l : List Nat) : s.pinSample l = (s.each l fun i t => t.pinShow i (s.pinIn i)).freeNext := rfl

theorem State.pinShow_reg {i a : Nat} (bit : Bool) (ha : a ≠ PIN_GPIO_IN (i / 32)) : (s.pinShow i bit).reg a = s.reg a := by
  unfold State.pinShow
  split
  · rfl
  · exact State.reg_setReg_ne _ _ ha.symm

/-- The bit of the pin is its level, and the others stay. -/
theorem State.pinShow_bit (i : Nat) (bit : Bool) {b k : Nat} (hk : k < 32) :
    ((s.pinShow i bit).reg (PIN_GPIO_IN b)).toNat.testBit k = if i = 32 * b + k then bit else (s.reg (PIN_GPIO_IN b)).toNat.testBit k := by
  by_cases hb : b = i / 32
  · subst hb
    have hi : (i = 32 * (i / 32) + k) ↔ i % 32 = k := by omega
    have hlt : i % 32 < 32 := Nat.mod_lt _ (by decide)
    simp only [hi]
    unfold State.pinShow
    split
    next heq =>
      split
      next h => rw [← h, heq]
      next => rfl
    next hne =>
      rw [State.reg_setReg_self, BitVec.toNat_ofNat, Nat.testBit_mod_two_pow, decide_eq_true hk, Bool.true_and, Nat.testBit_xor,
        Nat.testBit_two_pow]
      split
      next h =>
        subst h
        rw [decide_eq_true rfl, Bool.xor_true]
        generalize (s.reg (PIN_GPIO_IN (i / 32))).toNat.testBit (i % 32) = old at hne ⊢
        revert hne
        cases old <;> cases bit <;> decide
      next h => rw [decide_eq_false h, Bool.xor_false]
  · have hother : PIN_GPIO_IN b ≠ PIN_GPIO_IN (i / 32) := by unfold PIN_GPIO_IN; omega
    rw [s.pinShow_reg bit hother, if_neg (by omega)]

theorem State.each_pinShow_bit (f : Nat → Bool) (l : List Nat) {b k : Nat} (hk : k < 32) :
    ((s.each l fun i t => t.pinShow i (f i)).reg (PIN_GPIO_IN b)).toNat.testBit k =
      if 32 * b + k ∈ l then f (32 * b + k) else (s.reg (PIN_GPIO_IN b)).toNat.testBit k := by
  induction l generalizing s with
  | nil => rfl
  | cons i l ih =>
    show (((s.pinShow i (f i)).each l _).reg _).toNat.testBit k = _
    rw [ih, s.pinShow_bit i (f i) hk]
    by_cases hi : i = 32 * b + k
    · subst hi
      simp
    · simp [hi, Ne.symm hi]

/-- The pins that are sampled show their levels. -/
theorem State.pinSample_bit (l : List Nat) {b k : Nat} (hk : k < 32) :
    ((s.pinSample l).reg (PIN_GPIO_IN b)).toNat.testBit k =
      if 32 * b + k ∈ l then s.pinIn (32 * b + k) else (s.reg (PIN_GPIO_IN b)).toNat.testBit k :=
  s.each_pinShow_bit s.pinIn l hk

theorem State.pinSample_reg {l : List Nat} {a : Nat} (ha : ∀ i ∈ l, a ≠ PIN_GPIO_IN (i / 32)) : (s.pinSample l).reg a = s.reg a :=
  State.each_keeps (State.reg · a) l (fun i hi t => t.pinShow_reg _ (ha i hi)) s

/-! ### The TRIG inputs (R565) -/

/-- TRIG line `k` takes its input. -/
def State.trigLine (k : Nat) : State :=
  let v := s.periphIn 5 (156 + k) false
  if mget s.pin.trigIn false k = v then s
  else
    let u := s.setPin { s.pin with trigIn := mset s.pin.trigIn false k v }
    u.when (u.pinOwner (156 + k) == 5 && !u.on (TRIG_CFG_OUT k) && u.trigEdge k v) (fun w => w.raise (389 + k))

theorem State.trigInputs_eq : s.trigInputs = s.each (List.range 4) fun k t => t.trigLine k := rfl

theorem State.trigLine_reg {k a : Nat} (hk : k < 4) (ha : a ≠ HIF_IRQ_STAT 12) : (s.trigLine k).reg a = s.reg a := by
  unfold State.trigLine State.when
  dsimp only
  split
  · rfl
  split
  · exact State.raise_reg _ (by rwa [show (389 + k) / 32 = 12 by omega])
  · rfl

theorem State.trigLine_irq (k : Nat) {j a : Nat} (h : (s.reg a).toNat.testBit j = true) : ((s.trigLine k).reg a).toNat.testBit j = true := by
  unfold State.trigLine State.when
  dsimp only
  split
  · exact h
  split
  · exact State.raise_bit _ h
  · exact h

/-- Of the pins a line changes the input that it keeps alone. -/
theorem State.trigLine_pin (k : Nat) :
    (s.trigLine k).pin = { s.pin with trigIn := mset s.pin.trigIn false k (s.periphIn 5 (156 + k) false) } ∨
      (s.trigLine k).pin = s.pin ∧ mget s.pin.trigIn false k = s.periphIn 5 (156 + k) false := by
  unfold State.trigLine State.when
  dsimp only
  split
  next h => exact .inr ⟨rfl, h⟩
  next =>
    refine .inl ?_
    split
    · exact (raise_only _ _).pin (by decide)
    · rfl

theorem State.trigLine_only (k : Nat) : Only 656897 s (s.trigLine k) :=
  .ite .refl (.when _ _ (fun _ => (raise_only _ _).mono (by decide)) ((setPin_only _ _).mono (by decide)))

theorem State.trigLine_self (k : Nat) : mget (s.trigLine k).pin.trigIn false k = s.periphIn 5 (156 + k) false := by
  obtain h | ⟨h, heq⟩ := s.trigLine_pin k
  · rw [h, mget_mset_self]
  · rw [h, heq]

theorem State.trigLine_other {j k : Nat} (hjk : j ≠ k) : mget (s.trigLine j).pin.trigIn false k = mget s.pin.trigIn false k := by
  obtain h | ⟨h, -⟩ := s.trigLine_pin j
  · rw [h]
    exact (mget_mset _ _ _ _ _).trans (if_neg hjk)
  · rw [h]

/-- A selected edge raises the event of the line. -/
theorem State.trigLine_event {k : Nat} (hk : k < 4) (howner : s.pinOwner (156 + k) = 5) (hin : s.on (TRIG_CFG_OUT k) = false)
    (hchange : mget s.pin.trigIn false k ≠ s.periphIn 5 (156 + k) false) (hedge : s.trigEdge k (s.periphIn 5 (156 + k) false) = true) :
    ((s.trigLine k).reg (HIF_IRQ_STAT 12)).toNat.testBit (5 + k) = true := by
  have h389 : (389 + k) / 32 = 12 ∧ (389 + k) % 32 = 5 + k := by omega
  have hirq := (s.setPin { s.pin with trigIn := mset s.pin.trigIn false k (s.periphIn 5 (156 + k) false) }).raise_irq (389 + k)
  rw [h389.1, h389.2] at hirq
  unfold State.trigLine State.when
  dsimp only
  rw [if_neg hchange, if_pos]
  · exact hirq
  · show (s.pinOwner (156 + k) == 5 && !s.on (TRIG_CFG_OUT k) && s.trigEdge k _) = true
    rw [howner, hin, hedge]
    rfl

theorem State.trigInputs_reg {a : Nat} (ha : a ≠ HIF_IRQ_STAT 12) : s.trigInputs.reg a = s.reg a :=
  State.each_keeps (State.reg · a) (List.range 4) (fun _ hk t => t.trigLine_reg (List.mem_range.1 hk) ha) s

theorem State.trigInputs_irq {j a : Nat} (h : (s.reg a).toNat.testBit j = true) : (s.trigInputs.reg a).toNat.testBit j = true := by
  rw [State.trigInputs_eq]
  generalize List.range 4 = l
  induction l generalizing s with
  | nil => exact h
  | cons k l ih => exact ih _ (s.trigLine_irq k h)

/-- What the pins keep beside the TRIG inputs. -/
theorem State.trigInputs_pin {β : Type} (p : Pins → β) (hp : ∀ x l, p { x with trigIn := l } = p x) : p s.trigInputs.pin = p s.pin := by
  refine State.each_keeps (fun t => p t.pin) (List.range 4) (fun k _ t => ?_) s
  show p (t.trigLine k).pin = p t.pin
  obtain h | ⟨h, -⟩ := t.trigLine_pin k
  · rw [h]
    exact hp _ _
  · rw [h]

/-! ### What follows a change at the pins -/

theorem State.pinFollow_reg {l : List Nat} {a : Nat} (hirq : a ≠ HIF_IRQ_STAT 12) (hin : ∀ i ∈ l, a ≠ PIN_GPIO_IN (i / 32)) :
    (s.pinFollow l).reg a = s.reg a := ((s.pinSample l).trigInputs_reg hirq).trans (s.pinSample_reg hin)

theorem State.pinFollow_f {l : List Nat} {x : Fld} (hirq : x.addr ≠ HIF_IRQ_STAT 12) (hin : ∀ i ∈ l, x.addr ≠ PIN_GPIO_IN (i / 32)) :
    (s.pinFollow l).f x = s.f x := State.f_of_reg (s.pinFollow_reg hirq hin)

theorem State.pinFollow_bit (l : List Nat) {b k : Nat} (hk : k < 32) (hb : b < 5) :
    ((s.pinFollow l).reg (PIN_GPIO_IN b)).toNat.testBit k =
      if 32 * b + k ∈ l then s.pinIn (32 * b + k) else (s.reg (PIN_GPIO_IN b)).toNat.testBit k := by
  have hirq : PIN_GPIO_IN b ≠ HIF_IRQ_STAT 12 := by unfold PIN_GPIO_IN HIF_IRQ_STAT; omega
  unfold State.pinFollow
  rw [State.trigInputs_reg _ hirq, s.pinSample_bit l hk]

theorem State.pinFollow_irq {l : List Nat} (hl : ∀ i ∈ l, i < 160) {j : Nat} (h : (s.reg (HIF_IRQ_STAT 12)).toNat.testBit j = true) :
    ((s.pinFollow l).reg (HIF_IRQ_STAT 12)).toNat.testBit j = true := by
  refine State.trigInputs_irq _ ?_
  rw [s.pinSample_reg fun i hi => ?_]
  · exact h
  · have := hl i hi
    unfold PIN_GPIO_IN HIF_IRQ_STAT
    omega

theorem State.pinFollow_pin {β : Type} (p : Pins → β) (hp : ∀ x l, p { x with trigIn := l } = p x) (l : List Nat) :
    p (s.pinFollow l).pin = p s.pin :=
  ((s.pinSample l).trigInputs_pin p hp).trans (congrArg p ((pinSample_only s l).pin (by decide)))

/-- The pins of bank `b`. -/
def bankPins (b : Nat) : List Nat := (List.range 32).map fun k => 32 * b + k

theorem bank_of_mem_bankPins {b i : Nat} (h : i ∈ bankPins b) : i / 32 = b := by
  obtain ⟨k, hk, rfl⟩ := List.mem_map.1 h
  have := List.mem_range.1 hk
  omega

theorem mem_bankPins {b k : Nat} (hk : k < 32) : 32 * b + k ∈ bankPins b := List.mem_map.2 ⟨k, List.mem_range.2 hk, rfl⟩

/-- The frame of a change at pins of one bank. -/
theorem State.pinFollow_keeps {u : State} {l : List Nat} {b : Nat} {R : Nat → Prop} (hu : Only 656897 s u) (hl : ∀ i ∈ l, i / 32 = b)
    (hR : ∀ a, ¬ R a → u.reg a = s.reg a ∧ a ≠ PIN_GPIO_IN b ∧ a ≠ HIF_IRQ_STAT 12) : Keeps R [.pin, .host, .tail, .mesh] s (u.pinFollow l) := by
  refine ((pinFollow_only u l).after (by decide) hu : Only 656897 _ _).keeps fun a ha => ?_
  obtain ⟨hreg, hin, hirq⟩ := hR a ha
  exact (u.pinFollow_reg hirq fun i hi => hl i hi ▸ hin).trans hreg

/-! ### GPIO_SET, GPIO_CLR (R563) -/

/-- A pin owned by GPIO, with its output enabled and its input on, that nothing else drives, shows its bit of GPIO_OUT. -/
theorem State.pinIn_of_output {b k : Nat} (hk : k < 32) (hbs : s.pin.bs = none) (hbank : s.bankAbsent b = false)
    (howner : s.pinOwner (32 * b + k) = 0) (hoe : (s.reg (PIN_GPIO_OE b)).toNat.testBit k = true) (hod : s.on (PIN_CFG_OD (32 * b + k)) = false)
    (hie : s.on (PIN_CFG_IE (32 * b + k)) = true) (hext : mget s.pin.ext (some false) (32 * b + k) = none) :
    s.pinIn (32 * b + k) = (s.reg (PIN_GPIO_OUT b)).toNat.testBit k := by
  have hdiv : (32 * b + k) / 32 = b ∧ (32 * b + k) % 32 = k := by omega
  have hdrive : s.pinDrive (32 * b + k) = some ((s.reg (PIN_GPIO_OUT b)).toNat.testBit k) := by
    unfold State.pinDrive
    simp [hdiv, hbank, hbs, howner, hoe, hod]
  unfold State.pinIn State.ballLevel
  simp [hdiv, hbank, hie, hdrive, hext]

/-- GPIO_OUT of bank `b` takes the value `w`. -/
def State.outSet (b : Nat) (w : Word) : State := (s.setReg (PIN_GPIO_OUT b) w).pinFollow (bankPins b)

theorem State.outSet_keeps {b : Nat} (w : Word) :
    Keeps (fun a => a = PIN_GPIO_OUT b ∨ a = PIN_GPIO_IN b ∨ a = HIF_IRQ_STAT 12) [.pin, .host, .tail, .mesh] s (s.outSet b w) :=
  s.pinFollow_keeps ((setReg_only _ _ _).mono (by decide)) (fun _ => bank_of_mem_bankPins) fun a ha => by
    obtain ⟨hout, hin, hirq⟩ : a ≠ PIN_GPIO_OUT b ∧ a ≠ PIN_GPIO_IN b ∧ a ≠ HIF_IRQ_STAT 12 := by simpa only [not_or] using ha
    exact ⟨State.reg_setReg_ne _ _ hout.symm, hin, hirq⟩

/-- The registers of a bank are apart. -/
theorem gpioOut_apart {b : Nat} (hb : b < 5) (j c : Nat) (hj : j < 5) : PIN_GPIO_OUT b ≠ HIF_IRQ_STAT 12 ∧ PIN_GPIO_OUT b ≠ PIN_GPIO_IN c ∧
    PIN_GPIO_OUT b ≠ PIN_GPIO_OE j ∧ PIN_GPIO_OUT b ≠ PIN_BANK_STAT ∧ ∀ i, PIN_GPIO_OUT b ≠ PIN_CFG i := by
  unfold PIN_GPIO_OUT PIN_GPIO_IN PIN_GPIO_OE PIN_BANK_STAT PIN_CFG HIF_IRQ_STAT
  refine ⟨?_, ?_, ?_, ?_, fun i => ?_⟩ <;> omega

theorem State.outSet_out {b : Nat} (hb : b < 5) (w : Word) : (s.outSet b w).reg (PIN_GPIO_OUT b) = w := by
  obtain ⟨hirq, -⟩ := gpioOut_apart hb 0 0 (by decide)
  exact (State.pinFollow_reg _ hirq fun i _ => (gpioOut_apart hb 0 (i / 32) (by decide)).2.1).trans (State.reg_setReg_self _ _ _)

/-- The enabled outputs of the bank show in GPIO_IN. -/
theorem State.outSet_in {b k : Nat} (hb : b < 5) (w : Word) (hk : k < 32) (hbs : s.pin.bs = none) (hbank : s.bankAbsent b = false)
    (howner : s.pinOwner (32 * b + k) = 0) (hoe : (s.reg (PIN_GPIO_OE b)).toNat.testBit k = true) (hod : s.on (PIN_CFG_OD (32 * b + k)) = false)
    (hie : s.on (PIN_CFG_IE (32 * b + k)) = true) (hext : mget s.pin.ext (some false) (32 * b + k) = none) :
    ((s.outSet b w).reg (PIN_GPIO_IN b)).toNat.testBit k = ((s.outSet b w).reg (PIN_GPIO_OUT b)).toNat.testBit k := by
  obtain ⟨-, -, hoeNe, hstatNe, hcfgNe⟩ := gpioOut_apart hb b 0 hb
  have hset := (s.setReg (PIN_GPIO_OUT b) w).pinIn_of_output (b := b) hk hbs
    (by rw [← hbank]; exact congrArg (·.testBit b) (State.f_setReg_ne (y := PIN_BANK_STAT_ABSENT) s w hstatNe))
    (by rw [← howner]; exact State.f_setReg_ne s w (hcfgNe _)) (by rw [State.reg_setReg_ne _ _ hoeNe]; exact hoe)
    (by rw [← hod]; exact congrArg (· == 1) (State.f_setReg_ne s w (hcfgNe _)))
    (by rw [← hie]; exact congrArg (· == 1) (State.f_setReg_ne s w (hcfgNe _))) hext
  rw [s.outSet_out hb, State.outSet, State.pinFollow_bit _ _ hk hb, if_pos (mem_bankPins hk), hset, State.reg_setReg_self]

/-! ### The supply of a bank (R556, R590) -/

/-- `n` without bit `b`. -/
def dropBit (n b : Nat) : Nat := if n.testBit b then n - 2 ^ b else n

/-- Setting or clearing a bit of a field of five. -/
theorem bankBits {n b : Nat} (hn : n < 32) (hb : b < 5) : dropBit n b < 32 ∧ n ||| 2 ^ b < 32 ∧
    ∀ c < 5, (dropBit n b).testBit c = (decide (c ≠ b) && n.testBit c) ∧ (n ||| 2 ^ b).testBit c = (decide (c = b) || n.testBit c) := by
  have hall : ∀ n < 32, ∀ b < 5, dropBit n b < 32 ∧ n ||| 2 ^ b < 32 ∧
      ∀ c < 5, (dropBit n b).testBit c = (decide (c ≠ b) && n.testBit c) ∧ (n ||| 2 ^ b).testBit c = (decide (c = b) || n.testBit c) := by
    decide +kernel
  exact hall n hn b hb

theorem State.f_lt_32 {x : Fld} (hw : x.hi + 1 - x.lo = 5) : s.f x < 32 := by
  have hlt : s.f x < 2 ^ (x.hi + 1 - x.lo) := BitVec.isLt _
  rwa [hw] at hlt

/-- What a bank's supply in range `r` shows, before the pins follow. -/
def State.supplied (b r : Nat) : State :=
  if 2 ≤ r then (s.put PIN_BANK_STAT_ABSENT (s.f PIN_BANK_STAT_ABSENT ||| 2 ^ b)).when (!(s.f PIN_BANK_STAT_ABSENT).testBit b) (fun t => t.raise 393)
  else (s.put PIN_BANK_STAT_ABSENT (dropBit (s.f PIN_BANK_STAT_ABSENT) b)).put PIN_BANK_STAT_V33
    (if r = 1 then s.f PIN_BANK_STAT_V33 ||| 2 ^ b else dropBit (s.f PIN_BANK_STAT_V33) b)

theorem bankSupplyChange_eq {b : Nat} (r : Nat) (hb : b < 5) :
    exec (.bankSupplyChange b r) s = .next ((s.supplied b r).pinFollow (bankPins b)) := by
  show execBankSupplyChange b r s = _
  unfold execBankSupplyChange
  rw [if_pos hb]
  match r with
  | 0 => rfl
  | 1 => rfl
  | _ + 2 => rw [State.supplied, if_pos (by omega)]; rfl

theorem State.supplied_reg {b r a : Nat} (hstat : a ≠ PIN_BANK_STAT) (hirq : a ≠ HIF_IRQ_STAT 12) : (s.supplied b r).reg a = s.reg a := by
  unfold State.supplied State.when
  split
  · split
    · rw [State.raise_reg _ hirq, State.reg_put_ne _ _ hstat.symm]
    · rw [State.reg_put_ne _ _ hstat.symm]
  · rw [State.reg_put_ne _ _ hstat.symm, State.reg_put_ne _ _ hstat.symm]

theorem State.supplied_only (b r : Nat) : Only 656897 s (s.supplied b r) :=
  .ite (.when _ _ (fun _ => (raise_only _ _).mono (by decide)) ((put_only _ _ _).mono (by decide)))
    ((put_only _ _ _).after (by decide) ((put_only _ _ _).mono (by decide)))

theorem State.supplied_absent {b : Nat} (r : Nat) (hb : b < 5) : (s.supplied b r).f PIN_BANK_STAT_ABSENT =
    if 2 ≤ r then s.f PIN_BANK_STAT_ABSENT ||| 2 ^ b else dropBit (s.f PIN_BANK_STAT_ABSENT) b := by
  obtain ⟨hdrop, hor, -⟩ := bankBits (s.f_lt_32 (x := PIN_BANK_STAT_ABSENT) rfl) hb
  unfold State.supplied State.when
  split
  · split
    · rw [State.raise_f _ (by decide), State.f_put _ _ _ (by decide) (by decide)]
      exact Nat.mod_eq_of_lt hor
    · rw [State.f_put _ _ _ (by decide) (by decide)]
      exact Nat.mod_eq_of_lt hor
  · rw [State.f_put_apart _ _ (by decide) (by decide) (by decide), State.f_put _ _ _ (by decide) (by decide)]
    exact Nat.mod_eq_of_lt hdrop

theorem State.supplied_v33 {b : Nat} (r : Nat) (hb : b < 5) : (s.supplied b r).f PIN_BANK_STAT_V33 =
    if 2 ≤ r then s.f PIN_BANK_STAT_V33 else if r = 1 then s.f PIN_BANK_STAT_V33 ||| 2 ^ b else dropBit (s.f PIN_BANK_STAT_V33) b := by
  obtain ⟨hdrop, hor, -⟩ := bankBits (s.f_lt_32 (x := PIN_BANK_STAT_V33) rfl) hb
  have hlt : (if r = 1 then s.f PIN_BANK_STAT_V33 ||| 2 ^ b else dropBit (s.f PIN_BANK_STAT_V33) b) < 32 := by split <;> assumption
  unfold State.supplied State.when
  split
  · split
    · rw [State.raise_f _ (by decide), State.f_put_apart _ _ (by decide) (by decide) (by decide)]
    · rw [State.f_put_apart _ _ (by decide) (by decide) (by decide)]
  · rw [State.f_put _ _ _ (by decide) (by decide)]
    exact Nat.mod_eq_of_lt hlt

/-- A bank that loses its supply raises its event, 393. -/
theorem State.supplied_irq {b r : Nat} (hr : 2 ≤ r) (hb : s.bankAbsent b = false) :
    ((s.supplied b r).reg (HIF_IRQ_STAT 12)).toNat.testBit 9 = true := by
  unfold State.supplied
  rw [if_pos hr, State.when, if_pos (by rw [show (s.f PIN_BANK_STAT_ABSENT).testBit b = false from hb]; rfl)]
  exact State.raise_irq _ 393

theorem bankSupplyChange_shows {b : Nat} (r : Nat) (hb : b < 5) : ∃ t, exec (.bankSupplyChange b r) s = .next t ∧
    t.bankAbsent b = decide (2 ≤ r) ∧ (∀ c : Nat, c < 5 → c ≠ b → t.bankAbsent c = s.bankAbsent c) ∧
    (r < 2 → (t.f PIN_BANK_STAT_V33).testBit b = decide (r = 1)) ∧ (2 ≤ r → t.f PIN_BANK_STAT_V33 = s.f PIN_BANK_STAT_V33) ∧
    (2 ≤ r → s.bankAbsent b = false → (t.reg (HIF_IRQ_STAT 12)).toNat.testBit 9 = true) ∧
    Keeps (fun a => a = PIN_BANK_STAT ∨ a = PIN_GPIO_IN b ∨ a = HIF_IRQ_STAT 12) [.pin, .host, .tail, .mesh] s t := by
  have hfollow : ∀ x : Fld, x.addr = PIN_BANK_STAT → ((s.supplied b r).pinFollow (bankPins b)).f x = (s.supplied b r).f x := fun x hx =>
    State.pinFollow_f _ (by rw [hx]; decide) fun i _ => by rw [hx]; unfold PIN_BANK_STAT PIN_GPIO_IN; omega
  have habsent : ∀ c < 5, ((s.supplied b r).pinFollow (bankPins b)).bankAbsent c =
      if 2 ≤ r then decide (c = b) || s.bankAbsent c else decide (c ≠ b) && s.bankAbsent c := by
    obtain ⟨-, -, hbits⟩ := bankBits (s.f_lt_32 (x := PIN_BANK_STAT_ABSENT) rfl) hb
    intro c hc
    obtain ⟨hdrop, hor⟩ := hbits c hc
    unfold State.bankAbsent
    rw [hfollow _ rfl, s.supplied_absent r hb]
    split
    · exact hor
    · exact hdrop
  obtain ⟨-, -, hbits⟩ := bankBits (s.f_lt_32 (x := PIN_BANK_STAT_V33) rfl) hb
  obtain ⟨hdrop, hor⟩ := hbits b hb
  refine ⟨_, bankSupplyChange_eq s r hb, ?_, fun c hc hne => ?_, fun hr => ?_, fun hr => ?_, fun hr hb0 => ?_, ?_⟩
  · rw [habsent b hb]
    split
    next hr => simp [hr]
    next hr => simp [hr]
  · rw [habsent c hc]
    simp [hne]
  · rw [hfollow _ rfl, s.supplied_v33 r hb, if_neg (by omega)]
    split
    next h1 => simp [h1, hor]
    next h1 => simp [h1, hdrop]
  · rw [hfollow _ rfl, s.supplied_v33 r hb, if_pos hr]
  · refine State.pinFollow_irq _ (fun i hi => ?_) (s.supplied_irq hr hb0)
    have := bank_of_mem_bankPins hi
    omega
  · refine s.pinFollow_keeps (s.supplied_only b r) (fun _ => bank_of_mem_bankPins) fun a ha => ?_
    obtain ⟨hstat, hin, hirq⟩ : a ≠ PIN_BANK_STAT ∧ a ≠ PIN_GPIO_IN b ∧ a ≠ HIF_IRQ_STAT 12 := by simpa only [not_or] using ha
    exact ⟨s.supplied_reg hstat hirq, hin, hirq⟩

/-! ### Owners (R558, R560) -/

/-- Pin `i` gets the owner `v`, where `c` holds. -/
def State.ownerPut (i : Nat) (c : Prop) [Decidable c] (v : Nat) : State := if c then s.put (PIN_CFG_OWNER i) v else s

theorem pinCfg_ne {i j : Nat} (h : i ≠ j) : PIN_CFG i ≠ PIN_CFG j := by
  unfold PIN_CFG
  omega

theorem State.ownerPut_reg {i a : Nat} (c : Prop) [Decidable c] (v : Nat) (ha : a ≠ PIN_CFG i) : (s.ownerPut i c v).reg a = s.reg a := by
  unfold State.ownerPut
  split
  · exact State.reg_put_ne _ _ ha.symm
  · rfl

theorem State.ownerPut_owner (i j : Nat) (c : Prop) [Decidable c] {v : Nat} (hv : v < 8) :
    (s.ownerPut i c v).pinOwner j = if i = j ∧ c then v else s.pinOwner j := by
  unfold State.ownerPut State.pinOwner
  by_cases hij : i = j
  · subst hij
    by_cases hc : c
    · rw [if_pos hc, if_pos ⟨rfl, hc⟩, State.f_put _ _ _ (by simp) (by simp)]
      exact Nat.mod_eq_of_lt hv
    · rw [if_neg hc, if_neg fun h => hc h.2]
  · rw [if_neg (fun h : i = j ∧ c => hij h.1)]
    split
    · exact State.f_put_ne (x := PIN_CFG_OWNER i) (y := PIN_CFG_OWNER j) _ _ (pinCfg_ne hij)
    · rfl

/-- The fields of PIN_CFG that software writes stay when an owner changes. -/
theorem State.ownerPut_mask (i : Nat) (c : Prop) [Decidable c] (v a : Nat) :
    (s.ownerPut i c v).reg a &&& 0x800003F8#32 = s.reg a &&& 0x800003F8#32 := by
  have hput (w : Word) : fput w 30 28 v &&& 0x800003F8#32 = w &&& 0x800003F8#32 := by
    refine BitVec.eq_of_getLsbD_eq fun k hk => ?_
    rw [BitVec.getLsbD_and, BitVec.getLsbD_and, fput_getLsbD _ _ _ _ _ (by decide) (by decide)]
    by_cases h : 28 ≤ k ∧ k ≤ 30
    · have hmask : (0x800003F8#32).getLsbD k = false := by
        obtain ⟨h1, h2⟩ := h
        interval_cases k <;> decide
      rw [hmask, Bool.and_false, Bool.and_false]
    · rw [if_neg h]
  by_cases ha : PIN_CFG i = a
  · subst ha
    unfold State.ownerPut
    split
    · rw [State.reg_put, if_pos rfl]
      exact hput _
    · rfl
  · rw [s.ownerPut_reg c v (Ne.symm ha)]

theorem State.ownerPut_only (i : Nat) (c : Prop) [Decidable c] (v : Nat) : Only 1 s (s.ownerPut i c v) := .ite (put_only _ _ _) .refl

theorem State.on_fab_of_mask {s t : State} {i : Nat} (h : t.reg (PIN_CFG i) &&& 0x800003F8#32 = s.reg (PIN_CFG i) &&& 0x800003F8#32) :
    t.on (PIN_CFG_FAB i) = s.on (PIN_CFG_FAB i) := by
  have hbit (w : Word) : (fget w 31 31 == 1) = (w &&& 0x800003F8#32).getLsbD 31 := by
    rw [fget_bit]
    simp
  unfold State.on State.f
  rw [hbit, hbit, h]

/-- The owner that R558 gives a pin depends on the enables, the number of chip selects and the pin's FAB. -/
theorem State.pinTarget_congr {s t : State} {i : Nat} (hen : t.reg PIN_PERIPH_EN = s.reg PIN_PERIPH_EN) (hspi : t.reg SPI_CTRL = s.reg SPI_CTRL)
    (hfab : t.on (PIN_CFG_FAB i) = s.on (PIN_CFG_FAB i)) : t.pinTarget i = s.pinTarget i := by
  unfold State.pinTarget
  rw [hen, hfab, State.f_of_reg (x := SPI_CTRL_NCS) hspi]

theorem State.pinTarget_lt (i : Nat) : s.pinTarget i < 6 := by
  unfold State.pinTarget
  dsimp only
  repeat' split
  all_goals decide

/-- The switching pins of `l` get their owners. -/
def State.handed (l : List Nat) : State := s.each l fun i t => t.ownerPut i (t.pinOwner i = 6) (t.pinTarget i)

/-- The pins of `l` whose owner is not the one of `target` switch. -/
def State.switching (target : Nat → Nat) (l : List Nat) : State := s.each l fun i t => t.ownerPut i (t.pinOwner i ≠ target i) 6

theorem State.pinHand_eq : s.pinHand = (s.handed allPins).pinFollow allPins := rfl

theorem State.pinSwitch_eq : s.pinSwitch = (s.switching s.pinTarget allPins).pinFollow allPins := by
  unfold State.pinSwitch State.switching State.ownerPut
  simp only [ite_not]

section
variable {l : List Nat}

theorem State.handed_reg {a : Nat} (ha : ∀ i ∈ l, a ≠ PIN_CFG i) : (s.handed l).reg a = s.reg a :=
  State.each_keeps (State.reg · a) l (fun i hi t => t.ownerPut_reg _ _ (ha i hi)) s

theorem State.switching_reg {target : Nat → Nat} {a : Nat} (ha : ∀ i ∈ l, a ≠ PIN_CFG i) : (s.switching target l).reg a = s.reg a :=
  State.each_keeps (State.reg · a) l (fun i hi t => t.ownerPut_reg _ _ (ha i hi)) s

theorem State.handed_mask (a : Nat) : (s.handed l).reg a &&& 0x800003F8#32 = s.reg a &&& 0x800003F8#32 :=
  State.each_keeps (fun t : State => t.reg a &&& 0x800003F8#32) l (fun i _ t => t.ownerPut_mask i _ _ a) s

theorem State.switching_mask (target : Nat → Nat) (a : Nat) : (s.switching target l).reg a &&& 0x800003F8#32 = s.reg a &&& 0x800003F8#32 :=
  State.each_keeps (fun t : State => t.reg a &&& 0x800003F8#32) l (fun i _ t => t.ownerPut_mask i _ _ a) s

theorem State.handed_only : Only 1 s (s.handed l) := .each _ _ (fun _ _ => State.ownerPut_only _ _ _ _) .refl

theorem State.switching_only (target : Nat → Nat) : Only 1 s (s.switching target l) := .each _ _ (fun _ _ => State.ownerPut_only _ _ _ _) .refl

theorem State.ownerPut_target {i : Nat} (hi : i < 160) (j : Nat) (c : Prop) [Decidable c] (v : Nat) :
    (s.ownerPut i c v).pinTarget j = s.pinTarget j :=
  State.pinTarget_congr (s.ownerPut_reg c v (by unfold PIN_PERIPH_EN PIN_CFG; omega)) (s.ownerPut_reg c v (by unfold PIN_CFG SPI_CTRL; omega))
    (State.on_fab_of_mask (s.ownerPut_mask i c v _))

/-- The switching pins have the owners of R558, the others keep theirs. -/
theorem State.handed_owner (hl : ∀ i ∈ l, i < 160) (j : Nat) :
    (s.handed l).pinOwner j = if j ∈ l ∧ s.pinOwner j = 6 then s.pinTarget j else s.pinOwner j := by
  induction l generalizing s with
  | nil => simp [State.handed, State.each, foldS]
  | cons i l ih =>
    have hlt := s.pinTarget_lt j
    show ((s.ownerPut i _ _).handed l).pinOwner j = _
    rw [ih _ fun x hx => hl x (List.mem_cons_of_mem _ hx), s.ownerPut_target (hl i List.mem_cons_self),
      State.ownerPut_owner _ _ _ _ (by have := s.pinTarget_lt i; omega)]
    by_cases hij : i = j
    · subst hij
      by_cases h6 : s.pinOwner i = 6
      · simp [h6]
      · simp [h6]
    · simp [hij, Ne.symm hij]

/-- The pins whose owner is not the one they are to have are switching, the others keep theirs. -/
theorem State.switching_owner (target : Nat → Nat) (j : Nat) :
    (s.switching target l).pinOwner j = if j ∈ l ∧ s.pinOwner j ≠ target j then 6 else s.pinOwner j := by
  induction l generalizing s with
  | nil => simp [State.switching, State.each, foldS]
  | cons i l ih =>
    show ((s.ownerPut i _ _).switching target l).pinOwner j = _
    rw [ih, State.ownerPut_owner _ _ _ _ (by decide)]
    by_cases hij : i = j
    · subst hij
      by_cases hne : s.pinOwner i = target i
      · simp [hne]
      · simp [hne]
    · simp [hij, Ne.symm hij]

end

theorem mem_allPins {i : Nat} : i ∈ allPins ↔ i < 160 := List.mem_range

/-- Of the registers the pins reach those of block 13 and the one of their events. -/
theorem pinCfg_block {i a : Nat} (hi : i ∈ allPins) (ha : ¬ InBlocks [13] a) : a ≠ PIN_CFG i ∧ a ≠ PIN_GPIO_IN (i / 32) := by
  have hlt := mem_allPins.1 hi
  constructor <;> intro h <;> apply ha <;> subst h <;> simp only [InBlocks, List.mem_singleton, PIN_CFG, PIN_GPIO_IN] <;> omega

theorem State.allFollow_cfg {i : Nat} (hi : i < 160) : (s.pinFollow allPins).reg (PIN_CFG i) = s.reg (PIN_CFG i) := by
  refine s.pinFollow_reg (by unfold PIN_CFG HIF_IRQ_STAT; omega) fun k hk => ?_
  have := mem_allPins.1 hk
  unfold PIN_CFG PIN_GPIO_IN
  omega

theorem State.allFollow_keeps {u : State} (hu : Only 1 s u) (hreg : ∀ a, ¬ InBlocks [13] a → u.reg a = s.reg a) :
    Keeps (fun a => InBlocks [13] a ∨ a = HIF_IRQ_STAT 12) [.pin, .host, .tail, .mesh] s (u.pinFollow allPins) := by
  refine ((pinFollow_only u allPins).after (by decide) (hu.mono (by decide)) : Only 656897 _ _).keeps fun a ha => ?_
  obtain ⟨hblock, hirq⟩ := not_or.1 ha
  rw [u.pinFollow_reg hirq fun i hi => (pinCfg_block hi hblock).2, hreg a hblock]

/-- The owners of all switching pins change (R560). -/
theorem ownerChange_none : ∃ t, exec (.ownerChange none) s = .next t ∧
    (∀ i : Nat, i < 160 → t.pinOwner i = if s.pinOwner i = 6 then s.pinTarget i else s.pinOwner i) ∧
    Keeps (fun a => InBlocks [13] a ∨ a = HIF_IRQ_STAT 12) [.pin, .host, .tail, .mesh] s t := by
  refine ⟨s.pinHand, rfl, fun i hi => ?_, s.allFollow_keeps s.handed_only fun a ha => s.handed_reg fun i hi => (pinCfg_block hi ha).1⟩
  have howner := s.handed_owner (l := allPins) (fun _ => mem_allPins.1) i
  simp only [mem_allPins, hi, true_and] at howner
  rw [← howner, s.pinHand_eq]
  exact State.f_of_reg (x := PIN_CFG_OWNER i) (State.allFollow_cfg _ hi)

/-- Without a peripheral a pin belongs to the fabric where its FAB says so, else to GPIO. -/
theorem State.pinTarget_of_idle (hen : s.reg PIN_PERIPH_EN = 0) (i : Nat) : s.pinTarget i = b2n (s.on (PIN_CFG_FAB i)) := by
  unfold State.pinTarget b2n
  simp [hen]

/-- What a write of a pin's own register leaves of it before its owner changes. -/
theorem ownerMask_pinCfg {i : Nat} (hi : i < 160) : ownerMask (PIN_CFG i) = 0x800003F8#32 := by
  unfold ownerMask
  rw [if_neg (by unfold PIN_CFG PIN_PERIPH_EN; omega), if_neg (by unfold PIN_CFG SPI_CTRL; omega), if_pos (by unfold PIN_CFG; omega)]

/-- The register of pin `i` takes the bits of `v` that software may write. -/
def State.cfgWritten (i : Nat) (v : Word) : State :=
  s.setReg (PIN_CFG i) ((s.reg (PIN_CFG i) &&& ~~~ 0x800003F8#32) ||| (v &&& 0x800003F8#32))

theorem State.cfgWritten_mask (i : Nat) (v : Word) : (s.cfgWritten i v).reg (PIN_CFG i) &&& 0x800003F8#32 = v &&& 0x800003F8#32 := by
  unfold State.cfgWritten
  rw [State.reg_setReg_self]
  exact merge_and_inside (by decide)

theorem State.cfgWritten_owner (i : Nat) (v : Word) : (s.cfgWritten i v).pinOwner i = s.pinOwner i := by
  unfold State.cfgWritten State.pinOwner State.f
  rw [State.reg_setReg_self]
  refine Nat.eq_of_testBit_eq fun j => ?_
  rw [fget_testBit, fget_testBit]
  by_cases hj : j < 3
  · interval_cases j <;> simp
  · simp [hj]

theorem fget_31 (v : Word) : fget v 31 31 = b2n (v.toNat.testBit 31) := by
  have hlt : fget v 31 31 < 2 ^ (31 + 1 - 31) := BitVec.isLt _
  have hbit := fget_bit v 31
  rw [BitVec.testBit_toNat, ← hbit]
  unfold b2n
  by_cases h : fget v 31 31 = 1
  · simp [h]
  · simp [h]
    omega

/-- A change of FAB changes the owner of a pin that no peripheral takes. -/
theorem ownerChange_cfg {i : Nat} (v : Word) (hi : i < 160) (hen : s.reg PIN_PERIPH_EN = 0) (howner : s.pinOwner i < 2) :
    ∃ t, exec (.ownerChange (some (PIN_CFG i, v))) s = .next t ∧ t.pinOwner i = fget v 31 31 ∧ t.on (PIN_CFG_FAB i) = v.toNat.testBit 31 ∧
      t.reg (PIN_CFG i) &&& 0x800003F8#32 = v &&& 0x800003F8#32 ∧
      Keeps (fun a => InBlocks [13] a ∨ a = HIF_IRQ_STAT 12) [.pin, .host, .tail, .mesh] s t := by
  have hexec : exec (.ownerChange (some (PIN_CFG i, v))) s = .next (s.cfgWritten i v).pinSwitch.pinHand := by
    show execOwnerChange (some (PIN_CFG i, v)) s = _
    unfold execOwnerChange State.ownerWrite
    dsimp only
    rw [ownerMask_pinCfg hi, if_neg (by decide)]
    rfl
  have hen0 : (s.cfgWritten i v).reg PIN_PERIPH_EN = 0 := (State.reg_setReg_ne _ _ (by unfold PIN_CFG PIN_PERIPH_EN; omega)).trans hen
  have hfab0 : (s.cfgWritten i v).on (PIN_CFG_FAB i) = v.toNat.testBit 31 := by
    have hbit : ((s.cfgWritten i v).reg (PIN_CFG i) &&& 0x800003F8#32).getLsbD 31 = (v &&& 0x800003F8#32).getLsbD 31 := by
      rw [s.cfgWritten_mask]
    rw [State.on, State.f, fget_bit]
    simpa [BitVec.testBit_toNat] using hbit
  have hmask : (s.cfgWritten i v).pinSwitch.pinHand.reg (PIN_CFG i) &&& 0x800003F8#32 = (s.cfgWritten i v).reg (PIN_CFG i) &&& 0x800003F8#32 := by
    rw [State.pinHand_eq, State.allFollow_cfg _ hi, State.handed_mask, State.pinSwitch_eq, State.allFollow_cfg _ hi, State.switching_mask]
  have hfab1 : (s.cfgWritten i v).pinSwitch.on (PIN_CFG_FAB i) = v.toNat.testBit 31 := by
    rw [← hfab0]
    exact State.on_fab_of_mask (by rw [State.pinSwitch_eq, State.allFollow_cfg _ hi, State.switching_mask])
  have hen1 : (s.cfgWritten i v).pinSwitch.reg PIN_PERIPH_EN = 0 := by
    rw [State.pinSwitch_eq, State.pinFollow_reg _ (by decide) fun k _ => by unfold PIN_PERIPH_EN PIN_GPIO_IN; omega,
      State.switching_reg _ fun k _ => by unfold PIN_PERIPH_EN PIN_CFG; omega, hen0]
  have howner1 : (s.cfgWritten i v).pinSwitch.pinOwner i = if s.pinOwner i ≠ b2n (v.toNat.testBit 31) then 6 else s.pinOwner i := by
    rw [State.pinSwitch_eq]
    refine (State.f_of_reg (x := PIN_CFG_OWNER i) (State.allFollow_cfg _ hi)).trans ?_
    refine (State.switching_owner _ _ i).trans ?_
    rw [State.pinTarget_of_idle _ hen0, hfab0, s.cfgWritten_owner]
    simp only [mem_allPins, hi, true_and]
  have howner2 : (s.cfgWritten i v).pinSwitch.pinHand.pinOwner i = b2n (v.toNat.testBit 31) := by
    rw [State.pinHand_eq]
    refine (State.f_of_reg (x := PIN_CFG_OWNER i) (State.allFollow_cfg _ hi)).trans ?_
    refine (State.handed_owner _ (fun _ => mem_allPins.1) i).trans ?_
    rw [State.pinTarget_of_idle _ hen1, hfab1, howner1]
    simp only [mem_allPins, hi, true_and]
    by_cases heq : s.pinOwner i = b2n (v.toNat.testBit 31)
    · rw [if_neg (not_not.2 heq), if_neg (by omega), heq]
    · rw [if_pos heq, if_pos rfl]
  have hswitch := s.allFollow_keeps (((s.cfgWritten i v).switching_only (l := allPins) (s.cfgWritten i v).pinTarget).after (by decide)
    ((setReg_only s _ _).mono (by decide))) fun a ha => (State.switching_reg _ fun k hk => (pinCfg_block hk ha).1).trans
      (State.reg_setReg_ne _ _ (pinCfg_block (mem_allPins.2 hi) ha).1.symm)
  have hhand := (s.cfgWritten i v).pinSwitch.allFollow_keeps ((s.cfgWritten i v).pinSwitch.handed_only (l := allPins)) fun a ha =>
    State.handed_reg _ fun k hk => (pinCfg_block hk ha).1
  rw [← State.pinSwitch_eq] at hswitch
  rw [← State.pinHand_eq] at hhand
  refine ⟨_, hexec, howner2.trans (fget_31 v).symm, (State.on_fab_of_mask hmask).trans hfab0, hmask.trans (s.cfgWritten_mask i v),
    Keeps.trans hswitch hhand⟩

/-! ### TRIG lines (R565) -/

theorem trigPulse_starts {k : Nat} (hk : k < 4) (hreq : k ∈ s.pin.trigReq) : ∃ t, exec (.trigPulse k) s = .next t ∧
    t.pin.pulse = ladd s.pin.pulse k ∧ t.pin.trigReq = s.pin.trigReq.erase k ∧
    Keeps (fun a => a = PIN_GPIO_IN 4 ∨ a = HIF_IRQ_STAT 12) [.pin, .host, .tail, .mesh] s t := by
  refine ⟨_, congrArg Host.Outcome.next (if_pos hreq), State.pinFollow_pin _ Pins.pulse (fun _ _ => rfl) _,
    State.pinFollow_pin _ Pins.trigReq (fun _ _ => rfl) _, s.pinFollow_keeps ((setPin_only _ _).mono (by decide)) (fun i hi => ?_)
      fun a ha => ⟨rfl, not_or.1 ha⟩⟩
  rw [List.mem_singleton.1 hi]
  omega

theorem trigPulseEnd_ends {k : Nat} (hk : k < 4) (hpulse : k ∈ s.pin.pulse) : ∃ t, exec (.trigPulseEnd k) s = .next t ∧
    t.pin.pulse = ldel s.pin.pulse k ∧ t.pin.trigReq = s.pin.trigReq ∧
    Keeps (fun a => a = PIN_GPIO_IN 4 ∨ a = HIF_IRQ_STAT 12) [.pin, .host, .tail, .mesh] s t := by
  refine ⟨_, congrArg Host.Outcome.next (if_pos hpulse), State.pinFollow_pin _ Pins.pulse (fun _ _ => rfl) _,
    State.pinFollow_pin _ Pins.trigReq (fun _ _ => rfl) _, s.pinFollow_keeps ((setPin_only _ _).mono (by decide)) (fun i hi => ?_)
      fun a ha => ⟨rfl, not_or.1 ha⟩⟩
  rw [List.mem_singleton.1 hi]
  omega

/-- A line in input mode whose level is about to change by a selected edge. -/
structure State.TrigDue (k : Nat) (lvl : Bool) : Prop where
  owner : s.pinOwner (156 + k) = 5
  input : s.on (TRIG_CFG_OUT k) = false
  level : s.periphIn 5 (156 + k) false = lvl
  old : mget s.pin.trigIn false k = !lvl
  edge : s.trigEdge k lvl = true

/-- The other lines leave a line as it is. -/
theorem State.TrigDue.other {s : State} {j k : Nat} {lvl : Bool} (hk : k < 4) (hj : j < 4) (hjk : j ≠ k) (h : s.TrigDue k lvl) :
    (s.trigLine j).TrigDue k lvl := by
  have hreg : ∀ a, a ≠ HIF_IRQ_STAT 12 → (s.trigLine j).reg a = s.reg a := fun _ ha => s.trigLine_reg hj ha
  have howner : (s.trigLine j).pinOwner (156 + k) = s.pinOwner (156 + k) :=
    State.f_of_reg (x := PIN_CFG_OWNER (156 + k)) (hreg (PIN_CFG (156 + k)) (by unfold HIF_IRQ_STAT PIN_CFG; omega))
  have hout : (s.trigLine j).on (TRIG_CFG_OUT k) = s.on (TRIG_CFG_OUT k) :=
    State.on_of_reg (x := TRIG_CFG_OUT k) (hreg (TRIG_CFG k) (by unfold HIF_IRQ_STAT TRIG_CFG; omega))
  have hedge : (s.trigLine j).trigEdge k lvl = s.trigEdge k lvl := by
    unfold State.trigEdge
    rw [State.f_of_reg (x := TRIG_CFG_EDGE k) (hreg (TRIG_CFG k) (by unfold HIF_IRQ_STAT TRIG_CFG; omega))]
  have hlevel : (s.trigLine j).periphIn 5 (156 + k) false = s.periphIn 5 (156 + k) false := by
    unfold State.periphIn State.periphRun
    rw [howner, (s.trigLine_only j).clk (by decide), hreg _ (by unfold HIF_IRQ_STAT PIN_GPIO_IN; omega)]
  exact ⟨howner.trans h.owner, hout.trans h.input, hlevel.trans h.level, (s.trigLine_other hjk).trans h.old, hedge.trans h.edge⟩

/-- Once a line has taken its level the others leave it so. -/
theorem State.each_trigLine_kept {k : Nat} {lvl : Bool} (l : List Nat) (hl : k ∉ l) (h : mget s.pin.trigIn false k = lvl) :
    mget (s.each l fun j t => t.trigLine j).pin.trigIn false k = lvl :=
  (State.each_keeps (fun t : State => mget t.pin.trigIn false k) l (fun _ hj t => t.trigLine_other fun e => hl (e ▸ hj)) s).trans h

/-- The line takes its level and raises its event. -/
theorem State.TrigDue.taken {s : State} {k : Nat} {lvl : Bool} (hk : k < 4) (l : List Nat) (hnodup : l.Nodup) (hmem : k ∈ l)
    (hl : ∀ j ∈ l, j < 4) (h : s.TrigDue k lvl) : mget (s.each l fun j t => t.trigLine j).pin.trigIn false k = lvl ∧
      ((s.each l fun j t => t.trigLine j).reg (HIF_IRQ_STAT 12)).toNat.testBit (5 + k) = true := by
  induction l generalizing s with
  | nil => exact absurd hmem List.not_mem_nil
  | cons j l ih =>
    obtain ⟨hj, hrest⟩ := List.nodup_cons.1 hnodup
    show mget ((s.trigLine j).each l _).pin.trigIn false k = lvl ∧ (((s.trigLine j).each l _).reg _).toNat.testBit _ = true
    by_cases hjk : j = k
    · subst hjk
      have hevent := s.trigLine_event hk h.owner h.input (by rw [h.old, h.level]; cases lvl <;> decide) (by rw [h.level]; exact h.edge)
      refine ⟨State.each_trigLine_kept _ l hj ((s.trigLine_self j).trans h.level), ?_⟩
      clear ih hj hrest hmem hl hnodup h
      generalize s.trigLine j = u at hevent ⊢
      induction l generalizing u with
      | nil => exact hevent
      | cons i l ih => exact ih _ (u.trigLine_irq i hevent)
    · exact ih hrest ((List.mem_cons.1 hmem).resolve_left (Ne.symm hjk)) (fun x hx => hl x (List.mem_cons_of_mem _ hx))
        (h.other hk (hl j List.mem_cons_self) hjk)

/-- A TRIG line in input mode drives nothing. -/
theorem State.pinDrive_of_trigInput {k : Nat} (hk : k < 4) (hbs : s.pin.bs = none) (hbank : s.bankAbsent 4 = false)
    (howner : s.pinOwner (156 + k) = 5) (hin : s.on (TRIG_CFG_OUT k) = false) : s.pinDrive (156 + k) = none := by
  have hdiv : (156 + k) / 32 = 4 := by omega
  have hsub : 156 + k - 156 = k := by omega
  unfold State.pinDrive State.periphDrive
  simp [hdiv, hsub, hbs, hbank, howner, hin]

/-- A pin that only the board drives shows the board's level. -/
theorem State.pinIn_of_board {i : Nat} {lvl : Bool} (hbank : s.bankAbsent (i / 32) = false) (hie : s.on (PIN_CFG_IE i) = true)
    (hdrive : s.pinDrive i = none) (hext : mget s.pin.ext (some false) i = some lvl) : s.pinIn i = lvl := by
  unfold State.pinIn State.ballLevel
  simp [hbank, hie, hdrive, hext]

/-- The sampled level of a TRIG line reaches its input. -/
theorem State.TrigDue.of_sampled {s : State} {k : Nat} {lvl : Bool} (hk : k < 4) (howner : s.pinOwner (156 + k) = 5)
    (hin : s.on (TRIG_CFG_OUT k) = false) (hrun : s.periphRun = true) (hlevel : s.pinIn (156 + k) = lvl)
    (hold : mget s.pin.trigIn false k = !lvl) (hedge : s.trigEdge k lvl = true) : (s.pinSample [156 + k]).TrigDue k lvl := by
  have hreg : ∀ a, a ≠ PIN_GPIO_IN 4 → (s.pinSample [156 + k]).reg a = s.reg a := fun a ha =>
    s.pinSample_reg fun i hi => by rw [List.mem_singleton.1 hi, show (156 + k) / 32 = 4 by omega]; exact ha
  have hcfg : (s.pinSample [156 + k]).pinOwner (156 + k) = 5 :=
    (State.f_of_reg (x := PIN_CFG_OWNER (156 + k)) (hreg (PIN_CFG (156 + k)) (by unfold PIN_CFG PIN_GPIO_IN; omega))).trans howner
  have htrig : TRIG_CFG k ≠ PIN_GPIO_IN 4 := by unfold TRIG_CFG PIN_GPIO_IN; omega
  have hbit := s.pinSample_bit [156 + k] (b := 4) (k := 28 + k) (by omega)
  rw [if_pos (by simp; omega), show 32 * 4 + (28 + k) = 156 + k by omega, hlevel] at hbit
  refine ⟨hcfg, (State.on_of_reg (x := TRIG_CFG_OUT k) (hreg _ htrig)).trans hin, ?_, ?_, ?_⟩
  · have hrun' : (s.pinSample [156 + k]).periphRun = true := by
      unfold State.periphRun
      rw [(pinSample_only s _).clk (by decide)]
      exact hrun
    unfold State.periphIn
    rw [if_pos ⟨hcfg, hrun'⟩, show (156 + k) / 32 = 4 by omega, show (156 + k) % 32 = 28 + k by omega, hbit]
  · rw [(pinSample_only s _).pin (by decide), hold]
  · unfold State.trigEdge
    rw [State.f_of_reg (x := TRIG_CFG_EDGE k) (hreg _ htrig)]
    exact hedge

/-- The board drives a TRIG line in input mode to a selected edge. -/
theorem trigInputEdge_fires {k : Nat} {lvl : Bool} (hk : k < 4) (hbs : s.pin.bs = none) (hbank : s.bankAbsent 4 = false)
    (howner : s.pinOwner (156 + k) = 5) (hin : s.on (TRIG_CFG_OUT k) = false) (hie : s.on (PIN_CFG_IE (156 + k)) = true)
    (hrun : s.periphRun = true) (hold : mget s.pin.trigIn false k = !lvl) (hedge : s.trigEdge k lvl = true) :
    ∃ t, exec (.trigInputEdge k lvl) s = .next t ∧ (t.reg (HIF_IRQ_STAT 12)).toNat.testBit (5 + k) = true ∧
      mget t.pin.ext (some false) (156 + k) = some lvl ∧ mget t.pin.trigIn false k = lvl ∧
      Keeps (fun a => a = PIN_GPIO_IN 4 ∨ a = HIF_IRQ_STAT 12) [.pin, .host, .tail, .mesh] s t := by
  have hdiv : (156 + k) / 32 = 4 := by omega
  let u := s.setPin { s.pin with ext := mset s.pin.ext (some false) (156 + k) (some lvl) }
  have hdrive := u.pinDrive_of_trigInput hk hbs hbank howner hin
  have hbank' : s.bankAbsent ((156 + k) / 32) = false := by rw [hdiv, hbank]
  have hlevel := u.pinIn_of_board (i := 156 + k) (lvl := lvl) hbank' hie hdrive (mget_mset_self s.pin.ext _ _ _)
  obtain ⟨hlast, hirq⟩ := (State.TrigDue.of_sampled (s := u) hk howner hin hrun hlevel hold hedge).taken hk (List.range 4) List.nodup_range
    (List.mem_range.2 hk) (fun _ => List.mem_range.1)
  refine ⟨u.pinFollow [156 + k], congrArg Host.Outcome.next (if_pos hk), hirq, ?_, hlast, ?_⟩
  · exact (State.pinFollow_pin _ (fun x => mget x.ext (some false) (156 + k)) (fun _ _ => rfl) _).trans (mget_mset_self _ _ _ _)
  · refine s.pinFollow_keeps ((setPin_only _ _).mono (by decide)) (fun i hi => ?_) fun a ha => ⟨rfl, not_or.1 ha⟩
    rw [List.mem_singleton.1 hi, hdiv]

end

/-- Settles O57: the pins follow every change, and of their registers each command changes its own. -/
theorem pinsAndTriggers : Obligations.PinsAndTriggers := by
  unfold Obligations.PinsAndTriggers
  intro s
  refine ⟨fun b v hb hbs hbank => ?_, fun b v hb hbs hbank => ?_, fun b r hb => bankSupplyChange_shows s r hb, ownerChange_none s,
    fun i v hi hen howner => ownerChange_cfg s v hi hen howner, fun k hk hreq => trigPulse_starts s hk hreq,
    fun k hk hpulse => trigPulseEnd_ends s hk hpulse,
    fun k lvl hk hbs hbank howner hin hie hrun hold hedge => trigInputEdge_fires s hk hbs hbank howner hin hie hrun hold hedge⟩
  · exact ⟨s.outSet b (s.reg (PIN_GPIO_OUT b) ||| v), congrArg Host.Outcome.next (if_pos hb), s.outSet_out hb _,
      fun k hk howner hoe hod hie hext => s.outSet_in hb _ hk hbs hbank howner hoe hod hie hext, s.outSet_keeps _⟩
  · exact ⟨s.outSet b (s.reg (PIN_GPIO_OUT b) &&& ~~~ v), congrArg Host.Outcome.next (if_pos hb), s.outSet_out hb _,
      fun k hk howner hoe hod hie hext => s.outSet_in hb _ hk hbs hbank howner hoe hod hie hext, s.outSet_keeps _⟩

end Sys2Proof.Machine
end

section
/-! SUPPORT. The serial ports (R559, R564): what their FIFOs, commands and events leave. -/

namespace Sys2Proof.Machine

section
variable (s : State)

theorem State.toBlock_open {i : Nat} (h : s.blockGated i = false) (f : State → State) : s.toBlock i f = f s := by
  unfold State.toBlock
  rw [h, if_neg Bool.false_ne_true]

theorem State.toBlock_gated {i : Nat} (h : s.blockGated i = true) (f : State → State) : s.toBlock i f = s := if_pos h

theorem State.setPin_reg (p : Pins) (a : Nat) : (s.setPin p).reg a = s.reg a := rfl

theorem State.setPin_f (p : Pins) (x : Fld) : (s.setPin p).f x = s.f x := rfl

theorem State.setPin_on (p : Pins) (x : Fld) : (s.setPin p).on x = s.on x := rfl

/-- A change of the pins' state and of one register. -/
theorem State.setPin_put_keeps (p : Pins) (x : Fld) (v : Nat) : Keeps (fun a => a = x.addr) [.pin] s ((s.setPin p).put x v) :=
  ((put_only _ _ _).after (by decide) ((setPin_only _ _).mono (by decide)) : Only 524289 _ _).keeps fun _ ha => State.reg_put_ne _ _ (Ne.symm ha)

/-- Changes of the pins' state, of one register and of the events of the pins compose to such changes. -/
def State.PortOnly (r : Nat) (s t : State) : Prop :=
  Only 656897 s t ∧ ∀ a, ¬ (a = r ∨ a = HIF_IRQ_STAT 12) → t.reg a = s.reg a

theorem State.PortOnly.keeps {r : Nat} {s t : State} (h : State.PortOnly r s t) :
    Keeps (fun a => a = r ∨ a = HIF_IRQ_STAT 12) [.pin, .host, .tail, .mesh] s t := h.1.keeps h.2

theorem State.PortOnly.refl (r : Nat) : State.PortOnly r s s := ⟨.refl, fun _ _ => rfl⟩

theorem State.PortOnly.trans {r : Nat} {s t u : State} (h : State.PortOnly r s t) (g : State.PortOnly r t u) : State.PortOnly r s u :=
  ⟨h.1.trans g.1, fun a ha => (g.2 a ha).trans (h.2 a ha)⟩

theorem State.portOnly_setPin (r : Nat) (p : Pins) : State.PortOnly r s (s.setPin p) := ⟨(setPin_only _ _).mono (by decide), fun _ _ => rfl⟩

theorem State.portOnly_put (x : Fld) (v : Nat) : State.PortOnly x.addr s (s.put x v) :=
  ⟨(put_only _ _ _).mono (by decide), fun _ ha => State.reg_put_ne _ _ fun e => ha (.inl e.symm)⟩

theorem State.portOnly_raise (r : Nat) {i : Nat} (hi : i / 32 = 12) : State.PortOnly r s (s.raise i) :=
  ⟨(raise_only _ _).mono (by decide), fun _ ha => State.raise_reg _ (hi ▸ fun e => ha (.inr e))⟩

theorem State.portOnly_when {r : Nat} {s t : State} (b : Bool) {g : State → State} (h : State.PortOnly r s t)
    (hg : State.PortOnly r t (g t)) : State.PortOnly r s (t.when b g) := by
  unfold State.when
  split
  · exact h.trans hg
  · exact h

theorem State.when_pos {b : Bool} (hb : b = true) (g : State → State) : s.when b g = g s := by rw [State.when, if_pos hb]

theorem State.when_neg {b : Bool} (hb : b = false) (g : State → State) : s.when b g = s := by rw [State.when, if_neg (by simp [hb])]

/-! ### UART (R564) -/

/-- A byte written to a UART with room. -/
theorem uartTx_queues {u : Nat} (v : Nat) (hu : u < 2) (hopen : s.blockGated 38 = false) (hroom : (mget s.pin.utx [] u).length < 16) :
    ∃ t, exec (.uartTx u v) s = .next t ∧ t.pin = { s.pin with utx := mset s.pin.utx [] u (mget s.pin.utx [] u ++ [v % 256]) } ∧
      t.on (UART_CTRL_TX_EMPTY u) = false ∧ Keeps (fun a => a = UART_CTRL u) [.pin] s t := by
  have hexec : exec (.uartTx u v) s = .next (s.uartPush u v) := congrArg Host.Outcome.next ((if_pos hu).trans (s.toBlock_open hopen _))
  refine ⟨_, hexec.trans (congrArg _ (if_pos hroom)), rfl, State.on_put_zero (x := UART_CTRL_TX_EMPTY u) _ rfl (by simp),
    s.setPin_put_keeps _ (UART_CTRL_TX_EMPTY u) 0⟩

theorem State.uartOn_lt {u : Nat} (h : s.uartOn u = true) : u < 2 := by
  unfold State.uartOn at h
  simp only [Bool.and_eq_true, decide_eq_true_eq] at h
  exact h.1.1

theorem uartCtrl_ne_irq {u : Nat} (hu : u < 2) : UART_CTRL u ≠ HIF_IRQ_STAT 12 := by
  unfold UART_CTRL HIF_IRQ_STAT
  omega

/-- The event of UART `u`, and of I2C controller `c`, which is the event of "UART" `c + 2`. -/
theorem serialEvent {k : Nat} (hk : k < 8) : (384 + k) / 32 = 12 ∧ (384 + k) % 32 = k := by omega

theorem State.raise_serial_irq {k : Nat} (hk : k < 8) : ((s.raise (384 + k)).reg (HIF_IRQ_STAT 12)).toNat.testBit k = true := by
  obtain ⟨hdiv, hmod⟩ := serialEvent hk
  have h := s.raise_irq (384 + k)
  rwa [hdiv, hmod] at h

theorem State.when_raise_f (b : Bool) {k : Nat} (hk : k < 8) {x : Fld} (hx : x.addr ≠ HIF_IRQ_STAT 12) :
    (s.when b fun t => t.raise (384 + k)).f x = s.f x := by
  unfold State.when
  split
  · exact State.raise_f _ (by rwa [(serialEvent hk).1])
  · rfl

theorem State.when_raise_on (b : Bool) {k : Nat} (hk : k < 8) {x : Fld} (hx : x.addr ≠ HIF_IRQ_STAT 12) :
    (s.when b fun t => t.raise (384 + k)).on x = s.on x := congrArg (· == 1) (s.when_raise_f b hk hx)

theorem State.when_raise_pin (b : Bool) (k : Nat) : (s.when b fun t => t.raise (384 + k)).pin = s.pin := by
  unfold State.when
  split
  · exact (raise_only _ _).pin (by decide)
  · rfl

/-- Bytes of a UART's transmit FIFO have been sent. -/
theorem uartTransmitDone_sends {u : Nat} (n : Nat) (hon : s.uartOn u = true) (hbusy : mget s.pin.utx [] u ≠ []) :
    ∃ t, exec (.uartTransmitDone u n) s = .next t ∧ t.pin = { s.pin with utx := mset s.pin.utx [] u ((mget s.pin.utx [] u).drop n) } ∧
      t.on (UART_CTRL_TX_EMPTY u) = (s.on (UART_CTRL_TX_EMPTY u) || decide ((mget s.pin.utx [] u).length ≤ n)) ∧
      ((mget s.pin.utx [] u).length ≤ n → s.on (UART_CTRL_TX_IRQ u) = true → (t.reg (HIF_IRQ_STAT 12)).toNat.testBit u = true) ∧
      Keeps (fun a => a = UART_CTRL u ∨ a = HIF_IRQ_STAT 12) [.pin, .host, .tail, .mesh] s t := by
  have hu := s.uartOn_lt hon
  have hrun : (s.uartOn u && !(mget s.pin.utx [] u).isEmpty) = true := by simp [hon, hbusy]
  let s1 := s.setPin { s.pin with utx := mset s.pin.utx [] u ((mget s.pin.utx [] u).drop n) }
  by_cases hlast : (mget s.pin.utx [] u).length ≤ n
  · have hexec : exec (.uartTransmitDone u n) s =
        .next ((s1.put (UART_CTRL_TX_EMPTY u) 1).when (s1.on (UART_CTRL_TX_IRQ u)) fun t => t.raise (384 + u)) :=
      congrArg Host.Outcome.next ((if_pos hrun).trans (if_pos hlast))
    refine ⟨_, hexec, State.when_raise_pin _ _ _, ?_, fun _ hirq => ?_, ?_⟩
    · rw [State.when_raise_on _ _ (by omega) (uartCtrl_ne_irq hu), State.on_put_one _ rfl (by simp), decide_eq_true hlast, Bool.or_true]
    · rw [State.when_pos _ (show s1.on (UART_CTRL_TX_IRQ u) = true from hirq)]
      exact State.raise_serial_irq _ (by omega)
    · exact (State.portOnly_when _ ((s.portOnly_setPin (UART_CTRL u) _).trans (s1.portOnly_put (UART_CTRL_TX_EMPTY u) 1))
        (State.portOnly_raise _ _ (serialEvent (by omega)).1)).keeps
  · have hexec : exec (.uartTransmitDone u n) s = .next s1 := congrArg Host.Outcome.next ((if_pos hrun).trans (if_neg hlast))
    refine ⟨_, hexec, rfl, ?_, fun h => absurd h hlast, (s.portOnly_setPin (UART_CTRL u) _).keeps⟩
    rw [decide_eq_false hlast, Bool.or_false]
    rfl

/-- The flag of a received byte that overflows or has an error, and the event. -/
def State.rxFlagged (u : Nat) (bad : Bool) : State :=
  let t := s.when bad fun t => t.put (UART_CTRL_ERR u) 1
  t.when (t.on (UART_CTRL_RX_IRQ u)) fun w => w.raise (384 + u)

section
variable {u : Nat} (bad : Bool)

theorem State.rxFlagged_pin : (s.rxFlagged u bad).pin = s.pin := by
  unfold State.rxFlagged
  dsimp only
  rw [State.when_raise_pin]
  cases bad <;> rfl

theorem State.rxFlagged_count (hu : u < 2) : (s.rxFlagged u bad).f (UART_CTRL_RX_COUNT u) = s.f (UART_CTRL_RX_COUNT u) := by
  unfold State.rxFlagged
  dsimp only
  rw [State.when_raise_f _ _ (by omega) (uartCtrl_ne_irq hu)]
  cases bad with
  | true => exact State.f_put_apart _ (x := UART_CTRL_ERR u) _ (by simp) (by simp) (.inr (.inl (by simp)))
  | false => rfl

theorem State.rxFlagged_err (hu : u < 2) : (s.rxFlagged u bad).on (UART_CTRL_ERR u) = (s.on (UART_CTRL_ERR u) || bad) := by
  unfold State.rxFlagged
  dsimp only
  rw [State.when_raise_on _ _ (by omega) (uartCtrl_ne_irq hu)]
  cases bad with
  | true => rw [Bool.or_true]; exact State.on_put_one (x := UART_CTRL_ERR u) _ rfl (by simp)
  | false => rw [Bool.or_false]; rfl

theorem State.rxFlagged_irq (hu : u < 2) (hirq : s.on (UART_CTRL_RX_IRQ u) = true) :
    ((s.rxFlagged u bad).reg (HIF_IRQ_STAT 12)).toNat.testBit u = true := by
  unfold State.rxFlagged
  dsimp only
  rw [State.when_pos]
  · exact State.raise_serial_irq _ (by omega)
  · cases bad with
    | true => exact (State.on_put_apart _ (x := UART_CTRL_ERR u) _ (by simp) (by simp) (.inr (.inl (by simp)))).trans hirq
    | false => exact hirq

theorem State.rxFlagged_portOnly (hu : u < 2) : State.PortOnly (UART_CTRL u) s (s.rxFlagged u bad) := by
  unfold State.rxFlagged
  dsimp only
  exact State.portOnly_when _ (State.portOnly_when _ (State.PortOnly.refl _ _) (s.portOnly_put (UART_CTRL_ERR u) 1))
    (State.portOnly_raise _ _ (serialEvent (k := u) (by omega)).1)

end

/-- A byte received with room in the FIFO. -/
theorem uartReceive_queues {u : Nat} (v : Nat) (err : Bool) (hon : s.uartOn u = true) (hpin : s.pinOwner (3 + 32 * u) = 2)
    (hroom : (mget s.pin.urx [] u).length < 16) : ∃ t, exec (.uartReceive u v err) s = .next t ∧
      t.pin = { s.pin with urx := mset s.pin.urx [] u (mget s.pin.urx [] u ++ [v % 256 + 256 * b2n err]) } ∧
      t.f (UART_CTRL_RX_COUNT u) = (mget s.pin.urx [] u).length + 1 ∧ t.on (UART_CTRL_ERR u) = (s.on (UART_CTRL_ERR u) || err) ∧
      (s.on (UART_CTRL_RX_IRQ u) = true → (t.reg (HIF_IRQ_STAT 12)).toNat.testBit u = true) ∧
      Keeps (fun a => a = UART_CTRL u ∨ a = HIF_IRQ_STAT 12) [.pin, .host, .tail, .mesh] s t := by
  have hu := s.uartOn_lt hon
  let s1 := (s.setPin { s.pin with urx := mset s.pin.urx [] u (mget s.pin.urx [] u ++ [v % 256 + 256 * b2n err]) }).put (UART_CTRL_RX_COUNT u)
    ((mget s.pin.urx [] u).length + 1)
  have hexec : exec (.uartReceive u v err) s = .next (s1.rxFlagged u err) := by
    show execUartReceive u v err s = _
    unfold execUartReceive
    rw [if_pos (by simp [hon, hpin])]
    dsimp only
    rw [if_pos hroom, decide_eq_false (by omega), Bool.or_false]
    rfl
  refine ⟨_, hexec, s1.rxFlagged_pin err, ?_, ?_, fun hirq => s1.rxFlagged_irq err hu ?_, ?_⟩
  · rw [s1.rxFlagged_count err hu, State.f_put _ _ _ (by simp) (by simp)]
    exact Nat.mod_eq_of_lt (show _ < 32 by omega)
  · rw [s1.rxFlagged_err err hu]
    exact congrArg (· || err) (State.on_put_apart _ (x := UART_CTRL_RX_COUNT u) _ (by simp) (by simp) (.inr (.inr (by simp))))
  · exact (State.on_put_apart _ (x := UART_CTRL_RX_COUNT u) _ (by simp) (by simp) (.inr (.inl (by simp)))).trans hirq
  · exact (((s.portOnly_setPin (UART_CTRL u) _).trans (State.portOnly_put _ (UART_CTRL_RX_COUNT u) _)).trans (s1.rxFlagged_portOnly err hu)).keeps

/-- A byte received by a full FIFO is lost. -/
theorem uartReceive_loses {u : Nat} (v : Nat) (err : Bool) (hon : s.uartOn u = true) (hpin : s.pinOwner (3 + 32 * u) = 2)
    (hfull : 16 ≤ (mget s.pin.urx [] u).length) : ∃ t, exec (.uartReceive u v err) s = .next t ∧ t.on (UART_CTRL_ERR u) = true ∧
      mget t.pin.urx [] u = mget s.pin.urx [] u ∧ t.f (UART_CTRL_RX_COUNT u) = s.f (UART_CTRL_RX_COUNT u) ∧
      Keeps (fun a => a = UART_CTRL u ∨ a = HIF_IRQ_STAT 12) [.host, .tail, .mesh] s t := by
  have hu := s.uartOn_lt hon
  have hexec : exec (.uartReceive u v err) s = .next (s.rxFlagged u true) := by
    show execUartReceive u v err s = _
    unfold execUartReceive
    rw [if_pos (by simp [hon, hpin])]
    dsimp only
    rw [if_neg (by omega), decide_eq_true hfull, Bool.or_true]
    rfl
  have hpinKept := s.rxFlagged_pin (u := u) true
  obtain ⟨hq, hr, hp⟩ := (s.rxFlagged_portOnly true hu).keeps
  refine ⟨_, hexec, ?_, by rw [hpinKept], s.rxFlagged_count true hu, hq, hr, fun p hps => ?_⟩
  · rw [s.rxFlagged_err true hu, Bool.or_true]
  · by_cases h : p = .pin
    · subst h; exact hpinKept
    · exact hp p (by simp [h]; simpa using hps)

/-- A read of UART_DATA takes the byte at the head. -/
theorem uartData_pops {u x0 : Nat} {l : List Nat} (hu : u < 2) (hopen : s.blockGated 38 = false) (hhead : mget s.pin.urx [] u = x0 :: l)
    (hlen : l.length < 16) : ∃ t, exec (.uartData u) s = .next t ∧ t.pin = { s.pin with urx := mset s.pin.urx [] u l } ∧
      t.f (UART_CTRL_RX_COUNT u) = l.length ∧ Keeps (fun a => a = UART_CTRL u) [.pin] s t := by
  have hpop : s.uartPop u = (s.setPin { s.pin with urx := mset s.pin.urx [] u l }).put (UART_CTRL_RX_COUNT u) l.length := by
    unfold State.uartPop
    rw [hhead]
    rfl
  have hexec : exec (.uartData u) s = .next (s.uartPop u) := congrArg Host.Outcome.next ((if_pos hu).trans (s.toBlock_open hopen _))
  refine ⟨_, hexec.trans (congrArg _ hpop), rfl, ?_, s.setPin_put_keeps _ (UART_CTRL_RX_COUNT u) _⟩
  rw [State.f_put _ _ _ (by simp) (by simp)]
  exact Nat.mod_eq_of_lt (show l.length < 32 by omega)

/-! ### I2C (R564) -/

theorem i2cCmd_ne_irq {c : Nat} (hc : c < 2) : I2C_CMD c ≠ HIF_IRQ_STAT 12 := by
  unfold I2C_CMD HIF_IRQ_STAT
  omega

theorem fget_eq (w : Word) (hi lo : Nat) : fget w hi lo = w.toNat / 2 ^ lo % 2 ^ (hi + 1 - lo) := by
  unfold fget
  rw [BitVec.extractLsb'_toNat, Nat.shiftRight_eq_div_pow]

/-- The fields of a command word. -/
theorem i2cWord_fields {op : Nat} (v : Nat) (fast : Bool) (hop : op ≤ 5) : fget (i2cWord op v fast) 26 24 = op ∧
    fget (i2cWord op v fast) 27 27 = b2n fast ∧ fget (i2cWord op v fast) 7 0 = v % 256 ∧ fget (i2cWord op v fast) 29 29 = 0 ∧
    fget (i2cWord op v fast) 28 28 = 0 := by
  have hfast : b2n fast ≤ 1 := by cases fast <;> decide
  have hnum : (i2cWord op v fast).toNat = op * 2 ^ 24 + b2n fast * 2 ^ 27 + v % 256 := by
    unfold i2cWord
    rw [BitVec.toNat_ofNat]
    omega
  simp only [fget_eq, hnum]
  refine ⟨?_, ?_, ?_, ?_, ?_⟩ <;> omega

/-- What the acceptance of a command leaves: FAST and DATA as written, the OP in progress, BUSY. -/
def State.i2cTaken (c op v : Nat) (fast : Bool) : State :=
  (State.setPin ((s.put (I2C_CMD_FAST c) (b2n fast)).put (I2C_CMD_DATA c) (v % 256)) { s.pin with i2cOp := mset s.pin.i2cOp 0 c op }).put
    (I2C_CMD_BUSY c) 1

theorem i2cCommand_taken {c op : Nat} (v : Nat) (fast : Bool) (hc : c < 2) (hopen : s.blockGated 38 = false)
    (hfree : s.on (I2C_CMD_BUSY c) = false) (hop : 1 ≤ op ∧ op ≤ 5) : s.i2cCommand c op v fast = s.i2cTaken c op v fast := by
  obtain ⟨hop', hfast, hdata, harb, htmo⟩ := i2cWord_fields v fast hop.2
  unfold State.i2cCommand
  rw [if_pos hc, State.toBlock_open _ hopen]
  unfold State.i2cWrite
  dsimp only
  rw [hop', hfast, hdata, harb, htmo, if_neg (by simp [hfree]), if_pos hop]
  rfl

section
variable {c : Nat} (op v : Nat) (fast : Bool)

theorem State.i2cTaken_busy : (s.i2cTaken c op v fast).on (I2C_CMD_BUSY c) = true := State.on_put_one (x := I2C_CMD_BUSY c) _ rfl (by simp)

theorem State.i2cTaken_op : mget (s.i2cTaken c op v fast).pin.i2cOp 0 c = op := mget_mset_self s.pin.i2cOp 0 op c

theorem State.i2cTaken_fast : (s.i2cTaken c op v fast).f (I2C_CMD_FAST c) = b2n fast := by
  unfold State.i2cTaken
  rw [State.f_put_apart _ _ (by simp) (by simp) (.inr (.inl (by simp))), State.setPin_f,
    State.f_put_apart _ _ (by simp) (by simp) (.inr (.inr (by simp))), State.f_put _ _ _ (by simp) (by simp)]
  cases fast <;> rfl

theorem State.i2cTaken_data : (s.i2cTaken c op v fast).f (I2C_CMD_DATA c) = v % 256 := by
  unfold State.i2cTaken
  rw [State.f_put_apart _ _ (by simp) (by simp) (.inr (.inl (by simp))), State.setPin_f, State.f_put _ _ _ (by simp) (by simp)]
  exact Nat.mod_mod _ _

theorem State.i2cTaken_arb : (s.i2cTaken c op v fast).on (I2C_CMD_ARB_LOST c) = s.on (I2C_CMD_ARB_LOST c) := by
  unfold State.i2cTaken
  rw [State.on_put_apart _ _ (by simp) (by simp) (.inr (.inl (by simp))), State.setPin_on,
    State.on_put_apart _ _ (by simp) (by simp) (.inr (.inr (by simp))), State.on_put_apart _ _ (by simp) (by simp) (.inr (.inr (by simp)))]

theorem State.i2cTaken_keeps : Keeps (fun a => a = I2C_CMD c) [.pin] s (s.i2cTaken c op v fast) := by
  refine ((put_only _ _ _).after (by decide) ((setPin_only _ _).after (by decide) ((put_only _ _ _).after (by decide)
    ((put_only _ _ _).mono (by decide)))) : Only 524289 _ _).keeps fun a ha => ?_
  have hne : I2C_CMD c ≠ a := Ne.symm ha
  rw [State.reg_put_ne _ _ hne, State.setPin_reg, State.reg_put_ne _ _ hne, State.reg_put_ne _ _ hne]

end

theorem State.i2cData_lt (c : Nat) : s.f (I2C_CMD_DATA c) < 256 := BitVec.isLt _

/-- What a completed command leaves, before its event. -/
def State.i2cEnded (c data : Nat) (ack arb : Bool) : State :=
  (((((s.setPin { s.pin with i2cOp := mset s.pin.i2cOp 0 c 0 }).put (I2C_CMD_BUSY c) 0).when (mget s.pin.i2cOp 0 c == 2)
    fun t => t.put (I2C_CMD_NACK c) (b2n !ack)).when (mget s.pin.i2cOp 0 c == 3 || mget s.pin.i2cOp 0 c == 4)
    fun t => t.put (I2C_CMD_DATA c) data).when arb fun t => t.put (I2C_CMD_ARB_LOST c) 1)

theorem i2cCommandDone_ends {c : Nat} (d : Nat) (ack arb : Bool) (hruns : s.i2cRuns c = true) (hown : s.pinOwner (sdaPin c) = 3) :
    exec (.i2cCommandDone c d ack arb) s = .next ((s.i2cEnded c d ack arb).raise (386 + c)) := by
  show execI2cCommandDone c d ack arb s = _
  unfold execI2cCommandDone
  rw [if_pos hruns]
  dsimp only
  rw [hown]
  simp only [beq_self_eq_true, Bool.and_true, if_true]
  rfl

theorem State.i2cRuns_lt {c : Nat} (h : s.i2cRuns c = true) : c < 2 := by
  unfold State.i2cRuns at h
  simp only [Bool.and_eq_true, decide_eq_true_eq] at h
  exact h.1.1.1

/-- A field write that may not take place leaves the other fields. -/
theorem State.when_put_apart (b : Bool) {x y : Fld} (v : Nat) (hh : x.hi < 32) (hl : x.lo ≤ x.hi)
    (h : x.addr ≠ y.addr ∨ y.hi < x.lo ∨ x.hi < y.lo) : (s.when b fun t => t.put x v).f y = s.f y := by
  cases b with
  | true => exact s.f_put_apart v hh hl h
  | false => rfl

theorem State.when_put_self (b : Bool) (x : Fld) (v : Nat) (hh : x.hi < 32) (hl : x.lo ≤ x.hi) :
    (s.when b fun t => t.put x v).f x = if b = true then v % 2 ^ (x.hi + 1 - x.lo) else s.f x := by
  cases b with
  | true => exact s.f_put x v hh hl
  | false => rfl

/-- A flag write that may not take place. -/
theorem State.when_put_flag (b : Bool) (x : Fld) (f : Bool) (hw : x.hi = x.lo) (hlt : x.lo < 32) :
    (s.when b fun t => t.put x (b2n f)).on x = if b = true then f else s.on x := by
  cases b with
  | true => exact s.on_put_b2n f hw hlt
  | false => rfl

section
variable {c : Nat} (d : Nat) (ack arb : Bool)

theorem State.i2cEnded_busy : (s.i2cEnded c d ack arb).on (I2C_CMD_BUSY c) = false := by
  unfold State.i2cEnded State.on
  rw [State.when_put_apart _ _ _ (by simp) (by simp) (.inr (.inr (by simp))), State.when_put_apart _ _ _ (by simp) (by simp) (.inr (.inr (by simp))),
    State.when_put_apart _ _ _ (by simp) (by simp) (.inr (.inr (by simp))), State.f_put _ _ _ (by simp) (by simp)]
  simp

theorem State.i2cEnded_nack :
    (s.i2cEnded c d ack arb).on (I2C_CMD_NACK c) = if mget s.pin.i2cOp 0 c = 2 then !ack else s.on (I2C_CMD_NACK c) := by
  have hold : ((s.setPin { s.pin with i2cOp := mset s.pin.i2cOp 0 c 0 }).put (I2C_CMD_BUSY c) 0).on (I2C_CMD_NACK c) = s.on (I2C_CMD_NACK c) := by
    rw [State.on_put_apart _ _ (by simp) (by simp) (.inr (.inl (by simp))), State.setPin_on]
  unfold State.i2cEnded
  rw [State.on, State.when_put_apart _ _ _ (by simp) (by simp) (.inr (.inr (by simp))),
    State.when_put_apart _ _ _ (by simp) (by simp) (.inr (.inr (by simp))), ← State.on, State.when_put_flag _ _ _ _ rfl (by simp), hold]
  simp only [beq_iff_eq]

theorem State.i2cEnded_data : (s.i2cEnded c d ack arb).f (I2C_CMD_DATA c) =
    if mget s.pin.i2cOp 0 c = 3 ∨ mget s.pin.i2cOp 0 c = 4 then d % 256 else s.f (I2C_CMD_DATA c) := by
  unfold State.i2cEnded
  rw [State.when_put_apart _ _ _ (by simp) (by simp) (.inr (.inl (by simp))), State.when_put_self _ _ _ _ (by simp) (by simp),
    State.when_put_apart _ _ _ (by simp) (by simp) (.inr (.inl (by simp))), State.f_put_apart _ _ (by simp) (by simp) (.inr (.inl (by simp))),
    State.setPin_f]
  simp only [Bool.or_eq_true, beq_iff_eq]
  rfl

theorem State.i2cEnded_arb : (s.i2cEnded c d ack arb).on (I2C_CMD_ARB_LOST c) = (s.on (I2C_CMD_ARB_LOST c) || arb) := by
  have hold : ∀ t : State, t.f (I2C_CMD_ARB_LOST c) = s.f (I2C_CMD_ARB_LOST c) →
      (t.when arb fun t => t.put (I2C_CMD_ARB_LOST c) 1).on (I2C_CMD_ARB_LOST c) = (s.on (I2C_CMD_ARB_LOST c) || arb) := by
    intro t ht
    cases arb with
    | true => rw [Bool.or_true]; exact t.on_put_one (x := I2C_CMD_ARB_LOST c) rfl (by simp)
    | false => rw [Bool.or_false]; exact congrArg (· == 1) ht
  refine hold _ ?_
  rw [State.when_put_apart _ _ _ (by simp) (by simp) (.inr (.inr (by simp))), State.when_put_apart _ _ _ (by simp) (by simp) (.inr (.inl (by simp))),
    State.f_put_apart _ _ (by simp) (by simp) (.inr (.inl (by simp))), State.setPin_f]

theorem State.i2cEnded_portOnly : State.PortOnly (I2C_CMD c) s (s.i2cEnded c d ack arb) := by
  unfold State.i2cEnded
  exact State.portOnly_when _ (State.portOnly_when _ (State.portOnly_when _ ((s.portOnly_setPin _ _).trans (State.portOnly_put _ (I2C_CMD_BUSY c) _))
    (State.portOnly_put _ (I2C_CMD_NACK c) _)) (State.portOnly_put _ (I2C_CMD_DATA c) _)) (State.portOnly_put _ (I2C_CMD_ARB_LOST c) _)

end

theorem State.raise_i2c {c : Nat} (hc : c < 2) : ((s.raise (386 + c)).reg (HIF_IRQ_STAT 12)).toNat.testBit (2 + c) = true := by
  have h := s.raise_serial_irq (k := 2 + c) (by omega)
  rwa [show 384 + (2 + c) = 386 + c by omega] at h

theorem i2cEvent {c : Nat} (hc : c < 2) : (386 + c) / 32 = 12 := by omega

theorem i2cCommandDone_records {c : Nat} (d : Nat) (ack arb : Bool) (hruns : s.i2cRuns c = true) (hown : s.pinOwner (sdaPin c) = 3) :
    ∃ t, exec (.i2cCommandDone c d ack arb) s = .next t ∧ t.on (I2C_CMD_BUSY c) = false ∧
      t.on (I2C_CMD_NACK c) = (if mget s.pin.i2cOp 0 c = 2 then !ack else s.on (I2C_CMD_NACK c)) ∧
      t.f (I2C_CMD_DATA c) = (if mget s.pin.i2cOp 0 c = 3 ∨ mget s.pin.i2cOp 0 c = 4 then d % 256 else s.f (I2C_CMD_DATA c)) ∧
      t.on (I2C_CMD_ARB_LOST c) = (s.on (I2C_CMD_ARB_LOST c) || arb) ∧ (t.reg (HIF_IRQ_STAT 12)).toNat.testBit (2 + c) = true ∧
      Keeps (fun a => a = I2C_CMD c ∨ a = HIF_IRQ_STAT 12) [.pin, .host, .tail, .mesh] s t := by
  have hc := s.i2cRuns_lt hruns
  have hne : I2C_CMD c ≠ HIF_IRQ_STAT ((386 + c) / 32) := by rw [i2cEvent hc]; exact i2cCmd_ne_irq hc
  refine ⟨_, i2cCommandDone_ends s d ack arb hruns hown, ?_, ?_, ?_, ?_, State.raise_i2c _ hc,
    ((s.i2cEnded_portOnly d ack arb).trans (State.portOnly_raise _ _ (i2cEvent hc))).keeps⟩
  · rw [State.raise_on _ hne, s.i2cEnded_busy]
  · rw [State.raise_on _ hne, s.i2cEnded_nack]
  · rw [State.raise_f _ hne, s.i2cEnded_data]
  · rw [State.raise_on _ hne, s.i2cEnded_arb]

/-- Stretching ends a command with TIMEOUT. -/
theorem i2cTimeout_ends {c : Nat} (hruns : s.i2cRuns c = true) (hown : s.pinOwner (sdaPin c - 1) = 3) :
    ∃ t, exec (.i2cTimeout c) s = .next t ∧ t.on (I2C_CMD_BUSY c) = false ∧ t.on (I2C_CMD_TIMEOUT c) = true ∧
      t.f (I2C_CMD_DATA c) = s.f (I2C_CMD_DATA c) ∧ (t.reg (HIF_IRQ_STAT 12)).toNat.testBit (2 + c) = true ∧
      Keeps (fun a => a = I2C_CMD c ∨ a = HIF_IRQ_STAT 12) [.pin, .host, .tail, .mesh] s t := by
  have hc := s.i2cRuns_lt hruns
  have hne : I2C_CMD c ≠ HIF_IRQ_STAT ((386 + c) / 32) := by rw [i2cEvent hc]; exact i2cCmd_ne_irq hc
  refine ⟨_, congrArg Host.Outcome.next (if_pos (by simp [hruns, hown])), ?_, ?_, ?_, State.raise_i2c _ hc,
    ((((s.portOnly_setPin _ _).trans (State.portOnly_put _ (I2C_CMD_BUSY c) _)).trans (State.portOnly_put _ (I2C_CMD_TIMEOUT c) _)).trans
      (State.portOnly_raise _ _ (i2cEvent hc))).keeps⟩
  · rw [State.raise_on _ hne, State.on_put_apart _ _ (by simp) (by simp) (.inr (.inr (by simp))), State.on_put_zero _ rfl (by simp)]
  · rw [State.raise_on _ hne, State.on_put_one _ rfl (by simp)]
  · rw [State.raise_f _ hne, State.f_put_apart _ _ (by simp) (by simp) (.inr (.inl (by simp))),
      State.f_put_apart _ _ (by simp) (by simp) (.inr (.inl (by simp))), State.setPin_f]

/-! ### SPI (R559, R564) -/

/-- The pins of the chip selects. -/
theorem mem_chipSelects {i : Nat} (h : i ∈ [5, 6, 7, 8]) : i / 32 = 0 := by
  simp only [List.mem_cons, List.not_mem_nil, or_false] at h
  omega

theorem State.spiFollow_f (x : Fld) (hx : x.addr = SPI_CTRL) : (s.pinFollow [5, 6, 7, 8]).f x = s.f x :=
  s.pinFollow_f (by rw [hx]; decide) fun i hi => by rw [hx, mem_chipSelects hi]; decide

theorem State.spiFollow_on (x : Fld) (hx : x.addr = SPI_CTRL) : (s.pinFollow [5, 6, 7, 8]).on x = s.on x :=
  congrArg (· == 1) (s.spiFollow_f x hx)

/-- The frame of a change of the SPI that the chip selects follow. -/
theorem State.spiFollow_keeps {u : State} (hu : Only 656897 s u) (hreg : ∀ a, a ≠ SPI_CTRL → u.reg a = s.reg a) :
    Keeps (fun a => a = SPI_CTRL ∨ a = PIN_GPIO_IN 0 ∨ a = HIF_IRQ_STAT 12) [.pin, .host, .tail, .mesh] s (u.pinFollow [5, 6, 7, 8]) :=
  s.pinFollow_keeps hu (fun _ => mem_chipSelects) fun a ha => by
    obtain ⟨hctrl, hin, hirq⟩ : a ≠ SPI_CTRL ∧ a ≠ PIN_GPIO_IN 0 ∧ a ≠ HIF_IRQ_STAT 12 := by simpa only [not_or] using ha
    exact ⟨hreg a hctrl, hin, hirq⟩

/-- A frame written to the SPI with room. -/
theorem spiTx_queues (v : Nat) (hopen : s.blockGated 38 = false) (hroom : s.pin.spiTx.length < 16) :
    ∃ t, exec (.spiTx v) s = .next t ∧ t.pin.spiTx = s.pin.spiTx ++ [v % 256] ∧ t.on SPI_CTRL_BUSY = true ∧ t.pin.spiRx = s.pin.spiRx ∧
      Keeps (fun a => a = SPI_CTRL ∨ a = PIN_GPIO_IN 0 ∨ a = HIF_IRQ_STAT 12) [.pin, .host, .tail, .mesh] s t := by
  have hexec : exec (.spiTx v) s = .next (s.spiPush v) := congrArg Host.Outcome.next (s.toBlock_open hopen _)
  refine ⟨_, hexec.trans (congrArg _ (if_pos hroom)), State.pinFollow_pin _ Pins.spiTx (fun _ _ => rfl) _, ?_,
    State.pinFollow_pin _ Pins.spiRx (fun _ _ => rfl) _, s.spiFollow_keeps ((put_only _ _ _).after (by decide) ((setPin_only _ _).mono (by decide)))
      fun a ha => ?_⟩
  · rw [State.spiFollow_on _ _ rfl, State.on_put_one _ rfl (by decide)]
  · rw [State.reg_put_ne _ _ (Ne.symm ha), State.setPin_reg]

/-- A read of SPI_DATA takes the frame at the head. -/
theorem spiData_pops {x0 : Nat} {l : List Nat} (hopen : s.blockGated 38 = false) (hhead : s.pin.spiRx = x0 :: l) (hlen : l.length < 16) :
    ∃ t, exec .spiData s = .next t ∧ t.pin = { s.pin with spiRx := l } ∧ t.f SPI_CTRL_RX_COUNT = l.length ∧
      Keeps (fun a => a = SPI_CTRL) [.pin] s t := by
  have hexec : exec .spiData s = .next s.spiPop := congrArg Host.Outcome.next (s.toBlock_open hopen _)
  have hpop : s.spiPop = (s.setPin { s.pin with spiRx := l }).put SPI_CTRL_RX_COUNT l.length := by
    unfold State.spiPop
    rw [hhead]
    rfl
  refine ⟨_, hexec.trans (congrArg _ hpop), rfl, ?_, s.setPin_put_keeps _ SPI_CTRL_RX_COUNT _⟩
  rw [State.f_put _ _ _ (by decide) (by decide)]
  exact Nat.mod_eq_of_lt (show l.length < 32 by omega)

/-- The frame in exchange is stored. -/
def State.spiShifted (l : List Nat) (v : Nat) : State :=
  (s.setPin { s.pin with spiTx := l, spiRx := s.pin.spiRx ++ [v % 256] }).put SPI_CTRL_RX_COUNT (s.pin.spiRx ++ [v % 256]).length

theorem spiFrameDone_shifts {x0 : Nat} {l : List Nat} (v : Nat) (hhead : s.pin.spiTx = x0 :: l) (hen : s.on PIN_PERIPH_EN_SPI = true)
    (hrun : s.periphRun = true) (hpin : s.pinOwner 4 = 4) (hroom : s.pin.spiRx.length < 16) :
    exec (.spiFrameDone v) s = .next (if l.isEmpty = true then
      (((s.spiShifted l v).put SPI_CTRL_BUSY 0).pinFollow [5, 6, 7, 8]).when ((s.spiShifted l v).on SPI_CTRL_IRQ) (fun t => t.raise (384 + 4))
    else s.spiShifted l v) := by
  show execSpiFrameDone v s = _
  unfold execSpiFrameDone
  rw [hhead]
  dsimp only
  rw [hen, hrun, if_pos hpin, if_pos hroom]
  rfl

section
variable (l : List Nat) (v : Nat)

theorem State.spiShifted_count (hroom : s.pin.spiRx.length < 16) : (s.spiShifted l v).f SPI_CTRL_RX_COUNT = s.pin.spiRx.length + 1 := by
  unfold State.spiShifted
  rw [State.f_put _ _ _ (by decide) (by decide), List.length_append]
  exact Nat.mod_eq_of_lt (show s.pin.spiRx.length + 1 < 32 by omega)

theorem State.spiShifted_busy : (s.spiShifted l v).on SPI_CTRL_BUSY = s.on SPI_CTRL_BUSY := by
  unfold State.spiShifted
  rw [State.on_put_apart _ _ (by decide) (by decide) (by decide), State.setPin_on]

theorem State.spiShifted_irq : (s.spiShifted l v).on SPI_CTRL_IRQ = s.on SPI_CTRL_IRQ := by
  unfold State.spiShifted
  rw [State.on_put_apart _ _ (by decide) (by decide) (by decide), State.setPin_on]

theorem State.spiShifted_reg {a : Nat} (ha : a ≠ SPI_CTRL) : (s.spiShifted l v).reg a = s.reg a := by
  unfold State.spiShifted
  rw [State.reg_put_ne _ _ (Ne.symm ha), State.setPin_reg]

theorem State.spiShifted_only : Only 656897 s (s.spiShifted l v) := (put_only _ _ _).after (by decide) ((setPin_only _ _).mono (by decide))

end

/-- The frame at the head has been exchanged. -/
theorem spiFrameDone_stores {x0 : Nat} {l : List Nat} (v : Nat) (hhead : s.pin.spiTx = x0 :: l) (hen : s.on PIN_PERIPH_EN_SPI = true)
    (hrun : s.periphRun = true) (hpin : s.pinOwner 4 = 4) (hroom : s.pin.spiRx.length < 16) : ∃ t, exec (.spiFrameDone v) s = .next t ∧
      t.pin.spiTx = l ∧ t.pin.spiRx = s.pin.spiRx ++ [v % 256] ∧ t.f SPI_CTRL_RX_COUNT = s.pin.spiRx.length + 1 ∧
      t.on SPI_CTRL_BUSY = (s.on SPI_CTRL_BUSY && decide (l ≠ [])) ∧
      (l = [] → s.on SPI_CTRL_IRQ = true → (t.reg (HIF_IRQ_STAT 12)).toNat.testBit 4 = true) ∧
      Keeps (fun a => a = SPI_CTRL ∨ a = PIN_GPIO_IN 0 ∨ a = HIF_IRQ_STAT 12) [.pin, .host, .tail, .mesh] s t := by
  refine ⟨_, spiFrameDone_shifts s v hhead hen hrun hpin hroom, ?_⟩
  cases l with
  | cons y l =>
    rw [if_neg (by simp)]
    refine ⟨rfl, rfl, s.spiShifted_count _ v hroom, ?_, fun h => absurd h (List.cons_ne_nil _ _),
      (s.spiShifted_only _ v).keeps fun a ha => s.spiShifted_reg _ v (not_or.1 ha).1⟩
    rw [s.spiShifted_busy, decide_eq_true (List.cons_ne_nil _ _), Bool.and_true]
  | nil =>
    rw [List.isEmpty_nil, if_pos rfl]
    have hpinned : ∀ {β : Type} (p : Pins → β) (_ : ∀ x l, p { x with trigIn := l } = p x) (b : Bool),
        p ((((s.spiShifted [] v).put SPI_CTRL_BUSY 0).pinFollow [5, 6, 7, 8]).when b fun t => t.raise (384 + 4)).pin = p (s.spiShifted [] v).pin := by
      intro β p hp b
      rw [State.when_raise_pin]
      exact State.pinFollow_pin _ p hp _
    have hkeeps := s.spiFollow_keeps ((put_only (s.spiShifted [] v) SPI_CTRL_BUSY 0).after (by decide) (s.spiShifted_only [] v)) fun a ha =>
      (State.reg_put_ne (x := SPI_CTRL_BUSY) _ _ (Ne.symm ha)).trans (s.spiShifted_reg [] v ha)
    refine ⟨hpinned Pins.spiTx (fun _ _ => rfl) _, hpinned Pins.spiRx (fun _ _ => rfl) _, ?_, ?_, fun _ hirq => ?_, ?_⟩
    · rw [State.when_raise_f _ _ (by decide) (by decide), State.spiFollow_f _ _ rfl, State.f_put_apart _ _ (by decide) (by decide) (by decide),
        s.spiShifted_count _ _ hroom]
    · rw [State.when_raise_on _ _ (by decide) (by decide), State.spiFollow_on _ _ rfl, State.on_put_zero _ rfl (by decide)]
      simp
    · rw [State.when_pos _ ((s.spiShifted_irq [] v).trans hirq)]
      exact State.raise_serial_irq _ (by decide)
    · refine Keeps.trans hkeeps (Only.keeps (m := 656897) (.when _ _ (fun _ => (raise_only _ _).mono (by decide)) .refl) fun a ha => ?_)
      have hirq : a ≠ HIF_IRQ_STAT 12 := fun e => ha (.inr (.inr e))
      unfold State.when
      split
      · exact State.raise_reg _ hirq
      · rfl

/-- While the peripherals are gated their data and command registers change nothing (R161). -/
theorem serial_gated (u v : Nat) (f : Bool) (x : Instr) (h : s.blockGated 38 = true) (hx : x ∈ [.uartTx u v, .uartData u, .i2cStart u f,
    .i2cWrite u v f, .i2cReadAck u f, .i2cReadNack u f, .i2cStop u f, .spiTx v, .spiData]) : exec x s = .next s := by
  have hblock : ∀ g : State → State, (if u < 2 then s.toBlock 38 g else s) = s := fun g => by rw [State.toBlock_gated _ h, ite_self]
  simp only [List.mem_cons, List.not_mem_nil, or_false] at hx
  rcases hx with rfl | rfl | rfl | rfl | rfl | rfl | rfl | rfl | rfl
  iterate 7 exact congrArg _ (hblock _)
  iterate 2 exact congrArg _ (s.toBlock_gated h _)

/-- A command of I2C that is written while BUSY is 0. -/
theorem i2cCommand_runs {c op : Nat} (v : Nat) (fast : Bool) (hc : c < 2) (hopen : s.blockGated 38 = false)
    (hfree : s.on (I2C_CMD_BUSY c) = false) (hop : 1 ≤ op ∧ op ≤ 5) : ∃ t, Host.Outcome.next (s.i2cCommand c op v fast) = (.next t : Out) ∧
      t.on (I2C_CMD_BUSY c) = true ∧ mget t.pin.i2cOp 0 c = op ∧ t.f (I2C_CMD_FAST c) = b2n fast ∧ t.f (I2C_CMD_DATA c) = v % 256 ∧
      t.on (I2C_CMD_ARB_LOST c) = s.on (I2C_CMD_ARB_LOST c) ∧ Keeps (fun a => a = I2C_CMD c) [.pin] s t :=
  ⟨_, congrArg _ (i2cCommand_taken s v fast hc hopen hfree hop), s.i2cTaken_busy op v fast, s.i2cTaken_op op v fast, s.i2cTaken_fast op v fast,
    s.i2cTaken_data op v fast, s.i2cTaken_arb op v fast, s.i2cTaken_keeps op v fast⟩

/-- A command without data keeps DATA. -/
theorem i2cCommand_keepsData {c op : Nat} (fast : Bool) (hc : c < 2) (hopen : s.blockGated 38 = false)
    (hfree : s.on (I2C_CMD_BUSY c) = false) (hop : 1 ≤ op ∧ op ≤ 5) :
    ∃ t, Host.Outcome.next (s.i2cCommand c op (s.f (I2C_CMD_DATA c)) fast) = (.next t : Out) ∧ t.on (I2C_CMD_BUSY c) = true ∧
      mget t.pin.i2cOp 0 c = op ∧ t.f (I2C_CMD_FAST c) = b2n fast ∧ t.f (I2C_CMD_DATA c) = s.f (I2C_CMD_DATA c) ∧
      t.on (I2C_CMD_ARB_LOST c) = s.on (I2C_CMD_ARB_LOST c) ∧ Keeps (fun a => a = I2C_CMD c) [.pin] s t := by
  have hkept : s.f (I2C_CMD_DATA c) % 256 = s.f (I2C_CMD_DATA c) := Nat.mod_eq_of_lt (s.i2cData_lt c)
  have h := i2cCommand_runs s (s.f (I2C_CMD_DATA c)) fast hc hopen hfree hop
  rwa [hkept] at h

end

/-- Settles O58: each port's FIFOs and command register by the rules of its own operations. -/
theorem serialPorts : Obligations.SerialPorts := by
  unfold Obligations.SerialPorts
  intro s
  refine ⟨fun u v hu hopen hroom => uartTx_queues s v hu hopen hroom, fun u n hon hbusy => uartTransmitDone_sends s n hon hbusy,
    fun u v err hon hpin hroom => uartReceive_queues s v err hon hpin hroom, fun u v err hon hpin hfull => uartReceive_loses s v err hon hpin hfull,
    fun u x0 l hu hopen hhead hlen => uartData_pops s hu hopen hhead hlen,
    fun c fast hc hopen hfree => i2cCommand_keepsData s (op := 1) fast hc hopen hfree (by decide),
    fun c v fast hc hopen hfree => i2cCommand_runs s (op := 2) v fast hc hopen hfree (by decide),
    fun c fast hc hopen hfree => i2cCommand_keepsData s (op := 3) fast hc hopen hfree (by decide),
    fun c fast hc hopen hfree => i2cCommand_keepsData s (op := 4) fast hc hopen hfree (by decide),
    fun c fast hc hopen hfree => i2cCommand_keepsData s (op := 5) fast hc hopen hfree (by decide),
    fun c d ack arb hruns hown => i2cCommandDone_records s d ack arb hruns hown, fun c hruns hown => i2cTimeout_ends s hruns hown,
    fun v hopen hroom => spiTx_queues s v hopen hroom,
    fun v x0 l hhead hen hrun hpin hroom => spiFrameDone_stores s v hhead hen hrun hpin hroom,
    fun x0 l hopen hhead hlen => spiData_pops s hopen hhead hlen, fun u v f x h hx => serial_gated s u v f x h hx⟩

end Sys2Proof.Machine
end

section
/-! SUPPORT. How a station core completes an instruction (R435, R448): the issue of an instruction word, the core that goes on at the next PC,
and an exception (R454 to R456). -/

namespace Sys2Proof.Machine

/-! ### The issue of an instruction -/

/-- A field that is written with its own value leaves the word. -/
theorem fput_fget (w : Word) {hi lo : Nat} (hh : hi < 32) (hl : lo ≤ hi) : fput w hi lo (fget w hi lo) = w := by
  refine BitVec.eq_of_getLsbD_eq fun i hi' => ?_
  rw [fput_getLsbD _ _ _ _ _ hh hl]
  split
  next h =>
    rw [fget_testBit, decide_eq_true (by omega), Bool.true_and, Nat.add_sub_cancel' h.1]
  next => rfl

section
variable (s : State) {c : Nat}

theorem State.put_same {x : Fld} {v : Nat} (hh : x.hi < 32) (hl : x.lo ≤ x.hi) (h : s.f x = v) (a : Nat) : (s.put x v).reg a = s.reg a := by
  rw [State.reg_put]
  split
  next ha => rw [← ha, ← h]; exact fput_fget _ hh hl
  next => rfl

theorem State.pcOf_lt : s.pcOf c < 2 ^ 17 := by
  have hpc : s.f (ST_STAT_PC c) < 2 ^ 16 := BitVec.isLt _
  have hpcr : s.f (ST_STAT_PCR c) < 2 ^ 1 := BitVec.isLt _
  unfold State.pcOf
  omega

theorem nextPc_lt {pc : Nat} (h : pc < 2 ^ 17) : nextPc pc < 2 ^ 17 := by
  unfold nextPc
  omega

theorem State.setCore_reg (x : Core) (a : Nat) : (s.setCore c x).reg a = s.reg a := rfl

theorem State.setCore_f (x : Core) (y : Fld) : (s.setCore c x).f y = s.f y := rfl

theorem State.setCore_pcOf (x : Core) (d : Nat) : (s.setCore c x).pcOf d = s.pcOf d := rfl

theorem State.setCore_coreSt (x : Core) (d : Nat) : (s.setCore c x).coreSt d = s.coreSt d := rfl

theorem State.put_coreOf (x : Fld) (v d : Nat) : (s.put x v).coreOf d = s.coreOf d := rfl

theorem State.setPc_coreOf (v d : Nat) : (s.setPc c v).coreOf d = s.coreOf d := rfl

theorem State.setPc_reg (v : Nat) {a : Nat} (ha : a ≠ ST_STAT c) : (s.setPc c v).reg a = s.reg a := by
  unfold State.setPc
  rw [State.reg_put_ne _ _ (Ne.symm ha), State.reg_put_ne _ _ (Ne.symm ha)]

theorem State.setPc_pcOf (v : Nat) : (s.setPc c v).pcOf c = v % 2 ^ 17 := by
  unfold State.pcOf State.setPc
  rw [State.f_put_apart _ _ (by simp) (by simp) (.inr (.inl (by simp))), State.f_put _ _ _ (by simp) (by simp),
    State.f_put _ _ _ (by simp) (by simp)]
  show v % 2 ^ 16 + 2 ^ 16 * (v / 2 ^ 16 % 2 ^ 1) = v % 2 ^ 17
  omega

theorem State.setPc_coreSt (v : Nat) : (s.setPc c v).coreSt c = s.coreSt c := by
  unfold State.coreSt State.setPc
  rw [State.f_put_apart _ _ (by simp) (by simp) (.inr (.inr (by simp))), State.f_put_apart _ _ (by simp) (by simp) (.inr (.inr (by simp)))]

/-- The state in which core `c` takes an instruction. -/
def State.issuing (c : Nat) : State := s.put (ST_STAT_STATE c) 1

theorem State.issuing_coreOf (d : Nat) : (s.issuing c).coreOf d = s.coreOf d := rfl

theorem State.issuing_reg (h : s.coreSt c = 1) (a : Nat) : (s.issuing c).reg a = s.reg a := s.put_same (by simp) (by simp) h a

theorem State.issuing_pcOf (h : s.coreSt c = 1) : (s.issuing c).pcOf c = s.pcOf c := by
  unfold State.pcOf
  rw [State.f_of_reg (s.issuing_reg h _), State.f_of_reg (s.issuing_reg h _)]

theorem State.issuing_only : Only 1 s (s.issuing c) := put_only _ _ _

/-- A clean word is read without an event. -/
theorem State.coreMemRead_of_clean {m i d : Nat} (h : decode32 ((s.coreOf c).memRaw m i) = .clean d) : s.coreMemRead c m i = (s, .clean d) := by
  unfold State.coreMemRead
  rw [h]

variable {w : Word} {k : Nat}

/-- A core that issues an instruction takes it, and what it answers is retired. -/
theorem State.coreCmd_of_issues (h : s.Issues c w k) (f : Nat → Word → State → CRes) :
    s.coreCmd c w k f = (s.issuing c).retire c (s.pcOf c) false
      (lastCheck (s.issuing c) ((s.coreOf c).lastOf (s.pcOf c) && noBlockEnd k) (f c w (s.issuing c))) := by
  obtain ⟨hc, hcan, hrun, hbp, hkind, hword⟩ := h
  unfold State.coreCmd
  rw [hcan, decide_eq_true hc, hbp, Bool.and_self, if_pos rfl]
  dsimp only
  rw [hkind]
  obtain ⟨hrom, hlow⟩ | ⟨hp, hclean⟩ := hword
  · rw [if_pos hrom, if_pos hlow]
    simp only [if_true]
    rfl
  · rw [if_neg (by omega), s.coreMemRead_of_clean hclean]
    simp only [if_true, Decoded.bad, Decoded.data]
    rfl

theorem Core.lastOf_of_flat {x : Core} (h : x.ctlReg 5 = 0) (pc : Nat) : x.lastOf pc = false := by
  unfold Core.lastOf
  rw [h]
  rfl

theorem endTest_of_not_last {x : Core} {pc : Nat} (h : x.lastOf pc = false) (n : Nat) : endTest n pc x = (x, none) := by
  cases n with
  | zero => rfl
  | succ n => rw [endTest, h, if_neg Bool.false_ne_true]

/-- Outside a repeat block an instruction is taken as it is. -/
theorem State.coreCmd_of_flat (h : s.Issues c w k) (hflat : (s.coreOf c).ctlReg 5 = 0) (f : Nat → Word → State → CRes) :
    s.coreCmd c w k f = (s.issuing c).retire c (s.pcOf c) false (f c w (s.issuing c)) := by
  rw [s.coreCmd_of_issues h, Core.lastOf_of_flat hflat, Bool.false_and]
  rfl

/-! ### The core goes on (R448, R499) -/

/-- Core `c` has become `x` and goes on at `pc`. -/
def State.goesOn (c : Nat) (x : Core) (pc : Nat) : State := ((s.setCore c x).setPc c pc).setCore c x

/-- An instruction that completes, outside a repeat block and without a step. -/
theorem State.retire_done (s0 : State) {x : Core} {pc : Nat} (hx : s.coreOf c = x) (hflat : x.ctlReg 5 = 0) (hstep : x.stepping = false)
    (hskip : x.skipBp = false) : s0.retire c pc false (.done s) = s.goesOn c x (nextPc pc) := by
  have hkept : { x with skipBp := false, stepping := false } = x := by
    cases x
    cases hstep
    cases hskip
    rfl
  have hcore : ((s.setCore c x).setPc c (nextPc pc)).coreOf c = x := State.coreOf_setCore_self _ _ _
  show State.afterInsn ((s.setCore c (endTest 4 pc (s.coreOf c)).1).setPc c ((endTest 4 pc (s.coreOf c)).2.getD (nextPc pc))) c = _
  rw [hx, endTest_of_not_last (Core.lastOf_of_flat hflat pc)]
  dsimp only
  unfold State.afterInsn
  rw [Option.getD_none, hcore]
  dsimp only
  rw [hkept, hstep, if_neg Bool.false_ne_true]
  rfl

/-- The command of an instruction that changes its core alone is a step of the core. -/
theorem State.coreStep_of_goesOn {t : State} {x : Core} {pc : Nat} (hrun : s.coreSt c = 1) (ht : Only 8193 s t)
    (hothers : ∀ d, d ≠ c → t.coreOf d = s.coreOf d) (hreg : ∀ a, t.reg a = s.reg a) (hpc : pc < 2 ^ 17) :
    s.CoreStep (t.goesOn c x pc) c x pc := by
  unfold State.goesOn
  refine ⟨State.coreOf_setCore_self _ _ _, ?_, ?_, fun d hd => ?_, ?_⟩
  · rw [State.setCore_pcOf, State.setPc_pcOf, Nat.mod_eq_of_lt hpc]
  · rw [State.setCore_coreSt, State.setPc_coreSt, State.setCore_coreSt]
    exact (State.f_of_reg (x := ST_STAT_STATE c) (hreg _)).trans hrun
  · rw [State.coreOf_setCore_ne _ _ (Ne.symm hd), State.setPc_coreOf, State.coreOf_setCore_ne _ _ (Ne.symm hd), hothers d hd]
  · refine ((setCore_only _ _ _).after (by decide) ((setPc_only _ _ _).after (by decide) ((setCore_only _ _ _).after (by decide) ht)) :
      Only 8193 _ _).keeps fun a ha => ?_
    rw [State.setCore_reg, State.setPc_reg _ _ ha, State.setCore_reg, hreg]

end

end Sys2Proof.Machine
end

section
/-! SUPPORT. The ALU format of a station core (R470): operands, results and flags. -/

namespace Sys2Proof.Machine

/-! ### Results and flags -/

theorem aluZN_of_lt {r : Nat} (hr : r < 2 ^ 16) (c v : Option Bool) : aluZN r c v = ⟨r, some (r == 0), some (r.testBit 15), c, v⟩ := by
  unfold aluZN
  rw [Nat.mod_eq_of_lt hr]

/-- An operation shows the low 16 bits of its exact result. -/
theorem aluZN_mod (r : Nat) (c v : Option Bool) : aluZN r c v = aluZN (r % 2 ^ 16) c v := by
  unfold aluZN
  rw [Nat.mod_mod, Nat.testBit_mod_two_pow]
  rfl

theorem sext_16 {a : Nat} (ha : a < 2 ^ 16) : sext 16 a = if a < 2 ^ 15 then (a : Int) else (a : Int) - 2 ^ 16 := by
  unfold sext
  rw [Nat.mod_eq_of_lt ha]

/-- The one's complement of an operand is, as a signed number, its negative less one. -/
theorem sext_16_complement {b : Nat} (hb : b < 2 ^ 16) : sext 16 (65535 - b) = - sext 16 b - 1 := by
  rw [sext_16 hb, sext_16 (by omega)]
  split <;> split <;> omega

section
variable {a b : Nat} (ha : a < 2 ^ 16) (hb : b < 2 ^ 16)
include ha hb

theorem add16_eq (cin : Bool) : add16 a b cin = aluZN ((a + b + b2n cin) % 2 ^ 16) (some (decide (2 ^ 16 ≤ a + b + b2n cin)))
    (some (decide (sext 16 a + sext 16 b + (b2n cin : Nat) < -32768 ∨ 32767 < sext 16 a + sext 16 b + (b2n cin : Nat)))) := by
  unfold add16
  rw [← aluZN_mod, Nat.mod_eq_of_lt ha, Nat.mod_eq_of_lt hb]

/-- A difference is the sum with the one's complement and the carry. -/
theorem sub16_eq (cin : Bool) : sub16 a b cin = aluZN ((a + 2 ^ 16 - b - 1 + b2n cin) % 2 ^ 16) (some (decide (b + 1 ≤ a + b2n cin)))
    (some (decide (sext 16 a - sext 16 b - 1 + (b2n cin : Nat) < -32768 ∨ 32767 < sext 16 a - sext 16 b - 1 + (b2n cin : Nat)))) := by
  have hsum : a + (65535 - b) + b2n cin = a + 2 ^ 16 - b - 1 + b2n cin := by omega
  have hcarry : 2 ^ 16 ≤ a + 2 ^ 16 - b - 1 + b2n cin ↔ b + 1 ≤ a + b2n cin := by omega
  have hexact : sext 16 a + sext 16 (65535 - b) + (b2n cin : Nat) = sext 16 a - sext 16 b - 1 + (b2n cin : Nat) := by
    rw [sext_16_complement hb]
    omega
  unfold sub16
  rw [Nat.mod_eq_of_lt hb, add16_eq ha (by omega), hsum, hexact]
  simp only [hcarry]

theorem add16_false : add16 a b false = aluZN ((a + b) % 2 ^ 16) (some (decide (2 ^ 16 ≤ a + b)))
    (some (decide (sext 16 a + sext 16 b < -32768 ∨ 32767 < sext 16 a + sext 16 b))) := by
  have h := add16_eq ha hb false
  simpa only [b2n, Bool.false_eq_true, if_false, Nat.add_zero, Nat.cast_zero, add_zero] using h

theorem sub16_true : sub16 a b true = aluZN ((a + 2 ^ 16 - b) % 2 ^ 16) (some (decide (b ≤ a)))
    (some (decide (sext 16 a - sext 16 b < -32768 ∨ 32767 < sext 16 a - sext 16 b))) := by
  have h := sub16_eq ha hb true
  have hsum : a + 2 ^ 16 - b - 1 + 1 = a + 2 ^ 16 - b := by omega
  simpa only [b2n, if_true, hsum, Nat.cast_one, Nat.add_le_add_iff_right, sub_add_cancel] using h

end

section
variable (x : Core) (w : Word)

/-- Operands have 16 bits. -/
theorem Core.aluOperands_lt {a b : Nat} (h : x.aluOperands w = (a, b)) : a < 2 ^ 16 ∧ b < 2 ^ 16 := by
  have hd (i : Nat) : x.dReg i < 2 ^ 16 := BitVec.isLt _
  have hv (i : Nat) : x.vReg i < 2 ^ 16 := BitVec.isLt _
  have himm : fget w 15 0 < 2 ^ 16 := BitVec.isLt _
  obtain ⟨rfl, rfl⟩ := Prod.mk.inj h
  refine ⟨?_, ?_⟩
  · split
    · exact hv _
    · exact hd _
  · split
    · exact himm
    · split
      · exact hv _
      · exact hd _

theorem Core.setCtl_ctlReg {i j v : Nat} (h : i ≠ j) : (x.setCtl i v).ctlReg j = x.ctlReg j := by
  unfold Core.setCtl Core.ctlReg
  rw [mget_mset_ne _ _ _ _ _ _ h]

/-- What an instruction leaves of the control of the core: its repeat levels, its step, its first-instruction mark. -/
def Core.SameControl (x y : Core) : Prop := y.ctlReg 5 = x.ctlReg 5 ∧ y.stepping = x.stepping ∧ y.skipBp = x.skipBp

theorem Core.aluDest_sameControl (v : Nat) : x.SameControl (x.aluDest w v) := by
  unfold Core.aluDest
  split <;> exact ⟨rfl, rfl, rfl⟩

theorem Core.setCtl_sameControl {i : Nat} (v : Nat) (h : i ≠ 5) : x.SameControl (x.setCtl i v) := ⟨x.setCtl_ctlReg h, rfl, rfl⟩

theorem Core.SameControl.trans {x y z : Core} (h : x.SameControl y) (g : y.SameControl z) : x.SameControl z :=
  ⟨g.1.trans h.1, g.2.1.trans h.2.1, g.2.2.trans h.2.2⟩

end

/-! ### The step of a core -/

section
variable (s : State) {c : Nat} {w : Word} {k : Nat}

/-- An instruction that changes its core to `x` and leaves its control is a step of the core to the next PC. -/
theorem State.coreCmd_steps (h : s.Issues c w k) (hflows : s.Flows c) {f : Nat → Word → State → CRes} {x : Core} {t : State}
    (hf : f c w (s.issuing c) = .done t) (hx : t.coreOf c = x) (hsame : (s.coreOf c).SameControl x) (ht : Only 8192 (s.issuing c) t)
    (hothers : ∀ d, d ≠ c → t.coreOf d = s.coreOf d) :
    ∃ u, Host.Outcome.next (s.coreCmd c w k f) = (.next u : Out) ∧ s.CoreStep u c x (nextPc (s.pcOf c)) := by
  obtain ⟨hflat, hstep, hskip⟩ := hflows
  obtain ⟨hctl, hstepping, hskipBp⟩ := hsame
  have hrun : s.coreSt c = 1 := h.2.2.1
  refine ⟨_, congrArg _ ((s.coreCmd_of_flat h hflat f).trans ?_),
    s.coreStep_of_goesOn hrun (ht.after (by decide) (s.issuing_only.mono (by decide))) hothers (fun a => ?_) (nextPc_lt s.pcOf_lt)⟩
  · rw [hf]
    exact t.retire_done _ hx (hctl.trans hflat) (hstepping.trans hstep) (hskipBp.trans hskip)
  · rw [State.reg_congr (ht.regs (by decide)), s.issuing_reg hrun]

/-- The ALU instruction that shows `o`. -/
theorem State.coreCmd_alu (h : s.Issues c w k) (hflows : s.Flows c) {op : Nat} {o : AluOut} {y : Core}
    (hrun : aluRun op ((s.coreOf c).aluOperands w).1 ((s.coreOf c).aluOperands w).2 ((s.coreOf c).sr.testBit srC) (s.freeVal.testBit 0) = o)
    (hy : (if op = 10 ∨ op = 11 then s.coreOf c else (s.coreOf c).aluDest w o.val) = y) :
    ∃ u, Host.Outcome.next (s.coreCmd c w k (insnAlu op)) = (.next u : Out) ∧
      s.CoreStep u c (y.setCtl 0 (setFlags (s.coreOf c).sr o.z o.n o.c o.v)) (nextPc (s.pcOf c)) := by
  have hsame : (s.coreOf c).SameControl y := by
    rw [← hy]
    split
    · exact ⟨rfl, rfl, rfl⟩
    · exact Core.aluDest_sameControl _ _ _
  subst hrun hy
  refine s.coreCmd_steps h hflows rfl ?_ (hsame.trans (Core.setCtl_sameControl _ _ (by decide))) ?_ fun d hd => ?_
  · split
    · exact State.coreOf_setCore_self _ _ _
    · exact State.coreOf_setCore_self _ _ _
  · exact .ite ((freeNext_only _).after (by decide) (setCore_only _ _ _)) (setCore_only _ _ _)
  · split
    · exact State.coreOf_setCore_ne _ _ (Ne.symm hd)
    · exact State.coreOf_setCore_ne _ _ (Ne.symm hd)

/-- An ALU instruction that writes RD. -/
theorem State.coreCmd_aluDest (h : s.Issues c w k) (hflows : s.Flows c) {op a b r : Nat} {cf vf : Option Bool}
    (hops : (s.coreOf c).aluOperands w = (a, b)) (hop : op ≠ 10 ∧ op ≠ 11)
    (hrun : aluRun op a b ((s.coreOf c).sr.testBit srC) (s.freeVal.testBit 0) = aluZN r cf vf) (hr : r < 2 ^ 16) :
    ∃ u, Host.Outcome.next (s.coreCmd c w k (insnAlu op)) = (.next u : Out) ∧
      s.CoreStep u c (((s.coreOf c).aluDest w r).setCtl 0 (setFlags (s.coreOf c).sr (some (r == 0)) (some (r.testBit 15)) cf vf))
        (nextPc (s.pcOf c)) := by
  rw [aluZN_of_lt hr] at hrun
  refine s.coreCmd_alu h hflows (o := ⟨r, some (r == 0), some (r.testBit 15), cf, vf⟩) ?_ (if_neg fun h => h.elim hop.1 hop.2)
  rw [hops]
  exact hrun

/-- An ALU instruction that sets flags alone. -/
theorem State.coreCmd_aluFlags (h : s.Issues c w k) (hflows : s.Flows c) {op a b r : Nat} {cf vf : Option Bool}
    (hops : (s.coreOf c).aluOperands w = (a, b)) (hop : op = 10 ∨ op = 11)
    (hrun : aluRun op a b ((s.coreOf c).sr.testBit srC) (s.freeVal.testBit 0) = aluZN r cf vf) (hr : r < 2 ^ 16) :
    ∃ u, Host.Outcome.next (s.coreCmd c w k (insnAlu op)) = (.next u : Out) ∧
      s.CoreStep u c ((s.coreOf c).setCtl 0 (setFlags (s.coreOf c).sr (some (r == 0)) (some (r.testBit 15)) cf vf)) (nextPc (s.pcOf c)) := by
  rw [aluZN_of_lt hr] at hrun
  refine s.coreCmd_alu h hflows (o := ⟨r, some (r == 0), some (r.testBit 15), cf, vf⟩) ?_ (if_pos hop)
  rw [hops]
  exact hrun

end

/-! ### Shifts -/

section
variable {a : Nat} (ha : a < 2 ^ 16) (b : Nat) (free : Bool)
include ha

theorem shl16_eq (hb : b % 16 ≠ 0) : shl16 a b free = aluZN (a * 2 ^ (b % 16) % 2 ^ 16) (some (a.testBit (16 - b % 16))) none := by
  unfold shl16
  rw [Nat.mod_eq_of_lt ha, aluZN_mod, if_neg hb]

theorem shr16_eq (hb : b % 16 ≠ 0) : shr16 a b free = aluZN (a / 2 ^ (b % 16)) (some (a.testBit (b % 16 - 1))) none := by
  unfold shr16
  dsimp only
  rw [Nat.mod_eq_of_lt ha, if_neg hb]

omit ha in
theorem sar16_eq (hb : b % 16 ≠ 0) :
    sar16 a b free = aluZN (wrap 16 (sext 16 a / 2 ^ (b % 16))) (some (a.testBit (b % 16 - 1))) none := by
  unfold sar16
  dsimp only
  rw [if_neg hb]

/-- A shift by 0 gives the operand and leaves C free. -/
theorem shift16_zero (hb : b % 16 = 0) : shl16 a b free = aluZN a (some free) none ∧ shr16 a b free = aluZN a (some free) none ∧
    sar16 a b free = aluZN a (some free) none := by
  have hwrap : wrap 16 (sext 16 a) = a := by
    unfold wrap
    rw [sext_16 ha]
    split <;> omega
  unfold shl16 shr16 sar16
  refine ⟨?_, ?_, ?_⟩
  · simp only [hb, Nat.mod_eq_of_lt ha, pow_zero, Nat.mul_one, if_true]
  · simp only [hb, Nat.mod_eq_of_lt ha, pow_zero, Nat.div_one, if_true]
  · simp only [hb, pow_zero, Int.ediv_one, hwrap, if_true]

end

theorem wrap_16_lt (i : Int) : wrap 16 i < 2 ^ 16 := wrap_lt _ _

/-- Settles O42: one rule for the instructions that write RD and one for those that set flags alone, with the result of each operation. -/
theorem coreAlu : Obligations.CoreAlu := by
  unfold Obligations.CoreAlu
  intro s
  have hbound (c : Nat) (w : Word) {a b : Nat} (h : (s.coreOf c).aluOperands w = (a, b)) := (s.coreOf c).aluOperands_lt w h
  have hmod (r : Nat) : r % 2 ^ 16 < 2 ^ 16 := Nat.mod_lt _ (by decide)
  refine ⟨fun c w a b h hf ho => ?_, fun c w a b h hf ho => ?_, fun c w a b h hf ho => ?_, fun c w a b h hf ho => ?_,
    fun c w a b h hf ho => ?_, fun c w a b h hf ho => ?_, fun c w a b h hf ho => ?_, fun c w a b h hf ho hb0 => ?_,
    fun c w a b h hf ho hb0 => ?_, fun c w a b h hf ho hb0 => ?_, fun c w a b h hf ho hb0 => ?_, fun c w a b h hf ho hb0 => ?_,
    fun c w a b h hf ho hb0 => ?_, fun c w a b h hf ho => ?_, fun c w a b h hf ho => ?_, fun c w a b h hf ho => ?_,
    fun c w a b h hf ho => ?_⟩ <;> obtain ⟨ha, hb⟩ := hbound c w ho
  · exact s.coreCmd_aluDest h hf ho (op := 0) (by decide) (add16_false ha hb) (hmod _)
  · exact s.coreCmd_aluDest h hf ho (op := 1) (by decide) (sub16_true ha hb) (hmod _)
  · exact s.coreCmd_aluDest h hf ho (op := 2) (by decide) (add16_eq ha hb _) (hmod _)
  · exact s.coreCmd_aluDest h hf ho (op := 3) (by decide) (sub16_eq ha hb _) (hmod _)
  · exact s.coreCmd_aluDest h hf ho (op := 4) (by decide) rfl (Nat.and_lt_two_pow _ hb)
  · exact s.coreCmd_aluDest h hf ho (op := 5) (by decide) rfl (Nat.or_lt_two_pow ha hb)
  · exact s.coreCmd_aluDest h hf ho (op := 6) (by decide) rfl (Nat.xor_lt_two_pow ha hb)
  · exact s.coreCmd_aluDest h hf ho (op := 7) (by decide) (shl16_eq ha b _ hb0) (hmod _)
  · exact s.coreCmd_aluDest h hf ho (op := 8) (by decide) (shr16_eq ha b _ hb0) (lt_of_le_of_lt (Nat.div_le_self _ _) ha)
  · exact s.coreCmd_aluDest h hf ho (op := 9) (by decide) (sar16_eq b _ hb0) (wrap_16_lt _)
  · obtain ⟨t, ht, hstep⟩ := s.coreCmd_aluDest h hf ho (op := 7) (by decide) (shift16_zero ha b _ hb0).1 ha
    exact ⟨t, ht, _, hstep⟩
  · obtain ⟨t, ht, hstep⟩ := s.coreCmd_aluDest h hf ho (op := 8) (by decide) (shift16_zero ha b _ hb0).2.1 ha
    exact ⟨t, ht, _, hstep⟩
  · obtain ⟨t, ht, hstep⟩ := s.coreCmd_aluDest h hf ho (op := 9) (by decide) (shift16_zero ha b _ hb0).2.2 ha
    exact ⟨t, ht, _, hstep⟩
  · exact s.coreCmd_aluFlags h hf ho (op := 10) (by decide) (sub16_true ha hb) (hmod _)
  · exact s.coreCmd_aluFlags h hf ho (op := 11) (by decide) rfl (Nat.and_lt_two_pow _ hb)
  · exact s.coreCmd_aluDest h hf ho (op := 12) (by decide) rfl (by split <;> assumption)
  · exact s.coreCmd_aluDest h hf ho (op := 13) (by decide) rfl (by split <;> assumption)

end Sys2Proof.Machine
end

section
/-! SUPPORT. The moves of a station core (R470), and an exception that it takes below exception level (R454 to R456). -/

namespace Sys2Proof.Machine

/-! ### A register that a move names -/

section
variable (x : Core) (c : Nat) {cls idx : Nat} (v : Nat)

/-- Only LDEPTH takes a free value. -/
theorem Core.writeReg_free (hnamed : regNamed cls idx = true) (h : cls ≠ 5 ∨ idx ≠ 5) (free : Nat) :
    x.writeReg c cls idx v free = x.writeReg c cls idx v 0 := by
  match cls, hnamed with
  | 0, _ | 1, _ | 2, _ | 3, _ | 4, _ => rfl
  | 5, _ =>
    unfold Core.writeReg
    rw [if_neg (h.resolve_left (not_not.2 rfl)), if_neg (h.resolve_left (not_not.2 rfl))]

theorem Core.setAcc_sameControl (i : Nat) (a : AccReg) : x.SameControl (x.setAcc i a) := by
  unfold Core.setAcc
  split <;> exact ⟨rfl, rfl, rfl⟩

theorem Core.writeReg_sameControl (hnamed : regNamed cls idx = true) (h : cls ≠ 5 ∨ idx ≠ 5) (free : Nat) :
    x.SameControl (x.writeReg c cls idx v free) := by
  match cls, hnamed with
  | 0, _ | 1, _ | 2, _ | 4, _ => exact ⟨rfl, rfl, rfl⟩
  | 3, _ => exact x.setAcc_sameControl _ _
  | 5, _ =>
    have hne : idx ≠ 5 := h.resolve_left (not_not.2 rfl)
    unfold Core.writeReg
    rw [if_neg hne]
    exact x.setCtl_sameControl _ hne

theorem State.regWrite_eq (s : State) (hnamed : regNamed cls idx = true) (h : cls ≠ 5 ∨ idx ≠ 5) :
    s.regWrite c cls idx v = s.setCore c ((s.coreOf c).writeReg c cls idx v 0) := by
  unfold State.regWrite
  rw [Core.writeReg_free _ _ _ hnamed h, if_neg fun hldepth => h.elim (· hldepth.1) (· hldepth.2.1)]

end

/-- MOVX, LDI and LDIH name their destination. -/
theorem insnKind_named {w : Word} {k : Nat} (h : insnKind w = some k) (hk : 96 ≤ k) : regNamed (fget w 27 25) (fget w 24 20) = true := by
  have hmacOp : fget w 29 26 < 2 ^ 4 := BitVec.isLt _
  have haluOp : fget w 28 24 < 2 ^ 5 := BitVec.isLt _
  have hop : fget w 27 24 < 2 ^ 4 := BitVec.isLt _
  have hline : (if fget w 26 25 = 3 then 2 else 0) ≤ 2 := by split <;> omega
  have hstore : fget w 27 27 < 2 := BitVec.isLt _
  unfold insnKind at h
  dsimp only at h
  split at h
  · cases h
  split at h
  · obtain ⟨-, hmac⟩ := Option.ite_none_right_eq_some.1 h
    injection hmac
    omega
  split at h
  · obtain ⟨-, halu⟩ := Option.ite_none_right_eq_some.1 h
    injection halu
    omega
  split at h
  · obtain ⟨-, hls⟩ := Option.ite_none_left_eq_some.1 h
    injection hls
    omega
  split at h
  · obtain ⟨-, hatom⟩ := Option.ite_none_right_eq_some.1 h
    injection hatom
    omega
  split at h
  · obtain ⟨-, hbranch⟩ := Option.ite_none_right_eq_some.1 h
    injection hbranch
    omega
  split at h
  · exact (Option.ite_none_right_eq_some.1 h).1.2.1
  split at h
  · exact (Option.ite_none_right_eq_some.1 h).1.2
  split at h
  · exact (Option.ite_none_right_eq_some.1 h).1.2.2
  cases h

/-- An instruction that writes one register, with the value `v`. -/
theorem State.coreCmd_regWrite (s : State) {c : Nat} {w : Word} {k : Nat} (h : s.Issues c w k) (hflows : s.Flows c) (hk : 96 ≤ k)
    (hnot : fget w 27 25 ≠ 5 ∨ fget w 24 20 ≠ 5) {f : Nat → Word → State → CRes} {v : Nat}
    (hf : f c w (s.issuing c) = .done ((s.issuing c).regWrite c (fget w 27 25) (fget w 24 20) v)) :
    ∃ t, Host.Outcome.next (s.coreCmd c w k f) = (.next t : Out) ∧
      s.CoreStep t c ((s.coreOf c).writeReg c (fget w 27 25) (fget w 24 20) v 0) (nextPc (s.pcOf c)) := by
  have hnamed := insnKind_named h.2.2.2.2.1 hk
  rw [State.regWrite_eq _ _ _ hnamed hnot, State.issuing_coreOf] at hf
  exact s.coreCmd_steps h hflows hf (State.coreOf_setCore_self _ _ _) (Core.writeReg_sameControl _ _ _ hnamed hnot _) (setCore_only _ _ _)
    fun d hd => State.coreOf_setCore_ne _ _ (Ne.symm hd)

/-! ### An exception -/

/-- The core that has taken an exception. -/
def Core.excepted (x : Core) (code ea epc info : Nat) : Core :=
  { ((((x.setCtl 2 x.srRead).setCtl 1 (epc % 2 ^ 17)).setCtl 3 (code + info % 256 * 2 ^ 8)).setCtl 4 ea).setCtl 0
      (x.sr / 32 * 32 + x.sr % 16 + 128) with resv := none, skipBp := false }

/-- The exception is logged. -/
def State.excLogged (s : State) (c code pc ea : Nat) : State :=
  ((((s.put (ST_EXC_LOG_VALID c) 1).put (ST_EXC_LOG_PCR c) (pc / 2 ^ 16)).put (ST_EXC_LOG_CAUSE c) code).put (ST_EXC_LOG_EPC c) pc).put
    (ST_EXC_ADDR_EADDR c) ea

/-- The address at which core `x` goes on with exception `code`. -/
def Core.excVector (x : Core) (code : Nat) : Nat :=
  (bitsOf (x.ctlReg 28) 15 10 * 2 ^ 10 + 0x100 + 4 * code) % 2 ^ 16 + bitsOf (x.ctlReg 28) 16 16 * 2 ^ 16

section
variable (x : Core) {code ea epc info : Nat}

theorem Core.setCtl_ctlReg_self {i v : Nat} : (x.setCtl i v).ctlReg i = v % 2 ^ 32 := by
  unfold Core.setCtl Core.ctlReg
  rw [mget_mset_self]
  exact BitVec.toNat_ofNat _ _

theorem Core.excepted_keeps : (x.excepted code ea epc info).resv = none ∧ (x.excepted code ea epc info).d = x.d ∧
    (x.excepted code ea epc info).p = x.p ∧ (x.excepted code ea epc info).xm = x.xm ∧ (x.excepted code ea epc info).calls = x.calls := by
  unfold Core.excepted Core.setCtl
  dsimp only
  exact ⟨rfl, rfl, rfl, rfl, rfl⟩

theorem Core.srRead_lt : x.srRead < 2 ^ 32 := by
  have hb (b : Bool) : b2n b ≤ 1 := by cases b <;> decide
  have h0 := hb x.a0.p
  have h1 := hb x.a1.p
  have h2 := hb x.resv.isSome
  unfold Core.srRead
  omega

/-- SR of a core below exception level has room for the level. -/
theorem Core.srExcepted_lt (h : x.sr.testBit 7 = false) : x.sr / 32 * 32 + x.sr % 16 + 128 < 2 ^ 32 := by
  have hlt : x.sr < 2 ^ 32 := BitVec.isLt _
  have hbit : x.sr / 2 ^ 7 % 2 = 0 := by
    rw [Nat.testBit_eq_decide_div_mod_eq] at h
    have := of_decide_eq_false h
    omega
  omega

theorem Core.setCtl_ctlReg_eq (i j v : Nat) : (x.setCtl i v).ctlReg j = if i = j then v % 2 ^ 32 else x.ctlReg j := by
  split
  next h => exact h ▸ x.setCtl_ctlReg_self
  next h => exact x.setCtl_ctlReg h

theorem Core.ctlReg_unmarked (j : Nat) : ({ x with resv := none, skipBp := false } : Core).ctlReg j = x.ctlReg j := rfl

theorem Core.excepted_ctlReg (j : Nat) : (x.excepted code ea epc info).ctlReg j =
    if 0 = j then (x.sr / 32 * 32 + x.sr % 16 + 128) % 2 ^ 32 else if 4 = j then ea % 2 ^ 32
    else if 3 = j then (code + info % 256 * 2 ^ 8) % 2 ^ 32 else if 1 = j then epc % 2 ^ 17 % 2 ^ 32
    else if 2 = j then x.srRead % 2 ^ 32 else x.ctlReg j := by
  unfold Core.excepted
  rw [Core.ctlReg_unmarked]
  simp only [Core.setCtl_ctlReg_eq]

theorem Core.excepted_ctl (h : x.sr.testBit 7 = false) (hcode : code < 256) :
    (x.excepted code ea epc info).ctlReg 1 = epc % 2 ^ 17 ∧ (x.excepted code ea epc info).ctlReg 2 = x.srRead ∧
      (x.excepted code ea epc info).ctlReg 3 = code + info % 256 * 2 ^ 8 ∧ (x.excepted code ea epc info).ctlReg 4 = ea % 2 ^ 32 ∧
      (x.excepted code ea epc info).sr = x.sr / 32 * 32 + x.sr % 16 + 128 := by
  have hepc : epc % 2 ^ 17 < 2 ^ 32 := by omega
  have hcause : code + info % 256 * 2 ^ 8 < 2 ^ 32 := by omega
  exact ⟨(x.excepted_ctlReg 1).trans (Nat.mod_eq_of_lt hepc), (x.excepted_ctlReg 2).trans (Nat.mod_eq_of_lt x.srRead_lt),
    (x.excepted_ctlReg 3).trans (Nat.mod_eq_of_lt hcause), x.excepted_ctlReg 4,
    (x.excepted_ctlReg 0).trans (Nat.mod_eq_of_lt (x.srExcepted_lt h))⟩

end

section
variable (s : State) {c code pc ea : Nat}

theorem State.excLogged_reg {a : Nat} (h : a ≠ ST_EXC_LOG c) (h' : a ≠ ST_EXC_ADDR c) : (s.excLogged c code pc ea).reg a = s.reg a := by
  unfold State.excLogged
  rw [State.reg_put_ne _ _ (Ne.symm h'), State.reg_put_ne _ _ (Ne.symm h), State.reg_put_ne _ _ (Ne.symm h),
    State.reg_put_ne _ _ (Ne.symm h), State.reg_put_ne _ _ (Ne.symm h)]

theorem State.excLogged_shows : (s.excLogged c code pc ea).on (ST_EXC_LOG_VALID c) = true ∧
    (s.excLogged c code pc ea).f (ST_EXC_LOG_CAUSE c) = code % 2 ^ 4 ∧ (s.excLogged c code pc ea).f (ST_EXC_LOG_EPC c) = pc % 2 ^ 16 ∧
    (s.excLogged c code pc ea).reg (ST_EXC_ADDR c) = BitVec.ofNat 32 ea := by
  unfold State.excLogged State.on
  refine ⟨?_, ?_, ?_, ?_⟩
  · rw [State.f_put_apart _ _ (by simp) (by simp) (.inl (by simp)), State.f_put_apart _ _ (by simp) (by simp) (.inr (.inr (by simp))),
      State.f_put_apart _ _ (by simp) (by simp) (.inr (.inr (by simp))), State.f_put_apart _ _ (by simp) (by simp) (.inr (.inr (by simp))),
      State.f_put _ _ _ (by simp) (by simp)]
    rfl
  · rw [State.f_put_apart _ _ (by simp) (by simp) (.inl (by simp)), State.f_put_apart _ _ (by simp) (by simp) (.inr (.inr (by simp))),
      State.f_put _ _ _ (by simp) (by simp)]
    rfl
  · rw [State.f_put_apart _ _ (by simp) (by simp) (.inl (by simp)), State.f_put _ _ _ (by simp) (by simp)]
    rfl
  · rw [State.reg_put, if_pos rfl]
    refine BitVec.eq_of_getLsbD_eq fun i hi => ?_
    rw [fput_getLsbD _ _ _ _ _ (by simp) (by simp), if_pos ⟨Nat.zero_le _, Nat.le_of_lt_succ hi⟩, BitVec.getLsbD_ofNat, decide_eq_true hi,
      Bool.true_and, Nat.sub_zero]

theorem State.excLogged_only : Only 1 s (s.excLogged c code pc ea) := by
  unfold State.excLogged
  exact (put_only _ _ _).after (by decide) ((put_only _ _ _).after (by decide) ((put_only _ _ _).after (by decide)
    ((put_only _ _ _).after (by decide) (put_only _ _ _))))

/-- The state after an exception that a core takes below exception level, without a step. -/
def State.excTaken (s : State) (c code ea pc epc info : Nat) : State :=
  ((((s.setCore c ((s.coreOf c).excepted code ea epc info)).excLogged c code pc ea).put (ST_STAT_STATE c) 1).setPc c
    ((s.coreOf c).excVector code))

theorem State.coreExc_eq {addr : Option Nat} {epc info : Nat} (hlevel : (s.coreOf c).sr.testBit 7 = false)
    (hstep : (s.coreOf c).stepping = false) :
    s.coreExc c code addr pc epc info =
      (if addr.isNone then s.freeNext else s).excTaken c code (addr.getD s.freeVal) pc epc info := by
  have hvector : ((s.coreOf c).excepted code (addr.getD s.freeVal) epc info).excVector code = (s.coreOf c).excVector code := by
    unfold Core.excVector
    rw [(s.coreOf c).excepted_ctlReg 28]
    rfl
  have hcore : (if addr.isNone then s.freeNext else s).coreOf c = s.coreOf c := by split <;> rfl
  unfold State.coreExc State.excTaken
  rw [hcore, ← hvector]
  simp only [hlevel, hstep, Bool.false_eq_true, if_false]
  rfl

/-- What an exception shows (R454 to R456). -/
theorem State.excTaken_shows {epc info : Nat} (hcode : code < 16) :
    (s.excTaken c code ea pc epc info).coreOf c = (s.coreOf c).excepted code ea epc info ∧
      (s.excTaken c code ea pc epc info).pcOf c = (s.coreOf c).excVector code ∧ (s.excTaken c code ea pc epc info).coreSt c = 1 ∧
      (s.excTaken c code ea pc epc info).on (ST_EXC_LOG_VALID c) = true ∧
      (s.excTaken c code ea pc epc info).f (ST_EXC_LOG_CAUSE c) = code ∧
      (s.excTaken c code ea pc epc info).f (ST_EXC_LOG_EPC c) = pc % 2 ^ 16 ∧
      (s.excTaken c code ea pc epc info).reg (ST_EXC_ADDR c) = BitVec.ofNat 32 ea := by
  have hvector : (s.coreOf c).excVector code < 2 ^ 17 := by
    have hrom : bitsOf ((s.coreOf c).ctlReg 28) 16 16 < 2 := Nat.mod_lt _ (by decide)
    unfold Core.excVector
    omega
  unfold State.excTaken
  have hreg (u : State) {a : Nat} (v w : Nat) (ha : ST_STAT c ≠ a) : ((u.put (ST_STAT_STATE c) v).setPc c w).reg a = u.reg a := by
    rw [State.setPc_reg _ _ (Ne.symm ha), State.reg_put_ne _ _ ha]
  obtain ⟨hvalid, hcause, hepc, haddr⟩ := (s.setCore c ((s.coreOf c).excepted code ea epc info)).excLogged_shows (c := c) (code := code)
    (pc := pc) (ea := ea)
  refine ⟨State.coreOf_setCore_self _ _ _, ?_, ?_, ?_, ?_, ?_, ?_⟩
  · rw [State.setPc_pcOf, Nat.mod_eq_of_lt hvector]
  · rw [State.setPc_coreSt]
    exact State.f_put _ _ _ (by simp) (by simp)
  · exact (State.on_of_reg (hreg _ _ _ (by simp))).trans hvalid
  · exact ((State.f_of_reg (hreg _ _ _ (by simp))).trans hcause).trans (Nat.mod_eq_of_lt hcode)
  · exact (State.f_of_reg (hreg _ _ _ (by simp))).trans hepc
  · exact (hreg _ _ _ (by simp)).trans haddr

/-- An exception changes its core, and the registers that show it. -/
theorem State.excTaken_keeps {t : State} {epc info : Nat} (ht : Only 1 s t) (hreg : ∀ a, t.reg a = s.reg a) :
    Keeps (fun a => a = ST_STAT c ∨ a = ST_EXC_LOG c ∨ a = ST_EXC_ADDR c) [.core] s (t.excTaken c code ea pc epc info) := by
  refine ((setPc_only _ _ _).after (by decide) ((put_only _ _ _).after (by decide) ((State.excLogged_only _).after (by decide)
    ((setCore_only _ _ _).after (by decide) (ht.mono (by decide)) : Only 8193 _ _))) : Only 8193 _ _).keeps fun a ha => ?_
  rw [State.setPc_reg _ _ fun h => ha (.inl h), State.reg_put_ne _ _ fun h => ha (.inl h.symm),
    State.excLogged_reg _ (fun h => ha (.inr (.inl h))) fun h => ha (.inr (.inr h)), State.setCore_reg, hreg]

variable {w : Word} {k : Nat}

/-- An instruction that answers with an exception, below exception level and outside a repeat block and a step. -/
theorem State.coreCmd_exc (h : s.Issues c w k) (hstep : (s.coreOf c).stepping = false) (hlevel : (s.coreOf c).sr.testBit 7 = false)
    (hflat : (s.coreOf c).ctlReg 5 = 0) (hcode : code < 16) {f : Nat → Word → State → CRes} {addr : Option Nat} {info : Nat} {next : Bool}
    (hf : f c w (s.issuing c) = .exc (s.issuing c) code addr info next) :
    ∃ t, Host.Outcome.next (s.coreCmd c w k f) = (.next t : Out) ∧
      t.coreOf c = (s.coreOf c).excepted code (addr.getD s.freeVal) (if next then nextPc (s.pcOf c) else s.pcOf c) info ∧
      t.pcOf c = (s.coreOf c).excVector code ∧ t.coreSt c = 1 ∧ t.on (ST_EXC_LOG_VALID c) = true ∧ t.f (ST_EXC_LOG_CAUSE c) = code ∧
      t.f (ST_EXC_LOG_EPC c) = s.pcOf c % 2 ^ 16 ∧ t.reg (ST_EXC_ADDR c) = BitVec.ofNat 32 (addr.getD s.freeVal) ∧
      Keeps (fun a => a = ST_STAT c ∨ a = ST_EXC_LOG c ∨ a = ST_EXC_ADDR c) [.core] s t := by
  have hrun : s.coreSt c = 1 := h.2.2.1
  have htaken := ((s.coreCmd_of_flat h hflat f).trans (congrArg ((s.issuing c).retire c (s.pcOf c) false) hf)).trans
    ((s.issuing c).coreExc_eq (addr := addr) (info := info) hlevel hstep)
  have hfree : (if addr.isNone then (s.issuing c).freeNext else s.issuing c).coreOf c = s.coreOf c := by split <;> rfl
  have hshows := (if addr.isNone then (s.issuing c).freeNext else s.issuing c).excTaken_shows (c := c) (code := code)
    (ea := addr.getD s.freeVal) (pc := s.pcOf c) (epc := if next then nextPc (s.pcOf c) else s.pcOf c) (info := info) hcode
  rw [hfree] at hshows
  obtain ⟨hcore, hpc, hst, hvalid, hcause, hepc, haddr⟩ := hshows
  refine ⟨_, congrArg _ htaken, hcore, hpc, hst, hvalid, hcause, hepc, haddr, s.excTaken_keeps ?_ fun a => ?_⟩
  · exact .ite ((freeNext_only _).after (by decide) s.issuing_only) s.issuing_only
  · rw [← s.issuing_reg hrun a]
    split <;> rfl

end

/-! ### The statement -/

/-- Settles O46: a move writes the register that it names, and an exception is taken as R454 to R456 say. -/
theorem coreMovesAndExceptions : Obligations.CoreMovesAndExceptions := by
  unfold Obligations.CoreMovesAndExceptions
  refine fun s => ⟨fun c w h hflows hnot hclean => ?_, fun c w h hflows hnot => ?_, fun c w h hflows hnot => ?_,
    fun c w h hstep hlevel hflat hgoes => ?_, fun c w h hstep hlevel hflat halign => ?_⟩
  · exact s.coreCmd_regWrite h hflows (by decide) hnot
      (if_neg fun hpoison => hclean.elim (· hpoison.1) fun hp => Bool.false_ne_true (hp.symm.trans hpoison.2))
  · exact s.coreCmd_regWrite h hflows (by decide) hnot rfl
  · exact s.coreCmd_regWrite h hflows (by decide) hnot rfl
  · have htrap : insnTrap c w (s.issuing c) = .exc (s.issuing c) 9 none (fget w 7 0) true := by
      have hattached : (s.issuing c).attached = s.attached := State.on_of_reg (s.issuing_reg h.2.2.1 _)
      unfold insnTrap
      rw [hattached]
      exact if_neg fun hhalt => hgoes.elim (· hhalt.1) fun ha => Bool.false_ne_true (ha.symm.trans hhalt.2.1)
    have hinfo : fget w 7 0 < 2 ^ 8 := BitVec.isLt _
    have hcode : (9 + fget w 7 0 * 2 ^ 8) % 256 = 9 := by omega
    obtain ⟨t, hexec, hcore, hpc, hst, hvalid, hcause, hepc, -, hkeeps⟩ := s.coreCmd_exc h hstep hlevel hflat (by decide) htrap
    obtain ⟨hEpc, hSr, hCause, -, hsr⟩ := (s.coreOf c).excepted_ctl (code := 9) (ea := (none : Option Nat).getD s.freeVal)
      (epc := nextPc (s.pcOf c)) (info := fget w 7 0) hlevel (by decide)
    obtain ⟨hresv, hd, hp, hxm, hcalls⟩ := (s.coreOf c).excepted_keeps (code := 9) (ea := (none : Option Nat).getD s.freeVal)
      (epc := nextPc (s.pcOf c)) (info := fget w 7 0)
    rw [Nat.mod_eq_of_lt (b := 256) hinfo] at hCause
    rw [if_pos rfl] at hcore
    rw [hcode]
    refine ⟨t, hexec, ?_⟩
    rw [hcore]
    exact ⟨hEpc, hSr, hCause, hsr, hresv, hpc, hst, hvalid, hcause, hepc, hd, hp, hxm, hcalls, hkeeps⟩
  · have hjmp : insnJmp c w (s.issuing c) = .exc (s.issuing c) 3 (some ((s.coreOf c).pReg (fget w 18 16))) 0 false := if_pos halign
    have hpointer : (s.coreOf c).pReg (fget w 18 16) < 2 ^ 32 := BitVec.isLt _
    obtain ⟨t, hexec, hcore, hpc, hst, hvalid, hcause, hepc, haddr, hkeeps⟩ := s.coreCmd_exc h hstep hlevel hflat (by decide) hjmp
    obtain ⟨hEpc, hSr, hCause, hEaddr, hsr⟩ := (s.coreOf c).excepted_ctl (code := 3) (ea := (s.coreOf c).pReg (fget w 18 16))
      (epc := s.pcOf c) (info := 0) hlevel (by decide)
    obtain ⟨hresv, hd, hp, hxm, hcalls⟩ := (s.coreOf c).excepted_keeps (code := 3) (ea := (s.coreOf c).pReg (fget w 18 16))
      (epc := s.pcOf c) (info := 0)
    rw [Nat.mod_eq_of_lt hpointer] at hEaddr
    rw [if_neg Bool.false_ne_true, Option.getD_some] at hcore
    rw [Option.getD_some] at haddr
    refine ⟨t, hexec, ?_⟩
    rw [hcore]
    exact ⟨hEpc, hSr, hCause, hEaddr, haddr, hsr, hresv, hpc, hst, hvalid, hcause, hepc, hd, hp, hxm, hcalls, hkeeps⟩

end Sys2Proof.Machine
end

section
/-! SUPPORT. A core reset of a core that a debugger has halted. -/

namespace Sys2Proof.Machine

/-- The state after reset, but core 16 runs, and DBG_STAT shows it halted. -/
def haltedShown : State := { State.reset with regs := [(ST_CTRL 16, 0), (DBG_STAT, 0x10000)] }

theorem haltedShown_hold_clears :
    haltedShown.on (ST_CTRL_RESET 16) = false ∧ (haltedShown.toCore 16 fun t => t.coreHold 16).reg DBG_STAT ≠ haltedShown.reg DBG_STAT := by
  decide +kernel

/-- Refutes O48: the frame of CORE_HOLD leaves out block 15. A core reset ends the halt of its core, and with it that core's bit of DBG_STAT, at
0xF00004, which none of the frame's blocks 0, 5, 13, 16 and 17 holds. -/
theorem not_coreResetsAndSemaphores : ¬ Obligations.CoreResetsAndSemaphores := by
  unfold Obligations.CoreResetsAndSemaphores
  intro h
  obtain ⟨hfree, hclears⟩ := haltedShown_hold_clears
  obtain ⟨hhold, -⟩ := h haltedShown
  obtain ⟨t, hexec, -, -, -, -, -, -, -, hreg, -⟩ := hhold 16 (by decide) (.inl rfl) hfree
  obtain rfl : (haltedShown.toCore 16 fun t => t.coreHold 16) = t := Host.Outcome.next.inj hexec
  exact hclears (hreg _ (by decide))

end Sys2Proof.Machine
end

section
/-! SUPPORT. A state in which source 0 has no fence pending while its PENDING shows one. -/

namespace Sys2Proof.Machine

/-- The state after reset, but an H2D descriptor of ring 0 waits for its data, and PENDING of source 0 is 1. -/
def pendingShown : State :=
  { State.reset with
    regs := [(DEV_ORD_STATUS 0, 1)]
    host := { HostIf.init with descs := [⟨0, 0, false, false, false, 4, 0, 0, 0, 0, false, false, 0, 0, false⟩], ops := [0] } }

theorem pendingShown_timeout_clears :
    pendingShown.Calm ∧ pendingShown.descAt 0 0 = some ⟨0, 0, false, false, false, 4, 0, 0, 0, 0, false, false, 0, 0, false⟩ ∧
      pendingShown.on (HIF_RING_STAT_ERROR 0) = false ∧ pendingShown.fencesOf 0 = [] ∧
      (pendingShown.hostDone (.data 0 0) false false 0).settle.reg (DEV_ORD_STATUS 0) ≠ pendingShown.reg (DEV_ORD_STATUS 0) := by
  decide +kernel

/-- Refutes O53: the frame of a timeout leaves out DEV_ORD_STATUS of source 0. The end of the request gives PENDING the number of the fences of
the source (R32), and the statement allows a state whose PENDING is not that number: there the register changes. -/
theorem not_hostTraffic : ¬ Obligations.HostTraffic := by
  unfold Obligations.HostTraffic
  intro h
  obtain ⟨hcalm, hdesc, herror, hfences, hclears⟩ := pendingShown_timeout_clears
  obtain ⟨-, -, -, -, -, -, -, -, -, htimeout, -⟩ := h pendingShown hcalm
  obtain ⟨t, hexec, -, -, -, -, -, hreg, -⟩ := htimeout 0 0 _ hdesc rfl rfl herror hfences
  obtain rfl : (pendingShown.hostDone (.data 0 0) false false 0).settle = t := Host.Outcome.next.inj hexec
  exact hclears (hreg _ (by decide))

end Sys2Proof.Machine
end

section
/-! SUPPORT. Loads, stores, parallel moves and reservations of a station core (R434 to R453, R470). -/

namespace Sys2Proof.Machine

/-! ### What a core's memories and registers give back -/

section
variable (x : Core)

theorem Core.lsAddr_congr {x y : Core} (hp : y.p = x.p) (hn : y.n = x.n) (w : Word) : y.lsAddr w = x.lsAddr w := by
  unfold Core.lsAddr Core.pReg Core.nReg
  rw [hp, hn]

theorem Core.setAcc_p (i : Nat) (a : AccReg) : (x.setAcc i a).p = x.p := by
  unfold Core.setAcc
  split <;> rfl

theorem Core.setAcc_n (i : Nat) (a : AccReg) : (x.setAcc i a).n = x.n := by
  unfold Core.setAcc
  split <;> rfl

theorem Core.setAcc_ctl (i : Nat) (a : AccReg) : (x.setAcc i a).ctl = x.ctl := by
  unfold Core.setAcc
  split <;> rfl

/-- A load leaves the pointers and the control registers. -/
theorem Core.lsDest_keeps (w : Word) (v : Nat) : (x.lsDest w v).p = x.p ∧ (x.lsDest w v).n = x.n ∧ (x.lsDest w v).ctl = x.ctl := by
  unfold Core.lsDest
  dsimp only
  split
  · exact ⟨rfl, rfl, rfl⟩
  · exact ⟨rfl, rfl, rfl⟩
  · exact ⟨x.setAcc_p _ _, x.setAcc_n _ _, x.setAcc_ctl _ _⟩

theorem Core.lsDest_sameControl (w : Word) (v : Nat) : x.SameControl (x.lsDest w v) := by
  unfold Core.lsDest
  dsimp only
  split
  · exact ⟨rfl, rfl, rfl⟩
  · exact ⟨rfl, rfl, rfl⟩
  · exact x.setAcc_sameControl _ _

/-- A write to a memory leaves the pointers. -/
theorem Core.setRaw_keeps (m i v : Nat) : (x.setRaw m i v).p = x.p ∧ (x.setRaw m i v).n = x.n := by
  unfold Core.setRaw
  dsimp only
  split <;> exact ⟨rfl, rfl⟩

theorem Core.setRaw_sameControl (m i v : Nat) : x.SameControl (x.setRaw m i v) := by
  unfold Core.setRaw
  dsimp only
  split <;> exact ⟨rfl, rfl, rfl⟩

end

section
variable (s : State) {c : Nat}

/-- With every watchpoint of the core off, no access is watched. -/
theorem State.watched_off (h : ∀ i < 2, s.on (DBG_CORE_WP_CFG_EN c i) = false) (a : Nat) (store fed : Bool) (k : CRes) :
    s.watched c a store fed k = k := by
  have hnone : s.wpHit c a store = none := by
    unfold State.wpHit
    split
    · refine List.find?_eq_none.2 fun i hi => ?_
      rw [h i (List.mem_range.1 hi)]
      simp
    · rfl
  unfold State.watched
  rw [hnone]
  split <;> rfl

/-- The same in the state in which the core takes its instruction. -/
theorem State.issuing_watched (hrun : s.coreSt c = 1) (h : (List.range 2).all (fun i => !s.on (DBG_CORE_WP_CFG_EN c i)) = true)
    (a : Nat) (store fed : Bool) (k : CRes) : (s.issuing c).watched c a store fed k = k := by
  refine State.watched_off _ (fun i hi => ?_) a store fed k
  rw [State.on_of_reg (s.issuing_reg hrun _)]
  simpa using List.all_eq_true.1 h i (List.mem_range.2 hi)

/-- The load of a clean word. -/
theorem State.memLoad_of_clean {m i v : Nat} (hv : decode32 ((s.coreOf c).memRaw m i) = .clean v) (a bytes : Nat) :
    s.memLoad c m i a bytes = .val s (if bytes = 4 then v else if a % 4 = 0 then v % 2 ^ 16 else v / 2 ^ 16) := by
  unfold State.memLoad
  rw [s.coreMemRead_of_clean hv]
  rfl

theorem State.dataLoad_of_clean {a bytes m i v : Nat} (ha : a % bytes = 0) (hxy : (s.coreOf c).xyAt a = some (m, i))
    (hv : decode32 ((s.coreOf c).memRaw m i) = .clean v) :
    s.dataLoad c a bytes = .val s (if bytes = 4 then v else if a % 4 = 0 then v % 2 ^ 16 else v / 2 ^ 16) := by
  unfold State.dataLoad
  rw [if_neg (not_not.2 ha)]
  unfold Core.xyAt at hxy
  split at hxy
  next hr =>
    obtain ⟨rfl, rfl⟩ := Prod.mk.inj (Option.some.inj hxy)
    rw [hr]
    exact s.memLoad_of_clean hv a bytes
  next hr =>
    obtain ⟨rfl, rfl⟩ := Prod.mk.inj (Option.some.inj hxy)
    rw [hr]
    exact s.memLoad_of_clean hv a bytes
  next => cases hxy

/-- A store to X or Y. -/
theorem State.dataStore_of_xy {a bytes m i : Nat} (ha : a % bytes = 0) (hxy : (s.coreOf c).xyAt a = some (m, i)) (v : Nat) (poison fed : Bool)
    (fin : State → State) :
    s.dataStore c a bytes v poison fed fin =
      .done (fin (if bytes = 4 then s.coreMemWrite c m i v poison else s.coreMemHalf c m i (a / 2 % 2) v)) := by
  unfold State.dataStore
  rw [if_neg (not_not.2 ha)]
  unfold Core.xyAt at hxy
  split at hxy
  next hr =>
    obtain ⟨rfl, rfl⟩ := Prod.mk.inj (Option.some.inj hxy)
    rw [hr]
  next hr =>
    obtain ⟨rfl, rfl⟩ := Prod.mk.inj (Option.some.inj hxy)
    rw [hr]
  next => cases hxy

/-- The store of a half of a clean word. -/
theorem State.coreMemHalf_of_clean {m i u : Nat} (hu : decode32 ((s.coreOf c).memRaw m i) = .clean u) (h v : Nat) :
    s.coreMemHalf c m i h v =
      s.setCore c ((s.coreOf c).setRaw m i (encode32 (if h = 0 then u / 2 ^ 16 * 2 ^ 16 + v % 2 ^ 16 else u % 2 ^ 16 + v % 2 ^ 16 * 2 ^ 16) false)) := by
  unfold State.coreMemHalf
  rw [s.coreMemRead_of_clean hu]
  rfl

theorem State.lsPost_of_none {w : Word} (h : ((s.coreOf c).lsAddr w).2 = none) : s.lsPost c w = s := by
  unfold State.lsPost
  rw [h]

/-- A post-modify in linear mode. -/
theorem State.postMod_linear {i : Nat} (h : (s.coreOf c).ctlReg (20 + i) / 2 ^ 30 = 0) (step : Int) :
    s.postMod c i step = s.setCore c ((s.coreOf c).setP i (wrap 32 (((s.coreOf c).pReg i : Int) + step))) := by
  have hadvance : advance ((s.coreOf c).ctlReg (20 + i)) ((s.coreOf c).pReg i) step = some (wrap 32 (((s.coreOf c).pReg i : Int) + step)) := by
    unfold advance
    rw [h]
    rfl
  unfold State.postMod Core.postMod
  dsimp only
  rw [hadvance]
  rfl

end

/-! ### LS loads and stores, LR and SC -/

/-- What an LS store writes. -/
def Core.lsValue (x : Core) (w : Word) : Nat :=
  if fget w 26 25 = 0 then x.dReg (fget w 19 16)
  else if fget w 26 25 = 1 then x.pairD (fget w 19 16)
  else (x.acc (fget w 19 16)).v.toNat % 2 ^ 32

theorem insnStore_eq (fed : Bool) (c : Nat) (w : Word) (s : State) :
    insnStore fed c w s = s.watched c ((s.coreOf c).lsAddr w).1 true fed (s.dataStore c ((s.coreOf c).lsAddr w).1 (lsBytes w)
      ((s.coreOf c).lsValue w) (fget w 26 25 == 2 && ((s.coreOf c).acc (fget w 19 16)).p) fed (fun t => t.lsPost c w)) := by
  unfold insnStore Core.lsValue
  generalize fget w 26 25 = n
  match n with
  | 0 => rfl
  | 1 => rfl
  | n + 2 => rfl

section
variable (s : State) {c : Nat} {w : Word} {k : Nat} (hwp : (List.range 2).all (fun i => !s.on (DBG_CORE_WP_CFG_EN c i)) = true)
include hwp

/-- An LS load of a clean word without post-modify. -/
theorem State.coreCmd_load (h : s.Issues c w k) (hflows : s.Flows c) {a m i v : Nat} (haddr : (s.coreOf c).lsAddr w = (a, none))
    (ha : a % lsBytes w = 0) (hxy : (s.coreOf c).xyAt a = some (m, i)) (hv : decode32 ((s.coreOf c).memRaw m i) = .clean v) :
    ∃ t, Host.Outcome.next (s.coreCmd c w k (insnLoad false)) = (.next t : Out) ∧
      s.CoreStep t c ((s.coreOf c).lsDest w (if lsBytes w = 4 then v else if a % 4 = 0 then v % 2 ^ 16 else v / 2 ^ 16)) (nextPc (s.pcOf c)) := by
  obtain ⟨hp, hn, -⟩ := (s.coreOf c).lsDest_keeps w (if lsBytes w = 4 then v else if a % 4 = 0 then v % 2 ^ 16 else v / 2 ^ 16)
  refine s.coreCmd_steps h hflows (t := (s.issuing c).setCore c _) ?_ (State.coreOf_setCore_self _ _ _) (Core.lsDest_sameControl _ _ _)
    (setCore_only _ _ _) fun d hd => State.coreOf_setCore_ne _ _ (Ne.symm hd)
  have hload := (s.issuing c).dataLoad_of_clean (c := c) ha hxy hv
  unfold insnLoad
  dsimp only
  rw [s.issuing_watched h.2.2.1 hwp, State.issuing_coreOf, haddr, hload]
  dsimp only
  rw [State.lsPost_of_none, State.issuing_coreOf]
  rw [State.coreOf_setCore_self, State.issuing_coreOf, Core.lsAddr_congr hp hn, haddr]

/-- An LS load of a clean word with a linear post-modify. -/
theorem State.coreCmd_loadPost (h : s.Issues c w k) (hflows : s.Flows c) {a m i v : Nat} {step : Int}
    (haddr : (s.coreOf c).lsAddr w = (a, some step)) (hlinear : (s.coreOf c).ctlReg (20 + fget w 24 22) / 2 ^ 30 = 0) (hbytes : lsBytes w = 4)
    (ha : a % 4 = 0) (hxy : (s.coreOf c).xyAt a = some (m, i)) (hv : decode32 ((s.coreOf c).memRaw m i) = .clean v) :
    ∃ t, Host.Outcome.next (s.coreCmd c w k (insnLoad false)) = (.next t : Out) ∧
      s.CoreStep t c (((s.coreOf c).lsDest w v).setP (fget w 24 22) (wrap 32 (((s.coreOf c).pReg (fget w 24 22) : Int) + step)))
        (nextPc (s.pcOf c)) := by
  obtain ⟨hp, hn, hctl⟩ := (s.coreOf c).lsDest_keeps w v
  have hpReg : ((s.coreOf c).lsDest w v).pReg (fget w 24 22) = (s.coreOf c).pReg (fget w 24 22) := by unfold Core.pReg; rw [hp]
  have hmode : ((s.coreOf c).lsDest w v).ctlReg (20 + fget w 24 22) / 2 ^ 30 = 0 := by
    unfold Core.ctlReg at hlinear ⊢
    rwa [hctl]
  refine s.coreCmd_steps h hflows (t := ((s.issuing c).setCore c ((s.coreOf c).lsDest w v)).setCore c _) ?_ (State.coreOf_setCore_self _ _ _)
    (Core.lsDest_sameControl _ _ _) ((setCore_only _ _ _).after (by decide) (setCore_only _ _ _)) fun d hd => ?_
  · have hload := (s.issuing c).dataLoad_of_clean (c := c) (bytes := lsBytes w) (by rw [hbytes]; exact ha) hxy hv
    rw [if_pos hbytes] at hload
    unfold insnLoad
    dsimp only
    rw [s.issuing_watched h.2.2.1 hwp, State.issuing_coreOf, haddr, hload]
    dsimp only
    unfold State.lsPost
    rw [State.coreOf_setCore_self, State.issuing_coreOf, Core.lsAddr_congr hp hn, haddr]
    dsimp only
    rw [State.postMod_linear _ (by rw [State.coreOf_setCore_self]; exact hmode), State.coreOf_setCore_self, hpReg]
  · rw [State.coreOf_setCore_ne _ _ (Ne.symm hd), State.coreOf_setCore_ne _ _ (Ne.symm hd), State.issuing_coreOf]

/-- An LS store that gives a word of the core's memories the bits `b`. -/
theorem State.coreCmd_store (h : s.Issues c w k) (hflows : s.Flows c) {a m i b : Nat} (haddr : (s.coreOf c).lsAddr w = (a, none))
    (ha : a % lsBytes w = 0) (hxy : (s.coreOf c).xyAt a = some (m, i)) {v : Nat} {poison : Bool}
    (hvalue : (s.coreOf c).lsValue w = v)
    (hpoison : (fget w 26 25 == 2 && ((s.coreOf c).acc (fget w 19 16)).p) = poison)
    (hbits : (if lsBytes w = 4 then (s.issuing c).coreMemWrite c m i v poison else (s.issuing c).coreMemHalf c m i (a / 2 % 2) v) =
      (s.issuing c).setCore c ((s.coreOf c).setRaw m i b)) :
    ∃ t, Host.Outcome.next (s.coreCmd c w k (insnStore false)) = (.next t : Out) ∧
      s.CoreStep t c ((s.coreOf c).setRaw m i b) (nextPc (s.pcOf c)) := by
  obtain ⟨hp, hn⟩ := (s.coreOf c).setRaw_keeps m i b
  refine s.coreCmd_steps h hflows (t := (s.issuing c).setCore c _) ?_ (State.coreOf_setCore_self _ _ _) (Core.setRaw_sameControl _ _ _ _)
    (setCore_only _ _ _) fun d hd => State.coreOf_setCore_ne _ _ (Ne.symm hd)
  have hstore := (s.issuing c).dataStore_of_xy (c := c) ha hxy v poison false (fun t => t.lsPost c w)
  rw [insnStore_eq, s.issuing_watched h.2.2.1 hwp, State.issuing_coreOf, haddr, hpoison, hvalue, hstore, hbits]
  rw [State.lsPost_of_none]
  rw [State.coreOf_setCore_self, Core.lsAddr_congr hp hn, haddr]

/-- LR of a clean word. -/
theorem State.coreCmd_lr (h : s.Issues c w k) (hflows : s.Flows c) {m i v : Nat} (ha : (s.coreOf c).pReg (fget w 26 24) % 4 = 0)
    (hxy : (s.coreOf c).xyAt ((s.coreOf c).pReg (fget w 26 24)) = some (m, i)) (hv : decode32 ((s.coreOf c).memRaw m i) = .clean v) :
    ∃ t, Host.Outcome.next (s.coreCmd c w k insnLr) = (.next t : Out) ∧
      s.CoreStep t c { (s.coreOf c).setPairD (fget w 23 20) v with resv := some (.word (m == 2) i) } (nextPc (s.pcOf c)) := by
  refine s.coreCmd_steps h hflows (t := (s.issuing c).setCore c _) ?_ (State.coreOf_setCore_self _ _ _) ⟨rfl, rfl, rfl⟩
    (setCore_only _ _ _) fun d hd => State.coreOf_setCore_ne _ _ (Ne.symm hd)
  have hload := (s.issuing c).memLoad_of_clean (c := c) hv ((s.coreOf c).pReg (fget w 26 24)) 4
  unfold insnLr
  dsimp only
  rw [State.issuing_coreOf, if_neg (not_not.2 ha), hxy]
  dsimp only
  rw [s.issuing_watched h.2.2.1 hwp, hload]
  rfl

/-- SC of the reserved word. -/
theorem State.coreCmd_sc_held (h : s.Issues c w k) (hflows : s.Flows c) {m i : Nat} (ha : (s.coreOf c).pReg (fget w 26 24) % 4 = 0)
    (hxy : (s.coreOf c).xyAt ((s.coreOf c).pReg (fget w 26 24)) = some (m, i)) (hheld : (s.coreOf c).resv = some (.word (m == 2) i)) :
    ∃ t, Host.Outcome.next (s.coreCmd c w k insnSc) = (.next t : Out) ∧
      s.CoreStep t c (({ (s.coreOf c).setRaw m i (encode32 ((s.coreOf c).pairD (fget w 23 20)) false) with resv := none } : Core).setD
        (fget w 19 16) 1) (nextPc (s.pcOf c)) := by
  refine s.coreCmd_steps h hflows (t := ((s.issuing c).coreMemWrite c m i ((s.coreOf c).pairD (fget w 23 20)) false).setCore c _) ?_
    (State.coreOf_setCore_self _ _ _) (((s.coreOf c).setRaw_sameControl m i _).trans ⟨rfl, rfl, rfl⟩)
    ((setCore_only _ _ _).after (by decide) (setCore_only _ _ _)) fun d hd => ?_
  · unfold insnSc
    dsimp only
    rw [State.issuing_coreOf, if_neg (not_not.2 ha), hxy]
    dsimp only
    rw [s.issuing_watched h.2.2.1 hwp, if_pos hheld]
    unfold State.coreMemWrite
    rw [State.coreOf_setCore_self, State.issuing_coreOf]
    rfl
  · rw [State.coreOf_setCore_ne _ _ (Ne.symm hd)]
    exact State.coreOf_setCore_ne _ _ (Ne.symm hd)

/-- SC without the reservation. -/
theorem State.coreCmd_sc_lost (h : s.Issues c w k) (hflows : s.Flows c) {m i : Nat} (ha : (s.coreOf c).pReg (fget w 26 24) % 4 = 0)
    (hxy : (s.coreOf c).xyAt ((s.coreOf c).pReg (fget w 26 24)) = some (m, i)) (hlost : (s.coreOf c).resv ≠ some (.word (m == 2) i)) :
    ∃ t, Host.Outcome.next (s.coreCmd c w k insnSc) = (.next t : Out) ∧
      s.CoreStep t c { (s.coreOf c).setD (fget w 19 16) 0 with resv := none } (nextPc (s.pcOf c)) := by
  refine s.coreCmd_steps h hflows (t := (s.issuing c).setCore c _) ?_ (State.coreOf_setCore_self _ _ _) ⟨rfl, rfl, rfl⟩
    (setCore_only _ _ _) fun d hd => State.coreOf_setCore_ne _ _ (Ne.symm hd)
  unfold insnSc
  dsimp only
  rw [State.issuing_coreOf, if_neg (not_not.2 ha), hxy]
  dsimp only
  rw [s.issuing_watched h.2.2.1 hwp, if_neg hlost]

end

end Sys2Proof.Machine
end

section
/-! SUPPORT. Two states whose registers read alike: an error event of a core's memory does the same in both. The list of the registers may
differ, so that the two are not equal. -/

namespace Sys2Proof.Machine

/-- No input of a core is routed by the register at `a`. -/
def Unrouted (a : Nat) : Prop := ∀ c < 17, ¬ (ST_IRQ_CFG c 16 ≤ a ∧ a < ST_IRQ_CFG c 64)

theorem any_mset {α : Type} [DecidableEq α] (m : List (Nat × α)) (d : α) (k : Nat) (v : α) (p : Nat × α → Bool) (h : ∀ x, p (k, x) = false) :
    (mset m d k v).any p = m.any p := by
  have herase : (merase m k).any p = m.any p := by
    induction m with
    | nil => rfl
    | cons e m ih =>
      obtain ⟨k', x⟩ := e
      by_cases hk : k' = k
      · subst hk
        simpa [merase, h x] using ih
      · simp only [merase, List.filter_cons, bne_iff_ne, ne_eq, hk, not_false_eq_true, if_true, List.any_cons] at ih ⊢
        rw [ih]
  have hinsert (l : List (Nat × α)) : (minsert l k v).any p = l.any p := by
    induction l with
    | nil => simp [minsert, h v]
    | cons e l ih =>
      unfold minsert
      split <;> simp [h v, ih]
  unfold mset
  split
  · exact herase
  · exact (hinsert _).trans herase

theorem State.irqCores_setReg (s : State) {a : Nat} (v : Word) (h : Unrouted a) (i : Nat) : (s.setReg a v).irqCores i = s.irqCores i := by
  unfold State.irqCores
  refine List.filter_congr fun c hc => any_mset _ _ _ _ _ fun x => ?_
  have hout : (decide (ST_IRQ_CFG c 16 ≤ a) && decide (a < ST_IRQ_CFG c 64)) = false := by
    rw [← Bool.decide_and]
    exact decide_eq_false (h c (List.mem_range.1 hc))
  dsimp only
  rw [hout, Bool.false_and, Bool.false_and]

/-- The registers of `s` and `t` read alike and route alike, and nothing else differs. -/
structure State.Alike (s t : State) : Prop where
  reg : ∀ a, t.reg a = s.reg a
  cores : ∀ i, t.irqCores i = s.irqCores i
  rest : ∃ r, t = { s with regs := r }

section
variable {s t : State} (h : State.Alike s t)
include h

theorem State.Alike.f (x : Fld) : t.f x = s.f x := State.f_of_reg (h.reg _)

theorem State.Alike.on (x : Fld) : t.on x = s.on x := State.on_of_reg (h.reg _)

/-- What is not a register is the same. -/
theorem State.Alike.same {β : Type} (g : State → β) (hg : ∀ (u : State) r, g { u with regs := r } = g u) : g t = g s := by
  obtain ⟨r, rfl⟩ := h.rest
  exact hg s r

/-- An operation on the parts beside the registers. -/
theorem State.Alike.update {g : State → State} (hg : ∀ (u : State) r, g { u with regs := r } = { g u with regs := r })
    (hregs : ∀ u : State, (g u).regs = u.regs) : State.Alike (g s) (g t) := by
  have hcores (u : State) (i : Nat) : (g u).irqCores i = u.irqCores i := by unfold State.irqCores; rw [hregs]
  refine ⟨fun a => ?_, fun i => ?_, ?_⟩
  · rw [State.reg_congr (hregs _), State.reg_congr (hregs _), h.reg]
  · rw [hcores, hcores, h.cores]
  · obtain ⟨r, rfl⟩ := h.rest
    exact ⟨r, hg s r⟩

theorem State.Alike.setReg {a : Nat} (ha : Unrouted a) (v : Word) : State.Alike (s.setReg a v) (t.setReg a v) := by
  refine ⟨fun b => ?_, fun i => ?_, ?_⟩
  · rw [State.reg_setReg, State.reg_setReg, h.reg]
  · rw [State.irqCores_setReg _ v ha, State.irqCores_setReg _ v ha, h.cores]
  · obtain ⟨r, rfl⟩ := h.rest
    exact ⟨_, rfl⟩

theorem State.Alike.put {x : Fld} (hx : Unrouted x.addr) (v : Nat) : State.Alike (s.put x v) (t.put x v) := by
  unfold State.put
  rw [h.reg]
  exact h.setReg hx _

theorem State.Alike.addF {x : Fld} (hx : Unrouted x.addr) (n : Nat) : State.Alike (s.addF x n) (t.addF x n) := by
  unfold State.addF
  rw [h.f]
  exact h.put hx _

theorem State.Alike.ite {s' t' : State} (h' : State.Alike s' t') (b : Prop) [Decidable b] :
    State.Alike (if b then s else s') (if b then t else t') := by
  split
  · exact h
  · exact h'

end

theorem State.Alike.refl (s : State) : State.Alike s s := ⟨fun _ => rfl, fun _ => rfl, s.regs, rfl⟩

/-! ### Events and counters (R422 to R426, R539) -/

theorem unrouted_of_lt {a : Nat} (h : a < 0x1000440) : Unrouted a := by
  intro c _
  unfold ST_IRQ_CFG
  omega

theorem unrouted_irqStat {i : Nat} (h : i < 512) : Unrouted (HIF_IRQ_STAT (i / 32)) := unrouted_of_lt (by unfold HIF_IRQ_STAT; omega)

section
variable {s t : State} (h : State.Alike s t)
include h

theorem State.Alike.raise {i : Nat} (hi : i < 512) : State.Alike (s.raise i) (t.raise i) := by
  have hstat := h.setReg (unrouted_irqStat hi) (s.reg (HIF_IRQ_STAT (i / 32)) ||| (1#32 <<< (i % 32)))
  have hvec := (hstat.update (g := fun u => u.setHost { u.host with
    pend := ladd u.host.pend ((s.setReg (HIF_IRQ_STAT (i / 32)) (s.reg (HIF_IRQ_STAT (i / 32)) ||| (1#32 <<< (i % 32)))).f
      (HIF_IRQ_ROUTE_VECTOR i)) }) (fun _ _ => rfl) (fun _ => rfl)).ite hstat
    ((s.setReg (HIF_IRQ_STAT (i / 32)) (s.reg (HIF_IRQ_STAT (i / 32)) ||| (1#32 <<< (i % 32)))).on (HIF_IRQ_ROUTE_EN i) = true)
  have hmark := hvec.update (g := fun u => u.setTail { u.tail with taskHit := ladd u.tail.taskHit (4096 + i) }) (fun _ _ => rfl) (fun _ => rfl)
  unfold State.raise State.sendIrq
  dsimp only
  rw [h.reg, hstat.on, hstat.f, hmark.cores]
  exact hmark.update (g := fun u => u.setMesh { u.mesh with irqMsgs := u.mesh.irqMsgs ++ _ }) (fun _ _ => rfl) (fun _ => rfl)

theorem State.Alike.when {g g' : State → State} (hg : State.Alike (g s) (g' t)) (b : Bool) : State.Alike (s.when b g) (t.when b g') :=
  hg.ite h _

end

theorem unrouted_counter {n : Nat} (hn : n < 1000) : Unrouted (cntF n).addr ∧ Unrouted (cntOvfF n).addr ∧ Unrouted (cntFaultF n).addr := by
  unfold cntF cntOvfF cntFaultF
  rw [if_pos hn, if_pos hn, if_pos hn]
  have hstat : Unrouted (INT_LEAF_STAT n) := unrouted_of_lt (by unfold INT_LEAF_STAT; omega)
  exact ⟨hstat, hstat, hstat⟩

/-- Change the state of the counter tree. -/
def State.onIntg (s : State) (f : Integ → Integ) : State := { s with intg := f s.intg }

/-- A counter overflows: it restarts. -/
def State.cntZeroed (s : State) (n : Nat) (fault : Bool) : State :=
  if fault = true then ((s.put (cntF n) 0).addF (cntOvfF n) 1).put (cntFaultF n) 1 else (s.put (cntF n) 0).addF (cntOvfF n) 1

/-- The overflow is logged. -/
def State.cntLogged (s : State) (n : Nat) (fault : Bool) : State :=
  (s.cntZeroed n fault).onIntg fun x => { x with
    log := logInsert ⟨cntLevel n, fault, if n < 1000 then n else if cntLevel n = 2 then 0 else n - 1000, s.fig.toNat % 2 ^ 48⟩ x.log
    overs := if fault then x.overs else ladd x.overs n }

/-- Its parent is to count 1 at the next edge. -/
def State.cntDue (s : State) (p : Nat) : State := s.onIntg fun x => { x with due := x.due ++ [(p, s.fig.toNat)] }

theorem State.cntOverflow_eq (s : State) {n : Nat} (hn : n < 1000) (fault : Bool) :
    s.cntOverflow n fault =
      (if (s.cntLogged n fault).on (cntEnF n) = true then (s.cntLogged n fault).cntDue (n / 32) else s.cntLogged n fault).raise (208 + cntLevel n) := by
  have hparent : cntParent n = some (n / 32) := if_pos hn
  unfold State.cntOverflow
  rw [hparent]
  rfl

section
variable {s t : State} (h : State.Alike s t)
include h

theorem State.Alike.onIntg (f : Integ → Integ) : State.Alike (s.onIntg f) (t.onIntg f) :=
  h.update (g := fun u => u.onIntg f) (fun _ _ => rfl) fun _ => rfl

variable {n : Nat} (hn : n < 1000)
include hn

theorem State.Alike.cntLogged (fault : Bool) : State.Alike (s.cntLogged n fault) (t.cntLogged n fault) := by
  obtain ⟨hcount, hovf, hfault⟩ := unrouted_counter hn
  have hput := (h.put hcount 0).addF hovf 1
  unfold State.cntLogged
  rw [h.same State.fig fun _ _ => rfl]
  exact ((hput.put hfault 1).ite hput (fault = true)).onIntg _

theorem State.Alike.cntOverflow (fault : Bool) : State.Alike (s.cntOverflow n fault) (t.cntOverflow n fault) := by
  have hlevel : 208 + cntLevel n < 512 := by unfold cntLevel; rw [if_pos hn]; decide
  have hlogged := h.cntLogged hn fault
  have hdue : State.Alike ((s.cntLogged n fault).cntDue (n / 32)) ((t.cntLogged n fault).cntDue (n / 32)) := by
    unfold State.cntDue
    rw [hlogged.same State.fig fun _ _ => rfl]
    exact hlogged.onIntg _
  rw [State.cntOverflow_eq _ hn, State.cntOverflow_eq _ hn, hlogged.on]
  exact (hdue.ite hlogged _).raise hlevel

omit h hn in
theorem State.cntParity_eq (u : State) :
    u.cntParity n = if n ∈ u.intg.bad then (u.onIntg fun x => { x with bad := ldel x.bad n }).cntOverflow n true else u := rfl

omit h hn in
theorem State.cntLeak_eq (u : State) : u.cntLeak n =
    if u.on (cntEnF n) ∧ n ∉ u.intg.leaked ∧ u.fig.toNat % 2 ^ max 10 (u.f (cntLeakF n)) = 0 then
      ((u.onIntg fun x => { x with leaked := ladd x.leaked n }).cntParity n).put (cntF n)
        (((u.onIntg fun x => { x with leaked := ladd x.leaked n }).cntParity n).f (cntF n) - 1)
    else u := rfl

theorem State.Alike.cntParity : State.Alike (s.cntParity n) (t.cntParity n) := by
  rw [State.cntParity_eq, State.cntParity_eq, h.same State.intg fun _ _ => rfl]
  exact ((h.onIntg _).cntOverflow hn true).ite h _

theorem State.Alike.cntLeak : State.Alike (s.cntLeak n) (t.cntLeak n) := by
  have hleak := (h.onIntg (fun x => { x with leaked := ladd x.leaked n })).cntParity hn
  rw [State.cntLeak_eq, State.cntLeak_eq, h.on, h.f, h.same State.intg fun _ _ => rfl, h.same State.fig fun _ _ => rfl, hleak.f]
  exact (hleak.put (unrouted_counter hn).1 _).ite h _

theorem State.Alike.cntAdd (k : Nat) : State.Alike (s.cntAdd n k) (t.cntAdd n k) := by
  have hleak := (h.cntLeak hn).cntParity hn
  unfold State.cntAdd
  dsimp only
  rw [h.on, hleak.f, hleak.f, hleak.same State.intg fun _ _ => rfl]
  split
  · split
    · exact hleak
    split
    · exact hleak.cntOverflow hn false
    · exact hleak.put (unrouted_counter hn).1 _
  · exact h

theorem State.Alike.leafEvent (ue : Bool) (index : Nat) : State.Alike (s.leafEvent n ue index) (t.leafEvent n ue index) := by
  have hlast : Unrouted (INT_LEAF_LAST n) := unrouted_of_lt (by unfold INT_LEAF_LAST; omega)
  have hrecord := ((h.put (x := INT_LEAF_LAST_VALID n) hlast 1).put (x := INT_LEAF_LAST_UE n) hlast (b2n ue)).put (x := INT_LEAF_LAST_INDEX n)
    hlast index
  unfold State.leafEvent
  dsimp only
  rw [h.on, h.on]
  have hkept := h.ite hrecord ((s.on (INT_LEAF_LAST_VALID n) && s.on (INT_LEAF_LAST_UE n) && !ue) = true)
  rw [hkept.f]
  exact (hkept.cntAdd hn _).ite h _

end

/-! ### The error of a memory word of a core (R438, R444) -/

theorem unrouted_core {c a : Nat} (h : a < 0x1000440 + c * 0x10000) (h' : 0x1000000 + c * 0x10000 ≤ a) : Unrouted a := by
  intro d hd
  unfold ST_IRQ_CFG
  omega

theorem coreLeaf_lt {c : Nat} (hc : c < 17) : coreLeaf c < 1000 := by
  unfold coreLeaf
  split <;> omega

section
variable {s t : State} (h : State.Alike s t) {c : Nat} (hc : c < 17)
include h hc

theorem State.Alike.coreMemErr (m i : Nat) (ue : Bool) : State.Alike (s.coreMemErr c m i ue) (t.coreMemErr c m i ue) := by
  have herr : Unrouted (ST_MEM_ERR c) := unrouted_core (c := c) (by unfold ST_MEM_ERR; omega) (by unfold ST_MEM_ERR; omega)
  have hfill := (((h.put (x := ST_MEM_ERR_VALID c) herr 1).put (x := ST_MEM_ERR_UE c) herr (b2n ue)).put (x := ST_MEM_ERR_MEM c) herr m).put
    (x := ST_MEM_ERR_WORD c) herr i
  have hpend : Unrouted (ST_IRQ_PEND_LO c) := fun d hd => by unfold ST_IRQ_CFG ST_IRQ_PEND_LO; omega
  have hheld := ((hfill.ite h ((ue && !s.on (ST_MEM_ERR_UE c)) = true)).put (x := ST_MEM_ERR_OVF c) herr 1).ite hfill
    (s.on (ST_MEM_ERR_VALID c) = true)
  have hleaf := hheld.leafEvent (coreLeaf_lt hc) ue 0
  unfold State.coreMemErr State.setPend
  dsimp only
  simp only [Nat.reduceLeDiff, Nat.reduceLT, and_true, if_false, if_true]
  rw [h.on, h.on, hleaf.reg]
  exact hleaf.setReg hpend _

omit h hc in
theorem State.coreMemRead_err (u : State) (m i : Nat) :
    u.coreMemRead c m i = (match decode32 ((u.coreOf c).memRaw m i) with
      | .corrected _ => u.coreMemErr c m i false
      | .uncorrectable _ => u.coreMemErr c m i true
      | _ => u, decode32 ((u.coreOf c).memRaw m i)) := by
  unfold State.coreMemRead
  dsimp only
  generalize decode32 ((u.coreOf c).memRaw m i) = x
  cases x <;> rfl

theorem State.Alike.coreMemRead (m i : Nat) : State.Alike (s.coreMemRead c m i).1 (t.coreMemRead c m i).1 ∧
    (t.coreMemRead c m i).2 = (s.coreMemRead c m i).2 := by
  have hcore : t.coreOf c = s.coreOf c := h.same (fun u => u.coreOf c) fun _ _ => rfl
  rw [State.coreMemRead_err, State.coreMemRead_err, hcore]
  refine ⟨?_, rfl⟩
  generalize decode32 ((s.coreOf c).memRaw m i) = x
  cases x with
  | corrected => exact h.coreMemErr hc m i false
  | uncorrectable => exact h.coreMemErr hc m i true
  | clean => exact h
  | poison => exact h

/-- The reads of a line give the same data in states whose registers read alike, and leave such states. -/
theorem lineGather_alike (n m i d p : Nat) : State.Alike (lineGather n c m i d p s).1 (lineGather n c m i d p t).1 ∧
    (lineGather n c m i d p t).2 = (lineGather n c m i d p s).2 := by
  induction n generalizing i d p s t with
  | zero => exact ⟨h, rfl⟩
  | succ n ih =>
    obtain ⟨halike, hdata⟩ := h.coreMemRead hc m i
    rw [lineGather, lineGather, hdata]
    exact ih halike _ _ _

end

end Sys2Proof.Machine
end

section
/-! SUPPORT. The requests of a station core (R436, R444), its parallel moves (R441), and the statement about its memory instructions. -/

namespace Sys2Proof.Machine

/-! ### A request enters the mesh -/

/-- Access `a` has taken tag `g` of its initiator. -/
def State.requested (s : State) (a : Acc) (g : Nat) : State :=
  (s.setTagAt (64 * a.src + g) (.queued { a with tag := g })).setMesh
    { (s.setTagAt (64 * a.src + g) (.queued { a with tag := g })).mesh with out := s.mesh.out ++ [64 * a.src + g] }

section
variable (s : State) (a : Acc) (g : Nat)

theorem State.meshQueue_of_find {a : Acc} {g : Nat}
    (h : (List.range (tagCount a.src)).find? (fun k => s.tagAt (64 * a.src + k) == .idle) = some g) :
    s.meshQueue a = some (s.requested a g) := by
  unfold State.meshQueue
  rw [h]
  rfl

theorem State.requested_tagAt : (s.requested a g).tagAt (64 * a.src + g) = .queued { a with tag := g } := by
  have htags : (s.requested a g).mesh.tags = mset s.mesh.tags .idle (64 * a.src + g) (.queued { a with tag := g }) := rfl
  rw [State.tagAt, htags, mget_mset_self]

theorem State.requested_out : (s.requested a g).mesh.out = s.mesh.out ++ [64 * a.src + g] := rfl

theorem State.requested_coreOf (d : Nat) : (s.requested a g).coreOf d = s.coreOf d := rfl

theorem State.requested_reg (b : Nat) : (s.requested a g).reg b = s.reg b := rfl

theorem State.requested_only : Only 1024 s (s.requested a g) := (setMesh_only _ _).after (by decide) (setTagAt_only _ _ _)

end

section
variable (s : State) {c g : Nat} {w : Word} {k : Nat}

/-- A core that sends a request and waits for the answer. -/
theorem State.coreCmd_stalls (h : s.Issues c w k) (hflat : (s.coreOf c).ctlReg 5 = 0) {f : Nat → Word → State → CRes} {a : Acc} {st : Stall}
    (hsrc : a.src = c + 1)
    (hf : f c w (s.issuing c) = .stall (((s.issuing c).requested a g).setCore c { s.coreOf c with stall := some st })) :
    ∃ t, Host.Outcome.next (s.coreCmd c w k f) = (.next t : Out) ∧ t.coreOf c = { s.coreOf c with stall := some st } ∧ t.pcOf c = s.pcOf c ∧
      t.tagAt (64 * (c + 1) + g) = .queued { a with tag := g } ∧ t.mesh.out = s.mesh.out ++ [64 * (c + 1) + g] ∧
      Keeps (fun a => a = ST_STAT c) [.core, .mesh] s t := by
  have hrun : s.coreSt c = 1 := h.2.2.1
  refine ⟨_, congrArg _ ((s.coreCmd_of_flat h hflat f).trans (congrArg ((s.issuing c).retire c (s.pcOf c) false) hf)),
    State.coreOf_setCore_self _ _ _, s.issuing_pcOf hrun, ?_, ?_, ?_⟩
  · rw [← hsrc]
    exact (s.issuing c).requested_tagAt a g
  · rw [← hsrc]
    exact (s.issuing c).requested_out a g
  · exact ((setCore_only _ _ _).after (by decide) ((State.requested_only _ _ _).after (by decide) (s.issuing_only.mono (by decide)) : Only 9217 _ _)).keeps
      fun b _ => s.issuing_reg hrun b

/-- A core that sends a posted request and goes on. -/
theorem State.coreCmd_posts (h : s.Issues c w k) (hflows : s.Flows c) {f : Nat → Word → State → CRes} {a : Acc} {u : State}
    (hsrc : a.src = c + 1) (hu : State.Alike s u) (hf : f c w (s.issuing c) = .done (u.requested a g)) :
    ∃ t, Host.Outcome.next (s.coreCmd c w k f) = (.next t : Out) ∧ t.coreOf c = s.coreOf c ∧ t.pcOf c = nextPc (s.pcOf c) ∧
      t.tagAt (64 * (c + 1) + g) = .queued { a with tag := g } ∧ (∀ d, d ≠ c → t.coreOf d = s.coreOf d) ∧
      Keeps (fun a => a = ST_STAT c) [.core, .mesh] s t := by
  obtain ⟨hflat, hstep, hskip⟩ := hflows
  have hcore (d : Nat) : (u.requested a g).coreOf d = s.coreOf d := hu.same (fun v => v.coreOf d) fun _ _ => rfl
  have hdone := (s.coreCmd_of_flat h hflat f).trans ((congrArg ((s.issuing c).retire c (s.pcOf c) false) hf).trans
    ((u.requested a g).retire_done (s.issuing c) (pc := s.pcOf c) (hcore c) hflat hstep hskip))
  refine ⟨_, congrArg _ hdone, State.coreOf_setCore_self _ _ _, ?_, ?_, fun d hd => ?_, ?_⟩
  · unfold State.goesOn
    rw [State.setCore_pcOf, State.setPc_pcOf, Nat.mod_eq_of_lt (nextPc_lt s.pcOf_lt)]
  · rw [← hsrc]
    exact u.requested_tagAt a g
  · unfold State.goesOn
    rw [State.coreOf_setCore_ne _ _ (Ne.symm hd), State.setPc_coreOf, State.coreOf_setCore_ne _ _ (Ne.symm hd), hcore d]
  · have hsame (p : Part) : p.Same s u := by
      obtain ⟨r, rfl⟩ := hu.rest
      cases p <;> rfl
    have hpending : u.pending = s.pending := hu.same _ fun _ _ => rfl
    have honly : Only 9217 u ((u.requested a g).goesOn c (s.coreOf c) (nextPc (s.pcOf c))) := (setCore_only _ _ _).after (by decide)
      ((setPc_only _ _ _).after (by decide) ((setCore_only _ _ _).after (by decide) ((u.requested_only a g).mono (by decide))))
    have hkeeps : Keeps (fun a => a = ST_STAT c) [.core, .mesh] u ((u.requested a g).goesOn c (s.coreOf c) (nextPc (s.pcOf c))) :=
      honly.keeps fun b hb => by
        unfold State.goesOn
        rw [State.setCore_reg, State.setPc_reg _ _ hb, State.setCore_reg, State.requested_reg]
    exact Keeps.trans ⟨hpending, fun b _ => hu.reg b, fun p _ => hsame p⟩ hkeeps

end

/-! ### Window loads and line moves -/

section
variable (s : State) {c g : Nat} {w : Word} (hwp : (List.range 2).all (fun i => !s.on (DBG_CORE_WP_CFG_EN c i)) = true)
  (hfind : (List.range (tagCount (c + 1))).find? (fun k => s.tagAt (64 * (c + 1) + k) == .idle) = some g)
include hfind

theorem State.issuing_queue {a : Acc} (hsrc : a.src = c + 1) : (s.issuing c).meshQueue a = some ((s.issuing c).requested a g) :=
  State.meshQueue_of_find (s.issuing c) (hsrc ▸ hfind)

theorem State.issuing_winLoad (addr ia size ref : Nat) (write : Bool) (data : Nat) :
    (s.issuing c).winLoad c w addr ia size ref write data false =
      .stall (((s.issuing c).requested (coreAcc c write ia size data 0 ref) g).setCore c { s.coreOf c with stall := some ⟨w, addr, false⟩ }) := by
  unfold State.winLoad
  rw [Bool.false_and, if_neg Bool.false_ne_true, s.issuing_queue hfind (a := coreAcc c write ia size data 0 ref) rfl]
  rfl

include hwp

/-- A load through a window. -/
theorem State.insnLoad_of_window (h : s.Issues c w 64) {ia : Nat} {w0 : Bool}
    (ha : ((s.coreOf c).lsAddr w).1 % lsBytes w = 0) (hregion : (s.coreOf c).region ((s.coreOf c).lsAddr w).1 = .win w0 ia)
    (hw0 : w0 = false ∨ lsBytes w = 4) :
    insnLoad false c w (s.issuing c) = .stall (((s.issuing c).requested (coreAcc c false ia (lsBytes w) 0 0 0) g).setCore c
      { s.coreOf c with stall := some ⟨w, ((s.coreOf c).lsAddr w).1, false⟩ }) := by
  have hload : (s.issuing c).dataLoad c ((s.coreOf c).lsAddr w).1 (lsBytes w) = .win ia := by
    have hwide : ¬ (w0 && lsBytes w != 4) = true := by rcases hw0 with rfl | hw <;> simp [*]
    unfold State.dataLoad
    rw [if_neg (not_not.2 ha), State.issuing_coreOf, hregion]
    exact if_neg hwide
  unfold insnLoad
  dsimp only
  rw [s.issuing_watched h.2.2.1 hwp, State.issuing_coreOf, hload]
  exact s.issuing_winLoad hfind _ _ _ _ _ _

/-- A LINE load. -/
theorem State.insnLineLoad_of_addrs (h : s.Issues c w 66) {ia m i : Nat} (haddrs : (s.coreOf c).lineAddrs w = .inr (ia, m, i)) :
    insnLineLoad false c w (s.issuing c) = .stall (((s.issuing c).requested (coreAcc c false ia 64 0 0 0) g).setCore c
      { s.coreOf c with stall := some ⟨w, ((s.coreOf c).lsAddr w).1, false⟩ }) := by
  unfold insnLineLoad
  dsimp only
  rw [State.issuing_coreOf, haddrs]
  dsimp only
  rw [s.issuing_watched h.2.2.1 hwp, s.issuing_watched h.2.2.1 hwp]
  exact s.issuing_winLoad hfind _ _ _ _ _ _

/-- A LINE store. -/
theorem State.insnLineStore_of_addrs (h : s.Issues c w 67) {ia m i d p : Nat} (haddrs : (s.coreOf c).lineAddrs w = .inr (ia, m, i))
    (hpost : ((s.coreOf c).lsAddr w).2 = none) (hgather : (lineGather 16 c m i 0 0 (s.issuing c)).2 = (d, p))
    (halike : State.Alike s (lineGather 16 c m i 0 0 (s.issuing c)).1) :
    insnLineStore false c w (s.issuing c) = .done ((lineGather 16 c m i 0 0 (s.issuing c)).1.requested (coreAcc c true ia 64 d p 1) g) := by
  have hqueue : (lineGather 16 c m i 0 0 (s.issuing c)).1.meshQueue (coreAcc c true ia 64 d p 1) =
      some ((lineGather 16 c m i 0 0 (s.issuing c)).1.requested (coreAcc c true ia 64 d p 1) g) := by
    refine State.meshQueue_of_find _ ?_
    have htag (k : Nat) : (lineGather 16 c m i 0 0 (s.issuing c)).1.tagAt k = s.tagAt k := halike.same (fun u => u.tagAt k) fun _ _ => rfl
    simp only [htag]
    exact hfind
  have hcore : ((lineGather 16 c m i 0 0 (s.issuing c)).1.requested (coreAcc c true ia 64 d p 1) g).coreOf c = s.coreOf c :=
    halike.same (fun u => u.coreOf c) fun _ _ => rfl
  unfold insnLineStore
  dsimp only
  rw [State.issuing_coreOf, haddrs]
  dsimp only
  rw [s.issuing_watched h.2.2.1 hwp, s.issuing_watched h.2.2.1 hwp, Bool.false_and, if_neg Bool.false_ne_true, hgather]
  dsimp only
  rw [hqueue]
  dsimp only
  rw [State.lsPost_of_none]
  rw [hcore, hpost]

end

/-! ### Parallel moves -/

theorem columns32_lt : ∀ c ∈ columns32, c < 2 ^ 7 := fun _ hc => List.mem_range.1 (List.mem_filter.1 (List.mem_of_mem_take hc)).1

theorem encode32_lt (d : Nat) : encode32 d false < 2 ^ 39 := by
  have hcheck : check32 (d % 2 ^ 32) < 2 ^ 7 := checkWith_lt columns32 _ columns32_lt
  unfold encode32
  rw [if_neg Bool.false_ne_true]
  omega

theorem lt_of_decode32_clean {x v : Nat} (h : decode32 x = .clean v) : v < 2 ^ 32 := by
  unfold decode32 decodeWith at h
  dsimp only at h
  split at h
  · injection h; omega
  split at h
  · cases h
  split at h
  · cases h
  split at h <;> cases h

/-- What a slot leaves in X or Y where it stores a half. -/
def halfStored (a u v : Nat) : Nat := if a % 4 = 0 then u / 2 ^ 16 * 2 ^ 16 + v else u % 2 ^ 16 + v * 2 ^ 16

/-- What a slot loads. -/
def halfLoaded (a v : Nat) : Nat := if a % 4 = 0 then v % 2 ^ 16 else v / 2 ^ 16

/-- The core after a load of X and a store to Y. -/
def Core.moved (x : Core) (sx sy : Slot2) (px py j v u : Nat) : Core :=
  (((x.setRaw 2 j (encode32 (halfStored py u (x.dReg sy.d)) false)).setD sx.d (halfLoaded px v)).setP sx.p
    (wrap 32 ((px : Int) + sext 16 (x.nReg sx.p)))).setP sy.p (wrap 32 ((py : Int) + sext 16 (x.nReg sy.p)))

section
variable (x : Core) {sx sy : Slot2} {px py j v u : Nat}

theorem Core.setP_pReg_ne {i k v : Nat} (h : i ≠ k) : (x.setP i v).pReg k = x.pReg k := by
  unfold Core.setP Core.pReg
  rw [mget_mset_ne _ _ _ _ _ _ h]

theorem Core.setP_pReg_self {i v : Nat} (h : v < 2 ^ 32) : (x.setP i v).pReg i = v := by
  unfold Core.setP Core.pReg
  rw [mget_mset_self]
  exact (BitVec.toNat_ofNat _ _).trans (Nat.mod_eq_of_lt h)

theorem Core.setD_dReg_self {i v : Nat} (h : v < 2 ^ 16) : (x.setD i v).dReg i = v := by
  unfold Core.setD Core.dReg
  rw [mget_mset_self]
  exact (BitVec.toNat_ofNat _ _).trans (Nat.mod_eq_of_lt h)

theorem Core.setRaw_memRaw_y {v : Nat} (h : v < 2 ^ 39) : (x.setRaw 2 j v).memRaw 2 j = v := by
  show (mget (mset x.ym 0 j (BitVec.ofNat 39 v)) 0 j).toNat = v
  rw [mget_mset_self]
  exact (BitVec.toNat_ofNat _ _).trans (Nat.mod_eq_of_lt h)

theorem halfLoaded_lt {px v : Nat} (h : v < 2 ^ 32) : halfLoaded px v < 2 ^ 16 := by
  unfold halfLoaded
  split <;> omega

theorem Core.moved_sameControl : x.SameControl (x.moved sx sy px py j v u) := 
  (x.setRaw_sameControl 2 j (encode32 (halfStored py u (x.dReg sy.d)) false)).trans ⟨rfl, rfl, rfl⟩

/-- What parallel moves leave. -/
theorem Core.moved_shows (hv : v < 2 ^ 32) (hne : sx.p ≠ sy.p) :
    (x.moved sx sy px py j v u).dReg sx.d = halfLoaded px v ∧
      (x.moved sx sy px py j v u).memRaw 2 j = encode32 (halfStored py u (x.dReg sy.d)) false ∧
      (x.moved sx sy px py j v u).pReg sx.p = wrap 32 ((px : Int) + sext 16 (x.nReg sx.p)) ∧
      (x.moved sx sy px py j v u).pReg sy.p = wrap 32 ((py : Int) + sext 16 (x.nReg sy.p)) ∧
      (x.moved sx sy px py j v u).a0 = x.a0 ∧ (x.moved sx sy px py j v u).a1 = x.a1 ∧ (x.moved sx sy px py j v u).xm = x.xm := by
  unfold Core.moved
  refine ⟨?_, ?_, ?_, Core.setP_pReg_self _ (wrap_lt _ _), rfl, rfl, rfl⟩
  · exact Core.setD_dReg_self _ (halfLoaded_lt hv)
  · exact Core.setRaw_memRaw_y x (encode32_lt _)
  · rw [Core.setP_pReg_ne _ (Ne.symm hne), Core.setP_pReg_self _ (wrap_lt _ _)]

/-- Slots that keep R441. -/
theorem Core.slotFault_none {i k : Nat} (hne : sx.p ≠ sy.p) (hx : (x.xyAt (x.pReg sx.p)) = some (1, i)) (hxa : x.pReg sx.p % 2 = 0)
    (hy : (x.xyAt (x.pReg sy.p)) = some (2, k)) (hya : x.pReg sy.p % 2 = 0) : x.slotFault sx sy = none := by
  unfold Core.slotFault
  dsimp only
  simp [hx, hy, hxa, hya, hne]

end

section
variable (s : State) {c : Nat} {sx sy : Slot2} {i j v u : Nat} (hsx : sx.en = true) (hsl : sx.st = false) (hsy : sy.en = true)
  (hss : sy.st = true) (hx : (s.coreOf c).xyAt ((s.coreOf c).pReg sx.p) = some (1, i))
  (hy : (s.coreOf c).xyAt ((s.coreOf c).pReg sy.p) = some (2, j))
  (hv : decode32 ((s.coreOf c).memRaw 1 i) = .clean v) (hu : decode32 ((s.coreOf c).memRaw 2 j) = .clean u)
include hsx hsl hsy hss hx hy hv hu

/-- A load of X and a store to Y, both of clean words. -/
theorem State.slots_of_clean (hya : (s.coreOf c).pReg sy.p % 2 = 0) :
    s.slots c sx sy = .done ((s.setCore c ((s.coreOf c).setRaw 2 j (encode32 (halfStored ((s.coreOf c).pReg sy.p) u ((s.coreOf c).dReg sy.d))
      false))).setCore c (((s.coreOf c).setRaw 2 j (encode32 (halfStored ((s.coreOf c).pReg sy.p) u ((s.coreOf c).dReg sy.d)) false)).setD sx.d
        (halfLoaded ((s.coreOf c).pReg sx.p) v))) := by
  have hload : s.slotRun c 1 (s.coreOf c) sx = .ok (s, some (halfLoaded ((s.coreOf c).pReg sx.p) v)) := by
    unfold State.slotRun State.slotMem
    rw [hsx, hsl]
    dsimp only
    rw [hx]
    dsimp only
    rw [s.memLoad_of_clean hv]
    rfl
  have hdReg : (s.coreOf c).dReg sy.d < 2 ^ 16 := BitVec.isLt _
  have hhalf : (if (s.coreOf c).pReg sy.p / 2 % 2 = 0 then u / 2 ^ 16 * 2 ^ 16 + (s.coreOf c).dReg sy.d % 2 ^ 16
      else u % 2 ^ 16 + (s.coreOf c).dReg sy.d % 2 ^ 16 * 2 ^ 16) = halfStored ((s.coreOf c).pReg sy.p) u ((s.coreOf c).dReg sy.d) := by
    have hword : (s.coreOf c).pReg sy.p / 2 % 2 = 0 ↔ (s.coreOf c).pReg sy.p % 4 = 0 := by omega
    unfold halfStored
    rw [Nat.mod_eq_of_lt hdReg]
    simp only [hword]
  have hstore : s.slotRun c 2 (s.coreOf c) sy = .ok (s.setCore c ((s.coreOf c).setRaw 2 j
      (encode32 (halfStored ((s.coreOf c).pReg sy.p) u ((s.coreOf c).dReg sy.d)) false)), none) := by
    unfold State.slotRun State.slotMem
    rw [hsy, hss]
    dsimp only
    rw [hy]
    dsimp only
    rw [if_pos rfl, s.coreMemHalf_of_clean hu, hhalf]
    rfl
  have hfails : s.slotFails c 2 (s.coreOf c) sy = false := by
    unfold State.slotFails
    rw [hss]
    simp
  unfold State.slots
  dsimp only
  rw [hfails, Bool.false_and, if_neg Bool.false_ne_true, hload]
  dsimp only
  rw [hstore]
  dsimp only
  unfold State.slotLoads
  rw [State.coreOf_setCore_self]

/-- The moves of an instruction that has no other operation. -/
theorem insnMac_moves (hne : sx.p ≠ sy.p) {w : Word} (hsxw : sx = slotOf w 9) (hsyw : sy = slotOf w 1)
    (hwatched : ∀ a st k, s.watched c a st false k = k) (hxa : (s.coreOf c).pReg sx.p % 2 = 0) (hya : (s.coreOf c).pReg sy.p % 2 = 0)
    (hxl : (s.coreOf c).ctlReg (20 + sx.p) / 2 ^ 30 = 0) (hyl : (s.coreOf c).ctlReg (20 + sy.p) / 2 ^ 30 = 0) :
    ∃ t, insnMac 0 0 false c w s = .done t ∧
      t.coreOf c = (s.coreOf c).moved sx sy ((s.coreOf c).pReg sx.p) ((s.coreOf c).pReg sy.p) j v u ∧
      Only 8192 s t ∧ ∀ d, d ≠ c → t.coreOf d = s.coreOf d := by
  have hslots := s.slots_of_clean hsx hsl hsy hss hx hy hv hu hya
  have hlinear (y : Core) (hy : y.ctl = (s.coreOf c).ctl) {k : Nat} (hk : (s.coreOf c).ctlReg (20 + k) / 2 ^ 30 = 0) :
      y.ctlReg (20 + k) / 2 ^ 30 = 0 := by
    unfold Core.ctlReg at hk ⊢
    rwa [hy]
  have hrun : ∃ a b d, insnMac 0 0 false c w s = .done ((((s.setCore c a).setCore c b).setCore c d).setCore c
      ((s.coreOf c).moved sx sy ((s.coreOf c).pReg sx.p) ((s.coreOf c).pReg sy.p) j v u)) := by
    refine ⟨?stored, ?loaded, ?stepped, ?run⟩
    case run =>
      unfold insnMac
      dsimp only
      rw [← hsxw, ← hsyw, (s.coreOf c).slotFault_none hne hx hxa hy hya]
      dsimp only
      rw [hsx, hsy, if_pos rfl, if_pos rfl, hwatched, hwatched, hslots]
      unfold CRes.andThen
      dsimp only
      rw [if_pos rfl, if_pos rfl, if_pos rfl,
        State.postMod_linear _ (i := sx.p) (by rw [State.coreOf_setCore_self]; exact hlinear _ rfl hxl),
        State.postMod_linear _ (i := sy.p) (by rw [State.coreOf_setCore_self, State.coreOf_setCore_self]; exact hlinear _ rfl hyl)]
      simp only [State.coreOf_setCore_self]
      rw [Core.setP_pReg_ne _ hne]
      rfl
  obtain ⟨a, b, d, hrun⟩ := hrun
  refine ⟨_, hrun, State.coreOf_setCore_self _ _ _, (setCore_only _ _ _).after (by decide) ((setCore_only _ _ _).after (by decide)
    ((setCore_only _ _ _).after (by decide) (setCore_only _ _ _))), fun e he => ?_⟩
  rw [State.coreOf_setCore_ne _ _ (Ne.symm he), State.coreOf_setCore_ne _ _ (Ne.symm he), State.coreOf_setCore_ne _ _ (Ne.symm he)]
  exact State.coreOf_setCore_ne _ _ (Ne.symm he)

end

/-- A LINE store of clean words (R436). -/
theorem State.coreCmd_lineStore (s : State) {c g : Nat} {w : Word} (hwp : (List.range 2).all (fun i => !s.on (DBG_CORE_WP_CFG_EN c i)) = true)
    (h : s.Issues c w 67) (hflows : s.Flows c) {ia m i d p : Nat} (haddrs : (s.coreOf c).lineAddrs w = .inr (ia, m, i))
    (hpost : ((s.coreOf c).lsAddr w).2 = none) (hgather : lineGather 16 c m i 0 0 s = (s, d, p))
    (hfind : (List.range (tagCount (c + 1))).find? (fun k => s.tagAt (64 * (c + 1) + k) == .idle) = some g) :
    ∃ t, Host.Outcome.next (s.coreCmd c w 67 (insnLineStore false)) = (.next t : Out) ∧ t.coreOf c = s.coreOf c ∧ t.pcOf c = nextPc (s.pcOf c) ∧
      t.tagAt (64 * (c + 1) + g) = .queued { coreAcc c true ia 64 d p 1 with tag := g } ∧ (∀ d, d ≠ c → t.coreOf d = s.coreOf d) ∧
      Keeps (fun a => a = ST_STAT c) [.core, .mesh] s t := by
  have hissued : State.Alike s (s.issuing c) :=
    ⟨s.issuing_reg h.2.2.1, s.irqCores_setReg _ (unrouted_core (c := c) (by unfold ST_STAT_STATE ST_STAT; dsimp only; omega) (by unfold ST_STAT_STATE ST_STAT; dsimp only; omega)), ⟨_, rfl⟩⟩
  obtain ⟨halike, hdata⟩ := lineGather_alike hissued h.1 16 m i 0 0
  rw [hgather] at halike hdata
  exact s.coreCmd_posts h hflows rfl halike (s.insnLineStore_of_addrs hwp hfind h haddrs hpost hdata halike)

/-- Settles O44, instruction by instruction: what each does to its core, and how a request enters the mesh. -/
theorem coreMemory : Obligations.CoreMemory := by
  unfold Obligations.CoreMemory
  intro s
  refine ⟨fun c w a m i v h hf hwp haddr ha hxy hv => s.coreCmd_load hwp h hf haddr ha hxy hv,
    fun c w a m i v step h hf hwp haddr hlin hbytes ha hxy hv => s.coreCmd_loadPost hwp h hf haddr hlin hbytes ha hxy hv,
    ?window, ?word, ?half, ?line, ?lineStore,
    fun c w m i v h hf hwp ha hxy hv => s.coreCmd_lr hwp h hf ha hxy hv,
    fun c w m i h hf hwp ha hxy hheld => s.coreCmd_sc_held hwp h hf ha hxy hheld,
    fun c w m i h hf hwp ha hxy hlost => s.coreCmd_sc_lost hwp h hf ha hxy hlost, ?moves⟩
  case window =>
    intro c g w a ia w0 h hf hwp haddr ha hregion hw0 hfind
    subst haddr
    have hload := s.insnLoad_of_window hwp hfind h ha hregion hw0
    obtain ⟨t, ht, hcore, hpc, htag, hout, hkeeps⟩ := s.coreCmd_stalls h hf.1 rfl hload
    exact ⟨t, ht, hcore, hpc, htag.trans (by unfold coreAcc; rw [Nat.zero_shiftLeft]; rfl), hout, hkeeps⟩
  case word =>
    intro c w a m i h hf hwp haddr hsize ha hxy
    have hbytes : lsBytes w = 4 := by unfold lsBytes; rcases hsize with e | e <;> rw [e] <;> rfl
    have hvalue : (s.coreOf c).lsValue w = if fget w 26 25 = 1 then (s.coreOf c).pairD (fget w 19 16)
        else ((s.coreOf c).acc (fget w 19 16)).v.toNat % 2 ^ 32 := if_neg (by omega)
    exact s.coreCmd_store hwp h hf haddr (hbytes ▸ ha) hxy hvalue rfl ((if_pos hbytes).trans rfl)
  case half =>
    intro c w a m i v h hf hwp haddr hsize ha hxy hv
    have hbytes : lsBytes w = 2 := by unfold lsBytes; rw [hsize]; rfl
    have hword : a / 2 % 2 = 0 ↔ a % 4 = 0 := by omega
    have hd : (s.coreOf c).dReg (fget w 19 16) < 2 ^ 16 := BitVec.isLt _
    refine s.coreCmd_store hwp h hf haddr (hbytes ▸ ha) hxy (if_pos hsize) rfl ?_
    rw [hbytes, if_neg (by decide), (s.issuing c).coreMemHalf_of_clean (c := c) hv, Nat.mod_eq_of_lt hd]
    simp only [hword, State.issuing_coreOf]
  case line =>
    intro c g w ia m i h hf hwp haddrs hfind
    obtain ⟨t, ht, hcore, hpc, htag, hout, hkeeps⟩ := s.coreCmd_stalls h hf.1 rfl (s.insnLineLoad_of_addrs hwp hfind h haddrs)
    exact ⟨t, ht, hcore, hpc, htag.trans (by unfold coreAcc; rw [Nat.zero_shiftLeft]; rfl), hkeeps⟩
  case lineStore =>
    exact fun c g w ia m i d p h hf hwp haddrs hpost hgather hfind => s.coreCmd_lineStore hwp h hf haddrs hpost hgather hfind
  case moves =>
    intro c w sx sy px py i j v u h hf hwp hsxw hsyw hsx hsl hsy hss hne hpx hpy hxa hya hx hy hv hu hxl hyl
    subst hpx hpy
    obtain ⟨t, hrun, hcore, honly, hothers⟩ := insnMac_moves (s.issuing c) (c := c) hsx hsl hsy hss hx hy hv hu hne hsxw hsyw
      (fun a st k => s.issuing_watched h.2.2.1 hwp a st false k) hxa hya hxl hyl
    obtain ⟨t, ht, hcore, hpc, -, -, hkeeps⟩ := s.coreCmd_steps h hf hrun hcore (Core.moved_sameControl _) honly hothers
    obtain ⟨hd, hmem, hpx, hpy, ha0, ha1, hxm⟩ := (s.coreOf c).moved_shows (py := (s.coreOf c).pReg sy.p) (px := (s.coreOf c).pReg sx.p)
      (sx := sx) (j := j) (u := u) (lt_of_decode32_clean hv) hne
    rw [State.issuing_coreOf] at hcore
    rw [← hcore] at hd hmem hpx hpy ha0 ha1 hxm
    exact ⟨t, ht, hd, hmem, hpx, hpy, ha0, ha1, hxm, hpc, hkeeps⟩

end Sys2Proof.Machine
end

section
/-! SUPPORT. The DMA rings of the host interface (R541 to R543), and the statement about them. -/

namespace Sys2Proof.Machine

/-! ### A ring enters ERROR (R543) -/

/-- Of the host interface an event changes the pending vectors alone. -/
theorem State.raise_host (s : State) (i : Nat) : (s.raise i).host = { s.host with pend := (s.raise i).host.pend } := by
  unfold State.raise State.sendIrq
  dsimp only
  split <;> rfl

theorem hifIrqStat_lt {r o : Nat} (ho : 0xc20000 ≤ o) : o + r * 0x20 ≠ HIF_IRQ_STAT 11 := by
  have hstat : HIF_IRQ_STAT 11 < 0xc20000 := by decide
  omega

/-- Ring `r` has entered ERROR. -/
def State.ringFailed (s : State) (r cause : Nat) : State := ((s.put (HIF_RING_STAT_ERROR r) 1).put (HIF_RING_STAT_CAUSE r) cause).raise 353

section
variable (s : State) {r : Nat} (cause : Nat)

theorem State.ringError_eq (h : s.on (HIF_RING_STAT_ERROR r) = false) : s.ringError r cause = s.ringFailed r cause :=
  if_neg (by rw [h]; exact Bool.false_ne_true)

theorem State.ringFailed_reg {a : Nat} (hstat : a ≠ HIF_RING_STAT r) (hirq : a ≠ HIF_IRQ_STAT 11) : (s.ringFailed r cause).reg a = s.reg a := by
  unfold State.ringFailed
  rw [State.raise_reg _ hirq, State.reg_put_ne _ _ hstat.symm, State.reg_put_ne _ _ hstat.symm]

theorem State.ringFailed_f {x : Fld} (hstat : x.addr ≠ HIF_RING_STAT r) (hirq : x.addr ≠ HIF_IRQ_STAT 11) : (s.ringFailed r cause).f x = s.f x :=
  State.f_of_reg (s.ringFailed_reg cause hstat hirq)

theorem State.ringFailed_error : (s.ringFailed r cause).on (HIF_RING_STAT_ERROR r) = true := by
  unfold State.ringFailed
  rw [State.raise_on _ (hifIrqStat_lt (by decide)), State.on_put_apart _ _ (by simp) (by simp) (.inr (.inr (by simp)))]
  exact State.on_put_one _ rfl (by simp)

theorem State.ringFailed_cause {cause : Nat} (hcause : cause < 16) : (s.ringFailed r cause).f (HIF_RING_STAT_CAUSE r) = cause := by
  unfold State.ringFailed
  rw [State.raise_f _ (hifIrqStat_lt (by decide)), State.f_put _ _ _ (by simp) (by simp)]
  exact Nat.mod_eq_of_lt hcause

theorem State.ringFailed_irq : ((s.ringFailed r cause).reg (HIF_IRQ_STAT 11)).toNat.testBit 1 = true := State.raise_irq _ 353

theorem State.ringFailed_host : (s.ringFailed r cause).host = { s.host with pend := (s.ringFailed r cause).host.pend } := State.raise_host _ 353

theorem State.ringFailed_only : Only 132609 s (s.ringFailed r cause) :=
  (raise_only _ _).after (by decide) ((put_only _ _ _).after (by decide) ((put_only _ _ _).mono (by decide)))

end

/-! ### The ring registers (R541, R543) -/

section
variable (s : State) {r : Nat} (v : Word)

theorem ringRegs_ne : HIF_RING_CFG r ≠ HIF_RING_PTR r ∧ HIF_RING_CFG r ≠ HIF_RING_STAT r ∧ HIF_RING_PTR r ≠ HIF_RING_STAT r := by
  refine ⟨?_, ?_, ?_⟩ <;> simp

/-- What a write of HIF_RING_CFG leaves of the register while EN is 0. -/
def State.ringConfigured (r : Nat) (v : Word) : State :=
  ((s.put (HIF_RING_CFG_VECTOR r) (fget v 26 16)).put (HIF_RING_CFG_EN r) (fget v 31 31)).put (HIF_RING_CFG_SIZE r) (fget v 4 0)

theorem State.ringConfigured_shows : (s.ringConfigured r v).f (HIF_RING_CFG_EN r) = fget v 31 31 ∧
    (s.ringConfigured r v).f (HIF_RING_CFG_SIZE r) = fget v 4 0 ∧ (s.ringConfigured r v).f (HIF_RING_CFG_VECTOR r) = fget v 26 16 := by
  unfold State.ringConfigured
  refine ⟨?_, ?_, ?_⟩
  · rw [State.f_put_apart _ _ (by simp) (by simp) (.inr (.inr (by simp))), State.f_put _ _ _ (by simp) (by simp)]
    exact Nat.mod_eq_of_lt (BitVec.isLt _)
  · rw [State.f_put _ _ _ (by simp) (by simp)]
    exact Nat.mod_eq_of_lt (BitVec.isLt _)
  · rw [State.f_put_apart _ _ (by simp) (by simp) (.inr (.inr (by simp))), State.f_put_apart _ _ (by simp) (by simp) (.inr (.inl (by simp))),
      State.f_put _ _ _ (by simp) (by simp)]
    exact Nat.mod_eq_of_lt (BitVec.isLt _)

/-- What a write of HIF_RING_CFG that sets EN leaves. -/
def State.ringStarted (r : Nat) (v : Word) : State :=
  (((s.ringConfigured r v).ringForget r).setReg (HIF_RING_PTR r) 0).setReg (HIF_RING_STAT r) 0

theorem State.ringStarted_reg {a : Nat} (hptr : a ≠ HIF_RING_PTR r) (hstat : a ≠ HIF_RING_STAT r) :
    (s.ringStarted r v).reg a = (s.ringConfigured r v).reg a := by
  unfold State.ringStarted
  rw [State.reg_setReg_ne _ _ hstat.symm, State.reg_setReg_ne _ _ hptr.symm]
  exact State.reg_congr ((ringForget_only _ r).regs (by decide)) a

theorem State.ringStarted_zero : (s.ringStarted r v).reg (HIF_RING_PTR r) = 0 ∧ (s.ringStarted r v).reg (HIF_RING_STAT r) = 0 := by
  unfold State.ringStarted
  constructor
  · rw [State.reg_setReg_ne _ _ ringRegs_ne.2.2.symm, State.reg_setReg, if_pos rfl]
  · rw [State.reg_setReg, if_pos rfl]

theorem State.ringForget_host (r : Nat) : (s.ringForget r).host =
    { s.host with descs := s.host.descs.filter (fun d => d.ring != r), todo := (s.ringForget r).host.todo, ops := (s.ringForget r).host.ops } := rfl

theorem State.ringStarted_host : (s.ringStarted r v).host =
    { s.host with
      descs := s.host.descs.filter (fun d => d.ring != r), todo := (s.ringStarted r v).host.todo, ops := (s.ringStarted r v).host.ops } := by
  unfold State.ringStarted
  rw [State.setReg_host, State.setReg_host]
  exact State.ringForget_host _ r

theorem State.ringConfigured_only : Only 1 s (s.ringConfigured r v) :=
  (put_only _ _ _).after (by decide) ((put_only _ _ _).after (by decide) (put_only _ _ _))

theorem State.ringStarted_only : Only 131073 s (s.ringStarted r v) :=
  (setReg_only _ _ _).after (by decide) ((setReg_only _ _ _).after (by decide)
    ((ringForget_only _ _).after (by decide) ((s.ringConfigured_only v).mono (by decide))))

/-- EN goes from 0 to 1. -/
theorem ringEnable_starts (hr : r < 1024) (hoff : s.on (HIF_RING_CFG_EN r) = false) (hv : v.toNat.testBit 31 = true) :
    ∃ t, exec (.ringEnable r v) s = .next t ∧ t.reg (HIF_RING_PTR r) = 0 ∧ t.reg (HIF_RING_STAT r) = 0 ∧ t.on (HIF_RING_CFG_EN r) = true ∧
      t.f (HIF_RING_CFG_SIZE r) = fget v 4 0 ∧ t.f (HIF_RING_CFG_VECTOR r) = fget v 26 16 ∧
      t.host = { s.host with descs := s.host.descs.filter (fun d => d.ring != r), todo := t.host.todo, ops := t.host.ops } ∧
      Keeps (fun a => a = HIF_RING_CFG r ∨ a = HIF_RING_PTR r ∨ a = HIF_RING_STAT r) [.host] s t := by
  obtain ⟨hptr, hstat, -⟩ := ringRegs_ne (r := r)
  have hen : fget v 31 31 = 1 := by rw [fget_31, hv]; rfl
  have hexec : exec (.ringEnable r v) s = .next (s.ringStarted r v) := by
    show Host.Outcome.next (if r < 1024 then s.ringCfg r v else s) = _
    rw [if_pos hr]
    unfold State.ringCfg
    dsimp only
    rw [hoff, if_neg Bool.false_ne_true, if_pos (by rw [hen]; rfl)]
    rfl
  obtain ⟨hzptr, hzstat⟩ := s.ringStarted_zero (r := r) v
  obtain ⟨hfen, hsize, hvec⟩ := s.ringConfigured_shows (r := r) v
  have hcfg {x : Fld} (hx : x.addr = HIF_RING_CFG r) : (s.ringStarted r v).f x = (s.ringConfigured r v).f x :=
    State.f_of_reg (s.ringStarted_reg v (hx ▸ hptr) (hx ▸ hstat))
  have hon : (s.ringStarted r v).on (HIF_RING_CFG_EN r) = true := by
    rw [State.on, hcfg rfl, hfen, hen]
    rfl
  refine ⟨_, hexec, hzptr, hzstat, hon, (hcfg rfl).trans hsize, (hcfg rfl).trans hvec, s.ringStarted_host v,
    (s.ringStarted_only v).keeps fun a ha => ?_⟩
  simp only [not_or] at ha
  obtain ⟨hcfg, hptr, hstat⟩ := ha
  rw [s.ringStarted_reg v hptr hstat]
  unfold State.ringConfigured
  rw [State.reg_put_ne _ _ (Ne.symm hcfg), State.reg_put_ne _ _ (Ne.symm hcfg), State.reg_put_ne _ _ (Ne.symm hcfg)]

/-- EN is 1: SIZE stays. -/
theorem ringEnable_keepsSize (hr : r < 1024) (hon : s.on (HIF_RING_CFG_EN r) = true) :
    ∃ t, exec (.ringEnable r v) s = .next t ∧ t.f (HIF_RING_CFG_SIZE r) = s.f (HIF_RING_CFG_SIZE r) ∧ t.f (HIF_RING_CFG_EN r) = fget v 31 31 ∧
      t.f (HIF_RING_CFG_VECTOR r) = fget v 26 16 ∧ Keeps (fun a => a = HIF_RING_CFG r) [] s t := by
  have hexec : exec (.ringEnable r v) s = .next ((s.put (HIF_RING_CFG_VECTOR r) (fget v 26 16)).put (HIF_RING_CFG_EN r) (fget v 31 31)) := by
    show Host.Outcome.next (if r < 1024 then s.ringCfg r v else s) = _
    rw [if_pos hr]
    unfold State.ringCfg
    dsimp only
    rw [hon, if_pos rfl]
    rfl
  refine ⟨_, hexec, ?_, ?_, ?_, Only.keeps (m := 1) ((put_only _ _ _).after (by decide) (put_only _ _ _)) fun a ha => ?_⟩
  · rw [State.f_put_apart _ _ (by simp) (by simp) (.inr (.inl (by simp))), State.f_put_apart _ _ (by simp) (by simp) (.inr (.inl (by simp)))]
  · rw [State.f_put _ _ _ (by simp) (by simp)]
    exact Nat.mod_eq_of_lt (BitVec.isLt _)
  · rw [State.f_put_apart _ _ (by simp) (by simp) (.inr (.inl (by simp))), State.f_put _ _ _ (by simp) (by simp)]
    exact Nat.mod_eq_of_lt (BitVec.isLt _)
  · rw [State.reg_put_ne _ _ (Ne.symm ha), State.reg_put_ne _ _ (Ne.symm ha)]

theorem State.ringSize_le (r : Nat) : s.ringSize r ≤ 16 := by
  unfold State.ringSize clamp
  split
  · decide
  · split <;> omega

/-- A doorbell of a ring that is enabled. -/
theorem ringDoorbell_eq {v : Nat} (hr : r < 1024) (hon : s.on (HIF_RING_CFG_EN r) = true) (hv : v < 65536) :
    exec (.ringDoorbell r v) s = .next (if 2 ^ s.ringSize r ≤ v then s.ringError r 5 else s.put (HIF_RING_PTR_TAIL r) v) := by
  show Host.Outcome.next (if r < 1024 then s.ringBell r (v % 65536) else s) = _
  rw [if_pos hr, Nat.mod_eq_of_lt hv]
  unfold State.ringBell
  rw [if_pos hon]

theorem ringDoorbell_within {v : Nat} (hr : r < 1024) (hon : s.on (HIF_RING_CFG_EN r) = true) (hv : v < 2 ^ s.ringSize r) :
    ∃ t, exec (.ringDoorbell r v) s = .next t ∧ t.f (HIF_RING_PTR_TAIL r) = v ∧ t.f (HIF_RING_PTR_HEAD r) = s.f (HIF_RING_PTR_HEAD r) ∧
      Keeps (fun a => a = HIF_RING_PTR r) [] s t := by
  have hbound : v < 65536 := lt_of_lt_of_le hv (Nat.pow_le_pow_right (by decide) (s.ringSize_le r))
  refine ⟨_, (ringDoorbell_eq s hr hon hbound).trans (congrArg _ (if_neg (by omega))), ?_, ?_,
    (put_only _ _ _).keeps fun a ha => State.reg_put_ne _ _ (Ne.symm ha)⟩
  · rw [State.f_put _ _ _ (by simp) (by simp)]
    exact Nat.mod_eq_of_lt hbound
  · exact State.f_put_apart _ _ (by simp) (by simp) (.inr (.inl (by simp)))

theorem ringDoorbell_beyond {v : Nat} (hr : r < 1024) (hon : s.on (HIF_RING_CFG_EN r) = true) (hv : 2 ^ s.ringSize r ≤ v) (hbound : v < 65536)
    (hclear : s.on (HIF_RING_STAT_ERROR r) = false) :
    ∃ t, exec (.ringDoorbell r v) s = .next t ∧ t.on (HIF_RING_STAT_ERROR r) = true ∧ t.f (HIF_RING_STAT_CAUSE r) = 5 ∧
      t.reg (HIF_RING_PTR r) = s.reg (HIF_RING_PTR r) ∧ (t.reg (HIF_IRQ_STAT 11)).toNat.testBit 1 = true ∧
      Keeps (fun a => a = HIF_RING_STAT r ∨ a = HIF_IRQ_STAT 11) [.host, .tail, .mesh] s t := by
  refine ⟨_, (ringDoorbell_eq s hr hon hbound).trans (congrArg _ ((if_pos hv).trans (s.ringError_eq 5 hclear))), s.ringFailed_error 5,
    s.ringFailed_cause (by decide), s.ringFailed_reg 5 ringRegs_ne.2.2 (hifIrqStat_lt (by decide)), s.ringFailed_irq 5,
    (s.ringFailed_only 5).keeps fun a ha => ?_⟩
  simp only [not_or] at ha
  exact s.ringFailed_reg 5 ha.1 ha.2

theorem ringDoorbell_off (v : Nat) (hoff : s.on (HIF_RING_CFG_EN r) = false) : exec (.ringDoorbell r v) s = .next s := by
  show Host.Outcome.next (if r < 1024 then s.ringBell r (v % 65536) else s) = _
  unfold State.ringBell
  rw [hoff, if_neg Bool.false_ne_true, ite_self]

end

end Sys2Proof.Machine
end

section
/-! SUPPORT. The descriptors of the DMA rings: their start, their end, their failure (R541 to R543), and the statement about the rings. -/

namespace Sys2Proof.Machine

/-! ### The start of a descriptor (R541, R542) -/

section
variable (s : State) {r : Nat}

/-- A ring whose turn it is has work. -/
theorem State.ringWork_of_turn (h : s.turnRing = some r) : s.ringWork r = true := by
  have hmem : r ∈ s.workRings := by
    unfold State.turnRing at h
    split at h
    next r' hfind =>
      injection h with hr
      exact hr ▸ List.mem_of_find?_eq_some hfind
    next => exact List.mem_of_mem_head? h
  exact (List.mem_filter.1 hmem).2

theorem State.noError_of_turn (h : s.turnRing = some r) : s.on (HIF_RING_STAT_ERROR r) = false := by
  have hwork := s.ringWork_of_turn h
  unfold State.ringWork at hwork
  simp only [Bool.and_eq_true, Bool.not_eq_true'] at hwork
  exact hwork.1.2

/-- Ring `r` has had its turn. -/
def State.turned (s : State) (r : Nat) : State := s.setHost { s.host with lastRing := r }

/-- Descriptor `d` is in progress. -/
def State.descTaken (s : State) (d : Desc) : State := s.setHost { s.host with descs := s.host.descs ++ [d], tlpSeq := s.host.tlpSeq + 1 }

variable (fetched : Option (List Nat))

theorem descriptorStart_waits (h : s.turnRing ≠ some r ∨ 32 ≤ s.host.descs.length ∨ s.fenceHeld 0 = true) :
    exec (.descriptorStart r fetched) s = .next s := by
  refine congrArg Host.Outcome.next (if_neg ?_)
  rintro ⟨hturn, hlen, hfence⟩
  rcases h with h | h | h
  · exact h hturn
  · omega
  · rw [h] at hfence
    cases hfence

variable (hturn : s.turnRing = some r) (hlen : s.host.descs.length < 32) (hfence : s.fenceHeld 0 = false)
include hturn hlen hfence

theorem descriptorStart_turns : exec (.descriptorStart r fetched) s = .next
    (match (if s.hostThere then fetched else none) with
      | none => (s.turned r).ringError r 2
      | some l =>
        if !descOk l then (s.turned r).ringError r 1
        else
          let d := descOf r (s.ringNext r) s.host.tlpSeq s.host.opSeq l
          if d.fence && !(s.ringDescs r).isEmpty then s.turned r else (s.turned r).descBegin d) :=
  congrArg Host.Outcome.next (if_pos ⟨hturn, hlen, by rw [hfence]; rfl⟩)

/-- A fetch that fails, or a malformed descriptor. -/
theorem descriptorStart_fails (h : s.hostThere = false ∨ fetched = none ∨ fetched.any descOk = false) :
    exec (.descriptorStart r fetched) s =
      .next ((s.turned r).ringFailed r (if s.hostThere = true ∧ fetched.isSome = true then 1 else 2)) := by
  have herror : (s.turned r).on (HIF_RING_STAT_ERROR r) = false := s.noError_of_turn hturn
  rw [descriptorStart_turns s fetched hturn hlen hfence]
  cases hthere : s.hostThere with
  | false => exact congrArg _ (State.ringError_eq _ 2 herror)
  | true =>
    cases fetched with
    | none => exact congrArg _ (State.ringError_eq _ 2 herror)
    | some l =>
      have hbad : descOk l = false := by simpa [hthere] using h
      rw [if_pos rfl]
      dsimp only
      rw [hbad]
      exact congrArg _ (State.ringError_eq _ 1 herror)

/-- A descriptor that nothing holds begins. -/
theorem descriptorStart_begins {l : List Nat} (hthere : s.hostThere = true) (hok : descOk l = true)
    (hfree : (descWord l 0).testBit 3 = false ∨ s.ringDescs r = []) :
    exec (.descriptorStart r (some l)) s = .next ((s.turned r).descBegin (descOf r (s.ringNext r) s.host.tlpSeq s.host.opSeq l)) := by
  have hgo : ((descOf r (s.ringNext r) s.host.tlpSeq s.host.opSeq l).fence && !(s.ringDescs r).isEmpty) = false := by
    rcases hfree with h | h
    · exact (congrArg (· && _) h).trans (Bool.false_and _)
    · rw [h]
      exact Bool.and_false _
  rw [descriptorStart_turns s _ hturn hlen hfence, if_pos hthere]
  dsimp only
  rw [hok, hgo, if_neg Bool.false_ne_true]
  exact congrArg _ (if_neg (by decide))

/-- An H2D descriptor. -/
theorem descriptorStart_asks {l : List Nat} (hthere : s.hostThere = true) (hok : descOk l = true) (hdir : descWord l 0 % 2 = 0)
    (hfree : (descWord l 0).testBit 3 = false ∨ s.ringDescs r = []) :
    ∃ t, exec (.descriptorStart r (some l)) s = .next t ∧ t.host =
      { s.host with lastRing := r, descs := s.host.descs ++ [descOf r (s.ringNext r) s.host.tlpSeq s.host.opSeq l], tlpSeq := s.host.tlpSeq + 1, opSeq := s.host.opSeq + 1, ops := s.host.ops ++ [s.host.opSeq] }
      ∧ Keeps (fun _ => False) [.host] s t := by
  have hd2h : (descOf r (s.ringNext r) s.host.tlpSeq s.host.opSeq l).d2h = false := by
    unfold descOf
    dsimp only
    rw [hdir]
    rfl
  have hbegin : (s.turned r).descBegin (descOf r (s.ringNext r) s.host.tlpSeq s.host.opSeq l) =
      ((s.turned r).descTaken (descOf r (s.ringNext r) s.host.tlpSeq s.host.opSeq l)).hostOp := if_neg (by rw [hd2h]; exact Bool.false_ne_true)
  have honly : Only 131072 s ((s.turned r).descTaken (descOf r (s.ringNext r) s.host.tlpSeq s.host.opSeq l)).hostOp :=
    (hostOp_only _).after (by decide) ((setHost_only _ _).after (by decide) (setHost_only _ _))
  exact ⟨_, (descriptorStart_begins s hturn hlen hfence hthere hok hfree).trans (congrArg _ hbegin), rfl,
    honly.keeps fun a _ => State.reg_congr (honly.regs (by decide)) a⟩

end

/-- The device access of one register dword. -/
theorem devAccs_dword {off : Nat} (hoff : off < 0x1200000) (halign : (0x20000000000 + off) % 4 = 0) (id : Nat) :
    devAccs 2 id (0x20000000000 + off) false 4 0 false =
      [⟨0, 0, false, 0x20000000000 + off, 4, 15 <<< ((0x20000000000 + off) % 64), 0, 0, id⟩] := by
  have hn : min 4 (64 - (0x20000000000 + off) % 64) = 4 := by omega
  have hdest : destOf (0x20000000000 + off) = .hub off := by
    unfold destOf
    rw [if_neg (by omega), if_neg (by omega), if_pos (by omega), Nat.add_sub_cancel_left]
  generalize 0x20000000000 + off = a at hn hdest
  have hreg : regAccs 16 id a false 4 (2 ^ 4 - 1) 0 0 0 = [⟨0, 0, false, a, 4, 15 <<< (a % 64), 0, 0, id⟩] := by
    rw [regAccs, if_neg (by decide)]
    dsimp only
    rw [if_neg (fun h => absurd h.2.2.2.1 (by decide)), if_pos (by decide), regAccs, if_pos (by decide), if_pos (by decide)]
    congr 2
    exact Nat.zero_shiftLeft _
  rw [devAccs, if_neg (by decide)]
  dsimp only
  rw [hn, hdest, if_neg Bool.false_ne_true]
  dsimp only
  rw [devAccs, if_pos (by decide), List.append_nil]
  exact hreg

/-- Descriptor `id` waits for one device access. -/
def State.awaitsOne (s : State) (id : Nat) : State := s.onDesc id fun d => { d with left := 1 }

/-- No access of source 0 waits for a tag. -/
def State.noTodo (s : State) : State := s.setHost { s.host with todo := [] }

/-- Descriptor `d` of ring `r` is in progress, and its one device access `a` is in the mesh. -/
def State.descAsked (s : State) (r : Nat) (d : Desc) (a : Acc) : State := ((((s.turned r).descTaken d).awaitsOne d.id).requested a 0).noTodo

theorem State.descAsked_host (s : State) (r : Nat) (d : Desc) (a : Acc) (htodo : s.host.todo = []) : (s.descAsked r d a).host =
    { s.host with lastRing := r, descs := (s.host.descs ++ [d]).map (fun x => if x.id = d.id then { x with left := 1 } else x), tlpSeq := s.host.tlpSeq + 1 } := by
  have hhost : (s.descAsked r d a).host = { s.host with
      lastRing := r
      descs := (s.host.descs ++ [d]).map (fun x => if x.id = d.id then { x with left := 1 } else x)
      tlpSeq := s.host.tlpSeq + 1
      todo := [] } := rfl
  rw [hhost, ← htodo]

theorem State.descAsked_only (s : State) (r : Nat) (d : Desc) (a : Acc) : Only 132096 s (s.descAsked r d a) :=
  (setHost_only _ _).after (by decide) ((State.requested_only _ _ _).after (by decide) ((onDesc_only _ _ _).after (by decide)
    ((setHost_only _ _).after (by decide) ((setHost_only _ _).mono (by decide)))))

/-- One device access of source 0 enters the mesh under the first tag. -/
theorem State.descIssue_one (s : State) {d : Desc} {a : Acc}
    (haccs : devAccs (d.len / 4 + 1) d.id d.dev (!d.d2h) d.len d.data d.poison = [a]) (hsrc : a.src = 0) (htodo : s.host.todo = [])
    (htag : s.tagAt 0 = .idle) :
    s.descIssue d = ((s.awaitsOne d.id).requested a 0).noTodo := by
  have hfind : (List.range (tagCount a.src)).find? (fun k => (s.awaitsOne d.id).tagAt (64 * a.src + k) == .idle) = some 0 := by
    have htag' : (s.awaitsOne d.id).tagAt 0 = .idle := htag
    rw [hsrc, show tagCount 0 = 63 + 1 from rfl, List.range_succ_eq_map, List.find?_cons_of_pos]
    rw [htag']
    rfl
  have hqueue := State.meshQueue_of_find _ hfind
  have htodo' : (s.awaitsOne d.id).host.todo = [] := htodo
  have hissue : s.descIssue d = issueTodo ((s.awaitsOne d.id).host.todo ++ [a]) (s.awaitsOne d.id) := by
    unfold State.descIssue
    dsimp only
    rw [haccs]
    rfl
  rw [hissue, htodo', List.nil_append, issueTodo, hqueue]
  rfl

section
variable (s : State) {r : Nat} (hturn : s.turnRing = some r) (hlen : s.host.descs.length < 32) (hfence : s.fenceHeld 0 = false)
include hturn hlen hfence

/-- A D2H descriptor of one register dword. -/
theorem descriptorStart_reads {l : List Nat} {off : Nat} (hthere : s.hostThere = true) (hok : descOk l = true) (hdir : descWord l 0 % 2 = 1)
    (hfree : (descWord l 0).testBit 3 = false ∨ s.ringDescs r = []) (hbytes : descWord l 1 = 4)
    (hdev : descWord l 4 + descWord l 5 * 2 ^ 32 = 0x20000000000 + off) (hoff : off < 0x1200000) (htodo : s.host.todo = [])
    (htag : s.tagAt 0 = .idle) :
    ∃ t, exec (.descriptorStart r (some l)) s = .next t ∧ t.host =
      { s.host with lastRing := r, descs := (s.host.descs ++ [descOf r (s.ringNext r) s.host.tlpSeq s.host.opSeq l]).map (fun d => if d.id = s.host.tlpSeq then { d with left := 1 } else d), tlpSeq := s.host.tlpSeq + 1 }
      ∧ t.tagAt 0 = .queued ⟨0, 0, false, 0x20000000000 + off, 4, 15 <<< ((0x20000000000 + off) % 64), 0, 0, s.host.tlpSeq⟩ ∧
      Keeps (fun _ => False) [.host, .mesh] s t := by
  have hd2h : (descOf r (s.ringNext r) s.host.tlpSeq s.host.opSeq l).d2h = true := by
    unfold descOf
    dsimp only
    rw [hdir]
    rfl
  have halign : (0x20000000000 + off) % 4 = 0 := by
    unfold descOk at hok
    simp only [Bool.and_eq_true, beq_iff_eq] at hok
    omega
  have haccs : devAccs ((descOf r (s.ringNext r) s.host.tlpSeq s.host.opSeq l).len / 4 + 1) (descOf r (s.ringNext r) s.host.tlpSeq s.host.opSeq l).id
      (descOf r (s.ringNext r) s.host.tlpSeq s.host.opSeq l).dev (!(descOf r (s.ringNext r) s.host.tlpSeq s.host.opSeq l).d2h)
      (descOf r (s.ringNext r) s.host.tlpSeq s.host.opSeq l).len (descOf r (s.ringNext r) s.host.tlpSeq s.host.opSeq l).data
      (descOf r (s.ringNext r) s.host.tlpSeq s.host.opSeq l).poison =
        [⟨0, 0, false, 0x20000000000 + off, 4, 15 <<< ((0x20000000000 + off) % 64), 0, 0, s.host.tlpSeq⟩] := by
    rw [hd2h]
    unfold descOf
    dsimp only
    rw [hbytes, hdev]
    exact devAccs_dword hoff halign _
  have hbegin : (s.turned r).descBegin (descOf r (s.ringNext r) s.host.tlpSeq s.host.opSeq l) =
      ((s.turned r).descTaken (descOf r (s.ringNext r) s.host.tlpSeq s.host.opSeq l)).descIssue (descOf r (s.ringNext r) s.host.tlpSeq s.host.opSeq l) :=
    if_pos hd2h
  have hissue := State.descIssue_one ((s.turned r).descTaken (descOf r (s.ringNext r) s.host.tlpSeq s.host.opSeq l)) haccs rfl htodo htag
  have honly := s.descAsked_only r (descOf r (s.ringNext r) s.host.tlpSeq s.host.opSeq l)
    ⟨0, 0, false, 0x20000000000 + off, 4, 15 <<< ((0x20000000000 + off) % 64), 0, 0, s.host.tlpSeq⟩
  exact ⟨_, (descriptorStart_begins s hturn hlen hfence hthere hok hfree).trans (congrArg _ (hbegin.trans hissue)),
    s.descAsked_host r _ _ htodo, State.requested_tagAt _ _ _, honly.keeps fun a _ => State.reg_congr (honly.regs (by decide)) a⟩

end

/-! ### The end of a descriptor (R542) -/

/-- HEAD of ring `r` after the next completion. -/
def State.headNext (s : State) (r : Nat) : Nat := (s.f (HIF_RING_PTR_HEAD r) + 1) % 2 ^ s.ringSize r

/-- No descriptor is in progress, and HEAD of ring `r` has advanced. -/
def State.headMoved (s : State) (r : Nat) : State := (s.setHost { s.host with descs := [] }).put (HIF_RING_PTR_HEAD r) (s.headNext r)

/-- HEAD of ring `r` has been written back, where an address is set. -/
def State.headWritten (s : State) (r : Nat) : State :=
  if s.f (HIF_RING_WB_LO_WB_LO r) = 0 ∧ s.f (HIF_RING_WB_HI_WB_HI r) = 0 then s
  else s.hostWrite (s.f (HIF_RING_WB_LO_WB_LO r) * 4 + s.f (HIF_RING_WB_HI_WB_HI r) * 2 ^ 32) 4 (s.f (HIF_RING_PTR_HEAD r)) false

/-- The vector of ring `r` is pending, where the descriptor asks for it. -/
def State.ringSignals (s : State) (r : Nat) (irq : Bool) : State := if irq then s.vecPend (s.f (HIF_RING_CFG_VECTOR r)) else s

/-- The only descriptor in progress, at HEAD of ring `r`, is complete. -/
def State.descEnded (s : State) (r : Nat) (irq : Bool) : State := ((s.headMoved r).headWritten r).ringSignals r irq

section
variable (s : State) {r : Nat} (irq : Bool)

theorem State.headNext_lt (r : Nat) : s.headNext r < 65536 :=
  lt_of_lt_of_le (Nat.mod_lt _ (Nat.pow_pos (by decide))) (Nat.pow_le_pow_right (by decide) (s.ringSize_le r))

theorem State.headMoved_head : (s.headMoved r).f (HIF_RING_PTR_HEAD r) = s.headNext r := by
  unfold State.headMoved
  rw [State.f_put _ _ _ (by simp) (by simp)]
  exact Nat.mod_eq_of_lt (s.headNext_lt r)

theorem State.headMoved_reg {a : Nat} (ha : a ≠ HIF_RING_PTR r) : (s.headMoved r).reg a = s.reg a := State.reg_put_ne _ _ ha.symm

theorem State.headMoved_host : (s.headMoved r).host = { s.host with descs := [] } := by
  unfold State.headMoved
  rw [State.put_host, State.setHost_host]

theorem State.headWritten_reg (a : Nat) : (s.headWritten r).reg a = s.reg a := by
  have honly : Only 131072 s (s.headWritten r) := .ite .refl (hostWrite_only _ _ _ _ _)
  exact State.reg_congr (honly.regs (by decide)) a

theorem State.ringSignals_reg (a : Nat) : (s.ringSignals r irq).reg a = s.reg a := by
  have honly : Only 131072 s (s.ringSignals r irq) := .ite (vecPend_only _ _) .refl
  exact State.reg_congr (honly.regs (by decide)) a

theorem State.descEnded_reg (a : Nat) : (s.descEnded r irq).reg a = (s.headMoved r).reg a := by
  unfold State.descEnded
  rw [State.ringSignals_reg, State.headWritten_reg]

theorem State.descEnded_head : (s.descEnded r irq).f (HIF_RING_PTR_HEAD r) = s.headNext r :=
  (State.f_of_reg (s.descEnded_reg irq _)).trans s.headMoved_head

theorem State.descEnded_only : Only 131073 s (s.descEnded r irq) := by
  unfold State.descEnded State.ringSignals State.headWritten State.headMoved
  exact .ite ((vecPend_only _ _).after (by decide) (.ite
      ((put_only _ _ _).after (by decide) ((setHost_only _ _).mono (by decide)))
      ((hostWrite_only _ _ _ _ _).after (by decide) ((put_only _ _ _).after (by decide) ((setHost_only _ _).mono (by decide))))))
    (.ite ((put_only _ _ _).after (by decide) ((setHost_only _ _).mono (by decide)))
      ((hostWrite_only _ _ _ _ _).after (by decide) ((put_only _ _ _).after (by decide) ((setHost_only _ _).mono (by decide)))))

theorem State.headWritten_host : (s.headWritten r).host.descs = s.host.descs ∧ (s.headWritten r).host.pend = s.host.pend ∧
    (s.headWritten r).host.hostWr = if s.f (HIF_RING_WB_LO_WB_LO r) = 0 ∧ s.f (HIF_RING_WB_HI_WB_HI r) = 0 then s.host.hostWr
      else (s.f (HIF_RING_WB_LO_WB_LO r) * 4 + s.f (HIF_RING_WB_HI_WB_HI r) * 2 ^ 32, 4, s.f (HIF_RING_PTR_HEAD r), false) :: s.host.hostWr := by
  unfold State.headWritten
  by_cases h : s.f (HIF_RING_WB_LO_WB_LO r) = 0 ∧ s.f (HIF_RING_WB_HI_WB_HI r) = 0
  · rw [if_pos h, if_pos h]
    exact ⟨rfl, rfl, rfl⟩
  · rw [if_neg h, if_neg h]
    exact ⟨rfl, rfl, rfl⟩

theorem State.ringSignals_host : (s.ringSignals r irq).host =
    { s.host with pend := if irq then ladd s.host.pend (s.f (HIF_RING_CFG_VECTOR r)) else s.host.pend } := by
  unfold State.ringSignals
  cases irq <;> rfl

theorem State.descEnded_host : (s.descEnded r irq).host.descs = [] ∧
    (s.descEnded r irq).host.hostWr = (if s.f (HIF_RING_WB_LO_WB_LO r) = 0 ∧ s.f (HIF_RING_WB_HI_WB_HI r) = 0 then s.host.hostWr
      else (s.f (HIF_RING_WB_LO_WB_LO r) * 4 + s.f (HIF_RING_WB_HI_WB_HI r) * 2 ^ 32, 4, (s.descEnded r irq).f (HIF_RING_PTR_HEAD r), false) ::
        s.host.hostWr) ∧
    (s.descEnded r irq).host.pend = if irq then ladd s.host.pend (s.f (HIF_RING_CFG_VECTOR r)) else s.host.pend := by
  obtain ⟨hdescs, hpend, hwr⟩ := (s.headMoved r).headWritten_host (r := r)
  have hlo : (s.headMoved r).f (HIF_RING_WB_LO_WB_LO r) = s.f (HIF_RING_WB_LO_WB_LO r) := State.f_of_reg (s.headMoved_reg (by simp))
  have hhi : (s.headMoved r).f (HIF_RING_WB_HI_WB_HI r) = s.f (HIF_RING_WB_HI_WB_HI r) := State.f_of_reg (s.headMoved_reg (by simp))
  have hvec : ((s.headMoved r).headWritten r).f (HIF_RING_CFG_VECTOR r) = s.f (HIF_RING_CFG_VECTOR r) :=
    State.f_of_reg ((State.headWritten_reg _ _).trans (s.headMoved_reg (by simp)))
  rw [hlo, hhi, s.headMoved_head, s.headMoved_host] at hwr
  rw [s.headMoved_host] at hdescs hpend
  have hhost : (s.descEnded r irq).host = _ := State.ringSignals_host ((s.headMoved r).headWritten r) irq
  rw [hvec, hpend] at hhost
  rw [s.descEnded_head]
  exact ⟨(congrArg HostIf.descs hhost).trans hdescs, (congrArg HostIf.hostWr hhost).trans hwr, congrArg HostIf.pend hhost⟩

theorem advanceHead_none (n : Nat) (h : s.host.descs = []) : advanceHead n r s = s := by
  cases n with
  | zero => rfl
  | succ n =>
    unfold advanceHead
    dsimp only
    rw [h]
    rfl

/-- The write-back by its address. -/
theorem State.headWritten_of_head : (s.headMoved r).headWritten r =
    if (s.headMoved r).f (HIF_RING_WB_LO_WB_LO r) * 4 + (s.headMoved r).f (HIF_RING_WB_HI_WB_HI r) * 2 ^ 32 = 0 then s.headMoved r
    else (s.headMoved r).hostWrite ((s.headMoved r).f (HIF_RING_WB_LO_WB_LO r) * 4 + (s.headMoved r).f (HIF_RING_WB_HI_WB_HI r) * 2 ^ 32) 4
      ((s.f (HIF_RING_PTR_HEAD r) + 1) % 2 ^ s.ringSize r) false := by
  have hzero (a b : Nat) : (a * 4 + b * 2 ^ 32 = 0) ↔ (a = 0 ∧ b = 0) := by omega
  unfold State.headWritten
  rw [s.headMoved_head]
  simp only [hzero]
  rfl

/-- The only descriptor in progress is complete, at HEAD. -/
theorem advanceHead_single (n : Nat) {d : Desc} (hd : s.host.descs = [d]) (hring : d.ring = r) (hindex : d.index = s.f (HIF_RING_PTR_HEAD r))
    (hdone : d.done = true) : advanceHead (n + 1) r s = s.descEnded r d.irq := by
  have hat : (d.ring == r && d.index == s.f (HIF_RING_PTR_HEAD r)) = true := by rw [hring, hindex, beq_self_eq_true, beq_self_eq_true]; rfl
  have hfind : [d].find? (fun x => x.ring == r && x.index == s.f (HIF_RING_PTR_HEAD r)) = some d := List.find?_cons_of_pos hat
  have hfilter : [d].filter (fun x => !(x.ring == r && x.index == s.f (HIF_RING_PTR_HEAD r))) = [] :=
    List.filter_cons_of_neg (by rw [hat]; decide)
  have hmoved : (s.setHost { s.host with descs := s.host.descs.filter (fun x => !(x.ring == r && x.index == s.f (HIF_RING_PTR_HEAD r))) }).put
      (HIF_RING_PTR_HEAD r) ((s.f (HIF_RING_PTR_HEAD r) + 1) % 2 ^ s.ringSize r) = s.headMoved r := by
    rw [hd, hfilter]
    rfl
  have hstep : advanceHead (n + 1) r s = advanceHead n r (s.descEnded r d.irq) := by
    rw [advanceHead, hd, hfind]
    dsimp only
    rw [if_pos hdone, ← hd, hmoved, ← s.headWritten_of_head]
    rfl
  rw [hstep, advanceHead_none _ _ (s.descEnded_host d.irq).1]

end

end Sys2Proof.Machine
end

section
/-! SUPPORT. The ends and failures of descriptors (R542, R543), and the statement about the DMA rings. -/

namespace Sys2Proof.Machine

/-- A transmit or receive buffer without an error. -/
theorem State.hifBuf_clean (s : State) (n : Nat) : s.hifBuf ⟨false, false, 0⟩ n = s := by
  have hlist : bitList 0 n = [] := List.filter_eq_nil_iff.2 fun i _ => by rw [Nat.zero_testBit]; exact Bool.false_ne_true
  unfold State.hifBuf
  dsimp only
  rw [hlist]
  rfl

theorem hifUp_clean (n : Nat) : (⟨false, false, 0⟩ : HifUp).bad n = false := by
  have hlist : bitList 0 n = [] := List.filter_eq_nil_iff.2 fun i _ => by rw [Nat.zero_testBit]; exact Bool.false_ne_true
  unfold HifUp.bad
  rw [hlist]
  rfl

section
variable (s : State) {r : Nat} {d : Desc}

/-- The only descriptor in progress has become `d`. -/
def State.descNow (s : State) (d : Desc) : State := s.setHost { s.host with descs := [d] }

theorem State.onDesc_single (hd : s.host.descs = [d]) (g : Desc → Desc) : s.onDesc d.id g = s.descNow (g d) := by
  unfold State.onDesc
  rw [hd, List.map_cons, if_pos rfl]
  rfl

/-- The only descriptor in progress, at HEAD of its ring, is complete. -/
theorem State.descNow_advances {n : Nat} (hring : d.ring = r) (hindex : d.index = s.f (HIF_RING_PTR_HEAD r)) (hdone : d.done = true) :
    advanceHead (n + 1) r (s.descNow d) = (s.descNow d).descEnded r d.irq :=
  advanceHead_single (s.descNow d) n rfl hring hindex hdone

theorem descriptorComplete_eq (up : HifUp) (hd : s.host.descs = [d]) (hring : d.ring = r) (hdone : d.done = false) (hleft : d.left = 0)
    (hmoved : d.moved = !d.d2h) :
    exec (.descriptorComplete r up) s = .next (if d.d2h then (s.descRead d up).settle else (s.descWritten d).settle) := by
  have hpick : (s.ringDescs r).find? (fun d => !d.done && d.left == 0 && d.d2h != d.moved) = some d := by
    have hin : (d.ring == r) = true := by rw [hring, beq_self_eq_true]
    unfold State.ringDescs
    have hfilter : [d].filter (fun d => d.ring == r) = [d] := List.filter_cons_of_pos hin
    rw [hd, hfilter]
    refine List.find?_cons_of_pos ?_
    rw [hdone, hleft, hmoved]
    cases d.d2h <;> rfl
  show Host.Outcome.next (match (s.ringDescs r).find? (fun d => !d.done && d.left == 0 && d.d2h != d.moved) with
    | none => s
    | some d => if d.d2h then (s.descRead d up).settle else (s.descWritten d).settle) = _
  rw [hpick]

end

/-- The registers below those of the rings. -/
theorem below_ringRegs {a : Nat} (h : a < 0xc20000) (r : Nat) : a ≠ HIF_RING_PTR r ∧ a ≠ HIF_RING_STAT r := by
  constructor <;> simp only [HIF_RING_PTR, HIF_RING_STAT] <;> omega

/-- What the completion of a descriptor at HEAD does to the registers and the host interface. -/
theorem State.descEnded_shows {s u : State} {r : Nat} (irq : Bool) (hptr : u.reg (HIF_RING_PTR r) = s.reg (HIF_RING_PTR r))
    (hlo : u.reg (HIF_RING_WB_LO r) = s.reg (HIF_RING_WB_LO r)) (hhi : u.reg (HIF_RING_WB_HI r) = s.reg (HIF_RING_WB_HI r))
    (hcfg : u.reg (HIF_RING_CFG r) = s.reg (HIF_RING_CFG r)) :
    (u.descEnded r irq).f (HIF_RING_PTR_HEAD r) = (s.f (HIF_RING_PTR_HEAD r) + 1) % 2 ^ s.ringSize r ∧ (u.descEnded r irq).host.descs = [] ∧
    (u.descEnded r irq).host.hostWr = (if s.f (HIF_RING_WB_LO_WB_LO r) = 0 ∧ s.f (HIF_RING_WB_HI_WB_HI r) = 0 then u.host.hostWr
      else (s.f (HIF_RING_WB_LO_WB_LO r) * 4 + s.f (HIF_RING_WB_HI_WB_HI r) * 2 ^ 32, 4, (u.descEnded r irq).f (HIF_RING_PTR_HEAD r), false) ::
        u.host.hostWr) ∧
    (u.descEnded r irq).host.pend = (if irq then ladd u.host.pend (s.f (HIF_RING_CFG_VECTOR r)) else u.host.pend) := by
  have hsize : u.ringSize r = s.ringSize r := by
    unfold State.ringSize
    rw [State.f_of_reg (x := HIF_RING_CFG_SIZE r) hcfg]
  have hhead := u.descEnded_head (r := r) irq
  have hhost := u.descEnded_host (r := r) irq
  rw [State.f_of_reg (x := HIF_RING_WB_LO_WB_LO r) hlo, State.f_of_reg (x := HIF_RING_WB_HI_WB_HI r) hhi,
    State.f_of_reg (x := HIF_RING_CFG_VECTOR r) hcfg] at hhost
  unfold State.headNext at hhead
  rw [State.f_of_reg (x := HIF_RING_PTR_HEAD r) hptr, hsize] at hhead
  exact ⟨hhead, hhost⟩

theorem State.descEnded_settle {s u : State} {r : Nat} (irq : Bool) (hcalm : s.Calm) (honly : Only 131073 s u)
    (hpower : u.reg BAL_PWR_STAT = s.reg BAL_PWR_STAT) : (u.descEnded r irq).settle = u.descEnded r irq := by
  have hne : BAL_PWR_STAT ≠ HIF_RING_PTR r := (below_ringRegs (by decide) r).1
  have hall : Only 131073 s (u.descEnded r irq) := (u.descEnded_only irq).after (by decide) honly
  refine State.settle_calm _ ?_ ((State.powerAim_congr ((u.descEnded_reg irq _).trans ((u.headMoved_reg hne).trans hpower))).trans hcalm.2)
  rw [hall.sec (by decide)]
  exact hcalm.1

/-- A completed H2D descriptor. -/
theorem descriptorComplete_written (s : State) (hcalm : s.Calm) {r n dv ho id v o : Nat} {q f p : Bool} (hfence : s.fenceHeld 0 = false)
    (hd : s.host.descs = [⟨r, s.f (HIF_RING_PTR_HEAD r), false, q, f, n, ho, dv, id, v, p, true, 0, o, false⟩]) :
    ∃ t, exec (.descriptorComplete r ⟨false, false, 0⟩) s = .next t ∧
      t.f (HIF_RING_PTR_HEAD r) = (s.f (HIF_RING_PTR_HEAD r) + 1) % 2 ^ s.ringSize r ∧ t.host.descs = [] ∧
      t.host.hostWr = (if s.f (HIF_RING_WB_LO_WB_LO r) = 0 ∧ s.f (HIF_RING_WB_HI_WB_HI r) = 0 then s.host.hostWr
        else (s.f (HIF_RING_WB_LO_WB_LO r) * 4 + s.f (HIF_RING_WB_HI_WB_HI r) * 2 ^ 32, 4, t.f (HIF_RING_PTR_HEAD r), false) :: s.host.hostWr) ∧
      t.host.pend = (if q then ladd s.host.pend (s.f (HIF_RING_CFG_VECTOR r)) else s.host.pend) ∧
      Keeps (fun a => a = HIF_RING_PTR r) [.host] s t := by
  have hwritten : s.descWritten ⟨r, s.f (HIF_RING_PTR_HEAD r), false, q, f, n, ho, dv, id, v, p, true, 0, o, false⟩ =
      (s.descNow ⟨r, s.f (HIF_RING_PTR_HEAD r), false, q, f, n, ho, dv, id, v, p, true, 0, o, true⟩).descEnded r q := by
    have hheld : s.headHeld r = false := by unfold State.headHeld; rw [hfence]; rfl
    unfold State.descWritten
    rw [hheld, if_neg Bool.false_ne_true, s.onDesc_single hd]
    exact s.descNow_advances rfl rfl rfl
  have hexec := descriptorComplete_eq s ⟨false, false, 0⟩ hd rfl rfl rfl rfl
  rw [if_neg Bool.false_ne_true, hwritten] at hexec
  have honly : Only 131073 s (s.descNow ⟨r, s.f (HIF_RING_PTR_HEAD r), false, q, f, n, ho, dv, id, v, p, true, 0, o, true⟩) :=
    (setHost_only _ _).mono (by decide)
  have hreg (a : Nat) : (s.descNow ⟨r, s.f (HIF_RING_PTR_HEAD r), false, q, f, n, ho, dv, id, v, p, true, 0, o, true⟩).reg a = s.reg a := rfl
  rw [State.descEnded_settle q hcalm honly (hreg _)] at hexec
  obtain ⟨hhead, hdescs, hwr, hpend⟩ := State.descEnded_shows q (hreg (HIF_RING_PTR r)) (hreg _) (hreg _) (hreg _)
  exact ⟨_, hexec, hhead, hdescs, hwr, hpend, ((State.descEnded_only _ q).after (by decide) honly : Only 131073 s _).keeps fun a ha =>
    (State.descEnded_reg _ q a).trans ((State.headMoved_reg _ ha).trans (hreg a))⟩

/-- What a D2H descriptor `d` has written: its data in the host's memory, with its poison in HIF_RING_STAT. -/
def State.descSent (s : State) (d : Desc) : State :=
  (s.when d.poison (fun t => t.put (HIF_RING_STAT_POISON d.ring) 1)).hostWrite d.host d.len d.data d.poison

section
variable (s : State) (d : Desc)

theorem State.descSent_reg {a : Nat} (ha : a ≠ HIF_RING_STAT d.ring) : (s.descSent d).reg a = s.reg a := by
  have hput : (s.when d.poison (fun t => t.put (HIF_RING_STAT_POISON d.ring) 1)).reg a = s.reg a := by
    unfold State.when
    split
    · exact State.reg_put_ne _ _ ha.symm
    · rfl
  exact (State.reg_congr ((hostWrite_only _ _ _ _ _).regs (by decide)) a).trans hput

theorem State.descSent_poison : (s.descSent d).on (HIF_RING_STAT_POISON d.ring) = (s.on (HIF_RING_STAT_POISON d.ring) || d.poison) := by
  have hput : (s.when d.poison (fun t => t.put (HIF_RING_STAT_POISON d.ring) 1)).on (HIF_RING_STAT_POISON d.ring) =
      (s.on (HIF_RING_STAT_POISON d.ring) || d.poison) := by
    unfold State.when
    cases d.poison with
    | false => exact (Bool.or_false _).symm
    | true => exact (State.on_put_one _ rfl (by simp)).trans (Bool.or_true _).symm
  exact (State.on_of_reg (State.reg_congr ((hostWrite_only _ _ _ _ _).regs (by decide)) _)).trans hput

theorem State.descSent_host : (s.descSent d).host =
    { s.host with
      opSeq := s.host.opSeq + 1, ops := s.host.ops ++ [s.host.opSeq], hostWr := (d.host, d.len, d.data, d.poison) :: s.host.hostWr } := by
  unfold State.descSent State.when
  split <;> rfl

theorem State.descSent_only : Only 131073 s (s.descSent d) :=
  (hostWrite_only _ _ _ _ _).after (by decide) (.ite ((put_only _ _ _).mono (by decide)) .refl)

variable (hfence : s.fenceHeld 0 = false) (hthere : s.hostThere = true) (hd : s.host.descs = [d])
include hfence hthere hd

/-- A D2H descriptor whose reads have returned. -/
theorem State.descRead_sent : s.descRead d ⟨false, false, 0⟩ =
    if d.irq then (s.descSent d).descNow { d with moved := true, op := s.host.opSeq, done := false }
    else advanceHead 32 d.ring ((s.descSent d).descNow { d with moved := true, op := s.host.opSeq, done := true }) := by
  have hput : (s.when d.poison (fun t => t.put (HIF_RING_STAT_POISON d.ring) 1)).hostThere = true ∧
      (s.when d.poison (fun t => t.put (HIF_RING_STAT_POISON d.ring) 1)).host.opSeq = s.host.opSeq := by
    unfold State.when
    split
    · refine ⟨?_, rfl⟩
      rw [← hthere]
      unfold State.hostThere
      rw [State.on_put_ne _ _ (below_ringRegs (by decide) _).2.symm, State.put_host]
    · exact ⟨hthere, rfl⟩
  have hdescs : (s.descSent d).host.descs = [d] := by rw [s.descSent_host]; exact hd
  have hsent := (s.descSent d).onDesc_single hdescs fun x => { x with moved := true, op := s.host.opSeq, done := !x.irq }
  unfold State.descRead
  rw [hfence, if_neg Bool.false_ne_true]
  dsimp only
  rw [s.hifBuf_clean, hifUp_clean, Bool.or_false, hput.1, hput.2, if_neg (by decide), if_neg Bool.false_ne_true]
  unfold State.descSent at hsent ⊢
  rw [hsent]
  cases d.irq <;> rfl

end

/-- A D2H descriptor that writes the host and asks for no interrupt is complete. -/
theorem descriptorComplete_sent (s : State) (hcalm : s.Calm) {r n dv ho id v o : Nat} {f p : Bool} (hthere : s.hostThere = true)
    (hfence : s.fenceHeld 0 = false)
    (hd : s.host.descs = [⟨r, s.f (HIF_RING_PTR_HEAD r), true, false, f, n, ho, dv, id, v, p, false, 0, o, false⟩]) :
    ∃ t, exec (.descriptorComplete r ⟨false, false, 0⟩) s = .next t ∧
      t.f (HIF_RING_PTR_HEAD r) = (s.f (HIF_RING_PTR_HEAD r) + 1) % 2 ^ s.ringSize r ∧ t.host.descs = [] ∧
      t.host.hostWr = (if s.f (HIF_RING_WB_LO_WB_LO r) = 0 ∧ s.f (HIF_RING_WB_HI_WB_HI r) = 0 then ((ho, n, v, p) :: s.host.hostWr)
        else (s.f (HIF_RING_WB_LO_WB_LO r) * 4 + s.f (HIF_RING_WB_HI_WB_HI r) * 2 ^ 32, 4, t.f (HIF_RING_PTR_HEAD r), false) ::
          ((ho, n, v, p) :: s.host.hostWr)) ∧
      t.on (HIF_RING_STAT_POISON r) = (s.on (HIF_RING_STAT_POISON r) || p) ∧
      Keeps (fun a => a = HIF_RING_PTR r ∨ a = HIF_RING_STAT r) [.host] s t := by
  have hread := s.descRead_sent _ hfence hthere hd
  have hexec := descriptorComplete_eq s ⟨false, false, 0⟩ hd rfl rfl rfl rfl
  rw [if_pos rfl, hread, if_neg Bool.false_ne_true] at hexec
  have hreg (a : Nat) (ha : a ≠ HIF_RING_STAT r) := s.descSent_reg ⟨r, s.f (HIF_RING_PTR_HEAD r), true, false, f, n, ho, dv, id, v, p, false, 0, o, false⟩ ha
  have hpoison := s.descSent_poison ⟨r, s.f (HIF_RING_PTR_HEAD r), true, false, f, n, ho, dv, id, v, p, false, 0, o, false⟩
  have hhost := s.descSent_host ⟨r, s.f (HIF_RING_PTR_HEAD r), true, false, f, n, ho, dv, id, v, p, false, 0, o, false⟩
  have honly := s.descSent_only ⟨r, s.f (HIF_RING_PTR_HEAD r), true, false, f, n, ho, dv, id, v, p, false, 0, o, false⟩
  generalize s.descSent ⟨r, s.f (HIF_RING_PTR_HEAD r), true, false, f, n, ho, dv, id, v, p, false, 0, o, false⟩ = u at hexec hreg hpoison hhost honly
  obtain ⟨-, -, hps⟩ := ringRegs_ne (r := r)
  have hcs : HIF_RING_CFG r ≠ HIF_RING_STAT r := ringRegs_ne.2.1
  have hhead : u.f (HIF_RING_PTR_HEAD r) = s.f (HIF_RING_PTR_HEAD r) := State.f_of_reg (hreg _ hps)
  dsimp only at hexec
  rw [u.descNow_advances (r := r) (n := 31) rfl hhead.symm rfl] at hexec
  generalize hw : u.descNow _ = w at hexec
  have hwu (a : Nat) : w.reg a = u.reg a := hw ▸ rfl
  have hwhost : w.host.hostWr = u.host.hostWr := hw ▸ rfl
  have hwonly : Only 131073 s w := hw ▸ (setHost_only _ _).after (by decide) honly
  rw [State.descEnded_settle false hcalm hwonly ((hwu _).trans (hreg _ (below_ringRegs (by decide) r).2))] at hexec
  obtain ⟨hptr, hdescs, hwr, -⟩ := State.descEnded_shows (s := s) false ((hwu _).trans (hreg _ hps)) ((hwu _).trans (hreg _ (by simp)))
    ((hwu _).trans (hreg _ (by simp))) ((hwu _).trans (hreg _ hcs))
  rw [hwhost, hhost] at hwr
  refine ⟨_, hexec, hptr, hdescs, hwr, ?_, ((w.descEnded_only false).after (by decide) hwonly : Only 131073 s _).keeps fun a ha => ?_⟩
  · exact (State.on_of_reg ((w.descEnded_reg false _).trans ((w.headMoved_reg hps.symm).trans (hwu _)))).trans hpoison
  · simp only [not_or] at ha
    rw [w.descEnded_reg, w.headMoved_reg ha.1, hwu, hreg a ha.2]

/-- A D2H descriptor that writes the host and waits for its zero-length read. -/
theorem descriptorComplete_waits (s : State) (hcalm : s.Calm) {r i n dv ho id v o : Nat} {f p : Bool} (hthere : s.hostThere = true)
    (hfence : s.fenceHeld 0 = false) (hd : s.host.descs = [⟨r, i, true, true, f, n, ho, dv, id, v, p, false, 0, o, false⟩]) :
    ∃ t, exec (.descriptorComplete r ⟨false, false, 0⟩) s = .next t ∧ t.host =
      { s.host with descs := [⟨r, i, true, true, f, n, ho, dv, id, v, p, true, 0, s.host.opSeq, false⟩], hostWr := (ho, n, v, p) :: s.host.hostWr, opSeq := s.host.opSeq + 1, ops := s.host.ops ++ [s.host.opSeq] }
      ∧ Keeps (fun a => a = HIF_RING_STAT r) [.host] s t := by
  have hread := s.descRead_sent _ hfence hthere hd
  have hexec := descriptorComplete_eq s ⟨false, false, 0⟩ hd rfl rfl rfl rfl
  rw [if_pos rfl, hread, if_pos rfl] at hexec
  have hreg (a : Nat) (ha : a ≠ HIF_RING_STAT r) := s.descSent_reg ⟨r, i, true, true, f, n, ho, dv, id, v, p, false, 0, o, false⟩ ha
  have hhost := s.descSent_host ⟨r, i, true, true, f, n, ho, dv, id, v, p, false, 0, o, false⟩
  have honly := s.descSent_only ⟨r, i, true, true, f, n, ho, dv, id, v, p, false, 0, o, false⟩
  generalize s.descSent ⟨r, i, true, true, f, n, ho, dv, id, v, p, false, 0, o, false⟩ = u at hexec hreg hhost honly
  have hnow (d : Desc) : Only 131073 s (u.descNow d) := (setHost_only _ _).after (by decide) honly
  have hsettle (d : Desc) : (u.descNow d).settle = u.descNow d := by
    refine State.settle_calm _ ?_ ((State.powerAim_congr (s := s) (hreg BAL_PWR_STAT (below_ringRegs (by decide) r).2)).trans hcalm.2)
    rw [(hnow d).sec (by decide)]
    exact hcalm.1
  rw [hsettle] at hexec
  refine ⟨_, hexec, ?_, (hnow _).keeps hreg⟩
  unfold State.descNow
  rw [State.setHost_host, hhost]

/-! ### A device access that fails (R543) -/

section
variable (s : State) {d : Desc} {a : Acc} {x : Rsp}

theorem State.opSeen_reg (key : Nat) (err : Bool) {b : Nat} (hb : b ≠ DEV_ORD_STATUS 0) : (s.opSeen 0 key err).reg b = s.reg b :=
  State.reg_put_ne _ _ hb.symm

theorem State.opSeen_host (key : Nat) (err : Bool) : (s.opSeen 0 key err).host = s.host := State.put_host _ _ _

theorem State.hostSeen_shows (p : Nat → Bool) (err : Bool) : (∀ b, b ≠ DEV_ORD_STATUS 0 → (s.hostSeen p err).reg b = s.reg b) ∧
    (s.hostSeen p err).host = { s.host with ops := s.host.ops.filter (fun i => !p i) } := by
  have hfold (l : List Nat) (t : State) (b : Nat) (hb : b ≠ DEV_ORD_STATUS 0) :
      (l.foldl (fun t i => t.opSeen 0 (hostKey i) err) t).reg b = t.reg b := by
    induction l generalizing t with
    | nil => rfl
    | cons i l ih => rw [List.foldl_cons, ih, State.opSeen_reg _ _ _ hb]
  exact ⟨fun b hb => hfold _ _ b hb, rfl⟩

/-- The descriptors of ring `d.ring` before `d`. -/
def State.descsBefore (s : State) (d x : Desc) : Bool :=
  x.ring != d.ring || decide ((x.index + 2 ^ s.ringSize d.ring - s.f (HIF_RING_PTR_HEAD d.ring)) % 2 ^ s.ringSize d.ring <
    (d.index + 2 ^ s.ringSize d.ring - s.f (HIF_RING_PTR_HEAD d.ring)) % 2 ^ s.ringSize d.ring)

/-- Descriptor `d` and those of its ring behind it are given up. -/
def State.descsGone (s : State) (d : Desc) : State :=
  let gone := s.host.descs.filter (fun x => !s.descsBefore d x)
  let s1 := s.hostSeen (fun i => gone.any (fun x => !x.d2h && !x.moved && x.op == i)) true
  s1.setHost { s1.host with
    descs := s1.host.descs.filter (s.descsBefore d)
    todo := s1.host.todo.filter (fun a => !gone.any (fun x => x.id == a.ref)) }

theorem State.descsGone_reg {b : Nat} (hb : b ≠ DEV_ORD_STATUS 0) : (s.descsGone d).reg b = s.reg b := (s.hostSeen_shows _ true).1 b hb

theorem State.descsGone_host : (s.descsGone d).host.descs = s.host.descs.filter (s.descsBefore d) ∧ (s.descsGone d).host.hostWr = s.host.hostWr :=
  ⟨rfl, rfl⟩

theorem aboveOrder (r : Nat) {o : Nat} (ho : 0xc20000 ≤ o) : o + r * 0x20 ≠ DEV_ORD_STATUS 0 := by
  have hlow : DEV_ORD_STATUS 0 < 0xc20000 := by decide
  omega

theorem State.descFail_eq (cause : Nat) (hclear : s.on (HIF_RING_STAT_ERROR d.ring) = false) :
    s.descFail d.ring d.index cause = (s.descsGone d).ringFailed d.ring cause := by
  have hstat : (s.descsGone d).on (HIF_RING_STAT_ERROR d.ring) = false :=
    (State.on_of_reg (s.descsGone_reg (aboveOrder _ (by decide)))).trans hclear
  exact State.ringError_eq _ cause hstat

/-- The device access `a` of descriptor `d` fails. -/
theorem State.hostTake_fails (htlp : s.host.tlps.find? (fun y => y.id == a.ref) = none)
    (hdesc : s.host.descs.find? (fun y => y.id == a.ref) = some d) (hx : x.status ≠ 0) (hclear : s.on (HIF_RING_STAT_ERROR d.ring) = false) :
    s.hostTake a x = (s.descsGone d).ringFailed d.ring 4 := by
  unfold State.hostTake
  rw [htlp]
  dsimp only
  rw [hdesc]
  dsimp only
  unfold State.descTake
  rw [if_pos hx]
  exact s.descFail_eq 4 hclear

theorem State.hostTake_failed_shows (h : s.hostTake a x = (s.descsGone d).ringFailed d.ring 4) :
    (s.hostTake a x).on (HIF_RING_STAT_ERROR d.ring) = true ∧ (s.hostTake a x).f (HIF_RING_STAT_CAUSE d.ring) = 4 ∧
      (s.hostTake a x).descAt d.ring d.index = none ∧
      (s.hostTake a x).f (HIF_RING_PTR_HEAD d.ring) = s.f (HIF_RING_PTR_HEAD d.ring) ∧ (s.hostTake a x).host.hostWr = s.host.hostWr := by
  have hhost := (s.descsGone d).ringFailed_host (r := d.ring) 4
  rw [h]
  refine ⟨State.ringFailed_error _ _, State.ringFailed_cause _ (by decide), ?_, ?_, ?_⟩
  · unfold State.descAt
    rw [hhost]
    refine List.find?_eq_none.2 fun y hy hyd => ?_
    rw [(s.descsGone_host (d := d)).1] at hy
    obtain ⟨-, hbefore⟩ := List.mem_filter.1 hy
    simp only [Bool.and_eq_true, beq_iff_eq] at hyd
    unfold State.descsBefore at hbefore
    rw [hyd.1, hyd.2] at hbefore
    simp at hbefore
  · refine (State.ringFailed_f _ 4 ringRegs_ne.2.2 (hifIrqStat_lt (by decide))).trans ?_
    exact State.f_of_reg (s.descsGone_reg (aboveOrder _ (by decide)))
  · rw [hhost]
    exact (s.descsGone_host (d := d)).2

end

/-- Settles O54, command by command: a ring's registers, the start of a descriptor, its end, its failure. -/
theorem hostRings : Obligations.HostRings := by
  unfold Obligations.HostRings
  intro s hcalm
  refine ⟨fun r v hr hoff hv => ringEnable_starts s v hr hoff hv, fun r v hr hon => ringEnable_keepsSize s v hr hon,
    fun r v hr hon hv => ringDoorbell_within s hr hon hv, fun r v hr hon hv hbound hclear => ringDoorbell_beyond s hr hon hv hbound hclear,
    fun r v hoff => ⟨s, ringDoorbell_off s v hoff, rfl⟩,
    fun r l hturn hlen hfence hthere hok hdir hfree => descriptorStart_asks s hturn hlen hfence hthere hok hdir hfree,
    fun r off l hturn hlen hfence hthere hok hdir hfree hbytes hdev hoff htodo htag =>
      descriptorStart_reads s hturn hlen hfence hthere hok hdir hfree hbytes hdev hoff htodo htag,
    ?_, fun r fetched h => ⟨s, descriptorStart_waits s fetched h, rfl⟩,
    fun r n dv ho id v o q f p _ hfence hd => descriptorComplete_written s hcalm hfence hd,
    fun r n dv ho id v o f p _ hthere hfence hd => descriptorComplete_sent s hcalm hthere hfence hd,
    fun r i n dv ho id v o f p _ hthere hfence hd => descriptorComplete_waits s hcalm hthere hfence hd,
    fun a x d htlp hdesc hx hclear _ => s.hostTake_failed_shows (s.hostTake_fails htlp hdesc hx hclear)⟩
  intro r fetched hturn hlen hfence h
  have hcause : (if s.hostThere = true ∧ fetched.isSome = true then 1 else 2) < 16 := by split <;> decide
  have honly : Only 132609 s ((s.turned r).ringFailed r (if s.hostThere = true ∧ fetched.isSome = true then 1 else 2)) :=
    (State.ringFailed_only _ _).after (by decide) ((setHost_only _ _).mono (by decide))
  refine ⟨_, descriptorStart_fails s fetched hturn hlen hfence h, State.ringFailed_error _ _, State.ringFailed_cause _ hcause, ?_,
    State.ringFailed_irq _ _, honly.keeps fun a ha => ?_⟩
  · rw [State.ringFailed_host]
    rfl
  · simp only [not_or] at ha
    exact State.ringFailed_reg _ _ ha.1 ha.2

end Sys2Proof.Machine
end

section
/-! SUPPORT. Events are only gained, and what a power state leaves: the operations that follow an attach, a detach or an alarm. -/

namespace Sys2Proof.Machine

/-! ### The words of HIF_IRQ_STAT that hold the events of the debugger and of security -/

/-- A word of HIF_IRQ_STAT with the events 320 to 383. -/
def IrqWord (a : Nat) : Prop := a = HIF_IRQ_STAT 10 ∨ a = HIF_IRQ_STAT 11

/-- From `s` to `t` no bit of these words clears. -/
def State.Rises (s t : State) : Prop := ∀ a k, IrqWord a → (s.reg a).toNat.testBit k = true → (t.reg a).toNat.testBit k = true

theorem not_irqWord {a : Nat} (h : a < 0xc00128 ∨ 0xc00130 ≤ a) : ¬ IrqWord a := by
  unfold IrqWord HIF_IRQ_STAT
  omega

theorem State.Rises.refl (s : State) : State.Rises s s := fun _ _ _ h => h

theorem State.Rises.trans {s t u : State} (h : State.Rises s t) (g : State.Rises t u) : State.Rises s u :=
  fun a k ha hb => g a k ha (h a k ha hb)

theorem State.Rises.after {s t u : State} (g : State.Rises t u) (h : State.Rises s t) : State.Rises s u := h.trans g

theorem State.Rises.each {α : Type} {g : α → State → State} (l : List α) (hg : ∀ x ∈ l, ∀ t, State.Rises t (g x t)) (s : State) :
    State.Rises s (s.each l g) := by
  unfold State.each
  induction l generalizing s with
  | nil => exact .refl s
  | cons x l ih =>
    rw [foldS]
    exact (hg x (List.mem_cons_self ..) s).trans (ih (fun y hy => hg y (List.mem_cons_of_mem _ hy)) _)

theorem State.Rises.when {g : State → State} (hg : ∀ t, State.Rises t (g t)) (b : Bool) (s : State) : State.Rises s (s.when b g) := by
  unfold State.when
  split
  · exact hg s
  · exact .refl s

theorem State.Rises.ite {s t u : State} {c : Prop} [Decidable c] (h : State.Rises s t) (g : State.Rises s u) :
    State.Rises s (if c then t else u) := by
  split
  · exact h
  · exact g

/-- An operation that leaves these words. -/
theorem State.rises_of_reg {s t : State} (h : ∀ a, IrqWord a → t.reg a = s.reg a) : State.Rises s t := fun a _ ha hb => (h a ha).symm ▸ hb

theorem Only.rises {m : Nat} {s t : State} (h : Only m s t) (hregs : m.testBit 0 = false := by decide) : State.Rises s t :=
  State.rises_of_reg fun a _ => State.reg_congr (h.regs hregs) a

section
variable (s : State)

theorem State.setReg_rises {a : Nat} (v : Word) (h : a < 0xc00128 ∨ 0xc00130 ≤ a) : State.Rises s (s.setReg a v) :=
  State.rises_of_reg fun _ hb => State.reg_setReg_ne _ _ fun e => not_irqWord h (e ▸ hb)

theorem State.put_rises {x : Fld} (v : Nat) (h : x.addr < 0xc00128 ∨ 0xc00130 ≤ x.addr) : State.Rises s (s.put x v) := s.setReg_rises _ h

theorem State.raise_rises (i : Nat) : State.Rises s (s.raise i) := fun _ _ _ h => s.raise_bit h

/-! #### Lattice control and the ports -/

theorem State.latErr_rises (cause port node : Nat) (here : Bool) : State.Rises s (s.latErr cause port node here) := by
  have hlog (u : State) (v : Nat) (x : Fld) (hx : x.addr = LAT_ERR_LOG) : State.Rises u (u.put x v) := u.put_rises v (hx ▸ by decide)
  refine (State.raise_rises _ 159).after ?_
  unfold State.log
  split
  · exact hlog _ _ _ rfl
  · exact (hlog _ _ _ rfl).after ((hlog _ _ _ rfl).after ((hlog _ _ _ rfl).after ((hlog _ _ _ rfl).after (hlog _ _ _ rfl))))

theorem State.routeInvalid_rises (dest : Nat) (port : Option Nat) : State.Rises s (s.routeInvalid dest port) := by
  unfold State.routeInvalid
  split
  · exact .refl s
  · exact (State.latErr_rises _ _ _ _ _).after (setLat_only _ _).rises

theorem State.latTry_rises (k : Nat) (x : Nat × Urgent) : State.Rises s (s.latTry k x).1 := by
  unfold State.latTry
  split
  · exact s.routeInvalid_rises _ _
  split
  · exact .refl s
  next t h => exact (enqUrgent_only s _ _ _ t h).rises

theorem latPumpList_rises (k : Nat) (l kept : List (Nat × Urgent)) (s : State) : State.Rises s (latPumpList k l kept s) := by
  induction l generalizing k kept s with
  | nil => exact (setLat_only _ _).rises
  | cons x l ih =>
    unfold latPumpList
    split
    · exact ih _ _ _
    · dsimp only
      split <;> exact (s.latTry_rises k x).trans (ih _ _ _)

theorem State.sendTokens_rises (type round : Nat) : State.Rises s (s.sendTokens type round) := by
  unfold State.sendTokens
  exact .ite (State.Rises.each _ (fun _ _ t => (latPumpList_rises _ _ _ _).after (setLat_only t _).rises) s) (.refl s)

theorem State.setLatState_rises (c : Nat) : State.Rises s (s.setLatState c) := by
  have hput : State.Rises s (s.put LAT_STAT_STATE c) := s.put_rises _ (by decide)
  unfold State.setLatState
  exact .ite ((setLat_only _ _).rises.after hput) hput

theorem State.latSettle_rises : State.Rises s s.latSettle := by
  have hdown : State.Rises s s.showDown := State.rises_of_reg fun a ha => s.showDown_reg (by unfold IrqWord HIF_IRQ_STAT at ha; omega)
  have hshown : State.Rises s (s.showDown.setLat { s.lat with down := (s.peers.filter s.peerGone).map (·.1) }) :=
    (setLat_only _ _).rises.after hdown
  show State.Rises s (if _ then _ else if _ then _ else if _ then _ else _)
  exact .ite ((State.raise_rises _ _).after ((State.sendTokens_rises _ _ _).after ((State.setLatState_rises _ _).after hshown)))
    (.ite ((State.sendTokens_rises _ _ _).after ((State.setLatState_rises _ _).after hshown))
      (.ite ((State.sendTokens_rises _ _ _).after hshown) hshown))

section
variable {n : Nat} (hn : n < 16)
include hn

theorem glsRegs_low (l : Nat) (hl : l < 9) : GLS_STAT n < 0xc00128 ∧ GLS_EVT n < 0xc00128 ∧ GLS_LANE_STAT n l < 0xc00128 := by
  simp only [GLS_STAT, GLS_EVT, GLS_LANE_STAT]
  omega

theorem State.portState_rises (st : Nat) : State.Rises s (s.portState n st) :=
  (State.put_rises _ _ (.inl (glsRegs_low hn 0 (by decide)).1)).after (State.put_rises _ _ (.inl (glsRegs_low hn 0 (by decide)).1))

theorem State.lanesOff_rises : State.Rises s (s.lanesOff n) := by
  have hstat := (glsRegs_low hn 0 (by decide)).1
  exact (State.put_rises _ _ (.inl hstat)).after ((State.put_rises _ _ (.inl hstat)).after (State.Rises.each _ (fun l hl t =>
    (State.put_rises _ _ (.inl (glsRegs_low hn l (List.mem_range.1 hl)).2.2)).after
      (State.put_rises _ _ (.inl (glsRegs_low hn l (List.mem_range.1 hl)).2.2))) s))

theorem State.portDown_rises (cause : Nat) : State.Rises s (s.portDown n cause) := by
  obtain ⟨hstat, hevt, -⟩ := glsRegs_low hn 0 (by decide)
  have hcause : State.Rises s (s.when (decide (cause ≠ 0)) (fun t => t.put (GLS_STAT_FAIL_CAUSE n) cause)) :=
    State.Rises.when (fun t => t.put_rises _ (.inl hstat)) _ s
  have hquiet (u : State) : State.Rises u ((u.setPort n (u.portOf n).quiet).lanesOff n) :=
    (State.lanesOff_rises _ hn).after (setPort_only u _ _).rises
  unfold State.portDown
  exact .ite (((State.raise_rises _ _).after (State.setReg_rises _ _ (.inl hevt))).after ((State.portState_rises _ hn _).after ((hquiet _).after hcause)))
    ((State.portState_rises _ hn _).after ((hquiet _).after hcause))

theorem State.portSync_rises : State.Rises s (s.portSync n) := by
  unfold State.portSync
  exact .ite (.ite (s.portState_rises hn _) (.refl s)) (.ite (.refl s) ((State.latSettle_rises _).after (s.portDown_rises hn _)))

end

/-! ### What a power state leaves (R518 to R520) -/

/-- No gate writes the register at `a`. -/
structure Ungated (a : Nat) : Prop where
  blocks : ¬ InBlocks [7, 8, 12, 13] a
  tet : a ≠ TET_STAT
  stack : ∀ k < 4, a ≠ MEM_STACK_STAT k
  wdt : ∀ c < 16, a ≠ ST_WDT_CNT c

theorem ungated_mem : Ungated MEM_STAT :=
  ⟨by decide, by decide, fun k _ => by simp only [MEM_STAT, MEM_STACK_STAT]; omega, fun c _ => by simp only [MEM_STAT, ST_WDT_CNT]; omega⟩

/-- The registers of the blocks of power, security and the debugger. -/
theorem ungated_of_block {a : Nat} (h : InBlocks [10, 11, 15] a) : Ungated a := by
  simp only [InBlocks, List.mem_cons, List.not_mem_nil, or_false] at h
  refine ⟨?_, ?_, fun k _ => ?_, fun c _ => ?_⟩
  · simp only [InBlocks, List.mem_cons, List.not_mem_nil, or_false]
    omega
  · simp only [TET_STAT]
    omega
  · simp only [MEM_STACK_STAT]
    omega
  · simp only [ST_WDT_CNT]
    omega

theorem ungated_coreStat {c : Nat} (hc : c < 17) : Ungated (ST_STAT c) := by
  refine ⟨?_, ?_, fun k _ => ?_, fun d _ => ?_⟩
  · simp only [InBlocks, ST_STAT, List.mem_cons, List.not_mem_nil, or_false]
    omega
  · simp only [TET_STAT, ST_STAT]
    omega
  · simp only [MEM_STACK_STAT, ST_STAT]
    omega
  · simp only [ST_WDT_CNT, ST_STAT]
    omega

section
variable {i : Nat} {a : Nat} (ha : Ungated a)

include ha in
theorem State.portSync_ungated (hi : i < 16) : (s.portSync i).reg a = s.reg a :=
  s.portSync_writesIn hi a fun h => ha.blocks (by
    simp only [InBlocks, List.mem_cons, List.not_mem_nil, or_false] at h ⊢
    omega)

include ha in
theorem State.tetSync_ungated : s.tetSync.reg a = s.reg a := by
  have hput (v : Nat) : (s.put TET_STAT_STATE v).reg a = s.reg a := State.reg_put_ne _ _ ha.tet.symm
  unfold State.tetSync
  dsimp only
  split
  · split
    · exact hput 1
    · rfl
  split
  · rfl
  · exact (State.reg_congr ((State.setTet_only _ _).regs (by decide)) a).trans (hput 0)

theorem State.tetSync_rises : State.Rises s s.tetSync := by
  unfold State.tetSync
  exact .ite (.ite (s.put_rises _ (by decide)) (.refl s)) (.ite (.refl s) ((State.setTet_only _ _).rises.after (s.put_rises _ (by decide))))

include ha in
theorem State.pinFollow_ungated : (s.pinFollow allPins).reg a = s.reg a := by
  have hblock := ha.blocks
  simp only [InBlocks, List.mem_cons, List.not_mem_nil, or_false] at hblock
  refine State.pinFollow_reg s (by simp only [HIF_IRQ_STAT]; omega) fun j hj => ?_
  have := mem_allPins.1 hj
  simp only [PIN_GPIO_IN]
  omega

theorem State.pinFollow_rises : State.Rises s (s.pinFollow allPins) := by
  refine State.rises_of_reg fun b hb => State.pinFollow_reg s ?_ fun j hj => ?_
  · unfold IrqWord HIF_IRQ_STAT at *
    omega
  · have := mem_allPins.1 hj
    unfold IrqWord HIF_IRQ_STAT at hb
    simp only [PIN_GPIO_IN]
    omega

include ha in
theorem State.coreThaw_ungated (hi : i < 16) : (s.coreThaw i).reg a = s.reg a := by
  unfold State.coreThaw
  split
  · exact State.reg_put_ne _ _ (ha.wdt i hi).symm
  · rfl

theorem State.coreThaw_rises (c : Nat) : State.Rises s (s.coreThaw c) := by
  unfold State.coreThaw
  exact .ite (s.put_rises _ (.inr (by simp only [ST_WDT_CNT]; omega))) (.refl s)

include ha in
theorem State.refreshEnter_ungated (hi : i < 4) : (s.refreshEnter i).reg a = s.reg a := by
  unfold State.refreshEnter
  split
  · rw [State.reg_put_ne _ _ (ha.stack i hi).symm]
    exact State.reg_congr ((tagFlush_only _ _).regs (by decide)) a
  · rfl

theorem State.refreshEnter_rises (hi : i < 4) : State.Rises s (s.refreshEnter i) := by
  unfold State.refreshEnter
  exact .ite ((State.put_rises _ _ (.inl (by simp only [MEM_STACK_STAT]; omega))).after (tagFlush_only _ _).rises) (.refl s)

include ha in
theorem State.gateReopen_ungated : (s.gateReopen i).reg a = s.reg a := by
  have hgate : (s.setGate i .opened).reg a = s.reg a := rfl
  unfold State.gateReopen
  dsimp only
  split
  next hi =>
    split
    · exact hgate
    · exact (State.coreThaw_ungated _ ha hi).trans hgate
  split
  next hi => exact (State.portSync_ungated _ ha (by omega)).trans hgate
  split
  · exact (State.tetSync_ungated _ ha).trans hgate
  split
  · exact (State.pinFollow_ungated _ ha).trans hgate
  · exact hgate

theorem State.gateReopen_rises : State.Rises s (s.gateReopen i) := by
  have hgate : State.Rises s (s.setGate i .opened) := (setClk_only _ _).rises
  unfold State.gateReopen
  dsimp only
  split
  · exact .ite hgate ((State.coreThaw_rises _ _).after hgate)
  split
  next hi => exact (State.portSync_rises _ (by omega)).after hgate
  exact .ite ((State.tetSync_rises _).after hgate) (.ite ((State.pinFollow_rises _).after hgate) hgate)

/-- The gates that a power state shuts. -/
theorem State.powerShuts_lt {p : Nat} (h : s.powerShuts p i = true) : i < 32 ∨ i = 36 ∨ i = 37 := by
  unfold State.powerShuts at h
  simp only [Bool.or_eq_true, Bool.and_eq_true, decide_eq_true_eq, beq_iff_eq] at h
  omega

/-- Such a gate shuts as no software closes it. -/
theorem State.gateShut_eq (h : i < 32 ∨ i = 36 ∨ i = 37) : s.gateShut i false =
    if i < 16 then s.setGate i .closed else if i < 32 then (s.setGate i .closed).portSync (i - 16)
    else if i = 37 then (s.setGate i .closed).tetSync else s.setGate i .closed := by
  unfold State.gateShut
  dsimp only
  rcases h with h | h | h
  · by_cases hi : i < 16
    · rw [if_pos hi, if_pos hi]
    · rw [if_neg hi, if_pos h, if_neg hi, if_pos h]
  · subst h
    rfl
  · subst h
    have hsoft : ¬ (false = true ∧ (s.setGate 37 .closed).f TET_STAT_STATE = 2) := fun h => Bool.false_ne_true h.1
    rw [if_neg (by decide), if_neg (by decide), if_neg (by decide), if_pos rfl, if_neg hsoft]
    rfl

include ha in
theorem State.gateShut_ungated (h : i < 32 ∨ i = 36 ∨ i = 37) : (s.gateShut i false).reg a = s.reg a := by
  have hgate : (s.setGate i .closed).reg a = s.reg a := rfl
  rw [s.gateShut_eq h]
  split
  · exact hgate
  split
  next hi => exact (State.portSync_ungated _ ha (by omega)).trans hgate
  split
  · exact (State.tetSync_ungated _ ha).trans hgate
  · exact hgate

theorem State.gateShut_rises (h : i < 32 ∨ i = 36 ∨ i = 37) : State.Rises s (s.gateShut i false) := by
  have hgate : State.Rises s (s.setGate i .closed) := (setClk_only _ _).rises
  rw [s.gateShut_eq h]
  split
  · exact hgate
  split
  next hi => exact (State.portSync_rises _ (by omega)).after hgate
  exact .ite ((State.tetSync_rises _).after hgate) hgate

/-- One gate follows power state `p`. -/
def State.gateFollow (s : State) (p i : Nat) : State :=
  if s.powerShuts p i then (if s.gateSt i = .closed then s else s.gateShut i false)
  else if s.gateOn i && s.gateSt i == .closed then s.gateReopen i else s

theorem State.powerApply_eq : s.powerApply =
    if 2 ≤ s.power then (s.each (List.range 39) fun i t => t.gateFollow s.power i).each (List.range 4) fun k t => t.refreshEnter k
    else s.each (List.range 39) fun i t => t.gateFollow s.power i := rfl

include ha in
theorem State.gateFollow_ungated (p : Nat) : (s.gateFollow p i).reg a = s.reg a := by
  unfold State.gateFollow
  split
  next h =>
    split
    · rfl
    · exact s.gateShut_ungated ha (s.powerShuts_lt h)
  split
  · exact s.gateReopen_ungated ha
  · rfl

theorem State.gateFollow_rises (p : Nat) : State.Rises s (s.gateFollow p i) := by
  unfold State.gateFollow
  split
  next h => exact .ite (.refl s) (s.gateShut_rises (s.powerShuts_lt h))
  exact .ite s.gateReopen_rises (.refl s)

include ha in
theorem State.powerApply_ungated : s.powerApply.reg a = s.reg a := by
  have hgates := State.each_keeps (State.reg · a) (List.range 39) (fun i _ t => t.gateFollow_ungated (i := i) ha s.power) s
  rw [State.powerApply_eq]
  split
  · exact (State.each_keeps (State.reg · a) (List.range 4) (fun k hk t => t.refreshEnter_ungated ha (List.mem_range.1 hk)) _).trans hgates
  · exact hgates

theorem State.powerApply_rises : State.Rises s s.powerApply := by
  have hgates := State.Rises.each (List.range 39) (fun i _ t => t.gateFollow_rises (i := i) s.power) s
  rw [State.powerApply_eq]
  exact .ite ((State.Rises.each (List.range 4) (fun k hk t => t.refreshEnter_rises (List.mem_range.1 hk)) _).after hgates) hgates

end

end

end Sys2Proof.Machine
end

section
/-! SUPPORT. Debug access and run control (R481 to R499), and the statement about them. -/

namespace Sys2Proof.Machine

/-! ### Accesses of the debug port (R481 to R484) -/

section
variable (s : State)

/-- The access that the debug port queues. -/
def debugAcc (write consume : Bool) (a : Nat) (v : Word) : Acc :=
  ⟨if consume then 21 else 22, 0, write, a, 4, if write then accBytes a 4 else 0, if write then v.toNat * 2 ^ (8 * (a % 64)) else 0, 0, 0⟩

/-- The scan port has an access in progress. -/
def State.debugBusy (s : State) (held : Option Acc) : State := s.setScan { s.scan with busy := true, held := held }

/-- An access that the security state accepts takes the debug port's tag. -/
theorem State.dbgAccess_queues {write consume : Bool} {addr : Nat} {v : Word} (hir : s.scan.ir = 0x10) (hsealed : s.secState ≠ 2)
    (hbusy : s.scan.busy = false) (hmay : s.dbgMay write (addr % 2 ^ 48 / 4 * 4) v = true)
    (htag : s.tagAt (64 * (if consume then 21 else 22)) = .idle) :
    ∃ t, Host.Outcome.next (s.dbgAccess write consume addr v) = (.next t : Out) ∧ t.scan = { s.scan with busy := true, held := none } ∧
      t.tagAt (64 * (if consume then 21 else 22)) = .queued (debugAcc write consume (addr % 2 ^ 48 / 4 * 4) v) ∧
      Keeps (fun _ => False) [.scan, .mesh] s t := by
  have hopen : s.scanOpen = true := by
    unfold State.scanOpen
    rw [bne_iff_ne]
    exact hsealed
  have hsrc : (debugAcc write consume (addr % 2 ^ 48 / 4 * 4) v).src = if consume then 21 else 22 := rfl
  generalize hacc : debugAcc write consume (addr % 2 ^ 48 / 4 * 4) v = a at hsrc
  have htag0 : a.tag = 0 := hacc ▸ rfl
  have hcount : tagCount a.src = 1 := by
    rw [hsrc]
    cases consume <;> rfl
  have hfind : (List.range (tagCount a.src)).find? (fun k => (s.debugBusy (some a)).tagAt (64 * a.src + k) == .idle) = some 0 := by
    have htag' : (s.debugBusy (some a)).tagAt (64 * a.src + 0) = .idle := by rw [hsrc]; exact htag
    rw [hcount, List.range_one, List.find?_cons_of_pos]
    rw [htag']
    rfl
  have hqueue := State.meshQueue_of_find _ hfind
  have hissue : (s.debugBusy (some a)).dbgIssue = ((s.debugBusy (some a)).requested a 0).setScan
      { ((s.debugBusy (some a)).requested a 0).scan with held := none } := by
    unfold State.dbgIssue
    rw [show (s.debugBusy (some a)).scan.held = some a from rfl]
    dsimp only
    rw [hqueue]
  have hstep : s.dbgAccess write consume addr v = (s.debugBusy (some a)).dbgIssue := by
    unfold State.dbgAccess
    rw [if_pos ⟨hir, hopen, by rw [hbusy]; rfl⟩]
    dsimp only
    rw [hmay, if_neg (by decide), ← hacc]
    rfl
  have honly : Only 33792 s (((s.debugBusy (some a)).requested a 0).setScan
      { ((s.debugBusy (some a)).requested a 0).scan with held := none }) :=
    (setScan_only _ _).after (by decide) ((State.requested_only _ _ _).after (by decide) ((setScan_only _ _).mono (by decide)))
  have hself := (s.debugBusy (some a)).requested_tagAt a 0
  have hacc0 : ({ a with tag := 0 } : Acc) = a := by rw [← htag0]
  rw [hacc0, hsrc, Nat.add_zero] at hself
  exact ⟨_, congrArg _ (hstep.trans hissue), rfl, hself, honly.keeps fun b _ => State.reg_congr (honly.regs (by decide)) b⟩

/-- The response of a read in consume mode. -/
theorem debugAccessDone_takes {a : Acc} {r : Rsp} (hinbox : mget s.mesh.inbox [] 21 = [(a, r)]) (hread : a.write = false) :
    ∃ t, exec .debugAccessDone s = .next t ∧ t.scan.busy = false ∧ t.scan.ack = (if r.status = 0 then 0 else 2) ∧
      t.scan.status = r.status ∧
      t.scan.rdata = BitVec.ofNat 32 (if r.status = 0 then r.data >>> (8 * (a.addr % 64)) else 0) ∧ mget t.mesh.inbox [] 21 = [] ∧
      Keeps (fun _ => False) [.scan, .mesh] s t := by
  have htake : s.takeInbox 21 (fun _ => true) = some (a, r, s.setMesh { s.mesh with inbox := mset s.mesh.inbox [] 21 [] }) := by
    unfold State.takeInbox
    dsimp only
    rw [hinbox, List.find?_cons_of_pos rfl]
    dsimp only
    rw [List.erase_cons_head]
  have hexec : exec .debugAccessDone s = .next ((s.setMesh { s.mesh with inbox := mset s.mesh.inbox [] 21 [] }).dbgTake a r) := by
    show Host.Outcome.next (match s.takeInbox 21 (fun _ => true) with
      | some (a, r, t) => t.dbgTake a r
      | none =>
        match s.takeInbox 22 (fun _ => true) with
        | some (a, r, t) => t.dbgTake a r
        | none => s) = _
    rw [htake]
  have honly : Only 33792 s ((s.setMesh { s.mesh with inbox := mset s.mesh.inbox [] 21 [] }).dbgTake a r) :=
    (setScan_only _ _).after (by decide) ((setMesh_only _ _).mono (by decide))
  have hdata : ((s.setMesh { s.mesh with inbox := mset s.mesh.inbox [] 21 [] }).dbgTake a r).scan.rdata =
      BitVec.ofNat 32 (if r.status = 0 then r.data >>> (8 * (a.addr % 64)) else 0) := by
    unfold State.dbgTake
    rw [State.setScan_scan]
    dsimp only
    rw [hread, if_neg Bool.false_ne_true]
    unfold Rsp.norm
    split
    · rfl
    · rw [Nat.zero_shiftRight]
  exact ⟨_, hexec, rfl, rfl, rfl, hdata, mget_mset_self s.mesh.inbox [] [] 21, honly.keeps fun b _ => State.reg_congr (honly.regs (by decide)) b⟩

end

/-! ### Attach and detach (R490, R492) -/

section
variable (s : State)

/-- While the power state in effect is Aloft, gates only reopen. -/
theorem State.powerApply_aloft (h : s.power = 0) : Only 657297 s s.powerApply := by
  have hfollow (i : Nat) (t : State) : Only 657297 t (t.gateFollow 0 i) := by
    have hopen : t.powerShuts 0 i = false := by
      unfold State.powerShuts
      simp
    unfold State.gateFollow
    rw [hopen, if_neg Bool.false_ne_true]
    exact .ite (gateReopen_only _ _) .refl
  rw [State.powerApply_eq, h, if_neg (by decide)]
  exact Only.each _ _ (fun i t => hfollow i t) .refl

/-- EMULATED is not part of the state that the device is entering. -/
theorem State.powerAim_emulated (v : Nat) : (s.put BAL_PWR_STAT_EMULATED v).powerAim = s.powerAim := by
  unfold State.powerAim
  rw [State.on_put_apart _ _ (by simp) (by simp) (.inr (.inr (by simp))), State.f_put_apart _ _ (by simp) (by simp) (.inr (.inl (by simp))),
    State.f_put_apart _ _ (by simp) (by simp) (.inr (.inl (by simp)))]

/-- What an attach leaves before the gates follow. -/
def State.attaching (s : State) : State := ((s.put DBG_CTRL_ATTACHED 1).put BAL_PWR_STAT_EMULATED 1).raise 321

theorem State.attaching_power : s.attaching.reg BAL_PWR_STAT = ((s.put DBG_CTRL_ATTACHED 1).put BAL_PWR_STAT_EMULATED 1).reg BAL_PWR_STAT :=
  State.raise_reg _ (by decide)

theorem State.attaching_emulated : s.attaching.on BAL_PWR_STAT_EMULATED = true :=
  (State.on_of_reg s.attaching_power).trans (State.on_put_one _ rfl (by decide))

theorem State.attaching_attached : s.attaching.on DBG_CTRL_ATTACHED = true := by
  unfold State.attaching
  rw [State.raise_on _ (by decide), State.on_put_ne _ _ (by decide)]
  exact State.on_put_one _ rfl (by decide)

theorem State.attaching_aim : s.attaching.powerAim = s.powerAim := by
  rw [State.powerAim_congr s.attaching_power, State.powerAim_emulated]
  exact State.powerAim_congr (State.reg_put_ne _ _ (by decide))

theorem State.attaching_only : Only 132609 s s.attaching :=
  (raise_only _ _).after (by decide) ((put_only _ _ _).after (by decide) ((put_only _ _ _).mono (by decide)))

theorem dbgAttach_attaches (hcalm : s.Calm) {src : Nat} (hsrc : src = 21 ∨ src = 22)
    (hstate : s.secState = 0 ∨ (s.secState = 1 ∧ s.on DBG_CTRL_AUTHED = true)) :
    ∃ t, exec (.dbgAttach src) s = .next t ∧ t.attached = true ∧ t.on BAL_PWR_STAT_EMULATED = true ∧
      (t.reg (HIF_IRQ_STAT 10)).toNat.testBit 1 = true ∧ t.round = s.round ∧ t.core = s.core ∧ t.hbm = s.hbm ∧ t.pending = s.pending := by
  have hdbg : isDbg src = true := by rcases hsrc with rfl | rfl <;> rfl
  have hattach : s.attach = s.attaching.powerApply := by
    refine if_neg ?_
    rcases hstate with h | ⟨h, hauthed⟩ <;> rw [h]
    · simp
    · simp [hauthed]
  have hpower : s.attaching.power = 0 := if_pos s.attaching_emulated
  have happly := State.powerApply_aloft _ hpower
  have hall : Only 657297 s s.attaching.powerApply := happly.after (by decide) (s.attaching_only.mono (by decide))
  have hbal : s.attaching.powerApply.reg BAL_PWR_STAT = s.attaching.reg BAL_PWR_STAT := State.powerApply_ungated _ (ungated_of_block (by decide))
  have hdbgCtrl : s.attaching.powerApply.reg DBG_CTRL = s.attaching.reg DBG_CTRL := State.powerApply_ungated _ (ungated_of_block (by decide))
  have hsettle : s.attaching.powerApply.settle = s.attaching.powerApply := by
    refine State.settle_calm _ ?_ ((State.powerAim_congr hbal).trans (s.attaching_aim.trans hcalm.2))
    rw [hall.sec (by decide)]
    exact hcalm.1
  have hexec : exec (.dbgAttach src) s = .next s.attaching.powerApply := by
    show Host.Outcome.next ((if isDbg src then s.attach else s).settle) = _
    rw [if_pos hdbg, hattach, hsettle]
  exact ⟨_, hexec, (State.on_of_reg hdbgCtrl).trans s.attaching_attached, (State.on_of_reg hbal).trans s.attaching_emulated,
    State.powerApply_rises _ _ 1 (.inl rfl) (State.raise_irq _ 321), hall.round (by decide), hall.core (by decide), hall.hbm (by decide), hall.queue⟩

/-! #### The resume of a core (R499) -/

variable {c : Nat} (step : Bool)

/-- Core `c` has been told to run. -/
def State.resumed (s : State) (c : Nat) (step : Bool) : State :=
  let s1 := s.setCore c { s.coreOf c with skipBp := true, stepping := step, halt := none }
  ((s1.put (ST_STAT_STATE c) 1).put (DBG_CORE_STAT_HALTED c) 0).setReg DBG_STAT (s1.reg DBG_STAT &&& ~~~ (1#32 <<< c))

theorem State.coreResume_eq : s.coreResume c step =
    if s.coreSt c = 3 then (if s.coreClock c then (s.resumed c step).coreThaw c else s.resumed c step) else s := rfl

theorem dbgCoreStat_ne {c d : Nat} (hc : c < 17) (hd : d < 17) : DBG_CORE_STAT c ≠ ST_STAT d ∧ DBG_CORE_STAT c ≠ DBG_STAT ∧
    ST_STAT d ≠ DBG_STAT ∧ ST_WDT_CNT c ≠ ST_STAT d ∧ ST_WDT_CNT c ≠ DBG_CORE_STAT d := by
  simp only [DBG_CORE_STAT, ST_STAT, DBG_STAT, ST_WDT_CNT]
  omega

theorem State.coreThaw_reg {a : Nat} (ha : a ≠ ST_WDT_CNT c) : (s.coreThaw c).reg a = s.reg a := by
  unfold State.coreThaw
  split
  · exact State.reg_put_ne _ _ ha.symm
  · rfl

theorem State.resumed_reg {a : Nat} (hstat : a ≠ ST_STAT c) (hdbg : a ≠ DBG_CORE_STAT c) (hall : a ≠ DBG_STAT) :
    (s.resumed c step).reg a = s.reg a := by
  unfold State.resumed
  dsimp only
  rw [State.reg_setReg_ne _ _ hall.symm, State.reg_put_ne _ _ hdbg.symm, State.reg_put_ne _ _ hstat.symm]
  rfl

theorem State.coreResume_reg {a : Nat} (hstat : a ≠ ST_STAT c) (hdbg : a ≠ DBG_CORE_STAT c) (hall : a ≠ DBG_STAT) (hwdt : a ≠ ST_WDT_CNT c) :
    (s.coreResume c step).reg a = s.reg a := by
  rw [s.coreResume_eq]
  split
  · split
    · exact (State.coreThaw_reg _ hwdt).trans (s.resumed_reg step hstat hdbg hall)
    · exact s.resumed_reg step hstat hdbg hall
  · rfl

/-- ST_STAT of a core that resumes: its state is RUN, the rest stays. -/
theorem State.resumed_stat (hc : c < 17) : (s.resumed c step).reg (ST_STAT c) = (s.put (ST_STAT_STATE c) 1).reg (ST_STAT c) := by
  obtain ⟨hdbg, -, hall, -, -⟩ := dbgCoreStat_ne hc hc
  unfold State.resumed
  dsimp only
  rw [State.reg_setReg_ne _ _ hall.symm, State.reg_put_ne _ _ hdbg]
  exact State.reg_put _ _ _ _ |>.trans (State.reg_put _ _ _ _).symm

theorem State.coreResume_stat (hc : c < 17) (hhalted : s.coreSt c = 3) :
    (s.coreResume c step).reg (ST_STAT c) = (s.put (ST_STAT_STATE c) 1).reg (ST_STAT c) := by
  rw [s.coreResume_eq, if_pos hhalted]
  split
  · rw [State.coreThaw_reg _ (dbgCoreStat_ne hc hc).2.2.2.1.symm, s.resumed_stat step hc]
  · exact s.resumed_stat step hc

end

end Sys2Proof.Machine
end

section
/-! SUPPORT. Detach, halts and the registers of a halted core (R492 to R499), and the statement about debug access. -/

namespace Sys2Proof.Machine

/-! ### Detach (R492) -/

section
variable (s : State)

/-- One core restarts at a detach. -/
def State.coreFreed (s : State) (c : Nat) : State :=
  (s.coreResume c false).setCore c { (s.coreResume c false).coreOf c with halt := none, skipBp := false }

/-- The breakpoints and watchpoints of a core are off. -/
def State.pointsOff (s : State) (c : Nat) : State :=
  (s.each (List.range 4) fun i u => u.put (DBG_CORE_BP_EN c i) 0).each (List.range 2) fun i u => u.put (DBG_CORE_WP_CFG_EN c i) 0

/-- Every core restarts, and no point is set. -/
def State.coresFreed (s : State) : State :=
  ((s.each (List.range 17) fun c t => t.coreFreed c).each (List.range 17) fun c t => t.pointsOff c).setReg DBG_XTRIG 0

/-- What a detach leaves before the gates follow. -/
def State.detaching (s : State) : State :=
  (((((s.coresFreed.put DBG_CTRL_SYS_EN 0).put DBG_CTRL_ATTACHED 0).put DBG_CTRL_AUTHED 0).put SEC_AUTH_STAT_PERMS 0).put
    BAL_PWR_STAT_EMULATED 0).raise 321

theorem State.detach_eq (h : s.attached = true) : s.detach = s.detaching.powerApply := if_pos h

theorem State.pointsOff_reg {c : Nat} (hc : c < 17) {a : Nat} (ha : a / 0x1000 ≠ 0xf01 ∧ a / 0x1000 ≠ 0xf02) : (s.pointsOff c).reg a = s.reg a := by
  have hbp (t : State) : ∀ i ∈ List.range 4, ∀ u : State, (u.put (DBG_CORE_BP_EN c i) 0).reg a = u.reg a := fun i hi u => by
    have hlt := List.mem_range.1 hi
    refine State.reg_put_ne _ _ ?_
    simp only [DBG_CORE_BP]
    omega
  have hwp : ∀ i ∈ List.range 2, ∀ u : State, (u.put (DBG_CORE_WP_CFG_EN c i) 0).reg a = u.reg a := fun i hi u => by
    have hlt := List.mem_range.1 hi
    refine State.reg_put_ne _ _ ?_
    simp only [DBG_CORE_WP_CFG]
    omega
  unfold State.pointsOff
  exact (State.each_keeps (State.reg · a) _ hwp _).trans (State.each_keeps (State.reg · a) _ (hbp s) s)

theorem State.coreFreed_reg (c a : Nat) : (s.coreFreed c).reg a = (s.coreResume c false).reg a := rfl

/-- A register that a detach leaves. -/
theorem State.coresFreed_reg {a : Nat} (hblock : InBlocks [4, 10, 11, 12] a) : s.coresFreed.reg a = s.reg a := by
  simp only [InBlocks, List.mem_cons, List.not_mem_nil, or_false] at hblock
  have hfree : ∀ c ∈ List.range 17, ∀ t : State, (t.coreFreed c).reg a = t.reg a := fun c hc t => by
    have hlt := List.mem_range.1 hc
    rw [State.coreFreed_reg]
    refine t.coreResume_reg false ?_ ?_ ?_ ?_
    · simp only [ST_STAT]
      omega
    · simp only [DBG_CORE_STAT]
      omega
    · simp only [DBG_STAT]
      omega
    · simp only [ST_WDT_CNT]
      omega
  have hoff : ∀ c ∈ List.range 17, ∀ t : State, (t.pointsOff c).reg a = t.reg a := fun c hc t =>
    t.pointsOff_reg (List.mem_range.1 hc) (by omega)
  unfold State.coresFreed
  rw [State.reg_setReg_ne _ _ (by simp only [DBG_XTRIG]; omega)]
  exact (State.each_keeps (State.reg · a) _ hoff _).trans (State.each_keeps (State.reg · a) _ hfree s)

theorem State.coreFreed_coreSt {c d : Nat} (hc : c < 17) (hd : d < 17) :
    (s.coreFreed d).coreSt c = if c = d ∧ s.coreSt c = 3 then 1 else s.coreSt c := by
  have hfree : (s.coreFreed d).coreSt c = (s.coreResume d false).coreSt c := rfl
  rw [hfree]
  by_cases hcd : c = d
  · subst hcd
    by_cases hhalted : s.coreSt c = 3
    · rw [if_pos ⟨rfl, hhalted⟩]
      unfold State.coreSt
      rw [State.f_of_reg (s.coreResume_stat false hc hhalted)]
      exact State.f_put _ _ _ (by simp) (by simp)
    · rw [if_neg fun h => hhalted h.2, s.coreResume_eq, if_neg hhalted]
  · rw [if_neg fun h => hcd h.1]
    have hne : ST_STAT c ≠ ST_STAT d := by
      simp only [ST_STAT]
      omega
    obtain ⟨hdbg, -, hall, hwdt, -⟩ := dbgCoreStat_ne hd hc
    exact State.f_of_reg (s.coreResume_reg false hne hdbg.symm hall hwdt.symm)

theorem State.coresFreed_coreSt {c : Nat} (hc : c < 17) : s.coresFreed.coreSt c = if s.coreSt c = 3 then 1 else s.coreSt c := by
  have hfree (l : List Nat) (hl : ∀ d ∈ l, d < 17) (t : State) :
      (t.each l fun d u => u.coreFreed d).coreSt c = if c ∈ l ∧ t.coreSt c = 3 then 1 else t.coreSt c := by
    unfold State.each
    induction l generalizing t with
    | nil => simp [foldS]
    | cons d l ih =>
      rw [foldS, ih (fun e he => hl e (List.mem_cons_of_mem _ he)), t.coreFreed_coreSt hc (hl d (List.mem_cons_self ..))]
      by_cases hcd : c = d
      · subst hcd
        by_cases hhalted : t.coreSt c = 3 <;> simp [hhalted]
      · simp [hcd]
  have hblock : ST_STAT c / 0x1000 ≠ 0xf01 ∧ ST_STAT c / 0x1000 ≠ 0xf02 := by
    simp only [ST_STAT]
    omega
  have hoff : ∀ d ∈ List.range 17, ∀ t : State, (t.pointsOff d).reg (ST_STAT c) = t.reg (ST_STAT c) := fun d hd t =>
    t.pointsOff_reg (List.mem_range.1 hd) hblock
  have hstat : s.coresFreed.reg (ST_STAT c) = (s.each (List.range 17) fun d t => t.coreFreed d).reg (ST_STAT c) := by
    unfold State.coresFreed
    rw [State.reg_setReg_ne _ _ (by simp only [DBG_XTRIG, ST_STAT]; omega)]
    exact State.each_keeps (State.reg · (ST_STAT c)) _ hoff _
  unfold State.coreSt at hfree ⊢
  rw [State.f_of_reg hstat, hfree _ (fun d hd => List.mem_range.1 hd)]
  simp [hc]

theorem State.detaching_reg {a : Nat} (hctrl : a ≠ DBG_CTRL) (hauth : a ≠ SEC_AUTH_STAT) (hbal : a ≠ BAL_PWR_STAT)
    (hirq : a ≠ HIF_IRQ_STAT 10) : s.detaching.reg a = s.coresFreed.reg a := by
  unfold State.detaching
  rw [State.raise_reg _ hirq, State.reg_put_ne _ _ hbal.symm, State.reg_put_ne _ _ hauth.symm, State.reg_put_ne _ _ hctrl.symm,
    State.reg_put_ne _ _ hctrl.symm, State.reg_put_ne _ _ hctrl.symm]

theorem State.detaching_shows : s.detaching.on DBG_CTRL_ATTACHED = false ∧ s.detaching.on DBG_CTRL_AUTHED = false ∧
    s.detaching.f SEC_AUTH_STAT_PERMS = 0 ∧ s.detaching.on BAL_PWR_STAT_EMULATED = false := by
  unfold State.detaching
  refine ⟨?_, ?_, ?_, ?_⟩
  · rw [State.raise_on _ (by decide), State.on_put_ne _ _ (by decide), State.on_put_ne _ _ (by decide),
      State.on_put_apart _ _ (by decide) (by decide) (.inr (.inr (by decide)))]
    exact State.on_put_zero _ rfl (by decide)
  · rw [State.raise_on _ (by decide), State.on_put_ne _ _ (by decide), State.on_put_ne _ _ (by decide)]
    exact State.on_put_zero _ rfl (by decide)
  · rw [State.raise_f _ (by decide), State.f_put_ne _ _ (by decide)]
    exact State.f_put _ _ _ (by decide) (by decide)
  · rw [State.raise_on _ (by decide)]
    exact State.on_put_zero _ rfl (by decide)

theorem State.detaching_aim : s.detaching.powerAim = s.powerAim := by
  unfold State.detaching
  rw [State.powerAim_congr (State.raise_reg _ (by decide)), State.powerAim_emulated]
  refine State.powerAim_congr ?_
  rw [State.reg_put_ne _ _ (by decide), State.reg_put_ne _ _ (by decide), State.reg_put_ne _ _ (by decide), State.reg_put_ne _ _ (by decide)]
  exact s.coresFreed_reg (by decide)

theorem dbgDetach_detaches (hcalm : s.Calm) {src : Nat} (hsrc : src = 21 ∨ src = 22) (hattached : s.attached = true) :
    ∃ t, exec (.dbgDetach src) s = .next t ∧ t.attached = false ∧ t.on BAL_PWR_STAT_EMULATED = false ∧ t.f SEC_AUTH_STAT_PERMS = 0 ∧
      t.on DBG_CTRL_AUTHED = false ∧ t.reg DBG_XTRIG = 0 ∧ (∀ c : Nat, c < 17 → t.coreSt c = if s.coreSt c = 3 then 1 else s.coreSt c) ∧
      t.round = s.round ∧ t.pending = s.pending := by
  have hdbg : isDbg src = true := by rcases hsrc with rfl | rfl <;> rfl
  have hdetach := s.detach_eq hattached
  have honly := detach_only s
  rw [hdetach] at honly
  have hreg {a : Nat} (ha : Ungated a) : s.detaching.powerApply.reg a = s.detaching.reg a := State.powerApply_ungated _ ha
  have hctrl := hreg (a := DBG_CTRL) (ungated_of_block (by decide))
  have hbal := hreg (a := BAL_PWR_STAT) (ungated_of_block (by decide))
  have hauth := hreg (a := SEC_AUTH_STAT) (ungated_of_block (by decide))
  have hxtrig : s.detaching.powerApply.reg DBG_XTRIG = 0 := by
    rw [hreg (ungated_of_block (by decide)), s.detaching_reg (by decide) (by decide) (by decide) (by decide)]
    unfold State.coresFreed
    rw [State.reg_setReg, if_pos rfl]
  have hsettle : s.detaching.powerApply.settle = s.detaching.powerApply := by
    refine State.settle_calm _ ?_ ((State.powerAim_congr hbal).trans (s.detaching_aim.trans hcalm.2))
    rw [honly.sec (by decide)]
    exact hcalm.1
  have hexec : exec (.dbgDetach src) s = .next s.detaching.powerApply := by
    show Host.Outcome.next ((if isDbg src then s.detach else s).settle) = _
    rw [if_pos hdbg, hdetach, hsettle]
  have hcores (c : Nat) (hc : c < 17) : s.detaching.powerApply.coreSt c = if s.coreSt c = 3 then 1 else s.coreSt c := by
    have hne : ST_STAT c ≠ DBG_CTRL ∧ ST_STAT c ≠ SEC_AUTH_STAT ∧ ST_STAT c ≠ BAL_PWR_STAT ∧ ST_STAT c ≠ HIF_IRQ_STAT 10 := by
      simp only [ST_STAT, DBG_CTRL, SEC_AUTH_STAT, BAL_PWR_STAT, HIF_IRQ_STAT]
      omega
    rw [← s.coresFreed_coreSt hc]
    exact State.f_of_reg ((hreg (ungated_coreStat hc)).trans (s.detaching_reg hne.1 hne.2.1 hne.2.2.1 hne.2.2.2))
  obtain ⟨hattached, hauthed, hperms, hemulated⟩ := s.detaching_shows
  exact ⟨_, hexec, (State.on_of_reg hctrl).trans hattached, (State.on_of_reg hbal).trans hemulated, (State.f_of_reg hauth).trans hperms,
    (State.on_of_reg hctrl).trans hauthed, hxtrig, hcores, honly.round (by decide), honly.queue⟩

end

end Sys2Proof.Machine
end

section
/-! SUPPORT. Halts and the registers of a halted core (R493 to R499), and the statement about debug access. -/

namespace Sys2Proof.Machine

/-! ### A halt cause (R493, R494) -/

section
variable (s : State) {src c : Nat}

/-- An operation on a core that the debugger may do. -/
theorem State.dbgOp_passes (hc : c < 17) (hreach : s.dbgReach src = true) (hattached : s.attached = true)
    (hmay : s.secState = 0 ∨ s.perms.testBit 0 = true) (g : State → State) : s.dbgOp src c g = g s := by
  unfold State.dbgOp
  rw [hreach, hattached, decide_eq_false (by omega), if_neg (by decide), if_neg (by decide), if_neg]
  rintro ⟨hstate, hperm⟩
  rw [hmay.resolve_left hstate] at hperm
  exact absurd hperm (by decide)

theorem State.haltCause_of_running (hattached : s.attached = true) (hhalt : (s.coreOf c).halt = none) (hrun : s.coreSt c = 1 ∨ s.coreSt c = 2)
    (why unit : Nat) : s.haltCause c why unit = s.setCore c { s.coreOf c with halt := some (why, unit) } := by
  unfold State.haltCause
  rw [hattached, hhalt, if_neg (by decide), if_pos hrun]

theorem State.haltReq_of_running (hattached : s.attached = true) (hhalt : (s.coreOf c).halt = none) (hrun : s.coreSt c = 1 ∨ s.coreSt c = 2)
    (why unit : Nat) : s.haltReq c why unit = s.setCore c { s.coreOf c with halt := some (why, unit) } := by
  unfold State.haltReq
  dsimp only
  rw [s.haltCause_of_running hattached hhalt hrun, if_neg]
  rintro ⟨hne, heq⟩
  exact hne heq

theorem setCore_keeps (c : Nat) (x : Core) : Keeps (fun _ => False) [.core] s (s.setCore c x) :=
  (setCore_only _ _ _).keeps fun _ _ => rfl

theorem dbgHalt_shows (hc : c < 17) (hreach : s.dbgReach src = true) (hattached : s.attached = true)
    (hmay : s.secState = 0 ∨ s.perms.testBit 0 = true) (hrun : s.coreSt c = 1 ∨ s.coreSt c = 2) (hhalt : (s.coreOf c).halt = none) :
    ∃ t, exec (.dbgHalt src c) s = .next t ∧ t.coreOf c = { s.coreOf c with halt := some (0, 0) } ∧ Keeps (fun _ => False) [.core] s t := by
  refine ⟨_, congrArg Host.Outcome.next ((s.dbgOp_passes hc hreach hattached hmay _).trans (s.haltReq_of_running hattached hhalt hrun 0 0)),
    State.coreOf_setCore_self _ _ _, setCore_keeps _ _ _⟩

/-- A core that can issue runs or waits, and no halt cause is visible to it. -/
theorem State.canIssue_running (h : s.canIssue c = true) : (s.coreSt c = 1 ∨ s.coreSt c = 2) ∧ (s.coreOf c).halt = none := by
  unfold State.canIssue at h
  simp only [Bool.and_eq_true, Bool.or_eq_true, beq_iff_eq, Option.isNone_iff_eq_none] at h
  exact ⟨h.1.1.2.imp id And.left, h.2⟩

theorem State.attached_of_bpHit {i : Nat} (h : s.bpHit c = some i) : s.attached = true := by
  unfold State.bpHit at h
  by_contra hno
  rw [Bool.eq_false_of_not_eq_true hno] at h
  cases h

theorem breakpoint_shows {i : Nat} (hc : c < 17) (hcan : s.canIssue c = true) (hbp : s.bpHit c = some i) :
    ∃ t, exec (.breakpoint c) s = .next t ∧ t.coreOf c = { s.coreOf c with halt := some (2, i) } ∧ Keeps (fun _ => False) [.core] s t := by
  obtain ⟨hrun, hhalt⟩ := s.canIssue_running hcan
  have hexec : exec (.breakpoint c) s = .next (s.setCore c { s.coreOf c with halt := some (2, i) }) := by
    show Host.Outcome.next (if decide (c < 17) && s.canIssue c then
      match s.bpHit c with
      | some i => s.haltCause c 2 i
      | none => s
      else s) = _
    rw [decide_eq_true hc, hcan, if_pos (by decide), hbp]
    dsimp only
    rw [s.haltCause_of_running (s.attached_of_bpHit hbp) hhalt hrun]
  exact ⟨_, hexec, State.coreOf_setCore_self _ _ _, setCore_keeps _ _ _⟩

/-! ### A core halts (R494, R495) -/

theorem State.pcOf_of_stat {s t : State} (h : t.reg (ST_STAT c) = s.reg (ST_STAT c)) : t.pcOf c = s.pcOf c := by
  unfold State.pcOf
  rw [State.f_of_reg (x := ST_STAT_PC c) h, State.f_of_reg (x := ST_STAT_PCR c) h]

/-- The state of a core is not part of its PC. -/
theorem State.put_state_pcOf (v : Nat) : (s.put (ST_STAT_STATE c) v).pcOf c = s.pcOf c := by
  unfold State.pcOf
  rw [State.f_put_apart _ _ (by simp) (by simp) (.inr (.inl (by simp))), State.f_put_apart _ _ (by simp) (by simp) (.inr (.inl (by simp)))]

/-- What a core that halts gives up: its reservation and its open unlock sequences. -/
def State.haltGivesUp (s : State) (c : Nat) : State :=
  let x := s.coreOf c
  let s1 := s.setCore c { x with halt := none, stepping := false, resv := none }
  let s2 := s1.when x.resv.isSome (fun t => t.put (DBG_CORE_STAT_RSV_LOST c) 1)
  let mine := fun (e : Nat × Option Unlock) => match e.2 with
    | some u => u.src == coreSrc c
    | none => false
  s2.when (s2.sec.unlock.any mine) (fun t =>
    (t.setSec { t.sec with unlock := t.sec.unlock.filter (fun e => !mine e) }).put (DBG_CORE_STAT_LOCKSEQ_ABORT c) 1)

/-- The registers show that a core has halted. -/
def State.haltShown (s : State) (c why unit : Nat) : State :=
  let s4 := ((s.put (ST_STAT_STATE c) 3).put (DBG_CORE_STAT_HALTED c) 1).put (DBG_CORE_STAT_WHY c) why
  (s4.put (DBG_CORE_STAT_UNIT c) unit).setReg DBG_STAT (s4.reg DBG_STAT ||| (1#32 <<< c))

theorem State.haltNow_eq (why unit : Nat) : s.haltNow c why unit = ((s.haltGivesUp c).haltShown c why unit).raise 320 := rfl

theorem State.when_keeps {α : Type} (P : State → α) (b : Bool) {g : State → State} (h : ∀ t, P (g t) = P t) : P (s.when b g) = P s := by
  unfold State.when
  split
  · exact h s
  · rfl

theorem State.haltGivesUp_reg {a : Nat} (ha : a ≠ DBG_CORE_STAT c) : (s.haltGivesUp c).reg a = s.reg a := by
  unfold State.haltGivesUp
  refine (State.when_keeps _ (State.reg · a) _ fun t => ?_).trans (State.when_keeps _ (State.reg · a) _ fun t => ?_)
  · exact State.reg_put_ne _ _ ha.symm
  · exact State.reg_put_ne _ _ ha.symm

theorem State.haltGivesUp_coreOf (d : Nat) : (s.haltGivesUp c).coreOf d =
    (s.setCore c { s.coreOf c with halt := none, stepping := false, resv := none }).coreOf d := by
  unfold State.haltGivesUp
  refine (State.when_keeps _ (State.coreOf · d) _ fun t => ?_).trans (State.when_keeps _ (State.coreOf · d) _ fun t => ?_)
  · rfl
  · rfl

theorem State.haltNow_coreOf (why unit d : Nat) : (s.haltNow c why unit).coreOf d =
    (s.setCore c { s.coreOf c with halt := none, stepping := false, resv := none }).coreOf d :=
  ((congrArg (mget · Core.init d) ((raise_only ((s.haltGivesUp c).haltShown c why unit) 320).core (by decide))).trans rfl).trans
    (s.haltGivesUp_coreOf d)

theorem State.haltShown_reg (why unit : Nat) {a : Nat} (hstat : a ≠ ST_STAT c) (hdbg : a ≠ DBG_CORE_STAT c) (hall : a ≠ DBG_STAT) :
    (s.haltShown c why unit).reg a = s.reg a := by
  unfold State.haltShown
  dsimp only
  rw [State.reg_setReg_ne _ _ hall.symm, State.reg_put_ne _ _ hdbg.symm, State.reg_put_ne _ _ hdbg.symm, State.reg_put_ne _ _ hdbg.symm,
    State.reg_put_ne _ _ hstat.symm]

theorem State.haltNow_reg (why unit : Nat) {a : Nat} (hstat : a ≠ ST_STAT c) (hdbg : a ≠ DBG_CORE_STAT c) (hall : a ≠ DBG_STAT)
    (hirq : a ≠ HIF_IRQ_STAT 10) : (s.haltNow c why unit).reg a = s.reg a := by
  rw [s.haltNow_eq, State.raise_reg _ hirq, State.haltShown_reg _ _ _ hstat hdbg hall, s.haltGivesUp_reg hdbg]

theorem coreRegs_ne_irq {i : Nat} (hi : i < 16) : ST_STAT c ≠ HIF_IRQ_STAT i ∧ DBG_CORE_STAT c ≠ HIF_IRQ_STAT i := by
  simp only [ST_STAT, DBG_CORE_STAT, HIF_IRQ_STAT]
  omega

/-- ST_STAT of a core that halts: only its state changes. -/
theorem State.haltNow_stat (hc : c < 17) (why unit : Nat) :
    (s.haltNow c why unit).reg (ST_STAT c) = (s.put (ST_STAT_STATE c) 3).reg (ST_STAT c) := by
  obtain ⟨hdbg, -, hall, -, -⟩ := dbgCoreStat_ne hc hc
  rw [s.haltNow_eq, State.raise_reg _ (coreRegs_ne_irq (by decide)).1]
  unfold State.haltShown
  dsimp only
  rw [State.reg_setReg_ne _ _ hall.symm, State.reg_put_ne _ _ hdbg, State.reg_put_ne _ _ hdbg, State.reg_put_ne _ _ hdbg, State.reg_put,
    State.reg_put, s.haltGivesUp_reg hdbg.symm]

theorem State.haltNow_shows (hc : c < 17) (why unit : Nat) : (s.haltNow c why unit).on (DBG_CORE_STAT_HALTED c) = true ∧
    (s.haltNow c why unit).f (DBG_CORE_STAT_WHY c) = why % 8 := by
  obtain ⟨-, hall, -, -, -⟩ := dbgCoreStat_ne hc hc
  have hreg : (s.haltNow c why unit).reg (DBG_CORE_STAT c) =
      (((((s.haltGivesUp c).put (ST_STAT_STATE c) 3).put (DBG_CORE_STAT_HALTED c) 1).put (DBG_CORE_STAT_WHY c) why).put
        (DBG_CORE_STAT_UNIT c) unit).reg (DBG_CORE_STAT c) := by
    rw [s.haltNow_eq, State.raise_reg _ (coreRegs_ne_irq (by decide)).2]
    exact State.reg_setReg_ne _ _ hall.symm
  constructor
  · rw [State.on_of_reg hreg, State.on_put_apart _ _ (by simp) (by simp) (.inr (.inr (by simp))),
      State.on_put_apart _ _ (by simp) (by simp) (.inr (.inr (by simp)))]
    exact State.on_put_one _ rfl (by simp)
  · rw [State.f_of_reg hreg, State.f_put_apart _ _ (by simp) (by simp) (.inr (.inr (by simp)))]
    exact State.f_put _ _ _ (by simp) (by simp)

/-! ### What a halt brings to other cores (R501) -/

/-- A halt cause of core `k` leaves the registers and the state of another core. -/
theorem State.haltCause_other {k : Nat} (hc : c < 17) (hk : k < 17) (hne : k ≠ c) (why unit : Nat) :
    (s.haltCause k why unit).reg (ST_STAT c) = s.reg (ST_STAT c) ∧
      (s.haltCause k why unit).reg (DBG_CORE_STAT c) = s.reg (DBG_CORE_STAT c) ∧ (s.haltCause k why unit).coreOf c = s.coreOf c := by
  have hstat : ST_STAT c ≠ ST_STAT k ∧ DBG_CORE_STAT c ≠ DBG_CORE_STAT k := by
    simp only [ST_STAT, DBG_CORE_STAT]
    omega
  obtain ⟨hk1, -, hk3, -, -⟩ := dbgCoreStat_ne hk hc
  obtain ⟨hc1, hc2, -, -, -⟩ := dbgCoreStat_ne hc hk
  unfold State.haltCause
  dsimp only
  split
  · exact ⟨rfl, rfl, rfl⟩
  split
  · exact ⟨rfl, rfl, State.coreOf_setCore_ne _ _ hne⟩
  split
  · exact ⟨s.haltNow_reg _ _ hstat.1 hk1.symm hk3 (coreRegs_ne_irq (by decide)).1,
      s.haltNow_reg _ _ hc1 hstat.2 hc2 (coreRegs_ne_irq (by decide)).2,
      (s.haltNow_coreOf _ _ _).trans (State.coreOf_setCore_ne _ _ hne)⟩
  · exact ⟨rfl, rfl, rfl⟩

theorem State.haltNow_rises (why unit : Nat) : State.Rises s (s.haltNow c why unit) := by
  have hdbg (u : State) (v : Nat) (x : Fld) (hx : x.addr = DBG_CORE_STAT c) : State.Rises u (u.put x v) :=
    u.put_rises v (hx ▸ .inr (by simp only [DBG_CORE_STAT]; omega))
  have hgives : State.Rises s (s.haltGivesUp c) := State.rises_of_reg fun a ha => s.haltGivesUp_reg fun h =>
    not_irqWord (.inr (by simp only [DBG_CORE_STAT]; omega)) (h ▸ ha)
  rw [s.haltNow_eq]
  unfold State.haltShown
  exact (State.raise_rises _ _).after ((State.setReg_rises _ _ (.inr (by decide))).after ((hdbg _ _ _ rfl).after ((hdbg _ _ _ rfl).after
    ((hdbg _ _ _ rfl).after ((State.put_rises _ _ (.inr (by simp only [ST_STAT]; omega))).after hgives)))))

theorem State.haltCause_rises (why unit : Nat) : State.Rises s (s.haltCause c why unit) := by
  unfold State.haltCause
  exact .ite (.refl s) (.ite (setCore_only _ _ _).rises (.ite (s.haltNow_rises why unit) (.refl s)))

theorem State.stopNow_rises : State.Rises s s.stopNow := by
  unfold State.stopNow
  exact .ite ((State.put_rises _ _ (.inl (by decide))).after (setLat_only _ _).rises) (.refl s)

theorem State.haltSpread_rises (why : Nat) : State.Rises s (s.haltSpread c why) := by
  unfold State.haltSpread
  exact .ite (.ite ((State.Rises.each _ (fun k _ t => t.haltCause_rises 5 0) _).after (State.Rises.when State.stopNow_rises _ s))
    (State.Rises.when State.stopNow_rises _ s)) (.refl s)

/-- What STOP_NOW and the halts of other cores leave, a halt's spread leaves. -/
theorem State.haltSpread_keeps {α : Type} (P : State → α) (hstop : ∀ t : State, P t.stopNow = P t)
    (hcause : ∀ k < 17, k ≠ c → ∀ t : State, P (t.haltCause k 5 0) = P t) (why : Nat) : P (s.haltSpread c why) = P s := by
  have hwhen : P (s.when (s.on DBG_XTRIG_LAT_ON_HALT) State.stopNow) = P s := State.when_keeps s P _ hstop
  unfold State.haltSpread
  split
  · dsimp only
    split
    · refine (State.each_keeps P _ (fun k hk t => ?_) _).trans hwhen
      obtain ⟨hrange, hmember⟩ := List.mem_filter.1 hk
      rw [Bool.and_eq_true, bne_iff_ne] at hmember
      exact hcause k (List.mem_range.1 hrange) hmember.1 t
    · exact hwhen
  · rfl

theorem State.stopNow_reg {a : Nat} (ha : a ≠ LAT_STAT) : s.stopNow.reg a = s.reg a := by
  unfold State.stopNow
  split
  · exact State.reg_put_ne _ _ ha.symm
  · rfl

theorem State.haltSpread_leaves (hc : c < 17) (why : Nat) : (s.haltSpread c why).reg (ST_STAT c) = s.reg (ST_STAT c) ∧
    (s.haltSpread c why).reg (DBG_CORE_STAT c) = s.reg (DBG_CORE_STAT c) ∧ (s.haltSpread c why).coreOf c = s.coreOf c := by
  refine ⟨s.haltSpread_keeps (State.reg · (ST_STAT c)) (fun t => t.stopNow_reg ?_) (fun k hk hne t => (t.haltCause_other hc hk hne 5 0).1) why,
    s.haltSpread_keeps (State.reg · (DBG_CORE_STAT c)) (fun t => t.stopNow_reg ?_) (fun k hk hne t => (t.haltCause_other hc hk hne 5 0).2.1) why,
    s.haltSpread_keeps (State.coreOf · c) (fun t => congrArg (mget · Core.init c) ((stopNow_only t).core (by decide)))
      (fun k hk hne t => (t.haltCause_other hc hk hne 5 0).2.2) why⟩
  · simp only [ST_STAT, LAT_STAT]
    omega
  · simp only [DBG_CORE_STAT, LAT_STAT]
    omega

theorem haltEntry_halts {why unit : Nat} (hc : c < 17) (hhalt : (s.coreOf c).halt = some (why, unit)) (hrun : s.coreSt c = 1 ∨ s.coreSt c = 2)
    (hclock : s.coreClock c = true) (hstall : (s.coreOf c).stall = none) (hposted : s.postedOpen (coreSrc c) = false) :
    ∃ t, exec (.haltEntry c) s = .next t ∧ t.coreSt c = 3 ∧ t.on (DBG_CORE_STAT_HALTED c) = true ∧ t.f (DBG_CORE_STAT_WHY c) = why % 8 ∧
      (t.coreOf c).halt = none ∧ (t.coreOf c).stepping = false ∧ (t.coreOf c).resv = none ∧ t.pcOf c = s.pcOf c ∧
      (t.reg (HIF_IRQ_STAT 10)).toNat.testBit 0 = true ∧ t.round = s.round ∧ t.hbm = s.hbm ∧ t.pending = s.pending := by
  have hrun' : (s.coreSt c == 1 || s.coreSt c == 2) = true := by
    rw [Bool.or_eq_true, beq_iff_eq, beq_iff_eq]
    exact hrun
  have hexec : exec (.haltEntry c) s = .next ((s.haltNow c why unit).haltSpread c why) := by
    show Host.Outcome.next (match (s.coreOf c).halt with
      | some (why, unit) =>
        if decide (c < 17) && (s.coreSt c == 1 || s.coreSt c == 2) && s.coreClock c && (s.coreOf c).stall.isNone &&
            !s.postedOpen (coreSrc c) then (s.haltNow c why unit).haltSpread c why
        else s
      | none => s) = _
    rw [hhalt]
    dsimp only
    rw [decide_eq_true hc, hrun', hclock, hstall, hposted]
    rfl
  obtain ⟨hstat, hdbg, hcore⟩ := (s.haltNow c why unit).haltSpread_leaves hc why
  have hst := hstat.trans (s.haltNow_stat hc why unit)
  obtain ⟨hhalted, hwhy⟩ := s.haltNow_shows hc why unit
  rw [s.haltNow_coreOf, State.coreOf_setCore_self] at hcore
  have honly : Only 403073 s ((s.haltNow c why unit).haltSpread c why) :=
    (haltSpread_only _ _ _).after (by decide) ((haltNow_only _ _ _ _).mono (by decide))
  refine ⟨_, hexec, (State.f_of_reg hst).trans (State.f_put _ _ _ (by simp) (by simp)), (State.on_of_reg hdbg).trans hhalted,
    (State.f_of_reg hdbg).trans hwhy, by rw [hcore], by rw [hcore], by rw [hcore],
    (State.pcOf_of_stat hst).trans (s.put_state_pcOf 3),
    State.haltSpread_rises _ _ _ 0 (.inl rfl) (State.raise_irq _ 320), honly.round (by decide), honly.hbm (by decide), honly.queue⟩

/-! ### A halted core resumes (R499) -/

theorem State.resumed_coreOf (step : Bool) (d : Nat) : (s.resumed c step).coreOf d =
    (s.setCore c { s.coreOf c with skipBp := true, stepping := step, halt := none }).coreOf d := rfl

theorem State.coreThaw_coreOf (d : Nat) : (s.coreThaw c).coreOf d = s.coreOf d := by
  unfold State.coreThaw
  split <;> rfl

theorem State.coreResume_coreOf (step : Bool) (hhalted : s.coreSt c = 3) :
    (s.coreResume c step).coreOf c = { s.coreOf c with skipBp := true, stepping := step, halt := none } := by
  rw [s.coreResume_eq, if_pos hhalted]
  split
  · rw [State.coreThaw_coreOf, s.resumed_coreOf, State.coreOf_setCore_self]
  · rw [s.resumed_coreOf, State.coreOf_setCore_self]

theorem State.coreResume_only (step : Bool) : Only 8193 s (s.coreResume c step) := by
  have hresumed : Only 8193 s (s.resumed c step) := (setReg_only _ _ _).after (by decide) ((put_only _ _ _).after (by decide)
    ((put_only _ _ _).after (by decide) ((setCore_only _ _ _).mono (by decide))))
  rw [s.coreResume_eq]
  exact .ite (.ite ((coreThaw_only _ _).after (by decide) hresumed) hresumed) .refl

theorem State.coreResume_halted (hc : c < 17) (step : Bool) (hhalted : s.coreSt c = 3) :
    (s.coreResume c step).on (DBG_CORE_STAT_HALTED c) = false := by
  obtain ⟨hdbg, hall, -, -, hwdt⟩ := dbgCoreStat_ne hc hc
  have hresumed : (s.resumed c step).on (DBG_CORE_STAT_HALTED c) = false :=
    (State.on_of_reg (x := DBG_CORE_STAT_HALTED c) (State.reg_setReg_ne _ _ hall.symm)).trans (State.on_put_zero _ rfl (by simp))
  rw [s.coreResume_eq, if_pos hhalted]
  split
  · exact (State.on_of_reg (x := DBG_CORE_STAT_HALTED c) (State.coreThaw_reg _ hwdt.symm)).trans hresumed
  · exact hresumed

/-- What a resume or a step of a halted core leaves. -/
theorem State.coreResume_runs (hc : c < 17) (step : Bool) (hhalted : s.coreSt c = 3) :
    (s.coreResume c step).coreSt c = 1 ∧ (s.coreResume c step).on (DBG_CORE_STAT_HALTED c) = false ∧
      ((s.coreResume c step).coreOf c).skipBp = true ∧ ((s.coreResume c step).coreOf c).stepping = step ∧
      (s.coreResume c step).pcOf c = s.pcOf c ∧
      Keeps (fun a => a = ST_STAT c ∨ a = DBG_CORE_STAT c ∨ a = DBG_STAT ∨ a = ST_WDT_CNT c ∨ a = ST_WDT_STAT c) [.core] s
        (s.coreResume c step) := by
  have hst := s.coreResume_stat step hc hhalted
  have hcore := s.coreResume_coreOf step hhalted
  refine ⟨(State.f_of_reg hst).trans (State.f_put _ _ _ (by simp) (by simp)), s.coreResume_halted hc step hhalted, by rw [hcore],
    by rw [hcore], (State.pcOf_of_stat hst).trans (s.put_state_pcOf 1), (s.coreResume_only step).keeps fun a ha => ?_⟩
  simp only [not_or] at ha
  obtain ⟨hstat, hdbg, hall, hwdt, -⟩ := ha
  exact s.coreResume_reg step hstat hdbg hall hwdt

/-! ### Feeds, and the registers of a halted core (R497, R498) -/

/-- An LDI that is fed to a halted core. -/
theorem State.feed_ldi {w : Word} (hhalted : s.coreSt c = 3) (hclock : s.coreClock c = true) (hstall : (s.coreOf c).stall = none)
    (hkind : insnKind w = some 97) (hnot : fget w 27 25 ≠ 5 ∨ fget w 24 20 ≠ 5) :
    s.feed c w = some (s.setCore c ((s.coreOf c).writeReg c (fget w 27 25) (fget w 24 20) (fget w 15 0) 0)) := by
  have hmeaning : (insnKind w).bind feedFn = some insnLdi := by
    rw [hkind]
    rfl
  unfold State.feed
  rw [hclock, hhalted, hstall, hmeaning, if_neg (by decide), if_neg (by decide)]
  show some (s.regWrite c (fget w 27 25) (fget w 24 20) (fget w 15 0)) = _
  rw [State.regWrite_eq _ _ _ (insnKind_named hkind (by decide)) hnot]

/-- The PC of a halted core is written. -/
theorem State.coreRegWrite_pc (hhalted : s.coreSt c = 3) (hclock : s.coreClock c = true) (v : Word) :
    (s.coreRegWrite c true v).1 = s.setPc c (fget v 15 2 * 4 + (if c = 16 then fget v 16 16 else s.f (ST_STAT_PCR c)) * 2 ^ 16) := by
  unfold State.coreRegWrite
  rw [hclock, if_neg (by decide), if_neg (not_not.2 hhalted), if_pos rfl]

theorem State.newPc_lt (v : Word) : fget v 15 2 * 4 + (if c = 16 then fget v 16 16 else s.f (ST_STAT_PCR c)) * 2 ^ 16 < 2 ^ 17 := by
  have hpc : fget v 15 2 < 2 ^ 14 := BitVec.isLt _
  have hpcr : fget v 16 16 < 2 ^ 1 := BitVec.isLt _
  have hold : s.f (ST_STAT_PCR c) < 2 ^ 1 := BitVec.isLt _
  split <;> omega

theorem coreRegisterAccess_sets (hc : c < 17) (hreach : s.dbgReach src = true) (hattached : s.attached = true)
    (hmay : s.secState = 0 ∨ s.perms.testBit 0 = true) (hhalted : s.coreSt c = 3) (hclock : s.coreClock c = true) (v : Word) :
    ∃ t, exec (.coreRegisterAccess src c true (some v)) s = .next t ∧
      t.pcOf c = fget v 15 2 * 4 + (if c = 16 then fget v 16 16 else s.f (ST_STAT_PCR c)) * 2 ^ 16 ∧ t.coreSt c = 3 ∧
      Keeps (fun a => a = ST_STAT c) [] s t := by
  refine ⟨_, congrArg Host.Outcome.next ((s.dbgOp_passes hc hreach hattached hmay _).trans (s.coreRegWrite_pc hhalted hclock v)), ?_,
    (State.setPc_coreSt _ _).trans hhalted, (setPc_only _ _ _).keeps fun a ha => State.setPc_reg _ _ ha⟩
  rw [State.setPc_pcOf, Nat.mod_eq_of_lt (s.newPc_lt v)]

end

/-- Settles O50: accesses of the debug port, attach and detach, halts, resumes, feeds and the registers of a halted core. -/
theorem debugAccess : Obligations.DebugAccess := by
  unfold Obligations.DebugAccess
  intro s hcalm
  refine ⟨fun addr consume hir hsealed hbusy hmay htag => s.dbgAccess_queues hir hsealed hbusy hmay htag,
    fun addr consume v hir hsealed hbusy hmay htag => s.dbgAccess_queues hir hsealed hbusy hmay htag,
    fun a r hinbox hread => debugAccessDone_takes s hinbox hread,
    fun src hsrc hstate => dbgAttach_attaches s hcalm hsrc hstate,
    fun src hsrc hattached => dbgDetach_detaches s hcalm hsrc hattached,
    fun src c hc hreach hattached hmay hrun hhalt => dbgHalt_shows s hc hreach hattached hmay hrun hhalt,
    fun c why unit hc hhalt hrun hclock hstall hposted => haltEntry_halts s hc hhalt hrun hclock hstall hposted,
    fun c i hc hcan hbp => breakpoint_shows s hc hcan hbp, ?_, ?_, ?_,
    fun src c v hc hreach hattached hmay hhalted hclock => coreRegisterAccess_sets s hc hreach hattached hmay hhalted hclock v, ?_⟩
  · intro src c hc hreach hattached hmay hhalted
    exact ⟨_, congrArg Host.Outcome.next (s.dbgOp_passes hc hreach hattached hmay _), s.coreResume_runs hc false hhalted⟩
  · intro src c hc hreach hattached hmay hhalted
    obtain ⟨hst, -, hskip, hstep, hpc, hkeeps⟩ := s.coreResume_runs hc true hhalted
    exact ⟨_, congrArg Host.Outcome.next (s.dbgOp_passes hc hreach hattached hmay _), hst, hskip, hstep, hpc, hkeeps⟩
  · intro src c w hc hreach hattached hmay hhalted hclock hstall hkind hnot
    refine ⟨_, congrArg Host.Outcome.next ((s.dbgOp_passes hc hreach hattached hmay _).trans
      (congrArg (Option.getD · s) (s.feed_ldi hhalted hclock hstall hkind hnot))), State.coreOf_setCore_self _ _ _, setCore_keeps _ _ _⟩
  · intro src c hc hreach hattached hmay
    exact ⟨s, congrArg Host.Outcome.next (s.dbgOp_passes hc hreach hattached hmay _), rfl⟩

end Sys2Proof.Machine
end

section
/-! SUPPORT. Security alarms (R550 to R552): the effects of an alarm whose action is ALARM, and what of the alarm they leave. -/

namespace Sys2Proof.Machine

/-! ### What stands beside an alarm's effects -/

/-- The registers of the alarms and of the scrambler keys. -/
abbrev AlarmReg (a : Nat) : Prop := a = SEC_ALARM ∨ a = SEC_ALARM_CFG ∨ a = MEM_STAT

/-- A register that is none of these, and holds no event of security or of the debugger. -/
abbrev Unguarded (a : Nat) : Prop :=
  a ≠ SEC_ALARM ∧ a ≠ SEC_ALARM_CFG ∧ a ≠ MEM_STAT ∧ a ≠ HIF_IRQ_STAT 10 ∧ a ≠ HIF_IRQ_STAT 11

/-- From `s` to `t` the alarms, the security state's own data and the scrambler keys stay, and no event is lost. -/
structure State.Aside (s t : State) : Prop where
  regs : ∀ a, AlarmReg a → t.reg a = s.reg a
  sec : t.sec = s.sec
  keys : t.hbm.keys = s.hbm.keys
  rises : State.Rises s t

/-- The registers of bays and of slots of the spool. -/
theorem unguarded_of_aligned {a : Nat} (h : a % 16 = 0) : Unguarded a := by
  unfold Unguarded SEC_ALARM SEC_ALARM_CFG MEM_STAT HIF_IRQ_STAT
  omega

theorem State.Aside.refl (s : State) : State.Aside s s := ⟨fun _ _ => rfl, rfl, rfl, .refl s⟩

theorem State.Aside.after {s t u : State} (g : State.Aside t u) (h : State.Aside s t) : State.Aside s u :=
  ⟨fun a ha => (g.regs a ha).trans (h.regs a ha), g.sec.trans h.sec, g.keys.trans h.keys, h.rises.trans g.rises⟩

theorem State.Aside.ite {s t u : State} {c : Prop} [Decidable c] (h : State.Aside s t) (g : State.Aside s u) :
    State.Aside s (if c then t else u) := by
  split
  · exact h
  · exact g

theorem State.Aside.when {g : State → State} (hg : ∀ t, State.Aside t (g t)) (b : Bool) (s : State) : State.Aside s (s.when b g) := by
  unfold State.when
  exact .ite (hg s) (.refl s)

theorem Only.aside {m : Nat} {s t : State} (h : Only m s t) (hregs : m.testBit 0 = false := by decide)
    (hhbm : m.testBit 11 = false := by decide) (hsec : m.testBit 18 = false := by decide) : State.Aside s t :=
  ⟨fun a _ => State.reg_congr (h.regs hregs) a, h.sec hsec, congrArg Hbm.keys (h.hbm hhbm), h.rises hregs⟩

section
variable (s : State)

theorem State.setReg_aside {a : Nat} (v : Word) (h : Unguarded a) : State.Aside s (s.setReg a v) := by
  obtain ⟨halarm, hcfg, hmem, hirq10, hirq11⟩ := h
  refine ⟨fun b hb => State.reg_setReg_ne _ _ ?_, rfl, rfl, State.rises_of_reg fun b hb => State.reg_setReg_ne _ _ ?_⟩
  · rcases hb with rfl | rfl | rfl <;> assumption
  · rcases hb with rfl | rfl <;> assumption

theorem State.put_aside {x : Fld} (v : Nat) (h : Unguarded x.addr) : State.Aside s (s.put x v) := s.setReg_aside _ h

theorem State.raise_aside (i : Nat) : State.Aside s (s.raise i) := by
  refine ⟨fun a ha => State.raise_reg _ ?_, (raise_only s i).sec (by decide), congrArg Hbm.keys ((raise_only s i).hbm (by decide)), s.raise_rises i⟩
  rcases ha with rfl | rfl | rfl <;> simp only [SEC_ALARM, SEC_ALARM_CFG, MEM_STAT, HIF_IRQ_STAT] <;> omega

/-! ### The Tail (R337, R354, R361) -/

theorem State.tailErr_aside (kind a : Nat) : State.Aside s (s.tailErr kind a) := by
  unfold State.tailErr State.log
  exact .ite (s.put_aside _ (by decide)) ((State.put_aside _ _ (by decide)).after ((State.put_aside _ _ (by decide)).after
    ((State.put_aside _ _ (by decide)).after (s.put_aside _ (by decide)))))

theorem State.capBad_aside : State.Aside s s.capBad := by
  unfold State.capBad
  split
  · exact .refl s
  · refine .ite (.refl s) ((State.raise_aside _ _).after ((State.put_aside _ _ (unguarded_of_aligned ?_)).after (setTail_only _ _).aside))
    simp only [TAIL_CAT_STAT]
    omega

theorem State.capSpoil_aside : State.Aside s s.capSpoil := by
  unfold State.capSpoil
  split
  · exact .refl s
  · exact .ite (.refl s) ((State.capBad_aside _).after (s.tailErr_aside _ _))

theorem unguarded_slot (i : Nat) : Unguarded (TAIL_CAT_STAT i) := unguarded_of_aligned (by simp only [TAIL_CAT_STAT]; omega)

theorem State.slotUse_aside (i : Nat) : State.Aside s (s.slotUse i) := s.put_aside _ (unguarded_slot i)

theorem State.xferEnd_aside (cause : Nat) : State.Aside s (s.xferEnd cause) := by
  unfold State.xferEnd
  split
  · exact .refl s
  next x _ =>
    have hidle : State.Aside s (((s.setTail { s.tail with xfer := none }).put TAIL_EXP_STAT_BUSY 0).put TAIL_EXP_STAT_CAUSE cause) :=
      (State.put_aside _ _ (by decide)).after ((State.put_aside _ _ (by decide)).after (setTail_only _ _).aside)
    have hend : Unguarded (if cause = 0 then TAIL_EXP_STAT_DONE else TAIL_EXP_STAT_FAIL).addr := by split <;> decide
    refine (State.raise_aside _ _).after ((State.put_aside _ _ hend).after (.ite (.ite ?_ ?_) ?_))
    · exact (State.put_aside _ _ (by decide)).after ((State.put_aside _ _ (unguarded_slot _)).after hidle)
    · exact (State.put_aside _ _ (unguarded_slot _)).after hidle
    · exact (State.slotUse_aside _ _).after hidle

theorem State.reelSay_aside (cause : Nat) : State.Aside s (s.reelSay cause) :=
  (State.Aside.when (fun t => t.raise_aside 182) _ _).after ((State.raise_aside _ _).after (s.put_aside _ (by decide)))

theorem State.reelDrop_aside (state : Nat) : State.Aside s (s.reelDrop state) := by
  unfold State.reelDrop
  split
  · exact .refl s
  · exact (State.put_aside _ _ (by decide)).after ((State.slotUse_aside _ _).after (setTail_only _ _).aside)

theorem State.reelRefuse_aside (cause : Nat) : State.Aside s (s.reelRefuse cause) := by
  unfold State.reelRefuse
  split
  · exact s.reelSay_aside cause
  · exact (State.reelDrop_aside _ _).after (s.reelSay_aside cause)

theorem State.reelBreak_aside (cause : Nat) : State.Aside s (s.reelBreak cause) := by
  unfold State.reelBreak
  split
  · exact s.reelRefuse_aside cause
  · exact s.reelRefuse_aside cause
  · exact (State.reelSay_aside _ _).after (s.reelDrop_aside 4)
  · exact .refl s

/-! ### The operation of the configuration engine (R195) -/

theorem State.setBay_aside (k c : Nat) : State.Aside s (s.setBay k c) :=
  s.put_aside _ (unguarded_of_aligned (by simp only [CFG_BAY_STAT]; omega))

theorem State.partialFail_aside (k : Nat) : State.Aside s (s.partialFail k) := by
  unfold State.partialFail
  exact .ite ((setCfg_only _ _).aside.after (s.setBay_aside k 5)) ((State.put_aside _ _ (by decide)).after (setCfg_only _ _).aside)

theorem State.cfgIdle_aside : State.Aside s s.cfgIdle :=
  (State.put_aside _ _ (by decide)).after ((State.put_aside _ _ (by decide)).after ((State.put_aside _ _ (by decide)).after (setCfg_only _ _).aside))

theorem State.cfgLog_aside (cause bay frame : Nat) : State.Aside s (s.cfgLog cause bay frame) := by
  unfold State.cfgLog State.log
  exact (State.raise_aside _ _).after (.ite (s.put_aside _ (by decide)) ((State.put_aside _ _ (by decide)).after
    ((State.put_aside _ _ (by decide)).after ((State.put_aside _ _ (by decide)).after (s.put_aside _ (by decide))))))

/-- ALARM, as the cause of a failed load, raises no further alarm. -/
theorem State.cfgFail_aside : State.Aside s (s.cfgFail 0x0E 0 0) := by
  unfold State.cfgFail
  dsimp only
  rw [if_neg (by omega)]
  refine (State.cfgLog_aside _ _ _ _).after ((State.put_aside _ _ (by decide)).after ((State.put_aside _ _ (by decide)).after
    ((State.cfgIdle_aside _).after ?_)))
  split
  · exact .ite (s.partialFail_aside _) (.ite (setCfg_only _ _).aside (.refl s))
  · exact .refl s

theorem State.cfgStop_aside : State.Aside s (s.cfgStop 0x0E) := by
  unfold State.cfgStop
  refine .ite s.cfgFail_aside (.ite ((State.cfgFail_aside _).after (setCfg_only _ _).aside) (.ite ((State.cfgFail_aside _).after ?_) (.refl s)))
  exact .ite ((setCfg_only _ _).aside.after (holdOn_only _).aside) (.refl s)

/-! ### Lattice, power and the debugger -/

theorem State.stopNow_aside : State.Aside s s.stopNow := by
  unfold State.stopNow
  exact .ite ((State.put_aside _ _ (by decide)).after (setLat_only _ _).aside) (.refl s)

theorem State.wake_aside (cause : Nat) : State.Aside s (s.wake cause) := by
  unfold State.wake
  exact .ite (.refl s) ((setBal_only _ _).aside.after ((State.put_aside _ _ (by decide)).after ((State.put_aside _ _ (by decide)).after
    (s.put_aside _ (by decide)))))

theorem State.wakeCheck_aside : State.Aside s s.wakeCheck := by
  unfold State.wakeCheck
  exact .ite (.refl s) (.ite (s.wake_aside 1) (.ite (s.wake_aside 2) (.ite (s.wake_aside 3) (.refl s))))

theorem State.tagBack_keys (l : Nat) : (s.tagBack l).hbm.keys = s.hbm.keys := by
  unfold State.tagBack
  split
  · rfl
  · split
    · refine State.each_keeps (fun u => u.hbm.keys) _ (fun x _ u => ?_) s
      rfl
    · rfl

theorem State.refreshEnter_keys (k : Nat) : (s.refreshEnter k).hbm.keys = s.hbm.keys := by
  unfold State.refreshEnter
  split
  · exact State.each_keeps (fun u => u.hbm.keys) (s.tagLines k) (fun l _ u => u.tagBack_keys l) s
  · rfl

theorem State.gateShut_keys {i : Nat} (h : i < 32 ∨ i = 36 ∨ i = 37) : (s.gateShut i false).hbm.keys = s.hbm.keys := by
  have hgate : (s.setGate i .closed).hbm.keys = s.hbm.keys := rfl
  have htet : (s.setGate i .closed).tetSync.hbm = (s.setGate i .closed).hbm := (tetSync_only _).hbm (by decide)
  rw [s.gateShut_eq h]
  split
  · exact hgate
  split
  · exact (congrArg Hbm.keys ((portSync_only _ _).hbm (by decide))).trans hgate
  split
  · exact (congrArg Hbm.keys htet).trans hgate
  · exact hgate

theorem State.gateFollow_keys (p i : Nat) : (s.gateFollow p i).hbm.keys = s.hbm.keys := by
  unfold State.gateFollow
  split
  next h =>
    split
    · rfl
    · exact s.gateShut_keys (s.powerShuts_lt h)
  split
  · exact congrArg Hbm.keys ((gateReopen_only _ _).hbm (by decide))
  · rfl

theorem State.powerApply_keys : s.powerApply.hbm.keys = s.hbm.keys := by
  have hgates := State.each_keeps (fun t => t.hbm.keys) (List.range 39) (fun i _ t => t.gateFollow_keys s.power i) s
  rw [State.powerApply_eq]
  split
  · exact (State.each_keeps (fun t => t.hbm.keys) (List.range 4) (fun k _ t => t.refreshEnter_keys k) _).trans hgates
  · exact hgates

theorem State.powerApply_aside : State.Aside s s.powerApply := by
  refine ⟨fun a ha => s.powerApply_ungated ?_, (powerApply_only s).sec (by decide), s.powerApply_keys, s.powerApply_rises⟩
  rcases ha with rfl | rfl | rfl
  · exact ungated_of_block (by decide)
  · exact ungated_of_block (by decide)
  · exact ungated_mem

theorem State.coreFreed_only (c : Nat) : Only 8193 s (s.coreFreed c) := (setCore_only _ _ _).after (by decide) (s.coreResume_only false)

theorem State.pointsOff_only (c : Nat) : Only 1 s (s.pointsOff c) :=
  Only.each _ _ (fun _ _ => put_only _ _ _) (Only.each _ _ (fun _ _ => put_only _ _ _) .refl)

theorem State.coresFreed_only : Only 8193 s s.coresFreed :=
  (setReg_only _ _ _).after (by decide) (Only.each _ _ (fun c t => (t.pointsOff_only c).mono (by decide))
    (Only.each _ _ (fun c t => t.coreFreed_only c) .refl))

theorem State.coresFreed_aside : State.Aside s s.coresFreed := by
  refine ⟨fun a ha => s.coresFreed_reg ?_, s.coresFreed_only.sec (by decide), congrArg Hbm.keys (s.coresFreed_only.hbm (by decide)),
    State.rises_of_reg fun a ha => s.coresFreed_reg ?_⟩
  · rcases ha with rfl | rfl | rfl <;> decide
  · rcases ha with rfl | rfl <;> decide

theorem State.detach_aside : State.Aside s s.detach := by
  by_cases hattached : s.attached = true
  · rw [s.detach_eq hattached]
    unfold State.detaching
    exact (State.powerApply_aside _).after ((State.raise_aside _ _).after ((State.put_aside _ _ (by decide)).after
      ((State.put_aside _ _ (by decide)).after ((State.put_aside _ _ (by decide)).after ((State.put_aside _ _ (by decide)).after
        ((State.put_aside _ _ (by decide)).after s.coresFreed_aside))))))
  · unfold State.detach
    rw [if_neg hattached]
    exact .refl s

/-! ### The effects of an alarm (R551, R552) -/

/-- The keys are gone. -/
def State.keysCleared (s : State) : State := ((s.setSec { s.sec with alarmDue := false }).keyClear).slotsClear

/-- What an alarm does beyond the keys. -/
theorem State.alarmAct_aside : State.Aside s.keysCleared s.alarmAct := by
  have hstopped : State.Aside s.keysCleared ((((s.keysCleared.capSpoil).xferEnd 6).reelBreak 8).cfgStop 0x0E).stopNow :=
    (State.stopNow_aside _).after ((State.cfgStop_aside _).after ((State.reelBreak_aside _ _).after ((State.xferEnd_aside _ _).after
      (State.capSpoil_aside _))))
  have hwoken := (State.wake_aside _ 4).after hstopped
  exact .ite ((State.put_aside _ _ (by decide)).after ((State.put_aside _ _ (by decide)).after ((State.detach_aside _).after hwoken))) hwoken

theorem State.settle_aside (hdue : s.sec.alarmDue = true) : State.Aside s.keysCleared s.settle := by
  unfold State.settle
  rw [if_pos hdue]
  exact (State.wakeCheck_aside _).after s.alarmAct_aside

theorem State.keysCleared_reg {a : Nat} (hmem : a ≠ MEM_STAT) (hstore : a ≠ CFG_STORE_CTRL) : s.keysCleared.reg a = s.reg a := by
  show (s.setSec { s.sec with alarmDue := false }).keyClear.reg a = _
  unfold State.keyClear
  dsimp only
  rw [State.reg_put_ne _ _ hstore.symm, State.reg_put_ne _ _ hstore.symm, State.reg_put_ne _ _ hmem.symm, State.reg_put_ne _ _ hmem.symm]
  rfl

theorem State.keysCleared_keys : s.keysCleared.f MEM_STAT_KEYS = 3 := by
  show (s.setSec { s.sec with alarmDue := false }).keyClear.f MEM_STAT_KEYS = _
  unfold State.keyClear
  dsimp only
  rw [State.f_put_ne _ _ (by decide), State.f_put_ne _ _ (by decide)]
  exact State.f_put _ _ _ (by decide) (by decide)

/-- An alarm is shown with its event. -/
def State.alarmShown (s : State) (b : Nat) : State := (s.put SEC_ALARM_AL (s.f SEC_ALARM_AL ||| 2 ^ b)).raise 360

theorem State.raiseAlarm_eq (b : Nat) : s.raiseAlarm b =
    if (s.f SEC_ALARM_CFG_ACTION).testBit b then (s.alarmShown b).setSec { (s.alarmShown b).sec with alarmDue := true } else s.alarmShown b := rfl

theorem State.alarmShown_only (b : Nat) : Only 132609 s (s.alarmShown b) := (raise_only _ _).after (by decide) ((put_only _ _ _).mono (by decide))

theorem State.alarmShown_reg (b : Nat) {a : Nat} (halarm : a ≠ SEC_ALARM) (hirq : a ≠ HIF_IRQ_STAT 11) : (s.alarmShown b).reg a = s.reg a :=
  (State.raise_reg _ hirq).trans (State.reg_put_ne _ _ halarm.symm)

theorem State.alarmShown_bits {b : Nat} (hb : b < 7) : (s.alarmShown b).f SEC_ALARM_AL = s.f SEC_ALARM_AL ||| 2 ^ b := by
  have hold : s.f SEC_ALARM_AL < 2 ^ 7 := BitVec.isLt _
  have hnew : 2 ^ b < 2 ^ 7 := Nat.pow_lt_pow_right (by decide) hb
  unfold State.alarmShown
  rw [State.raise_f _ (by decide), State.f_put _ _ _ (by decide) (by decide)]
  exact Nat.mod_eq_of_lt (Nat.or_lt_two_pow hold hnew)

/-- What stands after an alarm whose action is ALARM. -/
structure State.Alarmed (s t : State) (b : Nat) : Prop where
  shown : t.f SEC_ALARM_AL = s.f SEC_ALARM_AL ||| 2 ^ b
  event : (t.reg (HIF_IRQ_STAT 11)).toNat.testBit 8 = true
  acted : t.sec.alarmDue = false
  slots : t.sec.slots = []
  keyData : t.sec.keyData = []
  fuses : t.sec.fuses = s.sec.fuses
  keys : t.hbm.keys = none
  keysShown : t.f MEM_STAT_KEYS = 3
  alarmed : t.alarmed = true
  round : t.round = s.round
  fig : t.fig = s.fig
  sem : t.sem = s.sem
  queue : t.pending = s.pending

theorem State.alarm_settles {b : Nat} (hb : b < 7) (haction : (s.f SEC_ALARM_CFG_ACTION).testBit b = true) :
    s.Alarmed (s.raiseAlarm b).settle b := by
  have hraise : s.raiseAlarm b = (s.alarmShown b).setSec { (s.alarmShown b).sec with alarmDue := true } := by
    rw [s.raiseAlarm_eq, if_pos haction]
  have hdue : (s.raiseAlarm b).sec.alarmDue = true := by rw [hraise]; rfl
  have haside := (s.raiseAlarm b).settle_aside hdue
  have honly : Only 995257 s (s.raiseAlarm b).settle := (settle_only _).after (by decide) ((raiseAlarm_only s b).mono (by decide))
  have hreg (a : Nat) (ha : a = SEC_ALARM ∨ a = SEC_ALARM_CFG) : (s.raiseAlarm b).settle.reg a = (s.alarmShown b).reg a := by
    have hne : a ≠ MEM_STAT ∧ a ≠ CFG_STORE_CTRL := by rcases ha with rfl | rfl <;> decide
    rw [haside.regs a (ha.imp id .inl), State.keysCleared_reg _ hne.1 hne.2, hraise]
    rfl
  have hshown : (s.raiseAlarm b).settle.f SEC_ALARM_AL = s.f SEC_ALARM_AL ||| 2 ^ b :=
    (State.f_of_reg (x := SEC_ALARM_AL) (hreg _ (.inl rfl))).trans (s.alarmShown_bits hb)
  have hcfg : (s.raiseAlarm b).settle.f SEC_ALARM_CFG_ACTION = s.f SEC_ALARM_CFG_ACTION :=
    State.f_of_reg ((hreg _ (.inr rfl)).trans (s.alarmShown_reg b (by decide) (by decide)))
  have hevent : ((s.raiseAlarm b).keysCleared.reg (HIF_IRQ_STAT 11)).toNat.testBit 8 = true := by
    rw [State.keysCleared_reg _ (by decide) (by decide), hraise]
    exact State.raise_irq _ 360
  have hsec : (s.alarmShown b).sec = s.sec := (s.alarmShown_only b).sec (by decide)
  have hcleared : (s.raiseAlarm b).settle.sec = { (s.raiseAlarm b).sec with alarmDue := false, slots := [], keyData := [] } := haside.sec
  rw [hraise] at hcleared
  refine ⟨hshown, haside.rises _ 8 (.inr rfl) hevent, ?_, ?_, ?_, ?_, haside.keys, ?_, ?_, honly.round (by decide), honly.fig (by decide),
    honly.sem (by decide), honly.queue⟩
  · rw [hraise, hcleared]
  · rw [hraise, hcleared]
  · rw [hraise, hcleared]
  · rw [hraise, hcleared]
    show (s.alarmShown b).sec.fuses = _
    rw [hsec]
  · exact (State.f_of_reg (x := MEM_STAT_KEYS) (haside.regs _ (.inr (.inr rfl)))).trans (State.keysCleared_keys _)
  · unfold State.alarmed
    rw [hshown, hcfg, bne_iff_ne]
    intro hzero
    have hbit := congrArg (Nat.testBit · b) hzero
    simp [haction] at hbit

end

end Sys2Proof.Machine
end

section
/-! SUPPORT. SEC_ALARM as software writes it (R553), debug authentication (R488, R549), and the statement about alarms and authentication. -/

namespace Sys2Proof.Machine

/-! ### SEC_ALARM written (R550, R553) -/

section
variable (s : State) {src : Nat}

theorem State.hostBlocked_alarm (h : src ≠ 0 ∨ s.secState = 0) : s.hostBlocked src SEC_ALARM = false := by
  unfold State.hostBlocked
  rcases h with h | h
  · rw [beq_false_of_ne h]
    rfl
  · rw [h, bne_self_eq_false, Bool.and_false]
    rfl

theorem State.alarmSrc_iff : s.alarmSrc src = true ↔ src = 17 ∨ (s.secState = 0 ∧ (src = 0 ∨ src = 21 ∨ src = 22)) := by
  unfold State.alarmSrc isDbg
  simp

/-- RAISE leaves the bits that are set. -/
def State.alarmKept (s : State) : State := s.setReg SEC_ALARM (s.reg SEC_ALARM &&& ~~~ (0x80000000#32 &&& 0x7F#32))

theorem State.alarmKept_reg (a : Nat) : s.alarmKept.reg a = s.reg a := by
  unfold State.alarmKept
  rw [State.reg_setReg]
  split
  next h =>
    subst h
    rw [show ~~~ (0x80000000#32 &&& 0x7F#32) = BitVec.allOnes 32 by decide, BitVec.and_allOnes]
  next => rfl

theorem State.alarmWrite_raise : (s.alarmWrite src 0x80000000#32).1 = s.alarmKept.raiseAlarm 6 := by
  have hraise : fget 0x80000000#32 31 31 = 1 := by decide
  unfold State.alarmWrite
  rw [if_neg fun h => h.1 (by decide)]
  show (if fget 0x80000000#32 31 31 = 1 then s.alarmKept.raiseAlarm 6 else s.alarmKept) = _
  rw [if_pos hraise]

theorem State.Alarmed.of_kept {t : State} {b : Nat} (h : s.alarmKept.Alarmed t b) : s.Alarmed t b :=
  { h with shown := h.shown.trans (congrArg (· ||| 2 ^ b) (State.f_of_reg (x := SEC_ALARM_AL) (s.alarmKept_reg _))) }

theorem State.Alarmed.effects {s t : State} {b : Nat} (h : s.Alarmed t b) : t.f SEC_ALARM_AL = s.f SEC_ALARM_AL ||| 2 ^ b ∧
    (t.reg (HIF_IRQ_STAT 11)).toNat.testBit 8 = true ∧ t.sec.alarmDue = false ∧ t.sec.slots = [] ∧ t.sec.keyData = [] ∧
    t.sec.fuses = s.sec.fuses ∧ t.hbm.keys = none ∧ t.f MEM_STAT_KEYS = 3 ∧ t.alarmed = true ∧ t.round = s.round ∧ t.fig = s.fig ∧
    t.sem = s.sem ∧ t.pending = s.pending :=
  ⟨h.shown, h.event, h.acted, h.slots, h.keyData, h.fuses, h.keys, h.keysShown, h.alarmed, h.round, h.fig, h.sem, h.queue⟩

theorem alarmRaise_alarms (haction : (s.f SEC_ALARM_CFG_ACTION).testBit 6 = true) (hstate : s.secState = 0) :
    ∃ t, exec (.alarmRaise src) s = .next t ∧ s.Alarmed t 6 := by
  have hexec : exec (.alarmRaise src) s = .next (s.alarmKept.raiseAlarm 6).settle := by
    show Host.Outcome.next (if s.hostBlocked src SEC_ALARM then s else (s.alarmWrite src 0x80000000#32).1.settle) = _
    rw [s.hostBlocked_alarm (.inr hstate), if_neg Bool.false_ne_true, s.alarmWrite_raise]
  have haction' : (s.alarmKept.f SEC_ALARM_CFG_ACTION).testBit 6 = true := by
    rw [State.f_of_reg (x := SEC_ALARM_CFG_ACTION) (s.alarmKept_reg _)]
    exact haction
  exact ⟨_, hexec, (State.alarm_settles _ (by decide) haction').of_kept⟩

theorem alarmRaise_reports (hcalm : s.Calm) (hsrc : src ≠ 0 ∨ s.secState = 0) (haction : (s.f SEC_ALARM_CFG_ACTION).testBit 6 = false) :
    ∃ t, exec (.alarmRaise src) s = .next t ∧ t.f SEC_ALARM_AL = s.f SEC_ALARM_AL ||| 64 ∧
      (t.reg (HIF_IRQ_STAT 11)).toNat.testBit 8 = true ∧
      Keeps (fun a => a = SEC_ALARM ∨ a = HIF_IRQ_STAT 11) [.host, .tail, .mesh] s t := by
  have haction' : (s.alarmKept.f SEC_ALARM_CFG_ACTION).testBit 6 = false := by
    rw [State.f_of_reg (x := SEC_ALARM_CFG_ACTION) (s.alarmKept_reg _)]
    exact haction
  have hraise : (s.alarmWrite src 0x80000000#32).1 = s.alarmKept.alarmShown 6 := by
    rw [s.alarmWrite_raise, State.raiseAlarm_eq, haction', if_neg Bool.false_ne_true]
  have honly : Only 132609 s (s.alarmKept.alarmShown 6) := (State.alarmShown_only _ _).after (by decide) ((setReg_only _ _ _).mono (by decide))
  have hreg (a : Nat) (ha : a ≠ SEC_ALARM) (hirq : a ≠ HIF_IRQ_STAT 11) : (s.alarmKept.alarmShown 6).reg a = s.reg a :=
    (State.alarmShown_reg _ 6 ha hirq).trans (s.alarmKept_reg a)
  have hsettle : (s.alarmKept.alarmShown 6).settle = s.alarmKept.alarmShown 6 := by
    refine State.settle_calm _ ?_ ((State.powerAim_congr (hreg _ (by decide) (by decide))).trans hcalm.2)
    rw [honly.sec (by decide)]
    exact hcalm.1
  have hexec : exec (.alarmRaise src) s = .next (s.alarmKept.alarmShown 6) := by
    show Host.Outcome.next (if s.hostBlocked src SEC_ALARM then s else (s.alarmWrite src 0x80000000#32).1.settle) = _
    rw [s.hostBlocked_alarm hsrc, if_neg Bool.false_ne_true, hraise, hsettle]
  refine ⟨_, hexec, ?_, State.raise_irq _ 360, honly.keeps fun a ha => hreg a (fun h => ha (.inl h)) fun h => ha (.inr h)⟩
  exact (State.alarmShown_bits _ (by decide)).trans (congrArg (· ||| 2 ^ 6) (State.f_of_reg (x := SEC_ALARM_AL) (s.alarmKept_reg _)))

theorem mask_low {mask : Nat} (h : mask < 128) : BitVec.ofNat 32 (mask % 128) &&& 0x7F#32 = BitVec.ofNat 32 mask ∧
    fget (BitVec.ofNat 32 (mask % 128)) 31 31 = 0 ∧ fget (BitVec.ofNat 32 (mask % 128)) 6 0 = mask := by
  rw [Nat.mod_eq_of_lt h]
  refine ⟨BitVec.eq_of_toNat_eq ?_, ?_, ?_⟩
  · rw [BitVec.toNat_and, BitVec.toNat_ofNat, Nat.mod_eq_of_lt (by omega)]
    show mask &&& 2 ^ 7 - 1 = mask
    rw [Nat.and_two_pow_sub_one_eq_mod, Nat.mod_eq_of_lt h]
  · unfold fget
    rw [BitVec.extractLsb'_toNat, Nat.shiftRight_eq_div_pow, BitVec.toNat_ofNat]
    omega
  · unfold fget
    rw [BitVec.extractLsb'_toNat, Nat.shiftRight_eq_div_pow, BitVec.toNat_ofNat]
    omega

theorem alarmClear_clears (hcalm : s.Calm) {mask : Nat} (hmask : mask < 128)
    (hsrc : src = 17 ∨ (s.secState = 0 ∧ (src = 0 ∨ src = 21 ∨ src = 22))) :
    ∃ t, exec (.alarmClear src mask) s = .next t ∧ t.reg SEC_ALARM = s.reg SEC_ALARM &&& ~~~ BitVec.ofNat 32 mask ∧
      Keeps (fun a => a = SEC_ALARM) [] s t := by
  obtain ⟨hlow, hraise, -⟩ := mask_low hmask
  have hopen : s.hostBlocked src SEC_ALARM = false := s.hostBlocked_alarm (hsrc.imp (fun h => by omega) And.left)
  have hwrite : (s.alarmWrite src (BitVec.ofNat 32 (mask % 128))).1 = s.setReg SEC_ALARM (s.reg SEC_ALARM &&& ~~~ BitVec.ofNat 32 mask) := by
    unfold State.alarmWrite
    rw [s.alarmSrc_iff.2 hsrc, if_neg fun h => Bool.false_ne_true h.2, hlow, hraise]
    rfl
  have hsettle : (s.setReg SEC_ALARM (s.reg SEC_ALARM &&& ~~~ BitVec.ofNat 32 mask)).settle =
      s.setReg SEC_ALARM (s.reg SEC_ALARM &&& ~~~ BitVec.ofNat 32 mask) :=
    State.settle_calm _ hcalm.1 ((State.powerAim_congr (State.reg_setReg_ne _ _ (by decide))).trans hcalm.2)
  have hexec : exec (.alarmClear src mask) s = .next (s.setReg SEC_ALARM (s.reg SEC_ALARM &&& ~~~ BitVec.ofNat 32 mask)) := by
    show Host.Outcome.next (if s.hostBlocked src SEC_ALARM then s else (s.alarmWrite src (BitVec.ofNat 32 (mask % 128))).1.settle) = _
    rw [hopen, if_neg Bool.false_ne_true, hwrite, hsettle]
  exact ⟨_, hexec, State.reg_setReg_self _ _ _, (setReg_only _ _ _).keeps fun a ha => State.reg_setReg_ne _ _ (Ne.symm ha)⟩

theorem alarmClear_dropped (hcalm : s.Calm) {mask : Nat} (hpos : 0 < mask) (hmask : mask < 128) (hsrc : src ≠ 17)
    (hdenied : s.secState ≠ 0 ∨ (src ≠ 0 ∧ src ≠ 21 ∧ src ≠ 22)) : ∃ t, exec (.alarmClear src mask) s = .next t ∧ t = s := by
  obtain ⟨-, -, hbits⟩ := mask_low hmask
  have hno : s.alarmSrc src = false := by
    rw [Bool.eq_false_iff]
    intro h
    obtain h | ⟨hstate, hfrom⟩ := s.alarmSrc_iff.1 h
    · exact hsrc h
    · exact hdenied.elim (· hstate) fun ⟨h0, h21, h22⟩ => hfrom.elim h0 fun h => h.elim h21 h22
  have hwrite : (s.alarmWrite src (BitVec.ofNat 32 (mask % 128))).1 = s := by
    unfold State.alarmWrite
    rw [hbits, hno, if_pos ⟨hpos.ne', rfl⟩]
  refine ⟨s, ?_, rfl⟩
  show Host.Outcome.next (if s.hostBlocked src SEC_ALARM then s else (s.alarmWrite src (BitVec.ofNat 32 (mask % 128))).1.settle) = _
  rw [hwrite, State.settle_calm s hcalm.1 hcalm.2, ite_self]

/-! ### Challenge, response and check (R488, R549) -/

theorem State.authSelected_of (hir : s.scan.ir = 0x11) (hsealed : s.secState ≠ 2) : s.authSelected = true := by
  unfold State.authSelected
  rw [hir, bne_iff_ne.2 hsealed]
  rfl

theorem State.authCapture_locked (h : s.on SEC_AUTH_STAT_LOCKED_OUT = true) : s.authCapture = s.setScan { s.scan with dr := 0 } := by
  unfold State.authCapture
  split
  · rfl
  · rw [if_pos h]

/-- The next word of the challenge. -/
theorem State.authCapture_word {n : Nat} (hnonce : s.sec.nonce = some n) (hlock : s.on SEC_AUTH_STAT_LOCKED_OUT = false)
    (hword : s.sec.authWord < 12) : s.authCapture = (s.setSec { s.sec with authWord := s.sec.authWord + 1 }).setScan
      { s.scan with dr := s.challenge n / 2 ^ (32 * s.sec.authWord) % 2 ^ 32 } := by
  unfold State.authCapture
  split
  next hnone => rw [hnone] at hnonce; cases hnonce
  next m hm =>
    obtain rfl : m = n := Option.some.inj (hm.symm.trans hnonce)
    exact (if_neg (by rw [hlock]; exact Bool.false_ne_true)).trans (if_pos hword)

/-- A capture moves the place in the challenge alone. -/
theorem State.authCapture_sec : ∃ k, s.authCapture.sec = { s.sec with authWord := k } := by
  unfold State.authCapture
  split
  · exact ⟨s.sec.authWord, rfl⟩
  split
  · exact ⟨s.sec.authWord, rfl⟩
  split
  · exact ⟨s.sec.authWord + 1, by rw [State.setScan_sec, State.setSec_sec]⟩
  · exact ⟨s.sec.authWord, (freeNext_only _).sec (by decide)⟩

theorem challengeRequest_draws (hir : s.scan.ir = 0x11) (hsealed : s.secState ≠ 2) (hbusy : s.on SEC_AUTH_STAT_BUSY = false)
    (hlock : s.on SEC_AUTH_STAT_LOCKED_OUT = false) (halarm : s.secState = 0 ∨ s.alarmed = false) (n : Nat) :
    ∃ t, exec (.challengeRequest n) s = .next t ∧ t.sec = { s.sec with nonce := some (n % 2 ^ 256), authWord := 0, resp := [] } ∧
      Keeps (fun _ => False) [.scan, .sec] s t := by
  have hquiet : (s.alarmed && s.secState == 1) = false := by
    rcases halarm with h | h
    · rw [h]
      exact Bool.and_false _
    · rw [h]
      rfl
  have hexec : exec (.challengeRequest n) s =
      .next (s.authCapture.setSec { s.authCapture.sec with nonce := some (n % 2 ^ 256), authWord := 0, resp := [] }) := by
    show Host.Outcome.next (if !s.authSelected || s.on SEC_AUTH_STAT_BUSY then s
      else if s.on SEC_AUTH_STAT_LOCKED_OUT || (s.alarmed && s.secState == 1) then s.authCapture
      else s.authCapture.setSec { s.authCapture.sec with nonce := some (n % 2 ^ 256), authWord := 0, resp := [] }) = _
    rw [s.authSelected_of hir hsealed, hbusy, hlock, hquiet]
    rfl
  have honly : Only 294912 s (s.authCapture.setSec { s.authCapture.sec with nonce := some (n % 2 ^ 256), authWord := 0, resp := [] }) :=
    (setSec_only _ _ (by exact Fuses.Grows.refl _)).after (by decide) (authCapture_only s)
  obtain ⟨k, hsec⟩ := s.authCapture_sec
  exact ⟨_, hexec, by rw [State.setSec_sec, hsec], honly.keepsRegs⟩

theorem challengeRequest_locked (hir : s.scan.ir = 0x11) (hsealed : s.secState ≠ 2) (hbusy : s.on SEC_AUTH_STAT_BUSY = false)
    (hlock : s.on SEC_AUTH_STAT_LOCKED_OUT = true) (n : Nat) :
    ∃ t, exec (.challengeRequest n) s = .next t ∧ t.scan = { s.scan with dr := 0 } ∧ Keeps (fun _ => False) [.scan] s t := by
  have hexec : exec (.challengeRequest n) s = .next (s.setScan { s.scan with dr := 0 }) := by
    show Host.Outcome.next (if !s.authSelected || s.on SEC_AUTH_STAT_BUSY then s
      else if s.on SEC_AUTH_STAT_LOCKED_OUT || (s.alarmed && s.secState == 1) then s.authCapture
      else s.authCapture.setSec { s.authCapture.sec with nonce := some (n % 2 ^ 256), authWord := 0, resp := [] }) = _
    rw [s.authSelected_of hir hsealed, hbusy, hlock, s.authCapture_locked hlock]
    rfl
  exact ⟨_, hexec, rfl, (setScan_only _ _).keepsRegs⟩

/-- A word of the response has been taken, and the challenge captured. -/
def State.responded (s : State) (w : Word) : State := s.authCapture.setSec { s.authCapture.sec with resp := s.sec.resp ++ [w] }

theorem State.responded_only (w : Word) : Only 294912 s (s.responded w) :=
  (setSec_only _ _ (by exact Fuses.Grows.refl _)).after (by decide) (authCapture_only s)

theorem State.responded_reg (w : Word) (a : Nat) : (s.responded w).reg a = s.reg a := State.reg_congr ((s.responded_only w).regs (by decide)) a

theorem State.responded_shows {n : Nat} (hnonce : s.sec.nonce = some n) (hlock : s.on SEC_AUTH_STAT_LOCKED_OUT = false)
    (hword : s.sec.authWord < 12) (w : Word) :
    (s.responded w).sec = { s.sec with resp := s.sec.resp ++ [w], authWord := s.sec.authWord + 1 } ∧
      (s.responded w).scan = { s.scan with dr := s.challenge n / 2 ^ (32 * s.sec.authWord) % 2 ^ 32 } := by
  unfold State.responded
  rw [State.setSec_sec, State.setSec_scan, s.authCapture_word hnonce hlock hword, State.setScan_sec, State.setSec_sec, State.setScan_scan]
  exact ⟨rfl, rfl⟩

theorem responseWord_kept (hir : s.scan.ir = 0x11) (hsealed : s.secState ≠ 2) (hbusy : s.on SEC_AUTH_STAT_BUSY = false) {n : Nat}
    (hnonce : s.sec.nonce = some n) (hword : s.sec.authWord < 12) (hlock : s.on SEC_AUTH_STAT_LOCKED_OUT = false) {w : Word} (hw : w ≠ 1#32) :
    ∃ t, exec (.responseWord w) s = .next t ∧ t.sec = { s.sec with resp := s.sec.resp ++ [w], authWord := s.sec.authWord + 1 } ∧
      t.scan = { s.scan with dr := (s.sec.fuses.uid % 2 ^ 128 + n % 2 ^ 256 * 2 ^ 128) / 2 ^ (32 * s.sec.authWord) % 2 ^ 32 } ∧
      t.on SEC_AUTH_STAT_BUSY = decide (48 ≤ s.sec.resp.length) ∧ Keeps (fun a => a = SEC_AUTH_STAT) [.sec, .scan] s t := by
  have htaken : (s.authSelected && s.sec.nonce.isSome && !s.on SEC_AUTH_STAT_BUSY && w != 1#32) = true := by
    rw [s.authSelected_of hir hsealed, hnonce, hbusy, bne_iff_ne.2 hw]
    rfl
  have hexec : exec (.responseWord w) s =
      .next (if 49 ≤ (s.sec.resp ++ [w]).length then (s.responded w).put SEC_AUTH_STAT_BUSY 1 else s.responded w) := by
    show Host.Outcome.next (if s.authSelected && s.sec.nonce.isSome && !s.on SEC_AUTH_STAT_BUSY && w != 1#32 then _ else s) = _
    rw [if_pos htaken]
    rfl
  obtain ⟨hsec, hscan⟩ := s.responded_shows hnonce hlock hword w
  unfold State.challenge at hscan
  have honly : Only 294913 s (s.responded w) := (s.responded_only w).mono (by decide)
  rw [List.length_append, List.length_singleton] at hexec
  by_cases hlast : 48 ≤ s.sec.resp.length
  · rw [if_pos (by omega)] at hexec
    exact ⟨_, hexec, hsec, hscan, (State.on_put_one _ rfl (by decide)).trans (decide_eq_true hlast).symm,
      ((put_only _ _ _).after (by decide) honly).keeps fun a ha => (State.reg_put_ne _ _ (Ne.symm ha)).trans (s.responded_reg w a)⟩
  · rw [if_neg (by omega)] at hexec
    have hidle : (s.responded w).on SEC_AUTH_STAT_BUSY = false := (State.on_of_reg (x := SEC_AUTH_STAT_BUSY) (s.responded_reg w _)).trans hbusy
    exact ⟨_, hexec, hsec, hscan, hidle.trans (decide_eq_false hlast).symm, honly.keeps fun a _ => s.responded_reg w a⟩

/-- The check has begun to end: BUSY falls and the response is gone. -/
def State.authEnds (s : State) : State := (s.put SEC_AUTH_STAT_BUSY 0).setSec { s.sec with resp := [] }

/-- The debugger is authenticated. -/
def State.authPassed (s : State) : State :=
  (((s.authEnds.setSec { s.authEnds.sec with nonce := none, used := s.authEnds.sec.used ++ s.authEnds.sec.nonce.toList }).put DBG_CTRL_AUTHED 1).put
    SEC_AUTH_STAT_PERMS (fget (s.sec.resp.headD 0) 2 0)).put SEC_AUTH_STAT_FAILS 0

/-- A check has failed. -/
def State.authFailed (s : State) : State := (s.authEnds.satF SEC_AUTH_STAT_FAILS 1).raise 361

theorem execAuthCheck_eq (hbusy : s.on SEC_AUTH_STAT_BUSY = true) : exec .authCheck s = .next (if s.authOk then s.authPassed
    else if 8 ≤ s.authFailed.f SEC_AUTH_STAT_FAILS then s.authFailed.put SEC_AUTH_STAT_LOCKED_OUT 1 else s.authFailed) := by
  show Host.Outcome.next (if s.on SEC_AUTH_STAT_BUSY then _ else s) = _
  rw [if_pos hbusy]
  rfl

theorem State.authEnds_only : Only 262145 s s.authEnds :=
  (setSec_only (s.put SEC_AUTH_STAT_BUSY 0) _ (by exact Fuses.Grows.refl _)).after (by decide) ((put_only _ _ _).mono (by decide))

theorem State.authPassed_only : Only 262145 s s.authPassed :=
  (put_only _ _ _).after (by decide) ((put_only _ _ _).after (by decide) ((put_only _ _ _).after (by decide)
    ((setSec_only _ _ (by exact Fuses.Grows.refl _)).after (by decide) s.authEnds_only)))

theorem State.authFailed_only : Only 394753 s s.authFailed :=
  (raise_only _ _).after (by decide) ((satF_only _ _ _).after (by decide) (s.authEnds_only.mono (by decide)))

theorem State.authEnds_reg {a : Nat} (ha : a ≠ SEC_AUTH_STAT) : s.authEnds.reg a = s.reg a :=
  State.reg_put_ne s (x := SEC_AUTH_STAT_BUSY) 0 ha.symm

theorem State.authEnds_busy : s.authEnds.on SEC_AUTH_STAT_BUSY = false :=
  State.on_put_zero s (x := SEC_AUTH_STAT_BUSY) rfl (by decide)

theorem State.authPassed_shows : s.authPassed.on DBG_CTRL_AUTHED = true ∧
    s.authPassed.f SEC_AUTH_STAT_PERMS = fget (s.sec.resp.headD 0) 2 0 ∧ s.authPassed.f SEC_AUTH_STAT_FAILS = 0 ∧
    s.authPassed.on SEC_AUTH_STAT_BUSY = false := by
  have hperms : fget (s.sec.resp.headD 0) 2 0 < 2 ^ 3 := BitVec.isLt _
  unfold State.authPassed
  refine ⟨?_, ?_, State.f_put _ _ _ (by decide) (by decide), ?_⟩
  · rw [State.on_put_ne _ _ (by decide), State.on_put_ne _ _ (by decide)]
    exact State.on_put_one _ rfl (by decide)
  · rw [State.f_put_apart _ _ (by decide) (by decide) (.inr (.inr (by decide))), State.f_put _ _ _ (by decide) (by decide)]
    exact Nat.mod_eq_of_lt hperms
  · rw [State.on_put_apart _ _ (by decide) (by decide) (.inr (.inr (by decide))),
      State.on_put_apart _ _ (by decide) (by decide) (.inr (.inr (by decide))), State.on_put_ne _ _ (by decide)]
    exact s.authEnds_busy

theorem State.authFailed_reg {a : Nat} (ha : a ≠ SEC_AUTH_STAT) (hirq : a ≠ HIF_IRQ_STAT 11) : s.authFailed.reg a = s.reg a := by
  unfold State.authFailed
  rw [State.raise_reg _ hirq]
  exact (State.reg_put_ne _ _ ha.symm).trans (s.authEnds_reg ha)

theorem State.authFailed_shows : s.authFailed.f SEC_AUTH_STAT_FAILS = min (s.f SEC_AUTH_STAT_FAILS + 1) 15 ∧
    s.authFailed.on SEC_AUTH_STAT_LOCKED_OUT = s.on SEC_AUTH_STAT_LOCKED_OUT ∧ s.authFailed.on SEC_AUTH_STAT_BUSY = false := by
  have hfails : s.authEnds.f SEC_AUTH_STAT_FAILS = s.f SEC_AUTH_STAT_FAILS :=
    State.f_put_apart s (x := SEC_AUTH_STAT_BUSY) 0 (by decide) (by decide) (.inr (.inl (by decide)))
  have hlocked : s.authEnds.on SEC_AUTH_STAT_LOCKED_OUT = s.on SEC_AUTH_STAT_LOCKED_OUT :=
    State.on_put_apart s (x := SEC_AUTH_STAT_BUSY) 0 (by decide) (by decide) (.inr (.inl (by decide)))
  unfold State.authFailed
  refine ⟨?_, ?_, ?_⟩
  · rw [State.raise_f _ (by decide), State.f_satF _ _ (by decide) (by decide), hfails]
    rfl
  · rw [State.raise_on _ (by decide), ← hlocked]
    exact State.on_put_apart _ _ (by decide) (by decide) (.inr (.inr (by decide)))
  · rw [State.raise_on _ (by decide), ← s.authEnds_busy]
    exact State.on_put_apart _ _ (by decide) (by decide) (.inr (.inr (by decide)))

theorem authCheck_passes (hbusy : s.on SEC_AUTH_STAT_BUSY = true) (hok : s.authOk = true) :
    exec .authCheck s = .next s.authPassed ∧
      s.authPassed.sec = { s.sec with nonce := none, used := s.sec.used ++ s.sec.nonce.toList, resp := [] } ∧
      Keeps (fun a => a = SEC_AUTH_STAT ∨ a = DBG_CTRL ∨ a = HIF_IRQ_STAT 11) [.sec, .host, .tail, .mesh] s s.authPassed := by
  refine ⟨by rw [execAuthCheck_eq s hbusy, if_pos hok], rfl, s.authPassed_only.keeps fun a ha => ?_⟩
  simp only [not_or] at ha
  obtain ⟨hauth, hdbg, -⟩ := ha
  unfold State.authPassed
  rw [State.reg_put_ne _ _ (Ne.symm hauth), State.reg_put_ne _ _ (Ne.symm hauth), State.reg_put_ne _ _ (Ne.symm hdbg)]
  exact s.authEnds_reg hauth

theorem authCheck_fails (hbusy : s.on SEC_AUTH_STAT_BUSY = true) (hok : s.authOk = false) :
    ∃ t, exec .authCheck s = .next t ∧ t.f SEC_AUTH_STAT_FAILS = min (s.f SEC_AUTH_STAT_FAILS + 1) 15 ∧
      t.on SEC_AUTH_STAT_LOCKED_OUT = (s.on SEC_AUTH_STAT_LOCKED_OUT || decide (7 ≤ s.f SEC_AUTH_STAT_FAILS)) ∧
      (t.reg (HIF_IRQ_STAT 11)).toNat.testBit 9 = true ∧ t.reg DBG_CTRL = s.reg DBG_CTRL ∧ t.sec = { s.sec with resp := [] } ∧
      t.on SEC_AUTH_STAT_BUSY = false ∧
      Keeps (fun a => a = SEC_AUTH_STAT ∨ a = DBG_CTRL ∨ a = HIF_IRQ_STAT 11) [.sec, .host, .tail, .mesh] s t := by
  obtain ⟨hfails, hlocked, hidle⟩ := s.authFailed_shows
  have hexec := execAuthCheck_eq s hbusy
  have hsec : s.authFailed.sec = { s.sec with resp := [] } := (raise_only _ _).sec (by decide)
  have hirq : (s.authFailed.reg (HIF_IRQ_STAT 11)).toNat.testBit 9 = true := State.raise_irq _ 361
  rw [hok, if_neg Bool.false_ne_true, hfails] at hexec
  by_cases hout : 7 ≤ s.f SEC_AUTH_STAT_FAILS
  · rw [if_pos (by omega)] at hexec
    refine ⟨_, hexec, ?_, ?_, ?_, ?_, hsec, ?_, ((put_only _ _ _).after (by decide) s.authFailed_only).keeps fun a ha => ?_⟩
    · rw [State.f_put_apart _ _ (by decide) (by decide) (.inr (.inl (by decide))), hfails]
    · rw [State.on_put_one _ rfl (by decide), decide_eq_true hout, Bool.or_true]
    · rw [State.reg_put_ne _ _ (by decide), hirq]
    · rw [State.reg_put_ne _ _ (by decide), s.authFailed_reg (by decide) (by decide)]
    · rw [State.on_put_apart _ _ (by decide) (by decide) (.inr (.inr (by decide))), hidle]
    · rw [State.reg_put_ne _ _ fun h => ha (.inl h.symm), s.authFailed_reg (fun h => ha (.inl h)) fun h => ha (.inr (.inr h))]
  · rw [if_neg (by omega)] at hexec
    exact ⟨_, hexec, hfails, by rw [hlocked, decide_eq_false hout, Bool.or_false], hirq, s.authFailed_reg (by decide) (by decide), hsec, hidle,
      s.authFailed_only.keeps fun a ha => s.authFailed_reg (fun h => ha (.inl h)) fun h => ha (.inr (.inr h))⟩

/-- With no nonce, no DBG_HASH or a used nonce no response authenticates. -/
theorem State.authOk_false {n : Nat} (h : s.sec.nonce = none ∨ s.sec.fuses.dbg = none ∨ (s.sec.nonce = some n ∧ n ∈ s.sec.used)) :
    s.authOk = false := by
  unfold State.authOk
  split
  · rfl
  next m hm =>
    dsimp only
    obtain h | h | ⟨h, hused⟩ := h
    · rw [hm] at h
      cases h
    · rw [h, decide_eq_false (by simp), Bool.false_and, Bool.false_and]
    · obtain rfl : m = n := Option.some.inj (hm.symm.trans h)
      rw [decide_eq_true hused, Bool.not_true, Bool.and_false]

end

/-- Settles O56: alarms, how they are raised and cleared, and the challenge, the response and the check of debug authentication. -/
theorem alarmsAndAuthentication : Obligations.AlarmsAndAuthentication := by
  unfold Obligations.AlarmsAndAuthentication
  intro s hcalm
  refine ⟨fun haction _ => ?_, fun haction _ => ?_, fun src haction hstate => ?_,
    fun src hsrc haction => alarmRaise_reports s hcalm hsrc haction,
    fun src mask hmask hsrc => alarmClear_clears s hcalm hmask hsrc,
    fun src mask hpos hmask hsrc hdenied => alarmClear_dropped s hcalm hpos hmask hsrc hdenied,
    fun n hir hsealed hbusy hlock halarm => challengeRequest_draws s hir hsealed hbusy hlock halarm n,
    fun n hir hsealed hbusy hlock => challengeRequest_locked s hir hsealed hbusy hlock n,
    fun w n hir hsealed hbusy hnonce hword hlock hw => responseWord_kept s hir hsealed hbusy hnonce hword hlock hw, fun hbusy => ?_,
    fun n h => s.authOk_false h⟩
  · exact ⟨_, rfl, (s.alarm_settles (b := 4) (by decide) haction).effects⟩
  · exact ⟨_, rfl, (s.alarm_settles (b := 3) (by decide) haction).effects⟩
  · obtain ⟨t, hexec, h⟩ := alarmRaise_alarms s (src := src) haction hstate
    exact ⟨t, hexec, h.effects⟩
  · by_cases hok : s.authOk = true
    · obtain ⟨hexec, hsec, hkeeps⟩ := authCheck_passes s hbusy hok
      obtain ⟨hauthed, hperms, hfails, hidle⟩ := s.authPassed_shows
      refine ⟨_, hexec, ?_, hidle, hkeeps⟩
      rw [if_pos hok]
      exact ⟨hauthed, hperms, hfails, hsec⟩
    · obtain ⟨t, hexec, hfails, hlocked, hirq, hdbg, hsec, hidle, hkeeps⟩ := authCheck_fails s hbusy (Bool.eq_false_iff.2 hok)
      refine ⟨t, hexec, ?_, hidle, hkeeps⟩
      rw [if_neg hok]
      exact ⟨hfails, hlocked, hirq, hdbg, hsec⟩

end Sys2Proof.Machine
end
